-- ==== Sys2Proof/Word.lean ====
section
/-! DEFINITION. The word types: bytes, 32- and 64-bit register words, and the exact values that the
number formats of chapter 2 stand for. -/

namespace Sys2Proof

/-- One byte. -/
abbrev Byte := BitVec 8

/-- A 32-bit register or FP32 word. -/
abbrev Word32 := BitVec 32

/-- A register of up to 64 bits (R7); a 32-bit register keeps its upper half zero. -/
abbrev Word64 := BitVec 64

/-- A sparse table: keys rising, each key at most once. -/
abbrev Tbl (α : Type) := List (Nat × α)

/-- The value a number-format code stands for (R47): NaN, an infinity, or a signed dyadic
`± m × 2^e`, exact. The sign of a zero is kept. -/
inductive FVal where
  | nan
  | inf (neg : Bool)
  | fin (neg : Bool) (m : Nat) (e : Int)
  deriving DecidableEq, Repr

/-- The floating-point formats of R47. -/
inductive NumFmt where
  | fp32 | bf16 | fp16 | e4m3 | e5m2 | e2m1
  deriving DecidableEq, Repr

/-- How a register field is read and written: the access codes of R10, with the class of R14 for the
writable ones. `live` is RW Live, `static` RW Static (R15), `shadowed` RW Shadowed (R17), `wo` WO Live,
`w1c` W1C. -/
inductive FieldKind where
  | ro | live | static | shadowed | wo | w1c
  deriving DecidableEq, Repr

/-- Bits `[hi:lo]` of a register and how they are accessed. Bits no field covers are reserved (R12). -/
structure FieldDesc where
  hi : Nat
  lo : Nat
  kind : FieldKind
  deriving DecidableEq, Repr

/-- The shadow groups of the device (R18, R221, R286, R290, R303, R371, R440). -/
inductive ShadowGroup where
  | tt | srv | cmp | fus | trl | rfx
  deriving DecidableEq, Repr

/-- One row of a register table: its base address, its array dimensions (count, stride), its width, its
reset value, its fields, the ENABLE its Static fields obey (address for index 0, stride per first index,
bit), and its shadow group. -/
structure RegDesc where
  name : String
  base : Nat
  dims : List (Nat × Nat)
  width : Nat
  reset : Nat
  fields : List FieldDesc
  enable : Option (Nat × Nat × Nat)
  group : Option ShadowGroup
  deriving DecidableEq, Repr

/-- A field of one register: its address and bits `[hi:lo]`. -/
structure Fld where
  addr : Nat
  hi : Nat
  lo : Nat
  deriving DecidableEq, Repr

/-- Who makes an access: application hart 0–7, control hart 0–3, or the PCIe host (R9, R217). -/
inductive Initiator where
  | app (h : Nat)
  | ctl (h : Nat)
  | pcie
  deriving DecidableEq, Repr

end Sys2Proof
end

