-- ==== Sys2Proof/Syntax.lean ====
section
/-! DEFINITION. The commands: one constructor per row of the opcode table, with the operands the event or
access carries. Time, state and configuration are not operands: they are in State. -/

namespace Sys2Proof

/-- The commands of the block. -/
inductive Instr where
  /-- REGISTER_WRITE (R23): A write to a register that has no row of its own; it takes effect per field class, access code and the silent-violation rules. -/
  | registerWrite (who : Initiator) (addr size : Nat) (val : Word64)
  /-- REGISTER_WRITE_LOWER_HALF (R9): A 32-bit write of the lower half of a 64-bit register is held for its initiator until that initiator writes the upper half. -/
  | registerWriteLowerHalf (who : Initiator) (addr : Nat) (val : Word32)
  /-- REGISTER_READ_LOWER_HALF (R9): A read of the lower half of a 64-bit register captures the upper half for that initiator. -/
  | registerReadLowerHalf (who : Initiator) (addr : Nat)
  /-- COUNTER_CLEAR (R113): A write of 1 to a block's CNT_CLR_ALL field clears that block's counters. -/
  | counterClear (who : Initiator) (addr : Nat) (val : Word64)
  /-- DESCRIPTOR_FETCH (R86): The sequencer fetches command descriptors in stream order, up to 32 ahead of dispatch, and stops after a COMMIT. -/
  | descriptorFetch (n : Nat)
  /-- DISPATCH (R89): The sequencer checks the next descriptor and dispatches it to its path queue once that queue has room. -/
  | dispatch (n : Nat)
  /-- LOAD (R71): The weight path reads a weight tile from the W-store into the shadow plane. -/
  | load (n : Nat)
  /-- MATMUL (R73): The compute path streams M activation vectors through the active plane and writes the results to the P-store. -/
  | matmul (n : Nat)
  /-- CONV (R122): The compute path gathers one convolution vector per output pixel and multiplies it against the active plane. -/
  | conv (n : Nat)
  /-- POOL (R140): The vector engine computes max or average pooling over fixed windows. -/
  | pool (n : Nat)
  /-- ROIA (R135): The vector engine crops and resizes each box of a list into bins by bilinear sampling. -/
  | roia (n : Nat)
  /-- ATTN (R156): The attention unit runs scaled dot-product attention for one layer over the paged KV cache. -/
  | attn (n : Nat)
  /-- VEC (R99): The vector engine applies an element-wise, special-function or reduction operation to a block. -/
  | vec (n : Nat)
  /-- PULL (R112): The tile mover moves tiles from the Fabric Address Space into a scratchpad region. -/
  | pull (n : Nat)
  /-- STORE (R112): The tile mover writes tiles from a scratchpad region to the Fabric Address Space. -/
  | store (n : Nat)
  /-- FENCE (R90): Dispatch is held until the named paths, and optionally earlier STOREs, have completed. -/
  | fence (n : Nat)
  /-- COMMIT (R91): The sequencer waits for every earlier command and STORE acknowledgement of the logical core. -/
  | commit (n : Nat)
  /-- READ_STALL_RESUME (R80): A read stalled on a region tail issues in the cycle after the tail passes it. -/
  | readStallResume (n path : Nat)
  /-- WRITE_STALL_RESUME (R81): A write stalled on a region head issues once the head has moved far enough. -/
  | writeStallResume (n path : Nat)
  /-- TILE_LANDED (R82): A PULL tile lands in its region, and the tail advances across the contiguous prefix of landed tiles. -/
  | tileLanded (n tile : Nat) (errs : List Nat)
  /-- STORE_ACK (R91): The destination tier acknowledges a STORE tile. -/
  | storeAck (n tile : Nat)
  /-- COMMAND_COMPLETE (R101): A command completes, leaves its queue, applies its releases and writes a status record when IRQ or BUDGET is set. -/
  | commandComplete (n path : Nat)
  /-- BUDGET_RAISE (R106): A command that has not completed by start + BUDGET raises BUDGET and continues. -/
  | budgetRaise (n path : Nat)
  /-- BUDGET_KILL (R107): A command that has not completed by start + 16 × BUDGET is killed and faults the context with code 0x09. -/
  | budgetKill (n path : Nat)
  /-- KILL_COMPLETE (R109): The core reports its kill complete within 307 cycles, and a SPILL step starts spilling. -/
  | killComplete (n : Nat)
  /-- TC_ENABLE_WRITE (R113): A write of TCn_CTRL_ENABLE; writing 0 pre-empts any step running on the core. -/
  | tcEnableWrite (who : Initiator) (n : Nat) (val : Word64)
  /-- SLOT_BOUNDARY (R224): At each timetable slot boundary the scheduler latches, snapshots, decides placements and changes performance levels. -/
  | slotBoundary
  /-- CORE_RELOCK_END (R37): A core island finishes its 2.0 µs relock to a new performance level and resumes. -/
  | coreRelockEnd (n : Nat)
  /-- COMMIT_REPORT (R91): A COMMIT reports to the scheduler that its logical core has finished the step. -/
  | commitReport (n : Nat)
  /-- SPILL_TILE_ACK (R239): A spill tile is acknowledged; the last one frees the core and makes the step PREEMPTED. -/
  | spillTileAck (n : Nat)
  /-- RESTORE_TILE_LANDED (R241): A restore tile lands in an SPL region; the last one makes the step RUNNING. -/
  | restoreTileLanded (n : Nat) (errs : List Nat)
  /-- TT_COMMIT (R221): A write of 1 to SCH_TT_COMMIT_COMMIT snapshots the timetable group for the next frame boundary. -/
  | ttCommit (who : Initiator) (val : Word64)
  /-- SCHEDULER_ENABLE (R255): A write of SCH_CTRL_ENABLE starts frames or pre-empts every step. -/
  | schedulerEnable (who : Initiator) (val : Word64)
  /-- CONTEXT_ENABLE (R238): A write of SCH_CTX_n_CTL_ENABLE enables a context or pre-empts its running step. -/
  | contextEnable (who : Initiator) (n : Nat) (val : Word64)
  /-- CONTEXT_FAULT_CLEAR (R254): A write of 1 to FAULTED resumes scheduling of the context at SCONS. -/
  | contextFaultClear (who : Initiator) (n : Nat) (val : Word64)
  /-- REMOTE_READ_RESPONSE (R246): A remote tile response arrives; it lands or, with a stale epoch, is discarded. -/
  | remoteReadResponse (slot : Nat) (data : List Byte)
  /-- FAS_ACCESS (R180): A hart, PCIe or core access to the Fabric Address Space is resolved through the directory and the placement table. -/
  | fasAccess (who : Initiator) (write : Bool) (addr len : Nat) (data : List Byte) (ecc block : Nat)
  /-- PLT_CREATE (R190): An accepted CREATE request fills a FREE entry and its directory units. -/
  | pltCreate
  /-- PLT_DESTROY (R190): An accepted DESTROY request clears the directory and frees the entry. -/
  | pltDestroy
  /-- PLT_PROMOTE (R193): An accepted PROMOTE request pins the object and starts or cancels migrations toward a faster tier. -/
  | pltPromote
  /-- PLT_EVICT (R192): An accepted EVICT request starts or defers a migration to a slower tier. -/
  | pltEvict
  /-- PLT_PIN (R190): An accepted PIN request adds 1 to PIN. -/
  | pltPin
  /-- PLT_UNPIN (R192): An accepted UNPIN request subtracts 1 from PIN and may start a deferred evict. -/
  | pltUnpin
  /-- PLT_READ (R190): An accepted READ request copies the entry into the request. -/
  | pltRead
  /-- MIGRATION_TILE (R195): A migration finishes writing one tile to its destination and advances MOVED. -/
  | migrationTile (obj : Nat) (errs : List Nat) (data : List Byte)
  /-- PUBLICATION_WALK (R203): After a commit, the placement engine clears UNC for the tag's objects and frees the tag. -/
  | publicationWalk (tag : Nat)
  /-- PLT_ENABLE (R214): Enabling the placement engine checks the set-up, zeroes the table, creates the ring object and sets READY. -/
  | pltEnable (who : Initiator) (val : Word64)
  /-- SCRUB_TILE (R210): Every PERIOD µs the LPDDR5X scrubber scrubs one tile of the protected data. -/
  | scrubTile (ce ue : List Nat)
  /-- PSRAM_SCRUB (R211): Every 512 µs each control PSRAM controller scrubs one KiB of its device. -/
  | psramScrub (d : Nat) (ce ue : List Nat)
  /-- DDR_REFRESH (R250): A per-bank LPDDR5X refresh falls due and takes precedence over all traffic. -/
  | ddrRefresh (wait : Nat)
  /-- KVP_ENABLE (R164): Enabling a page pool writes its free-page and host-slot stacks and sets READY. -/
  | kvpEnable (who : Initiator) (n : Nat) (val : Word64)
  /-- KVP_ADMIT (R165): A write of PTAB to SCH_KVP_ADMIT_n admits a sequence or refuses it. -/
  | kvpAdmit (who : Initiator) (n : Nat) (val : Word64)
  /-- KVP_RETIRE (R166): A write of PTAB to SCH_KVP_RETIRE_n frees the sequence's pages and sets it FREE. -/
  | kvpRetire (who : Initiator) (n : Nat) (val : Word64)
  /-- KVP_SERVE_REQUEST (R167): The controller serves an ATTN's page request: it pins, reclaims victims and allocates pages. -/
  | kvpServeRequest (n : Nat)
  /-- TIME_STEP_GO (R274): A write of 1 to TIM_STEP_CTL_GO accepts or refuses a time step. -/
  | timeStepGo (who : Initiator) (val : Word64)
  /-- TIME_STEP_EXECUTE (R275): In the step cycle, due compares fire, the accumulator loads the new time and pending samples are discarded. -/
  | timeStepExecute
  /-- FW_SAMPLE_SUBMIT (R279): A write of the upper half of TIM_SRC_FWOFS submits a firmware offset sample. -/
  | fwSampleSubmit (who : Initiator) (val : Word64)
  /-- SERVO_RATE_APPLY (R280): The new rate correction takes effect 8 Bandstand cycles after its sample. -/
  | servoRateApply
  /-- SOURCE_TIMEOUT (R282): The active time source becomes invalid; the servo enters holdover and may fall back. -/
  | sourceTimeout
  /-- SERVO_ENABLE (R282): A write of TIM_CTRL_ENABLE starts the servo on the primary source or holds y = I. -/
  | servoEnable (who : Initiator) (val : Word64)
  /-- SERVO_COMMIT (R290): A write of 1 to TIM_SRV_COMMIT_COMMIT snapshots the servo group for the next sample. -/
  | servoCommit (who : Initiator) (val : Word64)
  /-- COMPARE_FIRE (R283): An armed compare unit reaches its target, acts on its destination and re-arms or disarms. -/
  | compareFire (c ecc : Nat)
  /-- COMPARE_COMMIT (R286): A write of 1 to TIM_CMP_c_CTL_COMMIT snapshots the unit's group for its next firing. -/
  | compareCommit (who : Initiator) (c : Nat) (val : Word64)
  /-- COMPARE_ENABLE (R286): A write of the unit's ENABLE arms it on its active target or disarms it. -/
  | compareEnable (who : Initiator) (c : Nat) (val : Word64)
  /-- PULSE_END (R289): A compare pulse ends WIDTH ns after its firing. -/
  | pulseEnd (c : Nat)
  /-- CSI2_FRAME (R295): A CSI-2 frame arrives, is stamped and lands in its channel's ring. -/
  | csi2Frame (p ts id fnum lines bpl ecc crcErr : Nat) (data : List Byte)
  /-- ETH_SENSOR_FRAME (R296): A 10GBASE-T1 frame is matched to a channel and lands, or is dropped. -/
  | ethSensorFrame (port ts : Nat) (fcsOk : Bool) (frame : List Byte)
  /-- IMU_DATA_READY (R297): An IMU data-ready edge starts an SPI command-and-burst transaction. -/
  | imuDataReady (q : Nat) (rising : Bool)
  /-- IMU_BURST_COMPLETE (R297): The IMU burst completes and lands in the channel's ring. -/
  | imuBurstComplete (q : Nat) (data : List Byte)
  /-- CONVERSION_RESULT (R298): Conversion results are valid and, on decimation, an analog channel lands its value. -/
  | conversionResult (codes : List Int) (ok : Nat)
  /-- SNS_PROD_WRITE (R301): A producer's write of PROD on an EXT or FEATURE channel stamps ARR and publishes the record. -/
  | snsProdWrite (who : Initiator) (n : Nat) (val : Word64)
  /-- MODEL_TIMEOUT (R306): A model with no arrival within TIMEOUT × PER stops being VALID. -/
  | modelTimeout (n : Nat)
  /-- OUTPUT_INSTANT (R310): A fusion output instant latches pending tables and publishes the grid. -/
  | outputInstant
  /-- SLOT_SNAPSHOT (R311): At O − FUS_CUT_SLOT the estimator engine snapshots its inputs and computes its slots. -/
  | slotSnapshot
  /-- GRID_SNAPSHOT (R311): At O − FUS_CUT_GRID the splat engine snapshots its features and builds the grid. -/
  | gridSnapshot
  /-- FUS_COMMIT (R303): A write of 1 to FUS_COMMIT_COMMIT snapshots the fusion group for the next output instant. -/
  | fusCommit (who : Initiator) (val : Word64)
  /-- BATCH_START (R327): The solver starts the batch at SLV_BQ_CONS. -/
  | batchStart
  /-- PROBLEM_COMPLETE (R342): A batch engine finishes a problem and writes its result record. -/
  | problemComplete (e : Nat)
  /-- BATCH_END (R329): The batch ends 300 cycles after its last engine finishes; STATUS is written and CONS advances. -/
  | batchEnd
  /-- SOLVER_DISABLE (R346): A write of 0 to SLV_CTRL_ENABLE aborts the running batch. -/
  | solverDisable (who : Initiator) (val : Word64)
  /-- FUSION_PROBLEM_COMPLETE (R347): The fusion engine returns an EGO problem's result to the fusion unit. -/
  | fusionProblemComplete
  /-- OCC_SCAN_END (R359): The scan ends and checks for a torn read. -/
  | occScanEnd
  /-- OCC_BROADCAST (R360): A changed voxel is broadcast to every checker and confirmed by the lanes. -/
  | occBroadcast
  /-- OCC_COMMIT (R359): NEXT becomes CUR, every BLK latches and TRL_OGEN increments. -/
  | occCommit
  /-- TRL_REQUEST_ACCEPT (R367): Trellis accepts the next planning request and advances TRL_RQ_CONS. -/
  | trlRequestAccept
  /-- SEARCH_EXPANSION (R362): The search performs one expansion of the D* Lite search. -/
  | searchExpansion
  /-- PLAN_OUTPUT (R367): At the output instant the held path is rechecked and written as a plan record. -/
  | planOutput
  /-- TRL_DEADLINE (R368): At DEADLINE − TRL_MARGIN the search or hold stops and the fallback is written. -/
  | trlDeadline
  /-- TRL_COMMIT (R371): A write of 1 to TRL_COMMIT_COMMIT snapshots the bank and occupancy group. -/
  | trlCommit (who : Initiator) (val : Word64)
  /-- TRL_LATCH (R371): When no request is in progress, the pending group latches; banks reload and occupancy is re-ingested. -/
  | trlLatch
  /-- TRL_BANK_LOADED (R357): A bank load finishes and its checks accept or refuse the bank. -/
  | trlBankLoaded
  /-- TRL_ENABLE_WRITE (R373): A write of TRL_CTRL_ENABLE; 0 ends any search and answers the request with its fallback. -/
  | trlEnableWrite (who : Initiator) (val : Word64)
  /-- HART_RUN_WRITE (R380): A write of a control hart's RUN bit starts it at RVEC or holds it in reset. -/
  | hartRunWrite (who : Initiator) (h : Nat) (val : Word64)
  /-- WATCHDOG_KICK (R381): A write of 1 to KICK restarts the hart's watchdog. -/
  | watchdogKick (who : Initiator) (h : Nat) (val : Word64)
  /-- WATCHDOG_EXPIRE (R381): The watchdog expires and raises Smrnmi, or resets the hart on a second expiry. -/
  | watchdogExpire (h : Nat)
  /-- ICU_CLAIM (R387): A read of a target's CLAIM returns and activates the best deliverable source. -/
  | icuClaim (who : Initiator) (t : Nat)
  /-- ICU_COMPLETE (R388): A write of COMPLETE pops the matching stack top, or records a completion fault. -/
  | icuComplete (who : Initiator) (t : Nat) (val : Word64)
  /-- ICU_RESET (R390): A write of 1 to a target's RESET empties its stack. -/
  | icuReset (who : Initiator) (t : Nat) (val : Word64)
  /-- ICU_SWI (R393): A write of BLV_ICU_SWI pulses a software source. -/
  | icuSwi (who : Initiator) (val : Word64)
  /-- TIO_INPUT_EDGE (R394): A selected edge on a timed I/O input is timestamped and pulses its source. -/
  | tioInputEdge (p : Nat) (level : Bool)
  /-- LOOP_OUTPUT_APPLY (R398): A loop applies its output 60 + 8p cycles after the boundary and writes its output word. -/
  | loopOutputApply (n : Nat) (mismatch : Bool)
  /-- LOOP_ENABLE_WRITE (R404): A write of a loop's ENABLE enables it, or refuses with CFGERR. -/
  | loopEnableWrite (who : Initiator) (n : Nat) (val : Word64)
  /-- PLAUS_CLEAR (R408): A write of 1 to a loop's PLAUS ends its action at the next boundary. -/
  | plausClear (who : Initiator) (n : Nat) (val : Word64)
  /-- REFLEX_RELEASE (R413): At T2 a group's input vector is released into the arrays, or takes BUSY. -/
  | reflexRelease (c : Nat) (codes : List Int) (absent ecc : Nat)
  /-- REFLEX_OUTPUT (R422): At T3 the result vector is at the array output stage. -/
  | reflexOutput
  /-- REFLEX_LATCH (R414): At T4 the group's result vector is replaced and its flags are written. -/
  | reflexLatch (g : Nat)
  /-- RFX_COMMIT (R440): A write of 1 to RFX_COMMIT_COMMIT snapshots the bindings. -/
  | rfxCommit (who : Initiator) (val : Word64)
  /-- RFX_BIND_LATCH (R440): When the arrays are idle, the pending bindings latch or are refused. -/
  | rfxBindLatch
  /-- SLUICE_FILL (R430): An accepted FILL request starts writing a lane's inactive bank. -/
  | sluiceFill
  /-- SLUICE_ARM (R430): An accepted ARM request checks or pends the arming of a lane. -/
  | sluiceArm
  /-- SLUICE_CANCEL (R430): An accepted CANCEL request stops a fill or disarms a lane. -/
  | sluiceCancel
  /-- SLUICE_HART_ARM (R441): A write of 1 to SLC_L_l_ARM_GO arms the lane for the loops in AMASK. -/
  | sluiceHartArm (who : Initiator) (l : Nat) (val : Word64)
  /-- FILL_HEADER_LANDED (R428): The fill header has landed; MAGIC, LEN and LANE are judged. -/
  | fillHeaderLanded (l ecc : Nat)
  /-- FILL_PIECE_LANDED (R429): A 4 KiB piece of a fill source lands in the inactive bank. -/
  | fillPieceLanded (l ecc : Nat)
  /-- FILL_LAST_BYTE (R430): The last payload byte lands, the CRC is judged, and the arming check starts. -/
  | fillLastByte (l ecc : Nat)
  /-- ARM_CHECK_END (R431): The arming check ends and arms the lane or fails with BADBANK. -/
  | armCheckEnd (l ecc : Nat)
  /-- FILL_TIMEOUT (R430): SLC_FILLTMO passes while a lane is FILLING, and the fill ends TIMEOUT. -/
  | fillTimeout (l : Nat)
  /-- LANE_STALE (R436): A lane with no swap for SLC_L_l_STALE µs becomes STALE. -/
  | laneStale (l : Nat)
  /-- ECS_FRAME (R449): An EtherCAT frame passes the SubDevice, whose datagrams are processed, or is forwarded invalid. -/
  | ecsFrame (port : Nat) (valid : Bool) (frame : List Byte)
  /-- ECS_AL_REQUEST (R445): An AL control request changes the SubDevice state or is refused with a status code. -/
  | ecsAlRequest (ctl : Nat)
  /-- ECS_WATCHDOG_EXPIRE (R446): The SM2 process-data watchdog expires in OP, and the SubDevice goes to SAFEOP. -/
  | ecsWatchdogExpire
  /-- ECS_SYNC0 (R458): At a SYNC0 event the newest SM2 buffer is copied into the mapped objects. -/
  | ecsSync0 (dcTime : Nat)
  /-- ECS_SM2_BUFFER (R458): A complete SM2 buffer arrives; with sync type 1 outputs are copied and inputs captured. -/
  | ecsSm2Buffer (data : List Byte)
  /-- ECS_INPUT_CAPTURE (R458): At SYNC0 plus the shift time the TxPDO values are captured into SM3. -/
  | ecsInputCapture
  /-- MBX_REQUEST (R447): The CoE server takes the next mailbox request from SM0. -/
  | mbxRequest
  /-- SDO_UPLOAD (R451): An SDO upload reads a dictionary subindex. -/
  | sdoUpload (idx sub : Nat) (complete : Bool)
  /-- SDO_DOWNLOAD (R451): An SDO download writes a dictionary subindex. -/
  | sdoDownload (idx sub : Nat) (complete : Bool) (data : List Byte)
  /-- SDO_SEGMENT_TIMEOUT (R448): A segmented transfer with no next segment for 1 s is aborted. -/
  | sdoSegmentTimeout
  /-- SDO_RECORD_COMMIT (R453): A write of 1 to a commit record's Commit subindex writes the held copies and COMMIT. -/
  | sdoRecordCommit (idx sub : Nat) (data : List Byte)
  /-- SDO_LOOP_COMMIT (R456): A write of 1 to 0x2400 + n:20 writes the staged words and arms the loop. -/
  | sdoLoopCommit (n : Nat) (data : List Byte)
  /-- EMERGENCY_SEND (R459): A queued CoE Emergency message is sent through the mailbox. -/
  | emergencySend
  /-- ECS_LINK_LOSS (R450): A SubDevice port that loses link closes its loop. -/
  | ecsLinkLoss (port : Nat)
  /-- ECS_LINK_REOPEN (R450): After 10 ms of link, a port opens again. -/
  | ecsLinkReopen (port : Nat)
  /-- ECM_OUTPUT_SNAPSHOT (R460): At B + TXOFS − 1,000 ns the output words are snapshotted into the template. -/
  | ecmOutputSnapshot (sg : Nat)
  /-- ECM_FRAME_SEND (R460): At B + TXOFS the segment's frame leaves on port A and, if redundant, on port B. -/
  | ecmFrameSend (sg : Nat)
  /-- ECM_FRAME_RETURN (R463): A copy of the cyclic frame returns to the segment. -/
  | ecmFrameReturn (sg port : Nat) (fcsOk : Bool) (frame : List Byte)
  /-- ECM_DEADLINE (R460): B + DEADLINE passes and the merge starts with the copies that returned. -/
  | ecmDeadline (sg : Nat)
  /-- ECM_MERGE_END (R464): The merge ends; a good cycle lands its input words, and a bad one sets INVALID. -/
  | ecmMergeEnd (sg : Nat)
  /-- ECM_SUBST_CLEAR (R465): A write of 1 to SUBST ends substitution from the next snapshot. -/
  | ecmSubstClear (who : Initiator) (sg : Nat) (val : Word64)
  /-- ECM_ENABLE (R461): Enabling a segment is checked and refused with CFGERR, or accepted. -/
  | ecmEnable (who : Initiator) (sg : Nat) (val : Word64)
  /-- ECM_ACYCLIC_GO (R466): A write of GO queues the acyclic frame for sending. -/
  | ecmAcyclicGo (who : Initiator) (sg : Nat) (val : Word64)
  /-- ECM_ACYCLIC_SEND (R466): The acyclic frame leaves after a cycle's merge, when it can return before the next TXOFS. -/
  | ecmAcyclicSend (sg : Nat)
  /-- ECM_ACYCLIC_RETURN (R466): The acyclic frame returns and overwrites the buffer. -/
  | ecmAcyclicReturn (sg : Nat) (frame : List Byte)
  /-- ECM_ACYCLIC_TIMEOUT (R466): The acyclic frame has not returned within 1 ms. -/
  | ecmAcyclicTimeout (sg : Nat)
  /-- ETH_RX_FRAME (R468): A network-path frame is accepted and landed with its timestamp, or dropped. -/
  | ethRxFrame (p ts : Nat) (fcsOk : Bool) (frame : List Byte)
  /-- ETH_TX_SEND (R468): The device sends the next transmit descriptor's frame. -/
  | ethTxSend (p : Nat)
  /-- ETH_TX_DONE (R469): A transmitted frame completes; its timestamp is written and TXCONS advances. -/
  | ethTxDone (p ts : Nat)
  /-- PCIE_REQUEST (R472): A host request is split into pieces and served for SCH_PCI_CTX. -/
  | pcieRequest (write : Bool) (bar ofs len : Nat) (data : List Byte)
  /-- PCIE_COMPLETION_TIMEOUT (R473): A HOST-tier read with no completion within 10 ms becomes uncorrectable. -/
  | pcieCompletionTimeout (kind n : Nat)
  /-- MSIX_UNMASK (R474): Unmasking a vector with its pending bit set sends its message. -/
  | msixUnmask (v : Nat)
  /-- CWY_ENABLE (R485): A write of CWY_CTRL_ENABLE starts training the links or takes every link down. -/
  | cwyEnable (who : Initiator) (strap : Bool) (val : Word64)
  /-- CWY_TRAIN_END (R485): All used links are UP, or 100 ms pass, and discovery starts. -/
  | cwyTrainEnd
  /-- CWY_DISCOVERY_RESULT (R485): Discovery ends in FORMED with module numbers assigned, or in ERROR. -/
  | cwyDiscoveryResult (ok roleErr topoErr : Bool) (master : Bool) (nmod modnum : Nat) (peers : List Nat)
  /-- CWY_FLIT_RECEIVE (R480): A flit is received and delivered in order, or discarded with a NAK. -/
  | cwyFlitReceive (k : Nat) (flit : List Byte)
  /-- CWY_NAK (R480): A received NAK makes the sender replay from the named SEQ. -/
  | cwyNak (k seq : Nat)
  /-- CWY_READREQ (R491): A READREQ is served by reading the tile for the requester's context and returning it. -/
  | cwyReadReq (src slot addr : Nat) (ctx core tile : Nat) (errs : List Nat)
  /-- CWY_RETRAIN (R481): Eight NAKs on one SEQ, or 1 µs without FEC lock, make a link retrain. -/
  | cwyRetrain (k : Nat)
  /-- CWY_LINK_TRAINED (R481): A link finishes training, replays its buffer and reissues outstanding reads. -/
  | cwyLinkTrained (k : Nat)
  /-- CWY_DOWN_TIMEOUT (R482): No route is up for CWY_DOWNTMO µs; reads fail, rings reroute, or the master is lost. -/
  | cwyDownTimeout (m : Nat)
  /-- CWY_TIME_EXCHANGE (R487): Every CWY_TIME_PER µs a follower sends a TIME request to the master. -/
  | cwyTimeExchange
  /-- CWY_TIME_RESPONSE (R487): The master's TIME answer arrives, and the follower submits θ as a servo sample. -/
  | cwyTimeResponse (t1 t2 t3 t4 : Int)
  /-- CWY_STEP_ANNOUNCE (R489): A follower receives the master's scheduled time step in a CTRL flit. -/
  | cwyStepAnnounce (due lo hi ctl : Nat)
  /-- CWY_TT_ANNOUNCE (R490): A follower receives the master's timetable latch instant and CRC. -/
  | cwyTtAnnounce (due crc : Nat)
  /-- POWER_ON (R512): VIN rises through 35.0 V and start-up begins. -/
  | powerOn
  /-- BOOT_ROM_START (R512): At t0 + 25 ms the SubDevice ports come up, and the boot ROM checks the image headers. -/
  | bootRomStart
  /-- BOOT_LOAD_END (R524): An image load ends; on success PCR 0 is extended and hart 0 is released, otherwise the next candidate loads. -/
  | bootLoadEnd (readErr : Bool)
  /-- BROWNOUT_WARNING (R505): VIN below 36.0 V for 1 ms asserts FAULT_N and caps power at 140 W. -/
  | brownoutWarning
  /-- BROWNOUT_WARNING_CLEAR (R505): VIN above 36.0 V for 10 ms clears the warning. -/
  | brownoutWarningClear
  /-- BROWNOUT_TRIP (R506): VIN below 33.0 V for 50 µs gates the fabric and starts the shutdown. -/
  | brownoutTrip
  /-- SHUTDOWN_FINAL_FRAME (R506): Each running segment sends one frame with substituted outputs. -/
  | shutdownFinalFrame
  /-- SHUTDOWN_OUTPUTS_LOW (R506): At 300 µs every timed I/O output and FSYNC is driven low. -/
  | shutdownOutputsLow
  /-- SHUTDOWN_RAILS_OFF (R506): At 500 µs every rail switches off and PGOOD deasserts. -/
  | shutdownRailsOff
  /-- THERMAL_SAMPLE (R507): Every 10 ms the thermal derating of the cap is recomputed from TCP. -/
  | thermalSample (tcp : Int)
  /-- THERMAL_TRIP (R507): TCP above 80 °C for 1 s runs the shutdown. -/
  | thermalTrip
  /-- RESET_PIN (R510): RESET_N held low for 10 µs restarts the module as at power-on. -/
  | resetPin
  /-- SUPPLY_OVERCURRENT (R504): A peripheral supply over its limit for 1 ms switches off. -/
  | supplyOvercurrent (ch : Nat)
  /-- SUPPLY_RETRY (R504): Every 100 ms a tripped peripheral supply tries again. -/
  | supplyRetry (ch : Nat)
  /-- SEC_EXTEND (R527): The EXTEND operation extends PCR 1 to 7 with a digest. -/
  | secExtend (who : Initiator) (val : Word64)
  /-- SEC_ATTEST (R530): The ATTEST operation writes a dually signed attestation record. -/
  | secAttest (who : Initiator) (val : Word64)
  /-- SEC_EXPORT (R529): The EXPORT operation writes both identity public keys. -/
  | secExport (who : Initiator) (val : Word64)
  /-- SEC_FUSE_KEY (R519): The FUSE_KEY operation programs a key-hash slot. -/
  | secFuseKey (who : Initiator) (val : Word64)
  /-- SEC_FUSE_REVOKE (R520): The FUSE_REVOKE operation programs a slot's revocation bit. -/
  | secFuseRevoke (who : Initiator) (val : Word64)
  /-- SEC_FUSE_ROLLBACK (R520): The FUSE_ROLLBACK operation raises the rollback count. -/
  | secFuseRollback (who : Initiator) (val : Word64)
  /-- SEC_FUSE_PROT (R517): The FUSE_PROT operation programs the protection windows, debug locks and PERTMODE. -/
  | secFuseProt (who : Initiator) (val : Word64)
  /-- SEC_LC_ADVANCE (R521): The LC_ADVANCE operation advances the lifecycle, with an unlock record for RETURNED. -/
  | secLcAdvance (who : Initiator) (val : Word64)
  /-- SEC_CMD_DONE (R529): A security operation ends and writes its result. -/
  | secCmdDone
  /-- DORMANT_REQUEST (R533): A write of 1 to PWR_CTRL_DORM starts Dormant entry or is refused with a code. -/
  | dormantRequest (who : Initiator) (val : Word64)
  /-- DORMANT_ENTERED (R532): 2.0 ms after acceptance the module is DORMANT. -/
  | dormantEntered
  /-- WAKE_EVENT (R535): An enabled wake event starts the wake sequence. -/
  | wakeEvent (src : Nat)
  /-- WAKE_PLL_LOCK (R536): At 5 ms the PLLs are locked, the control harts resume and VCAM and VIMU switch on. -/
  | wakePllLock
  /-- WAKE_APP_START (R536): At 36 ms the application cluster starts at PWR_APPVEC. -/
  | wakeAppStart
  /-- WAKE_COMPLETE (R536): At 40 ms the module is ACTIVE and PWR_EVT_WAKE is set. -/
  | wakeComplete
  /-- POWER_CAP_SAMPLE (R537): Every 100 µs the power manager compares average power with the cap and updates its level. -/
  | powerCapSample (mw : Nat)
  /-- EPOCH_BUMP (R545): A write of 1 to DGN_EPOCH_BUMP_GO advances the recovery epoch. -/
  | epochBump (who : Initiator) (val : Word64)
  /-- VIOLATING_READ (R25): A register read that is a violation returns zero and updates the violation counters, DGN_VIO_LAST and DGN_EVT_VIO. -/
  | violatingRead (who : Initiator) (addr size : Nat)
  /-- HART_PRIVATE_ACCESS (R382): A control hart's fetch, load or store in its private map (TCM, shared SRAM, control PSRAM) is served, corrected, or faulted with the counters and logs of R382 and R383. -/
  | hartPrivateAccess (h : Nat) (kind : Nat) (addr len : Nat) (data : List Byte) (ecc : Nat)
  /-- AON_CLOCK_LOCK (R512): At t0 + 22 ms the always-on clocks lock and Bandstand starts counting from zero in wrap mode. -/
  | aonClockLock
  /-- THERMAL_RESTART (R507): After a thermal trip, the module starts again once TCP has fallen below 60 °C. -/
  | thermalRestart
  /-- DDR_RETRAIN_END (R205): LPDDR5X ZQ calibration or retraining ends, MEM_DDR_STAT_RETRAIN clears, on-die ECC counts are read and MEM_DDR_STAT_READY is set. -/
  | ddrRetrainEnd (ode : Nat)
  /-- ETH_LINK_CHANGE (R475): An Ethernet port gains or loses link, which updates FLD_ETH_p_STAT_LINK, SNS_LINK_ETH and FLD_ETH_p_EVT_LINK. -/
  | ethLinkChange (p : Nat) (up : Bool)
  /-- ECM_LINK_CHANGE (R463): A MainDevice segment port gains or loses link, which updates LINKA or LINKB, CNT_LINKLOSS and EVT_LINK and stops copies being sent on a dead port. -/
  | ecmLinkChange (sg port : Nat) (up : Bool)
  /-- PCIE_LINK_CHANGE (R475): The PCIe link goes up or down, which updates FLD_PCI_STAT_LINKUP and sets FLD_PCI_EVT_LINKCHG. -/
  | pcieLinkChange (up : Bool) (gen width : Nat)
  /-- SYNC1 (R477): A distributed-clock SYNC1 event of the SubDevice pulses interrupt source 66. -/
  | sync1
  /-- PLT_BADOP_REQUEST (R189): The placement engine accepts a request with a reserved OP or a non-zero unused byte and ends it BADOP. -/
  | pltBadopRequest
  /-- SLUICE_BADOP_REQUEST (R432): The Sluice accepts a request with a reserved OP or a bad SRC or lane and writes BADOP or BADLANE. -/
  | sluiceBadopRequest
  /-- SAMPLE_HISTORY_PUSH (R420): At T2 of a conversion start that releases no evaluation, each channel's new code, or a copy under R424, is pushed into the reflex history. -/
  | sampleHistoryPush (c : Nat) (codes : List Int) (absent : Nat)
  deriving DecidableEq, Repr

end Sys2Proof
end

