-- ==== Sys2Proof/Decode.lean ====
section
/-! DEFINITION. Words of the command table. The block has no instruction decoder: spec/opcode_table.json gives no row any
bits, so no word spells a command. -/

namespace Sys2Proof

/-- The command that a word of the table's bits spells: none, since no row gives bits. -/
def decodeTableWord (_nbits _w : Nat) : Option Instr := none

end Sys2Proof
end

