-- ==== Sys2Proof/Config.lean ====
section
/-! DEFINITION. What an implementation fixes and the spec leaves open: the free values. Each is an opaque
constant, so no proof can see what it is (assumption log, entry 4). -/

namespace Sys2Proof.Config

open Sys2Proof

/-- A fresh undetermined byte: contents the spec calls undefined (R241, R429). The first argument is the
model's counter, the second the place of the byte. -/
opaque freeByte : Nat → Nat → Byte

/-- A fresh undetermined 64-bit value: the random challenge of R521 and of SEC_CHAL. -/
opaque freeWord : Nat → Word64

/-- The code, less 0x10, with which a CREATE of SIZE 0 is refused (R189): by the request's operands. -/
opaque emptyCreate : Nat → BitVec 3

/-- CSI-2 port p is in high-speed receive in a cycle: its lanes' state, which the camera at the far end sets (R324). -/
opaque csiHighSpeed : Nat → Nat → Bool

/-- The pose that IMU samples since the last instant lead to (R320): the previous pose, the samples with their times,
the instant. R320 names the method (first order in rotation and velocity) and no arithmetic. -/
opaque egoPropagate : List Word32 → List (Int × List Word32) → Int → List Word32

/-- The numbers of the pose problem that R320 does not fix, read from the correspondence record: whether it is PT2PLANE,
ITER, M (less one), λ, pivot floor, prior means and weights, and the records' words. -/
opaque egoPlane : List Byte → Bool
opaque egoIter : List Byte → BitVec 6
opaque egoCount : List Byte → BitVec 16
opaque egoGains : List Byte → Word32 × Word32
opaque egoPrior : List Byte → Nat → Word32
opaque egoRecord : List Byte → Nat → Nat → Word32

/-- A propagated pose corrected by a problem's result record (R320). -/
opaque egoCorrect : List Word32 → List Byte → List Word32

/-- The variances of an EGO record (R316): pose and result. -/
opaque egoVariance : List Word32 → List Byte → List Word32

/-- The motion D(τ → O) of R318 and R320: the kept output for τ and its age, the newest kept output and the time from it
to O. Twelve words of a 3 × 4 matrix, row-major. -/
opaque egoMotion : List Word32 → Int → List Word32 → Int → List Word32

/-- Words of a result record that nothing computed (R342): by the problem's bytes, as R351 asks, and their place. -/
opaque deadWord : List Byte → Nat → Word32

/-- Verification of pure SLH-DSA-SHA2-192s with an empty context (R524): public key, message, signature. -/
opaque slhVerify : List Byte → List Byte → List Byte → Bool

/-- The identity area unwraps under the key derived from the device secret (R528): secret, the area's non-zero cells. -/
opaque identUnwraps : Nat → List Host.Cell → Bool

/-- RSA identity modulus, 384 bytes (R528). -/
opaque identRsa : Nat → List Host.Cell → List Byte

/-- SLH-DSA identity public key, 48 bytes (R528). -/
opaque identSlh : Nat → List Byte

/-- RSASSA-PSS signature with the RSA identity key, 384 bytes; its salt is drawn afresh (R530). -/
opaque identRsaSign : Nat → List Host.Cell → List Byte → Nat → List Byte

/-- SLH-DSA signature with the SLH-DSA identity key, 16,224 bytes (R530). -/
opaque identSlhSign : Nat → List Byte → Nat → List Byte

end Sys2Proof.Config
end

