-- ==== Sys2Proof/Machine/Bits.lean ====
section
/-! DEFINITION. Bit fields, sign extension, byte order and saturating counts: the plain helpers every
block uses. Bit ranges are written high bit first, as the manual writes `[msb:lsb]`. -/

namespace Sys2Proof.Machine

/-- Bits `[hi:lo]` of `x`. -/
def bitsOf (x hi lo : Nat) : Nat := (x >>> lo) % 2 ^ (hi + 1 - lo)

/-- Bit `i` of `x`. -/
def bitOf (x i : Nat) : Bool := x.testBit i

/-- `x` with bits `[hi:lo]` replaced by the low bits of `v`. -/
def withBits (x hi lo v : Nat) : Nat :=
  (x >>> (hi + 1)) <<< (hi + 1) + (v % 2 ^ (hi + 1 - lo)) <<< lo + x % 2 ^ lo

/-- The signed value of the low `w` bits of `x`, two's complement. -/
def signedOf (w x : Nat) : Int :=
  let y := x % 2 ^ w
  if 2 * y < 2 ^ w then (y : Int) else (y : Int) - (2 ^ w : Nat)

/-- The low `w` bits of the two's-complement code of `i`. -/
def codeOf (w : Nat) (i : Int) : Nat := (i % ((2 ^ w : Nat) : Int)).toNat

/-- 0 or 1. -/
def ofBool (b : Bool) : Nat := if b then 1 else 0

/-- A saturating count of `w` bits. -/
def satAdd (w x d : Nat) : Nat := min (x + d) (2 ^ w - 1)

/-- `v` held between `lo` and `hi`. -/
def clampInt (v lo hi : Int) : Int := max lo (min v hi)

/-- The `n` little-endian bytes of `v`. -/
def leBytes : Nat → Nat → List Byte
  | 0, _ => []
  | n + 1, v => BitVec.ofNat 8 v :: leBytes n (v / 256)

/-- The number that little-endian bytes spell. -/
def leNat : List Byte → Nat
  | [] => 0
  | b :: bs => b.toNat + 256 * leNat bs

/-- The little-endian field of `n` bytes at byte `i` of a record. -/
def leField (bs : List Byte) (i n : Nat) : Nat := leNat ((bs.drop i).take n)

/-- `n` big-endian bytes of `v`. -/
def beBytes (n v : Nat) : List Byte := (leBytes n v).reverse

/-- The number that big-endian bytes spell. -/
def beNat (bs : List Byte) : Nat := leNat bs.reverse

/-- 64-bit word `i` of a record. -/
def word64 (bs : List Byte) (i : Nat) : Nat := leField bs (8 * i) 8

/-- `bs` with the bytes from `i` on replaced by `new`. -/
def spliceBytes (bs : List Byte) (i : Nat) (new : List Byte) : List Byte :=
  bs.take i ++ new ++ bs.drop (i + new.length)

/-- `bs` cut or padded with zeros to `n` bytes. -/
def padBytes (n : Nat) (bs : List Byte) : List Byte :=
  bs.take n ++ List.replicate (n - bs.length) 0

/-- The whole part of `a / b`, rounded up. -/
def ceilDiv (a b : Nat) : Nat := (a + b - 1) / b

/-- `2 ^ l` slots, where a size code outside `lo..hi` acts as `lo` (R163, R186, R256, R327). -/
def ringSlots (l lo hi : Nat) : Nat := if lo ≤ l ∧ l ≤ hi then 2 ^ l else 2 ^ lo

/-- The entry of a sparse table at key `k`. -/
def tget {α : Type} (t : Tbl α) (k : Nat) : Option α :=
  match t with
  | [] => none
  | (k', a) :: t' => if k = k' then some a else tget t' k

/-- The entry at key `k`, or `d` where the table lists none. -/
def tgetD {α : Type} (t : Tbl α) (k : Nat) (d : α) : α := (tget t k).getD d

/-- The table with `a` at key `k`, keys kept rising. -/
def tset {α : Type} (t : Tbl α) (k : Nat) (a : α) : Tbl α :=
  match t with
  | [] => [(k, a)]
  | (k', a') :: t' =>
    if k < k' then (k, a) :: (k', a') :: t'
    else if k = k' then (k, a) :: t'
    else (k', a') :: tset t' k a

/-- The table without key `k`. -/
def tdel {α : Type} (t : Tbl α) (k : Nat) : Tbl α := t.filter fun p => p.1 ≠ k

/-- The numbers `0 .. n-1` whose bit is set in `x`. -/
def setBitsOf (n x : Nat) : List Nat := (List.range n).filter fun i => x.testBit i

/-- The number whose bit `i` is `p i`, for `i < n`. -/
def maskOf (n : Nat) (p : Nat → Bool) : Nat :=
  (List.range n).foldl (fun acc i => acc + ofBool (p i) * 2 ^ i) 0

/-- Number of ones among the low `n` bits. -/
def popCount (n x : Nat) : Nat := (setBitsOf n x).length

/-- Fold `f` over `0 .. n-1`, ascending. -/
def forUpTo {σ : Type} (n : Nat) (f : Nat → σ → σ) (s : σ) : σ :=
  (List.range n).foldl (fun s i => f i s) s

/-- Apply `f` where the condition holds. -/
def onIf {σ : Type} (c : Bool) (f : σ → σ) (s : σ) : σ := if c then f s else s

/-- Insertion by an order. -/
def insertBy {α : Type} (le : α → α → Bool) (x : α) : List α → List α
  | [] => [x]
  | y :: ys => if le x y then x :: y :: ys else y :: insertBy le x ys

/-- A list sorted by an order. -/
def sortBy {α : Type} (le : α → α → Bool) (xs : List α) : List α := xs.foldl (fun acc x => insertBy le x acc) []

/-- No value twice. -/
def distinct : List Nat → Bool
  | [] => true
  | a :: rest => !rest.contains a && distinct rest

end Sys2Proof.Machine
end

