-- ==== Sys2Proof/Machine/RegMap.lean ====
section
/-! DEFINITION. The register map: the address of every register and the bits of every field, under the names
of the manual (an index letter in a name is an argument here), and the table of descriptors that the access
rules read. Register tables: R4, R33, R113, R163, R212, R213, R255, R256, R290, R291, R324, R325, R350, R372,
R384, R393, R395, R411, R440, R441, R475, R493, R539, R540, R557. -/

namespace Sys2Proof.Machine.Reg

open Sys2Proof

/-! Registers of SYS, R4 (spec/00_scope.md). -/
def SYS_IDENT : Nat := 0x100000000000
def SYS_IDENT_VENDOR : Fld := ⟨SYS_IDENT, 63, 48⟩
def SYS_IDENT_PART : Fld := ⟨SYS_IDENT, 47, 32⟩
def SYS_IDENT_GRADE : Fld := ⟨SYS_IDENT, 31, 24⟩
def SYS_IDENT_STEP : Fld := ⟨SYS_IDENT, 23, 16⟩
def SYS_IDENT_CORES : Fld := ⟨SYS_IDENT, 15, 8⟩
def SYS_IDENT_MEMGIB : Fld := ⟨SYS_IDENT, 7, 0⟩

/-! Registers of SYS, R33 (spec/01_device_overview.md). -/
def SYS_CORE_MAP : Nat := 0x100000000008
def SYS_CORE_MAP_POWERED : Fld := ⟨SYS_CORE_MAP, 15, 8⟩
def SYS_CORE_MAP_PHYS : Fld := ⟨SYS_CORE_MAP, 7, 0⟩
def SYS_ISLAND_STAT : Nat := 0x100000000010
def SYS_ISLAND_STAT_AON : Fld := ⟨SYS_ISLAND_STAT, 17, 17⟩
def SYS_ISLAND_STAT_CWY : Fld := ⟨SYS_ISLAND_STAT, 16, 16⟩
def SYS_ISLAND_STAT_NET : Fld := ⟨SYS_ISLAND_STAT, 15, 15⟩
def SYS_ISLAND_STAT_SNS : Fld := ⟨SYS_ISLAND_STAT, 14, 14⟩
def SYS_ISLAND_STAT_SLV : Fld := ⟨SYS_ISLAND_STAT, 13, 13⟩
def SYS_ISLAND_STAT_TRL : Fld := ⟨SYS_ISLAND_STAT, 12, 12⟩
def SYS_ISLAND_STAT_APP : Fld := ⟨SYS_ISLAND_STAT, 11, 11⟩
def SYS_ISLAND_STAT_BLV : Fld := ⟨SYS_ISLAND_STAT, 10, 10⟩
def SYS_ISLAND_STAT_BWK : Fld := ⟨SYS_ISLAND_STAT, 9, 9⟩
def SYS_ISLAND_STAT_RFX : Fld := ⟨SYS_ISLAND_STAT, 8, 8⟩
def SYS_ISLAND_STAT_CORE : Fld := ⟨SYS_ISLAND_STAT, 7, 0⟩

/-! Registers of TC, R113 (spec/03_tensor_core.md). -/
def TC_CTRL (n : Nat) : Nat := 0x100001000000 + n * 0x100000
def TC_CTRL_ENABLE (n : Nat) : Fld := ⟨TC_CTRL n, 0, 0⟩
def TC_STAT (n : Nat) : Nat := 0x100001000008 + n * 0x100000
def TC_STAT_ACTVALID (n : Nat) : Fld := ⟨TC_STAT n, 18, 18⟩
def TC_STAT_SHADOW (n : Nat) : Fld := ⟨TC_STAT n, 17, 16⟩
def TC_STAT_PATHBUSY (n : Nat) : Fld := ⟨TC_STAT n, 12, 8⟩
def TC_STAT_KILLING (n : Nat) : Fld := ⟨TC_STAT n, 1, 1⟩
def TC_STAT_BUSY (n : Nat) : Fld := ⟨TC_STAT n, 0, 0⟩
def TC_CTX (n : Nat) : Nat := 0x100001000010 + n * 0x100000
def TC_CTX_VALID (n : Nat) : Fld := ⟨TC_CTX n, 6, 6⟩
def TC_CTX_ID (n : Nat) : Fld := ⟨TC_CTX n, 5, 0⟩
def TC_SEQ (n : Nat) : Nat := 0x100001000018 + n * 0x100000
def TC_SEQ_DISP (n : Nat) : Fld := ⟨TC_SEQ n, 31, 16⟩
def TC_SEQ_DONE (n : Nat) : Fld := ⟨TC_SEQ n, 15, 0⟩
def TC_FAULT (n : Nat) : Nat := 0x100001000020 + n * 0x100000
def TC_FAULT_CTX (n : Nat) : Fld := ⟨TC_FAULT n, 37, 32⟩
def TC_FAULT_SEQ (n : Nat) : Fld := ⟨TC_FAULT n, 31, 16⟩
def TC_FAULT_OPC (n : Nat) : Fld := ⟨TC_FAULT n, 15, 8⟩
def TC_FAULT_CODE (n : Nat) : Fld := ⟨TC_FAULT n, 7, 0⟩
def TC_EVT (n : Nat) : Nat := 0x100001000028 + n * 0x100000
def TC_EVT_KILL (n : Nat) : Fld := ⟨TC_EVT n, 3, 3⟩
def TC_EVT_FAULT (n : Nat) : Fld := ⟨TC_EVT n, 2, 2⟩
def TC_EVT_BUDGET (n : Nat) : Fld := ⟨TC_EVT n, 1, 1⟩
def TC_EVT_DONE (n : Nat) : Fld := ⟨TC_EVT n, 0, 0⟩
def TC_EVT_EN (n : Nat) : Nat := 0x10000100002c + n * 0x100000
def TC_EVT_EN_MASK (n : Nat) : Fld := ⟨TC_EVT_EN n, 3, 0⟩
def TC_CNT_CYC (n : Nat) : Nat := 0x100001000030 + n * 0x100000
def TC_CNT_CYC_VALUE (n : Nat) : Fld := ⟨TC_CNT_CYC n, 63, 0⟩
def TC_CNT_TAIL (n : Nat) : Nat := 0x100001000038 + n * 0x100000
def TC_CNT_TAIL_VALUE (n : Nat) : Fld := ⟨TC_CNT_TAIL n, 63, 0⟩
def TC_CNT_HEAD (n : Nat) : Nat := 0x100001000040 + n * 0x100000
def TC_CNT_HEAD_VALUE (n : Nat) : Fld := ⟨TC_CNT_HEAD n, 63, 0⟩
def TC_CNT_SHADOW (n : Nat) : Nat := 0x100001000048 + n * 0x100000
def TC_CNT_SHADOW_VALUE (n : Nat) : Fld := ⟨TC_CNT_SHADOW n, 63, 0⟩
def TC_CNT_BUDGET (n : Nat) : Nat := 0x100001000050 + n * 0x100000
def TC_CNT_BUDGET_VALUE (n : Nat) : Fld := ⟨TC_CNT_BUDGET n, 31, 0⟩
def TC_CNT_KILL (n : Nat) : Nat := 0x100001000054 + n * 0x100000
def TC_CNT_KILL_VALUE (n : Nat) : Fld := ⟨TC_CNT_KILL n, 31, 0⟩
def TC_CNT_FAULT (n : Nat) : Nat := 0x100001000058 + n * 0x100000
def TC_CNT_FAULT_VALUE (n : Nat) : Fld := ⟨TC_CNT_FAULT n, 31, 0⟩
def TC_CNT_CLR (n : Nat) : Nat := 0x100001000060 + n * 0x100000
def TC_CNT_CLR_ALL (n : Nat) : Fld := ⟨TC_CNT_CLR n, 0, 0⟩
def TC_WRGN_CFG (n : Nat) (r : Nat) : Nat := 0x100001001000 + n * 0x100000 + r * 0x10
def TC_WRGN_CFG_VALID (n : Nat) (r : Nat) : Fld := ⟨TC_WRGN_CFG n r, 31, 31⟩
def TC_WRGN_CFG_SIZE (n : Nat) (r : Nat) : Fld := ⟨TC_WRGN_CFG n r, 24, 16⟩
def TC_WRGN_CFG_BASE (n : Nat) (r : Nat) : Fld := ⟨TC_WRGN_CFG n r, 8, 0⟩
def TC_WRGN_PTR (n : Nat) (r : Nat) : Nat := 0x100001001008 + n * 0x100000 + r * 0x10
def TC_WRGN_PTR_TAIL (n : Nat) (r : Nat) : Fld := ⟨TC_WRGN_PTR n r, 48, 32⟩
def TC_WRGN_PTR_HEAD (n : Nat) (r : Nat) : Fld := ⟨TC_WRGN_PTR n r, 16, 0⟩
def TC_ARGN_CFG (n : Nat) (r : Nat) : Nat := 0x100001001100 + n * 0x100000 + r * 0x10
def TC_ARGN_CFG_VALID (n : Nat) (r : Nat) : Fld := ⟨TC_ARGN_CFG n r, 31, 31⟩
def TC_ARGN_CFG_SIZE (n : Nat) (r : Nat) : Fld := ⟨TC_ARGN_CFG n r, 24, 16⟩
def TC_ARGN_CFG_BASE (n : Nat) (r : Nat) : Fld := ⟨TC_ARGN_CFG n r, 8, 0⟩
def TC_ARGN_PTR (n : Nat) (r : Nat) : Nat := 0x100001001108 + n * 0x100000 + r * 0x10
def TC_ARGN_PTR_TAIL (n : Nat) (r : Nat) : Fld := ⟨TC_ARGN_PTR n r, 48, 32⟩
def TC_ARGN_PTR_HEAD (n : Nat) (r : Nat) : Fld := ⟨TC_ARGN_PTR n r, 16, 0⟩
def TC_PRGN_CFG (n : Nat) (r : Nat) : Nat := 0x100001001200 + n * 0x100000 + r * 0x10
def TC_PRGN_CFG_VALID (n : Nat) (r : Nat) : Fld := ⟨TC_PRGN_CFG n r, 31, 31⟩
def TC_PRGN_CFG_SIZE (n : Nat) (r : Nat) : Fld := ⟨TC_PRGN_CFG n r, 24, 16⟩
def TC_PRGN_CFG_BASE (n : Nat) (r : Nat) : Fld := ⟨TC_PRGN_CFG n r, 8, 0⟩
def TC_PRGN_PTR (n : Nat) (r : Nat) : Nat := 0x100001001208 + n * 0x100000 + r * 0x10
def TC_PRGN_PTR_TAIL (n : Nat) (r : Nat) : Fld := ⟨TC_PRGN_PTR n r, 48, 32⟩
def TC_PRGN_PTR_HEAD (n : Nat) (r : Nat) : Fld := ⟨TC_PRGN_PTR n r, 16, 0⟩

/-! Registers of MEM, R212 (spec/06_memory_tiers.md). -/
def MEM_DDR_CTRL : Nat := 0x100002000000
def MEM_DDR_CTRL_ECS : Fld := ⟨MEM_DDR_CTRL, 2, 2⟩
def MEM_DDR_CTRL_LINKECC : Fld := ⟨MEM_DDR_CTRL, 1, 1⟩
def MEM_DDR_CTRL_ENABLE : Fld := ⟨MEM_DDR_CTRL, 0, 0⟩
def MEM_DDR_STAT : Nat := 0x100002000008
def MEM_DDR_STAT_GIB : Fld := ⟨MEM_DDR_STAT, 23, 16⟩
def MEM_DDR_STAT_RETRAIN : Fld := ⟨MEM_DDR_STAT, 1, 1⟩
def MEM_DDR_STAT_READY : Fld := ⟨MEM_DDR_STAT, 0, 0⟩
def MEM_PROT (r : Nat) : Nat := 0x100002000010 + r * 0x4
def MEM_PROT_VALID (r : Nat) : Fld := ⟨MEM_PROT r, 31, 31⟩
def MEM_PROT_SIZE (r : Nat) : Fld := ⟨MEM_PROT r, 14, 8⟩
def MEM_PROT_BASE (r : Nat) : Fld := ⟨MEM_PROT r, 5, 0⟩
def MEM_SCRUB_CFG : Nat := 0x100002000050
def MEM_SCRUB_CFG_ENABLE : Fld := ⟨MEM_SCRUB_CFG, 31, 31⟩
def MEM_SCRUB_CFG_PERIOD : Fld := ⟨MEM_SCRUB_CFG, 15, 0⟩
def MEM_SCRUB_STAT : Nat := 0x100002000058
def MEM_SCRUB_STAT_PASSES : Fld := ⟨MEM_SCRUB_STAT, 63, 32⟩
def MEM_SCRUB_STAT_POS : Fld := ⟨MEM_SCRUB_STAT, 19, 0⟩
def MEM_ECC_CEL : Nat := 0x100002000060
def MEM_ECC_CEL_VALUE : Fld := ⟨MEM_ECC_CEL, 31, 0⟩
def MEM_ECC_CEI : Nat := 0x100002000064
def MEM_ECC_CEI_VALUE : Fld := ⟨MEM_ECC_CEI, 31, 0⟩
def MEM_ECC_UE : Nat := 0x100002000068
def MEM_ECC_UE_VALUE : Fld := ⟨MEM_ECC_UE, 31, 0⟩
def MEM_ECC_ODE : Nat := 0x10000200006c
def MEM_ECC_ODE_VALUE : Fld := ⟨MEM_ECC_ODE, 31, 0⟩
def MEM_ERR_LOG : Nat := 0x100002000070
def MEM_ERR_LOG_PCORE : Fld := ⟨MEM_ERR_LOG, 50, 48⟩
def MEM_ERR_LOG_SRC : Fld := ⟨MEM_ERR_LOG, 46, 44⟩
def MEM_ERR_LOG_CTXV : Fld := ⟨MEM_ERR_LOG, 42, 42⟩
def MEM_ERR_LOG_CTX : Fld := ⟨MEM_ERR_LOG, 41, 36⟩
def MEM_ERR_LOG_ADDR : Fld := ⟨MEM_ERR_LOG, 35, 0⟩
def MEM_EVT : Nat := 0x100002000078
def MEM_EVT_RETRAIN : Fld := ⟨MEM_EVT, 3, 3⟩
def MEM_EVT_SCRUB : Fld := ⟨MEM_EVT, 2, 2⟩
def MEM_EVT_UE : Fld := ⟨MEM_EVT, 1, 1⟩
def MEM_EVT_CE : Fld := ⟨MEM_EVT, 0, 0⟩
def MEM_EVT_EN : Nat := 0x10000200007c
def MEM_EVT_EN_MASK : Fld := ⟨MEM_EVT_EN, 3, 0⟩

/-! Registers of MEM, R213 (spec/06_memory_tiers.md). -/
def MEM_PLT_CTRL : Nat := 0x100002100000
def MEM_PLT_CTRL_CFGERR : Fld := ⟨MEM_PLT_CTRL, 2, 2⟩
def MEM_PLT_CTRL_READY : Fld := ⟨MEM_PLT_CTRL, 1, 1⟩
def MEM_PLT_CTRL_ENABLE : Fld := ⟨MEM_PLT_CTRL, 0, 0⟩
def MEM_PLT_TBL : Nat := 0x100002100008
def MEM_PLT_TBL_UNIT : Fld := ⟨MEM_PLT_TBL, 35, 16⟩
def MEM_PLT_DIR : Nat := 0x100002100010
def MEM_PLT_DIR_UNIT : Fld := ⟨MEM_PLT_DIR, 35, 16⟩
def MEM_PLT_COUNT : Nat := 0x100002100018
def MEM_PLT_COUNT_VALUE : Fld := ⟨MEM_PLT_COUNT, 20, 0⟩
def MEM_PLQ_BASE : Nat := 0x100002100020
def MEM_PLQ_BASE_ADDR : Fld := ⟨MEM_PLQ_BASE, 47, 6⟩
def MEM_PLQ_SIZE : Nat := 0x100002100028
def MEM_PLQ_SIZE_PUNIT : Fld := ⟨MEM_PLQ_SIZE, 31, 12⟩
def MEM_PLQ_SIZE_CMN : Fld := ⟨MEM_PLQ_SIZE, 8, 8⟩
def MEM_PLQ_SIZE_LOG2 : Fld := ⟨MEM_PLQ_SIZE, 4, 0⟩
def MEM_PLQ_PROD : Nat := 0x100002100030
def MEM_PLQ_PROD_INDEX : Fld := ⟨MEM_PLQ_PROD, 15, 0⟩
def MEM_PLQ_CONS : Nat := 0x100002100034
def MEM_PLQ_CONS_INDEX : Fld := ⟨MEM_PLQ_CONS, 15, 0⟩
def MEM_PLT_LIVE : Nat := 0x100002100038
def MEM_PLT_LIVE_VALUE : Fld := ⟨MEM_PLT_LIVE, 31, 0⟩
def MEM_PLT_MIGR : Nat := 0x10000210003c
def MEM_PLT_MIGR_VALUE : Fld := ⟨MEM_PLT_MIGR, 31, 0⟩
def MEM_PLT_EVT : Nat := 0x100002100040
def MEM_PLT_EVT_REFUSED : Fld := ⟨MEM_PLT_EVT, 3, 3⟩
def MEM_PLT_EVT_UNCORR : Fld := ⟨MEM_PLT_EVT, 2, 2⟩
def MEM_PLT_EVT_CANCEL : Fld := ⟨MEM_PLT_EVT, 1, 1⟩
def MEM_PLT_EVT_DONE : Fld := ⟨MEM_PLT_EVT, 0, 0⟩
def MEM_PLT_EVT_EN : Nat := 0x100002100044
def MEM_PLT_EVT_EN_MASK : Fld := ⟨MEM_PLT_EVT_EN, 3, 0⟩
def MEM_PLT_CNT_UNCREAD : Nat := 0x100002100048
def MEM_PLT_CNT_UNCREAD_VALUE : Fld := ⟨MEM_PLT_CNT_UNCREAD, 31, 0⟩
def MEM_PLT_CNT_CANCEL : Nat := 0x10000210004c
def MEM_PLT_CNT_CANCEL_VALUE : Fld := ⟨MEM_PLT_CNT_CANCEL, 31, 0⟩
def MEM_PLT_CNT_DEFER : Nat := 0x100002100050
def MEM_PLT_CNT_DEFER_VALUE : Fld := ⟨MEM_PLT_CNT_DEFER, 31, 0⟩
def MEM_PLT_CNT_REFUSED : Nat := 0x100002100054
def MEM_PLT_CNT_REFUSED_VALUE : Fld := ⟨MEM_PLT_CNT_REFUSED, 31, 0⟩
def MEM_PLT_CNT_LKMISS : Nat := 0x100002100058
def MEM_PLT_CNT_LKMISS_VALUE : Fld := ⟨MEM_PLT_CNT_LKMISS, 63, 0⟩
def MEM_TMV_CNT_TILES : Nat := 0x100002200000
def MEM_TMV_CNT_TILES_VALUE : Fld := ⟨MEM_TMV_CNT_TILES, 63, 0⟩
def MEM_TMV_CNT_MIGTILES : Nat := 0x100002200008
def MEM_TMV_CNT_MIGTILES_VALUE : Fld := ⟨MEM_TMV_CNT_MIGTILES, 63, 0⟩
def MEM_TMV_CNT_WAITCOPY : Nat := 0x100002200010
def MEM_TMV_CNT_WAITCOPY_VALUE : Fld := ⟨MEM_TMV_CNT_WAITCOPY, 63, 0⟩
def MEM_TMV_CNT_CLR : Nat := 0x100002200018
def MEM_TMV_CNT_CLR_ALL : Fld := ⟨MEM_TMV_CNT_CLR, 0, 0⟩

/-! Registers of SCH, R255 (spec/07_batch_steps_and_preemption.md). -/
def SCH_CTRL : Nat := 0x100003000000
def SCH_CTRL_DEFAULT : Fld := ⟨SCH_CTRL, 3, 3⟩
def SCH_CTRL_TTERR : Fld := ⟨SCH_CTRL, 2, 2⟩
def SCH_CTRL_READY : Fld := ⟨SCH_CTRL, 1, 1⟩
def SCH_CTRL_ENABLE : Fld := ⟨SCH_CTRL, 0, 0⟩
def SCH_TT_BASE : Nat := 0x100003000008
def SCH_TT_BASE_ADDR : Fld := ⟨SCH_TT_BASE, 47, 4⟩
def SCH_TT_FRAME : Nat := 0x100003000010
def SCH_TT_FRAME_NSLOT : Fld := ⟨SCH_TT_FRAME, 26, 20⟩
def SCH_TT_FRAME_US : Fld := ⟨SCH_TT_FRAME, 19, 0⟩
def SCH_TT_PHASE : Nat := 0x100003000014
def SCH_TT_PHASE_NS : Fld := ⟨SCH_TT_PHASE, 31, 0⟩
def SCH_TT_COMMIT : Nat := 0x100003000018
def SCH_TT_COMMIT_COMMIT : Fld := ⟨SCH_TT_COMMIT, 0, 0⟩
def SCH_NOW : Nat := 0x100003000020
def SCH_NOW_FRAME : Fld := ⟨SCH_NOW, 63, 8⟩
def SCH_NOW_KIND : Fld := ⟨SCH_NOW, 7, 6⟩
def SCH_NOW_SLOT : Fld := ⟨SCH_NOW, 5, 0⟩
def SCH_HART_CTX : Nat := 0x100003000028
def SCH_HART_CTX_H0 : Fld := ⟨SCH_HART_CTX, 6, 0⟩
def SCH_HART_CTX_H1 : Fld := ⟨SCH_HART_CTX, 14, 8⟩
def SCH_HART_CTX_H2 : Fld := ⟨SCH_HART_CTX, 22, 16⟩
def SCH_HART_CTX_H3 : Fld := ⟨SCH_HART_CTX, 30, 24⟩
def SCH_HART_CTX_H4 : Fld := ⟨SCH_HART_CTX, 38, 32⟩
def SCH_HART_CTX_H5 : Fld := ⟨SCH_HART_CTX, 46, 40⟩
def SCH_HART_CTX_H6 : Fld := ⟨SCH_HART_CTX, 54, 48⟩
def SCH_HART_CTX_H7 : Fld := ⟨SCH_HART_CTX, 62, 56⟩
def SCH_PCI_CTX : Nat := 0x100003000030
def SCH_PCI_CTX_STEP : Fld := ⟨SCH_PCI_CTX, 6, 6⟩
def SCH_PCI_CTX_ID : Fld := ⟨SCH_PCI_CTX, 5, 0⟩
def SCH_EVT : Nat := 0x100003000038
def SCH_EVT_TSTEP : Fld := ⟨SCH_EVT, 6, 6⟩
def SCH_EVT_LOST : Fld := ⟨SCH_EVT, 5, 5⟩
def SCH_EVT_TTERR : Fld := ⟨SCH_EVT, 4, 4⟩
def SCH_EVT_STALE : Fld := ⟨SCH_EVT, 3, 3⟩
def SCH_EVT_PREEMPT : Fld := ⟨SCH_EVT, 2, 2⟩
def SCH_EVT_TEARDOWN : Fld := ⟨SCH_EVT, 1, 1⟩
def SCH_EVT_COMMIT : Fld := ⟨SCH_EVT, 0, 0⟩
def SCH_EVT_EN : Nat := 0x10000300003c
def SCH_EVT_EN_MASK : Fld := ⟨SCH_EVT_EN, 6, 0⟩
def SCH_CNT_PREEMPT : Nat := 0x100003000040
def SCH_CNT_PREEMPT_VALUE : Fld := ⟨SCH_CNT_PREEMPT, 31, 0⟩
def SCH_CNT_SPILLT : Nat := 0x100003000044
def SCH_CNT_SPILLT_VALUE : Fld := ⟨SCH_CNT_SPILLT, 31, 0⟩
def SCH_CNT_RESTART : Nat := 0x100003000048
def SCH_CNT_RESTART_VALUE : Fld := ⟨SCH_CNT_RESTART, 31, 0⟩
def SCH_CNT_STALE : Nat := 0x10000300004c
def SCH_CNT_STALE_VALUE : Fld := ⟨SCH_CNT_STALE, 31, 0⟩
def SCH_CNT_TEARDOWN : Nat := 0x100003000050
def SCH_CNT_TEARDOWN_VALUE : Fld := ⟨SCH_CNT_TEARDOWN, 31, 0⟩
def SCH_CNT_TTERR : Nat := 0x100003000054
def SCH_CNT_TTERR_VALUE : Fld := ⟨SCH_CNT_TTERR, 31, 0⟩
def SCH_CNT_REFSTALL : Nat := 0x100003000058
def SCH_CNT_REFSTALL_VALUE : Fld := ⟨SCH_CNT_REFSTALL, 63, 0⟩
def SCH_CNT_MAINTSTALL : Nat := 0x100003000060
def SCH_CNT_MAINTSTALL_VALUE : Fld := ⟨SCH_CNT_MAINTSTALL, 63, 0⟩
def SCH_CNT_CLR : Nat := 0x100003000068
def SCH_CNT_CLR_ALL : Fld := ⟨SCH_CNT_CLR, 0, 0⟩

/-! Registers of SCH, R256 (spec/07_batch_steps_and_preemption.md). -/
def SCH_CTX_CTL (n : Nat) : Nat := 0x100003100000 + n * 0x100
def SCH_CTX_CTL_PMASK (n : Nat) : Fld := ⟨SCH_CTX_CTL n, 15, 8⟩
def SCH_CTX_CTL_PRIO (n : Nat) : Fld := ⟨SCH_CTX_CTL n, 6, 4⟩
def SCH_CTX_CTL_FAULTED (n : Nat) : Fld := ⟨SCH_CTX_CTL n, 1, 1⟩
def SCH_CTX_CTL_ENABLE (n : Nat) : Fld := ⟨SCH_CTX_CTL n, 0, 0⟩
def SCH_CTX_SLIST (n : Nat) : Nat := 0x100003100008 + n * 0x100
def SCH_CTX_SLIST_LOG2 (n : Nat) : Fld := ⟨SCH_CTX_SLIST n, 60, 56⟩
def SCH_CTX_SLIST_ADDR (n : Nat) : Fld := ⟨SCH_CTX_SLIST n, 47, 6⟩
def SCH_CTX_SPROD (n : Nat) : Nat := 0x100003100010 + n * 0x100
def SCH_CTX_SPROD_INDEX (n : Nat) : Fld := ⟨SCH_CTX_SPROD n, 15, 0⟩
def SCH_CTX_SCONS (n : Nat) : Nat := 0x100003100014 + n * 0x100
def SCH_CTX_SCONS_INDEX (n : Nat) : Fld := ⟨SCH_CTX_SCONS n, 15, 0⟩
def SCH_CTX_SRING (n : Nat) : Nat := 0x100003100018 + n * 0x100
def SCH_CTX_SRING_LOG2 (n : Nat) : Fld := ⟨SCH_CTX_SRING n, 60, 56⟩
def SCH_CTX_SRING_ADDR (n : Nat) : Fld := ⟨SCH_CTX_SRING n, 47, 4⟩
def SCH_CTX_RPROD (n : Nat) : Nat := 0x100003100020 + n * 0x100
def SCH_CTX_RPROD_INDEX (n : Nat) : Fld := ⟨SCH_CTX_RPROD n, 15, 0⟩
def SCH_CTX_RCONS (n : Nat) : Nat := 0x100003100024 + n * 0x100
def SCH_CTX_RCONS_INDEX (n : Nat) : Fld := ⟨SCH_CTX_RCONS n, 15, 0⟩
def SCH_CTX_SPILL (n : Nat) : Nat := 0x100003100028 + n * 0x100
def SCH_CTX_SPILL_ADDR (n : Nat) : Fld := ⟨SCH_CTX_SPILL n, 47, 16⟩
def SCH_CTX_SPILLSZ (n : Nat) : Nat := 0x100003100030 + n * 0x100
def SCH_CTX_SPILLSZ_TILES (n : Nat) : Fld := ⟨SCH_CTX_SPILLSZ n, 31, 0⟩
def SCH_CTX_WIN (n : Nat) : Nat := 0x100003100038 + n * 0x100
def SCH_CTX_WIN_LIMIT (n : Nat) : Fld := ⟨SCH_CTX_WIN n, 56, 32⟩
def SCH_CTX_WIN_BASE (n : Nat) : Fld := ⟨SCH_CTX_WIN n, 23, 0⟩
def SCH_CTX_STAT (n : Nat) : Nat := 0x100003100040 + n * 0x100
def SCH_CTX_STAT_TAGV (n : Nat) : Fld := ⟨SCH_CTX_STAT n, 28, 28⟩
def SCH_CTX_STAT_TAG (n : Nat) : Fld := ⟨SCH_CTX_STAT n, 27, 16⟩
def SCH_CTX_STAT_LCRUN (n : Nat) : Fld := ⟨SCH_CTX_STAT n, 15, 8⟩
def SCH_CTX_STAT_STATE (n : Nat) : Fld := ⟨SCH_CTX_STAT n, 3, 0⟩
def SCH_CTX_FAULT (n : Nat) : Nat := 0x100003100048 + n * 0x100
def SCH_CTX_FAULT_STEPID (n : Nat) : Fld := ⟨SCH_CTX_FAULT n, 63, 48⟩
def SCH_CTX_FAULT_SEQ (n : Nat) : Fld := ⟨SCH_CTX_FAULT n, 47, 32⟩
def SCH_CTX_FAULT_TCCODE (n : Nat) : Fld := ⟨SCH_CTX_FAULT n, 23, 16⟩
def SCH_CTX_FAULT_LCORE (n : Nat) : Fld := ⟨SCH_CTX_FAULT n, 10, 8⟩
def SCH_CTX_FAULT_CAUSE (n : Nat) : Fld := ⟨SCH_CTX_FAULT n, 7, 0⟩
def SCH_CTX_CNT_STEPS (n : Nat) : Nat := 0x100003100050 + n * 0x100
def SCH_CTX_CNT_STEPS_VALUE (n : Nat) : Fld := ⟨SCH_CTX_CNT_STEPS n, 31, 0⟩
def SCH_CTX_CNT_PREEMPT (n : Nat) : Nat := 0x100003100054 + n * 0x100
def SCH_CTX_CNT_PREEMPT_VALUE (n : Nat) : Fld := ⟨SCH_CTX_CNT_PREEMPT n, 31, 0⟩
def SCH_CTX_CNT_LOST (n : Nat) : Nat := 0x100003100058 + n * 0x100
def SCH_CTX_CNT_LOST_VALUE (n : Nat) : Fld := ⟨SCH_CTX_CNT_LOST n, 31, 0⟩

/-! Registers of SCH, R163 (spec/05_attention_and_kv_pages.md). -/
def SCH_KVP_CTL (n : Nat) : Nat := 0x100003400000 + n * 0x100
def SCH_KVP_CTL_OWNER (n : Nat) : Fld := ⟨SCH_KVP_CTL n, 13, 8⟩
def SCH_KVP_CTL_MODE (n : Nat) : Fld := ⟨SCH_KVP_CTL n, 2, 2⟩
def SCH_KVP_CTL_READY (n : Nat) : Fld := ⟨SCH_KVP_CTL n, 1, 1⟩
def SCH_KVP_CTL_ENABLE (n : Nat) : Fld := ⟨SCH_KVP_CTL n, 0, 0⟩
def SCH_KVP_BASE (n : Nat) : Nat := 0x100003400008 + n * 0x100
def SCH_KVP_BASE_ADDR (n : Nat) : Fld := ⟨SCH_KVP_BASE n, 47, 16⟩
def SCH_KVP_GEOM (n : Nat) : Nat := 0x100003400010 + n * 0x100
def SCH_KVP_GEOM_PAGE4K (n : Nat) : Fld := ⟨SCH_KVP_GEOM n, 31, 24⟩
def SCH_KVP_GEOM_PAGES (n : Nat) : Fld := ⟨SCH_KVP_GEOM n, 20, 0⟩
def SCH_KVP_FSTK (n : Nat) : Nat := 0x100003400018 + n * 0x100
def SCH_KVP_FSTK_ADDR (n : Nat) : Fld := ⟨SCH_KVP_FSTK n, 47, 16⟩
def SCH_KVP_HBASE (n : Nat) : Nat := 0x100003400020 + n * 0x100
def SCH_KVP_HBASE_ADDR (n : Nat) : Fld := ⟨SCH_KVP_HBASE n, 47, 16⟩
def SCH_KVP_HSTK (n : Nat) : Nat := 0x100003400028 + n * 0x100
def SCH_KVP_HSTK_ADDR (n : Nat) : Fld := ⟨SCH_KVP_HSTK n, 47, 16⟩
def SCH_KVP_HSLOTS (n : Nat) : Nat := 0x100003400030 + n * 0x100
def SCH_KVP_HSLOTS_COUNT (n : Nat) : Fld := ⟨SCH_KVP_HSLOTS n, 20, 0⟩
def SCH_KVP_FREE (n : Nat) : Nat := 0x100003400034 + n * 0x100
def SCH_KVP_FREE_COUNT (n : Nat) : Fld := ⟨SCH_KVP_FREE n, 20, 0⟩
def SCH_KVP_ADMIT (n : Nat) : Nat := 0x100003400038 + n * 0x100
def SCH_KVP_ADMIT_PTAB (n : Nat) : Fld := ⟨SCH_KVP_ADMIT n, 47, 6⟩
def SCH_KVP_RETIRE (n : Nat) : Nat := 0x100003400040 + n * 0x100
def SCH_KVP_RETIRE_PTAB (n : Nat) : Fld := ⟨SCH_KVP_RETIRE n, 47, 6⟩
def SCH_KVP_LASTVIC (n : Nat) : Nat := 0x100003400048 + n * 0x100
def SCH_KVP_LASTVIC_PTAB (n : Nat) : Fld := ⟨SCH_KVP_LASTVIC n, 47, 0⟩
def SCH_KVP_EVT (n : Nat) : Nat := 0x100003400050 + n * 0x100
def SCH_KVP_EVT_BADREQ (n : Nat) : Fld := ⟨SCH_KVP_EVT n, 6, 6⟩
def SCH_KVP_EVT_HOLE (n : Nat) : Fld := ⟨SCH_KVP_EVT n, 5, 5⟩
def SCH_KVP_EVT_WAIT (n : Nat) : Fld := ⟨SCH_KVP_EVT n, 4, 4⟩
def SCH_KVP_EVT_SKIP (n : Nat) : Fld := ⟨SCH_KVP_EVT n, 3, 3⟩
def SCH_KVP_EVT_SWIN (n : Nat) : Fld := ⟨SCH_KVP_EVT n, 2, 2⟩
def SCH_KVP_EVT_SWOUT (n : Nat) : Fld := ⟨SCH_KVP_EVT n, 1, 1⟩
def SCH_KVP_EVT_DROP (n : Nat) : Fld := ⟨SCH_KVP_EVT n, 0, 0⟩
def SCH_KVP_EVT_EN (n : Nat) : Nat := 0x100003400054 + n * 0x100
def SCH_KVP_EVT_EN_MASK (n : Nat) : Fld := ⟨SCH_KVP_EVT_EN n, 6, 0⟩
def SCH_KVP_NEXTADM (n : Nat) : Nat := 0x100003400058 + n * 0x100
def SCH_KVP_NEXTADM_VALUE (n : Nat) : Fld := ⟨SCH_KVP_NEXTADM n, 31, 0⟩
def SCH_KVP_LIVE (n : Nat) : Nat := 0x10000340005c + n * 0x100
def SCH_KVP_LIVE_VALUE (n : Nat) : Fld := ⟨SCH_KVP_LIVE n, 31, 0⟩
def SCH_KVP_CNT_DROP (n : Nat) : Nat := 0x100003400060 + n * 0x100
def SCH_KVP_CNT_DROP_VALUE (n : Nat) : Fld := ⟨SCH_KVP_CNT_DROP n, 31, 0⟩
def SCH_KVP_CNT_SWOUT (n : Nat) : Nat := 0x100003400064 + n * 0x100
def SCH_KVP_CNT_SWOUT_VALUE (n : Nat) : Fld := ⟨SCH_KVP_CNT_SWOUT n, 31, 0⟩
def SCH_KVP_CNT_SWIN (n : Nat) : Nat := 0x100003400068 + n * 0x100
def SCH_KVP_CNT_SWIN_VALUE (n : Nat) : Fld := ⟨SCH_KVP_CNT_SWIN n, 31, 0⟩
def SCH_KVP_CNT_SKIP (n : Nat) : Nat := 0x10000340006c + n * 0x100
def SCH_KVP_CNT_SKIP_VALUE (n : Nat) : Fld := ⟨SCH_KVP_CNT_SKIP n, 31, 0⟩
def SCH_KVP_CNT_HOLE (n : Nat) : Nat := 0x100003400070 + n * 0x100
def SCH_KVP_CNT_HOLE_VALUE (n : Nat) : Fld := ⟨SCH_KVP_CNT_HOLE n, 31, 0⟩
def SCH_KVP_CNT_BADREQ (n : Nat) : Nat := 0x100003400074 + n * 0x100
def SCH_KVP_CNT_BADREQ_VALUE (n : Nat) : Fld := ⟨SCH_KVP_CNT_BADREQ n, 31, 0⟩
def SCH_KVP_CNT_WAIT (n : Nat) : Nat := 0x100003400078 + n * 0x100
def SCH_KVP_CNT_WAIT_VALUE (n : Nat) : Fld := ⟨SCH_KVP_CNT_WAIT n, 63, 0⟩

/-! Registers of TIM, R290 (spec/09_bandstand_time.md). -/
def TIM_CTRL : Nat := 0x100004000000
def TIM_CTRL_ACTSRC : Fld := ⟨TIM_CTRL, 10, 8⟩
def TIM_CTRL_FALLBACK : Fld := ⟨TIM_CTRL, 7, 7⟩
def TIM_CTRL_HOLDOVER : Fld := ⟨TIM_CTRL, 6, 6⟩
def TIM_CTRL_LOCKED : Fld := ⟨TIM_CTRL, 5, 5⟩
def TIM_CTRL_MODE : Fld := ⟨TIM_CTRL, 4, 4⟩
def TIM_CTRL_ENABLE : Fld := ⟨TIM_CTRL, 0, 0⟩
def TIM_NOW_LO : Nat := 0x100004000008
def TIM_NOW_LO_FRAC : Fld := ⟨TIM_NOW_LO, 47, 32⟩
def TIM_NOW_LO_NS : Fld := ⟨TIM_NOW_LO, 29, 0⟩
def TIM_NOW_HI : Nat := 0x100004000010
def TIM_NOW_HI_SEC : Fld := ⟨TIM_NOW_HI, 47, 0⟩
def TIM_NOW_WRAP : Nat := 0x100004000018
def TIM_NOW_WRAP_W : Fld := ⟨TIM_NOW_WRAP, 31, 0⟩
def TIM_STEP_LO : Nat := 0x100004000020
def TIM_STEP_LO_FRAC : Fld := ⟨TIM_STEP_LO, 47, 32⟩
def TIM_STEP_LO_NS : Fld := ⟨TIM_STEP_LO, 29, 0⟩
def TIM_STEP_HI : Nat := 0x100004000028
def TIM_STEP_HI_SEC : Fld := ⟨TIM_STEP_HI, 47, 0⟩
def TIM_STEP_CTL : Nat := 0x100004000030
def TIM_STEP_CTL_BUSY : Fld := ⟨TIM_STEP_CTL, 8, 8⟩
def TIM_STEP_CTL_MODE : Fld := ⟨TIM_STEP_CTL, 2, 2⟩
def TIM_STEP_CTL_REL : Fld := ⟨TIM_STEP_CTL, 1, 1⟩
def TIM_STEP_CTL_GO : Fld := ⟨TIM_STEP_CTL, 0, 0⟩
def TIM_SRC_CFG : Nat := 0x100004000040
def TIM_SRC_CFG_TIMEOUT : Fld := ⟨TIM_SRC_CFG, 23, 16⟩
def TIM_SRC_CFG_SEC : Fld := ⟨TIM_SRC_CFG, 10, 8⟩
def TIM_SRC_CFG_PRI : Fld := ⟨TIM_SRC_CFG, 2, 0⟩
def TIM_SRC_EPOCHOFS : Nat := 0x100004000044
def TIM_SRC_EPOCHOFS_SEC : Fld := ⟨TIM_SRC_EPOCHOFS, 31, 0⟩
def TIM_SRC_FWOFS : Nat := 0x100004000048
def TIM_SRC_FWOFS_SRC : Fld := ⟨TIM_SRC_FWOFS, 50, 48⟩
def TIM_SRC_FWOFS_THETA : Fld := ⟨TIM_SRC_FWOFS, 47, 0⟩
def TIM_SRV_KP : Nat := 0x100004000050
def TIM_SRV_KP_S : Fld := ⟨TIM_SRV_KP, 21, 16⟩
def TIM_SRV_KP_M : Fld := ⟨TIM_SRV_KP, 15, 0⟩
def TIM_SRV_KI : Nat := 0x100004000054
def TIM_SRV_KI_S : Fld := ⟨TIM_SRV_KI, 21, 16⟩
def TIM_SRV_KI_M : Fld := ⟨TIM_SRV_KI, 15, 0⟩
def TIM_SRV_LIMIT : Nat := 0x100004000058
def TIM_SRV_LIMIT_ADJMAX : Fld := ⟨TIM_SRV_LIMIT, 19, 0⟩
def TIM_SRV_LOCK : Nat := 0x10000400005c
def TIM_SRV_LOCK_LOCKN : Fld := ⟨TIM_SRV_LOCK, 27, 24⟩
def TIM_SRV_LOCK_LOCKTHR : Fld := ⟨TIM_SRV_LOCK, 19, 0⟩
def TIM_SRV_COMMIT : Nat := 0x100004000060
def TIM_SRV_COMMIT_COMMIT : Fld := ⟨TIM_SRV_COMMIT, 0, 0⟩
def TIM_SRV_OFS : Nat := 0x100004000068
def TIM_SRV_OFS_THETA : Fld := ⟨TIM_SRV_OFS, 47, 0⟩
def TIM_SRV_ADJ : Nat := 0x100004000070
def TIM_SRV_ADJ_VALUE : Fld := ⟨TIM_SRV_ADJ, 31, 0⟩
def TIM_SRV_INTEG : Nat := 0x100004000074
def TIM_SRV_INTEG_VALUE : Fld := ⟨TIM_SRV_INTEG, 31, 0⟩
def TIM_EVT : Nat := 0x100004000078
def TIM_EVT_STEPERR : Fld := ⟨TIM_EVT, 7, 7⟩
def TIM_EVT_REJECT : Fld := ⟨TIM_EVT, 6, 6⟩
def TIM_EVT_CLAMP : Fld := ⟨TIM_EVT, 5, 5⟩
def TIM_EVT_FALLBACK : Fld := ⟨TIM_EVT, 4, 4⟩
def TIM_EVT_HOLDOVER : Fld := ⟨TIM_EVT, 3, 3⟩
def TIM_EVT_LOCKCHG : Fld := ⟨TIM_EVT, 2, 2⟩
def TIM_EVT_STEP : Fld := ⟨TIM_EVT, 1, 1⟩
def TIM_EVT_SAMPLE : Fld := ⟨TIM_EVT, 0, 0⟩
def TIM_EVT_EN : Nat := 0x10000400007c
def TIM_EVT_EN_MASK : Fld := ⟨TIM_EVT_EN, 7, 0⟩
def TIM_CNT_STEP : Nat := 0x100004000080
def TIM_CNT_STEP_VALUE : Fld := ⟨TIM_CNT_STEP, 31, 0⟩
def TIM_CNT_SAMPLE : Nat := 0x100004000084
def TIM_CNT_SAMPLE_VALUE : Fld := ⟨TIM_CNT_SAMPLE, 31, 0⟩
def TIM_CNT_REJECT : Nat := 0x100004000088
def TIM_CNT_REJECT_VALUE : Fld := ⟨TIM_CNT_REJECT, 31, 0⟩
def TIM_CNT_CLAMP : Nat := 0x10000400008c
def TIM_CNT_CLAMP_VALUE : Fld := ⟨TIM_CNT_CLAMP, 31, 0⟩
def TIM_CMP_EVT : Nat := 0x100004000090
def TIM_CMP_EVT_UNIT : Fld := ⟨TIM_CMP_EVT, 31, 0⟩
def TIM_CMP_EVT_EN : Nat := 0x100004000094
def TIM_CMP_EVT_EN_MASK : Fld := ⟨TIM_CMP_EVT_EN, 31, 0⟩
def TIM_CNT_CLR : Nat := 0x100004000098
def TIM_CNT_CLR_ALL : Fld := ⟨TIM_CNT_CLR, 0, 0⟩

/-! Registers of TIM, R291 (spec/09_bandstand_time.md). -/
def TIM_CMP_CTL (c : Nat) : Nat := 0x100004001000 + c * 0x40
def TIM_CMP_CTL_WIDTH (c : Nat) : Fld := ⟨TIM_CMP_CTL c, 31, 16⟩
def TIM_CMP_CTL_POL (c : Nat) : Fld := ⟨TIM_CMP_CTL c, 15, 15⟩
def TIM_CMP_CTL_DEST (c : Nat) : Fld := ⟨TIM_CMP_CTL c, 14, 8⟩
def TIM_CMP_CTL_STEPPOL (c : Nat) : Fld := ⟨TIM_CMP_CTL c, 5, 5⟩
def TIM_CMP_CTL_PERIODIC (c : Nat) : Fld := ⟨TIM_CMP_CTL c, 3, 3⟩
def TIM_CMP_CTL_COMMIT (c : Nat) : Fld := ⟨TIM_CMP_CTL c, 1, 1⟩
def TIM_CMP_CTL_ENABLE (c : Nat) : Fld := ⟨TIM_CMP_CTL c, 0, 0⟩
def TIM_CMP_TGT_LO (c : Nat) : Nat := 0x100004001008 + c * 0x40
def TIM_CMP_TGT_LO_FRAC (c : Nat) : Fld := ⟨TIM_CMP_TGT_LO c, 47, 32⟩
def TIM_CMP_TGT_LO_NS (c : Nat) : Fld := ⟨TIM_CMP_TGT_LO c, 29, 0⟩
def TIM_CMP_TGT_HI (c : Nat) : Nat := 0x100004001010 + c * 0x40
def TIM_CMP_TGT_HI_SEC (c : Nat) : Fld := ⟨TIM_CMP_TGT_HI c, 47, 0⟩
def TIM_CMP_PER (c : Nat) : Nat := 0x100004001018 + c * 0x40
def TIM_CMP_PER_NS (c : Nat) : Fld := ⟨TIM_CMP_PER c, 47, 16⟩
def TIM_CMP_PER_FRAC (c : Nat) : Fld := ⟨TIM_CMP_PER c, 15, 0⟩
def TIM_CMP_STAT (c : Nat) : Nat := 0x100004001020 + c * 0x40
def TIM_CMP_STAT_MISSED (c : Nat) : Fld := ⟨TIM_CMP_STAT c, 31, 16⟩
def TIM_CMP_STAT_LATE (c : Nat) : Fld := ⟨TIM_CMP_STAT c, 2, 2⟩
def TIM_CMP_STAT_ARMED (c : Nat) : Fld := ⟨TIM_CMP_STAT c, 1, 1⟩
def TIM_CMP_NEXT_LO (c : Nat) : Nat := 0x100004001028 + c * 0x40
def TIM_CMP_NEXT_LO_FRAC (c : Nat) : Fld := ⟨TIM_CMP_NEXT_LO c, 47, 32⟩
def TIM_CMP_NEXT_LO_NS (c : Nat) : Fld := ⟨TIM_CMP_NEXT_LO c, 29, 0⟩
def TIM_CMP_NEXT_HI (c : Nat) : Nat := 0x100004001030 + c * 0x40
def TIM_CMP_NEXT_HI_SEC (c : Nat) : Fld := ⟨TIM_CMP_NEXT_HI c, 47, 0⟩

/-! Registers of SNS, R324 (spec/10_sensor_front_and_fusion.md). -/
def SNS_CTRL : Nat := 0x100005000000
def SNS_CTRL_ENABLE : Fld := ⟨SNS_CTRL, 0, 0⟩
def SNS_LINK : Nat := 0x100005000008
def SNS_LINK_ETH : Fld := ⟨SNS_LINK, 15, 12⟩
def SNS_LINK_CSI : Fld := ⟨SNS_LINK, 11, 0⟩
def SNS_CSI_CFG (p : Nat) : Nat := 0x100005000100 + p * 0x8
def SNS_CSI_CFG_NONCONT (p : Nat) : Fld := ⟨SNS_CSI_CFG p, 3, 3⟩
def SNS_CSI_CFG_LANES (p : Nat) : Fld := ⟨SNS_CSI_CFG p, 2, 0⟩
def SNS_IMU_CFG (q : Nat) : Nat := 0x100005000200 + q * 0x8
def SNS_IMU_CFG_CMD (q : Nat) : Fld := ⟨SNS_IMU_CFG q, 63, 32⟩
def SNS_IMU_CFG_BURST (q : Nat) : Fld := ⟨SNS_IMU_CFG q, 20, 14⟩
def SNS_IMU_CFG_CMDLEN (q : Nat) : Fld := ⟨SNS_IMU_CFG q, 13, 11⟩
def SNS_IMU_CFG_DRPOL (q : Nat) : Fld := ⟨SNS_IMU_CFG q, 10, 10⟩
def SNS_IMU_CFG_DIV (q : Nat) : Fld := ⟨SNS_IMU_CFG q, 9, 2⟩
def SNS_IMU_CFG_MODE (q : Nat) : Fld := ⟨SNS_IMU_CFG q, 1, 0⟩
def SNS_CNT_CRC : Nat := 0x100005000300
def SNS_CNT_CRC_VALUE : Fld := ⟨SNS_CNT_CRC, 31, 0⟩
def SNS_CNT_ECC : Nat := 0x100005000304
def SNS_CNT_ECC_VALUE : Fld := ⟨SNS_CNT_ECC, 31, 0⟩
def SNS_CNT_NOMATCH : Nat := 0x100005000308
def SNS_CNT_NOMATCH_VALUE : Fld := ⟨SNS_CNT_NOMATCH, 31, 0⟩
def SNS_CNT_CLR : Nat := 0x10000500030c
def SNS_CNT_CLR_ALL : Fld := ⟨SNS_CNT_CLR, 0, 0⟩
def SNS_CH_PROD (n : Nat) : Nat := 0x100005001000 + n * 0x20
def SNS_CH_PROD_INDEX (n : Nat) : Fld := ⟨SNS_CH_PROD n, 15, 0⟩
def SNS_CH_CONS (n : Nat) : Nat := 0x100005001004 + n * 0x20
def SNS_CH_CONS_INDEX (n : Nat) : Fld := ⟨SNS_CH_CONS n, 15, 0⟩
def SNS_CH_CNT_DROP (n : Nat) : Nat := 0x100005001008 + n * 0x20
def SNS_CH_CNT_DROP_VALUE (n : Nat) : Fld := ⟨SNS_CH_CNT_DROP n, 31, 0⟩
def SNS_CH_CNT_ERR (n : Nat) : Nat := 0x10000500100c + n * 0x20
def SNS_CH_CNT_ERR_VALUE (n : Nat) : Fld := ⟨SNS_CH_CNT_ERR n, 31, 0⟩

/-! Registers of SNS, R325 (spec/10_sensor_front_and_fusion.md). -/
def FUS_CTRL : Nat := 0x100005800000
def FUS_CTRL_CFGERR : Fld := ⟨FUS_CTRL, 2, 2⟩
def FUS_CTRL_READY : Fld := ⟨FUS_CTRL, 1, 1⟩
def FUS_CTRL_ENABLE : Fld := ⟨FUS_CTRL, 0, 0⟩
def FUS_CHTAB : Nat := 0x100005800008
def FUS_CHTAB_ADDR : Fld := ⟨FUS_CHTAB, 47, 6⟩
def FUS_SLOTTAB : Nat := 0x100005800010
def FUS_SLOTTAB_ADDR : Fld := ⟨FUS_SLOTTAB, 47, 6⟩
def FUS_EXTAB : Nat := 0x100005800018
def FUS_EXTAB_ADDR : Fld := ⟨FUS_EXTAB, 47, 6⟩
def FUS_OUT : Nat := 0x100005800020
def FUS_OUT_PHASE : Fld := ⟨FUS_OUT, 63, 32⟩
def FUS_OUT_PERIOD : Fld := ⟨FUS_OUT, 31, 0⟩
def FUS_CUT : Nat := 0x100005800028
def FUS_CUT_GRID : Fld := ⟨FUS_CUT, 31, 16⟩
def FUS_CUT_SLOT : Fld := ⟨FUS_CUT, 15, 0⟩
def FUS_GRID : Nat := 0x100005800030
def FUS_GRID_BASE : Fld := ⟨FUS_GRID, 47, 16⟩
def FUS_GRID_DIV : Fld := ⟨FUS_GRID, 15, 8⟩
def FUS_GRID_NF : Fld := ⟨FUS_GRID, 6, 0⟩
def FUS_GRID_GEOM : Nat := 0x100005800038
def FUS_GRID_GEOM_MAXAGE : Fld := ⟨FUS_GRID_GEOM, 63, 32⟩
def FUS_GRID_GEOM_CELL : Fld := ⟨FUS_GRID_GEOM, 31, 0⟩
def FUS_GRID_Z : Nat := 0x100005800040
def FUS_GRID_Z_ZMAX : Fld := ⟨FUS_GRID_Z, 63, 32⟩
def FUS_GRID_Z_ZMIN : Fld := ⟨FUS_GRID_Z, 31, 0⟩
def FUS_COMMIT : Nat := 0x100005800048
def FUS_COMMIT_COMMIT : Fld := ⟨FUS_COMMIT, 0, 0⟩
def FUS_CH_VALID : Nat := 0x100005800050
def FUS_CH_VALID_VALUE : Fld := ⟨FUS_CH_VALID, 63, 0⟩
def FUS_CH_DESYNC : Nat := 0x100005800058
def FUS_CH_DESYNC_VALUE : Fld := ⟨FUS_CH_DESYNC, 63, 0⟩
def FUS_GRID_GEN : Nat := 0x100005800060
def FUS_GRID_GEN_VALUE : Fld := ⟨FUS_GRID_GEN, 31, 0⟩
def FUS_GRID_CUR : Nat := 0x100005800064
def FUS_GRID_CUR_BUF : Fld := ⟨FUS_GRID_CUR, 0, 0⟩
def FUS_EVT : Nat := 0x100005800068
def FUS_EVT_CFGERR : Fld := ⟨FUS_EVT, 3, 3⟩
def FUS_EVT_GRID : Fld := ⟨FUS_EVT, 2, 2⟩
def FUS_EVT_CONFLICT : Fld := ⟨FUS_EVT, 1, 1⟩
def FUS_EVT_DESYNC : Fld := ⟨FUS_EVT, 0, 0⟩
def FUS_EVT_EN : Nat := 0x10000580006c
def FUS_EVT_EN_MASK : Fld := ⟨FUS_EVT_EN, 3, 0⟩
def FUS_CNT (i : Nat) : Nat := 0x100005800070 + i * 0x4
def FUS_CNT_VALUE (i : Nat) : Fld := ⟨FUS_CNT i, 31, 0⟩
def FUS_CNT_CLR : Nat := 0x100005800090
def FUS_CNT_CLR_ALL : Fld := ⟨FUS_CNT_CLR, 0, 0⟩

/-! Registers of SLV, R350 (spec/11_batch_solver.md). -/
def SLV_CTRL : Nat := 0x100006000000
def SLV_CTRL_CFGERR : Fld := ⟨SLV_CTRL, 2, 2⟩
def SLV_CTRL_READY : Fld := ⟨SLV_CTRL, 1, 1⟩
def SLV_CTRL_ENABLE : Fld := ⟨SLV_CTRL, 0, 0⟩
def SLV_BQ_BASE : Nat := 0x100006000008
def SLV_BQ_BASE_LOG2 : Fld := ⟨SLV_BQ_BASE, 60, 56⟩
def SLV_BQ_BASE_ADDR : Fld := ⟨SLV_BQ_BASE, 47, 6⟩
def SLV_BQ_PROD : Nat := 0x100006000010
def SLV_BQ_PROD_INDEX : Fld := ⟨SLV_BQ_PROD, 15, 0⟩
def SLV_BQ_CONS : Nat := 0x100006000014
def SLV_BQ_CONS_INDEX : Fld := ⟨SLV_BQ_CONS, 15, 0⟩
def SLV_STAT : Nat := 0x100006000018
def SLV_STAT_FUSBUSY : Fld := ⟨SLV_STAT, 17, 17⟩
def SLV_STAT_BUSY : Fld := ⟨SLV_STAT, 16, 16⟩
def SLV_STAT_INDEX : Fld := ⟨SLV_STAT, 15, 0⟩
def SLV_EVT : Nat := 0x100006000020
def SLV_EVT_EGOBUSY : Fld := ⟨SLV_EVT, 3, 3⟩
def SLV_EVT_ABORT : Fld := ⟨SLV_EVT, 2, 2⟩
def SLV_EVT_FLAG : Fld := ⟨SLV_EVT, 1, 1⟩
def SLV_EVT_DONE : Fld := ⟨SLV_EVT, 0, 0⟩
def SLV_EVT_EN : Nat := 0x100006000024
def SLV_EVT_EN_MASK : Fld := ⟨SLV_EVT_EN, 3, 0⟩
def SLV_CNT_BATCH : Nat := 0x100006000028
def SLV_CNT_BATCH_VALUE : Fld := ⟨SLV_CNT_BATCH, 31, 0⟩
def SLV_CNT_PROB : Nat := 0x10000600002c
def SLV_CNT_PROB_VALUE : Fld := ⟨SLV_CNT_PROB, 31, 0⟩
def SLV_CNT_REG : Nat := 0x100006000030
def SLV_CNT_REG_VALUE : Fld := ⟨SLV_CNT_REG, 31, 0⟩
def SLV_CNT_OVF : Nat := 0x100006000034
def SLV_CNT_OVF_VALUE : Fld := ⟨SLV_CNT_OVF, 31, 0⟩
def SLV_CNT_WREJ : Nat := 0x100006000038
def SLV_CNT_WREJ_VALUE : Fld := ⟨SLV_CNT_WREJ, 31, 0⟩
def SLV_CNT_INVALID : Nat := 0x10000600003c
def SLV_CNT_INVALID_VALUE : Fld := ⟨SLV_CNT_INVALID, 31, 0⟩
def SLV_CNT_EGOBUSY : Nat := 0x100006000040
def SLV_CNT_EGOBUSY_VALUE : Fld := ⟨SLV_CNT_EGOBUSY, 31, 0⟩
def SLV_CNT_STALL : Nat := 0x100006000048
def SLV_CNT_STALL_VALUE : Fld := ⟨SLV_CNT_STALL, 63, 0⟩
def SLV_CNT_CLR : Nat := 0x100006000050
def SLV_CNT_CLR_ALL : Fld := ⟨SLV_CNT_CLR, 0, 0⟩

/-! Registers of TRL, R372 (spec/12_trellis_planner.md). -/
def TRL_CTRL : Nat := 0x100007000000
def TRL_CTRL_BADBANK : Fld := ⟨TRL_CTRL, 4, 4⟩
def TRL_CTRL_LOADING : Fld := ⟨TRL_CTRL, 3, 3⟩
def TRL_CTRL_CFGERR : Fld := ⟨TRL_CTRL, 2, 2⟩
def TRL_CTRL_READY : Fld := ⟨TRL_CTRL, 1, 1⟩
def TRL_CTRL_ENABLE : Fld := ⟨TRL_CTRL, 0, 0⟩
def TRL_BANK_BASE (b : Nat) : Nat := 0x100007000008 + b * 0x8
def TRL_BANK_BASE_ADDR (b : Nat) : Fld := ⟨TRL_BANK_BASE b, 47, 16⟩
def TRL_BANK : Nat := 0x100007000030
def TRL_BANK_SEL : Fld := ⟨TRL_BANK, 1, 0⟩
def TRL_COMMIT : Nat := 0x100007000034
def TRL_COMMIT_COMMIT : Fld := ⟨TRL_COMMIT, 0, 0⟩
def TRL_OCC_CFG : Nat := 0x100007000038
def TRL_OCC_CFG_OTHR : Fld := ⟨TRL_OCC_CFG, 47, 32⟩
def TRL_OCC_CFG_UNKOCC : Fld := ⟨TRL_OCC_CFG, 21, 21⟩
def TRL_OCC_CFG_ZPB : Fld := ⟨TRL_OCC_CFG, 20, 13⟩
def TRL_OCC_CFG_NOCC : Fld := ⟨TRL_OCC_CFG, 12, 6⟩
def TRL_OCC_CFG_OCCF : Fld := ⟨TRL_OCC_CFG, 5, 0⟩
def TRL_RQ_BASE : Nat := 0x100007000040
def TRL_RQ_BASE_LOG2 : Fld := ⟨TRL_RQ_BASE, 60, 56⟩
def TRL_RQ_BASE_ADDR : Fld := ⟨TRL_RQ_BASE, 47, 6⟩
def TRL_RQ_PROD : Nat := 0x100007000048
def TRL_RQ_PROD_INDEX : Fld := ⟨TRL_RQ_PROD, 15, 0⟩
def TRL_RQ_CONS : Nat := 0x10000700004c
def TRL_RQ_CONS_INDEX : Fld := ⟨TRL_RQ_CONS, 15, 0⟩
def TRL_MARGIN : Nat := 0x100007000050
def TRL_MARGIN_NS : Fld := ⟨TRL_MARGIN, 31, 0⟩
def TRL_MAXAGE : Nat := 0x100007000054
def TRL_MAXAGE_US : Fld := ⟨TRL_MAXAGE, 31, 0⟩
def TRL_STAT : Nat := 0x100007000058
def TRL_STAT_HELD : Fld := ⟨TRL_STAT, 4, 4⟩
def TRL_STAT_SEARCH : Fld := ⟨TRL_STAT, 3, 3⟩
def TRL_STAT_INGEST : Fld := ⟨TRL_STAT, 2, 2⟩
def TRL_STAT_BANK : Fld := ⟨TRL_STAT, 1, 0⟩
def TRL_OGEN : Nat := 0x10000700005c
def TRL_OGEN_VALUE : Fld := ⟨TRL_OGEN, 31, 0⟩
def TRL_EVT : Nat := 0x100007000060
def TRL_EVT_REFUSED : Fld := ⟨TRL_EVT, 6, 6⟩
def TRL_EVT_BADBANK : Fld := ⟨TRL_EVT, 5, 5⟩
def TRL_EVT_OCCERR : Fld := ⟨TRL_EVT, 4, 4⟩
def TRL_EVT_WITHHELD : Fld := ⟨TRL_EVT, 3, 3⟩
def TRL_EVT_STOP : Fld := ⟨TRL_EVT, 2, 2⟩
def TRL_EVT_COMMIT : Fld := ⟨TRL_EVT, 1, 1⟩
def TRL_EVT_DONE : Fld := ⟨TRL_EVT, 0, 0⟩
def TRL_EVT_EN : Nat := 0x100007000064
def TRL_EVT_EN_MASK : Fld := ⟨TRL_EVT_EN, 6, 0⟩
def TRL_CNT (i : Nat) : Nat := 0x100007000068 + i * 0x4
def TRL_CNT_VALUE (i : Nat) : Fld := ⟨TRL_CNT i, 31, 0⟩
def TRL_CNT_BCAST : Nat := 0x100007000098
def TRL_CNT_BCAST_VALUE : Fld := ⟨TRL_CNT_BCAST, 63, 0⟩
def TRL_CNT_CONFSTALL : Nat := 0x1000070000a0
def TRL_CNT_CONFSTALL_VALUE : Fld := ⟨TRL_CNT_CONFSTALL, 63, 0⟩
def TRL_CNT_EXPAND : Nat := 0x1000070000a8
def TRL_CNT_EXPAND_VALUE : Fld := ⟨TRL_CNT_EXPAND, 63, 0⟩
def TRL_CNT_CLR : Nat := 0x1000070000b0
def TRL_CNT_CLR_ALL : Fld := ⟨TRL_CNT_CLR, 0, 0⟩

/-! Registers of BLV, R393 (spec/13_belvedere_control_island.md). -/
def BLV_ICU_CTRL : Nat := 0x100008000000
def BLV_ICU_CTRL_ENABLE : Fld := ⟨BLV_ICU_CTRL, 0, 0⟩
def BLV_ICU_PEND (w : Nat) : Nat := 0x100008000100 + w * 0x4
def BLV_ICU_PEND_BITS (w : Nat) : Fld := ⟨BLV_ICU_PEND w, 31, 0⟩
def BLV_ICU_SWI : Nat := 0x100008000200
def BLV_ICU_SWI_SRC : Fld := ⟨BLV_ICU_SWI, 9, 0⟩
def BLV_ICU_SRC (s : Nat) : Nat := 0x100008001000 + s * 0x4
def BLV_ICU_SRC_PENDING (s : Nat) : Fld := ⟨BLV_ICU_SRC s, 31, 31⟩
def BLV_ICU_SRC_ACTIVE (s : Nat) : Fld := ⟨BLV_ICU_SRC s, 30, 30⟩
def BLV_ICU_SRC_EDGE (s : Nat) : Fld := ⟨BLV_ICU_SRC s, 11, 11⟩
def BLV_ICU_SRC_EN (s : Nat) : Fld := ⟨BLV_ICU_SRC s, 10, 10⟩
def BLV_ICU_SRC_PRIO (s : Nat) : Fld := ⟨BLV_ICU_SRC s, 7, 4⟩
def BLV_ICU_SRC_TARGET (s : Nat) : Fld := ⟨BLV_ICU_SRC s, 3, 0⟩
def BLV_ICU_T_THR (t : Nat) : Nat := 0x100008002000 + t * 0x40
def BLV_ICU_T_THR_VALUE (t : Nat) : Fld := ⟨BLV_ICU_T_THR t, 4, 0⟩
def BLV_ICU_T_CLAIM (t : Nat) : Nat := 0x100008002004 + t * 0x40
def BLV_ICU_T_CLAIM_SRC (t : Nat) : Fld := ⟨BLV_ICU_T_CLAIM t, 9, 0⟩
def BLV_ICU_T_COMPLETE (t : Nat) : Nat := 0x100008002008 + t * 0x40
def BLV_ICU_T_COMPLETE_SRC (t : Nat) : Fld := ⟨BLV_ICU_T_COMPLETE t, 9, 0⟩
def BLV_ICU_T_TOP (t : Nat) : Nat := 0x10000800200c + t * 0x40
def BLV_ICU_T_TOP_SRC (t : Nat) : Fld := ⟨BLV_ICU_T_TOP t, 25, 16⟩
def BLV_ICU_T_TOP_PRIO (t : Nat) : Fld := ⟨BLV_ICU_T_TOP t, 11, 8⟩
def BLV_ICU_T_TOP_DEPTH (t : Nat) : Fld := ⟨BLV_ICU_T_TOP t, 4, 0⟩
def BLV_ICU_T_FAULT (t : Nat) : Nat := 0x100008002010 + t * 0x40
def BLV_ICU_T_FAULT_VALID (t : Nat) : Fld := ⟨BLV_ICU_T_FAULT t, 63, 63⟩
def BLV_ICU_T_FAULT_COUNT (t : Nat) : Fld := ⟨BLV_ICU_T_FAULT t, 47, 32⟩
def BLV_ICU_T_FAULT_EXPECT (t : Nat) : Fld := ⟨BLV_ICU_T_FAULT t, 25, 16⟩
def BLV_ICU_T_FAULT_GIVEN (t : Nat) : Fld := ⟨BLV_ICU_T_FAULT t, 9, 0⟩
def BLV_ICU_T_RESET (t : Nat) : Nat := 0x100008002018 + t * 0x40
def BLV_ICU_T_RESET_GO (t : Nat) : Fld := ⟨BLV_ICU_T_RESET t, 0, 0⟩

/-! Registers of BLV, R411 (spec/13_belvedere_control_island.md). -/
def BLV_CLE_CTRL : Nat := 0x100008100000
def BLV_CLE_CTRL_ENABLE : Fld := ⟨BLV_CLE_CTRL, 0, 0⟩
def BLV_CLE_RPT : Nat := 0x100008100008
def BLV_CLE_RPT_ADDR : Fld := ⟨BLV_CLE_RPT, 47, 12⟩
def BLV_CLE_EVT : Nat := 0x100008100010
def BLV_CLE_EVT_RPTERR : Fld := ⟨BLV_CLE_EVT, 2, 2⟩
def BLV_CLE_EVT_OVR : Fld := ⟨BLV_CLE_EVT, 1, 1⟩
def BLV_CLE_EVT_NANS : Fld := ⟨BLV_CLE_EVT, 0, 0⟩
def BLV_CLE_EVT_EN : Nat := 0x100008100014
def BLV_CLE_EVT_EN_MASK : Fld := ⟨BLV_CLE_EVT_EN, 3, 0⟩
def BLV_CLE_GRP_EVT : Nat := 0x100008100018
def BLV_CLE_GRP_EVT_DONE : Fld := ⟨BLV_CLE_GRP_EVT, 7, 0⟩
def BLV_CLE_GRP_EVT_EN : Nat := 0x10000810001c
def BLV_CLE_GRP_EVT_EN_MASK : Fld := ⟨BLV_CLE_GRP_EVT_EN, 7, 0⟩
def BLV_CLE_GRP_STAT (g : Nat) : Nat := 0x100008100020 + g * 0x8
def BLV_CLE_GRP_STAT_BNDRY (g : Nat) : Fld := ⟨BLV_CLE_GRP_STAT g, 63, 32⟩
def BLV_CLE_GRP_STAT_OVR (g : Nat) : Fld := ⟨BLV_CLE_GRP_STAT g, 31, 16⟩
def BLV_CLE_GRP_STAT_NLOOP (g : Nat) : Fld := ⟨BLV_CLE_GRP_STAT g, 6, 0⟩
def BLV_CLE_PLAUS : Nat := 0x100008100060
def BLV_CLE_PLAUS_MASK : Fld := ⟨BLV_CLE_PLAUS, 63, 0⟩
def BLV_CLE_CNT_PLAUS : Nat := 0x100008100068
def BLV_CLE_CNT_PLAUS_VALUE : Fld := ⟨BLV_CLE_CNT_PLAUS, 31, 0⟩
def BLV_CLE_CNT_NANS : Nat := 0x10000810006c
def BLV_CLE_CNT_NANS_VALUE : Fld := ⟨BLV_CLE_CNT_NANS, 31, 0⟩
def BLV_CLE_CNT_RPTERR : Nat := 0x100008100070
def BLV_CLE_CNT_RPTERR_VALUE : Fld := ⟨BLV_CLE_CNT_RPTERR, 31, 0⟩
def BLV_CLE_CNT_CLR : Nat := 0x100008100074
def BLV_CLE_CNT_CLR_ALL : Fld := ⟨BLV_CLE_CNT_CLR, 0, 0⟩
def BLV_CLE_L_CTL (n : Nat) : Nat := 0x100008101000 + n * 0x100
def BLV_CLE_L_CTL_PLAUSN (n : Nat) : Fld := ⟨BLV_CLE_L_CTL n, 31, 24⟩
def BLV_CLE_L_CTL_ACTION (n : Nat) : Fld := ⟨BLV_CLE_L_CTL n, 17, 16⟩
def BLV_CLE_L_CTL_MODEL (n : Nat) : Fld := ⟨BLV_CLE_L_CTL n, 13, 12⟩
def BLV_CLE_L_CTL_AWHOLD (n : Nat) : Fld := ⟨BLV_CLE_L_CTL n, 9, 9⟩
def BLV_CLE_L_CTL_DERR (n : Nat) : Fld := ⟨BLV_CLE_L_CTL n, 8, 8⟩
def BLV_CLE_L_CTL_GROUP (n : Nat) : Fld := ⟨BLV_CLE_L_CTL n, 6, 4⟩
def BLV_CLE_L_CTL_CFGERR (n : Nat) : Fld := ⟨BLV_CLE_L_CTL n, 1, 1⟩
def BLV_CLE_L_CTL_ENABLE (n : Nat) : Fld := ⟨BLV_CLE_L_CTL n, 0, 0⟩
def BLV_CLE_L_SRC (n : Nat) : Nat := 0x100008101008 + n * 0x100
def BLV_CLE_L_SRC_PM (n : Nat) : Fld := ⟨BLV_CLE_L_SRC n, 59, 48⟩
def BLV_CLE_L_SRC_FF (n : Nat) : Fld := ⟨BLV_CLE_L_SRC n, 43, 32⟩
def BLV_CLE_L_SRC_R (n : Nat) : Fld := ⟨BLV_CLE_L_SRC n, 27, 16⟩
def BLV_CLE_L_SRC_Y (n : Nat) : Fld := ⟨BLV_CLE_L_SRC n, 11, 0⟩
def BLV_CLE_L_ODEST (n : Nat) : Nat := 0x100008101010 + n * 0x100
def BLV_CLE_L_ODEST_WORD (n : Nat) : Fld := ⟨BLV_CLE_L_ODEST n, 15, 8⟩
def BLV_CLE_L_ODEST_EN (n : Nat) : Fld := ⟨BLV_CLE_L_ODEST n, 0, 0⟩
def BLV_CLE_L_RIN (n : Nat) : Nat := 0x100008101018 + n * 0x100
def BLV_CLE_L_RIN_VALUE (n : Nat) : Fld := ⟨BLV_CLE_L_RIN n, 31, 0⟩
def BLV_CLE_L_YIN (n : Nat) : Nat := 0x10000810101c + n * 0x100
def BLV_CLE_L_YIN_VALUE (n : Nat) : Fld := ⟨BLV_CLE_L_YIN n, 31, 0⟩
def BLV_CLE_L_FFIN (n : Nat) : Nat := 0x100008101020 + n * 0x100
def BLV_CLE_L_FFIN_VALUE (n : Nat) : Fld := ⟨BLV_CLE_L_FFIN n, 31, 0⟩
def BLV_CLE_L_STAT (n : Nat) : Nat := 0x100008101028 + n * 0x100
def BLV_CLE_L_STAT_BAD (n : Nat) : Fld := ⟨BLV_CLE_L_STAT n, 15, 8⟩
def BLV_CLE_L_STAT_USAT (n : Nat) : Fld := ⟨BLV_CLE_L_STAT n, 7, 7⟩
def BLV_CLE_L_STAT_ISAT (n : Nat) : Fld := ⟨BLV_CLE_L_STAT n, 6, 6⟩
def BLV_CLE_L_STAT_NANS (n : Nat) : Fld := ⟨BLV_CLE_L_STAT n, 5, 5⟩
def BLV_CLE_L_STAT_CAUSE (n : Nat) : Fld := ⟨BLV_CLE_L_STAT n, 4, 4⟩
def BLV_CLE_L_STAT_ACTING (n : Nat) : Fld := ⟨BLV_CLE_L_STAT n, 3, 3⟩
def BLV_CLE_L_STAT_PLAUS (n : Nat) : Fld := ⟨BLV_CLE_L_STAT n, 0, 0⟩
def BLV_CLE_L_OUT (n : Nat) : Nat := 0x100008101030 + n * 0x100
def BLV_CLE_L_OUT_VALUE (n : Nat) : Fld := ⟨BLV_CLE_L_OUT n, 31, 0⟩
def BLV_CLE_L_INTEG (n : Nat) : Nat := 0x100008101034 + n * 0x100
def BLV_CLE_L_INTEG_VALUE (n : Nat) : Fld := ⟨BLV_CLE_L_INTEG n, 31, 0⟩
def BLV_CLE_L_DERIV (n : Nat) : Nat := 0x100008101038 + n * 0x100
def BLV_CLE_L_DERIV_VALUE (n : Nat) : Fld := ⟨BLV_CLE_L_DERIV n, 31, 0⟩
def BLV_CLE_L_BK (n : Nat) (b : Nat) (k : Nat) : Nat := 0x100008101040 + n * 0x100 + b * 0x40 + k * 0x4
def BLV_CLE_L_BK_VALUE (n : Nat) (b : Nat) (k : Nat) : Fld := ⟨BLV_CLE_L_BK n b k, 31, 0⟩

/-! Registers of BLV, R440 (spec/14_reflex_arrays_and_sluice.md). -/
def RFX_CTRL : Nat := 0x100008200000
def RFX_CTRL_ACTBANK : Fld := ⟨RFX_CTRL, 4, 4⟩
def RFX_CTRL_CFGERR : Fld := ⟨RFX_CTRL, 2, 2⟩
def RFX_CTRL_READY : Fld := ⟨RFX_CTRL, 1, 1⟩
def RFX_CTRL_ENABLE : Fld := ⟨RFX_CTRL, 0, 0⟩
def RFX_BIND (g : Nat) : Nat := 0x100008200008 + g * 0x4
def RFX_BIND_EN (g : Nat) : Fld := ⟨RFX_BIND g, 15, 15⟩
def RFX_BIND_CMP (g : Nat) : Fld := ⟨RFX_BIND g, 12, 8⟩
def RFX_BIND_PROG (g : Nat) : Fld := ⟨RFX_BIND g, 3, 0⟩
def RFX_COMMIT : Nat := 0x100008200028
def RFX_COMMIT_COMMIT : Fld := ⟨RFX_COMMIT, 0, 0⟩
def RFX_DUAL_EN : Nat := 0x100008200030
def RFX_DUAL_EN_MASK : Fld := ⟨RFX_DUAL_EN, 63, 0⟩
def RFX_DUAL_MIS : Nat := 0x100008200038
def RFX_DUAL_MIS_MASK : Fld := ⟨RFX_DUAL_MIS, 63, 0⟩
def RFX_EVT : Nat := 0x100008200040
def RFX_EVT_NOPROG : Fld := ⟨RFX_EVT, 5, 5⟩
def RFX_EVT_CFGERR : Fld := ⟨RFX_EVT, 4, 4⟩
def RFX_EVT_ECC : Fld := ⟨RFX_EVT, 3, 3⟩
def RFX_EVT_NOEVAL : Fld := ⟨RFX_EVT, 2, 2⟩
def RFX_EVT_BUSY : Fld := ⟨RFX_EVT, 1, 1⟩
def RFX_EVT_ABSENT : Fld := ⟨RFX_EVT, 0, 0⟩
def RFX_EVT_EN : Nat := 0x100008200044
def RFX_EVT_EN_MASK : Fld := ⟨RFX_EVT_EN, 6, 0⟩
def RFX_PROGV : Nat := 0x100008200048
def RFX_PROGV_MASK : Fld := ⟨RFX_PROGV, 15, 0⟩
def RFX_CNT_EVAL : Nat := 0x100008200050
def RFX_CNT_EVAL_VALUE : Fld := ⟨RFX_CNT_EVAL, 63, 0⟩
def RFX_CNT_ABSENT : Nat := 0x100008200058
def RFX_CNT_ABSENT_VALUE : Fld := ⟨RFX_CNT_ABSENT, 31, 0⟩
def RFX_CNT_BUSY : Nat := 0x10000820005c
def RFX_CNT_BUSY_VALUE : Fld := ⟨RFX_CNT_BUSY, 31, 0⟩
def RFX_CNT_ECC : Nat := 0x100008200060
def RFX_CNT_ECC_VALUE : Fld := ⟨RFX_CNT_ECC, 31, 0⟩
def RFX_CNT_DUALMIS : Nat := 0x100008200064
def RFX_CNT_DUALMIS_VALUE : Fld := ⟨RFX_CNT_DUALMIS, 31, 0⟩
def RFX_CNT_CLR : Nat := 0x100008200068
def RFX_CNT_CLR_ALL : Fld := ⟨RFX_CNT_CLR, 0, 0⟩
def RFX_GRP_STAT (g : Nat) : Nat := 0x100008200100 + g * 0x8
def RFX_GRP_STAT_EVALS (g : Nat) : Fld := ⟨RFX_GRP_STAT g, 63, 32⟩
def RFX_GRP_STAT_ABSMASK (g : Nat) : Fld := ⟨RFX_GRP_STAT g, 23, 16⟩
def RFX_GRP_STAT_BANK (g : Nat) : Fld := ⟨RFX_GRP_STAT g, 8, 8⟩
def RFX_GRP_STAT_FLAGS (g : Nat) : Fld := ⟨RFX_GRP_STAT g, 5, 0⟩
def RFX_RES (g : Nat) (k : Nat) : Nat := 0x100008201000 + g * 0x100 + k * 0x4
def RFX_RES_VALUE (g : Nat) (k : Nat) : Fld := ⟨RFX_RES g k, 31, 0⟩

/-! Registers of BLV, R441 (spec/14_reflex_arrays_and_sluice.md). -/
def SLC_CTRL : Nat := 0x100008300000
def SLC_CTRL_CFGERR : Fld := ⟨SLC_CTRL, 2, 2⟩
def SLC_CTRL_READY : Fld := ⟨SLC_CTRL, 1, 1⟩
def SLC_CTRL_ENABLE : Fld := ⟨SLC_CTRL, 0, 0⟩
def SLC_RQ_BASE : Nat := 0x100008300008
def SLC_RQ_BASE_LOG2 : Fld := ⟨SLC_RQ_BASE, 60, 56⟩
def SLC_RQ_BASE_ADDR : Fld := ⟨SLC_RQ_BASE, 47, 6⟩
def SLC_RQ_PROD : Nat := 0x100008300010
def SLC_RQ_PROD_INDEX : Fld := ⟨SLC_RQ_PROD, 15, 0⟩
def SLC_RQ_CONS : Nat := 0x100008300014
def SLC_RQ_CONS_INDEX : Fld := ⟨SLC_RQ_CONS, 15, 0⟩
def SLC_FILLTMO : Nat := 0x100008300018
def SLC_FILLTMO_US : Fld := ⟨SLC_FILLTMO, 31, 0⟩
def SLC_EVT : Nat := 0x100008300020
def SLC_EVT_TIMEOUT : Fld := ⟨SLC_EVT, 4, 4⟩
def SLC_EVT_REJECT : Fld := ⟨SLC_EVT, 3, 3⟩
def SLC_EVT_STALE : Fld := ⟨SLC_EVT, 2, 2⟩
def SLC_EVT_SWAP : Fld := ⟨SLC_EVT, 1, 1⟩
def SLC_EVT_DONE : Fld := ⟨SLC_EVT, 0, 0⟩
def SLC_EVT_EN : Nat := 0x100008300024
def SLC_EVT_EN_MASK : Fld := ⟨SLC_EVT_EN, 4, 0⟩
def SLC_CNT_SWAP : Nat := 0x100008300028
def SLC_CNT_SWAP_VALUE : Fld := ⟨SLC_CNT_SWAP, 31, 0⟩
def SLC_CNT_LATE : Nat := 0x10000830002c
def SLC_CNT_LATE_VALUE : Fld := ⟨SLC_CNT_LATE, 31, 0⟩
def SLC_CNT_REJECT : Nat := 0x100008300030
def SLC_CNT_REJECT_VALUE : Fld := ⟨SLC_CNT_REJECT, 31, 0⟩
def SLC_CNT_STALE : Nat := 0x100008300034
def SLC_CNT_STALE_VALUE : Fld := ⟨SLC_CNT_STALE, 31, 0⟩
def SLC_CNT_CLR : Nat := 0x100008300038
def SLC_CNT_CLR_ALL : Fld := ⟨SLC_CNT_CLR, 0, 0⟩
def SLC_ACTBANK : Nat := 0x100008300040
def SLC_ACTBANK_MASK : Fld := ⟨SLC_ACTBANK, 63, 0⟩
def SLC_L_STAT (l : Nat) : Nat := 0x100008300100 + l * 0x40
def SLC_L_STAT_SWAPS (l : Nat) : Fld := ⟨SLC_L_STAT l, 31, 16⟩
def SLC_L_STAT_ARMPEND (l : Nat) : Fld := ⟨SLC_L_STAT l, 11, 11⟩
def SLC_L_STAT_TGRP (l : Nat) : Fld := ⟨SLC_L_STAT l, 10, 8⟩
def SLC_L_STAT_STALE (l : Nat) : Fld := ⟨SLC_L_STAT l, 3, 3⟩
def SLC_L_STAT_STATE (l : Nat) : Fld := ⟨SLC_L_STAT l, 2, 0⟩
def SLC_L_AMASK (l : Nat) : Nat := 0x100008300108 + l * 0x40
def SLC_L_AMASK_MASK (l : Nat) : Fld := ⟨SLC_L_AMASK l, 63, 0⟩
def SLC_L_ARM (l : Nat) : Nat := 0x100008300110 + l * 0x40
def SLC_L_ARM_TGRP (l : Nat) : Fld := ⟨SLC_L_ARM l, 6, 4⟩
def SLC_L_ARM_GO (l : Nat) : Fld := ⟨SLC_L_ARM l, 0, 0⟩
def SLC_L_STALE (l : Nat) : Nat := 0x100008300114 + l * 0x40
def SLC_L_STALE_US (l : Nat) : Fld := ⟨SLC_L_STALE l, 31, 0⟩
def SLC_L_GEN (l : Nat) : Nat := 0x100008300118 + l * 0x40
def SLC_L_GEN_VALUE (l : Nat) : Fld := ⟨SLC_L_GEN l, 31, 0⟩
def SLC_L_LAST (l : Nat) : Nat := 0x100008300120 + l * 0x40
def SLC_L_LAST_SEC (l : Nat) : Fld := ⟨SLC_L_LAST l, 63, 32⟩
def SLC_L_LAST_NS (l : Nat) : Fld := ⟨SLC_L_LAST l, 29, 0⟩

/-! Registers of BLV, R384 (spec/13_belvedere_control_island.md). -/
def BLV_HART_CTL (h : Nat) : Nat := 0x100008400000 + h * 0x40
def BLV_HART_CTL_WDOG_US (h : Nat) : Fld := ⟨BLV_HART_CTL h, 31, 16⟩
def BLV_HART_CTL_RUN (h : Nat) : Fld := ⟨BLV_HART_CTL h, 0, 0⟩
def BLV_HART_RVEC (h : Nat) : Nat := 0x100008400008 + h * 0x40
def BLV_HART_RVEC_OFS (h : Nat) : Fld := ⟨BLV_HART_RVEC h, 17, 2⟩
def BLV_HART_KICK (h : Nat) : Nat := 0x100008400010 + h * 0x40
def BLV_HART_KICK_KICK (h : Nat) : Fld := ⟨BLV_HART_KICK h, 0, 0⟩
def BLV_HART_STAT (h : Nat) : Nat := 0x100008400014 + h * 0x40
def BLV_HART_STAT_WDOGN (h : Nat) : Fld := ⟨BLV_HART_STAT h, 15, 8⟩
def BLV_HART_STAT_RUNNING (h : Nat) : Fld := ⟨BLV_HART_STAT h, 0, 0⟩
def BLV_SRAM_CE : Nat := 0x100008400200
def BLV_SRAM_CE_VALUE : Fld := ⟨BLV_SRAM_CE, 31, 0⟩
def BLV_SRAM_UE : Nat := 0x100008400204
def BLV_SRAM_UE_VALUE : Fld := ⟨BLV_SRAM_UE, 31, 0⟩

/-! Registers of BLV, R395 (spec/13_belvedere_control_island.md). -/
def BLV_TIO_IN : Nat := 0x100008500000
def BLV_TIO_IN_BITS : Fld := ⟨BLV_TIO_IN, 31, 0⟩
def BLV_TIO_OUT : Nat := 0x100008500008
def BLV_TIO_OUT_BITS : Fld := ⟨BLV_TIO_OUT, 31, 0⟩
def BLV_TIO_CFG (p : Nat) : Nat := 0x100008500100 + p * 0x20
def BLV_TIO_CFG_OVR (p : Nat) : Fld := ⟨BLV_TIO_CFG p, 3, 3⟩
def BLV_TIO_CFG_EDGE (p : Nat) : Fld := ⟨BLV_TIO_CFG p, 2, 1⟩
def BLV_TIO_CFG_DIR (p : Nat) : Fld := ⟨BLV_TIO_CFG p, 0, 0⟩
def BLV_TIO_TSLO (p : Nat) : Nat := 0x100008500108 + p * 0x20
def BLV_TIO_TSLO_FRAC (p : Nat) : Fld := ⟨BLV_TIO_TSLO p, 47, 32⟩
def BLV_TIO_TSLO_NS (p : Nat) : Fld := ⟨BLV_TIO_TSLO p, 29, 0⟩
def BLV_TIO_TSHI (p : Nat) : Nat := 0x100008500110 + p * 0x20
def BLV_TIO_TSHI_SEC (p : Nat) : Fld := ⟨BLV_TIO_TSHI p, 47, 0⟩

/-! Registers of BLV, R384 (spec/13_belvedere_control_island.md). -/
def BLV_HRC_CTRL (d : Nat) : Nat := 0x100008600000 + d * 0x100
def BLV_HRC_CTRL_SCRUB (d : Nat) : Fld := ⟨BLV_HRC_CTRL d, 0, 0⟩
def BLV_HRC_STAT (d : Nat) : Nat := 0x100008600008 + d * 0x100
def BLV_HRC_STAT_READY (d : Nat) : Fld := ⟨BLV_HRC_STAT d, 0, 0⟩
def BLV_HRC_CE (d : Nat) : Nat := 0x100008600010 + d * 0x100
def BLV_HRC_CE_VALUE (d : Nat) : Fld := ⟨BLV_HRC_CE d, 31, 0⟩
def BLV_HRC_UE (d : Nat) : Nat := 0x100008600014 + d * 0x100
def BLV_HRC_UE_VALUE (d : Nat) : Fld := ⟨BLV_HRC_UE d, 31, 0⟩
def BLV_HRC_ERR_LOG (d : Nat) : Nat := 0x100008600018 + d * 0x100
def BLV_HRC_ERR_LOG_SRC (d : Nat) : Fld := ⟨BLV_HRC_ERR_LOG d, 58, 56⟩
def BLV_HRC_ERR_LOG_HART (d : Nat) : Fld := ⟨BLV_HRC_ERR_LOG d, 49, 48⟩
def BLV_HRC_ERR_LOG_ADDR (d : Nat) : Fld := ⟨BLV_HRC_ERR_LOG d, 25, 0⟩
def BLV_HRC_SCRUB (d : Nat) : Nat := 0x100008600020 + d * 0x100
def BLV_HRC_SCRUB_PASSES (d : Nat) : Fld := ⟨BLV_HRC_SCRUB d, 31, 16⟩
def BLV_HRC_SCRUB_POS (d : Nat) : Fld := ⟨BLV_HRC_SCRUB d, 15, 0⟩

/-! Registers of FLD, R475 (spec/15_field_networks_and_object_dictionary.md). -/
def FLD_ECS_CTRL : Nat := 0x100009000000
def FLD_ECS_CTRL_ENABLE : Fld := ⟨FLD_ECS_CTRL, 0, 0⟩
def FLD_ECS_STAT : Nat := 0x100009000008
def FLD_ECS_STAT_ALSTAT : Fld := ⟨FLD_ECS_STAT, 31, 16⟩
def FLD_ECS_STAT_ALCODE : Fld := ⟨FLD_ECS_STAT, 15, 0⟩
def FLD_ECS_EVT : Nat := 0x100009000010
def FLD_ECS_EVT_EMCYLOST : Fld := ⟨FLD_ECS_EVT, 5, 5⟩
def FLD_ECS_EVT_MBXERR : Fld := ⟨FLD_ECS_EVT, 4, 4⟩
def FLD_ECS_EVT_LINK : Fld := ⟨FLD_ECS_EVT, 3, 3⟩
def FLD_ECS_EVT_WDOG : Fld := ⟨FLD_ECS_EVT, 2, 2⟩
def FLD_ECS_EVT_SYNCERR : Fld := ⟨FLD_ECS_EVT, 1, 1⟩
def FLD_ECS_EVT_STATECHG : Fld := ⟨FLD_ECS_EVT, 0, 0⟩
def FLD_ECS_EVT_EN : Nat := 0x100009000014
def FLD_ECS_EVT_EN_MASK : Fld := ⟨FLD_ECS_EVT_EN, 5, 0⟩
def FLD_ECS_MBXRATE : Nat := 0x100009000018
def FLD_ECS_MBXRATE_RATE : Fld := ⟨FLD_ECS_MBXRATE, 4, 0⟩
def FLD_ECS_CNT (i : Nat) : Nat := 0x100009000020 + i * 0x4
def FLD_ECS_CNT_VALUE (i : Nat) : Fld := ⟨FLD_ECS_CNT i, 31, 0⟩
def FLD_ECS_CNT_CLR : Nat := 0x100009000040
def FLD_ECS_CNT_CLR_ALL : Fld := ⟨FLD_ECS_CNT_CLR, 0, 0⟩
def FLD_ECM_IN (k : Nat) : Nat := 0x100009101000 + k * 0x4
def FLD_ECM_IN_VALUE (k : Nat) : Fld := ⟨FLD_ECM_IN k, 31, 0⟩
def FLD_ECM_OUT (k : Nat) : Nat := 0x100009101400 + k * 0x4
def FLD_ECM_OUT_VALUE (k : Nat) : Fld := ⟨FLD_ECM_OUT k, 31, 0⟩
def FLD_ECM_CTL (s : Nat) : Nat := 0x100009110000 + s * 0x10000
def FLD_ECM_CTL_SUBN (s : Nat) : Fld := ⟨FLD_ECM_CTL s, 15, 8⟩
def FLD_ECM_CTL_GRP (s : Nat) : Fld := ⟨FLD_ECM_CTL s, 6, 4⟩
def FLD_ECM_CTL_REDUND (s : Nat) : Fld := ⟨FLD_ECM_CTL s, 1, 1⟩
def FLD_ECM_CTL_ENABLE (s : Nat) : Fld := ⟨FLD_ECM_CTL s, 0, 0⟩
def FLD_ECM_TIMING (s : Nat) : Nat := 0x100009110008 + s * 0x10000
def FLD_ECM_TIMING_DEADLINE (s : Nat) : Fld := ⟨FLD_ECM_TIMING s, 63, 32⟩
def FLD_ECM_TIMING_TXOFS (s : Nat) : Fld := ⟨FLD_ECM_TIMING s, 31, 0⟩
def FLD_ECM_RTD (s : Nat) : Nat := 0x100009110010 + s * 0x10000
def FLD_ECM_RTD_NS (s : Nat) : Fld := ⟨FLD_ECM_RTD s, 31, 0⟩
def FLD_ECM_FLEN (s : Nat) : Nat := 0x100009110014 + s * 0x10000
def FLD_ECM_FLEN_BYTES (s : Nat) : Fld := ⟨FLD_ECM_FLEN s, 10, 0⟩
def FLD_ECM_STAT (s : Nat) : Nat := 0x100009110018 + s * 0x10000
def FLD_ECM_STAT_BADRUN (s : Nat) : Fld := ⟨FLD_ECM_STAT s, 23, 16⟩
def FLD_ECM_STAT_CFGERR (s : Nat) : Fld := ⟨FLD_ECM_STAT s, 6, 6⟩
def FLD_ECM_STAT_LINKB (s : Nat) : Fld := ⟨FLD_ECM_STAT s, 5, 5⟩
def FLD_ECM_STAT_LINKA (s : Nat) : Fld := ⟨FLD_ECM_STAT s, 4, 4⟩
def FLD_ECM_STAT_SPLIT (s : Nat) : Fld := ⟨FLD_ECM_STAT s, 3, 3⟩
def FLD_ECM_STAT_INVALID (s : Nat) : Fld := ⟨FLD_ECM_STAT s, 2, 2⟩
def FLD_ECM_STAT_SUBST (s : Nat) : Fld := ⟨FLD_ECM_STAT s, 1, 1⟩
def FLD_ECM_STAT_RUN (s : Nat) : Fld := ⟨FLD_ECM_STAT s, 0, 0⟩
def FLD_ECM_CNT_CYCLE (s : Nat) : Nat := 0x100009110020 + s * 0x10000
def FLD_ECM_CNT_CYCLE_VALUE (s : Nat) : Fld := ⟨FLD_ECM_CNT_CYCLE s, 63, 0⟩
def FLD_ECM_CNT (s : Nat) (i : Nat) : Nat := 0x100009110028 + s * 0x10000 + i * 0x4
def FLD_ECM_CNT_VALUE (s : Nat) (i : Nat) : Fld := ⟨FLD_ECM_CNT s i, 31, 0⟩
def FLD_ECM_ACYC (s : Nat) : Nat := 0x100009110040 + s * 0x10000
def FLD_ECM_ACYC_RESULT (s : Nat) : Fld := ⟨FLD_ECM_ACYC s, 19, 18⟩
def FLD_ECM_ACYC_BUSY (s : Nat) : Fld := ⟨FLD_ECM_ACYC s, 17, 17⟩
def FLD_ECM_ACYC_GO (s : Nat) : Fld := ⟨FLD_ECM_ACYC s, 16, 16⟩
def FLD_ECM_ACYC_LEN (s : Nat) : Fld := ⟨FLD_ECM_ACYC s, 10, 0⟩
def FLD_ECM_EVT (s : Nat) : Nat := 0x100009110050 + s * 0x10000
def FLD_ECM_EVT_ACYC (s : Nat) : Fld := ⟨FLD_ECM_EVT s, 4, 4⟩
def FLD_ECM_EVT_LINK (s : Nat) : Fld := ⟨FLD_ECM_EVT s, 3, 3⟩
def FLD_ECM_EVT_SUBST (s : Nat) : Fld := ⟨FLD_ECM_EVT s, 2, 2⟩
def FLD_ECM_EVT_MISSED (s : Nat) : Fld := ⟨FLD_ECM_EVT s, 1, 1⟩
def FLD_ECM_EVT_BADWKC (s : Nat) : Fld := ⟨FLD_ECM_EVT s, 0, 0⟩
def FLD_ECM_EVT_EN (s : Nat) : Nat := 0x100009110054 + s * 0x10000
def FLD_ECM_EVT_EN_MASK (s : Nat) : Fld := ⟨FLD_ECM_EVT_EN s, 4, 0⟩
def FLD_ECM_CNT_CLR (s : Nat) : Nat := 0x100009110058 + s * 0x10000
def FLD_ECM_CNT_CLR_ALL (s : Nat) : Fld := ⟨FLD_ECM_CNT_CLR s, 0, 0⟩
def FLD_ECM_EWKC (s : Nat) (d : Nat) : Nat := 0x100009110100 + s * 0x10000 + d * 0x4
def FLD_ECM_EWKC_VALID (s : Nat) (d : Nat) : Fld := ⟨FLD_ECM_EWKC s d, 29, 29⟩
def FLD_ECM_EWKC_DCTIME (s : Nat) (d : Nat) : Fld := ⟨FLD_ECM_EWKC s d, 28, 28⟩
def FLD_ECM_EWKC_OFS (s : Nat) (d : Nat) : Fld := ⟨FLD_ECM_EWKC s d, 27, 16⟩
def FLD_ECM_EWKC_EXPECT (s : Nat) (d : Nat) : Fld := ⟨FLD_ECM_EWKC s d, 15, 0⟩
def FLD_ECM_TPL (s : Nat) (i : Nat) : Nat := 0x100009111000 + s * 0x10000 + i * 0x8
def FLD_ECM_TPL_WORD (s : Nat) (i : Nat) : Fld := ⟨FLD_ECM_TPL s i, 63, 0⟩
def FLD_ECM_RET (s : Nat) (i : Nat) : Nat := 0x100009111800 + s * 0x10000 + i * 0x8
def FLD_ECM_RET_VALUE (s : Nat) (i : Nat) : Fld := ⟨FLD_ECM_RET s i, 63, 0⟩
def FLD_ECM_ACB (s : Nat) (i : Nat) : Nat := 0x100009112000 + s * 0x10000 + i * 0x8
def FLD_ECM_ACB_WORD (s : Nat) (i : Nat) : Fld := ⟨FLD_ECM_ACB s i, 63, 0⟩
def FLD_ECM_MAP_LO (s : Nat) (e : Nat) : Nat := 0x100009114000 + s * 0x10000 + e * 0x10
def FLD_ECM_MAP_LO_VALID (s : Nat) (e : Nat) : Fld := ⟨FLD_ECM_MAP_LO s e, 63, 63⟩
def FLD_ECM_MAP_LO_DIR (s : Nat) (e : Nat) : Fld := ⟨FLD_ECM_MAP_LO s e, 62, 62⟩
def FLD_ECM_MAP_LO_TYPE (s : Nat) (e : Nat) : Fld := ⟨FLD_ECM_MAP_LO s e, 61, 58⟩
def FLD_ECM_MAP_LO_BIT (s : Nat) (e : Nat) : Fld := ⟨FLD_ECM_MAP_LO s e, 57, 55⟩
def FLD_ECM_MAP_LO_SUBMODE (s : Nat) (e : Nat) : Fld := ⟨FLD_ECM_MAP_LO s e, 54, 54⟩
def FLD_ECM_MAP_LO_WORD (s : Nat) (e : Nat) : Fld := ⟨FLD_ECM_MAP_LO s e, 47, 40⟩
def FLD_ECM_MAP_LO_OFS (s : Nat) (e : Nat) : Fld := ⟨FLD_ECM_MAP_LO s e, 28, 16⟩
def FLD_ECM_MAP_HI (s : Nat) (e : Nat) : Nat := 0x100009114008 + s * 0x10000 + e * 0x10
def FLD_ECM_MAP_HI_SUBV (s : Nat) (e : Nat) : Fld := ⟨FLD_ECM_MAP_HI s e, 63, 32⟩
def FLD_ECM_MAP_HI_SCALE (s : Nat) (e : Nat) : Fld := ⟨FLD_ECM_MAP_HI s e, 31, 0⟩
def FLD_ETH_CTL (p : Nat) : Nat := 0x100009200000 + p * 0x100
def FLD_ETH_CTL_RXLIM (p : Nat) : Fld := ⟨FLD_ETH_CTL p, 31, 16⟩
def FLD_ETH_CTL_ALLRX (p : Nat) : Fld := ⟨FLD_ETH_CTL p, 1, 1⟩
def FLD_ETH_CTL_ENABLE (p : Nat) : Fld := ⟨FLD_ETH_CTL p, 0, 0⟩
def FLD_ETH_RXRING (p : Nat) : Nat := 0x100009200008 + p * 0x100
def FLD_ETH_RXRING_LOG2 (p : Nat) : Fld := ⟨FLD_ETH_RXRING p, 60, 56⟩
def FLD_ETH_RXRING_ADDR (p : Nat) : Fld := ⟨FLD_ETH_RXRING p, 47, 6⟩
def FLD_ETH_TXRING (p : Nat) : Nat := 0x100009200010 + p * 0x100
def FLD_ETH_TXRING_LOG2 (p : Nat) : Fld := ⟨FLD_ETH_TXRING p, 60, 56⟩
def FLD_ETH_TXRING_ADDR (p : Nat) : Fld := ⟨FLD_ETH_TXRING p, 47, 6⟩
def FLD_ETH_RXPROD (p : Nat) : Nat := 0x100009200018 + p * 0x100
def FLD_ETH_RXPROD_INDEX (p : Nat) : Fld := ⟨FLD_ETH_RXPROD p, 15, 0⟩
def FLD_ETH_RXCONS (p : Nat) : Nat := 0x10000920001c + p * 0x100
def FLD_ETH_RXCONS_INDEX (p : Nat) : Fld := ⟨FLD_ETH_RXCONS p, 15, 0⟩
def FLD_ETH_TXPROD (p : Nat) : Nat := 0x100009200020 + p * 0x100
def FLD_ETH_TXPROD_INDEX (p : Nat) : Fld := ⟨FLD_ETH_TXPROD p, 15, 0⟩
def FLD_ETH_TXCONS (p : Nat) : Nat := 0x100009200024 + p * 0x100
def FLD_ETH_TXCONS_INDEX (p : Nat) : Fld := ⟨FLD_ETH_TXCONS p, 15, 0⟩
def FLD_ETH_STAT (p : Nat) : Nat := 0x100009200028 + p * 0x100
def FLD_ETH_STAT_LINK (p : Nat) : Fld := ⟨FLD_ETH_STAT p, 0, 0⟩
def FLD_ETH_EVT (p : Nat) : Nat := 0x100009200030 + p * 0x100
def FLD_ETH_EVT_LINK (p : Nat) : Fld := ⟨FLD_ETH_EVT p, 3, 3⟩
def FLD_ETH_EVT_DROP (p : Nat) : Fld := ⟨FLD_ETH_EVT p, 2, 2⟩
def FLD_ETH_EVT_TXDONE (p : Nat) : Fld := ⟨FLD_ETH_EVT p, 1, 1⟩
def FLD_ETH_EVT_RX (p : Nat) : Fld := ⟨FLD_ETH_EVT p, 0, 0⟩
def FLD_ETH_EVT_EN (p : Nat) : Nat := 0x100009200034 + p * 0x100
def FLD_ETH_EVT_EN_MASK (p : Nat) : Fld := ⟨FLD_ETH_EVT_EN p, 3, 0⟩
def FLD_ETH_CNT (p : Nat) (i : Nat) : Nat := 0x100009200038 + p * 0x100 + i * 0x4
def FLD_ETH_CNT_VALUE (p : Nat) (i : Nat) : Fld := ⟨FLD_ETH_CNT p i, 31, 0⟩
def FLD_ETH_CNT_CLR (p : Nat) : Nat := 0x100009200044 + p * 0x100
def FLD_ETH_CNT_CLR_ALL (p : Nat) : Fld := ⟨FLD_ETH_CNT_CLR p, 0, 0⟩
def FLD_PCI_STAT : Nat := 0x100009300000
def FLD_PCI_STAT_GEN : Fld := ⟨FLD_PCI_STAT, 8, 6⟩
def FLD_PCI_STAT_WIDTH : Fld := ⟨FLD_PCI_STAT, 5, 2⟩
def FLD_PCI_STAT_BME : Fld := ⟨FLD_PCI_STAT, 1, 1⟩
def FLD_PCI_STAT_LINKUP : Fld := ⟨FLD_PCI_STAT, 0, 0⟩
def FLD_PCI_BAR2WIN : Nat := 0x100009300008
def FLD_PCI_BAR2WIN_BASE : Fld := ⟨FLD_PCI_BAR2WIN, 9, 0⟩
def FLD_PCI_VEC (v : Nat) : Nat := 0x100009300100 + v * 0x4
def FLD_PCI_VEC_EN (v : Nat) : Fld := ⟨FLD_PCI_VEC v, 31, 31⟩
def FLD_PCI_VEC_SRC (v : Nat) : Fld := ⟨FLD_PCI_VEC v, 9, 0⟩
def FLD_PCI_CNT (i : Nat) : Nat := 0x100009300200 + i * 0x4
def FLD_PCI_CNT_VALUE (i : Nat) : Fld := ⟨FLD_PCI_CNT i, 31, 0⟩
def FLD_PCI_EVT : Nat := 0x100009300210
def FLD_PCI_EVT_NOBME : Fld := ⟨FLD_PCI_EVT, 2, 2⟩
def FLD_PCI_EVT_CTO : Fld := ⟨FLD_PCI_EVT, 1, 1⟩
def FLD_PCI_EVT_LINKCHG : Fld := ⟨FLD_PCI_EVT, 0, 0⟩
def FLD_PCI_EVT_EN : Nat := 0x100009300214
def FLD_PCI_EVT_EN_MASK : Fld := ⟨FLD_PCI_EVT_EN, 2, 0⟩
def FLD_PCI_CNT_CLR : Nat := 0x100009300218
def FLD_PCI_CNT_CLR_ALL : Fld := ⟨FLD_PCI_CNT_CLR, 0, 0⟩

/-! Registers of CWY, R493 (spec/16_causeway_cascade.md). -/
def CWY_CTRL : Nat := 0x10000a000000
def CWY_CTRL_TOPO : Fld := ⟨CWY_CTRL, 5, 4⟩
def CWY_CTRL_MSTREQ : Fld := ⟨CWY_CTRL, 1, 1⟩
def CWY_CTRL_ENABLE : Fld := ⟨CWY_CTRL, 0, 0⟩
def CWY_STAT : Nat := 0x10000a000008
def CWY_STAT_TOPOERR : Fld := ⟨CWY_STAT, 13, 13⟩
def CWY_STAT_ROLEERR : Fld := ⟨CWY_STAT, 12, 12⟩
def CWY_STAT_STRAP : Fld := ⟨CWY_STAT, 11, 11⟩
def CWY_STAT_NMOD : Fld := ⟨CWY_STAT, 10, 7⟩
def CWY_STAT_MODNUM : Fld := ⟨CWY_STAT, 6, 4⟩
def CWY_STAT_MASTER : Fld := ⟨CWY_STAT, 3, 3⟩
def CWY_STAT_STATE : Fld := ⟨CWY_STAT, 2, 0⟩
def CWY_TIME_PER : Nat := 0x10000a000010
def CWY_TIME_PER_US : Fld := ⟨CWY_TIME_PER, 31, 0⟩
def CWY_LEAD : Nat := 0x10000a000014
def CWY_LEAD_US : Fld := ⟨CWY_LEAD, 31, 0⟩
def CWY_DOWNTMO : Nat := 0x10000a000018
def CWY_DOWNTMO_US : Fld := ⟨CWY_DOWNTMO, 31, 0⟩
def CWY_EVT : Nat := 0x10000a000020
def CWY_EVT_LINKCHG : Fld := ⟨CWY_EVT, 7, 4⟩
def CWY_EVT_TTERR : Fld := ⟨CWY_EVT, 3, 3⟩
def CWY_EVT_STEPLATE : Fld := ⟨CWY_EVT, 2, 2⟩
def CWY_EVT_MASTERLOST : Fld := ⟨CWY_EVT, 1, 1⟩
def CWY_EVT_STATE : Fld := ⟨CWY_EVT, 0, 0⟩
def CWY_EVT_EN : Nat := 0x10000a000024
def CWY_EVT_EN_MASK : Fld := ⟨CWY_EVT_EN, 7, 0⟩
def CWY_CNT_STEPLATE : Nat := 0x10000a000028
def CWY_CNT_STEPLATE_VALUE : Fld := ⟨CWY_CNT_STEPLATE, 31, 0⟩
def CWY_CNT_TTERR : Nat := 0x10000a00002c
def CWY_CNT_TTERR_VALUE : Fld := ⟨CWY_CNT_TTERR, 31, 0⟩
def CWY_CNT_CLR : Nat := 0x10000a000030
def CWY_CNT_CLR_ALL : Fld := ⟨CWY_CNT_CLR, 0, 0⟩
def CWY_L_STAT (k : Nat) : Nat := 0x10000a001000 + k * 0x100
def CWY_L_STAT_PEER (k : Nat) : Fld := ⟨CWY_L_STAT k, 6, 4⟩
def CWY_L_STAT_TRAINING (k : Nat) : Fld := ⟨CWY_L_STAT k, 1, 1⟩
def CWY_L_STAT_UP (k : Nat) : Fld := ⟨CWY_L_STAT k, 0, 0⟩
def CWY_L_CNT_CRC (k : Nat) : Nat := 0x10000a001008 + k * 0x100
def CWY_L_CNT_CRC_VALUE (k : Nat) : Fld := ⟨CWY_L_CNT_CRC k, 31, 0⟩
def CWY_L_CNT_REPLAY (k : Nat) : Nat := 0x10000a00100c + k * 0x100
def CWY_L_CNT_REPLAY_VALUE (k : Nat) : Fld := ⟨CWY_L_CNT_REPLAY k, 31, 0⟩
def CWY_L_CNT_RETRAIN (k : Nat) : Nat := 0x10000a001010 + k * 0x100
def CWY_L_CNT_RETRAIN_VALUE (k : Nat) : Fld := ⟨CWY_L_CNT_RETRAIN k, 31, 0⟩
def CWY_L_CNT_REISSUE (k : Nat) : Nat := 0x10000a001014 + k * 0x100
def CWY_L_CNT_REISSUE_VALUE (k : Nat) : Fld := ⟨CWY_L_CNT_REISSUE k, 31, 0⟩
def CWY_L_CNT_REPLAYT (k : Nat) : Nat := 0x10000a001018 + k * 0x100
def CWY_L_CNT_REPLAYT_VALUE (k : Nat) : Fld := ⟨CWY_L_CNT_REPLAYT k, 63, 0⟩

/-! Registers of SEC, R539 (spec/18_security_boot_and_power.md). -/
def SEC_LC : Nat := 0x10000b000000
def SEC_LC_DAMAGED : Fld := ⟨SEC_LC, 11, 8⟩
def SEC_LC_CODE : Fld := ⟨SEC_LC, 2, 0⟩
def SEC_REVOKE : Nat := 0x10000b000008
def SEC_REVOKE_MASK : Fld := ⟨SEC_REVOKE, 7, 0⟩
def SEC_ROLLBACK : Nat := 0x10000b000010
def SEC_ROLLBACK_COUNT : Fld := ⟨SEC_ROLLBACK, 6, 0⟩
def SEC_DBGLOCK : Nat := 0x10000b000018
def SEC_DBGLOCK_MASK : Fld := ⟨SEC_DBGLOCK, 7, 0⟩
def SEC_PERT : Nat := 0x10000b00001c
def SEC_PERT_OK : Fld := ⟨SEC_PERT, 2, 2⟩
def SEC_PERT_MODE : Fld := ⟨SEC_PERT, 1, 0⟩
def SEC_STAT : Nat := 0x10000b000020
def SEC_STAT_NOIDENT : Fld := ⟨SEC_STAT, 1, 1⟩
def SEC_STAT_PROT : Fld := ⟨SEC_STAT, 0, 0⟩
def SEC_CHAL : Nat := 0x10000b000028
def SEC_CHAL_VALUE : Fld := ⟨SEC_CHAL, 63, 0⟩
def SEC_BOOT : Nat := 0x10000b000030
def SEC_BOOT_VERSION : Fld := ⟨SEC_BOOT, 63, 32⟩
def SEC_BOOT_SVN : Fld := ⟨SEC_BOOT, 31, 24⟩
def SEC_BOOT_SLOT : Fld := ⟨SEC_BOOT, 16, 16⟩
def SEC_BOOT_CAUSEB : Fld := ⟨SEC_BOOT, 15, 8⟩
def SEC_BOOT_CAUSEA : Fld := ⟨SEC_BOOT, 7, 0⟩
def SEC_PROTWIN (w : Nat) : Nat := 0x10000b000040 + w * 0x8
def SEC_PROTWIN_VALUE (w : Nat) : Fld := ⟨SEC_PROTWIN w, 63, 0⟩
def SEC_KH_RSA (s : Nat) (j : Nat) : Nat := 0x10000b000100 + s * 0x40 + j * 0x8
def SEC_KH_RSA_VALUE (s : Nat) (j : Nat) : Fld := ⟨SEC_KH_RSA s j, 63, 0⟩
def SEC_KH_SLH (s : Nat) (j : Nat) : Nat := 0x10000b000200 + s * 0x40 + j * 0x8
def SEC_KH_SLH_VALUE (s : Nat) (j : Nat) : Fld := ⟨SEC_KH_SLH s j, 63, 0⟩
def SEC_PCR (p : Nat) (j : Nat) : Nat := 0x10000b000400 + p * 0x40 + j * 0x8
def SEC_PCR_VALUE (p : Nat) (j : Nat) : Fld := ⟨SEC_PCR p j, 63, 0⟩
def SEC_CMD : Nat := 0x10000b000600
def SEC_CMD_ARM : Fld := ⟨SEC_CMD, 31, 24⟩
def SEC_CMD_VAL : Fld := ⟨SEC_CMD, 22, 16⟩
def SEC_CMD_KIND : Fld := ⟨SEC_CMD, 11, 11⟩
def SEC_CMD_IDX : Fld := ⟨SEC_CMD, 10, 8⟩
def SEC_CMD_OP : Fld := ⟨SEC_CMD, 7, 0⟩
def SEC_CMD_SRC : Nat := 0x10000b000608
def SEC_CMD_SRC_ADDR : Fld := ⟨SEC_CMD_SRC, 47, 6⟩
def SEC_CMD_DST : Nat := 0x10000b000610
def SEC_CMD_DST_ADDR : Fld := ⟨SEC_CMD_DST, 47, 6⟩
def SEC_CMD_STAT : Nat := 0x10000b000618
def SEC_CMD_STAT_RESULT : Fld := ⟨SEC_CMD_STAT, 15, 8⟩
def SEC_CMD_STAT_BUSY : Fld := ⟨SEC_CMD_STAT, 0, 0⟩
def SEC_EVT : Nat := 0x10000b000620
def SEC_EVT_FAIL : Fld := ⟨SEC_EVT, 1, 1⟩
def SEC_EVT_DONE : Fld := ⟨SEC_EVT, 0, 0⟩
def SEC_EVT_EN : Nat := 0x10000b000624
def SEC_EVT_EN_MASK : Fld := ⟨SEC_EVT_EN, 1, 0⟩

/-! Registers of PWR, R540 (spec/18_security_boot_and_power.md). -/
def PWR_CTRL : Nat := 0x10000c000000
def PWR_CTRL_DORM : Fld := ⟨PWR_CTRL, 0, 0⟩
def PWR_STAT : Nat := 0x10000c000008
def PWR_STAT_LASTOFF : Fld := ⟨PWR_STAT, 23, 20⟩
def PWR_STAT_REFUSE : Fld := ⟨PWR_STAT, 19, 16⟩
def PWR_STAT_THROT : Fld := ⟨PWR_STAT, 9, 9⟩
def PWR_STAT_BOW : Fld := ⟨PWR_STAT, 8, 8⟩
def PWR_STAT_LEVEL : Fld := ⟨PWR_STAT, 5, 4⟩
def PWR_STAT_STATE : Fld := ⟨PWR_STAT, 2, 0⟩
def PWR_CAP : Nat := 0x10000c000010
def PWR_CAP_W : Fld := ⟨PWR_CAP, 8, 0⟩
def PWR_EFFCAP : Nat := 0x10000c000014
def PWR_EFFCAP_VALUE : Fld := ⟨PWR_EFFCAP, 31, 0⟩
def PWR_VIN : Nat := 0x10000c000018
def PWR_VIN_VALUE : Fld := ⟨PWR_VIN, 31, 0⟩
def PWR_PMOD : Nat := 0x10000c00001c
def PWR_PMOD_VALUE : Fld := ⟨PWR_PMOD, 31, 0⟩
def PWR_TCP : Nat := 0x10000c000020
def PWR_TCP_VALUE : Fld := ⟨PWR_TCP, 15, 0⟩
def PWR_WAKE : Nat := 0x10000c000028
def PWR_WAKE_CMP : Fld := ⟨PWR_WAKE, 12, 8⟩
def PWR_WAKE_CMPEN : Fld := ⟨PWR_WAKE, 2, 2⟩
def PWR_WAKE_ECSEN : Fld := ⟨PWR_WAKE, 1, 1⟩
def PWR_WAKE_PINEN : Fld := ⟨PWR_WAKE, 0, 0⟩
def PWR_APPVEC : Nat := 0x10000c000030
def PWR_APPVEC_ADDR : Fld := ⟨PWR_APPVEC, 47, 2⟩
def PWR_EVT : Nat := 0x10000c000038
def PWR_EVT_LEVEL : Fld := ⟨PWR_EVT, 3, 3⟩
def PWR_EVT_BOW : Fld := ⟨PWR_EVT, 2, 2⟩
def PWR_EVT_REFUSED : Fld := ⟨PWR_EVT, 1, 1⟩
def PWR_EVT_WAKE : Fld := ⟨PWR_EVT, 0, 0⟩
def PWR_EVT_EN : Nat := 0x10000c00003c
def PWR_EVT_EN_MASK : Fld := ⟨PWR_EVT_EN, 3, 0⟩
def PWR_CNT_HOLD : Nat := 0x10000c000040
def PWR_CNT_HOLD_VALUE : Fld := ⟨PWR_CNT_HOLD, 31, 0⟩
def PWR_CNT_THROT : Nat := 0x10000c000044
def PWR_CNT_THROT_VALUE : Fld := ⟨PWR_CNT_THROT, 31, 0⟩
def PWR_CNT_DORM : Nat := 0x10000c000048
def PWR_CNT_DORM_VALUE : Fld := ⟨PWR_CNT_DORM, 31, 0⟩
def PWR_CNT_CLR : Nat := 0x10000c00004c
def PWR_CNT_CLR_ALL : Fld := ⟨PWR_CNT_CLR, 0, 0⟩

/-! Registers of DGN, R557 (spec/19_errors_recovery_and_test.md). -/
def DGN_EPOCH : Nat := 0x10000f000000
def DGN_EPOCH_VALUE : Fld := ⟨DGN_EPOCH, 31, 0⟩
def DGN_EPOCH_CAUSE : Nat := 0x10000f000004
def DGN_EPOCH_CAUSE_MASK : Fld := ⟨DGN_EPOCH_CAUSE, 6, 0⟩
def DGN_EPOCH_BUMP : Nat := 0x10000f000008
def DGN_EPOCH_BUMP_GO : Fld := ⟨DGN_EPOCH_BUMP, 0, 0⟩
def DGN_EVT : Nat := 0x10000f000010
def DGN_EVT_MERGE : Fld := ⟨DGN_EVT, 3, 3⟩
def DGN_EVT_TELDROP : Fld := ⟨DGN_EVT, 2, 2⟩
def DGN_EVT_EPOCH : Fld := ⟨DGN_EVT, 1, 1⟩
def DGN_EVT_VIO : Fld := ⟨DGN_EVT, 0, 0⟩
def DGN_EVT_EN : Nat := 0x10000f000014
def DGN_EVT_EN_MASK : Fld := ⟨DGN_EVT_EN, 3, 0⟩
def DGN_CNT_MERGE : Nat := 0x10000f000018
def DGN_CNT_MERGE_VALUE : Fld := ⟨DGN_CNT_MERGE, 31, 0⟩
def DGN_VIO_CNT (c : Nat) : Nat := 0x10000f000100 + c * 0x4
def DGN_VIO_CNT_VALUE (c : Nat) : Fld := ⟨DGN_VIO_CNT c, 31, 0⟩
def DGN_VIO_TOTAL : Nat := 0x10000f00011c
def DGN_VIO_TOTAL_VALUE : Fld := ⟨DGN_VIO_TOTAL, 31, 0⟩
def DGN_VIO_LAST : Nat := 0x10000f000120
def DGN_VIO_LAST_VALID : Fld := ⟨DGN_VIO_LAST, 63, 63⟩
def DGN_VIO_LAST_CTX : Fld := ⟨DGN_VIO_LAST, 61, 56⟩
def DGN_VIO_LAST_INIT : Fld := ⟨DGN_VIO_LAST, 54, 52⟩
def DGN_VIO_LAST_WRITE : Fld := ⟨DGN_VIO_LAST, 51, 51⟩
def DGN_VIO_LAST_CAUSE : Fld := ⟨DGN_VIO_LAST, 50, 48⟩
def DGN_VIO_LAST_ADDR : Fld := ⟨DGN_VIO_LAST, 47, 0⟩
def DGN_CNT_CLR : Nat := 0x10000f000128
def DGN_CNT_CLR_ALL : Fld := ⟨DGN_CNT_CLR, 0, 0⟩
def DGN_TEL_CTL : Nat := 0x10000f000200
def DGN_TEL_CTL_CFGERR : Fld := ⟨DGN_TEL_CTL, 2, 2⟩
def DGN_TEL_CTL_ENABLE : Fld := ⟨DGN_TEL_CTL, 0, 0⟩
def DGN_TEL_RING : Nat := 0x10000f000208
def DGN_TEL_RING_LOG2 : Fld := ⟨DGN_TEL_RING, 60, 56⟩
def DGN_TEL_RING_ADDR : Fld := ⟨DGN_TEL_RING, 47, 6⟩
def DGN_TEL_SEQ : Nat := 0x10000f000210
def DGN_TEL_SEQ_VALUE : Fld := ⟨DGN_TEL_SEQ, 31, 0⟩
def DGN_TEL_CNT_DROP : Nat := 0x10000f000214
def DGN_TEL_CNT_DROP_VALUE : Fld := ⟨DGN_TEL_CNT_DROP, 31, 0⟩
def DGN_PERT_CTL : Nat := 0x10000f000300
def DGN_PERT_CTL_EN : Fld := ⟨DGN_PERT_CTL, 3, 0⟩
def DGN_PERT_XING : Nat := 0x10000f000308
def DGN_PERT_XING_SEED : Fld := ⟨DGN_PERT_XING, 63, 32⟩
def DGN_PERT_XING_RATE : Fld := ⟨DGN_PERT_XING, 31, 24⟩
def DGN_PERT_XING_DELAY : Fld := ⟨DGN_PERT_XING, 23, 16⟩
def DGN_PERT_XING_ISLAND : Fld := ⟨DGN_PERT_XING, 8, 0⟩
def DGN_PERT_BWK : Nat := 0x10000f000310
def DGN_PERT_BWK_SEED : Fld := ⟨DGN_PERT_BWK, 63, 32⟩
def DGN_PERT_BWK_RATE : Fld := ⟨DGN_PERT_BWK, 31, 24⟩
def DGN_PERT_BWK_STALL : Fld := ⟨DGN_PERT_BWK, 23, 16⟩
def DGN_PERT_BWK_NODE : Fld := ⟨DGN_PERT_BWK, 15, 0⟩
def DGN_PERT_MEM : Nat := 0x10000f000318
def DGN_PERT_MEM_SEED : Fld := ⟨DGN_PERT_MEM, 63, 32⟩
def DGN_PERT_MEM_RATE : Fld := ⟨DGN_PERT_MEM, 31, 24⟩
def DGN_PERT_MEM_EXTRA : Fld := ⟨DGN_PERT_MEM, 23, 12⟩
def DGN_PERT_MEM_CTRLR : Fld := ⟨DGN_PERT_MEM, 3, 0⟩
def DGN_PERT_CWY : Nat := 0x10000f000320
def DGN_PERT_CWY_SEED : Fld := ⟨DGN_PERT_CWY, 63, 32⟩
def DGN_PERT_CWY_RATE : Fld := ⟨DGN_PERT_CWY, 31, 16⟩
def DGN_PERT_CWY_BURST : Fld := ⟨DGN_PERT_CWY, 15, 8⟩
def DGN_PERT_CWY_LINK : Fld := ⟨DGN_PERT_CWY, 3, 0⟩
def DGN_PERT_CNT (i : Nat) : Nat := 0x10000f000340 + i * 0x4
def DGN_PERT_CNT_VALUE (i : Nat) : Fld := ⟨DGN_PERT_CNT i, 31, 0⟩

def rowsSYS0 : List RegDesc := [
  ⟨"SYS_IDENT", 0x100000000000, [], 64, 0x0, [⟨63, 48, .ro⟩, ⟨47, 32, .ro⟩, ⟨31, 24, .ro⟩, ⟨23, 16, .ro⟩, ⟨15, 8, .ro⟩, ⟨7, 0, .ro⟩], none, none⟩,
  ⟨"SYS_CORE_MAP", 0x100000000008, [], 32, 0x0, [⟨15, 8, .ro⟩, ⟨7, 0, .ro⟩], none, none⟩,
  ⟨"SYS_ISLAND_STAT", 0x100000000010, [], 32, 0x20000, [⟨17, 17, .ro⟩, ⟨16, 16, .ro⟩, ⟨15, 15, .ro⟩, ⟨14, 14, .ro⟩, ⟨13, 13, .ro⟩, ⟨12, 12, .ro⟩, ⟨11, 11, .ro⟩, ⟨10, 10, .ro⟩, ⟨9, 9, .ro⟩, ⟨8, 8, .ro⟩, ⟨7, 0, .ro⟩], none, none⟩]

/-- Descriptors of block SYS. -/
def tableSYS : List RegDesc := rowsSYS0

def rowsTC0 : List RegDesc := [
  ⟨"TC_CTRL", 0x100001000000, [(8, 0x100000)], 32, 0x0, [⟨0, 0, .live⟩], none, none⟩,
  ⟨"TC_STAT", 0x100001000008, [(8, 0x100000)], 32, 0x0, [⟨18, 18, .ro⟩, ⟨17, 16, .ro⟩, ⟨12, 8, .ro⟩, ⟨1, 1, .ro⟩, ⟨0, 0, .ro⟩], none, none⟩,
  ⟨"TC_CTX", 0x100001000010, [(8, 0x100000)], 32, 0x0, [⟨6, 6, .ro⟩, ⟨5, 0, .ro⟩], none, none⟩,
  ⟨"TC_SEQ", 0x100001000018, [(8, 0x100000)], 32, 0x0, [⟨31, 16, .ro⟩, ⟨15, 0, .ro⟩], none, none⟩,
  ⟨"TC_FAULT", 0x100001000020, [(8, 0x100000)], 64, 0x0, [⟨37, 32, .ro⟩, ⟨31, 16, .ro⟩, ⟨15, 8, .ro⟩, ⟨7, 0, .ro⟩], none, none⟩,
  ⟨"TC_EVT", 0x100001000028, [(8, 0x100000)], 32, 0x0, [⟨3, 3, .w1c⟩, ⟨2, 2, .w1c⟩, ⟨1, 1, .w1c⟩, ⟨0, 0, .w1c⟩], none, none⟩,
  ⟨"TC_EVT_EN", 0x10000100002c, [(8, 0x100000)], 32, 0x0, [⟨3, 0, .live⟩], none, none⟩,
  ⟨"TC_CNT_CYC", 0x100001000030, [(8, 0x100000)], 64, 0x0, [⟨63, 0, .ro⟩], none, none⟩,
  ⟨"TC_CNT_TAIL", 0x100001000038, [(8, 0x100000)], 64, 0x0, [⟨63, 0, .ro⟩], none, none⟩,
  ⟨"TC_CNT_HEAD", 0x100001000040, [(8, 0x100000)], 64, 0x0, [⟨63, 0, .ro⟩], none, none⟩,
  ⟨"TC_CNT_SHADOW", 0x100001000048, [(8, 0x100000)], 64, 0x0, [⟨63, 0, .ro⟩], none, none⟩,
  ⟨"TC_CNT_BUDGET", 0x100001000050, [(8, 0x100000)], 32, 0x0, [⟨31, 0, .ro⟩], none, none⟩,
  ⟨"TC_CNT_KILL", 0x100001000054, [(8, 0x100000)], 32, 0x0, [⟨31, 0, .ro⟩], none, none⟩,
  ⟨"TC_CNT_FAULT", 0x100001000058, [(8, 0x100000)], 32, 0x0, [⟨31, 0, .ro⟩], none, none⟩,
  ⟨"TC_CNT_CLR", 0x100001000060, [(8, 0x100000)], 32, 0x0, [⟨0, 0, .wo⟩], none, none⟩,
  ⟨"TC_WRGN_CFG", 0x100001001000, [(8, 0x100000), (16, 0x10)], 32, 0x0, [⟨31, 31, .static⟩, ⟨24, 16, .static⟩, ⟨8, 0, .static⟩], some (0x100001000000, 0x100000, 0), none⟩,
  ⟨"TC_WRGN_PTR", 0x100001001008, [(8, 0x100000), (16, 0x10)], 64, 0x0, [⟨48, 32, .static⟩, ⟨16, 0, .static⟩], some (0x100001000000, 0x100000, 0), none⟩,
  ⟨"TC_ARGN_CFG", 0x100001001100, [(8, 0x100000), (16, 0x10)], 32, 0x0, [⟨31, 31, .static⟩, ⟨24, 16, .static⟩, ⟨8, 0, .static⟩], some (0x100001000000, 0x100000, 0), none⟩,
  ⟨"TC_ARGN_PTR", 0x100001001108, [(8, 0x100000), (16, 0x10)], 64, 0x0, [⟨48, 32, .static⟩, ⟨16, 0, .static⟩], some (0x100001000000, 0x100000, 0), none⟩,
  ⟨"TC_PRGN_CFG", 0x100001001200, [(8, 0x100000), (16, 0x10)], 32, 0x0, [⟨31, 31, .static⟩, ⟨24, 16, .static⟩, ⟨8, 0, .static⟩], some (0x100001000000, 0x100000, 0), none⟩,
  ⟨"TC_PRGN_PTR", 0x100001001208, [(8, 0x100000), (16, 0x10)], 64, 0x0, [⟨48, 32, .static⟩, ⟨16, 0, .static⟩], some (0x100001000000, 0x100000, 0), none⟩]

/-- Descriptors of block TC. -/
def tableTC : List RegDesc := rowsTC0

def rowsMEM0 : List RegDesc := [
  ⟨"MEM_DDR_CTRL", 0x100002000000, [], 32, 0x6, [⟨2, 2, .static⟩, ⟨1, 1, .static⟩, ⟨0, 0, .live⟩], some (0x100002000000, 0x0, 0), none⟩,
  ⟨"MEM_DDR_STAT", 0x100002000008, [], 32, 0x0, [⟨23, 16, .ro⟩, ⟨1, 1, .ro⟩, ⟨0, 0, .ro⟩], none, none⟩,
  ⟨"MEM_PROT", 0x100002000010, [(8, 0x4)], 32, 0x0, [⟨31, 31, .static⟩, ⟨14, 8, .static⟩, ⟨5, 0, .static⟩], some (0x100002000000, 0x0, 0), none⟩,
  ⟨"MEM_SCRUB_CFG", 0x100002000050, [], 32, 0x10, [⟨31, 31, .live⟩, ⟨15, 0, .live⟩], none, none⟩,
  ⟨"MEM_SCRUB_STAT", 0x100002000058, [], 64, 0x0, [⟨63, 32, .ro⟩, ⟨19, 0, .ro⟩], none, none⟩,
  ⟨"MEM_ECC_CEL", 0x100002000060, [], 32, 0x0, [⟨31, 0, .ro⟩], none, none⟩,
  ⟨"MEM_ECC_CEI", 0x100002000064, [], 32, 0x0, [⟨31, 0, .ro⟩], none, none⟩,
  ⟨"MEM_ECC_UE", 0x100002000068, [], 32, 0x0, [⟨31, 0, .ro⟩], none, none⟩,
  ⟨"MEM_ECC_ODE", 0x10000200006c, [], 32, 0x0, [⟨31, 0, .ro⟩], none, none⟩,
  ⟨"MEM_ERR_LOG", 0x100002000070, [], 64, 0x0, [⟨50, 48, .ro⟩, ⟨46, 44, .ro⟩, ⟨42, 42, .ro⟩, ⟨41, 36, .ro⟩, ⟨35, 0, .ro⟩], none, none⟩,
  ⟨"MEM_EVT", 0x100002000078, [], 32, 0x0, [⟨3, 3, .w1c⟩, ⟨2, 2, .w1c⟩, ⟨1, 1, .w1c⟩, ⟨0, 0, .w1c⟩], none, none⟩,
  ⟨"MEM_EVT_EN", 0x10000200007c, [], 32, 0x0, [⟨3, 0, .live⟩], none, none⟩,
  ⟨"MEM_PLT_CTRL", 0x100002100000, [], 32, 0x0, [⟨2, 2, .ro⟩, ⟨1, 1, .ro⟩, ⟨0, 0, .live⟩], none, none⟩,
  ⟨"MEM_PLT_TBL", 0x100002100008, [], 64, 0x0, [⟨35, 16, .static⟩], some (0x100002100000, 0x0, 0), none⟩,
  ⟨"MEM_PLT_DIR", 0x100002100010, [], 64, 0x0, [⟨35, 16, .static⟩], some (0x100002100000, 0x0, 0), none⟩,
  ⟨"MEM_PLT_COUNT", 0x100002100018, [], 32, 0x0, [⟨20, 0, .static⟩], some (0x100002100000, 0x0, 0), none⟩,
  ⟨"MEM_PLQ_BASE", 0x100002100020, [], 64, 0x0, [⟨47, 6, .static⟩], some (0x100002100000, 0x0, 0), none⟩,
  ⟨"MEM_PLQ_SIZE", 0x100002100028, [], 32, 0x6, [⟨31, 12, .static⟩, ⟨8, 8, .static⟩, ⟨4, 0, .static⟩], some (0x100002100000, 0x0, 0), none⟩,
  ⟨"MEM_PLQ_PROD", 0x100002100030, [], 32, 0x0, [⟨15, 0, .live⟩], none, none⟩,
  ⟨"MEM_PLQ_CONS", 0x100002100034, [], 32, 0x0, [⟨15, 0, .ro⟩], none, none⟩,
  ⟨"MEM_PLT_LIVE", 0x100002100038, [], 32, 0x0, [⟨31, 0, .ro⟩], none, none⟩,
  ⟨"MEM_PLT_MIGR", 0x10000210003c, [], 32, 0x0, [⟨31, 0, .ro⟩], none, none⟩,
  ⟨"MEM_PLT_EVT", 0x100002100040, [], 32, 0x0, [⟨3, 3, .w1c⟩, ⟨2, 2, .w1c⟩, ⟨1, 1, .w1c⟩, ⟨0, 0, .w1c⟩], none, none⟩,
  ⟨"MEM_PLT_EVT_EN", 0x100002100044, [], 32, 0x0, [⟨3, 0, .live⟩], none, none⟩]

def rowsMEM1 : List RegDesc := [
  ⟨"MEM_PLT_CNT_UNCREAD", 0x100002100048, [], 32, 0x0, [⟨31, 0, .ro⟩], none, none⟩,
  ⟨"MEM_PLT_CNT_CANCEL", 0x10000210004c, [], 32, 0x0, [⟨31, 0, .ro⟩], none, none⟩,
  ⟨"MEM_PLT_CNT_DEFER", 0x100002100050, [], 32, 0x0, [⟨31, 0, .ro⟩], none, none⟩,
  ⟨"MEM_PLT_CNT_REFUSED", 0x100002100054, [], 32, 0x0, [⟨31, 0, .ro⟩], none, none⟩,
  ⟨"MEM_PLT_CNT_LKMISS", 0x100002100058, [], 64, 0x0, [⟨63, 0, .ro⟩], none, none⟩,
  ⟨"MEM_TMV_CNT_TILES", 0x100002200000, [], 64, 0x0, [⟨63, 0, .ro⟩], none, none⟩,
  ⟨"MEM_TMV_CNT_MIGTILES", 0x100002200008, [], 64, 0x0, [⟨63, 0, .ro⟩], none, none⟩,
  ⟨"MEM_TMV_CNT_WAITCOPY", 0x100002200010, [], 64, 0x0, [⟨63, 0, .ro⟩], none, none⟩,
  ⟨"MEM_TMV_CNT_CLR", 0x100002200018, [], 32, 0x0, [⟨0, 0, .wo⟩], none, none⟩]

/-- Descriptors of block MEM. -/
def tableMEM : List RegDesc := rowsMEM0 ++ rowsMEM1

def rowsSCH0 : List RegDesc := [
  ⟨"SCH_CTRL", 0x100003000000, [], 32, 0x8, [⟨3, 3, .ro⟩, ⟨2, 2, .ro⟩, ⟨1, 1, .ro⟩, ⟨0, 0, .live⟩], none, none⟩,
  ⟨"SCH_TT_BASE", 0x100003000008, [], 64, 0x0, [⟨47, 4, .shadowed⟩], some (0x100003000000, 0x0, 0), some .tt⟩,
  ⟨"SCH_TT_FRAME", 0x100003000010, [], 32, 0x10003e8, [⟨26, 20, .shadowed⟩, ⟨19, 0, .shadowed⟩], some (0x100003000000, 0x0, 0), some .tt⟩,
  ⟨"SCH_TT_PHASE", 0x100003000014, [], 32, 0x0, [⟨31, 0, .shadowed⟩], some (0x100003000000, 0x0, 0), some .tt⟩,
  ⟨"SCH_TT_COMMIT", 0x100003000018, [], 32, 0x0, [⟨0, 0, .live⟩], none, none⟩,
  ⟨"SCH_NOW", 0x100003000020, [], 64, 0x0, [⟨63, 8, .ro⟩, ⟨7, 6, .ro⟩, ⟨5, 0, .ro⟩], none, none⟩,
  ⟨"SCH_HART_CTX", 0x100003000028, [], 64, 0x0, [⟨6, 0, .live⟩, ⟨14, 8, .live⟩, ⟨22, 16, .live⟩, ⟨30, 24, .live⟩, ⟨38, 32, .live⟩, ⟨46, 40, .live⟩, ⟨54, 48, .live⟩, ⟨62, 56, .live⟩], none, none⟩,
  ⟨"SCH_PCI_CTX", 0x100003000030, [], 32, 0x0, [⟨6, 6, .live⟩, ⟨5, 0, .live⟩], none, none⟩,
  ⟨"SCH_EVT", 0x100003000038, [], 32, 0x0, [⟨6, 6, .w1c⟩, ⟨5, 5, .w1c⟩, ⟨4, 4, .w1c⟩, ⟨3, 3, .w1c⟩, ⟨2, 2, .w1c⟩, ⟨1, 1, .w1c⟩, ⟨0, 0, .w1c⟩], none, none⟩,
  ⟨"SCH_EVT_EN", 0x10000300003c, [], 32, 0x0, [⟨6, 0, .live⟩], none, none⟩,
  ⟨"SCH_CNT_PREEMPT", 0x100003000040, [], 32, 0x0, [⟨31, 0, .ro⟩], none, none⟩,
  ⟨"SCH_CNT_SPILLT", 0x100003000044, [], 32, 0x0, [⟨31, 0, .ro⟩], none, none⟩,
  ⟨"SCH_CNT_RESTART", 0x100003000048, [], 32, 0x0, [⟨31, 0, .ro⟩], none, none⟩,
  ⟨"SCH_CNT_STALE", 0x10000300004c, [], 32, 0x0, [⟨31, 0, .ro⟩], none, none⟩,
  ⟨"SCH_CNT_TEARDOWN", 0x100003000050, [], 32, 0x0, [⟨31, 0, .ro⟩], none, none⟩,
  ⟨"SCH_CNT_TTERR", 0x100003000054, [], 32, 0x0, [⟨31, 0, .ro⟩], none, none⟩,
  ⟨"SCH_CNT_REFSTALL", 0x100003000058, [], 64, 0x0, [⟨63, 0, .ro⟩], none, none⟩,
  ⟨"SCH_CNT_MAINTSTALL", 0x100003000060, [], 64, 0x0, [⟨63, 0, .ro⟩], none, none⟩,
  ⟨"SCH_CNT_CLR", 0x100003000068, [], 32, 0x0, [⟨0, 0, .wo⟩], none, none⟩,
  ⟨"SCH_CTX_CTL", 0x100003100000, [(64, 0x100)], 32, 0xff00, [⟨15, 8, .static⟩, ⟨6, 4, .static⟩, ⟨1, 1, .w1c⟩, ⟨0, 0, .live⟩], some (0x100003100000, 0x100, 0), none⟩,
  ⟨"SCH_CTX_SLIST", 0x100003100008, [(64, 0x100)], 64, 0x0, [⟨60, 56, .static⟩, ⟨47, 6, .static⟩], some (0x100003100000, 0x100, 0), none⟩,
  ⟨"SCH_CTX_SPROD", 0x100003100010, [(64, 0x100)], 32, 0x0, [⟨15, 0, .live⟩], none, none⟩,
  ⟨"SCH_CTX_SCONS", 0x100003100014, [(64, 0x100)], 32, 0x0, [⟨15, 0, .ro⟩], none, none⟩,
  ⟨"SCH_CTX_SRING", 0x100003100018, [(64, 0x100)], 64, 0x0, [⟨60, 56, .static⟩, ⟨47, 4, .static⟩], some (0x100003100000, 0x100, 0), none⟩]

def rowsSCH1 : List RegDesc := [
  ⟨"SCH_CTX_RPROD", 0x100003100020, [(64, 0x100)], 32, 0x0, [⟨15, 0, .ro⟩], none, none⟩,
  ⟨"SCH_CTX_RCONS", 0x100003100024, [(64, 0x100)], 32, 0x0, [⟨15, 0, .live⟩], none, none⟩,
  ⟨"SCH_CTX_SPILL", 0x100003100028, [(64, 0x100)], 64, 0x0, [⟨47, 16, .static⟩], some (0x100003100000, 0x100, 0), none⟩,
  ⟨"SCH_CTX_SPILLSZ", 0x100003100030, [(64, 0x100)], 32, 0x0, [⟨31, 0, .static⟩], some (0x100003100000, 0x100, 0), none⟩,
  ⟨"SCH_CTX_WIN", 0x100003100038, [(64, 0x100)], 64, 0x0, [⟨56, 32, .static⟩, ⟨23, 0, .static⟩], some (0x100003100000, 0x100, 0), none⟩,
  ⟨"SCH_CTX_STAT", 0x100003100040, [(64, 0x100)], 32, 0x0, [⟨28, 28, .ro⟩, ⟨27, 16, .ro⟩, ⟨15, 8, .ro⟩, ⟨3, 0, .ro⟩], none, none⟩,
  ⟨"SCH_CTX_FAULT", 0x100003100048, [(64, 0x100)], 64, 0x0, [⟨63, 48, .ro⟩, ⟨47, 32, .ro⟩, ⟨23, 16, .ro⟩, ⟨10, 8, .ro⟩, ⟨7, 0, .ro⟩], none, none⟩,
  ⟨"SCH_CTX_CNT_STEPS", 0x100003100050, [(64, 0x100)], 32, 0x0, [⟨31, 0, .ro⟩], none, none⟩,
  ⟨"SCH_CTX_CNT_PREEMPT", 0x100003100054, [(64, 0x100)], 32, 0x0, [⟨31, 0, .ro⟩], none, none⟩,
  ⟨"SCH_CTX_CNT_LOST", 0x100003100058, [(64, 0x100)], 32, 0x0, [⟨31, 0, .ro⟩], none, none⟩,
  ⟨"SCH_KVP_CTL", 0x100003400000, [(8, 0x100)], 32, 0x0, [⟨13, 8, .static⟩, ⟨2, 2, .static⟩, ⟨1, 1, .ro⟩, ⟨0, 0, .live⟩], some (0x100003400000, 0x100, 0), none⟩,
  ⟨"SCH_KVP_BASE", 0x100003400008, [(8, 0x100)], 64, 0x0, [⟨47, 16, .static⟩], some (0x100003400000, 0x100, 0), none⟩,
  ⟨"SCH_KVP_GEOM", 0x100003400010, [(8, 0x100)], 32, 0x0, [⟨31, 24, .static⟩, ⟨20, 0, .static⟩], some (0x100003400000, 0x100, 0), none⟩,
  ⟨"SCH_KVP_FSTK", 0x100003400018, [(8, 0x100)], 64, 0x0, [⟨47, 16, .static⟩], some (0x100003400000, 0x100, 0), none⟩,
  ⟨"SCH_KVP_HBASE", 0x100003400020, [(8, 0x100)], 64, 0x0, [⟨47, 16, .static⟩], some (0x100003400000, 0x100, 0), none⟩,
  ⟨"SCH_KVP_HSTK", 0x100003400028, [(8, 0x100)], 64, 0x0, [⟨47, 16, .static⟩], some (0x100003400000, 0x100, 0), none⟩,
  ⟨"SCH_KVP_HSLOTS", 0x100003400030, [(8, 0x100)], 32, 0x0, [⟨20, 0, .static⟩], some (0x100003400000, 0x100, 0), none⟩,
  ⟨"SCH_KVP_FREE", 0x100003400034, [(8, 0x100)], 32, 0x0, [⟨20, 0, .ro⟩], none, none⟩,
  ⟨"SCH_KVP_ADMIT", 0x100003400038, [(8, 0x100)], 64, 0x0, [⟨47, 6, .wo⟩], none, none⟩,
  ⟨"SCH_KVP_RETIRE", 0x100003400040, [(8, 0x100)], 64, 0x0, [⟨47, 6, .wo⟩], none, none⟩,
  ⟨"SCH_KVP_LASTVIC", 0x100003400048, [(8, 0x100)], 64, 0x0, [⟨47, 0, .ro⟩], none, none⟩,
  ⟨"SCH_KVP_EVT", 0x100003400050, [(8, 0x100)], 32, 0x0, [⟨6, 6, .w1c⟩, ⟨5, 5, .w1c⟩, ⟨4, 4, .w1c⟩, ⟨3, 3, .w1c⟩, ⟨2, 2, .w1c⟩, ⟨1, 1, .w1c⟩, ⟨0, 0, .w1c⟩], none, none⟩,
  ⟨"SCH_KVP_EVT_EN", 0x100003400054, [(8, 0x100)], 32, 0x0, [⟨6, 0, .live⟩], none, none⟩,
  ⟨"SCH_KVP_NEXTADM", 0x100003400058, [(8, 0x100)], 32, 0x0, [⟨31, 0, .ro⟩], none, none⟩]

def rowsSCH2 : List RegDesc := [
  ⟨"SCH_KVP_LIVE", 0x10000340005c, [(8, 0x100)], 32, 0x0, [⟨31, 0, .ro⟩], none, none⟩,
  ⟨"SCH_KVP_CNT_DROP", 0x100003400060, [(8, 0x100)], 32, 0x0, [⟨31, 0, .ro⟩], none, none⟩,
  ⟨"SCH_KVP_CNT_SWOUT", 0x100003400064, [(8, 0x100)], 32, 0x0, [⟨31, 0, .ro⟩], none, none⟩,
  ⟨"SCH_KVP_CNT_SWIN", 0x100003400068, [(8, 0x100)], 32, 0x0, [⟨31, 0, .ro⟩], none, none⟩,
  ⟨"SCH_KVP_CNT_SKIP", 0x10000340006c, [(8, 0x100)], 32, 0x0, [⟨31, 0, .ro⟩], none, none⟩,
  ⟨"SCH_KVP_CNT_HOLE", 0x100003400070, [(8, 0x100)], 32, 0x0, [⟨31, 0, .ro⟩], none, none⟩,
  ⟨"SCH_KVP_CNT_BADREQ", 0x100003400074, [(8, 0x100)], 32, 0x0, [⟨31, 0, .ro⟩], none, none⟩,
  ⟨"SCH_KVP_CNT_WAIT", 0x100003400078, [(8, 0x100)], 64, 0x0, [⟨63, 0, .ro⟩], none, none⟩]

/-- Descriptors of block SCH. -/
def tableSCH : List RegDesc := rowsSCH0 ++ rowsSCH1 ++ rowsSCH2

def rowsTIM0 : List RegDesc := [
  ⟨"TIM_CTRL", 0x100004000000, [], 32, 0x0, [⟨10, 8, .ro⟩, ⟨7, 7, .ro⟩, ⟨6, 6, .ro⟩, ⟨5, 5, .ro⟩, ⟨4, 4, .ro⟩, ⟨0, 0, .live⟩], none, none⟩,
  ⟨"TIM_NOW_LO", 0x100004000008, [], 64, 0x0, [⟨47, 32, .ro⟩, ⟨29, 0, .ro⟩], none, none⟩,
  ⟨"TIM_NOW_HI", 0x100004000010, [], 64, 0x0, [⟨47, 0, .ro⟩], none, none⟩,
  ⟨"TIM_NOW_WRAP", 0x100004000018, [], 32, 0x0, [⟨31, 0, .ro⟩], none, none⟩,
  ⟨"TIM_STEP_LO", 0x100004000020, [], 64, 0x0, [⟨47, 32, .live⟩, ⟨29, 0, .live⟩], none, none⟩,
  ⟨"TIM_STEP_HI", 0x100004000028, [], 64, 0x0, [⟨47, 0, .live⟩], none, none⟩,
  ⟨"TIM_STEP_CTL", 0x100004000030, [], 32, 0x0, [⟨8, 8, .ro⟩, ⟨2, 2, .live⟩, ⟨1, 1, .live⟩, ⟨0, 0, .wo⟩], none, none⟩,
  ⟨"TIM_SRC_CFG", 0x100004000040, [], 32, 0x400000, [⟨23, 16, .static⟩, ⟨10, 8, .static⟩, ⟨2, 0, .static⟩], some (0x100004000000, 0x0, 0), none⟩,
  ⟨"TIM_SRC_EPOCHOFS", 0x100004000044, [], 32, 0x386d4380, [⟨31, 0, .static⟩], some (0x100004000000, 0x0, 0), none⟩,
  ⟨"TIM_SRC_FWOFS", 0x100004000048, [], 64, 0x0, [⟨50, 48, .wo⟩, ⟨47, 0, .wo⟩], none, none⟩,
  ⟨"TIM_SRV_KP", 0x100004000050, [], 32, 0xe0001, [⟨21, 16, .shadowed⟩, ⟨15, 0, .shadowed⟩], some (0x100004000000, 0x0, 0), some .srv⟩,
  ⟨"TIM_SRV_KI", 0x100004000054, [], 32, 0x120001, [⟨21, 16, .shadowed⟩, ⟨15, 0, .shadowed⟩], some (0x100004000000, 0x0, 0), some .srv⟩,
  ⟨"TIM_SRV_LIMIT", 0x100004000058, [], 32, 0xd1b71, [⟨19, 0, .shadowed⟩], some (0x100004000000, 0x0, 0), some .srv⟩,
  ⟨"TIM_SRV_LOCK", 0x10000400005c, [], 32, 0x8000640, [⟨27, 24, .shadowed⟩, ⟨19, 0, .shadowed⟩], some (0x100004000000, 0x0, 0), some .srv⟩,
  ⟨"TIM_SRV_COMMIT", 0x100004000060, [], 32, 0x0, [⟨0, 0, .live⟩], none, none⟩,
  ⟨"TIM_SRV_OFS", 0x100004000068, [], 64, 0x0, [⟨47, 0, .ro⟩], none, none⟩,
  ⟨"TIM_SRV_ADJ", 0x100004000070, [], 32, 0x0, [⟨31, 0, .ro⟩], none, none⟩,
  ⟨"TIM_SRV_INTEG", 0x100004000074, [], 32, 0x0, [⟨31, 0, .ro⟩], none, none⟩,
  ⟨"TIM_EVT", 0x100004000078, [], 32, 0x0, [⟨7, 7, .w1c⟩, ⟨6, 6, .w1c⟩, ⟨5, 5, .w1c⟩, ⟨4, 4, .w1c⟩, ⟨3, 3, .w1c⟩, ⟨2, 2, .w1c⟩, ⟨1, 1, .w1c⟩, ⟨0, 0, .w1c⟩], none, none⟩,
  ⟨"TIM_EVT_EN", 0x10000400007c, [], 32, 0x0, [⟨7, 0, .live⟩], none, none⟩,
  ⟨"TIM_CNT_STEP", 0x100004000080, [], 32, 0x0, [⟨31, 0, .ro⟩], none, none⟩,
  ⟨"TIM_CNT_SAMPLE", 0x100004000084, [], 32, 0x0, [⟨31, 0, .ro⟩], none, none⟩,
  ⟨"TIM_CNT_REJECT", 0x100004000088, [], 32, 0x0, [⟨31, 0, .ro⟩], none, none⟩,
  ⟨"TIM_CNT_CLAMP", 0x10000400008c, [], 32, 0x0, [⟨31, 0, .ro⟩], none, none⟩]

def rowsTIM1 : List RegDesc := [
  ⟨"TIM_CMP_EVT", 0x100004000090, [], 32, 0x0, [⟨31, 0, .w1c⟩], none, none⟩,
  ⟨"TIM_CMP_EVT_EN", 0x100004000094, [], 32, 0x0, [⟨31, 0, .live⟩], none, none⟩,
  ⟨"TIM_CNT_CLR", 0x100004000098, [], 32, 0x0, [⟨0, 0, .wo⟩], none, none⟩,
  ⟨"TIM_CMP_CTL", 0x100004001000, [(32, 0x40)], 32, 0x640000, [⟨31, 16, .shadowed⟩, ⟨15, 15, .shadowed⟩, ⟨14, 8, .shadowed⟩, ⟨5, 5, .shadowed⟩, ⟨3, 3, .shadowed⟩, ⟨1, 1, .live⟩, ⟨0, 0, .live⟩], some (0x100004001000, 0x40, 0), some .cmp⟩,
  ⟨"TIM_CMP_TGT_LO", 0x100004001008, [(32, 0x40)], 64, 0x0, [⟨47, 32, .shadowed⟩, ⟨29, 0, .shadowed⟩], some (0x100004001000, 0x40, 0), some .cmp⟩,
  ⟨"TIM_CMP_TGT_HI", 0x100004001010, [(32, 0x40)], 64, 0x0, [⟨47, 0, .shadowed⟩], some (0x100004001000, 0x40, 0), some .cmp⟩,
  ⟨"TIM_CMP_PER", 0x100004001018, [(32, 0x40)], 64, 0x0, [⟨47, 16, .shadowed⟩, ⟨15, 0, .shadowed⟩], some (0x100004001000, 0x40, 0), some .cmp⟩,
  ⟨"TIM_CMP_STAT", 0x100004001020, [(32, 0x40)], 32, 0x0, [⟨31, 16, .ro⟩, ⟨2, 2, .ro⟩, ⟨1, 1, .ro⟩], none, none⟩,
  ⟨"TIM_CMP_NEXT_LO", 0x100004001028, [(32, 0x40)], 64, 0x0, [⟨47, 32, .ro⟩, ⟨29, 0, .ro⟩], none, none⟩,
  ⟨"TIM_CMP_NEXT_HI", 0x100004001030, [(32, 0x40)], 64, 0x0, [⟨47, 0, .ro⟩], none, none⟩]

/-- Descriptors of block TIM. -/
def tableTIM : List RegDesc := rowsTIM0 ++ rowsTIM1

def rowsSNS0 : List RegDesc := [
  ⟨"SNS_CTRL", 0x100005000000, [], 32, 0x0, [⟨0, 0, .live⟩], none, none⟩,
  ⟨"SNS_LINK", 0x100005000008, [], 32, 0x0, [⟨15, 12, .ro⟩, ⟨11, 0, .ro⟩], none, none⟩,
  ⟨"SNS_CSI_CFG", 0x100005000100, [(12, 0x8)], 32, 0x4, [⟨3, 3, .static⟩, ⟨2, 0, .static⟩], some (0x100005000000, 0x0, 0), none⟩,
  ⟨"SNS_IMU_CFG", 0x100005000200, [(4, 0x8)], 64, 0x0, [⟨63, 32, .static⟩, ⟨20, 14, .static⟩, ⟨13, 11, .static⟩, ⟨10, 10, .static⟩, ⟨9, 2, .static⟩, ⟨1, 0, .static⟩], some (0x100005000000, 0x0, 0), none⟩,
  ⟨"SNS_CNT_CRC", 0x100005000300, [], 32, 0x0, [⟨31, 0, .ro⟩], none, none⟩,
  ⟨"SNS_CNT_ECC", 0x100005000304, [], 32, 0x0, [⟨31, 0, .ro⟩], none, none⟩,
  ⟨"SNS_CNT_NOMATCH", 0x100005000308, [], 32, 0x0, [⟨31, 0, .ro⟩], none, none⟩,
  ⟨"SNS_CNT_CLR", 0x10000500030c, [], 32, 0x0, [⟨0, 0, .wo⟩], none, none⟩,
  ⟨"SNS_CH_PROD", 0x100005001000, [(64, 0x20)], 32, 0x0, [⟨15, 0, .live⟩], none, none⟩,
  ⟨"SNS_CH_CONS", 0x100005001004, [(64, 0x20)], 32, 0x0, [⟨15, 0, .live⟩], none, none⟩,
  ⟨"SNS_CH_CNT_DROP", 0x100005001008, [(64, 0x20)], 32, 0x0, [⟨31, 0, .ro⟩], none, none⟩,
  ⟨"SNS_CH_CNT_ERR", 0x10000500100c, [(64, 0x20)], 32, 0x0, [⟨31, 0, .ro⟩], none, none⟩,
  ⟨"FUS_CTRL", 0x100005800000, [], 32, 0x0, [⟨2, 2, .ro⟩, ⟨1, 1, .ro⟩, ⟨0, 0, .live⟩], none, none⟩,
  ⟨"FUS_CHTAB", 0x100005800008, [], 64, 0x0, [⟨47, 6, .shadowed⟩], some (0x100005800000, 0x0, 0), some .fus⟩,
  ⟨"FUS_SLOTTAB", 0x100005800010, [], 64, 0x0, [⟨47, 6, .shadowed⟩], some (0x100005800000, 0x0, 0), some .fus⟩,
  ⟨"FUS_EXTAB", 0x100005800018, [], 64, 0x0, [⟨47, 6, .shadowed⟩], some (0x100005800000, 0x0, 0), some .fus⟩,
  ⟨"FUS_OUT", 0x100005800020, [], 64, 0xf4240, [⟨63, 32, .shadowed⟩, ⟨31, 0, .shadowed⟩], some (0x100005800000, 0x0, 0), some .fus⟩,
  ⟨"FUS_CUT", 0x100005800028, [], 32, 0x271000c8, [⟨31, 16, .shadowed⟩, ⟨15, 0, .shadowed⟩], some (0x100005800000, 0x0, 0), some .fus⟩,
  ⟨"FUS_GRID", 0x100005800030, [], 64, 0x0, [⟨47, 16, .shadowed⟩, ⟨15, 8, .shadowed⟩, ⟨6, 0, .shadowed⟩], some (0x100005800000, 0x0, 0), some .fus⟩,
  ⟨"FUS_GRID_GEOM", 0x100005800038, [], 64, 0x0, [⟨63, 32, .shadowed⟩, ⟨31, 0, .shadowed⟩], some (0x100005800000, 0x0, 0), some .fus⟩,
  ⟨"FUS_GRID_Z", 0x100005800040, [], 64, 0x0, [⟨63, 32, .shadowed⟩, ⟨31, 0, .shadowed⟩], some (0x100005800000, 0x0, 0), some .fus⟩,
  ⟨"FUS_COMMIT", 0x100005800048, [], 32, 0x0, [⟨0, 0, .live⟩], none, none⟩,
  ⟨"FUS_CH_VALID", 0x100005800050, [], 64, 0x0, [⟨63, 0, .ro⟩], none, none⟩,
  ⟨"FUS_CH_DESYNC", 0x100005800058, [], 64, 0x0, [⟨63, 0, .ro⟩], none, none⟩]

def rowsSNS1 : List RegDesc := [
  ⟨"FUS_GRID_GEN", 0x100005800060, [], 32, 0x0, [⟨31, 0, .ro⟩], none, none⟩,
  ⟨"FUS_GRID_CUR", 0x100005800064, [], 32, 0x0, [⟨0, 0, .ro⟩], none, none⟩,
  ⟨"FUS_EVT", 0x100005800068, [], 32, 0x0, [⟨3, 3, .w1c⟩, ⟨2, 2, .w1c⟩, ⟨1, 1, .w1c⟩, ⟨0, 0, .w1c⟩], none, none⟩,
  ⟨"FUS_EVT_EN", 0x10000580006c, [], 32, 0x0, [⟨3, 0, .live⟩], none, none⟩,
  ⟨"FUS_CNT", 0x100005800070, [(8, 0x4)], 32, 0x0, [⟨31, 0, .ro⟩], none, none⟩,
  ⟨"FUS_CNT_CLR", 0x100005800090, [], 32, 0x0, [⟨0, 0, .wo⟩], none, none⟩]

/-- Descriptors of block SNS. -/
def tableSNS : List RegDesc := rowsSNS0 ++ rowsSNS1

def rowsSLV0 : List RegDesc := [
  ⟨"SLV_CTRL", 0x100006000000, [], 32, 0x0, [⟨2, 2, .ro⟩, ⟨1, 1, .ro⟩, ⟨0, 0, .live⟩], none, none⟩,
  ⟨"SLV_BQ_BASE", 0x100006000008, [], 64, 0x0, [⟨60, 56, .static⟩, ⟨47, 6, .static⟩], some (0x100006000000, 0x0, 0), none⟩,
  ⟨"SLV_BQ_PROD", 0x100006000010, [], 32, 0x0, [⟨15, 0, .live⟩], none, none⟩,
  ⟨"SLV_BQ_CONS", 0x100006000014, [], 32, 0x0, [⟨15, 0, .ro⟩], none, none⟩,
  ⟨"SLV_STAT", 0x100006000018, [], 32, 0x0, [⟨17, 17, .ro⟩, ⟨16, 16, .ro⟩, ⟨15, 0, .ro⟩], none, none⟩,
  ⟨"SLV_EVT", 0x100006000020, [], 32, 0x0, [⟨3, 3, .w1c⟩, ⟨2, 2, .w1c⟩, ⟨1, 1, .w1c⟩, ⟨0, 0, .w1c⟩], none, none⟩,
  ⟨"SLV_EVT_EN", 0x100006000024, [], 32, 0x0, [⟨3, 0, .live⟩], none, none⟩,
  ⟨"SLV_CNT_BATCH", 0x100006000028, [], 32, 0x0, [⟨31, 0, .ro⟩], none, none⟩,
  ⟨"SLV_CNT_PROB", 0x10000600002c, [], 32, 0x0, [⟨31, 0, .ro⟩], none, none⟩,
  ⟨"SLV_CNT_REG", 0x100006000030, [], 32, 0x0, [⟨31, 0, .ro⟩], none, none⟩,
  ⟨"SLV_CNT_OVF", 0x100006000034, [], 32, 0x0, [⟨31, 0, .ro⟩], none, none⟩,
  ⟨"SLV_CNT_WREJ", 0x100006000038, [], 32, 0x0, [⟨31, 0, .ro⟩], none, none⟩,
  ⟨"SLV_CNT_INVALID", 0x10000600003c, [], 32, 0x0, [⟨31, 0, .ro⟩], none, none⟩,
  ⟨"SLV_CNT_EGOBUSY", 0x100006000040, [], 32, 0x0, [⟨31, 0, .ro⟩], none, none⟩,
  ⟨"SLV_CNT_STALL", 0x100006000048, [], 64, 0x0, [⟨63, 0, .ro⟩], none, none⟩,
  ⟨"SLV_CNT_CLR", 0x100006000050, [], 32, 0x0, [⟨0, 0, .wo⟩], none, none⟩]

/-- Descriptors of block SLV. -/
def tableSLV : List RegDesc := rowsSLV0

def rowsTRL0 : List RegDesc := [
  ⟨"TRL_CTRL", 0x100007000000, [], 32, 0x0, [⟨4, 4, .ro⟩, ⟨3, 3, .ro⟩, ⟨2, 2, .ro⟩, ⟨1, 1, .ro⟩, ⟨0, 0, .live⟩], none, none⟩,
  ⟨"TRL_BANK_BASE", 0x100007000008, [(4, 0x8)], 64, 0x0, [⟨47, 16, .static⟩], some (0x100007000000, 0x0, 0), none⟩,
  ⟨"TRL_BANK", 0x100007000030, [], 32, 0x0, [⟨1, 0, .shadowed⟩], some (0x100007000000, 0x0, 0), some .trl⟩,
  ⟨"TRL_COMMIT", 0x100007000034, [], 32, 0x0, [⟨0, 0, .live⟩], none, none⟩,
  ⟨"TRL_OCC_CFG", 0x100007000038, [], 64, 0x3c0000202040, [⟨47, 32, .shadowed⟩, ⟨21, 21, .shadowed⟩, ⟨20, 13, .shadowed⟩, ⟨12, 6, .shadowed⟩, ⟨5, 0, .shadowed⟩], some (0x100007000000, 0x0, 0), some .trl⟩,
  ⟨"TRL_RQ_BASE", 0x100007000040, [], 64, 0x0, [⟨60, 56, .static⟩, ⟨47, 6, .static⟩], some (0x100007000000, 0x0, 0), none⟩,
  ⟨"TRL_RQ_PROD", 0x100007000048, [], 32, 0x0, [⟨15, 0, .live⟩], none, none⟩,
  ⟨"TRL_RQ_CONS", 0x10000700004c, [], 32, 0x0, [⟨15, 0, .ro⟩], none, none⟩,
  ⟨"TRL_MARGIN", 0x100007000050, [], 32, 0x2710, [⟨31, 0, .live⟩], none, none⟩,
  ⟨"TRL_MAXAGE", 0x100007000054, [], 32, 0xc350, [⟨31, 0, .live⟩], none, none⟩,
  ⟨"TRL_STAT", 0x100007000058, [], 32, 0x0, [⟨4, 4, .ro⟩, ⟨3, 3, .ro⟩, ⟨2, 2, .ro⟩, ⟨1, 0, .ro⟩], none, none⟩,
  ⟨"TRL_OGEN", 0x10000700005c, [], 32, 0x0, [⟨31, 0, .ro⟩], none, none⟩,
  ⟨"TRL_EVT", 0x100007000060, [], 32, 0x0, [⟨6, 6, .w1c⟩, ⟨5, 5, .w1c⟩, ⟨4, 4, .w1c⟩, ⟨3, 3, .w1c⟩, ⟨2, 2, .w1c⟩, ⟨1, 1, .w1c⟩, ⟨0, 0, .w1c⟩], none, none⟩,
  ⟨"TRL_EVT_EN", 0x100007000064, [], 32, 0x0, [⟨6, 0, .live⟩], none, none⟩,
  ⟨"TRL_CNT", 0x100007000068, [(11, 0x4)], 32, 0x0, [⟨31, 0, .ro⟩], none, none⟩,
  ⟨"TRL_CNT_BCAST", 0x100007000098, [], 64, 0x0, [⟨63, 0, .ro⟩], none, none⟩,
  ⟨"TRL_CNT_CONFSTALL", 0x1000070000a0, [], 64, 0x0, [⟨63, 0, .ro⟩], none, none⟩,
  ⟨"TRL_CNT_EXPAND", 0x1000070000a8, [], 64, 0x0, [⟨63, 0, .ro⟩], none, none⟩,
  ⟨"TRL_CNT_CLR", 0x1000070000b0, [], 32, 0x0, [⟨0, 0, .wo⟩], none, none⟩]

/-- Descriptors of block TRL. -/
def tableTRL : List RegDesc := rowsTRL0

def rowsBLV0 : List RegDesc := [
  ⟨"BLV_ICU_CTRL", 0x100008000000, [], 32, 0x1, [⟨0, 0, .live⟩], none, none⟩,
  ⟨"BLV_ICU_PEND", 0x100008000100, [(32, 0x4)], 32, 0x0, [⟨31, 0, .ro⟩], none, none⟩,
  ⟨"BLV_ICU_SWI", 0x100008000200, [], 32, 0x0, [⟨9, 0, .wo⟩], none, none⟩,
  ⟨"BLV_ICU_SRC", 0x100008001000, [(1024, 0x4)], 32, 0x0, [⟨31, 31, .ro⟩, ⟨30, 30, .ro⟩, ⟨11, 11, .static⟩, ⟨10, 10, .live⟩, ⟨7, 4, .live⟩, ⟨3, 0, .static⟩], some (0x100008000000, 0x0, 0), none⟩,
  ⟨"BLV_ICU_T_THR", 0x100008002000, [(12, 0x40)], 32, 0x0, [⟨4, 0, .live⟩], none, none⟩,
  ⟨"BLV_ICU_T_CLAIM", 0x100008002004, [(12, 0x40)], 32, 0x0, [⟨9, 0, .ro⟩], none, none⟩,
  ⟨"BLV_ICU_T_COMPLETE", 0x100008002008, [(12, 0x40)], 32, 0x0, [⟨9, 0, .wo⟩], none, none⟩,
  ⟨"BLV_ICU_T_TOP", 0x10000800200c, [(12, 0x40)], 32, 0x0, [⟨25, 16, .ro⟩, ⟨11, 8, .ro⟩, ⟨4, 0, .ro⟩], none, none⟩,
  ⟨"BLV_ICU_T_FAULT", 0x100008002010, [(12, 0x40)], 64, 0x0, [⟨63, 63, .w1c⟩, ⟨47, 32, .ro⟩, ⟨25, 16, .ro⟩, ⟨9, 0, .ro⟩], none, none⟩,
  ⟨"BLV_ICU_T_RESET", 0x100008002018, [(12, 0x40)], 32, 0x0, [⟨0, 0, .wo⟩], none, none⟩,
  ⟨"BLV_CLE_CTRL", 0x100008100000, [], 32, 0x0, [⟨0, 0, .live⟩], none, none⟩,
  ⟨"BLV_CLE_RPT", 0x100008100008, [], 64, 0x0, [⟨47, 12, .static⟩], some (0x100008100000, 0x0, 0), none⟩,
  ⟨"BLV_CLE_EVT", 0x100008100010, [], 32, 0x0, [⟨2, 2, .w1c⟩, ⟨1, 1, .w1c⟩, ⟨0, 0, .w1c⟩], none, none⟩,
  ⟨"BLV_CLE_EVT_EN", 0x100008100014, [], 32, 0x0, [⟨3, 0, .live⟩], none, none⟩,
  ⟨"BLV_CLE_GRP_EVT", 0x100008100018, [], 32, 0x0, [⟨7, 0, .w1c⟩], none, none⟩,
  ⟨"BLV_CLE_GRP_EVT_EN", 0x10000810001c, [], 32, 0x0, [⟨7, 0, .live⟩], none, none⟩,
  ⟨"BLV_CLE_GRP_STAT", 0x100008100020, [(8, 0x8)], 64, 0x0, [⟨63, 32, .ro⟩, ⟨31, 16, .ro⟩, ⟨6, 0, .ro⟩], none, none⟩,
  ⟨"BLV_CLE_PLAUS", 0x100008100060, [], 64, 0x0, [⟨63, 0, .ro⟩], none, none⟩,
  ⟨"BLV_CLE_CNT_PLAUS", 0x100008100068, [], 32, 0x0, [⟨31, 0, .ro⟩], none, none⟩,
  ⟨"BLV_CLE_CNT_NANS", 0x10000810006c, [], 32, 0x0, [⟨31, 0, .ro⟩], none, none⟩,
  ⟨"BLV_CLE_CNT_RPTERR", 0x100008100070, [], 32, 0x0, [⟨31, 0, .ro⟩], none, none⟩,
  ⟨"BLV_CLE_CNT_CLR", 0x100008100074, [], 32, 0x0, [⟨0, 0, .wo⟩], none, none⟩,
  ⟨"BLV_CLE_L_CTL", 0x100008101000, [(64, 0x100)], 32, 0x1000000, [⟨31, 24, .static⟩, ⟨17, 16, .static⟩, ⟨13, 12, .static⟩, ⟨9, 9, .static⟩, ⟨8, 8, .static⟩, ⟨6, 4, .static⟩, ⟨1, 1, .ro⟩, ⟨0, 0, .live⟩], some (0x100008101000, 0x100, 0), none⟩,
  ⟨"BLV_CLE_L_SRC", 0x100008101008, [(64, 0x100)], 64, 0x0, [⟨59, 48, .static⟩, ⟨43, 32, .static⟩, ⟨27, 16, .static⟩, ⟨11, 0, .static⟩], some (0x100008101000, 0x100, 0), none⟩]

def rowsBLV1 : List RegDesc := [
  ⟨"BLV_CLE_L_ODEST", 0x100008101010, [(64, 0x100)], 32, 0x0, [⟨15, 8, .static⟩, ⟨0, 0, .static⟩], some (0x100008101000, 0x100, 0), none⟩,
  ⟨"BLV_CLE_L_RIN", 0x100008101018, [(64, 0x100)], 32, 0x0, [⟨31, 0, .live⟩], none, none⟩,
  ⟨"BLV_CLE_L_YIN", 0x10000810101c, [(64, 0x100)], 32, 0x0, [⟨31, 0, .live⟩], none, none⟩,
  ⟨"BLV_CLE_L_FFIN", 0x100008101020, [(64, 0x100)], 32, 0x0, [⟨31, 0, .live⟩], none, none⟩,
  ⟨"BLV_CLE_L_STAT", 0x100008101028, [(64, 0x100)], 32, 0x0, [⟨15, 8, .ro⟩, ⟨7, 7, .w1c⟩, ⟨6, 6, .w1c⟩, ⟨5, 5, .w1c⟩, ⟨4, 4, .ro⟩, ⟨3, 3, .ro⟩, ⟨0, 0, .w1c⟩], none, none⟩,
  ⟨"BLV_CLE_L_OUT", 0x100008101030, [(64, 0x100)], 32, 0x0, [⟨31, 0, .ro⟩], none, none⟩,
  ⟨"BLV_CLE_L_INTEG", 0x100008101034, [(64, 0x100)], 32, 0x0, [⟨31, 0, .ro⟩], none, none⟩,
  ⟨"BLV_CLE_L_DERIV", 0x100008101038, [(64, 0x100)], 32, 0x0, [⟨31, 0, .ro⟩], none, none⟩,
  ⟨"BLV_CLE_L_BK", 0x100008101040, [(64, 0x100), (2, 0x40), (16, 0x4)], 32, 0x0, [⟨31, 0, .live⟩], none, none⟩,
  ⟨"RFX_CTRL", 0x100008200000, [], 32, 0x0, [⟨4, 4, .ro⟩, ⟨2, 2, .ro⟩, ⟨1, 1, .ro⟩, ⟨0, 0, .live⟩], none, none⟩,
  ⟨"RFX_BIND", 0x100008200008, [(8, 0x4)], 32, 0x0, [⟨15, 15, .shadowed⟩, ⟨12, 8, .shadowed⟩, ⟨3, 0, .shadowed⟩], some (0x100008200000, 0x0, 0), some .rfx⟩,
  ⟨"RFX_COMMIT", 0x100008200028, [], 32, 0x0, [⟨0, 0, .live⟩], none, none⟩,
  ⟨"RFX_DUAL_EN", 0x100008200030, [], 64, 0x0, [⟨63, 0, .live⟩], none, none⟩,
  ⟨"RFX_DUAL_MIS", 0x100008200038, [], 64, 0x0, [⟨63, 0, .w1c⟩], none, none⟩,
  ⟨"RFX_EVT", 0x100008200040, [], 32, 0x0, [⟨5, 5, .w1c⟩, ⟨4, 4, .w1c⟩, ⟨3, 3, .w1c⟩, ⟨2, 2, .w1c⟩, ⟨1, 1, .w1c⟩, ⟨0, 0, .w1c⟩], none, none⟩,
  ⟨"RFX_EVT_EN", 0x100008200044, [], 32, 0x0, [⟨6, 0, .live⟩], none, none⟩,
  ⟨"RFX_PROGV", 0x100008200048, [], 32, 0x0, [⟨15, 0, .ro⟩], none, none⟩,
  ⟨"RFX_CNT_EVAL", 0x100008200050, [], 64, 0x0, [⟨63, 0, .ro⟩], none, none⟩,
  ⟨"RFX_CNT_ABSENT", 0x100008200058, [], 32, 0x0, [⟨31, 0, .ro⟩], none, none⟩,
  ⟨"RFX_CNT_BUSY", 0x10000820005c, [], 32, 0x0, [⟨31, 0, .ro⟩], none, none⟩,
  ⟨"RFX_CNT_ECC", 0x100008200060, [], 32, 0x0, [⟨31, 0, .ro⟩], none, none⟩,
  ⟨"RFX_CNT_DUALMIS", 0x100008200064, [], 32, 0x0, [⟨31, 0, .ro⟩], none, none⟩,
  ⟨"RFX_CNT_CLR", 0x100008200068, [], 32, 0x0, [⟨0, 0, .wo⟩], none, none⟩,
  ⟨"RFX_GRP_STAT", 0x100008200100, [(8, 0x8)], 64, 0x0, [⟨63, 32, .ro⟩, ⟨23, 16, .ro⟩, ⟨8, 8, .ro⟩, ⟨5, 0, .ro⟩], none, none⟩]

def rowsBLV2 : List RegDesc := [
  ⟨"RFX_RES", 0x100008201000, [(8, 0x100), (64, 0x4)], 32, 0x0, [⟨31, 0, .ro⟩], none, none⟩,
  ⟨"SLC_CTRL", 0x100008300000, [], 32, 0x0, [⟨2, 2, .ro⟩, ⟨1, 1, .ro⟩, ⟨0, 0, .live⟩], none, none⟩,
  ⟨"SLC_RQ_BASE", 0x100008300008, [], 64, 0x0, [⟨60, 56, .static⟩, ⟨47, 6, .static⟩], some (0x100008300000, 0x0, 0), none⟩,
  ⟨"SLC_RQ_PROD", 0x100008300010, [], 32, 0x0, [⟨15, 0, .live⟩], none, none⟩,
  ⟨"SLC_RQ_CONS", 0x100008300014, [], 32, 0x0, [⟨15, 0, .ro⟩], none, none⟩,
  ⟨"SLC_FILLTMO", 0x100008300018, [], 32, 0x2710, [⟨31, 0, .live⟩], none, none⟩,
  ⟨"SLC_EVT", 0x100008300020, [], 32, 0x0, [⟨4, 4, .w1c⟩, ⟨3, 3, .w1c⟩, ⟨2, 2, .w1c⟩, ⟨1, 1, .w1c⟩, ⟨0, 0, .w1c⟩], none, none⟩,
  ⟨"SLC_EVT_EN", 0x100008300024, [], 32, 0x0, [⟨4, 0, .live⟩], none, none⟩,
  ⟨"SLC_CNT_SWAP", 0x100008300028, [], 32, 0x0, [⟨31, 0, .ro⟩], none, none⟩,
  ⟨"SLC_CNT_LATE", 0x10000830002c, [], 32, 0x0, [⟨31, 0, .ro⟩], none, none⟩,
  ⟨"SLC_CNT_REJECT", 0x100008300030, [], 32, 0x0, [⟨31, 0, .ro⟩], none, none⟩,
  ⟨"SLC_CNT_STALE", 0x100008300034, [], 32, 0x0, [⟨31, 0, .ro⟩], none, none⟩,
  ⟨"SLC_CNT_CLR", 0x100008300038, [], 32, 0x0, [⟨0, 0, .wo⟩], none, none⟩,
  ⟨"SLC_ACTBANK", 0x100008300040, [], 64, 0x0, [⟨63, 0, .ro⟩], none, none⟩,
  ⟨"SLC_L_STAT", 0x100008300100, [(9, 0x40)], 32, 0x0, [⟨31, 16, .ro⟩, ⟨11, 11, .ro⟩, ⟨10, 8, .ro⟩, ⟨3, 3, .ro⟩, ⟨2, 0, .ro⟩], none, none⟩,
  ⟨"SLC_L_AMASK", 0x100008300108, [(9, 0x40)], 64, 0x0, [⟨63, 0, .live⟩], none, none⟩,
  ⟨"SLC_L_ARM", 0x100008300110, [(9, 0x40)], 32, 0x0, [⟨6, 4, .live⟩, ⟨0, 0, .wo⟩], none, none⟩,
  ⟨"SLC_L_STALE", 0x100008300114, [(9, 0x40)], 32, 0x0, [⟨31, 0, .live⟩], none, none⟩,
  ⟨"SLC_L_GEN", 0x100008300118, [(9, 0x40)], 32, 0x0, [⟨31, 0, .ro⟩], none, none⟩,
  ⟨"SLC_L_LAST", 0x100008300120, [(9, 0x40)], 64, 0x0, [⟨63, 32, .ro⟩, ⟨29, 0, .ro⟩], none, none⟩,
  ⟨"BLV_HART_CTL", 0x100008400000, [(4, 0x40)], 32, 0x0, [⟨31, 16, .static⟩, ⟨0, 0, .live⟩], some (0x100008400000, 0x40, 0), none⟩,
  ⟨"BLV_HART_RVEC", 0x100008400008, [(4, 0x40)], 64, 0x0, [⟨17, 2, .static⟩], some (0x100008400000, 0x40, 0), none⟩,
  ⟨"BLV_HART_KICK", 0x100008400010, [(4, 0x40)], 32, 0x0, [⟨0, 0, .wo⟩], none, none⟩,
  ⟨"BLV_HART_STAT", 0x100008400014, [(4, 0x40)], 32, 0x0, [⟨15, 8, .ro⟩, ⟨0, 0, .ro⟩], none, none⟩]

def rowsBLV3 : List RegDesc := [
  ⟨"BLV_SRAM_CE", 0x100008400200, [], 32, 0x0, [⟨31, 0, .ro⟩], none, none⟩,
  ⟨"BLV_SRAM_UE", 0x100008400204, [], 32, 0x0, [⟨31, 0, .ro⟩], none, none⟩,
  ⟨"BLV_TIO_IN", 0x100008500000, [], 32, 0x0, [⟨31, 0, .ro⟩], none, none⟩,
  ⟨"BLV_TIO_OUT", 0x100008500008, [], 32, 0x0, [⟨31, 0, .live⟩], none, none⟩,
  ⟨"BLV_TIO_CFG", 0x100008500100, [(32, 0x20)], 32, 0x0, [⟨3, 3, .w1c⟩, ⟨2, 1, .live⟩, ⟨0, 0, .live⟩], none, none⟩,
  ⟨"BLV_TIO_TSLO", 0x100008500108, [(32, 0x20)], 64, 0x0, [⟨47, 32, .ro⟩, ⟨29, 0, .ro⟩], none, none⟩,
  ⟨"BLV_TIO_TSHI", 0x100008500110, [(32, 0x20)], 64, 0x0, [⟨47, 0, .ro⟩], none, none⟩,
  ⟨"BLV_HRC_CTRL", 0x100008600000, [(2, 0x100)], 32, 0x1, [⟨0, 0, .live⟩], none, none⟩,
  ⟨"BLV_HRC_STAT", 0x100008600008, [(2, 0x100)], 32, 0x0, [⟨0, 0, .ro⟩], none, none⟩,
  ⟨"BLV_HRC_CE", 0x100008600010, [(2, 0x100)], 32, 0x0, [⟨31, 0, .ro⟩], none, none⟩,
  ⟨"BLV_HRC_UE", 0x100008600014, [(2, 0x100)], 32, 0x0, [⟨31, 0, .ro⟩], none, none⟩,
  ⟨"BLV_HRC_ERR_LOG", 0x100008600018, [(2, 0x100)], 64, 0x0, [⟨58, 56, .ro⟩, ⟨49, 48, .ro⟩, ⟨25, 0, .ro⟩], none, none⟩,
  ⟨"BLV_HRC_SCRUB", 0x100008600020, [(2, 0x100)], 32, 0x0, [⟨31, 16, .ro⟩, ⟨15, 0, .ro⟩], none, none⟩]

/-- Descriptors of block BLV. -/
def tableBLV : List RegDesc := rowsBLV0 ++ rowsBLV1 ++ rowsBLV2 ++ rowsBLV3

def rowsFLD0 : List RegDesc := [
  ⟨"FLD_ECS_CTRL", 0x100009000000, [], 32, 0x0, [⟨0, 0, .live⟩], none, none⟩,
  ⟨"FLD_ECS_STAT", 0x100009000008, [], 32, 0x10000, [⟨31, 16, .ro⟩, ⟨15, 0, .ro⟩], none, none⟩,
  ⟨"FLD_ECS_EVT", 0x100009000010, [], 32, 0x0, [⟨5, 5, .w1c⟩, ⟨4, 4, .w1c⟩, ⟨3, 3, .w1c⟩, ⟨2, 2, .w1c⟩, ⟨1, 1, .w1c⟩, ⟨0, 0, .w1c⟩], none, none⟩,
  ⟨"FLD_ECS_EVT_EN", 0x100009000014, [], 32, 0x0, [⟨5, 0, .live⟩], none, none⟩,
  ⟨"FLD_ECS_MBXRATE", 0x100009000018, [], 32, 0x4, [⟨4, 0, .static⟩], some (0x100009000000, 0x0, 0), none⟩,
  ⟨"FLD_ECS_CNT", 0x100009000020, [(8, 0x4)], 32, 0x0, [⟨31, 0, .ro⟩], none, none⟩,
  ⟨"FLD_ECS_CNT_CLR", 0x100009000040, [], 32, 0x0, [⟨0, 0, .wo⟩], none, none⟩,
  ⟨"FLD_ECM_IN", 0x100009101000, [(256, 0x4)], 32, 0x0, [⟨31, 0, .ro⟩], none, none⟩,
  ⟨"FLD_ECM_OUT", 0x100009101400, [(256, 0x4)], 32, 0x0, [⟨31, 0, .live⟩], none, none⟩,
  ⟨"FLD_ECM_CTL", 0x100009110000, [(4, 0x10000)], 32, 0x200, [⟨15, 8, .static⟩, ⟨6, 4, .static⟩, ⟨1, 1, .static⟩, ⟨0, 0, .live⟩], some (0x100009110000, 0x10000, 0), none⟩,
  ⟨"FLD_ECM_TIMING", 0x100009110008, [(4, 0x10000)], 64, 0x0, [⟨63, 32, .static⟩, ⟨31, 0, .static⟩], some (0x100009110000, 0x10000, 0), none⟩,
  ⟨"FLD_ECM_RTD", 0x100009110010, [(4, 0x10000)], 32, 0x0, [⟨31, 0, .static⟩], some (0x100009110000, 0x10000, 0), none⟩,
  ⟨"FLD_ECM_FLEN", 0x100009110014, [(4, 0x10000)], 32, 0x40, [⟨10, 0, .static⟩], some (0x100009110000, 0x10000, 0), none⟩,
  ⟨"FLD_ECM_STAT", 0x100009110018, [(4, 0x10000)], 32, 0x0, [⟨23, 16, .ro⟩, ⟨6, 6, .ro⟩, ⟨5, 5, .ro⟩, ⟨4, 4, .ro⟩, ⟨3, 3, .ro⟩, ⟨2, 2, .ro⟩, ⟨1, 1, .w1c⟩, ⟨0, 0, .ro⟩], none, none⟩,
  ⟨"FLD_ECM_CNT_CYCLE", 0x100009110020, [(4, 0x10000)], 64, 0x0, [⟨63, 0, .ro⟩], none, none⟩,
  ⟨"FLD_ECM_CNT", 0x100009110028, [(4, 0x10000), (6, 0x4)], 32, 0x0, [⟨31, 0, .ro⟩], none, none⟩,
  ⟨"FLD_ECM_ACYC", 0x100009110040, [(4, 0x10000)], 32, 0x0, [⟨19, 18, .ro⟩, ⟨17, 17, .ro⟩, ⟨16, 16, .wo⟩, ⟨10, 0, .live⟩], none, none⟩,
  ⟨"FLD_ECM_EVT", 0x100009110050, [(4, 0x10000)], 32, 0x0, [⟨4, 4, .w1c⟩, ⟨3, 3, .w1c⟩, ⟨2, 2, .w1c⟩, ⟨1, 1, .w1c⟩, ⟨0, 0, .w1c⟩], none, none⟩,
  ⟨"FLD_ECM_EVT_EN", 0x100009110054, [(4, 0x10000)], 32, 0x0, [⟨4, 0, .live⟩], none, none⟩,
  ⟨"FLD_ECM_CNT_CLR", 0x100009110058, [(4, 0x10000)], 32, 0x0, [⟨0, 0, .wo⟩], none, none⟩,
  ⟨"FLD_ECM_EWKC", 0x100009110100, [(4, 0x10000), (16, 0x4)], 32, 0x0, [⟨29, 29, .static⟩, ⟨28, 28, .static⟩, ⟨27, 16, .static⟩, ⟨15, 0, .static⟩], some (0x100009110000, 0x10000, 0), none⟩,
  ⟨"FLD_ECM_TPL", 0x100009111000, [(4, 0x10000), (256, 0x8)], 64, 0x0, [⟨63, 0, .static⟩], some (0x100009110000, 0x10000, 0), none⟩,
  ⟨"FLD_ECM_RET", 0x100009111800, [(4, 0x10000), (256, 0x8)], 64, 0x0, [⟨63, 0, .ro⟩], none, none⟩,
  ⟨"FLD_ECM_ACB", 0x100009112000, [(4, 0x10000), (256, 0x8)], 64, 0x0, [⟨63, 0, .live⟩], none, none⟩]

def rowsFLD1 : List RegDesc := [
  ⟨"FLD_ECM_MAP_LO", 0x100009114000, [(4, 0x10000), (256, 0x10)], 64, 0x0, [⟨63, 63, .static⟩, ⟨62, 62, .static⟩, ⟨61, 58, .static⟩, ⟨57, 55, .static⟩, ⟨54, 54, .static⟩, ⟨47, 40, .static⟩, ⟨28, 16, .static⟩], some (0x100009110000, 0x10000, 0), none⟩,
  ⟨"FLD_ECM_MAP_HI", 0x100009114008, [(4, 0x10000), (256, 0x10)], 64, 0x0, [⟨63, 32, .static⟩, ⟨31, 0, .static⟩], some (0x100009110000, 0x10000, 0), none⟩,
  ⟨"FLD_ETH_CTL", 0x100009200000, [(5, 0x100)], 32, 0x0, [⟨31, 16, .static⟩, ⟨1, 1, .static⟩, ⟨0, 0, .live⟩], some (0x100009200000, 0x100, 0), none⟩,
  ⟨"FLD_ETH_RXRING", 0x100009200008, [(5, 0x100)], 64, 0x0, [⟨60, 56, .static⟩, ⟨47, 6, .static⟩], some (0x100009200000, 0x100, 0), none⟩,
  ⟨"FLD_ETH_TXRING", 0x100009200010, [(5, 0x100)], 64, 0x0, [⟨60, 56, .static⟩, ⟨47, 6, .static⟩], some (0x100009200000, 0x100, 0), none⟩,
  ⟨"FLD_ETH_RXPROD", 0x100009200018, [(5, 0x100)], 32, 0x0, [⟨15, 0, .ro⟩], none, none⟩,
  ⟨"FLD_ETH_RXCONS", 0x10000920001c, [(5, 0x100)], 32, 0x0, [⟨15, 0, .live⟩], none, none⟩,
  ⟨"FLD_ETH_TXPROD", 0x100009200020, [(5, 0x100)], 32, 0x0, [⟨15, 0, .live⟩], none, none⟩,
  ⟨"FLD_ETH_TXCONS", 0x100009200024, [(5, 0x100)], 32, 0x0, [⟨15, 0, .ro⟩], none, none⟩,
  ⟨"FLD_ETH_STAT", 0x100009200028, [(5, 0x100)], 32, 0x0, [⟨0, 0, .ro⟩], none, none⟩,
  ⟨"FLD_ETH_EVT", 0x100009200030, [(5, 0x100)], 32, 0x0, [⟨3, 3, .w1c⟩, ⟨2, 2, .w1c⟩, ⟨1, 1, .w1c⟩, ⟨0, 0, .w1c⟩], none, none⟩,
  ⟨"FLD_ETH_EVT_EN", 0x100009200034, [(5, 0x100)], 32, 0x0, [⟨3, 0, .live⟩], none, none⟩,
  ⟨"FLD_ETH_CNT", 0x100009200038, [(5, 0x100), (3, 0x4)], 32, 0x0, [⟨31, 0, .ro⟩], none, none⟩,
  ⟨"FLD_ETH_CNT_CLR", 0x100009200044, [(5, 0x100)], 32, 0x0, [⟨0, 0, .wo⟩], none, none⟩,
  ⟨"FLD_PCI_STAT", 0x100009300000, [], 32, 0x0, [⟨8, 6, .ro⟩, ⟨5, 2, .ro⟩, ⟨1, 1, .ro⟩, ⟨0, 0, .ro⟩], none, none⟩,
  ⟨"FLD_PCI_BAR2WIN", 0x100009300008, [], 64, 0x0, [⟨9, 0, .live⟩], none, none⟩,
  ⟨"FLD_PCI_VEC", 0x100009300100, [(32, 0x4)], 32, 0x0, [⟨31, 31, .live⟩, ⟨9, 0, .live⟩], none, none⟩,
  ⟨"FLD_PCI_CNT", 0x100009300200, [(3, 0x4)], 32, 0x0, [⟨31, 0, .ro⟩], none, none⟩,
  ⟨"FLD_PCI_EVT", 0x100009300210, [], 32, 0x0, [⟨2, 2, .w1c⟩, ⟨1, 1, .w1c⟩, ⟨0, 0, .w1c⟩], none, none⟩,
  ⟨"FLD_PCI_EVT_EN", 0x100009300214, [], 32, 0x0, [⟨2, 0, .live⟩], none, none⟩,
  ⟨"FLD_PCI_CNT_CLR", 0x100009300218, [], 32, 0x0, [⟨0, 0, .wo⟩], none, none⟩]

/-- Descriptors of block FLD. -/
def tableFLD : List RegDesc := rowsFLD0 ++ rowsFLD1

def rowsCWY0 : List RegDesc := [
  ⟨"CWY_CTRL", 0x10000a000000, [], 32, 0x0, [⟨5, 4, .static⟩, ⟨1, 1, .static⟩, ⟨0, 0, .live⟩], some (0x10000a000000, 0x0, 0), none⟩,
  ⟨"CWY_STAT", 0x10000a000008, [], 32, 0x0, [⟨13, 13, .ro⟩, ⟨12, 12, .ro⟩, ⟨11, 11, .ro⟩, ⟨10, 7, .ro⟩, ⟨6, 4, .ro⟩, ⟨3, 3, .ro⟩, ⟨2, 0, .ro⟩], none, none⟩,
  ⟨"CWY_TIME_PER", 0x10000a000010, [], 32, 0x3e8, [⟨31, 0, .static⟩], some (0x10000a000000, 0x0, 0), none⟩,
  ⟨"CWY_LEAD", 0x10000a000014, [], 32, 0x64, [⟨31, 0, .static⟩], some (0x10000a000000, 0x0, 0), none⟩,
  ⟨"CWY_DOWNTMO", 0x10000a000018, [], 32, 0x2710, [⟨31, 0, .static⟩], some (0x10000a000000, 0x0, 0), none⟩,
  ⟨"CWY_EVT", 0x10000a000020, [], 32, 0x0, [⟨7, 4, .w1c⟩, ⟨3, 3, .w1c⟩, ⟨2, 2, .w1c⟩, ⟨1, 1, .w1c⟩, ⟨0, 0, .w1c⟩], none, none⟩,
  ⟨"CWY_EVT_EN", 0x10000a000024, [], 32, 0x0, [⟨7, 0, .live⟩], none, none⟩,
  ⟨"CWY_CNT_STEPLATE", 0x10000a000028, [], 32, 0x0, [⟨31, 0, .ro⟩], none, none⟩,
  ⟨"CWY_CNT_TTERR", 0x10000a00002c, [], 32, 0x0, [⟨31, 0, .ro⟩], none, none⟩,
  ⟨"CWY_CNT_CLR", 0x10000a000030, [], 32, 0x0, [⟨0, 0, .wo⟩], none, none⟩,
  ⟨"CWY_L_STAT", 0x10000a001000, [(4, 0x100)], 32, 0x0, [⟨6, 4, .ro⟩, ⟨1, 1, .ro⟩, ⟨0, 0, .ro⟩], none, none⟩,
  ⟨"CWY_L_CNT_CRC", 0x10000a001008, [(4, 0x100)], 32, 0x0, [⟨31, 0, .ro⟩], none, none⟩,
  ⟨"CWY_L_CNT_REPLAY", 0x10000a00100c, [(4, 0x100)], 32, 0x0, [⟨31, 0, .ro⟩], none, none⟩,
  ⟨"CWY_L_CNT_RETRAIN", 0x10000a001010, [(4, 0x100)], 32, 0x0, [⟨31, 0, .ro⟩], none, none⟩,
  ⟨"CWY_L_CNT_REISSUE", 0x10000a001014, [(4, 0x100)], 32, 0x0, [⟨31, 0, .ro⟩], none, none⟩,
  ⟨"CWY_L_CNT_REPLAYT", 0x10000a001018, [(4, 0x100)], 64, 0x0, [⟨63, 0, .ro⟩], none, none⟩]

/-- Descriptors of block CWY. -/
def tableCWY : List RegDesc := rowsCWY0

def rowsSEC0 : List RegDesc := [
  ⟨"SEC_LC", 0x10000b000000, [], 32, 0x0, [⟨11, 8, .ro⟩, ⟨2, 0, .ro⟩], none, none⟩,
  ⟨"SEC_REVOKE", 0x10000b000008, [], 32, 0x0, [⟨7, 0, .ro⟩], none, none⟩,
  ⟨"SEC_ROLLBACK", 0x10000b000010, [], 32, 0x0, [⟨6, 0, .ro⟩], none, none⟩,
  ⟨"SEC_DBGLOCK", 0x10000b000018, [], 32, 0x0, [⟨7, 0, .ro⟩], none, none⟩,
  ⟨"SEC_PERT", 0x10000b00001c, [], 32, 0x0, [⟨2, 2, .ro⟩, ⟨1, 0, .ro⟩], none, none⟩,
  ⟨"SEC_STAT", 0x10000b000020, [], 32, 0x0, [⟨1, 1, .ro⟩, ⟨0, 0, .ro⟩], none, none⟩,
  ⟨"SEC_CHAL", 0x10000b000028, [], 64, 0x0, [⟨63, 0, .ro⟩], none, none⟩,
  ⟨"SEC_BOOT", 0x10000b000030, [], 64, 0x0, [⟨63, 32, .ro⟩, ⟨31, 24, .ro⟩, ⟨16, 16, .ro⟩, ⟨15, 8, .ro⟩, ⟨7, 0, .ro⟩], none, none⟩,
  ⟨"SEC_PROTWIN", 0x10000b000040, [(8, 0x8)], 64, 0x0, [⟨63, 0, .ro⟩], none, none⟩,
  ⟨"SEC_KH_RSA", 0x10000b000100, [(4, 0x40), (6, 0x8)], 64, 0x0, [⟨63, 0, .ro⟩], none, none⟩,
  ⟨"SEC_KH_SLH", 0x10000b000200, [(4, 0x40), (6, 0x8)], 64, 0x0, [⟨63, 0, .ro⟩], none, none⟩,
  ⟨"SEC_PCR", 0x10000b000400, [(8, 0x40), (6, 0x8)], 64, 0x0, [⟨63, 0, .ro⟩], none, none⟩,
  ⟨"SEC_CMD", 0x10000b000600, [], 32, 0x0, [⟨31, 24, .wo⟩, ⟨22, 16, .wo⟩, ⟨11, 11, .wo⟩, ⟨10, 8, .wo⟩, ⟨7, 0, .wo⟩], none, none⟩,
  ⟨"SEC_CMD_SRC", 0x10000b000608, [], 64, 0x0, [⟨47, 6, .live⟩], none, none⟩,
  ⟨"SEC_CMD_DST", 0x10000b000610, [], 64, 0x0, [⟨47, 6, .live⟩], none, none⟩,
  ⟨"SEC_CMD_STAT", 0x10000b000618, [], 32, 0x0, [⟨15, 8, .ro⟩, ⟨0, 0, .ro⟩], none, none⟩,
  ⟨"SEC_EVT", 0x10000b000620, [], 32, 0x0, [⟨1, 1, .w1c⟩, ⟨0, 0, .w1c⟩], none, none⟩,
  ⟨"SEC_EVT_EN", 0x10000b000624, [], 32, 0x0, [⟨1, 0, .live⟩], none, none⟩]

/-- Descriptors of block SEC. -/
def tableSEC : List RegDesc := rowsSEC0

def rowsPWR0 : List RegDesc := [
  ⟨"PWR_CTRL", 0x10000c000000, [], 32, 0x0, [⟨0, 0, .wo⟩], none, none⟩,
  ⟨"PWR_STAT", 0x10000c000008, [], 32, 0x1, [⟨23, 20, .ro⟩, ⟨19, 16, .ro⟩, ⟨9, 9, .ro⟩, ⟨8, 8, .ro⟩, ⟨5, 4, .ro⟩, ⟨2, 0, .ro⟩], none, none⟩,
  ⟨"PWR_CAP", 0x10000c000010, [], 32, 0x17c, [⟨8, 0, .live⟩], none, none⟩,
  ⟨"PWR_EFFCAP", 0x10000c000014, [], 32, 0x17c, [⟨31, 0, .ro⟩], none, none⟩,
  ⟨"PWR_VIN", 0x10000c000018, [], 32, 0x0, [⟨31, 0, .ro⟩], none, none⟩,
  ⟨"PWR_PMOD", 0x10000c00001c, [], 32, 0x0, [⟨31, 0, .ro⟩], none, none⟩,
  ⟨"PWR_TCP", 0x10000c000020, [], 32, 0x0, [⟨15, 0, .ro⟩], none, none⟩,
  ⟨"PWR_WAKE", 0x10000c000028, [], 32, 0x1, [⟨12, 8, .live⟩, ⟨2, 2, .live⟩, ⟨1, 1, .live⟩, ⟨0, 0, .live⟩], none, none⟩,
  ⟨"PWR_APPVEC", 0x10000c000030, [], 64, 0x0, [⟨47, 2, .live⟩], none, none⟩,
  ⟨"PWR_EVT", 0x10000c000038, [], 32, 0x0, [⟨3, 3, .w1c⟩, ⟨2, 2, .w1c⟩, ⟨1, 1, .w1c⟩, ⟨0, 0, .w1c⟩], none, none⟩,
  ⟨"PWR_EVT_EN", 0x10000c00003c, [], 32, 0x0, [⟨3, 0, .live⟩], none, none⟩,
  ⟨"PWR_CNT_HOLD", 0x10000c000040, [], 32, 0x0, [⟨31, 0, .ro⟩], none, none⟩,
  ⟨"PWR_CNT_THROT", 0x10000c000044, [], 32, 0x0, [⟨31, 0, .ro⟩], none, none⟩,
  ⟨"PWR_CNT_DORM", 0x10000c000048, [], 32, 0x0, [⟨31, 0, .ro⟩], none, none⟩,
  ⟨"PWR_CNT_CLR", 0x10000c00004c, [], 32, 0x0, [⟨0, 0, .wo⟩], none, none⟩]

/-- Descriptors of block PWR. -/
def tablePWR : List RegDesc := rowsPWR0

def rowsDGN0 : List RegDesc := [
  ⟨"DGN_EPOCH", 0x10000f000000, [], 32, 0x0, [⟨31, 0, .ro⟩], none, none⟩,
  ⟨"DGN_EPOCH_CAUSE", 0x10000f000004, [], 32, 0x0, [⟨6, 0, .ro⟩], none, none⟩,
  ⟨"DGN_EPOCH_BUMP", 0x10000f000008, [], 32, 0x0, [⟨0, 0, .wo⟩], none, none⟩,
  ⟨"DGN_EVT", 0x10000f000010, [], 32, 0x0, [⟨3, 3, .w1c⟩, ⟨2, 2, .w1c⟩, ⟨1, 1, .w1c⟩, ⟨0, 0, .w1c⟩], none, none⟩,
  ⟨"DGN_EVT_EN", 0x10000f000014, [], 32, 0x0, [⟨3, 0, .live⟩], none, none⟩,
  ⟨"DGN_CNT_MERGE", 0x10000f000018, [], 32, 0x0, [⟨31, 0, .ro⟩], none, none⟩,
  ⟨"DGN_VIO_CNT", 0x10000f000100, [(7, 0x4)], 32, 0x0, [⟨31, 0, .ro⟩], none, none⟩,
  ⟨"DGN_VIO_TOTAL", 0x10000f00011c, [], 32, 0x0, [⟨31, 0, .ro⟩], none, none⟩,
  ⟨"DGN_VIO_LAST", 0x10000f000120, [], 64, 0x0, [⟨63, 63, .ro⟩, ⟨61, 56, .ro⟩, ⟨54, 52, .ro⟩, ⟨51, 51, .ro⟩, ⟨50, 48, .ro⟩, ⟨47, 0, .ro⟩], none, none⟩,
  ⟨"DGN_CNT_CLR", 0x10000f000128, [], 32, 0x0, [⟨0, 0, .wo⟩], none, none⟩,
  ⟨"DGN_TEL_CTL", 0x10000f000200, [], 32, 0x0, [⟨2, 2, .ro⟩, ⟨0, 0, .live⟩], none, none⟩,
  ⟨"DGN_TEL_RING", 0x10000f000208, [], 64, 0x0, [⟨60, 56, .static⟩, ⟨47, 6, .static⟩], some (0x10000f000200, 0x0, 0), none⟩,
  ⟨"DGN_TEL_SEQ", 0x10000f000210, [], 32, 0x0, [⟨31, 0, .ro⟩], none, none⟩,
  ⟨"DGN_TEL_CNT_DROP", 0x10000f000214, [], 32, 0x0, [⟨31, 0, .ro⟩], none, none⟩,
  ⟨"DGN_PERT_CTL", 0x10000f000300, [], 32, 0x0, [⟨3, 0, .live⟩], none, none⟩,
  ⟨"DGN_PERT_XING", 0x10000f000308, [], 64, 0x0, [⟨63, 32, .live⟩, ⟨31, 24, .live⟩, ⟨23, 16, .live⟩, ⟨8, 0, .live⟩], none, none⟩,
  ⟨"DGN_PERT_BWK", 0x10000f000310, [], 64, 0x0, [⟨63, 32, .live⟩, ⟨31, 24, .live⟩, ⟨23, 16, .live⟩, ⟨15, 0, .live⟩], none, none⟩,
  ⟨"DGN_PERT_MEM", 0x10000f000318, [], 64, 0x0, [⟨63, 32, .live⟩, ⟨31, 24, .live⟩, ⟨23, 12, .live⟩, ⟨3, 0, .live⟩], none, none⟩,
  ⟨"DGN_PERT_CWY", 0x10000f000320, [], 64, 0x0, [⟨63, 32, .live⟩, ⟨31, 16, .live⟩, ⟨15, 8, .live⟩, ⟨3, 0, .live⟩], none, none⟩,
  ⟨"DGN_PERT_CNT", 0x10000f000340, [(4, 0x4)], 32, 0x0, [⟨31, 0, .ro⟩], none, none⟩]

/-- Descriptors of block DGN. -/
def tableDGN : List RegDesc := rowsDGN0

/-- Descriptors by block, each block 16 MiB at its base (R40). -/
def blocks : List (Nat × List RegDesc) := [
  (0x100000000000, tableSYS),
  (0x100001000000, tableTC),
  (0x100002000000, tableMEM),
  (0x100003000000, tableSCH),
  (0x100004000000, tableTIM),
  (0x100005000000, tableSNS),
  (0x100006000000, tableSLV),
  (0x100007000000, tableTRL),
  (0x100008000000, tableBLV),
  (0x100009000000, tableFLD),
  (0x10000a000000, tableCWY),
  (0x10000b000000, tableSEC),
  (0x10000c000000, tablePWR),
  (0x10000f000000, tableDGN)]

end Sys2Proof.Machine.Reg
end

