-- ==== Sys2Proof/Machine/State.lean ====
section
/-! DEFINITION. The state of the block: the register file, memory, time, and what the engines hold beside
their registers; the faults and refusals; the state after reset. -/

namespace Sys2Proof.Machine

open Sys2Proof

/-- What stops a command with a fault. No command of the table stops so: violations, command faults and
refused configurations are effects on State (INVENTORY.md, Faults). -/
inductive Fault where
  /-- A step was asked of a state outside the model. Raised by nobody; safe. -/
  | outsideModel
  deriving DecidableEq, Repr

/-- What refuses a command. -/
inductive Refusal where
  /-- The command has no meaning in this model yet. Raised by the dispatch only; safe. -/
  | notModelled (mnemonic : String)
  deriving DecidableEq, Repr

/-- The answer of the last access, as its initiator sees it. -/
inductive Reply where
  | none
  | value (v : Word64)
  | bytes (bs : List Byte)
  | poisoned
  | accessFault
  | abort (code : Nat)
  deriving DecidableEq, Repr

/-- A captured upper half or a held lower half of one initiator (R9). -/
structure Half where
  who : Initiator
  addr : Nat
  val : Word32
  deriving DecidableEq, Repr

/-- The fuse array (R513): raw bits, so that a damaged field shows (R514). A key slot is its 384-bit hash
(as a number, byte 0 least significant) and its marker. `secret` is the device secret, never readable. -/
structure Fuses where
  secret : Nat
  serial : Nat
  grade : Nat
  stepping : Nat
  cores : Nat
  memGib : Nat
  phys : Nat
  lc : Nat
  khRsa : List (Nat × Bool)
  khSlh : List (Nat × Bool)
  revoke : Nat
  rollback : Nat
  protWin : List Nat
  protDbg : Nat
  protPert : Nat
  protMark : Bool
  deriving DecidableEq, Repr

/-- An Emergency message that waits for the mailbox (R459). -/
structure Emergency where
  code : Nat
  data : Nat
  deriving DecidableEq, Repr

/-- What leaves the device, in order (the model's own record of it). -/
inductive OutMsg where
  /-- An MSI-X message of a vector (R474). -/
  | msix (v : Nat)
  /-- A frame on an Ethernet or EtherCAT port. -/
  | frame (port : Nat) (bytes : List Byte)
  /-- A frame forwarded with its FCS invalidated (R449). -/
  | badFrame (port : Nat) (bytes : List Byte)
  /-- A Causeway flit on a link, 256 bytes (R478, R479). -/
  | flit (link : Nat) (bytes : List Byte)
  /-- A hart leaves reset and runs from an address: control harts 0–3, application harts 4–11 (R380, R512). -/
  | hartStart (h : Nat) (pc : Nat)
  /-- A control hart is held in reset (R380). -/
  | hartHold (h : Nat)
  /-- A control hart's Smrnmi interrupt from its watchdog (R381). -/
  | smrnmi (h : Nat)
  /-- SPI bytes sent to an inertial sensor (R297). -/
  | spi (port : Nat) (bytes : List Byte)
  deriving DecidableEq, Repr

/-- The interrupt controller beside its registers: pulse sources whose PENDING is set, and each target's
stack of (source, priority), top first (R385, R386). -/
structure IcuState where
  pend : List Nat
  stk : Tbl (List (Nat × Nat))
  deriving DecidableEq, Repr

/-- The MSI-X table of BAR4 (R471, R474): vectors masked, vectors with their pending bit set, the table
words by offset, and the size of BAR2 as a power of two. -/
structure MsixState where
  masked : List Nat
  pend : List Nat
  table : Tbl Word32
  barLog : Nat
  deriving DecidableEq, Repr
/-- A weight tile in the grid: the LOAD that brought it, its bytes, and whether its release is held (R70, R83). -/
structure Plane where
  desc : Nat
  bytes : List Byte
  rel : Bool
  deriving DecidableEq, Repr

/-- An entry of the placement table (R184). Tier addresses and bases are in 64 KiB units; a FREE entry is
one the table does not list. States: 1 RESIDENT, 2 PROMOTING, 3 EVICTING, 4 EVICT_DEFERRED (R192). -/
structure PltEntry where
  base : Nat
  size : Nat
  tier : Nat
  st : Nat
  pin : Nat
  taddr : Nat
  ctx : Nat
  shr : Bool
  nopub : Bool
  unc : Bool
  err : Bool
  wtag : Nat
  dtier : Nat
  dtaddr : Nat
  moved : Nat
  rslot : Nat
  deriving DecidableEq, Repr

/-- A command dispatched to a path and not yet completed (R87): its descriptor (512 bits), its number in dispatch
order, its attempts, whether it is a silent re-execution (R70, R111), its start cycle (R105), the units issued (lines,
vectors, rows, tiles), the core cycle in which the next unit may issue, the cycles in which issued units write, what
it waits for (0 nothing, 1 a tail, 2 a head, 3 a swap, 4 a tile in copy, 5 the page pool), stall cycles and flags of
this attempt, BUDGET raised, the swap already made (by a killed attempt or by this one), the weight tile it uses, the
completion cycle once all has issued, and the tiles of a PULL that have landed (of an ATTN: 1 its request is served, 2
it is skipped), and the placement entries that the tiles of a PULL met when they were requested (R190). -/
structure Cmd where
  desc : Nat
  no : Nat
  attempts : Nat
  silent : Bool
  start : Option Nat
  unit : Nat
  next : Nat
  pipe : List Nat
  wait : Nat
  stalls : Nat
  flags : Nat
  raised : Bool
  swapped : Bool
  tile : Option Plane
  doneAt : Option Nat
  landed : List Nat
  src : Tbl PltEntry
  deriving DecidableEq, Repr

/-- What a killed SPILL step keeps of a logical core until it resumes (R111, R239): the commands to dispatch
again, the LOADs to re-execute (descriptor and held release), the next descriptor, the region pointers. -/
structure Resume where
  cmds : List Cmd
  active : Option (Nat × Bool)
  shadow : Option (Nat × Bool)
  reload : Option (Nat × Bool)
  fetchPos : Nat
  ptrs : List Word64
  vact : Option Nat
  vnxt : List Nat
  deriving DecidableEq, Repr

/-- A physical core beside its registers: context and logical core of the step on it, stream address, fetched
descriptors, next index to fetch, fetch stopped by a COMMIT, Bandstand cycle of the first fetch, the FENCE or
COMMIT that waits, COMMIT done and to be reported, the five path queues by FENCE WAIT bit and the cycle from which
each path is free to issue, commands dispatched, the planes, a LOAD to
re-execute after an ATTN, commands to dispatch again, the active tile and the tiles to be swapped in as they will
stand after the commands dispatched (LOAD descriptors), the command epoch,
a kill in progress, spill or restore tiles left (address, place), the core clock (cycle base, tenths of cycles
counted, rate, held), the relock end, the core cycle the step came, and by region pointer (R78) the cycle from which
each of its moves counts and the lines it moved, newest first. -/
structure Core where
  job : Option (Nat × Nat)
  stream : Nat
  fetched : List Nat
  fetchPos : Nat
  fetchStop : Bool
  fetchAt : Nat
  hold : Option Cmd
  commitDone : Bool
  queues : Tbl (List Cmd)
  pathNext : Tbl Nat
  dispNo : Nat
  active : Option Plane
  shadow : Option Plane
  shadowSt : Nat
  reload : Option (Nat × Bool)
  redo : List Cmd
  vact : Option Nat
  vnxt : List Nat
  epoch : Nat
  killing : Bool
  killed : Option Resume
  xfer : List (Nat × Nat)
  restoring : Bool
  clkAt : Nat
  clkAcc : Nat
  plevel : Nat
  maint : Bool
  relockEnd : Option Nat
  since : Nat
  moves : Tbl (List (Nat × Nat))
  deriving DecidableEq, Repr

/-- A STORE tile that its tier has not acknowledged: the physical core it left, the context and logical core, its
64 KiB unit. -/
structure StoreAck where
  pcore : Nat
  ctx : Nat
  lcore : Nat
  unit : Nat
  deriving DecidableEq, Repr

/-- A page pool beside its registers (R163-R174): the free-page stack and host-slot stack, top first; admitted
sequences as (page table, admission number); pins as (page table, physical core); retirements that wait for a
pin; a disable that waits for the last pin. -/
structure Pool where
  fstk : List Nat
  hstk : List Nat
  seqs : List (Nat × Nat)
  pins : List (Nat × Nat)
  retiring : List Nat
  disabling : Bool
  deriving DecidableEq, Repr

/-- A request to the page pool controller that it has not yet carried out (R165–R167, R173): its kind (0 an ATTN, 1 an
admission, 2 a retirement), the core of an ATTN, the pool, the page table, the Bandstand cycle of its arrival, the place
of an ATTN among those of one cycle (logical core, then context), and whether it waits for pages (R172). -/
structure PageReq where
  kind : Nat
  core : Nat
  pool : Nat
  ptab : Nat
  at_ : Nat
  tie : Nat
  waits : Bool
  deriving DecidableEq, Repr

/-- A placement request as the ring holds it (R188). -/
structure PltReq where
  slot : Nat
  op : Nat
  pri : Nat
  irq : Bool
  obj : Nat
  base : Nat
  size : Nat
  ctx : Nat
  shr : Bool
  nopub : Bool
  tier : Nat
  taddr : Nat
  deriving DecidableEq, Repr

/-- A write that waits for the tile in copy (R196): since when, where in the object, what. -/
structure WaitWrite where
  since : Nat
  ofs : Nat
  bytes : List Byte
  deriving DecidableEq, Repr

/-- What the engine keeps of a migration in progress or deferred: the requests it will complete, the
promotes that cancel it at the next tile boundary (R193), the writes that wait for the tile in copy, and the Bandstand
cycle of its start or last tile boundary. -/
structure Migration where
  reqs : List PltReq
  cancels : List PltReq
  waiting : List WaitWrite
  tileAt : Nat
  deriving DecidableEq, Repr

/-- An access of a hart or the host to LPDDR5X that waits for a MAINT slot to end (R223, R250): since when, who, what,
what its reads meet, and the object it resolved to. -/
structure HeldAccess where
  since : Nat
  who : Initiator
  write : Bool
  addr : Nat
  len : Nat
  data : List Byte
  ecc : Nat
  obj : Nat
  entry : PltEntry
  deriving DecidableEq, Repr

/-- A step tag in use (R199): its committed bit, its publication log, and whether the log overflowed. -/
structure TagState where
  committed : Bool
  log : List Nat
  overflow : Bool
  deriving DecidableEq, Repr
/-- An entry of the timetable in force (R220). -/
structure TtSlot where
  len : Nat
  kind : Nat
  plevel : Nat
  pcores : Nat
  ctxmask : Nat
  deriving DecidableEq, Repr

/-- A logical core of a step: 0 not started, 1 running, 2 killing, 3 spilling, 4 stopped by a kill, 5 resuming,
6 committed; its physical core; what it resumes from; and how often each command of its stream has been dispatched
(R101). -/
structure LogCore where
  st : Nat
  pcore : Nat
  resume : Option Resume
  tries : Tbl Nat
  deriving DecidableEq, Repr

/-- The step of a context (R244): its state (the code of SCH_CTX_n_STAT_STATE), its entry, tag, attempts, the
boundary at or after which it became READY and the order in which it last started, and its logical cores. -/
structure Step where
  st : Nat
  entry : List Byte
  tag : Option Nat
  attempts : Nat
  readyAt : Nat
  startNo : Nat
  lcores : Tbl LogCore
  deriving DecidableEq, Repr

/-- A remote read slot in use (R246): core, the core's epoch at issue, the number of the PULL and its tile, the
module and the tile's unit there, the context. -/
structure RemoteSlot where
  core : Nat
  epoch : Nat
  no : Nat
  tile : Nat
  module : Nat
  unit : Nat
  ctx : Nat
  deriving DecidableEq, Repr

/-- The scheduler beside its registers: the timetable in force with frame length and phase in ns, the frame position
(slot, time of its end in accumulator ns), step lists' snapshots, the contexts' steps, order counters, remote read
slots, slot boundaries counted (R230), and the frame boundary at which a timetable set latches in a cascade with the
CRC-32 of its array (R490). -/
structure Sched where
  slots : List TtSlot
  frameNs : Nat
  phaseNs : Nat
  slot : Nat
  slotEnd : Nat
  snaps : Tbl Nat
  steps : Tbl Step
  startNo : Nat
  remote : Tbl RemoteSlot
  boundary : Nat
  due : Option (Nat × Nat)
  deriving DecidableEq, Repr

/-- An arrival the fusion unit holds (R299, R311): its ARR and TOV in 2^-16 ns of presented time, the ring index of an
EXT or FEATURE record, the measurement components of the others, and whether a snapshot has used it. -/
structure Arrival where
  arr : Int
  tov : Int
  ring : Option Nat
  meas : List Word32
  used : Bool
  deriving DecidableEq, Repr

/-- A channel of the fusion unit (R299-R309): arrivals counted, the time model (TREF, SREF, RATE, PER, n, a_prev),
consecutive arrivals in bounds, VALID, DESYNC, arrivals that passed since, the extended counter of STFMT 3 and 4,
conversions counted, and the arrivals a snapshot may take, oldest first. -/
structure Chan where
  seq : Nat
  tref : Int
  sref : Nat
  rate : Int
  per : Int
  n : Nat
  aPrev : Int
  okRun : Nat
  valid : Bool
  desync : Bool
  relock : Nat
  cnt : Option Nat
  conv : Nat
  arrivals : List Arrival
  deriving DecidableEq, Repr

/-- The latched tables of R303: 64 channel descriptors (512 bits each), 32 slot entries, 16 extrinsic entries. -/
structure FusTables where
  chans : List Nat
  slots : List (List Byte)
  ext : List (List Byte)
  deriving DecidableEq, Repr

/-- An estimator slot (R312-R316): output count, last VALUE, VARIANCE and UNKNOWN, and the state and covariance of a
KALMAN slot. -/
structure EstSlot where
  seq : Nat
  value : List Word32
  var : List Word32
  unknown : Nat
  kx : List Word32
  kp : List (List Word32)
  deriving DecidableEq, Repr

/-- The EGO slot beside its record (R320, R347): last pose put out, kept outputs (instant in 2^-16 ns, VALUE), IMU
samples since the previous instant, the problem the fusion engine runs with the SEQ of the record whose instant
submitted it and the solver cycle in which it ends, the last result returned with that SEQ, and the result record
of the last solution used. -/
structure Ego where
  pose : List Word32
  kept : List (Int × List Word32)
  imu : List Arrival
  running : Option (List Byte × Nat × Nat)
  result : Option (Nat × List Byte)
  warm : List Byte
  deriving DecidableEq, Repr

/-- The fusion unit beside its registers: tables in force, instant index of the last instant, the next instant in
accumulator ns, the latch from which instants follow one another in wrap mode (accumulator ns, R310), whether the next
instant's slots are computed, the grid built for a coming instant (instant, USED), snapshot instants
last taken by estimator and splat engine, channels, slots, EGO, held extrinsic entries with OVERFLOW (R321), running
SPI transactions with the edge's time, and the conversion in progress (its start in 2^-16 ns, its cycle) (R298). -/
structure Fusion where
  tables : Option FusTables
  k : Nat
  nextO : Nat
  latchedAt : Nat
  slotDone : Bool
  grid : Option (Nat × Nat)
  lastSlot : Option Int
  lastGrid : Option Int
  chans : Tbl Chan
  slots : Tbl EstSlot
  ego : Ego
  calib : Tbl (List Byte × Bool)
  spi : Tbl Nat
  conv : Option (Nat × Nat)
  deriving DecidableEq, Repr

/-- A batch of the solver that runs (R327-R349): its descriptor's ring address and bytes, the problem each engine
works on with the solver cycle in which it ends, FLAGSOR so far, the cycle in which the batch ends, a BA's iterations
cut short by a disable, and unstarted problems dropped by one. -/
structure Batch where
  slot : Nat
  desc : List Byte
  engines : Tbl (Nat × Nat)
  flagsOr : Nat
  lastEnd : Nat
  start : Nat
  cut : Option Nat
  aborted : Bool
  deriving DecidableEq, Repr

/-- A node of a road map (R354). -/
structure TrlNode where
  q : List Nat
  efirst : Nat
  outdeg : Nat
  infirst : Nat
  indeg : Nat
  stope : Nat
  deriving DecidableEq, Repr

/-- An edge of a road map (R355). -/
structure TrlEdge where
  src : Nat
  dst : Nat
  cost : Nat
  runFirst : Nat
  nrun : Nat
  box : List Nat
  traj : Nat
  mask : Nat
  deriving DecidableEq, Repr

/-- A road-map bank as the Trellis SRAM holds it (R352-R356). -/
structure TrlBank where
  nj : Nat
  zv : Nat
  nsrch : Nat
  cell : Nat
  bankId : Nat
  vinv : List Word32
  nodes : List TrlNode
  ins : List Nat
  edges : List TrlEdge
  runs : List Nat
  deriving DecidableEq, Repr

/-- An ingest (R359): generation, buffer, the header generation read at its start, the cycle in which the scan ends or
the next broadcast may begin, NEXT once scanned, the voxels still to broadcast, the grid's TOV. -/
structure Ingest where
  gen : Nat
  buf : Nat
  gen0 : Nat
  at_ : Nat
  next : Option (List Nat)
  todo : List Nat
  tov : List Byte
  deriving DecidableEq, Repr

/-- A planning request in progress (R366, R367): its 64 bytes; phase 0 waits for a bank, 1 searches, 2 holds a path;
the path held and SELGEN; FLAGS so far; WCOUNT, EXPAND, CYCLES. -/
structure TrlReq where
  bytes : List Byte
  phase : Nat
  path : List Nat
  selgen : Nat
  flags : Nat
  wcount : Nat
  expand : Nat
  cycles : Nat
  deriving DecidableEq, Repr

/-- Trellis beside its registers: resident bank, a load in progress (bank, end cycle), HITS by edge, BLK as a mask of
edges, the CUR plane as its occupied voxels ascending, the occupancy TOV, the ingest, search state (g, rhs, SUCC, KM,
START, goals, queue), a commit whose repair is due with the search edges whose BLK changed, the request, the cycle
until which search or output stage is busy, the previous plan (START and edges). -/
structure Trellis where
  bank : Option TrlBank
  load : Option (Nat × Nat)
  hits : Tbl Nat
  blk : Nat
  cur : List Nat
  tov : List Byte
  ingest : Option Ingest
  ingested : Nat
  g : Tbl Nat
  rhs : Tbl Nat
  succ : Tbl Nat
  km : Nat
  start : Option Nat
  goals : List Nat
  queue : List (Nat × Nat × Nat)
  repair : List Nat
  repairDue : Bool
  req : Option TrlReq
  busy : Nat
  outBusy : Nat
  prev : Option (Nat × List Nat)
  deriving DecidableEq, Repr

/-- An output that waits for its cycle (R398, R410): Belvedere cycle, value, ulg before the
sample, the report's r, y, f and prediction, the boundary's TNS/TSEC, whether the dual path compares it (R438). -/
structure LoopOut where
  due : Nat
  value : Word32
  ulgOld : Word32
  r : Word32
  y : Word32
  f : Word32
  yhat : Word32
  bnd : Nat
  dual : Bool
  deriving DecidableEq, Repr

/-- A control loop beside its registers (R401-R409): whether the engine runs it and in which group, its state, bad and
skip in STAT and here, FIRST, the action in force (0 HOLD, 1 RAMP, 2 SAFE), a resume due at the next boundary, a dual-path
mismatch to act on, the output that waits, the report's SEQ, an enable since the last boundary (R402), the Belvedere cycle
in which the output last changed and the output before it (R399). -/
structure LoopSt where
  run : Bool
  grp : Nat
  i : Word32
  d : Word32
  xp : Word32
  yp1 : Word32
  yp2 : Word32
  up1 : Word32
  up2 : Word32
  ulg : Word32
  bad : Nat
  skip : Nat
  first : Bool
  act : Option Nat
  resume : Bool
  mis : Bool
  out : Option LoopOut
  seq : Nat
  again : Bool
  outAt : Nat
  prev : Word32
  deriving DecidableEq, Repr

/-- A pulse of a compare unit (R284, R289): unit, destination, level, Bandstand cycle of its end. -/
structure Pulse where
  unit : Nat
  dest : Nat
  high : Bool
  endAt : Nat
  deriving DecidableEq, Repr

/-- A conversion event of the analog front end before its T2 (R413, R420, R424): the cycle and the time (2^-16 ns) of
the firing, the compare units that fired, the groups whose evaluation it starts with their programs, and whether a
conversion took place. -/
structure Conv where
  t0 : Nat
  t16 : Nat
  units : List Nat
  groups : List (Nat × Nat)
  real : Bool
  deriving DecidableEq, Repr

/-- An evaluation between its release and its T4 (R413-R425): group, cycle of T0, bank, FLAGS, ABSMASK, the result
vector (none where the vector keeps its words), and whether it occupies the arrays. -/
structure Eval where
  g : Nat
  t0 : Nat
  bank : Nat
  flags : Nat
  absMask : Nat
  res : Option (List Word32)
  occ : Bool
  deriving DecidableEq, Repr

/-- The reflex arrays beside their registers: histories of the eight channels (depth 0 first), conversions before T2,
cycle of the last conversion that took place, evaluations before T4, groups latched since their last boundary, and
banks whose contents are undefined (R430), with the free value's number. -/
structure Reflex where
  hist : List (List Int)
  convs : List Conv
  lastConv : Option Nat
  evals : List Eval
  latched : List Nat
  undef : Tbl Nat
  deriving DecidableEq, Repr

/-- A fill in progress (R428-R430): its request slot and IRQ, source, loops, cycle of acceptance, header landed, LEN,
GEN, CRC, payload bytes landed, the CRC so far, and the Belvedere cycle in which the arming check ends. -/
structure Fill where
  slot : Nat
  irq : Bool
  src : Nat
  hsrc : Bool
  mask : Nat
  at_ : Nat
  hdr : Bool
  len : Nat
  gen : Nat
  crc : Nat
  pos : Nat
  crcAcc : Nat
  checkEnd : Option Nat
  deriving DecidableEq, Repr

/-- A Sluice lane beside its registers: fill in progress, pending arm of FILLING (its request, none for ARMNOW), a CHECK
(end cycle, state before it, its request), loops armed or to be armed, GEN of the filled and of the armed set, Belvedere
cycle of arming, the former bank of a drain, cycle of the last swap or enable. -/
structure Lane where
  fill : Option Fill
  armReq : Option (Nat × Bool)
  check : Option (Nat × Nat × Option (Nat × Bool))
  mask : Nat
  genFilled : Nat
  genArmed : Nat
  armedAt : Nat
  drain : Option Nat
  since : Nat
  deriving DecidableEq, Repr

/-- A MainDevice cycle (R460): Bandstand cycle of its boundary; phase 0 before instant 1, 1 snapshot taken, 2 sent, 3
merging; the converted template; whether a copy left on A and on B; the copies back on each; Belvedere cycle of
instant 5. -/
structure SegCyc where
  b : Nat
  phase : Nat
  frame : List Byte
  sentA : Bool
  sentB : Bool
  retA : Option (List Byte)
  retB : Option (List Byte)
  mergeAt : Nat
  deriving DecidableEq, Repr

/-- A MainDevice segment beside its registers (R460-R466): the cycle in progress, Bandstand cycle of the last cycle
start, the raw value each output entry last sent, whether the segment is in substitution, and the Bandstand cycle in
which the outstanding acyclic frame left. -/
structure Seg where
  cyc : Option SegCyc
  last : Option Nat
  sent : Tbl Nat
  subst : Bool
  acycAt : Option Nat
  deriving DecidableEq, Repr

/-- A segmented SDO transfer (R448, R451): upload or download, index, subindex, complete access, the toggle bit of the
next segment, bytes left to send or taken so far, the length announced, the Bandstand cycle of the last segment. -/
structure SdoSeg where
  up : Bool
  idx : Nat
  sub : Nat
  complete : Bool
  toggle : Bool
  data : List Byte
  size : Nat
  at_ : Nat
  deriving DecidableEq, Repr

/-- The SubDevice beside its registers (R445–R459): FLD_ECS_STAT_ERR, dictionary words that no register holds by
256 × index + subindex, the newest complete SM2 buffer and whether it is yet to be copied, the cycles of its arrival and
of the last SYNC0, 0x1C32:0B when OP was entered, the cycle of a capture to come, ports whose loop is open,
cycles of the mailbox requests of the last ms, whether the waiting request has
been counted as held back, SM0 and SM1 full, a segmented transfer, the nanoseconds captured for 0x2200:03, the last plan
record, the receive times latched at the two ports (R273), a message that waits for SM1 to empty (R448). -/
structure EcsSt where
  err : Bool
  dict : Tbl Nat
  sm2 : List Byte
  fresh : Bool
  sm2At : Nat
  sync0 : Option Nat
  missOp : Nat
  capDue : Option Nat
  open_ : List Bool
  taken : List Nat
  held : Bool
  inFull : Bool
  outFull : Bool
  seg : Option SdoSeg
  nsLatch : Option Nat
  plan : List Byte
  rxTime : List (Option Nat)
  late : Option (List Byte)
  deriving DecidableEq, Repr

/-- An Ethernet port beside its registers (R468–R470): the ms window and the frames accepted in it, and whether a frame
is being sent. -/
structure EthPort where
  win : Nat
  n : Nat
  sending : Bool
  deriving DecidableEq, Repr

/-- A Causeway link beside its registers (R480-R482): SEQ of the next flit sent and of the next expected, the replay
buffer oldest first, flits that wait for room or for training, the SEQ the last NAKs named and how many named it, the
Bandstand cycles in which flits that are still to be delivered were first discarded, by SEQ, the cycle in which the link
left UP, the remote read slots outstanding on it then (R482). -/
structure CwyLink where
  txSeq : Nat
  rxSeq : Nat
  replay : List (Nat × List Byte)
  queue : List (List Byte)
  nakSeq : Nat
  nakRun : Nat
  nakAt : Tbl Nat
  downAt : Option Nat
  lost : List Nat
  deriving DecidableEq, Repr

/-- Causeway beside its registers: the links, the cycle in which training began, the cycle of the last time exchange,
modules reached the other way round a ring (R484). -/
structure Cwy where
  links : Tbl CwyLink
  trainAt : Nat
  timeAt : Nat
  flips : List Nat
  deriving DecidableEq, Repr

/-- A time step accepted and not yet executed (R274, R489): the Bandstand cycle of the step, or none where a cascade
executes it at an instant of presented time in ns; GO's REL and MODE, the values, and whether it came late. -/
structure StepDue where
  cyc : Option Nat
  instant : Nat
  rel : Bool
  mode : Bool
  sec : Nat
  ns : Nat
  frac : Nat
  deriving DecidableEq, Repr

/-- A security operation that runs (R529): the SEC_CMD value, the result it will end with, DST, what it read from SRC. -/
structure SecOp where
  cmd : Nat
  result : Nat
  dst : Nat
  data : List Byte
  deriving DecidableEq, Repr

/-- The power manager and the boot ROM beside their registers (R506, R507, R512, R522–R537): start-up phase (0 off, 1
VIN has risen, 2 clocks locked, 3 boot ROM, 4 started, 5 boot failed), PGOOD, the image that loads and the candidates
after it, the cycle since which TCP is above 80 °C, over and under, causes for the next LASTOFF, the shutdown in
progress (cycle of its instant 1, next action 2 to 4, and whether RESET_N started it), whether a thermal trip holds the
next start, the cycle of Dormant acceptance, the wake event's cycle and steps done, peripheral supplies switched off
(VCAM 0–11, VIMU 12–15) with the cycle, supplies on, and timed I/O outputs and FSYNC driven low; whether VIN has yet to
rise after a brown-out trip (R506), the last 100 µs and 10 ms periods sampled (R507, R537), and the cycle of L's last
change with L before it (R538). -/
structure Power where
  phase : Nat
  pgood : Bool
  boot : Option (Nat × List Nat)
  hotAt : Option Nat
  overN : Nat
  underN : Nat
  causes : Nat
  trip : Option (Nat × Nat × Bool)
  hotHold : Bool
  dormAt : Option Nat
  wakeAt : Option (Nat × Nat)
  supOff : Tbl Nat
  supOn : Bool
  linesLow : Bool
  vinLow : Bool
  sampled : Nat
  heated : Nat
  lvlAt : Nat × Nat
  deriving DecidableEq, Repr


/-- The state. -/
structure State where
  /-- Commands that wait, first in, first out. -/
  pending : List Instr
  /-- The register file: active values by address; an unlisted register holds its reset value. -/
  regs : Tbl Word64
  /-- Held copies of shadowed registers (R17). -/
  heldRegs : Tbl Word64
  /-- Pending sets by shadow group key (R18). -/
  pendSets : Tbl (Tbl Word64)
  /-- Captured upper halves (R9, R271). -/
  caps : List Half
  /-- Held lower halves, at most one per initiator (R9). -/
  holds : List Half
  /-- Memory of every tier and private store, in canonical form. -/
  mem : List Host.Cell
  /-- The answer of the last access (the model's own field). -/
  bus : Reply
  /-- Counter of free values (the model's own field). -/
  free : Nat
  /-- Bandstand cycles since the always-on clocks locked (R268, R512). -/
  cyc : Nat
  /-- The time accumulator SEC, NS and fraction, as one number of 2^-32 ns (R268). -/
  acc : Nat
  /-- The fuses (R513). -/
  fuses : Fuses
  /-- The interrupt controller (R385). -/
  icu : IcuState
  /-- The MSI-X table (R474). -/
  msix : MsixState
  /-- Emergency messages waiting for the mailbox, at most eight (R459). -/
  emcy : List Emergency
  /-- The Belvedere cycle of the last advance of the recovery epoch (R545). -/
  epochCyc : Option Nat
  /-- What has left the device (the model's own field). -/
  outbox : List OutMsg
  /-- STORE tiles that their tiers have not acknowledged (R90, R91). -/
  acks : List StoreAck
  /-- The physical cores beside their registers (R68-R112); an unlisted core is idle. -/
  cores : Tbl Core
  /-- The page pools beside their registers (R163-R174). -/
  pools : Tbl Pool
  /-- Requests to the page pool controller in the order in which it serves them (R173). -/
  kvpQueue : List PageReq
  /-- The placement table by object index; the directory follows from it (R178, R183, R184). -/
  plt : Tbl PltEntry
  /-- Migrations in progress and deferred evicts, by object (R192, R195). -/
  migs : Tbl Migration
  /-- Step tags in use: committed bits and publication logs (R199, R200). -/
  tags : Tbl TagState
  /-- Poisoned 32-byte blocks of protected memory, by place / 32 (R206, R210). -/
  poison : List Nat
  /-- Bandstand cycle of the last LPDDR5X scrub tile (R210). -/
  scrubSince : Nat
  /-- Bandstand cycle of the last scrub of each control PSRAM device (R211). -/
  psScrubSince : Tbl Nat
  /-- A write of 0 to MEM_PLT_CTRL_ENABLE waits for the last migration (R214). -/
  pltDisabling : Bool
  /-- The scheduler beside its registers (R219-R253). -/
  sched : Sched
  /-- The fusion unit and the sensor front beside their registers (R294-R326). -/
  fus : Fusion
  /-- The batch that the solver runs (R327-R349). -/
  batch : Option Batch
  /-- Trellis beside its registers (R352-R373). -/
  trl : Trellis
  /-- The control loops beside their registers (R401-R409); an unlisted loop has never been enabled. -/
  loops : Tbl LoopSt
  /-- Bandstand cycle of the last firing on each compare destination: firings of one cycle are one event (R289). -/
  destSeen : Tbl Nat
  /-- Bandstand cycle of each loop group's last accepted boundary (R396). -/
  grpLast : Tbl Nat
  /-- Each control hart's watchdog: the cycle it counts from, and whether it has expired once since (R381). -/
  wdog : Tbl (Nat × Bool)
  /-- Timed I/O pins whose last capture has not been read (R394). -/
  tioUnread : Nat
  /-- Compare pulses in force (R289). -/
  pulses : List Pulse
  /-- One-shot compare units armed on a past target: the cycle from which they fire, late (R287). -/
  cmpLate : Tbl Nat
  /-- A time step accepted and not yet executed (R274, R489). -/
  stepDue : Option StepDue
  /-- The Bandstand cycle of the last step that executed (R275). -/
  stepAt : Option Nat
  /-- Rate corrections computed and not yet applied: cycle, y, I (R280). -/
  rates : List (Nat × Int × Int)
  /-- Cycle of the last sample or refresh of each time source (R282). -/
  srcSeen : Tbl Nat
  /-- Consecutive samples within and beyond LOCKTHR (R281). -/
  lockRun : Nat × Nat
  /-- The reflex arrays beside their registers (R412-R426). -/
  rfx : Reflex
  /-- The Sluice lanes beside their registers (R427-R436); an unlisted lane is idle. -/
  lanes : Tbl Lane
  /-- The MainDevice segments beside their registers (R460-R466); an unlisted segment is idle. -/
  segs : Tbl Seg
  /-- The EtherCAT SubDevice beside its registers (R445–R459). -/
  ecs : EcsSt
  /-- The Ethernet ports beside their registers (R468–R470). -/
  eths : Tbl EthPort
  /-- Causeway beside its registers (R478-R491). -/
  cwy : Cwy
  /-- The security operation that runs (R529). -/
  secOp : Option SecOp
  /-- The power manager and the boot ROM beside their registers (R506, R507, R512, R522–R537). -/
  pwr : Power
  /-- A telemetry snapshot whose write has not been acknowledged (R551). -/
  telWaiting : Bool
  /-- The generators of the perturbation units (R554). -/
  lfsr : List Nat
  /-- Causeway flits that a successful draw still discards, by link (R554). -/
  burst : Tbl Nat
  /-- A Bandstand cycle, and by register the bits that the device set in it: a write of 1 in that cycle clears none of
  them (R11). -/
  fresh : Nat × Tbl Nat
  /-- The Bandstand cycle of the violation that DGN_VIO_LAST records (R544). -/
  vioAt : Option Nat
  /-- The directory units, and the table indices from 2^24 on, that the lookup cache holds, newest first (R179). -/
  cache : List Nat
  /-- Accesses that wait for a MAINT slot to end, in order of arrival (R223, R250). -/
  held : List HeldAccess
  deriving DecidableEq, Repr

/-- The fuses of a grade A part, stepping B1, in DEVELOP, with Sirsol's keys in slot 0 (DESIGN CHOICE, log
entry 3: the spec gives the fuses no one value). -/
def fusesReset : Fuses :=
  { secret := 1, serial := 1, grade := 0x0A, stepping := 0xB1, cores := 8, memGib := 64, phys := 0xFF, lc := 1
    khRsa := [(0, true), (0, false), (0, false), (0, false)]
    khSlh := [(0, true), (0, false), (0, false), (0, false)]
    revoke := 0, rollback := 0, protWin := [0, 0, 0, 0, 0, 0, 0, 0], protDbg := 0, protPert := 0
    protMark := false }
/-- A core with no step: planes empty, clock at P0 from cycle 0. -/
def Core.idle : Core :=
  { job := none, stream := 0, fetched := [], fetchPos := 0, fetchStop := false, fetchAt := 0, hold := none
    commitDone := false, queues := [], pathNext := [], dispNo := 0, active := none, shadow := none, shadowSt := 0
    reload := none, redo := [], vact := none, vnxt := [], epoch := 0, killing := false, killed := none, xfer := [], restoring := false
    clkAt := 0, clkAcc := 0, plevel := 0, maint := false, relockEnd := none, since := 0, moves := [] }

/-- The built-in timetable of R222: 15 COMPUTE slots of 64 us and a MAINT slot of 40 us. -/
def builtInSlots : List TtSlot :=
  List.replicate 15 { len := 64000, kind := 0, plevel := 0, pcores := 0xFF, ctxmask := 2 ^ 64 - 1 } ++
    [{ len := 40000, kind := 1, plevel := 0, pcores := 0xFF, ctxmask := 2 ^ 64 - 1 }]

/-- The scheduler before its first enable. -/
def schedReset : Sched :=
  { slots := builtInSlots, frameNs := 1000000, phaseNs := 0, slot := 0, slotEnd := 0, snaps := [], steps := []
    startNo := 0, remote := [], boundary := 0, due := none }

/-- The pose before the first EGO output: the origin, no rotation, at rest (DESIGN CHOICE, log entry 30). -/
def poseReset : List Word32 := [0#32, 0#32, 0#32, 0x3F800000#32] ++ List.replicate 9 0#32

/-- The fusion unit before its tables are latched. -/
def fusionReset : Fusion :=
  { tables := none, k := 0, nextO := 0, latchedAt := 0, slotDone := false, grid := none, lastSlot := none, lastGrid := none, chans := []
    slots := []
    ego := { pose := poseReset, kept := [], imu := [], running := none, result := none, warm := [] }
    calib := [], spi := [], conv := none }
/-- Trellis with no bank. -/
def trellisReset : Trellis :=
  { bank := none, load := none, hits := [], blk := 0, cur := [], tov := [], ingest := none, ingested := 0, g := []
    rhs := [], succ := [], km := 0, start := none, goals := [], queue := [], repair := [], repairDue := false, req := none, busy := 0
    outBusy := 0, prev := none }

/-- The machine right after reset: instant 3 of R512, the always-on clocks locked and Bandstand at zero in
wrap mode; every register at its reset value, memory listing nothing, no command waiting. -/
def State.reset : State :=
  { pending := [], regs := [], heldRegs := [], pendSets := [], caps := [], holds := [], mem := []
    bus := .none, free := 0,
    cyc := 0,
    acc := 0,
    fuses := fusesReset,
    icu := { pend := [], stk := [] },
    msix := { masked := List.range 32, pend := [], table := [], barLog := 36 },
    emcy := [],
    epochCyc := none,
    outbox := [],
    acks := [],
    cores := [],
    pools := [],
    kvpQueue := [],
    plt := [],
    migs := [],
    tags := [],
    poison := [],
    scrubSince := 0,
    psScrubSince := [],
    pltDisabling := false,
    sched := schedReset,
    fus := fusionReset,
    batch := none,
    trl := trellisReset,
    loops := [],
    destSeen := [],
    grpLast := [],
    wdog := [],
    tioUnread := 0,
    pulses := [],
    cmpLate := [],
    stepDue := none,
    stepAt := none,
    rates := [],
    srcSeen := [],
    lockRun := (0, 0),
    rfx := { hist := List.replicate 8 [], convs := [], lastConv := none, evals := [], latched := [], undef := [] },
    lanes := [],
    segs := [],
    ecs := { err := false, dict := [], sm2 := [], fresh := false, sm2At := 0, sync0 := none, missOp := 0, capDue := none, open_ := [true, true], taken := [], held := false, inFull := false, outFull := false, seg := none, nsLatch := none, plan := [], rxTime := [none, none], late := none },
    eths := [],
    cwy := { links := [], trainAt := 0, timeAt := 0, flips := [] },
    secOp := none,
    pwr := { phase := 2, pgood := false, boot := none, hotAt := none, overN := 0, underN := 0, causes := 0, trip := none, hotHold := false, dormAt := none, wakeAt := none, supOff := [], supOn := false, linesLow := false, vinLow := false, sampled := 0, heated := 0, lvlAt := (0, 0) },
    telWaiting := false,
    lfsr := [1, 1, 1, 1],
    burst := [],
    fresh := (0, []),
    vioAt := none,
    cache := [],
    held := [] }

end Sys2Proof.Machine
end

