-- ==== Sys2Proof/Machine/Ops.lean ====
section
/-! DEFINITION. The named operations over registers, memory and time that every block's rules use. -/

namespace Sys2Proof.Machine

open Sys2Proof

/-! ### The register file -/

/-- Indices of a register array that offset `ofs` falls on, and what remains (R40). -/
def dimIndex (ofs : Nat) : List (Nat × Nat) → Option (List Nat × Nat)
  | [] => some ([], ofs)
  | (count, stride) :: ds =>
    if ofs / stride < count then
      match dimIndex (ofs % stride) ds with
      | some (is, r) => some (ofs / stride :: is, r)
      | none => none
    else none

/-- The register of a block's table that address `a` names: its descriptor, its indices, and whether `a` is
the upper half of a 64-bit register. -/
def rowAt (a : Nat) : List RegDesc → Option (RegDesc × List Nat × Bool)
  | [] => none
  | d :: ds =>
    if d.base ≤ a then
      match dimIndex (a - d.base) d.dims with
      | some (is, 0) => some (d, is, false)
      | some (is, r) => if r = 4 ∧ d.width = 64 then some (d, is, true) else rowAt a ds
      | none => rowAt a ds
    else rowAt a ds

/-- The register an address of the register blocks names (R40). -/
def regAt (a : Nat) : Option (RegDesc × List Nat × Bool) :=
  match Reg.blocks.find? fun b => b.1 = a / 0x1000000 * 0x1000000 with
  | some (_, t) => rowAt a t
  | none => none

/-- Sources whose EDGE resets to 1: the kind P of R392, R442 and R477. -/
def edgeReset (src : Nat) : Bool :=
  (41 ≤ src && src ≤ 43) || (52 ≤ src && src ≤ 60) || src == 65 || src == 66 || (72 ≤ src && src ≤ 75) ||
  (192 ≤ src && src ≤ 223) || (256 ≤ src && src ≤ 511) || (512 ≤ src && src ≤ 575)

/-- The reset value of the register at an address: its table's, or the rule the table refers to (hart 0
runs, context 0's window, EDGE by R392). -/
def regReset (a : Nat) : Word64 :=
  if a = Reg.BLV_HART_CTL 0 then 1#64
  else if a = Reg.SCH_CTX_WIN 0 then 0x0100000000000000#64
  else if Reg.BLV_ICU_SRC 0 ≤ a ∧ a < Reg.BLV_ICU_SRC 1024 then
    (if edgeReset ((a - Reg.BLV_ICU_SRC 0) / 4) then 0x800#64 else 0#64)
  else match regAt a with
    | some (d, _, _) => BitVec.ofNat 64 d.reset
    | none => 0#64

/-- The active value of a register. -/
def State.rd (s : State) (a : Nat) : Word64 := tgetD s.regs a (regReset a)

/-- Set the active value of a register. -/
def State.wr (s : State) (a : Nat) (v : Word64) : State := { s with regs := tset s.regs a v }

/-- The value of a register field. -/
def State.get (s : State) (f : Fld) : Nat := bitsOf (s.rd f.addr).toNat f.hi f.lo

/-- Set a register field, the other bits unchanged. -/
def State.put (s : State) (f : Fld) (v : Nat) : State :=
  s.wr f.addr (BitVec.ofNat 64 (withBits (s.rd f.addr).toNat f.hi f.lo v))

/-- A one-bit field reads 1. -/
def State.on (s : State) (f : Fld) : Bool := s.get f == 1

/-- Bits of a register that the device has set in the present cycle (R11). -/
def State.freshBits (s : State) (a : Nat) : Nat := if s.fresh.1 = s.cyc then tgetD s.fresh.2 a 0 else 0

/-- Remember that the device sets bits of a register in the present cycle. -/
def State.note (s : State) (a bits : Nat) : State :=
  { s with fresh := (s.cyc, tset (if s.fresh.1 = s.cyc then s.fresh.2 else []) a (s.freshBits a ||| bits)) }

/-- The device sets bits of a field: event and condition bits, which a write of 1 in the same cycle does not clear
(R11). -/
def State.raise (s : State) (f : Fld) (bits : Nat) : State :=
  (s.put f (s.get f ||| bits)).note f.addr (bits * 2 ^ f.lo)

/-- Set a one-bit field: an event bit, a status bit. -/
def State.setOn (s : State) (f : Fld) : State := (s.put f 1).note f.addr (2 ^ f.lo)

/-- Clear a field. -/
def State.setOff (s : State) (f : Fld) : State := s.put f 0

/-- Add to a 32-bit counter, which saturates (R114, R213, R255). -/
def State.count (s : State) (f : Fld) (d : Nat) : State :=
  s.put f (satAdd (f.hi + 1 - f.lo) (s.get f) d)

/-- Add to a counter that wraps: the 64-bit ones, and those the manual calls wrapping. -/
def State.countWrap (s : State) (f : Fld) (d : Nat) : State := s.put f (s.get f + d)

/-- The signed value of a field. -/
def State.getInt (s : State) (f : Fld) : Int := signedOf (f.hi + 1 - f.lo) (s.get f)

/-- Set a field to the two's-complement code of an integer. -/
def State.putInt (s : State) (f : Fld) (i : Int) : State := s.put f (codeOf (f.hi + 1 - f.lo) i)

/-! ### Memory -/

/-- Byte at a place; a byte nothing has written reads 0 (DESIGN CHOICE, log entry 2). -/
def memGet : List Host.Cell → Nat → Byte
  | [], _ => 0#8
  | (k, b) :: m, a => if k = a then b else memGet m a

/-- Memory with one byte written, in canonical form. -/
def memSet : List Host.Cell → Nat → Byte → List Host.Cell
  | [], a, v => if v = 0#8 then [] else [(a, v)]
  | (k, b) :: m, a, v =>
    if a < k then (if v = 0#8 then (k, b) :: m else (a, v) :: (k, b) :: m)
    else if a = k then (if v = 0#8 then m else (a, v) :: m)
    else (k, b) :: memSet m a v

/-- The canonical form: addresses strictly rising, no entry equal to what an unlisted byte reads as. -/
def Memory.wf : List Host.Cell → Bool
  | [] => true
  | [(_, b)] => b != 0#8
  | (a, b) :: (a', b') :: m => b != 0#8 && a < a' && Memory.wf ((a', b') :: m)

/-- `n` bytes from a place on. -/
def State.load (s : State) (a n : Nat) : List Byte := (List.range n).map fun i => memGet s.mem (a + i)

/-- Bytes written from a place on, ascending. -/
def memWrite (m : List Host.Cell) (a : Nat) : List Byte → List Host.Cell
  | [] => m
  | b :: bs => memWrite (memSet m a b) (a + 1) bs

/-- Write bytes from a place on. -/
def State.store (s : State) (a : Nat) (bs : List Byte) : State := { s with mem := memWrite s.mem a bs }

/-- Little-endian number of `n` bytes at a place. -/
def State.loadNat (s : State) (a n : Nat) : Nat := leNat (s.load a n)

/-- Places of the tiers and private stores. The areas are apart: no offset reaches the next area. -/
def areaBase (area : Nat) : Nat := area * 2 ^ 80

/-- Areas beyond the tier codes of R184: the control harts' TCMs, the shared SRAM, the control PSRAM data,
the engine's reflex weight banks, the Trellis SRAM, the flash. -/
def areaTcm : Nat := 16
def areaShared : Nat := 17
def areaPsram : Nat := 18
def areaWeights : Nat := 19
def areaFlash : Nat := 20

/-- Place of byte `ofs` of an object in a tier (R184, R185): SPAD by core, store and unit; the others by
unit or host address. -/
def tierPlace (tier taddr ofs : Nat) : Nat :=
  if tier = 1 then
    areaBase 1 + (bitsOf taddr 15 11) * 2 ^ 32 + (bitsOf taddr 8 0) * 65536 + ofs
  else areaBase tier + taddr * 65536 + ofs

/-- Place of byte `ofs` of a store of a physical core: stores 0 W, 1 A, 2 P. -/
def spadPlace (core store ofs : Nat) : Nat := areaBase 1 + (core * 4 + store) * 2 ^ 32 + ofs

/-- Place of a byte of LPDDR5X physical space. -/
def ddrPlace (pa : Nat) : Nat := areaBase 3 + pa

/-- A fresh undetermined run of bytes at a place, and the state with the counter advanced. -/
def State.scramble (s : State) (a n : Nat) : State :=
  { s.store a ((List.range n).map fun i => Config.freeByte s.free (a + i)) with free := s.free + 1 }

/-! ### Time -/

/-- Bandstand time runs in epoch mode (R269). -/
def State.epochMode (s : State) : Bool := s.on Reg.TIM_CTRL_MODE

/-- Nanoseconds of the accumulator, SEC × 10^9 + NS (R268). -/
def State.accNs (s : State) : Nat := s.acc / 2 ^ 32

/-- The wrap-mode value W (R269). -/
def State.wrapNs (s : State) : Nat := s.accNs % 2 ^ 32

/-- Presented time in its seconds form, in ns (R269). -/
def State.nowNs (s : State) : Nat := if s.epochMode then s.accNs else s.wrapNs

/-- Presented fraction in 2^-16 ns: the upper 16 bits of the fraction. -/
def State.nowFrac (s : State) : Nat := s.acc / 2 ^ 16 % 2 ^ 16

/-- Presented time in 2^-16 ns. -/
def State.now16 (s : State) : Nat := s.nowNs * 65536 + s.nowFrac

/-- Presented time as a Causeway port captures it: the fraction a multiple of 0x4000, 250 ps (R273). -/
def State.linkTime (s : State) : Nat := s.now16 / 0x4000 * 0x4000

/-- A TS128 timestamp (R272) of an instant in 2^-16 ns. -/
def ts128 (wrap : Bool) (t16 : Nat) : List Byte :=
  let ns := t16 / 65536
  leBytes 8 (ns / 1000000000 % 2 ^ 48 + (t16 % 65536) * 2 ^ 48) ++
    leBytes 8 (ns % 1000000000 + ofBool wrap * 2 ^ 30 + 2 ^ 31)

/-- The timestamp of the present instant. -/
def State.tsNow (s : State) : List Byte := ts128 (!s.epochMode) s.now16

/-- The timestamp of the present nanosecond with no fraction, as the 1 ns ports take it (R273). -/
def State.tsNowNs (s : State) : List Byte := ts128 (!s.epochMode) (s.nowNs * 65536)

/-- TNS and TSEC of R227: nanoseconds in [29:0], the low 32 bits of the seconds in [63:32]. -/
def State.tnsTsec (s : State) : Nat :=
  s.nowNs % 1000000000 + (s.nowNs / 1000000000 % 2 ^ 32) * 2 ^ 32

/-- Cycles of the 1.600 GHz Boardwalk clock since the clocks locked. -/
def State.bwkCyc (s : State) : Nat := s.cyc * 16 / 10

/-- Cycles of the 1.200 GHz Belvedere clock since the clocks locked. -/
def State.blvCyc (s : State) : Nat := s.cyc * 12 / 10

/-- Cycles of the 1.500 GHz solver island clock since the clocks locked. -/
def State.slvCyc (s : State) : Nat := s.cyc * 15 / 10

/-- Bandstand cycles in which `n` cycles of a clock of `tenths`/10 GHz have passed. -/
def cycFor (n tenths : Nat) : Nat := ceilDiv (n * 10) tenths

/-- Append what leaves the device. -/
def State.send (s : State) (m : OutMsg) : State := { s with outbox := s.outbox ++ [m] }

/-- The answer of an access. -/
def State.answer (s : State) (r : Reply) : State := { s with bus := r }

end Sys2Proof.Machine
end

