-- ==== Sys2Proof/Machine/Flags.lean ====
section
/-! DEFINITION. Events and flags: the level lines of the interrupt sources, PENDING, pulses, MSI-X, violations,
the recovery epoch, emergencies, and the settling of interrupt lines that ends every command. -/

namespace Sys2Proof.Machine

open Sys2Proof Sys2Proof.Machine.Reg

/-- Some event bit that its enable register selects is non-zero. -/
def State.evtLine (s : State) (evt en : Nat) : Bool :=
  (s.rd evt &&& s.rd en) != 0#64

/-- The input line of a level origin (R392, R442, R477, R494, R541, R558); a source with no level origin
has its line low. -/
def levelLine (s : State) (src : Nat) : Bool :=
  if 1 ≤ src ∧ src ≤ 8 then s.evtLine (TC_EVT (src - 1)) (TC_EVT_EN (src - 1))
  else if 9 ≤ src ∧ src ≤ 16 then s.evtLine (SCH_KVP_EVT (src - 9)) (SCH_KVP_EVT_EN (src - 9))
  else if 32 ≤ src ∧ src ≤ 39 then
    (s.get BLV_CLE_GRP_EVT_DONE).testBit (src - 32) && (s.get BLV_CLE_GRP_EVT_EN_MASK).testBit (src - 32)
  else if 68 ≤ src ∧ src ≤ 71 then s.evtLine (FLD_ECM_EVT (src - 68)) (FLD_ECM_EVT_EN (src - 68))
  else if 76 ≤ src ∧ src ≤ 80 then s.evtLine (FLD_ETH_EVT (src - 76)) (FLD_ETH_EVT_EN (src - 76))
  else match src with
  | 17 => s.evtLine MEM_EVT MEM_EVT_EN
  | 18 => s.evtLine MEM_PLT_EVT MEM_PLT_EVT_EN
  | 19 => s.evtLine SCH_EVT SCH_EVT_EN
  | 20 => s.evtLine TIM_EVT TIM_EVT_EN
  | 21 => s.evtLine TIM_CMP_EVT TIM_CMP_EVT_EN
  | 22 => s.evtLine FUS_EVT FUS_EVT_EN
  | 23 => s.evtLine SLV_EVT SLV_EVT_EN
  | 24 => s.evtLine TRL_EVT TRL_EVT_EN
  | 40 => s.evtLine BLV_CLE_EVT BLV_CLE_EVT_EN ||
      ((s.get BLV_CLE_EVT_EN_MASK).testBit 3 && s.get BLV_CLE_PLAUS_MASK != 0)
  | 48 => s.evtLine RFX_EVT RFX_EVT_EN
  | 49 => (s.get RFX_EVT_EN_MASK).testBit 6 && s.get RFX_DUAL_MIS_MASK != 0
  | 50 => s.evtLine SLC_EVT SLC_EVT_EN
  | 64 => s.evtLine FLD_ECS_EVT FLD_ECS_EVT_EN
  | 81 => s.evtLine FLD_PCI_EVT FLD_PCI_EVT_EN
  | 128 => s.evtLine CWY_EVT CWY_EVT_EN
  | 144 => s.evtLine SEC_EVT SEC_EVT_EN
  | 145 => s.evtLine PWR_EVT PWR_EVT_EN
  | 160 => s.evtLine DGN_EVT DGN_EVT_EN
  | _ => false

/-- The sources with a level origin, the diagnostics source last: a merge that settling counts can raise
it (R550, R558). -/
def levelSources : List Nat :=
  List.range' 1 24 ++ List.range' 32 9 ++ [48, 49, 50, 64, 68, 69, 70, 71, 76, 77, 78, 79, 80, 81, 128,
    144, 145, 160]

/-- PENDING of a source (R385): the stored bit of a pulse source, the line of a level source. -/
def icuPending (s : State) (src : Nat) : Bool :=
  if s.on (BLV_ICU_SRC_EDGE src) then src ∈ s.icu.pend else levelLine s src

/-- ACTIVE of a source: it stands on a stack (R387, R388). -/
def icuActive (s : State) (src : Nat) : Bool :=
  s.icu.stk.any fun p => p.2.any fun e => e.1 = src

/-- An input pulse of a source (R385): a pulse source becomes PENDING, and a pulse that finds it PENDING
merges, counted (R550). On a level source a pulse lasts one cycle, in which no claim falls. -/
def State.pulse (s : State) (src : Nat) : State :=
  if s.on (BLV_ICU_SRC_EDGE src) then
    if src ∈ s.icu.pend then (s.count DGN_CNT_MERGE_VALUE 1).setOn DGN_EVT_MERGE
    else { s with icu := { s.icu with pend := src :: s.icu.pend } }
  else s

/-- MSI-X vector `v` is sent, or its pending bit set while it is masked (R474). -/
def State.msixFire (s : State) (v : Nat) : State :=
  if v ∈ s.msix.masked then
    (if v ∈ s.msix.pend then s else { s with msix := { s.msix with pend := v :: s.msix.pend } })
  else s.send (.msix v)

/-- Rising level lines act as pulses on sources whose EDGE firmware has set (R385). -/
def settleEdges (s0 s1 : State) : State :=
  levelSources.foldl (fun s src =>
    if levelLine s src && !levelLine s0 src && s.on (BLV_ICU_SRC_EDGE src) then s.pulse src else s) s1

/-- Vectors whose source became PENDING (R474). -/
def settleMsix (s0 s1 : State) : State :=
  forUpTo 32 (fun v s =>
    let src := s.get (FLD_PCI_VEC_SRC v)
    if s.on (FLD_PCI_VEC_EN v) && icuPending s src && !icuPending s0 src then s.msixFire v else s) s1

/-- What follows every command: interrupt lines settle against the state before it. -/
def settle (s0 s1 : State) : State := settleMsix s0 (settleEdges s0 s1)

/-- A command's outcome: its effect on everything but the queue, then the interrupt lines settle. The security engine is
the only writer of the fuses (R513), so every other command leaves them. Without power (R531), and before the clocks lock
(R512), nothing happens. -/
def finish (s0 s1 : State) : Host.Outcome State Fault Refusal :=
  .next (if s0.pwr.phase < 2 then s0 else { settle s0 s1 with pending := s0.pending, fuses := s0.fuses })

/-- The outcome of a command of the security engine, or of a trip that interrupts it: the fuses become `f`. -/
def finishFuses (f : Fuses) (s0 s1 : State) : Host.Outcome State Fault Refusal :=
  .next (if s0.pwr.phase < 2 then s0 else { settle s0 s1 with pending := s0.pending, fuses := f })

/-! ### Violations (R24–R26, R543, R544) -/

/-- Code of DGN_VIO_LAST_INIT. -/
def initCode : Initiator → Nat
  | .app _ => 1
  | .ctl _ => 2
  | .pcie => 3

/-- The context an initiator acts for (R217). -/
def ctxOf (s : State) : Initiator → Nat
  | .app h => bitsOf (s.rd SCH_HART_CTX).toNat (8 * h + 5) (8 * h)
  | .ctl _ => 0
  | .pcie => s.get SCH_PCI_CTX_ID

/-- The STEP bit of an initiator (R217). -/
def stepBitOf (s : State) : Initiator → Bool
  | .app h => bitOf (s.rd SCH_HART_CTX).toNat (8 * h + 6)
  | .ctl _ => false
  | .pcie => s.on SCH_PCI_CTX_STEP

/-- DGN_VIO_LAST of a violation, but for VALID. -/
def vioWord (cause init ctx addr : Nat) (write : Bool) : Nat :=
  ctx % 64 * 2 ^ 56 + init % 8 * 2 ^ 52 + ofBool write * 2 ^ 51 + cause % 8 * 2 ^ 48 + addr % 2 ^ 48

/-- The violation recorded earlier in this cycle stays: its INIT code is lower, or its address among equal codes
(R544). -/
def vioKeeps (s : State) (init addr : Nat) : Bool :=
  s.vioAt == some s.cyc && s.on DGN_VIO_LAST_VALID &&
    (s.get DGN_VIO_LAST_INIT < init % 8 || (s.get DGN_VIO_LAST_INIT == init % 8 && s.get DGN_VIO_LAST_ADDR ≤ addr % 2 ^ 48))

/-- A violation is counted and recorded (R26, R544). -/
def State.violation (s : State) (cause init ctx addr : Nat) (write : Bool) : State :=
  let s := s.count (DGN_VIO_CNT_VALUE cause) 1
  let s := s.count DGN_VIO_TOTAL_VALUE 1
  let s := if vioKeeps s init addr then s
    else { s.wr DGN_VIO_LAST (BitVec.ofNat 64 (2 ^ 63 + vioWord cause init ctx addr write)) with vioAt := some s.cyc }
  s.setOn DGN_EVT_VIO

/-! ### Emergencies and the recovery epoch -/

/-- An Emergency message is queued; a ninth is counted and lost (R459). -/
def State.emergency (s : State) (code data : Nat) : State :=
  if s.emcy.length < 8 then { s with emcy := s.emcy ++ [{ code := code, data := data }] }
  else (s.count (FLD_ECS_CNT_VALUE 7) 1).setOn FLD_ECS_EVT_EMCYLOST

/-- An event of R545: the epoch advances once in a Belvedere cycle, CAUSE holding the events of that cycle;
the emergency and the event follow R546. -/
def State.epochEvent (s : State) (bit : Nat) : State :=
  if s.epochCyc = some s.blvCyc then
    s.put DGN_EPOCH_CAUSE_MASK (s.get DGN_EPOCH_CAUSE_MASK ||| 2 ^ bit)
  else
    let e := s.get DGN_EPOCH_VALUE
    let e' := if e = 0xFFFFFFFF then 1 else e + 1
    let s := (s.put DGN_EPOCH_VALUE e').put DGN_EPOCH_CAUSE_MASK (2 ^ bit)
    let s := { s with epochCyc := some s.blvCyc }
    (s.emergency 0xFF05 e').setOn DGN_EVT_EPOCH

/-- A wake event (R532, R535): source 0 WAKE_N, 1 an AL control request, 2 the compare unit, where PWR_WAKE enables it. -/
def State.wake (s : State) (src : Nat) : State :=
  let st := s.get PWR_STAT_STATE
  if (st ≠ 2 ∧ st ≠ 3) ∨ 3 ≤ src ∨ !(s.rd PWR_WAKE).toNat.testBit src then s
  else { s.put PWR_STAT_STATE 4 with pwr := { s.pwr with dormAt := none, wakeAt := some (s.cyc, 0) } }

end Sys2Proof.Machine
end

