-- ==== Sys2Proof/Machine/Shadow.lean ====
section
/-! DEFINITION. Shadow groups: held copies, pending sets and latches (R17–R22), and the CRCs of the manual
(R340, R428, R479, R490). -/

namespace Sys2Proof.Machine

open Sys2Proof Sys2Proof.Machine.Reg

/-- The key of a group's pending set: 0 timetable, 1 servo, 2 fusion, 3 Trellis, 4 reflex bindings, 16 + c the
compare unit c. -/
def groupKey (g : ShadowGroup) (c : Nat) : Nat :=
  match g with
  | .tt => 0 | .srv => 1 | .fus => 2 | .trl => 3 | .rfx => 4 | .cmp => 16 + c

/-- Shadowed bits of a register. -/
def shadowMask (d : RegDesc) : Nat :=
  d.fields.foldl (fun m f => match f.kind with
    | .shadowed => m ||| ((2 ^ (f.hi + 1) - 1) - (2 ^ f.lo - 1))
    | _ => m) 0

/-- Addresses of a register array, and their first index. -/
def descAddrs (d : RegDesc) : List (Nat × Nat) :=
  match d.dims with
  | [] => [(d.base, 0)]
  | (n, st) :: rest =>
    (List.range n).flatMap fun i =>
      match rest with
      | [] => [(d.base + i * st, i)]
      | (m, st2) :: _ => (List.range m).map fun j => (d.base + i * st + j * st2, i)

/-- Registers of a group: address, first index, shadowed bits. -/
def groupRegs (g : ShadowGroup) : List (Nat × Nat × Nat) :=
  (Reg.blocks.flatMap fun b => b.2.filter fun d => d.group = some g).flatMap fun d =>
    (descAddrs d).map fun a => (a.1, a.2, shadowMask d)

/-- Registers of the group with a key. -/
def keyRegs (k : Nat) : List (Nat × Nat) :=
  let pick := fun (g : ShadowGroup) (p : Nat → Bool) => ((groupRegs g).filter fun r => p r.2.1).map fun r => (r.1, r.2.2)
  match k with
  | 0 => pick .tt fun _ => true
  | 1 => pick .srv fun _ => true
  | 2 => pick .fus fun _ => true
  | 3 => pick .trl fun _ => true
  | 4 => pick .rfx fun _ => true
  | _ => pick .cmp fun i => i == k - 16

/-- The held copy of a register. -/
def State.heldRd (s : State) (a : Nat) : Word64 := tgetD s.heldRegs a (regReset a)

/-- Set a held copy. -/
def State.heldWr (s : State) (a : Nat) (v : Word64) : State := { s with heldRegs := tset s.heldRegs a v }

/-- A field of a held copy. -/
def State.heldGet (s : State) (f : Fld) : Nat := bitsOf (s.heldRd f.addr).toNat f.hi f.lo

/-- Set a field of a held copy. -/
def State.heldPut (s : State) (f : Fld) (v : Nat) : State :=
  s.heldWr f.addr (BitVec.ofNat 64 (withBits (s.heldRd f.addr).toNat f.hi f.lo v))

/-- A pending set awaits the boundary of a group. -/
def State.isPending (s : State) (k : Nat) : Bool := (tget s.pendSets k).isSome

/-- COMMIT: the held copies are snapshotted into the pending set (R18, R20). -/
def State.snapshot (s : State) (k : Nat) : State :=
  let held := (keyRegs k).foldl (fun t r => tset t r.1 (s.heldRd r.1)) []
  { s with pendSets := tset s.pendSets k held }

/-- A register as the pending set has it. -/
def State.pendRd (s : State) (k a : Nat) : Word64 :=
  match tget s.pendSets k with
  | some t => tgetD t a (s.rd a)
  | none => s.rd a

/-- A field of a register as the pending set has it. -/
def State.pendGet (s : State) (k : Nat) (f : Fld) : Nat := bitsOf (s.pendRd k f.addr).toNat f.hi f.lo

/-- The pending set is given up. -/
def State.dropPending (s : State) (k : Nat) : State := { s with pendSets := tdel s.pendSets k }

/-- The pending set becomes the active copies in one step (R18). -/
def State.latch (s : State) (k : Nat) : State :=
  match tget s.pendSets k with
  | none => s
  | some t =>
    ((keyRegs k).foldl (fun (s : State) r =>
      let v := (tgetD t r.1 (s.rd r.1)).toNat
      let old := (s.rd r.1).toNat
      s.wr r.1 (BitVec.ofNat 64 (old - (old &&& r.2) + (v &&& r.2)))) s).dropPending k

/-! ### CRCs -/

/-- One bit of the CRC-32 of IEEE 802.3, least significant bit first. -/
def crc32Bit (c : Nat) : Nat := if c % 2 = 1 then c / 2 ^^^ 0xEDB88320 else c / 2

/-- One byte of it. -/
def crc32Byte (c : Nat) (b : Byte) : Nat :=
  forUpTo 8 (fun _ c => crc32Bit c) (c ^^^ b.toNat)

/-- The CRC-32 of IEEE 802.3 (R428, R479, R490). -/
def crc32 (bs : List Byte) : Nat := (bs.foldl crc32Byte 0xFFFFFFFF) ^^^ 0xFFFFFFFF

/-- One bit of the CRC-64 of ECMA-182, most significant bit first. -/
def crc64Bit (c : Nat) : Nat :=
  if c / 2 ^ 63 = 1 then (c * 2 % 2 ^ 64) ^^^ 0x42F0E1EBA9EA3693 else c * 2 % 2 ^ 64

/-- The CRC-64 of R340: initial value zero, no final inversion. -/
def crc64 (bs : List Byte) : Nat :=
  bs.foldl (fun c b => forUpTo 8 (fun _ c => crc64Bit c) (c ^^^ (b.toNat * 2 ^ 56))) 0

end Sys2Proof.Machine
end

