-- ==== Sys2Proof/Machine/CwyLink.lean ====
section
/-! DEFINITION. Causeway's link layer: flits, routes, sending with replay (R478–R484). -/

namespace Sys2Proof.Machine

open Sys2Proof Sys2Proof.Machine.Reg

/-- A link with nothing sent or received. -/
def CwyLink.idle : CwyLink :=
  { txSeq := 0, rxSeq := 0, replay := [], queue := [], nakSeq := 0, nakRun := 0, nakAt := [], downAt := none, lost := [] }

/-- A link beside its registers. -/
def cwyLink (s : State) (k : Nat) : CwyLink := tgetD s.cwy.links k CwyLink.idle

/-- Replace it. -/
def State.setCwyLink (s : State) (k : Nat) (l : CwyLink) : State :=
  { s with cwy := { s.cwy with links := tset s.cwy.links k l } }

/-! ### Flits (R479) -/

/-- The header of a flit. -/
def flitHeader (kind seq ack src dst hops tag : Nat) : List Byte :=
  leBytes 2 (kind % 16 + seq % 4096 * 16) ++ leBytes 2 (ack % 4096) ++ leBytes 1 (src % 8 + dst % 8 * 8) ++ leBytes 1 hops ++
    leBytes 6 tag

/-- A flit: header, 240 bytes of payload, CRC over bytes 0 to 251. -/
def flitOf (header payload : List Byte) : List Byte :=
  let b := header ++ padBytes 240 payload
  b ++ leBytes 4 (crc32 b)

def fKind (f : List Byte) : Nat := bitsOf (leField f 0 2) 3 0
def fSeq (f : List Byte) : Nat := bitsOf (leField f 0 2) 15 4
def fAck (f : List Byte) : Nat := bitsOf (leField f 2 2) 11 0
def fSrc (f : List Byte) : Nat := bitsOf (leField f 4 1) 2 0
def fDst (f : List Byte) : Nat := bitsOf (leField f 4 1) 5 3
def fHops (f : List Byte) : Nat := leField f 5 1
def fTag (f : List Byte) : Nat := leField f 6 6
def fPayload (f : List Byte) : List Byte := (f.drop 12).take 240

/-- The CRC of a received flit holds. -/
def flitGood (f : List Byte) : Bool := f.length == 256 && leField f 252 4 == crc32 (f.take 252)

/-- TAG of a read (R479). -/
def readTag (slot ctx core tile : Nat) : Nat :=
  slot % 4096 + ctx % 64 * 2 ^ 12 + core % 8 * 2 ^ 18 + tile % 65536 * 2 ^ 21

/-! ### Routes (R483, R484) -/

/-- The topology in force; code 3 acts as 0. -/
def cwyTopo (s : State) : Nat := let t := s.get CWY_CTRL_TOPO; if t = 3 then 0 else t

/-- The way to a module in a ring is up the module numbers. -/
def ringUp (s : State) (dst : Nat) : Bool :=
  let n := max 1 (s.get CWY_STAT_NMOD)
  let d := (dst + n - s.get CWY_STAT_MODNUM) % n
  let up : Bool := d ≤ n - d
  if s.cwy.flips.contains dst then !up else up

/-- The link on which a flit for module `dst` leaves; `i` picks the link of a pair. -/
def routeLink (s : State) (dst i : Nat) : Nat :=
  let me := s.get CWY_STAT_MODNUM
  match cwyTopo s with
  | 2 => if me ^^^ dst = 1 then 0 else if me ^^^ dst = 2 then 1 else 2
  | 1 => if ringUp s dst then i % 2 * 2 else i % 2 * 2 + 1
  | _ => if me < dst then i % 2 * 2 else i % 2 * 2 + 1

/-- Links that the topology uses (R483). -/
def usedLinks (s : State) : List Nat := if cwyTopo s = 2 then [0, 1, 2] else [0, 1, 2, 3]

/-! ### Sending (R480) -/

/-- A flit with its SEQ, ACKSEQ and CRC as it leaves on a link. -/
def sealFlit (l : CwyLink) (seq : Nat) (f : List Byte) : List Byte :=
  flitOf (flitHeader (fKind f) seq (l.rxSeq + 4095) (fSrc f) (fDst f) (fHops f) (fTag f)) (fPayload f)

/-- Waiting flits leave while the replay buffer has room. -/
def State.cwyDrain (s : State) (k fuel : Nat) : State :=
  match fuel with
  | 0 => s
  | fuel + 1 =>
    let l := cwyLink s k
    match l.queue with
    | [] => s
    | f :: rest =>
      if !s.on (CWY_L_STAT_UP k) ∨ 512 ≤ l.replay.length then s
      else
        let g := sealFlit l l.txSeq f
        let l' : CwyLink := { l with queue := rest, replay := l.replay ++ [(l.txSeq, g)], txSeq := (l.txSeq + 1) % 4096 }
        ((s.setCwyLink k l').send (.flit k g)).cwyDrain k fuel

/-- A flit is given to a link. -/
def State.cwySend (s : State) (k : Nat) (f : List Byte) : State :=
  let l := cwyLink s k
  (s.setCwyLink k { l with queue := l.queue ++ [f] }).cwyDrain k (l.queue.length + 1)

/-- A new flit of this module for another. -/
def newFlit (s : State) (kind dst tag : Nat) (payload : List Byte) : List Byte :=
  flitOf (flitHeader kind 0 0 (s.get CWY_STAT_MODNUM) dst 0 tag) payload

/-- A read request leaves, or leaves again (R245, R479, R482). -/
def State.cwyReadReq (s : State) (slot : Nat) (r : RemoteSlot) : State :=
  s.cwySend (routeLink s r.module r.tile)
    (newFlit s 1 r.module (readTag slot r.ctx r.core r.tile) (leBytes 8 (r.unit * 65536)))

/-- The cascade is formed, and this module is its master, or a follower. -/
def cwyMaster (s : State) : Bool := s.get CWY_STAT_STATE == 3 && s.on CWY_STAT_MASTER
def cwyFollower (s : State) : Bool := s.get CWY_STAT_STATE == 3 && !s.on CWY_STAT_MASTER

/-- LEAD in µs: below 10 acts as 10 (R493). -/
def cwyLead (s : State) : Nat := max 10 (min 1000000 (s.get CWY_LEAD_US))

/-- A CTRL flit to every follower. -/
def State.cwyAnnounce (s : State) (payload : List Byte) : State :=
  forUpTo (s.get CWY_STAT_NMOD) (fun m s =>
    if m = s.get CWY_STAT_MODNUM then s else s.cwySend (routeLink s m 0) (newFlit s 4 m 0 payload)) s

end Sys2Proof.Machine
end

