-- ==== Sys2Proof/Machine/Num.lean ====
section
/-! DEFINITION. Number formats and arithmetic (chapter 2): decoding and encoding of every floating-point
format, the one rounding of the device, FP32 arithmetic, and every conversion between formats. -/

namespace Sys2Proof.Machine

open Sys2Proof

/-- Significant bits of a format, the hidden one included (R47). -/
def fmtPrec : NumFmt → Nat
  | .fp32 => 24 | .bf16 => 8 | .fp16 => 11 | .e4m3 => 4 | .e5m2 => 3 | .e2m1 => 2

/-- Exponent bits of a format (R47). -/
def fmtEbits : NumFmt → Nat
  | .fp32 => 8 | .bf16 => 8 | .fp16 => 5 | .e4m3 => 4 | .e5m2 => 5 | .e2m1 => 2

/-- Exponent of the smallest normal number (R47). -/
def fmtEmin : NumFmt → Int
  | .fp32 => -126 | .bf16 => -126 | .fp16 => -14 | .e4m3 => -6 | .e5m2 => -14 | .e2m1 => 0

/-- Width of a code. -/
def fmtWidth (f : NumFmt) : Nat := fmtEbits f + fmtPrec f

/-- The largest finite magnitude `m × 2^e` (R47, R57). -/
def fmtMax : NumFmt → Nat × Int
  | .fp32 => (16777215, 104) | .bf16 => (255, 120) | .fp16 => (2047, 5)
  | .e4m3 => (14, 5) | .e5m2 => (7, 13) | .e2m1 => (3, 1)

/-- The positive canonical NaN of a format (R49); E2M1 has none and answers zero. -/
def fmtNan : NumFmt → Nat
  | .fp32 => 0x7FC00000 | .bf16 => 0x7FC0 | .fp16 => 0x7E00 | .e4m3 => 0x7F | .e5m2 => 0x7F | .e2m1 => 0

/-- The code of positive infinity, where the format has one (R47). -/
def fmtInf : NumFmt → Option Nat
  | .fp32 => some 0x7F800000 | .bf16 => some 0x7F80 | .fp16 => some 0x7C00
  | .e4m3 => none | .e5m2 => some 0x7C | .e2m1 => none

/-- The value of a code (R47): finite codes are exact, E4M3 keeps its top exponent finite but for
mantissa 7, E2M1 has neither infinity nor NaN. -/
def decodeFloat (f : NumFmt) (code : Nat) : FVal :=
  let mb := fmtPrec f - 1
  let neg := bitOf code (fmtWidth f - 1)
  let ex := bitsOf code (mb + fmtEbits f - 1) mb
  let ma := code % 2 ^ mb
  let top := 2 ^ fmtEbits f - 1
  let finite := if ex = 0 then FVal.fin neg ma (fmtEmin f - mb)
    else FVal.fin neg (2 ^ mb + ma) (fmtEmin f - mb + (ex - 1 : Nat))
  match f with
  | .e2m1 => finite
  | .e4m3 => if ex = top ∧ ma = 7 then .nan else finite
  | _ => if ex = top then (if ma = 0 then .inf neg else .nan) else finite

/-- Round `num/den × 2^e` (not zero) to precision `p`, with the smallest normal exponent `emin`:
to nearest, ties to even (R54). The answer is unbounded above. -/
def roundRat (p : Nat) (emin : Int) (neg : Bool) (num den : Nat) (e : Int) : FVal :=
  if num = 0 then .fin neg 0 0 else
  let l : Int := (Nat.log2 num : Int) - Nat.log2 den
  let fits : Bool := if 0 ≤ l then den * 2 ^ l.toNat ≤ num else den ≤ num * 2 ^ (-l).toNat
  let k : Int := (if fits then l else l - 1) + e
  let q : Int := max k emin - p + 1
  let d : Int := e - q
  let n' := if 0 ≤ d then num * 2 ^ d.toNat else num
  let d' := if 0 ≤ d then den else den * 2 ^ (-d).toNat
  let m := n' / d'
  let r := n' % d'
  let up : Bool := 2 * r > d' || (2 * r == d' && m % 2 == 1)
  .fin neg (if up then m + 1 else m) q

/-- `m1 × 2^e1 > m2 × 2^e2`. -/
def magGt (m1 : Nat) (e1 : Int) (m2 : Nat) (e2 : Int) : Bool :=
  let e := min e1 e2
  m1 * 2 ^ (e1 - e).toNat > m2 * 2 ^ (e2 - e).toNat

/-- A rounded magnitude lies above the largest finite one of `f`, so it overflows (R57). -/
def overflows (f : NumFmt) (m : Nat) (e : Int) : Bool :=
  magGt m e (fmtMax f).1 (fmtMax f).2

/-- An exact value rounded to the precision of `f`, before overflow is judged. -/
def roundTo (f : NumFmt) : FVal → FVal
  | .fin neg m e => roundRat (fmtPrec f) (fmtEmin f) neg m 1 e
  | v => v

/-- The code of a finite value that `f` represents. -/
def encodeFin (f : NumFmt) (neg : Bool) (m : Nat) (e : Int) : Nat :=
  let p := fmtPrec f
  let mb := p - 1
  let sign := ofBool neg * 2 ^ (fmtWidth f - 1)
  if m = 0 then sign else
  let l := Nat.log2 m
  let k : Int := l + e
  if k < fmtEmin f then
    let d : Int := e - (fmtEmin f - mb)
    sign + (if 0 ≤ d then m * 2 ^ d.toNat else m / 2 ^ (-d).toNat)
  else
    let frac := if l ≤ mb then m * 2 ^ (mb - l) else m / 2 ^ (l - mb)
    sign + (k - fmtEmin f + 1).toNat * 2 ^ mb + (frac - 2 ^ mb)

/-- The code of an infinity: the format's own, or its canonical NaN where it has none. -/
def encodeInf (f : NumFmt) (neg : Bool) : Nat :=
  match fmtInf f with
  | some c => c + ofBool neg * 2 ^ (fmtWidth f - 1)
  | none => fmtNan f

/-- The code of the largest finite value with a sign. -/
def encodeMax (f : NumFmt) (neg : Bool) : Nat :=
  encodeFin f neg (fmtMax f).1 (fmtMax f).2

/-- A NaN value. -/
def vIsNan : FVal → Bool
  | .nan => true
  | _ => false

/-- A finite value. -/
def vIsFin : FVal → Bool
  | .fin _ _ _ => true
  | _ => false

/-- An infinite value. -/
def vIsInf : FVal → Bool
  | .inf _ => true
  | _ => false

/-- A zero of either sign. -/
def vIsZero : FVal → Bool
  | .fin _ m _ => m == 0
  | _ => false

/-- The sign bit of a value; a NaN counts as positive. -/
def vSign : FVal → Bool
  | .nan => false
  | .inf n => n
  | .fin n _ _ => n

/-- The negated value. -/
def vNeg : FVal → FVal
  | .nan => .nan
  | .inf n => .inf (!n)
  | .fin n m e => .fin (!n) m e

/-- The value with its sign replaced. -/
def vWithSign (v : FVal) (n : Bool) : FVal :=
  match v with
  | .nan => .nan
  | .inf _ => .inf n
  | .fin _ m e => .fin n m e

/-- The magnitude. -/
def vAbs (v : FVal) : FVal := vWithSign v false

/-- The integer `± m × 2^(e - e0)` for `e0 ≤ e`. -/
def scaledInt (neg : Bool) (m : Nat) (d : Nat) : Int :=
  if neg then -((m * 2 ^ d : Nat) : Int) else ((m * 2 ^ d : Nat) : Int)

/-- The exact sum (R55, R61): opposite infinities give NaN, an exact zero sum is +0 unless both
addends are negative zeros. -/
def vAdd : FVal → FVal → FVal
  | .nan, _ => .nan
  | _, .nan => .nan
  | .inf a, .inf b => if a = b then .inf a else .nan
  | .inf a, _ => .inf a
  | _, .inf b => .inf b
  | .fin n1 m1 e1, .fin n2 m2 e2 =>
    let e := min e1 e2
    let s := scaledInt n1 m1 (e1 - e).toNat + scaledInt n2 m2 (e2 - e).toNat
    if s = 0 then .fin (n1 && n2) 0 0 else .fin (s < 0) s.natAbs e

/-- The exact product: infinity times zero gives NaN. -/
def vMul : FVal → FVal → FVal
  | .nan, _ => .nan
  | _, .nan => .nan
  | .inf a, .inf b => .inf (a != b)
  | .inf a, .fin n m _ => if m = 0 then .nan else .inf (a != n)
  | .fin n m _, .inf b => if m = 0 then .nan else .inf (n != b)
  | .fin n1 m1 e1, .fin n2 m2 e2 => .fin (n1 != n2) (m1 * m2) (e1 + e2)

/-- Ordered comparison `a < b`; false where either is NaN. -/
def vLt : FVal → FVal → Bool
  | .nan, _ => false
  | _, .nan => false
  | .inf a, .inf b => a && !b
  | .inf a, .fin _ _ _ => a
  | .fin _ _ _, .inf b => !b
  | .fin n1 m1 e1, .fin n2 m2 e2 =>
    let e := min e1 e2
    scaledInt n1 m1 (e1 - e).toNat < scaledInt n2 m2 (e2 - e).toNat

/-- Equality of values; the two zeros are equal, NaN equals nothing. -/
def vEqv (a b : FVal) : Bool :=
  !vIsNan a && !vIsNan b && !vLt a b && !vLt b a

/-- `a ≤ b`; false where either is NaN. -/
def vLe (a b : FVal) : Bool := vLt a b || vEqv a b

/-- The value of an FP32 word. -/
def f32Val (w : Word32) : FVal := decodeFloat .fp32 w.toNat

/-- `rne_f32`: an exact value rounded once to FP32, ±infinity on overflow, canonical NaN (R49, R55). -/
def f32Of (v : FVal) : Word32 :=
  match roundTo .fp32 v with
  | .nan => 0x7FC00000#32
  | .inf n => BitVec.ofNat 32 (encodeInf .fp32 n)
  | .fin n m e =>
    BitVec.ofNat 32 (if overflows .fp32 m e then encodeInf .fp32 n else encodeFin .fp32 n m e)

/-- A rational `num/den × 2^e` with a sign, rounded once to FP32. -/
def f32OfRat (neg : Bool) (num den : Nat) (e : Int) : Word32 :=
  f32Of (roundRat 24 (-126) neg num den e)

/-- The FP32 value of an integer, rounded once. -/
def f32OfInt (i : Int) : Word32 := f32Of (.fin (i < 0) i.natAbs 0)

/-- A word is NaN. -/
def f32IsNan (w : Word32) : Bool := vIsNan (f32Val w)

/-- A word is finite. -/
def f32IsFinite (w : Word32) : Bool := vIsFin (f32Val w)

/-- A word is an infinity. -/
def f32IsInf (w : Word32) : Bool := vIsInf (f32Val w)

/-- FP32 add, one rounding (R55). -/
def flAdd (a b : Word32) : Word32 := f32Of (vAdd (f32Val a) (f32Val b))

/-- FP32 negation of a word. -/
def flNeg (a : Word32) : Word32 := f32Of (vNeg (f32Val a))

/-- FP32 subtract. -/
def flSub (a b : Word32) : Word32 := f32Of (vAdd (f32Val a) (vNeg (f32Val b)))

/-- The exact quotient rounded once to FP32. -/
def flDiv (a b : Word32) : Word32 :=
  match f32Val a, f32Val b with
  | .fin n1 m1 e1, .fin n2 m2 e2 =>
    if m2 = 0 then (if m1 = 0 then 0x7FC00000#32 else f32Of (.inf (n1 != n2)))
    else if m1 = 0 then f32Of (.fin (n1 != n2) 0 0)
    else f32OfRat (n1 != n2) m1 m2 (e1 - e2)
  | .inf n1, .fin n2 _ _ => f32Of (.inf (n1 != n2))
  | .fin n1 _ _, .inf n2 => f32Of (.fin (n1 != n2) 0 0)
  | _, _ => 0x7FC00000#32

/-- FP32 multiply, one rounding (R55). -/
def flMul (a b : Word32) : Word32 := f32Of (vMul (f32Val a) (f32Val b))

/-- `a × b + c`, rounded once (R55). -/
def fma (a b c : Word32) : Word32 :=
  f32Of (vAdd (vMul (f32Val a) (f32Val b)) (f32Val c))

/-- `y × 2^n`, exact and rounded once to FP32 (R55). -/
def scale2 (y : Word32) (n : Int) : Word32 :=
  match f32Val y with
  | .fin s m e => f32Of (.fin s m (e + n))
  | v => f32Of v

/-- The magnitude of a word. -/
def flAbs (a : Word32) : Word32 := f32Of (vAbs (f32Val a))

/-- `a < b` on FP32 words. -/
def flLt (a b : Word32) : Bool := vLt (f32Val a) (f32Val b)

/-- `a ≤ b` on FP32 words. -/
def flLe (a b : Word32) : Bool := vLe (f32Val a) (f32Val b)

/-- `a = b` on FP32 words as values. -/
def flEq (a b : Word32) : Bool := vEqv (f32Val a) (f32Val b)

/-- The larger of two FP32 words, as the vector engine's maximum takes it: NaN if either is NaN. -/
def flMax (a b : Word32) : Word32 :=
  if f32IsNan a || f32IsNan b then 0x7FC00000#32
  else if vIsZero (f32Val a) && vIsZero (f32Val b) then 0#32
  else if flLt a b then b else a

/-- The smaller of two FP32 words; NaN if either is NaN. -/
def flMin (a b : Word32) : Word32 :=
  if f32IsNan a || f32IsNan b then 0x7FC00000#32 else if flLt b a then b else a

/-- `clampf` of R401: a NaN passes. -/
def flClamp (v lo hi : Word32) : Word32 :=
  if flLt v lo then lo else if flLt hi v then hi else v

/-- The magnitude of `a` with the sign of `b`. -/
def flCopySign (a b : Word32) : Word32 := f32Of (vWithSign (f32Val a) (vSign (f32Val b)))

/-- An FP32 rounding of finite values gave an infinity: the FOVF flag of R59. -/
def ovfOf (exact : FVal) : Bool := vIsFin exact && (f32IsInf (f32Of exact))

/-- Nearest integer, ties to even; 0 for NaN, and the answer for an infinity is for the caller. -/
def rneInt : FVal → Int
  | .fin n m e =>
    let mag : Nat :=
      if 0 ≤ e then m * 2 ^ e.toNat
      else
        let d := 2 ^ (-e).toNat
        let q := m / d
        let r := m % d
        if 2 * r > d || (2 * r == d && q % 2 == 1) then q + 1 else q
    if n then -(mag : Int) else (mag : Int)
  | _ => 0

/-- The whole part toward minus infinity of a finite value. -/
def floorInt : FVal → Int
  | .fin n m e => if 0 ≤ e then scaledInt n m e.toNat else (scaledInt n m 0) / (2 ^ (-e).toNat : Nat)
  | _ => 0

/-- Conversion to an integer of `w` bits (R56): nearest, ties to even, then saturated; infinities
saturate, NaN gives 0. Second component: CSAT of R59. -/
def floatToInt (w : Nat) (v : FVal) : Int × Bool :=
  let hi : Int := (2 ^ (w - 1) : Nat) - 1
  let lo : Int := -((2 ^ (w - 1) : Nat) : Int)
  match v with
  | .nan => (0, true)
  | .inf n => (if n then lo else hi, true)
  | .fin _ _ _ =>
    let i := rneInt v
    (clampInt i lo hi, i < lo || hi < i)

/-- Conversion of an exact value to a floating-point format under SAT (R56, R57). Second component:
CSAT of R59. A result keeps the sign of its input when it rounds to zero. An E2M1 magnitude between 6 and 7, which rounds
to 6, is no overflow and sets no CSAT, as R57 judges after rounding (DESIGN CHOICE, log entry 65: R58 may be read so that
any magnitude above 6 saturates). -/
def floatTo (f : NumFmt) (sat : Bool) (v : FVal) : Nat × Bool :=
  let satF : Bool := sat && (f == .e4m3 || f == .e5m2)
  match roundTo f v with
  | .nan => (fmtNan f, false)
  | .inf n =>
    if satF then (encodeMax f n, true)
    else (encodeInf f n, (fmtInf f).isNone)
  | .fin n m e =>
    if f == .e2m1 then
      (if overflows f m e then (encodeMax f n, true) else (encodeFin f n m e, false))
    else if overflows f m e then
      (if satF then encodeMax f n else encodeInf f n, true)
    else (encodeFin f n m e, false)

/-- `x = m × 2^e` with `1 ≤ m < 2`, for a finite positive word; the answer is the word `m` and `e`. -/
def normalise (x : Word32) : Word32 × Int :=
  match f32Val x with
  | .fin _ m e =>
    let l := Nat.log2 m
    (f32Of (.fin false m (-(l : Int))), e + l)
  | _ => (0#32, 0)

/-- The leading `n` fraction bits of a word in `[1, 2)`. -/
def topFrac (n : Nat) (m : Word32) : Nat := bitsOf m.toNat 22 (23 - n)

end Sys2Proof.Machine
end

