-- ==== Sys2Proof/Machine/Vfun.lean ====
section
/-! DEFINITION. The vector engine's FP32 operations with their FOVF flag, the tables, and the special functions
(R55, R59, R66, R67, R99, R148, R149). -/

namespace Sys2Proof.Machine

open Sys2Proof

/-- An FP32 value with the FOVF flag gathered on the way to it (R59). -/
abbrev FFlag := Word32 × Bool

/-- A value rounded once, with FOVF. -/
def fRound (v : FVal) (o : Bool) : FFlag := (f32Of v, o || ovfOf v)

/-- A word taken as it is; a NaN becomes canonical (R49). -/
def fLit (a : Word32) : FFlag := (f32Of (f32Val a), false)

/-- fl_add with FOVF. -/
def fAdd (a b : FFlag) : FFlag := fRound (vAdd (f32Val a.1) (f32Val b.1)) (a.2 || b.2)

/-- fl_mul with FOVF. -/
def fMul (a b : FFlag) : FFlag := fRound (vMul (f32Val a.1) (f32Val b.1)) (a.2 || b.2)

/-- fma with FOVF. -/
def fFma (a b c : FFlag) : FFlag :=
  fRound (vAdd (vMul (f32Val a.1) (f32Val b.1)) (f32Val c.1)) (a.2 || b.2 || c.2)

/-- Negation. -/
def fNeg (a : FFlag) : FFlag := (flNeg a.1, a.2)

/-- scale2 with FOVF. -/
def fScale (a : FFlag) (n : Int) : FFlag :=
  match f32Val a.1 with
  | .fin s m e => fRound (.fin s m (e + n)) a.2
  | v => fRound v a.2

/-- The larger of two, as MAX of R99. -/
def fMax (a b : FFlag) : FFlag := (flMax a.1 b.1, a.2 || b.2)

/-- An integer converted to FP32. -/
def fInt (i : Int) : FFlag := (f32OfInt i, false)

/-- RCP(n): 1/n rounded once to FP32. -/
def rcp (n : Nat) : Word32 := f32OfRat false 1 n 0

/-! ### Tables (R67, R149) -/

def tabT0 : List Nat := [
  0x3F800000, 0x3F8164D2, 0x3F82CD87, 0x3F843A29, 0x3F85AAC3, 0x3F871F62, 0x3F88980F, 0x3F8A14D5,
  0x3F8B95C2, 0x3F8D1ADF, 0x3F8EA43A, 0x3F9031DC, 0x3F91C3D3, 0x3F935A2B, 0x3F94F4F0, 0x3F96942D,
  0x3F9837F0, 0x3F99E046, 0x3F9B8D3A, 0x3F9D3EDA, 0x3F9EF532, 0x3FA0B051, 0x3FA27043, 0x3FA43516,
  0x3FA5FED7, 0x3FA7CD94, 0x3FA9A15B, 0x3FAB7A3A, 0x3FAD583F, 0x3FAF3B79, 0x3FB123F6, 0x3FB311C4,
  0x3FB504F3, 0x3FB6FD92, 0x3FB8FBAF, 0x3FBAFF5B, 0x3FBD08A4, 0x3FBF179A, 0x3FC12C4D, 0x3FC346CD,
  0x3FC5672A, 0x3FC78D75, 0x3FC9B9BE, 0x3FCBEC15, 0x3FCE248C, 0x3FD06334, 0x3FD2A81E, 0x3FD4F35B,
  0x3FD744FD, 0x3FD99D16, 0x3FDBFBB8, 0x3FDE60F5, 0x3FE0CCDF, 0x3FE33F89, 0x3FE5B907, 0x3FE8396A,
  0x3FEAC0C7, 0x3FED4F30, 0x3FEFE4BA, 0x3FF28177, 0x3FF5257D, 0x3FF7D0DF, 0x3FFA83B3, 0x3FFD3E0C]

/-- T[j] = 2^(j/64) (R67). -/
def tabT (i : Nat) : Word32 := BitVec.ofNat 32 ((tabT0).getD i 0)

def tabRc0 : List Nat := [
  0x3F7F00FF, 0x3F7D08E5, 0x3F7B1885, 0x3F792FB2, 0x3F774E40, 0x3F757404, 0x3F73A0D5, 0x3F71D48C,
  0x3F700F01, 0x3F6E500F, 0x3F6C9791, 0x3F6AE564, 0x3F693965, 0x3F679373, 0x3F65F36D, 0x3F645933,
  0x3F62C4A7, 0x3F6135AA, 0x3F5FAC1F, 0x3F5E27EB, 0x3F5CA8F1, 0x3F5B2F17, 0x3F59BA42, 0x3F584A5A,
  0x3F56DF44, 0x3F5578E9, 0x3F541733, 0x3F52BA08, 0x3F516154, 0x3F500D01, 0x3F4EBCF9, 0x3F4D7127,
  0x3F4C2978, 0x3F4AE5D8, 0x3F49A634, 0x3F486A79, 0x3F473294, 0x3F45FE74, 0x3F44CE08, 0x3F43A13E,
  0x3F427806, 0x3F415250, 0x3F40300C, 0x3F3F112B, 0x3F3DF59D, 0x3F3CDD53, 0x3F3BC841, 0x3F3AB656,
  0x3F39A786, 0x3F389BC3, 0x3F379301, 0x3F368D31, 0x3F358A48, 0x3F348A3A, 0x3F338CFA, 0x3F32927C,
  0x3F319AB6, 0x3F30A59B, 0x3F2FB322, 0x3F2EC33E, 0x3F2DD5E6, 0x3F2CEB10, 0x3F2C02B0, 0x3F2B1CBE]

def tabRc1 : List Nat := [
  0x3F2A392F, 0x3F2957FB, 0x3F287917, 0x3F279C7B, 0x3F26C21E, 0x3F25E9F7, 0x3F2513FD, 0x3F244029,
  0x3F236E72, 0x3F229ECF, 0x3F21D13A, 0x3F2105A9, 0x3F203C17, 0x3F1F747A, 0x3F1EAECD, 0x3F1DEB07,
  0x3F1D2922, 0x3F1C6917, 0x3F1BAADF, 0x3F1AEE73, 0x3F1A33CD, 0x3F197AE7, 0x3F18C3BB, 0x3F180E41,
  0x3F175A75, 0x3F16A850, 0x3F15F7CC, 0x3F1548E5, 0x3F149B93, 0x3F13EFD2, 0x3F13459C, 0x3F129CEC,
  0x3F11F5BD, 0x3F115009, 0x3F10ABCC, 0x3F100901, 0x3F0F67A2, 0x3F0EC7AB, 0x3F0E2918, 0x3F0D8BE3,
  0x3F0CF009, 0x3F0C5584, 0x3F0BBC51, 0x3F0B246B, 0x3F0A8DCD, 0x3F09F874, 0x3F09645C, 0x3F08D181,
  0x3F083FDE, 0x3F07AF70, 0x3F072033, 0x3F069223, 0x3F06053C, 0x3F05797C, 0x3F04EEDD, 0x3F04655E,
  0x3F03DCF9, 0x3F0355AD, 0x3F02CF75, 0x3F024A4E, 0x3F01C636, 0x3F014328, 0x3F00C122, 0x3F004020]

/-- Rc[i] = 1 / (1 + (2i + 1)/256) (R67). -/
def tabRc (i : Nat) : Word32 := BitVec.ofNat 32 ((tabRc0 ++ tabRc1).getD i 0)

def tabS0 : List Nat := [
  0x3F7F017E, 0x3F7D0D3E, 0x3F7B2452, 0x3F79464E, 0x3F7772CB, 0x3F75A969, 0x3F73E9CB, 0x3F723399,
  0x3F708681, 0x3F6EE232, 0x3F6D4660, 0x3F6BB2C5, 0x3F6A271A, 0x3F68A31D, 0x3F672691, 0x3F65B139,
  0x3F6442DB, 0x3F62DB41, 0x3F617A36, 0x3F601F87, 0x3F5ECB04, 0x3F5D7C7F, 0x3F5C33CC, 0x3F5AF0BF,
  0x3F59B330, 0x3F587AF7, 0x3F5747EE, 0x3F5619F2, 0x3F54F0DF, 0x3F53CC93, 0x3F52ACEE, 0x3F5191D1,
  0x3F507B1D, 0x3F4F68B6, 0x3F4E5A7F, 0x3F4D505E, 0x3F4C4A38, 0x3F4B47F4, 0x3F4A497A, 0x3F494EB3,
  0x3F485787, 0x3F4763E2, 0x3F4673AC, 0x3F4586D3, 0x3F449D42, 0x3F43B6E6, 0x3F42D3AD, 0x3F41F383,
  0x3F411659, 0x3F403C1C, 0x3F3F64BD, 0x3F3E902C, 0x3F3DBE58, 0x3F3CEF34, 0x3F3C22B1, 0x3F3B58C0,
  0x3F3A9154, 0x3F39CC60, 0x3F3909D6, 0x3F3849AA, 0x3F378BD0, 0x3F36D03D, 0x3F3616E4, 0x3F355FBA]

def tabS1 : List Nat := [
  0x3F3450FC, 0x3F32EF41, 0x3F319589, 0x3F304387, 0x3F2EF8F2, 0x3F2DB587, 0x3F2C7904, 0x3F2B432A,
  0x3F2A13C0, 0x3F28EA8C, 0x3F27C759, 0x3F26A9F4, 0x3F25922C, 0x3F247FD3, 0x3F2372BD, 0x3F226ABE,
  0x3F2167AF, 0x3F206968, 0x3F1F6FC4, 0x3F1E7AA0, 0x3F1D89D9, 0x3F1C9D4E, 0x3F1BB4E1, 0x3F1AD073,
  0x3F19EFE6, 0x3F191320, 0x3F183A05, 0x3F17647C, 0x3F16926C, 0x3F15C3BC, 0x3F14F857, 0x3F143026,
  0x3F136B13, 0x3F12A90B, 0x3F11E9F9, 0x3F112DCA, 0x3F10746D, 0x3F0FBDCE, 0x3F0F09DD, 0x3F0E5889,
  0x3F0DA9C2, 0x3F0CFD79, 0x3F0C539F, 0x3F0BAC25, 0x3F0B06FD, 0x3F0A641A, 0x3F09C36D, 0x3F0924EC,
  0x3F088889, 0x3F07EE37, 0x3F0755ED, 0x3F06BF9E, 0x3F062B40, 0x3F0598C7, 0x3F05082A, 0x3F04795F,
  0x3F03EC5C, 0x3F036117, 0x3F02D788, 0x3F024FA6, 0x3F01C967, 0x3F0144C4, 0x3F00C1B4, 0x3F004030]

/-- S[i] of R67. -/
def tabS (i : Nat) : Word32 := BitVec.ofNat 32 ((tabS0 ++ tabS1).getD i 0)

def tabLG0 : List Nat := [
  0x3BB84E23, 0x3C89B189, 0x3CE49B1E, 0x3D1F6985, 0x3D4C2DFE, 0x3D789C4C, 0x3D925ADC, 0x3DA83DC2,
  0x3DBDF775, 0x3DD3888F, 0x3DE8F1A7, 0x3DFE3350, 0x3E09A70E, 0x3E14214A, 0x3E1E88A3, 0x3E28DD5D,
  0x3E331FB8, 0x3E3D4FF6, 0x3E476E57, 0x3E517B19, 0x3E5B7679, 0x3E6560B2, 0x3E6F39FF, 0x3E79029A,
  0x3E815D5D, 0x3E86314C, 0x3E8AFD34, 0x3E8FC130, 0x3E947D5A, 0x3E9931CB, 0x3E9DDE9D, 0x3EA283E8,
  0x3EA721C4, 0x3EABB849, 0x3EB0478E, 0x3EB4CFA9, 0x3EB950B2, 0x3EBDCABD, 0x3EC23DE2, 0x3EC6AA34,
  0x3ECB0FC8, 0x3ECF6EB4, 0x3ED3C70A, 0x3ED818DF, 0x3EDC6447, 0x3EE0A953, 0x3EE4E818, 0x3EE920A6,
  0x3EED5311, 0x3EF17F6A, 0x3EF5A5C2, 0x3EF9C62B, 0x3EFDE0B6, 0x3F00FAB9, 0x3F030239, 0x3F0506E2,
  0x3F0708BC, 0x3F0907CF, 0x3F0B0422, 0x3F0CFDBE, 0x3F0EF4A9, 0x3F10E8EB, 0x3F12DA8B, 0x3F14C990]

def tabLG1 : List Nat := [
  0x3F16B601, 0x3F189FE4, 0x3F1A8742, 0x3F1C6C1F, 0x3F1E4E83, 0x3F202E74, 0x3F220BF9, 0x3F23E718,
  0x3F25BFD6, 0x3F27963A, 0x3F296A4A, 0x3F2B3C0C, 0x3F2D0B85, 0x3F2ED8BC, 0x3F30A3B5, 0x3F326C77,
  0x3F343306, 0x3F35F769, 0x3F37B9A4, 0x3F3979BD, 0x3F3B37B9, 0x3F3CF39D, 0x3F3EAD6E, 0x3F406531,
  0x3F421AEB, 0x3F43CEA0, 0x3F458055, 0x3F473010, 0x3F48DDD4, 0x3F4A89A7, 0x3F4C338C, 0x3F4DDB88,
  0x3F4F819F, 0x3F5125D7, 0x3F52C832, 0x3F5468B6, 0x3F560765, 0x3F57A446, 0x3F593F5A, 0x3F5AD8A8,
  0x3F5C7031, 0x3F5E05FB, 0x3F5F9A09, 0x3F612C5E, 0x3F62BCFF, 0x3F644BF0, 0x3F65D933, 0x3F6764CD,
  0x3F68EEC1, 0x3F6A7712, 0x3F6BFDC5, 0x3F6D82DB, 0x3F6F065A, 0x3F708843, 0x3F72089B, 0x3F738765,
  0x3F7504A4, 0x3F76805A, 0x3F77FA8C, 0x3F79733C, 0x3F7AEA6D, 0x3F7C6023, 0x3F7DD460, 0x3F7F4728]

/-- LG[j] = log2(1 + (2j + 1)/256) (R149). -/
def tabLG (i : Nat) : Word32 := BitVec.ofNat 32 ((tabLG0 ++ tabLG1).getD i 0)

def tabSN0 : List Nat := [
  0x00000000, 0x3CC90AB0, 0x3D48FB30, 0x3D96A905, 0x3DC8BD36, 0x3DFAB273, 0x3E164083, 0x3E2F10A2,
  0x3E47C5C2, 0x3E605C13, 0x3E78CFCC, 0x3E888E93, 0x3E94A031, 0x3EA09AE5, 0x3EAC7CD4, 0x3EB8442A,
  0x3EC3EF15, 0x3ECF7BCA, 0x3EDAE880, 0x3EE63375, 0x3EF15AEA, 0x3EFC5D27, 0x3F039C3D, 0x3F08F59B,
  0x3F0E39DA, 0x3F13682A, 0x3F187FC0, 0x3F1D7FD1, 0x3F226799, 0x3F273656, 0x3F2BEB4A, 0x3F3085BB,
  0x3F3504F3, 0x3F396842, 0x3F3DAEF9, 0x3F41D870, 0x3F45E403, 0x3F49D112, 0x3F4D9F02, 0x3F514D3D,
  0x3F54DB31, 0x3F584853, 0x3F5B941A, 0x3F5EBE05, 0x3F61C598, 0x3F64AA59, 0x3F676BD8, 0x3F6A09A7,
  0x3F6C835E, 0x3F6ED89E, 0x3F710908, 0x3F731447, 0x3F74FA0B, 0x3F76BA07, 0x3F7853F8, 0x3F79C79D,
  0x3F7B14BE, 0x3F7C3B28, 0x3F7D3AAC, 0x3F7E1324, 0x3F7EC46D, 0x3F7F4E6D, 0x3F7FB10F, 0x3F7FEC43]

def tabSN1 : List Nat := [
  0x3F800000, 0x3F7FEC43, 0x3F7FB10F, 0x3F7F4E6D, 0x3F7EC46D, 0x3F7E1324, 0x3F7D3AAC, 0x3F7C3B28,
  0x3F7B14BE, 0x3F79C79D, 0x3F7853F8, 0x3F76BA07, 0x3F74FA0B, 0x3F731447, 0x3F710908, 0x3F6ED89E,
  0x3F6C835E, 0x3F6A09A7, 0x3F676BD8, 0x3F64AA59, 0x3F61C598, 0x3F5EBE05, 0x3F5B941A, 0x3F584853,
  0x3F54DB31, 0x3F514D3D, 0x3F4D9F02, 0x3F49D112, 0x3F45E403, 0x3F41D870, 0x3F3DAEF9, 0x3F396842,
  0x3F3504F3, 0x3F3085BB, 0x3F2BEB4A, 0x3F273656, 0x3F226799, 0x3F1D7FD1, 0x3F187FC0, 0x3F13682A,
  0x3F0E39DA, 0x3F08F59B, 0x3F039C3D, 0x3EFC5D27, 0x3EF15AEA, 0x3EE63375, 0x3EDAE880, 0x3ECF7BCA,
  0x3EC3EF15, 0x3EB8442A, 0x3EAC7CD4, 0x3EA09AE5, 0x3E94A031, 0x3E888E93, 0x3E78CFCC, 0x3E605C13,
  0x3E47C5C2, 0x3E2F10A2, 0x3E164083, 0x3DFAB273, 0x3DC8BD36, 0x3D96A905, 0x3D48FB30, 0x3CC90AB0]

def tabSN2 : List Nat := [
  0x00000000, 0xBCC90AB0, 0xBD48FB30, 0xBD96A905, 0xBDC8BD36, 0xBDFAB273, 0xBE164083, 0xBE2F10A2,
  0xBE47C5C2, 0xBE605C13, 0xBE78CFCC, 0xBE888E93, 0xBE94A031, 0xBEA09AE5, 0xBEAC7CD4, 0xBEB8442A,
  0xBEC3EF15, 0xBECF7BCA, 0xBEDAE880, 0xBEE63375, 0xBEF15AEA, 0xBEFC5D27, 0xBF039C3D, 0xBF08F59B,
  0xBF0E39DA, 0xBF13682A, 0xBF187FC0, 0xBF1D7FD1, 0xBF226799, 0xBF273656, 0xBF2BEB4A, 0xBF3085BB,
  0xBF3504F3, 0xBF396842, 0xBF3DAEF9, 0xBF41D870, 0xBF45E403, 0xBF49D112, 0xBF4D9F02, 0xBF514D3D,
  0xBF54DB31, 0xBF584853, 0xBF5B941A, 0xBF5EBE05, 0xBF61C598, 0xBF64AA59, 0xBF676BD8, 0xBF6A09A7,
  0xBF6C835E, 0xBF6ED89E, 0xBF710908, 0xBF731447, 0xBF74FA0B, 0xBF76BA07, 0xBF7853F8, 0xBF79C79D,
  0xBF7B14BE, 0xBF7C3B28, 0xBF7D3AAC, 0xBF7E1324, 0xBF7EC46D, 0xBF7F4E6D, 0xBF7FB10F, 0xBF7FEC43]

def tabSN3 : List Nat := [
  0xBF800000, 0xBF7FEC43, 0xBF7FB10F, 0xBF7F4E6D, 0xBF7EC46D, 0xBF7E1324, 0xBF7D3AAC, 0xBF7C3B28,
  0xBF7B14BE, 0xBF79C79D, 0xBF7853F8, 0xBF76BA07, 0xBF74FA0B, 0xBF731447, 0xBF710908, 0xBF6ED89E,
  0xBF6C835E, 0xBF6A09A7, 0xBF676BD8, 0xBF64AA59, 0xBF61C598, 0xBF5EBE05, 0xBF5B941A, 0xBF584853,
  0xBF54DB31, 0xBF514D3D, 0xBF4D9F02, 0xBF49D112, 0xBF45E403, 0xBF41D870, 0xBF3DAEF9, 0xBF396842,
  0xBF3504F3, 0xBF3085BB, 0xBF2BEB4A, 0xBF273656, 0xBF226799, 0xBF1D7FD1, 0xBF187FC0, 0xBF13682A,
  0xBF0E39DA, 0xBF08F59B, 0xBF039C3D, 0xBEFC5D27, 0xBEF15AEA, 0xBEE63375, 0xBEDAE880, 0xBECF7BCA,
  0xBEC3EF15, 0xBEB8442A, 0xBEAC7CD4, 0xBEA09AE5, 0xBE94A031, 0xBE888E93, 0xBE78CFCC, 0xBE605C13,
  0xBE47C5C2, 0xBE2F10A2, 0xBE164083, 0xBDFAB273, 0xBDC8BD36, 0xBD96A905, 0xBD48FB30, 0xBCC90AB0]

/-- SN[k] = sin(2πk/256) (R149). -/
def tabSN (i : Nat) : Word32 := BitVec.ofNat 32 ((tabSN0 ++ tabSN1 ++ tabSN2 ++ tabSN3).getD i 0)

def tabCS0 : List Nat := [
  0x3F800000, 0x3F7FEC43, 0x3F7FB10F, 0x3F7F4E6D, 0x3F7EC46D, 0x3F7E1324, 0x3F7D3AAC, 0x3F7C3B28,
  0x3F7B14BE, 0x3F79C79D, 0x3F7853F8, 0x3F76BA07, 0x3F74FA0B, 0x3F731447, 0x3F710908, 0x3F6ED89E,
  0x3F6C835E, 0x3F6A09A7, 0x3F676BD8, 0x3F64AA59, 0x3F61C598, 0x3F5EBE05, 0x3F5B941A, 0x3F584853,
  0x3F54DB31, 0x3F514D3D, 0x3F4D9F02, 0x3F49D112, 0x3F45E403, 0x3F41D870, 0x3F3DAEF9, 0x3F396842,
  0x3F3504F3, 0x3F3085BB, 0x3F2BEB4A, 0x3F273656, 0x3F226799, 0x3F1D7FD1, 0x3F187FC0, 0x3F13682A,
  0x3F0E39DA, 0x3F08F59B, 0x3F039C3D, 0x3EFC5D27, 0x3EF15AEA, 0x3EE63375, 0x3EDAE880, 0x3ECF7BCA,
  0x3EC3EF15, 0x3EB8442A, 0x3EAC7CD4, 0x3EA09AE5, 0x3E94A031, 0x3E888E93, 0x3E78CFCC, 0x3E605C13,
  0x3E47C5C2, 0x3E2F10A2, 0x3E164083, 0x3DFAB273, 0x3DC8BD36, 0x3D96A905, 0x3D48FB30, 0x3CC90AB0]

def tabCS1 : List Nat := [
  0x00000000, 0xBCC90AB0, 0xBD48FB30, 0xBD96A905, 0xBDC8BD36, 0xBDFAB273, 0xBE164083, 0xBE2F10A2,
  0xBE47C5C2, 0xBE605C13, 0xBE78CFCC, 0xBE888E93, 0xBE94A031, 0xBEA09AE5, 0xBEAC7CD4, 0xBEB8442A,
  0xBEC3EF15, 0xBECF7BCA, 0xBEDAE880, 0xBEE63375, 0xBEF15AEA, 0xBEFC5D27, 0xBF039C3D, 0xBF08F59B,
  0xBF0E39DA, 0xBF13682A, 0xBF187FC0, 0xBF1D7FD1, 0xBF226799, 0xBF273656, 0xBF2BEB4A, 0xBF3085BB,
  0xBF3504F3, 0xBF396842, 0xBF3DAEF9, 0xBF41D870, 0xBF45E403, 0xBF49D112, 0xBF4D9F02, 0xBF514D3D,
  0xBF54DB31, 0xBF584853, 0xBF5B941A, 0xBF5EBE05, 0xBF61C598, 0xBF64AA59, 0xBF676BD8, 0xBF6A09A7,
  0xBF6C835E, 0xBF6ED89E, 0xBF710908, 0xBF731447, 0xBF74FA0B, 0xBF76BA07, 0xBF7853F8, 0xBF79C79D,
  0xBF7B14BE, 0xBF7C3B28, 0xBF7D3AAC, 0xBF7E1324, 0xBF7EC46D, 0xBF7F4E6D, 0xBF7FB10F, 0xBF7FEC43]

def tabCS2 : List Nat := [
  0xBF800000, 0xBF7FEC43, 0xBF7FB10F, 0xBF7F4E6D, 0xBF7EC46D, 0xBF7E1324, 0xBF7D3AAC, 0xBF7C3B28,
  0xBF7B14BE, 0xBF79C79D, 0xBF7853F8, 0xBF76BA07, 0xBF74FA0B, 0xBF731447, 0xBF710908, 0xBF6ED89E,
  0xBF6C835E, 0xBF6A09A7, 0xBF676BD8, 0xBF64AA59, 0xBF61C598, 0xBF5EBE05, 0xBF5B941A, 0xBF584853,
  0xBF54DB31, 0xBF514D3D, 0xBF4D9F02, 0xBF49D112, 0xBF45E403, 0xBF41D870, 0xBF3DAEF9, 0xBF396842,
  0xBF3504F3, 0xBF3085BB, 0xBF2BEB4A, 0xBF273656, 0xBF226799, 0xBF1D7FD1, 0xBF187FC0, 0xBF13682A,
  0xBF0E39DA, 0xBF08F59B, 0xBF039C3D, 0xBEFC5D27, 0xBEF15AEA, 0xBEE63375, 0xBEDAE880, 0xBECF7BCA,
  0xBEC3EF15, 0xBEB8442A, 0xBEAC7CD4, 0xBEA09AE5, 0xBE94A031, 0xBE888E93, 0xBE78CFCC, 0xBE605C13,
  0xBE47C5C2, 0xBE2F10A2, 0xBE164083, 0xBDFAB273, 0xBDC8BD36, 0xBD96A905, 0xBD48FB30, 0xBCC90AB0]

def tabCS3 : List Nat := [
  0x00000000, 0x3CC90AB0, 0x3D48FB30, 0x3D96A905, 0x3DC8BD36, 0x3DFAB273, 0x3E164083, 0x3E2F10A2,
  0x3E47C5C2, 0x3E605C13, 0x3E78CFCC, 0x3E888E93, 0x3E94A031, 0x3EA09AE5, 0x3EAC7CD4, 0x3EB8442A,
  0x3EC3EF15, 0x3ECF7BCA, 0x3EDAE880, 0x3EE63375, 0x3EF15AEA, 0x3EFC5D27, 0x3F039C3D, 0x3F08F59B,
  0x3F0E39DA, 0x3F13682A, 0x3F187FC0, 0x3F1D7FD1, 0x3F226799, 0x3F273656, 0x3F2BEB4A, 0x3F3085BB,
  0x3F3504F3, 0x3F396842, 0x3F3DAEF9, 0x3F41D870, 0x3F45E403, 0x3F49D112, 0x3F4D9F02, 0x3F514D3D,
  0x3F54DB31, 0x3F584853, 0x3F5B941A, 0x3F5EBE05, 0x3F61C598, 0x3F64AA59, 0x3F676BD8, 0x3F6A09A7,
  0x3F6C835E, 0x3F6ED89E, 0x3F710908, 0x3F731447, 0x3F74FA0B, 0x3F76BA07, 0x3F7853F8, 0x3F79C79D,
  0x3F7B14BE, 0x3F7C3B28, 0x3F7D3AAC, 0x3F7E1324, 0x3F7EC46D, 0x3F7F4E6D, 0x3F7FB10F, 0x3F7FEC43]

/-- CS[k] = cos(2πk/256) (R149). -/
def tabCS (i : Nat) : Word32 := BitVec.ofNat 32 ((tabCS0 ++ tabCS1 ++ tabCS2 ++ tabCS3).getD i 0)


/-! ### The special functions (R66) -/

/-- INV_LN2_64, LN2_64_HI, LN2_64_LO, C3, GELU_A, GELU_B of R66; 0.5, 1, 1.5. -/
def cInvLn2x64 : FFlag := (0x42B8AA3B#32, false)
def cLn2x64Hi : FFlag := (0x3C317200#32, false)
def cLn2x64Lo : FFlag := (0x32BFBE8E#32, false)
def cC3 : FFlag := (0x3E2AAAAB#32, false)
def cGeluA : FFlag := (0x3D372713#32, false)
def cGeluB : FFlag := (0x3F4C422A#32, false)
def cHalf : FFlag := (0x3F000000#32, false)
def cOne : FFlag := (0x3F800000#32, false)
def cOneHalf : FFlag := (0x3FC00000#32, false)
def cNan : Word32 := 0x7FC00000#32
def cInf : Word32 := 0x7F800000#32

/-- vexp. -/
def vexp (x : FFlag) : FFlag :=
  if f32IsNan x.1 then (cNan, x.2) else
  let x : FFlag := (flClamp x.1 0xC2D00000#32 0x42B20000#32, x.2)
  let k := rneInt (f32Val (fMul x cInvLn2x64).1)
  let n := k / 64
  let j := (k % 64).toNat
  let r := fFma (fInt (-k)) cLn2x64Hi x
  let r := fFma (fInt (-k)) cLn2x64Lo r
  let q := fFma cC3 r cHalf
  let q := fFma q r cOne
  let p := fMul q r
  let t : FFlag := (tabT j, false)
  fScale (fFma t p t) n

/-- One step of the reciprocal refinement. -/
def recipStep (m y : FFlag) : FFlag := fFma y (fFma (fNeg m) y cOne) y

/-- vrecip. -/
def vrecip (x : FFlag) : FFlag :=
  let v := f32Val x.1
  if vIsNan v then (cNan, x.2)
  else if vIsZero v then (flCopySign cInf x.1, x.2)
  else if vIsInf v then (flCopySign 0#32 x.1, x.2)
  else
    let (m, e) := normalise (flAbs x.1)
    let y : FFlag := (tabRc (topFrac 7 m), x.2)
    let y := recipStep (m, false) (recipStep (m, false) y)
    let r := fScale y (-e)
    (flCopySign r.1 x.1, r.2)

/-- One step of the reciprocal square root refinement. -/
def rsqrtStep (h y : FFlag) : FFlag := fMul y (fFma (fNeg h) (fMul y y) cOneHalf)

/-- vrsqrt. -/
def vrsqrt (x : FFlag) : FFlag :=
  let v := f32Val x.1
  if vIsNan v then (cNan, x.2)
  else if vIsZero v then (flCopySign cInf x.1, x.2)
  else if vSign v then (cNan, x.2)
  else if vIsInf v then (0#32, x.2)
  else
    let (m0, e0) := normalise x.1
    let odd := e0 % 2 = 1
    let m := if odd then flMul m0 0x40000000#32 else m0
    let e := if odd then e0 - 1 else e0
    let y := if flLt m 0x40000000#32 then tabS (topFrac 6 m) else tabS (64 + topFrac 6 (flMul m 0x3F000000#32))
    let h : FFlag := (flMul m 0x3F000000#32, false)
    fScale (rsqrtStep h (rsqrtStep h (y, x.2))) (-(e / 2))

/-- vtanh. -/
def vtanh (x : FFlag) : FFlag :=
  if f32IsNan x.1 then (cNan, x.2) else
  let a := flAbs x.1
  if flLt a 0x39800000#32 then x
  else if flLe 0x41100000#32 a then (flCopySign 0x3F800000#32 x.1, x.2)
  else
    let e := vexp (fMul (0xC0000000#32, x.2) (a, false))
    let t := fMul (fAdd cOne (fNeg e)) (vrecip (fAdd cOne e))
    (flCopySign t.1 x.1, t.2)

/-- vsigmoid. -/
def vsigmoid (x : FFlag) : FFlag := vrecip (fAdd cOne (vexp (fNeg x)))

/-- vgelu, the tanh form. -/
def vgelu (x : FFlag) : FFlag :=
  let x3 := fMul (fMul x x) x
  let inn := fFma cGeluA x3 x
  let t := vtanh (fMul cGeluB inn)
  let h := fMul cHalf x
  fFma h t h

/-- RELU of R99. -/
def vrelu (x : FFlag) : FFlag :=
  if f32IsNan x.1 then (cNan, x.2) else if flLt 0#32 x.1 then x else (0#32, x.2)

/-! ### Rotary position codes (R148) -/

/-- Constants of R149. -/
def cOneThird : FFlag := (0x3EAAAAAB#32, false)
def cInvLn2 : FFlag := (0x3FB8AA3B#32, false)
def cLn2 : FFlag := (0x3F317218#32, false)
def cInv2Pi : FFlag := (0x3E22F983#32, false)
def cPi128 : FFlag := (0x3CC90FDB#32, false)

/-- vlog2, for finite x of at least 1. -/
def vlog2 (x : Word32) : FFlag :=
  let (m, e) := normalise x
  let j := topFrac 7 m
  let u := fFma (m, false) (tabRc j, false) (0xBF800000#32, false)
  let q := fFma u cOneThird (0xBF000000#32, false)
  let q := fFma q u cOne
  let ln := fMul q u
  fAdd (fInt e) (fFma ln cInvLn2 (tabLG j, false))

/-- The frequency FT[i] of a head of `hdim` elements under a rotary mode, base and factor. -/
def ropeFreq (rope hdim : Nat) (theta factor : Word32) (i : Nat) : FFlag :=
  let a := fMul (vlog2 theta) (rcp hdim, false)
  let b := if rope = 2 ∧ 2 < hdim then fMul (vlog2 factor) (rcp (hdim - 2), false) else (0#32, false)
  let ex := fMul (fInt (-2 * (i : Int))) (fAdd a b)
  fMul (vexp (fMul ex cLn2)) cInv2Pi

/-- Sine and cosine of `pp × ft` turns, as the rotation computes them. -/
def ropeAngle (pp ft : FFlag) : FFlag × FFlag :=
  let t := fMul pp ft
  let fr := fAdd t (fNeg (fInt (floorInt (f32Val t.1))))
  let d := fMul fr (0x43800000#32, false)
  let k := rneInt (f32Val d.1)
  let r := fMul (fAdd d (fNeg (fInt k))) cPi128
  let r2 := fMul r r
  let cr := fFma (0xBF000000#32, false) r2 cOne
  let sr := fFma (fMul r2 r) (fNeg cC3) r
  let kk := (k % 256).toNat
  let sn := fFma (tabSN kk, false) cr (fMul (tabCS kk, false) sr)
  let cs := fFma (tabCS kk, false) cr (fNeg (fMul (tabSN kk, false) sr))
  (sn, cs)

/-- A head vector rotated at position `p` (R148). -/
def ropeRotate (rope : Nat) (theta factor : Word32) (p : Nat) (xs : List FFlag) : List FFlag :=
  let hdim := xs.length
  let h2 := hdim / 2
  let ps := if rope = 1 then vrecip (factor, false) else cOne
  let pp := fMul (fInt p) ps
  let z : FFlag := (0#32, false)
  let ang := (List.range h2).map fun i => ropeAngle pp (ropeFreq rope hdim theta factor i)
  let lo := (List.range h2).map fun i =>
    let (sn, cs) := ang.getD i (z, z)
    fFma (xs.getD i z) cs (fNeg (fMul (xs.getD (i + h2) z) sn))
  let hi := (List.range h2).map fun i =>
    let (sn, cs) := ang.getD i (z, z)
    fFma (xs.getD (i + h2) z) cs (fMul (xs.getD i z) sn)
  lo ++ hi

end Sys2Proof.Machine
end

