-- ==== Sys2Proof/Machine/Desc.lean ====
section
/-! DEFINITION. Command descriptors: fields, operand references, formats, operand spans, and the dispatch checks
that read nothing but the descriptor (R93–R103, R115–R141, R143–R146, R560). A descriptor is a 512-bit number,
byte 0 least significant. -/

namespace Sys2Proof.Machine

open Sys2Proof

/-- Bits `[hi:lo]` of word `w` of a descriptor. -/
def dw (d w hi lo : Nat) : Nat := bitsOf (d >>> (64 * w)) hi lo

/-- Bit `i` of word `w`. -/
def db (d w i : Nat) : Bool := bitOf d (64 * w + i)

/-- Word 0 (R93). -/
def dOpc (d : Nat) : Nat := dw d 0 7 0
def dSat (d : Nat) : Bool := db d 0 8
def dAcc (d : Nat) : Bool := db d 0 9
def dRel0 (d : Nat) : Bool := db d 0 10
def dRel1 (d : Nat) : Bool := db d 0 11
def dIrq (d : Nat) : Bool := db d 0 12
def dSeq (d : Nat) : Nat := dw d 0 31 16
def dBudget (d : Nat) : Nat := dw d 0 63 32

/-- The path of an opcode by FENCE WAIT bit (R94, R97): 0 compute, 1 weight, 2 vector, 3 attention, 4 tile mover,
5 the sequencer itself. -/
def opcPath (o : Nat) : Nat :=
  match o with
  | 1 => 1 | 2 => 0 | 3 => 0 | 4 => 2 | 5 => 2 | 6 => 3 | 7 => 2 | 8 => 4 | 9 => 4
  | _ => 5

/-- Width in bits of a format code (R96). -/
def fmtBits (c : Nat) : Nat :=
  match c with
  | 0 => 8 | 1 => 4 | 2 => 8 | 3 => 8 | 4 => 4 | 5 => 16 | 6 => 16 | _ => 32

/-- The floating-point format of a code (R96). -/
def codeFmt (c : Nat) : NumFmt :=
  match c with
  | 2 => .e4m3 | 3 => .e5m2 | 4 => .e2m1 | 5 => .bf16 | 6 => .fp16 | _ => .fp32

/-- Lines of a row of `e` elements in a format (R76). -/
def rowLines (e fmt : Nat) : Nat := ceilDiv (e * fmtBits fmt) 4096

/-- Lines of a scale array of `r` rows of `e` elements (R560). -/
def sclLines (r e : Nat) : Nat := if e ≤ 1024 then ceilDiv r 16 else r * ceilDiv e 16384

/-- Byte offset of row `r`'s scales in a scale array (R560). -/
def sclOfs (r e : Nat) : Nat :=
  if e ≤ 1024 then r / 16 * 512 + 32 * (r % 16) else r * ceilDiv e 16384 * 512

/-- Directory lines of a packed tensor of `nr` rows (R126). -/
def zrDl (nr : Nat) : Nat := ceilDiv (4 * (nr + 1)) 512

/-- Mask lines of a packed row of `e` elements (R126). -/
def zrMb (e : Nat) : Nat := ceilDiv (ceilDiv e 64 * 8) 512

/-- Extent of a packed operand (R128). -/
def zrExtent (nr e fmt : Nat) : Nat := zrDl nr + nr * (zrMb e + rowLines e fmt)

/-- Lines of `nr` rows of `e` elements, packed or not. -/
def mapLines (packed : Bool) (nr e fmt : Nat) : Nat :=
  if packed then zrExtent nr e fmt else nr * rowLines e fmt

/-! ### Operand references (R95) -/

/-- The reference that stands for no operand. -/
def noRef : Nat := 0xC0000000

def refStore (r : Nat) : Nat := bitsOf r 31 30
def refRgn (r : Nat) : Nat := bitsOf r 20 17
def refPos (r : Nat) : Nat := bitsOf r 16 0

/-- A reference whose reserved bits are not zero, or a none with other bits (R95). -/
def refBad (r : Nat) : Bool := if refStore r = 3 then r != noRef else bitsOf r 29 21 != 0

/-- An operand of a command: its reference, the stores it may lie in, whether it must be present, the fault where
its presence is wrong, whether it is a destination, its span in lines, and the release bit that names it
(0 none, 1 REL0, 2 REL1). -/
structure Operand where
  ref : Nat
  stores : List Nat
  need : Bool
  code : Nat
  dst : Bool
  span : Nat
  rel : Nat
  deriving DecidableEq, Repr

/-! ### Geometry (R115–R119, R137, R139, R143, R144) -/

def cvIH (d : Nat) : Nat := dw d 3 15 0
def cvIW (d : Nat) : Nat := dw d 3 31 16
def cvCin (d : Nat) : Nat := dw d 3 47 32
def cvFmt (d : Nat) : Nat := dw d 3 51 48
def cvSwap (d : Nat) : Bool := db d 3 52
def cvZpi (d : Nat) : Bool := db d 3 53
def cvKH (d : Nat) : Nat := dw d 4 4 0
def cvKW (d : Nat) : Nat := dw d 4 9 5
def cvSH (d : Nat) : Nat := dw d 4 13 10
def cvSW (d : Nat) : Nat := dw d 4 17 14
def cvDH (d : Nat) : Nat := dw d 4 21 18
def cvDW (d : Nat) : Nat := dw d 4 25 22
def cvPT (d : Nat) : Nat := dw d 4 29 26
def cvPB (d : Nat) : Nat := dw d 4 33 30
def cvPL (d : Nat) : Nat := dw d 4 37 34
def cvPR (d : Nat) : Nat := dw d 4 41 38
def cvGW (d : Nat) : Nat := dw d 4 51 42
def cvOY0 (d : Nat) : Nat := dw d 5 15 0
def cvOYN (d : Nat) : Nat := dw d 5 31 16
def cvOX0 (d : Nat) : Nat := dw d 5 47 32
def cvOXN (d : Nat) : Nat := dw d 5 63 48
def cvKoffY (d : Nat) : Nat := dw d 6 7 0
def cvKoffX (d : Nat) : Nat := dw d 6 15 8

def plIH (d : Nat) : Nat := dw d 2 15 0
def plIW (d : Nat) : Nat := dw d 2 31 16
def plC (d : Nat) : Nat := dw d 2 47 32
def plFmt (d : Nat) : Nat := dw d 2 51 48
def plAvg (d : Nat) : Bool := db d 2 52
def plZpi (d : Nat) : Bool := db d 2 53
def plZpo (d : Nat) : Bool := db d 2 54
def plCntPad (d : Nat) : Bool := db d 2 55
def plKH (d : Nat) : Nat := dw d 3 4 0
def plKW (d : Nat) : Nat := dw d 3 9 5
def plSH (d : Nat) : Nat := dw d 3 13 10
def plSW (d : Nat) : Nat := dw d 3 17 14
def plPT (d : Nat) : Nat := dw d 3 21 18
def plPB (d : Nat) : Nat := dw d 3 25 22
def plPL (d : Nat) : Nat := dw d 3 29 26
def plPR (d : Nat) : Nat := dw d 3 33 30
def plOH (d : Nat) : Nat := dw d 4 15 0
def plOW (d : Nat) : Nat := dw d 4 31 16

def roNBox (d : Nat) : Nat := dw d 2 42 32
def roFH (d : Nat) : Nat := dw d 3 15 0
def roFW (d : Nat) : Nat := dw d 3 31 16
def roC (d : Nat) : Nat := dw d 3 47 32
def roFmt (d : Nat) : Nat := dw d 3 51 48
def roPH (d : Nat) : Nat := dw d 3 57 52
def roPW (d : Nat) : Nat := dw d 3 63 58
def roScale (d : Nat) : Nat := dw d 4 31 0
def roSR (d : Nat) : Nat := dw d 4 35 32
def roAlign (d : Nat) : Bool := db d 4 36
def roZpi (d : Nat) : Bool := db d 4 37

def atPtab (d : Nat) : Nat := dw d 2 47 0
def atHdim (d : Nat) : Nat := dw d 3 8 0
def atGQ (d : Nat) : Nat := dw d 3 13 9
def atNkvh (d : Nat) : Nat := dw d 3 21 14
def atLayer (d : Nat) : Nat := dw d 3 31 22
def atPhase (d : Nat) : Bool := db d 3 32
def atRope (d : Nat) : Nat := dw d 3 34 33
def atCausal (d : Nat) : Bool := db d 3 35
def atAppend (d : Nat) : Bool := db d 3 36
def atQFmt (d : Nat) : Nat := dw d 3 43 40
def atKvFmt (d : Nat) : Nat := dw d 3 47 44
def atNQ (d : Nat) : Nat := dw d 4 31 0
def atPos0 (d : Nat) : Nat := dw d 4 63 32
def atCtxLen (d : Nat) : Nat := dw d 5 31 0
def atSmScale (d : Nat) : Nat := dw d 6 31 0
def atTheta (d : Nat) : Nat := dw d 6 63 32
def atFactor (d : Nat) : Nat := dw d 7 31 0

/-- Elements of a QSRC row (R143) and of an ODST row (R144). -/
def atQElems (d : Nat) : Nat := atNkvh d * (atGQ d + 2 * ofBool (atAppend d)) * atHdim d
def atOElems (d : Nat) : Nat := atNkvh d * atGQ d * atHdim d

/-- Bytes of a page slice (R151). -/
def atSB (d : Nat) : Nat := ceilDiv (16 * atHdim d * fmtBits (atKvFmt d)) 4096 * 512

def vcRows (d : Nat) : Nat := dw d 3 15 0
def vcCols (d : Nat) : Nat := dw d 3 31 16
def vcFmt0 (d : Nat) : Nat := dw d 3 35 32
def vcFmt1 (d : Nat) : Nat := dw d 3 39 36
def vcFmtD (d : Nat) : Nat := dw d 3 43 40
def vcOp (d : Nat) : Nat := dw d 3 48 44
def vcZpi (d : Nat) : Bool := db d 3 49
def vcZpo (d : Nat) : Bool := db d 3 50

/-- RMAX and RSUM: one value per row (R99). -/
def vcReduce (d : Nat) : Bool := vcOp d == 0x0D || vcOp d == 0x0E

/-- Rows and elements of a VEC destination: a reduction writes one row of ROWS values (R99). -/
def vcDstRows (d : Nat) : Nat := if vcReduce d then 1 else vcRows d
def vcDstElems (d : Nat) : Nat := if vcReduce d then vcRows d else vcCols d

def ldFmt (d : Nat) : Nat := dw d 2 3 0
def ldDual (d : Nat) : Bool := db d 2 4
def ldKext (d : Nat) : Nat := dw d 2 26 16
def mmM (d : Nat) : Nat := dw d 3 15 0
def mmFmt (d : Nat) : Nat := dw d 3 19 16
def mmSwap (d : Nat) : Bool := db d 3 20
def mvAddr (d : Nat) : Nat := dw d 1 47 0
def mvRef (d : Nat) : Nat := dw d 2 31 0
def mvTiles (d : Nat) : Nat := dw d 3 15 0

/-- Lines a LOAD reads: elements, then scales (R71). -/
def ldElemLines (d : Nat) : Nat := ceilDiv (ldKext d * fmtBits (ldFmt d)) 8
def ldSclLines (d : Nat) : Nat := if ldFmt d = 4 then ceilDiv (ldKext d) 32 else 0

/-- SWAP of a compute-path command. -/
def cpSwap (d : Nat) : Bool := if dOpc d = 2 then mmSwap d else cvSwap d

/-- Activation format of a compute-path command. -/
def cpFmt (d : Nat) : Nat := if dOpc d = 2 then mmFmt d else cvFmt d

/-- Vectors of a compute-path command (R73, R119). -/
def cpM (d : Nat) : Nat := if dOpc d = 2 then mmM d else cvOYN d * cvOXN d

/-- The operands of a command (R94, R97); `kext` is that of the tile a MATMUL uses. -/
def operandsOf (d kext : Nat) : List Operand :=
  let w1l := dw d 1 31 0; let w1h := dw d 1 63 32
  let w2l := dw d 2 31 0; let w2h := dw d 2 63 32
  match dOpc d with
  | 1 => [⟨w1l, [0], true, 4, false, ldElemLines d, 1⟩,
          ⟨w1h, [0], ldFmt d == 4, 3, false, ceilDiv (ldKext d) 32, 1⟩]
  | 2 => [⟨w1l, [1], true, 4, false, mmM d * rowLines kext (mmFmt d), 1⟩,
          ⟨w1h, [1], mmFmt d == 4, 3, false, sclLines (mmM d) kext, 1⟩,
          ⟨w2h, [2], dAcc d, 4, false, 4 * mmM d, 2⟩,
          ⟨w2l, [2], true, 4, true, 4 * mmM d, 0⟩]
  | 3 => [⟨w1l, [1], true, 4, false, mapLines (cvZpi d) (cvIH d) (cvIW d * cvCin d) (cvFmt d), 1⟩,
          ⟨w1h, [1], cvFmt d == 4, 3, false, sclLines (cvIH d) (cvIW d * cvCin d), 1⟩,
          ⟨w2h, [2], dAcc d, 4, false, 4 * cpM d, 2⟩,
          ⟨w2l, [2], true, 4, true, 4 * cpM d, 0⟩]
  | 4 => [⟨w1l, [1, 2], true, 4, false, mapLines (plZpi d) (plIH d) (plIW d * plC d) (plFmt d), 1⟩,
          ⟨w1h, [1], true, 4, true, mapLines (plZpo d) (plOH d) (plOW d * plC d) (plFmt d), 0⟩]
  | 5 => [⟨w1l, [1], true, 4, false, mapLines (roZpi d) (roFH d) (roFW d * roC d) (roFmt d), 1⟩,
          ⟨w2l, [1], true, 4, false, ceilDiv (roNBox d) 32, 2⟩,
          ⟨w1h, [1], true, 4, true, roNBox d * roPH d * rowLines (roPW d * roC d) (roFmt d), 0⟩]
  | 6 => [⟨w1l, [1], true, 4, false, atNQ d * rowLines (atQElems d) (atQFmt d), 1⟩,
          ⟨w1h, [1], true, 4, true, atNQ d * rowLines (atOElems d) (atQFmt d), 0⟩]
  | 7 => [⟨w1l, [1, 2], true, 4, false, mapLines (vcZpi d) (vcRows d) (vcCols d) (vcFmt0 d), 1⟩,
          ⟨dw d 4 63 32, [1, 2], vcFmt0 d == 4, 3, false, sclLines (vcRows d) (vcCols d), 1⟩,
          ⟨w1h, [1, 2], vcOp d == 1 || vcOp d == 2 || vcOp d == 3, 4, false,
            vcRows d * rowLines (vcCols d) (vcFmt1 d), 2⟩,
          ⟨w2h, [1, 2], vcOp d == 4 || vcOp d == 5, 4, false, 2 * rowLines (vcCols d) 7, 0⟩,
          ⟨w2l, [1, 2], true, 4, true, (if vcZpo d then zrExtent (vcRows d) (vcCols d) (vcFmtD d)
            else vcDstRows d * rowLines (vcDstElems d) (vcFmtD d)), 0⟩,
          ⟨dw d 4 31 0, [1, 2], vcFmtD d == 4, 3, true, sclLines (vcDstRows d) (vcDstElems d), 0⟩]
  | 8 => [⟨mvRef d, [0, 1, 2], true, 4, true, 128 * mvTiles d, 0⟩]
  | 9 => [⟨mvRef d, [0, 1, 2], true, 4, false, 128 * mvTiles d, 1⟩]
  | _ => []

/-! ### Checks on the descriptor alone -/

/-- Listed bits of word `w` of a command (R93, R97). -/
def listedBits (opc w : Nat) : Nat :=
  let all := 2 ^ 64 - 1
  if w = 0 then all - 0xE000 else
  match opc, w with
  | 1, 1 => all | 1, 2 => 0x07FF001F
  | 2, 1 => all | 2, 2 => all | 2, 3 => 0x1FFFFF
  | 3, 1 => all | 3, 2 => all | 3, 3 => 2 ^ 54 - 1 | 3, 4 => 2 ^ 52 - 1 | 3, 5 => all | 3, 6 => 0xFFFF
  | 4, 1 => all | 4, 2 => 2 ^ 56 - 1 | 4, 3 => 2 ^ 34 - 1 | 4, 4 => 0xFFFFFFFF
  | 5, 1 => all | 5, 2 => 2 ^ 43 - 1 | 5, 3 => all | 5, 4 => 2 ^ 38 - 1
  | 6, 1 => all | 6, 2 => 2 ^ 48 - 1 | 6, 3 => 0xFF1FFFFFFFFF | 6, 4 => all | 6, 5 => 0xFFFFFFFF
  | 6, 6 => all | 6, 7 => 0xFFFFFFFF
  | 7, 1 => all | 7, 2 => all | 7, 3 => 2 ^ 51 - 1 | 7, 4 => all
  | 8, 1 => 2 ^ 48 - 1 | 8, 2 => 0xFFFFFFFF | 8, 3 => 0xFFFF
  | 9, 1 => 2 ^ 48 - 1 | 9, 2 => 0xFFFFFFFF | 9, 3 => 0xFFFF
  | 10, 1 => 0x11F
  | _, _ => 0

/-- Format fields of a command. -/
def fmtFields (d : Nat) : List Nat :=
  match dOpc d with
  | 1 => [ldFmt d] | 2 => [mmFmt d] | 3 => [cvFmt d] | 4 => [plFmt d] | 5 => [roFmt d]
  | 6 => [atQFmt d, atKvFmt d] | 7 => [vcFmt0 d, vcFmt1 d, vcFmtD d]
  | _ => []

/-- Code 0x02: reserved bits, formats and operations (R95–R97, R99, R103, R176). -/
def badReserved (d : Nat) : Bool :=
  let o := dOpc d
  (List.range 8).any (fun w => dw d w 63 0 &&& (2 ^ 64 - 1 - listedBits o w) != 0) ||
    (dAcc d && o != 2 && o != 3) || (fmtFields d).any (8 < ·) || (operandsOf d 0).any (fun p => refBad p.ref) ||
    (o == 7 && 0x0E < vcOp d) || (o == 6 && atRope d == 3)

/-- Formats a packed operand may have (R116). -/
def packedFmt (f : Nat) : Bool := f != 4 && f < 7

/-- Code 0x03 on the descriptor alone (R96, R97, R103, R116, R123, R145, R176). -/
def badFormat (d : Nat) : Bool :=
  let pres := (operandsOf d 0).any fun p => p.code == 3 && (p.ref != noRef) != p.need
  pres || (match dOpc d with
  | 1 => 6 < ldFmt d || (ldDual d && ldFmt d != 1 && ldFmt d != 4) || (ldFmt d == 4 && !ldDual d)
  | 2 => 6 < mmFmt d
  | 3 => 6 < cvFmt d || (cvZpi d && (cvFmt d == 4 || dw d 1 63 32 != noRef))
  | 4 => plFmt d == 4 || plFmt d == 8 || (refStore (dw d 1 31 0) == 2 && plFmt d != 7) ||
      ((plZpi d || plZpo d) && !packedFmt (plFmt d))
  | 5 => roFmt d == 4 || roFmt d == 8 || (roZpi d && !packedFmt (roFmt d))
  | 6 => !([7, 5, 6, 2, 3].contains (atQFmt d)) || !([5, 6, 2, 3].contains (atKvFmt d)) ||
      refStore (dw d 1 31 0) != 1 || refStore (dw d 1 63 32) != 1
  | 7 => vcFmt1 d == 4 || vcFmtD d == 8 || (vcFmt0 d == 8 && refStore (dw d 1 31 0) != 2) ||
      (vcFmt1 d == 8 && refStore (dw d 1 63 32) != 2) ||
      (vcZpi d && !packedFmt (vcFmt0 d)) || (vcZpo d && !packedFmt (vcFmtD d))
  | _ => false)

/-- A weight and activation pair of R53. -/
def pairOk (wfmt : Nat) (dual : Bool) (afmt : Nat) : Bool :=
  match wfmt with
  | 0 => afmt == 0
  | 1 => if dual then afmt == 1 else afmt == 0
  | 2 => afmt == 2 || afmt == 3
  | 3 => afmt == 2 || afmt == 3
  | 4 => afmt == 4 && dual
  | 5 => afmt == 5
  | 6 => afmt == 6
  | _ => false

/-- Group width of a CONV (R117). -/
def cvG (d : Nat) : Nat := if cvGW d = 0 then cvCin d else cvGW d

/-- An FP32 operand of an ATTN is finite. -/
def finiteWord (w : Nat) : Bool := f32IsFinite (BitVec.ofNat 32 w)

/-- Code 0x07 on the descriptor alone (R103, R123, R138, R139, R160, R176). -/
def badGeometry (d : Nat) : Bool :=
  match dOpc d with
  | 1 => ldKext d == 0 || (if ldDual d then 1024 else 512) < ldKext d
  | 2 => mmM d == 0
  | 3 =>
    let out := fun x => x == 0 || 8 < x
    cvKH d == 0 || 16 < cvKH d || cvKW d == 0 || 16 < cvKW d ||
    out (cvSH d) || out (cvSW d) || out (cvDH d) || out (cvDW d) ||
    cvCin d == 0 || 1024 < cvCin d || cvIH d == 0 || cvIW d == 0 || cvOYN d == 0 || cvOXN d == 0 ||
    65535 < cvOYN d * cvOXN d || (cvGW d != 0 && cvCin d % cvGW d != 0) ||
    (cvFmt d == 4 && (cvCin d % 32 != 0 || cvG d % 32 != 0)) ||
    28672 < ((cvKW d - 1) * cvDW d + 1) * cvCin d * fmtBits (cvFmt d) ||
    cvIH d + cvPB d + cvPT d < (cvOY0 d + cvOYN d - 1) * cvSH d + (cvKoffY d + cvKH d - 1) * cvDH d + 1 ||
    cvIW d + cvPR d + cvPL d < (cvOX0 d + cvOXN d - 1) * cvSW d + (cvKoffX d + cvKW d - 1) * cvDW d + 1
  | 4 =>
    let hp := plIH d + plPT d + plPB d; let wp := plIW d + plPL d + plPR d
    plKH d == 0 || 16 < plKH d || plKW d == 0 || 16 < plKW d || plSH d == 0 || 8 < plSH d || plSW d == 0 ||
    8 < plSW d || hp < plKH d || wp < plKW d || plOH d != (hp - plKH d) / plSH d + 1 ||
    plOW d != (wp - plKW d) / plSW d + 1
  | 5 => roNBox d == 0 || 1024 < roNBox d || roPH d == 0 || 32 < roPH d || roPW d == 0 || 32 < roPW d ||
      roSR d == 0 || 8 < roSR d || roFH d == 0 || roFW d == 0 || roC d == 0
  | 6 =>
    atHdim d == 0 || 256 < atHdim d || atGQ d == 0 || 16 < atGQ d || atNkvh d == 0 || atNQ d == 0 ||
    atCtxLen d == 0 ||
    (atRope d != 0 && (atHdim d % 2 != 0 || !finiteWord (atTheta d) ||
      !flLt 0x3F800000#32 (BitVec.ofNat 32 (atTheta d)) || !finiteWord (atFactor d) ||
      flLt (BitVec.ofNat 32 (atFactor d)) 0x3F800000#32)) ||
    16777216 < atCtxLen d ||
    (if atAppend d then atPos0 d + atNQ d != atCtxLen d else atCtxLen d < atPos0 d + atNQ d) ||
    (atPhase d && 256 < atNQ d * atGQ d) || atPtab d % 64 != 0
  | 7 => vcRows d == 0 || vcCols d == 0 || ((vcFmt0 d == 4 || vcFmtD d == 4) && vcCols d % 32 != 0)
  | 8 => mvTiles d == 0
  | 9 => mvTiles d == 0
  | _ => false

/-- Two spans of one region cover a common line offset, whatever their laps (R98). -/
def spansMeet (l : Nat) (a b : Operand) : Bool :=
  refStore a.ref == refStore b.ref && refRgn a.ref == refRgn b.ref && a.span != 0 && b.span != 0 && l != 0 &&
    ((bitsOf b.ref 15 0 + l - bitsOf a.ref 15 0 % l) % l < a.span ||
      (bitsOf a.ref 15 0 + l - bitsOf b.ref 15 0 % l) % l < b.span)

end Sys2Proof.Machine
end

