-- ==== Sys2Proof/Machine/Fabric.lean ====
section
/-! DEFINITION. Accesses to the Fabric Address Space: windows, the directory, ownership, publication, the tiers
beneath, uncorrectable reads (R177–R207, R215–R217). -/

namespace Sys2Proof.Machine

open Sys2Proof Sys2Proof.Machine.Reg

/-! ### The directory -/

/-- The object that covers a 64 KiB unit (R178); none until the placement engine is ready (R214). -/
def objectAt (s : State) (unit : Nat) : Option (Nat × PltEntry) :=
  if s.on MEM_PLT_CTRL_READY then
    s.plt.find? fun p => p.2.base ≤ unit && unit < p.2.base + p.2.size
  else none

/-- Replace the entry of an object. -/
def State.setObj (s : State) (i : Nat) (e : PltEntry) : State := { s with plt := tset s.plt i e }

/-- Valid protected ranges of MEM_PROT (R206): first unit, units, and units of the data part. -/
def protRanges (s : State) : List (Nat × Nat × Nat) :=
  (List.range 8).filterMap fun r =>
    let n := s.get (MEM_PROT_SIZE r)
    if s.on (MEM_PROT_VALID r) && 1 ≤ n && n ≤ 64 then
      some (s.get (MEM_PROT_BASE r) * 16384, n * 16384, n * 15360)
    else none

/-- A run of LPDDR5X units lies wholly in the data part of one protected range. -/
def inProtData (s : State) (u n : Nat) : Bool :=
  (protRanges s).any fun r => r.1 ≤ u && u + n ≤ r.1 + r.2.2

/-- A run of LPDDR5X units touches no protected range. -/
def inFreeSpace (s : State) (u n : Nat) : Bool :=
  (protRanges s).all fun r => u + n ≤ r.1 || r.1 + r.2.1 ≤ u

/-! ### Protection windows (R517) and context windows (R216) -/

/-- The windows in force: the fused ones, or every window closed while PROT is damaged (R514). -/
def protWindows (s : State) : List Nat :=
  if s.fuses.protMark then s.fuses.protWin
  else if s.fuses.protWin.any (· ≠ 0) || s.fuses.protDbg ≠ 0 || s.fuses.protPert ≠ 0 then
    [2 ^ 63 + 2 ^ 62 + 0xF * 2 ^ 52 + 0xFFFFFF * 2 ^ 24]
  else s.fuses.protWin

/-- An access falls in a fused window: initiator bit `ib` of INIT, a write or a closed read (R517). -/
def protClosed (s : State) (ib addr : Nat) (write : Bool) : Bool :=
  (protWindows s).any fun w =>
    bitOf w 63 && bitOf (bitsOf w 55 52) ib && (write || bitOf w 62) &&
      bitsOf w 23 0 ≤ addr / 0x1000000 && addr / 0x1000000 < bitsOf w 47 24

/-- The INIT bit of R517 for an initiator; control harts have none. -/
def protBit : Initiator → Option Nat
  | .pcie => some 0
  | .app _ => some 1
  | .ctl _ => none

/-- An address lies inside the window of a context (R216). -/
def inWindow (s : State) (ctx addr : Nat) : Bool :=
  s.get (SCH_CTX_WIN_BASE ctx) ≤ addr / 65536 && addr / 65536 < s.get (SCH_CTX_WIN_LIMIT ctx)

/-! ### Uncorrectable reads (R207) -/

/-- Poisoned blocks in a run of bytes. -/
def poisonedIn (s : State) (a n : Nat) : List Nat :=
  s.poison.filter fun b => a / 32 ≤ b && b * 32 < a + n

/-- An uncorrectable read is counted and logged (R207, R212). Sources: 0 core, 1 migration, 2 hart, 3 PCIe,
4 scrubber. `pa` is the LPDDR5X physical address; for another tier the spec states none, and it is free. -/
def State.logUe (s : State) (src pcore ctxv ctx : Nat) (pa : Option Nat) : State :=
  let s := (s.count MEM_ECC_UE_VALUE 1).setOn MEM_EVT_UE
  let a := match pa with | some a => a | none => (Config.freeWord s.free).toNat
  { s.wr MEM_ERR_LOG (BitVec.ofNat 64 (pcore % 8 * 2 ^ 48 + src % 8 * 2 ^ 44 + ctxv % 2 * 2 ^ 42 +
      ctx % 64 * 2 ^ 36 + a % 2 ^ 36 / 32 * 32)) with free := s.free + 1 }

/-- The LPDDR5X physical address of a place, none for another tier. -/
def placePa (a : Nat) : Option Nat :=
  if areaBase 3 ≤ a ∧ a < areaBase 4 then some (a - areaBase 3) else none

/-- Bytes from a place with every block of `bad` undetermined: what an engine reads where the spec states no
outcome of an uncorrectable read. -/
def freeBlocks (s : State) (a : Nat) (bad : List Nat) (bs : List Byte) : List Byte :=
  (List.range bs.length).map fun i =>
    if (a + i) / 32 ∈ bad then Config.freeByte s.free (a + i) else bs.getD i 0#8

/-- The lookup cache takes an entry in (R179); which entry of a full cache leaves is open (log entry 20). -/
def cacheFill (s : State) (key : Nat) : State :=
  if s.cache.contains key then s
  else if s.cache.length < 16384 then { s with cache := key :: s.cache }
  else { s with cache := key :: s.cache.eraseIdx ((Config.freeWord s.free).toNat % 16384), free := s.free + 1 }

/-- A resolution of R180 looks up the directory entry of a unit and the table entry that it names; a miss of the cache
of R179 is counted, and takes them in. -/
def State.lookup (s : State) (addr : Nat) : State :=
  let keys := (addr / 65536) :: (match objectAt s (addr / 65536) with | some (i, _) => [2 ^ 24 + i] | none => [])
  if !s.on MEM_PLT_CTRL_READY || keys.all s.cache.contains then s
  else keys.foldl cacheFill (s.countWrap MEM_PLT_CNT_LKMISS_VALUE 1)

/-- An access of `len` bytes that lies in its context's window is resolved, and so looked up (R180, R216). -/
def State.looked (s : State) (ctx addr len : Nat) : State :=
  if inWindow s ctx addr && inWindow s ctx (addr + len - 1) then s.lookup addr else s

/-- Bytes from a place with every block of `bad` read as zero (R207, core PULL). -/
def zeroBlocks (a : Nat) (bad : List Nat) (bs : List Byte) : List Byte :=
  (List.range bs.length).map fun i => if (a + i) / 32 ∈ bad then 0#8 else bs.getD i 0#8

/-- A block of a place lies in protected data (R206). -/
def blockProtected (s : State) (b : Nat) : Bool :=
  match placePa (b * 32) with
  | some pa => inProtData s (pa / 65536) 1
  | none => false

/-- What the reads of a 64 KiB tile from a place in a tier meet (R206, R207, R212): code `x` below 2,048 an uncorrectable
block `x`, 2,048 more a block corrected in line, 4,096 more one that link ECC corrected. An error of a kind that the
tier or block cannot report does not occur. The answer lists the uncorrectable blocks, poisoned ones among them. -/
def State.tileErrors (s : State) (tier a : Nat) (errs : List Nat) : State × List Nat :=
  if tier ≠ 3 then (s, [])
  else
    let block := fun x => a / 32 + x % 2048
    let link := s.on MEM_DDR_CTRL_LINKECC
    let cei := (errs.filter fun x => x / 2048 == 1 && blockProtected s (block x)).length
    let cel := (errs.filter fun x => x / 2048 == 2 && link).length
    let s := if cei = 0 then s else (s.count MEM_ECC_CEI_VALUE cei).setOn MEM_EVT_CE
    let s := if cel = 0 then s else (s.count MEM_ECC_CEL_VALUE cel).setOn MEM_EVT_CE
    let new := (errs.filter fun x => x < 2048 && (link || blockProtected s (block x))).map block
    (s, poisonedIn s a 65536 ++ new.filter fun b => !s.poison.contains b)

/-- Writing whole blocks clears their poison (R206). -/
def State.unpoison (s : State) (a n : Nat) : State :=
  { s with poison := s.poison.filter fun b => !(a ≤ b * 32 && b * 32 + 32 ≤ a + n) }

/-! ### Resolution (R180) -/


/-- Resolution of an access of `len` bytes to the object under it: the cause of a violation, or the object. `small` is
an access of a hart, the host or an engine, which do not reach SPAD (R182); a tile of the tile mover is not small. -/
def resolve (s : State) (small : Bool) (ctx addr len : Nat) (write : Bool) :
    Except Nat (Nat × PltEntry) :=
  if !inWindow s ctx addr || !inWindow s ctx (addr + len - 1) then .error 5
  else match objectAt s (addr / 65536) with
    | none => .error 0
    | some (i, e) =>
      if (addr + len - 1) / 65536 ≥ e.base + e.size then .error 0
      else if small && (e.tier = 1 || e.tier = 5) then .error 1
      else if write && e.tier = 5 then .error 1
      else if e.ctx ≠ ctx && (write || !e.shr) then .error 5
      else .ok (i, e)

/-- A reader of another context sees zeros while the object is not published (R201). -/
def unpublished (s : State) (ctx : Nat) (e : PltEntry) : Bool :=
  e.ctx ≠ ctx && e.unc &&
    !(e.wtag ≠ 0xFFF && match tget s.tags e.wtag with | some t => t.committed | none => false)

/-- Bus Master Enable allows HOST-tier traffic (R473). -/
def hostUp (s : State) : Bool := s.on FLD_PCI_STAT_BME

/-- Place of byte `ofs` of an object in its home. -/
def objPlace (e : PltEntry) (ofs : Nat) : Nat := tierPlace e.tier e.taddr ofs

/-- Place of byte `ofs` of an object in the destination of its migration. -/
def dstPlace (e : PltEntry) (ofs : Nat) : Nat := tierPlace e.dtier e.dtaddr ofs

/-! ### The directory and the table in LPDDR5X (R178, R183, R184) -/

/-- An entry as 32 bytes (R184). -/
def entryBytes (e : PltEntry) : List Byte :=
  leBytes 8 (e.base % 2 ^ 24 + e.size % 2 ^ 24 * 2 ^ 24 + e.tier % 16 * 2 ^ 48 + e.st % 16 * 2 ^ 52 +
      e.pin % 256 * 2 ^ 56) ++
    leBytes 8 (e.taddr % 2 ^ 48 + e.ctx % 64 * 2 ^ 48 + ofBool e.shr * 2 ^ 54 + ofBool e.nopub * 2 ^ 55 +
      ofBool e.unc * 2 ^ 56 + ofBool e.err * 2 ^ 57) ++
    leBytes 8 (e.wtag % 2 ^ 12 + e.dtier % 16 * 2 ^ 12 + e.dtaddr % 2 ^ 48 * 2 ^ 16) ++
    leBytes 8 (e.moved % 2 ^ 24 + e.rslot % 2 ^ 16 * 2 ^ 24)

/-- Entries of the table: COUNT, at most 1,048,576 (R213). -/
def pltCount (s : State) : Nat := min (s.get MEM_PLT_COUNT_VALUE) 1048576

/-- The directory word of a unit: VALID and the index of the object that covers it (R178). -/
def dirWord (s : State) (unit : Nat) : Nat :=
  match s.plt.find? fun p => p.2.base ≤ unit && unit < p.2.base + p.2.size with
  | some (i, _) => 2 ^ 31 + i % 2 ^ 20
  | none => 0

/-- What the placement engine keeps at a byte of LPDDR5X physical space, once it has been enabled: the table's entries,
a FREE one zeros, the 4 MiB publication log behind them, whose layout the spec does not give, and the directory. -/
def engineByte (s : State) (pa : Nat) : Option Byte :=
  let tbl := s.get MEM_PLT_TBL_UNIT * 65536
  let dir := s.get MEM_PLT_DIR_UNIT * 65536
  let n := pltCount s * 32
  if s.plt.isEmpty then none
  else if tbl ≤ pa ∧ pa < tbl + n then
    some (match tget s.plt ((pa - tbl) / 32) with | some e => (entryBytes e).getD ((pa - tbl) % 32) 0#8 | none => 0#8)
  else if tbl + n ≤ pa ∧ pa < tbl + n + 0x400000 then some (Config.freeByte s.free pa)
  else if dir ≤ pa ∧ pa < dir + 0x4000000 then
    some (BitVec.ofNat 8 (dirWord s ((pa - dir) / 4) / 2 ^ (8 * ((pa - dir) % 4))))
  else none

/-- A run of places meets the table, the log or the directory. -/
def meetsEngine (s : State) (a n : Nat) : Bool :=
  let meets := fun lo size => areaBase 3 + lo < a + n && a < areaBase 3 + lo + size
  !s.plt.isEmpty && (meets (s.get MEM_PLT_TBL_UNIT * 65536) (pltCount s * 32 + 0x400000) ||
    meets (s.get MEM_PLT_DIR_UNIT * 65536) 0x4000000)

/-- Bytes of a tier from a place on: memory, and in LPDDR5X what the placement engine keeps there. -/
def tierLoad (s : State) (a n : Nat) : List Byte :=
  if meetsEngine s a n then
    (List.range n).map fun i =>
      match placePa (a + i) with
      | some pa => (engineByte s pa).getD (memGet s.mem (a + i))
      | none => memGet s.mem (a + i)
  else s.load a n

/-- Bytes of an object, read from the source of any migration (R196). -/
def objRead (s : State) (e : PltEntry) (ofs n : Nat) : List Byte := tierLoad s (objPlace e ofs) n

/-- The tile of an offset of an object is the one in copy of its migration (R196). -/
def inCopy (e : PltEntry) (ofs : Nat) : Bool := (e.st == 2 || e.st == 3) && ofs / 65536 == e.moved

/-- A MAINT slot holds accesses to LPDDR5X (R223). -/
def ddrHeld (s : State) : Bool := s.on SCH_CTRL_READY && s.get SCH_NOW_KIND == 1

/-- The object that an address names lies in LPDDR5X, and a MAINT slot holds it (R223). -/
def tierHeld (s : State) (addr : Nat) : Bool :=
  match objectAt s (addr / 65536) with
  | some (_, e) => e.tier == 3 && ddrHeld s
  | none => false

/-- Bytes written into an object (R196): below MOVED to both copies, to the tile in copy held until it has
been written, above it to the source only. -/
def objWrite (s : State) (i : Nat) (e : PltEntry) (ofs : Nat) (bs : List Byte) : State :=
  let moving := e.st = 2 ∨ e.st = 3
  if inCopy e ofs then
    let m := tgetD s.migs i { reqs := [], cancels := [], waiting := [], tileAt := s.cyc }
    { s with migs := tset s.migs i { m with waiting := m.waiting ++ [{ since := s.cyc, ofs := ofs, bytes := bs }] } }
  else
    let s := (s.store (objPlace e ofs) bs).unpoison (objPlace e ofs) bs.length
    if moving ∧ ofs / 65536 < e.moved then
      (s.store (dstPlace e ofs) bs).unpoison (dstPlace e ofs) bs.length
    else s

/-- Lines that a core writes in place of a SPAD object (R182) go to the destination of its migration too, below MOVED
(R196). The tile in copy is copied when it has been written, so it takes them with it. -/
def mirrorWrite (s : State) (a : Nat) (bs : List Byte) : State :=
  s.plt.foldl (fun (s : State) p =>
    let e := p.2
    if (e.st = 2 ∨ e.st = 3) ∧ e.tier = 1 ∧ objPlace e 0 ≤ a ∧ a + bs.length ≤ objPlace e (e.moved * 65536) then
      s.store (dstPlace e (a - objPlace e 0)) bs
    else s) s

/-- A write of a step reaches an object (R200): UNC and WTAG are set and the object is logged under the
step's tag. -/
def markPublication (s : State) (i : Nat) (e : PltEntry) (tag : Option Nat) : State :=
  match tag with
  | none => s
  | some t =>
    if e.nopub then s else
    let s := if e.unc && e.wtag = t then s else s.setObj i { e with unc := true, wtag := t }
    let ts := tgetD s.tags t { committed := false, log := [], overflow := false }
    if i ∈ ts.log then s
    else if ts.log.length < 256 then
      { s with tags := tset s.tags t { ts with log := ts.log ++ [i] } }
    else { s with tags := tset s.tags t { ts with overflow := true } }

/-! ### Accesses of the device's own engines -/

/-- A run cut at the 64 KiB units it meets: address and length of each piece. -/
def unitCuts (addr len : Nat) : List (Nat × Nat) :=
  (List.range ((addr + len - 1) / 65536 + 1 - addr / 65536)).map fun k =>
    let lo := max addr ((addr / 65536 + k) * 65536)
    (lo, min (addr + len) ((addr / 65536 + k + 1) * 65536) - lo)

/-- The accesses of an engine's run: one where it lies in an object that no migration copies, else one for each unit
that it meets (DESIGN CHOICE, log entry 67: the spec does not cut an engine's run into accesses). -/
def runPieces (s : State) (ctx addr len : Nat) (write : Bool) : List (Nat × Nat) :=
  match resolve s true ctx addr len write with
  | .ok (_, e) => if e.st = 2 ∨ e.st = 3 then unitCuts addr len else [(addr, len)]
  | .error _ => unitCuts addr len

/-- One access of an engine that reads for a context, outside any step. The answer's number is 0 for good bytes,
1 for a violation (bytes of zeros, counted), 2 for an uncorrectable read (counted and logged; its blocks are
undetermined, and its source, which R212 gives other engines no code for, is free). What another module holds is not
part of this one's state: bytes of a PEER object are free. -/
def engineReadOne (s : State) (init ctx addr len : Nat) : State × Nat × List Byte :=
  match resolve s true ctx addr len false with
  | .error c =>
    let s := s.looked ctx addr len
    (match resolve s false ctx addr len false with
    | .ok (_, e) =>
      if e.tier = 5 then
        ({ s with free := s.free + 1 }, 0, (List.range len).map fun i => Config.freeByte s.free (addr + i))
      else (s.violation c init ctx addr false, 1, List.replicate len 0#8)
    | .error _ => (s.violation c init ctx addr false, 1, List.replicate len 0#8))
  | .ok (_, e) =>
    let s := s.lookup addr
    let ofs := addr - e.base * 65536
    if unpublished s ctx e then (s.count MEM_PLT_CNT_UNCREAD_VALUE 1, 0, List.replicate len 0#8)
    else
      let a := objPlace e ofs
      let src := (Config.freeWord (s.free + 1)).toNat % 8
      if e.tier = 4 ∧ !hostUp s then
        let s := (s.count (FLD_PCI_CNT_VALUE 1) 1).setOn FLD_PCI_EVT_NOBME
        ({ s.logUe src 0 1 ctx none with free := s.free + 2 }, 2,
          (List.range len).map fun i => Config.freeByte s.free (a + i))
      else match poisonedIn s a len with
      | [] => (s, 0, objRead s e ofs len)
      | b :: bs =>
        ({ s.logUe src 0 1 ctx (placePa (b * 32)) with free := s.free + 2 }, 2,
          freeBlocks s a (b :: bs) (objRead s e ofs len))

/-- The worse of two answers' numbers: a violation before an uncorrectable read. -/
def joinCode (a b : Nat) : Nat := if a = 0 then b else if b = 0 then a else min a b

/-- An engine reads a run of bytes for a context, outside any step. -/
def engineRead (s : State) (init ctx addr len : Nat) : State × Nat × List Byte :=
  (runPieces s ctx addr len false).foldl (fun acc p =>
    let r := engineReadOne acc.1 init ctx p.1 p.2
    (r.1, joinCode acc.2.1 r.2.1, acc.2.2 ++ r.2.2)) (s, 0, [])

/-- One access of an engine that writes for a context, outside any step; a violating write is dropped and
counted. The answer says whether the write was served. -/
def engineWriteOne (s : State) (init ctx addr : Nat) (bs : List Byte) : State × Bool :=
  match resolve s true ctx addr bs.length true with
  | .error c => ((s.looked ctx addr bs.length).violation c init ctx addr true, false)
  | .ok (i, e) =>
    let s := s.lookup addr
    if e.tier = 4 ∧ !hostUp s then ((s.count (FLD_PCI_CNT_VALUE 1) 1).setOn FLD_PCI_EVT_NOBME, true)
    else (objWrite s i e (addr - e.base * 65536) bs, true)

/-- An engine writes a run of bytes for a context, outside any step: whether all of it was served. -/
def engineWrite (s : State) (init ctx addr : Nat) (bs : List Byte) : State × Bool :=
  (runPieces s ctx addr bs.length true).foldl (fun acc p =>
    let r := engineWriteOne acc.1 init ctx p.1 ((bs.drop (p.1 - addr)).take p.2)
    (r.1, acc.2 && r.2)) (s, true)

/-- The run of bytes lies in one object of a context, outside SPAD and PEER: what a table or ring of the
device needs (R220, R327, R366, R427). Nothing is counted. -/
def inOneObject (s : State) (ctx addr len : Nat) : Bool :=
  match resolve s true ctx addr len true with
  | .ok _ => true
  | .error _ => false

/-- One access of such a table: its bytes, none where they are not readable. -/
def quietReadOne (s : State) (ctx addr len : Nat) : Option (List Byte) :=
  match resolve s true ctx addr len false with
  | .error _ => none
  | .ok (_, e) =>
    if unpublished s ctx e then some (List.replicate len 0#8)
    else if e.tier = 4 ∧ !hostUp s then none
    else if poisonedIn s (objPlace e (addr - e.base * 65536)) len ≠ [] then none
    else some (objRead s e (addr - e.base * 65536) len)

/-- Bytes of a table the scheduler or an engine reads without counting a violation; none where it is not
readable (R217, R252). -/
def quietRead (s : State) (ctx addr len : Nat) : Option (List Byte) :=
  (runPieces s ctx addr len false).foldl (fun acc p =>
    match acc, quietReadOne s ctx p.1 p.2 with
    | some a, some b => some (a ++ b)
    | _, _ => none) (some [])

/-- What one such access leaves: the lookup, and where its bytes are not the stored ones the count of an unpublished
object or of an uncorrectable read, whose source code R212 does not give (R201, R207). -/
def tableReadOne (s : State) (ctx addr len : Nat) : State :=
  match resolve s true ctx addr len false with
  | .error _ => s.looked ctx addr len
  | .ok (_, e) =>
    let s := s.lookup addr
    if unpublished s ctx e then s.count MEM_PLT_CNT_UNCREAD_VALUE 1
    else
      let src := (Config.freeWord (s.free + 1)).toNat % 8
      if e.tier = 4 ∧ !hostUp s then
        { ((s.count (FLD_PCI_CNT_VALUE 1) 1).setOn FLD_PCI_EVT_NOBME).logUe src 0 1 ctx none with free := s.free + 2 }
      else match poisonedIn s (objPlace e (addr - e.base * 65536)) len with
      | [] => s
      | b :: _ => { s.logUe src 0 1 ctx (placePa (b * 32)) with free := s.free + 2 }

/-- What the read of a table leaves. -/
def State.tableRead (s : State) (ctx addr len : Nat) : State :=
  (runPieces s ctx addr len false).foldl (fun t p => tableReadOne t ctx p.1 p.2) s

/-- Bytes written by the scheduler into one of its own structures; nothing where there is no object (R181,
R217). -/
def quietWrite (s : State) (addr : Nat) (bs : List Byte) : State :=
  match objectAt s (addr / 65536) with
  | none => s
  | some (i, e) => if e.tier = 1 ∨ e.tier = 5 then s else objWrite (s.lookup addr) i e (addr - e.base * 65536) bs

end Sys2Proof.Machine
end

