-- ==== Sys2Proof/Machine/Placement.lean ====
section
/-! DEFINITION. Memory tiers: placement requests, migrations, publication, scrubbing, and accesses of harts and
the host to the Fabric Address Space (R177–R214). -/

namespace Sys2Proof.Machine

open Sys2Proof Sys2Proof.Machine.Reg

/-! ### The table and tier addresses -/

/-- 64 KiB units of a store of a core: 0 W, 1 A, 2 P; no other store exists (R75). -/
def storeUnits : Nat → Nat
  | 0 => 320
  | 1 => 192
  | 2 => 64
  | _ => 0

/-- LPDDR5X units of the grade (R185). -/
def ddrUnits (s : State) : Nat := if s.fuses.grade = 0x0B then 524288 else 1048576

/-- The range rule of R185 for an object of `size` tiles; a bit outside the tier's layout breaks it (DESIGN CHOICE,
log entry 8). -/
def tierOk (s : State) (tier taddr size : Nat) : Bool :=
  match tier with
  | 1 => taddr < 2 ^ 16 && bitsOf taddr 10 9 == 0 && bitOf s.fuses.phys (bitsOf taddr 15 13) &&
      bitsOf taddr 8 0 + size ≤ storeUnits (bitsOf taddr 12 11)
  | 2 => taddr + size ≤ 256
  | 3 => taddr + size ≤ ddrUnits s && (inFreeSpace s taddr size || inProtData s taddr size)
  | 4 => true
  | 5 => bitsOf taddr 44 24 == 0 && bitsOf taddr 47 45 != s.get CWY_STAT_MODNUM
  | _ => false

/-- Migrations in progress (R195). -/
def migrations (s : State) : Nat := (s.plt.filter fun p => p.2.st = 2 ∨ p.2.st = 3).length

/-- MEM_PLT_LIVE and MEM_PLT_MIGR follow the table (R213, R214). -/
def State.pltCounts (s : State) : State :=
  (s.put MEM_PLT_LIVE_VALUE s.plt.length).put MEM_PLT_MIGR_VALUE (migrations s)

/-! ### The request ring -/

/-- Place of a slot of the request ring, in the ring object (R186). -/
def ringSlotPlace (s : State) (slot : Nat) : Nat :=
  match tget s.plt 0 with
  | some e => objPlace e (s.get MEM_PLQ_BASE_ADDR * 64 + slot * 64 - e.base * 65536)
  | none => 0

/-- Slots of the ring (R186, R213). -/
def ringSize (s : State) : Nat := ringSlots (s.get MEM_PLQ_SIZE_LOG2) 6 16

/-- The fields of a request (R188). -/
def reqOf (slot : Nat) (bs : List Byte) : PltReq :=
  let w0 := word64 bs 0; let w1 := word64 bs 1; let w2 := word64 bs 2
  { slot := slot, op := bitsOf w0 7 0, pri := bitsOf w0 18 16, irq := bitOf w0 19, obj := bitsOf w0 51 32
    base := bitsOf w1 23 0, size := bitsOf w1 47 24, ctx := bitsOf w1 53 48, shr := bitOf w1 54
    nopub := bitOf w1 55, tier := bitsOf w2 3 0, taddr := bitsOf w2 63 16 }

/-- Bytes of a slot that a request uses, operands and results (R188; DESIGN CHOICE byte by byte, log entry 8). -/
def reqUses (op i : Nat) : Bool :=
  i ≤ 2 || (4 ≤ i && i ≤ 6) ||
    (match op with
     | 1 => (8 ≤ i && i ≤ 14) || i == 16 || (18 ≤ i && i ≤ 23)
     | 3 => i == 16 || (18 ≤ i && i ≤ 23) || (24 ≤ i && i ≤ 30) || (32 ≤ i && i ≤ 34)
     | 4 => i == 16 || (18 ≤ i && i ≤ 23) || (24 ≤ i && i ≤ 30) || (32 ≤ i && i ≤ 34)
     | 7 => 32 ≤ i
     | _ => false)

/-- A request with a reserved OP or a non-zero unused byte (R189). -/
def badRequest (bs : List Byte) : Bool :=
  let op := (bs.getD 0 0#8).toNat
  op = 0 || 7 < op || (List.range 64).any fun i => !reqUses op i && bs.getD i 0#8 != 0#8

/-- The request at the head of the ring, while the engine is ready and the ring is not empty (R187); its work on the
table in LPDDR5X waits for a MAINT slot to end (R223). -/
def headRequest (s : State) : Option (List Byte × PltReq) :=
  if s.on MEM_PLT_CTRL_READY ∧ s.get MEM_PLQ_CONS_INDEX ≠ s.get MEM_PLQ_PROD_INDEX ∧ !ddrHeld s then
    let slot := s.get MEM_PLQ_CONS_INDEX % ringSize s
    let bs := s.load (ringSlotPlace s slot) 64
    some (bs, reqOf slot bs)
  else none

/-- A request is taken from the ring (R187). -/
def State.advanceRing (s : State) : State := s.put MEM_PLQ_CONS_INDEX (s.get MEM_PLQ_CONS_INDEX + 1)

/-- The final STATUS of a request (R189), with the events of R213. -/
def State.reqStatus (s : State) (r : PltReq) (status : Nat) : State :=
  let s := s.store (ringSlotPlace s r.slot + 1) [BitVec.ofNat 8 status]
  let s := if 0x10 ≤ status ∧ status ≤ 0x17 then
      (s.count MEM_PLT_CNT_REFUSED_VALUE 1).setOn MEM_PLT_EVT_REFUSED else s
  let s := if status = 0x02 then s.setOn MEM_PLT_EVT_CANCEL else s
  let s := if status = 0x18 then s.setOn MEM_PLT_EVT_UNCORR else s
  if r.irq then s.setOn MEM_PLT_EVT_DONE else s

/-- The results of a migration that ended (R198): TILES, and the home the object left. A cancelled or failed
migration left none; the spec states no value there, and it is free (log entry 4). -/
def State.reqResults (s : State) (r : PltReq) (tiles : Nat) (old : Option (Nat × Nat)) : State :=
  let a := ringSlotPlace s r.slot
  let s := s.store (a + 32) (leBytes 3 tiles)
  match old with
  | some (tier, taddr) => s.store (a + 24) (leBytes 6 taddr ++ [BitVec.ofNat 8 (tier % 16)])
  | none =>
    let v := (Config.freeWord s.free).toNat
    { s.store (a + 24) (leBytes 6 v ++ [BitVec.ofNat 8 (v / 2 ^ 48 % 16)]) with free := s.free + 1 }

/-- Accept the head request if its OP is `op` and it is well formed: `f` gives the state and status after it, or
none where the request waits at the head of the ring. -/
def acceptRequest (s : State) (op : Nat) (f : PltReq → State → Option (State × Option Nat)) : State :=
  match headRequest s with
  | none => s
  | some (bs, r) =>
    if badRequest bs ∨ r.op ≠ op then s
    else match f r s with
      | none => s
      | some (t, some status) => (t.advanceRing.reqStatus r status).pltCounts
      | some (t, none) => t.advanceRing.pltCounts

/-- A refused request leaves the table unchanged (R189). -/
def refuse (s : State) (code : Nat) : Option (State × Option Nat) := some (s, some code)

/-- Continue with an object that exists (R189 BADOBJ). -/
def withObject (r : PltReq) (s : State) (f : PltEntry → Option (State × Option Nat)) :
    Option (State × Option Nat) :=
  if pltCount s ≤ r.obj then refuse s 0x11
  else match tget s.plt r.obj with
    | none => refuse s 0x11
    | some e => f e

/-! ### Starting, completing and cancelling migrations -/

/-- The copy of an object starts toward a destination (R192, R195), completing the request `r`. -/
def startCopy (s : State) (r : PltReq) (e : PltEntry) (st pin : Nat) : State :=
  { s.setObj r.obj { e with st := st, pin := pin, dtier := r.tier, dtaddr := r.taddr, moved := 0, rslot := r.slot }
    with migs := tset s.migs r.obj { reqs := [r], cancels := [], waiting := [], tileAt := s.cyc } }

/-- A PROMOTE of a RESIDENT object proceeds (R192): to the current tier it is a pin, to a faster one a copy
starts. `pin` is the count it leaves. -/
def promoteResident (s : State) (r : PltReq) (e : PltEntry) (pin : Nat) : State :=
  if r.tier = e.tier then (s.setObj r.obj { e with pin := pin }).reqStatus r 0x01
  else startCopy s r e 2 pin

/-- A PROMOTE that cancelled an evict proceeds (R193); the pin it took at acceptance stands. One that the state
table then refuses gives its pin back (DESIGN CHOICE, log entry 8). -/
def promoteAfterCancel (s : State) (r : PltReq) : State :=
  match tget s.plt r.obj with
  | none => s
  | some e =>
    if e.st = 1 then promoteResident s r e e.pin
    else if e.st = 2 ∧ e.dtier = r.tier ∧ e.dtaddr = r.taddr then
      let m := tgetD s.migs r.obj { reqs := [], cancels := [], waiting := [], tileAt := s.cyc }
      { s with migs := tset s.migs r.obj { m with reqs := m.reqs ++ [r] } }
    else (s.setObj r.obj { e with pin := e.pin - 1 }).reqStatus r 0x14

/-- Every request of a migration gets its results and status. -/
def endRequests (s : State) (rs : List PltReq) (status tiles : Nat) (old : Option (Nat × Nat)) : State :=
  rs.foldl (fun s r => (s.reqResults r tiles old).reqStatus r status) s

/-- A write of 0 to ENABLE takes effect once no migration runs (R214). -/
def State.pltDrain (s : State) : State :=
  if s.pltDisabling && migrations s == 0 then
    { (s.setOff MEM_PLT_CTRL_ENABLE).setOff MEM_PLT_CTRL_READY with pltDisabling := false }
  else s

/-- The writes that waited for the tile in copy, each counted for its wait in Boardwalk cycles (R196); `both`
says whether the destination is kept. -/
def applyWaiting (s : State) (e : PltEntry) (ws : List WaitWrite) (both : Bool) : State :=
  ws.foldl (fun s w =>
    let s := s.countWrap MEM_TMV_CNT_WAITCOPY_VALUE ((s.cyc - w.since) * 16 / 10)
    let s := (s.store (objPlace e w.ofs) w.bytes).unpoison (objPlace e w.ofs) w.bytes.length
    if both then (s.store (dstPlace e w.ofs) w.bytes).unpoison (dstPlace e w.ofs) w.bytes.length else s) s

/-- An evict ends at a tile boundary for the promotes that cancel it (R193). -/
def cancelEvict (s : State) (i : Nat) (e : PltEntry) (m : Migration) : State :=
  let s := { s.setObj i { e with st := 1, moved := 0 } with migs := tdel s.migs i }
  let s := (endRequests s m.reqs 0x02 e.moved none).count MEM_PLT_CNT_CANCEL_VALUE 1
  (m.cancels.foldl promoteAfterCancel s).pltCounts.pltDrain

/-- A migration of object `i` finishes a tile (R195, R193, R198, R207), none while a MAINT slot holds a tier of it
(R223). `errs` are the errors that the tile's read met, and `fail` says that it got no data. `data` is what another
module served, for a PEER source. -/
def migrationTile (s : State) (i : Nat) (fail : Bool) (errs : List Nat) (data : List Byte) : State :=
  match tget s.plt i, tget s.migs i with
  | some e, some m =>
    if (e.st ≠ 2 ∧ e.st ≠ 3) ∨ ((e.tier = 3 ∨ e.dtier = 3) ∧ ddrHeld s) then s
    else
      let src := objPlace e (e.moved * 65536)
      let dst := dstPlace e (e.moved * 65536)
      let hostDown := e.tier = 4 ∧ !hostUp s
      let s := if hostDown then (s.count (FLD_PCI_CNT_VALUE 1) 1).setOn FLD_PCI_EVT_NOBME else s
      let (s, bads) := s.tileErrors e.tier src errs
      if fail ∨ bads ≠ [] ∨ hostDown then
        let s := s.logUe 1 0 0 0 (placePa (match bads with | b :: _ => b * 32 | [] => src))
        let s := applyWaiting s e m.waiting false
        let s := { s.setObj i { e with st := 1, err := true } with migs := tdel s.migs i }
        let s := endRequests s m.reqs 0x18 e.moved none
        (m.cancels.foldl promoteAfterCancel s).pltCounts.pltDrain
      else
        let bs := if e.tier = 5 then padBytes 65536 data else tierLoad s src 65536
        let s := if e.dtier = 4 ∧ !hostUp s then
            (s.count (FLD_PCI_CNT_VALUE 1) 1).setOn FLD_PCI_EVT_NOBME
          else (s.store dst bs).unpoison dst 65536
        let s := s.countWrap MEM_TMV_CNT_MIGTILES_VALUE 1
        let s := applyWaiting s e m.waiting true
        let e := { e with moved := e.moved + 1 }
        if e.st = 3 ∧ m.cancels ≠ [] then cancelEvict s i e m
        else if e.moved ≥ e.size then
          let s := { s.setObj i { e with st := 1, tier := e.dtier, taddr := e.dtaddr, moved := 0 }
                     with migs := tdel s.migs i }
          (endRequests s m.reqs 0x01 e.moved (some (e.tier, e.taddr))).pltCounts.pltDrain
        else { s.setObj i e with migs := tset s.migs i { m with waiting := [], tileAt := s.cyc } }
  | _, _ => s

/-! ### Requests -/

/-- The operands of a request as one number. -/
def reqNumber (r : PltReq) : Nat :=
  ((((((r.obj * 2 ^ 24 + r.base) * 2 ^ 24 + r.size) * 64 + r.ctx) * 2 + ofBool r.shr) * 2 + ofBool r.nopub) * 16 + r.tier) *
    2 ^ 48 + r.taddr

/-- CREATE (R190). With SIZE 0, which no object has (R177), it is refused; the spec gives no code of 0x10 to 0x17 for it,
and the free one depends on the request alone (R259; DESIGN CHOICE, log entry 8). -/
def plCreate (r : PltReq) (s : State) : Option (State × Option Nat) :=
  if pltCount s ≤ r.obj ∨ (tget s.plt r.obj).isSome then refuse s 0x11
  else if r.size = 0 then
    some (s, some (0x10 + (Config.emptyCreate (reqNumber r)).toNat))
  else if !tierOk s r.tier r.taddr r.size then refuse s 0x12
  else if r.base + r.size > 16777216 ∨
      s.plt.any (fun p => p.2.base < r.base + r.size && r.base < p.2.base + p.2.size) then refuse s 0x17
  else some (s.setObj r.obj
    { base := r.base, size := r.size, tier := r.tier, st := 1, pin := 0, taddr := r.taddr, ctx := r.ctx
      shr := r.shr, nopub := r.nopub, unc := false, err := false, wtag := 0, dtier := 0, dtaddr := 0
      moved := 0, rslot := 0 }, some 0x01)

/-- DESTROY (R190, R192). -/
def plDestroy (r : PltReq) (s : State) : Option (State × Option Nat) :=
  withObject r s fun e =>
    if r.obj = 0 then refuse s 0x14
    else if e.pin ≠ 0 ∨ e.st ≠ 1 then refuse s 0x13
    else some ({ s with plt := tdel s.plt r.obj }, some 0x01)

/-- PROMOTE (R191–R193). It finds an evict between tiles in the cycle of the evict's start or of its last tile; from the
next cycle on the next tile is in copy (DESIGN CHOICE, log entry 8). -/
def plPromote (r : PltReq) (s : State) : Option (State × Option Nat) :=
  withObject r s fun e =>
    if r.obj = 0 then refuse s 0x14
    else if !tierOk s r.tier r.taddr e.size || e.tier < r.tier then refuse s 0x12
    else match e.st with
      | 2 =>
        if e.dtier ≠ r.tier ∨ e.dtaddr ≠ r.taddr then refuse s 0x14
        else if e.pin = 255 then refuse s 0x15
        else
          let m := tgetD s.migs r.obj { reqs := [], cancels := [], waiting := [], tileAt := s.cyc }
          some ({ s.setObj r.obj { e with pin := e.pin + 1 } with
            migs := tset s.migs r.obj { m with reqs := m.reqs ++ [r] } }, none)
      | 3 =>
        if e.pin = 255 then refuse s 0x15
        else
          let m := tgetD s.migs r.obj { reqs := [], cancels := [], waiting := [], tileAt := s.cyc }
          let e := { e with pin := e.pin + 1 }
          let m := { m with cancels := m.cancels ++ [r] }
          if m.tileAt = s.cyc then some (cancelEvict (applyWaiting (s.setObj r.obj e) e m.waiting false) r.obj e m, none)
          else some ({ s.setObj r.obj e with migs := tset s.migs r.obj m }, none)
      | _ =>
        if e.pin = 255 then refuse s 0x15
        else if r.tier ≠ e.tier ∧ 16 ≤ migrations s then none
        else
          let s := if e.st = 4 then
              let m := tgetD s.migs r.obj { reqs := [], cancels := [], waiting := [], tileAt := s.cyc }
              let s := m.reqs.foldl (fun s q =>
                (s.store (ringSlotPlace s q.slot + 32) (leBytes 3 0)).reqStatus q 0x02) s
              { s.count MEM_PLT_CNT_CANCEL_VALUE 1 with migs := tdel s.migs r.obj }
            else s
          let e := { e with st := 1 }
          if r.tier = e.tier then some (s.setObj r.obj { e with pin := e.pin + 1 }, some 0x01)
          else some (startCopy s r e 2 (e.pin + 1), none)

/-- EVICT (R191, R192). -/
def plEvict (r : PltReq) (s : State) : Option (State × Option Nat) :=
  withObject r s fun e =>
    if r.obj = 0 then refuse s 0x14
    else if !tierOk s r.tier r.taddr e.size || r.tier ≤ e.tier || r.tier = 5 then refuse s 0x12
    else if e.st ≠ 1 then refuse s 0x14
    else if e.pin > 0 then
      some ((startCopy s r e 4 e.pin).count MEM_PLT_CNT_DEFER_VALUE 1, none)
    else if 16 ≤ migrations s then none
    else some (startCopy s r e 3 0, none)

/-- PIN (R190). -/
def plPin (r : PltReq) (s : State) : Option (State × Option Nat) :=
  withObject r s fun e =>
    if e.pin = 255 then refuse s 0x15 else some (s.setObj r.obj { e with pin := e.pin + 1 }, some 0x01)

/-- UNPIN (R190, R192): the one that brings PIN to 0 starts a deferred evict. -/
def plUnpin (r : PltReq) (s : State) : Option (State × Option Nat) :=
  withObject r s fun e =>
    if e.pin = 0 then refuse s 0x16
    else if e.st = 4 ∧ e.pin = 1 then
      if 16 ≤ migrations s then none
      else
        let m := tgetD s.migs r.obj { reqs := [], cancels := [], waiting := [], tileAt := s.cyc }
        some ({ s.setObj r.obj { e with pin := 0, st := 3 } with
          migs := tset s.migs r.obj { m with tileAt := s.cyc } }, some 0x01)
    else some (s.setObj r.obj { e with pin := e.pin - 1 }, some 0x01)

/-- READ (R190). -/
def plRead (r : PltReq) (s : State) : Option (State × Option Nat) :=
  withObject r s fun e => some (s.store (ringSlotPlace s r.slot + 32) (entryBytes e), some 0x01)

/-- PLT_CREATE (R190). -/
def execPltCreate (s : State) : Host.Outcome State Fault Refusal := finish s (acceptRequest s 1 plCreate)

/-- PLT_DESTROY (R190). -/
def execPltDestroy (s : State) : Host.Outcome State Fault Refusal := finish s (acceptRequest s 2 plDestroy)

/-- PLT_PROMOTE (R193). -/
def execPltPromote (s : State) : Host.Outcome State Fault Refusal := finish s (acceptRequest s 3 plPromote)

/-- PLT_EVICT (R192). -/
def execPltEvict (s : State) : Host.Outcome State Fault Refusal := finish s (acceptRequest s 4 plEvict)

/-- PLT_PIN (R190). -/
def execPltPin (s : State) : Host.Outcome State Fault Refusal := finish s (acceptRequest s 5 plPin)

/-- PLT_UNPIN (R192). -/
def execPltUnpin (s : State) : Host.Outcome State Fault Refusal := finish s (acceptRequest s 6 plUnpin)

/-- PLT_READ (R190). -/
def execPltRead (s : State) : Host.Outcome State Fault Refusal := finish s (acceptRequest s 7 plRead)

/-- PLT_BADOP_REQUEST (R189). -/
def execPltBadopRequest (s : State) : Host.Outcome State Fault Refusal :=
  finish s (match headRequest s with
    | some (bs, r) => if badRequest bs then s.advanceRing.reqStatus r 0x10 else s
    | none => s)

/-- MIGRATION_TILE (R195): `errs` as `State.tileErrors` reads them. -/
def execMigrationTile (obj : Nat) (errs : List Nat) (data : List Byte) (s : State) :
    Host.Outcome State Fault Refusal :=
  finish s (migrationTile s obj false errs data)

/-- PUBLICATION_WALK (R203): UNC is cleared in every entry whose WTAG is still the committed tag, from its log
or, past 256 objects, from the whole table; the tag is freed. -/
def execPublicationWalk (tag : Nat) (s : State) : Host.Outcome State Fault Refusal :=
  finish s (match tget s.tags tag with
    | some t =>
      if t.committed then
        { s with
          plt := s.plt.map fun p =>
            if (t.overflow ∨ p.1 ∈ t.log) ∧ p.2.unc ∧ p.2.wtag = tag then (p.1, { p.2 with unc := false }) else p
          tags := tdel s.tags tag }
      else s
    | none => s)

/-- A tag is aborted (R204): entries that hold it take WTAG 0xFFF, and it is freed. -/
def State.abortTag (s : State) (tag : Nat) : State :=
  { s with
    plt := s.plt.map fun p => if p.2.unc ∧ p.2.wtag = tag then (p.1, { p.2 with wtag := 0xFFF }) else p
    tags := tdel s.tags tag }

/-! ### Enabling the engine (R214) -/

/-- The ring object that the registers describe (R186). -/
def ringObject (s : State) : PltEntry :=
  let a := s.get MEM_PLQ_BASE_ADDR * 64
  let u := a / 65536
  { base := u, size := (a + ringSize s * 64 - 1) / 65536 - u + 1
    tier := if s.on MEM_PLQ_SIZE_CMN then 2 else 3, st := 1, pin := 0, taddr := s.get MEM_PLQ_SIZE_PUNIT
    ctx := 0, shr := false, nopub := true, unc := false, err := false, wtag := 0, dtier := 0, dtaddr := 0
    moved := 0, rslot := 0 }

/-- Bytes of LPDDR5X lie wholly in the data part of one protected range. -/
def protBytes (s : State) (a n : Nat) : Bool :=
  (protRanges s).any fun r => r.1 * 65536 ≤ a && a + n ≤ (r.1 + r.2.2) * 65536

/-- The set-up check of R214: COUNT at least 1, the ring object's tier address, and table, log and directory in
protected ranges (R206). -/
def pltSetupOk (s : State) : Bool :=
  let o := ringObject s
  1 ≤ s.get MEM_PLT_COUNT_VALUE && tierOk s o.tier o.taddr o.size &&
    protBytes s (s.get MEM_PLT_TBL_UNIT * 65536) (pltCount s * 32 + 0x400000) &&
    protBytes s (s.get MEM_PLT_DIR_UNIT * 65536) 0x4000000

/-- A write of MEM_PLT_CTRL_ENABLE (R214), which reads 1 until a disable takes effect: `old` and `new` are the field
before and as written. While a write of 0 waits for migrations, a later write of 1 withdraws it (DESIGN CHOICE, log
entry 8). -/
def pltEnableWritten (old new : Nat) (s : State) : State :=
  if new = 1 then
    if old = 1 then { s with pltDisabling := false }
    else if pltSetupOk s then
      let s := { (s.setOn MEM_PLT_CTRL_ENABLE).setOff MEM_PLT_CTRL_CFGERR with
        plt := [(0, ringObject s)], migs := [], cache := [], tags := s.tags.map fun (t : Nat × TagState) => (t.1, { t.2 with log := [], overflow := false }) }
      ((s.put MEM_PLQ_CONS_INDEX (s.get MEM_PLQ_PROD_INDEX)).setOn MEM_PLT_CTRL_READY).pltCounts
    else (s.setOn MEM_PLT_CTRL_ENABLE).setOn MEM_PLT_CTRL_CFGERR
  else if old = 1 then { s.put MEM_PLT_CTRL_ENABLE 1 with pltDisabling := true }.pltDrain
  else s

/-! ### Scrubbing and LPDDR5X (R205, R210, R211, R250) -/

/-- The unit after `u` in the walk over the data parts of the protected ranges, and whether the pass ended
(R210). -/
def scrubNext (rs : List (Nat × Nat × Nat)) (u : Nat) : Nat × Bool :=
  match rs with
  | [] => (u, false)
  | first :: _ =>
    match (rs.dropWhile fun r => !(r.1 ≤ u && u < r.1 + r.2.2)) with
    | [] => (first.1, false)
    | r :: rest =>
      if u + 1 < r.1 + r.2.2 then (u + 1, false)
      else match rest with
        | q :: _ => (q.1, false)
        | [] => (first.1, true)

/-- SCRUB_TILE (R210): the scrubber scrubs the unit at POS. `ce` and `ue` list the blocks of the tile in which
its reads find a correctable and an uncorrectable error; a poisoned block is uncorrectable again. -/
def execScrubTile (ce ue : List Nat) (s : State) : Host.Outcome State Fault Refusal :=
  finish s (
    let rs := protRanges s
    if !s.on MEM_SCRUB_CFG_ENABLE || !s.on MEM_DDR_CTRL_ENABLE || ddrHeld s || rs.isEmpty ||
        s.cyc < s.scrubSince + max 1 (s.get MEM_SCRUB_CFG_PERIOD) * 1000 then s
    else
      let pos := s.get MEM_SCRUB_STAT_POS
      let u := if rs.any (fun r => r.1 ≤ pos && pos < r.1 + r.2.2) then pos else (rs.headD (0, 0, 0)).1
      let a := ddrPlace (u * 65536)
      let bad := (List.range 2048).filter fun b => b ∈ ue || (a / 32 + b) ∈ s.poison
      let good := (List.range 2048).filter fun b => b ∈ ce && !(b ∈ bad)
      let s := if good.isEmpty then s else (s.count MEM_ECC_CEI_VALUE good.length).setOn MEM_EVT_CE
      let s := bad.foldl (fun s b =>
        let s := s.logUe 4 0 0 0 (some (u * 65536 + b * 32))
        if (a / 32 + b) ∈ s.poison then s else { s with poison := (a / 32 + b) :: s.poison }) s
      let (next, ended) := scrubNext rs u
      let s := { s.put MEM_SCRUB_STAT_POS next with scrubSince := s.cyc }
      if ended then (s.countWrap MEM_SCRUB_STAT_PASSES 1).setOn MEM_EVT_SCRUB else s)

/-- An uncorrectable control PSRAM read is counted, logged and pulses source 42 + d (R383). Sources: 0 hart,
1 Sluice write port, 2 reflex arrays, 3 scrubber. -/
def State.psramUe (s : State) (d src hart ofs : Nat) : State :=
  let s := s.count (BLV_HRC_UE_VALUE d) 1
  let s := s.wr (BLV_HRC_ERR_LOG d) (BitVec.ofNat 64 (src % 8 * 2 ^ 56 + hart % 4 * 2 ^ 48 + ofs % 2 ^ 26 / 32 * 32))
  s.pulse (42 + d)

/-- Place of a byte of a control PSRAM device's data (R208). -/
def psramPlace (d ofs : Nat) : Nat := areaBase areaPsram + d * 2 ^ 32 + ofs

/-- PSRAM_SCRUB (R211): one KiB of device `d` every 512 µs; outcomes as R210, counted in the HRC registers. -/
def execPsramScrub (d : Nat) (ce ue : List Nat) (s : State) : Host.Outcome State Fault Refusal :=
  finish s (
    if 2 ≤ d ∨ !s.on (BLV_HRC_CTRL_SCRUB d) ∨ s.cyc < tgetD s.psScrubSince d 0 + 512000 then s
    else
      let pos := s.get (BLV_HRC_SCRUB_POS d) % 61440
      let a := psramPlace d (pos * 1024)
      let bad := (List.range 32).filter fun b => b ∈ ue || (a / 32 + b) ∈ s.poison
      let good := (List.range 32).filter fun b => b ∈ ce && !(b ∈ bad)
      let s := s.count (BLV_HRC_CE_VALUE d) good.length
      let s := bad.foldl (fun s b =>
        let s := s.psramUe d 3 0 (pos * 1024 + b * 32)
        if (a / 32 + b) ∈ s.poison then s else { s with poison := (a / 32 + b) :: s.poison }) s
      let s := { s with psScrubSince := tset s.psScrubSince d s.cyc }
      if pos + 1 < 61440 then s.put (BLV_HRC_SCRUB_POS d) (pos + 1)
      else (s.put (BLV_HRC_SCRUB_POS d) 0).countWrap (BLV_HRC_SCRUB_PASSES d) 1)

/-- DDR_REFRESH (R250): a refresh takes precedence over all traffic; SCH_CNT_REFSTALL counts the Boardwalk cycles
in which a foreground access waited on it. The schedule runs while the controllers are enabled (R267). -/
def execDdrRefresh (wait : Nat) (s : State) : Host.Outcome State Fault Refusal :=
  finish s (if s.on MEM_DDR_CTRL_ENABLE then s.countWrap SCH_CNT_REFSTALL_VALUE wait else s)

/-- DDR_RETRAIN_END (R205, R207, R212, R250): calibration or retraining ends; the on-die ECC counts are read, the
channels are trained. After the first training it runs in MAINT slots alone. -/
def execDdrRetrainEnd (ode : Nat) (s : State) : Host.Outcome State Fault Refusal :=
  finish s (
    if s.on MEM_DDR_STAT_READY && !(s.on MEM_DDR_STAT_RETRAIN && ddrHeld s) then s
    else
      let s := (s.setOff MEM_DDR_STAT_RETRAIN).count MEM_ECC_ODE_VALUE ode
      let s := (s.put MEM_DDR_STAT_GIB s.fuses.memGib).setOn MEM_DDR_STAT_READY
      s.setOn MEM_EVT_RETRAIN)

/-! ### Accesses of harts and the host (R180, R200, R201, R207, R216, R217) -/

/-- The tag of the running step of a context (R217). -/
def runningTag (s : State) (ctx : Nat) : Option Nat :=
  match tget s.sched.steps ctx with
  | some t => if t.st = 3 then t.tag else none
  | none => none

/-- Source code of MEM_ERR_LOG_SRC for an initiator. -/
def errSrc : Initiator → Nat
  | .pcie => 3
  | _ => 2

/-- The answer of a read that met an uncorrectable error: a load access fault, or a poisoned completion, counted
(R207, R472). -/
def State.ueAnswer (s : State) : Initiator → State
  | .pcie => (s.count (FLD_PCI_CNT_VALUE 2) 1).answer .poisoned
  | _ => s.answer .accessFault

/-- The lowest cause of a violation among those that an access of a hart or the host meets (R26), or the object.
The context window is judged first, and outside it nothing else (R216, R543); then the fused windows (R517), then the
access is resolved (R180) (DEDUCED, log entry 9). -/
def fasJudge (s : State) (who : Initiator) (write : Bool) (addr len : Nat) : Except Nat (Nat × PltEntry) :=
  let ctx := ctxOf s who
  let form := len = 0 ∨ 64 < len ∨ addr / 64 ≠ (addr + len - 1) / 64
  let window := !inWindow s ctx addr || !inWindow s ctx (addr + len - 1)
  let closed := match protBit who with
    | some b => protClosed s b addr write
    | none => false
  let low := fun c => if form then min c 1 else c
  if window then .error 5
  else if closed then .error (low 6)
  else match resolve s true ctx addr len write with
    | .error c => .error (low c)
    | .ok o => if form then .error 1 else .ok o

/-- ECC of a read of LPDDR5X, by its low two bits: 1 a block was corrected in line, 3 link ECC corrected (R206, R207). -/
def State.eccNote (s : State) (e : PltEntry) (a len ecc : Nat) : State :=
  if e.tier = 3 ∧ ecc % 4 = 1 ∧ protBytes s (a - areaBase 3) len then (s.count MEM_ECC_CEI_VALUE 1).setOn MEM_EVT_CE
  else if e.tier = 3 ∧ ecc % 4 = 3 ∧ s.on MEM_DDR_CTRL_LINKECC then (s.count MEM_ECC_CEL_VALUE 1).setOn MEM_EVT_CE
  else s

/-- A read of a block of a tier that its memory or link reports as uncorrectable (R206, R207). -/
def eccBad (s : State) (tier b ecc : Nat) : Bool :=
  ecc % 4 == 2 && tier == 3 && (s.on MEM_DDR_CTRL_LINKECC || blockProtected s b)

/-- The access of a hart or the host to the object that it resolved to, its answer in `bus`. -/
def fasServe (s : State) (who : Initiator) (write : Bool) (addr len : Nat) (data : List Byte) (ecc i : Nat) (e : PltEntry) :
    State :=
  let ctx := ctxOf s who
  let ofs := addr - e.base * 65536
  let a := objPlace e ofs
  if write then
    let bs := padBytes len data
    let blocks := List.range' (a / 32) ((a + len - 1) / 32 + 1 - a / 32)
    let part := blocks.filter fun b => !(a ≤ b * 32 && b * 32 + 32 ≤ a + len)
    let s := if part.isEmpty then s else s.eccNote e a len ecc
    if e.tier = 4 ∧ !hostUp s then
      ((s.count (FLD_PCI_CNT_VALUE 1) 1).setOn FLD_PCI_EVT_NOBME).answer .none
    else match part.filter fun b => b ∈ s.poison || (b == a / 32 + ecc / 4 && eccBad s e.tier b ecc && blockProtected s b) with
      | b :: _ => (s.logUe (errSrc who) 0 1 ctx (placePa (b * 32))).answer (if who = .pcie then .none else .accessFault)
      | [] =>
        let s := markPublication s i e (if stepBitOf s who then runningTag s ctx else none)
        let e := tgetD s.plt i e
        (objWrite s i e ofs bs).answer .none
  else
    let s := s.eccNote e a len ecc
    if unpublished s ctx e then
      (s.count MEM_PLT_CNT_UNCREAD_VALUE 1).answer (.bytes (List.replicate len 0#8))
    else if e.tier = 4 ∧ !hostUp s then
      (((s.count (FLD_PCI_CNT_VALUE 1) 1).setOn FLD_PCI_EVT_NOBME).logUe (errSrc who) 0 1 ctx none).ueAnswer who
    else match poisonedIn s a len with
    | b :: _ => (s.logUe (errSrc who) 0 1 ctx (placePa (b * 32))).ueAnswer who
    | [] =>
      if eccBad s e.tier (a / 32 + ecc / 4) ecc then (s.logUe (errSrc who) 0 1 ctx (placePa (a + ecc / 4 * 32))).ueAnswer who
      else s.answer (.bytes (objRead s e ofs len))

/-- An access of a hart or the host to the Fabric Address Space, its answer in `bus`. `ecc` is what the LPDDR5X reads
of the access meet, 0 nothing, 1 an error corrected in line, 2 an uncorrectable error, 3 an error that link ECC
corrected, and 4 more where its second block meets it. One to LPDDR5X in a MAINT slot waits for its end, and is
answered then (R223). -/
def fasAccess (s : State) (who : Initiator) (write : Bool) (addr len : Nat) (data : List Byte) (ecc : Nat) :
    State :=
  let ctx := ctxOf s who
  match fasJudge s who write addr len with
  | .error c =>
    ((s.looked ctx addr len).violation c (initCode who) ctx addr write).answer
      (if write then .none else .bytes (List.replicate len 0#8))
  | .ok (i, e) =>
    let s := s.lookup addr
    if e.tier = 3 ∧ ddrHeld s then
      { s with held := s.held ++ [{ since := s.cyc, who := who, write := write, addr := addr, len := len, data := data,
                                    ecc := ecc, obj := i, entry := e }], bus := .none }
    else fasServe s who write addr len data ecc i e

/-- The object that an access resolved to as it stands now: the entry of that time where the object is gone (R190). -/
def presentEntry (s : State) (i : Nat) (e : PltEntry) : PltEntry :=
  match tget s.plt i with
  | some x => if x.base = e.base ∧ x.size = e.size ∧ x.ctx = e.ctx then x else e
  | none => e

/-- The accesses that a MAINT slot held are served in order at its end; SCH_CNT_MAINTSTALL counts the Boardwalk cycles
in which at least one of them waited (R223, R250). -/
def releaseHeld (s : State) : State :=
  match s.held with
  | [] => s
  | h :: _ =>
    let t := s.countWrap SCH_CNT_MAINTSTALL_VALUE ((s.cyc - h.since) * 16 / 10)
    s.held.foldl (fun t h => fasServe t h.who h.write h.addr h.len h.data h.ecc h.obj (presentEntry t h.obj h.entry))
      { t with held := [] }

/-- FAS_ACCESS (R180): `ecc` is what block `block` of those that the access reads in LPDDR5X meets. -/
def execFasAccess (who : Initiator) (write : Bool) (addr len : Nat) (data : List Byte) (ecc block : Nat) (s : State) :
    Host.Outcome State Fault Refusal :=
  finish s (fasAccess s who write addr len data
    (if addr / 32 + block ≤ (addr + len - 1) / 32 then ecc % 4 + 4 * block else 0))

end Sys2Proof.Machine
end

