-- ==== Sys2Proof/Machine/TensorCore.lean ====
section
/-! DEFINITION. A physical tensor core: its clock, scratchpad regions and lines, queues, planes, status records,
kills, and the advance of an engine through the units of a command (R68–R92, R101, R105–R114, R246, R248, R249). -/

namespace Sys2Proof.Machine

open Sys2Proof Sys2Proof.Machine.Reg

/-! ### State of a core -/

/-- A core. -/
def coreOf (s : State) (n : Nat) : Core := tgetD s.cores n Core.idle

/-- The queue of a path. -/
def Core.queue (c : Core) (p : Nat) : List Cmd := tgetD c.queues p []

/-- A core with the queue of a path replaced. -/
def Core.withQueue (c : Core) (p : Nat) (q : List Cmd) : Core := { c with queues := tset c.queues p q }

/-- Replace a core; TCn_STAT and TCn_CTX follow it (R113). -/
def State.setCore (s : State) (n : Nat) (c : Core) : State :=
  let s := { s with cores := tset s.cores n c }
  let s := s.put (TC_STAT_ACTVALID n) (ofBool c.active.isSome)
  let s := s.put (TC_STAT_SHADOW n) c.shadowSt
  let s := s.put (TC_STAT_PATHBUSY n) (maskOf 5 fun p => !(c.queue p).isEmpty)
  let s := s.put (TC_STAT_KILLING n) (ofBool c.killing)
  let s := s.put (TC_STAT_BUSY n) (ofBool c.job.isSome)
  match c.job with
  | some (ctx, _) => (s.put (TC_CTX_ID n) ctx).setOn (TC_CTX_VALID n)
  | none => s.setOff (TC_CTX_VALID n)

/-- Tenths of GHz of the core clock at a performance level (R37: P0 2.0, P1 1.6, P2 1.2 GHz). -/
def coreRate (level : Nat) : Nat := match level with | 0 => 20 | 1 => 16 | _ => 12

/-- Tenths of core cycles counted. -/
def Core.tenths (c : Core) (s : State) : Nat :=
  if c.maint || c.relockEnd.isSome then c.clkAcc else c.clkAcc + (s.cyc - c.clkAt) * coreRate c.plevel

/-- The core cycle of the present instant; a held or relocking core counts none (R37, R223). -/
def coreCyc (s : State) (c : Core) : Nat := c.tenths s / 10

/-- The clock's base moved to the present, before its rate or hold changes. -/
def Core.rebase (c : Core) (s : State) : Core := { c with clkAcc := c.tenths s, clkAt := s.cyc }

/-- A step leaves the core: TCn_CNT_CYC counts the cycles it was on it; the weight planes stay as they are (R91). -/
def State.leaveCore (s : State) (n : Nat) : State :=
  let c := coreOf s n
  let s := s.countWrap (TC_CNT_CYC_VALUE n) (coreCyc s c - c.since)
  s.setCore n { Core.idle with active := c.active, shadow := c.shadow, shadowSt := c.shadowSt, epoch := c.epoch, clkAt := c.clkAt, clkAcc := c.clkAcc, plevel := c.plevel, maint := c.maint, relockEnd := c.relockEnd }

/-- The context and logical core that run on a core. -/
def jobOf (s : State) (n : Nat) : Option (Nat × Nat) := (coreOf s n).job

/-- A core executes: a step is on it, no kill, restore, spill, hold or relock. -/
def coreLive (s : State) (n : Nat) : Bool :=
  let c := coreOf s n
  c.job.isSome && !c.killing && c.xfer.isEmpty && !c.maint && c.relockEnd.isNone && !c.commitDone

/-- The present cycle of a core. -/
def nowOf (s : State) (n : Nat) : Nat := coreCyc s (coreOf s n)

/-! ### Regions (R77–R83) -/

/-- CFG and PTR registers of region `r` of store `x`. -/
def rgnCfg (n x r : Nat) : Nat := TC_WRGN_CFG n r + x * 0x100
def rgnPtr (n x r : Nat) : Nat := TC_WRGN_PTR n r + x * 0x100

def rgnValid (s : State) (n x r : Nat) : Bool := s.on ⟨rgnCfg n x r, 31, 31⟩ && 1 ≤ s.get ⟨rgnCfg n x r, 24, 16⟩
def rgnSize (s : State) (n x r : Nat) : Nat := s.get ⟨rgnCfg n x r, 24, 16⟩
def rgnBase (s : State) (n x r : Nat) : Nat := s.get ⟨rgnCfg n x r, 8, 0⟩
def rgnTail (s : State) (n x r : Nat) : Nat := s.get ⟨rgnPtr n x r, 48, 32⟩
def rgnHead (s : State) (n x r : Nat) : Nat := s.get ⟨rgnPtr n x r, 16, 0⟩

/-- Lines of a region (R77). -/
def rgnLines (s : State) (n x r : Nat) : Nat := rgnSize s n x r * 128

/-- The count of a position in a region of `l` lines (R78). -/
def posCount (l p : Nat) : Nat := p / 65536 * l + p % 65536

/-- The position of a count modulo 2L (R78). -/
def countPos (l c : Nat) : Nat :=
  if l = 0 then 0 else
  let c := c % (2 * l)
  if l ≤ c then 65536 + (c - l) else c

/-- The position `k` lines on. -/
def posAdd (l p k : Nat) : Nat := countPos l (posCount l p + k)

/-- The distance of a position from the head (R78). -/
def posDist (s : State) (n x r p : Nat) : Nat :=
  let l := rgnLines s n x r
  if l = 0 then 0 else (posCount l p % (2 * l) + 2 * l - posCount l (rgnHead s n x r) % (2 * l)) % (2 * l)

/-- `k` lines from `ofs` lines past a reference can be read (R80). -/
def canRead (s : State) (n ref ofs k : Nat) : Bool :=
  let x := refStore ref; let r := refRgn ref
  k == 0 || posDist s n x r (posAdd (rgnLines s n x r) (refPos ref) ofs) + k ≤ posDist s n x r (rgnTail s n x r)

/-- `k` lines from `ofs` lines past a reference can be written (R81). -/
def canWrite (s : State) (n ref ofs k : Nat) : Bool :=
  let x := refStore ref; let r := refRgn ref
  k == 0 || posDist s n x r (posAdd (rgnLines s n x r) (refPos ref) ofs) + k ≤ rgnLines s n x r

/-- Place of the line `ofs` lines past a reference. -/
def linePlace (s : State) (n ref ofs : Nat) : Nat :=
  let x := refStore ref; let r := refRgn ref
  let l := rgnLines s n x r
  spadPlace n x ((rgnBase s n x r * 128 + posAdd l (refPos ref) ofs % 65536) * 512)

/-- The bytes of `k` lines from `ofs` lines past a reference. -/
def readLines (s : State) (n ref ofs k : Nat) : List Byte :=
  (List.range k).flatMap fun i => s.load (linePlace s n ref (ofs + i)) 512

/-- The key under which a core keeps the moves of a region's tail (0) or head (1). -/
def moveKey (x r ptr : Nat) : Nat := (16 * x + r) * 2 + ptr

/-- A region pointer moved by `d` lines, which counts from a core cycle on. -/
def State.logMove (s : State) (n key at_ d : Nat) : State :=
  let c := coreOf s n
  { s with cores := tset s.cores n { c with moves := tset c.moves key ((at_, d) :: tgetD c.moves key []) } }

/-- The cycle from which a pointer that now has `slack` lines to spare had reached far enough: 0 where it stood so at
the start. -/
def reachedAt : List (Nat × Nat) → Nat → Nat
  | [], _ => 0
  | (t, d) :: m, slack => if slack < d then t else reachedAt m (slack - d)

/-- The cycle from which `k` lines from `ofs` lines past a reference can be read, if they are filled (R80). -/
def readFrom (s : State) (n : Nat) (a : Nat × Nat × Nat) : Option Nat :=
  let x := refStore a.1; let r := refRgn a.1
  if a.2.2 = 0 then some 0
  else if canRead s n a.1 a.2.1 a.2.2 then
    some (reachedAt (tgetD (coreOf s n).moves (moveKey x r 0) [])
      (posDist s n x r (rgnTail s n x r) -
        (posDist s n x r (posAdd (rgnLines s n x r) (refPos a.1) a.2.1) + a.2.2)))
  else none

/-- The cycle from which `k` lines from `ofs` lines past a reference can be written, if they are released (R81). -/
def writeFrom (s : State) (n : Nat) (a : Nat × Nat × Nat) : Option Nat :=
  let x := refStore a.1; let r := refRgn a.1
  if a.2.2 = 0 then some 0
  else if canWrite s n a.1 a.2.1 a.2.2 then
    some (reachedAt (tgetD (coreOf s n).moves (moveKey x r 1) [])
      (rgnLines s n x r - (posDist s n x r (posAdd (rgnLines s n x r) (refPos a.1) a.2.1) + a.2.2)))
  else none

/-- The latest of several cycles, if all are known. -/
def allFrom (f : Nat × Nat × Nat → Option Nat) (xs : List (Nat × Nat × Nat)) : Option Nat :=
  xs.foldl (fun a x => match a, f x with | some a, some t => some (max a t) | _, _ => none) (some 0)

/-- The tail advances past `k` lines written from `ofs` lines past a reference (R82); they can be read from cycle
`at_` on. -/
def advanceTail (s : State) (n ref ofs k at_ : Nat) : State :=
  let x := refStore ref; let r := refRgn ref
  let p := posAdd (rgnLines s n x r) (refPos ref) (ofs + k)
  let d := posDist s n x r p - posDist s n x r (rgnTail s n x r)
  if 0 < d then (s.put ⟨rgnPtr n x r, 48, 32⟩ p).logMove n (moveKey x r 0) at_ d else s

/-- Whole lines written from `ofs` lines past a reference; unused bytes of the last line are zero (R76). -/
def writeLines (s : State) (n ref ofs : Nat) (bs : List Byte) : State :=
  let k := ceilDiv bs.length 512
  forUpTo k (fun i s =>
    let a := linePlace s n ref (ofs + i)
    let line := padBytes 512 ((bs.drop (512 * i)).take 512)
    mirrorWrite (s.store a line) a line) s

/-- The head moves in cycle `at_` past a released span, if that distance does not exceed L (R83); a write that waits for
it issues in the cycle after (R81). -/
def releaseSpan (s : State) (n ref span at_ : Nat) : State :=
  let x := refStore ref; let r := refRgn ref
  let p := posAdd (rgnLines s n x r) (refPos ref) span
  let d := posDist s n x r p
  if d ≤ rgnLines s n x r then (s.put ⟨rgnPtr n x r, 16, 0⟩ p).logMove n (moveKey x r 1) (at_ + 1) d else s

/-- A region is valid, lies in its store and overlaps no other valid region of it (R77). -/
def rgnOk (s : State) (n x r : Nat) : Bool :=
  rgnValid s n x r && rgnBase s n x r + rgnSize s n x r ≤ storeUnits x &&
    (List.range 16).all fun q => q == r || !rgnValid s n x q ||
      rgnBase s n x q + rgnSize s n x q ≤ rgnBase s n x r || rgnBase s n x r + rgnSize s n x r ≤ rgnBase s n x q

/-- The operands that a release bit of a command names move their heads (R83, R94). -/
def releaseOperands (s : State) (n d kext bit at_ : Nat) : State :=
  (operandsOf d kext).foldl (fun s o =>
    if o.rel = bit ∧ o.ref ≠ noRef ∧ !o.dst then releaseSpan s n o.ref o.span at_ else s) s

/-! ### Status records (R101, R248, R249) -/

/-- A status record is written to the context's ring, or dropped and counted where the ring is full. -/
def statusRecord (s : State) (ctx : Nat) (rec : List Byte) : State :=
  let size := ringSlots (s.get (SCH_CTX_SRING_LOG2 ctx)) 4 16
  let prod := s.get (SCH_CTX_RPROD_INDEX ctx)
  let used := (prod + 65536 - s.get (SCH_CTX_RCONS_INDEX ctx)) % 65536
  if size ≤ used then (s.count (SCH_CTX_CNT_LOST_VALUE ctx) 1).setOn SCH_EVT_LOST
  else
    let s := quietWrite s (s.get (SCH_CTX_SRING_ADDR ctx) * 16 + prod % size * 16) rec
    s.put (SCH_CTX_RPROD_INDEX ctx) (prod + 1)

/-- The record of a command that completed or faulted in a cycle (R101). One that faulted at its dispatch never started:
its CYCLES are 0 (DESIGN CHOICE, log entry 74). -/
def recordOf (c : Cmd) (result cycle : Nat) : List Byte :=
  let cycles := match c.start with | some st => min (cycle - st) 0xFFFFFFFF | none => 0
  leBytes 2 (dSeq c.desc) ++ [BitVec.ofNat 8 (dOpc c.desc), BitVec.ofNat 8 result,
    BitVec.ofNat 8 (c.flags % 16 + 16 * ofBool c.raised), BitVec.ofNat 8 (min c.attempts 255), 0#8, 0#8] ++
    leBytes 4 cycles ++ leBytes 4 (min c.stalls 0xFFFFFFFF)

/-! ### Planes and held releases (R70, R83) -/

/-- The release held for a tile that leaves the grid is applied. -/
def dropPlane (s : State) (n : Nat) (p : Option Plane) (at_ : Nat) : State :=
  match p with
  | some t => if t.rel then releaseOperands s n t.desc 0 1 at_ else s
  | none => s

/-- Keys of `pathNext` beside the paths: the cycle in which the last ATTN completed, the shadow plane became READY, the
tile mover's write port is free, STOREs were last acknowledged, and the planes were last exchanged; the last completion
on path `p` stands under `doneKey + p`. -/
def attnKey : Nat := 8
def readyKey : Nat := 9
def portKey : Nat := 10
def ackKey : Nat := 11
def swapKey : Nat := 12
def doneKey : Nat := 16

/-- A cycle kept by a core. -/
def Core.mark (c : Core) (k : Nat) : Nat := tgetD c.pathNext k 0

/-- A cycle kept by a core moves on. -/
def Core.setMark (c : Core) (k t : Nat) : Core := { c with pathNext := tset c.pathNext k (max (c.mark k) t) }

/-- The planes exchange in a cycle: the shadow tile becomes active, the former active tile is discarded, and the freed
plane may take its next LOAD in the same cycle (R70). -/
def swapPlanes (s : State) (n at_ : Nat) : State :=
  let c := coreOf s n
  let s := dropPlane s n c.active at_
  s.setCore n ({ coreOf s n with active := c.shadow, shadow := none, shadowSt := 0 }.setMark swapKey at_)

/-! ### Kills (R109–R111) -/

/-- Commands sorted by dispatch number. -/
def insertCmd (c : Cmd) : List Cmd → List Cmd
  | [] => [c]
  | d :: ds => if c.no < d.no then c :: d :: ds else d :: insertCmd c ds

/-- Every command dispatched and not completed, in dispatch order; those still to be dispatched again come last. -/
def Core.inFlight (c : Core) : List Cmd :=
  (c.queues.flatMap (fun q => q.2) ++ c.hold.toList).foldl (fun acc x => insertCmd x acc) [] ++ c.redo

/-- A command as it will be dispatched again: a fresh attempt; a swap already made stands (R111). -/
def Cmd.again (c : Cmd) : Cmd :=
  { c with no := 0, start := none, unit := 0, next := 0, pipe := [], wait := 0, stalls := 0, flags := 0, raised := false
           tile := none, doneAt := none, landed := [], src := [] }

/-- What a core killed now would resume from (R111). A LOADING LOAD counts as the shadow plane's tile and is not
dispatched again; a silent re-execution not yet done is still owed (`raised` of a silent LOAD says that its
release is held, `swapped` that it is the active plane's). -/
def resumeOf (s : State) (n : Nat) : Resume :=
  let c := coreOf s n
  let fl := c.inFlight
  let loading := match c.queue 1 with
    | q :: _ => if c.shadowSt = 1 ∧ !q.silent then some q else none
    | [] => none
  let owedA := fl.find? fun q => q.silent && q.swapped
  let owedS := fl.find? fun q => q.silent && !q.swapped
  let cmds := fl.filter fun q => !q.silent && (match loading with | some l => q.no != l.no | none => true)
  { cmds := cmds.map Cmd.again
    active := match owedA with
      | some q => some (q.desc, q.raised)
      | none => c.active.map fun p => (p.desc, p.rel)
    shadow := match loading, owedS with
      | some l, _ => some (l.desc, dRel0 l.desc)
      | none, some q => some (q.desc, q.raised)
      | none, none => c.shadow.map fun p => (p.desc, p.rel)
    reload := c.reload
    fetchPos := c.fetchPos - c.fetched.length
    ptrs := (List.range 48).map fun i => s.rd (rgnPtr n (i / 16) (i % 16))
    vact := c.vact, vnxt := c.vnxt }

/-- What a kill order does to a core whose engines are at the present cycle (R109): they abandon their commands, queues
and prefetch empty, the epoch advances (R246); the kill completes later. A core killed while its restore is under way
keeps nothing new. -/
def abandonCore (s : State) (n : Nat) : State :=
  let c := coreOf s n
  if c.job.isNone || c.killing then s
  else
    let r := resumeOf s n
    s.setCore n { c with fetched := [], fetchStop := true, hold := none, commitDone := false, queues := [], active := none, shadow := none, shadowSt := 0, redo := [], killing := true, killed := if c.restoring then none else some r, epoch := (c.epoch + 1) % 2 ^ 32, xfer := [], restoring := false }

/-! ### The advance of an engine -/

/-- What one command asks of its engine: its units, the issue cycles of each, the cycle from which a unit's results can
be read (by its first issue cycle and the cycle after its last), the lines each unit reads, writes and lets the tail
pass (reference, offset, lines), what issuing a unit does, and the effect of writing it, with the flags it sets. -/
structure Work where
  total : Nat
  cost : Nat → Nat
  due : Nat → Nat → Nat → Nat
  reads : Nat → List (Nat × Nat × Nat)
  writes : Nat → List (Nat × Nat × Nat)
  tails : Nat → List (Nat × Nat × Nat)
  issue : Nat → Nat → State → State
  effect : Nat → State → State × Nat

/-- Replace the command of a path that has a dispatch number. -/
def setCmd (s : State) (n p : Nat) (c : Cmd) : State :=
  let k := coreOf s n
  s.setCore n (k.withQueue p ((k.queue p).map fun q => if q.no = c.no then c else q))

/-- The command with a dispatch number on a path. -/
def getCmd (s : State) (n p no : Nat) : Option Cmd := ((coreOf s n).queue p).find? fun q => q.no = no

/-- The oldest unit not yet written is written, if its cycle has come: in the cycle before its results can be read, or
in the first in which its lines are released; the cycles between are a stall of the stream (R81, R82, R85). -/
def writeUnit (w : Work) (n p no now : Nat) (s : State) : State :=
  match getCmd s n p no with
  | none => s
  | some c =>
    match c.pipe with
    | [] => s
    | t :: rest =>
      let j := c.unit - c.pipe.length
      match allFrom (writeFrom s n) (w.writes j) with
      | none => setCmd s n p { c with wait := 2 }
      | some f =>
        let d := f + 1 - t
        if now < t + d then setCmd s n p { c with wait := 2 }
        else
          let (s, fl) := w.effect j s
          let s := (w.tails j).foldl (fun s a => advanceTail s n a.1 a.2.1 a.2.2 (t + d)) s
          let s := s.countWrap (TC_CNT_HEAD_VALUE n) d
          let rest := rest.map (· + d)
          setCmd s n p { c with
            wait := 0, next := c.next + d, pipe := rest, stalls := c.stalls + d, flags := c.flags ||| fl
            doneAt := if c.unit ≥ w.total ∧ rest = [] then some (t + d) else none }

/-- The next unit is issued, if its cycle has come: as soon as the one before lets it and its lines are filled; the
cycles it waits for them are a stall (R80, R85). -/
def issueUnit (w : Work) (n p no now : Nat) (s : State) : State :=
  match getCmd s n p no with
  | none => s
  | some c =>
    if w.total ≤ c.unit ∨ now < c.next then s
    else match allFrom (readFrom s n) (w.reads c.unit) with
      | none => setCmd s n p { c with wait := 1 }
      | some f =>
        let d := f - c.next
        if now < c.next + d then setCmd s n p { c with wait := 1 }
        else
          let at_ := c.next + d
          let s := (w.issue c.unit at_ s).countWrap (TC_CNT_TAIL_VALUE n) d
          let k := at_ + w.cost c.unit
          let u := c.unit + 1
          match getCmd s n p no with
          | none => s
          | some c =>
            let s := setCmd s n p { c with
              wait := 0, unit := u, next := k, pipe := c.pipe ++ [w.due c.unit at_ k], stalls := c.stalls + d }
            if u ≥ w.total then s.setCore n ((coreOf s n).setMark p k) else s

/-- One unit issued or written, whichever comes first, up to the present cycle. -/
def stepUnit (w : Work) (n p no now : Nat) (s : State) : State :=
  match getCmd s n p no with
  | none => s
  | some c =>
    match c.pipe with
    | t :: _ =>
      if t ≤ now ∧ (c.unit ≥ w.total ∨ c.wait = 1 ∨ t ≤ c.next) then writeUnit w n p no now s
      else issueUnit w n p no now s
    | [] => issueUnit w n p no now s

/-- An engine advances a command to the present cycle. -/
def advance (w : Work) (n p no : Nat) (s : State) : State :=
  let now := coreCyc s (coreOf s n)
  forUpTo (3 * w.total + 3) (fun _ s => stepUnit w n p no now s) s

/-- The cycle in which a command that is the oldest of its path starts (R105). -/
def startAt (s : State) (n p : Nat) (c : Cmd) : Nat :=
  match c.start with
  | some st => st
  | none => max c.next ((coreOf s n).mark p)

/-- A command starts as the oldest of its path (R105). -/
def startCmd (s : State) (n p : Nat) (c : Cmd) : State × Cmd :=
  match c.start with
  | some _ => (s, c)
  | none =>
    let c := { c with start := some (startAt s n p c), next := startAt s n p c }
    (setCmd s n p c, c)

/-- An ATTN excludes the compute, weight and vector paths (R142): a command of those waits for an earlier ATTN. -/
def attnBefore (s : State) (n : Nat) (c : Cmd) : Bool := ((coreOf s n).queue 3).any fun q => q.no < c.no

/-! ### Stalls in progress (R85) -/

/-- Stall cycles of a command up to the present one that no count holds yet. -/
def stallNow (s : State) (n p : Nat) (c : Cmd) : Nat :=
  let now := nowOf s n
  match c.wait with
  | 1 => now - c.next
  | 2 => if p = 4 then now - c.next else now + 1 - c.pipe.headD (now + 1)
  | 3 => now - c.next
  | _ => 0

/-- The stalls in progress on a core for a cause: 1 tails, 2 heads, 3 swaps. -/
def stallsNow (s : State) (n cause : Nat) : Nat :=
  (List.range 5).foldl (fun a p => ((coreOf s n).queue p).foldl (fun a c =>
    if c.wait = cause then a + stallNow s n p c else a) a) 0

/-- A STORE that waits for the tile in copy: since which Bandstand cycle (in `pipe`, which the tile mover's commands do
not use otherwise). -/
def copyWait (c : Cmd) : Option Nat := if c.wait = 6 then some (c.pipe.headD 0) else none

/-- Boardwalk cycles of a STORE's wait for the tile in copy so far (R196). -/
def copyWaited (s : State) (c : Cmd) : Nat := match copyWait c with | some t => (s.cyc - t) * 16 / 10 | none => 0

/-- The stalls in progress are counted, as their commands are abandoned, and the wait for a tile in copy. -/
def countStalls (s : State) (n : Nat) : State :=
  let t := stallsNow s n 1; let h := stallsNow s n 2; let w := stallsNow s n 3
  let s := s.countWrap MEM_TMV_CNT_WAITCOPY_VALUE (((coreOf s n).queue 4).foldl (fun a c => a + copyWaited s c) 0)
  ((s.countWrap (TC_CNT_TAIL_VALUE n) t).countWrap (TC_CNT_HEAD_VALUE n) h).countWrap (TC_CNT_SHADOW_VALUE n) w

end Sys2Proof.Machine
end

