-- ==== Sys2Proof/Machine/Kvp.lean ====
section
/-! DEFINITION. The page pool controller (R151–R155, R163–R175). It acts for the pool's owner. -/

namespace Sys2Proof.Machine

open Sys2Proof Sys2Proof.Machine.Reg

/-! ### Page tables in memory (R152, R153) -/

/-- A little-endian number of `k` bytes, read for a context. -/
def kvRead (s : State) (ctx addr k : Nat) : State × Nat :=
  let (s, _, bs) := engineRead s 5 ctx addr k
  (s, leNat bs)

/-- A little-endian number of `k` bytes, written for a context. -/
def kvWrite (s : State) (ctx addr k v : Nat) : State := (engineWrite s 5 ctx addr (leBytes k v)).1

/-- The page table header as a number. -/
def kvHeader (s : State) (ctx ptab : Nat) : State × Nat := kvRead s ctx ptab 64

def hdNlayer (h : Nat) : Nat := bitsOf h 15 0
def hdMaxpg (h : Nat) : Nat := bitsOf h 31 16
def hdPool (h : Nat) : Nat := bitsOf h 39 32
def hdPrio (h : Nat) : Nat := bitsOf h 47 40
def hdDrops (h : Nat) : Nat := bitsOf h 127 96

/-- STATE of a header: 1 LIVE, 2 RECOMPUTE, every other value FREE (R152). -/
def hdState (h : Nat) : Nat := let x := bitsOf h 55 48; if x = 1 ∨ x = 2 then x else 0

/-- Address of entry `i` of layer `l` (R153). -/
def kvEntry (ptab maxpg l i : Nat) : Nat := ptab + 64 + 8 * (l * maxpg + i)

/-- A pool, and its owner. -/
def poolOf (s : State) (n : Nat) : Pool :=
  tgetD s.pools n { fstk := [], hstk := [], seqs := [], pins := [], retiring := [], disabling := false }

def poolOwner (s : State) (n : Nat) : Nat := s.get (SCH_KVP_CTL_OWNER n)

/-- ZJ4 compatibility mode of a pool. -/
def poolZj4 (s : State) (n : Nat) : Bool := s.on (SCH_KVP_CTL_MODE n)

/-- Bytes of a page of a pool. -/
def pageSize (s : State) (n : Nat) : Nat := s.get (SCH_KVP_GEOM_PAGE4K n) * 4096

/-- Address of a page (R154) and of a host slot (R171). -/
def pageAddr (s : State) (n i : Nat) : Nat := s.get (SCH_KVP_BASE_ADDR n) * 65536 + i * pageSize s n
def hostSlotAddr (s : State) (n i : Nat) : Nat := s.get (SCH_KVP_HBASE_ADDR n) * 65536 + i * pageSize s n

/-- Replace a pool; FREE and LIVE follow it (R163). -/
def State.setPool (s : State) (n : Nat) (p : Pool) : State :=
  let s := { s with pools := tset s.pools n p }
  (s.put (SCH_KVP_FREE_COUNT n) p.fstk.length).put (SCH_KVP_LIVE_VALUE n) p.seqs.length

/-- Every (layer, entry) of a page table, ascending. -/
def kvCells (h : Nat) : List (Nat × Nat) :=
  (List.range (hdNlayer h)).flatMap fun l => (List.range (hdMaxpg h)).map fun i => (l, i)

/-- The resident entries of a sequence, ascending: (layer, entry, page). -/
def residentPages (s : State) (ctx ptab h : Nat) : List (Nat × Nat × Nat) :=
  (kvCells h).filterMap fun c =>
    let e := (kvRead s ctx (kvEntry ptab (hdMaxpg h) c.1 c.2) 8).2
    if bitOf e 0 then some (c.1, c.2, bitsOf e 31 12) else none

/-- Every page of a sequence is pushed on the free-page stack in ascending layer and entry, its host slots are freed, and
its entries are zeroed (R166, R169). The order in which host slots go back on their stack is not stated: ascending layer
and entry (DESIGN CHOICE, log entry 69). -/
def freeSequence (s : State) (n ptab h : Nat) : State :=
  let ctx := poolOwner s n
  (kvCells h).foldl (fun s c =>
    let a := kvEntry ptab (hdMaxpg h) c.1 c.2
    let (s, e) := kvRead s ctx a 8
    let p := poolOf s n
    let p := if bitOf e 0 then { p with fstk := bitsOf e 31 12 :: p.fstk } else p
    let p := if bitOf e 1 then { p with hstk := bitsOf e 51 32 :: p.hstk } else p
    let s := s.setPool n p
    if e = 0 then s else kvWrite s ctx a 8 0) s

/-- A retirement takes effect (R166). -/
def retireNow (s : State) (n ptab : Nat) : State :=
  let ctx := poolOwner s n
  let (s, h) := kvHeader s ctx ptab
  let s := freeSequence s n ptab h
  let s := kvWrite s ctx (ptab + 6) 1 0
  let p := poolOf s n
  s.setPool n { p with seqs := p.seqs.filter fun q => q.1 ≠ ptab, retiring := p.retiring.filter (· ≠ ptab) }

/-- Disabling forgets every sequence (R164). -/
def disablePool (s : State) (n : Nat) : State :=
  let s := (s.setOff (SCH_KVP_CTL_ENABLE n)).setOff (SCH_KVP_CTL_READY n)
  let p := poolOf s n
  s.setPool n { p with seqs := [], retiring := [], disabling := false }

/-- Deferred work of a pool once pins are gone: retirements of sequences with no pin, and the disable (R164,
R166). -/
def afterUnpin (s : State) (n : Nat) : State :=
  let p := poolOf s n
  let s := (p.retiring.filter fun t => !p.pins.any fun q => q.1 = t).foldl (fun s t => retireNow s n t) s
  let p := poolOf s n
  if p.disabling && p.pins.isEmpty then disablePool s n else s

/-! ### Enable, admit, retire -/

/-- A write of SCH_KVP_CTL_n_ENABLE (R164), which reads 1 until a disable takes effect: the field before and as
written. -/
def kvpEnableWritten (n old new : Nat) (s : State) : State :=
  if new = 1 then
    if old = 1 then s.setPool n { poolOf s n with disabling := false }
    else
      let pages := min (s.get (SCH_KVP_GEOM_PAGES n)) 1048576
      let slots := min (s.get (SCH_KVP_HSLOTS_COUNT n)) 1048576
      let s := (s.setOn (SCH_KVP_CTL_ENABLE n)).setOn (SCH_KVP_CTL_READY n)
      (s.put (SCH_KVP_NEXTADM_VALUE n) 0).setPool n
        { fstk := List.range pages, hstk := List.range slots, seqs := [], pins := [], retiring := [], disabling := false }
  else if old = 1 then
    if (poolOf s n).pins.isEmpty then disablePool s n
    else (s.put (SCH_KVP_CTL_ENABLE n) 1).setPool n { poolOf s n with disabling := true }
  else s

/-- A refused admission or retirement (R165, R166). -/
def kvpRefuse (s : State) (n : Nat) : State :=
  (s.count (SCH_KVP_CNT_BADREQ_VALUE n) 1).setOn (SCH_KVP_EVT_BADREQ n)

/-- The controller carries out an admission (R165). -/
def kvpAdmit (n ptab : Nat) (s : State) : State :=
  if !s.on (SCH_KVP_CTL_READY n) then kvpRefuse s n
  else
    let ctx := poolOwner s n
    let (s, h) := kvHeader s ctx ptab
    let p := poolOf s n
    let adm := s.get (SCH_KVP_NEXTADM_VALUE n)
    if hdPool h ≠ n ∨ hdState h = 1 ∨ 4096 ≤ p.seqs.length ∨ adm = 0xFFFFFFFF then kvpRefuse s n
    else
      let s := kvWrite (kvWrite s ctx (ptab + 6) 1 1) ctx (ptab + 8) 4 adm
      (s.put (SCH_KVP_NEXTADM_VALUE n) (adm + 1)).setPool n
        { poolOf s n with seqs := (p.seqs.filter fun q => q.1 ≠ ptab) ++ [(ptab, adm)] }

/-- The controller carries out a retirement (R166). -/
def kvpRetire (n ptab : Nat) (s : State) : State :=
  let (s, h) := kvHeader s (poolOwner s n) ptab
  let p := poolOf s n
  if !s.on (SCH_KVP_CTL_READY n) ∨ hdState h = 0 ∨ hdPool h ≠ n ∨ !(p.seqs.any fun q => q.1 = ptab) then
    kvpRefuse s n
  else if p.pins.any fun q => q.1 = ptab then
    if ptab ∈ p.retiring then s else s.setPool n { p with retiring := p.retiring ++ [ptab] }
  else retireNow s n ptab

/-! ### The order of requests (R173) -/

/-- The controller may carry a request out, `ahead` standing before it: it takes them in order, but a retirement passes
an ATTN that waits for pages, which it may end (R172, R173; DESIGN CHOICE, log entry 69). A page table in LPDDR5X waits for a
MAINT slot to end (R223). -/
def kvpTurn (s : State) (ahead : List PageReq) (r : PageReq) : Bool :=
  !tierHeld s r.ptab && (ahead.isEmpty || (r.kind == 2 && ahead.all fun q => q.kind == 0 && q.waits))

/-- The first admission or retirement whose turn it is, and the queue without it. -/
def kvpNext (s : State) (ahead : List PageReq) : List PageReq → Option (PageReq × List PageReq)
  | [] => none
  | r :: rest => if r.kind ≠ 0 && kvpTurn s ahead r then some (r, ahead ++ rest) else kvpNext s (ahead ++ [r]) rest

/-- Admissions and retirements whose turn it is are carried out. -/
def kvpDrain : Nat → State → State
  | 0, s => s
  | f + 1, s =>
    match kvpNext s [] s.kvpQueue with
    | none => s
    | some (r, q) =>
      let s := { s with kvpQueue := q }
      kvpDrain f (if r.kind = 1 then kvpAdmit r.pool r.ptab s else kvpRetire r.pool r.ptab s)

/-- Every admission and retirement whose turn it is. -/
def State.kvpServe (s : State) : State := kvpDrain s.kvpQueue.length s

/-- A request enters the queue: after those of earlier cycles, among ATTNs of one cycle by logical core and context. -/
def State.kvpPut (s : State) (r : PageReq) : State :=
  let later := fun (q : PageReq) => q.kind == 0 && r.kind == 0 && q.at_ == r.at_ && r.tie < q.tie
  { s with kvpQueue := (s.kvpQueue.filter fun q => !later q) ++ r :: s.kvpQueue.filter later }

/-- A write of PTAB to SCH_KVP_ADMIT_n (R165, R173). -/
def kvpAdmitWritten (n ptab : Nat) (s : State) : State :=
  (s.kvpPut { kind := 1, core := 0, pool := n, ptab := ptab, at_ := s.cyc, tie := 0, waits := false }).kvpServe

/-- A write of PTAB to SCH_KVP_RETIRE_n (R166, R173). -/
def kvpRetireWritten (n ptab : Nat) (s : State) : State :=
  (s.kvpPut { kind := 2, core := 0, pool := n, ptab := ptab, at_ := s.cyc, tie := 0, waits := false }).kvpServe

/-- Boardwalk cycles of a request's wait so far. -/
def kvpWaited (s : State) (r : PageReq) : Nat := (s.cyc - r.at_) * 16 / 10

/-- The requests of the ATTNs on a core leave the queue, their wait counted (R172, R173). -/
def dropRequests (s : State) (core : Nat) : State :=
  let mine := fun (q : PageReq) => q.kind == 0 && q.core == core
  let t := (s.kvpQueue.filter mine).foldl (fun (t : State) q => t.countWrap (SCH_KVP_CNT_WAIT_VALUE q.pool) (kvpWaited s q)) s
  { t with kvpQueue := t.kvpQueue.filter fun q => !mine q }

/-- The pins and the waiting request of an ATTN on a core go (R174). -/
def releasePins (s : State) (core : Nat) : State :=
  let s := dropRequests s core
  let s := forUpTo 8 (fun n s =>
    let p := poolOf s n
    if p.pins.any (fun q => q.2 = core) then
      afterUnpin (s.setPool n { p with pins := p.pins.filter fun q => q.2 ≠ core }) n
    else s) s
  s.kvpServe

/-! ### Serving an ATTN (R167–R173) -/

/-- Candidates for reclaim (R168): (page table, PRIO, ADMIT). -/
def kvCandidates (s : State) (n req : Nat) : List (Nat × Nat × Nat) :=
  let p := poolOf s n
  let ctx := poolOwner s n
  p.seqs.filterMap fun q =>
    let h := (kvHeader s ctx q.1).2
    let pins := (p.pins.filter fun x => x.1 = q.1).length
    let own := q.1 = req
    if own then
      if !poolZj4 s n ∧ pins ≤ 1 ∧ hdState h = 1 then some (q.1, hdPrio h, q.2) else none
    else if hdState h = 1 ∧ pins = 0 ∧ residentPages s ctx q.1 h ≠ [] then some (q.1, hdPrio h, q.2)
    else none

/-- The victim: lowest PRIO, then highest ADMIT (R168). -/
def kvVictim (cs : List (Nat × Nat × Nat)) : Option Nat :=
  (cs.foldl (fun (best : Option (Nat × Nat × Nat)) c =>
    match best with
    | none => some c
    | some b => if c.2.1 < b.2.1 ∨ (c.2.1 = b.2.1 ∧ b.2.2 < c.2.2) then some c else some b) none).map (·.1)

/-- DROPS of a victim saturates, and LASTVIC names it (R152, R169, R171). -/
def noteVictim (s : State) (n ptab : Nat) : State :=
  let ctx := poolOwner s n
  let (s, h) := kvHeader s ctx ptab
  (kvWrite s ctx (ptab + 12) 4 (min (hdDrops h + 1) 0xFFFFFFFF)).put (SCH_KVP_LASTVIC_PTAB n) ptab

/-- A victim is dropped (R169). -/
def dropVictim (s : State) (n ptab : Nat) : State :=
  let ctx := poolOwner s n
  let (s, h) := kvHeader s ctx ptab
  let s := freeSequence s n ptab h
  let s := noteVictim (kvWrite s ctx (ptab + 6) 1 2) n ptab
  (s.count (SCH_KVP_CNT_DROP_VALUE n) 1).setOn (SCH_KVP_EVT_DROP n)

/-- Pages of a victim go to host slots, highest layer and entry first (R171). The answer says whether a host slot
or the host was missing, so that the victim is dropped instead. -/
def swapPages (s : State) (n ptab maxpg : Nat) : List (Nat × Nat × Nat) → State × Bool
  | [] => (s, false)
  | (l, i, pg) :: rest =>
    let p := poolOf s n
    match p.hstk with
    | [] => (s, true)
    | slot :: hs =>
      if !hostUp s then ((s.count (FLD_PCI_CNT_VALUE 1) 1).setOn FLD_PCI_EVT_NOBME, true)
      else
        let ctx := poolOwner s n
        let (s, _, bs) := engineRead s 5 ctx (pageAddr s n pg) (pageSize s n)
        let s := (engineWrite s 5 ctx (hostSlotAddr s n slot) bs).1
        let s := kvWrite s ctx (kvEntry ptab maxpg l i) 8 (2 + slot * 2 ^ 32)
        let s := s.setPool n { p with hstk := hs, fstk := pg :: p.fstk }
        let s := (s.count (SCH_KVP_CNT_SWOUT_VALUE n) 1).setOn (SCH_KVP_EVT_SWOUT n)
        swapPages s n ptab maxpg rest

/-- A victim is swapped out for a shortfall (R171). -/
def swapVictim (s : State) (n ptab short : Nat) : State :=
  let (s, h) := kvHeader s (poolOwner s n) ptab
  let pages := ((residentPages s (poolOwner s n) ptab h).reverse).take short
  let (s, failed) := swapPages s n ptab (hdMaxpg h) pages
  if failed then dropVictim s n ptab else noteVictim s n ptab

/-- Reclaim until `need` pages are free: 0 done, 1 the requester was dropped, 2 no candidate is left. -/
def reclaim : Nat → State → Nat → Nat → Nat → State × Nat
  | 0, s, _, _, _ => (s, 2)
  | f + 1, s, n, req, need =>
    let free := (poolOf s n).fstk.length
    if need ≤ free then (s, 0)
    else match kvVictim (kvCandidates s n req) with
      | none => (s, 2)
      | some v =>
        if poolZj4 s n then reclaim f (swapVictim s n v (need - free)) n req need
        else
          let s := dropVictim s n v
          if v = req then (s, 1) else reclaim f s n req need

/-- The last entry of a layer that an ATTN reads or appends to: that of its last chunk's last position (R156, R167). -/
def lastEntry (d : Nat) : Nat :=
  let seen := if atCausal d then min (atPos0 d + atNQ d) (atCtxLen d) else atCtxLen d
  (min (512 * ceilDiv seen 512) (atCtxLen d) - 1) / 16

/-- The entries an ATTN needs pages for, ascending, with the host slot of those to swap in (R167). -/
def neededEntries (s : State) (n ptab h d : Nat) : List (Nat × Option Nat) :=
  let ctx := poolOwner s n
  (List.range ((atCtxLen d - 1) / 16 + 1)).filterMap fun i =>
    let e := (kvRead s ctx (kvEntry ptab (hdMaxpg h) (atLayer d) i) 8).2
    if !bitOf e 0 && !bitOf e 1 && atAppend d && atPos0 d / 16 ≤ i then some (i, none)
    else if !bitOf e 0 && bitOf e 1 && poolZj4 s n && i ≤ lastEntry d then some (i, some (bitsOf e 51 32))
    else none

/-- Pages are popped for the needed entries; a swapped page comes back from its host slot (R167). -/
def allocate (s : State) (n ptab h d : Nat) (need : List (Nat × Option Nat)) : State :=
  let ctx := poolOwner s n
  need.foldl (fun s x =>
    let p := poolOf s n
    match p.fstk with
    | [] => s
    | pg :: rest =>
      let s := s.setPool n { p with fstk := rest }
      let s := match x.2 with
        | none => s
        | some slot =>
          let (s, _, bs) := engineRead s 5 ctx (hostSlotAddr s n slot) (pageSize s n)
          let s := (engineWrite s 5 ctx (pageAddr s n pg) bs).1
          let p := poolOf s n
          ((s.setPool n { p with hstk := slot :: p.hstk }).count (SCH_KVP_CNT_SWIN_VALUE n) 1).setOn (SCH_KVP_EVT_SWIN n)
      kvWrite s ctx (kvEntry ptab (hdMaxpg h) (atLayer d) x.1) 8 (1 + pg * 4096)) s

/-- The ATTN that waits for the controller on a core. -/
def waitingAttn (s : State) (core : Nat) : Option Cmd :=
  ((coreOf s core).queue 3).find? fun q => q.wait = 5

/-- The request of a core is answered: it leaves the queue, its wait is counted, and the ATTN goes on, `mark`
1 served, 2 skipped. -/
def answerAttn (s : State) (core mark : Nat) (c : Cmd) : State :=
  setCmd (dropRequests s core) core 3 { c with wait := 0, next := coreCyc s (coreOf s core), landed := [mark] }

/-- An ATTN is skipped (R170): its pin goes, and it is counted. -/
def skipAttn (s : State) (core n : Nat) (c : Cmd) : State :=
  let s := (s.count (SCH_KVP_CNT_SKIP_VALUE n) 1).setOn (SCH_KVP_EVT_SKIP n)
  releasePins (answerAttn s core 2 c) core

/-- The controller carries out the request of an ATTN (R167–R172). -/
def serveAttn (s : State) (core n : Nat) (c : Cmd) : State :=
  let ptab := atPtab c.desc
  let (s, h) := kvHeader s (poolOwner s n) ptab
  if hdState h ≠ 1 then skipAttn s core n c
  else
    let p := poolOf s n
    let s := if p.pins.any (fun q => q.2 = core) then s
      else s.setPool n { p with pins := p.pins ++ [(ptab, core)] }
    let need := neededEntries s n ptab h c.desc
    let (s, r) := reclaim ((poolOf s n).seqs.length + 1) s n ptab need.length
    if r = 1 then skipAttn s core n c
    else if r = 2 then
      { s.setOn (SCH_KVP_EVT_WAIT n) with
        kvpQueue := s.kvpQueue.map fun q => if q.kind = 0 ∧ q.core = core then { q with waits := true } else q }
    else answerAttn (allocate s n ptab h c.desc need) core 1 c

/-- KVP_SERVE_REQUEST (R167, R173): the request of core `core` in its turn, from a pool that is READY (R163); one that
waits for pages is examined again (R172). Admissions and retirements behind it follow. -/
def execKvpServeRequest (core : Nat) (s : State) : Host.Outcome State Fault Refusal :=
  finish s (
    let mine := fun (q : PageReq) => q.kind == 0 && q.core == core
    match s.kvpQueue.find? mine, waitingAttn s core with
    | some r, some c =>
      if !kvpTurn s (s.kvpQueue.takeWhile fun q => !mine q) r || !s.on (SCH_KVP_CTL_READY r.pool) then s
      else (serveAttn s core r.pool c).kvpServe
    | _, _ => s)

end Sys2Proof.Machine
end

