-- ==== Sys2Proof/Machine/Grid.lean ====
section
/-! DEFINITION. Elements of packed rows, zero-run packing, and one pass of the grid (R50–R64, R72, R115–R122,
R126–R131, R560). -/

namespace Sys2Proof.Machine

open Sys2Proof

/-! ### Elements -/

/-- 4-bit codes of bytes, the low half first (R50). -/
def codes4 (bs : List Byte) : List Nat := bs.flatMap fun b => [b.toNat % 16, b.toNat / 16]

/-- 16-bit little-endian codes. -/
def codes16 : List Byte → List Nat
  | a :: b :: r => (a.toNat + 256 * b.toNat) :: codes16 r
  | _ => []

/-- 32-bit little-endian codes. -/
def codes32 : List Byte → List Nat
  | a :: b :: c :: d :: r => (a.toNat + 256 * b.toNat + 65536 * c.toNat + 16777216 * d.toNat) :: codes32 r
  | _ => []

/-- The first `n` element codes of packed bytes in a format (R50, R76). -/
def codesOf (fmt n : Nat) (bs : List Byte) : List Nat :=
  (match fmtBits fmt with
    | 4 => codes4 bs
    | 8 => bs.map BitVec.toNat
    | 16 => codes16 bs
    | _ => codes32 bs).take n

/-- 4-bit codes packed into bytes; an odd last one leaves the upper half zero. -/
def pack4 : List Nat → List Byte
  | a :: b :: r => BitVec.ofNat 8 (a % 16 + 16 * (b % 16)) :: pack4 r
  | [a] => [BitVec.ofNat 8 (a % 16)]
  | [] => []

/-- Element codes packed into bytes. -/
def bytesOf (fmt : Nat) (cs : List Nat) : List Byte :=
  match fmtBits fmt with
  | 4 => pack4 cs
  | w => cs.flatMap fun c => leBytes (w / 8) c

/-- The exact value of an element code; an MXFP4 element without its scale (R47, R50, R51). -/
def codeVal (fmt code : Nat) : FVal :=
  let int := fun (w : Nat) => let i := signedOf w code; FVal.fin (i < 0) i.natAbs 0
  match fmt with
  | 0 => int 8 | 1 => int 4 | 8 => int 32
  | _ => decodeFloat (codeFmt fmt) code

/-- The integer of an INT8 or INT4 code. -/
def codeInt (fmt code : Nat) : Int := if fmt = 1 then signedOf 4 code else signedOf 8 code

/-- An MXFP4 element under its scale byte (R51). -/
def mxScale (v : FVal) (e : Nat) : FVal :=
  if e = 255 then .nan else
  match v with
  | .fin n m x => .fin n m (x + (e : Int) - 127)
  | v => v

/-- Values of a row: its codes, with the scale bytes of its blocks of 32 where the format is MXFP4. -/
def rowVals (fmt : Nat) (codes scales : List Nat) : List FVal :=
  if fmt = 4 then (List.range codes.length).map fun i => mxScale (codeVal 4 (codes.getD i 0)) (scales.getD (i / 32) 0)
  else codes.map (codeVal fmt)

/-- Conversion to FP32 (R56): exact but for the largest MXFP4 elements, which may set FOVF; INT32 rounds. -/
def toF32 (v : FVal) : FFlag := fRound v false

/-! ### Flags of a command (R59): 1 ISAT, 2 FOVF, 4 FNAN, 8 CSAT -/

/-- FOVF of a result. -/
def ovfFlag (x : FFlag) : Nat := if x.2 then 2 else 0

/-- A result converted to a format other than MXFP4: its code and the flags (R56, R59). -/
def convert (fmt : Nat) (sat : Bool) (x : FFlag) : Nat × Nat :=
  let v := f32Val x.1
  match fmt with
  | 0 => let (i, c) := floatToInt 8 v; (codeOf 8 i, ovfFlag x + if c then 8 else 0)
  | 1 => let (i, c) := floatToInt 4 v; (codeOf 4 i, ovfFlag x + if c then 8 else 0)
  | 7 => (x.1.toNat, ovfFlag x + if vIsNan v then 4 else 0)
  | _ =>
    let (c, cs) := floatTo (codeFmt fmt) sat v
    (c, ovfFlag x + (if vIsNan (decodeFloat (codeFmt fmt) c) then 4 else 0) + if cs then 8 else 0)

/-- The exponent of the largest magnitude below or at a value: `floor (log2 |v|)`. -/
def floorLog2 (v : FVal) : Int :=
  match v with
  | .fin _ m e => (Nat.log2 m : Int) + e
  | _ => 0

/-- 32 values, or fewer as if padded with +0, converted to one MXFP4 block: codes, scale, flags (R58). -/
def mxBlock (xs : List FFlag) : List Nat × Nat × Nat :=
  let vs := xs.map fun x => f32Val x.1
  let ov := if xs.any (·.2) then 2 else 0
  if vs.any fun v => vIsNan v || vIsInf v then
    (vs.map fun _ => 0, 255, ov + 4 + if vs.all vIsNan && vs.length == 32 then 0 else 8)
  else
    let amax := vs.foldl (fun a v => if vLt a (vAbs v) then vAbs v else a) (.fin false 0 0)
    if vIsZero amax then (vs.map fun _ => 0, 0, ov)
    else
      let x := clampInt (floorLog2 amax - 2) (-127) 127
      let cs := vs.map fun v => floatTo .e2m1 true (match v with | .fin n m e => .fin n m (e - x) | v => v)
      (cs.map (·.1), (x + 127).toNat, ov + if cs.any (·.2) then 8 else 0)

/-- A list cut into runs of `n`. -/
def chunks {α : Type} (n : Nat) (xs : List α) : List (List α) :=
  (List.range (ceilDiv xs.length n)).map fun i => (xs.drop (n * i)).take n

/-- A row converted to a format: its packed bytes, its scale bytes, the flags. -/
def convertRow (fmt : Nat) (sat : Bool) (xs : List FFlag) : List Nat × List Nat × Nat :=
  if fmt = 4 then
    let bs := (chunks 32 xs).map mxBlock
    (bs.flatMap (·.1), bs.map (·.2.1), bs.foldl (fun f b => f ||| b.2.2) 0)
  else
    let cs := xs.map (convert fmt sat)
    (cs.map (·.1), [], cs.foldl (fun f c => f ||| c.2) 0)

/-! ### Packed tensors (R126–R130) -/

/-- A row packed: its mask block and value block, each in whole lines (R126, R127). -/
def packRow (fmt : Nat) (cs : List Nat) : List Byte :=
  let n := cs.length
  let masks := (List.range (ceilDiv n 64)).flatMap fun m =>
    leBytes 8 (maskOf 64 fun b => cs.getD (64 * m + b) 0 != 0)
  let vals := bytesOf fmt (cs.filter (· != 0))
  padBytes (zrMb n * 512) masks ++ padBytes (ceilDiv vals.length 512 * 512) vals

/-- Entry `i` of the directory of a packed operand. -/
def dirEntry (s : State) (n ref i : Nat) : Nat := leField (readLines s n ref (4 * i / 512) 1) (4 * i % 512) 4

/-- The mask bits of row `y` of a packed operand of `e` elements, and the line its values start on; none where the
row reads as zeros (R130). -/
def packedRow (s : State) (n ref nr e fmt y : Nat) : Option (List Bool × Nat × Nat) :=
  let a := dirEntry s n ref y
  let b := dirEntry s n ref (y + 1)
  let mb := zrMb e
  if b ≤ a ∨ zrExtent nr e fmt < b ∨ b - a < mb then none
  else
    let masks := readLines s n ref a mb
    let bits := (List.range e).map fun i => bitOf (masks.getD (i / 8) 0#8).toNat (i % 8)
    let nz := (bits.filter id).length
    let vl := ceilDiv (nz * fmtBits fmt) 4096
    if b - a < mb + vl then none else some (bits, a, vl)

/-- Values put back at the elements whose mask bit is set. -/
def spread : List Bool → List Nat → List Nat
  | [], _ => []
  | false :: bs, vs => 0 :: spread bs vs
  | true :: bs, v :: vs => v :: spread bs vs
  | true :: bs, [] => 0 :: spread bs []

/-- Codes of row `y` of a feature map or block of `nr` rows of `e` elements, packed or not (R115, R130). -/
def mapRow (s : State) (n ref : Nat) (packed : Bool) (nr e fmt y : Nat) : List Nat :=
  if packed then
    match packedRow s n ref nr e fmt y with
    | none => List.replicate e 0
    | some (bits, a, vl) =>
      spread bits (codesOf fmt ((bits.filter id).length) (readLines s n ref (a + zrMb e) vl))
  else codesOf fmt e (readLines s n ref (y * rowLines e fmt) (rowLines e fmt))

/-- Lines read for row `y`: (offset from the operand's first line, lines); of a row that reads as zeros (R130) none
(DESIGN CHOICE, log entry 64). -/
def mapRowLines (s : State) (n ref : Nat) (packed : Bool) (nr e fmt y : Nat) : Nat × Nat :=
  if packed then
    match packedRow s n ref nr e fmt y with
    | none => (dirEntry s n ref y % (zrExtent nr e fmt + 1), 0)
    | some (_, a, vl) => (a, zrMb e + vl)
  else (y * rowLines e fmt, rowLines e fmt)

/-- Scale bytes of row `r` of a scale array of rows of `e` elements (R560). -/
def sclRow (s : State) (n ref r e : Nat) : List Nat :=
  let o := sclOfs r e
  let k := ceilDiv e 32
  let bs := readLines s n ref (o / 512) (ceilDiv (o % 512 + k) 512)
  ((bs.drop (o % 512)).take k).map BitVec.toNat

/-! ### One grid pass (R61–R64) -/

/-- What a segment of a column has gathered: a NaN product, an infinity of either sign, the exact sum. -/
structure SegAcc where
  nan : Bool
  pinf : Bool
  ninf : Bool
  sum : FVal
  deriving DecidableEq, Repr

def SegAcc.zero : SegAcc := { nan := false, pinf := false, ninf := false, sum := .fin false 0 0 }

/-- One product added (R61). -/
def SegAcc.add (a : SegAcc) (p : FVal) : SegAcc :=
  match p with
  | .nan => { a with nan := true }
  | .inf true => { a with ninf := true }
  | .inf false => { a with pinf := true }
  | .fin _ _ _ => { a with sum := vAdd a.sum p }

/-- The segment's result (R61). The grid never produces -0 (R64): a negative sum that rounds to zero gives +0
(log entry 65). -/
def SegAcc.result (a : SegAcc) : FFlag :=
  if a.nan || (a.pinf && a.ninf) then (cNan, false)
  else if a.pinf then (cInf, false)
  else if a.ninf then (flNeg cInf, false)
  else
    let r := fRound a.sum false
    if r.1 = 0x80000000#32 then (0#32, r.2) else r

/-- A segment of all columns: activations with their weight rows. -/
def segF (cols : Nat) (ps : List (FVal × List FVal)) : List FFlag :=
  (ps.foldl (fun acc p => List.zipWith (fun a w => a.add (vMul p.1 w)) acc p.2)
    (List.replicate cols SegAcc.zero)).map SegAcc.result

/-- Float pass over `cols` columns: `g` K elements per row (R62); `old` the values accumulated onto. -/
def passF (g cols : Nat) (act : List FVal) (rows : List (List FVal)) (old : Option (List FFlag)) : List FFlag :=
  let ps := List.zip act rows
  let seg := fun i => segF cols ((ps.drop (32 * g * i)).take (32 * g))
  let t := (List.range 15).foldl (fun t i => List.zipWith fAdd t (seg (i + 1))) (seg 0)
  match old with
  | some o => List.zipWith fAdd o t
  | none => t

/-- Saturation to INT32, with ISAT (R63). -/
def sat32 (i : Int) : Int × Bool :=
  let c := clampInt i (-2147483648) 2147483647
  (c, c != i)

/-- One saturating addition in every column. -/
def satCols (a : List (Int × Bool)) (b : List Int) : List (Int × Bool) :=
  List.zipWith (fun x y => let r := sat32 (x.1 + y); (r.1, x.2 || r.2)) a b

/-- Integer pass (R63). -/
def passI (g cols : Nat) (act : List Int) (rows : List (List Int)) (old : Option (List Int)) : List (Int × Bool) :=
  let ps := List.zip act rows
  let seg := fun i => ((ps.drop (32 * g * i)).take (32 * g)).foldl
    (fun acc p => List.zipWith (fun a w => a + p.1 * w) acc p.2) (List.replicate cols (0 : Int))
  let t := (List.range 15).foldl (fun t i => satCols t (seg (i + 1))) ((seg 0).map fun x => (x, false))
  match old with
  | some o => List.zipWith (fun x y => let r := sat32 (y + x.1); (r.1, x.2 || r.2)) t o
  | none => t

/-- Codes of the rows of a weight tile, and the scale bytes of its blocks, as a LOAD brought them (R71). -/
def tileRows (d : Nat) (bytes : List Byte) : List (List Nat) × List (List Nat) :=
  let f := ldFmt d
  let rb := 64 * fmtBits f
  let rows := (List.range (ldKext d)).map fun k => codesOf f 512 ((bytes.drop (rb * k)).take rb)
  let sb := bytes.drop (ldElemLines d * 512)
  let scl := (List.range (ldSclLines d)).map fun b => ((sb.drop (512 * b)).take 512).map BitVec.toNat
  (rows, scl)

/-- The 512 results of one vector against a tile: P-store words and flags. `codes` and `scales` are the vector's
elements (the first KEXT of them count, R72), `old` the partial sums of ACC. -/
def gridVector (d : Nat) (bytes : List Byte) (afmt : Nat) (codes scales : List Nat) (old : Option (List Nat)) :
    List Byte × Nat :=
  let g := if ldFmt d = 4 ∨ (ldFmt d = 1 ∧ afmt = 1) then 2 else 1
  let (rows, scl) := tileRows d bytes
  let codes := codes.take (ldKext d)
  if ldFmt d ≤ 1 then
    let r := passI g 512 (codes.map (codeInt afmt)) (rows.map fun q => q.map (codeInt (ldFmt d)))
      (old.map fun o => o.map (signedOf 32))
    (r.flatMap fun x => leBytes 4 (codeOf 32 x.1), if r.any (·.2) then 1 else 0)
  else
    let wv := (List.range rows.length).map fun k =>
      let q := (rows.getD k []).map (codeVal (ldFmt d))
      if ldFmt d = 4 then List.zipWith mxScale q (scl.getD (k / 32) []) else q
    let r := passF g 512 (rowVals afmt codes scales) wv (old.map fun o => o.map fun w => (BitVec.ofNat 32 w, false))
    (r.flatMap fun x => leBytes 4 x.1.toNat,
      (if r.any (·.2) then 2 else 0) + if r.any (fun x => f32IsNan x.1) then 4 else 0)

/-! ### The gather of a convolution (R117–R122, R131) -/

/-- Output pixel of vector `j` (R119). -/
def cvPixel (d j : Nat) : Nat × Nat := (cvOY0 d + j / cvOXN d, cvOX0 d + j % cvOXN d)

/-- Input coordinates of a tap for an output pixel (R117). -/
def cvTap (d oy ox ty tx : Nat) : Int × Int :=
  ((oy * cvSH d : Nat) - (cvPT d : Int) + ((cvKoffY d + ty) * cvDH d : Nat),
    (ox * cvSW d : Nat) - (cvPL d : Int) + ((cvKoffX d + tx) * cvDW d : Nat))

/-- Input row of an integer coordinate, if it lies in the map. -/
def inRange (i : Int) (n : Nat) : Option Nat := if 0 ≤ i ∧ i < n then some i.toNat else none

/-- Elements of the vector of output pixel `j`, as codes and, for MXFP4, scale bytes of blocks (R117, R120); `row`
gives the codes of an input row and `scl` its scale bytes. -/
def cvGather (d j : Nat) (row scl : Nat → List Nat) : List Nat × List Nat :=
  let (oy, ox) := cvPixel d j
  let g := cvG d
  let t := cvKH d * cvKW d
  let rows := (List.range (cvKH d)).map fun ty =>
    match inRange (cvTap d oy ox ty 0).1 (cvIH d) with
    | some y => (row y, if cvFmt d = 4 then scl y else [])
    | none => ([], [])
  let elem := fun (k : Nat) =>
    let grp := k / (t * g)
    let tap := k % (t * g) / g
    let c := grp * g + k % g
    let (iy, ix) := cvTap d oy ox (tap / cvKW d) (tap % cvKW d)
    match inRange iy (cvIH d), inRange ix (cvIW d) with
    | some _, some x => some (tap / cvKW d, x * cvCin d + c)
    | _, _ => none
  let n := t * cvCin d
  ((List.range n).map fun k => match elem k with
      | some (ty, i) => (rows.getD ty ([], [])).1.getD i 0
      | none => 0,
    if cvFmt d = 4 then
      (List.range (ceilDiv n 32)).map fun b => match elem (32 * b) with
        | some (ty, i) => (rows.getD ty ([], [])).2.getD (i / 32) 0
        | none => 0
    else [])

/-- The span of vector `j` in kernel-piece row `ty`: input row and element range (R121). -/
def cvSpan (d j ty : Nat) : Option (Nat × Nat × Nat) :=
  let (oy, ox) := cvPixel d j
  let ixa := max (cvTap d oy ox ty 0).2 0
  let ixb := min (cvTap d oy ox ty (cvKW d - 1)).2 ((cvIW d : Int) - 1)
  match inRange (cvTap d oy ox ty 0).1 (cvIH d) with
  | none => none
  | some y => if ixa > ixb then none else some (y, ixa.toNat * cvCin d, (ixb.toNat + 1) * cvCin d)

/-- Lines a run of `[a, b)` units of `w` bits touches. -/
def lineRun (w a b : Nat) : List Nat :=
  if b ≤ a then [] else (List.range (((b * w - 1) / 4096) + 1 - a * w / 4096)).map (a * w / 4096 + ·)

/-- Lines of the span of vector `j`, as offsets from the operand's first line: of ASRC, and of ASCL (R121, R131). -/
def cvSpanLines (s : State) (n d j ty : Nat) : List Nat × List Nat :=
  let ref := dw d 1 31 0
  let e := cvIW d * cvCin d
  match cvSpan d j ty with
  | none => ([], [])
  | some (y, a, b) =>
    if cvZpi d then
      match packedRow s n ref (cvIH d) e (cvFmt d) y with
      | none => ([], [])
      | some (bits, l, _) =>
        let va := ((bits.take a).filter id).length
        let vb := ((bits.take b).filter id).length
        ((lineRun (fmtBits (cvFmt d)) va vb).map (l + zrMb e + ·), [])
    else
      ((lineRun (fmtBits (cvFmt d)) a b).map (y * rowLines e (cvFmt d) + ·),
        if cvFmt d = 4 then
          (let o := sclOfs y e
          lineRun 8 (o + a / 32) (o + b / 32))
        else [])

/-- New lines that vector `j` reads (R121, R131): of ASRC and of ASCL; of a row that reads as zeros (R130) none (DESIGN
CHOICE, log entry 64). -/
def cvNewLines (s : State) (n d j : Nat) : List Nat × List Nat :=
  let first := j % cvOXN d = 0
  let per := (List.range (cvKH d)).map fun ty =>
    let now := cvSpanLines s n d j ty
    let prev := if first then ([], []) else cvSpanLines s n d (j - 1) ty
    (now.1.filter fun l => !prev.1.contains l, now.2.filter fun l => !prev.2.contains l)
  let dir := if cvZpi d && j == 0 then List.range (zrDl (cvIH d)) else []
  let masks := if cvZpi d && first then
      (List.range (cvKH d)).flatMap fun ty =>
        match inRange (cvTap d (cvPixel d j).1 (cvPixel d j).2 ty 0).1 (cvIH d) with
        | some y =>
          match packedRow s n (dw d 1 31 0) (cvIH d) (cvIW d * cvCin d) (cvFmt d) y with
          | some (_, l, _) => (List.range (zrMb (cvIW d * cvCin d))).map (l + ·)
          | none => []
        | none => []
    else []
  (dir ++ masks ++ per.flatMap (·.1), per.flatMap (·.2))

end Sys2Proof.Machine
end

