-- ==== Sys2Proof/Machine/VecEngine.lean ====
section
/-! DEFINITION. The work of the vector engine: VEC, POOL and ROIA (R99, R100, R134–R141). -/

namespace Sys2Proof.Machine

open Sys2Proof

/-! ### Port and lane time (R100) -/

/-- Cycles a port of a store takes for lines: the A-store ports move 1,024 bytes a cycle, the P-store ports 2,048. -/
def portCycles (store lines : Nat) : Nat := if store = 2 then ceilDiv lines 4 else ceilDiv lines 2

/-- The largest port time over the ports used: (store, lines) per operand, one port per store. -/
def portsTime (xs : List (Nat × Nat)) : Nat :=
  max (portCycles 1 ((xs.filter fun x => x.1 = 1).foldl (fun a x => a + x.2) 0))
    (portCycles 2 ((xs.filter fun x => x.1 = 2).foldl (fun a x => a + x.2) 0))

/-- Unit `i` of `n` takes its share of a time, in whole cycles. -/
def shareOf (t n i : Nat) : Nat := t * (i + 1) / n - t * i / n

/-- A packed destination: whether it is packed, and the lines X that its tail passes (R128, R129). -/
structure Pack where
  on : Bool
  extent : Nat
  deriving DecidableEq, Repr

/-- Lines of row `i` of a packed tensor of `nr` rows of `e` elements, packed. -/
def packedRowLines (fmt : Nat) (codes : List Nat) : Nat := (packRow fmt codes).length / 512

/-- Line offset of row `i` of a packed tensor of `nr` rows; of its end where `i` is `nr` (R126). -/
def packedOfs (fmt nr : Nat) (row : Nat → List Nat × List Nat × Nat) (i : Nat) : Nat :=
  (List.range i).foldl (fun a j => a + packedRowLines fmt (row j).1) (zrDl nr)

/-- The effect of writing row `i` of `nr` rows of `e` elements to a destination: a row's lines, packed or not; of a
packed tensor the directory after the last row (R129); an MXFP4 scale line with the last row that has a slot in it
(R560). `row` gives every row, converted. -/
def writeRow (n dst dscl : Nat) (packed : Pack) (fmt nr e i : Nat) (row : Nat → List Nat × List Nat × Nat)
    (s : State) : State × Nat :=
  let r := row i
  let s :=
    if packed.on then
      let s := writeLines s n dst (packedOfs fmt nr row i) (packRow fmt r.1)
      if i + 1 = nr then
        writeLines s n dst 0 (padBytes (zrDl nr * 512)
          ((List.range (nr + 1)).flatMap fun j => leBytes 4 (packedOfs fmt nr row j)))
      else s
    else writeLines s n dst (i * rowLines e fmt) (bytesOf fmt r.1)
  let s :=
    if fmt ≠ 4 then s
    else if 1024 < e then
      writeLines s n dscl (sclOfs i e / 512) (padBytes (ceilDiv e 16384 * 512) (r.2.1.map (BitVec.ofNat 8)))
    else if i % 16 = 15 ∨ i + 1 = nr then
      writeLines s n dscl (i / 16) ((List.range (i % 16 + 1)).flatMap fun j =>
        padBytes 32 ((row (i / 16 * 16 + j)).2.1.map (BitVec.ofNat 8)))
    else s
  (s, r.2.2)

/-- Lines of the MXFP4 scales that row `i` writes (R560). -/
def sclWrites (dscl fmt nr e i : Nat) : List (Nat × Nat × Nat) :=
  if fmt ≠ 4 then []
  else if 1024 < e then [(dscl, sclOfs i e / 512, ceilDiv e 16384)]
  else if i % 16 = 15 ∨ i + 1 = nr then [(dscl, i / 16, 1)] else []

/-- Lines that row `i` writes, checked against R81: `row` as in `writeRow`. -/
def rowWrites (dst dscl : Nat) (packed : Pack) (fmt nr e i : Nat) (row : Nat → List Nat × List Nat × Nat) :
    List (Nat × Nat × Nat) :=
  (if packed.on then
    (dst, packedOfs fmt nr row i, packedRowLines fmt (row i).1) :: (if i + 1 = nr then [(dst, 0, zrDl nr)] else [])
  else [(dst, i * rowLines e fmt, rowLines e fmt)]) ++ sclWrites dscl fmt nr e i

/-- Lines that the tail passes with row `i`: those written, of a packed tensor X lines with the last row (R129). -/
def rowTails (dst dscl : Nat) (packed : Pack) (fmt nr e i : Nat) : List (Nat × Nat × Nat) :=
  (if packed.on then (if i + 1 = nr then [(dst, 0, packed.extent)] else [])
  else [(dst, i * rowLines e fmt, rowLines e fmt)]) ++ sclWrites dscl fmt nr e i

/-- Lines written to a destination of `nr` rows of `e` elements in all. -/
def dstLines (packed : Pack) (fmt nr e : Nat) (row : Nat → List Nat × List Nat × Nat) : Nat :=
  if packed.on then packedOfs fmt nr row nr else nr * rowLines e fmt

/-- When the results of row `i` of `r` can be read, for a command that may begin in cycle `x` and takes `t` cycles with
no stall beside its 20: in step with those cycles, and 20 cycles after its last source read (R100, R138, R141). -/
def vecDue (x t r i at_ k : Nat) : Nat := max (x + ceilDiv (t * (i + 1)) r) (max at_ (k - 1)) + 20

/-! ### VEC (R99) -/

/-- One element: `a` and `b` the sources, `sc` and `bi` the column's scale and bias. -/
def vecOp (op : Nat) (a b sc bi : FFlag) : FFlag :=
  match op with
  | 1 => fAdd a b
  | 2 => fMul a b
  | 3 => fMax a b
  | 4 => fFma a sc bi
  | 5 => vrelu (fFma a sc bi)
  | 6 => vrelu a
  | 7 => vexp a
  | 8 => vrecip a
  | 9 => vrsqrt a
  | 10 => vtanh a
  | 11 => vsigmoid a
  | 12 => vgelu a
  | _ => a

/-- Lane cost of an operation (R100). -/
def vecCost (op : Nat) : Nat :=
  match op with
  | 8 => 5 | 7 => 6 | 9 => 6 | 11 => 12 | 10 => 13 | 12 => 18
  | _ => 1

/-- FP32 values of a row of a source. -/
def srcRow (s : State) (n ref scl : Nat) (packed : Bool) (nr e fmt y : Nat) : List FFlag :=
  (rowVals fmt (mapRow s n ref packed nr e fmt y) (if fmt = 4 then sclRow s n scl y e else [])).map toF32

/-- The result of row `i`, before conversion: COLS elements, or the one value of a reduction. -/
def vecRow (s : State) (n d i : Nat) : List FFlag :=
  let z : FFlag := (0#32, false)
  let a := srcRow s n (dw d 1 31 0) (dw d 4 63 32) (vcZpi d) (vcRows d) (vcCols d) (vcFmt0 d) i
  let op := vcOp d
  if op = 0x0D then [match a with | x :: xs => xs.foldl fMax x | [] => z]
  else if op = 0x0E then [match a with | x :: xs => xs.foldl fAdd x | [] => z]
  else
    let b := if op = 1 ∨ op = 2 ∨ op = 3 then
        srcRow s n (dw d 1 63 32) noRef false (vcRows d) (vcCols d) (vcFmt1 d) i
      else List.replicate a.length z
    let scb := dw d 2 63 32
    let sb := if op = 4 ∨ op = 5 then
        (srcRow s n scb noRef false 2 (vcCols d) 7 0, srcRow s n scb noRef false 2 (vcCols d) 7 1)
      else (List.replicate a.length z, List.replicate a.length z)
    List.zipWith (fun ab sc => vecOp op ab.1 ab.2 sc.1 sc.2) (List.zip a b) (List.zip sb.1 sb.2)

/-- A destination row of a VEC, converted: a reduction gives one row of ROWS values. -/
def vecDst (s : State) (n d i : Nat) : List Nat × List Nat × Nat :=
  let xs := if vcReduce d then (List.range (vcRows d)).flatMap fun r => vecRow s n d r else vecRow s n d i
  convertRow (vcFmtD d) (dSat d) xs

/-- Lines read of a map of `nr` rows, with the directory of a packed one (R132). -/
def mapReadLines (s : State) (n ref : Nat) (packed : Bool) (nr e fmt : Nat) : Nat :=
  if packed then
    (List.range nr).foldl (fun a y => a + (mapRowLines s n ref true nr e fmt y).2) (zrDl nr)
  else nr * rowLines e fmt

/-- The reads of row `y` of a map, the directory with the first. -/
def rowReads (s : State) (n ref : Nat) (packed : Bool) (nr e fmt y : Nat) : List (Nat × Nat × Nat) :=
  let (o, k) := mapRowLines s n ref packed nr e fmt y
  (if packed then [(ref, 0, zrDl nr)] else []) ++ [(ref, o, k)]

/-- VEC: its units are source rows, read at the rate of the ports (R100). -/
def vecWork (s : State) (n x d : Nat) : Work :=
  let r := vcRows d
  let src0 := dw d 1 31 0; let src1 := dw d 1 63 32; let dst := dw d 2 31 0; let scb := dw d 2 63 32
  let dscl := dw d 4 31 0; let sscl := dw d 4 63 32
  let red := vcReduce d
  let lane := if red then ceilDiv r 1024 * vcCols d else ceilDiv (r * vcCols d) 1024 * vecCost (vcOp d)
  let two := vcOp d = 1 ∨ vcOp d = 2 ∨ vcOp d = 3
  let aff := vcOp d = 4 ∨ vcOp d = 5
  let pack : Pack := { on := vcZpo d, extent := zrExtent r (vcCols d) (vcFmtD d) }
  let reads := portsTime [(refStore src0, mapReadLines s n src0 (vcZpi d) r (vcCols d) (vcFmt0 d)),
    (refStore sscl, if vcFmt0 d = 4 then sclLines r (vcCols d) else 0),
    (refStore src1, if two then r * rowLines (vcCols d) (vcFmt1 d) else 0),
    (refStore scb, if aff then 2 * rowLines (vcCols d) 7 else 0)]
  let row := fun (s : State) => vecDst s n d
  let writes := fun (_ : Unit) => portsTime
    [(refStore dst, dstLines pack (vcFmtD d) (vcDstRows d) (vcDstElems d) (row s)),
      (refStore dscl, if vcFmtD d = 4 then sclLines (vcDstRows d) (vcDstElems d) else 0)]
  { total := r
    cost := shareOf reads r
    due := fun i => vecDue x (if i + 1 = r then max (max lane reads) (writes ()) else max lane reads) r i
    reads := fun i => rowReads s n src0 (vcZpi d) r (vcCols d) (vcFmt0 d) i ++
      (if vcFmt0 d = 4 then [(sscl, sclOfs i (vcCols d) / 512, ceilDiv (vcCols d) 16384)] else []) ++
      (if two then [(src1, i * rowLines (vcCols d) (vcFmt1 d), rowLines (vcCols d) (vcFmt1 d))] else []) ++
      (if aff && i == 0 then [(scb, 0, 2 * rowLines (vcCols d) 7)] else [])
    writes := fun i =>
      if red then (if i + 1 = r then rowWrites dst dscl pack (vcFmtD d) 1 r 0 (row s) else [])
      else rowWrites dst dscl pack (vcFmtD d) r (vcCols d) i (row s)
    tails := fun i =>
      if red then (if i + 1 = r then rowTails dst dscl pack (vcFmtD d) 1 r 0 else [])
      else rowTails dst dscl pack (vcFmtD d) r (vcCols d) i
    issue := fun _ _ s => s
    effect := fun i s =>
      if red then (if i + 1 = r then writeRow n dst dscl pack (vcFmtD d) 1 r 0 (row s) s else (s, 0))
      else writeRow n dst dscl pack (vcFmtD d) r (vcCols d) i (row s) s }

/-! ### POOL (R139–R141) -/

/-- Input rows in range of the windows of output row `oy`, by window row. -/
def poolRows (d oy : Nat) : List (Option Nat) :=
  (List.range (plKH d)).map fun ty => inRange ((oy * plSH d + ty : Nat) - (plPT d : Int)) (plIH d)

/-- Output row `oy` before conversion (R140). -/
def poolRow (s : State) (n d oy : Nat) : List FFlag :=
  let src := dw d 1 31 0
  let e := plIW d * plC d
  let rows := (poolRows d oy).map fun y => y.map fun y => srcRow s n src noRef (plZpi d) (plIH d) e (plFmt d) y
  let z : FFlag := (0#32, false)
  (List.range (plOW d * plC d)).map fun k =>
    let ox := k / plC d; let c := k % plC d
    let vals := rows.flatMap fun r =>
      match r with
      | none => []
      | some xs => (List.range (plKW d)).filterMap fun tx =>
          (inRange ((ox * plSW d + tx : Nat) - (plPL d : Int)) (plIW d)).map fun x => xs.getD (x * plC d + c) z
    match vals with
    | [] => z
    | v :: vs =>
      if plAvg d then
        let cnt := if plCntPad d then plKH d * plKW d else vals.length
        fMul (vs.foldl fAdd v) (rcp cnt, false)
      else vs.foldl fMax v

/-- POOL: its units are output rows. -/
def poolWork (s : State) (n x d : Nat) : Work :=
  let src := dw d 1 31 0; let dst := dw d 1 63 32
  let e := plIW d * plC d; let eo := plOW d * plC d
  let oh := plOH d
  let row := fun (s : State) (i : Nat) => convertRow (plFmt d) (dSat d) (poolRow s n d i)
  let pack : Pack := { on := plZpo d, extent := zrExtent oh eo (plFmt d) }
  let lane := ceilDiv (oh * eo) 1024 * (plKH d * plKW d)
  let lines := (List.range oh).foldl (fun a oy => (poolRows d oy).foldl (fun a y =>
    match y with
    | some y => a + (mapRowLines s n src (plZpi d) (plIH d) e (plFmt d) y).2
    | none => a) a) (if plZpi d then zrDl (plIH d) else 0)
  let reads := portsTime [(refStore src, lines)]
  let writes := fun (_ : Unit) => portsTime [(refStore dst, dstLines pack (plFmt d) oh eo (row s))]
  { total := oh
    cost := shareOf reads oh
    due := fun i => vecDue x (if i + 1 = oh then max (max lane reads) (writes ()) else max lane reads) oh i
    reads := fun i => (poolRows d i).flatMap fun y =>
      match y with
      | some y => rowReads s n src (plZpi d) (plIH d) e (plFmt d) y
      | none => []
    writes := fun i => rowWrites dst noRef pack (plFmt d) oh eo i (row s)
    tails := fun i => rowTails dst noRef pack (plFmt d) oh eo i
    issue := fun _ _ s => s
    effect := fun i s => writeRow n dst noRef pack (plFmt d) oh eo i (row s) s }

/-! ### ROIA (R134–R138) -/

def fConst (w : Word32) : FFlag := (w, false)

/-- A box's coordinates in the feature map along one axis: start and step of its samples (R135). -/
def roAxis (d : Nat) (lo hi : FFlag) (bins : Nat) : FFlag × FFlag :=
  let sc := fLit (BitVec.ofNat 32 (roScale d))
  let o := if roAlign d then fConst 0x3F000000#32 else fConst 0#32
  let a := fAdd (fMul lo sc) (fNeg o)
  let b := fAdd (fMul hi sc) (fNeg o)
  let w := fAdd b (fNeg a)
  let w := if roAlign d then w else fMax w cOne
  (a, fMul (fMul w (rcp bins, false)) (rcp (roSR d), false))

/-- Box record `b`: y1, x1, y2, x2 (R134). -/
def roBox (s : State) (n d b : Nat) : List Nat :=
  let bs := readLines s n (dw d 2 31 0) (b / 32) 1
  codes32 ((bs.drop (b % 32 * 16)).take 16)

/-- A box with a coordinate, or a scale, that is NaN or infinite (R136). -/
def roBad (s : State) (n d b : Nat) : Bool :=
  !finiteWord (roScale d) || (roBox s n d b).any fun w => !finiteWord w

/-- Sample coordinate `i` along an axis. -/
def roCoord (start step : FFlag) (i : Nat) : FFlag := fFma (fAdd (fInt i) cHalf) step start

/-- A sample lies outside the map (R135). -/
def roOutside (d : Nat) (y x : FFlag) : Bool :=
  let m1 : Word32 := 0xBF800000#32
  flLt y.1 m1 || flLt (f32OfInt (roFH d)) y.1 || flLt x.1 m1 || flLt (f32OfInt (roFW d)) x.1

/-- The two cells and the weight along an axis of `size` elements (R135). The spec gives a NaN coordinate no maximum
and no floor (a finite box times a finite SSCALE may overflow): it takes MAX of R99 and cell 0 (DESIGN CHOICE, log
entry 64). -/
def roCells (v : FFlag) (size : Nat) : Nat × Nat × FFlag :=
  let v := fMax v (fConst 0#32)
  let i := (floorInt (f32Val v.1)).toNat
  if size ≤ i + 1 then (size - 1, size - 1, fConst 0#32) else (i, i + 1, fAdd v (fNeg (fInt i)))

/-- The sample grid of bin row `ph` of box `b`: for each bin column the samples (y, x) in order. -/
def roSamples (s : State) (n d b ph pw : Nat) : List (FFlag × FFlag) :=
  let bx := (roBox s n d b).map fun w => fLit (BitVec.ofNat 32 w)
  let z := fConst 0#32
  let (sy, ty) := roAxis d (bx.getD 0 z) (bx.getD 2 z) (roPH d)
  let (sx, tx) := roAxis d (bx.getD 1 z) (bx.getD 3 z) (roPW d)
  (List.range (roSR d)).flatMap fun iy => (List.range (roSR d)).map fun ix =>
    (roCoord sy ty (ph * roSR d + iy), roCoord sx tx (pw * roSR d + ix))

/-- Bilinear value of a sample for every channel (R135); `row` gives the FP32 elements of a feature row. -/
def roBilin (d : Nat) (row : Nat → List FFlag) (y x : FFlag) : List FFlag :=
  let o := y.2 || x.2
  if roOutside d y x then List.replicate (roC d) (0#32, o)
  else
    let (y0, y1, ly) := roCells y (roFH d)
    let (x0, x1, lx) := roCells x (roFW d)
    let hy := fAdd cOne (fNeg ly); let hx := fAdd cOne (fNeg lx)
    let at_ := fun (r : List FFlag) (x : Nat) => (r.drop (x * roC d)).take (roC d)
    let r0 := row y0; let r1 := row y1
    let v := (at_ r0 x0).map fun f => fMul (fMul hy hx) f
    let v := List.zipWith (fun v f => fFma (fMul hy lx) f v) v (at_ r0 x1)
    let v := List.zipWith (fun v f => fFma (fMul ly hx) f v) v (at_ r1 x0)
    (List.zipWith (fun v f => fFma (fMul ly lx) f v) v (at_ r1 x1)).map fun v => (v.1, v.2 || o)

/-- Bin row `ph` of box `b`, before conversion. -/
def roRow (s : State) (n d b ph : Nat) : List FFlag :=
  if roBad s n d b then List.replicate (roPW d * roC d) (cNan, false)
  else
    let row := fun y => srcRow s n (dw d 1 31 0) noRef (roZpi d) (roFH d) (roFW d * roC d) (roFmt d) y
    (List.range (roPW d)).flatMap fun pw =>
      let vs := (roSamples s n d b ph pw).map fun p => roBilin d row p.1 p.2
      let acc := match vs with
        | [] => []
        | v :: vs => vs.foldl (fun a v => List.zipWith fAdd a v) v
      acc.map fun a => fMul a (rcp (roSR d * roSR d), false)

/-- Feature rows and element runs that a bin row reads: (row, first, end); a box of R136 reads none (DESIGN CHOICE, log
entry 64). -/
def roTouches (s : State) (n d b ph : Nat) : List (Nat × Nat × Nat) :=
  if roBad s n d b then []
  else (List.range (roPW d)).flatMap fun pw => (roSamples s n d b ph pw).flatMap fun p =>
    if roOutside d p.1 p.2 then []
    else
      let (y0, y1, _) := roCells p.1 (roFH d)
      let (x0, x1, _) := roCells p.2 (roFW d)
      let run := fun y => (y, x0 * roC d, (x1 + 1) * roC d)
      if y1 = y0 then [run y0] else [run y0, run y1]

/-- ROIA: its units are bin rows, box by box; one count of port lines takes in boxes, samples and outputs (R138). -/
def roiaWork (s : State) (n x d : Nat) : Work :=
  let src := dw d 1 31 0; let dst := dw d 1 63 32; let box := dw d 2 31 0
  let e := roFW d * roC d
  let ro := rowLines (roPW d * roC d) (roFmt d)
  let total := roNBox d * roPH d
  let touch := fun i => roTouches s n d (i / roPH d) (i % roPH d)
  let linesOf := fun (t : Nat × Nat × Nat) =>
    if roZpi d then
      (mapRowLines s n src true (roFH d) e (roFmt d) t.1)
    else
      let l := lineRun (fmtBits (roFmt d)) t.2.1 t.2.2
      (t.1 * rowLines e (roFmt d) + l.headD 0, l.length)
  let lane := total * roPW d * (roSR d * roSR d) * ceilDiv (roC d) 1024 * 4
  let port := fun (_ : Unit) => portCycles 1 ((List.range total).foldl (fun a i =>
    (touch i).foldl (fun a t => a + (linesOf t).2) a)
    (ceilDiv (roNBox d) 32 + (if roZpi d then zrDl (roFH d) else 0) + total * ro))
  { total := total
    cost := shareOf (port ()) total
    due := vecDue x (max lane (port ())) total
    reads := fun i => (box, i / roPH d / 32, 1) ::
      (if roZpi d then [(src, 0, zrDl (roFH d))] else []) ++
      (touch i).map fun t => (src, (linesOf t).1, (linesOf t).2)
    writes := fun i => [(dst, i * ro, ro)]
    tails := fun i => [(dst, i * ro, ro)]
    issue := fun _ _ s => s
    effect := fun i s =>
      let r := convertRow (roFmt d) (dSat d) (roRow s n d (i / roPH d) (i % roPH d))
      (writeLines s n dst (i * ro) (bytesOf (roFmt d) r.1),
        r.2.2 ||| if roBad s n d (i / roPH d) then 4 else 0) }

end Sys2Proof.Machine
end

