-- ==== Sys2Proof/Machine/Attn.lean ====
section
/-! DEFINITION. The attention unit (R142–R162, R170, R175). -/

namespace Sys2Proof.Machine

open Sys2Proof Sys2Proof.Machine.Reg

/-- Tokens of a full query block, and the number of blocks (R156). -/
def atQT (d : Nat) : Nat := 256 / atGQ d
def atBlocks (d : Nat) : Nat := ceilDiv (atNQ d) (atQT d)

/-- Tokens of block `b`, first and number. -/
def atBlock (d b : Nat) : Nat × Nat := (b * atQT d, min (atQT d) (atNQ d - b * atQT d))

/-- A query at position `q` sees the key at position `k` (R147). -/
def atVisible (d q k : Nat) : Bool := k < atCtxLen d && (!atCausal d || k ≤ q)

/-- Chunks of 512 positions that take part for a block (R156). -/
def atChunks (d b : Nat) : Nat :=
  let (n0, q) := atBlock d b
  let last := if atCausal d then min (atPos0 d + n0 + q - 1) (atCtxLen d - 1) else atCtxLen d - 1
  last / 512 + 1

/-- Tokens of chunk `c` (R156). -/
def atChunkLen (d c : Nat) : Nat := min (512 * c + 511) (atCtxLen d - 1) + 1 - 512 * c

/-! ### Time (R162) -/

/-- Cycles of block `b`. -/
def atBlockTime (d b : Nat) : Nat :=
  let (_, q) := atBlock d b
  let r := if atKvFmt d = 5 ∨ atKvFmt d = 6 then 4 else 1
  let w := fmtBits (atKvFmt d)
  let m := q * atGQ d
  let prologue := ceilDiv (q * atNkvh d * (atGQ d + ofBool (atAppend d)) * atHdim d) 1024 * 8 + 20 +
    if atRope d ≠ 0 ∧ b = 0 then 64 else 0
  let lk := ceilDiv (atHdim d * w) 8 + 6
  let pass := m * r + 40
  let x := ceilDiv (m * 512) 1024 * 14 + 20
  let nch := atChunks d b
  let u := fun (last : Bool) => ceilDiv (m * atHdim d) 1024 * (if last then 8 else 2) + 20
  let chunk := fun i =>
    let c := i % nch
    let lv := ceilDiv (atChunkLen d c * w) 8 + 6
    let pu := pass + u (c + 1 == nch)
    max (pass + x) lv + if i + 1 = nch * atNkvh d then pu else max pu lk
  prologue + lk + (List.range (nch * atNkvh d)).foldl (fun a i => a + chunk i) 0

/-! ### Pages (R151, R153, R175) -/

/-- Entry `i` of the layer of an ATTN. -/
def atEntry (s : State) (ctx ptab h d i : Nat) : Nat := (kvRead s ctx (kvEntry ptab (hdMaxpg h) (atLayer d) i) 8).2

/-- The page of entry `i`, none where V is 0. -/
def atPage (s : State) (n ctx ptab h d i : Nat) : Option Nat :=
  let e := atEntry s ctx ptab h d i
  if bitOf e 0 then some (pageAddr s n (bitsOf e 31 12)) else none

/-- Address of the slice of keys or values of a head in a page (R151). -/
def atSlice (a d head : Nat) (val : Bool) : Nat := a + (2 * head + ofBool val) * atSB d

/-- The codes of HDIM elements of position `p`, the key or the value of head `head`; +0 where the entry has V = 0 and
H = 0 (R175). An entry with H alone, which the controller leaves to no ATTN, names no page: free bytes. -/
def atCached (s : State) (n ctx ptab h d head : Nat) (val : Bool) (p : Nat) : List Nat :=
  let hb := atHdim d * fmtBits (atKvFmt d) / 8
  match atPage s n ctx ptab h d (p / 16) with
  | none =>
    if bitOf (atEntry s ctx ptab h d (p / 16)) 1 then
      codesOf (atKvFmt d) (atHdim d) ((List.range hb).map fun i => Config.freeByte s.free (p * 2 ^ 20 + 2 * head + ofBool val + i * 2 ^ 10))
    else List.replicate (atHdim d) 0
  | some a =>
    codesOf (atKvFmt d) (atHdim d) (engineRead s 0 ctx (atSlice a d head val + p % 16 * hb) hb).2.2

/-- What the reads of a block leave: each entry, and each slice of each page once (R161, R201, R207). -/
def atReads (s : State) (n ctx ptab h d pages : Nat) : State :=
  forUpTo pages (fun i s =>
    let s := (kvRead s ctx (kvEntry ptab (hdMaxpg h) (atLayer d) i) 8).1
    match atPage s n ctx ptab h d i with
    | none => s
    | some a => forUpTo (2 * atNkvh d) (fun j s => (engineRead s 0 ctx (a + j * atSB d) (atSB d)).1) s) s

/-- Bytes written to the slot of a position; with slot 15 the rest of the slice is zeroed (R151). -/
def atAppendOne (s : State) (n ctx ptab h d head : Nat) (val : Bool) (p : Nat) (bs : List Byte) : State :=
  match atPage s n ctx ptab h d (p / 16) with
  | none => s
  | some a =>
    let t := p % 16
    let base := atSlice a d head val
    let s := (engineWrite s 0 ctx (base + t * bs.length) bs).1
    let rest := atSB d - 16 * bs.length
    if t = 15 ∧ 0 < rest then (engineWrite s 0 ctx (base + 16 * bs.length) (List.replicate rest 0#8)).1 else s

/-! ### The computation (R148, R156–R158) -/

/-- Elements `[o, o + HDIM)` of a query row as FP32, rotated where asked (R143, R148). -/
def atHead (d : Nat) (row : List Nat) (o p : Nat) (rotate : Bool) : List FFlag :=
  let xs := ((row.drop o).take (atHdim d)).map fun c => toF32 (codeVal (atQFmt d) c)
  if rotate && atRope d != 0 then
    ropeRotate (atRope d) (BitVec.ofNat 32 (atTheta d)) (BitVec.ofNat 32 (atFactor d)) p xs
  else xs

/-- A vector's running softmax state (R158). -/
structure Soft where
  m : Word32
  l : FFlag
  o : List FFlag
  deriving DecidableEq, Repr

/-- One chunk for one vector: `sc` the scores, `vis` which are visible. Answers m, corr, the probability codes, their
row sum and flags; none where nothing is visible. -/
def softChunk (d : Nat) (m : Word32) (sc : List FFlag) (vis : List Bool) :
    Option (Word32 × FFlag × List Nat × FFlag × Nat) :=
  let scale : FFlag := fLit (BitVec.ofNat 32 (atSmScale d))
  let t := (List.zip sc vis).map fun p => (fMul p.1 scale, p.2)
  match (t.filter (·.2)).map (·.1) with
  | [] => none
  | x :: xs =>
    let mc := xs.foldl fMax x
    let mn := fMax (m, false) mc
    let corr := vexp (fAdd (m, false) (fNeg mn))
    let pk := t.map fun p => if p.2 then
        (let r := convert (atKvFmt d) (dSat d) (vexp (fAdd p.1 (fNeg mn)))
        (r.1, r.2 &&& 10, true))
      else (0, 0, false)
    let rs := pk.foldl (fun (a : FFlag) p => if p.2.2 then fAdd a (toF32 (codeVal (atKvFmt d) p.1)) else a) (0#32, false)
    some (mn.1, corr, pk.map (·.1), rs, pk.foldl (fun f p => f ||| p.2.1) 0)

/-- One head of a block over its chunks: the vectors' query codes, their positions. Answers the final states and
flags. `cached` gives the codes of the key or value of a position. -/
def atHeadPass (d nch : Nat) (qs : List (List Nat)) (pos : List Nat) (cached : Bool → Nat → List Nat) :
    List Soft × Nat :=
  let init : List Soft := qs.map fun _ => { m := flNeg cInf, l := (0#32, false), o := List.replicate (atHdim d) (0#32, false) }
  (List.range nch).foldl (fun (acc : List Soft × Nat) c =>
    let nc := atChunkLen d c
    let ps := (List.range nc).map (512 * c + ·)
    let keys := ps.map fun p => (cached false p).map (codeVal (atKvFmt d))
    let vals := ps.map fun p => (cached true p).map (codeVal (atKvFmt d))
    let kt := (List.range (atHdim d)).map fun i => keys.map fun k => k.getD i (.fin false 0 0)
    let rs := (List.range qs.length).map fun v =>
      let st := acc.1.getD v { m := 0#32, l := (0#32, false), o := [] }
      let q := (qs.getD v []).map (codeVal (atKvFmt d))
      let sc := passF 1 nc q kt none
      let vis := ps.map fun p => atVisible d (pos.getD v 0) p
      match softChunk d st.m sc vis with
      | none => (st, if sc.any (·.2) then 2 else 0)
      | some (mn, corr, pk, rsum, fl) =>
        let pv := passF 1 (atHdim d) (pk.map (codeVal (atKvFmt d))) vals none
        ({ m := mn, l := fFma st.l corr rsum, o := List.zipWith (fun o p => fFma o corr p) st.o pv },
          fl ||| if sc.any (·.2) then 2 else 0)
    (rs.map (·.1), rs.foldl (fun f r => f ||| r.2) acc.2)) (init, 0)

/-- The effect of a block: appends, then the output rows (R156–R159). -/
def atBlockEffect (n d b : Nat) (s : State) : State × Nat :=
  let ctx := match (coreOf s n).job with | some j => j.1 | none => 0
  let ptab := atPtab d
  let h := (kvHeader s ctx ptab).2
  let pool := hdPool h % 8
  let (n0, q) := atBlock d b
  let rq := rowLines (atQElems d) (atQFmt d)
  let toks := (List.range q).map fun i =>
    (atPos0 d + n0 + i, codesOf (atQFmt d) (atQElems d) (readLines s n (dw d 1 31 0) ((n0 + i) * rq) rq))
  let heads := atNkvh d
  let hd := atHdim d
  let conv := fun (xs : List FFlag) => xs.map fun x => convert (atKvFmt d) (dSat d) x
  -- new keys and values go to their slots
  let (s, f0) := if atAppend d then
      toks.foldl (fun (acc : State × Nat) t => (List.range heads).foldl (fun (acc : State × Nat) hh =>
        let k := conv (atHead d t.2 ((heads * atGQ d + hh) * hd) t.1 true)
        let v := conv (atHead d t.2 ((heads * atGQ d + heads + hh) * hd) t.1 false)
        let s := atAppendOne acc.1 pool ctx ptab h d hh false t.1 (bytesOf (atKvFmt d) (k.map (·.1)))
        let s := atAppendOne s pool ctx ptab h d hh true t.1 (bytesOf (atKvFmt d) (v.map (·.1)))
        (s, (k ++ v).foldl (fun f x => f ||| x.2) acc.2)) acc) (s, 0)
    else (s, 0)
  let nch := atChunks d b
  -- missing pages among those read (R175)
  let pages := ceilDiv (min (512 * nch) (atCtxLen d)) 16
  let holes := ((List.range pages).filter fun i => atEntry s ctx ptab h d i % 4 = 0).length
  let s := if holes = 0 then s else (s.count (SCH_KVP_CNT_HOLE_VALUE pool) holes).setOn (SCH_KVP_EVT_HOLE pool)
  let outs := (List.range heads).map fun hh =>
    let vecs := toks.flatMap fun t => (List.range (atGQ d)).map fun g =>
      (t.1, conv (atHead d t.2 ((hh * atGQ d + g) * hd) t.1 true))
    let fq := vecs.foldl (fun f v => v.2.foldl (fun f x => f ||| (x.2 &&& 10)) f) 0
    let (st, fl) := atHeadPass d nch (vecs.map fun v => v.2.map (·.1)) (vecs.map (·.1))
      fun val p => atCached s pool ctx ptab h d hh val p
    (st.map fun x =>
      let inv := vrecip x.l
      x.o.map fun o => convert (atQFmt d) (dSat d) (fMul o inv), fq ||| fl)
  let ro := rowLines (atOElems d) (atQFmt d)
  let s := forUpTo q (fun i s =>
    let codes := (List.range heads).flatMap fun hh => (List.range (atGQ d)).flatMap fun g =>
      (((outs.getD hh ([], 0)).1).getD (i * atGQ d + g) []).map (·.1)
    writeLines s n (dw d 1 63 32) ((n0 + i) * ro) (bytesOf (atQFmt d) codes)) s
  let s := { atReads s pool ctx ptab h d pages with free := s.free + 1 }
  let f1 := outs.foldl (fun f o => o.1.foldl (fun f v => v.foldl (fun f x => f ||| x.2) f) (f ||| o.2)) f0
  (s, f1)

/-- Whether an ATTN is skipped (R170). -/
def atSkipped (c : Cmd) : Bool := c.landed.contains 2

/-- ATTN: its units are query blocks; a skipped one writes zeros (R170). -/
def attnWork (c : Cmd) (n : Nat) : Work :=
  let d := c.desc
  let rq := rowLines (atQElems d) (atQFmt d)
  let ro := rowLines (atOElems d) (atQFmt d)
  if atSkipped c then
    { total := 1, cost := fun _ => ceilDiv (atNQ d * ro) 2, due := fun _ _ k => k + 20, reads := fun _ => []
      writes := fun _ => [(dw d 1 63 32, 0, atNQ d * ro)]
      tails := fun _ => [(dw d 1 63 32, 0, atNQ d * ro)]
      issue := fun _ _ s => s
      effect := fun _ s => (writeLines s n (dw d 1 63 32) 0 (List.replicate (atNQ d * ro * 512) 0#8), 0) }
  else
    { total := atBlocks d, cost := atBlockTime d, due := fun _ _ k => k
      reads := fun b => [(dw d 1 31 0, (atBlock d b).1 * rq, (atBlock d b).2 * rq)]
      writes := fun b => [(dw d 1 63 32, (atBlock d b).1 * ro, (atBlock d b).2 * ro)]
      tails := fun b => [(dw d 1 63 32, (atBlock d b).1 * ro, (atBlock d b).2 * ro)]
      issue := fun _ _ s => s
      effect := fun b s => atBlockEffect n d b s }

end Sys2Proof.Machine
end

