-- ==== Sys2Proof/Machine/Engines.lean ====
section
/-! DEFINITION. The engine paths of a tensor core: the work of each command, its progress up to the present cycle, its
completion, and the kill order (R70, R71, R73, R74, R83, R101, R105–R111, R122, R142, R174). -/

namespace Sys2Proof.Machine

open Sys2Proof Sys2Proof.Machine.Reg

/-! ### Work -/

/-- The work of a MATMUL or CONV on its tile (R73, R122). -/
def gridWork (s : State) (n : Nat) (c : Cmd) : Work :=
  let d := c.desc
  let issue := fun j at_ s => if j = 0 ∧ cpSwap d ∧ !c.swapped then
      (match getCmd s n 0 c.no with
        | some q => setCmd (swapPlanes s n at_) n 0 { q with swapped := true }
        | none => s)
    else s
  let (td, tb) := match c.tile with | some t => (t.desc, t.bytes) | none => (0, [])
  let kext := ldKext td
  let f := cpFmt d
  let asrc := dw d 1 31 0; let ascl := dw d 1 63 32; let pdst := dw d 2 31 0; let psrc := dw d 2 63 32
  let r := if f = 5 ∨ f = 6 then 4 else 1
  let v := rowLines kext f
  let old := fun (s : State) j => if dAcc d then some (codes32 (readLines s n psrc (4 * j) 4)) else none
  let acc := fun j => if dAcc d then [(psrc, 4 * j, 4)] else []
  if dOpc d = 2 then
    { total := cpM d, cost := fun _ => r, due := fun _ _ k => k + 40, issue := issue
      reads := fun j => (asrc, j * v, v) :: (if f = 4 then [(ascl, sclOfs j kext / 512, 1)] else []) ++ acc j
      writes := fun j => [(pdst, 4 * j, 4)]
      tails := fun j => [(pdst, 4 * j, 4)]
      effect := fun j s =>
        let x := gridVector td tb f (codesOf f kext (readLines s n asrc (j * v) v))
          (if f = 4 then sclRow s n ascl j kext else []) (old s j)
        (writeLines s n pdst (4 * j) x.1, x.2) }
  else
    let e := cvIW d * cvCin d
    { total := cpM d, cost := fun j => let l := cvNewLines s n d j; max r (l.1.length + l.2.length), due := fun _ _ k => k + 40, issue := issue
      reads := fun j =>
        let l := cvNewLines s n d j
        (l.1.map fun o => (asrc, o, 1)) ++ (l.2.map fun o => (ascl, o, 1)) ++ acc j
      writes := fun j => [(pdst, 4 * j, 4)]
      tails := fun j => [(pdst, 4 * j, 4)]
      effect := fun j s =>
        let g := cvGather d j (fun y => mapRow s n asrc (cvZpi d) (cvIH d) e f y) fun y => sclRow s n ascl y e
        let x := gridVector td tb f g.1 g.2 (old s j)
        (writeLines s n pdst (4 * j) x.1, x.2) }

/-- The work of a LOAD: lines into the shadow plane (R71). -/
def loadWork (n : Nat) (c : Cmd) : Work :=
  let d := c.desc
  let el := ldElemLines d
  let ref := fun j => if j < el then (dw d 1 31 0, j) else (dw d 1 63 32, j - el)
  { total := el + ldSclLines d, cost := fun _ => 1, due := fun _ _ k => k + 6
    reads := fun j => [((ref j).1, (ref j).2, 1)]
    writes := fun _ => []
    tails := fun _ => []
    issue := fun _ _ s => s
    effect := fun j s =>
      let k := coreOf s n
      (s.setCore n { k with shadow := k.shadow.map fun p =>
        { p with bytes := p.bytes ++ readLines s n (ref j).1 (ref j).2 1 } }, 0) }

/-- The work of any command but those of the tile mover and the sequencer; a command of the vector engine may begin at
its start, or once the ATTN before it has completed (R142). -/
def workOf (s : State) (n : Nat) (c : Cmd) : Work :=
  let x := max (c.start.getD 0) ((coreOf s n).mark attnKey)
  match dOpc c.desc with
  | 1 => loadWork n c
  | 2 => gridWork s n c
  | 3 => gridWork s n c
  | 4 => poolWork s n x c.desc
  | 5 => roiaWork s n x c.desc
  | 6 => attnWork c n
  | _ => vecWork s n x c.desc

/-- Units of a command. -/
def unitsOf (c : Cmd) : Nat :=
  match dOpc c.desc with
  | 1 => ldElemLines c.desc + ldSclLines c.desc
  | 2 => cpM c.desc
  | 3 => cpM c.desc
  | 4 => plOH c.desc
  | 5 => roNBox c.desc * roPH c.desc
  | 6 => if atSkipped c then 1 else atBlocks c.desc
  | 7 => vcRows c.desc
  | _ => mvTiles c.desc

/-! ### Progress -/

/-- What must hold before a command issues its first unit: it waits, started, for an ATTN before it (R142); a LOAD needs
the shadow plane EMPTY and takes it (R70); a compute command needs its tile, with SWAP = 1 that of a READY shadow plane
(R74). -/
def beginCmd (s : State) (n p : Nat) (c : Cmd) : State :=
  if c.unit ≠ 0 ∨ c.tile.isSome then s
  else
    let (s, c) := startCmd s n p c
    if p ≠ 3 ∧ attnBefore s n c then s
    else
      let k := coreOf s n
      let c := { c with next := max c.next (k.mark attnKey) }
      if p = 1 then
        if k.shadowSt ≠ 0 then setCmd s n 1 c
        else
          let t : Plane := { desc := c.desc, bytes := [], rel := if c.silent then c.raised else dRel0 c.desc }
          setCmd (s.setCore n { k with shadow := some t, shadowSt := 1 }) n 1
            { c with next := max c.next (k.mark swapKey), tile := some t }
      else if p = 0 then
        if cpSwap c.desc ∧ !c.swapped then
          if k.shadowSt ≠ 2 then setCmd s n 0 { c with wait := 3 }
          else
            let d := k.mark readyKey - c.next
            setCmd (s.countWrap (TC_CNT_SHADOW_VALUE n) d) n 0
              { c with wait := 0, next := c.next + d, stalls := c.stalls + d, tile := k.shadow }
        else setCmd s n 0 { c with tile := k.active }
      else setCmd s n p c

/-- A command may issue units. -/
def begun (s : State) (n p : Nat) (c : Cmd) : Bool :=
  (p ≠ 0 && p ≠ 1 || c.tile.isSome) && c.start.isSome && (p == 3 || !attnBefore s n c)

/-- An engine path makes progress up to the present cycle with its commands of the given opcode, 0 for any: each starts
once every earlier one of its path has issued its last unit (R87, R105). -/
def runPath (opc p n : Nat) (s : State) : State :=
  if !coreLive s n then s
  else (List.range ((coreOf s n).queue p).length).foldl (fun s i =>
    match ((coreOf s n).queue p)[i]? with
    | none => s
    | some c =>
      if (opc ≠ 0 ∧ dOpc c.desc ≠ opc) ∨ !(((coreOf s n).queue p).take i).all fun q => unitsOf q ≤ q.unit then s
      else
        let s := beginCmd s n p c
        match getCmd s n p c.no with
        | some c => if begun s n p c then advance (workOf s n c) n p c.no s else s
        | none => s) s

/-- The attention unit makes progress with an ATTN whose request is answered. -/
def runAttn (n : Nat) (s : State) : State :=
  if !coreLive s n then s
  else match (coreOf s n).queue 3 with
    | c :: _ => if c.landed = [] then s else advance (attnWork c n) n 3 c.no s
    | [] => s

/-- Every engine path makes progress up to the present cycle. -/
def runAll (n : Nat) (s : State) : State := runAttn n (runPath 0 2 n (runPath 0 0 n (runPath 0 1 n s)))

/-! ### Completion (R83, R101, R106) -/

/-- A command raises BUDGET (R106). -/
def budgetRaised (s : State) (n : Nat) : State :=
  (s.count (TC_CNT_BUDGET_VALUE n) 1).setOn (TC_EVT_BUDGET n)

/-- What a completion in a cycle writes: BUDGET where the command ran past it, TCn_SEQ_DONE, a status record where IRQ or
BUDGET is set, DONE (R101, R106). -/
def completeStatus (s : State) (n : Nat) (c : Cmd) (cycle : Nat) : State :=
  let ran := !c.raised && (match c.start with | some st => st + dBudget c.desc < cycle | none => false)
  let s := onIf ran (fun s => budgetRaised s n) s
  let c := { c with raised := c.raised || ran }
  let s := s.put (TC_SEQ_DONE n) (dSeq c.desc)
  let s := match jobOf s n with
    | some (ctx, _) => if dIrq c.desc || c.raised then statusRecord s ctx (recordOf c 0 cycle) else s
    | none => s
  if dIrq c.desc then s.setOn (TC_EVT_DONE n) else s

/-- A silent LOAD (R70, R111). -/
def silentLoad (active : Bool) (p : Nat × Bool) : Cmd :=
  { desc := p.1, no := 0, attempts := 0, silent := true, start := none, unit := 0, next := 0, pipe := [], wait := 0
    stalls := 0, flags := 0, raised := p.2, swapped := active, tile := none, doneAt := none, landed := [], src := [] }

/-- A LOAD has filled the shadow plane (R70): READY, or the swap of a silent reload (R111). -/
def loadDone (s : State) (n : Nat) (c : Cmd) (cycle : Nat) : State :=
  let s := s.setCore n ({ coreOf s n with shadowSt := 2 }.setMark readyKey cycle)
  if c.silent ∧ c.swapped then swapPlanes s n cycle else s

/-- The contents of both working regions, A-store and P-store region 15, are undefined from now on (R146). -/
def undefineWork (s : State) (n : Nat) : State :=
  let wipe := fun (s : State) x => s.scramble (spadPlace n x (rgnBase s n x 15 * 65536)) (rgnSize s n x 15 * 65536)
  wipe (wipe s 1) 2

/-- An ATTN is over (R70, R146, R174): its pins go, its working regions are undefined, and the LOAD it displaced is
executed again first. -/
def attnDone (s : State) (n : Nat) (cycle : Nat) : State :=
  let s := undefineWork (releasePins s n) n
  let k := (coreOf s n).setMark attnKey cycle
  match k.reload with
  | some p =>
    let q := { silentLoad false p with next := cycle }
    s.setCore n ({ k with reload := none }.withQueue 1 (q :: k.queue 1))
  | none => s.setCore n k

/-- A command of a path completes in a cycle (R83, R101). -/
def completeCmd (s : State) (n path : Nat) (c : Cmd) (cycle : Nat) : State :=
  let k := coreOf s n
  let s := s.setCore n ((k.withQueue path ((k.queue path).filter fun q => q.no != c.no)).setMark (doneKey + path) cycle)
  let kext := match c.tile with | some t => ldKext t.desc | none => 0
  let s := if path = 1 then loadDone s n c cycle
    else
      let s := onIf (dRel0 c.desc) (fun s => releaseOperands s n c.desc kext 1 cycle) s
      let s := onIf (dRel1 c.desc) (fun s => releaseOperands s n c.desc kext 2 cycle) s
      if path = 3 then attnDone s n cycle else s
  if c.silent then s else completeStatus s n c cycle

/-- The command that completed first among those whose completion cycle has come: its path, itself and the cycle. -/
def firstDone (s : State) (n : Nat) : Option (Nat × Cmd × Nat) :=
  let now := nowOf s n
  (List.range 5).foldl (fun best p => ((coreOf s n).queue p).foldl (fun best c =>
    match c.doneAt with
    | none => best
    | some t =>
      if now < t then best
      else match best with
        | some b => if t < b.2.2 then some (p, c, t) else best
        | none => some (p, c, t)) best) none

/-- Every STORE of the logical core on a core is acknowledged. -/
def storesAcked (s : State) (n : Nat) : Bool :=
  match jobOf s n with
  | some (ctx, k) => !s.acks.any fun a => a.ctx == ctx && a.lcore == k
  | none => true

/-- Paths that a FENCE or COMMIT waits for, and whether it waits for STOREs (R90, R91). -/
def holdWaits (d : Nat) : List Nat × Bool :=
  if dOpc d = 11 then (List.range 5, true) else ((List.range 5).filter fun p => db d 1 p, db d 1 8)

/-- The cycle in which the FENCE or COMMIT that waits completes, if what it waits for is done: every earlier command of
those paths, and where it asks the acknowledgement of every earlier STORE (R90, R91). -/
def holdDone (s : State) (n : Nat) : Option (Cmd × Nat) :=
  let c := coreOf s n
  match c.hold with
  | none => none
  | some q =>
    let (ps, acks) := holdWaits q.desc
    if (ps.all fun p => ((c.queue p).filter fun x => !x.silent).isEmpty) ∧ (!acks || storesAcked s n) then
      some (q, max (ps.foldl (fun t p => max t (c.mark (doneKey + p))) (q.start.getD 0)) (if acks then c.mark ackKey else 0))
    else none

/-- A FENCE or COMMIT completes (R90, R91). -/
def completeHold (s : State) (n : Nat) (q : Cmd) (cycle : Nat) : State :=
  completeStatus (s.setCore n { coreOf s n with hold := none, commitDone := dOpc q.desc == 11 }) n q cycle

/-- The engines come up to the present cycle, commands completing in the order of their cycles. -/
def catchUp : Nat → State → Nat → State
  | 0, s, _ => s
  | f + 1, s, n =>
    let s := runAll n s
    match firstDone s n with
    | some (p, c, t) => catchUp f (completeCmd s n p c t) n
    | none =>
      match holdDone s n with
      | some (q, t) => if t ≤ nowOf s n then completeHold s n q t else s
      | none => s

/-- A core that executes, with its engines at the present cycle. -/
def upToDate (s : State) (n : Nat) : State := if coreLive s n then catchUp 32 s n else s

/-- The kill order reaches a core (R109, R110): commands whose completion cycle has come are complete, the stalls in
progress are counted (R85), the working regions of an ATTN that ran are undefined (R146), and the rest is abandoned. A
core whose COMMIT is complete is finished (R237). -/
def killCore (s : State) (n : Nat) : State :=
  let s := upToDate s n
  if (coreOf s n).commitDone then s
  else
    let s := onIf (((coreOf s n).queue 3).any fun q => q.start.isSome) (fun s => undefineWork s n) s
    abandonCore (countStalls s n) n

/-! ### Budgets (R105–R107) -/

/-- A command that has not completed by a cycle. -/
def notDoneBy (c : Cmd) (t : Nat) : Bool := match c.doneAt with | some d => t < d | none => true

/-- Commands of a path that count a budget, with the cycle of their start: those that have started, and the oldest that
has not issued its last unit (R105); of path 5 the FENCE or COMMIT that waits. -/
def budgeted (s : State) (n path : Nat) : List Cmd :=
  if path = 5 then
    (coreOf s n).hold.toList.map fun q => { q with doneAt := (holdDone s n).map (·.2) }
  else
    let q := (coreOf s n).queue path
    let cur := q.find? fun c => c.unit < unitsOf c
    (q.filter fun c => !c.silent).filterMap fun c =>
      if c.start.isSome then some c
      else match cur with
        | some x =>
          if x.no = c.no then some { c with start := some (startAt s n path c), next := startAt s n path c } else none
        | none => none

/-- The first command of a path whose start lies more than `k` BUDGETs and `late` cycles back, and that has not
completed by then. -/
def overdue (s : State) (n path k late : Nat) (raised : Bool) : Option Cmd :=
  (budgeted s n path).find? fun c => match c.start with
    | some st => !(raised && c.raised) && st + k * dBudget c.desc < nowOf s n &&
        notDoneBy c (st + k * dBudget c.desc + late)
    | none => false

end Sys2Proof.Machine
end

