-- ==== Sys2Proof/Machine/Telemetry.lean ====
section
/-! DEFINITION. The telemetry record of a frame boundary (R551, R552). -/

namespace Sys2Proof.Machine

open Sys2Proof Sys2Proof.Machine.Reg

/-- STALE of the Sluice lanes, bits [8:0]. -/
def staleLanes (s : State) : Nat := maskOf 9 fun l => s.on (SLC_L_STAT_STALE l)

/-- Segment state as 0x2000:08 gives it: RUN, SUBST, INVALID and SPLIT of each segment. -/
def segmentState (s : State) : Nat :=
  (List.range 4).foldl (fun m i => m + (s.rd (FLD_ECM_STAT i)).toNat % 16 * 2 ^ (4 * i)) 0

/-- The 256 bytes of a telemetry record (R552). -/
def telRecord (s : State) (seq : Nat) : List Byte :=
  let w := fun (a : Nat) => leBytes 4 (s.rd a).toNat
  let d := fun (a : Nat) => leBytes 8 (s.rd a).toNat
  padBytes 256 (s.tsNow ++ d SCH_NOW ++ leBytes 4 seq ++ w DGN_EPOCH ++ w DGN_VIO_TOTAL ++ w MEM_ECC_UE ++
    w MEM_ECC_CEI ++ w BLV_SRAM_UE ++
    leBytes 4 (satAdd 32 (s.get (BLV_HRC_UE_VALUE 0)) (s.get (BLV_HRC_UE_VALUE 1))) ++
    w SCH_CNT_TEARDOWN ++ w SCH_CNT_PREEMPT ++ w PWR_PMOD ++ d BLV_CLE_PLAUS ++ d RFX_DUAL_MIS ++
    leBytes 2 (staleLanes s) ++ leBytes 2 (segmentState s) ++ leBytes 2 (s.get PWR_TCP_VALUE) ++
    leBytes 2 (s.get PWR_STAT_LEVEL) ++ d TIM_SRV_OFS ++ w (TRL_CNT 2) ++ w (FUS_CNT 0))

/-- Place of the telemetry ring and its slots. -/
def telRing (s : State) : Nat × Nat := (s.get DGN_TEL_RING_ADDR * 64, ringSlots (s.get DGN_TEL_RING_LOG2) 4 12)

/-- A write of DGN_TEL_CTL_ENABLE: the ring must lie in one object of context 0 (R551). -/
def telEnableWritten (old new : Nat) (s : State) : State :=
  let s := s.put DGN_TEL_CTL_ENABLE new
  if old = 0 ∧ new = 1 then
    s.put DGN_TEL_CTL_CFGERR (ofBool !(inOneObject s 0 (telRing s).1 ((telRing s).2 * 256)))
  else s

/-- Instant 1 of a frame boundary (R551): a snapshot still not acknowledged is dropped, and a new record is
written. -/
def telemetry (s : State) : State :=
  let s := if s.telWaiting then
      { (s.count DGN_TEL_CNT_DROP_VALUE 1).setOn DGN_EVT_TELDROP with telWaiting := false }
    else s
  if s.on DGN_TEL_CTL_ENABLE && s.on SCH_CTRL_READY && !s.on DGN_TEL_CTL_CFGERR then
    let seq := s.get DGN_TEL_SEQ_VALUE
    let (base, slots) := telRing s
    let (s', ok) := engineWrite s 5 0 (base + seq % slots * 256) (telRecord s seq)
    { s' with telWaiting := !ok }.countWrap DGN_TEL_SEQ_VALUE 1
  else s

end Sys2Proof.Machine
end

