-- ==== Sys2Proof/Machine/Sched.lean ====
section
/-! DEFINITION. The scheduler: steps of contexts, teardown, the timetable, placement, pre-emption, spill and restore,
commit (R215–R244, R252–R256, R490, R538). -/

namespace Sys2Proof.Machine

open Sys2Proof Sys2Proof.Machine.Reg

/-! ### Step-list entries (R226, R227) -/

def eLcmask (e : List Byte) : Nat := leField e 0 1
def eSpill (e : List Byte) : Bool := bitOf (leField e 1 1) 0
def eIrq (e : List Byte) : Bool := bitOf (leField e 1 1) 1
def eStepId (e : List Byte) : Nat := leField e 2 2
def eSpillT (e : List Byte) : Nat := leField e 4 2
def eCstr (e : List Byte) : Nat := leField e 8 6
def eStride (e : List Byte) : Nat := leField e 16 4
def eRtab (e : List Byte) : Nat := leField e 24 6

/-- The logical cores of a step, ascending. -/
def eLcores (e : List Byte) : List Nat := setBitsOf 8 (eLcmask e)

/-- An entry against R227: LCMASK is not zero, unlisted bits are zero, CSTR and RTAB are multiples of 64. -/
def entryOk (e : List Byte) : Bool :=
  eLcmask e != 0 && leField e 1 1 / 4 == 0 && leField e 6 2 == 0 && leField e 14 2 == 0 && eCstr e % 64 == 0 &&
    leField e 20 4 == 0 && leField e 30 2 == 0 && eRtab e % 64 == 0 && leField e 32 8 / 2 ^ 28 == 0 &&
    bitsOf (leField e 40 8) 31 30 == 0

/-- Address of the step-list entry at SCONS. -/
def entryAddr (s : State) (ctx : Nat) : Nat :=
  s.get (SCH_CTX_SLIST_ADDR ctx) * 64 +
    s.get (SCH_CTX_SCONS_INDEX ctx) % ringSlots (s.get (SCH_CTX_SLIST_LOG2 ctx)) 4 16 * 64

/-! ### Steps -/

/-- A logical core of a step. -/
def Step.lcore (t : Step) (k : Nat) : LogCore :=
  tgetD t.lcores k { st := 0, pcore := 0, resume := none, tries := [] }

/-- A step with a logical core replaced. -/
def Step.withLcore (t : Step) (k : Nat) (l : LogCore) : Step := { t with lcores := tset t.lcores k l }

/-- Some logical core is in one of the given states. -/
def Step.someIn (t : Step) (sts : List Nat) : Bool := t.lcores.any fun p => sts.contains p.2.st

/-- The step of a context. -/
def stepOf (s : State) (ctx : Nat) : Option Step := tget s.sched.steps ctx

/-- SCH_CTX_n_STAT follows the step (R256). -/
def State.syncCtx (s : State) (ctx : Nat) : State :=
  let st := match stepOf s ctx with
    | some t => t.st
    | none =>
      if s.on (SCH_CTX_CTL_FAULTED ctx) then 7 else if s.on (SCH_CTX_CTL_ENABLE ctx) then 1 else 0
  let run := match stepOf s ctx with
    | some t => maskOf 8 fun k => [1, 3].contains (t.lcore k).st
    | none => 0
  let tag := (stepOf s ctx).bind fun t => t.tag
  let s := (s.put (SCH_CTX_STAT_STATE ctx) st).put (SCH_CTX_STAT_LCRUN ctx) run
  (s.put (SCH_CTX_STAT_TAGV ctx) (ofBool tag.isSome)).put (SCH_CTX_STAT_TAG ctx) (tag.getD 0)

/-- Set the step of a context. -/
def State.setStep (s : State) (ctx : Nat) (t : Step) : State :=
  ({ s with sched := { s.sched with steps := tset s.sched.steps ctx t } }).syncCtx ctx

/-- The context has no step any more. -/
def State.dropStep (s : State) (ctx : Nat) : State :=
  ({ s with sched := { s.sched with steps := tdel s.sched.steps ctx } }).syncCtx ctx

/-- The entry at SCONS becomes READY, if R229 allows. -/
def readyStep (s : State) (ctx : Nat) : State :=
  if (stepOf s ctx).isNone && s.on (SCH_CTX_CTL_ENABLE ctx) && !s.on (SCH_CTX_CTL_FAULTED ctx) &&
      s.get (SCH_CTX_SCONS_INDEX ctx) != tgetD s.sched.snaps ctx 0 then
    s.setStep ctx { st := 2, entry := [], tag := none, attempts := 0, readyAt := s.sched.boundary, startNo := 0, lcores := [] }
  else s.syncCtx ctx

/-- Words 4 and 5 of the entry are written (R227): status 1 COMMITTED or 2 FAULTED. -/
def writeEntry (s : State) (ctx : Nat) (t : Step) (status : Nat) : State :=
  quietWrite s (entryAddr s ctx + 32)
    (leBytes 8 (status + min t.attempts 255 * 256 + t.tag.getD 0 * 65536) ++ leBytes 8 s.tnsTsec)

/-! ### Teardown (R252–R254) -/

/-- STORE tiles of a logical core are no longer waited for. -/
def State.dropAcks (s : State) (ctx k : Nat) : State :=
  { s with acks := s.acks.filter fun a => !(a.ctx = ctx && a.lcore = k) }

/-- Teardown of a context for a cause, with the command's SEQ and fault code for cause 0x01. -/
def teardown (s : State) (ctx cause seq code lcore : Nat) : State :=
  match stepOf s ctx with
  | none => s
  | some t =>
    let s := t.lcores.foldl (fun s p =>
      let n := p.2.pcore
      match p.2.st with
      | 1 => releasePins (killCore s n) n
      | 3 => s.leaveCore n
      | 5 => s.leaveCore n
      | _ => s) s
    let s := { s with acks := s.acks.filter fun a => a.ctx ≠ ctx }
    let s := match t.tag with | some g => s.abortTag g | none => s
    let s := writeEntry s ctx t 2
    let s := s.put (SCH_CTX_SCONS_INDEX ctx) (s.get (SCH_CTX_SCONS_INDEX ctx) + 1)
    let s := s.setOn (SCH_CTX_CTL_FAULTED ctx)
    let s := s.wr (SCH_CTX_FAULT ctx) (BitVec.ofNat 64
      (eStepId t.entry * 2 ^ 48 + seq % 65536 * 2 ^ 32 + code % 256 * 65536 + lcore % 8 * 256 + cause))
    ((s.count SCH_CNT_TEARDOWN_VALUE 1).setOn SCH_EVT_TEARDOWN).dropStep ctx

/-- A command fault in a core cycle: TCn_FAULT, the event, the count, the status record, the teardown (R101, R104). -/
def commandFault (s : State) (n : Nat) (c : Cmd) (code cycle : Nat) : State :=
  match jobOf s n with
  | none => s
  | some (ctx, k) =>
    let s := s.wr (TC_FAULT n) (BitVec.ofNat 64
      (ctx * 2 ^ 32 + dSeq c.desc * 65536 + dOpc c.desc * 256 + code))
    let s := ((s.setOn (TC_EVT_FAULT n)).count (TC_CNT_FAULT_VALUE n) 1)
    let s := statusRecord s ctx (recordOf c code cycle)
    teardown s ctx 1 (dSeq c.desc) code k

/-- The command of a core that has run past 16 × BUDGET, with the cycle of its kill, the stall in progress counted as its
own (R101, R107). -/
def overrun (s : State) (n path : Nat) : Option (Cmd × Nat) :=
  (overdue s n path 16 1 false).map fun c =>
    ({ c with stalls := c.stalls + stallNow s n path c }, c.start.getD 0 + 16 * dBudget c.desc + 1)

/-- The state of a step whose kills and spills may be over: SPILLING or PREEMPTED (R244). -/
def settleStep (s : State) (ctx : Nat) : State :=
  match stepOf s ctx with
  | some t =>
    if (t.st = 4 ∨ t.st = 5) ∧ !t.someIn [1, 2] then s.setStep ctx { t with st := if t.someIn [3] then 5 else 6 }
    else s
  | none => s

/-! ### Pre-emption (R232, R238) -/

/-- The first running core of a step with a command past 16 × BUDGET. -/
def stepOverrun (s : State) (t : Step) : Option (Nat × Cmd × Nat) :=
  t.lcores.findSome? fun p =>
    if p.2.st = 1 ∧ coreLive s p.2.pcore then
      (List.range 6).findSome? fun q => (overrun s p.2.pcore q).map fun x => (p.2.pcore, x.1, x.2)
    else none

/-- A step is pre-empted: its running logical cores are killed; one that has completed its COMMIT is finished. A fault of
a command that falls due in the same cycle is recorded, and nothing is rerun (R110). -/
def preempt (s : State) (ctx : Nat) : State :=
  match stepOf s ctx with
  | some t =>
    if t.st ≠ 3 ∧ t.st ≠ 8 then s
    else
      let s := t.lcores.foldl (fun s p => if p.2.st = 1 then upToDate s p.2.pcore else s) s
      match stepOverrun s t with
      | some (n, c, at_) => commandFault s n c 9 at_
      | none =>
        let dies := fun (p : Nat × LogCore) => (p.2.st = 1 ∨ p.2.st = 5) ∧ !(coreOf s p.2.pcore).commitDone
        let lcores := t.lcores.map fun p => if dies p then (p.1, { p.2 with st := 2 }) else p
        let s := t.lcores.foldl (fun s p =>
          if (p.2.st = 1 ∨ p.2.st = 5) ∧ !(coreOf s p.2.pcore).commitDone then
            releasePins (killCore s p.2.pcore) p.2.pcore
          else s) s
        let s := (s.count SCH_CNT_PREEMPT_VALUE 1).count (SCH_CTX_CNT_PREEMPT_VALUE ctx) 1
        settleStep ((s.setOn SCH_EVT_PREEMPT).setStep ctx { t with st := 4, lcores := lcores }) ctx
  | none => s

/-! ### Starting logical cores (R230, R233, R235, R241, R243) -/

/-- The slot in force. -/
def curSlot (s : State) : TtSlot :=
  s.sched.slots.getD s.sched.slot { len := 0, kind := 2, plevel := 0, pcores := 0, ctxmask := 0 }

/-- A physical core that a context may use in the slot (R230). -/
def usable (s : State) (ctx p : Nat) : Bool :=
  (curSlot s).pcores.testBit p && (s.get (SCH_CTX_CTL_PMASK ctx)).testBit p && s.fuses.phys.testBit p &&
    s.on (TC_CTRL_ENABLE p)

/-- Fields of entry `i` of a region table (R228). -/
def rtCfg (tab : List Byte) (i : Nat) : Nat := leField tab (16 * i) 4
def rtAux (tab : List Byte) (i : Nat) : Nat := leField tab (16 * i + 4) 4
def rtPtr (tab : List Byte) (i : Nat) : Nat := leField tab (16 * i + 8) 8
def rtSize (tab : List Byte) (i : Nat) : Nat := bitsOf (rtCfg tab i) 24 16
def rtBase (tab : List Byte) (i : Nat) : Nat := bitsOf (rtCfg tab i) 8 0
def rtValid (tab : List Byte) (i : Nat) : Bool := bitOf (rtCfg tab i) 31 && 1 ≤ rtSize tab i
def rtSpl (tab : List Byte) (i : Nat) : Bool := bitOf (rtAux tab i) 0
def rtMap (tab : List Byte) (i : Nat) : Bool := bitOf (rtAux tab i) 1

/-- The physical cores of the SPAD objects that a region table maps. -/
def mapCores (s : State) (tab : List Byte) : List Nat :=
  (List.range 48).filterMap fun i =>
    if rtMap tab i then (tget s.plt (bitsOf (rtAux tab i) 31 12)).map fun e => bitsOf e.taddr 15 13 else none

/-- A region table against R77, R228 and R233: 0, or the cause 4 or 6. -/
def tableCheck (s : State) (ctx : Nat) (tab : List Byte) : Nat :=
  let idx := List.range 48
  let bad := idx.any fun i =>
    bitsOf (rtCfg tab i) 30 25 != 0 || bitsOf (rtCfg tab i) 15 9 != 0 || bitsOf (rtAux tab i) 11 2 != 0 ||
    (!rtMap tab i && bitsOf (rtAux tab i) 31 12 != 0) || bitsOf (rtPtr tab i) 63 49 != 0 ||
    bitsOf (rtPtr tab i) 31 17 != 0 ||
    (rtValid tab i && (storeUnits (i / 16) < rtBase tab i + rtSize tab i ||
      (List.range 48).any fun j => j / 16 == i / 16 && j != i && rtValid tab j &&
        rtBase tab i < rtBase tab j + rtSize tab j && rtBase tab j < rtBase tab i + rtSize tab i)) ||
    (rtMap tab i && match tget s.plt (bitsOf (rtAux tab i) 31 12) with
      | none => true
      | some e => e.ctx != ctx || e.tier != 1 || bitsOf e.taddr 12 11 != i / 16 ||
          bitsOf e.taddr 8 0 != rtBase tab i || e.size != rtSize tab i)
  let cores := mapCores s tab
  if bad then 4
  else if cores.any (fun p => !(s.get (SCH_CTX_CTL_PMASK ctx)).testBit p || p != cores.headD 0) then 6
  else 0

/-- Units of the valid SPL regions of a table (R235). -/
def splUnits (tab : List Byte) : Nat :=
  (List.range 48).foldl (fun n i => if rtSpl tab i && rtValid tab i then n + rtSize tab i else n) 0

/-- The spill bound of R235 for a SPILL step. -/
def spillOk (s : State) (ctx : Nat) (e tab : List Byte) : Bool :=
  !eSpill e || (splUnits tab ≤ eSpillT e &&
    ((eLcores e).foldl max 0 + 1) * eSpillT e ≤ s.get (SCH_CTX_SPILLSZ_TILES ctx))

/-- The region table of a logical core, read as an access of its context (R217, R235). -/
def readTable (s : State) (ctx k : Nat) (e : List Byte) : Option (List Byte) :=
  quietRead s ctx (eRtab e + k * 768) 768

/-- The tiles of the valid SPL regions of a logical core (R239): spill address and scratchpad place. -/
def spillTiles (s : State) (ctx k n : Nat) (e tab : List Byte) : List (Nat × Nat) :=
  let base := s.get (SCH_CTX_SPILL_ADDR ctx) * 65536 + k * eSpillT e * 65536
  let places := (List.range 48).flatMap fun i =>
    if rtSpl tab i && rtValid tab i then
      (List.range (rtSize tab i)).map fun u => spadPlace n (i / 16) ((rtBase tab i + u) * 65536)
    else []
  (List.range places.length).map fun i => (base + i * 65536, places.getD i 0)

/-- Bandstand cycles from the decision to the first fetch, by the tier of the region table (R235); the host's own
time is not bounded. -/
def fetchDelay (s : State) (addr : Nat) : Nat :=
  match objectAt s (addr / 65536) with
  | some (_, e) => if e.tier = 3 then 250 else 100
  | none => 100

/-- What a core dispatches again on resume: the silent LOADs, then the uncompleted commands (R111); with a COMMIT among
them the stream ends there, and nothing more is fetched (R86). -/
def Core.resumeFrom (c : Core) (r : Resume) : Core :=
  { c with redo := (r.active.toList.map (silentLoad true)) ++ (r.shadow.toList.map (silentLoad false)) ++ r.cmds
           fetchPos := r.fetchPos, fetchStop := r.cmds.any (fun q => dOpc q.desc == 11)
           reload := r.reload, vact := r.vact, vnxt := r.vnxt }

/-- A logical core starts, or resumes, on a physical core (R235, R241, R243). -/
def startLcore (s : State) (ctx k n : Nat) (t : Step) (tab : List Byte) : State :=
  let l := t.lcore k
  let e := t.entry
  let s := forUpTo 48 (fun i s =>
    let ptr := match l.resume with
      | some r => if rtSpl tab i then r.ptrs.getD i 0 else BitVec.ofNat 64 (rtPtr tab i)
      | none => BitVec.ofNat 64 (rtPtr tab i)
    let s := (s.wr (rgnCfg n (i / 16) (i % 16)) (BitVec.ofNat 64 (rtCfg tab i))).wr (rgnPtr n (i / 16) (i % 16)) ptr
    if l.resume.isSome && rtValid tab i && !rtSpl tab i && !rtMap tab i then
      s.scramble (spadPlace n (i / 16) (rtBase tab i * 65536)) (rtSize tab i * 65536)
    else s) s
  let c := coreOf s n
  let xfer := match l.resume with | some _ => spillTiles s ctx k n e tab | none => []
  let c := { Core.idle with
    job := some (ctx, k), stream := (eCstr e + k * eStride e * 64) % 2 ^ 48
    fetchAt := s.cyc + fetchDelay s (eRtab e), epoch := (c.epoch + 1) % 2 ^ 32
    clkAt := c.clkAt, clkAcc := c.clkAcc, plevel := c.plevel, maint := c.maint, relockEnd := c.relockEnd
    since := coreCyc s c, xfer := xfer, restoring := !xfer.isEmpty }
  let c := match l.resume with
    | some r => if xfer.isEmpty then c.resumeFrom r else c
    | none => c
  (s.setCore n c).setStep ctx (t.withLcore k { l with st := if xfer.isEmpty then 1 else 5, pcore := n })

/-- One of several, which the spec leaves open. -/
def pickFree (s : State) (xs : List Nat) : Option Nat :=
  match xs with
  | [] => none
  | [x] => some x
  | _ => xs[(Config.freeWord s.free).toNat % xs.length]?

/-- A fresh tag (R199): which of the free ones is open. -/
def pickTag (s : State) : Option Nat :=
  let used := s.tags.map (·.1)
  pickFree s ((List.range 4095).filter fun g => !used.contains g)

/-- A step starts or is placed again with its first logical core (R199, R244). -/
def beginStep (s : State) (t : Step) : State × Step :=
  let t := { t with attempts := t.attempts + 1, startNo := s.sched.startNo }
  let s := { s with sched := { s.sched with startNo := s.sched.startNo + 1 } }
  if t.st = 2 then
    let g := (pickTag s).getD 0
    let s := { s with free := s.free + 1, tags := tset s.tags g { committed := false, log := [], overflow := false } }
    (s, { t with st := 3, tag := some g })
  else if eSpill t.entry then (s, { t with st := if t.someIn [4] then 8 else 3 })
  else (s.count SCH_CNT_RESTART_VALUE 1, { t with st := 3 })

/-- The next logical core of a step that can start, in ascending order (R233). -/
def nextLcore (t : Step) : Option Nat := (eLcores t.entry).find? fun k => (t.lcore k).st = 0 || (t.lcore k).st = 4

/-- Free usable cores for a logical core with its region table, if readable: the core of the SPAD objects it maps (R233).
A table that is not readable or fails its check is met on any core (R235). -/
def coresFor (s : State) (ctx : Nat) (tab : Option (List Byte)) (free : Bool) : List Nat :=
  let must := match tab with
    | some b => if tableCheck s ctx b = 0 then mapCores s b else []
    | none => []
  (List.range 8).filter fun p => usable s ctx p && (!free || (coreOf s p).job.isNone) &&
    (must.isEmpty || must.contains p)

/-- The entry of a READY step, read when it is first considered for placement. -/
def withEntry (s : State) (ctx : Nat) (t : Step) : Option Step :=
  if t.entry = [] then (quietRead s ctx (entryAddr s ctx) 64).map fun b => { t with entry := b } else some t

/-- Logical cores of a step are started while free usable cores are left; a failed check tears the context down
(R230, R233, R235). -/
def placeStep : Nat → State → Nat → State
  | 0, s, _ => s
  | f + 1, s, ctx =>
    match stepOf s ctx with
    | none => s
    | some t =>
      match nextLcore t with
      | none => s
      | some k =>
        let tab := readTable s ctx k t.entry
        match pickFree s (coresFor s ctx tab true) with
        | none => s
        | some n =>
          let s := { s.tableRead ctx (eRtab t.entry + k * 768) 768 with free := s.free + 1 }
          match tab with
          | none => teardown s ctx 8 0 0 k
          | some b =>
            let code := tableCheck s ctx b
            if code ≠ 0 then teardown s ctx code 0 0 k
            else if !spillOk s ctx t.entry b then teardown s ctx 5 0 0 k
            else
              let (s, t) := if t.st = 2 ∨ t.st = 6 then beginStep s t else (s, t)
              placeStep f (startLcore s ctx k n t b) ctx

/-- Steps to consider in a decision, in the order of R230: higher priority, earlier READY, lower context. -/
def serveBefore (s : State) (a b : Nat × Step) : Bool :=
  let pa := s.get (SCH_CTX_CTL_PRIO a.1); let pb := s.get (SCH_CTX_CTL_PRIO b.1)
  pb < pa || (pa == pb && (a.2.readyAt < b.2.readyAt || (a.2.readyAt == b.2.readyAt && a.1 < b.1)))

/-- The step that a waiting step pre-empts (R231): the running one of lowest, strictly lower priority that occupies
a usable core, and of those the one that started last. -/
def victimStep (s : State) (ctx : Nat) (cores : List Nat) : Option Nat :=
  let p := s.get (SCH_CTX_CTL_PRIO ctx)
  let cs := s.sched.steps.filter fun v =>
    (v.2.st == 3 || v.2.st == 8) && s.get (SCH_CTX_CTL_PRIO v.1) < p &&
      v.2.lcores.any fun l => (l.2.st == 1 || l.2.st == 5) && cores.contains l.2.pcore
  ((sortBy (fun a b =>
    let pa := s.get (SCH_CTX_CTL_PRIO a.1); let pb := s.get (SCH_CTX_CTL_PRIO b.1)
    pa < pb || (pa == pb && b.2.startNo < a.2.startNo)) cs).head?).map (·.1)

/-- One step's turn in a decision. -/
def decideFor (s : State) (ctx : Nat) : State :=
  match stepOf s ctx with
  | none => s
  | some t =>
    let waiting := t.st = 2 ∨ t.st = 6
    if !(curSlot s).ctxmask.testBit ctx || (waiting && s.get PWR_STAT_LEVEL ≠ 0) || !s.on (SCH_CTX_CTL_ENABLE ctx) then s
    else if !waiting && t.st ≠ 3 && t.st ≠ 8 then s
    else match withEntry s ctx t with
      | none =>
        if (coresFor s ctx none true).isEmpty then s else teardown (s.tableRead ctx (entryAddr s ctx) 64) ctx 8 0 0 0
      | some e =>
        let s := (if t.entry = [] then s.tableRead ctx (entryAddr s ctx) 64 else s).setStep ctx e
        let t := e
        if !entryOk t.entry then
          (if (coresFor s ctx none true).isEmpty then s else teardown s ctx 3 0 0 0)
        else match nextLcore t with
          | none => s
          | some k =>
            let tab := readTable s ctx k t.entry
            if (coresFor s ctx tab true).isEmpty then
              (if waiting then
                match victimStep s ctx (coresFor s ctx tab false) with
                | some v => preempt s v
                | none => s
              else s)
            else placeStep 9 s ctx

/-- A placement decision (R231): only in a COMPUTE slot while frames run. -/
def schDecide (s : State) : State :=
  if s.on SCH_CTRL_READY && (curSlot s).kind == 0 then
    let order := sortBy (serveBefore s) s.sched.steps
    order.foldl (fun s p => decideFor s p.1) s
  else s

/-! ### Kill, spill, restore, commit (R109, R236, R239, R241, R244) -/

/-- The logical core of a running step on a physical core, in the given states. -/
def lcoreOn (s : State) (n : Nat) (sts : List Nat) : Option (Nat × Nat × Step) :=
  match (coreOf s n).job with
  | none => none
  | some (ctx, k) =>
    match stepOf s ctx with
    | none => none
    | some t => if sts.contains (t.lcore k).st ∧ (t.lcore k).pcore = n then some (ctx, k, t) else none

/-- A decision falls to the boundary that ends a MAINT slot: none is taken during it (R224). -/
def inMaint (s : State) : Bool := s.on SCH_CTRL_READY && (curSlot s).kind == 1

/-- A core whose work is over is free, and the decision of R231 follows. -/
def freeCore (s : State) (n ctx : Nat) : State := schDecide (settleStep (s.leaveCore n) ctx)

/-- KILL_COMPLETE (R109, R239, R244): the kill of a core that no MAINT slot holds completes; a SPILL step spills, a
RESTART step's core is free. -/
def execKillComplete (n : Nat) (s : State) : Host.Outcome State Fault Refusal :=
  finish s (
    let c := coreOf s n
    if !c.killing || c.maint then s
    else
      let s := (s.count (TC_CNT_KILL_VALUE n) 1).setOn (TC_EVT_KILL n)
      match lcoreOn s n [2] with
      | none => schDecide (s.leaveCore n)
      | some (ctx, k, t) =>
        let l := t.lcore k
        if !eSpill t.entry then
          freeCore ((s.dropAcks ctx k).setStep ctx (t.withLcore k { l with st := 0, resume := none })) n ctx
        else match c.killed with
          | none => freeCore (s.setStep ctx (t.withLcore k { l with st := 4 })) n ctx
          | some r =>
            let ptrs := (List.range 48).map fun i => s.rd (rgnPtr n (i / 16) (i % 16))
            let l := { l with resume := some { r with ptrs := ptrs } }
            let tiles := match readTable s ctx k t.entry with
              | some tab => spillTiles s ctx k n t.entry tab
              | none => []
            if tiles.isEmpty then freeCore (s.setStep ctx (t.withLcore k { l with st := 4 })) n ctx
            else
              let s := s.setCore n { c with killing := false, killed := none, xfer := tiles }
              schDecide (settleStep (s.setStep ctx (t.withLcore k { l with st := 3 })) ctx))

/-- A tile written for a context as a core's access: the cause of a violation, or the state with it written. -/
def tileWrite (s : State) (ctx addr : Nat) (bs : List Byte) : Except Nat State :=
  match resolve s false ctx addr 65536 true with
  | .error c => .error c
  | .ok (i, e) =>
    let s := s.lookup addr
    if e.tier = 4 ∧ !hostUp s then .ok ((s.count (FLD_PCI_CNT_VALUE 1) 1).setOn FLD_PCI_EVT_NOBME)
    else .ok (objWrite s i e (addr - e.base * 65536) bs)

/-- SPILL_TILE_ACK (R239, R244): one spill tile of a core is written and acknowledged. -/
def execSpillTileAck (n : Nat) (s : State) : Host.Outcome State Fault Refusal :=
  finish s (
    let c := coreOf s n
    match c.xfer, lcoreOn s n [3] with
    | (addr, place) :: rest, some (ctx, k, t) =>
      if c.maint then s
      else match tileWrite s ctx addr (s.load place 65536) with
        | .error v => teardown ((s.looked ctx addr 65536).violation v 0 ctx addr true) ctx 5 0 0 k
        | .ok s =>
          let s := s.count SCH_CNT_SPILLT_VALUE 1
          if rest.isEmpty then freeCore (s.setStep ctx (t.withLcore k { t.lcore k with st := 4 })) n ctx
          else s.setCore n { coreOf s n with xfer := rest }
    | _, _ => s)

/-- RESTORE_TILE_LANDED (R241, R244): one restore tile of a core lands; the last makes it resume. -/
def execRestoreTileLanded (n : Nat) (errs : List Nat) (s : State) : Host.Outcome State Fault Refusal :=
  finish s (
    let c := coreOf s n
    match c.xfer, lcoreOn s n [5] with
    | (addr, place) :: rest, some (ctx, k, t) =>
      if c.maint then s
      else match resolve s false ctx addr 65536 false with
        | .error v => teardown ((s.looked ctx addr 65536).violation v 0 ctx addr false) ctx 5 0 0 k
        | .ok (_, e) =>
          let s := s.lookup addr
          let a := objPlace e (addr - e.base * 65536)
          let (s, bads) := s.tileErrors e.tier a errs
          let hide := unpublished s ctx e
          let s := onIf hide (fun s => s.count MEM_PLT_CNT_UNCREAD_VALUE 1) s
          if e.tier = 4 ∧ !hostUp s then
            teardown (((s.count (FLD_PCI_CNT_VALUE 1) 1).setOn FLD_PCI_EVT_NOBME).logUe 0 n 1 ctx none) ctx 7 0 0 k
          else if !bads.isEmpty then teardown (s.logUe 0 n 1 ctx (placePa (bads.headD 0 * 32))) ctx 7 0 0 k
          else
            let s := s.store place
              (if hide then List.replicate 65536 0#8 else objRead s e (addr - e.base * 65536) 65536)
            if rest.isEmpty then
              let c := { coreOf s n with xfer := [], restoring := false }
              let c := match (t.lcore k).resume with | some r => c.resumeFrom r | none => c
              (s.setCore n c).setStep ctx
                { t.withLcore k { t.lcore k with st := 1 } with st := if t.st = 8 then 3 else t.st }
            else s.setCore n { coreOf s n with xfer := rest }
    | _, _ => s)

/-- COMMIT_REPORT (R91, R236): a logical core has finished; the last of the step commits it. -/
def execCommitReport (n : Nat) (s : State) : Host.Outcome State Fault Refusal :=
  finish s (
    match lcoreOn s n [1], (coreOf s n).commitDone with
    | some (ctx, k, t), true =>
      let t := t.withLcore k { t.lcore k with st := 6 }
      let s := s.leaveCore n
      if (eLcores t.entry).all fun j => (t.lcore j).st = 6 then
        let s := match t.tag with
          | some g =>
            let ts := tgetD s.tags g { committed := false, log := [], overflow := false }
            { s with tags := tset s.tags g { ts with committed := true } }
          | none => s
        let s := writeEntry s ctx t 1
        let s := s.put (SCH_CTX_SCONS_INDEX ctx) (s.get (SCH_CTX_SCONS_INDEX ctx) + 1)
        let s := s.count (SCH_CTX_CNT_STEPS_VALUE ctx) 1
        let s := onIf (eIrq t.entry) (fun s => s.setOn SCH_EVT_COMMIT) s
        schDecide (readyStep (s.dropStep ctx) ctx)
      else schDecide (settleStep (s.setStep ctx t) ctx)
    | _, _ => s)

/-! ### The timetable (R219–R225, R490) -/

/-- The frame position of an instant in epoch mode (R219), in ns. -/
def framePos (ns frame phase : Nat) : Nat := if frame = 0 then 0 else (ns + frame - phase) % frame

/-- The slot that holds a position, and the time left in it. -/
def slotAt : List TtSlot → Nat → Nat × Nat
  | [], _ => (0, 0)
  | t :: ts, p => if p < t.len then (0, t.len - p) else let r := slotAt ts (p - t.len); (r.1 + 1, r.2)

/-- An entry of a timetable array (R220). -/
def ttEntry (bs : List Byte) : TtSlot :=
  let w := leField bs 0 8
  { len := bitsOf w 31 0, kind := bitsOf w 35 32, plevel := bitsOf w 37 36, pcores := bitsOf w 47 40
    ctxmask := leField bs 8 8 }

/-- Reserved codes and bits, and the least length, of an entry (R220, R221). -/
def ttEntryOk (bs : List Byte) : Bool :=
  let w := leField bs 0 8
  bitsOf w 35 32 ≤ 2 && bitsOf w 37 36 ≤ 2 && bitsOf w 39 38 == 0 && bitsOf w 63 48 == 0 && 4000 ≤ bitsOf w 31 0

/-- The array of the pending set, where it is readable (R220). -/
def ttArray (s : State) : Option (List Byte) :=
  let addr := s.pendGet 0 SCH_TT_BASE_ADDR * 16
  let n := s.pendGet 0 SCH_TT_FRAME_NSLOT
  match objectAt s (addr / 65536) with
  | none => none
  | some (_, e) =>
    if e.ctx = 0 ∧ e.tier ≠ 1 ∧ e.tier ≠ 5 ∧ (addr + 16 * n - 1) / 65536 < e.base + e.size ∧
        !(e.tier = 4 ∧ !hostUp s) then
      (let a := objPlace e (addr - e.base * 65536)
      if (poisonedIn s a (16 * n)).isEmpty then some (tierLoad s a (16 * n)) else none)
    else none

/-- What the read of that array leaves: the lookup, and the count of an uncorrectable read, whose source code R212 does
not give. -/
def ttRead (s : State) : State :=
  let addr := s.pendGet 0 SCH_TT_BASE_ADDR * 16
  let s := s.lookup addr
  match objectAt s (addr / 65536) with
  | none => s
  | some (_, e) =>
    let src := (Config.freeWord (s.free + 1)).toNat % 8
    if e.ctx = 0 ∧ e.tier = 4 ∧ !hostUp s then
      { ((s.count (FLD_PCI_CNT_VALUE 1) 1).setOn FLD_PCI_EVT_NOBME).logUe src 0 0 0 none with free := s.free + 2 }
    else match poisonedIn s (objPlace e (addr - e.base * 65536)) (16 * s.pendGet 0 SCH_TT_FRAME_NSLOT) with
    | [] => s
    | b :: _ => { s.logUe src 0 0 0 (placePa (b * 32)) with free := s.free + 2 }

/-- The slots of the pending set, if it passes the checks of R221. -/
def ttPending (s : State) : Option (List TtSlot) :=
  let us := s.pendGet 0 SCH_TT_FRAME_US
  let n := s.pendGet 0 SCH_TT_FRAME_NSLOT
  if us = 0 ∨ 1000000 % us ≠ 0 ∨ n = 0 ∨ 64 < n ∨ us * 1000 ≤ s.pendGet 0 SCH_TT_PHASE_NS then none
  else match ttArray s with
    | none => none
    | some bs =>
      let rows := (List.range n).map fun i => (bs.drop (16 * i)).take 16
      let ts := rows.map ttEntry
      if rows.all ttEntryOk && ts.foldl (fun a t => a + t.len) 0 == us * 1000 then some ts else none

/-- A refused timetable (R221). -/
def ttRefuse (s : State) : State :=
  (((s.dropPending 0).setOn SCH_CTRL_TTERR).setOn SCH_EVT_TTERR).count SCH_CNT_TTERR_VALUE 1

/-- The latch of the timetable group (R221). -/
def ttLatch (s : State) : State :=
  if !s.isPending 0 then s
  else match ttPending s with
    | none => ttRefuse (ttRead s)
    | some ts =>
      let s := ttRead s
      let us := s.pendGet 0 SCH_TT_FRAME_US
      let ph := s.pendGet 0 SCH_TT_PHASE_NS
      let s := (s.latch 0).setOff SCH_CTRL_TTERR
      { s.setOff SCH_CTRL_DEFAULT with sched := { s.sched with slots := ts, frameNs := us * 1000, phaseNs := ph } }

/-- A cascade in FORMED (R485). -/
def cwyFormed (s : State) : Bool := s.get CWY_STAT_STATE == 3

/-- The latch at a frame boundary `b`; in FORMED it waits for the master's instant, and a follower refuses a latch
for which it has no pending set or another array (R490). -/
def ttBoundary (s : State) (b : Nat) : State :=
  if cwyFormed s then
    match s.sched.due with
    | none => s
    | some (due, crc) =>
      if b < due then s
      else
        let s := { s with sched := { s.sched with due := none } }
        let same := s.isPending 0 && (match ttArray s with | some bs => crc32 bs == crc | none => false)
        if same || (s.on CWY_STAT_MASTER && s.isPending 0) then ttLatch s
        else if s.on CWY_STAT_MASTER then s
        else (((ttRefuse (ttRead s)).count CWY_CNT_TTERR_VALUE 1)).setOn CWY_EVT_TTERR
  else ttLatch s

/-- The slot `i` is entered, to end at accumulator time `e`, with SCH_NOW. -/
def enterSlot (s : State) (i e : Nat) : State :=
  let s := { s with sched := { s.sched with slot := i, slotEnd := e } }
  (s.put SCH_NOW_SLOT i).put SCH_NOW_KIND (curSlot s).kind

/-- The performance level of the core islands in the slot (R220, R538): of L as it stood before this cycle. -/
def slotLevel (s : State) : Nat :=
  let l := if s.pwr.lvlAt.1 = s.cyc then s.pwr.lvlAt.2 else s.get PWR_STAT_LEVEL
  max (curSlot s).plevel (if l = 3 then 2 else if l = 2 then 1 else 0)

/-- Core islands take the slot's performance level, relocking for 2.0 us (R37), and a MAINT slot holds them
(R223). -/
def coreClocks (s : State) : State :=
  let lv := slotLevel s
  let maint := (curSlot s).kind == 1
  forUpTo 8 (fun n s =>
    let c := coreOf s n
    if !s.fuses.phys.testBit n then s
    else
      let s := if c.plevel ≠ lv then
          (s.setCore n { c.rebase s with plevel := lv, relockEnd := some (s.cyc + 2000) }).put SYS_ISLAND_STAT_CORE
            (withBits (s.get SYS_ISLAND_STAT_CORE) n n 0)
        else s
      let c := coreOf s n
      if c.maint ≠ maint then s.setCore n { c.rebase s with maint := maint } else s) s

/-- A running step breaks R230 in the new slot (R232), or a disable that fell in a MAINT slot is due to pre-empt it
(R224, R238). -/
def breaksSlot (s : State) (ctx : Nat) (t : Step) : Bool :=
  (t.st == 3 || t.st == 8) && ((curSlot s).kind == 2 || !(curSlot s).ctxmask.testBit ctx ||
    !s.on (SCH_CTX_CTL_ENABLE ctx) || !s.on SCH_CTRL_ENABLE ||
    t.lcores.any fun l => (l.2.st == 1 || l.2.st == 5) &&
      (!(curSlot s).pcores.testBit l.2.pcore || !s.on (TC_CTRL_ENABLE l.2.pcore)))

/-- Frames stop (R22, R255): no boundary is left for a pending set to wait for, and it latches. -/
def stopFrames (s : State) : State := ttLatch (s.setOff SCH_CTRL_READY)

/-- Instants 2 to 4 of a boundary, with the new slot in force (R224). Out of a MAINT slot, the accesses it held are
served first (R223). The power manager gates no idle core in a QUIET slot, which R223 leaves to it (DESIGN CHOICE, log
entry 68). -/
def boundaryActions (s : State) : State :=
  let s := { s with sched := { s.sched with
    snaps := (List.range 64).map fun n => (n, s.get (SCH_CTX_SPROD_INDEX n)), boundary := s.sched.boundary + 1 } }
  let s := forUpTo 64 (fun n s => readyStep s n) s
  let s := if (curSlot s).kind = 1 then onIf (s.on MEM_DDR_STAT_READY) (fun s => s.setOn MEM_DDR_STAT_RETRAIN) s
    else
      let s := (releaseHeld (s.setOff MEM_DDR_STAT_RETRAIN)).kvpServe
      let s := s.sched.steps.foldl (fun s p =>
        match stepOf s p.1 with
        | some t => if breaksSlot s p.1 t then preempt s p.1 else s
        | none => s) s
      if s.on SCH_CTRL_ENABLE then schDecide s else stopFrames s
  coreClocks s

/-- A boundary at accumulator time `b` into a position of the frame, `newFrame` where a frame begins there: instant
1, then the slot that holds the position (R221, R224, R225). -/
def frameBoundary (s : State) (b pos : Nat) (newFrame : Bool) : State :=
  let old := (s.sched.slots, s.sched.frameNs, s.sched.phaseNs)
  let s := if newFrame then (ttBoundary (telemetry s) b).countWrap SCH_NOW_FRAME 1 else s
  let pos := if s.epochMode ∧ old ≠ (s.sched.slots, s.sched.frameNs, s.sched.phaseNs) then
      framePos b s.sched.frameNs s.sched.phaseNs
    else pos
  let (i, left) := slotAt s.sched.slots pos
  boundaryActions (enterSlot s i (b + left))

/-- SLOT_BOUNDARY (R224): the slot's end has come. -/
def execSlotBoundary (s : State) : Host.Outcome State Fault Refusal :=
  finish s (
    if s.on SCH_CTRL_READY ∧ s.sched.slotEnd ≤ s.accNs then
      let b := s.sched.slotEnd
      if s.sched.slot + 1 < s.sched.slots.length then
        let i := s.sched.slot + 1
        boundaryActions (enterSlot s i (b + (s.sched.slots.getD i (curSlot s)).len))
      else frameBoundary s b 0 true
    else s)

/-- A step of Bandstand time ends the slot at once (R225): `oldNs` is the accumulator before it, `delta` the step in
ns. -/
def schedTimeStep (oldNs : Nat) (delta : Int) (s : State) : State :=
  if !s.on SCH_CTRL_READY then s
  else
    let s := s.setOn SCH_EVT_TSTEP
    let b := s.accNs
    let f := s.sched.frameNs
    let pos := if s.epochMode then framePos b f s.sched.phaseNs
      else
        let before : Nat := (s.sched.slots.take (s.sched.slot + 1)).foldl (fun a t => a + t.len) 0
        -- position before the step: the slot's end less what was left of it at the old time
        let old : Int := (before : Int) - ((s.sched.slotEnd : Int) - (oldNs : Int))
        ((old + delta) % ((max f 1 : Nat) : Int)).toNat
    frameBoundary s b pos (pos == 0)

/-- CORE_RELOCK_END (R35, R37): the clock of a core runs again, realigned: from an edge of the 100 MHz reference, one in
ten cycles, with a cycle of its own. -/
def execCoreRelockEnd (n : Nat) (s : State) : Host.Outcome State Fault Refusal :=
  finish s (
    let c := coreOf s n
    match c.relockEnd with
    | some e =>
      let edge := ceilDiv e 10 * 10
      if edge ≤ s.cyc then
        (s.setCore n { c with clkAcc := c.tenths s / 10 * 10, clkAt := edge, relockEnd := none }).put SYS_ISLAND_STAT_CORE
          (withBits (s.get SYS_ISLAND_STAT_CORE) n n (ofBool ((s.get SYS_CORE_MAP_POWERED).testBit n)))
      else s
    | none => s)

/-! ### Writes that act on the scheduler -/

/-- A write of SCH_CTRL_ENABLE: frames begin (R219), or every step is pre-empted (R255) and a pending set latches
(R22). In a MAINT slot a write of 0 acts at the boundary that ends it (R224), and a write of 1 before then withdraws
it (DESIGN CHOICE, log entry 17). -/
def schEnableWritten (old new : Nat) (s : State) : State :=
  let s := s.put SCH_CTRL_ENABLE new
  if old = 0 ∧ new = 1 ∧ s.on SCH_CTRL_READY then s
  else if old = 0 ∧ new = 1 then
    let s := (s.setOn SCH_CTRL_READY).put SCH_NOW_FRAME 0
    let b := s.accNs
    if s.epochMode then
      let (i, left) := slotAt s.sched.slots (framePos b s.sched.frameNs s.sched.phaseNs)
      boundaryActions (enterSlot s i (b + left))
    else
      let (i, left) := slotAt s.sched.slots 0
      boundaryActions (enterSlot s i (b + left))
  else if old = 1 ∧ new = 0 then
    if inMaint s then s else stopFrames (s.sched.steps.foldl (fun s p => preempt s p.1) s)
  else s

/-- A write of SCH_CTX_n_CTL_ENABLE (R229, R238). -/
def ctxEnableWritten (n old new : Nat) (s : State) : State :=
  let s := s.put (SCH_CTX_CTL_ENABLE n) new
  if old = 0 ∧ new = 1 then readyStep s n
  else if old = 1 ∧ new = 0 then
    match stepOf s n with
    | some t => if t.st = 2 then s.dropStep n else if inMaint s then s.syncCtx n else (preempt s n).syncCtx n
    | none => s.syncCtx n
  else s

/-- FAULTED is written 1 (R254): the context continues with the entry at SCONS, and the epoch advances (R545). -/
def ctxFaultCleared (n : Nat) (s : State) : State :=
  if s.on (SCH_CTX_CTL_FAULTED n) then readyStep ((s.setOff (SCH_CTX_CTL_FAULTED n)).epochEvent 4) n else s

/-- A write of TCn_CTRL_ENABLE (R113): 0 pre-empts the step that runs on the core. -/
def tcEnableWritten (n old new : Nat) (s : State) : State :=
  let s := s.put (TC_CTRL_ENABLE n) new
  if old = 1 ∧ new = 0 then
    match lcoreOn s n [1, 5] with
    | some (ctx, _, _) => if inMaint s then s else preempt s ctx
    | none => s
  else s

end Sys2Proof.Machine
end

