-- ==== Sys2Proof/Machine/TensorCmd.lean ====
section
/-! DEFINITION. The commands of a tensor core: fetch, dispatch with its checks, the engines' progress, completion,
budgets (R70, R75, R80–R92, R101–R112, R142, R146, R170, R176, R245, R246). -/

namespace Sys2Proof.Machine

open Sys2Proof Sys2Proof.Machine.Reg

/-! ### Dispatch checks (R89, R92, R102, R103, R116, R118, R123, R146, R176) -/

/-- A compute command breaks R92 as the planes stand at its dispatch: SWAP = 1 with the shadow plane EMPTY and no LOAD on
the weight path, or SWAP = 0 with an invalid active plane. -/
def badPlane (c : Core) (d : Nat) : Bool :=
  if cpSwap d then c.shadowSt == 0 && (c.queue 1).isEmpty && c.reload.isNone else c.active.isNone

/-- The LOAD whose tile a compute command will use (R97): the one that the commands dispatched before it will leave it,
and where none is foreseen the newest LOAD queued or in the shadow plane, or the active tile (DEDUCED, log entry 13). -/
def tileFor (c : Core) (d : Nat) : Option Nat :=
  if cpSwap d then
    (c.vnxt.head?).or ((((c.queue 1).getLast?).map (·.desc)).or (c.shadow.map (·.desc)))
  else c.vact.or (c.active.map (·.desc))

/-- The page table checks of an ATTN (R176). -/
def badPool (s : State) (ctx d : Nat) : Bool :=
  let h := (kvHeader s ctx (atPtab d)).2
  let n := hdPool h
  hdMaxpg h == 0 || 16 * hdMaxpg h < atCtxLen d || hdNlayer h ≤ atLayer d || 7 < n ||
    !s.on (SCH_KVP_CTL_ENABLE n) || !s.on (SCH_KVP_CTL_READY n) || poolOwner s n != ctx ||
    pageSize s n < atNkvh d * 2 * atSB d

/-- The lowest fault code of a descriptor, 0 where it passes every check. -/
def dispatchCode (s : State) (n ctx d : Nat) : Nat :=
  let c := coreOf s n
  let o := dOpc d
  let compute := o == 2 || o == 3
  let tile := if compute then tileFor c d else none
  let kext := match tile with | some t => ldKext t | none => 0
  let ops := operandsOf d kext
  let here := ops.filter fun p => p.ref != noRef && p.stores.contains (refStore p.ref)
  let code4 := ops.any fun p =>
    (p.code == 4 && (p.ref != noRef) != p.need) ||
      (p.ref != noRef && (!p.stores.contains (refStore p.ref) || !rgnOk s n (refStore p.ref) (refRgn p.ref)))
  let work := o == 6 && (!rgnOk s n 1 15 || !rgnOk s n 2 15 || rgnSize s n 1 15 < 30 || rgnSize s n 2 15 < 13 ||
    ops.any fun p => p.ref != noRef && refRgn p.ref == 15)
  let code5 := here.any (fun p =>
      let l := rgnLines s n (refStore p.ref) (refRgn p.ref)
      l ≤ bitsOf p.ref 15 0 || l < p.span) ||
    ((o == 8 || o == 9) && (mvAddr d % 65536 != 0 || bitsOf (mvRef d) 15 0 % 128 != 0))
  let code6 := here.any fun a => a.dst && here.any fun b => !b.dst &&
    spansMeet (rgnLines s n (refStore a.ref) (refRgn a.ref)) a b
  if o == 0 || 11 < o then 1
  else if badReserved d then 2
  else if badFormat d || (match tile with
      | some t => !pairOk (ldFmt t) (ldDual t) (cpFmt d)
      | none => false) then 3
  else if code4 || work then 4
  else if code5 then 5
  else if code6 then 6
  else if badGeometry d || (o == 3 && tile.isSome && cvKH d * cvKW d * cvCin d != kext) ||
      (o == 6 && badPool s ctx d) then 7
  else if dBudget d == 0 then 8
  else if compute && badPlane c d then 10
  else 0

/-! ### Fetch and dispatch (R86, R87, R89, R111) -/

/-- DESCRIPTOR_FETCH (R86, R235): the next descriptor of the stream. -/
def execDescriptorFetch (n : Nat) (s : State) : Host.Outcome State Fault Refusal :=
  finish s (
    let c := coreOf s n
    match c.job with
    | some (ctx, k) =>
      if !coreLive s n || c.fetchStop || 32 ≤ c.fetched.length || s.cyc < c.fetchAt then s
      else
        let bytes := quietRead s ctx (c.stream + 64 * c.fetchPos) 64
        let s := s.tableRead ctx (c.stream + 64 * c.fetchPos) 64
        match bytes with
        | none => teardown s ctx 8 0 0 k
        | some bs =>
          let d := leNat bs
          s.setCore n { c with fetched := c.fetched ++ [d], fetchPos := c.fetchPos + 1, fetchStop := dOpc d == 11 }
    | none => s)

/-- A fresh command for a descriptor. -/
def newCmd (d no attempts now : Nat) : Cmd :=
  { desc := d, no := no, attempts := attempts, silent := false, start := none, unit := 0, next := now, pipe := []
    wait := 0, stalls := 0, flags := 0, raised := false, swapped := false, tile := none, doneAt := none, landed := [], src := [] }

/-- A path has room for a command (R87); the sequencer's own commands wait in `hold`. A silent LOAD takes no place in its
queue, and neither a FENCE nor a COMMIT waits for it: the spec does not say (DESIGN CHOICE, log entry 66). -/
def pathRoom (c : Core) (d : Nat) : Bool :=
  c.hold.isNone && (opcPath (dOpc d) == 5 || ((c.queue (opcPath (dOpc d))).filter fun q => !q.silent).length < 4)

/-- A command enters its queue, or waits as a FENCE or COMMIT. -/
def enqueue (s : State) (n : Nat) (q : Cmd) : State :=
  let c := coreOf s n
  let c := { c with dispNo := c.dispNo + 1 }
  let p := opcPath (dOpc q.desc)
  s.setCore n (if p = 5 then { c with hold := some { q with start := some q.next } }
    else c.withQueue p (c.queue p ++ [q]))

/-- The planes as they will stand once a command just dispatched has run (R70, R92). -/
def afterDispatch (c : Core) (d : Nat) : Core :=
  match dOpc d with
  | 1 => { c with vnxt := c.vnxt ++ [d] }
  | 6 => { c with vact := none }
  | _ => if (dOpc d = 2 ∨ dOpc d = 3) ∧ cpSwap d then { c with vact := c.vnxt.head?, vnxt := c.vnxt.drop 1 } else c

/-- DISPATCH (R87, R89, R111): the next command to dispatch again, or the next descriptor, checked, as the engines
stand in the present cycle. -/
def execDispatch (n : Nat) (s : State) : Host.Outcome State Fault Refusal :=
  finish s (
    let s := upToDate s n
    let c := coreOf s n
    let now := coreCyc s c
    match c.job with
    | none => s
    | some (ctx, k) =>
      if !coreLive s n || c.hold.isSome then s
      else match c.redo with
        | q :: rest =>
          if q.silent then
            let c := { c with redo := rest, dispNo := c.dispNo + 1 }
            s.setCore n (c.withQueue 1 (c.queue 1 ++ [{ q with no := c.dispNo, next := now }]))
          else if (c.queue 1).any (·.silent) || !pathRoom c q.desc then s
          else (enqueue (s.setCore n { c with redo := rest }) n
            { q with no := c.dispNo + 1, attempts := q.attempts + 1, next := now }).put (TC_SEQ_DISP n) (dSeq q.desc)
        | [] =>
          match c.fetched with
          | [] => s
          | d :: rest =>
            if dOpc d ≠ 0 ∧ dOpc d ≤ 11 ∧ !pathRoom c d then s
            else
              let idx := c.fetchPos - c.fetched.length
              let tries := match stepOf s ctx with | some t => tgetD (t.lcore k).tries idx 0 | none => 0
              let q := newCmd d (c.dispNo + 1) (tries + 1) now
              let code := dispatchCode s n ctx d
              if code ≠ 0 then commandFault s n q code now
              else
                let s := match stepOf s ctx with
                  | some t => s.setStep ctx (t.withLcore k { t.lcore k with tries := tset (t.lcore k).tries idx (tries + 1) })
                  | none => s
                let s := s.setCore n (afterDispatch { c with fetched := rest } d)
                (enqueue s n q).put (TC_SEQ_DISP n) (dSeq d))

/-! ### Planes and the compute path -/

/-- LOAD (R70, R71). -/
def execLoad (n : Nat) (s : State) : Host.Outcome State Fault Refusal := finish s (runPath 1 1 n s)

/-- MATMUL (R73, R74). -/
def execMatmul (n : Nat) (s : State) : Host.Outcome State Fault Refusal := finish s (runPath 2 0 n s)

/-- CONV (R117–R122). -/
def execConv (n : Nat) (s : State) : Host.Outcome State Fault Refusal := finish s (runPath 3 0 n s)

/-- POOL (R139–R141). -/
def execPool (n : Nat) (s : State) : Host.Outcome State Fault Refusal := finish s (runPath 4 2 n s)

/-- ROIA (R134–R138). -/
def execRoia (n : Nat) (s : State) : Host.Outcome State Fault Refusal := finish s (runPath 5 2 n s)

/-- VEC (R99, R100). -/
def execVec (n : Nat) (s : State) : Host.Outcome State Fault Refusal := finish s (runPath 7 2 n s)

/-- ATTN (R70, R142, R156, R167): it starts, begins work once the compute, weight and vector paths have completed
every earlier command, sends its request, and once that is answered runs its query blocks. -/
def execAttn (n : Nat) (s : State) : Host.Outcome State Fault Refusal :=
  finish s (
    if !coreLive s n then s
    else match (coreOf s n).queue 3 with
      | [] => s
      | c :: _ =>
        let (s, c) := startCmd s n 3 c
        let k := coreOf s n
        if c.landed = [] then
          if c.wait = 5 ∨ [0, 1, 2].any fun p => (k.queue p).any fun q => q.no < c.no then s
          else
            let s := dropPlane s n k.active ([0, 1, 2].foldl (fun t p => max t (k.mark (doneKey + p))) (c.start.getD 0))
            let k := coreOf s n
            let s := s.setCore n { k with
              active := none, shadow := none, shadowSt := 0
              reload := match k.shadow with | some t => some (t.desc, t.rel) | none => k.reload }
            let (ctx, lc) := k.job.getD (0, 0)
            let (s, h) := kvHeader s ctx (atPtab c.desc)
            setCmd (s.kvpPut { kind := 0, core := n, pool := hdPool h % 8, ptab := atPtab c.desc, at_ := s.cyc
                               tie := lc * 64 + ctx, waits := false }) n 3 { c with wait := 5 }
        else runAttn n s)

/-! ### Stalls (R80, R81, R85) -/

/-- The command of a path that waits for a tail (1) or a head (2). -/
def stalled (s : State) (n path cause : Nat) : Option Cmd := ((coreOf s n).queue path).find? fun q => q.wait == cause

/-! ### The tile mover (R82, R112, R245, R246) -/

/-- The command the tile mover works on: the oldest that has not moved its last tile (R105). -/
def tileCmd (s : State) (n opc : Nat) : Option Cmd :=
  match ((coreOf s n).queue 4).find? fun q => q.unit < mvTiles q.desc with
  | some c => if dOpc c.desc = opc then some c else none
  | none => none

/-- Cycles a tile takes through a port of the tile mover, 256 bytes a cycle (R75). -/
def tileCycles : Nat := 256

/-- A tile command has moved one more tile, at a cycle `k` from which the next may move; with the last one the next
command of the path may start. -/
def tileMoved (s : State) (n : Nat) (c : Cmd) (k : Nat) : State :=
  let c := { c with unit := c.unit + 1, next := k, wait := 0 }
  let s := setCmd s n 4 c
  if mvTiles c.desc ≤ c.unit then s.setCore n ((coreOf s n).setMark 4 k) else s

/-- A free remote read slot: which of the free ones is open. -/
def freeSlot (s : State) : Option Nat :=
  let used := s.sched.remote.map (·.1)
  pickFree s ((List.range 4096).filter fun i => !used.contains i)

/-- The PEER object that serves an address for a context: module number and unit there. -/
def peerUnit (s : State) (ctx addr : Nat) : Option (Nat × Nat) :=
  match resolve s false ctx addr 65536 false with
  | .ok (_, e) => if e.tier = 5 then some (bitsOf e.taddr 47 45, bitsOf e.taddr 23 0 + addr / 65536 - e.base) else none
  | .error _ => none

/-- The next tile of a PULL is requested once its lines are released (R81, R112); a tile of another module takes a remote
read slot (R245, R246). -/
def pullTile (n : Nat) (s : State) : State :=
  match jobOf s n, tileCmd s n 8 with
  | some (ctx, _), some c =>
    if !coreLive s n then s
    else
      let (s, c) := startCmd s n 4 c
      match writeFrom s n (mvRef c.desc, 128 * c.unit, 128) with
      | none => setCmd s n 4 { c with wait := 2 }
      | some f =>
        let d := f - c.next
        if nowOf s n < c.next + d then setCmd s n 4 { c with wait := 2 }
        else
          let addr := mvAddr c.desc + c.unit * 65536
          let stalledFor := fun (s : State) => s.countWrap (TC_CNT_HEAD_VALUE n) d
          let c := { c with stalls := c.stalls + d }
          match peerUnit s ctx addr with
          | none =>
            let src := match resolve s false ctx addr 65536 false with
              | .ok (_, e) => tset c.src c.unit e
              | .error _ => c.src
            tileMoved (stalledFor s) n { c with src := src } (c.next + d + 1)
          | some (m, u) =>
            let s := s.lookup addr
            match freeSlot s with
            | none => s
            | some slot =>
              let r : RemoteSlot := { core := n, epoch := (coreOf s n).epoch, no := c.no, tile := c.unit, module := m
                                      unit := u, ctx := ctx }
              let s := { s with free := s.free + 1, sched := { s.sched with remote := tset s.sched.remote slot r } }
              tileMoved (stalledFor (s.cwyReadReq slot r)) n c (nowOf s n + 1)
  | _, _ => s

/-- PULL (R112, R245, R246): the next tile is requested. -/
def execPull (n : Nat) (s : State) : Host.Outcome State Fault Refusal := finish s (pullTile n s)

/-- Tile `i` of a PULL lands (R82): its lines are written, and the tail passes the contiguous prefix of landed tiles, to
be read from the cycle after; the write port is busy for the tile's 256 cycles (R75). -/
def landTile (s : State) (n : Nat) (c : Cmd) (i : Nat) (bs : List Byte) : State :=
  let ref := mvRef c.desc
  let now := nowOf s n
  let s := writeLines s n ref (128 * i) (padBytes 65536 bs)
  let landed := c.landed ++ [i]
  let pre := ((List.range (mvTiles c.desc)).takeWhile fun j => landed.contains j).length
  let s := if pre = 0 then s else advanceTail s n ref (128 * (pre - 1)) 128 (now + 1)
  let s := s.countWrap MEM_TMV_CNT_TILES_VALUE 1
  let s := s.setCore n ((coreOf s n).setMark portKey (now + tileCycles))
  setCmd s n 4 { c with landed := landed, doneAt := if landed.length = mvTiles c.desc then some (now + 1) else none }

/-- The entry that serves tile `i` of a PULL: the present one of the object, or the one the tile met when it was
requested, where that object is gone (R190). -/
def tileSource (s : State) (ctx : Nat) (c : Cmd) (i : Nat) : Except Nat PltEntry :=
  match resolve s false ctx (mvAddr c.desc + i * 65536) 65536 false, tget c.src i with
  | .ok (_, e), some o => .ok (if e.base = o.base ∧ e.size = o.size ∧ e.ctx = o.ctx then e else o)
  | .error _, some o => .ok o
  | .ok (_, e), none => .ok e
  | .error v, none => .error v

/-- TILE_LANDED (R75, R82, R112, R201, R207): a tile of this module's own tiers lands; `errs` are the errors that its
read met. -/
def execTileLanded (n tile : Nat) (errs : List Nat) (s : State) : Host.Outcome State Fault Refusal :=
  finish s (
    let find := ((coreOf s n).queue 4).find? fun q =>
      dOpc q.desc == 8 && tile < q.unit && !q.landed.contains tile &&
        !s.sched.remote.any fun r => r.2.core == n && r.2.no == q.no && r.2.tile == tile && r.2.epoch == (coreOf s n).epoch
    match jobOf s n, find with
    | some (ctx, k), some c =>
      if !coreLive s n ∨ nowOf s n < max ((coreOf s n).mark portKey) (c.start.getD 0 + tileCycles) then s
      else
        let addr := mvAddr c.desc + tile * 65536
        let s := s.looked ctx addr 65536
        match tileSource s ctx c tile with
        | .error v => landTile (s.violation v 0 ctx addr false) n c tile []
        | .ok e =>
          if protClosed s 2 addr false then landTile (s.violation 6 0 ctx addr false) n c tile []
          else if unpublished s ctx e then landTile (s.count MEM_PLT_CNT_UNCREAD_VALUE 1) n c tile []
          else if e.tier = 4 ∧ !hostUp s then
            let s := ((s.count (FLD_PCI_CNT_VALUE 1) 1).setOn FLD_PCI_EVT_NOBME).logUe 0 n 1 ctx none
            teardown (landTile s n c tile []) ctx 2 0 0 k
          else
            let a := objPlace e (addr - e.base * 65536)
            let (s, bads) := s.tileErrors e.tier a errs
            let s := landTile s n c tile (zeroBlocks a bads (objRead s e (addr - e.base * 65536) 65536))
            if bads.isEmpty then s else teardown (s.logUe 0 n 1 ctx (placePa (bads.headD 0 * 32))) ctx 2 0 0 k
    | _, _ => s)

/-- A STORE tile reaches the Fabric Address Space for the step (R112, R180, R200). -/
def storeBytes (s : State) (n ctx k addr : Nat) (bs : List Byte) : State :=
  let s := s.looked ctx addr 65536
  match resolve s false ctx addr 65536 true with
  | .error v => s.violation v 0 ctx addr true
  | .ok (i, e) =>
    if protClosed s 2 addr true then s.violation 6 0 ctx addr true
    else if e.tier = 4 ∧ !hostUp s then (s.count (FLD_PCI_CNT_VALUE 1) 1).setOn FLD_PCI_EVT_NOBME
    else
      let s := markPublication s i e ((stepOf s ctx).bind fun t => t.tag)
      let s := objWrite s i (tgetD s.plt i e) (addr - e.base * 65536) bs
      { s with acks := s.acks ++ [{ pcore := n, ctx := ctx, lcore := k, unit := addr / 65536 }] }

/-- A tile of the Fabric Address Space is the one in copy of a migration: a STORE to it waits (R196). -/
def tileWaits (s : State) (addr : Nat) : Bool :=
  match objectAt s (addr / 65536) with
  | some (_, e) => inCopy e (addr - e.base * 65536)
  | none => false

/-- The next tile of a STORE is read once its lines are filled, through a port of 256 bytes a cycle (R75, R80), and
written; one that waits for a migration's tile in copy has not moved (R196). -/
def storeTile (n : Nat) (s : State) : State :=
  match jobOf s n, tileCmd s n 9 with
  | some (ctx, k), some c =>
    if !coreLive s n then s
    else
      let (s, c) := startCmd s n 4 c
      match readFrom s n (mvRef c.desc, 128 * c.unit, 128) with
      | none => setCmd s n 4 { c with wait := 1 }
      | some f =>
        let d := f - c.next
        let addr := mvAddr c.desc + c.unit * 65536
        if nowOf s n < c.next + d then setCmd s n 4 { c with wait := 1 }
        else if tileWaits s addr then
          setCmd (s.countWrap (TC_CNT_TAIL_VALUE n) d) n 4
            { c with wait := 6, next := c.next + d, stalls := c.stalls + d, pipe := [(copyWait c).getD s.cyc] }
        else
          let s := s.countWrap MEM_TMV_CNT_WAITCOPY_VALUE (copyWaited s c)
          let at_ := if (copyWait c).isSome then nowOf s n else c.next + d
          let done := at_ + tileCycles
          let bs := readLines s n (mvRef c.desc) (128 * c.unit) 128
          let c := { c with
            stalls := c.stalls + d, pipe := [], doneAt := if c.unit + 1 = mvTiles c.desc then some done else none }
          let s := (tileMoved (s.countWrap (TC_CNT_TAIL_VALUE n) d) n c done).countWrap MEM_TMV_CNT_TILES_VALUE 1
          storeBytes s n ctx k addr bs
  | _, _ => s

/-- STORE (R112, R196, R200): the next tile moves. -/
def execStore (n : Nat) (s : State) : Host.Outcome State Fault Refusal := finish s (storeTile n s)

/-- STORE_ACK (R91): the destination tier acknowledges a STORE tile of a core, named by its unit. -/
def execStoreAck (n tile : Nat) (s : State) : Host.Outcome State Fault Refusal :=
  finish s (
    match s.acks.find? fun a => a.pcore == n && a.unit == tile with
    | some a =>
      let s := { s with acks := s.acks.erase a }
      if (jobOf s n).isSome then s.setCore n ((coreOf s n).setMark ackKey (nowOf s n)) else s
    | none => s)

/-- READ_STALL_RESUME (R80): a stalled read whose lines are now filled issues, in the first cycle in which they can be
read. -/
def execReadStallResume (n path : Nat) (s : State) : Host.Outcome State Fault Refusal :=
  finish s (
    if !coreLive s n then s
    else match stalled s n path 1 with
      | none => s
      | some c => if path = 4 then storeTile n s else issueUnit (workOf s n c) n path c.no (nowOf s n) s)

/-- WRITE_STALL_RESUME (R81): a stalled write whose lines are now released issues, in the first cycle in which they can
be written. -/
def execWriteStallResume (n path : Nat) (s : State) : Host.Outcome State Fault Refusal :=
  finish s (
    if !coreLive s n then s
    else match stalled s n path 2 with
      | none => s
      | some c => if path = 4 then pullTile n s else writeUnit (workOf s n c) n path c.no (nowOf s n) s)

/-! ### FENCE, COMMIT, completion (R83, R90, R91, R101) -/

/-- The FENCE or COMMIT of a core completes, if it has the opcode and what it waits for is done. -/
def tryHold (n opc : Nat) (s : State) : State :=
  if !coreLive s n then s
  else match holdDone s n with
    | some (q, t) => if dOpc q.desc = opc ∧ t ≤ nowOf s n then completeHold s n q t else s
    | none => s

/-- FENCE (R90): dispatch goes on once the named paths, and with VIS the STOREs, are done. -/
def execFence (n : Nat) (s : State) : Host.Outcome State Fault Refusal := finish s (tryHold n 10 s)

/-- COMMIT (R91): every earlier command has completed and every STORE is acknowledged; the report follows. -/
def execCommit (n : Nat) (s : State) : Host.Outcome State Fault Refusal := finish s (tryHold n 11 s)

/-- COMMAND_COMPLETE (R83, R101, R107): the completion cycle of a command of a path has come. -/
def execCommandComplete (n path : Nat) (s : State) : Host.Outcome State Fault Refusal :=
  finish s (
    let now := nowOf s n
    let done := fun (q : Cmd) => match q.doneAt with | some t => t ≤ now | none => false
    if !coreLive s n then s
    else match ((coreOf s n).queue path).find? done with
      | none => s
      | some c => completeCmd s n path c (c.doneAt.getD now))

/-! ### Budgets (R105–R108) -/

/-- BUDGET_RAISE (R106): a command of the path has not completed by start + BUDGET. -/
def execBudgetRaise (n path : Nat) (s : State) : Host.Outcome State Fault Refusal :=
  finish s (
    let s := upToDate s n
    if !coreLive s n then s
    else match overdue s n path 1 0 true with
      | none => s
      | some c =>
        let k := coreOf s n
        let s := if path = 5 then s.setCore n { k with hold := k.hold.map fun q => { q with raised := true } }
          else setCmd s n path { c with raised := true }
        budgetRaised s n)

/-- BUDGET_KILL (R107): a command past 16 × BUDGET faults its context with code 0x09. -/
def execBudgetKill (n path : Nat) (s : State) : Host.Outcome State Fault Refusal :=
  finish s (
    if !coreLive s n then s
    else
      let s := upToDate s n
      match overrun s n path with
      | none => s
      | some (c, at_) => commandFault s n c 9 at_)

end Sys2Proof.Machine
end

