-- ==== Sys2Proof/Machine/Icu.lean ====
section
/-! DEFINITION. The interrupt controller's targets (R385–R393), control harts and their watchdogs (R380, R381), timed
I/O pins and the lines that compare pulses drive (R289, R394). -/

namespace Sys2Proof.Machine

open Sys2Proof Sys2Proof.Machine.Reg

/-! ### Targets (R386–R390) -/

/-- Priority stack of a target, top first. -/
def icuStack (s : State) (t : Nat) : List (Nat × Nat) := tgetD s.icu.stk t []

/-- Replace it. -/
def State.setStack (s : State) (t : Nat) (st : List (Nat × Nat)) : State :=
  { s with icu := { s.icu with stk := tset s.icu.stk t st } }

/-- Source `src` is deliverable to target `t` (R386). -/
def deliverable (s : State) (t src : Nat) : Bool :=
  src != 0 && s.get (BLV_ICU_SRC_TARGET src) == t && s.on (BLV_ICU_SRC_EN src) && icuPending s src && !icuActive s src &&
    min (s.get (BLV_ICU_T_THR_VALUE t)) 16 ≤ s.get (BLV_ICU_SRC_PRIO src) &&
    (match icuStack s t with
      | [] => true
      | e :: _ => e.2 < s.get (BLV_ICU_SRC_PRIO src))

/-- The deliverable source of the highest priority, the lowest number among equals (R387). -/
def bestSource (s : State) (t : Nat) : Option Nat :=
  ((levelSources ++ s.icu.pend).filter (deliverable s t)).foldl (fun best src =>
    match best with
    | none => some src
    | some b =>
      let pb := s.get (BLV_ICU_SRC_PRIO b)
      let ps := s.get (BLV_ICU_SRC_PRIO src)
      if pb < ps ∨ (pb = ps ∧ src < b) then some src else some b) none

/-- The line of a target (R386). -/
def icuLine (s : State) (t : Nat) : Bool := s.on BLV_ICU_CTRL_ENABLE && (bestSource s t).isSome

/-- The fault line of a target, which drives its hart's Smrnmi (R388). -/
def icuFaultLine (s : State) (t : Nat) : Bool := s.on (BLV_ICU_T_FAULT_VALID t)

/-- A claim of target `t` (R387): the source returned, 0 where none is deliverable. -/
def icuClaim (s : State) (t : Nat) : State × Nat :=
  if !s.on BLV_ICU_CTRL_ENABLE then (s, 0)
  else match bestSource s t with
    | none => (s, 0)
    | some src =>
      let s' := s.setStack t ((src, s.get (BLV_ICU_SRC_PRIO src)) :: icuStack s t)
      (if s.on (BLV_ICU_SRC_EDGE src) then
        { s' with icu := { s'.icu with pend := s'.icu.pend.filter fun x => x ≠ src } }
      else s', src)

/-- A completion of source `src` at target `t` (R388). -/
def icuComplete (t src : Nat) (s : State) : State :=
  let fault := fun expect =>
    let s1 := if s.on (BLV_ICU_T_FAULT_VALID t) then s
      else (s.put (BLV_ICU_T_FAULT_EXPECT t) expect).put (BLV_ICU_T_FAULT_GIVEN t) src
    (s1.count (BLV_ICU_T_FAULT_COUNT t) 1).setOn (BLV_ICU_T_FAULT_VALID t)
  match icuStack s t with
  | [] => fault 0
  | e :: rest => if e.1 = src then s.setStack t rest else fault e.1

/-- A write of RESET (R390): the stack empties, and its sources are no longer ACTIVE. -/
def icuReset (t : Nat) (go : Bool) (s : State) : State := onIf go (·.setStack t []) s

/-- A write of SWI (R393): sources 256 to 511 are pulsed. -/
def icuSwi (src : Nat) (s : State) : State := if 256 ≤ src ∧ src ≤ 511 then s.pulse src else s

/-! ### Control harts (R380, R381) -/

/-- Hart `h` leaves reset at RVEC. -/
def hartStart (s : State) (h : Nat) : State :=
  let s := { s with wdog := tset s.wdog h (s.cyc, false) }
  (s.setOn (BLV_HART_STAT_RUNNING h)).send (.hartStart h (s.get (BLV_HART_RVEC_OFS h) * 4))

/-- A write of RUN has taken effect (R380). -/
def hartRunWritten (h old new : Nat) (s : State) : State :=
  if old = 0 ∧ new = 1 then hartStart s h
  else if old = 1 ∧ new = 0 then
    ({ s with wdog := tdel s.wdog h }.setOff (BLV_HART_STAT_RUNNING h)).send (.hartHold h)
  else s

/-- A write of 1 to KICK (R381). -/
def watchdogKick (h : Nat) (kick : Bool) (s : State) : State :=
  onIf kick (fun s => { s with wdog := tset s.wdog h (s.cyc, false) }) s

/-- WATCHDOG_EXPIRE (R381): the first expiry raises Smrnmi, the second resets the hart. -/
def execWatchdogExpire (h : Nat) (s : State) : Host.Outcome State Fault Refusal :=
  finish s (
    let us := s.get (BLV_HART_CTL_WDOG_US h)
    match tget s.wdog h with
    | none => s
    | some (t, again) =>
      if us = 0 ∨ !s.on (BLV_HART_CTL_RUN h) ∨ s.cyc < t + us * 1000 then s
      else
        let s := (s.count (BLV_HART_STAT_WDOGN h) 1).pulse 41
        let s := if again then hartStart s h else s.send (.smrnmi h)
        { s with wdog := tset s.wdog h (t + us * 1000, !again) })

/-! ### Timed I/O and pulse-driven lines -/

/-- A pulse of a level drives a destination. -/
def pulseOn (s : State) (dest : Nat) (high : Bool) : Bool := s.pulses.any fun p => p.dest == dest && p.high == high

/-- Level of a line (R289, R506, R534): low where the power manager drives it low; else an active-low pulse, then an
active-high one, then the idle level. -/
def drivenLevel (s : State) (dest : Nat) (idle : Bool) : Bool :=
  if s.pwr.linesLow then false else if pulseOn s dest false then false else if pulseOn s dest true then true else idle

/-- Idle level of an FSYNC or IMU sync line (R289). -/
def syncIdle (s : State) (dest : Nat) : Bool :=
  match (List.range 32).find? fun c => s.on (TIM_CMP_CTL_ENABLE c) && s.get (TIM_CMP_CTL_DEST c) == dest with
  | some c => !s.on (TIM_CMP_CTL_POL c)
  | none => false

/-- Level of an FSYNC line (DEST 0x10–0x1B) or an IMU sync line (0x20–0x23). -/
def syncLevel (s : State) (dest : Nat) : Bool := drivenLevel s dest (syncIdle s dest)

/-- Level of timed I/O pin `p` (R394): driven where it is an output, else as its last edge left it. -/
def tioLevel (s : State) (p : Nat) : Bool :=
  if s.on (BLV_TIO_CFG_DIR p) then drivenLevel s (0x40 + p) ((s.get BLV_TIO_OUT_BITS).testBit p)
  else (s.get BLV_TIO_IN_BITS).testBit p

/-- TIO_INPUT_EDGE (R394): pin `p` takes a level; a selected edge is captured. -/
def execTioInputEdge (p : Nat) (level : Bool) (s : State) : Host.Outcome State Fault Refusal :=
  finish s (
    if 32 ≤ p ∨ s.on (BLV_TIO_CFG_DIR p) ∨ (s.get BLV_TIO_IN_BITS).testBit p = level then s
    else
      let s := s.put BLV_TIO_IN_BITS (withBits (s.get BLV_TIO_IN_BITS) p p (ofBool level))
      if !(s.get (BLV_TIO_CFG_EDGE p)).testBit (ofBool (!level)) then s
      else
        let s := onIf (s.tioUnread.testBit p) (·.setOn (BLV_TIO_CFG_OVR p)) s
        let s := s.wr (BLV_TIO_TSLO p) (BitVec.ofNat 64 (s.nowNs % 1000000000))
        let s := s.wr (BLV_TIO_TSHI p) (BitVec.ofNat 64 (s.nowNs / 1000000000))
        { s with tioUnread := s.tioUnread ||| 2 ^ p }.pulse (192 + p))

end Sys2Proof.Machine
end

