-- ==== Sys2Proof/Machine/Views.lean ====
section
/-! DEFINITION. Registers that show other state: fuses and lifecycle (R4, R33, R513–R518, R539), Bandstand time
(R271), interrupt lines (R385–R393), pins (R394), COMMIT (R18) and cycle counts. Every read goes through `view`. -/

namespace Sys2Proof.Machine

open Sys2Proof Sys2Proof.Machine.Reg

/-! ### Fuses and lifecycle -/

/-- PROT is DAMAGED: programmed bits without the marker (R514). -/
def protDamaged (f : Fuses) : Bool :=
  !f.protMark && (f.protWin.any (· ≠ 0) || f.protDbg ≠ 0 || f.protPert ≠ 0)

/-- A key slot is DAMAGED (R514). -/
def keyDamaged (k : Nat × Bool) : Bool := !k.2 && k.1 ≠ 0

/-- Lifecycle code of the thermometer bits (R515): 0 VIRGIN, 1 DEVELOP, 2 PRODUCTION, 3 RETURNED, 4
DECOMMISSIONED. -/
def lcCode (s : State) : Nat :=
  match s.fuses.lc with
  | 0 => 0
  | 1 => 1
  | 3 => 2
  | 7 => 3
  | _ => 4

/-- Debug locks in force (R514, R518). -/
def dbgLock (s : State) : Nat := if protDamaged s.fuses then 7 else s.fuses.protDbg % 8

/-- PERTMODE in force (R514, R518). -/
def pertMode (s : State) : Nat := if protDamaged s.fuses then 0 else s.fuses.protPert % 4

/-- SEC_PERT_OK (R518). -/
def pertOk (s : State) : Bool :=
  match pertMode s with
  | 1 => lcCode s == 1 || lcCode s == 3
  | 2 => lcCode s != 4
  | _ => false

/-- SEC_LC_DAMAGED (R539). -/
def damagedMask (f : Fuses) : Nat :=
  ofBool (f.khRsa.any keyDamaged) + 2 * ofBool (f.khSlh.any keyDamaged) + 4 * ofBool (protDamaged f)

/-- Rollback count: programmed ROLLBACK bits (R513). -/
def rollbackCount (f : Fuses) : Nat := popCount 64 f.rollback

/-- Word `j` of a key hash, hash byte 0 in the low byte of word 0 (R539). -/
def keyWord (ks : List (Nat × Bool)) (slot j : Nat) : Nat := (ks.getD slot (0, false)).1 / 2 ^ (64 * j) % 2 ^ 64

/-- Registers read from fuses (R4, R33, R539). -/
def fuseView (s : State) (a : Nat) : Option Nat :=
  let f := s.fuses
  if a = SYS_IDENT then
    some (0x5A13 * 2 ^ 48 + 0x0D08 * 2 ^ 32 + f.grade * 2 ^ 24 + f.stepping * 2 ^ 16 + f.cores * 2 ^ 8 + f.memGib)
  else if a = SYS_CORE_MAP then some (withBits (s.rd SYS_CORE_MAP).toNat 7 0 f.phys)
  else if a = SEC_LC then some (damagedMask f * 256 + lcCode s)
  else if a = SEC_REVOKE then some f.revoke
  else if a = SEC_ROLLBACK then some (rollbackCount f)
  else if a = SEC_DBGLOCK then some (dbgLock s)
  else if a = SEC_PERT then some (ofBool (pertOk s) * 4 + pertMode s)
  else if a = SEC_STAT then some (withBits (s.rd SEC_STAT).toNat 0 0 (ofBool f.protMark))
  else if SEC_PROTWIN 0 ≤ a ∧ a < SEC_PROTWIN 8 then some (f.protWin.getD ((a - SEC_PROTWIN 0) / 8) 0)
  else if SEC_KH_RSA 0 0 ≤ a ∧ a < SEC_KH_RSA 4 0 then
    some (keyWord f.khRsa ((a - SEC_KH_RSA 0 0) / 0x40) ((a - SEC_KH_RSA 0 0) % 0x40 / 8))
  else if SEC_KH_SLH 0 0 ≤ a ∧ a < SEC_KH_SLH 4 0 then
    some (keyWord f.khSlh ((a - SEC_KH_SLH 0 0) / 0x40) ((a - SEC_KH_SLH 0 0) % 0x40 / 8))
  else none

/-! ### Time, interrupts, pins -/

/-- Bandstand time as its registers present it (R269, R271). -/
def timeView (s : State) (a : Nat) : Option Nat :=
  if a = TIM_NOW_LO then some (s.nowFrac * 2 ^ 32 + s.nowNs % 1000000000)
  else if a = TIM_NOW_HI then some (s.nowNs / 1000000000 % 2 ^ 48)
  else if a = TIM_NOW_WRAP then some s.wrapNs
  else none

/-- Registers of the interrupt controller and the pins (R385–R394). -/
def icuView (s : State) (a : Nat) : Option Nat :=
  if BLV_ICU_PEND 0 ≤ a ∧ a < BLV_ICU_PEND 32 then
    let w := (a - BLV_ICU_PEND 0) / 4
    some (maskOf 32 fun i => icuPending s (32 * w + i))
  else if BLV_ICU_SRC 0 ≤ a ∧ a < BLV_ICU_SRC 1024 then
    let src := (a - BLV_ICU_SRC 0) / 4
    some (ofBool (icuPending s src) * 2 ^ 31 + ofBool (icuActive s src) * 2 ^ 30 + (s.rd a).toNat % 2 ^ 30)
  else if BLV_ICU_T_THR 0 ≤ a ∧ a < BLV_ICU_T_THR 12 ∧ (a - BLV_ICU_T_THR 0) % 0x40 = 0xC then
    let st := icuStack s ((a - BLV_ICU_T_THR 0) / 0x40)
    let top := st.headD (0, 0)
    some (top.1 * 2 ^ 16 + top.2 * 2 ^ 8 + st.length)
  else if a = BLV_TIO_IN then some (maskOf 32 (tioLevel s))
  else none

/-! ### CSI-2 ports, COMMIT and counts -/

/-- A port receives, with 1, 2 or 4 lanes (R324). -/
def csiOn (s : State) (p : Nat) : Bool :=
  s.on SNS_CTRL_ENABLE && p < 12 && (s.get (SNS_CSI_CFG_LANES p) ∈ [1, 2, 4])

/-- SNS_LINK_CSI (R324): a port that receives may be in high-speed receive, as its lanes then are. -/
def csiLink (s : State) : Nat := maskOf 12 fun p => csiOn s p && Config.csiHighSpeed p s.cyc

/-- SNS_LINK: the link state of the ports (R324). -/
def linkView (s : State) (a : Nat) : Option Nat :=
  if a = SNS_LINK then some (withBits (s.rd a).toNat 11 0 (csiLink s)) else none

/-- The COMMIT field an address holds, with its group's key (R18). -/
def commitAt (a : Nat) : Option (Nat × Nat) :=
  if a = SCH_TT_COMMIT then some (0, 0)
  else if a = TIM_SRV_COMMIT then some (1, 0)
  else if a = FUS_COMMIT then some (2, 0)
  else if a = TRL_COMMIT then some (3, 0)
  else if a = RFX_COMMIT then some (4, 0)
  else if TIM_CMP_CTL 0 ≤ a ∧ a < TIM_CMP_CTL 32 ∧ (a - TIM_CMP_CTL 0) % 0x40 = 0 then
    some (16 + (a - TIM_CMP_CTL 0) / 0x40, 1)
  else none

/-- TCn_CNT_CYC counts the cycles in which a step was on the core, the present one's included (R113), and the stall
counters the stalls in progress (R85). -/
def coreCount (s : State) (a : Nat) : Option Nat :=
  match (List.range 8).find? fun n => a = TC_CNT_CYC n || a = TC_CNT_TAIL n || a = TC_CNT_HEAD n || a = TC_CNT_SHADOW n with
  | none => none
  | some n =>
    let c := coreOf s n
    let more := if a = TC_CNT_CYC n then (if c.job.isSome then coreCyc s c - c.since else 0)
      else stallsNow s n (if a = TC_CNT_TAIL n then 1 else if a = TC_CNT_HEAD n then 2 else 3)
    some (((s.rd a).toNat + more) % 2 ^ 64)

/-- SCH_KVP_CNT_WAIT_n counts the waits of requests in progress (R172). -/
def waitCount (s : State) (a : Nat) : Option Nat :=
  match (List.range 8).find? fun n => a = SCH_KVP_CNT_WAIT n with
  | none => none
  | some n =>
    some (s.kvpQueue.foldl (fun v (q : PageReq) => if q.kind = 0 ∧ q.pool = n then v + (s.cyc - q.at_) * 16 / 10 else v)
      (s.rd a).toNat % 2 ^ 64)

/-- The value a read of a register's active copy gives. -/
def State.view (s : State) (a : Nat) : Word64 :=
  match fuseView s a with
  | some v => BitVec.ofNat 64 v
  | none =>
    match timeView s a with
    | some v => BitVec.ofNat 64 v
    | none =>
      match icuView s a with
      | some v => BitVec.ofNat 64 v
      | none =>
        match commitAt a with
        | some (k, b) => BitVec.ofNat 64 (withBits (s.rd a).toNat b b (ofBool (s.isPending k)))
        | none =>
          match coreCount s a with
          | some v => BitVec.ofNat 64 v
          | none =>
            match waitCount s a with
            | some v => BitVec.ofNat 64 v
            | none =>
              match linkView s a with
              | some v => BitVec.ofNat 64 v
              | none => s.rd a

end Sys2Proof.Machine
end

