-- ==== Sys2Proof/Machine/Sensors.lean ====
section
/-! DEFINITION. The sensor front: ports, rings and records (R294–R304), and the channels' time models and quarantine
(R305–R309). Times are presented time in 2^-16 ns (R269). -/

namespace Sys2Proof.Machine

open Sys2Proof Sys2Proof.Machine.Reg

/-! ### Channel descriptors (R303), as 512-bit numbers -/

def chEn (d : Nat) : Bool := db d 0 0
def chKind (d : Nat) : Nat := dw d 0 3 1
def chPort (d : Nat) : Nat := dw d 0 7 4
def chVc (d : Nat) : Nat := dw d 0 9 8
def chDt (d : Nat) : Nat := dw d 0 15 10
def chCtx (d : Nat) : Nat := dw d 0 21 16
def chStfmt (d : Nat) : Nat := dw d 0 24 22
def chStepKeep (d : Nat) : Bool := db d 0 25
def chPeer (d : Nat) : Nat := dw d 0 29 26
def chSrc (d : Nat) : Nat := dw d 0 35 30
def chPriv (d : Nat) : Nat := dw d 0 39 36
def chDecim (d : Nat) : Nat := dw d 0 47 40
def chEtype (d : Nat) : Nat := dw d 0 63 48
def chRing (d : Nat) : Nat := dw d 1 47 0
def chRlog2 (d : Nat) : Nat := dw d 1 51 48
def chSlotSz (d : Nat) : Nat := dw d 2 31 0
def chSofs (d : Nat) : Nat := dw d 2 47 32
def chUdpp (d : Nat) : Nat := dw d 2 63 48
def chNper (d : Nat) : Nat := dw d 3 47 0
def chNpmax (d : Nat) : Nat := dw d 3 63 48
def chLat (d : Nat) : Nat := dw d 4 31 0
def chTovOfs (d : Nat) : Int := signedOf 32 (dw d 4 63 32)
def chKo (d : Nat) : Nat := dw d 5 5 0
def chKrs (d : Nat) : Nat := dw d 5 11 6
def chKrm (d : Nat) : Nat := dw d 5 27 12
def chQmul (d : Nat) : Nat := dw d 5 35 28
def chNvalid (d : Nat) : Nat := dw d 5 39 36
def chRelockN (d : Nat) : Nat := dw d 5 43 40
def chTimeout (d : Nat) : Nat := dw d 5 51 44
def chVar (d : Nat) : Word32 := BitVec.ofNat 32 (dw d 6 31 0)
def chScale (d : Nat) : Word32 := BitVec.ofNat 32 (dw d 6 63 32)
def chBias (d : Nat) : Word32 := BitVec.ofNat 32 (dw d 7 31 0)

/-- A channel with no arrival. -/
def Chan.fresh : Chan :=
  { seq := 0, tref := 0, sref := 0, rate := 0, per := 0, n := 0, aPrev := 0, okRun := 0, valid := false
    desync := false, relock := 0, cnt := none, conv := 0, arrivals := [] }

/-- Descriptor of a channel in the tables in force; 0, a disabled channel, where there are none. -/
def chanDesc (s : State) (n : Nat) : Nat :=
  match s.fus.tables with
  | some t => t.chans.getD n 0
  | none => 0

/-- A channel's state. -/
def chanOf (s : State) (n : Nat) : Chan := tgetD s.fus.chans n Chan.fresh

/-- Replace a channel's state; its VALID and DESYNC show in the mask registers. -/
def State.setChan (s : State) (n : Nat) (c : Chan) : State :=
  let s := { s with fus := { s.fus with chans := tset s.fus.chans n c } }
  let s := s.put FUS_CH_VALID_VALUE (withBits (s.get FUS_CH_VALID_VALUE) n n (ofBool c.valid))
  s.put FUS_CH_DESYNC_VALUE (withBits (s.get FUS_CH_DESYNC_VALUE) n n (ofBool c.desync))

/-- Enabled channels of a kind that satisfy `p`, ascending. -/
def channelsOf (s : State) (kind : Nat) (p : Nat → Bool) : List Nat :=
  (List.range 64).filter fun n =>
    let d := chanDesc s n
    chEn d && chKind d == kind && p d

/-- The channel is EXT or FEATURE: firmware owns its PROD (R324). -/
def ownsProd (s : State) (n : Nat) : Bool :=
  let d := chanDesc s n
  chEn d && (chKind d == 4 || chKind d == 5)

/-- Byte at which a kind's payload begins (R299). -/
def payloadAt (kind : Nat) : Nat := if kind ≤ 1 then 512 else 64

/-! ### Time models (R304–R306) -/

/-- The sensor stamp of an arrival, and the counter as extended (R304). `field` is the payload from byte SOFS on. -/
def sensorStamp (d : Nat) (c : Chan) (fnum : Nat) (field : List Byte) : Nat × Option Nat :=
  match chStfmt d with
  | 0 => (c.seq * chNper d / 65536 % 2 ^ 64, none)
  | 1 => (leField field 0 8, none)
  | 2 => (leField field 0 4 * 1000000000 + leField field 4 4, none)
  | f =>
    let w := if f = 3 then 16 else 32
    let v := (if chKind d = 0 then fnum else leField field 0 (w / 8)) % 2 ^ w
    let x := match c.cnt with
      | none => v
      | some x => x + (v + 2 ^ w - x % 2 ^ w) % 2 ^ w
    (x * chNper d / 65536 % 2 ^ 64, some x)

/-- A model's prediction at a stamp (R305). -/
def modelPred (c : Chan) (s : Nat) : Int :=
  let ds : Int := ((s : Int) - (c.sref : Int)) * 65536
  c.tref + ds + ds * c.rate / 2 ^ 32

/-- The arrival restarts the model though arrivals came before (R305). -/
def modelRestarts (c : Chan) (s : Nat) : Bool := 0 < c.n && (s ≤ c.sref || s - c.sref > 0x80000000)

/-- The model after an arrival with stamp `s` at `a`, and the residual e (R305). -/
def modelUpdate (d : Nat) (c : Chan) (s : Nat) (a : Int) : Chan × Int :=
  let m := a - (chLat d : Int) * 65536
  let c := if modelRestarts c s then { c with n := 0, valid := false, okRun := 0 } else c
  if c.n = 0 then
    ({ c with tref := m, sref := s, rate := 0, per := chNper d, n := 1, aPrev := a }, 0)
  else
    let pred := modelPred c s
    let e := m - pred
    let per := if 2 * (s - c.sref) * 65536 ≤ 3 * chNper d then c.per + ((a - c.aPrev) - c.per) / 16 else c.per
    ({ c with
        tref := pred + e / 2 ^ chKo d
        sref := s
        rate := clampInt (c.rate + e * (chKrm d : Int) / 2 ^ chKrs d) (-858993) 858993
        per := per, n := c.n + 1, aPrev := a }, e)

/-- QTHR (R306). -/
def qthr (d : Nat) (c : Chan) : Int := c.per * (chQmul d : Int) / 16

/-- Time of validity of the newest arrival (R305). -/
def modelTov (d : Nat) (c : Chan) : Int := c.tref + chTovOfs d * 65536

/-- A channel agrees with its peers (R308); true where fewer than two peers are VALID and not DESYNC. -/
def peersAgree (s : State) (n : Nat) (d : Nat) (c : Chan) : Bool :=
  if chPeer d = 0 then true else
  let peers := (List.range 64).filter fun q =>
    let dq := chanDesc s q
    let cq := chanOf s q
    q != n && chEn dq && chPeer dq == chPeer d && chKind dq != 3 && cq.valid && !cq.desync
  let agree := peers.filter fun q => (c.tref - modelPred (chanOf s q) c.sref).natAbs ≤ qthr d c
  peers.length < 2 || peers.length ≤ 2 * agree.length

/-- VALID and DESYNC after an arrival with residual `e` (R306–R309); the answer says whether DESYNC was entered. R307
excepts FEATURE channels from the test of `e`, and R308 excepts none from that of the peers. -/
def quarantine (s : State) (n d : Nat) (c : Chan) (e : Int) : Chan × Bool :=
  let ok : Bool := (e.natAbs : Int) ≤ qthr d c
  let run := if ok then c.okRun + 1 else 0
  let c := { c with okRun := run, valid := c.valid || chNvalid d ≤ run }
  let pass := (chKind d == 5 || ok) && peersAgree s n d c
  if c.desync then
    let r := if pass then c.relock + 1 else 0
    (if pass && chRelockN d ≤ r then { c with desync := false, relock := 0 } else { c with relock := r }, false)
  else (if pass then c else { c with desync := true, relock := 0 }, !pass)

/-! ### Records and rings (R299–R302) -/

/-- What an arrival brings beside its payload: FLAGS [2:0], FNUM, bytes per line and lines. -/
structure ArrivalInfo where
  flags : Nat
  fnum : Nat
  bpl : Nat
  lines : Nat
  deriving DecidableEq, Repr

/-- A TS128 of a time in 2^-16 ns, zero where it is not valid (R272). -/
def tsOf (s : State) (valid : Bool) (t : Int) : List Byte :=
  if valid then ts128 (!s.epochMode) t.toNat else List.replicate 16 0#8

/-- Write of a record's bytes for the channel's context; a violation also counts as a channel error (R302). -/
def ringWrite (s : State) (n addr : Nat) (bs : List Byte) : State :=
  let (s', ok) := engineWrite s 4 (chCtx (chanDesc s n)) addr bs
  if ok then s' else s'.count (SNS_CH_CNT_ERR_VALUE n) 1

/-- Address of ring slot `i` of a channel. -/
def slotAddr (d i : Nat) : Nat := chRing d + i % 2 ^ chRlog2 d * (chSlotSz d * 64)

/-- Land a record in the channel's ring (R295, R299, R300). -/
def landRecord (s : State) (n : Nat) (c : Chan) (arr tov : Int) (stamp seq : Nat) (info : ArrivalInfo)
    (payload : List Byte) : State :=
  let d := chanDesc s n
  if chRing d = 0 then s
  else
    let prod := s.get (SNS_CH_PROD_INDEX n)
    let cons := s.get (SNS_CH_CONS_INDEX n)
    if (prod + 65536 - cons) % 65536 = 2 ^ chRlog2 d then s.count (SNS_CH_CNT_DROP_VALUE n) 1
    else
      let at_ := payloadAt (chKind d)
      let room := chSlotSz d * 64 - at_
      let landed := payload.take room
      let trunc := room < payload.length
      let flags := info.flags ||| (ofBool trunc * 4 + ofBool c.desync * 8 + ofBool c.valid * 16)
      let lines := if info.bpl = 0 then info.lines else min info.lines (landed.length / info.bpl)
      let header := padBytes 64 (tsOf s true arr ++ tsOf s c.valid tov ++ leBytes 4 seq ++ leBytes 4 landed.length ++
        leBytes 2 info.fnum ++ leBytes 2 lines ++ leBytes 4 flags ++ leBytes 8 stamp)
      let a := slotAddr d prod
      let s := ringWrite s n a header
      let s := if landed = [] then s else ringWrite s n (a + at_) landed
      s.put (SNS_CH_PROD_INDEX n) (prod + 1)

/-- FP32 words from byte `i` of a record on. -/
def f32s (bs : List Byte) (i n : Nat) : List Word32 :=
  (List.range n).map fun k => BitVec.ofNat 32 (leField bs (i + 4 * k) 4)

/-- An arrival that a snapshot of either engine has passed over by less than an output period is counted (R311). -/
def countLate (s : State) (arr : Int) : State :=
  let passed := fun (t : Int) => t < arr && arr - t < (s.get FUS_OUT_PERIOD : Int) * 65536
  onIf (s.fus.lastSlot.any passed || s.fus.lastGrid.any passed) (·.count (FUS_CNT_VALUE 2) 1) s

/-- The channel is channel 0 of the EGO slot (R320). -/
def isEgoImu (s : State) (n : Nat) : Bool :=
  match s.fus.tables with
  | some t => t.slots.any fun e => leField e 0 1 == 3 && leField e 4 1 == n
  | none => false

/-- The fusion unit holds an arrival until no snapshot can take it (R311), and its channel's source pulses (R392). IMU
samples of the EGO slot gather until its next instant (R320). -/
def holdArrival (s : State) (n : Nat) (c : Chan) (a : Arrival) : State :=
  let s := (s.setChan n { c with arrivals := c.arrivals ++ [a] }).pulse (512 + n)
  let s := countLate s a.arr
  if isEgoImu s n && c.valid && !c.desync then
    { s with fus := { s.fus with ego := { s.fus.ego with imu := s.fus.ego.imu ++ [a] } } }
  else s

/-- An arrival on a channel with a time model: it is stamped, updates the model and the quarantine, and lands
(R295–R309). `ring` is the ring index of an EXT or FEATURE record, `field` the payload from byte SOFS on. -/
def arriveAt (s : State) (n : Nat) (arr : Int) (ring : Option Nat) (info : ArrivalInfo) (payload field : List Byte) :
    State :=
  let d := chanDesc s n
  let c := chanOf s n
  let (stamp, cnt) := sensorStamp d c info.fnum field
  let s := onIf (modelRestarts c stamp) (fun s => s.count (SNS_CH_CNT_ERR_VALUE n) 1) s
  let seq := c.seq
  let (c, e) := modelUpdate d { c with seq := (seq + 1) % 2 ^ 32, cnt := cnt } stamp arr
  let (c, entered) := quarantine s n d c e
  let s := onIf entered (fun s => (s.count (FUS_CNT_VALUE 0) 1).setOn FUS_EVT_DESYNC) s
  let tov := modelTov d c
  let s := match ring with
    | some _ => s
    | none => landRecord s n c arr tov stamp seq info payload
  let meas := if payloadAt (chKind d) = 64 then f32s payload 0 16
    else (List.range 16).map fun k => (Config.freeWord (s.free + k)).setWidth 32
  let s := if payloadAt (chKind d) = 64 then s else { s with free := s.free + 16 }
  holdArrival s n c { arr := arr, tov := tov, ring := ring, meas := meas, used := false }

/-- An arrival whose whole payload came with it. -/
def arrive (s : State) (n : Nat) (arr : Int) (ring : Option Nat) (info : ArrivalInfo) (payload : List Byte) : State :=
  arriveAt s n arr ring info payload (payload.drop (chSofs (chanDesc s n)))

/-! ### Ports -/

/-- Data types a CSI-2 port supports (R294): RAW8, RAW10, RAW12, RAW14, RAW16, YUV422 8-bit, embedded 8-bit. -/
def csiTypes : List Nat := [0x2A, 0x2B, 0x2C, 0x2D, 0x2E, 0x1E, 0x12]

/-- CSI2_FRAME (R273, R295): the end of a frame of a port with data identifier `id` (data type, and 64 times the virtual
channel), whose frame-start short packet
ended at presented nanosecond `ts`. `ecc % 65536` headers were corrected,
`ecc / 65536` packets had an uncorrectable header and are missing from `data`, and `crcErr` long packets failed their
payload CRC. -/
def execCsi2Frame (p ts id fnum lines bpl ecc crcErr : Nat) (data : List Byte) (s : State) :
    Host.Outcome State Fault Refusal :=
  finish s (
    if !csiOn s p ∨ id % 64 ∉ csiTypes ∨ 256 ≤ id then s
    else
      let fixed := ecc % 65536
      let s := s.count SNS_CNT_ECC_VALUE fixed
      let s := s.count SNS_CNT_CRC_VALUE (ecc / 65536 + crcErr)
      let info : ArrivalInfo :=
        { flags := ofBool (crcErr ≠ 0) + 2 * ofBool (fixed ≠ 0), fnum := fnum % 65536, bpl := bpl, lines := lines }
      (channelsOf s 0 fun d => chPort d == p && chVc d == id / 64 && chDt d == id % 64).foldl
        (fun s n => arrive s n ((ts * 65536 : Nat) : Int) none info data) s)

/-- EtherType of a frame after any 802.1Q tag, and where its payload begins. -/
def etherType (frame : List Byte) : Nat × Nat :=
  let t := beNat ((frame.drop 12).take 2)
  if t = 0x8100 then (beNat ((frame.drop 16).take 2), 18) else (t, 14)

/-- UDP destination port of an IPv4 frame with a 20-byte header (R296). -/
def udpPort (frame : List Byte) : Option Nat :=
  let (t, o) := etherType frame
  if t = 0x0800 ∧ leField frame o 1 = 0x45 ∧ leField frame (o + 9) 1 = 17 then
    some (beNat ((frame.drop (o + 22)).take 2)) else none

/-- A frame without its FCS that R470 drops for its FCS (0) or its length (1). -/
def ethDropKind (p : Nat) (fcsOk : Bool) (frame : List Byte) : Option Nat :=
  let n := frame.length + 4
  if !fcsOk then some 0 else if n < 64 ∨ (if p < 4 then 9216 else 1518) < n then some 1 else none

/-- ETH_SENSOR_FRAME (R296, R470): a frame without its FCS arrives on a 10GBASE-T1 port at nanosecond `ts`; PTP frames go
to the network path. -/
def execEthSensorFrame (port ts : Nat) (fcsOk : Bool) (frame : List Byte) (s : State) :
    Host.Outcome State Fault Refusal :=
  finish s (
    if !s.on SNS_CTRL_ENABLE ∨ 4 ≤ port then s
    else if ethDropKind port fcsOk frame ≠ none then
      s.count (FLD_ETH_CNT_VALUE port ((ethDropKind port fcsOk frame).getD 0)) 1
    else if (etherType frame).1 = 0x88F7 then s
    else match channelsOf s 1 fun d => chPort d == port && chEtype d == (etherType frame).1 &&
        (chUdpp d == 0 || udpPort frame == some (chUdpp d)) with
      | [] => s.count SNS_CNT_NOMATCH_VALUE 1
      | n :: _ => arrive s n ((ts * 65536 : Nat) : Int) none { flags := 0, fnum := 0, bpl := 0, lines := 0 } frame)

/-- Channels an IMU port feeds. -/
def imuChannels (s : State) (q : Nat) : List Nat := channelsOf s 2 fun d => chPort d == q

/-- IMU_DATA_READY (R297): the active edge starts a transaction, or is counted while one runs. -/
def execImuDataReady (q : Nat) (rising : Bool) (s : State) : Host.Outcome State Fault Refusal :=
  finish s (
    if !s.on SNS_CTRL_ENABLE ∨ 4 ≤ q ∨ s.get (SNS_IMU_CFG_BURST q) = 0 ∨ s.on (SNS_IMU_CFG_DRPOL q) ≠ rising then s
    else match tget s.fus.spi q with
      | some _ => (imuChannels s q).foldl (fun s n => s.count (SNS_CH_CNT_ERR_VALUE n) 1) s
      | none =>
        let cmd := (leBytes 4 (s.get (SNS_IMU_CFG_CMD q))).take (s.get (SNS_IMU_CFG_CMDLEN q))
        { s.send (.spi q cmd) with fus := { s.fus with spi := tset s.fus.spi q s.nowNs } })

/-- IMU_BURST_COMPLETE (R297): the bytes of the running transaction land. -/
def execImuBurstComplete (q : Nat) (data : List Byte) (s : State) : Host.Outcome State Fault Refusal :=
  finish s (
    match tget s.fus.spi q with
    | none => s
    | some t =>
      let s := { s with fus := { s.fus with spi := tdel s.fus.spi q } }
      let bs := padBytes (min 64 (s.get (SNS_IMU_CFG_BURST q))) data
      (imuChannels s q).foldl (fun s n =>
        arrive s n ((t * 65536 : Nat) : Int) none { flags := 0, fnum := 0, bpl := 0, lines := 0 } bs) s)

/-- An analog channel takes a conversion (R298, R306): code and value, every DECIM-th; the channel is VALID from its
first conversion. -/
def analogTake (s : State) (n : Nat) (t : Nat) (code : Int) : State :=
  let d := chanDesc s n
  let c := chanOf s n
  let c := { c with conv := c.conv + 1, valid := true }
  if c.conv % max 1 (chDecim d) ≠ 0 then s.setChan n c
  else
    let v := fma (f32OfInt code) (chScale d) (chBias d)
    let seq := c.seq
    let (stamp, cnt) := sensorStamp d c 0 []
    let c := { c with seq := (seq + 1) % 2 ^ 32, cnt := cnt, aPrev := t }
    let tov : Int := (t : Int) + chTovOfs d * 65536
    let s := landRecord s n c t tov stamp seq { flags := 0, fnum := 0, bpl := 0, lines := 0 }
      (leBytes 4 (codeOf 32 code) ++ leBytes 4 v.toNat)
    holdArrival s n c { arr := t, tov := tov, ring := none, meas := [v], used := false }

/-- CONVERSION_RESULT (R298): the codes of the conversion in progress; bit i of `ok` says that input i has one. -/
def execConversionResult (codes : List Int) (ok : Nat) (s : State) : Host.Outcome State Fault Refusal :=
  finish s (
    match s.fus.conv with
    | none => s
    | some (t, start) =>
      if s.cyc < start + 500 then s else
      let s := { s with fus := { s.fus with conv := none } }
      (setBitsOf 8 ok).foldl (fun s i =>
        (channelsOf s 3 fun d => chPort d == i).foldl (fun s n =>
          analogTake s n t (clampInt (codes.getD i 0) (-131072) 131071)) s) s)

/-- A write of PROD of an EXT or FEATURE channel (R301): ARR is written into the record it publishes, and the arrival
updates the model. The stamp's field and the measurement are read from the record. -/
def prodWritten (n old new : Nat) (s : State) : State :=
  let d := chanDesc s n
  if !ownsProd s n ∨ new = old then s
  else
    let i := (new + 65535) % 65536
    let arr : Int := (s.now16 : Int)
    let a := slotAddr d i
    let s := if chRing d = 0 then s else ringWrite s n a (tsOf s true arr)
    let take := fun (s : State) (at_ len : Nat) => if chRing d = 0 then (s, 0, []) else engineRead s 4 (chCtx d) (a + at_) len
    let (s, _, payload) := take s 64 64
    let (s, _, field) := if chStfmt d = 0 then (s, 0, []) else take s (64 + chSofs d) 8
    arriveAt s n arr (some i) { flags := 0, fnum := 0, bpl := 0, lines := 0 } payload field

/-- MODEL_TIMEOUT (R306): no arrival within TIMEOUT × PER of the last. -/
def execModelTimeout (n : Nat) (s : State) : Host.Outcome State Fault Refusal :=
  finish s (
    let d := chanDesc s n
    let c := chanOf s n
    if 64 ≤ n ∨ !chEn d ∨ chKind d = 3 ∨ !c.valid ∨ (s.now16 : Int) - c.aPrev ≤ (chTimeout d : Int) * c.per then s
    else s.setChan n { c with valid := false })

end Sys2Proof.Machine
end

