-- ==== Sys2Proof/Machine/Solve.lean ====
section
/-! DEFINITION. The arithmetic of the batch solver (R333–R339): compensated sums, the factorisation, the
Levenberg–Marquardt iteration, dense problems and bundle adjustment. Vectors and matrices are lists, rows first. -/

namespace Sys2Proof.Machine

open Sys2Proof

/-- `+0`. -/
def f0 : Word32 := 0#32
/-- `1`. -/
def f1 : Word32 := 0x3F800000#32

/-- Component `i` of a vector. -/
def vAt (v : List Word32) (i : Nat) : Word32 := v.getD i f0

/-- Entry `(i, j)` of a matrix. -/
def mAt (m : List (List Word32)) (i j : Nat) : Word32 := vAt (m.getD i []) j

/-- vrecip on words. -/
def flRecip (x : Word32) : Word32 := (vrecip (x, false)).1

/-- A compensated sum (R335): the pair `s`, `c`. -/
abbrev CSum := Word32 × Word32

/-- One addition of csum. -/
def csum (a : CSum) (t : Word32) : CSum :=
  let u := flAdd a.1 t
  let bp := flAdd u (flNeg a.1)
  let e := flAdd (flAdd a.1 (flNeg (flAdd u (flNeg bp)))) (flAdd t (flNeg bp))
  (u, flAdd a.2 e)

/-- The value of a compensated sum. -/
def csVal (a : CSum) : Word32 := flAdd a.1 a.2

/-- Sum from +0 of rounded products, in ascending order. -/
def dotAdd (a b : List Word32) : Word32 :=
  (List.zipWith flMul a b).foldl flAdd f0

/-- A cross product (R333): fl_add(fl_mul, −fl_mul) by component. -/
def cross (a b : List Word32) : List Word32 :=
  let m := fun i j => flAdd (flMul (vAt a i) (vAt b j)) (flNeg (flMul (vAt a j) (vAt b i)))
  [m 1 2, m 2 0, m 0 1]

/-! ### Factorisation (R336) -/

/-- Column `j` of the factorisation: the pivots and the columns of L so far (column k lists L_ik from i = 0), and
whether a pivot was replaced. -/
def ldltStep (a : List (List Word32)) (pfloor : Word32) (n : Nat)
    (acc : List Word32 × List (List Word32) × Bool) (j : Nat) : List Word32 × List (List Word32) × Bool :=
  let (d, l, reg) := acc
  let sub := fun (start : Word32) (i : Nat) => (List.range j).foldl (fun v k =>
    flAdd v (flNeg (flMul (flMul (mAt l k i) (mAt l k j)) (vAt d k)))) start
  let dj := sub (mAt a j j) j
  let bad := !flLe pfloor dj
  let dj := if bad then pfloor else dj
  let r := flRecip dj
  let col := (List.range n).map fun i =>
    if i < j then f0 else if i = j then f1 else flMul (sub (mAt a (max i j) (min i j)) i) r
  (d ++ [dj], l ++ [col], reg || bad)

/-- ldlt_solve (R336): the solution of `a x = b`, and REGULARISED. Of `a` the entries `(i, j)`, `j ≤ i`, are
read. -/
def ldltSolve (a : List (List Word32)) (b : List Word32) (pfloor : Word32) : List Word32 × Bool :=
  let n := b.length
  let (d, l, reg) := (List.range n).foldl (ldltStep a pfloor n) ([], [], false)
  let y := (List.range n).foldl (fun y i =>
    y ++ [(List.range i).foldl (fun v k => flAdd v (flNeg (flMul (mAt l k i) (vAt y k)))) (vAt b i)]) []
  let z := (List.range n).map fun i => flMul (vAt y i) (flRecip (vAt d i))
  let x := (List.range n).foldl (fun (x : List Word32) t =>
    let i := n - 1 - t
    (((List.range (n - 1 - i)).foldl (fun v k =>
      flAdd v (flNeg (flMul (mAt l i (i + 1 + k)) (vAt x k)))) (vAt z i)) :: x)) []
  (x, reg)

/-! ### Poses (R333, R335) -/

/-- The rotation matrix of a unit quaternion (w, x, y, z) = (a, b, c, d). -/
def rotOf (q : List Word32) : List (List Word32) :=
  let a := vAt q 0; let b := vAt q 1; let c := vAt q 2; let d := vAt q 3
  let dbl := fun v => scale2 v 1
  let diag := fun u v => flAdd f1 (flNeg (dbl (flAdd (flMul u u) (flMul v v))))
  let off := fun u v s t => dbl (flAdd (flMul u v) (flMul s t))
  let offm := fun u v s t => dbl (flAdd (flMul u v) (flNeg (flMul s t)))
  [[diag c d, offm b c a d, off b d a c],
   [off b c a d, diag b d, offm c d a b],
   [offm b d a c, off c d a b, diag b c]]

/-- `R p`, row by row. -/
def rotate (r : List (List Word32)) (p : List Word32) : List Word32 :=
  r.map fun row => fma (vAt row 2) (vAt p 2) (fma (vAt row 1) (vAt p 1) (flMul (vAt row 0) (vAt p 0)))

/-- The candidate pose for a correction (R335): quaternion and translation. -/
def poseUpdate (x d : List Word32) : List Word32 :=
  let h := fun i => scale2 (vAt d i) (-1)
  let w := f1; let a := h 0; let b := h 1; let c := h 2
  let q0 := vAt x 0; let q1 := vAt x 1; let q2 := vAt x 2; let q3 := vAt x 3
  let sum := fun (t : List Word32) => match t with | [] => f0 | u :: us => us.foldl flAdd u
  let m := flMul
  let q := [sum [m w q0, flNeg (m a q1), flNeg (m b q2), flNeg (m c q3)],
    sum [m w q1, m a q0, m b q3, flNeg (m c q2)],
    sum [m w q2, flNeg (m a q3), m b q0, m c q1],
    sum [m w q3, m a q2, flNeg (m b q1), m c q0]]
  let r := (vrsqrt (sum (q.map fun v => m v v), false)).1
  q.map (m · r) ++ (List.range 3).map fun i => flAdd (vAt x (4 + i)) (vAt d (3 + i))

/-! ### Dense problems (R332–R335) -/

/-- A dense problem: kind, unknowns, iterations, prior means and weights, λ and pivot floor at the start, X0, and its
records. -/
structure Dense where
  kind : Nat
  n : Nat
  iter : Nat
  prior : Option (List Word32 × List Word32)
  lam : Word32
  pfloor : Word32
  x0 : List Word32
  recs : List (List Word32)
  deriving DecidableEq, Repr

/-- Residual rows of a record at `x`: weight, residual, Jacobian row (R332, R333). -/
def residRows (kind n : Nat) (x : List Word32) (r : List (List Word32)) (rec : List Word32) :
    List (Word32 × Word32 × List Word32) :=
  if kind = 0 then
    let a := rec.take n
    [(vAt rec (n + 1), flAdd (dotAdd a x) (flNeg (vAt rec n)), a)]
  else
    let p := rotate r (rec.take 3)
    let t := (List.range 3).map fun i => vAt x (4 + i)
    let e := (List.range 3).map fun i => flAdd (flAdd (vAt p i) (vAt t i)) (flNeg (vAt rec (3 + i)))
    if kind = 1 then
      let neg := fun i => flNeg (vAt p i)
      [(vAt rec 6, vAt e 0, [f0, vAt p 2, neg 1, f1, f0, f0]),
       (vAt rec 6, vAt e 1, [neg 2, f0, vAt p 0, f0, f1, f0]),
       (vAt rec 6, vAt e 2, [vAt p 1, neg 0, f0, f0, f0, f1])]
    else
      let n := (rec.drop 6).take 3
      [(vAt rec 9, dotAdd n e, cross p n ++ n)]

/-- Rotation matrix of the pose kinds; nothing for LINEAR. -/
def denseRot (p : Dense) (x : List Word32) : List (List Word32) := if p.kind = 0 then [] else rotOf x

/-- The cost at `x`, with the prior acting on `s` (R334, R335). -/
def denseCost (p : Dense) (x s : List Word32) : Word32 :=
  let r := denseRot p x
  let c := p.recs.foldl (fun c rec => (residRows p.kind p.n x r rec).foldl (fun c row =>
    csum c (flMul (flMul row.1 row.2.1) row.2.1)) c) (f0, f0)
  let c := match p.prior with
    | none => c
    | some (mu, om) => (List.range p.n).foldl (fun c j =>
        let dv := flAdd (vAt s j) (flNeg (vAt mu j))
        csum c (flMul (flMul (vAt om j) dv) dv)) c
  csVal c

/-- H (entries `(k, j)`, `j ≤ k`) and g at `x` (R335). -/
def linearise (p : Dense) (x s : List Word32) : List (List Word32) × List Word32 :=
  let r := denseRot p x
  let n := p.n
  let z : CSum := (f0, f0)
  let h0 := (List.range n).map fun k => List.replicate (k + 1) z
  let g0 := List.replicate n z
  let add := fun (hg : List (List CSum) × List CSum) (row : Word32 × Word32 × List Word32) =>
    let wj := row.2.2.map fun v => flMul row.1 v
    (hg.1.mapIdx fun k (hr : List CSum) => hr.mapIdx fun j a => csum a (flMul (vAt wj j) (vAt row.2.2 k)),
     hg.2.mapIdx fun j a => csum a (flMul (vAt wj j) row.2.1))
  let hg := p.recs.foldl (fun hg rec => (residRows p.kind n x r rec).foldl add hg) (h0, g0)
  let hg : List (List CSum) × List CSum := match p.prior with
    | none => hg
    | some (mu, om) =>
      (hg.1.mapIdx fun k (hr : List CSum) => hr.mapIdx fun j a => if j = k then csum a (vAt om j) else a,
       hg.2.mapIdx fun j a => csum a (flMul (vAt om j) (flAdd (vAt s j) (flNeg (vAt mu j)))))
  (hg.1.map fun hr => hr.map csVal, hg.2.map csVal)

/-- Diagonal entries damped by λ (R335). -/
def dampDiag (h : List (List Word32)) (lam : Word32) : List (List Word32) :=
  h.mapIdx fun k hr => hr.mapIdx fun j a => if j = k then fma a lam a else a

/-- λ after an accepted and after a rejected candidate: LDOWN, 4, and their bounds 2^−40 and 2^40. -/
def lamDown (lam : Word32) : Word32 :=
  let v := flMul lam 0x3EAAAAAB#32
  if flLt v 0x2B800000#32 then 0x2B800000#32 else v
def lamUp (lam : Word32) : Word32 :=
  let v := flMul lam 0x40800000#32
  if flLt 0x53800000#32 v then 0x53800000#32 else v

/-- The state of an iteration: x, s, cost, λ, accepted iterations, REGULARISED. -/
structure LmState where
  x : List Word32
  s : List Word32
  c : Word32
  lam : Word32
  acc : Nat
  reg : Bool
  deriving DecidableEq, Repr

/-- One iteration of R335. -/
def denseIter (p : Dense) (t : LmState) : LmState :=
  let (h, g) := linearise p t.x t.s
  let (d, reg) := ldltSolve (dampDiag h t.lam) (g.map flNeg) p.pfloor
  let xc := if p.kind = 0 then List.zipWith flAdd t.x d else poseUpdate t.x d
  let sc := if p.kind = 0 then xc else List.zipWith flAdd t.s d
  let cc := denseCost p xc sc
  if flLt cc t.c then { x := xc, s := sc, c := cc, lam := lamDown t.lam, acc := t.acc + 1, reg := t.reg || reg }
  else { t with lam := lamUp t.lam, reg := t.reg || reg }

/-- A dense problem solved from a start (R335): the cost at the start and the end of the iterations. -/
def denseSolve (p : Dense) (x : List Word32) (lam : Word32) : Word32 × LmState :=
  let s := if p.kind = 0 then x else List.replicate 6 f0
  let c := denseCost p x s
  (c, forUpTo p.iter (fun _ t => denseIter p t) { x := x, s := s, c := c, lam := lam, acc := 0, reg := false })

/-! ### Bundle adjustment (R337–R339) -/

/-- A camera: pose (7 words), intrinsics fx, fy, cx, cy, and FIX. -/
structure Camera where
  pose : List Word32
  intr : List Word32
  fix : Bool
  deriving DecidableEq, Repr

/-- An observation: camera, point, u, v, w. -/
structure Obs where
  cam : Nat
  pt : Nat
  u : Word32
  v : Word32
  w : Word32
  deriving DecidableEq, Repr

/-- A bundle adjustment. -/
structure Bundle where
  iter : Nat
  cgiter : Nat
  lam : Word32
  pfloor : Word32
  cams : List Camera
  pts : List (List Word32)
  obs : List Obs
  deriving DecidableEq, Repr

/-- Xc of an observation (R338). -/
def baPoint (c : Camera) (p : List Word32) : List Word32 :=
  let rx := rotate (rotOf c.pose) p
  (List.range 3).map fun i => flAdd (vAt rx i) (vAt c.pose (4 + i))

/-- The observations that contribute in an iteration that is linearised at these cameras and points: those with Zc above
+0 (R338). -/
def baSeen (cams : List Camera) (pts : List (List Word32)) (obs : List Obs) : List Obs :=
  obs.filter fun o => match cams[o.cam]? with
    | none => false
    | some c => flLt f0 (vAt (baPoint c (pts.getD o.pt [])) 2)

/-- What an observation contributes: residual, camera Jacobian and point Jacobian, two rows each (R338). -/
def baObs (c : Camera) (p : List Word32) (o : Obs) : List Word32 × List (List Word32) × List (List Word32) :=
  let r := rotOf c.pose
  let rx := rotate r p
  let xc := baPoint c p
  let iz := flRecip (vAt xc 2)
  let fx := vAt c.intr 0; let fy := vAt c.intr 1
  let proj := fun f x cc => flAdd (flMul (flMul f x) iz) cc
  let res := [flAdd (proj fx (vAt xc 0) (vAt c.intr 2)) (flNeg o.u),
    flAdd (proj fy (vAt xc 1) (vAt c.intr 3)) (flNeg o.v)]
  let iz2 := flMul iz iz
  let dp := [[flMul fx iz, f0, flNeg (flMul (flMul fx (vAt xc 0)) iz2)],
    [f0, flMul fy iz, flNeg (flMul (flMul fy (vAt xc 1)) iz2)]]
  let n := fun i => flNeg (vAt rx i)
  let dw := [[f0, vAt rx 2, n 1, f1, f0, f0], [n 2, f0, vAt rx 0, f0, f1, f0],
    [vAt rx 1, n 0, f0, f0, f0, f1]]
  let mul := fun (m : List (List Word32)) (cols : Nat) => dp.map fun row =>
    (List.range cols).map fun j => dotAdd row (m.map fun mr => vAt mr j)
  (res, mul dw 6, mul r 3)

/-- Cost of the observations that contribute. -/
def baCost (cams : List Camera) (pts : List (List Word32)) (obs : List Obs) : Word32 :=
  let c := obs.foldl (fun c o =>
    match cams[o.cam]? with
    | none => c
    | some cam => (baObs cam (pts.getD o.pt []) o).1.foldl (fun c r => csum c (flMul (flMul o.w r) r)) c) (f0, f0)
  csVal c

/-- Add a block `Σ_rows w a bᵀ` to compensated blocks, row by row of the residual. -/
def blockAdd (m : List (List CSum)) (w : Word32) (a b : List (List Word32)) : List (List CSum) :=
  (List.zip a b).foldl (fun m ab => m.mapIdx fun i mr => mr.mapIdx fun j s =>
    csum s (flMul (flMul w (vAt ab.1 i)) (vAt ab.2 j))) m

/-- Zero compensated block. -/
def blockZero (r c : Nat) : List (List CSum) := List.replicate r (List.replicate c (f0, f0))

/-- Values of a compensated block. -/
def blockVal (m : List (List CSum)) : List (List Word32) := m.map fun r => r.map csVal

/-- A matrix times a vector, and its transpose times a vector. -/
def mulVec (m : List (List Word32)) (v : List Word32) : List Word32 := m.map fun r => dotAdd r v
def mulVecT (m : List (List Word32)) (v : List Word32) (n : Nat) : List Word32 :=
  (List.range n).map fun j => dotAdd (m.map fun r => vAt r j) v

/-- Component-wise sum and difference of vectors. -/
def vecAdd (a b : List Word32) : List Word32 := List.zipWith flAdd a b
def vecSub (a b : List Word32) : List Word32 := List.zipWith (fun x y => flAdd x (flNeg y)) a b

/-- The inverse of a symmetric block by R336, columns solved in order, and REGULARISED. -/
def blockInv (a : List (List Word32)) (pfloor : Word32) : List (List Word32) × Bool :=
  let n := a.length
  let cols := (List.range n).map fun j =>
    ldltSolve a ((List.range n).map fun i => if i = j then f1 else f0) pfloor
  ((List.range n).map fun i => cols.map fun c => vAt c.1 i, cols.any fun c => c.2)

/-- `w Jaᵀ Jb` of one observation as plain products. -/
def outer (w : Word32) (a b : List (List Word32)) (r c : Nat) : List (List Word32) :=
  blockVal (blockAdd (blockZero r c) w a b)

/-- A compensated sum of vectors of `n` components, in the order given (R339). -/
def vecSum (n : Nat) (vs : List (List Word32)) : List Word32 :=
  (vs.foldl (fun (a : List CSum) v => a.mapIdx fun i c => csum c (vAt v i)) (List.replicate n (f0, f0))).map csVal

/-- `S v` of R339 over the cameras' vectors: of each camera, U v less the sum over its observations, in order, of
Wo Vinv[pt] Woᵀ v. -/
def schurMul (u : List (List (List Word32))) (vinv : List (List (List Word32)))
    (wo : List (Nat × Nat × List (List Word32))) (v : List (List Word32)) : List (List Word32) :=
  (List.zipWith mulVec u v).mapIdx fun i a =>
    vecSub a (vecSum 6 ((wo.filter fun o => o.1 == i).map fun o =>
      mulVec o.2.2 (mulVec (vinv.getD o.2.1 []) (mulVecT o.2.2 (v.getD i []) 3))))

/-- `Σ aᵢ · bᵢ` over the cameras' vectors. -/
def dotAll (a b : List (List Word32)) : Word32 := dotAdd a.flatten b.flatten

/-- State of the conjugate-gradient loop: solution, residual, direction, preconditioned product, stopped. -/
structure CgState where
  x : List (List Word32)
  r : List (List Word32)
  p : List (List Word32)
  rz : Word32
  stop : Bool
  deriving DecidableEq, Repr

/-- One iteration of pcg (R339): one whose pᵀSp is not above +0, or not finite, changes nothing, nor does any
later one. -/
def cgIter (mul pre : List (List Word32) → List (List Word32)) (t : CgState) : CgState :=
  if t.stop then t else
  let sp := mul t.p
  let psp := dotAll t.p sp
  if !flLt f0 psp || !f32IsFinite psp then { t with stop := true } else
  let alpha := flMul t.rz (flRecip psp)
  let axpy := fun (k : Word32) (a b : List (List Word32)) =>
    List.zipWith (fun u v => List.zipWith (fun x y => fma k x y) u v) a b
  let x := axpy alpha t.p t.x
  let r := axpy (flNeg alpha) sp t.r
  let z := pre r
  let rz := dotAll r z
  let beta := flMul rz (flRecip t.rz)
  { x := x, r := r, p := axpy beta t.p z, rz := rz, stop := false }

/-- State of a bundle adjustment: cameras, points, cost, λ, accepted, REGULARISED, skipped observations. -/
structure BaState where
  cams : List Camera
  pts : List (List Word32)
  c : Word32
  lam : Word32
  acc : Nat
  reg : Bool
  skip : Nat
  deriving DecidableEq, Repr

/-- One iteration of R339. -/
def baIter (b : Bundle) (t : BaState) : BaState :=
  let ncam := t.cams.length
  let seen := baSeen t.cams t.pts b.obs
  let lin := seen.filterMap fun o => (t.cams[o.cam]?).map fun cam => (o, cam.fix, baObs cam (t.pts.getD o.pt []) o)
  let skip := b.obs.length - seen.length
  let perCam := fun (i : Nat) => lin.filter fun l => l.1.cam == i
  let perPt := fun (i : Nat) => lin.filter fun l => l.1.pt == i
  let col := fun (r : List Word32) => r.map fun x => [x]
  let rhs := fun (m : List (List CSum)) => (blockVal m).map fun r => vAt r 0
  let fixAt := fun i => match t.cams[i]? with | some c => c.fix | none => false
  let ident := (List.range 6).map fun i => (List.range 6).map fun j => if i = j then f1 else f0
  let us := (List.range ncam).map fun i =>
    if fixAt i then ident else
    dampDiag (blockVal ((perCam i).foldl (fun m l => blockAdd m l.1.w l.2.2.2.1 l.2.2.2.1) (blockZero 6 6))) t.lam
  let bc := (List.range ncam).map fun i =>
    if fixAt i then List.replicate 6 f0 else
    rhs ((perCam i).foldl (fun m l => blockAdd m l.1.w l.2.2.2.1 (col l.2.2.1)) (blockZero 6 1))
  let vs := (List.range t.pts.length).map fun i =>
    blockInv (dampDiag (blockVal ((perPt i).foldl (fun m l => blockAdd m l.1.w l.2.2.2.2 l.2.2.2.2)
      (blockZero 3 3))) t.lam) b.pfloor
  let vinv := vs.map (·.1)
  let bp := (List.range t.pts.length).map fun i =>
    rhs ((perPt i).foldl (fun m l => blockAdd m l.1.w l.2.2.2.2 (col l.2.2.1)) (blockZero 3 1))
  let wo := lin.map fun l =>
    (l.1.cam, l.1.pt, if l.2.1 then List.replicate 6 [f0, f0, f0] else outer l.1.w l.2.2.2.1 l.2.2.2.2 6 3)
  let rc := (List.range ncam).map fun i => vecAdd ((bc.getD i []).map flNeg)
    (vecSum 6 ((wo.filter fun o => o.1 == i).map fun o => mulVec o.2.2 (mulVec (vinv.getD o.2.1 []) (bp.getD o.2.1 []))))
  let mul := schurMul us vinv wo
  -- M: the 6 × 6 diagonal blocks of S
  let blocks := (List.range ncam).map fun i => (List.range 6).map fun r => (List.range 6).map fun k =>
    vAt ((mul ((List.range ncam).map fun c => (List.range 6).map fun q =>
      if c = i ∧ q = k then f1 else f0)).getD i []) r
  let pre := fun (r : List (List Word32)) => List.zipWith (fun m v => (ldltSolve m v b.pfloor).1) blocks r
  let preReg := (List.zipWith (fun m v => (ldltSolve m v b.pfloor).2) blocks rc).any id
  let z := pre rc
  let dc := (forUpTo b.cgiter (fun _ t => cgIter mul pre t)
    { x := List.replicate ncam (List.replicate 6 f0), r := rc, p := z, rz := dotAll rc z, stop := false }).x
  let dp := (List.range t.pts.length).map fun i =>
    mulVec (vinv.getD i []) (vecSub ((bp.getD i []).map flNeg)
      (vecSum 3 ((wo.filter fun o => o.2.1 == i).map fun o => mulVecT o.2.2 (dc.getD o.1 []) 3)))
  let cams := List.zipWith (fun c d => if c.fix then c else { c with pose := poseUpdate c.pose d }) t.cams dc
  let pts := List.zipWith vecAdd t.pts dp
  let cc := baCost cams pts seen
  let reg := t.reg || vs.any (·.2) || preReg
  if flLt cc t.c then
    { cams := cams, pts := pts, c := cc, lam := lamDown t.lam, acc := t.acc + 1, reg := reg, skip := t.skip + skip }
  else { t with lam := lamUp t.lam, reg := reg, skip := t.skip + skip }

/-- A bundle adjustment of `iters` iterations from a start (R339). -/
def baSolve (b : Bundle) (iters : Nat) (cams : List Camera) (pts : List (List Word32)) (lam : Word32) :
    Word32 × BaState :=
  let c := baCost cams pts (baSeen cams pts b.obs)
  (c, forUpTo iters (fun _ t => baIter b t)
    { cams := cams, pts := pts, c := c, lam := lam, acc := 0, reg := false, skip := 0 })

end Sys2Proof.Machine
end

