-- ==== Sys2Proof/Machine/Solver.lean ====
section
/-! DEFINITION. The batch solver: batches, problems in memory, warm starts, results and timing (R327–R332, R337,
R340–R349). -/

namespace Sys2Proof.Machine

open Sys2Proof Sys2Proof.Machine.Reg

/-- `n` FP32 words from byte `i` of a run. -/
def words32 (bs : List Byte) (i n : Nat) : List Word32 :=
  (List.range n).map fun k => BitVec.ofNat 32 (leField bs (i + 4 * k) 4)

/-- Bytes of FP32 words. -/
def wordBytes (ws : List Word32) : List Byte := ws.flatMap fun w => leBytes 4 w.toNat

/-- `n` rounded up to a multiple of 64. -/
def up64 (n : Nat) : Nat := (n + 63) / 64 * 64

/-- Positive and finite. -/
def f32PosFinite (w : Word32) : Bool := f32IsFinite w && flLt f0 w

/-! ### Dense problems in memory (R332, R333) -/

def dnKind (b : List Byte) : Nat := leField b 0 1
def dnN (b : List Byte) : Nat := leField b 1 1
def dnIter (b : List Byte) : Nat := leField b 2 1
def dnOpt (b : List Byte) : Nat := leField b 3 1
def dnM (b : List Byte) : Nat := leField b 4 4
def dnLam (b : List Byte) : Word32 := BitVec.ofNat 32 (leField b 8 4)
def dnFloor (b : List Byte) : Word32 := BitVec.ofNat 32 (leField b 12 4)

/-- FP32 words of a record of a kind. -/
def recWords (kind n : Nat) : Nat := if kind = 0 then n + 2 else if kind = 1 then 7 else 10

/-- Words of X of a kind. -/
def xWords (kind n : Nat) : Nat := if kind = 0 then n else 7

/-- Offsets of prior and records, and the length of the whole problem. -/
def denseParts (b : List Byte) : Nat × Nat × Nat :=
  let prior := 64 + up64 (4 * xWords (dnKind b) (dnN b))
  let recs := prior + (if dnOpt b % 2 = 1 then up64 (8 * dnN b) else 0)
  (prior, recs, recs + dnM b * (4 * recWords (dnKind b) (dnN b)))

/-- The descriptor keeps R332. -/
def denseHeaderOk (b : List Byte) : Bool :=
  dnKind b ≤ 2 && 1 ≤ dnN b && dnN b ≤ 64 && (dnKind b == 0 || dnN b == 6) && 1 ≤ dnIter b && dnIter b ≤ 64 &&
  dnOpt b ≤ 1 && 1 ≤ dnM b && dnM b ≤ 65536 && f32PosFinite (dnLam b) && f32PosFinite (dnFloor b) &&
  leField b 16 48 == 0

/-- A dense problem read from its bytes; none where it is INVALID (R333). -/
def parseDense (b : List Byte) : Option Dense :=
  if !denseHeaderOk b then none else
  let (pr, rc, _) := denseParts b
  let k := dnKind b; let n := dnN b
  let x0 := words32 b 64 (xWords k n)
  let prior := if dnOpt b = 1 then some (words32 b pr n, words32 b (pr + 4 * n) n) else none
  let rw := recWords k n
  let recs := (List.range (dnM b)).map fun i => words32 b (rc + i * (4 * rw)) rw
  let fin := fun (v : List Word32) => v.all f32IsFinite
  let priorOk := match prior with
    | none => true
    | some (mu, om) => fin mu && fin om && om.all fun w => flLe f0 w
  if fin x0 && priorOk && recs.all fin then
    some { kind := k, n := n, iter := dnIter b, prior := prior, lam := dnLam b, pfloor := dnFloor b, x0 := x0
           recs := recs }
  else none

/-- Solver cycles of a dense problem (R348). -/
def denseTime (b : List Byte) : Nat :=
  let k := dnKind b; let n := dnN b; let m := dnM b
  let ek := if k = 0 then ceilDiv n 16 + 2 else if k = 1 then 12 else 10
  let rk := if k = 1 then 3 else 1
  let ev := m * ek + 20
  let lin := m * (ek + rk * ceilDiv (n * (n + 3)) 16) + 40 + (if dnOpt b % 2 = 1 then n else 0)
  let sol := ceilDiv (n * n * n) 6 + 4 * n + 60
  let upd := if k = 0 then 10 else 30
  300 + ev + dnIter b * (lin + sol + upd + ev)

/-- SIG of a dense problem (R340). -/
def denseSig (b : List Byte) : Nat := crc64 (b.take 2 ++ (b.drop 3).take 5)

/-! ### Results (R341–R344) -/

/-- What a problem returns: FLAGS without WRITTEN, iterations, state, SIG, skips, S, X, and BA records. -/
structure SlvResult where
  flags : Nat
  accepts : Nat
  iters : Nat
  cost0 : Word32
  cost : Word32
  lam : Word32
  sig : Nat
  skip : Nat
  s : List Word32
  x : List Word32
  tail : List (List Word32)
  deriving DecidableEq, Repr

/-- Infinite values are bounded (R344). -/
def bound32 (w : Word32) : Word32 :=
  if f32IsInf w then (if vSign (f32Val w) then 0xFF7F7FFF#32 else 0x7F7F7FFF#32) else w

/-- The result as it is written (R344): infinite values bounded, OVERFLOW set where one was. -/
def boundResult (r : SlvResult) : SlvResult :=
  let all := r.x ++ r.s ++ [r.cost0, r.cost, r.lam] ++ r.tail.flatten
  { r with
    flags := if all.any f32IsInf then r.flags ||| 2 else r.flags
    cost0 := bound32 r.cost0, cost := bound32 r.cost, lam := bound32 r.lam
    s := r.s.map bound32, x := r.x.map bound32, tail := r.tail.map fun t => t.map bound32 }

/-- The 320 bytes of a result record (R342). -/
def resultBytes (r : SlvResult) : List Byte :=
  padBytes 320 (padBytes 64 (leBytes 2 (r.flags + 0x8000) ++ leBytes 1 r.accepts ++ leBytes 1 r.iters ++
    wordBytes [r.cost0, r.cost, r.lam] ++ leBytes 8 r.sig ++ leBytes 4 (min r.skip 0xFFFFFFFF) ++ leBytes 4 0 ++
    wordBytes r.s) ++ wordBytes r.x)

/-- A warm record that may be used (R341): X and λ; or the flag to set. -/
def warmStart (rec : Option (List Byte)) (sig xn : Nat) : Option (List Word32 × Word32) × Nat :=
  match rec with
  | none => (none, 0)
  | some r =>
    let fl := leField r 0 2
    if !bitOf fl 15 then (none, 0)
    else if leField r 16 8 = sig ∧ fl &&& 0b11101010 = 0 then
      (some (words32 r 64 xn, BitVec.ofNat 32 (leField r 12 4)), 0x100)
    else (none, 4)

/-- NOPROGRESS (R343). -/
def noProgress (acc iters : Nat) : Nat := if acc = 0 ∧ 0 < iters then 16 else 0

/-- A problem that does not compute (R330, R333): X is canonical NaN and λ the LAMBDA0 it was given, where that was read.
The costs, which nothing computed, are free; they depend on the problem's bytes alone (R351). -/
def deadResult (b : List Byte) (flags sig : Nat) (lam : Option Word32) (xn : Nat) (tail : List (List Word32)) : SlvResult :=
  boundResult
    { flags := flags, accepts := 0, iters := 0, cost0 := Config.deadWord b 0, cost := Config.deadWord b 1
      lam := lam.getD (Config.deadWord b 2), sig := sig, skip := 0, s := List.replicate 6 f0
      x := List.replicate xn cNan, tail := tail }

/-- Words of X of a problem that does not compute: those of its kind, or all 64 where the descriptor gives none. -/
def deadWords (b : List Byte) : Nat :=
  if dnKind b = 0 ∧ 1 ≤ dnN b ∧ dnN b ≤ 64 then dnN b else if dnKind b = 1 ∨ dnKind b = 2 then 7 else 64

/-- The result of a dense problem's bytes. `flags` holds BADREAD and UNCORR of its reads (R330); with them `known` says
that the descriptor at least was read. -/
def runDense (b : List Byte) (flags : Nat) (known : Bool) (warm : Option (List Byte)) : SlvResult :=
  let sig := denseSig b
  match parseDense b, flags with
  | some p, 0 =>
    let (start, wf) := warmStart warm sig (xWords p.kind p.n)
    let (x, lam) := match start with | some (x, lam) => (x, lam) | none => (p.x0, p.lam)
    let (c0, t) := denseSolve p x lam
    boundResult
      { flags := ofBool t.reg + wf + noProgress t.acc p.iter, accepts := t.acc, iters := p.iter, cost0 := c0
        cost := t.c, lam := t.lam, sig := sig, skip := 0, s := if p.kind = 0 then [] else t.s, x := t.x, tail := [] }
  | none, 0 => deadResult b 8 sig (some (dnLam b)) (deadWords b) []
  | _, fl => deadResult b (fl + 8 * ofBool (known && !denseHeaderOk b)) sig (if known then some (dnLam b) else none)
      (if known then deadWords b else 64) []

/-! ### Bundle adjustment in memory (R337) -/

def baNcam (b : List Byte) : Nat := leField b 0 2
def baIterN (b : List Byte) : Nat := leField b 2 1
def baCg (b : List Byte) : Nat := leField b 3 1
def baNpt (b : List Byte) : Nat := leField b 4 4
def baNobs (b : List Byte) : Nat := leField b 8 4
def baCamAt (b : List Byte) : Nat := leField b 24 8
def baPtAt (b : List Byte) : Nat := leField b 32 8
def baObsAt (b : List Byte) : Nat := leField b 40 8

/-- The descriptor's fields are in range. -/
def baHeaderOk (b : List Byte) : Bool :=
  1 ≤ baNcam b && baNcam b ≤ 2048 && 1 ≤ baIterN b && baIterN b ≤ 64 && 1 ≤ baCg b && 1 ≤ baNpt b &&
  baNpt b ≤ 65536 && 1 ≤ baNobs b && baNobs b ≤ 1048576 &&
  f32PosFinite (BitVec.ofNat 32 (leField b 12 4)) && f32PosFinite (BitVec.ofNat 32 (leField b 16 4)) &&
  leField b 20 4 == 0 && leField b 48 16 == 0

/-- A camera record. -/
def parseCam (bs : List Byte) (i : Nat) : Camera :=
  { pose := words32 bs (48 * i) 7, intr := words32 bs (48 * i + 28) 4, fix := leField bs (48 * i + 44) 4 % 2 = 1 }

/-- A bundle from its descriptor and arrays; none where it is INVALID, a word that must be zero not being so among the
reasons. -/
def parseBundle (b cams pts obs : List Byte) : Option Bundle :=
  if !baHeaderOk b then none else
  let cs := (List.range (baNcam b)).map (parseCam cams)
  let ps := (List.range (baNpt b)).map fun i => words32 pts (16 * i) 3
  let os := (List.range (baNobs b)).map fun i =>
    { cam := leField obs (24 * i) 4, pt := leField obs (24 * i + 4) 4
      u := BitVec.ofNat 32 (leField obs (24 * i + 8) 4), v := BitVec.ofNat 32 (leField obs (24 * i + 12) 4)
      w := BitVec.ofNat 32 (leField obs (24 * i + 16) 4) : Obs }
  let fin := fun (v : List Word32) => v.all f32IsFinite
  let zeros := (List.range (baNcam b)).all (fun i => leField cams (48 * i + 44) 4 ≤ 1) &&
    (List.range (baNpt b)).all (fun i => leField pts (16 * i + 12) 4 == 0) &&
    (List.range (baNobs b)).all fun i => leField obs (24 * i + 20) 4 == 0
  if zeros && cs.all (fun c => fin c.pose && fin c.intr) && ps.all fin &&
      os.all (fun o => o.cam < baNcam b && o.pt < baNpt b && fin [o.u, o.v, o.w]) then
    some { iter := baIterN b, cgiter := baCg b, lam := BitVec.ofNat 32 (leField b 12 4)
           pfloor := BitVec.ofNat 32 (leField b 16 4), cams := cs, pts := ps, obs := os }
  else none

/-- SIG of a bundle (R340). -/
def baSig (b cams obs : List Byte) : Nat :=
  crc64 (b.take 2 ++ (b.drop 4).take 8 ++
    ((List.range (baNcam b)).map fun i => BitVec.ofNat 8 (leField cams (48 * i + 44) 4 % 2)) ++
    (List.range (baNobs b)).flatMap fun i => (obs.drop (24 * i)).take 8)

/-- Solver cycles before the first iteration, and of one iteration (R349). -/
def baTimes (b : List Byte) : Nat × Nat :=
  let up := fun a => ceilDiv a 64
  let nobs := baNobs b; let npt := baNpt b; let ncam := baNcam b
  let ev := up (20 * nobs) + 200
  let lin := up (80 * nobs) + up (30 * npt) + 200
  let sol := baCg b * (up (48 * nobs) + up (60 * ncam) + 300) + up (40 * npt) + up (24 * nobs) + 400
  (300 + nobs + ev, lin + sol + ev)

/-- Camera record bytes as words: pose, intrinsics, FIX. -/
def camWords (c : Camera) : List Word32 := c.pose ++ c.intr ++ [BitVec.ofNat 32 (ofBool c.fix)]

/-- Bytes of SCRATCH that R337 asks for. -/
def baScratchLen (b : List Byte) : Nat :=
  (96 * baNobs b + 128 * baNpt b + 512 * baNcam b + 65535) / 65536 * 65536

/-! ### Batches (R327–R331) -/

def bqMode (b : List Byte) : Nat := leField b 0 8 % 2
def bqIrq (b : List Byte) : Bool := bitOf (leField b 0 8) 1
def bqDest (b : List Byte) : Bool := bitOf (leField b 0 8) 2
def bqExt (b : List Byte) : Nat := bitsOf (leField b 0 8) 6 3
def bqCtx (b : List Byte) : Nat := bitsOf (leField b 0 8) 21 16
def bqCount (b : List Byte) : Nat := bitsOf (leField b 0 8) 47 32
def bqProb (b : List Byte) : Nat := leField b 8 8
def bqRes (b : List Byte) : Nat := leField b 16 8
def bqWarm (b : List Byte) : Nat := leField b 24 8
def bqScratch (b : List Byte) : Nat := leField b 32 8

/-- Ring of the solver: address and slots. -/
def slvRing (s : State) : Nat × Nat := (s.get SLV_BQ_BASE_ADDR * 64, ringSlots (s.get SLV_BQ_BASE_LOG2) 4 12)

/-- Address of a ring slot. -/
def slvSlot (s : State) (i : Nat) : Nat := (slvRing s).1 + i % (slvRing s).2 * 64

/-- Address of a dense problem, by the array of R328. -/
def probAddr (s : State) (ctx arr i : Nat) : Option Nat :=
  (quietRead s ctx (arr + 8 * i) 8).map leNat

/-- SCRATCH names an object of the context of at least `n` bytes (R337): its first byte and its length. -/
def scratchObj (s : State) (ctx sc n : Nat) : Option (Nat × Nat) :=
  match resolve s true ctx sc 1 true with
  | .ok (_, e) => if n ≤ e.size * 65536 then some (e.base * 65536, e.size * 65536) else none
  | .error _ => none

/-- The batch keeps R328, R329 and R337: no unlisted bit is set, every address is aligned, COUNT, DEST and SCRATCH are as
MODE asks. -/
def batchOk (s : State) (b : List Byte) : Bool :=
  let w0 := leField b 0 8
  let ctx := bqCtx b
  let aligned := fun (a : Nat) => a % 64 == 0
  let listed := fun (a : Nat) => a < 2 ^ 48
  bitsOf w0 15 7 == 0 && bitsOf w0 23 22 == 0 && bitsOf (leField b 40 8) 31 30 == 0 &&
  [bqProb b, bqRes b, bqWarm b, bqScratch b].all (fun a => aligned a && listed a) &&
  (if bqMode b = 0 then
    1 ≤ bqCount b && bqCount b ≤ 4096 && bqScratch b == 0 && !(bqDest b && 1 < bqCount b) &&
    (List.range (bqCount b)).all fun i => match probAddr s ctx (bqProb b) i with
      | some a => aligned a
      | none => true
  else
    bqCount b == 1 && !bqDest b &&
    match quietRead s ctx (bqProb b) 64 with
    | none => true
    | some d =>
      aligned (baCamAt d) && aligned (baPtAt d) && aligned (baObsAt d) &&
      match scratchObj s ctx (bqScratch b) (baScratchLen d) with
      | none => false
      | some (at_, n) =>
        let apart := fun (a len : Nat) => a + len ≤ at_ || at_ + n ≤ a
        apart (baCamAt d) (48 * baNcam d) && apart (baPtAt d) (16 * baNpt d) && apart (baObsAt d) (24 * baNobs d))

/-- Solver cycles of dense problem `i` of a batch. -/
def probTime (s : State) (b : List Byte) (i : Nat) : Nat :=
  match probAddr s (bqCtx b) (bqProb b) i with
  | none => denseTime (List.replicate 64 0)
  | some a => denseTime ((quietRead s (bqCtx b) a 64).getD (List.replicate 64 0))

/-- The batch at CONS ends: STATUS, FLAGSOR and word 5 are written, CONS advances, events and counters follow
(R329). -/
def batchEnds (s : State) (slot : Nat) (b : List Byte) (status flagsOr : Nat) : State :=
  let a := slvSlot s slot
  let s := quietWrite s (a + 3) (leBytes 1 status)
  let s := quietWrite s (a + 6) (leBytes 2 flagsOr)
  let s := quietWrite s (a + 40) (leBytes 8 s.tnsTsec)
  let s := (s.put SLV_BQ_CONS_INDEX (slot + 1)).count SLV_CNT_BATCH_VALUE 1
  let s := onIf (bqIrq b) (·.setOn SLV_EVT_DONE) s
  let s := onIf (flagsOr % 256 ≠ 0) (·.setOn SLV_EVT_FLAG) s
  let s := onIf (status = 2) (·.setOn SLV_EVT_ABORT) s
  s.setOff SLV_STAT_BUSY

/-- BATCH_START (R327): the batch at CONS starts, or is refused. -/
def execBatchStart (s : State) : Host.Outcome State Fault Refusal :=
  finish s (
    let cons := s.get SLV_BQ_CONS_INDEX
    if !s.on SLV_CTRL_READY ∨ s.batch.isSome ∨ cons = s.get SLV_BQ_PROD_INDEX then s
    else
      let b := (quietRead s 0 (slvSlot s cons) 64).getD (List.replicate 64 0)
      let s := s.tableRead 0 (slvSlot s cons) 64
      if !batchOk s b then batchEnds s cons b 3 0
      else
        let s := (s.setOn SLV_STAT_BUSY).put SLV_STAT_INDEX cons
        let now := s.slvCyc
        let engines := if bqMode b = 1 then
            let d := (quietRead s (bqCtx b) (bqProb b) 64).getD (List.replicate 64 0)
            [(0, (0, now + (baTimes d).1 + baIterN d * (baTimes d).2))]
          else (List.range (min 64 (bqCount b))).map fun e => (e, (e, now + probTime s b e))
        { s with batch := some { slot := cons, desc := b, engines := engines, flagsOr := 0, lastEnd := now
                                 start := now, cut := none, aborted := false } })

/-- A read of the solver for a batch: bytes, and BADREAD or UNCORR (R330). -/
def slvRead (acc : State × Nat) (ctx addr len : Nat) : (State × Nat) × List Byte :=
  if len = 0 then (acc, []) else
  let (s, r, bs) := engineRead acc.1 5 ctx addr len
  ((s, acc.2 ||| (if r = 1 then 64 else if r = 2 then 32 else 0)), bs)

/-- Counters of the flags of a result that is written (R344). -/
def countResult (s : State) (flags : Nat) : State :=
  let s := s.count SLV_CNT_PROB_VALUE 1
  let s := s.count SLV_CNT_REG_VALUE (flags % 2)
  let s := s.count SLV_CNT_OVF_VALUE (ofBool (bitOf flags 1))
  let s := s.count SLV_CNT_WREJ_VALUE (ofBool (bitOf flags 2))
  s.count SLV_CNT_INVALID_VALUE (ofBool (bitOf flags 3) + ofBool (bitOf flags 5) + ofBool (bitOf flags 6))

/-- Dense problem `i` of a batch is read and solved. -/
def solveDense (s : State) (b : List Byte) (i : Nat) : State × SlvResult :=
  let ctx := bqCtx b
  let (acc, pa) := slvRead (s, 0) ctx (bqProb b + 8 * i) 8
  let a := leNat pa
  let (acc, hd) := if acc.2 = 0 then slvRead acc ctx a 64 else (acc, List.replicate 64 0)
  let known := acc.2 == 0
  let (acc, rest) := if acc.2 = 0 ∧ denseHeaderOk hd then slvRead acc ctx (a + 64) ((denseParts hd).2.2 - 64) else (acc, [])
  let (acc, warm) := if bqWarm b = 0 then (acc, none) else
    let (acc, w) := slvRead acc ctx (bqWarm b + 320 * i) 320; (acc, some w)
  (acc.1, runDense (hd ++ rest) acc.2 known warm)

/-- The camera and point records of a bundle that does not compute: poses and points canonical NaN, intrinsics and FIX as
given where `whole`, else free, zero words zero. -/
def deadBundle (d cams : List Byte) (whole : Bool) : List (List Word32) :=
  ((List.range (baNcam d)).map fun i =>
    let c := parseCam cams i
    let intr := if whole then c.intr else (List.range 4).map fun k => Config.deadWord d (4 + 5 * i + k)
    let fix := if whole then ofBool c.fix else (Config.deadWord d (3 + 5 * i)).toNat % 2
    List.replicate 7 cNan ++ intr ++ [BitVec.ofNat 32 fix]) ++
  List.replicate (baNpt d) [cNan, cNan, cNan, f0]

/-- The bundle adjustment of a batch is read and solved, for `iters` iterations. -/
def solveBundle (s : State) (b : List Byte) (cut : Option Nat) : State × SlvResult :=
  let ctx := bqCtx b
  let (acc, d) := slvRead (s, 0) ctx (bqProb b) 64
  let go := acc.2 = 0
  let rd := fun (acc : State × Nat) (a n : Nat) => if go then slvRead acc ctx a n else (acc, [])
  let (acc, cams) := rd acc (baCamAt d) (48 * baNcam d)
  let (acc, pts) := rd acc (baPtAt d) (16 * baNpt d)
  let (acc, obs) := rd acc (baObsAt d) (24 * baNobs d)
  let sig := baSig d cams obs
  let (acc, warm) := if bqWarm b = 0 then (acc, none) else
    let (acc, w) := slvRead acc ctx (bqWarm b) 320; (acc, some w)
  let (start, wf) := warmStart warm sig 0
  let whole := acc.2 = 0
  let (acc, wt) := if start.isSome then slvRead acc ctx (bqWarm b + 320) (48 * baNcam d + 16 * baNpt d) else (acc, [])
  let s := acc.1
  let aborted := if cut.isSome then 128 else 0
  let dead := fun (fl : Nat) =>
    deadResult (d ++ cams ++ pts ++ obs) fl sig (if go then some (BitVec.ofNat 32 (leField d 12 4)) else none) 0
      (deadBundle d cams (decide whole))
  match parseBundle d cams pts obs, acc.2 with
  | some bu, 0 =>
    let iters := match cut with | some n => min n bu.iter | none => bu.iter
    let wcams := (List.range (baNcam d)).map fun i => parseCam wt i
    let wpts := (List.range (baNpt d)).map fun i => words32 (wt.drop (48 * baNcam d)) (16 * i) 3
    let (c0, t) := match start with
      | some (_, lam) => baSolve bu iters wcams wpts lam
      | none => baSolve bu iters bu.cams bu.pts bu.lam
    (s, boundResult
      { flags := ofBool t.reg + wf + noProgress t.acc iters + aborted, accepts := t.acc, iters := iters, cost0 := c0
        cost := t.c, lam := t.lam, sig := sig, skip := t.skip, s := [], x := []
        tail := t.cams.map camWords ++ t.pts.map fun p => p ++ [f0] })
  | none, 0 => (s, dead (8 + aborted))
  | _, fl => (s, dead (fl + aborted + 8 * ofBool (decide go && !baHeaderOk d)))

/-- A bundle adjustment that iterates leaves undetermined bytes in its scratch area (R337, R339): Wo is kept there, in
a layout that R339 does not give. -/
def scratchUsed (s : State) (b : List Byte) : State :=
  let ctx := bqCtx b
  let n := baScratchLen ((quietRead s ctx (bqProb b) 64).getD (List.replicate 64 0))
  match scratchObj s ctx (bqScratch b) n with
  | none => s
  | some (a, _) =>
    let s := { s with free := s.free + 1 }
    (engineWrite s 5 ctx a ((List.range n).map (Config.freeByte s.free))).1

/-- A result is written (R342, R345): its record, and with DEST the held extrinsic entry. -/
def writeResult (s : State) (b : List Byte) (i : Nat) (r : SlvResult) : State :=
  let s := (engineWrite s 5 (bqCtx b) (bqRes b + 320 * i) (resultBytes r ++ r.tail.flatMap wordBytes)).1
  let s := countResult s r.flags
  if bqDest b then
    let m := rotOf r.x
    let e := (List.range 3).flatMap fun k => (m.getD k []) ++ [vAt r.x (4 + k)]
    { s with fus := { s.fus with calib := tset s.fus.calib (bqExt b) (wordBytes e, bitOf r.flags 1) } }
  else s

/-- The solver cycle at which an engine that was due at `fin` finishes (R348): what it takes beyond its stall-free time is
its wait on memory. One Bandstand cycle covers two solver cycles at most, so the first that reaches `fin` is none. -/
def engineEnd (s : State) (fin : Nat) : Nat := if fin ≤ (s.cyc - 1) * 15 / 10 then s.slvCyc else fin

/-- PROBLEM_COMPLETE (R331, R348): engine `e` has spent its problem's time and its waits on memory, which count; it writes
the result and takes its next problem. -/
def execProblemComplete (e : Nat) (s : State) : Host.Outcome State Fault Refusal :=
  finish s (
    match s.batch with
    | none => s
    | some bt => match tget bt.engines e with
      | none => s
      | some (i, fin) =>
        if s.slvCyc < fin then s
        else
          let end_ := engineEnd s fin
          let s := s.countWrap SLV_CNT_STALL_VALUE (end_ - fin)
          let (s, r) := if bqMode bt.desc = 1 then solveBundle s bt.desc bt.cut else solveDense s bt.desc i
          let s := if bqMode bt.desc = 1 ∧ 0 < r.iters then scratchUsed s bt.desc else s
          let s := writeResult s bt.desc i r
          let next := i + 64
          let engines := if bqMode bt.desc = 0 ∧ next < bqCount bt.desc ∧ !bt.aborted then
              tset bt.engines e (next, end_ + probTime s bt.desc next)
            else tdel bt.engines e
          { s with batch := some { bt with engines := engines, flagsOr := bt.flagsOr ||| (r.flags + 0x8000)
                                           lastEnd := max bt.lastEnd end_ } })

/-- A write of SLV_CTRL_ENABLE (R327, R346): 1 checks the ring; 0 ends the batch as R346 lays down, ENABLE reading 1
until then. -/
def slvEnableWritten (old new : Nat) (s : State) : State :=
  if old = 0 ∧ new = 1 then
    let (base, slots) := slvRing s
    let ok := inOneObject s 0 base (slots * 64)
    (s.put SLV_CTRL_READY (ofBool ok)).put SLV_CTRL_CFGERR (ofBool !ok)
  else if old = 1 ∧ new = 0 then
    match s.batch with
    | none => s.setOff SLV_CTRL_READY
    | some bt =>
      let s := s.setOn SLV_CTRL_ENABLE
      if bt.aborted then s else
      let bt := { bt with aborted := true }
      if bqMode bt.desc = 1 then
        let d := (quietRead s (bqCtx bt.desc) (bqProb bt.desc) 64).getD (List.replicate 64 0)
        let (pre, per) := baTimes d
        let n := min (baIterN d) (ceilDiv (s.slvCyc - (bt.start + pre)) (max per 1))
        match tget bt.engines 0 with
        | none => { s with batch := some bt }
        | some _ =>
          { s with batch := some { bt with cut := some n, engines := tset bt.engines 0 (0, bt.start + pre + n * per) } }
      else { s with batch := some bt }
  else s

/-- BATCH_END (R329, R346, R348): 300 cycles after the last engine finishes. -/
def execBatchEnd (s : State) : Host.Outcome State Fault Refusal :=
  finish s (
    match s.batch with
    | none => s
    | some bt =>
      if bt.engines ≠ [] ∨ s.slvCyc < bt.lastEnd + 300 then s
      else
        let s := batchEnds s bt.slot bt.desc (if bt.aborted then 2 else 1) bt.flagsOr
        let s := if bt.aborted then (s.setOff SLV_CTRL_ENABLE).setOff SLV_CTRL_READY else s
        { s with batch := none })

end Sys2Proof.Machine
end

