-- ==== Sys2Proof/Machine/Fusion.lean ====
section
/-! DEFINITION. The fusion unit: the latch and its checks, output instants, estimator slots and their records, the
common grid, ego-motion (R303, R310–R323, R347). -/

namespace Sys2Proof.Machine

open Sys2Proof Sys2Proof.Machine.Reg

/-! ### Slot entries (R312) -/

def slKind (e : List Byte) : Nat := leField e 0 1
def slN (e : List Byte) : Nat := leField e 1 1
def slDiv (e : List Byte) : Nat := leField e 2 1
def slNch (e : List Byte) : Nat := leField e 3 1
def slCh (e : List Byte) (i : Nat) : Nat := leField e (4 + i) 1
def slGrp (e : List Byte) (i : Nat) : Nat := leField e (12 + i) 1
def slGate (e : List Byte) : Word32 := BitVec.ofNat 32 (leField e 20 4)
def slMaxAge (e : List Byte) : Nat := leField e 24 4
def slOring (e : List Byte) : Nat := leField e 28 8
def slOlog2 (e : List Byte) : Nat := leField e 36 1
def slQ (e : List Byte) : List Word32 := f32s e 64 16
def slF (e : List Byte) : List (List Word32) := (List.range 16).map fun r => f32s e (128 + 64 * r) 16
def slH (e : List Byte) (i : Nat) : List (List Word32) := (List.range 4).map fun r => f32s e (1152 + 256 * i + 64 * r) 16

/-! ### The latch (R303, R323) -/

/-- A channel descriptor (R303): no reserved bit or code, and, where the channel is enabled, every field in its range. -/
def chanOk (d : Nat) : Bool :=
  let k := chKind d
  dw d 1 63 52 == 0 && dw d 5 63 52 == 0 && dw d 7 63 32 == 0 && k ≤ 5 && chStfmt d ≤ 4 &&
  (!chEn d ||
    (chPort d < (if k = 0 then 12 else if k = 3 then 8 else if k = 1 ∨ k = 2 then 4 else 16) &&
     chRing d % 65536 == 0 && 1 ≤ chRlog2 d && chRlog2 d ≤ 12 && 2 ≤ chSlotSz d && (k != 3 || 1 ≤ chDecim d)))

/-- A slot entry (R312, R320): no reserved byte or code, and, where the slot is not off, every field in its range. -/
def slotOk (e : List Byte) : Bool :=
  let k := slKind e
  k ≤ 3 && leField e 37 27 == 0 && leField e 3200 896 == 0 &&
  (k == 0 ||
   (1 ≤ slN e && slN e ≤ (if k = 1 then 4 else 16) && (k != 3 || slN e == 13) && 1 ≤ slDiv e &&
    1 ≤ slNch e && slNch e ≤ 8 && (List.range (slNch e)).all (fun i => slCh e i < 64) &&
    (List.range (slNch e)).all (fun i => k == 3 || (if k = 1 then slGrp e i == 1 else slGrp e i ≤ 3)) &&
    slOring e % 65536 == 0 && slOring e < 2 ^ 48 && 1 ≤ slOlog2 e && slOlog2 e ≤ 12))

/-- Cost of a slot in solver cycles (R323). -/
def slotCost (e : List Byte) : Nat :=
  let n := slN e; let c := slNch e
  match slKind e with
  | 0 => 0
  | 1 => 200 + 30 * c ^ 2 * n + 2 ^ c
  | 2 => 600 + 4 * n ^ 3 + c * (12 * n ^ 2 * 4 + 100) + 3 * 2 ^ c
  | _ => 20000

/-- The tables and registers of a pending set pass R310, R323 and R325. `g` reads a field of the set. -/
def fusCheck (g : Fld → Nat) (t : FusTables) : Bool :=
  let period := g FUS_OUT_PERIOD
  let nf := g FUS_GRID_NF
  let feats := t.chans.filter fun d => chEn d && chKind d == 5
  let slotCut := g FUS_CUT_SLOT
  let gridCut := g FUS_CUT_GRID
  let gridCost := if nf = 0 then 0 else
    ceilDiv nf 16 * (131072 + feats.foldl (fun a d => a + chNpmax d * 64 * (24 + 2 * min 16 nf)) 0)
  100000 ≤ period && period ≤ 100000000 && 1000000000 % period == 0 && g FUS_OUT_PHASE < period &&
  1 ≤ slotCut && slotCut * 1000 ≤ period && nf ≤ 64 && t.chans.all chanOk && t.slots.all slotOk &&
  t.ext.all (fun e => leField e 48 16 == 0) &&
  distinct (feats.map chPriv) && (t.slots.filter fun e => slKind e == 3).length ≤ 1 &&
  t.slots.foldl (fun a e => a + slotCost e) 0 ≤ slotCut * 1500 &&
  1 ≤ g FUS_GRID_DIV && f32PosFinite (BitVec.ofNat 32 (g FUS_GRID_GEOM_CELL)) && gridCost ≤ gridCut * 1500 &&
  gridCut * 1000 ≤ g FUS_GRID_DIV * period

/-- Address and bytes of the three tables of a pending set. -/
def fusPlaces (g : Fld → Nat) : List (Nat × Nat) :=
  [(g FUS_CHTAB_ADDR * 64, 4096), (g FUS_SLOTTAB_ADDR * 64, 131072), (g FUS_EXTAB_ADDR * 64, 1024)]

/-- The tables at the addresses of a pending set; none where one does not lie in an object of context 0 (R325) or is not
readable. -/
def fusTables (s : State) (g : Fld → Nat) : Option FusTables :=
  if !(fusPlaces g).all (fun p => inOneObject s 0 p.1 p.2) then none else
  match (fusPlaces g).map fun p => quietRead s 0 p.1 p.2 with
  | [some c, some sl, some ex] =>
    some { chans := (List.range 64).map fun n => leField c (64 * n) 64
           slots := (List.range 32).map fun n => (sl.drop (4096 * n)).take 4096
           ext := (List.range 16).map fun n => (ex.drop (64 * n)).take 64 }
  | _ => none

/-- The first output instant past accumulator nanosecond `t` (R310): in epoch mode by FUS_OUT_PHASE, in wrap mode back to
back from the latch. -/
def nextInstant (s : State) (t : Nat) : Nat :=
  let period := max 1 (s.get FUS_OUT_PERIOD)
  if s.epochMode then
    let ph := s.get FUS_OUT_PHASE
    t + period - (t % 1000000000 + period - ph % period) % period
  else t + period - (t % period + period - s.fus.latchedAt % period) % period

/-- READY: fusion is enabled and a checked set is in force. -/
def fusReadyBit (s : State) : State :=
  s.put FUS_CTRL_READY (ofBool (s.on FUS_CTRL_ENABLE && s.fus.tables.isSome))

/-- A slot's state after its entry is latched: kept where the entry is the one in force. -/
def keptSlots (old : Option FusTables) (slots : Tbl EstSlot) (t : FusTables) : Tbl EstSlot :=
  slots.filter fun p => match old with
    | some o => o.slots[p.1]? == t.slots[p.1]?
    | none => false

/-- The latch of R303: the pending set becomes the set in force, or is refused (R323). At accumulator nanosecond
`at_` the instants begin anew. -/
def fusLatch (s : State) (at_ : Nat) : State :=
  if !s.isPending 2 then s else
  let g := fun (f : Fld) => s.pendGet 2 f
  let s := (fusPlaces g).foldl (fun s p => s.tableRead 0 p.1 p.2) s
  match fusTables s g with
  | some t =>
    if fusCheck g t then
      let s := (s.latch 2).setOff FUS_CTRL_CFGERR
      let f := s.fus
      let s := { s with fus := { f with
          tables := some t, k := 0, latchedAt := at_, slotDone := false, grid := none, lastSlot := none, lastGrid := none, chans := []
          slots := keptSlots f.tables f.slots t } }
      let s := { s with fus := { s.fus with nextO := nextInstant s at_ } }
      fusReadyBit ((s.put FUS_CH_VALID_VALUE 0).put FUS_CH_DESYNC_VALUE 0)
    else ((s.dropPending 2).setOn FUS_CTRL_CFGERR).setOn FUS_EVT_CFGERR
  | none => ((s.dropPending 2).setOn FUS_CTRL_CFGERR).setOn FUS_EVT_CFGERR

/-- A write of FUS_COMMIT: with fusion off the set latches at once (R22). -/
def fusCommitWritten (s : State) : State :=
  let s := s.snapshot 2
  if s.on FUS_CTRL_ENABLE then s else fusLatch s s.accNs

/-- A write of FUS_CTRL_ENABLE: instants start or stop; a pending set latches at a stop (R22). The index k counts the
instants that ran since the latch (R310; log entry 70). -/
def fusEnableWritten (old new : Nat) (s : State) : State :=
  if old = 0 ∧ new = 1 then
    fusReadyBit { s with fus := { s.fus with slotDone := false, grid := none, nextO := nextInstant s s.accNs } }
  else if old = 1 ∧ new = 0 then fusReadyBit (fusLatch s s.accNs)
  else s

/-! ### Snapshots and contributions (R309, R311) -/

/-- Presented time of an accumulator nanosecond, in 2^-16 ns. -/
def presented (s : State) (o : Nat) : Int :=
  ((if s.epochMode then o else o % 2 ^ 32) * 65536 : Nat)

/-- The newest arrival at or before a snapshot instant (R311). Of an EXT or FEATURE channel the four records below PROD at
that instant are the newest four such arrivals, so it is the newest of those too. -/
def newestAt (c : Chan) (t : Int) : Option Arrival := (c.arrivals.filter fun a => a.arr ≤ t).getLast?

/-- A snapshot at `t` takes a channel's newest arrival: it is used. Arrivals older than the newest one at or before `last`
can serve no later snapshot and are no longer held. -/
def snapChan (last t : Int) (c : Chan) : Chan :=
  let old := c.arrivals.filter fun a => a.arr ≤ t
  let rest := c.arrivals.filter fun a => t < a.arr
  let old := match old.getLast? with
    | some a => old.dropLast ++ [{ a with used := true }]
    | none => []
  let all := old ++ rest
  let gone := (all.filter fun a => a.arr ≤ last).length - 1
  { c with arrivals := all.drop gone }

/-- A snapshot at `t` takes the newest arrival of every enabled channel that `p` admits (R311). A FEATURE channel serves
both engines: `other` is the other one's last snapshot, 0 before the first. -/
def snapAll (s : State) (other : Option Int) (t : Int) (p : Nat → Bool) : State :=
  let one := fun (c : Nat × Chan) =>
    let d := chanDesc s c.1
    let last := if chKind d = 5 then min t (other.getD 0) else t
    if chEn d && p d then (c.1, snapChan last t c.2) else c
  { s with fus := { s.fus with chans := s.fus.chans.map one } }

/-- A channel contributes nothing (R309): it is DESYNC or not VALID, or the channel its features come from is. -/
def barred (s : State) (n : Nat) : Bool :=
  let out := fun (c : Chan) => !c.valid || c.desync
  out (chanOf s n) || (chKind (chanDesc s n) == 5 && out (chanOf s (chSrc (chanDesc s n))))

/-- A contribution: channel, its place in the slot, TOV, measurement, variance. -/
structure Contrib where
  ch : Nat
  idx : Nat
  tov : Int
  x : List Word32
  var : Word32
  deriving DecidableEq, Repr

/-- Measurement of an arrival: of an EXT or FEATURE channel from its record in memory. -/
def measurement (s : State) (n : Nat) (a : Arrival) : State × List Word32 :=
  match a.ring with
  | none => (s, a.meas)
  | some i =>
    let d := chanDesc s n
    if chRing d = 0 then (s, a.meas)
    else
      let (s, _, bs) := engineRead s 5 (chCtx d) (slotAddr d i + 64) 64
      (s, f32s bs 0 16)

/-- Contributions of a slot at instant O with snapshot at T, and the channels excluded by quarantine or staleness. -/
def contributions (s : State) (e : List Byte) (o t : Int) : State × List Contrib × List Nat :=
  (List.range (slNch e)).foldl (fun (acc : State × List Contrib × List Nat) i =>
    let (s, cs, ex) := acc
    let n := slCh e i
    let d := chanDesc s n
    if !chEn d then acc
    else match newestAt (chanOf s n) t with
      | none => (s, cs, ex ++ [n])
      | some a =>
        if barred s n then (s, cs, ex ++ [n])
        else if a.tov < o - (slMaxAge e * 1000 * 65536 : Nat) then (s.count (FUS_CNT_VALUE 3) 1, cs, ex ++ [n])
        else
          let (s, x) := measurement s n a
          (s, cs ++ [{ ch := n, idx := i, tov := a.tov, x := x, var := chVar d }], ex)) (s, [], [])

/-! ### The support test (R314) -/

/-- Two contributions are consistent over their first `n` components. -/
def consistent (n : Nat) (gate : Word32) (a b : Contrib) : Bool :=
  let sum := (List.range n).foldl (fun acc k =>
    let t := flAdd (vAt a.x k) (flNeg (vAt b.x k))
    flAdd acc (flDiv (flMul t t) (flAdd a.var b.var))) f0
  flLe sum gate

/-- Every pair of a set is consistent. -/
def agrees (n : Nat) (gate : Word32) : List Contrib → Bool
  | [] => true
  | a :: rest => rest.all (consistent n gate a) && agrees n gate rest

/-- The supported contributions of a group; none where it is in CONFLICT. -/
def support (n : Nat) (gate : Word32) (cs : List Contrib) : Option (List Contrib) :=
  if cs.length ≤ 1 then some cs else
  let sets := cs.sublists.filter (agrees n gate)
  let m := sets.foldl (fun m l => max m l.length) 0
  match sets.filter fun l => l.length == m with
  | [l] => if cs.length < 2 * m then some l else none
  | _ => none

/-! ### Slots -/

/-- What a slot computed: value, variance, UNKNOWN, channels used, excluded, contributions in conflict, groups in
conflict. -/
structure SlotOut where
  value : List Word32
  var : List Word32
  unknown : Nat
  used : List Contrib
  excl : List Nat
  confl : List Contrib
  groups : Nat
  deriving DecidableEq, Repr

/-- Channel numbers of contributions. -/
def chansOf (cs : List Contrib) : List Nat := cs.map (·.ch)

/-- A slot with no history: values, state and covariance zero (DESIGN CHOICE, log entry 30). -/
def EstSlot.fresh : EstSlot :=
  { seq := 0, value := [], var := [], unknown := 0, kx := List.replicate 16 f0
    kp := List.replicate 16 (List.replicate 16 f0) }

/-- REDUNDANT (R313). -/
def redundantOut (e : List Byte) (st : EstSlot) (cs : List Contrib) (ex : List Nat) : SlotOut :=
  let n := slN e
  match support n (slGate e) cs with
  | none => { value := List.replicate n cNan, var := List.replicate n cNan, unknown := 2 ^ n - 1, used := [], excl := ex
              confl := cs, groups := 1 }
  | some [] => { value := st.value, var := st.var, unknown := st.unknown, used := [], excl := ex, confl := [], groups := 0 }
  | some sup =>
    let sup := sortBy (fun a b => a.ch ≤ b.ch) sup
    let (ws, acc) := sup.foldl (fun (a : Word32 × List Word32) c =>
      let w := flRecip c.var
      (flAdd a.1 w, (List.range n).map fun k => fma (vAt c.x k) w (vAt a.2 k))) (f0, List.replicate n f0)
    let inv := flRecip ws
    { value := acc.map fun v => flMul v inv, var := List.replicate n inv, unknown := 0, used := sup
      excl := ex ++ (chansOf cs).filter fun ch => ch ∉ chansOf sup, confl := [], groups := 0 }

/-- Product of matrices, every sum ascending from +0. -/
def matMul (a b : List (List Word32)) (cols : Nat) : List (List Word32) :=
  a.map fun r => (List.range cols).map fun j => dotAdd r (b.map fun br => vAt br j)

/-- Transpose of a matrix with `cols` columns. -/
def matT (a : List (List Word32)) (cols : Nat) : List (List Word32) :=
  (List.range cols).map fun j => a.map fun r => vAt r j

/-- Entrywise sum. -/
def matAdd (a b : List (List Word32)) : List (List Word32) := List.zipWith vecAdd a b

/-- Square root by vrsqrt: a · (1/√a). -/
def flSqrt (a : Word32) : Word32 := flMul a (vrsqrt (a, false)).1

/-- Lower Cholesky factor, rows first; none where a pivot is not above +0. -/
def cholesky (a : List (List Word32)) : Option (List (List Word32)) :=
  (List.range a.length).foldl (fun acc i => match acc with
    | none => none
    | some l =>
      let row := (List.range i).foldl (fun row j =>
        let v := (List.range j).foldl (fun v k => flAdd v (flNeg (flMul (vAt row k) (mAt l j k)))) (mAt a i j)
        row ++ [flMul v (flRecip (mAt l j j))]) []
      let d := row.foldl (fun v x => flAdd v (flNeg (flMul x x))) (mAt a i i)
      if flLt f0 d then some (l ++ [row ++ [flSqrt d]]) else none) (some [])

/-- Solution of `L Lᵀ x = b`. -/
def cholSolve (l : List (List Word32)) (b : List Word32) : List Word32 :=
  let n := b.length
  let y := (List.range n).foldl (fun y i =>
    y ++ [flMul ((List.range i).foldl (fun v k => flAdd v (flNeg (flMul (mAt l i k) (vAt y k)))) (vAt b i))
      (flRecip (mAt l i i))]) []
  (List.range n).foldl (fun (x : List Word32) t =>
    let i := n - 1 - t
    flMul ((List.range (n - 1 - i)).foldl (fun v k =>
      flAdd v (flNeg (flMul (mAt l (i + 1 + k) i) (vAt x k)))) (vAt y i)) (flRecip (mAt l i i)) :: x) []

/-- Components of a channel's measurement: rows of H that are not all zero, from the first. -/
def hRows (h : List (List Word32)) : Nat :=
  (List.range 4).foldl (fun m r => if (h.getD r []).any (fun v => v != 0#32) then r + 1 else m) 0

/-- One measurement of a KALMAN slot (R315): gated by its normalised innovation, then applied in the Joseph form.
None where it is excluded. -/
def kalmanApply (n : Nat) (gate : Word32) (x : List Word32) (p : List (List Word32)) (h : List (List Word32))
    (z : List Word32) (var : Word32) : Option (List Word32 × List (List Word32)) :=
  let m := hRows h
  let h := (h.take m).map fun r => r.take n
  let nu := List.zipWith (fun r zi => flAdd zi (flNeg (dotAdd r x))) h (z.take m)
  let pht := matMul p (matT h n) m
  let sm := (matMul h pht m).mapIdx fun i r => r.mapIdx fun j v => if i = j then flAdd v var else v
  match cholesky sm with
  | none => none
  | some l =>
    if !flLe (dotAdd nu (cholSolve l nu)) gate then none else
    -- the gain, row by row: S Kᵀ row = (P Hᵀ) row
    let k := pht.map (cholSolve l)
    let x := List.zipWith (fun xi kr => flAdd xi (dotAdd kr nu)) x k
    let ikh := (matMul k h n).mapIdx fun i r => r.mapIdx fun j v => flAdd (if i = j then f1 else f0) (flNeg v)
    let a := matMul (matMul ikh p n) (matT ikh n) n
    let b := matMul (k.map fun r => r.map fun v => flMul v var) (matT k m) n
    some (x, matAdd a b)

/-- KALMAN (R315): the record, and the state and covariance kept. -/
def kalmanOut (e : List Byte) (st : EstSlot) (cs : List Contrib) (ex : List Nat) :
    SlotOut × List Word32 × List (List Word32) :=
  let n := slN e
  let f := ((slF e).take n).map fun r => r.take n
  let x := f.map fun r => dotAdd r (st.kx.take n)
  let p0 := (st.kp.take n).map fun r => r.take n
  let p := (matMul (matMul f p0 n) (matT f n) n).mapIdx fun i r => r.mapIdx fun j v =>
    if i = j then flAdd v (vAt (slQ e) i) else v
  let step := fun (acc : SlotOut × List Word32 × List (List Word32)) (g : Nat) =>
    let (out, x, p) := acc
    let grp := cs.filter fun c => slGrp e c.idx == g
    let rows := grp.foldl (fun m c => max m (hRows (slH e c.idx))) 0
    match support rows (slGate e) grp with
    | none =>
      let unk := maskOf n fun k => grp.any fun c => (slH e c.idx).any fun r => vAt r k != 0#32
      ({ out with unknown := out.unknown ||| unk, confl := out.confl ++ grp, groups := out.groups + 1 }, x, p)
    | some sup =>
      let sup := sortBy (fun a b => a.ch ≤ b.ch) sup
      let out := { out with excl := out.excl ++ (chansOf grp).filter fun ch => ch ∉ chansOf sup }
      sup.foldl (fun (acc : SlotOut × List Word32 × List (List Word32)) c =>
        let (out, x, p) := acc
        match kalmanApply n (slGate e) x p (slH e c.idx) c.x c.var with
        | none => ({ out with excl := out.excl ++ [c.ch] }, x, p)
        | some (x, p) => ({ out with used := out.used ++ [c] }, x, p)) (out, x, p)
  let (out, x, p) := [1, 2, 3].foldl step
    ({ value := [], var := [], unknown := 0, used := [], excl := ex, confl := [], groups := 0 }, x, p)
  let show_ := fun (v : List Word32) => v.mapIdx fun i w => if bitOf out.unknown i then cNan else w
  ({ out with value := show_ x, var := p.mapIdx fun i r => vAt r i }, x, p)

/-! ### Records (R316) -/

/-- Age of a TOV at O in ns, saturating. -/
def ageNs (o tov : Int) : Nat := min ((o - tov) / 65536).toNat 0xFFFFFFFF

/-- A channel mask. -/
def chanMask (l : List Nat) : Nat := maskOf 64 fun n => n ∈ l

/-- The 512 bytes of an output record. -/
def slotRecord (s : State) (j : Nat) (o : Int) (seq flags0 n : Nat) (out : SlotOut) : List Byte :=
  let age := match out.used with
    | [] => 0xFFFFFFFF
    | c :: cs => ageNs o (cs.foldl (fun m c => min m c.tov) c.tov)
  let flags := ofBool (out.unknown = 0) + 2 * ofBool (out.confl ≠ []) + 4 * ofBool (out.excl ≠ []) + flags0
  let pad := fun (k : Nat) (v : List Word32) => padBytes (4 * k) (wordBytes v)
  let confl := sortBy (fun a b => a.ch ≤ b.ch) out.confl
  let entry := fun i => match confl[i]? with
    | some c => leBytes 4 c.ch ++ leBytes 4 (ageNs o c.tov) ++ pad 4 (c.x.take (min 4 n)) ++
        pad 4 (List.replicate (min 4 n) c.var)
    | none => leBytes 4 0xFFFFFFFF ++ List.replicate 36 0#8
  tsOf s true o ++ leBytes 4 age ++ leBytes 4 seq ++ leBytes 1 j ++ leBytes 1 flags ++ leBytes 2 out.unknown ++
    leBytes 4 0 ++ leBytes 8 (chanMask (chansOf out.used)) ++ leBytes 8 (chanMask out.excl) ++
    leBytes 8 (chanMask (chansOf out.confl)) ++ leBytes 8 0 ++ pad 16 out.value ++ pad 16 out.var ++
    (List.range 8).flatMap entry

/-- A slot's record is written into its ring and its state kept; each group in CONFLICT counts (R314). -/
def putRecord (s : State) (j : Nat) (e : List Byte) (o : Int) (st : EstSlot) (flags0 : Nat) (out : SlotOut)
    (kx : List Word32) (kp : List (List Word32)) : State :=
  let s := onIf (out.confl ≠ []) (fun s => (s.count (FUS_CNT_VALUE 1) out.groups).setOn FUS_EVT_CONFLICT) s
  let flags0 := flags0 + (if out.used = [] then 16 else 0)
  let a := slOring e + st.seq % 2 ^ slOlog2 e * 512
  let s := (engineWrite s 5 0 a (slotRecord s j o st.seq flags0 (slN e) out)).1
  let st' : EstSlot :=
    { seq := (st.seq + 1) % 2 ^ 32, value := out.value, var := out.var, unknown := out.unknown, kx := kx, kp := kp }
  { s with fus := { s.fus with slots := tset s.fus.slots j st' } }

/-! ### Ego-motion (R320, R347) -/

/-- The pose problem of an EGO instant (R320) in the layout of R332: a pose kind with six unknowns, PRIOR set, the
propagated pose as X0 and the correspondences as records. -/
def egoProblem (rec : List Byte) (prop : List Word32) : List Byte :=
  let kind := if Config.egoPlane rec then 2 else 1
  let m := (Config.egoCount rec).toNat + 1
  let words := recWords kind 6
  padBytes 64 (leBytes 1 kind ++ leBytes 1 6 ++ leBytes 1 ((Config.egoIter rec).toNat + 1) ++ leBytes 1 1 ++ leBytes 4 m ++
    wordBytes [(Config.egoGains rec).1, (Config.egoGains rec).2]) ++
  padBytes 64 (wordBytes ((prop.drop 3).take 4 ++ prop.take 3)) ++
  padBytes 64 (wordBytes ((List.range 12).map (Config.egoPrior rec))) ++
  (List.range m).flatMap fun i => wordBytes ((List.range words).map (Config.egoRecord rec i))

/-- The EGO slot submits a problem to the fusion engine, or finds it busy (R347). `seq` is the SEQ of the instant's
record. -/
def egoSubmit (s : State) (seq : Nat) (b : List Byte) : State :=
  match s.fus.ego.running with
  | some _ => (s.count SLV_CNT_EGOBUSY_VALUE 1).setOn SLV_EVT_EGOBUSY
  | none =>
    let s := s.setOn SLV_STAT_FUSBUSY
    { s with fus := { s.fus with ego := { s.fus.ego with running := some (b, seq, s.slvCyc + denseTime b) } } }

/-- FUSION_PROBLEM_COMPLETE (R347): the fusion engine returns its result to the fusion unit. It starts from the last
accepted solution by R341. -/
def execFusionProblemComplete (s : State) : Host.Outcome State Fault Refusal :=
  finish s (
    match s.fus.ego.running with
    | none => s
    | some (b, seq, fin) =>
      if s.slvCyc < fin then s
      else
        let r := runDense b 0 true (if s.fus.ego.warm = [] then none else some s.fus.ego.warm)
        let s := s.setOff SLV_STAT_FUSBUSY
        { s with fus := { s.fus with ego := { s.fus.ego with running := none, result := some (seq, resultBytes r) } } })

/-- The EGO slot at an instant of its own (R320): of the results only that of the problem submitted at the previous EGO
instant serves. -/
def egoSlot (s : State) (j : Nat) (e : List Byte) (st : EstSlot) (o t : Int) : State :=
  let (s, cs, ex) := contributions s e o t
  let ego := s.fus.ego
  let prop := Config.egoPropagate ego.pose ((ego.imu.filter fun a => a.arr ≤ t).map fun a => (a.tov, a.meas)) o
  let good := (ego.result.filter fun r => (r.1 + 1) % 2 ^ 32 == st.seq && !bitOf (leField r.2 0 2) 1).map (·.2)
  let (value, var, warm) := match good with
    | some r => (Config.egoCorrect prop r, Config.egoVariance prop r, r)
    | none => (prop, Config.egoVariance prop [], ego.warm)
  let s := onIf good.isNone (fun s => s.count (FUS_CNT_VALUE 5) 1) s
  let out : SlotOut := { value := value, var := var, unknown := 0, used := cs, excl := ex, confl := [], groups := 0 }
  let s := putRecord s j e o st (8 * ofBool good.isNone) out st.kx st.kp
  let kept := (s.fus.ego.kept ++ [(o, value)]).drop (s.fus.ego.kept.length - 63)
  let s := { s with fus := { s.fus with ego := { s.fus.ego with
    pose := value, kept := kept, imu := s.fus.ego.imu.filter fun a => t < a.arr, result := none, warm := warm } } }
  match cs.find? fun c => c.idx == 1 with
  | none => s
  | some c =>
    let d := chanDesc s c.ch
    match newestAt (chanOf s c.ch) t with
    | some { ring := some i, .. } =>
      let (s, r, bs) := engineRead s 5 (chCtx d) (slotAddr d i) (chSlotSz d * 64)
      if r = 0 then egoSubmit s st.seq (egoProblem bs prop) else s
    | _ => s

/-- SLOT_SNAPSHOT (R311–R316): at O − FUS_CUT_SLOT the slots that deliver at O are computed and their records
written. -/
def execSlotSnapshot (s : State) : Host.Outcome State Fault Refusal :=
  finish s (
    let f := s.fus
    let cut := s.get FUS_CUT_SLOT * 1000
    match f.tables with
    | none => s
    | some tab =>
      if !s.on FUS_CTRL_READY ∨ f.slotDone ∨ s.accNs + cut < f.nextO then s
      else
        let o := presented s f.nextO
        let t := o - (cut * 65536 : Nat)
        let k := f.k + 1
        let s := snapAll s (if s.get FUS_GRID_NF = 0 then some t else f.lastGrid) t fun _ => true
        let s := { s with fus := { s.fus with slotDone := true, lastSlot := some t } }
        (List.range 32).foldl (fun s j =>
          let e := tab.slots.getD j []
          if slKind e = 0 ∨ k % max 1 (slDiv e) ≠ 0 then s
          else
            let st := tgetD s.fus.slots j EstSlot.fresh
            match slKind e with
            | 1 =>
              let (s, cs, ex) := contributions s e o t
              putRecord s j e o st 0 (redundantOut e st cs ex) st.kx st.kp
            | 2 =>
              let (s, cs, ex) := contributions s e o t
              let (out, x, p) := kalmanOut e st cs ex
              putRecord s j e o st 0 out x p
            | _ => egoSlot s j e st o t) s)

/-! ### The common grid (R317–R319) -/

/-- A cell's sums: weight, and features by number. -/
abbrev Cell := Word32 × Tbl Word32

/-- Corners and factors of a point at (u, v) (R318, R135). -/
def corners (u v : Word32) : List (Nat × Word32) :=
  let x0 := (floorInt (f32Val u)).toNat; let y0 := (floorInt (f32Val v)).toNat
  let lx := flAdd u (flNeg (f32OfInt x0)); let ly := flAdd v (flNeg (f32OfInt y0))
  let hx := flAdd f1 (flNeg lx); let hy := flAdd f1 (flNeg ly)
  [(y0 * 256 + x0, flMul hy hx), (y0 * 256 + x0 + 1, flMul hy lx), (y0 * 256 + 256 + x0, flMul ly hx),
   (y0 * 256 + 256 + x0 + 1, flMul ly lx)]

/-- One point is splatted; the answer says whether it was skipped. -/
def splatPoint (s : State) (m : List Word32) (fbase nfeat : Nat) (p : List Byte) (cells : Tbl Cell) :
    Tbl Cell × Bool :=
  let x := vAt (f32s p 0 1) 0; let y := vAt (f32s p 4 1) 0; let z := vAt (f32s p 8 1) 0; let w := vAt (f32s p 12 1) 0
  let row := fun r => fma (vAt m (4 * r + 2)) z (fma (vAt m (4 * r + 1)) y (fma (vAt m (4 * r)) x (vAt m (4 * r + 3))))
  let qz := row 2
  let zmin := BitVec.ofNat 32 (s.get FUS_GRID_Z_ZMIN); let zmax := BitVec.ofNat 32 (s.get FUS_GRID_Z_ZMAX)
  let rcell := flDiv f1 (BitVec.ofNat 32 (s.get FUS_GRID_GEOM_CELL))
  let u := fma (row 0) rcell 0x42FF0000#32; let v := fma (row 1) rcell 0x42FF0000#32
  let inside := fun c => flLe f0 c && flLt c 0x437F0000#32
  if flLt qz zmin || !flLt qz zmax || !inside u || !inside v then (cells, true)
  else
    ((corners u v).foldl (fun (cells : Tbl Cell) (c : Nat × Word32) =>
      let (wt, fs) := tgetD cells c.1 (f0, [])
      let wc := flMul w c.2
      let fs := (List.range nfeat).foldl (fun fs i =>
        let feat := f32Of (decodeFloat .fp16 (leField p (16 + 2 * i) 2))
        tset fs (fbase + i) (fma feat wc (tgetD fs (fbase + i) f0))) fs
      tset cells c.1 (flAdd wt wc, fs)) cells, false)

/-- The product of two 3 × 4 transforms, row-major: each entry by the fma chain of R318 and R333 (log entry 30). -/
def mul34 (a b : List Word32) : List Word32 :=
  (List.range 12).map fun i =>
    let r := i / 4 * 4; let c := i % 4
    let start := fun (x y : Word32) => if c = 3 then fma x y (vAt a (r + 3)) else flMul x y
    fma (vAt a (r + 2)) (vAt b (8 + c)) (fma (vAt a (r + 1)) (vAt b (4 + c)) (start (vAt a r) (vAt b c)))

/-- A FEATURE record is splatted (R317, R318, R320): M = D(TOV → O) · E of its entry. -/
def splatRecord (s : State) (o : Int) (d : Nat) (rec : List Byte) (ext : List Byte) (cells : Tbl Cell) :
    State × Tbl Cell × Bool :=
  let np := leField rec 64 4; let nfeat := leField rec 68 2; let fbase := leField rec 70 2
  let tov : Int := ((leField rec 16 6 * 1000000000 + leField rec 24 4 % 2 ^ 30) * 65536 + leField rec 22 2 : Nat)
  let kept := s.fus.ego.kept
  if tov < o - (s.get FUS_GRID_GEOM_MAXAGE * 1000 * 65536 : Nat) then (s.count (FUS_CNT_VALUE 3) 1, cells, false)
  else if s.get FUS_GRID_NF < fbase + nfeat ∨ nfeat = 0 ∨ 16 < nfeat then
    (s.count (FUS_CNT_VALUE 4) 1, cells, false)
  else match (kept.filter fun k => k.1 ≤ tov).getLast?, kept.getLast? with
    | some at_, some last =>
      let m := mul34 (Config.egoMotion at_.2 (tov - at_.1) last.2 (o - last.1)) (f32s ext 0 12)
      let stride := (16 + 2 * nfeat + 15) / 16 * 16
      let use := min np (chNpmax d * 64)
      let (cells, skip) := (List.range use).foldl (fun (acc : Tbl Cell × Nat) i =>
        let (c, sk) := splatPoint s m fbase nfeat ((rec.drop (128 + i * stride)).take stride) acc.1
        (c, acc.2 + ofBool sk)) (cells, np - use)
      (s.count (FUS_CNT_VALUE 4) skip, cells, true)
    | _, _ => (s.count (FUS_CNT_VALUE 3) 1, cells, false)

/-- FP16 code of an FP32 sum (R56). -/
def fp16Code (w : Word32) : Nat := (floatTo .fp16 false (f32Val w)).1

/-- Place of a grid buffer. -/
def gridBuf (s : State) (buf : Nat) : Nat :=
  s.get FUS_GRID_BASE * 65536 + buf * (196608 + s.get FUS_GRID_NF * 131072)

/-- The next instant at which the grid delivers, in accumulator ns (R310). -/
def nextGrid (s : State) : Nat :=
  let div := max 1 (s.get FUS_GRID_DIV)
  s.fus.nextO + (div - 1 - s.fus.k % div) * s.get FUS_OUT_PERIOD

/-- GRID_SNAPSHOT (R311, R317–R319): at O − FUS_CUT_GRID the grid of instant O is built into the buffer that is not
current. -/
def execGridSnapshot (s : State) : Host.Outcome State Fault Refusal :=
  finish s (
    let cut := s.get FUS_CUT_GRID * 1000
    match s.fus.tables with
    | none => s
    | some tab =>
      if !s.on FUS_CTRL_READY ∨ s.get FUS_GRID_NF = 0 ∨ s.fus.grid.isSome ∨ s.accNs + cut < nextGrid s then s
      else
        let oNs := nextGrid s
        let o := presented s oNs
        let t := o - (cut * 65536 : Nat)
        let nf := s.get FUS_GRID_NF
        let chans := sortBy (fun a b => chPriv (chanDesc s a) ≤ chPriv (chanDesc s b))
          ((List.range 64).filter fun n => chEn (chanDesc s n) && chKind (chanDesc s n) == 5)
        let s := snapAll s s.fus.lastSlot t fun d => chKind d == 5
        let (s, cells, used) := chans.foldl (fun (acc : State × Tbl Cell × Nat) n =>
          let (s, cells, used) := acc
          let d := chanDesc s n
          match newestAt (chanOf s n) t with
          | none => acc
          | some a =>
            if barred s n then (s, cells, used)
            else match a.ring with
              | none => (s, cells, used)
              | some i =>
                let (s, _, rec) := engineRead s 5 (chCtx d) (slotAddr d i) (chSlotSz d * 64)
                let (s, cells, ok) := splatRecord s o d rec (tab.ext.getD (chPriv d) []) cells
                (s, cells, if ok then used ||| 2 ^ chPriv d else used)) (s, [], 0)
        let cell := fun i => tgetD cells i (f0, [])
        let wplane := (List.range 65536).flatMap fun i => leBytes 2 (fp16Code (cell i).1)
        let fplane := (List.range 65536).flatMap fun i =>
          let c := cell i
          if fp16Code c.1 = 0 then List.replicate (2 * nf) 0#8
          else (List.range nf).flatMap fun k => leBytes 2 (fp16Code (tgetD c.2 k f0))
        let buf := gridBuf s (1 - s.get FUS_GRID_CUR_BUF)
        let s := (engineWrite s 5 0 (buf + 65536) wplane).1
        let s := (engineWrite s 5 0 (buf + 196608) fplane).1
        { s with fus := { s.fus with grid := some (oNs, used), lastGrid := some t } })

/-- At O the built grid is published (R319): header, then CUR and GEN. -/
def gridPublish (s : State) : State :=
  match s.fus.grid with
  | none => s
  | some (oNs, used) =>
    if oNs ≠ s.fus.nextO then s
    else
      let gen := s.get FUS_GRID_GEN_VALUE
      let buf := 1 - s.get FUS_GRID_CUR_BUF
      let header := tsOf s true (presented s oNs) ++ leBytes 4 (gen + 1) ++ leBytes 2 (s.get FUS_GRID_NF) ++
        leBytes 2 (s.get TRL_OCC_CFG_OCCF) ++ leBytes 2 (s.get TRL_OCC_CFG_NOCC) ++ leBytes 2 used ++
        leBytes 4 (s.get FUS_GRID_GEOM_CELL) ++ padBytes 52 (wordBytes (s.fus.ego.pose.take 13))
      let s := (engineWrite s 5 0 (gridBuf s buf) header).1
      let s := ((s.put FUS_GRID_GEN_VALUE (gen + 1)).put FUS_GRID_CUR_BUF buf).setOn FUS_EVT_GRID
      { s with fus := { s.fus with grid := none } }

/-- Held extrinsic entries latch at an instant, unless their result carries OVERFLOW (R321). -/
def calibLatch (s : State) : State :=
  let s := s.fus.calib.foldl (fun (s : State) p =>
    if p.2.2 then s.count (FUS_CNT_VALUE 6) 1
    else match s.fus.tables with
      | none => s
      | some t => { s with fus := { s.fus with tables := some { t with ext := t.ext.set p.1 (padBytes 64 p.2.1) } } }) s
  { s with fus := { s.fus with calib := [] } }

/-- The fusion unit's part of a step or mode change of Δ (R322), in 2^-16 ns; the accumulator holds the new time. The
arrivals not used by then are dropped, and IMU samples that wait for the EGO slot alone. -/
def fusTimeStep (s : State) (delta : Int) : State :=
  let heldArr := s.fus.chans.flatMap fun p => p.2.arrivals
  let waiting := s.fus.ego.imu.filter fun a => !heldArr.any fun b => b.arr == a.arr && b.tov == a.tov && b.meas == a.meas
  let s := s.count (FUS_CNT_VALUE 7) waiting.length
  let s := s.fus.chans.foldl (fun (s : State) p =>
    let d := chanDesc s p.1
    let c := p.2
    let s := s.count (FUS_CNT_VALUE 7) ((c.arrivals.filter fun a => !a.used).length)
    let c := { c with arrivals := c.arrivals.filter fun a => a.used }
    s.setChan p.1 (if chStepKeep d then { c with tref := c.tref + delta, aPrev := c.aPrev + delta }
      else if chKind d = 3 then c
      else { c with n := 0, valid := false, okRun := 0 })) s
  { s with fus := { s.fus with
      nextO := nextInstant s s.accNs, slotDone := false, grid := none
      lastSlot := s.fus.lastSlot.map (· + delta), lastGrid := s.fus.lastGrid.map (· + delta)
      ego := { s.fus.ego with kept := s.fus.ego.kept.map fun k => (k.1 + delta, k.2), imu := [] } } }

end Sys2Proof.Machine
end

