-- ==== Sys2Proof/Machine/Ecm.lean ====
section
/-! DEFINITION. The MainDevice cycle engine: map entries, cycles, the merge, substitution, acyclic frames
(R460–R467). -/

namespace Sys2Proof.Machine

open Sys2Proof Sys2Proof.Machine.Reg

/-! ### Segments and their frames -/

/-- A segment with nothing in progress. -/
def Seg.idle : Seg := { cyc := none, last := none, sent := [], subst := false, acycAt := none }

/-- A segment beside its registers. -/
def segOf (s : State) (g : Nat) : Seg := tgetD s.segs g Seg.idle

/-- Replace it. -/
def State.setSeg (s : State) (g : Nat) (x : Seg) : State := { s with segs := tset s.segs g x }

/-- Frame bytes held as 64-bit words from a register on (R476). -/
def frameWords (s : State) (reg : Nat → Nat) (n : Nat) : List Byte :=
  (((List.range ((n + 7) / 8)).flatMap fun i => leBytes 8 (s.rd (reg i)).toNat)).take n

/-- Frame bytes written as 64-bit words. -/
def putFrameWords (s : State) (reg : Nat → Nat) (bs : List Byte) : State :=
  forUpTo ((bs.length + 7) / 8) (fun i (s : State) =>
    let old := leBytes 8 (s.rd (reg i)).toNat
    let new := (bs.drop (8 * i)).take 8
    s.wr (reg i) (BitVec.ofNat 64 (leNat (spliceBytes old 0 new)))) s

/-- Frame bytes without FCS that a segment sends. -/
def frameLen (s : State) (g : Nat) : Nat := s.get (FLD_ECM_FLEN_BYTES g) - 4

/-- Port number of a segment's port A or B, beside Ethernet ports 0–4. -/
def segPort (g : Nat) (b : Bool) : Nat := 8 + 2 * g + ofBool b

/-! ### Map entries (R462) -/

/-- Bytes of a field type; 0 for a reserved code. -/
def typeBytes : Nat → Nat
  | 0 => 2 | 1 => 2 | 2 => 4 | 3 => 4 | 4 => 4 | 5 => 1 | 6 => 1 | 7 => 1 | _ => 0

/-- Valid entries of one direction: 0 input, 1 output. -/
def entriesOf (s : State) (g dir : Nat) : List Nat :=
  (List.range 256).filter fun e => s.on (FLD_ECM_MAP_LO_VALID g e) && s.get (FLD_ECM_MAP_LO_DIR g e) == dir

/-- The word an input field gives: raw × SCALE; FP32 copied; BIT 1.0 or +0 (R462). -/
def inputWord (ty bit raw : Nat) (scale : Word32) : Word32 :=
  match ty with
  | 0 => flMul (f32OfInt (signedOf 16 raw)) scale
  | 1 => flMul (f32OfInt raw) scale
  | 2 => flMul (f32OfInt (signedOf 32 raw)) scale
  | 3 => flMul (f32OfInt raw) scale
  | 4 => BitVec.ofNat 32 raw
  | 5 => flMul (f32OfInt (signedOf 8 raw)) scale
  | 6 => flMul (f32OfInt raw) scale
  | _ => if raw.testBit bit then 0x3F800000#32 else 0#32

/-- Conversion to an unsigned integer of `w` bits, saturated, NaN giving 0 (R462). -/
def floatToUint (w : Nat) (v : FVal) : Nat :=
  match v with
  | .nan => 0
  | .inf n => if n then 0 else 2 ^ w - 1
  | .fin _ _ _ => (clampInt (rneInt v) 0 ((2 ^ w : Nat) - 1)).toNat

/-- The raw value an output word gives: the type's conversion of w × SCALE; FP32 copied; BIT 1 when w ≥ 0.5 (R462). -/
def outputRaw (ty : Nat) (w scale : Word32) : Nat :=
  let v := f32Val (flMul w scale)
  match ty with
  | 0 => codeOf 16 (floatToInt 16 v).1
  | 1 => floatToUint 16 v
  | 2 => codeOf 32 (floatToInt 32 v).1
  | 3 => floatToUint 32 v
  | 4 => w.toNat
  | 5 => codeOf 8 (floatToInt 8 v).1
  | 6 => floatToUint 8 v
  | _ => ofBool (flLe 0x3F000000#32 w)

/-- A raw value put into frame bytes at an entry's place. -/
def putRaw (ty ofs bit raw : Nat) (bs : List Byte) : List Byte :=
  if ty = 7 then
    let b := (bs.getD ofs 0#8).toNat
    spliceBytes bs ofs (leBytes 1 (withBits b bit bit raw))
  else spliceBytes bs ofs (leBytes (typeBytes ty) raw)

/-! ### Cycles (R460) -/

/-- A cycle ends bad (R464, R465): INVALID, the count, the run, SUBST. -/
def badCycle (s : State) (g : Nat) (missed : Bool) : State :=
  let s := s.setOn (FLD_ECM_STAT_INVALID g)
  let s := if missed then (s.count (FLD_ECM_CNT_VALUE g 1) 1).setOn (FLD_ECM_EVT_MISSED g)
    else (s.count (FLD_ECM_CNT_VALUE g 0) 1).setOn (FLD_ECM_EVT_BADWKC g)
  let s := s.count (FLD_ECM_STAT_BADRUN g) 1
  if max 1 (s.get (FLD_ECM_CTL_SUBN g)) ≤ s.get (FLD_ECM_STAT_BADRUN g) ∧ !s.on (FLD_ECM_STAT_SUBST g) then
    let s := (s.setOn (FLD_ECM_STAT_SUBST g)).count (FLD_ECM_CNT_VALUE g 2) 1
    let s := (s.setOn (FLD_ECM_EVT_SUBST g)).setSeg g { segOf s g with subst := true }
    s.emergency 0xFF02 g
  else s

/-- Segment `g` meets an accepted boundary of its group at the present instant (R460). -/
def segBoundary (s : State) (g : Nat) : State :=
  let x := segOf s g
  let tooSoon : Bool := match x.last with
    | some t => s.cyc < t + 31200
    | none => false
  if tooSoon then s.count (FLD_ECM_CNT_VALUE g 3) 1
  else
    let s := if x.cyc.isSome then badCycle s g true else s
    let c : SegCyc := { b := s.cyc, phase := 0, frame := [], sentA := false, sentB := false, retA := none, retB := none
                        mergeAt := 0 }
    (s.countWrap (FLD_ECM_CNT_CYCLE_VALUE g) 1).setSeg g { segOf s g with cyc := some c, last := some s.cyc }

/-- The MainDevice part of an accepted boundary of a loop group. -/
def ecmBoundary (s : State) (grp : Nat) : State :=
  forUpTo 4 (fun g s =>
    if s.on (FLD_ECM_CTL_ENABLE g) ∧ s.get (FLD_ECM_CTL_GRP g) = grp then segBoundary s g else s) s

/-- One output entry converted into the frame; the answer holds its raw value too. -/
def convertEntry (s : State) (g : Nat) (sub : Bool) (sent : Tbl Nat) (bs : List Byte) (e : Nat) : List Byte × Nat :=
  let ty := s.get (FLD_ECM_MAP_LO_TYPE g e)
  let ofs := s.get (FLD_ECM_MAP_LO_OFS g e)
  let bit := s.get (FLD_ECM_MAP_LO_BIT g e)
  let scale := BitVec.ofNat 32 (s.get (FLD_ECM_MAP_HI_SCALE g e))
  let tableWord := BitVec.ofNat 32 (s.get (FLD_ECM_OUT_VALUE (s.get (FLD_ECM_MAP_LO_WORD g e))))
  let templ := if ty = 7 then ofBool ((bs.getD ofs 0#8).toNat.testBit bit) else leField bs ofs (typeBytes ty)
  let raw := if !sub then outputRaw ty tableWord scale
    else if s.on (FLD_ECM_MAP_LO_SUBMODE g e) then tgetD sent e templ
    else outputRaw ty (BitVec.ofNat 32 (s.get (FLD_ECM_MAP_HI_SUBV g e))) scale
  (if typeBytes ty = 0 then bs else putRaw ty ofs bit raw bs, raw)

/-- ECM_OUTPUT_SNAPSHOT (R460 instants 1 and 2, R462, R465): the output words that the entries name are read and
converted into the template; leaving substitution takes effect here (R545). -/
def execEcmOutputSnapshot (g : Nat) (s : State) : Host.Outcome State Fault Refusal :=
  finish s (
    let x := segOf s g
    match x.cyc with
    | none => s
    | some c =>
      if c.phase ≠ 0 ∨ s.cyc + 1000 < c.b + s.get (FLD_ECM_TIMING_TXOFS g) then s
      else
        let early : Bool := !(s.get BLV_CLE_GRP_EVT_DONE).testBit (s.get (FLD_ECM_CTL_GRP g))
        let s := onIf early (·.count (FLD_ECM_CNT_VALUE g 4) 1) s
        let sub := s.on (FLD_ECM_STAT_SUBST g)
        let leaves : Bool := x.subst && !sub
        let s := onIf leaves (·.epochEvent 2) s
        let bs := frameWords s (FLD_ECM_TPL g) 2048
        let (bs, sent) := (entriesOf s g 1).foldl (fun (a : List Byte × Tbl Nat) e =>
          let (bs, raw) := convertEntry s g sub x.sent a.1 e
          (bs, tset a.2 e raw)) (bs, x.sent)
        let c' : SegCyc := { c with phase := 1, frame := bs.take (frameLen s g) }
        s.setSeg g { x with cyc := some c', sent := sent, subst := sub })

/-- Distributed-clock time of the present instant (R467). -/
def dcNow (s : State) : Int :=
  (s.nowNs : Int) - s.getInt TIM_SRC_EPOCHOFS_SEC * 1000000000

/-- ECM_FRAME_SEND (R460 instant 3, R463, R467). -/
def execEcmFrameSend (g : Nat) (s : State) : Host.Outcome State Fault Refusal :=
  finish s (
    let x := segOf s g
    match x.cyc with
    | none => s
    | some c =>
      if c.phase ≠ 1 ∨ s.cyc < c.b + s.get (FLD_ECM_TIMING_TXOFS g) then s
      else
        let bs := (List.range 16).foldl (fun bs d =>
          if s.on (FLD_ECM_EWKC_VALID g d) && s.on (FLD_ECM_EWKC_DCTIME g d) then
            (spliceBytes bs (s.get (FLD_ECM_EWKC_OFS g d) - 8) (leBytes 8 (codeOf 64 (dcNow s)))).take c.frame.length
          else bs) c.frame
        let a := s.on (FLD_ECM_STAT_LINKA g)
        let b := s.on (FLD_ECM_CTL_REDUND g) && s.on (FLD_ECM_STAT_LINKB g)
        let s := onIf a (·.send (.frame (segPort g false) bs)) s
        let s := onIf b (·.send (.frame (segPort g true) bs)) s
        let c' : SegCyc := { c with phase := 2, frame := bs, sentA := a, sentB := b }
        s.setSeg g { x with cyc := some c' })

/-- The merge starts (R460 instant 4). -/
def startMerge (s : State) (g : Nat) (x : Seg) (c : SegCyc) : State :=
  let c' : SegCyc := { c with phase := 3, mergeAt := s.blvCyc + 24 + (entriesOf s g 0).length }
  s.setSeg g { x with cyc := some c' }

/-- ECM_FRAME_RETURN (R463): a copy is back on a port; with every copy that left back, the merge starts. -/
def execEcmFrameReturn (g port : Nat) (fcsOk : Bool) (frame : List Byte) (s : State) : Host.Outcome State Fault Refusal :=
  finish s (
    let x := segOf s g
    match x.cyc with
    | none => s
    | some c =>
      if c.phase ≠ 2 ∨ !fcsOk ∨ c.b + s.get (FLD_ECM_TIMING_DEADLINE g) < s.cyc then s
      else
        let c : SegCyc := if port = 0 then { c with retA := some (c.retA.getD frame) }
          else { c with retB := some (c.retB.getD frame) }
        let back := ofBool c.retA.isSome + ofBool c.retB.isSome
        if ofBool c.sentA + ofBool c.sentB ≤ back then startMerge s g x c else s.setSeg g { x with cyc := some c })

/-- ECM_DEADLINE (R460): B + DEADLINE passes. -/
def execEcmDeadline (g : Nat) (s : State) : Host.Outcome State Fault Refusal :=
  finish s (
    let x := segOf s g
    match x.cyc with
    | none => s
    | some c =>
      if c.phase ≠ 2 ∨ s.cyc < c.b + s.get (FLD_ECM_TIMING_DEADLINE g) then s else startMerge s g x c)

/-- The datagrams checked: counter offset and expected counter. -/
def checkedDatagrams (s : State) (g : Nat) : List (Nat × Nat) :=
  ((List.range 16).filter fun d => s.on (FLD_ECM_EWKC_VALID g d)).map fun d =>
    (s.get (FLD_ECM_EWKC_OFS g d), s.get (FLD_ECM_EWKC_EXPECT g d))

/-- Two returned copies merged: bytes ORed, each checked counter summed (R463). -/
def mergeCopies (dg : List (Nat × Nat)) (a b : List Byte) : List Byte :=
  let ored := List.zipWith (· ||| ·) a b
  dg.foldl (fun bs d => spliceBytes bs d.1 (leBytes 2 (leField a d.1 2 + leField b d.1 2))) ored

/-- Words of the input entries of a good cycle land (R464). -/
def landInputs (s : State) (g : Nat) (bs : List Byte) : State :=
  (entriesOf s g 0).foldl (fun (s : State) e =>
    let ty := s.get (FLD_ECM_MAP_LO_TYPE g e)
    let raw := leField bs (s.get (FLD_ECM_MAP_LO_OFS g e)) (typeBytes ty)
    if typeBytes ty = 0 then s
    else s.put (FLD_ECM_IN_VALUE (s.get (FLD_ECM_MAP_LO_WORD g e)))
      (inputWord ty (s.get (FLD_ECM_MAP_LO_BIT g e)) raw (BitVec.ofNat 32 (s.get (FLD_ECM_MAP_HI_SCALE g e)))).toNat) s

/-- ECM_MERGE_END (R463–R465): instant 5. -/
def execEcmMergeEnd (g : Nat) (s : State) : Host.Outcome State Fault Refusal :=
  finish s (
    let x := segOf s g
    match x.cyc with
    | none => s
    | some c =>
      if c.phase ≠ 3 ∨ s.blvCyc < c.mergeAt then s
      else
        let dg := checkedDatagrams s g
        let s := s.setSeg g { x with cyc := none }
        let merged := match c.retA, c.retB with
          | some a, some b => some (mergeCopies dg a b)
          | some a, none => some a
          | none, some b => some b
          | none, none => none
        let split : Bool := match c.retA, c.retB with
          | some a, some b => (dg.any fun d => leField a d.1 2 ≠ 0) && (dg.any fun d => leField b d.1 2 ≠ 0)
          | _, _ => false
        match merged with
        | none => badCycle s g true
        | some bs =>
          let s := (putFrameWords s (FLD_ECM_RET g) bs).put (FLD_ECM_STAT_SPLIT g) (ofBool split)
          if dg.all fun d => leField bs d.1 2 == d.2 then
            let s := (landInputs s g bs).setOff (FLD_ECM_STAT_INVALID g)
            (s.put (FLD_ECM_STAT_BADRUN g) 0).pulse (72 + g)
          else badCycle s g false)

/-! ### Writes and links -/

/-- Bytes of a valid entry lie beyond FLEN (R461). -/
def entryBeyond (s : State) (g e : Nat) : Bool :=
  s.on (FLD_ECM_MAP_LO_VALID g e) &&
    s.get (FLD_ECM_FLEN_BYTES g) < s.get (FLD_ECM_MAP_LO_OFS g e) + typeBytes (s.get (FLD_ECM_MAP_LO_TYPE g e))

/-- Words that a segment's input entries name. -/
def inputWords (s : State) (g : Nat) : List Nat := (entriesOf s g 0).map fun e => s.get (FLD_ECM_MAP_LO_WORD g e)

/-- The enable of a segment is accepted (R461). -/
def segEnableOk (s : State) (g : Nat) : Bool :=
  let tx := s.get (FLD_ECM_TIMING_TXOFS g)
  let fl := s.get (FLD_ECM_FLEN_BYTES g)
  1000 ≤ tx && tx + (fl + 20) * 80 + s.get (FLD_ECM_RTD_NS g) ≤ s.get (FLD_ECM_TIMING_DEADLINE g) &&
    64 ≤ fl && fl ≤ 1518 && (List.range 256).all (fun e => !entryBeyond s g e) &&
    (List.range 4).all fun h => h == g || !s.on (FLD_ECM_CTL_ENABLE h) ||
      (inputWords s h).all fun w => !(inputWords s g).contains w

/-- A write of FLD_ECM_s_CTL_ENABLE has taken effect: R461's check, or the segment stops. -/
def ecmEnableWritten (g old new : Nat) (s : State) : State :=
  if old = 0 ∧ new = 1 then
    if segEnableOk s g then
      ((s.setOff (FLD_ECM_STAT_CFGERR g)).setOn (FLD_ECM_STAT_RUN g)).setSeg g
        { segOf s g with cyc := none, sent := [] }
    else (s.put (FLD_ECM_CTL_ENABLE g) 0).setOn (FLD_ECM_STAT_CFGERR g)
  else if old = 1 ∧ new = 0 then (s.setOff (FLD_ECM_STAT_RUN g)).setSeg g { segOf s g with cyc := none }
  else s

/-- SUBST is written 1 (R465): the bit clears and the run of bad cycles is 0. -/
def substCleared (g : Nat) (s : State) : State :=
  (s.setOff (FLD_ECM_STAT_SUBST g)).put (FLD_ECM_STAT_BADRUN g) 0

/-- ECM_LINK_CHANGE (R463). -/
def execEcmLinkChange (g port : Nat) (up : Bool) (s : State) : Host.Outcome State Fault Refusal :=
  finish s (
    let f := if port = 0 then FLD_ECM_STAT_LINKA g else FLD_ECM_STAT_LINKB g
    if 4 ≤ g ∨ 2 ≤ port ∨ s.on f = up then s
    else
      let s := (s.put f (ofBool up)).setOn (FLD_ECM_EVT_LINK g)
      onIf (!up) (·.count (FLD_ECM_CNT_VALUE g 5) 1) s)

/-! ### Acyclic frames (R466) -/

/-- GO is written 1: a frame is outstanding; ignored while BUSY. -/
def acyclicGo (g : Nat) (s : State) : State :=
  if s.on (FLD_ECM_ACYC_BUSY g) then s
  else ((s.setOn (FLD_ECM_ACYC_BUSY g)).put (FLD_ECM_ACYC_RESULT g) 0).setSeg g { segOf s g with acycAt := none }

/-- Armed target of a compare unit, in 2^-16 ns. -/
def cmpNext (s : State) (c : Nat) : Nat :=
  (s.get (TIM_CMP_NEXT_HI_SEC c) * 1000000000 + s.get (TIM_CMP_NEXT_LO_NS c)) * 65536 + s.get (TIM_CMP_NEXT_LO_FRAC c)

/-- Period of a compare unit, in 2^-16 ns. -/
def cmpPer (s : State) (c : Nat) : Nat := s.get (TIM_CMP_PER_NS c) * 65536 + s.get (TIM_CMP_PER_FRAC c)

/-- Present time less a target, in 2^-16 ns; in wrap mode in whole ns modulo 2^32, the target converted to W (R283). -/
def cmpDiff (s : State) (tgt : Nat) : Int :=
  if s.epochMode then (s.now16 : Int) - tgt
  else signedOf 32 (codeOf 32 ((s.wrapNs : Int) - tgt / 65536)) * 65536

/-- Bandstand cycles, from the present cycle on, to the next cycle start of segment `g`: the first firing of an armed
unit on its group that comes 31,200 cycles after the previous start; none where no unit is armed on the group. -/
def nextStart (s : State) (g : Nat) : Option Nat :=
  let gap := match (segOf s g).last with
    | some t => t + 31200 - s.cyc
    | none => 0
  let of := fun (c : Nat) =>
    let t := ceilDiv (-(cmpDiff s (cmpNext s c))).toNat 65536
    let per := max 1 (ceilDiv (cmpPer s c) 65536)
    if gap ≤ t then t else if s.on (TIM_CMP_CTL_PERIODIC c) then t + ceilDiv (gap - t) per * per else t
  let armed := (List.range 32).filter fun c =>
    s.on (TIM_CMP_STAT_ARMED c) && s.get (TIM_CMP_CTL_DEST c) == 8 + s.get (FLD_ECM_CTL_GRP g)
  (armed.map of).foldl (fun m t => match m with
    | some u => some (min u t)
    | none => some t) none

/-- ECM_ACYCLIC_SEND (R466): after instant 5, as soon as the frame can return before the next TXOFS. -/
def execEcmAcyclicSend (g : Nat) (s : State) : Host.Outcome State Fault Refusal :=
  finish s (
    let x := segOf s g
    let len := s.get (FLD_ECM_ACYC_LEN g)
    let back := (len + 20) * 80 + s.get (FLD_ECM_RTD_NS g)
    let room : Bool := !s.on (FLD_ECM_CTL_ENABLE g) || match nextStart s g with
      | some t => back ≤ t + s.get (FLD_ECM_TIMING_TXOFS g)
      | none => true
    if !s.on (FLD_ECM_ACYC_BUSY g) ∨ x.acycAt.isSome ∨ x.cyc.isSome ∨ !room then s
    else
      let bs := frameWords s (FLD_ECM_ACB g) len
      let s := onIf (s.on (FLD_ECM_STAT_LINKA g)) (·.send (.frame (segPort g false) bs)) s
      s.setSeg g { x with acycAt := some s.cyc })

/-- The outstanding frame ends with a RESULT. -/
def acyclicEnd (s : State) (g result : Nat) : State :=
  let s := (s.put (FLD_ECM_ACYC_RESULT g) result).setOff (FLD_ECM_ACYC_BUSY g)
  (s.setOn (FLD_ECM_EVT_ACYC g)).setSeg g { segOf s g with acycAt := none }

/-- ECM_ACYCLIC_RETURN (R466): the returned copy overwrites the buffer. -/
def execEcmAcyclicReturn (g : Nat) (frame : List Byte) (s : State) : Host.Outcome State Fault Refusal :=
  finish s (
    if s.on (FLD_ECM_ACYC_BUSY g) ∧ (segOf s g).acycAt.isSome then
      acyclicEnd (putFrameWords s (FLD_ECM_ACB g) (frame.take 2048)) g 1
    else s)

/-- ECM_ACYCLIC_TIMEOUT (R466). -/
def execEcmAcyclicTimeout (g : Nat) (s : State) : Host.Outcome State Fault Refusal :=
  finish s (
    match (segOf s g).acycAt with
    | some t => if s.on (FLD_ECM_ACYC_BUSY g) ∧ t + 1000000 ≤ s.cyc then acyclicEnd s g 2 else s
    | none => s)

end Sys2Proof.Machine
end

