-- ==== Sys2Proof/Machine/Reflex.lean ====
section
/-! DEFINITION. The reflex arrays: images and programs, conversions and the history, evaluations, bindings
(R412–R426, R440). -/

namespace Sys2Proof.Machine

open Sys2Proof Sys2Proof.Machine.Reg

/-! ### Weight banks and images (R412, R417–R423) -/

/-- Place of byte `ofs` of a weight bank. -/
def wbankPlace (bank ofs : Nat) : Nat := areaBase areaWeights + bank * 0x200000 + ofs

/-- Bytes of a weight bank; a bank whose contents are undefined (R430) holds free values. -/
def wbank (s : State) (bank ofs n : Nat) : List Byte :=
  match tget s.rfx.undef bank with
  | none => s.load (wbankPlace bank ofs) n
  | some k => (List.range n).map fun i => Config.freeByte k (ofs + i)

/-- The active weight bank. -/
def actBank (s : State) : Nat := s.get RFX_CTRL_ACTBANK

/-- A program entry (R418). -/
def progEntry (s : State) (bank p : Nat) : List Byte := wbank s bank (64 + 64 * p) 64

def prValid (e : List Byte) : Bool := leField e 0 1 == 1
def prNlayer (e : List Byte) : Nat := leField e 1 1
def prK0 (e : List Byte) : Nat := leField e 2 2
def prLayOfs (e : List Byte) : Nat := leField e 4 4
def prInOfs (e : List Byte) : Nat := leField e 8 4
def prMacs (e : List Byte) : Nat := leField e 12 4
def prScyc (e : List Byte) : Nat := leField e 16 2

/-- Layer descriptors of a program (R419). -/
def progLayers (s : State) (bank : Nat) (e : List Byte) : List (List Byte) :=
  (List.range (prNlayer e)).map fun l => wbank s bank (prLayOfs e + 32 * l) 32

def lyK (l : List Byte) : Nat := leField l 0 2
def lyN (l : List Byte) : Nat := leField l 2 2
def lyAct (l : List Byte) : Nat := leField l 4 1
def lyWofs (l : List Byte) : Nat := leField l 8 4
def lySbofs (l : List Byte) : Nat := leField l 12 4

/-- Cycles of a layer (R422). -/
def layerCycles (l : List Byte) : Nat := 256 + ceilDiv (ceilDiv (lyK l) 128 * ceilDiv (lyN l) 128) 4 + 15

/-- Neighbouring layers fit: K of each is N of the one before. -/
def layersChain (k : Nat) : List (List Byte) → Bool
  | [] => true
  | l :: ls => lyK l == k && layersChain (lyN l) ls

/-- A VALID entry meets R418, R419, R422 and lies within LEN (R423). -/
def progOk (s : State) (bank len : Nat) (e : List Byte) : Bool :=
  let ls := progLayers s bank e
  let ofsOk := fun (o n : Nat) => o % 64 == 0 && o < len && o + n ≤ len
  let last := ls.getLast?
  1 ≤ prNlayer e && prNlayer e ≤ 16 && 1 ≤ prK0 e && prK0 e ≤ 1024 && leField e 18 46 == 0 &&
  ofsOk (prLayOfs e) (32 * prNlayer e) && ofsOk (prInOfs e) (8 * prK0 e) && layersChain (prK0 e) ls &&
  ls.all (fun l => 1 ≤ lyK l && lyK l ≤ 1024 && 1 ≤ lyN l && lyN l ≤ 1024 && lyAct l ≤ 1 && leField l 5 3 == 0 &&
    leField l 16 16 == 0 && ofsOk (lyWofs l) (lyK l * lyN l) && ofsOk (lySbofs l) (8 * lyN l) &&
    (List.range (2 * lyN l)).all fun i =>
      f32IsFinite (BitVec.ofNat 32 (leNat (wbank s bank (lySbofs l + 4 * i) 4)))) &&
  (match last with | some l => lyN l ≤ 64 | none => false) &&
  prScyc e == ls.foldl (fun a l => a + layerCycles l) 0 && prScyc e ≤ 2200 &&
  prMacs e == ls.foldl (fun a l => a + lyK l * lyN l) 0 && prMacs e ≤ 2097152

/-- Image bytes named by a bank's header. -/
def imageLen (s : State) (bank : Nat) : Nat := leNat (wbank s bank 4 4)

/-- Layer descriptors of an image, for the time of its check (R423). -/
def imageLayers (s : State) (bank : Nat) : Nat :=
  (List.range 16).foldl (fun a p =>
    let e := progEntry s bank p
    if prValid e then a + prNlayer e else a) 0

/-- Programs with VALID = 1 in a bank. -/
def progMask (s : State) (bank : Nat) : Nat := maskOf 16 fun p => prValid (progEntry s bank p)

/-- The image of a bank passes R423. -/
def imageOk (s : State) (bank : Nat) : Bool :=
  let len := imageLen s bank
  leNat (wbank s bank 0 4) == 0x52465831 && 4096 ≤ len && len ≤ 2097152 && len % 64 == 0 &&
  leNat (wbank s bank 8 56) == 0 &&
  (List.range 16).all (fun p =>
    let e := progEntry s bank p
    if leField e 0 1 = 0 then leNat e == 0 else prValid e && progOk s bank len e) &&
  (List.range 8).all fun g =>
    !s.on (RFX_BIND_EN g) || (progMask s bank).testBit (s.get (RFX_BIND_PROG g))

/-- What a read of the Belvedere SRAM meets is counted (R382): 1 a corrected error, 2 an uncorrectable one. -/
def State.sramEcc (s : State) (ecc : Nat) : State :=
  (s.count BLV_SRAM_CE_VALUE (ofBool (ecc = 1))).count BLV_SRAM_UE_VALUE (ofBool (ecc = 2))

/-! ### Conversions and the history (R413, R420, R424) -/

/-- Replace the arrays' state. -/
def State.setRfx (s : State) (r : Reflex) : State := { s with rfx := r }

/-- A firing of destination 0x01 (R284, R289, R413, R424): it starts a conversion unless one started less than 500 ns
before; firings of one cycle are one event. -/
def conversionStart (s : State) (c : Nat) : State :=
  let r := s.rfx
  let groups := if !s.on RFX_CTRL_ENABLE then [] else
    ((List.range 8).filter fun g => s.on (RFX_BIND_EN g) && s.get (RFX_BIND_CMP g) == c).map fun g =>
      (g, s.get (RFX_BIND_PROG g))
  match r.convs.find? fun v => v.t0 == s.cyc with
  | some v =>
    let v' := { v with units := v.units ++ [c], groups := sortBy (fun a b => a.1 ≤ b.1) (v.groups ++ groups) }
    s.setRfx { r with convs := r.convs.map fun w => if w.t0 = s.cyc then v' else w }
  | none =>
    let real : Bool := match r.lastConv with
      | some t => t + 500 ≤ s.cyc
      | none => true
    let v : Conv := { t0 := s.cyc, t16 := s.now16, units := [c], groups := groups, real := real }
    let s := s.setRfx { r with convs := r.convs ++ [v], lastConv := if real then some s.cyc else r.lastConv }
    if real then { s with fus := { s.fus with conv := some (s.now16, s.cyc) } } else s

/-- The history takes the codes of a conversion; an absent channel repeats its depth 0 (R420, R424). -/
def pushHistory (s : State) (codes : List Int) (absent : Nat) : State :=
  let push := fun (ch : Nat) (h : List Int) =>
    ((if absent.testBit ch then h.getD 0 0 else clampInt (codes.getD ch 0) (-131072) 131071) :: h).take 128
  s.setRfx { s.rfx with hist := s.rfx.hist.mapIdx push }

/-- Depth-`k` code of a channel. -/
def histAt (s : State) (ch k : Nat) : Int := (s.rfx.hist.getD ch []).getD k 0

/-- Groups a conversion releases while RFX is enabled (R426). -/
def releasedGroups (s : State) (v : Conv) : List (Nat × Nat) := if s.on RFX_CTRL_ENABLE then v.groups else []

/-- The conversion whose T2 is due, if unit `c` fired for it. -/
def dueConv (s : State) (c : Nat) : Option Conv :=
  match s.rfx.convs with
  | v :: _ => if v.t0 + 700 ≤ s.cyc ∧ c ∈ v.units then some v else none
  | [] => none

/-- Absent channels of a conversion: all of them where none took place. -/
def absentMask (v : Conv) (absent : Nat) : Nat := if v.real then absent % 256 else 255

/-! ### Evaluations (R415, R416, R421, R422, R424, R425) -/

/-- An INT8 from an FP32 word (R56). -/
def toI8 (w : Word32) : Int := (floatToInt 8 (f32Val w)).1

/-- Input elements of a program (R421). -/
def evalInputs (s : State) (bank : Nat) (e : List Byte) : List Int :=
  (List.range (prK0 e)).map fun i =>
    let m := wbank s bank (prInOfs e + 8 * i) 8
    let src := leField m 0 2
    if bitOf src 15 then 0
    else
      let v := scale2 (f32OfInt (histAt s (bitsOf src 9 7) (bitsOf src 6 0))) (-17)
      toI8 (flMul v (BitVec.ofNat 32 (leField m 4 4)))

/-- Channels a program's input map reads through entries with ZERO = 0 (R424). -/
def inputChannels (s : State) (bank : Nat) (e : List Byte) : Nat :=
  (List.range (prK0 e)).foldl (fun m i =>
    let src := leNat (wbank s bank (prInOfs e + 8 * i) 2)
    if bitOf src 15 then m else m ||| 2 ^ bitsOf src 9 7) 0

/-- FP32 outputs of a layer (R421). -/
def layerOut (s : State) (bank : Nat) (l : List Byte) (x : List Int) : List Word32 :=
  let n := lyN l
  let w := wbank s bank (lyWofs l) (lyK l * n)
  let sb := wbank s bank (lySbofs l) (8 * n)
  (List.range n).map fun j =>
    let acc := (x.mapIdx fun k v => v * signedOf 8 (leField w (k * n + j) 1)).foldl (· + ·) 0
    let v := fma (f32OfInt acc) (BitVec.ofNat 32 (leField sb (4 * j) 4)) (BitVec.ofNat 32 (leField sb (4 * n + 4 * j) 4))
    if lyAct l = 1 ∧ !flLt 0#32 v then 0#32 else v

/-- The 64 result words of a program (R421). -/
def evaluate (s : State) (bank : Nat) (e : List Byte) : List Word32 :=
  let out := (progLayers s bank e).foldl (fun (acc : List Int × List Word32) l =>
    let v := layerOut s bank l acc.1
    (v.map toI8, v)) (evalInputs s bank e, [])
  (out.2 ++ List.replicate 64 0#32).take 64

/-- The arrays are occupied in a cycle: an evaluation is before its T3 (R415, R422). -/
def arraysBusy (s : State) (at_ : Nat) : Bool := s.rfx.evals.any fun e => e.occ && at_ < e.t0 + 1800

/-- Release of one group's evaluation at T2 (R415, R416, R424, R425). FLAGS: 0 ABSENT, 1 BUSY, 2 NOPROG, 3 ECC,
5 STALE. -/
def releaseGroup (s : State) (v : Conv) (absent ecc g prog : Nat) : State :=
  let bank := actBank s
  let e := progEntry s bank prog
  let stale := 32 * ofBool (s.on (SLC_L_STAT_STALE 8))
  let ev : Eval := { g := g, t0 := v.t0, bank := bank, flags := stale, absMask := 0, res := none, occ := false }
  if arraysBusy s (v.t0 + 700) then
    (s.setRfx { s.rfx with evals := s.rfx.evals ++ [{ ev with flags := stale + 2 }] }).count RFX_CNT_BUSY_VALUE 1
  else if !prValid e then s.setRfx { s.rfx with evals := s.rfx.evals ++ [{ ev with flags := stale + 4 }] }
  else
    let abs := absent &&& inputChannels s bank e
    let bad : Bool := ecc = 2
    let flags := stale + ofBool (abs ≠ 0) + 8 * ofBool bad
    let res := if bad then none else some (evaluate s bank e)
    let s := s.countWrap RFX_CNT_EVAL_VALUE 1
    let s := s.count RFX_CNT_ABSENT_VALUE (ofBool (abs ≠ 0))
    let s := s.count RFX_CNT_ECC_VALUE (ofBool bad)
    let s := s.sramEcc ecc
    s.setRfx { s.rfx with evals := s.rfx.evals ++ [{ ev with flags := flags, absMask := abs, res := res, occ := true }] }

/-- REFLEX_RELEASE (R413, R415, R420, R424): at T2 of a conversion that unit `c` fired for, the codes enter the history
and the groups' evaluations are released. `absent` are the inputs without a good sample, `ecc` is what the reads of the
weight bank meet. -/
def execReflexRelease (c : Nat) (codes : List Int) (absent ecc : Nat) (s : State) :
    Host.Outcome State Fault Refusal :=
  finish s (
    match dueConv s c with
    | none => s
    | some v =>
      let groups := releasedGroups s v
      if groups = [] then s
      else
        let s := pushHistory s codes (absentMask v absent)
        let s := s.setRfx { s.rfx with convs := s.rfx.convs.drop 1 }
        groups.foldl (fun s g => releaseGroup s v (absentMask v absent) ecc g.1 g.2) s)

/-- SAMPLE_HISTORY_PUSH (R420): T2 of a conversion start that releases no evaluation. A firing that started no
conversion pushes nothing. -/
def execSampleHistoryPush (c : Nat) (codes : List Int) (absent : Nat) (s : State) : Host.Outcome State Fault Refusal :=
  finish s (
    match dueConv s c with
    | none => s
    | some v =>
      if releasedGroups s v ≠ [] then s
      else
        let s := onIf v.real (fun s => pushHistory s codes (absent % 256)) s
        s.setRfx { s.rfx with convs := s.rfx.convs.drop 1 })

/-- Lane 8 leaves DRAIN when no evaluation on the former bank is before T3 (R430). -/
def drainEnd (s : State) : State :=
  match tget s.lanes 8 with
  | some ln =>
    match ln.drain with
    | some bank =>
      if s.rfx.evals.any (fun e => e.occ && e.bank == bank) then s
      else
        let s := { s with lanes := tset s.lanes 8 { ln with drain := none } }
        if s.get (SLC_L_STAT_STATE 8) = 4 then s.put (SLC_L_STAT_STATE 8) 0 else s
    | none => s
  | none => s

/-- REFLEX_OUTPUT (R422): at T3 the result is at the output stage and the arrays are free. -/
def execReflexOutput (s : State) : Host.Outcome State Fault Refusal :=
  finish s (
    drainEnd (s.setRfx { s.rfx with evals := s.rfx.evals.map fun e =>
      if e.occ ∧ e.t0 + 1800 ≤ s.cyc then { e with occ := false } else e }))

/-- T4 of an evaluation (R414, R425): its group's vector is replaced and its flags are written. -/
def latchEval (s : State) (e : Eval) : State :=
  let g := e.g
  let s := s.setRfx { s.rfx with
    evals := s.rfx.evals.filter fun x => x ≠ e
    latched := g :: s.rfx.latched.filter fun x => x ≠ g }
  let s := match e.res with
    | some ws => forUpTo 64 (fun k (s : State) => s.put (RFX_RES_VALUE g k) (vAt ws k).toNat) s
    | none => s
  let s := s.put (RFX_GRP_STAT_FLAGS g) e.flags
  let s := s.put (RFX_GRP_STAT_ABSMASK g) e.absMask
  let s := s.put (RFX_GRP_STAT_BANK g) e.bank
  let s := s.countWrap (RFX_GRP_STAT_EVALS g) 1
  let s := onIf (bitOf e.flags 0) (·.setOn RFX_EVT_ABSENT) s
  let s := onIf (bitOf e.flags 1) (·.setOn RFX_EVT_BUSY) s
  let s := onIf (bitOf e.flags 2) (·.setOn RFX_EVT_NOPROG) s
  drainEnd (onIf (bitOf e.flags 3) (·.setOn RFX_EVT_ECC) s)

/-- T4 has come of an evaluation of group `g`: 2.000 µs after its T0 (R43, R413). -/
def evalDue (s : State) (g : Nat) (e : Eval) : Bool := e.g == g && e.t0 + 2000 ≤ s.cyc

/-- The evaluations of a group whose T4 has come are latched: what a boundary of the group finds (R414). -/
def latchDue (s : State) (g : Nat) : State := (s.rfx.evals.filter (evalDue s g)).foldl latchEval s

/-- REFLEX_LATCH (R414, R425): at T4 of group `g`'s evaluation its vector is replaced and its flags are written. -/
def execReflexLatch (g : Nat) (s : State) : Host.Outcome State Fault Refusal :=
  finish s (
    match s.rfx.evals.find? (evalDue s g) with
    | none => s
    | some e => latchEval s e)

/-- At a group's boundary with no T4 since the previous one NOEVAL is set (R425). -/
def noEval (s : State) (g : Nat) : State :=
  let s := latchDue s g
  let had := g ∈ s.rfx.latched
  let s := s.setRfx { s.rfx with latched := s.rfx.latched.filter fun x => x ≠ g }
  if had then s
  else ((s.put (RFX_GRP_STAT_FLAGS g) 16).put (RFX_GRP_STAT_ABSMASK g) 0).setOn RFX_EVT_NOEVAL

/-! ### Bindings (R440) -/

/-- The pending bindings may latch: no compare unit twice, every program present in the active bank. -/
def bindOk (s : State) : Bool :=
  let on := (List.range 8).filter fun g => s.pendGet 4 (RFX_BIND_EN g) == 1
  distinct (on.map fun g => s.pendGet 4 (RFX_BIND_CMP g)) &&
    on.all fun g => (progMask s (actBank s)).testBit (s.pendGet 4 (RFX_BIND_PROG g))

/-- The pending bindings latch, or are refused with CFGERR. -/
def bindLatch (s : State) : State :=
  if !s.isPending 4 then s
  else if bindOk s then (s.latch 4).setOff RFX_CTRL_CFGERR
  else ((s.dropPending 4).setOn RFX_CTRL_CFGERR).setOn RFX_EVT_CFGERR

/-- RFX_BIND_LATCH (R440): the first cycle in which the arrays are idle. -/
def execRfxBindLatch (s : State) : Host.Outcome State Fault Refusal :=
  finish s (if arraysBusy s s.cyc then s else bindLatch s)

/-- A write of RFX_COMMIT: with RFX off the bindings latch at once (R22). -/
def rfxCommitWritten (s : State) : State :=
  let s := s.snapshot 4
  if s.on RFX_CTRL_ENABLE then s else bindLatch s

/-- A write of RFX_CTRL_ENABLE (R420, R426): 1 starts with a history of zeros; 0 latches a pending set (R22). -/
def rfxEnableWritten (old new : Nat) (s : State) : State :=
  if old = 0 ∧ new = 1 then s.setRfx { s.rfx with hist := List.replicate 8 [] }
  else if old = 1 ∧ new = 0 then bindLatch s
  else s

end Sys2Proof.Machine
end

