-- ==== Sys2Proof/Machine/Sluice.lean ====
section
/-! DEFINITION. The Sluice: coefficient banks and their check (R403, R404), requests, fills, arming, swaps, staleness
(R427–R436). -/

namespace Sys2Proof.Machine

open Sys2Proof Sys2Proof.Machine.Reg

/-! ### Coefficient banks (R403, R404) -/

/-- Active bank of a loop. -/
def loopBank (s : State) (n : Nat) : Nat := ofBool ((s.get SLC_ACTBANK_MASK).testBit n)

/-- Word `k` of a bank of a loop: 0 KP, 1 KIT, 2 AD, 3 BD, 4 KFF, 5 IMIN, 6 IMAX, 7 UMIN, 8 UMAX, 9 SAFE, 10 RAMP,
11 PTOL, 12 PA1, 13 PA2, 14 PB0, 15 PB1. -/
def bankWord (s : State) (n b k : Nat) : Word32 := BitVec.ofNat 32 (s.get (BLV_CLE_L_BK_VALUE n b k))

/-- Sixteen coefficient words form a valid set (R404). -/
def wordsValid (w : Nat → Word32) : Bool :=
  (List.range 16).all (fun k => f32IsFinite (w k)) && flLe (w 5) (w 6) && flLe (w 7) (w 8) && flLe (w 7) (w 9) &&
    flLe (w 9) (w 8) && flLe 0#32 (w 10) && flLe 0#32 (w 11)

/-- A bank of a loop is valid (R404). -/
def bankValid (s : State) (n b : Nat) : Bool := wordsValid (bankWord s n b)

/-- Group of a loop. -/
def loopGroup (s : State) (n : Nat) : Nat := s.get (BLV_CLE_L_CTL_GROUP n)

/-! ### Lanes -/

/-- A lane with nothing in progress. -/
def Lane.idle : Lane :=
  { fill := none, armReq := none, check := none, mask := 0, genFilled := 0, genArmed := 0, armedAt := 0, drain := none
    since := 0 }

/-- A lane's state beside its registers. -/
def laneOf (s : State) (l : Nat) : Lane := tgetD s.lanes l Lane.idle

/-- Replace it. -/
def State.setLane (s : State) (l : Nat) (ln : Lane) : State := { s with lanes := tset s.lanes l ln }

/-- State code of a lane: 0 IDLE, 1 FILLING, 2 FILLED, 3 ARMED, 4 DRAIN, 5 CHECK. -/
def laneSt (s : State) (l : Nat) : Nat := s.get (SLC_L_STAT_STATE l)

/-- Set it. -/
def State.setLaneSt (s : State) (l st : Nat) : State := s.put (SLC_L_STAT_STATE l) st

/-- Target group of a lane (R433). -/
def laneTarget (s : State) (l : Nat) : Nat := if l = 8 then s.get (SLC_L_STAT_TGRP 8) else l

/-- A failed check is counted (R431). -/
def slcReject (s : State) : State := (s.count SLC_CNT_REJECT_VALUE 1).setOn SLC_EVT_REJECT

/-- STATUS and time of a request (R427, R432): its slot's address and IRQ. -/
def slcStatus (s : State) (req : Nat × Bool) (code : Nat) : State :=
  let s := quietWrite s (req.1 + 3) (leBytes 1 code)
  let s := quietWrite s (req.1 + 24) (leBytes 8 s.tnsTsec)
  onIf req.2 (·.setOn SLC_EVT_DONE) s

/-- STATUS of an optional request. -/
def slcStatusOpt (s : State) (req : Option (Nat × Bool)) (code : Nat) : State :=
  match req with
  | some r => slcStatus s r code
  | none => s

/-- Contents of the inactive banks become undefined (R430): control bank words and weight bank are free values. -/
def spoilBanks (s : State) (l : Nat) (mask : Nat) : State :=
  if l = 8 then
    { s.setRfx { s.rfx with undef := tset s.rfx.undef (1 - actBank s) s.free } with free := s.free + 1 }
  else
    let s' := (setBitsOf 64 mask).foldl (fun (s' : State) n =>
      forUpTo 16 (fun k (s' : State) =>
        s'.put (BLV_CLE_L_BK_VALUE n (1 - loopBank s n) k) (Config.freeWord (s.free + n * 16 + k)).toNat) s') s
    { s' with free := s.free + 1024 }

/-- A fill ends without success: STATUS for it and for an ARM that made its arm pending. `spoil`: what was written is
undefined. -/
def fillFails (s : State) (l : Nat) (f : Fill) (code : Nat) (spoil : Bool) : State :=
  let ln := laneOf s l
  let s := onIf (spoil && f.hdr) (fun s => spoilBanks s l f.mask) s
  let s := slcStatus s (f.slot, f.irq) code
  let s := slcStatusOpt s ln.armReq code
  let s := s.setLane l { ln with fill := none, armReq := none, genFilled := 0 }
  (s.setLaneSt l (if ln.drain.isSome then 4 else 0)).setOff (SLC_L_STAT_ARMPEND l)

/-! ### Requests (R427) -/

def sqOp (r : List Byte) : Nat := leField r 0 1
def sqLane (r : List Byte) : Nat := bitsOf (leField r 0 8) 11 8
def sqArmNow (r : List Byte) : Bool := bitOf (leField r 0 8) 12
def sqHsrc (r : List Byte) : Bool := bitOf (leField r 0 8) 13
def sqIrq (r : List Byte) : Bool := bitOf (leField r 0 8) 14
def sqTgrp (r : List Byte) : Nat := bitsOf (leField r 0 8) 18 16
def sqSrc (r : List Byte) : Nat := leField r 8 6
def sqMask (r : List Byte) : Nat := leField r 16 8

/-- Ring of the Sluice: address and slots. -/
def slcRing (s : State) : Nat × Nat := (s.get SLC_RQ_BASE_ADDR * 64, ringSlots (s.get SLC_RQ_BASE_LOG2) 4 12)

/-- The request at the head of the ring, with its slot's address. -/
def slcHead (s : State) : Option (State × List Byte × Nat) :=
  let cons := s.get SLC_RQ_CONS_INDEX
  if !s.on SLC_CTRL_READY ∨ cons = s.get SLC_RQ_PROD_INDEX then none
  else
    let a := (slcRing s).1 + cons % (slcRing s).2 * 64
    let (s', _, bs) := engineRead s 5 0 a 64
    some (s', bs, a)

/-- STATUS of a request refused whatever its lane's state (R427, R432): BADOP or BADLANE. -/
def slcBadRequest (s : State) (r : List Byte) : Option Nat :=
  let w0 := leField r 0 8
  let op := sqOp r
  let src := leField r 8 8
  if op = 0 ∨ 3 < op ∨ bitOf w0 15 ∨ bitsOf w0 23 19 ≠ 0 ∨ bitsOf w0 63 48 ≠ 0 ∨ src / 2 ^ 48 ≠ 0 ∨
      bitsOf (leField r 24 8) 31 30 ≠ 0 ∨
      (op = 1 ∧ (sqSrc r % 64 ≠ 0 ∨ (sqHsrc r ∧ 2 ^ 27 ≤ sqSrc r))) then some 0x10
  else if 8 < sqLane r then some 0x11
  else if op ≠ 3 ∧ sqLane r = 8 ∧ sqMask r ≠ 0 then some 0x11
  else if op ≠ 3 ∧ sqLane r < 8 ∧ (setBitsOf 64 (sqMask r)).any fun n => loopGroup s n ≠ sqLane r then some 0x11
  else none

/-- The request at the head is accepted: CONS advances and `act` takes it. -/
def slcAccept (s : State) (want : List Byte → Bool) (act : State → List Byte → Nat × Bool → State) : State :=
  match slcHead s with
  | none => s
  | some (s', r, a) =>
    if want r then
      let s' := s'.put SLC_RQ_CONS_INDEX (s.get SLC_RQ_CONS_INDEX + 1)
      act s' r (a, sqIrq r)
    else s

/-- A request is good and has a given OP. -/
def goodReq (s : State) (op : Nat) (r : List Byte) : Bool := sqOp r == op && (slcBadRequest s r).isNone

/-- SLUICE_BADOP_REQUEST (R432): a request with a reserved OP, a bad SRC or a bad lane is accepted and refused. -/
def execSluiceBadopRequest (s : State) : Host.Outcome State Fault Refusal :=
  finish s (slcAccept s (fun r => (slcBadRequest s r).isSome) fun s r req => slcStatus s req ((slcBadRequest s r).getD 0x10))

/-- FILL (R430). -/
def takeFill (s : State) (r : List Byte) (req : Nat × Bool) : State :=
  let l := sqLane r
  let st := laneSt s l
  if st = 1 ∨ st = 5 then slcStatus s req 0x16
  else
    let ln := laneOf s l
    let f : Fill := { slot := req.1, irq := req.2, src := sqSrc r, hsrc := sqHsrc r, mask := sqMask r, at_ := s.cyc
                      hdr := false, len := 0, gen := 0, crc := 0, pos := 0, crcAcc := 0xFFFFFFFF, checkEnd := none }
    let s := s.setLane l { ln with fill := some f, armReq := none, mask := sqMask r, genFilled := 0 }
    let s := s.put (SLC_L_STAT_TGRP l) (if l = 8 then sqTgrp r else l)
    (s.setLaneSt l 1).put (SLC_L_STAT_ARMPEND l) (ofBool (sqArmNow r))

/-- SLUICE_FILL (R430). -/
def execSluiceFill (s : State) : Host.Outcome State Fault Refusal :=
  finish s (slcAccept s (goodReq s 1) takeFill)

/-- Cycles of the arming check (R423, R431). -/
def checkCycles (s : State) (l mask : Nat) : Nat :=
  if l = 8 then 64 + 4 * imageLayers s (1 - actBank s) else 8 + 2 * popCount 64 mask

/-- The arming check passes (R431). -/
def armOk (s : State) (l mask : Nat) : Bool :=
  if l = 8 then imageOk s (1 - actBank s)
  else (setBitsOf 64 mask).all fun n => loopGroup s n == l && bankValid s n (1 - loopBank s n)

/-- A lane enters CHECK. -/
def enterCheck (s : State) (l mask : Nat) (req : Option (Nat × Bool)) : State :=
  let ln := laneOf s l
  let s := s.setLane l { ln with check := some (s.blvCyc + checkCycles s l mask, laneSt s l, req), mask := mask }
  s.setLaneSt l 5

/-- ARM (R430). -/
def takeArm (s : State) (r : List Byte) (req : Nat × Bool) : State :=
  let l := sqLane r
  let tgrp := fun (s : State) => s.put (SLC_L_STAT_TGRP l) (if l = 8 then sqTgrp r else l)
  match laneSt s l with
  | 0 => enterCheck (tgrp s) l (sqMask r) (some req)
  | 2 => enterCheck (tgrp s) l (sqMask r) (some req)
  | 1 =>
    if s.on (SLC_L_STAT_ARMPEND l) then slcStatus s req 0x16
    else ((tgrp s).setLane l { laneOf s l with armReq := some req }).setOn (SLC_L_STAT_ARMPEND l)
  | _ => slcStatus s req 0x16

/-- SLUICE_ARM (R430). -/
def execSluiceArm (s : State) : Host.Outcome State Fault Refusal :=
  finish s (slcAccept s (goodReq s 2) takeArm)

/-- Payload bytes of the next piece: sources are read in 4 KiB pieces from SRC on (R429). -/
def pieceLen (f : Fill) : Nat := min (f.len - f.pos) (4096 - (64 + f.pos) % 4096)

/-- Bytes land in the inactive bank at payload offset `o` (R428). -/
def landPayload (s : State) (l : Nat) (f : Fill) (bs : List Byte) : State :=
  if l = 8 then s.store (wbankPlace (1 - actBank s) f.pos) bs
  else
    let loops := setBitsOf 64 f.mask
    forUpTo (bs.length / 4) (fun i (s : State) =>
      let w := f.pos / 4 + i
      let n := loops.getD (w / 16) 0
      s.put (BLV_CLE_L_BK_VALUE n (1 - loopBank s n) (w % 16)) (leField bs (4 * i) 4)) s

/-- The bytes that a stopped fill may have written of the piece under way are undetermined (R430). -/
def spoilPiece (s : State) (l : Nat) (f : Fill) : State :=
  if f.hdr then
    { landPayload s l f ((List.range (pieceLen f)).map (Config.freeByte s.free)) with free := s.free + 1 }
  else s

/-- CANCEL (R430). -/
def takeCancel (s : State) (r : List Byte) (req : Nat × Bool) : State :=
  let l := sqLane r
  match laneSt s l, (laneOf s l).fill with
  | 1, some f => slcStatus (fillFails (spoilPiece s l f) l f 0x02 false) req 0x01
  | 3, _ => slcStatus (s.setLaneSt l 2) req 0x01
  | _, _ => slcStatus s req 0x16

/-- SLUICE_CANCEL (R430). -/
def execSluiceCancel (s : State) : Host.Outcome State Fault Refusal :=
  finish s (slcAccept s (goodReq s 3) takeCancel)

/-- A hart's arm: a write of SLC_L_l_ARM with GO = 1 (R430, R441). -/
def hartArmWritten (l : Nat) (go : Bool) (s : State) : State :=
  if !go then s
  else if laneSt s l = 0 ∨ laneSt s l = 2 then
    let s := s.put (SLC_L_STAT_TGRP l) (if l = 8 then s.get (SLC_L_ARM_TGRP l) else l)
    enterCheck s l (if l = 8 then 0 else s.get (SLC_L_AMASK_MASK l)) none
  else s.setOn SLC_EVT_REJECT

/-! ### Fills (R428–R430) -/

/-- What the reads of a fill from LPDDR5X meet, as FAS_ACCESS has it: corrections and an uncorrectable read are
counted (R207, R212); whether one was uncorrectable. -/
def fillEcc (s : State) (addr n ecc : Nat) : State × Bool :=
  match resolve s true 0 addr n false with
  | .error _ => (s, false)
  | .ok (_, e) =>
    let a := objPlace e (addr - e.base * 65536)
    let s := s.eccNote e a n ecc
    if eccBad s e.tier (a / 32) ecc then
      ({ s.logUe ((Config.freeWord (s.free + 1)).toNat % 8) 0 1 0 (placePa a) with free := s.free + 2 }, true)
    else (s, false)

/-- Bytes of a fill source. The answer is 0 good, 1 a violation (zeros), 2 uncorrectable; `ecc` is what the reads
meet: 0 nothing, 1 a corrected error, 2 an uncorrectable one, 3 one that link ECC corrected. -/
def fillRead (s : State) (l : Nat) (f : Fill) (ofs n ecc : Nat) : State × Nat × List Byte :=
  if f.hsrc then
    let d := f.src / 2 ^ 26; let a := f.src % 2 ^ 26 + ofs
    let p := psramPlace d a
    if ecc = 2 ∨ poisonedIn s p n ≠ [] then (s.psramUe d (if l = 8 then 2 else 1) 0 a, 2, s.load p n)
    else (s.count (BLV_HRC_CE_VALUE d) (ofBool (ecc = 1)), 0, s.load p n)
  else
    let (s, r, bs) := engineRead s 5 0 (f.src + ofs) n
    let (s, bad) := fillEcc s (f.src + ofs) n ecc
    (s, if bad then 2 else r, bs)

/-- The lane that fills and may write: its drain is over. -/
def fillingLane (s : State) (l : Nat) : Option Fill :=
  let ln := laneOf s l
  if laneSt s l = 1 ∧ ln.drain.isNone then ln.fill else none

/-- FILL_HEADER_LANDED (R428): MAGIC, LEN and LANE are judged. -/
def execFillHeaderLanded (l ecc : Nat) (s : State) : Host.Outcome State Fault Refusal :=
  finish s (
    match fillingLane s l with
    | none => s
    | some f =>
      if f.hdr then s
      else
        let (s, r, h) := fillRead s l f 0 64 ecc
        let len := leField h 4 4
        let lenOk : Bool := if l = 8 then 4096 ≤ len && len ≤ 2097152 && len % 64 == 0 else len == 64 * popCount 64 f.mask
        if r = 2 then fillFails s l f 0x14 false
        else if leField h 0 4 = 0x534C4331 ∧ lenOk ∧ leField h 16 1 = l then
          let f' : Fill := { f with hdr := true, len := len, gen := leField h 8 4, crc := leField h 12 4 }
          s.setLane l { laneOf s l with fill := some f' }
        else slcReject (fillFails s l f 0x12 false))

/-- A piece is read and lands; the answer holds the fill after it, none where the fill ended. -/
def takePiece (s : State) (l : Nat) (f : Fill) (ecc : Nat) : State × Option Fill :=
  let n := pieceLen f
  let (s, r, bs) := fillRead s l f (64 + f.pos) n ecc
  if r = 2 then (fillFails s l f 0x14 true, none)
  else if l = 8 ∧ f.pos = 0 ∧ leField bs 4 4 ≠ f.len then (slcReject (fillFails s l f 0x12 false), none)
  else (landPayload s l f bs, some { f with pos := f.pos + n, crcAcc := bs.foldl crc32Byte f.crcAcc })

/-- FILL_PIECE_LANDED (R429): a piece other than the last lands. -/
def execFillPieceLanded (l ecc : Nat) (s : State) : Host.Outcome State Fault Refusal :=
  finish s (
    match fillingLane s l with
    | none => s
    | some f =>
      if !f.hdr ∨ f.checkEnd.isSome ∨ f.pos + pieceLen f = f.len then s
      else match takePiece s l f ecc with
        | (s, some f) => s.setLane l { laneOf s l with fill := some f }
        | (s, none) => s)

/-- FILL_LAST_BYTE (R428, R430): the last piece lands, the CRC is judged, and the arming check starts. -/
def execFillLastByte (l ecc : Nat) (s : State) : Host.Outcome State Fault Refusal :=
  finish s (
    match fillingLane s l with
    | none => s
    | some f =>
      if !f.hdr ∨ f.checkEnd.isSome ∨ f.pos + pieceLen f ≠ f.len then s
      else match takePiece s l f ecc with
        | (s, none) => s
        | (s, some f) =>
          if f.crcAcc ^^^ 0xFFFFFFFF ≠ f.crc then slcReject (fillFails s l f 0x12 true)
          else
            let s := onIf (l = 8) (fun s => s.setRfx { s.rfx with undef := tdel s.rfx.undef (1 - actBank s) }) s
            s.setLane l { laneOf s l with fill := some { f with checkEnd := some (s.blvCyc + checkCycles s l f.mask) } })

/-- A lane becomes ARMED in Belvedere cycle `fin`, in which its check ends (R433). -/
def becomeArmed (s : State) (l gen fin : Nat) : State :=
  (s.setLane l { laneOf s l with armedAt := fin, genArmed := gen }).setLaneSt l 3

/-- ARM_CHECK_END (R430, R431): the check passes, or fails with BADBANK; `ecc` is what the reads of the banks under
check meet (R382). -/
def execArmCheckEnd (l ecc : Nat) (s : State) : Host.Outcome State Fault Refusal :=
  finish s (
    let ln := laneOf s l
    let bad : Bool := ecc = 2
    match laneSt s l, ln.fill, ln.check with
    | 1, some f, _ =>
      match f.checkEnd with
      | none => s
      | some fin =>
        if s.blvCyc < fin then s
        else if bad then slcReject (fillFails (s.sramEcc ecc) l f 0x14 true)
        else if !armOk s l f.mask then slcReject (fillFails (s.sramEcc ecc) l f 0x13 true)
        else
          let s := s.sramEcc ecc
          let pend := s.on (SLC_L_STAT_ARMPEND l)
          let s := slcStatusOpt (slcStatus s (f.slot, f.irq) 0x01) ln.armReq 0x01
          let s := (s.setLane l { ln with fill := none, armReq := none, genFilled := f.gen }).setOff (SLC_L_STAT_ARMPEND l)
          if pend then becomeArmed s l f.gen fin else s.setLaneSt l 2
    | 5, _, some (fin, from_, req) =>
      if s.blvCyc < fin then s
      else
        let s := (s.setLane l { ln with check := none }).sramEcc ecc
        if bad then slcReject (slcStatusOpt (s.setLaneSt l from_) req 0x14)
        else if armOk s l ln.mask then
          becomeArmed (slcStatusOpt s req 0x01) l (if from_ = 2 then ln.genFilled else 0) fin
        else slcReject (slcStatusOpt (s.setLaneSt l from_) req 0x13)
    | _, _, _ => s)

/-- FILL_TIMEOUT (R430). -/
def execFillTimeout (l : Nat) (s : State) : Host.Outcome State Fault Refusal :=
  finish s (
    match laneSt s l, (laneOf s l).fill with
    | 1, some f =>
      if s.cyc < f.at_ + max 1 (s.get SLC_FILLTMO_US) * 1000 then s
      else (fillFails s l f 0x15 true).setOn SLC_EVT_TIMEOUT
    | _, _ => s)

/-! ### Swaps and staleness (R433–R436) -/

/-- Lane `l` swaps at a boundary whose instant is `bnd` (R433, R436, R545). -/
def swapLane (s : State) (l bnd : Nat) : State :=
  let ln := laneOf s l
  let former := actBank s
  let busy := s.rfx.evals.any fun e => e.occ && e.bank == former
  let drains : Bool := l == 8 && busy
  let s := if l = 8 then
      let s := s.put RFX_CTRL_ACTBANK (1 - former)
      (s.put RFX_PROGV_MASK (progMask s (1 - former))).setOn RFX_CTRL_READY
    else s.put SLC_ACTBANK_MASK (s.get SLC_ACTBANK_MASK ^^^ ln.mask)
  let wasStale := s.on (SLC_L_STAT_STALE l)
  let s := (s.put (SLC_L_GEN_VALUE l) ln.genArmed).wr (SLC_L_LAST l) (BitVec.ofNat 64 bnd)
  let s := ((s.count SLC_CNT_SWAP_VALUE 1).countWrap (SLC_L_STAT_SWAPS l) 1).setOn SLC_EVT_SWAP
  let s := (s.pulse (52 + l)).setOff (SLC_L_STAT_STALE l)
  let s := onIf wasStale (·.epochEvent 5) s
  let s := s.setLane l { ln with genFilled := 0, since := s.cyc, drain := if drains then some former else none }
  s.setLaneSt l (if drains then 4 else 0)

/-- The lanes' part of an accepted boundary of group `g` that takes effect in Belvedere cycle `eff` (R397 step 1, R433,
R435). -/
def boundaryLanes (s : State) (g eff bnd : Nat) : State :=
  forUpTo 9 (fun l s =>
    if laneTarget s l ≠ g then s
    else if laneSt s l = 3 ∧ (laneOf s l).armedAt < eff then swapLane s l bnd
    else if laneSt s l = 1 ∧ s.on (SLC_L_STAT_ARMPEND l) then s.count SLC_CNT_LATE_VALUE 1
    else s) s

/-- LANE_STALE (R436). -/
def execLaneStale (l : Nat) (s : State) : Host.Outcome State Fault Refusal :=
  finish s (
    let us := s.get (SLC_L_STALE_US l)
    if 9 ≤ l ∨ us = 0 ∨ s.on (SLC_L_STAT_STALE l) ∨ !s.on SLC_CTRL_ENABLE ∨ s.cyc < (laneOf s l).since + us * 1000 then s
    else
      let s := (s.setOn (SLC_L_STAT_STALE l)).count SLC_CNT_STALE_VALUE 1
      (s.setOn SLC_EVT_STALE).emergency 0xFF03 l)

/-- A write of SLC_CTRL_ENABLE (R427, R436). -/
def slcEnableWritten (old new : Nat) (s : State) : State :=
  if old = 0 ∧ new = 1 then
    let (base, n) := slcRing s
    let ok := inOneObject s 0 base (n * 64)
    let s := (s.put SLC_CTRL_READY (ofBool ok)).put SLC_CTRL_CFGERR (ofBool !ok)
    forUpTo 9 (fun l s => s.setLane l { laneOf s l with since := s.cyc }) s
  else if old = 1 ∧ new = 0 then s.setOff SLC_CTRL_READY
  else s

end Sys2Proof.Machine
end

