-- ==== Sys2Proof/Machine/Loops.lean ====
section
/-! DEFINITION. The control engine: group boundaries, sources, the control law, plausibility, outputs, reports
(R396–R411, R438, R439). -/

namespace Sys2Proof.Machine

open Sys2Proof Sys2Proof.Machine.Reg

/-! ### Loop state -/

/-- A loop that has never been enabled. -/
def LoopSt.idle : LoopSt :=
  { run := false, grp := 0, i := 0, d := 0, xp := 0, yp1 := 0, yp2 := 0, up1 := 0, up2 := 0, ulg := 0, bad := 0
    skip := 0, first := true, act := none, resume := false, mis := false, out := none, seq := 0, again := false
    outAt := 0, prev := 0 }

/-- A loop's state beside its registers. -/
def loopOf (s : State) (n : Nat) : LoopSt := tgetD s.loops n LoopSt.idle

/-- Replace it. -/
def State.setLoop (s : State) (n : Nat) (l : LoopSt) : State := { s with loops := tset s.loops n l }

/-- A word of a loop's active bank. -/
def coef (s : State) (n k : Nat) : Word32 := bankWord s n (loopBank s n) k

/-- The state that R402 sets at enable. -/
def LoopSt.fresh (s : State) (n : Nat) (l : LoopSt) : LoopSt :=
  { l with i := flClamp 0#32 (coef s n 5) (coef s n 6), d := 0, yp1 := 0, yp2 := 0, up1 := 0, up2 := 0, ulg := 0, bad := 0
           first := true }

/-! ### Sources (R399) -/

/-- A source code is a reserved value: of r, y or f, or of the model (`pm`). -/
def sourceReserved (code : Nat) (pm : Bool) : Bool :=
  let kind := code / 256
  let idx := code % 256
  5 < kind || (kind == 1 && 7 < idx) || ((kind == 2 || kind == 4) && 63 < idx) || (pm && kind == 0)

/-- The Belvedere cycle in which a boundary at the present instant takes effect (R396). -/
def State.effCyc (s : State) : Nat := ceilDiv (s.cyc * 12) 10

/-- The output of loop `n` that was applied in a cycle before Belvedere cycle `eff` (R399). -/
def outBefore (s : State) (n eff : Nat) : Word32 :=
  let l := loopOf s n
  if eff ≤ l.outAt then l.prev else BitVec.ofNat 32 (s.get (BLV_CLE_L_OUT_VALUE n))

/-- The applied output of loop `n` changes in Belvedere cycle `at_` (R398, R400). -/
def State.putOut (s : State) (n at_ : Nat) (v : Word32) : State :=
  let l := loopOf s n
  (s.setLoop n { l with prev := outBefore s n at_, outAt := at_ }).put (BLV_CLE_L_OUT_VALUE n) v.toNat

/-- Value of a source code for loop `n` of group `g`; `own` is the register that kind 0 names. -/
def sourceValue (s : State) (g code : Nat) (own : Fld) : Word32 :=
  let idx := code % 256
  match code / 256 with
  | 0 => BitVec.ofNat 32 (s.get own)
  | 1 => scale2 (f32OfInt (histAt s idx 0)) (-17)
  | 2 => BitVec.ofNat 32 (s.get (RFX_RES_VALUE g idx))
  | 3 => BitVec.ofNat 32 (s.get (FLD_ECM_IN_VALUE idx))
  | 4 => outBefore s idx s.effCyc
  | _ => 0#32

/-- What the snapshot of R397 holds for a loop. -/
structure LoopInputs where
  r : Word32
  y : Word32
  f : Word32
  pm : Word32
  deriving DecidableEq, Repr

/-- The snapshot of a loop's inputs (R397, R399). -/
def loopSnapshot (s : State) (g n : Nat) : LoopInputs :=
  { r := sourceValue s g (s.get (BLV_CLE_L_SRC_R n)) (BLV_CLE_L_RIN_VALUE n)
    y := sourceValue s g (s.get (BLV_CLE_L_SRC_Y n)) (BLV_CLE_L_YIN_VALUE n)
    f := sourceValue s g (s.get (BLV_CLE_L_SRC_FF n)) (BLV_CLE_L_FFIN_VALUE n)
    pm := sourceValue s g (s.get (BLV_CLE_L_SRC_PM n)) (BLV_CLE_L_YIN_VALUE n) }

/-- An enable passes R404. -/
def loopEnableOk (s : State) (n : Nat) : Bool :=
  bankValid s n (loopBank s n) && !sourceReserved (s.get (BLV_CLE_L_SRC_R n)) false &&
    !sourceReserved (s.get (BLV_CLE_L_SRC_Y n)) false && !sourceReserved (s.get (BLV_CLE_L_SRC_FF n)) false &&
    !(s.get (BLV_CLE_L_CTL_MODEL n) == 3 && sourceReserved (s.get (BLV_CLE_L_SRC_PM n)) true)

/-! ### The control law (R401) -/

/-- What the law computes before the check: u, the candidate integral, the derivative, ISAT, USAT, NaN, and the
derivative's input. -/
structure LawOut where
  u : Word32
  ic : Word32
  dn : Word32
  isat : Bool
  usat : Bool
  nan : Bool
  x : Word32
  deriving DecidableEq, Repr

/-- The derivative's input: error or measurement. -/
def derivInput (derr : Bool) (e y : Word32) : Word32 := if derr then e else flNeg y

/-- FIRST: `xp = x; d = +0; skip = 2`. -/
def LoopSt.start (l : LoopSt) (x : Word32) : LoopSt :=
  if l.first then { l with xp := x, d := 0#32, skip := 2, first := false } else l

/-- The law of R401 up to the check, for coefficients `c`, loop state after `start`. -/
def controlLaw (c : Nat → Word32) (derr awhold : Bool) (l : LoopSt) (v : LoopInputs) : LawOut :=
  let e := flAdd v.r (flNeg v.y)
  let x := derivInput derr e v.y
  let p := flMul (c 0) e
  let dn := fma (c 2) l.d (flMul (c 3) (flAdd x (flNeg l.xp)))
  let fv := flMul (c 4) v.f
  let ic0 := fma (c 1) e l.i
  let ic1 := flClamp ic0 (c 5) (c 6)
  let isat := flLt ic0 (c 5) || flLt (c 6) ic0
  let sum := fun ic => flAdd (flAdd (flAdd p ic) dn) fv
  let t := sum ic1
  let hold : Bool := awhold && ((flLt (c 8) t && flLt 0#32 e) || (flLt t (c 7) && flLt e 0#32))
  let ic := if hold then l.i else ic1
  let u0 := sum ic
  let u := flClamp u0 (c 7) (c 8)
  { u := u, ic := ic, dn := dn, isat := isat, usat := flLt u0 (c 7) || flLt (c 8) u0
    nan := f32IsNan u || f32IsNan ic || f32IsNan dn, x := x }

/-- The prediction ŷ of models 1 to 3 (R406). -/
def prediction (c : Nat → Word32) (model : Nat) (l : LoopSt) (pm : Word32) : Word32 :=
  match model with
  | 1 => fma (c 14) l.up1 (flMul (c 12) l.yp1)
  | 2 => fma (c 15) l.up2 (fma (c 14) l.up1 (fma (c 13) l.yp2 (flMul (c 12) l.yp1)))
  | _ => pm

/-- The check of R406: whether the sample is good, and skip and bad after it. -/
def plausCheck (c : Nat → Word32) (model : Nat) (l : LoopSt) (v : LoopInputs) (nan : Bool) : Bool × LoopSt :=
  if model = 0 then (true, { l with skip := l.skip - 1, bad := 0 })
  else if 0 < l.skip then (true, { l with skip := l.skip - 1, bad := 0 })
  else
    let good := !nan && flLe (flAbs (flAdd v.y (flNeg (prediction c model l v.pm)))) (c 11)
    (good, { l with bad := if good then 0 else min (l.bad + 1) 255 })

/-- Output of an action in force (R407): HOLD, RAMP, SAFE. -/
def actionOutput (c : Nat → Word32) (a : Nat) (l : LoopSt) : Word32 :=
  match a with
  | 0 => l.ulg
  | 1 => if flLe (flAbs l.up1) (c 10) then 0#32 else flAdd l.up1 (flNeg (flCopySign (c 10) l.up1))
  | _ => c 9

/-- The last part of R401: the output, and the loop's state after the sample. -/
def lawOutput (c : Nat → Word32) (l : LoopSt) (v : LoopInputs) (o : LawOut) (good : Bool) : Word32 × LoopSt :=
  let (out, l') := match l.act with
    | some a => (actionOutput c a l, l)
    | none => if o.nan then (l.up1, l) else (o.u, { l with i := o.ic, d := o.dn, xp := o.x })
  (out, { l' with
    ulg := if good && l.act.isNone then out else l.ulg
    yp2 := l.yp1, yp1 := v.y, up2 := l.up1, up1 := out })

/-! ### Evaluation of one loop -/

/-- Loop `n` enters PLAUS or takes another cause (R407, R409). -/
def enterPlaus (s : State) (n cause : Nat) : State :=
  let new : Bool := !s.on (BLV_CLE_L_STAT_PLAUS n)
  let s := (s.setOn (BLV_CLE_L_STAT_PLAUS n)).put (BLV_CLE_L_STAT_CAUSE n) cause
  let s := s.put BLV_CLE_PLAUS_MASK (s.get BLV_CLE_PLAUS_MASK ||| 2 ^ n)
  onIf new (fun s => (s.count BLV_CLE_CNT_PLAUS_VALUE 1).emergency 0xFF01 n) s

/-- The uncorrectable read of R409, or the mismatch of R439 at the boundary after it: cause 1 and the loop's action,
HOLD in place of NOTIFY. -/
def loopFault (s : State) (n : Nat) (l : LoopSt) : State × LoopSt :=
  let a := s.get (BLV_CLE_L_CTL_ACTION n)
  (enterPlaus s n 1, { l with act := some (if a = 3 then 0 else a), mis := false, resume := false })

/-- A resume at the boundary (R408, R409), which advances the epoch (R545). -/
def loopResume (s : State) (n : Nat) (l : LoopSt) : State × LoopSt :=
  let l' : LoopSt := if s.on (BLV_CLE_L_STAT_CAUSE n) then LoopSt.fresh s n l else l
  ((s.setOff (BLV_CLE_L_STAT_ACTING n)).epochEvent 1,
    { l' with act := none, resume := false, first := true, bad := 0 })

/-- Loop `n` starts, stops or resumes at a boundary of group `g`. A loop that was enabled again since its last
boundary, or that changed its group, starts anew (R402). -/
def loopTurn (s : State) (g n : Nat) : State :=
  let l := loopOf s n
  let en := s.on (BLV_CLE_L_CTL_ENABLE n)
  let here : Bool := en && loopGroup s n == g
  if l.run && l.grp == g && !here then
    (s.setLoop n { l with run := false, out := none }).putOut n s.effCyc 0
  else if here then
    let l1 : LoopSt := if l.run && l.grp == g && !l.again then l
      else { LoopSt.fresh s n l with run := true, grp := g, out := none, again := false }
    if l1.resume then
      let (s, l2) := loopResume s n l1
      s.setLoop n l2
    else s.setLoop n l1
  else s

/-- Loop `n` at position `p` of group `g` is evaluated on its snapshot (R401, R406–R409); `ecc` is an uncorrectable
read of its state or active bank. -/
def evalLoop (s : State) (eff bnd n p : Nat) (v : LoopInputs) (ecc : Bool) : State :=
  let c := coef s n
  let l := loopOf s n
  let s := onIf ecc (·.count BLV_SRAM_UE_VALUE 1) s
  let (s, l) := if ecc || l.mis then loopFault s n l else (s, l)
  let ulgOld := l.ulg
  let derr := s.on (BLV_CLE_L_CTL_DERR n)
  let l := l.start (derivInput derr (flAdd v.r (flNeg v.y)) v.y)
  let o := controlLaw c derr (s.on (BLV_CLE_L_CTL_AWHOLD n)) l v
  let model := s.get (BLV_CLE_L_CTL_MODEL n)
  let yhat := if model = 0 then BitVec.truncate 32 (Config.freeWord s.free) else prediction c model l v.pm
  let (good, l) := plausCheck c model l v o.nan
  let acts : Bool := !good && max 1 (s.get (BLV_CLE_L_CTL_PLAUSN n)) ≤ l.bad && !s.on (BLV_CLE_L_STAT_PLAUS n)
  let action := s.get (BLV_CLE_L_CTL_ACTION n)
  let (s, l) : State × LoopSt :=
    if acts then (enterPlaus s n 0, if action = 3 then l else { l with act := some action }) else (s, l)
  let nans : Bool := o.nan && l.act.isNone
  let (out, l) := lawOutput c l v o good
  let s := onIf nans (fun s => ((s.setOn (BLV_CLE_L_STAT_NANS n)).count BLV_CLE_CNT_NANS_VALUE 1).setOn BLV_CLE_EVT_NANS) s
  let s := onIf o.isat (·.setOn (BLV_CLE_L_STAT_ISAT n)) s
  let s := onIf o.usat (·.setOn (BLV_CLE_L_STAT_USAT n)) s
  let s := (s.put (BLV_CLE_L_STAT_BAD n) l.bad).put (BLV_CLE_L_STAT_ACTING n) (ofBool l.act.isSome)
  let dual := (s.get RFX_DUAL_EN_MASK).testBit n
  let w : LoopOut := { due := eff + (if dual then 76 else 60) + 8 * p, value := out, ulgOld := ulgOld, r := v.r, y := v.y
                       f := v.f, yhat := yhat, bnd := bnd, dual := dual }
  { s.setLoop n { l with out := some w } with free := s.free + 1 }

/-! ### Boundaries (R396, R397, R411) -/

/-- Loops that run in a group, ascending. -/
def runningLoops (s : State) (g : Nat) : List Nat :=
  (List.range 64).filter fun n => (loopOf s n).run && (loopOf s n).grp == g

/-- The group's DONE bit. -/
def setDone (s : State) (g : Nat) : State := s.raise BLV_CLE_GRP_EVT_DONE (2 ^ g)

/-- The engine's part of an accepted boundary while it is enabled (R397, R398). -/
def evaluateGroup (s : State) (g eff bnd ecc : Nat) : State :=
  let s := boundaryLanes s g eff bnd
  let s := forUpTo 64 (fun n s => loopTurn s g n) s
  let ls := runningLoops s g
  let s := s.put (BLV_CLE_GRP_STAT_NLOOP g) ls.length
  if ls = [] then setDone s g
  else
    let snaps := ls.map fun n => (n, loopSnapshot s g n)
    (snaps.zipIdx).foldl (fun s q =>
      let s := s.count BLV_SRAM_CE_VALUE (ofBool (ecc.testBit (64 + q.1.1)))
      evalLoop s eff bnd q.1.1 q.2 q.1.2 (ecc.testBit q.1.1)) s

/-! ### Outputs and reports (R398, R400, R410, R438, R439) -/

/-- The report of a loop (R410). -/
def loopReport (s : State) (n : Nat) (l : LoopSt) (w : LoopOut) : List Byte :=
  leBytes 4 (l.seq + 2) ++ leBytes 1 (bitsOf (s.rd (BLV_CLE_L_STAT n)).toNat 7 0) ++ leBytes 1 (loopBank s n) ++
    leBytes 2 l.bad ++ leBytes 8 w.bnd ++ leBytes 4 w.r.toNat ++ leBytes 4 w.y.toNat ++ leBytes 4 w.f.toNat ++
    leBytes 4 w.value.toNat ++ leBytes 4 l.i.toNat ++ leBytes 4 l.d.toNat ++ leBytes 4 w.yhat.toNat ++
    List.replicate 20 0#8

/-- The report's write, or its drop. -/
def writeReport (s : State) (n : Nat) (l : LoopSt) (w : LoopOut) : State :=
  let (s, ok) := engineWrite s 5 0 (s.get BLV_CLE_RPT_ADDR * 4096 + 64 * n) (loopReport s n l w)
  if ok then s else (s.count BLV_CLE_CNT_RPTERR_VALUE 1).setOn BLV_CLE_EVT_RPTERR

/-- The output word of R400, or what a mismatch does instead (R439). -/
def outputWord (s : State) (n : Nat) (w : LoopOut) (mismatch : Bool) : State :=
  if mismatch then
    let s := s.raise RFX_DUAL_MIS_MASK (2 ^ n)
    (s.count RFX_CNT_DUALMIS_VALUE 1).emergency 0xFF04 n
  else if s.on (BLV_CLE_L_ODEST_EN n) then s.put (FLD_ECM_OUT_VALUE (s.get (BLV_CLE_L_ODEST_WORD n))) w.value.toNat
  else s

/-- Loop `n` applies its output `w` (R398, R400, R410, R438, R439). -/
def loopApply (s : State) (n : Nat) (w : LoopOut) (mis : Bool) : State :=
  let l := loopOf s n
  let s := s.setLoop n { l with out := none, mis := mis, ulg := if mis then w.ulgOld else l.ulg, seq := (l.seq + 2) % 2 ^ 32 }
  let s := s.putOut n w.due w.value
  let s := (s.put (BLV_CLE_L_INTEG_VALUE n) l.i.toNat).put (BLV_CLE_L_DERIV_VALUE n) l.d.toNat
  let s := writeReport (outputWord s n w mis) n l w
  if (runningLoops s l.grp).all fun m => (loopOf s m).out.isNone then setDone s l.grp else s

/-- Outputs that the last evaluation of a group left are applied before the next one, whose boundary lies 15,600 ns later
at the least: their cycles are over (R396, R398). -/
def outputsDue (s : State) (g : Nat) : State :=
  (runningLoops s g).foldl (fun s n =>
    match (loopOf s n).out with
    | some w => loopApply s n w false
    | none => s) s

/-! ### A boundary's firing (R396, R411) -/

/-- A firing on loop group `g` at the present instant (R396): accepted, or ignored within 15,600 cycles of the previous
accepted boundary. -/
def groupBoundary (s : State) (g ecc : Nat) : State :=
  let soon : Bool := match tget s.grpLast g with
    | some t => s.cyc < t + 15600
    | none => false
  if soon then (s.count (BLV_CLE_GRP_STAT_OVR g) 1).setOn BLV_CLE_EVT_OVR
  else
    let s := { s with grpLast := tset s.grpLast g s.cyc }
    let s := s.countWrap (BLV_CLE_GRP_STAT_BNDRY g) 1
    let s := noEval (ecmBoundary s g) g
    if s.on BLV_CLE_CTRL_ENABLE then evaluateGroup (outputsDue s g) g s.effCyc s.tnsTsec ecc else s

/-- LOOP_OUTPUT_APPLY (R398, R400, R410, R438, R439): `mismatch` is the dual path's finding for a selected loop. -/
def execLoopOutputApply (n : Nat) (mismatch : Bool) (s : State) : Host.Outcome State Fault Refusal :=
  finish s (
    match (loopOf s n).out with
    | none => s
    | some w => if s.blvCyc < w.due then s else loopApply s n w (mismatch && w.dual))

/-! ### Writes -/

/-- A write of BLV_CLE_L_n_CTL_ENABLE has taken effect (R404). -/
def loopEnableWritten (n old new : Nat) (s : State) : State :=
  if old = 0 ∧ new = 1 then
    if loopEnableOk s n then (s.setLoop n { loopOf s n with again := true }).setOff (BLV_CLE_L_CTL_CFGERR n)
    else (s.put (BLV_CLE_L_CTL_ENABLE n) 0).setOn (BLV_CLE_L_CTL_CFGERR n)
  else s

/-- PLAUS is written 1 (R408): the bit clears, and an action ends at the next boundary. -/
def plausCleared (n : Nat) (s : State) : State :=
  let l := loopOf s n
  let s := s.setOff (BLV_CLE_L_STAT_PLAUS n)
  let m := s.get BLV_CLE_PLAUS_MASK
  let s := s.put BLV_CLE_PLAUS_MASK (withBits m n n 0)
  if l.act.isSome then s.setLoop n { l with resume := true } else s

end Sys2Proof.Machine
end

