-- ==== Sys2Proof/Machine/Time.lean ====
section
/-! DEFINITION. Bandstand: compare units and pulses (R283–R289), steps (R274–R277), sources and servo (R278–R282). -/

namespace Sys2Proof.Machine

open Sys2Proof Sys2Proof.Machine.Reg

/-! ### Compare units (R283–R289) -/

/-- A unit is periodic; one with a period of zero fires once (R291). -/
def cmpPeriodic (s : State) (c : Nat) : Bool := s.on (TIM_CMP_CTL_PERIODIC c) && cmpPer s c != 0

/-- Set the armed target, in 2^-16 ns, with 48 bits of seconds. -/
def State.setNext (s : State) (c : Nat) (t16 : Int) : State :=
  let t := (t16 % ((2 ^ 48 * 1000000000 * 65536 : Nat) : Int)).toNat
  let s := s.wr (TIM_CMP_NEXT_LO c) (BitVec.ofNat 64 (t / 65536 % 1000000000 + t % 65536 * 2 ^ 32))
  s.wr (TIM_CMP_NEXT_HI c) (BitVec.ofNat 64 (t / 65536 / 1000000000))

/-- Active target of a unit, in 2^-16 ns. -/
def cmpTarget (s : State) (c : Nat) : Nat :=
  (s.get (TIM_CMP_TGT_HI_SEC c) * 1000000000 + s.get (TIM_CMP_TGT_LO_NS c)) * 65536 + s.get (TIM_CMP_TGT_LO_FRAC c)

/-- The least number of periods that brings a target past the present time, by the comparison of R283: in wrap mode
past it by W. -/
def periodsPast (s : State) (tgt per : Nat) : Int :=
  let d := cmpDiff s tgt
  if s.epochMode then d / (per : Int) + 1 else -(-(d + 65536 - ((tgt % 65536 : Nat) : Int)) / (per : Int))

/-- A unit is armed or latched on a target (R287): a periodic unit skips to the first value past the present time, a
one-shot unit on a past target fires in the next cycle. -/
def armUnit (s : State) (c : Nat) (tgt : Nat) : State :=
  let s := { s.setOn (TIM_CMP_STAT_ARMED c) with cmpLate := tdel s.cmpLate c }
  let d := cmpDiff s tgt
  if d < 0 then s.setNext c tgt
  else if cmpPeriodic s c then
    let per := cmpPer s c
    let n := (periodsPast s tgt per).toNat
    (s.count (TIM_CMP_STAT_MISSED c) n).setNext c (tgt + n * per)
  else { s.setNext c tgt with cmpLate := tset s.cmpLate c (s.cyc + 1) }

/-- A unit disarms. -/
def disarmUnit (s : State) (c : Nat) : State :=
  { s.setOff (TIM_CMP_STAT_ARMED c) with cmpLate := tdel s.cmpLate c }

/-- A unit's firing reaches its destination (R284, R289); firings of one cycle on a loop group are one event. -/
def driveDest (s : State) (c ecc : Nat) : State :=
  let dest := s.get (TIM_CMP_CTL_DEST c)
  let pulse : Pulse := { unit := c, dest := dest, high := s.on (TIM_CMP_CTL_POL c)
                         endAt := s.cyc + max 1 (s.get (TIM_CMP_CTL_WIDTH c)) }
  if dest = 1 then conversionStart s c
  else if 8 ≤ dest ∧ dest ≤ 15 then
    if tget s.destSeen dest = some s.cyc then s
    else groupBoundary { s with destSeen := tset s.destSeen dest s.cyc } (dest - 8) ecc
  else if (16 ≤ dest ∧ dest ≤ 27) ∨ (32 ≤ dest ∧ dest ≤ 35) ∨
      (64 ≤ dest ∧ dest ≤ 95 ∧ s.on (BLV_TIO_CFG_DIR (dest - 64)) = true) then { s with pulses := s.pulses ++ [pulse] }
  else s

/-- A unit fires: its destination, its event, a wake (R535), then the next target, the latch, or disarming (R284–R286). -/
def fireUnit (s : State) (c : Nat) (late : Bool) (ecc : Nat) : State :=
  let next := cmpNext s c + cmpPer s c
  let again := cmpPeriodic s c
  let s := (s.put (TIM_CMP_STAT_LATE c) (ofBool late)).raise TIM_CMP_EVT_UNIT (2 ^ c)
  let s := { driveDest s c ecc with cmpLate := tdel s.cmpLate c }
  let s := onIf (s.get PWR_WAKE_CMP == c) (·.wake 2) s
  if s.isPending (16 + c) then
    let s := s.latch (16 + c)
    armUnit s c (cmpTarget s c)
  else if again then s.setNext c next
  else disarmUnit s c

/-- A unit is due: armed, and the presented time is at or past its target (R283, R287). -/
def cmpDue (s : State) (c : Nat) : Option Bool :=
  if !s.on (TIM_CMP_STAT_ARMED c) then none
  else match tget s.cmpLate c with
    | some t => if t ≤ s.cyc then some true else none
    | none => if 0 ≤ cmpDiff s (cmpNext s c) then some false else none

/-- COMPARE_FIRE (R283). `ecc` bit n: this boundary reads loop n's state or active bank uncorrectably (R409);
bit 64 + n: it reads them with a corrected error (R382). -/
def execCompareFire (c ecc : Nat) (s : State) : Host.Outcome State Fault Refusal :=
  finish s (
    match cmpDue s c with
    | some late => if c < 32 then fireUnit s c late ecc else s
    | none => s)

/-- PULSE_END (R289): the pulses of a unit whose WIDTH has passed end. -/
def execPulseEnd (c : Nat) (s : State) : Host.Outcome State Fault Refusal :=
  finish s { s with pulses := s.pulses.filter fun p => !(p.unit == c && p.endAt ≤ s.cyc) }

/-- A write of 1 to COMMIT of unit `c`, held copies taken (R22, R286). -/
def cmpCommitWritten (c : Nat) (s : State) : State :=
  let s := s.snapshot (16 + c)
  if s.on (TIM_CMP_CTL_ENABLE c) then s else s.latch (16 + c)

/-- A write of ENABLE of unit `c` has taken effect (R22, R286, R287). -/
def cmpEnableWritten (c old new : Nat) (s : State) : State :=
  if old = 0 ∧ new = 1 then armUnit s c (cmpTarget s c)
  else if old = 1 ∧ new = 0 then (disarmUnit s c).latch (16 + c)
  else s

/-! ### Steps (R274–R277, R288, R489) -/

/-- A refused step (R274). -/
def stepErr (s : State) : State := s.setOn TIM_EVT_STEPERR

/-- A write of 1 to GO (R274, R489): the step is accepted, or refused. -/
def stepGo (s : State) : State :=
  let rel := s.on TIM_STEP_CTL_REL
  let mode := s.on TIM_STEP_CTL_MODE
  let ns := s.get TIM_STEP_LO_NS
  if s.stepDue.isSome ∨ (!rel ∧ 1000000000 ≤ ns) ∨ (rel ∧ mode ∧ !s.epochMode) ∨ cwyFollower s then stepErr s
  else
    let master := cwyMaster s
    let lead := (s.nowNs + cwyLead s * 1000 + ofBool (s.nowFrac ≠ 0) + 999) / 1000 * 1000
    let d : StepDue := { cyc := if master then none else some (s.cyc + 16), instant := lead, rel := rel, mode := mode
                         sec := s.get TIM_STEP_HI_SEC, ns := ns, frac := s.get TIM_STEP_LO_FRAC }
    let s := { s.setOn TIM_STEP_CTL_BUSY with stepDue := some d }
    if master then
      s.cwyAnnounce (leBytes 1 1 ++ leBytes 1 (ofBool rel + 2 * ofBool mode) ++ leBytes 8 lead ++ leBytes 8 d.sec ++
        leBytes 4 ns ++ leBytes 2 d.frac)
    else s

/-- The step cycle has come. -/
def stepReached (s : State) (d : StepDue) : Bool :=
  match d.cyc with
  | some c => c ≤ s.cyc
  | none => 0 ≤ cmpDiff s (d.instant * 65536)

/-- The accumulator a step loads, in 2^-32 ns; none where its result is refused (R274). -/
def stepResult (s : State) (d : StepDue) : Option Nat :=
  let v : Int := (d.sec : Int) * 1000000000 + d.ns
  if d.rel then
    let delta : Int := (signedOf 48 d.sec * 1000000000 + d.ns) * 65536 + d.frac
    let r : Int := (s.acc : Int) + delta * 65536
    if r < 0 ∨ (2 ^ 48 * 1000000000 * 2 ^ 32 : Nat) ≤ r.toNat then none else some r.toNat
  else some ((v.toNat * 65536 + d.frac) * 65536)

/-- Δ of a step for compare units and the scheduler, in 2^-16 ns (R276). -/
def stepDelta (before after : Nat) (epoch : Bool) : Int :=
  let d : Int := (after : Int) - before
  if epoch then d else signedOf 48 (codeOf 48 d)

/-- A unit's part of a step (R288); the new time is loaded. A one-shot unit whose late firing is yet to come (R287)
keeps it, whatever its policy. -/
def cmpStepUnit (s : State) (c : Nat) (delta : Int) : State :=
  if !s.on (TIM_CMP_STAT_ARMED c) then s
  else
    let next := cmpNext s c
    if !s.on (TIM_CMP_CTL_STEPPOL c) then s.setNext c (next + delta)
    else if cmpPeriodic s c then
      let n := periodsPast s next (cmpPer s c)
      (s.count (TIM_CMP_STAT_MISSED c) n.toNat).setNext c (next + n * (cmpPer s c : Int))
    else if 0 < delta ∧ 0 ≤ cmpDiff s next then fireUnit s c true 0
    else s

/-- Consecutive runs start over, and LOCKED clears, counted as a change (R275, R281). -/
def unlock (s : State) : State :=
  let s := { s with lockRun := (0, 0) }
  if s.on TIM_CTRL_LOCKED then (s.setOff TIM_CTRL_LOCKED).setOn TIM_EVT_LOCKCHG else s

/-- TIME_STEP_EXECUTE (R275–R277): due units fire on the old time, the accumulator loads, waiting samples are discarded,
and everything that holds instants takes its part. -/
def timeStep (s : State) (d : StepDue) : State :=
  let s := forUpTo 32 (fun c s => match cmpDue s c with
    | some late => fireUnit s c late 0
    | none => s) s
  let s := { s.setOff TIM_STEP_CTL_BUSY with stepDue := none }
  match stepResult s d with
  | none => stepErr s
  | some acc =>
    let oldNs := s.accNs
    let before := s.now16
    let s := { s.put TIM_CTRL_MODE (ofBool d.mode) with acc := acc, stepAt := some s.cyc }
    let delta := stepDelta before s.now16 s.epochMode
    let s := { s.count TIM_CNT_REJECT_VALUE s.rates.length with rates := [] }
    let s := ((unlock s).count TIM_CNT_STEP_VALUE 1).setOn TIM_EVT_STEP
    let s := forUpTo 32 (fun c s => cmpStepUnit s c delta) s
    let s := schedTimeStep oldNs (delta / 65536) s
    (fusTimeStep s delta).epochEvent 0

/-- TIME_STEP_EXECUTE. -/
def execTimeStepExecute (s : State) : Host.Outcome State Fault Refusal :=
  finish s (
    match s.stepDue with
    | some d => if stepReached s d then timeStep s d else s
    | none => s)

/-! ### Sources and servo (R278–R282) -/

/-- A sample is rejected (R279). -/
def rejectSample (s : State) : State := (s.count TIM_CNT_REJECT_VALUE 1).setOn TIM_EVT_REJECT

/-- Limit on |y| and |I|. -/
def adjMax (s : State) : Int := (min (s.get TIM_SRV_LIMIT_ADJMAX) 858993 : Nat)

/-- A product with a gain of the servo, shifted (R280). -/
def srvTerm (s : State) (theta : Int) (m sh : Fld) : Int :=
  (theta * (s.get m : Nat)) / ((2 ^ min 47 (s.get sh) : Nat) : Int)

/-- LOCKED after a sample (R281). -/
def lockAfter (s : State) (theta : Int) : State :=
  let n := max 1 (s.get TIM_SRV_LOCK_LOCKN)
  let inside : Bool := theta.natAbs ≤ s.get TIM_SRV_LOCK_LOCKTHR * 4096
  let run : Nat × Nat := if inside then (s.lockRun.1 + 1, 0) else (0, s.lockRun.2 + 1)
  let s := { s with lockRun := run }
  if inside ∧ n ≤ run.1 ∧ !s.on TIM_CTRL_LOCKED then (s.setOn TIM_CTRL_LOCKED).setOn TIM_EVT_LOCKCHG
  else if !inside ∧ n ≤ run.2 ∧ s.on TIM_CTRL_LOCKED then (s.setOff TIM_CTRL_LOCKED).setOn TIM_EVT_LOCKCHG
  else s

/-- The servo takes a sample (R280): a pending set of the servo group latches, y and I are computed and wait 8 cycles. -/
def servoSample (s : State) (theta : Int) : State :=
  let s := (s.latch 1).setOff TIM_CTRL_HOLDOVER
  let i0 := match s.rates.getLast? with
    | some r => r.2.2
    | none => s.getInt TIM_SRV_INTEG_VALUE
  let lim := adjMax s
  let i := clampInt (i0 + srvTerm s theta TIM_SRV_KI_M TIM_SRV_KI_S) (-lim) lim
  let sum := srvTerm s theta TIM_SRV_KP_M TIM_SRV_KP_S + i
  let y := clampInt sum (-lim) lim
  let s := onIf (y ≠ sum) (fun s => (s.count TIM_CNT_CLAMP_VALUE 1).setOn TIM_EVT_CLAMP) s
  let s := ((s.count TIM_CNT_SAMPLE_VALUE 1).setOn TIM_EVT_SAMPLE).putInt TIM_SRV_OFS_THETA theta
  let s := lockAfter s theta
  { s with rates := s.rates ++ [(s.cyc + 8, y, i)] }

/-- A source was heard (R282). -/
def seeSource (s : State) (src : Nat) : State := { s with srcSeen := tset s.srcSeen src s.cyc }

/-- The present cycle is a step cycle (R275): a step has executed in it, or will. -/
def inStepCycle (s : State) : Bool :=
  s.stepAt == some s.cyc || (match s.stepDue with
    | some d => stepReached s d && (stepResult s d).isSome
    | none => false)

/-- An offset of source `src` (R279): a sample if the source is active, a refresh if it is the other configured one.
A sample that arrives in a step cycle is discarded (R275). -/
def takeOffset (s : State) (src : Nat) (theta : Int) (hardware : Bool) : State :=
  let configured : Bool := src == s.get TIM_SRC_CFG_PRI || src == s.get TIM_SRC_CFG_SEC
  if src ≠ 0 ∧ src = s.get TIM_CTRL_ACTSRC then
    if s.epochMode ∧ s.on TIM_CTRL_ENABLE then
      (if inStepCycle s then s.count TIM_CNT_REJECT_VALUE 1 else servoSample (seeSource s src) theta)
    else rejectSample s
  else if src ≠ 0 ∧ configured then seeSource s src
  else if hardware then s
  else rejectSample s

/-- A write of the upper half of TIM_SRC_FWOFS (R279). -/
def fwSample (src theta : Nat) (s : State) : State :=
  if 1 ≤ src ∧ src ≤ 5 then takeOffset s src (signedOf 48 theta) false else rejectSample s

/-- SERVO_RATE_APPLY (R280): corrections whose 8th cycle has come take effect. -/
def execServoRateApply (s : State) : Host.Outcome State Fault Refusal :=
  finish s (
    let due := s.rates.filter fun r => r.1 ≤ s.cyc
    let s' := due.foldl (fun (s : State) r =>
      (s.putInt TIM_SRV_ADJ_VALUE r.2.1).putInt TIM_SRV_INTEG_VALUE r.2.2) s
    { s' with rates := s.rates.filter fun r => s.cyc < r.1 })

/-- A source is valid (R282). -/
def sourceValid (s : State) (src : Nat) : Bool :=
  match tget s.srcSeen src with
  | some t => s.cyc ≤ t + max 1 (s.get TIM_SRC_CFG_TIMEOUT) * 16000000
  | none => false

/-- Holdover (R281, R282): y = I. -/
def holdover (s : State) : State :=
  let s := { s.put TIM_SRV_ADJ_VALUE (s.get TIM_SRV_INTEG_VALUE) with rates := [] }
  unlock ((s.setOn TIM_CTRL_HOLDOVER).setOn TIM_EVT_HOLDOVER)

/-- SOURCE_TIMEOUT (R282): the active source has become invalid; the servo falls back where the secondary is valid. -/
def execSourceTimeout (s : State) : Host.Outcome State Fault Refusal :=
  finish s (
    let src := s.get TIM_CTRL_ACTSRC
    let sec := s.get TIM_SRC_CFG_SEC
    if !s.on TIM_CTRL_ENABLE ∨ src = 0 ∨ sourceValid s src then s
    else
      let s := if s.on TIM_CTRL_HOLDOVER then s else holdover s
      if sec ≠ 0 ∧ sec ≠ src ∧ sourceValid s sec ∧ !s.on TIM_CTRL_FALLBACK then
        ((s.put TIM_CTRL_ACTSRC sec).setOn TIM_CTRL_FALLBACK).setOn TIM_EVT_FALLBACK
      else s)

/-- A write of TIM_CTRL_ENABLE has taken effect (R22, R282). -/
def servoEnableWritten (old new : Nat) (s : State) : State :=
  if old = 0 ∧ new = 1 then
    let pri := s.get TIM_SRC_CFG_PRI
    seeSource ((s.put TIM_CTRL_ACTSRC pri).setOff TIM_CTRL_FALLBACK) pri
  else if old = 1 ∧ new = 0 then
    ({ s.put TIM_SRV_ADJ_VALUE (s.get TIM_SRV_INTEG_VALUE) with rates := [] }).latch 1
  else s

/-- A write of 1 to TIM_SRV_COMMIT, held copies taken (R20, R22). -/
def srvCommitWritten (s : State) : State :=
  let s := s.snapshot 1
  if s.on TIM_CTRL_ENABLE then s else s.latch 1

end Sys2Proof.Machine
end

