-- ==== Sys2Proof/Machine/Causeway.lean ====
section
/-! DEFINITION. Causeway: formation (R485), links and replay (R480–R482), remote reads (R246, R491), time, steps and
timetables across the cascade (R487–R490). -/

namespace Sys2Proof.Machine

open Sys2Proof Sys2Proof.Machine.Reg

/-! ### Formation (R485) -/

/-- CWY_STAT_STATE changes: the event, and the epoch where FORMED is entered or left (R545). -/
def cwyState (s : State) (st : Nat) : State :=
  let old := s.get CWY_STAT_STATE
  if old = st then s
  else
    let s := (s.put CWY_STAT_STATE st).setOn CWY_EVT_STATE
    onIf (old == 3 || st == 3) (·.epochEvent 3) s

/-- Link `k` goes up or leaves UP. -/
def linkUp (s : State) (k : Nat) (up : Bool) : State :=
  if s.on (CWY_L_STAT_UP k) = up then s
  else
    let s := (s.put (CWY_L_STAT_UP k) (ofBool up)).raise CWY_EVT_LINKCHG (2 ^ k)
    let l := cwyLink s k
    let out := (s.sched.remote.filter fun p => routeLink s p.2.module p.2.tile == k).map (·.1)
    s.setCwyLink k (if up then { l with downAt := none } else { l with downAt := some s.cyc, lost := out })

/-- Reads that were outstanding on a link when it left UP are requested again, under their old epoch (R482). -/
def reissue (s : State) (k : Nat) : State :=
  let out := (cwyLink s k).lost
  let s := s.setCwyLink k { cwyLink s k with lost := [] }
  (s.sched.remote.filter fun p => out.contains p.1).foldl (fun s p =>
    (s.cwyReadReq p.1 p.2).count (CWY_L_CNT_REISSUE_VALUE k) 1) s

/-- A write of CWY_CTRL_ENABLE (R485): links train, or go down. -/
def cwyEnableWritten (old new : Nat) (s : State) : State :=
  if old = 0 ∧ new = 1 then
    let fresh := fun (l : CwyLink) => { CwyLink.idle with downAt := l.downAt, lost := l.lost }
    let s := { s with cwy := { links := (List.range 4).foldl (fun t k => tset t k (fresh (cwyLink s k))) []
                               trainAt := s.cyc, timeAt := s.cyc, flips := [] } }
    let s := (s.setOff CWY_STAT_ROLEERR).setOff CWY_STAT_TOPOERR
    cwyState (forUpTo 4 (fun k s => s.setOn (CWY_L_STAT_TRAINING k)) s) 1
  else if old = 1 ∧ new = 0 then
    let s := forUpTo 4 (fun k s => (linkUp s k false).setOff (CWY_L_STAT_TRAINING k)) s
    cwyState (s.setOff CWY_STAT_MASTER) 0
  else s

/-- This module is eligible to be master (R485). -/
def cwyEligible (s : State) : Bool := s.on CWY_STAT_STRAP && s.on CWY_CTRL_MSTREQ

/-- CWY_TRAIN_END (R485): discovery starts on every UP link. The CTRL payload (0, serial number, TOPO,
eligibility; a step has 1 first, a timetable 2) is the model's layout (DESIGN CHOICE, log entry 37). -/
def execCwyTrainEnd (s : State) : Host.Outcome State Fault Refusal :=
  finish s (
    if s.get CWY_STAT_STATE ≠ 1 then s
    else if !(usedLinks s).all (fun k => s.on (CWY_L_STAT_UP k)) && s.cyc < s.cwy.trainAt + 100000000 then s
    else
      let payload := leBytes 1 0 ++ leBytes 4 s.fuses.serial ++ leBytes 1 (s.get CWY_CTRL_TOPO) ++
        leBytes 1 (ofBool (cwyEligible s))
      let s := cwyState s 2
      forUpTo 4 (fun k s => if s.on (CWY_L_STAT_UP k) then s.cwySend k (newFlit s 4 0 0 payload) else s) s)

/-- A module count within R483. -/
def topoHolds (s : State) (n : Nat) : Bool :=
  match cwyTopo s with
  | 2 => n == 4
  | 1 => 3 ≤ n && n ≤ 8
  | _ => 2 ≤ n && n ≤ 8

/-- CWY_DISCOVERY_RESULT (R484, R485): the outcome of discovery, with the numbers the master assigned. -/
def execCwyDiscoveryResult (ok roleErr topoErr master : Bool) (nmod modnum : Nat) (peers : List Nat) (s : State) :
    Host.Outcome State Fault Refusal :=
  finish s (
    if s.get CWY_STAT_STATE ≠ 2 then s
    else if roleErr then (cwyState s 4).setOn CWY_STAT_ROLEERR
    else if topoErr || !topoHolds s nmod then (cwyState s 4).setOn CWY_STAT_TOPOERR
    else if !ok || nmod ≤ modnum || (modnum == 0) != master || (master && !cwyEligible s) then s
    else
      let s := ((s.put CWY_STAT_NMOD nmod).put CWY_STAT_MODNUM modnum).put CWY_STAT_MASTER (ofBool master)
      let s := forUpTo 4 (fun k s => s.put (CWY_L_STAT_PEER k) (peers.getD k 0)) s
      let s := onIf (!master) (·.put TIM_SRC_CFG_PRI 7) s
      forUpTo 4 (fun k s => onIf (s.on (CWY_L_STAT_UP k)) (reissue · k) s) (cwyState s 3))

/-! ### Remote reads (R246, R482, R491) -/

/-- The PULL that a remote read slot serves. -/
def remotePull (s : State) (r : RemoteSlot) : Option Cmd :=
  ((coreOf s r.core).queue 4).find? fun q => q.no == r.no && dOpc q.desc == 8

/-- A remote read slot is free again. -/
def freeRemote (s : State) (slot : Nat) : State :=
  { s with sched := { s.sched with remote := tdel s.sched.remote slot } }

/-- A response with a stale epoch is discarded, counted (R246). -/
def staleResponse (s : State) : State := (s.count SCH_CNT_STALE_VALUE 1).setOn SCH_EVT_STALE

/-- REMOTE_READ_RESPONSE (R223, R246): the tile of a slot passes the crossing to its core; while a MAINT slot holds the
core it waits there. -/
def execRemoteReadResponse (slot : Nat) (data : List Byte) (s : State) : Host.Outcome State Fault Refusal :=
  finish s (
    match tget s.sched.remote slot with
    | none => s
    | some r =>
      if (coreOf s r.core).maint then s
      else
      let s := freeRemote s slot
      if r.epoch ≠ (coreOf s r.core).epoch then staleResponse s
      else match remotePull s r with
        | some c => landTile s r.core c r.tile (padBytes 65536 data)
        | none => s)

/-- A tile of a PULL completes as an uncorrectable read (R207, R482): zero blocks, and teardown with cause 0x02. -/
def pullFails (s : State) (n : Nat) (c : Cmd) (tile : Nat) : State :=
  match jobOf s n with
  | some (ctx, k) => teardown ((landTile s n c tile []).logUe 0 n 1 ctx none) ctx 2 0 0 k
  | none => s

/-- Outstanding reads of a module end (R482). -/
def remoteFails (s : State) (m : Nat) : State :=
  (s.sched.remote.filter fun p => p.2.module == m).foldl (fun s p =>
    let s := freeRemote s p.1
    if p.2.epoch ≠ (coreOf s p.2.core).epoch then staleResponse s
    else match remotePull s p.2 with
      | some c => pullFails s p.2.core c p.2.tile
      | none => s) s


/-- The tile that a READREQ is answered with (R491): an access of the requester's context, init code 6, window bit 3. -/
def serveTile (s : State) (ctx addr : Nat) (errs : List Nat) : State × List Byte :=
  let zero := List.replicate 65536 0#8
  match resolve s false ctx addr 65536 false with
  | .error v => ((s.looked ctx addr 65536).violation v 6 ctx addr false, zero)
  | .ok (_, e) =>
    let s := s.lookup addr
    let a := objPlace e (addr - e.base * 65536)
    if protClosed s 3 addr false then (s.violation 6 6 ctx addr false, zero)
    else if unpublished s ctx e then (s.count MEM_PLT_CNT_UNCREAD_VALUE 1, zero)
    else if e.tier = 5 then
      ({ s with free := s.free + 1 }, (List.range 65536).map fun i => Config.freeByte s.free (a + i))
    else if e.tier = 4 ∧ !hostUp s then
      let s := (s.count (FLD_PCI_CNT_VALUE 1) 1).setOn FLD_PCI_EVT_NOBME
      (s.logUe 0 0 1 ctx none, zero)
    else
      let (s, bads) := s.tileErrors e.tier a errs
      let bs := zeroBlocks a bads (objRead s e (addr - e.base * 65536) 65536)
      (if bads.isEmpty then s else s.logUe 0 0 1 ctx (placePa (bads.headD 0 * 32)), bs)

/-- CWY_READREQ (R479, R491): a request of module `src` is served, from LPDDR5X once no MAINT slot holds it (R223); the
tile returns in 274 flits on the link it came by. -/
def execCwyReadReq (src slot addr ctx core tile : Nat) (errs : List Nat) (s : State) :
    Host.Outcome State Fault Refusal :=
  finish s (
    if s.get CWY_STAT_STATE ≠ 3 || addr % 65536 ≠ 0 || tierHeld s addr then s
    else
      let (s, bs) := serveTile s ctx addr errs
      let k := routeLink s src tile
      forUpTo 274 (fun i s =>
        s.cwySend k (newFlit s 2 src (readTag slot ctx core tile) ((bs.drop (240 * i)).take 240))) s)

/-! ### Receiving and replay (R480, R481) -/

/-- A flit that takes no place in the sequence: IDLE (0) or NAK (5), with ACKSEQ. -/
def plainFlit (s : State) (k kind : Nat) : List Byte :=
  flitOf (flitHeader kind 0 ((cwyLink s k).rxSeq + 4095) (s.get CWY_STAT_MODNUM) 0 0 0) []

/-- Flits that ACKSEQ covers leave the replay buffer; waiting flits follow. -/
def ackTaken (s : State) (k ack : Nat) : State :=
  let l := cwyLink s k
  let l' : CwyLink := { l with replay := l.replay.filter fun p => 2048 ≤ (ack + 4096 - p.1) % 4096 }
  (s.setCwyLink k l').cwyDrain k (l.queue.length + 1)

/-- Flits from `seq` on are sent again. -/
def replayFrom (s : State) (k seq : Nat) : State :=
  ((cwyLink s k).replay.filter fun p => (p.1 + 4096 - seq) % 4096 < 2048).foldl (fun s p =>
    (s.send (.flit k p.2)).count (CWY_L_CNT_REPLAY_VALUE k) 1) s

/-- A link retrains (R481). -/
def retrain (s : State) (k : Nat) : State :=
  if !s.on (CWY_L_STAT_UP k) then s
  else
    let s := ((linkUp s k false).setOn (CWY_L_STAT_TRAINING k)).count (CWY_L_CNT_RETRAIN_VALUE k) 1
    s.setCwyLink k { cwyLink s k with nakRun := 0 }

/-- A NAK has named a SEQ (R480, R481): replay, or retraining at the eighth in a row that names it. -/
def nakTaken (s : State) (k seq : Nat) : State :=
  let l := cwyLink s k
  let run := if l.nakRun ≠ 0 ∧ l.nakSeq = seq then l.nakRun + 1 else 1
  let s := s.setCwyLink k { l with nakSeq := seq, nakRun := run }
  if 8 ≤ run then retrain s k else replayFrom s k seq

/-- SEQ of a discarded flit whose own is not legible: the first from the expected one on that is not noted. -/
def unreadSeq (l : CwyLink) : Nat :=
  ((List.range (l.nakAt.length + 1)).map fun i => (l.rxSeq + i) % 4096).find? (fun q => (tget l.nakAt q).isNone)
    |>.getD l.rxSeq

/-- Flit `seq` is discarded, its cycle noted where it is still to be delivered, and the expected SEQ named (R480). -/
def discardFlit (s : State) (k seq : Nat) : State :=
  let l := cwyLink s k
  let ahead : Bool := (seq + 4096 - l.rxSeq) % 4096 < 2048
  let l' := if ahead && (tget l.nakAt seq).isNone then { l with nakAt := tset l.nakAt seq s.cyc } else l
  (s.setCwyLink k l').send (.flit k (plainFlit s k 5))

/-- One draw of the Causeway perturbation unit (R554). -/
def pertDraw (x rate : Nat) : Nat × Bool :=
  let y := x / 2 ^^^ (if x % 2 = 1 then 0x80200003 else 0)
  (y, y % 65536 < rate)

/-- The Causeway unit acts on a received flit (R554): the state, and whether the flit is discarded. -/
def pertFlit (s : State) (k : Nat) : State × Bool :=
  if !pertOk s || !(s.get DGN_PERT_CTL_EN).testBit 3 || !(s.get DGN_PERT_CWY_LINK).testBit k then (s, false)
  else
    let left := tgetD s.burst k 0
    if 0 < left then ({ s with burst := tset s.burst k (left - 1) }, true)
    else
      let (y, hit) := pertDraw (s.lfsr.getD 3 1) (s.get DGN_PERT_CWY_RATE)
      let s := { s with lfsr := s.lfsr.set 3 y }
      if hit then
        ({ s.count (DGN_PERT_CNT_VALUE 3) 1 with burst := tset s.burst k (max 1 (s.get DGN_PERT_CWY_BURST) - 1) }, true)
      else (s, false)

/-- The index that picks the link of a pair for a flit on its way (R483). -/
def flitPair (f : List Byte) : Nat := if fKind f = 1 ∨ fKind f = 2 then bitsOf (fTag f) 36 21 else 0

/-- A flit in order reaches the layer above: on to another module, or, a TIME request at the master, answered with t2
and t3 (R484, R487, R488). What READREQ, READRSP, TIME answers and CTRL flits do arrives as commands of their own. -/
def deliverFlit (s : State) (f : List Byte) : State :=
  if s.get CWY_STAT_STATE = 3 ∧ fDst f ≠ s.get CWY_STAT_MODNUM then
    s.cwySend (routeLink s (fDst f) (flitPair f))
      (flitOf (flitHeader (fKind f) 0 0 (fSrc f) (fDst f) (fHops f + 1) (fTag f)) (fPayload f))
  else if fKind f = 3 ∧ cwyMaster s ∧ leField (fPayload f) 0 1 = 0 then
    s.cwySend (routeLink s (fSrc f) 0) (newFlit s 3 (fSrc f) 0
      (leBytes 1 1 ++ ((fPayload f).drop 1).take 12 ++ leBytes 12 s.linkTime ++ leBytes 12 s.linkTime))
  else s

/-- CWY_FLIT_RECEIVE (R480, R554). -/
def execCwyFlitReceive (k : Nat) (f : List Byte) (s : State) : Host.Outcome State Fault Refusal :=
  finish s (
    if 4 ≤ k || !s.on (CWY_L_STAT_UP k) then s
    else
      let (s, dropped) := pertFlit s k
      if dropped || !flitGood f then discardFlit (s.count (CWY_L_CNT_CRC_VALUE k) 1) k (unreadSeq (cwyLink s k))
      else if fKind f = 0 then ackTaken s k (fAck f)
      else if fKind f = 5 then nakTaken (ackTaken s k (fAck f)) k ((fAck f + 1) % 4096)
      else if fSeq f ≠ (cwyLink s k).rxSeq then discardFlit s k (fSeq f)
      else
        let l := cwyLink s k
        let s := match tget l.nakAt l.rxSeq with
          | some t => s.countWrap (CWY_L_CNT_REPLAYT_VALUE k) (s.cyc - t)
          | none => s
        let s := s.setCwyLink k { l with rxSeq := (l.rxSeq + 1) % 4096, nakAt := tdel l.nakAt l.rxSeq }
        let s := deliverFlit (ackTaken s k (fAck f)) f
        s.send (.flit k (plainFlit s k 0)))

/-- CWY_NAK (R480): a NAK of link `k` that names a SEQ. -/
def execCwyNak (k seq : Nat) (s : State) : Host.Outcome State Fault Refusal :=
  finish s (if k < 4 ∧ s.on (CWY_L_STAT_UP k) then nakTaken s k (seq % 4096) else s)

/-- CWY_RETRAIN (R481): FEC lock has been lost for 1 µs. -/
def execCwyRetrain (k : Nat) (s : State) : Host.Outcome State Fault Refusal :=
  finish s (if k < 4 then retrain s k else s)

/-- CWY_LINK_TRAINED (R481, R482): the link is up; its replay buffer is sent again, and outstanding reads are reissued. -/
def execCwyLinkTrained (k : Nat) (s : State) : Host.Outcome State Fault Refusal :=
  finish s (
    if 4 ≤ k || !s.on (CWY_L_STAT_TRAINING k) then s
    else
      let s := linkUp (s.setOff (CWY_L_STAT_TRAINING k)) k true
      let l := cwyLink s k
      let s := match l.replay with
        | [] => s
        | p :: _ => replayFrom s k p.1
      let s := s.cwyDrain k (l.queue.length + 1)
      onIf (s.get CWY_STAT_STATE == 3) (reissue · k) s)

/-- Links by which a module is reached. -/
def routeLinks (s : State) (m : Nat) : List Nat :=
  if cwyTopo s = 2 then [routeLink s m 0] else [routeLink s m 0, routeLink s m 1]

/-- The links have been down for CWY_DOWNTMO µs. -/
def downFor (s : State) (ks : List Nat) : Bool :=
  ks.all fun k => !s.on (CWY_L_STAT_UP k) &&
    (match (cwyLink s k).downAt with
     | some t => t + max 1 (s.get CWY_DOWNTMO_US) * 1000 ≤ s.cyc
     | none => false)

/-- CWY_DOWN_TIMEOUT (R482, R484, R485): the route to module `m` has been down for CWY_DOWNTMO µs. A ring takes its
other way; else the reads of `m` fail, and a follower without its master goes to ERROR and into holdover. -/
def execCwyDownTimeout (m : Nat) (s : State) : Host.Outcome State Fault Refusal :=
  finish s (
    if !downFor s (routeLinks s m) || m = s.get CWY_STAT_MODNUM then s
    else
      let t := { s with cwy := { s.cwy with flips := m :: s.cwy.flips } }
      let otherWay : Bool := s.get CWY_STAT_STATE == 3 && cwyTopo s == 1 && !s.cwy.flips.contains m &&
        (routeLinks t m).any fun k => s.on (CWY_L_STAT_UP k)
      if otherWay then
        (t.sched.remote.filter fun p => p.2.module == m).foldl (fun s p =>
          (s.cwyReadReq p.1 p.2).count (CWY_L_CNT_REISSUE_VALUE (routeLink s m p.2.tile)) 1) t
      else
        let follower := cwyFollower s
        let s := remoteFails s m
        if m = 0 ∧ follower then
          let s := (cwyState s 4).setOn CWY_EVT_MASTERLOST
          if s.on TIM_CTRL_ENABLE && s.get TIM_CTRL_ACTSRC == 7 && !s.on TIM_CTRL_HOLDOVER then holdover s else s
        else s)

/-! ### Time, steps, timetables (R487–R490) -/

/-- TIME_PER in µs: outside 100 to 100,000 it acts as 1,000 (R493). -/
def timePer (s : State) : Nat :=
  let p := s.get CWY_TIME_PER_US
  if 100 ≤ p ∧ p ≤ 100000 then p else 1000

/-- CWY_TIME_EXCHANGE (R487): a follower sends its TIME request, carrying t1. -/
def execCwyTimeExchange (s : State) : Host.Outcome State Fault Refusal :=
  finish s (
    if !cwyFollower s || s.cyc < s.cwy.timeAt + timePer s * 1000 then s
    else
      let s := { s with cwy := { s.cwy with timeAt := s.cyc } }
      s.cwySend (routeLink s 0 0) (newFlit s 3 0 0 (leBytes 1 0 ++ leBytes 12 s.linkTime)))

/-- CWY_TIME_RESPONSE (R487): θ = ((t2 − t1) + (t3 − t4)) ÷ 2, rounded toward minus infinity. -/
def execCwyTimeResponse (t1 t2 t3 t4 : Int) (s : State) : Host.Outcome State Fault Refusal :=
  finish s (if cwyFollower s then takeOffset s 7 (((t2 - t1) + (t3 - t4)) / 2) true else s)

/-- CWY_STEP_ANNOUNCE (R489): the master's step, with the values of TIM_STEP_LO, HI and CTL and the instant in ns. A
follower that has passed the instant executes it at once. -/
def execCwyStepAnnounce (due lo hi ctl : Nat) (s : State) : Host.Outcome State Fault Refusal :=
  finish s (
    if !cwyFollower s then s
    else
      let d : StepDue := { cyc := none, instant := due, rel := ctl.testBit 1, mode := ctl.testBit 2, sec := bitsOf hi 47 0
                           ns := bitsOf lo 29 0, frac := bitsOf lo 47 32 }
      if 0 < cmpDiff s (due * 65536) then
        timeStep ((s.count CWY_CNT_STEPLATE_VALUE 1).setOn CWY_EVT_STEPLATE) d
      else { s with stepDue := some d })

/-- CWY_TT_ANNOUNCE (R490): the master's latch instant and the CRC-32 of its array. -/
def execCwyTtAnnounce (due crc : Nat) (s : State) : Host.Outcome State Fault Refusal :=
  finish s (if cwyFollower s then { s with sched := { s.sched with due := some (due, crc) } } else s)

/-- The first frame boundary at least LEAD µs away. -/
def leadBoundary (s : State) : Nat :=
  let f := max 1 s.sched.frameNs
  let start := s.accNs - framePos s.accNs f s.sched.phaseNs
  start + ceilDiv (s.accNs + cwyLead s * 1000 - start) f * f

/-- A write of 1 to SCH_TT_COMMIT_COMMIT (R20, R22, R221, R490): with frames running, the master of a cascade names
the boundary for every module; on a follower in FORMED the latch waits for the master; a disabled scheduler latches at
once. -/
def ttCommitWritten (s : State) : State :=
  let s := s.snapshot 0
  if cwyMaster s && s.on SCH_CTRL_ENABLE then
    let due := leadBoundary s
    let crc := match ttArray s with
      | some bs => crc32 bs
      | none => 0
    { s with sched := { s.sched with due := some (due, crc) } }.cwyAnnounce (leBytes 1 2 ++ leBytes 8 due ++ leBytes 4 crc)
  else if s.on SCH_CTRL_ENABLE || (cwyFormed s && !s.on CWY_STAT_MASTER) then s
  else ttLatch s

end Sys2Proof.Machine
end

