-- ==== Sys2Proof/Machine/Sha.lean ====
section
/-! DEFINITION. The digest and signature check that the boot flow names (R513, R522, R524): SHA-384, and RSASSA-PSS
with SHA-384, MGF1 with SHA-384 and a salt of 48 bytes, over RSA-3072 with public exponent 65,537. The manual names the
methods; their steps are those of FIPS 180-4 and RFC 8017 (PRESUMED, log entry 34). -/

namespace Sys2Proof.Machine

open Sys2Proof

/-- Round constants of SHA-512. -/
def shaK : List Nat :=
  [0x428a2f98d728ae22, 0x7137449123ef65cd, 0xb5c0fbcfec4d3b2f, 0xe9b5dba58189dbbc] ++
  [0x3956c25bf348b538, 0x59f111f1b605d019, 0x923f82a4af194f9b, 0xab1c5ed5da6d8118] ++
  [0xd807aa98a3030242, 0x12835b0145706fbe, 0x243185be4ee4b28c, 0x550c7dc3d5ffb4e2] ++
  [0x72be5d74f27b896f, 0x80deb1fe3b1696b1, 0x9bdc06a725c71235, 0xc19bf174cf692694] ++
  [0xe49b69c19ef14ad2, 0xefbe4786384f25e3, 0x0fc19dc68b8cd5b5, 0x240ca1cc77ac9c65] ++
  [0x2de92c6f592b0275, 0x4a7484aa6ea6e483, 0x5cb0a9dcbd41fbd4, 0x76f988da831153b5] ++
  [0x983e5152ee66dfab, 0xa831c66d2db43210, 0xb00327c898fb213f, 0xbf597fc7beef0ee4] ++
  [0xc6e00bf33da88fc2, 0xd5a79147930aa725, 0x06ca6351e003826f, 0x142929670a0e6e70] ++
  [0x27b70a8546d22ffc, 0x2e1b21385c26c926, 0x4d2c6dfc5ac42aed, 0x53380d139d95b3df] ++
  [0x650a73548baf63de, 0x766a0abb3c77b2a8, 0x81c2c92e47edaee6, 0x92722c851482353b] ++
  [0xa2bfe8a14cf10364, 0xa81a664bbc423001, 0xc24b8b70d0f89791, 0xc76c51a30654be30] ++
  [0xd192e819d6ef5218, 0xd69906245565a910, 0xf40e35855771202a, 0x106aa07032bbd1b8] ++
  [0x19a4c116b8d2d0c8, 0x1e376c085141ab53, 0x2748774cdf8eeb99, 0x34b0bcb5e19b48a8] ++
  [0x391c0cb3c5c95a63, 0x4ed8aa4ae3418acb, 0x5b9cca4f7763e373, 0x682e6ff3d6b2b8a3] ++
  [0x748f82ee5defb2fc, 0x78a5636f43172f60, 0x84c87814a1f0ab72, 0x8cc702081a6439ec] ++
  [0x90befffa23631e28, 0xa4506cebde82bde9, 0xbef9a3f7b2c67915, 0xc67178f2e372532b] ++
  [0xca273eceea26619c, 0xd186b8c721c0c207, 0xeada7dd6cde0eb1e, 0xf57d4f7fee6ed178] ++
  [0x06f067aa72176fba, 0x0a637dc5a2c898a6, 0x113f9804bef90dae, 0x1b710b35131c471b] ++
  [0x28db77f523047d84, 0x32caab7b40c72493, 0x3c9ebe0a15c9bebc, 0x431d67c49c100d4c] ++
  [0x4cc5d4becb3e42b6, 0x597f299cfc657e2a, 0x5fcb6fab3ad6faec, 0x6c44198c4a475817]

/-- Initial hash value of SHA-384. -/
def sha384Init : List Nat :=
  [0xcbbb9d5dc1059ed8, 0x629a292a367cd507, 0x9159015a3070dd17, 0x152fecd8f70e5939] ++
  [0x67332667ffc00b31, 0x8eb44a8768581511, 0xdb0c2e0d64f98fa7, 0x47b5481dbefa4fa4]

/-- Rotation of a 64-bit word to the right. -/
def ror64 (n x : Nat) : Nat := x / 2 ^ n + x % 2 ^ n * 2 ^ (64 - n)

/-- One more word of the message schedule, newest first. -/
def shaNextWord (w : List Nat) : Nat :=
  let a := w.getD 1 0
  let b := w.getD 14 0
  let s1 := ror64 19 a ^^^ ror64 61 a ^^^ a / 2 ^ 6
  let s0 := ror64 1 b ^^^ ror64 8 b ^^^ b / 2 ^ 7
  (s1 + w.getD 6 0 + s0 + w.getD 15 0) % 2 ^ 64

/-- The message schedule of a block: 80 words, in order. -/
def shaSchedule (ws : List Nat) : List Nat :=
  (forUpTo 64 (fun _ w => shaNextWord w :: w) ws.reverse).reverse

/-- One round on the eight working words. -/
def shaRound (v : List Nat) (kw : Nat × Nat) : List Nat :=
  match v with
  | [a, b, c, d, e, f, g, h] =>
    let s1 := ror64 14 e ^^^ ror64 18 e ^^^ ror64 41 e
    let ch := (e &&& f) ^^^ ((2 ^ 64 - 1 - e) &&& g)
    let t1 := h + s1 + ch + kw.1 + kw.2
    let s0 := ror64 28 a ^^^ ror64 34 a ^^^ ror64 39 a
    let maj := (a &&& b) ^^^ (a &&& c) ^^^ (b &&& c)
    [(t1 + s0 + maj) % 2 ^ 64, a, b, c, (d + t1) % 2 ^ 64, e, f, g]
  | v => v

/-- One block of 128 bytes. -/
def shaBlock (hv : List Nat) (bs : List Byte) : List Nat :=
  let ws := (List.range 16).map fun i => beNat ((bs.drop (8 * i)).take 8)
  let v := (shaK.zip (shaSchedule ws)).foldl shaRound hv
  (hv.zip v).map fun p => (p.1 + p.2) % 2 ^ 64

/-- Blocks of 128 bytes, at most `n` of them. -/
def shaBlocks : Nat → List Nat → List Byte → List Nat
  | 0, hv, _ => hv
  | n + 1, hv, bs => if bs.isEmpty then hv else shaBlocks n (shaBlock hv (bs.take 128)) (bs.drop 128)

/-- SHA-384: 48 bytes. -/
def sha384 (msg : List Byte) : List Byte :=
  let zeros := (239 - msg.length % 128) % 128
  let padded := msg ++ [0x80#8] ++ List.replicate zeros 0#8 ++ beBytes 16 (8 * msg.length)
  ((shaBlocks (padded.length / 128) sha384Init padded).flatMap (beBytes 8)).take 48

/-- MGF1 with SHA-384. -/
def mgf1 (seed : List Byte) (len : Nat) : List Byte :=
  ((List.range (ceilDiv len 48)).flatMap fun i => sha384 (seed ++ beBytes 4 i)).take len

/-- Bytewise exclusive or. -/
def xorBytes (a b : List Byte) : List Byte := (a.zip b).map fun p => p.1 ^^^ p.2

/-- `b ^ 65537 mod n`. -/
def rsaPublic (b n : Nat) : Nat := forUpTo 16 (fun _ x => x * x % n) (b % n) * b % n

/-- EMSA-PSS verification over 3,071 bits with a salt of 48 bytes. -/
def pssVerify (msg em : List Byte) : Bool :=
  let db := em.take 335
  let h := (em.drop 335).take 48
  let plain := xorBytes db (mgf1 h 335)
  let first := BitVec.ofNat 8 ((plain.getD 0 0#8).toNat % 128)
  let rest := plain.drop 1
  em.length == 384 && em.getD 383 0#8 == 0xBC#8 && (em.getD 0 0#8).toNat < 128 &&
    first == 0#8 && rest.take 285 == List.replicate 285 0#8 && rest.getD 285 0#8 == 1#8 &&
    sha384 (List.replicate 8 0#8 ++ sha384 msg ++ rest.drop 286) == h

/-- RSASSA-PSS verification (R524, step 4): modulus and signature of 384 bytes, big-endian. -/
def rsaVerify (modulus msg sig : List Byte) : Bool :=
  beNat sig < beNat modulus && pssVerify msg (beBytes 384 (rsaPublic (beNat sig) (beNat modulus)))

end Sys2Proof.Machine
end

