-- ==== Sys2Proof/Machine/Security.lean ====
section
/-! DEFINITION. The security engine: fuses and their programming, lifecycle, image headers, measurements and
attestation (R513–R530, R539). -/

namespace Sys2Proof.Machine

open Sys2Proof Sys2Proof.Machine.Reg

/-! ### Keys and signatures (R514, R524) -/

/-- Result codes of SEC_CMD_STAT_RESULT (R539). -/
def secDone : Nat := 0x01
def secBadOp : Nat := 0x10
def secBusy : Nat := 0x11
def secState : Nat := 0x12
def secBadRec : Nat := 0x13
def secReadErr : Nat := 0x14
def secNoIdent : Nat := 0x15
def secLastSlot : Nat := 0x16
def secBrownout : Nat := 0x17
def secAlready : Nat := 0x18

/-- Key slots of a kind: 0 RSA, 1 SLH-DSA. -/
def keySlots (f : Fuses) (kind : Nat) : List (Nat × Bool) := if kind = 0 then f.khRsa else f.khSlh

/-- A slot is revoked or DAMAGED (R513, R514). -/
def slotRevoked (f : Fuses) (kind slot : Nat) : Bool :=
  f.revoke.testBit (4 * kind + slot) || keyDamaged ((keySlots f kind).getD slot (0, false))

/-- A programmed, unrevoked, undamaged slot (R515, R520). -/
def slotUsable (f : Fuses) (kind slot : Nat) : Bool :=
  ((keySlots f kind).getD slot (0, false)).2 && !slotRevoked f kind slot

/-- The key hash of a slot is the SHA-384 of a public key; an unprogrammed slot matches none. -/
def keyMatches (f : Fuses) (kind slot : Nat) (pk : List Byte) : Bool :=
  let k := (keySlots f kind).getD slot (0, false)
  k.2 && leNat (sha384 pk) == k.1

/-- Steps 3 and 4 of R524: 0, or the cause of the failure (3 revoked, 4 key hash, 5 RSA, 6 SLH-DSA). -/
def keyCheck (f : Fuses) (rsaSlot slhSlot : Nat) (rsaPk slhPk msg rsaSig slhSig : List Byte) : Nat :=
  if slotRevoked f 0 rsaSlot || slotRevoked f 1 slhSlot then 3
  else if !keyMatches f 0 rsaSlot rsaPk || !keyMatches f 1 slhSlot slhPk then 4
  else if !rsaVerify rsaPk msg rsaSig then 5
  else if !Config.slhVerify slhPk msg slhSig then 6
  else 0

/-- All bytes of a range are zero. -/
def zeroRange (bs : List Byte) (lo hi : Nat) : Bool := ((bs.drop lo).take (hi + 1 - lo)).all (· == 0#8)

/-- Bytes `lo` to `hi` of a record. -/
def slice (bs : List Byte) (lo hi : Nat) : List Byte := (bs.drop lo).take (hi + 1 - lo)

/-! ### Image headers (R522–R524) -/

/-- A section: destination, hart, offset, length. -/
structure Section where
  dest : Nat
  hart : Nat
  dofs : Nat
  len : Nat
  deriving DecidableEq, Repr

/-- Sections of a header. -/
def sectionsOf (h : List Byte) : List Section :=
  (List.range (leField h 18 2)).map fun i =>
    let b := 512 + 16 * i
    { dest := leField h b 1, hart := leField h (b + 1) 1, dofs := leField h (b + 4) 4, len := leField h (b + 8) 4 }

/-- Size of a section's memory (R377, R522). -/
def destSize (dest : Nat) : Nat :=
  match dest with
  | 0 => 0x40000
  | 1 => 0x40000
  | 2 => 0x100000
  | 3 => 0x3C00000
  | 4 => 0x3C00000
  | _ => 0

/-- Place of byte `ofs` of hart `h`'s I-TCM (0) or D-TCM (1). -/
def tcmPlace (h dt ofs : Nat) : Nat := areaBase areaTcm + h * 0x80000 + dt * 0x40000 + ofs

/-- Place of byte `ofs` of a section's memory. -/
def destPlace (dest hart ofs : Nat) : Nat :=
  match dest with
  | 0 => tcmPlace hart 0 ofs
  | 1 => tcmPlace hart 1 ofs
  | 2 => areaBase areaShared + ofs
  | 3 => areaBase areaPsram + ofs
  | _ => areaBase areaPsram + 2 ^ 32 + ofs

/-- Bytes of a section with its padding. -/
def Section.padded (x : Section) : Nat := ceilDiv x.len 64 * 64

/-- A section fits its memory; HART counts for a TCM alone. -/
def Section.fits (x : Section) : Bool := x.dest < 5 && (x.hart < 4 || 2 ≤ x.dest) && x.dofs + x.len ≤ destSize x.dest

/-- Two sections overlap. -/
def Section.overlaps (x y : Section) : Bool :=
  let a := destPlace x.dest x.hart x.dofs
  let b := destPlace y.dest y.hart y.dofs
  a < b + y.len && b < a + x.len

/-- No section overlaps a later one. -/
def apart : List Section → Bool
  | [] => true
  | x :: xs => xs.all (fun y => !x.overlaps y) && apart xs

/-- Place of image 0 (A) or 1 (B) in the flash (R522). -/
def imagePlace (img : Nat) : Nat := areaBase areaFlash + img * 0x08000000

/-- Step 1 of R524: the format of a header. -/
def headerOk (s : State) (h : List Byte) : Bool :=
  let xs := sectionsOf h
  let n := leField h 18 2
  leField h 0 4 == 0x5A4A4231 && 1 ≤ n && n ≤ 16 && leField h 20 4 ≤ 64 * 2 ^ 20 && leField h 16 1 < 4 &&
    leField h 17 1 < 4 && zeroRange h 24 31 && zeroRange h 768 1023 && zeroRange h 17632 20479 &&
    (List.range 16).all (fun i => zeroRange h (514 + 16 * i) (515 + 16 * i) && zeroRange h (524 + 16 * i) (527 + 16 * i)) &&
    xs.all Section.fits && apart xs && (xs.map Section.padded).foldl (· + ·) 0 == leField h 20 4 &&
    (let w := s.get (BLV_HART_RVEC_OFS 0) * 4
     xs.any fun x => x.dest == 0 && x.hart == 0 && x.dofs ≤ w && w + 4 ≤ x.dofs + x.len)

/-- Steps 1 to 4 of R524 for an image: 0, or the cause. -/
def headerCheck (s : State) (h : List Byte) : Nat :=
  if !headerOk s h then 1
  else if leField h 8 4 < rollbackCount s.fuses then 2
  else keyCheck s.fuses (leField h 16 1) (leField h 17 1) (slice h 80 463) (slice h 464 511) (h.take 1024)
    (slice h 1024 1407) (slice h 1408 17631)

/-! ### Measurements (R527) -/

/-- A measurement register, 48 bytes. -/
def pcr (s : State) (p : Nat) : List Byte := (List.range 6).flatMap fun j => leBytes 8 (s.rd (SEC_PCR p j)).toNat

/-- Extend a measurement register with a digest. -/
def pcrExtend (s : State) (p : Nat) (d : List Byte) : State :=
  let new := sha384 (pcr s p ++ d)
  forUpTo 6 (fun j s => s.wr (SEC_PCR p j) (BitVec.ofNat 64 (word64 new j))) s

/-! ### Operations (R519–R521, R529) -/

/-- Fields of SEC_CMD. -/
def cmdOp (v : Nat) : Nat := bitsOf v 7 0
def cmdIdx (v : Nat) : Nat := bitsOf v 10 8
def cmdKind (v : Nat) : Nat := bitsOf v 11 11
def cmdVal (v : Nat) : Nat := bitsOf v 22 16
def cmdArm (v : Nat) : Nat := bitsOf v 31 24

/-- The identity keys can be used (R516, R528). -/
def identUsable (s : State) : Bool := !s.on SEC_STAT_NOIDENT && lcCode s != 3

/-- Cells of the flash identity area (R522). -/
def identArea (s : State) : List Host.Cell :=
  s.mem.filter fun c => areaBase areaFlash + 0x0FF00000 ≤ c.1 && c.1 < areaBase areaFlash + 0x10000000

/-- Bytes an operation reads from SRC. -/
def cmdSourceLen (v : Nat) : Nat :=
  match cmdOp v with
  | 0x01 => 48
  | 0x02 => 48
  | 0x10 => 48
  | 0x13 => 128
  | 0x14 => if cmdVal v = 3 then 17120 else 0
  | _ => 0

/-- Lifecycle states in which REVOKE and ROLLBACK are programmed (R513). -/
def lcProgrammable (s : State) : Bool := 1 ≤ lcCode s && lcCode s ≤ 3

/-- A lifecycle transition is allowed, the unlock record aside (R515). -/
def lcAllowed (s : State) (target : Nat) : Bool :=
  match lcCode s, target with
  | 1, 2 => s.fuses.protMark && (List.range 4).any (slotUsable s.fuses 0) && (List.range 4).any (slotUsable s.fuses 1)
  | 2, 3 => true
  | 1, 4 => true
  | 2, 4 => true
  | 3, 4 => true
  | _, _ => false

/-- A slot is the last usable one of its kind (R520). -/
def lastSlot (f : Fuses) (kind slot : Nat) : Bool :=
  !(List.range 4).any fun i => i != slot && slotUsable f kind i

/-- The unlock record is accepted (R521). -/
def unlockOk (s : State) (r : List Byte) : Bool :=
  leField r 0 4 == 0x524D4131 && leField r 4 4 == s.fuses.serial && leField r 8 8 == s.get SEC_CHAL_VALUE &&
    leField r 16 1 < 4 && leField r 17 1 < 4 && zeroRange r 18 63 && zeroRange r 496 511 &&
    keyCheck s.fuses (leField r 16 1) (leField r 17 1) (slice r 64 447) (slice r 448 495) (r.take 64) (slice r 512 895)
      (slice r 896 17119) == 0

/-- How a fuse operation ends, before its source is read: 0 while nothing refuses it. -/
def fuseRefusal (s : State) (v : Nat) : Nat :=
  let k := cmdKind v
  let i := cmdIdx v
  if cmdArm v ≠ 0xA5 then secBadOp
  else if s.on PWR_STAT_BOW then secBrownout
  else match cmdOp v with
    | 0x10 =>
      if 4 ≤ i then secBadOp
      else if lcCode s ≠ 1 ∨ i = 0 then secState
      else if (keySlots s.fuses k).getD i (0, false) ≠ (0, false) then secAlready else 0
    | 0x11 =>
      if 4 ≤ i then secBadOp
      else if !lcProgrammable s then secState
      else if lastSlot s.fuses k i then secLastSlot else 0
    | 0x12 =>
      if !lcProgrammable s || s.get SEC_BOOT_SVN < cmdVal v || cmdVal v < rollbackCount s.fuses then secState else 0
    | 0x13 =>
      if lcCode s ≠ 1 then secState
      else if s.fuses.protMark || protDamaged s.fuses then secAlready else 0
    | _ => if lcAllowed s (cmdVal v) then 0 else secState

/-- How an operation ends, before its source is read: 0 while nothing refuses it. -/
def cmdRefusal (s : State) (v : Nat) : Nat :=
  match cmdOp v with
  | 0x01 => if cmdIdx v = 0 then secBadOp else 0
  | 0x02 => if identUsable s then 0 else secNoIdent
  | 0x03 => if identUsable s then 0 else secNoIdent
  | op => if 0x10 ≤ op ∧ op ≤ 0x14 then fuseRefusal s v else secBadOp

/-- How an operation that nothing refuses ends, given what it read. -/
def cmdResult (s : State) (v : Nat) (bs : List Byte) : Nat :=
  if cmdOp v = 0x13 ∧ !zeroRange bs 66 127 then secBadRec
  else if cmdOp v = 0x14 ∧ cmdVal v = 3 ∧ !unlockOk s bs then secBadRec
  else secDone

/-- A write of SEC_CMD (R529): a non-zero OP starts the operation; while BUSY it changes nothing but RESULT. -/
def secStart (v : Nat) (s : State) : State :=
  if s.on SEC_CMD_STAT_BUSY then s.put SEC_CMD_STAT_RESULT secBusy
  else if cmdOp v = 0 then s
  else
    let refused := cmdRefusal s v
    let len := cmdSourceLen v
    let (s, bad, bs) := if refused ≠ 0 ∨ len = 0 then (s, 0, []) else engineRead s 5 0 (s.get SEC_CMD_SRC_ADDR * 64) len
    let result := if refused ≠ 0 then refused else if bad ≠ 0 then secReadErr else cmdResult s v bs
    { s.setOn SEC_CMD_STAT_BUSY with
      secOp := some { cmd := v, result := result, dst := s.get SEC_CMD_DST_ADDR * 64, data := bs } }

/-- Bits that an operation programs (R513): what it adds to each field. -/
structure FuseBits where
  lc : Nat
  kind : Nat
  slot : Nat
  key : Nat × Bool
  revoke : Nat
  rollback : Nat
  protWin : List Nat
  protDbg : Nat
  protPert : Nat
  protMark : Bool
  deriving DecidableEq, Repr

/-- An operation that programs nothing. -/
def FuseBits.none : FuseBits :=
  { lc := 0, kind := 0, slot := 0, key := (0, false), revoke := 0, rollback := 0, protWin := [], protDbg := 0
    protPert := 0, protMark := false }

/-- A key slot with bits added. -/
def addKey (ks : List (Nat × Bool)) (slot : Nat) (k : Nat × Bool) : List (Nat × Bool) :=
  ks.set slot ((ks.getD slot (0, false)).1 ||| k.1, (ks.getD slot (0, false)).2 || k.2)

/-- Windows with bits added. -/
def addWindows (ws add : List Nat) : List Nat := (ws.zip (List.range ws.length)).map fun p => p.1 ||| add.getD p.2 0 % 2 ^ 64

/-- Fuses programmed: a bit once programmed stays (R513), and each field keeps its width. -/
def Fuses.program (f : Fuses) (b : FuseBits) : Fuses :=
  let k := (b.key.1 % 2 ^ 384, b.key.2)
  { f with
    lc := f.lc ||| b.lc % 16
    khRsa := if b.kind = 0 then addKey f.khRsa b.slot k else f.khRsa
    khSlh := if b.kind = 0 then f.khSlh else addKey f.khSlh b.slot k
    revoke := f.revoke ||| b.revoke % 256
    rollback := f.rollback ||| b.rollback % 2 ^ 64
    protWin := addWindows f.protWin b.protWin
    protDbg := f.protDbg ||| b.protDbg % 256
    protPert := f.protPert ||| b.protPert % 4
    protMark := f.protMark || b.protMark }

/-- LC bits of a lifecycle code. -/
def lcBits (code : Nat) : Nat := match code with | 2 => 3 | 3 => 7 | 4 => 15 | _ => 1

/-- ROLLBACK with the lowest unprogrammed bits added until `n` are programmed. -/
def rollbackTo (bits n : Nat) : Nat :=
  forUpTo 64 (fun i b => if b.testBit i || n ≤ popCount 64 b then b else b + 2 ^ i) bits

/-- What a fuse operation programs (R513, R515, R520). -/
def fuseBits (f : Fuses) (v : Nat) (bs : List Byte) : FuseBits :=
  match cmdOp v with
  | 0x10 => { FuseBits.none with kind := cmdKind v, slot := cmdIdx v, key := (leNat bs, true) }
  | 0x11 => { FuseBits.none with revoke := 2 ^ (4 * cmdKind v + cmdIdx v) }
  | 0x12 => { FuseBits.none with rollback := rollbackTo f.rollback (cmdVal v) }
  | 0x13 =>
    { FuseBits.none with protWin := (List.range 8).map (word64 bs), protDbg := leField bs 64 1,
                         protPert := leField bs 65 1 % 4, protMark := true }
  | 0x14 => { FuseBits.none with lc := lcBits (cmdVal v) }
  | _ => FuseBits.none

/-- The signed body of an attestation record (R530). -/
def attestBody (s : State) (nonce : List Byte) : List Byte :=
  padBytes 1024 (leBytes 4 0x41545431 ++ leBytes 2 1 ++ leBytes 2 1024 ++ leBytes 8 (s.view SYS_IDENT).toNat ++
    leBytes 4 s.fuses.serial ++ leBytes 4 0 ++ leBytes 1 (lcCode s) ++ leBytes 1 s.fuses.revoke ++
    leBytes 1 (dbgLock s) ++ leBytes 1 (s.get SEC_BOOT_SLOT) ++ leBytes 4 (s.get SEC_BOOT_VERSION) ++
    leBytes 4 (s.get SEC_BOOT_SVN) ++ leBytes 4 (rollbackCount s.fuses) ++ s.tsNow ++ nonce ++
    sha384 (padBytes 384 (Config.identRsa s.fuses.secret (identArea s))) ++ padBytes 48 (Config.identSlh s.fuses.secret) ++
    (List.range 8).flatMap (pcr s))

/-- The attestation record (R530). -/
def attestRecord (s : State) (nonce : List Byte) : List Byte :=
  let body := attestBody s nonce
  body ++ padBytes 384 (Config.identRsaSign s.fuses.secret (identArea s) body s.free) ++
    padBytes 16224 (Config.identSlhSign s.fuses.secret body s.free)

/-- SEC_CHAL takes a fresh random value (R521). -/
def freshChallenge (s : State) : State :=
  { s.wr SEC_CHAL (Config.freeWord s.free) with free := s.free + 1 }

/-- What an operation that ends with DONE does (R529). -/
def secEffect (s : State) (o : SecOp) : State :=
  match cmdOp o.cmd with
  | 0x01 => pcrExtend s (cmdIdx o.cmd) o.data
  | 0x02 => { (engineWrite s 5 0 o.dst (attestRecord s o.data)).1 with free := s.free + 1 }
  | 0x03 => (engineWrite s 5 0 o.dst (padBytes 384 (Config.identRsa s.fuses.secret (identArea s)) ++
      padBytes 48 (Config.identSlh s.fuses.secret))).1
  | _ => { s with fuses := s.fuses.program (fuseBits s.fuses o.cmd o.data) }

/-- The units of R553 turn off while SEC_PERT_OK is 0. -/
def pertSettle (s : State) : State := if pertOk s then s else { s.wr DGN_PERT_CTL 0#64 with burst := [] }

/-- The fuses when the running operation ends. -/
def fusesDone (s : State) : Fuses :=
  match s.secOp with
  | some o => if o.result = secDone then s.fuses.program (fuseBits s.fuses o.cmd o.data) else s.fuses
  | none => s.fuses

/-- SEC_CMD_DONE (R529): the running operation ends. -/
def execSecCmdDone (s : State) : Host.Outcome State Fault Refusal :=
  finishFuses (fusesDone s) s (
    match s.secOp with
    | none => s
    | some o =>
      let s := if o.result = secDone then pertSettle (secEffect s o) else s
      let s := if cmdOp o.cmd = 0x14 ∧ cmdArm o.cmd = 0xA5 then freshChallenge s else s
      let s := ((s.put SEC_CMD_STAT_RESULT o.result).setOff SEC_CMD_STAT_BUSY).setOn SEC_EVT_DONE
      { onIf (o.result ≠ secDone) (·.setOn SEC_EVT_FAIL) s with secOp := none })

/-- Part of the bits a programming operation adds: a free choice among up to 512 of them. -/
def someBits (s : State) (k new : Nat) : Nat :=
  new &&& ((List.range 8).foldl (fun acc i => acc * 2 ^ 64 + (Config.freeWord (s.free + 8 * k + i)).toNat) 0)

/-- A field with a marker half programmed: some of its bits, all of them where none, and no marker (R514, R520). -/
def halfKey (s : State) (new : Nat) : Nat := if someBits s 0 new = 0 then new else someBits s 0 new

/-- PROT half programmed: some bit of it at least. -/
def halfProt (s : State) (b : FuseBits) : FuseBits :=
  let h := { b with protWin := (List.range 8).map (fun w => someBits s w (b.protWin.getD w 0))
                    protDbg := someBits s 8 b.protDbg, protPert := someBits s 9 b.protPert, protMark := false }
  if h.protWin.any (· ≠ 0) || h.protDbg ≠ 0 || h.protPert ≠ 0 then h else { b with protMark := false }

/-- What an interrupted operation has programmed (R514, R520): a field with a marker is left DAMAGED, the others with
some bits of the operation. -/
def interruptedBits (s : State) (o : SecOp) : FuseBits :=
  let b := fuseBits s.fuses o.cmd o.data
  match cmdOp o.cmd with
  | 0x10 => { b with key := (halfKey s b.key.1, false) }
  | 0x13 => halfProt s b
  | _ => { b with revoke := someBits s 0 b.revoke, rollback := someBits s 1 b.rollback, lc := someBits s 2 b.lc }

/-- The fuses after a brown-out trip during a programming operation (R520). -/
def fusesInterrupted (s : State) : Fuses :=
  match s.secOp with
  | some o =>
    if o.result ≠ secDone ∨ cmdOp o.cmd < 0x10 then s.fuses else s.fuses.program (interruptedBits s o)
  | none => s.fuses

/-- A brown-out trip ends the running operation (R520). -/
def fuseInterrupted (s : State) : State :=
  { s with fuses := fusesInterrupted s, secOp := none, free := s.free + 80 }

end Sys2Proof.Machine
end

