-- ==== Sys2Proof/Machine/Power.lean ====
section
/-! DEFINITION. Power: start-up and the boot ROM (R512, R522–R526), brown-out and thermal shutdown (R505–R507), the
control pins (R510, R511), peripheral supplies (R504), power states (R531–R536) and the power cap (R537, R538). -/

namespace Sys2Proof.Machine

open Sys2Proof Sys2Proof.Machine.Reg

/-! ### Pins and the cap -/

/-- Bit 0 of the error register 0x1001 (R454): a PLAUS, SUBST or STALE condition holds. -/
def errorBit (s : State) : Bool :=
  s.get BLV_CLE_PLAUS_MASK != 0 || (List.range 4).any (fun g => s.on (FLD_ECM_STAT_SUBST g)) ||
    (List.range 9).any fun l => s.on (SLC_L_STAT_STALE l)

/-- FAULT_N is pulled low (R511); unpowered it is high-impedance. -/
def faultLow (s : State) : Bool :=
  2 ≤ s.pwr.phase && (errorBit s || s.on PWR_STAT_BOW || s.on PWR_STAT_THROT || s.pwr.phase == 5)

/-- PWR_CAP in force, W (R540). -/
def capW (s : State) : Nat := max 60 (min 380 (s.get PWR_CAP_W))

/-- The thermal limit (R507): 380 − 20 × (TCP − 65) W above 65 °C, TCP in tenths of a degree. -/
def thermalLimit (s : State) : Nat :=
  let t := s.getInt PWR_TCP_VALUE
  if 650 < t then (380 - 2 * (t - 650)).toNat else 380

/-- The effective cap takes its value (R505, R507, R537). -/
def effCap (s : State) : State :=
  let c := min (capW s) (thermalLimit s)
  s.put PWR_EFFCAP_VALUE (if s.on PWR_STAT_BOW then min c 140 else c)

/-- BROWNOUT_WARNING (R505): not in Dormant (R532). -/
def execBrownoutWarning (s : State) : Host.Outcome State Fault Refusal :=
  finish s (if s.get PWR_STAT_STATE = 3 then s else effCap ((s.setOn PWR_STAT_BOW).setOn PWR_EVT_BOW))

/-- BROWNOUT_WARNING_CLEAR (R505): VIN has been above 36.0 V for 10 ms. -/
def execBrownoutWarningClear (s : State) : Host.Outcome State Fault Refusal :=
  finish s (effCap (s.setOff PWR_STAT_BOW))

/-- THERMAL_SAMPLE (R507): the cold plate's temperature, in tenths of a degree, once in 10 ms. -/
def execThermalSample (tcp : Int) (s : State) : Host.Outcome State Fault Refusal :=
  finish s (
    if s.cyc / 10000000 ≤ s.pwr.heated then s
    else
    let s := s.putInt PWR_TCP_VALUE (clampInt tcp (-32768) 32767)
    let s := s.put PWR_STAT_THROT (ofBool (650 < tcp))
    let hot := if 800 < tcp then some (s.pwr.hotAt.getD s.cyc) else none
    effCap { s with pwr := { s.pwr with hotAt := hot, heated := s.cyc / 10000000 } })

/-- P in mW is at most 0.95f × C (R537), the product an FP32 product. -/
def belowCap (mw c : Nat) : Bool :=
  vLe (.fin false mw 0) (vMul (f32Val (flMul 0x3F733333#32 (f32OfInt c))) (.fin false 1000 0))

/-- The level of R537 changes, counted and reported. -/
def setLevel (s : State) (l : Nat) : State :=
  { (s.put PWR_STAT_LEVEL l).setOn PWR_EVT_LEVEL with pwr := { s.pwr with lvlAt := (s.cyc, s.get PWR_STAT_LEVEL) } }

/-- POWER_CAP_SAMPLE (R537, R538): P over the preceding ms, in mW, once in 100 µs. PWR_VIN takes the input voltage, which
no command gives: a free value (log entry 73). -/
def execPowerCapSample (mw : Nat) (s : State) : Host.Outcome State Fault Refusal :=
  finish s (
    if s.cyc / 100000 ≤ s.pwr.sampled then s
    else
    let s := { s.put PWR_VIN_VALUE (Config.freeWord s.free).toNat with
      free := s.free + 1, pwr := { s.pwr with sampled := s.cyc / 100000 } }
    let s := s.put PWR_PMOD_VALUE mw
    let c := s.get PWR_EFFCAP_VALUE
    let l := s.get PWR_STAT_LEVEL
    let o := if c * 1000 < mw then s.pwr.overN + 1 else 0
    let u := if c * 1000 < mw then 0 else if belowCap mw c then s.pwr.underN + 1 else 0
    let rise : Bool := 5 ≤ o && l < 3
    let fall : Bool := 100 ≤ u && 0 < l
    let s := { s with pwr := { s.pwr with overN := if rise then 0 else o, underN := if fall then 0 else u } }
    if rise then
      (setLevel s (l + 1)).count (if l = 0 then PWR_CNT_HOLD_VALUE else PWR_CNT_THROT_VALUE) 1
    else if fall then
      let s := setLevel s (l - 1)
      if l = 1 then schDecide s else s
    else s)

/-! ### Peripheral supplies (R504) -/

/-- SUPPLY_OVERCURRENT: supply `i` (VCAM of CSI-2 port 0–11, VIMU of IMU port 0–3 at 12–15) has exceeded its limit
for 1 ms and switches off. -/
def execSupplyOvercurrent (i : Nat) (s : State) : Host.Outcome State Fault Refusal :=
  finish s (
    if !s.pwr.supOn || 16 ≤ i then s else { s with pwr := { s.pwr with supOff := tset s.pwr.supOff i s.cyc } })

/-- SUPPLY_RETRY: it tries again 100 ms later. -/
def execSupplyRetry (i : Nat) (s : State) : Host.Outcome State Fault Refusal :=
  finish s (
    match tget s.pwr.supOff i with
    | some t =>
      if s.cyc < t + 100000000 then s else { s with pwr := { s.pwr with supOff := tdel s.pwr.supOff i } }
    | none => s)

/-! ### Gating -/

/-- Memory with one area's cells gone: it holds nothing written again. -/
def State.dropArea (s : State) (area : Nat) : State :=
  { s with mem := s.mem.filter fun c => !(areaBase area ≤ c.1 && c.1 < areaBase (area + 1)) }

/-- Tensor cores, application cluster, Trellis and solver are power-gated (R506 instant 1, R534). -/
def gateFabric (s : State) : State :=
  let s := (List.range 8).foldl (fun (s : State) n => s.wr (TC_STAT n) 0#64) s
  let s := { s with cores := [], batch := none, trl := trellisReset, kvpQueue := [], acks := [] }
  let s := (s.put SYS_CORE_MAP_POWERED 0).put SYS_ISLAND_STAT_CORE 0
  ((s.setOff SYS_ISLAND_STAT_APP).setOff SYS_ISLAND_STAT_TRL).setOff SYS_ISLAND_STAT_SLV

/-! ### Shutdown (R506, R507, R510) -/

/-- A trip taken now is the first cause of a shutdown. -/
def tripFirst (s : State) : Bool :=
  match s.pwr.trip with
  | some (_, _, reset) => reset
  | none => true

/-- A brown-out or thermal trip is taken (R506): instant 1 of the shutdown. One shutdown runs for causes that fall
together. -/
def takeTrip (s : State) (cause : Nat) : State :=
  if s.pwr.phase < 2 then s
  else
    let first := tripFirst s
    let s := { s with pwr := { s.pwr with causes := s.pwr.causes ||| cause, vinLow := s.pwr.vinLow || cause == 1 } }
    if first then
      let s := gateFabric (fuseInterrupted s)
      let s := ((s.dropArea 3).setOff MEM_DDR_STAT_READY)
      let t := match s.pwr.trip with
        | some (t, n, _) => some (t, n, false)
        | none => some (s.cyc, 2, false)
      { s with sched := { s.sched with steps := [] }, pwr := { s.pwr with trip := t } }
    else s

/-- The fuses after a trip. -/
def tripFuses (s : State) : Fuses := if tripFirst s then fusesInterrupted s else s.fuses

/-- BROWNOUT_TRIP (R506). -/
def execBrownoutTrip (s : State) : Host.Outcome State Fault Refusal := finishFuses (tripFuses s) s (takeTrip s 1)

/-- THERMAL_TRIP (R507): TCP has been above 80 °C for 1 s. -/
def execThermalTrip (s : State) : Host.Outcome State Fault Refusal :=
  match s.pwr.hotAt with
  | some t =>
    if s.cyc < t + 1000000000 then finish s s
    else
      let s1 := takeTrip s 2
      finishFuses (tripFuses s) s { s1 with pwr := { s1.pwr with hotHold := true } }
  | none => finish s s

/-- The frame in progress on a segment has returned or met its deadline (R506 instant 2). -/
def segQuiet (s : State) (g : Nat) : Bool :=
  match (segOf s g).cyc with
  | some c => c.phase != 2 || c.b + s.get (FLD_ECM_TIMING_DEADLINE g) ≤ s.cyc
  | none => true

/-- The final frame of a segment: its template with every output entry as SUBST gives it. -/
def finalFrame (s : State) (g : Nat) : State :=
  let bs := (entriesOf s g 1).foldl (fun bs e => (convertEntry s g true (segOf s g).sent bs e).1)
    (frameWords s (FLD_ECM_TPL g) 2048)
  let f := bs.take (frameLen s g)
  let s := onIf (s.on (FLD_ECM_STAT_LINKA g)) (·.send (.frame (segPort g false) f)) s
  onIf (s.on (FLD_ECM_CTL_REDUND g) && s.on (FLD_ECM_STAT_LINKB g)) (·.send (.frame (segPort g true) f)) s

/-- SHUTDOWN_FINAL_FRAME (R506 instant 2). -/
def execShutdownFinalFrame (s : State) : Host.Outcome State Fault Refusal :=
  finish s (
    match s.pwr.trip with
    | some (t, 2, r) =>
      if s.cyc < t + 20000 || !(List.range 4).all (fun g => !s.on (FLD_ECM_STAT_RUN g) || segQuiet s g) then s
      else
        let s := forUpTo 4 (fun g s => if s.on (FLD_ECM_STAT_RUN g) then finalFrame s g else s) s
        { s with pwr := { s.pwr with trip := some (t, 3, r) } }
    | _ => s)

/-- SHUTDOWN_OUTPUTS_LOW (R506 instant 3). -/
def execShutdownOutputsLow (s : State) : Host.Outcome State Fault Refusal :=
  finish s (
    match s.pwr.trip with
    | some (t, 3, r) =>
      if s.cyc < t + 300000 then s else { s with pwr := { s.pwr with linesLow := true, trip := some (t, 4, r) } }
    | _ => s)

/-- Cells of the flash, which keeps its contents without power. -/
def flashCells (m : List Host.Cell) : List Host.Cell :=
  m.filter fun c => areaBase areaFlash ≤ c.1 && c.1 < areaBase (areaFlash + 1)

/-- The device without power, or at the start of a start-up phase: only the fuses and the flash keep their contents
(R531); LASTOFF and a thermal hold are recorded. The queue, the record of what has left and the free values' counter
are the model's own. -/
def coldState (s : State) (phase : Nat) : State :=
  let base : State := { State.reset with
    pending := s.pending, outbox := s.outbox, free := s.free, fuses := s.fuses, mem := flashCells s.mem
    pwr := { State.reset.pwr with phase := phase, hotHold := s.pwr.hotHold, vinLow := s.pwr.vinLow } }
  base.put PWR_STAT_LASTOFF s.pwr.causes

/-- SHUTDOWN_RAILS_OFF (R506 instant 4): OFF; after RESET_N the start-up follows at once (R510). -/
def execShutdownRailsOff (s : State) : Host.Outcome State Fault Refusal :=
  match s.pwr.trip with
  | some (t, 4, r) => if s.cyc < t + 500000 then .next s else .next (coldState s (if r then 1 else 0))
  | _ => .next s

/-- RESET_PIN (R510): RESET_N has been low for 10 µs. -/
def execResetPin (s : State) : Host.Outcome State Fault Refusal :=
  let s1 := { s with pwr := { s.pwr with causes := s.pwr.causes ||| 4 } }
  if s.pwr.phase < 2 ∨ s.pwr.trip.isSome then .next s
  else if s.pwr.phase < 4 then .next (coldState s1 2)
  else finish s { s1 with pwr := { s1.pwr with trip := some (s.cyc - 20000, 2, true) } }

/-! ### Start-up (R512) and the boot ROM (R522–R526) -/

/-- POWER_ON (R512 instant 1): VIN rises through 35.0 V; after a thermal trip the start waits for the plate to cool. -/
def execPowerOn (s : State) : Host.Outcome State Fault Refusal :=
  if s.pwr.phase ≠ 0 then .next s
  else .next { s with pwr := { s.pwr with phase := ofBool (!s.pwr.hotHold), vinLow := false } }

/-- THERMAL_RESTART (R507): TCP has fallen below 60 °C after a thermal trip; after a brown-out trip too, the start waits
for VIN. -/
def execThermalRestart (s : State) : Host.Outcome State Fault Refusal :=
  if s.pwr.phase = 0 ∧ s.pwr.hotHold then
    .next { s with pwr := { s.pwr with phase := ofBool (!s.pwr.vinLow), hotHold := false } }
  else .next s

/-- AON_CLOCK_LOCK (R512 instant 3): the always-on clocks lock, and Bandstand counts from zero in wrap mode. -/
def execAonClockLock (s : State) : Host.Outcome State Fault Refusal :=
  if s.pwr.phase = 1 then .next { s with cyc := 0, acc := 0, pwr := { s.pwr with phase := 2 } } else .next s

/-- The islands' clocks lock and align, their logic leaves reset, and the present cores are powered (R559). -/
def islandsUp (s : State) : State :=
  let s := (s.put SYS_CORE_MAP_POWERED s.fuses.phys).put SYS_ISLAND_STAT_CORE s.fuses.phys
  s.wr SYS_ISLAND_STAT (s.rd SYS_ISLAND_STAT ||| 0x3FF00#64)

/-- Cause field of an image in SEC_BOOT. -/
def bootCause (img : Nat) : Fld := if img = 0 then SEC_BOOT_CAUSEA else SEC_BOOT_CAUSEB

/-- The boot fails (R525): PGOOD stays low and FAULT_N low. -/
def bootFails (s : State) : State := { s with pwr := { s.pwr with phase := 5, boot := none } }

/-- BOOT_ROM_START (R512 instant 4, R516, R523–R525, R528): the identity area is unwrapped, both headers are checked,
and the first candidate begins to load. -/
def execBootRomStart (s : State) : Host.Outcome State Fault Refusal :=
  finish s (
    if s.pwr.phase ≠ 2 then s
    else
      let s := freshChallenge (islandsUp { s with pwr := { s.pwr with phase := 3 } })
      let s := (s.setOn (BLV_HRC_STAT_READY 0)).setOn (BLV_HRC_STAT_READY 1)
      let s := s.put SEC_STAT_NOIDENT (ofBool (!Config.identUnwraps s.fuses.secret (identArea s)))
      let both := fun (s : State) (c : Nat) => (s.put SEC_BOOT_CAUSEA c).put SEC_BOOT_CAUSEB c
      if lcCode s = 0 then bootFails (both s 15)
      else if lcCode s = 4 then bootFails (both s 9)
      else
        let hdr := fun img => s.load (imagePlace img) 20480
        let ca := headerCheck s (hdr 0)
        let cb := headerCheck s (hdr 1)
        let s := (s.put SEC_BOOT_CAUSEA (if ca = 0 then 15 else ca)).put SEC_BOOT_CAUSEB (if cb = 0 then 15 else cb)
        let gen := fun img => leField (hdr img) 12 4
        let order := if gen 0 < gen 1 then [1, 0] else [0, 1]
        match order.filter fun img => (if img = 0 then ca else cb) = 0 with
        | [] => bootFails s
        | img :: rest => { s with pwr := { s.pwr with boot := some (img, rest) } })

/-- Sections streamed to their destinations (R524 step 5). -/
def landSections (s : State) (img : Nat) (xs : List Section) : State :=
  (xs.foldl (fun (a : State × Nat) x =>
    (a.1.store (destPlace x.dest x.hart x.dofs) (a.1.load (imagePlace img + a.2) x.len), a.2 + x.padded)) (s, 20480)).1

/-- The loaded image starts (R512 instant 5, R524, R527). -/
def bootStarts (s : State) (img : Nat) (h : List Byte) : State :=
  let s := pcrExtend (pcrExtend s 0 (sha384 (h.take 1024))) 0 (slice h 32 79)
  let s := (s.put (bootCause img) 0).put SEC_BOOT_SLOT img
  let s := (s.put SEC_BOOT_VERSION (leField h 4 4)).put SEC_BOOT_SVN (leField h 8 4)
  hartStart { s with pwr := { s.pwr with phase := 4, boot := none, pgood := true, supOn := true } } 0

/-- BOOT_LOAD_END (R523–R526): the load of the candidate ends; a flash read error or a wrong digest makes the next
candidate load. -/
def execBootLoadEnd (readErr : Bool) (s : State) : Host.Outcome State Fault Refusal :=
  finish s (
    match s.pwr.boot with
    | none => s
    | some (img, rest) =>
      let h := s.load (imagePlace img) 20480
      let fails := fun (s : State) (cause : Nat) =>
        let s := s.put (bootCause img) cause
        match rest with
        | [] => bootFails s
        | i :: is => { s with pwr := { s.pwr with boot := some (i, is) } }
      if readErr then fails s 8
      else
        let s := landSections s img (sectionsOf h)
        if sha384 (s.load (imagePlace img + 20480) (leField h 20 4)) = slice h 32 79 then bootStarts s img h
        else fails s 7)

/-! ### Dormant (R531–R536) -/

/-- A Sluice lane is FILLING, in CHECK or ARMED. -/
def laneBusy (s : State) (l : Nat) : Bool := laneSt s l == 1 || laneSt s l == 3 || laneSt s l == 5

/-- The first code of R533 that refuses Dormant entry, 0 where none does. -/
def dormantRefusal (s : State) : Nat :=
  if s.on SEC_CMD_STAT_BUSY then 1
  else if s.on PWR_STAT_BOW || s.on PWR_STAT_THROT then 2
  else if s.on SCH_CTRL_READY || (List.range 8).any (fun n => s.on (TC_STAT_BUSY n)) then 3
  else if s.get MEM_PLT_MIGR_VALUE ≠ 0 || s.get MEM_PLQ_PROD_INDEX ≠ s.get MEM_PLQ_CONS_INDEX then 4
  else if s.on SNS_CTRL_ENABLE || s.on FUS_CTRL_ENABLE || s.on SLV_CTRL_ENABLE || s.on TRL_CTRL_ENABLE ||
      s.on CWY_CTRL_ENABLE then 5
  else if (List.range 64).any (fun n => s.on (BLV_CLE_L_CTL_ENABLE n)) || s.on RFX_CTRL_ENABLE ||
      (List.range 9).any (laneBusy s) then 6
  else if s.on FLD_ECS_CTRL_ENABLE || (List.range 4).any (fun g => s.on (FLD_ECM_CTL_ENABLE g)) ||
      (List.range 5).any (fun p => s.on (FLD_ETH_CTL_ENABLE p)) then 7
  else if s.on FLD_PCI_STAT_LINKUP then 8
  else 0

/-- Dormant entry (R531, R534). -/
def enterDormant (s : State) : State :=
  let s := (gateFabric s).dropArea 1
  let s := (s.setOff SYS_ISLAND_STAT_SNS).setOff SYS_ISLAND_STAT_CWY
  let s := ((s.setOff SYS_ISLAND_STAT_BLV).setOff SYS_ISLAND_STAT_RFX).setOff MEM_DDR_STAT_READY
  let s := (s.put PWR_STAT_REFUSE 0).put PWR_STAT_STATE 2
  { s with fus := fusionReset
           pwr := { s.pwr with dormAt := some s.cyc, supOn := false, supOff := [], linesLow := true } }

/-- A write of 1 to PWR_CTRL_DORM (R532, R533). -/
def dormRequested (s : State) : State :=
  if s.get PWR_STAT_STATE ≠ 1 then s
  else match dormantRefusal s with
    | 0 => enterDormant s
    | code => (s.put PWR_STAT_REFUSE code).setOn PWR_EVT_REFUSED

/-- DORMANT_ENTERED (R531, R532): 2.0 ms after acceptance the Boardwalk clock has stopped too. -/
def execDormantEntered (s : State) : Host.Outcome State Fault Refusal :=
  finish s (
    match s.pwr.dormAt with
    | some t =>
      if s.get PWR_STAT_STATE ≠ 2 || s.cyc < t + 2000000 then s
      else ((s.setOff SYS_ISLAND_STAT_BWK).put PWR_STAT_STATE 3).count PWR_CNT_DORM_VALUE 1
    | none => s)

/-- WAKE_EVENT (R532, R535): source 0 WAKE_N, 1 an AL control request, 2 the compare unit. -/
def execWakeEvent (src : Nat) (s : State) : Host.Outcome State Fault Refusal := finish s (s.wake src)

/-- The step of R536 that a waking module has reached takes place `us` after the event. -/
def wakeStep (s : State) (n us : Nat) (f : State → State) : State :=
  match s.pwr.wakeAt with
  | some (t, k) =>
    if k ≠ n ∨ s.cyc < t + us * 1000 then s
    else
      let s := f s
      { s with pwr := { s.pwr with wakeAt := some (t, n + 1) } }
  | none => s

/-- WAKE_PLL_LOCK (R536 instant 3): clocks lock, the control harts resume, the supplies switch on. -/
def execWakePllLock (s : State) : Host.Outcome State Fault Refusal :=
  finish s (wakeStep s 0 5000 fun s =>
    let s := islandsUp s
    { s with pwr := { s.pwr with supOn := true, linesLow := false } })

/-- WAKE_APP_START (R536 instants 4 and 5): LPDDR5X is trained, and the application cluster starts at PWR_APPVEC. -/
def execWakeAppStart (s : State) : Host.Outcome State Fault Refusal :=
  finish s (wakeStep s 1 36000 fun s =>
    let s := s.setOn MEM_DDR_STAT_READY
    forUpTo 8 (fun h s => s.send (.hartStart (4 + h) (s.get PWR_APPVEC_ADDR * 4))) s)

/-- WAKE_COMPLETE (R536 instant 6). -/
def execWakeComplete (s : State) : Host.Outcome State Fault Refusal :=
  finish s (
    let s' := wakeStep s 2 40000 fun s => ((islandsUp s).put PWR_STAT_STATE 1).setOn PWR_EVT_WAKE
    if s'.get PWR_STAT_STATE = 1 then { s' with pwr := { s'.pwr with wakeAt := none } } else s')

end Sys2Proof.Machine
end

