-- ==== Sys2Proof/Machine/Trellis.lean ====
section
/-! DEFINITION. Trellis: road-map banks, occupancy and collision checking, the incremental search, requests and plans
(R352–R373). One cycle of Trellis is one Bandstand cycle. -/

namespace Sys2Proof.Machine

open Sys2Proof Sys2Proof.Machine.Reg

/-- INF of R362. -/
def inf32 : Nat := 0xFFFFFFFF

/-- Saturation at INF. -/
def satCost (n : Nat) : Nat := min n inf32

/-- Replace Trellis's state. -/
def State.setTrl (s : State) (t : Trellis) : State := { s with trl := t }

/-- STAT shows the activity (R372). -/
def trlStat (s : State) : State :=
  let t := s.trl
  let phase := match t.req with | some r => r.phase | none => 0
  let s := s.put TRL_STAT_HELD (ofBool (phase = 2))
  let s := s.put TRL_STAT_SEARCH (ofBool (phase = 1))
  let s := s.put TRL_STAT_INGEST (ofBool t.ingest.isSome)
  s.put TRL_CTRL_READY (ofBool (s.on TRL_CTRL_ENABLE && !s.on TRL_CTRL_CFGERR && t.bank.isSome))

/-! ### Banks (R352–R357) -/

/-- Trellis reads for context 0 as foreground traffic (R366). -/
def trlRead (s : State) (a n : Nat) : State × List Byte :=
  let (s, _, bs) := engineRead s 5 0 a n
  (s, bs)

/-- A bank parsed from its parts. -/
def parseBank (h nodes ins edges runs : List Byte) : TrlBank :=
  { nj := leField h 8 1, zv := leField h 9 1, nsrch := leField h 10 2, cell := leField h 12 4
    bankId := leField h 16 8, vinv := words32 h 64 24
    nodes := (List.range (leField h 0 2)).map fun i =>
      let b := (nodes.drop (64 * i)).take 64
      { q := (List.range 24).map fun k => leField b (2 * k) 2, efirst := leField b 48 2, outdeg := leField b 50 1
        infirst := leField b 52 2, indeg := leField b 54 2, stope := leField b 56 2 }
    ins := (List.range (leField h 10 2)).map fun i => leField ins (2 * i) 2
    edges := (List.range (leField h 2 2)).map fun i =>
      let b := (edges.drop (64 * i)).take 64
      { src := leField b 0 2, dst := leField b 2 2, cost := leField b 4 4, runFirst := leField b 8 4
        nrun := leField b 12 2, box := (List.range 6).map fun k => leField b (14 + k) 1, traj := leField b 24 6
        mask := leField b 32 32 }
    runs := (List.range (leField h 4 4)).map fun i => leField runs (4 * i) 4 }

/-- A search edge's or stop primitive's entry; an edge that is not there has no cost and no run. -/
def edgeAt (b : TrlBank) (e : Nat) : TrlEdge :=
  b.edges.getD e { src := 0, dst := 0xFFFF, cost := 0, runFirst := 0, nrun := 0, box := [], traj := 0, mask := 0 }

/-- A node's entry. -/
def nodeAt (b : TrlBank) (n : Nat) : TrlNode :=
  b.nodes.getD n { q := [], efirst := 0, outdeg := 0, infirst := 0, indeg := 0, stope := 0 }

/-- Fields of a run (R356). -/
def runX0 (r : Nat) : Nat := bitsOf r 7 0
def runX1 (r : Nat) : Nat := bitsOf r 7 0 + bitsOf r 15 8
def runY (r : Nat) : Nat := bitsOf r 23 16
def runZ (r : Nat) : Nat := bitsOf r 30 24

/-- The runs of an edge. -/
def edgeRuns (b : TrlBank) (e : TrlEdge) : List Nat := (b.runs.drop e.runFirst).take e.nrun

/-- Signature bit of a voxel (R355). -/
def voxHash (x y z : Nat) : Nat := (x / 8 + 5 * (y / 8) + 17 * (z / 8)) % 256

/-- A voxel passes an edge's filter (R360). -/
def passes (e : TrlEdge) (x y z : Nat) : Bool :=
  let k := fun i => e.box.getD i 0
  k 0 ≤ x && x ≤ k 1 && k 2 ≤ y && y ≤ k 3 && k 4 ≤ z && z ≤ k 5 && e.mask.testBit (voxHash x y z)

/-- Neighbours in a list satisfy `p`. -/
def chainAll (p : Nat → Nat → Bool) : List Nat → Bool
  | a :: b :: rest => p a b && chainAll p (b :: rest)
  | _ => true

/-- An edge's runs keep R356, its box, its mask and the planes. -/
def runsOk (b : TrlBank) (e : TrlEdge) : Bool :=
  let rs := edgeRuns b e
  1 ≤ e.nrun && e.nrun ≤ 4096 && rs.length == e.nrun &&
  rs.all (fun r => !bitOf r 31 && runX1 r ≤ 255 && runZ r < b.zv &&
    (List.range (bitsOf r 15 8 + 1)).all fun i => passes e (runX0 r + i) (runY r) (runZ r)) &&
  chainAll (fun p q => runZ p < runZ q || (runZ p == runZ q && (runY p < runY q ||
    (runY p == runY q && runX1 p < runX0 q)))) rs

/-- FP16 code is finite. -/
def fp16Finite (c : Nat) : Bool := vIsFin (decodeFloat .fp16 c)

/-- The bank passes the checks of R357. -/
def bankOk (h : List Byte) (b : TrlBank) : Bool :=
  let nn := leField h 0 2; let ne := leField h 2 2
  let search := b.edges.take b.nsrch
  1 ≤ nn && nn ≤ 4096 && 1 ≤ ne && ne ≤ 16384 && 1 ≤ leField h 4 4 && leField h 4 4 ≤ 1007616 && 1 ≤ b.nj &&
  b.nj ≤ 24 && 1 ≤ b.zv && b.zv ≤ 128 && b.nsrch ≤ ne &&
  b.vinv.all (fun v => f32IsFinite v && flLe f0 v) && b.nodes.all (fun n => n.q.all fp16Finite) &&
  chainAll (· ≤ ·) (search.map (·.src)) && search.all (fun e => e.src < nn && e.dst < nn) &&
  (List.range nn).all (fun i =>
    let n := nodeAt b i
    let own := (List.range b.nsrch).filter fun e => (edgeAt b e).src == i
    let into := (b.ins.drop n.infirst).take n.indeg
    n.outdeg ≤ 32 && own == List.range' (if own = [] then 0 else n.efirst) n.outdeg &&
    into == ((List.range b.nsrch).filter fun e => (edgeAt b e).dst == i) &&
    b.nsrch ≤ n.stope && n.stope < ne && (edgeAt b n.stope).src == i && (edgeAt b n.stope).dst == 0xFFFF) &&
  (b.edges.drop b.nsrch).all (fun e => e.src < nn && e.dst == 0xFFFF) &&
  distinct b.ins && b.ins.length == b.nsrch && b.edges.all (fun e => e.cost != 0 && runsOk b e)

/-! ### Occupancy (R358–R360) -/

/-- ZPB and NOCC, where 0 acts as 1. -/
def occZpb (s : State) : Nat := max 1 (s.get TRL_OCC_CFG_ZPB)
def occN (s : State) : Nat := max 1 (s.get TRL_OCC_CFG_NOCC)

/-- Occupied voxels of a grid buffer, ascending (R358). -/
def scanGrid (s : State) (zv : Nat) (w f : List Byte) (nf : Nat) : List Nat :=
  let othr := decodeFloat .fp16 (s.get TRL_OCC_CFG_OTHR)
  let unk := s.on TRL_OCC_CFG_UNKOCC
  let f0 := s.get TRL_OCC_CFG_OCCF
  (List.range zv).flatMap fun z =>
    let band := z / occZpb s
    if occN s ≤ band then []
    else (List.range 65536).filterMap fun c =>
      let v := decodeFloat .fp16 (leField f ((c * nf + f0 + band) * 2) 2)
      if vIsNan v || vLe othr v || (unk && leField w (2 * c) 2 == 0) then some (z * 65536 + c) else none

/-- ceil(log2(n + 1)) + 2: cycles of a confirmation (R360). -/
def confirmCycles (n : Nat) : Nat := (if n = 0 then 0 else Nat.log2 n + 1) + 2

/-- The largest sum over sixteen lanes, candidate `i` on lane `i mod 16`. -/
def laneMax (costs : List Nat) : Nat :=
  (List.range 16).foldl (fun m l =>
    max m ((costs.mapIdx fun i c => if i % 16 = l then c else 0).foldl (· + ·) 0)) 0

/-- A voxel is broadcast as a set or a clear: new HITS, and the confirmation cycles. -/
def broadcast (b : TrlBank) (hits : Tbl Nat) (v : Nat) (set : Bool) : Tbl Nat × Nat :=
  let x := v % 256; let y := v / 256 % 256; let z := v / 65536
  let cand := (List.range b.edges.length).filter fun e => passes (edgeAt b e) x y z
  let hits := cand.foldl (fun hits e =>
    if (edgeRuns b (edgeAt b e)).any fun r => runZ r == z && runY r == y && runX0 r ≤ x && x ≤ runX1 r then
      let h := tgetD hits e 0
      tset hits e (if set then h + 1 else h - 1)
    else hits) hits
  (hits, laneMax (cand.map fun e => confirmCycles (edgeAt b e).nrun))

/-- An ingest of the newest published grid begins, if the grid fits the set-up (R359). -/
def ingestStart (s : State) : State :=
  match s.trl.bank with
  | none => s
  | some b =>
    let gen := s.get FUS_GRID_GEN_VALUE
    let buf := gridBuf s (s.get FUS_GRID_CUR_BUF)
    let (s, h) := trlRead s buf 32
    let nf := leField h 20 2
    let s := s.setTrl { s.trl with ingested := gen }
    if leField h 28 4 ≠ b.cell ∨ nf < s.get TRL_OCC_CFG_OCCF + occN s ∨ b.zv < occN s * occZpb s then
      trlStat ((s.count (TRL_CNT_VALUE 10) 1).setOn TRL_EVT_OCCERR)
    else
      let ig : Ingest := { gen := gen, buf := buf, gen0 := leField h 16 4, at_ := s.cyc + 65536, next := none
                           todo := [], tov := h.take 16 }
      trlStat (s.setTrl { s.trl with ingest := some ig })

/-- The newest grid is ingested once none runs; generations passed over are counted (R359). -/
def ingestNewest (s : State) : State :=
  let gen := s.get FUS_GRID_GEN_VALUE
  if s.trl.ingest.isSome ∨ gen = 0 ∨ gen = s.trl.ingested ∨ s.trl.bank.isNone then s
  else
    let skipped := (gen + 2 ^ 32 - s.trl.ingested) % 2 ^ 32 - 1
    ingestStart (onIf (s.trl.ingested ≠ 0) (fun s => s.count (TRL_CNT_VALUE 8) skipped) s)

/-- A torn ingest starts again on the newest grid; generations passed over are counted (R359). -/
def ingestAgain (s : State) (gen : Nat) : State :=
  let skipped := (s.get FUS_GRID_GEN_VALUE + 2 ^ 32 - gen) % 2 ^ 32 - 1
  let s := ({ s with trl := { s.trl with ingest := none } }.count (TRL_CNT_VALUE 7) 1).count (TRL_CNT_VALUE 8) skipped
  ingestStart s

/-- OCC_SCAN_END (R359): NEXT is computed and the header generation read again; a torn read starts the ingest again on
the newest grid. -/
def execOccScanEnd (s : State) : Host.Outcome State Fault Refusal :=
  finish s (
    match s.trl.ingest, s.trl.bank with
    | some ig, some b =>
      if ig.next.isSome ∨ s.cyc < ig.at_ then s
      else
        let (s, h) := trlRead s ig.buf 28
        let nf := leField h 20 2
        let (s, w) := trlRead s (ig.buf + 65536) 131072
        let (s, f) := trlRead s (ig.buf + 196608) (131072 * nf)
        if ig.gen0 ≠ ig.gen ∨ leField h 16 4 ≠ ig.gen then
          ingestAgain s ig.gen
        else
          let next := scanGrid s b.zv w f nf
          let cur := s.trl.cur
          let todo := sortBy (fun a b => a ≤ b) (next.filter (fun v => v ∉ cur) ++ cur.filter (fun v => v ∉ next))
          { s with trl := { s.trl with ingest := some { ig with next := some next, todo := todo, at_ := s.cyc } } }
    | _, _ => s)

/-- OCC_BROADCAST (R359, R360): the next voxel that differs is broadcast. -/
def execOccBroadcast (s : State) : Host.Outcome State Fault Refusal :=
  finish s (
    match s.trl.ingest, s.trl.bank with
    | some ig, some b =>
      match ig.next, ig.todo with
      | some next, v :: rest =>
        if s.cyc < ig.at_ then s
        else
          let (hits, stall) := broadcast b s.trl.hits v (next.contains v)
          let s := s.countWrap TRL_CNT_BCAST_VALUE 1
          let s := s.countWrap TRL_CNT_CONFSTALL_VALUE stall
          { s with trl := { s.trl with hits := hits, ingest := some { ig with todo := rest, at_ := ig.at_ + 1 + stall } } }
      | _, _ => s
    | _, _ => s)

/-! ### Search (R362–R365) -/

/-- BLK of an edge. -/
def blocked (t : Trellis) (e : Nat) : Bool := t.blk.testBit e

/-- g and rhs of a node. -/
def gOf (t : Trellis) (n : Nat) : Nat := tgetD t.g n inf32
def rhsOf (t : Trellis) (n : Nat) : Nat := tgetD t.rhs n inf32

/-- h(a, b) of R362. -/
def hDist (b : TrlBank) (x y : Nat) : Nat :=
  let qx := (nodeAt b x).q; let qy := (nodeAt b y).q
  let word := fun (c : Nat) => f32Of (decodeFloat .fp16 c)
  let m := (List.range b.nj).foldl (fun m j =>
    let d := flAbs (flAdd (word (qx.getD j 0)) (flNeg (word (qy.getD j 0))))
    let v := flMul d (vAt b.vinv j)
    if flLt m v then v else m) f0
  if f32IsInf m then inf32 else satCost (floorInt (f32Val m)).toNat

/-- key(n) of R362. -/
def keyOf (b : TrlBank) (t : Trellis) (n : Nat) : Nat × Nat :=
  let m := min (gOf t n) (rhsOf t n)
  (satCost (m + hDist b (t.start.getD 0) n + t.km), m)

/-- Order of keys. -/
def keyLt (a b : Nat × Nat) : Bool := a.1 < b.1 || (a.1 == b.1 && a.2 < b.2)

/-- Insert an entry by k1, k2, node. -/
def queueInsert (x : Nat × Nat × Nat) : List (Nat × Nat × Nat) → List (Nat × Nat × Nat)
  | [] => [x]
  | y :: q =>
    if keyLt (x.1, x.2.1) (y.1, y.2.1) || (x.1 == y.1 && x.2.1 == y.2.1 && x.2.2 ≤ y.2.2) then x :: y :: q
    else y :: queueInsert x q

/-- The queue without stale entries: one at most for each node (R365). -/
def compact (b : TrlBank) (t : Trellis) : Trellis :=
  { t with queue := (t.queue.filter fun x => gOf t x.2.2 ≠ rhsOf t x.2.2 ∧ keyOf b t x.2.2 = (x.1, x.2.1)).dedup }

/-- push; a full queue is compacted first, and the answer counts the compaction (R365). -/
def qPush (b : TrlBank) (t : Trellis) (n : Nat) : Trellis × Nat :=
  let full := 65536 ≤ t.queue.length
  let t := if full then compact b t else t
  let k := keyOf b t n
  ({ t with queue := queueInsert (k.1, k.2, n) t.queue }, ofBool full)

/-- Work of the search: state, cycles, compactions. -/
abbrev SearchWork := Trellis × Nat × Nat

/-- update_vertex (R362): 3 + OUTDEG cycles. -/
def updateVertex (b : TrlBank) (w : SearchWork) (n : Nat) : SearchWork :=
  let (t, cyc, cp) := w
  let nd := nodeAt b n
  let t := if n ∈ t.goals then t else
    let (r, sc) := (List.range nd.outdeg).foldl (fun (a : Nat × Option Nat) i =>
      let e := nd.efirst + i
      let v := satCost ((edgeAt b e).cost + gOf t (edgeAt b e).dst)
      if !blocked t e && v < a.1 then (v, some e) else a) (inf32, none)
    { t with rhs := tset t.rhs n r, succ := match sc with | some e => tset t.succ n e | none => tdel t.succ n }
  let cyc := cyc + 3 + nd.outdeg
  if gOf t n ≠ rhsOf t n then
    let (t, c) := qPush b t n
    (t, cyc + c * 65536, cp + c)
  else (t, cyc, cp)

/-- One expansion of R362: none where the search is DONE. -/
def searchStep (b : TrlBank) (t : Trellis) : Option SearchWork :=
  let start := t.start.getD 0
  let top := match t.queue with | (k1, k2, _) :: _ => (k1, k2) | [] => (inf32, inf32)
  if !keyLt top (keyOf b t start) ∧ rhsOf t start = gOf t start then none
  else match t.queue with
    | [] => none
    | (k1, k2, n) :: q =>
      let t := { t with queue := q }
      if gOf t n = rhsOf t n then some (t, 2, 0)
      else if keyLt (k1, k2) (keyOf b t n) then
        let (t, c) := qPush b t n
        some (t, 3 + c * 65536, c)
      else
        let nd := nodeAt b n
        let w := if rhsOf t n < gOf t n then ({ t with g := tset t.g n (rhsOf t n) }, 2, 0)
          else updateVertex b ({ t with g := tset t.g n inf32 }, 2, 0) n
        some (((b.ins.drop nd.infirst).take nd.indeg).foldl (fun w e => updateVertex b w (edgeAt b e).src) w)

/-- The search state reset to goals (R363): 256 cycles plus 1 per goal. -/
def searchReset (b : TrlBank) (t : Trellis) (goals : List Nat) : SearchWork :=
  let t := { t with g := [], rhs := [], succ := [], km := 0, queue := [], goals := goals, repair := [], repairDue := false }
  goals.foldl (fun w n =>
    let t := { w.1 with rhs := tset w.1.rhs n 0 }
    let (t, c) := qPush b t n
    (t, w.2.1 + 1 + c * 65536, w.2.2 + c)) (t, 256, 0)

/-- The repair of R364 where one is due: 256 cycles and the updates. -/
def runRepair (b : TrlBank) (t : Trellis) : SearchWork :=
  if t.repairDue then
    t.repair.foldl (fun w e => updateVertex b w (edgeAt b e).src) ({ t with repair := [], repairDue := false }, 256, 0)
  else (t, 0, 0)

/-- Work counted against the request in progress, which it keeps busy; the cycles of compactions count (R365, R370). -/
def chargeWork (s : State) (w : SearchWork) : State :=
  let (t, cyc, cp) := w
  let t := { t with busy := max t.busy s.cyc + cyc
                    req := t.req.map fun r => { r with cycles := r.cycles + cyc } }
  (s.setTrl t).count (TRL_CNT_VALUE 9) (cp * 65536)

/-- A repair that is due runs (R364). -/
def repairNow (s : State) : State :=
  match s.trl.bank with
  | some b => chargeWork s (runRepair b s.trl)
  | none => s

/-! ### Requests and plans (R366–R370) -/

def rqStart (r : List Byte) : Nat := bitsOf (leField r 0 8) 11 0
def rqKeep (r : List Byte) : Bool := bitOf (leField r 0 8) 12
def rqIrq (r : List Byte) : Bool := bitOf (leField r 0 8) 13
def rqId (r : List Byte) : Nat := leField r 2 2
def rqNgoal (r : List Byte) : Nat := bitsOf (leField r 0 8) 35 32
def rqGoals (r : List Byte) : List Nat := (List.range (rqNgoal r)).map fun i => bitsOf (leField r (8 + 2 * i) 2) 11 0
/-- A time of a request as nanoseconds, from its ns and low seconds. -/
def rqTime (r : List Byte) (w : Nat) : Nat := bitsOf (leField r (8 * w) 8) 29 0 + leField r (8 * w + 4) 4 * 1000000000
def rqRelease (r : List Byte) : Nat := rqTime r 3
def rqDeadline (r : List Byte) : Nat := rqTime r 4
def rqOut (r : List Byte) : Nat := bitsOf (leField r 40 8) 47 0

/-- Present time in the form of a request's times. -/
def trlNow (s : State) : Nat := s.nowNs % 1000000000 + (s.nowNs / 1000000000 % 2 ^ 32) * 1000000000

/-- TRL_MARGIN, at least 2,000 ns (R369). -/
def trlMargin (s : State) : Nat := max 2000 (s.get TRL_MARGIN_NS)

/-- OUT is usable: a multiple of 64 in an object of the COMMONS tier. -/
def outUsable (s : State) (a : Nat) : Bool :=
  a % 64 == 0 && match resolve s true 0 a 64 true with
    | .ok (_, e) => e.tier == 2
    | .error _ => false

/-- Fields of a request keep R366; nodes are held against the resident bank. -/
def requestOk (s : State) (r : List Byte) : Bool :=
  let w0 := leField r 0 8
  let nodesOk := match s.trl.bank with
    | some b => (rqStart r :: rqGoals r).all fun n => n < b.nodes.length
    | none => s.on TRL_CTRL_LOADING
  bitsOf w0 15 14 == 0 && bitsOf w0 63 36 == 0 && 1 ≤ rqNgoal r && rqNgoal r ≤ 8 &&
  (List.range 8).all (fun i => leField r (8 + 2 * i) 2 < 4096) &&
  bitsOf (leField r 24 8) 31 30 == 0 && bitsOf (leField r 32 8) 31 30 == 0 && bitsOf (leField r 40 8) 63 48 == 0 &&
  outUsable s (rqOut r) &&
  rqRelease r + trlMargin s ≤ rqDeadline r && nodesOk

/-- The plan record (R370). -/
def planRecord (s : State) (q : TrlReq) (result flags cost : Nat) (edges : List Nat) : List Byte :=
  let shown := edges.take 256
  let flags := flags + (if 256 < edges.length then 64 else 0)
  let (traj, bankId) := match s.trl.bank with
    | some b => (fun e => (edgeAt b e).traj, b.bankId)
    | none => (fun _ => 0, 0)
  padBytes 64 (leBytes 2 (rqId q.bytes) ++ leBytes 1 result ++ leBytes 1 flags ++ leBytes 2 shown.length ++
    leBytes 1 (min q.wcount 255) ++ leBytes 1 0 ++ leBytes 4 (s.get TRL_OGEN_VALUE) ++ leBytes 4 cost ++
    padBytes 16 s.trl.tov ++ leBytes 8 s.tnsTsec ++ leBytes 4 q.expand ++ leBytes 4 q.cycles ++ leBytes 8 bankId) ++
    shown.flatMap fun e => leBytes 8 (e % 65536 + traj e * 65536)

/-- A record is written: it ends the request (R367, R368). The write takes ceil((64 + 8N) ÷ 64) + 40 cycles. A repair that
the search did not come to runs, as nothing else does (R364). -/
def putPlan (s : State) (q : TrlReq) (result flags cost : Nat) (edges : List Nat) (prev : Option (Nat × List Nat)) :
    State :=
  let n := min 256 edges.length
  let wr := (64 + 8 * n + 63) / 64 + 40
  let q := { q with cycles := q.cycles + wr }
  let s := s.count (TRL_CNT_VALUE result) 1
  let s := onIf (bitOf flags 0) (fun s => s.count (TRL_CNT_VALUE 4) 1) s
  let s := onIf (bitOf flags 1) (fun s => s.count (TRL_CNT_VALUE 5) 1) s
  let s := onIf (result = 2) (·.setOn TRL_EVT_STOP) s
  let s := onIf (result = 3) (·.setOn TRL_EVT_REFUSED) s
  let record := planRecord s q result flags cost edges
  let s := (engineWrite s 5 0 (rqOut q.bytes) record).1
  let s := { s with ecs := { s.ecs with plan := record.take 16 } }
  let s := onIf (rqIrq q.bytes) (·.setOn TRL_EVT_DONE) s
  trlStat (repairNow { s with trl := { s.trl with req := none, prev := prev, outBusy := max s.trl.outBusy s.cyc + wr } })

/-- The occupancy is none, or older than MAXAGE (R368). -/
def staleOcc (s : State) : Bool :=
  let t := s.trl.tov
  s.get TRL_OGEN_VALUE == 0 ||
    leField t 0 6 * 1000000000 + leField t 8 4 % 2 ^ 30 + s.get TRL_MAXAGE_US * 1000 < s.nowNs

/-- Sum of COST over edges. -/
def costSum (b : TrlBank) (es : List Nat) : Nat := satCost (es.foldl (fun a e => a + (edgeAt b e).cost) 0)

/-- Nodes along a path from its start. -/
def pathNodes (b : TrlBank) (start : Nat) (es : List Nat) : List Nat := start :: es.map fun e => (edgeAt b e).dst

/-- STOP record of START's primitive (R368); while a bank loads, one that names no primitive (R371). With no bank resident
the request is refused (R367). -/
def stopOut (s : State) (q : TrlReq) (flags : Nat) : State :=
  if s.on TRL_CTRL_LOADING then putPlan s q 2 (flags ||| 4) 0 [] none
  else match s.trl.bank with
    | none => putPlan s q 3 0 0 [] s.trl.prev
    | some b =>
      let e := (nodeAt b (rqStart q.bytes)).stope
      putPlan s q 2 (flags ||| (if blocked s.trl e then 16 else 0)) (edgeAt b e).cost [e] none

/-- The fallback of R368. -/
def fallback (s : State) (q : TrlReq) (flags : Nat) : State :=
  if s.on TRL_CTRL_LOADING then stopOut s q (flags ||| 4)
  else if staleOcc s then stopOut s q (flags ||| 4)
  else match s.trl.bank, s.trl.prev with
    | some b, some (st, es) =>
      let nodes := pathNodes b st es
      let start := rqStart q.bytes
      if rqKeep q.bytes ∧ start ∈ nodes then
        let rest := es.drop (nodes.idxOf start)
        if rest.all fun e => !blocked s.trl e then putPlan s q 1 flags (costSum b rest) rest (some (start, rest))
        else stopOut s q flags
      else stopOut s q flags
    | _, _ => stopOut s q flags

/-- A recheck (R367): edges examined, and whether the path is clear. -/
def recheck (t : Trellis) (path : List Nat) : Nat × Bool :=
  let clear := path.takeWhile fun e => !blocked t e
  if clear.length = path.length then (path.length, true) else (clear.length + 1, false)

/-- The held path is rechecked; one that fails is withheld and the search resumes (R367). A recheck of the output stage,
`out`, belongs to its window (R361, R369). -/
def recheckHeld (s : State) (q : TrlReq) (out : Bool) : State × Bool :=
  let (k, ok) := recheck s.trl q.path
  let q := { q with cycles := q.cycles + 20 + 2 * k }
  let busy := max s.trl.busy s.cyc + 20 + 2 * k
  let s := if out then { s with trl := { s.trl with outBusy := max s.trl.outBusy s.cyc + 20 + 2 * k } } else s
  if ok then ({ s with trl := { s.trl with req := some q, busy := busy } }, true)
  else
    let q := { q with phase := 1, path := [], wcount := q.wcount + 1, flags := q.flags ||| 8 }
    ((({ s with trl := { s.trl with req := some q, busy := busy } }).count (TRL_CNT_VALUE 6) 1).setOn
      TRL_EVT_WITHHELD, false)

/-- The search state for an accepted request (R363): reset for a new goal set; KM grows for a new START. While no bank is
resident the load that is due resets it. The answer says whether the state was kept for a new START. -/
def searchPrep (s : State) (r : List Byte) : State × Bool :=
  let t := s.trl
  let start := rqStart r
  let goals := sortBy (fun a b => a ≤ b) (rqGoals r).dedup
  match t.bank with
  | none => (s.setTrl { t with goals := goals, start := some start }, false)
  | some b =>
    if goals = t.goals ∧ t.start.isSome then
      let old := t.start.getD 0
      let km := if old = start then t.km else satCost (t.km + hDist b old start)
      (s.setTrl { t with km := km, start := some start }, old ≠ start)
    else (chargeWork s (searchReset b { t with start := some start } goals), false)

/-- The search of a request that waited for a bank begins, once its nodes are held against it (R367, R371). -/
def searchBegin (s : State) : State :=
  match s.trl.req, s.trl.bank with
  | some q, some b =>
    if (rqStart q.bytes :: rqGoals q.bytes).all (fun n => n < b.nodes.length) then
      trlStat { s with trl := { s.trl with req := some { q with phase := 1 } } }
    else putPlan s q 3 0 0 [] s.trl.prev
  | _, _ => s

/-- TRL_REQUEST_ACCEPT (R366, R367): the request at CONS is accepted, refused, or answered at once when it is late. -/
def execTrlRequestAccept (s : State) : Host.Outcome State Fault Refusal :=
  finish s (
    let cons := s.get TRL_RQ_CONS_INDEX
    if !s.on TRL_CTRL_ENABLE ∨ s.on TRL_CTRL_CFGERR ∨ s.trl.req.isSome ∨ cons = s.get TRL_RQ_PROD_INDEX ∨
        s.cyc < s.trl.outBusy then s
    else
      let slots := ringSlots (s.get TRL_RQ_BASE_LOG2) 4 12
      let (s, r) := trlRead s (s.get TRL_RQ_BASE_ADDR * 64 + cons % slots * 64) 64
      let s := s.put TRL_RQ_CONS_INDEX (cons + 1)
      let q : TrlReq := { bytes := r, phase := 0, path := [], selgen := 0, flags := 0, wcount := 0, expand := 0, cycles := 0 }
      if !requestOk s r then
        if outUsable s (rqOut r) then putPlan s q 3 0 0 [] s.trl.prev
        else (s.count (TRL_CNT_VALUE 3) 1).setOn TRL_EVT_REFUSED
      else
        let s := { s with trl := { s.trl with req := some q } }
        if rqDeadline r < trlNow s + trlMargin s then (searchPrep (fallback s q 128) r).1
        else
          let (s, kept) := searchPrep s r
          let phase := if s.on TRL_CTRL_LOADING then 0 else 1
          trlStat { s with trl := { s.trl with req := s.trl.req.map fun q =>
            { q with phase := phase, flags := if kept then q.flags ||| 32 else q.flags } } })

/-- The path that follows SUCC from START to a goal. -/
def succPath (b : TrlBank) (t : Trellis) : Nat → Nat → List Nat
  | 0, _ => []
  | f + 1, n =>
    if n ∈ t.goals then [] else match tget t.succ n with
      | some e => e :: succPath b t f (edgeAt b e).dst
      | none => []

/-- DONE (R367): the path is held, or NO_PATH ends in the fallback. -/
def searchDone (s : State) (b : TrlBank) (q : TrlReq) : State :=
  let start := s.trl.start.getD 0
  if gOf s.trl start = inf32 then fallback s q (q.flags ||| 1)
  else
    let path := succPath b s.trl b.nodes.length start
    trlStat { s with trl := { s.trl with req := some { q with phase := 2, path := path, selgen := s.get TRL_OGEN_VALUE } } }

/-- SEARCH_EXPANSION (R362, R364): a repair that is due, then one expansion; DONE selects a path. A search stops at
DEADLINE − TRL_MARGIN (R367). -/
def execSearchExpansion (s : State) : Host.Outcome State Fault Refusal :=
  finish s (
    match s.trl.req, s.trl.bank with
    | some q, some b =>
      if q.phase ≠ 1 ∨ s.cyc < s.trl.busy ∨ s.on TRL_CTRL_LOADING ∨ rqDeadline q.bytes ≤ trlNow s + trlMargin s then s
      else
        let s := repairNow s
        match searchStep b s.trl with
        | none => searchDone s b (s.trl.req.getD q)
        | some w =>
          let s := (chargeWork s w).countWrap TRL_CNT_EXPAND_VALUE 1
          { s with trl := { s.trl with req := s.trl.req.map fun r => { r with expand := r.expand + 1 } } }
    | _, _ => s)

/-- The ingest's commit is due: a start of the output stage in the same cycle follows it (R361). -/
def commitDue (s : State) : Bool :=
  match s.trl.ingest with
  | some ig => ig.next.isSome && ig.todo == [] && ig.at_ + 16384 + 64 ≤ s.cyc && s.trl.outBusy ≤ s.cyc
  | none => false

/-- PLAN_OUTPUT (R361, R367): at the output instant, DEADLINE − TRL_MARGIN at the latest, the path is rechecked where the
generation moved, and the record is written. -/
def execPlanOutput (s : State) : Host.Outcome State Fault Refusal :=
  finish s (
    match s.trl.req, s.trl.bank with
    | some q, some _ =>
      if q.phase ≠ 2 ∨ s.cyc < s.trl.busy ∨ trlNow s < rqRelease q.bytes ∨ commitDue s ∨
          rqDeadline q.bytes < trlNow s + trlMargin s then s
      else
        let (s, ok) := if s.get TRL_OGEN_VALUE ≠ q.selgen then recheckHeld s q true else (s, true)
        if !ok then trlStat s
        else
          let q := s.trl.req.getD q
          if staleOcc s then stopOut s q (q.flags ||| 4)
          else putPlan s q 0 q.flags (gOf s.trl (rqStart q.bytes)) q.path (some (rqStart q.bytes, q.path))
    | _, _ => s)

/-- TRL_DEADLINE (R367, R371): a request still in progress at DEADLINE − TRL_MARGIN is answered by its fallback. -/
def execTrlDeadline (s : State) : Host.Outcome State Fault Refusal :=
  finish s (
    match s.trl.req with
    | none => s
    | some q =>
      if trlNow s + trlMargin s < rqDeadline q.bytes then s
      else if s.on TRL_CTRL_LOADING then stopOut s q (q.flags ||| 4)
      else fallback s q (q.flags ||| 2))

/-- OCC_COMMIT (R359, R361, R364): NEXT becomes CUR, BLK latches, OGEN increments; a held path is rechecked and the
repair becomes due. -/
def execOccCommit (s : State) : Host.Outcome State Fault Refusal :=
  finish s (
    match s.trl.ingest, s.trl.bank with
    | some ig, some b =>
      match ig.next, ig.todo with
      | some next, [] =>
        if !commitDue s then s
        else
          let t := s.trl
          let blk := maskOf b.edges.length fun e => 0 < tgetD t.hits e 0
          let changed := (List.range b.nsrch).filter fun e => blk.testBit e != blocked t e
          let loading := s.on TRL_CTRL_LOADING
          let s := { s with trl := { t with
              cur := next, blk := blk, tov := ig.tov, ingest := none
              repair := sortBy (fun a b => a ≤ b) (t.repair ++ changed).dedup, repairDue := true } }
          let s := ((s.put TRL_OGEN_VALUE (s.get TRL_OGEN_VALUE + 1)).setOn TRL_EVT_COMMIT).setOff TRL_CTRL_LOADING
          let s := match s.trl.req with
            | some q => if q.phase = 2 then repairNow (recheckHeld s q false).1 else if q.phase = 1 then s else repairNow s
            | none => repairNow s
          let s := if loading then searchBegin s else s
          ingestNewest (trlStat s)
      | _, _ => s
    | _, _ => s)

/-! ### Latches, loads and enables (R371, R373) -/

/-- HITS clear, BLK set, OGEN zero, CUR all free, search reset, newest grid again (R371). -/
def occRestart (s : State) : State :=
  match s.trl.bank with
  | none => s
  | some b =>
    let t := { s.trl with hits := [], blk := 2 ^ b.edges.length - 1, cur := [], ingest := none, ingested := 0 }
    let (t, _, cp) := searchReset b t t.goals
    let s := (({ s with trl := t }).count (TRL_CNT_VALUE 9) (cp * 65536)).put TRL_OGEN_VALUE 0
    trlStat (ingestNewest s)

/-- Solver-free cycles of a bank load: tables, then runs, at 64 bytes per cycle, runs checked sixteen a cycle. -/
def loadCycles (h : List Byte) : Nat :=
  ceilDiv (64 * leField h 0 2 + 2 * leField h 10 2 + 64 * leField h 2 2) 64 + ceilDiv (4 * leField h 4 4) 64 +
    ceilDiv (leField h 4 4) 16

/-- The pending group latches (R371): a changed bank loads. -/
def trlLatchNow (s : State) : State :=
  if !s.isPending 3 then s else
  let old := s.get TRL_BANK_SEL
  let s := (s.latch 3).setOn TRL_CTRL_LOADING
  let sel := s.get TRL_BANK_SEL
  if s.trl.bank.isSome ∧ sel = old ∧ s.trl.load.isNone then occRestart s
  else
    let (s, h) := trlRead s (s.get (TRL_BANK_BASE_ADDR sel) * 65536) 4096
    let t := { s.trl with bank := none, load := some (sel, s.cyc + loadCycles h), ingest := none }
    trlStat ((s.setTrl t).put TRL_OGEN_VALUE 0)

/-- TRL_LATCH (R371): the first cycle in which no request is in progress. -/
def execTrlLatch (s : State) : Host.Outcome State Fault Refusal :=
  finish s (if s.trl.req.isSome then s else trlLatchNow s)

/-- TRL_BANK_LOADED (R357, R371): the bank is accepted, or refused; a request that waited for a refused one is refused, no
bank being resident (R367). -/
def execTrlBankLoaded (s : State) : Host.Outcome State Fault Refusal :=
  finish s (
    match s.trl.load with
    | none => s
    | some (sel, fin) =>
      if s.cyc < fin then s
      else
        let base := s.get (TRL_BANK_BASE_ADDR sel) * 65536
        let (s, h) := trlRead s base 4096
        let (s, nodes) := trlRead s (base + 0x1000) (64 * leField h 0 2)
        let (s, ins) := trlRead s (base + 0x41000) (2 * leField h 10 2)
        let (s, edges) := trlRead s (base + 0x49000) (64 * leField h 2 2)
        let (s, runs) := trlRead s (base + 0x149000) (4 * leField h 4 4)
        let b := parseBank h nodes ins edges runs
        let s := s.setTrl { s.trl with load := none }
        if bankOk h b then
          let t := { s.trl with bank := some b, prev := none }
          occRestart (((s.setTrl t).put TRL_STAT_BANK sel).setOff TRL_CTRL_BADBANK)
        else
          let s := ((s.setOn TRL_CTRL_BADBANK).setOn TRL_EVT_BADBANK).setOff TRL_CTRL_LOADING
          match s.trl.req with
          | some q => putPlan s q 3 0 0 [] s.trl.prev
          | none => trlStat s)

/-- A write of TRL_COMMIT: with Trellis off the group latches at once (R22). -/
def trlCommitWritten (s : State) : State :=
  let s := s.snapshot 3
  if s.on TRL_CTRL_ENABLE then s else trlLatchNow s

/-- A write of TRL_CTRL_ENABLE (R363, R366, R373). -/
def trlEnableWritten (old new : Nat) (s : State) : State :=
  if old = 0 ∧ new = 1 then
    let ok := inOneObject s 0 (s.get TRL_RQ_BASE_ADDR * 64) (ringSlots (s.get TRL_RQ_BASE_LOG2) 4 12 * 64)
    let s := s.put TRL_CTRL_CFGERR (ofBool !ok)
    let s := match s.trl.bank with
      | some b => chargeWork s (searchReset b s.trl s.trl.goals)
      | none => s
    trlStat (ingestNewest s)
  else if old = 1 ∧ new = 0 then
    let s := match s.trl.req with
      | some q => fallback s q (q.flags ||| 2)
      | none => s
    trlStat (trlLatchNow s)
  else s

/-- OUTPUT_INSTANT (R310, R319, R321, R323, R359): the grid of the instant is published, which Trellis may ingest;
held extrinsic entries and pending tables latch. -/
def execOutputInstant (s : State) : Host.Outcome State Fault Refusal :=
  finish s (
    if !s.on FUS_CTRL_ENABLE ∨ s.accNs < s.fus.nextO then s
    else
      let o := s.fus.nextO
      let s := ingestNewest (gridPublish s)
      let s := calibLatch s
      let f := s.fus
      let s := { s with fus := { f with k := f.k + 1, slotDone := false } }
      let s := { s with fus := { s.fus with nextO := nextInstant s o } }
      fusLatch s o)

end Sys2Proof.Machine
end

