-- ==== Sys2Proof/Machine/Hooks.lean ====
section
/-! DEFINITION. What a register write sets off beside the values it stores: enables, COMMIT, WO actions, W1C bits with
an effect, counter clears. Each row gives a register array's base and its action on the indices, the value before the
write and the value written. -/

namespace Sys2Proof.Machine

open Sys2Proof Sys2Proof.Machine.Reg

/-! ### Counter clears -/

/-- Registers set to zero. -/
def State.zero (s : State) (as_ : List Nat) : State := as_.foldl (fun s a => s.wr a 0#64) s

/-- Every element of an array of `n`. -/
def each (n : Nat) (f : Nat → Nat) : List Nat := (List.range n).map f

/-- Counters of tensor core `n` read 0: the cycles of the present step and of the stalls in progress start over
(R85, R113). -/
def clearTc (n : Nat) (s : State) : State :=
  let s := s.zero [TC_CNT_CYC n, TC_CNT_TAIL n, TC_CNT_HEAD n, TC_CNT_SHADOW n, TC_CNT_BUDGET n, TC_CNT_KILL n,
    TC_CNT_FAULT n]
  let less := fun (f : Fld) cause (s : State) => s.put f (2 ^ 64 - stallsNow s n cause)
  let s := less (TC_CNT_TAIL_VALUE n) 1 (less (TC_CNT_HEAD_VALUE n) 2 (less (TC_CNT_SHADOW_VALUE n) 3 s))
  let c := coreOf s n
  if c.job.isSome then s.setCore n { c with since := coreCyc s c } else s

/-- The counters that each CNT_CLR clears (R113, R213, R255, R290, R324, R325, R350, R372, R411, R440, R441, R475, R493,
R540, R557), by the base of the register, except TCn and Ethernet, whose registers are arrays. -/
def clearRows : List (Nat × List Nat) :=
  [ (MEM_TMV_CNT_CLR, [MEM_TMV_CNT_TILES, MEM_TMV_CNT_MIGTILES, MEM_TMV_CNT_WAITCOPY, MEM_PLT_CNT_UNCREAD,
      MEM_PLT_CNT_CANCEL, MEM_PLT_CNT_DEFER, MEM_PLT_CNT_REFUSED, MEM_PLT_CNT_LKMISS]),
    (SCH_CNT_CLR, [SCH_CNT_PREEMPT, SCH_CNT_SPILLT, SCH_CNT_RESTART, SCH_CNT_STALE, SCH_CNT_TEARDOWN, SCH_CNT_TTERR,
      SCH_CNT_REFSTALL, SCH_CNT_MAINTSTALL] ++
      each 64 SCH_CTX_CNT_STEPS ++ each 64 SCH_CTX_CNT_PREEMPT ++ each 64 SCH_CTX_CNT_LOST),
    (SNS_CNT_CLR, [SNS_CNT_CRC, SNS_CNT_ECC, SNS_CNT_NOMATCH] ++ each 64 SNS_CH_CNT_DROP ++ each 64 SNS_CH_CNT_ERR),
    (FUS_CNT_CLR, each 8 FUS_CNT),
    (SLV_CNT_CLR, [SLV_CNT_BATCH, SLV_CNT_PROB, SLV_CNT_REG, SLV_CNT_OVF, SLV_CNT_WREJ, SLV_CNT_INVALID,
      SLV_CNT_EGOBUSY, SLV_CNT_STALL]),
    (TRL_CNT_CLR, each 11 TRL_CNT ++ [TRL_CNT_BCAST, TRL_CNT_CONFSTALL, TRL_CNT_EXPAND]),
    (BLV_CLE_CNT_CLR, [BLV_CLE_CNT_PLAUS, BLV_CLE_CNT_NANS, BLV_CLE_CNT_RPTERR]),
    (RFX_CNT_CLR, [RFX_CNT_EVAL, RFX_CNT_ABSENT, RFX_CNT_BUSY, RFX_CNT_ECC, RFX_CNT_DUALMIS]),
    (SLC_CNT_CLR, [SLC_CNT_SWAP, SLC_CNT_LATE, SLC_CNT_REJECT, SLC_CNT_STALE]),
    (FLD_ECS_CNT_CLR, each 8 FLD_ECS_CNT),
    (FLD_PCI_CNT_CLR, each 3 FLD_PCI_CNT),
    (CWY_CNT_CLR, [CWY_CNT_STEPLATE, CWY_CNT_TTERR] ++ each 4 CWY_L_CNT_CRC ++ each 4 CWY_L_CNT_REPLAY ++
      each 4 CWY_L_CNT_RETRAIN ++ each 4 CWY_L_CNT_REISSUE ++ each 4 CWY_L_CNT_REPLAYT),
    (PWR_CNT_CLR, [PWR_CNT_HOLD, PWR_CNT_THROT, PWR_CNT_DORM]),
    (DGN_CNT_CLR, [DGN_CNT_MERGE, DGN_VIO_TOTAL, DGN_VIO_LAST, DGN_TEL_CNT_DROP] ++ each 7 DGN_VIO_CNT ++
      each 4 DGN_PERT_CNT) ]

/-- Counters of the time block, and every MISSED count (R290). -/
def clearTim (s : State) : State :=
  forUpTo 32 (fun c s => s.put (TIM_CMP_STAT_MISSED c) 0)
    (s.zero [TIM_CNT_STEP, TIM_CNT_SAMPLE, TIM_CNT_REJECT, TIM_CNT_CLAMP])

/-! ### Actions -/

/-- A write of TIM_CMP_c_CTL (R22, R286): COMMIT is judged by ENABLE before the write, then ENABLE takes its value. -/
def cmpCtlWritten (c old new : Nat) (s : State) : State :=
  let s := s.put (TIM_CMP_CTL_ENABLE c) (old % 2)
  let s := onIf (new.testBit 1) (cmpCommitWritten c) s
  cmpEnableWritten c (old % 2) (new % 2) (s.put (TIM_CMP_CTL_ENABLE c) (new % 2))

/-- A write of SCH_CTX_n_CTL (R229, R254): FAULTED is cleared by a 1, then ENABLE acts. -/
def ctxCtlWritten (n old new : Nat) (s : State) : State :=
  let s := onIf (old.testBit 1 && new.testBit 1) (fun s => ctxFaultCleared n (s.put (SCH_CTX_CTL_FAULTED n) 1)) s
  ctxEnableWritten n (old % 2) (new % 2) s

/-- Generators of the units whose enable rises load their SEED, 0 as 1 (R554). -/
def pertEnabled (old new : Nat) (s : State) : State :=
  let seed := fun (i : Nat) => max 1 (bitsOf (s.rd (DGN_PERT_XING + 8 * i)).toNat 63 32)
  { s with lfsr := (List.range 4).map fun i => if !old.testBit i && new.testBit i then seed i else s.lfsr.getD i 1
           burst := if new.testBit 3 then s.burst else [] }

/-- A write of FLD_ETH_p_CTL_ENABLE: a frame being sent is forgotten with the port. -/
def ethEnableWritten (p old new : Nat) (s : State) : State :=
  if old = 1 ∧ new = 0 then { s with eths := tdel s.eths p } else s

/-- The SubDevice enters INIT: the request waiting in SM0 is discarded (R445, R548). -/
def ecsToInit (s : State) : State :=
  { s with ecs := { s.ecs with inFull := false, outFull := false, seg := none, held := false, fresh := false, late := none
                               capDue := none } }

/-- A write of FLD_ECS_CTRL_ENABLE (R445): while it is 0 the SubDevice stays in INIT. -/
def ecsEnableWritten (old new : Nat) (s : State) : State :=
  if old = 1 ∧ new = 0 ∧ s.get FLD_ECS_STAT_ALSTAT ≠ 1 then
    ecsToInit ((s.put FLD_ECS_STAT_ALSTAT 1).setOn FLD_ECS_EVT_STATECHG)
  else s

/-- The actions of register writes, by the base of the register array. -/
def hookRows : List (Nat × (List Nat → Nat → Nat → State → State)) :=
  let i := fun (is : List Nat) => is.headD 0
  [ (TC_CTRL 0, fun is o w => tcEnableWritten (i is) (o % 2) (w % 2)),
    (TC_CNT_CLR 0, fun is _ w => onIf (w.testBit 0) (clearTc (i is))),
    (MEM_PLT_CTRL, fun _ o w => pltEnableWritten (o % 2) (w % 2)),
    (SCH_CTRL, fun _ o w => schEnableWritten (o % 2) (w % 2)),
    (SCH_TT_COMMIT, fun _ _ w => onIf (w.testBit 0) ttCommitWritten),
    (SCH_CTX_CTL 0, fun is o w => ctxCtlWritten (i is) o w),
    (SCH_KVP_CTL 0, fun is o w => kvpEnableWritten (i is) (o % 2) (w % 2)),
    (SCH_KVP_ADMIT 0, fun is _ w => kvpAdmitWritten (i is) (bitsOf w 47 6 * 64)),
    (SCH_KVP_RETIRE 0, fun is _ w => kvpRetireWritten (i is) (bitsOf w 47 6 * 64)),
    (TIM_CTRL, fun _ o w => servoEnableWritten (o % 2) (w % 2)),
    (TIM_STEP_CTL, fun _ _ w => onIf (w.testBit 0) stepGo),
    (TIM_SRC_FWOFS, fun _ _ w => fwSample (bitsOf w 50 48) (bitsOf w 47 0)),
    (TIM_SRV_COMMIT, fun _ _ w => onIf (w.testBit 0) srvCommitWritten),
    (TIM_CNT_CLR, fun _ _ w => onIf (w.testBit 0) clearTim),
    (TIM_CMP_CTL 0, fun is o w => cmpCtlWritten (i is) o w),
    (SNS_CH_PROD 0, fun is o w => prodWritten (i is) (bitsOf o 15 0) (bitsOf w 15 0)),
    (FUS_CTRL, fun _ o w => fusEnableWritten (o % 2) (w % 2)),
    (FUS_COMMIT, fun _ _ w => onIf (w.testBit 0) fusCommitWritten),
    (SLV_CTRL, fun _ o w => slvEnableWritten (o % 2) (w % 2)),
    (TRL_CTRL, fun _ o w => trlEnableWritten (o % 2) (w % 2)),
    (TRL_COMMIT, fun _ _ w => onIf (w.testBit 0) trlCommitWritten),
    (BLV_ICU_SWI, fun _ _ w => icuSwi (bitsOf w 9 0)),
    (BLV_ICU_T_COMPLETE 0, fun is _ w => icuComplete (i is) (bitsOf w 9 0)),
    (BLV_ICU_T_RESET 0, fun is _ w => icuReset (i is) (w.testBit 0)),
    (BLV_CLE_L_CTL 0, fun is o w => loopEnableWritten (i is) (o % 2) (w % 2)),
    (BLV_CLE_L_STAT 0, fun is o w => onIf (o.testBit 0 && w.testBit 0) (plausCleared (i is))),
    (RFX_CTRL, fun _ o w => rfxEnableWritten (o % 2) (w % 2)),
    (RFX_COMMIT, fun _ _ w => onIf (w.testBit 0) rfxCommitWritten),
    (SLC_CTRL, fun _ o w => slcEnableWritten (o % 2) (w % 2)),
    (SLC_L_ARM 0, fun is _ w => hartArmWritten (i is) (w.testBit 0)),
    (BLV_HART_CTL 0, fun is o w => hartRunWritten (i is) (o % 2) (w % 2)),
    (BLV_HART_KICK 0, fun is _ w => watchdogKick (i is) (w.testBit 0)),
    (FLD_ECS_CTRL, fun _ o w => ecsEnableWritten (o % 2) (w % 2)),
    (FLD_ECM_CTL 0, fun is o w => ecmEnableWritten (i is) (o % 2) (w % 2)),
    (FLD_ECM_STAT 0, fun is o w => onIf (o.testBit 1 && w.testBit 1) (substCleared (i is))),
    (FLD_ECM_ACYC 0, fun is _ w => onIf (w.testBit 16) (acyclicGo (i is))),
    (FLD_ECM_CNT_CLR 0, fun is _ w => onIf (w.testBit 0) fun s =>
      s.zero (FLD_ECM_CNT_CYCLE (i is) :: each 6 (FLD_ECM_CNT (i is)))),
    (FLD_ETH_CTL 0, fun is o w => ethEnableWritten (i is) (o % 2) (w % 2)),
    (FLD_ETH_CNT_CLR 0, fun is _ w => onIf (w.testBit 0) (·.zero (each 3 (FLD_ETH_CNT (i is))))),
    (CWY_CTRL, fun _ o w => cwyEnableWritten (o % 2) (w % 2)),
    (SEC_CMD, fun _ _ w => secStart w),
    (PWR_CTRL, fun _ _ w => onIf (w.testBit 0) dormRequested),
    (PWR_CAP, fun _ _ _ => effCap),
    (DGN_EPOCH_BUMP, fun _ _ w => onIf (w.testBit 0) (·.epochEvent 6)),
    (DGN_TEL_CTL, fun _ o w => telEnableWritten (o % 2) (w % 2)),
    (DGN_PERT_CTL, fun _ o w => pertEnabled o w) ] ++
  clearRows.map fun r => (r.1, fun _ _ w => onIf (w.testBit 0) (·.zero r.2))

/-- What a write of a register has set off. -/
def afterWrite (base : Nat) (is : List Nat) (old new : Nat) (s : State) : State :=
  match hookRows.find? fun r => r.1 = base with
  | some (_, f) => f is old new s
  | none => s

/-- The CNT_CLR registers. -/
def clearBases : List Nat := [TC_CNT_CLR 0, TIM_CNT_CLR, FLD_ECM_CNT_CLR 0, FLD_ETH_CNT_CLR 0] ++ clearRows.map (·.1)

end Sys2Proof.Machine
end

