-- ==== Sys2Proof/Machine/Registers.lean ====
section
/-! DEFINITION. Register accesses: which register an address names, the causes of a violation, halves, field classes and
their effects (R7–R26, R32, R40, R218, R378, R379, R391, R405, R434, R517, R543, R553), and the commands that are writes
of one register. -/

namespace Sys2Proof.Machine

open Sys2Proof Sys2Proof.Machine.Reg

/-! ### Which register -/

/-- A register as an access meets it: the base address of its whole, its descriptor and indices, and whether the access
names its upper half. -/
structure RegHit where
  base : Nat
  desc : RegDesc
  idx : List Nat
  upper : Bool
  deriving DecidableEq, Repr

/-- The Boardwalk address of an access: a control hart also reaches the BLV block in its private map, and only there the
HRC sub-block (R377, R378). -/
def busAddr (who : Initiator) (a : Nat) : Option Nat :=
  let private_ := 0x80000000 ≤ a ∧ a < 0x81000000
  match who with
  | .ctl _ =>
    if private_ then some (a - 0x80000000 + 0x100008000000)
    else if 0x100008600000 ≤ a ∧ a < 0x100008700000 then none else some a
  | _ => if 0x100008600000 ≤ a ∧ a < 0x100008700000 then none else some a

/-- The TCn window of an absent core is reserved (R32). -/
def absentCore (s : State) (a : Nat) : Bool :=
  0x100001000000 ≤ a && a < 0x100002000000 &&
    !(s.fuses.phys.testBit ((a - 0x100001000000) / 0x100000) && (a - 0x100001000000) / 0x100000 < 8)

/-- The register that an access names; none where the address is reserved (R24, R40). -/
def regHit (s : State) (who : Initiator) (a : Nat) : Option RegHit :=
  match busAddr who a with
  | none => none
  | some b =>
    if absentCore s b then none
    else match regAt (b / 4 * 4) with
      | some (d, is, up) => some { base := b / 4 * 4 - (if up then 4 else 0), desc := d, idx := is, upper := up }
      | none => none

/-! ### Causes that an access meets by its address (R543) -/

/-- Width and alignment are allowed (R8). -/
def formOk (h : RegHit) (a size : Nat) : Bool :=
  (size == 4 || (size == 8 && h.desc.width == 64)) && a % size == 0

/-- Number of the target window that a BLV register belongs to, with its offset there. -/
def targetWindow (base : Nat) : Option (Nat × Nat) :=
  if BLV_ICU_T_THR 0 ≤ base ∧ base < BLV_ICU_T_THR 12 then
    some ((base - BLV_ICU_T_THR 0) / 0x40, (base - BLV_ICU_T_THR 0) % 0x40)
  else none

/-- The interrupt target of an initiator's hart (R385). -/
def hartTarget : Initiator → Option Nat
  | .ctl h => some h
  | .app h => some (4 + h)
  | .pcie => none

/-- The initiator may reach the register: its context's (R24, R218, R379), or a target window by R391. -/
def contextOk (s : State) (who : Initiator) (h : RegHit) (write : Bool) : Bool :=
  let ctx := ctxOf s who
  let block := h.base / 0x1000000 * 0x1000000
  match targetWindow h.base with
  | some (t, ofs) =>
    hartTarget who == some t || (ofs != 4 && ofs != 8 && (ctx == 0 || (match who with | .ctl _ => true | _ => false)))
  | none =>
    if block = 0x100003000000 then
      ctx == 0 ||
        (SCH_CTX_CTL ctx ≤ h.base && h.base < SCH_CTX_CTL ctx + 0x100 &&
          (!write || h.base == SCH_CTX_SPROD ctx || h.base == SCH_CTX_RCONS ctx))
    else if 0x100006000000 ≤ block ∧ block ≤ 0x10000F000000 then ctx == 0
    else true

/-- A DGN perturbation register (R553). -/
def isPert (base : Nat) : Bool := DGN_PERT_CTL ≤ base && base < DGN_PERT_CNT 4

/-- A fused window, or the perturbation rule, closes the access (R517, R553). -/
def protectOk (s : State) (who : Initiator) (h : RegHit) (write : Bool) : Bool :=
  (match protBit who with
   | some b => !protClosed s b h.base write
   | none => true) && !(write && isPert h.base && !pertOk s)

/-- Causes met by address, form and initiator, lowest first. -/
def accessCauses (s : State) (who : Initiator) (h : RegHit) (a size : Nat) (write : Bool) : List Nat :=
  (if formOk h a size then [] else [1]) ++ (if contextOk s who h write then [] else [5]) ++
    (if protectOk s who h write then [] else [6])

/-! ### Fields -/

/-- Bits of the fields of some kinds. -/
def kindMask (d : RegDesc) (p : FieldKind → Bool) : Nat :=
  d.fields.foldl (fun m f => if p f.kind then m ||| ((2 ^ (f.hi + 1) - 1) - (2 ^ f.lo - 1)) else m) 0

/-- Bits that no field covers (R12). -/
def reservedBits (d : RegDesc) (v : Nat) : Nat := v &&& (2 ^ 64 - 1 - kindMask d fun _ => true)

/-- The block's ENABLE that the register's Static fields obey reads 1 (R15). -/
def staticLocked (s : State) (h : RegHit) : Bool :=
  match h.desc.enable with
  | some (a, stride, bit) => (s.rd (a + h.idx.headD 0 * stride)).toNat.testBit bit
  | none => false

/-- A write gives a Static field another value while its block is enabled (R15, R16). -/
def staticBroken (s : State) (h : RegHit) (v : Nat) : Bool :=
  staticLocked s h && (v &&& kindMask h.desc (· == .static)) != ((s.rd h.base).toNat &&& kindMask h.desc (· == .static))

/-- The loop and bank of a coefficient word. -/
def bankWordAt (base : Nat) : Option (Nat × Nat) :=
  if BLV_CLE_L_CTL 0 ≤ base ∧ base < BLV_CLE_L_CTL 64 ∧ 0x40 ≤ (base - BLV_CLE_L_CTL 0) % 0x100 ∧
      (base - BLV_CLE_L_CTL 0) % 0x100 < 0xC0 then
    some ((base - BLV_CLE_L_CTL 0) / 0x100, ((base - BLV_CLE_L_CTL 0) % 0x100 - 0x40) / 0x40)
  else none

/-- The register takes no write at present: all its fields are RO (R13), an active bank word (R405), an inactive one
of a lane that fills, checks or is armed (R434), or PROD of a channel that the device owns (R324). -/
def allRo (s : State) (h : RegHit) : Bool :=
  h.desc.fields.all (fun f => f.kind == .ro) ||
    (match bankWordAt h.base with
     | some (n, b) =>
       if b = loopBank s n then s.on (BLV_CLE_L_CTL_ENABLE n) || (loopOf s n).run else laneBusy s (loopGroup s n)
     | none => h.desc.base == SNS_CH_PROD 0 && !ownsProd s (h.idx.headD 0))

/-- Causes met by the value written. -/
def valueCauses (s : State) (h : RegHit) (v : Nat) : List Nat :=
  (if reservedBits h.desc v = 0 then [] else [2]) ++ (if allRo s h then [3] else []) ++
    (if staticBroken s h v then [4] else [])

/-! ### Writes -/

/-- The lowest cause, counted; `ctx` and `init` of the initiator. -/
def regViolation (s : State) (who : Initiator) (a : Nat) (write : Bool) (cs : List Nat) : State :=
  match cs with
  | [] => s
  | c :: rest => s.violation (rest.foldl min c) (initCode who) (ctxOf s who) a write

/-- Bits of `v` where `m` is set, of `old` elsewhere. -/
def mergeBits (m old v : Nat) : Nat := (old &&& (2 ^ 64 - 1 - m)) ||| (v &&& m)

/-- FLD_ETH_p_CTL_ALLRX reads 0 on ports 0 to 3 (R475). -/
def fixedBits (base v : Nat) : Nat :=
  if FLD_ETH_CTL 0 ≤ base ∧ base < FLD_ETH_CTL 4 ∧ (base - FLD_ETH_CTL 0) % 0x100 = 0 then withBits v 1 1 0 else v

/-- A write that the register accepts: Live and Static fields take their values, Shadowed ones go to the held copy,
W1C bits clear but for those that the device has set in this cycle (R11), and the write's actions follow (R10–R17,
R23). -/
def storeWrite (s : State) (h : RegHit) (v : Nat) : State :=
  let d := h.desc
  let v := mergeBits (kindMask d (· == .w1c) &&& s.freshBits h.base) v 0
  let old := (s.rd h.base).toNat
  let lock := staticLocked s h
  let set := kindMask d fun k => k == .live || (k == .static && !lock)
  let clr := kindMask d (· == .w1c) &&& v
  let sh := kindMask d (· == .shadowed)
  let new := fixedBits h.base (mergeBits set old v &&& (2 ^ 64 - 1 - clr))
  let s := if sh = 0 then s else s.heldWr h.base (BitVec.ofNat 64 (mergeBits sh (s.heldRd h.base).toNat v))
  afterWrite d.base h.idx old v (s.wr h.base (BitVec.ofNat 64 new))

/-- A violation ignores the write whole: its lowest cause is not STATIC, of which only the Static fields are ignored
(R25, R543). -/
def ignoredWhole (cs : List Nat) : Bool :=
  match cs with
  | [] => false
  | c :: rest => rest.foldl min c != 4

/-- A write of a whole register has come together: its value is judged, and it takes effect or is ignored (R25). -/
def writeWhole (s : State) (who : Initiator) (h : RegHit) (a v : Nat) (cs : List Nat) : State :=
  let cs := cs ++ valueCauses s h v
  let s := regViolation s who a true cs
  if ignoredWhole cs then s else storeWrite s h v

/-- The lower half as an upper-half write leaves it where none is held (R9): RW fields as they stand, W1C and WO zero. A
Shadowed field stands as its held copy, which is what a write of it changes (DESIGN CHOICE, log entry 63). -/
def restingLower (s : State) (h : RegHit) : Nat :=
  (((s.rd h.base).toNat &&& kindMask h.desc fun k => k == .live || k == .static) |||
    ((s.heldRd h.base).toNat &&& kindMask h.desc (· == .shadowed))) % 2 ^ 32

/-- The held lower half of an initiator. -/
def heldHalf (s : State) (who : Initiator) : Option Half := s.holds.find? fun x => x.who == who

/-- It is gone. -/
def dropHold (s : State) (who : Initiator) : State := { s with holds := s.holds.filter fun x => x.who != who }

/-- A register write of `size` bytes (R8–R25). A 64-bit write that is ignored whole leaves the initiator's hold, and a
lower-half write to a register that takes no write is a violation at once and is not held (DESIGN CHOICE, log entry
63). -/
def regWrite (s : State) (who : Initiator) (a size v : Nat) : State :=
  match regHit s who a with
  | none => regViolation s who a true [0]
  | some h =>
    let cs := accessCauses s who h a size true
    if h.desc.width = 32 ∨ !formOk h a size then writeWhole s who h a (v % 2 ^ 32) cs
    else if size = 8 then
      let v := v % 2 ^ 64
      writeWhole (if ignoredWhole (cs ++ valueCauses s h v) then s else dropHold s who) who h a v cs
    else if !h.upper then
      let cs := cs ++ (if allRo s h then [3] else [])
      if cs.isEmpty then
        { dropHold s who with holds := { who := who, addr := h.base, val := BitVec.ofNat 32 v } :: (dropHold s who).holds }
      else regViolation s who a true cs
    else
      let (low, s) := match heldHalf s who with
        | some x => if x.addr = h.base ∧ cs.isEmpty then (x.val.toNat, dropHold s who) else (restingLower s h, s)
        | none => (restingLower s h, s)
      writeWhole s who h a (v % 2 ^ 32 * 2 ^ 32 + low) cs

/-! ### Reads -/

/-- The register whose value a read of another captures (R271, R394). -/
def pairHigh (h : RegHit) : Option Nat :=
  if h.desc.base = TIM_NOW_LO then some TIM_NOW_HI
  else if h.desc.base = TIM_CMP_NEXT_LO 0 then some (TIM_CMP_NEXT_HI (h.idx.headD 0))
  else if h.desc.base = BLV_TIO_TSLO 0 then some (BLV_TIO_TSHI (h.idx.headD 0))
  else none

/-- A capture of an initiator. -/
def capOf (s : State) (who : Initiator) (key : Nat) : Option Word32 :=
  (s.caps.find? fun x => x.who == who && x.addr == key).map (·.val)

/-- Capture a value. -/
def setCap (s : State) (who : Initiator) (key v : Nat) : State :=
  { s with caps := { who := who, addr := key, val := BitVec.ofNat 32 v } ::
      s.caps.filter fun x => !(x.who == who && x.addr == key) }

/-- The value of a whole register as an initiator reads it: WO fields read zero (R10), a captured pair stands (R271), the
perturbation registers read zero while not permitted (R553). -/
def readValue (s : State) (who : Initiator) (h : RegHit) : Nat :=
  if isPert h.base && !pertOk s then 0
  else
    let v := (s.view h.base).toNat &&& kindMask h.desc fun k => k != .wo
    match capOf s who (h.base + 1), capOf s who (h.base + 2) with
    | some lo, some hi => hi.toNat * 2 ^ 32 + lo.toNat
    | _, _ => v

/-- What a read sets off: captures, a claim (R387), a capture seen (R394). -/
def afterRead (s : State) (who : Initiator) (h : RegHit) : State :=
  let s := match pairHigh h with
    | some b => let v := (s.view b).toNat; setCap (setCap s who (b + 1) (v % 2 ^ 32)) who (b + 2) (v / 2 ^ 32)
    | none => s
  if h.desc.base = BLV_TIO_TSLO 0 then { s with tioUnread := withBits s.tioUnread (h.idx.headD 0) (h.idx.headD 0) 0 }
  else s

/-- A register read of `size` bytes: the state after it, and the value (R8, R9, R25). -/
def regRead (s : State) (who : Initiator) (a size : Nat) : State × Nat :=
  match regHit s who a with
  | none => (regViolation s who a false [0], 0)
  | some h =>
    let cs := accessCauses s who h a size false
    if !cs.isEmpty then (regViolation s who a false cs, 0)
    else if h.desc.base = BLV_ICU_T_CLAIM 0 then icuClaim s (h.idx.headD 0)
    else
      let v := readValue s who h
      if h.upper then
        (s, match capOf s who (h.base + 4) with | some c => c.toNat | none => v / 2 ^ 32)
      else
        let s := afterRead s who h
        if size = 4 ∧ h.desc.width = 64 then (setCap s who (h.base + 4) (v / 2 ^ 32), v % 2 ^ 32)
        else (s, v)

/-- A read answered on the bus. -/
def readOnBus (s : State) (who : Initiator) (a size : Nat) : State :=
  let (s, v) := regRead s who a size
  s.answer (.value (BitVec.ofNat 64 v))

/-- The width of the register at an address; 32 where there is none. -/
def regWidth (a : Nat) : Nat := ((regAt a).map fun x => x.1.width).getD 32

/-- A write of a whole register of its own width. -/
def writeReg (s : State) (who : Initiator) (a : Nat) (v : Nat) : State := regWrite s who a (regWidth a / 8) v

/-! ### Commands that are accesses -/

/-- REGISTER_WRITE. -/
def execRegisterWrite (who : Initiator) (addr size : Nat) (val : Word64) (s : State) :
    Host.Outcome State Fault Refusal := finish s (regWrite s who addr size val.toNat)

/-- REGISTER_WRITE_LOWER_HALF (R9). -/
def execRegisterWriteLowerHalf (who : Initiator) (addr : Nat) (val : Word32) (s : State) :
    Host.Outcome State Fault Refusal := finish s (regWrite s who addr 4 val.toNat)

/-- REGISTER_READ_LOWER_HALF (R9): captures the upper half. -/
def execRegisterReadLowerHalf (who : Initiator) (addr : Nat) (s : State) : Host.Outcome State Fault Refusal :=
  finish s (readOnBus s who addr 4)

/-- VIOLATING_READ (R25): a read returns zero where it is a violation, and the register's value elsewhere. -/
def execViolatingRead (who : Initiator) (addr size : Nat) (s : State) : Host.Outcome State Fault Refusal :=
  finish s (readOnBus s who addr size)

/-- COUNTER_CLEAR: a write of 1 to a CNT_CLR register. -/
def execCounterClear (who : Initiator) (addr : Nat) (val : Word64) (s : State) : Host.Outcome State Fault Refusal :=
  finish s (
    match regHit s who addr with
    | some h => if clearBases.contains h.desc.base then regWrite s who addr 4 (val.toNat ||| 1) else s
    | none => regWrite s who addr 4 val.toNat)

/-- TC_ENABLE_WRITE (R113). -/
def execTcEnableWrite (who : Initiator) (n : Nat) (val : Word64) (s : State) : Host.Outcome State Fault Refusal :=
  finish s (writeReg s who (TC_CTRL n) val.toNat)

/-- TT_COMMIT (R221). -/
def execTtCommit (who : Initiator) (val : Word64) (s : State) : Host.Outcome State Fault Refusal :=
  finish s (writeReg s who SCH_TT_COMMIT (val.toNat ||| 1))

/-- SCHEDULER_ENABLE (R219, R255). -/
def execSchedulerEnable (who : Initiator) (val : Word64) (s : State) : Host.Outcome State Fault Refusal :=
  finish s (writeReg s who SCH_CTRL val.toNat)

/-- CONTEXT_ENABLE (R238). -/
def execContextEnable (who : Initiator) (n : Nat) (val : Word64) (s : State) : Host.Outcome State Fault Refusal :=
  finish s (writeReg s who (SCH_CTX_CTL n) val.toNat)

/-- CONTEXT_FAULT_CLEAR (R254). -/
def execContextFaultClear (who : Initiator) (n : Nat) (val : Word64) (s : State) : Host.Outcome State Fault Refusal :=
  finish s (writeReg s who (SCH_CTX_CTL n) (val.toNat ||| 2))

/-- PLT_ENABLE (R214). -/
def execPltEnable (who : Initiator) (val : Word64) (s : State) : Host.Outcome State Fault Refusal :=
  finish s (writeReg s who MEM_PLT_CTRL val.toNat)

/-- KVP_ENABLE (R164). -/
def execKvpEnable (who : Initiator) (n : Nat) (val : Word64) (s : State) : Host.Outcome State Fault Refusal :=
  finish s (writeReg s who (SCH_KVP_CTL n) val.toNat)

/-- KVP_ADMIT (R165). -/
def execKvpAdmit (who : Initiator) (n : Nat) (val : Word64) (s : State) : Host.Outcome State Fault Refusal :=
  finish s (writeReg s who (SCH_KVP_ADMIT n) val.toNat)

/-- KVP_RETIRE (R166). -/
def execKvpRetire (who : Initiator) (n : Nat) (val : Word64) (s : State) : Host.Outcome State Fault Refusal :=
  finish s (writeReg s who (SCH_KVP_RETIRE n) val.toNat)

/-- TIME_STEP_GO (R274). -/
def execTimeStepGo (who : Initiator) (val : Word64) (s : State) : Host.Outcome State Fault Refusal :=
  finish s (writeReg s who TIM_STEP_CTL (val.toNat ||| 1))

/-- FW_SAMPLE_SUBMIT (R279). -/
def execFwSampleSubmit (who : Initiator) (val : Word64) (s : State) : Host.Outcome State Fault Refusal :=
  finish s (writeReg s who TIM_SRC_FWOFS val.toNat)

/-- SERVO_ENABLE (R282). -/
def execServoEnable (who : Initiator) (val : Word64) (s : State) : Host.Outcome State Fault Refusal :=
  finish s (writeReg s who TIM_CTRL val.toNat)

/-- SERVO_COMMIT (R280). -/
def execServoCommit (who : Initiator) (val : Word64) (s : State) : Host.Outcome State Fault Refusal :=
  finish s (writeReg s who TIM_SRV_COMMIT (val.toNat ||| 1))

/-- COMPARE_COMMIT (R286). -/
def execCompareCommit (who : Initiator) (c : Nat) (val : Word64) (s : State) : Host.Outcome State Fault Refusal :=
  finish s (writeReg s who (TIM_CMP_CTL c) (val.toNat ||| 2))

/-- COMPARE_ENABLE (R286, R287). -/
def execCompareEnable (who : Initiator) (c : Nat) (val : Word64) (s : State) : Host.Outcome State Fault Refusal :=
  finish s (writeReg s who (TIM_CMP_CTL c) val.toNat)

/-- SNS_PROD_WRITE (R301). -/
def execSnsProdWrite (who : Initiator) (n : Nat) (val : Word64) (s : State) : Host.Outcome State Fault Refusal :=
  finish s (writeReg s who (SNS_CH_PROD n) val.toNat)

/-- FUS_COMMIT (R303). -/
def execFusCommit (who : Initiator) (val : Word64) (s : State) : Host.Outcome State Fault Refusal :=
  finish s (writeReg s who FUS_COMMIT (val.toNat ||| 1))

/-- SOLVER_DISABLE (R349): a write of SLV_CTRL. -/
def execSolverDisable (who : Initiator) (val : Word64) (s : State) : Host.Outcome State Fault Refusal :=
  finish s (writeReg s who SLV_CTRL val.toNat)

/-- TRL_COMMIT (R371). -/
def execTrlCommit (who : Initiator) (val : Word64) (s : State) : Host.Outcome State Fault Refusal :=
  finish s (writeReg s who TRL_COMMIT (val.toNat ||| 1))

/-- TRL_ENABLE_WRITE (R371). -/
def execTrlEnableWrite (who : Initiator) (val : Word64) (s : State) : Host.Outcome State Fault Refusal :=
  finish s (writeReg s who TRL_CTRL val.toNat)

/-- HART_RUN_WRITE (R380). -/
def execHartRunWrite (who : Initiator) (h : Nat) (val : Word64) (s : State) : Host.Outcome State Fault Refusal :=
  finish s (writeReg s who (BLV_HART_CTL h) val.toNat)

/-- WATCHDOG_KICK (R381). -/
def execWatchdogKick (who : Initiator) (h : Nat) (val : Word64) (s : State) : Host.Outcome State Fault Refusal :=
  finish s (writeReg s who (BLV_HART_KICK h) (val.toNat ||| 1))

/-- ICU_CLAIM (R387): a read of CLAIM. -/
def execIcuClaim (who : Initiator) (t : Nat) (s : State) : Host.Outcome State Fault Refusal :=
  finish s (readOnBus s who (BLV_ICU_T_CLAIM t) 4)

/-- ICU_COMPLETE (R388). -/
def execIcuComplete (who : Initiator) (t : Nat) (val : Word64) (s : State) : Host.Outcome State Fault Refusal :=
  finish s (writeReg s who (BLV_ICU_T_COMPLETE t) val.toNat)

/-- ICU_RESET (R390). -/
def execIcuReset (who : Initiator) (t : Nat) (val : Word64) (s : State) : Host.Outcome State Fault Refusal :=
  finish s (writeReg s who (BLV_ICU_T_RESET t) (val.toNat ||| 1))

/-- ICU_SWI (R393). -/
def execIcuSwi (who : Initiator) (val : Word64) (s : State) : Host.Outcome State Fault Refusal :=
  finish s (writeReg s who BLV_ICU_SWI val.toNat)

/-- LOOP_ENABLE_WRITE (R404). -/
def execLoopEnableWrite (who : Initiator) (n : Nat) (val : Word64) (s : State) : Host.Outcome State Fault Refusal :=
  finish s (writeReg s who (BLV_CLE_L_CTL n) val.toNat)

/-- PLAUS_CLEAR (R408). -/
def execPlausClear (who : Initiator) (n : Nat) (val : Word64) (s : State) : Host.Outcome State Fault Refusal :=
  finish s (writeReg s who (BLV_CLE_L_STAT n) (val.toNat ||| 1))

/-- RFX_COMMIT (R440). -/
def execRfxCommit (who : Initiator) (val : Word64) (s : State) : Host.Outcome State Fault Refusal :=
  finish s (writeReg s who RFX_COMMIT (val.toNat ||| 1))

/-- SLUICE_HART_ARM (R430). -/
def execSluiceHartArm (who : Initiator) (l : Nat) (val : Word64) (s : State) : Host.Outcome State Fault Refusal :=
  finish s (writeReg s who (SLC_L_ARM l) (val.toNat ||| 1))

/-- ECM_SUBST_CLEAR (R465). -/
def execEcmSubstClear (who : Initiator) (sg : Nat) (val : Word64) (s : State) : Host.Outcome State Fault Refusal :=
  finish s (writeReg s who (FLD_ECM_STAT sg) (val.toNat ||| 2))

/-- ECM_ENABLE (R461). -/
def execEcmEnable (who : Initiator) (sg : Nat) (val : Word64) (s : State) : Host.Outcome State Fault Refusal :=
  finish s (writeReg s who (FLD_ECM_CTL sg) val.toNat)

/-- ECM_ACYCLIC_GO (R466). -/
def execEcmAcyclicGo (who : Initiator) (sg : Nat) (val : Word64) (s : State) : Host.Outcome State Fault Refusal :=
  finish s (writeReg s who (FLD_ECM_ACYC sg) (val.toNat ||| 0x10000))

/-- CWY_ENABLE (R485): the strap pin is read, and CWY_CTRL written. -/
def execCwyEnable (who : Initiator) (strap : Bool) (val : Word64) (s : State) : Host.Outcome State Fault Refusal :=
  finish s (writeReg (s.put CWY_STAT_STRAP (ofBool strap)) who CWY_CTRL val.toNat)

/-- A write of SEC_CMD with an operation in OP. -/
def secWrite (s : State) (who : Initiator) (op val : Nat) : State := writeReg s who SEC_CMD (withBits val 7 0 op)

/-- SEC_EXTEND (R527). -/
def execSecExtend (who : Initiator) (val : Word64) (s : State) : Host.Outcome State Fault Refusal :=
  finish s (secWrite s who 0x01 val.toNat)

/-- SEC_ATTEST (R530). -/
def execSecAttest (who : Initiator) (val : Word64) (s : State) : Host.Outcome State Fault Refusal :=
  finish s (secWrite s who 0x02 val.toNat)

/-- SEC_EXPORT (R529). -/
def execSecExport (who : Initiator) (val : Word64) (s : State) : Host.Outcome State Fault Refusal :=
  finish s (secWrite s who 0x03 val.toNat)

/-- SEC_FUSE_KEY (R513, R519). -/
def execSecFuseKey (who : Initiator) (val : Word64) (s : State) : Host.Outcome State Fault Refusal :=
  finish s (secWrite s who 0x10 val.toNat)

/-- SEC_FUSE_REVOKE (R520). -/
def execSecFuseRevoke (who : Initiator) (val : Word64) (s : State) : Host.Outcome State Fault Refusal :=
  finish s (secWrite s who 0x11 val.toNat)

/-- SEC_FUSE_ROLLBACK (R520). -/
def execSecFuseRollback (who : Initiator) (val : Word64) (s : State) : Host.Outcome State Fault Refusal :=
  finish s (secWrite s who 0x12 val.toNat)

/-- SEC_FUSE_PROT (R513, R529). -/
def execSecFuseProt (who : Initiator) (val : Word64) (s : State) : Host.Outcome State Fault Refusal :=
  finish s (secWrite s who 0x13 val.toNat)

/-- SEC_LC_ADVANCE (R515, R521). -/
def execSecLcAdvance (who : Initiator) (val : Word64) (s : State) : Host.Outcome State Fault Refusal :=
  finish s (secWrite s who 0x14 val.toNat)

/-- DORMANT_REQUEST (R532). -/
def execDormantRequest (who : Initiator) (val : Word64) (s : State) : Host.Outcome State Fault Refusal :=
  finish s (writeReg s who PWR_CTRL (val.toNat ||| 1))

/-- EPOCH_BUMP (R545). -/
def execEpochBump (who : Initiator) (val : Word64) (s : State) : Host.Outcome State Fault Refusal :=
  finish s (writeReg s who DGN_EPOCH_BUMP (val.toNat ||| 1))

end Sys2Proof.Machine
end

