-- ==== Sys2Proof/Machine/Dictionary.lean ====
section
/-! DEFINITION. The object dictionary of the EtherCAT SubDevice (R293, R451–R456): which objects there are, what an upload
reads, what a download writes, commit records. -/

namespace Sys2Proof.Machine

open Sys2Proof Sys2Proof.Machine.Reg

/-! ### Objects -/

/-- How a subindex is accessed (R452): `rwp` is writable only in PREOP. -/
inductive SdoAccess where
  | ro | rw | rwp | wo
  deriving DecidableEq, Repr

/-- A run of subindices of a run of objects: width in bits (0 for a string), access, and whether they may be mapped into
the RxPDO or the TxPDO. -/
structure ObjRow where
  idx : Nat
  count : Nat
  lo : Nat
  hi : Nat
  bits : Nat
  acc : SdoAccess
  rx : Bool := false
  tx : Bool := false
  deriving DecidableEq, Repr

/-- The communication area (R454). -/
def commRows : List ObjRow :=
  [ ⟨0x1000, 1, 0, 0, 32, .ro, false, false⟩, ⟨0x1001, 1, 0, 0, 8, .ro, false, false⟩,
    ⟨0x1008, 3, 0, 0, 0, .ro, false, false⟩, ⟨0x1018, 1, 0, 0, 8, .ro, false, false⟩,
    ⟨0x1018, 1, 1, 4, 32, .ro, false, false⟩, ⟨0x10F1, 1, 0, 0, 8, .ro, false, false⟩,
    ⟨0x10F1, 1, 1, 1, 32, .ro, false, false⟩, ⟨0x10F1, 1, 2, 2, 32, .rwp, false, false⟩ ] ++
  [ ⟨0x1600, 4, 0, 0, 8, .rwp, false, false⟩, ⟨0x1600, 4, 1, 0x20, 32, .rwp, false, false⟩,
    ⟨0x1A00, 4, 0, 0, 8, .rwp, false, false⟩, ⟨0x1A00, 4, 1, 0x20, 32, .rwp, false, false⟩,
    ⟨0x1C00, 1, 0, 4, 8, .ro, false, false⟩, ⟨0x1C12, 2, 0, 0, 8, .rwp, false, false⟩,
    ⟨0x1C12, 2, 1, 4, 16, .rwp, false, false⟩, ⟨0x1C32, 2, 0, 0, 8, .ro, false, false⟩ ] ++
  [ ⟨0x1C32, 1, 1, 1, 16, .rwp, false, false⟩, ⟨0x1C32, 1, 2, 2, 32, .ro, false, false⟩,
    ⟨0x1C32, 1, 4, 4, 16, .ro, false, false⟩, ⟨0x1C32, 1, 5, 5, 32, .ro, false, false⟩,
    ⟨0x1C32, 1, 0x0B, 0x0C, 16, .ro, false, false⟩, ⟨0x1C32, 1, 0x20, 0x20, 8, .ro, false, false⟩,
    ⟨0x1C33, 1, 1, 1, 16, .ro, false, false⟩, ⟨0x1C33, 1, 3, 3, 32, .rwp, false, false⟩ ]

/-- The manufacturer area up to the loops (R293, R455). -/
def makerRows : List ObjRow :=
  [ ⟨0x2000, 1, 0, 0, 8, .ro, false, false⟩, ⟨0x2000, 1, 1, 1, 64, .ro, false, false⟩,
    ⟨0x2000, 1, 2, 2, 32, .ro, false, false⟩, ⟨0x2000, 1, 3, 3, 8, .rwp, false, false⟩,
    ⟨0x2000, 1, 4, 4, 8, .ro, false, false⟩, ⟨0x2000, 1, 5, 5, 32, .ro, false, false⟩,
    ⟨0x2000, 1, 6, 7, 64, .ro, false, true⟩, ⟨0x2000, 1, 8, 8, 16, .ro, false, true⟩,
    ⟨0x2000, 1, 9, 9, 32, .ro, false, true⟩, ⟨0x2000, 1, 0xA, 0xA, 32, .ro, false, false⟩ ] ++
  [ ⟨0x2100, 1, 0, 0, 8, .ro, false, false⟩, ⟨0x2100, 1, 1, 1, 16, .rw, false, false⟩,
    ⟨0x2100, 1, 2, 3, 32, .ro, false, false⟩, ⟨0x2100, 1, 4, 4, 16, .ro, false, false⟩,
    ⟨0x2100, 1, 5, 5, 8, .ro, false, false⟩, ⟨0x2100, 1, 6, 6, 32, .ro, false, false⟩ ] ++
  [ ⟨0x2200, 1, 0, 1, 8, .ro, false, false⟩, ⟨0x2200, 1, 2, 2, 64, .ro, false, false⟩,
    ⟨0x2200, 1, 3, 3, 32, .ro, false, false⟩, ⟨0x2200, 1, 4, 4, 16, .ro, false, false⟩,
    ⟨0x2200, 1, 5, 5, 8, .ro, false, false⟩, ⟨0x2200, 1, 6, 7, 32, .ro, false, false⟩,
    ⟨0x2200, 1, 8, 9, 8, .rw, false, false⟩, ⟨0x2200, 1, 0xA, 0xA, 32, .rw, false, false⟩,
    ⟨0x2200, 1, 0xB, 0xB, 32, .ro, false, false⟩ ] ++
  [ ⟨0x2400, 64, 0, 0, 8, .ro, false, false⟩, ⟨0x2400, 64, 1, 1, 8, .rw, false, false⟩,
    ⟨0x2400, 64, 2, 2, 8, .ro, false, false⟩, ⟨0x2400, 64, 3, 3, 16, .ro, false, true⟩,
    ⟨0x2400, 64, 4, 4, 8, .wo, false, false⟩, ⟨0x2400, 64, 5, 7, 32, .rw, true, false⟩,
    ⟨0x2400, 64, 8, 8, 32, .ro, false, true⟩, ⟨0x2400, 64, 9, 0xA, 32, .ro, false, false⟩,
    ⟨0x2400, 64, 0xB, 0xB, 8, .ro, false, false⟩, ⟨0x2400, 64, 0xC, 0xC, 32, .ro, false, false⟩,
    ⟨0x2400, 64, 0x10, 0x1F, 32, .rw, false, false⟩, ⟨0x2400, 64, 0x20, 0x20, 8, .rw, false, false⟩ ]

/-- The rest of the manufacturer area (R455). -/
def engineRows : List ObjRow :=
  [ ⟨0x2800, 1, 0, 1, 8, .ro, false, false⟩, ⟨0x2800, 1, 2, 2, 16, .ro, false, false⟩,
    ⟨0x2800, 1, 3, 3, 64, .ro, false, false⟩, ⟨0x2800, 1, 4, 7, 32, .ro, false, false⟩,
    ⟨0x2800, 1, 8, 0xF, 16, .rw, false, false⟩, ⟨0x2800, 1, 0x10, 0x10, 8, .rw, false, false⟩,
    ⟨0x2800, 1, 0x11, 0x19, 16, .ro, false, false⟩, ⟨0x2800, 1, 0x1A, 0x1A, 8, .rwp, false, false⟩,
    ⟨0x2800, 1, 0x40, 0x7F, 32, .ro, false, true⟩ ] ++
  [ ⟨0x2A00, 1, 0, 0, 8, .ro, false, false⟩, ⟨0x2A00, 1, 1, 2, 64, .ro, false, true⟩,
    ⟨0x2A00, 1, 3, 3, 32, .ro, false, false⟩, ⟨0x2A00, 1, 4, 5, 32, .rw, false, false⟩,
    ⟨0x2A00, 1, 6, 6, 8, .rw, false, false⟩, ⟨0x2A00, 1, 7, 7, 8, .ro, false, false⟩,
    ⟨0x2A00, 1, 8, 0xF, 32, .ro, false, false⟩ ] ++
  [ ⟨0x2C00, 1, 0, 1, 8, .ro, false, false⟩, ⟨0x2C00, 1, 2, 3, 8, .rw, false, false⟩,
    ⟨0x2C00, 1, 4, 4, 32, .ro, false, false⟩, ⟨0x2C00, 1, 5, 6, 8, .ro, false, true⟩,
    ⟨0x2C00, 1, 7, 7, 16, .ro, false, false⟩, ⟨0x2C00, 1, 8, 0x13, 32, .ro, false, false⟩ ] ++
  [ ⟨0x2E00, 1, 0, 1, 8, .ro, false, false⟩, ⟨0x2E00, 1, 2, 4, 64, .ro, false, false⟩,
    ⟨0x2E00, 1, 5, 9, 32, .ro, false, false⟩, ⟨0x2E00, 1, 0xA, 0xA, 8, .rw, false, false⟩,
    ⟨0x2E00, 1, 0xB, 0xB, 8, .ro, false, false⟩, ⟨0x2E00, 1, 0xC, 0xC, 32, .ro, false, false⟩,
    ⟨0x2E00, 1, 0xD, 0xD, 64, .ro, false, false⟩, ⟨0x2E00, 1, 0xE, 0xE, 8, .rw, false, false⟩ ] ++
  [ ⟨0x3000, 1, 0, 0, 8, .ro, false, false⟩, ⟨0x3000, 1, 1, 1, 32, .ro, false, false⟩,
    ⟨0x3000, 1, 2, 2, 64, .ro, false, false⟩, ⟨0x3000, 1, 3, 0x16, 32, .ro, false, false⟩,
    ⟨0x3800, 1, 0, 3, 8, .ro, false, false⟩, ⟨0x3800, 1, 4, 4, 32, .ro, false, false⟩,
    ⟨0x3800, 1, 5, 5, 8, .ro, false, false⟩ ]

/-- Every object of the dictionary. -/
def objRows : List ObjRow := commRows ++ makerRows ++ engineRows

/-- Rows of one object. -/
def objectRows (idx : Nat) : List ObjRow := objRows.filter fun r => r.idx ≤ idx && idx < r.idx + r.count

/-- The row of a subindex, or the abort code (R451). -/
def objRow (idx sub : Nat) : Except Nat ObjRow :=
  let rs := objectRows idx
  if rs.isEmpty then .error 0x06020000
  else match rs.find? fun r => r.lo ≤ sub && sub ≤ r.hi with
    | some r => .ok r
    | none => .error 0x06090011

/-- The highest subindex of an object (R455). -/
def highestSub (idx : Nat) : Nat := (objectRows idx).foldl (fun m r => max m r.hi) 0

/-- Subindices of an object, ascending. -/
def subsOf (idx : Nat) : List Nat := (List.range 256).filter fun k => (objectRows idx).any fun r => r.lo ≤ k && k ≤ r.hi

/-! ### Dictionary words that no register holds -/

/-- Their key. -/
def objKey (idx sub : Nat) : Nat := idx * 256 + sub

/-- Their default. -/
def objDefault (idx sub : Nat) : Nat :=
  if idx = 0x10F1 ∧ sub = 2 then 4
  else if idx = 0x1C32 ∧ sub = 1 then 2
  else if idx = 0x2A00 ∧ sub = 4 then 1000000
  else 0

/-- Their value. -/
def dictRd (s : State) (idx sub : Nat) : Nat := tgetD s.ecs.dict (objKey idx sub) (objDefault idx sub)

/-- Set one. -/
def dictWr (s : State) (idx sub v : Nat) : State := { s with ecs := { s.ecs with dict := tset s.ecs.dict (objKey idx sub) v } }

/-! ### Uploads -/

/-- ASCII bytes of a string. -/
def asciiBytes (cs : List Char) : List Byte := cs.map fun c => BitVec.ofNat 8 c.toNat

/-- Strings of the communication area: device name by grade, hardware version by stepping, the image version in decimal
(R454). -/
def objString (s : State) (idx : Nat) : List Byte :=
  if idx = 0x1008 then asciiBytes (if s.fuses.grade = 0x0B then "LMD-ZJ8B-32".toList else "LMD-ZJ8A-64".toList)
  else if idx = 0x1009 then
    [BitVec.ofNat 8 (55 + s.fuses.stepping / 16), BitVec.ofNat 8 (48 + s.fuses.stepping % 16)]
  else asciiBytes (Nat.toDigits 10 (s.get SEC_BOOT_VERSION))

/-- Values of the communication area. -/
def commValue (s : State) (idx sub : Nat) : Nat :=
  match idx, sub with
  | 0x1001, _ => ofBool (errorBit s)
  | 0x1018, 0 => 4
  | 0x1018, 1 => 0x05A1
  | 0x1018, 2 => 0x0D08
  | 0x1018, 3 => s.fuses.grade * 0x10000 + s.fuses.stepping
  | 0x1018, 4 => s.fuses.serial
  | 0x10F1, 0 => 2
  | 0x10F1, 1 => 0
  | 0x1C00, 0 => 4
  | 0x1C00, k => k
  | 0x1C32, 0 => 0x20
  | 0x1C32, 4 => 0x0006
  | 0x1C32, 5 => 31250
  | 0x1C33, 0 => 3
  | 0x1C33, 1 => dictRd s 0x1C32 1
  | _, _ => dictRd s idx sub

/-- Object 0x2000. -/
def identValue (s : State) (sub : Nat) : Nat :=
  match sub with
  | 1 => (s.view SYS_IDENT).toNat
  | 2 => (s.view SYS_CORE_MAP).toNat
  | 3 => s.get CWY_CTRL_MSTREQ
  | 4 => s.get CWY_STAT_MODNUM
  | 5 => (s.rd SYS_ISLAND_STAT).toNat
  | 6 => s.get BLV_CLE_PLAUS_MASK
  | 7 => s.get RFX_DUAL_MIS_MASK
  | 8 => segmentState s
  | 9 => s.get DGN_EPOCH_VALUE
  | _ => s.cyc / 1000000000

/-- Object 0x2100. -/
def powerValue (s : State) (sub : Nat) : Nat :=
  match sub with
  | 1 => s.get PWR_CAP_W
  | 2 => s.get PWR_VIN_VALUE
  | 3 => s.get PWR_PMOD_VALUE
  | 4 => s.get PWR_TCP_VALUE
  | 5 => s.get PWR_STAT_STATE
  | _ => satAdd 32 (s.get PWR_CNT_HOLD_VALUE) (s.get PWR_CNT_THROT_VALUE)

/-- Object 0x2200 (R293). -/
def timeValue (s : State) (sub : Nat) : Nat :=
  match sub with
  | 1 => s.get TIM_CTRL_MODE
  | 2 => s.nowNs / 1000000000 % 2 ^ 48
  | 3 => s.ecs.nsLatch.getD (s.nowNs % 1000000000)
  | 4 => bitsOf (s.rd TIM_CTRL).toNat 10 4
  | 5 => s.get TIM_CTRL_ACTSRC
  | 6 => codeOf 32 (clampInt (s.getInt TIM_SRV_OFS_THETA / 65536) (-2147483648) 2147483647)
  | 7 => s.get TIM_SRV_ADJ_VALUE
  | 8 => s.get TIM_SRC_CFG_PRI
  | 9 => s.get TIM_SRC_CFG_SEC
  | 0xA => s.get TIM_SRC_EPOCHOFS_SEC
  | _ => s.get TIM_CNT_STEP_VALUE

/-- Object 0x2400 + n. -/
def loopValue (s : State) (n sub : Nat) : Nat :=
  match sub with
  | 1 => s.get (BLV_CLE_L_CTL_ENABLE n)
  | 2 => s.get (BLV_CLE_L_CTL_GROUP n)
  | 3 => (s.rd (BLV_CLE_L_STAT n)).toNat % 65536
  | 5 => s.get (BLV_CLE_L_RIN_VALUE n)
  | 6 => s.get (BLV_CLE_L_YIN_VALUE n)
  | 7 => s.get (BLV_CLE_L_FFIN_VALUE n)
  | 8 => s.get (BLV_CLE_L_OUT_VALUE n)
  | 9 => s.get (BLV_CLE_L_INTEG_VALUE n)
  | 0xA => s.get (BLV_CLE_L_DERIV_VALUE n)
  | 0xB => loopBank s n
  | 0xC => s.get (SLC_L_GEN_VALUE (loopGroup s n))
  | 0x20 => ofBool (laneSt s (loopGroup s n) == 3)
  | k => dictRd s (0x2400 + n) k

/-- Object 0x2800. -/
def reflexValue (s : State) (sub : Nat) : Nat :=
  match sub with
  | 1 => bitsOf (s.rd RFX_CTRL).toNat 4 0
  | 2 => s.get RFX_PROGV_MASK
  | 3 => s.get RFX_CNT_EVAL_VALUE
  | 4 => s.get RFX_CNT_ABSENT_VALUE
  | 5 => s.get RFX_CNT_BUSY_VALUE
  | 6 => s.get RFX_CNT_ECC_VALUE
  | 7 => s.get RFX_CNT_DUALMIS_VALUE
  | 0x10 => ofBool (s.isPending 4)
  | 0x1A => dictRd s 0x2800 0x1A
  | k =>
    if k ≤ 0xF then (s.rd (RFX_BIND (k - 8))).toNat % 65536
    else if k ≤ 0x19 then (s.rd (SLC_L_STAT (k - 0x11))).toNat % 65536
    else (s.rd (RFX_RES (dictRd s 0x2800 0x1A) (k - 0x40))).toNat

/-- Object 0x2A00. -/
def fusionValue (s : State) (sub : Nat) : Nat :=
  match sub with
  | 1 => s.get FUS_CH_VALID_VALUE
  | 2 => s.get FUS_CH_DESYNC_VALUE
  | 3 => s.get FUS_GRID_GEN_VALUE
  | 4 => s.get FUS_OUT_PERIOD
  | 5 => s.get FUS_OUT_PHASE
  | 6 => ofBool (s.isPending 2)
  | 7 => bitsOf (s.rd FUS_CTRL).toNat 2 0
  | k => s.get (FUS_CNT_VALUE (k - 8))

/-- Object 0x2C00: subindices 5 to 8 copy the last plan record written. -/
def trellisValue (s : State) (sub : Nat) : Nat :=
  match sub with
  | 1 => bitsOf (s.rd TRL_CTRL).toNat 4 0
  | 2 => s.get TRL_BANK_SEL
  | 3 => ofBool (s.isPending 3)
  | 4 => s.get TRL_OGEN_VALUE
  | 5 => leField s.ecs.plan 2 1
  | 6 => leField s.ecs.plan 3 1
  | 7 => leField s.ecs.plan 0 2
  | 8 => leField s.ecs.plan 12 4
  | k => s.get (TRL_CNT_VALUE (k - 9))

/-- Object 0x2E00. -/
def schedValue (s : State) (sub : Nat) : Nat :=
  let n := dictRd s 0x2E00 0xA
  match sub with
  | 1 => bitsOf (s.rd SCH_CTRL).toNat 3 0
  | 2 => (s.rd SCH_NOW).toNat
  | 3 => maskOf 64 fun i => s.on (SCH_CTX_CTL_FAULTED i)
  | 4 => maskOf 64 fun i => s.get (SCH_CTX_STAT_STATE i) == 3
  | 5 => s.get SCH_CNT_PREEMPT_VALUE
  | 6 => s.get SCH_CNT_SPILLT_VALUE
  | 7 => s.get SCH_CNT_RESTART_VALUE
  | 8 => s.get SCH_CNT_STALE_VALUE
  | 9 => s.get SCH_CNT_TEARDOWN_VALUE
  | 0xA => n
  | 0xB => s.get (SCH_CTX_STAT_STATE n)
  | 0xC => s.get (SCH_CTX_CNT_STEPS_VALUE n)
  | 0xD => (s.rd (SCH_CTX_FAULT n)).toNat
  | _ => s.get (SCH_CTX_CTL_ENABLE n)

/-- Object 0x3000. -/
def diagValue (s : State) (sub : Nat) : Nat :=
  let ecs := fun i => s.get (FLD_ECS_CNT_VALUE i)
  match sub with
  | 1 => s.get DGN_VIO_TOTAL_VALUE
  | 2 => s.get DGN_VIO_LAST_ADDR
  | 3 => s.get MEM_ECC_UE_VALUE
  | 4 => s.get (BLV_HRC_UE_VALUE 0)
  | 5 => s.get (BLV_HRC_UE_VALUE 1)
  | 6 => s.get BLV_SRAM_UE_VALUE
  | 7 => ecs 0
  | 8 => ecs 1
  | 9 => ecs 4
  | 0xA => ecs 5
  | 0xB => ecs 6
  | 0xC => ecs 2
  | 0xD => ecs 3
  | 0x16 => ecs 7
  | k =>
    if k ≤ 0x11 then satAdd 32 (s.get (FLD_ECM_CNT_VALUE (k - 0xE) 0)) (s.get (FLD_ECM_CNT_VALUE (k - 0xE) 1))
    else s.get (FLD_ECM_CNT_VALUE (k - 0x12) 2)

/-- Object 0x3800. -/
def secValue (s : State) (sub : Nat) : Nat :=
  match sub with
  | 1 => lcCode s
  | 2 => s.fuses.revoke
  | 3 => s.get SEC_BOOT_SLOT
  | 4 => s.get SEC_BOOT_VERSION
  | _ => dbgLock s

/-- The value of a subindex. -/
def objValue (s : State) (idx sub : Nat) : Nat :=
  if idx < 0x2000 then commValue s idx sub
  else if sub = 0 then highestSub idx
  else if 0x2400 ≤ idx ∧ idx < 0x2440 then loopValue s (idx - 0x2400) sub
  else match idx with
    | 0x2000 => identValue s sub
    | 0x2100 => powerValue s sub
    | 0x2200 => timeValue s sub
    | 0x2800 => reflexValue s sub
    | 0x2A00 => fusionValue s sub
    | 0x2C00 => trellisValue s sub
    | 0x2E00 => schedValue s sub
    | 0x3000 => diagValue s sub
    | _ => secValue s sub

/-- Bytes of a subindex, little-endian. -/
def objBytes (s : State) (r : ObjRow) (idx sub : Nat) : List Byte :=
  if r.bits = 0 then objString s idx else leBytes (r.bits / 8) (objValue s idx sub)

/-- The captures of a read: 0x2200:02 captures 0x2200:03 for the next read of it (R293). A complete read reads both, so it
captures and uses the capture. -/
def afterUpload (s : State) (idx sub : Nat) (complete : Bool) : State :=
  if idx = 0x2200 ∧ complete then { s with ecs := { s.ecs with nsLatch := none } }
  else if idx = 0x2200 ∧ sub = 2 then { s with ecs := { s.ecs with nsLatch := some (s.nowNs % 1000000000) } }
  else if idx = 0x2200 ∧ sub = 3 then { s with ecs := { s.ecs with nsLatch := none } }
  else s

/-- An object is a record: it has more subindices than :00. -/
def isRecord (idx : Nat) : Bool := 0 < highestSub idx

/-- A whole record: subindex 0 as 16 bits, then every readable subindex (PRESUMED, log entry 38). -/
def recordBytes (s : State) (idx from_ : Nat) : List Byte :=
  (subsOf idx).flatMap fun k =>
    match objRow idx k with
    | .ok r =>
      if k < from_ ∨ r.acc = .wo then [] else if k = 0 then leBytes 2 (objValue s idx 0) else objBytes s r idx k
    | .error _ => []

/-- An upload (R451): the bytes, or the abort code. -/
def sdoRead (s : State) (idx sub : Nat) (complete : Bool) : Except Nat (List Byte) :=
  match objRow idx sub with
  | .error c => .error c
  | .ok r =>
    if complete then (if isRecord idx ∧ sub ≤ 1 then .ok (recordBytes (afterUpload s idx sub true) idx sub) else .error 0x06010000)
    else if r.acc = .wo then .error 0x06010001
    else .ok (objBytes s r idx sub)

/-! ### PDO mapping (R457) -/

/-- Entries of the mapping objects that an assignment object names: index, subindex, bits. -/
def pdoEntries (s : State) (assign : Nat) : List (Nat × Nat × Nat) :=
  (List.range (min 4 (dictRd s assign 0))).flatMap fun i =>
    let m := dictRd s assign (i + 1)
    if m = 0 then []
    else (List.range (min 32 (dictRd s m 0))).map fun k =>
      let e := dictRd s m (k + 1)
      (bitsOf e 31 16, bitsOf e 15 8, bitsOf e 7 0)

/-- Bytes of an image. -/
def imageBytes (es : List (Nat × Nat × Nat)) : Nat := es.foldl (fun n e => n + e.2.2) 0 / 8

/-- An entry that R457 allows in a direction: a gap of whole bytes, or a subindex marked for it with its own length. -/
def entryMaps (rx : Bool) (e : Nat × Nat × Nat) : Bool :=
  if e.1 = 0 then e.2.2 % 8 == 0
  else match objRow e.1 e.2.1 with
    | .ok r => (if rx then r.rx else r.tx) && r.bits == e.2.2
    | .error _ => false

/-- An image that R457 allows. -/
def pdoImageOk (s : State) (rx : Bool) : Bool :=
  let es := pdoEntries s (if rx then 0x1C12 else 0x1C13)
  es.all (entryMaps rx) && imageBytes es ≤ 256

/-- A subindex is mapped into the RxPDO. -/
def rxMapped (s : State) (idx sub : Nat) : Bool := (pdoEntries s 0x1C12).any fun e => e.1 == idx && e.2.1 == sub

/-! ### Downloads -/

/-- AL state of the SubDevice: 1 INIT, 2 PREOP, 4 SAFEOP, 8 OP. -/
def alState (s : State) : Nat := s.get FLD_ECS_STAT_ALSTAT

/-- A register field takes a value as a write would give it, with the write's actions. -/
def fieldWritten (s : State) (a base : Nat) (is : List Nat) (f : Fld) (v : Nat) : State :=
  let old := (s.rd a).toNat
  let s := s.put f v
  afterWrite base is old (s.rd a).toNat s

/-- A value within bounds, or the abort code of R451. -/
def withinLimits (v lo hi : Nat) (s : State) : Except Nat State :=
  if v < lo then .error 0x06090032 else if hi < v then .error 0x06090031 else .ok s

/-- A value of a closed set, or 0x0609_0030. -/
def allowed (c : Bool) (s : State) : Except Nat State := if c then .ok s else .error 0x06090030

/-- A Static field is not written while its block is enabled (R451). -/
def unlocked (locked : Bool) (s : State) : Except Nat State := if locked then .error 0x08000022 else .ok s

/-- The staged words of a loop. -/
def stagedWord (s : State) (n k : Nat) : Word32 := BitVec.ofNat 32 (dictRd s (0x2400 + n) (0x10 + k))

/-- A write of 1 to 0x2400 + n:20 (R456). -/
def loopCommit (s : State) (n : Nat) : Except Nat State :=
  let l := loopGroup s n
  if !wordsValid (stagedWord s n) then .error 0x06090030
  else if laneBusy s l then .error 0x08000022
  else
    let b := 1 - loopBank s n
    let s := forUpTo 16 (fun k s => s.put (BLV_CLE_L_BK_VALUE n b k) (stagedWord s n k).toNat) s
    .ok (enterCheck (s.put (SLC_L_STAT_TGRP l) l) l (2 ^ n) none)

/-- A write of 1 to the Commit subindex of a commit record (R453). -/
def recordCommit (s : State) (idx : Nat) : State :=
  match idx with
  | 0x2800 =>
    let s := forUpTo 8 (fun g s => s.heldWr (RFX_BIND g) (BitVec.ofNat 64 (dictRd s 0x2800 (8 + g)))) s
    rfxCommitWritten s
  | 0x2A00 =>
    fusCommitWritten ((s.heldPut FUS_OUT_PERIOD (dictRd s 0x2A00 4)).heldPut FUS_OUT_PHASE (dictRd s 0x2A00 5))
  | 0x2C00 => trlCommitWritten (s.heldPut TRL_BANK_SEL (dictRd s 0x2C00 2))
  | _ => s

/-- Download of a mapping or assignment subindex (R451, R457). -/
def mappingWrite (s : State) (idx sub v : Nat) : Except Nat State :=
  let rx := idx < 0x1A00 || idx == 0x1C12
  let long := fun (s : State) => if imageBytes (pdoEntries s (if rx then 0x1C12 else 0x1C13)) ≤ 256 then
    (.ok s : Except Nat State) else .error 0x06040042
  if idx < 0x1C00 then
    if sub = 0 then (if 32 < v then .error 0x06090031 else long (dictWr s idx 0 v))
    else if entryMaps rx (bitsOf v 31 16, bitsOf v 15 8, bitsOf v 7 0) then long (dictWr s idx sub v)
    else .error 0x06040041
  else if sub = 0 then (if 4 < v then .error 0x06090031 else long (dictWr s idx 0 v))
  else
    let lo := if rx then 0x1600 else 0x1A00
    if v = 0 ∨ (lo ≤ v ∧ v < lo + 4) then long (dictWr s idx sub v) else .error 0x06090030

/-- Download to a loop object. -/
def loopWrite (s : State) (n sub v : Nat) : Except Nat State :=
  match sub with
  | 1 =>
    if 1 < v then .error 0x06090031
    else
      let s := fieldWritten s (BLV_CLE_L_CTL n) (BLV_CLE_L_CTL 0) [n] (BLV_CLE_L_CTL_ENABLE n) v
      if s.get (BLV_CLE_L_CTL_ENABLE n) = v then .ok s else .error 0x06040043
  | 4 =>
    if v = 1 then .ok (onIf (s.on (BLV_CLE_L_STAT_PLAUS n)) (plausCleared n) s) else allowed (v == 0) s
  | 5 => .ok (s.put (BLV_CLE_L_RIN_VALUE n) v)
  | 6 => .ok (s.put (BLV_CLE_L_YIN_VALUE n) v)
  | 7 => .ok (s.put (BLV_CLE_L_FFIN_VALUE n) v)
  | 0x20 => if v = 1 then loopCommit s n else allowed (v == 0) s
  | k => .ok (dictWr s (0x2400 + n) k v)

/-- Download of the cascade role request (R485, R486): Static against CWY_CTRL_ENABLE, refused by a follower. -/
def roleWrite (s : State) (v : Nat) : Except Nat State :=
  if 1 < v then .error 0x06090030
  else if cwyFollower s ∨ (s.on CWY_CTRL_ENABLE ∧ s.get CWY_CTRL_MSTREQ ≠ v) then .error 0x08000022
  else .ok (s.put CWY_CTRL_MSTREQ v)

/-- Download of a subindex, its type and access judged: the new state, or the abort code. -/
def objWriteValue (s : State) (idx sub v : Nat) : Except Nat State :=
  if 0x2400 ≤ idx ∧ idx < 0x2440 then loopWrite s (idx - 0x2400) sub v
  else if 0x1600 ≤ idx ∧ idx < 0x1C20 then mappingWrite s idx sub v
  else match idx, sub with
    | 0x10F1, _ => (withinLimits v 1 255 s).map fun s => dictWr s 0x10F1 2 v
    | 0x1C32, _ => (allowed (v == 1 || v == 2) s).map fun s => dictWr s 0x1C32 1 v
    | 0x1C33, _ =>
      if dictRd s 0x1C32 2 ≠ 0 ∧ dictRd s 0x1C32 2 ≤ v then .error 0x06090031 else .ok (dictWr s 0x1C33 3 v)
    | 0x2000, _ => roleWrite s v
    | 0x2100, _ => (withinLimits v 60 380 s).map fun s => fieldWritten s PWR_CAP PWR_CAP [] PWR_CAP_W v
    | 0x2200, 8 =>
      if s.on TIM_CTRL_ENABLE then .error 0x08000022 else (allowed (v ≤ 7) s).map fun s => s.put TIM_SRC_CFG_PRI v
    | 0x2200, 9 =>
      if s.on TIM_CTRL_ENABLE then .error 0x08000022 else (allowed (v ≤ 7) s).map fun s => s.put TIM_SRC_CFG_SEC v
    | 0x2200, _ => (unlocked (s.on TIM_CTRL_ENABLE) s).map fun s => s.put TIM_SRC_EPOCHOFS_SEC v
    | 0x2800, 0x10 => if v = 1 then .ok (recordCommit s 0x2800) else allowed (v == 0) s
    | 0x2800, 0x1A => (allowed (v ≤ 7) s).map fun s => dictWr s 0x2800 0x1A v
    | 0x2800, k => (allowed (v &&& 0x60F0 == 0) s).map fun s => dictWr s 0x2800 k v
    | 0x2A00, 6 => if v = 1 then .ok (recordCommit s 0x2A00) else allowed (v == 0) s
    | 0x2A00, k => .ok (dictWr s 0x2A00 k v)
    | 0x2C00, 3 => if v = 1 then .ok (recordCommit s 0x2C00) else allowed (v == 0) s
    | 0x2C00, k => (allowed (v ≤ 3) s).map fun s => dictWr s 0x2C00 k v
    | 0x2E00, 0xA => (allowed (v ≤ 63) s).map fun s => dictWr s 0x2E00 0xA v
    | 0x2E00, _ =>
      let n := dictRd s 0x2E00 0xA
      (allowed (v ≤ 1) s).map fun s => fieldWritten s (SCH_CTX_CTL n) (SCH_CTX_CTL 0) [n] (SCH_CTX_CTL_ENABLE n) v
    | _, _ => .error 0x06010002

/-- A download of one subindex (R451, R452). -/
def sdoWriteOne (s : State) (idx sub : Nat) (data : List Byte) : Except Nat State :=
  match objRow idx sub with
  | .error c => .error c
  | .ok r =>
    if r.acc = .ro then .error 0x06010002
    else if data.length * 8 ≠ r.bits then .error 0x06070010
    else if r.acc = .rwp ∧ alState s ≠ 2 then .error 0x08000022
    else if 4 ≤ alState s ∧ rxMapped s idx sub then .error 0x08000022
    else objWriteValue s idx sub (leNat data)

/-- An object takes a complete-access download (R451). -/
def isPdoObject (idx : Nat) : Bool :=
  (0x1600 ≤ idx && idx < 0x1604) || (0x1A00 ≤ idx && idx < 0x1A04) || idx == 0x1C12 || idx == 0x1C13

/-- A complete-access download of a PDO object: the entries, then the count. -/
def sdoWriteWhole (s : State) (idx sub : Nat) (data : List Byte) : Except Nat State :=
  let w := if idx < 0x1C00 then 4 else 2
  let body := data.drop (if sub = 0 then 2 else 0)
  if body.length % w ≠ 0 ∨ highestSub idx < body.length / w ∨ (sub = 0 ∧ data.length < 2) then .error 0x06070010
  else
    let entries := (List.range (body.length / w)).foldl (fun (r : Except Nat State) i =>
      match r with
      | .ok s => sdoWriteOne s idx (i + 1) ((body.drop (w * i)).take w)
      | .error c => .error c) (.ok s)
    match entries with
    | .ok s => if sub = 0 then sdoWriteOne s idx 0 (data.take 1) else .ok s
    | .error c => .error c

/-- A download (R451). -/
def sdoWrite (s : State) (idx sub : Nat) (complete : Bool) (data : List Byte) : Except Nat State :=
  match objRow idx sub with
  | .error c => .error c
  | .ok _ =>
    if !complete then sdoWriteOne s idx sub data
    else if isPdoObject idx ∧ sub ≤ 1 then sdoWriteWhole s idx sub data
    else .error 0x06010000

/-- An abort is counted (R451). -/
def sdoAbort (s : State) : State := s.count (FLD_ECS_CNT_VALUE 6) 1

/-- A download with its answer: no code, or the abort code. -/
def sdoDownload (s : State) (idx sub : Nat) (complete : Bool) (data : List Byte) : State × Option Nat :=
  match sdoWrite s idx sub complete data with
  | .ok s' => (s', none)
  | .error c => (sdoAbort s, some c)

/-- The answer on the bus. -/
def answerSdo (r : State × Option Nat) : State :=
  match r.2 with
  | some c => r.1.answer (.abort c)
  | none => r.1.answer (.bytes [])

/-- SDO_UPLOAD (R451). -/
def execSdoUpload (idx sub : Nat) (complete : Bool) (s : State) : Host.Outcome State Fault Refusal :=
  finish s (
    match sdoRead s idx sub complete with
    | .ok bs => (afterUpload s idx sub complete).answer (.bytes bs)
    | .error c => (sdoAbort s).answer (.abort c))

/-- SDO_DOWNLOAD (R451, R452). -/
def execSdoDownload (idx sub : Nat) (complete : Bool) (data : List Byte) (s : State) :
    Host.Outcome State Fault Refusal := finish s (answerSdo (sdoDownload s idx sub complete data))

/-- Subindex of the Commit of a commit record. -/
def commitSub (idx : Nat) : Option Nat :=
  match idx with
  | 0x2800 => some 0x10
  | 0x2A00 => some 6
  | 0x2C00 => some 3
  | _ => none

/-- SDO_RECORD_COMMIT (R453): a download to the Commit subindex of a commit record; another address is an SDO download
as any. -/
def execSdoRecordCommit (idx sub : Nat) (data : List Byte) (s : State) : Host.Outcome State Fault Refusal :=
  finish s (answerSdo (sdoDownload s idx ((commitSub idx).getD sub) false data))

/-- SDO_LOOP_COMMIT (R456). -/
def execSdoLoopCommit (n : Nat) (data : List Byte) (s : State) : Host.Outcome State Fault Refusal :=
  finish s (if n < 64 then answerSdo (sdoDownload s (0x2400 + n) 0x20 false data) else s)

end Sys2Proof.Machine
end

