-- ==== Sys2Proof/Machine/Esc.lean ====
section
/-! DEFINITION. The EtherCAT SubDevice controller: its memory, SyncManagers and FMMUs, frames and their datagrams, its
ports (R443, R449, R450). The layout of the controller's own registers and of the datagrams is that of IEC 61158 Type 12
(PRESUMED, log entry 40). -/

namespace Sys2Proof.Machine

open Sys2Proof Sys2Proof.Machine.Reg

/-! ### Memory of the controller -/

/-- The area of the controller's 64 KiB memory. -/
def areaEsc : Nat := 21

/-- Place of a byte of it. -/
def escPlace (a : Nat) : Nat := areaBase areaEsc + a % 65536

/-- Bytes of it as the device's own side reads them. -/
def escLoad (s : State) (a n : Nat) : List Byte := s.load (escPlace a) n

/-- A little-endian field of it. -/
def escNat (s : State) (a n : Nat) : Nat := leNat (escLoad s a n)

/-- Bytes written into it. -/
def escStore (s : State) (a : Nat) (bs : List Byte) : State := s.store (escPlace a) bs

/-- Bytes of the controller whose content the spec does not state: its identity beside the numbers of R443, its link
status, its distributed-clock times. -/
def escUnstated (a : Nat) : Bool := a < 0x0C || a == 0x110 || a == 0x111 || (0x900 ≤ a && a < 0x938)

/-- A byte of a port's receive time: the nanoseconds in which the frame that latched it started there (R273; PRESUMED, log
entry 71); free before the first latch. -/
def rxTimeByte (s : State) (a : Nat) : Byte :=
  match s.ecs.rxTime.getD ((a - 0x900) / 4) none with
  | some t => BitVec.ofNat 8 (t / 256 ^ (a % 4))
  | none => Config.freeByte s.free a

/-- A byte as the network reads it: AL status and code stand for FLD_ECS_STAT and its error bit. -/
def escByte (s : State) (a : Nat) : Byte :=
  if 0x900 ≤ a ∧ a < 0x908 then rxTimeByte s a
  else if a = 4 then 8#8
  else if a = 5 then 4#8
  else if escUnstated a then Config.freeByte s.free a
  else if a = 0x130 then BitVec.ofNat 8 (alState s + 16 * ofBool s.ecs.err)
  else if a = 0x131 then 0#8
  else if a = 0x134 then BitVec.ofNat 8 (s.get FLD_ECS_STAT_ALCODE)
  else if a = 0x135 then BitVec.ofNat 8 (s.get FLD_ECS_STAT_ALCODE / 256)
  else memGet s.mem (escPlace a)

/-- Bytes that the network does not write. -/
def escReadOnly (a : Nat) : Bool := escUnstated a || (0x130 ≤ a && a < 0x138)

/-- Start, length and activation of a SyncManager. -/
def smStart (s : State) (i : Nat) : Nat := escNat s (0x800 + 8 * i) 2
def smLen (s : State) (i : Nat) : Nat := escNat s (0x802 + 8 * i) 2
def smActive (s : State) (i : Nat) : Bool := (escNat s (0x806 + 8 * i) 1).testBit 0

/-- A byte lies in the area of an active SyncManager. -/
def inSm (s : State) (i a : Nat) : Bool := smActive s i && smStart s i ≤ a && a < smStart s i + smLen s i

/-- The mailbox a byte belongs to lets the network read or write it: SM0 takes a request while it is empty, SM1 gives a
response while it holds one. -/
def mailboxOpen (s : State) (a : Nat) (write : Bool) : Bool :=
  if inSm s 0 a then write && !s.ecs.inFull
  else if inSm s 1 a then !write && s.ecs.outFull
  else true

/-- SM1 is read to its end: it is empty, or takes the message that waited for it (R448). -/
def sm1Read (s : State) : State :=
  match s.ecs.late with
  | some bs => { escStore s (smStart s 1) bs with ecs := { s.ecs with late := none } }
  | none => { s with ecs := { s.ecs with outFull := false } }

/-- Bytes read by the network: none where one of them is closed. Reading the last byte of a response empties SM1. -/
def escRead (s : State) (as_ : List Nat) : State × Option (List Byte) :=
  if as_.all fun a => mailboxOpen s a false then
    let bs := as_.map (escByte s)
    let s := if as_.any escUnstated then { s with free := s.free + 1 } else s
    let last := smStart s 1 + smLen s 1 - 1
    (if as_.any fun a => inSm s 1 a && a == last then sm1Read s else s, some bs)
  else (s, none)

/-- Bytes written by the network: none where one of them is closed. Writing the last byte of a request fills SM0. -/
def escWrite (s : State) (abs : List (Nat × Byte)) : State × Bool :=
  if abs.all fun p => mailboxOpen s p.1 true then
    let last := smStart s 0 + smLen s 0 - 1
    let fills := abs.any fun p => inSm s 0 p.1 && p.1 == last
    let s := abs.foldl (fun (s : State) p =>
      if escReadOnly p.1 then s else { s with mem := memSet s.mem (escPlace p.1) p.2 }) s
    (if fills then { s with ecs := { s.ecs with inFull := true } } else s, true)
  else (s, false)

/-! ### FMMUs -/

/-- The bits of `n` data bytes at a logical address that an FMMU maps: data bit, physical bit. -/
def fmmuBits (s : State) (i addr n : Nat) (write : Bool) : List (Nat × Nat) :=
  let b := 0x600 + 16 * i
  let lo := escNat s b 4 * 8 + escNat s (b + 6) 1 % 8
  let hi := (escNat s b 4 + escNat s (b + 4) 2 - 1) * 8 + escNat s (b + 7) 1 % 8
  let ph := escNat s (b + 8) 2 * 8 + escNat s (b + 10) 1 % 8
  if !(escNat s (b + 12) 1).testBit 0 || escNat s (b + 4) 2 = 0 || !(escNat s (b + 11) 1).testBit (ofBool write) then []
  else (List.range (8 * n)).filterMap fun k =>
    let l := addr * 8 + k
    if lo ≤ l ∧ l ≤ hi then some (k, ph + (l - lo)) else none

/-- Bits of every FMMU. -/
def logicalBits (s : State) (addr n : Nat) (write : Bool) : List (Nat × Nat) :=
  (List.range 8).flatMap fun i => fmmuBits s i addr n write

/-- Physical bytes behind mapped bits, each once. -/
def bytesBehind (ps : List (Nat × Nat)) : List Nat := (ps.map fun p => p.2 / 8).eraseDups

/-- A logical read into data bytes, and whether any bit was read. -/
def logicalRead (s : State) (addr : Nat) (data : List Byte) : State × List Byte × Bool :=
  let ps := logicalBits s addr data.length false
  let as_ := bytesBehind ps
  if as_.isEmpty then (s, data, false)
  else match escRead s as_ with
    | (s, none) => (s, data, false)
    | (s, some bs) =>
      let mem := as_.zip bs
      let at_ := fun a => ((mem.find? fun p => p.1 == a).map (·.2.toNat)).getD 0
      (s, ps.foldl (fun d p => spliceBytes d (p.1 / 8)
        (leBytes 1 (withBits (d.getD (p.1 / 8) 0#8).toNat (p.1 % 8) (p.1 % 8) (at_ (p.2 / 8) / 2 ^ (p.2 % 8))))) data, true)

/-- A logical write of data bytes, and whether any bit was written. -/
def logicalWrite (s : State) (addr : Nat) (data : List Byte) : State × Bool :=
  let ps := logicalBits s addr data.length true
  let as_ := bytesBehind ps
  if as_.isEmpty then (s, false)
  else escWrite s (as_.map fun a =>
    (a, ps.foldl (fun (b : Byte) p =>
      if p.2 / 8 = a then
        BitVec.ofNat 8 (withBits b.toNat (p.2 % 8) (p.2 % 8) ((data.getD (p.1 / 8) 0#8).toNat / 2 ^ (p.1 % 8)))
      else b) (memGet s.mem (escPlace a))))

/-! ### Datagrams -/

/-- A datagram in a frame: command, IDX, address (ADP low, ADO high, or logical), length and flags, IRQ, data, counter. -/
structure Datagram where
  cmd : Nat
  idx : Nat
  addr : Nat
  flags : Nat
  irq : Nat
  data : List Byte
  wkc : Nat
  deriving DecidableEq, Repr

/-- Bytes of a datagram. -/
def Datagram.bytes (d : Datagram) : List Byte :=
  leBytes 1 d.cmd ++ leBytes 1 d.idx ++ leBytes 4 d.addr ++ leBytes 2 d.flags ++ leBytes 2 d.irq ++ d.data ++ leBytes 2 d.wkc

/-- Physical addresses a datagram names. -/
def Datagram.places (d : Datagram) : List Nat := (List.range d.data.length).map fun i => (d.addr / 65536 + i) % 65536

/-- A physical read: data read or, for a broadcast, ORed; the counter rises by 1. -/
def physRead (s : State) (d : Datagram) (or_ : Bool) : State × Datagram :=
  match escRead s d.places with
  | (s, none) => (s, d)
  | (s, some bs) => (s, { d with data := if or_ then List.zipWith (· ||| ·) d.data bs else bs, wkc := (d.wkc + 1) % 65536 })

/-- A physical write of given data: the counter rises by `inc`. -/
def physWrite (s : State) (d : Datagram) (data : List Byte) (inc : Nat) : State × Datagram :=
  match escWrite s (d.places.zip data) with
  | (s, true) => (s, { d with wkc := (d.wkc + inc) % 65536 })
  | (s, false) => (s, d)

/-- A physical read and write: the data written is the data that came. -/
def physBoth (s : State) (d : Datagram) (or_ : Bool) : State × Datagram :=
  let (s, d') := physRead s d or_
  physWrite s d' d.data 2

/-- A datagram processed by the SubDevice: 0 NOP; 1–3 by position, 4–6 by station address, 7–9 broadcast, each read,
write, both; 10–12 logical; 13, 14 read by position or station, write by the others. Positions count up in passing. -/
def processDatagram (s : State) (d : Datagram) : State × Datagram :=
  let adp := d.addr % 65536
  let next : Datagram := { d with addr := d.addr / 65536 * 65536 + (adp + 1) % 65536 }
  let here : Bool := adp == 0
  let mine : Bool := adp == escNat s 0x10 2
  match d.cmd with
  | 1 => if here then physRead s next false else (s, next)
  | 2 => if here then physWrite s next next.data 1 else (s, next)
  | 3 => if here then physBoth s next false else (s, next)
  | 4 => if mine then physRead s d false else (s, d)
  | 5 => if mine then physWrite s d d.data 1 else (s, d)
  | 6 => if mine then physBoth s d false else (s, d)
  | 7 => physRead s next true
  | 8 => physWrite s next next.data 1
  | 9 => physBoth s next true
  | 10 =>
    let (s, data, hit) := logicalRead s d.addr d.data
    (s, { d with data := data, wkc := (d.wkc + ofBool hit) % 65536 })
  | 11 =>
    let (s, hit) := logicalWrite s d.addr d.data
    (s, { d with wkc := (d.wkc + ofBool hit) % 65536 })
  | 12 =>
    let (s, data, hitR) := logicalRead s d.addr d.data
    let (s, hitW) := logicalWrite s d.addr d.data
    (s, { d with data := data, wkc := (d.wkc + ofBool hitR + 2 * ofBool hitW) % 65536 })
  | 13 => if here then physRead s next false else physWrite s next next.data 1
  | 14 => if mine then physRead s d false else physWrite s d d.data 1
  | _ => (s, d)

/-- The datagrams of a frame's EtherCAT area; none where one runs past the end (R449). -/
def parseDatagrams : Nat → List Byte → Option (List Datagram)
  | 0, _ => none
  | fuel + 1, bs =>
    let n := bitsOf (leField bs 6 2) 10 0
    if bs.length < 12 + n then none
    else
      let d : Datagram := { cmd := leField bs 0 1, idx := leField bs 1 1, addr := leField bs 2 4, flags := leField bs 6 2,
                            irq := leField bs 8 2, data := (bs.drop 10).take n, wkc := leField bs (10 + n) 2 }
      if d.flags.testBit 15 then (parseDatagrams fuel (bs.drop (12 + n))).map (d :: ·)
      else if bs.length = 12 + n then some [d] else none

/-- A frame's EtherCAT header and datagrams: none for a frame that R449 does not process. -/
def parseFrame (frame : List Byte) : Option (List Datagram) :=
  let h := leField frame 14 2
  let n := bitsOf h 10 0
  if bitsOf h 15 12 ≠ 1 ∨ !(frame.length == 16 + n || (frame.length == 60 && 16 + n ≤ 60)) then none
  else parseDatagrams 128 ((frame.drop 16).take n)

/-- The frame is EtherCAT. -/
def isEthercat (frame : List Byte) : Bool := beNat ((frame.drop 12).take 2) == 0x88A4

/-- Every datagram processed, in order. -/
def processAll (s : State) (ds : List Datagram) : State × List Datagram :=
  ds.foldl (fun (r : State × List Datagram) d =>
    let (s, d) := processDatagram r.1 d
    (s, r.2 ++ [d])) (s, [])

/-! ### Ports -/

/-- A port's loop is open. -/
def escOpen (s : State) (port : Nat) : Bool := s.ecs.open_.getD port false

/-- The port by which a frame that came in at `port` leaves: the other one, or back where the other is closed. -/
def escExit (s : State) (port : Nat) : Nat := if escOpen s (1 - port) then 1 - port else port

/-- The SubDevice latches the start of the frame at a port, where a datagram of it writes the receive times (R273). -/
def latchRx (s : State) (port : Nat) (ds : List Datagram) : State :=
  let writes := fun (d : Datagram) => d.addr / 65536 == 0x900 && d.data != [] &&
    ([8, 9].contains d.cmd || ([2, 3].contains d.cmd && d.addr % 65536 == 0) ||
     ([5, 6].contains d.cmd && d.addr % 65536 == escNat s 0x10 2))
  if ds.any writes then { s with ecs := { s.ecs with rxTime := s.ecs.rxTime.set port (some s.nowNs) } } else s

/-- ECS_FRAME (R273, R449): a frame at port 0 or 1, in the cycle of its start. It is processed on its way from port 0,
and forwarded on its way from port 1; with port 0 closed it turns back there and is processed. A bad one is counted
and forwarded invalid; a frame that is not EtherCAT is forwarded. -/
def execEcsFrame (port : Nat) (valid : Bool) (frame : List Byte) (s : State) : Host.Outcome State Fault Refusal :=
  finish s (
    if 2 ≤ port ∨ !escOpen s port then s
    else
      let out := 16 + escExit s port
      let bad := (s.count (FLD_ECS_CNT_VALUE port) 1).send (.badFrame out frame)
      if !valid then bad
      else if !isEthercat frame then s.send (.frame out frame)
      else match parseFrame frame with
        | none => bad
        | some ds =>
          let s := latchRx s port ds
          if port = 1 ∧ escOpen s 0 then s.send (.frame out frame)
          else
            let (s, ds) := processAll s ds
            s.send (.frame out (spliceBytes frame 16 (ds.flatMap Datagram.bytes))))

/-- ECS_LINK_LOSS (R450). -/
def execEcsLinkLoss (port : Nat) (s : State) : Host.Outcome State Fault Refusal :=
  finish s (
    if 2 ≤ port ∨ !escOpen s port then s
    else
      let s := { s with ecs := { s.ecs with open_ := s.ecs.open_.set port false } }
      (s.count (FLD_ECS_CNT_VALUE (2 + port)) 1).setOn FLD_ECS_EVT_LINK)

/-- ECS_LINK_REOPEN (R450): link has been up for 10 ms. -/
def execEcsLinkReopen (port : Nat) (s : State) : Host.Outcome State Fault Refusal :=
  finish s (if 2 ≤ port then s else { s with ecs := { s.ecs with open_ := s.ecs.open_.set port true } })

end Sys2Proof.Machine
end

