-- ==== Sys2Proof/Machine/Ethernet.lean ====
section
/-! DEFINITION. The Ethernet network path (R468–R470): rings of 32-byte descriptors in objects of context 0, receive and
transmit, timestamps, what is dropped. -/

namespace Sys2Proof.Machine

open Sys2Proof Sys2Proof.Machine.Reg

/-- An Ethernet port beside its registers. -/
def ethOf (s : State) (p : Nat) : EthPort := tgetD s.eths p { win := 0, n := 0, sending := false }

/-- Replace it. -/
def State.setEth (s : State) (p : Nat) (x : EthPort) : State := { s with eths := tset s.eths p x }

/-- Slots of the receive and the transmit ring: 4 to 12, others act as 4 (R475). -/
def rxSlots (s : State) (p : Nat) : Nat := ringSlots (s.get (FLD_ETH_RXRING_LOG2 p)) 4 12
def txSlots (s : State) (p : Nat) : Nat := ringSlots (s.get (FLD_ETH_TXRING_LOG2 p)) 4 12

/-- Address of the descriptor of an index. -/
def rxDesc (s : State) (p : Nat) : Nat :=
  s.get (FLD_ETH_RXRING_ADDR p) * 64 + s.get (FLD_ETH_RXPROD_INDEX p) % rxSlots s p * 32
def txDesc (s : State) (p : Nat) : Nat :=
  s.get (FLD_ETH_TXRING_ADDR p) * 64 + s.get (FLD_ETH_TXCONS_INDEX p) % txSlots s p * 32

/-- A frame is a PTP event message (R273): message types 0 to 3, over layer 2 or over UDP port 319. -/
def ptpEvent (frame : List Byte) : Bool :=
  let (t, o) := etherType frame
  if t = 0x88F7 then leField frame o 1 % 16 < 4
  else udpPort frame == some 319 && leField frame (o + 28) 1 % 16 < 4

/-- The TS128 of a frame captured at nanosecond `ts`; no timestamp for a frame that is not captured (R272, R273). -/
def ethStamp (s : State) (frame : List Byte) (ts : Nat) : List Byte :=
  if ptpEvent frame then ts128 (!s.epochMode) (ts * 65536) else List.replicate 16 0#8

/-- A frame is dropped and counted (R470). -/
def ethDrop (s : State) (p kind : Nat) : State :=
  let s := s.count (FLD_ETH_CNT_VALUE p kind) 1
  if kind = 2 then s.setOn (FLD_ETH_EVT_DROP p) else s

/-- The port accepts an EtherType (R468). -/
def ethAccepts (s : State) (p : Nat) (frame : List Byte) : Bool :=
  (etherType frame).1 == 0x88F7 || (p == 4 && s.on (FLD_ETH_CTL_ALLRX p))

/-- Frames accepted in the current ms. -/
def ethWindow (s : State) (p : Nat) : EthPort :=
  let x := ethOf s p
  if x.win = s.cyc / 1000000 then x else { x with win := s.cyc / 1000000, n := 0 }

/-- An accepted frame lands: its bytes in the buffer of 2 KiB, LEN and TS in the descriptor. LEN of a frame longer than
the field is free. -/
def ethLand (s : State) (p ts : Nat) (frame : List Byte) : State :=
  let d := rxDesc s p
  let (s, _, desc) := engineRead s 5 0 d 32
  let addr := bitsOf (word64 desc 0) 47 0
  let len := if frame.length < 2048 then frame.length else (Config.freeWord s.free).toNat % 2048
  let s := if frame.length < 2048 then s else { s with free := s.free + 1 }
  let (s, _) := engineWrite s 5 0 addr (frame.take 2048)
  let (s, _) := engineWrite s 5 0 (d + 8) (leBytes 8 (withBits (word64 desc 1) 10 0 len) ++ ethStamp s frame ts)
  (s.put (FLD_ETH_RXPROD_INDEX p) (s.get (FLD_ETH_RXPROD_INDEX p) + 1)).setOn (FLD_ETH_EVT_RX p)

/-- ETH_RX_FRAME (R468, R470): a frame without its FCS, whose message timestamp point was captured at nanosecond `ts`. -/
def execEthRxFrame (p ts : Nat) (fcsOk : Bool) (frame : List Byte) (s : State) : Host.Outcome State Fault Refusal :=
  finish s (
    if 5 ≤ p ∨ !s.on (FLD_ETH_CTL_ENABLE p) then s
    else match ethDropKind p fcsOk frame with
      | some k => ethDrop s p k
      | none =>
        if !ethAccepts s p frame then s
        else
          let x := ethWindow s p
          let lim := s.get (FLD_ETH_CTL_RXLIM p)
          let used := (s.get (FLD_ETH_RXPROD_INDEX p) + 65536 - s.get (FLD_ETH_RXCONS_INDEX p)) % 65536
          if rxSlots s p ≤ used ∨ (lim ≠ 0 ∧ lim ≤ x.n) then ethDrop s p 2
          else ethLand (s.setEth p { x with n := x.n + 1 }) p ts frame)

/-- A layer-2 PTP frame with the departure instant as its originTimestamp (R469): 48 bits of seconds, 32 of
nanoseconds, after the 34 bytes of the PTP header. -/
def oneStep (s : State) (frame : List Byte) : List Byte :=
  let (t, o) := etherType frame
  if t = 0x88F7 ∧ o + 44 ≤ frame.length then
    spliceBytes frame (o + 34) (beBytes 6 (s.nowNs / 1000000000 % 2 ^ 48) ++ beBytes 4 (s.nowNs % 1000000000))
  else frame

/-- ETH_TX_SEND (R468, R469): the frame of descriptor TXCONS departs at the present instant. -/
def execEthTxSend (p : Nat) (s : State) : Host.Outcome State Fault Refusal :=
  finish s (
    if 5 ≤ p ∨ !s.on (FLD_ETH_CTL_ENABLE p) ∨ !s.on (FLD_ETH_STAT_LINK p) ∨ (ethOf s p).sending ∨
        s.get (FLD_ETH_TXPROD_INDEX p) = s.get (FLD_ETH_TXCONS_INDEX p) then s
    else
      let (s, _, desc) := engineRead s 5 0 (txDesc s p) 32
      let len := bitsOf (word64 desc 1) 10 0
      let (s, _, frame) := engineRead s 5 0 (bitsOf (word64 desc 0) 47 0) len
      let frame := if bitOf (word64 desc 1) 17 then oneStep s frame else frame
      (s.send (.frame p frame)).setEth p { ethOf s p with sending := true })

/-- ETH_TX_DONE (R468): the frame has left; with TSREQ its timestamp, captured at nanosecond `ts`, goes into the
descriptor. -/
def execEthTxDone (p ts : Nat) (s : State) : Host.Outcome State Fault Refusal :=
  finish s (
    if 5 ≤ p ∨ !(ethOf s p).sending then s
    else
      let d := txDesc s p
      let (s, _, desc) := engineRead s 5 0 d 32
      let s := if bitOf (word64 desc 1) 16 then
          (engineWrite s 5 0 (d + 16) (ts128 (!s.epochMode) (ts * 65536))).1
        else s
      let s := s.put (FLD_ETH_TXCONS_INDEX p) (s.get (FLD_ETH_TXCONS_INDEX p) + 1)
      (s.setOn (FLD_ETH_EVT_TXDONE p)).setEth p { ethOf s p with sending := false })

/-- ETH_LINK_CHANGE (R324, R475). -/
def execEthLinkChange (p : Nat) (up : Bool) (s : State) : Host.Outcome State Fault Refusal :=
  finish s (
    if 5 ≤ p ∨ s.on (FLD_ETH_STAT_LINK p) = up then s
    else
      let s := (s.put (FLD_ETH_STAT_LINK p) (ofBool up)).setOn (FLD_ETH_EVT_LINK p)
      if p < 4 then s.put SNS_LINK_ETH (withBits (s.get SNS_LINK_ETH) p p (ofBool up)) else s)

end Sys2Proof.Machine
end

