-- ==== Sys2Proof/Machine/HartPrivate.lean ====
section
/-! DEFINITION. A control hart's accesses in its private map (R376, R377, R382, R383): TCM, shared SRAM, control PSRAM,
and what goes on to registers and to the Fabric Address Space. -/

namespace Sys2Proof.Machine

open Sys2Proof Sys2Proof.Machine.Reg

/-- The time CSR of every control hart: SEC × 10^9 + NS of Bandstand time, W in wrap mode (R375). -/
def hartTimeCsr (s : State) : Nat := s.nowNs

/-- What an address of the private map reaches. -/
inductive PrivateTarget where
  /-- A byte of the Belvedere SRAM: its place. -/
  | sram (place : Nat)
  /-- A byte of a control PSRAM device. -/
  | psram (d ofs : Nat)
  /-- A register, as the address names it. -/
  | reg (a : Nat)
  /-- A byte of the Fabric Address Space. -/
  | fas (a : Nat)
  /-- A reserved address. -/
  | reserved
  deriving DecidableEq, Repr

/-- The run of `len` bytes from `a` lies in a range. -/
def runIn (a len lo size : Nat) : Bool := lo ≤ a && a + len ≤ lo + size

/-- The private map of hart `h` (R377). -/
def privateTarget (h a len : Nat) : PrivateTarget :=
  if runIn a len 0 0x40000 then .sram (tcmPlace h 0 a)
  else if runIn a len 0x40000 0x40000 then .sram (tcmPlace h 1 (a - 0x40000))
  else if 0x10000000 ≤ a ∧ a < 0x10400000 then
    let j := (a - 0x10000000) / 0x100000
    let o := (a - 0x10000000) % 0x100000
    if o + len ≤ 0x80000 then .sram (tcmPlace j 0 o) else .reserved
  else if runIn a len 0x20000000 0x100000 then .sram (areaBase areaShared + (a - 0x20000000))
  else if runIn a len 0x40000000 0x3C00000 then .psram 0 (a - 0x40000000)
  else if runIn a len 0x50000000 0x3C00000 then .psram 1 (a - 0x50000000)
  else if runIn a len 0x80000000 0x1000000 then .reg a
  else if runIn a len 0x100000000000 0x10000000 then .reg a
  else if runIn a len 0x800000000000 0x10000000000 then .fas (a - 0x800000000000)
  else .reserved

/-- An access of `len` bytes reads the memory word or block it lies in: a load, a fetch, or a store of less than the
unit. -/
def readsUnit (write : Bool) (a len unit : Nat) : Bool := !write || a % unit != 0 || len % unit != 0

/-- An access of the Belvedere SRAM (R382): 64-bit words under SECDED. -/
def sramAccess (s : State) (write : Bool) (place len : Nat) (data : List Byte) (ecc : Nat) : State :=
  let reads := readsUnit write place len 8
  if reads && ecc == 2 then (s.count BLV_SRAM_UE_VALUE 1).answer .accessFault
  else
    let s := if reads && ecc == 1 then s.count BLV_SRAM_CE_VALUE 1 else s
    if write then (s.store place (padBytes len data)).answer .none else s.answer (.bytes (s.load place len))

/-- An access of a control PSRAM device (R208, R383): 32-byte blocks with inline ECC and poison. -/
def psramAccess (s : State) (h : Nat) (write : Bool) (d ofs len : Nat) (data : List Byte) (ecc : Nat) : State :=
  let place := psramPlace d ofs
  let reads := readsUnit write place len 32
  if reads && (ecc == 2 || !(poisonedIn s place len).isEmpty) then (s.psramUe d 0 h ofs).answer .accessFault
  else
    let s := if reads && ecc == 1 then s.count (BLV_HRC_CE_VALUE d) 1 else s
    if write then ((s.store place (padBytes len data)).unpoison place len).answer .none
    else s.answer (.bytes (s.load place len))

/-- A load or store of hart `h`. A store through the range of its own I-TCM, which the map gives for fetch and load,
does nothing. -/
def privateAccess (s : State) (h : Nat) (write : Bool) (a len : Nat) (data : List Byte) (ecc : Nat) : State :=
  match privateTarget h a len with
  | .sram place => if write ∧ a < 0x40000 then s.answer .none else sramAccess s write place len data ecc
  | .psram d ofs => psramAccess s h write d ofs len data ecc
  | .reg a =>
    if write then (regWrite s (.ctl h) a len (leNat (padBytes len data))).answer .none
    else
      let (s, v) := regRead s (.ctl h) a len
      s.answer (.bytes (leBytes len v))
  | .fas a => fasAccess s (.ctl h) write a len data ecc
  | .reserved =>
    (s.violation 0 2 0 a write).answer (if write then .none else .bytes (List.replicate len 0#8))

/-- HART_PRIVATE_ACCESS (R376, R377, R382, R383): `kind` 0 a fetch, 1 a load, 2 a store. `ecc` is what the memory read
meets: 0 nothing, 1 a corrected error, 2 an uncorrectable one (on main memory as FAS_ACCESS has it). A fetch outside the
hart's own I-TCM faults. -/
def execHartPrivateAccess (h kind addr len : Nat) (data : List Byte) (ecc : Nat) (s : State) :
    Host.Outcome State Fault Refusal :=
  finish s (
    if 4 ≤ h ∨ 3 ≤ kind ∨ len = 0 ∨ 8 < len then s
    else if kind = 0 then
      (if runIn addr len 0 0x40000 then sramAccess s false (tcmPlace h 0 addr) len [] ecc else s.answer .accessFault)
    else privateAccess s h (kind == 2) addr len data ecc)

end Sys2Proof.Machine
end

