-- ==== Sys2Proof/Machine/Pcie.lean ====
section
/-! DEFINITION. The PCIe endpoint (R471–R474): BARs, requests in pieces, MSI-X, the link, reads without completion. -/

namespace Sys2Proof.Machine

open Sys2Proof Sys2Proof.Machine.Reg

/-! ### MSI-X (R474) -/

/-- Vector `v` is unmasked: a message that its pending bit holds is sent. -/
def msixUnmask (s : State) (v : Nat) : State :=
  let x := s.msix
  let s' := { s with msix := { x with masked := x.masked.filter (· ≠ v), pend := x.pend.filter (· ≠ v) } }
  if v ∈ x.pend then s'.send (.msix v) else s'

/-- Vector `v` is masked. -/
def msixMask (s : State) (v : Nat) : State :=
  if v ∈ s.msix.masked then s else { s with msix := { s.msix with masked := v :: s.msix.masked } }

/-- MSIX_UNMASK (R474). -/
def execMsixUnmask (v : Nat) (s : State) : Host.Outcome State Fault Refusal :=
  finish s (if v < 32 then msixUnmask s v else s)

/-- A 32-bit word of BAR4: the table of 32 entries of four words, then the pending bits (R471). -/
def bar4Word (s : State) (ofs : Nat) : Nat :=
  if ofs < 512 then
    (if ofs % 16 = 12 then ofBool (s.msix.masked.contains (ofs / 16)) else (tgetD s.msix.table ofs 0#32).toNat)
  else if ofs = 512 then maskOf 32 fun v => s.msix.pend.contains v
  else 0

/-- A write of one; bit 0 of an entry's fourth word masks its vector. -/
def bar4Write (s : State) (ofs : Nat) (w : Word32) : State :=
  if 512 ≤ ofs then s
  else if ofs % 16 = 12 then (if w.toNat % 2 = 1 then msixMask s (ofs / 16) else msixUnmask s (ofs / 16))
  else { s with msix := { s.msix with table := tset s.msix.table ofs w } }

/-! ### Requests (R471, R472) -/

/-- The 64-byte-aligned pieces of a request: offset and length. -/
def piecesOf (ofs len : Nat) : List (Nat × Nat) :=
  if len = 0 then []
  else (List.range ((ofs + len - 1) / 64 + 1 - ofs / 64)).map fun k =>
    let lo := max ofs ((ofs / 64 + k) * 64)
    let hi := min (ofs + len) ((ofs / 64 + k + 1) * 64)
    (lo, hi - lo)

/-- A piece of a request to a BAR: the state, its answer in `bus`. -/
def pciePiece (s : State) (write : Bool) (bar ofs len : Nat) (data : List Byte) : State :=
  match bar with
  | 0 =>
    if write then (regWrite s .pcie (0x100000000000 + ofs) len (leNat (padBytes len data))).answer .none
    else
      let (s, v) := regRead s .pcie (0x100000000000 + ofs) len
      s.answer (.bytes (leBytes len v))
  | 2 => fasAccess s .pcie write (s.get FLD_PCI_BAR2WIN_BASE * 2 ^ 30 + ofs) len data 0
  | 4 =>
    let words := (List.range' (ofs / 4) ((ofs + len + 3) / 4 - ofs / 4)).map (· * 4)
    let old := words.flatMap fun w => leBytes 4 (bar4Word s w)
    if write then
      let new := spliceBytes old (ofs % 4) (padBytes len data)
      ((words.zip (List.range words.length)).foldl (fun (s : State) p =>
        bar4Write s p.1 (BitVec.ofNat 32 (leField new (4 * p.2) 4))) s).answer .none
    else s.answer (.bytes ((old.drop (ofs % 4)).take len))
  | _ => s.answer (if write then .none else .bytes (List.replicate len 0#8))

/-- Bytes of a BAR (R471). -/
def barSize (s : State) (bar : Nat) : Nat :=
  match bar with
  | 0 => 2 ^ 28
  | 2 => 2 ^ s.msix.barLog
  | 4 => 4096
  | _ => 0

/-- Two answers of one request together: one poisoned piece poisons it. -/
def joinReply : Reply → Reply → Reply
  | .bytes a, .bytes b => .bytes (a ++ b)
  | .poisoned, _ => .poisoned
  | _, .poisoned => .poisoned
  | _, r => r

/-- A write of configuration space: the command word's bit 2 is Bus Master Enable, and BAR2's size code (powers of two
from 1 MiB, 10 to 20 for 1 GiB to 1 TiB) stands in bits 13 to 8 of its Resizable BAR control word (PRESUMED, log entry
41). -/
def configWrite (s : State) (ofs v : Nat) : State :=
  if ofs = 4 then s.put FLD_PCI_STAT_BME (v / 4)
  else if ofs = 0x208 ∧ 10 ≤ bitsOf v 13 8 ∧ bitsOf v 13 8 ≤ 20 then
    { s with msix := { s.msix with barLog := 20 + bitsOf v 13 8 } }
  else s

/-- PCIE_REQUEST (R472): a request to BAR 0, 2 or 4, in pieces, for the context of SCH_PCI_CTX; BAR 6 stands for
configuration space. A request beyond a BAR meets no piece of the device. -/
def execPcieRequest (write : Bool) (bar ofs len : Nat) (data : List Byte) (s : State) :
    Host.Outcome State Fault Refusal :=
  finish s (
    if bar = 6 then (if write then configWrite s ofs (leNat data) else s)
    else if barSize s bar < ofs + len then s
    else
      let first : Reply := if write then .none else .bytes []
      (piecesOf ofs len).foldl (fun (s : State) p =>
        let before := s.bus
        let s := pciePiece s write bar p.1 p.2 ((data.drop (p.1 - ofs)).take p.2)
        s.answer (joinReply before s.bus)) (s.answer first))

/-! ### The link, reads without completion (R473, R475) -/

/-- PCIE_LINK_CHANGE (R475): with the link down, no bus master is enabled. -/
def execPcieLinkChange (up : Bool) (gen width : Nat) (s : State) : Host.Outcome State Fault Refusal :=
  finish s (
    let s := (s.put FLD_PCI_STAT_LINKUP (ofBool up)).setOn FLD_PCI_EVT_LINKCHG
    if up then (s.put FLD_PCI_STAT_GEN gen).put FLD_PCI_STAT_WIDTH width
    else ((s.put FLD_PCI_STAT_GEN 0).put FLD_PCI_STAT_WIDTH 0).put FLD_PCI_STAT_BME 0)

/-- The PULL of core `n` that waits for `tile` of a HOST-tier object. -/
def hostPull (s : State) (n tile : Nat) : Option Cmd :=
  match jobOf s n with
  | none => none
  | some (ctx, _) =>
    ((coreOf s n).queue 4).find? fun q =>
      dOpc q.desc == 8 && tile < q.unit && !q.landed.contains tile &&
        (match resolve s false ctx (mvAddr q.desc + tile * 65536) 65536 false with
         | .ok (_, e) => e.tier == 4
         | .error _ => false)

/-- PCIE_COMPLETION_TIMEOUT (R207, R473): a HOST-tier read ends without a completion. `kind` 0: tile n / 8 of a PULL of
core n % 8; 1: a tile of the migration of object n; 2: a load of application hart n (0 to 7) or control hart n − 8;
others: a read of the device's own engines. -/
def execPcieCompletionTimeout (kind n : Nat) (s : State) : Host.Outcome State Fault Refusal :=
  finish s (
    let cto := fun (s : State) => (s.count (FLD_PCI_CNT_VALUE 0) 1).setOn FLD_PCI_EVT_CTO
    match kind with
    | 0 =>
      match hostPull s (n % 8) (n / 8) with
      | some c => if coreLive s (n % 8) then pullFails (cto s) (n % 8) c (n / 8) else s
      | none => s
    | 1 =>
      match tget s.plt n with
      | some e => if (e.st = 2 ∨ e.st = 3) ∧ e.tier = 4 then migrationTile (cto s) n true [] [] else s
      | none => s
    | 2 =>
      let who : Initiator := if n < 8 then .app n else .ctl (n - 8)
      ((cto s).logUe 2 0 1 (ctxOf s who) none).ueAnswer who
    | _ => (cto s).logUe ((Config.freeWord (s.free + 1)).toNat % 8) 0 1 0 none)

end Sys2Proof.Machine
end

