-- ==== Sys2Proof/Machine/Subdevice.lean ====
section
/-! DEFINITION. The EtherCAT SubDevice: its state machine (R445, R446), process data (R457, R458), the CoE mailbox
(R447, R448), Emergency messages (R459), distributed-clock events. The bytes of mailbox, SDO, SDO Information and Emergency
messages are those of ETG.1000.6 (PRESUMED, log entry 40). -/

namespace Sys2Proof.Machine

open Sys2Proof Sys2Proof.Machine.Reg

/-! ### The state machine (R445, R446) -/

/-- The AL state changes. -/
def setAl (s : State) (st : Nat) : State := (s.put FLD_ECS_STAT_ALSTAT st).setOn FLD_ECS_EVT_STATECHG

/-- A refusal, or a fall, with its AL status code. -/
def alError (s : State) (code : Nat) : State :=
  let s := s.put FLD_ECS_STAT_ALCODE code
  { s with ecs := { s.ecs with err := true } }

/-- SYNC0 is active: cyclic operation and SYNC0 output on, as IEC 61158 Type 12 places them. -/
def sync0Active (s : State) : Bool := escNat s 0x981 1 % 4 == 3

/-- Code that refuses PREOP to SAFEOP (R445). -/
def safeopRefused (s : State) : Option Nat :=
  if imageBytes (pdoEntries s 0x1C12) ≠ smLen s 2 ∨ !pdoImageOk s true then some 0x001D
  else if imageBytes (pdoEntries s 0x1C13) ≠ smLen s 3 ∨ !pdoImageOk s false then some 0x001E
  else if dictRd s 0x1C32 1 = 2 ∧ (!sync0Active s ∨ escNat s 0x9A0 4 < 31250) then some 0x0030
  else none

/-- Code that refuses a requested state: R445's table; a state that does not follow, and a code that names none, by the
EtherCAT state machine. -/
def alRefused (s : State) (st : Nat) : Option Nat :=
  let cur := alState s
  if !s.on FLD_ECS_CTRL_ENABLE ∨ st = 3 then some 0x0011
  else if st ≠ 1 ∧ st ≠ 2 ∧ st ≠ 4 ∧ st ≠ 8 then some 0x0012
  else if st ≤ cur then none
  else if cur = 1 ∧ st = 2 then
    (if smStart s 0 = 0x1000 ∧ smLen s 0 = 512 ∧ smStart s 1 = 0x1200 ∧ smLen s 1 = 512 then none else some 0x0016)
  else if cur = 2 ∧ st = 4 then safeopRefused s
  else if cur = 4 ∧ st = 8 then none
  else some 0x0011

/-- The SubDevice enters OP: the watchdog and the count of missed events start. -/
def enterOp (s : State) : State :=
  let s := dictWr s 0x1C32 0x20 0
  { s with ecs := { s.ecs with missOp := dictRd s 0x1C32 0x0B, sm2At := s.cyc } }

/-- ECS_AL_REQUEST (R445, R535): bits 3 to 0 of the AL control word name a state. A request that is taken clears
FLD_ECS_STAT_ERR, and so does one that acknowledges with bit 4. -/
def execEcsAlRequest (ctl : Nat) (s : State) : Host.Outcome State Fault Refusal :=
  finish s (
    let st := ctl % 16
    let s := if ctl.testBit 4 then { s with ecs := { s.ecs with err := false } } else s
    let s := onIf (st ≠ 1) (·.wake 1) s
    match alRefused s st with
    | some code => alError s code
    | none =>
      let s := { s with ecs := { s.ecs with err := false } }
      if st = alState s then s
      else
        let s := setAl s st
        if st = 1 then ecsToInit s else if st = 8 then enterOp s else s)

/-- The SubDevice falls from OP to SAFEOP (R446). -/
def fallToSafeop (s : State) (code : Nat) : State := alError (setAl s 4) code

/-- ECS_WATCHDOG_EXPIRE (R446): 100 ms in OP without an SM2 buffer. -/
def execEcsWatchdogExpire (s : State) : Host.Outcome State Fault Refusal :=
  finish s (
    if alState s ≠ 8 ∨ s.cyc < s.ecs.sm2At + 100000000 then s
    else (fallToSafeop s 0x001B).setOn FLD_ECS_EVT_WDOG)

/-! ### Process data (R457, R458) -/

/-- A value copied into a mapped object: setpoint, feedback or feed-forward of a loop. -/
def applyOutput (s : State) (idx sub v : Nat) : State :=
  let n := idx - 0x2400
  match sub with
  | 5 => s.put (BLV_CLE_L_RIN_VALUE n) v
  | 6 => s.put (BLV_CLE_L_YIN_VALUE n) v
  | 7 => s.put (BLV_CLE_L_FFIN_VALUE n) v
  | _ => s

/-- An SM2 buffer copied into every mapped object. -/
def applyOutputs (s : State) (es : List (Nat × Nat × Nat)) (bs : List Byte) : State :=
  match es with
  | [] => s
  | e :: rest =>
    let n := e.2.2 / 8
    let s := if 0x2400 ≤ e.1 ∧ e.1 < 0x2440 then applyOutput s e.1 e.2.1 (leNat (bs.take n)) else s
    applyOutputs s rest (bs.drop n)

/-- The TxPDO image of the present instant. -/
def inputImage (s : State) : List Byte :=
  (pdoEntries s 0x1C13).flatMap fun e =>
    if e.1 = 0 then List.replicate (e.2.2 / 8) 0#8 else leBytes (e.2.2 / 8) (objValue s e.1 e.2.1)

/-- The TxPDO values are captured and written into SM3 whole. -/
def captureInputs (s : State) : State := escStore s (smStart s 3) (inputImage s)

/-- The newest buffer is copied; in SAFEOP no output is applied (R446). -/
def copyOutputs (s : State) : State :=
  let s' := if alState s = 8 then applyOutputs s (pdoEntries s 0x1C12) s.ecs.sm2 else s
  { s' with ecs := { s'.ecs with fresh := false } }

/-- Process data is exchanged: SAFEOP and OP. -/
def exchanging (s : State) : Bool := 4 ≤ alState s

/-- Increment a dictionary counter of 16 bits, saturating. -/
def dictCount (s : State) (idx sub : Nat) : State := dictWr s idx sub (satAdd 16 (dictRd s idx sub) 1)

/-- A SYNC0 event with no new buffer since the previous one (R446, R458). -/
def missedSync (s : State) : State :=
  let s := dictCount s 0x1C32 0x0B
  if alState s = 8 ∧ s.ecs.missOp + dictRd s 0x10F1 2 < dictRd s 0x1C32 0x0B then
    (fallToSafeop (dictWr s 0x1C32 0x20 1) 0x001A).setOn FLD_ECS_EVT_SYNCERR
  else s

/-- The measured SYNC0 period, and the count of periods that are too small (R458). -/
def measureSync (s : State) : State :=
  let s' := match s.ecs.sync0 with
    | some t =>
      let per := (s.cyc - t) % 2 ^ 32
      let s := dictWr s 0x1C32 2 per
      onIf (alState s == 8 && s.cyc - t < 31250) (dictCount · 0x1C32 0x0C) s
    | none => s
  { s' with ecs := { s'.ecs with sync0 := some s.cyc } }

/-- Offset of the distributed clock against Bandstand time, in 2^-16 ns (R279). -/
def dcOffset (s : State) (dcTime : Nat) : Int :=
  ((dcTime : Int) + s.getInt TIM_SRC_EPOCHOFS_SEC * 1000000000) * 65536 - s.now16

/-- ECS_SYNC0 (R279, R446, R458): `dcTime` is the distributed-clock system time in ns since 2000-01-01. -/
def execEcsSync0 (dcTime : Nat) (s : State) : Host.Outcome State Fault Refusal :=
  finish s (
    let s := (takeOffset s 6 (dcOffset s dcTime) true).pulse 65
    let s := measureSync s
    if dictRd s 0x1C32 1 ≠ 2 ∨ !exchanging s then s
    else
      let s := { s with ecs := { s.ecs with capDue := some (s.cyc + dictRd s 0x1C33 3) } }
      if s.ecs.fresh then copyOutputs s else missedSync s)

/-- ECS_SM2_BUFFER (R458): a complete buffer arrives; with sync type 1 outputs are copied and inputs captured. -/
def execEcsSm2Buffer (data : List Byte) (s : State) : Host.Outcome State Fault Refusal :=
  finish s (
    if !exchanging s ∨ data.length ≠ smLen s 2 then s
    else
      let s := escStore s (smStart s 2) data
      let s := { s with ecs := { s.ecs with sm2 := data, fresh := true, sm2At := s.cyc } }
      if dictRd s 0x1C32 1 = 1 then captureInputs (copyOutputs s) else s)

/-- ECS_INPUT_CAPTURE (R458): SYNC0 + 0x1C33:03 has come. -/
def execEcsInputCapture (s : State) : Host.Outcome State Fault Refusal :=
  finish s (
    match s.ecs.capDue with
    | some t =>
      if exchanging s ∧ t ≤ s.cyc then captureInputs { s with ecs := { s.ecs with capDue := none } } else s
    | none => s)

/-- SYNC1 (R477). -/
def execSync1 (s : State) : Host.Outcome State Fault Refusal := finish s (s.pulse 66)

/-! ### Mailbox messages -/

/-- A mailbox message of a type, its counter that of the request. -/
def mailboxBytes (ty cnt : Nat) (body : List Byte) : List Byte :=
  leBytes 2 body.length ++ leBytes 2 0 ++ leBytes 1 0 ++ leBytes 1 (ty % 16 + cnt % 8 * 16) ++ body

/-- A message is written into SM1; while SM1 holds another, it waits. -/
def mailboxPut (s : State) (ty cnt : Nat) (body : List Byte) : State :=
  let bs := padBytes (smLen s 1) (mailboxBytes ty cnt body)
  if s.ecs.outFull then { s with ecs := { s.ecs with late := some bs } }
  else { escStore s (smStart s 1) bs with ecs := { s.ecs with outFull := true } }

/-- A CoE message of a service. -/
def coeBytes (service : Nat) (body : List Byte) : List Byte := leBytes 2 (service * 4096) ++ body

/-- An SDO answer of eight bytes: command, index, subindex, data. -/
def sdoBytes (cmd idx sub data : Nat) : List Byte := leBytes 1 cmd ++ leBytes 2 idx ++ leBytes 1 sub ++ leBytes 4 data

/-- A mailbox error reply (R448). -/
def mailboxError (s : State) (cnt code : Nat) : State :=
  let s := (s.count (FLD_ECS_CNT_VALUE 5) 1).setOn FLD_ECS_EVT_MBXERR
  mailboxPut s 0 cnt (leBytes 2 1 ++ leBytes 2 code)

/-- Bytes of data that an SDO answer holds beside its headers. -/
def sdoRoom (s : State) (headers : Nat) : Nat := smLen s 1 - 6 - headers

/-- The transfer in progress ends. -/
def endSegment (s : State) : State := { s with ecs := { s.ecs with seg := none } }

/-- An SDO abort: counted, answered, the transfer over (R451). -/
def abortBytes (idx sub code : Nat) : List Byte := coeBytes 2 (sdoBytes 0x80 idx sub code)

/-- Answer of the CoE server: the state, and the body of the answer where there is one. -/
abbrev CoeAnswer := State × Option (List Byte)

/-- A refusal. -/
def coeAbort (s : State) (idx sub code : Nat) : CoeAnswer := (endSegment (sdoAbort s), some (abortBytes idx sub code))

/-! ### SDO transfers (R447, R448, R451) -/

/-- An upload begins: up to four bytes expedited, what fits in the mailbox at once, the rest in segments. -/
def uploadBegin (s : State) (idx sub : Nat) (complete : Bool) : CoeAnswer :=
  match sdoRead s idx sub complete with
  | .error c => coeAbort s idx sub c
  | .ok bs =>
    let s := afterUpload (endSegment s) idx sub complete
    let ca := 16 * ofBool complete
    if bs.length ≤ 4 ∧ bs ≠ [] then
      (s, some (coeBytes 3 (sdoBytes (0x43 + ca + (4 - bs.length) * 4) idx sub (leNat bs))))
    else
      let room := sdoRoom s 10
      let answer := coeBytes 3 (sdoBytes (0x41 + ca) idx sub bs.length ++ bs.take room)
      if bs.length ≤ room then (s, some answer)
      else
        let x : SdoSeg := { up := true, idx := idx, sub := sub, complete := complete, toggle := false, data := bs.drop room,
                            size := bs.length, at_ := s.cyc }
        ({ s with ecs := { s.ecs with seg := some x } }, some answer)

/-- A download ends: the object is written, and the answer confirms it. -/
def downloadEnd (s : State) (idx sub : Nat) (complete : Bool) (data answer : List Byte) : CoeAnswer :=
  match sdoDownload s idx sub complete data with
  | (s, none) => (endSegment s, some (coeBytes 3 answer))
  | (s, some c) => (endSegment s, some (abortBytes idx sub c))

/-- A download begins: expedited, whole in the mailbox, or to be continued in segments. -/
def downloadBegin (s : State) (idx sub cmd : Nat) (rest : List Byte) : CoeAnswer :=
  let complete := cmd.testBit 4
  let answer := sdoBytes (0x60 + 16 * ofBool complete) idx sub 0
  if cmd.testBit 1 then
    let n := if cmd.testBit 0 then 4 - bitsOf cmd 3 2 else 4
    downloadEnd s idx sub complete (rest.take n) answer
  else
    let size := leField rest 0 4
    let data := (rest.drop 4).take size
    if size ≤ data.length then downloadEnd s idx sub complete data answer
    else
      let x : SdoSeg := { up := false, idx := idx, sub := sub, complete := complete, toggle := false, data := data,
                          size := size, at_ := s.cyc }
      ({ s with ecs := { s.ecs with seg := some x } }, some (coeBytes 3 answer))

/-- A segment of an upload. -/
def uploadSegment (s : State) (x : SdoSeg) (toggle : Bool) : CoeAnswer :=
  if toggle ≠ x.toggle then coeAbort s x.idx x.sub 0x05030000
  else
    let room := sdoRoom s 3
    let part := x.data.take room
    let last := x.data.length ≤ room
    let cmd := 16 * ofBool toggle + (7 - part.length) * 2 + ofBool last
    let x' : SdoSeg := { x with toggle := !toggle, data := x.data.drop room, at_ := s.cyc }
    ({ s with ecs := { s.ecs with seg := if last then none else some x' } },
      some (coeBytes 3 (leBytes 1 cmd ++ padBytes (max 7 part.length) part)))

/-- A segment of a download. -/
def downloadSegment (s : State) (x : SdoSeg) (cmd : Nat) (body : List Byte) : CoeAnswer :=
  let toggle := cmd.testBit 4
  if toggle ≠ x.toggle then coeAbort s x.idx x.sub 0x05030000
  else
    let part := if body.length = 7 then body.take (7 - bitsOf cmd 3 1) else body
    let data := x.data ++ part
    let answer := padBytes 8 (leBytes 1 (0x20 + 16 * ofBool toggle))
    if cmd.testBit 0 then
      (if data.length = x.size then downloadEnd s x.idx x.sub x.complete data answer
       else coeAbort s x.idx x.sub 0x06070010)
    else
      let x' : SdoSeg := { x with toggle := !toggle, data := data, at_ := s.cyc }
      ({ s with ecs := { s.ecs with seg := some x' } }, some (coeBytes 3 answer))

/-- An SDO request: its command specifier is in the upper three bits. -/
def sdoRequest (s : State) (body : List Byte) : CoeAnswer :=
  let cmd := leField body 0 1
  let idx := leField body 1 2
  let sub := leField body 3 1
  match cmd / 32, s.ecs.seg with
  | 1, _ => downloadBegin (endSegment s) idx sub cmd (body.drop 4)
  | 2, _ => uploadBegin (endSegment s) idx sub (cmd.testBit 4)
  | 0, some x => if x.up then coeAbort s x.idx x.sub 0x05040001 else downloadSegment s x cmd (body.drop 1)
  | 3, some x => if x.up then uploadSegment s x (cmd.testBit 4) else coeAbort s x.idx x.sub 0x05040001
  | 4, _ => (endSegment s, none)
  | _, _ => coeAbort s idx sub 0x05040001

/-! ### SDO Information -/

/-- Indices of the dictionary, ascending. -/
def allIndices : List Nat := sortBy Nat.ble (objRows.flatMap fun r => List.range' r.idx r.count).eraseDups

/-- Indices of an OD list: 1 all, 2 mappable into the RxPDO, 3 into the TxPDO; others name none. -/
def odList (ty : Nat) : List Nat :=
  match ty with
  | 1 => allIndices
  | 2 => allIndices.filter fun i => (objectRows i).any (·.rx)
  | 3 => allIndices.filter fun i => (objectRows i).any (·.tx)
  | _ => []

/-- Access word of an entry: readable and writable in PREOP, SAFEOP, OP; mappable. -/
def accessWord (r : ObjRow) : Nat :=
  let rd := if r.acc = .wo then 0 else 7
  let wr := match r.acc with
    | .ro => 0
    | .rwp => 8
    | _ => 0x38
  rd + wr + 64 * ofBool r.rx + 128 * ofBool r.tx

/-- An undetermined field of an answer: data types and object codes have no number in the spec. -/
def freeField (s : State) (n k : Nat) : List Byte := (List.range n).map fun i => Config.freeByte s.free (k + i)

/-- An SDO Information answer: opcode, fragments left, data. -/
def infoBytes (op : Nat) (data : List Byte) : List Byte := coeBytes 8 (leBytes 1 op ++ leBytes 1 0 ++ leBytes 2 0 ++ data)

/-- An SDO Information request (R443): OD lists, object descriptions, entry descriptions. -/
def infoRequest (s : State) (body : List Byte) : CoeAnswer :=
  let op := leField body 0 1 % 128
  let a := leField body 4 2
  let sub := leField body 6 1
  let fresh := { s with free := s.free + 1 }
  match op with
  | 1 =>
    if a = 0 then
      (s, some (infoBytes 2 (leBytes 2 0 ++ (List.range 5).flatMap fun i => leBytes 2 (odList (i + 1)).length)))
    else (s, some (infoBytes 2 (leBytes 2 a ++ (odList a).flatMap (leBytes 2))))
  | 3 =>
    if (objectRows a).isEmpty then (s, some (infoBytes 7 (leBytes 4 0x06020000)))
    else (fresh, some (infoBytes 4 (leBytes 2 a ++ freeField s 2 0 ++ leBytes 1 (highestSub a) ++ freeField s 1 2)))
  | 5 =>
    match objRow a sub with
    | .error c => (s, some (infoBytes 7 (leBytes 4 c)))
    | .ok r =>
      (fresh, some (infoBytes 6 (leBytes 2 a ++ leBytes 1 sub ++ leBytes 1 0 ++ freeField s 2 0 ++
        leBytes 2 (if r.bits = 0 then (objString s a).length * 8 else r.bits) ++ leBytes 2 (accessWord r))))
  | _ => (s, some (infoBytes 7 (leBytes 4 0x05040001)))

/-! ### The CoE server (R447, R448) -/

/-- Requests in any window of 1 ms. -/
def mailboxRate (s : State) : Nat := max 1 (min 16 (s.get FLD_ECS_MBXRATE_RATE))

/-- Requests taken in the last ms. -/
def takenLately (s : State) : List Nat := s.ecs.taken.filter fun t => s.cyc < t + 1000000

/-- The request of SM0, answered. -/
def serveMailbox (s : State) (msg : List Byte) : State :=
  let len := leField msg 0 2
  let ty := leField msg 5 1 % 16
  let cnt := leField msg 5 1 / 16
  let body := (msg.drop 6).take len
  if smLen s 0 < len + 6 then mailboxError s cnt 7
  else if ty ≠ 3 then mailboxError s cnt 2
  else
    let service := leField body 0 2 / 4096
    let rest := body.drop 2
    let reply := fun (r : CoeAnswer) =>
      match r with
      | (s, some bs) => mailboxPut s 3 cnt bs
      | (s, none) => s
    if service = 2 then (if rest.length < 8 then mailboxError s cnt 7 else reply (sdoRequest s rest))
    else if service = 8 then (if rest.length < 6 then mailboxError s cnt 7 else reply (infoRequest s rest))
    else mailboxError s cnt 2

/-- MBX_REQUEST (R447): the next request is taken, unless SM1 still holds a response; beyond the rate it stays in SM0 and
is counted once. -/
def execMbxRequest (s : State) : Host.Outcome State Fault Refusal :=
  finish s (
    if !s.ecs.inFull ∨ s.ecs.outFull ∨ alState s < 2 then s
    else if mailboxRate s ≤ (takenLately s).length then
      if s.ecs.held then s
      else { s.count (FLD_ECS_CNT_VALUE 4) 1 with ecs := { s.ecs with held := true } }
    else
      let msg := escLoad s (smStart s 0) (smLen s 0)
      serveMailbox
        { s with ecs := { s.ecs with inFull := false, held := false, taken := takenLately s ++ [s.cyc] } } msg)

/-- SDO_SEGMENT_TIMEOUT (R448): 1 s without the next segment; the abort waits where SM1 is not empty. -/
def execSdoSegmentTimeout (s : State) : Host.Outcome State Fault Refusal :=
  finish s (
    match s.ecs.seg with
    | some x =>
      if s.cyc < x.at_ + 1000000000 then s
      else
        mailboxPut ((endSegment (sdoAbort s)).answer (.abort 0x05040000)) 3 0 (abortBytes x.idx x.sub 0x05040000)
    | none => s)

/-- EMERGENCY_SEND (R459): the oldest Emergency message goes into SM1. -/
def execEmergencySend (s : State) : Host.Outcome State Fault Refusal :=
  finish s (
    match s.emcy with
    | [] => s
    | e :: rest =>
      if s.ecs.outFull ∨ alState s < 2 then s
      else
        let body := leBytes 2 e.code ++ leBytes 1 (objValue s 0x1001 0) ++ leBytes 5 e.data
        mailboxPut { s with emcy := rest } 3 0 (coeBytes 1 body))

end Sys2Proof.Machine
end

