-- ==== Sys2Proof/Machine/Dispatch.lean ====
section
/-! DEFINITION. The dispatch: one arm per command. -/

namespace Sys2Proof.Machine

open Sys2Proof

/-- The effect of a command on everything but the queue. -/
def exec (i : Instr) (s : State) : Host.Outcome State Fault Refusal :=
  match i with
  | .registerWrite who addr size val => Sys2Proof.Machine.execRegisterWrite who addr size val s
  | .registerWriteLowerHalf who addr val => Sys2Proof.Machine.execRegisterWriteLowerHalf who addr val s
  | .registerReadLowerHalf who addr => Sys2Proof.Machine.execRegisterReadLowerHalf who addr s
  | .counterClear who addr val => Sys2Proof.Machine.execCounterClear who addr val s
  | .descriptorFetch n => Sys2Proof.Machine.execDescriptorFetch n s
  | .dispatch n => Sys2Proof.Machine.execDispatch n s
  | .load n => Sys2Proof.Machine.execLoad n s
  | .matmul n => Sys2Proof.Machine.execMatmul n s
  | .conv n => Sys2Proof.Machine.execConv n s
  | .pool n => Sys2Proof.Machine.execPool n s
  | .roia n => Sys2Proof.Machine.execRoia n s
  | .attn n => Sys2Proof.Machine.execAttn n s
  | .vec n => Sys2Proof.Machine.execVec n s
  | .pull n => Sys2Proof.Machine.execPull n s
  | .store n => Sys2Proof.Machine.execStore n s
  | .fence n => Sys2Proof.Machine.execFence n s
  | .commit n => Sys2Proof.Machine.execCommit n s
  | .readStallResume n path => Sys2Proof.Machine.execReadStallResume n path s
  | .writeStallResume n path => Sys2Proof.Machine.execWriteStallResume n path s
  | .tileLanded n tile errs => Sys2Proof.Machine.execTileLanded n tile errs s
  | .storeAck n tile => Sys2Proof.Machine.execStoreAck n tile s
  | .commandComplete n path => Sys2Proof.Machine.execCommandComplete n path s
  | .budgetRaise n path => Sys2Proof.Machine.execBudgetRaise n path s
  | .budgetKill n path => Sys2Proof.Machine.execBudgetKill n path s
  | .killComplete n => Sys2Proof.Machine.execKillComplete n s
  | .tcEnableWrite who n val => Sys2Proof.Machine.execTcEnableWrite who n val s
  | .slotBoundary => Sys2Proof.Machine.execSlotBoundary s
  | .coreRelockEnd n => Sys2Proof.Machine.execCoreRelockEnd n s
  | .commitReport n => Sys2Proof.Machine.execCommitReport n s
  | .spillTileAck n => Sys2Proof.Machine.execSpillTileAck n s
  | .restoreTileLanded n errs => Sys2Proof.Machine.execRestoreTileLanded n errs s
  | .ttCommit who val => Sys2Proof.Machine.execTtCommit who val s
  | .schedulerEnable who val => Sys2Proof.Machine.execSchedulerEnable who val s
  | .contextEnable who n val => Sys2Proof.Machine.execContextEnable who n val s
  | .contextFaultClear who n val => Sys2Proof.Machine.execContextFaultClear who n val s
  | .remoteReadResponse slot data => Sys2Proof.Machine.execRemoteReadResponse slot data s
  | .fasAccess who write addr len data ecc block => Sys2Proof.Machine.execFasAccess who write addr len data ecc block s
  | .pltCreate => Sys2Proof.Machine.execPltCreate s
  | .pltDestroy => Sys2Proof.Machine.execPltDestroy s
  | .pltPromote => Sys2Proof.Machine.execPltPromote s
  | .pltEvict => Sys2Proof.Machine.execPltEvict s
  | .pltPin => Sys2Proof.Machine.execPltPin s
  | .pltUnpin => Sys2Proof.Machine.execPltUnpin s
  | .pltRead => Sys2Proof.Machine.execPltRead s
  | .migrationTile obj errs data => Sys2Proof.Machine.execMigrationTile obj errs data s
  | .publicationWalk tag => Sys2Proof.Machine.execPublicationWalk tag s
  | .pltEnable who val => Sys2Proof.Machine.execPltEnable who val s
  | .scrubTile ce ue => Sys2Proof.Machine.execScrubTile ce ue s
  | .psramScrub d ce ue => Sys2Proof.Machine.execPsramScrub d ce ue s
  | .ddrRefresh wait => Sys2Proof.Machine.execDdrRefresh wait s
  | .kvpEnable who n val => Sys2Proof.Machine.execKvpEnable who n val s
  | .kvpAdmit who n val => Sys2Proof.Machine.execKvpAdmit who n val s
  | .kvpRetire who n val => Sys2Proof.Machine.execKvpRetire who n val s
  | .kvpServeRequest n => Sys2Proof.Machine.execKvpServeRequest n s
  | .timeStepGo who val => Sys2Proof.Machine.execTimeStepGo who val s
  | .timeStepExecute => Sys2Proof.Machine.execTimeStepExecute s
  | .fwSampleSubmit who val => Sys2Proof.Machine.execFwSampleSubmit who val s
  | .servoRateApply => Sys2Proof.Machine.execServoRateApply s
  | .sourceTimeout => Sys2Proof.Machine.execSourceTimeout s
  | .servoEnable who val => Sys2Proof.Machine.execServoEnable who val s
  | .servoCommit who val => Sys2Proof.Machine.execServoCommit who val s
  | .compareFire c ecc => Sys2Proof.Machine.execCompareFire c ecc s
  | .compareCommit who c val => Sys2Proof.Machine.execCompareCommit who c val s
  | .compareEnable who c val => Sys2Proof.Machine.execCompareEnable who c val s
  | .pulseEnd c => Sys2Proof.Machine.execPulseEnd c s
  | .csi2Frame p ts id fnum lines bpl ecc crcErr data => Sys2Proof.Machine.execCsi2Frame p ts id fnum lines bpl ecc crcErr data s
  | .ethSensorFrame port ts fcsOk frame => Sys2Proof.Machine.execEthSensorFrame port ts fcsOk frame s
  | .imuDataReady q rising => Sys2Proof.Machine.execImuDataReady q rising s
  | .imuBurstComplete q data => Sys2Proof.Machine.execImuBurstComplete q data s
  | .conversionResult codes ok => Sys2Proof.Machine.execConversionResult codes ok s
  | .snsProdWrite who n val => Sys2Proof.Machine.execSnsProdWrite who n val s
  | .modelTimeout n => Sys2Proof.Machine.execModelTimeout n s
  | .outputInstant => Sys2Proof.Machine.execOutputInstant s
  | .slotSnapshot => Sys2Proof.Machine.execSlotSnapshot s
  | .gridSnapshot => Sys2Proof.Machine.execGridSnapshot s
  | .fusCommit who val => Sys2Proof.Machine.execFusCommit who val s
  | .batchStart => Sys2Proof.Machine.execBatchStart s
  | .problemComplete e => Sys2Proof.Machine.execProblemComplete e s
  | .batchEnd => Sys2Proof.Machine.execBatchEnd s
  | .solverDisable who val => Sys2Proof.Machine.execSolverDisable who val s
  | .fusionProblemComplete => Sys2Proof.Machine.execFusionProblemComplete s
  | .occScanEnd => Sys2Proof.Machine.execOccScanEnd s
  | .occBroadcast => Sys2Proof.Machine.execOccBroadcast s
  | .occCommit => Sys2Proof.Machine.execOccCommit s
  | .trlRequestAccept => Sys2Proof.Machine.execTrlRequestAccept s
  | .searchExpansion => Sys2Proof.Machine.execSearchExpansion s
  | .planOutput => Sys2Proof.Machine.execPlanOutput s
  | .trlDeadline => Sys2Proof.Machine.execTrlDeadline s
  | .trlCommit who val => Sys2Proof.Machine.execTrlCommit who val s
  | .trlLatch => Sys2Proof.Machine.execTrlLatch s
  | .trlBankLoaded => Sys2Proof.Machine.execTrlBankLoaded s
  | .trlEnableWrite who val => Sys2Proof.Machine.execTrlEnableWrite who val s
  | .hartRunWrite who h val => Sys2Proof.Machine.execHartRunWrite who h val s
  | .watchdogKick who h val => Sys2Proof.Machine.execWatchdogKick who h val s
  | .watchdogExpire h => Sys2Proof.Machine.execWatchdogExpire h s
  | .icuClaim who t => Sys2Proof.Machine.execIcuClaim who t s
  | .icuComplete who t val => Sys2Proof.Machine.execIcuComplete who t val s
  | .icuReset who t val => Sys2Proof.Machine.execIcuReset who t val s
  | .icuSwi who val => Sys2Proof.Machine.execIcuSwi who val s
  | .tioInputEdge p level => Sys2Proof.Machine.execTioInputEdge p level s
  | .loopOutputApply n mismatch => Sys2Proof.Machine.execLoopOutputApply n mismatch s
  | .loopEnableWrite who n val => Sys2Proof.Machine.execLoopEnableWrite who n val s
  | .plausClear who n val => Sys2Proof.Machine.execPlausClear who n val s
  | .reflexRelease c codes absent ecc => Sys2Proof.Machine.execReflexRelease c codes absent ecc s
  | .reflexOutput => Sys2Proof.Machine.execReflexOutput s
  | .reflexLatch g => Sys2Proof.Machine.execReflexLatch g s
  | .rfxCommit who val => Sys2Proof.Machine.execRfxCommit who val s
  | .rfxBindLatch => Sys2Proof.Machine.execRfxBindLatch s
  | .sluiceFill => Sys2Proof.Machine.execSluiceFill s
  | .sluiceArm => Sys2Proof.Machine.execSluiceArm s
  | .sluiceCancel => Sys2Proof.Machine.execSluiceCancel s
  | .sluiceHartArm who l val => Sys2Proof.Machine.execSluiceHartArm who l val s
  | .fillHeaderLanded l ecc => Sys2Proof.Machine.execFillHeaderLanded l ecc s
  | .fillPieceLanded l ecc => Sys2Proof.Machine.execFillPieceLanded l ecc s
  | .fillLastByte l ecc => Sys2Proof.Machine.execFillLastByte l ecc s
  | .armCheckEnd l ecc => Sys2Proof.Machine.execArmCheckEnd l ecc s
  | .fillTimeout l => Sys2Proof.Machine.execFillTimeout l s
  | .laneStale l => Sys2Proof.Machine.execLaneStale l s
  | .ecsFrame port valid frame => Sys2Proof.Machine.execEcsFrame port valid frame s
  | .ecsAlRequest ctl => Sys2Proof.Machine.execEcsAlRequest ctl s
  | .ecsWatchdogExpire => Sys2Proof.Machine.execEcsWatchdogExpire s
  | .ecsSync0 dcTime => Sys2Proof.Machine.execEcsSync0 dcTime s
  | .ecsSm2Buffer data => Sys2Proof.Machine.execEcsSm2Buffer data s
  | .ecsInputCapture => Sys2Proof.Machine.execEcsInputCapture s
  | .mbxRequest => Sys2Proof.Machine.execMbxRequest s
  | .sdoUpload idx sub complete => Sys2Proof.Machine.execSdoUpload idx sub complete s
  | .sdoDownload idx sub complete data => Sys2Proof.Machine.execSdoDownload idx sub complete data s
  | .sdoSegmentTimeout => Sys2Proof.Machine.execSdoSegmentTimeout s
  | .sdoRecordCommit idx sub data => Sys2Proof.Machine.execSdoRecordCommit idx sub data s
  | .sdoLoopCommit n data => Sys2Proof.Machine.execSdoLoopCommit n data s
  | .emergencySend => Sys2Proof.Machine.execEmergencySend s
  | .ecsLinkLoss port => Sys2Proof.Machine.execEcsLinkLoss port s
  | .ecsLinkReopen port => Sys2Proof.Machine.execEcsLinkReopen port s
  | .ecmOutputSnapshot sg => Sys2Proof.Machine.execEcmOutputSnapshot sg s
  | .ecmFrameSend sg => Sys2Proof.Machine.execEcmFrameSend sg s
  | .ecmFrameReturn sg port fcsOk frame => Sys2Proof.Machine.execEcmFrameReturn sg port fcsOk frame s
  | .ecmDeadline sg => Sys2Proof.Machine.execEcmDeadline sg s
  | .ecmMergeEnd sg => Sys2Proof.Machine.execEcmMergeEnd sg s
  | .ecmSubstClear who sg val => Sys2Proof.Machine.execEcmSubstClear who sg val s
  | .ecmEnable who sg val => Sys2Proof.Machine.execEcmEnable who sg val s
  | .ecmAcyclicGo who sg val => Sys2Proof.Machine.execEcmAcyclicGo who sg val s
  | .ecmAcyclicSend sg => Sys2Proof.Machine.execEcmAcyclicSend sg s
  | .ecmAcyclicReturn sg frame => Sys2Proof.Machine.execEcmAcyclicReturn sg frame s
  | .ecmAcyclicTimeout sg => Sys2Proof.Machine.execEcmAcyclicTimeout sg s
  | .ethRxFrame p ts fcsOk frame => Sys2Proof.Machine.execEthRxFrame p ts fcsOk frame s
  | .ethTxSend p => Sys2Proof.Machine.execEthTxSend p s
  | .ethTxDone p ts => Sys2Proof.Machine.execEthTxDone p ts s
  | .pcieRequest write bar ofs len data => Sys2Proof.Machine.execPcieRequest write bar ofs len data s
  | .pcieCompletionTimeout kind n => Sys2Proof.Machine.execPcieCompletionTimeout kind n s
  | .msixUnmask v => Sys2Proof.Machine.execMsixUnmask v s
  | .cwyEnable who strap val => Sys2Proof.Machine.execCwyEnable who strap val s
  | .cwyTrainEnd => Sys2Proof.Machine.execCwyTrainEnd s
  | .cwyDiscoveryResult ok roleErr topoErr master nmod modnum peers => Sys2Proof.Machine.execCwyDiscoveryResult ok roleErr topoErr master nmod modnum peers s
  | .cwyFlitReceive k flit => Sys2Proof.Machine.execCwyFlitReceive k flit s
  | .cwyNak k seq => Sys2Proof.Machine.execCwyNak k seq s
  | .cwyReadReq src slot addr ctx core tile errs => Sys2Proof.Machine.execCwyReadReq src slot addr ctx core tile errs s
  | .cwyRetrain k => Sys2Proof.Machine.execCwyRetrain k s
  | .cwyLinkTrained k => Sys2Proof.Machine.execCwyLinkTrained k s
  | .cwyDownTimeout m => Sys2Proof.Machine.execCwyDownTimeout m s
  | .cwyTimeExchange => Sys2Proof.Machine.execCwyTimeExchange s
  | .cwyTimeResponse t1 t2 t3 t4 => Sys2Proof.Machine.execCwyTimeResponse t1 t2 t3 t4 s
  | .cwyStepAnnounce due lo hi ctl => Sys2Proof.Machine.execCwyStepAnnounce due lo hi ctl s
  | .cwyTtAnnounce due crc => Sys2Proof.Machine.execCwyTtAnnounce due crc s
  | .powerOn => Sys2Proof.Machine.execPowerOn s
  | .bootRomStart => Sys2Proof.Machine.execBootRomStart s
  | .bootLoadEnd readErr => Sys2Proof.Machine.execBootLoadEnd readErr s
  | .brownoutWarning => Sys2Proof.Machine.execBrownoutWarning s
  | .brownoutWarningClear => Sys2Proof.Machine.execBrownoutWarningClear s
  | .brownoutTrip => Sys2Proof.Machine.execBrownoutTrip s
  | .shutdownFinalFrame => Sys2Proof.Machine.execShutdownFinalFrame s
  | .shutdownOutputsLow => Sys2Proof.Machine.execShutdownOutputsLow s
  | .shutdownRailsOff => Sys2Proof.Machine.execShutdownRailsOff s
  | .thermalSample tcp => Sys2Proof.Machine.execThermalSample tcp s
  | .thermalTrip => Sys2Proof.Machine.execThermalTrip s
  | .resetPin => Sys2Proof.Machine.execResetPin s
  | .supplyOvercurrent ch => Sys2Proof.Machine.execSupplyOvercurrent ch s
  | .supplyRetry ch => Sys2Proof.Machine.execSupplyRetry ch s
  | .secExtend who val => Sys2Proof.Machine.execSecExtend who val s
  | .secAttest who val => Sys2Proof.Machine.execSecAttest who val s
  | .secExport who val => Sys2Proof.Machine.execSecExport who val s
  | .secFuseKey who val => Sys2Proof.Machine.execSecFuseKey who val s
  | .secFuseRevoke who val => Sys2Proof.Machine.execSecFuseRevoke who val s
  | .secFuseRollback who val => Sys2Proof.Machine.execSecFuseRollback who val s
  | .secFuseProt who val => Sys2Proof.Machine.execSecFuseProt who val s
  | .secLcAdvance who val => Sys2Proof.Machine.execSecLcAdvance who val s
  | .secCmdDone => Sys2Proof.Machine.execSecCmdDone s
  | .dormantRequest who val => Sys2Proof.Machine.execDormantRequest who val s
  | .dormantEntered => Sys2Proof.Machine.execDormantEntered s
  | .wakeEvent src => Sys2Proof.Machine.execWakeEvent src s
  | .wakePllLock => Sys2Proof.Machine.execWakePllLock s
  | .wakeAppStart => Sys2Proof.Machine.execWakeAppStart s
  | .wakeComplete => Sys2Proof.Machine.execWakeComplete s
  | .powerCapSample mw => Sys2Proof.Machine.execPowerCapSample mw s
  | .epochBump who val => Sys2Proof.Machine.execEpochBump who val s
  | .violatingRead who addr size => Sys2Proof.Machine.execViolatingRead who addr size s
  | .hartPrivateAccess h kind addr len data ecc => Sys2Proof.Machine.execHartPrivateAccess h kind addr len data ecc s
  | .aonClockLock => Sys2Proof.Machine.execAonClockLock s
  | .thermalRestart => Sys2Proof.Machine.execThermalRestart s
  | .ddrRetrainEnd ode => Sys2Proof.Machine.execDdrRetrainEnd ode s
  | .ethLinkChange p up => Sys2Proof.Machine.execEthLinkChange p up s
  | .ecmLinkChange sg port up => Sys2Proof.Machine.execEcmLinkChange sg port up s
  | .pcieLinkChange up gen width => Sys2Proof.Machine.execPcieLinkChange up gen width s
  | .sync1 => Sys2Proof.Machine.execSync1 s
  | .pltBadopRequest => Sys2Proof.Machine.execPltBadopRequest s
  | .sluiceBadopRequest => Sys2Proof.Machine.execSluiceBadopRequest s
  | .sampleHistoryPush c codes absent => Sys2Proof.Machine.execSampleHistoryPush c codes absent s

end Sys2Proof.Machine
end

