-- ==== Sys2Proof/Machine/Tick.lean ====
section
/-! DEFINITION. One cycle of the Bandstand clock (R268). -/

namespace Sys2Proof.Machine

open Sys2Proof Sys2Proof.Machine.Reg

/-- The accumulator's modulus: 48 bits of seconds, in 2^-32 ns. -/
def accModulus : Nat := 2 ^ 48 * 1000000000 * 2 ^ 32

/-- What a cycle adds to the accumulator, in 2^-32 ns: a nanosecond and the rate correction (R268). -/
def State.increment (s : State) : Int := 2 ^ 32 + s.getInt TIM_SRV_ADJ_VALUE

/-- A Bandstand cycle passes with no command; without its clocks the device stands (R512, R531). -/
def State.tick (s : State) : State :=
  if s.pwr.phase < 2 then s
  else { s with cyc := s.cyc + 1, acc := (((s.acc : Int) + s.increment) % (accModulus : Int)).toNat }

end Sys2Proof.Machine
end

