-- ==== Sys2Proof/WellFormed.lean ====
section
/-! DEFINITION. Well-formed commands: operands within the ranges of the objects they name. -/

namespace Sys2Proof

/-- An initiator that the device has (R24, R375): eight application harts, four control harts, the PCIe host. -/
def Initiator.ok : Initiator → Bool
  | .app h => h < 8
  | .ctl h => h < 4
  | .pcie => true

/-- Operands within their ranges. -/
def wellFormed (i : Instr) : Bool :=
  match i with
  | .registerWrite who addr size _ => who.ok && addr < 2 ^ 48 && (size == 1 || size == 2 || size == 4 || size == 8)
  | .registerWriteLowerHalf who addr _ => who.ok && addr < 2 ^ 48
  | .registerReadLowerHalf who addr => who.ok && addr < 2 ^ 48
  | .counterClear who addr _ => who.ok && addr < 2 ^ 48
  | .descriptorFetch n => n < 8
  | .dispatch n => n < 8
  | .load n => n < 8
  | .matmul n => n < 8
  | .conv n => n < 8
  | .pool n => n < 8
  | .roia n => n < 8
  | .attn n => n < 8
  | .vec n => n < 8
  | .pull n => n < 8
  | .store n => n < 8
  | .fence n => n < 8
  | .commit n => n < 8
  | .readStallResume n path => n < 8 && path < 5
  | .writeStallResume n path => n < 8 && path < 5
  | .tileLanded n tile errs => n < 8 && tile < 65536 && errs.all (· < 6144)
  | .storeAck n tile => n < 8 && tile < 65536
  | .commandComplete n path => n < 8 && path < 5
  | .budgetRaise n path => n < 8 && path < 5
  | .budgetKill n path => n < 8 && path < 5
  | .killComplete n => n < 8
  | .tcEnableWrite who n _ => who.ok && n < 8
  | .slotBoundary => true
  | .coreRelockEnd n => n < 8
  | .commitReport n => n < 8
  | .spillTileAck n => n < 8
  | .restoreTileLanded n errs => n < 8 && errs.all (· < 6144)
  | .ttCommit who _ => who.ok
  | .schedulerEnable who _ => who.ok
  | .contextEnable who n _ => who.ok && n < 64
  | .contextFaultClear who n _ => who.ok && n < 64
  | .remoteReadResponse slot data => slot < 4096 && data.length == 65536
  | .fasAccess who write addr len data ecc block => who.ok && addr < 2 ^ 40 && 1 ≤ len && len ≤ 64 && data.length == (if write then len else 0) && ecc < 4 && block < 2
  | .pltCreate => true
  | .pltDestroy => true
  | .pltPromote => true
  | .pltEvict => true
  | .pltPin => true
  | .pltUnpin => true
  | .pltRead => true
  | .migrationTile obj errs data => obj < 1048576 && errs.all (· < 6144) && (data.length == 0 || data.length == 65536)
  | .publicationWalk tag => tag < 4095
  | .pltEnable who _ => who.ok
  | .scrubTile ce ue => ce.all (· < 2048) && ue.all (· < 2048)
  | .psramScrub d ce ue => d < 2 && ce.all (· < 32) && ue.all (· < 32)
  | .ddrRefresh _ => true
  | .kvpEnable who n _ => who.ok && n < 8
  | .kvpAdmit who n _ => who.ok && n < 8
  | .kvpRetire who n _ => who.ok && n < 8
  | .kvpServeRequest n => n < 8
  | .timeStepGo who _ => who.ok
  | .timeStepExecute => true
  | .fwSampleSubmit who _ => who.ok
  | .servoRateApply => true
  | .sourceTimeout => true
  | .servoEnable who _ => who.ok
  | .servoCommit who _ => who.ok
  | .compareFire c ecc => c < 32 && ecc < 2 ^ 128
  | .compareCommit who c _ => who.ok && c < 32
  | .compareEnable who c _ => who.ok && c < 32
  | .pulseEnd c => c < 32
  | .csi2Frame p _ id _ _ _ ecc _ _ => p < 12 && id < 256 && ecc < 2 ^ 32
  | .ethSensorFrame port _ _ _ => port < 4
  | .imuDataReady q _ => q < 4
  | .imuBurstComplete q data => q < 4 && data.length ≤ 64
  | .conversionResult codes ok => (codes.length == 8 && codes.all fun x => decide (-131072 ≤ x ∧ x < 131072)) && ok < 256
  | .snsProdWrite who n _ => who.ok && n < 64
  | .modelTimeout n => n < 64
  | .outputInstant => true
  | .slotSnapshot => true
  | .gridSnapshot => true
  | .fusCommit who _ => who.ok
  | .batchStart => true
  | .problemComplete e => e < 64
  | .batchEnd => true
  | .solverDisable who _ => who.ok
  | .fusionProblemComplete => true
  | .occScanEnd => true
  | .occBroadcast => true
  | .occCommit => true
  | .trlRequestAccept => true
  | .searchExpansion => true
  | .planOutput => true
  | .trlDeadline => true
  | .trlCommit who _ => who.ok
  | .trlLatch => true
  | .trlBankLoaded => true
  | .trlEnableWrite who _ => who.ok
  | .hartRunWrite who h _ => who.ok && h < 4
  | .watchdogKick who h _ => who.ok && h < 4
  | .watchdogExpire h => h < 4
  | .icuClaim who t => who.ok && t < 12
  | .icuComplete who t _ => who.ok && t < 12
  | .icuReset who t _ => who.ok && t < 12
  | .icuSwi who _ => who.ok
  | .tioInputEdge p _ => p < 32
  | .loopOutputApply n _ => n < 64
  | .loopEnableWrite who n _ => who.ok && n < 64
  | .plausClear who n _ => who.ok && n < 64
  | .reflexRelease c codes absent ecc => ecc < 3 && c < 32 && (codes.length == 8 && codes.all fun x => decide (-131072 ≤ x ∧ x < 131072)) && absent < 256
  | .reflexOutput => true
  | .reflexLatch g => g < 8
  | .rfxCommit who _ => who.ok
  | .rfxBindLatch => true
  | .sluiceFill => true
  | .sluiceArm => true
  | .sluiceCancel => true
  | .sluiceHartArm who l _ => who.ok && l < 9
  | .fillHeaderLanded l ecc => l < 9 && ecc < 4
  | .fillPieceLanded l ecc => l < 9 && ecc < 4
  | .fillLastByte l ecc => l < 9 && ecc < 4
  | .armCheckEnd l ecc => l < 9 && ecc < 3
  | .fillTimeout l => l < 9
  | .laneStale l => l < 9
  | .ecsFrame port _ _ => port < 2
  | .ecsAlRequest ctl => ctl < 65536
  | .ecsWatchdogExpire => true
  | .ecsSync0 _ => true
  | .ecsSm2Buffer data => data.length ≤ 256
  | .ecsInputCapture => true
  | .mbxRequest => true
  | .sdoUpload idx sub _ => idx < 65536 && sub < 256
  | .sdoDownload idx sub _ _ => idx < 65536 && sub < 256
  | .sdoSegmentTimeout => true
  | .sdoRecordCommit idx sub _ => idx < 65536 && sub < 256
  | .sdoLoopCommit n _ => n < 64
  | .emergencySend => true
  | .ecsLinkLoss port => port < 2
  | .ecsLinkReopen port => port < 2
  | .ecmOutputSnapshot sg => sg < 4
  | .ecmFrameSend sg => sg < 4
  | .ecmFrameReturn sg port _ _ => sg < 4 && port < 2
  | .ecmDeadline sg => sg < 4
  | .ecmMergeEnd sg => sg < 4
  | .ecmSubstClear who sg _ => who.ok && sg < 4
  | .ecmEnable who sg _ => who.ok && sg < 4
  | .ecmAcyclicGo who sg _ => who.ok && sg < 4
  | .ecmAcyclicSend sg => sg < 4
  | .ecmAcyclicReturn sg _ => sg < 4
  | .ecmAcyclicTimeout sg => sg < 4
  | .ethRxFrame p _ _ _ => p < 5
  | .ethTxSend p => p < 5
  | .ethTxDone p _ => p < 5
  | .pcieRequest write bar _ len data => (bar == 0 || bar == 2 || bar == 4 || bar == 6) && 1 ≤ len && len ≤ 4096 && data.length == (if write then len else 0)
  | .pcieCompletionTimeout kind _ => kind < 4
  | .msixUnmask v => v < 32
  | .cwyEnable who _ _ => who.ok
  | .cwyTrainEnd => true
  | .cwyDiscoveryResult _ _ _ _ _ _ _ => true
  | .cwyFlitReceive k flit => k < 4 && flit.length == 256
  | .cwyNak k _ => k < 4
  | .cwyReadReq src slot addr _ _ tile errs => src < 256 && slot < 4096 && addr < 2 ^ 48 && tile < 65536 && errs.all (· < 6144)
  | .cwyRetrain k => k < 4
  | .cwyLinkTrained k => k < 4
  | .cwyDownTimeout _ => true
  | .cwyTimeExchange => true
  | .cwyTimeResponse _ _ _ _ => true
  | .cwyStepAnnounce _ _ _ _ => true
  | .cwyTtAnnounce _ _ => true
  | .powerOn => true
  | .bootRomStart => true
  | .bootLoadEnd _ => true
  | .brownoutWarning => true
  | .brownoutWarningClear => true
  | .brownoutTrip => true
  | .shutdownFinalFrame => true
  | .shutdownOutputsLow => true
  | .shutdownRailsOff => true
  | .thermalSample _ => true
  | .thermalTrip => true
  | .resetPin => true
  | .supplyOvercurrent ch => ch < 16
  | .supplyRetry ch => ch < 16
  | .secExtend who _ => who.ok
  | .secAttest who _ => who.ok
  | .secExport who _ => who.ok
  | .secFuseKey who _ => who.ok
  | .secFuseRevoke who _ => who.ok
  | .secFuseRollback who _ => who.ok
  | .secFuseProt who _ => who.ok
  | .secLcAdvance who _ => who.ok
  | .secCmdDone => true
  | .dormantRequest who _ => who.ok
  | .dormantEntered => true
  | .wakeEvent src => src < 3
  | .wakePllLock => true
  | .wakeAppStart => true
  | .wakeComplete => true
  | .powerCapSample _ => true
  | .epochBump who _ => who.ok
  | .violatingRead who addr size => who.ok && addr < 2 ^ 48 && (size == 1 || size == 2 || size == 4 || size == 8)
  | .hartPrivateAccess h kind addr len data ecc => h < 4 && kind < 3 && addr < 2 ^ 48 && (len == 1 || len == 2 || len == 4 || len == 8) && data.length == (if kind == 2 then len else 0) && ecc < 4
  | .aonClockLock => true
  | .thermalRestart => true
  | .ddrRetrainEnd _ => true
  | .ethLinkChange p _ => p < 5
  | .ecmLinkChange sg port _ => sg < 4 && port < 2
  | .pcieLinkChange _ gen width => gen < 8 && width < 16
  | .sync1 => true
  | .pltBadopRequest => true
  | .sluiceBadopRequest => true
  | .sampleHistoryPush c codes absent => c < 32 && (codes.length == 8 && codes.all fun x => decide (-131072 ≤ x ∧ x < 131072)) && absent < 256

end Sys2Proof
end

