-- ==== Sys2Proof/Safety.lean ====
section
/-! DEFINITION. The terms in which claims about runs are stated: what it is for a command to complete, what a step may do
to the fuses, which states are in order. -/

namespace Sys2Proof.Machine

open Sys2Proof

/-- A command answers a next state of which `P` holds. -/
def Completes (i : Instr) (s : State) (P : State → Prop) : Prop := ∃ t, exec i s = .next t ∧ P t

/-- The device has power and its always-on clocks are locked (R512 instant 3 and after). -/
abbrev State.powered (s : State) : Prop := 2 ≤ s.pwr.phase

/-! ### Frames -/

/-- The components of State beside its registers, queue and fuses. -/
inductive Part where
  | held | halves | mem | poison | bus | free | time | icu | msix | out | diag | cores | pools | place | sched | fus | solve
  | trl | loops | servo | harts | rfx | lanes | segs | ecs | eths | cwy | sec | pwr | vio | waiting
  deriving DecidableEq, Repr

/-- A component of `t` is as it is in `s`. Memory is said byte by byte; settling the interrupt lines may set pulse bits and
MSI-X pending bits and send MSI-X messages at the end of any command, so `icu`, `msix` and `out` stand but for those. The
record of the event bits that the device set in the present cycle (`fresh`) goes with the registers. -/
def Keeps (s t : State) : Part → Prop
  | .held => t.heldRegs = s.heldRegs ∧ t.pendSets = s.pendSets
  | .halves => t.caps = s.caps ∧ t.holds = s.holds
  | .mem => ∀ a, memGet t.mem a = memGet s.mem a
  | .poison => t.poison = s.poison
  | .bus => t.bus = s.bus
  | .free => t.free = s.free
  | .time => t.cyc = s.cyc ∧ t.acc = s.acc
  | .icu => t.icu.stk = s.icu.stk
  | .msix => t.msix.masked = s.msix.masked ∧ t.msix.table = s.msix.table ∧ t.msix.barLog = s.msix.barLog
  | .out => ∃ l, t.outbox = s.outbox ++ l ∧ ∀ m ∈ l, ∃ v, m = .msix v
  | .diag => t.emcy = s.emcy ∧ t.epochCyc = s.epochCyc ∧ t.telWaiting = s.telWaiting ∧ t.lfsr = s.lfsr ∧ t.burst = s.burst
  | .cores => t.cores = s.cores ∧ t.acks = s.acks
  | .pools => t.pools = s.pools ∧ t.kvpQueue = s.kvpQueue
  | .place => t.plt = s.plt ∧ t.migs = s.migs ∧ t.tags = s.tags ∧ t.scrubSince = s.scrubSince ∧
      t.psScrubSince = s.psScrubSince ∧ t.pltDisabling = s.pltDisabling ∧ t.cache = s.cache
  | .sched => t.sched = s.sched
  | .fus => t.fus = s.fus
  | .solve => t.batch = s.batch
  | .trl => t.trl = s.trl
  | .loops => t.loops = s.loops ∧ t.grpLast = s.grpLast ∧ t.destSeen = s.destSeen
  | .servo => t.pulses = s.pulses ∧ t.cmpLate = s.cmpLate ∧ t.stepDue = s.stepDue ∧ t.rates = s.rates ∧
      t.srcSeen = s.srcSeen ∧ t.lockRun = s.lockRun ∧ t.stepAt = s.stepAt
  | .harts => t.wdog = s.wdog ∧ t.tioUnread = s.tioUnread
  | .rfx => t.rfx = s.rfx
  | .lanes => t.lanes = s.lanes
  | .segs => t.segs = s.segs
  | .ecs => t.ecs = s.ecs
  | .eths => t.eths = s.eths
  | .cwy => t.cwy = s.cwy
  | .sec => t.secOp = s.secOp
  | .pwr => t.pwr = s.pwr
  | .vio => t.vioAt = s.vioAt
  | .waiting => t.held = s.held

/-- From `s` to `t` nothing changes but the registers and components named: not the queue, no fuse, no other register, no
other component. The merge count of the interrupt controller and the event register that reports it (R550) may change at
the end of any command. -/
structure ChangesOnly (regs : List Nat) (parts : List Part) (s t : State) : Prop where
  pending : t.pending = s.pending
  fuses : t.fuses = s.fuses
  rd : ∀ a, a ∉ regs → a ≠ Reg.DGN_CNT_MERGE → a ≠ Reg.DGN_EVT → t.rd a = s.rd a
  keeps : ∀ p, p ∉ parts → Keeps s t p

/-- A command whose effect on `s` is `u` leaves `t`: the interrupt lines settle, queue and fuses stand. -/
def EndsAs (s u t : State) : Prop := t = { settle s u with pending := s.pending, fuses := s.fuses }

/-! ### Engines of a core -/

/-- A command alone on its path has issued all its units and its last one is due to be written: its lines had been
released in the cycle before it. -/
structure LastUnit (s : State) (n p opc : Nat) (c : Cmd) (w : Work) (due : Nat) : Prop where
  live : coreLive s n = true
  alone : (coreOf s n).queue p = [c]
  opcode : dOpc c.desc = opc
  started : c.start.isSome = true
  issued : c.unit = w.total
  some : 0 < w.total
  pipe : c.pipe = [due]
  dueNow : due ≤ nowOf s n
  notStalled : c.wait = 0
  tile : p ≤ 1 → c.tile.isSome = true
  noAttn : p ≠ 3 → (coreOf s n).queue 3 = []
  room : (allFrom (writeFrom s n) (w.writes (w.total - 1))).map (fun f => decide (f < due)) = Option.some true

/-! ### Accepted writes -/

/-- A write of a whole register is met by no cause of R543: the value fits the register, the initiator may reach it, no
window closes it, its reserved bits are zero, it is not read-only, and it gives no Static field a new value while its block
is enabled. -/
abbrev WriteOk (s : State) (who : Initiator) (a v : Nat) : Prop :=
  (match regHit s who a with
   | some h => (accessCauses s who h a (h.desc.width / 8) true).isEmpty && (valueCauses s h v).isEmpty && !h.upper &&
       decide (v < 2 ^ h.desc.width)
   | none => false) = true

/-- The same of a read. -/
abbrev ReadOk (s : State) (who : Initiator) (a size : Nat) : Prop :=
  (match regHit s who a with
   | some h => (accessCauses s who h a size false).isEmpty
   | none => false) = true

/-- A violation of cause `c`, the first of its cycle, has been counted and recorded (R26, R544), and nothing else happened
but in the parts named. -/
structure CountedViolation (c : Nat) (who : Initiator) (addr : Nat) (write : Bool) (parts : List Part) (s t : State) :
    Prop where
  count : t.get (Reg.DGN_VIO_CNT_VALUE c) = satAdd 32 (s.get (Reg.DGN_VIO_CNT_VALUE c)) 1
  total : t.get Reg.DGN_VIO_TOTAL_VALUE = satAdd 32 (s.get Reg.DGN_VIO_TOTAL_VALUE) 1
  valid : t.on Reg.DGN_VIO_LAST_VALID = true
  ctx : t.get Reg.DGN_VIO_LAST_CTX = ctxOf s who % 64
  init : t.get Reg.DGN_VIO_LAST_INIT = initCode who
  isWrite : t.on Reg.DGN_VIO_LAST_WRITE = write
  cause : t.get Reg.DGN_VIO_LAST_CAUSE = c
  addr : t.get Reg.DGN_VIO_LAST_ADDR = addr % 2 ^ 48
  event : t.on Reg.DGN_EVT_VIO = true
  frame : ChangesOnly [Reg.DGN_VIO_CNT c, Reg.DGN_VIO_TOTAL, Reg.DGN_VIO_LAST] (.vio :: parts) s t

/-- What an accepted write of `v` does to one field of a register, by its access code and class (R10 to R17); a bit that the
device set in the same cycle stays 1 (R11). -/
def FieldWritten (s t : State) (a v : Nat) (f : FieldDesc) : Prop :=
  match f.kind with
  | .live => t.get ⟨a, f.hi, f.lo⟩ = bitsOf v f.hi f.lo
  | .static => t.get ⟨a, f.hi, f.lo⟩ = bitsOf v f.hi f.lo
  | .shadowed => t.heldGet ⟨a, f.hi, f.lo⟩ = bitsOf v f.hi f.lo ∧ t.get ⟨a, f.hi, f.lo⟩ = s.get ⟨a, f.hi, f.lo⟩
  | .w1c => ∀ i, f.lo ≤ i → i ≤ f.hi →
      (t.rd a).toNat.testBit i = ((s.rd a).toNat.testBit i && !(v.testBit i && !(s.freshBits a).testBit i))
  | .ro => t.get ⟨a, f.hi, f.lo⟩ = s.get ⟨a, f.hi, f.lo⟩
  | .wo => t.get ⟨a, f.hi, f.lo⟩ = s.get ⟨a, f.hi, f.lo⟩

/-! ### Placement requests (R189) -/

/-- A request of the ring ends with its STATUS, CONS moves on, and Reg.MEM_PLT_LIVE follows the table. -/
structure RequestEnds (s t : State) (r : PltReq) (status : Nat) : Prop where
  status : memGet t.mem (ringSlotPlace t r.slot + 1) = BitVec.ofNat 8 status
  cons : t.get Reg.MEM_PLQ_CONS_INDEX = (s.get Reg.MEM_PLQ_CONS_INDEX + 1) % 65536
  live : t.get Reg.MEM_PLT_LIVE_VALUE = t.plt.length % 2 ^ 32
  done : r.irq = true → t.on Reg.MEM_PLT_EVT_DONE = true

/-! ### Arrivals of the sensor front (R295–R309) -/

/-- An arrival at `arr` on channel `n` has been taken: it is numbered and held for the snapshots; a first arrival sets the
channel's model, a later one corrects it by its residual; a residual beyond QTHR puts the channel in DESYNC, FEATURE apart; no
other channel changes. -/
structure ArrivalTaken (s t : State) (n : Nat) (arr : Int) (fnum : Nat) (ring : Option Nat) (payload : List Byte) : Prop where
  seq : (chanOf t n).seq = ((chanOf s n).seq + 1) % 2 ^ 32
  newest : ∃ a, (chanOf t n).arrivals.getLast? = some a ∧ a.arr = arr ∧ a.ring = ring ∧ a.used = false ∧
    a.tov = modelTov (chanDesc s n) (chanOf t n)
  first : (chanOf s n).n = 0 → (chanOf t n).tref = arr - (chLat (chanDesc s n) : Int) * 65536 ∧ (chanOf t n).rate = 0 ∧
    (chanOf t n).per = chNper (chanDesc s n) ∧ (chanOf t n).n = 1
  next : ∀ (stamp : Nat) (pred e : Int), 0 < (chanOf s n).n →
    stamp = (sensorStamp (chanDesc s n) (chanOf s n) fnum (payload.drop (chSofs (chanDesc s n)))).1 → (chanOf s n).sref < stamp →
    stamp - (chanOf s n).sref ≤ 0x80000000 →
    pred = (chanOf s n).tref + ((stamp : Int) - (chanOf s n).sref) * 65536 +
      ((stamp : Int) - (chanOf s n).sref) * 65536 * (chanOf s n).rate / 2 ^ 32 →
    e = arr - (chLat (chanDesc s n) : Int) * 65536 - pred →
    (chanOf t n).tref = pred + e / 2 ^ chKo (chanDesc s n) ∧ (chanOf t n).sref = stamp ∧
    (chanOf t n).rate = clampInt ((chanOf s n).rate + e * (chKrm (chanDesc s n) : Int) / 2 ^ chKrs (chanDesc s n))
      (-858993) 858993 ∧ (chanOf t n).n = (chanOf s n).n + 1 ∧
    (qthr (chanDesc s n) (chanOf t n) < (e.natAbs : Int) → chKind (chanDesc s n) ≠ 5 → (chanOf t n).desync = true)
  others : ∀ m, m ≠ n → chanOf t m = chanOf s m

/-- The registers an arrival may change beside its ring's. -/
def arrivalRegs (n : Nat) : List Nat :=
  [Reg.SNS_CH_CNT_ERR n, Reg.FUS_CNT 0, Reg.FUS_CNT 2, Reg.FUS_EVT, Reg.FUS_CH_VALID, Reg.FUS_CH_DESYNC]

/-- The object in which a channel's next record lies, with the record's offset: slot PROD of its ring, in one object of its
context, at home and not moving. -/
def RecordPlace (s : State) (n ofs len : Nat) (e : PltEntry) : Prop :=
  ∃ i, resolve s true (chCtx (chanDesc s n)) (slotAddr (chanDesc s n) (s.get (Reg.SNS_CH_PROD_INDEX n)) + ofs) len true =
      .ok (i, e) ∧ (e.tier = 4 → hostUp s = true) ∧ e.st ≠ 2 ∧ e.st ≠ 3

/-! ### Accesses of the device's engines -/

/-- The registers that one access of an engine to memory may change beside its results: the lookup count, the counts of an
unpublished, unserved or uncorrectable read, and those of a violation. -/
def engineRegs : List Nat :=
  [Reg.MEM_PLT_CNT_LKMISS, Reg.MEM_PLT_CNT_UNCREAD, Reg.FLD_PCI_CNT 1, Reg.FLD_PCI_EVT, Reg.MEM_ECC_UE, Reg.MEM_EVT,
    Reg.MEM_ERR_LOG, Reg.DGN_VIO_TOTAL, Reg.DGN_VIO_LAST] ++ (List.range 7).map Reg.DGN_VIO_CNT

/-- The components it may change. -/
def engineParts : List Part := [.mem, .poison, .free, .place, .vio]

/-- The registers that an arrival and its record may change, beside those of its writes to memory. -/
def landRegs (n : Nat) : List Nat := [Reg.SNS_CH_PROD n, Reg.SNS_CH_CNT_DROP n] ++ arrivalRegs n

/-- An arrival at `arr` has been taken on each channel of `chans`: it is numbered and is the newest one held; no other channel
changes, nor anything but what arrivals and their records change, and `regs`. -/
structure ArrivalsHeld (s t : State) (chans : List Nat) (arr : Int) (regs : List Nat) : Prop where
  each : ∀ n ∈ chans, (chanOf t n).seq = ((chanOf s n).seq + 1) % 2 ^ 32 ∧
    ∃ a, (chanOf t n).arrivals.getLast? = some a ∧ a.arr = arr ∧ a.used = false
  others : ∀ m, m ∉ chans → chanOf t m = chanOf s m
  frame : ChangesOnly (regs ++ engineRegs ++ chans.flatMap landRegs) (.fus :: engineParts) s t

/-- An object is at home and reachable: no copy of it runs, and a host object has its bus. -/
structure AtHome (s : State) (e : PltEntry) : Prop where
  notPromoting : e.st ≠ 2
  notEvicting : e.st ≠ 3
  host : e.tier = 4 → hostUp s = true

/-! ### Plans (R366–R370) -/

/-- The record of request `q` has been written and ends it: it stands in the plan object at OUT, its first 16 bytes go to the
SubDevice, and the result is counted. -/
structure PlanWritten (s t : State) (q : TrlReq) (res : Nat) : Prop where
  ended : t.trl.req = none
  id : leField t.ecs.plan 0 2 = rqId q.bytes
  result : leField t.ecs.plan 2 1 = res
  counted : t.get (Reg.TRL_CNT_VALUE res) = satAdd 32 (s.get (Reg.TRL_CNT_VALUE res)) 1
  done : rqIrq q.bytes = true → t.on Reg.TRL_EVT_DONE = true
  written : ∀ i e, resolve s true 0 (rqOut q.bytes) (64 + 8 * leField t.ecs.plan 4 2) true = .ok (i, e) → AtHome s e →
    t.load (objPlace e (rqOut q.bytes - e.base * 65536)) 16 = t.ecs.plan

/-- The registers that answering a request may change. -/
def planRegs : List Nat := engineRegs ++ [Reg.TRL_EVT, Reg.TRL_STAT, Reg.TRL_CTRL] ++ (List.range 11).map Reg.TRL_CNT

/-! ### Boundaries of a loop group (R396–R409) -/

/-- Unit `c` fires an accepted boundary of group `g`, on which loop `n` runs alone, with no lane at work and no segment on the
group; the loop is in no action, has no resume or mismatch due, no output waiting and was not enabled anew, and no evaluation of
the reflex arrays is due on the group. -/
structure AloneAtBoundary (s : State) (c g n : Nat) : Prop where
  unit : c < 32
  group : g < 8
  loop : n < 64
  due : (cmpDue s c).isSome = true
  dest : s.get (Reg.TIM_CMP_CTL_DEST c) = 8 + g
  unseen : tget s.destSeen (8 + g) ≠ some s.cyc
  spaced : ∀ t, tget s.grpLast g = some t → t + 15600 ≤ s.cyc
  engine : s.on Reg.BLV_CLE_CTRL_ENABLE = true
  lanes : ∀ l, l < 9 → laneSt s l = 0
  segments : ∀ sg, sg < 4 → s.on (Reg.FLD_ECM_CTL_ENABLE sg) = true → s.get (Reg.FLD_ECM_CTL_GRP sg) ≠ g
  runs : (loopOf s n).run = true
  on : s.on (Reg.BLV_CLE_L_CTL_ENABLE n) = true
  own : (loopOf s n).grp = g
  place : loopGroup s n = g
  others : ∀ m, m < 64 → m ≠ n → (loopOf s m).run = false ∧ (s.on (Reg.BLV_CLE_L_CTL_ENABLE m) = true → loopGroup s m ≠ g)
  act : (loopOf s n).act = none
  resume : (loopOf s n).resume = false
  mis : (loopOf s n).mis = false
  first : (loopOf s n).first = false
  again : (loopOf s n).again = false
  out : (loopOf s n).out = none
  evals : ∀ e ∈ s.rfx.evals, evalDue s g e = false

/-- What the control law computes at such a boundary. -/
def lawAt (s : State) (g n : Nat) : LawOut :=
  controlLaw (coef s n) (s.on (Reg.BLV_CLE_L_CTL_DERR n)) (s.on (Reg.BLV_CLE_L_CTL_AWHOLD n)) (loopOf s n) (loopSnapshot s g n)

/-! ### The Sluice and the segments (R427–R467) -/

/-- A request of the Sluice's ring at slot address `req.1` has been answered: its STATUS and its time stand in the slot's object,
and DONE shows where it asked for it. -/
def SluiceAnswered (s t : State) (req : Nat × Bool) (code : Nat) : Prop :=
  (req.2 = true → t.on Reg.SLC_EVT_DONE = true) ∧
  ∀ i e, req.1 % 64 = 0 → objectAt s (req.1 / 65536) = some (i, e) → e.tier ≠ 1 → e.tier ≠ 5 → AtHome s e →
    memGet t.mem (objPlace e (req.1 + 3 - e.base * 65536)) = BitVec.ofNat 8 code ∧
    t.loadNat (objPlace e (req.1 + 24 - e.base * 65536)) 8 = s.tnsTsec

/-- Registers of the banks a fill writes: the inactive banks of its loops. -/
def fillBankRegs (s : State) (f : Fill) : List Nat :=
  (setBitsOf 64 f.mask).flatMap fun n => each 16 (Reg.BLV_CLE_L_BK n (1 - loopBank s n))

/-- Registers a request or a check of lane `l` may change. -/
def slcRegs (l : Nat) : List Nat := engineRegs ++ [Reg.SLC_RQ_CONS, Reg.SLC_L_STAT l, Reg.SLC_EVT, Reg.SLC_CNT_REJECT]

/-- A fill of lane `l` has ended without success with STATUS `code`: the lane is IDLE, or DRAIN where its drain still runs; an ARM
pending on it ends with the same STATUS. -/
structure FillFailed (s t : State) (l : Nat) (f : Fill) (code : Nat) : Prop where
  state : laneSt t l = if (laneOf s l).drain.isSome then 4 else 0
  fill : (laneOf t l).fill = none
  armReq : (laneOf t l).armReq = none
  armPend : t.on (Reg.SLC_L_STAT_ARMPEND l) = false
  answered : (laneOf s l).armReq = none → SluiceAnswered s t (f.slot, f.irq) code
  armAnswered : ∀ r, (laneOf s l).armReq = some r → SluiceAnswered s t r code
  others : ∀ m, m ≠ l → laneOf t m = laneOf s m
  frame : ChangesOnly (slcRegs l ++ fillBankRegs s f ++ [Reg.BLV_SRAM_UE, Reg.SLC_EVT]) (.lanes :: .rfx :: engineParts) s t

/-- A failed check has been counted and reported (R431). -/
def CheckRejected (s t : State) : Prop :=
  t.get Reg.SLC_CNT_REJECT_VALUE = satAdd 32 (s.get Reg.SLC_CNT_REJECT_VALUE) 1 ∧ t.on Reg.SLC_EVT_REJECT = true

/-- The bytes that came back in a cycle of a segment: one copy, or both merged (R463). -/
def returnedFrame (s : State) (g : Nat) (c : SegCyc) : Option (List Byte) :=
  match c.retA, c.retB with
  | some a, some b => some (mergeCopies (checkedDatagrams s g) a b)
  | some a, none => some a
  | none, some b => some b
  | none, none => none

/-- A cycle of segment `g` has ended bad (R464, R465): INVALID, its count and event; the SUBN-th in a run enters SUBST, counted and
sent as an emergency. -/
structure BadCycleEnds (s t : State) (g : Nat) (missed : Bool) : Prop where
  ended : (segOf t g).cyc = none
  invalid : t.on (Reg.FLD_ECM_STAT_INVALID g) = true
  counted : t.get (Reg.FLD_ECM_CNT_VALUE g (ofBool missed)) = satAdd 32 (s.get (Reg.FLD_ECM_CNT_VALUE g (ofBool missed))) 1
  event : t.on (if missed then Reg.FLD_ECM_EVT_MISSED g else Reg.FLD_ECM_EVT_BADWKC g) = true
  run : t.get (Reg.FLD_ECM_STAT_BADRUN g) = satAdd 8 (s.get (Reg.FLD_ECM_STAT_BADRUN g)) 1
  below : satAdd 8 (s.get (Reg.FLD_ECM_STAT_BADRUN g)) 1 < max 1 (s.get (Reg.FLD_ECM_CTL_SUBN g)) →
    t.on (Reg.FLD_ECM_STAT_SUBST g) = s.on (Reg.FLD_ECM_STAT_SUBST g) ∧ t.emcy = s.emcy
  enters : max 1 (s.get (Reg.FLD_ECM_CTL_SUBN g)) ≤ satAdd 8 (s.get (Reg.FLD_ECM_STAT_BADRUN g)) 1 →
    s.on (Reg.FLD_ECM_STAT_SUBST g) = false → t.on (Reg.FLD_ECM_STAT_SUBST g) = true ∧ t.on (Reg.FLD_ECM_EVT_SUBST g) = true ∧
    t.get (Reg.FLD_ECM_CNT_VALUE g 2) = satAdd 32 (s.get (Reg.FLD_ECM_CNT_VALUE g 2)) 1 ∧ (segOf t g).subst = true ∧
    (s.emcy.length < 8 → t.emcy = s.emcy ++ [{ code := 0xFF02, data := g }])
  frame : ChangesOnly ([Reg.FLD_ECM_STAT g, Reg.FLD_ECM_EVT g, Reg.FLD_ECS_CNT 7, Reg.FLD_ECS_EVT] ++ each 6 (Reg.FLD_ECM_CNT g) ++
    each 256 (Reg.FLD_ECM_RET g)) [.segs, .diag] s t

/-! ### Fuses (R513) -/

/-- Every bit of `a` is in `b`. -/
def bitsWithin (a b : Nat) : Prop := a ||| b = b

/-- Every key slot of `a` lies within the one of `b`: hash bits and marker. -/
def keysWithin (a b : List (Nat × Bool)) : Prop :=
  a.length = b.length ∧ ∀ i, i < a.length →
    bitsWithin (a.getD i (0, false)).1 (b.getD i (0, false)).1 ∧ ((a.getD i (0, false)).2 = true → (b.getD i (0, false)).2 = true)

/-- Every fuse programmed in `f` is programmed in `g`, and what manufacture programmed is the same (R513). -/
structure FusesWithin (f g : Fuses) : Prop where
  secret : f.secret = g.secret
  serial : f.serial = g.serial
  grade : f.grade = g.grade
  stepping : f.stepping = g.stepping
  cores : f.cores = g.cores
  memGib : f.memGib = g.memGib
  phys : f.phys = g.phys
  lc : bitsWithin f.lc g.lc
  khRsa : keysWithin f.khRsa g.khRsa
  khSlh : keysWithin f.khSlh g.khSlh
  revoke : bitsWithin f.revoke g.revoke
  rollback : bitsWithin f.rollback g.rollback
  protWin : f.protWin.length = g.protWin.length ∧
    ∀ w, w < f.protWin.length → bitsWithin (f.protWin.getD w 0) (g.protWin.getD w 0)
  protDbg : bitsWithin f.protDbg g.protDbg
  protPert : bitsWithin f.protPert g.protPert
  protMark : f.protMark = true → g.protMark = true

/-- The fuse array has the fields of R513 in their widths: four key slots of each kind of 384 bits, eight windows of 64,
LC of 4, REVOKE of 8, ROLLBACK of 64, 8 and 2 bits of debug locks and PERTMODE. -/
structure FuseWidths (f : Fuses) : Prop where
  lc : f.lc < 2 ^ 4
  khRsa : f.khRsa.length = 4 ∧ ∀ k ∈ f.khRsa, k.1 < 2 ^ 384
  khSlh : f.khSlh.length = 4 ∧ ∀ k ∈ f.khSlh, k.1 < 2 ^ 384
  revoke : f.revoke < 2 ^ 8
  rollback : f.rollback < 2 ^ 64
  protWin : f.protWin.length = 8 ∧ ∀ w ∈ f.protWin, w < 2 ^ 64
  protDbg : f.protDbg < 2 ^ 8
  protPert : f.protPert < 2 ^ 2

end Sys2Proof.Machine
end

