-- ==== Sys2Proof/Certificates/Slice0/Obligations.lean ====
section
/-! DEFINITION. The statements for the provers. -/

open Sys2Proof Sys2Proof.Machine Sys2Proof.Machine.Reg

/-! ### The block, its queue and its time -/

/-- A step on a state with commands waiting runs the one at the front of the queue, with the queue's rest. -/
def Obligations.StepRunsFront : Prop :=
  ∀ (c : Instr) (s : State), step { s with pending := c :: s.pending } = exec c s

/-- No command stops the block: each answers a next state, and leaves the queue as it stands. -/
def Obligations.EveryCommandAnswersAndKeepsTheQueue : Prop :=
  ∀ (c : Instr) (s : State), ∃ t, exec c s = .next t ∧ t.pending = s.pending

/-- On an empty queue a step is one cycle of the 1 GHz Bandstand clock: the accumulator of 2^-32 ns gains one nanosecond and the
rate correction Y, modulo its 48 bits of seconds (R268, R280; the tick is the model's choice, log entry 1). Nothing else
changes. -/
def Obligations.TickAdvancesBandstand : Prop :=
  ∀ s : State, s.powered → s.pending = [] →
    ∃ t, step s = .next t ∧ t.cyc = s.cyc + 1 ∧
      ((t.acc : Int) - (s.acc + 2 ^ 32 + s.getInt TIM_SRV_ADJ_VALUE)) % (2 ^ 48 * 1000000000 * 2 ^ 32) = 0 ∧
      t.acc < 2 ^ 48 * 1000000000 * 2 ^ 32 ∧ ChangesOnly [] [.time] s t

/-- A write that meets no cause of R543 gives each field of the register what its access code and class say (R10 to R17, R23): for
every register whose write sets nothing off beside the values it stores. DGN_EVT is apart: an interrupt that merges may set its
MERGE bit in the same command. A write that meets a cause of R543 other than 4 is ignored whole, counted under the lowest cause
it meets, and recorded (R24, R25, R26, R543, R544), where it is the first violation of its cycle: an address that names no
register, or a register that one of causes 1, 2, 3, 5, 6 closes. A read returns the register's value; one that is a violation
returns zero, counted under the lowest cause it meets (R25, R26, R543, R544). CLAIM is apart: its read is ICU_CLAIM. -/
def Obligations.WritesAndReadsOfRegisters : Prop :=
  (∀ (s : State) (who : Initiator) (a : Nat) (v : Word64) (h : RegHit), s.powered → regHit s who a = some h →
    WriteOk s who a v.toNat → (hookRows.find? fun r => r.1 = h.desc.base) = none → h.base ≠ DGN_EVT →
    (h.desc.width = 32 ∨ h.desc.width = 64) →
    Completes (.registerWrite who a (h.desc.width / 8) v) s fun t =>
      (∀ f ∈ h.desc.fields, FieldWritten s t h.base v.toNat f) ∧ ChangesOnly [h.base] [.held, .halves] s t) ∧
  ((∀ (s : State) (who : Initiator) (a size : Nat) (v : Word64), s.powered → s.vioAt ≠ some s.cyc →
    regHit s who a = none →
    Completes (.registerWrite who a size v) s (CountedViolation 0 who a true [] s)) ∧
  (∀ (s : State) (who : Initiator) (a c : Nat) (v : Word64) (h : RegHit), s.powered → s.vioAt ≠ some s.cyc →
    regHit s who a = some h →
    h.upper = false → (h.desc.width = 32 ∨ h.desc.width = 64) → v.toNat < 2 ^ h.desc.width →
    c ∈ accessCauses s who h a (h.desc.width / 8) true ++ valueCauses s h v.toNat → c ≠ 4 →
    (∀ d ∈ accessCauses s who h a (h.desc.width / 8) true ++ valueCauses s h v.toNat, c ≤ d) →
    Completes (.registerWrite who a (h.desc.width / 8) v) s (CountedViolation c who a true [.halves] s))) ∧
  ((∀ (s : State) (who : Initiator) (a : Nat) (h : RegHit), s.powered → regHit s who a = some h → h.upper = false →
    (h.desc.width = 32 ∨ h.desc.width = 64) → ReadOk s who a (h.desc.width / 8) → h.desc.base ≠ BLV_ICU_T_CLAIM 0 →
    Completes (.violatingRead who a (h.desc.width / 8)) s fun t =>
      t.bus = .value (BitVec.ofNat 64 (readValue s who h)) ∧ ChangesOnly [] [.bus, .halves, .harts] s t) ∧
  (∀ (s : State) (who : Initiator) (a size : Nat), s.powered → s.vioAt ≠ some s.cyc → regHit s who a = none →
    Completes (.violatingRead who a size) s fun t =>
      t.bus = .value 0 ∧ CountedViolation 0 who a false [.bus] s t) ∧
  (∀ (s : State) (who : Initiator) (a size c : Nat) (h : RegHit), s.powered → s.vioAt ≠ some s.cyc →
    regHit s who a = some h →
    c ∈ accessCauses s who h a size false → (∀ d ∈ accessCauses s who h a size false, c ≤ d) →
    Completes (.violatingRead who a size) s fun t =>
      t.bus = .value 0 ∧ CountedViolation c who a false [.bus] s t))

/-- A 64-bit register in halves (R9): a lower-half read captures the upper half, which later upper-half reads of that initiator
return, and without a capture the present upper half; a lower-half write is held; an upper-half write acts with its own
initiator's held lower half as one 64-bit write, and without one takes the lower half as it stands, W1C and WO bits zero; a
64-bit write discards the hold; no access touches another initiator's captures or holds. -/
def Obligations.HalvesOfARegister : Prop :=
  ∀ (s : State) (who : Initiator) (b : Nat) (h : RegHit), s.powered → regHit s who b = some h →
    regHit s who (b + 4) = some { h with upper := true } → h.upper = false → h.desc.width = 64 → b % 8 = 0 →
    (ReadOk s who b 4 → h.desc.base ≠ BLV_ICU_T_CLAIM 0 →
      Completes (.registerReadLowerHalf who b) s fun t =>
        t.bus = .value (BitVec.ofNat 64 (readValue s who h % 2 ^ 32)) ∧
        capOf t who (h.base + 4) = some (BitVec.ofNat 32 (readValue s who h / 2 ^ 32)) ∧
        t.holds = s.holds ∧ (∀ w, w ≠ who → ∀ k, capOf t w k = capOf s w k) ∧
        ChangesOnly [] [.bus, .halves, .harts] s t) ∧
    (ReadOk s who (b + 4) 4 →
      Completes (.violatingRead who (b + 4) 4) s fun t =>
        t.bus = .value (match capOf s who (h.base + 4) with
          | some c => BitVec.ofNat 64 c.toNat
          | none => BitVec.ofNat 64 (readValue s who h / 2 ^ 32)) ∧
        ChangesOnly [] [.bus] s t) ∧
    (∀ v : Word32, accessCauses s who h b 4 true = [] → allRo s h = false →
      Completes (.registerWriteLowerHalf who b v) s fun t =>
        heldHalf t who = some { who := who, addr := h.base, val := v } ∧
        (∀ w, w ≠ who → heldHalf t w = heldHalf s w) ∧ t.caps = s.caps ∧ ChangesOnly [] [.halves] s t) ∧
    (∀ hi lo : Word32, heldHalf s who = some { who := who, addr := h.base, val := lo } →
      WriteOk s who b (hi.toNat * 2 ^ 32 + lo.toNat) →
      exec (.registerWrite who (b + 4) 4 (BitVec.ofNat 64 hi.toNat)) s =
        exec (.registerWrite who b 8 (BitVec.ofNat 64 (hi.toNat * 2 ^ 32 + lo.toNat))) s) ∧
    (∀ hi : Word32, heldHalf s who = none → WriteOk s who b (hi.toNat * 2 ^ 32 + restingLower s h) →
      exec (.registerWrite who (b + 4) 4 (BitVec.ofNat 64 hi.toNat)) s =
        exec (.registerWrite who b 8 (BitVec.ofNat 64 (hi.toNat * 2 ^ 32 + restingLower s h))) s) ∧
    (∀ v : Word64, WriteOk s who b v.toNat → (hookRows.find? fun r => r.1 = h.desc.base) = none →
      Completes (.registerWrite who b 8 v) s fun t =>
        heldHalf t who = none ∧ (∀ w, w ≠ who → heldHalf t w = heldHalf s w) ∧ t.caps = s.caps)

/-- A write of 1 to a block's CNT_CLR_ALL clears the block's counters and nothing else (R113, R213, R255, R324, R325, R350, R372,
R411, R440, R441, R475, R493, R540, R557); an interrupt that merges counts in DGN_CNT_MERGE after the clear. The diagnostic
epoch (R545): a write of 1 to BUMP advances it, from 0xFFFF_FFFF to 1, with its cause, its event and its Emergency message; the
causes of one Belvedere cycle are joined. -/
def Obligations.CounterClearsAndEpochBumps : Prop :=
  (∀ (s : State) (who : Initiator) (v : Word64), s.powered →
    (∀ r ∈ clearRows, WriteOk s who r.1 (v.toNat ||| 1) →
      Completes (.counterClear who r.1 v) s fun t =>
        (∀ a ∈ r.2, a ≠ DGN_CNT_MERGE → t.rd a = 0#64) ∧ ChangesOnly r.2 [] s t) ∧
    (∀ p < 5, WriteOk s who (FLD_ETH_CNT_CLR p) (v.toNat ||| 1) →
      Completes (.counterClear who (FLD_ETH_CNT_CLR p) v) s fun t =>
        (∀ i < 3, t.rd (FLD_ETH_CNT p i) = 0#64) ∧ ChangesOnly (each 3 (FLD_ETH_CNT p)) [] s t) ∧
    (∀ g < 4, WriteOk s who (FLD_ECM_CNT_CLR g) (v.toNat ||| 1) →
      Completes (.counterClear who (FLD_ECM_CNT_CLR g) v) s fun t =>
        t.rd (FLD_ECM_CNT_CYCLE g) = 0#64 ∧ (∀ i < 6, t.rd (FLD_ECM_CNT g i) = 0#64) ∧
        ChangesOnly (FLD_ECM_CNT_CYCLE g :: each 6 (FLD_ECM_CNT g)) [] s t) ∧
    (∀ n < 8, WriteOk s who (TC_CNT_CLR n) (v.toNat ||| 1) →
      Completes (.counterClear who (TC_CNT_CLR n) v) s fun t =>
        (∀ a ∈ [TC_CNT_CYC n, TC_CNT_TAIL n, TC_CNT_HEAD n, TC_CNT_SHADOW n, TC_CNT_BUDGET n, TC_CNT_KILL n,
          TC_CNT_FAULT n], t.view a = 0#64) ∧
        ∀ p, p ≠ .cores → Keeps s t p) ∧
    (WriteOk s who TIM_CNT_CLR (v.toNat ||| 1) →
      Completes (.counterClear who TIM_CNT_CLR v) s fun t =>
        (∀ a ∈ [TIM_CNT_STEP, TIM_CNT_SAMPLE, TIM_CNT_REJECT, TIM_CNT_CLAMP], t.rd a = 0#64) ∧
        (∀ c < 32, t.get (TIM_CMP_STAT_MISSED c) = 0) ∧
        ChangesOnly ([TIM_CNT_STEP, TIM_CNT_SAMPLE, TIM_CNT_REJECT, TIM_CNT_CLAMP] ++ each 32 TIM_CMP_STAT) [] s t)) ∧
  (∀ (s : State) (who : Initiator) (v : Word64), s.powered → WriteOk s who DGN_EPOCH_BUMP (v.toNat ||| 1) →
    (s.epochCyc ≠ some s.blvCyc → Completes (.epochBump who v) s fun t =>
      t.get DGN_EPOCH_VALUE = (if s.get DGN_EPOCH_VALUE = 0xFFFFFFFF then 1 else s.get DGN_EPOCH_VALUE + 1) ∧
      t.get DGN_EPOCH_CAUSE_MASK = 64 ∧ t.on DGN_EVT_EPOCH = true ∧
      (s.emcy.length < 8 → t.emcy = s.emcy ++ [{ code := 0xFF05, data := t.get DGN_EPOCH_VALUE }]) ∧
      ChangesOnly [DGN_EPOCH, DGN_EPOCH_CAUSE, FLD_ECS_CNT 7, FLD_ECS_EVT] [.diag] s t) ∧
    (s.epochCyc = some s.blvCyc → Completes (.epochBump who v) s fun t =>
      t.get DGN_EPOCH_CAUSE_MASK = (s.get DGN_EPOCH_CAUSE_MASK ||| 64) ∧ ChangesOnly [DGN_EPOCH_CAUSE] [] s t))

/-- A read of a COMMIT field returns 1 while its group's pending set awaits its boundary, and 0 otherwise (R21). -/
def Obligations.CommitReadsPending : Prop :=
  ∀ (s : State) (a k b : Nat), commitAt a = some (k, b) → (s.view a).toNat.testBit b = s.isPending k

/-! ### Number formats -/

/-- Overflow of a conversion from FP32 to a narrower format is judged after rounding (R57): a finite magnitude from the largest
finite one up to the threshold takes the largest finite code, in both SAT settings; one at or beyond the threshold (in E4M3
beyond 464) overflows, to infinity in BF16 and FP16, and in E4M3 and E5M2 by SAT to the largest finite code, or to NaN and
infinity (R56); CSAT tells the two apart (R59). The magnitude is m × 2^e. -/
def Obligations.NarrowingOverflowsAtItsThreshold : Prop :=
  ∀ (f : NumFmt) (largest threshold : Nat) (tieFits : Bool) (maxCode overCode negMax negOver : Nat) (sat neg : Bool) (m : Nat) (e : Int),
    (f, largest, threshold, tieFits, maxCode, overCode, negMax, negOver) ∈
      [(NumFmt.bf16, 2 ^ 128 - 2 ^ 120, 2 ^ 128 - 2 ^ 119, false, 0x7F7F, 0x7F80, 0xFF7F, 0xFF80),
       (NumFmt.fp16, 65504, 65520, false, 0x7BFF, 0x7C00, 0xFBFF, 0xFC00),
       (NumFmt.e4m3, 448, 464, true, 0x7E, 0x7F, 0xFE, 0x7F),
       (NumFmt.e5m2, 57344, 61440, false, 0x7B, 0x7C, 0xFB, 0xFC)] →
    largest * 2 ^ (-e).toNat ≤ m * 2 ^ e.toNat →
    floatTo f sat (.fin neg m e) =
      if m * 2 ^ e.toNat < threshold * 2 ^ (-e).toNat ∨ (tieFits = true ∧ m * 2 ^ e.toNat = threshold * 2 ^ (-e).toNat) then
        (if neg then negMax else maxCode, false)
      else if sat = true ∧ (f = .e4m3 ∨ f = .e5m2) then (if neg then negMax else maxCode, true)
      else (if neg then negOver else overCode, true)

/-! ### Tensor cores -/

/-- The sequencer (R86, R87, R89, R90, R91, R101), on a core whose engines stand at the present cycle: a fetch takes the next
descriptor of the stream and stops after a COMMIT; a descriptor that passes every check enters its path's queue, or waits as a
FENCE or COMMIT, and TCn_SEQ_DISP takes its SEQ; a FENCE or COMMIT whose paths and STOREs are done completes, and TCn_SEQ_DONE
takes its SEQ. -/
def Obligations.SequencerFetchesAndDispatches : Prop :=
  ∀ (s : State) (n : Nat), s.powered → n < 8 → coreLive s n = true →
    (∀ ctx k bs, (coreOf s n).job = some (ctx, k) → (coreOf s n).fetchStop = false → (coreOf s n).fetched.length < 32 →
      (coreOf s n).fetchAt ≤ s.cyc →
      quietRead s ctx ((coreOf s n).stream + 64 * (coreOf s n).fetchPos) 64 = some bs →
      Completes (.descriptorFetch n) s fun t =>
        (coreOf t n).fetched = (coreOf s n).fetched ++ [leNat bs] ∧ (coreOf t n).fetchPos = (coreOf s n).fetchPos + 1 ∧
        (coreOf t n).fetchStop = (dOpc (leNat bs) == 11) ∧ (∀ m, m ≠ n → coreOf t m = coreOf s m) ∧ t.acks = s.acks ∧
        ChangesOnly (TC_STAT n :: TC_CTX n :: engineRegs) (.cores :: engineParts) s t) ∧
    (∀ ctx k d rest, (coreOf s n).job = some (ctx, k) → upToDate s n = s → (coreOf s n).hold = none →
      (coreOf s n).redo = [] → (coreOf s n).fetched = d :: rest → pathRoom (coreOf s n) d = true →
      dispatchCode s n ctx d = 0 →
      Completes (.dispatch n) s fun t =>
        t.get (TC_SEQ_DISP n) = dSeq d ∧ (coreOf t n).fetched = rest ∧ (coreOf t n).dispNo = (coreOf s n).dispNo + 1 ∧
        (opcPath (dOpc d) = 5 → ∃ q, (coreOf t n).hold = some q ∧ q.desc = d ∧ q.no = (coreOf s n).dispNo + 1) ∧
        (opcPath (dOpc d) ≠ 5 → ∃ q, (coreOf t n).queue (opcPath (dOpc d)) =
          (coreOf s n).queue (opcPath (dOpc d)) ++ [q] ∧ q.desc = d ∧ q.no = (coreOf s n).dispNo + 1) ∧
        ChangesOnly [TC_STAT n, TC_CTX n, TC_SEQ n, SCH_CTX_STAT ctx] [.cores, .sched] s t) ∧
    (∀ q, (coreOf s n).hold = some q → q.start.getD 0 ≤ nowOf s n → (∀ k, (coreOf s n).mark k ≤ nowOf s n) →
      (dOpc q.desc = 10 →
        (∀ p < 5, db q.desc 1 p = true → ∀ x ∈ (coreOf s n).queue p, x.silent = true) →
        (db q.desc 1 8 = true → storesAcked s n = true) →
        Completes (.fence n) s fun t =>
          (coreOf t n).hold = none ∧ t.get (TC_SEQ_DONE n) = dSeq q.desc ∧
          (dIrq q.desc = true → t.on (TC_EVT_DONE n) = true) ∧
          (dIrq q.desc = false → q.raised = false → (∀ st, q.start = some st → nowOf s n ≤ st + dBudget q.desc) →
            ChangesOnly [TC_STAT n, TC_CTX n, TC_SEQ n] [.cores] s t)) ∧
      (dOpc q.desc = 11 → (∀ p < 5, ∀ x ∈ (coreOf s n).queue p, x.silent = true) → storesAcked s n = true →
        Completes (.commit n) s fun t =>
          (coreOf t n).hold = none ∧ (coreOf t n).commitDone = true ∧ t.get (TC_SEQ_DONE n) = dSeq q.desc ∧
          (dIrq q.desc = true → t.on (TC_EVT_DONE n) = true) ∧
          (dIrq q.desc = false → q.raised = false → (∀ st, q.start = some st → nowOf s n ≤ st + dBudget q.desc) →
            ChangesOnly [TC_STAT n, TC_CTX n, TC_SEQ n] [.cores] s t)))

/-- The weight and compute paths write their last unit (R71, R73, R76, R82, R122): a LOAD adds the line to the tile in the shadow
plane; a MATMUL or CONV writes the four lines of its last result vector to the P-store and moves that region's tail. The
command's completion cycle is the one in which that unit is visible. The vector engine and the attention unit write their last
unit (R99, R135, R140, R156): memory holds the rows that the unit computes, and the command's completion cycle is the one in
which they are visible. -/
def Obligations.EnginePathsWriteLastUnit : Prop :=
  (∀ (s : State) (n due : Nat) (c : Cmd), s.powered → n < 8 →
    (LastUnit s n 1 1 c (loadWork n c) due →
      Completes (.load n) s fun t =>
        getCmd t n 1 c.no = some { c with pipe := [], doneAt := some due } ∧
        (coreOf t n).shadow = (coreOf s n).shadow.map (fun p => { p with bytes := p.bytes ++
          (if c.unit - 1 < ldElemLines c.desc then readLines s n (dw c.desc 1 31 0) (c.unit - 1) 1
           else readLines s n (dw c.desc 1 63 32) (c.unit - 1 - ldElemLines c.desc) 1) }) ∧
        ChangesOnly [TC_STAT n, TC_CTX n] [.cores] s t) ∧
    (∀ tile, c.tile = some tile → LastUnit s n 0 2 c (gridWork s n c) due →
      Completes (.matmul n) s fun t =>
        let d := c.desc
        let kext := ldKext tile.desc
        let v := rowLines kext (cpFmt d)
        let j := c.unit - 1
        let x := gridVector tile.desc tile.bytes (cpFmt d) (codesOf (cpFmt d) kext (readLines s n (dw d 1 31 0) (j * v) v))
          (if cpFmt d = 4 then sclRow s n (dw d 1 63 32) j kext else [])
          (if dAcc d then some (codes32 (readLines s n (dw d 2 63 32) (4 * j) 4)) else none)
        getCmd t n 0 c.no = some { c with pipe := [], flags := c.flags ||| x.2, doneAt := some due } ∧
        (∀ a, memGet t.mem a = memGet (writeLines s n (dw d 2 31 0) (4 * j) x.1).mem a) ∧
        t.rd (rgnPtr n (refStore (dw d 2 31 0)) (refRgn (dw d 2 31 0))) =
          (advanceTail s n (dw d 2 31 0) (4 * j) 4 due).rd (rgnPtr n (refStore (dw d 2 31 0)) (refRgn (dw d 2 31 0))) ∧
        ChangesOnly [TC_STAT n, TC_CTX n, rgnPtr n (refStore (dw d 2 31 0)) (refRgn (dw d 2 31 0))] [.cores, .mem] s t) ∧
    (LastUnit s n 0 3 c (gridWork s n c) due →
      Completes (.conv n) s fun t =>
        let e := (gridWork s n c).effect (c.unit - 1) s
        let pdst := dw c.desc 2 31 0
        getCmd t n 0 c.no = some { c with pipe := [], flags := c.flags ||| e.2, doneAt := some due } ∧
        (∀ a, memGet t.mem a = memGet e.1.mem a) ∧
        ChangesOnly [TC_STAT n, TC_CTX n, rgnPtr n (refStore pdst) (refRgn pdst)] [.cores, .mem] s t)) ∧
  (∀ (s : State) (n due : Nat) (c : Cmd), s.powered → n < 8 →
    (LastUnit s n 2 4 c (workOf s n c) due →
      Completes (.pool n) s fun t =>
        getCmd t n 2 c.no = some { c with
          pipe := [], flags := c.flags ||| ((workOf s n c).effect (c.unit - 1) s).2, doneAt := some due } ∧
        (∀ a, memGet t.mem a = memGet ((workOf s n c).effect (c.unit - 1) s).1.mem a) ∧
        ∀ p, p ≠ .cores → p ≠ .mem → Keeps s t p) ∧
    (LastUnit s n 2 5 c (workOf s n c) due →
      Completes (.roia n) s fun t =>
        getCmd t n 2 c.no = some { c with
          pipe := [], flags := c.flags ||| ((workOf s n c).effect (c.unit - 1) s).2, doneAt := some due } ∧
        (∀ a, memGet t.mem a = memGet ((workOf s n c).effect (c.unit - 1) s).1.mem a) ∧
        ∀ p, p ≠ .cores → p ≠ .mem → Keeps s t p) ∧
    (LastUnit s n 2 7 c (workOf s n c) due →
      Completes (.vec n) s fun t =>
        getCmd t n 2 c.no = some { c with
          pipe := [], flags := c.flags ||| ((workOf s n c).effect (c.unit - 1) s).2, doneAt := some due } ∧
        (∀ a, memGet t.mem a = memGet ((workOf s n c).effect (c.unit - 1) s).1.mem a) ∧
        ∀ p, p ≠ .cores → p ≠ .mem → Keeps s t p) ∧
    (c.landed ≠ [] → LastUnit s n 3 6 c (attnWork c n) due →
      Completes (.attn n) s fun t =>
        getCmd t n 3 c.no = some { c with pipe := [], flags := c.flags ||| ((attnWork c n).effect (c.unit - 1) s).2
                                          doneAt := some due } ∧
        ∀ a, memGet t.mem a = memGet ((attnWork c n).effect (c.unit - 1) s).1.mem a))

/-- An ATTN at the head of its path that has no answer yet, with every earlier command of the weight, compute and vector paths
done, takes the planes and sends its page request (R70, R142, R167); one whose pages the controller refused writes zeros over
its whole output (R170). A completed command leaves its queue, and TCn_SEQ_DONE takes its SEQ (R101); with IRQ the DONE event
is set. A unit stalled on a tail issues in the first cycle in which its lines can be read, one stalled on a head is written in
the cycle before the first in which they are released (R80, R81, R85): the stall cycles are counted. A stalled STORE or PULL
resumes as its tile moves. -/
def Obligations.AttentionRequestsAndCommandsComplete : Prop :=
  (∀ (s : State) (n : Nat) (c : Cmd), s.powered → n < 8 → coreLive s n = true →
    (∀ rest, (coreOf s n).queue 3 = c :: rest → c.start.isSome = true → c.landed = [] → c.wait ≠ 5 →
      (∀ p < 3, ∀ q ∈ (coreOf s n).queue p, c.no ≤ q.no) → (∀ q ∈ rest, q.no ≠ c.no) →
      Completes (.attn n) s fun t =>
        (∃ r, t.kvpQueue = (s.kvpPut r).kvpQueue ∧ r.kind = 0 ∧ r.core = n ∧ r.ptab = atPtab c.desc ∧ r.at_ = s.cyc) ∧
        (coreOf t n).queue 3 = { c with wait := 5 } :: rest ∧
        (coreOf t n).active = none ∧ (coreOf t n).shadow = none ∧ (coreOf t n).shadowSt = 0 ∧ t.pools = s.pools ∧
        ((coreOf t n).reload = match (coreOf s n).shadow with
          | some p => some (p.desc, p.rel)
          | none => (coreOf s n).reload) ∧
        (∀ a, a ∉ [TC_STAT n, TC_CTX n, DGN_CNT_MERGE, DGN_EVT] → a ∉ engineRegs →
          t.rd a = (dropPlane s n (coreOf s n).active 0).rd a) ∧
        ∀ p, p ∉ .cores :: .pools :: engineParts → Keeps s t p) ∧
    (∀ due, LastUnit s n 3 6 c (attnWork c n) due → c.landed.contains 2 = true →
      Completes (.attn n) s fun t =>
        ∀ a, memGet t.mem a = memGet (writeLines s n (dw c.desc 1 63 32) 0
          (List.replicate (atNQ c.desc * rowLines (atOElems c.desc) (atQFmt c.desc) * 512) 0#8)).mem a)) ∧
  (∀ (s : State) (n p : Nat) (c : Cmd), s.powered → n < 8 → p < 5 → coreLive s n = true → (coreOf s n).queue p = [c] →
    (∀ due, c.doneAt = some due → due ≤ nowOf s n → c.silent = false → (p = 3 → (coreOf s n).reload = none) →
      Completes (.commandComplete n p) s fun t =>
        (coreOf t n).queue p = [] ∧ t.get (TC_SEQ_DONE n) = dSeq c.desc ∧ (p = 1 → (coreOf t n).shadowSt = 2) ∧
        (dIrq c.desc = true → t.on (TC_EVT_DONE n) = true)) ∧
    (∀ f at_, p < 4 → c.wait = 1 → c.unit < (workOf s n c).total →
      allFrom (readFrom s n) ((workOf s n c).reads c.unit) = some f → at_ = max f c.next → at_ ≤ nowOf s n →
      (dOpc c.desc = 2 ∨ dOpc c.desc = 3 → 0 < c.unit ∨ cpSwap c.desc = false ∨ c.swapped = true) →
      Completes (.readStallResume n p) s fun t =>
        (coreOf t n).queue p = [{ c with
          wait := 0, unit := c.unit + 1, next := at_ + (workOf s n c).cost c.unit
          pipe := c.pipe ++ [(workOf s n c).due c.unit at_ (at_ + (workOf s n c).cost c.unit)]
          stalls := c.stalls + (at_ - c.next) }] ∧
        t.get (TC_CNT_TAIL_VALUE n) = (s.get (TC_CNT_TAIL_VALUE n) + (at_ - c.next)) % 2 ^ 64 ∧
        ChangesOnly [TC_STAT n, TC_CTX n, TC_CNT_TAIL n] [.cores] s t) ∧
    (∀ u rest f at_ j, p < 3 → opcPath (dOpc c.desc) = p → c.wait = 2 → c.pipe = u :: rest → j = c.unit - c.pipe.length →
      allFrom (writeFrom s n) ((workOf s n c).writes j) = some f → at_ = max u (f + 1) → at_ ≤ nowOf s n →
      Completes (.writeStallResume n p) s fun t =>
        (∃ q, getCmd t n p c.no = some q ∧ q.wait = 0 ∧ q.pipe = rest.map (· + (at_ - u)) ∧ q.next = c.next + (at_ - u) ∧
          q.stalls = c.stalls + (at_ - u) ∧ q.flags = c.flags ||| ((workOf s n c).effect j s).2) ∧
        (∀ a, memGet t.mem a = memGet ((workOf s n c).effect j s).1.mem a) ∧
        t.get (TC_CNT_HEAD_VALUE n) = (s.get (TC_CNT_HEAD_VALUE n) + (at_ - u)) % 2 ^ 64 ∧
        ∀ x, x ∉ [Part.cores, .mem] → Keeps s t x) ∧
    (p = 4 → c.wait = 1 → exec (.readStallResume n 4) s = exec (.store n) s) ∧
    (p = 4 → c.wait = 2 → exec (.writeStallResume n 4) s = exec (.pull n) s))

/-- The tile mover (R75, R82, R91, R112, R200, R245, R246): a PULL asks for its next tile, of this module or, with a remote read
slot, of another; a tile lands in its region; a STORE writes its next tile to the object for the step and waits for its
acknowledgement, each tile taking 256 cycles of its port; an acknowledgement is taken. -/
def Obligations.TileMoverMovesTiles : Prop :=
  ∀ (s : State) (n : Nat), s.powered → n < 8 → coreLive s n = true →
    (∀ ctx k c f, jobOf s n = some (ctx, k) → tileCmd s n 8 = some c → c.start.isSome = true →
      writeFrom s n (mvRef c.desc, 128 * c.unit, 128) = some f → f ≤ c.next → c.next ≤ nowOf s n →
      peerUnit s ctx (mvAddr c.desc + c.unit * 65536) = none →
      Completes (.pull n) s fun t =>
        (∃ q, getCmd t n 4 c.no = some q ∧ q.desc = c.desc ∧ q.unit = c.unit + 1 ∧ q.next = c.next + 1 ∧ q.wait = 0 ∧
          q.stalls = c.stalls) ∧
        ChangesOnly [TC_STAT n, TC_CTX n] [.cores] s t) ∧
    (∀ ctx k c f m u slot, jobOf s n = some (ctx, k) → tileCmd s n 8 = some c → c.start.isSome = true →
      writeFrom s n (mvRef c.desc, 128 * c.unit, 128) = some f → f ≤ c.next → c.next ≤ nowOf s n →
      peerUnit s ctx (mvAddr c.desc + c.unit * 65536) = some (m, u) →
      freeSlot (s.lookup (mvAddr c.desc + c.unit * 65536)) = some slot →
      Completes (.pull n) s fun t =>
        (∃ q, getCmd t n 4 c.no = some q ∧ q.desc = c.desc ∧ q.unit = c.unit + 1 ∧ q.wait = 0) ∧
        tget t.sched.remote slot = some { core := n, epoch := (coreOf s n).epoch, no := c.no, tile := c.unit, module := m
                                          unit := u, ctx := ctx } ∧
        ∀ p, p ∉ [Part.cores, .sched, .cwy, .out, .free, .place] → Keeps s t p) ∧
    (∀ ctx k c f i e a, jobOf s n = some (ctx, k) → tileCmd s n 9 = some c → c.start.isSome = true → c.wait ≠ 6 →
      readFrom s n (mvRef c.desc, 128 * c.unit, 128) = some f → f ≤ c.next → c.next ≤ nowOf s n →
      a = mvAddr c.desc + c.unit * 65536 →
      resolve s false ctx a 65536 true = .ok (i, e) → protClosed s 2 a true = false →
      (e.tier = 4 → hostUp s = true) → e.st ≠ 2 → e.st ≠ 3 → tget s.plt i = some e →
      Completes (.store n) s fun t =>
        (∃ q, getCmd t n 4 c.no = some q ∧ q.desc = c.desc ∧ q.unit = c.unit + 1 ∧ q.next = c.next + 256 ∧
          (c.unit + 1 = mvTiles c.desc → q.doneAt = some (c.next + 256))) ∧
        (∀ b, memGet t.mem b = memGet (s.store (objPlace e (a - e.base * 65536))
          (readLines s n (mvRef c.desc) (128 * c.unit) 128)).mem b) ∧
        t.acks = s.acks ++ [{ pcore := n, ctx := ctx, lcore := k, unit := a / 65536 }] ∧
        ChangesOnly [TC_STAT n, TC_CTX n, MEM_TMV_CNT_TILES, MEM_PLT_CNT_LKMISS] [.cores, .mem, .poison, .place, .free] s t) ∧
    (∀ (tile : Nat) (c : Cmd) ctx k i e a, jobOf s n = some (ctx, k) → (coreOf s n).queue 4 = [c] → dOpc c.desc = 8 →
      tile < c.unit → tile ∉ c.landed → s.sched.remote = [] → a = mvAddr c.desc + tile * 65536 →
      (coreOf s n).mark portKey ≤ nowOf s n → c.start.getD 0 + 256 ≤ nowOf s n → tget c.src tile = some e →
      resolve s false ctx a 65536 false = .ok (i, e) → protClosed s 2 a false = false → unpublished s ctx e = false →
      (e.tier = 4 → hostUp s = true) → poisonedIn s (objPlace e (a - e.base * 65536)) 65536 = [] →
      Completes (.tileLanded n tile []) s fun t =>
        (∃ d, getCmd t n 4 c.no = some { c with landed := c.landed ++ [tile], doneAt := d }) ∧
        (∀ b, memGet t.mem b = memGet (writeLines s n (mvRef c.desc) (128 * tile)
          (objRead (s.lookup a) e (a - e.base * 65536) 65536)).mem b) ∧
        ChangesOnly [TC_STAT n, TC_CTX n, MEM_TMV_CNT_TILES, MEM_PLT_CNT_LKMISS,
          rgnPtr n (refStore (mvRef c.desc)) (refRgn (mvRef c.desc))] [.cores, .mem, .place, .free] s t) ∧
    (∀ (tile : Nat) (w : StoreAck), w ∈ s.acks → w.pcore = n → w.unit = tile →
      Completes (.storeAck n tile) s fun t =>
        (∃ v ∈ s.acks, v.pcore = n ∧ v.unit = tile ∧ t.acks = s.acks.erase v) ∧
        (∀ p, (coreOf t n).queue p = (coreOf s n).queue p) ∧
        ChangesOnly [TC_STAT n, TC_CTX n] [.cores] s t)

/-- Budgets and the core's enable (R106, R107, R109, R113, R224, R238), on a core whose engines stand at the present cycle: a
command that has not completed by its start plus BUDGET raises BUDGET, once, and continues; past 16 times BUDGET it faults its
context with code 0x09; a kill that completes is counted, and a core with no step left on it is free; TCn_CTRL_ENABLE takes the
value written, and 0 pre-empts the step, in a MAINT slot only at its end. -/
def Obligations.BudgetsKillsAndCoreEnable : Prop :=
  ∀ (s : State) (n p : Nat) (c : Cmd), s.powered → n < 8 → p < 5 →
    (∀ st, coreLive s n = true → upToDate s n = s → (coreOf s n).queue p = [c] → c.silent = false →
      c.start = some st → c.raised = false →
      st + dBudget c.desc < nowOf s n → c.doneAt = none →
      Completes (.budgetRaise n p) s fun t =>
        (coreOf t n).queue p = [{ c with raised := true }] ∧ t.on (TC_EVT_BUDGET n) = true ∧
        t.get (TC_CNT_BUDGET_VALUE n) = satAdd 32 (s.get (TC_CNT_BUDGET_VALUE n)) 1 ∧
        ChangesOnly [TC_STAT n, TC_CTX n, TC_CNT_BUDGET n, TC_EVT n] [.cores] s t) ∧
    (∀ st ctx k, coreLive s n = true → upToDate s n = s → (coreOf s n).queue p = [c] → c.silent = false →
      c.start = some st →
      jobOf s n = some (ctx, k) → ctx < 64 → st + 16 * dBudget c.desc < nowOf s n → c.doneAt = none →
      Completes (.budgetKill n p) s fun t =>
        t.get (TC_FAULT_CODE n) = 9 ∧ t.get (TC_FAULT_OPC n) = dOpc c.desc ∧ t.get (TC_FAULT_SEQ n) = dSeq c.desc ∧
        t.get (TC_FAULT_CTX n) = ctx ∧ t.on (TC_EVT_FAULT n) = true ∧
        t.get (TC_CNT_FAULT_VALUE n) = satAdd 32 (s.get (TC_CNT_FAULT_VALUE n)) 1) ∧
    ((coreOf s n).killing = true → (coreOf s n).maint = false → lcoreOn s n [2] = none →
      Completes (.killComplete n) s fun t => ∃ u, EndsAs s (schDecide u) t ∧
        (coreOf u n).job = none ∧ (coreOf u n).killing = false ∧ u.on (TC_EVT_KILL n) = true ∧
        u.get (TC_CNT_KILL_VALUE n) = satAdd 32 (s.get (TC_CNT_KILL_VALUE n)) 1 ∧
        (∀ m, m ≠ n → coreOf u m = coreOf s m)) ∧
    (∀ (who : Initiator) (v : Word64), WriteOk s who (TC_CTRL n) v.toNat → v.toNat % 2 = 1 →
      Completes (.tcEnableWrite who n v) s fun t =>
        t.on (TC_CTRL_ENABLE n) = true ∧ ChangesOnly [TC_CTRL n] [] s t) ∧
    (∀ (who : Initiator) (v : Word64) ctx k st, WriteOk s who (TC_CTRL n) v.toNat → v.toNat % 2 = 0 →
      s.on (TC_CTRL_ENABLE n) = true → inMaint s = false → lcoreOn s n [1, 5] = some (ctx, k, st) →
      Completes (.tcEnableWrite who n v) s fun t => ∃ u, EndsAs s (preempt u ctx) t ∧
        u.on (TC_CTRL_ENABLE n) = false ∧ ∀ a, a ≠ TC_CTRL n → u.rd a = s.rd a) ∧
    (∀ (who : Initiator) (v : Word64), WriteOk s who (TC_CTRL n) v.toNat → v.toNat % 2 = 0 → inMaint s = true →
      Completes (.tcEnableWrite who n v) s fun t =>
        t.on (TC_CTRL_ENABLE n) = false ∧ ChangesOnly [TC_CTRL n] [] s t)

/-! ### The scheduler -/

/-- At a slot's end the scheduler enters the next slot, or the first of the next frame, and SCH_NOW follows (R219, R224): then come
the boundary's actions. A MAINT slot holds every core and starts the retraining of LPDDR5X that is ready (R223, R205). A core
whose 2.0 us relock is over counts again from the next edge of the 100 MHz reference, one in ten cycles (R35, R37); a timetable
COMMIT snapshots the held group for the next frame boundary (R18, R221), or with the scheduler disabled judges it at once (R22)
and refuses a bad one; a write of SCH_CTRL_ENABLE starts frames or pre-empts every step (R219, R255). -/
def Obligations.SlotBoundaryRelockAndTimetable : Prop :=
  (∀ s : State, s.powered → s.on SCH_CTRL_READY = true → s.sched.slotEnd ≤ s.accNs →
    (s.sched.slot + 1 < s.sched.slots.length →
      Completes .slotBoundary s fun t => ∃ u, EndsAs s (boundaryActions u) t ∧
        u.sched = { s.sched with
          slot := s.sched.slot + 1
          slotEnd := s.sched.slotEnd + (s.sched.slots.getD (s.sched.slot + 1) (curSlot s)).len } ∧
        u.get SCH_NOW_SLOT = (s.sched.slot + 1) % 64 ∧ u.get SCH_NOW_KIND = (curSlot u).kind % 4 ∧
        u.get SCH_NOW_FRAME = s.get SCH_NOW_FRAME ∧ ∀ a, a ≠ SCH_NOW → u.rd a = s.rd a) ∧
    (s.sched.slots.length ≤ s.sched.slot + 1 → s.on DGN_TEL_CTL_ENABLE = false → s.telWaiting = false →
      s.isPending 0 = false → cwyFormed s = false →
      Completes .slotBoundary s fun t => ∃ u, EndsAs s (boundaryActions u) t ∧
        u.sched = { s.sched with
          slot := (slotAt s.sched.slots 0).1, slotEnd := s.sched.slotEnd + (slotAt s.sched.slots 0).2 } ∧
        u.get SCH_NOW_FRAME = (s.get SCH_NOW_FRAME + 1) % 2 ^ 56 ∧ u.get SCH_NOW_SLOT = (slotAt s.sched.slots 0).1 % 64 ∧
        ∀ a, a ≠ SCH_NOW → u.rd a = s.rd a) ∧
    (s.sched.slot + 1 < s.sched.slots.length → (s.sched.slots.getD (s.sched.slot + 1) (curSlot s)).kind = 1 →
      s.on MEM_DDR_STAT_READY = true →
      Completes .slotBoundary s fun t =>
        t.on MEM_DDR_STAT_RETRAIN = true ∧ (∀ n < 8, s.fuses.phys.testBit n = true → (coreOf t n).maint = true) ∧
        ∀ n < 64, tgetD t.sched.snaps n 0 = s.get (SCH_CTX_SPROD_INDEX n))) ∧
  (∀ s : State, s.powered →
    (∀ n e, n < 8 → (coreOf s n).relockEnd = some e → (e + 9) / 10 * 10 ≤ s.cyc →
      Completes (.coreRelockEnd n) s fun t =>
        coreOf t n = { coreOf s n with
          clkAcc := (coreOf s n).clkAcc / 10 * 10, clkAt := (e + 9) / 10 * 10, relockEnd := none } ∧
        (t.get SYS_ISLAND_STAT_CORE).testBit n = (s.get SYS_CORE_MAP_POWERED).testBit n ∧
        ChangesOnly [TC_STAT n, TC_CTX n, SYS_ISLAND_STAT] [.cores] s t) ∧
    (∀ (who : Initiator) (v : Word64), WriteOk s who SCH_TT_COMMIT (v.toNat ||| 1) → cwyFormed s = false →
      (s.on SCH_CTRL_ENABLE = true →
        Completes (.ttCommit who v) s fun t =>
          t.isPending 0 = true ∧ (∀ r ∈ keyRegs 0, t.pendRd 0 r.1 = s.heldRd r.1) ∧
          ChangesOnly [SCH_TT_COMMIT] [.held] s t) ∧
      (s.on SCH_CTRL_ENABLE = false → ttPending (s.snapshot 0) = none →
        Completes (.ttCommit who v) s fun t =>
          t.isPending 0 = false ∧ t.on SCH_CTRL_TTERR = true ∧ t.on SCH_EVT_TTERR = true ∧
          t.get SCH_CNT_TTERR_VALUE = satAdd 32 (s.get SCH_CNT_TTERR_VALUE) 1 ∧
          ChangesOnly ([SCH_TT_COMMIT, SCH_CTRL, SCH_EVT, SCH_CNT_TTERR] ++ engineRegs) (.held :: engineParts) s t)) ∧
    (∀ (who : Initiator) (v : Word64), WriteOk s who SCH_CTRL v.toNat →
      (s.on SCH_CTRL_ENABLE = false → s.on SCH_CTRL_READY = false → v.toNat % 2 = 1 → s.epochMode = false →
        Completes (.schedulerEnable who v) s fun t => ∃ u, EndsAs s (boundaryActions u) t ∧
          u.on SCH_CTRL_ENABLE = true ∧ u.on SCH_CTRL_READY = true ∧ u.get SCH_NOW_FRAME = 0 ∧
          u.sched = { s.sched with
            slot := (slotAt s.sched.slots 0).1, slotEnd := s.accNs + (slotAt s.sched.slots 0).2 } ∧
          ∀ a, a ≠ SCH_CTRL → a ≠ SCH_NOW → u.rd a = s.rd a) ∧
      (s.on SCH_CTRL_ENABLE = true → v.toNat % 2 = 0 → inMaint s = false →
        Completes (.schedulerEnable who v) s fun t => ∃ u : State,
          EndsAs s (ttLatch ((u.sched.steps.foldl (fun s p => preempt s p.1) u).setOff SCH_CTRL_READY)) t ∧
          u.on SCH_CTRL_ENABLE = false ∧ u.sched = s.sched ∧ ∀ a, a ≠ SCH_CTRL → u.rd a = s.rd a)))

/-- Steps end, spill and resume (R91, R236, R239, R241, R244): the COMMIT report of a logical core frees its core, and the last one
commits the step: its tag, SCONS, the context's count; a spill tile acknowledged is written for the context, and the last frees
the core; a restore tile lands, and the last makes the logical core run. A remote tile response lands in the PULL that asked
for it and frees its slot; one whose core has been killed since is discarded and counted (R246); while a MAINT slot holds the
core, the response waits (R223). -/
def Obligations.StepsCommitSpillResumeAndRemoteData : Prop :=
  (∀ (s : State) (n ctx k : Nat) (st : Step), s.powered → n < 8 → ctx < 64 →
    (lcoreOn s n [1] = some (ctx, k, st) → (coreOf s n).commitDone = true →
      (∀ j ∈ eLcores st.entry, j ≠ k → (st.lcore j).st = 6) →
      Completes (.commitReport n) s fun t => ∃ u, EndsAs s (schDecide (readyStep u ctx)) t ∧
        (coreOf u n).job = none ∧ stepOf u ctx = none ∧
        u.get (SCH_CTX_SCONS_INDEX ctx) = (s.get (SCH_CTX_SCONS_INDEX ctx) + 1) % 65536 ∧
        u.get (SCH_CTX_CNT_STEPS_VALUE ctx) = satAdd 32 (s.get (SCH_CTX_CNT_STEPS_VALUE ctx)) 1 ∧
        (∀ g, st.tag = some g → ∃ ts, tget u.tags g = some ts ∧ ts.committed = true) ∧
        (eIrq st.entry = true → u.on SCH_EVT_COMMIT = true)) ∧
    (∀ j, lcoreOn s n [1] = some (ctx, k, st) → (coreOf s n).commitDone = true → j ∈ eLcores st.entry → j ≠ k →
      (st.lcore j).st ≠ 6 →
      Completes (.commitReport n) s fun t => ∃ u, EndsAs s (schDecide (settleStep u ctx)) t ∧
        (coreOf u n).job = none ∧ stepOf u ctx = some (st.withLcore k { st.lcore k with st := 6 })) ∧
    (∀ addr place rest i e, lcoreOn s n [3] = some (ctx, k, st) → (coreOf s n).xfer = (addr, place) :: rest →
      (coreOf s n).maint = false → resolve s false ctx addr 65536 true = .ok (i, e) → (e.tier = 4 → hostUp s = true) →
      e.st ≠ 2 → e.st ≠ 3 →
      (rest ≠ [] →
        Completes (.spillTileAck n) s fun t =>
          (coreOf t n).xfer = rest ∧ t.get SCH_CNT_SPILLT_VALUE = satAdd 32 (s.get SCH_CNT_SPILLT_VALUE) 1 ∧
          (∀ a, memGet t.mem a =
            memGet (s.store (objPlace e (addr - e.base * 65536)) (s.load place 65536)).mem a) ∧
          ChangesOnly [TC_STAT n, TC_CTX n, SCH_CNT_SPILLT, MEM_PLT_CNT_LKMISS] [.cores, .mem, .poison, .free, .place] s t) ∧
      (rest = [] →
        Completes (.spillTileAck n) s fun t => ∃ u, EndsAs s (schDecide (settleStep u ctx)) t ∧
          (coreOf u n).job = none ∧ stepOf u ctx = some (st.withLcore k { st.lcore k with st := 4 }) ∧
          ∀ a, memGet u.mem a =
            memGet (s.store (objPlace e (addr - e.base * 65536)) (s.load place 65536)).mem a)) ∧
    (∀ addr place rest i e, lcoreOn s n [5] = some (ctx, k, st) → (coreOf s n).xfer = (addr, place) :: rest →
      (coreOf s n).maint = false → resolve s false ctx addr 65536 false = .ok (i, e) → (e.tier = 4 → hostUp s = true) →
      unpublished s ctx e = false → poisonedIn s (objPlace e (addr - e.base * 65536)) 65536 = [] →
      Completes (.restoreTileLanded n []) s fun t =>
        (coreOf t n).xfer = rest ∧
        (∀ a, memGet t.mem a =
          memGet (s.store place (objRead (s.lookup addr) e (addr - e.base * 65536) 65536)).mem a) ∧
        (rest = [] → (coreOf t n).restoring = false ∧
          ∃ st', stepOf t ctx = some st' ∧ (st'.lcore k).st = 1 ∧ (st.st = 8 → st'.st = 3)) ∧
        ChangesOnly [TC_STAT n, TC_CTX n, SCH_CTX_STAT ctx, MEM_PLT_CNT_LKMISS] [.cores, .sched, .mem, .free, .place] s t)) ∧
  (∀ (s : State) (slot : Nat) (data : List Byte) (r : RemoteSlot), s.powered → tget s.sched.remote slot = some r →
    (r.epoch ≠ (coreOf s r.core).epoch → (coreOf s r.core).maint = false →
      Completes (.remoteReadResponse slot data) s fun t =>
        t.get SCH_CNT_STALE_VALUE = satAdd 32 (s.get SCH_CNT_STALE_VALUE) 1 ∧ t.on SCH_EVT_STALE = true ∧
        t.sched = { s.sched with remote := tdel s.sched.remote slot } ∧
        ChangesOnly [SCH_CNT_STALE, SCH_EVT] [.sched] s t) ∧
    ((coreOf s r.core).maint = true →
      Completes (.remoteReadResponse slot data) s fun t => t.sched = s.sched ∧ ChangesOnly [] [] s t) ∧
    (∀ c, r.epoch = (coreOf s r.core).epoch → (coreOf s r.core).maint = false → r.core < 8 → (coreOf s r.core).queue 4 = [c] → r.no = c.no →
      dOpc c.desc = 8 →
      Completes (.remoteReadResponse slot data) s fun t =>
        (∃ d, getCmd t r.core 4 c.no = some { c with landed := c.landed ++ [r.tile], doneAt := d }) ∧
        (∀ a, memGet t.mem a =
          memGet (writeLines s r.core (mvRef c.desc) (128 * r.tile) (padBytes 65536 data)).mem a) ∧
        t.sched = { s.sched with remote := tdel s.sched.remote slot } ∧
        ChangesOnly [TC_STAT r.core, TC_CTX r.core, MEM_TMV_CNT_TILES,
          rgnPtr r.core (refStore (mvRef c.desc)) (refRgn (mvRef c.desc))] [.cores, .sched, .mem] s t))

/-- Contexts (R229, R238, R254, R545): enabling a context with an entry at SCONS makes that step READY, without one leaves it IDLE;
disabling one with no step running stops it; a 1 to FAULTED clears it, where it was not set in the same cycle, and advances the
recovery epoch. -/
def Obligations.ContextsEnableDisableAndRecover : Prop :=
  ∀ (s : State) (who : Initiator) (n : Nat) (v : Word64), s.powered → n < 64 → stepOf s n = none →
    (WriteOk s who (SCH_CTX_CTL n) v.toNat → s.on (SCH_CTX_CTL_FAULTED n) = false →
      (s.on (SCH_CTX_CTL_ENABLE n) = false → v.toNat % 2 = 1 →
        (s.get (SCH_CTX_SCONS_INDEX n) = tgetD s.sched.snaps n 0 →
          Completes (.contextEnable who n v) s fun t =>
            t.on (SCH_CTX_CTL_ENABLE n) = true ∧ t.get (SCH_CTX_STAT_STATE n) = 1 ∧
            t.get (SCH_CTX_CTL_PMASK n) = bitsOf v.toNat 15 8 ∧ t.get (SCH_CTX_CTL_PRIO n) = bitsOf v.toNat 6 4 ∧
            ChangesOnly [SCH_CTX_CTL n, SCH_CTX_STAT n] [] s t) ∧
        (s.get (SCH_CTX_SCONS_INDEX n) ≠ tgetD s.sched.snaps n 0 →
          Completes (.contextEnable who n v) s fun t =>
            t.on (SCH_CTX_CTL_ENABLE n) = true ∧ t.get (SCH_CTX_STAT_STATE n) = 2 ∧
            (∃ st, stepOf t n = some st ∧ st.st = 2 ∧ st.readyAt = s.sched.boundary) ∧
            (∀ m, m ≠ n → stepOf t m = stepOf s m) ∧
            ChangesOnly [SCH_CTX_CTL n, SCH_CTX_STAT n] [.sched] s t)) ∧
      (s.on (SCH_CTX_CTL_ENABLE n) = true → v.toNat % 2 = 0 →
        Completes (.contextEnable who n v) s fun t =>
          t.on (SCH_CTX_CTL_ENABLE n) = false ∧ t.get (SCH_CTX_STAT_STATE n) = 0 ∧ stepOf t n = none ∧
          ChangesOnly [SCH_CTX_CTL n, SCH_CTX_STAT n] [] s t)) ∧
    (WriteOk s who (SCH_CTX_CTL n) (v.toNat ||| 2) → s.on (SCH_CTX_CTL_FAULTED n) = true →
      (s.freshBits (SCH_CTX_CTL n)).testBit 1 = false → v.toNat % 2 = s.get (SCH_CTX_CTL_ENABLE n) →
      s.epochCyc ≠ some s.blvCyc →
      Completes (.contextFaultClear who n v) s fun t =>
        t.on (SCH_CTX_CTL_FAULTED n) = false ∧ t.get DGN_EPOCH_CAUSE_MASK = 2 ^ 4 ∧
        t.get DGN_EPOCH_VALUE = (if s.get DGN_EPOCH_VALUE = 0xFFFFFFFF then 1 else s.get DGN_EPOCH_VALUE + 1) ∧
        t.on DGN_EVT_EPOCH = true ∧
        ChangesOnly [SCH_CTX_CTL n, SCH_CTX_STAT n, DGN_EPOCH, DGN_EPOCH_CAUSE, FLD_ECS_CNT 7, FLD_ECS_EVT] [.sched, .diag]
          s t)

/-! ### Memory tiers, placement and page pools -/

/-- CREATE, DESTROY, PIN, UNPIN and READ (R189, R190): an accepted request fills, frees, pins, unpins or copies its entry and ends
DONE; every other entry stands. PROMOTE, EVICT and refusals (R189, R191, R192, R193): a promote of a resident object to a
faster tier pins it and starts a copy; to its own tier it is a pin; an evict starts a copy, or with a pin is deferred; a
request with a reserved OP or a non-zero unused byte ends BADOP and leaves the table as it was. -/
def Obligations.PlacementRequestsActOrRefuse : Prop :=
  (∀ (s : State) (bs : List Byte) (r : PltReq), s.powered → headRequest s = some (bs, r) → badRequest bs = false →
    r.obj < pltCount s →
    (r.op = 1 → tget s.plt r.obj = none → r.size ≠ 0 → tierOk s r.tier r.taddr r.size = true →
      r.base + r.size ≤ 16777216 → (∀ p ∈ s.plt, r.base + r.size ≤ p.2.base ∨ p.2.base + p.2.size ≤ r.base) →
      Completes .pltCreate s fun t =>
        RequestEnds s t r 1 ∧ tget t.plt r.obj = some
          { base := r.base, size := r.size, tier := r.tier, st := 1, pin := 0, taddr := r.taddr, ctx := r.ctx, shr := r.shr
            nopub := r.nopub, unc := false, err := false, wtag := 0, dtier := 0, dtaddr := 0, moved := 0, rslot := 0 } ∧
        (∀ i, i ≠ r.obj → tget t.plt i = tget s.plt i) ∧
        ChangesOnly [MEM_PLQ_CONS, MEM_PLT_LIVE, MEM_PLT_MIGR, MEM_PLT_EVT] [.mem, .place] s t) ∧
    (∀ e, r.op = 2 → r.obj ≠ 0 → tget s.plt r.obj = some e → e.pin = 0 → e.st = 1 →
      Completes .pltDestroy s fun t =>
        RequestEnds s t r 1 ∧ tget t.plt r.obj = none ∧ (∀ i, i ≠ r.obj → tget t.plt i = tget s.plt i) ∧
        ChangesOnly [MEM_PLQ_CONS, MEM_PLT_LIVE, MEM_PLT_MIGR, MEM_PLT_EVT] [.mem, .place] s t) ∧
    (∀ e, r.op = 5 → tget s.plt r.obj = some e → e.pin ≠ 255 →
      Completes .pltPin s fun t =>
        RequestEnds s t r 1 ∧ tget t.plt r.obj = some { e with pin := e.pin + 1 } ∧
        (∀ i, i ≠ r.obj → tget t.plt i = tget s.plt i) ∧
        ChangesOnly [MEM_PLQ_CONS, MEM_PLT_LIVE, MEM_PLT_MIGR, MEM_PLT_EVT] [.mem, .place] s t) ∧
    (∀ e, r.op = 6 → tget s.plt r.obj = some e → e.pin ≠ 0 → (e.st = 4 → e.pin = 1 → migrations s < 16) →
      Completes .pltUnpin s fun t =>
        RequestEnds s t r 1 ∧
        tget t.plt r.obj = some { e with pin := e.pin - 1, st := if e.st = 4 ∧ e.pin = 1 then 3 else e.st } ∧
        (∀ i, i ≠ r.obj → tget t.plt i = tget s.plt i) ∧
        ChangesOnly [MEM_PLQ_CONS, MEM_PLT_LIVE, MEM_PLT_MIGR, MEM_PLT_EVT] [.mem, .place] s t) ∧
    (∀ e, r.op = 7 → tget s.plt r.obj = some e →
      Completes .pltRead s fun t =>
        RequestEnds s t r 1 ∧ t.load (ringSlotPlace t r.slot + 32) 32 = entryBytes e ∧ t.plt = s.plt ∧
        ChangesOnly [MEM_PLQ_CONS, MEM_PLT_LIVE, MEM_PLT_MIGR, MEM_PLT_EVT] [.mem] s t)) ∧
  (∀ (s : State) (bs : List Byte) (r : PltReq), s.powered → headRequest s = some (bs, r) →
    (∀ e, badRequest bs = false → r.obj < pltCount s → r.obj ≠ 0 → tget s.plt r.obj = some e →
      tierOk s r.tier r.taddr e.size = true → e.st = 1 →
      (r.op = 3 → r.tier < e.tier → e.pin ≠ 255 → migrations s < 16 →
        Completes .pltPromote s fun t =>
          tget t.plt r.obj = some { e with st := 2, pin := e.pin + 1, dtier := r.tier, dtaddr := r.taddr, moved := 0
                                           rslot := r.slot } ∧
          t.get MEM_PLQ_CONS_INDEX = (s.get MEM_PLQ_CONS_INDEX + 1) % 65536 ∧
          ChangesOnly [MEM_PLQ_CONS, MEM_PLT_LIVE, MEM_PLT_MIGR] [.place] s t) ∧
      (r.op = 3 → r.tier = e.tier → e.pin ≠ 255 →
        Completes .pltPromote s fun t =>
          RequestEnds s t r 1 ∧ tget t.plt r.obj = some { e with pin := e.pin + 1 } ∧
          ChangesOnly [MEM_PLQ_CONS, MEM_PLT_LIVE, MEM_PLT_MIGR, MEM_PLT_EVT] [.mem, .place] s t) ∧
      (r.op = 4 → e.tier < r.tier → r.tier ≠ 5 → e.pin = 0 → migrations s < 16 →
        Completes .pltEvict s fun t =>
          tget t.plt r.obj = some { e with st := 3, pin := 0, dtier := r.tier, dtaddr := r.taddr, moved := 0
                                           rslot := r.slot } ∧
          t.get MEM_PLQ_CONS_INDEX = (s.get MEM_PLQ_CONS_INDEX + 1) % 65536 ∧
          ChangesOnly [MEM_PLQ_CONS, MEM_PLT_LIVE, MEM_PLT_MIGR] [.place] s t) ∧
      (r.op = 4 → e.tier < r.tier → r.tier ≠ 5 → 0 < e.pin →
        Completes .pltEvict s fun t =>
          tget t.plt r.obj = some { e with st := 4, dtier := r.tier, dtaddr := r.taddr, moved := 0, rslot := r.slot } ∧
          t.get MEM_PLT_CNT_DEFER_VALUE = satAdd 32 (s.get MEM_PLT_CNT_DEFER_VALUE) 1 ∧
          ChangesOnly [MEM_PLQ_CONS, MEM_PLT_LIVE, MEM_PLT_MIGR, MEM_PLT_CNT_DEFER] [.place] s t)) ∧
    (badRequest bs = true →
      Completes .pltBadopRequest s fun t =>
        memGet t.mem (ringSlotPlace t r.slot + 1) = 0x10#8 ∧
        t.get MEM_PLQ_CONS_INDEX = (s.get MEM_PLQ_CONS_INDEX + 1) % 65536 ∧ t.on MEM_PLT_EVT_REFUSED = true ∧
        t.get MEM_PLT_CNT_REFUSED_VALUE = satAdd 32 (s.get MEM_PLT_CNT_REFUSED_VALUE) 1 ∧ t.plt = s.plt ∧
        ChangesOnly [MEM_PLQ_CONS, MEM_PLT_CNT_REFUSED, MEM_PLT_EVT] [.mem] s t))

/-- Migrations, publication and the enable (R195, R196, R203, R214), out of a MAINT slot (R223): a migration copies its next tile
and advances MOVED, and with the last tile the object's home becomes the destination; the publication walk clears UNC in the
logged entries that still hold the committed tag and frees it; enabling with a good set-up leaves the ring object alone in the
table and READY, with a bad one CFGERR. -/
def Obligations.MigrationPublicationAndEnable : Prop :=
  ∀ s : State, s.powered →
    (∀ (i : Nat) (data : List Byte) e m, tget s.plt i = some e → tget s.migs i = some m → (e.st = 2 ∨ e.st = 3) →
      m.waiting = [] → m.cancels = [] → e.tier ≠ 4 → e.tier ≠ 5 → e.dtier ≠ 4 →
      poisonedIn s (objPlace e (e.moved * 65536)) 65536 = [] → ddrHeld s = false →
      Completes (.migrationTile i [] data) s fun t =>
        t.get MEM_TMV_CNT_MIGTILES_VALUE = (s.get MEM_TMV_CNT_MIGTILES_VALUE + 1) % 2 ^ 64 ∧
        (e.moved + 1 < e.size → tget t.plt i = some { e with moved := e.moved + 1 } ∧
          (∀ a, memGet t.mem a = memGet (s.store (dstPlace e (e.moved * 65536))
            (tierLoad s (objPlace e (e.moved * 65536)) 65536)).mem a) ∧
          ChangesOnly [MEM_TMV_CNT_MIGTILES] [.mem, .poison, .place] s t) ∧
        (e.size ≤ e.moved + 1 → tget t.plt i = some { e with st := 1, tier := e.dtier, taddr := e.dtaddr, moved := 0 } ∧
          tget t.migs i = none)) ∧
    (∀ (tag : Nat) ts, tget s.tags tag = some ts → ts.committed = true →
      Completes (.publicationWalk tag) s fun t =>
        tget t.tags tag = none ∧
        (∀ i e, tget s.plt i = some e → tget t.plt i = some { e with
          unc := if (ts.overflow = true ∨ i ∈ ts.log) ∧ e.unc = true ∧ e.wtag = tag then false else e.unc }) ∧
        ChangesOnly [] [.place] s t) ∧
    (∀ (who : Initiator) (v : Word64), WriteOk s who MEM_PLT_CTRL v.toNat → s.on MEM_PLT_CTRL_ENABLE = false →
      v.toNat % 2 = 1 →
      (pltSetupOk s = true →
        Completes (.pltEnable who v) s fun t =>
          t.on MEM_PLT_CTRL_ENABLE = true ∧ t.on MEM_PLT_CTRL_READY = true ∧ t.on MEM_PLT_CTRL_CFGERR = false ∧
          t.plt = [(0, ringObject s)] ∧ t.migs = [] ∧ t.get MEM_PLQ_CONS_INDEX = s.get MEM_PLQ_PROD_INDEX ∧
          t.get MEM_PLT_LIVE_VALUE = 1 ∧
          ChangesOnly [MEM_PLT_CTRL, MEM_PLQ_CONS, MEM_PLT_LIVE, MEM_PLT_MIGR] [.place] s t) ∧
      (pltSetupOk s = false →
        Completes (.pltEnable who v) s fun t =>
          t.on MEM_PLT_CTRL_ENABLE = true ∧ t.on MEM_PLT_CTRL_CFGERR = true ∧ t.plt = s.plt ∧
          ChangesOnly [MEM_PLT_CTRL] [] s t)) ∧
    (∀ (who : Initiator) (v : Word64), WriteOk s who MEM_PLT_CTRL v.toNat → s.on MEM_PLT_CTRL_ENABLE = true →
      v.toNat % 2 = 0 → migrations s = 0 →
      Completes (.pltEnable who v) s fun t =>
        t.on MEM_PLT_CTRL_ENABLE = false ∧ t.on MEM_PLT_CTRL_READY = false ∧ ChangesOnly [MEM_PLT_CTRL] [.place] s t)

/-- An access of a hart or the host to the Fabric Address Space that resolves to an object outside HOST reads the object's bytes at
its home, or writes them there, for its context (R180, R196), one to LPDDR5X in a MAINT slot at the slot's end (R223); one that
meets a violation, the first of its cycle, reads zeros or writes nothing, and is counted under its lowest cause (R25, R26).
Scrubbing, refresh and retraining (R205, R210, R211, R223, R250, R267): out of a MAINT slot the LPDDR5X scrubber moves to the
next unit of the protected data and counts what it finds, ending a pass with an event; a control PSRAM scrub moves on by one
KiB; a refresh of enabled controllers counts the cycles in which an access waited; the first training, and a retraining in a
MAINT slot, that ends makes the memory READY. -/
def Obligations.FabricAccessScrubRefreshAndRetrain : Prop :=
  (∀ (s : State) (who : Initiator) (addr len : Nat) (data : List Byte), s.powered →
    (∀ i e, fasJudge s who false addr len = .ok (i, e) → unpublished s (ctxOf s who) e = false → e.tier ≠ 4 →
      (e.tier = 3 → ddrHeld s = false) → poisonedIn s (objPlace e (addr - e.base * 65536)) len = [] →
      Completes (.fasAccess who false addr len data 0 0) s fun t =>
        t.bus = .bytes (objRead (s.lookup addr) e (addr - e.base * 65536) len) ∧
        ChangesOnly [MEM_PLT_CNT_LKMISS] [.bus, .free, .place] s t) ∧
    (∀ i e, fasJudge s who true addr len = .ok (i, e) → tget s.plt i = some e → e.tier ≠ 4 → e.st ≠ 2 → e.st ≠ 3 →
      (e.tier = 3 → ddrHeld s = false) → s.poison = [] →
      Completes (.fasAccess who true addr len data 0 0) s fun t =>
        (∀ a, memGet t.mem a = memGet (s.store (objPlace e (addr - e.base * 65536)) (padBytes len data)).mem a) ∧
        t.poison = [] ∧ ChangesOnly [MEM_PLT_CNT_LKMISS] [.mem, .bus, .free, .place] s t) ∧
    (∀ i e write, fasJudge s who write addr len = .ok (i, e) → e.tier = 3 → ddrHeld s = true →
      Completes (.fasAccess who write addr len data 0 0) s fun t =>
        t.held = s.held ++ [{ since := s.cyc, who := who, write := write, addr := addr, len := len, data := data, ecc := 0
                              obj := i, entry := e }] ∧
        t.bus = .none ∧ ChangesOnly [MEM_PLT_CNT_LKMISS] [.bus, .free, .place, .waiting] s t) ∧
    (∀ c write, fasJudge s who write addr len = .error c → s.vioAt ≠ some s.cyc →
      Completes (.fasAccess who write addr len data 0 0) s fun t =>
        t.bus = (if write then .none else .bytes (List.replicate len 0#8)) ∧ t.mem = s.mem ∧
        t.get (DGN_VIO_CNT_VALUE c) = satAdd 32 (s.get (DGN_VIO_CNT_VALUE c)) 1 ∧ t.get DGN_VIO_LAST_CAUSE = c ∧
        t.on DGN_EVT_VIO = true ∧
        ChangesOnly [MEM_PLT_CNT_LKMISS, DGN_VIO_CNT c, DGN_VIO_TOTAL, DGN_VIO_LAST] [.bus, .free, .place, .vio] s t)) ∧
  (∀ s : State, s.powered →
    (∀ ce : List Nat, s.on MEM_SCRUB_CFG_ENABLE = true → s.on MEM_DDR_CTRL_ENABLE = true → ddrHeld s = false →
      protRanges s ≠ [] →
      s.scrubSince + max 1 (s.get MEM_SCRUB_CFG_PERIOD) * 1000 ≤ s.cyc →
      (∃ r ∈ protRanges s, r.1 ≤ s.get MEM_SCRUB_STAT_POS ∧ s.get MEM_SCRUB_STAT_POS < r.1 + r.2.2) → s.poison = [] →
      Completes (.scrubTile ce []) s fun t =>
        t.get MEM_SCRUB_STAT_POS = (scrubNext (protRanges s) (s.get MEM_SCRUB_STAT_POS)).1 % 2 ^ 20 ∧
        t.scrubSince = s.cyc ∧
        t.get MEM_ECC_CEI_VALUE = satAdd 32 (s.get MEM_ECC_CEI_VALUE) ((List.range 2048).filter (· ∈ ce)).length ∧
        t.get MEM_SCRUB_STAT_PASSES = (s.get MEM_SCRUB_STAT_PASSES +
          ofBool (scrubNext (protRanges s) (s.get MEM_SCRUB_STAT_POS)).2) % 2 ^ 32 ∧
        ChangesOnly [MEM_SCRUB_STAT, MEM_ECC_CEI, MEM_EVT] [.place] s t) ∧
    (∀ (d : Nat) (ce : List Nat), d < 2 → s.on (BLV_HRC_CTRL_SCRUB d) = true → tgetD s.psScrubSince d 0 + 512000 ≤ s.cyc →
      s.poison = [] → s.get (BLV_HRC_SCRUB_POS d) + 1 < 61440 →
      Completes (.psramScrub d ce []) s fun t =>
        t.get (BLV_HRC_SCRUB_POS d) = s.get (BLV_HRC_SCRUB_POS d) + 1 ∧
        t.get (BLV_HRC_CE_VALUE d) = satAdd 32 (s.get (BLV_HRC_CE_VALUE d)) ((List.range 32).filter (· ∈ ce)).length ∧
        tgetD t.psScrubSince d 0 = s.cyc ∧
        ChangesOnly [(BLV_HRC_SCRUB_POS d).addr, (BLV_HRC_CE_VALUE d).addr] [.place] s t) ∧
    (∀ wait : Nat, s.on MEM_DDR_CTRL_ENABLE = true → Completes (.ddrRefresh wait) s fun t =>
      t.get SCH_CNT_REFSTALL_VALUE = (s.get SCH_CNT_REFSTALL_VALUE + wait) % 2 ^ 64 ∧
      ChangesOnly [SCH_CNT_REFSTALL] [] s t) ∧
    (∀ ode : Nat, (s.on MEM_DDR_STAT_READY = true → s.on MEM_DDR_STAT_RETRAIN = true ∧ ddrHeld s = true) →
      Completes (.ddrRetrainEnd ode) s fun t =>
      t.on MEM_DDR_STAT_RETRAIN = false ∧ t.on MEM_DDR_STAT_READY = true ∧
      t.get MEM_DDR_STAT_GIB = s.fuses.memGib % 256 ∧ t.on MEM_EVT_RETRAIN = true ∧
      t.get MEM_ECC_ODE_VALUE = satAdd 32 (s.get MEM_ECC_ODE_VALUE) ode ∧
      ChangesOnly [MEM_DDR_STAT, MEM_ECC_ODE, MEM_EVT] [] s t))

/-- Page pools (R163 to R167, R170, R173), out of a MAINT slot (R223): enabling a pool fills its stacks; with no request waiting, a
sequence is admitted with the next admission number or refused and counted; a retirement removes a sequence, or waits for its
pins; the request of an ATTN whose pages are all there pins the sequence and is served, one whose page table is not LIVE in the
pool is skipped. -/
def Obligations.PagePoolsAdmitRetireAndServe : Prop :=
  ∀ (s : State) (n : Nat), s.powered → n < 8 →
    (∀ (who : Initiator) (v : Word64), WriteOk s who (SCH_KVP_CTL n) v.toNat → s.on (SCH_KVP_CTL_ENABLE n) = false →
      v.toNat % 2 = 1 →
      Completes (.kvpEnable who n v) s fun t =>
        t.on (SCH_KVP_CTL_ENABLE n) = true ∧ t.on (SCH_KVP_CTL_READY n) = true ∧
        poolOf t n = { fstk := List.range (min (s.get (SCH_KVP_GEOM_PAGES n)) 1048576)
                       hstk := List.range (min (s.get (SCH_KVP_HSLOTS_COUNT n)) 1048576)
                       seqs := [], pins := [], retiring := [], disabling := false } ∧
        t.get (SCH_KVP_FREE_COUNT n) = min (s.get (SCH_KVP_GEOM_PAGES n)) 1048576 ∧
        t.get (SCH_KVP_NEXTADM_VALUE n) = 0 ∧ t.get (SCH_KVP_LIVE_VALUE n) = 0 ∧
        (∀ m, m ≠ n → poolOf t m = poolOf s m) ∧
        ChangesOnly [SCH_KVP_CTL n, SCH_KVP_NEXTADM n, SCH_KVP_FREE n, SCH_KVP_LIVE n] [.pools] s t) ∧
    (∀ (who : Initiator) (v : Word64), WriteOk s who (SCH_KVP_ADMIT n) v.toNat → s.kvpQueue = [] → ddrHeld s = false →
      s.on (SCH_KVP_CTL_READY n) = false →
      Completes (.kvpAdmit who n v) s fun t =>
        t.get (SCH_KVP_CNT_BADREQ_VALUE n) = satAdd 32 (s.get (SCH_KVP_CNT_BADREQ_VALUE n)) 1 ∧
        t.on (SCH_KVP_EVT_BADREQ n) = true ∧ t.pools = s.pools ∧ t.kvpQueue = []) ∧
    (∀ (who : Initiator) (v : Word64) ptab i e h, WriteOk s who (SCH_KVP_ADMIT n) v.toNat → s.kvpQueue = [] →
      ddrHeld s = false → s.on (SCH_KVP_CTL_READY n) = true → ptab = bitsOf v.toNat 47 6 * 64 →
      resolve s true (poolOwner s n) ptab 64 true = .ok (i, e) → e.tier ≠ 4 → e.st ≠ 2 → e.st ≠ 3 →
      h = (kvHeader s (poolOwner s n) ptab).2 → hdPool h = n → hdState h ≠ 1 →
      (poolOf s n).seqs.length < 4096 → s.get (SCH_KVP_NEXTADM_VALUE n) ≠ 0xFFFFFFFF →
      Completes (.kvpAdmit who n v) s fun t =>
        (poolOf t n).seqs = (poolOf s n).seqs.filter (fun q => q.1 ≠ ptab) ++ [(ptab, s.get (SCH_KVP_NEXTADM_VALUE n))] ∧
        t.get (SCH_KVP_NEXTADM_VALUE n) = s.get (SCH_KVP_NEXTADM_VALUE n) + 1 ∧
        memGet t.mem (objPlace e (ptab + 6 - e.base * 65536)) = 1#8 ∧
        t.load (objPlace e (ptab + 8 - e.base * 65536)) 4 = leBytes 4 (s.get (SCH_KVP_NEXTADM_VALUE n)) ∧
        ∀ m, m ≠ n → poolOf t m = poolOf s m) ∧
    (∀ (who : Initiator) (v : Word64) ptab h, WriteOk s who (SCH_KVP_RETIRE n) v.toNat → s.kvpQueue = [] → ddrHeld s = false →
      ptab = bitsOf v.toNat 47 6 * 64 →
      s.on (SCH_KVP_CTL_READY n) = true → h = (kvHeader s (poolOwner s n) ptab).2 → hdState h ≠ 0 → hdPool h = n →
      (∃ q ∈ (poolOf s n).seqs, q.1 = ptab) →
      ((∀ q ∈ (poolOf s n).pins, q.1 ≠ ptab) →
        Completes (.kvpRetire who n v) s fun t =>
          (poolOf t n).seqs = (poolOf s n).seqs.filter (fun q => q.1 ≠ ptab) ∧
          (poolOf t n).pins = (poolOf s n).pins ∧ ∀ m, m ≠ n → poolOf t m = poolOf s m) ∧
      ((∃ q ∈ (poolOf s n).pins, q.1 = ptab) → ptab ∉ (poolOf s n).retiring →
        Completes (.kvpRetire who n v) s fun t =>
          poolOf t n = { poolOf s n with retiring := (poolOf s n).retiring ++ [ptab] })) ∧
    (∀ (core : Nat) r c h, core < 8 → s.kvpQueue = [r] → r.kind = 0 → r.core = core → r.pool = n → ddrHeld s = false →
      s.on (SCH_KVP_CTL_READY n) = true → (coreOf s core).queue 3 = [c] → c.wait = 5 →
      h = (kvHeader s (poolOwner s n) (atPtab c.desc)).2 →
      (hdState h ≠ 1 →
        (∀ m < 8, ∀ q ∈ (poolOf s m).pins, q.2 ≠ core) →
        Completes (.kvpServeRequest core) s fun t =>
          (∃ x, (coreOf t core).queue 3 = [{ c with wait := 0, next := x, landed := [2] }]) ∧ t.kvpQueue = [] ∧
          t.get (SCH_KVP_CNT_SKIP_VALUE n) = satAdd 32 (s.get (SCH_KVP_CNT_SKIP_VALUE n)) 1 ∧
          t.on (SCH_KVP_EVT_SKIP n) = true ∧ t.pools = s.pools) ∧
      (hdState h = 1 → (∀ q ∈ (poolOf s n).pins, q.2 ≠ core) → atAppend c.desc = false → poolZj4 s n = false →
        Completes (.kvpServeRequest core) s fun t =>
          (∃ x, (coreOf t core).queue 3 = [{ c with wait := 0, next := x, landed := [1] }]) ∧ t.kvpQueue = [] ∧
          (poolOf t n).pins = (poolOf s n).pins ++ [(atPtab c.desc, core)] ∧
          (poolOf t n).seqs = (poolOf s n).seqs ∧ (poolOf t n).fstk = (poolOf s n).fstk))

/-! ### Bandstand time -/

/-- A write of 1 to GO (R274): an accepted step is BUSY and executes in the 16th cycle after; a GO while a step is pending, with
nanoseconds of a second or more, or for a relative step to epoch mode from wrap mode, is refused with STEPERR. Cascaded modules
are apart. The step cycle (R274 to R277, R288, R545): the accumulator loads; MODE, TIM_CNT_STEP and STEP follow; waiting
corrections are discarded and counted; each armed unit of STEPPOL 0 moves its target by the step, and each periodic one of
STEPPOL 1 goes on to its first target past the new time; then frames and fusion take their parts and the recovery epoch
advances. A result outside the accumulator is refused with STEPERR. The clause is about steps at which no unit is due and no
armed one-shot has STEPPOL 1. -/
def Obligations.TimeStepIsRequestedAndExecutesOnce : Prop :=
  (∀ (s : State) (who : Initiator) (v : Word64), s.powered → cwyFollower s = false →
    WriteOk s who TIM_STEP_CTL (v.toNat ||| 1) →
    (s.stepDue = none → cwyMaster s = false → (v.toNat.testBit 1 = false → s.get TIM_STEP_LO_NS < 1000000000) →
      (v.toNat.testBit 1 = true → v.toNat.testBit 2 = true → s.epochMode = true) →
      Completes (.timeStepGo who v) s fun t =>
        (∃ d, t.stepDue = some d ∧ d.cyc = some (s.cyc + 16) ∧ d.rel = v.toNat.testBit 1 ∧ d.mode = v.toNat.testBit 2 ∧
          d.sec = s.get TIM_STEP_HI_SEC ∧ d.ns = s.get TIM_STEP_LO_NS ∧ d.frac = s.get TIM_STEP_LO_FRAC) ∧
        t.on TIM_STEP_CTL_BUSY = true ∧ ChangesOnly [TIM_STEP_CTL] [.servo] s t) ∧
    (s.stepDue.isSome = true ∨ (v.toNat.testBit 1 = false ∧ 1000000000 ≤ s.get TIM_STEP_LO_NS) ∨
        (v.toNat.testBit 1 = true ∧ v.toNat.testBit 2 = true ∧ s.epochMode = false) →
      Completes (.timeStepGo who v) s fun t =>
        t.on TIM_EVT_STEPERR = true ∧ t.get TIM_STEP_CTL_BUSY = s.get TIM_STEP_CTL_BUSY ∧
        ChangesOnly [TIM_STEP_CTL, TIM_EVT] [] s t)) ∧
  (∀ (s : State) (d : StepDue), s.powered → s.stepDue = some d → stepReached s d = true →
    (∀ c, c < 32 → cmpDue s c = none) →
    (∀ acc, stepResult s d = some acc →
      (∀ c, c < 32 → s.on (TIM_CMP_STAT_ARMED c) = true → s.on (TIM_CMP_CTL_STEPPOL c) = true → cmpPeriodic s c = true) →
      Completes .timeStepExecute s fun t => ∃ (u : State) (delta : Int),
        EndsAs s ((fusTimeStep (schedTimeStep s.accNs (delta / 65536) u) delta).epochEvent 0) t ∧
        delta = stepDelta s.now16 u.now16 u.epochMode ∧ u.acc = acc ∧ u.on TIM_CTRL_MODE = d.mode ∧
        u.on TIM_STEP_CTL_BUSY = false ∧ u.stepDue = none ∧ u.stepAt = some s.cyc ∧ u.rates = [] ∧ u.lockRun = (0, 0) ∧
        u.on TIM_CTRL_LOCKED = false ∧ u.on TIM_EVT_STEP = true ∧
        u.get TIM_CNT_STEP_VALUE = satAdd 32 (s.get TIM_CNT_STEP_VALUE) 1 ∧
        u.get TIM_CNT_REJECT_VALUE = satAdd 32 (s.get TIM_CNT_REJECT_VALUE) s.rates.length ∧
        (∀ c, c < 32 → s.on (TIM_CMP_STAT_ARMED c) = true →
          (s.on (TIM_CMP_CTL_STEPPOL c) = false → ((cmpNext u c : Int) - (cmpNext s c + delta)) % (accModulus / 65536 : Nat) = 0) ∧
          (s.on (TIM_CMP_CTL_STEPPOL c) = true → ∃ n : Int, n = periodsPast u (cmpNext s c) (cmpPer s c) ∧
            ((cmpNext u c : Int) - (cmpNext s c + n * cmpPer s c)) % (accModulus / 65536 : Nat) = 0)) ∧
        (∀ a, a ∉ [TIM_CTRL, TIM_STEP_CTL, TIM_EVT, TIM_CNT_STEP, TIM_CNT_REJECT] ++ each 32 TIM_CMP_STAT ++
          each 32 TIM_CMP_NEXT_LO ++ each 32 TIM_CMP_NEXT_HI → u.rd a = s.rd a) ∧
        ∀ p, p ∉ [Part.time, Part.servo] → Keeps s u p) ∧
    (stepResult s d = none →
      Completes .timeStepExecute s fun t =>
        t.on TIM_EVT_STEPERR = true ∧ t.on TIM_STEP_CTL_BUSY = false ∧ t.stepDue = none ∧ t.acc = s.acc ∧
        ChangesOnly [TIM_STEP_CTL, TIM_EVT] [.servo] s t))

/-- The servo takes a sample of its active source (R279, R280, R281): I gains the integral term and is clamped, the correction is
the proportional term and I, clamped, and takes effect in the 8th cycle after; the sample is counted and its offset shown. A
sample of a step cycle is discarded and counted (R275); an offset from no configured source is rejected and counted. The
correction of a sample takes effect; a source that times out gives holdover, with the correction I, or falls back to a valid
secondary; the servo is enabled on its primary and disabled with y = I; a COMMIT of its group waits for the next sample, or is
taken at once while it is disabled (R20, R22, R280, R281, R282). -/
def Obligations.ServoSamplesRatesAndSources : Prop :=
  (∀ (s : State) (who : Initiator) (v : Word64), s.powered → WriteOk s who TIM_SRC_FWOFS v.toNat →
    (1 ≤ bitsOf v.toNat 50 48 → bitsOf v.toNat 50 48 ≤ 5 → bitsOf v.toNat 50 48 = s.get TIM_CTRL_ACTSRC →
      s.epochMode = true → s.on TIM_CTRL_ENABLE = true → s.isPending 1 = false → s.rates = [] → inStepCycle s = false →
      Completes (.fwSampleSubmit who v) s fun t => ∃ theta i y p k lim : Int,
        theta = signedOf 48 (bitsOf v.toNat 47 0) ∧
        lim = ((min (s.get TIM_SRV_LIMIT_ADJMAX) 858993 : Nat) : Int) ∧
        p = theta * (s.get TIM_SRV_KP_M : Nat) / ((2 ^ min 47 (s.get TIM_SRV_KP_S) : Nat) : Int) ∧
        k = theta * (s.get TIM_SRV_KI_M : Nat) / ((2 ^ min 47 (s.get TIM_SRV_KI_S) : Nat) : Int) ∧
        i = clampInt (s.getInt TIM_SRV_INTEG_VALUE + k) (-lim) lim ∧ y = clampInt (p + i) (-lim) lim ∧
        t.rates = [(s.cyc + 8, y, i)] ∧ t.getInt TIM_SRV_OFS_THETA = theta ∧ t.on TIM_EVT_SAMPLE = true ∧
        t.get TIM_CNT_SAMPLE_VALUE = satAdd 32 (s.get TIM_CNT_SAMPLE_VALUE) 1 ∧ t.on TIM_CTRL_HOLDOVER = false ∧
        (y ≠ p + i → t.on TIM_EVT_CLAMP = true ∧ t.get TIM_CNT_CLAMP_VALUE = satAdd 32 (s.get TIM_CNT_CLAMP_VALUE) 1) ∧
        tget t.srcSeen (bitsOf v.toNat 50 48) = some s.cyc ∧
        ChangesOnly [TIM_SRC_FWOFS, TIM_CTRL, TIM_SRV_OFS, TIM_EVT, TIM_CNT_SAMPLE, TIM_CNT_CLAMP] [.servo, .halves] s t) ∧
    (1 ≤ bitsOf v.toNat 50 48 → bitsOf v.toNat 50 48 ≤ 5 → bitsOf v.toNat 50 48 = s.get TIM_CTRL_ACTSRC →
      s.epochMode = true → s.on TIM_CTRL_ENABLE = true → inStepCycle s = true →
      Completes (.fwSampleSubmit who v) s fun t =>
        t.get TIM_CNT_REJECT_VALUE = satAdd 32 (s.get TIM_CNT_REJECT_VALUE) 1 ∧
        ChangesOnly [TIM_SRC_FWOFS, TIM_CNT_REJECT] [.halves] s t) ∧
    (bitsOf v.toNat 50 48 ≠ s.get TIM_CTRL_ACTSRC → bitsOf v.toNat 50 48 ≠ s.get TIM_SRC_CFG_PRI →
      bitsOf v.toNat 50 48 ≠ s.get TIM_SRC_CFG_SEC →
      Completes (.fwSampleSubmit who v) s fun t =>
        t.on TIM_EVT_REJECT = true ∧ t.get TIM_CNT_REJECT_VALUE = satAdd 32 (s.get TIM_CNT_REJECT_VALUE) 1 ∧
        ChangesOnly [TIM_SRC_FWOFS, TIM_CNT_REJECT, TIM_EVT] [.halves] s t)) ∧
  (∀ s : State, s.powered →
    (∀ at_ y i, s.rates = [(at_, y, i)] → at_ ≤ s.cyc → -858993 ≤ y → y ≤ 858993 → -858993 ≤ i → i ≤ 858993 →
      Completes .servoRateApply s fun t =>
        t.getInt TIM_SRV_ADJ_VALUE = y ∧ t.getInt TIM_SRV_INTEG_VALUE = i ∧ t.rates = [] ∧
        ChangesOnly [TIM_SRV_ADJ, TIM_SRV_INTEG] [.servo] s t) ∧
    (s.on TIM_CTRL_ENABLE = true → s.get TIM_CTRL_ACTSRC ≠ 0 → sourceValid s (s.get TIM_CTRL_ACTSRC) = false →
      s.on TIM_CTRL_HOLDOVER = false →
      Completes .sourceTimeout s fun t =>
        t.on TIM_CTRL_HOLDOVER = true ∧ t.on TIM_EVT_HOLDOVER = true ∧ t.on TIM_CTRL_LOCKED = false ∧
        t.get TIM_SRV_ADJ_VALUE = s.get TIM_SRV_INTEG_VALUE ∧ t.rates = [] ∧
        (s.get TIM_SRC_CFG_SEC ≠ 0 → s.get TIM_SRC_CFG_SEC ≠ s.get TIM_CTRL_ACTSRC →
          sourceValid s (s.get TIM_SRC_CFG_SEC) = true → s.on TIM_CTRL_FALLBACK = false →
          t.get TIM_CTRL_ACTSRC = s.get TIM_SRC_CFG_SEC ∧ t.on TIM_CTRL_FALLBACK = true ∧ t.on TIM_EVT_FALLBACK = true) ∧
        ChangesOnly [TIM_CTRL, TIM_SRV_ADJ, TIM_EVT] [.servo] s t) ∧
    (∀ (who : Initiator) (v : Word64), WriteOk s who TIM_CTRL v.toNat →
      (s.on TIM_CTRL_ENABLE = false → v.toNat % 2 = 1 →
        Completes (.servoEnable who v) s fun t =>
          t.on TIM_CTRL_ENABLE = true ∧ t.get TIM_CTRL_ACTSRC = s.get TIM_SRC_CFG_PRI ∧ t.on TIM_CTRL_FALLBACK = false ∧
          tget t.srcSeen (s.get TIM_SRC_CFG_PRI) = some s.cyc ∧ ChangesOnly [TIM_CTRL] [.servo] s t) ∧
      (s.on TIM_CTRL_ENABLE = true → v.toNat % 2 = 0 → s.isPending 1 = false →
        Completes (.servoEnable who v) s fun t =>
          t.on TIM_CTRL_ENABLE = false ∧ t.get TIM_SRV_ADJ_VALUE = s.get TIM_SRV_INTEG_VALUE ∧ t.rates = [] ∧
          ChangesOnly [TIM_CTRL, TIM_SRV_ADJ] [.servo] s t)) ∧
    (∀ (who : Initiator) (v : Word64), WriteOk s who TIM_SRV_COMMIT (v.toNat ||| 1) →
      (s.on TIM_CTRL_ENABLE = true →
        Completes (.servoCommit who v) s fun t =>
          t.isPending 1 = true ∧ (∀ r ∈ keyRegs 1, t.pendRd 1 r.1 = s.heldRd r.1) ∧
          ChangesOnly [TIM_SRV_COMMIT] [.held] s t) ∧
      (s.on TIM_CTRL_ENABLE = false →
        Completes (.servoCommit who v) s fun t =>
          t.isPending 1 = false ∧ t.get TIM_SRV_KP_M = s.heldGet TIM_SRV_KP_M ∧ t.get TIM_SRV_KP_S = s.heldGet TIM_SRV_KP_S ∧
          t.get TIM_SRV_KI_M = s.heldGet TIM_SRV_KI_M ∧ t.get TIM_SRV_KI_S = s.heldGet TIM_SRV_KI_S ∧
          t.get TIM_SRV_LIMIT_ADJMAX = s.heldGet TIM_SRV_LIMIT_ADJMAX ∧
          t.get TIM_SRV_LOCK_LOCKN = s.heldGet TIM_SRV_LOCK_LOCKN ∧ t.get TIM_SRV_LOCK_LOCKTHR = s.heldGet TIM_SRV_LOCK_LOCKTHR ∧
          ChangesOnly [TIM_SRV_COMMIT, TIM_SRV_KP, TIM_SRV_KI, TIM_SRV_LIMIT, TIM_SRV_LOCK] [.held] s t)))

/-- A compare unit whose target is reached fires (R283 to R286, R289): its event bit and LATE; a one-shot disarms, a periodic unit
takes the next target, and on a pulse destination its pulse begins; a pulse ends after its WIDTH. Arming and latching of
compare units (R22, R286, R287): a unit enabled on a future target arms on it; a one-shot on a past target fires late in the
next cycle; a periodic unit skips to its first value past the present time, the skipped ones counted MISSED; disabling disarms;
a COMMIT waits for the unit's next firing, or while it is disabled is taken at once. -/
def Obligations.CompareUnitsArmFireAndPulse : Prop :=
  (∀ (s : State) (c ecc : Nat) (late : Bool), s.powered → c < 32 →
    (cmpDue s c = some late → s.isPending (16 + c) = false → s.get (TIM_CMP_CTL_DEST c) ≠ 1 →
      (s.get PWR_WAKE_CMP ≠ c ∨ (s.get PWR_STAT_STATE ≠ 2 ∧ s.get PWR_STAT_STATE ≠ 3)) →
      (s.get (TIM_CMP_CTL_DEST c) < 8 ∨ 15 < s.get (TIM_CMP_CTL_DEST c)) →
      Completes (.compareFire c ecc) s fun t =>
        t.get TIM_CMP_EVT_UNIT = s.get TIM_CMP_EVT_UNIT ||| 2 ^ c ∧ t.on (TIM_CMP_STAT_LATE c) = late ∧
        tget t.cmpLate c = none ∧
        (cmpPeriodic s c = false → t.on (TIM_CMP_STAT_ARMED c) = false ∧
          ChangesOnly [TIM_CMP_STAT c, TIM_CMP_EVT] [.servo] s t) ∧
        (cmpPeriodic s c = true → t.on (TIM_CMP_STAT_ARMED c) = true ∧
          cmpNext t c = (cmpNext s c + cmpPer s c) % (accModulus / 65536) ∧
          ChangesOnly [TIM_CMP_STAT c, TIM_CMP_EVT, TIM_CMP_NEXT_LO c, TIM_CMP_NEXT_HI c] [.servo] s t) ∧
        ((16 ≤ s.get (TIM_CMP_CTL_DEST c) ∧ s.get (TIM_CMP_CTL_DEST c) ≤ 27) ∨
            (32 ≤ s.get (TIM_CMP_CTL_DEST c) ∧ s.get (TIM_CMP_CTL_DEST c) ≤ 35) ∨
            (64 ≤ s.get (TIM_CMP_CTL_DEST c) ∧ s.get (TIM_CMP_CTL_DEST c) ≤ 95 ∧
              s.on (BLV_TIO_CFG_DIR (s.get (TIM_CMP_CTL_DEST c) - 64)) = true) → ∃ p, t.pulses = s.pulses ++ [p] ∧
          p.unit = c ∧ p.dest = s.get (TIM_CMP_CTL_DEST c) ∧ p.high = s.on (TIM_CMP_CTL_POL c) ∧
          p.endAt = s.cyc + max 1 (s.get (TIM_CMP_CTL_WIDTH c)))) ∧
    (Completes (.pulseEnd c) s fun t =>
      (∀ p, p ∈ t.pulses ↔ p ∈ s.pulses ∧ ¬ (p.unit = c ∧ p.endAt ≤ s.cyc)) ∧ ChangesOnly [] [.servo] s t)) ∧
  (∀ (s : State) (c : Nat) (who : Initiator) (v : Word64), s.powered → c < 32 →
    (WriteOk s who (TIM_CMP_CTL c) v.toNat → s.on (TIM_CMP_CTL_ENABLE c) = false → v.toNat % 2 = 1 →
      v.toNat.testBit 1 = false →
      Completes (.compareEnable who c v) s fun t => t.on (TIM_CMP_CTL_ENABLE c) = true ∧ t.on (TIM_CMP_STAT_ARMED c) = true ∧
        (cmpDiff s (cmpTarget s c) < 0 → cmpNext t c = cmpTarget s c % (accModulus / 65536) ∧ tget t.cmpLate c = none) ∧
        (0 ≤ cmpDiff s (cmpTarget s c) → cmpPeriodic s c = false →
          cmpNext t c = cmpTarget s c % (accModulus / 65536) ∧ tget t.cmpLate c = some (s.cyc + 1)) ∧
        (0 ≤ cmpDiff s (cmpTarget s c) → cmpPeriodic s c = true →
          ∃ n, n = (periodsPast s (cmpTarget s c) (cmpPer s c)).toNat ∧
            cmpNext t c = (cmpTarget s c + n * cmpPer s c) % (accModulus / 65536) ∧
            t.get (TIM_CMP_STAT_MISSED c) = satAdd 16 (s.get (TIM_CMP_STAT_MISSED c)) n) ∧
        ChangesOnly [TIM_CMP_CTL c, TIM_CMP_STAT c, TIM_CMP_NEXT_LO c, TIM_CMP_NEXT_HI c] [.servo, .held] s t) ∧
    (WriteOk s who (TIM_CMP_CTL c) v.toNat → s.on (TIM_CMP_CTL_ENABLE c) = true → v.toNat % 2 = 0 →
      v.toNat.testBit 1 = false → s.isPending (16 + c) = false →
      Completes (.compareEnable who c v) s fun t =>
        t.on (TIM_CMP_CTL_ENABLE c) = false ∧ t.on (TIM_CMP_STAT_ARMED c) = false ∧
        ChangesOnly [TIM_CMP_CTL c, TIM_CMP_STAT c] [.servo, .held] s t) ∧
    (WriteOk s who (TIM_CMP_CTL c) (v.toNat ||| 2) → s.on (TIM_CMP_CTL_ENABLE c) = true → v.toNat % 2 = 1 →
      Completes (.compareCommit who c v) s fun t =>
        t.isPending (16 + c) = true ∧ (∀ r ∈ keyRegs (16 + c), t.pendRd (16 + c) r.1 = t.heldRd r.1 ∧ (r.1 ≠ TIM_CMP_CTL c → t.heldRd r.1 = s.heldRd r.1)) ∧
        ChangesOnly [TIM_CMP_CTL c] [.held] s t) ∧
    (WriteOk s who (TIM_CMP_CTL c) (v.toNat ||| 2) → s.on (TIM_CMP_CTL_ENABLE c) = false → v.toNat % 2 = 0 →
      Completes (.compareCommit who c v) s fun t =>
        t.isPending (16 + c) = false ∧ cmpTarget t c = (s.heldGet (TIM_CMP_TGT_HI_SEC c) * 1000000000 +
          s.heldGet (TIM_CMP_TGT_LO_NS c)) * 65536 + s.heldGet (TIM_CMP_TGT_LO_FRAC c) ∧
        t.get (TIM_CMP_PER_NS c) = s.heldGet (TIM_CMP_PER_NS c) ∧ t.get (TIM_CMP_PER_FRAC c) = s.heldGet (TIM_CMP_PER_FRAC c) ∧
        ChangesOnly [TIM_CMP_CTL c, TIM_CMP_TGT_LO c, TIM_CMP_TGT_HI c, TIM_CMP_PER c] [.held] s t))

/-! ### The sensor front and fusion -/

/-- Frames of the sensor ports become arrivals of their channels (R273, R294 to R297, R304 to R309): a CSI-2 frame of a port,
virtual channel and data type, at the end of its frame-start short packet, for every channel that selects it; an Ethernet frame
of a port, EtherType and UDP port for the first such channel; the burst of an IMU transaction, at the time of its edge, for
every channel of its port. Each is numbered and held; no other channel changes; a frame that no channel takes is counted. Where
one channel without a ring takes the frame, its model follows. IMU edges, conversions, published records and timeouts (R297,
R298, R301, R306): an active edge sends the command and starts a transaction, one during a transaction is counted; a
conversion's code goes to the analog channel of its input, of which every DECIM-th becomes an arrival, each input's channels by
themselves; a write of PROD of an EXT or FEATURE channel is an arrival of the record it publishes; a channel with no arrival
within TIMEOUT periods loses VALID. -/
def Obligations.SensorInputsBecomeArrivals : Prop :=
  (∀ (s : State) (data : List Byte), s.powered →
    (∀ p ts vc dt fnum lines bpl ecc crcErr, csiOn s p = true → dt ∈ csiTypes → vc < 4 →
      Completes (.csi2Frame p ts (vc * 64 + dt) fnum lines bpl ecc crcErr data) s fun t =>
        t.get SNS_CNT_ECC_VALUE = satAdd 32 (s.get SNS_CNT_ECC_VALUE) (ecc % 65536) ∧
        t.get SNS_CNT_CRC_VALUE = satAdd 32 (s.get SNS_CNT_CRC_VALUE) (ecc / 65536 + crcErr) ∧
        ArrivalsHeld s t (channelsOf s 0 fun d => chPort d == p && chVc d == vc && chDt d == dt) ((ts * 65536 : Nat) : Int)
          [SNS_CNT_ECC, SNS_CNT_CRC] ∧
        (∀ n, n < 64 → channelsOf s 0 (fun d => chPort d == p && chVc d == vc && chDt d == dt) = [n] → fnum < 65536 →
          chRing (chanDesc s n) = 0 → ArrivalTaken s t n ((ts * 65536 : Nat) : Int) fnum none data ∧
          ChangesOnly (SNS_CNT_ECC :: SNS_CNT_CRC :: arrivalRegs n) [.fus, .free] s t)) ∧
    (∀ port ts fcsOk, s.on SNS_CTRL_ENABLE = true → port < 4 → ethDropKind port fcsOk data = none →
      (etherType data).1 ≠ 0x88F7 →
      (∀ n l, channelsOf s 1 (fun d => chPort d == port && chEtype d == (etherType data).1 &&
          (chUdpp d == 0 || udpPort data == some (chUdpp d))) = n :: l →
        Completes (.ethSensorFrame port ts fcsOk data) s fun t =>
          ArrivalsHeld s t [n] ((ts * 65536 : Nat) : Int) [] ∧
          (chRing (chanDesc s n) = 0 → ArrivalTaken s t n ((ts * 65536 : Nat) : Int) 0 none data ∧
            ChangesOnly (arrivalRegs n) [.fus, .free] s t)) ∧
      (channelsOf s 1 (fun d => chPort d == port && chEtype d == (etherType data).1 &&
          (chUdpp d == 0 || udpPort data == some (chUdpp d))) = [] →
        Completes (.ethSensorFrame port ts fcsOk data) s fun t =>
          t.get SNS_CNT_NOMATCH_VALUE = satAdd 32 (s.get SNS_CNT_NOMATCH_VALUE) 1 ∧ ChangesOnly [SNS_CNT_NOMATCH] [] s t)) ∧
    (∀ q tm, tget s.fus.spi q = some tm →
      Completes (.imuBurstComplete q data) s fun t => tget t.fus.spi q = none ∧
        ArrivalsHeld s t (imuChannels s q) ((tm * 65536 : Nat) : Int) [] ∧
        (∀ n, imuChannels s q = [n] → chRing (chanDesc s n) = 0 →
          ArrivalTaken s t n ((tm * 65536 : Nat) : Int) 0 none (padBytes (min 64 (s.get (SNS_IMU_CFG_BURST q))) data) ∧
          ChangesOnly (arrivalRegs n) [.fus] s t))) ∧
  (∀ (s : State) (n : Nat), s.powered → n < 64 →
    (∀ q, q < 4 → s.on SNS_CTRL_ENABLE = true → s.get (SNS_IMU_CFG_BURST q) ≠ 0 →
      (tget s.fus.spi q = none →
        Completes (.imuDataReady q (s.on (SNS_IMU_CFG_DRPOL q))) s fun t =>
          tget t.fus.spi q = some s.nowNs ∧ (∃ l, t.outbox = s.outbox ++
            .spi q ((leBytes 4 (s.get (SNS_IMU_CFG_CMD q))).take (s.get (SNS_IMU_CFG_CMDLEN q))) :: l) ∧
          (∀ m, chanOf t m = chanOf s m) ∧ ChangesOnly [] [.fus, .out] s t) ∧
      (∀ tm, tget s.fus.spi q = some tm →
        Completes (.imuDataReady q (s.on (SNS_IMU_CFG_DRPOL q))) s fun t =>
          (∀ m ∈ imuChannels s q, t.get (SNS_CH_CNT_ERR_VALUE m) = satAdd 32 (s.get (SNS_CH_CNT_ERR_VALUE m)) 1) ∧
          ChangesOnly ((imuChannels s q).map SNS_CH_CNT_ERR) [] s t)) ∧
    (∀ (codes : List Int) (ok t16 start : Nat), s.fus.conv = some (t16, start) → start + 500 ≤ s.cyc →
      Completes (.conversionResult codes ok) s fun t => t.fus.conv = none ∧
        (∀ m ∈ (setBitsOf 8 ok).flatMap (fun i => channelsOf s 3 fun d => chPort d == i),
          (chanOf t m).valid = true ∧ (chanOf t m).conv = (chanOf s m).conv + 1) ∧
        (∀ m, m ∉ (setBitsOf 8 ok).flatMap (fun i => channelsOf s 3 fun d => chPort d == i) → chanOf t m = chanOf s m) ∧
        ChangesOnly (engineRegs ++ (List.range 64).flatMap landRegs) (.fus :: engineParts) s t) ∧
    (∀ (codes : List Int) (i t16 start : Nat), i < 8 → s.fus.conv = some (t16, start) → start + 500 ≤ s.cyc →
      channelsOf s 3 (fun d => chPort d == i) = [n] → chRing (chanDesc s n) = 0 →
      Completes (.conversionResult codes (2 ^ i)) s fun t =>
        t.fus.conv = none ∧ (chanOf t n).valid = true ∧ (chanOf t n).conv = (chanOf s n).conv + 1 ∧
        (((chanOf s n).conv + 1) % max 1 (chDecim (chanDesc s n)) ≠ 0 → (chanOf t n).seq = (chanOf s n).seq) ∧
        (((chanOf s n).conv + 1) % max 1 (chDecim (chanDesc s n)) = 0 →
          (chanOf t n).seq = ((chanOf s n).seq + 1) % 2 ^ 32 ∧ ∃ a, (chanOf t n).arrivals.getLast? = some a ∧ a.arr = t16 ∧
            a.tov = (t16 : Int) + chTovOfs (chanDesc s n) * 65536 ∧
            a.meas = [fma (f32OfInt (clampInt (codes.getD i 0) (-131072) 131071)) (chScale (chanDesc s n)) (chBias (chanDesc s n))]) ∧
        (∀ m, m ≠ n → chanOf t m = chanOf s m) ∧ ChangesOnly (arrivalRegs n) [.fus] s t) ∧
    (∀ (who : Initiator) (v : Word64), WriteOk s who (SNS_CH_PROD n) v.toNat → ownsProd s n = true →
      v.toNat ≠ s.get (SNS_CH_PROD_INDEX n) →
      Completes (.snsProdWrite who n v) s fun t =>
        t.get (SNS_CH_PROD_INDEX n) = v.toNat ∧ ArrivalsHeld s t [n] s.now16 [] ∧
        (chRing (chanDesc s n) = 0 → ArrivalTaken s t n s.now16 0 (some ((v.toNat + 65535) % 65536)) [] ∧
          ChangesOnly (SNS_CH_PROD n :: arrivalRegs n) [.fus] s t)) ∧
    (chEn (chanDesc s n) = true → chKind (chanDesc s n) ≠ 3 → (chanOf s n).valid = true →
      (chTimeout (chanDesc s n) : Int) * (chanOf s n).per < (s.now16 : Int) - (chanOf s n).aPrev →
      Completes (.modelTimeout n) s fun t =>
        chanOf t n = { chanOf s n with valid := false } ∧ (t.get FUS_CH_VALID_VALUE).testBit n = false ∧
        (∀ m, m ≠ n → chanOf t m = chanOf s m) ∧ ChangesOnly [FUS_CH_VALID, FUS_CH_DESYNC] [.fus] s t))

/-- An arrival lands in its channel's ring (R295, R299, R300): the header, with ARR, SEQ and the bytes landed, and the payload, cut
to the slot, at slot PROD, which moves on; with the ring full nothing lands and the drop is counted. -/
def Obligations.ArrivalsLandInRings : Prop :=
  ∀ (s : State) (p ts vc dt fnum lines bpl n : Nat) (data : List Byte), s.powered → n < 64 → chRing (chanDesc s n) ≠ 0 →
    csiOn s p = true → dt ∈ csiTypes → vc < 4 → fnum < 65536 →
    channelsOf s 0 (fun d => chPort d == p && chVc d == vc && chDt d == dt) = [n] →
    (∀ e, (s.get (SNS_CH_PROD_INDEX n) + 65536 - s.get (SNS_CH_CONS_INDEX n)) % 65536 ≠ 2 ^ chRlog2 (chanDesc s n) →
      RecordPlace s n 0 64 e → RecordPlace s n 512 (data.take (chSlotSz (chanDesc s n) * 64 - 512)).length e →
      data.take (chSlotSz (chanDesc s n) * 64 - 512) ≠ [] →
      Completes (.csi2Frame p ts (vc * 64 + dt) fnum lines bpl 0 0 data) s fun t =>
        ArrivalTaken s t n ((ts * 65536 : Nat) : Int) fnum none data ∧
        t.get (SNS_CH_PROD_INDEX n) = (s.get (SNS_CH_PROD_INDEX n) + 1) % 65536 ∧
        (∃ (place : Nat) (header : List Byte), place = objPlace e
            (slotAddr (chanDesc s n) (s.get (SNS_CH_PROD_INDEX n)) - e.base * 65536) ∧
          header.length = 64 ∧ header.take 16 = tsOf s true ((ts * 65536 : Nat) : Int) ∧ leField header 32 4 = (chanOf s n).seq % 2 ^ 32 ∧
          leField header 36 4 = (data.take (chSlotSz (chanDesc s n) * 64 - 512)).length % 2 ^ 32 ∧
          leField header 40 2 = fnum ∧
          ∀ a, memGet t.mem a =
            memGet ((s.store place header).store (place + 512) (data.take (chSlotSz (chanDesc s n) * 64 - 512))).mem a) ∧
        ChangesOnly (SNS_CH_PROD n :: MEM_PLT_CNT_LKMISS :: arrivalRegs n) [.fus, .free, .mem, .poison, .place] s t) ∧
    ((s.get (SNS_CH_PROD_INDEX n) + 65536 - s.get (SNS_CH_CONS_INDEX n)) % 65536 = 2 ^ chRlog2 (chanDesc s n) →
      Completes (.csi2Frame p ts (vc * 64 + dt) fnum lines bpl 0 0 data) s fun t =>
        ArrivalTaken s t n ((ts * 65536 : Nat) : Int) fnum none data ∧
        t.get (SNS_CH_CNT_DROP_VALUE n) = satAdd 32 (s.get (SNS_CH_CNT_DROP_VALUE n)) 1 ∧
        ChangesOnly (SNS_CH_CNT_DROP n :: arrivalRegs n) [.fus, .free] s t)

/-- The output instant and the snapshots before it (R310, R311, R316, R319): the instant publishes a built grid and moves on; at O
- CUT the slots that deliver write their records and number them; the grid is built into the buffer that is not current, a grid
with no FEATURE channel as zeros. Fusion's tables and its ego-motion problem (R22, R303, R323, R347): a COMMIT waits for the
next instant while fusion is enabled; while it is disabled the set latches at once if its tables can be read and pass the
checks, and is refused with CFGERR if not; the fusion engine's problem ends in its cycle and returns its result. -/
def Obligations.InstantsSnapshotsCommitAndProblem : Prop :=
  (∀ (s : State) (tab : FusTables), s.powered → s.fus.tables = some tab →
    (s.on FUS_CTRL_ENABLE = true → s.fus.nextO ≤ s.accNs →
      Completes .outputInstant s fun t => ∃ u, EndsAs s (fusLatch u s.fus.nextO) t ∧ u.fus.k = s.fus.k + 1 ∧
        s.fus.nextO < u.fus.nextO ∧ u.fus.nextO ≤ s.fus.nextO + max 1 (s.get FUS_OUT_PERIOD) ∧ u.fus.slotDone = false ∧
        (∀ used, s.fus.grid = some (s.fus.nextO, used) →
          u.get FUS_GRID_GEN_VALUE = (s.get FUS_GRID_GEN_VALUE + 1) % 2 ^ 32 ∧
          u.get FUS_GRID_CUR_BUF = 1 - s.get FUS_GRID_CUR_BUF ∧ u.on FUS_EVT_GRID = true ∧ u.fus.grid = none) ∧
        (s.fus.grid = none → u.get FUS_GRID_GEN_VALUE = s.get FUS_GRID_GEN_VALUE ∧
          u.get FUS_GRID_CUR_BUF = s.get FUS_GRID_CUR_BUF)) ∧
    (∀ (j : Nat) (o tm : Int), j < 32 → s.on FUS_CTRL_READY = true → s.fus.slotDone = false →
      s.fus.nextO ≤ s.accNs + s.get FUS_CUT_SLOT * 1000 → o = presented s s.fus.nextO →
      tm = o - ((s.get FUS_CUT_SLOT * 1000 * 65536 : Nat) : Int) →
      (Completes .slotSnapshot s fun t => t.fus.slotDone = true ∧ t.fus.lastSlot = some tm ∧
        (slKind (tab.slots.getD j []) ≠ 0 → (s.fus.k + 1) % max 1 (slDiv (tab.slots.getD j [])) = 0 →
          (tgetD t.fus.slots j EstSlot.fresh).seq = ((tgetD s.fus.slots j EstSlot.fresh).seq + 1) % 2 ^ 32) ∧
        (slKind (tab.slots.getD j []) = 0 ∨ (s.fus.k + 1) % max 1 (slDiv (tab.slots.getD j [])) ≠ 0 →
          tget t.fus.slots j = tget s.fus.slots j)) ∧
      (slKind (tab.slots.getD j []) = 1 → (s.fus.k + 1) % max 1 (slDiv (tab.slots.getD j [])) = 0 →
      (∀ i, i < 32 → i ≠ j → slKind (tab.slots.getD i []) = 0) →
      Completes .slotSnapshot s fun t => ∃ (r u : State) (cs : List Contrib) (ex : List Nat),
        r = snapAll s (if s.get FUS_GRID_NF = 0 then some tm else s.fus.lastGrid) tm (fun _ => true) ∧
        contributions { r with fus := { r.fus with slotDone := true, lastSlot := some tm } } (tab.slots.getD j []) o tm =
          (u, cs, ex) ∧
        (tgetD t.fus.slots j EstSlot.fresh).seq = ((tgetD s.fus.slots j EstSlot.fresh).seq + 1) % 2 ^ 32 ∧
        (tgetD t.fus.slots j EstSlot.fresh).value =
          (redundantOut (tab.slots.getD j []) (tgetD s.fus.slots j EstSlot.fresh) cs ex).value ∧
        (∀ i, i ≠ j → tget t.fus.slots i = tget s.fus.slots i))) ∧
    (s.on FUS_CTRL_READY = true → s.get FUS_GRID_NF ≠ 0 → s.fus.grid = none → nextGrid s ≤ s.accNs + s.get FUS_CUT_GRID * 1000 →
      (Completes .gridSnapshot s fun t => ∃ used, t.fus.grid = some (nextGrid s, used) ∧
        t.fus.lastGrid = some (presented s (nextGrid s) - ((s.get FUS_CUT_GRID * 1000 * 65536 : Nat) : Int)) ∧
        t.get FUS_GRID_CUR_BUF = s.get FUS_GRID_CUR_BUF ∧ t.get FUS_GRID_GEN_VALUE = s.get FUS_GRID_GEN_VALUE) ∧
      (∀ i e, (∀ n, n < 64 → chEn (chanDesc s n) = true → chKind (chanDesc s n) ≠ 5) →
        resolve s true 0 (gridBuf s (1 - s.get FUS_GRID_CUR_BUF) + 65536) 131072 true = .ok (i, e) →
        resolve s true 0 (gridBuf s (1 - s.get FUS_GRID_CUR_BUF) + 196608) (s.get FUS_GRID_NF * 131072) true = .ok (i, e) →
        (e.tier = 4 → hostUp s = true) → e.st ≠ 2 → e.st ≠ 3 →
        Completes .gridSnapshot s fun t => t.fus.grid = some (nextGrid s, 0) ∧
          ∀ (a p : Nat), p = objPlace e (gridBuf s (1 - s.get FUS_GRID_CUR_BUF) + 65536 - e.base * 65536) →
            memGet t.mem a =
              if p ≤ a ∧ a < p + 131072 + s.get FUS_GRID_NF * 131072 then 0#8 else memGet s.mem a))) ∧
  (∀ (s : State) (who : Initiator) (v : Word64), s.powered →
    (WriteOk s who FUS_COMMIT (v.toNat ||| 1) → s.on FUS_CTRL_ENABLE = true →
      Completes (.fusCommit who v) s fun t =>
        t.isPending 2 = true ∧ (∀ r ∈ keyRegs 2, t.pendRd 2 r.1 = s.heldRd r.1) ∧ ChangesOnly [FUS_COMMIT] [.held] s t) ∧
    (WriteOk s who FUS_COMMIT (v.toNat ||| 1) → s.on FUS_CTRL_ENABLE = false →
      (∀ tb, fusTables (s.snapshot 2) (fun f => (s.snapshot 2).pendGet 2 f) = some tb →
        fusCheck (fun f => (s.snapshot 2).pendGet 2 f) tb = true →
        Completes (.fusCommit who v) s fun t =>
          t.fus.tables = some tb ∧ t.fus.k = 0 ∧ t.fus.chans = [] ∧ t.isPending 2 = false ∧ t.on FUS_CTRL_CFGERR = false ∧
          (∀ r ∈ keyRegs 2, (t.rd r.1).toNat &&& r.2 = (s.heldRd r.1).toNat &&& r.2) ∧
          ChangesOnly ([FUS_COMMIT, FUS_CTRL, FUS_CH_VALID, FUS_CH_DESYNC] ++ (keyRegs 2).map (·.1) ++ engineRegs)
            ([.held, .fus] ++ engineParts) s t) ∧
      ((∀ tb, fusTables (s.snapshot 2) (fun f => (s.snapshot 2).pendGet 2 f) = some tb →
          fusCheck (fun f => (s.snapshot 2).pendGet 2 f) tb = false) →
        Completes (.fusCommit who v) s fun t =>
          t.isPending 2 = false ∧ t.on FUS_CTRL_CFGERR = true ∧ t.on FUS_EVT_CFGERR = true ∧
          ChangesOnly ([FUS_COMMIT, FUS_CTRL, FUS_EVT] ++ engineRegs) (.held :: engineParts) s t)) ∧
    (∀ b seq fin, s.fus.ego.running = some (b, seq, fin) → fin ≤ s.slvCyc →
      Completes .fusionProblemComplete s fun t =>
        t.fus.ego = { s.fus.ego with running := none, result := some (seq, resultBytes (runDense b 0 true
          (if s.fus.ego.warm = [] then none else some s.fus.ego.warm))) } ∧
        t.on SLV_STAT_FUSBUSY = false ∧ ChangesOnly [SLV_STAT] [.fus] s t))

/-- The support of a group of contributions is a strict majority of them whose members all agree, and no other set of its size
agrees: two sensors that differ are never outvoted by the model, they are in conflict (R314). -/
def Obligations.SupportIsTheOneAgreeingMajority : Prop :=
  ∀ (n : Nat) (gate : Word32) (cs l : List Contrib), support n gate cs = some l → 1 < cs.length →
    cs.length < 2 * l.length ∧ l.Sublist cs ∧ agrees n gate l = true ∧
    ∀ k : List Contrib, k.Sublist cs → agrees n gate k = true → k.length ≤ l.length ∧ (k.length = l.length → k = l)

/-! ### The batch solver -/

/-- A batch at CONS that keeps the descriptor's rules starts, its problems on the engines (R327, R331, R348); one that does not
ends at once with STATUS 3 (R328, R329); 300 cycles after its last engine a batch ends with STATUS, FLAGSOR and CONS (R329,
R348); an aborted one also clears ENABLE (R346). An engine whose time has come writes its problem's result, counts it, and its
wait on memory as stall, and takes the next problem 64 on (R331, R342, R344, R345, R348); disabling the solver with no batch
clears READY, with one the batch is aborted and ENABLE reads 1 until it ends (R346). -/
def Obligations.SolverBatchesAndProblems : Prop :=
  (∀ s : State, s.powered →
    (∀ (cons : Nat) (b : List Byte) (u : State), s.on SLV_CTRL_READY = true → s.batch = none →
      cons = s.get SLV_BQ_CONS_INDEX → cons ≠ s.get SLV_BQ_PROD_INDEX →
      b = (quietRead s 0 (slvSlot s cons) 64).getD (List.replicate 64 0) → u = s.tableRead 0 (slvSlot s cons) 64 →
      (batchOk u b = true → bqMode b = 0 →
        Completes .batchStart s fun t => (∃ bt, t.batch = some bt ∧ bt.slot = cons ∧ bt.desc = b ∧ bt.flagsOr = 0 ∧
            bt.aborted = false ∧ bt.start = s.slvCyc ∧
            (∀ e, e < min 64 (bqCount b) → tget bt.engines e = some (e, s.slvCyc + probTime u b e)) ∧
            ∀ e, min 64 (bqCount b) ≤ e → tget bt.engines e = none) ∧
          t.on SLV_STAT_BUSY = true ∧ t.get SLV_STAT_INDEX = cons ∧
          ChangesOnly (SLV_STAT :: engineRegs) (.solve :: engineParts) s t) ∧
      (batchOk u b = true → bqMode b = 1 →
        Completes .batchStart s fun t => ∃ bt d, d = (quietRead u (bqCtx b) (bqProb b) 64).getD (List.replicate 64 0) ∧
          t.batch = some bt ∧ bt.desc = b ∧
          bt.engines = [(0, (0, s.slvCyc + ((baTimes d).1 + baIterN d * (baTimes d).2)))] ∧
          ChangesOnly (SLV_STAT :: engineRegs) (.solve :: engineParts) s t) ∧
      (batchOk u b = false →
        Completes .batchStart s fun t => t.batch = none ∧ t.get SLV_BQ_CONS_INDEX = (cons + 1) % 65536 ∧
          t.get SLV_CNT_BATCH_VALUE = satAdd 32 (s.get SLV_CNT_BATCH_VALUE) 1 ∧
          (∀ i e, objectAt s (slvSlot s cons / 65536) = some (i, e) → e.tier ≠ 1 → e.tier ≠ 5 → AtHome s e →
            memGet t.mem (objPlace e (slvSlot s cons + 3 - e.base * 65536)) = 3#8) ∧
          ChangesOnly ([SLV_BQ_CONS, SLV_CNT_BATCH, SLV_EVT, SLV_STAT] ++ engineRegs) engineParts s t)) ∧
    (∀ bt, s.batch = some bt → bt.engines = [] → bt.lastEnd + 300 ≤ s.slvCyc →
      Completes .batchEnd s fun t => t.batch = none ∧ t.get SLV_BQ_CONS_INDEX = (bt.slot + 1) % 65536 ∧
        t.get SLV_CNT_BATCH_VALUE = satAdd 32 (s.get SLV_CNT_BATCH_VALUE) 1 ∧ t.on SLV_STAT_BUSY = false ∧
        (bqIrq bt.desc = true → t.on SLV_EVT_DONE = true) ∧
        (bt.aborted = true → t.on SLV_EVT_ABORT = true ∧ t.on SLV_CTRL_ENABLE = false ∧ t.on SLV_CTRL_READY = false) ∧
        (bt.aborted = false → t.rd SLV_CTRL = s.rd SLV_CTRL) ∧
        (∀ i e, objectAt s (slvSlot s bt.slot / 65536) = some (i, e) → e.tier ≠ 1 → e.tier ≠ 5 → AtHome s e →
          memGet t.mem (objPlace e (slvSlot s bt.slot + 3 - e.base * 65536)) = if bt.aborted then 2#8 else 1#8) ∧
        ChangesOnly ([SLV_BQ_CONS, SLV_CNT_BATCH, SLV_EVT, SLV_STAT, SLV_CTRL] ++ engineRegs) (.solve :: engineParts) s t)) ∧
  (∀ s : State, s.powered →
    (∀ (e i fin : Nat) (bt : Batch) (s0 u : State) (r : SlvResult), s.batch = some bt → tget bt.engines e = some (i, fin) →
      fin ≤ s.slvCyc → s0 = s.countWrap SLV_CNT_STALL_VALUE (engineEnd s fin - fin) →
      (bqMode bt.desc = 0 → solveDense s0 bt.desc i = (u, r)) →
      (bqMode bt.desc = 1 → solveBundle s0 bt.desc bt.cut = (u, r)) →
      Completes (.problemComplete e) s fun t => (∃ bt', t.batch = some bt' ∧ bt'.desc = bt.desc ∧ bt'.slot = bt.slot ∧
          bt'.flagsOr = bt.flagsOr ||| (r.flags + 0x8000) ∧ bt'.lastEnd = max bt.lastEnd (engineEnd s fin) ∧
          (∀ k, k ≠ e → tget bt'.engines k = tget bt.engines k) ∧
          (bqMode bt.desc = 0 → i + 64 < bqCount bt.desc → bt.aborted = false →
            ∃ f, tget bt'.engines e = some (i + 64, f) ∧ engineEnd s fin ≤ f) ∧
          (bqMode bt.desc = 1 ∨ bqCount bt.desc ≤ i + 64 ∨ bt.aborted = true → tget bt'.engines e = none)) ∧
        t.get SLV_CNT_PROB_VALUE = satAdd 32 (s.get SLV_CNT_PROB_VALUE) 1 ∧
        t.get SLV_CNT_STALL_VALUE = (s.get SLV_CNT_STALL_VALUE + (engineEnd s fin - fin)) % 2 ^ 64 ∧
        (∀ j o, resolve s true (bqCtx bt.desc) (bqRes bt.desc + 320 * i)
            (resultBytes r ++ r.tail.flatMap wordBytes).length true = .ok (j, o) → AtHome s o →
          t.load (objPlace o (bqRes bt.desc + 320 * i - o.base * 65536)) (resultBytes r ++ r.tail.flatMap wordBytes).length =
            resultBytes r ++ r.tail.flatMap wordBytes ∧
          (bqMode bt.desc = 0 → ∀ a, memGet t.mem a =
            memGet (s.store (objPlace o (bqRes bt.desc + 320 * i - o.base * 65536))
              (resultBytes r ++ r.tail.flatMap wordBytes)).mem a)) ∧
        ChangesOnly (engineRegs ++ [SLV_CNT_STALL, SLV_CNT_PROB, SLV_CNT_REG, SLV_CNT_OVF, SLV_CNT_WREJ, SLV_CNT_INVALID])
          (.solve :: .fus :: engineParts) s t) ∧
    (∀ (who : Initiator) (v : Word64), WriteOk s who SLV_CTRL v.toNat →
      (s.on SLV_CTRL_ENABLE = true → v.toNat % 2 = 0 → s.batch = none →
        Completes (.solverDisable who v) s fun t =>
          t.on SLV_CTRL_ENABLE = false ∧ t.on SLV_CTRL_READY = false ∧ ChangesOnly [SLV_CTRL] [] s t) ∧
      (∀ bt, s.on SLV_CTRL_ENABLE = true → v.toNat % 2 = 0 → s.batch = some bt → bt.aborted = false → bqMode bt.desc = 0 →
        Completes (.solverDisable who v) s fun t =>
          t.on SLV_CTRL_ENABLE = true ∧ t.batch = some { bt with aborted := true } ∧ ChangesOnly [SLV_CTRL] [.solve] s t) ∧
      (∀ bt f d, s.on SLV_CTRL_ENABLE = true → v.toNat % 2 = 0 → s.batch = some bt → bt.aborted = false →
        bqMode bt.desc = 1 → tget bt.engines 0 = some f →
        d = (quietRead s (bqCtx bt.desc) (bqProb bt.desc) 64).getD (List.replicate 64 0) →
        Completes (.solverDisable who v) s fun t => t.on SLV_CTRL_ENABLE = true ∧
          (∃ n, n ≤ baIterN d ∧ t.batch = some { bt with
            aborted := true, cut := some n, engines := tset bt.engines 0 (0, bt.start + (baTimes d).1 + n * (baTimes d).2) }) ∧
          ChangesOnly [SLV_CTRL] [.solve] s t) ∧
      (s.on SLV_CTRL_ENABLE = false → v.toNat % 2 = 1 →
        Completes (.solverDisable who v) s fun t => t.on SLV_CTRL_ENABLE = true ∧
          t.on SLV_CTRL_READY = inOneObject s 0 (slvRing s).1 ((slvRing s).2 * 64) ∧
          t.on SLV_CTRL_CFGERR = !inOneObject s 0 (slvRing s).1 ((slvRing s).2 * 64) ∧ ChangesOnly [SLV_CTRL] [] s t)))

/-- A request at CONS (R363, R366, R368): one that breaks the rules is refused with a record, or without one where OUT cannot be
used; one too late is answered by the fallback; else its search begins: a new goal set resets it, a new START with the same
goals raises KM by their distance. Plans leave at RELEASE (R367, R368): a held path whose generation is the present one is
written as PLAN; where the generation has moved it is rechecked, and a path with a blocked edge is withheld, so no path written
after a recheck has one; on stale occupancy a STOP record is written; at the deadline the fallback answers. -/
def Obligations.TrellisRequestsAndPlans : Prop :=
  (∀ (s u : State) (cons : Nat) (r : List Byte), s.powered → s.on TRL_CTRL_ENABLE = true → s.on TRL_CTRL_CFGERR = false →
    s.trl.req = none → cons = s.get TRL_RQ_CONS_INDEX → cons ≠ s.get TRL_RQ_PROD_INDEX → s.trl.outBusy ≤ s.cyc →
    trlRead s (s.get TRL_RQ_BASE_ADDR * 64 + cons % ringSlots (s.get TRL_RQ_BASE_LOG2) 4 12 * 64) 64 = (u, r) →
    (requestOk (u.put TRL_RQ_CONS_INDEX (cons + 1)) r = false → outUsable u (rqOut r) = false →
      Completes .trlRequestAccept s fun t =>
        t.trl.req = none ∧ t.get TRL_RQ_CONS_INDEX = (cons + 1) % 65536 ∧ t.on TRL_EVT_REFUSED = true ∧
        t.get (TRL_CNT_VALUE 3) = satAdd 32 (s.get (TRL_CNT_VALUE 3)) 1 ∧
        ChangesOnly (TRL_RQ_CONS :: planRegs) engineParts s t) ∧
    (∀ q : TrlReq, requestOk (u.put TRL_RQ_CONS_INDEX (cons + 1)) r = false → outUsable u (rqOut r) = true → q.bytes = r →
      Completes .trlRequestAccept s fun t =>
        PlanWritten s t q 3 ∧ t.get TRL_RQ_CONS_INDEX = (cons + 1) % 65536 ∧ t.on TRL_EVT_REFUSED = true ∧
        ChangesOnly (TRL_RQ_CONS :: planRegs) (.trl :: .ecs :: engineParts) s t) ∧
    (requestOk (u.put TRL_RQ_CONS_INDEX (cons + 1)) r = true → rqDeadline r < trlNow s + trlMargin s →
      Completes .trlRequestAccept s fun t => ∃ (w : State) (q : TrlReq), EndsAs s (searchPrep (fallback w q 128) r).1 t ∧ q.bytes = r ∧
        w.get TRL_RQ_CONS_INDEX = (cons + 1) % 65536 ∧ w.trl = { s.trl with req := some q }) ∧
    (∀ b, requestOk (u.put TRL_RQ_CONS_INDEX (cons + 1)) r = true → trlNow s + trlMargin s ≤ rqDeadline r →
      s.on TRL_CTRL_LOADING = false → s.trl.bank = some b →
      Completes .trlRequestAccept s fun t =>
        (∃ q, t.trl.req = some q ∧ q.bytes = r ∧ q.phase = 1) ∧ t.on TRL_STAT_SEARCH = true ∧
        t.get TRL_RQ_CONS_INDEX = (cons + 1) % 65536 ∧ t.trl.start = some (rqStart r) ∧
        t.trl.goals = sortBy (fun a b => a ≤ b) (rqGoals r).dedup ∧
        (∀ old, s.trl.start = some old → s.trl.goals = sortBy (fun a b => a ≤ b) (rqGoals r).dedup →
          t.trl.g = s.trl.g ∧ t.trl.rhs = s.trl.rhs ∧
          t.trl.km = if old = rqStart r then s.trl.km else satCost (s.trl.km + hDist b old (rqStart r))) ∧
        (s.trl.goals ≠ sortBy (fun a b => a ≤ b) (rqGoals r).dedup →
          t.trl.g = [] ∧ t.trl.km = 0 ∧ ∀ n, n < 4096 → rhsOf t.trl n = if n ∈ rqGoals r then 0 else inf32) ∧
        ChangesOnly (TRL_RQ_CONS :: planRegs) (.trl :: engineParts) s t)) ∧
  (∀ (s : State) (q : TrlReq) (b : TrlBank), s.powered → s.trl.req = some q → s.trl.bank = some b →
    (q.phase = 2 → s.trl.busy ≤ s.cyc → rqRelease q.bytes ≤ trlNow s →
      commitDue s = false → trlNow s + trlMargin s ≤ rqDeadline q.bytes →
      (q.selgen = s.get TRL_OGEN_VALUE → staleOcc s = false →
        Completes .planOutput s fun t => PlanWritten s t q 0 ∧ t.trl.prev = some (rqStart q.bytes, q.path) ∧
          t.on TRL_STAT_HELD = false ∧ ChangesOnly planRegs (.trl :: .ecs :: engineParts) s t) ∧
      (q.selgen = s.get TRL_OGEN_VALUE → staleOcc s = true → s.on TRL_CTRL_LOADING = false →
        Completes .planOutput s fun t => PlanWritten s t q 2 ∧ t.trl.prev = none ∧ t.on TRL_EVT_STOP = true ∧
          ChangesOnly planRegs (.trl :: .ecs :: engineParts) s t) ∧
      (∀ x, q.selgen ≠ s.get TRL_OGEN_VALUE → x ∈ q.path → blocked s.trl x = true →
        Completes .planOutput s fun t => (∃ q', t.trl.req = some q' ∧ q'.phase = 1 ∧ q'.path = [] ∧ q'.wcount = q.wcount + 1) ∧
          t.get (TRL_CNT_VALUE 6) = satAdd 32 (s.get (TRL_CNT_VALUE 6)) 1 ∧ t.on TRL_EVT_WITHHELD = true ∧
          ChangesOnly [TRL_CNT 6, TRL_EVT, TRL_STAT, TRL_CTRL] [.trl] s t) ∧
      (q.selgen ≠ s.get TRL_OGEN_VALUE →
        Completes .planOutput s fun t => ∀ st es, t.trl.req = none → t.trl.prev = some (st, es) →
          es = q.path ∧ ∀ x ∈ es, blocked s.trl x = false)) ∧
    (rqDeadline q.bytes ≤ trlNow s + trlMargin s → s.on TRL_CTRL_LOADING = false →
      Completes .trlDeadline s fun t => EndsAs s (fallback s q (q.flags ||| 2)) t ∧ t.trl.req = none ∧
        t.get (TRL_CNT_VALUE 5) = satAdd 32 (s.get (TRL_CNT_VALUE 5)) 1 ∧
        ChangesOnly planRegs (.trl :: .ecs :: engineParts) s t))

/-- One expansion (R362): a node whose rhs is below its g takes it as g, and its predecessors are updated; a node popped above its
key returns to the queue; with the start consistent and no key below its own the search is DONE: its path is held, or without
one the fallback answers NO_PATH (R367). A repair that is due comes first, of 256 cycles at least (R364). Bank latches, loads
and the enable (R22, R366, R371): a COMMIT waits while Trellis is enabled and a request runs; latching another bank loads it; a
bank that breaks its rules is refused with BADBANK, one that keeps them becomes resident with every edge blocked until the
first occupancy; enabling checks the request ring; disabling answers the request by its fallback. -/
def Obligations.SearchBanksAndTrellisEnable : Prop :=
  (∀ (s : State) (q : TrlReq) (b : TrlBank), s.powered → s.trl.req = some q → s.trl.bank = some b → q.phase = 1 →
    s.trl.busy ≤ s.cyc → s.on TRL_CTRL_LOADING = false → trlNow s + trlMargin s < rqDeadline q.bytes →
    (∀ (k1 k2 n : Nat) (rest : List (Nat × Nat × Nat)), s.trl.queue = (k1, k2, n) :: rest →
      s.trl.repairDue = false →
      keyLt (k1, k2) (keyOf b s.trl (s.trl.start.getD 0)) = true ∨
        rhsOf s.trl (s.trl.start.getD 0) ≠ gOf s.trl (s.trl.start.getD 0) →
      Completes .searchExpansion s fun t =>
        (∃ q', t.trl.req = some q' ∧ q'.expand = q.expand + 1 ∧ q'.phase = 1 ∧ q.cycles + 2 ≤ q'.cycles) ∧
        t.get TRL_CNT_EXPAND_VALUE = (s.get TRL_CNT_EXPAND_VALUE + 1) % 2 ^ 64 ∧
        (gOf s.trl n = rhsOf s.trl n → t.trl.queue = rest ∧ t.trl.g = s.trl.g ∧ t.trl.rhs = s.trl.rhs) ∧
        (gOf s.trl n ≠ rhsOf s.trl n → keyLt (k1, k2) (keyOf b s.trl n) = true → rest.length < 65536 →
          t.trl.queue = queueInsert ((keyOf b s.trl n).1, (keyOf b s.trl n).2, n) rest ∧ t.trl.g = s.trl.g) ∧
        (rhsOf s.trl n < gOf s.trl n → keyLt (k1, k2) (keyOf b s.trl n) = false → gOf t.trl n = rhsOf s.trl n) ∧
        (gOf s.trl n < rhsOf s.trl n → keyLt (k1, k2) (keyOf b s.trl n) = false → gOf t.trl n = inf32) ∧
        (∀ m, m ≠ n → gOf t.trl m = gOf s.trl m) ∧ ChangesOnly [TRL_CNT_EXPAND, TRL_CNT 9] [.trl] s t) ∧
    (s.trl.repairDue = false → searchStep b s.trl = none → gOf s.trl (s.trl.start.getD 0) ≠ inf32 →
      Completes .searchExpansion s fun t => (∃ q', t.trl.req = some q' ∧ q'.phase = 2 ∧
          q'.path = succPath b s.trl b.nodes.length (s.trl.start.getD 0) ∧ q'.selgen = s.get TRL_OGEN_VALUE) ∧
        t.on TRL_STAT_HELD = true ∧ t.on TRL_STAT_SEARCH = false ∧ ChangesOnly [TRL_STAT, TRL_CTRL] [.trl] s t) ∧
    (s.trl.repairDue = false → searchStep b s.trl = none → gOf s.trl (s.trl.start.getD 0) = inf32 →
      Completes .searchExpansion s fun t => EndsAs s (fallback (repairNow s) q (q.flags ||| 1)) t) ∧
    (s.trl.repairDue = true →
      Completes .searchExpansion s fun t => t.trl.repairDue = false ∧ t.trl.repair = [] ∧
        ∀ q', t.trl.req = some q' → q.cycles + 256 ≤ q'.cycles)) ∧
  (∀ (s : State) (who : Initiator) (v : Word64), s.powered →
    (WriteOk s who TRL_COMMIT (v.toNat ||| 1) → s.on TRL_CTRL_ENABLE = true →
      Completes (.trlCommit who v) s fun t =>
        t.isPending 3 = true ∧ t.pendRd 3 TRL_BANK = s.heldRd TRL_BANK ∧ ChangesOnly [TRL_COMMIT] [.held] s t) ∧
    (∀ q, s.trl.req = some q → Completes .trlLatch s fun t => t.trl = s.trl ∧ ChangesOnly [] [] s t) ∧
    (s.trl.req = none → s.isPending 3 = true → s.pendGet 3 TRL_BANK_SEL ≠ s.get TRL_BANK_SEL →
      Completes .trlLatch s fun t => t.isPending 3 = false ∧ t.get TRL_BANK_SEL = s.pendGet 3 TRL_BANK_SEL ∧
        t.on TRL_CTRL_LOADING = true ∧ t.trl.bank = none ∧ (∃ fin, t.trl.load = some (s.pendGet 3 TRL_BANK_SEL, fin) ∧ s.cyc ≤ fin) ∧
        t.get TRL_OGEN_VALUE = 0 ∧ ChangesOnly (TRL_BANK :: TRL_OCC_CFG :: TRL_OGEN :: planRegs)
          (.held :: .trl :: engineParts) s t) ∧
    (∀ (sel fin base : Nat) (s1 s2 s3 s4 s5 : State) (h nodes ins edges runs : List Byte), s.trl.load = some (sel, fin) →
      fin ≤ s.cyc → base = s.get (TRL_BANK_BASE_ADDR sel) * 65536 → trlRead s base 4096 = (s1, h) →
      trlRead s1 (base + 0x1000) (64 * leField h 0 2) = (s2, nodes) →
      trlRead s2 (base + 0x41000) (2 * leField h 10 2) = (s3, ins) →
      trlRead s3 (base + 0x49000) (64 * leField h 2 2) = (s4, edges) →
      trlRead s4 (base + 0x149000) (4 * leField h 4 4) = (s5, runs) →
      (bankOk h (parseBank h nodes ins edges runs) = false →
        Completes .trlBankLoaded s fun t => t.trl.load = none ∧ t.trl.bank = s.trl.bank ∧ t.on TRL_CTRL_BADBANK = true ∧
          t.on TRL_EVT_BADBANK = true ∧ t.on TRL_CTRL_LOADING = false ∧ (∀ q, s.trl.req = some q → PlanWritten s t q 3) ∧
          (s.trl.req = none → ChangesOnly planRegs (.trl :: engineParts) s t) ∧
          ChangesOnly planRegs (.trl :: .ecs :: engineParts) s t) ∧
      (bankOk h (parseBank h nodes ins edges runs) = true →
        Completes .trlBankLoaded s fun t => t.trl.load = none ∧ t.trl.bank = some (parseBank h nodes ins edges runs) ∧
          t.get TRL_STAT_BANK = sel % 4 ∧ t.on TRL_CTRL_BADBANK = false ∧ t.get TRL_OGEN_VALUE = 0 ∧ t.trl.cur = [] ∧
          t.trl.hits = [] ∧ ∀ e, e < (parseBank h nodes ins edges runs).edges.length → blocked t.trl e = true)) ∧
    (WriteOk s who TRL_CTRL v.toNat →
      (s.on TRL_CTRL_ENABLE = false → v.toNat % 2 = 1 →
        Completes (.trlEnableWrite who v) s fun t => t.on TRL_CTRL_ENABLE = true ∧
          t.on TRL_CTRL_CFGERR = !inOneObject s 0 (s.get TRL_RQ_BASE_ADDR * 64) (ringSlots (s.get TRL_RQ_BASE_LOG2) 4 12 * 64) ∧
          (t.on TRL_CTRL_READY = true ↔ t.on TRL_CTRL_CFGERR = false ∧ t.trl.bank.isSome = true) ∧
          t.trl.req.isSome = s.trl.req.isSome) ∧
      (∀ q, s.on TRL_CTRL_ENABLE = true → v.toNat % 2 = 0 → s.trl.req = some q → s.isPending 3 = false →
        Completes (.trlEnableWrite who v) s fun t => t.trl.req = none ∧ t.on TRL_CTRL_ENABLE = false ∧
          t.on TRL_CTRL_READY = false ∧ ((s.on TRL_CTRL_LOADING = true ∨ s.trl.bank.isSome = true) →
            t.get (TRL_CNT_VALUE 5) = satAdd 32 (s.get (TRL_CNT_VALUE 5)) 1) ∧
          ChangesOnly planRegs (.trl :: .ecs :: engineParts) s t) ∧
      (s.on TRL_CTRL_ENABLE = true → v.toNat % 2 = 0 → s.trl.req = none → s.isPending 3 = false →
        Completes (.trlEnableWrite who v) s fun t => t.on TRL_CTRL_ENABLE = false ∧ t.on TRL_CTRL_READY = false ∧
          t.trl = s.trl ∧ ChangesOnly [TRL_CTRL, TRL_STAT] [] s t)))

/-- Occupancy (R359, R360, R361, R364): the scan computes NEXT and the voxels that differ, or starts again where the grid was torn;
each is broadcast once, its edges gaining or losing a hit; when all are, NEXT becomes CUR, an edge with a hit is blocked, and
the generation moves on. -/
def Obligations.OccupancyScansBroadcastsCommits : Prop :=
  ∀ (s : State) (ig : Ingest) (b : TrlBank), s.powered → s.trl.ingest = some ig → s.trl.bank = some b →
    (∀ (s1 s2 s3 : State) (h w f : List Byte), ig.next = none → ig.at_ ≤ s.cyc → trlRead s ig.buf 28 = (s1, h) →
      trlRead s1 (ig.buf + 65536) 131072 = (s2, w) →
      trlRead s2 (ig.buf + 196608) (131072 * leField h 20 2) = (s3, f) →
      (ig.gen0 = ig.gen → leField h 16 4 = ig.gen →
        Completes .occScanEnd s fun t => (∃ ig', t.trl.ingest = some ig' ∧
            ig'.next = some (scanGrid s b.zv w f (leField h 20 2)) ∧
            ∀ v, v ∈ ig'.todo ↔ (v ∈ scanGrid s b.zv w f (leField h 20 2) ∧ v ∉ s.trl.cur) ∨
              (v ∈ s.trl.cur ∧ v ∉ scanGrid s b.zv w f (leField h 20 2))) ∧
          t.trl.cur = s.trl.cur ∧ t.trl.hits = s.trl.hits ∧ ChangesOnly engineRegs (.trl :: engineParts) s t) ∧
      (ig.gen0 ≠ ig.gen ∨ leField h 16 4 ≠ ig.gen →
        Completes .occScanEnd s fun t => t.get (TRL_CNT_VALUE 7) = satAdd 32 (s.get (TRL_CNT_VALUE 7)) 1 ∧
          t.trl.cur = s.trl.cur ∧ t.trl.ingested = s.get FUS_GRID_GEN_VALUE ∧
          ChangesOnly planRegs (.trl :: engineParts) s t)) ∧
    (∀ next v rest, ig.next = some next → ig.todo = v :: rest → ig.at_ ≤ s.cyc →
      Completes .occBroadcast s fun t => (∃ ig', t.trl.ingest = some ig' ∧ ig'.todo = rest ∧ ig'.next = some next ∧
          ig.at_ < ig'.at_) ∧
        (∀ e, e < b.edges.length → tgetD t.trl.hits e 0 =
          if passes (edgeAt b e) (v % 256) (v / 256 % 256) (v / 65536) = true ∧ ((edgeRuns b (edgeAt b e)).any fun r =>
              runZ r == v / 65536 && runY r == v / 256 % 256 && runX0 r ≤ v % 256 && v % 256 ≤ runX1 r) = true then
            (if v ∈ next then tgetD s.trl.hits e 0 + 1 else tgetD s.trl.hits e 0 - 1)
          else tgetD s.trl.hits e 0) ∧
        t.get TRL_CNT_BCAST_VALUE = (s.get TRL_CNT_BCAST_VALUE + 1) % 2 ^ 64 ∧
        ChangesOnly [TRL_CNT_BCAST, TRL_CNT_CONFSTALL] [.trl] s t) ∧
    (∀ next, ig.next = some next → ig.todo = [] → ig.at_ + 16448 ≤ s.cyc → s.trl.outBusy ≤ s.cyc →
      Completes .occCommit s fun t => t.trl.cur = next ∧ t.trl.tov = ig.tov ∧ t.trl.hits = s.trl.hits ∧
        (∀ e, e < b.edges.length → blocked t.trl e = decide (0 < tgetD s.trl.hits e 0)) ∧
        t.get TRL_OGEN_VALUE = (s.get TRL_OGEN_VALUE + 1) % 2 ^ 32 ∧ t.on TRL_EVT_COMMIT = true ∧
        t.on TRL_CTRL_LOADING = false)

/-! ### Interrupts, control harts and pins -/

/-- Claims, completions and resets of a target (R386, R387, R388, R390): a claim returns the deliverable source of the highest
priority, the lowest number among equals, puts it on the target's stack and clears a pulse source's PENDING, and returns 0
where none is deliverable; a completion of the top takes it off, any other is a fault, of which the first is recorded; RESET
empties the stack. Software interrupts, pin edges, and a hart's own map (R377, R382, R385, R393, R394): SWI makes a pulse
source PENDING, or counts a merge; a selected edge of an input pin captures the time and pulses its source, an unread capture
showing OVR; a hart stores to and loads from its own D-TCM, and an uncorrectable word faults. -/
def Obligations.TargetsSoftwareInterruptsPinsAndTcm : Prop :=
  (∀ (s : State) (who : Initiator) (t : Nat), s.powered → t < 12 →
    (∀ src, ReadOk s who (BLV_ICU_T_CLAIM t) 4 → s.on BLV_ICU_CTRL_ENABLE = true → deliverable s t src = true →
      (∀ x, deliverable s t x = true → x ≠ src → s.get (BLV_ICU_SRC_PRIO x) < s.get (BLV_ICU_SRC_PRIO src) ∨
        (s.get (BLV_ICU_SRC_PRIO x) = s.get (BLV_ICU_SRC_PRIO src) ∧ src < x)) →
      Completes (.icuClaim who t) s fun u => u.bus = .value (BitVec.ofNat 64 src) ∧
        icuStack u t = (src, s.get (BLV_ICU_SRC_PRIO src)) :: icuStack s t ∧
        (∀ k, k ≠ t → icuStack u k = icuStack s k) ∧ (s.on (BLV_ICU_SRC_EDGE src) = true → src ∉ u.icu.pend) ∧
        ChangesOnly [] [.bus, .icu] s u) ∧
    (ReadOk s who (BLV_ICU_T_CLAIM t) 4 → (∀ x, deliverable s t x = false) →
      Completes (.icuClaim who t) s fun u => u.bus = .value 0#64 ∧ ChangesOnly [] [.bus] s u) ∧
    (∀ (v : Word64), WriteOk s who (BLV_ICU_T_COMPLETE t) v.toNat →
      (∀ prio rest, icuStack s t = (v.toNat, prio) :: rest →
        Completes (.icuComplete who t v) s fun u => icuStack u t = rest ∧ (∀ k, k ≠ t → icuStack u k = icuStack s k) ∧
          ChangesOnly [] [.icu] s u) ∧
      ((∀ e, (icuStack s t).head? = some e → e.1 ≠ v.toNat) →
        Completes (.icuComplete who t v) s fun u => u.on (BLV_ICU_T_FAULT_VALID t) = true ∧
          u.get (BLV_ICU_T_FAULT_COUNT t) = satAdd 16 (s.get (BLV_ICU_T_FAULT_COUNT t)) 1 ∧
          (s.on (BLV_ICU_T_FAULT_VALID t) = false → u.get (BLV_ICU_T_FAULT_GIVEN t) = v.toNat ∧
            ∀ e, (icuStack s t).head? = some e → u.get (BLV_ICU_T_FAULT_EXPECT t) = e.1 % 1024) ∧
          ChangesOnly [BLV_ICU_T_FAULT t] [] s u)) ∧
    (∀ (v : Word64), WriteOk s who (BLV_ICU_T_RESET t) (v.toNat ||| 1) →
      Completes (.icuReset who t v) s fun u =>
        icuStack u t = [] ∧ (∀ k, k ≠ t → icuStack u k = icuStack s k) ∧ ChangesOnly [] [.icu] s u)) ∧
  (∀ (s : State), s.powered →
    (∀ (who : Initiator) (v : Word64), WriteOk s who BLV_ICU_SWI v.toNat → 256 ≤ v.toNat → v.toNat ≤ 511 →
      s.on (BLV_ICU_SRC_EDGE v.toNat) = true →
      (v.toNat ∉ s.icu.pend → Completes (.icuSwi who v) s fun t =>
        icuPending t v.toNat = true ∧ (∀ x, x ∈ s.icu.pend → x ∈ t.icu.pend) ∧ ChangesOnly [] [] s t) ∧
      (v.toNat ∈ s.icu.pend → Completes (.icuSwi who v) s fun t =>
        satAdd 32 (s.get DGN_CNT_MERGE_VALUE) 1 ≤ t.get DGN_CNT_MERGE_VALUE ∧ t.on DGN_EVT_MERGE = true ∧
        ChangesOnly [] [] s t)) ∧
    (∀ (p : Nat) (level : Bool), p < 32 → s.on (BLV_TIO_CFG_DIR p) = false → (s.get BLV_TIO_IN_BITS).testBit p ≠ level →
      ((s.get (BLV_TIO_CFG_EDGE p)).testBit (ofBool (!level)) = true →
        Completes (.tioInputEdge p level) s fun t => (t.get BLV_TIO_IN_BITS).testBit p = level ∧
          t.get (BLV_TIO_TSLO_NS p) = s.nowNs % 1000000000 ∧ t.get (BLV_TIO_TSHI_SEC p) = s.nowNs / 1000000000 % 2 ^ 48 ∧
          t.tioUnread.testBit p = true ∧ (s.tioUnread.testBit p = true → t.on (BLV_TIO_CFG_OVR p) = true) ∧
          (s.on (BLV_ICU_SRC_EDGE (192 + p)) = true → icuPending t (192 + p) = true) ∧
          ChangesOnly [BLV_TIO_IN, BLV_TIO_CFG p, BLV_TIO_TSLO p, BLV_TIO_TSHI p] [.harts] s t) ∧
      ((s.get (BLV_TIO_CFG_EDGE p)).testBit (ofBool (!level)) = false →
        Completes (.tioInputEdge p level) s fun t => (t.get BLV_TIO_IN_BITS).testBit p = level ∧
          ChangesOnly [BLV_TIO_IN] [] s t)) ∧
    (∀ (h a len : Nat) (data : List Byte), h < 4 → 1 ≤ len → len ≤ 8 → 0x40000 ≤ a → a + len ≤ 0x80000 → data.length = len →
      (Completes (.hartPrivateAccess h 2 a len data 0) s fun t => t.bus = .none ∧
          (∀ b, memGet t.mem b = memGet (s.store (tcmPlace h 1 (a - 0x40000)) data).mem b) ∧ ChangesOnly [] [.bus, .mem] s t) ∧
      (Completes (.hartPrivateAccess h 1 a len [] 0) s fun t =>
        t.bus = .bytes (s.load (tcmPlace h 1 (a - 0x40000)) len) ∧ ChangesOnly [] [.bus] s t) ∧
      (Completes (.hartPrivateAccess h 1 a len [] 2) s fun t =>
        t.bus = .accessFault ∧ t.get BLV_SRAM_UE_VALUE = satAdd 32 (s.get BLV_SRAM_UE_VALUE) 1 ∧
        ChangesOnly [BLV_SRAM_UE] [.bus] s t)))

/-- Control harts and their watchdogs (R380, R381): RUN releases a hart at RVEC, with a fresh watchdog, or holds it; a kick starts
the watchdog over; its first expiry raises Smrnmi, the second starts the hart again at RVEC, each counted. -/
def Obligations.HartsRunAndWatchdogsExpire : Prop :=
  ∀ (s : State) (h : Nat), s.powered → h < 4 →
    (∀ (who : Initiator) (v : Word64), WriteOk s who (BLV_HART_CTL h) v.toNat →
      (s.on (BLV_HART_CTL_RUN h) = false → v.toNat % 2 = 1 →
        Completes (.hartRunWrite who h v) s fun t => t.on (BLV_HART_CTL_RUN h) = true ∧ t.on (BLV_HART_STAT_RUNNING h) = true ∧
          tget t.wdog h = some (s.cyc, false) ∧ (∀ k, k ≠ h → tget t.wdog k = tget s.wdog k) ∧
          (∃ l, t.outbox = s.outbox ++ .hartStart h (s.get (BLV_HART_RVEC_OFS h) * 4) :: l) ∧
          ChangesOnly [BLV_HART_CTL h, BLV_HART_STAT h] [.harts, .out] s t) ∧
      (s.on (BLV_HART_CTL_RUN h) = true → v.toNat % 2 = 0 →
        Completes (.hartRunWrite who h v) s fun t => t.on (BLV_HART_CTL_RUN h) = false ∧ t.on (BLV_HART_STAT_RUNNING h) = false ∧
          tget t.wdog h = none ∧ (∃ l, t.outbox = s.outbox ++ .hartHold h :: l) ∧
          ChangesOnly [BLV_HART_CTL h, BLV_HART_STAT h] [.harts, .out] s t)) ∧
    (∀ (who : Initiator) (v : Word64), WriteOk s who (BLV_HART_KICK h) (v.toNat ||| 1) →
      Completes (.watchdogKick who h v) s fun t => tget t.wdog h = some (s.cyc, false) ∧
        (∀ k, k ≠ h → tget t.wdog k = tget s.wdog k) ∧ ChangesOnly [] [.harts] s t) ∧
    (∀ at_ again, tget s.wdog h = some (at_, again) → s.get (BLV_HART_CTL_WDOG_US h) ≠ 0 → s.on (BLV_HART_CTL_RUN h) = true →
      at_ + s.get (BLV_HART_CTL_WDOG_US h) * 1000 ≤ s.cyc →
      Completes (.watchdogExpire h) s fun t =>
        t.get (BLV_HART_STAT_WDOGN h) = satAdd 8 (s.get (BLV_HART_STAT_WDOGN h)) 1 ∧
        tget t.wdog h = some (at_ + s.get (BLV_HART_CTL_WDOG_US h) * 1000, !again) ∧
        (∃ l, t.outbox = s.outbox ++
          (if again then .hartStart h (s.get (BLV_HART_RVEC_OFS h) * 4) else .smrnmi h) :: l) ∧
        ChangesOnly [BLV_HART_STAT h] [.harts, .out] s t)

/-- A boundary evaluates its loops (R396, R397, R401, R406, R407): a loop in no action takes the control law's output, integral and
derivative, and the output waits its 60 cycles, 76 on the dual path; a sample that leaves its model's band is counted, and the
PLAUSN-th enters PLAUS with the loop's action, of which SAFE puts out its safe value; a boundary within 15,600 cycles of the
last is only counted. -/
def Obligations.BoundariesEvaluateLoops : Prop :=
  ∀ (s : State) (c g n : Nat), s.powered →
    (AloneAtBoundary s c g n → s.get (BLV_CLE_L_CTL_MODEL n) = 0 → (lawAt s g n).nan = false →
      Completes (.compareFire c 0) s fun t => (∃ w, (loopOf t n).out = some w ∧ w.value = (lawAt s g n).u ∧
          w.due = ceilDiv (s.cyc * 12) 10 + (if (s.get RFX_DUAL_EN_MASK).testBit n then 76 else 60) ∧
          w.r = (loopSnapshot s g n).r ∧ w.y = (loopSnapshot s g n).y) ∧
        (loopOf t n).i = (lawAt s g n).ic ∧ (loopOf t n).d = (lawAt s g n).dn ∧ (loopOf t n).xp = (lawAt s g n).x ∧
        (loopOf t n).up1 = (lawAt s g n).u ∧ (loopOf t n).up2 = (loopOf s n).up1 ∧ (loopOf t n).yp1 = (loopSnapshot s g n).y ∧
        (loopOf t n).yp2 = (loopOf s n).yp1 ∧ (loopOf t n).ulg = (lawAt s g n).u ∧ (loopOf t n).bad = 0 ∧
        t.get (BLV_CLE_GRP_STAT_BNDRY g) = (s.get (BLV_CLE_GRP_STAT_BNDRY g) + 1) % 2 ^ 32 ∧
        t.get (BLV_CLE_GRP_STAT_NLOOP g) = 1 ∧ tget t.grpLast g = some s.cyc ∧
        ((lawAt s g n).isat = true → t.on (BLV_CLE_L_STAT_ISAT n) = true) ∧
        ((lawAt s g n).usat = true → t.on (BLV_CLE_L_STAT_USAT n) = true) ∧
        (∀ m, m ≠ n → loopOf t m = loopOf s m) ∧ ∀ a, memGet t.mem a = memGet s.mem a) ∧
    (AloneAtBoundary s c g n → s.get (BLV_CLE_L_CTL_MODEL n) = 1 → (loopOf s n).skip = 0 → (lawAt s g n).nan = false →
      flLe (flAbs (flAdd (loopSnapshot s g n).y (flNeg (fma (coef s n 14) (loopOf s n).up1
        (flMul (coef s n 12) (loopOf s n).yp1))))) (coef s n 11) = false →
      s.on (BLV_CLE_L_STAT_PLAUS n) = false → max 1 (s.get (BLV_CLE_L_CTL_PLAUSN n)) ≤ (loopOf s n).bad + 1 →
      (loopOf s n).bad < 255 → s.get (BLV_CLE_L_CTL_ACTION n) = 2 →
      Completes (.compareFire c 0) s fun t => t.on (BLV_CLE_L_STAT_PLAUS n) = true ∧ t.on (BLV_CLE_L_STAT_CAUSE n) = false ∧
        t.on (BLV_CLE_L_STAT_ACTING n) = true ∧ (t.get BLV_CLE_PLAUS_MASK).testBit n = true ∧
        t.get BLV_CLE_CNT_PLAUS_VALUE = satAdd 32 (s.get BLV_CLE_CNT_PLAUS_VALUE) 1 ∧
        (loopOf t n).bad = (loopOf s n).bad + 1 ∧ (loopOf t n).act = some 2 ∧ (loopOf t n).i = (loopOf s n).i ∧
        ∃ w, (loopOf t n).out = some w ∧ w.value = coef s n 9) ∧
    (∀ at_, c < 32 → g < 8 → (cmpDue s c).isSome = true → s.get (TIM_CMP_CTL_DEST c) = 8 + g → tget s.grpLast g = some at_ →
      tget s.destSeen (8 + g) ≠ some s.cyc → s.cyc < at_ + 15600 →
      Completes (.compareFire c 0) s fun t =>
        t.get (BLV_CLE_GRP_STAT_OVR g) = satAdd 16 (s.get (BLV_CLE_GRP_STAT_OVR g)) 1 ∧ t.on BLV_CLE_EVT_OVR = true ∧
        t.loops = s.loops ∧ t.lanes = s.lanes ∧ t.segs = s.segs ∧
        t.get (BLV_CLE_GRP_STAT_BNDRY g) = s.get (BLV_CLE_GRP_STAT_BNDRY g))

/-- Outputs, enables and PLAUS (R398, R400, R404, R408, R410, R438, R439): a waiting output reaches its registers and its output
word, its report is written, and the group is DONE with its last; a dual-path mismatch withholds the word, and is counted and
sent; a loop is enabled only with a valid bank and sources; clearing PLAUS ends an action at the next boundary. -/
def Obligations.LoopOutputsEnablesAndPlaus : Prop :=
  ∀ (s : State) (n : Nat), s.powered → n < 64 →
    (∀ w, (loopOf s n).out = some w → w.due ≤ s.blvCyc →
      Completes (.loopOutputApply n false) s fun t =>
        t.get (BLV_CLE_L_OUT_VALUE n) = w.value.toNat ∧ t.get (BLV_CLE_L_INTEG_VALUE n) = (loopOf s n).i.toNat ∧
        t.get (BLV_CLE_L_DERIV_VALUE n) = (loopOf s n).d.toNat ∧
        loopOf t n = { loopOf s n with
          out := none, mis := false, seq := ((loopOf s n).seq + 2) % 2 ^ 32, prev := outBefore s n w.due, outAt := w.due } ∧
        (s.on (BLV_CLE_L_ODEST_EN n) = true → t.get (FLD_ECM_OUT_VALUE (s.get (BLV_CLE_L_ODEST_WORD n))) = w.value.toNat) ∧
        (∀ i e, resolve s true 0 (s.get BLV_CLE_RPT_ADDR * 4096 + 64 * n) 64 true = .ok (i, e) → AtHome s e →
          t.loadNat (objPlace e (s.get BLV_CLE_RPT_ADDR * 4096 + 64 * n - e.base * 65536)) 4 = ((loopOf s n).seq + 2) % 2 ^ 32 ∧
          t.loadNat (objPlace e (s.get BLV_CLE_RPT_ADDR * 4096 + 64 * n - e.base * 65536) + 28) 4 = w.value.toNat) ∧
        ((∀ m, m ∈ runningLoops s (loopOf s n).grp → m ≠ n → (loopOf s m).out = none) →
          (t.get BLV_CLE_GRP_EVT_DONE).testBit (loopOf s n).grp = decide ((loopOf s n).grp < 8)) ∧
        (∀ m, m ≠ n → loopOf t m = loopOf s m) ∧
        ChangesOnly (engineRegs ++ [BLV_CLE_L_OUT n, BLV_CLE_L_INTEG n, BLV_CLE_L_DERIV n,
          FLD_ECM_OUT (s.get (BLV_CLE_L_ODEST_WORD n)), BLV_CLE_GRP_EVT, BLV_CLE_CNT_RPTERR, BLV_CLE_EVT])
          (.loops :: engineParts) s t) ∧
    (∀ w, (loopOf s n).out = some w → w.due ≤ s.blvCyc → w.dual = true →
      Completes (.loopOutputApply n true) s fun t =>
        (t.get RFX_DUAL_MIS_MASK).testBit n = true ∧ t.get RFX_CNT_DUALMIS_VALUE = satAdd 32 (s.get RFX_CNT_DUALMIS_VALUE) 1 ∧
        (loopOf t n).mis = true ∧ (loopOf t n).ulg = w.ulgOld ∧
        (∀ k, k < 64 → t.get (FLD_ECM_OUT_VALUE k) = s.get (FLD_ECM_OUT_VALUE k)) ∧
        (s.emcy.length < 8 → t.emcy = s.emcy ++ [{ code := 0xFF04, data := n }])) ∧
    (∀ (who : Initiator) (v : Word64), WriteOk s who (BLV_CLE_L_CTL n) v.toNat →
      (s.on (BLV_CLE_L_CTL_ENABLE n) = false → v.toNat % 2 = 1 →
        Completes (.loopEnableWrite who n v) s fun t => t.on (BLV_CLE_L_CTL_ENABLE n) = loopEnableOk t n ∧
          t.on (BLV_CLE_L_CTL_CFGERR n) = !loopEnableOk t n ∧
          loopOf t n = { loopOf s n with again := (loopOf s n).again || loopEnableOk t n } ∧
          (∀ m, m ≠ n → loopOf t m = loopOf s m) ∧ ChangesOnly [BLV_CLE_L_CTL n] [.loops] s t) ∧
      (s.on (BLV_CLE_L_CTL_ENABLE n) = true → v.toNat % 2 = 0 →
        Completes (.loopEnableWrite who n v) s fun t =>
          t.on (BLV_CLE_L_CTL_ENABLE n) = false ∧ ChangesOnly [BLV_CLE_L_CTL n] [] s t)) ∧
    (∀ (who : Initiator) (v : Word64), WriteOk s who (BLV_CLE_L_STAT n) (v.toNat ||| 1) → s.on (BLV_CLE_L_STAT_PLAUS n) = true →
      (s.freshBits (BLV_CLE_L_STAT n)).testBit 0 = false →
      Completes (.plausClear who n v) s fun t => t.on (BLV_CLE_L_STAT_PLAUS n) = false ∧
        (t.get BLV_CLE_PLAUS_MASK).testBit n = false ∧
        (∀ m, m ≠ n → (t.get BLV_CLE_PLAUS_MASK).testBit m = (s.get BLV_CLE_PLAUS_MASK).testBit m) ∧
        (loopOf t n).resume = ((loopOf s n).resume || (loopOf s n).act.isSome) ∧
        ChangesOnly [BLV_CLE_L_STAT n, BLV_CLE_PLAUS] [.loops] s t)

/-- Conversions release evaluations (R413, R415, R416, R420, R424): at T2 the codes enter the history, an absent channel repeating
its newest; a bound group's evaluation is released on the active bank, or is BUSY where the arrays are occupied; a conversion
that releases none still enters the history. Results and bindings (R22, R414, R422, R425, R440): at T3 an evaluation frees the
arrays; at T4 its group's result vector, flags, bank and count are written; a COMMIT of the bindings waits for idle arrays
while RFX is enabled, and is refused with CFGERR where two groups share a unit or a program is absent. -/
def Obligations.ReflexEvaluationsResultsAndBindings : Prop :=
  (∀ (s : State) (c absent : Nat) (codes : List Int) (v : Conv) (rest : List Conv), s.powered → s.rfx.convs = v :: rest →
    v.t0 + 700 ≤ s.cyc → c ∈ v.units → v.real = true → absent < 256 → s.rfx.hist.length = 8 →
    (∀ g prog, s.on RFX_CTRL_ENABLE = true → v.groups = [(g, prog)] → arraysBusy s (v.t0 + 700) = false →
      prValid (progEntry s (actBank s) prog) = true → absent &&& inputChannels s (actBank s) (progEntry s (actBank s) prog) = 0 →
      Completes (.reflexRelease c codes absent 0) s fun t => (∃ e, t.rfx.evals = s.rfx.evals ++ [e] ∧ e.g = g ∧ e.t0 = v.t0 ∧
          e.bank = actBank s ∧ e.occ = true ∧ e.absMask = 0 ∧ e.flags = 32 * ofBool (s.on (SLC_L_STAT_STALE 8)) ∧
          e.res = some (evaluate t (actBank s) (progEntry s (actBank s) prog))) ∧ t.rfx.convs = rest ∧
        (∀ ch, ch < 8 → histAt t ch 0 = (if absent.testBit ch then histAt s ch 0 else clampInt (codes.getD ch 0) (-131072) 131071) ∧
          ∀ k, k < 127 → histAt t ch (k + 1) = histAt s ch k) ∧
        t.get RFX_CNT_EVAL_VALUE = (s.get RFX_CNT_EVAL_VALUE + 1) % 2 ^ 64 ∧
        ChangesOnly [RFX_CNT_EVAL] [.rfx] s t) ∧
    (∀ g prog, s.on RFX_CTRL_ENABLE = true → v.groups = [(g, prog)] → arraysBusy s (v.t0 + 700) = true →
      Completes (.reflexRelease c codes absent 0) s fun t => (∃ e, t.rfx.evals = s.rfx.evals ++ [e] ∧ e.g = g ∧ e.res = none ∧
          e.occ = false ∧ e.flags.testBit 1 = true) ∧
        t.get RFX_CNT_BUSY_VALUE = satAdd 32 (s.get RFX_CNT_BUSY_VALUE) 1 ∧ ChangesOnly [RFX_CNT_BUSY] [.rfx] s t) ∧
    (releasedGroups s v = [] →
      Completes (.sampleHistoryPush c codes absent) s fun t => t.rfx.convs = rest ∧ t.rfx.evals = s.rfx.evals ∧
        (∀ ch, ch < 8 → histAt t ch 0 = (if absent.testBit ch then histAt s ch 0 else clampInt (codes.getD ch 0) (-131072) 131071) ∧
          ∀ k, k < 127 → histAt t ch (k + 1) = histAt s ch k) ∧ ChangesOnly [] [.rfx] s t)) ∧
  (∀ (s : State), s.powered →
    (∀ e, s.rfx.evals = [e] → e.occ = true → e.t0 + 1800 ≤ s.cyc → tget s.lanes 8 = none →
      Completes .reflexOutput s fun t => t.rfx = { s.rfx with evals := [{ e with occ := false }] } ∧ (∀ at_, arraysBusy t at_ = false) ∧
        ChangesOnly [] [.rfx] s t) ∧
    (∀ (e : Eval) (ws : List Word32), s.rfx.evals = [e] → e.g < 8 → e.t0 + 2000 ≤ s.cyc → tget s.lanes 8 = none → e.bank < 2 →
      e.flags < 256 → e.absMask < 256 →
      Completes (.reflexLatch e.g) s fun t => t.rfx.evals = [] ∧ e.g ∈ t.rfx.latched ∧
        t.get (RFX_GRP_STAT_FLAGS e.g) = e.flags % 64 ∧ t.get (RFX_GRP_STAT_BANK e.g) = e.bank ∧
        t.get (RFX_GRP_STAT_EVALS e.g) = (s.get (RFX_GRP_STAT_EVALS e.g) + 1) % 2 ^ 32 ∧
        (e.res = some ws → ∀ k, k < 64 → t.get (RFX_RES_VALUE e.g k) = (vAt ws k).toNat) ∧
        (e.res = none → ∀ k, k < 64 → t.get (RFX_RES_VALUE e.g k) = s.get (RFX_RES_VALUE e.g k)) ∧
        (e.flags.testBit 1 = true → t.on RFX_EVT_BUSY = true) ∧
        ChangesOnly (RFX_EVT :: RFX_GRP_STAT e.g :: each 64 (RFX_RES e.g)) [.rfx] s t) ∧
    (∀ (who : Initiator) (v : Word64), WriteOk s who RFX_COMMIT (v.toNat ||| 1) → s.on RFX_CTRL_ENABLE = true →
      Completes (.rfxCommit who v) s fun t =>
        t.isPending 4 = true ∧ (∀ r ∈ keyRegs 4, t.pendRd 4 r.1 = s.heldRd r.1) ∧ ChangesOnly [RFX_COMMIT] [.held] s t) ∧
    (s.isPending 4 = true → arraysBusy s s.cyc = false →
      (bindOk s = true → Completes .rfxBindLatch s fun t => t.isPending 4 = false ∧ t.on RFX_CTRL_CFGERR = false ∧
        (∀ g, g < 8 → t.get (RFX_BIND_EN g) = s.pendGet 4 (RFX_BIND_EN g) ∧ t.get (RFX_BIND_CMP g) = s.pendGet 4 (RFX_BIND_CMP g) ∧
          t.get (RFX_BIND_PROG g) = s.pendGet 4 (RFX_BIND_PROG g)) ∧ ChangesOnly (RFX_CTRL :: each 8 RFX_BIND) [.held] s t) ∧
      (bindOk s = false → Completes .rfxBindLatch s fun t => t.isPending 4 = false ∧ t.on RFX_CTRL_CFGERR = true ∧
        t.on RFX_EVT_CFGERR = true ∧ ChangesOnly [RFX_CTRL, RFX_EVT] [.held] s t)) ∧
    (arraysBusy s s.cyc = true → Completes .rfxBindLatch s fun t => ChangesOnly [] [] s t))

/-! ### The Sluice -/

/-- Requests of the Sluice's ring and the harts' arms (R427, R430, R431, R432, R441): a good FILL starts on a lane that neither
fills nor is checked; an ARM puts an IDLE or FILLED lane into CHECK, or waits for a fill in progress; a CANCEL takes an ARMED
lane back to FILLED and ends a fill; a malformed request is answered with BADOP or BADLANE; each moves CONS on by one. A hart
arms without the ring, and an arm out of place is rejected. -/
def Obligations.SluiceRequestsAreTaken : Prop :=
  ∀ (s : State), s.powered →
    (∀ s' r a, slcHead s = some (s', r, a) →
      (goodReq s 1 r = true → laneSt s (sqLane r) ≠ 1 → laneSt s (sqLane r) ≠ 5 → Completes .sluiceFill s fun t =>
        t.get SLC_RQ_CONS_INDEX = (s.get SLC_RQ_CONS_INDEX + 1) % 65536 ∧ laneSt t (sqLane r) = 1 ∧
        (∃ f, (laneOf t (sqLane r)).fill = some f ∧ f.slot = a ∧ f.irq = sqIrq r ∧ f.src = sqSrc r ∧ f.hsrc = sqHsrc r ∧
          f.mask = sqMask r ∧ f.at_ = s.cyc ∧ f.hdr = false ∧ f.pos = 0 ∧ f.checkEnd = none) ∧
        t.get (SLC_L_STAT_TGRP (sqLane r)) = (if sqLane r = 8 then sqTgrp r else sqLane r) ∧
        t.on (SLC_L_STAT_ARMPEND (sqLane r)) = sqArmNow r ∧ (∀ m, m ≠ sqLane r → laneOf t m = laneOf s m) ∧
        ChangesOnly (slcRegs (sqLane r)) (.lanes :: engineParts) s t) ∧
      (goodReq s 2 r = true → laneSt s (sqLane r) = 0 ∨ laneSt s (sqLane r) = 2 → Completes .sluiceArm s fun t =>
        t.get SLC_RQ_CONS_INDEX = (s.get SLC_RQ_CONS_INDEX + 1) % 65536 ∧ laneSt t (sqLane r) = 5 ∧
        (laneOf t (sqLane r)).check =
          some (s.blvCyc + checkCycles s (sqLane r) (sqMask r), laneSt s (sqLane r), some (a, sqIrq r)) ∧
        (laneOf t (sqLane r)).mask = sqMask r ∧
        t.get (SLC_L_STAT_TGRP (sqLane r)) = (if sqLane r = 8 then sqTgrp r else sqLane r) ∧
        (∀ m, m ≠ sqLane r → laneOf t m = laneOf s m) ∧ ChangesOnly (slcRegs (sqLane r)) (.lanes :: engineParts) s t) ∧
      (goodReq s 2 r = true → laneSt s (sqLane r) = 1 → s.on (SLC_L_STAT_ARMPEND (sqLane r)) = false →
        Completes .sluiceArm s fun t => t.get SLC_RQ_CONS_INDEX = (s.get SLC_RQ_CONS_INDEX + 1) % 65536 ∧
          laneSt t (sqLane r) = 1 ∧ t.on (SLC_L_STAT_ARMPEND (sqLane r)) = true ∧
          (laneOf t (sqLane r)).armReq = some (a, sqIrq r) ∧ (laneOf t (sqLane r)).fill = (laneOf s (sqLane r)).fill ∧
          ChangesOnly (slcRegs (sqLane r)) (.lanes :: engineParts) s t) ∧
      (goodReq s 3 r = true → laneSt s (sqLane r) = 3 → Completes .sluiceCancel s fun t =>
        t.get SLC_RQ_CONS_INDEX = (s.get SLC_RQ_CONS_INDEX + 1) % 65536 ∧ laneSt t (sqLane r) = 2 ∧
        SluiceAnswered s t (a, sqIrq r) 1 ∧ laneOf t (sqLane r) = laneOf s (sqLane r) ∧
        ChangesOnly (slcRegs (sqLane r)) engineParts s t) ∧
      (∀ f, goodReq s 3 r = true → laneSt s (sqLane r) = 1 → (laneOf s (sqLane r)).fill = some f →
        (sqLane r < 8 → f.len ≤ 64 * popCount 64 f.mask) → Completes .sluiceCancel s fun t =>
        t.get SLC_RQ_CONS_INDEX = (s.get SLC_RQ_CONS_INDEX + 1) % 65536 ∧
        laneSt t (sqLane r) = (if (laneOf s (sqLane r)).drain.isSome then 4 else 0) ∧ (laneOf t (sqLane r)).fill = none ∧
        SluiceAnswered s t (a, sqIrq r) 1 ∧ (f.irq = true → t.on SLC_EVT_DONE = true) ∧
        ChangesOnly (slcRegs (sqLane r) ++ fillBankRegs s f) (.lanes :: engineParts) s t) ∧
      (∀ code, slcBadRequest s r = some code → Completes .sluiceBadopRequest s fun t =>
        t.get SLC_RQ_CONS_INDEX = (s.get SLC_RQ_CONS_INDEX + 1) % 65536 ∧ (code = 0x10 ∨ code = 0x11) ∧
        SluiceAnswered s t (a, sqIrq r) code ∧ ChangesOnly (engineRegs ++ [SLC_RQ_CONS, SLC_EVT]) engineParts s t)) ∧
    (∀ (who : Initiator) (l : Nat) (v : Word64), l < 9 → WriteOk s who (SLC_L_ARM l) (v.toNat ||| 1) →
      (laneSt s l = 0 ∨ laneSt s l = 2 → Completes (.sluiceHartArm who l v) s fun t => laneSt t l = 5 ∧
        (laneOf t l).check = some (s.blvCyc + checkCycles s l (if l = 8 then 0 else s.get (SLC_L_AMASK_MASK l)), laneSt s l, none) ∧
        (laneOf t l).mask = (if l = 8 then 0 else s.get (SLC_L_AMASK_MASK l)) ∧
        t.get (SLC_L_STAT_TGRP l) = (if l = 8 then bitsOf v.toNat 6 4 else l) ∧ (∀ m, m ≠ l → laneOf t m = laneOf s m) ∧
        ChangesOnly [SLC_L_ARM l, SLC_L_STAT l] [.lanes] s t) ∧
      (laneSt s l ≠ 0 → laneSt s l ≠ 2 → Completes (.sluiceHartArm who l v) s fun t => t.on SLC_EVT_REJECT = true ∧
        ChangesOnly [SLC_L_ARM l, SLC_EVT] [] s t))

/-- What a fill reads lands (R428, R429, R430): a header with the right MAGIC, LEN and LANE gives length, generation and CRC, any
other ends the fill with STATUS 0x12 and a counted rejection; a piece lands in the inactive banks of its loops, sixteen words
to a loop in rising order, or in the inactive weight bank; the last byte's CRC starts the arming check, or spoils and ends the
fill. Arming checks, the timeout of a fill and staleness (R430, R431, R436): a fill whose check passes leaves its lane FILLED,
or ARMED where an arm is pending, and its requests succeed; a check from IDLE or FILLED arms the lane; a check that fails is
counted and answered with STATUS 0x13; a fill that takes longer than FILLTMO ends with 0x15; a lane without a swap for its
staleness time is STALE, once. -/
def Obligations.FillsChecksArmingAndStaleness : Prop :=
  (∀ (s : State) (l : Nat) (f : Fill), s.powered → l < 9 → fillingLane s l = some f →
    (∀ u h, f.hdr = false → fillRead s l f 0 64 0 = (u, 0, h) →
      (leField h 0 4 = 0x534C4331 → leField h 16 1 = l → (l < 8 → leField h 4 4 = 64 * popCount 64 f.mask) →
        (l = 8 → 4096 ≤ leField h 4 4 ∧ leField h 4 4 ≤ 2097152 ∧ leField h 4 4 % 64 = 0) →
        Completes (.fillHeaderLanded l 0) s fun t =>
          (laneOf t l).fill = some { f with hdr := true, len := leField h 4 4, gen := leField h 8 4, crc := leField h 12 4 } ∧
          (∀ m, m ≠ l → laneOf t m = laneOf s m) ∧ ChangesOnly engineRegs (.lanes :: engineParts) s t) ∧
      (leField h 0 4 ≠ 0x534C4331 ∨ leField h 16 1 ≠ l ∨ (l < 8 ∧ leField h 4 4 ≠ 64 * popCount 64 f.mask) ∨
          (l = 8 ∧ (leField h 4 4 < 4096 ∨ 2097152 < leField h 4 4 ∨ leField h 4 4 % 64 ≠ 0)) → Completes (.fillHeaderLanded l 0) s fun t =>
        FillFailed s t l f 0x12 ∧ CheckRejected s t)) ∧
    (∀ u bs, f.hdr = true → f.checkEnd = none → f.pos + pieceLen f ≠ f.len →
      fillRead s l f (64 + f.pos) (pieceLen f) 0 = (u, 0, bs) → (l = 8 → f.pos = 0 → leField bs 4 4 = f.len) →
      (l < 8 → f.pos % 4 = 0 ∧ f.pos + bs.length ≤ 64 * popCount 64 f.mask) →
      Completes (.fillPieceLanded l 0) s fun t =>
        (laneOf t l).fill = some { f with pos := f.pos + pieceLen f, crcAcc := bs.foldl crc32Byte f.crcAcc } ∧
        (l = 8 → t.load (wbankPlace (1 - actBank s) f.pos) bs.length = bs) ∧
        (l < 8 → ∀ i, i < bs.length / 4 → ∀ n, n = (setBitsOf 64 f.mask).getD ((f.pos / 4 + i) / 16) 0 →
          t.get (BLV_CLE_L_BK_VALUE n (1 - loopBank s n) ((f.pos / 4 + i) % 16)) = leField bs (4 * i) 4) ∧
        ChangesOnly (engineRegs ++ fillBankRegs s f) (.lanes :: engineParts) s t) ∧
    (∀ u bs, f.hdr = true → f.checkEnd = none → f.pos + pieceLen f = f.len →
      fillRead s l f (64 + f.pos) (pieceLen f) 0 = (u, 0, bs) → (l = 8 → f.pos = 0 → leField bs 4 4 = f.len) →
      (l < 8 → f.pos % 4 = 0 ∧ f.pos + bs.length ≤ 64 * popCount 64 f.mask) →
      (bs.foldl crc32Byte f.crcAcc ^^^ 0xFFFFFFFF = f.crc → Completes (.fillLastByte l 0) s fun t =>
        (∃ f', (laneOf t l).fill = some f' ∧ f'.pos = f.len ∧ f'.checkEnd = some (s.blvCyc + checkCycles t l f.mask)) ∧
        laneSt t l = 1 ∧ (l = 8 → t.load (wbankPlace (1 - actBank s) f.pos) bs.length = bs) ∧
        (l < 8 → ∀ i, i < bs.length / 4 → ∀ n, n = (setBitsOf 64 f.mask).getD ((f.pos / 4 + i) / 16) 0 →
          t.get (BLV_CLE_L_BK_VALUE n (1 - loopBank s n) ((f.pos / 4 + i) % 16)) = leField bs (4 * i) 4) ∧
        ChangesOnly (engineRegs ++ fillBankRegs s f) (.lanes :: .rfx :: engineParts) s t) ∧
      (bs.foldl crc32Byte f.crcAcc ^^^ 0xFFFFFFFF ≠ f.crc → Completes (.fillLastByte l 0) s fun t =>
        FillFailed s t l f 0x12 ∧ CheckRejected s t))) ∧
  (∀ (s : State) (l : Nat), s.powered → l < 9 →
    (∀ f fin, laneSt s l = 1 → (laneOf s l).fill = some f → f.checkEnd = some fin → fin ≤ s.blvCyc →
      (armOk s l f.mask = true → Completes (.armCheckEnd l 0) s fun t =>
        laneSt t l = (if s.on (SLC_L_STAT_ARMPEND l) then 3 else 2) ∧ (laneOf t l).fill = none ∧ (laneOf t l).genFilled = f.gen ∧
        (s.on (SLC_L_STAT_ARMPEND l) = true → (laneOf t l).genArmed = f.gen ∧ (laneOf t l).armedAt = fin) ∧
        t.on (SLC_L_STAT_ARMPEND l) = false ∧ ((laneOf s l).armReq = none → SluiceAnswered s t (f.slot, f.irq) 1) ∧
        (∀ r, (laneOf s l).armReq = some r → SluiceAnswered s t r 1) ∧ (∀ m, m ≠ l → laneOf t m = laneOf s m) ∧
        ChangesOnly (slcRegs l) (.lanes :: engineParts) s t) ∧
      (armOk s l f.mask = false → Completes (.armCheckEnd l 0) s fun t => FillFailed s t l f 0x13 ∧ CheckRejected s t)) ∧
    (∀ fin from_ req, laneSt s l = 5 → (laneOf s l).check = some (fin, from_, req) → fin ≤ s.blvCyc → from_ < 8 →
      (armOk s l (laneOf s l).mask = true → Completes (.armCheckEnd l 0) s fun t =>
        laneSt t l = 3 ∧ (laneOf t l).check = none ∧ (laneOf t l).armedAt = fin ∧
        (laneOf t l).genArmed = (if from_ = 2 then (laneOf s l).genFilled else 0) ∧ (∀ r, req = some r → SluiceAnswered s t r 1) ∧
        ChangesOnly (slcRegs l) (.lanes :: engineParts) s t) ∧
      (armOk s l (laneOf s l).mask = false → Completes (.armCheckEnd l 0) s fun t =>
        laneSt t l = from_ ∧ (laneOf t l).check = none ∧ CheckRejected s t ∧ (∀ r, req = some r → SluiceAnswered s t r 0x13) ∧
        ChangesOnly (slcRegs l) (.lanes :: engineParts) s t)) ∧
    (∀ f, laneSt s l = 1 → (laneOf s l).fill = some f → f.at_ + max 1 (s.get SLC_FILLTMO_US) * 1000 ≤ s.cyc →
      Completes (.fillTimeout l) s fun t => FillFailed s t l f 0x15 ∧ t.on SLC_EVT_TIMEOUT = true) ∧
    (s.get (SLC_L_STALE_US l) ≠ 0 → s.on SLC_CTRL_ENABLE = true → s.on (SLC_L_STAT_STALE l) = false →
      (laneOf s l).since + s.get (SLC_L_STALE_US l) * 1000 ≤ s.cyc →
      Completes (.laneStale l) s fun t => t.on (SLC_L_STAT_STALE l) = true ∧ t.on SLC_EVT_STALE = true ∧
        t.get SLC_CNT_STALE_VALUE = satAdd 32 (s.get SLC_CNT_STALE_VALUE) 1 ∧
        (s.emcy.length < 8 → t.emcy = s.emcy ++ [{ code := 0xFF03, data := l }]) ∧
        ChangesOnly [SLC_L_STAT l, SLC_CNT_STALE, SLC_EVT, FLD_ECS_CNT 7, FLD_ECS_EVT] [.diag] s t))

/-! ### The MainDevice segments -/

/-- A cycle goes out (R460, R462, R463, R465, R467): at instant 1 each output entry puts its converted word, or in substitution its
substitute, at its place in the template; a group not yet DONE counts EARLY; leaving substitution advances the epoch; at B +
TXOFS the frame leaves on A, and on B with REDUND, with the time in its DCTIME datagrams. -/
def Obligations.CyclesAreSent : Prop :=
  ∀ (s : State) (g : Nat) (c : SegCyc), s.powered → g < 4 → (segOf s g).cyc = some c →
    (c.phase = 0 → c.b + s.get (FLD_ECM_TIMING_TXOFS g) ≤ s.cyc + 1000 →
      Completes (.ecmOutputSnapshot g) s fun t => (∃ c', (segOf t g).cyc = some c' ∧ c'.phase = 1 ∧ c'.b = c.b ∧
          c'.frame.length = min 2048 (frameLen s g) ∧
          ∀ e, e ∈ entriesOf s g 1 → ∀ ty ofs len raw, ty = s.get (FLD_ECM_MAP_LO_TYPE g e) →
            ofs = s.get (FLD_ECM_MAP_LO_OFS g e) → len = typeBytes ty → 0 < len → ofs + len ≤ frameLen s g →
            (∀ e', e' ∈ entriesOf s g 1 → e' ≠ e → s.get (FLD_ECM_MAP_LO_OFS g e') +
              typeBytes (s.get (FLD_ECM_MAP_LO_TYPE g e')) ≤ ofs ∨ ofs + len ≤ s.get (FLD_ECM_MAP_LO_OFS g e')) →
            raw = (if s.on (FLD_ECM_STAT_SUBST g) = false then
                outputRaw ty (BitVec.ofNat 32 (s.get (FLD_ECM_OUT_VALUE (s.get (FLD_ECM_MAP_LO_WORD g e)))))
                  (BitVec.ofNat 32 (s.get (FLD_ECM_MAP_HI_SCALE g e)))
              else if s.on (FLD_ECM_MAP_LO_SUBMODE g e) = true then
                tgetD (segOf s g).sent e (if ty = 7 then
                  ofBool ((frameWords s (FLD_ECM_TPL g) 2048).getD ofs 0#8 |>.toNat.testBit (s.get (FLD_ECM_MAP_LO_BIT g e)))
                  else leField (frameWords s (FLD_ECM_TPL g) 2048) ofs len)
              else outputRaw ty (BitVec.ofNat 32 (s.get (FLD_ECM_MAP_HI_SUBV g e)))
                (BitVec.ofNat 32 (s.get (FLD_ECM_MAP_HI_SCALE g e)))) →
            tget (segOf t g).sent e = some raw ∧ (ty ≠ 7 → leField c'.frame ofs len = raw % 256 ^ len) ∧
            (ty = 7 → (c'.frame.getD ofs 0#8).toNat.testBit (s.get (FLD_ECM_MAP_LO_BIT g e)) = decide (raw % 2 = 1))) ∧
        (segOf t g).subst = s.on (FLD_ECM_STAT_SUBST g) ∧
        ((s.get BLV_CLE_GRP_EVT_DONE).testBit (s.get (FLD_ECM_CTL_GRP g)) = false →
          t.get (FLD_ECM_CNT_VALUE g 4) = satAdd 32 (s.get (FLD_ECM_CNT_VALUE g 4)) 1) ∧
        ((segOf s g).subst = true → s.on (FLD_ECM_STAT_SUBST g) = false → (t.get DGN_EPOCH_CAUSE_MASK).testBit 2 = true ∧
          (s.epochCyc ≠ some s.blvCyc →
            t.get DGN_EPOCH_VALUE = if s.get DGN_EPOCH_VALUE = 0xFFFFFFFF then 1 else s.get DGN_EPOCH_VALUE + 1)) ∧
        ((segOf s g).subst = false ∨ s.on (FLD_ECM_STAT_SUBST g) = true → ChangesOnly [FLD_ECM_CNT g 4] [.segs] s t)) ∧
    (c.phase = 1 → c.b + s.get (FLD_ECM_TIMING_TXOFS g) ≤ s.cyc → Completes (.ecmFrameSend g) s fun t => ∃ bs l,
        t.outbox = s.outbox ++ (if s.on (FLD_ECM_STAT_LINKA g) then [.frame (segPort g false) bs] else []) ++
          (if s.on (FLD_ECM_CTL_REDUND g) && s.on (FLD_ECM_STAT_LINKB g) then [.frame (segPort g true) bs] else []) ++ l ∧
        (segOf t g).cyc = some { c with phase := 2, frame := bs, sentA := s.on (FLD_ECM_STAT_LINKA g)
                                        sentB := s.on (FLD_ECM_CTL_REDUND g) && s.on (FLD_ECM_STAT_LINKB g) } ∧
        ((∀ d, d < 16 → s.on (FLD_ECM_EWKC_VALID g d) = true → s.on (FLD_ECM_EWKC_DCTIME g d) = false) → bs = c.frame) ∧
        (∀ d, d < 16 → s.on (FLD_ECM_EWKC_VALID g d) = true → s.on (FLD_ECM_EWKC_DCTIME g d) = true →
          8 ≤ s.get (FLD_ECM_EWKC_OFS g d) → s.get (FLD_ECM_EWKC_OFS g d) ≤ c.frame.length →
          (∀ d', d' < 16 → d' ≠ d → s.on (FLD_ECM_EWKC_VALID g d') = true → s.on (FLD_ECM_EWKC_DCTIME g d') = true →
            8 ≤ s.get (FLD_ECM_EWKC_OFS g d') ∧ (s.get (FLD_ECM_EWKC_OFS g d') + 8 ≤ s.get (FLD_ECM_EWKC_OFS g d) ∨
              s.get (FLD_ECM_EWKC_OFS g d) + 8 ≤ s.get (FLD_ECM_EWKC_OFS g d'))) →
          leField bs (s.get (FLD_ECM_EWKC_OFS g d) - 8) 8 = codeOf 64 (dcNow s)) ∧
        ChangesOnly [] [.segs, .out] s t)

/-- A cycle comes back (R460, R463, R464, R465): a good copy before the deadline is held, and the merge starts with the last copy
that left, or at the deadline; at its end, with every checked counter as expected, the input words land and the run of bad
cycles ends; a counter that differs, or no copy at all, ends the cycle bad. -/
def Obligations.CyclesComeBack : Prop :=
  ∀ (s : State) (g : Nat) (c : SegCyc), s.powered → g < 4 → (segOf s g).cyc = some c →
    (∀ (port : Nat) (frame : List Byte), port < 2 → c.phase = 2 → s.cyc ≤ c.b + s.get (FLD_ECM_TIMING_DEADLINE g) →
      (if port = 0 then c.retA else c.retB) = none →
      Completes (.ecmFrameReturn g port true frame) s fun t => (∃ c', (segOf t g).cyc = some c' ∧
          (if port = 0 then c'.retA else c'.retB) = some frame ∧ (if port = 0 then c'.retB = c.retB else c'.retA = c.retA) ∧
          (ofBool c.sentA + ofBool c.sentB ≤ ofBool c'.retA.isSome + ofBool c'.retB.isSome →
            c'.phase = 3 ∧ c'.mergeAt = s.blvCyc + 24 + (entriesOf s g 0).length) ∧
          (ofBool c'.retA.isSome + ofBool c'.retB.isSome < ofBool c.sentA + ofBool c.sentB → c'.phase = 2)) ∧
        (∀ m, m ≠ g → segOf t m = segOf s m) ∧ ChangesOnly [] [.segs] s t) ∧
    (c.phase = 2 → c.b + s.get (FLD_ECM_TIMING_DEADLINE g) ≤ s.cyc → Completes (.ecmDeadline g) s fun t =>
      (segOf t g).cyc = some { c with phase := 3, mergeAt := s.blvCyc + 24 + (entriesOf s g 0).length } ∧
      (∀ m, m ≠ g → segOf t m = segOf s m) ∧ ChangesOnly [] [.segs] s t) ∧
    (c.phase = 3 → c.mergeAt ≤ s.blvCyc →
      (∀ bs, returnedFrame s g c = some bs → bs.length ≤ 2048 →
        (∀ d, d ∈ checkedDatagrams s g → leField bs d.1 2 = d.2) →
        Completes (.ecmMergeEnd g) s fun t => (segOf t g).cyc = none ∧ frameWords t (FLD_ECM_RET g) bs.length = bs ∧
          t.on (FLD_ECM_STAT_INVALID g) = false ∧ t.get (FLD_ECM_STAT_BADRUN g) = 0 ∧
          (∀ e, e ∈ entriesOf s g 0 → typeBytes (s.get (FLD_ECM_MAP_LO_TYPE g e)) ≠ 0 →
            (∀ e', e' ∈ entriesOf s g 0 → e' ≠ e → s.get (FLD_ECM_MAP_LO_WORD g e') ≠ s.get (FLD_ECM_MAP_LO_WORD g e)) →
            t.get (FLD_ECM_IN_VALUE (s.get (FLD_ECM_MAP_LO_WORD g e))) =
              (inputWord (s.get (FLD_ECM_MAP_LO_TYPE g e)) (s.get (FLD_ECM_MAP_LO_BIT g e))
                (leField bs (s.get (FLD_ECM_MAP_LO_OFS g e)) (typeBytes (s.get (FLD_ECM_MAP_LO_TYPE g e))))
                (BitVec.ofNat 32 (s.get (FLD_ECM_MAP_HI_SCALE g e)))).toNat) ∧
          (s.on (BLV_ICU_SRC_EDGE (72 + g)) = true → icuPending t (72 + g) = true) ∧
          ChangesOnly (FLD_ECM_STAT g :: each 256 (FLD_ECM_RET g) ++
            (entriesOf s g 0).map fun e => FLD_ECM_IN (s.get (FLD_ECM_MAP_LO_WORD g e))) [.segs] s t) ∧
      (∀ bs d, returnedFrame s g c = some bs → bs.length ≤ 2048 → d ∈ checkedDatagrams s g → leField bs d.1 2 ≠ d.2 →
        Completes (.ecmMergeEnd g) s fun t => BadCycleEnds s t g false ∧ frameWords t (FLD_ECM_RET g) bs.length = bs) ∧
      (returnedFrame s g c = none → Completes (.ecmMergeEnd g) s fun t => BadCycleEnds s t g true))

/-- Enables, substitution, links and acyclic frames of a segment (R461, R463, R465, R466): an enable is checked and runs the
segment, or shows CFGERR; a disable stops it; clearing SUBST ends the run of bad cycles; a link change shows, and a loss
counts; an acyclic frame goes out between cycles, and ends with the returned bytes or after 1 ms. -/
def Obligations.SegmentsEnableAndSendAcyclic : Prop :=
  ∀ (s : State) (g : Nat), s.powered → g < 4 →
    (∀ (who : Initiator) (v : Word64), WriteOk s who (FLD_ECM_CTL g) v.toNat →
      (s.on (FLD_ECM_CTL_ENABLE g) = false → v.toNat % 2 = 1 → Completes (.ecmEnable who g v) s fun t =>
        t.on (FLD_ECM_CTL_ENABLE g) = segEnableOk s g ∧ t.on (FLD_ECM_STAT_CFGERR g) = !segEnableOk s g ∧
        (segEnableOk s g = true → t.on (FLD_ECM_STAT_RUN g) = true ∧ (segOf t g).cyc = none ∧
          (segOf t g).last = (segOf s g).last ∧ (segOf t g).sent = []) ∧ (∀ m, m ≠ g → segOf t m = segOf s m) ∧
        ChangesOnly [FLD_ECM_CTL g, FLD_ECM_STAT g] [.segs] s t) ∧
      (s.on (FLD_ECM_CTL_ENABLE g) = true → v.toNat % 2 = 0 → Completes (.ecmEnable who g v) s fun t =>
        t.on (FLD_ECM_CTL_ENABLE g) = false ∧ t.on (FLD_ECM_STAT_RUN g) = false ∧ (segOf t g).cyc = none ∧
        (∀ m, m ≠ g → segOf t m = segOf s m) ∧ ChangesOnly [FLD_ECM_CTL g, FLD_ECM_STAT g] [.segs] s t)) ∧
    (∀ (who : Initiator) (v : Word64), WriteOk s who (FLD_ECM_STAT g) (v.toNat ||| 2) → s.on (FLD_ECM_STAT_SUBST g) = true →
      (s.freshBits (FLD_ECM_STAT g)).testBit 1 = false →
      Completes (.ecmSubstClear who g v) s fun t => t.on (FLD_ECM_STAT_SUBST g) = false ∧
        t.get (FLD_ECM_STAT_BADRUN g) = 0 ∧ ChangesOnly [FLD_ECM_STAT g] [] s t) ∧
    (∀ (port : Nat) (up : Bool), port < 2 → s.on (if port = 0 then FLD_ECM_STAT_LINKA g else FLD_ECM_STAT_LINKB g) ≠ up →
      Completes (.ecmLinkChange g port up) s fun t =>
        t.on (if port = 0 then FLD_ECM_STAT_LINKA g else FLD_ECM_STAT_LINKB g) = up ∧ t.on (FLD_ECM_EVT_LINK g) = true ∧
        (up = false → t.get (FLD_ECM_CNT_VALUE g 5) = satAdd 32 (s.get (FLD_ECM_CNT_VALUE g 5)) 1) ∧
        (up = true → t.get (FLD_ECM_CNT_VALUE g 5) = s.get (FLD_ECM_CNT_VALUE g 5)) ∧
        ChangesOnly [FLD_ECM_STAT g, FLD_ECM_EVT g, FLD_ECM_CNT g 5] [] s t) ∧
    (∀ (who : Initiator) (v : Word64), WriteOk s who (FLD_ECM_ACYC g) (v.toNat ||| 0x10000) → s.on (FLD_ECM_ACYC_BUSY g) = false →
      Completes (.ecmAcyclicGo who g v) s fun t => t.on (FLD_ECM_ACYC_BUSY g) = true ∧ t.get (FLD_ECM_ACYC_RESULT g) = 0 ∧
        t.get (FLD_ECM_ACYC_LEN g) = bitsOf v.toNat 10 0 ∧ (segOf t g).acycAt = none ∧ ChangesOnly [FLD_ECM_ACYC g] [.segs] s t) ∧
    (s.on (FLD_ECM_ACYC_BUSY g) = true → (segOf s g).acycAt = none → (segOf s g).cyc = none →
      (s.on (FLD_ECM_CTL_ENABLE g) = true → ∀ n, nextStart s g = some n →
        (s.get (FLD_ECM_ACYC_LEN g) + 20) * 80 + s.get (FLD_ECM_RTD_NS g) ≤ n + s.get (FLD_ECM_TIMING_TXOFS g)) →
      Completes (.ecmAcyclicSend g) s fun t => (segOf t g).acycAt = some s.cyc ∧
        (∃ l, t.outbox = s.outbox ++ (if s.on (FLD_ECM_STAT_LINKA g) then
          [.frame (segPort g false) (frameWords s (FLD_ECM_ACB g) (s.get (FLD_ECM_ACYC_LEN g)))] else []) ++ l) ∧
        ChangesOnly [] [.segs, .out] s t) ∧
    (∀ frame : List Byte, frame.length ≤ 2048 → s.on (FLD_ECM_ACYC_BUSY g) = true → (segOf s g).acycAt.isSome = true →
      Completes (.ecmAcyclicReturn g frame) s fun t => t.on (FLD_ECM_ACYC_BUSY g) = false ∧ t.get (FLD_ECM_ACYC_RESULT g) = 1 ∧
        t.on (FLD_ECM_EVT_ACYC g) = true ∧ frameWords t (FLD_ECM_ACB g) frame.length = frame ∧ (segOf t g).acycAt = none ∧
        ChangesOnly (FLD_ECM_ACYC g :: FLD_ECM_EVT g :: each 256 (FLD_ECM_ACB g)) [.segs] s t) ∧
    (∀ at_, s.on (FLD_ECM_ACYC_BUSY g) = true → (segOf s g).acycAt = some at_ → at_ + 1000000 ≤ s.cyc →
      Completes (.ecmAcyclicTimeout g) s fun t => t.on (FLD_ECM_ACYC_BUSY g) = false ∧ t.get (FLD_ECM_ACYC_RESULT g) = 2 ∧
        t.on (FLD_ECM_EVT_ACYC g) = true ∧ (segOf t g).acycAt = none ∧ ChangesOnly [FLD_ECM_ACYC g, FLD_ECM_EVT g] [.segs] s t)

/-! ### The EtherCAT SubDevice -/

/-- Frames and links of the SubDevice's ports (R449, R450): a frame that comes in at port 0 is processed and leaves; a datagram
that reads this station's memory takes its bytes and counts, one that writes it stores its data and counts, other frames pass;
an invalid frame is counted and leaves invalid; a lost link closes its port, with its count and event, and a link that is back
opens it. The layout of datagrams is PRESUMED (log entry 40). -/
def Obligations.SubdevicePassesAndProcessesFrames : Prop :=
  ∀ (s : State) (port : Nat) (frame : List Byte), s.powered → port < 2 →
    (escOpen s port = true →
      (Completes (.ecsFrame port false frame) s fun t =>
        t.get (FLD_ECS_CNT_VALUE port) = satAdd 32 (s.get (FLD_ECS_CNT_VALUE port)) 1 ∧
        (∃ l, t.outbox = s.outbox ++ .badFrame (16 + escExit s port) frame :: l) ∧ ChangesOnly [FLD_ECS_CNT port] [.out] s t) ∧
      (isEthercat frame = false ∨ (port = 1 ∧ escOpen s 0 = true ∧ (parseFrame frame).isSome = true) →
        Completes (.ecsFrame port true frame) s fun t => (∃ l, t.outbox = s.outbox ++ .frame (16 + escExit s port) frame :: l) ∧
          ChangesOnly [] [.out, .ecs] s t) ∧
      (∀ d, port = 0 ∨ escOpen s 0 = false → isEthercat frame = true → parseFrame frame = some [d] →
        d.addr % 65536 = escNat s 0x10 2 →
        (d.cmd = 4 → (∀ a, a ∈ d.places → mailboxOpen s a false = true) →
          Completes (.ecsFrame port true frame) s fun t => (∃ l, t.outbox = s.outbox ++ .frame (16 + escExit s port)
              (spliceBytes frame 16 (Datagram.bytes { d with data := d.places.map (escByte s), wkc := (d.wkc + 1) % 65536 })) :: l) ∧
            (s.ecs.late = none → ∀ a, memGet t.mem a = memGet s.mem a) ∧ ChangesOnly [] [.out, .free, .ecs, .mem] s t) ∧
        (d.cmd = 5 → d.data.length < 65536 → (∀ a, a ∈ d.places → mailboxOpen s a true = true) →
          Completes (.ecsFrame port true frame) s fun t => (∃ l, t.outbox = s.outbox ++ .frame (16 + escExit s port)
              (spliceBytes frame 16 (Datagram.bytes { d with wkc := (d.wkc + 1) % 65536 })) :: l) ∧
            (∀ i, i < d.data.length → escReadOnly ((d.addr / 65536 + i) % 65536) = false →
              memGet t.mem (escPlace ((d.addr / 65536 + i) % 65536)) = d.data.getD i 0#8) ∧
            (∀ a, (∀ i, i < d.data.length → a ≠ escPlace ((d.addr / 65536 + i) % 65536)) → memGet t.mem a = memGet s.mem a) ∧
            ChangesOnly [] [.out, .mem, .ecs] s t))) ∧
    (escOpen s port = true → s.ecs.open_.length = 2 → Completes (.ecsLinkLoss port) s fun t => escOpen t port = false ∧
      escOpen t (1 - port) = escOpen s (1 - port) ∧ t.on FLD_ECS_EVT_LINK = true ∧
      t.get (FLD_ECS_CNT_VALUE (2 + port)) = satAdd 32 (s.get (FLD_ECS_CNT_VALUE (2 + port))) 1 ∧
      ChangesOnly [FLD_ECS_CNT (2 + port), FLD_ECS_EVT] [.ecs] s t) ∧
    (s.ecs.open_.length = 2 → Completes (.ecsLinkReopen port) s fun t => escOpen t port = true ∧
      escOpen t (1 - port) = escOpen s (1 - port) ∧ ChangesOnly [] [.ecs] s t)

/-- The state machine of the SubDevice (R445, R446): a request for a state that may follow is taken, INIT empties the mailboxes and
OP starts the watchdog; any other leaves the state and shows its code; in OP, 100 ms without an SM2 buffer fall to SAFEOP with
code 0x001B. The mailbox (R447, R448, R459): a request for an object of up to four bytes is answered in SM1 with its bytes;
beyond the rate it waits, counted once; an unfinished transfer of 1 s is aborted; the oldest Emergency message goes out when
SM1 is empty. The layout of messages is PRESUMED (log entry 40). -/
def Obligations.SubdeviceStatesAndMailbox : Prop :=
  (∀ s : State, s.powered →
    (∀ ctl : Nat, alRefused s (ctl % 16) = none → ctl % 16 ≠ alState s →
      (ctl % 16 = 1 ∨ (s.get PWR_STAT_STATE ≠ 2 ∧ s.get PWR_STAT_STATE ≠ 3)) → Completes (.ecsAlRequest ctl) s fun t =>
      alState t = ctl % 16 ∧ t.ecs.err = false ∧ t.on FLD_ECS_EVT_STATECHG = true ∧
      (ctl % 16 = 1 → t.ecs.inFull = false ∧ t.ecs.outFull = false ∧ t.ecs.seg = none) ∧
      (ctl % 16 = 8 → t.ecs.sm2At = s.cyc ∧ dictRd t 0x1C32 0x20 = 0) ∧
      t.get FLD_ECS_STAT_ALCODE = s.get FLD_ECS_STAT_ALCODE ∧ ChangesOnly [FLD_ECS_STAT, FLD_ECS_EVT] [.ecs] s t) ∧
    (∀ ctl code : Nat, alRefused s (ctl % 16) = some code →
      (ctl % 16 = 1 ∨ (s.get PWR_STAT_STATE ≠ 2 ∧ s.get PWR_STAT_STATE ≠ 3)) → Completes (.ecsAlRequest ctl) s fun t =>
      alState t = alState s ∧ t.ecs.err = true ∧ t.get FLD_ECS_STAT_ALCODE = code ∧ ChangesOnly [FLD_ECS_STAT] [.ecs] s t) ∧
    (s.on FLD_ECS_CTRL_ENABLE = true → alState s = 1 → smStart s 0 ≠ 0x1000 ∨ smLen s 0 ≠ 512 ∨ smStart s 1 ≠ 0x1200 ∨
      smLen s 1 ≠ 512 → alRefused s 2 = some 0x0016) ∧
    (s.on FLD_ECS_CTRL_ENABLE = true → alState s = 4 → alRefused s 8 = none ∧ alRefused s 2 = none ∧ alRefused s 1 = none) ∧
    (alState s = 8 → s.ecs.sm2At + 100000000 ≤ s.cyc → Completes .ecsWatchdogExpire s fun t => alState t = 4 ∧
      t.get FLD_ECS_STAT_ALCODE = 0x001B ∧ t.ecs.err = true ∧ t.on FLD_ECS_EVT_WDOG = true ∧ t.on FLD_ECS_EVT_STATECHG = true ∧
      ChangesOnly [FLD_ECS_STAT, FLD_ECS_EVT] [.ecs] s t)) ∧
  (∀ s : State, s.powered →
    (∀ msg idx sub bs, s.ecs.inFull = true → s.ecs.outFull = false → 2 ≤ alState s → msg = escLoad s (smStart s 0) (smLen s 0) →
      ((takenLately s).length < mailboxRate s → 16 ≤ smLen s 0 → leField msg 0 2 = 10 → leField msg 5 1 % 16 = 3 →
        leField msg 6 2 / 4096 = 2 → leField msg 8 1 = 0x40 → leField msg 9 2 = idx → leField msg 11 1 = sub →
        sdoRead s idx sub false = .ok bs → 0 < bs.length → bs.length ≤ 4 → Completes .mbxRequest s fun t =>
          t.ecs.inFull = false ∧ t.ecs.outFull = true ∧ t.ecs.taken = takenLately s ++ [s.cyc] ∧ t.ecs.held = false ∧
          t.load (escPlace (smStart s 1)) (smLen s 1) = padBytes (smLen s 1) (mailboxBytes 3 (leField msg 5 1 / 16)
            (coeBytes 3 (sdoBytes (0x43 + (4 - bs.length) * 4) idx sub (leNat bs)))) ∧ ChangesOnly [] [.ecs, .mem] s t) ∧
      (mailboxRate s ≤ (takenLately s).length → s.ecs.held = false → Completes .mbxRequest s fun t =>
        t.ecs = { s.ecs with held := true } ∧ t.get (FLD_ECS_CNT_VALUE 4) = satAdd 32 (s.get (FLD_ECS_CNT_VALUE 4)) 1 ∧
        ChangesOnly [FLD_ECS_CNT 4] [.ecs] s t)) ∧
    (∀ x, s.ecs.seg = some x → x.at_ + 1000000000 ≤ s.cyc → Completes .sdoSegmentTimeout s fun t => t.ecs.seg = none ∧
      t.bus = .abort 0x05040000 ∧ t.get (FLD_ECS_CNT_VALUE 6) = satAdd 32 (s.get (FLD_ECS_CNT_VALUE 6)) 1 ∧
      (s.ecs.outFull = false → t.ecs.outFull = true ∧ t.load (escPlace (smStart s 1)) (smLen s 1) =
        padBytes (smLen s 1) (mailboxBytes 3 0 (abortBytes x.idx x.sub 0x05040000))) ∧
      ChangesOnly [FLD_ECS_CNT 6] [.ecs, .mem, .bus] s t) ∧
    (∀ e rest, s.emcy = e :: rest → s.ecs.outFull = false → 2 ≤ alState s → Completes .emergencySend s fun t =>
      t.emcy = rest ∧ t.ecs.outFull = true ∧ t.load (escPlace (smStart s 1)) (smLen s 1) = padBytes (smLen s 1)
        (mailboxBytes 3 0 (coeBytes 1 (leBytes 2 e.code ++ leBytes 1 (objValue s 0x1001 0) ++ leBytes 5 e.data))) ∧
      ChangesOnly [] [.ecs, .mem, .diag] s t))

/-- Process data (R446, R457, R458, R477): a buffer is kept and fed to the watchdog; in OP its values reach the mapped setpoints,
feedbacks and feed-forwards at once with sync type 1, and at the next SYNC0 with type 2; a SYNC0 without a new buffer counts,
and falls to SAFEOP with code 0x001A beyond its limit; inputs are captured when their time has come; SYNC1 is a pulse. -/
def Obligations.ProcessDataIsExchanged : Prop :=
  ∀ s : State, s.powered →
    (∀ data : List Byte, 4 ≤ alState s → data.length = smLen s 2 → Completes (.ecsSm2Buffer data) s fun t =>
      t.ecs.sm2 = data ∧ t.ecs.sm2At = s.cyc ∧ (dictRd s 0x1C32 1 ≠ 1 → t.ecs.fresh = true ∧
        t.load (escPlace (smStart s 2)) data.length = data ∧ ChangesOnly [] [.ecs, .mem] s t) ∧
      (dictRd s 0x1C32 1 = 1 → t.ecs.fresh = false ∧
        ChangesOnly ((List.range 64).flatMap fun n => [BLV_CLE_L_RIN n, BLV_CLE_L_YIN n, BLV_CLE_L_FFIN n]) [.ecs, .mem] s t ∧
        ∀ pre e post n, alState s = 8 → pdoEntries s 0x1C12 = pre ++ e :: post →
        e.1 = 0x2400 + n → n < 64 → e.2.2 = 32 → (∀ e', e' ∈ post → e'.1 = e.1 → e'.2.1 ≠ e.2.1) →
        (e.2.1 = 5 → t.get (BLV_CLE_L_RIN_VALUE n) = leNat ((data.drop (pre.foldl (fun k x => k + x.2.2 / 8) 0)).take 4)) ∧
        (e.2.1 = 6 → t.get (BLV_CLE_L_YIN_VALUE n) = leNat ((data.drop (pre.foldl (fun k x => k + x.2.2 / 8) 0)).take 4)) ∧
        (e.2.1 = 7 → t.get (BLV_CLE_L_FFIN_VALUE n) = leNat ((data.drop (pre.foldl (fun k x => k + x.2.2 / 8) 0)).take 4)))) ∧
    (∀ dcTime : Nat, s.get TIM_CTRL_ACTSRC ≠ 6 → s.get TIM_SRC_CFG_PRI ≠ 6 → s.get TIM_SRC_CFG_SEC ≠ 6 →
      dictRd s 0x1C32 1 = 2 →
      (4 ≤ alState s → s.ecs.fresh = true → Completes (.ecsSync0 dcTime) s fun t => t.ecs.fresh = false ∧
        t.ecs.sync0 = some s.cyc ∧ t.ecs.capDue = some (s.cyc + dictRd s 0x1C33 3) ∧
        (s.on (BLV_ICU_SRC_EDGE 65) = true → icuPending t 65 = true) ∧
        (∀ pre e post n, alState s = 8 → pdoEntries s 0x1C12 = pre ++ e :: post →
          e.1 = 0x2400 + n → n < 64 → e.2.2 = 32 → e.2.1 = 5 → (∀ e', e' ∈ post → e'.1 = e.1 → e'.2.1 ≠ 5) →
          t.get (BLV_CLE_L_RIN_VALUE n) = leNat ((s.ecs.sm2.drop (pre.foldl (fun k x => k + x.2.2 / 8) 0)).take 4)) ∧
        ChangesOnly ((List.range 64).flatMap fun n => [BLV_CLE_L_RIN n, BLV_CLE_L_YIN n, BLV_CLE_L_FFIN n]) [.ecs] s t) ∧
      (alState s = 8 → s.ecs.fresh = false → s.ecs.missOp + dictRd s 0x10F1 2 < satAdd 16 (dictRd s 0x1C32 0x0B) 1 →
        Completes (.ecsSync0 dcTime) s fun t => alState t = 4 ∧ t.get FLD_ECS_STAT_ALCODE = 0x001A ∧ t.ecs.err = true ∧
          t.on FLD_ECS_EVT_SYNCERR = true ∧ dictRd t 0x1C32 0x20 = 1 ∧
          dictRd t 0x1C32 0x0B = satAdd 16 (dictRd s 0x1C32 0x0B) 1 ∧ ChangesOnly [FLD_ECS_STAT, FLD_ECS_EVT] [.ecs] s t) ∧
      (4 ≤ alState s → s.ecs.fresh = false → satAdd 16 (dictRd s 0x1C32 0x0B) 1 ≤ s.ecs.missOp + dictRd s 0x10F1 2 →
        Completes (.ecsSync0 dcTime) s fun t => alState t = alState s ∧
          dictRd t 0x1C32 0x0B = satAdd 16 (dictRd s 0x1C32 0x0B) 1 ∧ ChangesOnly [] [.ecs] s t)) ∧
    (∀ due, s.ecs.capDue = some due → due ≤ s.cyc → 4 ≤ alState s → Completes .ecsInputCapture s fun t => t.ecs.capDue = none ∧
      t.load (escPlace (smStart s 3)) (inputImage s).length = inputImage s ∧ ChangesOnly [] [.ecs, .mem] s t) ∧
    (Completes .sync1 s fun t => (s.on (BLV_ICU_SRC_EDGE 66) = true → icuPending t 66 = true) ∧ ChangesOnly [] [] s t)

/-- Objects of the dictionary (R451, R452, R453, R454, R455, R456): an upload answers the object's bytes, or its abort code; a
download changes the object, or is refused for its access, its length or the state; a Commit takes the record's values
together; the Commit of a loop puts its staged words into the inactive bank and starts the lane's check. Each abort is counted. -/
def Obligations.DictionaryIsReadAndWritten : Prop :=
  ∀ (s : State) (idx sub n : Nat) (data : List Byte), s.powered → n < 64 →
    (∀ complete bs, sdoRead s idx sub complete = .ok bs → Completes (.sdoUpload idx sub complete) s fun t =>
      t.bus = .bytes bs ∧ ChangesOnly [] [.bus, .ecs] s t) ∧
    (∀ complete code, sdoRead s idx sub complete = .error code → Completes (.sdoUpload idx sub complete) s fun t =>
      t.bus = .abort code ∧ t.get (FLD_ECS_CNT_VALUE 6) = satAdd 32 (s.get (FLD_ECS_CNT_VALUE 6)) 1 ∧
      ChangesOnly [FLD_ECS_CNT 6] [.bus] s t) ∧
    sdoRead s 0x1018 1 false = .ok (leBytes 4 0x05A1) ∧ sdoRead s (0x2400 + n) 5 false =
      .ok (leBytes 4 (s.get (BLV_CLE_L_RIN_VALUE n))) ∧ sdoRead s 0x2400 4 false = .error 0x06010001 ∧
    (objectRows idx = [] → sdoRead s idx sub false = .error 0x06020000) ∧
    (data.length = 4 → alState s < 4 ∨ rxMapped s (0x2400 + n) 5 = false → Completes (.sdoDownload (0x2400 + n) 5 false data) s fun t =>
      t.bus = .bytes [] ∧ t.get (BLV_CLE_L_RIN_VALUE n) = leNat data ∧ ChangesOnly [BLV_CLE_L_RIN n] [.bus] s t) ∧
    (∀ code, (idx = 0x1018 ∧ sub = 1 ∧ code = 0x06010002) ∨ (idx = 0x2400 + n ∧ sub = 5 ∧ data.length ≠ 4 ∧ code = 0x06070010) ∨
        (idx = 0x10F1 ∧ sub = 2 ∧ data.length = 4 ∧ alState s ≠ 2 ∧ code = 0x08000022) →
      Completes (.sdoDownload idx sub false data) s fun t => t.bus = .abort code ∧
        t.get (FLD_ECS_CNT_VALUE 6) = satAdd 32 (s.get (FLD_ECS_CNT_VALUE 6)) 1 ∧ ChangesOnly [FLD_ECS_CNT 6] [.bus] s t) ∧
    (data = [1#8] → s.on RFX_CTRL_ENABLE = true → alState s < 4 ∨ rxMapped s 0x2800 0x10 = false →
      Completes (.sdoRecordCommit 0x2800 sub data) s fun t => t.bus = .bytes [] ∧
      t.isPending 4 = true ∧ (∀ g, g < 8 → t.pendRd 4 (RFX_BIND g) = BitVec.ofNat 64 (dictRd s 0x2800 (8 + g))) ∧
      ChangesOnly [] [.bus, .held] s t) ∧
    (data = [1#8] → wordsValid (stagedWord s n) = true → laneBusy s (loopGroup s n) = false →
      alState s < 4 ∨ rxMapped s (0x2400 + n) 0x20 = false → Completes (.sdoLoopCommit n data) s fun t => t.bus = .bytes [] ∧ laneSt t (loopGroup s n) = 5 ∧
        (∀ k, k < 16 → t.get (BLV_CLE_L_BK_VALUE n (1 - loopBank s n) k) = (stagedWord s n k).toNat) ∧
        (laneOf t (loopGroup s n)).mask = 2 ^ n ∧
        (laneOf t (loopGroup s n)).check = some (s.blvCyc + 10, laneSt s (loopGroup s n), none) ∧
        ChangesOnly (SLC_L_STAT (loopGroup s n) :: each 16 (BLV_CLE_L_BK n (1 - loopBank s n))) [.bus, .lanes] s t) ∧
    (data = [1#8] → wordsValid (stagedWord s n) = false → alState s < 4 ∨ rxMapped s (0x2400 + n) 0x20 = false →
      Completes (.sdoLoopCommit n data) s fun t => t.bus = .abort 0x06090030 ∧
      t.get (FLD_ECS_CNT_VALUE 6) = satAdd 32 (s.get (FLD_ECS_CNT_VALUE 6)) 1 ∧ ChangesOnly [FLD_ECS_CNT 6] [.bus] s t)

/-! ### Ethernet and PCIe -/

/-- Ethernet ports (R324, R468, R469, R470): an accepted frame takes the next receive descriptor, which holds its length and time,
and its bytes lie in the buffer; a bad frame, or one without room, is dropped and counted; the frame of the next transmit
descriptor departs, one-step PTP with the time in it, and its end moves TXCONS on, with the time where it was asked for; link
changes show. -/
def Obligations.EthernetReceivesAndSends : Prop :=
  ∀ (s : State) (p ts : Nat) (frame : List Byte), s.powered → p < 5 →
    (∀ k fcsOk, s.on (FLD_ETH_CTL_ENABLE p) = true → ethDropKind p fcsOk frame = some k →
      Completes (.ethRxFrame p ts fcsOk frame) s fun t =>
        t.get (FLD_ETH_CNT_VALUE p k) = satAdd 32 (s.get (FLD_ETH_CNT_VALUE p k)) 1 ∧ k < 2 ∧
        ChangesOnly [FLD_ETH_CNT p k] [] s t) ∧
    (s.on (FLD_ETH_CTL_ENABLE p) = true → ethDropKind p true frame = none → ethAccepts s p frame = true →
      (rxSlots s p ≤ (s.get (FLD_ETH_RXPROD_INDEX p) + 65536 - s.get (FLD_ETH_RXCONS_INDEX p)) % 65536 ∨
          (s.get (FLD_ETH_CTL_RXLIM p) ≠ 0 ∧ s.get (FLD_ETH_CTL_RXLIM p) ≤ (ethWindow s p).n) →
        Completes (.ethRxFrame p ts true frame) s fun t => t.on (FLD_ETH_EVT_DROP p) = true ∧
          t.get (FLD_ETH_CNT_VALUE p 2) = satAdd 32 (s.get (FLD_ETH_CNT_VALUE p 2)) 1 ∧
          ChangesOnly [FLD_ETH_CNT p 2, FLD_ETH_EVT p] [] s t) ∧
      (∀ u desc, (s.get (FLD_ETH_RXPROD_INDEX p) + 65536 - s.get (FLD_ETH_RXCONS_INDEX p)) % 65536 < rxSlots s p →
        (s.get (FLD_ETH_CTL_RXLIM p) ≠ 0 → (ethWindow s p).n < s.get (FLD_ETH_CTL_RXLIM p)) → frame.length < 2048 →
        engineRead s 5 0 (rxDesc s p) 32 = (u, 0, desc) →
        Completes (.ethRxFrame p ts true frame) s fun t => t.on (FLD_ETH_EVT_RX p) = true ∧
          t.get (FLD_ETH_RXPROD_INDEX p) = (s.get (FLD_ETH_RXPROD_INDEX p) + 1) % 65536 ∧ (ethOf t p).n = (ethWindow s p).n + 1 ∧
          (∀ i e, resolve s true 0 (rxDesc s p + 8) 24 true = .ok (i, e) → AtHome s e →
            t.load (objPlace e (rxDesc s p + 8 - e.base * 65536)) 24 =
              leBytes 8 (withBits (word64 desc 1) 10 0 frame.length) ++ ethStamp s frame ts ∧
            (resolve s true 0 (bitsOf (word64 desc 0) 47 0) frame.length true = .ok (i, e) →
              bitsOf (word64 desc 0) 47 0 + frame.length ≤ rxDesc s p + 8 ∨ rxDesc s p + 32 ≤ bitsOf (word64 desc 0) 47 0 →
              t.load (objPlace e (bitsOf (word64 desc 0) 47 0 - e.base * 65536)) frame.length = frame)) ∧
          ChangesOnly (engineRegs ++ [FLD_ETH_RXPROD p, FLD_ETH_EVT p]) (.eths :: engineParts) s t)) ∧
    (∀ u desc v fr, s.on (FLD_ETH_CTL_ENABLE p) = true → s.on (FLD_ETH_STAT_LINK p) = true → (ethOf s p).sending = false →
      s.get (FLD_ETH_TXPROD_INDEX p) ≠ s.get (FLD_ETH_TXCONS_INDEX p) → engineRead s 5 0 (txDesc s p) 32 = (u, 0, desc) →
      engineRead u 5 0 (bitsOf (word64 desc 0) 47 0) (bitsOf (word64 desc 1) 10 0) = (v, 0, fr) →
      Completes (.ethTxSend p) s fun t => (ethOf t p).sending = true ∧
        (∃ l, t.outbox = s.outbox ++ .frame p (if bitOf (word64 desc 1) 17 then oneStep s fr else fr) :: l) ∧
        ChangesOnly engineRegs (.eths :: .out :: engineParts) s t) ∧
    (∀ u desc, (ethOf s p).sending = true → engineRead s 5 0 (txDesc s p) 32 = (u, 0, desc) →
      Completes (.ethTxDone p ts) s fun t => (ethOf t p).sending = false ∧ t.on (FLD_ETH_EVT_TXDONE p) = true ∧
        t.get (FLD_ETH_TXCONS_INDEX p) = (s.get (FLD_ETH_TXCONS_INDEX p) + 1) % 65536 ∧
        (bitOf (word64 desc 1) 16 = true → ∀ i e, resolve s true 0 (txDesc s p + 16) 16 true = .ok (i, e) → AtHome s e →
          t.load (objPlace e (txDesc s p + 16 - e.base * 65536)) 16 = ts128 (!s.epochMode) (ts * 65536)) ∧
        ChangesOnly (engineRegs ++ [FLD_ETH_TXCONS p, FLD_ETH_EVT p]) (.eths :: engineParts) s t) ∧
    (∀ up : Bool, s.on (FLD_ETH_STAT_LINK p) ≠ up → Completes (.ethLinkChange p up) s fun t =>
      t.on (FLD_ETH_STAT_LINK p) = up ∧ t.on (FLD_ETH_EVT_LINK p) = true ∧ (p < 4 → (t.get SNS_LINK_ETH).testBit p = up) ∧
      (∀ k, k < 4 → k ≠ p → (t.get SNS_LINK_ETH).testBit k = (s.get SNS_LINK_ETH).testBit k) ∧
      ChangesOnly [FLD_ETH_STAT p, FLD_ETH_EVT p, SNS_LINK] [] s t)

/-- The PCIe endpoint (R207, R471, R472, R473, R474, R475): a request of one piece to BAR0 is the register access of that
initiator, one to BAR2 its access to the Fabric Address Space; BAR4's mask bits mask vectors, and unmasking sends a message
held back; Bus Master Enable is a bit of configuration space (PRESUMED, log entry 41); a read without completion is counted and
ends as uncorrectable; link changes show. -/
def Obligations.PcieServesTheHost : Prop :=
  ∀ (s : State), s.powered →
    (∀ (ofs len : Nat) (data : List Byte), len = 4 ∨ len = 8 → ofs % 64 + len ≤ 64 → ofs + len ≤ 2 ^ 28 →
      (Completes (.pcieRequest true 0 ofs len data) s fun t => t.bus = .none ∧
        ∃ w, exec (.registerWrite .pcie (0x100000000000 + ofs) len (BitVec.ofNat 64 (leNat (padBytes len data)))) s = .next w ∧
          ChangesOnly [] [.bus] w t) ∧
      (Completes (.pcieRequest false 0 ofs len data) s fun t =>
        ∃ w v, exec (.violatingRead .pcie (0x100000000000 + ofs) len) s = .next w ∧ w.bus = .value v ∧
          t.bus = .bytes (leBytes len v.toNat) ∧ ChangesOnly [] [.bus] w t)) ∧
    (∀ (write : Bool) (ofs len : Nat) (data : List Byte), 0 < len → ofs % 64 + len ≤ 64 → ofs + len ≤ 2 ^ s.msix.barLog →
      Completes (.pcieRequest write 2 ofs len data) s fun t =>
        ∃ w, exec (.fasAccess .pcie write (s.get FLD_PCI_BAR2WIN_BASE * 2 ^ 30 + ofs) len (data.take len) 0 0) s = .next w ∧
          t.bus = w.bus ∧ ChangesOnly [] [.bus] w t) ∧
    (∀ (v : Nat), v < 32 →
      (Completes (.pcieRequest true 4 (16 * v + 12) 4 (leBytes 4 1)) s fun t => v ∈ t.msix.masked ∧ t.bus = .none ∧
        (∀ w, w ∈ s.msix.masked → w ∈ t.msix.masked) ∧ ChangesOnly [] [.msix, .bus] s t) ∧
      (Completes (.msixUnmask v) s fun t => v ∉ t.msix.masked ∧ (∀ w, w ≠ v → (w ∈ t.msix.masked ↔ w ∈ s.msix.masked)) ∧
        (v ∈ s.msix.pend → ∃ l, t.outbox = s.outbox ++ .msix v :: l) ∧ ChangesOnly [] [.msix] s t)) ∧
    (∀ (data : List Byte), Completes (.pcieRequest true 6 4 4 data) s fun t =>
      t.on FLD_PCI_STAT_BME = (leNat data).testBit 2 ∧ ChangesOnly [FLD_PCI_STAT] [] s t) ∧
    (∀ n, n < 12 → Completes (.pcieCompletionTimeout 2 n) s fun t => t.on FLD_PCI_EVT_CTO = true ∧ t.on MEM_EVT_UE = true ∧
      t.get (FLD_PCI_CNT_VALUE 0) = satAdd 32 (s.get (FLD_PCI_CNT_VALUE 0)) 1 ∧
      t.get MEM_ECC_UE_VALUE = satAdd 32 (s.get MEM_ECC_UE_VALUE) 1 ∧
      ChangesOnly [FLD_PCI_CNT 0, FLD_PCI_EVT, MEM_ECC_UE, MEM_EVT, MEM_ERR_LOG] [.bus, .free] s t) ∧
    (∀ kind n, 3 ≤ kind → Completes (.pcieCompletionTimeout kind n) s fun t => t.on FLD_PCI_EVT_CTO = true ∧
      t.get (FLD_PCI_CNT_VALUE 0) = satAdd 32 (s.get (FLD_PCI_CNT_VALUE 0)) 1 ∧
      t.get MEM_ECC_UE_VALUE = satAdd 32 (s.get MEM_ECC_UE_VALUE) 1 ∧
      ChangesOnly [FLD_PCI_CNT 0, FLD_PCI_EVT, MEM_ECC_UE, MEM_EVT, MEM_ERR_LOG] [.free] s t) ∧
    (∀ kind n, (kind = 0 ∧ (hostPull s (n % 8) (n / 8)).isSome = true ∧ coreLive s (n % 8) = true) ∨
        (kind = 1 ∧ ∃ e, tget s.plt n = some e ∧ (e.st = 2 ∨ e.st = 3) ∧ e.tier = 4) →
      Completes (.pcieCompletionTimeout kind n) s fun t => t.on FLD_PCI_EVT_CTO = true ∧
        t.get (FLD_PCI_CNT_VALUE 0) = satAdd 32 (s.get (FLD_PCI_CNT_VALUE 0)) 1) ∧
    (∀ (gen width : Nat), gen < 8 → width < 16 →
      (Completes (.pcieLinkChange true gen width) s fun t => t.on FLD_PCI_STAT_LINKUP = true ∧ t.get FLD_PCI_STAT_GEN = gen ∧
        t.get FLD_PCI_STAT_WIDTH = width ∧ t.on FLD_PCI_STAT_BME = s.on FLD_PCI_STAT_BME ∧ t.on FLD_PCI_EVT_LINKCHG = true ∧
        ChangesOnly [FLD_PCI_STAT, FLD_PCI_EVT] [] s t) ∧
      (Completes (.pcieLinkChange false gen width) s fun t => t.on FLD_PCI_STAT_LINKUP = false ∧ t.get FLD_PCI_STAT_GEN = 0 ∧
        t.get FLD_PCI_STAT_WIDTH = 0 ∧ t.on FLD_PCI_STAT_BME = false ∧ t.on FLD_PCI_EVT_LINKCHG = true ∧
        ChangesOnly [FLD_PCI_STAT, FLD_PCI_EVT] [] s t))

/-! ### Causeway -/

/-- The cascade forms (R485, R545): ENABLE trains the links; with every link up, or after 100 ms, discovery starts with a CTRL flit
on each; its result numbers the modules and forms the cascade, a follower taking its time from it, or ends in ERROR with the
reason; a disabled link goes down. Entering and leaving FORMED advances the epoch. -/
def Obligations.CascadeForms : Prop :=
  ∀ s : State, s.powered →
    (∀ (who : Initiator) (strap : Bool) (v : Word64), WriteOk (s.put CWY_STAT_STRAP (ofBool strap)) who CWY_CTRL v.toNat →
      (s.on CWY_CTRL_ENABLE = false → v.toNat % 2 = 1 → s.get CWY_STAT_STATE = 0 → Completes (.cwyEnable who strap v) s fun t =>
        t.on CWY_CTRL_ENABLE = true ∧ t.on CWY_STAT_STRAP = strap ∧ t.get CWY_STAT_STATE = 1 ∧ t.on CWY_EVT_STATE = true ∧
        (∀ k, k < 4 → t.on (CWY_L_STAT_TRAINING k) = true) ∧ t.on CWY_STAT_ROLEERR = false ∧ t.on CWY_STAT_TOPOERR = false ∧
        t.cwy.trainAt = s.cyc ∧ t.cwy.timeAt = s.cyc ∧ t.cwy.flips = [] ∧ (∀ k, k < 4 →
          cwyLink t k = { CwyLink.idle with downAt := (cwyLink s k).downAt, lost := (cwyLink s k).lost }) ∧
        ChangesOnly (CWY_CTRL :: CWY_STAT :: CWY_EVT :: each 4 CWY_L_STAT) [.cwy] s t) ∧
      (s.on CWY_CTRL_ENABLE = true → v.toNat % 2 = 0 → Completes (.cwyEnable who strap v) s fun t =>
        t.on CWY_CTRL_ENABLE = false ∧ t.get CWY_STAT_STATE = 0 ∧ t.on CWY_STAT_MASTER = false ∧
        (∀ k, k < 4 → t.on (CWY_L_STAT_UP k) = false ∧ t.on (CWY_L_STAT_TRAINING k) = false) ∧
        (s.get CWY_STAT_STATE = 3 → (t.get DGN_EPOCH_CAUSE_MASK).testBit 3 = true) ∧
        ChangesOnly ([CWY_CTRL, CWY_STAT, CWY_EVT, DGN_EPOCH, DGN_EPOCH_CAUSE, FLD_ECS_CNT 7, FLD_ECS_EVT] ++ each 4 CWY_L_STAT)
          [.cwy, .diag] s t)) ∧
    (s.get CWY_STAT_STATE = 1 → (usedLinks s).all (fun k => s.on (CWY_L_STAT_UP k)) = true ∨ s.cwy.trainAt + 100000000 ≤ s.cyc →
      Completes .cwyTrainEnd s fun t => t.get CWY_STAT_STATE = 2 ∧ t.on CWY_EVT_STATE = true ∧
        (∀ k, k < 4 → s.on (CWY_L_STAT_UP k) = true → (cwyLink s k).queue = [] → (cwyLink s k).replay.length < 512 →
          (cwyLink t k).txSeq = ((cwyLink s k).txSeq + 1) % 4096 ∧
          .flit k (sealFlit (cwyLink s k) (cwyLink s k).txSeq (newFlit s 4 0 0 (leBytes 1 0 ++ leBytes 4 s.fuses.serial ++
            leBytes 1 (s.get CWY_CTRL_TOPO) ++ leBytes 1 (ofBool (s.on CWY_STAT_STRAP && s.on CWY_CTRL_MSTREQ))))) ∈ t.outbox) ∧
        ChangesOnly [CWY_STAT, CWY_EVT] [.cwy, .out] s t) ∧
    (∀ (ok master : Bool) (nmod modnum : Nat) (peers : List Nat), s.get CWY_STAT_STATE = 2 →
      (ok = true → topoHolds s nmod = true → modnum < nmod → (master = true ↔ modnum = 0) →
        (master = true → s.on CWY_STAT_STRAP = true ∧ s.on CWY_CTRL_MSTREQ = true) →
        Completes (.cwyDiscoveryResult ok false false master nmod modnum peers) s fun t => t.get CWY_STAT_STATE = 3 ∧
          t.get CWY_STAT_NMOD = nmod ∧ t.get CWY_STAT_MODNUM = modnum ∧ t.on CWY_STAT_MASTER = master ∧
          (∀ k, k < 4 → t.get (CWY_L_STAT_PEER k) = peers.getD k 0 % 8) ∧ (master = false → t.get TIM_SRC_CFG_PRI = 7) ∧
          (master = true → t.get TIM_SRC_CFG_PRI = s.get TIM_SRC_CFG_PRI) ∧ t.on CWY_EVT_STATE = true ∧
          (t.get DGN_EPOCH_CAUSE_MASK).testBit 3 = true ∧
          (∀ k p, k < 4 → s.on (CWY_L_STAT_UP k) = true → (cwyLink s k).lost = [p.1] → s.sched.remote = [p] → k = routeLink t p.2.module
              p.2.tile → (cwyLink s k).queue = [] → (cwyLink s k).replay.length < 512 → ∃ g, .flit k g ∈ t.outbox ∧ fKind g = 1 ∧
            fDst g = p.2.module % 8 ∧ fTag g = readTag p.1 p.2.ctx p.2.core p.2.tile ∧
            t.get (CWY_L_CNT_REISSUE_VALUE k) = satAdd 32 (s.get (CWY_L_CNT_REISSUE_VALUE k)) 1) ∧
          ChangesOnly ([CWY_STAT, CWY_EVT, TIM_SRC_CFG, DGN_EPOCH, DGN_EPOCH_CAUSE, FLD_ECS_CNT 7, FLD_ECS_EVT] ++ each 4 CWY_L_STAT ++
            each 4 CWY_L_CNT_REISSUE) [.cwy, .out, .diag] s t) ∧
      (Completes (.cwyDiscoveryResult ok true false master nmod modnum peers) s fun t => t.get CWY_STAT_STATE = 4 ∧
        t.on CWY_STAT_ROLEERR = true ∧ t.on CWY_EVT_STATE = true ∧ ChangesOnly [CWY_STAT, CWY_EVT] [] s t) ∧
      (topoHolds s nmod = false → Completes (.cwyDiscoveryResult ok false false master nmod modnum peers) s fun t =>
        t.get CWY_STAT_STATE = 4 ∧ t.on CWY_STAT_TOPOERR = true ∧ ChangesOnly [CWY_STAT, CWY_EVT] [] s t))

/-- Links receive, replay and retrain (R480, R481, R482, R484): a good flit in order is acknowledged, and one for another module
goes on with HOPS one more; a bad one is counted, one out of order dropped, and the expected SEQ named by a NAK; what ACKSEQ
covers leaves the replay buffer; the master answers a TIME request with its arrival and departure; a NAK replays from its SEQ,
and the eighth that names it retrains the link; a trained link is up, and sends its replay buffer again. -/
def Obligations.LinksReplayAndRetrain : Prop :=
  ∀ (s : State) (k : Nat), s.powered → k < 4 →
    (∀ f : List Byte, s.on (CWY_L_STAT_UP k) = true → pertOk s = false → (cwyLink s k).queue = [] →
      (flitGood f = true → fKind f ≠ 0 → fKind f ≠ 3 → fKind f ≠ 5 → fSeq f = (cwyLink s k).rxSeq →
        s.get CWY_STAT_STATE ≠ 3 ∨ fDst f = s.get CWY_STAT_MODNUM → Completes (.cwyFlitReceive k f) s fun t =>
          (cwyLink t k).rxSeq = ((cwyLink s k).rxSeq + 1) % 4096 ∧ tget (cwyLink t k).nakAt (fSeq f) = none ∧
          t.get (CWY_L_CNT_REPLAYT_VALUE k) = (match tget (cwyLink s k).nakAt (fSeq f) with
            | some at' => (s.get (CWY_L_CNT_REPLAYT_VALUE k) + (s.cyc - at')) % 2 ^ 64
            | none => s.get (CWY_L_CNT_REPLAYT_VALUE k)) ∧
          (cwyLink t k).replay = (cwyLink s k).replay.filter (fun p => 2048 ≤ (fAck f + 4096 - p.1) % 4096) ∧
          (∃ l, t.outbox = s.outbox ++ .flit k (plainFlit t k 0) :: l) ∧ ChangesOnly [CWY_L_CNT_REPLAYT k] [.cwy, .out] s t) ∧
      (∀ j, flitGood f = true → fKind f ≠ 0 → fKind f ≠ 5 → fSeq f = (cwyLink s k).rxSeq → s.get CWY_STAT_STATE = 3 →
        fDst f ≠ s.get CWY_STAT_MODNUM → j = routeLink s (fDst f) (flitPair f) → s.on (CWY_L_STAT_UP j) = true →
        (cwyLink s j).queue = [] → (cwyLink s j).replay.length < 512 → Completes (.cwyFlitReceive k f) s fun t =>
          (∃ g, .flit j g ∈ t.outbox ∧ fKind g = fKind f ∧ fSrc g = fSrc f ∧ fDst g = fDst f ∧ fTag g = fTag f ∧
            fHops g = (fHops f + 1) % 256 ∧ fPayload g = fPayload f ∧ flitGood g = true) ∧
          (cwyLink t k).rxSeq = ((cwyLink s k).rxSeq + 1) % 4096 ∧ ChangesOnly [CWY_L_CNT_REPLAYT k] [.cwy, .out] s t) ∧
      (∀ j, flitGood f = true → fKind f = 3 → fSeq f = (cwyLink s k).rxSeq → cwyMaster s = true → fDst f = s.get CWY_STAT_MODNUM →
        leField (fPayload f) 0 1 = 0 → j = routeLink s (fSrc f) 0 → s.on (CWY_L_STAT_UP j) = true → (cwyLink s j).queue = [] →
        (cwyLink s j).replay.length < 512 → Completes (.cwyFlitReceive k f) s fun t =>
          (∃ g, .flit j g ∈ t.outbox ∧ fKind g = 3 ∧ fDst g = fSrc f ∧ flitGood g = true ∧ (fPayload g).take 37 =
            leBytes 1 1 ++ ((fPayload f).drop 1).take 12 ++ leBytes 12 s.linkTime ++ leBytes 12 s.linkTime) ∧
          ChangesOnly [CWY_L_CNT_REPLAYT k] [.cwy, .out] s t) ∧
      (flitGood f = false → Completes (.cwyFlitReceive k f) s fun t =>
        t.get (CWY_L_CNT_CRC_VALUE k) = satAdd 32 (s.get (CWY_L_CNT_CRC_VALUE k)) 1 ∧
        (tget (cwyLink s k).nakAt (cwyLink s k).rxSeq = none → tget (cwyLink t k).nakAt (cwyLink s k).rxSeq = some s.cyc) ∧
        (∀ q c, tget (cwyLink s k).nakAt q = some c → tget (cwyLink t k).nakAt q = some c) ∧ (cwyLink t k).rxSeq = (cwyLink s k).rxSeq ∧
        (∃ l, t.outbox = s.outbox ++ .flit k (plainFlit s k 5) :: l) ∧ ChangesOnly [CWY_L_CNT_CRC k] [.cwy, .out] s t) ∧
      (flitGood f = true → fKind f ≠ 0 → fKind f ≠ 5 → fSeq f ≠ (cwyLink s k).rxSeq → Completes (.cwyFlitReceive k f) s fun t =>
        (cwyLink t k).rxSeq = (cwyLink s k).rxSeq ∧ (∃ l, t.outbox = s.outbox ++ .flit k (plainFlit s k 5) :: l) ∧
        ((fSeq f + 4096 - (cwyLink s k).rxSeq) % 4096 < 2048 →
          tget (cwyLink t k).nakAt (fSeq f) = some ((tget (cwyLink s k).nakAt (fSeq f)).getD s.cyc)) ∧
        ChangesOnly [] [.cwy, .out] s t)) ∧
    (∀ seq, s.on (CWY_L_STAT_UP k) = true → seq < 4096 →
      ((cwyLink s k).nakRun = 0 ∨ (cwyLink s k).nakSeq ≠ seq ∨ (cwyLink s k).nakRun < 7 → Completes (.cwyNak k seq) s fun t =>
        (∃ l, t.outbox = s.outbox ++ ((cwyLink s k).replay.filter fun p => (p.1 + 4096 - seq) % 4096 < 2048).map (fun p =>
          .flit k p.2) ++ l) ∧ t.get (CWY_L_CNT_REPLAY_VALUE k) = satAdd 32 (s.get (CWY_L_CNT_REPLAY_VALUE k))
            ((cwyLink s k).replay.filter fun p => (p.1 + 4096 - seq) % 4096 < 2048).length ∧
        (cwyLink t k).nakSeq = seq ∧ (cwyLink t k).nakRun =
          (if (cwyLink s k).nakRun ≠ 0 ∧ (cwyLink s k).nakSeq = seq then (cwyLink s k).nakRun + 1 else 1) ∧
        ChangesOnly [CWY_L_CNT_REPLAY k] [.cwy, .out] s t) ∧
      ((cwyLink s k).nakSeq = seq → 7 ≤ (cwyLink s k).nakRun → Completes (.cwyNak k seq) s fun t =>
        t.on (CWY_L_STAT_UP k) = false ∧ t.on (CWY_L_STAT_TRAINING k) = true ∧
        ChangesOnly [CWY_L_STAT k, CWY_EVT, CWY_L_CNT_RETRAIN k] [.cwy] s t)) ∧
    (s.on (CWY_L_STAT_UP k) = true → Completes (.cwyRetrain k) s fun t => t.on (CWY_L_STAT_UP k) = false ∧
      t.on (CWY_L_STAT_TRAINING k) = true ∧ (t.get CWY_EVT_LINKCHG).testBit k = true ∧
      t.get (CWY_L_CNT_RETRAIN_VALUE k) = satAdd 32 (s.get (CWY_L_CNT_RETRAIN_VALUE k)) 1 ∧ (cwyLink t k).downAt = some s.cyc ∧
      (cwyLink t k).replay = (cwyLink s k).replay ∧ ChangesOnly [CWY_L_STAT k, CWY_EVT, CWY_L_CNT_RETRAIN k] [.cwy] s t) ∧
    (s.on (CWY_L_STAT_TRAINING k) = true → s.on (CWY_L_STAT_UP k) = false → (cwyLink s k).queue = [] → s.sched.remote = [] →
      Completes (.cwyLinkTrained k) s fun t => t.on (CWY_L_STAT_UP k) = true ∧ t.on (CWY_L_STAT_TRAINING k) = false ∧
        (t.get CWY_EVT_LINKCHG).testBit k = true ∧ (cwyLink t k).downAt = none ∧
        (∀ p rest, (cwyLink s k).replay = p :: rest → ∀ q, q ∈ (cwyLink s k).replay → (q.1 + 4096 - p.1) % 4096 < 2048 →
          .flit k q.2 ∈ t.outbox) ∧ ChangesOnly [CWY_L_STAT k, CWY_EVT, CWY_L_CNT_REPLAY k] [.cwy, .out] s t)

/-- Remote reads and lost routes (R245, R482, R484, R491): a tile that another module asks for is served in 274 flits on the link
of its route; with the route to a module down for DOWNTMO, the module's stale reads are discarded and counted, a ring asks
again the other way round, and a follower that has lost its master goes to ERROR. Time, steps and timetables of a cascade
(R487, R488, R489, R490): a follower asks its master for the time each TIME_PER, and takes a quarter-exchange's offset as a
sample of source 7; an announced step waits for its instant, or counts as late; an announced timetable latch waits with its
CRC. The payload's layout is the model's (DESIGN CHOICE, log entry 37). -/
def Obligations.RemoteReadsAndFollowers : Prop :=
  (∀ s : State, s.powered →
    (∀ src slot addr ctx core tile i e, s.get CWY_STAT_STATE = 3 → addr % 65536 = 0 →
      resolve s false ctx addr 65536 false = .ok (i, e) → protClosed s 3 addr false = false → unpublished s ctx e = false →
      e.tier < 4 → AtHome s e → tierHeld s addr = false → poisonedIn s (objPlace e (addr - e.base * 65536)) 65536 = [] →
      (cwyLink s (routeLink s src tile)).queue = [] → (cwyLink s (routeLink s src tile)).replay = [] →
      s.on (CWY_L_STAT_UP (routeLink s src tile)) = true →
      Completes (.cwyReadReq src slot addr ctx core tile []) s fun t => (∃ l, t.outbox = s.outbox ++ (List.range 274).map (fun n =>
          .flit (routeLink s src tile) (sealFlit (cwyLink s (routeLink s src tile))
            (((cwyLink s (routeLink s src tile)).txSeq + n) % 4096) (newFlit s 2 src (readTag slot ctx core tile)
              ((s.load (objPlace e (addr - e.base * 65536) + 240 * n) (min 240 (65536 - 240 * n))))))) ++ l) ∧
        ChangesOnly engineRegs (.cwy :: .out :: engineParts) s t) ∧
    (∀ m, downFor s (routeLinks s m) = true → m ≠ s.get CWY_STAT_MODNUM → cwyTopo s ≠ 1 →
      (m ≠ 0 ∨ cwyFollower s = false → (∀ p ∈ s.sched.remote, p.2.module = m → p.2.epoch ≠ (coreOf s p.2.core).epoch) →
        (s.sched.remote.map (·.1)).Nodup → Completes (.cwyDownTimeout m) s fun t =>
          t.sched = { s.sched with remote := s.sched.remote.filter fun p => p.2.module ≠ m } ∧
          t.get SCH_CNT_STALE_VALUE =
            satAdd 32 (s.get SCH_CNT_STALE_VALUE) (s.sched.remote.filter fun p => p.2.module == m).length ∧
          ChangesOnly [SCH_CNT_STALE, SCH_EVT] [.sched] s t) ∧
      (m = 0 → cwyFollower s = true → (∀ p ∈ s.sched.remote, p.2.module ≠ m) → Completes (.cwyDownTimeout m) s fun t =>
        t.get CWY_STAT_STATE = 4 ∧ t.on CWY_EVT_MASTERLOST = true ∧ t.on CWY_EVT_STATE = true ∧
        (t.get DGN_EPOCH_CAUSE_MASK).testBit 3 = true ∧
        (s.on TIM_CTRL_ENABLE = true → s.get TIM_CTRL_ACTSRC = 7 → t.on TIM_CTRL_HOLDOVER = true) ∧
        ChangesOnly [CWY_STAT, CWY_EVT, DGN_EPOCH, DGN_EPOCH_CAUSE, FLD_ECS_CNT 7, FLD_ECS_EVT, TIM_CTRL, TIM_EVT, TIM_SRV_ADJ]
          [.diag, .servo] s t)) ∧
    (∀ m, downFor s (routeLinks s m) = true → m ≠ s.get CWY_STAT_MODNUM → cwyTopo s = 1 → s.get CWY_STAT_STATE = 3 →
      m ∉ s.cwy.flips → (routeLinks { s with cwy := { s.cwy with flips := m :: s.cwy.flips } } m).any
        (fun k => s.on (CWY_L_STAT_UP k)) = true → (∀ p ∈ s.sched.remote, p.2.module ≠ m) →
      Completes (.cwyDownTimeout m) s fun t => t.cwy.flips = m :: s.cwy.flips ∧ ChangesOnly [] [.cwy] s t)) ∧
  (∀ s : State, s.powered → cwyFollower s = true →
    (s.cwy.timeAt + timePer s * 1000 ≤ s.cyc → (cwyLink s (routeLink s 0 0)).queue = [] →
      (cwyLink s (routeLink s 0 0)).replay.length < 512 → s.on (CWY_L_STAT_UP (routeLink s 0 0)) = true →
      Completes .cwyTimeExchange s fun t => t.cwy.timeAt = s.cyc ∧ (∃ l, t.outbox = s.outbox ++ .flit (routeLink s 0 0)
          (sealFlit (cwyLink s (routeLink s 0 0)) (cwyLink s (routeLink s 0 0)).txSeq
            (newFlit s 3 0 0 (leBytes 1 0 ++ leBytes 12 s.linkTime))) :: l) ∧ ChangesOnly [] [.cwy, .out] s t) ∧
    (∀ t1 t2 t3 t4 : Int, s.get TIM_CTRL_ACTSRC = 7 → s.epochMode = true → s.on TIM_CTRL_ENABLE = true → s.isPending 1 = false →
      inStepCycle s = false → s.rates = [] → -(2 ^ 47) ≤ ((t2 - t1) + (t3 - t4)) / 2 → ((t2 - t1) + (t3 - t4)) / 2 < 2 ^ 47 →
      Completes (.cwyTimeResponse t1 t2 t3 t4) s fun t => t.getInt TIM_SRV_OFS_THETA = ((t2 - t1) + (t3 - t4)) / 2 ∧
        t.on TIM_EVT_SAMPLE = true ∧ t.get TIM_CNT_SAMPLE_VALUE = satAdd 32 (s.get TIM_CNT_SAMPLE_VALUE) 1 ∧
        tget t.srcSeen 7 = some s.cyc ∧ t.rates.length = 1 ∧
        ChangesOnly [TIM_CTRL, TIM_SRV_OFS, TIM_EVT, TIM_CNT_SAMPLE, TIM_CNT_CLAMP] [.servo] s t) ∧
    (∀ due lo hi ctl : Nat,
      (cmpDiff s (due * 65536) ≤ 0 → Completes (.cwyStepAnnounce due lo hi ctl) s fun t =>
        t.stepDue = some { cyc := none, instant := due, rel := ctl.testBit 1, mode := ctl.testBit 2, sec := bitsOf hi 47 0
                           ns := bitsOf lo 29 0, frac := bitsOf lo 47 32 } ∧ ChangesOnly [] [.servo] s t) ∧
      (0 < cmpDiff s (due * 65536) → Completes (.cwyStepAnnounce due lo hi ctl) s fun t =>
        t.get CWY_CNT_STEPLATE_VALUE = satAdd 32 (s.get CWY_CNT_STEPLATE_VALUE) 1 ∧ t.on CWY_EVT_STEPLATE = true ∧
        t.stepDue = none)) ∧
    (∀ due crc : Nat, Completes (.cwyTtAnnounce due crc) s fun t =>
      t.sched = { s.sched with due := some (due, crc) } ∧ ChangesOnly [] [.sched] s t))

/-! ### Power -/

/-- Start-up (R507, R512, R523–R527, R559): VIN starts it, unless a thermal trip holds it until the plate has cooled (and, after a
brown-out trip too, VIN is back); the always-on clocks lock and time counts from zero; the boot ROM powers the islands, judges
both images and loads the newest good one, or fails; a loaded image whose digest is right is measured and starts hart 0,
another makes the next candidate load, or the boot fail. -/
def Obligations.StartUpFollowsItsInstants : Prop :=
  ∀ s : State,
    (s.pwr.phase = 0 →
      exec .powerOn s = .next { s with pwr := { s.pwr with phase := if s.pwr.hotHold then 0 else 1, vinLow := false } }) ∧
    (s.pwr.phase = 0 → s.pwr.hotHold = true →
      exec .thermalRestart s = .next { s with pwr := { s.pwr with phase := if s.pwr.vinLow then 0 else 1, hotHold := false } }) ∧
    (s.pwr.phase = 1 → exec .aonClockLock s = .next { s with cyc := 0, acc := 0, pwr := { s.pwr with phase := 2 } }) ∧
    (s.pwr.phase = 2 → Completes .bootRomStart s fun t => t.get SYS_CORE_MAP_POWERED = s.fuses.phys % 256 ∧
      t.get SYS_ISLAND_STAT_CORE = s.fuses.phys % 256 ∧ t.on SYS_ISLAND_STAT_BLV = true ∧ t.on SYS_ISLAND_STAT_AON = true ∧
      (lcCode s = 0 ∨ lcCode s = 4 → t.pwr.phase = 5 ∧ t.pwr.boot = none ∧
        t.get SEC_BOOT_CAUSEA = (if lcCode s = 0 then 15 else 9) ∧ t.get SEC_BOOT_CAUSEB = if lcCode s = 0 then 15 else 9) ∧
      (∀ ca cb, lcCode s ≠ 0 → lcCode s ≠ 4 → ca = headerCheck s (s.load (imagePlace 0) 20480) →
        cb = headerCheck s (s.load (imagePlace 1) 20480) → t.get SEC_BOOT_CAUSEA = (if ca = 0 then 15 else ca) ∧
        t.get SEC_BOOT_CAUSEB = (if cb = 0 then 15 else cb) ∧ (ca ≠ 0 → cb ≠ 0 → t.pwr.phase = 5 ∧ t.pwr.boot = none) ∧
        (ca = 0 ∨ cb = 0 → t.pwr.phase = 3 ∧ ∃ img rest, t.pwr.boot = some (img, rest) ∧ (img = 0 → ca = 0) ∧ (img = 1 → cb = 0) ∧
          (ca = 0 → cb = 0 → img = if leField (s.load (imagePlace 0) 20480) 12 4 < leField (s.load (imagePlace 1) 20480) 12 4
            then 1 else 0))) ∧
      ChangesOnly [SYS_CORE_MAP, SYS_ISLAND_STAT, SEC_CHAL, SEC_STAT, SEC_BOOT, BLV_HRC_STAT 0, BLV_HRC_STAT 1] [.pwr, .free] s t) ∧
    (∀ img rest h, s.powered → s.pwr.boot = some (img, rest) → img < 2 → h = s.load (imagePlace img) 20480 →
      (∀ cause readErr, (readErr = true ∧ cause = 8) ∨ (readErr = false ∧ cause = 7 ∧ sectionsOf h = [] ∧
          sha384 (s.load (imagePlace img + 20480) (leField h 20 4)) ≠ slice h 32 79) →
        Completes (.bootLoadEnd readErr) s fun t => t.get (bootCause img) = cause ∧
          (∀ i is, rest = i :: is → t.pwr = { s.pwr with boot := some (i, is) }) ∧
          (rest = [] → t.pwr = { s.pwr with phase := 5, boot := none }) ∧ ChangesOnly [SEC_BOOT] [.pwr] s t) ∧
      ((sectionsOf h).all Section.fits = true → sha384 (s.load (imagePlace img + 20480) (leField h 20 4)) = slice h 32 79 →
        Completes (.bootLoadEnd false) s fun t => t.pwr.phase = 4 ∧ t.pwr.pgood = true ∧ t.pwr.supOn = true ∧ t.pwr.boot = none ∧
          t.get (bootCause img) = 0 ∧ t.get SEC_BOOT_SLOT = img ∧ t.get SEC_BOOT_VERSION = leField h 4 4 ∧
          t.get SEC_BOOT_SVN = leField h 8 4 % 256 ∧
          pcr t 0 = sha384 (sha384 (pcr s 0 ++ sha384 (h.take 1024)) ++ slice h 32 79) ∧
          t.on (BLV_HART_STAT_RUNNING 0) = true ∧ (∃ l, t.outbox = s.outbox ++ .hartStart 0 (s.get (BLV_HART_RVEC_OFS 0) * 4) :: l) ∧
          (∀ x, sectionsOf h = [x] → t.load (destPlace x.dest x.hart x.dofs) x.len = s.load (imagePlace img + 20480) x.len) ∧
          ChangesOnly (SEC_BOOT :: BLV_HART_STAT 0 :: each 6 (SEC_PCR 0)) [.mem, .pwr, .harts, .out] s t))

/-- Supply and temperature (R504, R505, R507, R537, R538): a brown-out warning lowers the effective cap to 140 W until VIN is back;
a warm plate lowers it by 20 W a degree above 65 °C; five samples above it raise the level, a hundred at most at 0.95 of it
lower it again, each counted; a peripheral supply switches off on overcurrent and tries again after 100 ms. -/
def Obligations.CapFollowsSupplyAndTemperature : Prop :=
  ∀ (s : State) (cap therm : Nat), s.powered → cap = max 60 (min 380 (s.get PWR_CAP_W)) →
    therm = (if 650 < s.getInt PWR_TCP_VALUE then (380 - 2 * (s.getInt PWR_TCP_VALUE - 650)).toNat else 380) →
    (s.get PWR_STAT_STATE ≠ 3 → Completes .brownoutWarning s fun t => t.on PWR_STAT_BOW = true ∧ t.on PWR_EVT_BOW = true ∧
      t.get PWR_EFFCAP_VALUE = min (min cap therm) 140 ∧ ChangesOnly [PWR_STAT, PWR_EVT, PWR_EFFCAP] [] s t) ∧
    (Completes .brownoutWarningClear s fun t => t.on PWR_STAT_BOW = false ∧ t.get PWR_EFFCAP_VALUE = min cap therm ∧
      ChangesOnly [PWR_STAT, PWR_EFFCAP] [] s t) ∧
    (∀ tcp : Int, -32768 ≤ tcp → tcp ≤ 32767 → s.pwr.heated < s.cyc / 10000000 → Completes (.thermalSample tcp) s fun t => t.getInt PWR_TCP_VALUE = tcp ∧
      t.on PWR_STAT_THROT = decide (650 < tcp) ∧ (tcp ≤ 800 → t.pwr.hotAt = none) ∧
      (800 < tcp → t.pwr.hotAt = some (s.pwr.hotAt.getD s.cyc)) ∧ t.pwr.heated = s.cyc / 10000000 ∧
      t.get PWR_EFFCAP_VALUE = (if s.on PWR_STAT_BOW then min (min cap (if 650 < tcp then (380 - 2 * (tcp - 650)).toNat else 380)) 140
        else min cap (if 650 < tcp then (380 - 2 * (tcp - 650)).toNat else 380)) ∧
      ChangesOnly [PWR_TCP, PWR_STAT, PWR_EFFCAP] [.pwr] s t) ∧
    (∀ mw c l : Nat, mw < 2 ^ 32 → s.pwr.sampled < s.cyc / 100000 → c = s.get PWR_EFFCAP_VALUE → l = s.get PWR_STAT_LEVEL →
      (c * 1000 < mw → s.pwr.overN < 4 ∨ l = 3 → Completes (.powerCapSample mw) s fun t => t.get PWR_PMOD_VALUE = mw ∧
        t.pwr = { s.pwr with overN := s.pwr.overN + 1, underN := 0, sampled := s.cyc / 100000 } ∧
        ChangesOnly [PWR_PMOD, PWR_VIN] [.pwr, .free] s t) ∧
      (c * 1000 < mw → 4 ≤ s.pwr.overN → l < 3 → Completes (.powerCapSample mw) s fun t => t.get PWR_PMOD_VALUE = mw ∧
        t.get PWR_STAT_LEVEL = l + 1 ∧ t.on PWR_EVT_LEVEL = true ∧
        t.pwr = { s.pwr with overN := 0, underN := 0, sampled := s.cyc / 100000, lvlAt := (s.cyc, l) } ∧
        (l = 0 → t.get PWR_CNT_HOLD_VALUE = satAdd 32 (s.get PWR_CNT_HOLD_VALUE) 1) ∧
        (0 < l → t.get PWR_CNT_THROT_VALUE = satAdd 32 (s.get PWR_CNT_THROT_VALUE) 1) ∧
        ChangesOnly [PWR_PMOD, PWR_VIN, PWR_STAT, PWR_EVT, if l = 0 then PWR_CNT_HOLD else PWR_CNT_THROT] [.pwr, .free] s t) ∧
      (mw ≤ c * 1000 → belowCap mw c = true → 99 ≤ s.pwr.underN → 1 < l → Completes (.powerCapSample mw) s fun t =>
        t.get PWR_STAT_LEVEL = l - 1 ∧ t.on PWR_EVT_LEVEL = true ∧
        t.pwr = { s.pwr with overN := 0, underN := 0, sampled := s.cyc / 100000, lvlAt := (s.cyc, l) } ∧
        ChangesOnly [PWR_PMOD, PWR_VIN, PWR_STAT, PWR_EVT] [.pwr, .free] s t)) ∧
    (∀ i, i < 16 → s.pwr.supOn = true → Completes (.supplyOvercurrent i) s fun t => tget t.pwr.supOff i = some s.cyc ∧
      (∀ j, j ≠ i → tget t.pwr.supOff j = tget s.pwr.supOff j) ∧ ChangesOnly [] [.pwr] s t) ∧
    (∀ i at_, tget s.pwr.supOff i = some at_ → at_ + 100000000 ≤ s.cyc → Completes (.supplyRetry i) s fun t =>
      tget t.pwr.supOff i = none ∧ (∀ j, j ≠ i → tget t.pwr.supOff j = tget s.pwr.supOff j) ∧ ChangesOnly [] [.pwr] s t)

/-- Shutdown (R506, R507, R510, R513, R520): a trip gates the fabric and the LPDDR5X and ends a fuse operation, whose fuses stay
programmed as far as they came; then the segments send their last frame with substitute values, the outputs go low, and the
device is off, but for its fuses and its flash; RESET_N runs the same and starts up again, at once where nothing had started. -/
def Obligations.TripsShutTheDeviceDown : Prop :=
  ∀ s : State, s.powered →
    (∀ i, i = .brownoutTrip ∨ (i = .thermalTrip ∧ ∃ h, s.pwr.hotAt = some h ∧ h + 1000000000 ≤ s.cyc) → s.pwr.trip = none →
      FuseWidths s.fuses → Completes i s fun t => t.pwr.trip = some (s.cyc, 2, false) ∧
        t.pwr.causes = (s.pwr.causes ||| if i = .brownoutTrip then 1 else 2) ∧ (i = .brownoutTrip → t.pwr.vinLow = true) ∧
        (i = .thermalTrip → t.pwr.hotHold = true) ∧ t.cores = [] ∧ t.batch = none ∧ t.secOp = none ∧ t.sched.steps = [] ∧
        t.get SYS_CORE_MAP_POWERED = 0 ∧ t.get SYS_ISLAND_STAT_CORE = 0 ∧ t.on SYS_ISLAND_STAT_APP = false ∧
        t.on SYS_ISLAND_STAT_TRL = false ∧ t.on SYS_ISLAND_STAT_SLV = false ∧ t.on MEM_DDR_STAT_READY = false ∧
        FusesWithin s.fuses t.fuses ∧ (s.secOp = none → t.fuses = s.fuses) ∧
        (∀ a, a < areaBase 3 ∨ areaBase 4 ≤ a → memGet t.mem a = memGet s.mem a) ∧
        ChangesOnly (each 8 TC_STAT ++ [SYS_CORE_MAP, SYS_ISLAND_STAT, MEM_DDR_STAT])
          [.cores, .solve, .trl, .pools, .mem, .sec, .free, .sched, .pwr] { s with fuses := t.fuses } t) ∧
    (∀ at_ r, s.pwr.trip = some (at_, 2, r) → at_ + 20000 ≤ s.cyc →
      (∀ g, g < 4 → s.on (FLD_ECM_STAT_RUN g) = true → segQuiet s g = true) → Completes .shutdownFinalFrame s fun t =>
        t.pwr = { s.pwr with trip := some (at_, 3, r) } ∧ (∀ g, g < 4 → s.on (FLD_ECM_STAT_RUN g) = true →
          s.on (FLD_ECM_STAT_LINKA g) = true → ∃ f, .frame (segPort g false) f ∈ t.outbox ∧ f.length = min 2048 (frameLen s g) ∧
            ∀ e, entriesOf s g 1 = [e] → s.get (FLD_ECM_MAP_LO_TYPE g e) < 7 → s.on (FLD_ECM_MAP_LO_SUBMODE g e) = false →
              s.get (FLD_ECM_MAP_LO_OFS g e) + typeBytes (s.get (FLD_ECM_MAP_LO_TYPE g e)) ≤ frameLen s g →
              leField f (s.get (FLD_ECM_MAP_LO_OFS g e)) (typeBytes (s.get (FLD_ECM_MAP_LO_TYPE g e))) =
                outputRaw (s.get (FLD_ECM_MAP_LO_TYPE g e)) (BitVec.ofNat 32 (s.get (FLD_ECM_MAP_HI_SUBV g e)))
                  (BitVec.ofNat 32 (s.get (FLD_ECM_MAP_HI_SCALE g e)))) ∧ ChangesOnly [] [.pwr, .out] s t) ∧
    (∀ at_ r, s.pwr.trip = some (at_, 3, r) → at_ + 300000 ≤ s.cyc → Completes .shutdownOutputsLow s fun t =>
      t.pwr = { s.pwr with linesLow := true, trip := some (at_, 4, r) } ∧ ChangesOnly [] [.pwr] s t) ∧
    (∀ i at_ r, (i = .shutdownRailsOff ∧ s.pwr.trip = some (at_, 4, r) ∧ at_ + 500000 ≤ s.cyc) ∨
        (i = .resetPin ∧ s.pwr.trip = none ∧ s.pwr.phase < 4) → Completes i s fun t =>
      t.pwr.phase = (if i = .resetPin then 2 else if r then 1 else 0) ∧ t.pwr.trip = none ∧ t.pwr.pgood = false ∧
      t.pwr.hotHold = s.pwr.hotHold ∧ t.pwr.vinLow = s.pwr.vinLow ∧ t.get PWR_STAT_LASTOFF = ((s.pwr.causes ||| if i = .resetPin then 4 else 0) % 16) ∧
      (∀ a, a ≠ PWR_STAT → t.rd a = State.reset.rd a) ∧ t.fuses = s.fuses ∧ t.pending = s.pending ∧ t.cores = [] ∧ t.plt = [] ∧
      t.cyc = State.reset.cyc ∧ ∀ a, memGet t.mem a =
        if areaBase areaFlash ≤ a ∧ a < areaBase (areaFlash + 1) then memGet s.mem a else memGet [] a) ∧
    (s.pwr.trip = none → 4 ≤ s.pwr.phase → Completes .resetPin s fun t =>
      t.pwr = { s.pwr with causes := s.pwr.causes ||| 4, trip := some (s.cyc - 20000, 2, true) } ∧ ChangesOnly [] [.pwr] s t)

/-- Dormant (R531–R536): a request is refused with its code while something runs; else the fabric, the SPAD and the outputs lose
power, and 2.0 ms later the module is Dormant; an enabled event wakes it: at 5 ms the clocks lock, at 36 ms the LPDDR5X is
ready and the application cluster starts, at 40 ms it is running again. -/
def Obligations.DormantEntryAndWake : Prop :=
  ∀ s : State, s.powered →
    (∀ (who : Initiator) (v : Word64), WriteOk s who PWR_CTRL (v.toNat ||| 1) → s.get PWR_STAT_STATE = 1 →
      (∀ code, dormantRefusal s = code → code ≠ 0 → Completes (.dormantRequest who v) s fun t => t.get PWR_STAT_REFUSE = code ∧
        t.on PWR_EVT_REFUSED = true ∧ t.get PWR_STAT_STATE = 1 ∧ ChangesOnly [PWR_STAT, PWR_EVT] [] s t) ∧
      (dormantRefusal s = 0 → Completes (.dormantRequest who v) s fun t => t.get PWR_STAT_STATE = 2 ∧ t.get PWR_STAT_REFUSE = 0 ∧
        t.pwr.dormAt = some s.cyc ∧ t.pwr.supOn = false ∧ t.pwr.linesLow = true ∧ t.cores = [] ∧ t.batch = none ∧
        t.get SYS_CORE_MAP_POWERED = 0 ∧ t.on SYS_ISLAND_STAT_BLV = false ∧ t.on SYS_ISLAND_STAT_RFX = false ∧
        t.on SYS_ISLAND_STAT_SNS = false ∧ t.on SYS_ISLAND_STAT_CWY = false ∧ t.on MEM_DDR_STAT_READY = false ∧
        (∀ a, a < areaBase 1 ∨ areaBase 2 ≤ a → memGet t.mem a = memGet s.mem a) ∧
        ChangesOnly (each 8 TC_STAT ++ [SYS_CORE_MAP, SYS_ISLAND_STAT, MEM_DDR_STAT, PWR_STAT])
          [.cores, .solve, .trl, .pools, .mem, .fus, .pwr] s t)) ∧
    (s.on SEC_CMD_STAT_BUSY = true → dormantRefusal s = 1) ∧
    (∀ at_, s.pwr.dormAt = some at_ → s.get PWR_STAT_STATE = 2 → at_ + 2000000 ≤ s.cyc → Completes .dormantEntered s fun t =>
      t.get PWR_STAT_STATE = 3 ∧ t.get PWR_CNT_DORM_VALUE = satAdd 32 (s.get PWR_CNT_DORM_VALUE) 1 ∧
      t.on SYS_ISLAND_STAT_BWK = false ∧ ChangesOnly [PWR_STAT, PWR_CNT_DORM, SYS_ISLAND_STAT] [] s t) ∧
    (∀ src, src < 3 → s.get PWR_STAT_STATE = 2 ∨ s.get PWR_STAT_STATE = 3 → (s.rd PWR_WAKE).toNat.testBit src = true →
      Completes (.wakeEvent src) s fun t => t.get PWR_STAT_STATE = 4 ∧
        t.pwr = { s.pwr with dormAt := none, wakeAt := some (s.cyc, 0) } ∧ ChangesOnly [PWR_STAT] [.pwr] s t) ∧
    (∀ at_, s.pwr.wakeAt = some (at_, 0) → at_ + 5000000 ≤ s.cyc → Completes .wakePllLock s fun t =>
      t.pwr = { s.pwr with supOn := true, linesLow := false, wakeAt := some (at_, 1) } ∧
      t.get SYS_CORE_MAP_POWERED = s.fuses.phys % 256 ∧ t.on SYS_ISLAND_STAT_BLV = true ∧ t.on SYS_ISLAND_STAT_RFX = true ∧
      ChangesOnly [SYS_CORE_MAP, SYS_ISLAND_STAT] [.pwr] s t) ∧
    (∀ at_, s.pwr.wakeAt = some (at_, 1) → at_ + 36000000 ≤ s.cyc → Completes .wakeAppStart s fun t =>
      t.pwr = { s.pwr with wakeAt := some (at_, 2) } ∧ t.on MEM_DDR_STAT_READY = true ∧ (∃ l, t.outbox = s.outbox ++
        (List.range 8).map (fun h => .hartStart (4 + h) (s.get PWR_APPVEC_ADDR * 4)) ++ l) ∧
      ChangesOnly [MEM_DDR_STAT] [.pwr, .out] s t) ∧
    (∀ at_, s.pwr.wakeAt = some (at_, 2) → at_ + 40000000 ≤ s.cyc → Completes .wakeComplete s fun t =>
      t.pwr = { s.pwr with wakeAt := none } ∧ t.get PWR_STAT_STATE = 1 ∧ t.on PWR_EVT_WAKE = true ∧
      ChangesOnly [SYS_CORE_MAP, SYS_ISLAND_STAT, PWR_STAT, PWR_EVT] [.pwr] s t)

/-! ### The security engine -/

/-- Operations start (R513, R519, R520, R529): a write of SEC_CMD starts its operation, and BUSY shows, with the result it will end
with: the refusal that meets it, READERR where its source is not readable, else what its record says; while one runs, another
is answered BUSY. A fuse operation without ARM = 0xA5 is BADOP; a key is programmed only in PROVISION, into an empty slot. -/
def Obligations.SecurityOperationsStart : Prop :=
  ∀ (s : State) (who : Initiator) (v : Word64) (op w : Nat) (i : Instr), s.powered →
    (op, i) ∈ [(0x01, Instr.secExtend who v), (0x02, .secAttest who v), (0x03, .secExport who v), (0x10, .secFuseKey who v),
      (0x11, .secFuseRevoke who v), (0x12, .secFuseRollback who v), (0x13, .secFuseProt who v), (0x14, .secLcAdvance who v)] →
    w = withBits v.toNat 7 0 op → WriteOk s who SEC_CMD w →
    (s.on SEC_CMD_STAT_BUSY = true → Completes i s fun t => t.get SEC_CMD_STAT_RESULT = 0x11 ∧ ChangesOnly [SEC_CMD_STAT] [] s t) ∧
    (s.on SEC_CMD_STAT_BUSY = false →
      (cmdRefusal s w ≠ 0 → Completes i s fun t => t.on SEC_CMD_STAT_BUSY = true ∧ t.secOp = some
          { cmd := w, result := cmdRefusal s w, dst := s.get SEC_CMD_DST_ADDR * 64, data := [] } ∧ ChangesOnly [SEC_CMD_STAT] [.sec] s t) ∧
      (cmdRefusal s w = 0 → cmdSourceLen w = 0 → Completes i s fun t => t.on SEC_CMD_STAT_BUSY = true ∧ t.secOp = some
          { cmd := w, result := cmdResult s w [], dst := s.get SEC_CMD_DST_ADDR * 64, data := [] } ∧ ChangesOnly [SEC_CMD_STAT] [.sec] s t) ∧
      (∀ u r bs, cmdRefusal s w = 0 → cmdSourceLen w ≠ 0 → engineRead s 5 0 (s.get SEC_CMD_SRC_ADDR * 64) (cmdSourceLen w) = (u, r, bs) →
        Completes i s fun t => t.on SEC_CMD_STAT_BUSY = true ∧ t.secOp = some
          { cmd := w, result := if r = 0 then cmdResult s w bs else 0x14, dst := s.get SEC_CMD_DST_ADDR * 64, data := bs } ∧
          ChangesOnly (SEC_CMD_STAT :: engineRegs) (.sec :: engineParts) s t)) ∧
    (0x10 ≤ op → bitsOf v.toNat 31 24 ≠ 0xA5 → cmdRefusal s w = 0x10) ∧
    (0x10 ≤ op → bitsOf v.toNat 31 24 = 0xA5 → s.on PWR_STAT_BOW = true → cmdRefusal s w = 0x17) ∧
    (op = 0x10 → cmdRefusal s w = 0 → lcCode s = 1 ∧ 0 < bitsOf v.toNat 10 8 ∧
      (keySlots s.fuses (bitsOf v.toNat 11 11)).getD (bitsOf v.toNat 10 8) (0, false) = (0, false)) ∧
    (op = 0x02 ∨ op = 0x03 → lcCode s = 3 → cmdRefusal s w = 0x15)

/-- Operations end (R513, R515, R516, R519, R520, R527, R529, R530): DONE shows with the result, and FAIL with any other than DONE,
which changes nothing else but the challenge of an armed unlock; an EXTEND folds its digest into its measurement register;
ATTEST and EXPORT write their record at DST; a fuse operation programs its key slot, its revocation, its rollback count, the
protection record or the lifecycle, and nothing else. -/
def Obligations.SecurityOperationsEnd : Prop :=
  ∀ (s : State) (o : SecOp), s.powered → s.secOp = some o → FuseWidths s.fuses →
    (o.result ≠ 1 → o.result < 256 → Completes .secCmdDone s fun t => t.get SEC_CMD_STAT_RESULT = o.result ∧
      t.on SEC_CMD_STAT_BUSY = false ∧ t.on SEC_EVT_DONE = true ∧ t.on SEC_EVT_FAIL = true ∧ t.secOp = none ∧
      (cmdOp o.cmd = 0x14 → cmdArm o.cmd = 0xA5 → t.rd SEC_CHAL = Config.freeWord s.free) ∧
      ChangesOnly [SEC_CMD_STAT, SEC_EVT, SEC_CHAL] [.sec, .free] s t) ∧
    (o.result = 1 → pertOk s = true ∨ (s.rd DGN_PERT_CTL = 0#64 ∧ s.burst = []) →
      (Completes .secCmdDone s fun t => t.get SEC_CMD_STAT_RESULT = 1 ∧ t.on SEC_CMD_STAT_BUSY = false ∧ t.on SEC_EVT_DONE = true ∧
        t.secOp = none ∧ FusesWithin s.fuses t.fuses) ∧
      (cmdOp o.cmd = 0x01 → Completes .secCmdDone s fun t =>
        pcr t (cmdIdx o.cmd) = sha384 (pcr s (cmdIdx o.cmd) ++ o.data) ∧ t.fuses = s.fuses ∧
        ChangesOnly (SEC_CMD_STAT :: SEC_EVT :: each 6 (SEC_PCR (cmdIdx o.cmd))) [.sec] s t) ∧
      (∀ i e rec_, (cmdOp o.cmd = 0x02 ∧ rec_ = attestRecord s o.data) ∨ (cmdOp o.cmd = 0x03 ∧
          rec_ = padBytes 384 (Config.identRsa s.fuses.secret (identArea s)) ++ padBytes 48 (Config.identSlh s.fuses.secret)) →
        resolve s true 0 o.dst rec_.length true = .ok (i, e) → AtHome s e →
        Completes .secCmdDone s fun t => t.load (objPlace e (o.dst - e.base * 65536)) rec_.length = rec_ ∧ t.fuses = s.fuses ∧
          ChangesOnly (SEC_CMD_STAT :: SEC_EVT :: engineRegs) (.sec :: engineParts) s t) ∧
      (cmdOp o.cmd = 0x10 → cmdIdx o.cmd < 4 → Completes .secCmdDone s fun t =>
        ((keySlots t.fuses (cmdKind o.cmd)).getD (cmdIdx o.cmd) (0, false) =
          (((keySlots s.fuses (cmdKind o.cmd)).getD (cmdIdx o.cmd) (0, false)).1 ||| leNat o.data % 2 ^ 384, true)) ∧
        (∀ k j, k < 2 → j < 4 → (k, j) ≠ (cmdKind o.cmd, cmdIdx o.cmd) →
          (keySlots t.fuses k).getD j (0, false) = (keySlots s.fuses k).getD j (0, false)) ∧
        t.fuses = { s.fuses with khRsa := t.fuses.khRsa, khSlh := t.fuses.khSlh } ∧
        ChangesOnly [SEC_CMD_STAT, SEC_EVT] [.sec] { s with fuses := t.fuses } t) ∧
      (cmdOp o.cmd = 0x11 → cmdIdx o.cmd < 4 → Completes .secCmdDone s fun t =>
        t.fuses = { s.fuses with revoke := s.fuses.revoke ||| 2 ^ (4 * cmdKind o.cmd + cmdIdx o.cmd) } ∧
        slotUsable t.fuses (cmdKind o.cmd) (cmdIdx o.cmd) = false ∧
        ChangesOnly [SEC_CMD_STAT, SEC_EVT] [.sec] { s with fuses := t.fuses } t) ∧
      (cmdOp o.cmd = 0x12 → cmdVal o.cmd ≤ 64 → Completes .secCmdDone s fun t =>
        rollbackCount t.fuses = max (rollbackCount s.fuses) (cmdVal o.cmd) ∧
        t.fuses = { s.fuses with rollback := t.fuses.rollback } ∧
        ChangesOnly [SEC_CMD_STAT, SEC_EVT] [.sec] { s with fuses := t.fuses } t) ∧
      (cmdOp o.cmd = 0x13 → Completes .secCmdDone s fun t => t.fuses.protMark = true ∧
        (∀ w, w < 8 → t.fuses.protWin.getD w 0 = (s.fuses.protWin.getD w 0 ||| leField o.data (8 * w) 8)) ∧
        t.fuses.protDbg = (s.fuses.protDbg ||| leField o.data 64 1) ∧ t.fuses.protPert = (s.fuses.protPert ||| leField o.data 65 1 % 4) ∧
        t.fuses = { s.fuses with protMark := true, protWin := t.fuses.protWin, protDbg := t.fuses.protDbg
                                 protPert := t.fuses.protPert } ∧
        ChangesOnly [SEC_CMD_STAT, SEC_EVT, DGN_PERT_CTL] [.sec, .diag] { s with fuses := t.fuses } t) ∧
      (cmdOp o.cmd = 0x14 → lcCode s < cmdVal o.cmd → cmdVal o.cmd ≤ 4 → 1 < cmdVal o.cmd →
        s.fuses.lc = 1 ∨ s.fuses.lc = 3 ∨ s.fuses.lc = 7 → Completes .secCmdDone s fun t =>
        lcCode t = cmdVal o.cmd ∧ t.fuses = { s.fuses with lc := t.fuses.lc } ∧
        ChangesOnly [SEC_CMD_STAT, SEC_EVT, SEC_CHAL, DGN_PERT_CTL] [.sec, .free, .diag] { s with fuses := t.fuses } t))

/-! ### Whole-machine rules -/

/-- A fuse bit, once programmed, reads 1 for the life of the part (R513): no step of the device, whatever its command, clears one,
and what manufacture programmed never changes. -/
def Obligations.FusesOnlyGain : Prop :=
  ∀ s t : State, step s = .next t → FusesWithin s.fuses t.fuses

/-- Every step keeps the fuse array in the fields and widths of R513's table: LC 4 bits, four key slots of 384 bits of each kind,
REVOKE 8, ROLLBACK 64, eight windows of 64, 8 debug locks, PERTMODE 2. -/
def Obligations.StepKeepsFuseWidths : Prop :=
  ∀ s t : State, FuseWidths s.fuses → step s = .next t → FuseWidths t.fuses

/-- Without power nothing happens (R505, R512, R531): before the always-on clocks lock, only POWER_ON, THERMAL_RESTART and
AON_CLOCK_LOCK have an effect, and no cycle is counted. That a command which reaches the device then is lost without effect is
the model's own choice (log entry 1). -/
def Obligations.UnpoweredDeviceDoesNothing : Prop :=
  ∀ (s : State) (i : Instr), s.pwr.phase < 2 → s.pwr.trip = none →
    (i ≠ .powerOn → i ≠ .aonClockLock → i ≠ .thermalRestart → exec i s = .next s) ∧ s.tick = s ∧
    (s.pwr.phase = 1 → exec .powerOn s = .next s ∧ exec .thermalRestart s = .next s) ∧
    (s.pwr.phase = 0 → exec .aonClockLock s = .next s)

/-- The state after reset: the fuse array is in order, no command waits, memory lists nothing and is in canonical form, the
placement table is empty, and the registers hold the reset values of their chapters: the power cap of 380 W, zero measurements
and counts, the built-in timetable of R222. The fuses' contents are the model's choice (log entry 3). -/
def Obligations.ResetIsInOrder : Prop :=
  FuseWidths State.reset.fuses ∧ State.reset.pending = [] ∧ State.reset.mem = [] ∧ Memory.wf State.reset.mem = true ∧
    State.reset.plt = [] ∧ State.reset.migs = [] ∧ State.reset.sched.slots = builtInSlots ∧
    State.reset.get PWR_CAP_W = 380 ∧ (∀ n, n < 8 → pcr State.reset n = List.replicate 48 0#8) ∧
    (∀ c, c < 7 → State.reset.get (DGN_VIO_CNT_VALUE c) = 0) ∧ State.reset.powered
end

