-- ==== Sys2Proof/Laws/Bits.lean ====
section
/-! SUPPORT. Laws of bit fields, tables and register fields: what a read gives after a write. -/

namespace Sys2Proof.Machine

open Sys2Proof

/-! ### Bit fields -/

theorem testBit_bitsOf (x hi lo i : Nat) :
    (bitsOf x hi lo).testBit i = (decide (i < hi + 1 - lo) && x.testBit (lo + i)) := by
  simp [bitsOf, Nat.testBit_mod_two_pow, Nat.testBit_shiftRight]

theorem testBit_withBits (x hi lo v i : Nat) (h : lo ≤ hi + 1) :
    (withBits x hi lo v).testBit i = if lo ≤ i ∧ i ≤ hi then v.testBit (i - lo) else x.testBit i := by
  have e : withBits x hi lo v = 2 ^ lo * (2 ^ (hi + 1 - lo) * (x >>> (hi + 1)) + v % 2 ^ (hi + 1 - lo)) + x % 2 ^ lo := by
    unfold withBits
    rw [Nat.shiftLeft_eq, Nat.shiftLeft_eq]
    have : (2 : Nat) ^ (hi + 1) = 2 ^ lo * 2 ^ (hi + 1 - lo) := by rw [← Nat.pow_add]; congr 1; omega
    rw [this, Nat.mul_add]
    ring
  rw [e, Nat.testBit_two_pow_mul_add _ (Nat.mod_lt _ (Nat.two_pow_pos lo))]
  by_cases h1 : i < lo
  · simp [h1, Nat.testBit_mod_two_pow, show ¬ lo ≤ i by omega]
  · rw [if_neg h1, Nat.testBit_two_pow_mul_add _ (Nat.mod_lt _ (Nat.two_pow_pos _))]
    by_cases h2 : i ≤ hi
    · simp [Nat.testBit_mod_two_pow, show i - lo < hi + 1 - lo by omega, show lo ≤ i by omega, h2]
    · simp [show ¬ i - lo < hi + 1 - lo by omega, h2, Nat.testBit_shiftRight]
      congr 1; omega

theorem bitsOf_withBits (x hi lo v : Nat) (h : lo ≤ hi) : bitsOf (withBits x hi lo v) hi lo = v % 2 ^ (hi + 1 - lo) := by
  apply Nat.eq_of_testBit_eq; intro i
  rw [testBit_bitsOf, testBit_withBits _ _ _ _ _ (by omega), Nat.testBit_mod_two_pow]
  by_cases hi' : i < hi + 1 - lo
  · simp [hi', show lo ≤ lo + i by omega, show lo + i ≤ hi by omega]
  · simp [hi']

theorem bitsOf_withBits_other (x hi lo v hi' lo' : Nat) (h : lo ≤ hi) (d : hi' < lo ∨ hi < lo') :
    bitsOf (withBits x hi lo v) hi' lo' = bitsOf x hi' lo' := by
  apply Nat.eq_of_testBit_eq; intro i
  rw [testBit_bitsOf, testBit_bitsOf, testBit_withBits _ _ _ _ _ (by omega)]
  by_cases hi' : i < hi' + 1 - lo'
  · rw [if_neg (by omega)]
  · simp [hi']

theorem bitsOf_lt (x hi lo : Nat) : bitsOf x hi lo < 2 ^ (hi + 1 - lo) := Nat.mod_lt _ (Nat.two_pow_pos _)

theorem withBits_lt (x hi lo v n : Nat) (hx : x < 2 ^ n) (h : lo ≤ hi) (hn : hi < n) : withBits x hi lo v < 2 ^ n := by
  apply Nat.lt_pow_two_of_testBit; intro i hi'
  rw [testBit_withBits _ _ _ _ _ (by omega), if_neg (by omega)]
  exact Nat.testBit_lt_two_pow (Nat.lt_of_lt_of_le hx (Nat.pow_le_pow_right (by omega) hi'))

/-! ### Tables -/

@[simp] theorem tget_tset_same {α : Type} (t : Tbl α) (k : Nat) (a : α) : tget (tset t k a) k = some a := by
  induction t with
  | nil => simp [tset, tget]
  | cons p t ih =>
    obtain ⟨k', a'⟩ := p
    simp only [tset]
    split
    · simp [tget]
    · split
      · simp [tget]
      · simp [tget, *]

theorem tget_tset_ne {α : Type} (t : Tbl α) (k j : Nat) (a : α) (h : j ≠ k) : tget (tset t k a) j = tget t j := by
  induction t with
  | nil => simp [tset, tget, h]
  | cons p t ih =>
    obtain ⟨k', a'⟩ := p
    simp only [tset]
    split
    · simp [tget, h]
    · split
      · simp_all [tget]
      · simp [tget, ih]

@[simp] theorem tgetD_tset_same {α : Type} (t : Tbl α) (k : Nat) (a d : α) : tgetD (tset t k a) k d = a := by
  simp [tgetD]

theorem tgetD_tset_ne {α : Type} (t : Tbl α) (k j : Nat) (a d : α) (h : j ≠ k) :
    tgetD (tset t k a) j d = tgetD t j d := by simp [tgetD, tget_tset_ne _ _ _ _ h]

/-! ### Registers -/

@[simp] theorem State.rd_wr_same (s : State) (a : Nat) (v : Word64) : (s.wr a v).rd a = v := by
  simp [State.rd, State.wr]

theorem State.rd_wr_ne (s : State) (a b : Nat) (v : Word64) (h : b ≠ a) : (s.wr a v).rd b = s.rd b := by
  simp [State.rd, State.wr, tgetD_tset_ne _ _ _ _ _ h]

theorem State.rd_put_ne (s : State) (f : Fld) (v b : Nat) (h : b ≠ f.addr) : (s.put f v).rd b = s.rd b :=
  State.rd_wr_ne _ _ _ _ h

theorem State.rd_put_same (s : State) (f : Fld) (v : Nat) :
    (s.put f v).rd f.addr = BitVec.ofNat 64 (withBits (s.rd f.addr).toNat f.hi f.lo v) := by
  simp [State.put]

/-- A field reads the value put into it. -/
theorem State.get_put (s : State) (f : Fld) (v : Nat) (h : f.lo ≤ f.hi) (h64 : f.hi < 64) :
    (s.put f v).get f = v % 2 ^ (f.hi + 1 - f.lo) := by
  rw [State.get, State.rd_put_same, BitVec.toNat_ofNat,
    Nat.mod_eq_of_lt (withBits_lt _ _ _ _ _ (s.rd f.addr).isLt h h64), bitsOf_withBits _ _ _ _ h]

/-- A field of another register stands. -/
theorem State.get_put_ne (s : State) (f g : Fld) (v : Nat) (h : g.addr ≠ f.addr) : (s.put f v).get g = s.get g := by
  rw [State.get, State.get, State.rd_put_ne _ _ _ _ h]

/-- Another field of the same register stands. -/
theorem State.get_put_other (s : State) (f g : Fld) (v : Nat) (e : g.addr = f.addr) (h : f.lo ≤ f.hi) (h64 : f.hi < 64)
    (d : g.hi < f.lo ∨ f.hi < g.lo) : (s.put f v).get g = s.get g := by
  rw [State.get, State.get, e, State.rd_put_same, BitVec.toNat_ofNat,
    Nat.mod_eq_of_lt (withBits_lt _ _ _ _ _ (s.rd f.addr).isLt h h64), bitsOf_withBits_other _ _ _ _ _ _ h d]

/-- A field reads below two to its width. -/
theorem State.get_lt (s : State) (f : Fld) : s.get f < 2 ^ (f.hi + 1 - f.lo) := bitsOf_lt _ _ _

/-- An event or status bit that has been set reads 1. -/
theorem State.on_setOn (s : State) (f : Fld) (h : f.lo = f.hi) (h64 : f.hi < 64) : (s.setOn f).on f = true := by
  show ((s.put f 1).get f == 1) = true
  rw [State.get_put _ _ _ (by omega) h64, h]
  simp

/-- What a saturating counter of `d` events reads after them. -/
theorem State.get_count (s : State) (f : Fld) (d : Nat) (h : f.lo ≤ f.hi) (h64 : f.hi < 64) :
    (s.count f d).get f = satAdd (f.hi + 1 - f.lo) (s.get f) d := by
  rw [State.count, State.get_put _ _ _ h h64, Nat.mod_eq_of_lt]
  simp only [satAdd]
  have : 0 < 2 ^ (f.hi + 1 - f.lo) := Nat.two_pow_pos _
  omega

/-- A state equal to another in its registers reads the same. -/
theorem State.rd_congr (s t : State) (a : Nat) (h : s.regs = t.regs) : s.rd a = t.rd a := by rw [State.rd, State.rd, h]

theorem State.get_congr (s t : State) (f : Fld) (h : s.regs = t.regs) : s.get f = t.get f := by
  rw [State.get, State.get, State.rd_congr s t _ h]

end Sys2Proof.Machine
end

