-- ==== Sys2Proof/Laws/Finish.lean ====
section
/-! SUPPORT. What the end of every command does and leaves: interrupt lines settle (R385, R474, R550), the queue stands, the
fuses stand. Cite `finish_spec` and `finishFuses_spec`; nothing else need unfold `finish`. -/

namespace Sys2Proof.Machine

open Sys2Proof Sys2Proof.Machine.Reg

/-- What settling may touch: pulse bits, MSI-X pending bits, what leaves the device, the merge count and its event,
and the record that this event is of the present cycle. -/
structure LineFrame (s t : State) : Prop where
  rest : t = { s with regs := t.regs, fresh := t.fresh, icu := { s.icu with pend := t.icu.pend },
                      msix := { s.msix with pend := t.msix.pend }, outbox := t.outbox }
  rd : ∀ a, a ≠ DGN_CNT_MERGE → a ≠ DGN_EVT → t.rd a = s.rd a
  out : ∃ l, t.outbox = s.outbox ++ l ∧ ∀ m ∈ l, ∃ v, m = OutMsg.msix v

/-- Nothing sent. -/
theorem none_sent (s : State) : ∃ l, s.outbox = s.outbox ++ l ∧ ∀ m ∈ l, ∃ v, m = OutMsg.msix v := ⟨[], by simp, by simp⟩

theorem LineFrame.refl (s : State) : LineFrame s s := ⟨rfl, fun _ _ _ => rfl, none_sent s⟩

theorem LineFrame.trans {s t u : State} (h : LineFrame s t) (k : LineFrame t u) : LineFrame s u := by
  obtain ⟨l, hl, hm⟩ := h.out
  obtain ⟨l', hl', hm'⟩ := k.out
  refine ⟨?_, fun a h1 h2 => (k.rd a h1 h2).trans (h.rd a h1 h2), l ++ l', by rw [hl', hl, List.append_assoc], ?_⟩
  swap
  · intro m h
    rcases List.mem_append.1 h with h | h
    · exact hm m h
    · exact hm' m h
  have e := k.rest
  rw [h.rest] at e
  exact e

theorem pulse_line (s : State) (src : Nat) : LineFrame s (s.pulse src) := by
  unfold State.pulse
  split
  · split
    · refine ⟨rfl, fun a h1 h2 => ?_, none_sent _⟩
      show ((s.count DGN_CNT_MERGE_VALUE 1).put DGN_EVT_MERGE 1).rd a = _
      rw [State.rd_put_ne _ _ _ _ h2, State.count, State.rd_put_ne _ _ _ _ h1]
    · exact ⟨rfl, fun _ _ _ => rfl, none_sent _⟩
  · exact LineFrame.refl s

theorem msixFire_line (s : State) (v : Nat) : LineFrame s (s.msixFire v) := by
  unfold State.msixFire
  split
  · split
    · exact LineFrame.refl s
    · exact ⟨rfl, fun _ _ _ => rfl, none_sent _⟩
  · exact ⟨rfl, fun _ _ _ => rfl, [.msix v], rfl, by simp⟩

theorem foldl_line {α : Type} (f : State → α → State) (h : ∀ s x, LineFrame s (f s x)) (xs : List α) (s : State) :
    LineFrame s (xs.foldl f s) := by
  induction xs generalizing s with
  | nil => exact LineFrame.refl s
  | cons x xs ih => exact (h s x).trans (ih (f s x))

theorem settle_line (s0 s1 : State) : LineFrame s1 (settle s0 s1) := by
  have e : LineFrame s1 (settleEdges s0 s1) := foldl_line _ (fun s x => by
    split
    · exact pulse_line s x
    · exact LineFrame.refl s) _ _
  refine e.trans (foldl_line _ (fun s x => ?_) _ _)
  simp only
  split
  · exact msixFire_line s _
  · exact LineFrame.refl s

/-- The state `t` in which a command with effect `s1` leaves `s0`, with the fuses `f`. -/
structure Settled (f : Fuses) (s0 s1 t : State) : Prop where
  pending : t.pending = s0.pending
  fuses : t.fuses = f
  rd : ∀ a, a ≠ DGN_CNT_MERGE → a ≠ DGN_EVT → t.rd a = s1.rd a
  stk : t.icu.stk = s1.icu.stk
  masked : t.msix.masked = s1.msix.masked
  table : t.msix.table = s1.msix.table
  barLog : t.msix.barLog = s1.msix.barLog
  out : ∃ l, t.outbox = s1.outbox ++ l ∧ ∀ m ∈ l, ∃ v, m = OutMsg.msix v
  heldRegs : t.heldRegs = s1.heldRegs
  pendSets : t.pendSets = s1.pendSets
  caps : t.caps = s1.caps
  holds : t.holds = s1.holds
  mem : t.mem = s1.mem
  bus : t.bus = s1.bus
  free : t.free = s1.free
  cyc : t.cyc = s1.cyc
  acc : t.acc = s1.acc
  emcy : t.emcy = s1.emcy
  epochCyc : t.epochCyc = s1.epochCyc
  acks : t.acks = s1.acks
  cores : t.cores = s1.cores
  pools : t.pools = s1.pools
  kvpQueue : t.kvpQueue = s1.kvpQueue
  plt : t.plt = s1.plt
  migs : t.migs = s1.migs
  tags : t.tags = s1.tags
  poison : t.poison = s1.poison
  scrubSince : t.scrubSince = s1.scrubSince
  psScrubSince : t.psScrubSince = s1.psScrubSince
  pltDisabling : t.pltDisabling = s1.pltDisabling
  sched : t.sched = s1.sched
  fus : t.fus = s1.fus
  batch : t.batch = s1.batch
  trl : t.trl = s1.trl
  loops : t.loops = s1.loops
  destSeen : t.destSeen = s1.destSeen
  grpLast : t.grpLast = s1.grpLast
  wdog : t.wdog = s1.wdog
  tioUnread : t.tioUnread = s1.tioUnread
  pulses : t.pulses = s1.pulses
  cmpLate : t.cmpLate = s1.cmpLate
  stepDue : t.stepDue = s1.stepDue
  stepAt : t.stepAt = s1.stepAt
  rates : t.rates = s1.rates
  srcSeen : t.srcSeen = s1.srcSeen
  lockRun : t.lockRun = s1.lockRun
  rfx : t.rfx = s1.rfx
  lanes : t.lanes = s1.lanes
  segs : t.segs = s1.segs
  ecs : t.ecs = s1.ecs
  eths : t.eths = s1.eths
  cwy : t.cwy = s1.cwy
  secOp : t.secOp = s1.secOp
  pwr : t.pwr = s1.pwr
  telWaiting : t.telWaiting = s1.telWaiting
  lfsr : t.lfsr = s1.lfsr
  burst : t.burst = s1.burst
  vioAt : t.vioAt = s1.vioAt
  cache : t.cache = s1.cache
  held : t.held = s1.held

theorem finishFuses_spec (f : Fuses) (s0 s1 : State) (h : 2 ≤ s0.pwr.phase) :
    ∃ t, finishFuses f s0 s1 = .next t ∧ Settled f s0 s1 t := by
  have l := settle_line s0 s1
  refine ⟨_, by rw [finishFuses, if_neg (by omega)], ?_⟩
  have e := l.rest
  generalize settle s0 s1 = u at *
  constructor
  case rd => exact fun a h1 h2 => l.rd a h1 h2
  case out => exact l.out
  all_goals first | rfl | (simp only; rw [e])

/-- What a command leaves, in a powered state. -/
theorem finish_spec (s0 s1 : State) (h : 2 ≤ s0.pwr.phase) : ∃ t, finish s0 s1 = .next t ∧ Settled s0.fuses s0 s1 t :=
  finishFuses_spec s0.fuses s0 s1 h

/-- Without power nothing happens. -/
theorem finish_off (s0 s1 : State) (h : s0.pwr.phase < 2) : finish s0 s1 = .next s0 := by rw [finish, if_pos h]

/-- A field of a register that settling does not touch. -/
theorem Settled.get {f : Fuses} {s0 s1 t : State} (h : Settled f s0 s1 t) (g : Fld) (h1 : g.addr ≠ DGN_CNT_MERGE)
    (h2 : g.addr ≠ DGN_EVT) : t.get g = s1.get g := by rw [State.get, State.get, h.rd _ h1 h2]

/-- No command fails to answer, and none touches the queue (`finish`). -/
theorem finish_pending (s0 s1 t : State) (h : finish s0 s1 = .next t) : t.pending = s0.pending := by
  rw [finish] at h
  split at h <;> (cases h; rfl)

theorem finish_fuses (s0 s1 t : State) (h : finish s0 s1 = .next t) : t.fuses = s0.fuses := by
  rw [finish] at h
  split at h <;> (cases h; rfl)

end Sys2Proof.Machine
end

