-- ==== Sys2Proof/Laws/State.lean ====
section
/-! SUPPORT. What each named update of State leaves unchanged: one lemma per field per update. -/

namespace Sys2Proof.Machine

open Sys2Proof

section updates

variable (s : State)

/-! ### wr -/

@[simp] theorem State.wr_pending (a : Nat) (v : Word64) : (s.wr a v).pending = s.pending := rfl
@[simp] theorem State.wr_heldRegs (a : Nat) (v : Word64) : (s.wr a v).heldRegs = s.heldRegs := rfl
@[simp] theorem State.wr_pendSets (a : Nat) (v : Word64) : (s.wr a v).pendSets = s.pendSets := rfl
@[simp] theorem State.wr_caps (a : Nat) (v : Word64) : (s.wr a v).caps = s.caps := rfl
@[simp] theorem State.wr_holds (a : Nat) (v : Word64) : (s.wr a v).holds = s.holds := rfl
@[simp] theorem State.wr_mem (a : Nat) (v : Word64) : (s.wr a v).mem = s.mem := rfl
@[simp] theorem State.wr_bus (a : Nat) (v : Word64) : (s.wr a v).bus = s.bus := rfl
@[simp] theorem State.wr_free (a : Nat) (v : Word64) : (s.wr a v).free = s.free := rfl
@[simp] theorem State.wr_cyc (a : Nat) (v : Word64) : (s.wr a v).cyc = s.cyc := rfl
@[simp] theorem State.wr_acc (a : Nat) (v : Word64) : (s.wr a v).acc = s.acc := rfl
@[simp] theorem State.wr_fuses (a : Nat) (v : Word64) : (s.wr a v).fuses = s.fuses := rfl
@[simp] theorem State.wr_icu (a : Nat) (v : Word64) : (s.wr a v).icu = s.icu := rfl
@[simp] theorem State.wr_msix (a : Nat) (v : Word64) : (s.wr a v).msix = s.msix := rfl
@[simp] theorem State.wr_emcy (a : Nat) (v : Word64) : (s.wr a v).emcy = s.emcy := rfl
@[simp] theorem State.wr_epochCyc (a : Nat) (v : Word64) : (s.wr a v).epochCyc = s.epochCyc := rfl
@[simp] theorem State.wr_outbox (a : Nat) (v : Word64) : (s.wr a v).outbox = s.outbox := rfl
@[simp] theorem State.wr_acks (a : Nat) (v : Word64) : (s.wr a v).acks = s.acks := rfl
@[simp] theorem State.wr_cores (a : Nat) (v : Word64) : (s.wr a v).cores = s.cores := rfl
@[simp] theorem State.wr_pools (a : Nat) (v : Word64) : (s.wr a v).pools = s.pools := rfl
@[simp] theorem State.wr_kvpQueue (a : Nat) (v : Word64) : (s.wr a v).kvpQueue = s.kvpQueue := rfl
@[simp] theorem State.wr_plt (a : Nat) (v : Word64) : (s.wr a v).plt = s.plt := rfl
@[simp] theorem State.wr_migs (a : Nat) (v : Word64) : (s.wr a v).migs = s.migs := rfl
@[simp] theorem State.wr_tags (a : Nat) (v : Word64) : (s.wr a v).tags = s.tags := rfl
@[simp] theorem State.wr_poison (a : Nat) (v : Word64) : (s.wr a v).poison = s.poison := rfl
@[simp] theorem State.wr_scrubSince (a : Nat) (v : Word64) : (s.wr a v).scrubSince = s.scrubSince := rfl
@[simp] theorem State.wr_psScrubSince (a : Nat) (v : Word64) : (s.wr a v).psScrubSince = s.psScrubSince := rfl
@[simp] theorem State.wr_pltDisabling (a : Nat) (v : Word64) : (s.wr a v).pltDisabling = s.pltDisabling := rfl
@[simp] theorem State.wr_sched (a : Nat) (v : Word64) : (s.wr a v).sched = s.sched := rfl
@[simp] theorem State.wr_fus (a : Nat) (v : Word64) : (s.wr a v).fus = s.fus := rfl
@[simp] theorem State.wr_batch (a : Nat) (v : Word64) : (s.wr a v).batch = s.batch := rfl
@[simp] theorem State.wr_trl (a : Nat) (v : Word64) : (s.wr a v).trl = s.trl := rfl
@[simp] theorem State.wr_loops (a : Nat) (v : Word64) : (s.wr a v).loops = s.loops := rfl
@[simp] theorem State.wr_destSeen (a : Nat) (v : Word64) : (s.wr a v).destSeen = s.destSeen := rfl
@[simp] theorem State.wr_grpLast (a : Nat) (v : Word64) : (s.wr a v).grpLast = s.grpLast := rfl
@[simp] theorem State.wr_wdog (a : Nat) (v : Word64) : (s.wr a v).wdog = s.wdog := rfl
@[simp] theorem State.wr_tioUnread (a : Nat) (v : Word64) : (s.wr a v).tioUnread = s.tioUnread := rfl
@[simp] theorem State.wr_pulses (a : Nat) (v : Word64) : (s.wr a v).pulses = s.pulses := rfl
@[simp] theorem State.wr_cmpLate (a : Nat) (v : Word64) : (s.wr a v).cmpLate = s.cmpLate := rfl
@[simp] theorem State.wr_stepDue (a : Nat) (v : Word64) : (s.wr a v).stepDue = s.stepDue := rfl
@[simp] theorem State.wr_stepAt (a : Nat) (v : Word64) : (s.wr a v).stepAt = s.stepAt := rfl
@[simp] theorem State.wr_rates (a : Nat) (v : Word64) : (s.wr a v).rates = s.rates := rfl
@[simp] theorem State.wr_srcSeen (a : Nat) (v : Word64) : (s.wr a v).srcSeen = s.srcSeen := rfl
@[simp] theorem State.wr_lockRun (a : Nat) (v : Word64) : (s.wr a v).lockRun = s.lockRun := rfl
@[simp] theorem State.wr_rfx (a : Nat) (v : Word64) : (s.wr a v).rfx = s.rfx := rfl
@[simp] theorem State.wr_lanes (a : Nat) (v : Word64) : (s.wr a v).lanes = s.lanes := rfl
@[simp] theorem State.wr_segs (a : Nat) (v : Word64) : (s.wr a v).segs = s.segs := rfl
@[simp] theorem State.wr_ecs (a : Nat) (v : Word64) : (s.wr a v).ecs = s.ecs := rfl
@[simp] theorem State.wr_eths (a : Nat) (v : Word64) : (s.wr a v).eths = s.eths := rfl
@[simp] theorem State.wr_cwy (a : Nat) (v : Word64) : (s.wr a v).cwy = s.cwy := rfl
@[simp] theorem State.wr_secOp (a : Nat) (v : Word64) : (s.wr a v).secOp = s.secOp := rfl
@[simp] theorem State.wr_pwr (a : Nat) (v : Word64) : (s.wr a v).pwr = s.pwr := rfl
@[simp] theorem State.wr_telWaiting (a : Nat) (v : Word64) : (s.wr a v).telWaiting = s.telWaiting := rfl
@[simp] theorem State.wr_lfsr (a : Nat) (v : Word64) : (s.wr a v).lfsr = s.lfsr := rfl
@[simp] theorem State.wr_burst (a : Nat) (v : Word64) : (s.wr a v).burst = s.burst := rfl
@[simp] theorem State.wr_fresh (a : Nat) (v : Word64) : (s.wr a v).fresh = s.fresh := rfl
@[simp] theorem State.wr_vioAt (a : Nat) (v : Word64) : (s.wr a v).vioAt = s.vioAt := rfl
@[simp] theorem State.wr_cache (a : Nat) (v : Word64) : (s.wr a v).cache = s.cache := rfl
@[simp] theorem State.wr_held (a : Nat) (v : Word64) : (s.wr a v).held = s.held := rfl

/-! ### put -/

@[simp] theorem State.put_pending (f : Fld) (v : Nat) : (s.put f v).pending = s.pending := rfl
@[simp] theorem State.put_heldRegs (f : Fld) (v : Nat) : (s.put f v).heldRegs = s.heldRegs := rfl
@[simp] theorem State.put_pendSets (f : Fld) (v : Nat) : (s.put f v).pendSets = s.pendSets := rfl
@[simp] theorem State.put_caps (f : Fld) (v : Nat) : (s.put f v).caps = s.caps := rfl
@[simp] theorem State.put_holds (f : Fld) (v : Nat) : (s.put f v).holds = s.holds := rfl
@[simp] theorem State.put_mem (f : Fld) (v : Nat) : (s.put f v).mem = s.mem := rfl
@[simp] theorem State.put_bus (f : Fld) (v : Nat) : (s.put f v).bus = s.bus := rfl
@[simp] theorem State.put_free (f : Fld) (v : Nat) : (s.put f v).free = s.free := rfl
@[simp] theorem State.put_cyc (f : Fld) (v : Nat) : (s.put f v).cyc = s.cyc := rfl
@[simp] theorem State.put_acc (f : Fld) (v : Nat) : (s.put f v).acc = s.acc := rfl
@[simp] theorem State.put_fuses (f : Fld) (v : Nat) : (s.put f v).fuses = s.fuses := rfl
@[simp] theorem State.put_icu (f : Fld) (v : Nat) : (s.put f v).icu = s.icu := rfl
@[simp] theorem State.put_msix (f : Fld) (v : Nat) : (s.put f v).msix = s.msix := rfl
@[simp] theorem State.put_emcy (f : Fld) (v : Nat) : (s.put f v).emcy = s.emcy := rfl
@[simp] theorem State.put_epochCyc (f : Fld) (v : Nat) : (s.put f v).epochCyc = s.epochCyc := rfl
@[simp] theorem State.put_outbox (f : Fld) (v : Nat) : (s.put f v).outbox = s.outbox := rfl
@[simp] theorem State.put_acks (f : Fld) (v : Nat) : (s.put f v).acks = s.acks := rfl
@[simp] theorem State.put_cores (f : Fld) (v : Nat) : (s.put f v).cores = s.cores := rfl
@[simp] theorem State.put_pools (f : Fld) (v : Nat) : (s.put f v).pools = s.pools := rfl
@[simp] theorem State.put_kvpQueue (f : Fld) (v : Nat) : (s.put f v).kvpQueue = s.kvpQueue := rfl
@[simp] theorem State.put_plt (f : Fld) (v : Nat) : (s.put f v).plt = s.plt := rfl
@[simp] theorem State.put_migs (f : Fld) (v : Nat) : (s.put f v).migs = s.migs := rfl
@[simp] theorem State.put_tags (f : Fld) (v : Nat) : (s.put f v).tags = s.tags := rfl
@[simp] theorem State.put_poison (f : Fld) (v : Nat) : (s.put f v).poison = s.poison := rfl
@[simp] theorem State.put_scrubSince (f : Fld) (v : Nat) : (s.put f v).scrubSince = s.scrubSince := rfl
@[simp] theorem State.put_psScrubSince (f : Fld) (v : Nat) : (s.put f v).psScrubSince = s.psScrubSince := rfl
@[simp] theorem State.put_pltDisabling (f : Fld) (v : Nat) : (s.put f v).pltDisabling = s.pltDisabling := rfl
@[simp] theorem State.put_sched (f : Fld) (v : Nat) : (s.put f v).sched = s.sched := rfl
@[simp] theorem State.put_fus (f : Fld) (v : Nat) : (s.put f v).fus = s.fus := rfl
@[simp] theorem State.put_batch (f : Fld) (v : Nat) : (s.put f v).batch = s.batch := rfl
@[simp] theorem State.put_trl (f : Fld) (v : Nat) : (s.put f v).trl = s.trl := rfl
@[simp] theorem State.put_loops (f : Fld) (v : Nat) : (s.put f v).loops = s.loops := rfl
@[simp] theorem State.put_destSeen (f : Fld) (v : Nat) : (s.put f v).destSeen = s.destSeen := rfl
@[simp] theorem State.put_grpLast (f : Fld) (v : Nat) : (s.put f v).grpLast = s.grpLast := rfl
@[simp] theorem State.put_wdog (f : Fld) (v : Nat) : (s.put f v).wdog = s.wdog := rfl
@[simp] theorem State.put_tioUnread (f : Fld) (v : Nat) : (s.put f v).tioUnread = s.tioUnread := rfl
@[simp] theorem State.put_pulses (f : Fld) (v : Nat) : (s.put f v).pulses = s.pulses := rfl
@[simp] theorem State.put_cmpLate (f : Fld) (v : Nat) : (s.put f v).cmpLate = s.cmpLate := rfl
@[simp] theorem State.put_stepDue (f : Fld) (v : Nat) : (s.put f v).stepDue = s.stepDue := rfl
@[simp] theorem State.put_stepAt (f : Fld) (v : Nat) : (s.put f v).stepAt = s.stepAt := rfl
@[simp] theorem State.put_rates (f : Fld) (v : Nat) : (s.put f v).rates = s.rates := rfl
@[simp] theorem State.put_srcSeen (f : Fld) (v : Nat) : (s.put f v).srcSeen = s.srcSeen := rfl
@[simp] theorem State.put_lockRun (f : Fld) (v : Nat) : (s.put f v).lockRun = s.lockRun := rfl
@[simp] theorem State.put_rfx (f : Fld) (v : Nat) : (s.put f v).rfx = s.rfx := rfl
@[simp] theorem State.put_lanes (f : Fld) (v : Nat) : (s.put f v).lanes = s.lanes := rfl
@[simp] theorem State.put_segs (f : Fld) (v : Nat) : (s.put f v).segs = s.segs := rfl
@[simp] theorem State.put_ecs (f : Fld) (v : Nat) : (s.put f v).ecs = s.ecs := rfl
@[simp] theorem State.put_eths (f : Fld) (v : Nat) : (s.put f v).eths = s.eths := rfl
@[simp] theorem State.put_cwy (f : Fld) (v : Nat) : (s.put f v).cwy = s.cwy := rfl
@[simp] theorem State.put_secOp (f : Fld) (v : Nat) : (s.put f v).secOp = s.secOp := rfl
@[simp] theorem State.put_pwr (f : Fld) (v : Nat) : (s.put f v).pwr = s.pwr := rfl
@[simp] theorem State.put_telWaiting (f : Fld) (v : Nat) : (s.put f v).telWaiting = s.telWaiting := rfl
@[simp] theorem State.put_lfsr (f : Fld) (v : Nat) : (s.put f v).lfsr = s.lfsr := rfl
@[simp] theorem State.put_burst (f : Fld) (v : Nat) : (s.put f v).burst = s.burst := rfl
@[simp] theorem State.put_fresh (f : Fld) (v : Nat) : (s.put f v).fresh = s.fresh := rfl
@[simp] theorem State.put_vioAt (f : Fld) (v : Nat) : (s.put f v).vioAt = s.vioAt := rfl
@[simp] theorem State.put_cache (f : Fld) (v : Nat) : (s.put f v).cache = s.cache := rfl
@[simp] theorem State.put_held (f : Fld) (v : Nat) : (s.put f v).held = s.held := rfl

/-! ### setOn -/

@[simp] theorem State.setOn_pending (f : Fld) : (s.setOn f).pending = s.pending := rfl
@[simp] theorem State.setOn_heldRegs (f : Fld) : (s.setOn f).heldRegs = s.heldRegs := rfl
@[simp] theorem State.setOn_pendSets (f : Fld) : (s.setOn f).pendSets = s.pendSets := rfl
@[simp] theorem State.setOn_caps (f : Fld) : (s.setOn f).caps = s.caps := rfl
@[simp] theorem State.setOn_holds (f : Fld) : (s.setOn f).holds = s.holds := rfl
@[simp] theorem State.setOn_mem (f : Fld) : (s.setOn f).mem = s.mem := rfl
@[simp] theorem State.setOn_bus (f : Fld) : (s.setOn f).bus = s.bus := rfl
@[simp] theorem State.setOn_free (f : Fld) : (s.setOn f).free = s.free := rfl
@[simp] theorem State.setOn_cyc (f : Fld) : (s.setOn f).cyc = s.cyc := rfl
@[simp] theorem State.setOn_acc (f : Fld) : (s.setOn f).acc = s.acc := rfl
@[simp] theorem State.setOn_fuses (f : Fld) : (s.setOn f).fuses = s.fuses := rfl
@[simp] theorem State.setOn_icu (f : Fld) : (s.setOn f).icu = s.icu := rfl
@[simp] theorem State.setOn_msix (f : Fld) : (s.setOn f).msix = s.msix := rfl
@[simp] theorem State.setOn_emcy (f : Fld) : (s.setOn f).emcy = s.emcy := rfl
@[simp] theorem State.setOn_epochCyc (f : Fld) : (s.setOn f).epochCyc = s.epochCyc := rfl
@[simp] theorem State.setOn_outbox (f : Fld) : (s.setOn f).outbox = s.outbox := rfl
@[simp] theorem State.setOn_acks (f : Fld) : (s.setOn f).acks = s.acks := rfl
@[simp] theorem State.setOn_cores (f : Fld) : (s.setOn f).cores = s.cores := rfl
@[simp] theorem State.setOn_pools (f : Fld) : (s.setOn f).pools = s.pools := rfl
@[simp] theorem State.setOn_kvpQueue (f : Fld) : (s.setOn f).kvpQueue = s.kvpQueue := rfl
@[simp] theorem State.setOn_plt (f : Fld) : (s.setOn f).plt = s.plt := rfl
@[simp] theorem State.setOn_migs (f : Fld) : (s.setOn f).migs = s.migs := rfl
@[simp] theorem State.setOn_tags (f : Fld) : (s.setOn f).tags = s.tags := rfl
@[simp] theorem State.setOn_poison (f : Fld) : (s.setOn f).poison = s.poison := rfl
@[simp] theorem State.setOn_scrubSince (f : Fld) : (s.setOn f).scrubSince = s.scrubSince := rfl
@[simp] theorem State.setOn_psScrubSince (f : Fld) : (s.setOn f).psScrubSince = s.psScrubSince := rfl
@[simp] theorem State.setOn_pltDisabling (f : Fld) : (s.setOn f).pltDisabling = s.pltDisabling := rfl
@[simp] theorem State.setOn_sched (f : Fld) : (s.setOn f).sched = s.sched := rfl
@[simp] theorem State.setOn_fus (f : Fld) : (s.setOn f).fus = s.fus := rfl
@[simp] theorem State.setOn_batch (f : Fld) : (s.setOn f).batch = s.batch := rfl
@[simp] theorem State.setOn_trl (f : Fld) : (s.setOn f).trl = s.trl := rfl
@[simp] theorem State.setOn_loops (f : Fld) : (s.setOn f).loops = s.loops := rfl
@[simp] theorem State.setOn_destSeen (f : Fld) : (s.setOn f).destSeen = s.destSeen := rfl
@[simp] theorem State.setOn_grpLast (f : Fld) : (s.setOn f).grpLast = s.grpLast := rfl
@[simp] theorem State.setOn_wdog (f : Fld) : (s.setOn f).wdog = s.wdog := rfl
@[simp] theorem State.setOn_tioUnread (f : Fld) : (s.setOn f).tioUnread = s.tioUnread := rfl
@[simp] theorem State.setOn_pulses (f : Fld) : (s.setOn f).pulses = s.pulses := rfl
@[simp] theorem State.setOn_cmpLate (f : Fld) : (s.setOn f).cmpLate = s.cmpLate := rfl
@[simp] theorem State.setOn_stepDue (f : Fld) : (s.setOn f).stepDue = s.stepDue := rfl
@[simp] theorem State.setOn_stepAt (f : Fld) : (s.setOn f).stepAt = s.stepAt := rfl
@[simp] theorem State.setOn_rates (f : Fld) : (s.setOn f).rates = s.rates := rfl
@[simp] theorem State.setOn_srcSeen (f : Fld) : (s.setOn f).srcSeen = s.srcSeen := rfl
@[simp] theorem State.setOn_lockRun (f : Fld) : (s.setOn f).lockRun = s.lockRun := rfl
@[simp] theorem State.setOn_rfx (f : Fld) : (s.setOn f).rfx = s.rfx := rfl
@[simp] theorem State.setOn_lanes (f : Fld) : (s.setOn f).lanes = s.lanes := rfl
@[simp] theorem State.setOn_segs (f : Fld) : (s.setOn f).segs = s.segs := rfl
@[simp] theorem State.setOn_ecs (f : Fld) : (s.setOn f).ecs = s.ecs := rfl
@[simp] theorem State.setOn_eths (f : Fld) : (s.setOn f).eths = s.eths := rfl
@[simp] theorem State.setOn_cwy (f : Fld) : (s.setOn f).cwy = s.cwy := rfl
@[simp] theorem State.setOn_secOp (f : Fld) : (s.setOn f).secOp = s.secOp := rfl
@[simp] theorem State.setOn_pwr (f : Fld) : (s.setOn f).pwr = s.pwr := rfl
@[simp] theorem State.setOn_telWaiting (f : Fld) : (s.setOn f).telWaiting = s.telWaiting := rfl
@[simp] theorem State.setOn_lfsr (f : Fld) : (s.setOn f).lfsr = s.lfsr := rfl
@[simp] theorem State.setOn_burst (f : Fld) : (s.setOn f).burst = s.burst := rfl
@[simp] theorem State.setOn_vioAt (f : Fld) : (s.setOn f).vioAt = s.vioAt := rfl
@[simp] theorem State.setOn_cache (f : Fld) : (s.setOn f).cache = s.cache := rfl
@[simp] theorem State.setOn_held (f : Fld) : (s.setOn f).held = s.held := rfl

/-! ### setOff -/

@[simp] theorem State.setOff_pending (f : Fld) : (s.setOff f).pending = s.pending := rfl
@[simp] theorem State.setOff_heldRegs (f : Fld) : (s.setOff f).heldRegs = s.heldRegs := rfl
@[simp] theorem State.setOff_pendSets (f : Fld) : (s.setOff f).pendSets = s.pendSets := rfl
@[simp] theorem State.setOff_caps (f : Fld) : (s.setOff f).caps = s.caps := rfl
@[simp] theorem State.setOff_holds (f : Fld) : (s.setOff f).holds = s.holds := rfl
@[simp] theorem State.setOff_mem (f : Fld) : (s.setOff f).mem = s.mem := rfl
@[simp] theorem State.setOff_bus (f : Fld) : (s.setOff f).bus = s.bus := rfl
@[simp] theorem State.setOff_free (f : Fld) : (s.setOff f).free = s.free := rfl
@[simp] theorem State.setOff_cyc (f : Fld) : (s.setOff f).cyc = s.cyc := rfl
@[simp] theorem State.setOff_acc (f : Fld) : (s.setOff f).acc = s.acc := rfl
@[simp] theorem State.setOff_fuses (f : Fld) : (s.setOff f).fuses = s.fuses := rfl
@[simp] theorem State.setOff_icu (f : Fld) : (s.setOff f).icu = s.icu := rfl
@[simp] theorem State.setOff_msix (f : Fld) : (s.setOff f).msix = s.msix := rfl
@[simp] theorem State.setOff_emcy (f : Fld) : (s.setOff f).emcy = s.emcy := rfl
@[simp] theorem State.setOff_epochCyc (f : Fld) : (s.setOff f).epochCyc = s.epochCyc := rfl
@[simp] theorem State.setOff_outbox (f : Fld) : (s.setOff f).outbox = s.outbox := rfl
@[simp] theorem State.setOff_acks (f : Fld) : (s.setOff f).acks = s.acks := rfl
@[simp] theorem State.setOff_cores (f : Fld) : (s.setOff f).cores = s.cores := rfl
@[simp] theorem State.setOff_pools (f : Fld) : (s.setOff f).pools = s.pools := rfl
@[simp] theorem State.setOff_kvpQueue (f : Fld) : (s.setOff f).kvpQueue = s.kvpQueue := rfl
@[simp] theorem State.setOff_plt (f : Fld) : (s.setOff f).plt = s.plt := rfl
@[simp] theorem State.setOff_migs (f : Fld) : (s.setOff f).migs = s.migs := rfl
@[simp] theorem State.setOff_tags (f : Fld) : (s.setOff f).tags = s.tags := rfl
@[simp] theorem State.setOff_poison (f : Fld) : (s.setOff f).poison = s.poison := rfl
@[simp] theorem State.setOff_scrubSince (f : Fld) : (s.setOff f).scrubSince = s.scrubSince := rfl
@[simp] theorem State.setOff_psScrubSince (f : Fld) : (s.setOff f).psScrubSince = s.psScrubSince := rfl
@[simp] theorem State.setOff_pltDisabling (f : Fld) : (s.setOff f).pltDisabling = s.pltDisabling := rfl
@[simp] theorem State.setOff_sched (f : Fld) : (s.setOff f).sched = s.sched := rfl
@[simp] theorem State.setOff_fus (f : Fld) : (s.setOff f).fus = s.fus := rfl
@[simp] theorem State.setOff_batch (f : Fld) : (s.setOff f).batch = s.batch := rfl
@[simp] theorem State.setOff_trl (f : Fld) : (s.setOff f).trl = s.trl := rfl
@[simp] theorem State.setOff_loops (f : Fld) : (s.setOff f).loops = s.loops := rfl
@[simp] theorem State.setOff_destSeen (f : Fld) : (s.setOff f).destSeen = s.destSeen := rfl
@[simp] theorem State.setOff_grpLast (f : Fld) : (s.setOff f).grpLast = s.grpLast := rfl
@[simp] theorem State.setOff_wdog (f : Fld) : (s.setOff f).wdog = s.wdog := rfl
@[simp] theorem State.setOff_tioUnread (f : Fld) : (s.setOff f).tioUnread = s.tioUnread := rfl
@[simp] theorem State.setOff_pulses (f : Fld) : (s.setOff f).pulses = s.pulses := rfl
@[simp] theorem State.setOff_cmpLate (f : Fld) : (s.setOff f).cmpLate = s.cmpLate := rfl
@[simp] theorem State.setOff_stepDue (f : Fld) : (s.setOff f).stepDue = s.stepDue := rfl
@[simp] theorem State.setOff_stepAt (f : Fld) : (s.setOff f).stepAt = s.stepAt := rfl
@[simp] theorem State.setOff_rates (f : Fld) : (s.setOff f).rates = s.rates := rfl
@[simp] theorem State.setOff_srcSeen (f : Fld) : (s.setOff f).srcSeen = s.srcSeen := rfl
@[simp] theorem State.setOff_lockRun (f : Fld) : (s.setOff f).lockRun = s.lockRun := rfl
@[simp] theorem State.setOff_rfx (f : Fld) : (s.setOff f).rfx = s.rfx := rfl
@[simp] theorem State.setOff_lanes (f : Fld) : (s.setOff f).lanes = s.lanes := rfl
@[simp] theorem State.setOff_segs (f : Fld) : (s.setOff f).segs = s.segs := rfl
@[simp] theorem State.setOff_ecs (f : Fld) : (s.setOff f).ecs = s.ecs := rfl
@[simp] theorem State.setOff_eths (f : Fld) : (s.setOff f).eths = s.eths := rfl
@[simp] theorem State.setOff_cwy (f : Fld) : (s.setOff f).cwy = s.cwy := rfl
@[simp] theorem State.setOff_secOp (f : Fld) : (s.setOff f).secOp = s.secOp := rfl
@[simp] theorem State.setOff_pwr (f : Fld) : (s.setOff f).pwr = s.pwr := rfl
@[simp] theorem State.setOff_telWaiting (f : Fld) : (s.setOff f).telWaiting = s.telWaiting := rfl
@[simp] theorem State.setOff_lfsr (f : Fld) : (s.setOff f).lfsr = s.lfsr := rfl
@[simp] theorem State.setOff_burst (f : Fld) : (s.setOff f).burst = s.burst := rfl
@[simp] theorem State.setOff_fresh (f : Fld) : (s.setOff f).fresh = s.fresh := rfl
@[simp] theorem State.setOff_vioAt (f : Fld) : (s.setOff f).vioAt = s.vioAt := rfl
@[simp] theorem State.setOff_cache (f : Fld) : (s.setOff f).cache = s.cache := rfl
@[simp] theorem State.setOff_held (f : Fld) : (s.setOff f).held = s.held := rfl

/-! ### raise -/

@[simp] theorem State.raise_pending (f : Fld) (b : Nat) : (s.raise f b).pending = s.pending := rfl
@[simp] theorem State.raise_heldRegs (f : Fld) (b : Nat) : (s.raise f b).heldRegs = s.heldRegs := rfl
@[simp] theorem State.raise_pendSets (f : Fld) (b : Nat) : (s.raise f b).pendSets = s.pendSets := rfl
@[simp] theorem State.raise_caps (f : Fld) (b : Nat) : (s.raise f b).caps = s.caps := rfl
@[simp] theorem State.raise_holds (f : Fld) (b : Nat) : (s.raise f b).holds = s.holds := rfl
@[simp] theorem State.raise_mem (f : Fld) (b : Nat) : (s.raise f b).mem = s.mem := rfl
@[simp] theorem State.raise_bus (f : Fld) (b : Nat) : (s.raise f b).bus = s.bus := rfl
@[simp] theorem State.raise_free (f : Fld) (b : Nat) : (s.raise f b).free = s.free := rfl
@[simp] theorem State.raise_cyc (f : Fld) (b : Nat) : (s.raise f b).cyc = s.cyc := rfl
@[simp] theorem State.raise_acc (f : Fld) (b : Nat) : (s.raise f b).acc = s.acc := rfl
@[simp] theorem State.raise_fuses (f : Fld) (b : Nat) : (s.raise f b).fuses = s.fuses := rfl
@[simp] theorem State.raise_icu (f : Fld) (b : Nat) : (s.raise f b).icu = s.icu := rfl
@[simp] theorem State.raise_msix (f : Fld) (b : Nat) : (s.raise f b).msix = s.msix := rfl
@[simp] theorem State.raise_emcy (f : Fld) (b : Nat) : (s.raise f b).emcy = s.emcy := rfl
@[simp] theorem State.raise_epochCyc (f : Fld) (b : Nat) : (s.raise f b).epochCyc = s.epochCyc := rfl
@[simp] theorem State.raise_outbox (f : Fld) (b : Nat) : (s.raise f b).outbox = s.outbox := rfl
@[simp] theorem State.raise_acks (f : Fld) (b : Nat) : (s.raise f b).acks = s.acks := rfl
@[simp] theorem State.raise_cores (f : Fld) (b : Nat) : (s.raise f b).cores = s.cores := rfl
@[simp] theorem State.raise_pools (f : Fld) (b : Nat) : (s.raise f b).pools = s.pools := rfl
@[simp] theorem State.raise_kvpQueue (f : Fld) (b : Nat) : (s.raise f b).kvpQueue = s.kvpQueue := rfl
@[simp] theorem State.raise_plt (f : Fld) (b : Nat) : (s.raise f b).plt = s.plt := rfl
@[simp] theorem State.raise_migs (f : Fld) (b : Nat) : (s.raise f b).migs = s.migs := rfl
@[simp] theorem State.raise_tags (f : Fld) (b : Nat) : (s.raise f b).tags = s.tags := rfl
@[simp] theorem State.raise_poison (f : Fld) (b : Nat) : (s.raise f b).poison = s.poison := rfl
@[simp] theorem State.raise_scrubSince (f : Fld) (b : Nat) : (s.raise f b).scrubSince = s.scrubSince := rfl
@[simp] theorem State.raise_psScrubSince (f : Fld) (b : Nat) : (s.raise f b).psScrubSince = s.psScrubSince := rfl
@[simp] theorem State.raise_pltDisabling (f : Fld) (b : Nat) : (s.raise f b).pltDisabling = s.pltDisabling := rfl
@[simp] theorem State.raise_sched (f : Fld) (b : Nat) : (s.raise f b).sched = s.sched := rfl
@[simp] theorem State.raise_fus (f : Fld) (b : Nat) : (s.raise f b).fus = s.fus := rfl
@[simp] theorem State.raise_batch (f : Fld) (b : Nat) : (s.raise f b).batch = s.batch := rfl
@[simp] theorem State.raise_trl (f : Fld) (b : Nat) : (s.raise f b).trl = s.trl := rfl
@[simp] theorem State.raise_loops (f : Fld) (b : Nat) : (s.raise f b).loops = s.loops := rfl
@[simp] theorem State.raise_destSeen (f : Fld) (b : Nat) : (s.raise f b).destSeen = s.destSeen := rfl
@[simp] theorem State.raise_grpLast (f : Fld) (b : Nat) : (s.raise f b).grpLast = s.grpLast := rfl
@[simp] theorem State.raise_wdog (f : Fld) (b : Nat) : (s.raise f b).wdog = s.wdog := rfl
@[simp] theorem State.raise_tioUnread (f : Fld) (b : Nat) : (s.raise f b).tioUnread = s.tioUnread := rfl
@[simp] theorem State.raise_pulses (f : Fld) (b : Nat) : (s.raise f b).pulses = s.pulses := rfl
@[simp] theorem State.raise_cmpLate (f : Fld) (b : Nat) : (s.raise f b).cmpLate = s.cmpLate := rfl
@[simp] theorem State.raise_stepDue (f : Fld) (b : Nat) : (s.raise f b).stepDue = s.stepDue := rfl
@[simp] theorem State.raise_stepAt (f : Fld) (b : Nat) : (s.raise f b).stepAt = s.stepAt := rfl
@[simp] theorem State.raise_rates (f : Fld) (b : Nat) : (s.raise f b).rates = s.rates := rfl
@[simp] theorem State.raise_srcSeen (f : Fld) (b : Nat) : (s.raise f b).srcSeen = s.srcSeen := rfl
@[simp] theorem State.raise_lockRun (f : Fld) (b : Nat) : (s.raise f b).lockRun = s.lockRun := rfl
@[simp] theorem State.raise_rfx (f : Fld) (b : Nat) : (s.raise f b).rfx = s.rfx := rfl
@[simp] theorem State.raise_lanes (f : Fld) (b : Nat) : (s.raise f b).lanes = s.lanes := rfl
@[simp] theorem State.raise_segs (f : Fld) (b : Nat) : (s.raise f b).segs = s.segs := rfl
@[simp] theorem State.raise_ecs (f : Fld) (b : Nat) : (s.raise f b).ecs = s.ecs := rfl
@[simp] theorem State.raise_eths (f : Fld) (b : Nat) : (s.raise f b).eths = s.eths := rfl
@[simp] theorem State.raise_cwy (f : Fld) (b : Nat) : (s.raise f b).cwy = s.cwy := rfl
@[simp] theorem State.raise_secOp (f : Fld) (b : Nat) : (s.raise f b).secOp = s.secOp := rfl
@[simp] theorem State.raise_pwr (f : Fld) (b : Nat) : (s.raise f b).pwr = s.pwr := rfl
@[simp] theorem State.raise_telWaiting (f : Fld) (b : Nat) : (s.raise f b).telWaiting = s.telWaiting := rfl
@[simp] theorem State.raise_lfsr (f : Fld) (b : Nat) : (s.raise f b).lfsr = s.lfsr := rfl
@[simp] theorem State.raise_burst (f : Fld) (b : Nat) : (s.raise f b).burst = s.burst := rfl
@[simp] theorem State.raise_vioAt (f : Fld) (b : Nat) : (s.raise f b).vioAt = s.vioAt := rfl
@[simp] theorem State.raise_cache (f : Fld) (b : Nat) : (s.raise f b).cache = s.cache := rfl
@[simp] theorem State.raise_held (f : Fld) (b : Nat) : (s.raise f b).held = s.held := rfl

/-! ### count -/

@[simp] theorem State.count_pending (f : Fld) (d : Nat) : (s.count f d).pending = s.pending := rfl
@[simp] theorem State.count_heldRegs (f : Fld) (d : Nat) : (s.count f d).heldRegs = s.heldRegs := rfl
@[simp] theorem State.count_pendSets (f : Fld) (d : Nat) : (s.count f d).pendSets = s.pendSets := rfl
@[simp] theorem State.count_caps (f : Fld) (d : Nat) : (s.count f d).caps = s.caps := rfl
@[simp] theorem State.count_holds (f : Fld) (d : Nat) : (s.count f d).holds = s.holds := rfl
@[simp] theorem State.count_mem (f : Fld) (d : Nat) : (s.count f d).mem = s.mem := rfl
@[simp] theorem State.count_bus (f : Fld) (d : Nat) : (s.count f d).bus = s.bus := rfl
@[simp] theorem State.count_free (f : Fld) (d : Nat) : (s.count f d).free = s.free := rfl
@[simp] theorem State.count_cyc (f : Fld) (d : Nat) : (s.count f d).cyc = s.cyc := rfl
@[simp] theorem State.count_acc (f : Fld) (d : Nat) : (s.count f d).acc = s.acc := rfl
@[simp] theorem State.count_fuses (f : Fld) (d : Nat) : (s.count f d).fuses = s.fuses := rfl
@[simp] theorem State.count_icu (f : Fld) (d : Nat) : (s.count f d).icu = s.icu := rfl
@[simp] theorem State.count_msix (f : Fld) (d : Nat) : (s.count f d).msix = s.msix := rfl
@[simp] theorem State.count_emcy (f : Fld) (d : Nat) : (s.count f d).emcy = s.emcy := rfl
@[simp] theorem State.count_epochCyc (f : Fld) (d : Nat) : (s.count f d).epochCyc = s.epochCyc := rfl
@[simp] theorem State.count_outbox (f : Fld) (d : Nat) : (s.count f d).outbox = s.outbox := rfl
@[simp] theorem State.count_acks (f : Fld) (d : Nat) : (s.count f d).acks = s.acks := rfl
@[simp] theorem State.count_cores (f : Fld) (d : Nat) : (s.count f d).cores = s.cores := rfl
@[simp] theorem State.count_pools (f : Fld) (d : Nat) : (s.count f d).pools = s.pools := rfl
@[simp] theorem State.count_kvpQueue (f : Fld) (d : Nat) : (s.count f d).kvpQueue = s.kvpQueue := rfl
@[simp] theorem State.count_plt (f : Fld) (d : Nat) : (s.count f d).plt = s.plt := rfl
@[simp] theorem State.count_migs (f : Fld) (d : Nat) : (s.count f d).migs = s.migs := rfl
@[simp] theorem State.count_tags (f : Fld) (d : Nat) : (s.count f d).tags = s.tags := rfl
@[simp] theorem State.count_poison (f : Fld) (d : Nat) : (s.count f d).poison = s.poison := rfl
@[simp] theorem State.count_scrubSince (f : Fld) (d : Nat) : (s.count f d).scrubSince = s.scrubSince := rfl
@[simp] theorem State.count_psScrubSince (f : Fld) (d : Nat) : (s.count f d).psScrubSince = s.psScrubSince := rfl
@[simp] theorem State.count_pltDisabling (f : Fld) (d : Nat) : (s.count f d).pltDisabling = s.pltDisabling := rfl
@[simp] theorem State.count_sched (f : Fld) (d : Nat) : (s.count f d).sched = s.sched := rfl
@[simp] theorem State.count_fus (f : Fld) (d : Nat) : (s.count f d).fus = s.fus := rfl
@[simp] theorem State.count_batch (f : Fld) (d : Nat) : (s.count f d).batch = s.batch := rfl
@[simp] theorem State.count_trl (f : Fld) (d : Nat) : (s.count f d).trl = s.trl := rfl
@[simp] theorem State.count_loops (f : Fld) (d : Nat) : (s.count f d).loops = s.loops := rfl
@[simp] theorem State.count_destSeen (f : Fld) (d : Nat) : (s.count f d).destSeen = s.destSeen := rfl
@[simp] theorem State.count_grpLast (f : Fld) (d : Nat) : (s.count f d).grpLast = s.grpLast := rfl
@[simp] theorem State.count_wdog (f : Fld) (d : Nat) : (s.count f d).wdog = s.wdog := rfl
@[simp] theorem State.count_tioUnread (f : Fld) (d : Nat) : (s.count f d).tioUnread = s.tioUnread := rfl
@[simp] theorem State.count_pulses (f : Fld) (d : Nat) : (s.count f d).pulses = s.pulses := rfl
@[simp] theorem State.count_cmpLate (f : Fld) (d : Nat) : (s.count f d).cmpLate = s.cmpLate := rfl
@[simp] theorem State.count_stepDue (f : Fld) (d : Nat) : (s.count f d).stepDue = s.stepDue := rfl
@[simp] theorem State.count_stepAt (f : Fld) (d : Nat) : (s.count f d).stepAt = s.stepAt := rfl
@[simp] theorem State.count_rates (f : Fld) (d : Nat) : (s.count f d).rates = s.rates := rfl
@[simp] theorem State.count_srcSeen (f : Fld) (d : Nat) : (s.count f d).srcSeen = s.srcSeen := rfl
@[simp] theorem State.count_lockRun (f : Fld) (d : Nat) : (s.count f d).lockRun = s.lockRun := rfl
@[simp] theorem State.count_rfx (f : Fld) (d : Nat) : (s.count f d).rfx = s.rfx := rfl
@[simp] theorem State.count_lanes (f : Fld) (d : Nat) : (s.count f d).lanes = s.lanes := rfl
@[simp] theorem State.count_segs (f : Fld) (d : Nat) : (s.count f d).segs = s.segs := rfl
@[simp] theorem State.count_ecs (f : Fld) (d : Nat) : (s.count f d).ecs = s.ecs := rfl
@[simp] theorem State.count_eths (f : Fld) (d : Nat) : (s.count f d).eths = s.eths := rfl
@[simp] theorem State.count_cwy (f : Fld) (d : Nat) : (s.count f d).cwy = s.cwy := rfl
@[simp] theorem State.count_secOp (f : Fld) (d : Nat) : (s.count f d).secOp = s.secOp := rfl
@[simp] theorem State.count_pwr (f : Fld) (d : Nat) : (s.count f d).pwr = s.pwr := rfl
@[simp] theorem State.count_telWaiting (f : Fld) (d : Nat) : (s.count f d).telWaiting = s.telWaiting := rfl
@[simp] theorem State.count_lfsr (f : Fld) (d : Nat) : (s.count f d).lfsr = s.lfsr := rfl
@[simp] theorem State.count_burst (f : Fld) (d : Nat) : (s.count f d).burst = s.burst := rfl
@[simp] theorem State.count_fresh (f : Fld) (d : Nat) : (s.count f d).fresh = s.fresh := rfl
@[simp] theorem State.count_vioAt (f : Fld) (d : Nat) : (s.count f d).vioAt = s.vioAt := rfl
@[simp] theorem State.count_cache (f : Fld) (d : Nat) : (s.count f d).cache = s.cache := rfl
@[simp] theorem State.count_held (f : Fld) (d : Nat) : (s.count f d).held = s.held := rfl

/-! ### countWrap -/

@[simp] theorem State.countWrap_pending (f : Fld) (d : Nat) : (s.countWrap f d).pending = s.pending := rfl
@[simp] theorem State.countWrap_heldRegs (f : Fld) (d : Nat) : (s.countWrap f d).heldRegs = s.heldRegs := rfl
@[simp] theorem State.countWrap_pendSets (f : Fld) (d : Nat) : (s.countWrap f d).pendSets = s.pendSets := rfl
@[simp] theorem State.countWrap_caps (f : Fld) (d : Nat) : (s.countWrap f d).caps = s.caps := rfl
@[simp] theorem State.countWrap_holds (f : Fld) (d : Nat) : (s.countWrap f d).holds = s.holds := rfl
@[simp] theorem State.countWrap_mem (f : Fld) (d : Nat) : (s.countWrap f d).mem = s.mem := rfl
@[simp] theorem State.countWrap_bus (f : Fld) (d : Nat) : (s.countWrap f d).bus = s.bus := rfl
@[simp] theorem State.countWrap_free (f : Fld) (d : Nat) : (s.countWrap f d).free = s.free := rfl
@[simp] theorem State.countWrap_cyc (f : Fld) (d : Nat) : (s.countWrap f d).cyc = s.cyc := rfl
@[simp] theorem State.countWrap_acc (f : Fld) (d : Nat) : (s.countWrap f d).acc = s.acc := rfl
@[simp] theorem State.countWrap_fuses (f : Fld) (d : Nat) : (s.countWrap f d).fuses = s.fuses := rfl
@[simp] theorem State.countWrap_icu (f : Fld) (d : Nat) : (s.countWrap f d).icu = s.icu := rfl
@[simp] theorem State.countWrap_msix (f : Fld) (d : Nat) : (s.countWrap f d).msix = s.msix := rfl
@[simp] theorem State.countWrap_emcy (f : Fld) (d : Nat) : (s.countWrap f d).emcy = s.emcy := rfl
@[simp] theorem State.countWrap_epochCyc (f : Fld) (d : Nat) : (s.countWrap f d).epochCyc = s.epochCyc := rfl
@[simp] theorem State.countWrap_outbox (f : Fld) (d : Nat) : (s.countWrap f d).outbox = s.outbox := rfl
@[simp] theorem State.countWrap_acks (f : Fld) (d : Nat) : (s.countWrap f d).acks = s.acks := rfl
@[simp] theorem State.countWrap_cores (f : Fld) (d : Nat) : (s.countWrap f d).cores = s.cores := rfl
@[simp] theorem State.countWrap_pools (f : Fld) (d : Nat) : (s.countWrap f d).pools = s.pools := rfl
@[simp] theorem State.countWrap_kvpQueue (f : Fld) (d : Nat) : (s.countWrap f d).kvpQueue = s.kvpQueue := rfl
@[simp] theorem State.countWrap_plt (f : Fld) (d : Nat) : (s.countWrap f d).plt = s.plt := rfl
@[simp] theorem State.countWrap_migs (f : Fld) (d : Nat) : (s.countWrap f d).migs = s.migs := rfl
@[simp] theorem State.countWrap_tags (f : Fld) (d : Nat) : (s.countWrap f d).tags = s.tags := rfl
@[simp] theorem State.countWrap_poison (f : Fld) (d : Nat) : (s.countWrap f d).poison = s.poison := rfl
@[simp] theorem State.countWrap_scrubSince (f : Fld) (d : Nat) : (s.countWrap f d).scrubSince = s.scrubSince := rfl
@[simp] theorem State.countWrap_psScrubSince (f : Fld) (d : Nat) : (s.countWrap f d).psScrubSince = s.psScrubSince := rfl
@[simp] theorem State.countWrap_pltDisabling (f : Fld) (d : Nat) : (s.countWrap f d).pltDisabling = s.pltDisabling := rfl
@[simp] theorem State.countWrap_sched (f : Fld) (d : Nat) : (s.countWrap f d).sched = s.sched := rfl
@[simp] theorem State.countWrap_fus (f : Fld) (d : Nat) : (s.countWrap f d).fus = s.fus := rfl
@[simp] theorem State.countWrap_batch (f : Fld) (d : Nat) : (s.countWrap f d).batch = s.batch := rfl
@[simp] theorem State.countWrap_trl (f : Fld) (d : Nat) : (s.countWrap f d).trl = s.trl := rfl
@[simp] theorem State.countWrap_loops (f : Fld) (d : Nat) : (s.countWrap f d).loops = s.loops := rfl
@[simp] theorem State.countWrap_destSeen (f : Fld) (d : Nat) : (s.countWrap f d).destSeen = s.destSeen := rfl
@[simp] theorem State.countWrap_grpLast (f : Fld) (d : Nat) : (s.countWrap f d).grpLast = s.grpLast := rfl
@[simp] theorem State.countWrap_wdog (f : Fld) (d : Nat) : (s.countWrap f d).wdog = s.wdog := rfl
@[simp] theorem State.countWrap_tioUnread (f : Fld) (d : Nat) : (s.countWrap f d).tioUnread = s.tioUnread := rfl
@[simp] theorem State.countWrap_pulses (f : Fld) (d : Nat) : (s.countWrap f d).pulses = s.pulses := rfl
@[simp] theorem State.countWrap_cmpLate (f : Fld) (d : Nat) : (s.countWrap f d).cmpLate = s.cmpLate := rfl
@[simp] theorem State.countWrap_stepDue (f : Fld) (d : Nat) : (s.countWrap f d).stepDue = s.stepDue := rfl
@[simp] theorem State.countWrap_stepAt (f : Fld) (d : Nat) : (s.countWrap f d).stepAt = s.stepAt := rfl
@[simp] theorem State.countWrap_rates (f : Fld) (d : Nat) : (s.countWrap f d).rates = s.rates := rfl
@[simp] theorem State.countWrap_srcSeen (f : Fld) (d : Nat) : (s.countWrap f d).srcSeen = s.srcSeen := rfl
@[simp] theorem State.countWrap_lockRun (f : Fld) (d : Nat) : (s.countWrap f d).lockRun = s.lockRun := rfl
@[simp] theorem State.countWrap_rfx (f : Fld) (d : Nat) : (s.countWrap f d).rfx = s.rfx := rfl
@[simp] theorem State.countWrap_lanes (f : Fld) (d : Nat) : (s.countWrap f d).lanes = s.lanes := rfl
@[simp] theorem State.countWrap_segs (f : Fld) (d : Nat) : (s.countWrap f d).segs = s.segs := rfl
@[simp] theorem State.countWrap_ecs (f : Fld) (d : Nat) : (s.countWrap f d).ecs = s.ecs := rfl
@[simp] theorem State.countWrap_eths (f : Fld) (d : Nat) : (s.countWrap f d).eths = s.eths := rfl
@[simp] theorem State.countWrap_cwy (f : Fld) (d : Nat) : (s.countWrap f d).cwy = s.cwy := rfl
@[simp] theorem State.countWrap_secOp (f : Fld) (d : Nat) : (s.countWrap f d).secOp = s.secOp := rfl
@[simp] theorem State.countWrap_pwr (f : Fld) (d : Nat) : (s.countWrap f d).pwr = s.pwr := rfl
@[simp] theorem State.countWrap_telWaiting (f : Fld) (d : Nat) : (s.countWrap f d).telWaiting = s.telWaiting := rfl
@[simp] theorem State.countWrap_lfsr (f : Fld) (d : Nat) : (s.countWrap f d).lfsr = s.lfsr := rfl
@[simp] theorem State.countWrap_burst (f : Fld) (d : Nat) : (s.countWrap f d).burst = s.burst := rfl
@[simp] theorem State.countWrap_fresh (f : Fld) (d : Nat) : (s.countWrap f d).fresh = s.fresh := rfl
@[simp] theorem State.countWrap_vioAt (f : Fld) (d : Nat) : (s.countWrap f d).vioAt = s.vioAt := rfl
@[simp] theorem State.countWrap_cache (f : Fld) (d : Nat) : (s.countWrap f d).cache = s.cache := rfl
@[simp] theorem State.countWrap_held (f : Fld) (d : Nat) : (s.countWrap f d).held = s.held := rfl

/-! ### putInt -/

@[simp] theorem State.putInt_pending (f : Fld) (i : Int) : (s.putInt f i).pending = s.pending := rfl
@[simp] theorem State.putInt_heldRegs (f : Fld) (i : Int) : (s.putInt f i).heldRegs = s.heldRegs := rfl
@[simp] theorem State.putInt_pendSets (f : Fld) (i : Int) : (s.putInt f i).pendSets = s.pendSets := rfl
@[simp] theorem State.putInt_caps (f : Fld) (i : Int) : (s.putInt f i).caps = s.caps := rfl
@[simp] theorem State.putInt_holds (f : Fld) (i : Int) : (s.putInt f i).holds = s.holds := rfl
@[simp] theorem State.putInt_mem (f : Fld) (i : Int) : (s.putInt f i).mem = s.mem := rfl
@[simp] theorem State.putInt_bus (f : Fld) (i : Int) : (s.putInt f i).bus = s.bus := rfl
@[simp] theorem State.putInt_free (f : Fld) (i : Int) : (s.putInt f i).free = s.free := rfl
@[simp] theorem State.putInt_cyc (f : Fld) (i : Int) : (s.putInt f i).cyc = s.cyc := rfl
@[simp] theorem State.putInt_acc (f : Fld) (i : Int) : (s.putInt f i).acc = s.acc := rfl
@[simp] theorem State.putInt_fuses (f : Fld) (i : Int) : (s.putInt f i).fuses = s.fuses := rfl
@[simp] theorem State.putInt_icu (f : Fld) (i : Int) : (s.putInt f i).icu = s.icu := rfl
@[simp] theorem State.putInt_msix (f : Fld) (i : Int) : (s.putInt f i).msix = s.msix := rfl
@[simp] theorem State.putInt_emcy (f : Fld) (i : Int) : (s.putInt f i).emcy = s.emcy := rfl
@[simp] theorem State.putInt_epochCyc (f : Fld) (i : Int) : (s.putInt f i).epochCyc = s.epochCyc := rfl
@[simp] theorem State.putInt_outbox (f : Fld) (i : Int) : (s.putInt f i).outbox = s.outbox := rfl
@[simp] theorem State.putInt_acks (f : Fld) (i : Int) : (s.putInt f i).acks = s.acks := rfl
@[simp] theorem State.putInt_cores (f : Fld) (i : Int) : (s.putInt f i).cores = s.cores := rfl
@[simp] theorem State.putInt_pools (f : Fld) (i : Int) : (s.putInt f i).pools = s.pools := rfl
@[simp] theorem State.putInt_kvpQueue (f : Fld) (i : Int) : (s.putInt f i).kvpQueue = s.kvpQueue := rfl
@[simp] theorem State.putInt_plt (f : Fld) (i : Int) : (s.putInt f i).plt = s.plt := rfl
@[simp] theorem State.putInt_migs (f : Fld) (i : Int) : (s.putInt f i).migs = s.migs := rfl
@[simp] theorem State.putInt_tags (f : Fld) (i : Int) : (s.putInt f i).tags = s.tags := rfl
@[simp] theorem State.putInt_poison (f : Fld) (i : Int) : (s.putInt f i).poison = s.poison := rfl
@[simp] theorem State.putInt_scrubSince (f : Fld) (i : Int) : (s.putInt f i).scrubSince = s.scrubSince := rfl
@[simp] theorem State.putInt_psScrubSince (f : Fld) (i : Int) : (s.putInt f i).psScrubSince = s.psScrubSince := rfl
@[simp] theorem State.putInt_pltDisabling (f : Fld) (i : Int) : (s.putInt f i).pltDisabling = s.pltDisabling := rfl
@[simp] theorem State.putInt_sched (f : Fld) (i : Int) : (s.putInt f i).sched = s.sched := rfl
@[simp] theorem State.putInt_fus (f : Fld) (i : Int) : (s.putInt f i).fus = s.fus := rfl
@[simp] theorem State.putInt_batch (f : Fld) (i : Int) : (s.putInt f i).batch = s.batch := rfl
@[simp] theorem State.putInt_trl (f : Fld) (i : Int) : (s.putInt f i).trl = s.trl := rfl
@[simp] theorem State.putInt_loops (f : Fld) (i : Int) : (s.putInt f i).loops = s.loops := rfl
@[simp] theorem State.putInt_destSeen (f : Fld) (i : Int) : (s.putInt f i).destSeen = s.destSeen := rfl
@[simp] theorem State.putInt_grpLast (f : Fld) (i : Int) : (s.putInt f i).grpLast = s.grpLast := rfl
@[simp] theorem State.putInt_wdog (f : Fld) (i : Int) : (s.putInt f i).wdog = s.wdog := rfl
@[simp] theorem State.putInt_tioUnread (f : Fld) (i : Int) : (s.putInt f i).tioUnread = s.tioUnread := rfl
@[simp] theorem State.putInt_pulses (f : Fld) (i : Int) : (s.putInt f i).pulses = s.pulses := rfl
@[simp] theorem State.putInt_cmpLate (f : Fld) (i : Int) : (s.putInt f i).cmpLate = s.cmpLate := rfl
@[simp] theorem State.putInt_stepDue (f : Fld) (i : Int) : (s.putInt f i).stepDue = s.stepDue := rfl
@[simp] theorem State.putInt_stepAt (f : Fld) (i : Int) : (s.putInt f i).stepAt = s.stepAt := rfl
@[simp] theorem State.putInt_rates (f : Fld) (i : Int) : (s.putInt f i).rates = s.rates := rfl
@[simp] theorem State.putInt_srcSeen (f : Fld) (i : Int) : (s.putInt f i).srcSeen = s.srcSeen := rfl
@[simp] theorem State.putInt_lockRun (f : Fld) (i : Int) : (s.putInt f i).lockRun = s.lockRun := rfl
@[simp] theorem State.putInt_rfx (f : Fld) (i : Int) : (s.putInt f i).rfx = s.rfx := rfl
@[simp] theorem State.putInt_lanes (f : Fld) (i : Int) : (s.putInt f i).lanes = s.lanes := rfl
@[simp] theorem State.putInt_segs (f : Fld) (i : Int) : (s.putInt f i).segs = s.segs := rfl
@[simp] theorem State.putInt_ecs (f : Fld) (i : Int) : (s.putInt f i).ecs = s.ecs := rfl
@[simp] theorem State.putInt_eths (f : Fld) (i : Int) : (s.putInt f i).eths = s.eths := rfl
@[simp] theorem State.putInt_cwy (f : Fld) (i : Int) : (s.putInt f i).cwy = s.cwy := rfl
@[simp] theorem State.putInt_secOp (f : Fld) (i : Int) : (s.putInt f i).secOp = s.secOp := rfl
@[simp] theorem State.putInt_pwr (f : Fld) (i : Int) : (s.putInt f i).pwr = s.pwr := rfl
@[simp] theorem State.putInt_telWaiting (f : Fld) (i : Int) : (s.putInt f i).telWaiting = s.telWaiting := rfl
@[simp] theorem State.putInt_lfsr (f : Fld) (i : Int) : (s.putInt f i).lfsr = s.lfsr := rfl
@[simp] theorem State.putInt_burst (f : Fld) (i : Int) : (s.putInt f i).burst = s.burst := rfl
@[simp] theorem State.putInt_fresh (f : Fld) (i : Int) : (s.putInt f i).fresh = s.fresh := rfl
@[simp] theorem State.putInt_vioAt (f : Fld) (i : Int) : (s.putInt f i).vioAt = s.vioAt := rfl
@[simp] theorem State.putInt_cache (f : Fld) (i : Int) : (s.putInt f i).cache = s.cache := rfl
@[simp] theorem State.putInt_held (f : Fld) (i : Int) : (s.putInt f i).held = s.held := rfl

/-! ### note -/

@[simp] theorem State.note_pending (a b : Nat) : (s.note a b).pending = s.pending := rfl
@[simp] theorem State.note_regs (a b : Nat) : (s.note a b).regs = s.regs := rfl
@[simp] theorem State.note_heldRegs (a b : Nat) : (s.note a b).heldRegs = s.heldRegs := rfl
@[simp] theorem State.note_pendSets (a b : Nat) : (s.note a b).pendSets = s.pendSets := rfl
@[simp] theorem State.note_caps (a b : Nat) : (s.note a b).caps = s.caps := rfl
@[simp] theorem State.note_holds (a b : Nat) : (s.note a b).holds = s.holds := rfl
@[simp] theorem State.note_mem (a b : Nat) : (s.note a b).mem = s.mem := rfl
@[simp] theorem State.note_bus (a b : Nat) : (s.note a b).bus = s.bus := rfl
@[simp] theorem State.note_free (a b : Nat) : (s.note a b).free = s.free := rfl
@[simp] theorem State.note_cyc (a b : Nat) : (s.note a b).cyc = s.cyc := rfl
@[simp] theorem State.note_acc (a b : Nat) : (s.note a b).acc = s.acc := rfl
@[simp] theorem State.note_fuses (a b : Nat) : (s.note a b).fuses = s.fuses := rfl
@[simp] theorem State.note_icu (a b : Nat) : (s.note a b).icu = s.icu := rfl
@[simp] theorem State.note_msix (a b : Nat) : (s.note a b).msix = s.msix := rfl
@[simp] theorem State.note_emcy (a b : Nat) : (s.note a b).emcy = s.emcy := rfl
@[simp] theorem State.note_epochCyc (a b : Nat) : (s.note a b).epochCyc = s.epochCyc := rfl
@[simp] theorem State.note_outbox (a b : Nat) : (s.note a b).outbox = s.outbox := rfl
@[simp] theorem State.note_acks (a b : Nat) : (s.note a b).acks = s.acks := rfl
@[simp] theorem State.note_cores (a b : Nat) : (s.note a b).cores = s.cores := rfl
@[simp] theorem State.note_pools (a b : Nat) : (s.note a b).pools = s.pools := rfl
@[simp] theorem State.note_kvpQueue (a b : Nat) : (s.note a b).kvpQueue = s.kvpQueue := rfl
@[simp] theorem State.note_plt (a b : Nat) : (s.note a b).plt = s.plt := rfl
@[simp] theorem State.note_migs (a b : Nat) : (s.note a b).migs = s.migs := rfl
@[simp] theorem State.note_tags (a b : Nat) : (s.note a b).tags = s.tags := rfl
@[simp] theorem State.note_poison (a b : Nat) : (s.note a b).poison = s.poison := rfl
@[simp] theorem State.note_scrubSince (a b : Nat) : (s.note a b).scrubSince = s.scrubSince := rfl
@[simp] theorem State.note_psScrubSince (a b : Nat) : (s.note a b).psScrubSince = s.psScrubSince := rfl
@[simp] theorem State.note_pltDisabling (a b : Nat) : (s.note a b).pltDisabling = s.pltDisabling := rfl
@[simp] theorem State.note_sched (a b : Nat) : (s.note a b).sched = s.sched := rfl
@[simp] theorem State.note_fus (a b : Nat) : (s.note a b).fus = s.fus := rfl
@[simp] theorem State.note_batch (a b : Nat) : (s.note a b).batch = s.batch := rfl
@[simp] theorem State.note_trl (a b : Nat) : (s.note a b).trl = s.trl := rfl
@[simp] theorem State.note_loops (a b : Nat) : (s.note a b).loops = s.loops := rfl
@[simp] theorem State.note_destSeen (a b : Nat) : (s.note a b).destSeen = s.destSeen := rfl
@[simp] theorem State.note_grpLast (a b : Nat) : (s.note a b).grpLast = s.grpLast := rfl
@[simp] theorem State.note_wdog (a b : Nat) : (s.note a b).wdog = s.wdog := rfl
@[simp] theorem State.note_tioUnread (a b : Nat) : (s.note a b).tioUnread = s.tioUnread := rfl
@[simp] theorem State.note_pulses (a b : Nat) : (s.note a b).pulses = s.pulses := rfl
@[simp] theorem State.note_cmpLate (a b : Nat) : (s.note a b).cmpLate = s.cmpLate := rfl
@[simp] theorem State.note_stepDue (a b : Nat) : (s.note a b).stepDue = s.stepDue := rfl
@[simp] theorem State.note_stepAt (a b : Nat) : (s.note a b).stepAt = s.stepAt := rfl
@[simp] theorem State.note_rates (a b : Nat) : (s.note a b).rates = s.rates := rfl
@[simp] theorem State.note_srcSeen (a b : Nat) : (s.note a b).srcSeen = s.srcSeen := rfl
@[simp] theorem State.note_lockRun (a b : Nat) : (s.note a b).lockRun = s.lockRun := rfl
@[simp] theorem State.note_rfx (a b : Nat) : (s.note a b).rfx = s.rfx := rfl
@[simp] theorem State.note_lanes (a b : Nat) : (s.note a b).lanes = s.lanes := rfl
@[simp] theorem State.note_segs (a b : Nat) : (s.note a b).segs = s.segs := rfl
@[simp] theorem State.note_ecs (a b : Nat) : (s.note a b).ecs = s.ecs := rfl
@[simp] theorem State.note_eths (a b : Nat) : (s.note a b).eths = s.eths := rfl
@[simp] theorem State.note_cwy (a b : Nat) : (s.note a b).cwy = s.cwy := rfl
@[simp] theorem State.note_secOp (a b : Nat) : (s.note a b).secOp = s.secOp := rfl
@[simp] theorem State.note_pwr (a b : Nat) : (s.note a b).pwr = s.pwr := rfl
@[simp] theorem State.note_telWaiting (a b : Nat) : (s.note a b).telWaiting = s.telWaiting := rfl
@[simp] theorem State.note_lfsr (a b : Nat) : (s.note a b).lfsr = s.lfsr := rfl
@[simp] theorem State.note_burst (a b : Nat) : (s.note a b).burst = s.burst := rfl
@[simp] theorem State.note_vioAt (a b : Nat) : (s.note a b).vioAt = s.vioAt := rfl
@[simp] theorem State.note_cache (a b : Nat) : (s.note a b).cache = s.cache := rfl
@[simp] theorem State.note_held (a b : Nat) : (s.note a b).held = s.held := rfl

/-! ### heldWr -/

@[simp] theorem State.heldWr_pending (a : Nat) (v : Word64) : (s.heldWr a v).pending = s.pending := rfl
@[simp] theorem State.heldWr_regs (a : Nat) (v : Word64) : (s.heldWr a v).regs = s.regs := rfl
@[simp] theorem State.heldWr_pendSets (a : Nat) (v : Word64) : (s.heldWr a v).pendSets = s.pendSets := rfl
@[simp] theorem State.heldWr_caps (a : Nat) (v : Word64) : (s.heldWr a v).caps = s.caps := rfl
@[simp] theorem State.heldWr_holds (a : Nat) (v : Word64) : (s.heldWr a v).holds = s.holds := rfl
@[simp] theorem State.heldWr_mem (a : Nat) (v : Word64) : (s.heldWr a v).mem = s.mem := rfl
@[simp] theorem State.heldWr_bus (a : Nat) (v : Word64) : (s.heldWr a v).bus = s.bus := rfl
@[simp] theorem State.heldWr_free (a : Nat) (v : Word64) : (s.heldWr a v).free = s.free := rfl
@[simp] theorem State.heldWr_cyc (a : Nat) (v : Word64) : (s.heldWr a v).cyc = s.cyc := rfl
@[simp] theorem State.heldWr_acc (a : Nat) (v : Word64) : (s.heldWr a v).acc = s.acc := rfl
@[simp] theorem State.heldWr_fuses (a : Nat) (v : Word64) : (s.heldWr a v).fuses = s.fuses := rfl
@[simp] theorem State.heldWr_icu (a : Nat) (v : Word64) : (s.heldWr a v).icu = s.icu := rfl
@[simp] theorem State.heldWr_msix (a : Nat) (v : Word64) : (s.heldWr a v).msix = s.msix := rfl
@[simp] theorem State.heldWr_emcy (a : Nat) (v : Word64) : (s.heldWr a v).emcy = s.emcy := rfl
@[simp] theorem State.heldWr_epochCyc (a : Nat) (v : Word64) : (s.heldWr a v).epochCyc = s.epochCyc := rfl
@[simp] theorem State.heldWr_outbox (a : Nat) (v : Word64) : (s.heldWr a v).outbox = s.outbox := rfl
@[simp] theorem State.heldWr_acks (a : Nat) (v : Word64) : (s.heldWr a v).acks = s.acks := rfl
@[simp] theorem State.heldWr_cores (a : Nat) (v : Word64) : (s.heldWr a v).cores = s.cores := rfl
@[simp] theorem State.heldWr_pools (a : Nat) (v : Word64) : (s.heldWr a v).pools = s.pools := rfl
@[simp] theorem State.heldWr_kvpQueue (a : Nat) (v : Word64) : (s.heldWr a v).kvpQueue = s.kvpQueue := rfl
@[simp] theorem State.heldWr_plt (a : Nat) (v : Word64) : (s.heldWr a v).plt = s.plt := rfl
@[simp] theorem State.heldWr_migs (a : Nat) (v : Word64) : (s.heldWr a v).migs = s.migs := rfl
@[simp] theorem State.heldWr_tags (a : Nat) (v : Word64) : (s.heldWr a v).tags = s.tags := rfl
@[simp] theorem State.heldWr_poison (a : Nat) (v : Word64) : (s.heldWr a v).poison = s.poison := rfl
@[simp] theorem State.heldWr_scrubSince (a : Nat) (v : Word64) : (s.heldWr a v).scrubSince = s.scrubSince := rfl
@[simp] theorem State.heldWr_psScrubSince (a : Nat) (v : Word64) : (s.heldWr a v).psScrubSince = s.psScrubSince := rfl
@[simp] theorem State.heldWr_pltDisabling (a : Nat) (v : Word64) : (s.heldWr a v).pltDisabling = s.pltDisabling := rfl
@[simp] theorem State.heldWr_sched (a : Nat) (v : Word64) : (s.heldWr a v).sched = s.sched := rfl
@[simp] theorem State.heldWr_fus (a : Nat) (v : Word64) : (s.heldWr a v).fus = s.fus := rfl
@[simp] theorem State.heldWr_batch (a : Nat) (v : Word64) : (s.heldWr a v).batch = s.batch := rfl
@[simp] theorem State.heldWr_trl (a : Nat) (v : Word64) : (s.heldWr a v).trl = s.trl := rfl
@[simp] theorem State.heldWr_loops (a : Nat) (v : Word64) : (s.heldWr a v).loops = s.loops := rfl
@[simp] theorem State.heldWr_destSeen (a : Nat) (v : Word64) : (s.heldWr a v).destSeen = s.destSeen := rfl
@[simp] theorem State.heldWr_grpLast (a : Nat) (v : Word64) : (s.heldWr a v).grpLast = s.grpLast := rfl
@[simp] theorem State.heldWr_wdog (a : Nat) (v : Word64) : (s.heldWr a v).wdog = s.wdog := rfl
@[simp] theorem State.heldWr_tioUnread (a : Nat) (v : Word64) : (s.heldWr a v).tioUnread = s.tioUnread := rfl
@[simp] theorem State.heldWr_pulses (a : Nat) (v : Word64) : (s.heldWr a v).pulses = s.pulses := rfl
@[simp] theorem State.heldWr_cmpLate (a : Nat) (v : Word64) : (s.heldWr a v).cmpLate = s.cmpLate := rfl
@[simp] theorem State.heldWr_stepDue (a : Nat) (v : Word64) : (s.heldWr a v).stepDue = s.stepDue := rfl
@[simp] theorem State.heldWr_stepAt (a : Nat) (v : Word64) : (s.heldWr a v).stepAt = s.stepAt := rfl
@[simp] theorem State.heldWr_rates (a : Nat) (v : Word64) : (s.heldWr a v).rates = s.rates := rfl
@[simp] theorem State.heldWr_srcSeen (a : Nat) (v : Word64) : (s.heldWr a v).srcSeen = s.srcSeen := rfl
@[simp] theorem State.heldWr_lockRun (a : Nat) (v : Word64) : (s.heldWr a v).lockRun = s.lockRun := rfl
@[simp] theorem State.heldWr_rfx (a : Nat) (v : Word64) : (s.heldWr a v).rfx = s.rfx := rfl
@[simp] theorem State.heldWr_lanes (a : Nat) (v : Word64) : (s.heldWr a v).lanes = s.lanes := rfl
@[simp] theorem State.heldWr_segs (a : Nat) (v : Word64) : (s.heldWr a v).segs = s.segs := rfl
@[simp] theorem State.heldWr_ecs (a : Nat) (v : Word64) : (s.heldWr a v).ecs = s.ecs := rfl
@[simp] theorem State.heldWr_eths (a : Nat) (v : Word64) : (s.heldWr a v).eths = s.eths := rfl
@[simp] theorem State.heldWr_cwy (a : Nat) (v : Word64) : (s.heldWr a v).cwy = s.cwy := rfl
@[simp] theorem State.heldWr_secOp (a : Nat) (v : Word64) : (s.heldWr a v).secOp = s.secOp := rfl
@[simp] theorem State.heldWr_pwr (a : Nat) (v : Word64) : (s.heldWr a v).pwr = s.pwr := rfl
@[simp] theorem State.heldWr_telWaiting (a : Nat) (v : Word64) : (s.heldWr a v).telWaiting = s.telWaiting := rfl
@[simp] theorem State.heldWr_lfsr (a : Nat) (v : Word64) : (s.heldWr a v).lfsr = s.lfsr := rfl
@[simp] theorem State.heldWr_burst (a : Nat) (v : Word64) : (s.heldWr a v).burst = s.burst := rfl
@[simp] theorem State.heldWr_fresh (a : Nat) (v : Word64) : (s.heldWr a v).fresh = s.fresh := rfl
@[simp] theorem State.heldWr_vioAt (a : Nat) (v : Word64) : (s.heldWr a v).vioAt = s.vioAt := rfl
@[simp] theorem State.heldWr_cache (a : Nat) (v : Word64) : (s.heldWr a v).cache = s.cache := rfl
@[simp] theorem State.heldWr_held (a : Nat) (v : Word64) : (s.heldWr a v).held = s.held := rfl

/-! ### store -/

@[simp] theorem State.store_pending (a : Nat) (bs : List Byte) : (s.store a bs).pending = s.pending := rfl
@[simp] theorem State.store_regs (a : Nat) (bs : List Byte) : (s.store a bs).regs = s.regs := rfl
@[simp] theorem State.store_heldRegs (a : Nat) (bs : List Byte) : (s.store a bs).heldRegs = s.heldRegs := rfl
@[simp] theorem State.store_pendSets (a : Nat) (bs : List Byte) : (s.store a bs).pendSets = s.pendSets := rfl
@[simp] theorem State.store_caps (a : Nat) (bs : List Byte) : (s.store a bs).caps = s.caps := rfl
@[simp] theorem State.store_holds (a : Nat) (bs : List Byte) : (s.store a bs).holds = s.holds := rfl
@[simp] theorem State.store_bus (a : Nat) (bs : List Byte) : (s.store a bs).bus = s.bus := rfl
@[simp] theorem State.store_free (a : Nat) (bs : List Byte) : (s.store a bs).free = s.free := rfl
@[simp] theorem State.store_cyc (a : Nat) (bs : List Byte) : (s.store a bs).cyc = s.cyc := rfl
@[simp] theorem State.store_acc (a : Nat) (bs : List Byte) : (s.store a bs).acc = s.acc := rfl
@[simp] theorem State.store_fuses (a : Nat) (bs : List Byte) : (s.store a bs).fuses = s.fuses := rfl
@[simp] theorem State.store_icu (a : Nat) (bs : List Byte) : (s.store a bs).icu = s.icu := rfl
@[simp] theorem State.store_msix (a : Nat) (bs : List Byte) : (s.store a bs).msix = s.msix := rfl
@[simp] theorem State.store_emcy (a : Nat) (bs : List Byte) : (s.store a bs).emcy = s.emcy := rfl
@[simp] theorem State.store_epochCyc (a : Nat) (bs : List Byte) : (s.store a bs).epochCyc = s.epochCyc := rfl
@[simp] theorem State.store_outbox (a : Nat) (bs : List Byte) : (s.store a bs).outbox = s.outbox := rfl
@[simp] theorem State.store_acks (a : Nat) (bs : List Byte) : (s.store a bs).acks = s.acks := rfl
@[simp] theorem State.store_cores (a : Nat) (bs : List Byte) : (s.store a bs).cores = s.cores := rfl
@[simp] theorem State.store_pools (a : Nat) (bs : List Byte) : (s.store a bs).pools = s.pools := rfl
@[simp] theorem State.store_kvpQueue (a : Nat) (bs : List Byte) : (s.store a bs).kvpQueue = s.kvpQueue := rfl
@[simp] theorem State.store_plt (a : Nat) (bs : List Byte) : (s.store a bs).plt = s.plt := rfl
@[simp] theorem State.store_migs (a : Nat) (bs : List Byte) : (s.store a bs).migs = s.migs := rfl
@[simp] theorem State.store_tags (a : Nat) (bs : List Byte) : (s.store a bs).tags = s.tags := rfl
@[simp] theorem State.store_poison (a : Nat) (bs : List Byte) : (s.store a bs).poison = s.poison := rfl
@[simp] theorem State.store_scrubSince (a : Nat) (bs : List Byte) : (s.store a bs).scrubSince = s.scrubSince := rfl
@[simp] theorem State.store_psScrubSince (a : Nat) (bs : List Byte) : (s.store a bs).psScrubSince = s.psScrubSince := rfl
@[simp] theorem State.store_pltDisabling (a : Nat) (bs : List Byte) : (s.store a bs).pltDisabling = s.pltDisabling := rfl
@[simp] theorem State.store_sched (a : Nat) (bs : List Byte) : (s.store a bs).sched = s.sched := rfl
@[simp] theorem State.store_fus (a : Nat) (bs : List Byte) : (s.store a bs).fus = s.fus := rfl
@[simp] theorem State.store_batch (a : Nat) (bs : List Byte) : (s.store a bs).batch = s.batch := rfl
@[simp] theorem State.store_trl (a : Nat) (bs : List Byte) : (s.store a bs).trl = s.trl := rfl
@[simp] theorem State.store_loops (a : Nat) (bs : List Byte) : (s.store a bs).loops = s.loops := rfl
@[simp] theorem State.store_destSeen (a : Nat) (bs : List Byte) : (s.store a bs).destSeen = s.destSeen := rfl
@[simp] theorem State.store_grpLast (a : Nat) (bs : List Byte) : (s.store a bs).grpLast = s.grpLast := rfl
@[simp] theorem State.store_wdog (a : Nat) (bs : List Byte) : (s.store a bs).wdog = s.wdog := rfl
@[simp] theorem State.store_tioUnread (a : Nat) (bs : List Byte) : (s.store a bs).tioUnread = s.tioUnread := rfl
@[simp] theorem State.store_pulses (a : Nat) (bs : List Byte) : (s.store a bs).pulses = s.pulses := rfl
@[simp] theorem State.store_cmpLate (a : Nat) (bs : List Byte) : (s.store a bs).cmpLate = s.cmpLate := rfl
@[simp] theorem State.store_stepDue (a : Nat) (bs : List Byte) : (s.store a bs).stepDue = s.stepDue := rfl
@[simp] theorem State.store_stepAt (a : Nat) (bs : List Byte) : (s.store a bs).stepAt = s.stepAt := rfl
@[simp] theorem State.store_rates (a : Nat) (bs : List Byte) : (s.store a bs).rates = s.rates := rfl
@[simp] theorem State.store_srcSeen (a : Nat) (bs : List Byte) : (s.store a bs).srcSeen = s.srcSeen := rfl
@[simp] theorem State.store_lockRun (a : Nat) (bs : List Byte) : (s.store a bs).lockRun = s.lockRun := rfl
@[simp] theorem State.store_rfx (a : Nat) (bs : List Byte) : (s.store a bs).rfx = s.rfx := rfl
@[simp] theorem State.store_lanes (a : Nat) (bs : List Byte) : (s.store a bs).lanes = s.lanes := rfl
@[simp] theorem State.store_segs (a : Nat) (bs : List Byte) : (s.store a bs).segs = s.segs := rfl
@[simp] theorem State.store_ecs (a : Nat) (bs : List Byte) : (s.store a bs).ecs = s.ecs := rfl
@[simp] theorem State.store_eths (a : Nat) (bs : List Byte) : (s.store a bs).eths = s.eths := rfl
@[simp] theorem State.store_cwy (a : Nat) (bs : List Byte) : (s.store a bs).cwy = s.cwy := rfl
@[simp] theorem State.store_secOp (a : Nat) (bs : List Byte) : (s.store a bs).secOp = s.secOp := rfl
@[simp] theorem State.store_pwr (a : Nat) (bs : List Byte) : (s.store a bs).pwr = s.pwr := rfl
@[simp] theorem State.store_telWaiting (a : Nat) (bs : List Byte) : (s.store a bs).telWaiting = s.telWaiting := rfl
@[simp] theorem State.store_lfsr (a : Nat) (bs : List Byte) : (s.store a bs).lfsr = s.lfsr := rfl
@[simp] theorem State.store_burst (a : Nat) (bs : List Byte) : (s.store a bs).burst = s.burst := rfl
@[simp] theorem State.store_fresh (a : Nat) (bs : List Byte) : (s.store a bs).fresh = s.fresh := rfl
@[simp] theorem State.store_vioAt (a : Nat) (bs : List Byte) : (s.store a bs).vioAt = s.vioAt := rfl
@[simp] theorem State.store_cache (a : Nat) (bs : List Byte) : (s.store a bs).cache = s.cache := rfl
@[simp] theorem State.store_held (a : Nat) (bs : List Byte) : (s.store a bs).held = s.held := rfl

/-! ### answer -/

@[simp] theorem State.answer_pending (r : Reply) : (s.answer r).pending = s.pending := rfl
@[simp] theorem State.answer_regs (r : Reply) : (s.answer r).regs = s.regs := rfl
@[simp] theorem State.answer_heldRegs (r : Reply) : (s.answer r).heldRegs = s.heldRegs := rfl
@[simp] theorem State.answer_pendSets (r : Reply) : (s.answer r).pendSets = s.pendSets := rfl
@[simp] theorem State.answer_caps (r : Reply) : (s.answer r).caps = s.caps := rfl
@[simp] theorem State.answer_holds (r : Reply) : (s.answer r).holds = s.holds := rfl
@[simp] theorem State.answer_mem (r : Reply) : (s.answer r).mem = s.mem := rfl
@[simp] theorem State.answer_free (r : Reply) : (s.answer r).free = s.free := rfl
@[simp] theorem State.answer_cyc (r : Reply) : (s.answer r).cyc = s.cyc := rfl
@[simp] theorem State.answer_acc (r : Reply) : (s.answer r).acc = s.acc := rfl
@[simp] theorem State.answer_fuses (r : Reply) : (s.answer r).fuses = s.fuses := rfl
@[simp] theorem State.answer_icu (r : Reply) : (s.answer r).icu = s.icu := rfl
@[simp] theorem State.answer_msix (r : Reply) : (s.answer r).msix = s.msix := rfl
@[simp] theorem State.answer_emcy (r : Reply) : (s.answer r).emcy = s.emcy := rfl
@[simp] theorem State.answer_epochCyc (r : Reply) : (s.answer r).epochCyc = s.epochCyc := rfl
@[simp] theorem State.answer_outbox (r : Reply) : (s.answer r).outbox = s.outbox := rfl
@[simp] theorem State.answer_acks (r : Reply) : (s.answer r).acks = s.acks := rfl
@[simp] theorem State.answer_cores (r : Reply) : (s.answer r).cores = s.cores := rfl
@[simp] theorem State.answer_pools (r : Reply) : (s.answer r).pools = s.pools := rfl
@[simp] theorem State.answer_kvpQueue (r : Reply) : (s.answer r).kvpQueue = s.kvpQueue := rfl
@[simp] theorem State.answer_plt (r : Reply) : (s.answer r).plt = s.plt := rfl
@[simp] theorem State.answer_migs (r : Reply) : (s.answer r).migs = s.migs := rfl
@[simp] theorem State.answer_tags (r : Reply) : (s.answer r).tags = s.tags := rfl
@[simp] theorem State.answer_poison (r : Reply) : (s.answer r).poison = s.poison := rfl
@[simp] theorem State.answer_scrubSince (r : Reply) : (s.answer r).scrubSince = s.scrubSince := rfl
@[simp] theorem State.answer_psScrubSince (r : Reply) : (s.answer r).psScrubSince = s.psScrubSince := rfl
@[simp] theorem State.answer_pltDisabling (r : Reply) : (s.answer r).pltDisabling = s.pltDisabling := rfl
@[simp] theorem State.answer_sched (r : Reply) : (s.answer r).sched = s.sched := rfl
@[simp] theorem State.answer_fus (r : Reply) : (s.answer r).fus = s.fus := rfl
@[simp] theorem State.answer_batch (r : Reply) : (s.answer r).batch = s.batch := rfl
@[simp] theorem State.answer_trl (r : Reply) : (s.answer r).trl = s.trl := rfl
@[simp] theorem State.answer_loops (r : Reply) : (s.answer r).loops = s.loops := rfl
@[simp] theorem State.answer_destSeen (r : Reply) : (s.answer r).destSeen = s.destSeen := rfl
@[simp] theorem State.answer_grpLast (r : Reply) : (s.answer r).grpLast = s.grpLast := rfl
@[simp] theorem State.answer_wdog (r : Reply) : (s.answer r).wdog = s.wdog := rfl
@[simp] theorem State.answer_tioUnread (r : Reply) : (s.answer r).tioUnread = s.tioUnread := rfl
@[simp] theorem State.answer_pulses (r : Reply) : (s.answer r).pulses = s.pulses := rfl
@[simp] theorem State.answer_cmpLate (r : Reply) : (s.answer r).cmpLate = s.cmpLate := rfl
@[simp] theorem State.answer_stepDue (r : Reply) : (s.answer r).stepDue = s.stepDue := rfl
@[simp] theorem State.answer_stepAt (r : Reply) : (s.answer r).stepAt = s.stepAt := rfl
@[simp] theorem State.answer_rates (r : Reply) : (s.answer r).rates = s.rates := rfl
@[simp] theorem State.answer_srcSeen (r : Reply) : (s.answer r).srcSeen = s.srcSeen := rfl
@[simp] theorem State.answer_lockRun (r : Reply) : (s.answer r).lockRun = s.lockRun := rfl
@[simp] theorem State.answer_rfx (r : Reply) : (s.answer r).rfx = s.rfx := rfl
@[simp] theorem State.answer_lanes (r : Reply) : (s.answer r).lanes = s.lanes := rfl
@[simp] theorem State.answer_segs (r : Reply) : (s.answer r).segs = s.segs := rfl
@[simp] theorem State.answer_ecs (r : Reply) : (s.answer r).ecs = s.ecs := rfl
@[simp] theorem State.answer_eths (r : Reply) : (s.answer r).eths = s.eths := rfl
@[simp] theorem State.answer_cwy (r : Reply) : (s.answer r).cwy = s.cwy := rfl
@[simp] theorem State.answer_secOp (r : Reply) : (s.answer r).secOp = s.secOp := rfl
@[simp] theorem State.answer_pwr (r : Reply) : (s.answer r).pwr = s.pwr := rfl
@[simp] theorem State.answer_telWaiting (r : Reply) : (s.answer r).telWaiting = s.telWaiting := rfl
@[simp] theorem State.answer_lfsr (r : Reply) : (s.answer r).lfsr = s.lfsr := rfl
@[simp] theorem State.answer_burst (r : Reply) : (s.answer r).burst = s.burst := rfl
@[simp] theorem State.answer_fresh (r : Reply) : (s.answer r).fresh = s.fresh := rfl
@[simp] theorem State.answer_vioAt (r : Reply) : (s.answer r).vioAt = s.vioAt := rfl
@[simp] theorem State.answer_cache (r : Reply) : (s.answer r).cache = s.cache := rfl
@[simp] theorem State.answer_held (r : Reply) : (s.answer r).held = s.held := rfl

/-! ### send -/

@[simp] theorem State.send_pending (m : OutMsg) : (s.send m).pending = s.pending := rfl
@[simp] theorem State.send_regs (m : OutMsg) : (s.send m).regs = s.regs := rfl
@[simp] theorem State.send_heldRegs (m : OutMsg) : (s.send m).heldRegs = s.heldRegs := rfl
@[simp] theorem State.send_pendSets (m : OutMsg) : (s.send m).pendSets = s.pendSets := rfl
@[simp] theorem State.send_caps (m : OutMsg) : (s.send m).caps = s.caps := rfl
@[simp] theorem State.send_holds (m : OutMsg) : (s.send m).holds = s.holds := rfl
@[simp] theorem State.send_mem (m : OutMsg) : (s.send m).mem = s.mem := rfl
@[simp] theorem State.send_bus (m : OutMsg) : (s.send m).bus = s.bus := rfl
@[simp] theorem State.send_free (m : OutMsg) : (s.send m).free = s.free := rfl
@[simp] theorem State.send_cyc (m : OutMsg) : (s.send m).cyc = s.cyc := rfl
@[simp] theorem State.send_acc (m : OutMsg) : (s.send m).acc = s.acc := rfl
@[simp] theorem State.send_fuses (m : OutMsg) : (s.send m).fuses = s.fuses := rfl
@[simp] theorem State.send_icu (m : OutMsg) : (s.send m).icu = s.icu := rfl
@[simp] theorem State.send_msix (m : OutMsg) : (s.send m).msix = s.msix := rfl
@[simp] theorem State.send_emcy (m : OutMsg) : (s.send m).emcy = s.emcy := rfl
@[simp] theorem State.send_epochCyc (m : OutMsg) : (s.send m).epochCyc = s.epochCyc := rfl
@[simp] theorem State.send_acks (m : OutMsg) : (s.send m).acks = s.acks := rfl
@[simp] theorem State.send_cores (m : OutMsg) : (s.send m).cores = s.cores := rfl
@[simp] theorem State.send_pools (m : OutMsg) : (s.send m).pools = s.pools := rfl
@[simp] theorem State.send_kvpQueue (m : OutMsg) : (s.send m).kvpQueue = s.kvpQueue := rfl
@[simp] theorem State.send_plt (m : OutMsg) : (s.send m).plt = s.plt := rfl
@[simp] theorem State.send_migs (m : OutMsg) : (s.send m).migs = s.migs := rfl
@[simp] theorem State.send_tags (m : OutMsg) : (s.send m).tags = s.tags := rfl
@[simp] theorem State.send_poison (m : OutMsg) : (s.send m).poison = s.poison := rfl
@[simp] theorem State.send_scrubSince (m : OutMsg) : (s.send m).scrubSince = s.scrubSince := rfl
@[simp] theorem State.send_psScrubSince (m : OutMsg) : (s.send m).psScrubSince = s.psScrubSince := rfl
@[simp] theorem State.send_pltDisabling (m : OutMsg) : (s.send m).pltDisabling = s.pltDisabling := rfl
@[simp] theorem State.send_sched (m : OutMsg) : (s.send m).sched = s.sched := rfl
@[simp] theorem State.send_fus (m : OutMsg) : (s.send m).fus = s.fus := rfl
@[simp] theorem State.send_batch (m : OutMsg) : (s.send m).batch = s.batch := rfl
@[simp] theorem State.send_trl (m : OutMsg) : (s.send m).trl = s.trl := rfl
@[simp] theorem State.send_loops (m : OutMsg) : (s.send m).loops = s.loops := rfl
@[simp] theorem State.send_destSeen (m : OutMsg) : (s.send m).destSeen = s.destSeen := rfl
@[simp] theorem State.send_grpLast (m : OutMsg) : (s.send m).grpLast = s.grpLast := rfl
@[simp] theorem State.send_wdog (m : OutMsg) : (s.send m).wdog = s.wdog := rfl
@[simp] theorem State.send_tioUnread (m : OutMsg) : (s.send m).tioUnread = s.tioUnread := rfl
@[simp] theorem State.send_pulses (m : OutMsg) : (s.send m).pulses = s.pulses := rfl
@[simp] theorem State.send_cmpLate (m : OutMsg) : (s.send m).cmpLate = s.cmpLate := rfl
@[simp] theorem State.send_stepDue (m : OutMsg) : (s.send m).stepDue = s.stepDue := rfl
@[simp] theorem State.send_stepAt (m : OutMsg) : (s.send m).stepAt = s.stepAt := rfl
@[simp] theorem State.send_rates (m : OutMsg) : (s.send m).rates = s.rates := rfl
@[simp] theorem State.send_srcSeen (m : OutMsg) : (s.send m).srcSeen = s.srcSeen := rfl
@[simp] theorem State.send_lockRun (m : OutMsg) : (s.send m).lockRun = s.lockRun := rfl
@[simp] theorem State.send_rfx (m : OutMsg) : (s.send m).rfx = s.rfx := rfl
@[simp] theorem State.send_lanes (m : OutMsg) : (s.send m).lanes = s.lanes := rfl
@[simp] theorem State.send_segs (m : OutMsg) : (s.send m).segs = s.segs := rfl
@[simp] theorem State.send_ecs (m : OutMsg) : (s.send m).ecs = s.ecs := rfl
@[simp] theorem State.send_eths (m : OutMsg) : (s.send m).eths = s.eths := rfl
@[simp] theorem State.send_cwy (m : OutMsg) : (s.send m).cwy = s.cwy := rfl
@[simp] theorem State.send_secOp (m : OutMsg) : (s.send m).secOp = s.secOp := rfl
@[simp] theorem State.send_pwr (m : OutMsg) : (s.send m).pwr = s.pwr := rfl
@[simp] theorem State.send_telWaiting (m : OutMsg) : (s.send m).telWaiting = s.telWaiting := rfl
@[simp] theorem State.send_lfsr (m : OutMsg) : (s.send m).lfsr = s.lfsr := rfl
@[simp] theorem State.send_burst (m : OutMsg) : (s.send m).burst = s.burst := rfl
@[simp] theorem State.send_fresh (m : OutMsg) : (s.send m).fresh = s.fresh := rfl
@[simp] theorem State.send_vioAt (m : OutMsg) : (s.send m).vioAt = s.vioAt := rfl
@[simp] theorem State.send_cache (m : OutMsg) : (s.send m).cache = s.cache := rfl
@[simp] theorem State.send_held (m : OutMsg) : (s.send m).held = s.held := rfl

/-! ### setObj -/

@[simp] theorem State.setObj_pending (i : Nat) (e : PltEntry) : (s.setObj i e).pending = s.pending := rfl
@[simp] theorem State.setObj_regs (i : Nat) (e : PltEntry) : (s.setObj i e).regs = s.regs := rfl
@[simp] theorem State.setObj_heldRegs (i : Nat) (e : PltEntry) : (s.setObj i e).heldRegs = s.heldRegs := rfl
@[simp] theorem State.setObj_pendSets (i : Nat) (e : PltEntry) : (s.setObj i e).pendSets = s.pendSets := rfl
@[simp] theorem State.setObj_caps (i : Nat) (e : PltEntry) : (s.setObj i e).caps = s.caps := rfl
@[simp] theorem State.setObj_holds (i : Nat) (e : PltEntry) : (s.setObj i e).holds = s.holds := rfl
@[simp] theorem State.setObj_mem (i : Nat) (e : PltEntry) : (s.setObj i e).mem = s.mem := rfl
@[simp] theorem State.setObj_bus (i : Nat) (e : PltEntry) : (s.setObj i e).bus = s.bus := rfl
@[simp] theorem State.setObj_free (i : Nat) (e : PltEntry) : (s.setObj i e).free = s.free := rfl
@[simp] theorem State.setObj_cyc (i : Nat) (e : PltEntry) : (s.setObj i e).cyc = s.cyc := rfl
@[simp] theorem State.setObj_acc (i : Nat) (e : PltEntry) : (s.setObj i e).acc = s.acc := rfl
@[simp] theorem State.setObj_fuses (i : Nat) (e : PltEntry) : (s.setObj i e).fuses = s.fuses := rfl
@[simp] theorem State.setObj_icu (i : Nat) (e : PltEntry) : (s.setObj i e).icu = s.icu := rfl
@[simp] theorem State.setObj_msix (i : Nat) (e : PltEntry) : (s.setObj i e).msix = s.msix := rfl
@[simp] theorem State.setObj_emcy (i : Nat) (e : PltEntry) : (s.setObj i e).emcy = s.emcy := rfl
@[simp] theorem State.setObj_epochCyc (i : Nat) (e : PltEntry) : (s.setObj i e).epochCyc = s.epochCyc := rfl
@[simp] theorem State.setObj_outbox (i : Nat) (e : PltEntry) : (s.setObj i e).outbox = s.outbox := rfl
@[simp] theorem State.setObj_acks (i : Nat) (e : PltEntry) : (s.setObj i e).acks = s.acks := rfl
@[simp] theorem State.setObj_cores (i : Nat) (e : PltEntry) : (s.setObj i e).cores = s.cores := rfl
@[simp] theorem State.setObj_pools (i : Nat) (e : PltEntry) : (s.setObj i e).pools = s.pools := rfl
@[simp] theorem State.setObj_kvpQueue (i : Nat) (e : PltEntry) : (s.setObj i e).kvpQueue = s.kvpQueue := rfl
@[simp] theorem State.setObj_migs (i : Nat) (e : PltEntry) : (s.setObj i e).migs = s.migs := rfl
@[simp] theorem State.setObj_tags (i : Nat) (e : PltEntry) : (s.setObj i e).tags = s.tags := rfl
@[simp] theorem State.setObj_poison (i : Nat) (e : PltEntry) : (s.setObj i e).poison = s.poison := rfl
@[simp] theorem State.setObj_scrubSince (i : Nat) (e : PltEntry) : (s.setObj i e).scrubSince = s.scrubSince := rfl
@[simp] theorem State.setObj_psScrubSince (i : Nat) (e : PltEntry) : (s.setObj i e).psScrubSince = s.psScrubSince := rfl
@[simp] theorem State.setObj_pltDisabling (i : Nat) (e : PltEntry) : (s.setObj i e).pltDisabling = s.pltDisabling := rfl
@[simp] theorem State.setObj_sched (i : Nat) (e : PltEntry) : (s.setObj i e).sched = s.sched := rfl
@[simp] theorem State.setObj_fus (i : Nat) (e : PltEntry) : (s.setObj i e).fus = s.fus := rfl
@[simp] theorem State.setObj_batch (i : Nat) (e : PltEntry) : (s.setObj i e).batch = s.batch := rfl
@[simp] theorem State.setObj_trl (i : Nat) (e : PltEntry) : (s.setObj i e).trl = s.trl := rfl
@[simp] theorem State.setObj_loops (i : Nat) (e : PltEntry) : (s.setObj i e).loops = s.loops := rfl
@[simp] theorem State.setObj_destSeen (i : Nat) (e : PltEntry) : (s.setObj i e).destSeen = s.destSeen := rfl
@[simp] theorem State.setObj_grpLast (i : Nat) (e : PltEntry) : (s.setObj i e).grpLast = s.grpLast := rfl
@[simp] theorem State.setObj_wdog (i : Nat) (e : PltEntry) : (s.setObj i e).wdog = s.wdog := rfl
@[simp] theorem State.setObj_tioUnread (i : Nat) (e : PltEntry) : (s.setObj i e).tioUnread = s.tioUnread := rfl
@[simp] theorem State.setObj_pulses (i : Nat) (e : PltEntry) : (s.setObj i e).pulses = s.pulses := rfl
@[simp] theorem State.setObj_cmpLate (i : Nat) (e : PltEntry) : (s.setObj i e).cmpLate = s.cmpLate := rfl
@[simp] theorem State.setObj_stepDue (i : Nat) (e : PltEntry) : (s.setObj i e).stepDue = s.stepDue := rfl
@[simp] theorem State.setObj_stepAt (i : Nat) (e : PltEntry) : (s.setObj i e).stepAt = s.stepAt := rfl
@[simp] theorem State.setObj_rates (i : Nat) (e : PltEntry) : (s.setObj i e).rates = s.rates := rfl
@[simp] theorem State.setObj_srcSeen (i : Nat) (e : PltEntry) : (s.setObj i e).srcSeen = s.srcSeen := rfl
@[simp] theorem State.setObj_lockRun (i : Nat) (e : PltEntry) : (s.setObj i e).lockRun = s.lockRun := rfl
@[simp] theorem State.setObj_rfx (i : Nat) (e : PltEntry) : (s.setObj i e).rfx = s.rfx := rfl
@[simp] theorem State.setObj_lanes (i : Nat) (e : PltEntry) : (s.setObj i e).lanes = s.lanes := rfl
@[simp] theorem State.setObj_segs (i : Nat) (e : PltEntry) : (s.setObj i e).segs = s.segs := rfl
@[simp] theorem State.setObj_ecs (i : Nat) (e : PltEntry) : (s.setObj i e).ecs = s.ecs := rfl
@[simp] theorem State.setObj_eths (i : Nat) (e : PltEntry) : (s.setObj i e).eths = s.eths := rfl
@[simp] theorem State.setObj_cwy (i : Nat) (e : PltEntry) : (s.setObj i e).cwy = s.cwy := rfl
@[simp] theorem State.setObj_secOp (i : Nat) (e : PltEntry) : (s.setObj i e).secOp = s.secOp := rfl
@[simp] theorem State.setObj_pwr (i : Nat) (e : PltEntry) : (s.setObj i e).pwr = s.pwr := rfl
@[simp] theorem State.setObj_telWaiting (i : Nat) (e : PltEntry) : (s.setObj i e).telWaiting = s.telWaiting := rfl
@[simp] theorem State.setObj_lfsr (i : Nat) (e : PltEntry) : (s.setObj i e).lfsr = s.lfsr := rfl
@[simp] theorem State.setObj_burst (i : Nat) (e : PltEntry) : (s.setObj i e).burst = s.burst := rfl
@[simp] theorem State.setObj_fresh (i : Nat) (e : PltEntry) : (s.setObj i e).fresh = s.fresh := rfl
@[simp] theorem State.setObj_vioAt (i : Nat) (e : PltEntry) : (s.setObj i e).vioAt = s.vioAt := rfl
@[simp] theorem State.setObj_cache (i : Nat) (e : PltEntry) : (s.setObj i e).cache = s.cache := rfl
@[simp] theorem State.setObj_held (i : Nat) (e : PltEntry) : (s.setObj i e).held = s.held := rfl

/-! ### unpoison -/

@[simp] theorem State.unpoison_pending (a n : Nat) : (s.unpoison a n).pending = s.pending := rfl
@[simp] theorem State.unpoison_regs (a n : Nat) : (s.unpoison a n).regs = s.regs := rfl
@[simp] theorem State.unpoison_heldRegs (a n : Nat) : (s.unpoison a n).heldRegs = s.heldRegs := rfl
@[simp] theorem State.unpoison_pendSets (a n : Nat) : (s.unpoison a n).pendSets = s.pendSets := rfl
@[simp] theorem State.unpoison_caps (a n : Nat) : (s.unpoison a n).caps = s.caps := rfl
@[simp] theorem State.unpoison_holds (a n : Nat) : (s.unpoison a n).holds = s.holds := rfl
@[simp] theorem State.unpoison_mem (a n : Nat) : (s.unpoison a n).mem = s.mem := rfl
@[simp] theorem State.unpoison_bus (a n : Nat) : (s.unpoison a n).bus = s.bus := rfl
@[simp] theorem State.unpoison_free (a n : Nat) : (s.unpoison a n).free = s.free := rfl
@[simp] theorem State.unpoison_cyc (a n : Nat) : (s.unpoison a n).cyc = s.cyc := rfl
@[simp] theorem State.unpoison_acc (a n : Nat) : (s.unpoison a n).acc = s.acc := rfl
@[simp] theorem State.unpoison_fuses (a n : Nat) : (s.unpoison a n).fuses = s.fuses := rfl
@[simp] theorem State.unpoison_icu (a n : Nat) : (s.unpoison a n).icu = s.icu := rfl
@[simp] theorem State.unpoison_msix (a n : Nat) : (s.unpoison a n).msix = s.msix := rfl
@[simp] theorem State.unpoison_emcy (a n : Nat) : (s.unpoison a n).emcy = s.emcy := rfl
@[simp] theorem State.unpoison_epochCyc (a n : Nat) : (s.unpoison a n).epochCyc = s.epochCyc := rfl
@[simp] theorem State.unpoison_outbox (a n : Nat) : (s.unpoison a n).outbox = s.outbox := rfl
@[simp] theorem State.unpoison_acks (a n : Nat) : (s.unpoison a n).acks = s.acks := rfl
@[simp] theorem State.unpoison_cores (a n : Nat) : (s.unpoison a n).cores = s.cores := rfl
@[simp] theorem State.unpoison_pools (a n : Nat) : (s.unpoison a n).pools = s.pools := rfl
@[simp] theorem State.unpoison_kvpQueue (a n : Nat) : (s.unpoison a n).kvpQueue = s.kvpQueue := rfl
@[simp] theorem State.unpoison_plt (a n : Nat) : (s.unpoison a n).plt = s.plt := rfl
@[simp] theorem State.unpoison_migs (a n : Nat) : (s.unpoison a n).migs = s.migs := rfl
@[simp] theorem State.unpoison_tags (a n : Nat) : (s.unpoison a n).tags = s.tags := rfl
@[simp] theorem State.unpoison_scrubSince (a n : Nat) : (s.unpoison a n).scrubSince = s.scrubSince := rfl
@[simp] theorem State.unpoison_psScrubSince (a n : Nat) : (s.unpoison a n).psScrubSince = s.psScrubSince := rfl
@[simp] theorem State.unpoison_pltDisabling (a n : Nat) : (s.unpoison a n).pltDisabling = s.pltDisabling := rfl
@[simp] theorem State.unpoison_sched (a n : Nat) : (s.unpoison a n).sched = s.sched := rfl
@[simp] theorem State.unpoison_fus (a n : Nat) : (s.unpoison a n).fus = s.fus := rfl
@[simp] theorem State.unpoison_batch (a n : Nat) : (s.unpoison a n).batch = s.batch := rfl
@[simp] theorem State.unpoison_trl (a n : Nat) : (s.unpoison a n).trl = s.trl := rfl
@[simp] theorem State.unpoison_loops (a n : Nat) : (s.unpoison a n).loops = s.loops := rfl
@[simp] theorem State.unpoison_destSeen (a n : Nat) : (s.unpoison a n).destSeen = s.destSeen := rfl
@[simp] theorem State.unpoison_grpLast (a n : Nat) : (s.unpoison a n).grpLast = s.grpLast := rfl
@[simp] theorem State.unpoison_wdog (a n : Nat) : (s.unpoison a n).wdog = s.wdog := rfl
@[simp] theorem State.unpoison_tioUnread (a n : Nat) : (s.unpoison a n).tioUnread = s.tioUnread := rfl
@[simp] theorem State.unpoison_pulses (a n : Nat) : (s.unpoison a n).pulses = s.pulses := rfl
@[simp] theorem State.unpoison_cmpLate (a n : Nat) : (s.unpoison a n).cmpLate = s.cmpLate := rfl
@[simp] theorem State.unpoison_stepDue (a n : Nat) : (s.unpoison a n).stepDue = s.stepDue := rfl
@[simp] theorem State.unpoison_stepAt (a n : Nat) : (s.unpoison a n).stepAt = s.stepAt := rfl
@[simp] theorem State.unpoison_rates (a n : Nat) : (s.unpoison a n).rates = s.rates := rfl
@[simp] theorem State.unpoison_srcSeen (a n : Nat) : (s.unpoison a n).srcSeen = s.srcSeen := rfl
@[simp] theorem State.unpoison_lockRun (a n : Nat) : (s.unpoison a n).lockRun = s.lockRun := rfl
@[simp] theorem State.unpoison_rfx (a n : Nat) : (s.unpoison a n).rfx = s.rfx := rfl
@[simp] theorem State.unpoison_lanes (a n : Nat) : (s.unpoison a n).lanes = s.lanes := rfl
@[simp] theorem State.unpoison_segs (a n : Nat) : (s.unpoison a n).segs = s.segs := rfl
@[simp] theorem State.unpoison_ecs (a n : Nat) : (s.unpoison a n).ecs = s.ecs := rfl
@[simp] theorem State.unpoison_eths (a n : Nat) : (s.unpoison a n).eths = s.eths := rfl
@[simp] theorem State.unpoison_cwy (a n : Nat) : (s.unpoison a n).cwy = s.cwy := rfl
@[simp] theorem State.unpoison_secOp (a n : Nat) : (s.unpoison a n).secOp = s.secOp := rfl
@[simp] theorem State.unpoison_pwr (a n : Nat) : (s.unpoison a n).pwr = s.pwr := rfl
@[simp] theorem State.unpoison_telWaiting (a n : Nat) : (s.unpoison a n).telWaiting = s.telWaiting := rfl
@[simp] theorem State.unpoison_lfsr (a n : Nat) : (s.unpoison a n).lfsr = s.lfsr := rfl
@[simp] theorem State.unpoison_burst (a n : Nat) : (s.unpoison a n).burst = s.burst := rfl
@[simp] theorem State.unpoison_fresh (a n : Nat) : (s.unpoison a n).fresh = s.fresh := rfl
@[simp] theorem State.unpoison_vioAt (a n : Nat) : (s.unpoison a n).vioAt = s.vioAt := rfl
@[simp] theorem State.unpoison_cache (a n : Nat) : (s.unpoison a n).cache = s.cache := rfl
@[simp] theorem State.unpoison_held (a n : Nat) : (s.unpoison a n).held = s.held := rfl

/-! ### setStack -/

@[simp] theorem State.setStack_pending (t : Nat) (st : List (Nat × Nat)) : (s.setStack t st).pending = s.pending := rfl
@[simp] theorem State.setStack_regs (t : Nat) (st : List (Nat × Nat)) : (s.setStack t st).regs = s.regs := rfl
@[simp] theorem State.setStack_heldRegs (t : Nat) (st : List (Nat × Nat)) : (s.setStack t st).heldRegs = s.heldRegs := rfl
@[simp] theorem State.setStack_pendSets (t : Nat) (st : List (Nat × Nat)) : (s.setStack t st).pendSets = s.pendSets := rfl
@[simp] theorem State.setStack_caps (t : Nat) (st : List (Nat × Nat)) : (s.setStack t st).caps = s.caps := rfl
@[simp] theorem State.setStack_holds (t : Nat) (st : List (Nat × Nat)) : (s.setStack t st).holds = s.holds := rfl
@[simp] theorem State.setStack_mem (t : Nat) (st : List (Nat × Nat)) : (s.setStack t st).mem = s.mem := rfl
@[simp] theorem State.setStack_bus (t : Nat) (st : List (Nat × Nat)) : (s.setStack t st).bus = s.bus := rfl
@[simp] theorem State.setStack_free (t : Nat) (st : List (Nat × Nat)) : (s.setStack t st).free = s.free := rfl
@[simp] theorem State.setStack_cyc (t : Nat) (st : List (Nat × Nat)) : (s.setStack t st).cyc = s.cyc := rfl
@[simp] theorem State.setStack_acc (t : Nat) (st : List (Nat × Nat)) : (s.setStack t st).acc = s.acc := rfl
@[simp] theorem State.setStack_fuses (t : Nat) (st : List (Nat × Nat)) : (s.setStack t st).fuses = s.fuses := rfl
@[simp] theorem State.setStack_msix (t : Nat) (st : List (Nat × Nat)) : (s.setStack t st).msix = s.msix := rfl
@[simp] theorem State.setStack_emcy (t : Nat) (st : List (Nat × Nat)) : (s.setStack t st).emcy = s.emcy := rfl
@[simp] theorem State.setStack_epochCyc (t : Nat) (st : List (Nat × Nat)) : (s.setStack t st).epochCyc = s.epochCyc := rfl
@[simp] theorem State.setStack_outbox (t : Nat) (st : List (Nat × Nat)) : (s.setStack t st).outbox = s.outbox := rfl
@[simp] theorem State.setStack_acks (t : Nat) (st : List (Nat × Nat)) : (s.setStack t st).acks = s.acks := rfl
@[simp] theorem State.setStack_cores (t : Nat) (st : List (Nat × Nat)) : (s.setStack t st).cores = s.cores := rfl
@[simp] theorem State.setStack_pools (t : Nat) (st : List (Nat × Nat)) : (s.setStack t st).pools = s.pools := rfl
@[simp] theorem State.setStack_kvpQueue (t : Nat) (st : List (Nat × Nat)) : (s.setStack t st).kvpQueue = s.kvpQueue := rfl
@[simp] theorem State.setStack_plt (t : Nat) (st : List (Nat × Nat)) : (s.setStack t st).plt = s.plt := rfl
@[simp] theorem State.setStack_migs (t : Nat) (st : List (Nat × Nat)) : (s.setStack t st).migs = s.migs := rfl
@[simp] theorem State.setStack_tags (t : Nat) (st : List (Nat × Nat)) : (s.setStack t st).tags = s.tags := rfl
@[simp] theorem State.setStack_poison (t : Nat) (st : List (Nat × Nat)) : (s.setStack t st).poison = s.poison := rfl
@[simp] theorem State.setStack_scrubSince (t : Nat) (st : List (Nat × Nat)) : (s.setStack t st).scrubSince = s.scrubSince := rfl
@[simp] theorem State.setStack_psScrubSince (t : Nat) (st : List (Nat × Nat)) : (s.setStack t st).psScrubSince = s.psScrubSince := rfl
@[simp] theorem State.setStack_pltDisabling (t : Nat) (st : List (Nat × Nat)) : (s.setStack t st).pltDisabling = s.pltDisabling := rfl
@[simp] theorem State.setStack_sched (t : Nat) (st : List (Nat × Nat)) : (s.setStack t st).sched = s.sched := rfl
@[simp] theorem State.setStack_fus (t : Nat) (st : List (Nat × Nat)) : (s.setStack t st).fus = s.fus := rfl
@[simp] theorem State.setStack_batch (t : Nat) (st : List (Nat × Nat)) : (s.setStack t st).batch = s.batch := rfl
@[simp] theorem State.setStack_trl (t : Nat) (st : List (Nat × Nat)) : (s.setStack t st).trl = s.trl := rfl
@[simp] theorem State.setStack_loops (t : Nat) (st : List (Nat × Nat)) : (s.setStack t st).loops = s.loops := rfl
@[simp] theorem State.setStack_destSeen (t : Nat) (st : List (Nat × Nat)) : (s.setStack t st).destSeen = s.destSeen := rfl
@[simp] theorem State.setStack_grpLast (t : Nat) (st : List (Nat × Nat)) : (s.setStack t st).grpLast = s.grpLast := rfl
@[simp] theorem State.setStack_wdog (t : Nat) (st : List (Nat × Nat)) : (s.setStack t st).wdog = s.wdog := rfl
@[simp] theorem State.setStack_tioUnread (t : Nat) (st : List (Nat × Nat)) : (s.setStack t st).tioUnread = s.tioUnread := rfl
@[simp] theorem State.setStack_pulses (t : Nat) (st : List (Nat × Nat)) : (s.setStack t st).pulses = s.pulses := rfl
@[simp] theorem State.setStack_cmpLate (t : Nat) (st : List (Nat × Nat)) : (s.setStack t st).cmpLate = s.cmpLate := rfl
@[simp] theorem State.setStack_stepDue (t : Nat) (st : List (Nat × Nat)) : (s.setStack t st).stepDue = s.stepDue := rfl
@[simp] theorem State.setStack_stepAt (t : Nat) (st : List (Nat × Nat)) : (s.setStack t st).stepAt = s.stepAt := rfl
@[simp] theorem State.setStack_rates (t : Nat) (st : List (Nat × Nat)) : (s.setStack t st).rates = s.rates := rfl
@[simp] theorem State.setStack_srcSeen (t : Nat) (st : List (Nat × Nat)) : (s.setStack t st).srcSeen = s.srcSeen := rfl
@[simp] theorem State.setStack_lockRun (t : Nat) (st : List (Nat × Nat)) : (s.setStack t st).lockRun = s.lockRun := rfl
@[simp] theorem State.setStack_rfx (t : Nat) (st : List (Nat × Nat)) : (s.setStack t st).rfx = s.rfx := rfl
@[simp] theorem State.setStack_lanes (t : Nat) (st : List (Nat × Nat)) : (s.setStack t st).lanes = s.lanes := rfl
@[simp] theorem State.setStack_segs (t : Nat) (st : List (Nat × Nat)) : (s.setStack t st).segs = s.segs := rfl
@[simp] theorem State.setStack_ecs (t : Nat) (st : List (Nat × Nat)) : (s.setStack t st).ecs = s.ecs := rfl
@[simp] theorem State.setStack_eths (t : Nat) (st : List (Nat × Nat)) : (s.setStack t st).eths = s.eths := rfl
@[simp] theorem State.setStack_cwy (t : Nat) (st : List (Nat × Nat)) : (s.setStack t st).cwy = s.cwy := rfl
@[simp] theorem State.setStack_secOp (t : Nat) (st : List (Nat × Nat)) : (s.setStack t st).secOp = s.secOp := rfl
@[simp] theorem State.setStack_pwr (t : Nat) (st : List (Nat × Nat)) : (s.setStack t st).pwr = s.pwr := rfl
@[simp] theorem State.setStack_telWaiting (t : Nat) (st : List (Nat × Nat)) : (s.setStack t st).telWaiting = s.telWaiting := rfl
@[simp] theorem State.setStack_lfsr (t : Nat) (st : List (Nat × Nat)) : (s.setStack t st).lfsr = s.lfsr := rfl
@[simp] theorem State.setStack_burst (t : Nat) (st : List (Nat × Nat)) : (s.setStack t st).burst = s.burst := rfl
@[simp] theorem State.setStack_fresh (t : Nat) (st : List (Nat × Nat)) : (s.setStack t st).fresh = s.fresh := rfl
@[simp] theorem State.setStack_vioAt (t : Nat) (st : List (Nat × Nat)) : (s.setStack t st).vioAt = s.vioAt := rfl
@[simp] theorem State.setStack_cache (t : Nat) (st : List (Nat × Nat)) : (s.setStack t st).cache = s.cache := rfl
@[simp] theorem State.setStack_held (t : Nat) (st : List (Nat × Nat)) : (s.setStack t st).held = s.held := rfl

/-! ### What the updates of one component set -/

@[simp] theorem State.store_mem_eq (a : Nat) (bs : List Byte) : (s.store a bs).mem = memWrite s.mem a bs := rfl
@[simp] theorem State.answer_bus_eq (r : Reply) : (s.answer r).bus = r := rfl
@[simp] theorem State.send_outbox_eq (m : OutMsg) : (s.send m).outbox = s.outbox ++ [m] := rfl
@[simp] theorem State.setObj_plt_eq (i : Nat) (e : PltEntry) : (s.setObj i e).plt = tset s.plt i e := rfl
@[simp] theorem State.setSeg_segs_eq (g : Nat) (x : Seg) : (s.setSeg g x).segs = tset s.segs g x := rfl

/-! ### Reads of a register after an update of another component -/

@[simp] theorem State.rd_note (a b : Nat) (x : Nat) : (s.note a b).rd x = s.rd x := rfl
@[simp] theorem State.get_note (a b : Nat) (x : Fld) : (s.note a b).get x = s.get x := rfl
@[simp] theorem State.rd_heldWr (a : Nat) (v : Word64) (x : Nat) : (s.heldWr a v).rd x = s.rd x := rfl
@[simp] theorem State.get_heldWr (a : Nat) (v : Word64) (x : Fld) : (s.heldWr a v).get x = s.get x := rfl
@[simp] theorem State.rd_store (a : Nat) (bs : List Byte) (x : Nat) : (s.store a bs).rd x = s.rd x := rfl
@[simp] theorem State.get_store (a : Nat) (bs : List Byte) (x : Fld) : (s.store a bs).get x = s.get x := rfl
@[simp] theorem State.rd_answer (r : Reply) (x : Nat) : (s.answer r).rd x = s.rd x := rfl
@[simp] theorem State.get_answer (r : Reply) (x : Fld) : (s.answer r).get x = s.get x := rfl
@[simp] theorem State.rd_send (m : OutMsg) (x : Nat) : (s.send m).rd x = s.rd x := rfl
@[simp] theorem State.get_send (m : OutMsg) (x : Fld) : (s.send m).get x = s.get x := rfl
@[simp] theorem State.rd_setObj (i : Nat) (e : PltEntry) (x : Nat) : (s.setObj i e).rd x = s.rd x := rfl
@[simp] theorem State.get_setObj (i : Nat) (e : PltEntry) (x : Fld) : (s.setObj i e).get x = s.get x := rfl
@[simp] theorem State.rd_unpoison (a n : Nat) (x : Nat) : (s.unpoison a n).rd x = s.rd x := rfl
@[simp] theorem State.get_unpoison (a n : Nat) (x : Fld) : (s.unpoison a n).get x = s.get x := rfl
@[simp] theorem State.rd_setStack (t : Nat) (st : List (Nat × Nat)) (x : Nat) : (s.setStack t st).rd x = s.rd x := rfl
@[simp] theorem State.get_setStack (t : Nat) (st : List (Nat × Nat)) (x : Fld) : (s.setStack t st).get x = s.get x := rfl

end updates

end Sys2Proof.Machine
end

