-- ==== Sys2Proof/Laws/Frame.lean ====
section
/-! SUPPORT. From an effect to the statement's frame, and what an accepted register write does. -/

namespace Sys2Proof.Machine

open Sys2Proof Sys2Proof.Machine.Reg

theorem Keeps.refl (s : State) (p : Part) : Keeps s s p := by
  cases p <;> simp [Keeps]

/-- The frame of a command whose effect changes only some registers and components. -/
theorem Settled.changes {s0 s1 t : State} {regs : List Nat} {parts : List Part} (h : Settled s0.fuses s0 s1 t)
    (hr : ∀ a, a ∉ regs → a ≠ DGN_CNT_MERGE → a ≠ DGN_EVT → s1.rd a = s0.rd a)
    (hk : ∀ p, p ∉ parts → Keeps s0 s1 p) : ChangesOnly regs parts s0 t := by
  refine ⟨h.pending, h.fuses, fun a h0 h1 h2 => (h.rd a h1 h2).trans (hr a h0 h1 h2), fun p hp => ?_⟩
  have k := hk p hp
  cases p <;> simp only [Keeps] at k ⊢
  case held => rw [h.heldRegs, h.pendSets]; exact k
  case halves => rw [h.caps, h.holds]; exact k
  case mem => rw [h.mem]; exact k
  case poison => rw [h.poison]; exact k
  case bus => rw [h.bus]; exact k
  case free => rw [h.free]; exact k
  case time => rw [h.cyc, h.acc]; exact k
  case icu => rw [h.stk]; exact k
  case msix => rw [h.masked, h.table, h.barLog]; exact k
  case out =>
    obtain ⟨l, hl, hm⟩ := k
    obtain ⟨l', hl', hm'⟩ := h.out
    refine ⟨l ++ l', by rw [hl', hl, List.append_assoc], fun m hm2 => ?_⟩
    rcases List.mem_append.1 hm2 with hm2 | hm2
    · exact hm m hm2
    · exact hm' m hm2
  case diag => rw [h.emcy, h.epochCyc, h.telWaiting, h.lfsr, h.burst]; exact k
  case cores => rw [h.cores, h.acks]; exact k
  case pools => rw [h.pools, h.kvpQueue]; exact k
  case place => rw [h.plt, h.migs, h.tags, h.scrubSince, h.psScrubSince, h.pltDisabling, h.cache]; exact k
  case sched => rw [h.sched]; exact k
  case fus => rw [h.fus]; exact k
  case solve => rw [h.batch]; exact k
  case trl => rw [h.trl]; exact k
  case loops => rw [h.loops, h.grpLast, h.destSeen]; exact k
  case servo => rw [h.pulses, h.cmpLate, h.stepDue, h.rates, h.srcSeen, h.lockRun, h.stepAt]; exact k
  case harts => rw [h.wdog, h.tioUnread]; exact k
  case rfx => rw [h.rfx]; exact k
  case lanes => rw [h.lanes]; exact k
  case segs => rw [h.segs]; exact k
  case ecs => rw [h.ecs]; exact k
  case eths => rw [h.eths]; exact k
  case cwy => rw [h.cwy]; exact k
  case sec => rw [h.secOp]; exact k
  case pwr => rw [h.pwr]; exact k
  case vio => rw [h.vioAt]; exact k
  case waiting => rw [h.held]; exact k

/-! ### Accepted writes -/

/-- An access in an allowed form. -/
theorem formOk_of_causes {s : State} {who : Initiator} {h : RegHit} {a size : Nat} {w : Bool}
    (k : accessCauses s who h a size w = []) : formOk h a size = true := by
  unfold accessCauses at k
  by_contra c
  simp [c] at k

/-- A whole write that no cause meets is stored, with the value in the register's width; a held half of the initiator is
gone where the register has 64 bits. -/
theorem regWrite_of_ok {s : State} {who : Initiator} {a v : Nat} {h : RegHit} (hh : regHit s who a = some h)
    (hw : h.desc.width = 32 ∨ h.desc.width = 64) (hv : v < 2 ^ h.desc.width)
    (ca : accessCauses s who h a (h.desc.width / 8) true = []) (cv : valueCauses s h v = []) :
    regWrite s who a (h.desc.width / 8) v = storeWrite (if h.desc.width = 32 then s else dropHold s who) h v := by
  have f := formOk_of_causes ca
  unfold regWrite
  rw [hh]
  simp only
  rcases hw with hw | hw
  · rw [hw] at hv ca ⊢
    rw [if_pos (Or.inl rfl), if_pos rfl, Nat.mod_eq_of_lt hv, writeWhole, ca, cv]
    rfl
  · rw [hw] at hv ca f ⊢
    have e : valueCauses (dropHold s who) h v = [] := cv
    rw [if_neg (by simp [f]), if_pos (by decide), Nat.mod_eq_of_lt hv, ca, cv, if_neg (by decide), if_neg (by decide),
      writeWhole, e]
    rfl

/-- An accepted write of a register command: what `storeWrite` makes of it. -/
theorem writeReg_of_ok {s : State} {who : Initiator} {a v : Nat} {h : RegHit} (ok : WriteOk s who a v)
    (hh : regHit s who a = some h) (hr : regAt a = some (h.desc, h.idx, h.upper))
    (hw : h.desc.width = 32 ∨ h.desc.width = 64) :
    writeReg s who a v = storeWrite (if h.desc.width = 32 then s else dropHold s who) h v := by
  rw [WriteOk, hh] at ok
  simp only [Bool.and_eq_true, List.isEmpty_iff, Bool.not_eq_true', decide_eq_true_eq] at ok
  have e : regWidth a = h.desc.width := by
    unfold regWidth
    rw [hr]
    rfl
  rw [writeReg, e]
  exact regWrite_of_ok hh hw ok.2 ok.1.1.1 ok.1.1.2

/-- The register an aligned address of the register map names for an initiator that finds it there. -/
theorem regHit_of_at {s : State} {who : Initiator} {a : Nat} {d : RegDesc} {is : List Nat} (hb : busAddr who a = some a)
    (hc : absentCore s a = false) (h4 : a % 4 = 0) (hr : regAt a = some (d, is, false)) :
    regHit s who a = some { base := a, desc := d, idx := is, upper := false } := by
  have e : a / 4 * 4 = a := by omega
  simp [regHit, hb, hc, e, hr]

/-- Every initiator finds the registers outside the HRC sub-block at their own addresses. -/
theorem busAddr_self {who : Initiator} {a : Nat} (h1 : 0x100000000000 ≤ a) (h2 : a < 0x100008600000 ∨ 0x100008700000 ≤ a) :
    busAddr who a = some a := by
  have h3 : ¬ (0x100008600000 ≤ a ∧ a < 0x100008700000) := by omega
  have h4 : ¬ (0x80000000 ≤ a ∧ a < 0x81000000) := by omega
  cases who <;> simp only [busAddr, if_neg h3, if_neg h4]

end Sys2Proof.Machine
end

