-- ==== Sys2Proof/Laws/Memory.lean ====
section
/-! SUPPORT. Laws of memory: a read after a write, and the canonical form that every memory operation keeps. -/

namespace Sys2Proof.Machine

open Sys2Proof

/-! ### Reads after writes -/

@[simp] theorem memGet_memSet_same (m : List Host.Cell) (a : Nat) (v : Byte)
    (h : m.Pairwise fun p q => p.1 < q.1) : memGet (memSet m a v) a = v := by
  induction m with
  | nil => by_cases hv : v = 0#8 <;> simp [memSet, memGet, hv]
  | cons p m ih =>
    obtain ⟨k, b⟩ := p
    rw [List.pairwise_cons] at h
    have gone : ∀ l : List Host.Cell, (∀ q ∈ l, a < q.1) → memGet l a = 0#8 := by
      intro l hl
      induction l with
      | nil => rfl
      | cons q l ihl =>
        have := hl q (by simp)
        rw [memGet, if_neg (by omega)]
        exact ihl fun r hr => hl r (by simp [hr])
    by_cases hv : v = 0#8
    · subst hv
      by_cases h1 : a < k
      · simp only [memSet, h1, if_true]
        rw [memGet, if_neg (by omega), gone m]
        intro q hq; have := h.1 q hq; simp only at this; omega
      · by_cases h2 : a = k
        · subst h2; simp only [memSet, Nat.lt_irrefl, if_true, if_false]; exact gone m fun q hq => h.1 q hq
        · simp only [memSet, h1, h2, if_false]; rw [memGet, if_neg (Ne.symm h2), ih h.2]
    · by_cases h1 : a < k
      · simp [memSet, h1, hv, memGet]
      · by_cases h2 : a = k
        · simp [memSet, h2, hv, memGet]
        · simp only [memSet, h1, h2, if_false]; rw [memGet, if_neg (Ne.symm h2), ih h.2]

theorem memGet_memSet_ne (m : List Host.Cell) (a x : Nat) (v : Byte) (h : x ≠ a) :
    memGet (memSet m a v) x = memGet m x := by
  induction m with
  | nil => by_cases hv : v = 0#8 <;> simp [memSet, memGet, hv, Ne.symm h]
  | cons p m ih =>
    obtain ⟨k, b⟩ := p
    simp only [memSet]
    split
    · by_cases hv : v = 0#8
      · simp [hv]
      · rw [if_neg hv, memGet, if_neg (Ne.symm h)]
    · split
      · subst_vars
        by_cases hv : v = 0#8
        · rw [if_pos hv, memGet, if_neg (Ne.symm h)]
        · rw [if_neg hv, memGet, memGet, if_neg (Ne.symm h), if_neg (Ne.symm h)]
      · simp only [memGet, ih]

theorem memGet_memWrite_out (m : List Host.Cell) (a x : Nat) (bs : List Byte) (h : x < a ∨ a + bs.length ≤ x) :
    memGet (memWrite m a bs) x = memGet m x := by
  induction bs generalizing m a with
  | nil => rfl
  | cons b bs ih =>
    simp only [List.length_cons] at h
    rw [memWrite, ih _ _ (by omega), memGet_memSet_ne _ _ _ _ (by omega)]

/-- A byte outside the bytes stored reads as before. -/
theorem State.store_out (s : State) (a x : Nat) (bs : List Byte) (h : x < a ∨ a + bs.length ≤ x) :
    memGet (s.store a bs).mem x = memGet s.mem x := memGet_memWrite_out _ _ _ _ h

/-! ### The canonical form -/

theorem Memory.wf_iff (m : List Host.Cell) :
    Memory.wf m = true ↔ (m.Pairwise fun p q => p.1 < q.1) ∧ ∀ p ∈ m, p.2 ≠ 0#8 := by
  induction m with
  | nil => simp [Memory.wf]
  | cons p m ih =>
    obtain ⟨a, b⟩ := p
    cases m with
    | nil => simp [Memory.wf]
    | cons q m =>
      obtain ⟨a', b'⟩ := q
      rw [Memory.wf, List.pairwise_cons]
      simp only [Bool.and_eq_true, bne_iff_ne, ne_eq, decide_eq_true_eq, ih]
      constructor
      · rintro ⟨⟨hb, ha⟩, hp, hn⟩
        refine ⟨⟨fun q hq => ?_, hp⟩, fun q hq => ?_⟩
        · rcases List.mem_cons.1 hq with rfl | hq
          · exact ha
          · exact Nat.lt_trans ha ((List.pairwise_cons.1 hp).1 q hq)
        · rcases List.mem_cons.1 hq with rfl | hq
          · exact hb
          · exact hn q hq
      · rintro ⟨⟨ha, hp⟩, hn⟩
        exact ⟨⟨hn (a, b) (by simp), ha (a', b') (by simp)⟩, hp, fun q hq => hn q (by simp [hq])⟩

theorem mem_memSet (m : List Host.Cell) (a : Nat) (v : Byte) (p : Host.Cell) (h : p ∈ memSet m a v) :
    p ∈ m ∨ (p = (a, v) ∧ v ≠ 0#8) := by
  induction m with
  | nil => by_cases hv : v = 0#8 <;> simp_all [memSet]
  | cons q m ih =>
    obtain ⟨k, b⟩ := q
    simp only [memSet] at h
    split at h
    · by_cases hv : v = 0#8
      · rw [if_pos hv] at h; exact .inl h
      · rw [if_neg hv] at h
        rcases List.mem_cons.1 h with rfl | h
        · exact .inr ⟨rfl, hv⟩
        · exact .inl h
    · split at h
      · by_cases hv : v = 0#8
        · rw [if_pos hv] at h; exact .inl (by simp [h])
        · rw [if_neg hv] at h
          rcases List.mem_cons.1 h with rfl | h
          · exact .inr ⟨rfl, hv⟩
          · exact .inl (by simp [h])
      · rcases List.mem_cons.1 h with rfl | h
        · exact .inl (by simp)
        · exact (ih h).imp_left fun h => by simp [h]

/-- A byte write keeps the canonical form. -/
theorem memSet_wf (m : List Host.Cell) (a : Nat) (v : Byte) (h : Memory.wf m = true) : Memory.wf (memSet m a v) = true := by
  rw [Memory.wf_iff] at *
  refine ⟨?_, fun p hp => ?_⟩
  · obtain ⟨hp, -⟩ := h
    induction m with
    | nil => by_cases hv : v = 0#8 <;> simp [memSet, hv]
    | cons q m ih =>
      obtain ⟨k, b⟩ := q
      rw [List.pairwise_cons] at hp
      simp only [memSet]
      split
      · by_cases hv : v = 0#8
        · rw [if_pos hv, List.pairwise_cons]; exact hp
        · rw [if_neg hv, List.pairwise_cons, List.pairwise_cons]
          refine ⟨fun q hq => ?_, hp⟩
          rcases List.mem_cons.1 hq with rfl | hq
          · assumption
          · have := hp.1 q hq; simp only at *; omega
      · split
        · subst_vars
          by_cases hv : v = 0#8
          · rw [if_pos hv]; exact hp.2
          · rw [if_neg hv, List.pairwise_cons]; exact ⟨fun q hq => hp.1 q hq, hp.2⟩
        · rw [List.pairwise_cons]
          refine ⟨fun q hq => ?_, ih hp.2⟩
          rcases mem_memSet _ _ _ _ hq with hq | ⟨rfl, -⟩
          · exact hp.1 q hq
          · simp only; omega
  · rcases mem_memSet _ _ _ _ hp with hp | ⟨rfl, hv⟩
    · exact h.2 p hp
    · exact hv

/-- A write of a run of bytes keeps it. -/
theorem memWrite_wf (m : List Host.Cell) (a : Nat) (bs : List Byte) (h : Memory.wf m = true) :
    Memory.wf (memWrite m a bs) = true := by
  induction bs generalizing m a with
  | nil => exact h
  | cons b bs ih => exact ih _ _ (memSet_wf _ _ _ h)

/-- A store keeps it. -/
theorem State.store_wf (s : State) (a : Nat) (bs : List Byte) (h : Memory.wf s.mem = true) :
    Memory.wf (s.store a bs).mem = true := memWrite_wf _ _ _ h

/-- Undetermined bytes keep it. -/
theorem State.scramble_wf (s : State) (a n : Nat) (h : Memory.wf s.mem = true) :
    Memory.wf (s.scramble a n).mem = true := memWrite_wf _ _ _ h

/-- Dropping cells keeps it: an area that loses its contents. -/
theorem filter_wf (m : List Host.Cell) (p : Host.Cell → Bool) (h : Memory.wf m = true) :
    Memory.wf (m.filter p) = true := by
  rw [Memory.wf_iff] at *
  exact ⟨h.1.filter p, fun q hq => h.2 q (List.mem_of_mem_filter hq)⟩

theorem reset_mem_wf : Memory.wf State.reset.mem = true := rfl

end Sys2Proof.Machine
end

