-- ==== Sys2Proof/Laws/PerInstr.lean ====
section
/-! SUPPORT. Per-command statements: a well-formed command's sender is an initiator that the device has. -/

namespace Sys2Proof

/-- The initiator that sends a command; none for an event. -/
def Instr.sender (i : Instr) : Option Initiator :=
  match i with
  | .registerWrite who _ _ _ => some who
  | .registerWriteLowerHalf who _ _ => some who
  | .registerReadLowerHalf who _ => some who
  | .counterClear who _ _ => some who
  | .descriptorFetch _ => none
  | .dispatch _ => none
  | .load _ => none
  | .matmul _ => none
  | .conv _ => none
  | .pool _ => none
  | .roia _ => none
  | .attn _ => none
  | .vec _ => none
  | .pull _ => none
  | .store _ => none
  | .fence _ => none
  | .commit _ => none
  | .readStallResume _ _ => none
  | .writeStallResume _ _ => none
  | .tileLanded _ _ _ => none
  | .storeAck _ _ => none
  | .commandComplete _ _ => none
  | .budgetRaise _ _ => none
  | .budgetKill _ _ => none
  | .killComplete _ => none
  | .tcEnableWrite who _ _ => some who
  | .slotBoundary => none
  | .coreRelockEnd _ => none
  | .commitReport _ => none
  | .spillTileAck _ => none
  | .restoreTileLanded _ _ => none
  | .ttCommit who _ => some who
  | .schedulerEnable who _ => some who
  | .contextEnable who _ _ => some who
  | .contextFaultClear who _ _ => some who
  | .remoteReadResponse _ _ => none
  | .fasAccess who _ _ _ _ _ _ => some who
  | .pltCreate => none
  | .pltDestroy => none
  | .pltPromote => none
  | .pltEvict => none
  | .pltPin => none
  | .pltUnpin => none
  | .pltRead => none
  | .migrationTile _ _ _ => none
  | .publicationWalk _ => none
  | .pltEnable who _ => some who
  | .scrubTile _ _ => none
  | .psramScrub _ _ _ => none
  | .ddrRefresh _ => none
  | .kvpEnable who _ _ => some who
  | .kvpAdmit who _ _ => some who
  | .kvpRetire who _ _ => some who
  | .kvpServeRequest _ => none
  | .timeStepGo who _ => some who
  | .timeStepExecute => none
  | .fwSampleSubmit who _ => some who
  | .servoRateApply => none
  | .sourceTimeout => none
  | .servoEnable who _ => some who
  | .servoCommit who _ => some who
  | .compareFire _ _ => none
  | .compareCommit who _ _ => some who
  | .compareEnable who _ _ => some who
  | .pulseEnd _ => none
  | .csi2Frame _ _ _ _ _ _ _ _ _ => none
  | .ethSensorFrame _ _ _ _ => none
  | .imuDataReady _ _ => none
  | .imuBurstComplete _ _ => none
  | .conversionResult _ _ => none
  | .snsProdWrite who _ _ => some who
  | .modelTimeout _ => none
  | .outputInstant => none
  | .slotSnapshot => none
  | .gridSnapshot => none
  | .fusCommit who _ => some who
  | .batchStart => none
  | .problemComplete _ => none
  | .batchEnd => none
  | .solverDisable who _ => some who
  | .fusionProblemComplete => none
  | .occScanEnd => none
  | .occBroadcast => none
  | .occCommit => none
  | .trlRequestAccept => none
  | .searchExpansion => none
  | .planOutput => none
  | .trlDeadline => none
  | .trlCommit who _ => some who
  | .trlLatch => none
  | .trlBankLoaded => none
  | .trlEnableWrite who _ => some who
  | .hartRunWrite who _ _ => some who
  | .watchdogKick who _ _ => some who
  | .watchdogExpire _ => none
  | .icuClaim who _ => some who
  | .icuComplete who _ _ => some who
  | .icuReset who _ _ => some who
  | .icuSwi who _ => some who
  | .tioInputEdge _ _ => none
  | .loopOutputApply _ _ => none
  | .loopEnableWrite who _ _ => some who
  | .plausClear who _ _ => some who
  | .reflexRelease _ _ _ _ => none
  | .reflexOutput => none
  | .reflexLatch _ => none
  | .rfxCommit who _ => some who
  | .rfxBindLatch => none
  | .sluiceFill => none
  | .sluiceArm => none
  | .sluiceCancel => none
  | .sluiceHartArm who _ _ => some who
  | .fillHeaderLanded _ _ => none
  | .fillPieceLanded _ _ => none
  | .fillLastByte _ _ => none
  | .armCheckEnd _ _ => none
  | .fillTimeout _ => none
  | .laneStale _ => none
  | .ecsFrame _ _ _ => none
  | .ecsAlRequest _ => none
  | .ecsWatchdogExpire => none
  | .ecsSync0 _ => none
  | .ecsSm2Buffer _ => none
  | .ecsInputCapture => none
  | .mbxRequest => none
  | .sdoUpload _ _ _ => none
  | .sdoDownload _ _ _ _ => none
  | .sdoSegmentTimeout => none
  | .sdoRecordCommit _ _ _ => none
  | .sdoLoopCommit _ _ => none
  | .emergencySend => none
  | .ecsLinkLoss _ => none
  | .ecsLinkReopen _ => none
  | .ecmOutputSnapshot _ => none
  | .ecmFrameSend _ => none
  | .ecmFrameReturn _ _ _ _ => none
  | .ecmDeadline _ => none
  | .ecmMergeEnd _ => none
  | .ecmSubstClear who _ _ => some who
  | .ecmEnable who _ _ => some who
  | .ecmAcyclicGo who _ _ => some who
  | .ecmAcyclicSend _ => none
  | .ecmAcyclicReturn _ _ => none
  | .ecmAcyclicTimeout _ => none
  | .ethRxFrame _ _ _ _ => none
  | .ethTxSend _ => none
  | .ethTxDone _ _ => none
  | .pcieRequest _ _ _ _ _ => none
  | .pcieCompletionTimeout _ _ => none
  | .msixUnmask _ => none
  | .cwyEnable who _ _ => some who
  | .cwyTrainEnd => none
  | .cwyDiscoveryResult _ _ _ _ _ _ _ => none
  | .cwyFlitReceive _ _ => none
  | .cwyNak _ _ => none
  | .cwyReadReq _ _ _ _ _ _ _ => none
  | .cwyRetrain _ => none
  | .cwyLinkTrained _ => none
  | .cwyDownTimeout _ => none
  | .cwyTimeExchange => none
  | .cwyTimeResponse _ _ _ _ => none
  | .cwyStepAnnounce _ _ _ _ => none
  | .cwyTtAnnounce _ _ => none
  | .powerOn => none
  | .bootRomStart => none
  | .bootLoadEnd _ => none
  | .brownoutWarning => none
  | .brownoutWarningClear => none
  | .brownoutTrip => none
  | .shutdownFinalFrame => none
  | .shutdownOutputsLow => none
  | .shutdownRailsOff => none
  | .thermalSample _ => none
  | .thermalTrip => none
  | .resetPin => none
  | .supplyOvercurrent _ => none
  | .supplyRetry _ => none
  | .secExtend who _ => some who
  | .secAttest who _ => some who
  | .secExport who _ => some who
  | .secFuseKey who _ => some who
  | .secFuseRevoke who _ => some who
  | .secFuseRollback who _ => some who
  | .secFuseProt who _ => some who
  | .secLcAdvance who _ => some who
  | .secCmdDone => none
  | .dormantRequest who _ => some who
  | .dormantEntered => none
  | .wakeEvent _ => none
  | .wakePllLock => none
  | .wakeAppStart => none
  | .wakeComplete => none
  | .powerCapSample _ => none
  | .epochBump who _ => some who
  | .violatingRead who _ _ => some who
  | .hartPrivateAccess _ _ _ _ _ _ => none
  | .aonClockLock => none
  | .thermalRestart => none
  | .ddrRetrainEnd _ => none
  | .ethLinkChange _ _ => none
  | .ecmLinkChange _ _ _ => none
  | .pcieLinkChange _ _ _ => none
  | .sync1 => none
  | .pltBadopRequest => none
  | .sluiceBadopRequest => none
  | .sampleHistoryPush _ _ _ => none

theorem andLeft {a b : Bool} (h : (a && b) = true) : a = true := by cases a <;> simp_all

end Sys2Proof

open Sys2Proof

/-- A well-formed command comes from a hart or host that the device has. -/
def Sys2Proof.Laws.Bounded.Statement (i : Instr) : Prop := wellFormed i = true → ∀ w, i.sender = some w → w.ok = true

open Sys2Proof.Laws.Bounded

theorem Sys2Proof.Laws.Bounded.registerWrite (who : Initiator) (addr size : Nat) (val : Word64) : Statement (.registerWrite who addr size val) := fun h _ e => Option.some.inj e ▸ Sys2Proof.andLeft (Sys2Proof.andLeft (h))
theorem Sys2Proof.Laws.Bounded.registerWriteLowerHalf (who : Initiator) (addr : Nat) (val : Word32) : Statement (.registerWriteLowerHalf who addr val) := fun h _ e => Option.some.inj e ▸ Sys2Proof.andLeft (h)
theorem Sys2Proof.Laws.Bounded.registerReadLowerHalf (who : Initiator) (addr : Nat) : Statement (.registerReadLowerHalf who addr) := fun h _ e => Option.some.inj e ▸ Sys2Proof.andLeft (h)
theorem Sys2Proof.Laws.Bounded.counterClear (who : Initiator) (addr : Nat) (val : Word64) : Statement (.counterClear who addr val) := fun h _ e => Option.some.inj e ▸ Sys2Proof.andLeft (h)
theorem Sys2Proof.Laws.Bounded.descriptorFetch (n : Nat) : Statement (.descriptorFetch n) := fun _ _ e => nomatch e
theorem Sys2Proof.Laws.Bounded.dispatch (n : Nat) : Statement (.dispatch n) := fun _ _ e => nomatch e
theorem Sys2Proof.Laws.Bounded.load (n : Nat) : Statement (.load n) := fun _ _ e => nomatch e
theorem Sys2Proof.Laws.Bounded.matmul (n : Nat) : Statement (.matmul n) := fun _ _ e => nomatch e
theorem Sys2Proof.Laws.Bounded.conv (n : Nat) : Statement (.conv n) := fun _ _ e => nomatch e
theorem Sys2Proof.Laws.Bounded.pool (n : Nat) : Statement (.pool n) := fun _ _ e => nomatch e
theorem Sys2Proof.Laws.Bounded.roia (n : Nat) : Statement (.roia n) := fun _ _ e => nomatch e
theorem Sys2Proof.Laws.Bounded.attn (n : Nat) : Statement (.attn n) := fun _ _ e => nomatch e
theorem Sys2Proof.Laws.Bounded.vec (n : Nat) : Statement (.vec n) := fun _ _ e => nomatch e
theorem Sys2Proof.Laws.Bounded.pull (n : Nat) : Statement (.pull n) := fun _ _ e => nomatch e
theorem Sys2Proof.Laws.Bounded.store (n : Nat) : Statement (.store n) := fun _ _ e => nomatch e
theorem Sys2Proof.Laws.Bounded.fence (n : Nat) : Statement (.fence n) := fun _ _ e => nomatch e
theorem Sys2Proof.Laws.Bounded.commit (n : Nat) : Statement (.commit n) := fun _ _ e => nomatch e
theorem Sys2Proof.Laws.Bounded.readStallResume (n path : Nat) : Statement (.readStallResume n path) := fun _ _ e => nomatch e
theorem Sys2Proof.Laws.Bounded.writeStallResume (n path : Nat) : Statement (.writeStallResume n path) := fun _ _ e => nomatch e
theorem Sys2Proof.Laws.Bounded.tileLanded (n tile : Nat) (errs : List Nat) : Statement (.tileLanded n tile errs) := fun _ _ e => nomatch e
theorem Sys2Proof.Laws.Bounded.storeAck (n tile : Nat) : Statement (.storeAck n tile) := fun _ _ e => nomatch e
theorem Sys2Proof.Laws.Bounded.commandComplete (n path : Nat) : Statement (.commandComplete n path) := fun _ _ e => nomatch e
theorem Sys2Proof.Laws.Bounded.budgetRaise (n path : Nat) : Statement (.budgetRaise n path) := fun _ _ e => nomatch e
theorem Sys2Proof.Laws.Bounded.budgetKill (n path : Nat) : Statement (.budgetKill n path) := fun _ _ e => nomatch e
theorem Sys2Proof.Laws.Bounded.killComplete (n : Nat) : Statement (.killComplete n) := fun _ _ e => nomatch e
theorem Sys2Proof.Laws.Bounded.tcEnableWrite (who : Initiator) (n : Nat) (val : Word64) : Statement (.tcEnableWrite who n val) := fun h _ e => Option.some.inj e ▸ Sys2Proof.andLeft (h)
theorem Sys2Proof.Laws.Bounded.slotBoundary : Statement (.slotBoundary) := fun _ _ e => nomatch e
theorem Sys2Proof.Laws.Bounded.coreRelockEnd (n : Nat) : Statement (.coreRelockEnd n) := fun _ _ e => nomatch e
theorem Sys2Proof.Laws.Bounded.commitReport (n : Nat) : Statement (.commitReport n) := fun _ _ e => nomatch e
theorem Sys2Proof.Laws.Bounded.spillTileAck (n : Nat) : Statement (.spillTileAck n) := fun _ _ e => nomatch e
theorem Sys2Proof.Laws.Bounded.restoreTileLanded (n : Nat) (errs : List Nat) : Statement (.restoreTileLanded n errs) := fun _ _ e => nomatch e
theorem Sys2Proof.Laws.Bounded.ttCommit (who : Initiator) (val : Word64) : Statement (.ttCommit who val) := fun h _ e => Option.some.inj e ▸ h
theorem Sys2Proof.Laws.Bounded.schedulerEnable (who : Initiator) (val : Word64) : Statement (.schedulerEnable who val) := fun h _ e => Option.some.inj e ▸ h
theorem Sys2Proof.Laws.Bounded.contextEnable (who : Initiator) (n : Nat) (val : Word64) : Statement (.contextEnable who n val) := fun h _ e => Option.some.inj e ▸ Sys2Proof.andLeft (h)
theorem Sys2Proof.Laws.Bounded.contextFaultClear (who : Initiator) (n : Nat) (val : Word64) : Statement (.contextFaultClear who n val) := fun h _ e => Option.some.inj e ▸ Sys2Proof.andLeft (h)
theorem Sys2Proof.Laws.Bounded.remoteReadResponse (slot : Nat) (data : List Byte) : Statement (.remoteReadResponse slot data) := fun _ _ e => nomatch e
theorem Sys2Proof.Laws.Bounded.fasAccess (who : Initiator) (write : Bool) (addr len : Nat) (data : List Byte) (ecc block : Nat) : Statement (.fasAccess who write addr len data ecc block) := fun h _ e => Option.some.inj e ▸ Sys2Proof.andLeft (Sys2Proof.andLeft (Sys2Proof.andLeft (Sys2Proof.andLeft (Sys2Proof.andLeft (Sys2Proof.andLeft (h))))))
theorem Sys2Proof.Laws.Bounded.pltCreate : Statement (.pltCreate) := fun _ _ e => nomatch e
theorem Sys2Proof.Laws.Bounded.pltDestroy : Statement (.pltDestroy) := fun _ _ e => nomatch e
theorem Sys2Proof.Laws.Bounded.pltPromote : Statement (.pltPromote) := fun _ _ e => nomatch e
theorem Sys2Proof.Laws.Bounded.pltEvict : Statement (.pltEvict) := fun _ _ e => nomatch e
theorem Sys2Proof.Laws.Bounded.pltPin : Statement (.pltPin) := fun _ _ e => nomatch e
theorem Sys2Proof.Laws.Bounded.pltUnpin : Statement (.pltUnpin) := fun _ _ e => nomatch e
theorem Sys2Proof.Laws.Bounded.pltRead : Statement (.pltRead) := fun _ _ e => nomatch e
theorem Sys2Proof.Laws.Bounded.migrationTile (obj : Nat) (errs : List Nat) (data : List Byte) : Statement (.migrationTile obj errs data) := fun _ _ e => nomatch e
theorem Sys2Proof.Laws.Bounded.publicationWalk (tag : Nat) : Statement (.publicationWalk tag) := fun _ _ e => nomatch e
theorem Sys2Proof.Laws.Bounded.pltEnable (who : Initiator) (val : Word64) : Statement (.pltEnable who val) := fun h _ e => Option.some.inj e ▸ h
theorem Sys2Proof.Laws.Bounded.scrubTile (ce ue : List Nat) : Statement (.scrubTile ce ue) := fun _ _ e => nomatch e
theorem Sys2Proof.Laws.Bounded.psramScrub (d : Nat) (ce ue : List Nat) : Statement (.psramScrub d ce ue) := fun _ _ e => nomatch e
theorem Sys2Proof.Laws.Bounded.ddrRefresh (wait : Nat) : Statement (.ddrRefresh wait) := fun _ _ e => nomatch e
theorem Sys2Proof.Laws.Bounded.kvpEnable (who : Initiator) (n : Nat) (val : Word64) : Statement (.kvpEnable who n val) := fun h _ e => Option.some.inj e ▸ Sys2Proof.andLeft (h)
theorem Sys2Proof.Laws.Bounded.kvpAdmit (who : Initiator) (n : Nat) (val : Word64) : Statement (.kvpAdmit who n val) := fun h _ e => Option.some.inj e ▸ Sys2Proof.andLeft (h)
theorem Sys2Proof.Laws.Bounded.kvpRetire (who : Initiator) (n : Nat) (val : Word64) : Statement (.kvpRetire who n val) := fun h _ e => Option.some.inj e ▸ Sys2Proof.andLeft (h)
theorem Sys2Proof.Laws.Bounded.kvpServeRequest (n : Nat) : Statement (.kvpServeRequest n) := fun _ _ e => nomatch e
theorem Sys2Proof.Laws.Bounded.timeStepGo (who : Initiator) (val : Word64) : Statement (.timeStepGo who val) := fun h _ e => Option.some.inj e ▸ h
theorem Sys2Proof.Laws.Bounded.timeStepExecute : Statement (.timeStepExecute) := fun _ _ e => nomatch e
theorem Sys2Proof.Laws.Bounded.fwSampleSubmit (who : Initiator) (val : Word64) : Statement (.fwSampleSubmit who val) := fun h _ e => Option.some.inj e ▸ h
theorem Sys2Proof.Laws.Bounded.servoRateApply : Statement (.servoRateApply) := fun _ _ e => nomatch e
theorem Sys2Proof.Laws.Bounded.sourceTimeout : Statement (.sourceTimeout) := fun _ _ e => nomatch e
theorem Sys2Proof.Laws.Bounded.servoEnable (who : Initiator) (val : Word64) : Statement (.servoEnable who val) := fun h _ e => Option.some.inj e ▸ h
theorem Sys2Proof.Laws.Bounded.servoCommit (who : Initiator) (val : Word64) : Statement (.servoCommit who val) := fun h _ e => Option.some.inj e ▸ h
theorem Sys2Proof.Laws.Bounded.compareFire (c ecc : Nat) : Statement (.compareFire c ecc) := fun _ _ e => nomatch e
theorem Sys2Proof.Laws.Bounded.compareCommit (who : Initiator) (c : Nat) (val : Word64) : Statement (.compareCommit who c val) := fun h _ e => Option.some.inj e ▸ Sys2Proof.andLeft (h)
theorem Sys2Proof.Laws.Bounded.compareEnable (who : Initiator) (c : Nat) (val : Word64) : Statement (.compareEnable who c val) := fun h _ e => Option.some.inj e ▸ Sys2Proof.andLeft (h)
theorem Sys2Proof.Laws.Bounded.pulseEnd (c : Nat) : Statement (.pulseEnd c) := fun _ _ e => nomatch e
theorem Sys2Proof.Laws.Bounded.csi2Frame (p ts id fnum lines bpl ecc crcErr : Nat) (data : List Byte) : Statement (.csi2Frame p ts id fnum lines bpl ecc crcErr data) := fun _ _ e => nomatch e
theorem Sys2Proof.Laws.Bounded.ethSensorFrame (port ts : Nat) (fcsOk : Bool) (frame : List Byte) : Statement (.ethSensorFrame port ts fcsOk frame) := fun _ _ e => nomatch e
theorem Sys2Proof.Laws.Bounded.imuDataReady (q : Nat) (rising : Bool) : Statement (.imuDataReady q rising) := fun _ _ e => nomatch e
theorem Sys2Proof.Laws.Bounded.imuBurstComplete (q : Nat) (data : List Byte) : Statement (.imuBurstComplete q data) := fun _ _ e => nomatch e
theorem Sys2Proof.Laws.Bounded.conversionResult (codes : List Int) (ok : Nat) : Statement (.conversionResult codes ok) := fun _ _ e => nomatch e
theorem Sys2Proof.Laws.Bounded.snsProdWrite (who : Initiator) (n : Nat) (val : Word64) : Statement (.snsProdWrite who n val) := fun h _ e => Option.some.inj e ▸ Sys2Proof.andLeft (h)
theorem Sys2Proof.Laws.Bounded.modelTimeout (n : Nat) : Statement (.modelTimeout n) := fun _ _ e => nomatch e
theorem Sys2Proof.Laws.Bounded.outputInstant : Statement (.outputInstant) := fun _ _ e => nomatch e
theorem Sys2Proof.Laws.Bounded.slotSnapshot : Statement (.slotSnapshot) := fun _ _ e => nomatch e
theorem Sys2Proof.Laws.Bounded.gridSnapshot : Statement (.gridSnapshot) := fun _ _ e => nomatch e
theorem Sys2Proof.Laws.Bounded.fusCommit (who : Initiator) (val : Word64) : Statement (.fusCommit who val) := fun h _ e => Option.some.inj e ▸ h
theorem Sys2Proof.Laws.Bounded.batchStart : Statement (.batchStart) := fun _ _ e => nomatch e
theorem Sys2Proof.Laws.Bounded.problemComplete (e : Nat) : Statement (.problemComplete e) := fun _ _ e => nomatch e
theorem Sys2Proof.Laws.Bounded.batchEnd : Statement (.batchEnd) := fun _ _ e => nomatch e
theorem Sys2Proof.Laws.Bounded.solverDisable (who : Initiator) (val : Word64) : Statement (.solverDisable who val) := fun h _ e => Option.some.inj e ▸ h
theorem Sys2Proof.Laws.Bounded.fusionProblemComplete : Statement (.fusionProblemComplete) := fun _ _ e => nomatch e
theorem Sys2Proof.Laws.Bounded.occScanEnd : Statement (.occScanEnd) := fun _ _ e => nomatch e
theorem Sys2Proof.Laws.Bounded.occBroadcast : Statement (.occBroadcast) := fun _ _ e => nomatch e
theorem Sys2Proof.Laws.Bounded.occCommit : Statement (.occCommit) := fun _ _ e => nomatch e
theorem Sys2Proof.Laws.Bounded.trlRequestAccept : Statement (.trlRequestAccept) := fun _ _ e => nomatch e
theorem Sys2Proof.Laws.Bounded.searchExpansion : Statement (.searchExpansion) := fun _ _ e => nomatch e
theorem Sys2Proof.Laws.Bounded.planOutput : Statement (.planOutput) := fun _ _ e => nomatch e
theorem Sys2Proof.Laws.Bounded.trlDeadline : Statement (.trlDeadline) := fun _ _ e => nomatch e
theorem Sys2Proof.Laws.Bounded.trlCommit (who : Initiator) (val : Word64) : Statement (.trlCommit who val) := fun h _ e => Option.some.inj e ▸ h
theorem Sys2Proof.Laws.Bounded.trlLatch : Statement (.trlLatch) := fun _ _ e => nomatch e
theorem Sys2Proof.Laws.Bounded.trlBankLoaded : Statement (.trlBankLoaded) := fun _ _ e => nomatch e
theorem Sys2Proof.Laws.Bounded.trlEnableWrite (who : Initiator) (val : Word64) : Statement (.trlEnableWrite who val) := fun h _ e => Option.some.inj e ▸ h
theorem Sys2Proof.Laws.Bounded.hartRunWrite (who : Initiator) (h : Nat) (val : Word64) : Statement (.hartRunWrite who h val) := fun h _ e => Option.some.inj e ▸ Sys2Proof.andLeft (h)
theorem Sys2Proof.Laws.Bounded.watchdogKick (who : Initiator) (h : Nat) (val : Word64) : Statement (.watchdogKick who h val) := fun h _ e => Option.some.inj e ▸ Sys2Proof.andLeft (h)
theorem Sys2Proof.Laws.Bounded.watchdogExpire (h : Nat) : Statement (.watchdogExpire h) := fun _ _ e => nomatch e
theorem Sys2Proof.Laws.Bounded.icuClaim (who : Initiator) (t : Nat) : Statement (.icuClaim who t) := fun h _ e => Option.some.inj e ▸ Sys2Proof.andLeft (h)
theorem Sys2Proof.Laws.Bounded.icuComplete (who : Initiator) (t : Nat) (val : Word64) : Statement (.icuComplete who t val) := fun h _ e => Option.some.inj e ▸ Sys2Proof.andLeft (h)
theorem Sys2Proof.Laws.Bounded.icuReset (who : Initiator) (t : Nat) (val : Word64) : Statement (.icuReset who t val) := fun h _ e => Option.some.inj e ▸ Sys2Proof.andLeft (h)
theorem Sys2Proof.Laws.Bounded.icuSwi (who : Initiator) (val : Word64) : Statement (.icuSwi who val) := fun h _ e => Option.some.inj e ▸ h
theorem Sys2Proof.Laws.Bounded.tioInputEdge (p : Nat) (level : Bool) : Statement (.tioInputEdge p level) := fun _ _ e => nomatch e
theorem Sys2Proof.Laws.Bounded.loopOutputApply (n : Nat) (mismatch : Bool) : Statement (.loopOutputApply n mismatch) := fun _ _ e => nomatch e
theorem Sys2Proof.Laws.Bounded.loopEnableWrite (who : Initiator) (n : Nat) (val : Word64) : Statement (.loopEnableWrite who n val) := fun h _ e => Option.some.inj e ▸ Sys2Proof.andLeft (h)
theorem Sys2Proof.Laws.Bounded.plausClear (who : Initiator) (n : Nat) (val : Word64) : Statement (.plausClear who n val) := fun h _ e => Option.some.inj e ▸ Sys2Proof.andLeft (h)
theorem Sys2Proof.Laws.Bounded.reflexRelease (c : Nat) (codes : List Int) (absent ecc : Nat) : Statement (.reflexRelease c codes absent ecc) := fun _ _ e => nomatch e
theorem Sys2Proof.Laws.Bounded.reflexOutput : Statement (.reflexOutput) := fun _ _ e => nomatch e
theorem Sys2Proof.Laws.Bounded.reflexLatch (g : Nat) : Statement (.reflexLatch g) := fun _ _ e => nomatch e
theorem Sys2Proof.Laws.Bounded.rfxCommit (who : Initiator) (val : Word64) : Statement (.rfxCommit who val) := fun h _ e => Option.some.inj e ▸ h
theorem Sys2Proof.Laws.Bounded.rfxBindLatch : Statement (.rfxBindLatch) := fun _ _ e => nomatch e
theorem Sys2Proof.Laws.Bounded.sluiceFill : Statement (.sluiceFill) := fun _ _ e => nomatch e
theorem Sys2Proof.Laws.Bounded.sluiceArm : Statement (.sluiceArm) := fun _ _ e => nomatch e
theorem Sys2Proof.Laws.Bounded.sluiceCancel : Statement (.sluiceCancel) := fun _ _ e => nomatch e
theorem Sys2Proof.Laws.Bounded.sluiceHartArm (who : Initiator) (l : Nat) (val : Word64) : Statement (.sluiceHartArm who l val) := fun h _ e => Option.some.inj e ▸ Sys2Proof.andLeft (h)
theorem Sys2Proof.Laws.Bounded.fillHeaderLanded (l ecc : Nat) : Statement (.fillHeaderLanded l ecc) := fun _ _ e => nomatch e
theorem Sys2Proof.Laws.Bounded.fillPieceLanded (l ecc : Nat) : Statement (.fillPieceLanded l ecc) := fun _ _ e => nomatch e
theorem Sys2Proof.Laws.Bounded.fillLastByte (l ecc : Nat) : Statement (.fillLastByte l ecc) := fun _ _ e => nomatch e
theorem Sys2Proof.Laws.Bounded.armCheckEnd (l ecc : Nat) : Statement (.armCheckEnd l ecc) := fun _ _ e => nomatch e
theorem Sys2Proof.Laws.Bounded.fillTimeout (l : Nat) : Statement (.fillTimeout l) := fun _ _ e => nomatch e
theorem Sys2Proof.Laws.Bounded.laneStale (l : Nat) : Statement (.laneStale l) := fun _ _ e => nomatch e
theorem Sys2Proof.Laws.Bounded.ecsFrame (port : Nat) (valid : Bool) (frame : List Byte) : Statement (.ecsFrame port valid frame) := fun _ _ e => nomatch e
theorem Sys2Proof.Laws.Bounded.ecsAlRequest (ctl : Nat) : Statement (.ecsAlRequest ctl) := fun _ _ e => nomatch e
theorem Sys2Proof.Laws.Bounded.ecsWatchdogExpire : Statement (.ecsWatchdogExpire) := fun _ _ e => nomatch e
theorem Sys2Proof.Laws.Bounded.ecsSync0 (dcTime : Nat) : Statement (.ecsSync0 dcTime) := fun _ _ e => nomatch e
theorem Sys2Proof.Laws.Bounded.ecsSm2Buffer (data : List Byte) : Statement (.ecsSm2Buffer data) := fun _ _ e => nomatch e
theorem Sys2Proof.Laws.Bounded.ecsInputCapture : Statement (.ecsInputCapture) := fun _ _ e => nomatch e
theorem Sys2Proof.Laws.Bounded.mbxRequest : Statement (.mbxRequest) := fun _ _ e => nomatch e
theorem Sys2Proof.Laws.Bounded.sdoUpload (idx sub : Nat) (complete : Bool) : Statement (.sdoUpload idx sub complete) := fun _ _ e => nomatch e
theorem Sys2Proof.Laws.Bounded.sdoDownload (idx sub : Nat) (complete : Bool) (data : List Byte) : Statement (.sdoDownload idx sub complete data) := fun _ _ e => nomatch e
theorem Sys2Proof.Laws.Bounded.sdoSegmentTimeout : Statement (.sdoSegmentTimeout) := fun _ _ e => nomatch e
theorem Sys2Proof.Laws.Bounded.sdoRecordCommit (idx sub : Nat) (data : List Byte) : Statement (.sdoRecordCommit idx sub data) := fun _ _ e => nomatch e
theorem Sys2Proof.Laws.Bounded.sdoLoopCommit (n : Nat) (data : List Byte) : Statement (.sdoLoopCommit n data) := fun _ _ e => nomatch e
theorem Sys2Proof.Laws.Bounded.emergencySend : Statement (.emergencySend) := fun _ _ e => nomatch e
theorem Sys2Proof.Laws.Bounded.ecsLinkLoss (port : Nat) : Statement (.ecsLinkLoss port) := fun _ _ e => nomatch e
theorem Sys2Proof.Laws.Bounded.ecsLinkReopen (port : Nat) : Statement (.ecsLinkReopen port) := fun _ _ e => nomatch e
theorem Sys2Proof.Laws.Bounded.ecmOutputSnapshot (sg : Nat) : Statement (.ecmOutputSnapshot sg) := fun _ _ e => nomatch e
theorem Sys2Proof.Laws.Bounded.ecmFrameSend (sg : Nat) : Statement (.ecmFrameSend sg) := fun _ _ e => nomatch e
theorem Sys2Proof.Laws.Bounded.ecmFrameReturn (sg port : Nat) (fcsOk : Bool) (frame : List Byte) : Statement (.ecmFrameReturn sg port fcsOk frame) := fun _ _ e => nomatch e
theorem Sys2Proof.Laws.Bounded.ecmDeadline (sg : Nat) : Statement (.ecmDeadline sg) := fun _ _ e => nomatch e
theorem Sys2Proof.Laws.Bounded.ecmMergeEnd (sg : Nat) : Statement (.ecmMergeEnd sg) := fun _ _ e => nomatch e
theorem Sys2Proof.Laws.Bounded.ecmSubstClear (who : Initiator) (sg : Nat) (val : Word64) : Statement (.ecmSubstClear who sg val) := fun h _ e => Option.some.inj e ▸ Sys2Proof.andLeft (h)
theorem Sys2Proof.Laws.Bounded.ecmEnable (who : Initiator) (sg : Nat) (val : Word64) : Statement (.ecmEnable who sg val) := fun h _ e => Option.some.inj e ▸ Sys2Proof.andLeft (h)
theorem Sys2Proof.Laws.Bounded.ecmAcyclicGo (who : Initiator) (sg : Nat) (val : Word64) : Statement (.ecmAcyclicGo who sg val) := fun h _ e => Option.some.inj e ▸ Sys2Proof.andLeft (h)
theorem Sys2Proof.Laws.Bounded.ecmAcyclicSend (sg : Nat) : Statement (.ecmAcyclicSend sg) := fun _ _ e => nomatch e
theorem Sys2Proof.Laws.Bounded.ecmAcyclicReturn (sg : Nat) (frame : List Byte) : Statement (.ecmAcyclicReturn sg frame) := fun _ _ e => nomatch e
theorem Sys2Proof.Laws.Bounded.ecmAcyclicTimeout (sg : Nat) : Statement (.ecmAcyclicTimeout sg) := fun _ _ e => nomatch e
theorem Sys2Proof.Laws.Bounded.ethRxFrame (p ts : Nat) (fcsOk : Bool) (frame : List Byte) : Statement (.ethRxFrame p ts fcsOk frame) := fun _ _ e => nomatch e
theorem Sys2Proof.Laws.Bounded.ethTxSend (p : Nat) : Statement (.ethTxSend p) := fun _ _ e => nomatch e
theorem Sys2Proof.Laws.Bounded.ethTxDone (p ts : Nat) : Statement (.ethTxDone p ts) := fun _ _ e => nomatch e
theorem Sys2Proof.Laws.Bounded.pcieRequest (write : Bool) (bar ofs len : Nat) (data : List Byte) : Statement (.pcieRequest write bar ofs len data) := fun _ _ e => nomatch e
theorem Sys2Proof.Laws.Bounded.pcieCompletionTimeout (kind n : Nat) : Statement (.pcieCompletionTimeout kind n) := fun _ _ e => nomatch e
theorem Sys2Proof.Laws.Bounded.msixUnmask (v : Nat) : Statement (.msixUnmask v) := fun _ _ e => nomatch e
theorem Sys2Proof.Laws.Bounded.cwyEnable (who : Initiator) (strap : Bool) (val : Word64) : Statement (.cwyEnable who strap val) := fun h _ e => Option.some.inj e ▸ h
theorem Sys2Proof.Laws.Bounded.cwyTrainEnd : Statement (.cwyTrainEnd) := fun _ _ e => nomatch e
theorem Sys2Proof.Laws.Bounded.cwyDiscoveryResult (ok roleErr topoErr : Bool) (master : Bool) (nmod modnum : Nat) (peers : List Nat) : Statement (.cwyDiscoveryResult ok roleErr topoErr master nmod modnum peers) := fun _ _ e => nomatch e
theorem Sys2Proof.Laws.Bounded.cwyFlitReceive (k : Nat) (flit : List Byte) : Statement (.cwyFlitReceive k flit) := fun _ _ e => nomatch e
theorem Sys2Proof.Laws.Bounded.cwyNak (k seq : Nat) : Statement (.cwyNak k seq) := fun _ _ e => nomatch e
theorem Sys2Proof.Laws.Bounded.cwyReadReq (src slot addr : Nat) (ctx core tile : Nat) (errs : List Nat) : Statement (.cwyReadReq src slot addr ctx core tile errs) := fun _ _ e => nomatch e
theorem Sys2Proof.Laws.Bounded.cwyRetrain (k : Nat) : Statement (.cwyRetrain k) := fun _ _ e => nomatch e
theorem Sys2Proof.Laws.Bounded.cwyLinkTrained (k : Nat) : Statement (.cwyLinkTrained k) := fun _ _ e => nomatch e
theorem Sys2Proof.Laws.Bounded.cwyDownTimeout (m : Nat) : Statement (.cwyDownTimeout m) := fun _ _ e => nomatch e
theorem Sys2Proof.Laws.Bounded.cwyTimeExchange : Statement (.cwyTimeExchange) := fun _ _ e => nomatch e
theorem Sys2Proof.Laws.Bounded.cwyTimeResponse (t1 t2 t3 t4 : Int) : Statement (.cwyTimeResponse t1 t2 t3 t4) := fun _ _ e => nomatch e
theorem Sys2Proof.Laws.Bounded.cwyStepAnnounce (due lo hi ctl : Nat) : Statement (.cwyStepAnnounce due lo hi ctl) := fun _ _ e => nomatch e
theorem Sys2Proof.Laws.Bounded.cwyTtAnnounce (due crc : Nat) : Statement (.cwyTtAnnounce due crc) := fun _ _ e => nomatch e
theorem Sys2Proof.Laws.Bounded.powerOn : Statement (.powerOn) := fun _ _ e => nomatch e
theorem Sys2Proof.Laws.Bounded.bootRomStart : Statement (.bootRomStart) := fun _ _ e => nomatch e
theorem Sys2Proof.Laws.Bounded.bootLoadEnd (readErr : Bool) : Statement (.bootLoadEnd readErr) := fun _ _ e => nomatch e
theorem Sys2Proof.Laws.Bounded.brownoutWarning : Statement (.brownoutWarning) := fun _ _ e => nomatch e
theorem Sys2Proof.Laws.Bounded.brownoutWarningClear : Statement (.brownoutWarningClear) := fun _ _ e => nomatch e
theorem Sys2Proof.Laws.Bounded.brownoutTrip : Statement (.brownoutTrip) := fun _ _ e => nomatch e
theorem Sys2Proof.Laws.Bounded.shutdownFinalFrame : Statement (.shutdownFinalFrame) := fun _ _ e => nomatch e
theorem Sys2Proof.Laws.Bounded.shutdownOutputsLow : Statement (.shutdownOutputsLow) := fun _ _ e => nomatch e
theorem Sys2Proof.Laws.Bounded.shutdownRailsOff : Statement (.shutdownRailsOff) := fun _ _ e => nomatch e
theorem Sys2Proof.Laws.Bounded.thermalSample (tcp : Int) : Statement (.thermalSample tcp) := fun _ _ e => nomatch e
theorem Sys2Proof.Laws.Bounded.thermalTrip : Statement (.thermalTrip) := fun _ _ e => nomatch e
theorem Sys2Proof.Laws.Bounded.resetPin : Statement (.resetPin) := fun _ _ e => nomatch e
theorem Sys2Proof.Laws.Bounded.supplyOvercurrent (ch : Nat) : Statement (.supplyOvercurrent ch) := fun _ _ e => nomatch e
theorem Sys2Proof.Laws.Bounded.supplyRetry (ch : Nat) : Statement (.supplyRetry ch) := fun _ _ e => nomatch e
theorem Sys2Proof.Laws.Bounded.secExtend (who : Initiator) (val : Word64) : Statement (.secExtend who val) := fun h _ e => Option.some.inj e ▸ h
theorem Sys2Proof.Laws.Bounded.secAttest (who : Initiator) (val : Word64) : Statement (.secAttest who val) := fun h _ e => Option.some.inj e ▸ h
theorem Sys2Proof.Laws.Bounded.secExport (who : Initiator) (val : Word64) : Statement (.secExport who val) := fun h _ e => Option.some.inj e ▸ h
theorem Sys2Proof.Laws.Bounded.secFuseKey (who : Initiator) (val : Word64) : Statement (.secFuseKey who val) := fun h _ e => Option.some.inj e ▸ h
theorem Sys2Proof.Laws.Bounded.secFuseRevoke (who : Initiator) (val : Word64) : Statement (.secFuseRevoke who val) := fun h _ e => Option.some.inj e ▸ h
theorem Sys2Proof.Laws.Bounded.secFuseRollback (who : Initiator) (val : Word64) : Statement (.secFuseRollback who val) := fun h _ e => Option.some.inj e ▸ h
theorem Sys2Proof.Laws.Bounded.secFuseProt (who : Initiator) (val : Word64) : Statement (.secFuseProt who val) := fun h _ e => Option.some.inj e ▸ h
theorem Sys2Proof.Laws.Bounded.secLcAdvance (who : Initiator) (val : Word64) : Statement (.secLcAdvance who val) := fun h _ e => Option.some.inj e ▸ h
theorem Sys2Proof.Laws.Bounded.secCmdDone : Statement (.secCmdDone) := fun _ _ e => nomatch e
theorem Sys2Proof.Laws.Bounded.dormantRequest (who : Initiator) (val : Word64) : Statement (.dormantRequest who val) := fun h _ e => Option.some.inj e ▸ h
theorem Sys2Proof.Laws.Bounded.dormantEntered : Statement (.dormantEntered) := fun _ _ e => nomatch e
theorem Sys2Proof.Laws.Bounded.wakeEvent (src : Nat) : Statement (.wakeEvent src) := fun _ _ e => nomatch e
theorem Sys2Proof.Laws.Bounded.wakePllLock : Statement (.wakePllLock) := fun _ _ e => nomatch e
theorem Sys2Proof.Laws.Bounded.wakeAppStart : Statement (.wakeAppStart) := fun _ _ e => nomatch e
theorem Sys2Proof.Laws.Bounded.wakeComplete : Statement (.wakeComplete) := fun _ _ e => nomatch e
theorem Sys2Proof.Laws.Bounded.powerCapSample (mw : Nat) : Statement (.powerCapSample mw) := fun _ _ e => nomatch e
theorem Sys2Proof.Laws.Bounded.epochBump (who : Initiator) (val : Word64) : Statement (.epochBump who val) := fun h _ e => Option.some.inj e ▸ h
theorem Sys2Proof.Laws.Bounded.violatingRead (who : Initiator) (addr size : Nat) : Statement (.violatingRead who addr size) := fun h _ e => Option.some.inj e ▸ Sys2Proof.andLeft (Sys2Proof.andLeft (h))
theorem Sys2Proof.Laws.Bounded.hartPrivateAccess (h : Nat) (kind : Nat) (addr len : Nat) (data : List Byte) (ecc : Nat) : Statement (.hartPrivateAccess h kind addr len data ecc) := fun _ _ e => nomatch e
theorem Sys2Proof.Laws.Bounded.aonClockLock : Statement (.aonClockLock) := fun _ _ e => nomatch e
theorem Sys2Proof.Laws.Bounded.thermalRestart : Statement (.thermalRestart) := fun _ _ e => nomatch e
theorem Sys2Proof.Laws.Bounded.ddrRetrainEnd (ode : Nat) : Statement (.ddrRetrainEnd ode) := fun _ _ e => nomatch e
theorem Sys2Proof.Laws.Bounded.ethLinkChange (p : Nat) (up : Bool) : Statement (.ethLinkChange p up) := fun _ _ e => nomatch e
theorem Sys2Proof.Laws.Bounded.ecmLinkChange (sg port : Nat) (up : Bool) : Statement (.ecmLinkChange sg port up) := fun _ _ e => nomatch e
theorem Sys2Proof.Laws.Bounded.pcieLinkChange (up : Bool) (gen width : Nat) : Statement (.pcieLinkChange up gen width) := fun _ _ e => nomatch e
theorem Sys2Proof.Laws.Bounded.sync1 : Statement (.sync1) := fun _ _ e => nomatch e
theorem Sys2Proof.Laws.Bounded.pltBadopRequest : Statement (.pltBadopRequest) := fun _ _ e => nomatch e
theorem Sys2Proof.Laws.Bounded.sluiceBadopRequest : Statement (.sluiceBadopRequest) := fun _ _ e => nomatch e
theorem Sys2Proof.Laws.Bounded.sampleHistoryPush (c : Nat) (codes : List Int) (absent : Nat) : Statement (.sampleHistoryPush c codes absent) := fun _ _ e => nomatch e
end

