-- ==== Sys2Proof/Tests/Slice0.lean ====
section
/-! SUPPORT. Tests: ill-formed commands refused by the check, worked values of the spec, and for every statement with hypotheses a
state and operands that meet them. -/

set_option maxRecDepth 100000

namespace Sys2Proof.Tests

open Sys2Proof Sys2Proof.Machine Sys2Proof.Machine.Reg

/-! ### Ill-formed commands -/

/-- The check refuses every command of a list. -/
def refusesAll (l : List Instr) : Bool := l.all fun i => !wellFormed i

theorem test_wf_1 : refusesAll
    [.registerWrite (.app 8) 0 8 0#64, .registerWrite (.ctl 4) 0 8 0#64, .registerWrite .pcie 281474976710656 8 0#64,
     .registerWrite .pcie 0 3 0#64, .registerWriteLowerHalf (.app 8) 0 0#32, .registerWriteLowerHalf (.ctl 4) 0 0#32,
     .registerWriteLowerHalf .pcie 281474976710656 0#32, .registerReadLowerHalf (.app 8) 0,
     .registerReadLowerHalf (.ctl 4) 0, .registerReadLowerHalf .pcie 281474976710656, .counterClear (.app 8) 0 0#64,
     .counterClear (.ctl 4) 0 0#64, .counterClear .pcie 281474976710656 0#64, .descriptorFetch 8, .dispatch 8, .load 8,
     .matmul 8, .conv 8, .pool 8, .roia 8, .attn 8, .vec 8, .pull 8, .store 8, .fence 8, .commit 8, .readStallResume 8 0,
     .readStallResume 0 5, .writeStallResume 8 0, .writeStallResume 0 5, .tileLanded 8 0 [], .tileLanded 0 65536 [],
     .tileLanded 0 0 [6144], .storeAck 8 0, .storeAck 0 65536, .commandComplete 8 0] = true := by decide

theorem test_wf_2 : refusesAll
    [.commandComplete 0 5, .budgetRaise 8 0, .budgetRaise 0 5, .budgetKill 8 0, .budgetKill 0 5, .killComplete 8,
     .tcEnableWrite (.app 8) 0 0#64, .tcEnableWrite (.ctl 4) 0 0#64, .tcEnableWrite .pcie 8 0#64, .coreRelockEnd 8,
     .commitReport 8, .spillTileAck 8, .restoreTileLanded 8 [], .restoreTileLanded 0 [6144], .ttCommit (.app 8) 0#64,
     .ttCommit (.ctl 4) 0#64, .schedulerEnable (.app 8) 0#64, .schedulerEnable (.ctl 4) 0#64, .contextEnable (.app 8) 0 0#64,
     .contextEnable (.ctl 4) 0 0#64, .contextEnable .pcie 64 0#64, .contextFaultClear (.app 8) 0 0#64,
     .contextFaultClear (.ctl 4) 0 0#64, .contextFaultClear .pcie 64 0#64,
     .remoteReadResponse 4096 (List.replicate 65536 0#8), .remoteReadResponse 0 [], .fasAccess (.app 8) false 0 1 [] 0 0,
     .fasAccess (.ctl 4) false 0 1 [] 0 0, .fasAccess .pcie false 1099511627776 1 [] 0 0, .fasAccess .pcie false 0 65 [] 0 0,
     .fasAccess .pcie false 0 0 [] 0 0, .fasAccess .pcie false 0 1 [0#8] 0 0, .fasAccess .pcie false 0 1 [] 4 0, .fasAccess .pcie false 0 1 [] 0 2,
     .migrationTile 1048576 [] [], .migrationTile 0 [6144] [], .migrationTile 0 [] [0#8]] = true := by decide

theorem test_wf_3 : refusesAll
    [.publicationWalk 4095, .pltEnable (.app 8) 0#64, .pltEnable (.ctl 4) 0#64, .scrubTile [2048] [], .scrubTile [] [2048],
     .psramScrub 2 [] [], .psramScrub 0 [32] [], .psramScrub 0 [] [32], .kvpEnable (.app 8) 0 0#64,
     .kvpEnable (.ctl 4) 0 0#64, .kvpEnable .pcie 8 0#64, .kvpAdmit (.app 8) 0 0#64, .kvpAdmit (.ctl 4) 0 0#64,
     .kvpAdmit .pcie 8 0#64, .kvpRetire (.app 8) 0 0#64, .kvpRetire (.ctl 4) 0 0#64, .kvpRetire .pcie 8 0#64,
     .kvpServeRequest 8, .timeStepGo (.app 8) 0#64, .timeStepGo (.ctl 4) 0#64, .fwSampleSubmit (.app 8) 0#64,
     .fwSampleSubmit (.ctl 4) 0#64, .servoEnable (.app 8) 0#64, .servoEnable (.ctl 4) 0#64, .servoCommit (.app 8) 0#64,
     .servoCommit (.ctl 4) 0#64, .compareFire 32 0, .compareFire 0 340282366920938463463374607431768211456,
     .compareCommit (.app 8) 0 0#64, .compareCommit (.ctl 4) 0 0#64, .compareCommit .pcie 32 0#64,
     .compareEnable (.app 8) 0 0#64, .compareEnable (.ctl 4) 0 0#64, .compareEnable .pcie 32 0#64, .pulseEnd 32,
     .csi2Frame 12 0 0 0 0 0 0 0 []] = true := by decide

theorem test_wf_4 : refusesAll
    [.csi2Frame 0 0 256 0 0 0 0 0 [], .csi2Frame 0 0 0 0 0 0 4294967296 0 [],
     .ethSensorFrame 4 0 false [], .imuDataReady 4 false, .imuBurstComplete 4 [],
     .imuBurstComplete 0 (List.replicate 65 0#8), .conversionResult [0] 0, .conversionResult [0, 0, 0, 131072, 0, 0, 0, 0] 0,
     .conversionResult [0, 0, 0, 0, 0, 0, 0, 0] 256, .snsProdWrite (.app 8) 0 0#64, .snsProdWrite (.ctl 4) 0 0#64,
     .snsProdWrite .pcie 64 0#64, .modelTimeout 64, .fusCommit (.app 8) 0#64, .fusCommit (.ctl 4) 0#64, .problemComplete 64,
     .solverDisable (.app 8) 0#64, .solverDisable (.ctl 4) 0#64, .trlCommit (.app 8) 0#64, .trlCommit (.ctl 4) 0#64,
     .trlEnableWrite (.app 8) 0#64, .trlEnableWrite (.ctl 4) 0#64, .hartRunWrite (.app 8) 0 0#64,
     .hartRunWrite (.ctl 4) 0 0#64, .hartRunWrite .pcie 4 0#64, .watchdogKick (.app 8) 0 0#64, .watchdogKick (.ctl 4) 0 0#64,
     .watchdogKick .pcie 4 0#64, .watchdogExpire 4, .icuClaim (.app 8) 0, .icuClaim (.ctl 4) 0, .icuClaim .pcie 12,
     .icuComplete (.app 8) 0 0#64, .icuComplete (.ctl 4) 0 0#64, .icuComplete .pcie 12 0#64] = true := by decide

theorem test_wf_5 : refusesAll
    [.icuReset (.app 8) 0 0#64, .icuReset (.ctl 4) 0 0#64, .icuReset .pcie 12 0#64, .icuSwi (.app 8) 0#64,
     .icuSwi (.ctl 4) 0#64, .tioInputEdge 32 false, .loopOutputApply 64 false, .loopEnableWrite (.app 8) 0 0#64,
     .loopEnableWrite (.ctl 4) 0 0#64, .loopEnableWrite .pcie 64 0#64, .plausClear (.app 8) 0 0#64,
     .plausClear (.ctl 4) 0 0#64, .plausClear .pcie 64 0#64, .reflexRelease 32 [0, 0, 0, 0, 0, 0, 0, 0] 0 0,
     .reflexRelease 0 [0] 0 0, .reflexRelease 0 [0, 0, 0, 131072, 0, 0, 0, 0] 0 0,
     .reflexRelease 0 [0, 0, 0, 0, 0, 0, 0, 0] 256 0, .reflexRelease 0 [0, 0, 0, 0, 0, 0, 0, 0] 0 3, .reflexLatch 8,
     .rfxCommit (.app 8) 0#64, .rfxCommit (.ctl 4) 0#64, .sluiceHartArm (.app 8) 0 0#64, .sluiceHartArm (.ctl 4) 0 0#64,
     .sluiceHartArm .pcie 9 0#64, .fillHeaderLanded 9 0, .fillHeaderLanded 0 4, .fillPieceLanded 9 0, .fillPieceLanded 0 4,
     .fillLastByte 9 0, .fillLastByte 0 4, .armCheckEnd 9 0, .armCheckEnd 0 3, .fillTimeout 9, .laneStale 9,
     .ecsFrame 2 false [], .ecsAlRequest 65536] = true := by decide

theorem test_wf_6 : refusesAll
    [.ecsSm2Buffer (List.replicate 257 0#8), .sdoUpload 65536 0 false, .sdoUpload 0 256 false, .sdoDownload 65536 0 false [],
     .sdoDownload 0 256 false [], .sdoRecordCommit 65536 0 [], .sdoRecordCommit 0 256 [], .sdoLoopCommit 64 [],
     .ecsLinkLoss 2, .ecsLinkReopen 2, .ecmOutputSnapshot 4, .ecmFrameSend 4, .ecmFrameReturn 4 0 false [],
     .ecmFrameReturn 0 2 false [], .ecmDeadline 4, .ecmMergeEnd 4, .ecmSubstClear (.app 8) 0 0#64,
     .ecmSubstClear (.ctl 4) 0 0#64, .ecmSubstClear .pcie 4 0#64, .ecmEnable (.app 8) 0 0#64, .ecmEnable (.ctl 4) 0 0#64,
     .ecmEnable .pcie 4 0#64, .ecmAcyclicGo (.app 8) 0 0#64, .ecmAcyclicGo (.ctl 4) 0 0#64, .ecmAcyclicGo .pcie 4 0#64,
     .ecmAcyclicSend 4, .ecmAcyclicReturn 4 [], .ecmAcyclicTimeout 4, .ethRxFrame 5 0 false [], .ethTxSend 5, .ethTxDone 5 0,
     .pcieRequest false 1 0 1 [], .pcieRequest false 0 0 4097 [], .pcieRequest false 0 0 0 [],
     .pcieRequest false 0 0 1 [0#8], .pcieCompletionTimeout 4 0] = true := by decide

theorem test_wf_7 : refusesAll
    [.msixUnmask 32, .cwyEnable (.app 8) false 0#64, .cwyEnable (.ctl 4) false 0#64,
     .cwyFlitReceive 4 (List.replicate 256 0#8), .cwyFlitReceive 0 [], .cwyNak 4 0, .cwyReadReq 256 0 0 0 0 0 [],
     .cwyReadReq 0 4096 0 0 0 0 [], .cwyReadReq 0 0 281474976710656 0 0 0 [], .cwyReadReq 0 0 0 0 0 65536 [],
     .cwyReadReq 0 0 0 0 0 0 [6144], .cwyRetrain 4, .cwyLinkTrained 4, .supplyOvercurrent 16, .supplyRetry 16,
     .secExtend (.app 8) 0#64, .secExtend (.ctl 4) 0#64, .secAttest (.app 8) 0#64, .secAttest (.ctl 4) 0#64,
     .secExport (.app 8) 0#64, .secExport (.ctl 4) 0#64, .secFuseKey (.app 8) 0#64, .secFuseKey (.ctl 4) 0#64,
     .secFuseRevoke (.app 8) 0#64, .secFuseRevoke (.ctl 4) 0#64, .secFuseRollback (.app 8) 0#64,
     .secFuseRollback (.ctl 4) 0#64, .secFuseProt (.app 8) 0#64, .secFuseProt (.ctl 4) 0#64, .secLcAdvance (.app 8) 0#64,
     .secLcAdvance (.ctl 4) 0#64, .dormantRequest (.app 8) 0#64, .dormantRequest (.ctl 4) 0#64, .wakeEvent 3,
     .epochBump (.app 8) 0#64, .epochBump (.ctl 4) 0#64] = true := by decide

theorem test_wf_8 : refusesAll
    [.violatingRead (.app 8) 0 8, .violatingRead (.ctl 4) 0 8, .violatingRead .pcie 281474976710656 8,
     .violatingRead .pcie 0 3, .hartPrivateAccess 4 0 0 1 [] 0, .hartPrivateAccess 0 3 0 1 [] 0,
     .hartPrivateAccess 0 0 281474976710656 1 [] 0, .hartPrivateAccess 0 0 0 3 [] 0, .hartPrivateAccess 0 0 0 1 [0#8] 0,
     .hartPrivateAccess 0 0 0 1 [] 4, .ethLinkChange 5 false, .ecmLinkChange 4 0 false, .ecmLinkChange 0 2 false,
     .pcieLinkChange false 8 0, .pcieLinkChange false 0 16, .sampleHistoryPush 32 [0, 0, 0, 0, 0, 0, 0, 0] 0,
     .sampleHistoryPush 0 [0] 0, .sampleHistoryPush 0 [0, 0, 0, 131072, 0, 0, 0, 0] 0,
     .sampleHistoryPush 0 [0, 0, 0, 0, 0, 0, 0, 0] 256] = true := by decide

/-! ### Registers and accesses -/
theorem wit_tick : State.reset.powered ∧ State.reset.pending = [] := by decide

theorem wit_accepted : WriteOk State.reset (.app 0) SCH_PCI_CTX 5 ∧
    (hookRows.find? fun r => r.1 = SCH_PCI_CTX).isNone = true ∧
    (regHit State.reset (.app 0) SCH_PCI_CTX).map (·.base) = some SCH_PCI_CTX := by decide

theorem wit_refused_reserved : (regHit State.reset (.app 0) 0x10000000F000).isNone = true := by decide

theorem wit_refused_bits : (regHit State.reset (.app 0) SCH_PCI_CTX).map (fun h =>
    accessCauses State.reset (.app 0) h SCH_PCI_CTX 4 true ++ valueCauses State.reset h 0xFF) = some [2] := by decide

theorem wit_read : ReadOk State.reset (.app 0) SYS_IDENT 8 := by decide

theorem wit_read_cause : (regHit State.reset .pcie SEC_STAT).map (fun h =>
    (accessCauses State.reset .pcie h (SEC_STAT + 2) 4 false)) = some [1] := by decide

theorem wit_halves : (regHit State.reset (.ctl 0) (SCH_CTX_WIN 3)).map (fun h => { h with upper := true }) =
      regHit State.reset (.ctl 0) (SCH_CTX_WIN 3 + 4) ∧
    SCH_CTX_WIN 3 % 8 = 0 ∧ ReadOk State.reset (.ctl 0) (SCH_CTX_WIN 3) 4 ∧ ReadOk State.reset (.ctl 0) (SCH_CTX_WIN 3 + 4) 4 ∧
    WriteOk State.reset (.ctl 0) (SCH_CTX_WIN 3) (7 * 2 ^ 32 + 5) := by decide

theorem wit_halves_held : heldHalf { State.reset with holds := [{ who := .ctl 0, addr := SCH_CTX_WIN 3, val := 5#32 }] } (.ctl 0) =
    some { who := .ctl 0, addr := SCH_CTX_WIN 3, val := 5#32 } := by decide

theorem wit_counter_clear : (clearRows.all fun r => match regHit State.reset (.ctl 0) r.1 with
    | some h => (accessCauses State.reset (.ctl 0) h r.1 4 true).isEmpty && (valueCauses State.reset h 1).isEmpty
    | none => false) = true := by decide

theorem wit_counter_clear_arrays : WriteOk State.reset (.ctl 0) (FLD_ETH_CNT_CLR 4) 1 ∧
    WriteOk State.reset (.ctl 0) (FLD_ECM_CNT_CLR 3) 1 ∧ WriteOk State.reset (.ctl 0) (TC_CNT_CLR 7) 1 ∧
    WriteOk State.reset (.ctl 0) TIM_CNT_CLR 1 := by decide

theorem wit_commit_read : commitAt (TIM_CMP_CTL 31) = some (47, 1) ∧ commitAt SCH_TT_COMMIT = some (0, 0) := by decide

/-! ### Tensor cores -/

/-- A command at its last unit, due in core cycle 5, with a descriptor. -/
def cmdOf (d : Nat) : Cmd :=
  { desc := d, no := 1, attempts := 1, silent := false, start := some 0, unit := 1, next := 0, pipe := [5], wait := 0
    stalls := 0, flags := 0, raised := false, swapped := false, tile := none, doneAt := none, landed := [], src := [] }

/-- Core 0 with the step of context 1 on it, logical core 0. -/
def coreW (c : Core) : Core := { c with job := some (1, 0), dispNo := 1 }

/-- A state 100 Bandstand cycles after reset with core 0 as given. -/
def sCore (c : Core) : State := { State.reset with cores := [(0, coreW c)], cyc := 100 }

/-- The same with commands on one path. -/
def sPath (p : Nat) (cs : List Cmd) : State := sCore { Core.idle with queues := [(p, cs)] }

/-- Region 0 of each store of core 0: one unit from unit 0, half filled, to be written from line 0. -/
def withRegions (s : State) : State :=
  [0, 1, 2].foldl (fun (s : State) x => (s.wr (rgnCfg 0 x 0) 0x80010000#64).wr (rgnPtr 0 x 0) 0x4000000000#64) s

/-- One object at unit 0 of the Fabric Address Space, 4 units in the common memory, of context 1, whose window holds it. -/
def obj1 : PltEntry :=
  { base := 0, size := 4, tier := 2, st := 1, pin := 0, taddr := 0, ctx := 1, shr := false, nopub := false, unc := false
    err := false, wtag := 0, dtier := 0, dtaddr := 0, moved := 0, rslot := 0 }

def withObj (s : State) (e : PltEntry) : State :=
  { (s.setOn MEM_PLT_CTRL_READY).wr (SCH_CTX_WIN 1) 0x0100000000000000#64 with plt := [(1, e)] }

/-- Descriptors of one small unit each: a FENCE, a COMMIT, a LOAD of one line, a MATMUL of one vector, a CONV of one pixel, a
POOL, a ROIA and a VEC of one row, an ATTN of one query, a PULL and a STORE of one tile. -/
def dFence : Nat := 10 + 2 ^ 16 * 77 + 2 ^ 32 * 9

def dCommit : Nat := 11 + 2 ^ 16 * 78 + 2 ^ 32 * 9

def dLoad : Nat := 1 + 2 ^ 16 * 3 + 2 ^ 32 * 9 + 2 ^ 96 * 0xC0000000 + 2 ^ 144

def dMatmul : Nat := 2 + 2 ^ 16 * 4 + 2 ^ 32 * 9 + 2 ^ 64 * 0x40000000 + 2 ^ 96 * 0xC0000000 + 2 ^ 128 * 0x80000000 +
  2 ^ 160 * 0xC0000000 + 2 ^ 192

def dConv : Nat := 3 + 2 ^ 16 * 5 + 2 ^ 32 * 9 + 2 ^ 64 * 0x40000000 + 2 ^ 96 * 0xC0000000 + 2 ^ 128 * 0x80000000 +
  2 ^ 160 * 0xC0000000 + 2 ^ 192 * (1 + 2 ^ 16 + 2 ^ 32) + 2 ^ 256 * (1 + 2 ^ 5 + 2 ^ 10 + 2 ^ 14 + 2 ^ 18 + 2 ^ 22) +
  2 ^ 256 * 2 ^ 64 * (2 ^ 16 + 2 ^ 48)

def dPool : Nat := 4 + 2 ^ 16 * 6 + 2 ^ 32 * 9 + 2 ^ 64 * 0x40000000 + 2 ^ 96 * 0x40000000 + 2 ^ 128 * (1 + 2 ^ 16 + 2 ^ 32) +
  2 ^ 192 * (1 + 2 ^ 5 + 2 ^ 10 + 2 ^ 14) + 2 ^ 256 * (1 + 2 ^ 16)

def dRoia : Nat := 5 + 2 ^ 16 * 7 + 2 ^ 32 * 9 + 2 ^ 64 * 0x40000000 + 2 ^ 96 * 0x40000000 + 2 ^ 128 * (0x40000000 + 2 ^ 32) +
  2 ^ 192 * (1 + 2 ^ 16 + 2 ^ 32 + 2 ^ 52 + 2 ^ 58) + 2 ^ 256 * (0x3F800000 + 2 ^ 32)

def dVec : Nat := 7 + 2 ^ 16 * 8 + 2 ^ 32 * 9 + 2 ^ 64 * 0x40000000 + 2 ^ 96 * 0xC0000000 + 2 ^ 128 * 0x40000000 +
  2 ^ 160 * 0xC0000000 + 2 ^ 192 * (1 + 2 ^ 16) + 2 ^ 256 * 0xC0000000 + 2 ^ 256 * 2 ^ 32 * 0xC0000000

def dAttn : Nat := 6 + 2 ^ 16 * 9 + 2 ^ 32 * 9 + 2 ^ 64 * 0x40000000 + 2 ^ 96 * 0x40000000 +
  2 ^ 192 * (8 + 2 ^ 9 + 2 ^ 14) + 2 ^ 256 + 2 ^ 256 * 2 ^ 64

def dPull : Nat := 8 + 2 ^ 16 * 10 + 2 ^ 32 * 9 + 2 ^ 128 * 0x40000000 + 2 ^ 192

def dStore : Nat := 9 + 2 ^ 16 * 11 + 2 ^ 32 * 9 + 2 ^ 128 * 0x40000000 + 2 ^ 192

def tileW : Plane := { desc := dLoad, bytes := List.replicate 512 1#8, rel := false }

def sFetch : State := withObj (sCore Core.idle) obj1

def sDispatch : State := sCore { Core.idle with fetched := [dFence], fetchPos := 1 }

def sHold (d : Nat) : State := sCore { Core.idle with hold := some (cmdOf d) }

def cLoad : Cmd := { cmdOf dLoad with tile := some tileW }

def sLoad : State :=
  withRegions (sCore { Core.idle with queues := [(1, [cLoad])], shadow := some { tileW with bytes := [] }, shadowSt := 1 })

def cMatmul : Cmd := { cmdOf dMatmul with tile := some tileW }

def cConv : Cmd := { cmdOf dConv with tile := some tileW }

def sEngine (p : Nat) (c : Cmd) : State := withRegions (sPath p [c])

def cAttn (l : List Nat) : Cmd := { cmdOf dAttn with landed := l }

/-- A tile command that has moved nothing yet. -/
def cTile (d w : Nat) : Cmd := { cmdOf d with unit := 0, pipe := [], wait := w }

def sPull (e : PltEntry) : State := withObj (withRegions (sPath 4 [cTile dPull 0])) e

def objPeer : PltEntry := { obj1 with tier := 5, taddr := 2 ^ 45 * 2 + 7 }

/-- Region 0 of the A-store is filled. -/
def sFilledPath (p : Nat) (c : Cmd) : State := (withObj (withRegions (sPath p [c])) obj1).wr (rgnPtr 0 1 0) 0x1000000000000#64

def sFilled (c : Cmd) : State := sFilledPath 4 c

def cLanding : Cmd := { cmdOf dPull with pipe := [], src := [(0, obj1)] }

/-- The same core 1,000 Bandstand cycles after reset. -/
def sLanding : State := { withObj (withRegions (sPath 4 [cLanding])) obj1 with cyc := 1000 }

/-- Context 1 runs a step on core 0. -/
def sStep (s : State) : State :=
  { s with sched := { s.sched with steps := [(1, { st := 3, entry := [], tag := none, attempts := 1, readyAt := 0, startNo := 0
                                                   lcores := [(0, { st := 1, pcore := 0, resume := none, tries := [] })] })] } }

theorem wit_fetch : coreLive sFetch 0 = true ∧ (coreOf sFetch 0).fetchAt ≤ sFetch.cyc ∧
    (quietRead sFetch 1 0 64).isSome = true := by decide

theorem wit_dispatch : coreLive sDispatch 0 = true ∧ pathRoom (coreOf sDispatch 0) dFence = true ∧
    dispatchCode sDispatch 0 1 dFence = 0 ∧ upToDate sDispatch 0 = sDispatch := by decide

theorem wit_fence : coreLive (sHold dFence) 0 = true ∧ dOpc dFence = 10 ∧ db dFence 1 8 = false ∧
    (coreOf (sHold dFence) 0).pathNext = [] := by decide

theorem wit_commit : coreLive (sHold dCommit) 0 = true ∧ dOpc dCommit = 11 ∧ storesAcked (sHold dCommit) 0 = true := by decide

theorem wit_load : LastUnit sLoad 0 1 1 cLoad (loadWork 0 cLoad) 5 := by constructor <;> decide

theorem wit_matmul : LastUnit (sEngine 0 cMatmul) 0 0 2 cMatmul (gridWork (sEngine 0 cMatmul) 0 cMatmul) 5 := by
  constructor <;> decide

theorem wit_conv : LastUnit (sEngine 0 cConv) 0 0 3 cConv (gridWork (sEngine 0 cConv) 0 cConv) 5 := by
  constructor <;> decide

theorem wit_pool : LastUnit (sEngine 2 (cmdOf dPool)) 0 2 4 (cmdOf dPool) (workOf (sEngine 2 (cmdOf dPool)) 0 (cmdOf dPool)) 5 := by
  constructor <;> decide

theorem wit_roia : LastUnit (sEngine 2 (cmdOf dRoia)) 0 2 5 (cmdOf dRoia) (workOf (sEngine 2 (cmdOf dRoia)) 0 (cmdOf dRoia)) 5 := by
  constructor <;> decide

theorem wit_vec : LastUnit (sEngine 2 (cmdOf dVec)) 0 2 7 (cmdOf dVec) (workOf (sEngine 2 (cmdOf dVec)) 0 (cmdOf dVec)) 5 := by
  constructor <;> decide

theorem wit_attn : LastUnit (sEngine 3 (cAttn [1])) 0 3 6 (cAttn [1]) (attnWork (cAttn [1]) 0) 5 := by constructor <;> decide

theorem wit_attn_skipped : LastUnit (sEngine 3 (cAttn [2])) 0 3 6 (cAttn [2]) (attnWork (cAttn [2]) 0) 5 := by
  constructor <;> decide

theorem wit_attn_request : coreLive (sPath 3 [cTile dAttn 0]) 0 = true ∧
    (coreOf (sPath 3 [cTile dAttn 0]) 0).queue 3 = [cTile dAttn 0] ∧ (cTile dAttn 0).landed = [] := by decide

theorem wit_pull_local : tileCmd (sPull obj1) 0 8 = some (cTile dPull 0) ∧
    writeFrom (sPull obj1) 0 (mvRef dPull, 0, 128) = some 0 ∧ peerUnit (sPull obj1) 1 0 = none := by decide

theorem wit_pull_remote : tileCmd (sPull objPeer) 0 8 = some (cTile dPull 0) ∧ peerUnit (sPull objPeer) 1 0 = some (2, 7) ∧
    writeFrom (sPull objPeer) 0 (mvRef dPull, 0, 128) = some 0 ∧
    ((List.range 4096).filter fun i => !((sPull objPeer).sched.remote.map (·.1)).contains i).length = 4096 := by decide

theorem wit_store : tileCmd (sFilled (cTile dStore 0)) 0 9 = some (cTile dStore 0) ∧
    readFrom (sFilled (cTile dStore 0)) 0 (mvRef dStore, 0, 128) = some 0 ∧
    (match resolve (sFilled (cTile dStore 0)) false 1 0 65536 true with
     | .ok x => x == (1, obj1)
     | .error _ => false) = true ∧ protClosed (sFilled (cTile dStore 0)) 2 0 true = false := by decide

theorem wit_tile_landed : (match resolve sLanding false 1 0 65536 false with
     | .ok x => x == (1, obj1)
     | .error _ => false) = true ∧ unpublished sLanding 1 obj1 = false ∧ poisonedIn sLanding (objPlace obj1 0) 65536 = [] ∧
    (coreOf sLanding 0).queue 4 = [cLanding] ∧ tget cLanding.src 0 = some obj1 ∧ 256 ≤ nowOf sLanding 0 := by decide

theorem wit_store_ack : objectAt sLanding 0 = some (1, obj1) ∧ tget sLanding.migs 1 = none := by decide

theorem wit_complete : coreLive (sPath 1 [{ cmdOf dLoad with doneAt := some 5 }]) 0 = true ∧
    5 ≤ nowOf (sPath 1 [{ cmdOf dLoad with doneAt := some 5 }]) 0 := by decide

/-- A POOL that waits for its row's line, and one whose row waits to be written. -/
def cReading : Cmd := { cmdOf dPool with unit := 0, pipe := [], wait := 1 }

def cWriting : Cmd := { cmdOf dPool with wait := 2 }

theorem wit_read_resume : (coreOf (sFilledPath 2 cReading) 0).queue 2 = [cReading] ∧
    0 < (workOf (sFilledPath 2 cReading) 0 cReading).total ∧
    allFrom (readFrom (sFilledPath 2 cReading) 0) ((workOf (sFilledPath 2 cReading) 0 cReading).reads 0) = some 0 := by decide

theorem wit_write_resume : (coreOf (sEngine 2 cWriting) 0).queue 2 = [cWriting] ∧ opcPath (dOpc dPool) = 2 ∧
    allFrom (writeFrom (sEngine 2 cWriting) 0) ((workOf (sEngine 2 cWriting) 0 cWriting).writes 0) = some 0 := by decide

theorem wit_budget : coreLive (sPath 4 [cmdOf dPull]) 0 = true ∧ upToDate (sPath 4 [cmdOf dPull]) 0 = sPath 4 [cmdOf dPull] ∧ 16 * dBudget dPull < nowOf (sPath 4 [cmdOf dPull]) 0 ∧
    jobOf (sPath 4 [cmdOf dPull]) 0 = some (1, 0) := by decide

theorem wit_kill_complete : (coreOf (sCore { Core.idle with killing := true }) 0).killing = true ∧
    (lcoreOn (sCore { Core.idle with killing := true }) 0 [2]).isNone = true := by decide

theorem wit_tc_enable : WriteOk State.reset (.app 0) (TC_CTRL 0) 1 := by decide

theorem wit_tc_disable : WriteOk ((sStep (sPath 4 [])).setOn (TC_CTRL_ENABLE 0)) (.app 0) (TC_CTRL 0) 0 ∧
    (lcoreOn ((sStep (sPath 4 [])).setOn (TC_CTRL_ENABLE 0)) 0 [1, 5]).isSome = true := by decide

/-! ### Bandstand time -/
def sTime : State := { ((State.reset.setOn TIM_CTRL_MODE).put TIM_CTRL_ACTSRC 1).put TIM_SRC_CFG_PRI 1 with cyc := 5000, acc := 7 * 2 ^ 32 * 1000000000 }

def dueStep (rel : Bool) (sec : Nat) : StepDue :=
  { cyc := some 4000, instant := 0, rel := rel, mode := true, sec := sec, ns := 5, frac := 0 }

def sStepTime (sec : Nat) : State := { (sTime.setOn TIM_STEP_CTL_BUSY) with stepDue := some (dueStep true sec), rates := [(6000, 1, 1)] }

def sServo : State := sTime.setOn TIM_CTRL_ENABLE

/-- Unit 3 armed on second 6, or disabled with target second `sec`. -/
def sUnit (per : Bool) : State :=
  (((sTime.setOn (TIM_CMP_CTL_ENABLE 3)).setOn (TIM_CMP_STAT_ARMED 3)).put (TIM_CMP_CTL_DEST 3) 20).put (TIM_CMP_CTL_PERIODIC 3) (ofBool per)
    |>.wr (TIM_CMP_NEXT_HI 3) 6#64 |>.wr (TIM_CMP_PER 3) 0x100000#64

def sArm (sec : Nat) (per : Bool) : State :=
  ((sTime.wr (TIM_CMP_TGT_HI 3) (BitVec.ofNat 64 sec)).put (TIM_CMP_CTL_PERIODIC 3) (ofBool per)).wr (TIM_CMP_PER 3) 0x10000000000#64

theorem wit_step_go : WriteOk sTime (.app 0) TIM_STEP_CTL 3 ∧ sTime.stepDue.isNone = true ∧ cwyMaster sTime = false ∧
    sTime.get TIM_STEP_LO_NS < 1000000000 := by decide

theorem wit_step_refused : WriteOk State.reset (.app 0) TIM_STEP_CTL 7 ∧ State.reset.epochMode = false ∧
    cwyFollower State.reset = false ∧ (sStepTime 2).stepDue.isSome = true ∧
    WriteOk (sStepTime 2) (.app 0) TIM_STEP_CTL 3 ∧ cwyFollower (sStepTime 2) = false := by decide

theorem wit_step_executes : stepReached (sStepTime 2) (dueStep true 2) = true ∧
    ((List.range 32).all fun c => (cmpDue (sStepTime 2) c).isNone) = true ∧
    (stepResult (sStepTime 2) (dueStep true 2)).isSome = true ∧
    ((List.range 32).all fun c => !(sStepTime 2).on (TIM_CMP_STAT_ARMED c)) = true := by decide

theorem wit_step_out_of_range : stepReached (sStepTime (2 ^ 48 - 9)) (dueStep true (2 ^ 48 - 9)) = true ∧
    stepResult (sStepTime (2 ^ 48 - 9)) (dueStep true (2 ^ 48 - 9)) = none := by decide

theorem wit_sample : WriteOk sServo (.app 0) TIM_SRC_FWOFS (2 ^ 48 + 100) ∧ sServo.get TIM_CTRL_ACTSRC = 1 ∧
    sServo.on TIM_CTRL_ENABLE = true ∧ sServo.epochMode = true ∧ sServo.isPending 1 = false ∧ sServo.rates = [] := by decide

theorem wit_sample_rejected : WriteOk sServo (.app 0) TIM_SRC_FWOFS (3 * 2 ^ 48 + 100) ∧ sServo.get TIM_SRC_CFG_PRI ≠ 3 ∧
    sServo.get TIM_SRC_CFG_SEC ≠ 3 ∧ sServo.get TIM_CTRL_ACTSRC ≠ 3 := by decide

theorem wit_source_timeout : sourceValid sServo (sServo.get TIM_CTRL_ACTSRC) = false ∧ sServo.on TIM_CTRL_HOLDOVER = false ∧
    sServo.on TIM_CTRL_ENABLE = true := by decide

theorem wit_fallback : sourceValid { sServo.put TIM_SRC_CFG_SEC 2 with srcSeen := [(2, 4000)] } 2 = true ∧
    (sServo.put TIM_SRC_CFG_SEC 2).on TIM_CTRL_FALLBACK = false := by decide

theorem wit_servo_writes : WriteOk sTime (.app 0) TIM_CTRL 1 ∧ WriteOk sServo (.app 0) TIM_CTRL 0 ∧
    sTime.on TIM_CTRL_ENABLE = false ∧ WriteOk sTime (.app 0) TIM_SRV_COMMIT 1 ∧ WriteOk sServo (.app 0) TIM_SRV_COMMIT 1 := by decide

theorem wit_compare_fire : cmpDue (sUnit false) 3 = some false ∧ cmpDue (sUnit true) 3 = some false ∧
    cmpPeriodic (sUnit true) 3 = true ∧ cmpPeriodic (sUnit false) 3 = false ∧ (sUnit true).isPending 19 = false ∧
    (sUnit true).get (TIM_CMP_CTL_DEST 3) = 20 := by decide

theorem wit_compare_arm : WriteOk (sArm 9 false) (.app 0) (TIM_CMP_CTL 3) 0x640001 ∧ cmpDiff (sArm 9 false) (cmpTarget (sArm 9 false) 3) < 0 ∧
    0 ≤ cmpDiff (sArm 6 true) (cmpTarget (sArm 6 true) 3) ∧ cmpPeriodic (sArm 6 true) 3 = true ∧
    cmpPeriodic (sArm 6 false) 3 = false ∧ WriteOk (sArm 6 true) (.app 0) (TIM_CMP_CTL 3) 0x640001 := by decide

theorem wit_compare_off : WriteOk (sUnit true) (.app 0) (TIM_CMP_CTL 3) 0x640000 ∧ (sUnit true).on (TIM_CMP_CTL_ENABLE 3) = true := by
  decide

theorem wit_compare_commit : WriteOk (sUnit true) (.app 0) (TIM_CMP_CTL 3) 0x640003 ∧
    WriteOk (sArm 9 true) (.app 0) (TIM_CMP_CTL 3) 0x640002 ∧ (sArm 9 true).on (TIM_CMP_CTL_ENABLE 3) = false := by decide

/-! ### The scheduler -/

/-- Frames run, and the slot's end has come. -/
def sSlot (i : Nat) : State :=
  { ((State.reset.setOn SCH_CTRL_ENABLE).setOn SCH_CTRL_READY).setOn MEM_DDR_STAT_READY with sched := { schedReset with slot := i, slotEnd := 0 } }

def sRelock : State := { State.reset with cores := [(0, { Core.idle with relockEnd := some 7 })], cyc := 10 }

/-- A step of context 1 with logical cores as given. -/
def stepW (entry : List Byte) (ls : List (Nat × Nat)) : Step :=
  { st := 3, entry := entry, tag := none, attempts := 1, readyAt := 0, startNo := 0
    lcores := ls.map fun l => (l.1, { st := l.2, pcore := l.1, resume := none, tries := [] }) }

def sWithStep (c : Core) (t : Step) : State := { sCore c with sched := { schedReset with steps := [(1, t)] } }

def coreXfer (rest : List (Nat × Nat)) (r : Bool) : Core := { Core.idle with xfer := (0, spadPlace 0 1 0) :: rest, restoring := r }

def sRemote (e : Nat) : State :=
  let s := withRegions (sPath 4 [cTile dPull 0])
  { s with sched := { s.sched with remote := [(5, { core := 0, epoch := e, no := 1, tile := 0, module := 2, unit := 7, ctx := 1 })] } }

theorem wit_slot : (sSlot 0).on SCH_CTRL_READY = true ∧ (sSlot 0).sched.slotEnd ≤ (sSlot 0).accNs ∧
    (sSlot 0).sched.slot + 1 < (sSlot 0).sched.slots.length := by decide

theorem wit_slot_frame : (sSlot 15).sched.slots.length ≤ (sSlot 15).sched.slot + 1 ∧
    (sSlot 15).on DGN_TEL_CTL_ENABLE = false ∧ (sSlot 15).telWaiting = false ∧ (sSlot 15).isPending 0 = false ∧ cwyFormed (sSlot 15) = false := by decide

theorem wit_slot_maint : ((sSlot 14).sched.slots.getD 15 (curSlot (sSlot 14))).kind = 1 ∧
    (sSlot 14).fuses.phys.testBit 7 = true := by decide

theorem wit_relock : (coreOf sRelock 0).relockEnd = some 7 ∧ sRelock.cyc = 10 := by decide

theorem wit_tt_commit : WriteOk (sSlot 0) (.app 0) SCH_TT_COMMIT 1 ∧ cwyFormed (sSlot 0) = false ∧
    (sSlot 0).on SCH_CTRL_ENABLE = true := by decide

theorem wit_tt_commit_off : WriteOk State.reset (.app 0) SCH_TT_COMMIT 1 ∧ State.reset.on SCH_CTRL_ENABLE = false ∧
    (ttPending (State.reset.snapshot 0)).isNone = true := by decide

theorem wit_sch_enable : WriteOk State.reset (.app 0) SCH_CTRL 1 ∧ State.reset.epochMode = false ∧
    State.reset.on SCH_CTRL_READY = false := by decide

theorem wit_sch_disable : WriteOk (sSlot 0) (.app 0) SCH_CTRL 0 ∧ inMaint (sSlot 0) = false := by decide

theorem wit_commit_report : (lcoreOn (sWithStep { Core.idle with commitDone := true } (stepW [1#8] [(0, 1)])) 0 [1]).isSome =
    true ∧ eLcores [1#8] = [0] := by decide

theorem wit_commit_report_more : (lcoreOn (sWithStep { Core.idle with commitDone := true } (stepW [3#8] [(0, 1)])) 0
    [1]).isSome = true ∧ eLcores [3#8] = [0, 1] ∧ ((stepW [3#8] [(0, 1)]).lcore 1).st ≠ 6 := by decide

/-- A core that spills or restores two tiles. -/
def sXfer (rest : List (Nat × Nat)) (k : Nat) : State :=
  withObj (sWithStep (coreXfer rest (k == 5)) (stepW [1#8] [(0, k)])) obj1

theorem wit_spill : (lcoreOn (sXfer [(65536, 5)] 3) 0 [3]).isSome = true ∧ (lcoreOn (sXfer [] 3) 0 [3]).isSome = true ∧
    (coreOf (sXfer [] 3) 0).xfer = [(0, spadPlace 0 1 0)] ∧
    (match resolve (sXfer [] 3) false 1 0 65536 true with
     | .ok x => x == (1, obj1)
     | .error _ => false) = true := by decide

theorem wit_restore : (lcoreOn (sXfer [] 5) 0 [5]).isSome = true ∧
    (match resolve (sXfer [] 5) false 1 0 65536 false with
     | .ok x => x == (1, obj1)
     | .error _ => false) = true ∧ poisonedIn (sXfer [] 5) (objPlace obj1 0) 65536 = [] := by decide

/-- Context 1 has an entry at SCONS. -/
def sEntry : State := { State.reset with sched := { schedReset with snaps := [(1, 4)] } }

theorem wit_context_enable : WriteOk State.reset (.app 0) (SCH_CTX_CTL 1) 0xFF31 ∧
    State.reset.get (SCH_CTX_SCONS_INDEX 1) = tgetD State.reset.sched.snaps 1 0 ∧
    (stepOf State.reset 1).isNone = true ∧ State.reset.on (SCH_CTX_CTL_FAULTED 1) = false := by decide

theorem wit_context_ready : WriteOk sEntry (.app 0) (SCH_CTX_CTL 1) 0xFF31 ∧
    sEntry.get (SCH_CTX_SCONS_INDEX 1) ≠ tgetD sEntry.sched.snaps 1 0 ∧ (stepOf sEntry 1).isNone = true := by decide

theorem wit_context_disable : WriteOk (State.reset.setOn (SCH_CTX_CTL_ENABLE 1)) (.app 0) (SCH_CTX_CTL 1) 0xFF00 ∧
    (State.reset.setOn (SCH_CTX_CTL_ENABLE 1)).on (SCH_CTX_CTL_ENABLE 1) = true := by decide

def sFaulted : State := State.reset.put (SCH_CTX_CTL_FAULTED 1) 1

theorem wit_context_fault : WriteOk sFaulted (.app 0) (SCH_CTX_CTL 1) (0xFF30 ||| 2) ∧
    sFaulted.on (SCH_CTX_CTL_FAULTED 1) = true ∧ (sFaulted.freshBits (SCH_CTX_CTL 1)).testBit 1 = false ∧
    sFaulted.epochCyc ≠ some sFaulted.blvCyc := by decide

theorem wit_stale : (tget (sRemote 3).sched.remote 5).map (·.epoch) = some 3 ∧ (coreOf (sRemote 3) 0).epoch = 0 := by decide

theorem wit_remote : (tget (sRemote 0).sched.remote 5).map (·.epoch) = some (coreOf (sRemote 0) 0).epoch ∧
    (coreOf (sRemote 0) 0).queue 4 = [cTile dPull 0] := by decide

/-! ### Memory tiers, placement and page pools -/

/-- The placement engine runs with 16 entries, and the 64 bytes `bs` stand at the head of its ring at unit 100. -/
def sPlt (bs : List Byte) (objs : List (Nat × PltEntry)) : State :=
  let s := (((State.reset.wr MEM_PLT_CTRL 3#64).wr MEM_PLT_COUNT 16#64).wr MEM_PLQ_PROD 1#64).wr MEM_PLQ_BASE 0x640000#64
  { s with plt := (0, { obj1 with base := 100, size := 1, taddr := 200, ctx := 0 }) :: objs }.store (tierPlace 2 200 0) bs

/-- A request: OP, object, two more words. -/
def reqBytes (op obj w1 w2 : Nat) : List Byte := leBytes 8 (op + obj * 2 ^ 32) ++ leBytes 8 w1 ++ leBytes 8 w2

def sCopy (moved : Nat) : State :=
  { sPlt [] [(3, { obj1 with st := 2, dtier := 2, dtaddr := 50, moved := moved })] with
    migs := [(3, { reqs := [], cancels := [], waiting := [], tileAt := 0 })] }

def sTag : State :=
  { sPlt [] [(3, { obj1 with unc := true, wtag := 7 })] with tags := [(7, { committed := true, log := [3], overflow := false })] }

/-- One protected range of LPDDR5X, from unit 0, of 64 GiB/64. -/
def sProt : State :=
  (((State.reset.wr (MEM_PROT 0) 0x80000100#64).wr MEM_SCRUB_CFG 0x80000001#64).wr MEM_DDR_CTRL 1#64)

def sScrub : State := { sProt with cyc := 1000 }

def sPltOk : State :=
  (((sProt.wr MEM_PLT_COUNT 16#64).wr MEM_PLQ_SIZE 0x106#64).wr MEM_PLT_TBL 0x10000#64).wr MEM_PLT_DIR 0x1000000#64

/-- A MAINT slot with LPDDR5X retraining. -/
def sMaint : State := { ((sProt.setOn MEM_DDR_STAT_READY).setOn MEM_DDR_STAT_RETRAIN).setOn SCH_CTRL_READY with cyc := 1000 }.put SCH_NOW_KIND 1

def sPsram : State := { (State.reset.setOn (BLV_HRC_CTRL_SCRUB 1)) with cyc := 512000 }

/-- The host's context owns an object. -/
def sFas : State := withObj (State.reset.wr SCH_PCI_CTX 1#64) obj1

/-- Pool 2 of context 1 is READY, and a page table stands at address 0 in the given state. -/
def sPool (st : Nat) (p : Pool) : State :=
  let s := (withObj State.reset obj1).wr (SCH_KVP_CTL 2) 0x103#64
  { s with pools := [(2, p)], cores := [(0, coreW { Core.idle with queues := [(3, [cTile dAttn 5])] })]
           kvpQueue := [{ kind := 0, core := 0, pool := 2, ptab := 0, at_ := 0, tie := 1, waits := false }] }.store (areaBase 2) [1#8, 0#8, 4#8, 0#8, 2#8, 0#8, BitVec.ofNat 8 st]

def poolW (seqs pins : List (Nat × Nat)) : Pool :=
  { fstk := [0, 1], hstk := [], seqs := seqs, pins := pins, retiring := [], disabling := false }

theorem wit_plt_create : (headRequest (sPlt (reqBytes 1 3 (2 ^ 25 + 2 ^ 48) 2) [])).map (fun x => (badRequest x.1, x.2.op, x.2.size)) =
      some (false, 1, 2) ∧ tierOk (sPlt [] []) 2 0 2 = true ∧ pltCount (sPlt [] []) = 16 := by decide

theorem wit_plt_one_entry : ([2, 5, 6, 7].all fun op =>
    (headRequest (sPlt (reqBytes op 3 0 0) [(3, obj1)])).map (fun x => (badRequest x.1, x.2.op, x.2.obj)) ==
      some (false, op, 3)) = true := by decide

theorem wit_plt_copy : (headRequest (sPlt (reqBytes 3 3 0 2) [(3, obj1)])).map (fun x => (badRequest x.1, x.2.op, x.2.tier)) =
      some (false, 3, 2) ∧
    (headRequest (sPlt (reqBytes 4 3 0 3) [(3, obj1)])).map (fun x => (badRequest x.1, x.2.op, x.2.tier)) = some (false, 4, 3) ∧
    tierOk (sPlt [] []) 3 0 4 = true ∧ tierOk (sPlt [] []) 2 0 4 = true ∧ migrations (sPlt [] [(3, obj1)]) = 0 := by decide

theorem wit_plt_badop : (headRequest (sPlt (reqBytes 9 3 0 0) [])).map (fun x => badRequest x.1) = some true := by decide

theorem wit_migration : poisonedIn (sCopy 0) (objPlace obj1 0) 65536 = [] ∧ (tget (sCopy 0).migs 3).isSome = true ∧
    (tget (sCopy 0).plt 3).map (fun e => (e.st, decide (e.moved + 1 < e.size))) = some (2, true) ∧
    (tget (sCopy 3).plt 3).map (fun e => decide (e.size ≤ e.moved + 1)) = some true ∧ ddrHeld (sCopy 0) = false := by decide

theorem wit_publication : (tget sTag.tags 7).map (·.committed) = some true := by decide

theorem wit_plt_enable : WriteOk sPltOk (.app 0) MEM_PLT_CTRL 1 ∧ pltSetupOk sPltOk = true ∧
    WriteOk State.reset (.app 0) MEM_PLT_CTRL 1 ∧ pltSetupOk State.reset = false ∧
    WriteOk (sPlt [] []) (.app 0) MEM_PLT_CTRL 0 ∧ (sPlt [] []).on MEM_PLT_CTRL_ENABLE = true := by decide

theorem wit_scrub : sScrub.on MEM_SCRUB_CFG_ENABLE = true ∧ sScrub.on MEM_DDR_CTRL_ENABLE = true ∧
    protRanges sScrub = [(0, 16384, 15360)] ∧ sScrub.scrubSince + max 1 (sScrub.get MEM_SCRUB_CFG_PERIOD) * 1000 ≤ sScrub.cyc ∧
    sScrub.get MEM_SCRUB_STAT_POS = 0 ∧ ddrHeld sScrub = false := by decide

theorem wit_psram : sPsram.on (BLV_HRC_CTRL_SCRUB 1) = true ∧ sPsram.get (BLV_HRC_SCRUB_POS 1) = 0 ∧
    tgetD sPsram.psScrubSince 1 0 + 512000 ≤ sPsram.cyc := by decide

theorem wit_fas : (match fasJudge sFas .pcie false 64 8 with
     | .ok x => x == (1, obj1)
     | .error _ => false) = true ∧ (match fasJudge sFas .pcie true 64 8 with
     | .ok x => x == (1, obj1)
     | .error _ => false) = true ∧ (match fasJudge sFas .pcie true 0x64000000 8 with
     | .ok _ => false
     | .error c => c == 0) = true ∧ unpublished sFas (ctxOf sFas .pcie) obj1 = false := by decide

theorem wit_ddr : sProt.on MEM_DDR_CTRL_ENABLE = true ∧ sMaint.on MEM_DDR_STAT_RETRAIN = true ∧ ddrHeld sMaint = true ∧
    sProt.on MEM_DDR_STAT_READY = false := by decide

/-- An object in LPDDR5X, accessed in a MAINT slot. -/
def objDdr : PltEntry := { obj1 with tier := 3 }

def sFasHeld : State := withObj (sMaint.wr SCH_PCI_CTX 1#64) objDdr

theorem wit_fas_held : (match fasJudge sFasHeld .pcie false 64 8 with
     | .ok x => x == (1, objDdr)
     | .error _ => false) = true ∧ ddrHeld sFasHeld = true := by decide

theorem wit_kvp : WriteOk State.reset (.app 0) (SCH_KVP_CTL 2) 0x101 ∧ WriteOk State.reset (.app 0) (SCH_KVP_ADMIT 2) 0 ∧
    State.reset.on (SCH_KVP_CTL_READY 2) = false ∧ WriteOk (sPool 0 (poolW [] [])) (.app 0) (SCH_KVP_ADMIT 2) 0 ∧
    WriteOk (sPool 1 (poolW [(0, 0)] [])) (.app 0) (SCH_KVP_RETIRE 2) 0 ∧
    State.reset.kvpQueue = [] ∧ ddrHeld State.reset = false := by decide

/-- The pool with no request waiting. -/
def sPoolIdle (st : Nat) (p : Pool) : State := { sPool st p with kvpQueue := [] }

theorem wit_kvp_table : (match resolve (sPoolIdle 1 (poolW [(0, 0)] [])) true 1 0 64 true with
     | .ok x => x == (1, obj1)
     | .error _ => false) = true ∧
    hdPool (kvHeader (sPool 1 (poolW [(0, 0)] [])) 1 0).2 = 2 ∧ hdState (kvHeader (sPool 1 (poolW [(0, 0)] [])) 1 0).2 = 1 ∧
    hdState (kvHeader (sPool 2 (poolW [(0, 0)] [])) 1 0).2 = 2 ∧ poolOwner (sPool 1 (poolW [(0, 0)] [])) 2 = 1 := by decide

theorem wit_kvp_serve : (coreOf (sPool 1 (poolW [(0, 0)] [])) 0).queue 3 = [cTile dAttn 5] ∧
    atAppend dAttn = false ∧ atPtab dAttn = 0 ∧ (sPool 1 (poolW [(0, 0)] [])).on (SCH_KVP_CTL_READY 2) = true ∧ poolZj4 (sPool 1 (poolW [(0, 0)] [])) 2 = false := by decide

/-! ### The sensor front and fusion -/

/-- Tables with the given descriptor as channel 5 and the given slot 2. -/
def tabW (d : Nat) (e : List Byte) : FusTables :=
  { chans := [0, 0, 0, 0, 0, d], slots := [[], [], e], ext := [] }

def sFus (d : Nat) (e : List Byte) : State :=
  let s := { (State.reset.setOn SNS_CTRL_ENABLE).setOn FUS_CTRL_ENABLE with cyc := 5000, acc := 9 * 2 ^ 32 * 1000000 }
  { s with fus := { s.fus with tables := some (tabW d e), nextO := 9000000 } }

/-- Descriptors: an enabled channel of a kind on port 1, and more bits. -/
def chanW (kind more : Nat) : Nat := 1 + 2 * kind + 2 ^ 4 + more + 2 ^ 192 * 1000 * 65536

def dCsi : Nat := chanW 0 (2 ^ 10 * 0x2A)

def dEth : Nat := chanW 1 (2 ^ 48 * 0x22F0)

def dImu : Nat := chanW 2 0

def dAnalog (decim : Nat) : Nat := chanW 3 (2 ^ 40 * decim)

def dExt : Nat := chanW 4 0

def chW (c : Chan) (s : State) : State := { s with fus := { s.fus with chans := [(5, c)] } }

def frameW : List Byte := List.replicate 12 1#8 ++ [0x22#8, 0xF0#8] ++ List.replicate 60 3#8

def sImu : State :=
  let s := ((sFus dImu []).put (SNS_IMU_CFG_BURST 1) 12).put (SNS_IMU_CFG_CMDLEN 1) 1
  { s with fus := { s.fus with spi := [(1, 77)] } }

def sImuIdle : State := { sImu with fus := { sImu.fus with spi := [] } }

def sAnalog (k : Nat) : State :=
  let s := sFus (dAnalog k) []
  { s with fus := { s.fus with conv := some (44, 100) } }

/-- A CSI channel with a ring of 2 slots of 10 units at address 0. -/
def sRing (prod : Nat) : State :=
  (withObj (sFus (dCsi + 2 ^ 16 + 2 ^ 64 * (65536 + 2 ^ 48) + 2 ^ 128 * 9) []) { obj1 with base := 0 }).wr (SNS_CH_PROD 5)
    (BitVec.ofNat 64 prod)

def slotW : List Byte := [1#8, 1#8, 1#8, 1#8, 5#8, 0#8, 0#8, 0#8, 0#8, 0#8, 0#8, 0#8, 1#8] ++ List.replicate 24 1#8

def sReady (e : List Byte) : State := (sFus dExt e).setOn FUS_CTRL_READY

def sGrid : State :=
  ((withObj (sReady []) { obj1 with base := 0, size := 32, ctx := 0 }).wr (SCH_CTX_WIN 0) 0x0100000000000000#64).put FUS_GRID_NF 1

theorem wit_csi : csiOn ((sFus dCsi []).put (SNS_CSI_CFG_LANES 1) 2) 1 = true ∧ chRing (chanDesc (sFus dCsi []) 5) = 0 ∧
    channelsOf (sFus dCsi []) 0 (fun d => chPort d == 1 && chVc d == 0 && chDt d == 0x2A) = [5] := by decide

theorem wit_eth : ethDropKind 1 true frameW = none ∧ (etherType frameW).1 = 0x22F0 ∧
    channelsOf (sFus dEth []) 1 (fun d => chPort d == 1 && chEtype d == 0x22F0 && (chUdpp d == 0 || udpPort frameW == some (chUdpp d))) =
      [5] ∧ channelsOf (sFus dCsi []) 1 (fun d => chPort d == 1 && chEtype d == 0x22F0) = [] := by decide

theorem wit_imu : imuChannels sImu 1 = [5] ∧ tget sImu.fus.spi 1 = some 77 ∧ tget sImuIdle.fus.spi 1 = none ∧
    sImuIdle.get (SNS_IMU_CFG_BURST 1) = 12 := by decide

theorem wit_arrival_next : (chanOf (chW { Chan.fresh with n := 1, sref := 5 } (sFus dCsi [])) 5).n = 1 ∧
    (sensorStamp dCsi { Chan.fresh with n := 1, sref := 5, seq := 1 } 0 []).1 = 1000 := by decide

theorem wit_ring : RecordPlace (sRing 0) 5 0 64 obj1 ∧ RecordPlace (sRing 0) 5 512 64 obj1 ∧
    chRing (chanDesc (sRing 0) 5) ≠ 0 := by
  refine ⟨⟨1, ?_⟩, ⟨1, ?_⟩, by decide⟩ <;> exact ⟨rfl, by decide⟩

theorem wit_ring_full : ((sRing 2).get (SNS_CH_PROD_INDEX 5) + 65536 - (sRing 2).get (SNS_CH_CONS_INDEX 5)) % 65536 =
    2 ^ chRlog2 (chanDesc (sRing 2) 5) := by decide

theorem wit_conversion : channelsOf (sAnalog 1) 3 (fun d => chPort d == 1) = [5] ∧ (sAnalog 1).fus.conv = some (44, 100) ∧
    1 % max 1 (chDecim (chanDesc (sAnalog 2) 5)) ≠ 0 ∧ 1 % max 1 (chDecim (chanDesc (sAnalog 1) 5)) = 0 := by decide

theorem wit_prod : WriteOk (sFus dExt []) (.app 0) (SNS_CH_PROD 5) 1 ∧ ownsProd (sFus dExt []) 5 = true := by decide

theorem wit_model_timeout : (chanOf (chW { Chan.fresh with valid := true } (sFus dImu [])) 5).valid = true ∧
    0 < ((sFus dImu []).now16 : Int) := by decide

theorem wit_instant : (sReady slotW).fus.nextO ≤ (sReady slotW).accNs ∧ (sReady slotW).on FUS_CTRL_ENABLE = true := by decide

theorem wit_slots : slKind ((tabW dExt slotW).slots.getD 2 []) = 1 ∧
    ((List.range 32).all fun i => i == 2 || slKind ((tabW dExt slotW).slots.getD i []) == 0) = true ∧
    slDiv slotW = 1 ∧ (sReady slotW).on FUS_CTRL_READY = true := by decide

theorem wit_grid : nextGrid sGrid ≤ sGrid.accNs + sGrid.get FUS_CUT_GRID * 1000 ∧
    (match resolve sGrid true 0 (gridBuf sGrid 1 + 65536) 131072 true with | .ok (i, _) => i == 1 | .error _ => false) = true ∧
    (match resolve sGrid true 0 (gridBuf sGrid 1 + 196608) 131072 true with | .ok (i, _) => i == 1 | .error _ => false) = true := by
  decide

theorem wit_fus_commit : WriteOk sGrid (.app 0) FUS_COMMIT 1 ∧ WriteOk State.reset (.app 0) FUS_COMMIT 1 ∧
    (fusTables (State.reset.snapshot 2) fun f => (State.reset.snapshot 2).pendGet 2 f).isNone = true := by decide

theorem wit_fusion_problem : State.reset.slvCyc = 0 := by decide

theorem wit_support : support 1 f1 (List.replicate 3 { ch := 0, idx := 0, tov := 0, x := [f1], var := f1 }) =
    some (List.replicate 3 { ch := 0, idx := 0, tov := 0, x := [f1], var := f1 }) := by decide

/-! ### The batch solver and Trellis -/

/-- The solver READY with its ring at address 0, in an object of context 0, holding the batch `bs`. -/
def sSlv (bs : List Byte) : State :=
  let s := (withObj State.reset { obj1 with ctx := 0 }).wr (SCH_CTX_WIN 0) 0x0100000000000000#64
  ((s.wr SLV_CTRL 3#64).wr SLV_BQ_PROD 1#64).store (objPlace obj1 0) bs

/-- One dense problem, whose pointer stands at address 0x1000. -/
def batchW (mode : Nat) : List Byte :=
  leBytes 8 (mode + 2 + 2 ^ 32) ++ leBytes 8 0x1000 ++ leBytes 8 0x2000 ++ leBytes 8 0 ++ leBytes 8 (mode * 0x10000) ++ leBytes 24 0

def sSlvBa : State :=
  let s := sSlv (batchW 1)
  s

def batchOf (mode fl : Nat) (ab : Bool) : Batch :=
  { slot := 0, desc := batchW mode, engines := [], flagsOr := fl, lastEnd := 0, start := 0, cut := none, aborted := ab }

def sBatch (mode : Nat) (ab : Bool) (es : Tbl (Nat × Nat)) : State :=
  { sSlv (batchW mode) with batch := some { batchOf mode 0 ab with engines := es }, cyc := 300 }

/-- A bank of two nodes and an edge between them with one run at the origin. -/
def bankW : TrlBank :=
  { nj := 1, zv := 4, nsrch := 1, cell := 0, bankId := 5, vinv := [f1], ins := [0], runs := [0]
    nodes := [{ q := [0], efirst := 0, outdeg := 1, infirst := 0, indeg := 0, stope := 1 },
      { q := [0], efirst := 0, outdeg := 0, infirst := 0, indeg := 1, stope := 2 }]
    edges := [{ src := 0, dst := 1, cost := 3, runFirst := 0, nrun := 1, box := [0, 0, 0, 0, 0, 0], traj := 0, mask := 1 },
      { src := 0, dst := 0xFFFF, cost := 1, runFirst := 0, nrun := 1, box := [0, 0, 0, 0, 0, 0], traj := 0, mask := 1 },
      { src := 1, dst := 0xFFFF, cost := 1, runFirst := 0, nrun := 1, box := [0, 0, 0, 0, 0, 0], traj := 0, mask := 1 }] }

/-- A request from node `a` to node 1, with a deadline in nanoseconds, OUT at 0x4000. -/
def reqW (a dl : Nat) : List Byte :=
  leBytes 8 (a + 2 ^ 13 + 7 * 2 ^ 16 + 2 ^ 32) ++ leBytes 16 1 ++ leBytes 8 0 ++ leBytes 8 dl ++ leBytes 8 0x4000 ++ leBytes 16 0

def reqOf (phase : Nat) (path : List Nat) (dl : Nat) : TrlReq :=
  { bytes := reqW 0 dl, phase := phase, path := path, selgen := 1, flags := 0, wcount := 0, expand := 0, cycles := 0 }

def sTrl (bs : List Byte) (f : Trellis → Trellis) : State :=
  let s := (withObj State.reset { obj1 with ctx := 0 }).wr (SCH_CTX_WIN 0) 0x0100000000000000#64
  let s := (((s.wr TRL_CTRL 1#64).wr TRL_RQ_PROD 1#64).wr TRL_OGEN 1#64).wr TRL_MAXAGE 1000#64
  { s with trl := f { s.trl with bank := some bankW, tov := List.replicate 16 0#8 } }.store (objPlace obj1 0) bs

def sTrlReq (q : TrlReq) (f : Trellis → Trellis) : State := sTrl [] fun t => f { t with req := some q, start := some 0, goals := [1] }

def ingestW (next : Option (List Nat)) (todo : List Nat) : Ingest :=
  { gen := 1, buf := 0, gen0 := 1, at_ := 0, next := next, todo := todo, tov := [] }

def sIngest (i : Ingest) : State := { (sTrl [] fun t => { t with ingest := some i, cur := [7] }) with cyc := 20000 }

theorem wit_batch_start : (sSlv (batchW 0)).get SLV_BQ_CONS_INDEX = 0 ∧ (sSlv (batchW 0)).get SLV_BQ_PROD_INDEX = 1 ∧
    batchOk (sSlv (batchW 0)) ((quietRead (sSlv (batchW 0)) 0 (slvSlot (sSlv (batchW 0)) 0) 64).getD []) = true ∧
    bqMode (batchW 0) = 0 ∧ batchOk (sSlv []) ((quietRead (sSlv []) 0 0 64).getD []) = false := by decide

theorem wit_batch_bundle : bqMode (batchW 1) = 1 ∧ batchOk sSlvBa (batchW 1) = true := by decide

theorem wit_batch_end : (sBatch 0 true []).batch.isSome = true ∧ 300 ≤ (sBatch 0 true []).slvCyc ∧
    (objectAt (sBatch 0 true []) 0).map (·.1) = some 1 := by decide

theorem wit_problem : tget [(3, (3, 100))] 3 = some (3, 100) ∧ 100 ≤ (sBatch 0 false [(3, (3, 100))]).slvCyc := by decide

theorem wit_solver_disable_bundle : WriteOk (sBatch 1 false [(0, (0, 100))]) (.app 0) SLV_CTRL 0 ∧
    (sBatch 1 false [(0, (0, 100))]).batch.any (fun bt => !bt.aborted && bqMode bt.desc == 1) = true := by decide

theorem wit_solver_disable : WriteOk (sSlv []) (.app 0) SLV_CTRL 0 ∧ (sSlv []).batch.isNone = true ∧
    WriteOk (sBatch 0 false []) (.app 0) SLV_CTRL 0 ∧ WriteOk State.reset (.app 0) SLV_CTRL 1 := by decide

theorem wit_request : requestOk ((trlRead (sTrl (reqW 0 50000) id) 0 64).1.put TRL_RQ_CONS_INDEX 1) (reqW 0 50000) = true ∧
    (trlRead (sTrl (reqW 0 50000) id) 0 64).2 = reqW 0 50000 ∧
    trlNow (sTrl (reqW 0 50000) id) + trlMargin (sTrl (reqW 0 50000) id) ≤ rqDeadline (reqW 0 50000) ∧
    (sTrl (reqW 0 50000) id).on TRL_CTRL_ENABLE = true ∧ (sTrl [] id).trl.req.isNone = true := by decide

theorem wit_request_refused : requestOk ((trlRead (sTrl (reqW 9 50000) id) 0 64).1.put TRL_RQ_CONS_INDEX 1) (reqW 9 50000) = false ∧
    outUsable (trlRead (sTrl (reqW 9 50000) id) 0 64).1 (rqOut (reqW 9 50000)) = true ∧
    outUsable (trlRead (sTrl [] id) 0 64).1 1 = false := by decide

theorem wit_request_late : requestOk ((trlRead (sTrl (reqW 0 12500) id) 0 64).1.put TRL_RQ_CONS_INDEX 1) (reqW 0 12500) = true ∧
    rqDeadline (reqW 0 12500) < trlNow { sTrl (reqW 0 12500) id with acc := 6000 * 2 ^ 32 } + trlMargin (sTrl [] id) := by decide

theorem wit_search : rhsOf (sTrlReq (reqOf 1 [] 50000) fun t => { t with queue := [(0, 0, 1)], rhs := [(1, 0)] }).trl 1 = 0 ∧
    keyLt (0, 0) (keyOf bankW (sTrlReq (reqOf 1 [] 50000) fun t => { t with queue := [(0, 0, 1)], rhs := [(1, 0)] }).trl 0) = true ∧
    keyLt (0, 0) (keyOf bankW (sTrlReq (reqOf 1 [] 50000) fun t => { t with queue := [(0, 0, 1)], rhs := [(1, 0)] }).trl 1) = false ∧
    gOf (sTrlReq (reqOf 1 [] 50000) id).trl 1 = inf32 ∧
    trlNow (sTrlReq (reqOf 1 [] 50000) id) + trlMargin (sTrlReq (reqOf 1 [] 50000) id) < rqDeadline (reqOf 1 [] 50000).bytes := by decide

theorem wit_repair_due : (sTrlReq (reqOf 1 [] 50000) fun t => { t with repairDue := true }).trl.repairDue = true ∧
    (sTrlReq (reqOf 1 [] 50000) fun t => { t with repairDue := true }).trl.busy = 0 := by decide

theorem wit_search_done : (searchStep bankW (sTrlReq (reqOf 1 [] 50000) fun t => { t with g := [(0, 3)], rhs := [(0, 3)] }).trl).isNone = true ∧
    (searchStep bankW (sTrlReq (reqOf 1 [] 50000) id).trl).isNone = true ∧
    gOf (sTrlReq (reqOf 1 [] 50000) id).trl 0 = inf32 := by decide

theorem wit_plan : commitDue (sTrlReq (reqOf 2 [0] 50000000) id) = false ∧
    2000000 + trlMargin (sTrlReq (reqOf 2 [0] 0) id) ≤ rqDeadline (reqOf 2 [0] 50000000).bytes ∧ staleOcc (sTrlReq (reqOf 2 [0] 50000000) id) = false ∧
    staleOcc { sTrlReq (reqOf 2 [0] 50000000) id with acc := 2000000 * 2 ^ 32 } = true ∧
    rqRelease (reqOf 2 [0] 50000000).bytes ≤ trlNow (sTrlReq (reqOf 2 [0] 50000000) id) ∧
    blocked (sTrlReq { reqOf 2 [0] 50000000 with selgen := 9 } fun t => { t with blk := 1 }).trl 0 = true := by decide

theorem wit_occ_scan : (ingestW none []).at_ ≤ (sIngest (ingestW none [])).cyc ∧
    leField (trlRead (sIngest (ingestW none [])) 0 28).2 16 4 ≠ 1 ∧
    leField (trlRead ((sIngest (ingestW none [])).store (objPlace obj1 16) [1#8]) 0 28).2 16 4 = 1 := by decide

theorem wit_occ_broadcast : (sIngest (ingestW (some [0]) [0, 7])).trl.ingest.isSome = true ∧
    passes (edgeAt bankW 0) 0 0 0 = true := by decide

theorem wit_occ_commit : (ingestW (some [0]) []).at_ + 16448 ≤ (sIngest (ingestW (some [0]) [])).cyc ∧
    (sIngest (ingestW (some [0]) [])).trl.outBusy = 0 := by decide

theorem wit_trl_commit : WriteOk (sTrl [] id) (.app 0) TRL_COMMIT 1 ∧ (sTrlReq (reqOf 1 [] 0) id).trl.req.isSome = true ∧
    ((sTrl [] id).heldWr TRL_BANK 2#64 |>.snapshot 3).isPending 3 = true ∧
    ((sTrl [] id).heldWr TRL_BANK 2#64 |>.snapshot 3).pendGet 3 TRL_BANK_SEL ≠ (sTrl [] id).get TRL_BANK_SEL := by decide

theorem wit_bank_refused : bankOk [] (parseBank [] [] [] [] []) = false ∧
    (trlRead { State.reset with trl := { State.reset.trl with load := some (0, 0) } } 0 4096).2.length = 4096 := by decide

theorem wit_bank_refused_request : (sTrlReq (reqOf 0 [] 0) fun t => { t with load := some (0, 0), bank := none }).trl.req.isSome = true := by decide

theorem wit_trl_enable : WriteOk (State.reset) (.app 0) TRL_CTRL 1 ∧ WriteOk (sTrl [] id) (.app 0) TRL_CTRL 0 ∧
    WriteOk (sTrlReq (reqOf 1 [] 0) id) (.app 0) TRL_CTRL 0 ∧ (sTrlReq (reqOf 1 [] 0) id).isPending 3 = false := by decide

/-! ### Interrupts, control harts, loops and reflexes -/

/-- Source 300 is a pulse source of priority 5, enabled for target 2, and PENDING. -/
def sIcu : State :=
  let s := ((((State.reset.put (BLV_ICU_SRC_EN 300) 1).put (BLV_ICU_SRC_PRIO 300) 5).put (BLV_ICU_SRC_TARGET 300) 2).put
    (BLV_ICU_SRC_EDGE 300) 1)
  { s with icu := { s.icu with pend := [300] } }

def sActive : State := { sIcu with icu := { sIcu.icu with stk := [(2, [(300, 5)])], pend := [] } }

def sPin : State := State.reset.put (BLV_TIO_CFG_EDGE 4) 1

def sHart : State := { State.reset.put (BLV_HART_CTL_WDOG_US 1) 5 with cyc := 9000, wdog := [(1, (3000, false))] }

def sHartRun : State := sHart.put (BLV_HART_CTL_RUN 1) 1

/-- Coefficients of bank 0 of loop 3: limits -1 and 1, SAFE 0.5, all else zero. -/
def withCoef (s : State) : State :=
  ((((s.put (BLV_CLE_L_BK_VALUE 3 0 7) 0xBF800000).put (BLV_CLE_L_BK_VALUE 3 0 8) 0x3F800000).put (BLV_CLE_L_BK_VALUE 3 0 9)
    0x3F000000).put (BLV_CLE_L_BK_VALUE 3 0 0) 0x3F800000)

def loopW : LoopSt := { LoopSt.idle with run := true, grp := 2, first := false }

/-- Unit 6 is due on group 2, where loop 3 runs with a measurement `y` and a model. -/
def sLoop (y model : Nat) (l : LoopSt) : State :=
  let s := withCoef { sTime with loops := [(3, l)] }
  let s := ((s.setOn (TIM_CMP_STAT_ARMED 6)).put (TIM_CMP_CTL_DEST 6) 10).setOn BLV_CLE_CTRL_ENABLE
  ((((s.put (BLV_CLE_L_CTL_ENABLE 3) 1).put (BLV_CLE_L_CTL_GROUP 3) 2).put (BLV_CLE_L_CTL_MODEL 3) model).put
    (BLV_CLE_L_CTL_ACTION 3) 2).put (BLV_CLE_L_YIN_VALUE 3) y

def outW (dual : Bool) : LoopOut :=
  { due := 100, value := 0x3F800000#32, ulgOld := 5#32, r := 0#32, y := 0#32, f := 0#32, yhat := 0#32, bnd := 0, dual := dual }

def sOut (dual : Bool) : State :=
  let s := sLoop 0 0 { loopW with out := some (outW dual) }
  ((withObj (s.put (BLV_CLE_L_ODEST_EN 3) 1) { obj1 with ctx := 0 }).wr (SCH_CTX_WIN 0) 0x0100000000000000#64).put
    (BLV_CLE_L_ODEST_WORD 3) 7

def convW (gs : List (Nat × Nat)) : Conv := { t0 := 4000, t16 := 0, units := [6], groups := gs, real := true }

def evalW (occ : Bool) : Eval :=
  { g := 1, t0 := 2000, bank := 0, flags := 2, absMask := 0, res := some [5#32], occ := occ }

/-- A conversion is due; program 4 of bank 0 is present; evaluations run. -/
def sRfx (gs : List (Nat × Nat)) (es : List Eval) : State :=
  let s := (sTime.setOn RFX_CTRL_ENABLE).store (wbankPlace 0 (64 + 64 * 4)) [1#8]
  { s with rfx := { s.rfx with convs := [convW gs], evals := es, hist := List.replicate 8 [1, 2, 3] } }

def sBind (en : Nat) : State := ((sRfx [] []).heldWr (RFX_BIND 0) (BitVec.ofNat 64 en)).snapshot 4

theorem wit_claim : deliverable sIcu 2 300 = true ∧ bestSource sIcu 2 = some 300 ∧ ReadOk sIcu (.ctl 2) (BLV_ICU_T_CLAIM 2) 4 ∧
    bestSource State.reset 2 = none := by decide

theorem wit_icu_writes : WriteOk sActive (.ctl 2) (BLV_ICU_T_COMPLETE 2) 300 ∧ icuStack sActive 2 = [(300, 5)] ∧
    WriteOk sActive (.ctl 2) (BLV_ICU_T_COMPLETE 2) 7 ∧ WriteOk sActive (.ctl 2) (BLV_ICU_T_RESET 2) 1 := by decide

theorem wit_swi : WriteOk sActive (.ctl 0) BLV_ICU_SWI 300 ∧ 300 ∉ sActive.icu.pend ∧ WriteOk sIcu (.ctl 0) BLV_ICU_SWI 300 ∧
    300 ∈ sIcu.icu.pend := by decide

theorem wit_pin : sPin.on (BLV_TIO_CFG_DIR 4) = false ∧ (sPin.get (BLV_TIO_CFG_EDGE 4)).testBit (ofBool (!true)) = true ∧
    (sPin.get BLV_TIO_IN_BITS).testBit 4 ≠ true ∧ (State.reset.get (BLV_TIO_CFG_EDGE 4)).testBit 0 = false := by decide

theorem wit_private : 0x40000 ≤ 0x40010 ∧ 0x40010 + 8 ≤ 0x80000 := by decide

theorem wit_hart_run : WriteOk sHart (.ctl 0) (BLV_HART_CTL 1) 0x50001 ∧ sHart.on (BLV_HART_CTL_RUN 1) = false ∧
    WriteOk sHartRun (.ctl 0) (BLV_HART_CTL 1) 0x50000 ∧ WriteOk sHart (.ctl 0) (BLV_HART_KICK 1) 1 := by decide

theorem wit_watchdog : tget sHartRun.wdog 1 = some (3000, false) ∧ sHartRun.get (BLV_HART_CTL_WDOG_US 1) = 5 ∧
    3000 + 5 * 1000 ≤ sHartRun.cyc := by decide

theorem wit_boundary : (cmpDue (sLoop 0x3F000000 0 loopW) 6).isSome = true ∧
    (sLoop 0x3F000000 0 loopW).get (TIM_CMP_CTL_DEST 6) = 8 + 2 ∧ (sLoop 0x3F000000 0 loopW).destSeen = [] ∧
    (sLoop 0x3F000000 0 loopW).grpLast = [] ∧ (sLoop 0x3F000000 0 loopW).rfx.evals = [] ∧ (sLoop 0x3F000000 0 loopW).on BLV_CLE_CTRL_ENABLE = true ∧
    ((List.range 9).all fun l => laneSt (sLoop 0x3F000000 0 loopW) l == 0) = true ∧
    ((List.range 4).all fun g => !(sLoop 0x3F000000 0 loopW).on (FLD_ECM_CTL_ENABLE g)) = true ∧
    loopOf (sLoop 0x3F000000 0 loopW) 3 = loopW ∧ loopGroup (sLoop 0x3F000000 0 loopW) 3 = 2 ∧
    ((List.range 64).all fun m => m == 3 || !(sLoop 0x3F000000 0 loopW).on (BLV_CLE_L_CTL_ENABLE m)) = true ∧
    (lawAt (sLoop 0x3F000000 0 loopW) 2 3).nan = false := by decide

theorem wit_bad_sample : flLe (flAbs (flAdd (loopSnapshot (sLoop 0x3F000000 1 loopW) 2 3).y (flNeg (fma (coef (sLoop 0x3F000000 1 loopW) 3 14) loopW.up1
      (flMul (coef (sLoop 0x3F000000 1 loopW) 3 12) loopW.yp1))))) (coef (sLoop 0x3F000000 1 loopW) 3 11) = false ∧
    max 1 ((sLoop 0x3F000000 1 { loopW with bad := 2 }).get (BLV_CLE_L_CTL_PLAUSN 3)) ≤ 2 + 1 ∧ (sLoop 0x3F000000 1 loopW).get (BLV_CLE_L_CTL_ACTION 3) = 2 := by
  decide

theorem wit_too_soon : (sLoop 0 0 loopW).cyc < 4000 + 15600 := by decide

theorem wit_loop_output : (loopOf (sOut false) 3).out = some (outW false) ∧ (outW true).due ≤ (sOut true).blvCyc ∧
    (outW true).dual = true := by decide

theorem wit_loop_enable : WriteOk State.reset (.ctl 0) (BLV_CLE_L_CTL 3) 1 ∧ loopEnableOk (withCoef State.reset) 3 = true ∧
    WriteOk (sLoop 0 0 loopW) (.ctl 0) (BLV_CLE_L_CTL 3) 0x1020020 := by decide

theorem wit_plaus_clear : ({ (sLoop 0 0 loopW).setOn (BLV_CLE_L_STAT_PLAUS 3) with cyc := 9000 }.freshBits (BLV_CLE_L_STAT 3)).testBit 0 = false ∧
    WriteOk { (sLoop 0 0 loopW).setOn (BLV_CLE_L_STAT_PLAUS 3) with cyc := 9000 } (.ctl 0) (BLV_CLE_L_STAT 3) 1 := by decide

theorem wit_release : (sRfx [(1, 4)] []).rfx.convs = [convW [(1, 4)]] ∧ arraysBusy (sRfx [(1, 4)] []) 4700 = false ∧
    prValid (progEntry (sRfx [(1, 4)] []) (actBank (sRfx [(1, 4)] [])) 4) = true ∧
    0 &&& inputChannels (sRfx [(1, 4)] []) 0 (progEntry (sRfx [(1, 4)] []) 0 4) = 0 ∧
    arraysBusy (sRfx [(1, 4)] [{ evalW true with t0 := 3000 }]) 4700 = true ∧ releasedGroups (sRfx [] []) (convW []) = [] := by decide

theorem wit_reflex_out : (evalW true).t0 + 2000 ≤ (sRfx [] [evalW true]).cyc ∧ (tget (sRfx [] [evalW true]).lanes 8).isNone = true := by decide

theorem wit_rfx_commit : WriteOk (sRfx [] []) (.ctl 0) RFX_COMMIT 1 ∧ (sRfx [] []).on RFX_CTRL_ENABLE = true := by decide

theorem wit_bind : bindOk (sBind 0) = true ∧ bindOk (sBind 0x8003) = false ∧ (sBind 0).isPending 4 = true ∧
    arraysBusy (sRfx [] [{ evalW true with t0 := 4000 }]) 5000 = true := by decide

/-! ### The Sluice and the segments -/

/-- Lane 2 in a state, with what it holds. -/
def sLane (l st : Nat) (ln : Lane) : State :=
  let s := { (withObj sTime { obj1 with ctx := 0 }) with lanes := [(l, ln)], cyc := 2000000 }
  ((s.wr (SCH_CTX_WIN 0) 0x0100000000000000#64).setOn SLC_CTRL_READY).put (SLC_L_STAT_STATE l) st

/-- The same with a request in slot 0 of the ring. -/
def sSlcReq (l st : Nat) (ln : Lane) (w0 : Nat) : State :=
  ((sLane l st ln).put SLC_RQ_PROD_INDEX 1).store (objPlace obj1 0) (leBytes 8 w0 ++ leBytes 8 4096)

/-- A fill from the control PSRAM of loop 2, all but one piece of it landed. -/
def fillW (hdr : Bool) : Fill :=
  { slot := 64, irq := true, src := 4096, hsrc := true, mask := 4, at_ := 0, hdr := hdr, len := 64, gen := 7, crc := 0x758D6336
    pos := 0, crcAcc := 0xFFFFFFFF, checkEnd := none }

def laneFill (f : Fill) : Lane := { Lane.idle with fill := some f }

def sFill (f : Fill) : State := (sLane 2 1 (laneFill f)).put (BLV_CLE_L_CTL_GROUP 2) 2

def goodHdr : List Byte := leBytes 4 0x534C4331 ++ leBytes 4 64 ++ leBytes 4 7 ++ leBytes 4 9 ++ leBytes 4 2

def longFill : Fill := { fillW true with mask := 2 ^ 64 - 1, len := 4096, pos := 0 }

def sCheck (ok : Bool) : State :=
  let s := (sLane 2 5 { Lane.idle with check := some (5, 2, some (64, true)), mask := 4, genFilled := 3 }).put
    (BLV_CLE_L_CTL_GROUP 2) 2
  if ok then s else s.put (BLV_CLE_L_BK_VALUE 2 1 0) 0x7F800000

def sStale : State := ((sLane 2 0 Lane.idle).put (SLC_L_STALE_US 2) 5).setOn SLC_CTRL_ENABLE

def cycW (ph : Nat) : SegCyc :=
  { b := 4000, phase := ph, frame := List.replicate 60 0#8, sentA := true, sentB := false, retA := none, retB := none, mergeAt := 5 }

/-- Segment 1 in a cycle, with an output entry of two bytes at 20, an input entry of four bytes at 30 to word 9, and one checked
datagram whose counter stands at 40. -/
def sSeg (c : SegCyc) : State :=
  let s := { sTime with cyc := 5000, segs := [(1, { Seg.idle with cyc := some c })] }
  let s := (s.wr (FLD_ECM_MAP_LO 1 0) (BitVec.ofNat 64 (2 ^ 63 + 2 ^ 62 + 5 * 2 ^ 40 + 20 * 2 ^ 16))).wr (FLD_ECM_MAP_LO 1 1)
    (BitVec.ofNat 64 (2 ^ 63 + 2 ^ 58 * 4 + 9 * 2 ^ 40 + 30 * 2 ^ 16))
  let s := ((s.put (FLD_ECM_MAP_HI_SCALE 1 0) 0x40000000).put (FLD_ECM_OUT_VALUE 5) 0x3FC00000).setOn (FLD_ECM_STAT_LINKA 1)
  s.wr (FLD_ECM_EWKC 1 0) (BitVec.ofNat 64 (2 ^ 29 + 2 ^ 28 + 40 * 2 ^ 16 + 3))

def retW (k : Nat) : List Byte := List.replicate 30 1#8 ++ leBytes 4 0x3F800000 ++ List.replicate 6 0#8 ++ leBytes 2 k ++ List.replicate 18 0#8

def cycBack (k : Nat) : SegCyc := { cycW 3 with retA := some (retW k) }

def sTimed (s : State) : State :=
  (s.put (FLD_ECM_TIMING_TXOFS 1) 1000).put (FLD_ECM_TIMING_DEADLINE 1) 20000

def sAcyc (at_ : Option Nat) : State :=
  { (((State.reset.setOn (FLD_ECM_ACYC_BUSY 1)).put (FLD_ECM_ACYC_LEN 1) 64).setOn (FLD_ECM_STAT_LINKA 1)) with
    cyc := 2000000, segs := [(1, { Seg.idle with acycAt := at_ })] }

theorem wit_slc_fill : (match slcHead (sSlcReq 2 0 Lane.idle (1 + 512)) with
    | some (_, r, a) => goodReq (sSlcReq 2 0 Lane.idle (1 + 512)) 1 r && sqLane r == 2 && a == 0 | none => false) = true ∧
    laneSt (sSlcReq 2 0 Lane.idle 513) 2 = 0 := by decide

theorem wit_slc_arm : (match slcHead (sSlcReq 2 2 Lane.idle (2 + 512)) with
    | some (_, r, _) => goodReq (sSlcReq 2 2 Lane.idle (2 + 512)) 2 r && sqLane r == 2 | none => false) = true ∧
    laneSt (sSlcReq 2 2 Lane.idle 514) 2 = 2 ∧ laneSt (sSlcReq 2 1 (laneFill (fillW false)) 514) 2 = 1 := by decide

theorem wit_slc_cancel : (match slcHead (sSlcReq 2 3 Lane.idle (3 + 512)) with
    | some (_, r, _) => goodReq (sSlcReq 2 3 Lane.idle (3 + 512)) 3 r && sqLane r == 2 | none => false) = true ∧
    (laneOf (sSlcReq 2 1 (laneFill (fillW false)) 515) 2).fill = some (fillW false) := by decide

theorem wit_slc_bad : (match slcHead (sSlcReq 2 0 Lane.idle 9) with
    | some (_, r, _) => slcBadRequest (sSlcReq 2 0 Lane.idle 9) r == some 0x10 | none => false) = true ∧
    (match slcHead (sSlcReq 2 0 Lane.idle 0xF01) with
    | some (_, r, _) => slcBadRequest (sSlcReq 2 0 Lane.idle 0xF01) r == some 0x11 | none => false) = true := by decide

theorem wit_slc_hart : WriteOk (sLane 2 0 Lane.idle) (.ctl 0) (SLC_L_ARM 2) 1 ∧ laneSt (sLane 2 0 Lane.idle) 2 = 0 ∧
    laneSt (sLane 2 3 Lane.idle) 2 = 3 ∧ WriteOk (sLane 8 2 Lane.idle) (.ctl 0) (SLC_L_ARM 8) 0x31 := by decide

theorem wit_fill_header : fillingLane (sFill (fillW false)) 2 = some (fillW false) ∧
    (fillRead ((sFill (fillW false)).store (psramPlace 0 4096) goodHdr) 2 (fillW false) 0 64 0).2 =
      (0, goodHdr ++ List.replicate 44 0#8) ∧ leField goodHdr 16 1 = 2 ∧ leField goodHdr 4 4 = 64 * popCount 64 4 := by decide

theorem wit_fill_last : fillingLane (sFill (fillW true)) 2 = some (fillW true) ∧
    (fillRead (sFill (fillW true)) 2 (fillW true) 64 64 0).2 = (0, List.replicate 64 0#8) ∧
    0 + pieceLen (fillW true) = 64 ∧ popCount 64 4 = 1 ∧
    (List.replicate 64 0#8).foldl crc32Byte 0xFFFFFFFF ^^^ 0xFFFFFFFF = (fillW true).crc := by decide

theorem wit_fill_piece : pieceLen longFill = 4032 ∧ 4032 ≤ 64 * popCount 64 longFill.mask := by decide

theorem wit_arm_check : laneSt (sCheck true) 2 = 5 ∧ armOk (sCheck true) 2 4 = true ∧ armOk (sCheck false) 2 4 = false ∧
    (laneOf (sCheck true) 2).check = some (5, 2, some (64, true)) := by decide

theorem wit_fill_check : laneSt (sFill { fillW true with checkEnd := some 5 }) 2 = 1 ∧ 5 ≤ (sFill (fillW true)).blvCyc ∧
    armOk (sFill (fillW true)) 2 4 = true := by decide

theorem wit_fill_timeout : (fillW true).at_ + max 1 ((sFill (fillW true)).get SLC_FILLTMO_US) * 1000 ≤ 10000000 ∧
    (laneOf (sFill (fillW true)) 2).fill = some (fillW true) := by decide

theorem wit_lane_stale : sStale.get (SLC_L_STALE_US 2) ≠ 0 ∧ sStale.on (SLC_L_STAT_STALE 2) = false ∧
    (laneOf sStale 2).since + 5 * 1000 ≤ sStale.cyc := by decide

theorem wit_cycle_out : (segOf (sSeg (cycW 0)) 1).cyc = some (cycW 0) ∧ entriesOf (sSeg (cycW 0)) 1 1 = [0] ∧
    (cycW 0).b + (sSeg (cycW 0)).get (FLD_ECM_TIMING_TXOFS 1) ≤ (sSeg (cycW 0)).cyc + 1000 ∧
    20 + typeBytes 0 ≤ frameLen (sSeg (cycW 0)) 1 := by decide

theorem wit_cycle_sent : (segOf (sSeg (cycW 1)) 1).cyc = some (cycW 1) ∧ (cycW 1).b ≤ (sSeg (cycW 1)).cyc ∧
    (sSeg (cycW 1)).on (FLD_ECM_EWKC_DCTIME 1 0) = true ∧ 40 ≤ (cycW 1).frame.length := by decide

theorem wit_cycle_back : (segOf (sTimed (sSeg (cycW 2))) 1).cyc = some (cycW 2) ∧
    (sTimed (sSeg (cycW 2))).cyc < 4000 + (sTimed (sSeg (cycW 2))).get (FLD_ECM_TIMING_DEADLINE 1) ∧
    4000 + (sSeg (cycW 2)).get (FLD_ECM_TIMING_DEADLINE 1) ≤ (sSeg (cycW 2)).cyc := by decide

theorem wit_merge : returnedFrame (sSeg (cycBack 3)) 1 (cycBack 3) = some (retW 3) ∧ leField (retW 3) 40 2 = 3 ∧
    checkedDatagrams (sSeg (cycBack 3)) 1 = [(40, 3)] ∧ leField (retW 2) 40 2 ≠ 3 ∧ entriesOf (sSeg (cycBack 3)) 1 0 = [1] ∧
    returnedFrame (sSeg (cycW 3)) 1 (cycW 3) = none ∧ 5 ≤ (sSeg (cycW 3)).blvCyc := by decide

theorem wit_seg_enable : WriteOk (sTimed State.reset) (.app 0) (FLD_ECM_CTL 1) 0x201 ∧ segEnableOk (sTimed State.reset) 1 = true ∧
    WriteOk State.reset (.app 0) (FLD_ECM_CTL 1) 0x201 ∧ segEnableOk State.reset 1 = false ∧
    WriteOk (State.reset.setOn (FLD_ECM_CTL_ENABLE 1)) (.app 0) (FLD_ECM_CTL 1) 0x200 := by decide

theorem wit_subst_clear : WriteOk { State.reset.setOn (FLD_ECM_STAT_SUBST 1) with cyc := 5 } (.app 0) (FLD_ECM_STAT 1) 2 ∧
    ({ State.reset.setOn (FLD_ECM_STAT_SUBST 1) with cyc := 5 }.freshBits (FLD_ECM_STAT 1)).testBit 1 = false := by decide

theorem wit_seg_link : State.reset.on (FLD_ECM_STAT_LINKA 1) ≠ true ∧ (sSeg (cycW 0)).on (FLD_ECM_STAT_LINKA 1) ≠ false := by decide

theorem wit_acyclic : WriteOk State.reset (.app 0) (FLD_ECM_ACYC 1) 0x10040 ∧ State.reset.on (FLD_ECM_ACYC_BUSY 1) = false ∧
    (sAcyc none).on (FLD_ECM_ACYC_BUSY 1) = true ∧ (segOf (sAcyc none) 1).cyc = none ∧
    (sAcyc none).on (FLD_ECM_CTL_ENABLE 1) = false ∧ (segOf (sAcyc (some 5)) 1).acycAt = some 5 ∧
    5 + 1000000 ≤ (sAcyc (some 5)).cyc := by decide

/-! ### The EtherCAT SubDevice -/

/-- A SubDevice in state `al`, its four SyncManagers set. -/
def sEcs (al : Nat) : State :=
  let s := ((State.reset.put FLD_ECS_CTRL_ENABLE 1).put FLD_ECS_STAT_ALSTAT al)
  let s := [(0x1000, 512), (0x1200, 512), (0x1400, 8), (0x1600, 4)].foldl (fun (r : State × Nat) p =>
    (escStore r.1 (0x800 + 8 * r.2) (leBytes 2 p.1 ++ leBytes 2 p.2 ++ leBytes 4 0x10000), r.2 + 1)) (s, 0)
  let s := escStore s.1 0x10 (leBytes 2 7)
  let d := [(0x1C12, 0, 1), (0x1C12, 1, 0x1600), (0x1600, 0, 2), (0x1600, 1, 0x24030520), (0x1600, 2, 0x24040720),
    (0x1C13, 0, 1), (0x1C13, 1, 0x1A00), (0x1A00, 0, 1), (0x1A00, 1, 0x24030820)]
  let s := { d.foldl (fun (s : State) e => dictWr s e.1 e.2.1 e.2.2) s with cyc := 200000000 }
  s.put (BLV_CLE_L_OUT_VALUE 3) 0x3F800000

def withEcs (s : State) (f : EcsSt → EcsSt) : State := { s with ecs := f s.ecs }

def dgW (cmd : Nat) : Datagram := { cmd := cmd, idx := 9, addr := 0x12 * 2 ^ 16 * 16 + 7, flags := 4, irq := 0, data := [1#8, 2#8, 3#8, 4#8], wkc := 5 }

def frameE (cmd : Nat) : List Byte :=
  List.replicate 12 0#8 ++ [0x88#8, 0xA4#8] ++ leBytes 2 0x1010 ++ (dgW cmd).bytes

/-- A mailbox request in SM0: an upload of 0x1018:01. -/
def mbxW : List Byte := leBytes 2 10 ++ leBytes 3 0 ++ leBytes 1 0x33 ++ leBytes 2 0x2000 ++ leBytes 1 0x40 ++ leBytes 2 0x1018 ++ leBytes 1 1

def sMbx (n : Nat) : State :=
  withEcs (escStore (sEcs 2) 0x1000 mbxW) fun e => { e with inFull := true, taken := List.replicate n 200000000 }

def segW : SdoSeg := { up := true, idx := 0x1008, sub := 0, complete := false, toggle := false, data := [], size := 9, at_ := 0 }

theorem wit_ecs_frame : escOpen (sEcs 2) 0 = true ∧ isEthercat (frameE 4) = true ∧ parseFrame (frameE 4) = some [dgW 4] ∧
    parseFrame (frameE 5) = some [dgW 5] ∧ (dgW 4).addr % 65536 = escNat (sEcs 2) 0x10 2 ∧
    ((dgW 4).places.all fun a => mailboxOpen (sEcs 2) a false && mailboxOpen (sEcs 2) a true && !escReadOnly a) = true ∧
    isEthercat [] = false ∧ (sEcs 2).ecs.open_.length = 2 := by decide

theorem wit_al : alRefused (sEcs 1) 2 = none ∧ alRefused (sEcs 2) 1 = none ∧ alRefused (sEcs 4) 8 = none ∧
    alRefused (sEcs 1) 4 = some 0x0011 ∧ (State.reset.put FLD_ECS_CTRL_ENABLE 1 |> fun s => alRefused s 2) = some 0x0016 ∧
    alState State.reset = 1 ∧ alRefused (sEcs 4) 7 = some 0x0012 := by decide

theorem wit_ecs_watchdog : alState (sEcs 8) = 8 ∧ (sEcs 8).ecs.sm2At + 100000000 ≤ (sEcs 8).cyc := by decide

theorem wit_sm2 : smLen (sEcs 8) 2 = 8 ∧ pdoEntries (sEcs 8) 0x1C12 = [(0x2403, 5, 32), (0x2404, 7, 32)] ∧
    dictRd (sEcs 8) 0x1C32 1 = 2 ∧ dictRd (dictWr (sEcs 8) 0x1C32 1 1) 0x1C32 1 = 1 := by decide

theorem wit_sync0 : (sEcs 8).get TIM_CTRL_ACTSRC ≠ 6 ∧ (sEcs 8).get TIM_SRC_CFG_PRI ≠ 6 ∧ (sEcs 8).get TIM_SRC_CFG_SEC ≠ 6 ∧
    (withEcs (sEcs 8) fun e => { e with fresh := true }).ecs.fresh = true ∧
    (dictWr (sEcs 8) 0x1C32 0x0B 4).ecs.missOp + 4 < satAdd 16 (dictRd (dictWr (sEcs 8) 0x1C32 0x0B 4) 0x1C32 0x0B) 1 ∧
    satAdd 16 (dictRd (sEcs 8) 0x1C32 0x0B) 1 ≤ (sEcs 8).ecs.missOp + dictRd (sEcs 8) 0x10F1 2 := by decide

theorem wit_capture : (withEcs (sEcs 8) fun e => { e with capDue := some 5 }).ecs.capDue = some 5 ∧ 5 ≤ (sEcs 8).cyc := by decide

theorem wit_mailbox : (takenLately (sMbx 0)).length < mailboxRate (sMbx 0) ∧ 16 ≤ smLen (sMbx 0) 0 ∧
    (escLoad (sMbx 0) (smStart (sMbx 0) 0) 12) = mbxW ∧ leField mbxW 0 2 = 10 ∧ leField mbxW 5 1 % 16 = 3 ∧
    leField mbxW 6 2 / 4096 = 2 ∧ mailboxRate (sMbx 4) ≤ (takenLately (sMbx 4)).length ∧ (sMbx 4).ecs.held = false ∧
    (match sdoRead (sMbx 0) 0x1018 1 false with | .ok bs => bs == leBytes 4 0x05A1 | .error _ => false) = true := by decide

theorem wit_segment_timeout : segW.at_ + 1000000000 ≤ 2000000000 := by decide

theorem wit_emergency : ((sEcs 2).emergency 0xFF02 1).emcy = [{ code := 0xFF02, data := 1 }] ∧ (sEcs 2).ecs.outFull = false ∧
    2 ≤ alState (sEcs 2) := by decide

theorem wit_sdo : (match sdoRead (sEcs 2) 0x2100 1 false with | .ok bs => bs.length == 2 | .error _ => false) = true ∧
    rxMapped (sEcs 8) 0x2403 5 = true ∧ rxMapped (sEcs 8) 0x2405 5 = false ∧ objectRows 0x5000 = [] ∧
    wordsValid (stagedWord (sEcs 2) 3) = true ∧ wordsValid (stagedWord (dictWr (sEcs 2) 0x2403 0x10 0x7F800000) 3) = false ∧
    laneBusy (sEcs 2) (loopGroup (sEcs 2) 3) = false := by decide

/-! ### Ethernet and PCIe -/

/-- Port 1 with rings at bytes 0 and 4,096 of the object, whose descriptors name byte 8,192; link up. -/
def sEth : State :=
  let s := (((withObj sTime { obj1 with ctx := 0 }).wr (SCH_CTX_WIN 0) 0x0100000000000000#64).setOn (FLD_ETH_CTL_ENABLE 1)).setOn
    (FLD_ETH_STAT_LINK 1)
  let s := (s.store (objPlace obj1 0) (leBytes 8 8192)).store (objPlace obj1 4096) (leBytes 8 8192 ++ leBytes 8 (60 + 2 ^ 16))
  s.put (FLD_ETH_TXRING_ADDR 1) 64

def ptpFrame : List Byte := List.replicate 12 0#8 ++ [0x88#8, 0xF7#8] ++ List.replicate 46 3#8

def sEthTx : State := sEth.put (FLD_ETH_TXPROD_INDEX 1) 1

def sEthSending : State := { sEthTx with eths := [(1, { win := 0, n := 0, sending := true })] }

def sMsix : State := { State.reset with msix := { State.reset.msix with masked := [3, 4], pend := [3] } }

theorem wit_eth_rx : ethDropKind 1 true ptpFrame = none ∧ ethAccepts sEth 1 ptpFrame = true ∧ ethDropKind 1 false [] = some 0 ∧
    ethDropKind 1 true [] = some 1 ∧ (0 + 65536 - sEth.get (FLD_ETH_RXCONS_INDEX 1)) % 65536 < rxSlots sEth 1 ∧
    (engineRead sEth 5 0 (rxDesc sEth 1) 32).2.1 = 0 ∧ bitsOf (word64 (engineRead sEth 5 0 (rxDesc sEth 1) 32).2.2 0) 47 0 = 8192 ∧
    (resolve sEth true 0 (rxDesc sEth 1 + 8) 24 true).toOption.isSome = true := by decide

theorem wit_eth_full :
    rxSlots sEth 1 ≤ (16 + 65536 - sEth.get (FLD_ETH_RXCONS_INDEX 1)) % 65536 := by decide

theorem wit_eth_tx : sEthTx.get (FLD_ETH_TXPROD_INDEX 1) ≠ sEthTx.get (FLD_ETH_TXCONS_INDEX 1) ∧ (ethOf sEthTx 1).sending = false ∧
    (engineRead sEthTx 5 0 (txDesc sEthTx 1) 32).2.1 = 0 ∧
    bitsOf (word64 (engineRead sEthTx 5 0 (txDesc sEthTx 1) 32).2.2 1) 10 0 = 60 ∧
    (engineRead (engineRead sEthTx 5 0 (txDesc sEthTx 1) 32).1 5 0 8192 60).2.1 = 0 ∧ (ethOf sEthSending 1).sending = true := by decide

theorem wit_eth_link : sEth.on (FLD_ETH_STAT_LINK 1) ≠ false ∧
    State.reset.on (FLD_ETH_STAT_LINK 4) ≠ true := by decide

theorem wit_pcie :
    0x10 % 64 + 4 ≤ 64 ∧ 8 % 64 + 8 ≤ 64 ∧ 60 % 64 + 4 ≤ 64 ∧ 0x10 + 4 ≤ 2 ^ State.reset.msix.barLog := by decide

theorem wit_msix : 3 ∈ sMsix.msix.pend ∧
    5 ∉ sMsix.msix.masked := by decide

/-- The object in host memory, migrating; a PULL of core 0 reads a tile of it. -/
def sHost (st : Nat) : State :=
  { sPath 4 [{ cmdOf dPull with start := some 0 }] with
    plt := [(1, { obj1 with tier := 4, st := st })] }.setOn MEM_PLT_CTRL_READY |>.wr (SCH_CTX_WIN 1) 0x0100000000000000#64

theorem wit_pcie_timeout : coreLive (sHost 1) 0 = true ∧ (hostPull (sHost 1) 0 0).isSome = true ∧
    (tget (sHost 2).plt 1).map (fun e => (e.st, e.tier)) = some (2, 4) := by decide

/-! ### Causeway -/

/-- A module of a chain of four, number `me`, in state `st`, with links 0 and 1 up. -/
def sCwy (st me : Nat) : State :=
  let s := (((sTime.put CWY_STAT_STATE st).put CWY_STAT_NMOD 4).put CWY_STAT_MODNUM me).put CWY_STAT_MASTER (if me = 0 then 1 else 0)
  { ((s.put CWY_STAT_STRAP 1).setOn (CWY_L_STAT_UP 0)).setOn (CWY_L_STAT_UP 1) with cyc := 200000000 }

def withLink (s : State) (k : Nat) (l : CwyLink) : State := s.setCwyLink k l

/-- Link 0 has sent flits 0 to 2 and waits for SEQ 5. -/
def linkW (run : Nat) : CwyLink :=
  { CwyLink.idle with rxSeq := 5, txSeq := 3, nakSeq := 1, nakRun := run, nakAt := [(5, 199999990)], replay := [(0, [1#8]), (1, [2#8]), (2, [3#8])] }

def flitW (kind seq dst : Nat) : List Byte := flitOf (flitHeader kind seq 0 2 dst 1 7) [9#8]

def sLink : State := withLink (sCwy 3 1) 0 (linkW 0)

/-- Discovery with a read of module 2 that link 0 lost. -/
def sReissue : State := withLink { sCwy 2 1 with sched := { (sCwy 2 1).sched with remote :=
  [(7, { core := 0, epoch := 9, no := 1, tile := 0, module := 2, unit := 0, ctx := 1 })] } } 0 { CwyLink.idle with lost := [7] }

def sServe : State :=
  (withObj ((sCwy 3 1).wr (SCH_CTX_WIN 1) 0x0100000000000000#64) obj1)

def sLostRoute : State := { sCwy 3 1 with sched := { (sCwy 3 1).sched with remote := [(7, { core := 0, epoch := 9, no := 1, tile := 0, module := 2, unit := 0, ctx := 1 })] } }

/-- The links 1 and 3, up the chain, have been down since cycle 0. -/
def downLinks (s : State) (ks : List Nat) : State :=
  ks.foldl (fun s k => withLink (s.setOff (CWY_L_STAT_UP k)) k { CwyLink.idle with downAt := some 0 }) s

def sFollow : State := { ((sCwy 3 1).setOn TIM_CTRL_ENABLE).put TIM_CTRL_ACTSRC 7 with cwy := { (sCwy 3 1).cwy with timeAt := 0 } }

theorem wit_cwy_enable : WriteOk (State.reset.put CWY_STAT_STRAP 1) (.app 0) CWY_CTRL 1 ∧ State.reset.get CWY_STAT_STATE = 0 ∧
    WriteOk ((sCwy 3 0).setOn CWY_CTRL_ENABLE |>.put CWY_STAT_STRAP 1) (.app 0) CWY_CTRL 0 := by decide

theorem wit_train_end : (sCwy 1 0).get CWY_STAT_STATE = 1 ∧ (sCwy 1 0).cwy.trainAt + 100000000 ≤ (sCwy 1 0).cyc ∧
    (cwyLink (sCwy 1 0) 0).queue = [] ∧ (sCwy 1 0).on (CWY_L_STAT_UP 0) = true := by decide

theorem wit_discovery : (sCwy 2 0).get CWY_STAT_STATE = 2 ∧ topoHolds (sCwy 2 0) 4 = true ∧ topoHolds (sCwy 2 0) 1 = false ∧
    ((sCwy 2 0).put CWY_CTRL_MSTREQ 1).on CWY_CTRL_MSTREQ = true ∧ (sCwy 2 0).on CWY_STAT_STRAP = true := by decide

theorem wit_reissue : topoHolds sReissue 4 = true ∧ (cwyLink sReissue 0).lost = [7] ∧ sReissue.sched.remote.length = 1 ∧
    routeLink ((sReissue.put CWY_STAT_NMOD 4).put CWY_STAT_MODNUM 1) 2 0 = 0 ∧ sReissue.on (CWY_L_STAT_UP 0) = true := by decide

theorem wit_flit : flitGood (flitW 2 5 1) = true ∧ fKind (flitW 2 5 1) = 2 ∧ fSeq (flitW 2 5 1) = 5 ∧ fDst (flitW 2 5 1) = 1 ∧
    (cwyLink sLink 0).rxSeq = 5 ∧ (cwyLink sLink 0).queue = [] ∧ pertOk sLink = false ∧ sLink.on (CWY_L_STAT_UP 0) = true := by decide

theorem wit_flit_other : fDst (flitW 2 5 0) ≠ sLink.get CWY_STAT_MODNUM ∧ routeLink sLink 0 (flitPair (flitW 2 5 0)) = 1 ∧
    sLink.on (CWY_L_STAT_UP 1) = true ∧ flitGood [1#8] = false ∧ fSeq (flitW 2 6 1) ≠ 5 := by decide

theorem wit_flit_time : cwyMaster (withLink (sCwy 3 0) 0 (linkW 0)) = true ∧ fKind (flitOf (flitHeader 3 5 0 2 0 0 0) [0#8]) = 3 ∧
    routeLink (sCwy 3 0) 2 0 = 0 ∧ leField (fPayload (flitOf (flitHeader 3 5 0 2 0 0 0) [0#8])) 0 1 = 0 := by decide

theorem wit_nak : (cwyLink sLink 0).nakRun = 0 ∧ (cwyLink (withLink (sCwy 3 1) 0 (linkW 7)) 0).nakSeq = 1 ∧
    7 ≤ (cwyLink (withLink (sCwy 3 1) 0 (linkW 7)) 0).nakRun := by decide

theorem wit_trained : ((sLink.setOff (CWY_L_STAT_UP 0)).setOn (CWY_L_STAT_TRAINING 0)).on (CWY_L_STAT_UP 0) = false ∧
    sLink.sched.remote = [] := by decide

theorem wit_readreq : sServe.get CWY_STAT_STATE = 3 ∧ (resolve sServe false 1 65536 65536 false).toOption = some (1, obj1) ∧
    protClosed sServe 3 65536 false = false ∧ unpublished sServe 1 obj1 = false ∧ tierHeld sServe 65536 = false ∧ routeLink sServe 2 0 = 0 ∧
    (cwyLink sServe 0).replay = [] ∧ sServe.poison = [] := by decide

theorem wit_down : downFor (downLinks sLostRoute [0, 2]) (routeLinks (downLinks sLostRoute [0, 2]) 2) = true ∧
    9 ≠ (coreOf sLostRoute 0).epoch ∧ cwyTopo sLostRoute = 0 ∧
    downFor (downLinks sFollow [1, 3]) (routeLinks (downLinks sFollow [1, 3]) 0) = true ∧ cwyFollower sFollow = true := by decide

theorem wit_down_ring : let s := downLinks ((sCwy 3 1).put CWY_CTRL_TOPO 1) [0, 2]
    downFor s (routeLinks s 2) = true ∧ cwyTopo s = 1 ∧ 2 ∉ s.cwy.flips ∧
    (routeLinks { s with cwy := { s.cwy with flips := 2 :: s.cwy.flips } } 2).any (fun k => s.on (CWY_L_STAT_UP k)) = true := by
  decide

theorem wit_follow : cwyFollower sFollow = true ∧ sFollow.cwy.timeAt + timePer sFollow * 1000 ≤ sFollow.cyc ∧
    sFollow.on (CWY_L_STAT_UP (routeLink sFollow 0 0)) = true ∧ sFollow.epochMode = true ∧ sFollow.isPending 1 = false ∧ inStepCycle sFollow = false ∧
    sFollow.rates = [] ∧ cmpDiff sFollow (9000000000 * 65536) ≤ 0 ∧ 0 < cmpDiff sFollow 65536 := by decide

/-! ### Power -/
def withPwr (s : State) (f : Power → Power) : State := { s with pwr := f s.pwr }

/-- An empty header in the flash, whose digest is that of no bytes; the boot of image 0 is loading, image 1 to follow. -/
def sBoot (good : Bool) : State :=
  let s := State.reset.store (imagePlace 0) (leBytes 4 0 ++ leBytes 4 9 ++ leBytes 4 3)
  let s := if good then s.store (imagePlace 0 + 32) (sha384 []) else s
  withPwr s fun p => { p with phase := 3, boot := some (0, [1]) }

def sTrip (n : Nat) : State :=
  { withPwr State.reset fun p => { p with phase := 4, causes := 1, trip := some (0, n, n == 4) } with cyc := 600000 }

def sHot : State := { withPwr State.reset fun p => { p with hotAt := some 0 } with cyc := 1000000000 }

def sDorm (st : Nat) : State :=
  { withPwr (State.reset.put PWR_STAT_STATE st) fun p => { p with dormAt := some 0 } with cyc := 50000000 }

def sWake (k : Nat) : State := withPwr (sDorm 4) fun p => { p with wakeAt := some (0, k) }

theorem wit_power_on : (withPwr State.reset fun p => { p with phase := 0 }).pwr.hotHold = false ∧
    (withPwr State.reset fun p => { p with phase := 0, hotHold := true }).pwr.phase = 0 ∧ State.reset.pwr.phase = 2 := by decide

theorem wit_boot_rom : lcCode State.reset ≠ 0 ∧ lcCode State.reset ≠ 4 ∧
    lcCode { State.reset with fuses := { State.reset.fuses with lc := 15 } } = 4 := by decide

theorem wit_boot_load : (sBoot false).pwr.boot = some (0, [1]) ∧ sectionsOf ((sBoot false).load (imagePlace 0) 24) = [] ∧
    leField ((sBoot false).load (imagePlace 0) 24) 20 4 = 0 := by decide

theorem wit_cap : State.reset.get PWR_STAT_STATE ≠ 3 ∧ State.reset.get PWR_EFFCAP_VALUE * 1000 < 500000 ∧
    belowCap 50000 (State.reset.get PWR_EFFCAP_VALUE) = true ∧
    (withPwr State.reset fun p => { p with overN := 4 }).pwr.overN = 4 ∧ (State.reset.put PWR_STAT_LEVEL 2).get PWR_STAT_LEVEL = 2 := by
  decide

theorem wit_supply : (withPwr State.reset fun p => { p with supOn := true }).pwr.supOn = true ∧
    tget [(3, 0)] 3 = some 0 ∧ 0 + 100000000 ≤ (sWake 0).cyc * 2 := by decide

theorem wit_trip : State.reset.pwr.trip = none ∧ sHot.pwr.hotAt = some 0 ∧ 0 + 1000000000 ≤ sHot.cyc := by decide

theorem wit_trip_steps : (sTrip 2).pwr.trip = some (0, 2, false) ∧ (sTrip 3).pwr.trip = some (0, 3, false) ∧
    (sTrip 4).pwr.trip = some (0, 4, true) ∧ 0 + 500000 ≤ (sTrip 4).cyc ∧
    (List.range 4).all (fun g => segQuiet (sTrip 2) g) = true := by decide

theorem wit_fuse_widths : FuseWidths State.reset.fuses := by constructor <;> decide

theorem wit_dormant : WriteOk State.reset (.ctl 0) PWR_CTRL 1 ∧ State.reset.get PWR_STAT_STATE = 1 ∧ dormantRefusal State.reset = 0 ∧
    dormantRefusal (State.reset.setOn SNS_CTRL_ENABLE) = 5 := by decide

theorem wit_wake : (sDorm 2).pwr.dormAt = some 0 ∧ 0 + 2000000 ≤ (sDorm 2).cyc ∧
    (((sDorm 3).put PWR_WAKE_PINEN 1).rd PWR_WAKE).toNat.testBit 0 = true ∧ (sWake 0).pwr.wakeAt = some (0, 0) ∧
    0 + 40000000 ≤ (sWake 2).cyc := by decide

/-! ### The security engine -/

/-- The security engine runs an operation; the part is in PROVISION. -/
def sSec (op : SecOp) : State :=
  let s := (withObj State.reset { obj1 with ctx := 0 }).wr (SCH_CTX_WIN 0) 0x0100000000000000#64
  { s.setOn SEC_CMD_STAT_BUSY with secOp := some op, fuses := { State.reset.fuses with lc := 1 } }

def opW (cmd result : Nat) (data : List Byte) : SecOp := { cmd := cmd, result := result, dst := 0, data := data }

def sProv : State := { State.reset with fuses := { State.reset.fuses with lc := 1 } }

theorem wit_sec_start : WriteOk State.reset (.ctl 0) SEC_CMD (withBits 0x100 7 0 1) ∧
    WriteOk State.reset (.ctl 0) SEC_CMD (withBits 0xA5010000 7 0 0x12) ∧ cmdRefusal State.reset (withBits 0x100 7 0 1) = 0 ∧
    cmdSourceLen (withBits 0x100 7 0 1) = 48 ∧ cmdRefusal State.reset (withBits 0 7 0 0x10) = 0x10 ∧
    cmdRefusal sProv (withBits 0xA5040000 7 0 0x14) = 0 ∧ cmdSourceLen (withBits 0xA5040000 7 0 0x14) = 0 ∧
    (sSec (opW 1 1 [])).on SEC_CMD_STAT_BUSY = true := by decide

theorem wit_sec_done : (sSec (opW 0x101 1 [])).secOp = some (opW 0x101 1 []) ∧ cmdOp 0x101 = 1 ∧ cmdOp 0xA5000210 = 0x10 ∧
    cmdIdx 0xA5000210 = 2 ∧ cmdOp 0xA5000111 = 0x11 ∧ cmdOp 0xA5050012 = 0x12 ∧ cmdVal 0xA5050012 = 5 ∧ cmdOp 0xA5000013 = 0x13 ∧
    cmdOp 0xA5020014 = 0x14 ∧ cmdVal 0xA5020014 = 2 ∧ (sSec (opW 1 1 [])).rd DGN_PERT_CTL = 0#64 ∧
    (resolve (sSec (opW 2 1 [])) true 0 0 17632 true).toOption.isSome = true := by decide

theorem wit_epoch : WriteOk State.reset (.ctl 0) DGN_EPOCH_BUMP 1 ∧ State.reset.epochCyc ≠ some State.reset.blvCyc := by
  decide

/-! ### Whole-machine rules and number formats -/
theorem wit_narrow : 464 * 2 ^ (0 : Int).toNat = 464 * 2 ^ (-(0 : Int)).toNat ∧
    floatTo .e4m3 false (.fin false 464 0) = (0x7E, false) ∧ floatTo .e4m3 false (.fin true 465 0) = (0x7F, true) ∧
    floatTo .fp16 true (.fin true 131039 (-1)) = (0xFBFF, false) ∧ floatTo .fp16 true (.fin true 65520 0) = (0xFC00, true) := by
  decide

theorem wit_fuses : FuseWidths State.reset.fuses ∧ step State.reset = .next State.reset.tick := by
  refine ⟨⟨?_, ?_, ?_, ?_, ?_, ?_, ?_, ?_⟩, rfl⟩ <;> decide

theorem wit_unpowered : (coldState State.reset 0).pwr.phase < 2 ∧ (coldState State.reset 0).pwr.trip = none ∧
    (coldState State.reset 1).pwr.phase = 1 := by decide

/-! ### Worked values of the spec -/


/-- R1 and R4: grade A at stepping B1. -/
theorem test_sys_ident : State.reset.view SYS_IDENT = 0x5A130D080AB10840#64 := by decide

/-- The worked conversions after R58: 300, 460, 470 and 61,440. -/
theorem test_conversions : floatTo .e4m3 false (.fin false 300 0) = (0x79, false) ∧
    floatTo .e4m3 true (.fin false 460 0) = (0x7E, false) ∧ floatTo .e4m3 false (.fin false 470 0) = (0x7F, true) ∧
    floatTo .e4m3 true (.fin false 470 0) = (0x7E, true) ∧ floatTo .e4m3 false (.fin true 59 (-16)) = (0x80, false) ∧
    floatTo .e5m2 false (.fin false 61440 0) = (0x7C, true) ∧ floatTo .e5m2 true (.fin false 61440 0) = (0x7B, true) ∧
    floatTo .e2m1 false (.fin false 5 0) = (6, false) ∧ floatTo .e2m1 false (.fin true 83 (-5)) = (0xD, false) := by decide

/-- The example of R282: three samples of the servo at its reset gains, 10,000.0, 8,763.0 and 7,606.5 ns behind. -/
theorem test_servo_example :
    (servoSample (servoSample (servoSample sServo 655360000) 574291968) 498499584).rates.map (·.2) =
      [(42500, 2500), (39742, 4690), (37017, 6591)] := by decide

/-- The example of R488: 12.250 ns is 802,816 in units of 2^-16 ns. -/
theorem test_time_exchange : (((5812250 * 65536 / 1000 : Int) - 5000000 * 65536 / 1000) +
    (5900000 * 65536 / 1000 - 6687750 * 65536 / 1000)) / 2 = 802816 ∧
    ((takeOffset sFollow 7 802816 true).getInt TIM_SRV_OFS_THETA = 802816) := by decide

/-- The coefficients of the example after R409: KP 2.0, KIT 0.25, AD 0.5, BD 1.0, KFF 1.0 and the limits. -/
def exampleCoef (k : Nat) : Word32 :=
  ([0x40000000, 0x3E800000, 0x3F000000, 0x3F800000, 0x3F800000, 0xBF800000, 0x3F800000, 0xC0000000, 0x40000000, 0, 0,
    0x3F000000, 0x3F000000, 0, 0x3E800000, 0] : List Word32).getD k 0#32

/-- Sample 3 of the example after R409: the feedback sticks at 3.0. -/
def sample3 : LoopSt :=
  { LoopSt.idle with run := true, i := 0x3E400000#32, d := 0xBF000000#32, xp := 0xBF400000#32, yp1 := 0x3F400000#32
                     up1 := 0x3E400000#32, first := false }

theorem test_loop_example_stuck : let v : LoopInputs := { r := 0x3F800000#32, y := 0x40400000#32, f := 0#32, pm := 0#32 }
    let o := controlLaw exampleCoef false true sample3 v
    o.u = 0xC0000000#32 ∧ o.ic = 0x3E400000#32 ∧ o.dn = 0xC0200000#32 ∧ o.usat = true ∧
      prediction exampleCoef 1 sample3 0#32 = 0x3ED80000#32 ∧
      (plausCheck exampleCoef 1 sample3 v o.nan).1 = false ∧ (plausCheck exampleCoef 1 sample3 v o.nan).2.bad = 1 := by decide

/-- Sample 0 of that example: the candidate 0.25 makes 2.25, beyond UMAX, so the integral is held. -/
theorem test_loop_example_first :
    let o := controlLaw exampleCoef false true { LoopSt.idle with xp := 0x80000000#32, first := false }
      { r := 0x3F800000#32, y := 0#32, f := 0#32, pm := 0#32 }
    o.u = 0x40000000#32 ∧ o.ic = 0#32 ∧ o.dn = 0#32 := by decide

end Sys2Proof.Tests
end

section
/-! COMMIT reads its group's pending state (R21): the registers of the other views lie at other addresses, so a read of a
COMMIT register shows the pending bit. -/

namespace Sys2Proof.Machine

open Sys2Proof Sys2Proof.Machine.Reg

/-! ### Where the COMMIT fields lie -/

/-- The registers whose bit 0 is COMMIT (R18); the compare units have it as bit 1 of TIM_CMP_CTL_c. -/
def commitRegs : List Nat := [SCH_TT_COMMIT, TIM_SRV_COMMIT, FUS_COMMIT, TRL_COMMIT, RFX_COMMIT]

theorem commitAt_cases {a k b : Nat} (h : commitAt a = some (k, b)) :
    (a ∈ commitRegs ∧ b = 0) ∨ (TIM_CMP_CTL 0 ≤ a ∧ a < TIM_CMP_CTL 32 ∧ b = 1) := by
  unfold commitAt at h
  split_ifs at h with htt hsrv hfus htrl hrfx hcmp <;> cases h
  · exact .inl ⟨by simp [commitRegs, htt], rfl⟩
  · exact .inl ⟨by simp [commitRegs, hsrv], rfl⟩
  · exact .inl ⟨by simp [commitRegs, hfus], rfl⟩
  · exact .inl ⟨by simp [commitRegs, htrl], rfl⟩
  · exact .inl ⟨by simp [commitRegs, hrfx], rfl⟩
  · obtain ⟨hlo, hhi, -⟩ := hcmp
    exact .inr ⟨hlo, hhi, rfl⟩

theorem commitAt_bit_lt {a k b : Nat} (h : commitAt a = some (k, b)) : b < 64 := by
  obtain ⟨-, rfl⟩ | ⟨-, -, rfl⟩ := commitAt_cases h <;> decide

/-- Outside the registers that show fuses, Bandstand time, the interrupt controller and the pins: between the fuse registers
of SYS and of SEC, and beside the ranges of the others. -/
def ClearOfViews (a : Nat) : Prop :=
  (SYS_CORE_MAP < a ∧ a < SEC_LC) ∧ (a < TIM_NOW_LO ∨ TIM_NOW_WRAP < a) ∧
    (a < BLV_ICU_PEND 0 ∨ (BLV_ICU_T_THR 12 ≤ a ∧ a < BLV_TIO_IN))

theorem clearOfViews_of_commitAt {a k b : Nat} (h : commitAt a = some (k, b)) : ClearOfViews a := by
  obtain ⟨hmem, -⟩ | ⟨hlo, hhi, -⟩ := commitAt_cases h
  · have hall : ∀ r ∈ commitRegs, ClearOfViews r := by
      unfold ClearOfViews
      decide
    exact hall a hmem
  · have order : SYS_CORE_MAP < TIM_CMP_CTL 0 ∧ TIM_CMP_CTL 32 ≤ SEC_LC ∧ TIM_NOW_WRAP < TIM_CMP_CTL 0 ∧
        TIM_CMP_CTL 32 ≤ BLV_ICU_PEND 0 := by decide
    unfold ClearOfViews
    omega

/-! ### The views that come first show nothing outside their ranges -/

theorem fuseView_eq_none (s : State) {a : Nat} (h : SYS_CORE_MAP < a ∧ a < SEC_LC) : fuseView s a = none := by
  have order : SYS_IDENT ≤ SYS_CORE_MAP ∧ SEC_LC ≤ SEC_REVOKE ∧ SEC_LC ≤ SEC_ROLLBACK ∧ SEC_LC ≤ SEC_DBGLOCK ∧
      SEC_LC ≤ SEC_PERT ∧ SEC_LC ≤ SEC_STAT ∧ SEC_LC ≤ SEC_PROTWIN 0 ∧ SEC_LC ≤ SEC_KH_RSA 0 0 ∧
      SEC_LC ≤ SEC_KH_SLH 0 0 := by decide
  unfold fuseView
  simp (disch := omega) only [if_neg]

theorem timeView_eq_none (s : State) {a : Nat} (h : a < TIM_NOW_LO ∨ TIM_NOW_WRAP < a) : timeView s a = none := by
  have order : TIM_NOW_LO ≤ TIM_NOW_HI ∧ TIM_NOW_HI ≤ TIM_NOW_WRAP := by decide
  unfold timeView
  simp (disch := omega) only [if_neg]

theorem icuView_eq_none (s : State) {a : Nat} (h : a < BLV_ICU_PEND 0 ∨ (BLV_ICU_T_THR 12 ≤ a ∧ a < BLV_TIO_IN)) :
    icuView s a = none := by
  have order : BLV_ICU_PEND 0 ≤ BLV_ICU_SRC 0 ∧ BLV_ICU_SRC 0 ≤ BLV_ICU_T_THR 0 ∧ BLV_ICU_T_THR 0 ≤ BLV_TIO_IN ∧
      BLV_ICU_PEND 32 ≤ BLV_ICU_T_THR 12 ∧ BLV_ICU_SRC 1024 ≤ BLV_ICU_T_THR 12 := by decide
  unfold icuView
  simp (disch := omega) only [if_neg]

/-! ### What a COMMIT register reads -/

theorem State.view_of_commitAt (s : State) {a k b : Nat} (h : commitAt a = some (k, b)) :
    s.view a = BitVec.ofNat 64 (withBits (s.rd a).toNat b b (ofBool (s.isPending k))) := by
  obtain ⟨hfuse, htime, hicu⟩ := clearOfViews_of_commitAt h
  rw [State.view, fuseView_eq_none s hfuse, timeView_eq_none s htime, icuView_eq_none s hicu, h]

theorem testBit_ofBool_zero (p : Bool) : (ofBool p).testBit 0 = p := by cases p <;> rfl

theorem testBit_ofNat_withBits_bit (x b : Nat) (p : Bool) (hb : b < 64) :
    (BitVec.ofNat 64 (withBits x b b (ofBool p))).toNat.testBit b = p := by
  rw [BitVec.toNat_ofNat, Nat.testBit_mod_two_pow, testBit_withBits _ _ _ _ _ (Nat.le_succ b), if_pos ⟨le_rfl, le_rfl⟩,
    Nat.sub_self, testBit_ofBool_zero, decide_eq_true hb, Bool.true_and]

/-- Settles O7: the read goes to the COMMIT view, whose bit is the pending state of the group. -/
theorem commitReadsPending : Obligations.CommitReadsPending := by
  intro s a k b h
  rw [s.view_of_commitAt h]
  exact testBit_ofNat_withBits_bit _ _ _ (commitAt_bit_lt h)

end Sys2Proof.Machine
end

section
/-! Narrowing to a floating-point format judges overflow after rounding (R54, R57). Magnitudes are compared as rationals. The
last place of the rounded value is that of the largest finite one exactly while the exponent is the largest; rounding then
compares the input with the midpoint above the largest finite value, and any larger exponent overflows. -/

namespace Sys2Proof.Machine

open Sys2Proof

/-! ### Magnitudes as rationals -/

/-- The rational `m × 2^e`. -/
def magnitude (m : Nat) (e : Int) : ℚ := m * 2 ^ e

theorem magnitude_mul_two_zpow (m : Nat) (e x : Int) : magnitude m e * 2 ^ x = magnitude m (e + x) := by
  rw [magnitude, magnitude, mul_assoc, zpow_add₀ two_ne_zero]

theorem magnitude_two_mul (m : Nat) (e : Int) : magnitude (2 * m) e = 2 * magnitude m e := by
  simp [magnitude, mul_assoc]

theorem magnitude_le_magnitude_iff (n m : Nat) (q e : Int) :
    magnitude n q ≤ magnitude m e ↔ (n : ℚ) ≤ magnitude m (e - q) := by
  rw [sub_eq_add_neg, ← magnitude_mul_two_zpow, zpow_neg, ← div_eq_mul_inv, le_div_iff₀ (zpow_pos two_pos q), magnitude]

theorem magnitude_lt_magnitude {m n : Nat} {e : Int} : magnitude m e < magnitude n e ↔ m < n := by
  simp [magnitude, mul_lt_mul_iff_left₀ (zpow_pos (two_pos (α := ℚ)) e)]

/-- The model scales both sides to integers: by `2^e` where `e` is positive, by `2^(-e)` otherwise. -/
theorem cast_mul_two_pow_toNat (m : Nat) (e : Int) :
    ((m * 2 ^ e.toNat : Nat) : ℚ) = magnitude m e * ((2 ^ (-e).toNat : Nat) : ℚ) := by
  have hexp : (e.toNat : Int) = e + (-e).toNat := by omega
  rw [magnitude, mul_assoc]
  push_cast
  rw [← zpow_natCast, ← zpow_natCast, ← zpow_add₀ two_ne_zero, hexp]

theorem scaled_lt_iff (m n : Nat) (e : Int) : m * 2 ^ e.toNat < n * 2 ^ (-e).toNat ↔ magnitude m e < n := by
  rw [← Nat.cast_lt (α := ℚ), cast_mul_two_pow_toNat, Nat.cast_mul n, mul_lt_mul_iff_left₀ (by positivity)]

theorem scaled_eq_iff (m n : Nat) (e : Int) : m * 2 ^ e.toNat = n * 2 ^ (-e).toNat ↔ magnitude m e = n := by
  rw [← Nat.cast_inj (R := ℚ), cast_mul_two_pow_toNat, Nat.cast_mul n, mul_left_inj' (by positivity)]

theorem le_scaled_iff (m n : Nat) (e : Int) : n * 2 ^ (-e).toNat ≤ m * 2 ^ e.toNat ↔ (n : ℚ) ≤ magnitude m e := by
  rw [← not_lt, scaled_lt_iff, not_lt]

theorem magGt_iff (m₁ m₂ : Nat) (e₁ e₂ : Int) : magGt m₁ e₁ m₂ e₂ = true ↔ magnitude m₂ e₂ < magnitude m₁ e₁ := by
  have align (m : Nat) (e : Int) (h : min e₁ e₂ ≤ e) :
      ((m * 2 ^ (e - min e₁ e₂).toNat : Nat) : ℚ) = magnitude m e * 2 ^ (-min e₁ e₂) := by
    rw [cast_mul_two_pow_toNat, magnitude_mul_two_zpow, show (-(e - min e₁ e₂)).toNat = 0 by omega, pow_zero, Nat.cast_one,
      mul_one, sub_eq_add_neg]
  rw [magGt, decide_eq_true_iff, gt_iff_lt, ← Nat.cast_lt (α := ℚ), align m₁ e₁ (min_le_left _ _),
    align m₂ e₂ (min_le_right _ _), mul_lt_mul_iff_left₀ (zpow_pos two_pos _)]

/-- The exponent of the leading bit of `m × 2^e`. -/
def leadExp (m : Nat) (e : Int) : Int := Nat.log2 m + e

theorem two_zpow_leadExp_le {m : Nat} (hm : m ≠ 0) (e : Int) : 2 ^ leadExp m e ≤ magnitude m e := by
  rw [leadExp, zpow_add₀ two_ne_zero, zpow_natCast, magnitude]
  gcongr
  exact_mod_cast Nat.log2_self_le hm

theorem magnitude_lt_two_zpow_leadExp_add_one (m : Nat) (e : Int) : magnitude m e < 2 ^ (leadExp m e + 1) := by
  rw [leadExp, add_right_comm, zpow_add₀ two_ne_zero, magnitude]
  gcongr
  exact_mod_cast Nat.lt_log2_self (n := m)

/-! ### Rounding to the nearest, ties to even (R54) -/

/-- `n / d` rounded to the nearest integer, ties to even. -/
def rneQuot (n d : Nat) : Nat :=
  if 2 * (n % d) > d || (2 * (n % d) == d && n / d % 2 == 1) then n / d + 1 else n / d

theorem div_le_rneQuot (n d : Nat) : n / d ≤ rneQuot n d := by
  unfold rneQuot
  split_ifs <;> omega

theorem rneQuot_le_iff (n M : Nat) {d : Nat} (hd : 0 < d) :
    rneQuot n d ≤ M ↔ 2 * n < (2 * M + 1) * d ∨ 2 * n = (2 * M + 1) * d ∧ M % 2 = 0 := by
  have hn : d * (n / d) + n % d = n := Nat.div_add_mod n d
  have hr : n % d < d := Nat.mod_lt n hd
  have hM : (2 * M + 1) * d = 2 * (d * M) + d := by ring
  rw [hM]
  unfold rneQuot
  obtain hlt | rfl | hgt := lt_trichotomy (n / d) M
  · have hstep : d * (n / d) + d ≤ d * M := Nat.mul_le_mul_left d hlt
    split_ifs <;> omega
  · split_ifs with hup <;> simp only [Bool.or_eq_true, Bool.and_eq_true, decide_eq_true_iff, beq_iff_eq] at hup <;> omega
  · have hstep : d * M + d ≤ d * (n / d) := Nat.mul_le_mul_left d hgt
    split_ifs <;> omega

/-- `m × 2^e` rounded to an integer, scaled as the model scales it. -/
def rneScaled (m : Nat) (e : Int) : Nat := rneQuot (m * 2 ^ e.toNat) (2 ^ (-e).toNat)

theorem rneScaled_le_iff (m M : Nat) (e : Int) :
    rneScaled m e ≤ M ↔
      2 * magnitude m e < (2 * M + 1 : Nat) ∨ 2 * magnitude m e = (2 * M + 1 : Nat) ∧ M % 2 = 0 := by
  rw [rneScaled, rneQuot_le_iff _ _ (by positivity), ← mul_assoc, scaled_lt_iff, scaled_eq_iff, magnitude_two_mul]

theorem le_rneScaled {m N : Nat} {e : Int} (h : N ≤ magnitude m e) : N ≤ rneScaled m e :=
  ((Nat.le_div_iff_mul_le (by positivity)).mpr ((le_scaled_iff m N e).mpr h)).trans (div_le_rneQuot _ _)

/-- The exponent of the last place that a format gives `m × 2^e`, its range of exponents unbounded above. -/
def lastPlace (f : NumFmt) (m : Nat) (e : Int) : Int := max (leadExp m e) (fmtEmin f) - fmtPrec f + 1

theorem roundTo_fin (f : NumFmt) (neg : Bool) {m : Nat} (hm : m ≠ 0) (e : Int) :
    roundTo f (.fin neg m e) = .fin neg (rneScaled m (e - lastPlace f m e)) (lastPlace f m e) := by
  have hlog : Nat.log2 1 = 0 := by decide
  have hlead : 1 * 2 ^ Nat.log2 m ≤ m := (one_mul _).trans_le (Nat.log2_self_le hm)
  have hnum (d : Int) : (if 0 ≤ d then m * 2 ^ d.toNat else m) = m * 2 ^ d.toNat := by
    split_ifs with h
    · rfl
    · rw [Int.toNat_of_nonpos (by omega), pow_zero, mul_one]
  have hden (d : Int) : (if 0 ≤ d then 1 else 1 * 2 ^ (-d).toNat) = 2 ^ (-d).toNat := by
    split_ifs with h
    · rw [Int.toNat_of_nonpos (by omega), pow_zero]
    · rw [one_mul]
  simp only [roundTo, roundRat, if_neg hm, hlog, Nat.cast_zero, sub_zero, Int.natCast_nonneg, if_true, Int.toNat_natCast, hlead,
    decide_true, hnum, hden]
  rfl

/-! ### At and above the largest finite value (R57) -/

/-- The largest finite value has all significant bits of its format but perhaps the last, and is normal (R47). -/
theorem fmtMax_bounds (f : NumFmt) :
    2 ^ (fmtPrec f - 1) ≤ (fmtMax f).1 ∧ (fmtMax f).1 < 2 ^ fmtPrec f ∧ 1 ≤ fmtPrec f ∧
      fmtEmin f ≤ (fmtMax f).2 + fmtPrec f - 1 := by
  cases f <;> decide

/-- The exponent of the leading bit of the largest finite value. -/
def topExp (f : NumFmt) : Int := (fmtMax f).2 + fmtPrec f - 1

theorem two_zpow_topExp_le (f : NumFmt) : 2 ^ topExp f ≤ magnitude (fmtMax f).1 (fmtMax f).2 := by
  obtain ⟨hlow, -, hprec, -⟩ := fmtMax_bounds f
  have hexp : topExp f = (fmtPrec f - 1 : Nat) + (fmtMax f).2 := by unfold topExp; omega
  rw [hexp, zpow_add₀ two_ne_zero, zpow_natCast, magnitude]
  gcongr
  exact_mod_cast hlow

theorem magnitude_fmtMax_succ_le (f : NumFmt) : magnitude ((fmtMax f).1 + 1) (fmtMax f).2 ≤ 2 ^ (topExp f + 1) := by
  obtain ⟨-, hhigh, -, -⟩ := fmtMax_bounds f
  have hexp : topExp f + 1 = fmtPrec f + (fmtMax f).2 := by unfold topExp; omega
  rw [hexp, zpow_add₀ two_ne_zero, zpow_natCast, magnitude]
  gcongr
  exact_mod_cast hhigh

/-- An exponent above the largest leaves the finite range, by one unit of the largest value's last place or more. -/
theorem magnitude_fmtMax_succ_le_of_topExp_lt {f : NumFmt} {k : Int} (h : topExp f < k) :
    magnitude ((fmtMax f).1 + 1) (fmtMax f).2 ≤ 2 ^ k :=
  (magnitude_fmtMax_succ_le f).trans (zpow_le_zpow_right₀ one_le_two h)

/-- In units of the last place of the largest finite value, `m × 2^e` rounds to no more than that value. -/
def RoundsToFinite (f : NumFmt) (m : Nat) (e : Int) : Prop := rneScaled m (e - (fmtMax f).2) ≤ (fmtMax f).1

section atLeastLargest

variable {f : NumFmt} {m : Nat} {e : Int} (hmax : magnitude (fmtMax f).1 (fmtMax f).2 ≤ magnitude m e)
include hmax

theorem ne_zero_of_fmtMax_le : m ≠ 0 := by
  rintro rfl
  have hpos : (0 : ℚ) < 2 ^ topExp f := zpow_pos two_pos _
  have hzero : magnitude 0 e = 0 := by simp [magnitude]
  linarith [two_zpow_topExp_le f]

theorem topExp_le_leadExp : topExp f ≤ leadExp m e := by
  have hlt : (2 : ℚ) ^ topExp f < 2 ^ (leadExp m e + 1) :=
    ((two_zpow_topExp_le f).trans hmax).trans_lt (magnitude_lt_two_zpow_leadExp_add_one m e)
  exact Int.lt_add_one_iff.mp ((zpow_lt_zpow_iff_right₀ one_lt_two).mp hlt)

theorem lastPlace_of_fmtMax_le : lastPlace f m e = (fmtMax f).2 + (leadExp m e - topExp f) := by
  obtain ⟨-, -, -, hnormal⟩ := fmtMax_bounds f
  have htop := topExp_le_leadExp hmax
  unfold topExp at *
  unfold lastPlace
  omega

theorem lastPlace_of_leadExp_eq (h : leadExp m e = topExp f) : lastPlace f m e = (fmtMax f).2 := by
  rw [lastPlace_of_fmtMax_le hmax, h, sub_self, add_zero]

theorem leadExp_eq_topExp_of_roundsToFinite (hfits : RoundsToFinite f m e) : leadExp m e = topExp f := by
  refine ((topExp_le_leadExp hmax).eq_or_lt.resolve_right fun hlt => ?_).symm
  have hbeyond : magnitude ((fmtMax f).1 + 1) (fmtMax f).2 ≤ magnitude m e :=
    (magnitude_fmtMax_succ_le_of_topExp_lt hlt).trans (two_zpow_leadExp_le (ne_zero_of_fmtMax_le hmax) e)
  exact absurd hfits (not_le.mpr (le_rneScaled ((magnitude_le_magnitude_iff _ _ _ _).mp hbeyond)))

theorem roundTo_of_roundsToFinite (hfits : RoundsToFinite f m e) (neg : Bool) :
    roundTo f (.fin neg m e) = .fin neg (fmtMax f).1 (fmtMax f).2 := by
  have hlargest : rneScaled m (e - (fmtMax f).2) = (fmtMax f).1 :=
    le_antisymm hfits (le_rneScaled ((magnitude_le_magnitude_iff _ _ _ _).mp hmax))
  rw [roundTo_fin f neg (ne_zero_of_fmtMax_le hmax),
    lastPlace_of_leadExp_eq hmax (leadExp_eq_topExp_of_roundsToFinite hmax hfits), hlargest]

/-- Rounding does not go below the power of two at the leading bit. -/
theorem two_zpow_leadExp_le_rounded :
    2 ^ leadExp m e ≤ magnitude (rneScaled m (e - lastPlace f m e)) (lastPlace f m e) := by
  obtain ⟨-, -, hprec, -⟩ := fmtMax_bounds f
  have hexp : leadExp m e = (fmtPrec f - 1 : Nat) + lastPlace f m e := by
    rw [lastPlace_of_fmtMax_le hmax]
    unfold topExp
    omega
  have hlead : 2 ^ leadExp m e = magnitude (2 ^ (fmtPrec f - 1)) (lastPlace f m e) := by
    rw [hexp, zpow_add₀ two_ne_zero, zpow_natCast, magnitude, Nat.cast_pow, Nat.cast_ofNat]
  have hle := hlead.ge.trans (two_zpow_leadExp_le (ne_zero_of_fmtMax_le hmax) e)
  have hround := le_rneScaled ((magnitude_le_magnitude_iff _ _ _ _).mp hle)
  rw [hlead, magnitude, magnitude]
  gcongr

theorem overflows_of_not_roundsToFinite (hover : ¬ RoundsToFinite f m e) :
    overflows f (rneScaled m (e - lastPlace f m e)) (lastPlace f m e) = true := by
  rw [overflows, magGt_iff]
  obtain htop | hlt := (topExp_le_leadExp hmax).eq_or_lt
  · rw [lastPlace_of_leadExp_eq hmax htop.symm]
    exact magnitude_lt_magnitude.mpr (not_le.mp hover)
  · calc magnitude (fmtMax f).1 (fmtMax f).2
        < magnitude ((fmtMax f).1 + 1) (fmtMax f).2 := magnitude_lt_magnitude.mpr (Nat.lt_succ_self _)
      _ ≤ 2 ^ leadExp m e := magnitude_fmtMax_succ_le_of_topExp_lt hlt
      _ ≤ _ := two_zpow_leadExp_le_rounded hmax

theorem floatTo_of_roundsToFinite (hfits : RoundsToFinite f m e) (sat neg : Bool) :
    floatTo f sat (.fin neg m e) = (encodeMax f neg, false) := by
  have hnone : overflows f (fmtMax f).1 (fmtMax f).2 = false := by
    rw [← Bool.not_eq_true, overflows, magGt_iff]
    exact lt_irrefl _
  simp [floatTo, roundTo_of_roundsToFinite hmax hfits, hnone, encodeMax]

theorem floatTo_of_not_roundsToFinite (hf : f ≠ .e2m1) (hover : ¬ RoundsToFinite f m e) (sat neg : Bool) :
    floatTo f sat (.fin neg m e) =
      (if sat = true ∧ (f = .e4m3 ∨ f = .e5m2) then encodeMax f neg else encodeInf f neg, true) := by
  simp [floatTo, roundTo_fin f neg (ne_zero_of_fmtMax_le hmax), overflows_of_not_roundsToFinite hmax hover, hf]

end atLeastLargest

/-! ### The thresholds of R57 -/

/-- A row of the table of R57 and its codes agree with the model's format: the threshold is the midpoint above the largest
finite value, and a tie fits where that value's last bit is even. -/
structure NarrowingRow (f : NumFmt) (largest threshold : Nat) (tieFits : Bool) (maxCode overCode negMax negOver : Nat) :
    Prop where
  ne_e2m1 : f ≠ .e2m1
  lastPlace_nonneg : 0 ≤ (fmtMax f).2
  largest_eq : largest = (fmtMax f).1 * 2 ^ (fmtMax f).2.toNat
  threshold_eq : 2 * threshold = (2 * (fmtMax f).1 + 1) * 2 ^ (fmtMax f).2.toNat
  tieFits_iff : tieFits = true ↔ (fmtMax f).1 % 2 = 0
  encodeMax_eq : ∀ neg, encodeMax f neg = if neg then negMax else maxCode
  encodeInf_eq : ∀ neg, encodeInf f neg = if neg then negOver else overCode

namespace NarrowingRow

variable {f : NumFmt} {largest threshold maxCode overCode negMax negOver : Nat} {tieFits : Bool}
  (row : NarrowingRow f largest threshold tieFits maxCode overCode negMax negOver) (m : Nat) (e : Int)
include row

theorem cast_two_pow : ((2 ^ (fmtMax f).2.toNat : Nat) : ℚ) = 2 ^ (fmtMax f).2 := by
  rw [Nat.cast_pow, Nat.cast_ofNat, ← zpow_natCast, Int.toNat_of_nonneg row.lastPlace_nonneg]

theorem magnitude_fmtMax : magnitude (fmtMax f).1 (fmtMax f).2 = largest := by
  rw [row.largest_eq, Nat.cast_mul, row.cast_two_pow, magnitude]

theorem roundsToFinite_iff :
    RoundsToFinite f m e ↔ m * 2 ^ e.toNat < threshold * 2 ^ (-e).toNat ∨
      (tieFits = true ∧ m * 2 ^ e.toNat = threshold * 2 ^ (-e).toNat) := by
  have hpos : (0 : ℚ) < 2 ^ (fmtMax f).2 := zpow_pos two_pos _
  have hm : magnitude m e = magnitude m (e - (fmtMax f).2) * 2 ^ (fmtMax f).2 := by
    rw [magnitude_mul_two_zpow, sub_add_cancel]
  have ht : 2 * (threshold : ℚ) = (2 * (fmtMax f).1 + 1 : Nat) * 2 ^ (fmtMax f).2 := by
    rw [← row.cast_two_pow, ← Nat.cast_mul, ← row.threshold_eq, Nat.cast_mul, Nat.cast_ofNat]
  have hlt : 2 * magnitude m (e - (fmtMax f).2) < (2 * (fmtMax f).1 + 1 : Nat) ↔ magnitude m e < threshold := by
    rw [← mul_lt_mul_iff_left₀ hpos, mul_assoc, ← hm, ← ht, mul_lt_mul_iff_right₀ two_pos]
  have heq : 2 * magnitude m (e - (fmtMax f).2) = (2 * (fmtMax f).1 + 1 : Nat) ↔ magnitude m e = threshold := by
    rw [← mul_left_inj' hpos.ne', mul_assoc, ← hm, ← ht, mul_right_inj' two_ne_zero]
  rw [RoundsToFinite, rneScaled_le_iff, hlt, heq, scaled_lt_iff, scaled_eq_iff, row.tieFits_iff, and_comm (a := _ = _)]

theorem floatTo_eq (hmax : largest * 2 ^ (-e).toNat ≤ m * 2 ^ e.toNat) (sat neg : Bool) :
    floatTo f sat (.fin neg m e) =
      if m * 2 ^ e.toNat < threshold * 2 ^ (-e).toNat ∨ (tieFits = true ∧ m * 2 ^ e.toNat = threshold * 2 ^ (-e).toNat) then
        (if neg then negMax else maxCode, false)
      else if sat = true ∧ (f = .e4m3 ∨ f = .e5m2) then (if neg then negMax else maxCode, true)
      else (if neg then negOver else overCode, true) := by
  have hmag : magnitude (fmtMax f).1 (fmtMax f).2 ≤ magnitude m e :=
    row.magnitude_fmtMax.trans_le ((le_scaled_iff _ _ _).mp hmax)
  rw [← row.encodeMax_eq, ← row.encodeInf_eq]
  by_cases hfits : RoundsToFinite f m e
  · rw [if_pos ((row.roundsToFinite_iff m e).mp hfits), floatTo_of_roundsToFinite hmag hfits]
  · rw [if_neg (mt (row.roundsToFinite_iff m e).mpr hfits),
      floatTo_of_not_roundsToFinite hmag row.ne_e2m1 hfits]
    exact apply_ite (·, true) _ _ _

end NarrowingRow

/-- Settles O8: each row of R57 has the largest finite value and the midpoint above it that the model's format has. -/
theorem narrowingOverflowsAtItsThreshold : Obligations.NarrowingOverflowsAtItsThreshold := by
  intro f largest threshold tieFits maxCode overCode negMax negOver sat neg m e hmem hmax
  have row : NarrowingRow f largest threshold tieFits maxCode overCode negMax negOver := by
    simp only [List.mem_cons, List.not_mem_nil, or_false, Prod.mk.injEq] at hmem
    obtain hrow | hrow | hrow | hrow := hmem
    all_goals
      obtain ⟨rfl, rfl, rfl, rfl, rfl, rfl, rfl, rfl⟩ := hrow
      constructor <;> decide
  exact row.floatTo_eq m e hmax sat neg

end Sys2Proof.Machine
end

section
/-! Facts of every step: each command answers a next state and keeps the queue, fuses change by programming alone, and
nothing happens without power. All but eight commands end in `finish`, from which these follow at once. -/

namespace Sys2Proof.Machine

open Sys2Proof Sys2Proof.Machine.Reg

/-! ### How commands end -/

/-- The commands with an ending of their own: start-up, the shutdown and the end of a security operation. -/
def ownEnding : List Instr :=
  [.powerOn, .aonClockLock, .thermalRestart, .brownoutTrip, .thermalTrip, .shutdownRailsOff, .resetPin, .secCmdDone]

theorem exec_eq_finish {i : Instr} (h : i ∉ ownEnding) (s : State) : ∃ u, exec i s = finish s u := by
  cases i with
  | powerOn | aonClockLock | thermalRestart | brownoutTrip | thermalTrip | shutdownRailsOff | resetPin | secCmdDone =>
    simp [ownEnding] at h
  | _ => exact ⟨_, rfl⟩

/-- The fuses are as before, or an operation has programmed some. -/
def FusesProgrammed (f g : Fuses) : Prop := g = f ∨ ∃ b, g = f.program b

/-- What every command answers: a next state with the queue as it stood, its fuses programmed at most. -/
def Answers (s : State) (o : Host.Outcome State Fault Refusal) : Prop :=
  ∃ t, o = .next t ∧ t.pending = s.pending ∧ FusesProgrammed s.fuses t.fuses

theorem FusesProgrammed.refl (f : Fuses) : FusesProgrammed f f := .inl rfl

theorem fusesDone_programmed (s : State) : FusesProgrammed s.fuses (fusesDone s) := by
  unfold fusesDone
  split
  · split
    · exact .inr ⟨_, rfl⟩
    · exact .refl _
  · exact .refl _

theorem fusesInterrupted_programmed (s : State) : FusesProgrammed s.fuses (fusesInterrupted s) := by
  unfold fusesInterrupted
  split
  · split
    · exact .refl _
    · exact .inr ⟨_, rfl⟩
  · exact .refl _

theorem tripFuses_programmed (s : State) : FusesProgrammed s.fuses (tripFuses s) := by
  unfold tripFuses
  split
  · exact fusesInterrupted_programmed s
  · exact .refl _

theorem finishFuses_answers {f : Fuses} {s : State} (h : FusesProgrammed s.fuses f) (u : State) :
    Answers s (finishFuses f s u) := by
  unfold finishFuses
  split
  · exact ⟨_, rfl, rfl, .refl _⟩
  · exact ⟨_, rfl, rfl, h⟩

theorem finish_answers (s u : State) : Answers s (finish s u) := finishFuses_answers (.refl _) u

theorem Answers.next {s t : State} (hp : t.pending = s.pending) (hf : t.fuses = s.fuses) : Answers s (.next t) :=
  ⟨t, rfl, hp, .inl hf⟩

theorem exec_answers (i : Instr) (s : State) : Answers s (exec i s) := by
  by_cases hown : i ∈ ownEnding
  · simp only [ownEnding, List.mem_cons, List.not_mem_nil, or_false] at hown
    obtain rfl | rfl | rfl | rfl | rfl | rfl | rfl | rfl := hown <;> simp only [exec]
    case inl =>
      unfold execPowerOn
      split <;> exact .next rfl rfl
    case inr.inl =>
      unfold execAonClockLock
      split <;> exact .next rfl rfl
    case inr.inr.inl =>
      unfold execThermalRestart
      split <;> exact .next rfl rfl
    case inr.inr.inr.inl => exact finishFuses_answers (tripFuses_programmed s) _
    case inr.inr.inr.inr.inl =>
      unfold execThermalTrip
      split
      · split
        · exact finish_answers s _
        · exact finishFuses_answers (tripFuses_programmed s) _
      · exact finish_answers s _
    case inr.inr.inr.inr.inr.inl =>
      unfold execShutdownRailsOff
      split
      · split <;> exact .next rfl rfl
      · exact .next rfl rfl
    case inr.inr.inr.inr.inr.inr.inl =>
      unfold execResetPin
      split
      · exact .next rfl rfl
      · split
        · exact .next rfl rfl
        · exact finish_answers s _
    case inr.inr.inr.inr.inr.inr.inr => exact finishFuses_answers (fusesDone_programmed s) _
  · obtain ⟨u, hu⟩ := exec_eq_finish hown s
    exact hu ▸ finish_answers s u

theorem step_fuses_programmed {s t : State} (h : step s = .next t) : FusesProgrammed s.fuses t.fuses := by
  unfold step at h
  split at h
  · obtain rfl := Host.Outcome.next.inj h
    unfold State.tick
    split <;> exact .refl _
  · next c rest _ =>
    obtain ⟨u, hu, -, hf⟩ := exec_answers c { s with pending := rest }
    obtain rfl := Host.Outcome.next.inj (hu.symm.trans h)
    exact hf

/-- Settles O1: the dispatch of a step. -/
theorem stepRunsFront : Obligations.StepRunsFront := fun _ _ => rfl

/-- Settles O2. -/
theorem everyCommandAnswersAndKeepsTheQueue : Obligations.EveryCommandAnswersAndKeepsTheQueue := by
  intro i s
  obtain ⟨t, ht, hp, -⟩ := exec_answers i s
  exact ⟨t, ht, hp⟩

/-! ### Programming adds bits -/

theorem bitsWithin_or (a b : Nat) : bitsWithin a (a ||| b) := by
  rw [bitsWithin, ← Nat.or_assoc, Nat.or_self]

theorem keysWithin_refl (a : List (Nat × Bool)) : keysWithin a a :=
  ⟨rfl, fun _ _ => ⟨Nat.or_self _, id⟩⟩

theorem keysWithin_addKey (ks : List (Nat × Bool)) (slot : Nat) (k : Nat × Bool) : keysWithin ks (addKey ks slot k) := by
  refine ⟨(List.length_set ..).symm, fun i hi => ?_⟩
  rw [addKey, List.getD_eq_getElem?_getD (l := ks.set _ _), List.getElem?_set]
  by_cases hslot : slot = i
  · subst hslot
    rw [if_pos rfl, if_pos hi]
    exact ⟨bitsWithin_or _ _, fun h => by rw [Option.getD_some, h, Bool.true_or]⟩
  · rw [if_neg hslot, ← List.getD_eq_getElem?_getD]
    exact ⟨Nat.or_self _, id⟩

theorem length_addWindows (ws add : List Nat) : (addWindows ws add).length = ws.length := by
  simp [addWindows]

theorem getD_addWindows (ws add : List Nat) {w : Nat} (h : w < ws.length) :
    (addWindows ws add).getD w 0 = ws.getD w 0 ||| add.getD w 0 % 2 ^ 64 := by
  simp [addWindows, List.getD_eq_getElem?_getD, h]

theorem fusesWithin_refl (f : Fuses) : FusesWithin f f where
  secret := rfl
  serial := rfl
  grade := rfl
  stepping := rfl
  cores := rfl
  memGib := rfl
  phys := rfl
  lc := Nat.or_self _
  khRsa := keysWithin_refl _
  khSlh := keysWithin_refl _
  revoke := Nat.or_self _
  rollback := Nat.or_self _
  protWin := ⟨rfl, fun _ _ => Nat.or_self _⟩
  protDbg := Nat.or_self _
  protPert := Nat.or_self _
  protMark := id

theorem fusesWithin_program (f : Fuses) (b : FuseBits) : FusesWithin f (f.program b) where
  secret := rfl
  serial := rfl
  grade := rfl
  stepping := rfl
  cores := rfl
  memGib := rfl
  phys := rfl
  lc := bitsWithin_or _ _
  khRsa := by
    show keysWithin f.khRsa (if b.kind = 0 then _ else _)
    split
    · exact keysWithin_addKey _ _ _
    · exact keysWithin_refl _
  khSlh := by
    show keysWithin f.khSlh (if b.kind = 0 then _ else _)
    split
    · exact keysWithin_refl _
    · exact keysWithin_addKey _ _ _
  revoke := bitsWithin_or _ _
  rollback := bitsWithin_or _ _
  protWin := ⟨(length_addWindows _ _).symm, fun w hw => (getD_addWindows _ b.protWin hw).symm ▸ bitsWithin_or _ _⟩
  protDbg := bitsWithin_or _ _
  protPert := bitsWithin_or _ _
  protMark := fun h => by
    show (f.protMark || b.protMark) = true
    rw [h, Bool.true_or]

theorem FusesProgrammed.within {f g : Fuses} (h : FusesProgrammed f g) : FusesWithin f g := by
  obtain rfl | ⟨b, rfl⟩ := h
  · exact fusesWithin_refl _
  · exact fusesWithin_program f b

/-- Settles O57. -/
theorem fusesOnlyGain : Obligations.FusesOnlyGain := fun _ _ h => (step_fuses_programmed h).within

/-! ### Programming keeps widths -/

theorem or_mod_lt_two_pow {a n : Nat} (b : Nat) (ha : a < 2 ^ n) : a ||| b % 2 ^ n < 2 ^ n :=
  Nat.or_lt_two_pow ha (Nat.mod_lt _ (Nat.two_pow_pos n))

theorem getD_fst_lt {ks : List (Nat × Bool)} (h : ∀ k ∈ ks, k.1 < 2 ^ 384) (i : Nat) :
    (ks.getD i (0, false)).1 < 2 ^ 384 := by
  rw [List.getD_eq_getElem?_getD]
  cases hi : ks[i]? with
  | none => exact pow_pos two_pos 384
  | some k => exact h k (List.mem_of_getElem? hi)

theorem addKey_widths {ks : List (Nat × Bool)} (h : ks.length = 4 ∧ ∀ k ∈ ks, k.1 < 2 ^ 384) (slot : Nat) (k : Nat × Bool) :
    (addKey ks slot (k.1 % 2 ^ 384, k.2)).length = 4 ∧
      ∀ q ∈ addKey ks slot (k.1 % 2 ^ 384, k.2), q.1 < 2 ^ 384 := by
  obtain ⟨hlen, hlt⟩ := h
  refine ⟨(List.length_set ..).trans hlen, fun q hq => ?_⟩
  obtain hq | rfl := List.mem_or_eq_of_mem_set hq
  · exact hlt q hq
  · exact or_mod_lt_two_pow _ (getD_fst_lt hlt slot)

theorem addWindows_widths {ws : List Nat} (add : List Nat) (h : ws.length = 8 ∧ ∀ w ∈ ws, w < 2 ^ 64) :
    (addWindows ws add).length = 8 ∧ ∀ w ∈ addWindows ws add, w < 2 ^ 64 := by
  obtain ⟨hlen, hlt⟩ := h
  refine ⟨(length_addWindows ws add).trans hlen, fun w hw => ?_⟩
  obtain ⟨p, hp, rfl⟩ := List.mem_map.mp hw
  exact or_mod_lt_two_pow _ (hlt _ (List.of_mem_zip hp).1)

theorem fuseWidths_program {f : Fuses} (h : FuseWidths f) (b : FuseBits) : FuseWidths (f.program b) where
  lc := or_mod_lt_two_pow (n := 4) b.lc h.lc
  khRsa := by
    show (if b.kind = 0 then _ else f.khRsa).length = 4 ∧ ∀ k ∈ (if b.kind = 0 then _ else f.khRsa), k.1 < 2 ^ 384
    split
    · exact addKey_widths h.khRsa b.slot b.key
    · exact h.khRsa
  khSlh := by
    show (if b.kind = 0 then f.khSlh else _).length = 4 ∧ ∀ k ∈ (if b.kind = 0 then f.khSlh else _), k.1 < 2 ^ 384
    split
    · exact h.khSlh
    · exact addKey_widths h.khSlh b.slot b.key
  revoke := or_mod_lt_two_pow (n := 8) b.revoke h.revoke
  rollback := or_mod_lt_two_pow (n := 64) b.rollback h.rollback
  protWin := addWindows_widths b.protWin h.protWin
  protDbg := or_mod_lt_two_pow (n := 8) b.protDbg h.protDbg
  protPert := or_mod_lt_two_pow (n := 2) b.protPert h.protPert

theorem FusesProgrammed.widths {f g : Fuses} (h : FusesProgrammed f g) (hw : FuseWidths f) : FuseWidths g := by
  obtain rfl | ⟨b, rfl⟩ := h
  · exact hw
  · exact fuseWidths_program hw b

/-- Settles O58. -/
theorem stepKeepsFuseWidths : Obligations.StepKeepsFuseWidths := fun _ _ hw h => (step_fuses_programmed h).widths hw

/-! ### Without power -/

theorem finishFuses_off (f : Fuses) {s : State} (h : s.pwr.phase < 2) (u : State) : finishFuses f s u = .next s := by
  rw [finishFuses, if_pos h]

theorem exec_off_of_ownEnding {s : State} {i : Instr} (hphase : s.pwr.phase < 2) (htrip : s.pwr.trip = none)
    (hon : i ≠ .powerOn) (hlock : i ≠ .aonClockLock) (hhot : i ≠ .thermalRestart) (hown : i ∈ ownEnding) :
    exec i s = .next s := by
  simp only [ownEnding, List.mem_cons, List.not_mem_nil, or_false, hon, hlock, hhot, false_or] at hown
  obtain rfl | rfl | rfl | rfl | rfl := hown <;> simp only [exec]
  case inl => exact finishFuses_off _ hphase _
  case inr.inl =>
    unfold execThermalTrip
    split
    · split
      · exact finish_off _ _ hphase
      · exact finishFuses_off _ hphase _
    · exact finish_off _ _ hphase
  case inr.inr.inl =>
    unfold execShutdownRailsOff
    rw [htrip]
  case inr.inr.inr.inl => exact if_pos (.inl hphase)
  case inr.inr.inr.inr => exact finishFuses_off _ hphase _

/-- Settles O59. -/
theorem unpoweredDeviceDoesNothing : Obligations.UnpoweredDeviceDoesNothing := by
  intro s i hphase htrip
  refine ⟨fun hon hlock hhot => ?_, if_pos hphase, fun h1 => ⟨if_pos (by omega), if_neg (by omega)⟩,
    fun h0 => if_neg (by omega)⟩
  by_cases hown : i ∈ ownEnding
  · exact exec_off_of_ownEnding hphase htrip hon hlock hhot hown
  · obtain ⟨u, hu⟩ := exec_eq_finish hown s
    exact hu.trans (finish_off s u hphase)

/-! ### The tick and the state after reset -/

/-- Settles O3: the accumulator takes the sum modulo its range. -/
theorem tickAdvancesBandstand : Obligations.TickAdvancesBandstand := by
  intro s hon hq
  have htick : s.tick = { s with cyc := s.cyc + 1, acc := (((s.acc : Int) + s.increment) % (accModulus : Int)).toNat } :=
    if_neg (not_lt.mpr hon)
  have hstep : step s = .next s.tick := by
    unfold step
    rw [hq]
  have hmod : (accModulus : Int) = 2 ^ 48 * 1000000000 * 2 ^ 32 := by rw [accModulus]; norm_num
  refine ⟨s.tick, hstep, ?_⟩
  rw [htick]
  refine ⟨rfl, ?_, ?_, ⟨rfl, rfl, fun _ _ _ _ => rfl, fun p hp => ?_⟩⟩
  · simp only [State.increment, hmod]
    omega
  · simp only [hmod]
    omega
  · cases p <;> simp_all [Keeps]

/-- Settles O60. -/
theorem resetIsInOrder : Obligations.ResetIsInOrder :=
  ⟨Tests.wit_fuse_widths, rfl, rfl, rfl, rfl, rfl, rfl, by decide, by decide, by decide, by decide⟩

end Sys2Proof.Machine
end
section
/-! How a command that ends in `finish` completes: from its effect to what it leaves. -/

namespace Sys2Proof.Machine

open Sys2Proof Sys2Proof.Machine.Reg

/-- A claim about a command with the effect `u` is one about the settled state. -/
theorem Completes.settled {i : Instr} {s u : State} {P : State → Prop} (h : Completes i s P) (he : exec i s = finish s u)
    (hon : s.powered) : ∃ t, Settled s.fuses s u t ∧ P t := by
  obtain ⟨t, ht, hP⟩ := h
  obtain ⟨t', ht', hs⟩ := finish_spec s u hon
  obtain rfl := Host.Outcome.next.inj ((he.trans ht').symm.trans ht)
  exact ⟨t', hs, hP⟩

theorem completes_of_settled {i : Instr} {s u : State} {P : State → Prop} (he : exec i s = finish s u) (hon : s.powered)
    (h : ∀ t, Settled s.fuses s u t → P t) : Completes i s P := by
  obtain ⟨t, ht, hs⟩ := finish_spec s u hon
  exact ⟨t, he.trans ht, h t hs⟩

theorem Settled.load {f : Fuses} {s u t : State} (h : Settled f s u t) (a n : Nat) : t.load a n = u.load a n := by
  rw [State.load, State.load, h.mem]

end Sys2Proof.Machine
end
section
/-! Memory that is not in canonical form: a zero written behind a higher address is not read back. -/

namespace Sys2Proof.Machine

open Sys2Proof

/-- Going through the cells in order, one at `n` or above comes before any at `a`: a search for `a` in order of addresses
never gets to the cells at `a`. -/
def Shadowed (n a : Nat) : List Host.Cell → Prop
  | [] => False
  | (k, _) :: m => n ≤ k ∨ (k ≠ a ∧ Shadowed n a m)

theorem memSet_zero_of_shadowed {n a : Nat} {m : List Host.Cell} (h : Shadowed n a m) (ha : a < n) : memSet m a 0#8 = m := by
  induction m with
  | nil => exact h.elim
  | cons p m ih =>
    obtain ⟨k, b⟩ := p
    by_cases hlt : a < k
    · simp [memSet, hlt]
    · rcases h with hk | ⟨hne, h⟩
      · omega
      · simp [memSet, hlt, Ne.symm hne, ih h]

theorem Shadowed.memSet {n a x : Nat} {m : List Host.Cell} (h : Shadowed n a m) (hx : x ≠ a) (hn : x < n) (v : Byte) :
    Shadowed n a (memSet m x v) := by
  induction m with
  | nil => exact h.elim
  | cons p m ih =>
    obtain ⟨k, b⟩ := p
    rw [Machine.memSet]
    split
    · split
      · exact h
      · exact .inr ⟨hx, h⟩
    · split
      · rcases h with hk | ⟨-, h⟩
        · omega
        · split
          · exact h
          · exact .inr ⟨hx, h⟩
      · exact h.imp_right fun h => ⟨h.1, ih h.2⟩

/-- A zero byte of a run of bytes written over a shadowed cell is not read back: the cell reads as before. -/
theorem memGet_memWrite_of_shadowed {n i p : Nat} {m : List Host.Cell} {bs : List Byte} (h : Shadowed n (p + i) m)
    (hn : p + bs.length ≤ n) (hi : bs[i]? = some 0#8) : memGet (memWrite m p bs) (p + i) = memGet m (p + i) := by
  induction bs generalizing p i m with
  | nil => simp at hi
  | cons b bs ih =>
    rw [List.length_cons] at hn
    rw [memWrite]
    cases i with
    | zero =>
      obtain rfl : b = 0#8 := by simpa using hi
      rw [Nat.add_zero] at h ⊢
      rw [memSet_zero_of_shadowed h (by omega), memGet_memWrite_out _ _ _ _ (by omega)]
    | succ i =>
      rw [show p + (i + 1) = p + 1 + i by omega] at h ⊢
      rw [ih (h.memSet (by omega) (by omega) b) (by omega) (by simpa using hi), memGet_memSet_ne _ _ _ _ (by omega)]

theorem getElem?_load (s : State) (a : Nat) {n i : Nat} (h : i < n) : (s.load a n)[i]? = some (memGet s.mem (a + i)) := by
  simp [State.load, h]

/-- Memory with a stray byte 1 at `a` behind a higher address: not in canonical form, so that a zero written at `a` is not
read back. -/
def State.strayByte (s : State) (a : Nat) : State := { s with mem := (a + 2 ^ 20, 1#8) :: (a, 1#8) :: s.mem }

theorem shadowed_strayByte (s : State) (a : Nat) : Shadowed (a + 2 ^ 20) a (s.strayByte a).mem := .inl (Nat.le_refl _)

@[simp] theorem memGet_strayByte (s : State) (a : Nat) : memGet (s.strayByte a).mem a = 1#8 := by simp [State.strayByte, memGet]

/-- A zero byte written over a stray byte is not read back. -/
theorem memGet_store_strayByte {s : State} {p i : Nat} {bs : List Byte} (hi : bs[i]? = some 0#8) (hlen : bs.length ≤ 2 ^ 20) :
    memGet ((s.strayByte (p + i)).store p bs).mem (p + i) = 1#8 :=
  (memGet_memWrite_of_shadowed (shadowed_strayByte s _) (by omega) hi).trans (memGet_strayByte s _)

/-- Bytes written over a stray byte are not read back where the byte written there is zero. -/
theorem load_store_strayByte_ne {s u : State} {p i : Nat} {bs : List Byte}
    (hu : memGet u.mem (p + i) = memGet ((s.strayByte (p + i)).store p bs).mem (p + i)) (hi : bs[i]? = some 0#8)
    (hlen : bs.length ≤ 2 ^ 20) : u.load p bs.length ≠ bs := by
  intro h
  have hread := getElem?_load u p (List.getElem?_eq_some_iff.mp hi).1
  rw [h, hi, hu, memGet_store_strayByte hi hlen] at hread
  exact absurd hread (by decide)

end Sys2Proof.Machine
end
section
/-! A run of bytes that an engine writes into an object at home. -/

namespace Sys2Proof.Machine

open Sys2Proof Sys2Proof.Machine.Reg

theorem foldl_cacheFill (s : State) (keys : List Nat) : ∃ c n, keys.foldl cacheFill s = { s with cache := c, free := n } := by
  induction keys generalizing s with
  | nil => exact ⟨s.cache, s.free, rfl⟩
  | cons k keys ih =>
    obtain ⟨c, n, hfill⟩ : ∃ c n, cacheFill s k = { s with cache := c, free := n } := by
      unfold cacheFill
      split
      · exact ⟨s.cache, s.free, rfl⟩
      · split
        · exact ⟨_, s.free, rfl⟩
        · exact ⟨_, _, rfl⟩
    obtain ⟨c', n', hrest⟩ := ih (cacheFill s k)
    exact ⟨c', n', by rw [List.foldl_cons, hrest, hfill]⟩

/-- A resolution leaves the state as it was, or counts a miss and changes the cache. -/
theorem lookup_cases (s : State) (a : Nat) :
    s.lookup a = s ∨ ∃ v c n, s.lookup a = { s.put MEM_PLT_CNT_LKMISS_VALUE v with cache := c, free := n } := by
  unfold State.lookup
  extract_lets keys
  by_cases hhit : (!s.on MEM_PLT_CTRL_READY || keys.all s.cache.contains) = true
  · exact .inl (if_pos hhit)
  · obtain ⟨c, n, h⟩ := foldl_cacheFill (s.countWrap MEM_PLT_CNT_LKMISS_VALUE 1) keys
    exact .inr ⟨_, c, n, (if_neg hhit).trans h⟩

@[simp] theorem mem_lookup (s : State) (a : Nat) : (s.lookup a).mem = s.mem := by
  obtain h | ⟨v, c, n, h⟩ := lookup_cases s a <;> rw [h]
  rfl

theorem rd_lookup (s : State) {a b : Nat} (hb : b ≠ MEM_PLT_CNT_LKMISS) : (s.lookup a).rd b = s.rd b := by
  obtain h | ⟨v, c, n, h⟩ := lookup_cases s a <;> rw [h]
  exact s.rd_put_ne MEM_PLT_CNT_LKMISS_VALUE v b hb

@[simp] theorem hostUp_lookup (s : State) (a : Nat) : hostUp (s.lookup a) = hostUp s := by
  rw [hostUp, hostUp, State.on, State.on, State.get, State.get, rd_lookup s (by decide)]

theorem runPieces_of_home {s : State} {ctx addr len i : Nat} {write : Bool} {e : PltEntry}
    (h : resolve s true ctx addr len write = .ok (i, e)) (home : AtHome s e) : runPieces s ctx addr len write = [(addr, len)] := by
  simp [runPieces, h, home.notPromoting, home.notEvicting]

theorem engineWrite_of_home {s : State} {init ctx addr i : Nat} {e : PltEntry} {bs : List Byte}
    (h : resolve s true ctx addr bs.length true = .ok (i, e)) (home : AtHome s e) :
    (engineWrite s init ctx addr bs).1 = ((s.lookup addr).store (objPlace e (addr - e.base * 65536)) bs).unpoison
      (objPlace e (addr - e.base * 65536)) bs.length := by
  have hcopy (ofs : Nat) : inCopy e ofs = false := by simp [inCopy, home.notPromoting, home.notEvicting]
  have hup : ¬ (e.tier = 4 ∧ hostUp s = false) := fun hu => by simp [home.host hu.1] at hu
  simp [engineWrite, runPieces_of_home h home, engineWriteOne, h, hup, objWrite, hcopy, home.notPromoting, home.notEvicting]

theorem mem_engineWrite {s : State} {init ctx addr i : Nat} {e : PltEntry} {bs : List Byte}
    (h : resolve s true ctx addr bs.length true = .ok (i, e)) (home : AtHome s e) :
    (engineWrite s init ctx addr bs).1.mem = (s.store (objPlace e (addr - e.base * 65536)) bs).mem := by
  rw [engineWrite_of_home h home]
  simp [State.store, State.unpoison]

@[simp] theorem plt_lookup (s : State) (a : Nat) : (s.lookup a).plt = s.plt := by
  obtain h | ⟨v, c, n, h⟩ := lookup_cases s a <;> rw [h]
  rfl

theorem plt_engineWrite {s : State} {init ctx addr i : Nat} {e : PltEntry} {bs : List Byte}
    (h : resolve s true ctx addr bs.length true = .ok (i, e)) (home : AtHome s e) :
    (engineWrite s init ctx addr bs).1.plt = s.plt := by
  rw [engineWrite_of_home h home]
  simp [State.store, State.unpoison]

theorem rd_engineWrite {s : State} {init ctx addr i a : Nat} {e : PltEntry} {bs : List Byte}
    (h : resolve s true ctx addr bs.length true = .ok (i, e)) (home : AtHome s e) (ha : a ≠ MEM_PLT_CNT_LKMISS) :
    (engineWrite s init ctx addr bs).1.rd a = s.rd a := by
  rw [engineWrite_of_home h home]
  exact rd_lookup s ha

/-- A resolution reads the placement table, its READY and the windows of the contexts. -/
theorem resolve_congr {s t : State} (hplt : t.plt = s.plt) (hrd : ∀ a, a ≠ MEM_PLT_CNT_LKMISS → t.rd a = s.rd a) (small : Bool)
    (ctx addr len : Nat) (write : Bool) : resolve t small ctx addr len write = resolve s small ctx addr len write := by
  have hobj (u : Nat) : objectAt t u = objectAt s u := by
    rw [objectAt, objectAt, hplt, State.on, State.on, State.get, State.get, hrd _ (by decide)]
  have hwin (a : Nat) : inWindow t ctx a = inWindow s ctx a := by
    have hne : (SCH_CTX_WIN_BASE ctx).addr ≠ MEM_PLT_CNT_LKMISS := by
      simp only [SCH_CTX_WIN_BASE, SCH_CTX_WIN, MEM_PLT_CNT_LKMISS]
      omega
    rw [inWindow, inWindow, State.get, State.get, State.get, State.get, hrd _ hne,
      hrd (SCH_CTX_WIN_LIMIT ctx).addr hne]
  simp only [resolve, hobj, hwin]

end Sys2Proof.Machine
end
section
/-! A READ of the placement table on a memory that is not in canonical form. -/

namespace Sys2Proof.Machine

open Sys2Proof Sys2Proof.Machine.Reg Sys2Proof.Tests

/-- A READ of object 3 at the head of the ring, with a stray byte where the last byte of its entry goes. -/
def strayRead : State := (sPlt (reqBytes 7 3 0 0) [(3, obj1)]).strayByte (tierPlace 2 200 63)

/-- Refutes O17: memory is any list of cells, and in one that is not in canonical form the zero bytes of the entry that READ
copies are not all read back. -/
theorem not_placementRequestsActOrRefuse : ¬ Obligations.PlacementRequestsActOrRefuse := by
  intro h
  have hhead : (headRequest strayRead).map (fun x => (badRequest x.1, x.2.op, x.2.obj, x.2.slot)) = some (false, 7, 3, 0) := by
    decide
  obtain ⟨⟨bs, r⟩, hr, hx⟩ := Option.map_eq_some_iff.mp hhead
  simp only [Prod.mk.injEq] at hx
  obtain ⟨hbad, hop, hobj, hslot⟩ := hx
  obtain ⟨-, -, -, -, hread⟩ := h.1 strayRead bs r (by decide) hr hbad (by rw [hobj]; decide)
  obtain ⟨t, hs, -, hload, -⟩ := (hread obj1 hop (by rw [hobj]; decide)).settled rfl (by decide)
  have hplace : ringSlotPlace t r.slot = tierPlace 2 200 0 := by
    rw [ringSlotPlace, hs.plt, hs.get _ (by decide) (by decide), hslot]
    decide
  rw [hplace, hs.load] at hload
  exact absurd hload (by decide)

end Sys2Proof.Machine
end
section
/-! An admission on a memory that is not in canonical form. -/

namespace Sys2Proof.Machine

open Sys2Proof Sys2Proof.Machine.Reg Sys2Proof.Tests

set_option maxRecDepth 10000

/-- A page table at address 0 that can be admitted to pool 2, with a stray byte in its admission number. -/
def strayPageTable : State := (sPoolIdle 0 (poolW [] [])).strayByte (areaBase 2 + 8)

/-- Refutes O20: in a memory that is not in canonical form the zero bytes of the admission number that an admission writes
are not all read back. -/
theorem not_pagePoolsAdmitRetireAndServe : ¬ Obligations.PagePoolsAdmitRetireAndServe := by
  intro h
  obtain ⟨-, -, hadmit, -⟩ := h strayPageTable 2 (by decide) (by decide)
  have hroom : (poolOf strayPageTable 2).seqs.length < 4096 := by
    have hnone : (poolOf strayPageTable 2).seqs.length = 0 := by decide
    omega
  obtain ⟨t, hs, -, -, -, hnumber, -⟩ :=
    (hadmit (.app 0) 0#64 0 1 obj1 _ (by decide) rfl (by decide) (by decide) (by decide) rfl (by decide) (by decide)
      (by decide) rfl (by decide) (by decide) hroom (by decide)).settled rfl (by decide)
  rw [hs.load] at hnumber
  exact absurd hnumber (by decide)

end Sys2Proof.Machine
end
section
/-! The common grid on a memory that is not in canonical form. -/

namespace Sys2Proof.Machine

open Sys2Proof Sys2Proof.Machine.Reg Sys2Proof.Tests

set_option maxRecDepth 10000

theorem length_flatMap_range {α : Type} {f : Nat → List α} {k : Nat} (n : Nat) (h : ∀ i, (f i).length = k) :
    ((List.range n).flatMap f).length = n * k := by
  simp [List.length_flatMap, h]

/-- The weight plane of a grid without points: 65,536 FP16 zeros. -/
def zeroWeights : List Byte := (List.range 65536).flatMap fun _ => leBytes 2 (fp16Code f0)

/-- The feature plane of a grid of `nf` features without points. -/
def zeroFeatures (nf : Nat) : List Byte := (List.range 65536).flatMap fun _ =>
  if fp16Code f0 = 0 then List.replicate (2 * nf) 0#8
  else (List.range nf).flatMap fun k => leBytes 2 (fp16Code (tgetD [] k f0))

theorem length_zeroWeights : zeroWeights.length = 131072 := length_flatMap_range 65536 fun _ => rfl

theorem length_zeroFeatures (nf : Nat) : (zeroFeatures nf).length = nf * 131072 := by
  have hcode : fp16Code f0 = 0 := by decide
  rw [zeroFeatures, length_flatMap_range (k := 2 * nf) 65536 fun _ => by rw [if_pos hcode, List.length_replicate]]
  omega

theorem getElem?_zeroWeights : zeroWeights[0]? = some 0#8 := by
  have hcode : fp16Code f0 = 0 := by decide
  rw [zeroWeights, List.range_succ_eq_map (n := 65535), List.flatMap_cons, hcode, List.getElem?_append_left (by decide)]
  rfl

/-- The snapshot instant of the next grid. -/
def gridCutAt (s : State) : Int := presented s (nextGrid s) - (s.get FUS_CUT_GRID * 1000 * 65536 : Nat)

/-- A grid without points has been written behind the snapshot of the channels. -/
def zeroGridWritten (s : State) : State :=
  let r := snapAll s s.fus.lastSlot (gridCutAt s) fun d => chKind d == 5
  let buf := gridBuf s (1 - s.get FUS_GRID_CUR_BUF)
  (engineWrite (engineWrite r 5 0 (buf + 65536) zeroWeights).1 5 0 (buf + 196608) (zeroFeatures (s.get FUS_GRID_NF))).1

theorem zeroGridWritten_eq {s : State} {buf nf : Nat} (hbuf : gridBuf s (1 - s.get FUS_GRID_CUR_BUF) = buf)
    (hnf : s.get FUS_GRID_NF = nf) : zeroGridWritten s =
      (engineWrite (engineWrite (snapAll s s.fus.lastSlot (gridCutAt s) fun d => chKind d == 5) 5 0 (buf + 65536) zeroWeights).1 5 0
        (buf + 196608) (zeroFeatures nf)).1 := by
  subst hbuf hnf
  rfl

/-- Where no FEATURE channel is enabled, a grid snapshot writes the two planes of zeros. -/
theorem exec_gridSnapshot_of_no_feature {s : State} {tab : FusTables} (htab : s.fus.tables = some tab)
    (hready : s.on FUS_CTRL_READY = true) (hnf : s.get FUS_GRID_NF ≠ 0) (hgrid : s.fus.grid = none)
    (hdue : nextGrid s ≤ s.accNs + s.get FUS_CUT_GRID * 1000)
    (hnone : ((List.range 64).filter fun n => chEn (chanDesc s n) && chKind (chanDesc s n) == 5) = []) :
    ∃ u, exec .gridSnapshot s = finish s u ∧ u.mem = (zeroGridWritten s).mem := by
  refine ⟨{ zeroGridWritten s with
    fus := { (zeroGridWritten s).fus with grid := some (nextGrid s, 0), lastGrid := some (gridCutAt s) } }, congrArg (finish s) ?_, rfl⟩
  simp only [htab]
  rw [if_neg (by simp [hready, hnf, hgrid, hdue]), hnone]
  rfl

/-- The object that holds the grid. -/
def gridObj : PltEntry := { obj1 with base := 0, size := 32, ctx := 0 }

/-- The first place of its weight plane. -/
def gridPlace : Nat := objPlace gridObj (327680 + 65536 - gridObj.base * 65536)

/-- A grid is due, with a stray byte in that place. -/
def strayGrid : State := sGrid.strayByte gridPlace

theorem gridBuf_strayGrid : gridBuf strayGrid (1 - strayGrid.get FUS_GRID_CUR_BUF) = 327680 := by decide

theorem nf_strayGrid : strayGrid.get FUS_GRID_NF = 1 := by decide

theorem no_feature_strayGrid :
    ((List.range 64).filter fun n => chEn (chanDesc strayGrid n) && chKind (chanDesc strayGrid n) == 5) = [] := by decide

/-- The channels' snapshot before the grid is built. -/
def strayGridRead : State := snapAll strayGrid strayGrid.fus.lastSlot (gridCutAt strayGrid) fun d => chKind d == 5

theorem atHome_gridObj (s : State) : AtHome s gridObj := ⟨by decide, by decide, fun h => absurd h (by decide)⟩

theorem resolve_zeroWeights : resolve strayGridRead true 0 (327680 + 65536) zeroWeights.length true = .ok (1, gridObj) := by
  rw [length_zeroWeights]
  exact (resolve_congr (s := strayGrid) rfl (fun _ _ => rfl) _ _ _ _ _).trans rfl

theorem resolve_zeroFeatures : resolve (engineWrite strayGridRead 5 0 (327680 + 65536) zeroWeights).1 true 0 (327680 + 196608)
    (zeroFeatures 1).length true = .ok (1, gridObj) := by
  have hhome := atHome_gridObj strayGridRead
  rw [length_zeroFeatures]
  exact ((resolve_congr (plt_engineWrite resolve_zeroWeights hhome) (fun _ ha => rd_engineWrite resolve_zeroWeights hhome ha)
    _ _ _ _ _).trans (resolve_congr (s := strayGrid) rfl (fun _ _ => rfl) _ _ _ _ _)).trans rfl

/-- The first byte of the weight plane still reads 1 when both planes have been written. -/
theorem memGet_zeroGridWritten_strayGrid : memGet (zeroGridWritten strayGrid).mem gridPlace = 1#8 := by
  have hbefore : gridPlace < objPlace gridObj (327680 + 196608 - gridObj.base * 65536) := by decide
  have hstray (p : Nat) : memGet ((sGrid.strayByte p).store p zeroWeights).mem p = 1#8 :=
    memGet_store_strayByte (i := 0) getElem?_zeroWeights (by rw [length_zeroWeights]; decide)
  calc memGet (zeroGridWritten strayGrid).mem gridPlace
      = memGet (engineWrite strayGridRead 5 0 (327680 + 65536) zeroWeights).1.mem gridPlace := by
        rw [zeroGridWritten_eq gridBuf_strayGrid nf_strayGrid, ← strayGridRead,
          mem_engineWrite resolve_zeroFeatures (atHome_gridObj _)]
        exact State.store_out _ _ _ _ (.inl hbefore)
    _ = 1#8 := by
      rw [mem_engineWrite resolve_zeroWeights (atHome_gridObj _), ← gridPlace]
      exact hstray gridPlace

/-- Refutes O26: in a memory that is not in canonical form the zeros of a grid without points are not all read back. -/
theorem not_instantsSnapshotsCommitAndProblem : ¬ Obligations.InstantsSnapshotsCommitAndProblem := by
  intro h
  have hnone (n : Nat) (hn : n < 64) (hen : chEn (chanDesc strayGrid n) = true) : chKind (chanDesc strayGrid n) ≠ 5 := by
    have := List.filter_eq_nil_iff.mp no_feature_strayGrid n (List.mem_range.mpr hn)
    simpa [hen] using this
  obtain ⟨-, -, hgrid⟩ := h.1 strayGrid _ (by decide) rfl
  obtain ⟨-, hplanes⟩ := hgrid (by decide) (by decide) rfl (by decide)
  rw [gridBuf_strayGrid, nf_strayGrid] at hplanes
  obtain ⟨u, hu, humem⟩ :=
    exec_gridSnapshot_of_no_feature (s := strayGrid) rfl (by decide) (by decide) rfl (by decide) no_feature_strayGrid
  obtain ⟨t, hs, -, hmem⟩ := (hplanes 1 gridObj hnone rfl rfl (by decide) (by decide) (by decide)).settled hu (by decide)
  have hin (p : Nat) : p ≤ p ∧ p < p + 131072 + 1 * 131072 := by omega
  have hzero := hmem gridPlace gridPlace rfl
  rw [hs.mem, humem, if_pos (hin gridPlace), memGet_zeroGridWritten_strayGrid] at hzero
  exact absurd hzero (by decide)

end Sys2Proof.Machine
end
section
/-! The result of a solver problem on a memory that is not in canonical form. -/

namespace Sys2Proof.Machine

open Sys2Proof Sys2Proof.Machine.Reg Sys2Proof.Tests

set_option maxRecDepth 10000

theorem length_padBytes (n : Nat) (bs : List Byte) : (padBytes n bs).length = n := by
  simp only [padBytes, List.length_append, List.length_take, List.length_replicate]
  omega

theorem length_resultBytes (r : SlvResult) : (resultBytes r).length = 320 := length_padBytes _ _

/-- Bytes 28 to 31 of a result are zero (R342). -/
theorem getElem?_resultBytes (r : SlvResult) (bs : List Byte) : (resultBytes r ++ bs)[28]? = some 0#8 := by
  rw [List.getElem?_append_left (by rw [length_resultBytes]; decide)]
  simp [resultBytes, padBytes, wordBytes, leBytes]

/-- A batch whose engine 0 is done with its one problem. -/
def batchDone : Batch := { batchOf 0 0 false with engines := [(0, (0, 0))] }

/-- The result of that problem goes to address 0x2000, with a stray byte in it. -/
def strayResult : State := (sBatch 0 false [(0, (0, 0))]).strayByte (objPlace obj1 0x2000 + 28)

/-- Refutes O28: in a memory that is not in canonical form the zero bytes of a problem's result are not all read back. -/
theorem not_solverBatchesAndProblems : ¬ Obligations.SolverBatchesAndProblems := by
  intro h
  obtain ⟨u, r, hsolve⟩ : ∃ u r, solveDense (strayResult.countWrap SLV_CNT_STALL_VALUE (engineEnd strayResult 0 - 0))
    batchDone.desc 0 = (u, r) := ⟨_, _, rfl⟩
  have hlen : (resultBytes r ++ r.tail.flatMap wordBytes).length = 320 := by
    have htail : r.tail = [] := by
      rw [← congrArg (·.2.tail) hsolve]
      decide
    rw [List.length_append, length_resultBytes, htail]
    rfl
  obtain ⟨t, hs, -, -, -, hresult, -⟩ :=
    ((h.2 strayResult (by decide)).1 0 0 0 batchDone _ u r rfl rfl (by decide) rfl (fun _ => hsolve)
      (fun hm => absurd hm (by decide))).settled rfl (by decide)
  obtain ⟨hload, hmem⟩ := hresult 1 { obj1 with ctx := 0 } (by rw [hlen]; rfl) (by constructor <;> decide)
  exact load_store_strayByte_ne (s := sBatch 0 false [(0, (0, 0))]) (p := objPlace obj1 0x2000) (hmem (by decide) _)
    (getElem?_resultBytes _ _) (by rw [hlen]; decide) hload

end Sys2Proof.Machine
end
section
/-! The record of a Trellis request on a memory that is not in canonical form. -/

namespace Sys2Proof.Machine

open Sys2Proof Sys2Proof.Machine.Reg Sys2Proof.Tests

set_option maxRecDepth 10000

/-- A request that breaks the rules, with a stray byte in the place of its record. -/
def strayRequest : State := (sTrl (reqW 9 50000) id).strayByte (objPlace obj1 0x4001)

/-- Refutes O29: in a memory that is not in canonical form the zero bytes of the record that refuses a request are not all
read back. -/
theorem not_trellisRequestsAndPlans : ¬ Obligations.TrellisRequestsAndPlans := by
  intro h
  obtain ⟨-, hrefused, -⟩ := h.1 strayRequest (trlRead strayRequest 0 64).1 0 (trlRead strayRequest 0 64).2
    (by decide) (by decide) (by decide) rfl (by decide) (by decide) (by decide) rfl
  obtain ⟨t, hs, hplan, -⟩ := (hrefused { Tests.reqOf 0 [] 0 with bytes := reqW 9 50000 } (by decide) (by decide)
    (by decide)).settled rfl (by decide)
  have hload := hplan.written 1 { obj1 with ctx := 0 } (by rw [hs.ecs]; rfl) (by constructor <;> decide)
  rw [hs.load, hs.ecs] at hload
  exact absurd hload (by decide +kernel)

end Sys2Proof.Machine
end
section
/-! The record of a request that waits for a bank, on a memory that is not in canonical form. -/

namespace Sys2Proof.Machine

open Sys2Proof Sys2Proof.Machine.Reg Sys2Proof.Tests

set_option maxRecDepth 10000

/-- A bank that breaks its rules is loaded while a request waits, with a stray byte in the place of the request's record. -/
def strayBank : State :=
  (sTrlReq (Tests.reqOf 0 [] 0) fun t => { t with load := some (0, 0) }).strayByte (objPlace obj1 0x4001)

/-- Refutes O30: in a memory that is not in canonical form the zero bytes of the record that answers a request whose bank is
refused are not all read back. -/
theorem not_searchBanksAndTrellisEnable : ¬ Obligations.SearchBanksAndTrellisEnable := by
  intro h
  obtain ⟨-, -, -, hload, -⟩ := h.2 strayBank (.app 0) 0#64 (by decide)
  obtain ⟨hrefused, -⟩ := hload 0 0 _ _ _ _ _ _ _ _ _ _ _ rfl (by decide) rfl rfl rfl rfl rfl rfl
  obtain ⟨t, hs, -, -, -, -, -, hplan, -⟩ := (hrefused (by decide +kernel)).settled rfl (by decide)
  have hread := (hplan _ rfl).written 1 { obj1 with ctx := 0 } (by rw [hs.ecs]; rfl) (by constructor <;> decide)
  rw [hs.load, hs.ecs] at hread
  exact absurd hread (by decide +kernel)

end Sys2Proof.Machine
end
section
/-! A loop's report on a memory that is not in canonical form. -/

namespace Sys2Proof.Machine

open Sys2Proof Sys2Proof.Machine.Reg Sys2Proof.Tests

set_option maxRecDepth 10000

/-- Loop 3 has an output waiting, with a stray byte in the place of its report's sequence number. -/
def strayReport : State := (sOut false).strayByte (objPlace obj1 193)

/-- Refutes O35: in a memory that is not in canonical form the zero bytes of a report's sequence number are not all read
back. -/
theorem not_loopOutputsEnablesAndPlaus : ¬ Obligations.LoopOutputsEnablesAndPlaus := by
  intro h
  obtain ⟨happly, -⟩ := h strayReport 3 (by decide) (by decide)
  obtain ⟨t, hs, -, -, -, -, -, hreport, -⟩ := (happly (outW false) (by decide) (by decide)).settled rfl (by decide)
  obtain ⟨hseq, -⟩ := hreport 1 { obj1 with ctx := 0 } rfl (by constructor <;> decide)
  rw [State.loadNat, hs.load] at hseq
  exact absurd hseq (by decide +kernel)

end Sys2Proof.Machine
end
section
/-! The answer to a request of the Sluice on a memory that is not in canonical form. -/

namespace Sys2Proof.Machine

open Sys2Proof Sys2Proof.Machine.Reg Sys2Proof.Tests

set_option maxRecDepth 10000

/-- A CANCEL of ARMED lane 2 in slot 0 of the ring, with a stray byte in the place of its time. -/
def strayCancel : State := (sSlcReq 2 3 Lane.idle (3 + 512)).strayByte (objPlace obj1 31)

/-- Refutes O37: in a memory that is not in canonical form the zero bytes of the time in a request's answer are not all read
back. -/
theorem not_sluiceRequestsAreTaken : ¬ Obligations.SluiceRequestsAreTaken := by
  intro h
  obtain ⟨-, -, -, hcancel, -⟩ := (h strayCancel (by decide)).1 _ _ _ rfl
  obtain ⟨t, hs, -, -, hanswer, -⟩ := (hcancel (by decide) (by decide)).settled rfl (by decide)
  obtain ⟨-, htime⟩ := hanswer.2 1 { obj1 with ctx := 0 } (by decide) (by rfl) (by decide) (by decide) (by constructor <;> decide)
  rw [State.loadNat, hs.load] at htime
  exact absurd htime (by decide +kernel)

end Sys2Proof.Machine
end
section
/-! The answer that ends an arming check, on a memory that is not in canonical form. -/

namespace Sys2Proof.Machine

open Sys2Proof Sys2Proof.Machine.Reg Sys2Proof.Tests

set_option maxRecDepth 10000

/-- The check of lane 2 is over and its request in slot 1 of the ring is answered, with a stray byte in the place of the
answer's time. -/
def strayCheck : State := (sCheck true).strayByte (objPlace obj1 (64 + 31))

/-- Refutes O38: in a memory that is not in canonical form the zero bytes of the time in the answer that ends a check are not
all read back. -/
theorem not_fillsChecksArmingAndStaleness : ¬ Obligations.FillsChecksArmingAndStaleness := by
  intro h
  obtain ⟨-, hcheck, -⟩ := h.2 strayCheck 2 (by decide) (by decide)
  obtain ⟨hgood, -⟩ := hcheck 5 2 (some (64, true)) (by decide) rfl (by decide) (by decide)
  obtain ⟨t, hs, -, -, -, -, hanswer, -⟩ := (hgood (by decide)).settled rfl (by decide)
  obtain ⟨-, htime⟩ := (hanswer _ rfl).2 1 { obj1 with ctx := 0 } (by decide) (by rfl) (by decide) (by decide)
    (by constructor <;> decide)
  rw [State.loadNat, hs.load] at htime
  exact absurd htime (by decide +kernel)

end Sys2Proof.Machine
end
section
/-! A frame that writes the SubDevice's memory, where that is not in canonical form. -/

namespace Sys2Proof.Machine

open Sys2Proof Sys2Proof.Machine.Reg Sys2Proof.Tests

set_option maxRecDepth 10000

/-- A datagram that writes four zero bytes at 0x120 of this station. -/
def zeroDatagram : Datagram := { dgW 5 with data := [0#8, 0#8, 0#8, 0#8] }

def zeroFrame : List Byte := List.replicate 12 0#8 ++ [0x88#8, 0xA4#8] ++ leBytes 2 0x1010 ++ zeroDatagram.bytes

/-- The station, with a stray byte where the first of them goes. -/
def strayStation : State := (sEcs 2).strayByte (escPlace 0x120)

/-- Refutes O42: in a memory that is not in canonical form a zero byte that a datagram writes is not read back. -/
theorem not_subdevicePassesAndProcessesFrames : ¬ Obligations.SubdevicePassesAndProcessesFrames := by
  intro h
  obtain ⟨-, -, hframe⟩ := (h strayStation 0 zeroFrame (by decide) (by decide)).1 (by decide)
  obtain ⟨-, hwrite⟩ := hframe zeroDatagram (.inl rfl) (by decide) (by decide) (by decide)
  obtain ⟨t, hs, -, hstored, -⟩ := (hwrite rfl (by decide) (by decide)).settled rfl (by decide)
  have hread := hstored 0 (by decide) (by decide)
  rw [hs.mem] at hread
  exact absurd hread (by decide +kernel)

end Sys2Proof.Machine
end
section
/-! The answer to a mailbox request, where the SubDevice's memory is not in canonical form. -/

namespace Sys2Proof.Machine

open Sys2Proof Sys2Proof.Machine.Reg Sys2Proof.Tests

set_option maxRecDepth 10000

/-- An upload waits in SM0, with a stray byte in the last place of SM1. -/
def strayMailbox : State := (sMbx 0).strayByte (escPlace 0x13FF)

/-- Refutes O43: in a memory that is not in canonical form the zero bytes that fill up the answer to a mailbox request are not
all read back. -/
theorem not_subdeviceStatesAndMailbox : ¬ Obligations.SubdeviceStatesAndMailbox := by
  intro h
  obtain ⟨hrequest, -⟩ := h.2 strayMailbox (by decide)
  obtain ⟨hupload, -⟩ := hrequest _ 0x1018 1 (leBytes 4 0x05A1) rfl rfl (by decide) rfl
  obtain ⟨t, hs, -, -, -, -, hload, -⟩ := (hupload (by decide) (by decide) (by decide +kernel) (by decide +kernel) (by decide +kernel)
    (by decide +kernel) (by decide +kernel) (by decide +kernel) (by rfl) (by decide) (by decide)).settled rfl (by decide)
  rw [hs.load] at hload
  exact absurd hload (by decide +kernel)

end Sys2Proof.Machine
end
section
/-! A buffer of process data, where the SubDevice's memory is not in canonical form. -/

namespace Sys2Proof.Machine

open Sys2Proof Sys2Proof.Machine.Reg Sys2Proof.Tests

set_option maxRecDepth 10000

/-- The SubDevice in OP, with a stray byte in the first place of SM2. -/
def strayBuffer : State := (sEcs 8).strayByte (escPlace 0x1400)

/-- Refutes O44: in a memory that is not in canonical form a zero byte of a buffer of process data is not read back. -/
theorem not_processDataIsExchanged : ¬ Obligations.ProcessDataIsExchanged := by
  intro h
  obtain ⟨hbuffer, -⟩ := h strayBuffer (by decide)
  obtain ⟨t, hs, -, -, hkept, -⟩ := (hbuffer (List.replicate 8 0#8) (by decide) (by decide)).settled rfl (by decide)
  obtain ⟨-, hload, -⟩ := hkept (by decide)
  rw [hs.load] at hload
  exact absurd hload (by decide +kernel)

end Sys2Proof.Machine
end
section
/-! A received Ethernet frame on a memory that is not in canonical form. -/

namespace Sys2Proof.Machine

open Sys2Proof Sys2Proof.Machine.Reg Sys2Proof.Tests

set_option maxRecDepth 10000

/-- Port 1 with a stray byte in the length of its next receive descriptor. -/
def strayDescriptor : State := sEth.strayByte (objPlace obj1 9)

/-- Refutes O46: in a memory that is not in canonical form a zero byte of the length that reception writes into its descriptor
is not read back. -/
theorem not_ethernetReceivesAndSends : ¬ Obligations.EthernetReceivesAndSends := by
  intro h
  obtain ⟨-, hrx, -⟩ := h strayDescriptor 1 0 ptpFrame (by decide) (by decide)
  obtain ⟨-, haccept⟩ := hrx (by decide) (by decide) (by decide)
  obtain ⟨t, hs, -, -, -, hwritten, -⟩ := (haccept _ _ (by decide) (by decide) (by decide) rfl).settled rfl (by decide)
  obtain ⟨hload, -⟩ := hwritten 1 { obj1 with ctx := 0 } rfl (by constructor <;> decide)
  rw [hs.load] at hload
  exact absurd hload (by decide +kernel)

end Sys2Proof.Machine
end
section
/-! A loaded image on a memory that is not in canonical form. -/

namespace Sys2Proof.Machine

open Sys2Proof Sys2Proof.Machine.Reg Sys2Proof.Tests

set_option maxRecDepth 50000

/-- Image 0 holds one section of four zero bytes for the start of the shared memory, with a stray byte in that place. -/
def straySection : State :=
  (((sBoot true).store (imagePlace 0 + 18) [1#8]).store (imagePlace 0 + 512) (leBytes 4 2 ++ leBytes 4 0 ++ leBytes 4 4)).strayByte
    (destPlace 2 0 0)

theorem header_straySection : let h := straySection.load (imagePlace 0) 20480
    sectionsOf h = [{ dest := 2, hart := 0, dofs := 0, len := 4 }] ∧
      sha384 (straySection.load (imagePlace 0 + 20480) (leField h 20 4)) = slice h 32 79 := by
  decide +kernel

/-- Refutes O51: in a memory that is not in canonical form the zero bytes of a section that the boot ROM loads are not all read
back. -/
theorem not_startUpFollowsItsInstants : ¬ Obligations.StartUpFollowsItsInstants := by
  intro h
  obtain ⟨hsections, hdigest⟩ := header_straySection
  obtain ⟨-, -, -, -, hboot⟩ := h straySection
  obtain ⟨-, hgood⟩ := hboot 0 [1] _ (by decide) rfl (by decide) rfl
  obtain ⟨t, hs, -, -, -, -, -, -, -, -, -, -, -, hload, -⟩ :=
    (hgood (by rw [hsections]; decide) hdigest).settled rfl (by decide)
  have hread := hload _ hsections
  rw [hs.load] at hread
  exact absurd hread (by decide +kernel)

end Sys2Proof.Machine
end
section
/-! A bad flit on a link that expects a SEQ beyond its twelve bits. -/

namespace Sys2Proof.Machine

open Sys2Proof Sys2Proof.Machine.Reg Sys2Proof.Tests

set_option maxRecDepth 10000

/-- Link 0 is up and expects SEQ 4096, which no flit carries. -/
def wideLink : State := withLink (sCwy 3 1) 0 { CwyLink.idle with rxSeq := 4096 }

/-- Refutes O49: a link whose expected SEQ does not fit its field notes the discarded flit under another SEQ. -/
theorem not_linksReplayAndRetrain : ¬ Obligations.LinksReplayAndRetrain := by
  intro h
  obtain ⟨-, -, -, hbad, -⟩ := (h wideLink 0 (by decide) (by decide)).1 [] (by decide) (by decide) (by decide)
  obtain ⟨t, hs, -, hnoted, -⟩ := (hbad (by decide)).settled rfl (by decide)
  have hnak := hnoted (by decide)
  rw [cwyLink, hs.cwy] at hnak
  exact absurd hnak (by decide +kernel)

end Sys2Proof.Machine
end
section
/-! An attestation record on a memory that is not in canonical form. -/

namespace Sys2Proof.Machine

open Sys2Proof Sys2Proof.Machine.Reg Sys2Proof.Tests

set_option maxRecDepth 10000

theorem length_attestRecord (s : State) (nonce : List Byte) : (attestRecord s nonce).length = 17632 := by
  rw [attestRecord, attestBody, List.length_append, List.length_append, length_padBytes, length_padBytes, length_padBytes]

/-- Bytes 20 to 23 of an attestation record are zero (R530). -/
theorem getElem?_attestRecord (s : State) (nonce : List Byte) : (attestRecord s nonce)[20]? = some 0#8 := by
  rw [attestRecord, attestBody, List.append_assoc, List.getElem?_append_left (by rw [length_padBytes]; decide)]
  simp [padBytes, leBytes]

theorem mem_pertSettle (s : State) : (pertSettle s).mem = s.mem := by
  unfold pertSettle
  split <;> rfl

/-- An ATTEST with its record at address 0 is to end. -/
def attesting : State := sSec (opW 2 1 [])

/-- The same with a stray byte in the place of its record. -/
def strayAttest : State := attesting.strayByte (objPlace obj1 20)

/-- Refutes O56: in a memory that is not in canonical form the zero bytes of an attestation record are not all read back. -/
theorem not_securityOperationsEnd : ¬ Obligations.SecurityOperationsEnd := by
  intro h
  obtain ⟨-, hdone⟩ := h strayAttest (opW 2 1 []) (by decide) rfl (by constructor <;> decide)
  obtain ⟨-, -, hattest, -⟩ := hdone rfl (.inr (by decide))
  have hresolve : resolve strayAttest true 0 0 (attestRecord strayAttest []).length true = .ok (1, { obj1 with ctx := 0 }) := by
    rw [length_attestRecord]
    rfl
  have hhome : AtHome strayAttest { obj1 with ctx := 0 } := by constructor <;> decide
  obtain ⟨t, ht, hload, -⟩ := hattest 1 { obj1 with ctx := 0 } _ (.inl ⟨by decide, rfl⟩) hresolve hhome
  obtain ⟨t', ht', hs⟩ := finishFuses_spec (fusesDone strayAttest) strayAttest _ (by decide)
  obtain rfl := Host.Outcome.next.inj (ht'.symm.trans ht)
  have hmem : t'.mem = (strayAttest.store (objPlace { obj1 with ctx := 0 } 0) (attestRecord strayAttest [])).mem :=
    hs.mem.trans ((mem_pertSettle _).trans (mem_engineWrite hresolve hhome))
  exact load_store_strayByte_ne (s := attesting) (p := objPlace obj1 0) (by rw [hmem]; rfl) (getElem?_attestRecord _ _)
    (by rw [length_attestRecord]; decide) hload

end Sys2Proof.Machine
end
section
/-! What an effect leaves unchanged, composed update by update, and what a field reads after an update of another. -/

namespace Sys2Proof.Machine

open Sys2Proof Sys2Proof.Machine.Reg

/-! ### Tables -/

@[simp] theorem tget_tdel_same {α : Type} (t : Tbl α) (k : Nat) : tget (tdel t k) k = none := by
  induction t with
  | nil => rfl
  | cons p t ih =>
    obtain ⟨j, a⟩ := p
    by_cases h : j = k
    · rw [tdel, List.filter_cons_of_neg (by simp [h])]
      exact ih
    · rw [tdel, List.filter_cons_of_pos (by simp [h]), tget, if_neg (Ne.symm h)]
      exact ih

theorem tget_tdel_ne {α : Type} (t : Tbl α) {k j : Nat} (h : j ≠ k) : tget (tdel t k) j = tget t j := by
  induction t with
  | nil => rfl
  | cons p t ih =>
    obtain ⟨i, a⟩ := p
    by_cases hi : i = k
    · rw [tdel, List.filter_cons_of_neg (by simp [hi]), tget, if_neg (fun he => h (he.trans hi))]
      exact ih
    · rw [tdel, List.filter_cons_of_pos (by simp [hi]), tget, tget]
      exact congrArg (fun r => if j = i then some a else r) ih

/-! ### Fields apart -/

/-- An update of `f` leaves `g`: they lie in other registers or in other bits. -/
abbrev Apart (f g : Fld) : Prop := g.addr ≠ f.addr ∨ (f.lo ≤ f.hi ∧ f.hi < 64 ∧ (g.hi < f.lo ∨ f.hi < g.lo))

/-- A field of a register: bits in order, within 64. -/
abbrev ValidFld (f : Fld) : Prop := f.lo ≤ f.hi ∧ f.hi < 64

namespace State

variable {s : State} {f g : Fld}

@[simp] theorem get_put_apart (h : Apart f g) (v : Nat) : (s.put f v).get g = s.get g := by
  by_cases he : g.addr = f.addr
  · obtain ⟨hlo, hhi, hd⟩ := h.resolve_left (not_not.mpr he)
    exact get_put_other s f g v he hlo hhi hd
  · exact get_put_ne s f g v he

@[simp] theorem get_setOn_apart (h : Apart f g) : (s.setOn f).get g = s.get g := get_put_apart h 1

@[simp] theorem get_setOff_apart (h : Apart f g) : (s.setOff f).get g = s.get g := get_put_apart h 0

@[simp] theorem get_count_apart (h : Apart f g) (d : Nat) : (s.count f d).get g = s.get g := get_put_apart h _

@[simp] theorem get_countWrap_apart (h : Apart f g) (d : Nat) : (s.countWrap f d).get g = s.get g := get_put_apart h _

@[simp] theorem get_wr_ne {a : Nat} (h : g.addr ≠ a) (v : Word64) : (s.wr a v).get g = s.get g := by
  rw [get, get, rd_wr_ne _ _ _ _ h]

theorem get_put_self (h : ValidFld f) (v : Nat) : (s.put f v).get f = v % 2 ^ (f.hi + 1 - f.lo) := get_put s f v h.1 h.2

theorem get_put_of_lt (h : ValidFld f) {v : Nat} (hv : v < 2 ^ (f.hi + 1 - f.lo)) : (s.put f v).get f = v := by
  rw [get_put_self h, Nat.mod_eq_of_lt hv]

@[simp] theorem get_setOff (h : ValidFld f) : (s.setOff f).get f = 0 := get_put_of_lt h (Nat.two_pow_pos _)

@[simp] theorem get_setOn (h : ValidFld f) : (s.setOn f).get f = 1 :=
  get_put_of_lt h (Nat.one_lt_two_pow (by obtain ⟨hlo, -⟩ := h; omega))

@[simp] theorem get_countWrap (h : ValidFld f) (d : Nat) : (s.countWrap f d).get f = (s.get f + d) % 2 ^ (f.hi + 1 - f.lo) :=
  get_put_self h _

@[simp] theorem get_count_self (h : ValidFld f) (d : Nat) : (s.count f d).get f = satAdd (f.hi + 1 - f.lo) (s.get f) d :=
  get_count s f d h.1 h.2

theorem on_eq_true_iff : s.on f = true ↔ s.get f = 1 := beq_iff_eq

theorem on_eq_false_iff : s.on f = false ↔ s.get f ≠ 1 := beq_eq_false_iff_ne

theorem get_eq_zero_of_off (h : f.hi = f.lo) (hoff : s.on f = false) : s.get f = 0 := by
  have hlt := s.get_lt f
  rw [h, Nat.add_sub_cancel_left] at hlt
  rw [on_eq_false_iff] at hoff
  omega

theorem on_congr {t : State} (h : t.get f = s.get f) : t.on f = s.on f := by rw [on, on, h]

@[simp] theorem on_put_ofBool (h : ValidFld f) (b : Bool) : (s.put f (ofBool b)).on f = b := by
  cases b
  · rw [on_eq_false_iff, show ofBool false = 0 from rfl, get_put_of_lt h (Nat.two_pow_pos _)]
    decide
  · exact on_eq_true_iff.mpr (get_setOn h)

@[simp] theorem rd_setOn_ne {a : Nat} (h : a ≠ f.addr) : (s.setOn f).rd a = s.rd a := rd_put_ne _ _ _ _ h

@[simp] theorem rd_setOff_ne {a : Nat} (h : a ≠ f.addr) : (s.setOff f).rd a = s.rd a := rd_put_ne _ _ _ _ h

@[simp] theorem rd_count_ne {a : Nat} (h : a ≠ f.addr) (d : Nat) : (s.count f d).rd a = s.rd a := rd_put_ne _ _ _ _ h

@[simp] theorem rd_countWrap_ne {a : Nat} (h : a ≠ f.addr) (d : Nat) : (s.countWrap f d).rd a = s.rd a := rd_put_ne _ _ _ _ h

end State

theorem Settled.on {fs : Fuses} {s u t : State} (h : Settled fs s u t) (f : Fld) (h1 : f.addr ≠ DGN_CNT_MERGE)
    (h2 : f.addr ≠ DGN_EVT) : t.on f = u.on f := State.on_congr (h.get f h1 h2)

/-- A field of a register that the lines do not touch. -/
theorem LineFrame.get {s t : State} (l : LineFrame s t) (f : Fld) (h1 : f.addr ≠ DGN_CNT_MERGE) (h2 : f.addr ≠ DGN_EVT) :
    t.get f = s.get f := by rw [State.get, State.get, l.rd _ h1 h2]

/-- A pulse sends nothing. -/
@[simp] theorem State.pulse_outbox (s : State) (src : Nat) : (s.pulse src).outbox = s.outbox := by
  unfold State.pulse
  split
  · split <;> rfl
  · rfl

/-! ### Frames of effects -/

theorem Keeps.trans {s t u : State} {p : Part} (h : Keeps s t p) (k : Keeps t u p) : Keeps s u p := by
  cases p
  case mem => exact fun a => (k a).trans (h a)
  case out =>
    obtain ⟨l, hl, hm⟩ := h
    obtain ⟨l', hl', hm'⟩ := k
    refine ⟨l ++ l', by rw [hl', hl, List.append_assoc], fun m hmem => ?_⟩
    exact (List.mem_append.mp hmem).elim (hm m) (hm' m)
  all_goals
    simp only [Keeps] at h k ⊢
    simp only [k, h, and_self]

/-- From `s` to `t` only the registers `regs` and the components `parts` change. -/
structure Effect (regs : List Nat) (parts : List Part) (s t : State) : Prop where
  rd : ∀ a, a ∉ regs → t.rd a = s.rd a
  keeps : ∀ p, p ∉ parts → Keeps s t p

theorem Settled.changesOnly {s u t : State} {regs : List Nat} {parts : List Part} (h : Settled s.fuses s u t)
    (e : Effect regs parts s u) : ChangesOnly regs parts s t :=
  h.changes (fun a ha _ _ => e.rd a ha) e.keeps

/-- Merged pulses may have counted on the way: that count and its event are outside the frame. -/
theorem Settled.changesOnly_pulsed {s u t : State} {regs : List Nat} {parts : List Part} (h : Settled s.fuses s u t)
    (e : Effect (DGN_CNT_MERGE :: DGN_EVT :: regs) parts s u) : ChangesOnly regs parts s t :=
  h.changes (fun a ha h1 h2 => e.rd a (by simp [ha, h1, h2])) e.keeps

namespace Effect

variable {regs : List Nat} {parts : List Part} {s t u : State}

theorem refl (s : State) : Effect regs parts s s := ⟨fun _ _ => rfl, fun p _ => Keeps.refl s p⟩

theorem trans (h : Effect regs parts s t) (k : Effect regs parts t u) : Effect regs parts s u :=
  ⟨fun a ha => (k.rd a ha).trans (h.rd a ha), fun p hp => (h.keeps p hp).trans (k.keeps p hp)⟩

theorem mono {regs' : List Nat} {parts' : List Part} (h : Effect regs parts s t) (hr : regs ⊆ regs') (hp : parts ⊆ parts') :
    Effect regs' parts' s t :=
  ⟨fun a ha => h.rd a (fun hm => ha (hr hm)), fun p hm => h.keeps p (fun hq => hm (hp hq))⟩

theorem wr (h : Effect regs parts s t) {a : Nat} (v : Word64) (ha : a ∈ regs) : Effect regs parts s (t.wr a v) :=
  h.trans ⟨fun _ hb => State.rd_wr_ne _ _ _ _ (fun he => hb (he ▸ ha)), fun p _ => by cases p <;> simp [Keeps]⟩

theorem put (h : Effect regs parts s t) {f : Fld} (v : Nat) (hf : f.addr ∈ regs) : Effect regs parts s (t.put f v) :=
  h.wr _ hf

theorem setOn (h : Effect regs parts s t) {f : Fld} (hf : f.addr ∈ regs) : Effect regs parts s (t.setOn f) :=
  (h.put 1 hf).trans ⟨fun _ _ => rfl, fun p _ => by cases p <;> simp [Keeps]⟩

theorem setOff (h : Effect regs parts s t) {f : Fld} (hf : f.addr ∈ regs) : Effect regs parts s (t.setOff f) := h.put 0 hf

theorem count (h : Effect regs parts s t) {f : Fld} (d : Nat) (hf : f.addr ∈ regs) : Effect regs parts s (t.count f d) :=
  h.put _ hf

theorem countWrap (h : Effect regs parts s t) {f : Fld} (d : Nat) (hf : f.addr ∈ regs) :
    Effect regs parts s (t.countWrap f d) := h.put _ hf

/-- An update of components alone: the registers stand. -/
theorem components (h : Effect regs parts s t) (hr : u.regs = t.regs) (hk : ∀ p, p ∉ parts → Keeps t u p) :
    Effect regs parts s u := h.trans ⟨fun a _ => State.rd_congr _ _ a hr, hk⟩

theorem onIf (h : Effect regs parts s t) {c : Bool} {f : State → State} (k : c = true → Effect regs parts s (f t)) :
    Effect regs parts s (onIf c f t) := by
  cases c
  · exact h
  · exact k rfl

theorem ite {c : Prop} [Decidable c] (h : c → Effect regs parts s t) (k : ¬ c → Effect regs parts s u) :
    Effect regs parts s (if c then t else u) := by
  split
  · exact h ‹_›
  · exact k ‹_›

theorem pwr (h : Effect regs parts s t) (x : Power) (hp : Part.pwr ∈ parts) : Effect regs parts s { t with pwr := x } :=
  h.components rfl fun p hq => by
    cases p
    case pwr => exact absurd hp hq
    all_goals simp [Keeps]

theorem free (h : Effect regs parts s t) (x : Nat) (hp : Part.free ∈ parts) : Effect regs parts s { t with free := x } :=
  h.components rfl fun p hq => by
    cases p
    case free => exact absurd hp hq
    all_goals simp [Keeps]

/-- A register that the effect does not name reads as before. -/
theorem get (h : Effect regs parts s t) {f : Fld} (hf : f.addr ∉ regs) : t.get f = s.get f := by
  rw [State.get, State.get, h.rd _ hf]

theorem on (h : Effect regs parts s t) {f : Fld} (hf : f.addr ∉ regs) : t.on f = s.on f := State.on_congr (h.get hf)

theorem foldl {α : Type} {f : State → α → State} {xs : List α} (h : Effect regs parts s t)
    (k : ∀ u, ∀ x ∈ xs, Effect regs parts u (f u x)) : Effect regs parts s (xs.foldl f t) := by
  induction xs generalizing t with
  | nil => exact h
  | cons x xs ih =>
    exact ih (h.trans (k t x (by simp))) fun u y hy => k u y (by simp [hy])

theorem forUpTo {f : Nat → State → State} {n : Nat} (h : Effect regs parts s t)
    (k : ∀ u i, i < n → Effect regs parts u (f i u)) : Effect regs parts s (forUpTo n f t) :=
  h.foldl fun u i hi => k u i (List.mem_range.mp hi)

theorem line (h : Effect regs parts s t) (l : LineFrame t u) (hm : DGN_CNT_MERGE ∈ regs) (he : DGN_EVT ∈ regs) :
    Effect regs parts s u :=
  h.trans ⟨fun a ha => l.rd a (fun e => ha (e ▸ hm)) (fun e => ha (e ▸ he)), fun p _ => by
    have hrest := l.rest
    cases p
    case out => exact l.out
    all_goals
      rw [hrest]
      simp [Keeps]⟩

theorem pulse (h : Effect regs parts s t) (src : Nat) (hm : DGN_CNT_MERGE ∈ regs) (he : DGN_EVT ∈ regs) :
    Effect regs parts s (t.pulse src) := h.line (pulse_line t src) hm he

theorem send (h : Effect regs parts s t) (m : OutMsg) (hp : Part.out ∈ parts) : Effect regs parts s (t.send m) :=
  h.components rfl fun p hq => by
    cases p
    case out => exact absurd hp hq
    all_goals simp [Keeps]

end Effect

end Sys2Proof.Machine
end
section
/-! What an accepted write of a whole register stores, and what has set off by then. -/

namespace Sys2Proof.Machine

open Sys2Proof Sys2Proof.Machine.Reg

/-! ### Masks of fields -/

theorem testBit_fieldMask (hi lo i : Nat) :
    ((2 ^ (hi + 1) - 1) - (2 ^ lo - 1)).testBit i = (decide (lo ≤ i) && decide (i ≤ hi)) := by
  by_cases h : lo ≤ hi + 1
  · have hsplit : (2 : Nat) ^ (hi + 1) = 2 ^ lo * 2 ^ (hi + 1 - lo) := by
      rw [← Nat.pow_add, Nat.add_sub_cancel' h]
    have hmask : (2 ^ (hi + 1) - 1) - (2 ^ lo - 1) = 2 ^ lo * (2 ^ (hi + 1 - lo) - 1) := by
      have := Nat.two_pow_pos lo
      rw [hsplit, Nat.mul_sub, Nat.mul_one]
      omega
    rw [hmask, Nat.testBit_two_pow_mul, Nat.testBit_two_pow_sub_one, Bool.eq_iff_iff]
    simp only [Bool.and_eq_true, decide_eq_true_eq]
    omega
  · have hpow : (2 : Nat) ^ (hi + 1) ≤ 2 ^ lo := Nat.pow_le_pow_right (by omega) (by omega)
    rw [show (2 ^ (hi + 1) - 1) - (2 ^ lo - 1) = 0 by omega, Nat.zero_testBit, eq_comm, Bool.eq_false_iff]
    simp only [ne_eq, Bool.and_eq_true, decide_eq_true_eq]
    omega

/-- A bit of a mask: a field of the kinds asked for covers it. -/
theorem testBit_kindMask (d : RegDesc) (p : FieldKind → Bool) (i : Nat) :
    (kindMask d p).testBit i = d.fields.any fun f => p f.kind && (decide (f.lo ≤ i) && decide (i ≤ f.hi)) := by
  suffices h : ∀ (fs : List FieldDesc) (m : Nat),
      (fs.foldl (fun m f => if p f.kind then m ||| ((2 ^ (f.hi + 1) - 1) - (2 ^ f.lo - 1)) else m) m).testBit i =
        (m.testBit i || fs.any fun f => p f.kind && (decide (f.lo ≤ i) && decide (i ≤ f.hi))) by
    rw [kindMask, h, Nat.zero_testBit, Bool.false_or]
  intro fs
  induction fs with
  | nil => simp
  | cons f fs ih =>
    intro m
    rw [List.foldl_cons, ih, List.any_cons]
    by_cases hp : p f.kind = true
    · rw [if_pos hp, Nat.testBit_or, testBit_fieldMask, hp, Bool.true_and, Bool.or_assoc]
    · rw [if_neg hp, Bool.eq_false_iff.mpr hp, Bool.false_and, Bool.false_or]

/-- Fields within 64 bits give masks within 64 bits. -/
theorem kindMask_lt {d : RegDesc} (h : ∀ f ∈ d.fields, f.hi < 64) (p : FieldKind → Bool) : kindMask d p < 2 ^ 64 := by
  apply Nat.lt_pow_two_of_testBit
  intro i hi
  rw [testBit_kindMask, List.any_eq_false]
  intro f hf
  have := h f hf
  simp only [Bool.and_eq_true, decide_eq_true_eq]
  omega

theorem testBit_mergeBits {m : Nat} (hm : m < 2 ^ 64) (old v : Nat) {i : Nat} (hi : i < 64) :
    (mergeBits m old v).testBit i = if m.testBit i then v.testBit i else old.testBit i := by
  have hall : (2 ^ 64 - 1 - m).testBit i = !m.testBit i := by
    rw [show 2 ^ 64 - 1 - m = 2 ^ 64 - (m + 1) by omega, Nat.testBit_two_pow_sub_succ hm]
    simp [hi]
  rw [mergeBits, Nat.testBit_or, Nat.testBit_and, Nat.testBit_and, hall]
  cases m.testBit i <;> simp

theorem mergeBits_lt {m old v : Nat} (hold : old < 2 ^ 64) (hv : v < 2 ^ 64) : mergeBits m old v < 2 ^ 64 :=
  Nat.or_lt_two_pow (Nat.lt_of_le_of_lt Nat.and_le_left hold) (Nat.lt_of_le_of_lt Nat.and_le_left hv)

/-- Two words below 2^64 with the same 64 bits. -/
theorem eq_of_testBit_lt_64 {x y : Nat} (hx : x < 2 ^ 64) (hy : y < 2 ^ 64)
    (h : ∀ i, i < 64 → x.testBit i = y.testBit i) : x = y := by
  apply Nat.eq_of_testBit_eq
  intro i
  by_cases hi : i < 64
  · exact h i hi
  · have hpow : (2 : Nat) ^ 64 ≤ 2 ^ i := Nat.pow_le_pow_right (by omega) (by omega)
    rw [Nat.testBit_lt_two_pow (by omega), Nat.testBit_lt_two_pow (by omega)]

theorem mergeBits_zero {old v : Nat} (hold : old < 2 ^ 64) (hv : v < 2 ^ 64) : mergeBits 0 old v = old :=
  eq_of_testBit_lt_64 (mergeBits_lt hold hv) hold fun i hi => by
    rw [testBit_mergeBits (by decide) _ _ hi]
    simp

/-- A field of the merged word, all of whose bits the mask takes. -/
theorem bitsOf_mergeBits_in {m hi lo : Nat} (hm : m < 2 ^ 64) (h64 : hi < 64) (old v : Nat)
    (hin : bitsOf m hi lo = 2 ^ (hi + 1 - lo) - 1) : bitsOf (mergeBits m old v) hi lo = bitsOf v hi lo := by
  apply Nat.eq_of_testBit_eq
  intro i
  rw [testBit_bitsOf, testBit_bitsOf]
  by_cases hi' : i < hi + 1 - lo
  · have hbit : m.testBit (lo + i) = true := by
      have h := congrArg (·.testBit i) hin
      simpa [testBit_bitsOf, Nat.testBit_two_pow_sub_one, hi'] using h
    rw [testBit_mergeBits hm _ _ (by omega), if_pos hbit]
  · simp [hi']

/-- A field of the merged word, none of whose bits the mask takes. -/
theorem bitsOf_mergeBits_out {m hi lo : Nat} (hm : m < 2 ^ 64) (h64 : hi < 64) (old v : Nat) (hout : bitsOf m hi lo = 0) :
    bitsOf (mergeBits m old v) hi lo = bitsOf old hi lo := by
  apply Nat.eq_of_testBit_eq
  intro i
  rw [testBit_bitsOf, testBit_bitsOf]
  by_cases hi' : i < hi + 1 - lo
  · have hbit : m.testBit (lo + i) = false := by
      have h := congrArg (·.testBit i) hout
      simpa [testBit_bitsOf, hi'] using h
    rw [testBit_mergeBits hm _ _ (by omega), if_neg (by simp [hbit])]
  · simp [hi']

/-! ### What a write stores -/

/-- The bits that an accepted write changes at once: Live and Static fields. -/
def rwMask (d : RegDesc) : Nat := kindMask d fun k => k == .live || k == .static

/-- An accepted write gives Static fields no other value while they are locked, so locked or not they take the value written. -/
theorem mergeBits_static {d : RegDesc} {v old : Nat} {lock : Bool} (hold : old < 2 ^ 64) (hv : v < 2 ^ 64)
    (hd : ∀ p, kindMask d p < 2 ^ 64)
    (hok : (lock && (v &&& kindMask d (· == .static)) != (old &&& kindMask d (· == .static))) = false) :
    mergeBits (kindMask d fun k => k == .live || (k == .static && !lock)) old v = mergeBits (rwMask d) old v := by
  cases lock with
  | false => simp only [Bool.not_false, Bool.and_true, rwMask]
  | true =>
    have hsame : v &&& kindMask d (· == .static) = old &&& kindMask d (· == .static) := by simpa using hok
    refine eq_of_testBit_lt_64 (mergeBits_lt hold hv) (mergeBits_lt hold hv) fun i hi => ?_
    rw [testBit_mergeBits (hd _) _ _ hi, testBit_mergeBits (m := rwMask d) (hd _) _ _ hi]
    by_cases hst : (kindMask d (· == .static)).testBit i = true
    · have hbit : v.testBit i = old.testBit i := by
        have h := congrArg (·.testBit i) hsame
        simpa [Nat.testBit_and, hst] using h
      rw [hbit, ite_self, ite_self]
    · have hmask : (kindMask d fun k => k == .live || (k == .static && !true)).testBit i = (rwMask d).testBit i := by
        rw [testBit_kindMask] at hst
        rw [rwMask, testBit_kindMask, testBit_kindMask, Bool.eq_iff_iff]
        simp only [List.any_eq_true, Bool.not_true, Bool.and_false, Bool.or_false, Bool.and_eq_true, Bool.or_eq_true,
          not_exists, not_and, decide_eq_true_eq] at hst ⊢
        refine exists_congr fun f => and_congr_right fun hf => and_congr_left fun hi' => ⟨Or.inl, fun h => ?_⟩
        exact h.resolve_right fun hk => hst f hf hk hi'.1 hi'.2
      rw [hmask]

theorem State.toNat_ofNat_rd {x : Nat} (h : x < 2 ^ 64) : (BitVec.ofNat 64 x).toNat = x := by
  rw [BitVec.toNat_ofNat, Nat.mod_eq_of_lt h]

/-- The register window of the Ethernet controls, whose ALLRX bits are fixed. -/
abbrev ethFixed (a : Nat) : Prop := FLD_ETH_CTL 0 ≤ a ∧ a < FLD_ETH_CTL 4 ∧ (a - FLD_ETH_CTL 0) % 0x100 = 0

theorem fixedBits_other {a : Nat} (h : ¬ ethFixed a) (v : Nat) : fixedBits a v = v := if_neg h

/-- A write that no cause meets, to a register without Shadowed or W1C fields. -/
theorem storeWrite_plain {s : State} {d : RegDesc} {is : List Nat} {a v : Nat} (hfields : ∀ f ∈ d.fields, f.hi < 64)
    (hsh : kindMask d (· == .shadowed) = 0) (hw1c : kindMask d (· == .w1c) = 0) (hfix : ¬ ethFixed a) (hv : v < 2 ^ 64)
    (hok : staticBroken s ⟨a, d, is, false⟩ v = false) :
    storeWrite s ⟨a, d, is, false⟩ v = afterWrite d.base is (s.rd a).toNat v
      (s.wr a (BitVec.ofNat 64 (mergeBits (rwMask d) (s.rd a).toNat v))) := by
  have hold : (s.rd a).toNat < 2 ^ 64 := (s.rd a).isLt
  have hclear : mergeBits (0 &&& s.freshBits a) v 0 = v := by
    rw [Nat.zero_and]
    exact mergeBits_zero hv (by decide)
  have hkeep (x : Nat) (hx : x < 2 ^ 64) : x &&& (2 ^ 64 - 1 - (0 &&& v)) = x := by
    rw [Nat.zero_and, Nat.sub_zero, Nat.and_two_pow_sub_one_of_lt_two_pow hx]
  unfold storeWrite
  simp only [hsh, hw1c, hclear, if_true]
  rw [mergeBits_static hold hv (kindMask_lt hfields) hok, hkeep _ (mergeBits_lt hold hv), fixedBits_other hfix]

/-- What an accepted write names. -/
theorem regHit_of_writeOk {s : State} {who : Initiator} {a v : Nat} {d : RegDesc} {is : List Nat} (ok : WriteOk s who a v)
    (hat : regAt a = some (d, is, false)) (hlow : 0x100000000000 ≤ a) (hhrc : a < 0x100008600000 ∨ 0x100008700000 ≤ a)
    (h4 : a % 4 = 0) : regHit s who a = some ⟨a, d, is, false⟩ := by
  have hbus := busAddr_self (who := who) hlow hhrc
  refine regHit_of_at hbus ?_ h4 hat
  by_contra habs
  rw [Bool.not_eq_false] at habs
  simp [WriteOk, regHit, hbus, habs] at ok

theorem valueCauses_of_writeOk {s : State} {who : Initiator} {a v : Nat} {h : RegHit} (ok : WriteOk s who a v)
    (hh : regHit s who a = some h) : valueCauses s h v = [] ∧ v < 2 ^ h.desc.width := by
  rw [WriteOk, hh] at ok
  simp only [Bool.and_eq_true, List.isEmpty_iff, Bool.not_eq_true', decide_eq_true_eq] at ok
  obtain ⟨⟨⟨-, hval⟩, -⟩, hlt⟩ := ok
  exact ⟨hval, hlt⟩

theorem staticBroken_of_valueCauses {s : State} {h : RegHit} {v : Nat} (hval : valueCauses s h v = []) :
    staticBroken s h v = false := by
  simp only [valueCauses, List.append_eq_nil_iff] at hval
  obtain ⟨-, hst⟩ := hval
  simpa using hst

/-- A 32-bit register outside the HRC sub-block and the Ethernet controls, without Shadowed or W1C fields. -/
abbrev PlainRow (a : Nat) (d : RegDesc) : Prop :=
  0x100000000000 ≤ a ∧ (a < 0x100008600000 ∨ 0x100008700000 ≤ a) ∧ a % 4 = 0 ∧ d.width = 32 ∧
    (∀ f ∈ d.fields, f.hi < 64) ∧ kindMask d (· == .shadowed) = 0 ∧ kindMask d (· == .w1c) = 0 ∧ ¬ ethFixed a

section

variable {s : State} {who : Initiator} {a v : Nat} {d : RegDesc} {is : List Nat} (ok : WriteOk s who a v)
  (hat : regAt a = some (d, is, false)) (hrow : PlainRow a d)
include ok hat hrow

theorem lt_of_writeOk : v < 2 ^ 32 := by
  obtain ⟨hlow, hhrc, h4, hw, -⟩ := hrow
  exact hw ▸ (valueCauses_of_writeOk ok (regHit_of_writeOk ok hat hlow hhrc h4)).2

/-- What an accepted write of such a register does. -/
theorem writeReg_plain : writeReg s who a v = afterWrite d.base is (s.rd a).toNat v
    (s.wr a (BitVec.ofNat 64 (mergeBits (rwMask d) (s.rd a).toNat v))) := by
  have hlt := lt_of_writeOk ok hat hrow
  obtain ⟨hlow, hhrc, h4, hw, hfields, hsh, hw1c, hfix⟩ := hrow
  have hh := regHit_of_writeOk ok hat hlow hhrc h4
  rw [writeReg_of_ok ok hh hat (.inl hw), if_pos hw]
  exact storeWrite_plain hfields hsh hw1c hfix (by omega)
    (staticBroken_of_valueCauses (valueCauses_of_writeOk ok hh).1)

/-- The same where all its fields are Write-only or Read-only: the register stands. -/
theorem writeReg_command (hrw : rwMask d = 0) :
    writeReg s who a v = afterWrite d.base is (s.rd a).toNat v (s.wr a (s.rd a)) := by
  have hlt := lt_of_writeOk ok hat hrow
  rw [writeReg_plain ok hat hrow, hrw, mergeBits_zero (s.rd a).isLt (by omega), BitVec.ofNat_toNat, BitVec.setWidth_eq]

end

/-- A register written with what it reads stands. -/
@[simp] theorem State.rd_wr_self (s : State) (a b : Nat) : (s.wr a (s.rd a)).rd b = s.rd b := by
  by_cases h : b = a
  · rw [h, State.rd_wr_same]
  · exact State.rd_wr_ne _ _ _ _ h

@[simp] theorem State.get_wr_self (s : State) (a : Nat) (f : Fld) : (s.wr a (s.rd a)).get f = s.get f := by
  rw [State.get, State.get, State.rd_wr_self]

@[simp] theorem State.on_wr_self (s : State) (a : Nat) (f : Fld) : (s.wr a (s.rd a)).on f = s.on f :=
  State.on_congr (State.get_wr_self s a f)

theorem Effect.wrSelf {regs : List Nat} {parts : List Part} (s : State) (a : Nat) : Effect regs parts s (s.wr a (s.rd a)) :=
  ⟨fun b _ => State.rd_wr_self s a b, fun p _ => by cases p <;> simp [Keeps]⟩

/-- A field that the write takes reads the value written. -/
theorem State.get_wr_merge_in {s : State} {m v : Nat} {f : Fld} (hm : m < 2 ^ 64) (h64 : f.hi < 64) (hv : v < 2 ^ 64)
    (hin : bitsOf m f.hi f.lo = 2 ^ (f.hi + 1 - f.lo) - 1) :
    (s.wr f.addr (BitVec.ofNat 64 (mergeBits m (s.rd f.addr).toNat v))).get f = bitsOf v f.hi f.lo := by
  rw [State.get, State.rd_wr_same, State.toNat_ofNat_rd (mergeBits_lt (s.rd f.addr).isLt hv), bitsOf_mergeBits_in hm h64 _ _ hin]

/-- A field that the write leaves reads as before. -/
theorem State.get_wr_merge_out {s : State} {m v : Nat} {f : Fld} (hm : m < 2 ^ 64) (h64 : f.hi < 64) (hv : v < 2 ^ 64)
    (hout : bitsOf m f.hi f.lo = 0) :
    (s.wr f.addr (BitVec.ofNat 64 (mergeBits m (s.rd f.addr).toNat v))).get f = s.get f := by
  rw [State.get, State.rd_wr_same, State.toNat_ofNat_rd (mergeBits_lt (s.rd f.addr).isLt hv), bitsOf_mergeBits_out hm h64 _ _ hout,
    State.get]

theorem bitsOf_zero_zero (v : Nat) : bitsOf v 0 0 = v % 2 := by simp [bitsOf]

theorem State.get_bit_zero (s : State) {f : Fld} (hhi : f.hi = 0) (hlo : f.lo = 0) : (s.rd f.addr).toNat % 2 = s.get f := by
  rw [State.get, hhi, hlo, bitsOf_zero_zero]

theorem State.mod_two_of_on {s : State} {f : Fld} (hhi : f.hi = 0) (hlo : f.lo = 0) (h : s.on f = true) :
    (s.rd f.addr).toNat % 2 = 1 := (State.get_bit_zero s hhi hlo).trans (State.on_eq_true_iff.mp h)

theorem State.mod_two_of_off {s : State} {f : Fld} (hhi : f.hi = 0) (hlo : f.lo = 0) (h : s.on f = false) :
    (s.rd f.addr).toNat % 2 = 0 :=
  (State.get_bit_zero s hhi hlo).trans (State.get_eq_zero_of_off (hhi.trans hlo.symm) h)

/-! ### Registers with W1C fields -/

/-- The W1C bits of a register. -/
def w1cMask (d : RegDesc) : Nat := kindMask d (· == .w1c)

/-- The value that a write brings: a bit that the device has set in the same cycle is not cleared (R11). -/
def clearing (d : RegDesc) (fresh v : Nat) : Nat := mergeBits (w1cMask d &&& fresh) v 0

/-- The register after a write of `v`. -/
def storedWord (d : RegDesc) (old v : Nat) : Nat := mergeBits (rwMask d) old v &&& (2 ^ 64 - 1 - (w1cMask d &&& v))

/-- A 32-bit register outside the HRC sub-block and the Ethernet controls, without Shadowed fields. -/
abbrev W1cRow (a : Nat) (d : RegDesc) : Prop :=
  0x100000000000 ≤ a ∧ (a < 0x100008600000 ∨ 0x100008700000 ≤ a) ∧ a % 4 = 0 ∧ d.width = 32 ∧
    (∀ f ∈ d.fields, f.hi < 64) ∧ kindMask d (· == .shadowed) = 0 ∧ w1cMask d &&& kindMask d (· == .static) = 0 ∧ ¬ ethFixed a

theorem testBit_clearing {d : RegDesc} (hd : ∀ f ∈ d.fields, f.hi < 64) (fresh v : Nat) {i : Nat} (hi : i < 64) :
    (clearing d fresh v).testBit i = (v.testBit i && !((w1cMask d).testBit i && fresh.testBit i)) := by
  have hm : w1cMask d &&& fresh < 2 ^ 64 := Nat.lt_of_le_of_lt Nat.and_le_left (kindMask_lt hd _)
  rw [clearing, testBit_mergeBits hm _ _ hi, Nat.testBit_and, Nat.zero_testBit]
  cases (w1cMask d).testBit i && fresh.testBit i <;> simp

theorem clearing_lt {d : RegDesc} {fresh v : Nat} (hv : v < 2 ^ 64) : clearing d fresh v < 2 ^ 64 := mergeBits_lt hv (by decide)

theorem testBit_storedWord {d : RegDesc} (hd : ∀ f ∈ d.fields, f.hi < 64) (old v : Nat) {i : Nat} (hi : i < 64) :
    (storedWord d old v).testBit i =
      ((if (rwMask d).testBit i then v.testBit i else old.testBit i) && !((w1cMask d).testBit i && v.testBit i)) := by
  have hm : w1cMask d &&& v < 2 ^ 64 := Nat.lt_of_le_of_lt Nat.and_le_left (kindMask_lt hd _)
  rw [storedWord, Nat.testBit_and, testBit_mergeBits (m := rwMask d) (kindMask_lt hd _) _ _ hi,
    show 2 ^ 64 - 1 - (w1cMask d &&& v) = 2 ^ 64 - ((w1cMask d &&& v) + 1) by omega, Nat.testBit_two_pow_sub_succ hm,
    Nat.testBit_and, decide_eq_true hi, Bool.true_and]

theorem storedWord_lt {d : RegDesc} {old v : Nat} (hold : old < 2 ^ 64) (hv : v < 2 ^ 64) : storedWord d old v < 2 ^ 64 :=
  Nat.lt_of_le_of_lt Nat.and_le_left (mergeBits_lt hold hv)

theorem testBit_of_bitsOf_ones {m hi lo i : Nat} (hin : bitsOf m hi lo = 2 ^ (hi + 1 - lo) - 1) (hi' : i < hi + 1 - lo) :
    m.testBit (lo + i) = true := by
  have h := congrArg (·.testBit i) hin
  simpa [testBit_bitsOf, Nat.testBit_two_pow_sub_one, hi'] using h

theorem testBit_of_bitsOf_zero {m hi lo i : Nat} (hout : bitsOf m hi lo = 0) (hi' : i < hi + 1 - lo) :
    m.testBit (lo + i) = false := by
  have h := congrArg (·.testBit i) hout
  simpa [testBit_bitsOf, hi'] using h

/-- A Live or Static field takes the value written. -/
theorem bitsOf_storedWord {d : RegDesc} (hd : ∀ f ∈ d.fields, f.hi < 64) {old fresh v hi lo : Nat} (h64 : hi < 64)
    (hin : bitsOf (rwMask d) hi lo = 2 ^ (hi + 1 - lo) - 1) (hout : bitsOf (w1cMask d) hi lo = 0) :
    bitsOf (storedWord d old (clearing d fresh v)) hi lo = bitsOf v hi lo := by
  apply Nat.eq_of_testBit_eq
  intro i
  rw [testBit_bitsOf, testBit_bitsOf]
  by_cases hi' : i < hi + 1 - lo
  · rw [testBit_storedWord hd _ _ (by omega), testBit_clearing hd _ _ (by omega), testBit_of_bitsOf_ones hin hi',
      testBit_of_bitsOf_zero hout hi']
    simp
  · simp [hi']

/-- A W1C bit is cleared by a 1, where the device has not set it in the same cycle. -/
theorem testBit_storedWord_w1c {d : RegDesc} (hd : ∀ f ∈ d.fields, f.hi < 64) {old fresh v i : Nat} (hi : i < 64)
    (hin : (w1cMask d).testBit i = true) (hout : (rwMask d).testBit i = false) :
    (storedWord d old (clearing d fresh v)).testBit i = (old.testBit i && !(v.testBit i && !fresh.testBit i)) := by
  rw [testBit_storedWord hd _ _ hi, testBit_clearing hd _ _ hi, hin, hout]
  cases old.testBit i <;> cases v.testBit i <;> cases fresh.testBit i <;> rfl

/-- Bit 0 of the value written, where it is no W1C bit. -/
theorem clearing_mod_two {d : RegDesc} (hd : ∀ f ∈ d.fields, f.hi < 64) (h0 : (w1cMask d).testBit 0 = false) (fresh v : Nat) :
    clearing d fresh v % 2 = v % 2 := by
  have hbit := testBit_clearing hd fresh v (i := 0) (by decide)
  rw [h0, Bool.false_and, Bool.not_false, Bool.and_true, Nat.testBit_zero, Nat.testBit_zero] at hbit
  have := decide_eq_decide.mp hbit
  omega

/-- A write that no cause meets: Live and Static fields take their values, W1C bits are cleared by a 1, Shadowed fields go to the
held copy. -/
theorem storeWrite_stored {s : State} {d : RegDesc} {is : List Nat} {up : Bool} {a v : Nat} (hfields : ∀ f ∈ d.fields, f.hi < 64)
    (hst : w1cMask d &&& kindMask d (· == .static) = 0) (hfix : ¬ ethFixed a) (hv : v < 2 ^ 64)
    (hok : staticBroken s ⟨a, d, is, up⟩ v = false) :
    storeWrite s ⟨a, d, is, up⟩ v = afterWrite d.base is (s.rd a).toNat (clearing d (s.freshBits a) v)
      (State.wr (if kindMask d (· == .shadowed) = 0 then s else s.heldWr a (BitVec.ofNat 64
          (mergeBits (kindMask d (· == .shadowed)) (s.heldRd a).toNat (clearing d (s.freshBits a) v)))) a
        (BitVec.ofNat 64 (storedWord d (s.rd a).toNat (clearing d (s.freshBits a) v)))) := by
  have hv' : clearing d (s.freshBits a) v < 2 ^ 64 := clearing_lt hv
  have hsame : clearing d (s.freshBits a) v &&& kindMask d (· == .static) = v &&& kindMask d (· == .static) := by
    refine eq_of_testBit_lt_64 (Nat.lt_of_le_of_lt Nat.and_le_left hv') (Nat.lt_of_le_of_lt Nat.and_le_left hv) fun i hi => ?_
    have hdis : ((w1cMask d).testBit i && (kindMask d (· == .static)).testBit i) = false := by
      rw [← Nat.testBit_and, hst, Nat.zero_testBit]
    rw [Nat.testBit_and, Nat.testBit_and, testBit_clearing hfields _ _ hi]
    revert hdis
    cases (w1cMask d).testBit i <;> cases (kindMask d (· == .static)).testBit i <;> simp
  rw [staticBroken] at hok
  have hstatic := mergeBits_static (v := clearing d (s.freshBits a) v) (old := (s.rd a).toNat)
    (lock := staticLocked s ⟨a, d, is, up⟩) (s.rd a).isLt hv' (kindMask_lt hfields) (by rw [hsame]; exact hok)
  unfold storeWrite
  simp only
  rw [fixedBits_other hfix]
  show afterWrite d.base is _ (clearing d (s.freshBits a) v)
    (State.wr _ a (BitVec.ofNat 64 (mergeBits _ _ (clearing d (s.freshBits a) v) &&& _))) = _
  rw [hstatic]
  rfl

/-- What an accepted write of a register with W1C fields does. -/
theorem writeReg_w1c {s : State} {who : Initiator} {a v : Nat} {d : RegDesc} {is : List Nat} (ok : WriteOk s who a v)
    (hat : regAt a = some (d, is, false)) (hrow : W1cRow a d) :
    writeReg s who a v = afterWrite d.base is (s.rd a).toNat (clearing d (s.freshBits a) v)
      (s.wr a (BitVec.ofNat 64 (storedWord d (s.rd a).toNat (clearing d (s.freshBits a) v)))) := by
  obtain ⟨hlow, hhrc, h4, hw, hfields, hsh, hst, hfix⟩ := hrow
  have hh := regHit_of_writeOk ok hat hlow hhrc h4
  obtain ⟨hval, hlt⟩ := valueCauses_of_writeOk ok hh
  have hlt64 : v < 2 ^ 64 := Nat.lt_of_lt_of_le hlt (Nat.pow_le_pow_right (by omega) (by simp [hw]))
  rw [writeReg_of_ok ok hh hat (.inl hw), if_pos hw,
    storeWrite_stored hfields hst hfix hlt64 (staticBroken_of_valueCauses hval), if_pos hsh]

end Sys2Proof.Machine
end
section
/-! Bytes of a frame: little-endian fields and what splicing leaves of them. -/

namespace Sys2Proof.Machine

open Sys2Proof

@[simp] theorem length_leBytes (n v : Nat) : (leBytes n v).length = n := by
  induction n generalizing v with
  | zero => rfl
  | succ n ih => rw [leBytes, List.length_cons, ih]

theorem leNat_leBytes (n v : Nat) : leNat (leBytes n v) = v % 256 ^ n := by
  induction n generalizing v with
  | zero => simp [leBytes, leNat, Nat.mod_one]
  | succ n ih =>
    rw [leBytes, leNat, ih, BitVec.toNat_ofNat, show 256 ^ (n + 1) = 256 * 256 ^ n from Nat.pow_succ', Nat.mod_mul]

theorem leNat_leBytes_of_lt {n v : Nat} (h : v < 256 ^ n) : leNat (leBytes n v) = v := by
  rw [leNat_leBytes, Nat.mod_eq_of_lt h]

theorem leNat_lt (bs : List Byte) : leNat bs < 256 ^ bs.length := by
  induction bs with
  | nil => simp [leNat]
  | cons b bs ih =>
    have := b.isLt
    rw [leNat, List.length_cons, Nat.pow_succ']
    omega

theorem length_spliceBytes (bs : List Byte) (i : Nat) (new : List Byte) :
    (spliceBytes bs i new).length = min i bs.length + new.length + (bs.length - (i + new.length)) := by
  simp [spliceBytes, Nat.add_assoc]

theorem length_le_spliceBytes (bs : List Byte) (i : Nat) (new : List Byte) : bs.length ≤ (spliceBytes bs i new).length := by
  rw [length_spliceBytes]
  omega

theorem length_spliceBytes_of_le {bs : List Byte} {i : Nat} {new : List Byte} (h : i + new.length ≤ bs.length) :
    (spliceBytes bs i new).length = bs.length := by
  rw [length_spliceBytes]
  omega

/-- The bytes spliced in are the field there. -/
theorem leField_spliceBytes_same {bs : List Byte} {i : Nat} (new : List Byte) (h : i ≤ bs.length) :
    leField (spliceBytes bs i new) i new.length = leNat new := by
  have hlen : (bs.take i).length = i := by rw [List.length_take]; omega
  have hdrop : (bs.take i ++ (new ++ bs.drop (i + new.length))).drop i = new ++ bs.drop (i + new.length) :=
    List.drop_left' hlen
  rw [leField, spliceBytes, List.append_assoc, hdrop, List.take_left]

/-- A field within the bytes kept. -/
theorem leField_take {bs : List Byte} {i n k : Nat} (h : i + n ≤ k) : leField (bs.take k) i n = leField bs i n := by
  rw [leField, leField, List.drop_take, List.take_take, Nat.min_eq_left (by omega)]

end Sys2Proof.Machine
end
section
/-! Frames of a MainDevice segment: their length and the raw values of their output entries (R460, R462, R476). -/

namespace Sys2Proof.Machine

open Sys2Proof Sys2Proof.Machine.Reg

theorem length_flatMap_leBytes (k : Nat) (f : Nat → Nat) : ((List.range k).flatMap fun i => leBytes 8 (f i)).length = 8 * k := by
  rw [List.length_flatMap]
  simp [Nat.mul_comm]

@[simp] theorem length_frameWords (s : State) (reg : Nat → Nat) (n : Nat) : (frameWords s reg n).length = n := by
  rw [frameWords, List.length_take, length_flatMap_leBytes]
  omega

theorem frameLen_lt (s : State) (g : Nat) : frameLen s g < 2048 := by
  have := s.get_lt (FLD_ECM_FLEN_BYTES g)
  unfold frameLen
  simp only [FLD_ECM_FLEN_BYTES] at this ⊢
  omega

theorem typeBytes_pos {ty : Nat} (h : ty < 7) : 0 < typeBytes ty := by
  interval_cases ty <;> decide

/-- Putting a raw value into a frame never shortens it. -/
theorem length_le_putRaw (ty ofs bit raw : Nat) (bs : List Byte) : bs.length ≤ (putRaw ty ofs bit raw bs).length := by
  unfold putRaw
  split <;> exact length_le_spliceBytes _ _ _

/-- An entry puts its raw value at its place; one of a reserved type nothing. -/
theorem convertEntry_fst (s : State) (g : Nat) (sub : Bool) (sent : Tbl Nat) (bs : List Byte) (e : Nat) :
    (convertEntry s g sub sent bs e).1 = if typeBytes (s.get (FLD_ECM_MAP_LO_TYPE g e)) = 0 then bs else
      putRaw (s.get (FLD_ECM_MAP_LO_TYPE g e)) (s.get (FLD_ECM_MAP_LO_OFS g e)) (s.get (FLD_ECM_MAP_LO_BIT g e))
        (convertEntry s g sub sent bs e).2 bs := rfl

/-- In substitution an entry of SUBMODE 0 gives its substitute. -/
theorem convertEntry_snd_substitute {s : State} {g e : Nat} (hmode : s.on (FLD_ECM_MAP_LO_SUBMODE g e) = false) (sent : Tbl Nat)
    (bs : List Byte) : (convertEntry s g true sent bs e).2 = outputRaw (s.get (FLD_ECM_MAP_LO_TYPE g e))
      (BitVec.ofNat 32 (s.get (FLD_ECM_MAP_HI_SUBV g e))) (BitVec.ofNat 32 (s.get (FLD_ECM_MAP_HI_SCALE g e))) := by
  unfold convertEntry
  simp only [hmode, Bool.not_true, Bool.false_eq_true, if_false]

theorem length_le_convertEntry (s : State) (g : Nat) (sub : Bool) (sent : Tbl Nat) (bs : List Byte) (e : Nat) :
    bs.length ≤ (convertEntry s g sub sent bs e).1.length := by
  rw [convertEntry_fst]
  split
  · exact Nat.le_refl _
  · exact length_le_putRaw _ _ _ _ _

theorem codeOf_lt (w : Nat) (i : Int) : codeOf w i < 2 ^ w := by
  have hpos : (0 : Int) < ((2 ^ w : Nat) : Int) := by exact_mod_cast Nat.two_pow_pos w
  have h1 := Int.emod_lt_of_pos i hpos
  have h2 := Int.emod_nonneg i (ne_of_gt hpos)
  unfold codeOf
  omega

theorem floatToUint_lt (w : Nat) (v : FVal) : floatToUint w v < 2 ^ w := by
  have hpos : 0 < 2 ^ w := Nat.two_pow_pos w
  unfold floatToUint clampInt
  split
  · exact hpos
  · split <;> omega
  · omega

/-- A raw value fits its field. -/
theorem outputRaw_lt {ty : Nat} (h : ty < 7) (w scale : Word32) : outputRaw ty w scale < 256 ^ typeBytes ty := by
  interval_cases ty
  · exact codeOf_lt 16 _
  · exact floatToUint_lt 16 _
  · exact codeOf_lt 32 _
  · exact floatToUint_lt 32 _
  · exact w.isLt
  · exact codeOf_lt 8 _
  · exact floatToUint_lt 8 _

/-- A raw value of whole bytes reads back at its place. -/
theorem leField_putRaw {ty ofs bit raw : Nat} {bs : List Byte} (hty : ty < 7) (hofs : ofs ≤ bs.length)
    (hraw : raw < 256 ^ typeBytes ty) : leField (putRaw ty ofs bit raw bs) ofs (typeBytes ty) = raw := by
  have hfield := leField_spliceBytes_same (leBytes (typeBytes ty) raw) hofs
  rw [length_leBytes, leNat_leBytes_of_lt hraw] at hfield
  rw [putRaw, if_neg (by omega)]
  exact hfield

end Sys2Proof.Machine
end
section
/-! Events of the diagnosis registers through the settling of the lines, emergencies, and the recovery epoch (R459, R545,
R546). -/

namespace Sys2Proof.Machine

open Sys2Proof Sys2Proof.Machine.Reg

/-! ### What settling keeps of DGN_EVT and of the pulses -/

/-- Settling leaves the bits of DGN_EVT beside MERGE, and takes no pulse away. -/
structure EventsKept (s t : State) : Prop where
  evt : ∀ f : Fld, f.addr = DGN_EVT → Apart DGN_EVT_MERGE f → t.get f = s.get f
  pend : ∀ x, x ∈ s.icu.pend → x ∈ t.icu.pend

theorem EventsKept.refl (s : State) : EventsKept s s := ⟨fun _ _ _ => rfl, fun _ h => h⟩

theorem EventsKept.trans {s t u : State} (h : EventsKept s t) (k : EventsKept t u) : EventsKept s u :=
  ⟨fun f ha hd => (k.evt f ha hd).trans (h.evt f ha hd), fun x hx => k.pend x (h.pend x hx)⟩

theorem eventsKept_pulse (s : State) (src : Nat) : EventsKept s (s.pulse src) := by
  unfold State.pulse
  split
  · split
    · refine ⟨fun f ha hd => ?_, fun _ h => h⟩
      rw [State.get_setOn_apart hd, State.get_count_apart (.inl (by rw [ha]; decide))]
    · exact ⟨fun _ _ _ => rfl, fun x hx => List.mem_cons_of_mem _ hx⟩
  · exact EventsKept.refl s

theorem eventsKept_msixFire (s : State) (v : Nat) : EventsKept s (s.msixFire v) := by
  unfold State.msixFire
  split
  · split
    · exact EventsKept.refl s
    · exact ⟨fun _ _ _ => rfl, fun _ h => h⟩
  · exact ⟨fun _ _ _ => rfl, fun _ h => h⟩

theorem eventsKept_foldl {α : Type} {f : State → α → State} (h : ∀ s x, EventsKept s (f s x)) (xs : List α) (s : State) :
    EventsKept s (xs.foldl f s) := by
  induction xs generalizing s with
  | nil => exact EventsKept.refl s
  | cons x xs ih => exact (h s x).trans (ih (f s x))

theorem eventsKept_settle (s0 s1 : State) : EventsKept s1 (settle s0 s1) := by
  have hedges : EventsKept s1 (settleEdges s0 s1) := eventsKept_foldl (fun s x => by
    split
    · exact eventsKept_pulse s x
    · exact EventsKept.refl s) _ _
  refine hedges.trans (eventsKept_foldl (fun s x => ?_) _ _)
  simp only
  split
  · exact eventsKept_msixFire s _
  · exact EventsKept.refl s

/-- A claim about a command with the effect `u`, whose settled state also keeps the events of `u`. -/
theorem completes_of_settled_events {i : Instr} {s u : State} {P : State → Prop} (he : exec i s = finish s u) (hon : s.powered)
    (h : ∀ t, Settled s.fuses s u t → EventsKept u t → P t) : Completes i s P := by
  obtain ⟨t, ht, hs⟩ := finish_spec s u hon
  refine ⟨t, he.trans ht, h t hs ?_⟩
  rw [finish, if_neg (by omega)] at ht
  obtain rfl := Host.Outcome.next.inj ht
  exact ⟨(eventsKept_settle s u).evt, (eventsKept_settle s u).pend⟩

theorem EventsKept.on {s t : State} (h : EventsKept s t) {f : Fld} (ha : f.addr = DGN_EVT) (hd : Apart DGN_EVT_MERGE f) :
    t.on f = s.on f := State.on_congr (h.evt f ha hd)

/-! ### Emergencies and the epoch -/

theorem Effect.emergency {regs : List Nat} {parts : List Part} {s t : State} (h : Effect regs parts s t)
    (hcnt : FLD_ECS_CNT 7 ∈ regs) (hevt : FLD_ECS_EVT ∈ regs) (hp : Part.diag ∈ parts) (code data : Nat) :
    Effect regs parts s (t.emergency code data) := by
  unfold State.emergency
  split
  · exact h.components rfl fun p hq => by
      cases p
      case diag => exact absurd hp hq
      all_goals simp [Keeps]
  · exact (h.count 1 hcnt).setOn hevt

theorem get_emergency {s : State} {f : Fld} (hcnt : f.addr ≠ FLD_ECS_CNT 7) (hevt : f.addr ≠ FLD_ECS_EVT) (code data : Nat) :
    (s.emergency code data).get f = s.get f := by
  unfold State.emergency
  split
  · rfl
  · rw [State.get_setOn_apart (.inl hevt), State.get_count_apart (.inl hcnt)]

/-- The registers of an advance of the epoch. -/
def epochRegs : List Nat := [DGN_EPOCH, DGN_EPOCH_CAUSE, FLD_ECS_CNT 7, FLD_ECS_EVT, DGN_EVT]

/-- The epoch's number and cause in a new cycle. -/
def epochNumbered (s : State) (bit : Nat) : State :=
  (s.put DGN_EPOCH_VALUE (if s.get DGN_EPOCH_VALUE = 0xFFFFFFFF then 1 else s.get DGN_EPOCH_VALUE + 1)).put
    DGN_EPOCH_CAUSE_MASK (2 ^ bit)

/-- The cycle of the last advance. -/
def epochStamped (s : State) : State := { s with epochCyc := some s.blvCyc }

theorem epochEvent_new {s : State} (h : s.epochCyc ≠ some s.blvCyc) (bit : Nat) : s.epochEvent bit =
    ((epochStamped (epochNumbered s bit)).emergency 0xFF05
      (if s.get DGN_EPOCH_VALUE = 0xFFFFFFFF then 1 else s.get DGN_EPOCH_VALUE + 1)).setOn DGN_EVT_EPOCH := by
  unfold State.epochEvent
  rw [if_neg h]
  rfl

theorem Effect.epochStamped {regs : List Nat} {parts : List Part} {s t : State} (h : Effect regs parts s t)
    (hp : Part.diag ∈ parts) : Effect regs parts s (epochStamped t) :=
  h.components rfl fun p hq => by
    cases p
    case diag => exact absurd hp hq
    all_goals simp [Keeps, Machine.epochStamped]

theorem effect_epochEvent {parts : List Part} (hp : Part.diag ∈ parts) (s : State) (bit : Nat) :
    Effect epochRegs parts s (s.epochEvent bit) := by
  by_cases h : s.epochCyc = some s.blvCyc
  · rw [State.epochEvent, if_pos h]
    exact (Effect.refl s).put _ (by decide)
  · rw [epochEvent_new h]
    exact (((((Effect.refl s).put _ (by decide)).put _ (by decide)).epochStamped hp).emergency (by decide) (by decide) hp _ _).setOn
      (by decide)

theorem Effect.epochEvent {regs : List Nat} {parts : List Part} {s t : State} (h : Effect regs parts s t) (hr : epochRegs ⊆ regs)
    (hp : Part.diag ∈ parts) (bit : Nat) : Effect regs parts s (t.epochEvent bit) :=
  h.trans ((effect_epochEvent hp t bit).mono hr (List.Subset.refl _))

theorem get_epochStamped (s : State) (f : Fld) : (epochStamped s).get f = s.get f := rfl

section

variable {s : State} (h : s.epochCyc ≠ some s.blvCyc) (bit : Nat)
include h

theorem cause_epochEvent (hbit : bit < 7) : (s.epochEvent bit).get DGN_EPOCH_CAUSE_MASK = 2 ^ bit := by
  rw [epochEvent_new h, State.get_setOn_apart (by decide), get_emergency (by decide) (by decide), get_epochStamped]
  exact State.get_put_of_lt (by decide) (show 2 ^ bit < 2 ^ 7 from Nat.pow_lt_pow_right (by decide) hbit)

theorem value_epochEvent : (s.epochEvent bit).get DGN_EPOCH_VALUE =
    if s.get DGN_EPOCH_VALUE = 0xFFFFFFFF then 1 else s.get DGN_EPOCH_VALUE + 1 := by
  have hlt : s.get DGN_EPOCH_VALUE < 2 ^ 32 := s.get_lt DGN_EPOCH_VALUE
  rw [epochEvent_new h, State.get_setOn_apart (by decide), get_emergency (by decide) (by decide), get_epochStamped,
    epochNumbered, State.get_put_apart (by decide)]
  generalize s.get DGN_EPOCH_VALUE = x at hlt ⊢
  refine State.get_put_of_lt (by decide) (show _ < 2 ^ 32 from ?_)
  split <;> omega

theorem event_epochEvent : (s.epochEvent bit).on DGN_EVT_EPOCH = true := by
  rw [epochEvent_new h, State.on_eq_true_iff, State.get_setOn (by decide)]

end

/-- A cause is among those of the epoch's cycle. -/
theorem cause_epochEvent_testBit (s : State) {bit : Nat} (hbit : bit < 7) :
    ((s.epochEvent bit).get DGN_EPOCH_CAUSE_MASK).testBit bit = true := by
  by_cases h : s.epochCyc = some s.blvCyc
  · rw [State.epochEvent, if_pos h, State.get_put_self (by decide), Nat.testBit_mod_two_pow, Nat.testBit_or,
      Nat.testBit_two_pow_self, Bool.or_true, Bool.and_true]
    exact decide_eq_true (show bit < 7 from hbit)
  · rw [cause_epochEvent h bit hbit, Nat.testBit_two_pow_self]

end Sys2Proof.Machine
end
section
/-! The rows of the register table: their fields lie apart, and what an access names is a row. -/

namespace Sys2Proof.Machine

open Sys2Proof Sys2Proof.Machine.Reg

/-- The fields of a row lie within 64 bits, apart from each other; CLAIM has 32 bits. -/
def rowInOrder (d : RegDesc) : Bool :=
  d.fields.all (fun f => decide (f.lo ≤ f.hi) && decide (f.hi < 64)) &&
    decide (d.fields.Pairwise fun f g => f.hi < g.lo ∨ g.hi < f.lo) &&
    (d.base != BLV_ICU_T_CLAIM 0 || d.width == 32)

theorem rows_inOrder : (Reg.blocks.all fun b => b.2.all rowInOrder) = true := by decide +kernel

theorem mem_of_rowAt {a : Nat} {t : List RegDesc} {d : RegDesc} {is : List Nat} {up : Bool}
    (h : rowAt a t = some (d, is, up)) : d ∈ t := by
  induction t with
  | nil => exact nomatch h
  | cons e t ih =>
    unfold rowAt at h
    split at h
    · split at h
      · obtain rfl := (Prod.mk.inj (Option.some.inj h)).1
        exact List.mem_cons_self
      · split at h
        · obtain rfl := (Prod.mk.inj (Option.some.inj h)).1
          exact List.mem_cons_self
        · exact List.mem_cons_of_mem _ (ih h)
      · exact List.mem_cons_of_mem _ (ih h)
    · exact List.mem_cons_of_mem _ (ih h)

/-- The register an address names in tables of blocks. -/
def rowIn (bs : List (Nat × List RegDesc)) (a : Nat) : Option (RegDesc × List Nat × Bool) :=
  match bs.find? fun b => b.1 = a / 0x1000000 * 0x1000000 with
  | some (_, t) => rowAt a t
  | none => none

theorem regAt_eq_rowIn (a : Nat) : regAt a = rowIn Reg.blocks a := rfl

theorem of_rowIn {bs : List (Nat × List RegDesc)} {p : RegDesc → Bool} (hall : (bs.all fun b => b.2.all p) = true) {a : Nat}
    {d : RegDesc} {is : List Nat} {up : Bool} (h : rowIn bs a = some (d, is, up)) : p d = true := by
  unfold rowIn at h
  split at h
  next t hfind =>
    have ht := List.all_eq_true.mp hall _ (List.mem_of_find?_eq_some hfind)
    exact List.all_eq_true.mp ht d (mem_of_rowAt h)
  · exact nomatch h

theorem inOrder_of_regAt {a : Nat} {d : RegDesc} {is : List Nat} {up : Bool} (h : regAt a = some (d, is, up)) :
    rowInOrder d = true := of_rowIn rows_inOrder ((regAt_eq_rowIn a).symm.trans h)

/-- What an access names is a row of the table. -/
theorem inOrder_of_regHit {s : State} {who : Initiator} {a : Nat} {h : RegHit} (hh : regHit s who a = some h) :
    rowInOrder h.desc = true := by
  unfold regHit at hh
  split at hh
  · exact nomatch hh
  · split at hh
    · exact nomatch hh
    · split at hh
      next hat => exact Option.some.inj hh ▸ inOrder_of_regAt hat
      · exact nomatch hh

section

variable {d : RegDesc} (hd : rowInOrder d = true)
include hd

theorem fields_lt_of_inOrder : ∀ f ∈ d.fields, f.hi < 64 := by
  intro f hf
  simp only [rowInOrder, Bool.and_eq_true, List.all_eq_true, decide_eq_true_eq] at hd
  exact (hd.1.1 f hf).2

theorem fields_le_of_inOrder : ∀ f ∈ d.fields, f.lo ≤ f.hi := by
  intro f hf
  simp only [rowInOrder, Bool.and_eq_true, List.all_eq_true, decide_eq_true_eq] at hd
  exact (hd.1.1 f hf).1

/-- A bit lies in one field at most. -/
theorem field_unique_of_inOrder {f g : FieldDesc} (hf : f ∈ d.fields) (hg : g ∈ d.fields) {i : Nat} (hfi : f.lo ≤ i ∧ i ≤ f.hi)
    (hgi : g.lo ≤ i ∧ i ≤ g.hi) : g = f := by
  simp only [rowInOrder, Bool.and_eq_true, decide_eq_true_eq] at hd
  by_contra hne
  obtain ⟨⟨-, hpair⟩, -⟩ := hd
  have hsymm : Std.Symm fun f g : FieldDesc => f.hi < g.lo ∨ g.hi < f.lo := ⟨fun _ _ h => h.symm⟩
  have := hpair.forall hg hf hne
  omega

/-- A mask has a field's bits by its kind. -/
theorem testBit_kindMask_field {f : FieldDesc} (hf : f ∈ d.fields) {i : Nat} (hi : f.lo ≤ i ∧ i ≤ f.hi) (p : FieldKind → Bool) :
    (kindMask d p).testBit i = p f.kind := by
  rw [testBit_kindMask, Bool.eq_iff_iff, List.any_eq_true]
  constructor
  · rintro ⟨g, hg, h⟩
    simp only [Bool.and_eq_true, decide_eq_true_eq] at h
    exact field_unique_of_inOrder hd hf hg hi h.2 ▸ h.1
  · intro hp
    exact ⟨f, hf, by simp [hp, hi]⟩

theorem w1c_static_of_inOrder : w1cMask d &&& kindMask d (· == .static) = 0 := by
  apply Nat.eq_of_testBit_eq
  intro i
  rw [Nat.testBit_and, Nat.zero_testBit]
  by_contra h
  rw [Bool.not_eq_false, Bool.and_eq_true] at h
  obtain ⟨hw, hs⟩ := h
  rw [w1cMask, testBit_kindMask, List.any_eq_true] at hw
  obtain ⟨f, hf, hw⟩ := hw
  simp only [Bool.and_eq_true, decide_eq_true_eq, beq_iff_eq] at hw
  rw [testBit_kindMask_field hd hf hw.2, hw.1] at hs
  exact absurd hs (by decide)

end

/-! ### What an accepted write does to a field -/

/-- The word of a held copy after a write. -/
def heldWord (d : RegDesc) (old v : Nat) : Nat := mergeBits (kindMask d (· == .shadowed)) old v

theorem bitsOf_congr {x y hi lo : Nat} (h : ∀ i, lo ≤ i → i ≤ hi → x.testBit i = y.testBit i) :
    bitsOf x hi lo = bitsOf y hi lo := by
  apply Nat.eq_of_testBit_eq
  intro i
  rw [testBit_bitsOf, testBit_bitsOf]
  by_cases hi' : i < hi + 1 - lo
  · rw [h (lo + i) (by omega) (by omega)]
  · simp [hi']

section

variable {d : RegDesc} (hd : rowInOrder d = true) {f : FieldDesc} (hf : f ∈ d.fields) (old fresh v : Nat)
include hd hf

/-- A bit of a field after a write, by the field's kind. -/
theorem testBit_storedWord_field {i : Nat} (hi : f.lo ≤ i ∧ i ≤ f.hi) : (storedWord d old (clearing d fresh v)).testBit i =
    match f.kind with
    | .live => v.testBit i
    | .static => v.testBit i
    | .w1c => old.testBit i && !(v.testBit i && !fresh.testBit i)
    | _ => old.testBit i := by
  have hfields := fields_lt_of_inOrder hd
  have h64 : i < 64 := Nat.lt_of_le_of_lt hi.2 (hfields f hf)
  rw [testBit_storedWord hfields _ _ h64, testBit_clearing hfields _ _ h64, rwMask, w1cMask, testBit_kindMask_field hd hf hi,
    testBit_kindMask_field hd hf hi]
  cases f.kind <;> cases old.testBit i <;> cases v.testBit i <;> cases fresh.testBit i <;> rfl

theorem testBit_heldWord_field (hk : f.kind = .shadowed) {i : Nat} (hi : f.lo ≤ i ∧ i ≤ f.hi) :
    (heldWord d old (clearing d fresh v)).testBit i = v.testBit i := by
  have hfields := fields_lt_of_inOrder hd
  have h64 : i < 64 := Nat.lt_of_le_of_lt hi.2 (hfields f hf)
  rw [heldWord, testBit_mergeBits (kindMask_lt hfields _) _ _ h64, testBit_clearing hfields _ _ h64, w1cMask,
    testBit_kindMask_field hd hf hi, testBit_kindMask_field hd hf hi, hk]
  simp

end

/-- A register that no hook follows. -/
theorem afterWrite_none {base : Nat} (h : (hookRows.find? fun r => r.1 = base) = none) (is : List Nat) (old v : Nat) (s : State) :
    afterWrite base is old v s = s := by
  unfold afterWrite
  rw [h]

/-- A register stored by a write. -/
def regStored (s : State) (d : RegDesc) (a v : Nat) : State :=
  State.wr (if kindMask d (· == .shadowed) = 0 then s else s.heldWr a (BitVec.ofNat 64
      (heldWord d (s.heldRd a).toNat (clearing d (s.freshBits a) v)))) a
    (BitVec.ofNat 64 (storedWord d (s.rd a).toNat (clearing d (s.freshBits a) v)))

theorem rd_regStored_same (s : State) (d : RegDesc) {a v : Nat} (hv : v < 2 ^ 64) :
    ((regStored s d a v).rd a).toNat = storedWord d (s.rd a).toNat (clearing d (s.freshBits a) v) := by
  rw [regStored, State.rd_wr_same, State.toNat_ofNat_rd (storedWord_lt (s.rd a).isLt (clearing_lt hv))]

theorem rd_regStored_ne (s : State) (d : RegDesc) {a b : Nat} (v : Nat) (h : b ≠ a) : (regStored s d a v).rd b = s.rd b := by
  rw [regStored, State.rd_wr_ne _ _ _ _ h]
  split <;> rfl

theorem heldRd_regStored_same (s : State) {d : RegDesc} (hsh : kindMask d (· == .shadowed) ≠ 0) {a v : Nat} (hv : v < 2 ^ 64) :
    ((regStored s d a v).heldRd a).toNat = heldWord d (s.heldRd a).toNat (clearing d (s.freshBits a) v) := by
  rw [regStored, if_neg hsh]
  show (tgetD (tset s.heldRegs a _) a _).toNat = _
  rw [tgetD_tset_same, State.toNat_ofNat_rd]
  exact mergeBits_lt (s.heldRd a).isLt (clearing_lt hv)

theorem effect_regStored (s : State) (d : RegDesc) (a v : Nat) : Effect [a] [.held] s (regStored s d a v) :=
  ⟨fun b hb => rd_regStored_ne s d v (by simpa using hb), fun p hp => by
    unfold regStored
    split <;> cases p
    case isTrue.held | isFalse.held => simp at hp
    all_goals simp [Keeps]⟩

/-- Each field of a stored register follows its access code and class. -/
theorem fieldWritten_regStored {s : State} {d : RegDesc} (hd : rowInOrder d = true) {a v : Nat} (hv : v < 2 ^ 64)
    {f : FieldDesc} (hf : f ∈ d.fields) : FieldWritten s (regStored s d a v) a v f := by
  have hbit {i : Nat} (hi : f.lo ≤ i ∧ i ≤ f.hi) := testBit_storedWord_field hd hf (s.rd a).toNat (s.freshBits a) v hi
  have hget : (regStored s d a v).get ⟨a, f.hi, f.lo⟩ =
      bitsOf (storedWord d (s.rd a).toNat (clearing d (s.freshBits a) v)) f.hi f.lo := by
    rw [State.get, rd_regStored_same s d hv]
  have hstands (hk : f.kind = .shadowed ∨ f.kind = .ro ∨ f.kind = .wo) :
      (regStored s d a v).get ⟨a, f.hi, f.lo⟩ = s.get ⟨a, f.hi, f.lo⟩ := by
    rw [hget]
    refine bitsOf_congr fun i hlo hhi => (hbit ⟨hlo, hhi⟩).trans ?_
    rcases hk with hk | hk | hk <;> rw [hk]
  unfold FieldWritten
  split
  case h_1 hk | h_2 hk =>
    rw [hget]
    exact bitsOf_congr fun i hlo hhi => by rw [hbit ⟨hlo, hhi⟩, hk]
  case h_3 hk =>
    have hsh : kindMask d (· == .shadowed) ≠ 0 := by
      intro hzero
      have hlo := fields_le_of_inOrder hd f hf
      have h := testBit_kindMask_field hd hf ⟨Nat.le_refl f.lo, hlo⟩ (· == .shadowed)
      rw [hzero, Nat.zero_testBit, hk] at h
      exact absurd h (by decide)
    refine ⟨?_, hstands (.inl hk)⟩
    rw [State.heldGet, heldRd_regStored_same s hsh hv]
    exact bitsOf_congr fun i hlo hhi => testBit_heldWord_field hd hf _ _ _ hk ⟨hlo, hhi⟩
  case h_4 hk =>
    intro i hlo hhi
    rw [rd_regStored_same s d hv, hbit ⟨hlo, hhi⟩, hk]
  case h_5 hk => exact hstands (.inr (.inl hk))
  case h_6 hk => exact hstands (.inr (.inr hk))

end Sys2Proof.Machine
end
section
/-! The state of MainDevice segments: what an update of one leaves, and frames held in registers (R460, R476). -/

namespace Sys2Proof.Machine

open Sys2Proof Sys2Proof.Machine.Reg

/-! ### Segments -/

@[simp] theorem segOf_setSeg_same (s : State) (g : Nat) (x : Seg) : segOf (s.setSeg g x) g = x := tgetD_tset_same ..

theorem segOf_setSeg_ne (s : State) {g m : Nat} (x : Seg) (h : m ≠ g) : segOf (s.setSeg g x) m = segOf s m :=
  tgetD_tset_ne _ _ _ _ _ h

theorem segOf_congr {s t : State} (h : t.segs = s.segs) (g : Nat) : segOf t g = segOf s g := congrArg (tgetD · g Seg.idle) h

theorem Settled.segOf {f : Fuses} {s u t : State} (h : Settled f s u t) (g : Nat) : segOf t g = segOf u g := segOf_congr h.segs g

theorem Effect.setSeg {regs : List Nat} {parts : List Part} {s t : State} (h : Effect regs parts s t) (hp : Part.segs ∈ parts)
    (g : Nat) (x : Seg) : Effect regs parts s (t.setSeg g x) :=
  h.components rfl fun p hq => by
    cases p
    case segs => exact absurd hp hq
    all_goals simp [Keeps, State.setSeg]

theorem Effect.segOf {regs : List Nat} {parts : List Part} {s t : State} (h : Effect regs parts s t) (hp : Part.segs ∉ parts)
    (g : Nat) : segOf t g = segOf s g := segOf_congr (h.keeps .segs hp) g

@[simp] theorem get_setSeg (s : State) (g : Nat) (x : Seg) (f : Fld) : (s.setSeg g x).get f = s.get f := rfl

@[simp] theorem on_setSeg (s : State) (g : Nat) (x : Seg) (f : Fld) : (s.setSeg g x).on f = s.on f := rfl

/-- No register of the segments is the merge count or its event. -/
theorem segment_settles {a : Nat} (h : a < DGN_EPOCH) : a ≠ DGN_CNT_MERGE ∧ a ≠ DGN_EVT := by
  unfold DGN_EPOCH at h
  unfold DGN_CNT_MERGE DGN_EVT
  omega

theorem State.testBit_rd_of_on {s : State} {f : Fld} (hf : f.hi = f.lo) (h : s.on f = true) :
    (s.rd f.addr).toNat.testBit f.lo = true := by
  have hbit := congrArg (Nat.testBit · 0) (State.on_eq_true_iff.mp h)
  simp only [State.get, testBit_bitsOf, hf, Nat.add_sub_cancel_left, Nat.add_zero] at hbit
  exact hbit

/-! ### Frames in registers -/

theorem leBytes_leNat (bs : List Byte) : leBytes bs.length (leNat bs) = bs := by
  induction bs with
  | nil => rfl
  | cons b bs ih =>
    have hb := b.isLt
    rw [List.length_cons, leNat, leBytes, show (b.toNat + 256 * leNat bs) / 256 = leNat bs by omega, ih]
    refine congrArg (· :: bs) (BitVec.eq_of_toNat_eq ?_)
    rw [BitVec.toNat_ofNat]
    omega

/-- Words of eight bytes, each begun by the next bytes of a frame, begin with the frame. -/
theorem take_flatMap_words (k : Nat) (word : Nat → List Byte) (bs : List Byte) (hk : bs.length ≤ 8 * k)
    (hlen : ∀ i, (word i).length = 8) (hword : ∀ i, i < k → (word i).take ((bs.drop (8 * i)).take 8).length = (bs.drop (8 * i)).take 8) :
    ((List.range k).flatMap word).take bs.length = bs := by
  induction k generalizing word bs with
  | zero => simp [List.length_eq_zero_iff.mp (Nat.le_zero.mp hk)]
  | succ k ih =>
    have hrest := ih (fun i => word (i + 1)) (bs.drop 8) (by rw [List.length_drop]; omega) (fun i => hlen (i + 1)) fun i hi => by
      rw [List.drop_drop, show 8 + 8 * i = 8 * (i + 1) by omega]
      exact hword (i + 1) (by omega)
    have hfirst : (word 0).take bs.length = bs.take 8 := by
      have h := hword 0 (by omega)
      rw [Nat.mul_zero, List.drop_zero, List.length_take] at h
      rw [← h]
      rcases Nat.le_total 8 bs.length with hle | hle
      · rw [Nat.min_eq_left hle, List.take_of_length_le (by rw [hlen]; exact hle), List.take_of_length_le (by rw [hlen])]
      · rw [Nat.min_eq_right hle]
    rw [List.range_succ_eq_map, List.flatMap_cons, List.flatMap_map, List.take_append, hlen, hfirst]
    rw [List.length_drop] at hrest
    rw [hrest, List.take_append_drop]

/-- The word of a frame's register after the frame has been written. -/
def frameWord (s : State) (reg : Nat → Nat) (bs : List Byte) (i : Nat) : List Byte :=
  spliceBytes (leBytes 8 (s.rd (reg i)).toNat) 0 ((bs.drop (8 * i)).take 8)

theorem length_frameWord (s : State) (reg : Nat → Nat) (bs : List Byte) (i : Nat) : (frameWord s reg bs i).length = 8 := by
  rw [frameWord, length_spliceBytes_of_le, length_leBytes]
  rw [length_leBytes, List.length_take]
  omega

theorem take_frameWord (s : State) (reg : Nat → Nat) (bs : List Byte) (i : Nat) :
    (frameWord s reg bs i).take ((bs.drop (8 * i)).take 8).length = (bs.drop (8 * i)).take 8 := by
  rw [frameWord, spliceBytes, List.take_zero, List.nil_append, List.take_left]

theorem forUpTo_succ {σ : Type} (n : Nat) (f : Nat → σ → σ) (s : σ) : forUpTo (n + 1) f s = f n (forUpTo n f s) := by
  rw [forUpTo, List.range_succ, List.foldl_append]
  rfl

/-- One word of a frame written. -/
def putFrameWord (reg : Nat → Nat) (bs : List Byte) (i : Nat) (s : State) : State :=
  s.wr (reg i) (BitVec.ofNat 64 (leNat (frameWord s reg bs i)))

theorem putFrameWords_eq (s : State) (reg : Nat → Nat) (bs : List Byte) :
    putFrameWords s reg bs = forUpTo ((bs.length + 7) / 8) (putFrameWord reg bs) s := rfl

theorem rd_forUpTo_putFrameWord_ne {reg : Nat → Nat} {a n : Nat} (h : ∀ i, i < n → a ≠ reg i) (s : State) (bs : List Byte) :
    (forUpTo n (putFrameWord reg bs) s).rd a = s.rd a := by
  induction n with
  | zero => rfl
  | succ n ih =>
    rw [forUpTo_succ, putFrameWord, State.rd_wr_ne _ _ _ _ (h n (by omega))]
    exact ih fun i hi => h i (by omega)

theorem rd_forUpTo_putFrameWord {reg : Nat → Nat} (hinj : ∀ i j, reg i = reg j → i = j) {i n : Nat} (hi : i < n) (s : State)
    (bs : List Byte) : (forUpTo n (putFrameWord reg bs) s).rd (reg i) = BitVec.ofNat 64 (leNat (frameWord s reg bs i)) := by
  induction n with
  | zero => omega
  | succ n ih =>
    rw [forUpTo_succ, putFrameWord]
    rcases Nat.lt_or_eq_of_le (Nat.lt_succ_iff.mp hi) with hlt | rfl
    · rw [State.rd_wr_ne _ _ _ _ (fun he => by have := hinj _ _ he; omega)]
      exact ih hlt
    · rw [State.rd_wr_same, frameWord, rd_forUpTo_putFrameWord_ne (fun j hj he => by have := hinj _ _ he; omega)]
      rfl

/-- A frame written to registers is read back. -/
theorem frameWords_putFrameWords {reg : Nat → Nat} (hinj : ∀ i j, reg i = reg j → i = j) (s : State) (bs : List Byte) :
    frameWords (putFrameWords s reg bs) reg bs.length = bs := by
  rw [putFrameWords_eq, frameWords]
  refine take_flatMap_words _ _ bs (by omega) (fun i => length_leBytes _ _) fun i hi => ?_
  have hlt := leNat_lt (frameWord s reg bs i)
  have hword := leBytes_leNat (frameWord s reg bs i)
  rw [length_frameWord] at hlt hword
  rw [rd_forUpTo_putFrameWord hinj hi, BitVec.toNat_ofNat, Nat.mod_eq_of_lt (show _ < 2 ^ 64 from hlt), hword]
  exact take_frameWord s reg bs i

theorem Effect.putFrameWords {regs : List Nat} {parts : List Part} {s t : State} (h : Effect regs parts s t) {reg : Nat → Nat}
    {bs : List Byte} (hr : ∀ i, i < (bs.length + 7) / 8 → reg i ∈ regs) : Effect regs parts s (putFrameWords t reg bs) :=
  h.forUpTo fun u i hi => (Effect.refl u).wr _ (hr i hi)

theorem mem_each {n : Nat} {f : Nat → Nat} {i : Nat} (hi : i < n) : f i ∈ each n f :=
  List.mem_map_of_mem (List.mem_range.mpr hi)

theorem frameWords_congr {s t : State} {reg : Nat → Nat} {n : Nat} (h : ∀ i, i < (n + 7) / 8 → t.rd (reg i) = s.rd (reg i)) :
    frameWords t reg n = frameWords s reg n := by
  rw [frameWords, frameWords, List.flatMap_congr fun i hi => by rw [h i (List.mem_range.mp hi)]]

end Sys2Proof.Machine
end
section
/-! Pulses of interrupt sources through the settling of the lines (R376, R385). -/

namespace Sys2Proof.Machine

open Sys2Proof Sys2Proof.Machine.Reg

theorem mem_pend_pulse {s : State} {src : Nat} (h : s.on (BLV_ICU_SRC_EDGE src) = true) : src ∈ (s.pulse src).icu.pend := by
  rw [State.pulse, if_pos h]
  split
  · assumption
  · exact List.mem_cons_self

theorem icuSrc_settles {src : Nat} (h : src < 1024) : BLV_ICU_SRC src ≠ DGN_CNT_MERGE ∧ BLV_ICU_SRC src ≠ DGN_EVT := by
  unfold BLV_ICU_SRC DGN_CNT_MERGE DGN_EVT
  omega

/-- A pulse of a source with edge sense is pending at the end of the command. -/
theorem icuPending_of_pulse {fs : Fuses} {s u t : State} {src : Nat} (hsrc : src < 1024) (hs : Settled fs s (u.pulse src) t)
    (hk : EventsKept (u.pulse src) t) (h : u.on (BLV_ICU_SRC_EDGE src) = true) : icuPending t src = true := by
  obtain ⟨h1, h2⟩ := icuSrc_settles hsrc
  have hedge : t.on (BLV_ICU_SRC_EDGE src) = true := by
    rw [hs.on _ h1 h2, State.on_congr ((pulse_line u src).get _ h1 h2), h]
  rw [icuPending, if_pos hedge]
  exact decide_eq_true (hk.pend _ (mem_pend_pulse h))

end Sys2Proof.Machine
end
section
/-! Raised event bits, and shadow groups: what a snapshot and a latch do (R17–R22). -/

namespace Sys2Proof.Machine

open Sys2Proof Sys2Proof.Machine.Reg

/-! ### Raised bits -/

namespace State

variable {s : State} {f g : Fld}

@[simp] theorem get_raise_apart (h : Apart f g) (bits : Nat) : (s.raise f bits).get g = s.get g := get_put_apart h _

theorem get_raise (h : ValidFld f) (bits : Nat) : (s.raise f bits).get f = (s.get f ||| bits) % 2 ^ (f.hi + 1 - f.lo) :=
  get_put_self h _

/-- An event of a register of 32 bits. -/
theorem get_raise_of_lt (h : ValidFld f) {bits : Nat} (hb : bits < 2 ^ (f.hi + 1 - f.lo)) :
    (s.raise f bits).get f = s.get f ||| bits := by
  rw [get_raise h, Nat.mod_eq_of_lt (Nat.or_lt_two_pow (s.get_lt f) hb)]

end State

theorem Effect.raise {regs : List Nat} {parts : List Part} {s t : State} (h : Effect regs parts s t) {f : Fld} (bits : Nat)
    (hf : f.addr ∈ regs) : Effect regs parts s (t.raise f bits) :=
  (h.put _ hf).trans ⟨fun _ _ => rfl, fun p _ => by cases p <;> simp [Keeps, State.raise]⟩

/-! ### Snapshots and latches -/

theorem tget_foldl_tset {α : Type} (xs : List Nat) (f : Nat → α) (t : Tbl α) {a : Nat} (h : a ∈ xs ∨ tget t a = some (f a)) :
    tget (xs.foldl (fun t x => tset t x (f x)) t) a = some (f a) := by
  induction xs generalizing t with
  | nil => exact h.resolve_left (by simp)
  | cons x xs ih =>
    refine ih _ ?_
    by_cases hx : a = x
    · exact .inr (by rw [hx, tget_tset_same])
    · rw [tget_tset_ne _ _ _ _ hx]
      rcases h with h | h
      · exact .inl ((List.mem_cons.mp h).resolve_left hx)
      · exact .inr h

namespace State

variable {s : State} {k : Nat}

@[simp] theorem isPending_snapshot : (s.snapshot k).isPending k = true := by
  rw [isPending, snapshot, tget_tset_same]
  rfl

/-- A pending set holds the copies held when it was taken, in every state that has it. -/
theorem pendRd_of_snapshot {t : State} {r : Nat × Nat} (hr : r ∈ keyRegs k) (h : t.pendSets = (s.snapshot k).pendSets) :
    t.pendRd k r.1 = s.heldRd r.1 := by
  have hset := tget_foldl_tset ((keyRegs k).map Prod.fst) s.heldRd [] (a := r.1) (.inl (List.mem_map_of_mem hr))
  rw [List.foldl_map] at hset
  rw [pendRd, h, snapshot, tget_tset_same]
  exact congrArg (Option.getD · _) hset

theorem pendRd_snapshot {r : Nat × Nat} (hr : r ∈ keyRegs k) : (s.snapshot k).pendRd k r.1 = s.heldRd r.1 :=
  pendRd_of_snapshot hr rfl

end State

/-- Words without common bits add bit by bit. -/
theorem add_eq_or_of_and_eq_zero {a b : Nat} (h : a &&& b = 0) : a + b = a ||| b := by
  have hlt : a + b < 2 ^ (a + b) := Nat.lt_two_pow_self
  have ha : (BitVec.ofNat (a + b) a).toNat = a := by rw [BitVec.toNat_ofNat, Nat.mod_eq_of_lt (by omega)]
  have hb : (BitVec.ofNat (a + b) b).toNat = b := by rw [BitVec.toNat_ofNat, Nat.mod_eq_of_lt (by omega)]
  have hand : BitVec.ofNat (a + b) a &&& BitVec.ofNat (a + b) b = 0#(a + b) := by
    refine BitVec.eq_of_toNat_eq ?_
    rw [BitVec.toNat_and, ha, hb, h]
    simp
  have hsum := congrArg BitVec.toNat (BitVec.add_eq_or_of_and_eq_zero _ _ hand)
  rwa [BitVec.toNat_add, BitVec.toNat_or, ha, hb, Nat.mod_eq_of_lt hlt] at hsum

/-- What a latch gives a register: the pending set's bits in the shadowed fields. -/
theorem latchWord_eq {m old v : Nat} (hm : m < 2 ^ 64) (hold : old < 2 ^ 64) (hv : v < 2 ^ 64) :
    old - (old &&& m) + (v &&& m) = mergeBits m old v := by
  have hmask (x i : Nat) (hi : i < 64) : (x &&& (2 ^ 64 - 1 - m)).testBit i = (x.testBit i && !m.testBit i) := by
    rw [Nat.testBit_and, show 2 ^ 64 - 1 - m = 2 ^ 64 - (m + 1) by omega, Nat.testBit_two_pow_sub_succ hm, decide_eq_true hi,
      Bool.true_and]
  have hlow (x y : Nat) (hx : x < 2 ^ 64) : x &&& y < 2 ^ 64 := Nat.lt_of_le_of_lt Nat.and_le_left hx
  have hdis (x y : Nat) (hx : x < 2 ^ 64) (hy : y < 2 ^ 64) : (x &&& (2 ^ 64 - 1 - m)) &&& (y &&& m) = 0 :=
    eq_of_testBit_lt_64 (hlow _ _ (hlow _ _ hx)) (by decide) fun i hi => by
      rw [Nat.testBit_and, hmask x i hi, Nat.testBit_and, Nat.zero_testBit]
      cases m.testBit i <;> simp
  have hsplit : (old &&& (2 ^ 64 - 1 - m)) + (old &&& m) = old := by
    rw [add_eq_or_of_and_eq_zero (hdis old old hold hold)]
    refine eq_of_testBit_lt_64 (Nat.or_lt_two_pow (hlow _ _ hold) (hlow _ _ hold)) hold fun i hi => ?_
    rw [Nat.testBit_or, hmask old i hi, Nat.testBit_and]
    cases m.testBit i <;> simp
  rw [show old - (old &&& m) = old &&& (2 ^ 64 - 1 - m) by omega, add_eq_or_of_and_eq_zero (hdis old v hold hv), mergeBits]

/-- A register latched. -/
def latchReg (t : Tbl Word64) (s : State) (r : Nat × Nat) : State :=
  s.wr r.1 (BitVec.ofNat 64 ((s.rd r.1).toNat - ((s.rd r.1).toNat &&& r.2) + ((tgetD t r.1 (s.rd r.1)).toNat &&& r.2)))

theorem latch_of_pending {s : State} {k : Nat} {t : Tbl Word64} (h : tget s.pendSets k = some t) :
    s.latch k = ((keyRegs k).foldl (latchReg t) s).dropPending k := by
  rw [State.latch, h]
  rfl

theorem latch_of_none {s : State} {k : Nat} (h : s.isPending k = false) : s.latch k = s := by
  have hnone : tget s.pendSets k = none := Option.not_isSome_iff_eq_none.mp (by rw [← State.isPending, h]; exact Bool.false_ne_true)
  rw [State.latch, hnone]

theorem rd_foldl_latchReg_ne {t : Tbl Word64} {a : Nat} (rs : List (Nat × Nat)) (h : a ∉ rs.map Prod.fst) (s : State) :
    (rs.foldl (latchReg t) s).rd a = s.rd a := by
  induction rs generalizing s with
  | nil => rfl
  | cons r rs ih =>
    rw [List.map_cons, List.mem_cons, not_or] at h
    rw [List.foldl_cons, ih h.2, latchReg, State.rd_wr_ne _ _ _ _ h.1]

theorem rd_foldl_latchReg {t : Tbl Word64} {r : Nat × Nat} (rs : List (Nat × Nat)) (hr : r ∈ rs) (hnd : (rs.map Prod.fst).Nodup)
    (s : State) : (rs.foldl (latchReg t) s).rd r.1 =
      BitVec.ofNat 64 ((s.rd r.1).toNat - ((s.rd r.1).toNat &&& r.2) + ((tgetD t r.1 (s.rd r.1)).toNat &&& r.2)) := by
  induction rs generalizing s with
  | nil => exact absurd hr (by simp)
  | cons x rs ih =>
    rw [List.map_cons, List.nodup_cons] at hnd
    obtain ⟨hx, hnd⟩ := hnd
    rw [List.foldl_cons]
    rcases List.mem_cons.mp hr with rfl | hmem
    · rw [rd_foldl_latchReg_ne rs hx, latchReg, State.rd_wr_same]
    · have hne : r.1 ≠ x.1 := fun he => hx (he ▸ List.mem_map_of_mem hmem)
      rw [ih hmem hnd, latchReg, State.rd_wr_ne _ _ _ _ hne]

/-- A register after the latch of a set just taken: the held bits in its shadowed fields. -/
theorem rd_latch_snapshot {s : State} {k : Nat} {r : Nat × Nat} (hr : r ∈ keyRegs k) (hnd : ((keyRegs k).map Prod.fst).Nodup)
    (hm : r.2 < 2 ^ 64) : ((s.snapshot k).latch k).rd r.1 =
      BitVec.ofNat 64 (mergeBits r.2 (s.rd r.1).toNat (s.heldRd r.1).toNat) := by
  have hset := State.pendRd_snapshot (s := s) hr
  rw [State.pendRd, State.snapshot, tget_tset_same] at hset
  rw [latch_of_pending (by rw [State.snapshot, tget_tset_same])]
  refine (rd_foldl_latchReg _ hr hnd _).trans ?_
  rw [← latchWord_eq hm (s.rd r.1).isLt (s.heldRd r.1).isLt]
  exact congrArg (fun x => BitVec.ofNat 64 ((s.rd r.1).toNat - ((s.rd r.1).toNat &&& r.2) + (BitVec.toNat x &&& r.2))) hset

theorem Effect.pendSets {regs : List Nat} {parts : List Part} {s t : State} (h : Effect regs parts s t) (x : Tbl (Tbl Word64))
    (hp : Part.held ∈ parts) : Effect regs parts s { t with pendSets := x } :=
  h.components rfl fun p hq => by
    cases p
    case held => exact absurd hp hq
    all_goals simp [Keeps]

theorem Effect.snapshot {regs : List Nat} {parts : List Part} {s t : State} (h : Effect regs parts s t) (k : Nat)
    (hp : Part.held ∈ parts) : Effect regs parts s (t.snapshot k) := h.pendSets _ hp

theorem Effect.latch {regs : List Nat} {parts : List Part} {s t : State} (h : Effect regs parts s t) {k : Nat}
    (hr : ∀ r ∈ keyRegs k, r.1 ∈ regs) (hp : Part.held ∈ parts) : Effect regs parts s (t.latch k) := by
  unfold State.latch
  split
  · exact h
  · exact (h.foldl fun u r hm => (Effect.refl u).wr _ (hr r hm)).pendSets _ hp

theorem isPending_latch (s : State) (k : Nat) : (s.latch k).isPending k = false := by
  unfold State.latch
  split
  next h => rw [State.isPending, h]; rfl
  · rw [State.isPending, State.dropPending]
    exact congrArg Option.isSome (tget_tdel_same _ k)

theorem Settled.isPending {f : Fuses} {s u t : State} (h : Settled f s u t) (k : Nat) : t.isPending k = u.isPending k := by
  rw [State.isPending, State.isPending, h.pendSets]

theorem Settled.heldRd {f : Fuses} {s u t : State} (h : Settled f s u t) (a : Nat) : t.heldRd a = u.heldRd a := by
  rw [State.heldRd, State.heldRd, h.heldRegs]

end Sys2Proof.Machine
end
section
/-! Accepted writes of registers with Shadowed fields, and what the presented time depends on (R17, R268, R269, R283). -/

namespace Sys2Proof.Machine

open Sys2Proof Sys2Proof.Machine.Reg

/-! ### Writes -/

/-- A 32-bit register outside the HRC sub-block and the Ethernet controls, without W1C fields. -/
abbrev StoredRow (a : Nat) (d : RegDesc) : Prop :=
  0x100000000000 ≤ a ∧ (a < 0x100008600000 ∨ 0x100008700000 ≤ a) ∧ a % 4 = 0 ∧ d.width = 32 ∧ w1cMask d = 0 ∧ ¬ ethFixed a

theorem clearing_of_noW1c {d : RegDesc} (h : w1cMask d = 0) (fresh : Nat) {v : Nat} (hv : v < 2 ^ 64) :
    clearing d fresh v = v := by
  rw [clearing, h, Nat.zero_and]
  exact mergeBits_zero hv (by decide)

section

variable {s : State} {who : Initiator} {a v : Nat} {d : RegDesc} {is : List Nat} (ok : WriteOk s who a v)
  (hat : regAt a = some (d, is, false)) (hrow : StoredRow a d)
include ok hat hrow

theorem lt_of_writeOk_stored : v < 2 ^ 64 := by
  obtain ⟨hlow, hhrc, h4, hw, -, -⟩ := hrow
  have hlt := (valueCauses_of_writeOk ok (regHit_of_writeOk ok hat hlow hhrc h4)).2
  exact Nat.lt_of_lt_of_le hlt (Nat.pow_le_pow_right (by decide) (by simp [hw]))

theorem writeReg_stored : writeReg s who a v = afterWrite d.base is (s.rd a).toNat v (regStored s d a v) := by
  have hlt64 := lt_of_writeOk_stored ok hat hrow
  obtain ⟨hlow, hhrc, h4, hw, hw1c, hfix⟩ := hrow
  have hh := regHit_of_writeOk ok hat hlow hhrc h4
  have hd := inOrder_of_regAt hat
  have hstored := storeWrite_stored (s := s) (is := is) (up := false) (fields_lt_of_inOrder hd) (w1c_static_of_inOrder hd) hfix hlt64
    (staticBroken_of_valueCauses (valueCauses_of_writeOk ok hh).1)
  rw [writeReg_of_ok ok hh hat (.inl hw), if_pos hw, hstored, clearing_of_noW1c hw1c _ hlt64, regStored,
    clearing_of_noW1c hw1c _ hlt64]
  rfl

/-- What such a write stores in a field. -/
theorem fieldWritten_stored {f : FieldDesc} (hf : f ∈ d.fields) : FieldWritten s (regStored s d a v) a v f :=
  fieldWritten_regStored (inOrder_of_regAt hat) (lt_of_writeOk_stored ok hat hrow) hf

end

/-- A 64-bit register outside the HRC sub-block and the Ethernet controls, without W1C fields. -/
abbrev WideRow (a : Nat) (d : RegDesc) : Prop :=
  0x100000000000 ≤ a ∧ (a < 0x100008600000 ∨ 0x100008700000 ≤ a) ∧ a % 4 = 0 ∧ d.width = 64 ∧ w1cMask d = 0 ∧ ¬ ethFixed a

/-- What an accepted write of a whole 64-bit register does: it gives up the held half of its initiator. -/
theorem writeReg_wide {s : State} {who : Initiator} {a v : Nat} {d : RegDesc} {is : List Nat} (ok : WriteOk s who a v)
    (hat : regAt a = some (d, is, false)) (hrow : WideRow a d) :
    writeReg s who a v = afterWrite d.base is (s.rd a).toNat v (regStored (dropHold s who) d a v) := by
  obtain ⟨hlow, hhrc, h4, hw, hw1c, hfix⟩ := hrow
  have hh := regHit_of_writeOk ok hat hlow hhrc h4
  have hlt := (valueCauses_of_writeOk ok hh).2
  have hlt64 : v < 2 ^ 64 := by simpa [hw] using hlt
  have hd := inOrder_of_regAt hat
  have hstored := storeWrite_stored (s := dropHold s who) (is := is) (up := false) (fields_lt_of_inOrder hd)
    (w1c_static_of_inOrder hd) hfix hlt64 (staticBroken_of_valueCauses (valueCauses_of_writeOk ok hh).1)
  rw [writeReg_of_ok ok hh hat (.inr hw), if_neg (by rw [hw]; decide), hstored, clearing_of_noW1c hw1c _ hlt64, regStored,
    clearing_of_noW1c hw1c _ hlt64]
  rfl

theorem pendSets_regStored (s : State) (d : RegDesc) (a v : Nat) : (regStored s d a v).pendSets = s.pendSets := by
  unfold regStored
  split <;> rfl

theorem heldRd_regStored_ne (s : State) (d : RegDesc) {a b : Nat} (v : Nat) (h : b ≠ a) :
    (regStored s d a v).heldRd b = s.heldRd b := by
  unfold regStored
  split
  · rfl
  · exact tgetD_tset_ne _ _ _ _ _ h

/-! ### Presented time -/

section

variable {s t : State} (hacc : t.acc = s.acc) (hmode : t.epochMode = s.epochMode)
include hacc hmode

theorem nowNs_congr : t.nowNs = s.nowNs := by
  rw [State.nowNs, State.nowNs, hmode, State.wrapNs, State.wrapNs, State.accNs, State.accNs, hacc]

theorem now16_congr : t.now16 = s.now16 := by
  rw [State.now16, State.now16, nowNs_congr hacc hmode, State.nowFrac, State.nowFrac, hacc]

theorem cmpDiff_congr (tgt : Nat) : cmpDiff t tgt = cmpDiff s tgt := by
  rw [cmpDiff, cmpDiff, hmode, now16_congr hacc hmode, State.wrapNs, State.wrapNs, State.accNs, State.accNs, hacc]

theorem periodsPast_congr (tgt per : Nat) : periodsPast t tgt per = periodsPast s tgt per := by
  rw [periodsPast, periodsPast, cmpDiff_congr hacc hmode, hmode]

end

theorem Effect.acc {regs : List Nat} {parts : List Part} {s t : State} (h : Effect regs parts s t) (hp : Part.time ∉ parts) :
    t.acc = s.acc := (h.keeps .time hp).2

theorem Effect.cyc {regs : List Nat} {parts : List Part} {s t : State} (h : Effect regs parts s t) (hp : Part.time ∉ parts) :
    t.cyc = s.cyc := (h.keeps .time hp).1

theorem Effect.epochMode {regs : List Nat} {parts : List Part} {s t : State} (h : Effect regs parts s t) (hr : TIM_CTRL ∉ regs) :
    t.epochMode = s.epochMode := h.on (f := TIM_CTRL_MODE) hr

end Sys2Proof.Machine
end
section
/-! What the device's engines leave beside the bytes they read and write (R179–R181, R207, R212, R543, R544). -/

namespace Sys2Proof.Machine

open Sys2Proof Sys2Proof.Machine.Reg

/-- The registers that one access of an engine may change, with the event register that settling may change too. -/
def accessRegs : List Nat := DGN_CNT_MERGE :: DGN_EVT :: engineRegs

/-! ### Components -/

namespace Effect

variable {regs : List Nat} {parts : List Part} {s t : State}

theorem cache (h : Effect regs parts s t) (x : List Nat) (hp : Part.place ∈ parts) : Effect regs parts s { t with cache := x } :=
  h.components rfl fun p hq => by
    cases p
    case place => exact absurd hp hq
    all_goals simp [Keeps]

theorem migs (h : Effect regs parts s t) (x : Tbl Migration) (hp : Part.place ∈ parts) : Effect regs parts s { t with migs := x } :=
  h.components rfl fun p hq => by
    cases p
    case place => exact absurd hp hq
    all_goals simp [Keeps]

theorem vioAt (h : Effect regs parts s t) (x : Option Nat) (hp : Part.vio ∈ parts) : Effect regs parts s { t with vioAt := x } :=
  h.components rfl fun p hq => by
    cases p
    case vio => exact absurd hp hq
    all_goals simp [Keeps]

theorem unpoison (h : Effect regs parts s t) (a n : Nat) (hp : Part.poison ∈ parts) : Effect regs parts s (t.unpoison a n) :=
  h.components rfl fun p hq => by
    cases p
    case poison => exact absurd hp hq
    all_goals simp [Keeps, State.unpoison]

theorem store (h : Effect regs parts s t) (a : Nat) (bs : List Byte) (hp : Part.mem ∈ parts) : Effect regs parts s (t.store a bs) :=
  h.components rfl fun p hq => by
    cases p
    case mem => exact absurd hp hq
    all_goals simp [Keeps, State.store]

end Effect

section

variable {regs : List Nat} {parts : List Part} {s : State}

theorem effect_cacheFill (hf : Part.free ∈ parts) (hp : Part.place ∈ parts) (k : Nat) : Effect regs parts s (cacheFill s k) :=
  Effect.ite (fun _ => Effect.refl s) fun _ => Effect.ite (fun _ => (Effect.refl s).cache _ hp) fun _ =>
    (Effect.refl s).components rfl fun p hq => by
      cases p
      case place => exact absurd hp hq
      case free => exact absurd hf hq
      all_goals simp [Keeps]

theorem effect_lookup (a : Nat) : Effect accessRegs engineParts s (s.lookup a) :=
  Effect.ite (fun _ => Effect.refl s) fun _ =>
    ((Effect.refl s).countWrap 1 (by decide)).foldl fun _ k _ => effect_cacheFill (by decide) (by decide) k

theorem effect_looked (ctx a n : Nat) : Effect accessRegs engineParts s (s.looked ctx a n) :=
  Effect.ite (fun _ => effect_lookup a) fun _ => Effect.refl s

theorem effect_countedViolation {c : Nat} (hc : c < 7) (init ctx a : Nat) (w : Bool) :
    Effect accessRegs engineParts s (s.violation c init ctx a w) := by
  have hcnt : (DGN_VIO_CNT_VALUE c).addr ∈ accessRegs := by
    revert c
    decide
  have hcounted : Effect accessRegs engineParts s ((s.count (DGN_VIO_CNT_VALUE c) 1).count DGN_VIO_TOTAL_VALUE 1) :=
    ((Effect.refl s).count 1 hcnt).count 1 (by decide)
  exact (Effect.ite (fun _ => hcounted) fun _ => (hcounted.wr _ (by decide)).vioAt _ (by decide)).setOn (by decide)

theorem effect_logUe (src pcore ctxv ctx : Nat) (pa : Option Nat) : Effect accessRegs engineParts s (s.logUe src pcore ctxv ctx pa) :=
  ((((Effect.refl s).count 1 (by decide)).setOn (by decide)).wr _ (by decide)).free _ (by decide)

/-- The causes that a resolution answers. -/
theorem cause_of_resolve {small write : Bool} {ctx a n c : Nat} (h : resolve s small ctx a n write = .error c) : c < 7 := by
  unfold resolve at h
  repeat' split at h
  all_goals cases h
  all_goals decide

theorem effect_engineReadOne (init ctx a n : Nat) : Effect accessRegs engineParts s (engineReadOne s init ctx a n).1 := by
  unfold engineReadOne
  split
  case h_1 c herr =>
    have hlooked := effect_looked (s := s) ctx a n
    generalize s.looked ctx a n = u at hlooked ⊢
    have hvio := hlooked.trans (effect_countedViolation (cause_of_resolve herr) init ctx a false)
    simp only
    split
    · split
      · exact hlooked.free _ (by decide)
      · exact hvio
    · exact hvio
  case h_2 =>
    have hlooked := effect_lookup (s := s) a
    generalize s.lookup a = u at hlooked ⊢
    simp only
    split
    · exact hlooked.count 1 (by decide)
    · split
      · exact (((hlooked.count 1 (by decide)).setOn (by decide)).trans (effect_logUe ..)).free _ (by decide)
      · split
        · exact hlooked
        · exact (hlooked.trans (effect_logUe ..)).free _ (by decide)

/-- One more piece of a run read. -/
def readPiece (init ctx : Nat) (acc : State × Nat × List Byte) (p : Nat × Nat) : State × Nat × List Byte :=
  ((engineReadOne acc.1 init ctx p.1 p.2).1, joinCode acc.2.1 (engineReadOne acc.1 init ctx p.1 p.2).2.1,
    acc.2.2 ++ (engineReadOne acc.1 init ctx p.1 p.2).2.2)

theorem engineRead_eq (init ctx a n : Nat) :
    engineRead s init ctx a n = (runPieces s ctx a n false).foldl (readPiece init ctx) (s, 0, []) := rfl

theorem effect_readPieces (init ctx : Nat) (ps : List (Nat × Nat)) {acc : State × Nat × List Byte}
    (h : Effect accessRegs engineParts s acc.1) : Effect accessRegs engineParts s (ps.foldl (readPiece init ctx) acc).1 := by
  induction ps generalizing acc with
  | nil => exact h
  | cons p ps ih => exact ih (h.trans (effect_engineReadOne init ctx p.1 p.2))

/-- Only the registers and components of engines change at a read. -/
theorem effect_engineRead (init ctx a n : Nat) : Effect accessRegs engineParts s (engineRead s init ctx a n).1 :=
  effect_readPieces init ctx _ (Effect.refl s)

theorem effect_objWrite (i : Nat) (e : PltEntry) (ofs : Nat) (bs : List Byte) : Effect accessRegs engineParts s (objWrite s i e ofs bs) := by
  have hstored (u : State) (a : Nat) (h : Effect accessRegs engineParts s u) :
      Effect accessRegs engineParts s ((u.store a bs).unpoison a bs.length) := (h.store _ _ (by decide)).unpoison _ _ (by decide)
  exact Effect.ite (fun _ => (Effect.refl s).migs _ (by decide)) fun _ =>
    Effect.ite (fun _ => hstored _ _ (hstored _ _ (Effect.refl s))) fun _ => hstored _ _ (Effect.refl s)

theorem effect_engineWriteOne (init ctx a : Nat) (bs : List Byte) : Effect accessRegs engineParts s (engineWriteOne s init ctx a bs).1 := by
  unfold engineWriteOne
  split
  case h_1 c herr => exact (effect_looked ctx a bs.length).trans (effect_countedViolation (cause_of_resolve herr) ..)
  case h_2 =>
    have hlooked := effect_lookup (s := s) a
    generalize s.lookup a = u at hlooked ⊢
    simp only
    split
    · exact (hlooked.count 1 (by decide)).setOn (by decide)
    · exact hlooked.trans (effect_objWrite ..)

/-- One more piece of a run written. -/
def writePiece (init ctx a : Nat) (bs : List Byte) (acc : State × Bool) (p : Nat × Nat) : State × Bool :=
  ((engineWriteOne acc.1 init ctx p.1 ((bs.drop (p.1 - a)).take p.2)).1,
    acc.2 && (engineWriteOne acc.1 init ctx p.1 ((bs.drop (p.1 - a)).take p.2)).2)

theorem engineWrite_eq (init ctx a : Nat) (bs : List Byte) :
    engineWrite s init ctx a bs = (runPieces s ctx a bs.length true).foldl (writePiece init ctx a bs) (s, true) := rfl

theorem effect_writePieces (init ctx a : Nat) (bs : List Byte) (ps : List (Nat × Nat)) {acc : State × Bool}
    (h : Effect accessRegs engineParts s acc.1) : Effect accessRegs engineParts s (ps.foldl (writePiece init ctx a bs) acc).1 := by
  induction ps generalizing acc with
  | nil => exact h
  | cons p ps ih => exact ih (h.trans (effect_engineWriteOne ..))

/-- Only the registers and components of engines change at a write. -/
theorem effect_engineWrite (init ctx a : Nat) (bs : List Byte) : Effect accessRegs engineParts s (engineWrite s init ctx a bs).1 :=
  effect_writePieces init ctx a bs _ (Effect.refl s)

theorem effect_tableReadOne (ctx a n : Nat) : Effect accessRegs engineParts s (tableReadOne s ctx a n) := by
  unfold tableReadOne
  split
  · exact effect_looked ctx a n
  · have hlooked := effect_lookup (s := s) a
    generalize s.lookup a = u at hlooked ⊢
    simp only
    split
    · exact hlooked.count 1 (by decide)
    · split
      · exact (((hlooked.count 1 (by decide)).setOn (by decide)).trans (effect_logUe ..)).free _ (by decide)
      · split
        · exact hlooked
        · exact (hlooked.trans (effect_logUe ..)).free _ (by decide)

theorem effect_tableRead (ctx a n : Nat) : Effect accessRegs engineParts s (s.tableRead ctx a n) :=
  (Effect.refl s).foldl fun _ p _ => effect_tableReadOne ctx p.1 p.2

end

/-- An engine's accesses are outside the frame of `engineRegs` only by what settling may change. -/
theorem Settled.changesOnly_accessed {s u t : State} {regs : List Nat} {parts : List Part} (h : Settled s.fuses s u t)
    (e : Effect (accessRegs ++ regs) (parts ++ engineParts) s u) (hr : engineRegs ⊆ regs) (hp : engineParts ⊆ parts) :
    ChangesOnly regs parts s t :=
  h.changesOnly_pulsed (e.mono (by
    intro a ha
    simp only [accessRegs, List.cons_append, List.mem_cons, List.mem_append] at ha ⊢
    rcases ha with rfl | rfl | ha | ha
    · exact .inl rfl
    · exact .inr (.inl rfl)
    · exact .inr (.inr (hr ha))
    · exact .inr (.inr ha)) (List.append_subset.mpr ⟨List.Subset.refl _, hp⟩))

/-! ### States that an engine's read does not tell apart -/

/-- Registers read the same, and so do the components that a read looks at. -/
structure Twin (s t : State) : Prop where
  rd : ∀ a, t.rd a = s.rd a
  mem : t.mem = s.mem
  poison : t.poison = s.poison
  free : t.free = s.free
  cyc : t.cyc = s.cyc
  plt : t.plt = s.plt
  tags : t.tags = s.tags
  cache : t.cache = s.cache
  vioAt : t.vioAt = s.vioAt

/-- What a resolution looks up. -/
def lookupKeys (s : State) (a : Nat) : List Nat :=
  a / 65536 :: (match objectAt s (a / 65536) with
    | some (i, _) => [2 ^ 24 + i]
    | none => [])

theorem lookup_eq (s : State) (a : Nat) : s.lookup a = if !s.on MEM_PLT_CTRL_READY || (lookupKeys s a).all s.cache.contains then s
    else (lookupKeys s a).foldl cacheFill (s.countWrap MEM_PLT_CNT_LKMISS_VALUE 1) := rfl

namespace Twin

variable {s t : State} (h : Twin s t)
include h

theorem get (f : Fld) : t.get f = s.get f := by rw [State.get, State.get, h.rd]

theorem on (f : Fld) : t.on f = s.on f := by rw [State.on, State.on, h.get]

theorem wr (a : Nat) (v : Word64) : Twin (s.wr a v) (t.wr a v) := by
  have hrd (b : Nat) : (t.wr a v).rd b = (s.wr a v).rd b := by
    by_cases hb : b = a
    · rw [hb, State.rd_wr_same, State.rd_wr_same]
    · rw [State.rd_wr_ne _ _ _ _ hb, State.rd_wr_ne _ _ _ _ hb, h.rd]
  exact { h with rd := hrd }

theorem put (f : Fld) (v : Nat) : Twin (s.put f v) (t.put f v) := by
  rw [State.put, State.put, h.rd]
  exact h.wr _ _

theorem setOn (f : Fld) : Twin (s.setOn f) (t.setOn f) := { h.put f 1 with rd := (h.put f 1).rd }

theorem count (f : Fld) (d : Nat) : Twin (s.count f d) (t.count f d) := by
  rw [State.count, State.count, h.get]
  exact h.put f _

theorem countWrap (f : Fld) (d : Nat) : Twin (s.countWrap f d) (t.countWrap f d) := by
  rw [State.countWrap, State.countWrap, h.get]
  exact h.put f _

theorem freed {x y : Nat} (e : y = x) : Twin { s with free := x } { t with free := y } := { h with rd := h.rd, free := e }

theorem cached {x y : List Nat} (e : y = x) : Twin { s with cache := x } { t with cache := y } := { h with rd := h.rd, cache := e }

theorem cachedFreed {x y : List Nat} {m n : Nat} (e : y = x) (e' : n = m) :
    Twin { s with cache := x, free := m } { t with cache := y, free := n } := { h with rd := h.rd, cache := e, free := e' }

theorem vioSet {x y : Option Nat} (e : y = x) : Twin { s with vioAt := x } { t with vioAt := y } := { h with rd := h.rd, vioAt := e }

theorem cacheFill (k : Nat) : Twin (cacheFill s k) (Machine.cacheFill t k) := by
  unfold Machine.cacheFill
  rw [h.cache]
  split
  · exact h
  · split
    · exact h.cached rfl
    · exact h.cachedFreed (by rw [h.free]) (by rw [h.free])

omit h in
theorem foldl {α : Type} {f : State → α → State} (hf : ∀ {s t}, Twin s t → ∀ x, Twin (f s x) (f t x)) (xs : List α) {s t : State}
    (h : Twin s t) : Twin (xs.foldl f s) (xs.foldl f t) := by
  induction xs generalizing s t with
  | nil => exact h
  | cons x xs ih => exact ih (hf h x)

theorem objectAt (u : Nat) : objectAt t u = Machine.objectAt s u := by rw [Machine.objectAt, Machine.objectAt, h.plt, h.on]

theorem lookup (a : Nat) : Twin (s.lookup a) (t.lookup a) := by
  have hkeys : lookupKeys t a = lookupKeys s a := by rw [lookupKeys, lookupKeys, h.objectAt]
  rw [lookup_eq, lookup_eq, hkeys, h.on, h.cache]
  generalize lookupKeys s a = keys
  split
  · exact h
  · exact foldl (fun h k => h.cacheFill k) _ (h.countWrap _ 1)

theorem inWindow (ctx a : Nat) : inWindow t ctx a = Machine.inWindow s ctx a := by
  rw [Machine.inWindow, Machine.inWindow, h.get, h.get]

theorem looked (ctx a n : Nat) : Twin (s.looked ctx a n) (t.looked ctx a n) := by
  unfold State.looked
  rw [h.inWindow, h.inWindow]
  split
  · exact h.lookup a
  · exact h

theorem resolve (small : Bool) (ctx a n : Nat) (write : Bool) : resolve t small ctx a n write = Machine.resolve s small ctx a n write :=
  resolve_congr h.plt (fun b _ => h.rd b) small ctx a n write

theorem violation (c init ctx a : Nat) (w : Bool) : Twin (s.violation c init ctx a w) (t.violation c init ctx a w) := by
  have hcounted := (h.count (DGN_VIO_CNT_VALUE c) 1).count DGN_VIO_TOTAL_VALUE 1
  unfold State.violation
  simp only
  generalize (s.count (DGN_VIO_CNT_VALUE c) 1).count DGN_VIO_TOTAL_VALUE 1 = u at hcounted ⊢
  generalize (t.count (DGN_VIO_CNT_VALUE c) 1).count DGN_VIO_TOTAL_VALUE 1 = v at hcounted ⊢
  have hkeeps : vioKeeps v init a = vioKeeps u init a := by
    rw [vioKeeps, vioKeeps, hcounted.vioAt, hcounted.cyc, hcounted.on, hcounted.get, hcounted.get]
  rw [hkeeps]
  split
  · exact hcounted.setOn _
  · have hwr := hcounted.wr DGN_VIO_LAST (BitVec.ofNat 64 (2 ^ 63 + vioWord c init ctx a w))
    exact (hwr.vioSet (by rw [hcounted.cyc])).setOn _

theorem logUe (src pcore ctxv ctx : Nat) (pa : Option Nat) : Twin (s.logUe src pcore ctxv ctx pa) (t.logUe src pcore ctxv ctx pa) := by
  have hcounted := (h.count MEM_ECC_UE_VALUE 1).setOn MEM_EVT_UE
  unfold State.logUe
  simp only
  generalize (s.count MEM_ECC_UE_VALUE 1).setOn MEM_EVT_UE = u at hcounted ⊢
  generalize (t.count MEM_ECC_UE_VALUE 1).setOn MEM_EVT_UE = v at hcounted ⊢
  cases pa <;> simp only [hcounted.free] <;> exact (hcounted.wr _ _).freed rfl

theorem unpublished (ctx : Nat) (e : PltEntry) : unpublished t ctx e = Machine.unpublished s ctx e := by
  rw [Machine.unpublished, Machine.unpublished, h.tags]

theorem hostUp : hostUp t = Machine.hostUp s := h.on _

theorem poisonedIn (a n : Nat) : poisonedIn t a n = Machine.poisonedIn s a n := by
  rw [Machine.poisonedIn, Machine.poisonedIn, h.poison]

theorem pltCount : pltCount t = Machine.pltCount s := by rw [Machine.pltCount, Machine.pltCount, h.get]

theorem engineByte (pa : Nat) : engineByte t pa = Machine.engineByte s pa := by
  have hdir : dirWord t = dirWord s := funext fun u => by rw [dirWord, dirWord, h.plt]
  unfold Machine.engineByte
  rw [h.plt, h.get, h.get, h.pltCount, h.free, hdir]

theorem objRead (e : PltEntry) (ofs n : Nat) : objRead t e ofs n = Machine.objRead s e ofs n := by
  have hmeets (a : Nat) : meetsEngine t a n = meetsEngine s a n := by
    rw [meetsEngine, meetsEngine, h.plt, h.get, h.get, h.pltCount]
  have hbyte : Machine.engineByte t = Machine.engineByte s := funext h.engineByte
  rw [Machine.objRead, Machine.objRead, tierLoad, tierLoad, hmeets, hbyte, h.mem, State.load, State.load, h.mem]

theorem freeBlocks (a : Nat) (bad : List Nat) (bs : List Byte) : freeBlocks t a bad bs = Machine.freeBlocks s a bad bs := by
  rw [Machine.freeBlocks, Machine.freeBlocks, h.free]

theorem engineReadOne (init ctx a n : Nat) : (engineReadOne t init ctx a n).2 = (Machine.engineReadOne s init ctx a n).2 ∧
    Twin (Machine.engineReadOne s init ctx a n).1 (Machine.engineReadOne t init ctx a n).1 := by
  unfold Machine.engineReadOne
  rw [h.resolve]
  cases Machine.resolve s true ctx a n false with
  | error c =>
    have hl := h.looked ctx a n
    simp only
    generalize s.looked ctx a n = u at hl ⊢
    generalize t.looked ctx a n = v at hl ⊢
    rw [hl.resolve]
    cases Machine.resolve u false ctx a n false with
    | error _ => exact ⟨rfl, hl.violation ..⟩
    | ok r =>
      simp only
      split
      · exact ⟨by simp only [hl.free], hl.freed (by rw [hl.free])⟩
      · exact ⟨rfl, hl.violation ..⟩
  | ok r =>
    have hl := h.lookup a
    simp only
    generalize s.lookup a = u at hl ⊢
    generalize t.lookup a = v at hl ⊢
    rw [hl.unpublished, hl.hostUp, hl.poisonedIn, hl.objRead]
    split
    · exact ⟨rfl, hl.count _ 1⟩
    · split
      · have hu := (hl.count (FLD_PCI_CNT_VALUE 1) 1).setOn FLD_PCI_EVT_NOBME
        simp only [hl.free, hu.free]
        exact ⟨trivial, (hu.logUe ..).freed rfl⟩
      · cases Machine.poisonedIn u (objPlace r.2 (a - r.2.base * 65536)) n with
        | nil => exact ⟨rfl, hl⟩
        | cons b bs =>
          simp only
          rw [hl.freeBlocks, hl.free]
          exact ⟨rfl, (hl.logUe ..).freed rfl⟩

theorem runPieces (ctx a n : Nat) (write : Bool) : runPieces t ctx a n write = Machine.runPieces s ctx a n write := by
  rw [Machine.runPieces, Machine.runPieces, h.resolve]

omit h in
theorem readPieces (init ctx : Nat) (ps : List (Nat × Nat)) {x y : State × Nat × List Byte} (hout : y.2 = x.2) (h : Twin x.1 y.1) :
    (ps.foldl (readPiece init ctx) y).2 = (ps.foldl (readPiece init ctx) x).2 ∧
      Twin (ps.foldl (readPiece init ctx) x).1 (ps.foldl (readPiece init ctx) y).1 := by
  induction ps generalizing x y with
  | nil => exact ⟨hout, h⟩
  | cons p ps ih =>
    obtain ⟨hr, ht⟩ := h.engineReadOne init ctx p.1 p.2
    exact ih (by rw [readPiece, readPiece, hout, hr]) ht

/-- An engine reads the same bytes in twin states. -/
theorem engineRead (init ctx a n : Nat) : (engineRead t init ctx a n).2 = (Machine.engineRead s init ctx a n).2 ∧
    Twin (Machine.engineRead s init ctx a n).1 (Machine.engineRead t init ctx a n).1 := by
  rw [engineRead_eq, engineRead_eq, h.runPieces]
  exact readPieces init ctx _ rfl h

end Twin

/-- A register written with what it reads leaves a twin. -/
theorem twin_wr_self (s : State) (a : Nat) : Twin s (s.wr a (s.rd a)) :=
  ⟨fun b => State.rd_wr_self s a b, rfl, rfl, rfl, rfl, rfl, rfl, rfl, rfl⟩

end Sys2Proof.Machine
end
section
/-! Links of the cascade: what a flit given to one does, and the fields of a flit (R479, R480). -/

namespace Sys2Proof.Machine

open Sys2Proof Sys2Proof.Machine.Reg

/-! ### Links -/

section

variable {s : State}

@[simp] theorem cwyLink_setCwyLink_same (k : Nat) (l : CwyLink) : cwyLink (s.setCwyLink k l) k = l := tgetD_tset_same ..

theorem cwyLink_setCwyLink_ne {j k : Nat} (h : j ≠ k) (l : CwyLink) : cwyLink (s.setCwyLink k l) j = cwyLink s j :=
  tgetD_tset_ne _ _ _ _ _ h

theorem cwyLink_send (m : OutMsg) (k : Nat) : cwyLink (s.send m) k = cwyLink s k := rfl

theorem Effect.setCwyLink {regs : List Nat} {parts : List Part} {t : State} (h : Effect regs parts s t) (k : Nat) (l : CwyLink)
    (hp : Part.cwy ∈ parts) : Effect regs parts s (t.setCwyLink k l) :=
  h.components rfl fun p hq => by
    cases p
    case cwy => exact absurd hp hq
    all_goals simp [Keeps, State.setCwyLink]

/-- The link after the flit `f` has left. -/
def linkSent (l : CwyLink) (rest : List (List Byte)) (f : List Byte) : CwyLink :=
  { l with queue := rest, replay := l.replay ++ [(l.txSeq, sealFlit l l.txSeq f)], txSeq := (l.txSeq + 1) % 4096 }

/-- A flit has left. -/
def flitLeaves (s : State) (k : Nat) (rest : List (List Byte)) (f : List Byte) : State :=
  (s.setCwyLink k (linkSent (cwyLink s k) rest f)).send (.flit k (sealFlit (cwyLink s k) (cwyLink s k).txSeq f))

theorem cwyDrain_succ (k n : Nat) : s.cwyDrain k (n + 1) = match (cwyLink s k).queue with
    | [] => s
    | f :: rest => if !s.on (CWY_L_STAT_UP k) ∨ 512 ≤ (cwyLink s k).replay.length then s else (flitLeaves s k rest f).cwyDrain k n := rfl

theorem cwyDrain_of_empty {k n : Nat} (h : (cwyLink s k).queue = []) : s.cwyDrain k n = s := by
  cases n with
  | zero => rfl
  | succ n => rw [cwyDrain_succ, h]

theorem outbox_flitLeaves (k : Nat) (rest : List (List Byte)) (f : List Byte) :
    (flitLeaves s k rest f).outbox = s.outbox ++ [.flit k (sealFlit (cwyLink s k) (cwyLink s k).txSeq f)] := rfl

theorem cwyLink_flitLeaves_same (k : Nat) (rest : List (List Byte)) (f : List Byte) :
    cwyLink (flitLeaves s k rest f) k = linkSent (cwyLink s k) rest f := by
  rw [flitLeaves, cwyLink_send, cwyLink_setCwyLink_same]

theorem cwyLink_flitLeaves_ne {j k : Nat} (h : j ≠ k) (rest : List (List Byte)) (f : List Byte) :
    cwyLink (flitLeaves s k rest f) j = cwyLink s j := by
  rw [flitLeaves, cwyLink_send, cwyLink_setCwyLink_ne h]

theorem on_flitLeaves (k : Nat) (rest : List (List Byte)) (f : List Byte) (g : Fld) : (flitLeaves s k rest f).on g = s.on g := rfl

theorem Effect.flitLeaves {regs : List Nat} {parts : List Part} {t : State} (h : Effect regs parts s t) (k : Nat)
    (rest : List (List Byte)) (f : List Byte) (hc : Part.cwy ∈ parts) (ho : Part.out ∈ parts) :
    Effect regs parts s (flitLeaves t k rest f) :=
  (h.setCwyLink k _ hc).send _ ho

theorem Effect.cwyDrain {regs : List Nat} {parts : List Part} {t : State} (h : Effect regs parts s t) (k n : Nat) (hc : Part.cwy ∈ parts)
    (ho : Part.out ∈ parts) : Effect regs parts s (t.cwyDrain k n) := by
  induction n generalizing t with
  | zero => exact h
  | succ n ih =>
    rw [cwyDrain_succ]
    split
    · exact h
    · exact Effect.ite (fun _ => h) fun _ => ih (h.flitLeaves k _ _ hc ho)

theorem Effect.cwySend {regs : List Nat} {parts : List Part} {t : State} (h : Effect regs parts s t) (k : Nat) (f : List Byte)
    (hc : Part.cwy ∈ parts) (ho : Part.out ∈ parts) : Effect regs parts s (t.cwySend k f) :=
  (h.setCwyLink k _ hc).cwyDrain k _ hc ho

/-- What leaves on a link comes after what has left. -/
theorem outbox_cwyDrain (k n : Nat) : ∃ l, (s.cwyDrain k n).outbox = s.outbox ++ l := by
  induction n generalizing s with
  | zero => exact ⟨[], (List.append_nil _).symm⟩
  | succ n ih =>
    rw [cwyDrain_succ]
    split
    · exact ⟨[], (List.append_nil _).symm⟩
    next f rest _ =>
      split
      · exact ⟨[], (List.append_nil _).symm⟩
      · obtain ⟨l, hl⟩ := ih (s := flitLeaves s k rest f)
        exact ⟨_ :: l, by rw [hl, outbox_flitLeaves, List.append_assoc]; rfl⟩

theorem outbox_cwySend (k : Nat) (f : List Byte) : ∃ l, (s.cwySend k f).outbox = s.outbox ++ l := outbox_cwyDrain k _

theorem outbox_foldl {α : Type} {f : State → α → State} (h : ∀ s x, ∃ l, (f s x).outbox = s.outbox ++ l) (xs : List α) :
    ∃ l, (xs.foldl f s).outbox = s.outbox ++ l := by
  induction xs generalizing s with
  | nil => exact ⟨[], (List.append_nil _).symm⟩
  | cons x xs ih =>
    obtain ⟨l, hl⟩ := h s x
    obtain ⟨l', hl'⟩ := ih (s := f s x)
    exact ⟨l ++ l', by rw [List.foldl_cons, hl', hl, List.append_assoc]⟩

/-- The other links stand. -/
theorem cwyLink_cwyDrain_ne {j k : Nat} (h : j ≠ k) (n : Nat) : cwyLink (s.cwyDrain k n) j = cwyLink s j := by
  induction n generalizing s with
  | zero => rfl
  | succ n ih =>
    rw [cwyDrain_succ]
    split
    · rfl
    · split
      · rfl
      · rw [ih, cwyLink_flitLeaves_ne h]

theorem cwyLink_cwySend_ne {j k : Nat} (h : j ≠ k) (f : List Byte) : cwyLink (s.cwySend k f) j = cwyLink s j := by
  rw [State.cwySend, cwyLink_cwyDrain_ne h, cwyLink_setCwyLink_ne h]

/-- A flit given to a link that is up, has no flit waiting and has room to replay it leaves at once. -/
theorem cwySend_idle {k : Nat} (f : List Byte) (hq : (cwyLink s k).queue = []) (hr : (cwyLink s k).replay.length < 512)
    (hup : s.on (CWY_L_STAT_UP k) = true) :
    cwyLink (s.cwySend k f) k = linkSent (cwyLink s k) [] f ∧
      (s.cwySend k f).outbox = s.outbox ++ [.flit k (sealFlit (cwyLink s k) (cwyLink s k).txSeq f)] := by
  have hlink : cwyLink (s.setCwyLink k { cwyLink s k with queue := [f] }) k = { cwyLink s k with queue := [f] } :=
    cwyLink_setCwyLink_same k _
  have hup' : (s.setCwyLink k { cwyLink s k with queue := [f] }).on (CWY_L_STAT_UP k) = true := hup
  have hout : (s.setCwyLink k { cwyLink s k with queue := [f] }).outbox = s.outbox := rfl
  rw [State.cwySend, hq, List.nil_append, List.length_nil]
  generalize s.setCwyLink k { cwyLink s k with queue := [f] } = u at hlink hup' hout
  have hleft : (cwyLink (flitLeaves u k [] f) k).queue = [] := by
    rw [cwyLink_flitLeaves_same]
    rfl
  have hdrain : u.cwyDrain k (0 + 1) = flitLeaves u k [] f := by
    rw [cwyDrain_succ, hlink]
    simp only
    rw [if_neg (by rw [hup']; simp; omega), cwyDrain_of_empty hleft]
  rw [hdrain, cwyLink_flitLeaves_same, outbox_flitLeaves, hlink, hout]
  exact ⟨rfl, rfl⟩

end

/-! ### Fields of a flit -/

theorem length_flitHeader (kind seq ack src dst hops tag : Nat) : (flitHeader kind seq ack src dst hops tag).length = 12 := by
  simp [flitHeader, length_leBytes]

section

variable {h p : List Byte}

theorem length_flitOf (hh : h.length = 12) : (flitOf h p).length = 256 := by
  simp [flitOf, hh, length_padBytes, length_leBytes]

/-- The header's fields of a flit. -/
theorem leField_flitOf {ofs n : Nat} (hh : h.length = 12) (hn : ofs + n ≤ 12) : leField (flitOf h p) ofs n = leField h ofs n := by
  rw [leField, leField, flitOf, List.append_assoc, List.drop_append_of_le_length (by omega),
    List.take_append_of_le_length (by rw [List.length_drop]; omega)]

theorem fPayload_flitOf (hh : h.length = 12) : fPayload (flitOf h p) = padBytes 240 p := by
  rw [fPayload, flitOf, List.append_assoc, List.drop_append_of_le_length (by omega), List.drop_of_length_le (by omega), List.nil_append,
    List.take_append_of_le_length (by rw [length_padBytes]), List.take_of_length_le (by rw [length_padBytes])]

end

/-- A field at the start of some bytes. -/
theorem leField_leBytes_append (n x : Nat) (r : List Byte) : leField (leBytes n x ++ r) 0 n = x % 256 ^ n := by
  rw [leField, List.drop_zero, List.take_left' (length_leBytes n x), leNat_leBytes]

/-- A field behind some bytes. -/
theorem leField_append {a b : List Byte} {i ofs n : Nat} (h : ofs = a.length + i) : leField (a ++ b) ofs n = leField b i n := by
  rw [leField, leField, h, List.drop_length_add_append]

section

variable (kind seq ack src dst hops tag : Nat) (p : List Byte)

theorem word0_flit : leField (flitOf (flitHeader kind seq ack src dst hops tag) p) 0 2 = kind % 16 + seq % 4096 * 16 := by
  rw [leField_flitOf (length_flitHeader ..) (by decide), flitHeader]
  simp only [List.append_assoc]
  rw [leField_leBytes_append, Nat.mod_eq_of_lt (by omega)]

theorem word4_flit : leField (flitOf (flitHeader kind seq ack src dst hops tag) p) 4 1 = src % 8 + dst % 8 * 8 := by
  rw [leField_flitOf (length_flitHeader ..) (by decide), flitHeader]
  simp only [List.append_assoc]
  rw [leField_append (i := 2) (by rw [length_leBytes]), leField_append (i := 0) (by rw [length_leBytes]), leField_leBytes_append,
    Nat.mod_eq_of_lt (by omega)]

theorem fKind_flit : fKind (flitOf (flitHeader kind seq ack src dst hops tag) p) = kind % 16 := by
  rw [fKind, word0_flit, bitsOf, Nat.shiftRight_zero]
  omega

theorem fSrc_flit : fSrc (flitOf (flitHeader kind seq ack src dst hops tag) p) = src % 8 := by
  rw [fSrc, word4_flit, bitsOf, Nat.shiftRight_zero]
  omega

theorem fDst_flit : fDst (flitOf (flitHeader kind seq ack src dst hops tag) p) = dst % 8 := by
  rw [fDst, word4_flit, bitsOf, Nat.shiftRight_eq_div_pow]
  omega

theorem fTag_flit : fTag (flitOf (flitHeader kind seq ack src dst hops tag) p) = tag % 2 ^ 48 := by
  rw [fTag, leField_flitOf (length_flitHeader ..) (by decide), flitHeader]
  have hlen : (leBytes 2 (kind % 16 + seq % 4096 * 16) ++ leBytes 2 (ack % 4096) ++ leBytes 1 (src % 8 + dst % 8 * 8) ++
    leBytes 1 hops).length = 6 := by simp [length_leBytes]
  rw [leField_append (i := 0) (by rw [hlen]), leField, List.drop_zero, List.take_of_length_le (by rw [length_leBytes]), leNat_leBytes]
  rfl

end

end Sys2Proof.Machine
end
section
/-! Cores: what replacing one leaves (R113). -/

namespace Sys2Proof.Machine

open Sys2Proof Sys2Proof.Machine.Reg

section

variable {regs : List Nat} {parts : List Part} {s t : State} {n : Nat} {c : Core}

theorem Effect.cores (h : Effect regs parts s t) (x : Tbl Core) (hp : Part.cores ∈ parts) : Effect regs parts s { t with cores := x } :=
  h.components rfl fun p hq => by
    cases p
    case cores => exact absurd hp hq
    all_goals simp [Keeps]

theorem Effect.acks (h : Effect regs parts s t) (x : List StoreAck) (hp : Part.cores ∈ parts) : Effect regs parts s { t with acks := x } :=
  h.components rfl fun p hq => by
    cases p
    case cores => exact absurd hp hq
    all_goals simp [Keeps]

theorem Effect.setCore (h : Effect regs parts s t) (hs : TC_STAT n ∈ regs) (hx : TC_CTX n ∈ regs) (hp : Part.cores ∈ parts) (c : Core) :
    Effect regs parts s (t.setCore n c) := by
  have hput (busy : Nat) := ((((((h.cores (tset t.cores n c) hp).put (f := TC_STAT_ACTVALID n) (ofBool c.active.isSome) hs).put
    (f := TC_STAT_SHADOW n) c.shadowSt hs).put (f := TC_STAT_PATHBUSY n) (maskOf 5 fun p => !(c.queue p).isEmpty) hs).put
    (f := TC_STAT_KILLING n) (ofBool c.killing) hs).put (f := TC_STAT_BUSY n) busy hs)
  unfold State.setCore
  cases c.job with
  | none => exact (hput _).setOff (f := TC_CTX_VALID n) hx
  | some j => exact ((hput _).put (f := TC_CTX_ID n) j.1 hx).setOn (f := TC_CTX_VALID n) hx

theorem cores_setCore : (s.setCore n c).cores = tset s.cores n c := by
  unfold State.setCore
  cases c.job <;> rfl

/-- What replacing a core keeps beside the core's registers and itself. -/
theorem setCore_keeps : (s.setCore n c).acks = s.acks ∧ (s.setCore n c).sched = s.sched ∧ (s.setCore n c).mem = s.mem ∧
    (s.setCore n c).plt = s.plt ∧ (s.setCore n c).tags = s.tags ∧ (s.setCore n c).fuses = s.fuses := by
  unfold State.setCore
  cases c.job <;> exact ⟨rfl, rfl, rfl, rfl, rfl, rfl⟩

theorem sched_setCore (s : State) (n : Nat) (c : Core) : (s.setCore n c).sched = s.sched := setCore_keeps.2.1

@[simp] theorem coreOf_setCore_same (s : State) (n : Nat) (c : Core) : coreOf (s.setCore n c) n = c := by
  rw [coreOf, cores_setCore]
  exact tgetD_tset_same ..

theorem coreOf_setCore_ne {m : Nat} (h : m ≠ n) : coreOf (s.setCore n c) m = coreOf s m := by
  rw [coreOf, cores_setCore]
  exact tgetD_tset_ne _ _ _ _ _ h

theorem effect_setCore (c : Core) : Effect [TC_STAT n, TC_CTX n] [.cores] s (s.setCore n c) :=
  (Effect.refl s).setCore (by simp) (by simp) (by simp) c

/-- The registers of a core settle. -/
theorem core_settles {a : Nat} (hn : n < 8) (h : a < TC_CTRL (n + 1)) : a ≠ DGN_CNT_MERGE ∧ a ≠ DGN_EVT :=
  segment_settles (by
    unfold TC_CTRL at h
    unfold DGN_EPOCH
    omega)

theorem coreOf_of_cores {u : State} (h : t.cores = u.cores) (m : Nat) : coreOf t m = coreOf u m := by rw [coreOf, coreOf, h]

end

/-! ### Writes of the scheduler's own, and status records (R101, R217, R248) -/

section

variable {s : State}

theorem effect_quietWrite (a : Nat) (bs : List Byte) : Effect accessRegs engineParts s (quietWrite s a bs) := by
  unfold quietWrite
  split
  · exact Effect.refl s
  · exact Effect.ite (fun _ => Effect.refl s) fun _ => (effect_lookup a).trans (effect_objWrite ..)

/-- The registers of a status record. -/
def recordRegs (ctx : Nat) : List Nat := [SCH_CTX_CNT_LOST ctx, SCH_CTX_RPROD ctx, SCH_EVT] ++ accessRegs

theorem effect_statusRecord (ctx : Nat) (rec : List Byte) : Effect (recordRegs ctx) engineParts s (statusRecord s ctx rec) := by
  have hwrite (a : Nat) : Effect (recordRegs ctx) engineParts s (quietWrite s a rec) :=
    (effect_quietWrite a rec).mono (List.subset_append_right _ _) (List.Subset.refl _)
  unfold statusRecord
  simp only
  exact Effect.ite (fun _ => ((Effect.refl s).count (f := SCH_CTX_CNT_LOST_VALUE ctx) 1 (by simp [recordRegs, SCH_CTX_CNT_LOST_VALUE])).setOn
    (by simp [recordRegs, SCH_EVT_LOST])) fun _ => (hwrite _).put (f := SCH_CTX_RPROD_INDEX ctx) _ (by simp [recordRegs, SCH_CTX_RPROD_INDEX])

/-- A core's registers are not among those of a record. -/
theorem core_not_mem_recordRegs {n a : Nat} (hn : n < 8) (h : TC_CTRL n ≤ a ∧ a < TC_CTRL (n + 1)) (ctx : Nat) : a ∉ recordRegs ctx := by
  have hlow : ∀ b ∈ accessRegs, 0x100002000000 ≤ b := by decide
  have hhigh : a < 0x100002000000 := by
    unfold TC_CTRL at h
    omega
  unfold recordRegs
  simp only [List.cons_append, List.nil_append, List.mem_cons, SCH_CTX_CNT_LOST, SCH_CTX_RPROD, SCH_EVT]
  rintro (rfl | rfl | rfl | hm)
  · omega
  · omega
  · omega
  · exact absurd (hlow a hm) (by omega)

end

end Sys2Proof.Machine
end
section
/-! A tile of an object that lies where the placement engine keeps its table. -/

namespace Sys2Proof.Machine

open Sys2Proof Sys2Proof.Machine.Reg Sys2Proof.Tests

set_option maxRecDepth 10000

/-- An object of LPDDR5X that begins at the first unit. -/
def tableObj : PltEntry := { obj1 with tier := 3 }

/-- The object is the first of the table, which begins at the same unit. -/
def tableServe : State := { (withObj (sCwy 3 1) tableObj).put MEM_PLT_COUNT_VALUE 1 with plt := [(0, tableObj)] }

/-- The byte of the payload at place `i` of a flit of this module that leaves on a link. -/
theorem payload_sealFlit (l : CwyLink) (seq : Nat) (s : State) (kind dst tag : Nat) (bs : List Byte) {i : Nat} (hi : i < bs.length)
    (h240 : i < 240) : (fPayload (sealFlit l seq (newFlit s kind dst tag bs)))[i]? = bs[i]? := by
  have hpad (p : List Byte) (hp : i < p.length) : (padBytes 240 p)[i]? = p[i]? := by
    rw [padBytes, List.getElem?_append_left (by rw [List.length_take]; omega), List.getElem?_take_of_lt h240]
  rw [sealFlit, newFlit, fPayload_flitOf (length_flitHeader ..), fPayload_flitOf (length_flitHeader ..),
    hpad _ (by rw [length_padBytes]; exact h240), hpad _ hi]

/-- The tile of a request leaves in its flits. -/
def tileSent (src slot ctx core tile : Nat) (r : State × List Byte) : State :=
  forUpTo 274 (fun i s => s.cwySend (routeLink r.1 src tile)
    (newFlit s 2 src (readTag slot ctx core tile) ((r.2.drop (240 * i)).take 240))) r.1

theorem exec_cwyReadReq {s : State} {addr : Nat} (src slot ctx core tile : Nat) (errs : List Nat)
    (h : (s.get CWY_STAT_STATE ≠ 3 || addr % 65536 ≠ 0 || tierHeld s addr) = false) :
    exec (.cwyReadReq src slot addr ctx core tile errs) s =
      finish s (tileSent src slot ctx core tile (serveTile s ctx addr errs)) := by
  show execCwyReadReq .. = _
  unfold execCwyReadReq
  rw [if_neg (by rw [h]; decide)]
  generalize serveTile s ctx addr errs = r
  obtain ⟨u, bs⟩ := r
  rfl

/-- The first flit of a tile, on an idle link. -/
theorem outbox_tileSent (src slot ctx core tile : Nat) {r : State × List Byte} {k : Nat} (hk : routeLink r.1 src tile = k)
    (hq : (cwyLink r.1 k).queue = []) (hr : (cwyLink r.1 k).replay = []) (hup : r.1.on (CWY_L_STAT_UP k) = true) :
    ∃ l, (tileSent src slot ctx core tile r).outbox = r.1.outbox ++ .flit k (sealFlit (cwyLink r.1 k) (cwyLink r.1 k).txSeq
      (newFlit r.1 2 src (readTag slot ctx core tile) (r.2.take 240))) :: l := by
  obtain ⟨-, hfirst⟩ := cwySend_idle (newFlit r.1 2 src (readTag slot ctx core tile) (r.2.take 240)) hq (by simp [hr]) hup
  rw [tileSent, forUpTo, List.range_succ_eq_map, List.foldl_cons, hk]
  obtain ⟨l, hl⟩ := outbox_foldl (s := r.1.cwySend k (newFlit r.1 2 src (readTag slot ctx core tile) (r.2.take 240)))
    (fun s i => outbox_cwySend (s := s) k (newFlit s 2 src (readTag slot ctx core tile) ((r.2.drop (240 * i)).take 240)))
    ((List.range 273).map Nat.succ)
  exact ⟨l, by rw [Nat.mul_zero, List.drop_zero, hl, hfirst, List.append_assoc]; rfl⟩

/-- A tile of a published object of LPDDR5X that meets no error. -/
theorem serveTile_ok {s : State} {ctx addr i : Nat} {errs : List Nat} {e : PltEntry}
    (h : resolve s false ctx addr 65536 false = .ok (i, e)) (hp : protClosed (s.lookup addr) 3 addr false = false)
    (hu : unpublished (s.lookup addr) ctx e = false) (ht : e.tier = 3)
    (he : (s.lookup addr).tileErrors e.tier (objPlace e (addr - e.base * 65536)) errs = (s.lookup addr, [])) :
    serveTile s ctx addr errs = (s.lookup addr, zeroBlocks (objPlace e (addr - e.base * 65536)) []
      (objRead (s.lookup addr) e (addr - e.base * 65536) 65536)) := by
  unfold serveTile
  rw [h]
  simp only
  rw [hp, if_neg Bool.false_ne_true, hu, if_neg Bool.false_ne_true, if_neg (by omega), if_neg (by omega), he]
  rfl

theorem serveTile_table : serveTile tableServe 1 0 [] =
    (tableServe.lookup 0, zeroBlocks (objPlace tableObj 0) [] (objRead (tableServe.lookup 0) tableObj 0 65536)) :=
  serveTile_ok (i := 0) (e := tableObj) rfl (by decide) (by decide) (by decide) rfl

/-- Byte 3 of the table is that of the entry's size. -/
theorem byte_table : (zeroBlocks (objPlace tableObj 0) [] (objRead (tableServe.lookup 0) tableObj 0 65536))[3]? = some 4#8 := by
  have hmeets : meetsEngine (tableServe.lookup 0) (objPlace tableObj 0) 65536 = true := by decide
  have hbyte : (engineByte (tableServe.lookup 0) 3) = some 4#8 := by decide +kernel
  have hpa : placePa (objPlace tableObj 0 + 3) = some 3 := by decide
  have hload : (objRead (tableServe.lookup 0) tableObj 0 65536)[3]? = some 4#8 := by
    rw [objRead, tierLoad, hmeets, if_pos rfl, List.getElem?_map, List.getElem?_range (by decide), Option.map_some, hpa]
    simp only
    rw [hbyte]
    rfl
  have hlen : 3 < (objRead (tableServe.lookup 0) tableObj 0 65536).length := (List.getElem?_eq_some_iff.mp hload).1
  rw [zeroBlocks, List.getElem?_map, List.getElem?_range hlen, Option.map_some, if_neg List.not_mem_nil,
    List.getD_eq_getElem?_getD, hload]
  rfl

/-- Refutes O50: the tile of an object that lies in the placement table is the table's bytes, not the stored ones. -/
theorem not_remoteReadsAndFollowers : ¬ Obligations.RemoteReadsAndFollowers := by
  intro h
  obtain ⟨hserve, -⟩ := h.1 tableServe (by decide)
  obtain ⟨t, hs, ⟨l, hout⟩, -⟩ := (hserve 2 3 0 1 0 0 0 tableObj (by decide) (by decide) (by rfl) (by decide) (by decide) (by decide)
    (by constructor <;> decide) (by decide) (by decide) (by decide) (by decide) (by decide)).settled
      (exec_cwyReadReq 2 3 1 0 0 [] (by decide)) (by decide)
  obtain ⟨l', hl', -⟩ := hs.out
  rw [serveTile_table] at hl'
  have hbyte := byte_table
  generalize zeroBlocks (objPlace tableObj 0) [] (objRead (tableServe.lookup 0) tableObj 0 65536) = bs at hl' hbyte
  obtain ⟨l'', hl''⟩ := outbox_tileSent 2 3 1 0 0 (r := (tableServe.lookup 0, bs)) (k := 0)
    (show routeLink (tableServe.lookup 0) 2 0 = 0 by decide) (show (cwyLink (tableServe.lookup 0) 0).queue = [] by decide)
    (show (cwyLink (tableServe.lookup 0) 0).replay = [] by decide) (show (tableServe.lookup 0).on (CWY_L_STAT_UP 0) = true by decide)
  have hlen : 3 < bs.length := (List.getElem?_eq_some_iff.mp hbyte).1
  have hsent : (tableServe.lookup 0).outbox = [] := by decide
  have hnone : tableServe.outbox = [] := by decide
  rw [hl', hl'', hsent, hnone, List.nil_append, List.nil_append, List.range_succ_eq_map, List.map_cons, List.cons_append,
    List.cons_append] at hout
  obtain ⟨hfirst, -⟩ := List.cons.inj hout
  obtain ⟨-, hflit⟩ := OutMsg.flit.inj hfirst
  have hpay := congrArg (fun f => (fPayload f)[3]?) hflit
  simp only at hpay
  rw [payload_sealFlit _ _ _ _ _ _ _ (by rw [List.length_take]; omega) (by decide), List.getElem?_take_of_lt (by decide), hbyte,
    payload_sealFlit _ _ _ _ _ _ _ (by decide) (by decide)] at hpay
  exact absurd hpay (by decide)

end Sys2Proof.Machine
end
section
/-! Supply, temperature and the power cap (R504, R505, R507, R537, R538). -/

namespace Sys2Proof.Machine

open Sys2Proof Sys2Proof.Machine.Reg

/-! ### The effective cap -/

theorem capW_congr {s t : State} (h : t.get PWR_CAP_W = s.get PWR_CAP_W) : capW t = capW s := by rw [capW, capW, h]

theorem thermalLimit_congr {s t : State} (h : t.get PWR_TCP_VALUE = s.get PWR_TCP_VALUE) : thermalLimit t = thermalLimit s := by
  rw [thermalLimit, thermalLimit, State.getInt, State.getInt, h]

theorem get_effCap (s : State) :
    (effCap s).get PWR_EFFCAP_VALUE =
      if s.on PWR_STAT_BOW then min (min (capW s) (thermalLimit s)) 140 else min (capW s) (thermalLimit s) := by
  have hcap : capW s ≤ 380 := by unfold capW; omega
  refine State.get_put_of_lt (by decide) ?_
  show _ < 2 ^ 32
  split <;> omega

@[simp] theorem get_effCap_apart {s : State} {g : Fld} (h : Apart PWR_EFFCAP_VALUE g) : (effCap s).get g = s.get g :=
  State.get_put_apart h _

theorem Effect.effCap {regs : List Nat} {parts : List Part} {s t : State} (h : Effect regs parts s t) (hr : PWR_EFFCAP ∈ regs) :
    Effect regs parts s (effCap t) := h.put _ hr

theorem signedOf_codeOf {w : Nat} {i : Int} (hlo : -2 ^ w ≤ i) (hhi : i < 2 ^ w) :
    signedOf (w + 1) (codeOf (w + 1) i) = i := by
  have hpow : ((2 ^ (w + 1) : Nat) : Int) = 2 * 2 ^ w := by push_cast; ring
  have hpos : (0 : Int) < 2 ^ w := by positivity
  have hnat : (2 : Nat) ^ (w + 1) = 2 * 2 ^ w := by ring
  have hcode : codeOf (w + 1) i < 2 ^ (w + 1) := by
    unfold codeOf
    have := Int.emod_lt_of_pos i (b := ((2 ^ (w + 1) : Nat) : Int)) (by omega)
    have := Int.emod_nonneg i (b := ((2 ^ (w + 1) : Nat) : Int)) (by omega)
    omega
  have hval : ((codeOf (w + 1) i : Nat) : Int) = if 0 ≤ i then i else i + 2 * 2 ^ w := by
    unfold codeOf
    rw [Int.toNat_of_nonneg (Int.emod_nonneg _ (by omega)), hpow]
    split
    · exact Int.emod_eq_of_lt ‹_› (by omega)
    · rw [← Int.add_emod_right, Int.emod_eq_of_lt (by omega) (by omega)]
  unfold signedOf
  have hcast : ((2 ^ w : Nat) : Int) = 2 ^ w := by push_cast; rfl
  rw [Nat.mod_eq_of_lt hcode, hpow]
  simp only
  split at hval <;> split <;> omega

/-- The temperature that a sample gives is the one read back. -/
theorem getInt_tcp (s : State) {i : Int} (hlo : -32768 ≤ i) (hhi : i ≤ 32767) :
    (s.putInt PWR_TCP_VALUE (clampInt i (-32768) 32767)).getInt PWR_TCP_VALUE = i := by
  have hclamp : clampInt i (-32768) 32767 = i := by unfold clampInt; omega
  rw [hclamp, State.getInt, State.putInt, State.get_put_self (by decide)]
  show signedOf 16 (codeOf 16 i % 2 ^ 16) = i
  rw [show codeOf 16 i % 2 ^ 16 = codeOf 16 i from Nat.mod_eq_of_lt (by unfold codeOf; omega)]
  exact signedOf_codeOf (w := 15) (by omega) (by omega)

/-! ### Brown-out warning and temperature (R505, R507) -/

section

variable {s : State} (hon : s.powered)
include hon

theorem completes_brownoutWarning (hst : s.get PWR_STAT_STATE ≠ 3) :
    Completes .brownoutWarning s fun t => t.on PWR_STAT_BOW = true ∧ t.on PWR_EVT_BOW = true ∧
      t.get PWR_EFFCAP_VALUE = min (min (capW s) (thermalLimit s)) 140 ∧
      ChangesOnly [PWR_STAT, PWR_EVT, PWR_EFFCAP] [] s t := by
  refine completes_of_settled (congrArg (finish s) (if_neg hst)) hon fun t hs => ⟨?_, ?_, ?_, hs.changesOnly ?_⟩
  · simp (disch := decide) [hs.get, State.on]
  · simp (disch := decide) [hs.get, State.on]
  · rw [hs.get _ (by decide) (by decide), get_effCap, if_pos (by simp (disch := decide) [State.on]),
      capW_congr (s := s) (by simp (disch := decide)), thermalLimit_congr (s := s) (by simp (disch := decide))]
  · exact (((Effect.refl s).setOn (by decide)).setOn (by decide)).effCap (by decide)

theorem completes_brownoutWarningClear :
    Completes .brownoutWarningClear s fun t => t.on PWR_STAT_BOW = false ∧
      t.get PWR_EFFCAP_VALUE = min (capW s) (thermalLimit s) ∧ ChangesOnly [PWR_STAT, PWR_EFFCAP] [] s t := by
  refine completes_of_settled rfl hon fun t hs => ⟨?_, ?_, hs.changesOnly ?_⟩
  · simp (disch := decide) [hs.get, State.on]
  · rw [hs.get _ (by decide) (by decide), get_effCap, if_neg (by simp (disch := decide) [State.on]),
      capW_congr (s := s) (by simp (disch := decide)), thermalLimit_congr (s := s) (by simp (disch := decide))]
  · exact ((Effect.refl s).setOff (by decide)).effCap (by decide)

omit hon in
/-- A temperature sample before the cap follows it. -/
def tcpSampled (s : State) (tcp : Int) : State :=
  { (s.putInt PWR_TCP_VALUE (clampInt tcp (-32768) 32767)).put PWR_STAT_THROT (ofBool (650 < tcp)) with
    pwr := { s.pwr with
      hotAt := if 800 < tcp then some (s.pwr.hotAt.getD s.cyc) else none, heated := s.cyc / 10000000 } }

omit hon in
theorem get_tcpSampled (tcp : Int) (f : Fld) : (tcpSampled s tcp).get f =
    ((s.putInt PWR_TCP_VALUE (clampInt tcp (-32768) 32767)).put PWR_STAT_THROT (ofBool (650 < tcp))).get f := rfl

omit hon in
theorem getInt_tcpSampled {tcp : Int} (hlo : -32768 ≤ tcp) (hhi : tcp ≤ 32767) :
    (tcpSampled s tcp).getInt PWR_TCP_VALUE = tcp := by
  rw [State.getInt, get_tcpSampled, State.get_put_apart (by decide), ← State.getInt]
  exact getInt_tcp s hlo hhi

theorem completes_thermalSample {tcp : Int} (hlo : -32768 ≤ tcp) (hhi : tcp ≤ 32767)
    (hdue : s.pwr.heated < s.cyc / 10000000) :
    Completes (.thermalSample tcp) s fun t => t.getInt PWR_TCP_VALUE = tcp ∧
      t.on PWR_STAT_THROT = decide (650 < tcp) ∧ (tcp ≤ 800 → t.pwr.hotAt = none) ∧
      (800 < tcp → t.pwr.hotAt = some (s.pwr.hotAt.getD s.cyc)) ∧ t.pwr.heated = s.cyc / 10000000 ∧
      t.get PWR_EFFCAP_VALUE =
        (if s.on PWR_STAT_BOW then min (min (capW s) (if 650 < tcp then (380 - 2 * (tcp - 650)).toNat else 380)) 140
         else min (capW s) (if 650 < tcp then (380 - 2 * (tcp - 650)).toNat else 380)) ∧
      ChangesOnly [PWR_TCP, PWR_STAT, PWR_EFFCAP] [.pwr] s t := by
  refine completes_of_settled (u := effCap (tcpSampled s tcp))
    (congrArg (finish s) (if_neg (not_le.mpr hdue))) hon fun t hs => ?_
  have hpwr : t.pwr = (tcpSampled s tcp).pwr := hs.pwr
  refine ⟨?_, ?_, fun hcool => ?_, fun hhot => ?_, congrArg Power.heated hpwr, ?_, hs.changesOnly ?_⟩
  · rw [State.getInt, hs.get _ (by decide) (by decide), get_effCap_apart (by decide), ← State.getInt,
      getInt_tcpSampled hlo hhi]
  · rw [hs.on _ (by decide) (by decide), State.on_congr (get_effCap_apart (by decide)),
      State.on_congr (get_tcpSampled ..), State.on_put_ofBool (by decide)]
  · rw [hpwr]
    exact if_neg (not_lt.mpr hcool)
  · rw [hpwr]
    exact if_pos hhot
  · have hbow : (tcpSampled s tcp).on PWR_STAT_BOW = s.on PWR_STAT_BOW :=
      State.on_congr (by simp (disch := decide) [get_tcpSampled, State.putInt])
    rw [hs.get _ (by decide) (by decide), get_effCap, hbow,
      capW_congr (s := s) (by simp (disch := decide) [get_tcpSampled, State.putInt]), thermalLimit,
      getInt_tcpSampled hlo hhi]
  · exact ((((Effect.refl s).put _ (by decide)).put _ (by decide)).pwr _ (by decide)).effCap (by decide)

/-! ### The level of the cap (R537) -/

omit hon in
/-- The samples of a power sample. -/
def powerSampled (s : State) (mw : Nat) : State :=
  ({ s.put PWR_VIN_VALUE (Config.freeWord s.free).toNat with
    free := s.free + 1, pwr := { s.pwr with sampled := s.cyc / 100000 } } : State).put PWR_PMOD_VALUE mw

omit hon in
/-- The counts of samples above and below the cap. -/
def capCounted (s : State) (overN underN : Nat) : State := { s with pwr := { s.pwr with overN := overN, underN := underN } }

omit hon in
theorem get_powerSampled {f : Fld} (hv : Apart PWR_VIN_VALUE f) (hp : Apart PWR_PMOD_VALUE f) (mw : Nat) :
    (powerSampled s mw).get f = s.get f :=
  (State.get_put_apart hp mw).trans (State.get_put_apart hv _)

omit hon in
theorem effect_powerSampled {regs : List Nat} {parts : List Part} (hvin : PWR_VIN ∈ regs) (hmod : PWR_PMOD ∈ regs)
    (hp : Part.pwr ∈ parts) (hf : Part.free ∈ parts) (mw : Nat) :
    Effect regs parts s (powerSampled s mw) :=
  ((((Effect.refl s).put _ hvin).free (s.free + 1) hf).pwr _ hp).put _ hmod

omit hon in
/-- A power sample in its own 100 us: the level rises after five samples above the cap, and falls after a hundred below. -/
theorem exec_powerCapSample {mw : Nat} (hdue : s.pwr.sampled < s.cyc / 100000) {c l o u : Nat}
    (hc : c = s.get PWR_EFFCAP_VALUE) (hl : l = s.get PWR_STAT_LEVEL)
    (ho : o = if c * 1000 < mw then s.pwr.overN + 1 else 0)
    (hu : u = if c * 1000 < mw then 0 else if belowCap mw c then s.pwr.underN + 1 else 0) :
    exec (.powerCapSample mw) s = finish s (
      if (decide (5 ≤ o) && decide (l < 3)) = true then
        (setLevel (capCounted (powerSampled s mw) 0 (if (decide (100 ≤ u) && decide (0 < l)) = true then 0 else u)) (l + 1)).count
          (if l = 0 then PWR_CNT_HOLD_VALUE else PWR_CNT_THROT_VALUE) 1
      else if (decide (100 ≤ u) && decide (0 < l)) = true then
        if l = 1 then schDecide (setLevel (capCounted (powerSampled s mw) o 0) (l - 1))
        else setLevel (capCounted (powerSampled s mw) o 0) (l - 1)
      else capCounted (powerSampled s mw) o u) := by
  have hcap : (powerSampled s mw).get PWR_EFFCAP_VALUE = c :=
    (get_powerSampled (by decide) (by decide) mw).trans hc.symm
  have hlevel : (powerSampled s mw).get PWR_STAT_LEVEL = l :=
    (get_powerSampled (by decide) (by decide) mw).trans hl.symm
  show execPowerCapSample mw s = _
  unfold execPowerCapSample
  rw [if_neg (not_le.mpr hdue)]
  extract_lets _ _ _ s2 c' l' o' u' rise fall _ s3 s4
  obtain rfl : c' = c := hcap
  obtain rfl : l' = l := hlevel
  obtain rfl : o' = o := ho.symm
  obtain rfl : u' = u := hu.symm
  have hs3 : s3 = capCounted (powerSampled s mw) (if rise then 0 else o') (if fall then 0 else u') := rfl
  have hs4 : s4 = setLevel s3 (l' - 1) := rfl
  clear_value s3 s4
  subst hs3 hs4
  congr 1
  split
  · rfl
  · split <;> rfl

omit hon in
theorem get_setLevel_level {l : Nat} (hl : l < 4) : (setLevel s l).get PWR_STAT_LEVEL = l :=
  (State.get_setOn_apart (by decide)).trans (State.get_put_of_lt (by decide) hl)

omit hon in
theorem on_setLevel_event (l : Nat) : (setLevel s l).on PWR_EVT_LEVEL = true :=
  State.on_eq_true_iff.mpr (State.get_setOn (by decide))

omit hon in
theorem get_setLevel_apart {f : Fld} (hstat : Apart PWR_STAT_LEVEL f) (hevt : Apart PWR_EVT_LEVEL f) (l : Nat) :
    (setLevel s l).get f = s.get f :=
  (State.get_setOn_apart hevt).trans (State.get_put_apart hstat l)

omit hon in
theorem Effect.setLevel {regs : List Nat} {parts : List Part} {t : State} (h : Effect regs parts s t) (hstat : PWR_STAT ∈ regs)
    (hevt : PWR_EVT ∈ regs) (hp : Part.pwr ∈ parts) (l : Nat) : Effect regs parts s (setLevel t l) :=
  ((h.put _ hstat).setOn hevt).pwr _ hp

section

variable {mw c l : Nat} (hdue : s.pwr.sampled < s.cyc / 100000) (hc : c = s.get PWR_EFFCAP_VALUE)
  (hl : l = s.get PWR_STAT_LEVEL)
include hdue hc hl

theorem completes_powerCapSample_above (hmw : mw < 2 ^ 32) (hover : c * 1000 < mw) (hstay : s.pwr.overN < 4 ∨ l = 3) :
    Completes (.powerCapSample mw) s fun t => t.get PWR_PMOD_VALUE = mw ∧
      t.pwr = { s.pwr with overN := s.pwr.overN + 1, underN := 0, sampled := s.cyc / 100000 } ∧
      ChangesOnly [PWR_PMOD, PWR_VIN] [.pwr, .free] s t := by
  refine completes_of_settled (u := capCounted (powerSampled s mw) (s.pwr.overN + 1) 0)
    ((exec_powerCapSample hdue hc hl rfl rfl).trans (congrArg (finish s) ?_)) hon fun t hs => ⟨?_, hs.pwr, hs.changesOnly ?_⟩
  · have hno : ¬ (4 ≤ s.pwr.overN ∧ l < 3) := by omega
    simp [hover, hno]
  · rw [hs.get _ (by decide) (by decide)]
    exact State.get_put_of_lt (by decide) hmw
  · exact (effect_powerSampled (by decide) (by decide) (by decide) (by decide) mw).pwr _ (by decide)

theorem completes_powerCapSample_rises (hmw : mw < 2 ^ 32) (hover : c * 1000 < mw) (hfour : 4 ≤ s.pwr.overN) (hmax : l < 3) :
    Completes (.powerCapSample mw) s fun t => t.get PWR_PMOD_VALUE = mw ∧
      t.get PWR_STAT_LEVEL = l + 1 ∧ t.on PWR_EVT_LEVEL = true ∧
      t.pwr = { s.pwr with overN := 0, underN := 0, sampled := s.cyc / 100000, lvlAt := (s.cyc, l) } ∧
      (l = 0 → t.get PWR_CNT_HOLD_VALUE = satAdd 32 (s.get PWR_CNT_HOLD_VALUE) 1) ∧
      (0 < l → t.get PWR_CNT_THROT_VALUE = satAdd 32 (s.get PWR_CNT_THROT_VALUE) 1) ∧
      ChangesOnly [PWR_PMOD, PWR_VIN, PWR_STAT, PWR_EVT, if l = 0 then PWR_CNT_HOLD else PWR_CNT_THROT] [.pwr, .free] s t := by
  have hlevel (cnt : Fld) (f : Fld) (hstat : Apart PWR_STAT_LEVEL f) (hevt : Apart PWR_EVT_LEVEL f)
      (hvin : Apart PWR_VIN_VALUE f) (hpmod : Apart PWR_PMOD_VALUE f) :
      (setLevel (capCounted (powerSampled s mw) 0 0) (l + 1)).get f = s.get f :=
    (get_setLevel_apart hstat hevt _).trans (get_powerSampled hvin hpmod mw)
  refine completes_of_settled (u := (setLevel (capCounted (powerSampled s mw) 0 0) (l + 1)).count
      (if l = 0 then PWR_CNT_HOLD_VALUE else PWR_CNT_THROT_VALUE) 1)
    ((exec_powerCapSample hdue hc hl rfl rfl).trans (congrArg (finish s) ?_)) hon fun t hs =>
      ⟨?_, ?_, ?_, ?_, fun h0 => ?_, fun h1 => ?_, hs.changesOnly ?_⟩
  · simp [hover, hfour, hmax]
  · rw [hs.get _ (by decide) (by decide), State.get_count_apart (by split <;> decide),
      get_setLevel_apart (by decide) (by decide)]
    exact State.get_put_of_lt (by decide) hmw
  · rw [hs.get _ (by decide) (by decide), State.get_count_apart (by split <;> decide),
      get_setLevel_level (by omega)]
  · rw [hs.on _ (by decide) (by decide), State.on_congr (State.get_count_apart (by split <;> decide) 1), on_setLevel_event]
  · have hlast : (capCounted (powerSampled s mw) 0 0).get PWR_STAT_LEVEL = l :=
      (get_powerSampled (by decide) (by decide) mw).trans hl.symm
    exact hs.pwr.trans (congrArg (fun k => { s.pwr with
      overN := 0, underN := 0, sampled := s.cyc / 100000, lvlAt := (s.cyc, k) }) hlast)
  · rw [hs.get _ (by decide) (by decide), if_pos h0, State.get_count_self (by decide),
      get_setLevel_apart (by decide) (by decide)]
    exact congrArg (satAdd 32 · 1) (get_powerSampled (by decide) (by decide) mw)
  · rw [hs.get _ (by decide) (by decide), if_neg (by omega), State.get_count_self (by decide),
      get_setLevel_apart (by decide) (by decide)]
    exact congrArg (satAdd 32 · 1) (get_powerSampled (by decide) (by decide) mw)
  · refine Effect.count (Effect.setLevel (Effect.pwr (effect_powerSampled (by simp) (by simp) (by simp) (by simp) mw) _
      (by simp)) (by simp) (by simp) (by simp) _) 1 ?_
    split <;> simp [PWR_CNT_HOLD_VALUE, PWR_CNT_THROT_VALUE]

theorem completes_powerCapSample_falls (hcap : mw ≤ c * 1000) (hbelow : belowCap mw c = true) (hmany : 99 ≤ s.pwr.underN)
    (hmin : 1 < l) :
    Completes (.powerCapSample mw) s fun t => t.get PWR_STAT_LEVEL = l - 1 ∧ t.on PWR_EVT_LEVEL = true ∧
      t.pwr = { s.pwr with overN := 0, underN := 0, sampled := s.cyc / 100000, lvlAt := (s.cyc, l) } ∧
      ChangesOnly [PWR_PMOD, PWR_VIN, PWR_STAT, PWR_EVT] [.pwr, .free] s t := by
  have hwidth : l < 4 := hl ▸ s.get_lt PWR_STAT_LEVEL
  refine completes_of_settled (u := setLevel (capCounted (powerSampled s mw) 0 0) (l - 1))
    ((exec_powerCapSample hdue hc hl rfl rfl).trans (congrArg (finish s) ?_)) hon fun t hs =>
      ⟨?_, ?_, ?_, hs.changesOnly ?_⟩
  · have hlow : ¬ c * 1000 < mw := not_lt.mpr hcap
    have hpos : 0 < l := by omega
    have hone : l ≠ 1 := by omega
    simp [hlow, hbelow, hmany, hpos, hone]
  · rw [hs.get _ (by decide) (by decide), get_setLevel_level (by omega)]
  · rw [hs.on _ (by decide) (by decide), on_setLevel_event]
  · have hlast : (capCounted (powerSampled s mw) 0 0).get PWR_STAT_LEVEL = l :=
      (get_powerSampled (by decide) (by decide) mw).trans hl.symm
    exact hs.pwr.trans (congrArg (fun k => { s.pwr with
      overN := 0, underN := 0, sampled := s.cyc / 100000, lvlAt := (s.cyc, k) }) hlast)
  · exact Effect.setLevel (Effect.pwr (effect_powerSampled (by decide) (by decide) (by decide) (by decide) mw) _ (by decide))
      (by decide) (by decide) (by decide) _

end

/-! ### Peripheral supplies (R504) -/

theorem completes_supplyOvercurrent {i : Nat} (hi : i < 16) (hsup : s.pwr.supOn = true) :
    Completes (.supplyOvercurrent i) s fun t => tget t.pwr.supOff i = some s.cyc ∧
      (∀ j, j ≠ i → tget t.pwr.supOff j = tget s.pwr.supOff j) ∧ ChangesOnly [] [.pwr] s t := by
  have hcond : ¬ ((!s.pwr.supOn || decide (16 ≤ i)) = true) := by simp [hsup, hi]
  refine completes_of_settled (congrArg (finish s) (if_neg hcond)) hon fun t hs => ?_
  rw [hs.pwr]
  exact ⟨tget_tset_same .., fun j hj => tget_tset_ne _ _ _ _ hj, hs.changesOnly ((Effect.refl s).pwr _ (by decide))⟩

theorem completes_supplyRetry {i at_ : Nat} (hoff : tget s.pwr.supOff i = some at_) (hdue : at_ + 100000000 ≤ s.cyc) :
    Completes (.supplyRetry i) s fun t => tget t.pwr.supOff i = none ∧
      (∀ j, j ≠ i → tget t.pwr.supOff j = tget s.pwr.supOff j) ∧ ChangesOnly [] [.pwr] s t := by
  refine completes_of_settled (u := { s with pwr := { s.pwr with supOff := tdel s.pwr.supOff i } })
    (congrArg (finish s) ?_) hon fun t hs => ?_
  · rw [hoff]
    exact if_neg (not_lt.mpr hdue)
  · rw [hs.pwr]
    exact ⟨tget_tdel_same .., fun j hj => tget_tdel_ne _ hj, hs.changesOnly ((Effect.refl s).pwr _ (by decide))⟩

end

/-- Settles O52: each sample settles to the registers and counts it gives, and every other register stands. -/
theorem capFollowsSupplyAndTemperature : Obligations.CapFollowsSupplyAndTemperature := by
  intro s cap therm hon hcap htherm
  obtain rfl : cap = capW s := hcap
  obtain rfl : therm = thermalLimit s := htherm
  refine ⟨completes_brownoutWarning hon, completes_brownoutWarningClear hon, fun tcp => completes_thermalSample hon,
    fun mw c l hmw hdue hc hl => ⟨?_, ?_, ?_⟩, fun i => completes_supplyOvercurrent hon, fun i at_ => completes_supplyRetry hon⟩
  · exact completes_powerCapSample_above hon hdue hc hl hmw
  · exact completes_powerCapSample_rises hon hdue hc hl hmw
  · exact completes_powerCapSample_falls hon hdue hc hl

end Sys2Proof.Machine
end
section
/-! Dormant (R531–R536). -/

namespace Sys2Proof.Machine

open Sys2Proof Sys2Proof.Machine.Reg

def pwrCtrlRow : RegDesc := ⟨"PWR_CTRL", 0x10000c000000, [], 32, 0x0, [⟨0, 0, .wo⟩], none, none⟩

theorem regAt_pwrCtrl : regAt PWR_CTRL = some (pwrCtrlRow, [], false) := by decide

theorem writeReg_pwrCtrl {s : State} {who : Initiator} {v : Nat} (ok : WriteOk s who PWR_CTRL (v ||| 1)) :
    writeReg s who PWR_CTRL (v ||| 1) = dormRequested (s.wr PWR_CTRL (s.rd PWR_CTRL)) := by
  rw [writeReg_command ok regAt_pwrCtrl (by decide) (by decide)]
  show onIf ((v ||| 1).testBit 0) dormRequested _ = _
  rw [Nat.testBit_or, show Nat.testBit 1 0 = true from rfl, Bool.or_true]
  rfl

/-! ### Memory and gating -/

theorem memGet_filter (p : Nat → Bool) (m : List Host.Cell) (a : Nat) :
    memGet (m.filter fun c => p c.1) a = if p a then memGet m a else 0#8 := by
  induction m with
  | nil => simp [memGet]
  | cons c m ih =>
    obtain ⟨k, b⟩ := c
    by_cases hp : p k = true
    · rw [List.filter_cons_of_pos (by exact hp)]
      by_cases hk : k = a
      · subst hk
        simp [memGet, hp]
      · simp only [memGet, if_neg hk, ih]
    · rw [List.filter_cons_of_neg (by exact hp), ih]
      by_cases hk : k = a
      · subst hk
        simp [hp]
      · simp only [memGet, if_neg hk]

theorem memGet_dropArea (s : State) (area a : Nat) :
    memGet (s.dropArea area).mem a = if areaBase area ≤ a ∧ a < areaBase (area + 1) then 0#8 else memGet s.mem a := by
  refine (memGet_filter (fun k => !(decide (areaBase area ≤ k) && decide (k < areaBase (area + 1)))) s.mem a).trans ?_
  by_cases h : areaBase area ≤ a ∧ a < areaBase (area + 1)
  · simp [h]
  · rw [if_neg h, if_pos (by simpa [-not_and, not_and_or] using h)]

@[simp] theorem get_dropArea (s : State) (area : Nat) (f : Fld) : (s.dropArea area).get f = s.get f := rfl

/-- What gating the fabric leaves. -/
theorem effect_gateFabric (s : State) : Effect (each 8 TC_STAT ++ [SYS_CORE_MAP, SYS_ISLAND_STAT]) [.cores, .solve, .trl, .pools]
    s (gateFabric s) := by
  have hstat : Effect (each 8 TC_STAT ++ [SYS_CORE_MAP, SYS_ISLAND_STAT]) [.cores, .solve, .trl, .pools] s
      ((List.range 8).foldl (fun (s : State) n => s.wr (TC_STAT n) 0#64) s) :=
    (Effect.refl s).foldl fun u n hn => (Effect.refl u).wr _ (by simp only [each, List.mem_append, List.mem_map]; exact .inl ⟨n, hn, rfl⟩)
  have hgate := hstat.components (u := { (List.range 8).foldl (fun (s : State) n => s.wr (TC_STAT n) 0#64) s with
    cores := [], batch := none, trl := trellisReset, kvpQueue := [], acks := [] }) rfl fun p hp => by
      cases p
      case cores | solve | trl | pools => simp at hp
      all_goals simp [Keeps]
  exact ((((hgate.put 0 (by decide)).put 0 (by decide)).setOff (by decide)).setOff (by decide)).setOff (by decide)

theorem cores_gateFabric (s : State) : (gateFabric s).cores = [] := rfl

theorem batch_gateFabric (s : State) : (gateFabric s).batch = none := rfl

theorem powered_gateFabric (s : State) : (gateFabric s).get SYS_CORE_MAP_POWERED = 0 := by
  unfold gateFabric
  simp (disch := decide) only [State.get_setOff_apart, State.get_put_apart]
  exact State.get_setOff (by decide)

theorem Effect.dropArea {regs : List Nat} {parts : List Part} {s t : State} (h : Effect regs parts s t) (hp : Part.mem ∈ parts)
    (area : Nat) : Effect regs parts s (t.dropArea area) :=
  h.components rfl fun p hq => by
    cases p
    case mem => exact absurd hp hq
    all_goals simp [Keeps, State.dropArea]

/-! ### Entry (R531–R534) -/

/-- The refusal of an entry is read from registers alone. -/
theorem dormantRefusal_congr {s t : State} (h : ∀ a, t.rd a = s.rd a) : dormantRefusal t = dormantRefusal s := by
  have hget (f : Fld) : t.get f = s.get f := by rw [State.get, State.get, h]
  have hon (f : Fld) : t.on f = s.on f := State.on_congr (hget f)
  have hlane : laneBusy t = laneBusy s := by
    funext l
    simp only [laneBusy, laneSt, hget]
  simp only [dormantRefusal, hlane, hget, hon]

theorem dormantRefusal_le (s : State) : dormantRefusal s ≤ 8 := by
  unfold dormantRefusal
  repeat' split
  all_goals omega

/-- The island and power registers at a Dormant entry. -/
def dormantRegs (s : State) : State :=
  let s := (s.setOff SYS_ISLAND_STAT_SNS).setOff SYS_ISLAND_STAT_CWY
  let s := ((s.setOff SYS_ISLAND_STAT_BLV).setOff SYS_ISLAND_STAT_RFX).setOff MEM_DDR_STAT_READY
  (s.put PWR_STAT_REFUSE 0).put PWR_STAT_STATE 2

theorem effect_dormantRegs (s : State) : Effect [SYS_ISLAND_STAT, MEM_DDR_STAT, PWR_STAT] [] s (dormantRegs s) :=
  ((((((((Effect.refl s).setOff (by decide)).setOff (by decide)).setOff (by decide)).setOff (by decide)).setOff
    (by decide)).put 0 (by decide)).put 2 (by decide))

theorem get_dormantRegs_off (s : State) {f : Fld}
    (h : f ∈ [SYS_ISLAND_STAT_SNS, SYS_ISLAND_STAT_CWY, SYS_ISLAND_STAT_BLV, SYS_ISLAND_STAT_RFX, MEM_DDR_STAT_READY,
      PWR_STAT_REFUSE]) : (dormantRegs s).get f = 0 := by
  fin_cases h <;> simp (disch := decide) [dormantRegs, State.get_put_of_lt]

theorem state_dormantRegs (s : State) : (dormantRegs s).get PWR_STAT_STATE = 2 :=
  State.get_put_of_lt (by decide) (by decide)

/-- The fabric gated and the SPAD dropped, with the registers of a Dormant entry. -/
def dormantGated (s : State) : State := dormantRegs ((gateFabric s).dropArea 1)

theorem powered_dormantGated (s : State) : (dormantGated s).get SYS_CORE_MAP_POWERED = 0 :=
  ((effect_dormantRegs _).get (by decide)).trans (powered_gateFabric s)

theorem cores_dormantGated (s : State) : (dormantGated s).cores = [] := ((effect_dormantRegs _).keeps .cores (by decide)).1

theorem batch_dormantGated (s : State) : (dormantGated s).batch = none := (effect_dormantRegs _).keeps .solve (by decide)

theorem memGet_dormantGated (s : State) (a : Nat) :
    memGet (dormantGated s).mem a = if areaBase 1 ≤ a ∧ a < areaBase 2 then 0#8 else memGet s.mem a := by
  rw [dormantGated, (effect_dormantRegs _).keeps .mem (by decide), memGet_dropArea, (effect_gateFabric s).keeps .mem (by decide)]

theorem effect_dormantGated (s : State) : Effect (each 8 TC_STAT ++ [SYS_CORE_MAP, SYS_ISLAND_STAT, MEM_DDR_STAT, PWR_STAT])
    [.cores, .solve, .trl, .pools, .mem] s (dormantGated s) := by
  have hgate : Effect (each 8 TC_STAT ++ [SYS_CORE_MAP, SYS_ISLAND_STAT, MEM_DDR_STAT, PWR_STAT])
      [.cores, .solve, .trl, .pools, .mem] s (gateFabric s) :=
    (effect_gateFabric s).mono (List.append_subset.mpr ⟨List.subset_append_left .., by simp⟩) (by simp)
  exact (hgate.dropArea (by simp) 1).trans ((effect_dormantRegs _).mono (by simp) (by simp))

/-- What a Dormant entry does beside its registers. -/
def dormantParts (s : State) : State :=
  { s with fus := fusionReset
           pwr := { s.pwr with dormAt := some s.cyc, supOn := false, supOff := [], linesLow := true } }

theorem enterDormant_eq (s : State) : enterDormant s = dormantParts (dormantGated s) := rfl

theorem get_dormantParts (s : State) (f : Fld) : (dormantParts s).get f = s.get f := rfl

theorem cores_dormantParts (s : State) : (dormantParts s).cores = s.cores := rfl

theorem batch_dormantParts (s : State) : (dormantParts s).batch = s.batch := rfl

theorem mem_dormantParts (s : State) : (dormantParts s).mem = s.mem := rfl

theorem effect_dormantParts {parts : List Part} (hf : Part.fus ∈ parts) (hp : Part.pwr ∈ parts) (s : State) :
    Effect [] parts s (dormantParts s) :=
  (Effect.refl s).components rfl fun p hq => by
    cases p
    case fus => exact absurd hf hq
    case pwr => exact absurd hp hq
    all_goals simp [Keeps, dormantParts]

theorem effect_enterDormant (s : State) : Effect (each 8 TC_STAT ++ [SYS_CORE_MAP, SYS_ISLAND_STAT, MEM_DDR_STAT, PWR_STAT])
    [.cores, .solve, .trl, .pools, .mem, .fus, .pwr] s (enterDormant s) :=
  ((effect_dormantGated s).mono (List.Subset.refl _) (by simp)).trans
    ((effect_dormantParts (by simp) (by simp) _).mono (List.nil_subset _) (List.Subset.refl _))

section

variable {s : State} (hon : s.powered)
include hon

section

variable {who : Initiator} {v : Word64} (ok : WriteOk s who PWR_CTRL (v.toNat ||| 1)) (hstate : s.get PWR_STAT_STATE = 1)
include ok hstate

theorem completes_dormantRequest_refused {code : Nat} (hcode : dormantRefusal s = code) (hne : code ≠ 0) :
    Completes (.dormantRequest who v) s fun t => t.get PWR_STAT_REFUSE = code ∧
      t.on PWR_EVT_REFUSED = true ∧ t.get PWR_STAT_STATE = 1 ∧ ChangesOnly [PWR_STAT, PWR_EVT] [] s t := by
  have hle := hcode ▸ dormantRefusal_le s
  have hreq : dormRequested (s.wr PWR_CTRL (s.rd PWR_CTRL)) =
      ((s.wr PWR_CTRL (s.rd PWR_CTRL)).put PWR_STAT_REFUSE code).setOn PWR_EVT_REFUSED := by
    rw [dormRequested, if_neg (by simp [hstate]), dormantRefusal_congr (State.rd_wr_self s _), hcode]
    split
    · exact absurd rfl hne
    · rfl
  refine completes_of_settled (congrArg (finish s) ((writeReg_pwrCtrl ok).trans hreq)) hon fun t hs =>
    ⟨?_, ?_, ?_, hs.changesOnly (((Effect.wrSelf s PWR_CTRL).put _ (by decide)).setOn (by decide))⟩
  · rw [hs.get _ (by decide) (by decide), State.get_setOn_apart (by decide)]
    exact State.get_put_of_lt (by decide) (show code < 16 by omega)
  · rw [hs.on _ (by decide) (by decide), State.on_eq_true_iff]
    exact State.get_setOn (by decide)
  · rw [hs.get _ (by decide) (by decide), State.get_setOn_apart (by decide), State.get_put_apart (by decide), State.get_wr_self,
      hstate]

theorem completes_dormantRequest_enters (hnone : dormantRefusal s = 0) :
    Completes (.dormantRequest who v) s fun t => t.get PWR_STAT_STATE = 2 ∧ t.get PWR_STAT_REFUSE = 0 ∧
      t.pwr.dormAt = some s.cyc ∧ t.pwr.supOn = false ∧ t.pwr.linesLow = true ∧ t.cores = [] ∧ t.batch = none ∧
      t.get SYS_CORE_MAP_POWERED = 0 ∧ t.on SYS_ISLAND_STAT_BLV = false ∧ t.on SYS_ISLAND_STAT_RFX = false ∧
      t.on SYS_ISLAND_STAT_SNS = false ∧ t.on SYS_ISLAND_STAT_CWY = false ∧ t.on MEM_DDR_STAT_READY = false ∧
      (∀ a, a < areaBase 1 ∨ areaBase 2 ≤ a → memGet t.mem a = memGet s.mem a) ∧
      ChangesOnly (each 8 TC_STAT ++ [SYS_CORE_MAP, SYS_ISLAND_STAT, MEM_DDR_STAT, PWR_STAT])
        [.cores, .solve, .trl, .pools, .mem, .fus, .pwr] s t := by
  have hreq : dormRequested (s.wr PWR_CTRL (s.rd PWR_CTRL)) = enterDormant (s.wr PWR_CTRL (s.rd PWR_CTRL)) := by
    rw [dormRequested, if_neg (by simp [hstate]), dormantRefusal_congr (State.rd_wr_self s _), hnone]
    rfl
  refine completes_of_settled (congrArg (finish s) ((writeReg_pwrCtrl ok).trans hreq)) hon fun t hs => ?_
  have hget (f : Fld) (h1 : f.addr ≠ DGN_CNT_MERGE) (h2 : f.addr ≠ DGN_EVT) :
      t.get f = (dormantGated (s.wr PWR_CTRL (s.rd PWR_CTRL))).get f := (hs.get f h1 h2).trans (get_dormantParts _ f)
  have hgate := effect_dormantGated (s.wr PWR_CTRL (s.rd PWR_CTRL))
  have hpwr : t.pwr = { s.pwr with dormAt := some s.cyc, supOn := false, supOff := [], linesLow := true } := by
    rw [hs.pwr, enterDormant_eq, dormantParts, hgate.keeps .pwr (by decide), (hgate.keeps .time (by decide)).1]
    rfl
  have hoff {f : Fld} (h : f ∈ [SYS_ISLAND_STAT_SNS, SYS_ISLAND_STAT_CWY, SYS_ISLAND_STAT_BLV, SYS_ISLAND_STAT_RFX,
      MEM_DDR_STAT_READY, PWR_STAT_REFUSE]) (h1 : f.addr ≠ DGN_CNT_MERGE) (h2 : f.addr ≠ DGN_EVT) : t.get f = 0 :=
    (hget f h1 h2).trans (get_dormantRegs_off _ h)
  have hclear {f : Fld} (h : t.get f = 0) : t.on f = false := by rw [State.on, h]; rfl
  refine ⟨(hget _ (by decide) (by decide)).trans (state_dormantRegs _), hoff (by decide) (by decide) (by decide), by rw [hpwr],
    by rw [hpwr], by rw [hpwr], ?_, ?_, (hget _ (by decide) (by decide)).trans (powered_dormantGated _),
    hclear (hoff (by decide) (by decide) (by decide)), hclear (hoff (by decide) (by decide) (by decide)),
    hclear (hoff (by decide) (by decide) (by decide)), hclear (hoff (by decide) (by decide) (by decide)),
    ?_, fun a ha => ?_, hs.changesOnly ((Effect.wrSelf s PWR_CTRL).trans (effect_enterDormant _))⟩
  · rw [hs.cores, enterDormant_eq, cores_dormantParts, cores_dormantGated]
  · rw [hs.batch, enterDormant_eq, batch_dormantParts, batch_dormantGated]
  · exact hclear (hoff (by decide) (by decide) (by decide))
  · rw [hs.mem, enterDormant_eq, mem_dormantParts, memGet_dormantGated, if_neg (by omega)]
    rfl

end

theorem completes_dormantEntered {at_ : Nat} (hat : s.pwr.dormAt = some at_) (hstate : s.get PWR_STAT_STATE = 2)
    (hdue : at_ + 2000000 ≤ s.cyc) :
    Completes .dormantEntered s fun t => t.get PWR_STAT_STATE = 3 ∧
      t.get PWR_CNT_DORM_VALUE = satAdd 32 (s.get PWR_CNT_DORM_VALUE) 1 ∧
      t.on SYS_ISLAND_STAT_BWK = false ∧ ChangesOnly [PWR_STAT, PWR_CNT_DORM, SYS_ISLAND_STAT] [] s t := by
  refine completes_of_settled (u := ((s.setOff SYS_ISLAND_STAT_BWK).put PWR_STAT_STATE 3).count PWR_CNT_DORM_VALUE 1)
    (congrArg (finish s) ?_) hon fun t hs => ⟨?_, ?_, ?_, hs.changesOnly ?_⟩
  · rw [hat]
    exact if_neg (by simp [hstate, hdue])
  · simp (disch := decide) [hs.get, State.get_put_of_lt]
  · rw [hs.get _ (by decide) (by decide), State.get_count_self (by decide), State.get_put_apart (by decide),
      State.get_setOff_apart (by decide)]
    rfl
  · simp (disch := decide) [hs.get, State.on]
  · exact (((Effect.refl s).setOff (by decide)).put 3 (by decide)).count 1 (by decide)

/-! ### Waking (R532, R535, R536) -/

theorem completes_wakeEvent {src : Nat} (hsrc : src < 3) (hstate : s.get PWR_STAT_STATE = 2 ∨ s.get PWR_STAT_STATE = 3)
    (hen : (s.rd PWR_WAKE).toNat.testBit src = true) :
    Completes (.wakeEvent src) s fun t => t.get PWR_STAT_STATE = 4 ∧
      t.pwr = { s.pwr with dormAt := none, wakeAt := some (s.cyc, 0) } ∧ ChangesOnly [PWR_STAT] [.pwr] s t := by
  have hcond : ¬ ((s.get PWR_STAT_STATE ≠ 2 ∧ s.get PWR_STAT_STATE ≠ 3) ∨ 3 ≤ src ∨
      (!(s.rd PWR_WAKE).toNat.testBit src) = true) := by
    rw [hen]
    simp only [Bool.not_true, Bool.false_eq_true, or_false]
    omega
  refine completes_of_settled (congrArg (finish s) (if_neg hcond)) hon fun t hs => ⟨?_, hs.pwr, hs.changesOnly ?_⟩
  · rw [hs.get _ (by decide) (by decide)]
    exact State.get_put_of_lt (by decide) (by decide)
  · exact ((Effect.refl s).put 4 (by decide)).pwr _ (by decide)

omit hon in
/-- A step of the waking that is reached in its time. -/
theorem wakeStep_due {at_ n us : Nat} (f : State → State) (hat : s.pwr.wakeAt = some (at_, n)) (hdue : at_ + us * 1000 ≤ s.cyc) :
    wakeStep s n us f = { f s with pwr := { (f s).pwr with wakeAt := some (at_, n + 1) } } := by
  unfold wakeStep
  rw [hat]
  exact if_neg (by omega)

omit hon in
theorem effect_islandsUp (s : State) : Effect [SYS_CORE_MAP, SYS_ISLAND_STAT] [] s (islandsUp s) :=
  (((Effect.refl s).put _ (by decide)).put _ (by decide)).wr _ (by decide)

omit hon in
theorem powered_islandsUp (s : State) : (islandsUp s).get SYS_CORE_MAP_POWERED = s.fuses.phys % 256 :=
  (State.get_wr_ne (by decide) _).trans ((State.get_put_apart (by decide) _).trans (State.get_put_self (by decide) _))

omit hon in
/-- The islands beside the cores are up: bits 8 and 10 to 17 of SYS_ISLAND_STAT are set. -/
theorem on_islandsUp (s : State) {f : Fld} (haddr : f.addr = SYS_ISLAND_STAT) (hbit : f.lo = f.hi)
    (hset : Nat.testBit 0x3FF00 f.hi = true) : (islandsUp s).on f = true := by
  rw [State.on_eq_true_iff, State.get, haddr]
  show bitsOf (State.rd (State.wr _ SYS_ISLAND_STAT _) SYS_ISLAND_STAT).toNat f.hi f.lo = 1
  rw [State.rd_wr_same, hbit]
  apply Nat.eq_of_testBit_eq
  intro i
  rw [testBit_bitsOf, BitVec.toNat_or, Nat.testBit_or]
  rcases i with - | i
  · simp [hset]
  · simp [Nat.testBit_succ]

omit hon in
/-- A waking module with its power record. -/
def withPower (s : State) (p : Power) : State := { s with pwr := p }

omit hon in
theorem get_withPower (s : State) (p : Power) (f : Fld) : (withPower s p).get f = s.get f := rfl

omit hon in
theorem outbox_withPower (s : State) (p : Power) : (withPower s p).outbox = s.outbox := rfl

omit hon in
theorem Effect.withPower {regs : List Nat} {parts : List Part} {t : State} (h : Effect regs parts s t) (hp : Part.pwr ∈ parts)
    (p : Power) : Effect regs parts s (withPower t p) := h.pwr p hp

theorem completes_wakePllLock {at_ : Nat} (hat : s.pwr.wakeAt = some (at_, 0)) (hdue : at_ + 5000000 ≤ s.cyc) :
    Completes .wakePllLock s fun t =>
      t.pwr = { s.pwr with supOn := true, linesLow := false, wakeAt := some (at_, 1) } ∧
      t.get SYS_CORE_MAP_POWERED = s.fuses.phys % 256 ∧ t.on SYS_ISLAND_STAT_BLV = true ∧ t.on SYS_ISLAND_STAT_RFX = true ∧
      ChangesOnly [SYS_CORE_MAP, SYS_ISLAND_STAT] [.pwr] s t := by
  refine completes_of_settled (u := withPower (islandsUp s) { s.pwr with
    supOn := true, linesLow := false, wakeAt := some (at_, 1) }) (congrArg (finish s) (wakeStep_due _ hat hdue)) hon
    fun t hs => ⟨hs.pwr, ?_, ?_, ?_, hs.changesOnly (((effect_islandsUp s).mono (by decide) (by decide)).withPower (by decide) _)⟩
  · rw [hs.get _ (by decide) (by decide), get_withPower, powered_islandsUp]
  · rw [hs.on _ (by decide) (by decide), State.on_congr (get_withPower ..), on_islandsUp s rfl rfl (by decide)]
  · rw [hs.on _ (by decide) (by decide), State.on_congr (get_withPower ..), on_islandsUp s rfl rfl (by decide)]

omit hon in
/-- The application cluster's harts start. -/
def appStarted (s : State) : State := forUpTo 8 (fun h s => s.send (.hartStart (4 + h) (s.get PWR_APPVEC_ADDR * 4))) s

omit hon in
theorem effect_appStarted {parts : List Part} (hp : Part.out ∈ parts) (s : State) : Effect [] parts s (appStarted s) :=
  (Effect.refl s).forUpTo fun u _ _ => (Effect.refl u).send _ hp

omit hon in
theorem outbox_appStarted (s : State) :
    (appStarted s).outbox = s.outbox ++ (List.range 8).map fun h => .hartStart (4 + h) (s.get PWR_APPVEC_ADDR * 4) := by
  have hfold : ∀ (xs : List Nat) (u : State),
      (xs.foldl (fun (s : State) h => s.send (.hartStart (4 + h) (s.get PWR_APPVEC_ADDR * 4))) u).outbox =
        u.outbox ++ xs.map fun h => .hartStart (4 + h) (u.get PWR_APPVEC_ADDR * 4) := by
    intro xs
    induction xs with
    | nil => simp
    | cons x xs ih =>
      intro u
      rw [List.foldl_cons, ih, State.send_outbox_eq, List.map_cons, List.append_assoc]
      rfl
  exact hfold (List.range 8) s

theorem completes_wakeAppStart {at_ : Nat} (hat : s.pwr.wakeAt = some (at_, 1)) (hdue : at_ + 36000000 ≤ s.cyc) :
    Completes .wakeAppStart s fun t =>
      t.pwr = { s.pwr with wakeAt := some (at_, 2) } ∧ t.on MEM_DDR_STAT_READY = true ∧ (∃ l, t.outbox = s.outbox ++
        (List.range 8).map (fun h => .hartStart (4 + h) (s.get PWR_APPVEC_ADDR * 4)) ++ l) ∧
      ChangesOnly [MEM_DDR_STAT] [.pwr, .out] s t := by
  have heff : Effect [] [.pwr, .out] (s.setOn MEM_DDR_STAT_READY) (appStarted (s.setOn MEM_DDR_STAT_READY)) :=
    effect_appStarted (by decide) _
  have hpwr : (appStarted (s.setOn MEM_DDR_STAT_READY)).pwr = s.pwr :=
    (effect_appStarted (parts := [.out]) (by decide) _).keeps .pwr (by decide)
  refine completes_of_settled (u := withPower (appStarted (s.setOn MEM_DDR_STAT_READY)) { s.pwr with
    wakeAt := some (at_, 2) }) (congrArg (finish s) ((wakeStep_due _ hat hdue).trans ?_)) hon fun t hs =>
    ⟨hs.pwr, ?_, ?_, hs.changesOnly ((((Effect.refl s).setOn (by decide)).trans (heff.mono (by decide) (by decide))).withPower (by decide) _)⟩
  · show withPower (appStarted (s.setOn MEM_DDR_STAT_READY)) { (appStarted (s.setOn MEM_DDR_STAT_READY)).pwr with
      wakeAt := some (at_, 2) } = _
    rw [hpwr]
  · rw [hs.on _ (by decide) (by decide), State.on_congr (get_withPower ..), heff.on (by decide), State.on_eq_true_iff]
    exact State.get_setOn (by decide)
  · obtain ⟨l, hl, -⟩ := hs.out
    rw [hl, outbox_withPower, outbox_appStarted, State.get_setOn_apart (by decide)]
    exact ⟨l, rfl⟩

theorem completes_wakeComplete {at_ : Nat} (hat : s.pwr.wakeAt = some (at_, 2)) (hdue : at_ + 40000000 ≤ s.cyc) :
    Completes .wakeComplete s fun t =>
      t.pwr = { s.pwr with wakeAt := none } ∧ t.get PWR_STAT_STATE = 1 ∧ t.on PWR_EVT_WAKE = true ∧
      ChangesOnly [SYS_CORE_MAP, SYS_ISLAND_STAT, PWR_STAT, PWR_EVT] [.pwr] s t := by
  have hstate (p : Power) : (withPower (((islandsUp s).put PWR_STAT_STATE 1).setOn PWR_EVT_WAKE) p).get PWR_STAT_STATE = 1 :=
    (State.get_setOn_apart (by decide)).trans (State.get_put_of_lt (by decide) (by decide))
  refine completes_of_settled (u := withPower (((islandsUp s).put PWR_STAT_STATE 1).setOn PWR_EVT_WAKE) { s.pwr with
    wakeAt := none }) (congrArg (finish s) ?_) hon fun t hs => ⟨hs.pwr, ?_, ?_, hs.changesOnly ?_⟩
  · show (if (wakeStep s 2 40000 _).get PWR_STAT_STATE = 1 then _ else _) = _
    rw [wakeStep_due _ hat hdue]
    exact if_pos (hstate _)
  · rw [hs.get _ (by decide) (by decide), hstate]
  · rw [hs.on _ (by decide) (by decide), State.on_congr (get_withPower ..), State.on_eq_true_iff]
    exact State.get_setOn (by decide)
  · exact ((((effect_islandsUp s).mono (by decide) (by decide)).put 1 (by decide)).setOn (by decide)).withPower (by decide) _

end

/-- Settles O54: each command of the entry and of the waking settles to the registers and the power record it gives. -/
theorem dormantEntryAndWake : Obligations.DormantEntryAndWake := by
  intro s hon
  refine ⟨fun who v ok hstate => ⟨fun code => completes_dormantRequest_refused hon ok hstate,
    completes_dormantRequest_enters hon ok hstate⟩, fun hbusy => ?_, fun at_ => completes_dormantEntered hon,
    fun src => completes_wakeEvent hon, fun at_ => completes_wakePllLock hon, fun at_ => completes_wakeAppStart hon,
    fun at_ => completes_wakeComplete hon⟩
  rw [dormantRefusal, if_pos hbusy]

end Sys2Proof.Machine
end
section
/-! Shutdown (R506, R507, R510, R513, R520). -/

namespace Sys2Proof.Machine

open Sys2Proof Sys2Proof.Machine.Reg

/-! ### Trips (R506 instant 1) -/

/-- A programming operation that is cut short leaves its fuses; no register is touched. -/
theorem effect_fuseInterrupted {parts : List Part} (hs : Part.sec ∈ parts) (hf : Part.free ∈ parts) (s : State) :
    Effect [] parts s (fuseInterrupted s) :=
  (Effect.refl s).components rfl fun p hq => by
    cases p
    case sec => exact absurd hs hq
    case free => exact absurd hf hq
    all_goals simp [Keeps, fuseInterrupted]

/-- A trip's own record. -/
def tripCaused (s : State) (cause : Nat) : State :=
  { s with pwr := { s.pwr with causes := s.pwr.causes ||| cause, vinLow := s.pwr.vinLow || cause == 1 } }

/-- The fabric and the LPDDR5X gated. -/
def tripGated (s : State) : State := ((gateFabric (fuseInterrupted s)).dropArea 3).setOff MEM_DDR_STAT_READY

/-- The scheduler without steps, and the power record of a trip. -/
def tripRecorded (s : State) (p : Power) : State := { s with sched := { s.sched with steps := [] }, pwr := p }

theorem get_tripRecorded (s : State) (p : Power) (f : Fld) : (tripRecorded s p).get f = s.get f := rfl

theorem steps_tripRecorded (s : State) (p : Power) : (tripRecorded s p).sched.steps = [] := rfl

theorem pwr_tripRecorded (s : State) (p : Power) : (tripRecorded s p).pwr = p := rfl

theorem effect_tripGated (s : State) : Effect (each 8 TC_STAT ++ [SYS_CORE_MAP, SYS_ISLAND_STAT, MEM_DDR_STAT])
    [.cores, .solve, .trl, .pools, .mem, .sec, .free] s (tripGated s) := by
  have hfuse : Effect (each 8 TC_STAT ++ [SYS_CORE_MAP, SYS_ISLAND_STAT, MEM_DDR_STAT])
      [.cores, .solve, .trl, .pools, .mem, .sec, .free] s (fuseInterrupted s) :=
    (effect_fuseInterrupted (by simp) (by simp) s).mono (List.nil_subset _) (List.Subset.refl _)
  have hgate := hfuse.trans ((effect_gateFabric (fuseInterrupted s)).mono
    (List.append_subset.mpr ⟨List.subset_append_left .., by simp⟩) (by simp))
  exact (hgate.dropArea (by simp) 3).setOff (List.mem_append_right _ (by decide))

theorem effect_tripRecorded {parts : List Part} (hs : Part.sched ∈ parts) (hp : Part.pwr ∈ parts) (s : State) (p : Power) :
    Effect [] parts s (tripRecorded s p) :=
  (Effect.refl s).components rfl fun q hq => by
    cases q
    case sched => exact absurd hs hq
    case pwr => exact absurd hp hq
    all_goals simp [Keeps, tripRecorded]

theorem powered_tripGated (s : State) : (tripGated s).get SYS_CORE_MAP_POWERED = 0 := by
  rw [tripGated, State.get_setOff_apart (by decide), get_dropArea, powered_gateFabric]

theorem get_gateFabric_islands (s : State) {f : Fld}
    (h : f ∈ [SYS_ISLAND_STAT_CORE, SYS_ISLAND_STAT_APP, SYS_ISLAND_STAT_TRL, SYS_ISLAND_STAT_SLV]) :
    (gateFabric s).get f = 0 := by
  unfold gateFabric
  fin_cases h <;> simp (disch := decide) [State.get_put_of_lt]

theorem get_tripGated_islands (s : State) {f : Fld}
    (h : f ∈ [SYS_ISLAND_STAT_CORE, SYS_ISLAND_STAT_APP, SYS_ISLAND_STAT_TRL, SYS_ISLAND_STAT_SLV]) :
    (tripGated s).get f = 0 := by
  rw [tripGated, State.get_setOff_apart (by fin_cases h <;> decide), get_dropArea, get_gateFabric_islands _ h]

theorem ddr_tripGated (s : State) : (tripGated s).get MEM_DDR_STAT_READY = 0 := by
  rw [tripGated, State.get_setOff (by decide)]

theorem cores_tripGated (s : State) : (tripGated s).cores = [] := by simp [tripGated, State.dropArea, cores_gateFabric]

theorem batch_tripGated (s : State) : (tripGated s).batch = none := by simp [tripGated, State.dropArea, batch_gateFabric]

theorem secOp_tripGated (s : State) : (tripGated s).secOp = none := by
  have hgate : Effect (each 8 TC_STAT ++ [SYS_CORE_MAP, SYS_ISLAND_STAT, MEM_DDR_STAT]) [.cores, .solve, .trl, .pools, .mem]
      (fuseInterrupted s) (gateFabric (fuseInterrupted s)) :=
    (effect_gateFabric _).mono (List.append_subset.mpr ⟨List.subset_append_left .., by simp⟩) (by simp)
  have hall := (hgate.dropArea (by simp) 3).setOff (f := MEM_DDR_STAT_READY) (List.mem_append_right _ (by decide))
  exact hall.keeps .sec (by simp)

theorem memGet_tripGated (s : State) (a : Nat) :
    memGet (tripGated s).mem a = if areaBase 3 ≤ a ∧ a < areaBase 4 then 0#8 else memGet s.mem a := by
  rw [tripGated, State.setOff_mem, memGet_dropArea, (effect_gateFabric _).keeps .mem (by decide)]
  rfl

/-- The first trip: the fabric and the LPDDR5X are gated, no step is left, and the shutdown counts from the present cycle. -/
theorem takeTrip_first {s : State} (hon : s.powered) (hfirst : s.pwr.trip = none) (cause : Nat) :
    takeTrip s cause = tripRecorded (tripGated (tripCaused s cause))
      { (tripCaused s cause).pwr with trip := some (s.cyc, 2, false) } := by
  have heff := effect_tripGated (tripCaused s cause)
  have hpwr : (tripGated (tripCaused s cause)).pwr = (tripCaused s cause).pwr := heff.keeps .pwr (by simp)
  have hcyc : (tripGated (tripCaused s cause)).cyc = s.cyc := (heff.keeps .time (by simp)).1
  have hnone : (tripCaused s cause).pwr.trip = none := hfirst
  have htrip : takeTrip s cause = tripRecorded (tripGated (tripCaused s cause))
      { (tripGated (tripCaused s cause)).pwr with
        trip := match (tripGated (tripCaused s cause)).pwr.trip with
          | some (t, n, _) => some (t, n, false)
          | none => some ((tripGated (tripCaused s cause)).cyc, 2, false) } := by
    unfold takeTrip
    rw [if_neg (by omega), tripFirst, hfirst]
    rfl
  rw [htrip, hpwr, hcyc, hnone]

/-- What a first trip leaves beside its power record. -/
structure Tripped (s t : State) : Prop where
  cores : t.cores = []
  batch : t.batch = none
  secOp : t.secOp = none
  steps : t.sched.steps = []
  powered : t.get SYS_CORE_MAP_POWERED = 0
  core : t.get SYS_ISLAND_STAT_CORE = 0
  app : t.on SYS_ISLAND_STAT_APP = false
  trl : t.on SYS_ISLAND_STAT_TRL = false
  slv : t.on SYS_ISLAND_STAT_SLV = false
  ddr : t.on MEM_DDR_STAT_READY = false
  within : FusesWithin s.fuses t.fuses
  noOp : s.secOp = none → t.fuses = s.fuses
  mem : ∀ a, a < areaBase 3 ∨ areaBase 4 ≤ a → memGet t.mem a = memGet s.mem a
  frame : ChangesOnly (each 8 TC_STAT ++ [SYS_CORE_MAP, SYS_ISLAND_STAT, MEM_DDR_STAT])
    [.cores, .solve, .trl, .pools, .mem, .sec, .free, .sched, .pwr] { s with fuses := t.fuses } t

theorem tripFuses_noOp {s : State} (h : s.secOp = none) : tripFuses s = s.fuses := by
  unfold tripFuses fusesInterrupted
  rw [h]
  exact ite_self _

theorem effect_tripCaused {parts : List Part} (hp : Part.pwr ∈ parts) (s : State) (cause : Nat) :
    Effect [] parts s (tripCaused s cause) := (Effect.refl s).pwr _ hp

theorem effect_setFuses (s : State) (f : Fuses) : Effect [] [] { s with fuses := f } s :=
  ⟨fun _ _ => rfl, fun p _ => by cases p <;> simp [Keeps]⟩

/-- The fuses stand apart from the frame. -/
theorem Settled.setFuses {f : Fuses} {s u t : State} (h : Settled f s u t) : Settled f { s with fuses := f } u t :=
  { h with pending := h.pending }

theorem tripped_of_settled {s t : State} {cause : Nat} {p : Power}
    (hs : Settled (tripFuses s) s (tripRecorded (tripGated (tripCaused s cause)) p) t) : Tripped s t := by
  have hget (f : Fld) (h1 : f.addr ≠ DGN_CNT_MERGE) (h2 : f.addr ≠ DGN_EVT) :
      t.get f = (tripGated (tripCaused s cause)).get f := (hs.get f h1 h2).trans (get_tripRecorded ..)
  have hclear {f : Fld} (h : t.get f = 0) : t.on f = false := by rw [State.on, h]; rfl
  have hisland {f : Fld} (h : f ∈ [SYS_ISLAND_STAT_CORE, SYS_ISLAND_STAT_APP, SYS_ISLAND_STAT_TRL, SYS_ISLAND_STAT_SLV])
      (h1 : f.addr ≠ DGN_CNT_MERGE) (h2 : f.addr ≠ DGN_EVT) : t.get f = 0 := (hget f h1 h2).trans (get_tripGated_islands _ h)
  have hcause := effect_tripCaused (parts := [.pwr]) (by simp) s cause
  have hrec := effect_tripRecorded (parts := [.sched, .pwr]) (by simp) (by simp) (tripGated (tripCaused s cause)) p
  have heff : Effect (each 8 TC_STAT ++ [SYS_CORE_MAP, SYS_ISLAND_STAT, MEM_DDR_STAT])
      [.cores, .solve, .trl, .pools, .mem, .sec, .free, .sched, .pwr] { s with fuses := tripFuses s }
      (tripRecorded (tripGated (tripCaused s cause)) p) :=
    ((((effect_setFuses s _).mono (List.nil_subset _) (List.nil_subset _)).trans
      ((effect_tripCaused (by simp) s cause).mono (List.nil_subset _) (List.Subset.refl _))).trans
      ((effect_tripGated _).mono (List.Subset.refl _) (by simp))).trans
      ((effect_tripRecorded (by simp) (by simp) _ p).mono (List.nil_subset _) (List.Subset.refl _))
  exact
    { cores := by rw [hs.cores, (hrec.keeps .cores (by simp)).1, cores_tripGated]
      batch := by rw [hs.batch, hrec.keeps .solve (by simp), batch_tripGated]
      secOp := by rw [hs.secOp, hrec.keeps .sec (by simp), secOp_tripGated]
      steps := by rw [hs.sched, steps_tripRecorded]
      powered := (hget _ (by decide) (by decide)).trans (powered_tripGated _)
      core := hisland (by decide) (by decide) (by decide)
      app := hclear (hisland (by decide) (by decide) (by decide))
      trl := hclear (hisland (by decide) (by decide) (by decide))
      slv := hclear (hisland (by decide) (by decide) (by decide))
      ddr := hclear ((hget _ (by decide) (by decide)).trans (ddr_tripGated _))
      within := by rw [hs.fuses]; exact (tripFuses_programmed s).within
      noOp := fun h => by rw [hs.fuses, tripFuses_noOp h]
      mem := fun a ha => by
        rw [hs.mem, hrec.keeps .mem (by simp) a, memGet_tripGated, if_neg (by omega), hcause.keeps .mem (by simp) a]
      frame := by
        rw [hs.fuses]
        exact hs.setFuses.changesOnly heff }

section

variable {s : State} (hon : s.powered)
include hon

theorem completes_trip {i : Instr} (hi : i = .brownoutTrip ∨ (i = .thermalTrip ∧ ∃ h, s.pwr.hotAt = some h ∧ h + 1000000000 ≤ s.cyc))
    (hfirst : s.pwr.trip = none) :
    Completes i s fun t => t.pwr.trip = some (s.cyc, 2, false) ∧
      t.pwr.causes = (s.pwr.causes ||| if i = .brownoutTrip then 1 else 2) ∧ (i = .brownoutTrip → t.pwr.vinLow = true) ∧
      (i = .thermalTrip → t.pwr.hotHold = true) ∧ Tripped s t := by
  rcases hi with rfl | ⟨rfl, h, hhot, hdue⟩
  · obtain ⟨t, ht, hs⟩ := finishFuses_spec (tripFuses s) s (takeTrip s 1) hon
    rw [takeTrip_first hon hfirst] at hs
    refine ⟨t, ht, ?_, ?_, fun _ => ?_, fun h => (nomatch h), tripped_of_settled hs⟩ <;> rw [hs.pwr, pwr_tripRecorded]
    · rfl
    · exact Bool.or_true _
  · have htrip : exec .thermalTrip s = finishFuses (tripFuses s) s (tripRecorded (tripGated (tripCaused s 2))
        { (tripCaused s 2).pwr with trip := some (s.cyc, 2, false), hotHold := true }) := by
      show execThermalTrip s = _
      rw [execThermalTrip, hhot]
      simp only
      rw [if_neg (by omega), takeTrip_first hon hfirst]
      rfl
    obtain ⟨t, ht, hs⟩ := finishFuses_spec (tripFuses s) s (tripRecorded (tripGated (tripCaused s 2))
        { (tripCaused s 2).pwr with trip := some (s.cyc, 2, false), hotHold := true }) hon
    refine ⟨t, htrip.trans ht, ?_, ?_, fun h => (nomatch h), fun _ => ?_, tripped_of_settled hs⟩ <;> rw [hs.pwr, pwr_tripRecorded]
    rfl

/-! ### The last frame and the outputs (R506 instants 2 and 3) -/

omit hon in
/-- The last frame of a segment. -/
def finalBytes (s : State) (g : Nat) : List Byte :=
  ((entriesOf s g 1).foldl (fun bs e => (convertEntry s g true (segOf s g).sent bs e).1)
    (frameWords s (FLD_ECM_TPL g) 2048)).take (frameLen s g)

omit hon in
theorem finalFrame_eq (s : State) (g : Nat) : finalFrame s g =
    onIf ((onIf (s.on (FLD_ECM_STAT_LINKA g)) (·.send (.frame (segPort g false) (finalBytes s g))) s).on (FLD_ECM_CTL_REDUND g) &&
      (onIf (s.on (FLD_ECM_STAT_LINKA g)) (·.send (.frame (segPort g false) (finalBytes s g))) s).on (FLD_ECM_STAT_LINKB g))
      (·.send (.frame (segPort g true) (finalBytes s g)))
      (onIf (s.on (FLD_ECM_STAT_LINKA g)) (·.send (.frame (segPort g false) (finalBytes s g))) s) := rfl

omit hon in
theorem effect_finalFrame {parts : List Part} (hp : Part.out ∈ parts) (s : State) (g : Nat) :
    Effect [] parts s (finalFrame s g) := by
  rw [finalFrame_eq]
  exact ((Effect.refl s).onIf fun _ => (Effect.refl s).send _ hp).onIf fun _ =>
    ((Effect.refl s).onIf fun _ => (Effect.refl s).send _ hp).send _ hp

omit hon in
/-- A last frame follows from the registers and the segment's record alone. -/
theorem finalBytes_congr {u : State} (hrd : ∀ a, u.rd a = s.rd a) (hseg : u.segs = s.segs) (g : Nat) :
    finalBytes u g = finalBytes s g := by
  have hget (f : Fld) : u.get f = s.get f := by rw [State.get, State.get, hrd]
  have hon' (f : Fld) : u.on f = s.on f := State.on_congr (hget f)
  simp only [finalBytes, entriesOf, convertEntry, segOf, frameWords, frameLen, hget, hon', hrd, hseg]

omit hon in
theorem length_finalBytes (s : State) (g : Nat) : (finalBytes s g).length = min 2048 (frameLen s g) := by
  have hgrow : ∀ (es : List Nat) (bs : List Byte), bs.length ≤
      (es.foldl (fun bs e => (convertEntry s g true (segOf s g).sent bs e).1) bs).length := by
    intro es
    induction es with
    | nil => exact fun bs => Nat.le_refl _
    | cons e es ih => exact fun bs => (length_le_convertEntry ..).trans (ih _)
  have hlen := hgrow (entriesOf s g 1) (frameWords s (FLD_ECM_TPL g) 2048)
  rw [length_frameWords] at hlen
  have := frameLen_lt s g
  rw [finalBytes, List.length_take]
  omega

omit hon in
theorem leField_finalBytes {g e : Nat} (hone : entriesOf s g 1 = [e]) (hty : s.get (FLD_ECM_MAP_LO_TYPE g e) < 7)
    (hmode : s.on (FLD_ECM_MAP_LO_SUBMODE g e) = false)
    (hin : s.get (FLD_ECM_MAP_LO_OFS g e) + typeBytes (s.get (FLD_ECM_MAP_LO_TYPE g e)) ≤ frameLen s g) :
    leField (finalBytes s g) (s.get (FLD_ECM_MAP_LO_OFS g e)) (typeBytes (s.get (FLD_ECM_MAP_LO_TYPE g e))) =
      outputRaw (s.get (FLD_ECM_MAP_LO_TYPE g e)) (BitVec.ofNat 32 (s.get (FLD_ECM_MAP_HI_SUBV g e)))
        (BitVec.ofNat 32 (s.get (FLD_ECM_MAP_HI_SCALE g e))) := by
  have hlen := frameLen_lt s g
  have hpos := typeBytes_pos hty
  rw [finalBytes, leField_take hin, hone, List.foldl_cons, List.foldl_nil, convertEntry_fst, if_neg (by omega),
    convertEntry_snd_substitute hmode]
  exact leField_putRaw hty (by rw [length_frameWords]; omega) (outputRaw_lt hty _ _)

omit hon in
theorem outbox_finalFrame (s : State) (g : Nat) : ∃ l, (finalFrame s g).outbox = s.outbox ++ l := by
  rw [finalFrame_eq]
  generalize (_ && _) = b
  cases b <;> cases s.on (FLD_ECM_STAT_LINKA g) <;> simp [onIf, State.send_outbox_eq]

omit hon in
theorem mem_outbox_finalFrame {g : Nat} (hlink : s.on (FLD_ECM_STAT_LINKA g) = true) :
    .frame (segPort g false) (finalBytes s g) ∈ (finalFrame s g).outbox := by
  rw [finalFrame_eq, hlink]
  generalize (_ && _) = b
  cases b <;> simp [onIf, State.send_outbox_eq]

omit hon in
/-- A running segment sends its last frame. -/
def finalStep (g : Nat) (s : State) : State := if s.on (FLD_ECM_STAT_RUN g) then finalFrame s g else s

omit hon in
theorem effect_finalStep {parts : List Part} (hp : Part.out ∈ parts) (s : State) (g : Nat) : Effect [] parts s (finalStep g s) :=
  Effect.ite (fun _ => effect_finalFrame hp s g) fun _ => Effect.refl s

omit hon in
theorem mem_outbox_finalStep_of_mem {m : OutMsg} (h : m ∈ s.outbox) (g : Nat) : m ∈ (finalStep g s).outbox := by
  unfold finalStep
  split
  · obtain ⟨l, hl⟩ := outbox_finalFrame s g
    rw [hl]
    exact List.mem_append_left _ h
  · exact h

omit hon in
theorem mem_outbox_finalSteps {g : Nat} (hg : g < 4) (hrun : s.on (FLD_ECM_STAT_RUN g) = true)
    (hlink : s.on (FLD_ECM_STAT_LINKA g) = true) :
    .frame (segPort g false) (finalBytes s g) ∈ (forUpTo 4 finalStep s).outbox := by
  have hfold : ∀ (gs : List Nat) (u : State), Effect [] [.out] s u → g ∈ gs ∨ .frame (segPort g false) (finalBytes s g) ∈ u.outbox →
      .frame (segPort g false) (finalBytes s g) ∈ (gs.foldl (fun u g => finalStep g u) u).outbox := by
    intro gs
    induction gs with
    | nil => exact fun u _ h => h.resolve_left List.not_mem_nil
    | cons x gs ih =>
      intro u heff h
      refine ih _ (heff.trans (effect_finalStep (by simp) u x)) ?_
      rcases h with h | h
      · rcases List.mem_cons.mp h with rfl | h
        · have hrd (a : Nat) : u.rd a = s.rd a := heff.rd a List.not_mem_nil
          have hstep : finalStep g u = finalFrame u g := if_pos ((heff.on List.not_mem_nil).trans hrun)
          show _ ∨ _ ∈ (finalStep g u).outbox
          rw [← finalBytes_congr hrd (heff.keeps .segs (by simp)) g, hstep]
          exact .inr (mem_outbox_finalFrame (by rw [heff.on List.not_mem_nil, hlink]))
        · exact .inl h
      · exact .inr (mem_outbox_finalStep_of_mem h x)
  exact hfold (List.range 4) s (Effect.refl s) (.inl (List.mem_range.mpr hg))

omit hon in
theorem effect_finalSteps {parts : List Part} (hp : Part.out ∈ parts) (s : State) : Effect [] parts s (forUpTo 4 finalStep s) :=
  (Effect.refl s).forUpTo fun u g _ => effect_finalStep hp u g

theorem completes_shutdownFinalFrame {at_ : Nat} {r : Bool} (htrip : s.pwr.trip = some (at_, 2, r)) (hdue : at_ + 20000 ≤ s.cyc)
    (hquiet : ∀ g, g < 4 → s.on (FLD_ECM_STAT_RUN g) = true → segQuiet s g = true) :
    Completes .shutdownFinalFrame s fun t => t.pwr = { s.pwr with trip := some (at_, 3, r) } ∧
      (∀ g, g < 4 → s.on (FLD_ECM_STAT_RUN g) = true → s.on (FLD_ECM_STAT_LINKA g) = true →
        .frame (segPort g false) (finalBytes s g) ∈ t.outbox) ∧ ChangesOnly [] [.pwr, .out] s t := by
  have hpwr : (forUpTo 4 finalStep s).pwr = s.pwr := (effect_finalSteps (parts := [.out]) (by simp) s).keeps .pwr (by simp)
  have hall : (List.range 4).all (fun g => !s.on (FLD_ECM_STAT_RUN g) || segQuiet s g) = true := by
    rw [List.all_eq_true]
    intro g hg
    cases hrun : s.on (FLD_ECM_STAT_RUN g)
    · rfl
    · simp [hquiet g (List.mem_range.mp hg) hrun]
  have hsteps : forUpTo 4 (fun g s => if s.on (FLD_ECM_STAT_RUN g) then finalFrame s g else s) s = forUpTo 4 finalStep s := rfl
  have hexec : exec .shutdownFinalFrame s =
      finish s (withPower (forUpTo 4 finalStep s) { (forUpTo 4 finalStep s).pwr with trip := some (at_, 3, r) }) := by
    show execShutdownFinalFrame s = _
    rw [execShutdownFinalFrame, htrip]
    simp only
    rw [if_neg (by simp [hall, hdue]), hsteps]
    rfl
  rw [hpwr] at hexec
  refine completes_of_settled hexec hon fun t hs => ⟨hs.pwr, fun g hg hrun hlink => ?_,
    hs.changesOnly ((effect_finalSteps (by simp) s).withPower (by simp) _)⟩
  obtain ⟨l, hl, -⟩ := hs.out
  rw [hl, outbox_withPower]
  exact List.mem_append_left _ (mem_outbox_finalSteps hg hrun hlink)

theorem completes_shutdownOutputsLow {at_ : Nat} {r : Bool} (htrip : s.pwr.trip = some (at_, 3, r)) (hdue : at_ + 300000 ≤ s.cyc) :
    Completes .shutdownOutputsLow s fun t =>
      t.pwr = { s.pwr with linesLow := true, trip := some (at_, 4, r) } ∧ ChangesOnly [] [.pwr] s t := by
  refine completes_of_settled (u := withPower s { s.pwr with linesLow := true, trip := some (at_, 4, r) })
    ?_ hon fun t hs => ⟨hs.pwr, hs.changesOnly ((Effect.refl s).withPower (by simp) _)⟩
  show execShutdownOutputsLow s = _
  rw [execShutdownOutputsLow, htrip]
  simp only
  rw [if_neg (by omega)]
  rfl

/-! ### Off, and the reset pin (R506 instant 4, R510) -/

theorem completes_resetPin_trips (hfirst : s.pwr.trip = none) (hphase : 4 ≤ s.pwr.phase) :
    Completes .resetPin s fun t => t.pwr = { s.pwr with causes := s.pwr.causes ||| 4, trip := some (s.cyc - 20000, 2, true) } ∧
      ChangesOnly [] [.pwr] s t := by
  refine completes_of_settled (u := withPower s { s.pwr with
    causes := s.pwr.causes ||| 4, trip := some (s.cyc - 20000, 2, true) }) ?_ hon fun t hs =>
    ⟨hs.pwr, hs.changesOnly ((Effect.refl s).withPower (by simp) _)⟩
  show execResetPin s = _
  rw [execResetPin, if_neg (by simp [hfirst]; omega), if_neg (by omega)]
  rfl

end

/-- What a cold state holds: the reset values, but for the flash and the record of the last causes. -/
structure Cold (s t : State) (phase causes : Nat) : Prop where
  phase : t.pwr.phase = phase
  trip : t.pwr.trip = none
  pgood : t.pwr.pgood = false
  hotHold : t.pwr.hotHold = s.pwr.hotHold
  vinLow : t.pwr.vinLow = s.pwr.vinLow
  lastoff : t.get PWR_STAT_LASTOFF = causes % 16
  rd : ∀ a, a ≠ PWR_STAT → t.rd a = State.reset.rd a
  fuses : t.fuses = s.fuses
  pending : t.pending = s.pending
  cores : t.cores = []
  plt : t.plt = []
  cyc : t.cyc = State.reset.cyc
  mem : ∀ a, memGet t.mem a = if areaBase areaFlash ≤ a ∧ a < areaBase (areaFlash + 1) then memGet s.mem a else memGet [] a

theorem memGet_flashCells (m : List Host.Cell) (a : Nat) : memGet (flashCells m) a =
    if areaBase areaFlash ≤ a ∧ a < areaBase (areaFlash + 1) then memGet m a else memGet [] a := by
  refine (memGet_filter (fun k => decide (areaBase areaFlash ≤ k) && decide (k < areaBase (areaFlash + 1))) m a).trans ?_
  simp only [Bool.and_eq_true, decide_eq_true_eq]
  rfl

/-- A cold state before LASTOFF records the causes. -/
def coldBase (s : State) (phase : Nat) : State :=
  { State.reset with
    pending := s.pending, outbox := s.outbox, free := s.free, fuses := s.fuses, mem := flashCells s.mem
    pwr := { State.reset.pwr with phase := phase, hotHold := s.pwr.hotHold, vinLow := s.pwr.vinLow } }

theorem coldState_eq (s : State) (phase : Nat) : coldState s phase = (coldBase s phase).put PWR_STAT_LASTOFF s.pwr.causes := rfl

theorem rd_coldBase (s : State) (phase a : Nat) : (coldBase s phase).rd a = State.reset.rd a := State.rd_congr _ _ _ rfl

theorem cold_coldState (s : State) (phase : Nat) : Cold s (coldState s phase) phase s.pwr.causes where
  phase := rfl
  trip := rfl
  pgood := rfl
  hotHold := rfl
  vinLow := rfl
  lastoff := by rw [coldState_eq, State.get_put_self (by decide)]; rfl
  rd a ha := by rw [coldState_eq, State.rd_put_ne _ _ _ _ ha, rd_coldBase]
  fuses := rfl
  pending := rfl
  cores := rfl
  plt := rfl
  cyc := rfl
  mem := memGet_flashCells s.mem

theorem exec_shutdownRailsOff {s : State} {at_ : Nat} {r : Bool} (htrip : s.pwr.trip = some (at_, 4, r))
    (hdue : at_ + 500000 ≤ s.cyc) : exec .shutdownRailsOff s = .next (coldState s (if r then 1 else 0)) := by
  show execShutdownRailsOff s = _
  rw [execShutdownRailsOff, htrip]
  simp only
  rw [if_neg (by omega)]

/-- The reset pin before anything had started: its cause joins the others. -/
def resetCaused (s : State) : State := { s with pwr := { s.pwr with causes := s.pwr.causes ||| 4 } }

theorem exec_resetPin_early {s : State} (hon : s.powered) (hfirst : s.pwr.trip = none) (hphase : s.pwr.phase < 4) :
    exec .resetPin s = .next (coldState (resetCaused s) 2) := by
  show execResetPin s = _
  rw [execResetPin, if_neg (by simp [hfirst]; omega), if_pos hphase]
  rfl

/-- Settles O53: a first trip gates the fabric and ends the fuse operation; the last frames, the low outputs and the cold state
follow in their instants. -/
theorem tripsShutTheDeviceDown : Obligations.TripsShutTheDeviceDown := by
  intro s hon
  refine ⟨fun i hi hfirst _ => ?_, fun at_ r htrip hdue hquiet => ?_, fun at_ r => completes_shutdownOutputsLow hon,
    fun i at_ r hi => ?_, completes_resetPin_trips hon⟩
  · obtain ⟨t, ht, htrip, hcauses, hvin, hhot, h⟩ := completes_trip hon hi hfirst
    exact ⟨t, ht, htrip, hcauses, hvin, hhot, h.cores, h.batch, h.secOp, h.steps, h.powered, h.core, h.app, h.trl, h.slv, h.ddr,
      h.within, h.noOp, h.mem, h.frame⟩
  · obtain ⟨t, ht, hpwr, hsent, hframe⟩ := completes_shutdownFinalFrame hon htrip hdue hquiet
    exact ⟨t, ht, hpwr, fun g hg hrun hlink => ⟨finalBytes s g, hsent g hg hrun hlink, length_finalBytes s g,
      fun e hone hty hmode hin => leField_finalBytes hone hty hmode hin⟩, hframe⟩
  · rcases hi with ⟨rfl, htrip, hdue⟩ | ⟨rfl, hfirst, hphase⟩
    · have h := cold_coldState s (if r then 1 else 0)
      refine ⟨_, exec_shutdownRailsOff htrip hdue, h.phase, h.trip, h.pgood, h.hotHold, h.vinLow, ?_, h.rd, h.fuses, h.pending,
        h.cores, h.plt, h.cyc, h.mem⟩
      rw [h.lastoff, if_neg (fun h => nomatch h), Nat.or_zero]
    · have h := cold_coldState (resetCaused s) 2
      exact ⟨_, exec_resetPin_early hon hfirst hphase, h.phase, h.trip, h.pgood, h.hotHold, h.vinLow, h.lastoff, h.rd, h.fuses,
        h.pending, h.cores, h.plt, h.cyc, h.mem⟩

end Sys2Proof.Machine
end
section
/-! Control harts and their watchdogs (R380, R381). -/

namespace Sys2Proof.Machine

open Sys2Proof Sys2Proof.Machine.Reg

def hartCtlRow : RegDesc :=
  ⟨"BLV_HART_CTL", 0x100008400000, [(4, 0x40)], 32, 0x0, [⟨31, 16, .static⟩, ⟨0, 0, .live⟩], some (0x100008400000, 0x40, 0), none⟩

def hartKickRow : RegDesc := ⟨"BLV_HART_KICK", 0x100008400010, [(4, 0x40)], 32, 0x0, [⟨0, 0, .wo⟩], none, none⟩

theorem regAt_hartCtl : ∀ h, h < 4 → regAt (BLV_HART_CTL h) = some (hartCtlRow, [h], false) := by decide

theorem regAt_hartKick : ∀ h, h < 4 → regAt (BLV_HART_KICK h) = some (hartKickRow, [h], false) := by decide

theorem plainRow_hartCtl : ∀ h, h < 4 → PlainRow (BLV_HART_CTL h) hartCtlRow := by decide

theorem plainRow_hartKick : ∀ h, h < 4 → PlainRow (BLV_HART_KICK h) hartKickRow := by decide

/-- The controls of a hart as a write leaves them. -/
def hartCtlStored (s : State) (h v : Nat) : State :=
  s.wr (BLV_HART_CTL h) (BitVec.ofNat 64 (mergeBits (rwMask hartCtlRow) (s.rd (BLV_HART_CTL h)).toNat v))

theorem run_hartCtlStored (s : State) (h : Nat) {v : Nat} (hv : v < 2 ^ 64) :
    (hartCtlStored s h v).get (BLV_HART_CTL_RUN h) = v % 2 :=
  (State.get_wr_merge_in (f := BLV_HART_CTL_RUN h) (by decide) (show 0 < 64 by decide) hv
    (show bitsOf (rwMask hartCtlRow) 0 0 = 1 by decide)).trans (bitsOf_zero_zero v)

/-- No register of the harts is the merge count or its event. -/
theorem hartStat_settles (h : Nat) : BLV_HART_STAT h ≠ DGN_CNT_MERGE ∧ BLV_HART_STAT h ≠ DGN_EVT ∨ 4 ≤ h := by
  unfold BLV_HART_STAT DGN_CNT_MERGE DGN_EVT
  omega

theorem hartCtl_settles (h : Nat) : BLV_HART_CTL h ≠ DGN_CNT_MERGE ∧ BLV_HART_CTL h ≠ DGN_EVT ∨ 4 ≤ h := by
  unfold BLV_HART_CTL DGN_CNT_MERGE DGN_EVT
  omega

theorem hartCtl_ne_hartStat (h : Nat) : BLV_HART_CTL h ≠ BLV_HART_STAT h := by
  unfold BLV_HART_CTL BLV_HART_STAT
  omega

theorem hartRvec_ne_hartCtl (h : Nat) : BLV_HART_RVEC h ≠ BLV_HART_CTL h := by
  unfold BLV_HART_RVEC BLV_HART_CTL
  omega

theorem hartRvec_ne_hartStat (h : Nat) : BLV_HART_RVEC h ≠ BLV_HART_STAT h := by
  unfold BLV_HART_RVEC BLV_HART_STAT
  omega

/-! ### A hart starts -/

theorem get_hartStart_running (s : State) (h : Nat) : (hartStart s h).get (BLV_HART_STAT_RUNNING h) = 1 :=
  State.get_setOn (show 0 ≤ 0 ∧ 0 < 64 by decide)

theorem wdog_hartStart (s : State) (h : Nat) : (hartStart s h).wdog = tset s.wdog h (s.cyc, false) := rfl

theorem outbox_hartStart (s : State) (h : Nat) :
    (hartStart s h).outbox = s.outbox ++ [.hartStart h (s.get (BLV_HART_RVEC_OFS h) * 4)] := rfl

theorem Effect.harts {regs : List Nat} {parts : List Part} {s t : State} (e : Effect regs parts s t) (w : Tbl (Nat × Bool))
    (hp : Part.harts ∈ parts) : Effect regs parts s { t with wdog := w } :=
  e.components rfl fun p hq => by
    cases p
    case harts => exact absurd hp hq
    all_goals simp [Keeps]

theorem Effect.hartStart {regs : List Nat} {parts : List Part} {s t : State} (e : Effect regs parts s t) {h : Nat}
    (hr : BLV_HART_STAT h ∈ regs) (hp : Part.harts ∈ parts) (ho : Part.out ∈ parts) : Effect regs parts s (hartStart t h) :=
  ((e.harts _ hp).setOn hr).send _ ho

section

variable {s : State} {h : Nat} (hon : s.powered) (hh : h < 4)
include hon hh

section

variable {who : Initiator} {v : Word64} (ok : WriteOk s who (BLV_HART_CTL h) v.toNat)
include ok

omit hon in
theorem writeReg_hartCtl : writeReg s who (BLV_HART_CTL h) v.toNat =
    hartRunWritten h ((s.rd (BLV_HART_CTL h)).toNat % 2) (v.toNat % 2) (hartCtlStored s h v.toNat) :=
  writeReg_plain ok (regAt_hartCtl h hh) (plainRow_hartCtl h hh)

theorem completes_hartRunWrite_release (hoff : s.on (BLV_HART_CTL_RUN h) = false) (hv : v.toNat % 2 = 1) :
    Completes (.hartRunWrite who h v) s fun t => t.on (BLV_HART_CTL_RUN h) = true ∧ t.on (BLV_HART_STAT_RUNNING h) = true ∧
      tget t.wdog h = some (s.cyc, false) ∧ (∀ k, k ≠ h → tget t.wdog k = tget s.wdog k) ∧
      (∃ l, t.outbox = s.outbox ++ .hartStart h (s.get (BLV_HART_RVEC_OFS h) * 4) :: l) ∧
      ChangesOnly [BLV_HART_CTL h, BLV_HART_STAT h] [.harts, .out] s t := by
  have hwrite : writeReg s who (BLV_HART_CTL h) v.toNat = hartStart (hartCtlStored s h v.toNat) h := by
    rw [writeReg_hartCtl hh ok, hartRunWritten, if_pos ⟨State.mod_two_of_off rfl rfl hoff, hv⟩]
  obtain ⟨hc1, hc2⟩ := (hartCtl_settles h).resolve_right (by omega)
  obtain ⟨hs1, hs2⟩ := (hartStat_settles h).resolve_right (by omega)
  have hstored : Effect [BLV_HART_CTL h, BLV_HART_STAT h] [.harts, .out] s (hartCtlStored s h v.toNat) :=
    (Effect.refl s).wr _ (by simp)
  refine completes_of_settled (congrArg (finish s) hwrite) hon fun t hs =>
    ⟨?_, ?_, ?_, fun k hk => ?_, ?_, hs.changesOnly (hstored.hartStart (by simp) (by simp) (by simp))⟩
  · rw [hs.on _ hc1 hc2, State.on_eq_true_iff, ← hv, ← run_hartCtlStored s h v.isLt]
    exact State.get_setOn_apart (.inl (hartCtl_ne_hartStat h))
  · rw [hs.on _ hs1 hs2, State.on_eq_true_iff, get_hartStart_running]
  · rw [hs.wdog, wdog_hartStart, tget_tset_same]
    rfl
  · rw [hs.wdog, wdog_hartStart, tget_tset_ne _ _ _ _ hk]
    rfl
  · obtain ⟨l, hl, -⟩ := hs.out
    have hvec : (hartCtlStored s h v.toNat).get (BLV_HART_RVEC_OFS h) = s.get (BLV_HART_RVEC_OFS h) :=
      State.get_wr_ne (hartRvec_ne_hartCtl h) _
    rw [hl, outbox_hartStart, hvec]
    exact ⟨l, List.append_assoc ..⟩

theorem completes_hartRunWrite_hold (hrun : s.on (BLV_HART_CTL_RUN h) = true) (hv : v.toNat % 2 = 0) :
    Completes (.hartRunWrite who h v) s fun t => t.on (BLV_HART_CTL_RUN h) = false ∧ t.on (BLV_HART_STAT_RUNNING h) = false ∧
      tget t.wdog h = none ∧ (∃ l, t.outbox = s.outbox ++ .hartHold h :: l) ∧
      ChangesOnly [BLV_HART_CTL h, BLV_HART_STAT h] [.harts, .out] s t := by
  have hwrite : writeReg s who (BLV_HART_CTL h) v.toNat =
      (({ hartCtlStored s h v.toNat with wdog := tdel s.wdog h } : State).setOff (BLV_HART_STAT_RUNNING h)).send (.hartHold h) := by
    rw [writeReg_hartCtl hh ok, hartRunWritten, if_neg (by omega), if_pos ⟨State.mod_two_of_on rfl rfl hrun, hv⟩]
    rfl
  obtain ⟨hc1, hc2⟩ := (hartCtl_settles h).resolve_right (by omega)
  obtain ⟨hs1, hs2⟩ := (hartStat_settles h).resolve_right (by omega)
  have hstored : Effect [BLV_HART_CTL h, BLV_HART_STAT h] [.harts, .out] s (hartCtlStored s h v.toNat) :=
    (Effect.refl s).wr _ (by simp)
  refine completes_of_settled (congrArg (finish s) hwrite) hon fun t hs =>
    ⟨?_, ?_, ?_, ?_, hs.changesOnly (((hstored.harts _ (by simp)).setOff (by simp [BLV_HART_STAT_RUNNING])).send _ (by simp))⟩
  · have hrun' : t.get (BLV_HART_CTL_RUN h) = 0 := by
      rw [hs.get _ hc1 hc2, ← hv, ← run_hartCtlStored s h v.isLt]
      exact State.get_setOff_apart (.inl (hartCtl_ne_hartStat h))
    rw [State.on, hrun']
    rfl
  · have hstat : t.get (BLV_HART_STAT_RUNNING h) = 0 := by
      rw [hs.get _ hs1 hs2]
      exact State.get_setOff (show 0 ≤ 0 ∧ 0 < 64 by decide)
    rw [State.on, hstat]
    rfl
  · rw [hs.wdog]
    exact tget_tdel_same ..
  · obtain ⟨l, hl, -⟩ := hs.out
    exact ⟨l, by rw [hl, State.send_outbox_eq, List.append_assoc]; rfl⟩

end

/-! ### Watchdogs (R381) -/

theorem completes_watchdogKick {who : Initiator} {v : Word64} (ok : WriteOk s who (BLV_HART_KICK h) (v.toNat ||| 1)) :
    Completes (.watchdogKick who h v) s fun t => tget t.wdog h = some (s.cyc, false) ∧
      (∀ k, k ≠ h → tget t.wdog k = tget s.wdog k) ∧ ChangesOnly [] [.harts] s t := by
  have hwrite : writeReg s who (BLV_HART_KICK h) (v.toNat ||| 1) =
      { s.wr (BLV_HART_KICK h) (s.rd (BLV_HART_KICK h)) with wdog := tset s.wdog h (s.cyc, false) } := by
    rw [writeReg_command ok (regAt_hartKick h hh) (plainRow_hartKick h hh) (by decide)]
    show watchdogKick h ((v.toNat ||| 1).testBit 0) _ = _
    rw [Nat.testBit_or, show Nat.testBit 1 0 = true from rfl, Bool.or_true]
    rfl
  refine completes_of_settled (congrArg (finish s) hwrite) hon fun t hs =>
    ⟨?_, fun k hk => ?_, hs.changesOnly ((Effect.wrSelf s _).harts _ (by simp))⟩
  · rw [hs.wdog]
    exact tget_tset_same ..
  · rw [hs.wdog]
    exact tget_tset_ne _ _ _ _ hk

omit hon hh in
/-- What an expired watchdog does beside its count: Smrnmi the first time, then a new start. -/
def watchdogActs (s : State) (h : Nat) (again : Bool) : State := if again then hartStart s h else s.send (.smrnmi h)

omit hon hh in
theorem outbox_watchdogActs (s : State) (h : Nat) (again : Bool) : (watchdogActs s h again).outbox =
    s.outbox ++ [if again then .hartStart h (s.get (BLV_HART_RVEC_OFS h) * 4) else .smrnmi h] := by
  cases again <;> rfl

omit hon hh in
theorem get_watchdogActs_wdogn (s : State) (h : Nat) (again : Bool) :
    (watchdogActs s h again).get (BLV_HART_STAT_WDOGN h) = s.get (BLV_HART_STAT_WDOGN h) := by
  cases again
  · rfl
  · exact State.get_setOn_apart (.inr (show 0 ≤ 0 ∧ 0 < 64 ∧ (15 < 0 ∨ 0 < 8) by decide))

omit hon hh in
theorem Effect.watchdogActs {regs : List Nat} {parts : List Part} {s t : State} (e : Effect regs parts s t) {h : Nat}
    (again : Bool) (hr : BLV_HART_STAT h ∈ regs) (hp : Part.harts ∈ parts) (ho : Part.out ∈ parts) :
    Effect regs parts s (watchdogActs t h again) :=
  Effect.ite (fun _ => e.hartStart hr hp ho) fun _ => e.send _ ho

omit hon hh in
theorem wdog_watchdogActs (s : State) (h : Nat) (again : Bool) {k : Nat} (hk : k ≠ h) :
    tget (watchdogActs s h again).wdog k = tget s.wdog k := by
  cases again
  · rfl
  · exact tget_tset_ne _ _ _ _ hk

theorem completes_watchdogExpire {at_ : Nat} {again : Bool} (hdog : tget s.wdog h = some (at_, again))
    (hus : s.get (BLV_HART_CTL_WDOG_US h) ≠ 0) (hrun : s.on (BLV_HART_CTL_RUN h) = true)
    (hdue : at_ + s.get (BLV_HART_CTL_WDOG_US h) * 1000 ≤ s.cyc) :
    Completes (.watchdogExpire h) s fun t =>
      t.get (BLV_HART_STAT_WDOGN h) = satAdd 8 (s.get (BLV_HART_STAT_WDOGN h)) 1 ∧
      tget t.wdog h = some (at_ + s.get (BLV_HART_CTL_WDOG_US h) * 1000, !again) ∧
      (∃ l, t.outbox = s.outbox ++ (if again then .hartStart h (s.get (BLV_HART_RVEC_OFS h) * 4) else .smrnmi h) :: l) ∧
      ChangesOnly [BLV_HART_STAT h] [.harts, .out] s t := by
  have hexec : exec (.watchdogExpire h) s = finish s
      { watchdogActs ((s.count (BLV_HART_STAT_WDOGN h) 1).pulse 41) h again with
        wdog := tset (watchdogActs ((s.count (BLV_HART_STAT_WDOGN h) 1).pulse 41) h again).wdog h
          (at_ + s.get (BLV_HART_CTL_WDOG_US h) * 1000, !again) } := by
    show execWatchdogExpire h s = _
    rw [execWatchdogExpire, hdog]
    simp only
    rw [if_neg (by simp [hus, hrun, hdue])]
    rfl
  have hline := pulse_line (s.count (BLV_HART_STAT_WDOGN h) 1) 41
  obtain ⟨hs1, hs2⟩ := (hartStat_settles h).resolve_right (by omega)
  have hrvec : BLV_HART_RVEC h ≠ DGN_CNT_MERGE ∧ BLV_HART_RVEC h ≠ DGN_EVT := by
    unfold BLV_HART_RVEC DGN_CNT_MERGE DGN_EVT
    omega
  refine completes_of_settled hexec hon fun t hs => ⟨?_, ?_, ?_, hs.changesOnly_pulsed ?_⟩
  · have hacts : t.get (BLV_HART_STAT_WDOGN h) =
        (watchdogActs ((s.count (BLV_HART_STAT_WDOGN h) 1).pulse 41) h again).get (BLV_HART_STAT_WDOGN h) :=
      (hs.get _ hs1 hs2).trans (State.get_congr _ _ _ rfl)
    rw [hacts, get_watchdogActs_wdogn, hline.get _ hs1 hs2]
    exact State.get_count_self (f := BLV_HART_STAT_WDOGN h) (show 8 ≤ 15 ∧ 15 < 64 by decide) 1
  · rw [hs.wdog]
    exact tget_tset_same ..
  · obtain ⟨l, hl, -⟩ := hs.out
    have hvec : ((s.count (BLV_HART_STAT_WDOGN h) 1).pulse 41).get (BLV_HART_RVEC_OFS h) = s.get (BLV_HART_RVEC_OFS h) := by
      rw [hline.get _ hrvec.1 hrvec.2]
      exact State.get_count_apart (.inl (hartRvec_ne_hartStat h)) 1
    have hout : (watchdogActs ((s.count (BLV_HART_STAT_WDOGN h) 1).pulse 41) h again).outbox =
        s.outbox ++ [if again then .hartStart h (s.get (BLV_HART_RVEC_OFS h) * 4) else .smrnmi h] := by
      rw [outbox_watchdogActs, hvec, State.pulse_outbox]
      rfl
    refine ⟨l, hl.trans ?_⟩
    show (watchdogActs _ h again).outbox ++ l = _
    rw [hout, List.append_assoc]
    rfl
  · exact Effect.harts (Effect.watchdogActs (((Effect.refl s).count 1 (by simp [BLV_HART_STAT_WDOGN])).pulse 41 (by simp) (by simp))
      again (by simp) (by simp) (by simp)) _ (by simp)

end

/-- Settles O33: a write of RUN, a kick and an expiry each leave the hart's status, its watchdog and the message sent. -/
theorem hartsRunAndWatchdogsExpire : Obligations.HartsRunAndWatchdogsExpire := by
  intro s h hon hh
  exact ⟨fun who v ok => ⟨completes_hartRunWrite_release hon hh ok, completes_hartRunWrite_hold hon hh ok⟩,
    fun who v => completes_watchdogKick hon hh, fun at_ again => completes_watchdogExpire hon hh⟩

end Sys2Proof.Machine
end
section
/-! Contexts: enabling, disabling and recovery (R229, R238, R254, R545). -/

namespace Sys2Proof.Machine

open Sys2Proof Sys2Proof.Machine.Reg

def ctxCtlRow : RegDesc :=
  ⟨"SCH_CTX_CTL", 0x100003100000, [(64, 0x100)], 32, 0xff00,
    [⟨15, 8, .static⟩, ⟨6, 4, .static⟩, ⟨1, 1, .w1c⟩, ⟨0, 0, .live⟩], some (0x100003100000, 0x100, 0), none⟩

theorem regAt_ctxCtl : ∀ n, n < 64 → regAt (SCH_CTX_CTL n) = some (ctxCtlRow, [n], false) := by decide

theorem w1cRow_ctxCtl : ∀ n, n < 64 → W1cRow (SCH_CTX_CTL n) ctxCtlRow := by decide

/-- SCH_CTX_n_CTL as a write leaves it. -/
def ctxCtlStored (s : State) (n v : Nat) : State :=
  s.wr (SCH_CTX_CTL n) (BitVec.ofNat 64
    (storedWord ctxCtlRow (s.rd (SCH_CTX_CTL n)).toNat (clearing ctxCtlRow (s.freshBits (SCH_CTX_CTL n)) v)))

theorem get_ctxCtlStored (s : State) (n : Nat) {v hi lo : Nat} (hv : v < 2 ^ 64) (h64 : hi < 64)
    (hin : bitsOf (rwMask ctxCtlRow) hi lo = 2 ^ (hi + 1 - lo) - 1) (hout : bitsOf (w1cMask ctxCtlRow) hi lo = 0) :
    (ctxCtlStored s n v).get ⟨SCH_CTX_CTL n, hi, lo⟩ = bitsOf v hi lo := by
  rw [State.get, ctxCtlStored, State.rd_wr_same, State.toNat_ofNat_rd (storedWord_lt (s.rd _).isLt (clearing_lt hv))]
  exact bitsOf_storedWord (by decide) h64 hin hout

theorem get_ctxCtlStored_other (s : State) (n v : Nat) {f : Fld} (h : f.addr ≠ SCH_CTX_CTL n) :
    (ctxCtlStored s n v).get f = s.get f := State.get_wr_ne h _

/-- FAULTED after a write: a 1 clears it, where the device has not set it in the same cycle. -/
theorem faulted_ctxCtlStored (s : State) (n : Nat) {v : Nat} (hv : v < 2 ^ 64) :
    (ctxCtlStored s n v).on (SCH_CTX_CTL_FAULTED n) =
      (s.on (SCH_CTX_CTL_FAULTED n) && !(v.testBit 1 && !(s.freshBits (SCH_CTX_CTL n)).testBit 1)) := by
  have hbit (x : Nat) : (bitsOf x 1 1 == 1) = x.testBit 1 := by
    have h := testBit_bitsOf x 1 1 0
    have hlt := bitsOf_lt x 1 1
    rw [Nat.testBit_zero] at h
    simp only [Nat.add_one_sub_one, Nat.lt_one_iff, decide_true, Bool.true_and, Nat.add_zero] at h hlt
    rw [← h, Bool.eq_iff_iff]
    simp only [beq_iff_eq, decide_eq_true_eq]
    omega
  have hget (t : State) : t.on (SCH_CTX_CTL_FAULTED n) = (t.rd (SCH_CTX_CTL n)).toNat.testBit 1 := hbit _
  rw [hget, hget, ctxCtlStored, State.rd_wr_same, State.toNat_ofNat_rd (storedWord_lt (s.rd _).isLt (clearing_lt hv))]
  exact testBit_storedWord_w1c (by decide) (by decide) (by decide) (by decide)

/-! ### SCH_CTX_n_STAT follows the step -/

theorem Effect.syncCtx {regs : List Nat} {parts : List Part} {s t : State} (h : Effect regs parts s t) {n : Nat}
    (hr : SCH_CTX_STAT n ∈ regs) : Effect regs parts s (t.syncCtx n) :=
  (((h.put _ hr).put _ hr).put _ hr).put _ hr

theorem sched_syncCtx (s : State) (n : Nat) : (s.syncCtx n).sched = s.sched := rfl

theorem stepOf_syncCtx (s : State) (n m : Nat) : stepOf (s.syncCtx n) m = stepOf s m := rfl

theorem get_syncCtx_other {s : State} {n : Nat} {f : Fld} (h : f.addr ≠ SCH_CTX_STAT n) : (s.syncCtx n).get f = s.get f :=
  (Effect.syncCtx (parts := []) (Effect.refl s) (n := n) (List.mem_singleton.mpr rfl)).get (by simp [h])

theorem state_syncCtx_noStep {s : State} {n : Nat} (h : stepOf s n = none) : (s.syncCtx n).get (SCH_CTX_STAT_STATE n) =
    if s.on (SCH_CTX_CTL_FAULTED n) then 7 else if s.on (SCH_CTX_CTL_ENABLE n) then 1 else 0 := by
  unfold State.syncCtx
  rw [h]
  simp only
  rw [State.get_put_apart (.inr (show 16 ≤ 27 ∧ 27 < 64 ∧ (3 < 16 ∨ 27 < 0) by decide)),
    State.get_put_apart (.inr (show 28 ≤ 28 ∧ 28 < 64 ∧ (3 < 28 ∨ 28 < 0) by decide)),
    State.get_put_apart (.inr (show 8 ≤ 15 ∧ 15 < 64 ∧ (3 < 8 ∨ 15 < 0) by decide))]
  refine State.get_put_of_lt (show 0 ≤ 3 ∧ 3 < 64 by decide) (show _ < 16 from ?_)
  split
  · decide
  · split <;> decide

theorem state_syncCtx_step {s : State} {n : Nat} {st : Step} (h : stepOf s n = some st) (hst : st.st < 16) :
    (s.syncCtx n).get (SCH_CTX_STAT_STATE n) = st.st := by
  unfold State.syncCtx
  rw [h]
  simp only
  rw [State.get_put_apart (.inr (show 16 ≤ 27 ∧ 27 < 64 ∧ (3 < 16 ∨ 27 < 0) by decide)),
    State.get_put_apart (.inr (show 28 ≤ 28 ∧ 28 < 64 ∧ (3 < 28 ∨ 28 < 0) by decide)),
    State.get_put_apart (.inr (show 8 ≤ 15 ∧ 15 < 64 ∧ (3 < 8 ∨ 15 < 0) by decide))]
  exact State.get_put_of_lt (show 0 ≤ 3 ∧ 3 < 64 by decide) (show _ < 16 from hst)

/-- The step that the entry at SCONS becomes. -/
def readied (s : State) : Step :=
  { st := 2, entry := [], tag := none, attempts := 0, readyAt := s.sched.boundary, startNo := 0, lcores := [] }

theorem readyStep_idle {s : State} {n : Nat} (h : s.get (SCH_CTX_SCONS_INDEX n) = tgetD s.sched.snaps n 0) :
    readyStep s n = s.syncCtx n := if_neg (by simp [h])

theorem readyStep_ready {s : State} {n : Nat} (hno : stepOf s n = none) (hen : s.on (SCH_CTX_CTL_ENABLE n) = true)
    (hok : s.on (SCH_CTX_CTL_FAULTED n) = false) (h : s.get (SCH_CTX_SCONS_INDEX n) ≠ tgetD s.sched.snaps n 0) :
    readyStep s n = s.setStep n (readied s) := if_pos (by simp [hno, hen, hok, h])

theorem Effect.sched {regs : List Nat} {parts : List Part} {s t : State} (h : Effect regs parts s t) (x : Sched)
    (hp : Part.sched ∈ parts) : Effect regs parts s { t with sched := x } :=
  h.components rfl fun p hq => by
    cases p
    case sched => exact absurd hp hq
    all_goals simp [Keeps]

theorem Effect.setStep {regs : List Nat} {parts : List Part} {s t : State} (h : Effect regs parts s t) {n : Nat} (st : Step)
    (hr : SCH_CTX_STAT n ∈ regs) (hp : Part.sched ∈ parts) : Effect regs parts s (t.setStep n st) :=
  (h.sched _ hp).syncCtx hr

theorem Effect.readyStep {regs : List Nat} {parts : List Part} {s t : State} (h : Effect regs parts s t) {n : Nat}
    (hr : SCH_CTX_STAT n ∈ regs) (hp : Part.sched ∈ parts) : Effect regs parts s (readyStep t n) :=
  Effect.ite (fun _ => h.setStep _ hr hp) fun _ => h.syncCtx hr

theorem stepOf_setStep_same (s : State) (n : Nat) (st : Step) : stepOf (s.setStep n st) n = some st := tget_tset_same ..

theorem stepOf_setStep_ne (s : State) {n m : Nat} (st : Step) (h : m ≠ n) : stepOf (s.setStep n st) m = stepOf s m :=
  tget_tset_ne _ _ _ _ h

theorem state_setStep (s : State) (n : Nat) {st : Step} (hst : st.st < 16) :
    (s.setStep n st).get (SCH_CTX_STAT_STATE n) = st.st := state_syncCtx_step (tget_tset_same ..) hst

theorem get_setStep_other {s : State} {n : Nat} (st : Step) {f : Fld} (h : f.addr ≠ SCH_CTX_STAT n) :
    (s.setStep n st).get f = s.get f := get_syncCtx_other h

/-! ### Distinct registers -/

theorem ctxCtl_ne_ctxStat (n : Nat) : SCH_CTX_CTL n ≠ SCH_CTX_STAT n := by
  unfold SCH_CTX_CTL SCH_CTX_STAT
  omega

theorem ctxScons_ne_ctxCtl (n : Nat) : SCH_CTX_SCONS n ≠ SCH_CTX_CTL n := by
  unfold SCH_CTX_SCONS SCH_CTX_CTL
  omega

theorem ctxCtl_settles {n : Nat} (h : n < 64) : SCH_CTX_CTL n ≠ DGN_CNT_MERGE ∧ SCH_CTX_CTL n ≠ DGN_EVT := by
  unfold SCH_CTX_CTL DGN_CNT_MERGE DGN_EVT
  omega

theorem ctxStat_settles {n : Nat} (h : n < 64) : SCH_CTX_STAT n ≠ DGN_CNT_MERGE ∧ SCH_CTX_STAT n ≠ DGN_EVT := by
  unfold SCH_CTX_STAT DGN_CNT_MERGE DGN_EVT
  omega

/-! ### Enabling and disabling -/

/-- SCH_CTX_n_CTL as an enabling or disabling write leaves it, with ENABLE as the hook puts it again. -/
def ctxEnabled (s : State) (n v : Nat) : State := (ctxCtlStored s n v).put (SCH_CTX_CTL_ENABLE n) (v % 2)

theorem Effect.ctxEnabled {regs : List Nat} {parts : List Part} {s : State} {n : Nat} (v : Nat) (hr : SCH_CTX_CTL n ∈ regs) :
    Effect regs parts s (ctxEnabled s n v) := ((Effect.refl s).wr _ hr).put _ hr

theorem get_ctxEnabled_other (s : State) {n : Nat} (v : Nat) {f : Fld} (h : f.addr ≠ SCH_CTX_CTL n) :
    (ctxEnabled s n v).get f = s.get f :=
  (Effect.ctxEnabled (parts := []) v (List.mem_singleton.mpr rfl)).get (by simp [h])

theorem enable_ctxEnabled (s : State) (n v : Nat) : (ctxEnabled s n v).get (SCH_CTX_CTL_ENABLE n) = v % 2 :=
  State.get_put_of_lt (show 0 ≤ 0 ∧ 0 < 64 by decide) (show v % 2 < 2 by omega)

theorem get_ctxEnabled_field (s : State) (n : Nat) {v hi lo : Nat} (hv : v < 2 ^ 64) (h64 : hi < 64) (h0 : 0 < lo)
    (hin : bitsOf (rwMask ctxCtlRow) hi lo = 2 ^ (hi + 1 - lo) - 1) (hout : bitsOf (w1cMask ctxCtlRow) hi lo = 0) :
    (ctxEnabled s n v).get ⟨SCH_CTX_CTL n, hi, lo⟩ = bitsOf v hi lo :=
  (State.get_put_apart (.inr ⟨Nat.le_refl 0, show 0 < 64 by decide, .inr h0⟩) _).trans (get_ctxCtlStored s n hv h64 hin hout)

theorem faulted_ctxEnabled_off {s : State} {n : Nat} (v : Nat) (hv : v < 2 ^ 64) (hok : s.on (SCH_CTX_CTL_FAULTED n) = false) :
    (ctxEnabled s n v).on (SCH_CTX_CTL_FAULTED n) = false := by
  rw [ctxEnabled, State.on_congr (State.get_put_apart (.inr (show 0 ≤ 0 ∧ 0 < 64 ∧ (1 < 0 ∨ 0 < 1) by decide)) _),
    faulted_ctxCtlStored s n hv, hok, Bool.false_and]

theorem stepOf_ctxEnabled (s : State) (n v m : Nat) : stepOf (ctxEnabled s n v) m = stepOf s m := rfl

/-- Disabling a context without a step: its state follows. -/
theorem ctxEnableWritten_disable {s : State} {n : Nat} (hno : stepOf s n = none) :
    ctxEnableWritten n 1 0 s = (s.put (SCH_CTX_CTL_ENABLE n) 0).syncCtx n := by
  have hno' : stepOf (s.put (SCH_CTX_CTL_ENABLE n) 0) n = none := hno
  unfold ctxEnableWritten
  rw [if_neg (by decide), if_pos ⟨rfl, rfl⟩, hno']

section

variable {s : State} {who : Initiator} {n : Nat} {v : Word64} (hon : s.powered) (hn : n < 64) (hno : stepOf s n = none)
include hn

theorem writeReg_ctxCtl {w : Nat} (ok : WriteOk s who (SCH_CTX_CTL n) w) : writeReg s who (SCH_CTX_CTL n) w =
    ctxCtlWritten n (s.rd (SCH_CTX_CTL n)).toNat (clearing ctxCtlRow (s.freshBits (SCH_CTX_CTL n)) w) (ctxCtlStored s n w) :=
  writeReg_w1c ok (regAt_ctxCtl n hn) (w1cRow_ctxCtl n hn)

section

variable (ok : WriteOk s who (SCH_CTX_CTL n) v.toNat) (hok : s.on (SCH_CTX_CTL_FAULTED n) = false)
include ok hok

/-- Without a fault to clear, a write acts by ENABLE alone. -/
theorem writeReg_ctxCtl_enable : writeReg s who (SCH_CTX_CTL n) v.toNat =
    ctxEnableWritten n ((s.rd (SCH_CTX_CTL n)).toNat % 2) (v.toNat % 2) (ctxCtlStored s n v.toNat) := by
  have hold : (s.rd (SCH_CTX_CTL n)).toNat.testBit 1 = false := by
    have h := testBit_bitsOf (s.rd (SCH_CTX_CTL n)).toNat 1 1 0
    rw [show bitsOf (s.rd (SCH_CTX_CTL n)).toNat 1 1 = 0 from State.get_eq_zero_of_off rfl hok] at h
    simpa using h.symm
  rw [writeReg_ctxCtl hn ok, ctxCtlWritten, hold, Bool.false_and]
  show ctxEnableWritten n _ (clearing _ _ _ % 2) _ = _
  rw [clearing_mod_two (by decide) (by decide)]
  rfl

/-- An enabling write leaves the context to `readyStep`. -/
theorem exec_contextEnable_enable (hoff : s.on (SCH_CTX_CTL_ENABLE n) = false) (hv : v.toNat % 2 = 1) :
    exec (.contextEnable who n v) s = finish s (readyStep (ctxEnabled s n v.toNat) n) := by
  show finish s (writeReg s who (SCH_CTX_CTL n) v.toNat) = _
  rw [writeReg_ctxCtl_enable hn ok hok, ctxEnableWritten, if_pos ⟨State.mod_two_of_off rfl rfl hoff, hv⟩]
  rfl

include hon hno

theorem completes_contextEnable_idle (hoff : s.on (SCH_CTX_CTL_ENABLE n) = false) (hv : v.toNat % 2 = 1)
    (hnone : s.get (SCH_CTX_SCONS_INDEX n) = tgetD s.sched.snaps n 0) :
    Completes (.contextEnable who n v) s fun t =>
      t.on (SCH_CTX_CTL_ENABLE n) = true ∧ t.get (SCH_CTX_STAT_STATE n) = 1 ∧
      t.get (SCH_CTX_CTL_PMASK n) = bitsOf v.toNat 15 8 ∧ t.get (SCH_CTX_CTL_PRIO n) = bitsOf v.toNat 6 4 ∧
      ChangesOnly [SCH_CTX_CTL n, SCH_CTX_STAT n] [] s t := by
  obtain ⟨hc1, hc2⟩ := ctxCtl_settles hn
  obtain ⟨hs1, hs2⟩ := ctxStat_settles hn
  have hidle : readyStep (ctxEnabled s n v.toNat) n = (ctxEnabled s n v.toNat).syncCtx n :=
    readyStep_idle ((get_ctxEnabled_other s _ (ctxScons_ne_ctxCtl n)).trans hnone)
  have hen : (ctxEnabled s n v.toNat).get (SCH_CTX_CTL_ENABLE n) = 1 := (enable_ctxEnabled s n _).trans hv
  refine completes_of_settled ((exec_contextEnable_enable hn ok hok hoff hv).trans (congrArg (finish s) hidle)) hon fun t hs =>
    ⟨?_, ?_, ?_, ?_, hs.changesOnly ((Effect.ctxEnabled _ (by simp)).syncCtx (by simp))⟩
  · rw [hs.on _ hc1 hc2, State.on_eq_true_iff, get_syncCtx_other (ctxCtl_ne_ctxStat n), hen]
  · rw [hs.get _ hs1 hs2, state_syncCtx_noStep ((stepOf_ctxEnabled s n _ n).trans hno), faulted_ctxEnabled_off _ v.isLt hok, State.on_eq_true_iff.mpr hen]
    rfl
  · rw [hs.get _ hc1 hc2, get_syncCtx_other (ctxCtl_ne_ctxStat n)]
    exact get_ctxEnabled_field s n v.isLt (by decide) (by decide) (by decide) (by decide)
  · rw [hs.get _ hc1 hc2, get_syncCtx_other (ctxCtl_ne_ctxStat n)]
    exact get_ctxEnabled_field s n v.isLt (by decide) (by decide) (by decide) (by decide)

theorem completes_contextEnable_ready (hoff : s.on (SCH_CTX_CTL_ENABLE n) = false) (hv : v.toNat % 2 = 1)
    (hsome : s.get (SCH_CTX_SCONS_INDEX n) ≠ tgetD s.sched.snaps n 0) :
    Completes (.contextEnable who n v) s fun t =>
      t.on (SCH_CTX_CTL_ENABLE n) = true ∧ t.get (SCH_CTX_STAT_STATE n) = 2 ∧
      (∃ st, stepOf t n = some st ∧ st.st = 2 ∧ st.readyAt = s.sched.boundary) ∧
      (∀ m, m ≠ n → stepOf t m = stepOf s m) ∧
      ChangesOnly [SCH_CTX_CTL n, SCH_CTX_STAT n] [.sched] s t := by
  obtain ⟨hc1, hc2⟩ := ctxCtl_settles hn
  obtain ⟨hs1, hs2⟩ := ctxStat_settles hn
  have hen : (ctxEnabled s n v.toNat).get (SCH_CTX_CTL_ENABLE n) = 1 := (enable_ctxEnabled s n _).trans hv
  have hready : readyStep (ctxEnabled s n v.toNat) n =
      (ctxEnabled s n v.toNat).setStep n (readied (ctxEnabled s n v.toNat)) :=
    readyStep_ready hno (State.on_eq_true_iff.mpr hen) (faulted_ctxEnabled_off _ v.isLt hok)
      (by rw [get_ctxEnabled_other s _ (ctxScons_ne_ctxCtl n)]; exact hsome)
  have hstep (t : State) (ht : Settled s.fuses s ((ctxEnabled s n v.toNat).setStep n (readied (ctxEnabled s n v.toNat))) t)
      (m : Nat) : stepOf t m = stepOf ((ctxEnabled s n v.toNat).setStep n (readied (ctxEnabled s n v.toNat))) m := by
    rw [stepOf, stepOf, ht.sched]
  refine completes_of_settled ((exec_contextEnable_enable hn ok hok hoff hv).trans (congrArg (finish s) hready)) hon fun t hs =>
    ⟨?_, ?_, ⟨readied s, ?_, rfl, rfl⟩, fun m hm => ?_, hs.changesOnly ((Effect.ctxEnabled _ (by simp)).setStep _ (by simp) (by simp))⟩
  · rw [hs.on _ hc1 hc2, State.on_eq_true_iff, get_setStep_other _ (ctxCtl_ne_ctxStat n), hen]
  · rw [hs.get _ hs1 hs2, state_setStep _ _ (show 2 < 16 by decide)]
    rfl
  · rw [hstep t hs, stepOf_setStep_same]
    rfl
  · rw [hstep t hs, stepOf_setStep_ne _ _ hm, stepOf_ctxEnabled]

theorem completes_contextEnable_disable (hon' : s.on (SCH_CTX_CTL_ENABLE n) = true) (hv : v.toNat % 2 = 0) :
    Completes (.contextEnable who n v) s fun t =>
      t.on (SCH_CTX_CTL_ENABLE n) = false ∧ t.get (SCH_CTX_STAT_STATE n) = 0 ∧ stepOf t n = none ∧
      ChangesOnly [SCH_CTX_CTL n, SCH_CTX_STAT n] [] s t := by
  obtain ⟨hc1, hc2⟩ := ctxCtl_settles hn
  obtain ⟨hs1, hs2⟩ := ctxStat_settles hn
  have hen : (ctxEnabled s n v.toNat).on (SCH_CTX_CTL_ENABLE n) = false := by
    rw [State.on, enable_ctxEnabled, hv]
    rfl
  have hexec : exec (.contextEnable who n v) s = finish s ((ctxEnabled s n v.toNat).syncCtx n) := by
    show finish s (writeReg s who (SCH_CTX_CTL n) v.toNat) = _
    have hold : (s.rd (SCH_CTX_CTL n)).toNat % 2 = 1 := State.mod_two_of_on rfl rfl hon'
    rw [writeReg_ctxCtl_enable hn ok hok, hold, ctxEnabled, hv,
      ctxEnableWritten_disable (s := ctxCtlStored s n v.toNat) hno]
  refine completes_of_settled hexec hon fun t hs =>
    ⟨?_, ?_, ?_, hs.changesOnly ((Effect.ctxEnabled _ (by simp)).syncCtx (by simp))⟩
  · rw [hs.on _ hc1 hc2, State.on_congr (get_syncCtx_other (ctxCtl_ne_ctxStat n)), hen]
  · rw [hs.get _ hs1 hs2, state_syncCtx_noStep ((stepOf_ctxEnabled s n _ n).trans hno), faulted_ctxEnabled_off _ v.isLt hok, hen]
    rfl
  · rw [stepOf, hs.sched]
    exact hno

end

/-! ### Recovery (R254, R545) -/

omit hn in
theorem stepOf_setOff (s : State) (f : Fld) (n : Nat) : stepOf (s.setOff f) n = stepOf s n := rfl

omit hn in
theorem ctxFaultCleared_faulted {s : State} {n : Nat} (h : s.on (SCH_CTX_CTL_FAULTED n) = true) :
    ctxFaultCleared n s = readyStep ((s.setOff (SCH_CTX_CTL_FAULTED n)).epochEvent 4) n := if_pos h

omit hn in
/-- A write that repeats ENABLE acts no further. -/
theorem ctxEnableWritten_same (s : State) (n x : Nat) : ctxEnableWritten n x x s = s.put (SCH_CTX_CTL_ENABLE n) x := by
  unfold ctxEnableWritten
  rw [if_neg (by omega), if_neg (by omega)]

/-- SCH_CTX_n_CTL with FAULTED as the hook finds it. -/
def ctxFaulted (s : State) (n v : Nat) : State := (ctxCtlStored s n v).put (SCH_CTX_CTL_FAULTED n) 1

/-- The same with FAULTED off. -/
def ctxRecovered (s : State) (n v : Nat) : State := (ctxFaulted s n v).setOff (SCH_CTX_CTL_FAULTED n)

theorem exec_contextFaultClear (ok : WriteOk s who (SCH_CTX_CTL n) (v.toNat ||| 2))
    (hfault : s.on (SCH_CTX_CTL_FAULTED n) = true) (hfresh : (s.freshBits (SCH_CTX_CTL n)).testBit 1 = false)
    (hsame : v.toNat % 2 = s.get (SCH_CTX_CTL_ENABLE n)) :
    exec (.contextFaultClear who n v) s = finish s
      ((readyStep ((ctxRecovered s n (v.toNat ||| 2)).epochEvent 4) n).put (SCH_CTX_CTL_ENABLE n) (v.toNat % 2)) := by
  have hold : (s.rd (SCH_CTX_CTL n)).toNat.testBit 1 = true := by
    have h := testBit_bitsOf (s.rd (SCH_CTX_CTL n)).toNat 1 1 0
    rw [show bitsOf (s.rd (SCH_CTX_CTL n)).toNat 1 1 = 1 from State.on_eq_true_iff.mp hfault] at h
    simpa using h.symm
  have hnew : (clearing ctxCtlRow (s.freshBits (SCH_CTX_CTL n)) (v.toNat ||| 2)).testBit 1 = true := by
    rw [testBit_clearing (by decide) _ _ (by decide), hfresh, Nat.testBit_or, show Nat.testBit 2 1 = true from rfl]
    simp
  have hbit : (v.toNat ||| 2) % 2 = v.toNat % 2 := by
    have h : (v.toNat ||| 2).testBit 0 = v.toNat.testBit 0 := by simp
    rw [Nat.testBit_zero, Nat.testBit_zero] at h
    have := decide_eq_decide.mp h
    omega
  have hmod : (s.rd (SCH_CTX_CTL n)).toNat % 2 = v.toNat % 2 :=
    (State.get_bit_zero s (f := SCH_CTX_CTL_ENABLE n) rfl rfl).trans hsame.symm
  have hon1 : (ctxFaulted s n (v.toNat ||| 2)).on (SCH_CTX_CTL_FAULTED n) = true :=
    State.on_eq_true_iff.mpr (State.get_put_of_lt (show 1 ≤ 1 ∧ 1 < 64 by decide) (show 1 < 2 by decide))
  show finish s (writeReg s who (SCH_CTX_CTL n) (v.toNat ||| 2)) = _
  rw [writeReg_ctxCtl hn ok, ctxCtlWritten, hold, hnew, Bool.and_true, clearing_mod_two (by decide) (by decide), hbit, hmod,
    ctxEnableWritten_same]
  show finish s ((ctxFaultCleared n (ctxFaulted s n (v.toNat ||| 2))).put _ _) = _
  rw [ctxFaultCleared_faulted hon1]
  rfl

omit hn in
theorem Effect.ctxRecovered {regs : List Nat} {parts : List Part} {s : State} {n : Nat} (v : Nat) (hr : SCH_CTX_CTL n ∈ regs) :
    Effect regs parts s (ctxRecovered s n v) := (((Effect.refl s).wr _ hr).put _ hr).setOff hr

omit hn in
theorem faulted_ctxRecovered (s : State) (n v : Nat) : (ctxRecovered s n v).get (SCH_CTX_CTL_FAULTED n) = 0 :=
  State.get_setOff (show 1 ≤ 1 ∧ 1 < 64 by decide)

omit hn in
theorem epochCyc_ctxRecovered {s : State} (h : s.epochCyc ≠ some s.blvCyc) (n v : Nat) :
    (ctxRecovered s n v).epochCyc ≠ some (ctxRecovered s n v).blvCyc := h

/-- The registers of a context are none of the epoch's. -/
theorem ctx_notMem_epochRegs {a : Nat} (ha : a = SCH_CTX_CTL n ∨ a = SCH_CTX_STAT n) : a ∉ epochRegs := by
  have hlow : a < 0x100009000000 := by
    rcases ha with rfl | rfl
    · unfold SCH_CTX_CTL
      omega
    · unfold SCH_CTX_STAT
      omega
  have hhigh : ∀ b ∈ epochRegs, 0x100009000000 ≤ b := by decide
  exact fun hmem => absurd (hhigh a hmem) (by omega)

include hon in
theorem completes_contextFaultClear (ok : WriteOk s who (SCH_CTX_CTL n) (v.toNat ||| 2))
    (hfault : s.on (SCH_CTX_CTL_FAULTED n) = true) (hfresh : (s.freshBits (SCH_CTX_CTL n)).testBit 1 = false)
    (hsame : v.toNat % 2 = s.get (SCH_CTX_CTL_ENABLE n)) (hepoch : s.epochCyc ≠ some s.blvCyc) :
    Completes (.contextFaultClear who n v) s fun t =>
      t.on (SCH_CTX_CTL_FAULTED n) = false ∧ t.get DGN_EPOCH_CAUSE_MASK = 2 ^ 4 ∧
      t.get DGN_EPOCH_VALUE = (if s.get DGN_EPOCH_VALUE = 0xFFFFFFFF then 1 else s.get DGN_EPOCH_VALUE + 1) ∧
      t.on DGN_EVT_EPOCH = true ∧
      ChangesOnly [SCH_CTX_CTL n, SCH_CTX_STAT n, DGN_EPOCH, DGN_EPOCH_CAUSE, FLD_ECS_CNT 7, FLD_ECS_EVT] [.sched, .diag]
        s t := by
  have hother {f : Fld} (hf : f.addr ∈ epochRegs) : f.addr ∉ [SCH_CTX_CTL n, SCH_CTX_STAT n] := fun hmem =>
    ctx_notMem_epochRegs hn (by simpa using hmem) hf
  have hrecovered : Effect [SCH_CTX_CTL n, SCH_CTX_STAT n] [] s (ctxRecovered s n (v.toNat ||| 2)) := .ctxRecovered _ (by simp)
  have hready : Effect [SCH_CTX_CTL n, SCH_CTX_STAT n] [.sched] ((ctxRecovered s n (v.toNat ||| 2)).epochEvent 4)
      ((readyStep ((ctxRecovered s n (v.toNat ||| 2)).epochEvent 4) n).put (SCH_CTX_CTL_ENABLE n) (v.toNat % 2)) :=
    ((Effect.refl _).readyStep (by simp) (by simp)).put _ (by simp [SCH_CTX_CTL_ENABLE])
  have hnew := epochCyc_ctxRecovered hepoch n (v.toNat ||| 2)
  obtain ⟨hc1, hc2⟩ := ctxCtl_settles hn
  refine completes_of_settled_events (exec_contextFaultClear hn ok hfault hfresh hsame) hon fun t hs hev =>
    ⟨?_, ?_, ?_, ?_, hs.changesOnly_pulsed ?_⟩
  · have hzero : ((readyStep ((ctxRecovered s n (v.toNat ||| 2)).epochEvent 4) n).put (SCH_CTX_CTL_ENABLE n) (v.toNat % 2)).get
        (SCH_CTX_CTL_FAULTED n) = 0 := by
      rw [State.get_put_apart (.inr (show 0 ≤ 0 ∧ 0 < 64 ∧ (1 < 0 ∨ 0 < 1) by decide)),
        ((Effect.refl _).readyStep (regs := [SCH_CTX_STAT n]) (parts := [.sched]) (by simp) (by simp)).get
          (by simp [SCH_CTX_CTL_FAULTED, ctxCtl_ne_ctxStat n]),
        (effect_epochEvent (parts := [.diag]) (by simp) _ 4).get (ctx_notMem_epochRegs hn (.inl rfl)), faulted_ctxRecovered]
    rw [hs.on _ hc1 hc2, State.on, hzero]
    rfl
  · rw [hs.get _ (by decide) (by decide), hready.get (hother (by decide)), cause_epochEvent hnew 4 (by decide)]
  · rw [hs.get _ (by decide) (by decide), hready.get (hother (by decide)), value_epochEvent hnew,
      hrecovered.get (hother (by decide))]
  · rw [hev.on rfl (by decide), hready.on (hother (by decide)), event_epochEvent hnew]
  · refine Effect.put (Effect.readyStep (Effect.epochEvent (hrecovered.mono ?_ (by simp)) ?_ (by simp) 4) (by simp) (by simp)) _ ?_
    all_goals simp [epochRegs, SCH_CTX_CTL_ENABLE]

end

/-- Settles O16: an enabled context is READY or IDLE by its entry at SCONS, a disabled one stops, and a 1 to FAULTED advances the
epoch. -/
theorem contextsEnableDisableAndRecover : Obligations.ContextsEnableDisableAndRecover := by
  intro s who n v hon hn hno
  refine ⟨fun ok hok => ⟨fun hoff hv => ⟨completes_contextEnable_idle hon hn hno ok hok hoff hv,
    completes_contextEnable_ready hon hn hno ok hok hoff hv⟩, completes_contextEnable_disable hon hn hno ok hok⟩,
    completes_contextFaultClear hon hn⟩

end Sys2Proof.Machine
end
section
/-! Halves of a 64-bit register: captures and holds of each initiator (R9). -/

namespace Sys2Proof.Machine

open Sys2Proof Sys2Proof.Machine.Reg

/-! ### Captures and holds -/

theorem find?_filter_of_imp {α : Type} {p q : α → Bool} (h : ∀ x, p x = true → q x = true) (xs : List α) :
    (xs.filter q).find? p = xs.find? p := by
  rw [List.find?_filter]
  congr 1
  funext x
  cases hp : p x
  · simp
  · simp [h x hp]

theorem capOf_setCap_same (s : State) (who : Initiator) (key v : Nat) :
    capOf (setCap s who key v) who key = some (BitVec.ofNat 32 v) := by
  simp [capOf, setCap]

theorem capOf_setCap_other (s : State) {who w : Initiator} {key k : Nat} (v : Nat) (h : w ≠ who ∨ k ≠ key) :
    capOf (setCap s who key v) w k = capOf s w k := by
  have hhead : (who == w && key == k) = false := by
    rw [Bool.eq_false_iff]
    simp only [ne_eq, Bool.and_eq_true, beq_iff_eq]
    rintro ⟨rfl, rfl⟩
    simp at h
  unfold capOf setCap
  rw [List.find?_cons_of_neg (by simpa using hhead)]
  congr 1
  refine find?_filter_of_imp (fun x hx => ?_) s.caps
  simp only [Bool.and_eq_true, beq_iff_eq] at hx
  rw [hx.1, hx.2, Bool.not_eq_true', Bool.eq_false_iff]
  simp only [ne_eq, Bool.and_eq_true, beq_iff_eq]
  rintro ⟨rfl, rfl⟩
  simp at h

theorem heldHalf_dropHold_same (s : State) (who : Initiator) : heldHalf (dropHold s who) who = none := by
  simp [heldHalf, dropHold]

theorem heldHalf_dropHold_other (s : State) {who w : Initiator} (h : w ≠ who) :
    heldHalf (dropHold s who) w = heldHalf s w := by
  refine find?_filter_of_imp (fun x hx => ?_) s.holds
  simp only [beq_iff_eq] at hx
  simp [hx, h]

theorem dropHold_of_none {s : State} {who : Initiator} (h : heldHalf s who = none) : dropHold s who = s := by
  have hall : s.holds.filter (fun x => x.who != who) = s.holds := by
    rw [List.filter_eq_self]
    intro x hx
    have := List.find?_eq_none.mp h x hx
    simpa using this
  rw [dropHold, hall]

theorem Effect.halves {regs : List Nat} {parts : List Part} {s t : State} (h : Effect regs parts s t) (caps : List Half)
    (holds : List Half) (hp : Part.halves ∈ parts) : Effect regs parts s { t with caps := caps, holds := holds } :=
  h.components rfl fun p hq => by
    cases p
    case halves => exact absurd hp hq
    all_goals simp [Keeps]

theorem Effect.setCap {regs : List Nat} {parts : List Part} {s t : State} (h : Effect regs parts s t) (who : Initiator)
    (key v : Nat) (hp : Part.halves ∈ parts) : Effect regs parts s (setCap t who key v) := h.halves _ _ hp

theorem Effect.dropHold {regs : List Nat} {parts : List Part} {s t : State} (h : Effect regs parts s t) (who : Initiator)
    (hp : Part.halves ∈ parts) : Effect regs parts s (dropHold t who) := h.halves _ _ hp

theorem Effect.answer {regs : List Nat} {parts : List Part} {s t : State} (h : Effect regs parts s t) (r : Reply)
    (hp : Part.bus ∈ parts) : Effect regs parts s (t.answer r) :=
  h.components rfl fun p hq => by
    cases p
    case bus => exact absurd hp hq
    all_goals simp [Keeps]

/-! ### What a read sets off -/

/-- The captures of a pair's high half. -/
def pairCaptured (s : State) (who : Initiator) (h : RegHit) : State :=
  match pairHigh h with
  | some b => setCap (setCap s who (b + 1) ((s.view b).toNat % 2 ^ 32)) who (b + 2) ((s.view b).toNat / 2 ^ 32)
  | none => s

/-- A captured edge has been seen. -/
def tsSeen (s : State) (n : Nat) : State := { s with tioUnread := withBits s.tioUnread n n 0 }

theorem afterRead_eq (s : State) (who : Initiator) (h : RegHit) : afterRead s who h =
    if h.desc.base = BLV_TIO_TSLO 0 then tsSeen (pairCaptured s who h) (h.idx.headD 0) else pairCaptured s who h := rfl

theorem Effect.tsSeen {regs : List Nat} {parts : List Part} {s t : State} (h : Effect regs parts s t) (n : Nat)
    (hp : Part.harts ∈ parts) : Effect regs parts s (tsSeen t n) :=
  h.components rfl fun p hq => by
    cases p
    case harts => exact absurd hp hq
    all_goals simp [Keeps, Machine.tsSeen]

theorem effect_pairCaptured {parts : List Part} (hp : Part.halves ∈ parts) (s : State) (who : Initiator) (h : RegHit) :
    Effect [] parts s (pairCaptured s who h) := by
  unfold pairCaptured
  split
  · exact ((Effect.refl s).setCap _ _ _ hp).setCap _ _ _ hp
  · exact Effect.refl s

theorem effect_afterRead {parts : List Part} (hp : Part.halves ∈ parts) (hh : Part.harts ∈ parts) (s : State)
    (who : Initiator) (h : RegHit) : Effect [] parts s (afterRead s who h) := by
  rw [afterRead_eq]
  exact Effect.ite (fun _ => (effect_pairCaptured hp s who h).tsSeen _ hh) fun _ => effect_pairCaptured hp s who h

theorem holds_afterRead (s : State) (who : Initiator) (h : RegHit) : (afterRead s who h).holds = s.holds := by
  have hpair : (pairCaptured s who h).holds = s.holds := by
    unfold pairCaptured
    split <;> rfl
  rw [afterRead_eq]
  split <;> exact hpair

theorem capOf_afterRead_other (s : State) {who w : Initiator} (hw : w ≠ who) (h : RegHit) (k : Nat) :
    capOf (afterRead s who h) w k = capOf s w k := by
  have hpair : capOf (pairCaptured s who h) w k = capOf s w k := by
    unfold pairCaptured
    split
    · rw [capOf_setCap_other _ _ (.inl hw), capOf_setCap_other _ _ (.inl hw)]
    · rfl
  rw [afterRead_eq]
  split <;> exact hpair

/-! ### Reads -/

/-- A read that no cause meets. -/
theorem accessCauses_of_readOk {s : State} {who : Initiator} {a size : Nat} {h : RegHit} (ok : ReadOk s who a size)
    (hh : regHit s who a = some h) : accessCauses s who h a size false = [] := by
  rw [ReadOk, hh] at ok
  simpa using ok

theorem capOf_congr {s t : State} (h : t.caps = s.caps) (w : Initiator) (k : Nat) : capOf t w k = capOf s w k := by
  rw [capOf, capOf, h]

theorem heldHalf_congr {s t : State} (h : t.holds = s.holds) (w : Initiator) : heldHalf t w = heldHalf s w := by
  rw [heldHalf, heldHalf, h]

section

variable {s : State} {who : Initiator} {b : Nat} {h : RegHit} (hon : s.powered) (hh : regHit s who b = some h)
  (hh4 : regHit s who (b + 4) = some { h with upper := true }) (hup : h.upper = false) (hw : h.desc.width = 64) (hb : b % 8 = 0)
include hon

include hh hup hw in
theorem completes_readLower (ok : ReadOk s who b 4) (hclaim : h.desc.base ≠ BLV_ICU_T_CLAIM 0) :
    Completes (.registerReadLowerHalf who b) s fun t =>
      t.bus = .value (BitVec.ofNat 64 (readValue s who h % 2 ^ 32)) ∧
      capOf t who (h.base + 4) = some (BitVec.ofNat 32 (readValue s who h / 2 ^ 32)) ∧
      t.holds = s.holds ∧ (∀ w, w ≠ who → ∀ k, capOf t w k = capOf s w k) ∧
      ChangesOnly [] [.bus, .halves, .harts] s t := by
  have hread : regRead s who b 4 = (setCap (afterRead s who h) who (h.base + 4) (readValue s who h / 2 ^ 32),
      readValue s who h % 2 ^ 32) := by
    unfold regRead
    rw [hh]
    simp only
    rw [accessCauses_of_readOk ok hh, if_neg (by decide), if_neg hclaim, if_neg (by simp [hup]), if_pos ⟨trivial, hw⟩]
  have hexec : exec (.registerReadLowerHalf who b) s = finish s
      ((setCap (afterRead s who h) who (h.base + 4) (readValue s who h / 2 ^ 32)).answer
        (.value (BitVec.ofNat 64 (readValue s who h % 2 ^ 32)))) := by
    show finish s (readOnBus s who b 4) = _
    rw [readOnBus, hread]
  refine completes_of_settled hexec hon fun t hs => ⟨hs.bus, ?_, ?_, fun w hw k => ?_, hs.changesOnly
    (((effect_afterRead (by simp) (by simp) s who h).setCap who _ _ (by simp)).answer _ (by simp))⟩
  · rw [capOf_congr hs.caps]
    exact capOf_setCap_same ..
  · rw [hs.holds]
    exact holds_afterRead s who h
  · rw [capOf_congr hs.caps]
    exact (capOf_setCap_other _ _ (.inl hw)).trans (capOf_afterRead_other s hw h k)

include hh4 hw in
theorem completes_readUpper (ok : ReadOk s who (b + 4) 4) :
    Completes (.violatingRead who (b + 4) 4) s fun t =>
      t.bus = .value (match capOf s who (h.base + 4) with
        | some c => BitVec.ofNat 64 c.toNat
        | none => BitVec.ofNat 64 (readValue s who h / 2 ^ 32)) ∧
      ChangesOnly [] [.bus] s t := by
  have hclaim : h.desc.base ≠ BLV_ICU_T_CLAIM 0 := by
    have hd := inOrder_of_regHit hh4
    intro hbase
    simp [rowInOrder, hbase, hw] at hd
  have hread : regRead s who (b + 4) 4 = (s, match capOf s who (h.base + 4) with
      | some c => c.toNat
      | none => readValue s who h / 2 ^ 32) := by
    unfold regRead
    rw [hh4]
    simp only
    rw [accessCauses_of_readOk ok hh4, if_neg (by decide), if_neg hclaim, if_pos trivial]
    rfl
  have hexec : exec (.violatingRead who (b + 4) 4) s = finish s (s.answer (.value (BitVec.ofNat 64
      (match capOf s who (h.base + 4) with
      | some c => c.toNat
      | none => readValue s who h / 2 ^ 32)))) := by
    show finish s (readOnBus s who (b + 4) 4) = _
    rw [readOnBus, hread]
  refine completes_of_settled hexec hon fun t hs => ⟨hs.bus.trans ?_, hs.changesOnly ((Effect.refl s).answer _ (by simp))⟩
  cases capOf s who (h.base + 4) <;> rfl

/-! ### Writes -/

include hh hup hw in
theorem completes_writeLower (v : Word32) (hacc : accessCauses s who h b 4 true = []) (hro : allRo s h = false) :
    Completes (.registerWriteLowerHalf who b v) s fun t =>
      heldHalf t who = some { who := who, addr := h.base, val := v } ∧
      (∀ w, w ≠ who → heldHalf t w = heldHalf s w) ∧ t.caps = s.caps ∧ ChangesOnly [] [.halves] s t := by
  have hwrite : regWrite s who b 4 v.toNat =
      { dropHold s who with holds := { who := who, addr := h.base, val := v } :: (dropHold s who).holds } := by
    have hform := formOk_of_causes hacc
    unfold regWrite
    rw [hh]
    simp only
    rw [hacc, if_neg (by simp [hw, hform]), if_neg (by decide), if_pos (by simp [hup])]
    simp only [hro, Bool.false_eq_true, if_false, List.append_nil, List.isEmpty_nil, if_true, BitVec.ofNat_toNat, BitVec.setWidth_eq]
  refine completes_of_settled (congrArg (finish s) hwrite) hon fun t hs =>
    ⟨?_, fun w hw => ?_, hs.caps, hs.changesOnly ((Effect.refl s).halves s.caps _ (by simp))⟩
  · rw [heldHalf_congr hs.holds]
    exact List.find?_cons_of_pos (by simp)
  · rw [heldHalf_congr hs.holds]
    exact (List.find?_cons_of_neg (by simp [Ne.symm hw])).trans (heldHalf_dropHold_other s hw)

omit hon in
theorem writeWhole_ok {s : State} {h : RegHit} {v : Nat} (hval : valueCauses s h v = []) (a : Nat) :
    writeWhole s who h a v [] = storeWrite s h v := by
  unfold writeWhole
  rw [hval]
  rfl

omit hon in
/-- A whole write of 64 bits that no cause meets. -/
theorem causes_of_writeOk {w : Nat} (hh : regHit s who b = some h) (hw : h.desc.width = 64) (ok : WriteOk s who b w) :
    accessCauses s who h b 8 true = [] ∧ valueCauses s h w = [] ∧ w < 2 ^ 64 := by
  rw [WriteOk, hh] at ok
  simp only [Bool.and_eq_true, List.isEmpty_iff, Bool.not_eq_true', decide_eq_true_eq, hw] at ok
  exact ⟨ok.1.1.1, ok.1.1.2, ok.2⟩

omit hon in
include hb in
/-- An upper half meets the causes of its whole. -/
theorem accessCauses_upper (hacc : accessCauses s who h b 8 true = []) :
    accessCauses s who { h with upper := true } (b + 4) 4 true = [] := by
  have hform : formOk { h with upper := true } (b + 4) 4 = true := by
    have hmod : (b + 4) % 4 = 0 := by omega
    simp [formOk, hmod]
  unfold accessCauses at hacc ⊢
  simp only [List.append_eq_nil_iff] at hacc ⊢
  obtain ⟨⟨-, hctx⟩, hprot⟩ := hacc
  exact ⟨⟨if_pos hform, hctx⟩, hprot⟩

omit hon in
include hh hw in
theorem exec_write_whole {w : Nat} (ok : WriteOk s who b w) :
    exec (.registerWrite who b 8 (BitVec.ofNat 64 w)) s = finish s (storeWrite (dropHold s who) h w) := by
  obtain ⟨hacc, hval, hlt⟩ := causes_of_writeOk hh hw ok
  have hwrite := regWrite_of_ok hh (.inr hw) (by rw [hw]; exact hlt) (by rw [hw]; exact hacc) hval
  rw [hw, if_neg (by decide)] at hwrite
  show finish s (regWrite s who b 8 (BitVec.ofNat 64 w).toNat) = _
  rw [State.toNat_ofNat_rd hlt]
  exact congrArg (finish s) hwrite

omit hon in
include hh hh4 hw hb in
/-- An upper-half write acts with the initiator's own held lower half. -/
theorem exec_write_upper_held {hi lo : Word32} (hheld : heldHalf s who = some { who := who, addr := h.base, val := lo })
    (ok : WriteOk s who b (hi.toNat * 2 ^ 32 + lo.toNat)) :
    exec (.registerWrite who (b + 4) 4 (BitVec.ofNat 64 hi.toNat)) s =
      exec (.registerWrite who b 8 (BitVec.ofNat 64 (hi.toNat * 2 ^ 32 + lo.toNat))) s := by
  obtain ⟨hacc, hval, -⟩ := causes_of_writeOk hh hw ok
  have hacc' := accessCauses_upper hb hacc
  have hhi := hi.isLt
  have hval' : valueCauses (dropHold s who) { h with upper := true } (hi.toNat * 2 ^ 32 + lo.toNat) = [] := hval
  have hwrite : regWrite s who (b + 4) 4 hi.toNat = storeWrite (dropHold s who) h (hi.toNat * 2 ^ 32 + lo.toNat) := by
    unfold regWrite
    rw [hh4]
    simp only
    rw [hacc', if_neg (by simp [hw, formOk_of_causes hacc']), if_neg (by decide), if_neg (by simp), hheld]
    simp only [List.isEmpty_nil, and_self, if_true]
    rw [Nat.mod_eq_of_lt hhi]
    exact writeWhole_ok hval' _
  rw [exec_write_whole hh hw ok]
  show finish s (regWrite s who (b + 4) 4 (BitVec.ofNat 64 hi.toNat).toNat) = _
  rw [State.toNat_ofNat_rd (by omega), hwrite]

omit hon in
include hh hh4 hw hb in
/-- Without a held half it takes the lower half as it stands. -/
theorem exec_write_upper_resting {hi : Word32} (hheld : heldHalf s who = none)
    (ok : WriteOk s who b (hi.toNat * 2 ^ 32 + restingLower s h)) :
    exec (.registerWrite who (b + 4) 4 (BitVec.ofNat 64 hi.toNat)) s =
      exec (.registerWrite who b 8 (BitVec.ofNat 64 (hi.toNat * 2 ^ 32 + restingLower s h))) s := by
  obtain ⟨hacc, hval, -⟩ := causes_of_writeOk hh hw ok
  have hacc' := accessCauses_upper hb hacc
  have hhi := hi.isLt
  have hval' : valueCauses s { h with upper := true } (hi.toNat * 2 ^ 32 + restingLower s h) = [] := hval
  have hwrite : regWrite s who (b + 4) 4 hi.toNat = storeWrite s h (hi.toNat * 2 ^ 32 + restingLower s h) := by
    unfold regWrite
    rw [hh4]
    simp only
    rw [hacc', if_neg (by simp [hw, formOk_of_causes hacc']), if_neg (by decide), if_neg (by simp), hheld]
    simp only
    rw [Nat.mod_eq_of_lt hhi]
    exact writeWhole_ok hval' _
  rw [exec_write_whole hh hw ok, dropHold_of_none hheld]
  show finish s (regWrite s who (b + 4) 4 (BitVec.ofNat 64 hi.toNat).toNat) = _
  rw [State.toNat_ofNat_rd (by omega), hwrite]

include hh hw in
theorem completes_write_whole {v : Word64} (ok : WriteOk s who b v.toNat)
    (hhook : (hookRows.find? fun r => r.1 = h.desc.base) = none) :
    Completes (.registerWrite who b 8 v) s fun t =>
      heldHalf t who = none ∧ (∀ w, w ≠ who → heldHalf t w = heldHalf s w) ∧ t.caps = s.caps := by
  have hexec := exec_write_whole hh hw ok
  rw [BitVec.ofNat_toNat, BitVec.setWidth_eq] at hexec
  have hstored : (storeWrite (dropHold s who) h v.toNat).holds = (dropHold s who).holds ∧
      (storeWrite (dropHold s who) h v.toNat).caps = s.caps := by
    unfold storeWrite
    simp only
    rw [afterWrite_none hhook]
    split <;> exact ⟨rfl, rfl⟩
  refine completes_of_settled hexec hon fun t hs => ⟨?_, fun w hw => ?_, hs.caps.trans hstored.2⟩
  · rw [heldHalf_congr (hs.holds.trans hstored.1), heldHalf_dropHold_same]
  · rw [heldHalf_congr (hs.holds.trans hstored.1), heldHalf_dropHold_other s hw]

end

/-- Settles O5: each half acts by its own initiator's captures and holds. -/
theorem halvesOfARegister : Obligations.HalvesOfARegister := by
  intro s who b h hon hh hh4 hup hw hb
  exact ⟨completes_readLower hon hh hup hw, completes_readUpper hon hh4 hw, completes_writeLower hon hh hup hw,
    fun hi lo => exec_write_upper_held hh hh4 hw hb, fun hi => exec_write_upper_resting hh hh4 hw hb,
    fun v => completes_write_whole hon hh hw⟩

end Sys2Proof.Machine
end
section
/-! Writes and reads of registers, and their violations (R10–R17, R23–R26, R543, R544). -/

namespace Sys2Proof.Machine

open Sys2Proof Sys2Proof.Machine.Reg

/-! ### Violations -/

/-- A violation's word in DGN_VIO_LAST. -/
def vioLast (cause init ctx addr : Nat) (write : Bool) : Nat := 2 ^ 63 + vioWord cause init ctx addr write

theorem vioLast_lt (cause init ctx addr : Nat) (write : Bool) : vioLast cause init ctx addr write < 2 ^ 64 := by
  unfold vioLast vioWord ofBool
  split <;> omega

/-- The fields of the record. -/
theorem bitsOf_vioLast {cause init : Nat} (hc : cause < 8) (hi : init < 8) (ctx addr : Nat) (write : Bool) :
    bitsOf (vioLast cause init ctx addr write) 63 63 = 1 ∧ bitsOf (vioLast cause init ctx addr write) 61 56 = ctx % 64 ∧
      bitsOf (vioLast cause init ctx addr write) 54 52 = init ∧
      bitsOf (vioLast cause init ctx addr write) 51 51 = ofBool write ∧
      bitsOf (vioLast cause init ctx addr write) 50 48 = cause ∧
      bitsOf (vioLast cause init ctx addr write) 47 0 = addr % 2 ^ 48 := by
  have hone : ofBool write < 2 := by cases write <;> decide
  unfold bitsOf vioLast vioWord
  simp only [Nat.shiftRight_eq_div_pow]
  omega

/-- The counts of a violation. -/
def vioCounted (s : State) (cause : Nat) : State := (s.count (DGN_VIO_CNT_VALUE cause) 1).count DGN_VIO_TOTAL_VALUE 1

/-- The record of a violation. -/
def vioRecorded (s : State) (w : Nat) : State := { s.wr DGN_VIO_LAST (BitVec.ofNat 64 w) with vioAt := some s.cyc }

/-- The first violation of a cycle. -/
theorem violation_first {s : State} (h : s.vioAt ≠ some s.cyc) (cause init ctx addr : Nat) (write : Bool) :
    s.violation cause init ctx addr write =
      (vioRecorded (vioCounted s cause) (vioLast cause init ctx addr write)).setOn DGN_EVT_VIO := by
  have hkeeps : vioKeeps (vioCounted s cause) init addr = false := by
    have hne : ((vioCounted s cause).vioAt == some (vioCounted s cause).cyc) = false := beq_eq_false_iff_ne.mpr h
    rw [vioKeeps, hne]
    rfl
  show State.setOn (if vioKeeps (vioCounted s cause) init addr then _ else _) _ = _
  rw [if_neg (by simp [hkeeps])]
  rfl

theorem get_vioRecorded_other (s : State) (w : Nat) {f : Fld} (h : f.addr ≠ DGN_VIO_LAST) : (vioRecorded s w).get f = s.get f :=
  State.get_wr_ne h _

theorem get_vioRecorded_last (s : State) {w : Nat} (hw : w < 2 ^ 64) (hi lo : Nat) :
    (vioRecorded s w).get ⟨DGN_VIO_LAST, hi, lo⟩ = bitsOf w hi lo := by
  show bitsOf ((s.wr DGN_VIO_LAST (BitVec.ofNat 64 w)).rd DGN_VIO_LAST).toNat hi lo = _
  rw [State.rd_wr_same, State.toNat_ofNat_rd hw]

theorem Effect.vioRecorded {regs : List Nat} {parts : List Part} {s t : State} (h : Effect regs parts s t) (w : Nat)
    (hr : DGN_VIO_LAST ∈ regs) (hp : Part.vio ∈ parts) : Effect regs parts s (vioRecorded t w) :=
  (h.wr _ hr).components rfl fun p hq => by
    cases p
    case vio => exact absurd hp hq
    all_goals simp [Keeps, Machine.vioRecorded]

theorem effect_violation {parts : List Part} (hp : Part.vio ∈ parts) {s : State} (h : s.vioAt ≠ some s.cyc)
    (cause init ctx addr : Nat) (write : Bool) :
    Effect [DGN_CNT_MERGE, DGN_EVT, DGN_VIO_CNT cause, DGN_VIO_TOTAL, DGN_VIO_LAST] parts s
      (s.violation cause init ctx addr write) := by
  rw [violation_first h]
  exact ((((Effect.refl s).count 1 (by simp [DGN_VIO_CNT_VALUE])).count 1 (by simp [DGN_VIO_TOTAL_VALUE])).vioRecorded _
    (by simp) hp).setOn (by simp [DGN_EVT_VIO])

/-- A counted violation in the settled state, where the command's own effect touches no register of the diagnosis. -/
theorem countedViolation_of_settled {s u t : State} {c addr : Nat} {who : Initiator} {write : Bool} {parts : List Part}
    (hvio : s.vioAt ≠ some s.cyc) (hc : c < 7)
    (heff : Effect [] parts (s.violation c (initCode who) (ctxOf s who) addr write) u) (hs : Settled s.fuses s u t)
    (hev : EventsKept u t) : CountedViolation c who addr write parts s t := by
  have hcnt : DGN_VIO_CNT c ≠ DGN_CNT_MERGE ∧ DGN_VIO_CNT c ≠ DGN_EVT ∧ DGN_VIO_CNT c ≠ DGN_VIO_LAST ∧
      DGN_VIO_CNT c ≠ DGN_VIO_TOTAL := by
    unfold DGN_VIO_CNT DGN_CNT_MERGE DGN_EVT DGN_VIO_LAST DGN_VIO_TOTAL
    omega
  obtain ⟨h1, h2, h3, h4⟩ := hcnt
  have hviol := violation_first hvio c (initCode who) (ctxOf s who) addr write
  have hget (f : Fld) (hm : f.addr ≠ DGN_CNT_MERGE) (he : f.addr ≠ DGN_EVT) : t.get f =
      (vioRecorded (vioCounted s c) (vioLast c (initCode who) (ctxOf s who) addr write)).get f := by
    rw [hs.get f hm he, heff.get List.not_mem_nil, hviol, State.get_setOn_apart (.inl he)]
  have hlast (hi lo : Nat) : t.get ⟨DGN_VIO_LAST, hi, lo⟩ =
      bitsOf (vioLast c (initCode who) (ctxOf s who) addr write) hi lo :=
    (hget _ (show DGN_VIO_LAST ≠ _ by decide) (show DGN_VIO_LAST ≠ _ by decide)).trans (get_vioRecorded_last _ (vioLast_lt ..) hi lo)
  have hinit : initCode who < 8 := by cases who <;> simp [initCode]
  obtain ⟨hvalid, hctx, hini, hwrite, hcause, haddr⟩ :=
    bitsOf_vioLast (Nat.lt_of_lt_of_le hc (by decide)) hinit (ctxOf s who) addr write
  exact
    { count := by
        rw [hget _ h1 h2, get_vioRecorded_other _ _ h3]
        exact (State.get_count_apart (.inl h4) 1).trans (State.get_count_self (show 0 ≤ 31 ∧ 31 < 64 by decide) 1)
      total := by
        rw [hget _ (by decide) (by decide), get_vioRecorded_other _ _ (by decide)]
        refine (State.get_count_self (show 0 ≤ 31 ∧ 31 < 64 by decide) 1).trans ?_
        rw [State.get_count_apart (.inl (Ne.symm h4))]
        rfl
      valid := State.on_eq_true_iff.mpr ((hlast 63 63).trans hvalid)
      ctx := (hlast 61 56).trans hctx
      init := (hlast 54 52).trans hini
      isWrite := by
        rw [State.on, show t.get DGN_VIO_LAST_WRITE = ofBool write from (hlast 51 51).trans hwrite]
        cases write <;> rfl
      cause := (hlast 50 48).trans hcause
      addr := (hlast 47 0).trans haddr
      event := by
        rw [hev.on rfl (by decide), heff.on List.not_mem_nil, hviol, State.on_eq_true_iff, State.get_setOn (by decide)]
      frame := hs.changesOnly_pulsed ((effect_violation (by simp) hvio ..).trans (heff.mono (by simp) (by simp))) }

/-! ### Accepted writes -/

/-- An access to a lower half or a 32-bit register names the register at its base. -/
theorem regAt_of_regHit {s : State} {who : Initiator} {a : Nat} {h : RegHit} (hh : regHit s who a = some h)
    (hup : h.upper = false) : regAt h.base = some (h.desc, h.idx, false) := by
  unfold regHit at hh
  split at hh
  · exact nomatch hh
  · split at hh
    · exact nomatch hh
    · split at hh
      next hat =>
        obtain rfl := Option.some.inj hh
        obtain rfl := hup
        exact hat
      · exact nomatch hh

theorem ethFixed_hooked : ∀ k, k < 4 → (regAt (FLD_ETH_CTL 0 + k * 0x100)).map (·.1.base) = some (FLD_ETH_CTL 0) := by decide

theorem ethHook_isSome : (hookRows.find? fun r => r.1 = FLD_ETH_CTL 0).isSome = true := rfl

/-- The registers with fixed bits have a hook. -/
theorem not_ethFixed_of_noHook {a : Nat} {d : RegDesc} {is : List Nat} (hat : regAt a = some (d, is, false))
    (hhook : (hookRows.find? fun r => r.1 = d.base) = none) : ¬ ethFixed a := by
  rintro ⟨hlo, hhi, hmod⟩
  have hk : (a - FLD_ETH_CTL 0) / 0x100 < 4 := by
    unfold FLD_ETH_CTL at *
    omega
  have hbase := ethFixed_hooked _ hk
  have ha : FLD_ETH_CTL 0 + (a - FLD_ETH_CTL 0) / 0x100 * 0x100 = a := by omega
  rw [ha, hat] at hbase
  have hd : d.base = FLD_ETH_CTL 0 := Option.some.inj hbase
  have hsome := ethHook_isSome
  rw [← hd, hhook] at hsome
  exact nomatch hsome

/-- The merge count takes no write. -/
theorem ne_merge_of_valueCauses {s : State} {h : RegHit} {v : Nat} (hat : regAt h.base = some (h.desc, h.idx, false))
    (hval : valueCauses s h v = []) : h.base ≠ DGN_CNT_MERGE := by
  intro hbase
  have hrow : regAt DGN_CNT_MERGE =
      some (⟨"DGN_CNT_MERGE", 0x10000f000018, [], 32, 0x0, [⟨31, 0, .ro⟩], none, none⟩, [], false) := by decide
  rw [hbase, hrow] at hat
  have hdesc := (Prod.mk.inj (Option.some.inj hat)).1
  have hro : allRo s h = true := by
    unfold allRo
    rw [← hdesc]
    rfl
  simp [valueCauses, hro] at hval

/-- The state in which a whole write is stored: a held half of the initiator is gone where the register has 64 bits. -/
def writeState (s : State) (who : Initiator) (d : RegDesc) : State := if d.width = 32 then s else dropHold s who

theorem effect_writeState {parts : List Part} (hp : Part.halves ∈ parts) (s : State) (who : Initiator) (d : RegDesc) :
    Effect [] parts s (writeState s who d) :=
  Effect.ite (fun _ => Effect.refl s) fun _ => (Effect.refl s).dropHold who hp

theorem rd_writeState (s : State) (who : Initiator) (d : RegDesc) (a : Nat) : (writeState s who d).rd a = s.rd a := by
  unfold writeState
  split <;> rfl

theorem fresh_writeState (s : State) (who : Initiator) (d : RegDesc) (a : Nat) :
    (writeState s who d).freshBits a = s.freshBits a := by
  unfold writeState
  split <;> rfl

theorem valueCauses_writeState (s : State) (who : Initiator) (d : RegDesc) (h : RegHit) (v : Nat) :
    valueCauses (writeState s who d) h v = valueCauses s h v := by
  unfold writeState
  split <;> rfl

/-- A field is written alike where the registers and the held copy read alike. -/
theorem FieldWritten.congr {s s' u t : State} {a v : Nat} {f : FieldDesc} (h : FieldWritten s' u a v f)
    (hold : s'.rd a = s.rd a) (hfresh : s'.freshBits a = s.freshBits a) (hnew : t.rd a = u.rd a)
    (hheld : t.heldRd a = u.heldRd a) : FieldWritten s t a v f := by
  unfold FieldWritten at h ⊢
  split at h <;> simp only [State.get, State.heldGet, hold, hfresh, ← hnew, ← hheld] at h ⊢ <;> assumption

/-- What an accepted write of a register without a hook leaves. -/
theorem regWrite_noHook {s : State} {who : Initiator} {a v : Nat} {h : RegHit} (hh : regHit s who a = some h)
    (ok : WriteOk s who a v) (hhook : (hookRows.find? fun r => r.1 = h.desc.base) = none)
    (hw : h.desc.width = 32 ∨ h.desc.width = 64) :
    regWrite s who a (h.desc.width / 8) v = regStored (writeState s who h.desc) h.desc h.base v := by
  rw [WriteOk, hh] at ok
  simp only [Bool.and_eq_true, List.isEmpty_iff, Bool.not_eq_true', decide_eq_true_eq] at ok
  obtain ⟨⟨⟨hacc, hval⟩, hup⟩, hlt⟩ := ok
  have hd := inOrder_of_regHit hh
  have hlt64 : v < 2 ^ 64 := Nat.lt_of_lt_of_le hlt (Nat.pow_le_pow_right (by omega) (by omega))
  have hbroken := staticBroken_of_valueCauses ((valueCauses_writeState s who h.desc h v).trans hval)
  rw [regWrite_of_ok hh hw hlt hacc hval]
  refine (storeWrite_stored (up := h.upper) (fields_lt_of_inOrder hd) (w1c_static_of_inOrder hd)
    (not_ethFixed_of_noHook (regAt_of_regHit hh hup) hhook) hlt64 hbroken).trans ?_
  exact afterWrite_none hhook ..

theorem completes_write_noHook {s : State} {who : Initiator} {a : Nat} {v : Word64} {h : RegHit} (hon : s.powered)
    (hh : regHit s who a = some h) (ok : WriteOk s who a v.toNat)
    (hhook : (hookRows.find? fun r => r.1 = h.desc.base) = none) (hevt : h.base ≠ DGN_EVT)
    (hw : h.desc.width = 32 ∨ h.desc.width = 64) :
    Completes (.registerWrite who a (h.desc.width / 8) v) s fun t =>
      (∀ f ∈ h.desc.fields, FieldWritten s t h.base v.toNat f) ∧ ChangesOnly [h.base] [.held, .halves] s t := by
  have hval : valueCauses s h v.toNat = [] ∧ h.upper = false := by
    rw [WriteOk, hh] at ok
    simp only [Bool.and_eq_true, List.isEmpty_iff, Bool.not_eq_true', decide_eq_true_eq] at ok
    exact ⟨ok.1.1.2, ok.1.2⟩
  have hmerge := ne_merge_of_valueCauses (regAt_of_regHit hh hval.2) hval.1
  refine completes_of_settled (congrArg (finish s) (regWrite_noHook hh ok hhook hw)) hon fun t hs => ⟨fun f hf => ?_, ?_⟩
  · exact (fieldWritten_regStored (inOrder_of_regHit hh) v.isLt hf).congr (rd_writeState ..) (fresh_writeState ..)
      (hs.rd _ hmerge hevt) (by rw [State.heldRd, State.heldRd, hs.heldRegs])
  · exact hs.changesOnly (((effect_writeState (by simp) s who h.desc).mono (List.nil_subset _) (List.Subset.refl _)).trans
      ((effect_regStored _ h.desc h.base v.toNat).mono (List.Subset.refl _) (by simp)))

/-! ### Refused writes -/

theorem completes_write_reserved {s : State} {who : Initiator} {a size : Nat} {v : Word64} (hon : s.powered)
    (hvio : s.vioAt ≠ some s.cyc) (hh : regHit s who a = none) :
    Completes (.registerWrite who a size v) s (CountedViolation 0 who a true [] s) := by
  have hwrite : regWrite s who a size v.toNat = s.violation 0 (initCode who) (ctxOf s who) a true := by
    unfold regWrite
    rw [hh]
    rfl
  exact completes_of_settled_events (congrArg (finish s) hwrite) hon fun t hs hev =>
    countedViolation_of_settled hvio (by decide) (Effect.refl _) hs hev

/-- The lowest of the causes met. -/
theorem foldl_min_eq {c0 c : Nat} {rest : List Nat} (hmem : c ∈ c0 :: rest) (hle : ∀ d ∈ c0 :: rest, c ≤ d) :
    rest.foldl min c0 = c := by
  have hlow : ∀ (xs : List Nat) (m : Nat), c ≤ m → (∀ d ∈ xs, c ≤ d) → c ≤ xs.foldl min m := by
    intro xs
    induction xs with
    | nil => exact fun m hm _ => hm
    | cons x xs ih =>
      intro m hm hxs
      exact ih _ (Nat.le_min.mpr ⟨hm, hxs x (by simp)⟩) fun d hd => hxs d (by simp [hd])
  have hhigh : ∀ (xs : List Nat) (m : Nat), (c = m ∨ c ∈ xs) → xs.foldl min m ≤ c := by
    intro xs
    induction xs with
    | nil => exact fun m h => (h.resolve_right List.not_mem_nil) ▸ Nat.le_refl _
    | cons x xs ih =>
      intro m h
      by_cases hx : c ∈ xs
      · exact ih _ (.inr hx)
      · have hmin : (min m x) ≤ c := by
          rcases h with rfl | h
          · exact Nat.min_le_left ..
          · rcases List.mem_cons.mp h with rfl | h
            · exact Nat.min_le_right ..
            · exact absurd h hx
        have hfold : ∀ (ys : List Nat) (k : Nat), ys.foldl min k ≤ k := by
          intro ys
          induction ys with
          | nil => exact fun k => Nat.le_refl _
          | cons y ys ihy => exact fun k => (ihy _).trans (Nat.min_le_left ..)
        exact (hfold xs _).trans hmin
  exact Nat.le_antisymm (hhigh rest c0 (List.mem_cons.mp hmem)) (hlow rest c0 (hle c0 (by simp)) fun d hd => hle d (by simp [hd]))

theorem regViolation_lowest {s : State} {who : Initiator} {a c : Nat} {write : Bool} {cs : List Nat} (hmem : c ∈ cs)
    (hle : ∀ d ∈ cs, c ≤ d) : regViolation s who a write cs = s.violation c (initCode who) (ctxOf s who) a write := by
  cases cs with
  | nil => exact nomatch hmem
  | cons c0 rest => rw [regViolation, foldl_min_eq hmem hle]

theorem ignoredWhole_lowest {c : Nat} {cs : List Nat} (hmem : c ∈ cs) (hle : ∀ d ∈ cs, c ≤ d) (h4 : c ≠ 4) :
    ignoredWhole cs = true := by
  cases cs with
  | nil => exact nomatch hmem
  | cons c0 rest =>
    rw [ignoredWhole, foldl_min_eq hmem hle]
    simpa using h4

theorem causes_lt {s : State} {who : Initiator} {h : RegHit} {a size v c : Nat} {w : Bool}
    (hmem : c ∈ accessCauses s who h a size w ++ valueCauses s h v) : 0 < c ∧ c < 7 := by
  simp only [accessCauses, valueCauses, List.mem_append] at hmem
  rcases hmem with ((h | h) | h) | ((h | h) | h) <;> split at h <;> simp_all

theorem writeWhole_ignored {s : State} {who : Initiator} {h : RegHit} {a v c : Nat} {cs : List Nat}
    (hmem : c ∈ cs ++ valueCauses s h v) (hle : ∀ d ∈ cs ++ valueCauses s h v, c ≤ d) (h4 : c ≠ 4) :
    writeWhole s who h a v cs = s.violation c (initCode who) (ctxOf s who) a true := by
  unfold writeWhole
  simp only
  rw [if_pos (ignoredWhole_lowest hmem hle h4), regViolation_lowest hmem hle]

/-- A write that meets a cause other than STATIC is ignored whole. -/
theorem regWrite_ignored {s : State} {who : Initiator} {a v c : Nat} {h : RegHit} (hh : regHit s who a = some h)
    (hw : h.desc.width = 32 ∨ h.desc.width = 64) (hv : v < 2 ^ h.desc.width)
    (hmem : c ∈ accessCauses s who h a (h.desc.width / 8) true ++ valueCauses s h v)
    (hle : ∀ d ∈ accessCauses s who h a (h.desc.width / 8) true ++ valueCauses s h v, c ≤ d) (h4 : c ≠ 4) :
    regWrite s who a (h.desc.width / 8) v = s.violation c (initCode who) (ctxOf s who) a true := by
  unfold regWrite
  rw [hh]
  simp only
  by_cases hform : formOk h a (h.desc.width / 8) = true
  · rcases hw with hw | hw
    · rw [hw] at hv hmem hle ⊢
      rw [if_pos (.inl rfl), Nat.mod_eq_of_lt hv]
      exact writeWhole_ignored hmem hle h4
    · rw [hw] at hv hmem hle hform ⊢
      rw [if_neg (by simp [hform]), if_pos (by decide), Nat.mod_eq_of_lt hv, if_pos (ignoredWhole_lowest hmem hle h4)]
      exact writeWhole_ignored hmem hle h4
  · have hone : ∀ x : Nat, 1 ∈ accessCauses s who h a (h.desc.width / 8) true ++ valueCauses s h x := by
      intro x
      simp [accessCauses, hform]
    have hc : c = 1 := by
      have h1 := hle 1 (hone v)
      have h0 := (causes_lt hmem).1
      omega
    subst hc
    rw [if_pos (.inr (by simpa using hform))]
    exact writeWhole_ignored (hone _) (fun d hd => (causes_lt hd).1) h4

theorem completes_write_ignored {s : State} {who : Initiator} {a c : Nat} {v : Word64} {h : RegHit} (hon : s.powered)
    (hvio : s.vioAt ≠ some s.cyc) (hh : regHit s who a = some h)
    (hw : h.desc.width = 32 ∨ h.desc.width = 64) (hv : v.toNat < 2 ^ h.desc.width)
    (hmem : c ∈ accessCauses s who h a (h.desc.width / 8) true ++ valueCauses s h v.toNat) (h4 : c ≠ 4)
    (hle : ∀ d ∈ accessCauses s who h a (h.desc.width / 8) true ++ valueCauses s h v.toNat, c ≤ d) :
    Completes (.registerWrite who a (h.desc.width / 8) v) s (CountedViolation c who a true [.halves] s) :=
  completes_of_settled_events (congrArg (finish s) (regWrite_ignored hh hw hv hmem hle h4)) hon fun _ hs hev =>
    countedViolation_of_settled hvio (causes_lt hmem).2 (Effect.refl _) hs hev

/-! ### Reads -/

theorem completes_read {s : State} {who : Initiator} {a : Nat} {h : RegHit} (hon : s.powered)
    (hh : regHit s who a = some h) (hup : h.upper = false)
    (ok : ReadOk s who a (h.desc.width / 8)) (hclaim : h.desc.base ≠ BLV_ICU_T_CLAIM 0) :
    Completes (.violatingRead who a (h.desc.width / 8)) s fun t =>
      t.bus = .value (BitVec.ofNat 64 (readValue s who h)) ∧ ChangesOnly [] [.bus, .halves, .harts] s t := by
  have hread : regRead s who a (h.desc.width / 8) = (afterRead s who h, readValue s who h) := by
    unfold regRead
    rw [hh]
    simp only
    rw [accessCauses_of_readOk ok hh, if_neg (by decide), if_neg hclaim, if_neg (by simp [hup]), if_neg (by omega)]
  have hexec : exec (.violatingRead who a (h.desc.width / 8)) s =
      finish s ((afterRead s who h).answer (.value (BitVec.ofNat 64 (readValue s who h)))) := by
    show finish s (readOnBus s who a (h.desc.width / 8)) = _
    rw [readOnBus, hread]
  exact completes_of_settled hexec hon fun t hs => ⟨hs.bus,
    hs.changesOnly ((effect_afterRead (by simp) (by simp) s who h).answer _ (by simp))⟩

theorem completes_read_violation {s : State} {who : Initiator} {a size c : Nat} (hon : s.powered) (hvio : s.vioAt ≠ some s.cyc)
    (hc : c < 7) (hread : regRead s who a size = (s.violation c (initCode who) (ctxOf s who) a false, 0)) :
    Completes (.violatingRead who a size) s fun t => t.bus = .value 0 ∧ CountedViolation c who a false [.bus] s t := by
  have hexec : exec (.violatingRead who a size) s =
      finish s ((s.violation c (initCode who) (ctxOf s who) a false).answer (.value 0)) := by
    show finish s (readOnBus s who a size) = _
    rw [readOnBus, hread]
    rfl
  exact completes_of_settled_events hexec hon fun t hs hev => ⟨hs.bus,
    countedViolation_of_settled hvio hc ((Effect.refl _).answer _ (by simp)) hs hev⟩

theorem regRead_reserved {s : State} {who : Initiator} {a : Nat} (hh : regHit s who a = none) (size : Nat) :
    regRead s who a size = (s.violation 0 (initCode who) (ctxOf s who) a false, 0) := by
  unfold regRead
  rw [hh]
  rfl

theorem regRead_violation {s : State} {who : Initiator} {a size c : Nat} {h : RegHit} (hh : regHit s who a = some h)
    (hmem : c ∈ accessCauses s who h a size false) (hle : ∀ d ∈ accessCauses s who h a size false, c ≤ d) :
    regRead s who a size = (s.violation c (initCode who) (ctxOf s who) a false, 0) := by
  have hne : (!(accessCauses s who h a size false).isEmpty) = true := by
    rw [Bool.not_eq_true', List.isEmpty_eq_false_iff]
    exact List.ne_nil_of_mem hmem
  unfold regRead
  rw [hh]
  simp only
  rw [if_pos hne, regViolation_lowest hmem hle]

/-- Settles O4: accepted writes give each field its value, refused accesses count their lowest cause, and reads return the
register's value. -/
theorem writesAndReadsOfRegisters : Obligations.WritesAndReadsOfRegisters := by
  refine ⟨fun s who a v h hon hh ok hhook hevt hw => completes_write_noHook hon hh ok hhook hevt hw,
    ⟨fun s who a size v hon hvio hh => completes_write_reserved hon hvio hh,
      fun s who a c v h hon hvio hh _ hw hv hmem h4 hle => completes_write_ignored hon hvio hh hw hv hmem h4 hle⟩,
    fun s who a h hon hh hup _ ok hclaim => completes_read hon hh hup ok hclaim,
    fun s who a size hon hvio hh => completes_read_violation hon hvio (by decide) (regRead_reserved hh size),
    fun s who a size c h hon hvio hh hmem hle => completes_read_violation hon hvio ?_ (regRead_violation hh hmem hle)⟩
  exact (causes_lt (v := 0) (List.mem_append_left _ hmem)).2

end Sys2Proof.Machine
end
section
/-! Enables, substitution, links and acyclic frames of a segment (R461, R463, R465, R466). -/

namespace Sys2Proof.Machine

open Sys2Proof Sys2Proof.Machine.Reg

def ecmCtlRow : RegDesc :=
  ⟨"FLD_ECM_CTL", 0x100009110000, [(4, 0x10000)], 32, 0x200, [⟨15, 8, .static⟩, ⟨6, 4, .static⟩, ⟨1, 1, .static⟩, ⟨0, 0, .live⟩],
    some (0x100009110000, 0x10000, 0), none⟩

def ecmStatRow : RegDesc :=
  ⟨"FLD_ECM_STAT", 0x100009110018, [(4, 0x10000)], 32, 0x0, [⟨23, 16, .ro⟩, ⟨6, 6, .ro⟩, ⟨5, 5, .ro⟩, ⟨4, 4, .ro⟩, ⟨3, 3, .ro⟩,
    ⟨2, 2, .ro⟩, ⟨1, 1, .w1c⟩, ⟨0, 0, .ro⟩], none, none⟩

def ecmAcycRow : RegDesc :=
  ⟨"FLD_ECM_ACYC", 0x100009110040, [(4, 0x10000)], 32, 0x0, [⟨19, 18, .ro⟩, ⟨17, 17, .ro⟩, ⟨16, 16, .wo⟩, ⟨10, 0, .live⟩], none, none⟩

theorem regAt_ecmCtl : ∀ g, g < 4 → regAt (FLD_ECM_CTL g) = some (ecmCtlRow, [g], false) := by decide

theorem regAt_ecmStat : ∀ g, g < 4 → regAt (FLD_ECM_STAT g) = some (ecmStatRow, [g], false) := by decide

theorem regAt_ecmAcyc : ∀ g, g < 4 → regAt (FLD_ECM_ACYC g) = some (ecmAcycRow, [g], false) := by decide

theorem plainRow_ecmCtl : ∀ g, g < 4 → PlainRow (FLD_ECM_CTL g) ecmCtlRow := by decide

theorem w1cRow_ecmStat : ∀ g, g < 4 → W1cRow (FLD_ECM_STAT g) ecmStatRow := by decide

theorem plainRow_ecmAcyc : ∀ g, g < 4 → PlainRow (FLD_ECM_ACYC g) ecmAcycRow := by decide

theorem ecmCtl_ne_ecmStat (g : Nat) : FLD_ECM_CTL g ≠ FLD_ECM_STAT g := by
  unfold FLD_ECM_CTL FLD_ECM_STAT
  omega

/-- The registers of a segment's controls, status, acyclic frame, counts and events do not settle. -/
theorem ecm_settles {g a : Nat} (hg : g < 4) (ha : a < FLD_ECM_CTL (g + 1)) : a ≠ DGN_CNT_MERGE ∧ a ≠ DGN_EVT := by
  refine segment_settles ?_
  unfold FLD_ECM_CTL at ha
  unfold DGN_EPOCH
  omega

section

variable {s : State} {g : Nat} (hon : s.powered) (hg : g < 4)
include hon hg

/-! ### The enable (R461) -/

omit hon hg in
theorem ecmMapLo_ne_ecmCtl (g m : Nat) {e : Nat} (he : e < 256) : FLD_ECM_MAP_LO m e ≠ FLD_ECM_CTL g := by
  unfold FLD_ECM_MAP_LO FLD_ECM_CTL
  omega

omit hon hg in
/-- What the map entries say where only a segment's controls differ. -/
theorem get_ecmMapLo {t : State} (h : ∀ a, a ≠ FLD_ECM_CTL g → t.rd a = s.rd a) (m : Nat) {e hi lo : Nat} (he : e < 256) :
    t.get ⟨FLD_ECM_MAP_LO m e, hi, lo⟩ = s.get ⟨FLD_ECM_MAP_LO m e, hi, lo⟩ := by
  rw [State.get, State.get, h _ (ecmMapLo_ne_ecmCtl g m he)]

omit hon hg in
theorem entryBeyond_congr {t : State} (h : ∀ a, a ≠ FLD_ECM_CTL g → t.rd a = s.rd a) {e : Nat} (he : e < 256) :
    entryBeyond t g e = entryBeyond s g e := by
  have hflen : t.get (FLD_ECM_FLEN_BYTES g) = s.get (FLD_ECM_FLEN_BYTES g) := by
    rw [State.get, State.get, h (FLD_ECM_FLEN_BYTES g).addr (by simp [FLD_ECM_FLEN_BYTES, FLD_ECM_FLEN, FLD_ECM_CTL])]
  rw [entryBeyond, entryBeyond, State.on_congr (f := FLD_ECM_MAP_LO_VALID g e) (get_ecmMapLo h g he), hflen,
    show t.get (FLD_ECM_MAP_LO_OFS g e) = _ from get_ecmMapLo h g he,
    show t.get (FLD_ECM_MAP_LO_TYPE g e) = _ from get_ecmMapLo h g he]
  rfl

omit hon hg in
theorem inputWords_congr {t : State} (h : ∀ a, a ≠ FLD_ECM_CTL g → t.rd a = s.rd a) (m : Nat) : inputWords t m = inputWords s m := by
  have hentries : entriesOf t m 0 = entriesOf s m 0 := List.filter_congr fun e he => by
    simp only [State.on, FLD_ECM_MAP_LO_VALID, FLD_ECM_MAP_LO_DIR, get_ecmMapLo h m (List.mem_range.mp he)]
  rw [inputWords, inputWords, hentries]
  exact List.map_congr_left fun e he => get_ecmMapLo h m (List.mem_range.mp (List.mem_filter.mp he).1)

omit hon hg in
/-- The check of a segment looks at no controls of its own. -/
theorem segEnableOk_congr {t : State} (h : ∀ a, a ≠ FLD_ECM_CTL g → t.rd a = s.rd a) : segEnableOk t g = segEnableOk s g := by
  have hfield (f : Fld) (hf : f.addr ≠ FLD_ECM_CTL g) : t.get f = s.get f := by rw [State.get, State.get, h _ hf]
  have hbeyond : ((List.range 256).all fun e => !entryBeyond t g e) = (List.range 256).all fun e => !entryBeyond s g e := by
    rw [Bool.eq_iff_iff, List.all_eq_true, List.all_eq_true]
    exact forall₂_congr fun e he => by rw [entryBeyond_congr h (List.mem_range.mp he)]
  have hshared : ((List.range 4).all fun m => m == g || !t.on (FLD_ECM_CTL_ENABLE m) ||
      (inputWords t m).all fun w => !(inputWords t g).contains w) =
      (List.range 4).all fun m => m == g || !s.on (FLD_ECM_CTL_ENABLE m) ||
        (inputWords s m).all fun w => !(inputWords s g).contains w := by
    congr 1
    funext m
    rw [inputWords_congr h m, inputWords_congr h g]
    by_cases hm : m = g
    · simp [hm]
    · rw [State.on_congr (hfield (FLD_ECM_CTL_ENABLE m) (by simp [FLD_ECM_CTL_ENABLE, FLD_ECM_CTL, hm]))]
  unfold segEnableOk
  rw [hbeyond, hshared, hfield (FLD_ECM_TIMING_TXOFS g) (by simp [FLD_ECM_TIMING_TXOFS, FLD_ECM_TIMING, FLD_ECM_CTL]),
    hfield (FLD_ECM_FLEN_BYTES g) (by simp [FLD_ECM_FLEN_BYTES, FLD_ECM_FLEN, FLD_ECM_CTL]),
    hfield (FLD_ECM_RTD_NS g) (by simp [FLD_ECM_RTD_NS, FLD_ECM_RTD, FLD_ECM_CTL]),
    hfield (FLD_ECM_TIMING_DEADLINE g) (by simp [FLD_ECM_TIMING_DEADLINE, FLD_ECM_TIMING, FLD_ECM_CTL])]

omit hon hg in
/-- The controls of a segment as a write leaves them. -/
def ecmCtlStored (s : State) (g v : Nat) : State :=
  s.wr (FLD_ECM_CTL g) (BitVec.ofNat 64 (mergeBits (rwMask ecmCtlRow) (s.rd (FLD_ECM_CTL g)).toNat v))

omit hon hg in
theorem rd_ecmCtlStored {a : Nat} (h : a ≠ FLD_ECM_CTL g) (v : Nat) : (ecmCtlStored s g v).rd a = s.rd a :=
  State.rd_wr_ne _ _ _ _ h

omit hon hg in
theorem enable_ecmCtlStored {v : Nat} (hv : v < 2 ^ 64) : (ecmCtlStored s g v).get (FLD_ECM_CTL_ENABLE g) = v % 2 :=
  (State.get_wr_merge_in (f := FLD_ECM_CTL_ENABLE g) (by decide) (show 0 < 64 by decide) hv
    (show bitsOf (rwMask ecmCtlRow) 0 0 = 1 by decide)).trans (bitsOf_zero_zero v)

omit hon hg in
theorem effect_ecmCtlStored (v : Nat) : Effect [FLD_ECM_CTL g, FLD_ECM_STAT g] [.segs] s (ecmCtlStored s g v) :=
  (Effect.refl s).wr _ (by simp)

omit hon hg in
/-- A segment whose check is good starts to run. -/
def segStarted (s : State) (g : Nat) : State :=
  ((s.setOff (FLD_ECM_STAT_CFGERR g)).setOn (FLD_ECM_STAT_RUN g)).setSeg g { segOf s g with cyc := none, sent := [] }

omit hon hg in
/-- A segment whose check fails stays disabled. -/
def segRefused (s : State) (g : Nat) : State := (s.put (FLD_ECM_CTL_ENABLE g) 0).setOn (FLD_ECM_STAT_CFGERR g)

omit hon hg in
/-- A disabled segment stops. -/
def segStopped (s : State) (g : Nat) : State := (s.setOff (FLD_ECM_STAT_RUN g)).setSeg g { segOf s g with cyc := none }

section

variable {who : Initiator} {v : Word64} (ok : WriteOk s who (FLD_ECM_CTL g) v.toNat)
include ok

omit hon in
theorem writeReg_ecmCtl : writeReg s who (FLD_ECM_CTL g) v.toNat =
    ecmEnableWritten g ((s.rd (FLD_ECM_CTL g)).toNat % 2) (v.toNat % 2) (ecmCtlStored s g v.toNat) :=
  writeReg_plain ok (regAt_ecmCtl g hg) (plainRow_ecmCtl g hg)

theorem completes_ecmEnable_on (hoff : s.on (FLD_ECM_CTL_ENABLE g) = false) (hv : v.toNat % 2 = 1) :
    Completes (.ecmEnable who g v) s fun t =>
      t.on (FLD_ECM_CTL_ENABLE g) = segEnableOk s g ∧ t.on (FLD_ECM_STAT_CFGERR g) = !segEnableOk s g ∧
      (segEnableOk s g = true → t.on (FLD_ECM_STAT_RUN g) = true ∧ (segOf t g).cyc = none ∧
        (segOf t g).last = (segOf s g).last ∧ (segOf t g).sent = []) ∧ (∀ m, m ≠ g → segOf t m = segOf s m) ∧
      ChangesOnly [FLD_ECM_CTL g, FLD_ECM_STAT g] [.segs] s t := by
  have hwrite : writeReg s who (FLD_ECM_CTL g) v.toNat = if segEnableOk s g then segStarted (ecmCtlStored s g v.toNat) g else
      segRefused (ecmCtlStored s g v.toNat) g := by
    rw [writeReg_ecmCtl hg ok, ecmEnableWritten, if_pos ⟨State.mod_two_of_off rfl rfl hoff, hv⟩,
      segEnableOk_congr fun a ha => rd_ecmCtlStored ha v.toNat]
    rfl
  obtain ⟨hc1, hc2⟩ := ecm_settles (a := FLD_ECM_CTL g) hg (by simp [FLD_ECM_CTL])
  obtain ⟨hs1, hs2⟩ := ecm_settles (a := FLD_ECM_STAT g) hg (by unfold FLD_ECM_STAT FLD_ECM_CTL; omega)
  have hstored := effect_ecmCtlStored (s := s) (g := g) v.toNat
  have henable := enable_ecmCtlStored (s := s) (g := g) v.isLt
  have hseg (m : Nat) : segOf (ecmCtlStored s g v.toNat) m = segOf s m := rfl
  generalize ecmCtlStored s g v.toNat = u at hwrite hstored henable hseg
  have hexec : exec (.ecmEnable who g v) s = _ := congrArg (finish s) hwrite
  cases hok : segEnableOk s g with
  | true =>
    rw [hok, if_pos rfl] at hexec
    refine completes_of_settled hexec hon fun t hs => ⟨?_, ?_, fun _ => ⟨?_, ?_, ?_, ?_⟩, fun m hm => ?_,
      hs.changesOnly (((hstored.setOff (by simp [FLD_ECM_STAT_CFGERR])).setOn (by simp [FLD_ECM_STAT_RUN])).setSeg (by simp) _ _)⟩
    · rw [hs.on _ hc1 hc2, State.on_eq_true_iff, segStarted, get_setSeg,
        State.get_setOn_apart (.inl (ecmCtl_ne_ecmStat g)), State.get_setOff_apart (.inl (ecmCtl_ne_ecmStat g)), henable, hv]
    · have hget : (segStarted u g).get (FLD_ECM_STAT_CFGERR g) = 0 := by
        rw [segStarted, get_setSeg, State.get_setOn_apart (.inr (show 0 ≤ 0 ∧ 0 < 64 ∧ (6 < 0 ∨ 0 < 6) by decide))]
        exact State.get_setOff (show 6 ≤ 6 ∧ 6 < 64 by decide)
      rw [hs.on _ hs1 hs2, State.on, hget]
      rfl
    · rw [hs.on _ hs1 hs2, State.on_eq_true_iff]
      exact State.get_setOn (show 0 ≤ 0 ∧ 0 < 64 by decide)
    all_goals rw [hs.segOf, segStarted]
    · rw [segOf_setSeg_same]
    · rw [segOf_setSeg_same, hseg]
    · rw [segOf_setSeg_same]
    · rw [segOf_setSeg_ne _ _ hm]
      exact hseg m
  | false =>
    rw [hok, if_neg (by simp)] at hexec
    refine completes_of_settled hexec hon fun t hs => ⟨?_, ?_, fun h => absurd h (by simp), fun m hm => ?_,
      hs.changesOnly ((hstored.put _ (by simp [FLD_ECM_CTL_ENABLE])).setOn (by simp [FLD_ECM_STAT_CFGERR]))⟩
    · have hget : (segRefused u g).get (FLD_ECM_CTL_ENABLE g) = 0 := by
        rw [segRefused, State.get_setOn_apart (.inl (ecmCtl_ne_ecmStat g))]
        exact State.get_put_of_lt (show 0 ≤ 0 ∧ 0 < 64 by decide) (Nat.two_pow_pos _)
      rw [hs.on _ hc1 hc2, State.on, hget]
      rfl
    · rw [hs.on _ hs1 hs2, Bool.not_false, State.on_eq_true_iff]
      exact State.get_setOn (show 6 ≤ 6 ∧ 6 < 64 by decide)
    · rw [hs.segOf]
      exact hseg m

theorem completes_ecmEnable_off (hrun : s.on (FLD_ECM_CTL_ENABLE g) = true) (hv : v.toNat % 2 = 0) :
    Completes (.ecmEnable who g v) s fun t =>
      t.on (FLD_ECM_CTL_ENABLE g) = false ∧ t.on (FLD_ECM_STAT_RUN g) = false ∧ (segOf t g).cyc = none ∧
      (∀ m, m ≠ g → segOf t m = segOf s m) ∧ ChangesOnly [FLD_ECM_CTL g, FLD_ECM_STAT g] [.segs] s t := by
  have hwrite : writeReg s who (FLD_ECM_CTL g) v.toNat = segStopped (ecmCtlStored s g v.toNat) g := by
    rw [writeReg_ecmCtl hg ok, ecmEnableWritten, if_neg (by omega), if_pos ⟨State.mod_two_of_on rfl rfl hrun, hv⟩]
    rfl
  obtain ⟨hc1, hc2⟩ := ecm_settles (a := FLD_ECM_CTL g) hg (by simp [FLD_ECM_CTL])
  obtain ⟨hs1, hs2⟩ := ecm_settles (a := FLD_ECM_STAT g) hg (by unfold FLD_ECM_STAT FLD_ECM_CTL; omega)
  have hstored := effect_ecmCtlStored (s := s) (g := g) v.toNat
  have henable := enable_ecmCtlStored (s := s) (g := g) v.isLt
  have hseg (m : Nat) : segOf (ecmCtlStored s g v.toNat) m = segOf s m := rfl
  generalize ecmCtlStored s g v.toNat = u at hwrite hstored henable hseg
  refine completes_of_settled (congrArg (finish s) hwrite) hon fun t hs => ⟨?_, ?_, ?_, fun m hm => ?_,
    hs.changesOnly ((hstored.setOff (by simp [FLD_ECM_STAT_RUN])).setSeg (by simp) _ _)⟩
  · have hget : (segStopped u g).get (FLD_ECM_CTL_ENABLE g) = 0 := by
      rw [segStopped, get_setSeg, State.get_setOff_apart (.inl (ecmCtl_ne_ecmStat g)), henable, hv]
    rw [hs.on _ hc1 hc2, State.on, hget]
    rfl
  · have hget : (segStopped u g).get (FLD_ECM_STAT_RUN g) = 0 := State.get_setOff (show 0 ≤ 0 ∧ 0 < 64 by decide)
    rw [hs.on _ hs1 hs2, State.on, hget]
    rfl
  · rw [hs.segOf, segStopped, segOf_setSeg_same]
  · rw [hs.segOf, segStopped, segOf_setSeg_ne _ _ hm]
    exact hseg m

end

/-! ### Substitution and links (R463, R465) -/

theorem completes_ecmSubstClear {who : Initiator} {v : Word64} (ok : WriteOk s who (FLD_ECM_STAT g) (v.toNat ||| 2))
    (hsub : s.on (FLD_ECM_STAT_SUBST g) = true) (hfresh : (s.freshBits (FLD_ECM_STAT g)).testBit 1 = false) :
    Completes (.ecmSubstClear who g v) s fun t => t.on (FLD_ECM_STAT_SUBST g) = false ∧
      t.get (FLD_ECM_STAT_BADRUN g) = 0 ∧ ChangesOnly [FLD_ECM_STAT g] [] s t := by
  have hold : (s.rd (FLD_ECM_STAT g)).toNat.testBit 1 = true :=
    State.testBit_rd_of_on (f := FLD_ECM_STAT_SUBST g) rfl hsub
  have hnew : (clearing ecmStatRow (s.freshBits (FLD_ECM_STAT g)) (v.toNat ||| 2)).testBit 1 = true := by
    rw [testBit_clearing (by decide) _ _ (by decide), hfresh, Nat.testBit_or, show Nat.testBit 2 1 = true from rfl]
    simp
  have hwrite := writeReg_w1c ok (regAt_ecmStat g hg) (w1cRow_ecmStat g hg)
  rw [show afterWrite ecmStatRow.base [g] _ _ _ = onIf (Nat.testBit _ 1 && Nat.testBit _ 1) (substCleared g) _ from rfl, hold, hnew]
    at hwrite
  obtain ⟨hs1, hs2⟩ := ecm_settles (a := FLD_ECM_STAT g) hg (by unfold FLD_ECM_STAT FLD_ECM_CTL; omega)
  refine completes_of_settled (congrArg (finish s) hwrite) hon fun t hs => ⟨?_, ?_, hs.changesOnly
    ((((Effect.refl s).wr _ (by simp)).setOff (by simp [FLD_ECM_STAT_SUBST])).put _ (by simp [FLD_ECM_STAT_BADRUN]))⟩
  · have hget : t.get (FLD_ECM_STAT_SUBST g) = 0 := by
      rw [hs.get _ hs1 hs2]
      refine (State.get_put_apart (.inr (show 16 ≤ 23 ∧ 23 < 64 ∧ (1 < 16 ∨ 23 < 1) by decide)) 0).trans ?_
      exact State.get_setOff (show 1 ≤ 1 ∧ 1 < 64 by decide)
    rw [State.on, hget]
    rfl
  · rw [hs.get _ hs1 hs2]
    exact State.get_put_of_lt (show 16 ≤ 23 ∧ 23 < 64 by decide) (Nat.two_pow_pos _)

omit hon hg in
/-- The link bit of a segment's port. -/
def linkFld (g port : Nat) : Fld := if port = 0 then FLD_ECM_STAT_LINKA g else FLD_ECM_STAT_LINKB g

omit hon hg in
theorem linkFld_stat (g port : Nat) : (linkFld g port).addr = FLD_ECM_STAT g ∧ ValidFld (linkFld g port) := by
  unfold linkFld
  split
  · exact ⟨rfl, show 4 ≤ 4 ∧ 4 < 64 by decide⟩
  · exact ⟨rfl, show 5 ≤ 5 ∧ 5 < 64 by decide⟩

omit hon hg in
/-- A link change shows; a loss is counted. -/
def linkChanged (s : State) (g port : Nat) (up : Bool) : State :=
  onIf (!up) (·.count (FLD_ECM_CNT_VALUE g 5) 1) ((s.put (linkFld g port) (ofBool up)).setOn (FLD_ECM_EVT_LINK g))

omit hon hg in
theorem get_linkChanged (s : State) (port : Nat) (up : Bool) {f : Fld} (hf : f.addr ≠ FLD_ECM_CNT g 5) :
    (linkChanged s g port up).get f = ((s.put (linkFld g port) (ofBool up)).setOn (FLD_ECM_EVT_LINK g)).get f := by
  cases up
  · exact State.get_count_apart (.inl hf) 1
  · rfl

omit hon in
theorem exec_ecmLinkChange {port : Nat} (hport : port < 2) {up : Bool} (hne : s.on (linkFld g port) ≠ up) :
    exec (.ecmLinkChange g port up) s = finish s (linkChanged s g port up) := by
  show execEcmLinkChange g port up s = _
  unfold execEcmLinkChange
  exact congrArg (finish s) (if_neg (by rw [← linkFld]; simp only [hne, or_false]; omega))

theorem completes_ecmLinkChange {port : Nat} (hport : port < 2) {up : Bool} (hne : s.on (linkFld g port) ≠ up) :
    Completes (.ecmLinkChange g port up) s fun t =>
      t.on (linkFld g port) = up ∧ t.on (FLD_ECM_EVT_LINK g) = true ∧
      (up = false → t.get (FLD_ECM_CNT_VALUE g 5) = satAdd 32 (s.get (FLD_ECM_CNT_VALUE g 5)) 1) ∧
      (up = true → t.get (FLD_ECM_CNT_VALUE g 5) = s.get (FLD_ECM_CNT_VALUE g 5)) ∧
      ChangesOnly [FLD_ECM_STAT g, FLD_ECM_EVT g, FLD_ECM_CNT g 5] [] s t := by
  obtain ⟨haddr, hvalid⟩ := linkFld_stat g port
  obtain ⟨hs1, hs2⟩ := ecm_settles (a := FLD_ECM_STAT g) hg (by unfold FLD_ECM_STAT FLD_ECM_CTL; omega)
  obtain ⟨he1, he2⟩ := ecm_settles (a := FLD_ECM_EVT g) hg (by unfold FLD_ECM_EVT FLD_ECM_CTL; omega)
  obtain ⟨hc1, hc2⟩ := ecm_settles (a := FLD_ECM_CNT g 5) hg (by unfold FLD_ECM_CNT FLD_ECM_CTL; omega)
  have hcnt : (FLD_ECM_CNT_VALUE g 5).addr ≠ (FLD_ECM_EVT_LINK g).addr := by
    simp [FLD_ECM_CNT_VALUE, FLD_ECM_CNT, FLD_ECM_EVT_LINK, FLD_ECM_EVT]
    omega
  have hcntStat : (FLD_ECM_CNT_VALUE g 5).addr ≠ (linkFld g port).addr := by
    rw [haddr]
    simp [FLD_ECM_CNT_VALUE, FLD_ECM_CNT, FLD_ECM_STAT]
    omega
  have hcount : ((s.put (linkFld g port) (ofBool up)).setOn (FLD_ECM_EVT_LINK g)).get (FLD_ECM_CNT_VALUE g 5) =
      s.get (FLD_ECM_CNT_VALUE g 5) := by
    rw [State.get_setOn_apart (.inl hcnt), State.get_put_apart (.inl hcntStat)]
  refine completes_of_settled (exec_ecmLinkChange hg hport hne) hon fun t hs => ⟨?_, ?_, fun hup => ?_, fun hup => ?_,
    hs.changesOnly ((((Effect.refl s).put _ (by rw [haddr]; simp)).setOn (by simp [FLD_ECM_EVT_LINK])).onIf fun _ =>
      (((Effect.refl s).put _ (by rw [haddr]; simp)).setOn (by simp [FLD_ECM_EVT_LINK])).count 1 (by simp [FLD_ECM_CNT_VALUE]))⟩
  · rw [hs.on _ (haddr ▸ hs1) (haddr ▸ hs2), State.on_congr (get_linkChanged s port up ?_),
      State.on_congr (State.get_setOn_apart (.inl ?_)), State.on_put_ofBool hvalid]
    · rw [haddr]
      simp [FLD_ECM_STAT, FLD_ECM_EVT_LINK, FLD_ECM_EVT]
    · rw [haddr]
      unfold FLD_ECM_STAT FLD_ECM_CNT
      omega
  · rw [hs.on _ he1 he2, State.on_eq_true_iff, get_linkChanged s port up (fun h => hcnt h.symm)]
    exact State.get_setOn (show 3 ≤ 3 ∧ 3 < 64 by decide)
  · subst hup
    rw [hs.get _ hc1 hc2, ← hcount]
    exact State.get_count_self (f := FLD_ECM_CNT_VALUE g 5) (show 0 ≤ 31 ∧ 31 < 64 by decide) 1
  · subst hup
    exact (hs.get _ hc1 hc2).trans hcount

/-! ### Acyclic frames (R466) -/

omit hon hg in
/-- The acyclic frame's register as a write leaves it. -/
def ecmAcycStored (s : State) (g v : Nat) : State :=
  s.wr (FLD_ECM_ACYC g) (BitVec.ofNat 64 (mergeBits (rwMask ecmAcycRow) (s.rd (FLD_ECM_ACYC g)).toNat v))

omit hon hg in
theorem len_ecmAcycStored {v : Nat} (hv : v < 2 ^ 64) : (ecmAcycStored s g v).get (FLD_ECM_ACYC_LEN g) = bitsOf v 10 0 :=
  State.get_wr_merge_in (f := FLD_ECM_ACYC_LEN g) (by decide) (show 10 < 64 by decide) hv
    (show bitsOf (rwMask ecmAcycRow) 10 0 = 2 ^ 11 - 1 by decide)

omit hon hg in
theorem busy_ecmAcycStored {v : Nat} (hv : v < 2 ^ 64) :
    (ecmAcycStored s g v).on (FLD_ECM_ACYC_BUSY g) = s.on (FLD_ECM_ACYC_BUSY g) :=
  State.on_congr (State.get_wr_merge_out (f := FLD_ECM_ACYC_BUSY g) (by decide) (show 17 < 64 by decide) hv
    (show bitsOf (rwMask ecmAcycRow) 17 17 = 0 by decide))

theorem completes_ecmAcyclicGo {who : Initiator} {v : Word64} (ok : WriteOk s who (FLD_ECM_ACYC g) (v.toNat ||| 0x10000))
    (hidle : s.on (FLD_ECM_ACYC_BUSY g) = false) :
    Completes (.ecmAcyclicGo who g v) s fun t => t.on (FLD_ECM_ACYC_BUSY g) = true ∧ t.get (FLD_ECM_ACYC_RESULT g) = 0 ∧
      t.get (FLD_ECM_ACYC_LEN g) = bitsOf v.toNat 10 0 ∧ (segOf t g).acycAt = none ∧ ChangesOnly [FLD_ECM_ACYC g] [.segs] s t := by
  have hlt := Nat.lt_trans (lt_of_writeOk ok (regAt_ecmAcyc g hg) (plainRow_ecmAcyc g hg)) (show 2 ^ 32 < 2 ^ 64 by decide)
  have hlen' : bitsOf (v.toNat ||| 0x10000) 10 0 = bitsOf v.toNat 10 0 := bitsOf_congr fun i _ hi => by
    rw [Nat.testBit_or, show (0x10000 : Nat) = 2 ^ 16 from rfl, Nat.testBit_two_pow]
    simp only [Bool.or_eq_left_iff_imp, decide_eq_true_eq]
    omega
  have hwrite : writeReg s who (FLD_ECM_ACYC g) (v.toNat ||| 0x10000) =
      onIf ((v.toNat ||| 0x10000).testBit 16) (acyclicGo g) (ecmAcycStored s g (v.toNat ||| 0x10000)) :=
    writeReg_plain ok (regAt_ecmAcyc g hg) (plainRow_ecmAcyc g hg)
  rw [Nat.testBit_or, show Nat.testBit 0x10000 16 = true from rfl, Bool.or_true] at hwrite
  have hstored : Effect [FLD_ECM_ACYC g] [.segs] s (ecmAcycStored s g (v.toNat ||| 0x10000)) := (Effect.refl s).wr _ (by simp)
  have hlen := (len_ecmAcycStored (s := s) (g := g) hlt).trans hlen'
  have hbusy := busy_ecmAcycStored (s := s) (g := g) hlt
  obtain ⟨ha1, ha2⟩ := ecm_settles (a := FLD_ECM_ACYC g) hg (by unfold FLD_ECM_ACYC FLD_ECM_CTL; omega)
  generalize ecmAcycStored s g (v.toNat ||| 0x10000) = u at hwrite hstored hlen hbusy
  rw [show onIf true (acyclicGo g) u = acyclicGo g u from rfl, acyclicGo, hbusy, hidle, if_neg (by simp)] at hwrite
  refine completes_of_settled (congrArg (finish s) hwrite) hon fun t hs => ⟨?_, ?_, ?_, ?_, hs.changesOnly
    (((hstored.setOn (by simp [FLD_ECM_ACYC_BUSY])).put _ (by simp [FLD_ECM_ACYC_RESULT])).setSeg (by simp) _ _)⟩
  · rw [hs.on _ ha1 ha2, State.on_eq_true_iff, get_setSeg,
      State.get_put_apart (.inr (show 18 ≤ 19 ∧ 19 < 64 ∧ (17 < 18 ∨ 19 < 17) by decide))]
    exact State.get_setOn (show 17 ≤ 17 ∧ 17 < 64 by decide)
  · rw [hs.get _ ha1 ha2]
    exact State.get_put_of_lt (show 18 ≤ 19 ∧ 19 < 64 by decide) (Nat.two_pow_pos _)
  · rw [hs.get _ ha1 ha2, get_setSeg, State.get_put_apart (.inr (show 18 ≤ 19 ∧ 19 < 64 ∧ (10 < 18 ∨ 19 < 0) by decide)),
      State.get_setOn_apart (.inr (show 17 ≤ 17 ∧ 17 < 64 ∧ (10 < 17 ∨ 17 < 0) by decide))]
    exact hlen
  · rw [hs.segOf, segOf_setSeg_same]

omit hg in
/-- An acyclic frame goes out between cycles, where it can return before the next one. -/
theorem completes_ecmAcyclicSend (hbusy : s.on (FLD_ECM_ACYC_BUSY g) = true) (hat : (segOf s g).acycAt = none)
    (hcyc : (segOf s g).cyc = none) (hroom : s.on (FLD_ECM_CTL_ENABLE g) = true → ∀ n, nextStart s g = some n →
      (s.get (FLD_ECM_ACYC_LEN g) + 20) * 80 + s.get (FLD_ECM_RTD_NS g) ≤ n + s.get (FLD_ECM_TIMING_TXOFS g)) :
    Completes (.ecmAcyclicSend g) s fun t => (segOf t g).acycAt = some s.cyc ∧
      (∃ l, t.outbox = s.outbox ++ (if s.on (FLD_ECM_STAT_LINKA g) then
        [.frame (segPort g false) (frameWords s (FLD_ECM_ACB g) (s.get (FLD_ECM_ACYC_LEN g)))] else []) ++ l) ∧
      ChangesOnly [] [.segs, .out] s t := by
  have hexec : exec (.ecmAcyclicSend g) s = finish s ((onIf (s.on (FLD_ECM_STAT_LINKA g)) (·.send (.frame (segPort g false)
      (frameWords s (FLD_ECM_ACB g) (s.get (FLD_ECM_ACYC_LEN g))))) s).setSeg g { segOf s g with acycAt := some s.cyc }) := by
    show execEcmAcyclicSend g s = _
    unfold execEcmAcyclicSend
    extract_lets x len back room bs s'
    have hr : room = true := by
      unfold room
      cases hen : s.on (FLD_ECM_CTL_ENABLE g) with
      | false => rfl
      | true =>
        cases hn : nextStart s g with
        | none => rfl
        | some n => exact decide_eq_true (hroom hen n hn)
    have hcyc' : (onIf (s.on (FLD_ECM_STAT_LINKA g)) (·.send (.frame (segPort g false) bs)) s).cyc = s.cyc := by
      cases s.on (FLD_ECM_STAT_LINKA g) <;> rfl
    rw [hr, hbusy, if_neg (by simp [x, hat, hcyc])]
    rw [hcyc']
  refine completes_of_settled hexec hon fun t hs => ⟨?_, ?_, hs.changesOnly
    (((Effect.refl s).onIf fun _ => (Effect.refl s).send _ (by simp)).setSeg (by simp) _ _)⟩
  · rw [hs.segOf, segOf_setSeg_same]
  · obtain ⟨l, hl, -⟩ := hs.out
    refine ⟨l, hl.trans (congrArg (· ++ l) ?_)⟩
    cases s.on (FLD_ECM_STAT_LINKA g)
    · exact (List.append_nil _).symm
    · rfl

omit hon in
/-- What the end of an acyclic frame shows, whatever came before. -/
theorem acyclicEnd_shows {u : State} {result : Nat} (hres : result < 4) {fs : Fuses} {t : State}
    (hs : Settled fs s (acyclicEnd u g result) t) : t.on (FLD_ECM_ACYC_BUSY g) = false ∧
      t.get (FLD_ECM_ACYC_RESULT g) = result ∧ t.on (FLD_ECM_EVT_ACYC g) = true ∧ (segOf t g).acycAt = none := by
  obtain ⟨ha1, ha2⟩ := ecm_settles (a := FLD_ECM_ACYC g) hg (by unfold FLD_ECM_ACYC FLD_ECM_CTL; omega)
  obtain ⟨he1, he2⟩ := ecm_settles (a := FLD_ECM_EVT g) hg (by unfold FLD_ECM_EVT FLD_ECM_CTL; omega)
  have hne : FLD_ECM_ACYC g ≠ FLD_ECM_EVT g := by simp [FLD_ECM_ACYC, FLD_ECM_EVT]
  have hbusy : (acyclicEnd u g result).get (FLD_ECM_ACYC_BUSY g) = 0 := by
    rw [acyclicEnd, get_setSeg, State.get_setOn_apart (.inl hne)]
    exact State.get_setOff (show 17 ≤ 17 ∧ 17 < 64 by decide)
  refine ⟨?_, ?_, ?_, ?_⟩
  · rw [hs.on _ ha1 ha2, State.on, hbusy]
    rfl
  · rw [hs.get _ ha1 ha2, acyclicEnd, get_setSeg, State.get_setOn_apart (.inl hne),
      State.get_setOff_apart (.inr (show 17 ≤ 17 ∧ 17 < 64 ∧ (19 < 17 ∨ 17 < 18) by decide))]
    exact State.get_put_of_lt (show 18 ≤ 19 ∧ 19 < 64 by decide) hres
  · rw [hs.on _ he1 he2, State.on_eq_true_iff]
    exact State.get_setOn (show 4 ≤ 4 ∧ 4 < 64 by decide)
  · rw [hs.segOf, acyclicEnd, segOf_setSeg_same]

omit hon hg in
theorem Effect.acyclicEnd {regs : List Nat} {parts : List Part} {s t : State} (h : Effect regs parts s t) {g : Nat}
    (ha : FLD_ECM_ACYC g ∈ regs) (he : FLD_ECM_EVT g ∈ regs) (hp : Part.segs ∈ parts) (result : Nat) :
    Effect regs parts s (acyclicEnd t g result) :=
  (((h.put _ ha).setOff ha).setOn he).setSeg hp _ _

omit hon hg in
theorem ecmAcb_inj (g : Nat) : ∀ i j, FLD_ECM_ACB g i = FLD_ECM_ACB g j → i = j := by
  unfold FLD_ECM_ACB
  omega

theorem completes_ecmAcyclicReturn {frame : List Byte} (hlen : frame.length ≤ 2048) (hbusy : s.on (FLD_ECM_ACYC_BUSY g) = true)
    (hat : (segOf s g).acycAt.isSome = true) :
    Completes (.ecmAcyclicReturn g frame) s fun t => t.on (FLD_ECM_ACYC_BUSY g) = false ∧ t.get (FLD_ECM_ACYC_RESULT g) = 1 ∧
      t.on (FLD_ECM_EVT_ACYC g) = true ∧ frameWords t (FLD_ECM_ACB g) frame.length = frame ∧ (segOf t g).acycAt = none ∧
      ChangesOnly (FLD_ECM_ACYC g :: FLD_ECM_EVT g :: each 256 (FLD_ECM_ACB g)) [.segs] s t := by
  have hexec : exec (.ecmAcyclicReturn g frame) s = finish s (acyclicEnd (putFrameWords s (FLD_ECM_ACB g) frame) g 1) := by
    show execEcmAcyclicReturn g frame s = _
    rw [execEcmAcyclicReturn, if_pos ⟨hbusy, hat⟩, List.take_of_length_le hlen]
  refine completes_of_settled hexec hon fun t hs => ?_
  obtain ⟨hidle, hres, hevt, hdone⟩ := acyclicEnd_shows hg (by decide) hs
  refine ⟨hidle, hres, hevt, ?_, hdone, hs.changesOnly (Effect.acyclicEnd (Effect.putFrameWords (Effect.refl s) fun i hi => ?_)
    (by simp) (by simp) (by simp) 1)⟩
  · refine (frameWords_congr fun i hi => ?_).trans (frameWords_putFrameWords (ecmAcb_inj g) s frame)
    obtain ⟨hb1, hb2⟩ := ecm_settles (a := FLD_ECM_ACB g i) hg (by unfold FLD_ECM_ACB FLD_ECM_CTL; omega)
    have hend : Effect [FLD_ECM_ACYC g, FLD_ECM_EVT g] [.segs] (putFrameWords s (FLD_ECM_ACB g) frame) _ :=
      Effect.acyclicEnd (Effect.refl _) (g := g) (by simp) (by simp) (by simp) 1
    rw [hs.rd _ hb1 hb2, hend.rd]
    simp only [List.mem_cons, List.not_mem_nil, or_false, FLD_ECM_ACB, FLD_ECM_ACYC, FLD_ECM_EVT]
    omega
  · exact List.mem_cons_of_mem _ (List.mem_cons_of_mem _ (mem_each (by omega)))

theorem completes_ecmAcyclicTimeout {at_ : Nat} (hbusy : s.on (FLD_ECM_ACYC_BUSY g) = true)
    (hat : (segOf s g).acycAt = some at_) (hdue : at_ + 1000000 ≤ s.cyc) :
    Completes (.ecmAcyclicTimeout g) s fun t => t.on (FLD_ECM_ACYC_BUSY g) = false ∧ t.get (FLD_ECM_ACYC_RESULT g) = 2 ∧
      t.on (FLD_ECM_EVT_ACYC g) = true ∧ (segOf t g).acycAt = none ∧ ChangesOnly [FLD_ECM_ACYC g, FLD_ECM_EVT g] [.segs] s t := by
  have hexec : exec (.ecmAcyclicTimeout g) s = finish s (acyclicEnd s g 2) := by
    show execEcmAcyclicTimeout g s = _
    unfold execEcmAcyclicTimeout
    rw [hat]
    simp only
    rw [if_pos ⟨hbusy, hdue⟩]
  refine completes_of_settled hexec hon fun t hs => ?_
  obtain ⟨hidle, hres, hevt, hdone⟩ := acyclicEnd_shows hg (by decide) hs
  exact ⟨hidle, hres, hevt, hdone, hs.changesOnly (Effect.acyclicEnd (Effect.refl s) (by simp) (by simp) (by simp) 2)⟩

end

/-- Settles O41: each enable, write, link change and acyclic frame by what it leaves of its segment. -/
theorem segmentsEnableAndSendAcyclic : Obligations.SegmentsEnableAndSendAcyclic := by
  intro s g hon hg
  exact ⟨fun who v ok => ⟨completes_ecmEnable_on hon hg ok, completes_ecmEnable_off hon hg ok⟩,
    fun who v => completes_ecmSubstClear hon hg, fun port up hport => completes_ecmLinkChange hon hg hport,
    fun who v => completes_ecmAcyclicGo hon hg, completes_ecmAcyclicSend hon, fun frame => completes_ecmAcyclicReturn hon hg,
    fun at_ => completes_ecmAcyclicTimeout hon hg⟩

end Sys2Proof.Machine
end
section
/-! Frames that come back to a segment, and how its cycles end (R460, R463, R464, R465). -/

namespace Sys2Proof.Machine

open Sys2Proof Sys2Proof.Machine.Reg

/-! ### Words of a good cycle -/

/-- The word of an input entry lands; the map is the one of `s`. -/
def landInput (s : State) (g : Nat) (bs : List Byte) (u : State) (e : Nat) : State :=
  if typeBytes (s.get (FLD_ECM_MAP_LO_TYPE g e)) = 0 then u
  else u.put (FLD_ECM_IN_VALUE (s.get (FLD_ECM_MAP_LO_WORD g e)))
    (inputWord (s.get (FLD_ECM_MAP_LO_TYPE g e)) (s.get (FLD_ECM_MAP_LO_BIT g e))
      (leField bs (s.get (FLD_ECM_MAP_LO_OFS g e)) (typeBytes (s.get (FLD_ECM_MAP_LO_TYPE g e))))
      (BitVec.ofNat 32 (s.get (FLD_ECM_MAP_HI_SCALE g e)))).toNat

/-- The registers of the input entries' words. -/
def inputRegs (s : State) (g : Nat) : List Nat := (entriesOf s g 0).map fun e => FLD_ECM_IN (s.get (FLD_ECM_MAP_LO_WORD g e))

theorem effect_landInput {s : State} {g : Nat} {e : Nat} (he : e ∈ entriesOf s g 0) (bs : List Byte) (u : State) :
    Effect (inputRegs s g) [] u (landInput s g bs u e) :=
  Effect.ite (fun _ => Effect.refl u) fun _ => (Effect.refl u).put _ (List.mem_map_of_mem he)

theorem word_lt (s : State) (g e : Nat) : s.get (FLD_ECM_MAP_LO_WORD g e) < 256 := by
  have h := s.get_lt (FLD_ECM_MAP_LO_WORD g e)
  simp only [FLD_ECM_MAP_LO_WORD] at h ⊢
  exact h

/-- The input words lie below the segments' registers. -/
theorem lt_of_mem_inputRegs {s : State} {g a : Nat} (h : a ∈ inputRegs s g) : a < FLD_ECM_CTL 0 := by
  obtain ⟨e, -, rfl⟩ := List.mem_map.mp h
  have := word_lt s g e
  unfold FLD_ECM_IN FLD_ECM_CTL
  omega

theorem ecmCtl_le_ecmMap (g e : Nat) : FLD_ECM_CTL 0 ≤ FLD_ECM_MAP_LO g e ∧ FLD_ECM_CTL 0 ≤ FLD_ECM_MAP_HI g e := by
  unfold FLD_ECM_CTL FLD_ECM_MAP_LO FLD_ECM_MAP_HI
  omega

/-- The map of a segment stands from `s` to `u`. -/
def MapStands (s u : State) (g : Nat) : Prop :=
  ∀ e, e < 256 → u.rd (FLD_ECM_MAP_LO g e) = s.rd (FLD_ECM_MAP_LO g e) ∧ u.rd (FLD_ECM_MAP_HI g e) = s.rd (FLD_ECM_MAP_HI g e)

section

variable {s u : State} {g : Nat} (hu : MapStands s u g)
include hu

theorem MapStands.get_lo {e : Nat} (he : e < 256) {hi lo : Nat} : u.get ⟨FLD_ECM_MAP_LO g e, hi, lo⟩ = s.get ⟨FLD_ECM_MAP_LO g e, hi, lo⟩ := by
  rw [State.get, State.get, (hu e he).1]

theorem MapStands.entriesOf (dir : Nat) : entriesOf u g dir = entriesOf s g dir := List.filter_congr fun e he => by
  simp only [State.on, FLD_ECM_MAP_LO_VALID, FLD_ECM_MAP_LO_DIR, hu.get_lo (List.mem_range.mp he)]

theorem MapStands.get_hi {e : Nat} (he : e < 256) {hi lo : Nat} :
    u.get ⟨FLD_ECM_MAP_HI g e, hi, lo⟩ = s.get ⟨FLD_ECM_MAP_HI g e, hi, lo⟩ := by
  rw [State.get, State.get, (hu e he).2]

theorem MapStands.landInput (bs : List Byte) {e : Nat} (he : e < 256) : landInput u g bs u e = landInput s g bs u e := by
  rw [Machine.landInput, Machine.landInput, show u.get (FLD_ECM_MAP_LO_TYPE g e) = _ from hu.get_lo he,
    show u.get (FLD_ECM_MAP_LO_WORD g e) = _ from hu.get_lo he, show u.get (FLD_ECM_MAP_LO_BIT g e) = _ from hu.get_lo he,
    show u.get (FLD_ECM_MAP_LO_OFS g e) = _ from hu.get_lo he,
    show u.get (FLD_ECM_MAP_HI_SCALE g e) = _ from hu.get_hi he]
  rfl

theorem MapStands.after_landInput {e : Nat} (he : e ∈ Machine.entriesOf s g 0) (bs : List Byte) :
    MapStands s (Machine.landInput s g bs u e) g := by
  have hrd {a : Nat} (ha : FLD_ECM_CTL 0 ≤ a) : (Machine.landInput s g bs u e).rd a = u.rd a :=
    (effect_landInput he bs u).rd a fun hm => Nat.not_lt_of_le ha (lt_of_mem_inputRegs hm)
  intro e' he'
  obtain ⟨hlo, hhi⟩ := ecmCtl_le_ecmMap g e'
  rw [hrd hlo, hrd hhi]
  exact hu e' he'

end

theorem lt_of_mem_entriesOf {s : State} {g dir e : Nat} (h : e ∈ entriesOf s g dir) : e < 256 :=
  List.mem_range.mp (List.mem_filter.mp h).1

/-- The map stands while the words land. -/
theorem landInputs_eq {s u : State} {g : Nat} (hu : MapStands s u g) {es : List Nat}
    (hes : ∀ e ∈ es, e ∈ entriesOf s g 0) (bs : List Byte) :
    es.foldl (fun u e => landInput u g bs u e) u = es.foldl (landInput s g bs) u := by
  induction es generalizing u with
  | nil => rw [List.foldl_nil, List.foldl_nil]
  | cons e es ih =>
    rw [List.foldl_cons, List.foldl_cons, hu.landInput _ (lt_of_mem_entriesOf (hes e List.mem_cons_self))]
    exact ih (hu.after_landInput (hes e List.mem_cons_self) bs) fun e' he' => hes e' (List.mem_cons_of_mem _ he')

theorem landInputs_foldl {s u : State} {g : Nat} (hu : MapStands s u g) (bs : List Byte) :
    landInputs u g bs = (entriesOf s g 0).foldl (landInput s g bs) u := by
  rw [← landInputs_eq hu (fun _ h => h) bs, ← hu.entriesOf]
  rfl

theorem effect_landInputs {s u : State} {g : Nat} (hu : MapStands s u g) (bs : List Byte) :
    Effect (inputRegs s g) [] u (landInputs u g bs) := by
  rw [landInputs_foldl hu]
  exact (Effect.refl u).foldl fun v e he => effect_landInput he bs v

/-- An entry whose word no other entry names gives that word. -/
theorem get_foldl_landInput {s : State} {g e : Nat} (hty : typeBytes (s.get (FLD_ECM_MAP_LO_TYPE g e)) ≠ 0) {es : List Nat}
    (he : e ∈ es) (hword : ∀ e', e' ∈ es → e' ≠ e → s.get (FLD_ECM_MAP_LO_WORD g e') ≠ s.get (FLD_ECM_MAP_LO_WORD g e))
    (bs : List Byte) (u : State) : (es.foldl (landInput s g bs) u).get (FLD_ECM_IN_VALUE (s.get (FLD_ECM_MAP_LO_WORD g e))) =
      (inputWord (s.get (FLD_ECM_MAP_LO_TYPE g e)) (s.get (FLD_ECM_MAP_LO_BIT g e))
        (leField bs (s.get (FLD_ECM_MAP_LO_OFS g e)) (typeBytes (s.get (FLD_ECM_MAP_LO_TYPE g e))))
        (BitVec.ofNat 32 (s.get (FLD_ECM_MAP_HI_SCALE g e)))).toNat := by
  induction es using List.reverseRecOn with
  | nil => exact absurd he (by simp)
  | append_singleton es x ih =>
    rw [List.foldl_append, List.foldl_cons, List.foldl_nil]
    by_cases hx : x = e
    · rw [hx, landInput, if_neg hty]
      exact State.get_put_of_lt (show 0 ≤ 31 ∧ 31 < 64 by decide) (BitVec.isLt _)
    · have hrest := ih ((List.mem_append.mp he).resolve_right (by simp [Ne.symm hx])) fun e' he' => hword e' (by simp [he'])
      have hne := hword x (by simp) hx
      rw [landInput]
      split
      · exact hrest
      · rw [State.get_put_apart (.inl ?_)]
        · exact hrest
        · simp only [FLD_ECM_IN_VALUE, FLD_ECM_IN]
          omega

/-! ### Cycles that end bad -/

/-- Registers that a bad cycle changes. -/
def badRegs (g : Nat) : List Nat :=
  [FLD_ECM_STAT g, FLD_ECM_EVT g, FLD_ECS_CNT 7, FLD_ECS_EVT] ++ each 6 (FLD_ECM_CNT g)

/-- Registers that the end of a cycle may change, beside the input words. -/
def cycleRegs (g : Nat) : List Nat := badRegs g ++ each 256 (FLD_ECM_RET g)

theorem stat_mem_badRegs (g : Nat) : FLD_ECM_STAT g ∈ badRegs g := by simp [badRegs]

theorem evt_mem_badRegs (g : Nat) : FLD_ECM_EVT g ∈ badRegs g := by simp [badRegs]

theorem cnt_mem_badRegs (g : Nat) {i : Nat} (hi : i < 6) : FLD_ECM_CNT g i ∈ badRegs g :=
  List.mem_append_right _ (mem_each hi)

/-- The event of a bad cycle. -/
def badEvent (g : Nat) (missed : Bool) : Fld := if missed then FLD_ECM_EVT_MISSED g else FLD_ECM_EVT_BADWKC g

/-- A bad cycle counted: INVALID, its count and event, the run. -/
def badCounted (s : State) (g : Nat) (missed : Bool) : State :=
  (((s.setOn (FLD_ECM_STAT_INVALID g)).count (FLD_ECM_CNT_VALUE g (ofBool missed)) 1).setOn (badEvent g missed)).count
    (FLD_ECM_STAT_BADRUN g) 1

/-- A segment enters substitution. -/
def substEntered (s : State) (g : Nat) : State :=
  ((((s.setOn (FLD_ECM_STAT_SUBST g)).count (FLD_ECM_CNT_VALUE g 2) 1).setOn (FLD_ECM_EVT_SUBST g)).setSeg g
    { segOf s g with subst := true }).emergency 0xFF02 g

theorem badCycle_eq (s : State) (g : Nat) (missed : Bool) : badCycle s g missed =
    if max 1 ((badCounted s g missed).get (FLD_ECM_CTL_SUBN g)) ≤ (badCounted s g missed).get (FLD_ECM_STAT_BADRUN g) ∧
      !(badCounted s g missed).on (FLD_ECM_STAT_SUBST g) then substEntered (badCounted s g missed) g
    else badCounted s g missed := by
  have hcounted : (if missed = true then ((s.setOn (FLD_ECM_STAT_INVALID g)).count (FLD_ECM_CNT_VALUE g 1) 1).setOn (FLD_ECM_EVT_MISSED g)
      else ((s.setOn (FLD_ECM_STAT_INVALID g)).count (FLD_ECM_CNT_VALUE g 0) 1).setOn (FLD_ECM_EVT_BADWKC g)).count
        (FLD_ECM_STAT_BADRUN g) 1 = badCounted s g missed := by
    cases missed
    · rw [if_neg Bool.false_ne_true]
      rfl
    · rw [if_pos rfl]
      rfl
  unfold badCycle
  simp only [hcounted]
  rfl

theorem badEvent_addr (g : Nat) (missed : Bool) : (badEvent g missed).addr = FLD_ECM_EVT g ∧ ValidFld (badEvent g missed) := by
  cases missed
  · exact ⟨rfl, show 0 ≤ 0 ∧ 0 < 64 by decide⟩
  · exact ⟨rfl, show 1 ≤ 1 ∧ 1 < 64 by decide⟩

theorem ofBool_lt (b : Bool) : ofBool b < 2 := by cases b <;> decide

theorem ecmCnt_ne (g i : Nat) (hi : i < 6) : FLD_ECM_CNT g i ≠ FLD_ECM_STAT g ∧ FLD_ECM_CNT g i ≠ FLD_ECM_EVT g := by
  unfold FLD_ECM_CNT FLD_ECM_STAT FLD_ECM_EVT
  omega

theorem ecmStat_ne_ecmEvt (g : Nat) : FLD_ECM_STAT g ≠ FLD_ECM_EVT g := by
  unfold FLD_ECM_STAT FLD_ECM_EVT
  omega

section

variable {s : State} {g : Nat} {missed : Bool}

theorem effect_badCounted : Effect (badRegs g) [.segs, .diag] s (badCounted s g missed) := by
  have hcnt := cnt_mem_badRegs g (i := ofBool missed) (by have := ofBool_lt missed; omega)
  have hevt : (badEvent g missed).addr ∈ badRegs g := (badEvent_addr g missed).1 ▸ evt_mem_badRegs g
  exact ((((Effect.refl s).setOn (stat_mem_badRegs g)).count 1 hcnt).setOn hevt).count 1 (stat_mem_badRegs g)

theorem segOf_badCounted (m : Nat) : segOf (badCounted s g missed) m = segOf s m := rfl

theorem emcy_badCounted : (badCounted s g missed).emcy = s.emcy := rfl

theorem invalid_badCounted : (badCounted s g missed).get (FLD_ECM_STAT_INVALID g) = 1 := by
  have hc := (ecmCnt_ne g (ofBool missed) (by have := ofBool_lt missed; omega)).1
  rw [badCounted, State.get_count_apart (.inr (show 16 ≤ 23 ∧ 23 < 64 ∧ (2 < 16 ∨ 23 < 2) by decide)),
    State.get_setOn_apart (.inl ((badEvent_addr g missed).1 ▸ ecmStat_ne_ecmEvt g)), State.get_count_apart (.inl hc.symm)]
  exact State.get_setOn (show 2 ≤ 2 ∧ 2 < 64 by decide)

theorem count_badCounted : (badCounted s g missed).get (FLD_ECM_CNT_VALUE g (ofBool missed)) =
    satAdd 32 (s.get (FLD_ECM_CNT_VALUE g (ofBool missed))) 1 := by
  obtain ⟨hstat, hevt⟩ := ecmCnt_ne g (ofBool missed) (by have := ofBool_lt missed; omega)
  rw [badCounted, State.get_count_apart (.inl hstat), State.get_setOn_apart (.inl ((badEvent_addr g missed).1 ▸ hevt)),
    State.get_count_self (show 0 ≤ 31 ∧ 31 < 64 by decide), State.get_setOn_apart (.inl hstat)]
  rfl

theorem event_badCounted : (badCounted s g missed).get (badEvent g missed) = 1 := by
  obtain ⟨haddr, hvalid⟩ := badEvent_addr g missed
  rw [badCounted, State.get_count_apart (.inl (haddr ▸ (ecmStat_ne_ecmEvt g).symm)), State.get_setOn hvalid]

theorem run_badCounted : (badCounted s g missed).get (FLD_ECM_STAT_BADRUN g) = satAdd 8 (s.get (FLD_ECM_STAT_BADRUN g)) 1 := by
  have hc := (ecmCnt_ne g (ofBool missed) (by have := ofBool_lt missed; omega)).1
  rw [badCounted, State.get_count_self (show 16 ≤ 23 ∧ 23 < 64 by decide),
    State.get_setOn_apart (.inl ((badEvent_addr g missed).1 ▸ ecmStat_ne_ecmEvt g)), State.get_count_apart (.inl hc.symm),
    State.get_setOn_apart (.inr (show 2 ≤ 2 ∧ 2 < 64 ∧ (23 < 2 ∨ 2 < 16) by decide))]
  rfl

theorem subst_badCounted : (badCounted s g missed).get (FLD_ECM_STAT_SUBST g) = s.get (FLD_ECM_STAT_SUBST g) := by
  have hc := (ecmCnt_ne g (ofBool missed) (by have := ofBool_lt missed; omega)).1
  rw [badCounted, State.get_count_apart (.inr (show 16 ≤ 23 ∧ 23 < 64 ∧ (1 < 16 ∨ 23 < 1) by decide)),
    State.get_setOn_apart (.inl ((badEvent_addr g missed).1 ▸ ecmStat_ne_ecmEvt g)), State.get_count_apart (.inl hc.symm),
    State.get_setOn_apart (.inr (show 2 ≤ 2 ∧ 2 < 64 ∧ (1 < 2 ∨ 2 < 1) by decide))]

theorem substCount_badCounted : (badCounted s g missed).get (FLD_ECM_CNT_VALUE g 2) = s.get (FLD_ECM_CNT_VALUE g 2) := by
  obtain ⟨hstat, hevt⟩ := ecmCnt_ne g 2 (by decide)
  have hcnt : FLD_ECM_CNT g 2 ≠ FLD_ECM_CNT g (ofBool missed) := by
    have := ofBool_lt missed
    unfold FLD_ECM_CNT
    omega
  rw [badCounted, State.get_count_apart (.inl hstat), State.get_setOn_apart (.inl ((badEvent_addr g missed).1 ▸ hevt)),
    State.get_count_apart (.inl hcnt), State.get_setOn_apart (.inl hstat)]

theorem ecmCtl_not_mem_cycleRegs (g : Nat) : FLD_ECM_CTL g ∉ cycleRegs g := by
  simp only [cycleRegs, badRegs, each, List.mem_append, List.mem_cons, List.not_mem_nil, or_false, List.mem_map, List.mem_range,
    FLD_ECM_CTL, FLD_ECM_STAT, FLD_ECM_EVT, FLD_ECS_CNT, FLD_ECS_EVT, FLD_ECM_CNT, FLD_ECM_RET]
  omega

/-- Entering substitution changes only its bit, its count and its event. -/
theorem get_substEntered {f : Fld} (hlow : FLD_ECM_CTL 0 ≤ f.addr) (hstat : Apart (FLD_ECM_STAT_SUBST g) f)
    (hcnt : f.addr ≠ FLD_ECM_CNT g 2) (hevt : Apart (FLD_ECM_EVT_SUBST g) f) : (substEntered s g).get f = s.get f := by
  rw [substEntered, get_emergency, get_setSeg, State.get_setOn_apart hevt, State.get_count_apart (.inl hcnt),
    State.get_setOn_apart hstat]
  all_goals
    simp only [FLD_ECM_CTL, FLD_ECS_CNT, FLD_ECS_EVT] at hlow ⊢
    omega

theorem effect_substEntered : Effect (badRegs g) [.segs, .diag] s (substEntered s g) :=
  (((((Effect.refl s).setOn (stat_mem_badRegs g)).count 1 (cnt_mem_badRegs g (by decide))).setOn (evt_mem_badRegs g)).setSeg
    (by simp) _ _).emergency (by simp [badRegs]) (by simp [badRegs]) (by simp) _ _

theorem emcy_emergency {s : State} (h : s.emcy.length < 8) (code data : Nat) :
    (s.emergency code data).emcy = s.emcy ++ [{ code := code, data := data }] := by
  rw [State.emergency, if_pos h]

theorem segs_emergency (s : State) (code data : Nat) : (s.emergency code data).segs = s.segs := by
  unfold State.emergency
  split <;> rfl

theorem segOf_substEntered : segOf (substEntered s g) g = { segOf s g with subst := true } := by
  rw [substEntered, segOf_congr (segs_emergency _ _ _), segOf_setSeg_same]

theorem substEntered_shows : (substEntered s g).get (FLD_ECM_STAT_SUBST g) = 1 ∧ (substEntered s g).get (FLD_ECM_EVT_SUBST g) = 1 ∧
    (substEntered s g).get (FLD_ECM_CNT_VALUE g 2) = satAdd 32 (s.get (FLD_ECM_CNT_VALUE g 2)) 1 := by
  obtain ⟨hstat, hevt⟩ := ecmCnt_ne g 2 (by decide)
  have hcs (f : Fld) (hf : FLD_ECM_CTL 0 ≤ f.addr) : f.addr ≠ FLD_ECS_CNT 7 ∧ f.addr ≠ FLD_ECS_EVT := by
    unfold FLD_ECM_CTL at hf
    unfold FLD_ECS_CNT FLD_ECS_EVT
    omega
  refine ⟨?_, ?_, ?_⟩
  · obtain ⟨h1, h2⟩ := hcs (FLD_ECM_STAT_SUBST g) (by simp only [FLD_ECM_STAT_SUBST, FLD_ECM_STAT, FLD_ECM_CTL]; omega)
    rw [substEntered, get_emergency h1 h2, get_setSeg, State.get_setOn_apart (.inl (ecmStat_ne_ecmEvt g)),
      State.get_count_apart (.inl hstat.symm), State.get_setOn (show 1 ≤ 1 ∧ 1 < 64 by decide)]
  · obtain ⟨h1, h2⟩ := hcs (FLD_ECM_EVT_SUBST g) (by simp only [FLD_ECM_EVT_SUBST, FLD_ECM_EVT, FLD_ECM_CTL]; omega)
    rw [substEntered, get_emergency h1 h2, get_setSeg, State.get_setOn (show 2 ≤ 2 ∧ 2 < 64 by decide)]
  · obtain ⟨h1, h2⟩ := hcs (FLD_ECM_CNT_VALUE g 2) (by simp only [FLD_ECM_CNT_VALUE, FLD_ECM_CNT, FLD_ECM_CTL]; omega)
    rw [substEntered, get_emergency h1 h2, get_setSeg, State.get_setOn_apart (.inl hevt),
      State.get_count_self (show 0 ≤ 31 ∧ 31 < 64 by decide), State.get_setOn_apart (.inl hstat)]
    rfl

theorem emcy_substEntered (h : s.emcy.length < 8) : (substEntered s g).emcy = s.emcy ++ [{ code := 0xFF02, data := g }] := by
  rw [substEntered]
  refine (emcy_emergency ?_ _ _).trans ?_
  · exact h
  · rfl

/-- A bad cycle is counted, whether substitution is entered or not. -/
theorem get_badCycle {f : Fld} (hlow : FLD_ECM_CTL 0 ≤ f.addr) (hstat : Apart (FLD_ECM_STAT_SUBST g) f)
    (hcnt : f.addr ≠ FLD_ECM_CNT g 2) (hevt : Apart (FLD_ECM_EVT_SUBST g) f) :
    (badCycle s g missed).get f = (badCounted s g missed).get f := by
  rw [badCycle_eq]
  split
  · exact get_substEntered hlow hstat hcnt hevt
  · rfl

theorem effect_badCycle : Effect (badRegs g) [.segs, .diag] s (badCycle s g missed) := by
  rw [badCycle_eq]
  exact Effect.ite (fun _ => effect_badCounted.trans effect_substEntered) fun _ => effect_badCounted

theorem cyc_badCycle : (segOf (badCycle s g missed) g).cyc = (segOf s g).cyc := by
  rw [badCycle_eq]
  split
  · rw [segOf_substEntered, segOf_badCounted]
  · rw [segOf_badCounted]

theorem ecmStat_low (g : Nat) : FLD_ECM_CTL 0 ≤ FLD_ECM_STAT g := by
  unfold FLD_ECM_CTL FLD_ECM_STAT
  omega

theorem ecmEvt_low (g : Nat) : FLD_ECM_CTL 0 ≤ FLD_ECM_EVT g := by
  unfold FLD_ECM_CTL FLD_ECM_EVT
  omega

theorem ecmCnt_low (g i : Nat) : FLD_ECM_CTL 0 ≤ FLD_ECM_CNT g i := by
  unfold FLD_ECM_CTL FLD_ECM_CNT
  omega

theorem invalid_badCycle : (badCycle s g missed).get (FLD_ECM_STAT_INVALID g) = 1 := by
  rw [get_badCycle (f := FLD_ECM_STAT_INVALID g) (ecmStat_low g) (.inr (show 1 ≤ 1 ∧ 1 < 64 ∧ (2 < 1 ∨ 1 < 2) by decide)) (ecmCnt_ne g 2 (by decide)).1.symm
    (.inl (ecmStat_ne_ecmEvt g)), invalid_badCounted]

theorem run_badCycle : (badCycle s g missed).get (FLD_ECM_STAT_BADRUN g) = satAdd 8 (s.get (FLD_ECM_STAT_BADRUN g)) 1 := by
  rw [get_badCycle (f := FLD_ECM_STAT_BADRUN g) (ecmStat_low g) (.inr (show 1 ≤ 1 ∧ 1 < 64 ∧ (23 < 1 ∨ 1 < 16) by decide)) (ecmCnt_ne g 2 (by decide)).1.symm
    (.inl (ecmStat_ne_ecmEvt g)), run_badCounted]

theorem count_badCycle : (badCycle s g missed).get (FLD_ECM_CNT_VALUE g (ofBool missed)) =
    satAdd 32 (s.get (FLD_ECM_CNT_VALUE g (ofBool missed))) 1 := by
  have hkind := ofBool_lt missed
  obtain ⟨hstat, hevt⟩ := ecmCnt_ne g (ofBool missed) (by omega)
  refine (get_badCycle (ecmCnt_low g _) (.inl hstat) ?_ (.inl hevt)).trans count_badCounted
  simp only [FLD_ECM_CNT_VALUE, FLD_ECM_CNT]
  omega

theorem event_badCycle : (badCycle s g missed).get (badEvent g missed) = 1 := by
  obtain ⟨haddr, -⟩ := badEvent_addr g missed
  have hlow : FLD_ECM_CTL 0 ≤ (badEvent g missed).addr := haddr ▸ ecmEvt_low g
  have hstat : (badEvent g missed).addr ≠ FLD_ECM_STAT g := haddr ▸ (ecmStat_ne_ecmEvt g).symm
  have hcnt : (badEvent g missed).addr ≠ FLD_ECM_CNT g 2 := haddr ▸ (ecmCnt_ne g 2 (by decide)).2.symm
  refine (get_badCycle hlow (.inl hstat) hcnt (.inr ?_)).trans event_badCounted
  cases missed
  · show 2 ≤ 2 ∧ 2 < 64 ∧ (0 < 2 ∨ 2 < 0)
    decide
  · show 2 ≤ 2 ∧ 2 < 64 ∧ (1 < 2 ∨ 2 < 1)
    decide

/-- A cycle that ends bad, on a state whose cycle is over and whose other changes lie within the frame. -/
theorem badCycleEnds_of_settled {u t : State} (hg : g < 4) (hu : Effect (cycleRegs g) [.segs, .diag] s u)
    (hcyc : (segOf u g).cyc = none) (hemcy : u.emcy = s.emcy)
    (hcnt : ∀ i, i < 6 → u.get (FLD_ECM_CNT_VALUE g i) = s.get (FLD_ECM_CNT_VALUE g i))
    (hrun : u.get (FLD_ECM_STAT_BADRUN g) = s.get (FLD_ECM_STAT_BADRUN g))
    (hsub : u.get (FLD_ECM_STAT_SUBST g) = s.get (FLD_ECM_STAT_SUBST g)) (hs : Settled s.fuses s (badCycle u g missed) t) :
    BadCycleEnds s t g missed := by
  have hkind := ofBool_lt missed
  obtain ⟨hs1, hs2⟩ := ecm_settles (a := FLD_ECM_STAT g) hg (by unfold FLD_ECM_STAT FLD_ECM_CTL; omega)
  obtain ⟨he1, he2⟩ := ecm_settles (a := FLD_ECM_EVT g) hg (by unfold FLD_ECM_EVT FLD_ECM_CTL; omega)
  have hc (i : Nat) (hi : i < 6) := ecm_settles (a := FLD_ECM_CNT g i) hg (by unfold FLD_ECM_CNT FLD_ECM_CTL; omega)
  have hsubn : (badCounted u g missed).get (FLD_ECM_CTL_SUBN g) = s.get (FLD_ECM_CTL_SUBN g) :=
    (effect_badCounted.get (f := FLD_ECM_CTL_SUBN g) (fun h => ecmCtl_not_mem_cycleRegs g (List.mem_append_left _ h))).trans
      (hu.get (ecmCtl_not_mem_cycleRegs g))
  have hsubst : (badCounted u g missed).on (FLD_ECM_STAT_SUBST g) = s.on (FLD_ECM_STAT_SUBST g) :=
    State.on_congr (subst_badCounted.trans hsub)
  have hbadrun := (run_badCounted (s := u) (g := g) (missed := missed)).trans (by rw [hrun])
  refine ⟨?_, ?_, ?_, ?_, ?_, fun hbelow => ?_, fun henters hoff => ?_, hs.changesOnly (hu.trans (effect_badCycle.mono (List.subset_append_left _ _) (List.Subset.refl _)))⟩
  · rw [hs.segOf, cyc_badCycle, hcyc]
  · rw [hs.on _ hs1 hs2, State.on_eq_true_iff, invalid_badCycle]
  · obtain ⟨hc1, hc2⟩ := hc (ofBool missed) (by omega)
    rw [hs.get _ hc1 hc2, count_badCycle, hcnt _ (by omega)]
  · obtain ⟨haddr, -⟩ := badEvent_addr g missed
    exact (hs.on (badEvent g missed) (haddr ▸ he1) (haddr ▸ he2)).trans (State.on_eq_true_iff.mpr event_badCycle)
  · rw [hs.get _ hs1 hs2, run_badCycle, hrun]
  · rw [badCycle_eq, hsubn, hsubst, hbadrun, if_neg (fun h => Nat.not_le_of_lt hbelow h.1)] at hs
    exact ⟨(hs.on _ hs1 hs2).trans hsubst, hs.emcy.trans (emcy_badCounted.trans hemcy)⟩
  · rw [badCycle_eq, hsubn, hsubst, hbadrun, if_pos ⟨henters, by rw [hoff]; rfl⟩] at hs
    obtain ⟨hsubOn, hevtOn, hsubCnt⟩ := substEntered_shows (s := badCounted u g missed) (g := g)
    obtain ⟨hc1, hc2⟩ := hc 2 (by decide)
    refine ⟨?_, ?_, ?_, ?_, fun h8 => ?_⟩
    · rw [hs.on _ hs1 hs2, State.on_eq_true_iff, hsubOn]
    · rw [hs.on _ he1 he2, State.on_eq_true_iff, hevtOn]
    · rw [hs.get _ hc1 hc2, hsubCnt, substCount_badCounted, hcnt 2 (by decide)]
    · rw [hs.segOf, segOf_substEntered]
    · rw [hs.emcy, emcy_substEntered, emcy_badCounted, hemcy]
      rwa [emcy_badCounted, hemcy]

end

/-! ### Frames that come back -/

section

variable {s : State} {g : Nat} {c : SegCyc} (hon : s.powered) (hg : g < 4) (hcyc : (segOf s g).cyc = some c)
include hon hg hcyc

omit hon hg hcyc in
/-- A cycle with the first copy back on a port. -/
def copyBack (c : SegCyc) (port : Nat) (frame : List Byte) : SegCyc :=
  if port = 0 then { c with retA := some (c.retA.getD frame) } else { c with retB := some (c.retB.getD frame) }

omit hon hg hcyc in
/-- A cycle whose merge starts at the present instant. -/
def mergeStarted (s : State) (g : Nat) (c : SegCyc) : SegCyc :=
  { c with phase := 3, mergeAt := s.blvCyc + 24 + (entriesOf s g 0).length }

omit hg in
theorem completes_ecmFrameReturn {port : Nat} {frame : List Byte} (hphase : c.phase = 2)
    (hdue : s.cyc ≤ c.b + s.get (FLD_ECM_TIMING_DEADLINE g)) (hfirst : (if port = 0 then c.retA else c.retB) = none) :
    Completes (.ecmFrameReturn g port true frame) s fun t => (∃ c', (segOf t g).cyc = some c' ∧
        (if port = 0 then c'.retA else c'.retB) = some frame ∧ (if port = 0 then c'.retB = c.retB else c'.retA = c.retA) ∧
        (ofBool c.sentA + ofBool c.sentB ≤ ofBool c'.retA.isSome + ofBool c'.retB.isSome →
          c'.phase = 3 ∧ c'.mergeAt = s.blvCyc + 24 + (entriesOf s g 0).length) ∧
        (ofBool c'.retA.isSome + ofBool c'.retB.isSome < ofBool c.sentA + ofBool c.sentB → c'.phase = 2)) ∧
      (∀ m, m ≠ g → segOf t m = segOf s m) ∧ ChangesOnly [] [.segs] s t := by
  have hsent : (copyBack c port frame).sentA = c.sentA ∧ (copyBack c port frame).sentB = c.sentB ∧
      (copyBack c port frame).phase = 2 := by
    unfold copyBack
    split <;> exact ⟨rfl, rfl, hphase⟩
  obtain ⟨hsA, hsB, hphase'⟩ := hsent
  have hback : (if port = 0 then (copyBack c port frame).retA else (copyBack c port frame).retB) = some frame ∧
      (if port = 0 then (copyBack c port frame).retB = c.retB else (copyBack c port frame).retA = c.retA) := by
    unfold copyBack
    by_cases hp : port = 0
    · rw [if_pos hp] at hfirst
      simp only [if_pos hp, hfirst, Option.getD_none, and_self]
    · rw [if_neg hp] at hfirst
      simp only [if_neg hp, hfirst, Option.getD_none, and_self]
  obtain ⟨hframe, hother⟩ := hback
  have hexec : exec (.ecmFrameReturn g port true frame) s = finish s
      (if ofBool c.sentA + ofBool c.sentB ≤ ofBool (copyBack c port frame).retA.isSome + ofBool (copyBack c port frame).retB.isSome
        then s.setSeg g { segOf s g with cyc := some (mergeStarted s g (copyBack c port frame)) }
        else s.setSeg g { segOf s g with cyc := some (copyBack c port frame) }) := by
    show execEcmFrameReturn g port true frame s = _
    unfold execEcmFrameReturn
    rw [← hsA, ← hsB]
    simp only [hcyc]
    rw [if_neg (by simp [hphase]; omega)]
    rfl
  refine completes_of_settled hexec hon fun t hs => ?_
  split at hs
  case isTrue hall =>
    refine ⟨⟨mergeStarted s g (copyBack c port frame), ?_, hframe, hother, fun _ => ⟨rfl, rfl⟩, fun h => ?_⟩, fun m hm => ?_,
      hs.changesOnly ((Effect.refl s).setSeg (by simp) _ _)⟩
    · rw [hs.segOf, segOf_setSeg_same]
    · exact absurd hall (Nat.not_le_of_lt h)
    · rw [hs.segOf, segOf_setSeg_ne _ _ hm]
  case isFalse hsome =>
    refine ⟨⟨copyBack c port frame, ?_, hframe, hother, fun h => absurd h hsome, fun _ => hphase'⟩, fun m hm => ?_,
      hs.changesOnly ((Effect.refl s).setSeg (by simp) _ _)⟩
    · rw [hs.segOf, segOf_setSeg_same]
    · rw [hs.segOf, segOf_setSeg_ne _ _ hm]

omit hg in
theorem completes_ecmDeadline (hphase : c.phase = 2) (hdue : c.b + s.get (FLD_ECM_TIMING_DEADLINE g) ≤ s.cyc) :
    Completes (.ecmDeadline g) s fun t => (segOf t g).cyc = some (mergeStarted s g c) ∧
      (∀ m, m ≠ g → segOf t m = segOf s m) ∧ ChangesOnly [] [.segs] s t := by
  have hexec : exec (.ecmDeadline g) s =
      finish s (s.setSeg g { segOf s g with cyc := some (mergeStarted s g c) }) := by
    show execEcmDeadline g s = _
    unfold execEcmDeadline
    simp only [hcyc]
    rw [if_neg (by omega)]
    rfl
  refine completes_of_settled hexec hon fun t hs => ⟨?_, fun m hm => ?_, hs.changesOnly ((Effect.refl s).setSeg (by simp) _ _)⟩
  · rw [hs.segOf, segOf_setSeg_same]
  · rw [hs.segOf, segOf_setSeg_ne _ _ hm]

/-! ### Ends of cycles (R463, R464) -/

omit hon hg hcyc in
/-- A segment whose cycle is over. -/
def cycleOver (s : State) (g : Nat) : State := s.setSeg g { segOf s g with cyc := none }

omit hon hg hcyc in
/-- What came back shows in the returned frame's registers. -/
def returnShown (s : State) (g : Nat) (bs : List Byte) (split : Bool) : State :=
  (putFrameWords (cycleOver s g) (FLD_ECM_RET g) bs).put (FLD_ECM_STAT_SPLIT g) (ofBool split)

omit hon hg hcyc in
/-- A cycle that ends good. -/
def goodCycle (s : State) (g : Nat) (bs : List Byte) : State :=
  ((landInputs s g bs).setOff (FLD_ECM_STAT_INVALID g)).put (FLD_ECM_STAT_BADRUN g) 0

omit hon hg hcyc in
/-- Both copies carry counts. -/
def splitSeen (s : State) (g : Nat) (c : SegCyc) : Bool :=
  match c.retA, c.retB with
  | some a, some b => ((checkedDatagrams s g).any fun d => leField a d.1 2 ≠ 0) &&
      ((checkedDatagrams s g).any fun d => leField b d.1 2 ≠ 0)
  | _, _ => false

omit hon hg in
theorem exec_ecmMergeEnd (hphase : c.phase = 3) (hdue : c.mergeAt ≤ s.blvCyc) : exec (.ecmMergeEnd g) s = finish s
    (match returnedFrame s g c with
    | none => badCycle (cycleOver s g) g true
    | some bs => if (checkedDatagrams s g).all fun d => leField bs d.1 2 == d.2 then
        (goodCycle (returnShown s g bs (splitSeen s g c)) g bs).pulse (72 + g)
      else badCycle (returnShown s g bs (splitSeen s g c)) g false) := by
  show execEcmMergeEnd g s = _
  unfold execEcmMergeEnd
  simp only [hcyc]
  rw [if_neg (by omega)]
  rfl

omit hon hg hcyc in
theorem effect_putReturned {bs : List Byte} (hlen : bs.length ≤ 2048) :
    Effect (each 256 (FLD_ECM_RET g)) [.segs] s (putFrameWords (cycleOver s g) (FLD_ECM_RET g) bs) :=
  ((Effect.refl s).setSeg (by simp) _ _).putFrameWords fun i hi => mem_each (by omega)

omit hon hg hcyc in
theorem effect_returnShown {bs : List Byte} (hlen : bs.length ≤ 2048) (split : Bool) :
    Effect (FLD_ECM_STAT g :: each 256 (FLD_ECM_RET g)) [.segs] s (returnShown s g bs split) :=
  ((effect_putReturned hlen).mono (List.subset_cons_self _ _) (List.Subset.refl _)).put _ List.mem_cons_self

omit hon hg hcyc in
theorem ecmStat_ne_ecmRet (g i : Nat) : FLD_ECM_STAT g ≠ FLD_ECM_RET g i := by
  unfold FLD_ECM_STAT FLD_ECM_RET
  omega

omit hon hg hcyc in
/-- The status beside SPLIT stands. -/
theorem stat_returnShown {bs : List Byte} (hlen : bs.length ≤ 2048) (split : Bool) {hi lo : Nat} (h : hi < 3 ∨ 3 < lo) :
    (returnShown s g bs split).get ⟨FLD_ECM_STAT g, hi, lo⟩ = s.get ⟨FLD_ECM_STAT g, hi, lo⟩ := by
  rw [returnShown, State.get_put_apart (.inr ⟨Nat.le_refl _, show 3 < 64 by decide, h⟩), (effect_putReturned hlen).get]
  intro hm
  obtain ⟨i, -, hi⟩ := List.mem_map.mp hm
  exact ecmStat_ne_ecmRet g i hi.symm

omit hon hg hcyc in
theorem returnRegs_subset : FLD_ECM_STAT g :: each 256 (FLD_ECM_RET g) ⊆ cycleRegs g := by
  intro a ha
  rcases List.mem_cons.mp ha with rfl | h
  · exact List.mem_append_left _ (stat_mem_badRegs g)
  · exact List.mem_append_right _ h

omit hon hg hcyc in
theorem not_mem_returnRegs {a : Nat} (h : a ≠ FLD_ECM_STAT g)
    (hret : a < FLD_ECM_RET g 0 ∨ FLD_ECM_RET g 256 ≤ a) : a ∉ FLD_ECM_STAT g :: each 256 (FLD_ECM_RET g) := by
  simp only [List.mem_cons, each, List.mem_map, List.mem_range, FLD_ECM_RET, not_or, not_exists, not_and] at hret ⊢
  exact ⟨h, fun i hi => by omega⟩

omit hon hg hcyc in
theorem mapStands_returnShown {bs : List Byte} (hlen : bs.length ≤ 2048) (split : Bool) :
    MapStands s (returnShown s g bs split) g := by
  intro e _
  have heff := effect_returnShown (s := s) (g := g) hlen split
  constructor <;> refine heff.rd _ (not_mem_returnRegs ?_ (.inr ?_)) <;>
    simp only [FLD_ECM_MAP_LO, FLD_ECM_MAP_HI, FLD_ECM_STAT, FLD_ECM_RET] <;> omega

omit hon hg hcyc in
theorem ecmRet_inj (g : Nat) : ∀ i j, FLD_ECM_RET g i = FLD_ECM_RET g j → i = j := by
  unfold FLD_ECM_RET
  omega

omit hon hg hcyc in
/-- The returned frame is read back where its registers have stood since. -/
theorem frameWords_returnShown {bs : List Byte} {split : Bool} {t : State} (hlen : bs.length ≤ 2048)
    (ht : ∀ i, i < 256 → t.rd (FLD_ECM_RET g i) = (returnShown s g bs split).rd (FLD_ECM_RET g i)) :
    frameWords t (FLD_ECM_RET g) bs.length = bs := by
  refine (frameWords_congr fun i hi => ?_).trans (frameWords_putFrameWords (ecmRet_inj g) (cycleOver s g) bs)
  rw [ht i (by omega), returnShown]
  refine State.rd_put_ne _ _ _ _ ?_
  simp only [FLD_ECM_RET, FLD_ECM_STAT_SPLIT, FLD_ECM_STAT]
  omega

omit hon hg hcyc in
theorem cyc_returnShown (bs : List Byte) (split : Bool) : (segOf (returnShown s g bs split) g).cyc = none := by
  have heff : Effect (each ((bs.length + 7) / 8) (FLD_ECM_RET g) ++ [FLD_ECM_STAT g]) [] (cycleOver s g) (returnShown s g bs split) :=
    ((Effect.refl _).putFrameWords fun i hi => List.mem_append_left _ (mem_each hi)).put _
      (List.mem_append_right _ List.mem_cons_self)
  rw [heff.segOf (by simp)]
  exact congrArg Seg.cyc (segOf_setSeg_same s g _)

omit hon hg hcyc in
theorem effect_goodCycle {u : State} (hu : MapStands s u g) (bs : List Byte) :
    Effect (FLD_ECM_STAT g :: inputRegs s g) [] u (goodCycle u g bs) :=
  (((effect_landInputs hu bs).mono (List.subset_cons_self (FLD_ECM_STAT g) _) (List.Subset.refl [])).setOff
    (f := FLD_ECM_STAT_INVALID g) List.mem_cons_self).put (f := FLD_ECM_STAT_BADRUN g) 0 List.mem_cons_self

theorem completes_ecmMergeEnd_missed (hphase : c.phase = 3) (hdue : c.mergeAt ≤ s.blvCyc) (hnone : returnedFrame s g c = none) :
    Completes (.ecmMergeEnd g) s fun t => BadCycleEnds s t g true := by
  have hexec := exec_ecmMergeEnd hcyc hphase hdue
  rw [hnone] at hexec
  exact completes_of_settled hexec hon fun t hs => badCycleEnds_of_settled hg ((Effect.refl s).setSeg (by simp) _ _)
    (congrArg Seg.cyc (segOf_setSeg_same s g _)) rfl (fun _ _ => rfl) rfl rfl hs

theorem completes_ecmMergeEnd_bad (hphase : c.phase = 3) (hdue : c.mergeAt ≤ s.blvCyc) {bs : List Byte} {d : Nat × Nat}
    (hret : returnedFrame s g c = some bs) (hlen : bs.length ≤ 2048) (hd : d ∈ checkedDatagrams s g)
    (hdiff : leField bs d.1 2 ≠ d.2) :
    Completes (.ecmMergeEnd g) s fun t => BadCycleEnds s t g false ∧ frameWords t (FLD_ECM_RET g) bs.length = bs := by
  have hexec := exec_ecmMergeEnd hcyc hphase hdue
  rw [hret] at hexec
  simp only at hexec
  rw [if_neg (fun hall => hdiff (beq_iff_eq.mp (List.all_eq_true.mp hall d hd)))] at hexec
  have heff := effect_returnShown (s := s) (g := g) hlen (splitSeen s g c)
  refine completes_of_settled hexec hon fun t hs => ⟨badCycleEnds_of_settled hg (heff.mono returnRegs_subset (by simp))
    (cyc_returnShown bs _) (heff.keeps .diag (by simp)).1 (fun i hi => heff.get (not_mem_returnRegs (ecmCnt_ne g i hi).1 (.inl ?_)))
    (stat_returnShown hlen _ (by decide)) (stat_returnShown hlen _ (by decide)) hs,
    frameWords_returnShown (s := s) (split := splitSeen s g c) hlen fun i hi => ?_⟩
  · simp only [FLD_ECM_CNT_VALUE, FLD_ECM_CNT, FLD_ECM_RET]
    omega
  · obtain ⟨h1, h2⟩ := ecm_settles (a := FLD_ECM_RET g i) hg (by unfold FLD_ECM_RET FLD_ECM_CTL; omega)
    rw [hs.rd _ h1 h2, effect_badCycle.rd]
    simp only [badRegs, each, List.mem_append, List.mem_cons, List.not_mem_nil, or_false, List.mem_map, List.mem_range,
      FLD_ECM_STAT, FLD_ECM_EVT, FLD_ECS_CNT, FLD_ECS_EVT, FLD_ECM_CNT, FLD_ECM_RET]
    omega

/-- A good cycle's words land. -/
theorem completes_ecmMergeEnd_good (hphase : c.phase = 3) (hdue : c.mergeAt ≤ s.blvCyc) {bs : List Byte}
    (hret : returnedFrame s g c = some bs) (hlen : bs.length ≤ 2048)
    (hall : ∀ d, d ∈ checkedDatagrams s g → leField bs d.1 2 = d.2) :
    Completes (.ecmMergeEnd g) s fun t => (segOf t g).cyc = none ∧ frameWords t (FLD_ECM_RET g) bs.length = bs ∧
      t.on (FLD_ECM_STAT_INVALID g) = false ∧ t.get (FLD_ECM_STAT_BADRUN g) = 0 ∧
      (∀ e, e ∈ entriesOf s g 0 → typeBytes (s.get (FLD_ECM_MAP_LO_TYPE g e)) ≠ 0 →
        (∀ e', e' ∈ entriesOf s g 0 → e' ≠ e → s.get (FLD_ECM_MAP_LO_WORD g e') ≠ s.get (FLD_ECM_MAP_LO_WORD g e)) →
        t.get (FLD_ECM_IN_VALUE (s.get (FLD_ECM_MAP_LO_WORD g e))) =
          (inputWord (s.get (FLD_ECM_MAP_LO_TYPE g e)) (s.get (FLD_ECM_MAP_LO_BIT g e))
            (leField bs (s.get (FLD_ECM_MAP_LO_OFS g e)) (typeBytes (s.get (FLD_ECM_MAP_LO_TYPE g e))))
            (BitVec.ofNat 32 (s.get (FLD_ECM_MAP_HI_SCALE g e)))).toNat) ∧
      (s.on (BLV_ICU_SRC_EDGE (72 + g)) = true → icuPending t (72 + g) = true) ∧
      ChangesOnly (FLD_ECM_STAT g :: each 256 (FLD_ECM_RET g) ++ inputRegs s g) [.segs] s t := by
  have hexec := exec_ecmMergeEnd hcyc hphase hdue
  rw [hret] at hexec
  simp only at hexec
  rw [if_pos (List.all_eq_true.mpr fun d hd => beq_iff_eq.mpr (hall d hd))] at hexec
  have hshown := effect_returnShown (s := s) (g := g) hlen (splitSeen s g c)
  have hmap := mapStands_returnShown (s := s) (g := g) hlen (splitSeen s g c)
  have hover := cyc_returnShown (s := s) (g := g) bs (splitSeen s g c)
  have hframe {t : State} := frameWords_returnShown (s := s) (g := g) (split := splitSeen s g c) (t := t) hlen
  generalize returnShown s g bs (splitSeen s g c) = u at hexec hshown hmap hover hframe
  have hland := effect_landInputs hmap bs
  have hgood : Effect (FLD_ECM_STAT g :: inputRegs s g) [] u (goodCycle u g bs) :=
    effect_goodCycle hmap bs
  obtain ⟨hs1, hs2⟩ := ecm_settles (a := FLD_ECM_STAT g) hg (by unfold FLD_ECM_STAT FLD_ECM_CTL; omega)
  have hpulse := pulse_line (goodCycle u g bs) (72 + g)
  have hend : Effect (DGN_CNT_MERGE :: DGN_EVT :: FLD_ECM_STAT g :: inputRegs s g) [] u ((goodCycle u g bs).pulse (72 + g)) :=
    (hgood.mono (fun a ha => by simp [List.mem_cons.mp ha]) (List.Subset.refl _)).pulse _ (by simp) (by simp)
  have hin {a : Nat} (ha : FLD_ECM_CTL 0 ≤ a) : a ∉ inputRegs s g := fun hm => Nat.not_lt_of_le ha (lt_of_mem_inputRegs hm)
  have hedge : (goodCycle u g bs).on (BLV_ICU_SRC_EDGE (72 + g)) = s.on (BLV_ICU_SRC_EDGE (72 + g)) := by
    rw [hgood.on, hshown.on (not_mem_returnRegs ?_ (.inl ?_))]
    · simp only [BLV_ICU_SRC_EDGE, BLV_ICU_SRC, FLD_ECM_STAT]
      omega
    · simp only [BLV_ICU_SRC_EDGE, BLV_ICU_SRC, FLD_ECM_RET]
      omega
    · intro hm
      rcases List.mem_cons.mp hm with h | h
      · simp only [BLV_ICU_SRC_EDGE, BLV_ICU_SRC, FLD_ECM_STAT] at h
        omega
      · obtain ⟨e, -, he⟩ := List.mem_map.mp h
        simp only [BLV_ICU_SRC_EDGE, BLV_ICU_SRC, FLD_ECM_IN] at he
        omega
  refine completes_of_settled_events hexec hon fun t hs hk => ⟨?_, hframe fun i hi => ?_, ?_, ?_, fun e he hty hword => ?_,
    fun h => icuPending_of_pulse (by omega) hs hk (hedge.trans h), hs.changesOnly_pulsed ?_⟩
  · rw [hs.segOf, hend.segOf (by simp)]
    exact hover
  · obtain ⟨h1, h2⟩ := ecm_settles (a := FLD_ECM_RET g i) hg (by unfold FLD_ECM_RET FLD_ECM_CTL; omega)
    have hne := (ecmStat_ne_ecmRet g i).symm
    have hlow : FLD_ECM_RET g i ∉ inputRegs s g := hin (by unfold FLD_ECM_RET FLD_ECM_CTL; omega)
    rw [hs.rd _ h1 h2, hend.rd _ (by simp [h1, h2, hne, hlow])]
  · have hoff : (goodCycle u g bs).get (FLD_ECM_STAT_INVALID g) = 0 := by
      rw [goodCycle, State.get_put_apart (.inr (show 16 ≤ 23 ∧ 23 < 64 ∧ (2 < 16 ∨ 23 < 2) by decide))]
      exact State.get_setOff (show 2 ≤ 2 ∧ 2 < 64 by decide)
    rw [hs.on _ hs1 hs2, State.on, hpulse.get _ hs1 hs2, hoff]
    rfl
  · rw [hs.get _ hs1 hs2, hpulse.get _ hs1 hs2]
    exact State.get_put_of_lt (show 16 ≤ 23 ∧ 23 < 64 by decide) (Nat.two_pow_pos _)
  · obtain ⟨h1, h2⟩ := ecm_settles (g := g) (a := FLD_ECM_IN (s.get (FLD_ECM_MAP_LO_WORD g e))) hg (by
      have := word_lt s g e
      unfold FLD_ECM_IN FLD_ECM_CTL
      omega)
    have hne : FLD_ECM_IN (s.get (FLD_ECM_MAP_LO_WORD g e)) ≠ FLD_ECM_STAT g := by
      have := word_lt s g e
      unfold FLD_ECM_IN FLD_ECM_STAT
      omega
    rw [hs.get _ h1 h2, hpulse.get _ h1 h2, goodCycle, State.get_put_apart (.inl hne), State.get_setOff_apart (.inl hne),
      landInputs_foldl hmap]
    exact get_foldl_landInput hty he hword bs u
  · refine (hshown.mono (fun a ha => ?_) (List.Subset.refl _)).trans (hend.mono (fun a ha => ?_) (by simp))
    · exact List.mem_cons_of_mem _ (List.mem_cons_of_mem _ (List.mem_append_left _ ha))
    · simp only [List.mem_cons, List.mem_append] at ha ⊢
      tauto

end

/-- Settles O40: a copy that comes back, the deadline, and the merge's end, good, bad or missed. -/
theorem cyclesComeBack : Obligations.CyclesComeBack := by
  intro s g c hon hg hcyc
  exact ⟨fun port frame _ => completes_ecmFrameReturn hon hcyc, completes_ecmDeadline hon hcyc, fun hphase hdue =>
    ⟨fun bs => completes_ecmMergeEnd_good hon hg hcyc hphase hdue, fun bs d => completes_ecmMergeEnd_bad hon hg hcyc hphase hdue,
      completes_ecmMergeEnd_missed hon hg hcyc hphase hdue⟩⟩

end Sys2Proof.Machine
end
section
/-! Cycles of a segment that go out: the output words converted into the template, and the frame with the time in it (R460, R462,
R463, R467). -/

namespace Sys2Proof.Machine

open Sys2Proof Sys2Proof.Machine.Reg

/-! ### Bytes beside a splice -/

theorem getElem?_spliceBytes_other {bs new : List Byte} {i k : Nat} (hk : k < bs.length) (h : k < i ∨ i + new.length ≤ k) :
    (spliceBytes bs i new)[k]? = bs[k]? := by
  rw [spliceBytes, List.append_assoc]
  by_cases hki : k < i
  · rw [List.getElem?_append_left (by rw [List.length_take]; omega), List.getElem?_take_of_lt hki]
  · have hlen : (bs.take i).length = i := by
      rw [List.length_take]
      omega
    rw [List.getElem?_append_right (by omega), hlen, List.getElem?_append_right (by omega), List.getElem?_drop]
    congr 1
    omega

theorem leField_congr {bs bs' : List Byte} {j n : Nat} (h : ∀ k, j ≤ k → k < j + n → bs'[k]? = bs[k]?) :
    leField bs' j n = leField bs j n := by
  rw [leField, leField]
  refine congrArg leNat (List.ext_getElem? fun k => ?_)
  rw [List.getElem?_take, List.getElem?_take, List.getElem?_drop, List.getElem?_drop]
  split
  · exact h _ (by omega) (by omega)
  · rfl

theorem getElem?_spliceBytes_first {bs : List Byte} {i : Nat} (b : Byte) (h : i ≤ bs.length) :
    (spliceBytes bs i [b])[i]? = some b := by
  have hlen : (bs.take i).length = i := by
    rw [List.length_take]
    omega
  rw [spliceBytes, List.append_assoc, List.getElem?_append_right (by omega), hlen, Nat.sub_self]
  rfl

/-! ### Output entries -/

/-- An output entry converted: its bytes put into the frame, its raw value kept. -/
def outputStep (s : State) (g : Nat) (sub : Bool) (sent : Tbl Nat) (a : List Byte × Tbl Nat) (e : Nat) : List Byte × Tbl Nat :=
  ((convertEntry s g sub sent a.1 e).1, tset a.2 e (convertEntry s g sub sent a.1 e).2)

/-- The output entries converted into a frame. -/
def outputs (s : State) (g : Nat) (sub : Bool) (sent : Tbl Nat) (bs : List Byte) : List Byte × Tbl Nat :=
  (entriesOf s g 1).foldl (outputStep s g sub sent) (bs, sent)

/-- The place of an entry in the frame. -/
def entryOfs (s : State) (g e : Nat) : Nat := s.get (FLD_ECM_MAP_LO_OFS g e)

def entryLen (s : State) (g e : Nat) : Nat := typeBytes (s.get (FLD_ECM_MAP_LO_TYPE g e))

theorem getElem?_putRaw_other {ty ofs bit raw k : Nat} {bs : List Byte} (hk : k < bs.length)
    (h : k < ofs ∨ ofs + typeBytes ty ≤ k) : (putRaw ty ofs bit raw bs)[k]? = bs[k]? := by
  unfold putRaw
  split
  next hty =>
    subst hty
    exact getElem?_spliceBytes_other hk (by rw [length_leBytes]; exact h)
  · exact getElem?_spliceBytes_other hk (by rw [length_leBytes]; exact h)

section

variable {s : State} {g : Nat} {sub : Bool} {sent : Tbl Nat}

theorem getElem?_convertEntry_other {bs : List Byte} {e k : Nat} (hk : k < bs.length)
    (h : k < entryOfs s g e ∨ entryOfs s g e + entryLen s g e ≤ k) : (convertEntry s g sub sent bs e).1[k]? = bs[k]? := by
  rw [convertEntry_fst]
  split
  · rfl
  · exact getElem?_putRaw_other hk h

/-- Entries that lie elsewhere leave an entry's bytes and its raw value. -/
theorem foldl_outputStep_other {e ofs len : Nat} {es : List Nat} (hes : ∀ e', e' ∈ es → e' ≠ e ∧
    (entryOfs s g e' + entryLen s g e' ≤ ofs ∨ ofs + len ≤ entryOfs s g e')) {a : List Byte × Tbl Nat}
    (hlen : ofs + len ≤ a.1.length) : ofs + len ≤ (es.foldl (outputStep s g sub sent) a).1.length ∧
      (∀ k, ofs ≤ k → k < ofs + len → (es.foldl (outputStep s g sub sent) a).1[k]? = a.1[k]?) ∧
      tget (es.foldl (outputStep s g sub sent) a).2 e = tget a.2 e := by
  induction es generalizing a with
  | nil => exact ⟨hlen, fun _ _ _ => rfl, rfl⟩
  | cons x es ih =>
    obtain ⟨hne, hapart⟩ := hes x List.mem_cons_self
    have hle : a.1.length ≤ (outputStep s g sub sent a x).1.length := length_le_convertEntry s g sub sent a.1 x
    obtain ⟨hlen', hbytes, hraw⟩ := ih (fun e' he' => hes e' (List.mem_cons_of_mem _ he'))
      (a := outputStep s g sub sent a x) (by omega)
    refine ⟨hlen', fun k h1 h2 => ?_, hraw.trans (tget_tset_ne _ _ _ _ hne.symm)⟩
    exact (hbytes k h1 h2).trans (getElem?_convertEntry_other (by omega) (by omega))

theorem length_le_foldl_outputStep (es : List Nat) (a : List Byte × Tbl Nat) :
    a.1.length ≤ (es.foldl (outputStep s g sub sent) a).1.length := by
  induction es generalizing a with
  | nil => exact Nat.le_refl _
  | cons x es ih => exact Nat.le_trans (length_le_convertEntry s g sub sent a.1 x) (ih (outputStep s g sub sent a x))

/-- The raw value that an entry gives: the output word's, the last one sent, or the substitute's (R462, R465). -/
def rawOf (s : State) (g : Nat) (sub : Bool) (sent : Tbl Nat) (bs : List Byte) (e : Nat) : Nat :=
  (convertEntry s g sub sent bs e).2

theorem rawOf_congr {bs bs' : List Byte} {e : Nat}
    (h : ∀ k, entryOfs s g e ≤ k → k < entryOfs s g e + entryLen s g e → bs'[k]? = bs[k]?) (hpos : 0 < entryLen s g e) :
    rawOf s g sub sent bs' e = rawOf s g sub sent bs e := by
  have hfield : leField bs' (s.get (FLD_ECM_MAP_LO_OFS g e)) (typeBytes (s.get (FLD_ECM_MAP_LO_TYPE g e))) = _ := leField_congr h
  have hbyte : bs'.getD (s.get (FLD_ECM_MAP_LO_OFS g e)) 0#8 = bs.getD (s.get (FLD_ECM_MAP_LO_OFS g e)) 0#8 := by
    rw [List.getD_eq_getElem?_getD, List.getD_eq_getElem?_getD, show bs'[s.get (FLD_ECM_MAP_LO_OFS g e)]? = _ from
      h _ (Nat.le_refl _) (Nat.lt_add_of_pos_right hpos)]
  unfold rawOf convertEntry
  simp only [hfield, hbyte]

/-- An entry apart from all others gives its raw value at its place. -/
theorem outputs_entry {e : Nat} {bs : List Byte} (he : e ∈ entriesOf s g 1) (hpos : 0 < entryLen s g e)
    (hlen : entryOfs s g e + entryLen s g e ≤ bs.length) (hapart : ∀ e', e' ∈ entriesOf s g 1 → e' ≠ e →
      entryOfs s g e' + entryLen s g e' ≤ entryOfs s g e ∨ entryOfs s g e + entryLen s g e ≤ entryOfs s g e') :
    tget (outputs s g sub sent bs).2 e = some (rawOf s g sub sent bs e) ∧ ∃ bs' : List Byte, bs.length ≤ bs'.length ∧
      ∀ k, entryOfs s g e ≤ k → k < entryOfs s g e + entryLen s g e → (outputs s g sub sent bs).1[k]? =
        (putRaw (s.get (FLD_ECM_MAP_LO_TYPE g e)) (entryOfs s g e) (s.get (FLD_ECM_MAP_LO_BIT g e))
          (rawOf s g sub sent bs e) bs')[k]? := by
  obtain ⟨pre, post, hsplit⟩ := List.append_of_mem he
  have hnodup : (entriesOf s g 1).Nodup := List.nodup_range.filter _
  rw [hsplit] at hnodup
  have hpre (e' : Nat) (h : e' ∈ pre) : e' ≠ e := by
    rintro rfl
    exact (List.nodup_append.mp hnodup).2.2 _ h _ List.mem_cons_self rfl
  have hpost (e' : Nat) (h : e' ∈ post) : e' ≠ e := by
    rintro rfl
    exact (List.nodup_cons.mp (List.nodup_append.mp hnodup).2.1).1 h
  have hmem (e' : Nat) (h : e' ∈ pre ∨ e' ∈ post) : e' ∈ entriesOf s g 1 := by
    rw [hsplit]
    simp only [List.mem_append, List.mem_cons]
    tauto
  obtain ⟨hlen1, hbytes1, -⟩ := foldl_outputStep_other (s := s) (g := g) (sub := sub) (sent := sent) (e := e) (es := pre)
    (fun e' h => ⟨hpre e' h, hapart e' (hmem e' (.inl h)) (hpre e' h)⟩) (a := (bs, sent)) hlen
  have hmid := length_le_foldl_outputStep (s := s) (g := g) (sub := sub) (sent := sent) pre (bs, sent)
  unfold outputs
  rw [hsplit, List.foldl_append, List.foldl_cons]
  generalize pre.foldl (outputStep s g sub sent) (bs, sent) = a at hlen1 hbytes1 hmid ⊢
  have hraw : rawOf s g sub sent a.1 e = rawOf s g sub sent bs e := rawOf_congr hbytes1 hpos
  have hstep := length_le_convertEntry s g sub sent a.1 e
  obtain ⟨-, hbytes2, hraw2⟩ := foldl_outputStep_other (s := s) (g := g) (sub := sub) (sent := sent) (e := e) (es := post)
    (fun e' h => ⟨hpost e' h, hapart e' (hmem e' (.inr h)) (hpost e' h)⟩) (a := outputStep s g sub sent a e)
    (Nat.le_trans hlen1 hstep)
  refine ⟨hraw2.trans ?_, a.1, hmid, fun k h1 h2 => (hbytes2 k h1 h2).trans ?_⟩
  · rw [outputStep, tget_tset_same, ← hraw]
    rfl
  · rw [outputStep, convertEntry_fst, if_neg (by unfold entryLen at hpos; omega), ← hraw]
    rfl

end

/-! ### Snapshots -/

/-- The raw value said field by field. -/
theorem rawOf_eq {s : State} {g e : Nat} (sub : Bool) (sent : Tbl Nat) (bs : List Byte) : rawOf s g sub sent bs e =
    if sub = false then outputRaw (s.get (FLD_ECM_MAP_LO_TYPE g e))
        (BitVec.ofNat 32 (s.get (FLD_ECM_OUT_VALUE (s.get (FLD_ECM_MAP_LO_WORD g e)))))
        (BitVec.ofNat 32 (s.get (FLD_ECM_MAP_HI_SCALE g e)))
      else if s.on (FLD_ECM_MAP_LO_SUBMODE g e) = true then
        tgetD sent e (if s.get (FLD_ECM_MAP_LO_TYPE g e) = 7 then
          ofBool ((bs.getD (entryOfs s g e) 0#8).toNat.testBit (s.get (FLD_ECM_MAP_LO_BIT g e)))
          else leField bs (entryOfs s g e) (entryLen s g e))
      else outputRaw (s.get (FLD_ECM_MAP_LO_TYPE g e)) (BitVec.ofNat 32 (s.get (FLD_ECM_MAP_HI_SUBV g e)))
        (BitVec.ofNat 32 (s.get (FLD_ECM_MAP_HI_SCALE g e))) := by
  cases sub <;> rfl

/-- A raw value of whole bytes reads back modulo its bytes. -/
theorem leField_putRaw_mod {ty ofs bit raw : Nat} {bs : List Byte} (hty : ty ≠ 7) (hofs : ofs ≤ bs.length) :
    leField (putRaw ty ofs bit raw bs) ofs (typeBytes ty) = raw % 256 ^ typeBytes ty := by
  have hfield := leField_spliceBytes_same (leBytes (typeBytes ty) raw) hofs
  rw [length_leBytes, leNat_leBytes] at hfield
  rw [putRaw, if_neg hty]
  exact hfield

/-- A bit reads back. -/
theorem testBit_putRaw {ofs bit raw : Nat} {bs : List Byte} (hofs : ofs ≤ bs.length) (hbit : bit < 8) :
    ((putRaw 7 ofs bit raw bs).getD ofs 0#8).toNat.testBit bit = decide (raw % 2 = 1) := by
  have hput : putRaw 7 ofs bit raw bs = spliceBytes bs ofs [BitVec.ofNat 8 (withBits (bs.getD ofs 0#8).toNat bit bit raw)] := rfl
  rw [hput, List.getD_eq_getElem?_getD, getElem?_spliceBytes_first _ hofs, Option.getD_some, BitVec.toNat_ofNat, Nat.testBit_mod_two_pow,
    testBit_withBits _ _ _ _ _ (by omega), if_pos ⟨Nat.le_refl _, Nat.le_refl _⟩, Nat.sub_self, decide_eq_true hbit, Bool.true_and,
    Nat.testBit_zero]

/-- What a snapshot does before it converts: an unfinished group counted, substitution left. -/
def snapshotBase (s : State) (g : Nat) : State :=
  let u := onIf (!(s.get BLV_CLE_GRP_EVT_DONE).testBit (s.get (FLD_ECM_CTL_GRP g))) (·.count (FLD_ECM_CNT_VALUE g 4) 1) s
  onIf ((segOf s g).subst && !s.on (FLD_ECM_STAT_SUBST g)) (·.epochEvent 2) u

section

variable {s : State} {g : Nat}

theorem effect_earlyCounted (early : Bool) :
    Effect [FLD_ECM_CNT g 4] [] s (onIf early (·.count (FLD_ECM_CNT_VALUE g 4) 1) s) :=
  (Effect.refl s).onIf fun _ => (Effect.refl s).count 1 List.mem_cons_self

theorem effect_snapshotBase : Effect (FLD_ECM_CNT g 4 :: epochRegs) [.diag] s (snapshotBase s g) := by
  have hearly := (effect_earlyCounted (s := s) (g := g)
    (!(s.get BLV_CLE_GRP_EVT_DONE).testBit (s.get (FLD_ECM_CTL_GRP g)))).mono (regs' := FLD_ECM_CNT g 4 :: epochRegs)
    (parts' := [.diag]) (by simp) (by simp)
  exact hearly.onIf (f := (·.epochEvent 2)) fun _ => hearly.epochEvent (List.subset_cons_self _ _) List.mem_cons_self 2

/-- A register above the segments' status, and the output words, stand. -/
theorem snapshot_keeps {a : Nat} (h : FLD_ECM_OUT 0 ≤ a ∧ a < FLD_ECM_CTL 0 ∨ FLD_ECM_TPL g 0 ≤ a ∧ a < DGN_EPOCH ∨
    a = FLD_ECM_STAT g ∨ a = FLD_ECM_FLEN g) : a ∉ FLD_ECM_CNT g 4 :: epochRegs := by
  simp only [epochRegs, List.mem_cons, List.not_mem_nil, or_false, FLD_ECM_CNT, FLD_ECS_CNT, FLD_ECS_EVT, DGN_EPOCH,
    DGN_EPOCH_CAUSE, DGN_EVT, FLD_ECM_OUT, FLD_ECM_CTL, FLD_ECM_TPL, FLD_ECM_STAT, FLD_ECM_FLEN] at h ⊢
  omega

theorem get_snapshotBase {f : Fld} (h : FLD_ECM_OUT 0 ≤ f.addr ∧ f.addr < FLD_ECM_CTL 0 ∨
    FLD_ECM_TPL g 0 ≤ f.addr ∧ f.addr < DGN_EPOCH ∨ f.addr = FLD_ECM_STAT g ∨ f.addr = FLD_ECM_FLEN g) :
    (snapshotBase s g).get f = s.get f := effect_snapshotBase.get (snapshot_keeps h)

theorem snapshotBase_stays (h : (segOf s g).subst = false ∨ s.on (FLD_ECM_STAT_SUBST g) = true) : snapshotBase s g =
    onIf (!(s.get BLV_CLE_GRP_EVT_DONE).testBit (s.get (FLD_ECM_CTL_GRP g))) (·.count (FLD_ECM_CNT_VALUE g 4) 1) s := by
  have hleaves : ((segOf s g).subst && !s.on (FLD_ECM_STAT_SUBST g)) = false := by
    rcases h with h | h <;> simp [h]
  rw [snapshotBase, hleaves]
  rfl

theorem snapshotBase_leaves (hsub : (segOf s g).subst = true) (hoff : s.on (FLD_ECM_STAT_SUBST g) = false) : snapshotBase s g =
    (onIf (!(s.get BLV_CLE_GRP_EVT_DONE).testBit (s.get (FLD_ECM_CTL_GRP g))) (·.count (FLD_ECM_CNT_VALUE g 4) 1) s).epochEvent 2 := by
  rw [snapshotBase, hsub, hoff]
  rfl

theorem count_snapshotBase (hdone : (s.get BLV_CLE_GRP_EVT_DONE).testBit (s.get (FLD_ECM_CTL_GRP g)) = false) :
    (snapshotBase s g).get (FLD_ECM_CNT_VALUE g 4) = satAdd 32 (s.get (FLD_ECM_CNT_VALUE g 4)) 1 := by
  have hcount : (s.count (FLD_ECM_CNT_VALUE g 4) 1).get (FLD_ECM_CNT_VALUE g 4) = satAdd 32 (s.get (FLD_ECM_CNT_VALUE g 4)) 1 :=
    State.get_count_self (show 0 ≤ 31 ∧ 31 < 64 by decide) 1
  have hepoch : FLD_ECM_CNT g 4 ∉ epochRegs := by
    simp only [epochRegs, List.mem_cons, List.not_mem_nil, or_false, FLD_ECM_CNT, FLD_ECS_CNT, FLD_ECS_EVT, DGN_EPOCH,
      DGN_EPOCH_CAUSE, DGN_EVT]
    omega
  rw [snapshotBase, hdone]
  show (onIf _ (·.epochEvent 2) (s.count (FLD_ECM_CNT_VALUE g 4) 1)).get _ = _
  rw [← hcount]
  exact ((Effect.refl _).onIf (f := (·.epochEvent 2)) fun _ => effect_epochEvent (parts := [.diag]) List.mem_cons_self _ 2).get hepoch

theorem ecmTpl_le (g e : Nat) : FLD_ECM_TPL g 0 ≤ FLD_ECM_MAP_LO g e ∧ FLD_ECM_TPL g 0 ≤ FLD_ECM_MAP_HI g e := by
  unfold FLD_ECM_TPL FLD_ECM_MAP_LO FLD_ECM_MAP_HI
  omega

end

section

variable {s : State} {g : Nat} {c : SegCyc} (hon : s.powered) (hg : g < 4) (hcyc : (segOf s g).cyc = some c)
include hon hg hcyc

omit hon hg hcyc in
/-- The frame that a snapshot makes, and the raw values it keeps. -/
def snapshotOutputs (s : State) (g : Nat) : List Byte × Tbl Nat :=
  outputs (snapshotBase s g) g (s.on (FLD_ECM_STAT_SUBST g)) (segOf s g).sent (frameWords (snapshotBase s g) (FLD_ECM_TPL g) 2048)

omit hon hg in
theorem exec_ecmOutputSnapshot (hphase : c.phase = 0) (hdue : c.b + s.get (FLD_ECM_TIMING_TXOFS g) ≤ s.cyc + 1000) :
    exec (.ecmOutputSnapshot g) s = finish s ((snapshotBase s g).setSeg g { segOf s g with
      cyc := some { c with phase := 1, frame := (snapshotOutputs s g).1.take (frameLen (snapshotBase s g) g) }
      sent := (snapshotOutputs s g).2, subst := s.on (FLD_ECM_STAT_SUBST g) }) := by
  have hsub (early : Bool) : (onIf early (·.count (FLD_ECM_CNT_VALUE g 4) 1) s).on (FLD_ECM_STAT_SUBST g) =
      s.on (FLD_ECM_STAT_SUBST g) := (effect_earlyCounted early).on (by
    simp only [List.mem_cons, List.not_mem_nil, or_false, FLD_ECM_STAT_SUBST, FLD_ECM_STAT, FLD_ECM_CNT]
    omega)
  show execEcmOutputSnapshot g s = _
  unfold execEcmOutputSnapshot
  simp only [hcyc, hsub]
  rw [if_neg (by omega)]
  rfl

omit hon hcyc in
theorem mapStands_snapshotBase : MapStands s (snapshotBase s g) g := by
  intro e he
  obtain ⟨hlo, hhi⟩ := ecmTpl_le g e
  constructor <;> refine effect_snapshotBase.rd _ (snapshot_keeps (.inr (.inl ⟨by assumption, ?_⟩))) <;>
    simp only [FLD_ECM_MAP_LO, FLD_ECM_MAP_HI, DGN_EPOCH] <;> omega

omit hon hcyc in
theorem template_snapshotBase :
    frameWords (snapshotBase s g) (FLD_ECM_TPL g) 2048 = frameWords s (FLD_ECM_TPL g) 2048 :=
  frameWords_congr fun i hi => effect_snapshotBase.rd _ (snapshot_keeps (.inr (.inl (by
    unfold FLD_ECM_TPL DGN_EPOCH
    omega))))

omit hon hcyc in
theorem rawOf_snapshotBase {e : Nat} (he : e < 256) (sub : Bool) (sent : Tbl Nat) (bs : List Byte) :
    rawOf (snapshotBase s g) g sub sent bs e = rawOf s g sub sent bs e := by
  have hmap := mapStands_snapshotBase (s := s) hg
  have hword := word_lt s g e
  have hout : (snapshotBase s g).get (FLD_ECM_OUT_VALUE (s.get (FLD_ECM_MAP_LO_WORD g e))) =
      s.get (FLD_ECM_OUT_VALUE (s.get (FLD_ECM_MAP_LO_WORD g e))) := get_snapshotBase (.inl (by
    simp only [FLD_ECM_OUT_VALUE, FLD_ECM_OUT, FLD_ECM_CTL]
    omega))
  have hlo (f : Nat → Nat → Fld) (hf : (f g e).addr = FLD_ECM_MAP_LO g e ∨ (f g e).addr = FLD_ECM_MAP_HI g e) :
      (snapshotBase s g).get (f g e) = s.get (f g e) := by
    rw [State.get, State.get]
    obtain ⟨hrdlo, hrdhi⟩ := hmap e he
    rcases hf with hf | hf <;> rw [hf]
    · rw [hrdlo]
    · rw [hrdhi]
  simp only [rawOf_eq, entryOfs, entryLen, hlo FLD_ECM_MAP_LO_TYPE (.inl rfl), hlo FLD_ECM_MAP_LO_WORD (.inl rfl),
    hlo FLD_ECM_MAP_LO_OFS (.inl rfl), hlo FLD_ECM_MAP_LO_BIT (.inl rfl), hlo FLD_ECM_MAP_HI_SCALE (.inr rfl),
    hlo FLD_ECM_MAP_HI_SUBV (.inr rfl), State.on_congr (hlo FLD_ECM_MAP_LO_SUBMODE (.inl rfl)), hout]

omit hon hcyc in
/-- An output entry apart from the others, in the frame of a snapshot. -/
theorem snapshotOutputs_entry {e : Nat} (he : e ∈ entriesOf s g 1) (hpos : 0 < entryLen s g e)
    (hfit : entryOfs s g e + entryLen s g e ≤ frameLen s g) (hapart : ∀ e', e' ∈ entriesOf s g 1 → e' ≠ e →
      entryOfs s g e' + entryLen s g e' ≤ entryOfs s g e ∨ entryOfs s g e + entryLen s g e ≤ entryOfs s g e')
    {raw : Nat} (hraw : raw = rawOf s g (s.on (FLD_ECM_STAT_SUBST g)) (segOf s g).sent (frameWords s (FLD_ECM_TPL g) 2048) e) :
    tget (snapshotOutputs s g).2 e = some raw ∧
      (s.get (FLD_ECM_MAP_LO_TYPE g e) ≠ 7 →
        leField ((snapshotOutputs s g).1.take (frameLen s g)) (entryOfs s g e) (entryLen s g e) = raw % 256 ^ entryLen s g e) ∧
      (s.get (FLD_ECM_MAP_LO_TYPE g e) = 7 → (((snapshotOutputs s g).1.take (frameLen s g)).getD (entryOfs s g e) 0#8).toNat.testBit
        (s.get (FLD_ECM_MAP_LO_BIT g e)) = decide (raw % 2 = 1)) := by
  have hmap := mapStands_snapshotBase (s := s) hg
  have hflen := frameLen_lt s g
  have hofs {e : Nat} (he : e < 256) : entryOfs (snapshotBase s g) g e = entryOfs s g e := hmap.get_lo he
  have hlen {e : Nat} (he : e < 256) : entryLen (snapshotBase s g) g e = entryLen s g e := congrArg typeBytes (hmap.get_lo he)
  have hty : (snapshotBase s g).get (FLD_ECM_MAP_LO_TYPE g e) = s.get (FLD_ECM_MAP_LO_TYPE g e) := hmap.get_lo (lt_of_mem_entriesOf he)
  have hbit : (snapshotBase s g).get (FLD_ECM_MAP_LO_BIT g e) = s.get (FLD_ECM_MAP_LO_BIT g e) := hmap.get_lo (lt_of_mem_entriesOf he)
  have hbit8 : s.get (FLD_ECM_MAP_LO_BIT g e) < 8 := s.get_lt (FLD_ECM_MAP_LO_BIT g e)
  have he256 := lt_of_mem_entriesOf he
  obtain ⟨hsent, bs', hbs', hbytes⟩ := outputs_entry (s := snapshotBase s g) (g := g) (sub := s.on (FLD_ECM_STAT_SUBST g))
    (sent := (segOf s g).sent) (bs := frameWords (snapshotBase s g) (FLD_ECM_TPL g) 2048) (e := e)
    (by rwa [hmap.entriesOf]) (by rwa [hlen he256])
    (by rw [hofs he256, hlen he256, length_frameWords]; omega)
    (fun e' he' hne => by
      rw [hmap.entriesOf] at he'
      rw [hofs he256, hlen he256, hofs (lt_of_mem_entriesOf he'), hlen (lt_of_mem_entriesOf he')]
      exact hapart e' he' hne)
  rw [template_snapshotBase hg, rawOf_snapshotBase hg he256, ← hraw] at hsent hbytes
  rw [template_snapshotBase hg, length_frameWords] at hbs'
  rw [hty, hbit, hofs he256, hlen he256] at hbytes
  unfold snapshotOutputs
  rw [template_snapshotBase hg]
  refine ⟨hsent, fun h7 => ?_, fun h7 => ?_⟩
  · rw [leField_take hfit, leField_congr hbytes]
    exact leField_putRaw_mod h7 (by omega)
  · rw [List.getD_eq_getElem?_getD, List.getElem?_take_of_lt (by omega), hbytes _ (Nat.le_refl _) (by omega), h7,
      ← List.getD_eq_getElem?_getD]
    exact testBit_putRaw (by omega) hbit8

theorem completes_ecmOutputSnapshot (hphase : c.phase = 0) (hdue : c.b + s.get (FLD_ECM_TIMING_TXOFS g) ≤ s.cyc + 1000) :
    Completes (.ecmOutputSnapshot g) s fun t => (∃ c', (segOf t g).cyc = some c' ∧ c'.phase = 1 ∧ c'.b = c.b ∧
        c'.frame.length = min 2048 (frameLen s g) ∧
        ∀ e, e ∈ entriesOf s g 1 → ∀ ty ofs len raw, ty = s.get (FLD_ECM_MAP_LO_TYPE g e) →
          ofs = s.get (FLD_ECM_MAP_LO_OFS g e) → len = typeBytes ty → 0 < len → ofs + len ≤ frameLen s g →
          (∀ e', e' ∈ entriesOf s g 1 → e' ≠ e → s.get (FLD_ECM_MAP_LO_OFS g e') +
            typeBytes (s.get (FLD_ECM_MAP_LO_TYPE g e')) ≤ ofs ∨ ofs + len ≤ s.get (FLD_ECM_MAP_LO_OFS g e')) →
          raw = (if s.on (FLD_ECM_STAT_SUBST g) = false then
              outputRaw ty (BitVec.ofNat 32 (s.get (FLD_ECM_OUT_VALUE (s.get (FLD_ECM_MAP_LO_WORD g e)))))
                (BitVec.ofNat 32 (s.get (FLD_ECM_MAP_HI_SCALE g e)))
            else if s.on (FLD_ECM_MAP_LO_SUBMODE g e) = true then
              tgetD (segOf s g).sent e (if ty = 7 then
                ofBool ((frameWords s (FLD_ECM_TPL g) 2048).getD ofs 0#8 |>.toNat.testBit (s.get (FLD_ECM_MAP_LO_BIT g e)))
                else leField (frameWords s (FLD_ECM_TPL g) 2048) ofs len)
            else outputRaw ty (BitVec.ofNat 32 (s.get (FLD_ECM_MAP_HI_SUBV g e)))
              (BitVec.ofNat 32 (s.get (FLD_ECM_MAP_HI_SCALE g e)))) →
          tget (segOf t g).sent e = some raw ∧ (ty ≠ 7 → leField c'.frame ofs len = raw % 256 ^ len) ∧
          (ty = 7 → (c'.frame.getD ofs 0#8).toNat.testBit (s.get (FLD_ECM_MAP_LO_BIT g e)) = decide (raw % 2 = 1))) ∧
      (segOf t g).subst = s.on (FLD_ECM_STAT_SUBST g) ∧
      ((s.get BLV_CLE_GRP_EVT_DONE).testBit (s.get (FLD_ECM_CTL_GRP g)) = false →
        t.get (FLD_ECM_CNT_VALUE g 4) = satAdd 32 (s.get (FLD_ECM_CNT_VALUE g 4)) 1) ∧
      ((segOf s g).subst = true → s.on (FLD_ECM_STAT_SUBST g) = false → (t.get DGN_EPOCH_CAUSE_MASK).testBit 2 = true ∧
        (s.epochCyc ≠ some s.blvCyc →
          t.get DGN_EPOCH_VALUE = if s.get DGN_EPOCH_VALUE = 0xFFFFFFFF then 1 else s.get DGN_EPOCH_VALUE + 1)) ∧
      ((segOf s g).subst = false ∨ s.on (FLD_ECM_STAT_SUBST g) = true → ChangesOnly [FLD_ECM_CNT g 4] [.segs] s t) := by
  have hexec := exec_ecmOutputSnapshot hcyc hphase hdue
  have hflen : frameLen (snapshotBase s g) g = frameLen s g :=
    congrArg (· - 4) (get_snapshotBase (f := FLD_ECM_FLEN_BYTES g) (.inr (.inr (.inr rfl))))
  rw [hflen] at hexec
  have hearly := effect_earlyCounted (s := s) (g := g) (!(s.get BLV_CLE_GRP_EVT_DONE).testBit (s.get (FLD_ECM_CTL_GRP g)))
  obtain ⟨hc1, hc2⟩ := ecm_settles (a := FLD_ECM_CNT g 4) hg (by unfold FLD_ECM_CNT FLD_ECM_CTL; omega)
  refine completes_of_settled hexec hon fun t hs => ⟨⟨{ c with
      phase := 1, frame := (snapshotOutputs s g).1.take (frameLen s g) }, ?_, rfl, rfl, ?_,
    fun e he ty ofs len raw hty hofs hlen hpos hfit hapart hraw => ?_⟩,
    ?_, fun hdone => ?_, fun hsub hoff => ?_, fun hstays => ?_⟩
  · rw [hs.segOf, segOf_setSeg_same]
  · have hlong : 2048 ≤ (snapshotOutputs s g).1.length := by
      have h := length_le_foldl_outputStep (s := snapshotBase s g) (g := g) (sub := s.on (FLD_ECM_STAT_SUBST g))
        (sent := (segOf s g).sent) (entriesOf (snapshotBase s g) g 1)
        (frameWords (snapshotBase s g) (FLD_ECM_TPL g) 2048, (segOf s g).sent)
      rwa [length_frameWords] at h
    have := frameLen_lt s g
    rw [List.length_take]
    omega
  · subst hty hofs hlen
    rw [hs.segOf, segOf_setSeg_same]
    exact snapshotOutputs_entry hg he hpos hfit hapart (by rw [rawOf_eq]; exact hraw)
  · rw [hs.segOf, segOf_setSeg_same]
  · rw [hs.get _ hc1 hc2, get_setSeg, count_snapshotBase hdone]
  · rw [hs.get _ (by decide) (by decide), hs.get _ (by decide) (by decide), get_setSeg, get_setSeg, snapshotBase_leaves hsub hoff]
    refine ⟨cause_epochEvent_testBit _ (by decide), fun hnew => ?_⟩
    have hcyc' := (hearly.keeps .diag (by simp)).2.1
    have htime := (hearly.keeps .time (by simp)).1
    rw [value_epochEvent, hearly.get]
    · simp only [DGN_EPOCH_VALUE, DGN_EPOCH, FLD_ECM_CNT, List.mem_singleton]
      omega
    · rwa [hcyc', State.blvCyc, htime]
  · exact hs.changesOnly (((snapshotBase_stays hstays ▸ hearly).mono (List.Subset.refl _) (by simp)).setSeg (by simp) _ _)

/-! ### Frames with the time in them (R463, R467) -/

omit hon hg hcyc in
/-- A datagram that carries the time. -/
def carriesTime (s : State) (g d : Nat) : Bool := s.on (FLD_ECM_EWKC_VALID g d) && s.on (FLD_ECM_EWKC_DCTIME g d)

omit hon hg hcyc in
/-- The time put into a datagram's data. -/
def dcTimeStep (s : State) (g n : Nat) (bs : List Byte) (d : Nat) : List Byte :=
  if carriesTime s g d then
    (spliceBytes bs (s.get (FLD_ECM_EWKC_OFS g d) - 8) (leBytes 8 (codeOf 64 (dcNow s)))).take n
  else bs

omit hon hg hcyc in
/-- A frame as it leaves. -/
def timedFrame (s : State) (g : Nat) (frame : List Byte) : List Byte := (List.range 16).foldl (dcTimeStep s g frame.length) frame

omit hon hg hcyc in
theorem length_dcTimeStep {n : Nat} {bs : List Byte} (h : bs.length = n) (d : Nat) : (dcTimeStep s g n bs d).length = n := by
  unfold dcTimeStep
  split
  · rw [List.length_take]
    have := length_le_spliceBytes bs (s.get (FLD_ECM_EWKC_OFS g d) - 8) (leBytes 8 (codeOf 64 (dcNow s)))
    omega
  · exact h

omit hon hg hcyc in
theorem length_foldl_dcTimeStep {n : Nat} {bs : List Byte} (h : bs.length = n) (ds : List Nat) :
    (ds.foldl (dcTimeStep s g n) bs).length = n := by
  induction ds generalizing bs with
  | nil => exact h
  | cons d ds ih => exact ih (length_dcTimeStep h d)

omit hon hg hcyc in
/-- Datagrams elsewhere leave a datagram's time. -/
theorem getElem?_foldl_dcTimeStep {n p : Nat} {ds : List Nat} (hds : ∀ d, d ∈ ds → carriesTime s g d = true →
      8 ≤ s.get (FLD_ECM_EWKC_OFS g d) ∧ (s.get (FLD_ECM_EWKC_OFS g d) ≤ p ∨ p + 8 ≤ s.get (FLD_ECM_EWKC_OFS g d) - 8))
    {bs : List Byte} (h : bs.length = n) {k : Nat} (hk : p ≤ k ∧ k < p + 8) (hkn : k < n) :
    (ds.foldl (dcTimeStep s g n) bs)[k]? = bs[k]? := by
  induction ds generalizing bs with
  | nil => rfl
  | cons d ds ih =>
    refine (ih (fun d' hd' => hds d' (List.mem_cons_of_mem _ hd')) (length_dcTimeStep h d)).trans ?_
    unfold dcTimeStep
    split
    next hcar =>
      obtain ⟨h8, hapart⟩ := hds d List.mem_cons_self hcar
      rw [List.getElem?_take_of_lt hkn]
      refine getElem?_spliceBytes_other (by omega) ?_
      rw [length_leBytes]
      omega
    · rfl

omit hon hg hcyc in
theorem timedFrame_of_none {frame : List Byte} (h : ∀ d, d < 16 → carriesTime s g d = false) : timedFrame s g frame = frame := by
  have hstep (ds : List Nat) (hds : ∀ d, d ∈ ds → d < 16) (n : Nat) (bs : List Byte) : ds.foldl (dcTimeStep s g n) bs = bs := by
    induction ds with
    | nil => rfl
    | cons d ds ih =>
      rw [List.foldl_cons, dcTimeStep, h d (hds d List.mem_cons_self), if_neg Bool.false_ne_true]
      exact ih fun d' hd' => hds d' (List.mem_cons_of_mem _ hd')
  exact hstep _ (fun d hd => List.mem_range.mp hd) _ _

omit hon hg hcyc in
/-- A datagram apart from the others carries the time. -/
theorem leField_timedFrame {frame : List Byte} {d : Nat} (hd : d < 16) (hcar : carriesTime s g d = true)
    (h8 : 8 ≤ s.get (FLD_ECM_EWKC_OFS g d)) (hfit : s.get (FLD_ECM_EWKC_OFS g d) ≤ frame.length)
    (hapart : ∀ d', d' < 16 → d' ≠ d → carriesTime s g d' = true →
      8 ≤ s.get (FLD_ECM_EWKC_OFS g d') ∧ (s.get (FLD_ECM_EWKC_OFS g d') + 8 ≤ s.get (FLD_ECM_EWKC_OFS g d) ∨
        s.get (FLD_ECM_EWKC_OFS g d) + 8 ≤ s.get (FLD_ECM_EWKC_OFS g d'))) :
    leField (timedFrame s g frame) (s.get (FLD_ECM_EWKC_OFS g d) - 8) 8 = codeOf 64 (dcNow s) := by
  obtain ⟨pre, post, hsplit⟩ := List.append_of_mem (List.mem_range.mpr hd)
  have hnodup : (List.range 16).Nodup := List.nodup_range
  rw [hsplit] at hnodup
  have hpost (d' : Nat) (h : d' ∈ post) : d' ≠ d := by
    rintro rfl
    exact (List.nodup_cons.mp (List.nodup_append.mp hnodup).2.1).1 h
  have hlt (d' : Nat) (h : d' ∈ post) : d' < 16 := by
    refine List.mem_range.mp ?_
    rw [hsplit]
    exact List.mem_append_right _ (List.mem_cons_of_mem _ h)
  unfold timedFrame
  rw [hsplit, List.foldl_append, List.foldl_cons]
  have hpre := length_foldl_dcTimeStep (s := s) (g := g) (bs := frame) rfl pre
  generalize pre.foldl (dcTimeStep s g frame.length) frame = bs at hpre ⊢
  have hstep := length_dcTimeStep (s := s) (g := g) hpre d
  have hbytes : leField (post.foldl (dcTimeStep s g frame.length) (dcTimeStep s g frame.length bs d))
      (s.get (FLD_ECM_EWKC_OFS g d) - 8) 8 = leField (dcTimeStep s g frame.length bs d) (s.get (FLD_ECM_EWKC_OFS g d) - 8) 8 :=
    leField_congr fun k h1 h2 => getElem?_foldl_dcTimeStep (p := s.get (FLD_ECM_EWKC_OFS g d) - 8) (fun d' hd' hcar' => by
      obtain ⟨h8', h⟩ := hapart d' (hlt d' hd') (hpost d' hd') hcar'
      omega) hstep ⟨h1, h2⟩ (by omega)
  have hfield := leField_spliceBytes_same (bs := bs) (i := s.get (FLD_ECM_EWKC_OFS g d) - 8) (leBytes 8 (codeOf 64 (dcNow s)))
    (by omega)
  rw [length_leBytes, leNat_leBytes_of_lt (show _ < 2 ^ 64 from codeOf_lt 64 _)] at hfield
  rw [hbytes, dcTimeStep, if_pos hcar, leField_take (by omega), hfield]

omit hg in
theorem completes_ecmFrameSend (hphase : c.phase = 1) (hdue : c.b + s.get (FLD_ECM_TIMING_TXOFS g) ≤ s.cyc) :
    Completes (.ecmFrameSend g) s fun t => ∃ bs l,
      t.outbox = s.outbox ++ (if s.on (FLD_ECM_STAT_LINKA g) then [.frame (segPort g false) bs] else []) ++
        (if s.on (FLD_ECM_CTL_REDUND g) && s.on (FLD_ECM_STAT_LINKB g) then [.frame (segPort g true) bs] else []) ++ l ∧
      (segOf t g).cyc = some { c with phase := 2, frame := bs, sentA := s.on (FLD_ECM_STAT_LINKA g)
                                      sentB := s.on (FLD_ECM_CTL_REDUND g) && s.on (FLD_ECM_STAT_LINKB g) } ∧
      ((∀ d, d < 16 → s.on (FLD_ECM_EWKC_VALID g d) = true → s.on (FLD_ECM_EWKC_DCTIME g d) = false) → bs = c.frame) ∧
      (∀ d, d < 16 → s.on (FLD_ECM_EWKC_VALID g d) = true → s.on (FLD_ECM_EWKC_DCTIME g d) = true →
        8 ≤ s.get (FLD_ECM_EWKC_OFS g d) → s.get (FLD_ECM_EWKC_OFS g d) ≤ c.frame.length →
        (∀ d', d' < 16 → d' ≠ d → s.on (FLD_ECM_EWKC_VALID g d') = true → s.on (FLD_ECM_EWKC_DCTIME g d') = true →
          8 ≤ s.get (FLD_ECM_EWKC_OFS g d') ∧ (s.get (FLD_ECM_EWKC_OFS g d') + 8 ≤ s.get (FLD_ECM_EWKC_OFS g d) ∨
            s.get (FLD_ECM_EWKC_OFS g d) + 8 ≤ s.get (FLD_ECM_EWKC_OFS g d'))) →
        leField bs (s.get (FLD_ECM_EWKC_OFS g d) - 8) 8 = codeOf 64 (dcNow s)) ∧
      ChangesOnly [] [.segs, .out] s t := by
  have hexec : exec (.ecmFrameSend g) s = finish s
      ((onIf (s.on (FLD_ECM_CTL_REDUND g) && s.on (FLD_ECM_STAT_LINKB g))
        (·.send (.frame (segPort g true) (timedFrame s g c.frame)))
        (onIf (s.on (FLD_ECM_STAT_LINKA g)) (·.send (.frame (segPort g false) (timedFrame s g c.frame))) s)).setSeg g
        { segOf s g with cyc := some { c with
            phase := 2, frame := timedFrame s g c.frame, sentA := s.on (FLD_ECM_STAT_LINKA g)
            sentB := s.on (FLD_ECM_CTL_REDUND g) && s.on (FLD_ECM_STAT_LINKB g) } }) := by
    show execEcmFrameSend g s = _
    unfold execEcmFrameSend
    simp only [hcyc]
    rw [if_neg (by omega)]
    rfl
  have hsends : Effect [] [.segs, .out] s (onIf (s.on (FLD_ECM_CTL_REDUND g) && s.on (FLD_ECM_STAT_LINKB g))
      (·.send (.frame (segPort g true) (timedFrame s g c.frame)))
      (onIf (s.on (FLD_ECM_STAT_LINKA g)) (·.send (.frame (segPort g false) (timedFrame s g c.frame))) s)) :=
    Effect.onIf ((Effect.refl s).onIf fun _ => (Effect.refl s).send _ (by simp)) fun _ =>
      Effect.send ((Effect.refl s).onIf fun _ => (Effect.refl s).send _ (by simp)) _ (by simp)
  refine completes_of_settled hexec hon fun t hs => ?_
  obtain ⟨l, hl, -⟩ := hs.out
  refine ⟨timedFrame s g c.frame, l, hl.trans (congrArg (· ++ l) ?_), ?_, fun h => timedFrame_of_none fun d hd => ?_,
    fun d hd hvalid hdc h8 hfit hapart => ?_, hs.changesOnly (hsends.setSeg (by simp) _ _)⟩
  · cases s.on (FLD_ECM_STAT_LINKA g) <;> cases (s.on (FLD_ECM_CTL_REDUND g) && s.on (FLD_ECM_STAT_LINKB g)) <;>
      simp [State.setSeg, onIf]
  · rw [hs.segOf, segOf_setSeg_same]
  · rw [carriesTime]
    cases hvalid : s.on (FLD_ECM_EWKC_VALID g d) with
    | false => rfl
    | true => exact h d hd hvalid
  · refine leField_timedFrame hd (by rw [carriesTime, hvalid, hdc]; rfl) h8 hfit fun d' hd' hne hcar => ?_
    obtain ⟨hv, ht⟩ := Bool.and_eq_true_iff.mp hcar
    exact hapart d' hd' hne hv ht

end

/-- Settles O39: a snapshot, entry by entry, and the frame that leaves. -/
theorem cyclesAreSent : Obligations.CyclesAreSent := by
  intro s g c hon hg hcyc
  exact ⟨completes_ecmOutputSnapshot hon hg hcyc, completes_ecmFrameSend hon hcyc⟩

end Sys2Proof.Machine
end
section
/-! Compare units: firing, pulses, arming and latching (R22, R283–R289). -/

namespace Sys2Proof.Machine

open Sys2Proof Sys2Proof.Machine.Reg

theorem keyRegs_cmp : ∀ c, c < 32 → keyRegs (16 + c) = [(TIM_CMP_CTL c, 0xFFFFFF28), (TIM_CMP_TGT_LO c, 0xFFFF3FFFFFFF),
    (TIM_CMP_TGT_HI c, 0xFFFFFFFFFFFF), (TIM_CMP_PER c, 0xFFFFFFFFFFFF)] := by decide +kernel

/-- The registers of a compare unit lie apart, and do not settle. -/
theorem cmp_settles {c a : Nat} (hc : c < 32) (ha : a < TIM_CMP_CTL (c + 1)) : a ≠ DGN_CNT_MERGE ∧ a ≠ DGN_EVT := by
  unfold TIM_CMP_CTL at ha
  unfold DGN_CNT_MERGE DGN_EVT
  omega

/-! ### Armed targets -/

/-- A target of 48 bits of seconds. -/
def targetModulus : Nat := 2 ^ 48 * 1000000000 * 65536

theorem cmpNext_congr {s t : State} {c : Nat} (hlo : t.rd (TIM_CMP_NEXT_LO c) = s.rd (TIM_CMP_NEXT_LO c))
    (hhi : t.rd (TIM_CMP_NEXT_HI c) = s.rd (TIM_CMP_NEXT_HI c)) : cmpNext t c = cmpNext s c := by
  have hsec : t.get (TIM_CMP_NEXT_HI_SEC c) = s.get (TIM_CMP_NEXT_HI_SEC c) := by
    rw [State.get, State.get, show t.rd (TIM_CMP_NEXT_HI_SEC c).addr = _ from hhi]
    rfl
  have hns : t.get (TIM_CMP_NEXT_LO_NS c) = s.get (TIM_CMP_NEXT_LO_NS c) := by
    rw [State.get, State.get, show t.rd (TIM_CMP_NEXT_LO_NS c).addr = _ from hlo]
    rfl
  have hfrac : t.get (TIM_CMP_NEXT_LO_FRAC c) = s.get (TIM_CMP_NEXT_LO_FRAC c) := by
    rw [State.get, State.get, show t.rd (TIM_CMP_NEXT_LO_FRAC c).addr = _ from hlo]
    rfl
  rw [cmpNext, cmpNext, hsec, hns, hfrac]

theorem bitsOf_ns {n f : Nat} (hn : n < 1000000000) : bitsOf (n + f * 2 ^ 32) 29 0 = n := by
  rw [bitsOf, Nat.shiftRight_zero]
  omega

theorem bitsOf_frac {n f : Nat} (hn : n < 1000000000) (hf : f < 65536) : bitsOf (n + f * 2 ^ 32) 47 32 = f := by
  rw [bitsOf, Nat.shiftRight_eq_div_pow]
  omega

theorem bitsOf_sec {n : Nat} (hn : n < 2 ^ 48) : bitsOf n 47 0 = n := by
  rw [bitsOf, Nat.shiftRight_zero, Nat.mod_eq_of_lt hn]

/-- The target that a unit is armed on reads back. -/
theorem cmpNext_setNext (s : State) (c t : Nat) : cmpNext (s.setNext c t) c = t % targetModulus := by
  have hint : (((t : Int) % ((2 ^ 48 * 1000000000 * 65536 : Nat) : Int)).toNat) = t % targetModulus := by
    rw [← Int.natCast_emod, Int.toNat_natCast]
    rfl
  have hlt : t % targetModulus < 281474976710656 * 1000000000 * 65536 := Nat.mod_lt _ (by decide)
  unfold State.setNext
  rw [hint]
  generalize t % targetModulus = x at hlt ⊢
  have hne : TIM_CMP_NEXT_LO c ≠ TIM_CMP_NEXT_HI c := by
    unfold TIM_CMP_NEXT_LO TIM_CMP_NEXT_HI
    omega
  have hlo : (x / 65536 % 1000000000 + x % 65536 * 2 ^ 32) < 2 ^ 64 := by omega
  have hhi : x / 65536 / 1000000000 < 2 ^ 48 := by omega
  simp only [cmpNext, State.get, TIM_CMP_NEXT_HI_SEC, TIM_CMP_NEXT_LO_NS, TIM_CMP_NEXT_LO_FRAC, State.rd_wr_same,
    State.rd_wr_ne _ _ _ _ hne]
  rw [State.toNat_ofNat_rd hlo, State.toNat_ofNat_rd (Nat.lt_trans hhi (by decide)), bitsOf_ns (by omega),
    bitsOf_frac (by omega) (by omega), bitsOf_sec hhi]
  omega

theorem Effect.setNext {regs : List Nat} {parts : List Part} {s t : State} (h : Effect regs parts s t) {c : Nat}
    (hlo : TIM_CMP_NEXT_LO c ∈ regs) (hhi : TIM_CMP_NEXT_HI c ∈ regs) (x : Int) : Effect regs parts s (t.setNext c x) :=
  (h.wr _ hlo).wr _ hhi

theorem get_setNext {s : State} {c : Nat} {f : Fld} (hlo : f.addr ≠ TIM_CMP_NEXT_LO c) (hhi : f.addr ≠ TIM_CMP_NEXT_HI c) (x : Int) :
    (s.setNext c x).get f = s.get f := by
  unfold State.setNext
  simp only
  rw [State.get_wr_ne hhi, State.get_wr_ne hlo]

theorem Effect.cmpLate {regs : List Nat} {parts : List Part} {s t : State} (h : Effect regs parts s t) (x : Tbl Nat)
    (hp : Part.servo ∈ parts) : Effect regs parts s { t with cmpLate := x } :=
  h.components rfl fun p hq => by
    cases p
    case servo => exact absurd hp hq
    all_goals simp [Keeps]

theorem Effect.pulses {regs : List Nat} {parts : List Part} {s t : State} (h : Effect regs parts s t) (x : List Pulse)
    (hp : Part.servo ∈ parts) : Effect regs parts s { t with pulses := x } :=
  h.components rfl fun p hq => by
    cases p
    case servo => exact absurd hp hq
    all_goals simp [Keeps]

@[simp] theorem get_cmpLate (s : State) (x : Tbl Nat) (f : Fld) : State.get { s with cmpLate := x } f = s.get f := rfl

theorem cmpNext_cmpLate (s : State) (x : Tbl Nat) (c : Nat) : cmpNext { s with cmpLate := x } c = cmpNext s c := rfl

/-! ### Arming (R287) -/

/-- A unit armed, before its target is set. -/
def armReady (s : State) (c : Nat) : State := { s.setOn (TIM_CMP_STAT_ARMED c) with cmpLate := tdel s.cmpLate c }

/-- Registers that arming changes. -/
def armRegs (c : Nat) : List Nat := [TIM_CMP_STAT c, TIM_CMP_NEXT_LO c, TIM_CMP_NEXT_HI c]

section

variable {s : State} {c : Nat}

theorem effect_armReady : Effect (armRegs c) [.servo] s (armReady s c) :=
  ((Effect.refl s).setOn (by simp [armRegs, TIM_CMP_STAT_ARMED])).cmpLate _ List.mem_cons_self

theorem not_mem_armRegs {a : Nat} (h : a ≠ TIM_CMP_STAT c) (hlo : a ≠ TIM_CMP_NEXT_LO c) (hhi : a ≠ TIM_CMP_NEXT_HI c) :
    a ∉ armRegs c := by
  simp [armRegs, h, hlo, hhi]

theorem time_not_mem_armRegs : TIM_CTRL ∉ armRegs c := by
  simp only [armRegs, List.mem_cons, List.not_mem_nil, or_false, TIM_CTRL, TIM_CMP_STAT, TIM_CMP_NEXT_LO, TIM_CMP_NEXT_HI]
  omega

theorem ctl_not_mem_armRegs : TIM_CMP_CTL c ∉ armRegs c := by
  simp only [armRegs, List.mem_cons, List.not_mem_nil, or_false, TIM_CMP_CTL, TIM_CMP_STAT, TIM_CMP_NEXT_LO, TIM_CMP_NEXT_HI]
  omega

theorem per_not_mem_armRegs : TIM_CMP_PER c ∉ armRegs c := by
  simp only [armRegs, List.mem_cons, List.not_mem_nil, or_false, TIM_CMP_PER, TIM_CMP_STAT, TIM_CMP_NEXT_LO, TIM_CMP_NEXT_HI]
  omega

/-- The period stands where its register and the controls stand. -/
theorem cmpPer_of_effect {regs : List Nat} {parts : List Part} {t : State} (h : Effect regs parts s t) (hper : TIM_CMP_PER c ∉ regs) :
    cmpPer t c = cmpPer s c := by
  rw [cmpPer, cmpPer, h.get (f := TIM_CMP_PER_NS c) hper, h.get (f := TIM_CMP_PER_FRAC c) hper]

theorem cmpPeriodic_of_effect {regs : List Nat} {parts : List Part} {t : State} (h : Effect regs parts s t)
    (hctl : TIM_CMP_CTL c ∉ regs) (hper : TIM_CMP_PER c ∉ regs) : cmpPeriodic t c = cmpPeriodic s c := by
  rw [cmpPeriodic, cmpPeriodic, h.on (f := TIM_CMP_CTL_PERIODIC c) hctl, cmpPer_of_effect h hper]

theorem armUnit_eq (tgt : Nat) : armUnit s c tgt =
    if cmpDiff s tgt < 0 then (armReady s c).setNext c tgt
    else if cmpPeriodic s c then
      ((armReady s c).count (TIM_CMP_STAT_MISSED c) (periodsPast s tgt (cmpPer s c)).toNat).setNext c
        (tgt + (periodsPast s tgt (cmpPer s c)).toNat * cmpPer s c)
    else { (armReady s c).setNext c tgt with cmpLate := tset (armReady s c).cmpLate c (s.cyc + 1) } := by
  have heff := effect_armReady (s := s) (c := c)
  have hmode := heff.epochMode time_not_mem_armRegs
  have hacc := heff.acc (by simp)
  rw [← cmpDiff_congr hacc hmode, ← cmpPeriodic_of_effect heff ctl_not_mem_armRegs per_not_mem_armRegs,
    ← cmpPer_of_effect heff per_not_mem_armRegs, ← periodsPast_congr hacc hmode]
  rfl

theorem effect_armUnit (tgt : Nat) : Effect (armRegs c) [.servo] s (armUnit s c tgt) := by
  rw [armUnit_eq]
  have hlo : TIM_CMP_NEXT_LO c ∈ armRegs c := by simp [armRegs]
  have hhi : TIM_CMP_NEXT_HI c ∈ armRegs c := by simp [armRegs]
  have hstat : (TIM_CMP_STAT_MISSED c).addr ∈ armRegs c := List.mem_cons_self
  exact Effect.ite (fun _ => effect_armReady.setNext hlo hhi _) fun _ =>
    Effect.ite (fun _ => (effect_armReady.count _ hstat).setNext hlo hhi _) fun _ =>
      (effect_armReady.setNext hlo hhi _).cmpLate _ List.mem_cons_self

theorem stat_ne_next (c : Nat) : TIM_CMP_STAT c ≠ TIM_CMP_NEXT_LO c ∧ TIM_CMP_STAT c ≠ TIM_CMP_NEXT_HI c := by
  unfold TIM_CMP_STAT TIM_CMP_NEXT_LO TIM_CMP_NEXT_HI
  omega

theorem armed_armReady : (armReady s c).get (TIM_CMP_STAT_ARMED c) = 1 := State.get_setOn (show 1 ≤ 1 ∧ 1 < 64 by decide)

theorem armed_armUnit (tgt : Nat) : (armUnit s c tgt).get (TIM_CMP_STAT_ARMED c) = 1 := by
  obtain ⟨hlo, hhi⟩ := stat_ne_next c
  rw [armUnit_eq]
  split
  · rw [get_setNext hlo hhi, armed_armReady]
  · split
    · rw [get_setNext hlo hhi, State.get_count_apart (.inr (show 16 ≤ 31 ∧ 31 < 64 ∧ (1 < 16 ∨ 31 < 1) by decide)), armed_armReady]
    · rw [get_cmpLate, get_setNext hlo hhi, armed_armReady]

/-- A target to come. -/
theorem armUnit_future {tgt : Nat} (h : cmpDiff s tgt < 0) :
    cmpNext (armUnit s c tgt) c = tgt % targetModulus ∧ tget (armUnit s c tgt).cmpLate c = none := by
  rw [armUnit_eq, if_pos h]
  exact ⟨cmpNext_setNext _ c tgt, tget_tdel_same _ c⟩

/-- A past target of a one-shot unit. -/
theorem armUnit_late {tgt : Nat} (h : 0 ≤ cmpDiff s tgt) (honce : cmpPeriodic s c = false) :
    cmpNext (armUnit s c tgt) c = tgt % targetModulus ∧ tget (armUnit s c tgt).cmpLate c = some (s.cyc + 1) := by
  rw [armUnit_eq, if_neg (by omega), honce, if_neg Bool.false_ne_true, cmpNext_cmpLate, cmpNext_setNext]
  exact ⟨rfl, tget_tset_same ..⟩

/-- A past target of a periodic unit. -/
theorem armUnit_skips {tgt : Nat} (h : 0 ≤ cmpDiff s tgt) (hper : cmpPeriodic s c = true) :
    cmpNext (armUnit s c tgt) c = (tgt + (periodsPast s tgt (cmpPer s c)).toNat * cmpPer s c) % targetModulus ∧
      (armUnit s c tgt).get (TIM_CMP_STAT_MISSED c) =
        satAdd 16 (s.get (TIM_CMP_STAT_MISSED c)) (periodsPast s tgt (cmpPer s c)).toNat := by
  obtain ⟨hlo, hhi⟩ := stat_ne_next c
  rw [armUnit_eq, if_neg (by omega), if_pos hper]
  generalize (periodsPast s tgt (cmpPer s c)).toNat = n
  refine ⟨?_, ?_⟩
  · have hcast : (tgt : Int) + n * cmpPer s c = ((tgt + n * cmpPer s c : Nat) : Int) := by push_cast; rfl
    rw [hcast, cmpNext_setNext]
  · rw [get_setNext hlo hhi, State.get_count_self (show 16 ≤ 31 ∧ 31 < 64 by decide)]
    refine congrArg (satAdd 16 · n) ?_
    exact State.get_setOn_apart (.inr (show 1 ≤ 1 ∧ 1 < 64 ∧ (31 < 1 ∨ 1 < 16) by decide))

/-! ### Firing (R284–R286, R289) -/

/-- A unit's firing shown. -/
def firedShown (s : State) (c : Nat) (late : Bool) : State :=
  (s.put (TIM_CMP_STAT_LATE c) (ofBool late)).raise TIM_CMP_EVT_UNIT (2 ^ c)

/-- The destination of a unit drives a pulse. -/
def drivesPulse (s : State) (c : Nat) : Prop :=
  (16 ≤ s.get (TIM_CMP_CTL_DEST c) ∧ s.get (TIM_CMP_CTL_DEST c) ≤ 27) ∨
    (32 ≤ s.get (TIM_CMP_CTL_DEST c) ∧ s.get (TIM_CMP_CTL_DEST c) ≤ 35) ∨
    (64 ≤ s.get (TIM_CMP_CTL_DEST c) ∧ s.get (TIM_CMP_CTL_DEST c) ≤ 95 ∧
      s.on (BLV_TIO_CFG_DIR (s.get (TIM_CMP_CTL_DEST c) - 64)) = true)

/-- The pulse of a firing. -/
def pulseOf (s : State) (c : Nat) : Pulse :=
  { unit := c, dest := s.get (TIM_CMP_CTL_DEST c), high := s.on (TIM_CMP_CTL_POL c)
    endAt := s.cyc + max 1 (s.get (TIM_CMP_CTL_WIDTH c)) }

theorem driveDest_pulse (hdest : s.get (TIM_CMP_CTL_DEST c) ≠ 1)
    (hgrp : s.get (TIM_CMP_CTL_DEST c) < 8 ∨ 15 < s.get (TIM_CMP_CTL_DEST c)) (hp : drivesPulse s c) (ecc : Nat) :
    driveDest s c ecc = { s with pulses := s.pulses ++ [pulseOf s c] } := by
  unfold driveDest
  simp only
  rw [if_neg hdest, if_neg (by omega)]
  exact if_pos hp

theorem driveDest_none (hdest : s.get (TIM_CMP_CTL_DEST c) ≠ 1)
    (hgrp : s.get (TIM_CMP_CTL_DEST c) < 8 ∨ 15 < s.get (TIM_CMP_CTL_DEST c)) (hp : ¬ drivesPulse s c) (ecc : Nat) :
    driveDest s c ecc = s := by
  unfold driveDest
  simp only
  rw [if_neg hdest, if_neg (by omega)]
  exact if_neg hp

theorem effect_driveDest (hdest : s.get (TIM_CMP_CTL_DEST c) ≠ 1)
    (hgrp : s.get (TIM_CMP_CTL_DEST c) < 8 ∨ 15 < s.get (TIM_CMP_CTL_DEST c)) (ecc : Nat) :
    Effect [] [.servo] s (driveDest s c ecc) := by
  by_cases hp : drivesPulse s c
  · rw [driveDest_pulse hdest hgrp hp]
    exact (Effect.refl s).pulses _ List.mem_cons_self
  · rw [driveDest_none hdest hgrp hp]
    exact Effect.refl s

/-- No wake where another unit wakes the module, or where it is not Dormant. -/
theorem wake_of_awake {src : Nat} (h : s.get PWR_STAT_STATE ≠ 2 ∧ s.get PWR_STAT_STATE ≠ 3) : s.wake src = s := by
  unfold State.wake
  simp only
  rw [if_pos (.inl h)]

/-- A firing that has reached its destination. -/
def firedDriven (s : State) (c : Nat) (late : Bool) (ecc : Nat) : State :=
  { driveDest (firedShown s c late) c ecc with cmpLate := tdel (firedShown s c late).cmpLate c }

theorem fireUnit_eq (s : State) (c : Nat) (late : Bool) (ecc : Nat) : fireUnit s c late ecc =
    let u := onIf ((firedDriven s c late ecc).get PWR_WAKE_CMP == c) (·.wake 2) (firedDriven s c late ecc)
    if u.isPending (16 + c) then armUnit (u.latch (16 + c)) c (cmpTarget (u.latch (16 + c)) c)
    else if cmpPeriodic s c then u.setNext c (cmpNext s c + cmpPer s c) else disarmUnit u c := rfl

theorem effect_firedShown (late : Bool) : Effect [TIM_CMP_STAT c, TIM_CMP_EVT] [.servo] s (firedShown s c late) :=
  ((Effect.refl s).put (f := TIM_CMP_STAT_LATE c) _ List.mem_cons_self).raise _ (by simp [TIM_CMP_EVT_UNIT])

theorem firedRegs_apart (c : Nat) {a : Nat} (h : a ≠ TIM_CMP_STAT c) (he : a ≠ TIM_CMP_EVT) : a ∉ [TIM_CMP_STAT c, TIM_CMP_EVT] := by
  simp [h, he]

theorem ctl_not_mem_fired (c : Nat) : TIM_CMP_CTL c ∉ [TIM_CMP_STAT c, TIM_CMP_EVT] := by
  simp only [List.mem_cons, List.not_mem_nil, or_false, TIM_CMP_CTL, TIM_CMP_STAT, TIM_CMP_EVT]
  omega

section

variable (hdest : s.get (TIM_CMP_CTL_DEST c) ≠ 1)
  (hgrp : s.get (TIM_CMP_CTL_DEST c) < 8 ∨ 15 < s.get (TIM_CMP_CTL_DEST c)) (late : Bool) (ecc : Nat)
include hdest hgrp

theorem effect_driven : Effect [] [.servo] (firedShown s c late) (firedDriven s c late ecc) := by
  have hget : (firedShown s c late).get (TIM_CMP_CTL_DEST c) = s.get (TIM_CMP_CTL_DEST c) :=
    (effect_firedShown late).get (ctl_not_mem_fired c)
  exact (effect_driveDest (by rwa [hget]) (by rwa [hget]) ecc).cmpLate _ List.mem_cons_self

theorem effect_firedDriven : Effect [TIM_CMP_STAT c, TIM_CMP_EVT] [.servo] s (firedDriven s c late ecc) :=
  (effect_firedShown late).trans ((effect_driven hdest hgrp late ecc).mono (List.nil_subset _) (List.Subset.refl _))

/-- A firing of a unit without a pending set that wakes nothing. -/
theorem fireUnit_plain (hpend : s.isPending (16 + c) = false)
    (hwake : s.get PWR_WAKE_CMP ≠ c ∨ (s.get PWR_STAT_STATE ≠ 2 ∧ s.get PWR_STAT_STATE ≠ 3)) : fireUnit s c late ecc =
      if cmpPeriodic s c then (firedDriven s c late ecc).setNext c (cmpNext s c + cmpPer s c)
      else disarmUnit (firedDriven s c late ecc) c := by
  have heff := effect_firedDriven hdest hgrp late ecc
  have hcmp : (firedDriven s c late ecc).get PWR_WAKE_CMP = s.get PWR_WAKE_CMP := heff.get (firedRegs_apart c
    (by simp only [PWR_WAKE_CMP, PWR_WAKE, TIM_CMP_STAT]; omega) (by decide))
  have hstate : (firedDriven s c late ecc).get PWR_STAT_STATE = s.get PWR_STAT_STATE := heff.get (firedRegs_apart c
    (by simp only [PWR_STAT_STATE, PWR_STAT, TIM_CMP_STAT]; omega) (by decide))
  have hpend' : (firedDriven s c late ecc).isPending (16 + c) = false := by
    rw [State.isPending, (heff.keeps .held (by simp)).2]
    exact hpend
  have hasleep : onIf ((firedDriven s c late ecc).get PWR_WAKE_CMP == c) (·.wake 2) (firedDriven s c late ecc) =
      firedDriven s c late ecc := by
    rcases hwake with hne | hawake
    · rw [hcmp, beq_eq_false_iff_ne.mpr hne]
      rfl
    · have hstay : (firedDriven s c late ecc).wake 2 = firedDriven s c late ecc := wake_of_awake (by rwa [hstate])
      unfold onIf
      simp only [hstay, ite_self]
  rw [fireUnit_eq]
  simp only [hasleep, hpend', Bool.false_eq_true, if_false]

theorem event_firedDriven (hc : c < 32) : (firedDriven s c late ecc).get TIM_CMP_EVT_UNIT = s.get TIM_CMP_EVT_UNIT ||| 2 ^ c := by
  have hne : TIM_CMP_EVT ≠ TIM_CMP_STAT c := by
    unfold TIM_CMP_EVT TIM_CMP_STAT
    omega
  rw [(effect_driven hdest hgrp late ecc).get (by simp), firedShown,
    State.get_raise_of_lt (by decide) (show 2 ^ c < 2 ^ 32 from Nat.pow_lt_pow_right (by decide) hc), State.get_put_apart (.inl hne)]

theorem late_firedDriven : (firedDriven s c late ecc).on (TIM_CMP_STAT_LATE c) = late := by
  have hne : TIM_CMP_STAT c ≠ TIM_CMP_EVT := by
    unfold TIM_CMP_EVT TIM_CMP_STAT
    omega
  rw [(effect_driven hdest hgrp late ecc).on (by simp), firedShown, State.on_congr (State.get_raise_apart (.inl hne) _),
    State.on_put_ofBool (show 2 ≤ 2 ∧ 2 < 64 by decide)]

theorem armed_firedDriven : (firedDriven s c late ecc).get (TIM_CMP_STAT_ARMED c) = s.get (TIM_CMP_STAT_ARMED c) := by
  have hne : TIM_CMP_STAT c ≠ TIM_CMP_EVT := by
    unfold TIM_CMP_EVT TIM_CMP_STAT
    omega
  rw [(effect_driven hdest hgrp late ecc).get (by simp), firedShown, State.get_raise_apart (.inl hne),
    State.get_put_apart (.inr (show 2 ≤ 2 ∧ 2 < 64 ∧ (1 < 2 ∨ 2 < 1) by decide))]

theorem pulses_firedDriven (hc : c < 32) (hp : drivesPulse s c) : (firedDriven s c late ecc).pulses = s.pulses ++ [pulseOf s c] := by
  have heff := effect_firedShown (s := s) (c := c) late
  have hget {hi lo : Nat} : (firedShown s c late).get ⟨TIM_CMP_CTL c, hi, lo⟩ = s.get ⟨TIM_CMP_CTL c, hi, lo⟩ :=
    heff.get (ctl_not_mem_fired c)
  have hd : (firedShown s c late).get (TIM_CMP_CTL_DEST c) = s.get (TIM_CMP_CTL_DEST c) := hget
  have hw : (firedShown s c late).get (TIM_CMP_CTL_WIDTH c) = s.get (TIM_CMP_CTL_WIDTH c) := hget
  have hpol : (firedShown s c late).on (TIM_CMP_CTL_POL c) = s.on (TIM_CMP_CTL_POL c) := State.on_congr hget
  have hdir (k : Nat) : (firedShown s c late).on (BLV_TIO_CFG_DIR k) = s.on (BLV_TIO_CFG_DIR k) := heff.on (firedRegs_apart c (by
    simp only [BLV_TIO_CFG_DIR, BLV_TIO_CFG, TIM_CMP_STAT]
    omega) (by
    simp only [BLV_TIO_CFG_DIR, BLV_TIO_CFG, TIM_CMP_EVT]
    omega))
  have hp' : drivesPulse (firedShown s c late) c := by
    unfold drivesPulse
    rw [hd, hdir]
    exact hp
  have hpulse : pulseOf (firedShown s c late) c = pulseOf s c := by
    rw [pulseOf, hd, hpol, hw, heff.cyc (by simp), pulseOf]
  show (driveDest (firedShown s c late) c ecc).pulses = _
  rw [driveDest_pulse (by rwa [hd]) (by rwa [hd]) hp', hpulse]
  rfl

end

end

/-! ### Completions -/

section

variable {s : State} {c : Nat} (hon : s.powered) (hc : c < 32)
include hon hc

theorem completes_compareFire {ecc : Nat} {late : Bool} (hdue : cmpDue s c = some late) (hpend : s.isPending (16 + c) = false)
    (hdest : s.get (TIM_CMP_CTL_DEST c) ≠ 1)
    (hwake : s.get PWR_WAKE_CMP ≠ c ∨ (s.get PWR_STAT_STATE ≠ 2 ∧ s.get PWR_STAT_STATE ≠ 3))
    (hgrp : s.get (TIM_CMP_CTL_DEST c) < 8 ∨ 15 < s.get (TIM_CMP_CTL_DEST c)) :
    Completes (.compareFire c ecc) s fun t =>
      t.get TIM_CMP_EVT_UNIT = s.get TIM_CMP_EVT_UNIT ||| 2 ^ c ∧ t.on (TIM_CMP_STAT_LATE c) = late ∧
      tget t.cmpLate c = none ∧
      (cmpPeriodic s c = false → t.on (TIM_CMP_STAT_ARMED c) = false ∧
        ChangesOnly [TIM_CMP_STAT c, TIM_CMP_EVT] [.servo] s t) ∧
      (cmpPeriodic s c = true → t.on (TIM_CMP_STAT_ARMED c) = true ∧
        cmpNext t c = (cmpNext s c + cmpPer s c) % (accModulus / 65536) ∧
        ChangesOnly [TIM_CMP_STAT c, TIM_CMP_EVT, TIM_CMP_NEXT_LO c, TIM_CMP_NEXT_HI c] [.servo] s t) ∧
      (drivesPulse s c → ∃ p, t.pulses = s.pulses ++ [p] ∧
        p.unit = c ∧ p.dest = s.get (TIM_CMP_CTL_DEST c) ∧ p.high = s.on (TIM_CMP_CTL_POL c) ∧
        p.endAt = s.cyc + max 1 (s.get (TIM_CMP_CTL_WIDTH c))) := by
  have hexec : exec (.compareFire c ecc) s = finish s (fireUnit s c late ecc) := by
    show execCompareFire c ecc s = _
    rw [execCompareFire, hdue]
    simp only
    rw [if_pos hc]
  rw [fireUnit_plain hdest hgrp late ecc hpend hwake] at hexec
  have harmed : s.get (TIM_CMP_STAT_ARMED c) = 1 := by
    refine State.on_eq_true_iff.mp (Bool.not_eq_false _ ▸ fun hoff => ?_)
    rw [cmpDue, hoff] at hdue
    exact absurd hdue (by simp)
  have heff := effect_firedDriven hdest hgrp late ecc
  have hevent := event_firedDriven hdest hgrp late ecc hc
  have hlate := late_firedDriven hdest hgrp late ecc
  have hkept := (armed_firedDriven hdest hgrp late ecc).trans harmed
  have hpulses := pulses_firedDriven hdest hgrp late ecc hc
  have hdel : tget (firedDriven s c late ecc).cmpLate c = none := tget_tdel_same ..
  obtain ⟨hs1, hs2⟩ := cmp_settles (a := TIM_CMP_STAT c) hc (by unfold TIM_CMP_STAT TIM_CMP_CTL; omega)
  obtain ⟨hl1, hl2⟩ := cmp_settles (a := TIM_CMP_NEXT_LO c) hc (by unfold TIM_CMP_NEXT_LO TIM_CMP_CTL; omega)
  obtain ⟨hh1, hh2⟩ := cmp_settles (a := TIM_CMP_NEXT_HI c) hc (by unfold TIM_CMP_NEXT_HI TIM_CMP_CTL; omega)
  obtain ⟨hlo, hhi⟩ := stat_ne_next c
  generalize firedDriven s c late ecc = u at hexec heff hevent hlate hkept hpulses hdel
  have hevtNext : TIM_CMP_EVT ≠ TIM_CMP_NEXT_LO c ∧ TIM_CMP_EVT ≠ TIM_CMP_NEXT_HI c ∧ TIM_CMP_EVT ≠ TIM_CMP_STAT c := by
    unfold TIM_CMP_EVT TIM_CMP_NEXT_LO TIM_CMP_NEXT_HI TIM_CMP_STAT
    omega
  obtain ⟨hel, heh, hes⟩ := hevtNext
  cases hper : cmpPeriodic s c with
  | true =>
    rw [hper, if_pos rfl] at hexec
    have hcast : (cmpNext s c : Int) + cmpPer s c = ((cmpNext s c + cmpPer s c : Nat) : Int) := by push_cast; rfl
    rw [hcast] at hexec
    refine completes_of_settled hexec hon fun t hs => ⟨?_, ?_, ?_, fun h => absurd h (by simp), fun _ => ⟨?_, ?_, ?_⟩, fun hp => ?_⟩
    · rw [hs.get _ (by decide) (by decide), get_setNext hel heh, hevent]
    · rw [hs.on _ hs1 hs2, State.on_congr (get_setNext hlo hhi _), hlate]
    · rw [hs.cmpLate]
      exact hdel
    · rw [hs.on _ hs1 hs2, State.on_eq_true_iff, get_setNext hlo hhi, hkept]
    · rw [cmpNext_congr (hs.rd _ hl1 hl2) (hs.rd _ hh1 hh2), cmpNext_setNext]
      exact congrArg _ (show targetModulus = accModulus / 65536 by decide)
    · exact hs.changesOnly ((heff.mono (by simp) (List.Subset.refl _)).setNext (by simp) (by simp) _)
    · refine ⟨pulseOf s c, ?_, rfl, rfl, rfl, rfl⟩
      rw [hs.pulses]
      exact hpulses hp
  | false =>
    rw [hper, if_neg Bool.false_ne_true] at hexec
    refine completes_of_settled hexec hon fun t hs => ⟨?_, ?_, ?_, fun _ => ⟨?_, ?_⟩, fun h => absurd h (by simp), fun hp => ?_⟩
    · rw [hs.get _ (by decide) (by decide), disarmUnit, get_cmpLate, State.get_setOff_apart (.inl hes), hevent]
    · rw [hs.on _ hs1 hs2, disarmUnit, State.on_congr (get_cmpLate _ _ _),
        State.on_congr (State.get_setOff_apart (.inr (show 1 ≤ 1 ∧ 1 < 64 ∧ (2 < 1 ∨ 1 < 2) by decide))), hlate]
    · rw [hs.cmpLate]
      exact tget_tdel_same ..
    · have hoff : (disarmUnit u c).get (TIM_CMP_STAT_ARMED c) = 0 := by
        rw [disarmUnit, get_cmpLate, State.get_setOff (show 1 ≤ 1 ∧ 1 < 64 by decide)]
      rw [hs.on _ hs1 hs2, State.on, hoff]
      rfl
    · exact hs.changesOnly ((heff.setOff List.mem_cons_self).cmpLate _ List.mem_cons_self)
    · refine ⟨pulseOf s c, ?_, rfl, rfl, rfl, rfl⟩
      rw [hs.pulses]
      exact hpulses hp

omit hc in
theorem completes_pulseEnd : Completes (.pulseEnd c) s fun t =>
    (∀ p, p ∈ t.pulses ↔ p ∈ s.pulses ∧ ¬ (p.unit = c ∧ p.endAt ≤ s.cyc)) ∧ ChangesOnly [] [.servo] s t := by
  have hexec : exec (.pulseEnd c) s = finish s { s with pulses := s.pulses.filter fun p => !(p.unit == c && p.endAt ≤ s.cyc) } := rfl
  refine completes_of_settled hexec hon fun t hs => ⟨fun p => ?_, hs.changesOnly ((Effect.refl s).pulses _ List.mem_cons_self)⟩
  rw [hs.pulses, List.mem_filter]
  simp [imp_iff_not_or]

end

/-! ### Writes of a unit's controls (R22, R286, R287) -/

def cmpCtlRow : RegDesc :=
  ⟨"TIM_CMP_CTL", 0x100004001000, [(32, 0x40)], 32, 0x640000, [⟨31, 16, .shadowed⟩, ⟨15, 15, .shadowed⟩, ⟨14, 8, .shadowed⟩,
    ⟨5, 5, .shadowed⟩, ⟨3, 3, .shadowed⟩, ⟨1, 1, .live⟩, ⟨0, 0, .live⟩], some (0x100004001000, 0x40, 0), some .cmp⟩

theorem regAt_cmpCtl : ∀ c, c < 32 → regAt (TIM_CMP_CTL c) = some (cmpCtlRow, [c], false) := by decide

theorem storedRow_cmpCtl : ∀ c, c < 32 → StoredRow (TIM_CMP_CTL c) cmpCtlRow := by decide

/-- The controls stored, with ENABLE as it was. -/
def cmpCtlStored (s : State) (c v : Nat) : State :=
  (regStored s cmpCtlRow (TIM_CMP_CTL c) v).put (TIM_CMP_CTL_ENABLE c) ((s.rd (TIM_CMP_CTL c)).toNat % 2)

section

variable {s : State} {c : Nat} {who : Initiator}

theorem effect_cmpCtlStored (v : Nat) : Effect [TIM_CMP_CTL c] [.held] s (cmpCtlStored s c v) :=
  (effect_regStored s cmpCtlRow (TIM_CMP_CTL c) v).put _ (by simp [TIM_CMP_CTL_ENABLE])

section

variable (hc : c < 32)
include hc

theorem writeReg_cmpCtl {v : Nat} (ok : WriteOk s who (TIM_CMP_CTL c) v) : writeReg s who (TIM_CMP_CTL c) v =
    cmpEnableWritten c ((s.rd (TIM_CMP_CTL c)).toNat % 2) (v % 2)
      ((onIf (v.testBit 1) (cmpCommitWritten c) (cmpCtlStored s c v)).put (TIM_CMP_CTL_ENABLE c) (v % 2)) :=
  writeReg_stored ok (regAt_cmpCtl c hc) (storedRow_cmpCtl c hc)

/-- The shadowed fields in force stand. -/
theorem periodic_cmpCtlStored {v : Nat} (ok : WriteOk s who (TIM_CMP_CTL c) v) :
    (cmpCtlStored s c v).get (TIM_CMP_CTL_PERIODIC c) = s.get (TIM_CMP_CTL_PERIODIC c) := by
  have hfield := fieldWritten_stored ok (regAt_cmpCtl c hc) (storedRow_cmpCtl c hc) (f := ⟨3, 3, .shadowed⟩) (by decide)
  rw [cmpCtlStored, State.get_put_apart (.inr (show 0 ≤ 0 ∧ 0 < 64 ∧ (3 < 0 ∨ 0 < 3) by decide))]
  exact hfield.2

end

/-- The controls as a write without COMMIT leaves them. -/
def cmpCtlTaken (s : State) (c v : Nat) : State := (cmpCtlStored s c v).put (TIM_CMP_CTL_ENABLE c) (v % 2)

theorem effect_cmpCtlTaken (v : Nat) : Effect [TIM_CMP_CTL c] [.held] s (cmpCtlTaken s c v) :=
  (effect_cmpCtlStored v).put _ (by simp [TIM_CMP_CTL_ENABLE])

theorem enable_cmpCtlTaken (v : Nat) : (cmpCtlTaken s c v).get (TIM_CMP_CTL_ENABLE c) = v % 2 :=
  State.get_put_of_lt (show 0 ≤ 0 ∧ 0 < 64 by decide) (Nat.mod_lt _ (by decide))

theorem cmpCtl_ne (c : Nat) : TIM_CMP_TGT_LO c ≠ TIM_CMP_CTL c ∧ TIM_CMP_TGT_HI c ≠ TIM_CMP_CTL c ∧ TIM_CMP_PER c ≠ TIM_CMP_CTL c ∧
    TIM_CMP_STAT c ≠ TIM_CMP_CTL c ∧ TIM_CTRL ≠ TIM_CMP_CTL c := by
  unfold TIM_CMP_TGT_LO TIM_CMP_TGT_HI TIM_CMP_PER TIM_CMP_STAT TIM_CMP_CTL TIM_CTRL
  omega

theorem cmpTarget_of_effect {regs : List Nat} {parts : List Part} {t : State} (h : Effect regs parts s t)
    (hlo : TIM_CMP_TGT_LO c ∉ regs) (hhi : TIM_CMP_TGT_HI c ∉ regs) : cmpTarget t c = cmpTarget s c := by
  rw [cmpTarget, cmpTarget, h.get (f := TIM_CMP_TGT_HI_SEC c) hhi, h.get (f := TIM_CMP_TGT_LO_NS c) hlo,
    h.get (f := TIM_CMP_TGT_LO_FRAC c) hlo]

theorem completes_compareEnable_on (hon : s.powered) (hc : c < 32) {v : Word64} (ok : WriteOk s who (TIM_CMP_CTL c) v.toNat)
    (hoff : s.on (TIM_CMP_CTL_ENABLE c) = false) (hv : v.toNat % 2 = 1) (hcommit : v.toNat.testBit 1 = false) :
    Completes (.compareEnable who c v) s fun t => t.on (TIM_CMP_CTL_ENABLE c) = true ∧ t.on (TIM_CMP_STAT_ARMED c) = true ∧
      (cmpDiff s (cmpTarget s c) < 0 → cmpNext t c = cmpTarget s c % (accModulus / 65536) ∧ tget t.cmpLate c = none) ∧
      (0 ≤ cmpDiff s (cmpTarget s c) → cmpPeriodic s c = false →
        cmpNext t c = cmpTarget s c % (accModulus / 65536) ∧ tget t.cmpLate c = some (s.cyc + 1)) ∧
      (0 ≤ cmpDiff s (cmpTarget s c) → cmpPeriodic s c = true →
        ∃ n, n = (periodsPast s (cmpTarget s c) (cmpPer s c)).toNat ∧
          cmpNext t c = (cmpTarget s c + n * cmpPer s c) % (accModulus / 65536) ∧
          t.get (TIM_CMP_STAT_MISSED c) = satAdd 16 (s.get (TIM_CMP_STAT_MISSED c)) n) ∧
      ChangesOnly [TIM_CMP_CTL c, TIM_CMP_STAT c, TIM_CMP_NEXT_LO c, TIM_CMP_NEXT_HI c] [.servo, .held] s t := by
  have heff := effect_cmpCtlTaken (s := s) (c := c) v.toNat
  have henable := enable_cmpCtlTaken (s := s) (c := c) v.toNat
  have hperiodic : (cmpCtlTaken s c v.toNat).on (TIM_CMP_CTL_PERIODIC c) = s.on (TIM_CMP_CTL_PERIODIC c) := State.on_congr
    ((State.get_put_apart (.inr (show 0 ≤ 0 ∧ 0 < 64 ∧ (3 < 0 ∨ 0 < 3) by decide)) _).trans (periodic_cmpCtlStored hc ok))
  obtain ⟨hlo, hhi, hper, hstat, htime⟩ := cmpCtl_ne c
  have htarget := cmpTarget_of_effect heff (by simpa using hlo) (by simpa using hhi)
  have hwrite : writeReg s who (TIM_CMP_CTL c) v.toNat = armUnit (cmpCtlTaken s c v.toNat) c (cmpTarget s c) := by
    rw [writeReg_cmpCtl hc ok, hcommit, cmpEnableWritten, if_pos ⟨State.mod_two_of_off rfl rfl hoff, hv⟩, ← htarget]
    rfl
  have hmode : (cmpCtlTaken s c v.toNat).epochMode = s.epochMode := heff.epochMode (by simpa using htime)
  have hacc : (cmpCtlTaken s c v.toNat).acc = s.acc := heff.acc (by simp)
  have hcyc : (cmpCtlTaken s c v.toNat).cyc = s.cyc := heff.cyc (by simp)
  have hmissed : (cmpCtlTaken s c v.toNat).get (TIM_CMP_STAT_MISSED c) = s.get (TIM_CMP_STAT_MISSED c) :=
    heff.get (List.not_mem_cons_of_ne_of_not_mem hstat List.not_mem_nil)
  have hperiod := cmpPer_of_effect heff (by simpa using hper)
  have hper' : cmpPeriodic (cmpCtlTaken s c v.toNat) c = cmpPeriodic s c := by rw [cmpPeriodic, hperiodic, hperiod, cmpPeriodic]
  generalize cmpCtlTaken s c v.toNat = u at heff henable hwrite hmode hacc hcyc hmissed hperiod hper'
  have harm := effect_armUnit (s := u) (c := c) (cmpTarget s c)
  have harmed := armed_armUnit (s := u) (c := c) (cmpTarget s c)
  have hfut := armUnit_future (s := u) (c := c) (tgt := cmpTarget s c)
  have hlate := armUnit_late (s := u) (c := c) (tgt := cmpTarget s c)
  have hskip := armUnit_skips (s := u) (c := c) (tgt := cmpTarget s c)
  rw [cmpDiff_congr hacc hmode] at hfut hlate hskip
  rw [hper', hcyc] at hlate
  rw [hper', periodsPast_congr hacc hmode, hperiod, hmissed] at hskip
  have hmod : targetModulus = accModulus / 65536 := by decide
  rw [hmod] at hfut hlate hskip
  generalize armUnit u c (cmpTarget s c) = w at hwrite harm harmed hfut hlate hskip
  obtain ⟨hs1, hs2⟩ := cmp_settles (a := TIM_CMP_STAT c) hc (by unfold TIM_CMP_STAT TIM_CMP_CTL; omega)
  obtain ⟨hl1, hl2⟩ := cmp_settles (a := TIM_CMP_NEXT_LO c) hc (by unfold TIM_CMP_NEXT_LO TIM_CMP_CTL; omega)
  obtain ⟨hh1, hh2⟩ := cmp_settles (a := TIM_CMP_NEXT_HI c) hc (by unfold TIM_CMP_NEXT_HI TIM_CMP_CTL; omega)
  obtain ⟨hc1, hc2⟩ := cmp_settles (a := TIM_CMP_CTL c) hc (by unfold TIM_CMP_CTL; omega)
  refine completes_of_settled (congrArg (finish s) hwrite) hon fun t hs => ?_
  rw [cmpNext_congr (hs.rd _ hl1 hl2) (hs.rd _ hh1 hh2), hs.cmpLate, hs.get (TIM_CMP_STAT_MISSED c) hs1 hs2]
  refine ⟨?_, ?_, hfut, hlate, fun hpast hp => ⟨_, rfl, hskip hpast hp⟩, hs.changesOnly
    ((heff.mono (by simp) (by simp)).trans (harm.mono (by simp [armRegs]) (by simp)))⟩
  · rw [hs.on _ hc1 hc2, harm.on ctl_not_mem_armRegs, State.on_eq_true_iff, henable, hv]
  · rw [hs.on _ hs1 hs2, State.on_eq_true_iff, harmed]

theorem completes_compareEnable_off (hon : s.powered) (hc : c < 32) {v : Word64} (ok : WriteOk s who (TIM_CMP_CTL c) v.toNat)
    (hrun : s.on (TIM_CMP_CTL_ENABLE c) = true) (hv : v.toNat % 2 = 0) (hcommit : v.toNat.testBit 1 = false)
    (hpend : s.isPending (16 + c) = false) :
    Completes (.compareEnable who c v) s fun t =>
      t.on (TIM_CMP_CTL_ENABLE c) = false ∧ t.on (TIM_CMP_STAT_ARMED c) = false ∧
      ChangesOnly [TIM_CMP_CTL c, TIM_CMP_STAT c] [.servo, .held] s t := by
  have heff := effect_cmpCtlTaken (s := s) (c := c) v.toNat
  have henable := enable_cmpCtlTaken (s := s) (c := c) v.toNat
  have hpend' : (cmpCtlTaken s c v.toNat).isPending (16 + c) = false := by
    rw [State.isPending, show (cmpCtlTaken s c v.toNat).pendSets = _ from pendSets_regStored ..]
    exact hpend
  have hwrite : writeReg s who (TIM_CMP_CTL c) v.toNat = (disarmUnit (cmpCtlTaken s c v.toNat) c).latch (16 + c) := by
    rw [writeReg_cmpCtl hc ok, hcommit, cmpEnableWritten, if_neg (by omega), if_pos ⟨State.mod_two_of_on rfl rfl hrun, hv⟩]
    rfl
  generalize cmpCtlTaken s c v.toNat = u at heff henable hwrite hpend'
  rw [latch_of_none (show (disarmUnit u c).isPending (16 + c) = false from hpend')] at hwrite
  obtain ⟨hs1, hs2⟩ := cmp_settles (a := TIM_CMP_STAT c) hc (by unfold TIM_CMP_STAT TIM_CMP_CTL; omega)
  obtain ⟨hc1, hc2⟩ := cmp_settles (a := TIM_CMP_CTL c) hc (by unfold TIM_CMP_CTL; omega)
  obtain ⟨-, -, -, hstat, -⟩ := cmpCtl_ne c
  refine completes_of_settled (congrArg (finish s) hwrite) hon fun t hs => ⟨?_, ?_, hs.changesOnly
    (((heff.mono (by simp) (by simp)).setOff (by simp [TIM_CMP_STAT_ARMED])).cmpLate _ List.mem_cons_self)⟩
  · have hoff : (disarmUnit u c).get (TIM_CMP_CTL_ENABLE c) = 0 := by
      rw [disarmUnit, get_cmpLate, State.get_setOff_apart (.inl hstat.symm), henable, hv]
    rw [hs.on _ hc1 hc2, State.on, hoff]
    rfl
  · have hoff : (disarmUnit u c).get (TIM_CMP_STAT_ARMED c) = 0 := by
      rw [disarmUnit, get_cmpLate, State.get_setOff (show 1 ≤ 1 ∧ 1 < 64 by decide)]
    rw [hs.on _ hs1 hs2, State.on, hoff]
    rfl

theorem commit_written {v : Nat} : (v ||| 2).testBit 1 = true ∧ (v ||| 2) % 2 = v % 2 := by
  refine ⟨?_, ?_⟩
  · rw [Nat.testBit_or, show Nat.testBit 2 1 = true from rfl, Bool.or_true]
  · rw [Nat.or_mod_two_pow (n := 1)]
    simp

/-- The held copies of the other registers stand. -/
theorem heldRd_cmpCtlStored {a : Nat} (h : a ≠ TIM_CMP_CTL c) (v : Nat) : (cmpCtlStored s c v).heldRd a = s.heldRd a := by
  rw [show (cmpCtlStored s c v).heldRd a = (regStored s cmpCtlRow (TIM_CMP_CTL c) v).heldRd a from rfl]
  exact heldRd_regStored_ne s _ v h

theorem completes_compareCommit_on (hon : s.powered) (hc : c < 32) {v : Word64}
    (ok : WriteOk s who (TIM_CMP_CTL c) (v.toNat ||| 2)) (hrun : s.on (TIM_CMP_CTL_ENABLE c) = true) (hv : v.toNat % 2 = 1) :
    Completes (.compareCommit who c v) s fun t =>
      t.isPending (16 + c) = true ∧ (∀ r ∈ keyRegs (16 + c), t.pendRd (16 + c) r.1 = t.heldRd r.1 ∧
        (r.1 ≠ TIM_CMP_CTL c → t.heldRd r.1 = s.heldRd r.1)) ∧
      ChangesOnly [TIM_CMP_CTL c] [.held] s t := by
  obtain ⟨hbit, hmod⟩ := commit_written (v := v.toNat)
  have hold := State.mod_two_of_on rfl rfl hrun
  have heff := effect_cmpCtlStored (s := s) (c := c) (v.toNat ||| 2)
  have hheld {a : Nat} (h : a ≠ TIM_CMP_CTL c) := heldRd_cmpCtlStored (s := s) h (v.toNat ||| 2)
  have henable : (cmpCtlStored s c (v.toNat ||| 2)).on (TIM_CMP_CTL_ENABLE c) = true :=
    State.on_eq_true_iff.mpr ((State.get_put_of_lt (show 0 ≤ 0 ∧ 0 < 64 by decide) (show _ % 2 < 2 ^ 1 from Nat.mod_lt _ (by decide))).trans hold)
  have hwrite := writeReg_cmpCtl hc ok
  rw [hbit, hmod, hv, show (s.rd (TIM_CMP_CTL c)).toNat % 2 = 1 from hold] at hwrite
  generalize cmpCtlStored s c (v.toNat ||| 2) = u at heff hheld henable hwrite
  have hcommit : onIf true (cmpCommitWritten c) u = u.snapshot (16 + c) := if_pos henable
  rw [hcommit, cmpEnableWritten, if_neg (by omega), if_neg (by omega)] at hwrite
  refine completes_of_settled (congrArg (finish s) hwrite) hon fun t hs => ⟨?_, fun r hr => ⟨?_, fun hne => ?_⟩,
    hs.changesOnly ((heff.snapshot _ List.mem_cons_self).put _ (by simp [TIM_CMP_CTL_ENABLE]))⟩
  · rw [hs.isPending]
    exact State.isPending_snapshot
  · exact (State.pendRd_of_snapshot hr hs.pendSets).trans (hs.heldRd r.1).symm
  · exact (hs.heldRd r.1).trans (hheld hne)

theorem nodup_keyRegs_cmp (hc : c < 32) : ((keyRegs (16 + c)).map Prod.fst).Nodup := by
  rw [keyRegs_cmp c hc]
  simp [TIM_CMP_CTL, TIM_CMP_TGT_LO, TIM_CMP_TGT_HI, TIM_CMP_PER]

theorem completes_compareCommit_off (hon : s.powered) (hc : c < 32) {v : Word64}
    (ok : WriteOk s who (TIM_CMP_CTL c) (v.toNat ||| 2)) (hoff : s.on (TIM_CMP_CTL_ENABLE c) = false) (hv : v.toNat % 2 = 0) :
    Completes (.compareCommit who c v) s fun t =>
      t.isPending (16 + c) = false ∧ cmpTarget t c = (s.heldGet (TIM_CMP_TGT_HI_SEC c) * 1000000000 +
        s.heldGet (TIM_CMP_TGT_LO_NS c)) * 65536 + s.heldGet (TIM_CMP_TGT_LO_FRAC c) ∧
      t.get (TIM_CMP_PER_NS c) = s.heldGet (TIM_CMP_PER_NS c) ∧ t.get (TIM_CMP_PER_FRAC c) = s.heldGet (TIM_CMP_PER_FRAC c) ∧
      ChangesOnly [TIM_CMP_CTL c, TIM_CMP_TGT_LO c, TIM_CMP_TGT_HI c, TIM_CMP_PER c] [.held] s t := by
  obtain ⟨hbit, hmod⟩ := commit_written (v := v.toNat)
  have hold := State.mod_two_of_off rfl rfl hoff
  have heff := effect_cmpCtlStored (s := s) (c := c) (v.toNat ||| 2)
  have hheld {a : Nat} (h : a ≠ TIM_CMP_CTL c) := heldRd_cmpCtlStored (s := s) h (v.toNat ||| 2)
  have henable : (cmpCtlStored s c (v.toNat ||| 2)).get (TIM_CMP_CTL_ENABLE c) = 0 :=
    (State.get_put_of_lt (show 0 ≤ 0 ∧ 0 < 64 by decide) (show _ % 2 < 2 ^ 1 from Nat.mod_lt _ (by decide))).trans hold
  have hwrite := writeReg_cmpCtl hc ok
  rw [hbit, hmod, hv, show (s.rd (TIM_CMP_CTL c)).toNat % 2 = 0 from hold] at hwrite
  generalize cmpCtlStored s c (v.toNat ||| 2) = u at heff hheld henable hwrite
  have hstill : (u.snapshot (16 + c)).on (TIM_CMP_CTL_ENABLE c) = false :=
    State.on_eq_false_iff.mpr (by rw [show (u.snapshot (16 + c)).get (TIM_CMP_CTL_ENABLE c) = 0 from henable]; decide)
  have hcommit : onIf true (cmpCommitWritten c) u = (u.snapshot (16 + c)).latch (16 + c) := by
    show (if (u.snapshot (16 + c)).on (TIM_CMP_CTL_ENABLE c) = true then _ else _) = _
    rw [hstill, if_neg Bool.false_ne_true]
  rw [hcommit, cmpEnableWritten, if_neg (by omega), if_neg (by omega)] at hwrite
  obtain ⟨hlo, hhi, hper, -, -⟩ := cmpCtl_ne c
  have hlatched {a m hi lo : Nat} (hr : (a, m) ∈ keyRegs (16 + c)) (hne : a ≠ TIM_CMP_CTL c) (hm : m < 2 ^ 64) (h64 : hi < 64)
      (hin : bitsOf m hi lo = 2 ^ (hi + 1 - lo) - 1) :
      (((u.snapshot (16 + c)).latch (16 + c)).put (TIM_CMP_CTL_ENABLE c) 0).get ⟨a, hi, lo⟩ = s.heldGet ⟨a, hi, lo⟩ := by
    rw [State.get_put_apart (.inl hne), State.get, rd_latch_snapshot hr (nodup_keyRegs_cmp hc) hm,
      State.toNat_ofNat_rd (mergeBits_lt (u.rd a).isLt (u.heldRd a).isLt), bitsOf_mergeBits_in hm h64 _ _ hin, hheld hne]
    rfl
  have hregs := keyRegs_cmp c hc
  have hsets {a : Nat} (ha : a < TIM_CMP_CTL (c + 1)) := cmp_settles (a := a) hc ha
  obtain ⟨hl1, hl2⟩ := hsets (a := TIM_CMP_TGT_LO c) (by unfold TIM_CMP_TGT_LO TIM_CMP_CTL; omega)
  obtain ⟨hh1, hh2⟩ := hsets (a := TIM_CMP_TGT_HI c) (by unfold TIM_CMP_TGT_HI TIM_CMP_CTL; omega)
  obtain ⟨hp1, hp2⟩ := hsets (a := TIM_CMP_PER c) (by unfold TIM_CMP_PER TIM_CMP_CTL; omega)
  refine completes_of_settled (congrArg (finish s) hwrite) hon fun t hs => ⟨?_, ?_, ?_, ?_, hs.changesOnly
    ((Effect.latch ((heff.mono (by simp) (by simp)).snapshot _ List.mem_cons_self) ?_ List.mem_cons_self).put _
      (by simp [TIM_CMP_CTL_ENABLE]))⟩
  · rw [hs.isPending]
    exact isPending_latch ..
  · rw [cmpTarget, hs.get (TIM_CMP_TGT_HI_SEC c) hh1 hh2, hs.get (TIM_CMP_TGT_LO_NS c) hl1 hl2,
      hs.get (TIM_CMP_TGT_LO_FRAC c) hl1 hl2, TIM_CMP_TGT_HI_SEC, TIM_CMP_TGT_LO_NS, TIM_CMP_TGT_LO_FRAC,
      hlatched (m := 0xFFFFFFFFFFFF) (by simp [hregs]) hhi (by decide) (by decide) (by decide),
      hlatched (m := 0xFFFF3FFFFFFF) (by simp [hregs]) hlo (by decide) (by decide) (by decide),
      hlatched (m := 0xFFFF3FFFFFFF) (by simp [hregs]) hlo (by decide) (by decide) (by decide)]
  · rw [hs.get (TIM_CMP_PER_NS c) hp1 hp2]
    exact hlatched (m := 0xFFFFFFFFFFFF) (by simp [hregs]) hper (by decide) (by decide) (by decide)
  · rw [hs.get (TIM_CMP_PER_FRAC c) hp1 hp2]
    exact hlatched (m := 0xFFFFFFFFFFFF) (by simp [hregs]) hper (by decide) (by decide) (by decide)
  · intro r hr
    rw [hregs] at hr
    simp only [List.mem_cons, List.not_mem_nil, or_false] at hr ⊢
    rcases hr with rfl | rfl | rfl | rfl <;> simp

end

/-- Settles O23: firings and pulses, and the writes that arm, disarm and latch a unit. -/
theorem compareUnitsArmFireAndPulse : Obligations.CompareUnitsArmFireAndPulse :=
  ⟨fun _ _ _ _ hon hc => ⟨completes_compareFire hon hc, completes_pulseEnd hon⟩,
    fun _ _ _ _ hon hc => ⟨completes_compareEnable_on hon hc, completes_compareEnable_off hon hc,
      completes_compareCommit_on hon hc, completes_compareCommit_off hon hc⟩⟩

end Sys2Proof.Machine
end
section
/-! The servo: its samples, their corrections, its sources and its parameters (R20, R22, R279–R282). -/

namespace Sys2Proof.Machine

open Sys2Proof Sys2Proof.Machine.Reg

/-! ### Signed fields -/

/-- A signed value that fits reads back. -/
theorem getInt_putInt {s : State} {f : Fld} (hf : ValidFld f) {i : Int} (hlo : -(2 ^ (f.hi - f.lo) : Nat) ≤ i)
    (hhi : i < (2 ^ (f.hi - f.lo) : Nat)) : (s.putInt f i).getInt f = i := by
  rw [State.getInt, State.putInt, State.get_put_of_lt hf (codeOf_lt _ i), Nat.sub_add_comm hf.1]
  exact signedOf_codeOf (by exact_mod_cast hlo) (by exact_mod_cast hhi)

theorem signedOf_bounds (x : Nat) : -(2 ^ 47 : Nat) ≤ signedOf 48 x ∧ signedOf 48 x < (2 ^ 47 : Nat) := by
  unfold signedOf
  simp only
  split <;> omega

theorem State.getInt_congr {s t : State} {f : Fld} (h : t.get f = s.get f) : t.getInt f = s.getInt f := by
  rw [State.getInt, State.getInt, h]

theorem Effect.putInt {regs : List Nat} {parts : List Part} {s t : State} (h : Effect regs parts s t) {f : Fld} (i : Int)
    (hf : f.addr ∈ regs) : Effect regs parts s (t.putInt f i) := h.put _ hf

/-! ### Components of the servo -/

theorem Effect.rates {regs : List Nat} {parts : List Part} {s t : State} (h : Effect regs parts s t)
    (x : List (Nat × Int × Int)) (hp : Part.servo ∈ parts) : Effect regs parts s { t with rates := x } :=
  h.components rfl fun p hq => by
    cases p
    case servo => exact absurd hp hq
    all_goals simp [Keeps]

theorem Effect.lockRun {regs : List Nat} {parts : List Part} {s t : State} (h : Effect regs parts s t) (x : Nat × Nat)
    (hp : Part.servo ∈ parts) : Effect regs parts s { t with lockRun := x } :=
  h.components rfl fun p hq => by
    cases p
    case servo => exact absurd hp hq
    all_goals simp [Keeps]

theorem Effect.seeSource {regs : List Nat} {parts : List Part} {s t : State} (h : Effect regs parts s t) (src : Nat)
    (hp : Part.servo ∈ parts) : Effect regs parts s (seeSource t src) :=
  h.components rfl fun p hq => by
    cases p
    case servo => exact absurd hp hq
    all_goals simp [Keeps, Machine.seeSource]

/-! ### A sample (R280, R281) -/

section

variable {s : State}

/-- The runs of samples inside and outside the threshold after one more. -/
def runAfter (s : State) (theta : Int) : Nat × Nat :=
  if decide (theta.natAbs ≤ s.get TIM_SRV_LOCK_LOCKTHR * 4096) then (s.lockRun.1 + 1, 0) else (0, s.lockRun.2 + 1)

/-- LOCKED after a sample, the runs known. -/
def lockJudged (s : State) (theta : Int) : State :=
  if decide (theta.natAbs ≤ s.get TIM_SRV_LOCK_LOCKTHR * 4096) ∧ max 1 (s.get TIM_SRV_LOCK_LOCKN) ≤ s.lockRun.1 ∧
      !s.on TIM_CTRL_LOCKED then (s.setOn TIM_CTRL_LOCKED).setOn TIM_EVT_LOCKCHG
  else if !decide (theta.natAbs ≤ s.get TIM_SRV_LOCK_LOCKTHR * 4096) ∧ max 1 (s.get TIM_SRV_LOCK_LOCKN) ≤ s.lockRun.2 ∧
      s.on TIM_CTRL_LOCKED then (s.setOff TIM_CTRL_LOCKED).setOn TIM_EVT_LOCKCHG
  else s

theorem lockAfter_eq (theta : Int) : lockAfter s theta = lockJudged { s with lockRun := runAfter s theta } theta := rfl

theorem effect_lockJudged (theta : Int) : Effect [TIM_CTRL, TIM_EVT] [] s (lockJudged s theta) :=
  Effect.ite (fun _ => ((Effect.refl s).setOn (by decide)).setOn (by decide)) fun _ =>
    Effect.ite (fun _ => ((Effect.refl s).setOff (by decide)).setOn (by decide)) fun _ => Effect.refl s

/-- Only LOCKED, its event and the runs follow a sample's offset. -/
theorem effect_lockAfter (theta : Int) : Effect [TIM_CTRL, TIM_EVT] [.servo] s (lockAfter s theta) := by
  rw [lockAfter_eq]
  exact ((Effect.refl s).lockRun _ List.mem_cons_self).trans ((effect_lockJudged theta).mono (List.Subset.refl _) (List.nil_subset _))

theorem get_lockAfter {f : Fld} (hlock : Apart TIM_CTRL_LOCKED f) (hevt : Apart TIM_EVT_LOCKCHG f) (theta : Int) :
    (lockAfter s theta).get f = s.get f := by
  rw [lockAfter_eq, lockJudged]
  split
  · rw [State.get_setOn_apart hevt, State.get_setOn_apart hlock]
    rfl
  · split
    · rw [State.get_setOn_apart hevt, State.get_setOff_apart hlock]
      rfl
    · rfl

theorem servo_lockAfter (theta : Int) : (lockAfter s theta).rates = s.rates ∧ (lockAfter s theta).srcSeen = s.srcSeen := by
  obtain ⟨-, -, -, hrates, hseen, -, -⟩ := (effect_lockJudged (s := { s with lockRun := runAfter s theta }) theta).keeps .servo (by simp)
  exact ⟨hrates, hseen⟩

/-- The sample's clamp shown. -/
def clampShown (s : State) (clamped : Bool) : State :=
  onIf clamped (fun s => (s.count TIM_CNT_CLAMP_VALUE 1).setOn TIM_EVT_CLAMP) s

/-- The sample shown. -/
def sampleShown (s : State) (theta : Int) : State :=
  ((s.count TIM_CNT_SAMPLE_VALUE 1).setOn TIM_EVT_SAMPLE).putInt TIM_SRV_OFS_THETA theta

/-- A correction that waits its eight cycles. -/
def rateWaits (s : State) (y i : Int) : State := { s with rates := s.rates ++ [(s.cyc + 8, y, i)] }

/-- The integral term of a sample. -/
def sampleInteg (s : State) (theta : Int) : Int :=
  clampInt (s.getInt TIM_SRV_INTEG_VALUE + srvTerm s theta TIM_SRV_KI_M TIM_SRV_KI_S) (-adjMax s) (adjMax s)

/-- The correction of a sample before its clamp. -/
def sampleSum (s : State) (theta : Int) : Int := srvTerm s theta TIM_SRV_KP_M TIM_SRV_KP_S + sampleInteg s theta

/-- A sample shown, before LOCKED is judged. -/
def offsetShown (s : State) (theta : Int) : State :=
  sampleShown (clampShown (s.setOff TIM_CTRL_HOLDOVER)
    (clampInt (sampleSum s theta) (-adjMax s) (adjMax s) ≠ sampleSum s theta)) theta

/-- The state that a sample leaves. -/
def sampled (s : State) (theta : Int) : State :=
  rateWaits (lockAfter (offsetShown s theta) theta)
    (clampInt (sampleSum s theta) (-adjMax s) (adjMax s)) (sampleInteg s theta)

theorem getInt_setOff_holdover : (s.setOff TIM_CTRL_HOLDOVER).getInt TIM_SRV_INTEG_VALUE = s.getInt TIM_SRV_INTEG_VALUE :=
  State.getInt_congr (State.get_setOff_apart (by decide))

theorem servoSample_eq (theta : Int) (hpend : s.isPending 1 = false) (hrates : s.rates = []) : servoSample s theta = sampled s theta := by
  have hparam {f : Fld} (h : f.addr ≠ TIM_CTRL) : (s.setOff TIM_CTRL_HOLDOVER).get f = s.get f := State.get_setOff_apart (.inl h)
  have hlim : adjMax (s.setOff TIM_CTRL_HOLDOVER) = adjMax s := by
    rw [adjMax, adjMax, hparam (by decide)]
  have hterm (m sh : Fld) (hm : m.addr ≠ TIM_CTRL) (hsh : sh.addr ≠ TIM_CTRL) :
      srvTerm (s.setOff TIM_CTRL_HOLDOVER) theta m sh = srvTerm s theta m sh := by
    rw [srvTerm, srvTerm, hparam hm, hparam hsh]
  unfold servoSample
  rw [latch_of_none hpend]
  simp only [State.setOff_rates, hrates, List.getLast?_nil, hlim, hterm TIM_SRV_KI_M TIM_SRV_KI_S (by decide) (by decide), hterm TIM_SRV_KP_M TIM_SRV_KP_S (by decide) (by decide),
    getInt_setOff_holdover]
  rfl

/-- Registers that a sample changes. -/
def sampleRegs : List Nat := [TIM_CTRL, TIM_SRV_OFS, TIM_EVT, TIM_CNT_SAMPLE, TIM_CNT_CLAMP]

theorem effect_clampShown (clamped : Bool) : Effect sampleRegs [.servo] s (clampShown s clamped) :=
  (Effect.refl s).onIf (f := fun s => (s.count TIM_CNT_CLAMP_VALUE 1).setOn TIM_EVT_CLAMP) fun _ =>
    ((Effect.refl s).count 1 (by decide)).setOn (by decide)

theorem effect_sampleShown (theta : Int) : Effect sampleRegs [.servo] s (sampleShown s theta) :=
  (((Effect.refl s).count 1 (by decide)).setOn (by decide)).putInt theta (by decide)

theorem effect_lockedOffset (theta : Int) : Effect sampleRegs [.servo] s (lockAfter (offsetShown s theta) theta) :=
  ((((Effect.refl s).setOff (by decide)).trans (effect_clampShown _)).trans (effect_sampleShown theta)).trans
    ((effect_lockAfter theta).mono (by decide) (List.Subset.refl _))

theorem effect_sampled (theta : Int) : Effect sampleRegs [.servo] s (sampled s theta) :=
  (effect_lockedOffset theta).rates _ List.mem_cons_self

/-- Fields of a sample, through LOCKED and the waiting correction. -/
theorem get_sampled {f : Fld} (hlock : Apart TIM_CTRL_LOCKED f) (hevt : Apart TIM_EVT_LOCKCHG f) (theta : Int) :
    (sampled s theta).get f = (offsetShown s theta).get f :=
  get_lockAfter hlock hevt theta

theorem get_sampleShown {f : Fld} (hcnt : f.addr ≠ TIM_CNT_SAMPLE) (hevt : Apart TIM_EVT_SAMPLE f) (hofs : f.addr ≠ TIM_SRV_OFS)
    (theta : Int) : (sampleShown s theta).get f = s.get f := by
  rw [sampleShown, State.putInt, State.get_put_apart (.inl hofs), State.get_setOn_apart hevt, State.get_count_apart (.inl hcnt)]

theorem get_clampShown {f : Fld} (hcnt : f.addr ≠ TIM_CNT_CLAMP) (hevt : Apart TIM_EVT_CLAMP f) (clamped : Bool) :
    (clampShown s clamped).get f = s.get f := by
  cases clamped
  · rfl
  · exact (State.get_setOn_apart hevt).trans (State.get_count_apart (.inl hcnt) 1)

theorem holdover_sampled (theta : Int) : (sampled s theta).get TIM_CTRL_HOLDOVER = 0 := by
  rw [get_sampled (by decide) (by decide), offsetShown, get_sampleShown (by decide) (by decide) (by decide),
    get_clampShown (by decide) (by decide), State.get_setOff (by decide)]

theorem sample_sampled (theta : Int) : (sampled s theta).on TIM_EVT_SAMPLE = true := by
  rw [State.on_eq_true_iff, get_sampled (by decide) (by decide), offsetShown, sampleShown, State.putInt, State.get_put_apart (by decide),
    State.get_setOn (by decide)]

theorem count_sampled (theta : Int) : (sampled s theta).get TIM_CNT_SAMPLE_VALUE = satAdd 32 (s.get TIM_CNT_SAMPLE_VALUE) 1 := by
  rw [get_sampled (by decide) (by decide), offsetShown, sampleShown, State.putInt, State.get_put_apart (by decide),
    State.get_setOn_apart (by decide), State.get_count_self (by decide), get_clampShown (by decide) (by decide),
    State.get_setOff_apart (by decide)]
  rfl

theorem offset_sampled {theta : Int} (hlo : -(2 ^ 47 : Nat) ≤ theta) (hhi : theta < (2 ^ 47 : Nat)) :
    (sampled s theta).getInt TIM_SRV_OFS_THETA = theta := by
  rw [State.getInt_congr (get_sampled (by decide) (by decide) theta)]
  exact getInt_putInt (by decide) hlo hhi

theorem clamp_sampled {theta : Int} (h : clampInt (sampleSum s theta) (-adjMax s) (adjMax s) ≠ sampleSum s theta) :
    (sampled s theta).on TIM_EVT_CLAMP = true ∧
      (sampled s theta).get TIM_CNT_CLAMP_VALUE = satAdd 32 (s.get TIM_CNT_CLAMP_VALUE) 1 := by
  rw [State.on_eq_true_iff, get_sampled (by decide) (by decide), get_sampled (by decide) (by decide), offsetShown,
    get_sampleShown (by decide) (by decide) (by decide), get_sampleShown (by decide) (by decide) (by decide),
    decide_eq_true h]
  refine ⟨State.get_setOn (by decide), (State.get_setOn_apart (by decide)).trans ?_⟩
  rw [State.get_count_self (by decide), State.get_setOff_apart (by decide)]
  rfl

theorem servo_clampShown (u : State) (b : Bool) : (clampShown u b).rates = u.rates ∧ (clampShown u b).srcSeen = u.srcSeen := by
  cases b <;> exact ⟨rfl, rfl⟩

theorem servo_sampleShown (u : State) (theta : Int) :
    (sampleShown u theta).rates = u.rates ∧ (sampleShown u theta).srcSeen = u.srcSeen := ⟨rfl, rfl⟩

theorem servo_offsetShown (theta : Int) :
    (offsetShown s theta).rates = s.rates ∧ (offsetShown s theta).srcSeen = s.srcSeen := by
  rw [offsetShown, (servo_sampleShown _ theta).1, (servo_sampleShown _ theta).2, (servo_clampShown _ _).1, (servo_clampShown _ _).2]
  exact ⟨rfl, rfl⟩

theorem rates_sampled (theta : Int) (hrates : s.rates = []) : (sampled s theta).rates =
    [(s.cyc + 8, clampInt (sampleSum s theta) (-adjMax s) (adjMax s), sampleInteg s theta)] := by
  rw [sampled, rateWaits]
  simp only
  rw [(servo_lockAfter theta).1, (servo_offsetShown theta).1, hrates, (effect_lockedOffset theta).cyc (by simp)]
  rfl

theorem srcSeen_sampled (theta : Int) : (sampled s theta).srcSeen = s.srcSeen :=
  (servo_lockAfter theta).2.trans (servo_offsetShown theta).2

end

/-! ### Offsets of firmware (R275, R279) -/

def fwOfsRow : RegDesc := ⟨"TIM_SRC_FWOFS", 0x100004000048, [], 64, 0x0, [⟨50, 48, .wo⟩, ⟨47, 0, .wo⟩], none, none⟩

theorem regAt_fwOfs : regAt TIM_SRC_FWOFS = some (fwOfsRow, [], false) := by decide

theorem wideRow_fwOfs : WideRow TIM_SRC_FWOFS fwOfsRow := by decide

section

variable {s : State} {who : Initiator} {v : Word64} (hon : s.powered) (ok : WriteOk s who TIM_SRC_FWOFS v.toNat)
include hon ok

omit hon ok in
/-- The write of an offset stored. -/
def fwOfsStored (s : State) (who : Initiator) (v : Nat) : State := regStored (dropHold s who) fwOfsRow TIM_SRC_FWOFS v

omit hon ok in
theorem effect_fwOfsStored (v : Nat) : Effect [TIM_SRC_FWOFS] [.halves] s (fwOfsStored s who v) := by
  have hdrop : Effect [TIM_SRC_FWOFS] [.halves] s (dropHold s who) := (Effect.refl s).dropHold who List.mem_cons_self
  rw [fwOfsStored, regStored, if_pos (by decide)]
  exact hdrop.wr _ List.mem_cons_self

omit hon in
theorem exec_fwSampleSubmit : exec (.fwSampleSubmit who v) s =
    finish s (fwSample (bitsOf v.toNat 50 48) (bitsOf v.toNat 47 0) (fwOfsStored s who v.toNat)) :=
  congrArg (finish s) (writeReg_wide ok regAt_fwOfs wideRow_fwOfs)

omit hon ok in
/-- The write leaves the time of the servo and of a step. -/
theorem inStepCycle_of_effect {regs : List Nat} {parts : List Part} {t : State} (h : Effect regs parts s t) (hmode : TIM_CTRL ∉ regs)
    (htime : Part.time ∉ parts) (hservo : Part.servo ∉ parts) : inStepCycle t = inStepCycle s := by
  obtain ⟨-, -, hdue, -, -, -, hat⟩ := h.keeps .servo hservo
  have hcyc := h.cyc htime
  have hacc := h.acc htime
  have hreach (d : StepDue) : stepReached t d = stepReached s d := by
    rw [stepReached, stepReached, hcyc, cmpDiff_congr hacc (h.epochMode hmode)]
  have hres (d : StepDue) : stepResult t d = stepResult s d := by
    rw [stepResult, stepResult, hacc]
  rw [inStepCycle, inStepCycle, hdue, hat, hcyc]
  cases s.stepDue with
  | none => rfl
  | some d => simp only [hreach, hres]

theorem completes_fwSampleSubmit_rejected (hact : bitsOf v.toNat 50 48 ≠ s.get TIM_CTRL_ACTSRC)
    (hpri : bitsOf v.toNat 50 48 ≠ s.get TIM_SRC_CFG_PRI) (hsec : bitsOf v.toNat 50 48 ≠ s.get TIM_SRC_CFG_SEC) :
    Completes (.fwSampleSubmit who v) s fun t =>
      t.on TIM_EVT_REJECT = true ∧ t.get TIM_CNT_REJECT_VALUE = satAdd 32 (s.get TIM_CNT_REJECT_VALUE) 1 ∧
      ChangesOnly [TIM_SRC_FWOFS, TIM_CNT_REJECT, TIM_EVT] [.halves] s t := by
  have hexec := exec_fwSampleSubmit ok
  have heff := effect_fwOfsStored (s := s) (who := who) v.toNat
  generalize fwOfsStored s who v.toNat = u at hexec heff
  have hfw : fwSample (bitsOf v.toNat 50 48) (bitsOf v.toNat 47 0) u = rejectSample u := by
    unfold fwSample
    split
    · unfold takeOffset
      rw [heff.get (f := TIM_CTRL_ACTSRC) (by decide), heff.get (f := TIM_SRC_CFG_PRI) (by decide),
        heff.get (f := TIM_SRC_CFG_SEC) (by decide)]
      simp [hact, hpri, hsec]
    · rfl
  rw [hfw] at hexec
  refine completes_of_settled hexec hon fun t hs => ⟨?_, ?_, hs.changesOnly
    (((heff.mono (by decide) (List.Subset.refl _)).count 1 (by decide)).setOn (by decide))⟩
  · rw [hs.on _ (by decide) (by decide), State.on_eq_true_iff]
    exact State.get_setOn (by decide)
  · rw [hs.get _ (by decide) (by decide), rejectSample, State.get_setOn_apart (by decide), State.get_count_self (by decide),
      heff.get (by decide)]
    rfl

section

variable (hlo : 1 ≤ bitsOf v.toNat 50 48) (hhi : bitsOf v.toNat 50 48 ≤ 5) (hact : bitsOf v.toNat 50 48 = s.get TIM_CTRL_ACTSRC)
  (hmode : s.epochMode = true) (hen : s.on TIM_CTRL_ENABLE = true)
include hlo hhi hact hmode hen

omit hon ok in
theorem fwSample_active {u : State} (heff : Effect [TIM_SRC_FWOFS] [.halves] s u) :
    fwSample (bitsOf v.toNat 50 48) (bitsOf v.toNat 47 0) u = if inStepCycle s then u.count TIM_CNT_REJECT_VALUE 1 else
      servoSample (seeSource u (bitsOf v.toNat 50 48)) (signedOf 48 (bitsOf v.toNat 47 0)) := by
  have hmode' : u.epochMode = true := (heff.epochMode (by decide)).trans hmode
  have hen' : u.on TIM_CTRL_ENABLE = true := (heff.on (by decide)).trans hen
  unfold fwSample
  rw [if_pos ⟨hlo, hhi⟩]
  unfold takeOffset
  rw [heff.get (f := TIM_CTRL_ACTSRC) (by decide), hmode', hen', inStepCycle_of_effect heff (by decide) (by simp) (by simp)]
  simp only
  rw [if_pos ⟨by omega, hact⟩, if_pos ⟨trivial, trivial⟩]

theorem completes_fwSampleSubmit_step (hstep : inStepCycle s = true) :
    Completes (.fwSampleSubmit who v) s fun t =>
      t.get TIM_CNT_REJECT_VALUE = satAdd 32 (s.get TIM_CNT_REJECT_VALUE) 1 ∧
      ChangesOnly [TIM_SRC_FWOFS, TIM_CNT_REJECT] [.halves] s t := by
  have hexec := exec_fwSampleSubmit ok
  have heff := effect_fwOfsStored (s := s) (who := who) v.toNat
  generalize fwOfsStored s who v.toNat = u at hexec heff
  rw [fwSample_active hlo hhi hact hmode hen heff, hstep, if_pos rfl] at hexec
  refine completes_of_settled hexec hon fun t hs => ⟨?_, hs.changesOnly
    ((heff.mono (by decide) (List.Subset.refl _)).count 1 (by decide))⟩
  rw [hs.get _ (by decide) (by decide), State.get_count_self (by decide), heff.get (by decide)]
  rfl

theorem completes_fwSampleSubmit_sample (hpend : s.isPending 1 = false) (hrates : s.rates = []) (hstep : inStepCycle s = false) :
    Completes (.fwSampleSubmit who v) s fun t => ∃ theta i y p k lim : Int,
      theta = signedOf 48 (bitsOf v.toNat 47 0) ∧
      lim = ((min (s.get TIM_SRV_LIMIT_ADJMAX) 858993 : Nat) : Int) ∧
      p = theta * (s.get TIM_SRV_KP_M : Nat) / ((2 ^ min 47 (s.get TIM_SRV_KP_S) : Nat) : Int) ∧
      k = theta * (s.get TIM_SRV_KI_M : Nat) / ((2 ^ min 47 (s.get TIM_SRV_KI_S) : Nat) : Int) ∧
      i = clampInt (s.getInt TIM_SRV_INTEG_VALUE + k) (-lim) lim ∧ y = clampInt (p + i) (-lim) lim ∧
      t.rates = [(s.cyc + 8, y, i)] ∧ t.getInt TIM_SRV_OFS_THETA = theta ∧ t.on TIM_EVT_SAMPLE = true ∧
      t.get TIM_CNT_SAMPLE_VALUE = satAdd 32 (s.get TIM_CNT_SAMPLE_VALUE) 1 ∧ t.on TIM_CTRL_HOLDOVER = false ∧
      (y ≠ p + i → t.on TIM_EVT_CLAMP = true ∧ t.get TIM_CNT_CLAMP_VALUE = satAdd 32 (s.get TIM_CNT_CLAMP_VALUE) 1) ∧
      tget t.srcSeen (bitsOf v.toNat 50 48) = some s.cyc ∧
      ChangesOnly [TIM_SRC_FWOFS, TIM_CTRL, TIM_SRV_OFS, TIM_EVT, TIM_CNT_SAMPLE, TIM_CNT_CLAMP] [.servo, .halves] s t := by
  have hexec := exec_fwSampleSubmit ok
  have heff := effect_fwOfsStored (s := s) (who := who) v.toNat
  generalize fwOfsStored s who v.toNat = u at hexec heff
  rw [fwSample_active hlo hhi hact hmode hen heff, hstep, if_neg Bool.false_ne_true] at hexec
  have hseen : Effect [TIM_SRC_FWOFS] [.servo, .halves] s (seeSource u (bitsOf v.toNat 50 48)) :=
    (heff.mono (List.Subset.refl _) (by decide)).seeSource _ (by decide)
  have hrates' : (seeSource u (bitsOf v.toNat 50 48)).rates = [] := (heff.keeps .servo (by simp)).2.2.2.1.trans hrates
  have hpend' : (seeSource u (bitsOf v.toNat 50 48)).isPending 1 = false := by
    rw [State.isPending, (hseen.keeps .held (by simp)).2]
    exact hpend
  have hsrc : tget (seeSource u (bitsOf v.toNat 50 48)).srcSeen (bitsOf v.toNat 50 48) = some s.cyc := by
    rw [seeSource, tget_tset_same, heff.cyc (by simp)]
  generalize seeSource u (bitsOf v.toNat 50 48) = w at hexec hseen hrates' hpend' hsrc
  rw [servoSample_eq _ hpend' hrates'] at hexec
  obtain ⟨hmin, hmax⟩ := signedOf_bounds (bitsOf v.toNat 47 0)
  have hofs := offset_sampled (s := w) hmin hmax
  generalize signedOf 48 (bitsOf v.toNat 47 0) = theta at hexec hofs hmin hmax
  have hrs := rates_sampled theta hrates'
  have hcl := clamp_sampled (s := w) (theta := theta)
  have hlim : adjMax w = ((min (s.get TIM_SRV_LIMIT_ADJMAX) 858993 : Nat) : Int) := by
    rw [adjMax, hseen.get (by decide)]
  have hk : srvTerm w theta TIM_SRV_KI_M TIM_SRV_KI_S =
      theta * (s.get TIM_SRV_KI_M : Nat) / ((2 ^ min 47 (s.get TIM_SRV_KI_S) : Nat) : Int) := by
    rw [srvTerm, hseen.get (by decide), hseen.get (by decide)]
  have hp : srvTerm w theta TIM_SRV_KP_M TIM_SRV_KP_S =
      theta * (s.get TIM_SRV_KP_M : Nat) / ((2 ^ min 47 (s.get TIM_SRV_KP_S) : Nat) : Int) := by
    rw [srvTerm, hseen.get (by decide), hseen.get (by decide)]
  have hinteg : w.getInt TIM_SRV_INTEG_VALUE = s.getInt TIM_SRV_INTEG_VALUE := State.getInt_congr (hseen.get (by decide))
  rw [sampleSum, sampleInteg, hlim, hk, hp, hinteg, hseen.cyc (by simp)] at hrs
  rw [sampleSum, sampleInteg, hlim, hk, hp, hinteg, hseen.get (f := TIM_CNT_CLAMP_VALUE) (by decide)] at hcl
  refine completes_of_settled hexec hon fun t hs => ⟨theta, _, _, _, _, _, rfl, rfl, rfl, rfl, rfl, rfl, ?_, ?_, ?_, ?_, ?_,
    fun hy => ?_, ?_, hs.changesOnly ((hseen.mono (by decide) (List.Subset.refl _)).trans
      ((effect_sampled theta).mono (by decide) (by decide)))⟩
  · rw [hs.rates, hrs]
  · rw [State.getInt_congr (hs.get _ (by decide) (by decide)), hofs]
  · rw [hs.on _ (by decide) (by decide), sample_sampled]
  · rw [hs.get _ (by decide) (by decide), count_sampled, hseen.get (by decide)]
  · rw [hs.on _ (by decide) (by decide), State.on, holdover_sampled]
    rfl
  · rw [hs.on _ (by decide) (by decide), hs.get _ (by decide) (by decide)]
    exact hcl hy
  · rw [hs.srcSeen, srcSeen_sampled, hsrc]

end

end


/-! ### Corrections and sources (R280, R282) -/

/-- A correction in effect. -/
def rateTaken (s : State) (y i : Int) : State := (s.putInt TIM_SRV_ADJ_VALUE y).putInt TIM_SRV_INTEG_VALUE i

section

variable {s : State} (hon : s.powered)

theorem get_rates (x : List (Nat × Int × Int)) (f : Fld) : ({ s with rates := x } : State).get f = s.get f := rfl

theorem getInt_rates (x : List (Nat × Int × Int)) (f : Fld) : ({ s with rates := x } : State).getInt f = s.getInt f := rfl

theorem effect_rateTaken (y i : Int) : Effect [TIM_SRV_ADJ, TIM_SRV_INTEG] [.servo] s (rateTaken s y i) :=
  ((Effect.refl s).putInt y (by decide)).putInt i (by decide)

theorem getInt_rateTaken {y i : Int} (hy : -858993 ≤ y) (hy' : y ≤ 858993) (hi : -858993 ≤ i) (hi' : i ≤ 858993) :
    (rateTaken s y i).getInt TIM_SRV_ADJ_VALUE = y ∧ (rateTaken s y i).getInt TIM_SRV_INTEG_VALUE = i := by
  have hbound : (2 ^ 31 : Nat) = 2147483648 := by decide
  refine ⟨(State.getInt_congr (State.get_put_apart (by decide) _)).trans (getInt_putInt (by decide) ?_ ?_), getInt_putInt (by decide) ?_ ?_⟩ <;>
    simp only [TIM_SRV_ADJ_VALUE, TIM_SRV_INTEG_VALUE, Nat.sub_zero, hbound] <;> omega

include hon

theorem completes_servoRateApply (at_ : Nat) (y i : Int) (hrates : s.rates = [(at_, y, i)]) (hdue : at_ ≤ s.cyc) (hy : -858993 ≤ y)
    (hy' : y ≤ 858993) (hi : -858993 ≤ i) (hi' : i ≤ 858993) :
    Completes .servoRateApply s fun t =>
      t.getInt TIM_SRV_ADJ_VALUE = y ∧ t.getInt TIM_SRV_INTEG_VALUE = i ∧ t.rates = [] ∧
      ChangesOnly [TIM_SRV_ADJ, TIM_SRV_INTEG] [.servo] s t := by
  have hexec : exec .servoRateApply s = finish s { rateTaken s y i with rates := [] } := by
    show execServoRateApply s = _
    have hfilter : [(at_, y, i)].filter (fun r => decide (r.1 ≤ s.cyc)) = [(at_, y, i)] := by simp [hdue]
    have hrest : [(at_, y, i)].filter (fun r => decide (s.cyc < r.1)) = [] := by simp [hdue]
    unfold execServoRateApply
    simp only [hrates, hfilter, hrest]
    rw [List.foldl_cons, List.foldl_nil, rateTaken]
  have heff := effect_rateTaken (s := s) y i
  obtain ⟨hadj, hinteg⟩ := getInt_rateTaken (s := s) hy hy' hi hi'
  generalize rateTaken s y i = u at hexec heff hadj hinteg
  refine completes_of_settled hexec hon fun t hs => ⟨?_, ?_, hs.rates, hs.changesOnly (heff.rates _ List.mem_cons_self)⟩
  · rw [State.getInt_congr (hs.get _ (by decide) (by decide)), getInt_rates, hadj]
  · rw [State.getInt_congr (hs.get _ (by decide) (by decide)), getInt_rates, hinteg]

omit hon in
/-- The runs of samples start over in a state whose runs are clear already. -/
theorem effect_unlock : Effect [TIM_CTRL, TIM_EVT] [.servo] s (unlock s) := by
  have hrun : Effect [TIM_CTRL, TIM_EVT] [.servo] s { s with lockRun := (0, 0) } := (Effect.refl s).lockRun _ List.mem_cons_self
  exact Effect.ite (fun _ => (hrun.setOff (by decide)).setOn (by decide)) fun _ => hrun

omit hon in
theorem get_unlock {f : Fld} (hlock : Apart TIM_CTRL_LOCKED f) (hevt : Apart TIM_EVT_LOCKCHG f) : (unlock s).get f = s.get f := by
  unfold unlock
  simp only
  split
  · rw [State.get_setOn_apart hevt, State.get_setOff_apart hlock]
    rfl
  · rfl

omit hon in
theorem locked_unlock : (unlock s).on TIM_CTRL_LOCKED = false := by
  unfold unlock
  simp only
  split
  · rw [State.on, State.get_setOn_apart (by decide), State.get_setOff (by decide)]
    rfl
  next h => exact Bool.eq_false_iff.mpr h

omit hon in
/-- The components of the servo that the clearing of LOCKED leaves. -/
theorem servo_unlock : (unlock s).rates = s.rates ∧ (unlock s).srcSeen = s.srcSeen := by
  unfold unlock
  simp only
  split <;> exact ⟨rfl, rfl⟩

/-- The correction of a servo without a source. -/
def freeRun (s : State) : State := { s.put TIM_SRV_ADJ_VALUE (s.get TIM_SRV_INTEG_VALUE) with rates := [] }

omit hon in
theorem effect_freeRun : Effect [TIM_SRV_ADJ] [.servo] s (freeRun s) :=
  ((Effect.refl s).put _ (by decide)).rates _ List.mem_cons_self

omit hon in
theorem get_freeRun {f : Fld} (h : f.addr ≠ TIM_SRV_ADJ) : (freeRun s).get f = s.get f := by
  rw [freeRun, get_rates, State.get_put_apart (f := TIM_SRV_ADJ_VALUE) (.inl h)]

omit hon in
theorem adj_freeRun : (freeRun s).get TIM_SRV_ADJ_VALUE = s.get TIM_SRV_INTEG_VALUE := by
  have hlt := s.get_lt TIM_SRV_INTEG_VALUE
  rw [freeRun, get_rates, State.get_put_of_lt (f := TIM_SRV_ADJ_VALUE) (by decide) hlt]

/-- Holdover shown. -/
def holdoverShown (s : State) : State := (s.setOn TIM_CTRL_HOLDOVER).setOn TIM_EVT_HOLDOVER

omit hon in
theorem holdover_eq : holdover s = unlock (holdoverShown (freeRun s)) := rfl

omit hon in
theorem effect_holdoverShown : Effect [TIM_CTRL, TIM_EVT] [] s (holdoverShown s) :=
  ((Effect.refl s).setOn (by decide)).setOn (by decide)

omit hon in
theorem effect_holdover : Effect [TIM_CTRL, TIM_SRV_ADJ, TIM_EVT] [.servo] s (holdover s) :=
  ((effect_freeRun.mono (by decide) (List.Subset.refl _)).trans (effect_holdoverShown.mono (by decide) (List.nil_subset _))).trans
    (effect_unlock.mono (by decide) (List.Subset.refl _))

/-- The fall-back to a secondary source. -/
def fellBack (s : State) (sec : Nat) : State := ((s.put TIM_CTRL_ACTSRC sec).setOn TIM_CTRL_FALLBACK).setOn TIM_EVT_FALLBACK

omit hon in
theorem effect_fellBack (sec : Nat) : Effect [TIM_CTRL, TIM_EVT] [] s (fellBack s sec) :=
  (((Effect.refl s).put _ (by decide)).setOn (by decide)).setOn (by decide)

omit hon in
theorem get_fellBack {f : Fld} (hact : Apart TIM_CTRL_ACTSRC f) (hfall : Apart TIM_CTRL_FALLBACK f) (hevt : Apart TIM_EVT_FALLBACK f)
    (sec : Nat) : (fellBack s sec).get f = s.get f := by
  rw [fellBack, State.get_setOn_apart hevt, State.get_setOn_apart hfall, State.get_put_apart hact]

/-- The fall-back where it is due. -/
def fallBackDue (s : State) (sec src : Nat) : State :=
  if sec ≠ 0 ∧ sec ≠ src ∧ sourceValid s sec ∧ !s.on TIM_CTRL_FALLBACK then fellBack s sec else s

omit hon in
theorem effect_fallBackDue (sec src : Nat) : Effect [TIM_CTRL, TIM_EVT] [] s (fallBackDue s sec src) :=
  Effect.ite (fun _ => effect_fellBack sec) fun _ => Effect.refl s

omit hon in
theorem get_fallBackDue {f : Fld} (hact : Apart TIM_CTRL_ACTSRC f) (hfall : Apart TIM_CTRL_FALLBACK f)
    (hevt : Apart TIM_EVT_FALLBACK f) (sec src : Nat) : (fallBackDue s sec src).get f = s.get f := by
  unfold fallBackDue
  split
  · exact get_fellBack hact hfall hevt sec
  · rfl

omit hon in
theorem rates_fallBackDue (sec src : Nat) : (fallBackDue s sec src).rates = s.rates := by
  obtain ⟨-, -, -, hrates, -⟩ := (effect_fallBackDue (s := s) sec src).keeps .servo (by simp)
  exact hrates

omit hon in
theorem execSourceTimeout_eq (hen : s.on TIM_CTRL_ENABLE = true) (hact : s.get TIM_CTRL_ACTSRC ≠ 0)
    (hval : sourceValid s (s.get TIM_CTRL_ACTSRC) = false) (hhold : s.on TIM_CTRL_HOLDOVER = false) :
    exec .sourceTimeout s = finish s (fallBackDue (holdover s) (s.get TIM_SRC_CFG_SEC) (s.get TIM_CTRL_ACTSRC)) := by
  show execSourceTimeout s = _
  have hgo : ¬((!s.on TIM_CTRL_ENABLE) = true ∨ s.get TIM_CTRL_ACTSRC = 0 ∨ sourceValid s (s.get TIM_CTRL_ACTSRC) = true) := by
    simp [hen, hval, hact]
  unfold execSourceTimeout
  simp only
  rw [if_neg hgo, hhold, if_neg Bool.false_ne_true, fallBackDue, fellBack]

omit hon in
theorem get_holdover {f : Fld} (hadj : f.addr ≠ TIM_SRV_ADJ) (hlock : Apart TIM_CTRL_LOCKED f) (hchg : Apart TIM_EVT_LOCKCHG f)
    (hhold : Apart TIM_CTRL_HOLDOVER f) (hevt : Apart TIM_EVT_HOLDOVER f) : (holdover s).get f = s.get f := by
  rw [holdover_eq, get_unlock hlock hchg, holdoverShown, State.get_setOn_apart hevt, State.get_setOn_apart hhold, get_freeRun hadj]

omit hon in
/-- What holdover shows. -/
theorem shown_holdover : (holdover s).on TIM_CTRL_HOLDOVER = true ∧ (holdover s).on TIM_EVT_HOLDOVER = true ∧
    (holdover s).get TIM_SRV_ADJ_VALUE = s.get TIM_SRV_INTEG_VALUE ∧ (holdover s).rates = [] := by
  rw [holdover_eq, State.on_eq_true_iff, State.on_eq_true_iff]
  refine ⟨?_, ?_, ?_, servo_unlock.1⟩ <;> rw [get_unlock (by decide) (by decide), holdoverShown]
  · rw [State.get_setOn_apart (by decide), State.get_setOn (by decide)]
  · rw [State.get_setOn (by decide)]
  · rw [State.get_setOn_apart (by decide), State.get_setOn_apart (by decide), adj_freeRun]

omit hon in
theorem sourceValid_holdover (src : Nat) : sourceValid (holdover s) src = sourceValid s src := by
  have heff := effect_holdover (s := s)
  have hseen : (holdover s).srcSeen = s.srcSeen := servo_unlock.2
  rw [sourceValid, sourceValid, hseen, heff.cyc (by simp), heff.get (f := TIM_SRC_CFG_TIMEOUT) (by decide)]

omit hon in
theorem fallBackDue_holdover (hsec : s.get TIM_SRC_CFG_SEC ≠ 0) (hne : s.get TIM_SRC_CFG_SEC ≠ s.get TIM_CTRL_ACTSRC)
    (hval : sourceValid s (s.get TIM_SRC_CFG_SEC) = true) (hfall : s.on TIM_CTRL_FALLBACK = false) :
    fallBackDue (holdover s) (s.get TIM_SRC_CFG_SEC) (s.get TIM_CTRL_ACTSRC) = fellBack (holdover s) (s.get TIM_SRC_CFG_SEC) := by
  refine if_pos ⟨hsec, hne, (sourceValid_holdover _).trans hval, ?_⟩
  rw [State.on_congr (get_holdover (by decide) (by decide) (by decide) (by decide) (by decide)), hfall]
  rfl

theorem completes_sourceTimeout (hen : s.on TIM_CTRL_ENABLE = true) (hact : s.get TIM_CTRL_ACTSRC ≠ 0)
    (hval : sourceValid s (s.get TIM_CTRL_ACTSRC) = false) (hhold : s.on TIM_CTRL_HOLDOVER = false) :
    Completes .sourceTimeout s fun t =>
      t.on TIM_CTRL_HOLDOVER = true ∧ t.on TIM_EVT_HOLDOVER = true ∧ t.on TIM_CTRL_LOCKED = false ∧
      t.get TIM_SRV_ADJ_VALUE = s.get TIM_SRV_INTEG_VALUE ∧ t.rates = [] ∧
      (s.get TIM_SRC_CFG_SEC ≠ 0 → s.get TIM_SRC_CFG_SEC ≠ s.get TIM_CTRL_ACTSRC →
        sourceValid s (s.get TIM_SRC_CFG_SEC) = true → s.on TIM_CTRL_FALLBACK = false →
        t.get TIM_CTRL_ACTSRC = s.get TIM_SRC_CFG_SEC ∧ t.on TIM_CTRL_FALLBACK = true ∧ t.on TIM_EVT_FALLBACK = true) ∧
      ChangesOnly [TIM_CTRL, TIM_SRV_ADJ, TIM_EVT] [.servo] s t := by
  obtain ⟨hshown, hevt, hadj, hrates⟩ := shown_holdover (s := s)
  have hkeep {f : Fld} (ha : Apart TIM_CTRL_ACTSRC f) (hf : Apart TIM_CTRL_FALLBACK f) (he : Apart TIM_EVT_FALLBACK f) :=
    get_fallBackDue (s := holdover s) ha hf he (s.get TIM_SRC_CFG_SEC) (s.get TIM_CTRL_ACTSRC)
  refine completes_of_settled (execSourceTimeout_eq hen hact hval hhold) hon fun t hs =>
    ⟨?_, ?_, ?_, ?_, ?_, fun hsec hne hval' hfall => ?_, hs.changesOnly
      (effect_holdover.trans ((effect_fallBackDue _ _).mono (by decide) (List.nil_subset _)))⟩
  · rw [hs.on _ (by decide) (by decide), State.on_congr (hkeep (by decide) (by decide) (by decide)), hshown]
  · rw [hs.on _ (by decide) (by decide), State.on_congr (hkeep (by decide) (by decide) (by decide)), hevt]
  · rw [hs.on _ (by decide) (by decide), State.on_congr (hkeep (by decide) (by decide) (by decide))]
    exact locked_unlock
  · rw [hs.get _ (by decide) (by decide), hkeep (by decide) (by decide) (by decide), hadj]
  · rw [hs.rates, rates_fallBackDue, hrates]
  · rw [hs.get _ (by decide) (by decide), hs.on _ (by decide) (by decide), hs.on _ (by decide) (by decide),
      fallBackDue_holdover hsec hne hval' hfall, State.on_eq_true_iff, State.on_eq_true_iff, fellBack]
    refine ⟨?_, ?_, State.get_setOn (by decide)⟩
    · have hlt := s.get_lt TIM_SRC_CFG_SEC
      rw [State.get_setOn_apart (by decide), State.get_setOn_apart (by decide), State.get_put_of_lt (f := TIM_CTRL_ACTSRC) (by decide) hlt]
    · rw [State.get_setOn_apart (by decide), State.get_setOn (by decide)]

end

/-! ### Enable and commit (R20, R22, R282) -/

def timCtrlRow : RegDesc :=
  ⟨"TIM_CTRL", 0x100004000000, [], 32, 0x0, [⟨10, 8, .ro⟩, ⟨7, 7, .ro⟩, ⟨6, 6, .ro⟩, ⟨5, 5, .ro⟩, ⟨4, 4, .ro⟩, ⟨0, 0, .live⟩], none, none⟩

theorem regAt_timCtrl : regAt TIM_CTRL = some (timCtrlRow, [], false) := by decide

theorem plainRow_timCtrl : PlainRow TIM_CTRL timCtrlRow := by decide

def srvCommitRow : RegDesc := ⟨"TIM_SRV_COMMIT", 0x100004000060, [], 32, 0x0, [⟨0, 0, .live⟩], none, none⟩

theorem regAt_srvCommit : regAt TIM_SRV_COMMIT = some (srvCommitRow, [], false) := by decide

theorem plainRow_srvCommit : PlainRow TIM_SRV_COMMIT srvCommitRow := by decide

theorem keyRegs_srv : keyRegs 1 = [(TIM_SRV_KP, 0x3FFFFF), (TIM_SRV_KI, 0x3FFFFF), (TIM_SRV_LIMIT, 0xFFFFF), (TIM_SRV_LOCK, 0xF0FFFFF)] := by
  decide +kernel

section

variable {s : State} {who : Initiator} {v : Word64} (hon : s.powered)

/-- The write of ENABLE stored. -/
def timCtrlStored (s : State) (v : Nat) : State :=
  s.wr TIM_CTRL (BitVec.ofNat 64 (mergeBits (rwMask timCtrlRow) (s.rd TIM_CTRL).toNat v))

theorem writeReg_timCtrl (ok : WriteOk s who TIM_CTRL v.toNat) : writeReg s who TIM_CTRL v.toNat =
    servoEnableWritten ((s.rd TIM_CTRL).toNat % 2) (v.toNat % 2) (timCtrlStored s v.toNat) :=
  writeReg_plain ok regAt_timCtrl plainRow_timCtrl

theorem effect_timCtrlStored (v : Nat) : Effect [TIM_CTRL] [] s (timCtrlStored s v) := (Effect.refl s).wr _ List.mem_cons_self

theorem enable_timCtrlStored : (timCtrlStored s v.toNat).get TIM_CTRL_ENABLE = v.toNat % 2 := by
  refine (State.get_wr_merge_in (f := TIM_CTRL_ENABLE) (by decide) (by decide) v.isLt (by decide)).trans ?_
  simp [bitsOf, TIM_CTRL_ENABLE]

/-- The servo starts on its primary source. -/
def servoStarts (s : State) (pri : Nat) : State := (s.put TIM_CTRL_ACTSRC pri).setOff TIM_CTRL_FALLBACK

theorem effect_servoStarts (pri : Nat) : Effect [TIM_CTRL] [] s (servoStarts s pri) :=
  ((Effect.refl s).put _ (by decide)).setOff (by decide)

include hon

theorem completes_servoEnable_on (ok : WriteOk s who TIM_CTRL v.toNat) (hoff : s.on TIM_CTRL_ENABLE = false) (hv : v.toNat % 2 = 1) :
    Completes (.servoEnable who v) s fun t =>
      t.on TIM_CTRL_ENABLE = true ∧ t.get TIM_CTRL_ACTSRC = s.get TIM_SRC_CFG_PRI ∧ t.on TIM_CTRL_FALLBACK = false ∧
      tget t.srcSeen (s.get TIM_SRC_CFG_PRI) = some s.cyc ∧ ChangesOnly [TIM_CTRL] [.servo] s t := by
  have heff := effect_timCtrlStored (s := s) v.toNat
  have hen := enable_timCtrlStored (s := s) (v := v)
  have hwrite : writeReg s who TIM_CTRL v.toNat = seeSource
      (servoStarts (timCtrlStored s v.toNat) ((timCtrlStored s v.toNat).get TIM_SRC_CFG_PRI))
      ((timCtrlStored s v.toNat).get TIM_SRC_CFG_PRI) := by
    rw [writeReg_timCtrl ok, servoEnableWritten, if_pos ⟨State.mod_two_of_off rfl rfl hoff, hv⟩]
    rfl
  generalize timCtrlStored s v.toNat = u at heff hen hwrite
  rw [heff.get (f := TIM_SRC_CFG_PRI) (by decide)] at hwrite
  have hstart := (heff.trans (effect_servoStarts (s.get TIM_SRC_CFG_PRI)))
  refine completes_of_settled (congrArg (finish s) hwrite) hon fun t hs => ⟨?_, ?_, ?_, ?_, hs.changesOnly
    ((hstart.mono (List.Subset.refl _) (List.nil_subset _)).seeSource _ List.mem_cons_self)⟩
  · rw [hs.on _ (by decide) (by decide), State.on_eq_true_iff]
    show (servoStarts u _).get TIM_CTRL_ENABLE = 1
    rw [servoStarts, State.get_setOff_apart (by decide), State.get_put_apart (by decide), hen, hv]
  · rw [hs.get _ (by decide) (by decide)]
    show (servoStarts u _).get TIM_CTRL_ACTSRC = _
    have hlt := s.get_lt TIM_SRC_CFG_PRI
    rw [servoStarts, State.get_setOff_apart (by decide), State.get_put_of_lt (f := TIM_CTRL_ACTSRC) (by decide) hlt]
  · rw [hs.on _ (by decide) (by decide)]
    show (servoStarts u _).on TIM_CTRL_FALLBACK = false
    rw [servoStarts, State.on, State.get_setOff (by decide)]
    rfl
  · rw [hs.srcSeen, seeSource, tget_tset_same, hstart.cyc (by simp)]

theorem completes_servoEnable_off (ok : WriteOk s who TIM_CTRL v.toNat) (hen : s.on TIM_CTRL_ENABLE = true) (hv : v.toNat % 2 = 0)
    (hpend : s.isPending 1 = false) :
    Completes (.servoEnable who v) s fun t =>
      t.on TIM_CTRL_ENABLE = false ∧ t.get TIM_SRV_ADJ_VALUE = s.get TIM_SRV_INTEG_VALUE ∧ t.rates = [] ∧
      ChangesOnly [TIM_CTRL, TIM_SRV_ADJ] [.servo] s t := by
  have heff := effect_timCtrlStored (s := s) v.toNat
  have henable := enable_timCtrlStored (s := s) (v := v)
  have hpend' : (freeRun (timCtrlStored s v.toNat)).isPending 1 = false := hpend
  have hwrite : writeReg s who TIM_CTRL v.toNat = freeRun (timCtrlStored s v.toNat) := by
    rw [writeReg_timCtrl ok, servoEnableWritten, if_neg (by omega), if_pos ⟨State.mod_two_of_on rfl rfl hen, hv⟩, ← freeRun,
      latch_of_none hpend']
  generalize timCtrlStored s v.toNat = u at heff henable hwrite
  refine completes_of_settled (congrArg (finish s) hwrite) hon fun t hs => ⟨?_, ?_, hs.rates, hs.changesOnly
    ((heff.mono (by decide) (List.nil_subset _)).trans (effect_freeRun.mono (by decide) (List.Subset.refl _)))⟩
  · rw [hs.on _ (by decide) (by decide), State.on, get_freeRun (by decide), henable, hv]
    rfl
  · rw [hs.get _ (by decide) (by decide), adj_freeRun, heff.get (by decide)]

omit hon in
/-- The write of COMMIT stored. -/
def srvCommitStored (s : State) (v : Nat) : State :=
  s.wr TIM_SRV_COMMIT (BitVec.ofNat 64 (mergeBits (rwMask srvCommitRow) (s.rd TIM_SRV_COMMIT).toNat v))

omit hon in
theorem writeReg_srvCommit (ok : WriteOk s who TIM_SRV_COMMIT (v.toNat ||| 1)) :
    writeReg s who TIM_SRV_COMMIT (v.toNat ||| 1) = srvCommitWritten (srvCommitStored s (v.toNat ||| 1)) := by
  refine (writeReg_plain ok regAt_srvCommit plainRow_srvCommit).trans ?_
  show onIf ((v.toNat ||| 1).testBit 0) srvCommitWritten _ = _
  rw [Nat.testBit_or, show Nat.testBit 1 0 = true from rfl, Bool.or_true]
  rfl

omit hon in
theorem effect_srvCommitStored (v : Nat) : Effect [TIM_SRV_COMMIT] [] s (srvCommitStored s v) := (Effect.refl s).wr _ List.mem_cons_self

omit hon in
theorem heldRd_srvCommitStored (a v : Nat) : (srvCommitStored s v).heldRd a = s.heldRd a := rfl

theorem completes_servoCommit_on (ok : WriteOk s who TIM_SRV_COMMIT (v.toNat ||| 1)) (hen : s.on TIM_CTRL_ENABLE = true) :
    Completes (.servoCommit who v) s fun t =>
      t.isPending 1 = true ∧ (∀ r ∈ keyRegs 1, t.pendRd 1 r.1 = s.heldRd r.1) ∧
      ChangesOnly [TIM_SRV_COMMIT] [.held] s t := by
  have hwrite := writeReg_srvCommit ok
  have heff := effect_srvCommitStored (s := s) (v.toNat ||| 1)
  have hheld (a : Nat) := heldRd_srvCommitStored (s := s) a (v.toNat ||| 1)
  generalize srvCommitStored s (v.toNat ||| 1) = u at hwrite heff hheld
  have hstill : (u.snapshot 1).on TIM_CTRL_ENABLE = true := (heff.on (f := TIM_CTRL_ENABLE) (by decide)).trans hen
  rw [srvCommitWritten, if_pos hstill] at hwrite
  refine completes_of_settled (congrArg (finish s) hwrite) hon fun t hs => ⟨?_, fun r hr => ?_, hs.changesOnly
    ((heff.mono (List.Subset.refl _) (List.nil_subset _)).snapshot _ List.mem_cons_self)⟩
  · rw [hs.isPending]
    exact State.isPending_snapshot
  · rw [State.pendRd_of_snapshot hr hs.pendSets, hheld _]

omit hon in
/-- A field of the servo group after a latch at once. -/
theorem get_servoLatched {a m hi lo : Nat} {u : State} (hr : (a, m) ∈ keyRegs 1) (hm : m < 2 ^ 64) (h64 : hi < 64)
    (hin : bitsOf m hi lo = 2 ^ (hi + 1 - lo) - 1) (hheld : u.heldRd a = s.heldRd a) :
    ((u.snapshot 1).latch 1).get ⟨a, hi, lo⟩ = s.heldGet ⟨a, hi, lo⟩ := by
  have hnd : ((keyRegs 1).map Prod.fst).Nodup := by
    rw [keyRegs_srv]
    decide
  rw [State.get, rd_latch_snapshot hr hnd hm, State.toNat_ofNat_rd (mergeBits_lt (u.rd a).isLt (u.heldRd a).isLt),
    bitsOf_mergeBits_in hm h64 _ _ hin, hheld]
  rfl

theorem completes_servoCommit_off (ok : WriteOk s who TIM_SRV_COMMIT (v.toNat ||| 1)) (hen : s.on TIM_CTRL_ENABLE = false) :
    Completes (.servoCommit who v) s fun t =>
      t.isPending 1 = false ∧ t.get TIM_SRV_KP_M = s.heldGet TIM_SRV_KP_M ∧ t.get TIM_SRV_KP_S = s.heldGet TIM_SRV_KP_S ∧
      t.get TIM_SRV_KI_M = s.heldGet TIM_SRV_KI_M ∧ t.get TIM_SRV_KI_S = s.heldGet TIM_SRV_KI_S ∧
      t.get TIM_SRV_LIMIT_ADJMAX = s.heldGet TIM_SRV_LIMIT_ADJMAX ∧
      t.get TIM_SRV_LOCK_LOCKN = s.heldGet TIM_SRV_LOCK_LOCKN ∧ t.get TIM_SRV_LOCK_LOCKTHR = s.heldGet TIM_SRV_LOCK_LOCKTHR ∧
      ChangesOnly [TIM_SRV_COMMIT, TIM_SRV_KP, TIM_SRV_KI, TIM_SRV_LIMIT, TIM_SRV_LOCK] [.held] s t := by
  have hwrite := writeReg_srvCommit ok
  have heff := effect_srvCommitStored (s := s) (v.toNat ||| 1)
  have hheld (a : Nat) := heldRd_srvCommitStored (s := s) a (v.toNat ||| 1)
  generalize srvCommitStored s (v.toNat ||| 1) = u at hwrite heff hheld
  have hstill : (u.snapshot 1).on TIM_CTRL_ENABLE = false := (heff.on (f := TIM_CTRL_ENABLE) (by decide)).trans hen
  rw [srvCommitWritten, hstill, if_neg Bool.false_ne_true] at hwrite
  have hlatched {a m hi lo : Nat} (hr : (a, m) ∈ keyRegs 1) (hm : m < 2 ^ 64) (h64 : hi < 64)
      (hin : bitsOf m hi lo = 2 ^ (hi + 1 - lo) - 1) := get_servoLatched hr hm h64 hin (hheld _)
  have hmem := keyRegs_srv
  refine completes_of_settled (congrArg (finish s) hwrite) hon fun t hs => ⟨?_, ?_, ?_, ?_, ?_, ?_, ?_, ?_, hs.changesOnly
    (Effect.latch ((heff.mono (by decide) (List.nil_subset _)).snapshot _ List.mem_cons_self) ?_ List.mem_cons_self)⟩
  · rw [hs.isPending]
    exact isPending_latch ..
  iterate 2
    · rw [hs.get _ (by decide) (by decide)]
      exact hlatched (a := TIM_SRV_KP) (m := 0x3FFFFF) (by simp [hmem]) (by decide) (by decide) (by decide)
  iterate 2
    · rw [hs.get _ (by decide) (by decide)]
      exact hlatched (a := TIM_SRV_KI) (m := 0x3FFFFF) (by simp [hmem]) (by decide) (by decide) (by decide)
  · rw [hs.get _ (by decide) (by decide)]
    exact hlatched (a := TIM_SRV_LIMIT) (m := 0xFFFFF) (by simp [hmem]) (by decide) (by decide) (by decide)
  iterate 2
    · rw [hs.get _ (by decide) (by decide)]
      exact hlatched (a := TIM_SRV_LOCK) (m := 0xF0FFFFF) (by simp [hmem]) (by decide) (by decide) (by decide)
  · rw [hmem]
    decide

end

/-- Settles O22: samples and refused offsets, then the correction, the sources and the writes of the servo. -/
theorem servoSamplesRatesAndSources : Obligations.ServoSamplesRatesAndSources :=
  ⟨fun _ _ _ hon ok => ⟨completes_fwSampleSubmit_sample hon ok, completes_fwSampleSubmit_step hon ok,
      completes_fwSampleSubmit_rejected hon ok⟩,
    fun _ hon => ⟨completes_servoRateApply hon, completes_sourceTimeout hon,
      fun _ _ ok => ⟨completes_servoEnable_on hon ok, completes_servoEnable_off hon ok⟩,
      fun _ _ ok => ⟨completes_servoCommit_on hon ok, completes_servoCommit_off hon ok⟩⟩⟩

end Sys2Proof.Machine
end
section
/-! A step of time: its request and its cycle (R274–R277, R288). -/

namespace Sys2Proof.Machine

open Sys2Proof Sys2Proof.Machine.Reg

/-- In a powered state a command ends as its effect, with the lines settled. -/
theorem completes_of_endsAs {i : Instr} {s u : State} {P : State → Prop} (he : exec i s = finish s u) (hon : s.powered)
    (h : ∀ t, EndsAs s u t → P t) : Completes i s P :=
  ⟨_, he.trans (congrArg Host.Outcome.next (if_neg (Nat.not_lt.mpr hon))), h _ rfl⟩

theorem Effect.servo {regs : List Nat} {parts : List Part} {s t u : State} (h : Effect regs parts s t) (hregs : u.regs = t.regs)
    (hkeep : ∀ p, p ≠ .servo → Keeps t u p) (hp : Part.servo ∈ parts) : Effect regs parts s u :=
  h.components hregs fun p hq => hkeep p fun hc => hq (hc ▸ hp)

theorem Effect.stepDue {regs : List Nat} {parts : List Part} {s t : State} (h : Effect regs parts s t) (x : Option StepDue)
    (hp : Part.servo ∈ parts) : Effect regs parts s { t with stepDue := x } :=
  h.servo rfl (fun p hq => by cases p <;> simp_all [Keeps]) hp

/-! ### The request (R274) -/

def stepCtlRow : RegDesc := ⟨"TIM_STEP_CTL", 0x100004000030, [], 32, 0x0, [⟨8, 8, .ro⟩, ⟨2, 2, .live⟩, ⟨1, 1, .live⟩, ⟨0, 0, .wo⟩], none, none⟩

theorem regAt_stepCtl : regAt TIM_STEP_CTL = some (stepCtlRow, [], false) := by decide

theorem plainRow_stepCtl : PlainRow TIM_STEP_CTL stepCtlRow := by decide

/-- The request stored. -/
def stepCtlStored (s : State) (v : Nat) : State :=
  s.wr TIM_STEP_CTL (BitVec.ofNat 64 (mergeBits (rwMask stepCtlRow) (s.rd TIM_STEP_CTL).toNat v))

/-- The step that a request asks for. -/
def stepAsked (s : State) (v : Nat) : StepDue :=
  { cyc := some (s.cyc + 16), instant := (s.nowNs + cwyLead s * 1000 + ofBool (s.nowFrac ≠ 0) + 999) / 1000 * 1000
    rel := v.testBit 1, mode := v.testBit 2, sec := s.get TIM_STEP_HI_SEC, ns := s.get TIM_STEP_LO_NS
    frac := s.get TIM_STEP_LO_FRAC }

/-- A step accepted. -/
def stepAccepted (s : State) (d : StepDue) : State := { s.setOn TIM_STEP_CTL_BUSY with stepDue := some d }

section

variable {s : State} {who : Initiator} {v : Word64} (hon : s.powered) (hfol : cwyFollower s = false)
  (ok : WriteOk s who TIM_STEP_CTL (v.toNat ||| 1))

theorem effect_stepCtlStored (x : Nat) : Effect [TIM_STEP_CTL] [] s (stepCtlStored s x) := (Effect.refl s).wr _ List.mem_cons_self

theorem request_lt : v.toNat ||| 1 < 2 ^ 64 := Nat.or_lt_two_pow v.isLt (by decide)

/-- A bit above GO of a request. -/
theorem on_stepCtlStored {i : Nat} (hi : i = 1 ∨ i = 2) :
    (stepCtlStored s (v.toNat ||| 1)).on ⟨TIM_STEP_CTL, i, i⟩ = v.toNat.testBit i := by
  have hbit : (v.toNat ||| 1).testBit i = v.toNat.testBit i := by
    rcases hi with rfl | rfl <;> rw [Nat.testBit_or] <;> exact Bool.or_false _
  have hget : (stepCtlStored s (v.toNat ||| 1)).get ⟨TIM_STEP_CTL, i, i⟩ = bitsOf (v.toNat ||| 1) i i := by
    rcases hi with rfl | rfl
    · exact State.get_wr_merge_in (f := TIM_STEP_CTL_REL) (by decide) (by decide) request_lt (by decide)
    · exact State.get_wr_merge_in (f := TIM_STEP_CTL_MODE) (by decide) (by decide) request_lt (by decide)
  rw [State.on, hget, ← hbit, Nat.testBit_eq_decide_div_mod_eq, bitsOf, Nat.shiftRight_eq_div_pow, Nat.add_sub_cancel_left, Nat.pow_one]
  rcases Nat.mod_two_eq_zero_or_one ((v.toNat ||| 1) / 2 ^ i) with h | h <;> rw [h] <;> decide

theorem busy_stepCtlStored : (stepCtlStored s (v.toNat ||| 1)).get TIM_STEP_CTL_BUSY = s.get TIM_STEP_CTL_BUSY :=
  State.get_wr_merge_out (f := TIM_STEP_CTL_BUSY) (by decide) (by decide) request_lt (by decide)

include ok in
theorem writeReg_stepCtl : writeReg s who TIM_STEP_CTL (v.toNat ||| 1) = stepGo (stepCtlStored s (v.toNat ||| 1)) := by
  refine (writeReg_plain ok regAt_stepCtl plainRow_stepCtl).trans ?_
  show onIf ((v.toNat ||| 1).testBit 0) stepGo _ = _
  rw [Nat.testBit_or, show Nat.testBit 1 0 = true from rfl, Bool.or_true]
  rfl

theorem follower_of_effect {regs : List Nat} {parts : List Part} {t : State} (h : Effect regs parts s t) (hstat : CWY_STAT ∉ regs) :
    cwyFollower t = cwyFollower s ∧ cwyMaster t = cwyMaster s := by
  rw [cwyFollower, cwyFollower, cwyMaster, cwyMaster, h.get (f := CWY_STAT_STATE) hstat, h.on (f := CWY_STAT_MASTER) hstat]
  exact ⟨rfl, rfl⟩

include hon ok

include hfol in
theorem completes_timeStepGo_accepted (hdue : s.stepDue = none) (hmas : cwyMaster s = false)
    (hns : v.toNat.testBit 1 = false → s.get TIM_STEP_LO_NS < 1000000000)
    (hmode : v.toNat.testBit 1 = true → v.toNat.testBit 2 = true → s.epochMode = true) :
    Completes (.timeStepGo who v) s fun t =>
      (∃ d, t.stepDue = some d ∧ d.cyc = some (s.cyc + 16) ∧ d.rel = v.toNat.testBit 1 ∧ d.mode = v.toNat.testBit 2 ∧
        d.sec = s.get TIM_STEP_HI_SEC ∧ d.ns = s.get TIM_STEP_LO_NS ∧ d.frac = s.get TIM_STEP_LO_FRAC) ∧
      t.on TIM_STEP_CTL_BUSY = true ∧ ChangesOnly [TIM_STEP_CTL] [.servo] s t := by
  have hwrite := writeReg_stepCtl ok
  have heff := effect_stepCtlStored (s := s) (v.toNat ||| 1)
  have hrel : (stepCtlStored s (v.toNat ||| 1)).on TIM_STEP_CTL_REL = _ := on_stepCtlStored (.inl rfl)
  have hmod : (stepCtlStored s (v.toNat ||| 1)).on TIM_STEP_CTL_MODE = _ := on_stepCtlStored (.inr rfl)
  generalize stepCtlStored s (v.toNat ||| 1) = u at hwrite heff hrel hmod
  obtain ⟨-, -, hdue', -⟩ := heff.keeps .servo (by simp)
  obtain ⟨hfol', hmas'⟩ := follower_of_effect heff (by decide)
  have hgo : stepGo u = stepAccepted u (stepAsked u v.toNat) := by
    unfold stepGo
    simp only [hrel, hmod, hdue', hdue, hfol', hfol, hmas', hmas, heff.get (f := TIM_STEP_LO_NS) (by decide), heff.epochMode (by decide)]
    rw [if_neg (by simp only [Option.isSome_none, Bool.false_eq_true, false_or, or_false, not_or, not_and]; grind), if_neg (by simp)]
    rw [stepAccepted, stepAsked, if_neg Bool.false_ne_true, heff.get (f := TIM_STEP_LO_NS) (by decide)]
  rw [hgo] at hwrite
  refine completes_of_settled (congrArg (finish s) hwrite) hon fun t hs => ⟨⟨stepAsked u v.toNat, hs.stepDue, ?_, rfl, rfl,
    heff.get (by decide), heff.get (by decide), heff.get (by decide)⟩, ?_, hs.changesOnly
      (((heff.mono (List.Subset.refl _) (List.nil_subset _)).setOn (by decide)).stepDue _ List.mem_cons_self)⟩
  · rw [stepAsked, heff.cyc (by simp)]
  · rw [hs.on _ (by decide) (by decide), State.on_eq_true_iff]
    exact State.get_setOn (by decide)

theorem completes_timeStepGo_refused (hbad : s.stepDue.isSome = true ∨ (v.toNat.testBit 1 = false ∧ 1000000000 ≤ s.get TIM_STEP_LO_NS) ∨
      (v.toNat.testBit 1 = true ∧ v.toNat.testBit 2 = true ∧ s.epochMode = false)) :
    Completes (.timeStepGo who v) s fun t =>
      t.on TIM_EVT_STEPERR = true ∧ t.get TIM_STEP_CTL_BUSY = s.get TIM_STEP_CTL_BUSY ∧
      ChangesOnly [TIM_STEP_CTL, TIM_EVT] [] s t := by
  have hwrite := writeReg_stepCtl ok
  have heff := effect_stepCtlStored (s := s) (v.toNat ||| 1)
  have hrel : (stepCtlStored s (v.toNat ||| 1)).on TIM_STEP_CTL_REL = _ := on_stepCtlStored (.inl rfl)
  have hmod : (stepCtlStored s (v.toNat ||| 1)).on TIM_STEP_CTL_MODE = _ := on_stepCtlStored (.inr rfl)
  have hbusy := busy_stepCtlStored (s := s) (v := v)
  generalize stepCtlStored s (v.toNat ||| 1) = u at hwrite heff hrel hmod hbusy
  obtain ⟨-, -, hdue', -⟩ := heff.keeps .servo (by simp)
  have hgo : stepGo u = stepErr u := by
    unfold stepGo
    simp only [hrel, hmod, hdue', heff.get (f := TIM_STEP_LO_NS) (by decide), heff.epochMode (by decide)]
    rw [if_pos]
    rcases hbad with h | ⟨h, hns⟩ | ⟨h, hm, hw⟩
    · exact .inl h
    · exact .inr (.inl ⟨by rw [h]; rfl, hns⟩)
    · exact .inr (.inr (.inl ⟨h, hm, by rw [hw]; rfl⟩))
  rw [hgo] at hwrite
  refine completes_of_settled (congrArg (finish s) hwrite) hon fun t hs => ⟨?_, ?_, hs.changesOnly
    ((heff.mono (by decide) (List.Subset.refl _)).setOn (by decide))⟩
  · rw [hs.on _ (by decide) (by decide), State.on_eq_true_iff]
    exact State.get_setOn (by decide)
  · rw [hs.get _ (by decide) (by decide), stepErr, State.get_setOn_apart (by decide), hbusy]

end

/-! ### Compare units at a step (R288) -/

/-- A unit's part of a step at which it does not fire. -/
def unitStepped (s : State) (c : Nat) (delta : Int) : State :=
  if !s.on (TIM_CMP_STAT_ARMED c) then s
  else if !s.on (TIM_CMP_CTL_STEPPOL c) then s.setNext c (cmpNext s c + delta)
  else (s.count (TIM_CMP_STAT_MISSED c) (periodsPast s (cmpNext s c) (cmpPer s c)).toNat).setNext c
    (cmpNext s c + periodsPast s (cmpNext s c) (cmpPer s c) * (cmpPer s c : Int))

/-- Registers that a step changes in compare units. -/
def cmpStepRegs : List Nat := each 32 TIM_CMP_STAT ++ each 32 TIM_CMP_NEXT_LO ++ each 32 TIM_CMP_NEXT_HI

/-- The target set on an instant reads back. -/
theorem cmpNext_setNext_int (s : State) (c : Nat) (x : Int) : (cmpNext (s.setNext c x) c : Int) = x % (targetModulus : Int) := by
  have hpos : 0 ≤ x % (targetModulus : Int) := Int.emod_nonneg _ (by decide)
  have hset : s.setNext c x = s.setNext c ((x % (targetModulus : Int)).toNat : Int) := by
    have hsame : ((x % (targetModulus : Int)).toNat : Int) % (targetModulus : Int) = x % (targetModulus : Int) := by
      rw [Int.toNat_of_nonneg hpos, Int.emod_emod]
    unfold State.setNext
    rw [targetModulus] at hsame
    rw [targetModulus, hsame]
  have hlt : (x % (targetModulus : Int)).toNat < targetModulus := by
    have := Int.emod_lt_of_pos x (show (0 : Int) < (targetModulus : Int) by decide)
    omega
  rw [hset, cmpNext_setNext, Nat.mod_eq_of_lt hlt, Int.toNat_of_nonneg hpos]

section

variable {s : State} {delta : Int}

theorem cmpStepUnit_eq {c : Nat} (hper : s.on (TIM_CMP_STAT_ARMED c) = true → s.on (TIM_CMP_CTL_STEPPOL c) = true → cmpPeriodic s c = true) :
    cmpStepUnit s c delta = unitStepped s c delta := by
  unfold cmpStepUnit unitStepped
  cases harm : s.on (TIM_CMP_STAT_ARMED c)
  · rfl
  · cases hpol : s.on (TIM_CMP_CTL_STEPPOL c)
    · rfl
    · simp only [hper harm hpol]
      rfl

theorem effect_unitStepped (c : Nat) : Effect (armRegs c) [] s (unitStepped s c delta) := by
  have hlo : TIM_CMP_NEXT_LO c ∈ armRegs c := by simp [armRegs]
  have hhi : TIM_CMP_NEXT_HI c ∈ armRegs c := by simp [armRegs]
  have hstat : (TIM_CMP_STAT_MISSED c).addr ∈ armRegs c := List.mem_cons_self
  exact Effect.ite (fun _ => Effect.refl s) fun _ => Effect.ite (fun _ => (Effect.refl s).setNext hlo hhi _) fun _ =>
    ((Effect.refl s).count _ hstat).setNext hlo hhi _

/-- No unit arms or disarms. -/
theorem armed_unitStepped (c e : Nat) : (unitStepped s c delta).get (TIM_CMP_STAT_ARMED e) = s.get (TIM_CMP_STAT_ARMED e) := by
  have hlo : (TIM_CMP_STAT_ARMED e).addr ≠ TIM_CMP_NEXT_LO c := by
    simp only [TIM_CMP_STAT_ARMED, TIM_CMP_STAT, TIM_CMP_NEXT_LO]
    omega
  have hhi : (TIM_CMP_STAT_ARMED e).addr ≠ TIM_CMP_NEXT_HI c := by
    simp only [TIM_CMP_STAT_ARMED, TIM_CMP_STAT, TIM_CMP_NEXT_HI]
    omega
  unfold unitStepped
  split
  · rfl
  · split
    · exact get_setNext hlo hhi _
    · rw [get_setNext hlo hhi]
      exact State.get_count_apart (.inr (show 16 ≤ 31 ∧ 31 < 64 ∧ (1 < 16 ∨ 31 < 1) by decide)) _

/-- Targets of the units before `n` have moved. -/
def unitsStepped (n : Nat) (s : State) (delta : Int) : State := forUpTo n (fun c s => unitStepped s c delta) s

theorem unitsStepped_succ (n : Nat) : unitsStepped (n + 1) s delta = unitStepped (unitsStepped n s delta) n delta := forUpTo_succ ..

theorem armRegs_subset {c : Nat} (hc : c < 32) : armRegs c ⊆ cmpStepRegs := by
  intro a ha
  simp only [armRegs, List.mem_cons, List.not_mem_nil, or_false] at ha
  simp only [cmpStepRegs, List.mem_append]
  rcases ha with rfl | rfl | rfl
  · exact .inl (.inl (mem_each hc))
  · exact .inl (.inr (mem_each hc))
  · exact .inr (mem_each hc)

theorem effect_unitsStepped {n : Nat} (hn : n ≤ 32) : Effect cmpStepRegs [] s (unitsStepped n s delta) :=
  (Effect.refl s).forUpTo fun _ c hc => (effect_unitStepped c).mono (armRegs_subset (by omega)) (List.Subset.refl _)

theorem armed_unitsStepped (n e : Nat) : (unitsStepped n s delta).on (TIM_CMP_STAT_ARMED e) = s.on (TIM_CMP_STAT_ARMED e) := by
  refine State.on_congr ?_
  induction n with
  | zero => rfl
  | succ n ih => rw [unitsStepped_succ, armed_unitStepped, ih]

theorem not_mem_cmpStepRegs {a : Nat} (h : ∀ c, a ≠ TIM_CMP_STAT c ∧ a ≠ TIM_CMP_NEXT_LO c ∧ a ≠ TIM_CMP_NEXT_HI c) : a ∉ cmpStepRegs := by
  intro ha
  simp only [cmpStepRegs, each, List.mem_append, List.mem_map] at ha
  rcases ha with (⟨c, -, rfl⟩ | ⟨c, -, rfl⟩) | ⟨c, -, rfl⟩
  · exact (h c).1 rfl
  · exact (h c).2.1 rfl
  · exact (h c).2.2 rfl

theorem ctl_not_mem_cmpStepRegs (c : Nat) : TIM_CMP_CTL c ∉ cmpStepRegs := by
  refine not_mem_cmpStepRegs fun e => ?_
  unfold TIM_CMP_CTL TIM_CMP_STAT TIM_CMP_NEXT_LO TIM_CMP_NEXT_HI
  omega

theorem per_not_mem_cmpStepRegs (c : Nat) : TIM_CMP_PER c ∉ cmpStepRegs := by
  refine not_mem_cmpStepRegs fun e => ?_
  unfold TIM_CMP_PER TIM_CMP_STAT TIM_CMP_NEXT_LO TIM_CMP_NEXT_HI
  omega

theorem cmpStepUnits_eq (hper : ∀ c, c < 32 → s.on (TIM_CMP_STAT_ARMED c) = true → s.on (TIM_CMP_CTL_STEPPOL c) = true →
    cmpPeriodic s c = true) {n : Nat} (hn : n ≤ 32) : forUpTo n (fun c s => cmpStepUnit s c delta) s = unitsStepped n s delta := by
  induction n with
  | zero => rfl
  | succ n ih =>
    have heff := effect_unitsStepped (s := s) (delta := delta) (show n ≤ 32 by omega)
    rw [forUpTo_succ, ih (by omega), unitsStepped_succ]
    refine cmpStepUnit_eq ?_
    rw [armed_unitsStepped, heff.on (f := TIM_CMP_CTL_STEPPOL n) (ctl_not_mem_cmpStepRegs n),
      cmpPeriodic_of_effect heff (ctl_not_mem_cmpStepRegs n) (per_not_mem_cmpStepRegs n)]
    exact hper n (by omega)

theorem cmpNext_unitStepped_ne {c e : Nat} (h : c ≠ e) : cmpNext (unitStepped s e delta) c = cmpNext s c := by
  have heff := effect_unitStepped (s := s) (delta := delta) e
  refine cmpNext_congr (heff.rd _ (not_mem_armRegs ?_ ?_ ?_)) (heff.rd _ (not_mem_armRegs ?_ ?_ ?_)) <;>
    simp only [TIM_CMP_NEXT_LO, TIM_CMP_NEXT_HI, TIM_CMP_STAT] <;> omega

theorem cmpNext_unitsStepped_out {c n : Nat} (h : n ≤ c) : cmpNext (unitsStepped n s delta) c = cmpNext s c := by
  induction n with
  | zero => rfl
  | succ n ih => rw [unitsStepped_succ, cmpNext_unitStepped_ne (by omega), ih (by omega)]

theorem cmpNext_unitsStepped {c n : Nat} (h : c < n) :
    cmpNext (unitsStepped n s delta) c = cmpNext (unitStepped (unitsStepped c s delta) c delta) c := by
  induction n with
  | zero => omega
  | succ n ih =>
    rw [unitsStepped_succ]
    rcases Nat.lt_succ_iff_lt_or_eq.mp h with hlt | rfl
    · rw [cmpNext_unitStepped_ne (by omega), ih hlt]
    · rfl

theorem time_not_mem_cmpStepRegs : TIM_CTRL ∉ cmpStepRegs := by
  refine not_mem_cmpStepRegs fun e => ?_
  unfold TIM_CTRL TIM_CMP_STAT TIM_CMP_NEXT_LO TIM_CMP_NEXT_HI
  omega

/-- The moved target of an armed unit. -/
theorem cmpNext_stepped {c : Nat} (hc : c < 32) (harm : s.on (TIM_CMP_STAT_ARMED c) = true) :
    (s.on (TIM_CMP_CTL_STEPPOL c) = false → ((cmpNext (unitsStepped 32 s delta) c : Int) - (cmpNext s c + delta)) % targetModulus = 0) ∧
    (s.on (TIM_CMP_CTL_STEPPOL c) = true → ((cmpNext (unitsStepped 32 s delta) c : Int) -
      (cmpNext s c + periodsPast s (cmpNext s c) (cmpPer s c) * cmpPer s c)) % targetModulus = 0) := by
  have heff := effect_unitsStepped (s := s) (delta := delta) (show c ≤ 32 by omega)
  have harm' := (armed_unitsStepped (s := s) (delta := delta) c c).trans harm
  have hpol := heff.on (f := TIM_CMP_CTL_STEPPOL c) (ctl_not_mem_cmpStepRegs c)
  have hout := cmpNext_unitsStepped_out (s := s) (delta := delta) (Nat.le_refl c)
  have hpast := periodsPast_congr (heff.acc (by simp)) (heff.epochMode time_not_mem_cmpStepRegs)
  have hper := cmpPer_of_effect heff (per_not_mem_cmpStepRegs c)
  rw [cmpNext_unitsStepped hc]
  generalize unitsStepped c s delta = u at harm' hpol hout hpast hper
  have hmod (x : Int) : (x % (targetModulus : Int) - x) % (targetModulus : Int) = 0 := by
    rw [Int.emod_sub_emod, Int.sub_self, Int.zero_emod]
  refine ⟨fun h => ?_, fun h => ?_⟩ <;> rw [unitStepped, harm', hpol, h]
  · rw [if_neg (by decide), if_pos (by decide), cmpNext_setNext_int, hout, hmod]
  · rw [if_neg (by decide), if_neg (by decide), cmpNext_setNext_int, hout, hper, hpast, hmod]

end

/-! ### The step cycle (R275–R277) -/

/-- A step taken off. -/
def stepCleared (s : State) : State := { s.setOff TIM_STEP_CTL_BUSY with stepDue := none }

/-- The accumulator loaded. -/
def stepLoaded (s : State) (mode : Bool) (acc : Nat) : State :=
  { s.put TIM_CTRL_MODE (ofBool mode) with acc := acc, stepAt := some s.cyc }

/-- Waiting corrections discarded. -/
def stepDiscards (s : State) : State := { s.count TIM_CNT_REJECT_VALUE s.rates.length with rates := [] }

/-- The step shown. -/
def stepShown (s : State) : State := ((unlock s).count TIM_CNT_STEP_VALUE 1).setOn TIM_EVT_STEP

/-- The state of the step cycle before compare units take their part. -/
def stepTaken (s : State) (mode : Bool) (acc : Nat) : State := stepShown (stepDiscards (stepLoaded (stepCleared s) mode acc))

/-- The shift of a step. -/
def stepShift (s : State) (mode : Bool) (acc : Nat) : Int :=
  stepDelta s.now16 (stepLoaded (stepCleared s) mode acc).now16 (stepLoaded (stepCleared s) mode acc).epochMode

/-- Frames, fusion and the recovery epoch of a step. -/
def stepEnded (oldNs : Nat) (delta : Int) (s : State) : State := (fusTimeStep (schedTimeStep oldNs (delta / 65536) s) delta).epochEvent 0

section

variable {s : State} {d : StepDue}

/-- A due unit fires on the old time. -/
def dueFires (c : Nat) (s : State) : State :=
  match cmpDue s c with
  | some late => fireUnit s c late 0
  | none => s

theorem fires_none (h : ∀ c, c < 32 → cmpDue s c = none) {n : Nat} (hn : n ≤ 32) : forUpTo n dueFires s = s := by
  induction n with
  | zero => rfl
  | succ n ih => rw [forUpTo_succ, ih (by omega), dueFires, h n (by omega)]

theorem effect_stepCleared : Effect [TIM_STEP_CTL] [.servo] s (stepCleared s) :=
  ((Effect.refl s).setOff (by decide)).stepDue _ List.mem_cons_self

theorem stepResult_stepCleared : stepResult (stepCleared s) d = stepResult s d := rfl

theorem accNs_stepCleared : (stepCleared s).accNs = s.accNs := rfl

theorem now16_stepCleared : (stepCleared s).now16 = s.now16 :=
  now16_congr (effect_stepCleared.acc (by simp)) (effect_stepCleared.epochMode (by decide))

/-- The step cycle after the firings on the old time. -/
def stepOnward (s : State) (d : StepDue) : State :=
  match stepResult s d with
  | none => stepErr (stepCleared s)
  | some acc => stepEnded s.accNs (stepDelta (stepCleared s).now16 (stepLoaded (stepCleared s) d.mode acc).now16
        (stepLoaded (stepCleared s) d.mode acc).epochMode)
      (forUpTo 32 (fun c t => cmpStepUnit t c (stepDelta (stepCleared s).now16 (stepLoaded (stepCleared s) d.mode acc).now16
        (stepLoaded (stepCleared s) d.mode acc).epochMode)) (stepTaken s d.mode acc))

theorem timeStep_eq : timeStep s d = stepOnward (forUpTo 32 dueFires s) d := rfl

theorem timeStep_none (hdue : ∀ c, c < 32 → cmpDue s c = none) (hres : stepResult s d = none) :
    timeStep s d = stepErr (stepCleared s) := by
  rw [timeStep_eq, fires_none hdue (Nat.le_refl _), stepOnward, hres]

theorem timeStep_some (hdue : ∀ c, c < 32 → cmpDue s c = none) {acc : Nat} (hres : stepResult s d = some acc) :
    timeStep s d = stepEnded s.accNs (stepShift s d.mode acc)
      (forUpTo 32 (fun c t => cmpStepUnit t c (stepShift s d.mode acc)) (stepTaken s d.mode acc)) := by
  rw [timeStep_eq, fires_none hdue (Nat.le_refl _), stepOnward, hres]
  simp only
  rw [now16_stepCleared, ← stepShift]

/-! ### What the step cycle leaves -/

/-- Registers of a step outside compare units. -/
def stepRegs : List Nat := [TIM_CTRL, TIM_STEP_CTL, TIM_EVT, TIM_CNT_STEP, TIM_CNT_REJECT]

/-- The compare units' registers lie above. -/
theorem not_mem_stepRegs {a : Nat} (h : 0x100004001000 ≤ a) : a ∉ stepRegs := by
  simp only [stepRegs, List.mem_cons, List.not_mem_nil, or_false, TIM_CTRL, TIM_STEP_CTL, TIM_EVT, TIM_CNT_STEP, TIM_CNT_REJECT]
  omega

theorem below_not_mem_cmpStepRegs {a : Nat} (h : a < 0x100004001000) : a ∉ cmpStepRegs := by
  refine not_mem_cmpStepRegs fun e => ?_
  unfold TIM_CMP_STAT TIM_CMP_NEXT_LO TIM_CMP_NEXT_HI
  omega

theorem effect_stepLoaded (mode : Bool) (acc : Nat) : Effect stepRegs [.time, .servo] s (stepLoaded s mode acc) :=
  ((Effect.refl s).put _ (by decide)).components rfl fun p hq => by
    cases p
    case time => exact absurd List.mem_cons_self hq
    case servo => exact absurd (by decide) hq
    all_goals simp [Keeps, stepLoaded]

theorem effect_stepDiscards : Effect stepRegs [.time, .servo] s (stepDiscards s) :=
  ((Effect.refl s).count _ (by decide)).rates _ (by decide)

theorem effect_stepShown : Effect stepRegs [.time, .servo] s (stepShown s) :=
  ((effect_unlock.mono (by decide) (by decide)).count _ (by decide)).setOn (by decide)

theorem effect_stepTaken (mode : Bool) (acc : Nat) : Effect stepRegs [.time, .servo] s (stepTaken s mode acc) :=
  (((effect_stepCleared.mono (by decide) (by decide)).trans (effect_stepLoaded mode acc)).trans effect_stepDiscards).trans
    effect_stepShown

theorem time_unlock : (unlock s).acc = s.acc ∧ (unlock s).stepDue = s.stepDue ∧ (unlock s).stepAt = s.stepAt ∧
    (unlock s).lockRun = (0, 0) := by
  unfold unlock
  simp only
  split <;> exact ⟨rfl, rfl, rfl, rfl⟩

/-- Components of a step shown. -/
theorem time_stepShown : (stepShown s).acc = s.acc ∧ (stepShown s).stepDue = s.stepDue ∧ (stepShown s).stepAt = s.stepAt ∧
    (stepShown s).lockRun = (0, 0) ∧ (stepShown s).rates = s.rates := by
  obtain ⟨hacc, hdue, hat, hrun⟩ := time_unlock (s := s)
  exact ⟨hacc, hdue, hat, hrun, (servo_unlock (s := s)).1⟩

theorem get_stepShown {f : Fld} (hlock : Apart TIM_CTRL_LOCKED f) (hchg : Apart TIM_EVT_LOCKCHG f) (hevt : Apart TIM_EVT_STEP f)
    (hcnt : f.addr ≠ TIM_CNT_STEP) : (stepShown s).get f = s.get f := by
  rw [stepShown, State.get_setOn_apart hevt, State.get_count_apart (.inl hcnt), get_unlock hlock hchg]

theorem get_stepDiscards {f : Fld} (hcnt : f.addr ≠ TIM_CNT_REJECT) : (stepDiscards s).get f = s.get f := by
  rw [stepDiscards, get_rates, State.get_count_apart (.inl hcnt)]

theorem get_stepLoaded {f : Fld} (hmode : Apart TIM_CTRL_MODE f) (mode : Bool) (acc : Nat) :
    (stepLoaded s mode acc).get f = s.get f := by
  show (s.put TIM_CTRL_MODE (ofBool mode)).get f = s.get f
  exact State.get_put_apart hmode _

theorem get_stepCleared {f : Fld} (h : Apart TIM_STEP_CTL_BUSY f) : (stepCleared s).get f = s.get f := by
  show (s.setOff TIM_STEP_CTL_BUSY).get f = s.get f
  exact State.get_setOff_apart h

theorem components_stepLoaded (mode : Bool) (acc : Nat) : (stepLoaded s mode acc).acc = acc ∧
    (stepLoaded s mode acc).stepAt = some s.cyc ∧ (stepLoaded s mode acc).stepDue = s.stepDue ∧
    (stepLoaded s mode acc).rates = s.rates := ⟨rfl, rfl, rfl, rfl⟩

theorem components_stepDiscards : (stepDiscards s).acc = s.acc ∧ (stepDiscards s).stepAt = s.stepAt ∧
    (stepDiscards s).stepDue = s.stepDue ∧ (stepDiscards s).rates = [] := ⟨rfl, rfl, rfl, rfl⟩

/-- Components of the step cycle before compare units take their part. -/
theorem components_stepTaken (mode : Bool) (acc : Nat) : (stepTaken s mode acc).acc = acc ∧ (stepTaken s mode acc).stepDue = none ∧
    (stepTaken s mode acc).stepAt = some s.cyc ∧ (stepTaken s mode acc).lockRun = (0, 0) ∧ (stepTaken s mode acc).rates = [] := by
  obtain ⟨hacc, hdue, hat, hrun, hrates⟩ := time_stepShown (s := stepDiscards (stepLoaded (stepCleared s) mode acc))
  obtain ⟨dacc, dat, ddue, drates⟩ := components_stepDiscards (s := stepLoaded (stepCleared s) mode acc)
  obtain ⟨lacc, lat, ldue, -⟩ := components_stepLoaded (s := stepCleared s) mode acc
  exact ⟨hacc.trans (dacc.trans lacc), hdue.trans (ddue.trans ldue), hat.trans (dat.trans lat), hrun, hrates.trans drates⟩

/-- Fields of the step cycle before compare units take their part. -/
theorem fields_stepTaken (mode : Bool) (acc : Nat) :
    (stepTaken s mode acc).on TIM_CTRL_MODE = mode ∧ (stepTaken s mode acc).on TIM_STEP_CTL_BUSY = false ∧
    (stepTaken s mode acc).on TIM_CTRL_LOCKED = false ∧ (stepTaken s mode acc).on TIM_EVT_STEP = true ∧
    (stepTaken s mode acc).get TIM_CNT_STEP_VALUE = satAdd 32 (s.get TIM_CNT_STEP_VALUE) 1 ∧
    (stepTaken s mode acc).get TIM_CNT_REJECT_VALUE = satAdd 32 (s.get TIM_CNT_REJECT_VALUE) s.rates.length := by
  have hshown {f : Fld} (hlock : Apart TIM_CTRL_LOCKED f) (hchg : Apart TIM_EVT_LOCKCHG f) (hevt : Apart TIM_EVT_STEP f)
      (hcnt : f.addr ≠ TIM_CNT_STEP) : (stepTaken s mode acc).get f = _ := get_stepShown hlock hchg hevt hcnt
  refine ⟨?_, ?_, ?_, ?_, ?_, ?_⟩
  · rw [State.on, hshown (by decide) (by decide) (by decide) (by decide), get_stepDiscards (by decide)]
    show ((stepCleared s).put TIM_CTRL_MODE (ofBool mode)).on TIM_CTRL_MODE = mode
    exact State.on_put_ofBool (by decide) _
  · rw [State.on, hshown (by decide) (by decide) (by decide) (by decide), get_stepDiscards (by decide), get_stepLoaded (by decide)]
    have hoff : (stepCleared s).get TIM_STEP_CTL_BUSY = 0 := State.get_setOff (by decide)
    rw [hoff]
    rfl
  · rw [State.on, stepTaken, stepShown, State.get_setOn_apart (by decide), State.get_count_apart (by decide)]
    exact locked_unlock
  · rw [State.on_eq_true_iff, stepTaken, stepShown, State.get_setOn (by decide)]
  · rw [stepTaken, stepShown, State.get_setOn_apart (by decide), State.get_count_self (by decide), get_unlock (by decide) (by decide),
      get_stepDiscards (by decide), get_stepLoaded (by decide), get_stepCleared (by decide)]
    rfl
  · rw [hshown (by decide) (by decide) (by decide) (by decide), stepDiscards, get_rates, State.get_count_self (by decide),
      get_stepLoaded (by decide), get_stepCleared (by decide)]
    rfl

end

section

variable {s : State} {d : StepDue} (hon : s.powered) (hdue : s.stepDue = some d) (hreach : stepReached s d = true)
  (hidle : ∀ c, c < 32 → cmpDue s c = none)
include hon hdue hreach hidle

omit hon hidle in
theorem exec_timeStepExecute : exec .timeStepExecute s = finish s (timeStep s d) := by
  show execTimeStepExecute s = _
  unfold execTimeStepExecute
  rw [hdue]
  simp only [hreach, if_true]

theorem completes_timeStepExecute_refused (hres : stepResult s d = none) :
    Completes .timeStepExecute s fun t =>
      t.on TIM_EVT_STEPERR = true ∧ t.on TIM_STEP_CTL_BUSY = false ∧ t.stepDue = none ∧ t.acc = s.acc ∧
      ChangesOnly [TIM_STEP_CTL, TIM_EVT] [.servo] s t := by
  have hexec := exec_timeStepExecute hdue hreach
  rw [timeStep_none hidle hres] at hexec
  have heff := effect_stepCleared (s := s)
  have hnone : (stepCleared s).stepDue = none := rfl
  have hbusy : (stepCleared s).get TIM_STEP_CTL_BUSY = 0 := State.get_setOff (by decide)
  generalize stepCleared s = u at hexec heff hnone hbusy
  refine completes_of_settled hexec hon fun t hs => ⟨?_, ?_, hs.stepDue.trans hnone, hs.acc.trans (heff.acc (by simp)), hs.changesOnly
    ((heff.mono (by decide) (List.Subset.refl _)).setOn (by decide))⟩
  · rw [hs.on _ (by decide) (by decide), State.on_eq_true_iff]
    exact State.get_setOn (by decide)
  · rw [hs.on _ (by decide) (by decide), State.on, stepErr, State.get_setOn_apart (by decide), hbusy]
    rfl

theorem completes_timeStepExecute (acc : Nat) (hres : stepResult s d = some acc)
    (hper : ∀ c, c < 32 → s.on (TIM_CMP_STAT_ARMED c) = true → s.on (TIM_CMP_CTL_STEPPOL c) = true → cmpPeriodic s c = true) :
    Completes .timeStepExecute s fun t => ∃ (u : State) (delta : Int),
      EndsAs s ((fusTimeStep (schedTimeStep s.accNs (delta / 65536) u) delta).epochEvent 0) t ∧
      delta = stepDelta s.now16 u.now16 u.epochMode ∧ u.acc = acc ∧ u.on TIM_CTRL_MODE = d.mode ∧
      u.on TIM_STEP_CTL_BUSY = false ∧ u.stepDue = none ∧ u.stepAt = some s.cyc ∧ u.rates = [] ∧ u.lockRun = (0, 0) ∧
      u.on TIM_CTRL_LOCKED = false ∧ u.on TIM_EVT_STEP = true ∧
      u.get TIM_CNT_STEP_VALUE = satAdd 32 (s.get TIM_CNT_STEP_VALUE) 1 ∧
      u.get TIM_CNT_REJECT_VALUE = satAdd 32 (s.get TIM_CNT_REJECT_VALUE) s.rates.length ∧
      (∀ c, c < 32 → s.on (TIM_CMP_STAT_ARMED c) = true →
        (s.on (TIM_CMP_CTL_STEPPOL c) = false → ((cmpNext u c : Int) - (cmpNext s c + delta)) % (accModulus / 65536 : Nat) = 0) ∧
        (s.on (TIM_CMP_CTL_STEPPOL c) = true → ∃ n : Int, n = periodsPast u (cmpNext s c) (cmpPer s c) ∧
          ((cmpNext u c : Int) - (cmpNext s c + n * cmpPer s c)) % (accModulus / 65536 : Nat) = 0)) ∧
      (∀ a, a ∉ [TIM_CTRL, TIM_STEP_CTL, TIM_EVT, TIM_CNT_STEP, TIM_CNT_REJECT] ++ each 32 TIM_CMP_STAT ++
        each 32 TIM_CMP_NEXT_LO ++ each 32 TIM_CMP_NEXT_HI → u.rd a = s.rd a) ∧
      ∀ p, p ∉ [Part.time, Part.servo] → Keeps s u p := by
  have hexec := exec_timeStepExecute hdue hreach
  rw [timeStep_some hidle hres] at hexec
  have htaken := effect_stepTaken (s := s) d.mode acc
  obtain ⟨hacc, hnone, hat, hrun, hrates⟩ := components_stepTaken (s := s) d.mode acc
  obtain ⟨hmode, hbusy, hlock, hstep, hcnt, hrej⟩ := fields_stepTaken (s := s) d.mode acc
  have hshift : stepShift s d.mode acc = stepDelta s.now16 (stepTaken s d.mode acc).now16 (stepTaken s d.mode acc).epochMode := by
    have hload : (stepLoaded (stepCleared s) d.mode acc).epochMode = d.mode := State.on_put_ofBool (by decide) _
    rw [stepShift, hload, now16_congr (s := stepLoaded (stepCleared s) d.mode acc) hacc (hmode.trans hload.symm), State.epochMode, hmode]
  have hctl (c : Nat) : TIM_CMP_CTL c ∉ stepRegs := not_mem_stepRegs (by unfold TIM_CMP_CTL; omega)
  have hperiod (c : Nat) : TIM_CMP_PER c ∉ stepRegs := not_mem_stepRegs (by unfold TIM_CMP_PER; omega)
  have hstat (c : Nat) : TIM_CMP_STAT c ∉ stepRegs := not_mem_stepRegs (by unfold TIM_CMP_STAT; omega)
  have hlo (c : Nat) : TIM_CMP_NEXT_LO c ∉ stepRegs := not_mem_stepRegs (by unfold TIM_CMP_NEXT_LO; omega)
  have hhi (c : Nat) : TIM_CMP_NEXT_HI c ∉ stepRegs := not_mem_stepRegs (by unfold TIM_CMP_NEXT_HI; omega)
  have hpol (c : Nat) := htaken.on (f := TIM_CMP_CTL_STEPPOL c) (hctl c)
  have harm (c : Nat) := htaken.on (f := TIM_CMP_STAT_ARMED c) (hstat c)
  have hnext (c : Nat) := cmpNext_congr (htaken.rd _ (hlo c)) (htaken.rd _ (hhi c))
  have hpers (c : Nat) := cmpPer_of_effect htaken (hperiod c)
  have hpers' (c : Nat) := cmpPeriodic_of_effect htaken (hctl c) (hperiod c)
  generalize stepShift s d.mode acc = delta at hexec hshift
  generalize stepTaken s d.mode acc = w at hexec htaken hacc hnone hat hrun hrates hmode hbusy hlock hstep hcnt hrej hshift hpol harm hnext hpers hpers'
  rw [cmpStepUnits_eq (fun c hc ha hp => (hpers' c).trans (hper c hc ((harm c).symm.trans ha) ((hpol c).symm.trans hp))) (Nat.le_refl _)] at hexec
  have hunits := effect_unitsStepped (s := w) (delta := delta) (Nat.le_refl 32)
  have hmoved {c : Nat} (hc : c < 32) (ha : s.on (TIM_CMP_STAT_ARMED c) = true) := cmpNext_stepped (s := w) (delta := delta) hc ((harm c).trans ha)
  generalize unitsStepped 32 w delta = u at hexec hunits hmoved
  have huacc := hunits.acc (by simp)
  have humode := hunits.epochMode time_not_mem_cmpStepRegs
  obtain ⟨-, -, kdue, krates, -, krun, kat⟩ := hunits.keeps .servo (by simp)
  have hmod : targetModulus = accModulus / 65536 := by decide
  have hfield {f : Fld} (h : f.addr < 0x100004001000) : u.get f = w.get f := hunits.get (below_not_mem_cmpStepRegs h)
  refine completes_of_endsAs hexec hon fun t ht => ⟨u, delta, ht, ?_, huacc.trans hacc, humode.trans hmode, ?_, kdue.trans hnone,
    kat.trans hat, krates.trans hrates, krun.trans hrun, ?_, ?_, ?_, ?_, fun c hc ha => ⟨fun hp => ?_, fun hp => ⟨_, rfl, ?_⟩⟩,
    fun a ha => ?_, fun p hp => (htaken.keeps p hp).trans (hunits.keeps p (by simp))⟩
  · rw [now16_congr huacc humode, humode, hshift]
  · rw [State.on_congr (hfield (by decide)), hbusy]
  · rw [State.on_congr (hfield (by decide)), hlock]
  · rw [State.on_congr (hfield (by decide)), hstep]
  · rw [hfield (by decide), hcnt]
  · rw [hfield (by decide), hrej]
  · rw [← hmod, ← hnext c]
    exact (hmoved hc ha).1 ((hpol c).trans hp)
  · rw [← hmod, ← hnext c, periodsPast_congr huacc humode, ← hpers c]
    exact (hmoved hc ha).2 ((hpol c).trans hp)
  · simp only [List.mem_append, not_or] at ha
    obtain ⟨⟨⟨hstep, hs⟩, hl⟩, hh⟩ := ha
    have hcmp : a ∉ cmpStepRegs := by simp only [cmpStepRegs, List.mem_append, hs, hl, hh, or_self, not_false_iff]
    exact (hunits.rd a hcmp).trans (htaken.rd a hstep)

end

/-- Settles O21: the request, then the step cycle. -/
theorem timeStepIsRequestedAndExecutesOnce : Obligations.TimeStepIsRequestedAndExecutesOnce :=
  ⟨fun _ _ _ hon hfol ok => ⟨completes_timeStepGo_accepted hon hfol ok, completes_timeStepGo_refused hon ok⟩,
    fun _ _ hon hdue hreach hidle => ⟨completes_timeStepExecute hon hdue hreach hidle,
      completes_timeStepExecute_refused hon hdue hreach hidle⟩⟩

end Sys2Proof.Machine
end
section
/-! Operations of the security engine start (R513, R519, R520, R529). -/

namespace Sys2Proof.Machine

open Sys2Proof Sys2Proof.Machine.Reg

def secCmdRow : RegDesc := ⟨"SEC_CMD", 0x10000b000600, [], 32, 0x0, [⟨31, 24, .wo⟩, ⟨22, 16, .wo⟩, ⟨11, 11, .wo⟩, ⟨10, 8, .wo⟩, ⟨7, 0, .wo⟩], none, none⟩

theorem regAt_secCmd : regAt SEC_CMD = some (secCmdRow, [], false) := by decide

theorem plainRow_secCmd : PlainRow SEC_CMD secCmdRow := by decide

/-- The commands of the security engine with their operations. -/
def secCommands (who : Initiator) (v : Word64) : List (Nat × Instr) :=
  [(0x01, .secExtend who v), (0x02, .secAttest who v), (0x03, .secExport who v), (0x10, .secFuseKey who v),
    (0x11, .secFuseRevoke who v), (0x12, .secFuseRollback who v), (0x13, .secFuseProt who v), (0x14, .secLcAdvance who v)]

section

variable {s : State} {who : Initiator} {v : Word64} {op : Nat} {i : Instr}

/-- The operations of the commands. -/
theorem op_cases (hi : (op, i) ∈ secCommands who v) :
    op = 0x01 ∨ op = 0x02 ∨ op = 0x03 ∨ op = 0x10 ∨ op = 0x11 ∨ op = 0x12 ∨ op = 0x13 ∨ op = 0x14 := by
  simp only [secCommands, List.mem_cons, Prod.mk.injEq, List.not_mem_nil, or_false] at hi
  omega

theorem cmdOp_of_command (hi : (op, i) ∈ secCommands who v) : cmdOp (withBits v.toNat 7 0 op) = op := by
  have hop := op_cases hi
  rw [cmdOp, bitsOf_withBits _ _ _ _ (by omega), Nat.mod_eq_of_lt (by omega)]

theorem field_of_command {hi lo : Nat} (h : 7 < lo) : bitsOf (withBits v.toNat 7 0 op) hi lo = bitsOf v.toNat hi lo :=
  bitsOf_withBits_other _ _ _ _ _ _ (by omega) (Or.inr h)

variable (ok : WriteOk s who SEC_CMD (withBits v.toNat 7 0 op)) (hi : (op, i) ∈ secCommands who v)
include ok hi

theorem exec_secCommand :
    exec i s = finish s (secStart (withBits v.toNat 7 0 op) (s.wr SEC_CMD (s.rd SEC_CMD))) := by
  have hwrite : writeReg s who SEC_CMD (withBits v.toNat 7 0 op) =
      secStart (withBits v.toNat 7 0 op) (s.wr SEC_CMD (s.rd SEC_CMD)) :=
    writeReg_command ok regAt_secCmd plainRow_secCmd (by decide)
  rw [← hwrite]
  simp only [secCommands, List.mem_cons, Prod.mk.injEq, List.not_mem_nil, or_false] at hi
  rcases hi with ⟨rfl, rfl⟩ | ⟨rfl, rfl⟩ | ⟨rfl, rfl⟩ | ⟨rfl, rfl⟩ | ⟨rfl, rfl⟩ | ⟨rfl, rfl⟩ | ⟨rfl, rfl⟩ | ⟨rfl, rfl⟩ <;> rfl

end

/-! ### Fuses stand at a read -/

section

variable {s : State}

theorem fuses_lookup (a : Nat) : (s.lookup a).fuses = s.fuses := by
  obtain h | ⟨v, c, n, h⟩ := lookup_cases s a <;> rw [h]
  rfl

theorem fuses_looked (ctx a n : Nat) : (s.looked ctx a n).fuses = s.fuses := by
  unfold State.looked
  split
  · exact fuses_lookup a
  · rfl

theorem fuses_violation (c init ctx a : Nat) (w : Bool) : (s.violation c init ctx a w).fuses = s.fuses := by
  unfold State.violation
  simp only
  split <;> rfl

theorem fuses_engineReadOne (init ctx a n : Nat) : (engineReadOne s init ctx a n).1.fuses = s.fuses := by
  have hlooked := fuses_looked (s := s) ctx a n
  have hlookup := fuses_lookup (s := s) a
  unfold engineReadOne
  split
  · generalize s.looked ctx a n = u at hlooked ⊢
    simp only
    split
    · split
      · exact hlooked
      · exact (fuses_violation ..).trans hlooked
    · exact (fuses_violation ..).trans hlooked
  · generalize s.lookup a = u at hlookup ⊢
    simp only
    split
    · exact hlookup
    · split
      · exact hlookup
      · split
        · exact hlookup
        · exact hlookup

theorem fuses_engineRead (init ctx a n : Nat) : (engineRead s init ctx a n).1.fuses = s.fuses := by
  rw [engineRead_eq]
  generalize runPieces s ctx a n false = ps
  suffices h : ∀ acc : State × Nat × List Byte, (ps.foldl (readPiece init ctx) acc).1.fuses = acc.1.fuses from h (s, 0, [])
  induction ps with
  | nil => exact fun _ => rfl
  | cons p ps ih => exact fun acc => (ih _).trans (fuses_engineReadOne init ctx p.1 p.2)

end

/-! ### What an operation reads of the state -/

/-- Fuses, and the fields that decide how an operation ends. -/
structure SameCommand (s t : State) : Prop where
  fuses : t.fuses = s.fuses
  noIdent : t.on SEC_STAT_NOIDENT = s.on SEC_STAT_NOIDENT
  brownout : t.on PWR_STAT_BOW = s.on PWR_STAT_BOW
  svn : t.get SEC_BOOT_SVN = s.get SEC_BOOT_SVN
  challenge : t.get SEC_CHAL_VALUE = s.get SEC_CHAL_VALUE
  dst : t.get SEC_CMD_DST_ADDR = s.get SEC_CMD_DST_ADDR

namespace SameCommand

variable {s t : State} (h : SameCommand s t)
include h

theorem lcCode : lcCode t = Machine.lcCode s := by rw [Machine.lcCode, Machine.lcCode, h.fuses]

theorem identUsable : identUsable t = Machine.identUsable s := by
  rw [Machine.identUsable, Machine.identUsable, h.noIdent, h.lcCode]

theorem fuseRefusal (v : Nat) : fuseRefusal t v = Machine.fuseRefusal s v := by
  have hprog : lcProgrammable t = lcProgrammable s := by rw [lcProgrammable, lcProgrammable, h.lcCode]
  have hallow : lcAllowed t = lcAllowed s := by
    funext x
    unfold lcAllowed
    rw [h.lcCode, h.fuses]
  unfold Machine.fuseRefusal
  rw [h.brownout, h.lcCode, h.fuses, hprog, h.svn, hallow]

theorem cmdRefusal (v : Nat) : cmdRefusal t v = Machine.cmdRefusal s v := by
  unfold Machine.cmdRefusal
  rw [h.identUsable, h.fuseRefusal]

theorem cmdResult (v : Nat) (bs : List Byte) : cmdResult t v bs = Machine.cmdResult s v bs := by
  have hunlock : unlockOk t bs = unlockOk s bs := by rw [unlockOk, unlockOk, h.fuses, h.challenge]
  rw [Machine.cmdResult, Machine.cmdResult, hunlock]

end SameCommand

theorem sameCommand_of_effect {regs : List Nat} {parts : List Part} {s t : State} (h : Effect regs parts s t) (hf : t.fuses = s.fuses)
    (hregs : ∀ a ∈ [SEC_STAT, PWR_STAT, SEC_BOOT, SEC_CHAL, SEC_CMD_DST], a ∉ regs) : SameCommand s t :=
  ⟨hf, h.on (hregs _ (by decide)), h.on (hregs _ (by decide)), h.get (hregs _ (by decide)), h.get (hregs _ (by decide)), h.get (hregs _ (by decide))⟩

/-- The operation that runs. -/
def opRuns (s : State) (o : SecOp) : State := { s.setOn SEC_CMD_STAT_BUSY with secOp := some o }

section

variable {s : State} {v : Nat}

theorem effect_opRuns (o : SecOp) : Effect [SEC_CMD_STAT] [.sec] s (opRuns s o) :=
  ((Effect.refl s).setOn (by decide)).components rfl fun p hq => by
    cases p
    case sec => exact absurd List.mem_cons_self hq
    all_goals simp [Keeps, opRuns]

theorem busy_opRuns (o : SecOp) : (opRuns s o).on SEC_CMD_STAT_BUSY = true :=
  State.on_eq_true_iff.mpr (State.get_setOn (by decide))

theorem secStart_busy (h : s.on SEC_CMD_STAT_BUSY = true) : secStart v s = s.put SEC_CMD_STAT_RESULT 0x11 := if_pos h

theorem secStart_quiet (hbusy : s.on SEC_CMD_STAT_BUSY = false) (hop : cmdOp v ≠ 0) (h : cmdRefusal s v ≠ 0 ∨ cmdSourceLen v = 0) :
    secStart v s = opRuns s { cmd := v, result := if cmdRefusal s v ≠ 0 then cmdRefusal s v else cmdResult s v []
                              dst := s.get SEC_CMD_DST_ADDR * 64, data := [] } := by
  unfold secStart
  simp only
  rw [hbusy, if_neg Bool.false_ne_true, if_neg hop, if_pos h]
  rfl

theorem secStart_reads (hbusy : s.on SEC_CMD_STAT_BUSY = false) (hop : cmdOp v ≠ 0) (hok : cmdRefusal s v = 0) (hlen : cmdSourceLen v ≠ 0) :
    secStart v s = opRuns (engineRead s 5 0 (s.get SEC_CMD_SRC_ADDR * 64) (cmdSourceLen v)).1
      { cmd := v
        result := if (engineRead s 5 0 (s.get SEC_CMD_SRC_ADDR * 64) (cmdSourceLen v)).2.1 ≠ 0 then secReadErr
          else cmdResult (engineRead s 5 0 (s.get SEC_CMD_SRC_ADDR * 64) (cmdSourceLen v)).1 v
            (engineRead s 5 0 (s.get SEC_CMD_SRC_ADDR * 64) (cmdSourceLen v)).2.2
        dst := (engineRead s 5 0 (s.get SEC_CMD_SRC_ADDR * 64) (cmdSourceLen v)).1.get SEC_CMD_DST_ADDR * 64
        data := (engineRead s 5 0 (s.get SEC_CMD_SRC_ADDR * 64) (cmdSourceLen v)).2.2 } := by
  unfold secStart
  simp only
  rw [hbusy, if_neg Bool.false_ne_true, if_neg hop, if_neg (by rw [hok]; simp [hlen]), hok]
  generalize engineRead s 5 0 (s.get SEC_CMD_SRC_ADDR * 64) (cmdSourceLen v) = r
  obtain ⟨t, bad, bs⟩ := r
  rw [if_neg (fun h => h rfl)]
  rfl

end

section

variable {s : State} {who : Initiator} {v : Word64} {op : Nat} {i : Instr} (hon : s.powered)
  (ok : WriteOk s who SEC_CMD (withBits v.toNat 7 0 op)) (hi : (op, i) ∈ secCommands who v)
include hon ok hi

theorem completes_secCommand_busy (hbusy : s.on SEC_CMD_STAT_BUSY = true) :
    Completes i s fun t => t.get SEC_CMD_STAT_RESULT = 0x11 ∧ ChangesOnly [SEC_CMD_STAT] [] s t := by
  have hexec := exec_secCommand ok hi
  have heff := Effect.wrSelf (regs := []) (parts := []) s SEC_CMD
  generalize s.wr SEC_CMD (s.rd SEC_CMD) = u at hexec heff
  rw [secStart_busy ((heff.on (by simp)).trans hbusy)] at hexec
  refine completes_of_settled hexec hon fun t hs => ⟨?_, hs.changesOnly
    ((heff.mono (List.nil_subset _) (List.Subset.refl _)).put _ (by decide))⟩
  rw [hs.get _ (by decide) (by decide), State.get_put_of_lt (f := SEC_CMD_STAT_RESULT) (by decide) (by decide)]

/-- The operation starts without a read. -/
theorem completes_secCommand_quiet (hbusy : s.on SEC_CMD_STAT_BUSY = false)
    (h : cmdRefusal s (withBits v.toNat 7 0 op) ≠ 0 ∨ cmdSourceLen (withBits v.toNat 7 0 op) = 0) :
    Completes i s fun t => t.on SEC_CMD_STAT_BUSY = true ∧ t.secOp = some
      { cmd := withBits v.toNat 7 0 op
        result := if cmdRefusal s (withBits v.toNat 7 0 op) ≠ 0 then cmdRefusal s (withBits v.toNat 7 0 op)
          else cmdResult s (withBits v.toNat 7 0 op) []
        dst := s.get SEC_CMD_DST_ADDR * 64, data := [] } ∧ ChangesOnly [SEC_CMD_STAT] [.sec] s t := by
  have hexec := exec_secCommand ok hi
  have hop : cmdOp (withBits v.toNat 7 0 op) ≠ 0 := by
    have := op_cases hi
    rw [cmdOp_of_command hi]
    omega
  have heff := Effect.wrSelf (regs := []) (parts := []) s SEC_CMD
  have hsame := sameCommand_of_effect heff rfl (by simp)
  generalize s.wr SEC_CMD (s.rd SEC_CMD) = u at hexec heff hsame
  rw [secStart_quiet ((heff.on (by simp)).trans hbusy) hop (by rwa [hsame.cmdRefusal]), hsame.cmdRefusal, hsame.cmdResult, hsame.dst] at hexec
  refine completes_of_settled hexec hon fun t hs => ⟨?_, hs.secOp, hs.changesOnly
    ((heff.mono (List.nil_subset _) (List.nil_subset _)).trans (effect_opRuns _))⟩
  rw [hs.on _ (by decide) (by decide), busy_opRuns]

/-- The operation starts and reads its source. -/
theorem completes_secCommand_reads (hbusy : s.on SEC_CMD_STAT_BUSY = false) {u : State} {r : Nat} {bs : List Byte}
    (hok : cmdRefusal s (withBits v.toNat 7 0 op) = 0) (hlen : cmdSourceLen (withBits v.toNat 7 0 op) ≠ 0)
    (hread : engineRead s 5 0 (s.get SEC_CMD_SRC_ADDR * 64) (cmdSourceLen (withBits v.toNat 7 0 op)) = (u, r, bs)) :
    Completes i s fun t => t.on SEC_CMD_STAT_BUSY = true ∧ t.secOp = some
      { cmd := withBits v.toNat 7 0 op, result := if r = 0 then cmdResult s (withBits v.toNat 7 0 op) bs else 0x14
        dst := s.get SEC_CMD_DST_ADDR * 64, data := bs } ∧
      ChangesOnly (SEC_CMD_STAT :: engineRegs) (.sec :: engineParts) s t := by
  have hexec := exec_secCommand ok hi
  have hop : cmdOp (withBits v.toNat 7 0 op) ≠ 0 := by
    have := op_cases hi
    rw [cmdOp_of_command hi]
    omega
  have heff := Effect.wrSelf (regs := []) (parts := []) s SEC_CMD
  have htwin := twin_wr_self s SEC_CMD
  have hfuses : (s.wr SEC_CMD (s.rd SEC_CMD)).fuses = s.fuses := rfl
  generalize s.wr SEC_CMD (s.rd SEC_CMD) = w at hexec heff htwin hfuses
  have hsame := sameCommand_of_effect heff hfuses (by simp)
  rw [secStart_reads ((heff.on (by simp)).trans hbusy) hop (hsame.cmdRefusal _ ▸ hok) hlen, heff.get (by simp)] at hexec
  obtain ⟨hout, -⟩ := htwin.engineRead 5 0 (s.get SEC_CMD_SRC_ADDR * 64) (cmdSourceLen (withBits v.toNat 7 0 op))
  have hreads := effect_engineRead (s := w) 5 0 (s.get SEC_CMD_SRC_ADDR * 64) (cmdSourceLen (withBits v.toNat 7 0 op))
  have hfuses' := fuses_engineRead (s := w) 5 0 (s.get SEC_CMD_SRC_ADDR * 64) (cmdSourceLen (withBits v.toNat 7 0 op))
  rw [hread] at hout
  generalize engineRead w 5 0 (s.get SEC_CMD_SRC_ADDR * 64) (cmdSourceLen (withBits v.toNat 7 0 op)) = x at hexec hout hreads hfuses'
  obtain ⟨x, y⟩ := x
  obtain rfl : y = (r, bs) := hout
  have hall : Effect accessRegs engineParts s x := (heff.mono (List.nil_subset _) (List.nil_subset _)).trans hreads
  have hsame' := sameCommand_of_effect hall (hfuses'.trans hfuses) (by decide)
  rw [hsame'.cmdResult, hsame'.dst] at hexec
  refine completes_of_settled hexec hon fun t hs => ⟨?_, ?_, hs.changesOnly_pulsed
    ((hall.mono (by decide) (by decide)).trans ((effect_opRuns _).mono (by decide) (by decide)))⟩
  · rw [hs.on _ (by decide) (by decide), busy_opRuns]
  · rw [hs.secOp]
    show some _ = some _
    by_cases hr : r = 0
    · simp only [hr, ne_eq, not_true_eq_false, if_true, if_false]
    · simp only [hr, ne_eq, not_false_eq_true, if_true, if_false, secReadErr]

end

/-! ### Refusals (R513, R515, R520) -/

section

variable {s : State} {who : Initiator} {v : Word64} {op : Nat} {i : Instr} (hi : (op, i) ∈ secCommands who v)
include hi

theorem cmdRefusal_of_fuse (hop : 0x10 ≤ op) :
    cmdRefusal s (withBits v.toNat 7 0 op) = fuseRefusal s (withBits v.toNat 7 0 op) := by
  have hcase := op_cases hi
  have hfuse : op = 0x10 ∨ op = 0x11 ∨ op = 0x12 ∨ op = 0x13 ∨ op = 0x14 := by omega
  unfold cmdRefusal
  rw [cmdOp_of_command hi]
  rcases hfuse with rfl | rfl | rfl | rfl | rfl <;> rfl

theorem refusal_unarmed (hop : 0x10 ≤ op) (h : bitsOf v.toNat 31 24 ≠ 0xA5) : cmdRefusal s (withBits v.toNat 7 0 op) = 0x10 := by
  rw [cmdRefusal_of_fuse hi hop, fuseRefusal, cmdArm, field_of_command (by decide), if_pos h]
  rfl

theorem refusal_brownout (hop : 0x10 ≤ op) (h : bitsOf v.toNat 31 24 = 0xA5) (hbow : s.on PWR_STAT_BOW = true) :
    cmdRefusal s (withBits v.toNat 7 0 op) = 0x17 := by
  rw [cmdRefusal_of_fuse hi hop, fuseRefusal, cmdArm, field_of_command (by decide), if_neg (fun hc => hc h), hbow, if_pos rfl]
  rfl

theorem key_not_refused (hop : op = 0x10) (h : cmdRefusal s (withBits v.toNat 7 0 op) = 0) :
    lcCode s = 1 ∧ 0 < bitsOf v.toNat 10 8 ∧ (keySlots s.fuses (bitsOf v.toNat 11 11)).getD (bitsOf v.toNat 10 8) (0, false) = (0, false) := by
  rw [cmdRefusal_of_fuse hi (by omega)] at h
  subst hop
  unfold fuseRefusal at h
  rw [cmdOp_of_command hi] at h
  simp only [cmdKind, cmdIdx, cmdArm, field_of_command (show 7 < 8 by decide), field_of_command (show 7 < 11 by decide),
    field_of_command (show 7 < 24 by decide), secBadOp, secBrownout, secState, secAlready] at h
  split at h
  · omega
  · split at h
    · omega
    · split at h
      · omega
      · split at h
        · omega
        next hstate =>
          split at h
          · omega
          next hslot =>
            obtain ⟨hlc, hidx⟩ := not_or.mp hstate
            exact ⟨Decidable.not_not.mp hlc, Nat.pos_of_ne_zero hidx, Decidable.not_not.mp hslot⟩

theorem refusal_noIdent (hop : op = 0x02 ∨ op = 0x03) (hlc : lcCode s = 3) : cmdRefusal s (withBits v.toNat 7 0 op) = 0x15 := by
  have hident : identUsable s = false := by rw [identUsable, hlc]; simp
  unfold cmdRefusal
  rw [cmdOp_of_command hi, hident]
  rcases hop with rfl | rfl <;> rfl

end

/-- Settles O55: the write of SEC_CMD while an operation runs and while none does, then its refusals. -/
theorem securityOperationsStart : Obligations.SecurityOperationsStart := by
  rintro s who v op w i hon hi rfl ok
  refine ⟨completes_secCommand_busy hon ok hi, fun hbusy => ⟨fun hr => ?_, fun hr hlen => ?_, fun u r bs hok hlen hread =>
    completes_secCommand_reads hon ok hi hbusy hok hlen hread⟩, refusal_unarmed hi, refusal_brownout hi, key_not_refused hi,
    refusal_noIdent hi⟩
  · have h := completes_secCommand_quiet hon ok hi hbusy (.inl hr)
    rwa [if_pos hr] at h
  · have h := completes_secCommand_quiet hon ok hi hbusy (.inr hlen)
    rwa [if_neg (fun hc => hc hr)] at h

end Sys2Proof.Machine
end
section
/-! Formation of the cascade: the enable, the end of training, the result of discovery (R485, R545). -/

namespace Sys2Proof.Machine

open Sys2Proof Sys2Proof.Machine.Reg

/-! ### The state of the cascade -/

/-- A property of each index that its own round brings about and no other round undoes. -/
theorem forUpTo_each {σ : Type} {P : Nat → σ → Prop} {f : Nat → σ → σ} (hself : ∀ k s, P k (f k s))
    (hkeep : ∀ j k s, j ≠ k → P j s → P j (f k s)) {j n : Nat} (hj : j < n) (s : σ) : P j (forUpTo n f s) := by
  induction n with
  | zero => omega
  | succ n ih =>
    rw [forUpTo_succ]
    by_cases h : j = n
    · subst h
      exact hself _ _
    · exact hkeep _ _ _ h (ih (by omega))

/-- What the round `k` brings about from what holds before it, and the later rounds leave. -/
theorem forUpTo_reaches {σ : Type} {P Q : σ → Prop} {f : Nat → σ → σ} {k : Nat} (hbefore : ∀ j s, j ≠ k → P s → P (f j s))
    (hround : ∀ s, P s → Q (f k s)) (hafter : ∀ j s, j ≠ k → Q s → Q (f j s)) {n : Nat} (hk : k < n) {s : σ} (h : P s) :
    Q (forUpTo n f s) := by
  induction n with
  | zero => omega
  | succ n ih =>
    rw [forUpTo_succ]
    by_cases hn : k = n
    · subst hn
      have hrange (m : Nat) (hm : m ≤ k) : P (forUpTo m f s) := by
        induction m with
        | zero => exact h
        | succ m ihm =>
          rw [forUpTo_succ]
          exact hbefore _ _ (by omega) (ihm (by omega))
      exact hround _ (hrange k (Nat.le_refl k))
    · exact hafter _ _ (fun e => hn e.symm) (ih (by omega))

section

variable {s : State}

theorem cwyState_ne {st : Nat} (h : s.get CWY_STAT_STATE ≠ st) : cwyState s st =
    onIf (s.get CWY_STAT_STATE == 3 || st == 3) (·.epochEvent 3) ((s.put CWY_STAT_STATE st).setOn CWY_EVT_STATE) := if_neg h

/-- The registers of a change of state. -/
def cwyStateRegs : List Nat := CWY_STAT :: CWY_EVT :: epochRegs

theorem effect_cwyState (s : State) (st : Nat) : Effect cwyStateRegs [.diag] s (cwyState s st) := by
  unfold cwyState
  exact Effect.ite (fun _ => Effect.refl s) fun _ => Effect.onIf (((Effect.refl s).put _ (by decide)).setOn (by decide))
    fun _ => (((Effect.refl s).put _ (by decide)).setOn (by decide)).epochEvent (by decide) (by decide) 3

/-- Out of FORMED the epoch stands. -/
theorem effect_cwyState_unformed {st : Nat} (h : s.get CWY_STAT_STATE ≠ 3) (hst : st ≠ 3) :
    Effect [CWY_STAT, CWY_EVT] [] s (cwyState s st) := by
  unfold cwyState
  exact Effect.ite (fun _ => Effect.refl s) fun _ => Effect.onIf (((Effect.refl s).put _ (by decide)).setOn (by decide))
    fun hc => absurd hc (by simp [h, hst])

theorem cwyState_self {st : Nat} (h : s.get CWY_STAT_STATE = st) : cwyState s st = s := if_pos h

/-- An advance of the epoch leaves the registers of other blocks. -/
theorem get_onIf_epochEvent {f : Fld} (hf : f.addr ∉ epochRegs) (c : Bool) (bit : Nat) :
    (onIf c (·.epochEvent bit) s).get f = s.get f :=
  (Effect.onIf (parts := [.diag]) (Effect.refl s) fun _ => effect_epochEvent (by decide) s bit).get hf

/-- What a change of state leaves: all but the state, its event and the epoch. -/
theorem get_cwyState {f : Fld} (hstate : Apart CWY_STAT_STATE f) (hevt : f.addr ≠ CWY_EVT) (hepoch : f.addr ∉ epochRegs) (st : Nat) :
    (cwyState s st).get f = s.get f := by
  by_cases h : s.get CWY_STAT_STATE = st
  · rw [cwyState_self h]
  · rw [cwyState_ne h, get_onIf_epochEvent hepoch, State.get_setOn_apart (.inl hevt), State.get_put_apart hstate]

theorem state_cwyState {st : Nat} (hst : st < 8) : (cwyState s st).get CWY_STAT_STATE = st := by
  by_cases h : s.get CWY_STAT_STATE = st
  · rw [cwyState_self h, h]
  · rw [cwyState_ne h, get_onIf_epochEvent (by decide), State.get_setOn_apart (by decide)]
    exact State.get_put_of_lt (by decide) hst

theorem event_cwyState {st : Nat} (h : s.get CWY_STAT_STATE ≠ st) : (cwyState s st).on CWY_EVT_STATE = true := by
  rw [State.on_eq_true_iff, cwyState_ne h, get_onIf_epochEvent (by decide), State.get_setOn (by decide)]

theorem cause_cwyState {st : Nat} (h : s.get CWY_STAT_STATE ≠ st) (hf : s.get CWY_STAT_STATE = 3 ∨ st = 3) :
    ((cwyState s st).get DGN_EPOCH_CAUSE_MASK).testBit 3 = true := by
  rw [cwyState_ne h, onIf, if_pos (by simpa using hf)]
  exact cause_epochEvent_testBit _ (by decide)

theorem cwy_cwyState (st : Nat) : (cwyState s st).cwy = s.cwy := (effect_cwyState s st).keeps .cwy (by decide)

theorem sched_cwyState (st : Nat) : (cwyState s st).sched = s.sched := (effect_cwyState s st).keeps .sched (by decide)

end

/-- The registers of Causeway do not settle. -/
theorem cwyLStat_settles {k : Nat} (hk : k < 4) : CWY_L_STAT k ≠ DGN_CNT_MERGE ∧ CWY_L_STAT k ≠ DGN_EVT :=
  segment_settles (by unfold CWY_L_STAT DGN_EPOCH; omega)

theorem cwyLStat_ne_evt (k : Nat) : CWY_L_STAT k ≠ CWY_EVT := by
  unfold CWY_L_STAT CWY_EVT
  omega

theorem cwyLStat_inj {j k : Nat} (h : j ≠ k) : CWY_L_STAT j ≠ CWY_L_STAT k := by
  unfold CWY_L_STAT
  omega

theorem cwyLStat_not_epoch {k : Nat} (hk : k < 4) : CWY_L_STAT k ∉ cwyStateRegs := by
  revert k
  decide

/-! ### The enable -/

section

def cwyCtrlRow : RegDesc :=
  ⟨"CWY_CTRL", 0x10000a000000, [], 32, 0x0, [⟨5, 4, .static⟩, ⟨1, 1, .static⟩, ⟨0, 0, .live⟩], some (0x10000a000000, 0x0, 0), none⟩

theorem regAt_cwyCtrl : regAt CWY_CTRL = some (cwyCtrlRow, [], false) := by decide

theorem plainRow_cwyCtrl : PlainRow CWY_CTRL cwyCtrlRow := by decide

variable {s : State}

/-- The strap and CWY_CTRL as the write leaves them. -/
def cwyCtrlStored (s : State) (strap : Bool) (v : Nat) : State :=
  (s.put CWY_STAT_STRAP (ofBool strap)).wr CWY_CTRL (BitVec.ofNat 64
    (mergeBits (rwMask cwyCtrlRow) ((s.put CWY_STAT_STRAP (ofBool strap)).rd CWY_CTRL).toNat v))

theorem effect_cwyCtrlStored (strap : Bool) (v : Nat) : Effect [CWY_CTRL, CWY_STAT] [] s (cwyCtrlStored s strap v) :=
  ((Effect.refl s).put _ (by decide)).wr _ (by decide)

theorem enable_cwyCtrlStored (strap : Bool) {v : Nat} (hv : v < 2 ^ 64) : (cwyCtrlStored s strap v).get CWY_CTRL_ENABLE = v % 2 :=
  (State.get_wr_merge_in (f := CWY_CTRL_ENABLE) (by decide) (by decide) hv (by decide)).trans (bitsOf_zero_zero v)

theorem get_cwyCtrlStored {f : Fld} (hf : f.addr ≠ CWY_CTRL) (strap : Bool) (v : Nat) :
    (cwyCtrlStored s strap v).get f = (s.put CWY_STAT_STRAP (ofBool strap)).get f := State.get_wr_ne hf _

theorem strap_cwyCtrlStored (strap : Bool) (v : Nat) : (cwyCtrlStored s strap v).on CWY_STAT_STRAP = strap := by
  rw [State.on_congr (get_cwyCtrlStored (by decide) strap v), State.on_put_ofBool (by decide)]

theorem state_cwyCtrlStored (strap : Bool) (v : Nat) : (cwyCtrlStored s strap v).get CWY_STAT_STATE = s.get CWY_STAT_STATE := by
  rw [get_cwyCtrlStored (by decide), State.get_put_apart (by decide)]

theorem writeReg_cwyCtrl {strap : Bool} {who : Initiator} {v : Word64}
    (ok : WriteOk (s.put CWY_STAT_STRAP (ofBool strap)) who CWY_CTRL v.toNat) :
    writeReg (s.put CWY_STAT_STRAP (ofBool strap)) who CWY_CTRL v.toNat =
      cwyEnableWritten ((s.rd CWY_CTRL).toNat % 2) (v.toNat % 2) (cwyCtrlStored s strap v.toNat) := by
  rw [writeReg_plain ok regAt_cwyCtrl plainRow_cwyCtrl]
  rw [← show (s.put CWY_STAT_STRAP (ofBool strap)).rd CWY_CTRL = s.rd CWY_CTRL from State.rd_put_ne _ _ _ _ (by decide)]
  rfl

/-- The links start over, but for what was lost on them. -/
def cwyLinksFresh (s : State) : State :=
  { s with cwy := { links := (List.range 4).foldl (fun t k => tset t k { CwyLink.idle with
      downAt := (cwyLink s k).downAt, lost := (cwyLink s k).lost }) [], trainAt := s.cyc, timeAt := s.cyc, flips := [] } }

theorem cwyLink_cwyLinksFresh {k : Nat} (hk : k < 4) :
    cwyLink (cwyLinksFresh s) k = { CwyLink.idle with downAt := (cwyLink s k).downAt, lost := (cwyLink s k).lost } :=
  forUpTo_each (P := fun k t => tgetD t k CwyLink.idle = { CwyLink.idle with downAt := (cwyLink s k).downAt, lost := (cwyLink s k).lost })
    (fun _ _ => tgetD_tset_same ..) (fun _ _ _ hne h => (tgetD_tset_ne _ _ _ _ _ hne).trans h) hk []

theorem get_cwyLinksFresh (f : Fld) : (cwyLinksFresh s).get f = s.get f := rfl

theorem Effect.cwyLinksFresh {regs : List Nat} {parts : List Part} {t : State} (h : Effect regs parts s t) (hp : Part.cwy ∈ parts) :
    Effect regs parts s (cwyLinksFresh t) :=
  h.components rfl fun p hq => by
    cases p
    case cwy => exact absurd hp hq
    all_goals simp [Keeps, Machine.cwyLinksFresh]

/-- Every link trains. -/
def cwyTraining (s : State) : State := forUpTo 4 (fun k s => s.setOn (CWY_L_STAT_TRAINING k)) s

theorem Effect.cwyTraining {regs : List Nat} {parts : List Part} {t : State} (h : Effect regs parts s t)
    (hr : ∀ k, k < 4 → CWY_L_STAT k ∈ regs) : Effect regs parts s (cwyTraining t) :=
  h.forUpTo fun u k hk => (Effect.refl u).setOn (hr k hk)

theorem training_cwyTraining {k : Nat} (hk : k < 4) : (cwyTraining s).on (CWY_L_STAT_TRAINING k) = true :=
  forUpTo_each (P := fun k (t : State) => t.on (CWY_L_STAT_TRAINING k) = true)
    (fun k s => State.on_eq_true_iff.mpr (State.get_setOn (show 1 ≤ 1 ∧ 1 < 64 by decide)))
    (fun j k s hne h => (State.on_congr (State.get_setOn_apart (.inl (cwyLStat_inj hne)))).trans h) hk s

/-- The cascade as an enable leaves it before its state changes. -/
def cwyStarted (s : State) : State := cwyTraining (((cwyLinksFresh s).setOff CWY_STAT_ROLEERR).setOff CWY_STAT_TOPOERR)

theorem cwyEnableWritten_on : cwyEnableWritten 0 1 s = cwyState (cwyStarted s) 1 := rfl

theorem effect_cwyStarted : Effect (CWY_STAT :: each 4 CWY_L_STAT) [.cwy] s (cwyStarted s) :=
  ((((Effect.refl s).cwyLinksFresh (by decide)).setOff (by decide)).setOff (by decide)).cwyTraining
    fun _ hk => List.mem_cons_of_mem _ (mem_each hk)

theorem effect_cwyTraining : Effect (each 4 CWY_L_STAT) [] s (cwyTraining s) := (Effect.refl s).cwyTraining fun _ hk => mem_each hk

theorem get_cwyStarted {f : Fld} (hf : f.addr ∉ each 4 CWY_L_STAT) (hr : Apart CWY_STAT_ROLEERR f) (ht : Apart CWY_STAT_TOPOERR f) :
    (cwyStarted s).get f = s.get f := by
  rw [cwyStarted, effect_cwyTraining.get hf, State.get_setOff_apart ht, State.get_setOff_apart hr, get_cwyLinksFresh]

theorem errors_cwyStarted : (cwyStarted s).on CWY_STAT_ROLEERR = false ∧ (cwyStarted s).on CWY_STAT_TOPOERR = false := by
  have hrole : (cwyStarted s).get CWY_STAT_ROLEERR = 0 := by
    rw [cwyStarted, effect_cwyTraining.get (by decide), State.get_setOff_apart (by decide), State.get_setOff (by decide)]
  have htopo : (cwyStarted s).get CWY_STAT_TOPOERR = 0 := by
    rw [cwyStarted, effect_cwyTraining.get (by decide), State.get_setOff (by decide)]
  rw [State.on, State.on, hrole, htopo]
  exact ⟨rfl, rfl⟩

theorem cwy_cwyStarted : (cwyStarted s).cwy = (cwyLinksFresh s).cwy := effect_cwyTraining.keeps .cwy (by decide)

theorem completes_cwyEnable_on (hon : s.powered) {who : Initiator} {strap : Bool} {v : Word64}
    (ok : WriteOk (s.put CWY_STAT_STRAP (ofBool strap)) who CWY_CTRL v.toNat) (hoff : s.on CWY_CTRL_ENABLE = false)
    (hv : v.toNat % 2 = 1) (hst : s.get CWY_STAT_STATE = 0) : Completes (.cwyEnable who strap v) s fun t =>
      t.on CWY_CTRL_ENABLE = true ∧ t.on CWY_STAT_STRAP = strap ∧ t.get CWY_STAT_STATE = 1 ∧ t.on CWY_EVT_STATE = true ∧
      (∀ k, k < 4 → t.on (CWY_L_STAT_TRAINING k) = true) ∧ t.on CWY_STAT_ROLEERR = false ∧ t.on CWY_STAT_TOPOERR = false ∧
      t.cwy.trainAt = s.cyc ∧ t.cwy.timeAt = s.cyc ∧ t.cwy.flips = [] ∧ (∀ k, k < 4 →
        cwyLink t k = { CwyLink.idle with downAt := (cwyLink s k).downAt, lost := (cwyLink s k).lost }) ∧
      ChangesOnly (CWY_CTRL :: CWY_STAT :: CWY_EVT :: each 4 CWY_L_STAT) [.cwy] s t := by
  have hwrite := writeReg_cwyCtrl ok
  have hold : (s.rd CWY_CTRL).toNat % 2 = 0 := State.mod_two_of_off rfl rfl hoff
  rw [hold, hv, cwyEnableWritten_on] at hwrite
  have hstored := effect_cwyCtrlStored (s := s) strap v.toNat
  have henable := enable_cwyCtrlStored (s := s) strap v.isLt
  have hstrap := strap_cwyCtrlStored (s := s) strap v.toNat
  have hstate := (state_cwyCtrlStored (s := s) strap v.toNat).trans hst
  have hcwy : (cwyCtrlStored s strap v.toNat).cwy = s.cwy := hstored.keeps .cwy (by decide)
  have hcyc : (cwyCtrlStored s strap v.toNat).cyc = s.cyc := by simp [cwyCtrlStored]
  generalize cwyCtrlStored s strap v.toNat = u at hwrite hstored henable hstrap hstate hcwy hcyc
  have hstate' : (cwyStarted u).get CWY_STAT_STATE = 0 :=
    (get_cwyStarted (by decide) (by decide) (by decide)).trans hstate
  have hne : (cwyStarted u).get CWY_STAT_STATE ≠ 1 := by omega
  have heff := effect_cwyState_unformed (s := cwyStarted u) (st := 1) (by omega) (by decide)
  have hcwy' : (cwyState (cwyStarted u) 1).cwy = (cwyLinksFresh u).cwy := (cwy_cwyState 1).trans cwy_cwyStarted
  refine completes_of_settled (congrArg (finish s) hwrite) hon fun t hs => ⟨?_, ?_, ?_, ?_, fun k hk => ?_, ?_, ?_, ?_, ?_, ?_,
    fun k hk => ?_, ?_⟩
  · rw [hs.on _ (by decide) (by decide), heff.on (by decide), effect_cwyStarted.on (by decide), State.on_eq_true_iff, henable, hv]
  · rw [hs.on _ (by decide) (by decide), State.on_congr (get_cwyState (by decide) (by decide) (by decide) 1),
      State.on_congr (get_cwyStarted (by decide) (by decide) (by decide)), hstrap]
  · rw [hs.get _ (by decide) (by decide), state_cwyState (by decide)]
  · rw [hs.on _ (by decide) (by decide), event_cwyState hne]
  · rw [hs.on _ (cwyLStat_settles hk).1 (cwyLStat_settles hk).2, heff.on (fun h => cwyLStat_not_epoch hk ?_)]
    · exact training_cwyTraining hk
    · exact List.mem_of_mem_take (i := 2) h
  · rw [hs.on _ (by decide) (by decide), State.on_congr (get_cwyState (by decide) (by decide) (by decide) 1)]
    exact errors_cwyStarted.1
  · rw [hs.on _ (by decide) (by decide), State.on_congr (get_cwyState (by decide) (by decide) (by decide) 1)]
    exact errors_cwyStarted.2
  · rw [hs.cwy, hcwy', ← hcyc]
    rfl
  · rw [hs.cwy, hcwy', ← hcyc]
    rfl
  · rw [hs.cwy, hcwy']
    rfl
  · have hlink (j : Nat) : cwyLink u j = cwyLink s j := by rw [cwyLink, cwyLink, hcwy]
    rw [← hlink, ← cwyLink_cwyLinksFresh hk, cwyLink, cwyLink, hs.cwy, hcwy']
  · exact hs.changesOnly (((hstored.mono (by decide) (by decide)).trans (effect_cwyStarted.mono (by decide) (by decide))).trans
      (heff.mono (by decide) (by decide)))

/-- Link `k` goes down and trains no more. -/
def cwyLinkDown (k : Nat) (s : State) : State := (linkUp s k false).setOff (CWY_L_STAT_TRAINING k)

theorem Effect.linkUp {regs : List Nat} {parts : List Part} {t : State} (h : Effect regs parts s t) {k : Nat}
    (hl : CWY_L_STAT k ∈ regs) (he : CWY_EVT ∈ regs) (hp : Part.cwy ∈ parts) (up : Bool) : Effect regs parts s (linkUp t k up) :=
  Effect.ite (fun _ => h) fun _ => ((h.put _ hl).raise _ he).setCwyLink k _ hp

theorem up_linkUp (k : Nat) (up : Bool) : (linkUp s k up).on (CWY_L_STAT_UP k) = up := by
  unfold linkUp
  split
  · assumption
  · refine (State.on_congr (State.get_raise_apart (.inl (cwyLStat_ne_evt k)) _)).trans
      (State.on_put_ofBool (show 0 ≤ 0 ∧ 0 < 64 by decide) up)

theorem effect_cwyLinkDown (k : Nat) : Effect [CWY_L_STAT k, CWY_EVT] [.cwy] s (cwyLinkDown k s) :=
  ((Effect.refl s).linkUp (by simp) (by simp) (by simp) false).setOff (by simp [CWY_L_STAT_TRAINING])

/-- A link is down, out of training. -/
def LinkDown (k : Nat) (s : State) : Prop := s.on (CWY_L_STAT_UP k) = false ∧ s.on (CWY_L_STAT_TRAINING k) = false

theorem linkDown_cwyLinkDown (k : Nat) (s : State) : LinkDown k (cwyLinkDown k s) := by
  refine ⟨(State.on_congr (State.get_setOff_apart (.inr (show 1 ≤ 1 ∧ 1 < 64 ∧ (0 < 1 ∨ 1 < 0) by decide)))).trans (up_linkUp k false), ?_⟩
  have hoff : (cwyLinkDown k s).get (CWY_L_STAT_TRAINING k) = 0 := State.get_setOff (show 1 ≤ 1 ∧ 1 < 64 by decide)
  rw [State.on, hoff]
  rfl

theorem linkDown_congr {t : State} {k : Nat} (h : t.rd (CWY_L_STAT k) = s.rd (CWY_L_STAT k)) (hd : LinkDown k s) : LinkDown k t :=
  ⟨(State.on_congr (by rw [State.get, State.get]; exact congrArg (fun x => bitsOf (BitVec.toNat x) _ _) h)).trans hd.1,
    (State.on_congr (by rw [State.get, State.get]; exact congrArg (fun x => bitsOf (BitVec.toNat x) _ _) h)).trans hd.2⟩

/-- All links go down. -/
def cwyLinksDown (s : State) : State := (forUpTo 4 cwyLinkDown s).setOff CWY_STAT_MASTER

theorem cwyEnableWritten_off : cwyEnableWritten 1 0 s = cwyState (cwyLinksDown s) 0 := by
  rw [cwyEnableWritten, if_neg (by decide), if_pos ⟨rfl, rfl⟩]
  rfl

theorem effect_forUpTo_cwyLinkDown : Effect (CWY_EVT :: each 4 CWY_L_STAT) [.cwy] s (forUpTo 4 cwyLinkDown s) :=
  (Effect.refl s).forUpTo fun _ k hk => (effect_cwyLinkDown k).mono
    (List.cons_subset.mpr ⟨List.mem_cons_of_mem _ (mem_each hk), List.cons_subset.mpr ⟨by simp, List.nil_subset _⟩⟩) (by simp)

theorem effect_cwyLinksDown : Effect (CWY_STAT :: CWY_EVT :: each 4 CWY_L_STAT) [.cwy] s (cwyLinksDown s) :=
  (effect_forUpTo_cwyLinkDown.mono (by simp) (by simp)).setOff (by decide)

theorem linkDown_cwyLinksDown {k : Nat} (hk : k < 4) : LinkDown k (cwyLinksDown s) := by
  refine linkDown_congr (State.rd_put_ne _ _ _ _ (by revert k; decide)) (s := forUpTo 4 cwyLinkDown s) ?_
  refine forUpTo_each (P := LinkDown) linkDown_cwyLinkDown (fun j k s hne h => linkDown_congr ((effect_cwyLinkDown k).rd _ ?_) h) hk s
  simp [cwyLStat_ne_evt, cwyLStat_inj hne]

theorem completes_cwyEnable_off (hon : s.powered) {who : Initiator} {strap : Bool} {v : Word64}
    (ok : WriteOk (s.put CWY_STAT_STRAP (ofBool strap)) who CWY_CTRL v.toNat) (hrun : s.on CWY_CTRL_ENABLE = true)
    (hv : v.toNat % 2 = 0) : Completes (.cwyEnable who strap v) s fun t =>
      t.on CWY_CTRL_ENABLE = false ∧ t.get CWY_STAT_STATE = 0 ∧ t.on CWY_STAT_MASTER = false ∧
      (∀ k, k < 4 → t.on (CWY_L_STAT_UP k) = false ∧ t.on (CWY_L_STAT_TRAINING k) = false) ∧
      (s.get CWY_STAT_STATE = 3 → (t.get DGN_EPOCH_CAUSE_MASK).testBit 3 = true) ∧
      ChangesOnly ([CWY_CTRL, CWY_STAT, CWY_EVT, DGN_EPOCH, DGN_EPOCH_CAUSE, FLD_ECS_CNT 7, FLD_ECS_EVT] ++ each 4 CWY_L_STAT)
        [.cwy, .diag] s t := by
  have hwrite := writeReg_cwyCtrl ok
  have hold : (s.rd CWY_CTRL).toNat % 2 = 1 := State.mod_two_of_on rfl rfl hrun
  rw [hold, hv, cwyEnableWritten_off] at hwrite
  have hstored := effect_cwyCtrlStored (s := s) strap v.toNat
  have henable := enable_cwyCtrlStored (s := s) strap v.isLt
  have hstate := state_cwyCtrlStored (s := s) strap v.toNat
  generalize cwyCtrlStored s strap v.toNat = u at hwrite hstored henable hstate
  have hstate' : (cwyLinksDown u).get CWY_STAT_STATE = s.get CWY_STAT_STATE := by
    rw [cwyLinksDown, State.get_setOff_apart (by decide), effect_forUpTo_cwyLinkDown.get (by decide), hstate]
  have heff := effect_cwyState (cwyLinksDown u) 0
  refine completes_of_settled (congrArg (finish s) hwrite) hon fun t hs => ⟨?_, ?_, ?_, fun k hk => ?_, fun h3 => ?_, ?_⟩
  · have hget : t.get CWY_CTRL_ENABLE = 0 := by
      rw [hs.get _ (by decide) (by decide), heff.get (by decide), effect_cwyLinksDown.get (by decide), henable, hv]
    rw [State.on, hget]
    rfl
  · rw [hs.get _ (by decide) (by decide), state_cwyState (by decide)]
  · have hget : t.get CWY_STAT_MASTER = 0 := by
      rw [hs.get _ (by decide) (by decide), get_cwyState (by decide) (by decide) (by decide), cwyLinksDown,
        State.get_setOff (by decide)]
    rw [State.on, hget]
    rfl
  · refine linkDown_congr ?_ (linkDown_cwyLinksDown (s := u) hk)
    rw [hs.rd _ (cwyLStat_settles hk).1 (cwyLStat_settles hk).2, heff.rd _ (cwyLStat_not_epoch hk)]
  · rw [hs.get _ (by decide) (by decide)]
    exact cause_cwyState (by omega) (.inl (hstate'.trans h3))
  · exact hs.changesOnly_pulsed (((hstored.mono (by decide) (by decide)).trans (effect_cwyLinksDown.mono (by decide) (by decide))).trans
      (heff.mono (by decide) (by decide)))

/-! ### The end of training -/

/-- The payload of discovery's CTRL flit. -/
def discoveryPayload (s : State) : List Byte :=
  leBytes 1 0 ++ leBytes 4 s.fuses.serial ++ leBytes 1 (s.get CWY_CTRL_TOPO) ++ leBytes 1 (ofBool (cwyEligible s))

/-- Discovery's flit leaves on link `k` where it is up. -/
def discoverOn (p : List Byte) (k : Nat) (s : State) : State :=
  if s.on (CWY_L_STAT_UP k) then s.cwySend k (newFlit s 4 0 0 p) else s

theorem effect_discoverOn (p : List Byte) (k : Nat) (s : State) : Effect [] [.cwy, .out] s (discoverOn p k s) :=
  Effect.ite (fun _ => (Effect.refl s).cwySend k _ (by decide) (by decide)) fun _ => Effect.refl s

theorem outbox_discoverOn (p : List Byte) (k : Nat) (s : State) : ∃ l, (discoverOn p k s).outbox = s.outbox ++ l := by
  unfold discoverOn
  split
  · exact outbox_cwySend k _
  · exact ⟨[], (List.append_nil _).symm⟩

theorem cwyLink_discoverOn_ne {j k : Nat} (h : j ≠ k) (p : List Byte) (s : State) :
    cwyLink (discoverOn p k s) j = cwyLink s j := by
  unfold discoverOn
  split
  · exact cwyLink_cwySend_ne h _
  · rfl

/-- An idle link that is up carries discovery's flit. -/
theorem discoverOn_sent {u : State} (p : List Byte) {k : Nat} (hk : k < 4) (hup : u.on (CWY_L_STAT_UP k) = true)
    (hq : (cwyLink u k).queue = []) (hr : (cwyLink u k).replay.length < 512) :
    (cwyLink (forUpTo 4 (discoverOn p) u) k).txSeq = ((cwyLink u k).txSeq + 1) % 4096 ∧
      .flit k (sealFlit (cwyLink u k) (cwyLink u k).txSeq (newFlit u 4 0 0 p)) ∈ (forUpTo 4 (discoverOn p) u).outbox := by
  refine forUpTo_reaches (P := fun v => Effect [] [.cwy, .out] u v ∧ cwyLink v k = cwyLink u k)
    (Q := fun v => (cwyLink v k).txSeq = ((cwyLink u k).txSeq + 1) % 4096 ∧
      .flit k (sealFlit (cwyLink u k) (cwyLink u k).txSeq (newFlit u 4 0 0 p)) ∈ v.outbox)
    (fun j v hj ⟨heff, hlink⟩ => ⟨heff.trans (effect_discoverOn p j v), (cwyLink_discoverOn_ne (Ne.symm hj) p v).trans hlink⟩)
    (fun v ⟨heff, hlink⟩ => ?_) (fun j v hj ⟨hseq, hmem⟩ => ⟨?_, ?_⟩) hk ⟨Effect.refl u, rfl⟩
  · have hupv : v.on (CWY_L_STAT_UP k) = true := (heff.on (by simp)).trans hup
    have hflit : newFlit v 4 0 0 p = newFlit u 4 0 0 p := by rw [newFlit, newFlit, heff.get (by simp)]
    obtain ⟨hsent, hout⟩ := cwySend_idle (s := v) (k := k) (newFlit v 4 0 0 p) (by rw [hlink]; exact hq) (by rw [hlink]; exact hr) hupv
    rw [discoverOn, if_pos hupv, hsent, hout, hlink, hflit]
    exact ⟨rfl, by simp⟩
  · rw [cwyLink_discoverOn_ne (Ne.symm hj)]
    exact hseq
  · obtain ⟨l, hl⟩ := outbox_discoverOn p j v
    rw [hl]
    exact List.mem_append_left _ hmem

theorem exec_cwyTrainEnd (hst : s.get CWY_STAT_STATE = 1)
    (hend : (usedLinks s).all (fun k => s.on (CWY_L_STAT_UP k)) = true ∨ s.cwy.trainAt + 100000000 ≤ s.cyc) :
    exec .cwyTrainEnd s = finish s (forUpTo 4 (discoverOn (discoveryPayload s)) (cwyState s 2)) := by
  have hlate : ¬ ((!(usedLinks s).all (fun k => s.on (CWY_L_STAT_UP k)) && decide (s.cyc < s.cwy.trainAt + 100000000)) = true) := by
    rcases hend with h | h
    · simp [h]
    · simp [Nat.not_lt.mpr h]
  show execCwyTrainEnd s = _
  unfold execCwyTrainEnd
  rw [if_neg (by omega), if_neg hlate]
  rfl

theorem completes_cwyTrainEnd (hon : s.powered) (hst : s.get CWY_STAT_STATE = 1)
    (hend : (usedLinks s).all (fun k => s.on (CWY_L_STAT_UP k)) = true ∨ s.cwy.trainAt + 100000000 ≤ s.cyc) :
    Completes .cwyTrainEnd s fun t => t.get CWY_STAT_STATE = 2 ∧ t.on CWY_EVT_STATE = true ∧
      (∀ k, k < 4 → s.on (CWY_L_STAT_UP k) = true → (cwyLink s k).queue = [] → (cwyLink s k).replay.length < 512 →
        (cwyLink t k).txSeq = ((cwyLink s k).txSeq + 1) % 4096 ∧
        .flit k (sealFlit (cwyLink s k) (cwyLink s k).txSeq (newFlit s 4 0 0 (leBytes 1 0 ++ leBytes 4 s.fuses.serial ++
          leBytes 1 (s.get CWY_CTRL_TOPO) ++ leBytes 1 (ofBool (s.on CWY_STAT_STRAP && s.on CWY_CTRL_MSTREQ))))) ∈ t.outbox) ∧
      ChangesOnly [CWY_STAT, CWY_EVT] [.cwy, .out] s t := by
  have heff := effect_cwyState_unformed (s := s) (st := 2) (by omega) (by decide)
  have hstate := state_cwyState (s := s) (st := 2) (by decide)
  have hevent := event_cwyState (s := s) (st := 2) (by omega)
  have hmod : (cwyState s 2).get CWY_STAT_MODNUM = s.get CWY_STAT_MODNUM :=
    get_cwyState (by decide) (by decide) (by decide) 2
  have hlink (k : Nat) : cwyLink (cwyState s 2) k = cwyLink s k := by rw [cwyLink, cwyLink, cwy_cwyState]
  have hexec := exec_cwyTrainEnd hst hend
  generalize cwyState s 2 = u at heff hstate hevent hmod hlink hexec
  have hsends : Effect [] [.cwy, .out] u (forUpTo 4 (discoverOn (discoveryPayload s)) u) :=
    (Effect.refl u).forUpTo fun v k _ => effect_discoverOn _ k v
  refine completes_of_settled hexec hon fun t hs => ⟨?_, ?_, fun k hk hup hq hr => ?_, hs.changesOnly
    ((heff.mono (List.Subset.refl _) (List.nil_subset _)).trans (hsends.mono (List.nil_subset _) (List.Subset.refl _)))⟩
  · rw [hs.get _ (by decide) (by decide), hsends.get (by simp), hstate]
  · rw [hs.on _ (by decide) (by decide), hsends.on (by simp), hevent]
  · have hup' : u.on (CWY_L_STAT_UP k) = true := (heff.on (fun h => cwyLStat_not_epoch hk (List.mem_of_mem_take (i := 2) h))).trans hup
    obtain ⟨hseq, hmem⟩ := discoverOn_sent (discoveryPayload s) hk hup' (by rw [hlink]; exact hq) (by rw [hlink]; exact hr)
    obtain ⟨l, hl, -⟩ := hs.out
    rw [hlink] at hseq hmem
    rw [newFlit, hmod] at hmem
    refine ⟨?_, ?_⟩
    · rw [cwyLink, hs.cwy]
      exact hseq
    · rw [hl]
      exact List.mem_append_left _ hmem

/-! ### The result of discovery -/

theorem completes_cwyDiscovery_role (hon : s.powered) (hst : s.get CWY_STAT_STATE = 2) (ok master : Bool) (nmod modnum : Nat)
    (peers : List Nat) : Completes (.cwyDiscoveryResult ok true false master nmod modnum peers) s fun t =>
      t.get CWY_STAT_STATE = 4 ∧ t.on CWY_STAT_ROLEERR = true ∧ t.on CWY_EVT_STATE = true ∧
      ChangesOnly [CWY_STAT, CWY_EVT] [] s t := by
  have hexec : exec (.cwyDiscoveryResult ok true false master nmod modnum peers) s =
      finish s ((cwyState s 4).setOn CWY_STAT_ROLEERR) := by
    show execCwyDiscoveryResult ok true false master nmod modnum peers s = _
    unfold execCwyDiscoveryResult
    rw [if_neg (by omega), if_pos rfl]
  refine completes_of_settled hexec hon fun t hs => ⟨?_, ?_, ?_, hs.changesOnly
    ((effect_cwyState_unformed (by omega) (by decide)).setOn (by decide))⟩
  · rw [hs.get _ (by decide) (by decide), State.get_setOn_apart (by decide), state_cwyState (by decide)]
  · rw [hs.on _ (by decide) (by decide), State.on_eq_true_iff, State.get_setOn (by decide)]
  · rw [hs.on _ (by decide) (by decide), State.on_congr (State.get_setOn_apart (by decide)), event_cwyState (by omega)]

theorem completes_cwyDiscovery_topo (hon : s.powered) (hst : s.get CWY_STAT_STATE = 2) (ok master : Bool) {nmod : Nat} (modnum : Nat)
    (peers : List Nat) (htopo : topoHolds s nmod = false) :
    Completes (.cwyDiscoveryResult ok false false master nmod modnum peers) s fun t =>
      t.get CWY_STAT_STATE = 4 ∧ t.on CWY_STAT_TOPOERR = true ∧ ChangesOnly [CWY_STAT, CWY_EVT] [] s t := by
  have hexec : exec (.cwyDiscoveryResult ok false false master nmod modnum peers) s =
      finish s ((cwyState s 4).setOn CWY_STAT_TOPOERR) := by
    show execCwyDiscoveryResult ok false false master nmod modnum peers s = _
    unfold execCwyDiscoveryResult
    rw [if_neg (by omega), if_neg (by decide), if_pos (by rw [htopo]; rfl)]
  refine completes_of_settled hexec hon fun t hs => ⟨?_, ?_, hs.changesOnly
    ((effect_cwyState_unformed (by omega) (by decide)).setOn (by decide))⟩
  · rw [hs.get _ (by decide) (by decide), State.get_setOn_apart (by decide), state_cwyState (by decide)]
  · rw [hs.on _ (by decide) (by decide), State.on_eq_true_iff, State.get_setOn (by decide)]

theorem lt_sixteen_of_topoHolds {n : Nat} (h : topoHolds s n = true) : n ≤ 8 := by
  unfold topoHolds at h
  split at h
  · have := beq_iff_eq.mp h
    omega
  all_goals simp only [Bool.and_eq_true, decide_eq_true_eq] at h; omega

/-- The numbers of the modules, and the master. -/
def cwyNumbered (s : State) (nmod modnum : Nat) (master : Bool) : State :=
  ((s.put CWY_STAT_NMOD nmod).put CWY_STAT_MODNUM modnum).put CWY_STAT_MASTER (ofBool master)

/-- The module behind each link. -/
def cwyPeers (peers : List Nat) (s : State) : State := forUpTo 4 (fun k s => s.put (CWY_L_STAT_PEER k) (peers.getD k 0)) s

/-- A follower takes its time from the cascade. -/
def cwyTimeSource (master : Bool) (s : State) : State := onIf (!master) (·.put TIM_SRC_CFG_PRI 7) s

/-- The cascade as its numbers are known. -/
def cwyKnown (s : State) (nmod modnum : Nat) (master : Bool) (peers : List Nat) : State :=
  cwyTimeSource master (cwyPeers peers (cwyNumbered s nmod modnum master))

theorem effect_cwyNumbered (nmod modnum : Nat) (master : Bool) : Effect [CWY_STAT] [] s (cwyNumbered s nmod modnum master) :=
  (((Effect.refl s).put _ (by decide)).put _ (by decide)).put _ (by decide)

theorem effect_cwyPeers (peers : List Nat) : Effect (each 4 CWY_L_STAT) [] s (cwyPeers peers s) :=
  (Effect.refl s).forUpTo fun u _ hk => (Effect.refl u).put _ (mem_each hk)

theorem effect_cwyTimeSource (master : Bool) : Effect [TIM_SRC_CFG] [] s (cwyTimeSource master s) :=
  (Effect.refl s).onIf fun _ => (Effect.refl s).put _ (by decide)

theorem peer_cwyPeers (peers : List Nat) {k : Nat} (hk : k < 4) :
    (cwyPeers peers s).get (CWY_L_STAT_PEER k) = peers.getD k 0 % 8 :=
  forUpTo_each (P := fun k (t : State) => t.get (CWY_L_STAT_PEER k) = peers.getD k 0 % 8)
    (fun _ _ => State.get_put_self (show 4 ≤ 6 ∧ 6 < 64 by decide) _)
    (fun _ _ _ hne h => (State.get_put_apart (.inl (cwyLStat_inj hne)) _).trans h) hk s

theorem up_cwyPeers (peers : List Nat) {k : Nat} (hk : k < 4) :
    (cwyPeers peers s).on (CWY_L_STAT_UP k) = s.on (CWY_L_STAT_UP k) :=
  forUpTo_reaches (P := fun t : State => t.on (CWY_L_STAT_UP k) = s.on (CWY_L_STAT_UP k))
    (Q := fun t => t.on (CWY_L_STAT_UP k) = s.on (CWY_L_STAT_UP k)) (k := k)
    (fun _ _ hne h => (State.on_congr (State.get_put_apart (.inl (cwyLStat_inj (Ne.symm hne))) _)).trans h)
    (fun _ h => (State.on_congr (State.get_put_apart (.inr (show 4 ≤ 6 ∧ 6 < 64 ∧ (0 < 4 ∨ 6 < 0) by decide)) _)).trans h)
    (fun _ _ hne h => (State.on_congr (State.get_put_apart (.inl (cwyLStat_inj (Ne.symm hne))) _)).trans h) hk rfl

theorem pri_cwyTimeSource (master : Bool) :
    (cwyTimeSource master s).get TIM_SRC_CFG_PRI = if master then s.get TIM_SRC_CFG_PRI else 7 := by
  cases master
  · exact State.get_put_of_lt (by decide) (by decide)
  · rfl

/-- What is read of the cascade as its numbers are known. -/
theorem get_cwyKnown {f : Fld} (hl : f.addr ∉ each 4 CWY_L_STAT) (ht : f.addr ∉ [TIM_SRC_CFG]) (nmod modnum : Nat) (master : Bool)
    (peers : List Nat) : (cwyKnown s nmod modnum master peers).get f = (cwyNumbered s nmod modnum master).get f := by
  rw [cwyKnown, (effect_cwyTimeSource master).get ht, (effect_cwyPeers peers).get hl]

theorem effect_cwyKnown (nmod modnum : Nat) (master : Bool) (peers : List Nat) :
    Effect (CWY_STAT :: TIM_SRC_CFG :: each 4 CWY_L_STAT) [] s (cwyKnown s nmod modnum master peers) :=
  (((effect_cwyNumbered nmod modnum master).mono (by decide) (by decide)).trans ((effect_cwyPeers peers).mono (by decide) (by decide))).trans
    ((effect_cwyTimeSource master).mono (by decide) (by decide))

theorem numbers_cwyKnown {nmod modnum : Nat} (hn : nmod < 16) (hm : modnum < 8) (master : Bool) (peers : List Nat) :
    (cwyKnown s nmod modnum master peers).get CWY_STAT_NMOD = nmod ∧
      (cwyKnown s nmod modnum master peers).get CWY_STAT_MODNUM = modnum ∧
      (cwyKnown s nmod modnum master peers).on CWY_STAT_MASTER = master := by
  refine ⟨?_, ?_, ?_⟩
  · rw [get_cwyKnown (by decide) (by decide), cwyNumbered, State.get_put_apart (by decide), State.get_put_apart (by decide)]
    exact State.get_put_of_lt (by decide) hn
  · rw [get_cwyKnown (by decide) (by decide), cwyNumbered, State.get_put_apart (by decide)]
    exact State.get_put_of_lt (by decide) hm
  · rw [State.on_congr (get_cwyKnown (by decide) (by decide) ..), cwyNumbered, State.on_put_ofBool (by decide)]

/-! ### Reads asked again (R482) -/

/-- The read `p` is asked on link `k`. -/
def Asked (k : Nat) (p : Nat × RemoteSlot) (s : State) : Prop :=
  ∃ g, .flit k g ∈ s.outbox ∧ fKind g = 1 ∧ fDst g = p.2.module % 8 ∧ fTag g = readTag p.1 p.2.ctx p.2.core p.2.tile

theorem Asked.mono {k : Nat} {p : Nat × RemoteSlot} {t : State} (h : Asked k p s) (ho : ∃ l, t.outbox = s.outbox ++ l) : Asked k p t := by
  obtain ⟨g, hmem, hg⟩ := h
  obtain ⟨l, hl⟩ := ho
  exact ⟨g, hl ▸ List.mem_append_left _ hmem, hg⟩

theorem readTag_lt (slot ctx core tile : Nat) : readTag slot ctx core tile < 2 ^ 48 := by
  unfold readTag
  omega

theorem asked_cwyReadReq {p : Nat × RemoteSlot} {k : Nat} (hk : routeLink s p.2.module p.2.tile = k) (hq : (cwyLink s k).queue = [])
    (hr : (cwyLink s k).replay.length < 512) (hup : s.on (CWY_L_STAT_UP k) = true) : Asked k p (s.cwyReadReq p.1 p.2) := by
  rw [State.cwyReadReq, hk]
  obtain ⟨-, hout⟩ := cwySend_idle (s := s) (newFlit s 1 p.2.module (readTag p.1 p.2.ctx p.2.core p.2.tile)
    (leBytes 8 (p.2.unit * 65536))) hq hr hup
  refine ⟨_, by rw [hout]; exact List.mem_append_right _ (List.mem_singleton_self _), ?_⟩
  rw [sealFlit, fKind_flit, fDst_flit, fTag_flit, newFlit, fKind_flit, fDst_flit, fTag_flit,
    Nat.mod_eq_of_lt (readTag_lt ..), Nat.mod_eq_of_lt (readTag_lt ..)]
  exact ⟨rfl, Nat.mod_mod _ _, rfl⟩

/-- What a drain leaves of each link's lost reads. -/
theorem lost_cwyDrain (j k n : Nat) : (cwyLink (s.cwyDrain k n) j).lost = (cwyLink s j).lost := by
  induction n generalizing s with
  | zero => rfl
  | succ n ih =>
    rw [cwyDrain_succ]
    split
    · rfl
    next f rest _ =>
      split
      · rfl
      · rw [ih]
        by_cases h : j = k
        · rw [h, cwyLink_flitLeaves_same]
          rfl
        · rw [cwyLink_flitLeaves_ne h]

theorem lost_cwySend (j k : Nat) (f : List Byte) : (cwyLink (s.cwySend k f) j).lost = (cwyLink s j).lost := by
  rw [State.cwySend, lost_cwyDrain]
  by_cases h : j = k
  · rw [h, cwyLink_setCwyLink_same]
  · rw [cwyLink_setCwyLink_ne h]

/-- Link `k` has nothing lost any more. -/
def lostTaken (k : Nat) (s : State) : State := s.setCwyLink k { cwyLink s k with lost := [] }

/-- One read asked again, and counted. -/
def askAgain (k : Nat) (s : State) (p : Nat × RemoteSlot) : State := (s.cwyReadReq p.1 p.2).count (CWY_L_CNT_REISSUE_VALUE k) 1

theorem reissue_eq (k : Nat) : reissue s k =
    (s.sched.remote.filter fun p => (cwyLink s k).lost.contains p.1).foldl (askAgain k) (lostTaken k s) := rfl

theorem effect_askAgain (k : Nat) (p : Nat × RemoteSlot) : Effect [CWY_L_CNT_REISSUE k] [.cwy, .out] s (askAgain k s p) :=
  ((Effect.refl s).cwySend _ _ (by decide) (by decide)).count 1 (by simp [CWY_L_CNT_REISSUE_VALUE])

theorem effect_reissue (k : Nat) : Effect [CWY_L_CNT_REISSUE k] [.cwy, .out] s (reissue s k) := by
  rw [reissue_eq]
  exact ((Effect.refl s).setCwyLink k _ (by decide)).foldl fun _ p _ => effect_askAgain k p

theorem outbox_reissue (k : Nat) : ∃ l, (reissue s k).outbox = s.outbox ++ l := by
  rw [reissue_eq]
  exact outbox_foldl (f := askAgain k) (s := lostTaken k s) (fun _ _ => outbox_cwySend _ _) _

theorem lost_askAgain (j k : Nat) (p : Nat × RemoteSlot) : (cwyLink (askAgain k s p) j).lost = (cwyLink s j).lost :=
  lost_cwySend j _ _

theorem lost_reissue_ne {j k : Nat} (h : j ≠ k) : (cwyLink (reissue s k) j).lost = (cwyLink s j).lost := by
  rw [reissue_eq]
  have hstart : (cwyLink (lostTaken k s) j).lost = (cwyLink s j).lost := by rw [lostTaken, cwyLink_setCwyLink_ne h]
  rw [← hstart]
  generalize lostTaken k s = u
  generalize List.filter _ _ = l
  induction l generalizing u with
  | nil => rfl
  | cons p l ih => rw [List.foldl_cons, ih, lost_askAgain]

/-- With one read outstanding, a link either had not lost it or asks it again. -/
theorem reissue_one {p : Nat × RemoteSlot} (hrem : s.sched.remote = [p]) (k : Nat) :
    reissue s k = if (cwyLink s k).lost.contains p.1 then askAgain k (lostTaken k s) p else lostTaken k s := by
  rw [reissue_eq, hrem, List.filter_cons, List.filter_nil]
  split <;> rfl

theorem flips_cwyDrain (k n : Nat) : (s.cwyDrain k n).cwy.flips = s.cwy.flips := by
  induction n generalizing s with
  | zero => rfl
  | succ n ih =>
    rw [cwyDrain_succ]
    split
    · rfl
    · split
      · rfl
      · exact ih

theorem flips_askAgain (k : Nat) (p : Nat × RemoteSlot) : (askAgain k s p).cwy.flips = s.cwy.flips := flips_cwyDrain _ _

theorem flips_reissue (k : Nat) : (reissue s k).cwy.flips = s.cwy.flips := by
  rw [reissue_eq, ← show (lostTaken k s).cwy.flips = s.cwy.flips from rfl]
  generalize lostTaken k s = u
  generalize List.filter _ _ = l
  induction l generalizing u with
  | nil => rfl
  | cons p l ih => rw [List.foldl_cons, ih, flips_askAgain]

/-- The route is the same where the topology, the numbers and the turned modules are. -/
theorem routeLink_congr {t : State} (htopo : t.get CWY_CTRL_TOPO = s.get CWY_CTRL_TOPO) (hn : t.get CWY_STAT_NMOD = s.get CWY_STAT_NMOD)
    (hm : t.get CWY_STAT_MODNUM = s.get CWY_STAT_MODNUM) (hf : t.cwy.flips = s.cwy.flips) (dst i : Nat) :
    routeLink t dst i = routeLink s dst i := by
  unfold routeLink ringUp cwyTopo
  rw [htopo, hn, hm, hf]

/-- The reads lost on link `k`, if it is up. -/
def reissueOn (k : Nat) (s : State) : State := onIf (s.on (CWY_L_STAT_UP k)) (reissue · k) s

/-- The counters of reads asked again. -/
def reissueRegs : List Nat := each 4 CWY_L_CNT_REISSUE

theorem effect_reissueOn (k : Nat) : Effect [CWY_L_CNT_REISSUE k] [.cwy, .out] s (reissueOn k s) :=
  (Effect.refl s).onIf fun _ => effect_reissue k

theorem outbox_reissueOn (k : Nat) : ∃ l, (reissueOn k s).outbox = s.outbox ++ l := by
  unfold reissueOn onIf
  split
  · exact outbox_reissue k
  · exact ⟨[], (List.append_nil _).symm⟩

theorem flips_reissueOn (k : Nat) : (reissueOn k s).cwy.flips = s.cwy.flips := by
  unfold reissueOn onIf
  split
  · exact flips_reissue k
  · rfl

theorem effect_reissueAll : Effect reissueRegs [.cwy, .out] s (forUpTo 4 reissueOn s) :=
  (Effect.refl s).forUpTo fun _ _ hk => (effect_reissueOn _).mono
    (List.cons_subset.mpr ⟨mem_each hk, List.nil_subset _⟩) (List.Subset.refl _)

theorem flips_reissueAll : (forUpTo 4 reissueOn s).cwy.flips = s.cwy.flips :=
  forUpTo_reaches (P := fun t : State => t.cwy.flips = s.cwy.flips) (Q := fun t => t.cwy.flips = s.cwy.flips) (k := 0)
    (fun j _ _ h => (flips_reissueOn j).trans h) (fun _ h => (flips_reissueOn 0).trans h) (fun j _ _ h => (flips_reissueOn j).trans h)
    (by decide) rfl

theorem reissueCnt_not_mem {j k : Nat} (h : j ≠ k) : (CWY_L_CNT_REISSUE_VALUE k).addr ∉ [CWY_L_CNT_REISSUE j] := by
  simp only [CWY_L_CNT_REISSUE_VALUE, CWY_L_CNT_REISSUE, List.mem_singleton]
  omega

/-- Such a counter is none of the registers that the settling, the state or the numbers of the cascade write. -/
theorem reissueCnt_stands {k : Nat} (hk : k < 4) : (CWY_L_CNT_REISSUE_VALUE k).addr ≠ DGN_CNT_MERGE ∧
    (CWY_L_CNT_REISSUE_VALUE k).addr ≠ DGN_EVT ∧ (CWY_L_CNT_REISSUE_VALUE k).addr ∉ cwyStateRegs ∧
    (CWY_L_CNT_REISSUE_VALUE k).addr ∉ CWY_STAT :: TIM_SRC_CFG :: each 4 CWY_L_STAT := by
  revert k
  decide

theorem reissueCnt_ne_stat {j : Nat} {f : Fld} (hf : f.addr % 0x100 ≠ 0x14) : f.addr ∉ [CWY_L_CNT_REISSUE j] := by
  unfold CWY_L_CNT_REISSUE
  simp only [List.mem_singleton]
  omega

/-- Before its own round, the link either stands idle or carries the read already. -/
structure BeforeRound (u : State) (k : Nat) (p : Nat × RemoteSlot) (v : State) : Prop where
  stat : ∀ f : Fld, f.addr % 0x100 ≠ 0x14 → v.get f = u.get f
  remote : v.sched.remote = [p]
  flips : v.cwy.flips = u.cwy.flips
  lost : (cwyLink v k).lost = [p.1]
  cnt : v.get (CWY_L_CNT_REISSUE_VALUE k) = u.get (CWY_L_CNT_REISSUE_VALUE k)
  asked : (cwyLink v k).queue = [] ∧ (cwyLink v k).replay.length < 512 ∨ Asked k p v

section

variable {u v : State} {k : Nat} {p : Nat × RemoteSlot} (hroute : routeLink u p.2.module p.2.tile = k)
  (hup : u.on (CWY_L_STAT_UP k) = true)
include hroute hup

omit hup in
theorem BeforeRound.route (h : BeforeRound u k p v) : routeLink v p.2.module p.2.tile = k :=
  (routeLink_congr (h.stat _ (by decide)) (h.stat _ (by decide)) (h.stat _ (by decide)) h.flips _ _).trans hroute

omit hroute in
theorem BeforeRound.up (h : BeforeRound u k p v) : v.on (CWY_L_STAT_UP k) = true :=
  (State.on_congr (h.stat _ (by simp only [CWY_L_STAT_UP, CWY_L_STAT]; omega))).trans hup

/-- The read goes out when it is asked, at the latest. -/
theorem BeforeRound.asks (h : BeforeRound u k p v) {j : Nat} (hkeep : cwyLink (lostTaken j v) k = cwyLink v k ∨ j = k) :
    Asked k p (askAgain j (lostTaken j v) p) := by
  rcases h.asked with ⟨hq, hr⟩ | hasked
  · have hlink : (cwyLink (lostTaken j v) k).queue = [] ∧ (cwyLink (lostTaken j v) k).replay.length < 512 := by
      rcases hkeep with hk | rfl
      · rw [hk]
        exact ⟨hq, hr⟩
      · rw [lostTaken, cwyLink_setCwyLink_same]
        exact ⟨hq, hr⟩
    have hroute' : routeLink (lostTaken j v) p.2.module p.2.tile = k :=
      (routeLink_congr (s := v) rfl rfl rfl rfl _ _).trans (h.route hroute)
    have hup' : (lostTaken j v).on (CWY_L_STAT_UP k) = true := (h.up hup : v.on (CWY_L_STAT_UP k) = true)
    exact asked_cwyReadReq hroute' hlink.1 hlink.2 hup'
  · exact Asked.mono hasked (outbox_cwySend (s := lostTaken j v) _ _)

theorem BeforeRound.other (h : BeforeRound u k p v) {j : Nat} (hj : j ≠ k) : BeforeRound u k p (reissueOn j v) where
  stat f hf := ((effect_reissueOn j).get (reissueCnt_ne_stat hf)).trans (h.stat f hf)
  remote := by rw [(effect_reissueOn (s := v) j).keeps .sched (by decide)]; exact h.remote
  flips := (flips_reissueOn j).trans h.flips
  lost := by
    unfold reissueOn onIf
    split
    · exact (lost_reissue_ne (Ne.symm hj)).trans h.lost
    · exact h.lost
  cnt := ((effect_reissueOn j).get (reissueCnt_not_mem hj)).trans h.cnt
  asked := by
    have hkeep : cwyLink (lostTaken j v) k = cwyLink v k := cwyLink_setCwyLink_ne (Ne.symm hj) _
    unfold reissueOn onIf
    split
    · simp only [reissue_one h.remote]
      split
      · exact .inr (h.asks hroute hup (.inl hkeep))
      · rw [hkeep]
        exact h.asked.imp_right fun ha => ha.mono ⟨[], (List.append_nil _).symm⟩
    · exact h.asked

theorem BeforeRound.own (h : BeforeRound u k p v) : Asked k p (reissueOn k v) ∧
    (reissueOn k v).get (CWY_L_CNT_REISSUE_VALUE k) = satAdd 32 (u.get (CWY_L_CNT_REISSUE_VALUE k)) 1 := by
  rw [reissueOn, h.up hup, onIf, if_pos rfl, reissue_one h.remote, h.lost, if_pos (by simp)]
  refine ⟨h.asks hroute hup (.inr rfl), ?_⟩
  have hcnt : ((lostTaken k v).cwyReadReq p.1 p.2).get (CWY_L_CNT_REISSUE_VALUE k) = u.get (CWY_L_CNT_REISSUE_VALUE k) :=
    (Effect.get (regs := []) (parts := [.cwy, .out]) ((Effect.refl _).cwySend _ _ (by decide) (by decide)) (by simp)).trans h.cnt
  rw [askAgain, ← hcnt]
  exact State.get_count_self (f := CWY_L_CNT_REISSUE_VALUE k) (show 0 ≤ 31 ∧ 31 < 64 by decide) 1

theorem reissueAll_asks (hk : k < 4) (hrem : u.sched.remote = [p]) (hlost : (cwyLink u k).lost = [p.1]) (hq : (cwyLink u k).queue = [])
    (hr : (cwyLink u k).replay.length < 512) : Asked k p (forUpTo 4 reissueOn u) ∧
      (forUpTo 4 reissueOn u).get (CWY_L_CNT_REISSUE_VALUE k) = satAdd 32 (u.get (CWY_L_CNT_REISSUE_VALUE k)) 1 :=
  forUpTo_reaches (P := BeforeRound u k p)
    (Q := fun t => Asked k p t ∧ t.get (CWY_L_CNT_REISSUE_VALUE k) = satAdd 32 (u.get (CWY_L_CNT_REISSUE_VALUE k)) 1)
    (fun _ _ hj h => h.other hroute hup hj) (fun _ h => h.own hroute hup)
    (fun j _ hj ⟨ha, hc⟩ => ⟨ha.mono (outbox_reissueOn j), ((effect_reissueOn j).get (reissueCnt_not_mem hj)).trans hc⟩) hk
    ⟨fun _ _ => rfl, hrem, rfl, hlost, rfl, .inl ⟨hq, hr⟩⟩

end

theorem exec_cwyDiscovery (hst : s.get CWY_STAT_STATE = 2) {master : Bool} {nmod modnum : Nat} (htopo : topoHolds s nmod = true)
    (hlt : modnum < nmod) (hmaster : master = true ↔ modnum = 0)
    (helig : master = true → s.on CWY_STAT_STRAP = true ∧ s.on CWY_CTRL_MSTREQ = true) (peers : List Nat) :
    exec (.cwyDiscoveryResult true false false master nmod modnum peers) s =
      finish s (forUpTo 4 reissueOn (cwyState (cwyKnown s nmod modnum master peers) 3)) := by
  have hgood : ¬ ((!true || decide (nmod ≤ modnum) || (modnum == 0) != master || (master && !cwyEligible s)) = true) := by
    have hfirst : (modnum == 0) = master := by rw [Bool.eq_iff_iff, beq_iff_eq, hmaster]
    cases master with
    | false => simp [hfirst, Nat.not_le.mpr hlt]
    | true => simp [hfirst, Nat.not_le.mpr hlt, cwyEligible, helig rfl]
  show execCwyDiscoveryResult true false false master nmod modnum peers s = _
  unfold execCwyDiscoveryResult
  rw [if_neg (by omega), if_neg (by decide), if_neg (by rw [htopo]; decide), if_neg hgood]
  rfl

/-- A good result forms the cascade. -/
theorem completes_cwyDiscovery_formed (hon : s.powered) (hst : s.get CWY_STAT_STATE = 2) {ok master : Bool} {nmod modnum : Nat}
    (peers : List Nat) (hok : ok = true) (htopo : topoHolds s nmod = true) (hlt : modnum < nmod) (hmaster : master = true ↔ modnum = 0)
    (helig : master = true → s.on CWY_STAT_STRAP = true ∧ s.on CWY_CTRL_MSTREQ = true) :
    Completes (.cwyDiscoveryResult ok false false master nmod modnum peers) s fun t => t.get CWY_STAT_STATE = 3 ∧
      t.get CWY_STAT_NMOD = nmod ∧ t.get CWY_STAT_MODNUM = modnum ∧ t.on CWY_STAT_MASTER = master ∧
      (∀ k, k < 4 → t.get (CWY_L_STAT_PEER k) = peers.getD k 0 % 8) ∧ (master = false → t.get TIM_SRC_CFG_PRI = 7) ∧
      (master = true → t.get TIM_SRC_CFG_PRI = s.get TIM_SRC_CFG_PRI) ∧ t.on CWY_EVT_STATE = true ∧
      (t.get DGN_EPOCH_CAUSE_MASK).testBit 3 = true ∧
      (∀ k p, k < 4 → s.on (CWY_L_STAT_UP k) = true → (cwyLink s k).lost = [p.1] → s.sched.remote = [p] → k = routeLink t p.2.module
          p.2.tile → (cwyLink s k).queue = [] → (cwyLink s k).replay.length < 512 → ∃ g, .flit k g ∈ t.outbox ∧ fKind g = 1 ∧
        fDst g = p.2.module % 8 ∧ fTag g = readTag p.1 p.2.ctx p.2.core p.2.tile ∧
        t.get (CWY_L_CNT_REISSUE_VALUE k) = satAdd 32 (s.get (CWY_L_CNT_REISSUE_VALUE k)) 1) ∧
      ChangesOnly ([CWY_STAT, CWY_EVT, TIM_SRC_CFG, DGN_EPOCH, DGN_EPOCH_CAUSE, FLD_ECS_CNT 7, FLD_ECS_EVT] ++ each 4 CWY_L_STAT ++
        each 4 CWY_L_CNT_REISSUE) [.cwy, .out, .diag] s t := by
  subst hok
  have hexec := exec_cwyDiscovery hst htopo hlt hmaster helig peers
  have hn := lt_sixteen_of_topoHolds htopo
  obtain ⟨hnmod, hmodnum, hmast⟩ := numbers_cwyKnown (s := s) (nmod := nmod) (modnum := modnum) (by omega) (by omega) master peers
  have hknown := effect_cwyKnown (s := s) nmod modnum master peers
  have hpeer {k : Nat} (hk : k < 4) : (cwyKnown s nmod modnum master peers).get (CWY_L_STAT_PEER k) = peers.getD k 0 % 8 := by
    rw [cwyKnown, (effect_cwyTimeSource master).get (by revert k; decide), peer_cwyPeers peers hk]
  have hup {k : Nat} (hk : k < 4) : (cwyKnown s nmod modnum master peers).on (CWY_L_STAT_UP k) = s.on (CWY_L_STAT_UP k) := by
    rw [cwyKnown, (effect_cwyTimeSource master).on (by revert k; decide), up_cwyPeers peers hk,
      (effect_cwyNumbered nmod modnum master).on (by revert k; decide)]
  have hpri : (cwyKnown s nmod modnum master peers).get TIM_SRC_CFG_PRI = if master then s.get TIM_SRC_CFG_PRI else 7 := by
    rw [cwyKnown, pri_cwyTimeSource, (effect_cwyPeers peers).get (by decide), (effect_cwyNumbered nmod modnum master).get (by decide)]
  have hstate : (cwyKnown s nmod modnum master peers).get CWY_STAT_STATE = 2 := by
    rw [get_cwyKnown (by decide) (by decide), cwyNumbered, State.get_put_apart (by decide), State.get_put_apart (by decide),
      State.get_put_apart (by decide), hst]
  generalize cwyKnown s nmod modnum master peers = w at hexec hnmod hmodnum hmast hknown hpeer hup hpri hstate
  have hcwy : (cwyState w 3).cwy = s.cwy := (cwy_cwyState 3).trans (hknown.keeps .cwy (by decide))
  have hsched : (cwyState w 3).sched = s.sched := (sched_cwyState 3).trans (hknown.keeps .sched (by decide))
  have heff := effect_cwyState w 3
  have hget (f : Fld) (h1 : Apart CWY_STAT_STATE f) (h2 : f.addr ≠ CWY_EVT) (h3 : f.addr ∉ epochRegs) :
      (cwyState w 3).get f = w.get f := get_cwyState h1 h2 h3 3
  have hformed := state_cwyState (s := w) (st := 3) (by decide)
  have hevent := event_cwyState (s := w) (st := 3) (by omega)
  have hcause := cause_cwyState (s := w) (st := 3) (by omega) (.inr rfl)
  generalize cwyState w 3 = u at hexec hcwy hsched heff hget hformed hevent hcause
  have hall := effect_reissueAll (s := u)
  have hlink (k : Nat) : cwyLink u k = cwyLink s k := by rw [cwyLink, cwyLink, hcwy]
  refine completes_of_settled hexec hon fun t hs => ⟨?_, ?_, ?_, ?_, fun k hk => ?_, fun hm => ?_, fun hm => ?_, ?_, ?_,
    fun k p hk hupk hlost hrem hroute hq hr => ?_, hs.changesOnly_pulsed (((hknown.mono (by decide) (by decide)).trans
      (heff.mono (by decide) (by decide))).trans (hall.mono (by decide) (by decide)))⟩
  · rw [hs.get _ (by decide) (by decide), hall.get (by decide), hformed]
  · rw [hs.get _ (by decide) (by decide), hall.get (by decide), hget _ (by decide) (by decide) (by decide), hnmod]
  · rw [hs.get _ (by decide) (by decide), hall.get (by decide), hget _ (by decide) (by decide) (by decide), hmodnum]
  · rw [hs.on _ (by decide) (by decide), hall.on (by decide), State.on_congr (hget _ (by decide) (by decide) (by decide)), hmast]
  · rw [hs.get _ (cwyLStat_settles hk).1 (cwyLStat_settles hk).2, hall.get (by revert k; decide),
      heff.get (cwyLStat_not_epoch hk), hpeer hk]
  · rw [hs.get _ (by decide) (by decide), hall.get (by decide), heff.get (by decide), hpri, hm]
    rfl
  · rw [hs.get _ (by decide) (by decide), hall.get (by decide), heff.get (by decide), hpri, hm]
    rfl
  · rw [hs.on _ (by decide) (by decide), hall.on (by decide), hevent]
  · rw [hs.get _ (by decide) (by decide), hall.get (by decide)]
    exact hcause
  · have hroute' : routeLink u p.2.module p.2.tile = k := by
      rw [hroute]
      refine routeLink_congr ?_ ?_ ?_ ?_ _ _ |>.symm
      · rw [hs.get _ (by decide) (by decide), hall.get (by decide)]
      · rw [hs.get _ (by decide) (by decide), hall.get (by decide)]
      · rw [hs.get _ (by decide) (by decide), hall.get (by decide)]
      · rw [hs.cwy, flips_reissueAll]
    have hupu : u.on (CWY_L_STAT_UP k) = true := (heff.on (cwyLStat_not_epoch hk)).trans ((hup hk).trans hupk)
    obtain ⟨⟨g, hmem, hkind, hdst, htag⟩, hcnt⟩ := reissueAll_asks hroute' hupu hk (by rw [hsched, hrem]) (by rw [hlink, hlost])
      (by rw [hlink]; exact hq) (by rw [hlink]; exact hr)
    obtain ⟨l, hl, -⟩ := hs.out
    obtain ⟨hmerge, hevt, hstate, hnum⟩ := reissueCnt_stands hk
    refine ⟨g, hl ▸ List.mem_append_left _ hmem, hkind, hdst, htag, ?_⟩
    rw [hs.get _ hmerge hevt, hcnt, heff.get hstate, hknown.get hnum]

end

/-- Settles O48, clause by clause: the enable trains the links, the end of training starts discovery, its result forms the cascade
or ends in ERROR. -/
theorem cascadeForms : Obligations.CascadeForms := by
  intro s hon
  refine ⟨fun who strap v ok => ⟨fun hoff hv hst => completes_cwyEnable_on hon ok hoff hv hst,
    fun hrun hv => completes_cwyEnable_off hon ok hrun hv⟩, fun hst hend => completes_cwyTrainEnd hon hst hend,
    fun ok master nmod modnum peers hst => ⟨fun hok htopo hlt hmaster helig =>
      completes_cwyDiscovery_formed hon hst peers hok htopo hlt hmaster helig,
      completes_cwyDiscovery_role hon hst ok master nmod modnum peers,
      fun htopo => completes_cwyDiscovery_topo hon hst ok master modnum peers htopo⟩⟩

end Sys2Proof.Machine
end
section
/-! Targets of the interrupt controller, software interrupts, timed input pins and a hart's own memory (R376 to R394). -/

namespace Sys2Proof.Machine

open Sys2Proof Sys2Proof.Machine.Reg

/-! ### Settling of lines that stand -/

/-- The line of a source is a matter of the registers alone. -/
theorem levelLine_congr {s t : State} (h : ∀ a, t.rd a = s.rd a) (src : Nat) : levelLine t src = levelLine s src := by
  have hget (f : Fld) : t.get f = s.get f := by rw [State.get, State.get, h]
  unfold levelLine State.evtLine
  simp only [h, hget]

/-- Where the registers read as before, no line rises and no source is pulsed. -/
theorem settleEdges_of_rd {s u : State} (h : ∀ a, u.rd a = s.rd a) : settleEdges s u = u := by
  unfold settleEdges
  generalize levelSources = l
  induction l with
  | nil => rfl
  | cons x l ih => rw [List.foldl_cons, levelLine_congr h x, if_neg (by simp), ih]

theorem icu_msixFire (s : State) (v : Nat) : (s.msixFire v).icu = s.icu := by
  unfold State.msixFire
  split
  · split <;> rfl
  · rfl

theorem icu_settleMsix (s u : State) : (settleMsix s u).icu = u.icu := by
  unfold settleMsix forUpTo
  generalize List.range 32 = l
  induction l generalizing u with
  | nil => rfl
  | cons v l ih =>
    rw [List.foldl_cons, ih]
    simp only
    split
    · exact icu_msixFire u _
    · rfl

/-- A claim about a command that leaves the registers, whose settling leaves the sources pending as they are. -/
theorem completes_of_still {i : Instr} {s u : State} {P : State → Prop} (he : exec i s = finish s u) (hon : s.powered)
    (hrd : ∀ a, u.rd a = s.rd a) (h : ∀ t, Settled s.fuses s u t → t.icu = u.icu → P t) : Completes i s P := by
  obtain ⟨t, ht, hs⟩ := finish_spec s u hon
  refine ⟨t, he.trans ht, h t hs ?_⟩
  rw [finish, if_neg (by omega)] at ht
  obtain rfl := Host.Outcome.next.inj ht
  exact (icu_settleMsix s _).trans (congrArg State.icu (settleEdges_of_rd hrd))

theorem satAdd_mono (w : Nat) {x y : Nat} (h : x ≤ y) (d : Nat) : satAdd w x d ≤ satAdd w y d := by
  unfold satAdd
  omega

theorem le_satAdd {w x : Nat} (h : x < 2 ^ w) (d : Nat) : x ≤ satAdd w x d := by
  unfold satAdd
  omega

/-- Merged pulses so far are still counted, and their event stands. -/
structure MergesKept (s t : State) : Prop where
  count : s.get DGN_CNT_MERGE_VALUE ≤ t.get DGN_CNT_MERGE_VALUE
  event : s.on DGN_EVT_MERGE = true → t.on DGN_EVT_MERGE = true

theorem MergesKept.refl (s : State) : MergesKept s s := ⟨Nat.le_refl _, id⟩

theorem MergesKept.trans {s t u : State} (h : MergesKept s t) (k : MergesKept t u) : MergesKept s u :=
  ⟨Nat.le_trans h.count k.count, fun he => k.event (h.event he)⟩

/-- A merge is counted, with its event. -/
theorem merge_counted (s : State) :
    ((s.count DGN_CNT_MERGE_VALUE 1).setOn DGN_EVT_MERGE).get DGN_CNT_MERGE_VALUE = satAdd 32 (s.get DGN_CNT_MERGE_VALUE) 1 ∧
      ((s.count DGN_CNT_MERGE_VALUE 1).setOn DGN_EVT_MERGE).on DGN_EVT_MERGE = true := by
  refine ⟨?_, ?_⟩
  · rw [State.get_setOn_apart (by decide)]
    exact State.get_count_self (by decide) 1
  · rw [State.on_eq_true_iff, State.get_setOn (by decide)]

theorem mergesKept_pulse (s : State) (src : Nat) : MergesKept s (s.pulse src) := by
  obtain ⟨hcount, hevent⟩ := merge_counted s
  unfold State.pulse
  split
  · split
    · exact ⟨by rw [hcount]; exact le_satAdd (s.get_lt DGN_CNT_MERGE_VALUE) 1, fun _ => hevent⟩
    · exact ⟨Nat.le_refl _, id⟩
  · exact MergesKept.refl s

theorem mergesKept_foldl {α : Type} {f : State → α → State} (h : ∀ s x, MergesKept s (f s x)) (xs : List α) (s : State) :
    MergesKept s (xs.foldl f s) := by
  induction xs generalizing s with
  | nil => exact MergesKept.refl s
  | cons x xs ih => exact (h s x).trans (ih (f s x))

theorem get_msixFire (s : State) (v : Nat) (f : Fld) : (s.msixFire v).get f = s.get f := by
  unfold State.msixFire
  split
  · split <;> rfl
  · rfl

theorem mergesKept_settle (s u : State) : MergesKept u (settle s u) := by
  have hedges : MergesKept u (settleEdges s u) := mergesKept_foldl (fun s x => by
    split
    · exact mergesKept_pulse s x
    · exact MergesKept.refl s) _ _
  refine hedges.trans (mergesKept_foldl (fun s x => ?_) _ _)
  simp only
  split
  · exact ⟨by rw [get_msixFire], fun h => (State.on_congr (get_msixFire s _ _)).trans h⟩
  · exact MergesKept.refl s

/-- A claim about a command of the effect `u`, whose settled state keeps what `u` has merged. -/
theorem completes_of_merged {i : Instr} {s u : State} {P : State → Prop} (he : exec i s = finish s u) (hon : s.powered)
    (h : ∀ t, Settled s.fuses s u t → MergesKept u t → P t) : Completes i s P := by
  obtain ⟨t, ht, hs⟩ := finish_spec s u hon
  refine ⟨t, he.trans ht, h t hs ?_⟩
  rw [finish, if_neg (by omega)] at ht
  obtain rfl := Host.Outcome.next.inj ht
  exact ⟨(mergesKept_settle s u).count, (mergesKept_settle s u).event⟩

/-! ### The claim (R387) -/

section

variable {s : State} {t : Nat}

/-- A source whose line is high has a level origin. -/
theorem mem_levelSources {src : Nat} (h : levelLine s src = true) : src ∈ levelSources := by
  by_contra hno
  have hcases : ¬ (1 ≤ src ∧ src ≤ 8) ∧ ¬ (9 ≤ src ∧ src ≤ 16) ∧ ¬ (32 ≤ src ∧ src ≤ 39) ∧ ¬ (68 ≤ src ∧ src ≤ 71) ∧
      ¬ (76 ≤ src ∧ src ≤ 80) := by
    simp only [levelSources, List.mem_append, List.mem_range'_1, List.mem_cons, not_or] at hno
    omega
  obtain ⟨h1, h2, h3, h4, h5⟩ := hcases
  unfold levelLine at h
  rw [if_neg h1, if_neg h2, if_neg h3, if_neg h4, if_neg h5] at h
  revert h
  split
  case h_19 => exact fun h => absurd h (by decide)
  all_goals exact fun _ => hno (by decide)

theorem mem_sources {src : Nat} (h : deliverable s t src = true) : src ∈ levelSources ++ s.icu.pend := by
  have hpend : icuPending s src = true := by
    simp only [deliverable, Bool.and_eq_true] at h
    obtain ⟨⟨⟨⟨-, h⟩, -⟩, -⟩, -⟩ := h
    exact h
  rw [icuPending] at hpend
  split at hpend
  · exact List.mem_append_right _ (of_decide_eq_true hpend)
  · exact List.mem_append_left _ (mem_levelSources hpend)

/-- The better of the best so far and one more source. -/
def betterSource (s : State) (best : Option Nat) (src : Nat) : Option Nat :=
  match best with
  | none => some src
  | some b =>
    if s.get (BLV_ICU_SRC_PRIO b) < s.get (BLV_ICU_SRC_PRIO src) ∨
      (s.get (BLV_ICU_SRC_PRIO b) = s.get (BLV_ICU_SRC_PRIO src) ∧ src < b) then some src else some b

theorem bestSource_eq : bestSource s t = ((levelSources ++ s.icu.pend).filter (deliverable s t)).foldl (betterSource s) none := rfl

/-- Source `x` gives way to `src`. -/
def GivesWay (s : State) (src x : Nat) : Prop :=
  s.get (BLV_ICU_SRC_PRIO x) < s.get (BLV_ICU_SRC_PRIO src) ∨
    (s.get (BLV_ICU_SRC_PRIO x) = s.get (BLV_ICU_SRC_PRIO src) ∧ src < x)

theorem betterSource_keeps {src x : Nat} (h : x ≠ src → GivesWay s src x) : betterSource s (some src) x = some src := by
  refine if_neg fun hb => ?_
  by_cases hx : x = src
  · subst hx
    omega
  · rcases h hx with hw | hw <;> omega

theorem betterSource_takes {src : Nat} {best : Option Nat} (h : ∀ b, best = some b → b ≠ src → GivesWay s src b) :
    betterSource s best src = some src := by
  cases best with
  | none => rfl
  | some b =>
    by_cases hb : b = src
    · rw [hb]
      exact betterSource_keeps fun h => absurd rfl h
    · exact if_pos (h b rfl hb)

/-- Of either, the better one is one of the two. -/
theorem betterSource_mem {best : Option Nat} {x y : Nat} (h : betterSource s best x = some y) : best = some y ∨ y = x := by
  cases best with
  | none => exact .inr (Option.some.inj h).symm
  | some b =>
    unfold betterSource at h
    simp only at h
    split at h
    · exact .inr (Option.some.inj h).symm
    · exact .inl h

theorem foldl_betterSource_keeps {src : Nat} {l : List Nat} (h : ∀ x ∈ l, x ≠ src → GivesWay s src x) :
    l.foldl (betterSource s) (some src) = some src := by
  induction l with
  | nil => rfl
  | cons x l ih =>
    rw [List.foldl_cons, betterSource_keeps (h x List.mem_cons_self)]
    exact ih fun y hy => h y (List.mem_cons_of_mem _ hy)

/-- The source to which all others give way is the best one. -/
theorem foldl_betterSource {src : Nat} {l : List Nat} (hmem : src ∈ l) (h : ∀ x ∈ l, x ≠ src → GivesWay s src x)
    {best : Option Nat} (hbest : ∀ b, best = some b → b ≠ src → GivesWay s src b) : l.foldl (betterSource s) best = some src := by
  induction l generalizing best with
  | nil => simp at hmem
  | cons x l ih =>
    have htail : ∀ y ∈ l, y ≠ src → GivesWay s src y := fun y hy => h y (List.mem_cons_of_mem _ hy)
    rw [List.foldl_cons]
    by_cases hx : x = src
    · rw [hx, betterSource_takes hbest]
      exact foldl_betterSource_keeps htail
    · refine ih ((List.mem_cons.mp hmem).resolve_left fun e => hx e.symm) htail fun b hb hne => ?_
      rcases betterSource_mem hb with hb' | rfl
      · exact hbest b hb' hne
      · exact h _ List.mem_cons_self hne

theorem bestSource_some {src : Nat} (hdel : deliverable s t src = true)
    (hbest : ∀ x, deliverable s t x = true → x ≠ src → GivesWay s src x) : bestSource s t = some src := by
  rw [bestSource_eq]
  exact foldl_betterSource (List.mem_filter.mpr ⟨mem_sources hdel, hdel⟩) (fun x hx => hbest x (List.mem_filter.mp hx).2)
    fun b hb => nomatch hb

theorem bestSource_none (h : ∀ x, deliverable s t x = false) : bestSource s t = none := by
  rw [bestSource_eq, List.filter_eq_nil_iff.mpr fun x _ => by simp [h x]]
  rfl

/-! ### Rows of a target -/

def claimRow : RegDesc := ⟨"BLV_ICU_T_CLAIM", 0x100008002004, [(12, 0x40)], 32, 0x0, [⟨9, 0, .ro⟩], none, none⟩

def completeRow : RegDesc := ⟨"BLV_ICU_T_COMPLETE", 0x100008002008, [(12, 0x40)], 32, 0x0, [⟨9, 0, .wo⟩], none, none⟩

def resetRow : RegDesc := ⟨"BLV_ICU_T_RESET", 0x100008002018, [(12, 0x40)], 32, 0x0, [⟨0, 0, .wo⟩], none, none⟩

def swiRow : RegDesc := ⟨"BLV_ICU_SWI", 0x100008000200, [], 32, 0x0, [⟨9, 0, .wo⟩], none, none⟩

theorem regAt_claim : ∀ t, t < 12 → regAt (BLV_ICU_T_CLAIM t) = some (claimRow, [t], false) := by decide

theorem regAt_complete : ∀ t, t < 12 → regAt (BLV_ICU_T_COMPLETE t) = some (completeRow, [t], false) := by decide

theorem regAt_icuReset : ∀ t, t < 12 → regAt (BLV_ICU_T_RESET t) = some (resetRow, [t], false) := by decide

theorem regAt_swi : regAt BLV_ICU_SWI = some (swiRow, [], false) := by decide

theorem plainRow_claim : ∀ t, t < 12 → PlainRow (BLV_ICU_T_CLAIM t) claimRow := by decide

theorem plainRow_complete : ∀ t, t < 12 → PlainRow (BLV_ICU_T_COMPLETE t) completeRow := by decide

theorem plainRow_icuReset : ∀ t, t < 12 → PlainRow (BLV_ICU_T_RESET t) resetRow := by decide

theorem plainRow_swi : PlainRow BLV_ICU_SWI swiRow := by decide

/-- What an accepted read names. -/
theorem regHit_of_readOk {who : Initiator} {a size : Nat} {d : RegDesc} {is : List Nat} (ok : ReadOk s who a size)
    (hat : regAt a = some (d, is, false)) (hrow : PlainRow a d) : regHit s who a = some ⟨a, d, is, false⟩ := by
  obtain ⟨hlow, hhrc, h4, -⟩ := hrow
  have hbus := busAddr_self (who := who) hlow hhrc
  refine regHit_of_at hbus ?_ h4 hat
  by_contra habs
  rw [Bool.not_eq_false] at habs
  simp [ReadOk, regHit, hbus, habs] at ok

/-- An accepted write has no reserved bit. -/
theorem testBit_of_writeOk {who : Initiator} {a v : Nat} {d : RegDesc} {is : List Nat} (ok : WriteOk s who a v)
    (hat : regAt a = some (d, is, false)) (hrow : PlainRow a d) {i : Nat} (hi : v.testBit i = true) :
    (kindMask d fun _ => true).testBit i = true := by
  have hlt := lt_of_writeOk ok hat hrow
  obtain ⟨hlow, hhrc, h4, -, hfields, -⟩ := hrow
  have hval := (valueCauses_of_writeOk ok (regHit_of_writeOk ok hat hlow hhrc h4)).1
  simp only [valueCauses, List.append_eq_nil_iff] at hval
  obtain ⟨⟨hres, -⟩, -⟩ := hval
  have hzero : reservedBits d v = 0 := by
    by_contra hne
    rw [if_neg hne] at hres
    exact absurd hres (by simp)
  have hi64 : i < 64 := by
    by_contra hge
    rw [Nat.testBit_lt_two_pow (Nat.lt_of_lt_of_le hlt (Nat.pow_le_pow_right (by decide) (by omega)))] at hi
    exact absurd hi (by decide)
  have hbit := congrArg (·.testBit i) hzero
  simp only [reservedBits, Nat.testBit_and, hi, Bool.true_and, Nat.zero_testBit] at hbit
  rw [show 2 ^ 64 - 1 - kindMask d (fun _ => true) = 2 ^ 64 - (kindMask d (fun _ => true) + 1) by omega,
    Nat.testBit_two_pow_sub_succ (kindMask_lt hfields _)] at hbit
  simpa [hi64] using hbit

/-- A row of one field at bit 0 takes that field's value and no other. -/
theorem bitsOf_of_writeOk {who : Initiator} {a v hi : Nat} {d : RegDesc} {is : List Nat} (ok : WriteOk s who a v)
    (hat : regAt a = some (d, is, false)) (hrow : PlainRow a d) (hmask : kindMask d (fun _ => true) = 2 ^ (hi + 1) - 1) :
    bitsOf v hi 0 = v := by
  have hlt : v < 2 ^ (hi + 1) := by
    refine Nat.lt_pow_two_of_testBit v fun i hi' => ?_
    by_contra hset
    have hbit := testBit_of_writeOk ok hat hrow (Bool.not_eq_false _ ▸ hset : v.testBit i = true)
    rw [hmask, Nat.testBit_two_pow_sub_one] at hbit
    have := of_decide_eq_true hbit
    omega
  rw [bitsOf, Nat.shiftRight_zero, Nat.sub_zero, Nat.mod_eq_of_lt hlt]

/-! ### Stacks -/

theorem icuStack_setStack_same (t : Nat) (l : List (Nat × Nat)) : icuStack (s.setStack t l) t = l := tgetD_tset_same ..

theorem icuStack_setStack_ne {k t : Nat} (h : k ≠ t) (l : List (Nat × Nat)) : icuStack (s.setStack t l) k = icuStack s k :=
  tgetD_tset_ne _ _ _ _ _ h

theorem Effect.setStack {regs : List Nat} {parts : List Part} {u : State} (h : Effect regs parts s u) (t : Nat) (l : List (Nat × Nat))
    (hp : Part.icu ∈ parts) : Effect regs parts s (u.setStack t l) :=
  h.components rfl fun p hq => by
    cases p
    case icu => exact absurd hp hq
    all_goals simp [Keeps, State.setStack]

theorem Settled.icuStack {fs : Fuses} {u v : State} (h : Settled fs s u v) (k : Nat) : icuStack v k = icuStack u k := by
  rw [Machine.icuStack, Machine.icuStack, h.stk]

/-- A claimed pulse source is pending no more. -/
def pendTaken (s : State) (src : Nat) : State :=
  if s.on (BLV_ICU_SRC_EDGE src) then { s with icu := { s.icu with pend := s.icu.pend.filter fun x => x ≠ src } } else s

/-- The source goes on the target's stack. -/
def claimStacked (s : State) (t src : Nat) : State := s.setStack t ((src, s.get (BLV_ICU_SRC_PRIO src)) :: icuStack s t)

theorem icuClaim_some {src : Nat} (hen : s.on BLV_ICU_CTRL_ENABLE = true) (hbest : bestSource s t = some src) :
    icuClaim s t = (pendTaken (claimStacked s t src) src, src) := by
  unfold icuClaim
  rw [if_neg (by simp [hen]), hbest]
  rfl

theorem icuClaim_none (hbest : bestSource s t = none) : icuClaim s t = (s, 0) := by
  unfold icuClaim
  rw [hbest]
  split <;> rfl

theorem icuStack_pendTaken (s : State) (src k : Nat) : icuStack (pendTaken s src) k = icuStack s k := by
  unfold pendTaken
  split <;> rfl

theorem Effect.pendTaken {regs : List Nat} {parts : List Part} {u : State} (h : Effect regs parts s u) (src : Nat)
    (hp : Part.icu ∈ parts) : Effect regs parts s (pendTaken u src) :=
  Effect.ite (fun _ => h.components rfl fun p hq => by
    cases p
    case icu => exact absurd hp hq
    all_goals simp [Keeps]) fun _ => h

theorem exec_icuClaim {who : Initiator} (ht : t < 12) (ok : ReadOk s who (BLV_ICU_T_CLAIM t) 4) :
    exec (.icuClaim who t) s = finish s ((icuClaim s t).1.answer (.value (BitVec.ofNat 64 (icuClaim s t).2))) := by
  have hh := regHit_of_readOk ok (regAt_claim t ht) (plainRow_claim t ht)
  have hread : regRead s who (BLV_ICU_T_CLAIM t) 4 = icuClaim s t := by
    unfold regRead
    rw [hh]
    simp only
    rw [accessCauses_of_readOk ok hh, if_neg (by decide), if_pos (show claimRow.base = BLV_ICU_T_CLAIM 0 from rfl)]
    rfl
  show finish s (readOnBus s who (BLV_ICU_T_CLAIM t) 4) = _
  rw [readOnBus, hread]

theorem completes_icuClaim_some (hon : s.powered) {who : Initiator} (ht : t < 12) {src : Nat} (ok : ReadOk s who (BLV_ICU_T_CLAIM t) 4)
    (hen : s.on BLV_ICU_CTRL_ENABLE = true) (hdel : deliverable s t src = true)
    (hbest : ∀ x, deliverable s t x = true → x ≠ src → GivesWay s src x) :
    Completes (.icuClaim who t) s fun u => u.bus = .value (BitVec.ofNat 64 src) ∧
      icuStack u t = (src, s.get (BLV_ICU_SRC_PRIO src)) :: icuStack s t ∧
      (∀ k, k ≠ t → icuStack u k = icuStack s k) ∧ (s.on (BLV_ICU_SRC_EDGE src) = true → src ∉ u.icu.pend) ∧
      ChangesOnly [] [.bus, .icu] s u := by
  have hexec := exec_icuClaim ht ok
  rw [icuClaim_some hen (bestSource_some hdel hbest)] at hexec
  have heff : Effect [] [.bus, .icu] s (pendTaken (claimStacked s t src) src) :=
    (Effect.setStack (Effect.refl s) t _ (by decide)).pendTaken src (by decide)
  refine completes_of_still hexec hon (fun a => heff.rd a (by simp)) fun v hs hicu =>
    ⟨hs.bus, ?_, fun k hk => ?_, fun hedge => ?_, hs.changesOnly (heff.answer _ (by decide))⟩
  · rw [hs.icuStack, ← icuStack_setStack_same (s := s) t ((src, s.get (BLV_ICU_SRC_PRIO src)) :: icuStack s t)]
    exact icuStack_pendTaken _ src t
  · rw [hs.icuStack, ← icuStack_setStack_ne (s := s) hk ((src, s.get (BLV_ICU_SRC_PRIO src)) :: icuStack s t)]
    exact icuStack_pendTaken _ src k
  · have hedge' : (claimStacked s t src).on (BLV_ICU_SRC_EDGE src) = true := hedge
    rw [hicu]
    show src ∉ (pendTaken (claimStacked s t src) src).icu.pend
    rw [pendTaken, if_pos hedge']
    simp

theorem completes_icuClaim_none (hon : s.powered) {who : Initiator} (ht : t < 12) (ok : ReadOk s who (BLV_ICU_T_CLAIM t) 4)
    (hno : ∀ x, deliverable s t x = false) :
    Completes (.icuClaim who t) s fun u => u.bus = .value 0#64 ∧ ChangesOnly [] [.bus] s u := by
  have hexec := exec_icuClaim ht ok
  rw [icuClaim_none (bestSource_none hno)] at hexec
  exact completes_of_settled hexec hon fun v hs => ⟨hs.bus, hs.changesOnly ((Effect.refl s).answer _ (by decide))⟩

/-! ### Completions and resets (R388, R390) -/

/-- The fault of a completion that is not the top of the stack. -/
def completionFault (s : State) (t src expect : Nat) : State :=
  ((if s.on (BLV_ICU_T_FAULT_VALID t) then s
    else (s.put (BLV_ICU_T_FAULT_EXPECT t) expect).put (BLV_ICU_T_FAULT_GIVEN t) src).count (BLV_ICU_T_FAULT_COUNT t) 1).setOn
    (BLV_ICU_T_FAULT_VALID t)

theorem icuComplete_eq (src : Nat) : icuComplete t src s = match icuStack s t with
    | [] => completionFault s t src 0
    | e :: rest => if e.1 = src then s.setStack t rest else completionFault s t src e.1 := rfl

theorem effect_completionFault (src expect : Nat) : Effect [BLV_ICU_T_FAULT t] [] s (completionFault s t src expect) := by
  have hmem (f : Fld) (hf : f.addr = BLV_ICU_T_FAULT t) : f.addr ∈ [BLV_ICU_T_FAULT t] := by simp [hf]
  exact ((Effect.ite (fun _ => Effect.refl s) fun _ => ((Effect.refl s).put expect (hmem _ rfl)).put src (hmem _ rfl)).count 1
    (hmem _ rfl)).setOn (hmem _ rfl)

theorem valid_completionFault (src expect : Nat) : (completionFault s t src expect).on (BLV_ICU_T_FAULT_VALID t) = true :=
  State.on_eq_true_iff.mpr (State.get_setOn (show 63 ≤ 63 ∧ 63 < 64 by decide))

/-- The first fault's source and the one expected, the later ones' not. -/
theorem get_completionFault {f : Fld} (h64 : f.hi < 32) (src expect : Nat) :
    (completionFault s t src expect).get f = (if s.on (BLV_ICU_T_FAULT_VALID t) then s
      else (s.put (BLV_ICU_T_FAULT_EXPECT t) expect).put (BLV_ICU_T_FAULT_GIVEN t) src).get f := by
  rw [completionFault, State.get_setOn_apart (.inr (show 63 ≤ 63 ∧ 63 < 64 ∧ (f.hi < 63 ∨ 63 < f.lo) by omega)),
    State.get_count_apart (.inr (show 32 ≤ 47 ∧ 47 < 64 ∧ (f.hi < 32 ∨ 47 < f.lo) by omega))]

theorem count_completionFault (src expect : Nat) : (completionFault s t src expect).get (BLV_ICU_T_FAULT_COUNT t) =
    satAdd 16 (s.get (BLV_ICU_T_FAULT_COUNT t)) 1 := by
  have hkeep : (if s.on (BLV_ICU_T_FAULT_VALID t) then s
      else (s.put (BLV_ICU_T_FAULT_EXPECT t) expect).put (BLV_ICU_T_FAULT_GIVEN t) src).get (BLV_ICU_T_FAULT_COUNT t) =
      s.get (BLV_ICU_T_FAULT_COUNT t) := by
    split
    · rfl
    · rw [State.get_put_apart (.inr (show 0 ≤ 9 ∧ 9 < 64 ∧ (47 < 0 ∨ 9 < 32) by decide)),
        State.get_put_apart (.inr (show 16 ≤ 25 ∧ 25 < 64 ∧ (47 < 16 ∨ 25 < 32) by decide))]
  rw [completionFault, State.get_setOn_apart (.inr (show 63 ≤ 63 ∧ 63 < 64 ∧ (47 < 63 ∨ 63 < 32) by decide)), ← hkeep]
  exact State.get_count_self (f := BLV_ICU_T_FAULT_COUNT t) (show 32 ≤ 47 ∧ 47 < 64 by decide) 1

theorem given_completionFault {src : Nat} (hsrc : src < 1024) (expect : Nat) (hfirst : s.on (BLV_ICU_T_FAULT_VALID t) = false) :
    (completionFault s t src expect).get (BLV_ICU_T_FAULT_GIVEN t) = src := by
  rw [get_completionFault (show 9 < 32 by decide), if_neg (by simp [hfirst])]
  exact State.get_put_of_lt (show 0 ≤ 9 ∧ 9 < 64 by decide) hsrc

theorem expect_completionFault (src expect : Nat) (hfirst : s.on (BLV_ICU_T_FAULT_VALID t) = false) :
    (completionFault s t src expect).get (BLV_ICU_T_FAULT_EXPECT t) = expect % 1024 := by
  rw [get_completionFault (show 25 < 32 by decide), if_neg (by simp [hfirst]),
    State.get_put_apart (.inr (show 0 ≤ 9 ∧ 9 < 64 ∧ (25 < 0 ∨ 9 < 16) by decide))]
  exact State.get_put_self (show 16 ≤ 25 ∧ 25 < 64 by decide) expect

theorem icuTFault_settles (ht : t < 12) : BLV_ICU_T_FAULT t ≠ DGN_CNT_MERGE ∧ BLV_ICU_T_FAULT t ≠ DGN_EVT :=
  segment_settles (by unfold BLV_ICU_T_FAULT DGN_EPOCH; omega)

theorem writeReg_icuComplete {who : Initiator} {v : Nat} (ht : t < 12) (ok : WriteOk s who (BLV_ICU_T_COMPLETE t) v) :
    writeReg s who (BLV_ICU_T_COMPLETE t) v =
      icuComplete t v (s.wr (BLV_ICU_T_COMPLETE t) (s.rd (BLV_ICU_T_COMPLETE t))) := by
  have hbits : bitsOf v 9 0 = v := bitsOf_of_writeOk ok (regAt_complete t ht) (plainRow_complete t ht) (by decide)
  rw [writeReg_command ok (regAt_complete t ht) (plainRow_complete t ht) (by decide),
    show afterWrite completeRow.base [t] _ _ _ = icuComplete t (bitsOf v 9 0) _ from rfl, hbits]

theorem lt_of_completeOk {who : Initiator} {v : Nat} (ht : t < 12) (ok : WriteOk s who (BLV_ICU_T_COMPLETE t) v) : v < 1024 := by
  have hbits : bitsOf v 9 0 = v := bitsOf_of_writeOk ok (regAt_complete t ht) (plainRow_complete t ht) (by decide)
  rw [← hbits, bitsOf]
  exact Nat.mod_lt _ (by decide)

theorem completes_icuComplete_top (hon : s.powered) {who : Initiator} (ht : t < 12) {v : Word64}
    (ok : WriteOk s who (BLV_ICU_T_COMPLETE t) v.toNat) {prio : Nat} {rest : List (Nat × Nat)}
    (htop : icuStack s t = (v.toNat, prio) :: rest) : Completes (.icuComplete who t v) s fun u =>
      icuStack u t = rest ∧ (∀ k, k ≠ t → icuStack u k = icuStack s k) ∧ ChangesOnly [] [.icu] s u := by
  have hwrite := writeReg_icuComplete ht ok
  have hself := Effect.wrSelf (regs := []) (parts := [.icu]) s (BLV_ICU_T_COMPLETE t)
  have hstack (k : Nat) : icuStack (s.wr (BLV_ICU_T_COMPLETE t) (s.rd (BLV_ICU_T_COMPLETE t))) k = icuStack s k := rfl
  generalize s.wr (BLV_ICU_T_COMPLETE t) (s.rd (BLV_ICU_T_COMPLETE t)) = u at hwrite hself hstack
  rw [icuComplete_eq, hstack, htop] at hwrite
  simp only [if_true] at hwrite
  refine completes_of_settled (congrArg (finish s) hwrite) hon fun w hs => ⟨?_, fun k hk => ?_, hs.changesOnly
    (hself.setStack t rest (by decide))⟩
  · rw [hs.icuStack, icuStack_setStack_same]
  · rw [hs.icuStack, icuStack_setStack_ne hk, hstack]

theorem completes_icuComplete_fault (hon : s.powered) {who : Initiator} (ht : t < 12) {v : Word64}
    (ok : WriteOk s who (BLV_ICU_T_COMPLETE t) v.toNat) (htop : ∀ e, (icuStack s t).head? = some e → e.1 ≠ v.toNat) :
    Completes (.icuComplete who t v) s fun u => u.on (BLV_ICU_T_FAULT_VALID t) = true ∧
      u.get (BLV_ICU_T_FAULT_COUNT t) = satAdd 16 (s.get (BLV_ICU_T_FAULT_COUNT t)) 1 ∧
      (s.on (BLV_ICU_T_FAULT_VALID t) = false → u.get (BLV_ICU_T_FAULT_GIVEN t) = v.toNat ∧
        ∀ e, (icuStack s t).head? = some e → u.get (BLV_ICU_T_FAULT_EXPECT t) = e.1 % 1024) ∧
      ChangesOnly [BLV_ICU_T_FAULT t] [] s u := by
  have hwrite := writeReg_icuComplete ht ok
  have hself := Effect.wrSelf (regs := [BLV_ICU_T_FAULT t]) (parts := []) s (BLV_ICU_T_COMPLETE t)
  have hget (f : Fld) : (s.wr (BLV_ICU_T_COMPLETE t) (s.rd (BLV_ICU_T_COMPLETE t))).get f = s.get f := by
    rw [State.get, State.get, State.rd_wr_self]
  have hstack (k : Nat) : icuStack (s.wr (BLV_ICU_T_COMPLETE t) (s.rd (BLV_ICU_T_COMPLETE t))) k = icuStack s k := rfl
  generalize s.wr (BLV_ICU_T_COMPLETE t) (s.rd (BLV_ICU_T_COMPLETE t)) = u at hwrite hself hstack hget
  obtain ⟨expect, hfault, hexpect⟩ : ∃ expect, icuComplete t v.toNat u = completionFault u t v.toNat expect ∧
      ∀ e, (icuStack s t).head? = some e → expect = e.1 := by
    rw [icuComplete_eq, hstack]
    cases hst : icuStack s t with
    | nil => exact ⟨0, rfl, fun e he => nomatch he⟩
    | cons e rest =>
      refine ⟨e.1, if_neg (htop e (by rw [hst]; rfl)), fun e' he => ?_⟩
      rw [Option.some.inj (he : some e = some e')]
  rw [hfault] at hwrite
  obtain ⟨h1, h2⟩ := icuTFault_settles ht
  refine completes_of_settled (congrArg (finish s) hwrite) hon fun w hs => ⟨?_, ?_, fun hfirst => ⟨?_, fun e he => ?_⟩,
    hs.changesOnly (hself.trans (effect_completionFault _ _))⟩
  · rw [hs.on _ h1 h2, valid_completionFault]
  · rw [hs.get _ h1 h2, count_completionFault, hget]
  · rw [hs.get _ h1 h2, given_completionFault (lt_of_completeOk ht ok) _ ((State.on_congr (hget _)).trans hfirst)]
  · rw [hs.get _ h1 h2, expect_completionFault _ _ ((State.on_congr (hget _)).trans hfirst), hexpect e he]

theorem completes_icuReset (hon : s.powered) {who : Initiator} (ht : t < 12) {v : Word64}
    (ok : WriteOk s who (BLV_ICU_T_RESET t) (v.toNat ||| 1)) : Completes (.icuReset who t v) s fun u =>
      icuStack u t = [] ∧ (∀ k, k ≠ t → icuStack u k = icuStack s k) ∧ ChangesOnly [] [.icu] s u := by
  have hbit : (v.toNat ||| 1).testBit 0 = true := by
    rw [Nat.testBit_or, show Nat.testBit 1 0 = true from rfl, Bool.or_true]
  have hwrite := writeReg_command ok (regAt_icuReset t ht) (plainRow_icuReset t ht) (by decide)
  rw [show afterWrite resetRow.base [t] _ _ _ = onIf ((v.toNat ||| 1).testBit 0) (·.setStack t []) _ from rfl, hbit] at hwrite
  refine completes_of_settled (congrArg (finish s) hwrite) hon fun w hs => ⟨?_, fun k hk => ?_, hs.changesOnly
    ((Effect.wrSelf s _).setStack t [] (by decide))⟩
  · rw [hs.icuStack]
    exact icuStack_setStack_same t []
  · rw [hs.icuStack]
    exact icuStack_setStack_ne hk []

/-! ### Software interrupts (R393) -/

theorem writeReg_swi {who : Initiator} {v : Nat} (ok : WriteOk s who BLV_ICU_SWI v) (hlo : 256 ≤ v) (hhi : v ≤ 511) :
    writeReg s who BLV_ICU_SWI v = (s.wr BLV_ICU_SWI (s.rd BLV_ICU_SWI)).pulse v := by
  have hbits : bitsOf v 9 0 = v := bitsOf_of_writeOk ok regAt_swi plainRow_swi (by decide)
  rw [writeReg_command ok regAt_swi plainRow_swi (by decide),
    show afterWrite swiRow.base [] _ _ _ = icuSwi (bitsOf v 9 0) _ from rfl, hbits]
  exact if_pos ⟨hlo, hhi⟩

theorem completes_icuSwi_new (hon : s.powered) {who : Initiator} {v : Word64} (ok : WriteOk s who BLV_ICU_SWI v.toNat)
    (hlo : 256 ≤ v.toNat) (hhi : v.toNat ≤ 511) (hedge : s.on (BLV_ICU_SRC_EDGE v.toNat) = true) (hnew : v.toNat ∉ s.icu.pend) :
    Completes (.icuSwi who v) s fun t =>
      icuPending t v.toNat = true ∧ (∀ x, x ∈ s.icu.pend → x ∈ t.icu.pend) ∧ ChangesOnly [] [] s t := by
  have hwrite := writeReg_swi ok hlo hhi
  have hself := Effect.wrSelf (regs := [DGN_CNT_MERGE, DGN_EVT]) (parts := []) s BLV_ICU_SWI
  have hedge' : (s.wr BLV_ICU_SWI (s.rd BLV_ICU_SWI)).on (BLV_ICU_SRC_EDGE v.toNat) = true := by
    rw [← hedge]
    exact State.on_congr (by rw [State.get, State.get, State.rd_wr_self])
  have hpend : (s.wr BLV_ICU_SWI (s.rd BLV_ICU_SWI)).icu.pend = s.icu.pend := rfl
  generalize s.wr BLV_ICU_SWI (s.rd BLV_ICU_SWI) = u at hwrite hself hedge' hpend
  refine completes_of_settled_events (congrArg (finish s) hwrite) hon fun t hs hk =>
    ⟨icuPending_of_pulse (by omega) hs hk hedge', fun x hx => hk.pend x ?_,
      hs.changesOnly_pulsed (hself.pulse _ (by decide) (by decide))⟩
  rw [State.pulse, if_pos hedge', hpend, if_neg hnew]
  exact List.mem_cons_of_mem _ (hpend ▸ hx)

theorem completes_icuSwi_merge (hon : s.powered) {who : Initiator} {v : Word64} (ok : WriteOk s who BLV_ICU_SWI v.toNat)
    (hlo : 256 ≤ v.toNat) (hhi : v.toNat ≤ 511) (hedge : s.on (BLV_ICU_SRC_EDGE v.toNat) = true) (hold : v.toNat ∈ s.icu.pend) :
    Completes (.icuSwi who v) s fun t =>
      satAdd 32 (s.get DGN_CNT_MERGE_VALUE) 1 ≤ t.get DGN_CNT_MERGE_VALUE ∧ t.on DGN_EVT_MERGE = true ∧ ChangesOnly [] [] s t := by
  have hwrite := writeReg_swi ok hlo hhi
  have hself := Effect.wrSelf (regs := [DGN_CNT_MERGE, DGN_EVT]) (parts := []) s BLV_ICU_SWI
  have hget (f : Fld) : (s.wr BLV_ICU_SWI (s.rd BLV_ICU_SWI)).get f = s.get f := by rw [State.get, State.get, State.rd_wr_self]
  have hpend : (s.wr BLV_ICU_SWI (s.rd BLV_ICU_SWI)).icu.pend = s.icu.pend := rfl
  generalize s.wr BLV_ICU_SWI (s.rd BLV_ICU_SWI) = u at hwrite hself hget hpend
  obtain ⟨hcount, hevent⟩ := merge_counted u
  have hpulse : u.pulse v.toNat = (u.count DGN_CNT_MERGE_VALUE 1).setOn DGN_EVT_MERGE := by
    rw [State.pulse, if_pos ((State.on_congr (hget _)).trans hedge), if_pos (hpend ▸ hold)]
  refine completes_of_merged (congrArg (finish s) hwrite) hon fun t hs hk =>
    ⟨?_, hk.event (hpulse ▸ hevent), hs.changesOnly_pulsed (hself.pulse _ (by decide) (by decide))⟩
  rw [← hget, ← hcount, ← hpulse]
  exact hk.count

/-! ### Timed input pins (R394) -/

/-- The level of a pin as its edge leaves it. -/
def pinTaken (s : State) (p : Nat) (level : Bool) : State :=
  s.put BLV_TIO_IN_BITS (withBits (s.get BLV_TIO_IN_BITS) p p (ofBool level))

/-- An unread capture is overrun. -/
def pinOverrun (s : State) (p : Nat) : State := onIf (s.tioUnread.testBit p) (·.setOn (BLV_TIO_CFG_OVR p)) s

/-- The time of an edge, captured. -/
def pinStamped (s : State) (p : Nat) : State :=
  (s.wr (BLV_TIO_TSLO p) (BitVec.ofNat 64 (s.nowNs % 1000000000))).wr (BLV_TIO_TSHI p)
    (BitVec.ofNat 64 ((s.wr (BLV_TIO_TSLO p) (BitVec.ofNat 64 (s.nowNs % 1000000000))).nowNs / 1000000000))

/-- The capture is unread. -/
def pinUnread (s : State) (p : Nat) : State := { s with tioUnread := s.tioUnread ||| 2 ^ p }

/-- A selected edge of a pin is captured. -/
def pinCaptured (s : State) (p : Nat) (level : Bool) : State := pinUnread (pinStamped (pinOverrun (pinTaken s p level) p) p) p

theorem level_pinTaken {p : Nat} (hp : p < 32) (level : Bool) : ((pinTaken s p level).get BLV_TIO_IN_BITS).testBit p = level := by
  rw [pinTaken, State.get_put_self (by decide), Nat.testBit_mod_two_pow, testBit_withBits _ _ _ _ _ (by omega), if_pos (by omega),
    Nat.sub_self]
  have hin : p < BLV_TIO_IN_BITS.hi + 1 - BLV_TIO_IN_BITS.lo := hp
  cases level <;> simp [hin, ofBool]

theorem effect_pinTaken (p : Nat) (level : Bool) : Effect [BLV_TIO_IN] [] s (pinTaken s p level) := (Effect.refl s).put _ (by decide)

/-- The registers of a pin. -/
def pinRegs (p : Nat) : List Nat := [BLV_TIO_CFG p, BLV_TIO_TSLO p, BLV_TIO_TSHI p]

theorem effect_pinOverrun (p : Nat) : Effect (pinRegs p) [.harts] s (pinOverrun s p) :=
  (Effect.refl s).onIf fun _ => (Effect.refl s).setOn (by simp [BLV_TIO_CFG_OVR, pinRegs])

theorem effect_pinStamped (p : Nat) : Effect (pinRegs p) [.harts] s (pinStamped s p) :=
  ((Effect.refl s).wr _ (by simp [pinRegs])).wr _ (by simp [pinRegs])

theorem Effect.pinUnread {regs : List Nat} {parts : List Part} {u : State} (h : Effect regs parts s u) (p : Nat)
    (hp : Part.harts ∈ parts) : Effect regs parts s (pinUnread u p) :=
  h.components rfl fun q hq => by
    cases q
    case harts => exact absurd hp hq
    all_goals simp [Keeps, Machine.pinUnread]

theorem get_pinUnread (p : Nat) (f : Fld) : (pinUnread s p).get f = s.get f := rfl

theorem unread_pinUnread (p : Nat) : (pinUnread s p).tioUnread.testBit p = true := by
  show (s.tioUnread ||| 2 ^ p).testBit p = true
  rw [Nat.testBit_or, Nat.testBit_two_pow_self, Bool.or_true]

theorem tioUnread_pulse (s : State) (src : Nat) : (s.pulse src).tioUnread = s.tioUnread := by
  unfold State.pulse
  split
  · split <;> rfl
  · rfl

theorem pin_addresses {p : Nat} (hp : p < 32) : BLV_TIO_IN ∉ pinRegs p ∧ BLV_ICU_SRC (192 + p) ∉ BLV_TIO_IN :: pinRegs p ∧
    BLV_TIO_TSLO p ≠ BLV_TIO_TSHI p ∧ BLV_TIO_CFG p ≠ BLV_TIO_TSLO p ∧ BLV_TIO_CFG p ≠ BLV_TIO_TSHI p ∧
    (∀ a ∈ pinRegs p, a ≠ DGN_CNT_MERGE ∧ a ≠ DGN_EVT) ∧ TIM_CTRL ∉ BLV_TIO_IN :: pinRegs p := by
  revert p
  decide

theorem ns_pinStamped {p : Nat} (hp : p < 32) : (pinStamped s p).get (BLV_TIO_TSLO_NS p) = s.nowNs % 1000000000 := by
  obtain ⟨-, -, hne, -⟩ := pin_addresses hp
  rw [pinStamped, State.get_wr_ne hne, State.get, show (BLV_TIO_TSLO_NS p).addr = BLV_TIO_TSLO p from rfl, State.rd_wr_same,
    BitVec.toNat_ofNat, show (BLV_TIO_TSLO_NS p).hi = 29 from rfl, show (BLV_TIO_TSLO_NS p).lo = 0 from rfl, bitsOf, Nat.shiftRight_zero]
  omega

theorem sec_pinStamped (p : Nat) : (pinStamped s p).get (BLV_TIO_TSHI_SEC p) = s.nowNs / 1000000000 % 2 ^ 48 := by
  have hnow : (s.wr (BLV_TIO_TSLO p) (BitVec.ofNat 64 (s.nowNs % 1000000000))).nowNs = s.nowNs :=
    nowNs_congr rfl (Effect.epochMode (regs := [BLV_TIO_TSLO p]) (parts := []) ((Effect.refl s).wr _ (by simp))
      (by unfold TIM_CTRL BLV_TIO_TSLO; simp only [List.mem_singleton]; omega))
  rw [pinStamped, hnow, State.get, show (BLV_TIO_TSHI_SEC p).addr = BLV_TIO_TSHI p from rfl, State.rd_wr_same, BitVec.toNat_ofNat,
    show (BLV_TIO_TSHI_SEC p).hi = 47 from rfl, show (BLV_TIO_TSHI_SEC p).lo = 0 from rfl, bitsOf, Nat.shiftRight_zero]
  omega

theorem nowNs_pinOverrun {p : Nat} (hp : p < 32) (level : Bool) : (pinOverrun (pinTaken s p level) p).nowNs = s.nowNs := by
  have heff : Effect (BLV_TIO_IN :: pinRegs p) [.harts] s (pinOverrun (pinTaken s p level) p) :=
    ((effect_pinTaken p level).mono (by simp) (by simp)).trans ((effect_pinOverrun p).mono (by simp) (by simp))
  obtain ⟨-, -, -, -, -, -, hctrl⟩ := pin_addresses hp
  refine nowNs_congr ?_ (heff.epochMode hctrl)
  unfold pinOverrun onIf
  split <;> rfl

theorem exec_tioInputEdge {p : Nat} (hp : p < 32) {level : Bool} (hdir : s.on (BLV_TIO_CFG_DIR p) = false)
    (hlev : (s.get BLV_TIO_IN_BITS).testBit p ≠ level) : exec (.tioInputEdge p level) s = finish s
      (if !((pinTaken s p level).get (BLV_TIO_CFG_EDGE p)).testBit (ofBool (!level)) then pinTaken s p level
       else (pinCaptured s p level).pulse (192 + p)) := by
  have hgo : ¬ (32 ≤ p ∨ s.on (BLV_TIO_CFG_DIR p) = true ∨ (s.get BLV_TIO_IN_BITS).testBit p = level) := by
    simp only [hdir, hlev, or_false, Bool.false_eq_true]
    omega
  show execTioInputEdge p level s = _
  unfold execTioInputEdge
  rw [if_neg hgo]
  rfl

theorem edge_pinTaken (p : Nat) (level : Bool) : (pinTaken s p level).get (BLV_TIO_CFG_EDGE p) = s.get (BLV_TIO_CFG_EDGE p) :=
  State.get_put_apart (.inl (by unfold BLV_TIO_CFG_EDGE BLV_TIO_CFG BLV_TIO_IN_BITS BLV_TIO_IN; simp only; omega)) _

theorem completes_tioInputEdge_plain (hon : s.powered) {p : Nat} (hp : p < 32) {level : Bool}
    (hdir : s.on (BLV_TIO_CFG_DIR p) = false) (hlev : (s.get BLV_TIO_IN_BITS).testBit p ≠ level)
    (hedge : (s.get (BLV_TIO_CFG_EDGE p)).testBit (ofBool (!level)) = false) :
    Completes (.tioInputEdge p level) s fun t => (t.get BLV_TIO_IN_BITS).testBit p = level ∧ ChangesOnly [BLV_TIO_IN] [] s t := by
  have hexec := exec_tioInputEdge hp hdir hlev
  rw [edge_pinTaken, hedge, if_pos (by decide)] at hexec
  refine completes_of_settled hexec hon fun t hs => ⟨?_, hs.changesOnly (effect_pinTaken p level)⟩
  rw [hs.get _ (by decide) (by decide), level_pinTaken hp]

theorem completes_tioInputEdge_captured (hon : s.powered) {p : Nat} (hp : p < 32) {level : Bool}
    (hdir : s.on (BLV_TIO_CFG_DIR p) = false) (hlev : (s.get BLV_TIO_IN_BITS).testBit p ≠ level)
    (hedge : (s.get (BLV_TIO_CFG_EDGE p)).testBit (ofBool (!level)) = true) :
    Completes (.tioInputEdge p level) s fun t => (t.get BLV_TIO_IN_BITS).testBit p = level ∧
      t.get (BLV_TIO_TSLO_NS p) = s.nowNs % 1000000000 ∧ t.get (BLV_TIO_TSHI_SEC p) = s.nowNs / 1000000000 % 2 ^ 48 ∧
      t.tioUnread.testBit p = true ∧ (s.tioUnread.testBit p = true → t.on (BLV_TIO_CFG_OVR p) = true) ∧
      (s.on (BLV_ICU_SRC_EDGE (192 + p)) = true → icuPending t (192 + p) = true) ∧
      ChangesOnly [BLV_TIO_IN, BLV_TIO_CFG p, BLV_TIO_TSLO p, BLV_TIO_TSHI p] [.harts] s t := by
  have hexec := exec_tioInputEdge hp hdir hlev
  rw [edge_pinTaken, hedge, if_neg (by decide)] at hexec
  obtain ⟨hin, hsrc, -, hcfglo, hcfghi, hset, -⟩ := pin_addresses hp
  have htaken := effect_pinTaken (s := s) p level
  have hlevel := level_pinTaken (s := s) hp level
  have hnow := nowNs_pinOverrun (s := s) hp level
  have hover := effect_pinOverrun (s := pinTaken s p level) p
  have hovr : s.tioUnread.testBit p = true → (pinOverrun (pinTaken s p level) p).on (BLV_TIO_CFG_OVR p) = true := fun h => by
    have h' : (pinTaken s p level).tioUnread.testBit p = true := h
    rw [pinOverrun, h', onIf, if_pos rfl, State.on_eq_true_iff]
    exact State.get_setOn (show 3 ≤ 3 ∧ 3 < 64 by decide)
  rw [pinCaptured] at hexec
  generalize pinOverrun (pinTaken s p level) p = u at hexec hnow hover hovr
  have hstamp := effect_pinStamped (s := u) p
  have hpins : Effect (BLV_TIO_IN :: pinRegs p) [.harts] s (pinUnread (pinStamped u p) p) :=
    (((htaken.mono (by simp) (by simp)).trans (hover.mono (by simp) (by simp))).trans (hstamp.mono (by simp) (by simp))).pinUnread p
      (by simp)
  have hline := pulse_line (pinUnread (pinStamped u p) p) (192 + p)
  refine completes_of_settled_events hexec hon fun t hs hk => ⟨?_, ?_, ?_, ?_, fun hold => ?_, fun hsel => ?_, ?_⟩
  · rw [hs.get _ (by decide) (by decide), hline.get _ (by decide) (by decide), get_pinUnread, hstamp.get hin, hover.get hin, hlevel]
  · obtain ⟨h1, h2⟩ := hset (BLV_TIO_TSLO p) (by simp [pinRegs])
    rw [hs.get _ h1 h2, hline.get _ h1 h2, get_pinUnread, ns_pinStamped hp, hnow]
  · obtain ⟨h1, h2⟩ := hset (BLV_TIO_TSHI p) (by simp [pinRegs])
    rw [hs.get _ h1 h2, hline.get _ h1 h2, get_pinUnread, sec_pinStamped, hnow]
  · rw [hs.tioUnread, tioUnread_pulse, unread_pinUnread]
  · obtain ⟨h1, h2⟩ := hset (BLV_TIO_CFG p) (by simp [pinRegs])
    rw [hs.on _ h1 h2, State.on_congr (hline.get _ h1 h2), State.on_congr (get_pinUnread p _), pinStamped,
      State.on_congr (State.get_wr_ne hcfghi _), State.on_congr (State.get_wr_ne hcfglo _), hovr hold]
  · exact icuPending_of_pulse (by omega) hs hk ((hpins.on hsrc).trans hsel)
  · exact hs.changesOnly_pulsed ((hpins.mono (by simp [pinRegs]) (List.Subset.refl _)).pulse _ (by simp) (by simp))

/-! ### A hart's D-TCM (R377, R382) -/

section

variable {h a len : Nat} (hon : s.powered) (hh : h < 4) (hlo : 1 ≤ len) (hhi : len ≤ 8) (ha : 0x40000 ≤ a) (hend : a + len ≤ 0x80000)
include hon hh hlo hhi ha hend

omit hon hh hhi in
/-- The hart's own data memory lies at 0x40000. -/
theorem privateTarget_tcm : privateTarget h a len = .sram (tcmPlace h 1 (a - 0x40000)) := by
  have hfirst : ¬ runIn a len 0 0x40000 = true := by
    simp only [runIn, Bool.and_eq_true, decide_eq_true_eq]
    omega
  have hsecond : runIn a len 0x40000 0x40000 = true := by
    simp only [runIn, Bool.and_eq_true, decide_eq_true_eq]
    omega
  rw [privateTarget, if_neg hfirst, if_pos hsecond]

omit hon in
theorem exec_tcmAccess (write : Bool) (data : List Byte) (ecc : Nat) :
    exec (.hartPrivateAccess h (if write then 2 else 1) a len data ecc) s =
      finish s (sramAccess s write (tcmPlace h 1 (a - 0x40000)) len data ecc) := by
  have hkind : ((if write then 2 else 1 : Nat) == 2) = write := by cases write <;> rfl
  have hbad : ¬ (4 ≤ h ∨ 3 ≤ (if write then 2 else 1 : Nat) ∨ len = 0 ∨ 8 < len) := by
    cases write <;> simp <;> omega
  have hkind0 : (if write then 2 else 1 : Nat) ≠ 0 := by cases write <;> decide
  show execHartPrivateAccess h (if write then 2 else 1) a len data ecc s = _
  unfold execHartPrivateAccess
  rw [if_neg hbad, if_neg hkind0, hkind, privateAccess, privateTarget_tcm hlo ha hend]
  simp only
  rw [if_neg (by omega)]

theorem completes_tcmStore {data : List Byte} (hlen : data.length = len) :
    Completes (.hartPrivateAccess h 2 a len data 0) s fun t => t.bus = .none ∧
      (∀ b, memGet t.mem b = memGet (s.store (tcmPlace h 1 (a - 0x40000)) data).mem b) ∧ ChangesOnly [] [.bus, .mem] s t := by
  have hpad : padBytes len data = data := by rw [padBytes, ← hlen, List.take_length, Nat.sub_self, List.replicate_zero, List.append_nil]
  have hexec := exec_tcmAccess (s := s) hh hlo hhi ha hend true data 0
  rw [show sramAccess s true (tcmPlace h 1 (a - 0x40000)) len data 0 =
    (s.store (tcmPlace h 1 (a - 0x40000)) (padBytes len data)).answer .none by simp [sramAccess], hpad] at hexec
  refine completes_of_settled hexec hon fun t hs => ⟨hs.bus, fun b => ?_, hs.changesOnly
    (((Effect.refl s).store _ _ (by decide)).answer _ (by decide))⟩
  rw [hs.mem]
  rfl

theorem completes_tcmLoad : Completes (.hartPrivateAccess h 1 a len [] 0) s fun t =>
    t.bus = .bytes (s.load (tcmPlace h 1 (a - 0x40000)) len) ∧ ChangesOnly [] [.bus] s t := by
  have hexec := exec_tcmAccess (s := s) hh hlo hhi ha hend false [] 0
  rw [show sramAccess s false (tcmPlace h 1 (a - 0x40000)) len [] 0 =
    s.answer (.bytes (s.load (tcmPlace h 1 (a - 0x40000)) len)) by simp [sramAccess]] at hexec
  exact completes_of_settled hexec hon fun t hs => ⟨hs.bus, hs.changesOnly ((Effect.refl s).answer _ (by decide))⟩

theorem completes_tcmFault : Completes (.hartPrivateAccess h 1 a len [] 2) s fun t =>
    t.bus = .accessFault ∧ t.get BLV_SRAM_UE_VALUE = satAdd 32 (s.get BLV_SRAM_UE_VALUE) 1 ∧
      ChangesOnly [BLV_SRAM_UE] [.bus] s t := by
  have hexec := exec_tcmAccess (s := s) hh hlo hhi ha hend false [] 2
  rw [show sramAccess s false (tcmPlace h 1 (a - 0x40000)) len [] 2 =
    (s.count BLV_SRAM_UE_VALUE 1).answer .accessFault by simp [sramAccess, readsUnit]] at hexec
  refine completes_of_settled hexec hon fun t hs => ⟨hs.bus, ?_, hs.changesOnly
    (((Effect.refl s).count 1 (by decide)).answer _ (by decide))⟩
  rw [hs.get _ (by decide) (by decide)]
  exact State.get_count_self (f := BLV_SRAM_UE_VALUE) (by decide) 1

end

end

/-- Settles O32: the claim takes the one source to which every other deliverable source gives way; the other clauses follow the
command's one step. -/
theorem targetsSoftwareInterruptsPinsAndTcm : Obligations.TargetsSoftwareInterruptsPinsAndTcm := by
  refine ⟨fun s who t hon ht => ⟨fun src ok hen hdel hbest => completes_icuClaim_some hon ht ok hen hdel hbest,
    fun ok hno => completes_icuClaim_none hon ht ok hno,
    fun v ok => ⟨fun prio rest htop => completes_icuComplete_top hon ht ok htop,
      fun htop => completes_icuComplete_fault hon ht ok htop⟩, fun v ok => completes_icuReset hon ht ok⟩, fun s hon => ⟨?_, ?_, ?_⟩⟩
  · exact fun who v ok hlo hhi hedge => ⟨fun hnew => completes_icuSwi_new hon ok hlo hhi hedge hnew,
      fun hold => completes_icuSwi_merge hon ok hlo hhi hedge hold⟩
  · exact fun p level hp hdir hlev => ⟨fun hedge => completes_tioInputEdge_captured hon hp hdir hlev hedge,
      fun hedge => completes_tioInputEdge_plain hon hp hdir hlev hedge⟩
  · exact fun h a len data hh hlo hhi ha hend hlen => ⟨completes_tcmStore hon hh hlo hhi ha hend hlen,
      completes_tcmLoad hon hh hlo hhi ha hend, completes_tcmFault hon hh hlo hhi ha hend⟩

end Sys2Proof.Machine
end
section
/-! Occupancy of Trellis: the scan, the broadcasts, the commit (R359, R360, R361, R364). -/

namespace Sys2Proof.Machine

open Sys2Proof Sys2Proof.Machine.Reg

/-! ### Sorted lists -/

theorem mem_insertBy {α : Type} (le : α → α → Bool) (x y : α) (l : List α) : y ∈ insertBy le x l ↔ y = x ∨ y ∈ l := by
  induction l with
  | nil => simp [insertBy]
  | cons z l ih =>
    unfold insertBy
    split
    · simp
    · simp only [List.mem_cons, ih]
      tauto

theorem mem_foldl_insertBy {α : Type} (le : α → α → Bool) (y : α) (xs acc : List α) :
    y ∈ xs.foldl (fun acc x => insertBy le x acc) acc ↔ y ∈ xs ∨ y ∈ acc := by
  induction xs generalizing acc with
  | nil => simp
  | cons x xs ih =>
    simp only [List.foldl_cons, ih, mem_insertBy, List.mem_cons]
    tauto

theorem mem_sortBy {α : Type} (le : α → α → Bool) (y : α) (xs : List α) : y ∈ sortBy le xs ↔ y ∈ xs := by
  simp [sortBy, mem_foldl_insertBy]

/-! ### What Trellis reads, writes and shows -/

theorem Effect.trl {regs : List Nat} {parts : List Part} {s t : State} (h : Effect regs parts s t) (x : Trellis)
    (hp : Part.trl ∈ parts) : Effect regs parts s (t.setTrl x) :=
  h.components rfl fun p hq => by
    cases p
    case trl => exact absurd hp hq
    all_goals simp [Keeps, State.setTrl]

section

variable {s : State}

theorem effect_trlRead (a n : Nat) : Effect accessRegs engineParts s (trlRead s a n).1 := effect_engineRead 5 0 a n

theorem effect_trlStat : Effect [TRL_STAT, TRL_CTRL] [] s (trlStat s) :=
  ((((Effect.refl s).put _ (by decide)).put _ (by decide)).put _ (by decide)).put _ (by decide)

theorem trl_trlStat (s : State) : (trlStat s).trl = s.trl := rfl

/-- The registers of a plan and of an ingest, with the pulses that may merge. -/
def occRegs : List Nat := DGN_CNT_MERGE :: DGN_EVT :: planRegs

theorem accessRegs_subset_occRegs : accessRegs ⊆ occRegs := by decide

theorem Effect.trlStat {regs : List Nat} {parts : List Part} {t : State} (h : Effect regs parts s t) (hr : [TRL_STAT, TRL_CTRL] ⊆ regs) :
    Effect regs parts s (trlStat t) := h.trans (effect_trlStat.mono hr (List.nil_subset _))

/-! ### The scan (R359) -/

theorem get_trlReads {s1 s2 s3 : State} {h w f : List Byte} {a b c l m n : Nat} (h1 : trlRead s a l = (s1, h))
    (h2 : trlRead s1 b m = (s2, w)) (h3 : trlRead s2 c n = (s3, f)) : Effect accessRegs engineParts s s3 := by
  have e1 := effect_trlRead (s := s) a l
  have e2 := effect_trlRead (s := s1) b m
  have e3 := effect_trlRead (s := s2) c n
  rw [h1] at e1
  rw [h2] at e2
  rw [h3] at e3
  exact (e1.trans e2).trans e3

theorem scanGrid_congr {t : State} (h : t.rd TRL_OCC_CFG = s.rd TRL_OCC_CFG) (zv : Nat) (w f : List Byte) (nf : Nat) :
    scanGrid t zv w f nf = scanGrid s zv w f nf := by
  have hget (g : Fld) (hg : g.addr = TRL_OCC_CFG) : t.get g = s.get g := by rw [State.get, State.get, hg, h]
  unfold scanGrid occZpb occN
  rw [hget TRL_OCC_CFG_OTHR rfl, State.on_congr (hget TRL_OCC_CFG_UNKOCC rfl), hget TRL_OCC_CFG_OCCF rfl, hget TRL_OCC_CFG_ZPB rfl,
    hget TRL_OCC_CFG_NOCC rfl]

/-- NEXT of a scan that was not torn, and the voxels in which it differs. -/
def scanTaken (s : State) (ig : Ingest) (next : List Nat) : State :=
  s.setTrl { s.trl with ingest := some { ig with
    next := some next, at_ := s.cyc
    todo := sortBy (fun a b => a ≤ b) (next.filter (fun v => v ∉ s.trl.cur) ++ s.trl.cur.filter (fun v => v ∉ next)) } }

section

variable {ig : Ingest} {b : TrlBank} {s1 s2 s3 : State} {h w f : List Byte} (hig : s.trl.ingest = some ig) (hb : s.trl.bank = some b)
  (hnext : ig.next = none) (hat : ig.at_ ≤ s.cyc) (h1 : trlRead s ig.buf 28 = (s1, h))
  (h2 : trlRead s1 (ig.buf + 65536) 131072 = (s2, w)) (h3 : trlRead s2 (ig.buf + 196608) (131072 * leField h 20 2) = (s3, f))
include hig hb hnext hat h1 h2 h3

theorem exec_occScanEnd : exec .occScanEnd s = finish s
    (if ig.gen0 ≠ ig.gen ∨ leField h 16 4 ≠ ig.gen then ingestAgain s3 ig.gen
      else scanTaken s3 ig (scanGrid s3 b.zv w f (leField h 20 2))) := by
  have hgo : ¬ (ig.next.isSome = true ∨ s.cyc < ig.at_) := by
    simp only [hnext, Option.isSome_none, Bool.false_eq_true, false_or]
    omega
  show execOccScanEnd s = _
  unfold execOccScanEnd
  rw [hig, hb]
  simp only
  rw [if_neg hgo, h1]
  simp only
  rw [h2]
  simp only
  rw [h3]
  rfl

theorem completes_occScanEnd_good (hon : s.powered) (hgen0 : ig.gen0 = ig.gen) (hgen : leField h 16 4 = ig.gen) :
    Completes .occScanEnd s fun t => (∃ ig', t.trl.ingest = some ig' ∧
        ig'.next = some (scanGrid s b.zv w f (leField h 20 2)) ∧
        ∀ v, v ∈ ig'.todo ↔ (v ∈ scanGrid s b.zv w f (leField h 20 2) ∧ v ∉ s.trl.cur) ∨
          (v ∈ s.trl.cur ∧ v ∉ scanGrid s b.zv w f (leField h 20 2))) ∧
      t.trl.cur = s.trl.cur ∧ t.trl.hits = s.trl.hits ∧ ChangesOnly engineRegs (.trl :: engineParts) s t := by
  have hexec := exec_occScanEnd hig hb hnext hat h1 h2 h3
  rw [if_neg (by simp [hgen0, hgen])] at hexec
  have heff := get_trlReads h1 h2 h3
  have htrl : s3.trl = s.trl := heff.keeps .trl (by decide)
  rw [scanGrid_congr (heff.rd TRL_OCC_CFG (by decide))] at hexec
  refine completes_of_settled hexec hon fun t hs => ⟨⟨_, by rw [hs.trl]; rfl, rfl, fun v => ?_⟩, ?_, ?_, hs.changesOnly_pulsed
    ((heff.mono (by decide) (by decide)).trl _ (by decide))⟩
  · rw [mem_sortBy, htrl]
    simp
  · rw [hs.trl, ← htrl]
    rfl
  · rw [hs.trl, ← htrl]
    rfl

end

/-! ### Ingests (R359) -/

/-- The newest grid has been looked at. -/
def gridSeen (s : State) (gen : Nat) : State := s.setTrl { s.trl with ingested := gen }

/-- The newest grid's header has been read. -/
def headerRead (s : State) : State :=
  gridSeen (trlRead s (gridBuf s (s.get FUS_GRID_CUR_BUF)) 32).1 (s.get FUS_GRID_GEN_VALUE)

/-- A grid that does not fit is counted. -/
def gridRefused (s : State) : State := (s.count (TRL_CNT_VALUE 10) 1).setOn TRL_EVT_OCCERR

/-- An ingest is in progress. -/
def ingestBegun (s : State) (ig : Ingest) : State := s.setTrl { s.trl with ingest := some ig }

theorem ingestStart_none (h : s.trl.bank = none) : ingestStart s = s := by
  unfold ingestStart
  rw [h]

/-- With a bank resident the header is read, and the grid refused or its ingest begun. -/
theorem ingestStart_some {b : TrlBank} (h : s.trl.bank = some b) : ingestStart s = trlStat (gridRefused (headerRead s)) ∨
    ∃ ig, ingestStart s = trlStat (ingestBegun (headerRead s) ig) := by
  unfold ingestStart
  rw [h]
  simp only
  split
  · exact .inl rfl
  · exact .inr ⟨_, rfl⟩

theorem effect_headerRead : Effect occRegs (.trl :: engineParts) s (headerRead s) :=
  ((effect_trlRead _ _).mono accessRegs_subset_occRegs (by decide)).trl _ (by decide)

theorem effect_gridRefused : Effect occRegs (.trl :: engineParts) s (gridRefused s) := ((Effect.refl s).count 1 (by decide)).setOn (by decide)

theorem effect_ingestStart : Effect occRegs (.trl :: engineParts) s (ingestStart s) := by
  cases hb : s.trl.bank with
  | none =>
    rw [ingestStart_none hb]
    exact Effect.refl s
  | some b =>
    rcases ingestStart_some hb with h | ⟨ig, h⟩
    · exact h ▸ (effect_headerRead.trans effect_gridRefused).trlStat (by decide)
    · exact h ▸ (effect_headerRead.trl _ (by decide)).trlStat (by decide)

/-- What of Trellis an ingest leaves: the occupancy. -/
structure IngestOnly (t u : Trellis) : Prop where
  cur : u.cur = t.cur
  tov : u.tov = t.tov
  hits : u.hits = t.hits
  blk : u.blk = t.blk

theorem IngestOnly.refl (t : Trellis) : IngestOnly t t := ⟨rfl, rfl, rfl, rfl⟩

theorem IngestOnly.trans {t u v : Trellis} (h : IngestOnly t u) (k : IngestOnly u v) : IngestOnly t v :=
  ⟨k.cur.trans h.cur, k.tov.trans h.tov, k.hits.trans h.hits, k.blk.trans h.blk⟩

theorem IngestOnly.of_eq {t u : Trellis} (h : u = t) : IngestOnly t u := h ▸ IngestOnly.refl t

theorem ingestOnly_gridSeen (gen : Nat) : IngestOnly s.trl (gridSeen s gen).trl := ⟨rfl, rfl, rfl, rfl⟩

theorem ingestOnly_headerRead : IngestOnly s.trl (headerRead s).trl :=
  (IngestOnly.of_eq ((effect_trlRead _ _).keeps .trl (by decide))).trans (ingestOnly_gridSeen _)

theorem trl_gridRefused : (gridRefused s).trl = s.trl := by simp [gridRefused]

theorem ingestOnly_ingestBegun (ig : Ingest) : IngestOnly s.trl (ingestBegun s ig).trl := ⟨rfl, rfl, rfl, rfl⟩

theorem ingestOnly_ingestStart : IngestOnly s.trl (ingestStart s).trl := by
  cases hb : s.trl.bank with
  | none => exact IngestOnly.of_eq (by rw [ingestStart_none hb])
  | some b =>
    rcases ingestStart_some hb with h | ⟨ig, h⟩
    · rw [h, trl_trlStat, trl_gridRefused]
      exact ingestOnly_headerRead
    · rw [h, trl_trlStat]
      exact ingestOnly_headerRead.trans (ingestOnly_ingestBegun ig)

theorem ingested_headerRead : (headerRead s).trl.ingested = s.get FUS_GRID_GEN_VALUE := rfl

theorem ingested_ingestBegun (ig : Ingest) : (ingestBegun s ig).trl.ingested = s.trl.ingested := rfl

theorem ingested_ingestStart {b : TrlBank} (hb : s.trl.bank = some b) :
    (ingestStart s).trl.ingested = s.get FUS_GRID_GEN_VALUE := by
  rcases ingestStart_some hb with h | ⟨ig, h⟩
  · rw [h, trl_trlStat, trl_gridRefused, ingested_headerRead]
  · rw [h, trl_trlStat, ingested_ingestBegun, ingested_headerRead]

theorem get_ingestBegun (ig : Ingest) (f : Fld) : (ingestBegun s ig).get f = s.get f := rfl

theorem get_headerRead {f : Fld} (hf : f.addr ∉ accessRegs) : (headerRead s).get f = s.get f :=
  (effect_trlRead (s := s) (gridBuf s (s.get FUS_GRID_CUR_BUF)) 32).get hf

/-- The counter of torn reads is counted by the tear alone. -/
theorem torn_ingestStart : (ingestStart s).get (TRL_CNT_VALUE 7) = s.get (TRL_CNT_VALUE 7) := by
  cases hb : s.trl.bank with
  | none => rw [ingestStart_none hb]
  | some b =>
    rcases ingestStart_some hb with h | ⟨ig, h⟩
    · rw [h, effect_trlStat.get (by decide), gridRefused, State.get_setOn_apart (by decide), State.get_count_apart (by decide),
        get_headerRead (by decide)]
    · rw [h, effect_trlStat.get (by decide), get_ingestBegun, get_headerRead (by decide)]

/-- The ingest in progress is dropped. -/
def ingestDropped (s : State) : State := s.setTrl { s.trl with ingest := none }

theorem ingestAgain_eq (gen : Nat) : ingestAgain s gen = ingestStart (((ingestDropped s).count (TRL_CNT_VALUE 7) 1).count (TRL_CNT_VALUE 8)
    ((s.get FUS_GRID_GEN_VALUE + 2 ^ 32 - gen) % 2 ^ 32 - 1)) := rfl

theorem effect_ingestAgain (gen : Nat) : Effect occRegs (.trl :: engineParts) s (ingestAgain s gen) := by
  rw [ingestAgain_eq]
  exact ((((Effect.refl s).trl _ (by decide)).count 1 (by decide)).count _ (by decide)).trans effect_ingestStart

theorem completes_occScanEnd_torn {ig : Ingest} {b : TrlBank} {s1 s2 s3 : State} {h w f : List Byte} (hig : s.trl.ingest = some ig)
    (hb : s.trl.bank = some b) (hnext : ig.next = none) (hat : ig.at_ ≤ s.cyc) (h1 : trlRead s ig.buf 28 = (s1, h))
    (h2 : trlRead s1 (ig.buf + 65536) 131072 = (s2, w)) (h3 : trlRead s2 (ig.buf + 196608) (131072 * leField h 20 2) = (s3, f))
    (hon : s.powered) (htorn : ig.gen0 ≠ ig.gen ∨ leField h 16 4 ≠ ig.gen) :
    Completes .occScanEnd s fun t => t.get (TRL_CNT_VALUE 7) = satAdd 32 (s.get (TRL_CNT_VALUE 7)) 1 ∧
      t.trl.cur = s.trl.cur ∧ t.trl.ingested = s.get FUS_GRID_GEN_VALUE ∧ ChangesOnly planRegs (.trl :: engineParts) s t := by
  have hexec := exec_occScanEnd hig hb hnext hat h1 h2 h3
  rw [if_pos htorn] at hexec
  have heff := get_trlReads h1 h2 h3
  have htrl : s3.trl = s.trl := heff.keeps .trl (by decide)
  refine completes_of_settled hexec hon fun t hs => ⟨?_, ?_, ?_, hs.changesOnly_pulsed
    ((heff.mono accessRegs_subset_occRegs (by decide)).trans (effect_ingestAgain _))⟩
  · rw [hs.get _ (by decide) (by decide), ingestAgain_eq, torn_ingestStart, State.get_count_apart (by decide),
      ← heff.get (f := TRL_CNT_VALUE 7) (by decide)]
    exact State.get_count_self (f := TRL_CNT_VALUE 7) (by decide) 1
  · rw [hs.trl, ingestAgain_eq, ingestOnly_ingestStart.cur, ← htrl]
    rfl
  · rw [hs.trl, ingestAgain_eq, ingested_ingestStart (b := b) (by rw [← hb, ← htrl]; rfl), State.get_count_apart (by decide),
      State.get_count_apart (by decide), ← heff.get (f := FUS_GRID_GEN_VALUE) (by decide)]
    rfl

/-! ### Broadcasts (R359, R360) -/

/-- One edge's count of hits after a voxel. -/
def edgeHit (b : TrlBank) (v : Nat) (set : Bool) (hits : Tbl Nat) (e : Nat) : Tbl Nat :=
  if (edgeRuns b (edgeAt b e)).any fun r => runZ r == v / 65536 && runY r == v / 256 % 256 && runX0 r ≤ v % 256 && v % 256 ≤ runX1 r then
    tset hits e (if set then tgetD hits e 0 + 1 else tgetD hits e 0 - 1)
  else hits

theorem broadcast_fst (b : TrlBank) (hits : Tbl Nat) (v : Nat) (set : Bool) : (broadcast b hits v set).1 =
    ((List.range b.edges.length).filter fun e => passes (edgeAt b e) (v % 256) (v / 256 % 256) (v / 65536)).foldl (edgeHit b v set) hits :=
  rfl

theorem tgetD_edgeHit_ne (b : TrlBank) (v : Nat) (set : Bool) (hits : Tbl Nat) {e x : Nat} (h : e ≠ x) :
    tgetD (edgeHit b v set hits x) e 0 = tgetD hits e 0 := by
  unfold edgeHit
  split
  · exact tgetD_tset_ne _ _ _ _ _ h
  · rfl

theorem tgetD_edgeHit_same (b : TrlBank) (v : Nat) (set : Bool) (hits : Tbl Nat) (e : Nat) : tgetD (edgeHit b v set hits e) e 0 =
    if ((edgeRuns b (edgeAt b e)).any fun r =>
        runZ r == v / 65536 && runY r == v / 256 % 256 && runX0 r ≤ v % 256 && v % 256 ≤ runX1 r) = true then
      (if set = true then tgetD hits e 0 + 1 else tgetD hits e 0 - 1)
    else tgetD hits e 0 := by
  unfold edgeHit
  split
  · exact tgetD_tset_same ..
  · rfl

/-- A list without repetition hits each of its edges once, and no other. -/
theorem tgetD_foldl_edgeHit (b : TrlBank) (v : Nat) (set : Bool) (e : Nat) {l : List Nat} (hl : l.Nodup) (hits : Tbl Nat) :
    tgetD (l.foldl (edgeHit b v set) hits) e 0 = if e ∈ l then tgetD (edgeHit b v set hits e) e 0 else tgetD hits e 0 := by
  induction l generalizing hits with
  | nil => rfl
  | cons x l ih =>
    obtain ⟨hx, hl⟩ := List.nodup_cons.mp hl
    rw [List.foldl_cons, ih hl]
    by_cases he : e = x
    · subst he
      rw [if_neg hx, if_pos List.mem_cons_self]
    · have hstand (t : Tbl Nat) : tgetD (edgeHit b v set t x) e 0 = tgetD t e 0 := tgetD_edgeHit_ne b v set t he
      by_cases hm : e ∈ l
      · rw [if_pos hm, if_pos (List.mem_cons_of_mem _ hm), tgetD_edgeHit_same, tgetD_edgeHit_same, hstand]
      · rw [if_neg hm, if_neg (by simp [he, hm]), hstand]

theorem hits_broadcast (b : TrlBank) (hits : Tbl Nat) (v : Nat) (set : Bool) {e : Nat} (he : e < b.edges.length) :
    tgetD (broadcast b hits v set).1 e 0 = if passes (edgeAt b e) (v % 256) (v / 256 % 256) (v / 65536) = true ∧
        ((edgeRuns b (edgeAt b e)).any fun r =>
          runZ r == v / 65536 && runY r == v / 256 % 256 && runX0 r ≤ v % 256 && v % 256 ≤ runX1 r) = true then
        (if set = true then tgetD hits e 0 + 1 else tgetD hits e 0 - 1)
      else tgetD hits e 0 := by
  rw [broadcast_fst, tgetD_foldl_edgeHit b v set e (List.nodup_range.filter _)]
  simp only [List.mem_filter, List.mem_range, he, true_and]
  by_cases hp : passes (edgeAt b e) (v % 256) (v / 256 % 256) (v / 65536) = true
  · rw [if_pos hp, tgetD_edgeHit_same]
    simp only [hp, true_and]
  · rw [if_neg hp, if_neg fun h => hp h.1]

/-- The counts of a broadcast. -/
def broadcastCounted (s : State) (stall : Nat) : State :=
  (s.countWrap TRL_CNT_BCAST_VALUE 1).countWrap TRL_CNT_CONFSTALL_VALUE stall

theorem effect_broadcastCounted (stall : Nat) : Effect [TRL_CNT_BCAST, TRL_CNT_CONFSTALL] [] s (broadcastCounted s stall) :=
  ((Effect.refl s).countWrap 1 (by decide)).countWrap _ (by decide)

theorem bcast_broadcastCounted (stall : Nat) :
    (broadcastCounted s stall).get TRL_CNT_BCAST_VALUE = (s.get TRL_CNT_BCAST_VALUE + 1) % 2 ^ 64 := by
  rw [broadcastCounted, State.get_countWrap_apart (by decide)]
  exact State.get_countWrap (by decide) 1

/-- The occupancy after a voxel's broadcast. -/
def voxelTaken (s : State) (ig : Ingest) (hits : Tbl Nat) (stall : Nat) (rest : List Nat) : State :=
  { s with trl := { s.trl with hits := hits, ingest := some { ig with todo := rest, at_ := ig.at_ + 1 + stall } } }

theorem Effect.voxelTaken {regs : List Nat} {parts : List Part} {t : State} (h : Effect regs parts s t) (ig : Ingest) (hits : Tbl Nat)
    (stall : Nat) (rest : List Nat) (hp : Part.trl ∈ parts) : Effect regs parts s (voxelTaken t ig hits stall rest) := h.trl _ hp

theorem trl_voxelTaken (ig : Ingest) (hits : Tbl Nat) (stall : Nat) (rest : List Nat) : (voxelTaken s ig hits stall rest).trl =
    { s.trl with hits := hits, ingest := some { ig with todo := rest, at_ := ig.at_ + 1 + stall } } := rfl

theorem get_voxelTaken (ig : Ingest) (hits : Tbl Nat) (stall : Nat) (rest : List Nat) (f : Fld) :
    (voxelTaken s ig hits stall rest).get f = s.get f := rfl

/-- A voxel has been broadcast. -/
def voxelBroadcast (s : State) (ig : Ingest) (rest : List Nat) (p : Tbl Nat × Nat) : State :=
  voxelTaken (broadcastCounted s p.2) ig p.1 p.2 rest

/-- The next voxel that differs is broadcast, when its time has come. -/
def broadcastNext (s : State) (ig : Ingest) (b : TrlBank) : Option (List Nat) → List Nat → State
  | some next, v :: rest => if s.cyc < ig.at_ then s else voxelBroadcast s ig rest (broadcast b s.trl.hits v (next.contains v))
  | _, _ => s

theorem execOccBroadcast_eq {ig : Ingest} {b : TrlBank} (hig : s.trl.ingest = some ig) (hb : s.trl.bank = some b) :
    execOccBroadcast s = finish s (broadcastNext s ig b ig.next ig.todo) := by
  unfold execOccBroadcast
  rw [hig, hb]
  rfl

theorem exec_occBroadcast {ig : Ingest} {b : TrlBank} (hig : s.trl.ingest = some ig) (hb : s.trl.bank = some b) {next : List Nat} {v : Nat}
    {rest : List Nat} (hnext : ig.next = some next) (htodo : ig.todo = v :: rest) (hat : ig.at_ ≤ s.cyc) :
    exec .occBroadcast s = finish s (voxelBroadcast s ig rest (broadcast b s.trl.hits v (next.contains v))) := by
  show execOccBroadcast s = _
  rw [execOccBroadcast_eq hig hb, hnext, htodo, broadcastNext, if_neg (by omega)]

theorem completes_occBroadcast (hon : s.powered) {ig : Ingest} {b : TrlBank} (hig : s.trl.ingest = some ig) (hb : s.trl.bank = some b)
    {next : List Nat} {v : Nat} {rest : List Nat} (hnext : ig.next = some next) (htodo : ig.todo = v :: rest) (hat : ig.at_ ≤ s.cyc) :
    Completes .occBroadcast s fun t => (∃ ig', t.trl.ingest = some ig' ∧ ig'.todo = rest ∧ ig'.next = some next ∧
        ig.at_ < ig'.at_) ∧
      (∀ e, e < b.edges.length → tgetD t.trl.hits e 0 =
        if passes (edgeAt b e) (v % 256) (v / 256 % 256) (v / 65536) = true ∧ ((edgeRuns b (edgeAt b e)).any fun r =>
            runZ r == v / 65536 && runY r == v / 256 % 256 && runX0 r ≤ v % 256 && v % 256 ≤ runX1 r) = true then
          (if v ∈ next then tgetD s.trl.hits e 0 + 1 else tgetD s.trl.hits e 0 - 1)
        else tgetD s.trl.hits e 0) ∧
      t.get TRL_CNT_BCAST_VALUE = (s.get TRL_CNT_BCAST_VALUE + 1) % 2 ^ 64 ∧
      ChangesOnly [TRL_CNT_BCAST, TRL_CNT_CONFSTALL] [.trl] s t := by
  have hexec := exec_occBroadcast hig hb hnext htodo hat
  have hset : (next.contains v = true) = (v ∈ next) := by simp
  have hhit : ∀ e, e < b.edges.length → _ := fun e he => hits_broadcast b s.trl.hits v (next.contains v) (e := e) he
  simp only [hset] at hhit
  generalize broadcast b s.trl.hits v (next.contains v) = p at hexec hhit
  obtain ⟨hits, stall⟩ := p
  have heff := effect_broadcastCounted (s := s) stall
  have hcnt := bcast_broadcastCounted (s := s) stall
  rw [voxelBroadcast] at hexec
  simp only at hexec hhit
  generalize broadcastCounted s stall = u at hexec heff hcnt
  refine completes_of_settled hexec hon fun t hs => ⟨⟨{ ig with todo := rest, at_ := ig.at_ + 1 + stall }, ?_, rfl, hnext, ?_⟩,
    fun e he => ?_, ?_, hs.changesOnly ((heff.mono (by simp) (by simp)).voxelTaken ig hits stall rest (by simp))⟩
  · rw [hs.trl, trl_voxelTaken]
  · show ig.at_ < ig.at_ + 1 + stall
    omega
  · rw [hs.trl, trl_voxelTaken]
    exact hhit e he
  · rw [hs.get _ (by decide) (by decide), get_voxelTaken, hcnt]

/-! ### The search leaves the occupancy (R362, R364) -/

theorem ingestOnly_qPush (b : TrlBank) (t : Trellis) (n : Nat) : IngestOnly t (qPush b t n).1 := by
  unfold qPush compact
  simp only
  split <;> exact ⟨rfl, rfl, rfl, rfl⟩

/-- The new best successor of a node. -/
def vertexUpdated (b : TrlBank) (t : Trellis) (n : Nat) : Trellis :=
  if n ∈ t.goals then t else
    let (r, sc) := (List.range (nodeAt b n).outdeg).foldl (fun (a : Nat × Option Nat) i =>
      let e := (nodeAt b n).efirst + i
      let v := satCost ((edgeAt b e).cost + gOf t (edgeAt b e).dst)
      if !blocked t e && v < a.1 then (v, some e) else a) (inf32, none)
    { t with rhs := tset t.rhs n r, succ := match sc with | some e => tset t.succ n e | none => tdel t.succ n }

theorem ingestOnly_vertexUpdated (b : TrlBank) (t : Trellis) (n : Nat) : IngestOnly t (vertexUpdated b t n) := by
  unfold vertexUpdated
  split
  · exact IngestOnly.refl t
  · exact ⟨rfl, rfl, rfl, rfl⟩

theorem updateVertex_fst (b : TrlBank) (w : SearchWork) (n : Nat) : (updateVertex b w n).1 =
    if gOf (vertexUpdated b w.1 n) n ≠ rhsOf (vertexUpdated b w.1 n) n then (qPush b (vertexUpdated b w.1 n) n).1
    else vertexUpdated b w.1 n := by
  obtain ⟨t, cyc, cp⟩ := w
  exact apply_ite Prod.fst _ _ _

theorem ingestOnly_updateVertex (b : TrlBank) (w : SearchWork) (n : Nat) : IngestOnly w.1 (updateVertex b w n).1 := by
  rw [updateVertex_fst]
  split
  · exact (ingestOnly_vertexUpdated b w.1 n).trans (ingestOnly_qPush b _ n)
  · exact ingestOnly_vertexUpdated b w.1 n

theorem ingestOnly_foldl {f : SearchWork → Nat → SearchWork} (h : ∀ w n, IngestOnly w.1 (f w n).1) (l : List Nat) (w : SearchWork) :
    IngestOnly w.1 (l.foldl f w).1 := by
  induction l generalizing w with
  | nil => exact IngestOnly.refl _
  | cons n l ih => exact (h w n).trans (ih (f w n))

theorem ingestOnly_runRepair (b : TrlBank) (t : Trellis) : IngestOnly t (runRepair b t).1 := by
  unfold runRepair
  split
  · have hstart : IngestOnly t { t with repair := [], repairDue := false } := ⟨rfl, rfl, rfl, rfl⟩
    exact hstart.trans (ingestOnly_foldl (f := fun w e => updateVertex b w (edgeAt b e).src)
      (fun w e => ingestOnly_updateVertex b w (edgeAt b e).src) t.repair
      ({ t with repair := [], repairDue := false }, 256, 0))
  · exact IngestOnly.refl t

/-! ### What follows a commit leaves it -/

/-- A field other than those that a commit shows. -/
abbrev BesideCommit (f : Fld) : Prop := Apart f TRL_OGEN_VALUE ∧ Apart f TRL_EVT_COMMIT ∧ Apart f TRL_CTRL_LOADING

theorem besideCommit_cnt (i : Nat) : BesideCommit (TRL_CNT_VALUE i) := by
  refine ⟨.inl ?_, .inl ?_, .inl ?_⟩
  · show TRL_OGEN ≠ TRL_CNT i
    unfold TRL_OGEN TRL_CNT
    omega
  · show TRL_EVT ≠ TRL_CNT i
    unfold TRL_EVT TRL_CNT
    omega
  · show TRL_CTRL ≠ TRL_CNT i
    unfold TRL_CTRL TRL_CNT
    omega

/-- The occupancy and what a commit shows stand. -/
structure CommitKept (s t : State) : Prop where
  trl : IngestOnly s.trl t.trl
  ogen : t.get TRL_OGEN_VALUE = s.get TRL_OGEN_VALUE
  commit : t.get TRL_EVT_COMMIT = s.get TRL_EVT_COMMIT
  loading : t.get TRL_CTRL_LOADING = s.get TRL_CTRL_LOADING

namespace CommitKept

variable {t u : State}

theorem refl (s : State) : CommitKept s s := ⟨IngestOnly.refl _, rfl, rfl, rfl⟩

theorem trans (h : CommitKept s t) (k : CommitKept t u) : CommitKept s u :=
  ⟨h.trl.trans k.trl, k.ogen.trans h.ogen, k.commit.trans h.commit, k.loading.trans h.loading⟩

theorem put (h : CommitKept s t) {f : Fld} (hf : BesideCommit f) (v : Nat) : CommitKept s (t.put f v) := by
  obtain ⟨h1, h2, h3⟩ := hf
  exact h.trans ⟨IngestOnly.of_eq (State.put_trl ..), State.get_put_apart h1 v, State.get_put_apart h2 v, State.get_put_apart h3 v⟩

theorem note (h : CommitKept s t) (a m : Nat) : CommitKept s (t.note a m) := h.trans ⟨IngestOnly.refl _, rfl, rfl, rfl⟩

theorem setOn (h : CommitKept s t) {f : Fld} (hf : BesideCommit f) : CommitKept s (t.setOn f) := (h.put hf 1).note _ _

theorem count (h : CommitKept s t) {f : Fld} (hf : BesideCommit f) (d : Nat) : CommitKept s (t.count f d) := h.put hf _

theorem setTrl (h : CommitKept s t) {x : Trellis} (hx : IngestOnly t.trl x) : CommitKept s (t.setTrl x) :=
  h.trans ⟨hx, rfl, rfl, rfl⟩

theorem onIf (h : CommitKept s t) {c : Bool} {f : State → State} (k : CommitKept t (f t)) : CommitKept s (onIf c f t) := by
  cases c
  · exact h
  · exact h.trans k

theorem trlStat (h : CommitKept s t) : CommitKept s (trlStat t) :=
  (((h.put (by decide) _).put (by decide) _).put (by decide) _).put (by decide) _

/-- Accesses to memory touch neither Trellis nor its registers. -/
theorem access (h : CommitKept s t) (e : Effect accessRegs engineParts t u) : CommitKept s u :=
  h.trans ⟨IngestOnly.of_eq (e.keeps .trl (by decide)), e.get (by decide), e.get (by decide), e.get (by decide)⟩

theorem chargeWork (h : CommitKept s t) {w : SearchWork} (hw : IngestOnly t.trl w.1) : CommitKept s (chargeWork t w) := by
  obtain ⟨x, cyc, cp⟩ := w
  show CommitKept s ((t.setTrl { x with busy := _, req := _ }).count (TRL_CNT_VALUE 9) (cp * 65536))
  refine (h.setTrl ?_).count (besideCommit_cnt 9) _
  exact ⟨hw.cur, hw.tov, hw.hits, hw.blk⟩

theorem repairNow (h : CommitKept s t) : CommitKept s (repairNow t) := by
  unfold Machine.repairNow
  split
  · exact h.chargeWork (ingestOnly_runRepair _ _)
  · exact h

end CommitKept

/-- The counts and events of a record. -/
def planCounted (s : State) (result flags : Nat) : State :=
  onIf (result = 3) (·.setOn TRL_EVT_REFUSED) (onIf (result = 2) (·.setOn TRL_EVT_STOP) (onIf (bitOf flags 1) (fun s => s.count (TRL_CNT_VALUE 5) 1)
    (onIf (bitOf flags 0) (fun s => s.count (TRL_CNT_VALUE 4) 1) (s.count (TRL_CNT_VALUE result) 1))))

theorem commitKept_planCounted (result flags : Nat) : CommitKept s (planCounted s result flags) :=
  (((((CommitKept.refl s).count (besideCommit_cnt _) 1).onIf ((CommitKept.refl _).count (by decide) 1)).onIf
    ((CommitKept.refl _).count (by decide) 1)).onIf ((CommitKept.refl _).setOn (by decide))).onIf ((CommitKept.refl _).setOn (by decide))

/-- The record's first bytes are shown. -/
def planShown (s : State) (record : List Byte) : State := { s with ecs := { s.ecs with plan := record.take 16 } }

theorem commitKept_planShown (record : List Byte) : CommitKept s (planShown s record) := ⟨IngestOnly.refl _, rfl, rfl, rfl⟩

/-- The request is over, and its record keeps the output stage busy. -/
def planEnded (s : State) (prev : Option (Nat × List Nat)) (wr : Nat) : State :=
  { s with trl := { s.trl with req := none, prev := prev, outBusy := max s.trl.outBusy s.cyc + wr } }

theorem commitKept_planEnded (prev : Option (Nat × List Nat)) (wr : Nat) : CommitKept s (planEnded s prev wr) :=
  ⟨⟨rfl, rfl, rfl, rfl⟩, rfl, rfl, rfl⟩

theorem putPlan_eq (q : TrlReq) (result flags cost : Nat) (edges : List Nat) (prev : Option (Nat × List Nat)) :
    ∃ (q' : TrlReq) (wr : Nat), putPlan s q result flags cost edges prev =
      trlStat (repairNow (planEnded (onIf (rqIrq q.bytes) (·.setOn TRL_EVT_DONE)
        (planShown (engineWrite (planCounted s result flags) 5 0 (rqOut q.bytes)
          (planRecord (planCounted s result flags) q' result flags cost edges)).1
          (planRecord (planCounted s result flags) q' result flags cost edges))) prev wr)) :=
  ⟨_, _, rfl⟩

theorem commitKept_putPlan (q : TrlReq) (result flags cost : Nat) (edges : List Nat) (prev : Option (Nat × List Nat)) :
    CommitKept s (putPlan s q result flags cost edges prev) := by
  obtain ⟨q', wr, h⟩ := putPlan_eq (s := s) q result flags cost edges prev
  rw [h]
  have hwrite := (commitKept_planCounted (s := s) result flags).access (effect_engineWrite 5 0 (rqOut q.bytes)
    (planRecord (planCounted s result flags) q' result flags cost edges))
  exact ((((hwrite.trans (commitKept_planShown _)).onIf ((CommitKept.refl _).setOn (by decide))).trans
    (commitKept_planEnded prev wr)).repairNow).trlStat

theorem commitKept_recheckHeld (q : TrlReq) : CommitKept s (recheckHeld s q false).1 := by
  unfold recheckHeld
  simp only [Bool.false_eq_true, if_false]
  split
  · exact ⟨⟨rfl, rfl, rfl, rfl⟩, rfl, rfl, rfl⟩
  · refine CommitKept.setOn (CommitKept.count ?_ (besideCommit_cnt 6) 1) (by decide)
    exact ⟨⟨rfl, rfl, rfl, rfl⟩, rfl, rfl, rfl⟩

theorem commitKept_searchBegin : CommitKept s (searchBegin s) := by
  unfold searchBegin
  split
  · split
    · refine CommitKept.trlStat ?_
      exact ⟨⟨rfl, rfl, rfl, rfl⟩, rfl, rfl, rfl⟩
    · exact commitKept_putPlan ..
  · exact CommitKept.refl s

theorem commitKept_ingestStart : CommitKept s (ingestStart s) := by
  have hread : CommitKept s (headerRead s) := ((CommitKept.refl s).access (effect_trlRead _ _)).setTrl ⟨rfl, rfl, rfl, rfl⟩
  cases hb : s.trl.bank with
  | none =>
    rw [ingestStart_none hb]
    exact CommitKept.refl s
  | some b =>
    rcases ingestStart_some hb with h | ⟨ig, h⟩
    · rw [h]
      exact ((hread.count (besideCommit_cnt 10) 1).setOn (by decide)).trlStat
    · rw [h]
      exact (hread.trans ⟨ingestOnly_ingestBegun ig, rfl, rfl, rfl⟩).trlStat

theorem commitKept_ingestNewest : CommitKept s (ingestNewest s) := by
  unfold ingestNewest
  simp only
  split
  · exact CommitKept.refl s
  · exact ((CommitKept.refl s).onIf ((CommitKept.refl s).count (besideCommit_cnt 8) _)).trans commitKept_ingestStart

/-! ### The commit (R359, R361, R364) -/

/-- NEXT becomes CUR, and an edge with a hit is blocked; the repair is due. -/
def nextTaken (s : State) (ig : Ingest) (b : TrlBank) (next : List Nat) : State :=
  s.setTrl { s.trl with
    cur := next, blk := maskOf b.edges.length fun e => 0 < tgetD s.trl.hits e 0, tov := ig.tov, ingest := none
    repair := sortBy (fun a b => a ≤ b) (s.trl.repair ++ (List.range b.nsrch).filter fun e =>
      (maskOf b.edges.length fun e => 0 < tgetD s.trl.hits e 0).testBit e != blocked s.trl e).dedup, repairDue := true }

/-- The commit shows. -/
def commitShown (s : State) : State :=
  ((s.put TRL_OGEN_VALUE (s.get TRL_OGEN_VALUE + 1)).setOn TRL_EVT_COMMIT).setOff TRL_CTRL_LOADING

/-- A held path is rechecked, and the repair runs unless a search is in progress. -/
def commitRechecked (s : State) : State :=
  match s.trl.req with
  | some q => if q.phase = 2 then repairNow (recheckHeld s q false).1 else if q.phase = 1 then s else repairNow s
  | none => repairNow s

theorem commitKept_commitRechecked : CommitKept s (commitRechecked s) := by
  unfold commitRechecked
  split
  · split
    · exact (commitKept_recheckHeld _).repairNow
    · split
      · exact CommitKept.refl s
      · exact (CommitKept.refl s).repairNow
  · exact (CommitKept.refl s).repairNow

/-- What follows the commit. -/
def commitFollowed (s : State) (loading : Bool) : State :=
  ingestNewest (trlStat (if loading then searchBegin (commitRechecked s) else commitRechecked s))

theorem commitKept_commitFollowed (loading : Bool) : CommitKept s (commitFollowed s loading) := by
  cases loading
  · exact (commitKept_commitRechecked.trlStat).trans commitKept_ingestNewest
  · exact ((commitKept_commitRechecked.trans commitKept_searchBegin).trlStat).trans commitKept_ingestNewest

theorem maskOf_succ (n : Nat) (p : Nat → Bool) : maskOf (n + 1) p = maskOf n p + ofBool (p n) * 2 ^ n := by
  rw [maskOf, List.range_succ, List.foldl_append]
  rfl

theorem testBit_maskOf (n : Nat) (p : Nat → Bool) (i : Nat) : (maskOf n p).testBit i = (decide (i < n) && p i) := by
  have hlt (n : Nat) : maskOf n p < 2 ^ n := by
    induction n with
    | zero => exact Nat.one_pos
    | succ n ih =>
      rw [maskOf_succ, Nat.pow_succ]
      cases p n <;> simp [ofBool] <;> omega
  induction n with
  | zero => simp [maskOf]
  | succ n ih =>
    rw [maskOf_succ, Nat.add_comm, Nat.mul_comm, Nat.testBit_two_pow_mul_add _ (hlt n), ih]
    rcases Nat.lt_trichotomy i n with h | h | h
    · simp [h, Nat.lt_succ_of_lt h]
    · subst h
      cases hp : p i <;> simp [ofBool]
    · have hbit : (ofBool (p n)).testBit (i - n) = false :=
        Nat.testBit_lt_two_pow (Nat.lt_of_lt_of_le (show ofBool (p n) < 2 by cases p n <;> decide)
          (show 2 ^ 1 ≤ 2 ^ (i - n) from Nat.pow_le_pow_right (by decide) (by omega)))
      rw [if_neg (by omega), hbit, decide_eq_false (by omega), Bool.false_and]

/-- The commit of an ingest, where it is due. -/
def commitNext (s : State) (ig : Ingest) (b : TrlBank) : Option (List Nat) → List Nat → State
  | some next, [] => if !commitDue s then s else commitFollowed (commitShown (nextTaken s ig b next)) (s.on TRL_CTRL_LOADING)
  | _, _ => s

theorem execOccCommit_eq {ig : Ingest} {b : TrlBank} (hig : s.trl.ingest = some ig) (hb : s.trl.bank = some b) :
    execOccCommit s = finish s (commitNext s ig b ig.next ig.todo) := by
  unfold execOccCommit
  rw [hig, hb]
  rfl

theorem trl_commitShown : (commitShown s).trl = s.trl := by simp [commitShown]

theorem shown_commitShown : (commitShown s).get TRL_OGEN_VALUE = (s.get TRL_OGEN_VALUE + 1) % 2 ^ 32 ∧
    (commitShown s).get TRL_EVT_COMMIT = 1 ∧ (commitShown s).get TRL_CTRL_LOADING = 0 := by
  refine ⟨?_, ?_, State.get_setOff (by decide)⟩
  · rw [commitShown, State.get_setOff_apart (by decide), State.get_setOn_apart (by decide)]
    exact State.get_put_self (by decide) _
  · rw [commitShown, State.get_setOff_apart (by decide), State.get_setOn (by decide)]

theorem completes_occCommit (hon : s.powered) {ig : Ingest} {b : TrlBank} (hig : s.trl.ingest = some ig) (hb : s.trl.bank = some b)
    {next : List Nat} (hnext : ig.next = some next) (htodo : ig.todo = []) (hat : ig.at_ + 16448 ≤ s.cyc) (hout : s.trl.outBusy ≤ s.cyc) :
    Completes .occCommit s fun t => t.trl.cur = next ∧ t.trl.tov = ig.tov ∧ t.trl.hits = s.trl.hits ∧
      (∀ e, e < b.edges.length → blocked t.trl e = decide (0 < tgetD s.trl.hits e 0)) ∧
      t.get TRL_OGEN_VALUE = (s.get TRL_OGEN_VALUE + 1) % 2 ^ 32 ∧ t.on TRL_EVT_COMMIT = true ∧
      t.on TRL_CTRL_LOADING = false := by
  have hdue : commitDue s = true := by
    rw [commitDue, hig]
    simp only [hnext, htodo, Option.isSome_some, Bool.true_and, Bool.and_eq_true, decide_eq_true_eq, beq_self_eq_true]
    exact ⟨hat, hout⟩
  have hexec : exec .occCommit s = finish s (commitFollowed (commitShown (nextTaken s ig b next)) (s.on TRL_CTRL_LOADING)) := by
    show execOccCommit s = _
    rw [execOccCommit_eq hig hb, hnext, htodo, commitNext, hdue, if_neg (by decide)]
  have hkept := commitKept_commitFollowed (s := commitShown (nextTaken s ig b next)) (s.on TRL_CTRL_LOADING)
  obtain ⟨hogen, hevent, hloading⟩ := shown_commitShown (s := nextTaken s ig b next)
  obtain ⟨hcur, htov, hhits, hblk⟩ := trl_commitShown ▸ hkept.trl
  refine completes_of_settled hexec hon fun t hs => ⟨?_, ?_, ?_, fun e he => ?_, ?_, ?_, ?_⟩
  · rw [hs.trl, hcur]
    rfl
  · rw [hs.trl, htov]
    rfl
  · rw [hs.trl, hhits]
    rfl
  · rw [blocked, hs.trl, hblk]
    exact (testBit_maskOf _ _ e).trans (by rw [decide_eq_true he, Bool.true_and])
  · rw [hs.get _ (by decide) (by decide), hkept.ogen, hogen]
    rfl
  · rw [hs.on _ (by decide) (by decide), State.on_eq_true_iff, hkept.commit, hevent]
  · rw [hs.on _ (by decide) (by decide), State.on_eq_false_iff, hkept.loading, hloading]
    decide

end

/-- Settles O31: the scan by its three reads, the broadcast edge by edge, and the commit by what its repairs, rechecks and the next
ingest leave of the occupancy. -/
theorem occupancyScansBroadcastsCommits : Obligations.OccupancyScansBroadcastsCommits := by
  intro s ig b hon hig hb
  refine ⟨fun s1 s2 s3 h w f hnext hat h1 h2 h3 => ⟨fun hgen0 hgen => ?_, fun htorn => ?_⟩, fun next v rest hnext htodo hat => ?_,
    fun next hnext htodo hat hout => completes_occCommit hon hig hb hnext htodo hat hout⟩
  · exact completes_occScanEnd_good hig hb hnext hat h1 h2 h3 hon hgen0 hgen
  · exact completes_occScanEnd_torn hig hb hnext hat h1 h2 h3 hon htorn
  · exact completes_occBroadcast hon hig hb hnext htodo hat

end Sys2Proof.Machine
end
section
/-! Arrivals of the sensor front: what one takes, marks, lands and holds (R295 to R311). -/

namespace Sys2Proof.Machine

open Sys2Proof Sys2Proof.Machine.Reg

/-! ### Channels -/

section

variable {s t : State}

theorem chanOf_congr (h : t.fus.chans = s.fus.chans) (n : Nat) : chanOf t n = chanOf s n := by rw [chanOf, chanOf, h]

theorem chanDesc_congr (h : t.fus.tables = s.fus.tables) (n : Nat) : chanDesc t n = chanDesc s n := by rw [chanDesc, chanDesc, h]

theorem channelsOf_congr (h : t.fus.tables = s.fus.tables) (kind : Nat) (p : Nat → Bool) : channelsOf t kind p = channelsOf s kind p := by
  unfold channelsOf
  simp only [chanDesc_congr h]

theorem mem_channelsOf {kind : Nat} {p : Nat → Bool} {n : Nat} (h : n ∈ channelsOf s kind p) :
    n < 64 ∧ chKind (chanDesc s n) = kind ∧ p (chanDesc s n) = true := by
  rw [channelsOf, List.mem_filter, List.mem_range] at h
  simp only [Bool.and_eq_true, beq_iff_eq] at h
  exact ⟨h.1, h.2.1.2, h.2.2⟩

theorem nodup_channelsOf (kind : Nat) (p : Nat → Bool) : (channelsOf s kind p).Nodup := List.nodup_range.filter _

theorem peersAgree_congr (h : t.fus = s.fus) (n d : Nat) (c : Chan) : peersAgree t n d c = peersAgree s n d c := by
  unfold peersAgree
  simp only [chanDesc_congr (congrArg Fusion.tables h), chanOf_congr (congrArg Fusion.chans h)]

theorem quarantine_congr (h : t.fus = s.fus) (n d : Nat) (c : Chan) (e : Int) : quarantine t n d c e = quarantine s n d c e := by
  unfold quarantine
  simp only [peersAgree_congr h]

theorem Effect.fus {regs : List Nat} {parts : List Part} (h : Effect regs parts s t) (x : Fusion) (hp : Part.fus ∈ parts) :
    Effect regs parts s { t with fus := x } :=
  h.components rfl fun p hq => by
    cases p
    case fus => exact absurd hp hq
    all_goals simp [Keeps]

/-- The channel's state replaced, before the masks show it. -/
def chanTaken (s : State) (n : Nat) (c : Chan) : State := { s with fus := { s.fus with chans := tset s.fus.chans n c } }

/-- The masks of VALID and DESYNC show a channel. -/
def chanShown (s : State) (n : Nat) (c : Chan) : State :=
  let s := s.put FUS_CH_VALID_VALUE (withBits (s.get FUS_CH_VALID_VALUE) n n (ofBool c.valid))
  s.put FUS_CH_DESYNC_VALUE (withBits (s.get FUS_CH_DESYNC_VALUE) n n (ofBool c.desync))

theorem setChan_eq (n : Nat) (c : Chan) : s.setChan n c = chanShown (chanTaken s n c) n c := rfl

theorem fus_chanShown (n : Nat) (c : Chan) : (chanShown s n c).fus = s.fus := by simp [chanShown]

theorem effect_chanShown (n : Nat) (c : Chan) : Effect [FUS_CH_VALID, FUS_CH_DESYNC] [] s (chanShown s n c) :=
  ((Effect.refl s).put _ (by decide)).put _ (by decide)

theorem Effect.setChan {regs : List Nat} {parts : List Part} (h : Effect regs parts s t) (n : Nat) (c : Chan)
    (hr : [FUS_CH_VALID, FUS_CH_DESYNC] ⊆ regs) (hp : Part.fus ∈ parts) : Effect regs parts s (t.setChan n c) :=
  (h.fus _ hp).trans ((effect_chanShown n c).mono hr (List.nil_subset _))

theorem fus_setChan (n : Nat) (c : Chan) : (s.setChan n c).fus = { s.fus with chans := tset s.fus.chans n c } :=
  fus_chanShown n c

theorem chanOf_setChan_same (n : Nat) (c : Chan) : chanOf (s.setChan n c) n = c := by
  rw [chanOf, fus_setChan]
  exact tgetD_tset_same ..

theorem chanOf_setChan_ne {m n : Nat} (h : m ≠ n) (c : Chan) : chanOf (s.setChan n c) m = chanOf s m := by
  rw [chanOf, fus_setChan]
  exact tgetD_tset_ne _ _ _ _ _ h

/-- The registers that the settling of the lines and pulses write. -/
def mergeRegs : List Nat := [DGN_CNT_MERGE, DGN_EVT]

/-! ### Holding an arrival (R311, R320, R392) -/

/-- The samples of the EGO slot gather. -/
def egoGathered (s : State) (a : Arrival) : State :=
  { s with fus := { s.fus with ego := { s.fus.ego with imu := s.fus.ego.imu ++ [a] } } }

theorem holdArrival_eq (n : Nat) (c : Chan) (a : Arrival) : holdArrival s n c a =
    if isEgoImu (countLate ((s.setChan n { c with arrivals := c.arrivals ++ [a] }).pulse (512 + n)) a.arr) n && c.valid && !c.desync then
      egoGathered (countLate ((s.setChan n { c with arrivals := c.arrivals ++ [a] }).pulse (512 + n)) a.arr) a
    else countLate ((s.setChan n { c with arrivals := c.arrivals ++ [a] }).pulse (512 + n)) a.arr := rfl

theorem effect_countLate (arr : Int) : Effect [FUS_CNT 2] [] s (countLate s arr) := by
  unfold countLate
  exact (Effect.refl s).onIf fun _ => (Effect.refl s).count 1 (by decide)

theorem fus_countLate (arr : Int) : (countLate s arr).fus = s.fus := (effect_countLate arr).keeps .fus (by decide)

theorem effect_pulse (src : Nat) : Effect mergeRegs [] s (s.pulse src) := (Effect.refl s).pulse src (by decide) (by decide)

theorem fus_pulse (src : Nat) : (s.pulse src).fus = s.fus := (effect_pulse src).keeps .fus (by decide)

/-- The registers of holding an arrival. -/
def holdRegs : List Nat := mergeRegs ++ [FUS_CNT 2, FUS_CH_VALID, FUS_CH_DESYNC]

theorem effect_holdArrival (n : Nat) (c : Chan) (a : Arrival) : Effect holdRegs [.fus] s (holdArrival s n c a) := by
  have hheld : Effect holdRegs [.fus] s (countLate ((s.setChan n { c with arrivals := c.arrivals ++ [a] }).pulse (512 + n)) a.arr) :=
    ((((Effect.refl s).setChan n _ (by decide) (by decide)).pulse _ (by decide) (by decide))).trans
      ((effect_countLate a.arr).mono (by decide) (by decide))
  rw [holdArrival_eq]
  exact Effect.ite (fun _ => hheld.fus _ (by decide)) fun _ => hheld

theorem fus_egoGathered (a : Arrival) : (egoGathered s a).fus.chans = s.fus.chans ∧ (egoGathered s a).fus.tables = s.fus.tables ∧
    (egoGathered s a).fus.spi = s.fus.spi ∧ (egoGathered s a).fus.conv = s.fus.conv := ⟨rfl, rfl, rfl, rfl⟩

/-- Of the sensor front an arrival that is held changes the channel alone. -/
theorem fus_holdArrival (n : Nat) (c : Chan) (a : Arrival) :
    (holdArrival s n c a).fus.chans = tset s.fus.chans n { c with arrivals := c.arrivals ++ [a] } ∧
      (holdArrival s n c a).fus.tables = s.fus.tables ∧ (holdArrival s n c a).fus.spi = s.fus.spi ∧
      (holdArrival s n c a).fus.conv = s.fus.conv := by
  have hheld : (countLate ((s.setChan n { c with arrivals := c.arrivals ++ [a] }).pulse (512 + n)) a.arr).fus =
      { s.fus with chans := tset s.fus.chans n { c with arrivals := c.arrivals ++ [a] } } := by
    rw [fus_countLate, fus_pulse, fus_setChan]
  rw [holdArrival_eq]
  generalize countLate ((s.setChan n { c with arrivals := c.arrivals ++ [a] }).pulse (512 + n)) a.arr = u at hheld
  split
  · obtain ⟨h1, h2, h3, h4⟩ := fus_egoGathered (s := u) a
    rw [h1, h2, h3, h4, hheld]
    exact ⟨rfl, rfl, rfl, rfl⟩
  · rw [hheld]
    exact ⟨rfl, rfl, rfl, rfl⟩

theorem chanOf_holdArrival_same (n : Nat) (c : Chan) (a : Arrival) :
    chanOf (holdArrival s n c a) n = { c with arrivals := c.arrivals ++ [a] } := by
  rw [chanOf, (fus_holdArrival n c a).1]
  exact tgetD_tset_same ..

theorem chanOf_holdArrival_ne {m n : Nat} (h : m ≠ n) (c : Chan) (a : Arrival) : chanOf (holdArrival s n c a) m = chanOf s m := by
  rw [chanOf, (fus_holdArrival n c a).1]
  exact tgetD_tset_ne _ _ _ _ _ h

/-! ### Landing (R295, R299, R300) -/

/-- The registers of a record that lands. -/
def ringRegs (n : Nat) : List Nat := accessRegs ++ [SNS_CH_PROD n, SNS_CH_CNT_DROP n, SNS_CH_CNT_ERR n]

/-- The registers of a write to a ring. -/
def writeRegs (n : Nat) : List Nat := accessRegs ++ [SNS_CH_CNT_ERR n]

theorem effect_ringWrite (n addr : Nat) (bs : List Byte) : Effect (writeRegs n) engineParts s (ringWrite s n addr bs) := by
  have hwrite : Effect (writeRegs n) engineParts s (engineWrite s 4 (chCtx (chanDesc s n)) addr bs).1 :=
    (effect_engineWrite 4 _ addr bs).mono (by simp [writeRegs]) (List.Subset.refl _)
  exact Effect.ite (fun _ => hwrite) fun _ => hwrite.count 1 (by simp [writeRegs, SNS_CH_CNT_ERR_VALUE])

theorem writeRegs_subset (n : Nat) : writeRegs n ⊆ ringRegs n := by simp [writeRegs, ringRegs]

theorem landRecord_of_noRing {n : Nat} (h : chRing (chanDesc s n) = 0) (c : Chan) (arr tov : Int) (stamp seq : Nat) (info : ArrivalInfo)
    (payload : List Byte) : landRecord s n c arr tov stamp seq info payload = s := by
  unfold landRecord
  exact if_pos h

theorem effect_landRecord (n : Nat) (c : Chan) (arr tov : Int) (stamp seq : Nat) (info : ArrivalInfo) (payload : List Byte) :
    Effect (ringRegs n) engineParts s (landRecord s n c arr tov stamp seq info payload) := by
  unfold landRecord
  simp only
  have hwrite (u : State) (addr : Nat) (bs : List Byte) : Effect (ringRegs n) engineParts u (ringWrite u n addr bs) :=
    (effect_ringWrite n addr bs).mono (writeRegs_subset n) (List.Subset.refl _)
  refine Effect.ite (fun _ => Effect.refl s) fun _ => Effect.ite (fun _ => (Effect.refl s).count 1 (by simp [ringRegs, SNS_CH_CNT_DROP_VALUE]))
    fun _ => Effect.put (Effect.ite (fun _ => hwrite _ _ _) fun _ => (hwrite _ _ _).trans (hwrite _ _ _)) _
      (by simp [ringRegs, SNS_CH_PROD_INDEX])

/-! ### The arrival (R304 to R309) -/

/-- The channel with its next number, and the counter as extended. -/
def chanNumbered (c : Chan) (cnt : Option Nat) : Chan := { c with seq := (c.seq + 1) % 2 ^ 32, cnt := cnt }

/-- The stamp of an arrival, and the counter as extended. -/
def stampOf (s : State) (n fnum : Nat) (field : List Byte) : Nat × Option Nat := sensorStamp (chanDesc s n) (chanOf s n) fnum field

/-- The channel's model after an arrival, with the residual. -/
def chanModelled (s : State) (n : Nat) (arr : Int) (fnum : Nat) (field : List Byte) : Chan × Int :=
  modelUpdate (chanDesc s n) (chanNumbered (chanOf s n) (stampOf s n fnum field).2) (stampOf s n fnum field).1 arr

/-- The channel after its quarantine, and whether DESYNC was entered. -/
def chanJudged (s : State) (n : Nat) (arr : Int) (fnum : Nat) (field : List Byte) : Chan × Bool :=
  quarantine s n (chanDesc s n) (chanModelled s n arr fnum field).1 (chanModelled s n arr fnum field).2

/-- A model that restarts is a channel error. -/
def restartMarked (s : State) (n : Nat) (fnum : Nat) (field : List Byte) : State :=
  onIf (modelRestarts (chanOf s n) (stampOf s n fnum field).1)
    (fun s => s.count (SNS_CH_CNT_ERR_VALUE n) 1) s

/-- A channel that enters DESYNC is counted, with its event. -/
def desyncMarked (s : State) (entered : Bool) : State := onIf entered (fun s => (s.count (FUS_CNT_VALUE 0) 1).setOn FUS_EVT_DESYNC) s

/-- Frames and packets take words of the environment for their measurement. -/
def wordsTaken (d : Nat) (s : State) : State := if payloadAt (chKind d) = 64 then s else { s with free := s.free + 16 }

/-- What the record of an arrival does. -/
def recordLanded (s : State) (n : Nat) (c : Chan) (arr tov : Int) (stamp seq : Nat) (ring : Option Nat) (info : ArrivalInfo)
    (payload : List Byte) : State :=
  match ring with
  | some _ => s
  | none => landRecord s n c arr tov stamp seq info payload

theorem fus_restartMarked (n fnum : Nat) (field : List Byte) : (restartMarked s n fnum field).fus = s.fus := by
  unfold restartMarked onIf
  split <;> simp

theorem effect_restartMarked (n fnum : Nat) (field : List Byte) : Effect [SNS_CH_CNT_ERR n] [] s (restartMarked s n fnum field) :=
  (Effect.refl s).onIf fun _ => (Effect.refl s).count 1 (by simp [SNS_CH_CNT_ERR_VALUE])

theorem effect_desyncMarked (entered : Bool) : Effect [FUS_CNT 0, FUS_EVT] [] s (desyncMarked s entered) :=
  (Effect.refl s).onIf fun _ => ((Effect.refl s).count 1 (by decide)).setOn (by decide)

/-- An arrival in steps: its marks, its record, the words it takes, its hold. -/
theorem arriveAt_eq (n : Nat) (arr : Int) (ring : Option Nat) (info : ArrivalInfo) (payload field : List Byte) :
    ∃ meas : List Word32, arriveAt s n arr ring info payload field =
      holdArrival (wordsTaken (chanDesc s n) (recordLanded (desyncMarked (restartMarked s n info.fnum field) (chanJudged s n arr info.fnum field).2) n
          (chanJudged s n arr info.fnum field).1 arr (modelTov (chanDesc s n) (chanJudged s n arr info.fnum field).1)
          (stampOf s n info.fnum field).1 (chanOf s n).seq ring info payload)) n
        (chanJudged s n arr info.fnum field).1
        { arr := arr, tov := modelTov (chanDesc s n) (chanJudged s n arr info.fnum field).1, ring := ring, meas := meas, used := false } := by
  have hq : quarantine (restartMarked s n info.fnum field) n (chanDesc s n) (chanModelled s n arr info.fnum field).1
      (chanModelled s n arr info.fnum field).2 = chanJudged s n arr info.fnum field := quarantine_congr (fus_restartMarked ..) _ _ _ _
  rw [← hq]
  exact ⟨_, rfl⟩

/-- What the quarantine leaves of a channel: its number, its model, its arrivals. -/
structure SameModel (c c' : Chan) : Prop where
  seq : c'.seq = c.seq
  tref : c'.tref = c.tref
  sref : c'.sref = c.sref
  rate : c'.rate = c.rate
  per : c'.per = c.per
  n : c'.n = c.n
  arrivals : c'.arrivals = c.arrivals

/-- The run of good residuals, and VALID (R306). -/
def runCounted (d : Nat) (c : Chan) (e : Int) : Chan :=
  { c with
    okRun := if (e.natAbs : Int) ≤ qthr d c then c.okRun + 1 else 0
    valid := c.valid || chNvalid d ≤ (if (e.natAbs : Int) ≤ qthr d c then c.okRun + 1 else 0) }

/-- DESYNC entered or left, as an arrival passes or not (R307, R309). -/
def passTaken (d : Nat) (c : Chan) (pass : Bool) : Chan × Bool :=
  if c.desync then
    (if pass && chRelockN d ≤ (if pass then c.relock + 1 else 0) then { c with desync := false, relock := 0 }
      else { c with relock := if pass then c.relock + 1 else 0 }, false)
  else (if pass then c else { c with desync := true, relock := 0 }, !pass)

theorem quarantine_eq (n d : Nat) (c : Chan) (e : Int) : ∃ agree : Bool,
    quarantine s n d c e = passTaken d (runCounted d c e) ((chKind d == 5 || decide ((e.natAbs : Int) ≤ qthr d c)) && agree) := by
  refine ⟨peersAgree s n d (runCounted d c e), ?_⟩
  unfold quarantine runCounted
  simp only [decide_eq_true_eq]
  rfl

theorem sameModel_passTaken (d : Nat) (c : Chan) (pass : Bool) : SameModel c (passTaken d c pass).1 := by
  cases hd : c.desync with
  | false =>
    rw [passTaken, hd]
    cases pass <;> exact ⟨rfl, rfl, rfl, rfl, rfl, rfl, rfl⟩
  | true =>
    rw [passTaken, hd]
    cases pass with
    | false => exact ⟨rfl, rfl, rfl, rfl, rfl, rfl, rfl⟩
    | true =>
      simp only [if_true, Bool.true_and]
      split <;> exact ⟨rfl, rfl, rfl, rfl, rfl, rfl, rfl⟩

theorem sameModel_quarantine (n d : Nat) (c : Chan) (e : Int) : SameModel c (quarantine s n d c e).1 := by
  obtain ⟨agree, h⟩ := quarantine_eq (s := s) n d c e
  have hpass := sameModel_passTaken d (runCounted d c e) ((chKind d == 5 || decide ((e.natAbs : Int) ≤ qthr d c)) && agree)
  rw [h]
  exact ⟨hpass.seq, hpass.tref, hpass.sref, hpass.rate, hpass.per, hpass.n, hpass.arrivals⟩

/-- A residual beyond QTHR leaves the channel in DESYNC, FEATURE apart (R307). -/
theorem desync_quarantine {n d : Nat} {c : Chan} {e : Int} (hbeyond : qthr d c < (e.natAbs : Int)) (hkind : chKind d ≠ 5) :
    (quarantine s n d c e).1.desync = true := by
  obtain ⟨agree, h⟩ := quarantine_eq (s := s) n d c e
  have hok : decide ((e.natAbs : Int) ≤ qthr d c) = false := decide_eq_false (by omega)
  have hkind' : (chKind d == 5) = false := beq_eq_false_iff_ne.mpr hkind
  rw [h, hok, hkind', passTaken]
  cases hd : (runCounted d c e).desync <;> simp

theorem modelUpdate_first {d : Nat} {c : Chan} {st : Nat} {a : Int} (h : c.n = 0) :
    modelUpdate d c st a = ({ c with tref := a - (chLat d : Int) * 65536, sref := st, rate := 0, per := chNper d, n := 1, aPrev := a }, 0) := by
  have hno : ¬ modelRestarts c st = true := by simp [modelRestarts, h]
  unfold modelUpdate
  simp only
  rw [if_neg hno, if_pos h]

/-- A later arrival corrects the model by its residual. -/
theorem modelUpdate_next {d : Nat} {c : Chan} {st : Nat} {a : Int} (h : 0 < c.n) (hst : c.sref < st) (hnear : st - c.sref ≤ 0x80000000) :
    ∃ per, modelUpdate d c st a = ({ c with
      tref := modelPred c st + (a - (chLat d : Int) * 65536 - modelPred c st) / 2 ^ chKo d, sref := st
      rate := clampInt (c.rate + (a - (chLat d : Int) * 65536 - modelPred c st) * (chKrm d : Int) / 2 ^ chKrs d) (-858993) 858993
      per := per, n := c.n + 1, aPrev := a }, a - (chLat d : Int) * 65536 - modelPred c st) := by
  have hno : ¬ modelRestarts c st = true := by
    simp only [modelRestarts, Bool.and_eq_true, Bool.or_eq_true, decide_eq_true_eq]
    omega
  unfold modelUpdate
  simp only
  rw [if_neg hno, if_neg (by omega)]
  exact ⟨_, rfl⟩

/-- An update keeps the channel's number and its arrivals. -/
theorem modelUpdate_keeps (d : Nat) (c : Chan) (st : Nat) (a : Int) :
    (modelUpdate d c st a).1.seq = c.seq ∧ (modelUpdate d c st a).1.arrivals = c.arrivals := by
  unfold modelUpdate
  simp only
  split <;> split <;> exact ⟨rfl, rfl⟩

/-- The channel after an arrival. -/
theorem chanJudged_keeps (n : Nat) (arr : Int) (fnum : Nat) (field : List Byte) :
    (chanJudged s n arr fnum field).1.seq = ((chanOf s n).seq + 1) % 2 ^ 32 ∧
      (chanJudged s n arr fnum field).1.arrivals = (chanOf s n).arrivals := by
  have hq := sameModel_quarantine (s := s) n (chanDesc s n) (chanModelled s n arr fnum field).1 (chanModelled s n arr fnum field).2
  obtain ⟨hseq, harr⟩ := modelUpdate_keeps (chanDesc s n) (chanNumbered (chanOf s n) (stampOf s n fnum field).2)
    (stampOf s n fnum field).1 arr
  exact ⟨hq.seq.trans hseq, hq.arrivals.trans harr⟩

/-- The part of the sensor front that an arrival leaves. -/
structure FrontKept (s t : State) : Prop where
  tables : t.fus.tables = s.fus.tables
  spi : t.fus.spi = s.fus.spi
  conv : t.fus.conv = s.fus.conv

theorem FrontKept.trans {u : State} (h : FrontKept s t) (k : FrontKept t u) : FrontKept s u :=
  ⟨k.tables.trans h.tables, k.spi.trans h.spi, k.conv.trans h.conv⟩

theorem FrontKept.of_fus (h : t.fus = s.fus) : FrontKept s t := ⟨by rw [h], by rw [h], by rw [h]⟩

theorem fus_recordLanded (n : Nat) (c : Chan) (arr tov : Int) (stamp seq : Nat) (ring : Option Nat) (info : ArrivalInfo)
    (payload : List Byte) : (recordLanded s n c arr tov stamp seq ring info payload).fus = s.fus := by
  cases ring with
  | some i => rfl
  | none => exact (effect_landRecord n c arr tov stamp seq info payload).keeps .fus (by decide)

theorem fus_wordsTaken (d : Nat) : (wordsTaken d s).fus = s.fus := by
  unfold wordsTaken
  split <;> rfl

/-- The state in which an arrival is held. -/
def arrivalLanded (s : State) (n : Nat) (arr : Int) (ring : Option Nat) (info : ArrivalInfo) (payload field : List Byte) : State :=
  wordsTaken (chanDesc s n) (recordLanded (desyncMarked (restartMarked s n info.fnum field) (chanJudged s n arr info.fnum field).2) n
    (chanJudged s n arr info.fnum field).1 arr (modelTov (chanDesc s n) (chanJudged s n arr info.fnum field).1)
    (stampOf s n info.fnum field).1 (chanOf s n).seq ring info payload)

theorem arriveAt_landed (n : Nat) (arr : Int) (ring : Option Nat) (info : ArrivalInfo) (payload field : List Byte) :
    ∃ meas : List Word32, arriveAt s n arr ring info payload field =
      holdArrival (arrivalLanded s n arr ring info payload field) n (chanJudged s n arr info.fnum field).1
        { arr := arr, tov := modelTov (chanDesc s n) (chanJudged s n arr info.fnum field).1, ring := ring, meas := meas, used := false } :=
  arriveAt_eq n arr ring info payload field

theorem fus_arrivalLanded (n : Nat) (arr : Int) (ring : Option Nat) (info : ArrivalInfo) (payload field : List Byte) :
    (arrivalLanded s n arr ring info payload field).fus = s.fus := by
  rw [arrivalLanded, fus_wordsTaken, fus_recordLanded, (effect_desyncMarked _).keeps .fus (by decide), fus_restartMarked]

/-- The marks of an arrival. -/
def markRegs (n : Nat) : List Nat := [SNS_CH_CNT_ERR n, FUS_CNT 0, FUS_EVT]

theorem effect_marked (n fnum : Nat) (field : List Byte) (entered : Bool) :
    Effect (markRegs n) [] s (desyncMarked (restartMarked s n fnum field) entered) :=
  ((effect_restartMarked n fnum field).mono (by simp [markRegs]) (List.Subset.refl _)).trans
    ((effect_desyncMarked entered).mono (by simp [markRegs]) (List.Subset.refl _))

theorem effect_wordsTaken (d : Nat) : Effect [] [.free] s (wordsTaken d s) :=
  Effect.ite (fun _ => Effect.refl s) fun _ => (Effect.refl s).free _ (by decide)

/-- The registers of an arrival and its record, with the pulses that merge. -/
def arriveRegs (n : Nat) : List Nat := mergeRegs ++ engineRegs ++ landRegs n

theorem effect_arriveAt (n : Nat) (arr : Int) (ring : Option Nat) (info : ArrivalInfo) (payload field : List Byte) :
    Effect (arriveRegs n) (.fus :: engineParts) s (arriveAt s n arr ring info payload field) := by
  obtain ⟨meas, h⟩ := arriveAt_landed (s := s) n arr ring info payload field
  rw [h]
  have hmark := (effect_marked (s := s) n info.fnum field (chanJudged s n arr info.fnum field).2).mono
    (show markRegs n ⊆ arriveRegs n by simp [markRegs, arriveRegs, landRegs, arrivalRegs]) (show [] ⊆ Part.fus :: engineParts by simp)
  have hland (u : State) (c : Chan) (tov : Int) (stamp seq : Nat) :
      Effect (arriveRegs n) (.fus :: engineParts) u (recordLanded u n c arr tov stamp seq ring info payload) := by
    cases ring with
    | some i => exact Effect.refl u
    | none =>
      refine (effect_landRecord n c arr tov stamp seq info payload).mono ?_ (by decide)
      simp [ringRegs, arriveRegs, accessRegs, mergeRegs, landRegs, arrivalRegs]
      exact fun a ha => by simp [ha]
  exact ((hmark.trans (hland _ _ _ _ _)).trans ((effect_wordsTaken _).mono (List.nil_subset _) (by decide))).trans
    ((effect_holdArrival n _ _).mono (by simp [holdRegs, arriveRegs, mergeRegs, landRegs, arrivalRegs]) (by decide))

/-- Without a record the arrival stays with its own registers. -/
theorem effect_arriveAt_plain {n : Nat} {ring : Option Nat} (hring : ring.isSome = true ∨ chRing (chanDesc s n) = 0) {parts : List Part}
    (hf : Part.fus ∈ parts) (hw : payloadAt (chKind (chanDesc s n)) = 64 ∨ Part.free ∈ parts) (arr : Int) (info : ArrivalInfo)
    (payload field : List Byte) : Effect (mergeRegs ++ arrivalRegs n) parts s (arriveAt s n arr ring info payload field) := by
  obtain ⟨meas, h⟩ := arriveAt_landed (s := s) n arr ring info payload field
  rw [h, arrivalLanded]
  have hmark := (effect_marked (s := s) n info.fnum field (chanJudged s n arr info.fnum field).2).mono
    (show markRegs n ⊆ mergeRegs ++ arrivalRegs n by simp [markRegs, arrivalRegs]) (show [] ⊆ parts by simp)
  have hdesc : chanDesc (desyncMarked (restartMarked s n info.fnum field) (chanJudged s n arr info.fnum field).2) n = chanDesc s n :=
    chanDesc_congr (congrArg Fusion.tables ((effect_marked (s := s) n info.fnum field _).keeps .fus (by decide))) n
  have hland (c : Chan) (tov : Int) (stamp seq : Nat) : recordLanded (desyncMarked (restartMarked s n info.fnum field)
      (chanJudged s n arr info.fnum field).2) n c arr tov stamp seq ring info payload =
      desyncMarked (restartMarked s n info.fnum field) (chanJudged s n arr info.fnum field).2 := by
    cases ring with
    | some i => rfl
    | none => exact landRecord_of_noRing (hdesc ▸ hring.resolve_left (by decide)) c arr tov stamp seq info payload
  rw [hland]
  have hwords : Effect (mergeRegs ++ arrivalRegs n) parts s (wordsTaken (chanDesc s n)
      (desyncMarked (restartMarked s n info.fnum field) (chanJudged s n arr info.fnum field).2)) := by
    rcases hw with hw | hw
    · rw [wordsTaken, if_pos hw]
      exact hmark
    · exact hmark.trans ((effect_wordsTaken _).mono (List.nil_subset _) (by simp [hw]))
  exact hwords.trans ((effect_holdArrival n _ _).mono (by simp [holdRegs, mergeRegs, arrivalRegs]) (by simp [hf]))

/-- What an arrival makes of the channels. -/
theorem chans_arriveAt (n : Nat) (arr : Int) (ring : Option Nat) (info : ArrivalInfo) (payload field : List Byte) :
    (∃ meas : List Word32, chanOf (arriveAt s n arr ring info payload field) n = { (chanJudged s n arr info.fnum field).1 with
      arrivals := (chanOf s n).arrivals ++
        [{ arr := arr, tov := modelTov (chanDesc s n) (chanJudged s n arr info.fnum field).1, ring := ring, meas := meas, used := false }] }) ∧
    (∀ m, m ≠ n → chanOf (arriveAt s n arr ring info payload field) m = chanOf s m) ∧
    FrontKept s (arriveAt s n arr ring info payload field) := by
  obtain ⟨meas, h⟩ := arriveAt_landed (s := s) n arr ring info payload field
  have hfus := fus_arrivalLanded (s := s) n arr ring info payload field
  rw [h]
  generalize arrivalLanded s n arr ring info payload field = u at hfus
  obtain ⟨hchans, htables, hspi, hconv⟩ := fus_holdArrival (s := u) n (chanJudged s n arr info.fnum field).1
    { arr := arr, tov := modelTov (chanDesc s n) (chanJudged s n arr info.fnum field).1, ring := ring, meas := meas, used := false }
  refine ⟨⟨meas, ?_⟩, fun m hm => ?_, ⟨by rw [htables, hfus], by rw [hspi, hfus], by rw [hconv, hfus]⟩⟩
  · rw [chanOf_holdArrival_same, (chanJudged_keeps n arr info.fnum field).2]
  · rw [chanOf_holdArrival_ne hm, chanOf, hfus]
    rfl

theorem chanModelled_first {n : Nat} {arr : Int} {fnum : Nat} {field : List Byte} (h : (chanOf s n).n = 0) :
    (chanModelled s n arr fnum field).1.tref = arr - (chLat (chanDesc s n) : Int) * 65536 ∧
      (chanModelled s n arr fnum field).1.rate = 0 ∧ (chanModelled s n arr fnum field).1.per = chNper (chanDesc s n) ∧
      (chanModelled s n arr fnum field).1.n = 1 := by
  have hn : (chanNumbered (chanOf s n) (stampOf s n fnum field).2).n = 0 := h
  rw [chanModelled, modelUpdate_first hn]
  exact ⟨rfl, rfl, rfl, rfl⟩

/-- A later arrival corrects the channel's model by its residual. -/
theorem chanModelled_next {n : Nat} {arr : Int} {fnum : Nat} {field : List Byte} {stamp : Nat} {pred e : Int} (hn : 0 < (chanOf s n).n)
    (hstamp : (stampOf s n fnum field).1 = stamp) (hlt : (chanOf s n).sref < stamp) (hnear : stamp - (chanOf s n).sref ≤ 0x80000000)
    (hpred : modelPred (chanOf s n) stamp = pred) (he : e = arr - (chLat (chanDesc s n) : Int) * 65536 - pred) :
    (chanModelled s n arr fnum field).1.tref = pred + e / 2 ^ chKo (chanDesc s n) ∧ (chanModelled s n arr fnum field).1.sref = stamp ∧
      (chanModelled s n arr fnum field).1.rate = clampInt ((chanOf s n).rate + e * (chKrm (chanDesc s n) : Int) / 2 ^ chKrs (chanDesc s n))
        (-858993) 858993 ∧ (chanModelled s n arr fnum field).1.n = (chanOf s n).n + 1 ∧ (chanModelled s n arr fnum field).2 = e := by
  obtain ⟨per, hmodel⟩ := modelUpdate_next (d := chanDesc s n) (a := arr) (c := chanNumbered (chanOf s n) (stampOf s n fnum field).2)
    hn hlt hnear
  have hp : modelPred (chanNumbered (chanOf s n) (stampOf s n fnum field).2) stamp = pred := hpred
  rw [hp, ← he] at hmodel
  rw [chanModelled, hstamp, hmodel]
  exact ⟨rfl, rfl, rfl, rfl, rfl⟩

/-- An arrival that has gone through `arriveAt` has been taken; `u` has the channels and tables of `s`. -/
theorem arrivalTaken_arriveAt {u : State} {n : Nat} {arr : Int} {ring : Option Nat} {info : ArrivalInfo} {payload field : List Byte}
    (htables : u.fus.tables = s.fus.tables) (hchans : u.fus.chans = s.fus.chans)
    (ht : t.fus = (arriveAt u n arr ring info payload field).fus)
    (hfield : field = payload.drop (chSofs (chanDesc s n))) : ArrivalTaken s t n arr info.fnum ring payload := by
  obtain ⟨⟨meas, hsame⟩, hothers, -⟩ := chans_arriveAt (s := u) n arr ring info payload field
  have hdesc : chanDesc u n = chanDesc s n := chanDesc_congr htables n
  have hchan (m : Nat) : chanOf u m = chanOf s m := chanOf_congr hchans m
  rw [← chanOf_congr (congrArg Fusion.chans ht) n] at hsame
  have hjudged := sameModel_quarantine (s := u) n (chanDesc u n) (chanModelled u n arr info.fnum field).1
    (chanModelled u n arr info.fnum field).2
  refine ⟨?_, ⟨_, by rw [hsame]; exact List.getLast?_concat .., rfl, rfl, rfl, ?_⟩, fun hn => ?_, fun stamp pred e hn hstamp hlt hnear hpred he =>
    ?_, fun m hm => ?_⟩
  · rw [hsame, ← hchan]
    exact (chanJudged_keeps n arr info.fnum field).1
  · rw [hsame, hdesc]
    rfl
  · obtain ⟨htref, hrate, hper, hone⟩ := chanModelled_first (s := u) (arr := arr) (fnum := info.fnum) (field := field) ((hchan n).symm ▸ hn)
    rw [hsame, ← hdesc]
    exact ⟨hjudged.tref.trans htref, hjudged.rate.trans hrate, hjudged.per.trans hper, hjudged.n.trans hone⟩
  · rw [← hfield, ← hdesc, ← hchan] at hstamp
    rw [← hchan] at hn hlt hnear hpred ⊢
    rw [← hdesc] at he ⊢
    obtain ⟨htref, hsref, hrate, hnum, hres⟩ := chanModelled_next hn hstamp.symm hlt hnear hpred.symm he
    rw [hsame]
    refine ⟨hjudged.tref.trans htref, hjudged.sref.trans hsref, hjudged.rate.trans hrate, hjudged.n.trans hnum, fun hbeyond hkind =>
      desync_quarantine ?_ hkind⟩
    rw [hres]
    refine lt_of_eq_of_lt ?_ hbeyond
    show _ * _ / 16 = _ * _ / 16
    rw [← hjudged.per]
    rfl
  · rw [chanOf_congr (congrArg Fusion.chans ht) m, hothers m hm, hchan]

/-- Arrivals on several channels, one after the other. -/
theorem arrivals_foldl {l : List Nat} (hl : l.Nodup) (s : State) (arr : Int) (info : ArrivalInfo) (data : List Byte) :
    (∀ n ∈ l, (chanOf (l.foldl (fun s n => arrive s n arr none info data) s) n).seq = ((chanOf s n).seq + 1) % 2 ^ 32 ∧
      ∃ a, (chanOf (l.foldl (fun s n => arrive s n arr none info data) s) n).arrivals.getLast? = some a ∧ a.arr = arr ∧ a.used = false) ∧
    (∀ m, m ∉ l → chanOf (l.foldl (fun s n => arrive s n arr none info data) s) m = chanOf s m) ∧
    FrontKept s (l.foldl (fun s n => arrive s n arr none info data) s) ∧
    Effect (mergeRegs ++ engineRegs ++ l.flatMap landRegs) (.fus :: engineParts) s
      (l.foldl (fun s n => arrive s n arr none info data) s) := by
  induction l generalizing s with
  | nil => exact ⟨fun n hn => absurd hn (by simp), fun _ _ => rfl, FrontKept.of_fus rfl, Effect.refl s⟩
  | cons x l ih =>
    obtain ⟨hx, hl⟩ := List.nodup_cons.mp hl
    obtain ⟨hrest, hothers, hfront, heff⟩ := ih hl (arrive s x arr none info data)
    obtain ⟨⟨meas, hsame⟩, hstand, hfront'⟩ := chans_arriveAt (s := s) x arr none info data (data.drop (chSofs (chanDesc s x)))
    have heff' := effect_arriveAt (s := s) x arr none info data (data.drop (chSofs (chanDesc s x)))
    rw [List.foldl_cons]
    refine ⟨fun n hn => ?_, fun m hm => ?_, FrontKept.trans hfront' hfront,
      (heff'.mono (fun a ha => ?_) (List.Subset.refl _)).trans (heff.mono (fun a ha => ?_) (List.Subset.refl _))⟩
    · by_cases he : n = x
      · subst he
        rw [hothers n hx, arrive, hsame]
        exact ⟨(chanJudged_keeps ..).1, _, List.getLast?_concat .., rfl, rfl⟩
      · have hmem := (List.mem_cons.mp hn).resolve_left he
        rw [← hstand n he]
        exact hrest n hmem
    · rw [List.mem_cons, not_or] at hm
      rw [hothers m hm.2]
      exact hstand m hm.1
    · simp only [arriveRegs, List.mem_append, List.flatMap_cons] at ha ⊢
      tauto
    · simp only [List.mem_append, List.flatMap_cons] at ha ⊢
      tauto

/-- What arrivals write lies with the channels' registers and beyond. -/
theorem le_of_mem_landRegs {n a : Nat} (h : a ∈ landRegs n) : 0x100005001000 ≤ a := by
  simp only [landRegs, arrivalRegs, List.mem_append, List.mem_cons, List.not_mem_nil, or_false, SNS_CH_PROD, SNS_CH_CNT_DROP,
    SNS_CH_CNT_ERR, FUS_CNT, FUS_EVT, FUS_CH_VALID, FUS_CH_DESYNC] at h
  omega

theorem not_mem_arrivalRegs {a : Nat} (hlow : a < 0x100005001000) (h : a ∉ mergeRegs ++ engineRegs) (l : List Nat) :
    a ∉ mergeRegs ++ engineRegs ++ l.flatMap landRegs := by
  rw [List.mem_append, not_or]
  refine ⟨h, fun hm => ?_⟩
  obtain ⟨n, -, hn⟩ := List.mem_flatMap.mp hm
  have := le_of_mem_landRegs hn
  omega

theorem mergeRegs_subset {l r : List Nat} (h : l ⊆ r) : mergeRegs ++ l ⊆ DGN_CNT_MERGE :: DGN_EVT :: r :=
  List.cons_subset_cons _ (List.cons_subset_cons _ h)

/-- The arrivals on several channels have been held, in a state that settles. -/
theorem arrivalsHeld_foldl {u : State} {l : List Nat} (hl : l.Nodup) {arr : Int} {info : ArrivalInfo} {data : List Byte} {regs : List Nat}
    (hu : u.fus.chans = s.fus.chans) (heff : Effect regs [.fus] s u)
    (ht : Settled s.fuses s (l.foldl (fun s n => arrive s n arr none info data) u) t) : ArrivalsHeld s t l arr regs := by
  obtain ⟨heach, hothers, -, hfold⟩ := arrivals_foldl hl u arr info data
  have hchan (m : Nat) : chanOf t m = chanOf (l.foldl (fun s n => arrive s n arr none info data) u) m :=
    chanOf_congr (congrArg Fusion.chans ht.fus) m
  refine ⟨fun n hn => ?_, fun m hm => ?_, ht.changesOnly_pulsed
    ((heff.mono (fun a ha => ?_) (by simp)).trans (hfold.mono (fun a ha => ?_) (List.Subset.refl _)))⟩
  · rw [hchan, ← chanOf_congr hu]
    exact heach n hn
  · rw [hchan, hothers m hm, chanOf_congr hu]
  · simp only [List.mem_cons, List.mem_append]
    tauto
  · simp only [mergeRegs, List.mem_cons, List.mem_append, List.not_mem_nil, or_false] at ha ⊢
    tauto

/-! ### Frames of the sensor ports (R295, R296, R297) -/

/-- The headers corrected and the packets that failed are counted. -/
def packetsCounted (s : State) (ecc crcErr : Nat) : State :=
  (s.count SNS_CNT_ECC_VALUE (ecc % 65536)).count SNS_CNT_CRC_VALUE (ecc / 65536 + crcErr)

theorem effect_packetsCounted (ecc crcErr : Nat) : Effect [SNS_CNT_ECC, SNS_CNT_CRC] [] s (packetsCounted s ecc crcErr) :=
  ((Effect.refl s).count _ (by decide)).count _ (by decide)

theorem fus_packetsCounted (ecc crcErr : Nat) : (packetsCounted s ecc crcErr).fus = s.fus :=
  (effect_packetsCounted ecc crcErr).keeps .fus (by decide)

/-- What a frame brings beside its bytes. -/
def frameInfo (fnum lines bpl ecc crcErr : Nat) : ArrivalInfo :=
  { flags := ofBool (crcErr ≠ 0) + 2 * ofBool (ecc % 65536 ≠ 0), fnum := fnum % 65536, bpl := bpl, lines := lines }

/-- The channels that select a frame. -/
def csiChannels (s : State) (p vc dt : Nat) : List Nat := channelsOf s 0 fun d => chPort d == p && chVc d == vc && chDt d == dt

theorem exec_csi2Frame {p ts vc dt fnum lines bpl ecc crcErr : Nat} {data : List Byte} (hcsi : csiOn s p = true) (hdt : dt ∈ csiTypes)
    (hvc : vc < 4) : exec (.csi2Frame p ts (vc * 64 + dt) fnum lines bpl ecc crcErr data) s = finish s
      ((csiChannels s p vc dt).foldl (fun s n => arrive s n ((ts * 65536 : Nat) : Int) none (frameInfo fnum lines bpl ecc crcErr) data)
        (packetsCounted s ecc crcErr)) := by
  have hlt : dt < 64 := by
    revert dt
    decide
  have hid : (vc * 64 + dt) % 64 = dt ∧ (vc * 64 + dt) / 64 = vc := by omega
  have hgo : ¬ ((!csiOn s p) = true ∨ (vc * 64 + dt) % 64 ∉ csiTypes ∨ 256 ≤ vc * 64 + dt) := by
    rw [hid.1, hcsi]
    simp only [hdt, Bool.not_true, Bool.false_eq_true, not_true, false_or]
    omega
  show execCsi2Frame p ts (vc * 64 + dt) fnum lines bpl ecc crcErr data s = _
  unfold execCsi2Frame
  rw [if_neg hgo, hid.1, hid.2, csiChannels, ← channelsOf_congr (congrArg Fusion.tables (fus_packetsCounted (s := s) ecc crcErr))]
  rfl

theorem completes_csi2Frame (hon : s.powered) {p ts vc dt fnum lines bpl ecc crcErr : Nat} {data : List Byte} (hcsi : csiOn s p = true)
    (hdt : dt ∈ csiTypes) (hvc : vc < 4) :
    Completes (.csi2Frame p ts (vc * 64 + dt) fnum lines bpl ecc crcErr data) s fun t =>
      t.get SNS_CNT_ECC_VALUE = satAdd 32 (s.get SNS_CNT_ECC_VALUE) (ecc % 65536) ∧
      t.get SNS_CNT_CRC_VALUE = satAdd 32 (s.get SNS_CNT_CRC_VALUE) (ecc / 65536 + crcErr) ∧
      ArrivalsHeld s t (channelsOf s 0 fun d => chPort d == p && chVc d == vc && chDt d == dt) ((ts * 65536 : Nat) : Int)
        [SNS_CNT_ECC, SNS_CNT_CRC] ∧
      (∀ n, n < 64 → channelsOf s 0 (fun d => chPort d == p && chVc d == vc && chDt d == dt) = [n] → fnum < 65536 →
        chRing (chanDesc s n) = 0 → ArrivalTaken s t n ((ts * 65536 : Nat) : Int) fnum none data ∧
        ChangesOnly (SNS_CNT_ECC :: SNS_CNT_CRC :: arrivalRegs n) [.fus, .free] s t) := by
  have hexec := exec_csi2Frame (s := s) (ts := ts) (fnum := fnum) (lines := lines) (bpl := bpl) (ecc := ecc) (crcErr := crcErr)
    (data := data) hcsi hdt hvc
  have hcount := effect_packetsCounted (s := s) ecc crcErr
  have hfus := fus_packetsCounted (s := s) ecc crcErr
  have hecc : (packetsCounted s ecc crcErr).get SNS_CNT_ECC_VALUE = satAdd 32 (s.get SNS_CNT_ECC_VALUE) (ecc % 65536) := by
    rw [packetsCounted, State.get_count_apart (by decide)]
    exact State.get_count_self (by decide) _
  have hcrc : (packetsCounted s ecc crcErr).get SNS_CNT_CRC_VALUE = satAdd 32 (s.get SNS_CNT_CRC_VALUE) (ecc / 65536 + crcErr) := by
    rw [← State.get_count_apart (s := s) (f := SNS_CNT_ECC_VALUE) (g := SNS_CNT_CRC_VALUE) (by decide) (ecc % 65536)]
    exact State.get_count_self (by decide) _
  generalize packetsCounted s ecc crcErr = u at hexec hcount hfus hecc hcrc
  obtain ⟨-, -, -, hfold⟩ := arrivals_foldl (nodup_channelsOf (s := s) 0 fun d => chPort d == p && chVc d == vc && chDt d == dt) u
    ((ts * 65536 : Nat) : Int) (frameInfo fnum lines bpl ecc crcErr) data
  refine completes_of_settled hexec hon fun t hs => ⟨?_, ?_, ?_, fun n hn hone hfnum hring => ?_⟩
  · rw [hs.get _ (by decide) (by decide), csiChannels, hfold.get (not_mem_arrivalRegs (by decide) (by decide) _), hecc]
  · rw [hs.get _ (by decide) (by decide), csiChannels, hfold.get (not_mem_arrivalRegs (by decide) (by decide) _), hcrc]
  · exact arrivalsHeld_foldl (nodup_channelsOf ..) (by rw [hfus]) (hcount.mono (List.Subset.refl _) (by simp)) hs
  · rw [csiChannels, hone, List.foldl_cons, List.foldl_nil] at hs
    have hinfo : (frameInfo fnum lines bpl ecc crcErr).fnum = fnum := Nat.mod_eq_of_lt hfnum
    have hdesc : chanDesc u n = chanDesc s n := chanDesc_congr (congrArg Fusion.tables hfus) n
    refine ⟨?_, hs.changesOnly_pulsed ((hcount.mono (by simp) (by simp)).trans ((effect_arriveAt_plain (.inr (hdesc ▸ hring)) (by decide)
      (.inr (by decide)) _ _ _ _).mono (mergeRegs_subset (by simp)) (List.Subset.refl _)))⟩
    have htaken := arrivalTaken_arriveAt (s := s) (t := t) (congrArg Fusion.tables hfus) (congrArg Fusion.chans hfus) hs.fus (by rw [hdesc])
    rw [hinfo] at htaken
    exact htaken

/-- The channels that select an Ethernet frame. -/
def ethChannels (s : State) (port : Nat) (data : List Byte) : List Nat :=
  channelsOf s 1 fun d => chPort d == port && chEtype d == (etherType data).1 && (chUdpp d == 0 || udpPort data == some (chUdpp d))

theorem exec_ethSensorFrame {port ts : Nat} {fcsOk : Bool} {data : List Byte} (hen : s.on SNS_CTRL_ENABLE = true) (hport : port < 4)
    (hgood : ethDropKind port fcsOk data = none) (hptp : (etherType data).1 ≠ 0x88F7) :
    exec (.ethSensorFrame port ts fcsOk data) s = finish s (match ethChannels s port data with
      | [] => s.count SNS_CNT_NOMATCH_VALUE 1
      | n :: _ => arrive s n ((ts * 65536 : Nat) : Int) none { flags := 0, fnum := 0, bpl := 0, lines := 0 } data) := by
  have hgo : ¬ ((!s.on SNS_CTRL_ENABLE) = true ∨ 4 ≤ port) := by
    rw [hen]
    simp only [Bool.not_true, Bool.false_eq_true, false_or]
    omega
  show execEthSensorFrame port ts fcsOk data s = _
  unfold execEthSensorFrame
  rw [if_neg hgo, if_neg (by rw [hgood]; exact fun h => h rfl), if_neg hptp]
  rfl

theorem completes_ethSensorFrame (hon : s.powered) {port ts : Nat} {fcsOk : Bool} {data : List Byte} (hen : s.on SNS_CTRL_ENABLE = true)
    (hport : port < 4) (hgood : ethDropKind port fcsOk data = none) (hptp : (etherType data).1 ≠ 0x88F7) {n : Nat} {l : List Nat}
    (hsel : ethChannels s port data = n :: l) : Completes (.ethSensorFrame port ts fcsOk data) s fun t =>
      ArrivalsHeld s t [n] ((ts * 65536 : Nat) : Int) [] ∧
      (chRing (chanDesc s n) = 0 → ArrivalTaken s t n ((ts * 65536 : Nat) : Int) 0 none data ∧
        ChangesOnly (arrivalRegs n) [.fus, .free] s t) := by
  have hexec := exec_ethSensorFrame (s := s) (ts := ts) hen hport hgood hptp
  rw [hsel] at hexec
  refine completes_of_settled hexec hon fun t hs => ⟨arrivalsHeld_foldl (u := s) (List.nodup_singleton n) rfl (Effect.refl s) hs,
    fun hring => ⟨arrivalTaken_arriveAt rfl rfl hs.fus rfl, hs.changesOnly_pulsed ((effect_arriveAt_plain (.inr hring) (by decide)
      (.inr (by decide)) _ _ _ _).mono (mergeRegs_subset (List.Subset.refl _)) (List.Subset.refl _))⟩⟩

theorem completes_ethSensorFrame_none (hon : s.powered) {port ts : Nat} {fcsOk : Bool} {data : List Byte}
    (hen : s.on SNS_CTRL_ENABLE = true) (hport : port < 4) (hgood : ethDropKind port fcsOk data = none)
    (hptp : (etherType data).1 ≠ 0x88F7) (hsel : ethChannels s port data = []) :
    Completes (.ethSensorFrame port ts fcsOk data) s fun t =>
      t.get SNS_CNT_NOMATCH_VALUE = satAdd 32 (s.get SNS_CNT_NOMATCH_VALUE) 1 ∧ ChangesOnly [SNS_CNT_NOMATCH] [] s t := by
  have hexec := exec_ethSensorFrame (s := s) (ts := ts) hen hport hgood hptp
  rw [hsel] at hexec
  refine completes_of_settled hexec hon fun t hs => ⟨?_, hs.changesOnly ((Effect.refl s).count 1 (by decide))⟩
  rw [hs.get _ (by decide) (by decide)]
  exact State.get_count_self (by decide) 1

/-- A transaction is over. -/
def spiEnded (s : State) (q : Nat) : State := { s with fus := { s.fus with spi := tdel s.fus.spi q } }

theorem effect_spiEnded (q : Nat) : Effect [] [.fus] s (spiEnded s q) := (Effect.refl s).fus _ (by decide)

/-- What a burst brings beside its bytes. -/
def plainInfo : ArrivalInfo := { flags := 0, fnum := 0, bpl := 0, lines := 0 }

/-- The bytes of a burst. -/
def burstBytes (s : State) (q : Nat) (data : List Byte) : List Byte := padBytes (min 64 (s.get (SNS_IMU_CFG_BURST q))) data

theorem exec_imuBurstComplete {q tm : Nat} (data : List Byte) (hspi : tget s.fus.spi q = some tm) :
    exec (.imuBurstComplete q data) s = finish s ((imuChannels s q).foldl
      (fun s' n => arrive s' n ((tm * 65536 : Nat) : Int) none plainInfo (burstBytes s q data)) (spiEnded s q)) := by
  show execImuBurstComplete q data s = _
  unfold execImuBurstComplete
  rw [hspi]
  rfl

theorem completes_imuBurstComplete (hon : s.powered) {q tm : Nat} (data : List Byte) (hspi : tget s.fus.spi q = some tm) :
    Completes (.imuBurstComplete q data) s fun t => tget t.fus.spi q = none ∧
      ArrivalsHeld s t (imuChannels s q) ((tm * 65536 : Nat) : Int) [] ∧
      (∀ n, imuChannels s q = [n] → chRing (chanDesc s n) = 0 →
        ArrivalTaken s t n ((tm * 65536 : Nat) : Int) 0 none (padBytes (min 64 (s.get (SNS_IMU_CFG_BURST q))) data) ∧
        ChangesOnly (arrivalRegs n) [.fus] s t) := by
  have hexec := exec_imuBurstComplete data hspi
  obtain ⟨-, -, hfront, -⟩ := arrivals_foldl (l := imuChannels s q) (nodup_channelsOf ..) (spiEnded s q) ((tm * 65536 : Nat) : Int) plainInfo
    (burstBytes s q data)
  refine completes_of_settled hexec hon fun t hs => ⟨?_, arrivalsHeld_foldl (u := spiEnded s q)
    (l := imuChannels s q) (nodup_channelsOf ..) rfl (effect_spiEnded q) hs,
    fun n hone hring => ?_⟩
  · rw [hs.fus, hfront.spi]
    exact tget_tdel_same ..
  · rw [hone, List.foldl_cons, List.foldl_nil] at hs
    have hkind : chKind (chanDesc s n) = 2 :=
      (mem_channelsOf (s := s) (show n ∈ imuChannels s q by rw [hone]; exact List.mem_singleton_self n)).2.1
    have hdesc : chanDesc (spiEnded s q) n = chanDesc s n := rfl
    have harr : Effect (mergeRegs ++ arrivalRegs n) [.fus] (spiEnded s q)
        (arrive (spiEnded s q) n ((tm * 65536 : Nat) : Int) none plainInfo (burstBytes s q data)) :=
      effect_arriveAt_plain (.inr (hdesc ▸ hring)) (by decide) (.inl (by rw [hdesc, hkind]; rfl)) _ _ _ _
    exact ⟨arrivalTaken_arriveAt (u := spiEnded s q) (info := plainInfo) rfl rfl hs.fus rfl, hs.changesOnly_pulsed
      (((effect_spiEnded q).mono (List.nil_subset _) (List.Subset.refl _)).trans (harr.mono (mergeRegs_subset (List.Subset.refl _))
        (List.Subset.refl _)))⟩

/-! ### Edges of the data-ready lines (R297) -/

/-- A transaction runs on a port. -/
def spiStarted (s : State) (q : Nat) : State := { s with fus := { s.fus with spi := tset s.fus.spi q s.nowNs } }

/-- The command of a port. -/
def spiCommand (s : State) (q : Nat) : List Byte := (leBytes 4 (s.get (SNS_IMU_CFG_CMD q))).take (s.get (SNS_IMU_CFG_CMDLEN q))

/-- An edge during a transaction is an error of each channel. -/
def edgeCounted (s : State) (l : List Nat) : State := l.foldl (fun s n => s.count (SNS_CH_CNT_ERR_VALUE n) 1) s

theorem effect_edgeCounted (l : List Nat) : Effect (l.map SNS_CH_CNT_ERR) [] s (edgeCounted s l) :=
  (Effect.refl s).foldl fun u _ hn => (Effect.refl u).count 1 (List.mem_map_of_mem hn)

theorem snsErr_ne {m n : Nat} (h : m ≠ n) : (SNS_CH_CNT_ERR_VALUE m).addr ≠ (SNS_CH_CNT_ERR_VALUE n).addr := by
  simp only [SNS_CH_CNT_ERR_VALUE, SNS_CH_CNT_ERR]
  omega

/-- Each channel of a list without repetition is counted once. -/
theorem get_edgeCounted {l : List Nat} (hl : l.Nodup) {m : Nat} (hm : m ∈ l) (s : State) :
    (edgeCounted s l).get (SNS_CH_CNT_ERR_VALUE m) = satAdd 32 (s.get (SNS_CH_CNT_ERR_VALUE m)) 1 := by
  induction l generalizing s with
  | nil => simp at hm
  | cons x l ih =>
    obtain ⟨hx, hl⟩ := List.nodup_cons.mp hl
    show (edgeCounted (s.count (SNS_CH_CNT_ERR_VALUE x) 1) l).get _ = _
    by_cases he : m = x
    · subst he
      have hstand : (SNS_CH_CNT_ERR_VALUE m).addr ∉ l.map SNS_CH_CNT_ERR := by
        rw [List.mem_map]
        rintro ⟨y, hy, he⟩
        exact snsErr_ne (m := y) (n := m) (fun e => hx (e ▸ hy)) he
      rw [(effect_edgeCounted l).get hstand]
      exact State.get_count_self (f := SNS_CH_CNT_ERR_VALUE m) (show 0 ≤ 31 ∧ 31 < 64 by decide) 1
    · rw [ih hl ((List.mem_cons.mp hm).resolve_left he), State.get_count_apart (.inl (snsErr_ne he))]

theorem exec_imuDataReady {q : Nat} (hq : q < 4) (hen : s.on SNS_CTRL_ENABLE = true) (hburst : s.get (SNS_IMU_CFG_BURST q) ≠ 0) :
    exec (.imuDataReady q (s.on (SNS_IMU_CFG_DRPOL q))) s = finish s (match tget s.fus.spi q with
      | some _ => edgeCounted s (imuChannels s q)
      | none => spiStarted (s.send (.spi q (spiCommand s q))) q) := by
  have hgo : ¬ ((!s.on SNS_CTRL_ENABLE) = true ∨ 4 ≤ q ∨ s.get (SNS_IMU_CFG_BURST q) = 0 ∨
      s.on (SNS_IMU_CFG_DRPOL q) ≠ s.on (SNS_IMU_CFG_DRPOL q)) := by
    rw [hen]
    simp only [Bool.not_true, Bool.false_eq_true, false_or, hburst, ne_eq, not_true, or_false]
    omega
  show execImuDataReady q (s.on (SNS_IMU_CFG_DRPOL q)) s = _
  unfold execImuDataReady
  rw [if_neg hgo]
  rfl

theorem completes_imuDataReady_start (hon : s.powered) {q : Nat} (hq : q < 4) (hen : s.on SNS_CTRL_ENABLE = true)
    (hburst : s.get (SNS_IMU_CFG_BURST q) ≠ 0) (hspi : tget s.fus.spi q = none) :
    Completes (.imuDataReady q (s.on (SNS_IMU_CFG_DRPOL q))) s fun t =>
      tget t.fus.spi q = some s.nowNs ∧ (∃ l, t.outbox = s.outbox ++
        .spi q ((leBytes 4 (s.get (SNS_IMU_CFG_CMD q))).take (s.get (SNS_IMU_CFG_CMDLEN q))) :: l) ∧
      (∀ m, chanOf t m = chanOf s m) ∧ ChangesOnly [] [.fus, .out] s t := by
  have hexec := exec_imuDataReady hq hen hburst
  rw [hspi] at hexec
  refine completes_of_settled hexec hon fun t hs => ⟨?_, ?_, fun m => ?_, hs.changesOnly
    (((Effect.refl s).send _ (by decide)).fus _ (by decide))⟩
  · rw [hs.fus]
    exact tget_tset_same ..
  · obtain ⟨l, hl, -⟩ := hs.out
    exact ⟨l, by rw [hl]; exact List.append_assoc ..⟩
  · rw [chanOf, hs.fus]
    rfl

theorem completes_imuDataReady_busy (hon : s.powered) {q : Nat} (hq : q < 4) (hen : s.on SNS_CTRL_ENABLE = true)
    (hburst : s.get (SNS_IMU_CFG_BURST q) ≠ 0) {tm : Nat} (hspi : tget s.fus.spi q = some tm) :
    Completes (.imuDataReady q (s.on (SNS_IMU_CFG_DRPOL q))) s fun t =>
      (∀ m ∈ imuChannels s q, t.get (SNS_CH_CNT_ERR_VALUE m) = satAdd 32 (s.get (SNS_CH_CNT_ERR_VALUE m)) 1) ∧
      ChangesOnly ((imuChannels s q).map SNS_CH_CNT_ERR) [] s t := by
  have hexec := exec_imuDataReady hq hen hburst
  rw [hspi] at hexec
  refine completes_of_settled hexec hon fun t hs => ⟨fun m hm => ?_, hs.changesOnly (effect_edgeCounted _)⟩
  have hlt := (mem_channelsOf hm).1
  obtain ⟨h1, h2⟩ := segment_settles (a := SNS_CH_CNT_ERR m) (by unfold SNS_CH_CNT_ERR DGN_EPOCH; omega)
  rw [hs.get _ h1 h2]
  exact get_edgeCounted (nodup_channelsOf ..) hm s

/-! ### Conversions (R298, R306) -/

/-- A conversion is counted, and makes the channel valid. -/
def convCounted (c : Chan) : Chan := { c with conv := c.conv + 1, valid := true }

/-- The value of a code. -/
def analogValue (d : Nat) (code : Int) : Word32 := fma (f32OfInt code) (chScale d) (chBias d)

/-- The arrival that a conversion makes. -/
def analogArrival (d t : Nat) (code : Int) : Arrival :=
  { arr := t, tov := (t : Int) + chTovOfs d * 65536, ring := none, meas := [analogValue d code], used := false }

theorem analogTake_skipped {n t : Nat} {code : Int} (h : ((chanOf s n).conv + 1) % max 1 (chDecim (chanDesc s n)) ≠ 0) :
    analogTake s n t code = s.setChan n (convCounted (chanOf s n)) := by
  unfold analogTake
  exact if_pos h

/-- The DECIM-th conversion is an arrival. -/
theorem analogTake_arrives {n t : Nat} {code : Int} (h : ((chanOf s n).conv + 1) % max 1 (chDecim (chanDesc s n)) = 0) :
    ∃ (c : Chan) (stamp : Nat) (info : ArrivalInfo) (payload : List Byte), c.valid = true ∧ c.conv = (chanOf s n).conv + 1 ∧
      c.seq = ((chanOf s n).seq + 1) % 2 ^ 32 ∧
      analogTake s n t code = holdArrival (landRecord s n c t ((t : Int) + chTovOfs (chanDesc s n) * 65536) stamp (chanOf s n).seq info payload)
        n c (analogArrival (chanDesc s n) t code) := by
  unfold analogTake
  rw [if_neg (not_not.mpr h)]
  exact ⟨_, _, _, _, rfl, rfl, rfl, rfl⟩

theorem analogTake_counts (n t : Nat) (code : Int) :
    (chanOf (analogTake s n t code) n).valid = true ∧ (chanOf (analogTake s n t code) n).conv = (chanOf s n).conv + 1 := by
  by_cases h : ((chanOf s n).conv + 1) % max 1 (chDecim (chanDesc s n)) = 0
  · obtain ⟨c, stamp, info, payload, hvalid, hconv, -, he⟩ := analogTake_arrives (t := t) (code := code) h
    rw [he, chanOf_holdArrival_same]
    exact ⟨hvalid, hconv⟩
  · rw [analogTake_skipped h, chanOf_setChan_same]
    exact ⟨rfl, rfl⟩

theorem fus_landRecord (n : Nat) (c : Chan) (arr tov : Int) (stamp seq : Nat) (info : ArrivalInfo) (payload : List Byte) :
    (landRecord s n c arr tov stamp seq info payload).fus = s.fus :=
  (effect_landRecord n c arr tov stamp seq info payload).keeps .fus (by decide)

theorem analogTake_others (n t : Nat) (code : Int) :
    (∀ m, m ≠ n → chanOf (analogTake s n t code) m = chanOf s m) ∧ FrontKept s (analogTake s n t code) := by
  by_cases h : ((chanOf s n).conv + 1) % max 1 (chDecim (chanDesc s n)) = 0
  · obtain ⟨c, stamp, info, payload, -, -, -, he⟩ := analogTake_arrives (t := t) (code := code) h
    rw [he]
    have hfus := fus_landRecord (s := s) n c t ((t : Int) + chTovOfs (chanDesc s n) * 65536) stamp (chanOf s n).seq info payload
    generalize landRecord s n c t ((t : Int) + chTovOfs (chanDesc s n) * 65536) stamp (chanOf s n).seq info payload = u at hfus
    obtain ⟨-, htables, hspi, hconv⟩ := fus_holdArrival (s := u) n c (analogArrival (chanDesc s n) t code)
    exact ⟨fun m hm => (chanOf_holdArrival_ne hm _ _).trans (chanOf_congr (congrArg Fusion.chans hfus) m),
      ⟨by rw [htables, hfus], by rw [hspi, hfus], by rw [hconv, hfus]⟩⟩
  · rw [analogTake_skipped h]
    exact ⟨fun m hm => chanOf_setChan_ne hm _, ⟨by rw [fus_setChan], by rw [fus_setChan], by rw [fus_setChan]⟩⟩

theorem effect_analogTake (n t : Nat) (code : Int) :
    Effect (mergeRegs ++ engineRegs ++ landRegs n) (.fus :: engineParts) s (analogTake s n t code) := by
  by_cases h : ((chanOf s n).conv + 1) % max 1 (chDecim (chanDesc s n)) = 0
  · obtain ⟨c, stamp, info, payload, -, -, -, he⟩ := analogTake_arrives (t := t) (code := code) h
    rw [he]
    refine ((effect_landRecord ..).mono (fun a ha => ?_) (by decide)).trans
      ((effect_holdArrival ..).mono (by simp [holdRegs, mergeRegs, landRegs, arrivalRegs]) (by decide))
    simp only [ringRegs, accessRegs, mergeRegs, landRegs, arrivalRegs, List.cons_append, List.mem_append, List.mem_cons,
      List.not_mem_nil, or_false, List.nil_append] at ha ⊢
    tauto
  · rw [analogTake_skipped h]
    exact (Effect.refl s).setChan n _ (by simp [landRegs, arrivalRegs]) (by decide)

theorem effect_analogTake_plain {n : Nat} (hring : chRing (chanDesc s n) = 0) (t : Nat) (code : Int) :
    Effect (mergeRegs ++ arrivalRegs n) [.fus] s (analogTake s n t code) := by
  by_cases h : ((chanOf s n).conv + 1) % max 1 (chDecim (chanDesc s n)) = 0
  · obtain ⟨c, stamp, info, payload, -, -, -, he⟩ := analogTake_arrives (t := t) (code := code) h
    rw [he, landRecord_of_noRing hring]
    exact (effect_holdArrival ..).mono (by simp [holdRegs, mergeRegs, arrivalRegs]) (List.Subset.refl _)
  · rw [analogTake_skipped h]
    exact (Effect.refl s).setChan n _ (by simp [arrivalRegs]) (by decide)

/-- The registers of conversions. -/
def convRegs : List Nat := engineRegs ++ (List.range 64).flatMap landRegs

theorem landRegs_subset {n : Nat} (hn : n < 64) : mergeRegs ++ engineRegs ++ landRegs n ⊆ DGN_CNT_MERGE :: DGN_EVT :: convRegs := by
  intro a ha
  have hmem : a ∈ landRegs n → a ∈ (List.range 64).flatMap landRegs := fun h =>
    List.mem_flatMap.mpr ⟨n, List.mem_range.mpr hn, h⟩
  simp only [mergeRegs, convRegs, List.mem_cons, List.mem_append, List.not_mem_nil, or_false] at ha ⊢
  tauto

/-- What a conversion of several channels does: each of them has one more, no other changes. -/
structure Converted (l : List Nat) (s t : State) : Prop where
  each : ∀ m ∈ l, (chanOf t m).valid = true ∧ (chanOf t m).conv = (chanOf s m).conv + 1
  others : ∀ m, m ∉ l → chanOf t m = chanOf s m
  front : FrontKept s t
  effect : Effect (DGN_CNT_MERGE :: DGN_EVT :: convRegs) (.fus :: engineParts) s t

theorem Converted.nil : Converted [] s s := ⟨fun _ h => absurd h (by simp), fun _ _ => rfl, FrontKept.of_fus rfl, Effect.refl s⟩

/-- Conversions of channels of which none is in both lists. -/
theorem Converted.append {k l : List Nat} {u : State} (h : Converted k s t) (h' : Converted l t u) (hd : ∀ m ∈ k, m ∉ l) :
    Converted (k ++ l) s u where
  each m hm := by
    by_cases hk : m ∈ k
    · rw [h'.others m (hd m hk)]
      exact h.each m hk
    · rw [← h.others m hk]
      exact h'.each m ((List.mem_append.mp hm).resolve_left hk)
  others m hm := by
    rw [List.mem_append, not_or] at hm
    rw [h'.others m hm.2, h.others m hm.1]
  front := h.front.trans h'.front
  effect := h.effect.trans h'.effect

theorem converted_analogTake {n : Nat} (hn : n < 64) (t : Nat) (code : Int) : Converted [n] s (analogTake s n t code) := by
  obtain ⟨hothers, hfront⟩ := analogTake_others (s := s) n t code
  refine ⟨fun m hm => ?_, fun m hm => hothers m fun he => hm (he ▸ List.mem_singleton_self n), hfront,
    (effect_analogTake n t code).mono (landRegs_subset hn) (List.Subset.refl _)⟩
  rw [List.mem_singleton.mp hm]
  exact analogTake_counts n t code

theorem converted_channels {l : List Nat} (hl : l.Nodup) (hlt : ∀ n ∈ l, n < 64) (s : State) (t : Nat) (code : Int) :
    Converted l s (l.foldl (fun s n => analogTake s n t code) s) := by
  induction l generalizing s with
  | nil => exact Converted.nil
  | cons x l ih =>
    obtain ⟨hx, hl⟩ := List.nodup_cons.mp hl
    refine (converted_analogTake (hlt x List.mem_cons_self) t code).append (ih hl (fun n hn => hlt n (List.mem_cons_of_mem _ hn)) _) ?_
    intro m hm hmem
    exact hx (List.mem_singleton.mp hm ▸ hmem)

/-- The channels of an analog input. -/
def analogChannels (s : State) (i : Nat) : List Nat := channelsOf s 3 fun d => chPort d == i

theorem chPort_of_mem {i m : Nat} (h : m ∈ analogChannels s i) : chPort (chanDesc s m) = i := by
  obtain ⟨-, -, hp⟩ := mem_channelsOf h
  exact eq_of_beq hp

/-- The conversions of several inputs. -/
def inputsConverted (codes : List Int) (t : Nat) (l : List Nat) (s : State) : State :=
  l.foldl (fun s i => (analogChannels s i).foldl (fun s n => analogTake s n t (clampInt (codes.getD i 0) (-131072) 131071)) s) s

theorem converted_inputs {l : List Nat} (hl : l.Nodup) (codes : List Int) (t : Nat) (s : State) :
    Converted (l.flatMap (analogChannels s)) s (inputsConverted codes t l s) := by
  induction l generalizing s with
  | nil => exact Converted.nil
  | cons i l ih =>
    obtain ⟨hi, hl⟩ := List.nodup_cons.mp hl
    have hfirst := converted_channels (l := analogChannels s i) (nodup_channelsOf _ _) (fun n hn => (mem_channelsOf hn).1) s t
      (clampInt (codes.getD i 0) (-131072) 131071)
    have hrest := ih hl ((analogChannels s i).foldl
      (fun s n => analogTake s n t (clampInt (codes.getD i 0) (-131072) 131071)) s)
    have hsame : analogChannels ((analogChannels s i).foldl
        (fun s n => analogTake s n t (clampInt (codes.getD i 0) (-131072) 131071)) s) = analogChannels s :=
      funext fun j => channelsOf_congr hfirst.front.tables _ _
    rw [hsame] at hrest
    refine hfirst.append hrest fun m hm hmem => ?_
    obtain ⟨j, hj, hmj⟩ := List.mem_flatMap.mp hmem
    exact hi ((chPort_of_mem hm).symm.trans (chPort_of_mem hmj) ▸ hj)

/-- The conversion is over. -/
def convEnded (s : State) : State := { s with fus := { s.fus with conv := none } }

theorem effect_convEnded : Effect [] [.fus] s (convEnded s) := (Effect.refl s).fus _ (by decide)

theorem exec_conversionResult {codes : List Int} {ok t16 start : Nat} (hconv : s.fus.conv = some (t16, start)) (hend : start + 500 ≤ s.cyc) :
    exec (.conversionResult codes ok) s = finish s (inputsConverted codes t16 (setBitsOf 8 ok) (convEnded s)) := by
  show execConversionResult codes ok s = _
  unfold execConversionResult
  rw [hconv]
  show finish s (if s.cyc < start + 500 then s else _) = _
  rw [if_neg (by omega)]
  rfl

theorem completes_conversionResult (hon : s.powered) {codes : List Int} {ok t16 start : Nat} (hconv : s.fus.conv = some (t16, start))
    (hend : start + 500 ≤ s.cyc) : Completes (.conversionResult codes ok) s fun t => t.fus.conv = none ∧
      (∀ m ∈ (setBitsOf 8 ok).flatMap (fun i => channelsOf s 3 fun d => chPort d == i),
        (chanOf t m).valid = true ∧ (chanOf t m).conv = (chanOf s m).conv + 1) ∧
      (∀ m, m ∉ (setBitsOf 8 ok).flatMap (fun i => channelsOf s 3 fun d => chPort d == i) → chanOf t m = chanOf s m) ∧
      ChangesOnly (engineRegs ++ (List.range 64).flatMap landRegs) (.fus :: engineParts) s t := by
  obtain ⟨heach, hothers, hfront, heff⟩ := converted_inputs (l := setBitsOf 8 ok) (List.nodup_range.filter _) codes t16 (convEnded s)
  refine completes_of_settled (exec_conversionResult hconv hend) hon fun t hs => ?_
  have hchan (m : Nat) := chanOf_congr (congrArg Fusion.chans hs.fus) m
  refine ⟨by rw [hs.fus, hfront.conv]; rfl, fun m hm => ?_, fun m hm => ?_, hs.changesOnly_pulsed
    ((effect_convEnded.mono (List.nil_subset _) (by decide)).trans heff)⟩
  · rw [hchan]
    exact heach m hm
  · rw [hchan]
    exact hothers m hm

theorem setBitsOf_two_pow {i : Nat} (hi : i < 8) : setBitsOf 8 (2 ^ i) = [i] := by
  revert i
  decide

theorem completes_conversionResult_one (hon : s.powered) {codes : List Int} {n i t16 start : Nat} (hi : i < 8)
    (hconv : s.fus.conv = some (t16, start)) (hend : start + 500 ≤ s.cyc) (hone : channelsOf s 3 (fun d => chPort d == i) = [n])
    (hring : chRing (chanDesc s n) = 0) : Completes (.conversionResult codes (2 ^ i)) s fun t =>
      t.fus.conv = none ∧ (chanOf t n).valid = true ∧ (chanOf t n).conv = (chanOf s n).conv + 1 ∧
      (((chanOf s n).conv + 1) % max 1 (chDecim (chanDesc s n)) ≠ 0 → (chanOf t n).seq = (chanOf s n).seq) ∧
      (((chanOf s n).conv + 1) % max 1 (chDecim (chanDesc s n)) = 0 →
        (chanOf t n).seq = ((chanOf s n).seq + 1) % 2 ^ 32 ∧ ∃ a, (chanOf t n).arrivals.getLast? = some a ∧ a.arr = t16 ∧
          a.tov = (t16 : Int) + chTovOfs (chanDesc s n) * 65536 ∧
          a.meas = [fma (f32OfInt (clampInt (codes.getD i 0) (-131072) 131071)) (chScale (chanDesc s n)) (chBias (chanDesc s n))]) ∧
      (∀ m, m ≠ n → chanOf t m = chanOf s m) ∧ ChangesOnly (arrivalRegs n) [.fus] s t := by
  have hexec := exec_conversionResult (codes := codes) (ok := 2 ^ i) hconv hend
  have hinput : analogChannels (convEnded s) i = [n] := hone
  rw [setBitsOf_two_pow hi, inputsConverted, List.foldl_cons, List.foldl_nil, hinput, List.foldl_cons, List.foldl_nil] at hexec
  obtain ⟨hothers, hfront⟩ := analogTake_others (s := convEnded s) n t16 (clampInt (codes.getD i 0) (-131072) 131071)
  obtain ⟨hvalid, hcount⟩ := analogTake_counts (s := convEnded s) n t16 (clampInt (codes.getD i 0) (-131072) 131071)
  refine completes_of_settled hexec hon fun t hs => ?_
  have hchan (m : Nat) := chanOf_congr (congrArg Fusion.chans hs.fus) m
  refine ⟨by rw [hs.fus, hfront.conv]; rfl, by rw [hchan, hvalid], by rw [hchan, hcount]; rfl, fun hskip => ?_, fun htake => ?_,
    fun m hm => (hchan m).trans (hothers m hm), hs.changesOnly_pulsed ((effect_convEnded.mono (List.nil_subset _) (List.Subset.refl _)).trans
      ((effect_analogTake_plain (s := convEnded s) hring t16 _).mono (mergeRegs_subset (List.Subset.refl _)) (List.Subset.refl _)))⟩
  · rw [hchan, analogTake_skipped (s := convEnded s) hskip, chanOf_setChan_same]
    rfl
  · obtain ⟨c, stamp, info, payload, -, -, hseq, he⟩ := analogTake_arrives (s := convEnded s) (t := t16)
      (code := clampInt (codes.getD i 0) (-131072) 131071) htake
    rw [hchan, he, chanOf_holdArrival_same]
    exact ⟨hseq, _, List.getLast?_concat .., rfl, rfl, rfl⟩

/-! ### Records that the firmware publishes (R301) -/

/-- The register's row of the list. -/
def prodRow : RegDesc := ⟨"SNS_CH_PROD", 0x100005001000, [(64, 0x20)], 32, 0x0, [⟨15, 0, .live⟩], none, none⟩

theorem regAt_prod : ∀ n, n < 64 → regAt (SNS_CH_PROD n) = some (prodRow, [n], false) := by decide

theorem plainRow_prod : ∀ n, n < 64 → PlainRow (SNS_CH_PROD n) prodRow := by decide

/-- The register as written. -/
def prodStored (s : State) (n v : Nat) : State :=
  s.wr (SNS_CH_PROD n) (BitVec.ofNat 64 (mergeBits (rwMask prodRow) (s.rd (SNS_CH_PROD n)).toNat v))

theorem writeReg_prod {who : Initiator} {n v : Nat} (hn : n < 64) (ok : WriteOk s who (SNS_CH_PROD n) v) :
    writeReg s who (SNS_CH_PROD n) v = prodWritten n (s.get (SNS_CH_PROD_INDEX n)) v (prodStored s n v) := by
  have hbits : bitsOf v 15 0 = v := bitsOf_of_writeOk ok (regAt_prod n hn) (plainRow_prod n hn) (by decide)
  rw [writeReg_plain ok (regAt_prod n hn) (plainRow_prod n hn)]
  exact congrArg (fun x => prodWritten n (bitsOf (s.rd (SNS_CH_PROD n)).toNat 15 0) x (prodStored s n v)) hbits

theorem effect_prodStored (n v : Nat) : Effect [SNS_CH_PROD n] [] s (prodStored s n v) := (Effect.refl s).wr _ (List.mem_singleton_self _)

/-- The index as written. -/
theorem get_prodStored {n v : Nat} (hv : v < 2 ^ 16) : (prodStored s n v).get (SNS_CH_PROD_INDEX n) = v := by
  refine (State.get_wr_merge_in (f := SNS_CH_PROD_INDEX n) (m := rwMask prodRow) (show (65535 : Nat) < 2 ^ 64 by decide)
    (show 15 < 64 by decide) (by omega) (show bitsOf 65535 15 0 = 2 ^ 16 - 1 by decide)).trans ?_
  show bitsOf v 15 0 = v
  rw [bitsOf, Nat.shiftRight_zero]
  exact Nat.mod_eq_of_lt hv

/-- The record's bytes from `at_` on, where the channel has a ring. -/
def recordRead (s : State) (d addr at_ len : Nat) : State × Nat × List Byte :=
  if chRing d = 0 then (s, 0, []) else engineRead s 4 (chCtx d) (addr + at_) len

theorem effect_recordRead (d addr at_ len : Nat) : Effect accessRegs engineParts s (recordRead s d addr at_ len).1 := by
  unfold recordRead
  split
  · exact Effect.refl s
  · exact effect_engineRead 4 _ _ _

/-- The time of publication, written into the record. -/
def recordTimed (s : State) (n addr : Nat) : State :=
  if chRing (chanDesc s n) = 0 then s else ringWrite s n addr (tsOf s true (s.now16 : Int))

theorem effect_recordTimed (n addr : Nat) : Effect (writeRegs n) engineParts s (recordTimed s n addr) :=
  Effect.ite (fun _ => Effect.refl s) fun _ => effect_ringWrite n addr _

/-- The stamp's field of a record, where its channel has one. -/
def stampRead (s : State) (d addr : Nat) : State × Nat × List Byte :=
  if chStfmt d = 0 then (s, 0, []) else recordRead s d addr (64 + chSofs d) 8

theorem effect_stampRead (d addr : Nat) : Effect accessRegs engineParts s (stampRead s d addr).1 := by
  unfold stampRead
  split
  · exact Effect.refl s
  · exact effect_recordRead d addr _ 8

/-- The state in which a published record's bytes have been read. -/
def recordTaken (s : State) (n addr : Nat) : State :=
  (stampRead (recordRead (recordTimed s n addr) (chanDesc s n) addr 64 64).1 (chanDesc s n) addr).1

theorem effect_recordTaken (n addr : Nat) : Effect (writeRegs n) engineParts s (recordTaken s n addr) := by
  have hsub : accessRegs ⊆ writeRegs n := by simp [writeRegs]
  exact ((effect_recordTimed n addr).trans ((effect_recordRead _ addr 64 64).mono hsub (List.Subset.refl _))).trans
    ((effect_stampRead _ addr).mono hsub (List.Subset.refl _))

/-- The slot that a write of PROD publishes. -/
def slotPublished (new : Nat) : Nat := (new + 65535) % 65536

theorem prodWritten_eq {n old new : Nat} (hown : ownsProd s n = true) (hne : new ≠ old) : prodWritten n old new s =
    arriveAt (recordTaken s n (slotAddr (chanDesc s n) (slotPublished new))) n (s.now16 : Int) (some (slotPublished new)) plainInfo
      (recordRead (recordTimed s n (slotAddr (chanDesc s n) (slotPublished new))) (chanDesc s n)
        (slotAddr (chanDesc s n) (slotPublished new)) 64 64).2.2
      (stampRead (recordRead (recordTimed s n (slotAddr (chanDesc s n) (slotPublished new))) (chanDesc s n)
        (slotAddr (chanDesc s n) (slotPublished new)) 64 64).1 (chanDesc s n) (slotAddr (chanDesc s n) (slotPublished new))).2.2 := by
  unfold prodWritten
  rw [if_neg (by simp [hown, hne])]
  rfl

/-- Without a ring nothing is read. -/
theorem prodWritten_plain {n old new : Nat} (hown : ownsProd s n = true) (hne : new ≠ old) (hring : chRing (chanDesc s n) = 0) :
    prodWritten n old new s = arriveAt s n (s.now16 : Int) (some (slotPublished new)) plainInfo [] [] := by
  have htimed (addr : Nat) : recordTimed s n addr = s := if_pos hring
  have hread (u : State) (addr at_ len : Nat) : recordRead u (chanDesc s n) addr at_ len = (u, 0, []) := if_pos hring
  have hstamp (u : State) (addr : Nat) : stampRead u (chanDesc s n) addr = (u, 0, []) := by
    unfold stampRead
    split
    · rfl
    · exact hread ..
  rw [prodWritten_eq hown hne, recordTaken, htimed, hread, hstamp]

/-- A channel whose PROD the firmware owns has its payload behind the header. -/
theorem payloadAt_of_ownsProd {n : Nat} (h : ownsProd s n = true) : payloadAt (chKind (chanDesc s n)) = 64 := by
  simp only [ownsProd, Bool.and_eq_true, Bool.or_eq_true, beq_iff_eq] at h
  rcases h.2 with h | h <;> rw [h] <;> rfl

theorem lt_of_writeOk_prod {who : Initiator} {n v : Nat} (hn : n < 64) (ok : WriteOk s who (SNS_CH_PROD n) v) : v < 2 ^ 16 := by
  rw [← bitsOf_of_writeOk ok (regAt_prod n hn) (plainRow_prod n hn) (hi := 15) (by decide)]
  exact Nat.mod_lt _ (by decide)

/-- What a write of PROD does of the channel's, with a ring or without one. -/
theorem effect_prodWritten {n old new : Nat} (hown : ownsProd s n = true) (hne : new ≠ old) :
    Effect (mergeRegs ++ engineRegs ++ arrivalRegs n) (.fus :: engineParts) s (prodWritten n old new s) := by
  rw [prodWritten_eq hown hne]
  refine ((effect_recordTaken n _).mono (fun a ha => ?_) (by decide)).trans ((effect_arriveAt_plain (.inl rfl) (by decide)
    (.inr (by decide)) _ _ _ _).mono (fun a ha => ?_) (List.Subset.refl _))
  · simp only [writeRegs, accessRegs, mergeRegs, arrivalRegs, List.mem_append, List.mem_cons, List.not_mem_nil, or_false] at ha ⊢
    tauto
  · simp only [List.mem_append] at ha ⊢
    tauto

/-- What a write of PROD does to the channels. -/
theorem chans_prodWritten {n old new : Nat} (hown : ownsProd s n = true) (hne : new ≠ old) :
    ((chanOf (prodWritten n old new s) n).seq = ((chanOf s n).seq + 1) % 2 ^ 32 ∧
      ∃ a, (chanOf (prodWritten n old new s) n).arrivals.getLast? = some a ∧ a.arr = s.now16 ∧ a.used = false) ∧
    ∀ m, m ≠ n → chanOf (prodWritten n old new s) m = chanOf s m := by
  rw [prodWritten_eq hown hne]
  have htaken (addr : Nat) (m : Nat) : chanOf (recordTaken s n addr) m = chanOf s m :=
    chanOf_congr (congrArg Fusion.chans ((effect_recordTaken n addr).keeps .fus (by decide))) m
  obtain ⟨⟨meas, hsame⟩, hothers, -⟩ := chans_arriveAt (s := recordTaken s n (slotAddr (chanDesc s n) (slotPublished new))) n
    (s.now16 : Int) (some (slotPublished new)) plainInfo
    (recordRead (recordTimed s n (slotAddr (chanDesc s n) (slotPublished new))) (chanDesc s n)
      (slotAddr (chanDesc s n) (slotPublished new)) 64 64).2.2
    (stampRead (recordRead (recordTimed s n (slotAddr (chanDesc s n) (slotPublished new))) (chanDesc s n)
      (slotAddr (chanDesc s n) (slotPublished new)) 64 64).1 (chanDesc s n) (slotAddr (chanDesc s n) (slotPublished new))).2.2
  refine ⟨?_, fun m hm => (hothers m hm).trans (htaken _ m)⟩
  rw [hsame, ← htaken (slotAddr (chanDesc s n) (slotPublished new)) n]
  exact ⟨(chanJudged_keeps ..).1, _, List.getLast?_concat .., rfl, rfl⟩

theorem timCtrl_ne_prod (n : Nat) : TIM_CTRL_MODE.addr ≠ SNS_CH_PROD n := by
  unfold SNS_CH_PROD
  show TIM_CTRL ≠ _
  unfold TIM_CTRL
  omega

theorem prod_not_written {n a : Nat} (hn : n < 64) (h : a ∈ mergeRegs ++ engineRegs ++ arrivalRegs n) : a ≠ SNS_CH_PROD n := by
  revert a
  revert n
  decide

theorem completes_snsProdWrite (hon : s.powered) {n : Nat} (hn : n < 64) {who : Initiator} {v : Word64}
    (ok : WriteOk s who (SNS_CH_PROD n) v.toNat) (hown : ownsProd s n = true) (hne : v.toNat ≠ s.get (SNS_CH_PROD_INDEX n)) :
    Completes (.snsProdWrite who n v) s fun t =>
      t.get (SNS_CH_PROD_INDEX n) = v.toNat ∧ ArrivalsHeld s t [n] s.now16 [] ∧
      (chRing (chanDesc s n) = 0 → ArrivalTaken s t n s.now16 0 (some ((v.toNat + 65535) % 65536)) [] ∧
        ChangesOnly (SNS_CH_PROD n :: arrivalRegs n) [.fus] s t) := by
  have hwrite := writeReg_prod hn ok
  have heff := effect_prodStored (s := s) n v.toNat
  have hget := get_prodStored (s := s) (n := n) (lt_of_writeOk_prod hn ok)
  have hfus : (prodStored s n v.toNat).fus = s.fus := rfl
  have hnow : (prodStored s n v.toNat).now16 = s.now16 := now16_congr rfl (heff.on fun hm => timCtrl_ne_prod n (List.mem_singleton.mp hm))
  generalize prodStored s n v.toNat = u at hwrite heff hget hfus hnow
  have hdesc : chanDesc u n = chanDesc s n := chanDesc_congr (congrArg Fusion.tables hfus) n
  have hown' : ownsProd u n = true := by
    rw [ownsProd, hdesc]
    exact hown
  have harr := effect_prodWritten hown' hne
  obtain ⟨hsame, hothers⟩ := chans_prodWritten hown' hne
  refine completes_of_settled (congrArg (finish s) hwrite) hon fun t hs => ⟨?_, ⟨fun m hm => ?_, fun m hm => ?_, ?_⟩, fun hring => ⟨?_, ?_⟩⟩
  · obtain ⟨h1, h2⟩ := segment_settles (a := SNS_CH_PROD n) (by unfold SNS_CH_PROD DGN_EPOCH; omega)
    rw [hs.get _ h1 h2, harr.get fun hm => prod_not_written hn hm rfl, hget]
  · rw [List.mem_singleton.mp hm, chanOf_congr (congrArg Fusion.chans hs.fus), ← chanOf_congr (congrArg Fusion.chans hfus) n, ← hnow]
    exact hsame
  · rw [chanOf_congr (congrArg Fusion.chans hs.fus), hothers m fun he => hm (he ▸ List.mem_singleton_self n),
      chanOf_congr (congrArg Fusion.chans hfus)]
  · refine hs.changesOnly_pulsed ((heff.mono ?_ (List.nil_subset _)).trans (harr.mono (fun a ha => ?_) (List.Subset.refl _)))
    · simp [landRegs]
    · simp only [mergeRegs, landRegs, List.mem_cons, List.mem_append, List.not_mem_nil, or_false, List.nil_append, List.flatMap_cons,
        List.flatMap_nil, List.append_nil] at ha ⊢
      tauto
  · refine arrivalTaken_arriveAt (u := u) (info := plainInfo) (field := []) (by rw [hfus]) (by rw [hfus]) ?_ (List.drop_nil).symm
    rw [hs.fus, prodWritten_plain hown' hne (hdesc ▸ hring), hnow]
    rfl
  · rw [prodWritten_plain hown' hne (hdesc ▸ hring)] at hs
    have hplain := effect_arriveAt_plain (s := u) (n := n) (ring := some (slotPublished v.toNat)) (parts := [.fus]) (.inl rfl) (by decide)
      (.inl (payloadAt_of_ownsProd hown')) u.now16 plainInfo [] []
    exact hs.changesOnly_pulsed ((heff.mono (by simp) (List.nil_subset _)).trans
      (hplain.mono (mergeRegs_subset (by simp)) (List.Subset.refl _)))

/-! ### Timeouts (R306) -/

theorem completes_modelTimeout (hon : s.powered) {n : Nat} (hn : n < 64) (hen : chEn (chanDesc s n) = true)
    (hkind : chKind (chanDesc s n) ≠ 3) (hvalid : (chanOf s n).valid = true)
    (hlate : (chTimeout (chanDesc s n) : Int) * (chanOf s n).per < (s.now16 : Int) - (chanOf s n).aPrev) :
    Completes (.modelTimeout n) s fun t =>
      chanOf t n = { chanOf s n with valid := false } ∧ (t.get FUS_CH_VALID_VALUE).testBit n = false ∧
      (∀ m, m ≠ n → chanOf t m = chanOf s m) ∧ ChangesOnly [FUS_CH_VALID, FUS_CH_DESYNC] [.fus] s t := by
  have hgo : ¬ (64 ≤ n ∨ (!chEn (chanDesc s n)) = true ∨ chKind (chanDesc s n) = 3 ∨ (!(chanOf s n).valid) = true ∨
      (s.now16 : Int) - (chanOf s n).aPrev ≤ (chTimeout (chanDesc s n) : Int) * (chanOf s n).per) := by
    rw [hen, hvalid]
    simp only [hkind, Bool.not_true, Bool.false_eq_true, false_or]
    omega
  have hexec : exec (.modelTimeout n) s = finish s (s.setChan n { chanOf s n with valid := false }) := by
    show execModelTimeout n s = _
    unfold execModelTimeout
    rw [if_neg hgo]
  refine completes_of_settled hexec hon fun t hs => ⟨?_, ?_, fun m hm => ?_, hs.changesOnly
    ((Effect.refl s).setChan n _ (by decide) (by decide))⟩
  · rw [chanOf_congr (congrArg Fusion.chans hs.fus), chanOf_setChan_same]
  · rw [hs.get _ (by decide) (by decide), setChan_eq, chanShown, State.get_put_apart (by decide), State.get_put_self (by decide),
      Nat.testBit_mod_two_pow, testBit_withBits _ _ _ _ _ (by omega), if_pos (by omega)]
    simp [ofBool]
  · rw [chanOf_congr (congrArg Fusion.chans hs.fus), chanOf_setChan_ne hm]

end

/-- Settles O24: the sensor front's arrivals, each through what `arriveAt` does to its channel; conversions and timeouts by what they
store. -/
theorem sensorInputsBecomeArrivals : Obligations.SensorInputsBecomeArrivals := by
  refine ⟨fun s data hon => ⟨fun p ts vc dt fnum lines bpl ecc crcErr hcsi hdt hvc => completes_csi2Frame hon hcsi hdt hvc,
      fun port ts fcsOk hen hport hgood hptp => ⟨fun n l hsel => completes_ethSensorFrame hon hen hport hgood hptp hsel,
        fun hsel => completes_ethSensorFrame_none hon hen hport hgood hptp hsel⟩,
      fun q tm hspi => completes_imuBurstComplete hon data hspi⟩,
    fun s n hon hn => ⟨fun q hq hen hburst => ⟨fun hspi => completes_imuDataReady_start hon hq hen hburst hspi,
        fun tm hspi => completes_imuDataReady_busy hon hq hen hburst hspi⟩,
      fun codes ok t16 start hconv hend => completes_conversionResult hon hconv hend,
      fun codes i t16 start hi hconv hend hone hring => completes_conversionResult_one hon hi hconv hend hone hring,
      fun who v ok hown hne => completes_snsProdWrite hon hn ok hown hne,
      fun hen hkind hvalid hlate => completes_modelTimeout hon hn hen hkind hvalid hlate⟩⟩

end Sys2Proof.Machine
end
section
/-! Arrivals that land in their channel's ring (R295, R299, R300). -/

namespace Sys2Proof.Machine

open Sys2Proof Sys2Proof.Machine.Reg

/-! ### A record's header -/

theorem length_tsOf (s : State) (valid : Bool) (t : Int) : (tsOf s valid t).length = 16 := by
  unfold tsOf
  split
  · simp [ts128]
  · simp

theorem tsOf_congr {s t : State} (h : t.epochMode = s.epochMode) (valid : Bool) (x : Int) : tsOf t valid x = tsOf s valid x := by
  rw [tsOf, tsOf, h]

/-- The header of a record: its times, numbers and lengths. -/
def recordHeader (s : State) (c : Chan) (arr tov : Int) (seq landed fnum lines flags stamp : Nat) : List Byte :=
  padBytes 64 (tsOf s true arr ++ tsOf s c.valid tov ++ leBytes 4 seq ++ leBytes 4 landed ++ leBytes 2 fnum ++ leBytes 2 lines ++
    leBytes 4 flags ++ leBytes 8 stamp)

theorem padBytes_of_le {n : Nat} {bs : List Byte} (h : bs.length ≤ n) : padBytes n bs = bs ++ List.replicate (n - bs.length) 0 := by
  rw [padBytes, List.take_of_length_le h]

section

variable (s : State) (c : Chan) (arr tov : Int) (seq landed fnum lines flags stamp : Nat)

theorem length_recordHeader : (recordHeader s c arr tov seq landed fnum lines flags stamp).length = 64 := length_padBytes _ _

/-- The header as a list from its first field on. -/
theorem recordHeader_eq : ∃ r, recordHeader s c arr tov seq landed fnum lines flags stamp =
    tsOf s true arr ++ (tsOf s c.valid tov ++ (leBytes 4 seq ++ (leBytes 4 landed ++ (leBytes 2 fnum ++ r)))) := by
  rw [recordHeader, padBytes_of_le (by simp [length_tsOf])]
  simp only [List.append_assoc]
  exact ⟨_, rfl⟩

theorem arr_recordHeader : (recordHeader s c arr tov seq landed fnum lines flags stamp).take 16 = tsOf s true arr := by
  obtain ⟨r, h⟩ := recordHeader_eq s c arr tov seq landed fnum lines flags stamp
  rw [h, List.take_left' (length_tsOf ..)]

theorem seq_recordHeader : leField (recordHeader s c arr tov seq landed fnum lines flags stamp) 32 4 = seq % 2 ^ 32 := by
  obtain ⟨r, h⟩ := recordHeader_eq s c arr tov seq landed fnum lines flags stamp
  rw [h, leField_append (i := 16) (by rw [length_tsOf]), leField_append (i := 0) (by rw [length_tsOf]), leField_leBytes_append]
  rfl

theorem landed_recordHeader : leField (recordHeader s c arr tov seq landed fnum lines flags stamp) 36 4 = landed % 2 ^ 32 := by
  obtain ⟨r, h⟩ := recordHeader_eq s c arr tov seq landed fnum lines flags stamp
  rw [h, leField_append (i := 20) (by rw [length_tsOf]), leField_append (i := 4) (by rw [length_tsOf]),
    leField_append (i := 0) (by rw [length_leBytes]), leField_leBytes_append]
  rfl

theorem fnum_recordHeader (hf : fnum < 65536) : leField (recordHeader s c arr tov seq landed fnum lines flags stamp) 40 2 = fnum := by
  obtain ⟨r, h⟩ := recordHeader_eq s c arr tov seq landed fnum lines flags stamp
  rw [h, leField_append (i := 24) (by rw [length_tsOf]), leField_append (i := 8) (by rw [length_tsOf]),
    leField_append (i := 4) (by rw [length_leBytes]), leField_append (i := 0) (by rw [length_leBytes]), leField_leBytes_append]
  exact Nat.mod_eq_of_lt hf

end

/-! ### Writes to the record's object -/

section

variable {s t : State} {n ctx : Nat} {e : PltEntry}

/-- A look-up changes the cache and counts a miss. -/
theorem effect_lookup_miss (a : Nat) : Effect [MEM_PLT_CNT_LKMISS] [.place, .free] s (s.lookup a) :=
  Effect.ite (fun _ => Effect.refl s) fun _ =>
    ((Effect.refl s).countWrap 1 (by decide)).foldl fun _ k _ => effect_cacheFill (by decide) (by decide) k

/-- Bytes written into an object at home. -/
def homeWritten (s : State) (addr : Nat) (e : PltEntry) (bs : List Byte) : State :=
  ((s.lookup addr).store (objPlace e (addr - e.base * 65536)) bs).unpoison (objPlace e (addr - e.base * 65536)) bs.length

theorem effect_homeWritten (addr : Nat) (bs : List Byte) :
    Effect [MEM_PLT_CNT_LKMISS] [.mem, .poison, .place, .free] s (homeWritten s addr e bs) :=
  (((effect_lookup_miss addr).mono (List.Subset.refl _) (by decide)).store _ _ (by decide)).unpoison _ _ (by decide)

theorem mem_homeWritten (addr : Nat) (bs : List Byte) :
    (homeWritten s addr e bs).mem = memWrite s.mem (objPlace e (addr - e.base * 65536)) bs := by
  simp [homeWritten, State.store, State.unpoison]

theorem plt_homeWritten (addr : Nat) (bs : List Byte) : (homeWritten s addr e bs).plt = s.plt := by
  simp [homeWritten, State.store, State.unpoison]

theorem rd_homeWritten (addr : Nat) (bs : List Byte) {a : Nat} (ha : a ≠ MEM_PLT_CNT_LKMISS) : (homeWritten s addr e bs).rd a = s.rd a :=
  (effect_homeWritten addr bs).rd a fun hm => ha (List.mem_singleton.mp hm)

/-- A write to a ring whose bytes lie in one object at home is served. -/
theorem ringWrite_of_home {addr i : Nat} {bs : List Byte}
    (h : resolve s true (chCtx (chanDesc s n)) addr bs.length true = .ok (i, e)) (home : AtHome s e) :
    ringWrite s n addr bs = homeWritten s addr e bs := by
  have hserved : (engineWrite s 4 (chCtx (chanDesc s n)) addr bs).2 = true := by
    have hup : ¬ (e.tier = 4 ∧ hostUp s = false) := fun hu => by simp [home.host hu.1] at hu
    simp [engineWrite, runPieces_of_home h home, engineWriteOne, h, hup]
  unfold ringWrite
  simp only
  rw [if_pos hserved, engineWrite_of_home h home]
  rfl

/-- An address that resolves lies in its object. -/
theorem base_le_of_resolve {small write : Bool} {addr len i : Nat} (h : resolve s small ctx addr len write = .ok (i, e)) :
    e.base * 65536 ≤ addr := by
  unfold resolve at h
  split at h
  · exact absurd h (by simp)
  · cases hobj : objectAt s (addr / 65536) with
    | none => rw [hobj] at h; exact absurd h (by simp)
    | some p =>
      rw [hobj] at h
      have hbase : p.2.base ≤ addr / 65536 := by
        unfold objectAt at hobj
        split at hobj
        · have := List.find?_some hobj
          simp only [Bool.and_eq_true, decide_eq_true_eq] at this
          exact this.1
        · exact absurd hobj (by simp)
      have he : p = (i, e) := by
        simp only at h
        split_ifs at h
        exact Except.ok.inj h
      rw [he] at hbase
      exact le_trans (Nat.mul_le_mul_right _ hbase) (Nat.div_mul_le_self _ _)

theorem tierPlace_add (tier taddr a b : Nat) : tierPlace tier taddr (a + b) = tierPlace tier taddr a + b := by
  unfold tierPlace
  split <;> omega

theorem RecordPlace.resolves {ofs len : Nat} (h : RecordPlace s n ofs len e) : ∃ i,
    resolve s true (chCtx (chanDesc s n)) (slotAddr (chanDesc s n) (s.get (SNS_CH_PROD_INDEX n)) + ofs) len true = .ok (i, e) ∧ AtHome s e := by
  obtain ⟨i, hres, hhost, h2, h3⟩ := h
  exact ⟨i, hres, ⟨h2, h3, hhost⟩⟩

/-- The state in which a record stands, before PROD moves on. -/
def recordStands (s : State) (e : PltEntry) (a : Nat) (header landed : List Byte) : State :=
  homeWritten (homeWritten s a e header) (a + 512) e landed

theorem effect_recordStands (a : Nat) (header landed : List Byte) :
    Effect [MEM_PLT_CNT_LKMISS] [.mem, .poison, .place, .free] s (recordStands s e a header landed) :=
  (effect_homeWritten ..).trans (effect_homeWritten ..)

theorem mem_recordStands (a : Nat) (header landed : List Byte) : (recordStands s e a header landed).mem =
    memWrite (memWrite s.mem (objPlace e (a - e.base * 65536)) header) (objPlace e (a + 512 - e.base * 65536)) landed := by
  rw [recordStands, mem_homeWritten, mem_homeWritten]

/-- A record of a frame lands: its header and its payload, cut to the slot, and PROD moves on. -/
theorem landRecord_of_home (hring : chRing (chanDesc s n) ≠ 0) (hkind : payloadAt (chKind (chanDesc s n)) = 512)
    (hroom : (s.get (SNS_CH_PROD_INDEX n) + 65536 - s.get (SNS_CH_CONS_INDEX n)) % 65536 ≠ 2 ^ chRlog2 (chanDesc s n))
    {c : Chan} {arr tov : Int} {stamp seq : Nat} {info : ArrivalInfo} {payload : List Byte}
    (hhead : RecordPlace s n 0 64 e) (hload : RecordPlace s n 512 (payload.take (chSlotSz (chanDesc s n) * 64 - 512)).length e)
    (hne : payload.take (chSlotSz (chanDesc s n) * 64 - 512) ≠ []) :
    ∃ lines flags, landRecord s n c arr tov stamp seq info payload =
      (recordStands s e (slotAddr (chanDesc s n) (s.get (SNS_CH_PROD_INDEX n)))
        (recordHeader s c arr tov seq (payload.take (chSlotSz (chanDesc s n) * 64 - 512)).length info.fnum lines flags stamp)
        (payload.take (chSlotSz (chanDesc s n) * 64 - 512))).put (SNS_CH_PROD_INDEX n) (s.get (SNS_CH_PROD_INDEX n) + 1) := by
  obtain ⟨i, hres, home⟩ := hhead.resolves
  obtain ⟨j, hres', -⟩ := hload.resolves
  have hwrite (header : List Byte) (hlen : header.length = 64) : ringWrite s n (slotAddr (chanDesc s n) (s.get (SNS_CH_PROD_INDEX n))) header =
      homeWritten s (slotAddr (chanDesc s n) (s.get (SNS_CH_PROD_INDEX n))) e header :=
    ringWrite_of_home (by rw [hlen]; exact hres) home
  have hwrite' (header : List Byte) : ringWrite (homeWritten s (slotAddr (chanDesc s n) (s.get (SNS_CH_PROD_INDEX n))) e header) n
      (slotAddr (chanDesc s n) (s.get (SNS_CH_PROD_INDEX n)) + 512) (payload.take (chSlotSz (chanDesc s n) * 64 - 512)) =
      homeWritten (homeWritten s (slotAddr (chanDesc s n) (s.get (SNS_CH_PROD_INDEX n))) e header)
        (slotAddr (chanDesc s n) (s.get (SNS_CH_PROD_INDEX n)) + 512) e (payload.take (chSlotSz (chanDesc s n) * 64 - 512)) := by
    have hkept := effect_homeWritten (s := s) (e := e) (slotAddr (chanDesc s n) (s.get (SNS_CH_PROD_INDEX n))) header
    have hdesc := chanDesc_congr (congrArg Fusion.tables (hkept.keeps .fus (by decide))) n
    refine ringWrite_of_home (i := j) ?_ ⟨home.notPromoting, home.notEvicting, fun h4 => ?_⟩
    · rw [hdesc, resolve_congr (plt_homeWritten _ _) (fun a ha => rd_homeWritten _ _ ha)]
      exact hres'
    · exact (hkept.on (by decide)).trans (home.host h4)
  unfold landRecord
  rw [if_neg hring]
  simp only
  rw [if_neg hroom, hkind, if_neg hne, hwrite _ (length_padBytes _ _), hwrite']
  exact ⟨_, _, rfl⟩

theorem landRecord_of_full (hring : chRing (chanDesc s n) ≠ 0)
    (hfull : (s.get (SNS_CH_PROD_INDEX n) + 65536 - s.get (SNS_CH_CONS_INDEX n)) % 65536 = 2 ^ chRlog2 (chanDesc s n))
    (c : Chan) (arr tov : Int) (stamp seq : Nat) (info : ArrivalInfo) (payload : List Byte) :
    landRecord s n c arr tov stamp seq info payload = s.count (SNS_CH_CNT_DROP_VALUE n) 1 := by
  unfold landRecord
  rw [if_neg hring]
  simp only
  rw [if_pos hfull]

/-! ### A frame of a channel with a ring -/

theorem withBits_bitsOf (x : Nat) {hi lo : Nat} (h : lo ≤ hi + 1) : withBits x hi lo (bitsOf x hi lo) = x := by
  refine Nat.eq_of_testBit_eq fun i => ?_
  rw [testBit_withBits _ _ _ _ _ h, testBit_bitsOf]
  split
  case isTrue hin =>
    rw [show lo + (i - lo) = i by omega, decide_eq_true (by omega), Bool.true_and]
  case isFalse => rfl

/-- Nothing counted leaves a counter. -/
theorem effect_count_zero {regs : List Nat} {parts : List Part} (f : Fld) (h : f.lo ≤ f.hi + 1) : Effect regs parts s (s.count f 0) := by
  have hsame : s.count f 0 = s.wr f.addr (s.rd f.addr) := by
    have hsat : satAdd (f.hi + 1 - f.lo) (s.get f) 0 = s.get f := by
      have := s.get_lt f
      unfold satAdd
      omega
    rw [State.count, hsat, State.put, State.get, withBits_bitsOf _ h, BitVec.ofNat_toNat, BitVec.setWidth_eq]
  rw [hsame]
  exact Effect.wrSelf s f.addr

/-- Where every packet was good nothing changes. -/
theorem effect_packetsCounted_zero : Effect [] [] s (packetsCounted s 0 0) :=
  (effect_count_zero _ (by decide)).trans (effect_count_zero _ (by decide))

theorem exec_csi2Frame_good {p ts vc dt fnum lines bpl : Nat} {data : List Byte} (hcsi : csiOn s p = true) (hdt : dt ∈ csiTypes) (hvc : vc < 4)
    (hone : channelsOf s 0 (fun d => chPort d == p && chVc d == vc && chDt d == dt) = [n]) :
    exec (.csi2Frame p ts (vc * 64 + dt) fnum lines bpl 0 0 data) s = finish s
      (arrive (packetsCounted s 0 0) n ((ts * 65536 : Nat) : Int) none (frameInfo fnum lines bpl 0 0) data) := by
  rw [exec_csi2Frame hcsi hdt hvc, csiChannels, hone]
  rfl

/-- The state in which a frame's record lands. -/
def frameMarked (s : State) (n : Nat) (arr : Int) (fnum : Nat) (field : List Byte) : State :=
  desyncMarked (restartMarked s n fnum field) (chanJudged s n arr fnum field).2

theorem mem_frameMarked (n : Nat) (arr : Int) (fnum : Nat) (field : List Byte) : (frameMarked s n arr fnum field).mem = s.mem := by
  have hdesync (u : State) (entered : Bool) : (desyncMarked u entered).mem = u.mem := by cases entered <;> rfl
  rw [frameMarked, hdesync]
  unfold restartMarked onIf
  split <;> rfl

theorem arriveAt_frame (n : Nat) (arr : Int) (info : ArrivalInfo) (payload field : List Byte) :
    ∃ (w : State) (c : Chan) (tov : Int) (stamp : Nat) (a : Arrival), (Effect (markRegs n) [] s w ∧ w.mem = s.mem) ∧
      arriveAt s n arr none info payload field =
        holdArrival (wordsTaken (chanDesc s n) (landRecord w n c arr tov stamp (chanOf s n).seq info payload)) n c a := by
  obtain ⟨meas, h⟩ := arriveAt_landed (s := s) n arr none info payload field
  exact ⟨frameMarked s n arr info.fnum field, _, _, _, _, ⟨effect_marked n info.fnum field _, mem_frameMarked ..⟩, h⟩

/-- What follows the record: the words taken, and the hold. -/
theorem effect_afterRecord (d : Nat) (c : Chan) (a : Arrival) :
    Effect (mergeRegs ++ arrivalRegs n) [.fus, .free] s (holdArrival (wordsTaken d s) n c a) :=
  ((effect_wordsTaken d).mono (List.nil_subset _) (by decide)).trans
    ((effect_holdArrival n c a).mono (by simp [holdRegs, mergeRegs, arrivalRegs]) (by decide))

/-- What the marks of an arrival leave of a channel's ring. -/
theorem ring_kept {n : Nat} (hn : n < 64) : SNS_CH_PROD n ∉ markRegs n ∧ SNS_CH_CONS n ∉ markRegs n ∧ SNS_CH_CNT_DROP n ∉ markRegs n ∧
    SNS_CH_PROD n ∉ mergeRegs ++ arrivalRegs n ∧ SNS_CH_CNT_DROP n ∉ mergeRegs ++ arrivalRegs n ∧ FLD_PCI_STAT ∉ markRegs n := by
  revert n
  decide

theorem markRegs_subset (n : Nat) : markRegs n ⊆ arrivalRegs n := by simp [markRegs, arrivalRegs]

theorem le_of_mem_markRegs {n a : Nat} (h : a ∈ markRegs n) : 0x100005001000 ≤ a := by
  simp only [markRegs, List.mem_cons, List.not_mem_nil, or_false, SNS_CH_CNT_ERR, FUS_CNT, FUS_EVT] at h
  omega

theorem winBase_lt (d : Nat) : (SCH_CTX_WIN_BASE (chCtx d)).addr < 0x100005001000 := by
  have hctx : chCtx d < 2 ^ 6 := bitsOf_lt _ 21 16
  show SCH_CTX_WIN (chCtx d) < _
  unfold SCH_CTX_WIN
  omega

/-- The marks of an arrival leave the place of its record. -/
theorem RecordPlace.marked {w : State} {ofs len : Nat} (h : RecordPlace s n ofs len e) (hw : Effect (markRegs n) [] s w) (hn : n < 64) :
    RecordPlace w n ofs len e := by
  obtain ⟨i, hres, hhost, h2, h3⟩ := h
  have hlow {a : Nat} (ha : a < 0x100005001000) : a ∉ markRegs n := fun hm => by
    have := le_of_mem_markRegs hm
    omega
  obtain ⟨hpkept, -, -, -, -, hbme⟩ := ring_kept hn
  have hfus : w.fus = s.fus := hw.keeps .fus (by decide)
  have hplt : w.plt = s.plt := (hw.keeps .place (by decide)).1
  have hprod : w.get (SNS_CH_PROD_INDEX n) = s.get (SNS_CH_PROD_INDEX n) := hw.get hpkept
  have hbase : w.get (SCH_CTX_WIN_BASE (chCtx (chanDesc s n))) = s.get (SCH_CTX_WIN_BASE (chCtx (chanDesc s n))) :=
    hw.get (hlow (winBase_lt _))
  have hlimit : w.get (SCH_CTX_WIN_LIMIT (chCtx (chanDesc s n))) = s.get (SCH_CTX_WIN_LIMIT (chCtx (chanDesc s n))) :=
    hw.get (hlow (winBase_lt _))
  have hobj (x : Nat) : objectAt w x = objectAt s x := by
    rw [objectAt, objectAt, hplt, hw.on (hlow (by decide))]
  have hwin (x : Nat) : inWindow w (chCtx (chanDesc s n)) x = inWindow s (chCtx (chanDesc s n)) x := by
    rw [inWindow, inWindow, hbase, hlimit]
  refine ⟨i, ?_, fun h4 => (hw.on hbme).trans (hhost h4), h2, h3⟩
  rw [chanDesc_congr (congrArg Fusion.tables hfus), hprod, ← hres]
  simp only [resolve, hobj, hwin]

theorem memGet_stored (p q : Nat) (bs bs' : List Byte) (a : Nat) :
    memGet (memWrite (memWrite s.mem p bs) q bs') a = memGet ((s.store p bs).store q bs').mem a := rfl

/-- A frame of a channel with a ring: its marks, its record, its hold. -/
theorem exec_frame {p ts vc dt fnum lines bpl : Nat} {data : List Byte} (hcsi : csiOn s p = true) (hdt : dt ∈ csiTypes) (hvc : vc < 4)
    (hf : fnum < 65536) (hone : channelsOf s 0 (fun d => chPort d == p && chVc d == vc && chDt d == dt) = [n]) :
    ∃ (w : State) (c : Chan) (tov : Int) (stamp : Nat) (a : Arrival) (u : State), (Effect (markRegs n) [] s w ∧ w.mem = s.mem) ∧
      u = landRecord w n c ((ts * 65536 : Nat) : Int) tov stamp (chanOf s n).seq (frameInfo fnum lines bpl 0 0) data ∧
      exec (.csi2Frame p ts (vc * 64 + dt) fnum lines bpl 0 0 data) s = finish s (holdArrival (wordsTaken (chanDesc s n) u) n c a) ∧
      ∀ t : State, t.fus = (holdArrival (wordsTaken (chanDesc s n) u) n c a).fus →
        ArrivalTaken s t n ((ts * 65536 : Nat) : Int) fnum none data := by
  have hexec := exec_csi2Frame_good (ts := ts) (fnum := fnum) (lines := lines) (bpl := bpl) (data := data) hcsi hdt hvc hone
  have hcount := effect_packetsCounted_zero (s := s)
  have hmem : (packetsCounted s 0 0).mem = s.mem := rfl
  generalize packetsCounted s 0 0 = v at hexec hcount hmem
  have hfus : v.fus = s.fus := hcount.keeps .fus (by decide)
  have hdesc : chanDesc v n = chanDesc s n := chanDesc_congr (congrArg Fusion.tables hfus) n
  obtain ⟨w, c, tov, stamp, a, ⟨hmark, hmem'⟩, harr⟩ := arriveAt_frame (s := v) n ((ts * 65536 : Nat) : Int) (frameInfo fnum lines bpl 0 0) data
    (data.drop (chSofs (chanDesc v n)))
  rw [chanOf_congr (congrArg Fusion.chans hfus), hdesc] at harr
  refine ⟨w, c, tov, stamp, a, _, ⟨(hcount.mono (List.nil_subset _) (List.Subset.refl _)).trans hmark, hmem'.trans hmem⟩, rfl, ?_, fun t ht => ?_⟩
  · rw [hexec, arrive, hdesc, harr]
  · have htaken := arrivalTaken_arriveAt (s := s) (t := t) (u := v) (n := n) (arr := ((ts * 65536 : Nat) : Int)) (ring := none)
      (info := frameInfo fnum lines bpl 0 0) (payload := data) (congrArg Fusion.tables hfus) (congrArg Fusion.chans hfus)
      (by rw [ht, harr]) rfl
    rwa [show (frameInfo fnum lines bpl 0 0).fnum = fnum from Nat.mod_eq_of_lt hf] at htaken

/-- What a record that landed leaves. -/
theorem completes_landed (hon : s.powered) {p ts vc dt fnum lines bpl : Nat} {data : List Byte} (hn : n < 64)
    (hring : chRing (chanDesc s n) ≠ 0) (hcsi : csiOn s p = true) (hdt : dt ∈ csiTypes) (hvc : vc < 4) (hf : fnum < 65536)
    (hone : channelsOf s 0 (fun d => chPort d == p && chVc d == vc && chDt d == dt) = [n])
    (hroom : (s.get (SNS_CH_PROD_INDEX n) + 65536 - s.get (SNS_CH_CONS_INDEX n)) % 65536 ≠ 2 ^ chRlog2 (chanDesc s n))
    (hhead : RecordPlace s n 0 64 e) (hload : RecordPlace s n 512 (data.take (chSlotSz (chanDesc s n) * 64 - 512)).length e)
    (hne : data.take (chSlotSz (chanDesc s n) * 64 - 512) ≠ []) :
    Completes (.csi2Frame p ts (vc * 64 + dt) fnum lines bpl 0 0 data) s fun t =>
      ArrivalTaken s t n ((ts * 65536 : Nat) : Int) fnum none data ∧
      t.get (SNS_CH_PROD_INDEX n) = (s.get (SNS_CH_PROD_INDEX n) + 1) % 65536 ∧
      (∃ (place : Nat) (header : List Byte), place = objPlace e
          (slotAddr (chanDesc s n) (s.get (SNS_CH_PROD_INDEX n)) - e.base * 65536) ∧
        header.length = 64 ∧ header.take 16 = tsOf s true ((ts * 65536 : Nat) : Int) ∧ leField header 32 4 = (chanOf s n).seq % 2 ^ 32 ∧
        leField header 36 4 = (data.take (chSlotSz (chanDesc s n) * 64 - 512)).length % 2 ^ 32 ∧
        leField header 40 2 = fnum ∧
        ∀ a, memGet t.mem a =
          memGet ((s.store place header).store (place + 512) (data.take (chSlotSz (chanDesc s n) * 64 - 512))).mem a) ∧
      ChangesOnly (SNS_CH_PROD n :: MEM_PLT_CNT_LKMISS :: arrivalRegs n) [.fus, .free, .mem, .poison, .place] s t := by
  obtain ⟨w, c, tov, stamp, a, u, ⟨hmark, hwmem⟩, hu, hexec, htaken⟩ := exec_frame (ts := ts) (lines := lines) (bpl := bpl)
    (data := data) hcsi hdt hvc hf hone
  obtain ⟨hkprod, hkcons, -, hkprod', -, -⟩ := ring_kept hn
  have hdesc : chanDesc w n = chanDesc s n := chanDesc_congr (congrArg Fusion.tables (hmark.keeps .fus (by decide))) n
  have hprod : w.get (SNS_CH_PROD_INDEX n) = s.get (SNS_CH_PROD_INDEX n) := hmark.get hkprod
  have hcons : w.get (SNS_CH_CONS_INDEX n) = s.get (SNS_CH_CONS_INDEX n) := hmark.get hkcons
  have hkind : payloadAt (chKind (chanDesc s n)) = 512 := by
    rw [(mem_channelsOf (s := s) (by rw [hone]; exact List.mem_singleton_self n)).2.1]
    rfl
  have hinfo : (frameInfo fnum lines bpl 0 0).fnum = fnum := Nat.mod_eq_of_lt hf
  obtain ⟨hcount, flags, hland⟩ := landRecord_of_home (s := w) (n := n) (e := e) (c := c) (arr := ((ts * 65536 : Nat) : Int)) (tov := tov)
    (stamp := stamp) (seq := (chanOf s n).seq) (info := frameInfo fnum lines bpl 0 0) (payload := data) (hdesc ▸ hring) (hdesc ▸ hkind)
    (by rw [hprod, hcons, hdesc]; exact hroom) (hhead.marked hmark hn) (by rw [hdesc]; exact hload.marked hmark hn) (by rw [hdesc]; exact hne)
  rw [hdesc, hprod, hinfo] at hland
  rw [hland] at hu
  have hlen := length_recordHeader w c ((ts * 65536 : Nat) : Int) tov (chanOf s n).seq
    (data.take (chSlotSz (chanDesc s n) * 64 - 512)).length fnum hcount flags stamp
  have hts := arr_recordHeader w c ((ts * 65536 : Nat) : Int) tov (chanOf s n).seq
    (data.take (chSlotSz (chanDesc s n) * 64 - 512)).length fnum hcount flags stamp
  have hseq := seq_recordHeader w c ((ts * 65536 : Nat) : Int) tov (chanOf s n).seq
    (data.take (chSlotSz (chanDesc s n) * 64 - 512)).length fnum hcount flags stamp
  have hlanded := landed_recordHeader w c ((ts * 65536 : Nat) : Int) tov (chanOf s n).seq
    (data.take (chSlotSz (chanDesc s n) * 64 - 512)).length fnum hcount flags stamp
  have hfnum := fnum_recordHeader w c ((ts * 65536 : Nat) : Int) tov (chanOf s n).seq
    (data.take (chSlotSz (chanDesc s n) * 64 - 512)).length fnum hcount flags stamp hf
  have hmode : w.epochMode = s.epochMode := hmark.on fun hm => absurd (le_of_mem_markRegs hm) (by decide)
  rw [tsOf_congr hmode] at hts
  generalize recordHeader w c ((ts * 65536 : Nat) : Int) tov (chanOf s n).seq
    (data.take (chSlotSz (chanDesc s n) * 64 - 512)).length fnum hcount flags stamp = header at hu hlen hts hseq hlanded hfnum
  have hstands := effect_recordStands (s := w) (e := e) (slotAddr (chanDesc s n) (s.get (SNS_CH_PROD_INDEX n))) header
    (data.take (chSlotSz (chanDesc s n) * 64 - 512))
  have hmem := mem_recordStands (s := w) (e := e) (slotAddr (chanDesc s n) (s.get (SNS_CH_PROD_INDEX n))) header
    (data.take (chSlotSz (chanDesc s n) * 64 - 512))
  rw [hwmem] at hmem
  have hafter := effect_afterRecord (s := u) (n := n) (chanDesc s n) c a
  generalize recordStands w e (slotAddr (chanDesc s n) (s.get (SNS_CH_PROD_INDEX n))) header
    (data.take (chSlotSz (chanDesc s n) * 64 - 512)) = x at hu hstands hmem
  have hstored : Effect (DGN_CNT_MERGE :: DGN_EVT :: SNS_CH_PROD n :: MEM_PLT_CNT_LKMISS :: arrivalRegs n)
      [.fus, .free, .mem, .poison, .place] w u := by
    subst hu
    exact (hstands.mono (by simp) (by decide)).put _ (by simp [SNS_CH_PROD_INDEX])
  refine completes_of_settled hexec hon fun t hs =>
    ⟨htaken t hs.fus, ?_, ⟨_, header, rfl, hlen, hts, hseq, hlanded, hfnum, fun b => ?_⟩, ?_⟩
  · obtain ⟨h1, h2⟩ := segment_settles (a := SNS_CH_PROD n) (by unfold SNS_CH_PROD DGN_EPOCH; omega)
    rw [hs.get _ h1 h2, hafter.get hkprod', hu]
    exact State.get_put_self (f := SNS_CH_PROD_INDEX n) (show 0 ≤ 15 ∧ 15 < 64 by decide) _
  · have hstart : e.base * 65536 ≤ slotAddr (chanDesc s n) (s.get (SNS_CH_PROD_INDEX n)) := by
      obtain ⟨i, hres, -⟩ := hhead.resolves
      exact base_le_of_resolve hres
    have hplace : objPlace e (slotAddr (chanDesc s n) (s.get (SNS_CH_PROD_INDEX n)) + 512 - e.base * 65536) =
        objPlace e (slotAddr (chanDesc s n) (s.get (SNS_CH_PROD_INDEX n)) - e.base * 65536) + 512 := by
      rw [objPlace, objPlace, ← tierPlace_add, ← Nat.sub_add_comm hstart]
    have hput : u.mem = x.mem := by rw [hu]; rfl
    have hkeep : memGet t.mem b = memGet u.mem b := by
      rw [hs.mem]
      exact hafter.keeps .mem (by decide) b
    rw [hkeep, hput, hmem, hplace]
    exact memGet_stored _ _ _ _ _
  · have hmark' : Effect (DGN_CNT_MERGE :: DGN_EVT :: SNS_CH_PROD n :: MEM_PLT_CNT_LKMISS :: arrivalRegs n)
        [.fus, .free, .mem, .poison, .place] s w :=
      hmark.mono (fun a ha => by simp [markRegs_subset n ha]) (List.nil_subset _)
    exact hs.changesOnly_pulsed ((hmark'.trans hstored).trans (hafter.mono (mergeRegs_subset (by simp)) (by decide)))

/-- With the ring full the arrival is taken, and the record dropped. -/
theorem completes_dropped (hon : s.powered) {p ts vc dt fnum lines bpl : Nat} {data : List Byte} (hn : n < 64)
    (hring : chRing (chanDesc s n) ≠ 0) (hcsi : csiOn s p = true) (hdt : dt ∈ csiTypes) (hvc : vc < 4) (hf : fnum < 65536)
    (hone : channelsOf s 0 (fun d => chPort d == p && chVc d == vc && chDt d == dt) = [n])
    (hfull : (s.get (SNS_CH_PROD_INDEX n) + 65536 - s.get (SNS_CH_CONS_INDEX n)) % 65536 = 2 ^ chRlog2 (chanDesc s n)) :
    Completes (.csi2Frame p ts (vc * 64 + dt) fnum lines bpl 0 0 data) s fun t =>
      ArrivalTaken s t n ((ts * 65536 : Nat) : Int) fnum none data ∧
      t.get (SNS_CH_CNT_DROP_VALUE n) = satAdd 32 (s.get (SNS_CH_CNT_DROP_VALUE n)) 1 ∧
      ChangesOnly (SNS_CH_CNT_DROP n :: arrivalRegs n) [.fus, .free] s t := by
  obtain ⟨w, c, tov, stamp, a, u, ⟨hmark, -⟩, hu, hexec, htaken⟩ := exec_frame (ts := ts) (lines := lines) (bpl := bpl) (data := data)
    hcsi hdt hvc hf hone
  obtain ⟨hkprod, hkcons, hkdrop, -, hkdrop', -⟩ := ring_kept hn
  have hdesc : chanDesc w n = chanDesc s n := chanDesc_congr (congrArg Fusion.tables (hmark.keeps .fus (by decide))) n
  have hprod : w.get (SNS_CH_PROD_INDEX n) = s.get (SNS_CH_PROD_INDEX n) := hmark.get hkprod
  have hcons : w.get (SNS_CH_CONS_INDEX n) = s.get (SNS_CH_CONS_INDEX n) := hmark.get hkcons
  rw [landRecord_of_full (hdesc ▸ hring) (by rw [hprod, hcons, hdesc]; exact hfull)] at hu
  have hafter := effect_afterRecord (s := u) (n := n) (chanDesc s n) c a
  refine completes_of_settled hexec hon fun t hs => ⟨htaken t hs.fus, ?_, hs.changesOnly_pulsed
    (((hmark.mono (fun a ha => ?_) (List.nil_subset _)).trans (?_ : Effect _ _ w u)).trans
      (hafter.mono (mergeRegs_subset (by simp)) (List.Subset.refl _)))⟩
  · obtain ⟨h1, h2⟩ := segment_settles (a := SNS_CH_CNT_DROP n) (by unfold SNS_CH_CNT_DROP DGN_EPOCH; omega)
    rw [hs.get _ h1 h2, hafter.get hkdrop', hu, State.get_count_self (f := SNS_CH_CNT_DROP_VALUE n) (show 0 ≤ 31 ∧ 31 < 64 by decide) 1,
      hmark.get hkdrop]
    rfl
  · simp [markRegs_subset n ha]
  · rw [hu]
    exact (Effect.refl w).count 1 (by simp [SNS_CH_CNT_DROP_VALUE])

end

/-- Settles O25: a frame's record through the two writes of its ring, with the arrival's marks before it and its hold after it. -/
theorem arrivalsLandInRings : Obligations.ArrivalsLandInRings := by
  intro s p ts vc dt fnum lines bpl n data hon hn hring hcsi hdt hvc hf hone
  exact ⟨fun e hroom hhead hload hne => completes_landed hon hn hring hcsi hdt hvc hf hone hroom hhead hload hne,
    fun hfull => completes_dropped hon hn hring hcsi hdt hvc hf hone hfull⟩

end Sys2Proof.Machine
end
section
/-! Objects of the SubDevice's dictionary: uploads, downloads and commits (R451 to R456). -/

namespace Sys2Proof.Machine

open Sys2Proof Sys2Proof.Machine.Reg

/-! ### Rows of the dictionary -/

theorem objRow_loopSetpoint : ∀ n, n < 64 → objRow (0x2400 + n) 5 = .ok ⟨0x2400, 64, 5, 7, 32, .rw, true, false⟩ := by decide

theorem objRow_loopCommit : ∀ n, n < 64 → objRow (0x2400 + n) 0x20 = .ok ⟨0x2400, 64, 0x20, 0x20, 8, .rw, false, false⟩ := by decide

theorem objRow_recordCommit : objRow 0x2800 0x10 = .ok ⟨0x2800, 1, 0x10, 0x10, 8, .rw, false, false⟩ := by decide

theorem objRow_clearFault : objRow 0x2400 4 = .ok ⟨0x2400, 64, 4, 4, 8, .wo, false, false⟩ := by decide

theorem objRow_vendor : objRow 0x1018 1 = .ok ⟨0x1018, 1, 1, 4, 32, .ro, false, false⟩ := by decide

theorem objRow_syncLimit : objRow 0x10F1 2 = .ok ⟨0x10F1, 1, 2, 2, 32, .rwp, false, false⟩ := by decide

section

variable {s t : State} {idx sub : Nat} {data : List Byte}

/-! ### Answers -/

theorem Effect.ecs {regs : List Nat} {parts : List Part} (h : Effect regs parts s t) (x : EcsSt) (hp : Part.ecs ∈ parts) :
    Effect regs parts s { t with ecs := x } :=
  h.components rfl fun p hq => by
    cases p
    case ecs => exact absurd hp hq
    all_goals simp [Keeps]

theorem effect_afterUpload (idx sub : Nat) (complete : Bool) : Effect [] [.bus, .ecs] s (afterUpload s idx sub complete) :=
  have hlatch (x : EcsSt) : Effect [] [.bus, .ecs] s { s with ecs := x } := (Effect.refl s).ecs x (by decide)
  Effect.ite (fun _ => hlatch _) fun _ => Effect.ite (fun _ => hlatch _) fun _ => Effect.ite (fun _ => hlatch _) fun _ => Effect.refl s

/-- An abort is counted, and answered. -/
theorem aborts (hon : s.powered) {i : Instr} {code : Nat} (h : exec i s = finish s ((sdoAbort s).answer (.abort code))) :
    Completes i s fun t => t.bus = .abort code ∧ t.get (FLD_ECS_CNT_VALUE 6) = satAdd 32 (s.get (FLD_ECS_CNT_VALUE 6)) 1 ∧
      ChangesOnly [FLD_ECS_CNT 6] [.bus] s t := by
  refine completes_of_settled h hon fun t hs => ⟨hs.bus, ?_, hs.changesOnly (((Effect.refl s).count 1 (by decide)).answer _ (by decide))⟩
  rw [hs.get _ (by decide) (by decide)]
  exact State.get_count_self (f := FLD_ECS_CNT_VALUE 6) (by decide) 1

/-! ### Uploads (R451) -/

theorem exec_sdoUpload (complete : Bool) : exec (.sdoUpload idx sub complete) s = finish s
    (match sdoRead s idx sub complete with
      | .ok bs => (afterUpload s idx sub complete).answer (.bytes bs)
      | .error c => (sdoAbort s).answer (.abort c)) := rfl

theorem completes_sdoUpload (hon : s.powered) {complete : Bool} {bs : List Byte} (h : sdoRead s idx sub complete = .ok bs) :
    Completes (.sdoUpload idx sub complete) s fun t => t.bus = .bytes bs ∧ ChangesOnly [] [.bus, .ecs] s t := by
  have hexec := exec_sdoUpload (s := s) (idx := idx) (sub := sub) complete
  rw [h] at hexec
  exact completes_of_settled hexec hon fun t hs => ⟨hs.bus, hs.changesOnly ((effect_afterUpload ..).answer _ (by decide))⟩

theorem sdoRead_vendor : sdoRead s 0x1018 1 false = .ok (leBytes 4 0x05A1) := by
  rw [sdoRead, objRow_vendor]
  rfl

theorem sdoRead_loopSetpoint {n : Nat} (hn : n < 64) :
    sdoRead s (0x2400 + n) 5 false = .ok (leBytes 4 (s.get (BLV_CLE_L_RIN_VALUE n))) := by
  have hvalue : objValue s (0x2400 + n) 5 = s.get (BLV_CLE_L_RIN_VALUE n) := by
    unfold objValue
    rw [if_neg (by omega), if_neg (by decide), if_pos (by omega), Nat.add_sub_cancel_left]
    rfl
  rw [sdoRead, objRow_loopSetpoint n hn]
  show Except.ok (leBytes 4 (objValue s (0x2400 + n) 5)) = _
  rw [hvalue]

theorem sdoRead_clearFault : sdoRead s 0x2400 4 false = .error 0x06010001 := by
  rw [sdoRead, objRow_clearFault]
  rfl

theorem sdoRead_noObject (h : objectRows idx = []) : sdoRead s idx sub false = .error 0x06020000 := by
  rw [sdoRead, objRow, h]
  rfl

/-! ### Downloads (R451, R452) -/

theorem exec_sdoDownload : exec (.sdoDownload idx sub false data) s = finish s (answerSdo (sdoDownload s idx sub false data)) := rfl

theorem sdoWrite_one {r : ObjRow} (h : objRow idx sub = .ok r) : sdoWrite s idx sub false data = sdoWriteOne s idx sub data := by
  rw [sdoWrite, h]
  rfl

/-- A download that is refused. -/
theorem answerSdo_refused {code : Nat} (h : sdoWrite s idx sub false data = .error code) :
    answerSdo (sdoDownload s idx sub false data) = (sdoAbort s).answer (.abort code) := by
  rw [sdoDownload, h]
  rfl

/-- A download that is taken. -/
theorem answerSdo_taken {u : State} (h : sdoWrite s idx sub false data = .ok u) :
    answerSdo (sdoDownload s idx sub false data) = u.answer (.bytes []) := by
  rw [sdoDownload, h]
  rfl

/-- A writable subindex of the right length that no running PDO writes. -/
theorem sdoWriteOne_accepted {r : ObjRow} (h : objRow idx sub = .ok r) (hacc : r.acc = .rw) (hlen : data.length * 8 = r.bits)
    (hmap : alState s < 4 ∨ rxMapped s idx sub = false) : sdoWriteOne s idx sub data = objWriteValue s idx sub (leNat data) := by
  have hfree : ¬ (4 ≤ alState s ∧ rxMapped s idx sub = true) := by
    rintro ⟨h4, hm⟩
    rcases hmap with hlow | hno
    · omega
    · rw [hno] at hm
      exact absurd hm (by decide)
  rw [sdoWriteOne, h]
  simp only
  rw [hacc, if_neg (by decide), if_neg (by rw [hlen]; exact fun h => h rfl), if_neg (fun h => absurd h.1 (by decide)), if_neg hfree]

theorem objWriteValue_loop {n v : Nat} (hn : n < 64) : objWriteValue s (0x2400 + n) sub v = loopWrite s n sub v := by
  unfold objWriteValue
  rw [if_pos (by omega), Nat.add_sub_cancel_left]

theorem completes_loopSetpoint (hon : s.powered) {n : Nat} (hn : n < 64) (hlen : data.length = 4)
    (hmap : alState s < 4 ∨ rxMapped s (0x2400 + n) 5 = false) : Completes (.sdoDownload (0x2400 + n) 5 false data) s fun t =>
      t.bus = .bytes [] ∧ t.get (BLV_CLE_L_RIN_VALUE n) = leNat data ∧ ChangesOnly [BLV_CLE_L_RIN n] [.bus] s t := by
  have htaken : sdoWrite s (0x2400 + n) 5 false data = .ok (s.put (BLV_CLE_L_RIN_VALUE n) (leNat data)) := by
    rw [sdoWrite_one (objRow_loopSetpoint n hn), sdoWriteOne_accepted (objRow_loopSetpoint n hn) rfl (by rw [hlen]) hmap,
      objWriteValue_loop hn]
    rfl
  have hlt : leNat data < 2 ^ 32 := by
    have := leNat_lt data
    rwa [hlen] at this
  have hexec : exec (.sdoDownload (0x2400 + n) 5 false data) s =
      finish s ((s.put (BLV_CLE_L_RIN_VALUE n) (leNat data)).answer (.bytes [])) := by
    rw [exec_sdoDownload, answerSdo_taken htaken]
  refine completes_of_settled hexec hon fun t hs => ⟨hs.bus, ?_, hs.changesOnly
    (((Effect.refl s).put _ (by simp [BLV_CLE_L_RIN_VALUE])).answer _ (by decide))⟩
  obtain ⟨h1, h2⟩ := segment_settles (a := BLV_CLE_L_RIN n) (by unfold BLV_CLE_L_RIN DGN_EPOCH; omega)
  rw [hs.get _ h1 h2]
  exact State.get_put_of_lt (f := BLV_CLE_L_RIN_VALUE n) (show 0 ≤ 31 ∧ 31 < 64 by decide) hlt

/-- What is refused for its access, its length or the state. -/
theorem sdoWrite_refused {n code : Nat} (hn : n < 64)
    (h : (idx = 0x1018 ∧ sub = 1 ∧ code = 0x06010002) ∨ (idx = 0x2400 + n ∧ sub = 5 ∧ data.length ≠ 4 ∧ code = 0x06070010) ∨
      (idx = 0x10F1 ∧ sub = 2 ∧ data.length = 4 ∧ alState s ≠ 2 ∧ code = 0x08000022)) :
    sdoWrite s idx sub false data = .error code := by
  rcases h with ⟨rfl, rfl, rfl⟩ | ⟨rfl, rfl, hlen, rfl⟩ | ⟨rfl, rfl, hlen, hstate, rfl⟩
  · rw [sdoWrite_one objRow_vendor, sdoWriteOne, objRow_vendor]
    rfl
  · rw [sdoWrite_one (objRow_loopSetpoint n hn), sdoWriteOne, objRow_loopSetpoint n hn]
    simp only
    rw [if_neg (by decide), if_pos (by omega)]
  · rw [sdoWrite_one objRow_syncLimit, sdoWriteOne, objRow_syncLimit]
    simp only
    rw [if_neg (by decide), if_neg (by omega), if_pos (by simp [hstate])]

/-! ### Record commits (R453) -/

theorem pendSets_answer (s : State) (r : Reply) : (s.answer r).pendSets = s.pendSets := rfl

theorem get_answer (s : State) (r : Reply) (f : Fld) : (s.answer r).get f = s.get f := rfl

theorem isPending_answer (s : State) (r : Reply) (k : Nat) : (s.answer r).isPending k = s.isPending k := rfl

theorem Effect.heldRegs {regs : List Nat} {parts : List Part} (h : Effect regs parts s t) (x : Tbl Word64) (hp : Part.held ∈ parts) :
    Effect regs parts s { t with heldRegs := x } :=
  h.components rfl fun p hq => by
    cases p
    case held => exact absurd hp hq
    all_goals simp [Keeps]

/-- The staged bindings are held. -/
def bindingsHeld (s : State) : State :=
  forUpTo 8 (fun g s => s.heldWr (RFX_BIND g) (BitVec.ofNat 64 (dictRd s 0x2800 (8 + g)))) s

theorem bindingsHeld_ecs (k : Nat) : (forUpTo k (fun g s => s.heldWr (RFX_BIND g) (BitVec.ofNat 64 (dictRd s 0x2800 (8 + g)))) s).ecs = s.ecs := by
  induction k with
  | zero => rfl
  | succ k ih => rw [forUpTo_succ]; exact ih

theorem heldRd_heldWr_same (a : Nat) (v : Word64) : (s.heldWr a v).heldRd a = v := tgetD_tset_same ..

theorem heldRd_heldWr_ne {a b : Nat} (h : b ≠ a) (v : Word64) : (s.heldWr a v).heldRd b = s.heldRd b := tgetD_tset_ne _ _ _ _ _ h

theorem heldRd_bindings {g k : Nat} (hg : g < k) :
    (forUpTo k (fun g s => s.heldWr (RFX_BIND g) (BitVec.ofNat 64 (dictRd s 0x2800 (8 + g)))) s).heldRd (RFX_BIND g) =
      BitVec.ofNat 64 (dictRd s 0x2800 (8 + g)) := by
  induction k with
  | zero => omega
  | succ k ih =>
    rw [forUpTo_succ]
    by_cases he : g = k
    · subst he
      rw [heldRd_heldWr_same, dictRd, dictRd, bindingsHeld_ecs]
    · rw [heldRd_heldWr_ne (by unfold RFX_BIND; omega)]
      exact ih (by omega)

theorem heldRd_bindingsHeld {g : Nat} (hg : g < 8) : (bindingsHeld s).heldRd (RFX_BIND g) = BitVec.ofNat 64 (dictRd s 0x2800 (8 + g)) :=
  heldRd_bindings hg

theorem effect_bindingsHeld : Effect [] [.bus, .held] s (bindingsHeld s) :=
  Effect.forUpTo (Effect.refl s) fun u _ _ => (Effect.refl u).heldRegs _ (by decide)

theorem keyRegs_rfx : keyRegs 4 = (List.range 8).map fun g => (RFX_BIND g, 0x9F0F) := by
  decide +kernel

theorem bind_mem_keyRegs {g : Nat} (hg : g < 8) : ∃ r ∈ keyRegs 4, r.1 = RFX_BIND g := by
  rw [keyRegs_rfx]
  exact ⟨_, List.mem_map_of_mem (List.mem_range.mpr hg), rfl⟩

theorem objWriteValue_recordCommit : objWriteValue s 0x2800 0x10 1 = .ok (recordCommit s 0x2800) := by
  unfold objWriteValue
  rw [if_neg (by decide), if_neg (by decide)]
  simp only [if_true]

theorem rfxCommitWritten_running (h : s.on RFX_CTRL_ENABLE = true) : rfxCommitWritten s = s.snapshot 4 := if_pos h

theorem recordCommit_bindings (hrun : s.on RFX_CTRL_ENABLE = true) : recordCommit s 0x2800 = (bindingsHeld s).snapshot 4 := by
  have hkept : (bindingsHeld s).on RFX_CTRL_ENABLE = true := (effect_bindingsHeld.on (by decide)).trans hrun
  have hcommit : recordCommit s 0x2800 = rfxCommitWritten (bindingsHeld s) := by
    unfold recordCommit bindingsHeld
    simp only
  rw [hcommit, rfxCommitWritten_running hkept]

theorem sdoWrite_recordCommit (hrun : s.on RFX_CTRL_ENABLE = true) (hmap : alState s < 4 ∨ rxMapped s 0x2800 0x10 = false) :
    sdoWrite s 0x2800 0x10 false [1#8] = .ok ((bindingsHeld s).snapshot 4) := by
  rw [sdoWrite_one objRow_recordCommit, sdoWriteOne_accepted objRow_recordCommit rfl rfl hmap, ← recordCommit_bindings hrun]
  exact objWriteValue_recordCommit

theorem exec_sdoRecordCommit (hrun : s.on RFX_CTRL_ENABLE = true) (hmap : alState s < 4 ∨ rxMapped s 0x2800 0x10 = false) :
    exec (.sdoRecordCommit 0x2800 sub [1#8]) s = finish s (((bindingsHeld s).snapshot 4).answer (.bytes [])) := by
  have hsub : (commitSub 0x2800).getD sub = 0x10 := by
    rw [commitSub]
    rfl
  show execSdoRecordCommit 0x2800 sub [1#8] s = _
  rw [execSdoRecordCommit, hsub, answerSdo_taken (sdoWrite_recordCommit hrun hmap)]

theorem completes_recordCommit (hon : s.powered) (hdata : data = [1#8]) (hrun : s.on RFX_CTRL_ENABLE = true)
    (hmap : alState s < 4 ∨ rxMapped s 0x2800 0x10 = false) : Completes (.sdoRecordCommit 0x2800 sub data) s fun t =>
      t.bus = .bytes [] ∧ t.isPending 4 = true ∧ (∀ g, g < 8 → t.pendRd 4 (RFX_BIND g) = BitVec.ofNat 64 (dictRd s 0x2800 (8 + g))) ∧
      ChangesOnly [] [.bus, .held] s t := by
  subst hdata
  have hexec := exec_sdoRecordCommit (sub := sub) hrun hmap
  have heff := effect_bindingsHeld (s := s)
  have hheld (g : Nat) (hg : g < 8) := heldRd_bindingsHeld (s := s) hg
  generalize bindingsHeld s = u at hexec heff hheld
  refine completes_of_settled hexec hon fun t hs => ⟨hs.bus, ?_, fun g hg => ?_, hs.changesOnly
    ((heff.snapshot 4 (by decide)).answer _ (by decide))⟩
  · rw [hs.isPending, isPending_answer]
    exact State.isPending_snapshot
  · obtain ⟨r, hr, hreg⟩ := bind_mem_keyRegs hg
    rw [← hreg, State.pendRd_of_snapshot hr (hs.pendSets.trans (pendSets_answer _ _)), hreg]
    exact hheld g hg

/-! ### Loop commits (R456) -/

theorem exec_sdoLoopCommit {n : Nat} (hn : n < 64) :
    exec (.sdoLoopCommit n data) s = finish s (answerSdo (sdoDownload s (0x2400 + n) 0x20 false data)) :=
  congrArg (finish s) (if_pos hn)

theorem sdoWrite_loopCommit {n : Nat} (hn : n < 64) (hmap : alState s < 4 ∨ rxMapped s (0x2400 + n) 0x20 = false) :
    sdoWrite s (0x2400 + n) 0x20 false [1#8] = loopCommit s n := by
  rw [sdoWrite_one (objRow_loopCommit n hn), sdoWriteOne_accepted (objRow_loopCommit n hn) rfl rfl hmap, objWriteValue_loop hn]
  rfl

/-- The staged words stand in a bank of the loop. -/
def wordsStored (s : State) (n b : Nat) : State :=
  forUpTo 16 (fun k s => s.put (BLV_CLE_L_BK_VALUE n b k) (stagedWord s n k).toNat) s

/-- The lane's target group. -/
def targetSet (s : State) (l : Nat) : State := s.put (SLC_L_STAT_TGRP l) l

theorem loopCommit_taken {n : Nat} (hwords : wordsValid (stagedWord s n) = true) (hfree : laneBusy s (loopGroup s n) = false) :
    loopCommit s n = .ok (enterCheck (targetSet (wordsStored s n (1 - loopBank s n)) (loopGroup s n)) (loopGroup s n) (2 ^ n) none) := by
  unfold loopCommit
  simp only
  rw [hwords, hfree]
  rfl

theorem effect_wordsStored (n b : Nat) : Effect (each 16 (BLV_CLE_L_BK n b)) [] s (wordsStored s n b) :=
  Effect.forUpTo (Effect.refl s) fun u _ hk => (Effect.refl u).put _ (mem_each hk)

theorem wordsStored_ecs (n b k : Nat) :
    (forUpTo k (fun k s => s.put (BLV_CLE_L_BK_VALUE n b k) (stagedWord s n k).toNat) s).ecs = s.ecs := by
  induction k with
  | zero => rfl
  | succ k ih => rw [forUpTo_succ]; exact ih

theorem get_wordsStored_below {n b i k : Nat} (hi : i < k) :
    (forUpTo k (fun k s => s.put (BLV_CLE_L_BK_VALUE n b k) (stagedWord s n k).toNat) s).get (BLV_CLE_L_BK_VALUE n b i) =
      (stagedWord s n i).toNat := by
  induction k with
  | zero => omega
  | succ k ih =>
    rw [forUpTo_succ]
    by_cases he : i = k
    · subst he
      rw [State.get_put_of_lt (f := BLV_CLE_L_BK_VALUE n b i) (show 0 ≤ 31 ∧ 31 < 64 by decide) (stagedWord _ n i).isLt, stagedWord,
        stagedWord, dictRd, dictRd, wordsStored_ecs]
    · rw [State.get_put_apart (.inl (by simp only [BLV_CLE_L_BK_VALUE, BLV_CLE_L_BK]; omega))]
      exact ih (by omega)

theorem get_wordsStored {n b k : Nat} (hk : k < 16) : (wordsStored s n b).get (BLV_CLE_L_BK_VALUE n b k) = (stagedWord s n k).toNat :=
  get_wordsStored_below hk

/-- No word of a bank is a register of the lanes. -/
theorem lane_not_mem_bank {n b l : Nat} (hn : n < 64) (hb : b ≤ 1) : SLC_L_STAT l ∉ each 16 (BLV_CLE_L_BK n b) := by
  intro h
  obtain ⟨k, hk, he⟩ := List.mem_map.mp h
  rw [List.mem_range] at hk
  simp only [BLV_CLE_L_BK, SLC_L_STAT] at he
  omega

/-! ### A lane's check (R431) -/

/-- The lane as it waits for its check. -/
def laneChecked (s : State) (l cycles mask : Nat) (req : Option (Nat × Bool)) : Lane :=
  { laneOf s l with check := some (s.blvCyc + cycles, laneSt s l, req), mask := mask }

theorem enterCheck_eq (l mask : Nat) (req : Option (Nat × Bool)) :
    enterCheck s l mask req = (s.setLane l (laneChecked s l (checkCycles s l mask) mask req)).setLaneSt l 5 := rfl

theorem laneOf_setLane (l : Nat) (ln : Lane) : laneOf (s.setLane l ln) l = ln := tgetD_tset_same ..

theorem laneOf_congr (h : t.lanes = s.lanes) (l : Nat) : laneOf t l = laneOf s l := by rw [laneOf, laneOf, h]

theorem Effect.setLane {regs : List Nat} {parts : List Part} (h : Effect regs parts s t) (hp : Part.lanes ∈ parts) (l : Nat) (ln : Lane) :
    Effect regs parts s (t.setLane l ln) :=
  h.components rfl fun p hq => by
    cases p
    case lanes => exact absurd hp hq
    all_goals simp [Keeps, State.setLane]

theorem Effect.enterCheck {regs : List Nat} {parts : List Part} (h : Effect regs parts s t) (hp : Part.lanes ∈ parts) {l : Nat}
    (hr : SLC_L_STAT l ∈ regs) (mask : Nat) (req : Option (Nat × Bool)) : Effect regs parts s (enterCheck t l mask req) :=
  (h.setLane hp l _).put _ hr

theorem laneSt_enterCheck (l mask : Nat) (req : Option (Nat × Bool)) : laneSt (enterCheck s l mask req) l = 5 :=
  State.get_put_of_lt (f := SLC_L_STAT_STATE l) (show 0 ≤ 2 ∧ 2 < 64 by decide) (show 5 < 2 ^ 3 by decide)

theorem laneOf_answer (r : Reply) (l : Nat) : laneOf (s.answer r) l = laneOf s l := rfl

theorem laneOf_enterCheck (l mask : Nat) (req : Option (Nat × Bool)) :
    laneOf (enterCheck s l mask req) l = laneChecked s l (checkCycles s l mask) mask req :=
  laneOf_setLane l _

/-- The check of one loop takes ten cycles. -/
theorem checkCycles_one {l n : Nat} (hl : l ≠ 8) (hn : n < 64) : checkCycles s l (2 ^ n) = 10 := by
  have hone : ∀ n, n < 64 → popCount 64 (2 ^ n) = 1 := by decide
  rw [checkCycles, if_neg hl, hone n hn]

theorem loopGroup_ne (n : Nat) : loopGroup s n ≠ 8 := by
  have : loopGroup s n < 2 ^ 3 := s.get_lt _
  omega

theorem lane_settles {l : Nat} (hl : l < 8) : SLC_L_STAT l ≠ DGN_CNT_MERGE ∧ SLC_L_STAT l ≠ DGN_EVT :=
  segment_settles (by unfold SLC_L_STAT DGN_EPOCH; omega)

theorem loopBank_le (n : Nat) : 1 - loopBank s n ≤ 1 := Nat.sub_le _ _

theorem completes_loopCommit (hon : s.powered) {n : Nat} (hn : n < 64) (hdata : data = [1#8]) (hwords : wordsValid (stagedWord s n) = true)
    (hfree : laneBusy s (loopGroup s n) = false) (hmap : alState s < 4 ∨ rxMapped s (0x2400 + n) 0x20 = false) :
    Completes (.sdoLoopCommit n data) s fun t => t.bus = .bytes [] ∧ laneSt t (loopGroup s n) = 5 ∧
      (∀ k, k < 16 → t.get (BLV_CLE_L_BK_VALUE n (1 - loopBank s n) k) = (stagedWord s n k).toNat) ∧
      (laneOf t (loopGroup s n)).mask = 2 ^ n ∧
      (laneOf t (loopGroup s n)).check = some (s.blvCyc + 10, laneSt s (loopGroup s n), none) ∧
      ChangesOnly (SLC_L_STAT (loopGroup s n) :: each 16 (BLV_CLE_L_BK n (1 - loopBank s n))) [.bus, .lanes] s t := by
  subst hdata
  have hexec : exec (.sdoLoopCommit n [1#8]) s = finish s ((enterCheck (targetSet (wordsStored s n (1 - loopBank s n)) (loopGroup s n))
      (loopGroup s n) (2 ^ n) none).answer (.bytes [])) := by
    rw [exec_sdoLoopCommit hn, answerSdo_taken ((sdoWrite_loopCommit hn hmap).trans (loopCommit_taken hwords hfree))]
  have hgroup := loopGroup_ne (s := s) n
  have hlt : loopGroup s n < 8 := s.get_lt _
  have hbank := loopBank_le (s := s) n
  generalize loopGroup s n = l at hexec hgroup hlt hfree ⊢
  generalize 1 - loopBank s n = b at hexec hbank ⊢
  have hstored := effect_wordsStored (s := s) n b
  have hget (k : Nat) (hk : k < 16) := get_wordsStored (s := s) (n := n) (b := b) hk
  generalize wordsStored s n b = w at hexec hstored hget
  have htarget : Effect [SLC_L_STAT l] [] w (targetSet w l) := (Effect.refl w).put _ (by simp [SLC_L_STAT_TGRP])
  have hstate : laneSt (targetSet w l) l = laneSt s l := by
    rw [laneSt, targetSet, State.get_put_apart (f := SLC_L_STAT_TGRP l) (g := SLC_L_STAT_STATE l)
      (.inr (show 8 ≤ 10 ∧ 10 < 64 ∧ (2 < 8 ∨ 10 < 0) by decide))]
    exact hstored.get (lane_not_mem_bank hn hbank)
  have hlanes : (targetSet w l).lanes = s.lanes :=
    Eq.trans (show (targetSet w l).lanes = w.lanes from htarget.keeps .lanes (by decide)) (hstored.keeps .lanes (by decide))
  obtain ⟨hcyc, -⟩ := hstored.keeps .time (by decide)
  obtain ⟨hcyc', -⟩ := htarget.keeps .time (by decide)
  have hclock : (targetSet w l).blvCyc = s.blvCyc := by
    rw [State.blvCyc, State.blvCyc, hcyc', hcyc]
  have hset : Effect (SLC_L_STAT l :: each 16 (BLV_CLE_L_BK n b)) [.bus, .lanes] s (targetSet w l) :=
    (hstored.mono (List.subset_cons_self _ _) (List.nil_subset _)).trans (htarget.mono (by simp) (List.nil_subset _))
  have hbankKept (k : Nat) (hk : k < 16) : (targetSet w l).get (BLV_CLE_L_BK_VALUE n b k) = (stagedWord s n k).toNat := by
    rw [htarget.get fun hm => lane_not_mem_bank hn hbank (l := l) (List.mem_singleton.mp hm ▸ mem_each hk), hget k hk]
  generalize targetSet w l = x at hexec hstate hlanes hclock hset hbankKept
  have hlane : laneOf x l = laneOf s l := laneOf_congr hlanes l
  refine completes_of_settled hexec hon fun t hs => ?_
  have hlaneOf : laneOf t l = laneChecked x l (checkCycles x l (2 ^ n)) (2 ^ n) none := by
    rw [laneOf_congr hs.lanes, laneOf_answer, laneOf_enterCheck]
  refine ⟨hs.bus, ?_, fun k hk => ?_, ?_, ?_, hs.changesOnly ((hset.enterCheck (by decide) (by simp) _ _).answer _ (by decide))⟩
  · obtain ⟨h1, h2⟩ := lane_settles hlt
    rw [laneSt, hs.get (SLC_L_STAT_STATE l) h1 h2, get_answer]
    exact laneSt_enterCheck l (2 ^ n) none
  · obtain ⟨h1, h2⟩ := segment_settles (a := BLV_CLE_L_BK n b k) (by unfold BLV_CLE_L_BK DGN_EPOCH; omega)
    rw [hs.get _ h1 h2, get_answer, ← hbankKept k hk]
    have henter : Effect [SLC_L_STAT l] [.lanes] x (enterCheck x l (2 ^ n) none) :=
      (Effect.refl x).enterCheck (by decide) (List.mem_singleton_self _) _ _
    exact henter.get fun hm => lane_not_mem_bank hn hbank (l := l) (List.mem_singleton.mp hm ▸ mem_each hk)
  · rw [hlaneOf]
    rfl
  · rw [hlaneOf, laneChecked, checkCycles_one hgroup hn, hclock, hstate]

theorem completes_loopCommit_invalid (hon : s.powered) {n : Nat} (hn : n < 64) (hdata : data = [1#8])
    (hwords : wordsValid (stagedWord s n) = false) (hmap : alState s < 4 ∨ rxMapped s (0x2400 + n) 0x20 = false) :
    Completes (.sdoLoopCommit n data) s fun t => t.bus = .abort 0x06090030 ∧
      t.get (FLD_ECS_CNT_VALUE 6) = satAdd 32 (s.get (FLD_ECS_CNT_VALUE 6)) 1 ∧ ChangesOnly [FLD_ECS_CNT 6] [.bus] s t := by
  subst hdata
  have hrefused : loopCommit s n = .error 0x06090030 := by
    unfold loopCommit
    simp only
    rw [hwords]
    rfl
  refine aborts hon ?_
  rw [exec_sdoLoopCommit hn, answerSdo_refused ((sdoWrite_loopCommit hn hmap).trans hrefused)]

end

/-- Settles O45: the dictionary's answers by the row of each object, and its commits by what they store. -/
theorem dictionaryIsReadAndWritten : Obligations.DictionaryIsReadAndWritten := by
  intro s idx sub n data hon hn
  refine ⟨fun complete bs h => completes_sdoUpload hon h, fun complete code h => ?_, sdoRead_vendor, sdoRead_loopSetpoint hn,
    sdoRead_clearFault, sdoRead_noObject, fun hlen hmap => completes_loopSetpoint hon hn hlen hmap, fun code h => ?_,
    fun hdata hrun hmap => completes_recordCommit hon hdata hrun hmap,
    fun hdata hwords hfree hmap => completes_loopCommit hon hn hdata hwords hfree hmap,
    fun hdata hwords hmap => completes_loopCommit_invalid hon hn hdata hwords hmap⟩
  · refine aborts hon ?_
    rw [exec_sdoUpload, h]
  · refine aborts hon ?_
    rw [exec_sdoDownload, answerSdo_refused (sdoWrite_refused hn h)]

end Sys2Proof.Machine
end
section
/-! Evaluations of the reflex arrays: their release, their results, and the bindings (R413 to R425, R440). -/

namespace Sys2Proof.Machine

open Sys2Proof Sys2Proof.Machine.Reg

section

variable {s t : State}

/-! ### What the arrays read -/

theorem Effect.setRfx {regs : List Nat} {parts : List Part} (h : Effect regs parts s t) (r : Reflex) (hp : Part.rfx ∈ parts) :
    Effect regs parts s (t.setRfx r) :=
  h.components rfl fun p hq => by
    cases p
    case rfx => exact absurd hp hq
    all_goals simp [Keeps, State.setRfx]

/-- The history and the weight banks of two states agree. -/
structure SameArrays (s t : State) : Prop where
  mem : t.mem = s.mem
  hist : t.rfx.hist = s.rfx.hist
  undef : t.rfx.undef = s.rfx.undef

theorem SameArrays.wbank (h : SameArrays s t) (bank ofs n : Nat) : wbank t bank ofs n = wbank s bank ofs n := by
  rw [Machine.wbank, Machine.wbank, h.undef, State.load, State.load, h.mem]

theorem SameArrays.evaluate (h : SameArrays s t) (bank : Nat) (e : List Byte) : evaluate t bank e = evaluate s bank e := by
  have hlayers : progLayers t bank e = progLayers s bank e := by
    rw [progLayers, progLayers]
    simp only [h.wbank]
  have hinputs : evalInputs t bank e = evalInputs s bank e := by
    rw [evalInputs, evalInputs]
    simp only [h.wbank, histAt, h.hist]
  have hout (l : List Byte) (x : List Int) : layerOut t bank l x = layerOut s bank l x := by
    rw [layerOut, layerOut]
    simp only [h.wbank]
  rw [Machine.evaluate, Machine.evaluate, hlayers, hinputs]
  simp only [hout]

/-! ### Conversions (R413, R420, R424) -/

/-- The history with the codes of a conversion, which is over. -/
def codesPushed (s : State) (codes : List Int) (absent : Nat) (rest : List Conv) : State :=
  s.setRfx { (pushHistory s codes absent).rfx with convs := rest }

theorem effect_codesPushed (codes : List Int) (absent : Nat) (rest : List Conv) : Effect [] [.rfx] s (codesPushed s codes absent rest) :=
  (Effect.refl s).setRfx _ (by decide)

/-- What one channel's history takes. -/
def channelPushed (codes : List Int) (absent ch : Nat) (h : List Int) : List Int :=
  ((if absent.testBit ch then h.getD 0 0 else clampInt (codes.getD ch 0) (-131072) 131071) :: h).take 128

theorem hist_codesPushed (codes : List Int) (absent : Nat) (rest : List Conv) :
    (codesPushed s codes absent rest).rfx.hist = s.rfx.hist.mapIdx (channelPushed codes absent) := rfl

theorem getD_hist_codesPushed {codes : List Int} {absent ch : Nat} (rest : List Conv) (hch : ch < s.rfx.hist.length) :
    (codesPushed s codes absent rest).rfx.hist.getD ch [] = channelPushed codes absent ch (s.rfx.hist.getD ch []) := by
  rw [hist_codesPushed, List.getD_eq_getElem?_getD, List.getD_eq_getElem?_getD, List.getElem?_mapIdx, List.getElem?_eq_getElem hch]
  rfl

theorem histAt_codesPushed {codes : List Int} {absent ch : Nat} (rest : List Conv) (hch : ch < s.rfx.hist.length) :
    histAt (codesPushed s codes absent rest) ch 0 =
      (if absent.testBit ch then histAt s ch 0 else clampInt (codes.getD ch 0) (-131072) 131071) ∧
    ∀ k, k < 127 → histAt (codesPushed s codes absent rest) ch (k + 1) = histAt s ch k := by
  refine ⟨?_, fun k hk => ?_⟩
  · rw [histAt, getD_hist_codesPushed rest hch]
    rfl
  · rw [histAt, getD_hist_codesPushed rest hch, channelPushed, List.getD_eq_getElem?_getD, List.getElem?_take_of_lt (by omega),
      List.getElem?_cons_succ, ← List.getD_eq_getElem?_getD, histAt]

theorem histAt_congr (h : t.rfx.hist = s.rfx.hist) (ch k : Nat) : histAt t ch k = histAt s ch k := by rw [histAt, histAt, h]

theorem dueConv_of {v : Conv} {rest : List Conv} {c : Nat} (hconvs : s.rfx.convs = v :: rest) (hdue : v.t0 + 700 ≤ s.cyc) (hc : c ∈ v.units) :
    dueConv s c = some v := by
  rw [dueConv, hconvs]
  exact if_pos ⟨hdue, hc⟩

/-! ### Releases (R415, R416) -/

/-- An evaluation is released. -/
def evalAdded (s : State) (e : Eval) : State := s.setRfx { s.rfx with evals := s.rfx.evals ++ [e] }

theorem rfx_evalAdded (e : Eval) : (evalAdded s e).rfx = { s.rfx with evals := s.rfx.evals ++ [e] } := rfl

theorem same_evalAdded (e : Eval) : SameArrays s (evalAdded s e) := ⟨rfl, rfl, rfl⟩

theorem get_evalAdded (e : Eval) (f : Fld) : (evalAdded s e).get f = s.get f := rfl

theorem SameArrays.trans {u : State} (h : SameArrays s t) (k : SameArrays t u) : SameArrays s u :=
  ⟨k.mem.trans h.mem, k.hist.trans h.hist, k.undef.trans h.undef⟩

theorem SameArrays.of_settled {f : Fuses} {u : State} (h : Settled f s u t) : SameArrays u t := ⟨h.mem, by rw [h.rfx], by rw [h.rfx]⟩

/-- STALE in the flags of an evaluation. -/
def staleFlag (s : State) : Nat := 32 * ofBool (s.on (SLC_L_STAT_STALE 8))

/-- An evaluation that finds the arrays occupied. -/
def busyEval (s : State) (v : Conv) (g : Nat) : Eval :=
  { g := g, t0 := v.t0, bank := actBank s, flags := staleFlag s + 2, absMask := 0, res := none, occ := false }

theorem releaseGroup_busy {v : Conv} {absent ecc g prog : Nat} (h : arraysBusy s (v.t0 + 700) = true) :
    releaseGroup s v absent ecc g prog = (evalAdded s (busyEval s v g)).count RFX_CNT_BUSY_VALUE 1 := by
  unfold releaseGroup
  exact if_pos h

/-- A good evaluation of a program. -/
def goodEval (s : State) (v : Conv) (g prog : Nat) : Eval :=
  { g := g, t0 := v.t0, bank := actBank s, flags := staleFlag s, absMask := 0,
    res := some (evaluate s (actBank s) (progEntry s (actBank s) prog)), occ := true }

/-- An evaluation is counted, and nothing that it did not meet. -/
def evalCounted (s : State) : State := (((s.countWrap RFX_CNT_EVAL_VALUE 1).count RFX_CNT_ABSENT_VALUE 0).count RFX_CNT_ECC_VALUE 0).sramEcc 0

theorem effect_evalCounted : Effect [RFX_CNT_EVAL] [] s (evalCounted s) :=
  (((((Effect.refl s).countWrap 1 (by decide)).trans (effect_count_zero _ (by decide))).trans (effect_count_zero _ (by decide))).trans
    (effect_count_zero _ (by decide))).trans (effect_count_zero _ (by decide))

theorem get_evalCounted : (evalCounted s).get RFX_CNT_EVAL_VALUE = (s.get RFX_CNT_EVAL_VALUE + 1) % 2 ^ 64 := by
  have hrest : Effect [] [] (s.countWrap RFX_CNT_EVAL_VALUE 1) (evalCounted s) :=
    (((effect_count_zero _ (by decide)).trans (effect_count_zero _ (by decide))).trans
      (effect_count_zero _ (by decide))).trans (effect_count_zero _ (by decide))
  rw [hrest.get (by decide)]
  exact State.get_countWrap (f := RFX_CNT_EVAL_VALUE) (by decide) 1

theorem same_evalCounted : SameArrays s (evalCounted s) ∧ (evalCounted s).rfx = s.rfx := ⟨⟨rfl, rfl, rfl⟩, rfl⟩

theorem releaseGroup_good {v : Conv} {absent g prog : Nat} (hfree : arraysBusy s (v.t0 + 700) = false)
    (hvalid : prValid (progEntry s (actBank s) prog) = true)
    (hpresent : absent &&& inputChannels s (actBank s) (progEntry s (actBank s) prog) = 0) :
    releaseGroup s v absent 0 g prog = evalAdded (evalCounted s) (goodEval s v g prog) := by
  unfold releaseGroup
  rw [if_neg (by rw [hfree]; decide), if_neg (by rw [hvalid]; decide)]
  simp only [hpresent]
  rfl

theorem exec_reflexRelease {c absent ecc g prog : Nat} {codes : List Int} {v : Conv} {rest : List Conv} (hconvs : s.rfx.convs = v :: rest)
    (hdue : v.t0 + 700 ≤ s.cyc) (hc : c ∈ v.units) (hreal : v.real = true) (habs : absent < 256) (hen : s.on RFX_CTRL_ENABLE = true)
    (hgroups : v.groups = [(g, prog)]) : exec (.reflexRelease c codes absent ecc) s =
      finish s (releaseGroup (codesPushed s codes absent rest) v absent ecc g prog) := by
  have hmask : absentMask v absent = absent := by
    rw [absentMask, if_pos hreal, Nat.mod_eq_of_lt habs]
  have hreleased : releasedGroups s v = [(g, prog)] := by
    rw [releasedGroups, if_pos hen, hgroups]
  have hpushed : (pushHistory s codes absent).setRfx { (pushHistory s codes absent).rfx with
      convs := (pushHistory s codes absent).rfx.convs.drop 1 } = codesPushed s codes absent rest := by
    have hrest : (pushHistory s codes absent).rfx.convs.drop 1 = rest := by
      show s.rfx.convs.drop 1 = rest
      rw [hconvs]
      rfl
    rw [hrest]
    rfl
  show execReflexRelease c codes absent ecc s = _
  unfold execReflexRelease
  rw [dueConv_of hconvs hdue hc]
  simp only
  rw [hreleased, hmask, if_neg (by simp), hpushed]
  rfl

/-- What a conversion leaves of the rest of the arrays. -/
theorem kept_codesPushed (codes : List Int) (absent : Nat) (rest : List Conv) :
    (codesPushed s codes absent rest).rfx.evals = s.rfx.evals ∧ (codesPushed s codes absent rest).rfx.convs = rest ∧
      actBank (codesPushed s codes absent rest) = actBank s ∧ staleFlag (codesPushed s codes absent rest) = staleFlag s ∧
      (∀ a, arraysBusy (codesPushed s codes absent rest) a = arraysBusy s a) ∧
      (∀ bank ofs n, wbank (codesPushed s codes absent rest) bank ofs n = wbank s bank ofs n) :=
  ⟨rfl, rfl, rfl, rfl, fun _ => rfl, fun _ _ _ => rfl⟩

theorem histories {codes : List Int} {absent : Nat} {u : State} (hlen : s.rfx.hist.length = 8)
    (hpush : ∀ ch, ch < s.rfx.hist.length → histAt u ch 0 =
        (if absent.testBit ch then histAt s ch 0 else clampInt (codes.getD ch 0) (-131072) 131071) ∧
      ∀ k, k < 127 → histAt u ch (k + 1) = histAt s ch k) (ht : t.rfx.hist = u.rfx.hist) :
    ∀ ch, ch < 8 → histAt t ch 0 = (if absent.testBit ch then histAt s ch 0 else clampInt (codes.getD ch 0) (-131072) 131071) ∧
      ∀ k, k < 127 → histAt t ch (k + 1) = histAt s ch k := by
  intro ch hch
  rw [histAt_congr ht]
  obtain ⟨h0, hk⟩ := hpush ch (by omega)
  exact ⟨h0, fun k hlt => (histAt_congr ht ch (k + 1)).trans (hk k hlt)⟩

theorem completes_reflexRelease (hon : s.powered) {c absent g prog : Nat} {codes : List Int} {v : Conv} {rest : List Conv}
    (hconvs : s.rfx.convs = v :: rest) (hdue : v.t0 + 700 ≤ s.cyc) (hc : c ∈ v.units) (hreal : v.real = true) (habs : absent < 256)
    (hlen : s.rfx.hist.length = 8) (hen : s.on RFX_CTRL_ENABLE = true) (hgroups : v.groups = [(g, prog)])
    (hfree : arraysBusy s (v.t0 + 700) = false) (hvalid : prValid (progEntry s (actBank s) prog) = true)
    (hpresent : absent &&& inputChannels s (actBank s) (progEntry s (actBank s) prog) = 0) :
    Completes (.reflexRelease c codes absent 0) s fun t => (∃ e, t.rfx.evals = s.rfx.evals ++ [e] ∧ e.g = g ∧ e.t0 = v.t0 ∧
        e.bank = actBank s ∧ e.occ = true ∧ e.absMask = 0 ∧ e.flags = 32 * ofBool (s.on (SLC_L_STAT_STALE 8)) ∧
        e.res = some (evaluate t (actBank s) (progEntry s (actBank s) prog))) ∧ t.rfx.convs = rest ∧
      (∀ ch, ch < 8 → histAt t ch 0 = (if absent.testBit ch then histAt s ch 0 else clampInt (codes.getD ch 0) (-131072) 131071) ∧
        ∀ k, k < 127 → histAt t ch (k + 1) = histAt s ch k) ∧
      t.get RFX_CNT_EVAL_VALUE = (s.get RFX_CNT_EVAL_VALUE + 1) % 2 ^ 64 ∧
      ChangesOnly [RFX_CNT_EVAL] [.rfx] s t := by
  have hexec := exec_reflexRelease (codes := codes) (ecc := 0) hconvs hdue hc hreal habs hen hgroups
  obtain ⟨hevals, hrest, hbank, hstale, hbusy, hwbank⟩ := kept_codesPushed (s := s) codes absent rest
  have hpush (ch : Nat) (hch : ch < s.rfx.hist.length) := histAt_codesPushed (codes := codes) (absent := absent) rest hch
  have heff := effect_codesPushed (s := s) codes absent rest
  generalize codesPushed s codes absent rest = u at hexec hevals hrest hbank hstale hbusy hwbank hpush heff
  have hentry (b p : Nat) : progEntry u b p = progEntry s b p := hwbank _ _ _
  have hinputs (b : Nat) (e : List Byte) : inputChannels u b e = inputChannels s b e := by
    rw [inputChannels, inputChannels]
    simp only [hwbank]
  rw [releaseGroup_good ((hbusy _).trans hfree) (by rw [hbank, hentry]; exact hvalid) (by rw [hbank, hentry, hinputs]; exact hpresent)]
    at hexec
  obtain ⟨hsame, hrfx⟩ := same_evalCounted (s := u)
  have hget := get_evalCounted (s := u)
  have hcount := effect_evalCounted (s := u)
  generalize evalCounted u = w at hexec hsame hrfx hget hcount
  have hadd := rfx_evalAdded (s := w) (goodEval u v g prog)
  have hsameAdd := hsame.trans (same_evalAdded (goodEval u v g prog))
  have heffAdd : Effect [] [.rfx] w (evalAdded w (goodEval u v g prog)) := (Effect.refl w).setRfx _ (by decide)
  rw [hrfx] at hadd
  generalize evalAdded w (goodEval u v g prog) = x at hexec hadd hsameAdd heffAdd
  refine completes_of_settled hexec hon fun t hs => ⟨⟨goodEval u v g prog, ?_, rfl, rfl, hbank, rfl, rfl, hstale, ?_⟩, ?_,
    histories hlen hpush ?_, ?_, hs.changesOnly (((heff.mono (List.nil_subset _) (List.Subset.refl _)).trans
      (hcount.mono (List.Subset.refl _) (List.nil_subset _))).trans (heffAdd.mono (List.nil_subset _) (List.Subset.refl _)))⟩
  · rw [hs.rfx, hadd, hevals]
  · rw [goodEval, hbank, hentry, (hsameAdd.trans (SameArrays.of_settled hs)).evaluate]
  · rw [hs.rfx, hadd, hrest]
  · rw [hs.rfx, hsameAdd.hist]
  · rw [hs.get _ (by decide) (by decide), heffAdd.get List.not_mem_nil, hget, heff.get List.not_mem_nil]

theorem completes_reflexRelease_busy (hon : s.powered) {c absent g prog : Nat} {codes : List Int} {v : Conv} {rest : List Conv}
    (hconvs : s.rfx.convs = v :: rest) (hdue : v.t0 + 700 ≤ s.cyc) (hc : c ∈ v.units) (hreal : v.real = true) (habs : absent < 256)
    (hen : s.on RFX_CTRL_ENABLE = true) (hgroups : v.groups = [(g, prog)]) (hocc : arraysBusy s (v.t0 + 700) = true) :
    Completes (.reflexRelease c codes absent 0) s fun t => (∃ e, t.rfx.evals = s.rfx.evals ++ [e] ∧ e.g = g ∧ e.res = none ∧
        e.occ = false ∧ e.flags.testBit 1 = true) ∧
      t.get RFX_CNT_BUSY_VALUE = satAdd 32 (s.get RFX_CNT_BUSY_VALUE) 1 ∧ ChangesOnly [RFX_CNT_BUSY] [.rfx] s t := by
  have hexec := exec_reflexRelease (codes := codes) (ecc := 0) hconvs hdue hc hreal habs hen hgroups
  obtain ⟨hevals, -, -, -, hbusy, -⟩ := kept_codesPushed (s := s) codes absent rest
  have heff := effect_codesPushed (s := s) codes absent rest
  generalize codesPushed s codes absent rest = u at hexec hevals hbusy heff
  rw [releaseGroup_busy ((hbusy _).trans hocc)] at hexec
  have hadd : Effect [] [.rfx] s (evalAdded u (busyEval u v g)) := heff.setRfx _ (by decide)
  have hevals' : (evalAdded u (busyEval u v g)).rfx.evals = s.rfx.evals ++ [busyEval u v g] := by
    rw [← hevals]
    rfl
  refine completes_of_settled hexec hon fun t hs => ⟨⟨busyEval u v g, ?_, rfl, rfl, rfl, ?_⟩, ?_, hs.changesOnly
    ((hadd.mono (List.nil_subset _) (List.Subset.refl _)).count 1 (by decide))⟩
  · rw [hs.rfx]
    exact hevals'
  · show (staleFlag u + 2).testBit 1 = true
    unfold staleFlag
    cases u.on (SLC_L_STAT_STALE 8) <;> rfl
  · rw [hs.get _ (by decide) (by decide), State.get_count_self (by decide), hadd.get List.not_mem_nil]
    rfl

theorem completes_sampleHistoryPush (hon : s.powered) {c absent : Nat} {codes : List Int} {v : Conv} {rest : List Conv}
    (hconvs : s.rfx.convs = v :: rest) (hdue : v.t0 + 700 ≤ s.cyc) (hc : c ∈ v.units) (hreal : v.real = true) (habs : absent < 256)
    (hlen : s.rfx.hist.length = 8) (hnone : releasedGroups s v = []) :
    Completes (.sampleHistoryPush c codes absent) s fun t => t.rfx.convs = rest ∧ t.rfx.evals = s.rfx.evals ∧
      (∀ ch, ch < 8 → histAt t ch 0 = (if absent.testBit ch then histAt s ch 0 else clampInt (codes.getD ch 0) (-131072) 131071) ∧
        ∀ k, k < 127 → histAt t ch (k + 1) = histAt s ch k) ∧ ChangesOnly [] [.rfx] s t := by
  have hexec : exec (.sampleHistoryPush c codes absent) s = finish s (codesPushed s codes absent rest) := by
    have hrest : (pushHistory s codes absent).rfx.convs.drop 1 = rest := by
      show s.rfx.convs.drop 1 = rest
      rw [hconvs]
      rfl
    show execSampleHistoryPush c codes absent s = _
    unfold execSampleHistoryPush
    rw [dueConv_of hconvs hdue hc]
    simp only
    rw [if_neg (fun h => h hnone), hreal, Nat.mod_eq_of_lt habs]
    show finish s ((pushHistory s codes absent).setRfx { (pushHistory s codes absent).rfx with
      convs := (pushHistory s codes absent).rfx.convs.drop 1 }) = _
    rw [hrest]
    rfl
  obtain ⟨hevals, hconvs', -⟩ := kept_codesPushed (s := s) codes absent rest
  have hpush (ch : Nat) (hch : ch < s.rfx.hist.length) := histAt_codesPushed (codes := codes) (absent := absent) rest hch
  have heff := effect_codesPushed (s := s) codes absent rest
  generalize codesPushed s codes absent rest = u at hexec hevals hconvs' hpush heff
  exact completes_of_settled hexec hon fun t hs => ⟨by rw [hs.rfx, hconvs'], by rw [hs.rfx, hevals],
    histories hlen hpush (by rw [hs.rfx]), hs.changesOnly heff⟩

/-! ### The output stage (R422) -/

theorem drainEnd_of_none (h : tget s.lanes 8 = none) : drainEnd s = s := by
  rw [drainEnd, h]

theorem completes_reflexOutput (hon : s.powered) {e : Eval} (hone : s.rfx.evals = [e]) (hocc : e.occ = true) (hdue : e.t0 + 1800 ≤ s.cyc)
    (hlane : tget s.lanes 8 = none) : Completes .reflexOutput s fun t =>
      t.rfx = { s.rfx with evals := [{ e with occ := false }] } ∧ (∀ at_, arraysBusy t at_ = false) ∧ ChangesOnly [] [.rfx] s t := by
  have hexec : exec .reflexOutput s = finish s (s.setRfx { s.rfx with evals := [{ e with occ := false }] }) := by
    show execReflexOutput s = _
    rw [execReflexOutput, hone, List.map_cons, List.map_nil, if_pos ⟨hocc, hdue⟩]
    exact congrArg (finish s) (drainEnd_of_none hlane)
  refine completes_of_settled hexec hon fun t hs => ⟨hs.rfx, fun a => ?_, hs.changesOnly ((Effect.refl s).setRfx _ (by decide))⟩
  rw [arraysBusy, hs.rfx]
  rfl

/-! ### Results (R414, R425) -/

/-- The evaluation is over. -/
def evalLatched (s : State) (e : Eval) : State :=
  s.setRfx { s.rfx with
    evals := s.rfx.evals.filter fun x => x ≠ e
    latched := e.g :: s.rfx.latched.filter fun x => x ≠ e.g }

/-- A group's vector takes a result. -/
def vectorStored (s : State) (g : Nat) (res : Option (List Word32)) : State :=
  match res with
  | some ws => forUpTo 64 (fun k (s : State) => s.put (RFX_RES_VALUE g k) (vAt ws k).toNat) s
  | none => s

/-- A group's status takes an evaluation. -/
def statShown (s : State) (e : Eval) : State :=
  (((s.put (RFX_GRP_STAT_FLAGS e.g) e.flags).put (RFX_GRP_STAT_ABSMASK e.g) e.absMask).put (RFX_GRP_STAT_BANK e.g) e.bank).countWrap
    (RFX_GRP_STAT_EVALS e.g) 1

/-- The events of an evaluation's flags before the last. -/
def flagsRaised (s : State) (flags : Nat) : State :=
  onIf (bitOf flags 3) (·.setOn RFX_EVT_ECC) (onIf (bitOf flags 2) (·.setOn RFX_EVT_NOPROG)
    (onIf (bitOf flags 1) (·.setOn RFX_EVT_BUSY) (onIf (bitOf flags 0) (·.setOn RFX_EVT_ABSENT) s)))

theorem latchEval_eq (e : Eval) :
    latchEval s e = drainEnd (flagsRaised (statShown (vectorStored (evalLatched s e) e.g e.res) e) e.flags) := by
  unfold latchEval vectorStored
  cases e.res <;> rfl

theorem effect_vectorStored (g : Nat) (res : Option (List Word32)) : Effect (each 64 (RFX_RES g)) [] s (vectorStored s g res) := by
  cases res with
  | none => exact Effect.refl s
  | some ws => exact Effect.forUpTo (Effect.refl s) fun u _ hk => (Effect.refl u).put _ (mem_each hk)

theorem get_vectorStored {g k : Nat} (hk : k < 64) (ws : List Word32) :
    (vectorStored s g (some ws)).get (RFX_RES_VALUE g k) = (vAt ws k).toNat := by
  refine forUpTo_each (P := fun k s => State.get s (RFX_RES_VALUE g k) = (vAt ws k).toNat)
    (f := fun k s => s.put (RFX_RES_VALUE g k) (vAt ws k).toNat) (fun k u => ?_) (fun j k u hne h => ?_) hk s
  · exact State.get_put_of_lt (f := RFX_RES_VALUE g k) (show 0 ≤ 31 ∧ 31 < 64 by decide) (vAt ws k).isLt
  · rw [State.get_put_apart (.inl (by simp only [RFX_RES_VALUE, RFX_RES]; omega))]
    exact h

theorem effect_statShown (e : Eval) : Effect [RFX_GRP_STAT e.g] [] s (statShown s e) :=
  ((((Effect.refl s).put _ (by simp [RFX_GRP_STAT_FLAGS])).put _ (by simp [RFX_GRP_STAT_ABSMASK])).put _
    (by simp [RFX_GRP_STAT_BANK])).countWrap 1 (by simp [RFX_GRP_STAT_EVALS])

theorem get_statShown (e : Eval) : (statShown s e).get (RFX_GRP_STAT_FLAGS e.g) = e.flags % 64 ∧
    (statShown s e).get (RFX_GRP_STAT_BANK e.g) = e.bank % 2 ∧
    (statShown s e).get (RFX_GRP_STAT_EVALS e.g) = (s.get (RFX_GRP_STAT_EVALS e.g) + 1) % 2 ^ 32 := by
  have hapart (f g : Fld) (hf : f.lo ≤ f.hi ∧ f.hi < 64 ∧ (g.hi < f.lo ∨ f.hi < g.lo)) : Apart f g := .inr hf
  refine ⟨?_, ?_, ?_⟩
  · rw [statShown, State.get_countWrap_apart (hapart _ _ (show 32 ≤ 63 ∧ 63 < 64 ∧ (5 < 32 ∨ 63 < 0) by decide)),
      State.get_put_apart (hapart _ _ (show 8 ≤ 8 ∧ 8 < 64 ∧ (5 < 8 ∨ 8 < 0) by decide)),
      State.get_put_apart (hapart _ _ (show 16 ≤ 23 ∧ 23 < 64 ∧ (5 < 16 ∨ 23 < 0) by decide))]
    exact State.get_put_self (f := RFX_GRP_STAT_FLAGS e.g) (show 0 ≤ 5 ∧ 5 < 64 by decide) _
  · rw [statShown, State.get_countWrap_apart (hapart _ _ (show 32 ≤ 63 ∧ 63 < 64 ∧ (8 < 32 ∨ 63 < 8) by decide))]
    exact State.get_put_self (f := RFX_GRP_STAT_BANK e.g) (show 8 ≤ 8 ∧ 8 < 64 by decide) _
  · rw [statShown, State.get_countWrap (f := RFX_GRP_STAT_EVALS e.g) (show 32 ≤ 63 ∧ 63 < 64 by decide),
      State.get_put_apart (hapart _ _ (show 8 ≤ 8 ∧ 8 < 64 ∧ (63 < 8 ∨ 8 < 32) by decide)),
      State.get_put_apart (hapart _ _ (show 16 ≤ 23 ∧ 23 < 64 ∧ (63 < 16 ∨ 23 < 32) by decide)),
      State.get_put_apart (hapart _ _ (show 0 ≤ 5 ∧ 5 < 64 ∧ (63 < 0 ∨ 5 < 32) by decide))]
    rfl

theorem Effect.raiseIf {regs : List Nat} {parts : List Part} (h : Effect regs parts s t) (c : Bool) {f : Fld} (hf : f.addr ∈ regs) :
    Effect regs parts s (Machine.onIf c (·.setOn f) t) := h.onIf fun _ => h.setOn hf

theorem effect_flagsRaised (flags : Nat) : Effect [RFX_EVT] [] s (flagsRaised s flags) :=
  have hmem : RFX_EVT ∈ [RFX_EVT] := List.mem_singleton_self _
  ((((Effect.refl s).raiseIf _ (f := RFX_EVT_ABSENT) hmem).raiseIf _ (f := RFX_EVT_BUSY) hmem).raiseIf _ (f := RFX_EVT_NOPROG) hmem).raiseIf _
    (f := RFX_EVT_ECC) hmem

theorem on_raiseIf_apart (c : Bool) {f g : Fld} (h : Apart f g) : (onIf c (·.setOn f) s).on g = s.on g := by
  cases c
  · rfl
  · exact State.on_congr (State.get_setOn_apart h)

theorem busy_flagsRaised {flags : Nat} (h : flags.testBit 1 = true) : (flagsRaised s flags).on RFX_EVT_BUSY = true := by
  have hbit : bitOf flags 1 = true := h
  rw [flagsRaised, on_raiseIf_apart _ (by decide), on_raiseIf_apart _ (by decide), hbit]
  exact State.on_setOn _ RFX_EVT_BUSY rfl (by decide)

/-- The registers of a group's status, vector and events are apart. -/
theorem group_apart {g k : Nat} (hg : g < 8) (hk : k < 64) : RFX_RES g k ≠ RFX_GRP_STAT g ∧ RFX_RES g k ≠ RFX_EVT ∧
    RFX_GRP_STAT g ≠ RFX_EVT ∧ RFX_GRP_STAT g < DGN_EPOCH ∧ RFX_RES g k < DGN_EPOCH := by
  simp only [RFX_RES, RFX_GRP_STAT, RFX_EVT, DGN_EPOCH]
  omega

theorem stat_not_mem_res {g : Nat} (hg : g < 8) : RFX_GRP_STAT g ∉ each 64 (RFX_RES g) := by
  intro h
  obtain ⟨k, hk, he⟩ := List.mem_map.mp h
  exact (group_apart hg (List.mem_range.mp hk)).1 he

theorem exec_reflexLatch {e : Eval} (hone : s.rfx.evals = [e]) (hdue : e.t0 + 2000 ≤ s.cyc) (hlane : tget s.lanes 8 = none) :
    exec (.reflexLatch e.g) s = finish s (flagsRaised (statShown (vectorStored (evalLatched s e) e.g e.res) e) e.flags) := by
  have hfind : s.rfx.evals.find? (evalDue s e.g) = some e := by
    rw [hone, List.find?_cons_of_pos]
    rw [evalDue, Bool.and_eq_true, beq_iff_eq, decide_eq_true_eq]
    exact ⟨rfl, hdue⟩
  have hkept : (flagsRaised (statShown (vectorStored (evalLatched s e) e.g e.res) e) e.flags).lanes = s.lanes :=
    Eq.trans ((effect_flagsRaised e.flags).keeps .lanes (by decide)) (Eq.trans ((effect_statShown e).keeps .lanes (by decide))
      (Eq.trans ((effect_vectorStored e.g e.res).keeps .lanes (by decide)) rfl))
  show execReflexLatch e.g s = _
  unfold execReflexLatch
  rw [hfind]
  show finish s (latchEval s e) = _
  rw [latchEval_eq, drainEnd_of_none (by rw [hkept]; exact hlane)]

theorem rfx_evalLatched {e : Eval} (hone : s.rfx.evals = [e]) :
    (evalLatched s e).rfx.evals = [] ∧ e.g ∈ (evalLatched s e).rfx.latched := by
  refine ⟨?_, List.mem_cons_self⟩
  show s.rfx.evals.filter _ = []
  rw [hone]
  simp

theorem completes_reflexLatch (hon : s.powered) {e : Eval} (hone : s.rfx.evals = [e]) (hg : e.g < 8) (hdue : e.t0 + 2000 ≤ s.cyc)
    (hlane : tget s.lanes 8 = none) (hbank : e.bank < 2) (ws : List Word32) : Completes (.reflexLatch e.g) s fun t =>
      t.rfx.evals = [] ∧ e.g ∈ t.rfx.latched ∧
      t.get (RFX_GRP_STAT_FLAGS e.g) = e.flags % 64 ∧ t.get (RFX_GRP_STAT_BANK e.g) = e.bank ∧
      t.get (RFX_GRP_STAT_EVALS e.g) = (s.get (RFX_GRP_STAT_EVALS e.g) + 1) % 2 ^ 32 ∧
      (e.res = some ws → ∀ k, k < 64 → t.get (RFX_RES_VALUE e.g k) = (vAt ws k).toNat) ∧
      (e.res = none → ∀ k, k < 64 → t.get (RFX_RES_VALUE e.g k) = s.get (RFX_RES_VALUE e.g k)) ∧
      (e.flags.testBit 1 = true → t.on RFX_EVT_BUSY = true) ∧
      ChangesOnly (RFX_EVT :: RFX_GRP_STAT e.g :: each 64 (RFX_RES e.g)) [.rfx] s t := by
  have hexec := exec_reflexLatch hone hdue hlane
  obtain ⟨hevals, hlatched⟩ := rfx_evalLatched hone
  have hover : Effect [] [.rfx] s (evalLatched s e) := (Effect.refl s).setRfx _ (by decide)
  generalize evalLatched s e = u at hexec hevals hlatched hover
  have hvector := effect_vectorStored (s := u) e.g e.res
  have hres (k : Nat) (hk : k < 64) (h : e.res = some ws) : (vectorStored u e.g e.res).get (RFX_RES_VALUE e.g k) = (vAt ws k).toNat := by
    rw [h, get_vectorStored hk]
  have hnone (h : e.res = none) : vectorStored u e.g e.res = u := by rw [h]; rfl
  generalize vectorStored u e.g e.res = w at hexec hvector hres hnone
  have hstat := effect_statShown (s := w) e
  obtain ⟨hflags, hbankShown, hevalsShown⟩ := get_statShown (s := w) e
  generalize statShown w e = x at hexec hstat hflags hbankShown hevalsShown
  have hraise := effect_flagsRaised (s := x) e.flags
  have hbusy (h : e.flags.testBit 1 = true) := busy_flagsRaised (s := x) h
  generalize flagsRaised x e.flags = y at hexec hraise hbusy
  obtain ⟨-, -, hstatEvt, hlt, -⟩ := group_apart hg (k := 0) (by decide)
  have hread {t : State} (hs : Settled s.fuses s y t) (f : Fld) (hf : f.addr = RFX_GRP_STAT e.g) : t.get f = x.get f := by
    obtain ⟨h1, h2⟩ := segment_settles hlt
    rw [hs.get f (hf ▸ h1) (hf ▸ h2), hraise.get (by rw [hf]; simpa using hstatEvt)]
  have hword {t : State} (hs : Settled s.fuses s y t) (k : Nat) (hk : k < 64) :
      t.get (RFX_RES_VALUE e.g k) = w.get (RFX_RES_VALUE e.g k) := by
    obtain ⟨hne, hevt, -, -, hres⟩ := group_apart hg hk
    obtain ⟨h1, h2⟩ := segment_settles hres
    rw [hs.get (RFX_RES_VALUE e.g k) h1 h2, hraise.get (f := RFX_RES_VALUE e.g k) (fun hm => hevt (List.mem_singleton.mp hm)),
      hstat.get (f := RFX_RES_VALUE e.g k) (fun hm => hne (List.mem_singleton.mp hm))]
  have hkept : y.rfx = u.rfx := Eq.trans (hraise.keeps .rfx (by decide)) (Eq.trans (hstat.keeps .rfx (by decide)) (hvector.keeps .rfx (by decide)))
  refine completes_of_settled hexec hon fun t hs => ⟨by rw [hs.rfx, hkept, hevals], by rw [hs.rfx, hkept]; exact hlatched,
    (hread hs _ rfl).trans hflags, (hread hs _ rfl).trans (hbankShown.trans (Nat.mod_eq_of_lt hbank)), ?_,
    fun h k hk => (hword hs k hk).trans (hres k hk h), fun h k hk => ?_, fun h => ?_, hs.changesOnly (((
    (hover.mono (List.nil_subset _) (List.Subset.refl _)).trans (hvector.mono (by simp) (List.nil_subset _))).trans
      (hstat.mono (by simp) (List.nil_subset _))).trans (hraise.mono (by simp) (List.nil_subset _)))⟩
  · refine (hread hs _ rfl).trans (hevalsShown.trans ?_)
    rw [hvector.get (f := RFX_GRP_STAT_EVALS e.g) (stat_not_mem_res hg), hover.get List.not_mem_nil]
  · rw [hword hs k hk, hnone h, hover.get List.not_mem_nil]
  · rw [hs.on _ (by decide) (by decide)]
    exact hbusy h

/-! ### Bindings (R440) -/

/-- The register's row of the list. -/
def rfxCommitRow : RegDesc := ⟨"RFX_COMMIT", 0x100008200028, [], 32, 0x0, [⟨0, 0, .live⟩], none, none⟩

theorem regAt_rfxCommit : regAt RFX_COMMIT = some (rfxCommitRow, [], false) := by decide

theorem plainRow_rfxCommit : PlainRow RFX_COMMIT rfxCommitRow := by decide

/-- The register as written. -/
def rfxCommitStored (s : State) (v : Nat) : State :=
  s.wr RFX_COMMIT (BitVec.ofNat 64 (mergeBits (rwMask rfxCommitRow) (s.rd RFX_COMMIT).toNat v))

theorem writeReg_rfxCommit {who : Initiator} {v : Nat} (ok : WriteOk s who RFX_COMMIT (v ||| 1)) :
    writeReg s who RFX_COMMIT (v ||| 1) = rfxCommitWritten (rfxCommitStored s (v ||| 1)) := by
  refine (writeReg_plain ok regAt_rfxCommit plainRow_rfxCommit).trans ?_
  show onIf ((v ||| 1).testBit 0) rfxCommitWritten _ = _
  rw [Nat.testBit_or, show Nat.testBit 1 0 = true from rfl, Bool.or_true]
  rfl

theorem heldRd_rfxCommitStored (a v : Nat) : (rfxCommitStored s v).heldRd a = s.heldRd a := rfl

theorem completes_rfxCommit (hon : s.powered) {who : Initiator} {v : Word64} (ok : WriteOk s who RFX_COMMIT (v.toNat ||| 1))
    (hen : s.on RFX_CTRL_ENABLE = true) : Completes (.rfxCommit who v) s fun t =>
      t.isPending 4 = true ∧ (∀ r ∈ keyRegs 4, t.pendRd 4 r.1 = s.heldRd r.1) ∧ ChangesOnly [RFX_COMMIT] [.held] s t := by
  have hwrite := writeReg_rfxCommit ok
  have heff : Effect [RFX_COMMIT] [] s (rfxCommitStored s (v.toNat ||| 1)) := (Effect.refl s).wr _ List.mem_cons_self
  have hheld (a : Nat) := heldRd_rfxCommitStored (s := s) a (v.toNat ||| 1)
  generalize rfxCommitStored s (v.toNat ||| 1) = u at hwrite heff hheld
  rw [rfxCommitWritten_running ((heff.on (by decide)).trans hen)] at hwrite
  refine completes_of_settled (congrArg (finish s) hwrite) hon fun t hs => ⟨?_, fun r hr => ?_, hs.changesOnly
    ((heff.mono (List.Subset.refl _) (List.nil_subset _)).snapshot _ List.mem_cons_self)⟩
  · rw [hs.isPending]
    exact State.isPending_snapshot
  · rw [State.pendRd_of_snapshot hr hs.pendSets, hheld _]

theorem nodup_keyRegs_rfx : ((keyRegs 4).map Prod.fst).Nodup := by
  rw [keyRegs_rfx]
  decide

/-- A field of a shadowed register after the pending set has latched. -/
theorem get_latch_pending {k m : Nat} {f : Fld} {p : Tbl Word64} (hp : tget s.pendSets k = some p) (hr : (f.addr, m) ∈ keyRegs k)
    (hnd : ((keyRegs k).map Prod.fst).Nodup) (hm : m < 2 ^ 64) (h64 : f.hi < 64) (hin : bitsOf m f.hi f.lo = 2 ^ (f.hi + 1 - f.lo) - 1) :
    (s.latch k).get f = s.pendGet k f := by
  have hlatched : (s.latch k).rd f.addr = BitVec.ofNat 64 (mergeBits m (s.rd f.addr).toNat (tgetD p f.addr (s.rd f.addr)).toNat) := by
    rw [latch_of_pending hp]
    refine (rd_foldl_latchReg _ hr hnd s).trans ?_
    rw [← latchWord_eq hm (s.rd f.addr).isLt (tgetD p f.addr (s.rd f.addr)).isLt]
  have hpend : s.pendRd k f.addr = tgetD p f.addr (s.rd f.addr) := by
    rw [State.pendRd, hp]
  rw [State.get, hlatched, State.toNat_ofNat_rd (mergeBits_lt (s.rd f.addr).isLt (tgetD p f.addr (s.rd f.addr)).isLt),
    bitsOf_mergeBits_in hm h64 _ _ hin, State.pendGet, hpend]

theorem exec_rfxBindLatch_busy (h : arraysBusy s s.cyc = true) : exec .rfxBindLatch s = finish s s := by
  show execRfxBindLatch s = _
  rw [execRfxBindLatch, if_pos h]

theorem exec_rfxBindLatch_good (hpend : s.isPending 4 = true) (hidle : arraysBusy s s.cyc = false) (hok : bindOk s = true) :
    exec .rfxBindLatch s = finish s ((s.latch 4).setOff RFX_CTRL_CFGERR) := by
  show execRfxBindLatch s = _
  rw [execRfxBindLatch, hidle, if_neg Bool.false_ne_true, bindLatch, hpend, hok]
  rfl

theorem exec_rfxBindLatch_bad (hpend : s.isPending 4 = true) (hidle : arraysBusy s s.cyc = false) (hbad : bindOk s = false) :
    exec .rfxBindLatch s = finish s (((s.dropPending 4).setOn RFX_CTRL_CFGERR).setOn RFX_EVT_CFGERR) := by
  show execRfxBindLatch s = _
  rw [execRfxBindLatch, hidle, if_neg Bool.false_ne_true, bindLatch, hpend, hbad]
  rfl

theorem bind_settles {g : Nat} (hg : g < 8) : RFX_BIND g ≠ DGN_CNT_MERGE ∧ RFX_BIND g ≠ DGN_EVT :=
  segment_settles (by unfold RFX_BIND DGN_EPOCH; omega)

theorem completes_rfxBindLatch (hon : s.powered) (hpend : s.isPending 4 = true) (hidle : arraysBusy s s.cyc = false)
    (hok : bindOk s = true) : Completes .rfxBindLatch s fun t => t.isPending 4 = false ∧ t.on RFX_CTRL_CFGERR = false ∧
      (∀ g, g < 8 → t.get (RFX_BIND_EN g) = s.pendGet 4 (RFX_BIND_EN g) ∧ t.get (RFX_BIND_CMP g) = s.pendGet 4 (RFX_BIND_CMP g) ∧
        t.get (RFX_BIND_PROG g) = s.pendGet 4 (RFX_BIND_PROG g)) ∧ ChangesOnly (RFX_CTRL :: each 8 RFX_BIND) [.held] s t := by
  have hexec := exec_rfxBindLatch_good hpend hidle hok
  obtain ⟨p, hp⟩ := Option.isSome_iff_exists.mp hpend
  have hmem (g : Nat) (hg : g < 8) : (RFX_BIND g, 0x9F0F) ∈ keyRegs 4 := by
    rw [keyRegs_rfx]
    exact List.mem_map_of_mem (List.mem_range.mpr hg)
  have hlatch : Effect (RFX_CTRL :: each 8 RFX_BIND) [.held] s (s.latch 4) := by
    refine (Effect.refl s).latch (fun r hr => ?_) (by decide)
    rw [keyRegs_rfx] at hr
    obtain ⟨g, hg, rfl⟩ := List.mem_map.mp hr
    exact List.mem_cons_of_mem _ (mem_each (List.mem_range.mp hg))
  have hdone := isPending_latch s 4
  have hen (g : Nat) (hg : g < 8) := get_latch_pending (f := RFX_BIND_EN g) hp (hmem g hg) nodup_keyRegs_rfx (by decide)
    (show 15 < 64 by decide) (show bitsOf 0x9F0F 15 15 = 2 ^ (15 + 1 - 15) - 1 by decide)
  have hcmp (g : Nat) (hg : g < 8) := get_latch_pending (f := RFX_BIND_CMP g) hp (hmem g hg) nodup_keyRegs_rfx (by decide)
    (show 12 < 64 by decide) (show bitsOf 0x9F0F 12 8 = 2 ^ (12 + 1 - 8) - 1 by decide)
  have hprog (g : Nat) (hg : g < 8) := get_latch_pending (f := RFX_BIND_PROG g) hp (hmem g hg) nodup_keyRegs_rfx (by decide)
    (show 3 < 64 by decide) (show bitsOf 0x9F0F 3 0 = 2 ^ (3 + 1 - 0) - 1 by decide)
  generalize s.latch 4 = u at hexec hlatch hdone hen hcmp hprog
  have hread {t : State} (hs : Settled s.fuses s (u.setOff RFX_CTRL_CFGERR) t) {g : Nat} (hg : g < 8) (f : Fld) (hf : f.addr = RFX_BIND g) :
      t.get f = u.get f := by
    obtain ⟨h1, h2⟩ := bind_settles hg
    have hne : f.addr ≠ RFX_CTRL := by
      rw [hf]
      unfold RFX_BIND RFX_CTRL
      omega
    rw [hs.get f (hf ▸ h1) (hf ▸ h2), State.get_setOff_apart (.inl hne)]
  refine completes_of_settled hexec hon fun t hs => ⟨?_, ?_, fun g hg => ⟨(hread hs hg _ rfl).trans (hen g hg),
    (hread hs hg _ rfl).trans (hcmp g hg), (hread hs hg _ rfl).trans (hprog g hg)⟩, hs.changesOnly (hlatch.setOff List.mem_cons_self)⟩
  · rw [hs.isPending]
    exact hdone
  · rw [hs.on _ (by decide) (by decide)]
    exact State.on_put_ofBool (f := RFX_CTRL_CFGERR) (by decide) false

theorem completes_rfxBindLatch_bad (hon : s.powered) (hpend : s.isPending 4 = true) (hidle : arraysBusy s s.cyc = false)
    (hbad : bindOk s = false) : Completes .rfxBindLatch s fun t => t.isPending 4 = false ∧ t.on RFX_CTRL_CFGERR = true ∧
      t.on RFX_EVT_CFGERR = true ∧ ChangesOnly [RFX_CTRL, RFX_EVT] [.held] s t := by
  have hdrop : Effect [RFX_CTRL, RFX_EVT] [.held] s (s.dropPending 4) := (Effect.refl s).pendSets _ (by decide)
  have hgone : (s.dropPending 4).isPending 4 = false := congrArg Option.isSome (tget_tdel_same _ 4)
  have hexec := exec_rfxBindLatch_bad hpend hidle hbad
  generalize s.dropPending 4 = u at hexec hdrop hgone
  refine completes_of_settled hexec hon fun t hs => ⟨?_, ?_, ?_, hs.changesOnly ((hdrop.setOn (by decide)).setOn (by decide))⟩
  · rw [hs.isPending]
    exact hgone
  · rw [hs.on _ (by decide) (by decide), State.on_congr (State.get_setOn_apart (by decide))]
    exact State.on_setOn _ RFX_CTRL_CFGERR rfl (by decide)
  · rw [hs.on _ (by decide) (by decide)]
    exact State.on_setOn _ RFX_EVT_CFGERR rfl (by decide)

end

/-- Settles O36: releases, results and bindings, each by what its command stores of the arrays. -/
theorem reflexEvaluationsResultsAndBindings : Obligations.ReflexEvaluationsResultsAndBindings := by
  refine ⟨fun s c absent codes v rest hon hconvs hdue hc hreal habs hlen => ⟨fun g prog hen hgroups hfree hvalid hpresent =>
      completes_reflexRelease hon hconvs hdue hc hreal habs hlen hen hgroups hfree hvalid hpresent,
      fun g prog hen hgroups hocc => completes_reflexRelease_busy hon hconvs hdue hc hreal habs hen hgroups hocc,
      fun hnone => completes_sampleHistoryPush hon hconvs hdue hc hreal habs hlen hnone⟩,
    fun s hon => ⟨fun e hone hocc hdue hlane => completes_reflexOutput hon hone hocc hdue hlane,
      fun e ws hone hg hdue hlane hbank _ _ => completes_reflexLatch hon hone hg hdue hlane hbank ws,
      fun who v ok hen => completes_rfxCommit hon ok hen,
      fun hpend hidle => ⟨completes_rfxBindLatch hon hpend hidle, completes_rfxBindLatch_bad hon hpend hidle⟩,
      fun hocc => completes_of_settled (exec_rfxBindLatch_busy hocc) hon fun t hs => hs.changesOnly (Effect.refl s)⟩⟩

end Sys2Proof.Machine
end
section
/-! Boundaries of loop groups: what their firing leaves of a loop's inputs, and what the law makes of them (R396 to R409). -/

namespace Sys2Proof.Machine

open Sys2Proof Sys2Proof.Machine.Reg

/-! ### What an evaluation reads -/

/-- Two states agree in what an evaluation of group `g` reads. -/
structure LoopSame (g : Nat) (s t : State) : Prop where
  rd : ∀ a, 0x100008000000 ≤ a → a ≠ BLV_CLE_GRP_STAT g → a ≠ RFX_GRP_STAT g → a ≠ RFX_EVT → t.rd a = s.rd a
  loops : ∀ m, loopOf t m = loopOf s m
  cyc : t.cyc = s.cyc
  hist : t.rfx.hist = s.rfx.hist

/-- A register of the control engine's loops. -/
structure LoopReg (g a : Nat) : Prop where
  low : 0x100008000000 ≤ a
  status : a ≠ BLV_CLE_GRP_STAT g
  result : a ≠ RFX_GRP_STAT g
  event : a ≠ RFX_EVT

theorem loopReg_of_ge {g a : Nat} (hg : g < 8) (h : 0x100008100060 ≤ a) (hr : a < 0x100008200000 ∨ 0x100008201000 ≤ a) : LoopReg g a := by
  constructor
  · omega
  · unfold BLV_CLE_GRP_STAT
    omega
  · unfold RFX_GRP_STAT
    omega
  · unfold RFX_EVT
    omega

/-- A register of a loop's own block. -/
theorem loopReg_own {g m a : Nat} (hg : g < 8) (hm : m < 256) (h : 0x100008101000 + m * 0x100 ≤ a ∧ a < 0x100008101100 + m * 0x100) :
    LoopReg g a := loopReg_of_ge hg (by omega) (.inl (by omega))

theorem loopReg_ctrl {g : Nat} (hg : g < 8) : LoopReg g BLV_CLE_CTRL ∧ LoopReg g RFX_DUAL_EN := by
  refine ⟨⟨by decide, ?_, ?_, by decide⟩, ⟨by decide, ?_, ?_, by decide⟩⟩ <;>
    simp only [BLV_CLE_CTRL, RFX_DUAL_EN, BLV_CLE_GRP_STAT, RFX_GRP_STAT] <;> omega

namespace LoopSame

variable {g : Nat} {s t u : State}

theorem trans (h : LoopSame g s t) (k : LoopSame g t u) : LoopSame g s u :=
  ⟨fun a h1 h2 h3 h4 => (k.rd a h1 h2 h3 h4).trans (h.rd a h1 h2 h3 h4), fun m => (k.loops m).trans (h.loops m), k.cyc.trans h.cyc,
    k.hist.trans h.hist⟩

theorem get (h : LoopSame g s t) {f : Fld} (hf : LoopReg g f.addr) : t.get f = s.get f := by
  rw [State.get, State.get, h.rd _ hf.low hf.status hf.result hf.event]

theorem on (h : LoopSame g s t) {f : Fld} (hf : LoopReg g f.addr) : t.on f = s.on f := State.on_congr (h.get hf)

theorem of_effect {regs : List Nat} {parts : List Part} (h : Effect regs parts s t)
    (hr : ∀ a ∈ regs, a < 0x100008000000 ∨ a = BLV_CLE_GRP_STAT g ∨ a = RFX_GRP_STAT g ∨ a = RFX_EVT)
    (hl : ∀ m, loopOf t m = loopOf s m) (hp : Part.time ∉ parts) (hh : t.rfx.hist = s.rfx.hist) : LoopSame g s t where
  rd a h1 h2 h3 h4 := h.rd a fun hm => by
    rcases hr a hm with h | h | h | h
    · omega
    · exact h2 h
    · exact h3 h
    · exact h4 h
  loops := hl
  cyc := (h.keeps .time hp).1
  hist := hh

section

variable (hg : g < 8) (h : LoopSame g s t)
include hg h

theorem ctl {m : Nat} (hm : m < 64) {f : Fld} (hf : f.addr = BLV_CLE_L_CTL m) : t.get f = s.get f :=
  h.get (loopReg_own hg (m := m) (by omega) (by rw [hf]; unfold BLV_CLE_L_CTL; omega))

theorem loopGroup {m : Nat} (hm : m < 64) : Machine.loopGroup t m = Machine.loopGroup s m := h.ctl hg hm rfl

theorem loopBank (m : Nat) : Machine.loopBank t m = Machine.loopBank s m := by
  rw [Machine.loopBank, Machine.loopBank, h.get (loopReg_of_ge hg (by decide) (.inr (by decide)))]

theorem coef {m : Nat} (hm : m < 64) (k : Nat) (hk : k < 16) : Machine.coef t m k = Machine.coef s m k := by
  have hbank : Machine.loopBank s m ≤ 1 := by
    unfold Machine.loopBank ofBool
    split <;> decide
  rw [Machine.coef, Machine.coef, bankWord, bankWord, h.loopBank hg, h.get (f := BLV_CLE_L_BK_VALUE m (Machine.loopBank s m) k)
    (loopReg_own hg (m := m) (by omega) (by simp only [BLV_CLE_L_BK_VALUE, BLV_CLE_L_BK]; omega))]

omit hg in
theorem effCyc : t.effCyc = s.effCyc := by rw [State.effCyc, State.effCyc, h.cyc]

theorem outBefore {m : Nat} (hm : m < 256) (eff : Nat) : Machine.outBefore t m eff = Machine.outBefore s m eff := by
  rw [Machine.outBefore, Machine.outBefore, h.loops, h.get (f := BLV_CLE_L_OUT_VALUE m)
    (loopReg_own hg hm (by simp only [BLV_CLE_L_OUT_VALUE, BLV_CLE_L_OUT]; omega))]

theorem sourceValue (code : Nat) {own : Fld} (hown : LoopReg g own.addr) : Machine.sourceValue t g code own = Machine.sourceValue s g code own := by
  have hidx : code % 256 < 256 := Nat.mod_lt _ (by decide)
  have hres : t.get (RFX_RES_VALUE g (code % 256)) = s.get (RFX_RES_VALUE g (code % 256)) :=
    h.get (f := RFX_RES_VALUE g (code % 256)) (loopReg_of_ge hg (by simp only [RFX_RES_VALUE, RFX_RES]; omega)
      (.inr (by simp only [RFX_RES_VALUE, RFX_RES]; omega)))
  have hin : t.get (FLD_ECM_IN_VALUE (code % 256)) = s.get (FLD_ECM_IN_VALUE (code % 256)) :=
    h.get (f := FLD_ECM_IN_VALUE (code % 256)) (loopReg_of_ge hg (by simp only [FLD_ECM_IN_VALUE, FLD_ECM_IN]; omega)
      (.inr (by simp only [FLD_ECM_IN_VALUE, FLD_ECM_IN]; omega)))
  rw [Machine.sourceValue, Machine.sourceValue, h.get hown, hres, hin, h.outBefore hg hidx, h.effCyc, histAt, histAt, h.hist]

theorem loopSnapshot {n : Nat} (hn : n < 64) : Machine.loopSnapshot t g n = Machine.loopSnapshot s g n := by
  have hsrc {f : Fld} (hf : f.addr = BLV_CLE_L_SRC n) : t.get f = s.get f :=
    h.get (loopReg_own hg (m := n) (by omega) (by rw [hf]; unfold BLV_CLE_L_SRC; omega))
  have hown {a : Nat} (ha : 0x100008101000 + n * 0x100 ≤ a ∧ a < 0x100008101100 + n * 0x100) : LoopReg g a :=
    loopReg_own hg (m := n) (by omega) ha
  have hrin : LoopReg g (BLV_CLE_L_RIN n) := hown (by unfold BLV_CLE_L_RIN; omega)
  have hyin : LoopReg g (BLV_CLE_L_YIN n) := hown (by unfold BLV_CLE_L_YIN; omega)
  have hffin : LoopReg g (BLV_CLE_L_FFIN n) := hown (by unfold BLV_CLE_L_FFIN; omega)
  rw [Machine.loopSnapshot, Machine.loopSnapshot, hsrc (f := BLV_CLE_L_SRC_R n) rfl, hsrc (f := BLV_CLE_L_SRC_Y n) rfl,
    hsrc (f := BLV_CLE_L_SRC_FF n) rfl, hsrc (f := BLV_CLE_L_SRC_PM n) rfl, h.sourceValue hg _ (own := BLV_CLE_L_RIN_VALUE n) hrin,
    h.sourceValue hg _ (own := BLV_CLE_L_YIN_VALUE n) hyin, h.sourceValue hg _ (own := BLV_CLE_L_FFIN_VALUE n) hffin,
    h.sourceValue hg _ (own := BLV_CLE_L_YIN_VALUE n) hyin]

end

end LoopSame

section

variable {g n c : Nat} {s t : State}

/-- A loop whose rounds leave the state. -/
theorem forUpTo_fixed {σ : Type} {f : Nat → σ → σ} {x : σ} {k : Nat} (h : ∀ i, i < k → f i x = x) : forUpTo k f x = x := by
  induction k with
  | zero => rfl
  | succ k ih => rw [forUpTo_succ, ih fun i hi => h i (by omega), h k (by omega)]

/-! ### The loop alone in its group -/

/-- Loop `n` runs in group `g`, goes on, and is the only one there. -/
structure LoopAlone (s : State) (g n : Nat) : Prop where
  runs : (loopOf s n).run = true
  on : s.on (BLV_CLE_L_CTL_ENABLE n) = true
  own : (loopOf s n).grp = g
  place : loopGroup s n = g
  others : ∀ m, m < 64 → m ≠ n → (loopOf s m).run = false ∧ (s.on (BLV_CLE_L_CTL_ENABLE m) = true → loopGroup s m ≠ g)
  resume : (loopOf s n).resume = false
  again : (loopOf s n).again = false

theorem LoopAlone.of_boundary (h : AloneAtBoundary s c g n) : LoopAlone s g n :=
  ⟨h.runs, h.on, h.own, h.place, h.others, h.resume, h.again⟩

theorem LoopAlone.same (h : LoopAlone s g n) (hg : g < 8) (hn : n < 64) (k : LoopSame g s t) : LoopAlone t g n where
  runs := by rw [k.loops]; exact h.runs
  on := (State.on_congr (k.ctl hg hn rfl)).trans h.on
  own := by rw [k.loops]; exact h.own
  place := by rw [k.loopGroup hg hn]; exact h.place
  others m hm hne := by
    rw [k.loops, k.loopGroup hg hm, State.on_congr (k.ctl hg hm rfl)]
    exact h.others m hm hne
  resume := by rw [k.loops]; exact h.resume
  again := by rw [k.loops]; exact h.again

theorem loopTurn_other (h : LoopAlone s g n) {m : Nat} (hm : m < 64) (hne : m ≠ n) : loopTurn s g m = s := by
  obtain ⟨hrun, hgroup⟩ := h.others m hm hne
  have hhere : (s.on (BLV_CLE_L_CTL_ENABLE m) && loopGroup s m == g) = false := by
    rw [Bool.and_eq_false_iff]
    cases hen : s.on (BLV_CLE_L_CTL_ENABLE m)
    · exact .inl rfl
    · exact .inr (beq_eq_false_iff_ne.mpr (hgroup hen))
  unfold loopTurn
  simp only [hrun, hhere, Bool.false_and, Bool.false_eq_true, if_false]

theorem loopTurn_own (h : LoopAlone s g n) : loopTurn s g n = s.setLoop n (loopOf s n) := by
  have hhere : (s.on (BLV_CLE_L_CTL_ENABLE n) && loopGroup s n == g) = true := by rw [h.on, h.place, beq_self_eq_true]; rfl
  have hgrp : ((loopOf s n).grp == g) = true := by rw [h.own, beq_self_eq_true]
  unfold loopTurn
  simp only [h.runs, hgrp, hhere, h.again, Bool.and_self, Bool.not_true, Bool.not_false, Bool.and_false, Bool.false_eq_true,
    if_false, if_true, h.resume]

/-- A loop put back as it was. -/
theorem loopOf_setLoop_self (m : Nat) : loopOf (s.setLoop n (loopOf s n)) m = loopOf s m := by
  by_cases h : m = n
  · rw [h]
    exact tgetD_tset_same ..
  · exact tgetD_tset_ne _ _ _ _ _ h

theorem Effect.setLoop {regs : List Nat} {parts : List Part} (h : Effect regs parts s t) (hp : Part.loops ∈ parts) (n : Nat) (l : LoopSt) :
    Effect regs parts s (t.setLoop n l) :=
  h.components rfl fun p hq => by
    cases p
    case loops => exact absurd hp hq
    all_goals simp [Keeps, State.setLoop]

theorem same_setLoop_self : LoopSame g s (s.setLoop n (loopOf s n)) :=
  LoopSame.of_effect ((Effect.refl (regs := []) (parts := [.loops]) s).setLoop List.mem_cons_self n _) (fun _ h => absurd h List.not_mem_nil)
    (loopOf_setLoop_self) (by decide) rfl

theorem forUpTo_loopTurn (h : LoopAlone s g n) (hg : g < 8) (hn : n < 64) (k : Nat) (hk : k ≤ 64) :
    forUpTo k (fun m s => loopTurn s g m) s = if n < k then s.setLoop n (loopOf s n) else s := by
  induction k with
  | zero => rfl
  | succ k ih =>
    rw [forUpTo_succ, ih (by omega)]
    rcases Nat.lt_trichotomy n k with hlt | rfl | hgt
    · rw [if_pos hlt, if_pos (by omega), loopTurn_other (h.same hg hn same_setLoop_self) (by omega) (by omega)]
    · rw [if_neg (by omega), if_pos (by omega), loopTurn_own h]
    · rw [if_neg (by omega), if_neg (by omega), loopTurn_other h (by omega) (by omega)]

theorem eq_singleton_of_nodup {l : List Nat} (h : l.Nodup) (hm : ∀ x, x ∈ l ↔ x = n) : l = [n] :=
  List.perm_singleton.mp ((List.perm_ext_iff_of_nodup h (List.nodup_singleton n)).mpr fun x => by rw [hm, List.mem_singleton])

theorem runningLoops_alone (h : LoopAlone s g n) (hn : n < 64) : runningLoops s g = [n] := by
  refine eq_singleton_of_nodup (List.nodup_range.filter _) fun x => ?_
  rw [runningLoops, List.mem_filter, List.mem_range, Bool.and_eq_true, beq_iff_eq]
  constructor
  · rintro ⟨hx, hrun, -⟩
    by_contra hne
    exact absurd hrun (by rw [(h.others x hx hne).1]; decide)
  · rintro rfl
    exact ⟨hn, h.runs, h.own⟩

/-! ### A boundary's preparation (R396, R397) -/

/-- The boundary is taken and counted. -/
def boundaryCounted (s : State) (g : Nat) : State :=
  ({ s with grpLast := tset s.grpLast g s.cyc }).countWrap (BLV_CLE_GRP_STAT_BNDRY g) 1

theorem Effect.grpLast {regs : List Nat} {parts : List Part} (h : Effect regs parts s t) (x : Tbl Nat) (hp : Part.loops ∈ parts) :
    Effect regs parts s { t with grpLast := x } :=
  h.components rfl fun p hq => by
    cases p
    case loops => exact absurd hp hq
    all_goals simp [Keeps]

theorem Effect.destSeen {regs : List Nat} {parts : List Part} (h : Effect regs parts s t) (x : Tbl Nat) (hp : Part.loops ∈ parts) :
    Effect regs parts s { t with destSeen := x } :=
  h.components rfl fun p hq => by
    cases p
    case loops => exact absurd hp hq
    all_goals simp [Keeps]

theorem effect_boundaryCounted : Effect [BLV_CLE_GRP_STAT g] [.loops] s (boundaryCounted s g) :=
  ((Effect.refl s).grpLast _ (by decide)).countWrap 1 (by simp [BLV_CLE_GRP_STAT_BNDRY])

theorem get_boundaryCounted : (boundaryCounted s g).get (BLV_CLE_GRP_STAT_BNDRY g) = (s.get (BLV_CLE_GRP_STAT_BNDRY g) + 1) % 2 ^ 32 :=
  State.get_countWrap (f := BLV_CLE_GRP_STAT_BNDRY g) (show 32 ≤ 63 ∧ 63 < 64 by decide) 1

theorem loops_boundaryCounted : (boundaryCounted s g).loops = s.loops ∧ (boundaryCounted s g).rfx = s.rfx ∧
    tget (boundaryCounted s g).grpLast g = some s.cyc := ⟨rfl, rfl, tget_tset_same ..⟩

/-- The evaluation that a boundary finds, or its absence, is shown. -/
theorem noEval_cases (hevals : ∀ e ∈ s.rfx.evals, evalDue s g e = false) :
    Effect [RFX_GRP_STAT g, RFX_EVT] [.rfx] s (noEval s g) ∧ (noEval s g).rfx.hist = s.rfx.hist := by
  have hnone : latchDue s g = s := by
    rw [latchDue, List.filter_eq_nil_iff.mpr fun e he => by rw [hevals e he]; decide]
    rfl
  unfold noEval
  rw [hnone]
  simp only
  split
  · exact ⟨(Effect.refl s).setRfx _ (by decide), rfl⟩
  · exact ⟨((((Effect.refl s).setRfx _ (by decide)).put _ (by simp [RFX_GRP_STAT_FLAGS])).put _ (by simp [RFX_GRP_STAT_ABSMASK])).setOn
      (by simp [RFX_EVT_NOEVAL]), rfl⟩

theorem ecmBoundary_of_apart (h : ∀ sg, sg < 4 → s.on (FLD_ECM_CTL_ENABLE sg) = true → s.get (FLD_ECM_CTL_GRP sg) ≠ g) :
    ecmBoundary s g = s := by
  unfold ecmBoundary
  refine forUpTo_fixed fun sg hsg => if_neg fun hb => h sg hsg hb.1 hb.2

theorem boundaryLanes_of_idle (h : ∀ l, l < 9 → laneSt s l = 0) (eff bnd : Nat) : boundaryLanes s g eff bnd = s := by
  unfold boundaryLanes
  refine forUpTo_fixed fun l hl => ?_
  simp only [h l hl]
  split <;> rfl

/-- The boundary with its loop about to be evaluated. -/
def boundaryEntered (s : State) (g n : Nat) : State :=
  ((s.setLoop n (loopOf s n)).put (BLV_CLE_GRP_STAT_NLOOP g) 1).count BLV_SRAM_CE_VALUE 0

theorem effect_boundaryEntered : Effect [BLV_CLE_GRP_STAT g] [.loops] s (boundaryEntered s g n) :=
  ((((Effect.refl s).setLoop List.mem_cons_self n _).put _ (by simp [BLV_CLE_GRP_STAT_NLOOP])).trans (effect_count_zero _ (by decide)))

theorem same_boundaryEntered : LoopSame g s (boundaryEntered s g n) :=
  LoopSame.of_effect effect_boundaryEntered (fun _ ha => .inr (.inl (List.mem_singleton.mp ha))) (loopOf_setLoop_self) (by decide) rfl

theorem get_boundaryEntered : (boundaryEntered s g n).get (BLV_CLE_GRP_STAT_NLOOP g) = 1 ∧
    (boundaryEntered s g n).get (BLV_CLE_GRP_STAT_BNDRY g) = s.get (BLV_CLE_GRP_STAT_BNDRY g) ∧
    (boundaryEntered s g n).grpLast = s.grpLast := by
  have hzero : Effect [] [] ((s.setLoop n (loopOf s n)).put (BLV_CLE_GRP_STAT_NLOOP g) 1) (boundaryEntered s g n) :=
    effect_count_zero _ (by decide)
  refine ⟨?_, ?_, rfl⟩
  · rw [hzero.get List.not_mem_nil]
    exact State.get_put_of_lt (f := BLV_CLE_GRP_STAT_NLOOP g) (show 0 ≤ 6 ∧ 6 < 64 by decide) (show 1 < 2 ^ 7 by decide)
  · rw [hzero.get List.not_mem_nil, State.get_put_apart (f := BLV_CLE_GRP_STAT_NLOOP g) (g := BLV_CLE_GRP_STAT_BNDRY g)
      (.inr (show 0 ≤ 6 ∧ 6 < 64 ∧ (63 < 0 ∨ 6 < 32) by decide))]
    rfl

theorem evaluateGroup_alone (h : LoopAlone s g n) (hg : g < 8) (hn : n < 64) (hlanes : ∀ l, l < 9 → laneSt s l = 0) (eff bnd : Nat) :
    evaluateGroup s g eff bnd 0 = evalLoop (boundaryEntered s g n) eff bnd n 0 (loopSnapshot s g n) false := by
  have hturned : LoopSame g s (s.setLoop n (loopOf s n)) := same_setLoop_self
  have hput : LoopSame g s ((s.setLoop n (loopOf s n)).put (BLV_CLE_GRP_STAT_NLOOP g) 1) :=
    LoopSame.of_effect (((Effect.refl (regs := [BLV_CLE_GRP_STAT g]) (parts := [.loops]) s).setLoop List.mem_cons_self n _).put _
      (by simp [BLV_CLE_GRP_STAT_NLOOP])) (fun _ ha => .inr (.inl (List.mem_singleton.mp ha))) (loopOf_setLoop_self) (by decide) rfl
  unfold evaluateGroup
  rw [boundaryLanes_of_idle hlanes]
  simp only
  rw [forUpTo_loopTurn h hg hn 64 (by decide), if_pos hn, runningLoops_alone (h.same hg hn hturned) hn, if_neg (by simp)]
  rw [← hput.loopSnapshot hg hn]
  simp only [List.map_cons, List.map_nil, List.zipIdx_cons, List.zipIdx_nil, List.foldl_cons, List.foldl_nil, Nat.zero_testBit]
  rfl

theorem outputsDue_alone (h : LoopAlone s g n) (hn : n < 64) (hout : (loopOf s n).out = none) : outputsDue s g = s := by
  rw [outputsDue, runningLoops_alone h hn, List.foldl_cons, List.foldl_nil, hout]

/-- The boundary counted, and its group's evaluation looked for. -/
def boundaryTaken (s : State) (g : Nat) : State := noEval (boundaryCounted s g) g

theorem effect_boundaryTaken (hevals : ∀ e ∈ s.rfx.evals, evalDue s g e = false) :
    Effect [BLV_CLE_GRP_STAT g, RFX_GRP_STAT g, RFX_EVT] [.loops, .rfx] s (boundaryTaken s g) ∧
      LoopSame g s (boundaryTaken s g) ∧ (boundaryTaken s g).grpLast = (boundaryCounted s g).grpLast := by
  obtain ⟨hnoEval, hhist⟩ := noEval_cases (s := boundaryCounted s g) (g := g) hevals
  have heff : Effect [BLV_CLE_GRP_STAT g, RFX_GRP_STAT g, RFX_EVT] [.loops, .rfx] s (boundaryTaken s g) :=
    (effect_boundaryCounted.mono (by simp) (by simp)).trans (hnoEval.mono (by simp) (by simp))
  obtain ⟨hloops, hlast, -⟩ := hnoEval.keeps .loops (by decide)
  refine ⟨heff, LoopSame.of_effect heff (fun a ha => ?_) (fun m => ?_) (by decide) hhist, hlast⟩
  · simp only [List.mem_cons, List.not_mem_nil, or_false] at ha
    exact .inr ha
  · rw [loopOf, boundaryTaken, hloops]
    rfl

/-- A boundary within 15,600 cycles of the last. -/
def boundarySoon (s : State) (g : Nat) : Bool :=
  match tget s.grpLast g with
  | some t => s.cyc < t + 15600
  | none => false

/-- The engine's part of a boundary. -/
def groupEvaluated (s : State) (g ecc : Nat) : State :=
  if s.on BLV_CLE_CTRL_ENABLE then evaluateGroup (outputsDue s g) g s.effCyc s.tnsTsec ecc else s

theorem groupBoundary_eq (ecc : Nat) : groupBoundary s g ecc =
    if boundarySoon s g then (s.count (BLV_CLE_GRP_STAT_OVR g) 1).setOn BLV_CLE_EVT_OVR
    else groupEvaluated (noEval (ecmBoundary (boundaryCounted s g) g) g) g ecc := by
  unfold groupBoundary boundarySoon
  cases tget s.grpLast g <;> rfl

theorem groupBoundary_alone (h : LoopAlone s g n) (hg : g < 8) (hn : n < 64) (hspaced : ∀ t, tget s.grpLast g = some t → t + 15600 ≤ s.cyc)
    (hengine : s.on BLV_CLE_CTRL_ENABLE = true) (hlanes : ∀ l, l < 9 → laneSt s l = 0)
    (hsegs : ∀ sg, sg < 4 → s.on (FLD_ECM_CTL_ENABLE sg) = true → s.get (FLD_ECM_CTL_GRP sg) ≠ g)
    (hout : (loopOf s n).out = none) (hevals : ∀ e ∈ s.rfx.evals, evalDue s g e = false) :
    ∃ bnd, groupBoundary s g 0 = evalLoop (boundaryEntered (boundaryTaken s g) g n) s.effCyc bnd n 0 (loopSnapshot s g n) false := by
  obtain ⟨heff, hsame, -⟩ := effect_boundaryTaken hevals
  have hsoon : boundarySoon s g = false := by
    unfold boundarySoon
    cases ht : tget s.grpLast g with
    | none => rfl
    | some t => exact decide_eq_false (by have := hspaced t ht; omega)
  have hcounted : ecmBoundary (boundaryCounted s g) g = boundaryCounted s g := by
    refine ecmBoundary_of_apart fun sg hsg hon => ?_
    have hapart : FLD_ECM_CTL sg ∉ [BLV_CLE_GRP_STAT g] := by
      simp only [List.mem_singleton, FLD_ECM_CTL, BLV_CLE_GRP_STAT]
      omega
    have hctl : (boundaryCounted s g).get (FLD_ECM_CTL_GRP sg) = s.get (FLD_ECM_CTL_GRP sg) := effect_boundaryCounted.get hapart
    have hon' : (boundaryCounted s g).on (FLD_ECM_CTL_ENABLE sg) = s.on (FLD_ECM_CTL_ENABLE sg) := effect_boundaryCounted.on hapart
    rw [hctl]
    exact hsegs sg hsg (hon' ▸ hon)
  have hrun : (boundaryTaken s g).on BLV_CLE_CTRL_ENABLE = true := (hsame.on (loopReg_ctrl hg).1).trans hengine
  have halone := h.same hg hn hsame
  refine ⟨(boundaryTaken s g).tnsTsec, ?_⟩
  rw [groupBoundary_eq, hsoon, if_neg Bool.false_ne_true, hcounted]
  show groupEvaluated (boundaryTaken s g) g 0 = _
  unfold groupEvaluated
  rw [if_pos hrun, outputsDue_alone halone hn (by rw [hsame.loops]; exact hout),
    evaluateGroup_alone halone hg hn (fun l hl => ?_), hsame.loopSnapshot hg hn, hsame.effCyc]
  rw [laneSt, hsame.get (f := SLC_L_STAT_STATE l) (loopReg_of_ge hg (by simp only [SLC_L_STAT_STATE, SLC_L_STAT]; omega)
    (.inr (by simp only [SLC_L_STAT_STATE, SLC_L_STAT]; omega)))]
  exact hlanes l hl

/-! ### The evaluation of a loop (R401, R406, R407) -/

/-- NANS, ISAT and USAT of an evaluation. -/
def lawShown (s : State) (n : Nat) (o : LawOut) (nans : Bool) : State :=
  onIf o.usat (·.setOn (BLV_CLE_L_STAT_USAT n)) (onIf o.isat (·.setOn (BLV_CLE_L_STAT_ISAT n))
    (onIf nans (fun s => ((s.setOn (BLV_CLE_L_STAT_NANS n)).count BLV_CLE_CNT_NANS_VALUE 1).setOn BLV_CLE_EVT_NANS) s))

/-- BAD and ACTING of an evaluation. -/
def badShown (s : State) (n bad : Nat) (acting : Bool) : State :=
  (s.put (BLV_CLE_L_STAT_BAD n) bad).put (BLV_CLE_L_STAT_ACTING n) (ofBool acting)

/-- The output of an evaluation, waiting for its cycle. -/
def outputWaiting (s : State) (eff bnd n p : Nat) (v : LoopInputs) (ulgOld out yhat : Word32) : LoopOut :=
  { due := eff + (if (s.get RFX_DUAL_EN_MASK).testBit n then 76 else 60) + 8 * p, value := out, ulgOld := ulgOld, r := v.r, y := v.y
    f := v.f, yhat := yhat, bnd := bnd, dual := (s.get RFX_DUAL_EN_MASK).testBit n }

/-- The loop's state with its output. -/
def loopStored (s : State) (n : Nat) (l : LoopSt) (w : LoopOut) : State :=
  { s.setLoop n { l with out := some w } with free := s.free + 1 }

/-- PLAUS is entered with the loop's action (R407). -/
def actionTaken (s : State) (n : Nat) (acts : Bool) (l : LoopSt) : State × LoopSt :=
  if acts then (enterPlaus s n 0, if s.get (BLV_CLE_L_CTL_ACTION n) = 3 then l else { l with act := some (s.get (BLV_CLE_L_CTL_ACTION n)) })
  else (s, l)

/-- A sample enters PLAUS. -/
def sampleActs (s : State) (n : Nat) (good : Bool) (bad : Nat) : Bool :=
  !good && max 1 (s.get (BLV_CLE_L_CTL_PLAUSN n)) ≤ bad && !s.on (BLV_CLE_L_STAT_PLAUS n)

/-- What an evaluation shows and stores, its output computed. -/
def outputStored (s : State) (eff bnd n p : Nat) (v : LoopInputs) (o : LawOut) (nans : Bool) (ulgOld yhat : Word32) (r : Word32 × LoopSt) : State :=
  loopStored (badShown (lawShown s n o nans) n r.2.bad r.2.act.isSome) n r.2
    (outputWaiting (badShown (lawShown s n o nans) n r.2.bad r.2.act.isSome) eff bnd n p v ulgOld r.1 yhat)

/-- What an evaluation stores after its action. -/
def actionStored (c : Nat → Word32) (eff bnd n p : Nat) (v : LoopInputs) (o : LawOut) (good : Bool) (ulgOld yhat : Word32)
    (q : State × LoopSt) : State :=
  outputStored q.1 eff bnd n p v o (o.nan && q.2.act.isNone) ulgOld yhat (lawOutput c q.2 v o good)

/-- What an evaluation stores after its check. -/
def checkStored (c : Nat → Word32) (s : State) (eff bnd n p : Nat) (v : LoopInputs) (o : LawOut) (ulgOld yhat : Word32)
    (j : Bool × LoopSt) : State :=
  actionStored c eff bnd n p v o j.1 ulgOld yhat (actionTaken s n (sampleActs s n j.1 j.2.bad) j.2)

/-- The prediction that a report shows. -/
def shownPrediction (c : Nat → Word32) (s : State) (n : Nat) (v : LoopInputs) (l : LoopSt) : Word32 :=
  if s.get (BLV_CLE_L_CTL_MODEL n) = 0 then BitVec.truncate 32 (Config.freeWord s.free) else prediction c (s.get (BLV_CLE_L_CTL_MODEL n)) l v.pm

/-- What an evaluation stores after its law. -/
def lawStored (c : Nat → Word32) (s : State) (eff bnd n p : Nat) (v : LoopInputs) (ulgOld : Word32) (l : LoopSt) (o : LawOut) : State :=
  checkStored c s eff bnd n p v o ulgOld (shownPrediction c s n v l) (plausCheck c (s.get (BLV_CLE_L_CTL_MODEL n)) l v o.nan)

/-- The law of a loop in a state. -/
def lawIn (c : Nat → Word32) (s : State) (n : Nat) (v : LoopInputs) (l : LoopSt) : LawOut :=
  controlLaw c (s.on (BLV_CLE_L_CTL_DERR n)) (s.on (BLV_CLE_L_CTL_AWHOLD n)) l v

/-- An evaluation from its law on. -/
def evalFrom (c : Nat → Word32) (eff bnd n p : Nat) (v : LoopInputs) (q : State × LoopSt) : State :=
  lawStored c q.1 eff bnd n p v q.2.ulg
    (q.2.start (derivInput (q.1.on (BLV_CLE_L_CTL_DERR n)) (flAdd v.r (flNeg v.y)) v.y))
    (lawIn c q.1 n v (q.2.start (derivInput (q.1.on (BLV_CLE_L_CTL_DERR n)) (flAdd v.r (flNeg v.y)) v.y)))

theorem evalLoop_from (eff bnd p : Nat) (v : LoopInputs) (ecc : Bool) : evalLoop s eff bnd n p v ecc =
    evalFrom (coef s n) eff bnd n p v (if ecc || (loopOf s n).mis
      then loopFault (onIf ecc (·.count BLV_SRAM_UE_VALUE 1) s) n (loopOf s n)
      else (onIf ecc (·.count BLV_SRAM_UE_VALUE 1) s, loopOf s n)) := rfl

theorem evalLoop_eq (hmis : (loopOf s n).mis = false) (hfirst : (loopOf s n).first = false) (eff bnd p : Nat) (v : LoopInputs) :
    evalLoop s eff bnd n p v false = lawStored (coef s n) s eff bnd n p v (loopOf s n).ulg (loopOf s n) (lawIn (coef s n) s n v (loopOf s n)) := by
  have hstart (x : Word32) : (loopOf s n).start x = loopOf s n := if_neg (by rw [hfirst]; decide)
  rw [evalLoop_from, hmis]
  show evalFrom (coef s n) eff bnd n p v (s, loopOf s n) = _
  unfold evalFrom
  rw [hstart]

/-- A loop without a model, after a sample of the law. -/
def loopSampled (l : LoopSt) (v : LoopInputs) (o : LawOut) : LoopSt :=
  { l with
    act := none, skip := l.skip - 1, bad := 0, i := o.ic, d := o.dn, xp := o.x, ulg := o.u, yp2 := l.yp1, yp1 := v.y, up2 := l.up1
    up1 := o.u }

/-- A loop that enters its action with a bad sample. -/
def loopActing (c : Nat → Word32) (l : LoopSt) (v : LoopInputs) (action : Nat) : LoopSt :=
  { l with bad := l.bad + 1, act := some action, yp2 := l.yp1, yp1 := v.y, up2 := l.up1, up1 := actionOutput c action l }

theorem lawStored_sampled {c : Nat → Word32} {eff bnd p : Nat} {v : LoopInputs} {ulg : Word32} {l : LoopSt} {o : LawOut}
    (hmodel : s.get (BLV_CLE_L_CTL_MODEL n) = 0) (hact : l.act = none) (hnan : o.nan = false) :
    ∃ yhat, lawStored c s eff bnd n p v ulg l o = outputStored s eff bnd n p v o false ulg yhat (o.u, loopSampled l v o) := by
  have hcheck : plausCheck c 0 l v o.nan = (true, { l with skip := l.skip - 1, bad := 0 }) := if_pos rfl
  refine ⟨shownPrediction c s n v l, ?_⟩
  rw [lawStored, hmodel, hcheck]
  show outputStored s eff bnd n p v o (o.nan && l.act.isNone) ulg _ (lawOutput c { l with skip := l.skip - 1, bad := 0 } v o true) = _
  have hout : lawOutput c { l with skip := l.skip - 1, bad := 0 } v o true = (o.u, loopSampled l v o) := by
    unfold lawOutput
    simp only [hact, hnan]
    rfl
  rw [hout, hnan]
  rfl

theorem lawStored_acting {c : Nat → Word32} {eff bnd p : Nat} {v : LoopInputs} {ulg : Word32} {l : LoopSt} {o : LawOut}
    (hmodel : s.get (BLV_CLE_L_CTL_MODEL n) = 1) (hskip : l.skip = 0) (hnan : o.nan = false)
    (hbad : flLe (flAbs (flAdd v.y (flNeg (fma (c 14) l.up1 (flMul (c 12) l.yp1))))) (c 11) = false)
    (hoff : s.on (BLV_CLE_L_STAT_PLAUS n) = false) (hcount : max 1 (s.get (BLV_CLE_L_CTL_PLAUSN n)) ≤ l.bad + 1) (hlt : l.bad < 255)
    (haction : s.get (BLV_CLE_L_CTL_ACTION n) = 2) :
    ∃ yhat, lawStored c s eff bnd n p v ulg l o =
      outputStored (enterPlaus s n 0) eff bnd n p v o false ulg yhat (c 9, loopActing c l v 2) := by
  have hcheck : plausCheck c 1 l v o.nan = (false, { l with bad := l.bad + 1 }) := by
    unfold plausCheck
    rw [if_neg (by decide), if_neg (by omega), hnan]
    simp only [prediction, hbad, Bool.and_false, Bool.false_eq_true, if_false]
    rw [Nat.min_eq_left (by omega)]
  have hacts : sampleActs s n false (l.bad + 1) = true := by
    rw [sampleActs, decide_eq_true hcount, hoff]
    rfl
  refine ⟨shownPrediction c s n v l, ?_⟩
  rw [lawStored, hmodel, hcheck, checkStored]
  simp only
  rw [hacts, actionTaken, if_pos rfl, haction, if_neg (by decide), actionStored]
  simp only
  rw [hnan]
  rfl

/-! ### What an evaluation leaves -/

section

variable (eff bnd p : Nat) (v : LoopInputs) (o : LawOut) (ulgOld yhat : Word32) (r : Word32 × LoopSt)

theorem effect_statusShown (bad : Nat) (acting : Bool) : Effect [BLV_CLE_L_STAT n] [] s (badShown (lawShown s n o false) n bad acting) :=
  have hmem : BLV_CLE_L_STAT n ∈ [BLV_CLE_L_STAT n] := List.mem_singleton_self _
  ((((Effect.refl s).raiseIf o.isat (f := BLV_CLE_L_STAT_ISAT n) hmem).raiseIf o.usat (f := BLV_CLE_L_STAT_USAT n) hmem).put
    (f := BLV_CLE_L_STAT_BAD n) _ hmem).put (f := BLV_CLE_L_STAT_ACTING n) _ hmem

theorem effect_outputStored : Effect [BLV_CLE_L_STAT n] [.loops, .free] s (outputStored s eff bnd n p v o false ulgOld yhat r) :=
  (((effect_statusShown o r.2.bad r.2.act.isSome).mono (List.Subset.refl _) (List.nil_subset _)).setLoop (by decide) n _).free _ (by decide)

/-- The output that an evaluation leaves waiting. -/
theorem out_outputStored (hn : n < 64) : ∃ w, (loopOf (outputStored s eff bnd n p v o false ulgOld yhat r) n).out = some w ∧
    w.value = r.1 ∧ w.due = eff + (if (s.get RFX_DUAL_EN_MASK).testBit n then 76 else 60) + 8 * p ∧ w.r = v.r ∧ w.y = v.y := by
  have hdual : (badShown (lawShown s n o false) n r.2.bad r.2.act.isSome).get RFX_DUAL_EN_MASK = s.get RFX_DUAL_EN_MASK := by
    refine (effect_statusShown o r.2.bad r.2.act.isSome).get fun hm => ?_
    have := List.mem_singleton.mp hm
    simp only [RFX_DUAL_EN_MASK, RFX_DUAL_EN, BLV_CLE_L_STAT] at this
    omega
  refine ⟨outputWaiting (badShown (lawShown s n o false) n r.2.bad r.2.act.isSome) eff bnd n p v ulgOld r.1 yhat, ?_, rfl, ?_, rfl, rfl⟩
  · exact congrArg LoopSt.out (tgetD_tset_same ..)
  · rw [← hdual]
    rfl

/-- The loop's state that an evaluation leaves. -/
theorem loopOf_outputStored : ∃ w, loopOf (outputStored s eff bnd n p v o false ulgOld yhat r) n = { r.2 with out := some w } :=
  ⟨_, tgetD_tset_same ..⟩

theorem loopOf_outputStored_ne {m : Nat} (h : m ≠ n) : loopOf (outputStored s eff bnd n p v o false ulgOld yhat r) m = loopOf s m := by
  obtain ⟨hloops, -⟩ := (effect_statusShown (s := s) (n := n) o r.2.bad r.2.act.isSome).keeps .loops (by decide)
  rw [outputStored, loopStored]
  refine (tgetD_tset_ne _ _ _ _ _ h).trans ?_
  rw [hloops]
  rfl

theorem grpLast_outputStored : (outputStored s eff bnd n p v o false ulgOld yhat r).grpLast = s.grpLast := by
  obtain ⟨-, hlast, -⟩ := (effect_statusShown (s := s) (n := n) o r.2.bad r.2.act.isSome).keeps .loops (by decide)
  rw [outputStored, loopStored]
  exact hlast

theorem stat_apart {n a b c d : Nat} (h : c ≤ d ∧ d < 64 ∧ (b < c ∨ d < a)) : Apart ⟨BLV_CLE_L_STAT n, d, c⟩ ⟨BLV_CLE_L_STAT n, b, a⟩ := .inr h

theorem flags_outputStored : (o.isat = true → (outputStored s eff bnd n p v o false ulgOld yhat r).on (BLV_CLE_L_STAT_ISAT n) = true) ∧
    (o.usat = true → (outputStored s eff bnd n p v o false ulgOld yhat r).on (BLV_CLE_L_STAT_USAT n) = true) ∧
    (outputStored s eff bnd n p v o false ulgOld yhat r).on (BLV_CLE_L_STAT_ACTING n) = r.2.act.isSome ∧
    (outputStored s eff bnd n p v o false ulgOld yhat r).get (BLV_CLE_L_STAT_PLAUS n) = s.get (BLV_CLE_L_STAT_PLAUS n) ∧
    (outputStored s eff bnd n p v o false ulgOld yhat r).get (BLV_CLE_L_STAT_CAUSE n) = s.get (BLV_CLE_L_STAT_CAUSE n) := by
  have hshown (f : Fld) : (outputStored s eff bnd n p v o false ulgOld yhat r).get f =
      (badShown (lawShown s n o false) n r.2.bad r.2.act.isSome).get f := rfl
  have hbad (u : State) (hi lo : Nat) (h1 : hi < 3 ∨ 3 < lo) (h2 : hi < 8 ∨ 15 < lo) :
      (badShown u n r.2.bad r.2.act.isSome).get ⟨BLV_CLE_L_STAT n, hi, lo⟩ = u.get ⟨BLV_CLE_L_STAT n, hi, lo⟩ := by
    rw [badShown, State.get_put_apart (f := BLV_CLE_L_STAT_ACTING n) (stat_apart (by omega)),
      State.get_put_apart (f := BLV_CLE_L_STAT_BAD n) (stat_apart (by omega))]
  have hlaw (hi lo : Nat) (h1 : hi < 6 ∨ 6 < lo) (h2 : hi < 7 ∨ 7 < lo) :
      (lawShown s n o false).get ⟨BLV_CLE_L_STAT n, hi, lo⟩ = s.get ⟨BLV_CLE_L_STAT n, hi, lo⟩ := by
    have hraise (u : State) (c : Bool) {f : Fld} (h : Apart f ⟨BLV_CLE_L_STAT n, hi, lo⟩) :
        (onIf c (·.setOn f) u).get ⟨BLV_CLE_L_STAT n, hi, lo⟩ = u.get ⟨BLV_CLE_L_STAT n, hi, lo⟩ := by
      cases c
      · rfl
      · exact State.get_setOn_apart h
    rw [lawShown, hraise _ _ (f := BLV_CLE_L_STAT_USAT n) (stat_apart (by omega)), hraise _ _ (f := BLV_CLE_L_STAT_ISAT n)
      (stat_apart (by omega))]
    rfl
  refine ⟨fun h => ?_, fun h => ?_, ?_, ?_, ?_⟩
  · refine (State.on_congr ((hshown _).trans (hbad _ 6 6 (by decide) (by decide)))).trans ?_
    rw [lawShown, h, on_raiseIf_apart _ (f := BLV_CLE_L_STAT_USAT n) (stat_apart (by decide))]
    exact State.on_setOn _ (BLV_CLE_L_STAT_ISAT n) rfl (show 6 < 64 by decide)
  · refine (State.on_congr ((hshown _).trans (hbad _ 7 7 (by decide) (by decide)))).trans ?_
    rw [lawShown, h]
    exact State.on_setOn _ (BLV_CLE_L_STAT_USAT n) rfl (show 7 < 64 by decide)
  · rw [State.on_congr (hshown _), badShown]
    exact State.on_put_ofBool (f := BLV_CLE_L_STAT_ACTING n) (show 3 ≤ 3 ∧ 3 < 64 by decide) _
  · exact (hshown _).trans ((hbad _ 0 0 (by decide) (by decide)).trans (hlaw 0 0 (by decide) (by decide)))
  · exact (hshown _).trans ((hbad _ 4 4 (by decide) (by decide)).trans (hlaw 4 4 (by decide) (by decide)))

end

/-! ### PLAUS (R407) -/

/-- PLAUS and its cause shown. -/
def plausShown (s : State) (n : Nat) : State :=
  ((s.setOn (BLV_CLE_L_STAT_PLAUS n)).put (BLV_CLE_L_STAT_CAUSE n) 0)

/-- The mask of the loops in PLAUS takes a loop. -/
def plausMasked (s : State) (n : Nat) : State := s.put BLV_CLE_PLAUS_MASK (s.get BLV_CLE_PLAUS_MASK ||| 2 ^ n)

theorem enterPlaus_new (hoff : s.on (BLV_CLE_L_STAT_PLAUS n) = false) :
    enterPlaus s n 0 = ((plausMasked (plausShown s n) n).count BLV_CLE_CNT_PLAUS_VALUE 1).emergency 0xFF01 n := by
  have hnew : (!s.on (BLV_CLE_L_STAT_PLAUS n)) = true := by rw [hoff]; rfl
  exact if_pos hnew

/-- The registers of PLAUS. -/
def plausRegs (n : Nat) : List Nat := [BLV_CLE_L_STAT n, BLV_CLE_PLAUS, BLV_CLE_CNT_PLAUS, FLD_ECS_CNT 7, FLD_ECS_EVT]

theorem effect_plausShown : Effect [BLV_CLE_L_STAT n] [] s (plausShown s n) :=
  ((Effect.refl s).setOn (f := BLV_CLE_L_STAT_PLAUS n) (List.mem_singleton_self _)).put (f := BLV_CLE_L_STAT_CAUSE n) 0 (List.mem_singleton_self _)

/-- What entering PLAUS leaves. -/
theorem enterPlaus_leaves (hoff : s.on (BLV_CLE_L_STAT_PLAUS n) = false) (hn : n < 64) :
    Effect (plausRegs n) [.diag] s (enterPlaus s n 0) ∧ (enterPlaus s n 0).on (BLV_CLE_L_STAT_PLAUS n) = true ∧
      (enterPlaus s n 0).on (BLV_CLE_L_STAT_CAUSE n) = false ∧ ((enterPlaus s n 0).get BLV_CLE_PLAUS_MASK).testBit n = true ∧
      (enterPlaus s n 0).get BLV_CLE_CNT_PLAUS_VALUE = satAdd 32 (s.get BLV_CLE_CNT_PLAUS_VALUE) 1 := by
  have hshown := effect_plausShown (s := s) (n := n)
  have hmem : BLV_CLE_L_STAT n < 0x100009000000 ∧ BLV_CLE_L_STAT n ≠ BLV_CLE_PLAUS ∧ BLV_CLE_L_STAT n ≠ BLV_CLE_CNT_PLAUS := by
    simp only [BLV_CLE_L_STAT, BLV_CLE_PLAUS, BLV_CLE_CNT_PLAUS]
    omega
  obtain ⟨hlow, hmask, hcnt⟩ := hmem
  have hplaus : (plausShown s n).on (BLV_CLE_L_STAT_PLAUS n) = true := by
    refine (State.on_congr (State.get_put_apart (f := BLV_CLE_L_STAT_CAUSE n) (g := BLV_CLE_L_STAT_PLAUS n) (stat_apart (by decide)) 0)).trans ?_
    exact State.on_setOn s (BLV_CLE_L_STAT_PLAUS n) rfl (show 0 < 64 by decide)
  have hcause : (plausShown s n).on (BLV_CLE_L_STAT_CAUSE n) = false :=
    State.on_put_ofBool (f := BLV_CLE_L_STAT_CAUSE n) (show 4 ≤ 4 ∧ 4 < 64 by decide) false
  rw [enterPlaus_new hoff]
  generalize plausShown s n = u at hshown hplaus hcause
  have hmasked : Effect [BLV_CLE_PLAUS] [] u (plausMasked u n) := (Effect.refl u).put _ (by decide)
  have hbit : ((plausMasked u n).get BLV_CLE_PLAUS_MASK).testBit n = true := by
    rw [plausMasked, State.get_put_self (by decide), Nat.testBit_mod_two_pow, Nat.testBit_or, Nat.testBit_two_pow_self, Bool.or_true]
    exact Bool.and_eq_true_iff.mpr ⟨decide_eq_true hn, rfl⟩
  generalize plausMasked u n = w at hmasked hbit
  have hcounted : Effect [BLV_CLE_CNT_PLAUS] [] w (w.count BLV_CLE_CNT_PLAUS_VALUE 1) := (Effect.refl w).count 1 (by decide)
  have hvalue : (w.count BLV_CLE_CNT_PLAUS_VALUE 1).get BLV_CLE_CNT_PLAUS_VALUE = satAdd 32 (s.get BLV_CLE_CNT_PLAUS_VALUE) 1 := by
    rw [State.get_count_self (by decide), hmasked.get (by decide), hshown.get fun hm => hcnt (List.mem_singleton.mp hm).symm]
    rfl
  generalize w.count BLV_CLE_CNT_PLAUS_VALUE 1 = x at hcounted hvalue
  have hemcy : Effect [FLD_ECS_CNT 7, FLD_ECS_EVT] [.diag] x (x.emergency 0xFF01 n) :=
    (Effect.refl x).emergency (by decide) (by decide) (by decide) _ _
  have hback (f : Fld) (h1 : f.addr ≠ FLD_ECS_CNT 7) (h2 : f.addr ≠ FLD_ECS_EVT) : (x.emergency 0xFF01 n).get f = x.get f :=
    hemcy.get (by simp [h1, h2])
  have hstat (f : Fld) (hf : f.addr = BLV_CLE_L_STAT n) : (x.emergency 0xFF01 n).on f = u.on f := by
    have h7 : FLD_ECS_CNT 7 = 0x10000900003c := rfl
    have hevt : (0x100009000000 : Nat) ≤ FLD_ECS_EVT := by decide
    refine State.on_congr ((hback f (by rw [hf, h7]; omega) (by rw [hf]; omega)).trans ((hcounted.get ?_).trans (hmasked.get ?_)))
    · rw [hf]
      exact fun hm => hcnt (List.mem_singleton.mp hm)
    · rw [hf]
      exact fun hm => hmask (List.mem_singleton.mp hm)
  refine ⟨(((hshown.mono (by simp [plausRegs]) (List.nil_subset _)).trans (hmasked.mono (by simp [plausRegs]) (List.nil_subset _))).trans
    (hcounted.mono (by simp [plausRegs]) (List.nil_subset _))).trans (hemcy.mono (by simp [plausRegs]) (List.Subset.refl _)),
    (hstat _ rfl).trans hplaus, (hstat _ rfl).trans hcause, ?_, ?_⟩
  · rw [hback _ (by decide) (by decide), hcounted.get (by decide)]
    exact hbit
  · rw [hback _ (by decide) (by decide)]
    exact hvalue

/-! ### The firing around its boundary (R284, R286) -/

/-- What a firing does after its destination: its wake, and its next target. -/
def firingOver (s u : State) (c : Nat) : State :=
  let u := onIf (u.get PWR_WAKE_CMP == c) (·.wake 2) u
  if u.isPending (16 + c) then armUnit (u.latch (16 + c)) c (cmpTarget (u.latch (16 + c)) c)
  else if cmpPeriodic s c then u.setNext c (cmpNext s c + cmpPer s c) else disarmUnit u c

theorem fireUnit_over (late : Bool) (ecc : Nat) : fireUnit s c late ecc = firingOver s (firedDriven s c late ecc) c := fireUnit_eq s c late ecc

/-- The registers of a unit and of the module's state. -/
def firingRegs (c : Nat) : List Nat := PWR_STAT :: (armRegs c ++ (keyRegs (16 + c)).map (·.1))

theorem Effect.wake {regs : List Nat} {parts : List Part} (h : Effect regs parts s t) (hr : PWR_STAT ∈ regs) (hp : Part.pwr ∈ parts)
    (src : Nat) : Effect regs parts s (t.wake src) := by
  unfold State.wake
  simp only
  split
  · exact h
  · exact (h.put _ hr).pwr _ hp

theorem effect_firingOver (u : State) : Effect (firingRegs c) [.servo, .held, .pwr] u (firingOver s u c) := by
  have hstat : TIM_CMP_STAT c ∈ firingRegs c := by simp [firingRegs, armRegs]
  have hlo : TIM_CMP_NEXT_LO c ∈ firingRegs c := by simp [firingRegs, armRegs]
  have hhi : TIM_CMP_NEXT_HI c ∈ firingRegs c := by simp [firingRegs, armRegs]
  have hwake : Effect (firingRegs c) [.servo, .held, .pwr] u (onIf (u.get PWR_WAKE_CMP == c) (·.wake 2) u) :=
    (Effect.refl u).onIf fun _ => (Effect.refl u).wake (by simp [firingRegs]) (by decide) 2
  unfold firingOver
  simp only
  generalize onIf (u.get PWR_WAKE_CMP == c) (·.wake 2) u = w at hwake
  have hlatch : Effect (firingRegs c) [.servo, .held, .pwr] w (w.latch (16 + c)) :=
    (Effect.refl w).latch (fun r hr => List.mem_cons_of_mem _ (List.mem_append_right _ (List.mem_map_of_mem hr))) (by decide)
  refine hwake.trans (Effect.ite (fun _ => hlatch.trans ((effect_armUnit _).mono ?_ (by decide))) fun _ => Effect.ite
    (fun _ => (Effect.refl w).setNext hlo hhi _) fun _ => ?_)
  · exact fun a ha => List.mem_cons_of_mem _ (List.mem_append_left _ ha)
  · exact ((Effect.refl w).setOff (f := TIM_CMP_STAT_ARMED c) hstat).cmpLate _ (by decide)

theorem firingRegs_low (hc : c < 32) {a : Nat} (ha : a ∈ firingRegs c) : a < 0x100005000000 ∨ a = PWR_STAT := by
  rw [firingRegs, keyRegs_cmp c hc] at ha
  simp only [armRegs, List.map_cons, List.map_nil, List.mem_cons, List.mem_append, List.not_mem_nil, or_false, TIM_CMP_STAT, TIM_CMP_NEXT_LO,
    TIM_CMP_NEXT_HI, TIM_CMP_CTL, TIM_CMP_TGT_LO, TIM_CMP_TGT_HI, TIM_CMP_PER] at ha
  rcases ha with h | h
  · exact .inr h
  · left
    omega

end

end Sys2Proof.Machine
end
section
/-! A boundary from its firing to the end of the command (R284, R396). -/

namespace Sys2Proof.Machine

open Sys2Proof Sys2Proof.Machine.Reg

section

variable {s : State} {c g n : Nat} {late : Bool}

/-- A firing shown, its loop group about to take its boundary. -/
def boundaryOpened (s : State) (c g : Nat) (late : Bool) : State :=
  { firedShown s c late with destSeen := tset (firedShown s c late).destSeen (8 + g) (firedShown s c late).cyc }

theorem effect_boundaryOpened : Effect [TIM_CMP_STAT c, TIM_CMP_EVT] [.servo, .loops] s (boundaryOpened s c g late) :=
  ((effect_firedShown late).mono (List.Subset.refl _) (by simp)).destSeen _ (by simp)

theorem loops_boundaryOpened : (boundaryOpened s c g late).loops = s.loops ∧ (boundaryOpened s c g late).grpLast = s.grpLast := by
  obtain ⟨hloops, hlast, -⟩ := (effect_firedShown (s := s) (c := c) late).keeps .loops (by decide)
  exact ⟨hloops, hlast⟩

theorem same_boundaryOpened (hc : c < 32) : LoopSame g s (boundaryOpened s c g late) := by
  refine LoopSame.of_effect effect_boundaryOpened (fun a ha => .inl ?_) (fun m => ?_) (by decide) ?_
  · simp only [List.mem_cons, List.not_mem_nil, or_false, TIM_CMP_STAT, TIM_CMP_EVT] at ha
    omega
  · rw [loopOf, loops_boundaryOpened.1]
    rfl
  · exact congrArg (·.hist) ((effect_boundaryOpened (s := s) (c := c) (g := g) (late := late)).keeps .rfx (by decide))

/-- A firing that reaches its loop group is the group's boundary. -/
theorem driveDest_boundary {u : State} (hg : g < 8) (hdest : u.get (TIM_CMP_CTL_DEST c) = 8 + g) (hnew : tget u.destSeen (8 + g) ≠ some u.cyc)
    (ecc : Nat) : driveDest u c ecc = groupBoundary { u with destSeen := tset u.destSeen (8 + g) u.cyc } g ecc := by
  unfold driveDest
  simp only [hdest]
  rw [if_neg (by omega), if_pos (by omega), if_neg hnew, Nat.add_sub_cancel_left]

theorem driveDest_fired (hg : g < 8) (hdest : s.get (TIM_CMP_CTL_DEST c) = 8 + g) (hnew : tget s.destSeen (8 + g) ≠ some s.cyc) (ecc : Nat) :
    driveDest (firedShown s c late) c ecc = groupBoundary (boundaryOpened s c g late) g ecc := by
  have heff := effect_firedShown (s := s) (c := c) late
  obtain ⟨-, -, hseen⟩ := heff.keeps .loops (by decide)
  refine driveDest_boundary hg ((heff.get (ctl_not_mem_fired c)).trans hdest) ?_ ecc
  rw [hseen, heff.cyc (by decide)]
  exact hnew

/-- What the end of the command leaves of a boundary's state. -/
structure AfterBoundary (d t : State) : Prop where
  rd : ∀ a, 0x100005000000 ≤ a → a < DGN_EPOCH → a ≠ PWR_STAT → t.rd a = d.rd a
  loops : t.loops = d.loops
  grpLast : t.grpLast = d.grpLast
  lanes : t.lanes = d.lanes
  segs : t.segs = d.segs
  mem : ∀ a, memGet t.mem a = memGet d.mem a

theorem AfterBoundary.get {d t : State} (h : AfterBoundary d t) (f : Fld) (h1 : 0x100005000000 ≤ f.addr) (h2 : f.addr < DGN_EPOCH)
    (h3 : f.addr ≠ PWR_STAT) : t.get f = d.get f := by
  rw [State.get, State.get, h.rd _ h1 h2 h3]

theorem AfterBoundary.loopOf {d t : State} (h : AfterBoundary d t) (m : Nat) : loopOf t m = loopOf d m := by
  rw [Machine.loopOf, Machine.loopOf, h.loops]

/-- A firing on a loop group is that group's boundary, and the unit's own registers. -/
theorem completes_boundary {P : State → Prop} (hon : s.powered) (hc : c < 32) (hg : g < 8) (hdue : cmpDue s c = some late)
    (hdest : s.get (TIM_CMP_CTL_DEST c) = 8 + g) (hnew : tget s.destSeen (8 + g) ≠ some s.cyc)
    (h : ∀ t, AfterBoundary (groupBoundary (boundaryOpened s c g late) g 0) t → P t) : Completes (.compareFire c 0) s P := by
  have hexec : exec (.compareFire c 0) s = finish s (fireUnit s c late 0) := by
    show execCompareFire c 0 s = _
    rw [execCompareFire, hdue]
    simp only [hc, if_true]
  refine completes_of_settled hexec hon fun t hs => h t ?_
  rw [fireUnit_over] at hs
  have hover : Effect (firingRegs c) [.servo, .held, .pwr] (firedDriven s c late 0) (firingOver s (firedDriven s c late 0) c) :=
    effect_firingOver _
  have hdriven : firedDriven s c late 0 =
      { groupBoundary (boundaryOpened s c g late) g 0 with cmpLate := tdel (firedShown s c late).cmpLate c } := by
    rw [firedDriven, driveDest_fired hg hdest hnew]
  rw [hdriven] at hover hs
  generalize groupBoundary (boundaryOpened s c g late) g 0 = d at hover hs
  have hall : Effect (firingRegs c) [.servo, .held, .pwr] d { d with cmpLate := tdel (firedShown s c late).cmpLate c } :=
    (Effect.refl d).cmpLate _ (by decide)
  have heff := hall.trans hover
  generalize firingOver s { d with cmpLate := tdel (firedShown s c late).cmpLate c } c = u at heff hs
  obtain ⟨hloops, hlast, -⟩ := heff.keeps .loops (by decide)
  refine ⟨fun a h1 h2 h3 => ?_, hs.loops.trans hloops, hs.grpLast.trans hlast, hs.lanes.trans (heff.keeps .lanes (by decide)),
    hs.segs.trans (heff.keeps .segs (by decide)), fun a => ?_⟩
  · obtain ⟨hne, hevt⟩ := segment_settles h2
    rw [hs.rd a hne hevt]
    refine heff.rd a fun hm => ?_
    rcases firingRegs_low hc hm with hlow | hstat
    · omega
    · exact h3 hstat
  · rw [hs.mem]
    exact heff.keeps .mem (by decide) a

/-! ### A boundary at which one loop is evaluated -/

/-- The state in which the loop of a boundary is evaluated. -/
structure AtEvaluation (s : State) (g n : Nat) (x : State) : Prop where
  same : LoopSame g s x
  counted : x.get (BLV_CLE_GRP_STAT_BNDRY g) = (s.get (BLV_CLE_GRP_STAT_BNDRY g) + 1) % 2 ^ 32
  nloop : x.get (BLV_CLE_GRP_STAT_NLOOP g) = 1
  last : tget x.grpLast g = some s.cyc
  mem : ∀ a, memGet x.mem a = memGet s.mem a

theorem atEvaluation (hc : c < 32) (hg : g < 8) (hevals : ∀ e ∈ (boundaryOpened s c g late).rfx.evals, evalDue (boundaryOpened s c g late) g e = false) :
    AtEvaluation s g n (boundaryEntered (boundaryTaken (boundaryOpened s c g late) g) g n) := by
  have hsame : LoopSame g s (boundaryOpened s c g late) := same_boundaryOpened hc
  have hopened := effect_boundaryOpened (s := s) (c := c) (g := g) (late := late)
  have hstat : BLV_CLE_GRP_STAT g ∉ [TIM_CMP_STAT c, TIM_CMP_EVT] := by
    simp only [List.mem_cons, List.not_mem_nil, or_false, TIM_CMP_STAT, TIM_CMP_EVT, BLV_CLE_GRP_STAT]
    omega
  have hbndry : (boundaryOpened s c g late).get (BLV_CLE_GRP_STAT_BNDRY g) = s.get (BLV_CLE_GRP_STAT_BNDRY g) := hopened.get hstat
  have hmem : ∀ a, memGet (boundaryOpened s c g late).mem a = memGet s.mem a := hopened.keeps .mem (by decide)
  generalize boundaryOpened s c g late = b at hsame hbndry hmem hevals
  obtain ⟨htaken, htakenSame, htakenLast⟩ := effect_boundaryTaken hevals
  have hnoEval := (noEval_cases (s := boundaryCounted b g) (g := g) hevals).1
  have hkept : (boundaryTaken b g).get (BLV_CLE_GRP_STAT_BNDRY g) = (boundaryCounted b g).get (BLV_CLE_GRP_STAT_BNDRY g) := by
    refine hnoEval.get ?_
    simp only [List.mem_cons, List.not_mem_nil, or_false, BLV_CLE_GRP_STAT_BNDRY, BLV_CLE_GRP_STAT, RFX_GRP_STAT, RFX_EVT]
    omega
  obtain ⟨-, -, hlast⟩ := loops_boundaryCounted (s := b) (g := g)
  obtain ⟨hnloop, hcount, hgrp⟩ := get_boundaryEntered (s := boundaryTaken b g) (g := g) (n := n)
  refine ⟨hsame.trans (htakenSame.trans same_boundaryEntered), ?_, hnloop, ?_, fun a => ?_⟩
  · rw [hcount, hkept, get_boundaryCounted, hbndry]
  · rw [hgrp, htakenLast, hlast, hsame.cyc]
  · exact ((effect_boundaryEntered (s := boundaryTaken b g) (g := g) (n := n)).keeps .mem (by decide) a).trans
      ((htaken.keeps .mem (by decide) a).trans (hmem a))

/-- The boundary of a loop alone in its group evaluates it on the registers of the firing. -/
theorem boundary_evaluates (h : AloneAtBoundary s c g n) : ∃ x bnd, AtEvaluation s g n x ∧
    groupBoundary (boundaryOpened s c g late) g 0 = lawStored (coef x n) x s.effCyc bnd n 0 (loopSnapshot s g n) (loopOf s n).ulg (loopOf s n)
      (lawIn (coef x n) x n (loopSnapshot s g n) (loopOf s n)) := by
  have hg := h.group
  have hn := h.loop
  have hsame : LoopSame g s (boundaryOpened s c g late) := same_boundaryOpened h.unit
  have hrfx : (boundaryOpened s c g late).rfx = s.rfx := effect_boundaryOpened.keeps .rfx (by decide)
  have hevals : ∀ e ∈ (boundaryOpened s c g late).rfx.evals, evalDue (boundaryOpened s c g late) g e = false := by
    rw [hrfx]
    intro e he
    rw [evalDue, hsame.cyc]
    exact h.evals e he
  have hat : AtEvaluation s g n (boundaryEntered (boundaryTaken (boundaryOpened s c g late) g) g n) := atEvaluation h.unit hg hevals
  have hspaced : ∀ t, tget (boundaryOpened s c g late).grpLast g = some t → t + 15600 ≤ (boundaryOpened s c g late).cyc := by
    rw [loops_boundaryOpened.2, hsame.cyc]
    exact h.spaced
  generalize boundaryOpened s c g late = b at hsame hevals hat hspaced
  have hlanes : ∀ l, l < 9 → laneSt b l = 0 := fun l hl => by
    rw [laneSt, hsame.get (f := SLC_L_STAT_STATE l) (loopReg_of_ge hg (by simp only [SLC_L_STAT_STATE, SLC_L_STAT]; omega)
      (.inr (by simp only [SLC_L_STAT_STATE, SLC_L_STAT]; omega)))]
    exact h.lanes l hl
  have hecm {sg : Nat} (hsg : sg < 4) : LoopReg g (FLD_ECM_CTL sg) :=
    loopReg_of_ge hg (by simp only [FLD_ECM_CTL]; omega) (.inr (by simp only [FLD_ECM_CTL]; omega))
  have hsegs : ∀ sg, sg < 4 → b.on (FLD_ECM_CTL_ENABLE sg) = true → b.get (FLD_ECM_CTL_GRP sg) ≠ g := fun sg hsg => by
    rw [hsame.on (f := FLD_ECM_CTL_ENABLE sg) (hecm hsg), hsame.get (f := FLD_ECM_CTL_GRP sg) (hecm hsg)]
    exact h.segments sg hsg
  obtain ⟨bnd, hbnd⟩ := groupBoundary_alone ((LoopAlone.of_boundary h).same hg hn hsame) hg hn hspaced
    ((hsame.on (loopReg_ctrl hg).1).trans h.engine) hlanes hsegs (by rw [hsame.loops]; exact h.out) hevals
  rw [hsame.effCyc, hsame.loopSnapshot hg hn] at hbnd
  generalize boundaryEntered (boundaryTaken b g) g n = x at hat hbnd
  refine ⟨x, bnd, hat, ?_⟩
  have hloop := hat.same.loops n
  rw [hbnd, evalLoop_eq (by rw [hloop]; exact h.mis) (by rw [hloop]; exact h.first), hloop]

/-- The law reads nine coefficients. -/
theorem controlLaw_congr {c d : Nat → Word32} (h : ∀ k, k < 16 → c k = d k) (derr awhold : Bool) (l : LoopSt) (v : LoopInputs) :
    controlLaw c derr awhold l v = controlLaw d derr awhold l v := by
  unfold controlLaw
  rw [h 0 (by decide), h 1 (by decide), h 2 (by decide), h 3 (by decide), h 4 (by decide), h 5 (by decide), h 6 (by decide),
    h 7 (by decide), h 8 (by decide)]

theorem lawIn_eq {x : State} (hg : g < 8) (hn : n < 64) (h : LoopSame g s x) :
    lawIn (coef x n) x n (loopSnapshot s g n) (loopOf s n) = lawAt s g n := by
  rw [lawIn, h.on (f := BLV_CLE_L_CTL_DERR n) (loopReg_own hg (m := n) (by omega) (by simp only [BLV_CLE_L_CTL_DERR, BLV_CLE_L_CTL]; omega)),
    h.on (f := BLV_CLE_L_CTL_AWHOLD n) (loopReg_own hg (m := n) (by omega) (by simp only [BLV_CLE_L_CTL_AWHOLD, BLV_CLE_L_CTL]; omega)),
    controlLaw_congr fun k hk => h.coef hg hn k hk]
  rfl

/-! ### The clauses -/

theorem grpStat_settles (hg : g < 8) : 0x100005000000 ≤ BLV_CLE_GRP_STAT g ∧ BLV_CLE_GRP_STAT g < DGN_EPOCH ∧ BLV_CLE_GRP_STAT g ≠ PWR_STAT := by
  unfold BLV_CLE_GRP_STAT DGN_EPOCH PWR_STAT
  omega

theorem loopStat_settles (hn : n < 64) : 0x100005000000 ≤ BLV_CLE_L_STAT n ∧ BLV_CLE_L_STAT n < DGN_EPOCH ∧ BLV_CLE_L_STAT n ≠ PWR_STAT := by
  unfold BLV_CLE_L_STAT DGN_EPOCH PWR_STAT
  omega

theorem loopStat_ne_grpStat (hg : g < 8) : BLV_CLE_GRP_STAT g ≠ BLV_CLE_L_STAT n := by
  unfold BLV_CLE_L_STAT BLV_CLE_GRP_STAT
  omega

theorem completes_boundary_sampled (hon : s.powered) (h : AloneAtBoundary s c g n) (hmodel : s.get (BLV_CLE_L_CTL_MODEL n) = 0)
    (hnan : (lawAt s g n).nan = false) : Completes (.compareFire c 0) s fun t =>
      (∃ w, (loopOf t n).out = some w ∧ w.value = (lawAt s g n).u ∧
        w.due = ceilDiv (s.cyc * 12) 10 + (if (s.get RFX_DUAL_EN_MASK).testBit n then 76 else 60) ∧
        w.r = (loopSnapshot s g n).r ∧ w.y = (loopSnapshot s g n).y) ∧
      (∃ w, loopOf t n = { loopSampled (loopOf s n) (loopSnapshot s g n) (lawAt s g n) with out := some w }) ∧
      t.get (BLV_CLE_GRP_STAT_BNDRY g) = (s.get (BLV_CLE_GRP_STAT_BNDRY g) + 1) % 2 ^ 32 ∧
      t.get (BLV_CLE_GRP_STAT_NLOOP g) = 1 ∧ tget t.grpLast g = some s.cyc ∧
      ((lawAt s g n).isat = true → t.on (BLV_CLE_L_STAT_ISAT n) = true) ∧
      ((lawAt s g n).usat = true → t.on (BLV_CLE_L_STAT_USAT n) = true) ∧
      (∀ m, m ≠ n → loopOf t m = loopOf s m) ∧ ∀ a, memGet t.mem a = memGet s.mem a := by
  have hg := h.group
  have hn := h.loop
  obtain ⟨late, hdue⟩ := Option.isSome_iff_exists.mp h.due
  refine completes_boundary hon h.unit hg hdue h.dest h.unseen fun t ht => ?_
  obtain ⟨x, bnd, hat, hd⟩ := boundary_evaluates (late := late) h
  rw [lawIn_eq hg hn hat.same] at hd
  obtain ⟨yhat, hstored⟩ := lawStored_sampled (c := coef x n) (eff := s.effCyc) (bnd := bnd) (p := 0) (v := loopSnapshot s g n)
    (ulg := (loopOf s n).ulg) ((hat.same.ctl hg hn (f := BLV_CLE_L_CTL_MODEL n) rfl).trans hmodel) h.act hnan
  rw [hd.trans hstored] at ht
  obtain ⟨w, hw, hvalue, hwdue, hr, hy⟩ := out_outputStored (s := x) s.effCyc bnd 0 (loopSnapshot s g n) (lawAt s g n) (loopOf s n).ulg yhat
    ((lawAt s g n).u, loopSampled (loopOf s n) (loopSnapshot s g n) (lawAt s g n)) hn
  obtain ⟨w', hloop⟩ := loopOf_outputStored (s := x) (n := n) s.effCyc bnd 0 (loopSnapshot s g n) (lawAt s g n) (loopOf s n).ulg yhat
    ((lawAt s g n).u, loopSampled (loopOf s n) (loopSnapshot s g n) (lawAt s g n))
  obtain ⟨hisat, husat, -⟩ := flags_outputStored (s := x) (n := n) s.effCyc bnd 0 (loopSnapshot s g n) (lawAt s g n) (loopOf s n).ulg yhat
    ((lawAt s g n).u, loopSampled (loopOf s n) (loopSnapshot s g n) (lawAt s g n))
  have heff := effect_outputStored (s := x) (n := n) s.effCyc bnd 0 (loopSnapshot s g n) (lawAt s g n) (loopOf s n).ulg yhat
    ((lawAt s g n).u, loopSampled (loopOf s n) (loopSnapshot s g n) (lawAt s g n))
  have hothers (m : Nat) (hm : m ≠ n) := loopOf_outputStored_ne (s := x) s.effCyc bnd 0 (loopSnapshot s g n) (lawAt s g n) (loopOf s n).ulg yhat
    ((lawAt s g n).u, loopSampled (loopOf s n) (loopSnapshot s g n) (lawAt s g n)) hm
  have hlast := grpLast_outputStored (s := x) (n := n) s.effCyc bnd 0 (loopSnapshot s g n) (lawAt s g n) (loopOf s n).ulg yhat
    ((lawAt s g n).u, loopSampled (loopOf s n) (loopSnapshot s g n) (lawAt s g n))
  generalize outputStored x s.effCyc bnd n 0 (loopSnapshot s g n) (lawAt s g n) false (loopOf s n).ulg yhat
    ((lawAt s g n).u, loopSampled (loopOf s n) (loopSnapshot s g n) (lawAt s g n)) = d at ht hw hloop hisat husat heff hothers hlast
  obtain ⟨hs1, hs2, hs3⟩ := grpStat_settles hg
  obtain ⟨hl1, hl2, hl3⟩ := loopStat_settles hn
  have hgroup (f : Fld) (hf : f.addr = BLV_CLE_GRP_STAT g) : t.get f = x.get f := by
    rw [ht.get f (by rwa [hf]) (by rwa [hf]) (by rwa [hf]), heff.get]
    rw [hf]
    exact fun hm => loopStat_ne_grpStat hg (List.mem_singleton.mp hm)
  have hflag (f : Fld) (hf : f.addr = BLV_CLE_L_STAT n) : t.on f = d.on f :=
    State.on_congr (ht.get f (by rwa [hf]) (by rwa [hf]) (by rwa [hf]))
  have hdual : x.get RFX_DUAL_EN_MASK = s.get RFX_DUAL_EN_MASK := hat.same.get (loopReg_ctrl hg).2
  refine ⟨⟨w, (congrArg LoopSt.out (ht.loopOf n)).trans hw, hvalue, ?_, hr, hy⟩, ⟨w', (ht.loopOf n).trans hloop⟩,
    (hgroup (BLV_CLE_GRP_STAT_BNDRY g) rfl).trans hat.counted, (hgroup (BLV_CLE_GRP_STAT_NLOOP g) rfl).trans hat.nloop, ?_,
    fun hi => (hflag (BLV_CLE_L_STAT_ISAT n) rfl).trans (hisat hi), fun hu => (hflag (BLV_CLE_L_STAT_USAT n) rfl).trans (husat hu),
    fun m hm => (ht.loopOf m).trans ((hothers m hm).trans (hat.same.loops m)),
    fun a => (ht.mem a).trans ((heff.keeps .mem (by decide) a).trans (hat.mem a))⟩
  · rw [hwdue, hdual]
    rfl
  · rw [ht.grpLast, hlast]
    exact hat.last

theorem LoopSame.loopStat {x : State} (hg : g < 8) (hn : n < 64) (h : LoopSame g s x) (f : Fld) (hf : f.addr = BLV_CLE_L_STAT n) :
    x.get f = s.get f :=
  h.get (loopReg_own hg (m := n) (by omega) (by rw [hf]; unfold BLV_CLE_L_STAT; omega))

theorem plaus_settles : (0x100005000000 ≤ BLV_CLE_PLAUS ∧ BLV_CLE_PLAUS < DGN_EPOCH ∧ BLV_CLE_PLAUS ≠ PWR_STAT) ∧
    0x100005000000 ≤ BLV_CLE_CNT_PLAUS ∧ BLV_CLE_CNT_PLAUS < DGN_EPOCH ∧ BLV_CLE_CNT_PLAUS ≠ PWR_STAT := by decide

theorem plaus_ne_loopStat (hn : n < 64) : BLV_CLE_PLAUS ≠ BLV_CLE_L_STAT n ∧ BLV_CLE_CNT_PLAUS ≠ BLV_CLE_L_STAT n := by
  simp only [BLV_CLE_L_STAT, BLV_CLE_PLAUS, BLV_CLE_CNT_PLAUS]
  omega

theorem completes_boundary_acting (hon : s.powered) (h : AloneAtBoundary s c g n) (hmodel : s.get (BLV_CLE_L_CTL_MODEL n) = 1)
    (hskip : (loopOf s n).skip = 0) (hnan : (lawAt s g n).nan = false)
    (hbad : flLe (flAbs (flAdd (loopSnapshot s g n).y (flNeg (fma (coef s n 14) (loopOf s n).up1
      (flMul (coef s n 12) (loopOf s n).yp1))))) (coef s n 11) = false)
    (hoff : s.on (BLV_CLE_L_STAT_PLAUS n) = false) (hcount : max 1 (s.get (BLV_CLE_L_CTL_PLAUSN n)) ≤ (loopOf s n).bad + 1)
    (hlt : (loopOf s n).bad < 255) (haction : s.get (BLV_CLE_L_CTL_ACTION n) = 2) :
    Completes (.compareFire c 0) s fun t => t.on (BLV_CLE_L_STAT_PLAUS n) = true ∧ t.on (BLV_CLE_L_STAT_CAUSE n) = false ∧
      t.on (BLV_CLE_L_STAT_ACTING n) = true ∧ (t.get BLV_CLE_PLAUS_MASK).testBit n = true ∧
      t.get BLV_CLE_CNT_PLAUS_VALUE = satAdd 32 (s.get BLV_CLE_CNT_PLAUS_VALUE) 1 ∧
      (∃ w, loopOf t n = { loopActing (coef s n) (loopOf s n) (loopSnapshot s g n) 2 with out := some w }) ∧
      ∃ w, (loopOf t n).out = some w ∧ w.value = coef s n 9 := by
  have hg := h.group
  have hn := h.loop
  obtain ⟨late, hdue⟩ := Option.isSome_iff_exists.mp h.due
  refine completes_boundary hon h.unit hg hdue h.dest h.unseen fun t ht => ?_
  obtain ⟨x, bnd, hat, hd⟩ := boundary_evaluates (late := late) h
  have hsame := hat.same
  have hcoef (k : Nat) (hk : k < 16) : coef x n k = coef s n k := hsame.coef hg hn k hk
  rw [lawIn_eq hg hn hsame] at hd
  have hx : x.on (BLV_CLE_L_STAT_PLAUS n) = false := (State.on_congr (hsame.loopStat hg hn _ rfl)).trans hoff
  obtain ⟨yhat, hstored⟩ := lawStored_acting (c := coef x n) (eff := s.effCyc) (bnd := bnd) (p := 0) (v := loopSnapshot s g n)
    (ulg := (loopOf s n).ulg) (o := lawAt s g n) ((hsame.ctl hg hn (f := BLV_CLE_L_CTL_MODEL n) rfl).trans hmodel) hskip hnan
    (by rw [hcoef 14 (by decide), hcoef 12 (by decide), hcoef 11 (by decide)]; exact hbad) hx
    (by rw [hsame.ctl hg hn (f := BLV_CLE_L_CTL_PLAUSN n) rfl]; exact hcount) hlt
    ((hsame.ctl hg hn (f := BLV_CLE_L_CTL_ACTION n) rfl).trans haction)
  rw [hd.trans hstored] at ht
  obtain ⟨hentered, hplaus, hcause, hmask, hcnt⟩ := enterPlaus_leaves hx hn
  have hcntX : x.get BLV_CLE_CNT_PLAUS_VALUE = s.get BLV_CLE_CNT_PLAUS_VALUE := by
    refine hsame.get (loopReg_of_ge hg ?_ ?_) <;> simp only [BLV_CLE_CNT_PLAUS_VALUE, BLV_CLE_CNT_PLAUS] <;> omega
  have hacting : loopActing (coef x n) (loopOf s n) (loopSnapshot s g n) 2 = loopActing (coef s n) (loopOf s n) (loopSnapshot s g n) 2 := by
    have hout (d : Nat → Word32) : actionOutput d 2 (loopOf s n) = d 9 := rfl
    rw [loopActing, loopActing, hout, hout, hcoef 9 (by decide)]
  rw [hcoef 9 (by decide), hacting] at ht
  generalize enterPlaus x n 0 = y at ht hplaus hcause hmask hcnt
  obtain ⟨w, hw, hvalue, -⟩ := out_outputStored (s := y) s.effCyc bnd 0 (loopSnapshot s g n) (lawAt s g n) (loopOf s n).ulg yhat
    (coef s n 9, loopActing (coef s n) (loopOf s n) (loopSnapshot s g n) 2) hn
  obtain ⟨w', hloop⟩ := loopOf_outputStored (s := y) (n := n) s.effCyc bnd 0 (loopSnapshot s g n) (lawAt s g n) (loopOf s n).ulg yhat
    (coef s n 9, loopActing (coef s n) (loopOf s n) (loopSnapshot s g n) 2)
  obtain ⟨-, -, hact, hplausKept, hcauseKept⟩ := flags_outputStored (s := y) (n := n) s.effCyc bnd 0 (loopSnapshot s g n) (lawAt s g n)
    (loopOf s n).ulg yhat (coef s n 9, loopActing (coef s n) (loopOf s n) (loopSnapshot s g n) 2)
  have heff := effect_outputStored (s := y) (n := n) s.effCyc bnd 0 (loopSnapshot s g n) (lawAt s g n) (loopOf s n).ulg yhat
    (coef s n 9, loopActing (coef s n) (loopOf s n) (loopSnapshot s g n) 2)
  generalize outputStored y s.effCyc bnd n 0 (loopSnapshot s g n) (lawAt s g n) false (loopOf s n).ulg yhat
    (coef s n 9, loopActing (coef s n) (loopOf s n) (loopSnapshot s g n) 2) = d at ht hw hloop hact hplausKept hcauseKept heff
  obtain ⟨hl1, hl2, hl3⟩ := loopStat_settles hn
  obtain ⟨⟨hp1, hp2, hp3⟩, hc1, hc2, hc3⟩ := plaus_settles
  obtain ⟨hmaskNe, hcntNe⟩ := plaus_ne_loopStat hn
  have hflag (f : Fld) (hf : f.addr = BLV_CLE_L_STAT n) : t.get f = d.get f := ht.get f (by rwa [hf]) (by rwa [hf]) (by rwa [hf])
  refine ⟨(State.on_congr ((hflag (BLV_CLE_L_STAT_PLAUS n) rfl).trans hplausKept)).trans hplaus,
    (State.on_congr ((hflag (BLV_CLE_L_STAT_CAUSE n) rfl).trans hcauseKept)).trans hcause,
    (State.on_congr (hflag (BLV_CLE_L_STAT_ACTING n) rfl)).trans hact, ?_, ?_, ⟨w', (ht.loopOf n).trans hloop⟩,
    w, (congrArg LoopSt.out (ht.loopOf n)).trans hw, hvalue⟩
  · rw [ht.get BLV_CLE_PLAUS_MASK hp1 hp2 hp3, heff.get fun hm => hmaskNe (List.mem_singleton.mp hm)]
    exact hmask
  · rw [ht.get BLV_CLE_CNT_PLAUS_VALUE hc1 hc2 hc3, heff.get fun hm => hcntNe (List.mem_singleton.mp hm), hcnt, hcntX]

theorem completes_boundary_soon (hon : s.powered) {at_ : Nat} (hc : c < 32) (hg : g < 8) (hdue : (cmpDue s c).isSome = true)
    (hdest : s.get (TIM_CMP_CTL_DEST c) = 8 + g) (hlast : tget s.grpLast g = some at_) (hnew : tget s.destSeen (8 + g) ≠ some s.cyc)
    (hsoon : s.cyc < at_ + 15600) : Completes (.compareFire c 0) s fun t =>
      t.get (BLV_CLE_GRP_STAT_OVR g) = satAdd 16 (s.get (BLV_CLE_GRP_STAT_OVR g)) 1 ∧ t.on BLV_CLE_EVT_OVR = true ∧
      t.loops = s.loops ∧ t.lanes = s.lanes ∧ t.segs = s.segs ∧
      t.get (BLV_CLE_GRP_STAT_BNDRY g) = s.get (BLV_CLE_GRP_STAT_BNDRY g) := by
  obtain ⟨late, hdue⟩ := Option.isSome_iff_exists.mp hdue
  refine completes_boundary hon hc hg hdue hdest hnew fun t ht => ?_
  have hopened := effect_boundaryOpened (s := s) (c := c) (g := g) (late := late)
  have hstat : BLV_CLE_GRP_STAT g ∉ [TIM_CMP_STAT c, TIM_CMP_EVT] := by
    simp only [List.mem_cons, List.not_mem_nil, or_false, TIM_CMP_STAT, TIM_CMP_EVT, BLV_CLE_GRP_STAT]
    omega
  have hbefore : boundarySoon (boundaryOpened s c g late) g = true := by
    unfold boundarySoon
    rw [loops_boundaryOpened.2, hlast, hopened.cyc (by decide)]
    exact decide_eq_true hsoon
  have hovr : (boundaryOpened s c g late).get (BLV_CLE_GRP_STAT_OVR g) = s.get (BLV_CLE_GRP_STAT_OVR g) := hopened.get hstat
  have hbndry : (boundaryOpened s c g late).get (BLV_CLE_GRP_STAT_BNDRY g) = s.get (BLV_CLE_GRP_STAT_BNDRY g) := hopened.get hstat
  have hloops := (loops_boundaryOpened (s := s) (c := c) (g := g) (late := late)).1
  have hlanes : (boundaryOpened s c g late).lanes = s.lanes := hopened.keeps .lanes (by decide)
  have hsegs : (boundaryOpened s c g late).segs = s.segs := hopened.keeps .segs (by decide)
  rw [groupBoundary_eq, if_pos hbefore] at ht
  generalize boundaryOpened s c g late = b at ht hovr hbndry hloops hlanes hsegs
  have heff : Effect [BLV_CLE_EVT] [] (b.count (BLV_CLE_GRP_STAT_OVR g) 1) ((b.count (BLV_CLE_GRP_STAT_OVR g) 1).setOn BLV_CLE_EVT_OVR) :=
    (Effect.refl _).setOn (by decide)
  have hall : Effect [BLV_CLE_GRP_STAT g, BLV_CLE_EVT] [] b ((b.count (BLV_CLE_GRP_STAT_OVR g) 1).setOn BLV_CLE_EVT_OVR) :=
    ((Effect.refl b).count 1 (by simp [BLV_CLE_GRP_STAT_OVR])).setOn (by simp [BLV_CLE_EVT_OVR])
  have hevt : ((b.count (BLV_CLE_GRP_STAT_OVR g) 1).setOn BLV_CLE_EVT_OVR).on BLV_CLE_EVT_OVR = true := State.on_setOn _ _ rfl (by decide)
  obtain ⟨hs1, hs2, hs3⟩ := grpStat_settles hg
  have hne : BLV_CLE_GRP_STAT g ∉ [BLV_CLE_EVT] := by
    simp only [List.mem_singleton, BLV_CLE_GRP_STAT, BLV_CLE_EVT]
    omega
  obtain ⟨hkept, -⟩ := hall.keeps .loops (by decide)
  refine ⟨?_, (State.on_congr (ht.get BLV_CLE_EVT_OVR (by decide) (by decide) (by decide))).trans hevt,
    ht.loops.trans (hkept.trans hloops), ht.lanes.trans (Eq.trans (hall.keeps .lanes (by decide)) hlanes),
    ht.segs.trans (Eq.trans (hall.keeps .segs (by decide)) hsegs), ?_⟩
  · rw [ht.get (BLV_CLE_GRP_STAT_OVR g) hs1 hs2 hs3, heff.get hne, State.get_count_self (f := BLV_CLE_GRP_STAT_OVR g) (show 16 ≤ 31 ∧ 31 < 64 by decide), hovr]
    rfl
  · rw [ht.get (BLV_CLE_GRP_STAT_BNDRY g) hs1 hs2 hs3, heff.get hne, State.get_count_apart (f := BLV_CLE_GRP_STAT_OVR g)
      (g := BLV_CLE_GRP_STAT_BNDRY g) (.inr (show 16 ≤ 31 ∧ 31 < 64 ∧ (63 < 16 ∨ 31 < 32) by decide)), hbndry]

end

/-- Settles O34: the firing opens the boundary, the loop alone in its group takes its sample or its action there, and what follows the
boundary in the command stays clear of the loops. -/
theorem boundariesEvaluateLoops : Obligations.BoundariesEvaluateLoops := by
  unfold Obligations.BoundariesEvaluateLoops
  intro s c g n hon
  refine ⟨fun h hmodel hnan => ?_, fun h hmodel hskip hnan hbad hoff hcount hlt haction => ?_,
    fun at_ hc hg hdue hdest hlast hnew hsoon => completes_boundary_soon hon hc hg hdue hdest hlast hnew hsoon⟩
  · obtain ⟨t, ht, hout, ⟨w, hloop⟩, hrest⟩ := completes_boundary_sampled hon h hmodel hnan
    refine ⟨t, ht, hout, ?_⟩
    rw [hloop]
    exact ⟨rfl, rfl, rfl, rfl, rfl, rfl, rfl, rfl, rfl, hrest⟩
  · obtain ⟨t, ht, hplaus, hcause, hacting, hmask, hcnt, ⟨w, hloop⟩, hout⟩ :=
      completes_boundary_acting hon h hmodel hskip hnan hbad hoff hcount hlt haction
    refine ⟨t, ht, hplaus, hcause, hacting, hmask, hcnt, ?_, ?_, ?_, hout⟩ <;> rw [hloop] <;> rfl

end Sys2Proof.Machine
end
section
/-! A PULL from HOST without completion, on a core that runs for a context whose registers stand in the endpoint's block. -/

namespace Sys2Proof.Machine

open Sys2Proof Sys2Proof.Machine.Reg Sys2Proof.Tests

/-- A teardown sets the context's FAULTED. -/
theorem faulted_teardown {s : State} {ctx : Nat} {t : Step} (h : stepOf s ctx = some t) (cause seq code lcore : Nat) :
    (teardown s ctx cause seq code lcore).on (SCH_CTX_CTL_FAULTED ctx) = true := by
  have hctl : SCH_CTX_CTL ctx ≠ SCH_CTX_FAULT ctx ∧ SCH_CTX_CTL ctx ≠ SCH_CTX_STAT ctx ∧ SCH_CTX_CTL ctx ≠ SCH_CNT_TEARDOWN ∧
      SCH_CTX_CTL ctx ≠ SCH_EVT := by
    unfold SCH_CTX_CTL SCH_CTX_FAULT SCH_CTX_STAT SCH_CNT_TEARDOWN SCH_EVT
    omega
  obtain ⟨hfault, hstat, hcnt, hevt⟩ := hctl
  unfold teardown
  rw [h]
  simp only
  generalize State.put _ (SCH_CTX_SCONS_INDEX ctx) _ = x
  have hset : (x.setOn (SCH_CTX_CTL_FAULTED ctx)).on (SCH_CTX_CTL_FAULTED ctx) = true := State.on_setOn x _ rfl (show 1 < 64 by decide)
  generalize x.setOn (SCH_CTX_CTL_FAULTED ctx) = y at hset
  have heff (v : Word64) : Effect [SCH_CTX_FAULT ctx, SCH_CNT_TEARDOWN, SCH_EVT, SCH_CTX_STAT ctx] [.sched] y
      ((((y.wr (SCH_CTX_FAULT ctx) v).count SCH_CNT_TEARDOWN_VALUE 1).setOn SCH_EVT_TEARDOWN).dropStep ctx) :=
    ((((((Effect.refl y).wr v (by simp)).count 1 (by simp [SCH_CNT_TEARDOWN_VALUE])).setOn (by simp [SCH_EVT_TEARDOWN])).sched _
      (by decide)).syncCtx (by simp))
  rw [(heff _).on (f := SCH_CTX_CTL_FAULTED ctx) (by simp [hfault, hstat, hcnt, hevt, SCH_CTX_CTL_FAULTED])]
  exact hset

theorem sched_mirrorWrite (s : State) (a : Nat) (bs : List Byte) : (mirrorWrite s a bs).sched = s.sched := by
  unfold mirrorWrite
  generalize s.plt = l
  induction l generalizing s with
  | nil => rfl
  | cons p l ih =>
    rw [List.foldl_cons, ih]
    simp only
    split <;> rfl

theorem sched_writeLines (s : State) (n ref ofs : Nat) (bs : List Byte) : (writeLines s n ref ofs bs).sched = s.sched := by
  unfold writeLines
  simp only
  generalize ceilDiv bs.length 512 = k
  induction k with
  | zero => rfl
  | succ k ih =>
    rw [forUpTo_succ, sched_mirrorWrite]
    exact ih

theorem sched_advanceTail (s : State) (n ref ofs k c : Nat) : (advanceTail s n ref ofs k c).sched = s.sched := by
  unfold advanceTail
  simp only
  split <;> rfl

/-- A tile that lands leaves the scheduler. -/
theorem sched_landTile (s : State) (n : Nat) (c : Cmd) (i : Nat) (bs : List Byte) : (landTile s n c i bs).sched = s.sched := by
  unfold landTile
  simp only
  rw [setCmd, sched_setCore, sched_setCore, State.countWrap_sched]
  split
  · exact sched_writeLines ..
  · rw [sched_advanceTail, sched_writeLines]

/-- A context number whose control register is the count of reads without completion. -/
def strayContext : Nat := 0x62002

/-- A PULL from HOST on core 0 for that context, whose step has no logical core. -/
def strayPull : State :=
  { (sHost 1).wr (SCH_CTX_WIN strayContext) 0x0100000000000000#64 with
    cores := [(0, { (coreOf (sHost 1) 0) with job := some (strayContext, 0) })]
    plt := [(1, { obj1 with tier := 4, ctx := strayContext })]
    sched := { schedReset with steps := [(strayContext, stepW [] [])] } }

theorem pullFails_of_job {s : State} {n ctx k : Nat} (h : jobOf s n = some (ctx, k)) (c : Cmd) (tile : Nat) :
    pullFails s n c tile = teardown ((landTile s n c tile []).logUe 0 n 1 ctx none) ctx 2 0 0 k := by
  unfold pullFails
  rw [h]

/-- The read counted, the state before its PULL fails. -/
def strayCounted : State := (strayPull.count (FLD_PCI_CNT_VALUE 0) 1).setOn FLD_PCI_EVT_CTO

theorem exec_strayPull : ∃ c, exec (.pcieCompletionTimeout 0 0) strayPull = finish strayPull (pullFails strayCounted 0 c 0) := by
  have hsome : (hostPull strayPull 0 0).isSome = true := by decide
  obtain ⟨c, hc⟩ := Option.isSome_iff_exists.mp hsome
  have hlive : coreLive strayPull 0 = true := by decide
  refine ⟨c, ?_⟩
  show execPcieCompletionTimeout 0 0 strayPull = _
  unfold execPcieCompletionTimeout
  simp only [Nat.zero_mod, Nat.zero_div, hc, hlive, if_true]
  rfl

/-- Refutes O47: the teardown of the context whose PULL got no completion sets FAULTED, for this context number bit 1 of the count of
reads without completion, which was 0 and is not 1 then. -/
theorem not_pcieServesTheHost : ¬ Obligations.PcieServesTheHost := by
  intro h
  obtain ⟨-, -, -, -, -, -, hpull, -⟩ := h strayPull (by decide)
  obtain ⟨c, hexec⟩ := exec_strayPull
  obtain ⟨t, hs, -, hcount⟩ := (hpull 0 0 (.inl ⟨rfl, by decide, by decide⟩)).settled hexec (by decide)
  have hstep : stepOf ((landTile strayCounted 0 c 0 []).logUe 0 0 1 strayContext none) strayContext = some (stepW [] []) := by
    show tget (landTile strayCounted 0 c 0 []).sched.steps strayContext = _
    rw [sched_landTile]
    decide
  have hfaulted := faulted_teardown hstep 2 0 0 0
  rw [← pullFails_of_job (s := strayCounted) (n := 0) (k := 0) (by decide), ← hs.on (f := SCH_CTX_CTL_FAULTED strayContext) (by decide)
    (by decide)] at hfaulted
  have hbit : (t.get (FLD_PCI_CNT_VALUE 0)).testBit 1 = true := by
    rw [State.get, testBit_bitsOf]
    have := State.testBit_rd_of_on (f := SCH_CTX_CTL_FAULTED strayContext) rfl hfaulted
    exact this
  rw [hcount] at hbit
  exact absurd hbit (by decide)

end Sys2Proof.Machine
end
section
/-! Accesses of harts and the host, scrubbing, refresh and training (R180, R196, R205, R210, R211, R223). -/

namespace Sys2Proof.Machine

open Sys2Proof Sys2Proof.Machine.Reg

section

variable {s : State} {who : Initiator} {addr len i : Nat} {data : List Byte} {e : PltEntry}

/-! ### A look-up leaves what an access reads -/

theorem poisonedIn_lookup (a b n : Nat) : poisonedIn (s.lookup a) b n = poisonedIn s b n := by
  obtain h | ⟨v, c, m, h⟩ := lookup_cases s a <;> rw [h]
  rfl

theorem unpublished_lookup (a ctx : Nat) : unpublished (s.lookup a) ctx e = unpublished s ctx e := by
  obtain h | ⟨v, c, m, h⟩ := lookup_cases s a <;> rw [h]
  rfl

theorem poison_lookup (a : Nat) : (s.lookup a).poison = s.poison := by
  obtain h | ⟨v, c, m, h⟩ := lookup_cases s a <;> rw [h]
  rfl

theorem ddrHeld_lookup (a : Nat) : ddrHeld (s.lookup a) = ddrHeld s := by
  rw [ddrHeld, ddrHeld, (effect_lookup_miss a).on (by decide), (effect_lookup_miss a).get (by decide)]

theorem ctxOf_lookup (a : Nat) : ctxOf (s.lookup a) who = ctxOf s who := by
  cases who with
  | app h => exact congrArg (fun w : Word64 => bitsOf w.toNat (8 * h + 5) (8 * h)) (rd_lookup s (by decide))
  | ctl h => rfl
  | pcie => exact (effect_lookup_miss a).get (by decide)

/-! ### An access that meets no error of its own (R180) -/

theorem eccNote_zero (a n : Nat) : s.eccNote e a n 0 = s := by
  unfold State.eccNote
  rw [if_neg (by simp), if_neg (by simp)]

theorem eccBad_zero (tier b : Nat) : eccBad s tier b 0 = false := rfl

theorem exec_fasAccess (write : Bool) : exec (.fasAccess who write addr len data 0 0) s = finish s (fasAccess s who write addr len data 0) := by
  show finish s (fasAccess s who write addr len data (if addr / 32 + 0 ≤ (addr + len - 1) / 32 then 0 % 4 + 4 * 0 else 0)) = _
  rw [show (0 % 4 + 4 * 0 : Nat) = 0 from rfl, ite_self]

/-- A read of an object that can be read answers its bytes. -/
theorem fasServe_read {u : State} (hpub : unpublished u (ctxOf u who) e = false) (htier : e.tier ≠ 4)
    (hpoison : poisonedIn u (objPlace e (addr - e.base * 65536)) len = []) :
    fasServe u who false addr len data 0 i e = u.answer (.bytes (objRead u e (addr - e.base * 65536) len)) := by
  unfold fasServe
  simp only [Bool.false_eq_true, if_false, eccNote_zero, hpub, htier, false_and, hpoison, eccBad_zero]

theorem completes_fasAccess_read (hon : s.powered) (hj : fasJudge s who false addr len = .ok (i, e))
    (hpub : unpublished s (ctxOf s who) e = false) (htier : e.tier ≠ 4) (hheld : e.tier = 3 → ddrHeld s = false)
    (hpoison : poisonedIn s (objPlace e (addr - e.base * 65536)) len = []) :
    Completes (.fasAccess who false addr len data 0 0) s fun t =>
      t.bus = .bytes (objRead (s.lookup addr) e (addr - e.base * 65536) len) ∧
      ChangesOnly [MEM_PLT_CNT_LKMISS] [.bus, .free, .place] s t := by
  have hserved : fasAccess s who false addr len data 0 =
      (s.lookup addr).answer (.bytes (objRead (s.lookup addr) e (addr - e.base * 65536) len)) := by
    unfold fasAccess
    rw [hj]
    simp only
    rw [if_neg fun h => by rw [ddrHeld_lookup, hheld h.1] at h; exact absurd h.2 (by decide)]
    exact fasServe_read (by rw [ctxOf_lookup, unpublished_lookup]; exact hpub) htier (by rw [poisonedIn_lookup]; exact hpoison)
  refine completes_of_settled (exec_fasAccess false) hon fun t hs => ?_
  rw [hserved] at hs
  exact ⟨hs.bus, hs.changesOnly (((effect_lookup_miss addr).mono (List.Subset.refl _) (by decide)).answer _ (by decide))⟩

/-! ### Writes (R196, R200) -/

/-- A write of a step marks the object as unpublished, and nothing else of it. -/
theorem markPublication_cases (h : tget s.plt i = some e) (tag : Option Nat) : ∃ p g b w,
    markPublication s i e tag = { s with plt := p, tags := g } ∧ tget p i = some { e with unc := b, wtag := w } := by
  have hset (t : Nat) : tget (s.setObj i { e with unc := true, wtag := t }).plt i = some { e with unc := true, wtag := t } := tget_tset_same ..
  unfold markPublication
  cases tag with
  | none => exact ⟨s.plt, s.tags, e.unc, e.wtag, rfl, h⟩
  | some t =>
    simp only
    split
    · exact ⟨s.plt, s.tags, e.unc, e.wtag, rfl, h⟩
    · split <;> split
      · exact ⟨_, _, _, _, rfl, h⟩
      · split <;> exact ⟨_, _, _, _, rfl, h⟩
      · exact ⟨_, _, _, _, rfl, hset t⟩
      · split <;> exact ⟨_, _, _, _, rfl, hset t⟩

/-- Bytes written into an object that no migration copies. -/
theorem objWrite_resting (h2 : e.st ≠ 2) (h3 : e.st ≠ 3) (ofs : Nat) (bs : List Byte) :
    objWrite s i e ofs bs = (s.store (objPlace e ofs) bs).unpoison (objPlace e ofs) bs.length := by
  have hcopy : inCopy e ofs = false := by simp [inCopy, h2, h3]
  unfold objWrite
  simp only [hcopy, Bool.false_eq_true, if_false, h2, h3, or_self, false_and]

/-- Where nothing is poisoned, a write has nothing to clear. -/
theorem unpoison_clean {u : State} (h : u.poison = []) (a n : Nat) : u.unpoison a n = u := by
  obtain ⟨⟩ := u
  obtain rfl : _ = [] := h
  rfl

theorem fasServe_write {u : State} (hplt : tget u.plt i = some e) (htier : e.tier ≠ 4) (h2 : e.st ≠ 2) (h3 : e.st ≠ 3) (hpoison : u.poison = []) :
    ∃ p g, fasServe u who true addr len data 0 i e = (({ u with plt := p, tags := g } : State).store
      (objPlace e (addr - e.base * 65536)) (padBytes len data)).answer .none := by
  have hclean (l : List Nat) (f : Nat → Bool) : l.filter (fun b => b ∈ u.poison || (f b && false && blockProtected u b)) = [] := by
    simp [hpoison]
  unfold fasServe
  simp only [if_true, eccNote_zero, ite_self, htier, false_and, if_false, eccBad_zero, hclean]
  obtain ⟨p, g, b, w, hmark, hget⟩ := markPublication_cases hplt (if stepBitOf u who = true then runningTag u (ctxOf u who) else none)
  refine ⟨p, g, ?_⟩
  rw [hmark, tgetD, hget]
  refine congrArg (State.answer · .none) ((objWrite_resting (e := { e with unc := b, wtag := w }) h2 h3 _ _).trans ?_)
  exact unpoison_clean (u := ({ u with plt := p, tags := g } : State).store _ _) hpoison _ _

theorem Effect.marked {regs : List Nat} {parts : List Part} {t : State} (h : Effect regs parts s t) (p : Tbl PltEntry) (g : Tbl TagState)
    (hp : Part.place ∈ parts) : Effect regs parts s { t with plt := p, tags := g } :=
  h.components rfl fun q hq => by
    cases q
    case place => exact absurd hp hq
    all_goals simp [Keeps]

theorem completes_fasAccess_write (hon : s.powered) (hj : fasJudge s who true addr len = .ok (i, e)) (hplt : tget s.plt i = some e)
    (htier : e.tier ≠ 4) (h2 : e.st ≠ 2) (h3 : e.st ≠ 3) (hheld : e.tier = 3 → ddrHeld s = false) (hpoison : s.poison = []) :
    Completes (.fasAccess who true addr len data 0 0) s fun t =>
      (∀ a, memGet t.mem a = memGet (s.store (objPlace e (addr - e.base * 65536)) (padBytes len data)).mem a) ∧
      t.poison = [] ∧ ChangesOnly [MEM_PLT_CNT_LKMISS] [.mem, .bus, .free, .place] s t := by
  have hserved : fasAccess s who true addr len data 0 = fasServe (s.lookup addr) who true addr len data 0 i e := by
    unfold fasAccess
    rw [hj]
    simp only
    rw [if_neg fun h => by rw [ddrHeld_lookup, hheld h.1] at h; exact absurd h.2 (by decide)]
  have hlook : Effect [MEM_PLT_CNT_LKMISS] [.mem, .bus, .free, .place] s (s.lookup addr) :=
    (effect_lookup_miss addr).mono (List.Subset.refl _) (by decide)
  have hmem : (s.lookup addr).mem = s.mem := mem_lookup s addr
  have hclean : (s.lookup addr).poison = [] := (poison_lookup addr).trans hpoison
  obtain ⟨p, g, hwrote⟩ := fasServe_write (who := who) (addr := addr) (len := len) (data := data) (u := s.lookup addr)
    (by rw [plt_lookup]; exact hplt) htier h2 h3 hclean
  refine completes_of_settled (exec_fasAccess true) hon fun t hs => ?_
  rw [hserved, hwrote] at hs
  generalize s.lookup addr = u at hs hlook hmem hclean
  refine ⟨fun a => ?_, hs.poison.trans hclean, hs.changesOnly (((hlook.marked p g (by decide)).store _ _ (by decide)).answer _ (by decide))⟩
  rw [hs.mem]
  show memGet (memWrite u.mem _ _) a = memGet (memWrite s.mem _ _) a
  rw [hmem]

/-! ### Accesses that wait, and violations (R25, R26, R223) -/

theorem Effect.waiting {regs : List Nat} {parts : List Part} {t : State} (h : Effect regs parts s t) (x : List HeldAccess)
    (hp : Part.waiting ∈ parts) : Effect regs parts s { t with held := x } :=
  h.components rfl fun q hq => by
    cases q
    case waiting => exact absurd hp hq
    all_goals simp [Keeps]

theorem completes_fasAccess_waits (hon : s.powered) (write : Bool) (hj : fasJudge s who write addr len = .ok (i, e)) (htier : e.tier = 3)
    (hheld : ddrHeld s = true) : Completes (.fasAccess who write addr len data 0 0) s fun t =>
      t.held = s.held ++ [{ since := s.cyc, who := who, write := write, addr := addr, len := len, data := data, ecc := 0
                            obj := i, entry := e }] ∧
      t.bus = .none ∧ ChangesOnly [MEM_PLT_CNT_LKMISS] [.bus, .free, .place, .waiting] s t := by
  have hlook := effect_lookup_miss (s := s) addr
  have hwaits : fasAccess s who write addr len data 0 =
      State.answer { s.lookup addr with held := s.held ++ [{ since := s.cyc, who := who, write := write, addr := addr, len := len, data := data
                                                             ecc := 0, obj := i, entry := e }] } .none := by
    have hkept : (s.lookup addr).held = s.held := hlook.keeps .waiting (by decide)
    have hcyc : (s.lookup addr).cyc = s.cyc := hlook.cyc (by decide)
    unfold fasAccess
    rw [hj]
    simp only
    rw [if_pos ⟨htier, (ddrHeld_lookup addr).trans hheld⟩, hkept, hcyc]
    rfl
  refine completes_of_settled (exec_fasAccess write) hon fun t hs => ?_
  rw [hwaits] at hs
  exact ⟨hs.held, hs.bus, hs.changesOnly (((hlook.mono (List.Subset.refl _) (by decide)).waiting _ (by decide)).answer _ (by decide))⟩

theorem cause_of_fasJudge {write : Bool} {c : Nat} (h : fasJudge s who write addr len = .error c) : c < 7 := by
  unfold fasJudge at h
  extract_lets ctx form window closed low at h
  have hlow (c : Nat) (hc : c < 7) : low c < 7 := by
    show (if form then min c 1 else c) < 7
    split <;> omega
  split at h
  · obtain rfl := Except.error.inj h
    decide
  · split at h
    · obtain rfl := Except.error.inj h
      exact hlow 6 (by decide)
    · split at h
      next c' hres =>
        obtain rfl := Except.error.inj h
        exact hlow c' (cause_of_resolve hres)
      · split at h
        · obtain rfl := Except.error.inj h
          decide
        · exact nomatch h

theorem completes_fasAccess_violation (hon : s.powered) {c : Nat} (write : Bool) (hj : fasJudge s who write addr len = .error c)
    (hvio : s.vioAt ≠ some s.cyc) : Completes (.fasAccess who write addr len data 0 0) s fun t =>
      t.bus = (if write then .none else .bytes (List.replicate len 0#8)) ∧ t.mem = s.mem ∧
      t.get (DGN_VIO_CNT_VALUE c) = satAdd 32 (s.get (DGN_VIO_CNT_VALUE c)) 1 ∧ t.get DGN_VIO_LAST_CAUSE = c ∧
      t.on DGN_EVT_VIO = true ∧
      ChangesOnly [MEM_PLT_CNT_LKMISS, DGN_VIO_CNT c, DGN_VIO_TOTAL, DGN_VIO_LAST] [.bus, .free, .place, .vio] s t := by
  have hc := cause_of_fasJudge hj
  have hlook : Effect [MEM_PLT_CNT_LKMISS] [.place, .free] s (s.looked (ctxOf s who) addr len) :=
    Effect.ite (fun _ => effect_lookup_miss addr) fun _ => Effect.refl s
  have hmem : (s.looked (ctxOf s who) addr len).mem = s.mem := by
    unfold State.looked
    split
    · exact mem_lookup s addr
    · rfl
  have hdone : fasAccess s who write addr len data 0 =
      ((s.looked (ctxOf s who) addr len).violation c (initCode who) (ctxOf s who) addr write).answer
        (if write then .none else .bytes (List.replicate len 0#8)) := by
    unfold fasAccess
    rw [hj]
  have hcnt : DGN_VIO_CNT c ≠ MEM_PLT_CNT_LKMISS ∧ DGN_VIO_CNT c ≠ DGN_CNT_MERGE ∧ DGN_VIO_CNT c ≠ DGN_EVT ∧ DGN_VIO_CNT c ≠ DGN_VIO_LAST ∧
      DGN_VIO_CNT c ≠ DGN_VIO_TOTAL := by
    unfold DGN_VIO_CNT DGN_CNT_MERGE DGN_EVT DGN_VIO_LAST DGN_VIO_TOTAL MEM_PLT_CNT_LKMISS
    omega
  obtain ⟨hmiss, hmerge, hevt, hlast, htotal⟩ := hcnt
  have hcount : (s.looked (ctxOf s who) addr len).get (DGN_VIO_CNT_VALUE c) = s.get (DGN_VIO_CNT_VALUE c) :=
    hlook.get fun hm => hmiss (List.mem_singleton.mp hm)
  have hvio' : (s.looked (ctxOf s who) addr len).vioAt ≠ some (s.looked (ctxOf s who) addr len).cyc := by
    rw [hlook.keeps .vio (by decide), hlook.cyc (by decide)]
    exact hvio
  have hexec : exec (.fasAccess who write addr len data 0 0) s = finish s _ := (exec_fasAccess write).trans (congrArg (finish s) hdone)
  refine completes_of_settled_events hexec hon fun t hs hev => ?_
  generalize s.looked (ctxOf s who) addr len = u at hs hev hlook hmem hcount hvio'
  have hviol := violation_first hvio' c (initCode who) (ctxOf s who) addr write
  have heff := effect_violation (parts := [.bus, .free, .place, .vio]) (by decide) hvio' c (initCode who) (ctxOf s who) addr write
  have hall : Effect (DGN_CNT_MERGE :: DGN_EVT :: [MEM_PLT_CNT_LKMISS, DGN_VIO_CNT c, DGN_VIO_TOTAL, DGN_VIO_LAST]) [.bus, .free, .place, .vio] s
      ((u.violation c (initCode who) (ctxOf s who) addr write).answer (if write then .none else .bytes (List.replicate len 0#8))) :=
    ((hlook.mono (by simp) (by simp)).trans (heff.mono (by simp) (List.Subset.refl _))).answer _ (by decide)
  have hmem' : (u.violation c (initCode who) (ctxOf s who) addr write).mem = u.mem := by
    rw [hviol]
    rfl
  have hget (f : Fld) (hm : f.addr ≠ DGN_CNT_MERGE) (he : f.addr ≠ DGN_EVT) : t.get f =
      (vioRecorded (vioCounted u c) (vioLast c (initCode who) (ctxOf s who) addr write)).get f := by
    rw [hs.get f hm he]
    show (u.violation c (initCode who) (ctxOf s who) addr write).get f = _
    rw [hviol, State.get_setOn_apart (.inl he)]
  have hinit : initCode who < 8 := by cases who <;> simp [initCode]
  refine ⟨hs.bus, hs.mem.trans (hmem'.trans hmem), ?_, ?_, ?_, hs.changesOnly_pulsed hall⟩
  · rw [hget _ hmerge hevt, get_vioRecorded_other _ _ hlast]
    refine ((State.get_count_apart (.inl htotal) 1).trans (State.get_count_self (show 0 ≤ 31 ∧ 31 < 64 by decide) 1)).trans ?_
    rw [hcount]
    rfl
  · obtain ⟨-, -, -, -, hcause, -⟩ := bitsOf_vioLast (Nat.lt_of_lt_of_le hc (by decide)) hinit (ctxOf s who) addr write
    exact (hget _ (by decide) (by decide)).trans ((get_vioRecorded_last _ (vioLast_lt ..) 50 48).trans hcause)
  · rw [hev.on rfl (by decide)]
    show (u.violation c (initCode who) (ctxOf s who) addr write).on DGN_EVT_VIO = true
    rw [hviol]
    exact State.on_setOn _ _ rfl (by decide)

end

section

variable {s : State}

/-! ### Scrubbing (R210, R211) -/

/-- Blocks corrected in line counted. -/
def scrubCounted (s : State) (k : Nat) : State := if k = 0 then s else (s.count MEM_ECC_CEI_VALUE k).setOn MEM_EVT_CE

/-- The scrubber at its next unit. -/
def scrubMoved (s : State) (next : Nat) : State := { s.put MEM_SCRUB_STAT_POS next with scrubSince := s.cyc }

/-- A pass counted where it ended. -/
def scrubPassed (s : State) (ended : Bool) : State := if ended then (s.countWrap MEM_SCRUB_STAT_PASSES 1).setOn MEM_EVT_SCRUB else s

theorem exec_scrubTile (ce : List Nat) (hen : s.on MEM_SCRUB_CFG_ENABLE = true) (hddr : s.on MEM_DDR_CTRL_ENABLE = true)
    (hheld : ddrHeld s = false) (hsome : protRanges s ≠ [])
    (htime : s.scrubSince + max 1 (s.get MEM_SCRUB_CFG_PERIOD) * 1000 ≤ s.cyc)
    (hpos : ∃ r ∈ protRanges s, r.1 ≤ s.get MEM_SCRUB_STAT_POS ∧ s.get MEM_SCRUB_STAT_POS < r.1 + r.2.2) (hpoison : s.poison = []) :
    exec (.scrubTile ce []) s = finish s (scrubPassed (scrubMoved (scrubCounted s ((List.range 2048).filter (· ∈ ce)).length)
      (scrubNext (protRanges s) (s.get MEM_SCRUB_STAT_POS)).1) (scrubNext (protRanges s) (s.get MEM_SCRUB_STAT_POS)).2) := by
  have hguard : (!s.on MEM_SCRUB_CFG_ENABLE || !s.on MEM_DDR_CTRL_ENABLE || ddrHeld s || (protRanges s).isEmpty ||
      decide (s.cyc < s.scrubSince + max 1 (s.get MEM_SCRUB_CFG_PERIOD) * 1000)) = false := by
    rw [hen, hddr, hheld, List.isEmpty_eq_false_iff.mpr hsome, decide_eq_false (by omega)]
    rfl
  have hany : ((protRanges s).any fun r => r.1 ≤ s.get MEM_SCRUB_STAT_POS && s.get MEM_SCRUB_STAT_POS < r.1 + r.2.2) = true := by
    obtain ⟨r, hr, h1, h2⟩ := hpos
    exact List.any_eq_true.mpr ⟨r, hr, by rw [decide_eq_true h1, decide_eq_true h2]; rfl⟩
  have hcount (l : List Nat) : (if l.isEmpty then s else (s.count MEM_ECC_CEI_VALUE l.length).setOn MEM_EVT_CE) = scrubCounted s l.length := by
    unfold scrubCounted
    cases l <;> rfl
  show finish s _ = _
  congr 1
  simp only [hguard, Bool.false_eq_true, if_false, hany, if_true, hpoison, List.not_mem_nil, decide_false, Bool.or_false,
    List.filter_false, Bool.not_false, Bool.and_true, List.foldl_nil, hcount]
  rfl

/-- What counting corrected blocks leaves. -/
theorem scrubCounted_leaves (k : Nat) : Effect [MEM_ECC_CEI, MEM_EVT] [] s (scrubCounted s k) ∧
    (scrubCounted s k).get MEM_ECC_CEI_VALUE = satAdd 32 (s.get MEM_ECC_CEI_VALUE) k := by
  unfold scrubCounted
  split
  next h =>
    refine ⟨Effect.refl s, ?_⟩
    have hlt : s.get MEM_ECC_CEI_VALUE < 2 ^ 32 := s.get_lt MEM_ECC_CEI_VALUE
    rw [h, satAdd]
    omega
  next h =>
    refine ⟨((Effect.refl s).count k (by decide)).setOn (by decide), ?_⟩
    rw [State.get_setOn_apart (.inl (by decide))]
    exact State.get_count_self (by decide) k

theorem Effect.scrubSince {regs : List Nat} {parts : List Part} {t : State} (h : Effect regs parts s t) (x : Nat) (hp : Part.place ∈ parts) :
    Effect regs parts s { t with scrubSince := x } :=
  h.components rfl fun q hq => by
    cases q
    case place => exact absurd hp hq
    all_goals simp [Keeps]

/-- What the scrubber's move leaves. -/
theorem scrubMoved_leaves (next : Nat) : Effect [MEM_SCRUB_STAT] [.place] s (scrubMoved s next) ∧ (scrubMoved s next).scrubSince = s.cyc ∧
    (scrubMoved s next).get MEM_SCRUB_STAT_POS = next % 2 ^ 20 ∧
    (scrubMoved s next).get MEM_SCRUB_STAT_PASSES = s.get MEM_SCRUB_STAT_PASSES :=
  ⟨((Effect.refl s).put next (by decide)).scrubSince _ (by decide), rfl, State.get_put_self (by decide) _,
    State.get_put_apart (.inr (by decide)) _⟩

/-- What the end of a pass leaves. -/
theorem scrubPassed_leaves (ended : Bool) : Effect [MEM_SCRUB_STAT, MEM_EVT] [] s (scrubPassed s ended) ∧
    (scrubPassed s ended).scrubSince = s.scrubSince ∧ (scrubPassed s ended).get MEM_SCRUB_STAT_POS = s.get MEM_SCRUB_STAT_POS ∧
    (scrubPassed s ended).get MEM_SCRUB_STAT_PASSES = (s.get MEM_SCRUB_STAT_PASSES + ofBool ended) % 2 ^ 32 := by
  cases ended
  · refine ⟨Effect.refl s, rfl, rfl, ?_⟩
    exact (Nat.mod_eq_of_lt (s.get_lt MEM_SCRUB_STAT_PASSES)).symm
  · refine ⟨((Effect.refl s).countWrap 1 (by decide)).setOn (by decide), rfl, ?_, ?_⟩
    · exact (State.get_setOn_apart (.inl (by decide))).trans (State.get_countWrap_apart (.inr (by decide)) 1)
    · exact (State.get_setOn_apart (.inl (by decide))).trans (State.get_countWrap (by decide) 1)

theorem completes_scrubTile (hon : s.powered) (ce : List Nat) (hen : s.on MEM_SCRUB_CFG_ENABLE = true) (hddr : s.on MEM_DDR_CTRL_ENABLE = true)
    (hheld : ddrHeld s = false) (hsome : protRanges s ≠ [])
    (htime : s.scrubSince + max 1 (s.get MEM_SCRUB_CFG_PERIOD) * 1000 ≤ s.cyc)
    (hpos : ∃ r ∈ protRanges s, r.1 ≤ s.get MEM_SCRUB_STAT_POS ∧ s.get MEM_SCRUB_STAT_POS < r.1 + r.2.2) (hpoison : s.poison = []) :
    Completes (.scrubTile ce []) s fun t =>
      t.get MEM_SCRUB_STAT_POS = (scrubNext (protRanges s) (s.get MEM_SCRUB_STAT_POS)).1 % 2 ^ 20 ∧ t.scrubSince = s.cyc ∧
      t.get MEM_ECC_CEI_VALUE = satAdd 32 (s.get MEM_ECC_CEI_VALUE) ((List.range 2048).filter (· ∈ ce)).length ∧
      t.get MEM_SCRUB_STAT_PASSES = (s.get MEM_SCRUB_STAT_PASSES +
        ofBool (scrubNext (protRanges s) (s.get MEM_SCRUB_STAT_POS)).2) % 2 ^ 32 ∧
      ChangesOnly [MEM_SCRUB_STAT, MEM_ECC_CEI, MEM_EVT] [.place] s t := by
  refine completes_of_settled (exec_scrubTile ce hen hddr hheld hsome htime hpos hpoison) hon fun t hs => ?_
  generalize ((List.range 2048).filter (· ∈ ce)).length = k at hs
  generalize scrubNext (protRanges s) (s.get MEM_SCRUB_STAT_POS) = next at hs
  obtain ⟨hcounted, hcount⟩ := scrubCounted_leaves (s := s) k
  generalize scrubCounted s k = a at hs hcounted hcount
  obtain ⟨hmoved, hsince, hat, hsame⟩ := scrubMoved_leaves (s := a) next.1
  generalize scrubMoved a next.1 = b at hs hmoved hsince hat hsame
  obtain ⟨hpassed, hsince', hat', hpasses⟩ := scrubPassed_leaves (s := b) next.2
  generalize scrubPassed b next.2 = c at hs hpassed hsince' hat' hpasses
  refine ⟨?_, ?_, ?_, ?_, hs.changesOnly (((hcounted.mono (by simp) (by simp)).trans (hmoved.mono (by simp) (by simp))).trans
    (hpassed.mono (by simp) (by simp)))⟩
  · rw [hs.get _ (by decide) (by decide), hat', hat]
  · rw [hs.scrubSince, hsince', hsince, hcounted.cyc (by decide)]
  · rw [hs.get _ (by decide) (by decide), hpassed.get (by decide), hmoved.get (by decide), hcount]
  · rw [hs.get _ (by decide) (by decide), hpasses, hsame, hcounted.get (by decide)]

/-- The control PSRAM scrubber past a KiB. -/
def psramMoved (s : State) (d k pos : Nat) : State :=
  { s.count (BLV_HRC_CE_VALUE d) k with psScrubSince := tset s.psScrubSince d s.cyc }.put (BLV_HRC_SCRUB_POS d) pos

theorem exec_psramScrub {d : Nat} (ce : List Nat) (hd : d < 2) (hen : s.on (BLV_HRC_CTRL_SCRUB d) = true)
    (htime : tgetD s.psScrubSince d 0 + 512000 ≤ s.cyc) (hpoison : s.poison = []) (hpos : s.get (BLV_HRC_SCRUB_POS d) + 1 < 61440) :
    exec (.psramScrub d ce []) s = finish s (psramMoved s d ((List.range 32).filter (· ∈ ce)).length (s.get (BLV_HRC_SCRUB_POS d) + 1)) := by
  have hmod : s.get (BLV_HRC_SCRUB_POS d) % 61440 = s.get (BLV_HRC_SCRUB_POS d) := Nat.mod_eq_of_lt (by omega)
  have hguard : ¬ (2 ≤ d ∨ (!s.on (BLV_HRC_CTRL_SCRUB d)) = true ∨ s.cyc < tgetD s.psScrubSince d 0 + 512000) := by
    rw [hen]
    simp only [Bool.not_true, Bool.false_eq_true, false_or]
    omega
  show finish s _ = _
  congr 1
  rw [if_neg hguard]
  simp only [hmod, hpos, if_true, hpoison, List.not_mem_nil, decide_false, Bool.or_false, List.filter_false, Bool.not_false, Bool.and_true,
    List.foldl_nil]
  rfl

theorem Effect.psScrubSince {regs : List Nat} {parts : List Part} {t : State} (h : Effect regs parts s t) (x : Tbl Nat)
    (hp : Part.place ∈ parts) : Effect regs parts s { t with psScrubSince := x } :=
  h.components rfl fun q hq => by
    cases q
    case place => exact absurd hp hq
    all_goals simp [Keeps]

theorem completes_psramScrub (hon : s.powered) {d : Nat} (ce : List Nat) (hd : d < 2) (hen : s.on (BLV_HRC_CTRL_SCRUB d) = true)
    (htime : tgetD s.psScrubSince d 0 + 512000 ≤ s.cyc) (hpoison : s.poison = []) (hpos : s.get (BLV_HRC_SCRUB_POS d) + 1 < 61440) :
    Completes (.psramScrub d ce []) s fun t =>
      t.get (BLV_HRC_SCRUB_POS d) = s.get (BLV_HRC_SCRUB_POS d) + 1 ∧
      t.get (BLV_HRC_CE_VALUE d) = satAdd 32 (s.get (BLV_HRC_CE_VALUE d)) ((List.range 32).filter (· ∈ ce)).length ∧
      tgetD t.psScrubSince d 0 = s.cyc ∧
      ChangesOnly [(BLV_HRC_SCRUB_POS d).addr, (BLV_HRC_CE_VALUE d).addr] [.place] s t := by
  have haddr : BLV_HRC_SCRUB d < DGN_EPOCH ∧ BLV_HRC_CE d < DGN_EPOCH ∧ BLV_HRC_SCRUB d ≠ BLV_HRC_CE d := by
    unfold BLV_HRC_SCRUB BLV_HRC_CE DGN_EPOCH
    omega
  obtain ⟨hscrub, hce, hne⟩ := haddr
  refine completes_of_settled (exec_psramScrub ce hd hen htime hpoison hpos) hon fun t hs => ?_
  generalize ((List.range 32).filter (· ∈ ce)).length = k at hs
  have heff : Effect [(BLV_HRC_SCRUB_POS d).addr, (BLV_HRC_CE_VALUE d).addr] [.place] s (psramMoved s d k (s.get (BLV_HRC_SCRUB_POS d) + 1)) :=
    (((Effect.refl s).count k (by simp)).psScrubSince _ (by decide)).put _ (by simp)
  refine ⟨?_, ?_, ?_, hs.changesOnly heff⟩
  · rw [hs.get _ (segment_settles hscrub).1 (segment_settles hscrub).2]
    exact State.get_put_of_lt (f := BLV_HRC_SCRUB_POS d) (show 0 ≤ 15 ∧ 15 < 64 by decide) (show _ < 2 ^ 16 by omega)
  · rw [hs.get _ (segment_settles hce).1 (segment_settles hce).2]
    exact (State.get_put_apart (f := BLV_HRC_SCRUB_POS d) (g := BLV_HRC_CE_VALUE d) (.inl (Ne.symm hne)) _).trans
      (State.get_count_self (f := BLV_HRC_CE_VALUE d) (show 0 ≤ 31 ∧ 31 < 64 by decide) k)
  · rw [hs.psScrubSince]
    exact tgetD_tset_same ..

/-! ### Refresh and training (R205, R250) -/

theorem completes_ddrRefresh (hon : s.powered) (wait : Nat) (hen : s.on MEM_DDR_CTRL_ENABLE = true) : Completes (.ddrRefresh wait) s fun t =>
    t.get SCH_CNT_REFSTALL_VALUE = (s.get SCH_CNT_REFSTALL_VALUE + wait) % 2 ^ 64 ∧ ChangesOnly [SCH_CNT_REFSTALL] [] s t := by
  refine completes_of_settled (u := s.countWrap SCH_CNT_REFSTALL_VALUE wait) (congrArg (finish s) (if_pos hen)) hon fun t hs => ⟨?_, ?_⟩
  · rw [hs.get _ (by decide) (by decide)]
    exact State.get_countWrap (by decide) wait
  · exact hs.changesOnly ((Effect.refl s).countWrap wait (by decide))

/-- LPDDR5X trained. -/
def trainingEnded (s : State) (ode : Nat) : State :=
  ((((s.setOff MEM_DDR_STAT_RETRAIN).count MEM_ECC_ODE_VALUE ode).put MEM_DDR_STAT_GIB s.fuses.memGib).setOn MEM_DDR_STAT_READY).setOn
    MEM_EVT_RETRAIN

theorem completes_ddrRetrainEnd (hon : s.powered) (ode : Nat)
    (h : s.on MEM_DDR_STAT_READY = true → s.on MEM_DDR_STAT_RETRAIN = true ∧ ddrHeld s = true) : Completes (.ddrRetrainEnd ode) s fun t =>
      t.on MEM_DDR_STAT_RETRAIN = false ∧ t.on MEM_DDR_STAT_READY = true ∧ t.get MEM_DDR_STAT_GIB = s.fuses.memGib % 256 ∧
      t.on MEM_EVT_RETRAIN = true ∧ t.get MEM_ECC_ODE_VALUE = satAdd 32 (s.get MEM_ECC_ODE_VALUE) ode ∧
      ChangesOnly [MEM_DDR_STAT, MEM_ECC_ODE, MEM_EVT] [] s t := by
  have hguard : (s.on MEM_DDR_STAT_READY && !(s.on MEM_DDR_STAT_RETRAIN && ddrHeld s)) = false := by
    cases hr : s.on MEM_DDR_STAT_READY
    · rfl
    · rw [(h hr).1, (h hr).2]
      rfl
  have hexec : exec (.ddrRetrainEnd ode) s = finish s (trainingEnded s ode) :=
    congrArg (finish s) (if_neg (by rw [hguard]; decide))
  refine completes_of_settled hexec hon fun t hs => ?_
  have heff : Effect [MEM_DDR_STAT, MEM_ECC_ODE, MEM_EVT] [] s (trainingEnded s ode) :=
    (((((Effect.refl s).setOff (by decide)).count ode (by decide)).put _ (by decide)).setOn (by decide)).setOn (by decide)
  have hoff : (s.setOff MEM_DDR_STAT_RETRAIN).get MEM_DDR_STAT_RETRAIN = 0 := State.get_setOff (by decide)
  have hode : (s.setOff MEM_DDR_STAT_RETRAIN).get MEM_ECC_ODE_VALUE = s.get MEM_ECC_ODE_VALUE := State.get_setOff_apart (.inl (by decide))
  unfold trainingEnded at hs heff
  generalize s.setOff MEM_DDR_STAT_RETRAIN = a at hs heff hoff hode
  have hcount : (a.count MEM_ECC_ODE_VALUE ode).get MEM_ECC_ODE_VALUE = satAdd 32 (s.get MEM_ECC_ODE_VALUE) ode := by
    rw [State.get_count_self (by decide), hode]
    rfl
  have hoff' : (a.count MEM_ECC_ODE_VALUE ode).get MEM_DDR_STAT_RETRAIN = 0 := (State.get_count_apart (.inl (by decide)) ode).trans hoff
  generalize a.count MEM_ECC_ODE_VALUE ode = b at hs heff hcount hoff'
  refine ⟨?_, ?_, ?_, ?_, ?_, hs.changesOnly heff⟩
  · rw [hs.on _ (by decide) (by decide), State.on_eq_false_iff, State.get_setOn_apart (.inl (by decide)),
      State.get_setOn_apart (.inr (by decide)), State.get_put_apart (.inr (by decide)), hoff']
    decide
  · rw [hs.on _ (by decide) (by decide), State.on_eq_true_iff, State.get_setOn_apart (.inl (by decide)), State.get_setOn (by decide)]
  · rw [hs.get _ (by decide) (by decide), State.get_setOn_apart (.inl (by decide)), State.get_setOn_apart (.inr (by decide)),
      State.get_put_self (by decide)]
    rfl
  · rw [hs.on _ (by decide) (by decide)]
    exact State.on_setOn _ _ rfl (by decide)
  · rw [hs.get _ (by decide) (by decide), State.get_setOn_apart (.inl (by decide)), State.get_setOn_apart (.inl (by decide)),
      State.get_put_apart (.inl (by decide)), hcount]

end

/-- Settles O19: an access is served as its object stands, or waits, or is a violation; scrubbers, refresh and training move their own
registers. -/
theorem fabricAccessScrubRefreshAndRetrain : Obligations.FabricAccessScrubRefreshAndRetrain := by
  unfold Obligations.FabricAccessScrubRefreshAndRetrain
  refine ⟨fun s who addr len data hon => ⟨?_, ?_, ?_, ?_⟩, fun s hon => ⟨?_, ?_, ?_, ?_⟩⟩
  · exact fun i e hj hpub htier hheld hpoison => completes_fasAccess_read hon hj hpub htier hheld hpoison
  · exact fun i e hj hplt htier h2 h3 hheld hpoison => completes_fasAccess_write hon hj hplt htier h2 h3 hheld hpoison
  · exact fun i e write hj htier hheld => completes_fasAccess_waits hon write hj htier hheld
  · exact fun c write hj hvio => completes_fasAccess_violation hon write hj hvio
  · exact fun ce hen hddr hheld hsome htime hpos hpoison => completes_scrubTile hon ce hen hddr hheld hsome htime hpos hpoison
  · exact fun d ce hd hen htime hpoison hpos => completes_psramScrub hon ce hd hen htime hpoison hpos
  · exact fun wait hen => completes_ddrRefresh hon wait hen
  · exact fun ode h => completes_ddrRetrainEnd hon ode h

end Sys2Proof.Machine
end
section
/-! Migrations, the publication walk and the placement engine's enable (R195, R196, R203, R214). -/

namespace Sys2Proof.Machine

open Sys2Proof Sys2Proof.Machine.Reg

/-! ### The table's component -/

section

variable {regs : List Nat} {parts : List Part} {s t : State}

theorem Effect.placed (h : Effect regs parts s t) (hp : Part.place ∈ parts) (p : Tbl PltEntry) (m : Tbl Migration) (g : Tbl TagState)
    (c : List Nat) (d : Bool) : Effect regs parts s { t with plt := p, migs := m, tags := g, cache := c, pltDisabling := d } :=
  h.components rfl fun q hq => by
    cases q
    case place => exact absurd hp hq
    all_goals simp [Keeps]

theorem effect_reqResults (r : PltReq) (tiles : Nat) (old : Option (Nat × Nat)) : Effect [] [.mem, .free] s (s.reqResults r tiles old) := by
  have hstored := (Effect.refl (regs := []) (parts := [.mem, .free]) s).store (ringSlotPlace s r.slot + 32) (leBytes 3 tiles) (by decide)
  cases old with
  | none => exact (hstored.store _ _ (by decide)).free _ (by decide)
  | some o => exact hstored.store _ _ (by decide)

/-- The registers of a request's end. -/
def statusRegs : List Nat := [MEM_PLT_CNT_REFUSED, MEM_PLT_EVT]

theorem effect_reqStatus (r : PltReq) (status : Nat) : Effect statusRegs [.mem, .free] s (s.reqStatus r status) := by
  have hstored := (Effect.refl (regs := statusRegs) (parts := [.mem, .free]) s).store (ringSlotPlace s r.slot + 1) [BitVec.ofNat 8 status] (by decide)
  unfold State.reqStatus
  simp only
  generalize s.store (ringSlotPlace s r.slot + 1) [BitVec.ofNat 8 status] = a at hstored
  refine hstored.trans ?_
  have h1 : Effect statusRegs [.mem, .free] a (if 0x10 ≤ status ∧ status ≤ 0x17 then
      (a.count MEM_PLT_CNT_REFUSED_VALUE 1).setOn MEM_PLT_EVT_REFUSED else a) :=
    Effect.ite (fun _ => ((Effect.refl a).count 1 (by decide)).setOn (by decide)) fun _ => Effect.refl a
  generalize (if 0x10 ≤ status ∧ status ≤ 0x17 then (a.count MEM_PLT_CNT_REFUSED_VALUE 1).setOn MEM_PLT_EVT_REFUSED else a) = b at h1
  have h2 : Effect statusRegs [.mem, .free] a (if status = 0x02 then b.setOn MEM_PLT_EVT_CANCEL else b) :=
    Effect.ite (fun _ => h1.setOn (by decide)) fun _ => h1
  generalize (if status = 0x02 then b.setOn MEM_PLT_EVT_CANCEL else b) = c at h2
  have h3 : Effect statusRegs [.mem, .free] a (if status = 0x18 then c.setOn MEM_PLT_EVT_UNCORR else c) :=
    Effect.ite (fun _ => h2.setOn (by decide)) fun _ => h2
  exact Effect.ite (fun _ => h3.setOn (by decide)) fun _ => h3

theorem effect_endRequests (rs : List PltReq) (status tiles : Nat) (old : Option (Nat × Nat)) :
    Effect statusRegs [.mem, .free] s (endRequests s rs status tiles old) :=
  (Effect.refl s).foldl fun _ r _ => ((effect_reqResults r tiles old).mono (List.nil_subset _) (List.Subset.refl _)).trans (effect_reqStatus r status)

theorem effect_pltCounts : Effect [MEM_PLT_LIVE, MEM_PLT_MIGR] [] s s.pltCounts :=
  ((Effect.refl s).put _ (by decide)).put _ (by decide)

theorem effect_pltDrain : Effect [MEM_PLT_CTRL] [.place] s s.pltDrain :=
  Effect.ite (fun _ => (((Effect.refl s).setOff (by decide)).setOff (by decide)).placed (by decide) _ _ _ _ _) fun _ => Effect.refl s

theorem tables_pltDrain : s.pltDrain.plt = s.plt ∧ s.pltDrain.migs = s.migs := by
  unfold State.pltDrain
  split <;> exact ⟨rfl, rfl⟩

end

section

variable {s : State}

/-! ### Migrations (R195) -/

/-- A tile whose read met no error has none. -/
theorem tileErrors_nil {a : Nat} (h : poisonedIn s a 65536 = []) (tier : Nat) : s.tileErrors tier a [] = (s, []) := by
  unfold State.tileErrors
  split
  · rfl
  · simp [h]

/-- The tile copied and counted. -/
def tileCopied (s : State) (e : PltEntry) : State :=
  ((s.store (dstPlace e (e.moved * 65536)) (tierLoad s (objPlace e (e.moved * 65536)) 65536)).unpoison (dstPlace e (e.moved * 65536)) 65536).countWrap
    MEM_TMV_CNT_MIGTILES_VALUE 1

/-- The object in its new home, its migration over. -/
def homeMoved (s : State) (i : Nat) (e : PltEntry) : State :=
  { s.setObj i { e with st := 1, tier := e.dtier, taddr := e.dtaddr, moved := 0 } with migs := tdel s.migs i }

/-- The next tile is in copy. -/
def tileNext (s : State) (i : Nat) (e : PltEntry) (m : Migration) : State :=
  { s.setObj i { e with moved := e.moved + 1 } with migs := tset s.migs i { m with waiting := [], tileAt := s.cyc } }

variable {i : Nat} {data : List Byte} {e : PltEntry} {m : Migration}

theorem migrationTile_eq (he : tget s.plt i = some e) (hm : tget s.migs i = some m) (hst : e.st = 2 ∨ e.st = 3) (hwait : m.waiting = [])
    (hcancel : m.cancels = []) (h4 : e.tier ≠ 4) (h5 : e.tier ≠ 5) (hd4 : e.dtier ≠ 4)
    (hpoison : poisonedIn s (objPlace e (e.moved * 65536)) 65536 = []) (hheld : ddrHeld s = false) :
    migrationTile s i false [] data =
      if e.moved + 1 ≥ e.size then
        (endRequests (homeMoved (tileCopied s e) i { e with moved := e.moved + 1 }) m.reqs 0x01 (e.moved + 1) (some (e.tier, e.taddr))).pltCounts.pltDrain
      else tileNext (tileCopied s e) i e m := by
  have hgo : ¬ ((e.st ≠ 2 ∧ e.st ≠ 3) ∨ ((e.tier = 3 ∨ e.dtier = 3) ∧ ddrHeld s = true)) := by
    rw [hheld]
    simp only [Bool.false_eq_true, and_false, or_false]
    omega
  unfold migrationTile
  rw [he, hm]
  simp only
  rw [if_neg hgo]
  simp only [h4, h5, hd4, hcancel, hwait, false_and, if_false, tileErrors_nil hpoison, Bool.false_eq_true, or_self, ne_eq,
    not_true_eq_false, and_false]
  by_cases hlast : e.moved + 1 ≥ e.size
  · rw [if_pos hlast, if_pos hlast]
    rfl
  · rw [if_neg hlast, if_neg hlast, tileNext, hcancel]
    rfl

theorem effect_tileCopied : Effect [MEM_TMV_CNT_MIGTILES] [.mem, .poison, .place] s (tileCopied s e) :=
  (((Effect.refl s).store _ _ (by decide)).unpoison _ _ (by decide)).countWrap 1 (by decide)

theorem completes_migrationTile (hon : s.powered) (he : tget s.plt i = some e) (hm : tget s.migs i = some m) (hst : e.st = 2 ∨ e.st = 3)
    (hwait : m.waiting = []) (hcancel : m.cancels = []) (h4 : e.tier ≠ 4) (h5 : e.tier ≠ 5) (hd4 : e.dtier ≠ 4)
    (hpoison : poisonedIn s (objPlace e (e.moved * 65536)) 65536 = []) (hheld : ddrHeld s = false) :
    Completes (.migrationTile i [] data) s fun t =>
      t.get MEM_TMV_CNT_MIGTILES_VALUE = (s.get MEM_TMV_CNT_MIGTILES_VALUE + 1) % 2 ^ 64 ∧
      (e.moved + 1 < e.size → tget t.plt i = some { e with moved := e.moved + 1 } ∧
        (∀ a, memGet t.mem a = memGet (s.store (dstPlace e (e.moved * 65536))
          (tierLoad s (objPlace e (e.moved * 65536)) 65536)).mem a) ∧
        ChangesOnly [MEM_TMV_CNT_MIGTILES] [.mem, .poison, .place] s t) ∧
      (e.size ≤ e.moved + 1 → tget t.plt i = some { e with st := 1, tier := e.dtier, taddr := e.dtaddr, moved := 0 } ∧
        tget t.migs i = none) := by
  have hexec : exec (.migrationTile i [] data) s = finish s _ :=
    congrArg (finish s) (migrationTile_eq he hm hst hwait hcancel h4 h5 hd4 hpoison hheld)
  refine completes_of_settled hexec hon fun t hs => ?_
  have hcopied := effect_tileCopied (s := s) (e := e)
  have hcount : (tileCopied s e).get MEM_TMV_CNT_MIGTILES_VALUE = (s.get MEM_TMV_CNT_MIGTILES_VALUE + 1) % 2 ^ 64 :=
    State.get_countWrap (by decide) 1
  have hmem : (tileCopied s e).mem = (s.store (dstPlace e (e.moved * 65536)) (tierLoad s (objPlace e (e.moved * 65536)) 65536)).mem := rfl
  generalize tileCopied s e = u at hs hcopied hcount hmem
  by_cases hlast : e.moved + 1 ≥ e.size
  · rw [if_pos hlast] at hs
    have hmoved : Effect [] [.place] u (homeMoved u i { e with moved := e.moved + 1 }) :=
      (Effect.refl u).placed (by decide) _ _ u.tags u.cache u.pltDisabling
    have hplt : tget (homeMoved u i { e with moved := e.moved + 1 }).plt i = some { e with st := 1, tier := e.dtier, taddr := e.dtaddr, moved := 0 } :=
      tget_tset_same ..
    have hmigs : tget (homeMoved u i { e with moved := e.moved + 1 }).migs i = none := tget_tdel_same ..
    generalize homeMoved u i { e with moved := e.moved + 1 } = v at hs hmoved hplt hmigs
    have hended := effect_endRequests (s := v) m.reqs 0x01 (e.moved + 1) (some (e.tier, e.taddr))
    obtain ⟨hplt', hmigs', -⟩ := hended.keeps .place (by decide)
    generalize endRequests v m.reqs 0x01 (e.moved + 1) (some (e.tier, e.taddr)) = w at hs hended hplt' hmigs'
    obtain ⟨hdplt, hdmigs⟩ := tables_pltDrain (s := w.pltCounts)
    have hdrain := effect_pltDrain (s := w.pltCounts)
    refine ⟨?_, fun h => absurd h (by omega), fun _ => ⟨?_, ?_⟩⟩
    · rw [hs.get _ (by decide) (by decide), hdrain.get (by decide), effect_pltCounts.get (by decide), hended.get (by decide),
        hmoved.get List.not_mem_nil, hcount]
    · rw [hs.plt, hdplt]
      exact (congrArg (tget · i) hplt').trans hplt
    · rw [hs.migs, hdmigs]
      exact (congrArg (tget · i) hmigs').trans hmigs
  · rw [if_neg hlast] at hs
    have hnext : Effect [MEM_TMV_CNT_MIGTILES] [.mem, .poison, .place] u (tileNext u i e m) :=
      (Effect.refl u).placed (by decide) _ _ u.tags u.cache u.pltDisabling
    refine ⟨?_, fun _ => ⟨?_, fun a => ?_, hs.changesOnly (hcopied.trans hnext)⟩, fun h => absurd h (by omega)⟩
    · rw [hs.get _ (by decide) (by decide)]
      exact hcount
    · rw [hs.plt]
      exact tget_tset_same ..
    · rw [hs.mem]
      exact congrArg (memGet · a) hmem

/-! ### The publication walk (R203) -/

/-- An entry after the walk for a tag. -/
def walkedEntry (tag : Nat) (ts : TagState) (p : Nat × PltEntry) : Nat × PltEntry :=
  if (ts.overflow ∨ p.1 ∈ ts.log) ∧ p.2.unc ∧ p.2.wtag = tag then (p.1, { p.2 with unc := false }) else p

theorem walkedEntry_key (tag : Nat) (ts : TagState) (p : Nat × PltEntry) : (walkedEntry tag ts p).1 = p.1 := by
  unfold walkedEntry
  split <;> rfl

theorem walkedEntry_entry (tag : Nat) (ts : TagState) (i : Nat) (e : PltEntry) : (walkedEntry tag ts (i, e)).2 =
    { e with unc := if (ts.overflow = true ∨ i ∈ ts.log) ∧ e.unc = true ∧ e.wtag = tag then false else e.unc } := by
  unfold walkedEntry
  split <;> rfl

/-- A table mapped entry by entry. -/
theorem tget_map {α : Type} {f : Nat × α → Nat × α} (hf : ∀ p, (f p).1 = p.1) (l : Tbl α) {i : Nat} {x : α} (h : tget l i = some x) :
    tget (l.map f) i = some (f (i, x)).2 := by
  induction l with
  | nil => exact nomatch h
  | cons p l ih =>
    by_cases hp : p.1 = i
    · obtain ⟨k, y⟩ := p
      obtain rfl := hp
      obtain rfl : y = x := by simpa [tget] using h
      simp [tget, hf]
    · have hne : ¬ i = p.1 := fun h => hp h.symm
      have hrest : tget l i = some x := by simpa [tget, hne] using h
      simpa [tget, hf, hne] using ih hrest

theorem completes_publicationWalk (hon : s.powered) {tag : Nat} {ts : TagState} (htag : tget s.tags tag = some ts) (hcommit : ts.committed = true) :
    Completes (.publicationWalk tag) s fun t =>
      tget t.tags tag = none ∧
      (∀ i e, tget s.plt i = some e → tget t.plt i = some { e with
        unc := if (ts.overflow = true ∨ i ∈ ts.log) ∧ e.unc = true ∧ e.wtag = tag then false else e.unc }) ∧
      ChangesOnly [] [.place] s t := by
  have hexec : exec (.publicationWalk tag) s = finish s { s with plt := s.plt.map (walkedEntry tag ts), tags := tdel s.tags tag } := by
    show execPublicationWalk tag s = _
    rw [execPublicationWalk, htag]
    simp only [hcommit, if_true]
    rfl
  refine completes_of_settled hexec hon fun t hs => ⟨?_, fun i e he => ?_, hs.changesOnly ((Effect.refl s).placed (by decide) _ s.migs _ s.cache s.pltDisabling)⟩
  · rw [hs.tags]
    exact tget_tdel_same ..
  · rw [hs.plt]
    exact (tget_map (walkedEntry_key tag ts) s.plt he).trans (congrArg some (walkedEntry_entry tag ts i e))

/-! ### The enable (R214) -/

def pltCtrlRow : RegDesc := ⟨"MEM_PLT_CTRL", 0x100002100000, [], 32, 0x0, [⟨2, 2, .ro⟩, ⟨1, 1, .ro⟩, ⟨0, 0, .live⟩], none, none⟩

theorem regAt_pltCtrl : regAt MEM_PLT_CTRL = some (pltCtrlRow, [], false) := by decide

theorem plainRow_pltCtrl : PlainRow MEM_PLT_CTRL pltCtrlRow := by decide

/-- The control register as an accepted write leaves it. -/
def pltCtrlStored (s : State) (v : Nat) : State :=
  s.wr MEM_PLT_CTRL (BitVec.ofNat 64 (mergeBits (rwMask pltCtrlRow) (s.rd MEM_PLT_CTRL).toNat v))

theorem effect_pltCtrlStored (v : Nat) : Effect [MEM_PLT_CTRL] [] s (pltCtrlStored s v) := (Effect.refl s).wr _ (by decide)

theorem writeReg_pltCtrl {who : Initiator} {v : Word64} (ok : WriteOk s who MEM_PLT_CTRL v.toNat) :
    writeReg s who MEM_PLT_CTRL v.toNat = pltEnableWritten ((s.rd MEM_PLT_CTRL).toNat % 2) (v.toNat % 2) (pltCtrlStored s v.toNat) := by
  rw [writeReg_plain ok regAt_pltCtrl plainRow_pltCtrl]
  rfl

/-- States that differ in the control register alone. -/
structure SetupSame (s t : State) : Prop where
  get : ∀ f : Fld, f.addr ≠ MEM_PLT_CTRL → t.get f = s.get f
  fuses : t.fuses = s.fuses

namespace SetupSame

variable {t : State} (h : SetupSame s t)
include h

theorem on (f : Fld) (hf : f.addr ≠ MEM_PLT_CTRL) : t.on f = s.on f := State.on_congr (h.get f hf)

theorem protRanges : Machine.protRanges t = Machine.protRanges s := by
  have hprot (r : Nat) : MEM_PROT r ≠ MEM_PLT_CTRL ∨ 8 ≤ r := by
    unfold MEM_PROT MEM_PLT_CTRL
    omega
  unfold Machine.protRanges
  refine List.filterMap_congr fun r hr => ?_
  have hne : MEM_PROT r ≠ MEM_PLT_CTRL := (hprot r).resolve_right (by have := List.mem_range.mp hr; omega)
  simp only [h.get (MEM_PROT_SIZE r) hne, h.get (MEM_PROT_BASE r) hne, h.on (MEM_PROT_VALID r) hne]

theorem ringSize : Machine.ringSize t = Machine.ringSize s := by rw [Machine.ringSize, Machine.ringSize, h.get _ (by decide)]

theorem ringObject : Machine.ringObject t = Machine.ringObject s := by
  unfold Machine.ringObject
  rw [h.get MEM_PLQ_BASE_ADDR (by decide), h.ringSize, h.on MEM_PLQ_SIZE_CMN (by decide), h.get MEM_PLQ_SIZE_PUNIT (by decide)]

theorem pltCount : Machine.pltCount t = Machine.pltCount s := by rw [Machine.pltCount, Machine.pltCount, h.get _ (by decide)]

theorem tierOk (tier taddr size : Nat) : Machine.tierOk t tier taddr size = Machine.tierOk s tier taddr size := by
  have hdata : Machine.inProtData t taddr size = Machine.inProtData s taddr size := by
    rw [Machine.inProtData, Machine.inProtData, h.protRanges]
  have hspace : Machine.inFreeSpace t taddr size = Machine.inFreeSpace s taddr size := by
    rw [Machine.inFreeSpace, Machine.inFreeSpace, h.protRanges]
  have hunits : Machine.ddrUnits t = Machine.ddrUnits s := by rw [Machine.ddrUnits, Machine.ddrUnits, h.fuses]
  unfold Machine.tierOk
  rw [h.fuses, hunits, hdata, hspace, h.get CWY_STAT_MODNUM (by decide)]

theorem pltSetupOk : Machine.pltSetupOk t = Machine.pltSetupOk s := by
  have hbytes (a n : Nat) : protBytes t a n = protBytes s a n := by rw [protBytes, protBytes, h.protRanges]
  unfold Machine.pltSetupOk
  simp only [h.ringObject, h.tierOk, hbytes, h.pltCount, h.get MEM_PLT_COUNT_VALUE (by decide), h.get MEM_PLT_TBL_UNIT (by decide),
    h.get MEM_PLT_DIR_UNIT (by decide)]

end SetupSame

theorem setupSame_pltCtrlStored (v : Nat) : SetupSame s (pltCtrlStored s v) := ⟨fun _ hf => State.get_wr_ne hf _, rfl⟩

/-- A fresh table with the ring object alone. -/
def tableFresh (s : State) : State :=
  { (s.setOn MEM_PLT_CTRL_ENABLE).setOff MEM_PLT_CTRL_CFGERR with
    plt := [(0, ringObject s)], migs := [], cache := [], tags := s.tags.map fun (t : Nat × TagState) => (t.1, { t.2 with log := [], overflow := false }) }

/-- The ring empty, the engine ready. -/
def ringReady (s : State) : State := (s.put MEM_PLQ_CONS_INDEX (s.get MEM_PLQ_PROD_INDEX)).setOn MEM_PLT_CTRL_READY

theorem pltEnableWritten_good (h : pltSetupOk s = true) : pltEnableWritten 0 1 s = (ringReady (tableFresh s)).pltCounts := by
  unfold pltEnableWritten
  rw [if_pos rfl, if_neg (by decide), if_pos h]
  rfl

theorem pltEnableWritten_bad (h : pltSetupOk s = false) :
    pltEnableWritten 0 1 s = (s.setOn MEM_PLT_CTRL_ENABLE).setOn MEM_PLT_CTRL_CFGERR := by
  unfold pltEnableWritten
  rw [if_pos rfl, if_neg (by decide), if_neg (by rw [h]; decide)]

theorem tableFresh_leaves : Effect [MEM_PLT_CTRL] [.place] s (tableFresh s) ∧ (tableFresh s).get MEM_PLT_CTRL_ENABLE = 1 ∧
    (tableFresh s).get MEM_PLT_CTRL_CFGERR = 0 ∧ (tableFresh s).plt = [(0, ringObject s)] ∧ (tableFresh s).migs = [] :=
  ⟨((((Effect.refl s).setOn (by decide)).setOff (by decide)).placed (by decide) _ _ _ _ s.pltDisabling),
    (State.get_setOff_apart (f := MEM_PLT_CTRL_CFGERR) (g := MEM_PLT_CTRL_ENABLE) (.inr (by decide))).trans (State.get_setOn (by decide)),
    State.get_setOff (by decide), rfl, rfl⟩

variable {who : Initiator} {v : Word64}

theorem completes_pltEnable_good (hon : s.powered) (ok : WriteOk s who MEM_PLT_CTRL v.toNat) (hoff : s.on MEM_PLT_CTRL_ENABLE = false)
    (hv : v.toNat % 2 = 1) (hsetup : pltSetupOk s = true) : Completes (.pltEnable who v) s fun t =>
      t.on MEM_PLT_CTRL_ENABLE = true ∧ t.on MEM_PLT_CTRL_READY = true ∧ t.on MEM_PLT_CTRL_CFGERR = false ∧
      t.plt = [(0, ringObject s)] ∧ t.migs = [] ∧ t.get MEM_PLQ_CONS_INDEX = s.get MEM_PLQ_PROD_INDEX ∧
      t.get MEM_PLT_LIVE_VALUE = 1 ∧
      ChangesOnly [MEM_PLT_CTRL, MEM_PLQ_CONS, MEM_PLT_LIVE, MEM_PLT_MIGR] [.place] s t := by
  have hstored := effect_pltCtrlStored (s := s) v.toNat
  have hsame := setupSame_pltCtrlStored (s := s) v.toNat
  have hexec : exec (.pltEnable who v) s = finish s (ringReady (tableFresh (pltCtrlStored s v.toNat))).pltCounts := by
    refine congrArg (finish s) ((writeReg_pltCtrl ok).trans ?_)
    rw [show (s.rd MEM_PLT_CTRL).toNat % 2 = 0 from State.mod_two_of_off rfl rfl hoff, hv]
    exact pltEnableWritten_good (hsame.pltSetupOk.trans hsetup)
  refine completes_of_settled hexec hon fun t hs => ?_
  generalize pltCtrlStored s v.toNat = a at hs hstored hsame
  obtain ⟨hfresh, hen, herr, hplt, hmigs⟩ := tableFresh_leaves (s := a)
  rw [hsame.ringObject] at hplt
  generalize tableFresh a = b at hs hfresh hen herr hplt hmigs
  have hready : Effect [MEM_PLQ_CONS, MEM_PLT_CTRL] [] b (ringReady b) := ((Effect.refl b).put _ (by decide)).setOn (by decide)
  have hrdy : (ringReady b).get MEM_PLT_CTRL_READY = 1 := State.get_setOn (by decide)
  have hcons : (ringReady b).get MEM_PLQ_CONS_INDEX = b.get MEM_PLQ_PROD_INDEX :=
    (State.get_setOn_apart (.inl (by decide))).trans (State.get_put_of_lt (by decide) (b.get_lt MEM_PLQ_PROD_INDEX))
  have hkeep {hi lo : Nat} (h : 1 ≠ lo ∧ 1 ≠ hi ∧ (hi < 1 ∨ 1 < lo)) : (ringReady b).get ⟨MEM_PLT_CTRL, hi, lo⟩ = b.get ⟨MEM_PLT_CTRL, hi, lo⟩ :=
    (State.get_setOn_apart (f := MEM_PLT_CTRL_READY) (g := ⟨MEM_PLT_CTRL, hi, lo⟩) (.inr (show 1 ≤ 1 ∧ 1 < 64 ∧ (hi < 1 ∨ 1 < lo) by omega))).trans
      (State.get_put_apart (f := MEM_PLQ_CONS_INDEX) (g := ⟨MEM_PLT_CTRL, hi, lo⟩) (.inl (show MEM_PLT_CTRL ≠ MEM_PLQ_CONS by decide)) _)
  have hplt' : (ringReady b).plt = b.plt ∧ (ringReady b).migs = b.migs := ⟨rfl, rfl⟩
  have hall : Effect [MEM_PLT_CTRL, MEM_PLQ_CONS, MEM_PLT_LIVE, MEM_PLT_MIGR] [.place] s (ringReady b).pltCounts :=
    (((hstored.mono (by simp) (by simp)).trans (hfresh.mono (by simp) (List.Subset.refl _))).trans (hready.mono (by simp) (by simp))).trans
      (effect_pltCounts.mono (by simp) (by simp))
  have henable : (ringReady b).get MEM_PLT_CTRL_ENABLE = 1 := (hkeep (hi := 0) (lo := 0) (by decide)).trans hen
  have hcfgerr : (ringReady b).get MEM_PLT_CTRL_CFGERR = 0 := (hkeep (hi := 2) (lo := 2) (by decide)).trans herr
  generalize ringReady b = c at hs hrdy hcons hplt' hall henable hcfgerr
  have hctrl (f : Fld) (hf : f.addr = MEM_PLT_CTRL) : t.get f = c.get f := by
    rw [hs.get f (by rw [hf]; decide) (by rw [hf]; decide), effect_pltCounts.get (by rw [hf]; decide)]
  obtain ⟨hcplt, hcmigs⟩ := hplt'
  refine ⟨?_, ?_, ?_, ?_, ?_, ?_, ?_, hs.changesOnly hall⟩
  · rw [State.on_eq_true_iff, hctrl MEM_PLT_CTRL_ENABLE rfl, henable]
  · rw [State.on_eq_true_iff, hctrl MEM_PLT_CTRL_READY rfl, hrdy]
  · rw [State.on_eq_false_iff, hctrl MEM_PLT_CTRL_CFGERR rfl, hcfgerr]
    decide
  · rw [hs.plt]
    exact hcplt.trans hplt
  · rw [hs.migs]
    exact hcmigs.trans hmigs
  · rw [hs.get _ (by decide) (by decide), effect_pltCounts.get (by decide), hcons, hfresh.get (by decide), hsame.get _ (by decide)]
  · rw [hs.get _ (by decide) (by decide), State.pltCounts, State.get_put_apart (.inl (by decide)), hcplt, hplt]
    exact State.get_put_of_lt (f := MEM_PLT_LIVE_VALUE) (by decide) (show 1 < 2 ^ (MEM_PLT_LIVE_VALUE.hi + 1 - MEM_PLT_LIVE_VALUE.lo) by decide)

theorem completes_pltEnable_bad (hon : s.powered) (ok : WriteOk s who MEM_PLT_CTRL v.toNat) (hoff : s.on MEM_PLT_CTRL_ENABLE = false)
    (hv : v.toNat % 2 = 1) (hsetup : pltSetupOk s = false) : Completes (.pltEnable who v) s fun t =>
      t.on MEM_PLT_CTRL_ENABLE = true ∧ t.on MEM_PLT_CTRL_CFGERR = true ∧ t.plt = s.plt ∧ ChangesOnly [MEM_PLT_CTRL] [] s t := by
  have hstored := effect_pltCtrlStored (s := s) v.toNat
  have hsame := setupSame_pltCtrlStored (s := s) v.toNat
  have hexec : exec (.pltEnable who v) s =
      finish s (((pltCtrlStored s v.toNat).setOn MEM_PLT_CTRL_ENABLE).setOn MEM_PLT_CTRL_CFGERR) := by
    refine congrArg (finish s) ((writeReg_pltCtrl ok).trans ?_)
    rw [show (s.rd MEM_PLT_CTRL).toNat % 2 = 0 from State.mod_two_of_off rfl rfl hoff, hv]
    exact pltEnableWritten_bad (hsame.pltSetupOk.trans hsetup)
  refine completes_of_settled hexec hon fun t hs => ?_
  generalize pltCtrlStored s v.toNat = a at hs hstored
  have hall : Effect [MEM_PLT_CTRL] [] s ((a.setOn MEM_PLT_CTRL_ENABLE).setOn MEM_PLT_CTRL_CFGERR) :=
    (hstored.setOn (by decide)).setOn (by decide)
  obtain ⟨hplt, -⟩ := hall.keeps .place (by decide)
  refine ⟨?_, ?_, hs.plt.trans hplt, hs.changesOnly hall⟩
  · rw [hs.on _ (by decide) (by decide), State.on_eq_true_iff, State.get_setOn_apart (.inr (by decide)), State.get_setOn (by decide)]
  · rw [hs.on _ (by decide) (by decide)]
    exact State.on_setOn _ _ rfl (by decide)

/-- A disable is asked for. -/
def disableAsked (s : State) : State := { s.put MEM_PLT_CTRL_ENABLE 1 with pltDisabling := true }

theorem pltDrain_idle (h : s.pltDisabling = true) (hm : migrations s = 0) :
    s.pltDrain = { (s.setOff MEM_PLT_CTRL_ENABLE).setOff MEM_PLT_CTRL_READY with pltDisabling := false } := by
  unfold State.pltDrain
  rw [h, hm]
  rfl

theorem completes_pltDisable (hon : s.powered) (ok : WriteOk s who MEM_PLT_CTRL v.toNat) (hen : s.on MEM_PLT_CTRL_ENABLE = true)
    (hv : v.toNat % 2 = 0) (hm : migrations s = 0) : Completes (.pltEnable who v) s fun t =>
      t.on MEM_PLT_CTRL_ENABLE = false ∧ t.on MEM_PLT_CTRL_READY = false ∧ ChangesOnly [MEM_PLT_CTRL] [.place] s t := by
  have hstored := effect_pltCtrlStored (s := s) v.toNat
  have hexec : exec (.pltEnable who v) s = finish s (disableAsked (pltCtrlStored s v.toNat)).pltDrain := by
    refine congrArg (finish s) ((writeReg_pltCtrl ok).trans ?_)
    rw [show (s.rd MEM_PLT_CTRL).toNat % 2 = 1 from State.mod_two_of_on rfl rfl hen, hv]
    rfl
  have hasked : Effect [MEM_PLT_CTRL] [.place] s (disableAsked (pltCtrlStored s v.toNat)) :=
    ((hstored.mono (List.Subset.refl _) (by simp)).put 1 (by decide)).placed (by decide) s.plt s.migs s.tags s.cache true
  have hidle : migrations (disableAsked (pltCtrlStored s v.toNat)) = 0 := hm
  have hasking : (disableAsked (pltCtrlStored s v.toNat)).pltDisabling = true := rfl
  refine completes_of_settled hexec hon fun t hs => ?_
  generalize disableAsked (pltCtrlStored s v.toNat) = a at hs hasked hidle hasking
  rw [pltDrain_idle hasking hidle] at hs
  have hall : Effect [MEM_PLT_CTRL] [.place] s { (a.setOff MEM_PLT_CTRL_ENABLE).setOff MEM_PLT_CTRL_READY with pltDisabling := false } :=
    ((hasked.setOff (by decide)).setOff (by decide)).placed (by decide) a.plt a.migs a.tags a.cache false
  refine ⟨?_, ?_, hs.changesOnly hall⟩
  · rw [hs.on _ (by decide) (by decide), State.on_eq_false_iff]
    show ((a.setOff MEM_PLT_CTRL_ENABLE).setOff MEM_PLT_CTRL_READY).get MEM_PLT_CTRL_ENABLE ≠ 1
    rw [State.get_setOff_apart (.inr (by decide)), State.get_setOff (by decide)]
    decide
  · rw [hs.on _ (by decide) (by decide), State.on_eq_false_iff]
    show ((a.setOff MEM_PLT_CTRL_ENABLE).setOff MEM_PLT_CTRL_READY).get MEM_PLT_CTRL_READY ≠ 1
    rw [State.get_setOff (by decide)]
    decide

end

/-- Settles O18: a migration copies its tile and with the last one moves the object's home; the walk rewrites the table entry by entry; the
enable is judged on the registers that its own write leaves. -/
theorem migrationPublicationAndEnable : Obligations.MigrationPublicationAndEnable := by
  unfold Obligations.MigrationPublicationAndEnable
  intro s hon
  refine ⟨fun i data e m he hm hst hwait hcancel h4 h5 hd4 hpoison hheld =>
      completes_migrationTile hon he hm hst hwait hcancel h4 h5 hd4 hpoison hheld,
    fun tag ts htag hcommit => completes_publicationWalk hon htag hcommit,
    fun who v ok hoff hv => ⟨completes_pltEnable_good hon ok hoff hv, completes_pltEnable_bad hon ok hoff hv⟩,
    fun who v ok hen hv hm => completes_pltDisable hon ok hen hv hm⟩

end Sys2Proof.Machine
end
section
/-! The sequencer of a tensor core: fetch, dispatch, FENCE and COMMIT (R86 to R91, R101). -/

namespace Sys2Proof.Machine

open Sys2Proof Sys2Proof.Machine.Reg

section

variable {s : State} {n : Nat}

theorem seq_settles (hn : n < 8) : (TC_SEQ n ≠ DGN_CNT_MERGE ∧ TC_SEQ n ≠ DGN_EVT) ∧ TC_EVT n ≠ DGN_CNT_MERGE ∧ TC_EVT n ≠ DGN_EVT :=
  ⟨core_settles hn (by unfold TC_SEQ TC_CTRL; omega), core_settles hn (by unfold TC_EVT TC_CTRL; omega)⟩

theorem seq_ne : TC_SEQ n ≠ TC_STAT n ∧ TC_SEQ n ≠ TC_CTX n ∧ TC_SEQ n ≠ TC_EVT n ∧ TC_EVT n ≠ TC_STAT n ∧ TC_EVT n ≠ TC_CTX n := by
  unfold TC_SEQ TC_STAT TC_CTX TC_EVT
  omega

theorem dSeq_lt (d : Nat) : dSeq d < 2 ^ 16 := bitsOf_lt _ 31 16

/-! ### Fetch (R86) -/

/-- The core with one more descriptor. -/
def fetchedCore (c : Core) (d : Nat) : Core := { c with fetched := c.fetched ++ [d], fetchPos := c.fetchPos + 1, fetchStop := dOpc d == 11 }

theorem completes_descriptorFetch (hon : s.powered) (hlive : coreLive s n = true) {ctx k : Nat} {bs : List Byte}
    (hjob : (coreOf s n).job = some (ctx, k)) (hstop : (coreOf s n).fetchStop = false) (hroom : (coreOf s n).fetched.length < 32)
    (hat : (coreOf s n).fetchAt ≤ s.cyc)
    (hread : quietRead s ctx ((coreOf s n).stream + 64 * (coreOf s n).fetchPos) 64 = some bs) : Completes (.descriptorFetch n) s fun t =>
      (coreOf t n).fetched = (coreOf s n).fetched ++ [leNat bs] ∧ (coreOf t n).fetchPos = (coreOf s n).fetchPos + 1 ∧
      (coreOf t n).fetchStop = (dOpc (leNat bs) == 11) ∧ (∀ m, m ≠ n → coreOf t m = coreOf s m) ∧ t.acks = s.acks ∧
      ChangesOnly (TC_STAT n :: TC_CTX n :: engineRegs) (.cores :: engineParts) s t := by
  have hexec : exec (.descriptorFetch n) s =
      finish s ((s.tableRead ctx ((coreOf s n).stream + 64 * (coreOf s n).fetchPos) 64).setCore n (fetchedCore (coreOf s n) (leNat bs))) := by
    have hfetch : ¬ (!coreLive s n || (coreOf s n).fetchStop || decide (32 ≤ (coreOf s n).fetched.length) ||
        decide (s.cyc < (coreOf s n).fetchAt)) = true := by simp [hlive, hstop, hroom, hat]
    show execDescriptorFetch n s = _
    unfold execDescriptorFetch
    simp only [hjob, if_neg hfetch, hread, fetchedCore]
  refine completes_of_settled hexec hon fun t hs => ?_
  have hread' := effect_tableRead (s := s) ctx ((coreOf s n).stream + 64 * (coreOf s n).fetchPos) 64
  obtain ⟨hcores, hacks⟩ := hread'.keeps .cores (by decide)
  generalize s.tableRead ctx ((coreOf s n).stream + 64 * (coreOf s n).fetchPos) 64 = u at hs hread' hcores hacks
  have hcore : coreOf t n = fetchedCore (coreOf s n) (leNat bs) := by
    rw [coreOf_of_cores hs.cores, coreOf_setCore_same]
  refine ⟨by rw [hcore]; rfl, by rw [hcore]; rfl, by rw [hcore]; rfl, fun m hm => ?_, ?_, ?_⟩
  · rw [coreOf_of_cores hs.cores, coreOf_setCore_ne hm, coreOf_of_cores hcores]
  · rw [hs.acks, setCore_keeps.1, hacks]
  · refine hs.changesOnly_accessed (regs := TC_STAT n :: TC_CTX n :: engineRegs) (parts := .cores :: engineParts) ?_ ?_ ?_
    · exact (hread'.mono (List.subset_append_left _ _) (List.subset_append_right _ _)).setCore (by simp) (by simp) (by simp) _
    · exact fun a ha => List.mem_cons_of_mem _ (List.mem_cons_of_mem _ ha)
    · exact List.subset_cons_self _ _

/-! ### Dispatch (R87, R89) -/

/-- The attempts of a descriptor counted for its logical core. -/
def triesCounted (s : State) (ctx k idx tries : Nat) : State :=
  match stepOf s ctx with
  | some t => s.setStep ctx (t.withLcore k { t.lcore k with tries := tset (t.lcore k).tries idx tries })
  | none => s

theorem triesCounted_leaves (ctx k idx tries : Nat) : Effect [SCH_CTX_STAT ctx] [.sched] s (triesCounted s ctx k idx tries) ∧
    (triesCounted s ctx k idx tries).cores = s.cores := by
  unfold triesCounted
  cases hst : stepOf s ctx with
  | none => exact ⟨Effect.refl s, rfl⟩
  | some t =>
    have hstep := (Effect.refl (regs := [SCH_CTX_STAT ctx]) (parts := [.sched]) s).setStep (t.withLcore k
      { t.lcore k with tries := tset (t.lcore k).tries idx tries }) (List.mem_singleton.mpr rfl) (List.mem_singleton.mpr rfl)
    exact ⟨hstep, (hstep.keeps .cores (by decide)).1⟩

/-- The core with its next descriptor taken. -/
def takenCore (c : Core) (d : Nat) (rest : List Nat) : Core := afterDispatch { c with fetched := rest } d

theorem takenCore_keeps (c : Core) (d : Nat) (rest : List Nat) : (takenCore c d rest).fetched = rest ∧
    (takenCore c d rest).queues = c.queues ∧ (takenCore c d rest).dispNo = c.dispNo ∧ (takenCore c d rest).hold = c.hold := by
  unfold takenCore afterDispatch
  split
  · exact ⟨rfl, rfl, rfl, rfl⟩
  · exact ⟨rfl, rfl, rfl, rfl⟩
  · split <;> exact ⟨rfl, rfl, rfl, rfl⟩

/-- The core with a command queued, or waiting as a FENCE or COMMIT. -/
def queuedCore (c : Core) (q : Cmd) : Core :=
  if opcPath (dOpc q.desc) = 5 then { c with dispNo := c.dispNo + 1, hold := some { q with start := some q.next } }
  else Core.withQueue { c with dispNo := c.dispNo + 1 } (opcPath (dOpc q.desc)) (c.queue (opcPath (dOpc q.desc)) ++ [q])

theorem enqueue_eq (q : Cmd) : enqueue s n q = s.setCore n (queuedCore (coreOf s n) q) := rfl

theorem newCmd_fields (d no tries now : Nat) : (newCmd d no tries now).desc = d ∧ (newCmd d no tries now).no = no ∧
    (newCmd d no tries now).attempts = tries := ⟨rfl, rfl, rfl⟩

/-- A descriptor dispatched as a command, its attempts counted. -/
def dispatched (s : State) (n ctx k : Nat) (rest : List Nat) (q : Cmd) : State :=
  (((triesCounted s ctx k ((coreOf s n).fetchPos - (coreOf s n).fetched.length) q.attempts).setCore n
    (takenCore (coreOf s n) q.desc rest)).setCore n (queuedCore (takenCore (coreOf s n) q.desc rest) q)).put (TC_SEQ_DISP n) (dSeq q.desc)

theorem exec_dispatch {ctx k d : Nat} {rest : List Nat} (hlive : coreLive s n = true) (hjob : (coreOf s n).job = some (ctx, k))
    (hup : upToDate s n = s) (hhold : (coreOf s n).hold = none) (hredo : (coreOf s n).redo = []) (hfetched : (coreOf s n).fetched = d :: rest)
    (hroom : pathRoom (coreOf s n) d = true) (hcode : dispatchCode s n ctx d = 0) :
    ∃ tries, exec (.dispatch n) s = finish s (dispatched s n ctx k rest (newCmd d ((coreOf s n).dispNo + 1) tries (coreCyc s (coreOf s n)))) := by
  refine ⟨(match stepOf s ctx with
    | some t => tgetD (t.lcore k).tries ((coreOf s n).fetchPos - (coreOf s n).fetched.length) 0
    | none => 0) + 1, ?_⟩
  have hgo : ¬ (!coreLive s n || (coreOf s n).hold.isSome) = true := by simp [hlive, hhold]
  have hfits : ¬ (dOpc d ≠ 0 ∧ dOpc d ≤ 11 ∧ (!pathRoom (coreOf s n) d) = true) := by simp [hroom]
  show execDispatch n s = _
  unfold execDispatch
  rw [hup]
  cases hst : stepOf s ctx <;> simp only [hst, hjob, if_neg hgo, hredo, hfetched, if_neg hfits, hcode, ne_eq, not_true_eq_false, if_false, enqueue_eq, coreOf_setCore_same,
    dispatched, takenCore, triesCounted, newCmd_fields]

theorem queuedCore_keeps (c : Core) (q : Cmd) : (queuedCore c q).fetched = c.fetched ∧ (queuedCore c q).dispNo = c.dispNo + 1 := by
  unfold queuedCore
  split <;> exact ⟨rfl, rfl⟩

theorem queuedCore_hold {c : Core} {q : Cmd} (h : opcPath (dOpc q.desc) = 5) :
    (queuedCore c q).hold = some { q with start := some q.next } := by
  rw [queuedCore, if_pos h]

theorem queuedCore_queue {c : Core} {q : Cmd} (h : opcPath (dOpc q.desc) ≠ 5) :
    (queuedCore c q).queue (opcPath (dOpc q.desc)) = c.queue (opcPath (dOpc q.desc)) ++ [q] := by
  rw [queuedCore, if_neg h]
  exact tgetD_tset_same ..

theorem completes_dispatch (hon : s.powered) (hn : n < 8) {ctx k d : Nat} {rest : List Nat} (hlive : coreLive s n = true)
    (hjob : (coreOf s n).job = some (ctx, k)) (hup : upToDate s n = s) (hhold : (coreOf s n).hold = none) (hredo : (coreOf s n).redo = [])
    (hfetched : (coreOf s n).fetched = d :: rest) (hroom : pathRoom (coreOf s n) d = true) (hcode : dispatchCode s n ctx d = 0) :
    Completes (.dispatch n) s fun t =>
      t.get (TC_SEQ_DISP n) = dSeq d ∧ (coreOf t n).fetched = rest ∧ (coreOf t n).dispNo = (coreOf s n).dispNo + 1 ∧
      (opcPath (dOpc d) = 5 → ∃ q, (coreOf t n).hold = some q ∧ q.desc = d ∧ q.no = (coreOf s n).dispNo + 1) ∧
      (opcPath (dOpc d) ≠ 5 → ∃ q, (coreOf t n).queue (opcPath (dOpc d)) =
        (coreOf s n).queue (opcPath (dOpc d)) ++ [q] ∧ q.desc = d ∧ q.no = (coreOf s n).dispNo + 1) ∧
      ChangesOnly [TC_STAT n, TC_CTX n, TC_SEQ n, SCH_CTX_STAT ctx] [.cores, .sched] s t := by
  obtain ⟨tries, hexec⟩ := exec_dispatch hlive hjob hup hhold hredo hfetched hroom hcode
  obtain ⟨hdesc, hno, -⟩ := newCmd_fields d ((coreOf s n).dispNo + 1) tries (coreCyc s (coreOf s n))
  generalize newCmd d ((coreOf s n).dispNo + 1) tries (coreCyc s (coreOf s n)) = q at hexec hdesc hno
  subst hdesc
  refine completes_of_settled hexec hon fun t hs => ?_
  obtain ⟨htries, -⟩ := triesCounted_leaves (s := s) ctx k ((coreOf s n).fetchPos - (coreOf s n).fetched.length) q.attempts
  obtain ⟨htaken, hqueues, hdispNo, -⟩ := takenCore_keeps (coreOf s n) q.desc rest
  obtain ⟨hkept, hcount⟩ := queuedCore_keeps (takenCore (coreOf s n) q.desc rest) q
  have hcore : coreOf t n = queuedCore (takenCore (coreOf s n) q.desc rest) q := by
    rw [coreOf_of_cores hs.cores]
    exact coreOf_setCore_same ..
  have hqueue (p : Nat) : (takenCore (coreOf s n) q.desc rest).queue p = (coreOf s n).queue p := congrArg (tgetD · p []) hqueues
  unfold dispatched at hs
  generalize triesCounted s ctx k ((coreOf s n).fetchPos - (coreOf s n).fetched.length) q.attempts = u at hs htries
  refine ⟨?_, by rw [hcore, hkept, htaken], by rw [hcore, hcount, hdispNo], fun h5 => ?_, fun h5 => ?_, ?_⟩
  · rw [hs.get (TC_SEQ_DISP n) (seq_settles hn).1.1 (seq_settles hn).1.2]
    exact State.get_put_of_lt (show 16 ≤ 31 ∧ 31 < 64 by decide) (dSeq_lt _)
  · rw [hcore, queuedCore_hold h5]
    exact ⟨_, rfl, rfl, hno⟩
  · rw [hcore, queuedCore_queue h5, hqueue]
    exact ⟨q, rfl, rfl, hno⟩
  · exact hs.changesOnly ((((htries.mono (by simp) (by simp)).setCore (by simp) (by simp) (by simp) _).setCore (by simp) (by simp) (by simp) _).put
      _ (by simp [TC_SEQ_DISP]))

/-! ### FENCE, COMMIT and what a completion shows (R90, R91, R101) -/

/-- The command that has not run past its budget by a cycle. -/
def WithinBudget (q : Cmd) (cycle : Nat) : Prop := ∀ st, q.start = some st → cycle ≤ st + dBudget q.desc

theorem completeStatus_quiet {q : Cmd} {cycle : Nat} (hirq : dIrq q.desc = false) (hraised : q.raised = false)
    (hbudget : WithinBudget q cycle) : completeStatus s n q cycle = s.put (TC_SEQ_DONE n) (dSeq q.desc) := by
  unfold completeStatus
  extract_lets ran u q' v w
  have hran : ran = false := by
    unfold ran
    rw [hraised]
    cases hst : q.start with
    | none => rfl
    | some st => simpa using hbudget st hst
  have hu : u = s := by rw [show u = onIf ran _ s from rfl, hran, onIf, if_neg Bool.false_ne_true]
  have hloud : ¬ (dIrq q.desc || q'.raised) = true := by
    rw [show q'.raised = (q.raised || ran) from rfl, hirq, hraised, hran]
    exact Bool.false_ne_true
  have hw : w = v := by
    unfold w
    split
    · exact if_neg hloud
    · rfl
  have hsilent : ¬ dIrq q'.desc = true := fun h => Bool.false_ne_true (hirq.symm.trans h)
  rw [if_neg hsilent, hw]
  exact congrArg (fun x : State => x.put (TC_SEQ_DONE n) (dSeq q.desc)) hu

/-- What a completion shows, and that the cores stand. -/
structure CompletionShown (s : State) (n : Nat) (q : Cmd) (u : State) : Prop where
  cores : u.cores = s.cores
  acks : u.acks = s.acks
  seq : u.get (TC_SEQ_DONE n) = dSeq q.desc
  done : dIrq q.desc = true → u.on (TC_EVT_DONE n) = true

theorem completionShown (hn : n < 8) (q : Cmd) (cycle : Nat) : CompletionShown s n q (completeStatus s n q cycle) := by
  unfold completeStatus
  extract_lets ran u q' v w
  have hu : u.cores = s.cores ∧ u.acks = s.acks := by
    unfold u onIf
    split <;> exact ⟨rfl, rfl⟩
  have hv : v.get (TC_SEQ_DONE n) = dSeq q.desc := State.get_put_of_lt (show 0 ≤ 15 ∧ 15 < 64 by decide) (dSeq_lt _)
  have hw : w.cores = v.cores ∧ w.acks = v.acks ∧ w.get (TC_SEQ_DONE n) = v.get (TC_SEQ_DONE n) := by
    unfold w
    split
    · next ctx _ _ =>
      split
      · have hrecord := effect_statusRecord (s := v) ctx (recordOf q' 0 cycle)
        obtain ⟨hcores, hacks⟩ := hrecord.keeps .cores (by decide)
        exact ⟨hcores, hacks, hrecord.get (core_not_mem_recordRegs hn (by unfold TC_SEQ_DONE TC_SEQ TC_CTRL; dsimp only; omega) ctx)⟩
      · exact ⟨rfl, rfl, rfl⟩
    · exact ⟨rfl, rfl, rfl⟩
  obtain ⟨hcores, hacks, hseq⟩ := hw
  split
  · exact ⟨hcores.trans hu.1, hacks.trans hu.2, (State.get_setOn_apart (.inl seq_ne.2.2.1)).trans (hseq.trans hv), fun _ => State.on_setOn _ _ rfl (show 0 < 64 by decide)⟩
  · next hirq => exact ⟨hcores.trans hu.1, hacks.trans hu.2, hseq.trans hv, fun h => absurd h hirq⟩

/-- The core with the command that waits done. -/
def releasedCore (c : Core) (q : Cmd) : Core := { c with hold := none, commitDone := dOpc q.desc == 11 }

/-- The FENCE or COMMIT that waits, once what it waits for is done. -/
theorem completes_hold (hon : s.powered) (hn : n < 8) {cmd : Cmd} {com : Instr} {opc t : Nat} (hlive : coreLive s n = true)
    (hexec : exec com s = finish s (tryHold n opc s)) (hdone : holdDone s n = some (cmd, t)) (hopc : dOpc cmd.desc = opc) (ht : t ≤ nowOf s n) :
    Completes com s fun u =>
      (coreOf u n).hold = none ∧ (coreOf u n).commitDone = (opc == 11) ∧ u.get (TC_SEQ_DONE n) = dSeq cmd.desc ∧
      (dIrq cmd.desc = true → u.on (TC_EVT_DONE n) = true) ∧
      (dIrq cmd.desc = false → cmd.raised = false → (∀ st, cmd.start = some st → nowOf s n ≤ st + dBudget cmd.desc) →
        ChangesOnly [TC_STAT n, TC_CTX n, TC_SEQ n] [.cores] s u) := by
  have htry : tryHold n opc s = completeStatus (s.setCore n (releasedCore (coreOf s n) cmd)) n cmd t := by
    unfold tryHold
    rw [if_neg (by simp [hlive]), hdone]
    exact if_pos ⟨hopc, ht⟩
  rw [htry] at hexec
  refine completes_of_settled hexec hon fun u hs => ?_
  obtain ⟨hcores, -, hseq, hdone⟩ := completionShown (s := s.setCore n (releasedCore (coreOf s n) cmd)) hn cmd t
  have hcore : coreOf u n = releasedCore (coreOf s n) cmd := by
    rw [coreOf_of_cores hs.cores, coreOf_of_cores hcores, coreOf_setCore_same]
  obtain ⟨hset, hevt⟩ := seq_settles hn
  refine ⟨by rw [hcore]; rfl, by rw [hcore, ← hopc]; rfl, ?_, fun hirq => ?_, fun hirq hraised hbudget => ?_⟩
  · rw [hs.get (TC_SEQ_DONE n) hset.1 hset.2, hseq]
  · rw [hs.on (TC_EVT_DONE n) hevt.1 hevt.2, hdone hirq]
  · rw [completeStatus_quiet hirq hraised fun st hst => ht.trans (hbudget st hst)] at hs
    exact hs.changesOnly (((effect_setCore _).mono (by simp) (by simp)).put _ (by simp [TC_SEQ_DONE]))

theorem foldl_max_le {b : Nat} {f : Nat → Nat} (hf : ∀ p, f p ≤ b) (ps : List Nat) {a : Nat} (ha : a ≤ b) :
    ps.foldl (fun t p => max t (f p)) a ≤ b := by
  induction ps generalizing a with
  | nil => exact ha
  | cons p ps ih => exact ih (Nat.max_le.mpr ⟨ha, hf p⟩)

/-- A path on which only silent LOADs are left is done. -/
theorem filter_silent_isEmpty {xs : List Cmd} (h : ∀ x ∈ xs, x.silent = true) : (xs.filter fun x => !x.silent).isEmpty = true := by
  rw [List.isEmpty_iff, List.filter_eq_nil_iff]
  exact fun x hx => by simp [h x hx]

/-- The command that waits is done by the present cycle where all that it waits for is. -/
theorem holdDone_of_waits {q : Cmd} (hhold : (coreOf s n).hold = some q) (hstart : q.start.getD 0 ≤ nowOf s n)
    (hmarks : ∀ k, (coreOf s n).mark k ≤ nowOf s n) (hpaths : ∀ p ∈ (holdWaits q.desc).1, ∀ x ∈ (coreOf s n).queue p, x.silent = true)
    (hacks : (holdWaits q.desc).2 = true → storesAcked s n = true) : ∃ t, holdDone s n = some (q, t) ∧ t ≤ nowOf s n := by
  have hall : ((holdWaits q.desc).1.all fun p => (((coreOf s n).queue p).filter fun x => !x.silent).isEmpty) = true :=
    List.all_eq_true.mpr fun p hp => filter_silent_isEmpty (hpaths p hp)
  have hstores : (!(holdWaits q.desc).2 || storesAcked s n) = true := by
    cases hw : (holdWaits q.desc).2 with
    | false => rfl
    | true => exact hacks hw
  have hmark : (if (holdWaits q.desc).2 then (coreOf s n).mark ackKey else 0) ≤ nowOf s n := by
    split
    · exact hmarks ackKey
    · exact Nat.zero_le _
  refine ⟨_, ?_, Nat.max_le.mpr ⟨foldl_max_le (fun p => hmarks (doneKey + p)) (holdWaits q.desc).1 hstart, hmark⟩⟩
  unfold holdDone
  simp only [hhold]
  exact if_pos ⟨hall, hstores⟩

end

/-- Settles O9: a fetch appends the descriptor read, a dispatch counts and queues it, and a FENCE or COMMIT completes by
`completes_hold` once what it waits for is done. -/
theorem sequencerFetchesAndDispatches : Obligations.SequencerFetchesAndDispatches := by
  unfold Obligations.SequencerFetchesAndDispatches
  intro s n hon hn hlive
  refine ⟨fun ctx k bs hjob hstop hroom hat hread => completes_descriptorFetch hon hlive hjob hstop hroom hat hread,
    fun ctx k d rest hjob hup hhold hredo hfetched hroom hcode =>
      completes_dispatch hon hn hlive hjob hup hhold hredo hfetched hroom hcode,
    fun q hhold hstart hmarks => ⟨fun hopc hpaths hvis => ?_, fun hopc hpaths hacked => ?_⟩⟩
  · have hwaits : holdWaits q.desc = ((List.range 5).filter fun p => db q.desc 1 p, db q.desc 1 8) := if_neg (by omega)
    obtain ⟨t, hdone, ht⟩ := holdDone_of_waits hhold hstart hmarks (fun p hp => by
      rw [hwaits] at hp
      obtain ⟨hlt, hbit⟩ := List.mem_filter.mp hp
      exact hpaths p (List.mem_range.mp hlt) hbit) (fun h => hvis (by rwa [hwaits] at h))
    obtain ⟨u, hexec, hnone, -, hrest⟩ := completes_hold hon hn hlive (com := .fence n) rfl hdone hopc ht
    exact ⟨u, hexec, hnone, hrest⟩
  · have hwaits : holdWaits q.desc = (List.range 5, true) := if_pos hopc
    obtain ⟨t, hdone, ht⟩ := holdDone_of_waits hhold hstart hmarks (fun p hp => by
      rw [hwaits] at hp
      exact hpaths p (List.mem_range.mp hp)) (fun _ => hacked)
    exact completes_hold hon hn hlive (com := .commit n) rfl hdone hopc ht

end Sys2Proof.Machine
end
section
/-! The commands and lines of a core: what replacing a command, writing lines and moving a tail leave (R82, R83, R196). -/

namespace Sys2Proof.Machine

open Sys2Proof Sys2Proof.Machine.Reg

section

variable {regs : List Nat} {parts : List Part} {s t u : State} {n p : Nat} {c : Cmd}

/-! ### Commands of a path -/

@[simp] theorem Core.queue_withQueue (k : Core) (p : Nat) (q : List Cmd) : (k.withQueue p q).queue p = q := tgetD_tset_same ..

theorem Core.queue_withQueue_ne {r : Nat} (h : r ≠ p) (k : Core) (q : List Cmd) : (k.withQueue p q).queue r = k.queue r :=
  tgetD_tset_ne _ _ _ _ _ h

theorem Effect.setCmd (h : Effect regs parts s t) (hs : TC_STAT n ∈ regs) (hx : TC_CTX n ∈ regs) (hp : Part.cores ∈ parts) (c : Cmd) :
    Effect regs parts s (setCmd t n p c) := h.setCore hs hx hp _

theorem queue_setCmd : (coreOf (setCmd s n p c) n).queue p = ((coreOf s n).queue p).map fun q => if q.no = c.no then c else q := by
  rw [setCmd, coreOf_setCore_same, Core.queue_withQueue]

theorem queue_setCmd_alone {q : Cmd} (h : (coreOf s n).queue p = [q]) (hno : q.no = c.no) : (coreOf (setCmd s n p c) n).queue p = [c] := by
  rw [queue_setCmd, h, List.map_cons, if_pos hno, List.map_nil]

theorem getCmd_congr (h : (coreOf t n).queue p = (coreOf s n).queue p) (no : Nat) : getCmd t n p no = getCmd s n p no := by
  rw [getCmd, getCmd, h]

theorem getCmd_alone (h : (coreOf s n).queue p = [c]) : getCmd s n p c.no = some c := by
  rw [getCmd, h, List.find?_cons_of_pos (by simp)]

/-- A command put where one with its number stands is found there. -/
theorem getCmd_setCmd {q : Cmd} (hq : q ∈ (coreOf s n).queue p) (hno : q.no = c.no) : getCmd (setCmd s n p c) n p c.no = some c := by
  rw [getCmd, queue_setCmd]
  generalize (coreOf s n).queue p = l at hq
  induction l with
  | nil => exact nomatch hq
  | cons x xs ih =>
    rw [List.map_cons]
    by_cases hx : x.no = c.no
    · rw [if_pos hx, List.find?_cons_of_pos (by simp)]
    · rw [if_neg hx, List.find?_cons_of_neg (by simp [hx])]
      exact ih ((List.mem_cons.mp hq).resolve_left fun h => hx (h ▸ hno))

theorem queue_setMark (k : Core) (key at_ : Nat) (p : Nat) : (k.setMark key at_).queue p = k.queue p := rfl

theorem startCmd_started {x : Nat} (h : c.start = some x) : startCmd s n p c = (s, c) := by
  rw [startCmd, h]

/-! ### Counts by nothing -/

theorem effect_countWrap_zero (f : Fld) (h : f.lo ≤ f.hi + 1) : Effect regs parts s (s.countWrap f 0) := by
  have hsame : s.countWrap f 0 = s.wr f.addr (s.rd f.addr) := by
    rw [State.countWrap, Nat.add_zero, State.put, State.get, withBits_bitsOf _ h, BitVec.ofNat_toNat, BitVec.setWidth_eq]
  rw [hsame]
  refine ⟨fun a _ => ?_, (Effect.refl (regs := [f.addr]) s |>.wr _ (by simp)).keeps⟩
  by_cases ha : a = f.addr
  · rw [ha, State.rd_wr_same]
  · rw [State.rd_wr_ne _ _ _ _ ha]

/-! ### Lines -/

theorem Effect.mirrorWrite (h : Effect regs parts s t) (a : Nat) (bs : List Byte) (hp : Part.mem ∈ parts) :
    Effect regs parts s (mirrorWrite t a bs) :=
  h.foldl fun u _ _ => Effect.ite (fun _ => (Effect.refl u).store _ _ hp) fun _ => Effect.refl u

theorem effect_writeLines (ref ofs : Nat) (bs : List Byte) : Effect [] [.mem] s (writeLines s n ref ofs bs) := by
  unfold writeLines
  exact (Effect.refl s).forUpTo fun u _ _ => ((Effect.refl u).store _ _ (by decide)).mirrorWrite _ _ (by decide)

/-- Two states with the same memory, placements and regions of a core. -/
structure SameLines (n : Nat) (s t : State) : Prop where
  mem : t.mem = s.mem
  plt : t.plt = s.plt
  cfg : ∀ x r, x < 4 → r < 16 → t.rd (rgnCfg n x r) = s.rd (rgnCfg n x r)

theorem SameLines.refl (n : Nat) (s : State) : SameLines n s s := ⟨rfl, rfl, fun _ _ _ _ => rfl⟩

theorem SameLines.trans (h : SameLines n s t) (k : SameLines n t u) : SameLines n s u :=
  ⟨k.mem.trans h.mem, k.plt.trans h.plt, fun x r hx hr => (k.cfg x r hx hr).trans (h.cfg x r hx hr)⟩

namespace SameLines

variable (h : SameLines n s t)
include h

theorem base (ref : Nat) : rgnBase t n (refStore ref) (refRgn ref) = rgnBase s n (refStore ref) (refRgn ref) := by
  rw [rgnBase, rgnBase, State.get, State.get, h.cfg _ _ (bitsOf_lt ..) (bitsOf_lt ..)]

theorem lines (ref : Nat) : rgnLines t n (refStore ref) (refRgn ref) = rgnLines s n (refStore ref) (refRgn ref) := by
  rw [rgnLines, rgnLines, rgnSize, rgnSize, State.get, State.get, h.cfg _ _ (bitsOf_lt ..) (bitsOf_lt ..)]

theorem place (ref ofs : Nat) : linePlace t n ref ofs = linePlace s n ref ofs := by
  unfold linePlace
  simp only
  rw [h.lines, h.base]

theorem load (a k : Nat) : t.load a k = s.load a k := by rw [State.load, State.load, h.mem]

theorem read (ref ofs k : Nat) : readLines t n ref ofs k = readLines s n ref ofs k := by
  unfold readLines
  simp only [h.place, h.load]

theorem store (a : Nat) (bs : List Byte) : SameLines n (s.store a bs) (t.store a bs) :=
  ⟨congrArg (memWrite · a bs) h.mem, h.plt, h.cfg⟩

theorem mirrored (a : Nat) (bs : List Byte) : SameLines n (mirrorWrite s a bs) (mirrorWrite t a bs) := by
  unfold mirrorWrite
  rw [h.plt]
  generalize s.plt = l
  induction l generalizing s t with
  | nil => exact h
  | cons x xs ih =>
    rw [List.foldl_cons, List.foldl_cons]
    refine ih ?_
    simp only
    split
    · exact h.store ..
    · exact h

theorem written (ref ofs : Nat) (bs : List Byte) : SameLines n (writeLines s n ref ofs bs) (writeLines t n ref ofs bs) := by
  unfold writeLines
  simp only
  generalize ceilDiv bs.length 512 = k
  induction k with
  | zero => exact h
  | succ k ih =>
    rw [forUpTo_succ, forUpTo_succ, ih.place]
    exact (ih.store ..).mirrored ..

end SameLines

/-- What leaves memory, the placement table and the regions of a core leaves its lines. -/
theorem Effect.sameLines (h : Effect regs parts s t) (hm : t.mem = s.mem) (hp : t.plt = s.plt) (hr : ∀ x r, x < 4 → r < 16 → rgnCfg n x r ∉ regs) :
    SameLines n s t := ⟨hm, hp, fun x r hx hr' => h.rd _ (hr x r hx hr')⟩

theorem Effect.logMove (h : Effect regs parts s t) (hp : Part.cores ∈ parts) (key at_ d : Nat) : Effect regs parts s (t.logMove n key at_ d) :=
  h.cores _ hp

theorem effect_advanceTail (ref ofs k at_ : Nat) :
    Effect [rgnPtr n (refStore ref) (refRgn ref)] [.cores] s (advanceTail s n ref ofs k at_) := by
  unfold advanceTail
  simp only
  split
  · exact ((Effect.refl s).put _ (by simp)).logMove (by simp) _ _ _
  · exact Effect.refl s

theorem queue_logMove (key at_ d p : Nat) : (coreOf (s.logMove n key at_ d) n).queue p = (coreOf s n).queue p := by
  rw [State.logMove, coreOf, tgetD_tset_same]
  rfl

theorem queue_advanceTail (ref ofs k at_ p : Nat) : (coreOf (advanceTail s n ref ofs k at_) n).queue p = (coreOf s n).queue p := by
  unfold advanceTail
  simp only
  split
  · exact queue_logMove ..
  · rfl

/-! ### Tiles -/

/-- What a tile that moved leaves its command. -/
def movedCmd (c : Cmd) (k : Nat) : Cmd := { c with unit := c.unit + 1, next := k, wait := 0 }

theorem effect_tileMoved (c : Cmd) (k : Nat) : Effect [TC_STAT n, TC_CTX n] [.cores] s (tileMoved s n c k) := by
  unfold tileMoved
  exact Effect.ite (fun _ => ((Effect.refl s).setCmd (by simp) (by simp) (by simp) _).setCore (by simp) (by simp) (by simp) _)
    fun _ => (Effect.refl s).setCmd (by simp) (by simp) (by simp) _

theorem getCmd_tileMoved {q : Cmd} (hq : q ∈ (coreOf s n).queue 4) (hno : q.no = c.no) (k : Nat) :
    getCmd (tileMoved s n c k) n 4 c.no = some (movedCmd c k) := by
  have hset : getCmd (setCmd s n 4 (movedCmd c k)) n 4 c.no = some (movedCmd c k) := getCmd_setCmd hq hno
  unfold tileMoved
  simp only
  split
  · refine (getCmd_congr ?_ c.no).trans hset
    rw [coreOf_setCore_same]
    rfl
  · exact hset

theorem acks_setCmd : (setCmd s n p c).acks = s.acks := setCore_keeps.1

theorem acks_tileMoved (c : Cmd) (k : Nat) : (tileMoved s n c k).acks = s.acks := by
  unfold tileMoved
  simp only
  split
  · exact setCore_keeps.1.trans acks_setCmd
  · exact acks_setCmd

/-- The registers of a tile that lands. -/
def landedRegs (n : Nat) (c : Cmd) : List Nat :=
  [TC_STAT n, TC_CTX n, MEM_TMV_CNT_TILES, rgnPtr n (refStore (mvRef c.desc)) (refRgn (mvRef c.desc))]

theorem effect_landTile (c : Cmd) (i : Nat) (bs : List Byte) : Effect (landedRegs n c) [.cores, .mem] s (landTile s n c i bs) := by
  unfold landTile
  extract_lets ref now u landed pre v
  have hu : Effect (landedRegs n c) [.cores, .mem] s u := (effect_writeLines ..).mono (List.nil_subset _) (by simp)
  have hv : Effect (landedRegs n c) [.cores, .mem] s v :=
    Effect.ite (fun _ => hu) fun _ => hu.trans ((effect_advanceTail ..).mono (by simp [landedRegs, ref]) (by simp))
  exact ((hv.countWrap (f := MEM_TMV_CNT_TILES_VALUE) 1 (by simp [landedRegs, MEM_TMV_CNT_TILES_VALUE])).setCore
    (by simp [landedRegs]) (by simp [landedRegs]) (by simp) _).setCmd (by simp [landedRegs]) (by simp [landedRegs]) (by simp) _

theorem mem_landTile (c : Cmd) (i : Nat) (bs : List Byte) :
    (landTile s n c i bs).mem = (writeLines s n (mvRef c.desc) (128 * i) (padBytes 65536 bs)).mem := by
  unfold landTile
  extract_lets ref now u landed pre v
  rw [setCmd, setCore_keeps.2.2.1, setCore_keeps.2.2.1]
  show v.mem = u.mem
  unfold v
  split
  · rfl
  · unfold advanceTail
    simp only
    split <;> rfl

theorem getCmd_landTile (hq : (coreOf s n).queue 4 = [c]) (i : Nat) (bs : List Byte) :
    ∃ d, getCmd (landTile s n c i bs) n 4 c.no = some { c with landed := c.landed ++ [i], doneAt := d } := by
  unfold landTile
  extract_lets ref now u landed pre v w x
  have hu : (coreOf u n).queue 4 = (coreOf s n).queue 4 :=
    congrArg (fun k : Core => k.queue 4) (coreOf_of_cores ((effect_writeLines ref (128 * i) (padBytes 65536 bs)).keeps .cores (by decide)).1 n)
  have hv : (coreOf v n).queue 4 = (coreOf u n).queue 4 := by
    unfold v
    split
    · rfl
    · exact queue_advanceTail ..
  have hx : (coreOf x n).queue 4 = [c] := by
    unfold x
    rw [coreOf_setCore_same]
    exact (hv.trans hu).trans hq
  exact ⟨_, getCmd_setCmd (q := c) (c := { c with landed := landed, doneAt := _ }) (by rw [hx]; exact List.mem_singleton_self c) rfl⟩

end

end Sys2Proof.Machine
end
section
/-! The tile mover: PULL, STORE, the tile that lands and the acknowledgement (R75, R82, R91, R112, R200, R245, R246). -/

namespace Sys2Proof.Machine

open Sys2Proof Sys2Proof.Machine.Reg

section

variable {s t : State} {n ctx k : Nat} {c : Cmd}

theorem tileCmd_mem {opc : Nat} (h : tileCmd s n opc = some c) : c ∈ (coreOf s n).queue 4 := by
  unfold tileCmd at h
  split at h
  · next q hfind =>
    obtain rfl : q = c := by
      by_cases hopc : dOpc q.desc = opc
      · rw [if_pos hopc] at h
        exact Option.some.inj h
      · rw [if_neg hopc] at h
        exact nomatch h
    exact List.mem_of_find?_eq_some hfind
  · exact nomatch h

/-! ### PULL -/

/-- The command with what serves its tile. -/
def sourced (c : Cmd) (src : Tbl PltEntry) : Cmd := { c with stalls := c.stalls, src := src }

/-- A remote read slot taken for a tile. -/
def takenSlot (s : State) (slot : Nat) (r : RemoteSlot) : State :=
  { s with free := s.free + 1, sched := { s.sched with remote := tset s.sched.remote slot r } }

section

variable {f : Nat} (hjob : jobOf s n = some (ctx, k)) (hcmd : tileCmd s n 8 = some c) (hlive : coreLive s n = true)
  (hstart : c.start.isSome = true) (hwrite : writeFrom s n (mvRef c.desc, 128 * c.unit, 128) = some f) (hf : f ≤ c.next)
  (hnow : c.next ≤ nowOf s n)

include hjob hcmd hlive hstart hwrite hf hnow

theorem pullTile_here (hpeer : peerUnit s ctx (mvAddr c.desc + c.unit * 65536) = none) : ∃ src,
    pullTile n s = tileMoved (s.countWrap (TC_CNT_HEAD_VALUE n) 0) n (sourced c src) (c.next + 1) := by
  obtain ⟨at_, hat⟩ := Option.isSome_iff_exists.mp hstart
  cases hserved : resolve s false ctx (mvAddr c.desc + c.unit * 65536) 65536 false
  case' error => refine ⟨c.src, ?_⟩
  case' ok x => refine ⟨tset c.src c.unit x.2, ?_⟩
  all_goals
    unfold pullTile
    simp only [hjob, hcmd, if_neg (show ¬ (!coreLive s n) = true by simp [hlive]), startCmd_started hat, hwrite, Nat.sub_eq_zero_of_le hf,
      Nat.add_zero, if_neg (Nat.not_lt.mpr hnow), hpeer, hserved, sourced]

theorem pullTile_peer {m u slot : Nat} (hpeer : peerUnit s ctx (mvAddr c.desc + c.unit * 65536) = some (m, u))
    (hslot : freeSlot (s.lookup (mvAddr c.desc + c.unit * 65536)) = some slot) :
    let r : RemoteSlot := { core := n, epoch := (coreOf s n).epoch, no := c.no, tile := c.unit, module := m, unit := u, ctx := ctx }
    let v := takenSlot (s.lookup (mvAddr c.desc + c.unit * 65536)) slot r
    pullTile n s = tileMoved ((v.cwyReadReq slot r).countWrap (TC_CNT_HEAD_VALUE n) 0) n c (nowOf v n + 1) := by
  obtain ⟨at_, hat⟩ := Option.isSome_iff_exists.mp hstart
  have hcore : coreOf (s.lookup (mvAddr c.desc + c.unit * 65536)) n = coreOf s n :=
    coreOf_of_cores ((effect_lookup_miss _).keeps .cores (by decide)).1 n
  unfold pullTile takenSlot
  simp only [hjob, hcmd, if_neg (show ¬ (!coreLive s n) = true by simp [hlive]), startCmd_started hat, hwrite, Nat.sub_eq_zero_of_le hf,
    Nat.add_zero, if_neg (Nat.not_lt.mpr hnow), hpeer, hslot, hcore]

end

theorem effect_takenSlot (slot : Nat) (r : RemoteSlot) : Effect [] [.free, .sched] s (takenSlot s slot r) :=
  (Effect.refl s).components rfl fun p hq => by
    cases p
    case free | sched => exact absurd (by decide) hq
    all_goals simp [Keeps, takenSlot]

theorem completes_pull_here (hon : s.powered) {f : Nat} (hjob : jobOf s n = some (ctx, k)) (hcmd : tileCmd s n 8 = some c)
    (hlive : coreLive s n = true) (hstart : c.start.isSome = true) (hwrite : writeFrom s n (mvRef c.desc, 128 * c.unit, 128) = some f)
    (hf : f ≤ c.next) (hnow : c.next ≤ nowOf s n) (hpeer : peerUnit s ctx (mvAddr c.desc + c.unit * 65536) = none) :
    Completes (.pull n) s fun t =>
      (∃ q, getCmd t n 4 c.no = some q ∧ q.desc = c.desc ∧ q.unit = c.unit + 1 ∧ q.next = c.next + 1 ∧ q.wait = 0 ∧
        q.stalls = c.stalls) ∧ ChangesOnly [TC_STAT n, TC_CTX n] [.cores] s t := by
  obtain ⟨src, hpull⟩ := pullTile_here hjob hcmd hlive hstart hwrite hf hnow hpeer
  refine completes_of_settled (congrArg (finish s) hpull) hon fun t hs => ⟨⟨movedCmd (sourced c src) (c.next + 1), ?_, rfl, rfl, rfl, rfl, rfl⟩,
    hs.changesOnly ((effect_countWrap_zero _ (show 0 ≤ 64 by decide)).trans (effect_tileMoved ..))⟩
  refine (getCmd_congr (congrArg (fun k : Core => k.queue 4) (coreOf_of_cores hs.cores n)) c.no).trans ?_
  exact getCmd_tileMoved (s := s.countWrap (TC_CNT_HEAD_VALUE n) 0) (c := sourced c src) (tileCmd_mem hcmd) rfl _

theorem completes_pull_peer (hon : s.powered) {f m u slot : Nat} (hjob : jobOf s n = some (ctx, k)) (hcmd : tileCmd s n 8 = some c)
    (hlive : coreLive s n = true) (hstart : c.start.isSome = true) (hwrite : writeFrom s n (mvRef c.desc, 128 * c.unit, 128) = some f)
    (hf : f ≤ c.next) (hnow : c.next ≤ nowOf s n) (hpeer : peerUnit s ctx (mvAddr c.desc + c.unit * 65536) = some (m, u))
    (hslot : freeSlot (s.lookup (mvAddr c.desc + c.unit * 65536)) = some slot) :
    Completes (.pull n) s fun t =>
      (∃ q, getCmd t n 4 c.no = some q ∧ q.desc = c.desc ∧ q.unit = c.unit + 1 ∧ q.wait = 0) ∧
      tget t.sched.remote slot = some { core := n, epoch := (coreOf s n).epoch, no := c.no, tile := c.unit, module := m
                                        unit := u, ctx := ctx } ∧
      ∀ p, p ∉ [Part.cores, .sched, .cwy, .out, .free, .place] → Keeps s t p := by
  have hpull := pullTile_peer hjob hcmd hlive hstart hwrite hf hnow hpeer hslot
  simp only at hpull
  generalize hr : ({ core := n, epoch := (coreOf s n).epoch, no := c.no, tile := c.unit, module := m, unit := u, ctx := ctx } : RemoteSlot) = r at *
  have hlook := effect_lookup_miss (s := s) (mvAddr c.desc + c.unit * 65536)
  generalize s.lookup (mvAddr c.desc + c.unit * 65536) = v at hpull hlook
  have hslotted : Effect [] [.free, .sched] v (takenSlot v slot r) := effect_takenSlot slot r
  have hsched : (takenSlot v slot r).sched = { s.sched with remote := tset s.sched.remote slot r } := by
    rw [← hlook.keeps .sched (by decide)]
    rfl
  generalize takenSlot v slot r = w at hpull hslotted hsched
  have hsent : Effect [] [.cwy, .out] w ((w.cwyReadReq slot r).countWrap (TC_CNT_HEAD_VALUE n) 0) :=
    ((Effect.refl _).cwySend _ _ (by decide) (by decide)).trans (effect_countWrap_zero _ (show 0 ≤ 64 by decide))
  generalize (w.cwyReadReq slot r).countWrap (TC_CNT_HEAD_VALUE n) 0 = x at hpull hsent
  have hbefore : Effect [MEM_PLT_CNT_LKMISS] [.sched, .cwy, .out, .free, .place] s x :=
    (hlook.mono (List.Subset.refl _) (by decide)).trans ((hslotted.mono (List.nil_subset _) (by decide)).trans
      (hsent.mono (List.nil_subset _) (by decide)))
  have hmoved := effect_tileMoved (s := x) (n := n) c (nowOf w n + 1)
  refine completes_of_settled (congrArg (finish s) hpull) hon fun t hs => ⟨⟨movedCmd c (nowOf w n + 1), ?_, rfl, rfl, rfl⟩, ?_, ?_⟩
  · refine (getCmd_congr (congrArg (fun k : Core => k.queue 4) (coreOf_of_cores hs.cores n)) c.no).trans ?_
    refine getCmd_tileMoved (q := c) ?_ rfl _
    rw [coreOf_of_cores (hbefore.keeps .cores (by decide)).1]
    exact tileCmd_mem hcmd
  · rw [hs.sched, hmoved.keeps .sched (by decide), hsent.keeps .sched (by decide), hsched]
    exact tget_tset_same ..
  · have heff : Effect [MEM_PLT_CNT_LKMISS, TC_STAT n, TC_CTX n] [.cores, .sched, .cwy, .out, .free, .place] s (tileMoved x n c (nowOf w n + 1)) :=
      (hbefore.mono (by simp) (by decide)).trans (hmoved.mono (by simp) (by decide))
    exact (hs.changesOnly heff).keeps

/-! ### Resolution as it stands after other registers changed (R180) -/

section

variable {regs : List Nat} {parts : List Part} {i addr len : Nat} {e : PltEntry} {small write : Bool}

theorem of_resolve (h : resolve s small ctx addr len write = .ok (i, e)) :
    objectAt s (addr / 65536) = some (i, e) ∧ s.looked ctx addr len = s.lookup addr := by
  unfold resolve at h
  split at h
  · exact nomatch h
  · next hwin =>
    have hlooked : s.looked ctx addr len = s.lookup addr := if_pos (by simpa using hwin)
    split at h
    · exact nomatch h
    · next j o hobj =>
      refine ⟨?_, hlooked⟩
      rw [hobj]
      simp only [ite_eq_iff, reduceCtorEq, and_false, false_or, Except.ok.injEq] at h
      exact congrArg some h.2.2.2.2

theorem Effect.resolve (h : Effect regs parts s t) (hp : Part.place ∉ parts) (hready : MEM_PLT_CTRL ∉ regs) (hwin : SCH_CTX_WIN ctx ∉ regs) :
    resolve t small ctx addr len write = resolve s small ctx addr len write := by
  have hobj (u : Nat) : objectAt t u = objectAt s u := by
    rw [objectAt, objectAt, (h.keeps .place hp).1, h.on (f := MEM_PLT_CTRL_READY) hready]
  have hin (a : Nat) : inWindow t ctx a = inWindow s ctx a := by
    rw [inWindow, inWindow, h.get (f := SCH_CTX_WIN_BASE ctx) hwin, h.get (f := SCH_CTX_WIN_LIMIT ctx) hwin]
  simp only [Machine.resolve, hobj, hin]

theorem protClosed_of_fuses (h : t.fuses = s.fuses) {ib : Nat} : protClosed t ib addr write = protClosed s ib addr write := by
  rw [protClosed, protClosed, protWindows, protWindows, h]

/-! ### STORE -/

/-- A STORE's tile in its object: marked, stored and awaiting its acknowledgement. -/
def storedBytes (s : State) (n ctx k addr : Nat) (e : PltEntry) (p : Tbl PltEntry) (g : Tbl TagState) (bs : List Byte) : State :=
  let u := (({ s.lookup addr with plt := p, tags := g } : State).store (objPlace e (addr - e.base * 65536)) bs).unpoison
    (objPlace e (addr - e.base * 65536)) bs.length
  { u with acks := u.acks ++ [{ pcore := n, ctx := ctx, lcore := k, unit := addr / 65536 }] }

/-- The cores stand, memory has the tile's bytes, and one more acknowledgement is due. -/
theorem storedBytes_parts (p : Tbl PltEntry) (g : Tbl TagState) (bs : List Byte) :
    (storedBytes s n ctx k addr e p g bs).cores = (s.lookup addr).cores ∧
    (storedBytes s n ctx k addr e p g bs).mem = memWrite s.mem (objPlace e (addr - e.base * 65536)) bs ∧
    (storedBytes s n ctx k addr e p g bs).acks =
      (s.lookup addr).acks ++ [{ pcore := n, ctx := ctx, lcore := k, unit := addr / 65536 }] ∧
    Effect [MEM_PLT_CNT_LKMISS] [.cores, .mem, .poison, .place, .free] s (storedBytes s n ctx k addr e p g bs) := by
  unfold storedBytes
  rw [← mem_lookup s addr]
  have hlook := effect_lookup_miss (s := s) addr
  generalize s.lookup addr = u at hlook ⊢
  generalize objPlace e (addr - e.base * 65536) = a
  exact ⟨rfl, rfl, rfl, ((((hlook.mono (List.Subset.refl _) (by decide)).marked p g (by decide)).store _ _ (by decide)).unpoison _ _
    (by decide)).acks _ (by decide)⟩

theorem storeBytes_eq {bs : List Byte} (hres : resolve s false ctx addr 65536 true = .ok (i, e)) (hprot : protClosed s 2 addr true = false)
    (htier : e.tier = 4 → hostUp s = true) (h2 : e.st ≠ 2) (h3 : e.st ≠ 3) (hplt : tget s.plt i = some e) :
    ∃ p g, storeBytes s n ctx k addr bs = storedBytes s n ctx k addr e p g bs := by
  have hlook : (s.lookup addr).plt = s.plt := plt_lookup s addr
  obtain ⟨p, g, b, w, hmark, hget⟩ := markPublication_cases (s := s.lookup addr) (i := i) (e := e) (by rw [hlook]; exact hplt)
    ((stepOf (s.lookup addr) ctx).bind fun t => t.tag)
  have hres' : Machine.resolve (s.lookup addr) false ctx addr 65536 true = .ok (i, e) :=
    (resolve_congr hlook (fun a ha => rd_lookup s ha) ..).trans hres
  have hprot' : protClosed (s.lookup addr) 2 addr true = false := (protClosed_of_fuses (fuses_lookup _)).trans hprot
  have hhost : ¬ (e.tier = 4 ∧ (!hostUp (s.lookup addr)) = true) := by
    rw [hostUp_lookup]
    exact fun ⟨h4, hdown⟩ => by simp [htier h4] at hdown
  refine ⟨p, g, ?_⟩
  unfold storeBytes storedBytes
  simp only [(of_resolve hres).2, hres', hprot', Bool.false_eq_true, if_false, if_neg hhost, hmark, tgetD, hget, Option.getD_some,
    objWrite_resting (e := { e with unc := b, wtag := w }) h2 h3]
  rfl

end

/-- The STORE's command with one more tile read. -/
def readCmd (c : Cmd) : Cmd :=
  { c with pipe := [], doneAt := if c.unit + 1 = mvTiles c.desc then some (c.next + 256) else none }

/-- The state in which a STORE's tile leaves for its object. -/
def tileRead (s : State) (n : Nat) (c : Cmd) : State :=
  (tileMoved ((s.countWrap MEM_TMV_CNT_WAITCOPY_VALUE 0).countWrap (TC_CNT_TAIL_VALUE n) 0) n (readCmd c) (c.next + 256)).countWrap
    MEM_TMV_CNT_TILES_VALUE 1

theorem effect_waitcopy : Effect [] [] s (s.countWrap MEM_TMV_CNT_WAITCOPY_VALUE 0) := effect_countWrap_zero _ (by decide)

theorem effect_tileRead (c : Cmd) : Effect [TC_STAT n, TC_CTX n, MEM_TMV_CNT_TILES] [.cores] s (tileRead s n c) :=
  ((effect_waitcopy.mono (List.nil_subset _) (List.nil_subset _)).trans (((effect_countWrap_zero _ (show 0 ≤ 64 by decide)).trans
    (effect_tileMoved ..)).mono (by simp) (List.Subset.refl _))).countWrap _ (by simp [MEM_TMV_CNT_TILES_VALUE])

theorem fuses_tileMoved (c : Cmd) (a : Nat) : (tileMoved s n c a).fuses = s.fuses := by
  unfold tileMoved
  simp only
  split
  · exact setCore_keeps.2.2.2.2.2.trans setCore_keeps.2.2.2.2.2
  · exact setCore_keeps.2.2.2.2.2

theorem mem_tileMoved (c : Cmd) (a : Nat) : (tileMoved s n c a).mem = s.mem := by
  unfold tileMoved
  simp only
  split
  · exact setCore_keeps.2.2.1.trans setCore_keeps.2.2.1
  · exact setCore_keeps.2.2.1

theorem storeTile_eq {f : Nat} (hjob : jobOf s n = some (ctx, k)) (hcmd : tileCmd s n 9 = some c) (hlive : coreLive s n = true)
    (hstart : c.start.isSome = true) (hwait : c.wait ≠ 6) (hread : readFrom s n (mvRef c.desc, 128 * c.unit, 128) = some f)
    (hf : f ≤ c.next) (hnow : c.next ≤ nowOf s n) (hcopy : tileWaits s (mvAddr c.desc + c.unit * 65536) = false) :
    storeTile n s = storeBytes (tileRead s n c) n ctx k (mvAddr c.desc + c.unit * 65536) (readLines s n (mvRef c.desc) (128 * c.unit) 128) := by
  obtain ⟨at_, hat⟩ := Option.isSome_iff_exists.mp hstart
  have hlines : SameLines n s (s.countWrap MEM_TMV_CNT_WAITCOPY_VALUE 0) := effect_waitcopy.sameLines rfl rfl (by simp)
  have hidle : copyWait c = none := if_neg hwait
  have hnone : copyWaited s c = 0 := by rw [copyWaited, hidle]
  unfold storeTile tileRead readCmd
  simp only [hjob, hcmd, if_neg (show ¬ (!coreLive s n) = true by simp [hlive]), startCmd_started hat, hread, Nat.sub_eq_zero_of_le hf,
    Nat.add_zero, if_neg (Nat.not_lt.mpr hnow), hcopy, Bool.false_eq_true, if_false, hnone, hidle, Option.isSome_none, tileCycles,
    hlines.read]

theorem completes_store (hon : s.powered) (hn : n < 8) {f i a : Nat} {e : PltEntry} (hjob : jobOf s n = some (ctx, k))
    (hcmd : tileCmd s n 9 = some c) (hlive : coreLive s n = true) (hstart : c.start.isSome = true) (hwait : c.wait ≠ 6)
    (hread : readFrom s n (mvRef c.desc, 128 * c.unit, 128) = some f) (hf : f ≤ c.next) (hnow : c.next ≤ nowOf s n)
    (ha : a = mvAddr c.desc + c.unit * 65536) (hres : resolve s false ctx a 65536 true = .ok (i, e)) (hprot : protClosed s 2 a true = false)
    (htier : e.tier = 4 → hostUp s = true) (h2 : e.st ≠ 2) (h3 : e.st ≠ 3) (hplt : tget s.plt i = some e) :
    Completes (.store n) s fun t =>
      (∃ q, getCmd t n 4 c.no = some q ∧ q.desc = c.desc ∧ q.unit = c.unit + 1 ∧ q.next = c.next + 256 ∧
        (c.unit + 1 = mvTiles c.desc → q.doneAt = some (c.next + 256))) ∧
      (∀ b, memGet t.mem b = memGet (s.store (objPlace e (a - e.base * 65536)) (readLines s n (mvRef c.desc) (128 * c.unit) 128)).mem b) ∧
      t.acks = s.acks ++ [{ pcore := n, ctx := ctx, lcore := k, unit := a / 65536 }] ∧
      ChangesOnly [TC_STAT n, TC_CTX n, MEM_TMV_CNT_TILES, MEM_PLT_CNT_LKMISS] [.cores, .mem, .poison, .place, .free] s t := by
  have hcopy : tileWaits s a = false := by
    rw [tileWaits, (of_resolve hres).1]
    simp [inCopy, h2, h3]
  have hstore := storeTile_eq hjob hcmd hlive hstart hwait hread hf hnow (ha ▸ hcopy)
  have heff : Effect [TC_STAT n, TC_CTX n, MEM_TMV_CNT_TILES] [.cores] s (tileRead s n c) := effect_tileRead c
  have hbeyond {b : Nat} (hlow : 0x100002000000 ≤ b) (htiles : b ≠ MEM_TMV_CNT_TILES) : b ∉ [TC_STAT n, TC_CTX n, MEM_TMV_CNT_TILES] := by
    simp only [List.mem_cons, List.not_mem_nil, TC_STAT, TC_CTX, not_or, htiles, not_false_eq_true, and_true]
    omega
  have hwin : SCH_CTX_WIN ctx ∉ [TC_STAT n, TC_CTX n, MEM_TMV_CNT_TILES] :=
    hbeyond (by unfold SCH_CTX_WIN; omega) (by unfold SCH_CTX_WIN MEM_TMV_CNT_TILES; omega)
  have hfuses : (tileRead s n c).fuses = s.fuses := fuses_tileMoved ..
  have hmem : (tileRead s n c).mem = s.mem := mem_tileMoved ..
  have hacks : (tileRead s n c).acks = s.acks := acks_tileMoved ..
  have hget : getCmd (tileRead s n c) n 4 c.no = some (movedCmd (readCmd c) (c.next + 256)) :=
    getCmd_tileMoved (s := (s.countWrap MEM_TMV_CNT_WAITCOPY_VALUE 0).countWrap (TC_CNT_TAIL_VALUE n) 0) (c := readCmd c) (tileCmd_mem hcmd) rfl _
  rw [← ha] at hstore
  generalize tileRead s n c = u at hstore heff hfuses hmem hacks hget
  have hstands : ∃ p g, storeBytes u n ctx k a (readLines s n (mvRef c.desc) (128 * c.unit) 128) =
      storedBytes u n ctx k a e p g (readLines s n (mvRef c.desc) (128 * c.unit) 128) := by
    refine storeBytes_eq (i := i) ?_ ?_ (fun h4 => ?_) h2 h3 ?_
    · rw [heff.resolve (by decide) (hbeyond (by decide) (by decide)) hwin, hres]
    · exact (protClosed_of_fuses hfuses).trans hprot
    · rw [hostUp, heff.on (f := FLD_PCI_STAT_BME) (hbeyond (by decide) (by decide))]
      exact htier h4
    · rw [(heff.keeps .place (by decide)).1, hplt]
  obtain ⟨p, g, hstored⟩ := hstands
  obtain ⟨hucores, humem, huacks, hueff⟩ := storedBytes_parts (s := u) (n := n) (ctx := ctx) (k := k) (addr := a) (e := e) p g
    (readLines s n (mvRef c.desc) (128 * c.unit) 128)
  rw [hstored] at hstore
  obtain ⟨hlookcores, hlookacks⟩ := (effect_lookup_miss (s := u) a).keeps .cores (by decide)
  generalize storedBytes u n ctx k a e p g (readLines s n (mvRef c.desc) (128 * c.unit) 128) = v at hstore hucores humem huacks hueff
  have hlast (h : c.unit + 1 = mvTiles c.desc) : (movedCmd (readCmd c) (c.next + 256)).doneAt = some (c.next + 256) := if_pos h
  refine completes_of_settled (congrArg (finish s) hstore) hon fun t hs =>
    ⟨⟨movedCmd (readCmd c) (c.next + 256), ?_, rfl, rfl, rfl, hlast⟩, fun b => ?_, ?_, ?_⟩
  · exact (getCmd_congr (congrArg (fun k : Core => k.queue 4) (coreOf_of_cores (hs.cores.trans (hucores.trans hlookcores)) n)) c.no).trans hget
  · rw [hs.mem, humem, hmem, State.store]
  · rw [hs.acks, huacks, hlookacks, hacks]
  · exact hs.changesOnly ((heff.mono (by simp) (by decide)).trans (hueff.mono (by simp) (by decide)))

/-! ### A tile lands, a STORE is acknowledged -/

theorem tileSource_of_resolve {tile i : Nat} {e : PltEntry} (hres : resolve s false ctx (mvAddr c.desc + tile * 65536) 65536 false = .ok (i, e))
    (hsrc : tget c.src tile = some e) : tileSource s ctx c tile = .ok e := by
  unfold tileSource
  rw [hres, hsrc]
  exact congrArg Except.ok (ite_self e)

theorem zeroBlocks_nil (a : Nat) (bs : List Byte) : zeroBlocks a [] bs = bs := by
  unfold zeroBlocks
  refine List.ext_getElem (by simp) fun i _ hi => ?_
  simp [List.getD_eq_getElem?_getD, hi]

theorem padBytes_self (bs : List Byte) : padBytes bs.length bs = bs := by
  rw [padBytes, List.take_length, Nat.sub_self, List.replicate_zero, List.append_nil]

theorem length_objRead (s : State) (e : PltEntry) (ofs len : Nat) : (objRead s e ofs len).length = len := by
  unfold objRead tierLoad State.load
  split <;> simp

/-- The registers of a core's regions are not those of the placement table. -/
theorem rgnCfg_ne_lkmiss (x r : Nat) : rgnCfg n x r ∉ [MEM_PLT_CNT_LKMISS] := by
  simp only [rgnCfg, TC_WRGN_CFG, MEM_PLT_CNT_LKMISS, List.mem_singleton]
  omega

theorem tileLanded_eq {tile i a : Nat} {e : PltEntry} (hjob : jobOf s n = some (ctx, k)) (hlive : coreLive s n = true)
    (hqueue : (coreOf s n).queue 4 = [c]) (hopc : dOpc c.desc = 8) (htile : tile < c.unit) (hlanded : tile ∉ c.landed)
    (hremote : s.sched.remote = []) (ha : a = mvAddr c.desc + tile * 65536) (hport : (coreOf s n).mark portKey ≤ nowOf s n)
    (hbegun : c.start.getD 0 + 256 ≤ nowOf s n) (hsrc : tget c.src tile = some e) (hres : resolve s false ctx a 65536 false = .ok (i, e))
    (hprot : protClosed s 2 a false = false) (hpub : unpublished s ctx e = false) (htier : e.tier = 4 → hostUp s = true)
    (hpoison : poisonedIn s (objPlace e (a - e.base * 65536)) 65536 = []) :
    exec (.tileLanded n tile []) s =
      finish s (landTile (s.lookup a) n c tile (objRead (s.lookup a) e (a - e.base * 65536) 65536)) := by
  have hfind : (((coreOf s n).queue 4).find? fun q => dOpc q.desc == 8 && tile < q.unit && !q.landed.contains tile &&
      !s.sched.remote.any fun r => r.2.core == n && r.2.no == q.no && r.2.tile == tile && r.2.epoch == (coreOf s n).epoch) = some c := by
    rw [hqueue, hremote]
    exact List.find?_cons_of_pos (by simp [hopc, htile, hlanded])
  have hgo : ¬ ((!coreLive s n) = true ∨ nowOf s n < max ((coreOf s n).mark portKey) (c.start.getD 0 + tileCycles)) := by
    rw [hlive, tileCycles]
    simp only [Bool.not_true, Bool.false_eq_true, false_or]
    omega
  have hres' : resolve (s.lookup a) false ctx (mvAddr c.desc + tile * 65536) 65536 false = .ok (i, e) := by
    rw [resolve_congr (plt_lookup s a) (fun b hb => rd_lookup s hb), ← ha, hres]
  have hprot' : protClosed (s.lookup a) 2 a false = false := (protClosed_of_fuses (fuses_lookup _)).trans hprot
  have hpub' : unpublished (s.lookup a) ctx e = false := by rw [unpublished_lookup, hpub]
  have hhost : ¬ (e.tier = 4 ∧ (!hostUp (s.lookup a)) = true) := by
    rw [hostUp_lookup]
    exact fun ⟨h4, hdown⟩ => by simp [htier h4] at hdown
  have herrs : (s.lookup a).tileErrors e.tier (objPlace e (a - e.base * 65536)) [] = (s.lookup a, []) :=
    tileErrors_nil (by rw [poisonedIn_lookup, hpoison]) _
  show execTileLanded n tile [] s = _
  unfold execTileLanded
  simp only [hjob, hfind, if_neg hgo, ← ha, (of_resolve hres).2, tileSource_of_resolve hres' hsrc, hprot', hpub', Bool.false_eq_true, if_false,
    if_neg hhost, herrs, List.isEmpty_nil, if_true, zeroBlocks_nil]

theorem completes_tileLanded (hon : s.powered) {tile i a : Nat} {e : PltEntry} (hjob : jobOf s n = some (ctx, k)) (hlive : coreLive s n = true)
    (hqueue : (coreOf s n).queue 4 = [c]) (hopc : dOpc c.desc = 8) (htile : tile < c.unit) (hlanded : tile ∉ c.landed)
    (hremote : s.sched.remote = []) (ha : a = mvAddr c.desc + tile * 65536) (hport : (coreOf s n).mark portKey ≤ nowOf s n)
    (hbegun : c.start.getD 0 + 256 ≤ nowOf s n) (hsrc : tget c.src tile = some e) (hres : resolve s false ctx a 65536 false = .ok (i, e))
    (hprot : protClosed s 2 a false = false) (hpub : unpublished s ctx e = false) (htier : e.tier = 4 → hostUp s = true)
    (hpoison : poisonedIn s (objPlace e (a - e.base * 65536)) 65536 = []) :
    Completes (.tileLanded n tile []) s fun t =>
      (∃ d, getCmd t n 4 c.no = some { c with landed := c.landed ++ [tile], doneAt := d }) ∧
      (∀ b, memGet t.mem b = memGet (writeLines s n (mvRef c.desc) (128 * tile)
        (objRead (s.lookup a) e (a - e.base * 65536) 65536)).mem b) ∧
      ChangesOnly [TC_STAT n, TC_CTX n, MEM_TMV_CNT_TILES, MEM_PLT_CNT_LKMISS,
        rgnPtr n (refStore (mvRef c.desc)) (refRgn (mvRef c.desc))] [.cores, .mem, .place, .free] s t := by
  have hexec := tileLanded_eq hjob hlive hqueue hopc htile hlanded hremote ha hport hbegun hsrc hres hprot hpub htier hpoison
  have hlook := effect_lookup_miss (s := s) a
  have hlines : SameLines n s (s.lookup a) := hlook.sameLines (mem_lookup s a) (plt_lookup s a) fun x r _ _ => rgnCfg_ne_lkmiss x r
  have hlen : (objRead (s.lookup a) e (a - e.base * 65536) 65536).length = 65536 := length_objRead ..
  generalize objRead (s.lookup a) e (a - e.base * 65536) 65536 = bs at hexec hlen
  have hpad : padBytes 65536 bs = bs := hlen ▸ padBytes_self bs
  have hcore := coreOf_of_cores (hlook.keeps .cores (by decide)).1 n
  generalize s.lookup a = u at hexec hlook hlines hcore
  obtain ⟨d, hget⟩ := getCmd_landTile (s := u) (n := n) (c := c) (by rw [hcore, hqueue]) tile bs
  refine completes_of_settled hexec hon fun t hs => ⟨⟨d, ?_⟩, fun b => ?_, ?_⟩
  · exact (getCmd_congr (congrArg (fun k : Core => k.queue 4) (coreOf_of_cores hs.cores n)) c.no).trans hget
  · rw [hs.mem, mem_landTile, (hlines.written ..).mem, hpad]
  · exact hs.changesOnly ((hlook.mono (by simp) (by decide)).trans ((effect_landTile ..).mono (by simp [landedRegs]) (by decide)))

theorem completes_storeAck (hon : s.powered) {tile : Nat} {w : StoreAck} (hw : w ∈ s.acks) (hcore : w.pcore = n) (hunit : w.unit = tile) :
    Completes (.storeAck n tile) s fun t =>
      (∃ v ∈ s.acks, v.pcore = n ∧ v.unit = tile ∧ t.acks = s.acks.erase v) ∧
      (∀ p, (coreOf t n).queue p = (coreOf s n).queue p) ∧ ChangesOnly [TC_STAT n, TC_CTX n] [.cores] s t := by
  obtain ⟨v, hfind⟩ := Option.isSome_iff_exists.mp
    (List.find?_isSome (p := fun a : StoreAck => a.pcore == n && a.unit == tile) |>.mpr ⟨w, hw, by simp [hcore, hunit]⟩)
  have hv := List.mem_of_find?_eq_some hfind
  have hvis : v.pcore = n ∧ v.unit = tile := by simpa using List.find?_some hfind
  have hacked : Effect [TC_STAT n, TC_CTX n] [.cores] s { s with acks := s.acks.erase v } := (Effect.refl s).acks _ (by decide)
  have hexec : exec (.storeAck n tile) s = finish s (if (jobOf s n).isSome then
      ({ s with acks := s.acks.erase v } : State).setCore n ((coreOf s n).setMark ackKey (nowOf s n)) else { s with acks := s.acks.erase v }) := by
    show execStoreAck n tile s = _
    unfold execStoreAck
    rw [hfind]
    rfl
  refine completes_of_settled hexec hon fun t hs => ?_
  split at hs
  · refine ⟨⟨v, hv, hvis.1, hvis.2, hs.acks.trans setCore_keeps.1⟩, fun p => ?_, hs.changesOnly (hacked.setCore (by simp) (by simp) (by simp) _)⟩
    rw [coreOf_of_cores hs.cores, coreOf_setCore_same]
    rfl
  · exact ⟨⟨v, hv, hvis.1, hvis.2, hs.acks⟩, fun p => congrArg (fun k : Core => k.queue p) (coreOf_of_cores hs.cores n), hs.changesOnly hacked⟩

end

/-- Settles O12: a PULL's next tile is asked for here or of another module, a STORE's next tile is stored and awaits its acknowledgement, a
tile that landed is written as it was read, and an acknowledgement is taken. -/
theorem tileMoverMovesTiles : Obligations.TileMoverMovesTiles := by
  unfold Obligations.TileMoverMovesTiles
  intro s n hon hn hlive
  exact ⟨fun ctx k c f hjob hcmd hstart hwrite hf hnow hpeer => completes_pull_here hon hjob hcmd hlive hstart hwrite hf hnow hpeer,
    fun ctx k c f m u slot hjob hcmd hstart hwrite hf hnow hpeer hslot =>
      completes_pull_peer hon hjob hcmd hlive hstart hwrite hf hnow hpeer hslot,
    fun ctx k c f i e a hjob hcmd hstart hwait hread hf hnow ha hres hprot htier h2 h3 hplt =>
      completes_store hon hn hjob hcmd hlive hstart hwait hread hf hnow ha hres hprot htier h2 h3 hplt,
    fun tile c ctx k i e a hjob hqueue hopc htile hlanded hremote ha hport hbegun hsrc hres hprot hpub htier hpoison =>
      completes_tileLanded hon hjob hlive hqueue hopc htile hlanded hremote ha hport hbegun hsrc hres hprot hpub htier hpoison,
    fun tile w hw hcore hunit => completes_storeAck hon hw hcore hunit⟩

end Sys2Proof.Machine
end
section
/-! The ends of steps, spills and restores, and the tiles of other modules (R91, R236, R239, R241, R244, R246). -/

namespace Sys2Proof.Machine

open Sys2Proof Sys2Proof.Machine.Reg

/-! ### Tiles of other modules (R223, R246) -/

section

variable {s t : State} {slot : Nat} {r : RemoteSlot} {data : List Byte}

theorem effect_freeRemote (slot : Nat) : Effect [] [.sched] s (freeRemote s slot) :=
  (Effect.refl s).components rfl fun p hq => by
    cases p
    case sched => exact absurd (by decide) hq
    all_goals simp [Keeps, freeRemote]

theorem completes_remote_stale (hon : s.powered) (hslot : tget s.sched.remote slot = some r) (hepoch : r.epoch ≠ (coreOf s r.core).epoch)
    (hmaint : (coreOf s r.core).maint = false) : Completes (.remoteReadResponse slot data) s fun t =>
      t.get SCH_CNT_STALE_VALUE = satAdd 32 (s.get SCH_CNT_STALE_VALUE) 1 ∧ t.on SCH_EVT_STALE = true ∧
      t.sched = { s.sched with remote := tdel s.sched.remote slot } ∧ ChangesOnly [SCH_CNT_STALE, SCH_EVT] [.sched] s t := by
  have hexec : exec (.remoteReadResponse slot data) s = finish s (staleResponse (freeRemote s slot)) := by
    show execRemoteReadResponse slot data s = _
    unfold execRemoteReadResponse
    rw [hslot]
    simp only [hmaint, Bool.false_eq_true, if_false]
    exact congrArg (finish s) (if_pos hepoch)
  refine completes_of_settled hexec hon fun t hs => ⟨?_, ?_, hs.sched, hs.changesOnly ?_⟩
  · rw [hs.get _ (by decide) (by decide)]
    exact (State.get_setOn_apart (.inl (by decide))).trans (State.get_count_self (by decide) _)
  · rw [hs.on _ (by decide) (by decide)]
    exact State.on_setOn _ _ rfl (by decide)
  · exact ((((effect_freeRemote slot).mono (List.nil_subset _) (List.Subset.refl _)).count 1 (by decide)).setOn (by decide))

theorem completes_remote_held (hon : s.powered) (hslot : tget s.sched.remote slot = some r) (hmaint : (coreOf s r.core).maint = true) :
    Completes (.remoteReadResponse slot data) s fun t => t.sched = s.sched ∧ ChangesOnly [] [] s t := by
  have hexec : exec (.remoteReadResponse slot data) s = finish s s := by
    show execRemoteReadResponse slot data s = _
    unfold execRemoteReadResponse
    rw [hslot]
    exact congrArg (finish s) (if_pos hmaint)
  exact completes_of_settled hexec hon fun t hs => ⟨hs.sched, hs.changesOnly (Effect.refl s)⟩

theorem completes_remote_lands {c : Cmd} (hon : s.powered) (hslot : tget s.sched.remote slot = some r)
    (hepoch : r.epoch = (coreOf s r.core).epoch) (hmaint : (coreOf s r.core).maint = false) (hqueue : (coreOf s r.core).queue 4 = [c])
    (hno : r.no = c.no) (hopc : dOpc c.desc = 8) : Completes (.remoteReadResponse slot data) s fun t =>
      (∃ d, getCmd t r.core 4 c.no = some { c with landed := c.landed ++ [r.tile], doneAt := d }) ∧
      (∀ a, memGet t.mem a = memGet (writeLines s r.core (mvRef c.desc) (128 * r.tile) (padBytes 65536 data)).mem a) ∧
      t.sched = { s.sched with remote := tdel s.sched.remote slot } ∧
      ChangesOnly [TC_STAT r.core, TC_CTX r.core, MEM_TMV_CNT_TILES,
        rgnPtr r.core (refStore (mvRef c.desc)) (refRgn (mvRef c.desc))] [.cores, .sched, .mem] s t := by
  have hpull : remotePull (freeRemote s slot) r = some c := by
    rw [remotePull, show coreOf (freeRemote s slot) r.core = coreOf s r.core from rfl, hqueue]
    exact List.find?_cons_of_pos (by simp [hno, hopc])
  have hexec : exec (.remoteReadResponse slot data) s =
      finish s (landTile (freeRemote s slot) r.core c r.tile (padBytes 65536 data)) := by
    show execRemoteReadResponse slot data s = _
    unfold execRemoteReadResponse
    rw [hslot]
    simp only [hmaint, Bool.false_eq_true, if_false]
    rw [if_neg (show ¬ r.epoch ≠ (coreOf (freeRemote s slot) r.core).epoch from fun h => h hepoch), hpull]
  have hfree := effect_freeRemote (s := s) slot
  have hlines : SameLines r.core s (freeRemote s slot) := hfree.sameLines rfl rfl (by simp)
  have hpad : padBytes 65536 (padBytes 65536 data) = padBytes 65536 data := by
    have hlen := length_padBytes 65536 data
    generalize padBytes 65536 data = bs at hlen
    exact hlen ▸ padBytes_self bs
  have hsched : (freeRemote s slot).sched = { s.sched with remote := tdel s.sched.remote slot } := rfl
  obtain ⟨d, hget⟩ := getCmd_landTile (s := freeRemote s slot) (n := r.core) hqueue r.tile (padBytes 65536 data)
  generalize freeRemote s slot = u at hexec hfree hlines hsched hget
  generalize padBytes 65536 data = bs at hexec hpad hget ⊢
  have hland := effect_landTile (s := u) (n := r.core) c r.tile bs
  refine completes_of_settled hexec hon fun t hs => ⟨⟨d, ?_⟩, fun b => ?_, ?_, ?_⟩
  · exact (getCmd_congr (congrArg (fun k : Core => k.queue 4) (coreOf_of_cores hs.cores _)) c.no).trans hget
  · rw [hs.mem, mem_landTile, (hlines.written ..).mem, hpad]
  · rw [hs.sched, hland.keeps .sched (by decide), hsched]
  · exact hs.changesOnly ((hfree.mono (List.nil_subset _) (by decide)).trans (hland.mono (by simp [landedRegs]) (by decide)))

end

/-! ### A core that a step leaves -/

section

variable {s t : State} {n ctx k : Nat} {st : Step}

theorem of_lcoreOn {sts : List Nat} (h : lcoreOn s n sts = some (ctx, k, st)) :
    (coreOf s n).job = some (ctx, k) ∧ stepOf s ctx = some st ∧ sts.contains (st.lcore k).st = true ∧ (st.lcore k).pcore = n := by
  unfold lcoreOn at h
  split at h
  · exact nomatch h
  next c j hjob =>
    split at h
    · exact nomatch h
    next x hstep =>
      split at h
      next hin =>
        obtain ⟨rfl, rfl, rfl⟩ : c = ctx ∧ j = k ∧ x = st := by simpa using h
        exact ⟨hjob, hstep, hin.1, hin.2⟩
      · exact nomatch h

theorem job_leaveCore (s : State) (n : Nat) : (coreOf (s.leaveCore n) n).job = none := by
  unfold State.leaveCore
  simp only
  rw [coreOf_setCore_same]
  rfl

theorem killing_leaveCore (s : State) (n : Nat) : (coreOf (s.leaveCore n) n).killing = false := by
  unfold State.leaveCore
  simp only
  rw [coreOf_setCore_same]
  rfl

theorem coreOf_leaveCore_ne {m : Nat} (h : m ≠ n) : coreOf (s.leaveCore n) m = coreOf s m := by
  unfold State.leaveCore
  simp only
  rw [coreOf_setCore_ne h]
  rfl

theorem effect_leaveCore (n : Nat) : Effect [TC_STAT n, TC_CTX n, TC_CNT_CYC n] [.cores] s (s.leaveCore n) := by
  unfold State.leaveCore
  exact ((Effect.refl s).countWrap (f := TC_CNT_CYC_VALUE n) _ (by simp [TC_CNT_CYC_VALUE])).setCore (by simp) (by simp) (by simp) _

/-- A core that is left leaves what no core holds. -/
theorem leaveCore_keeps (s : State) (n : Nat) : (s.leaveCore n).mem = s.mem ∧ (s.leaveCore n).tags = s.tags ∧
    (s.leaveCore n).sched = s.sched := by
  unfold State.leaveCore
  obtain ⟨-, hsched, hmem, -, htags, -⟩ := setCore_keeps (s := s.countWrap (TC_CNT_CYC_VALUE n) (coreCyc s (coreOf s n) - (coreOf s n).since))
    (n := n) (c := { Core.idle with
      active := (coreOf s n).active, shadow := (coreOf s n).shadow, shadowSt := (coreOf s n).shadowSt
      epoch := (coreOf s n).epoch, clkAt := (coreOf s n).clkAt, clkAcc := (coreOf s n).clkAcc, plevel := (coreOf s n).plevel
      maint := (coreOf s n).maint, relockEnd := (coreOf s n).relockEnd })
  exact ⟨hmem, htags, hsched⟩

/-! ### Commit (R91, R236) -/

theorem tags_quietWrite (s : State) (a : Nat) (bs : List Byte) : (quietWrite s a bs).tags = s.tags := by
  have hobj (u : State) (i : Nat) (e : PltEntry) (ofs : Nat) : (objWrite u i e ofs bs).tags = u.tags := by
    unfold objWrite
    simp only
    split
    · rfl
    · split <;> rfl
  unfold quietWrite
  split
  · rfl
  · split
    · rfl
    · rw [hobj]
      obtain h | ⟨v, c, m, h⟩ := lookup_cases s a <;> rw [h]
      rfl

/-- A context's registers are not among those of an access. -/
theorem ctx_not_mem_accessRegs {a : Nat} (h : 0x100003100000 ≤ a ∧ a < 0x100003110000) : a ∉ accessRegs := by
  have hapart : ∀ b ∈ accessRegs, b < 0x100003100000 ∨ 0x100003110000 ≤ b := by decide
  intro ha
  have := hapart a ha
  omega

/-- The step's tag is committed. -/
def tagCommitted (s : State) (st : Step) : State :=
  match st.tag with
  | some g => { s with tags := tset s.tags g { tgetD s.tags g { committed := false, log := [], overflow := false } with committed := true } }
  | none => s

theorem effect_tagCommitted (st : Step) : Effect [] [.place] s (tagCommitted s st) := by
  unfold tagCommitted
  split
  · exact (Effect.refl s).marked s.plt _ (List.mem_singleton.mpr rfl)
  · exact Effect.refl s

theorem tags_tagCommitted {g : Nat} (h : st.tag = some g) : ∃ ts, tget (tagCommitted s st).tags g = some ts ∧ ts.committed = true := by
  rw [tagCommitted, h]
  exact ⟨_, tget_tset_same .., rfl⟩

/-- The counts and events of a step that commits, and the context without it. -/
def stepCounted (s : State) (ctx : Nat) (st : Step) : State :=
  (onIf (eIrq st.entry) (fun s => s.setOn SCH_EVT_COMMIT)
    ((s.put (SCH_CTX_SCONS_INDEX ctx) (s.get (SCH_CTX_SCONS_INDEX ctx) + 1)).count (SCH_CTX_CNT_STEPS_VALUE ctx) 1)).dropStep ctx

theorem effect_dropStep (ctx : Nat) : Effect [SCH_CTX_STAT ctx] [.sched] s (s.dropStep ctx) :=
  ((Effect.refl s).sched _ (List.mem_singleton.mpr rfl)).syncCtx (List.mem_singleton.mpr rfl)

/-- What the commit of a step shows. -/
structure StepCounted (s : State) (ctx : Nat) (st : Step) (u : State) : Prop where
  cores : u.cores = s.cores
  tags : u.tags = s.tags
  gone : stepOf u ctx = none
  scons : u.get (SCH_CTX_SCONS_INDEX ctx) = (s.get (SCH_CTX_SCONS_INDEX ctx) + 1) % 65536
  steps : u.get (SCH_CTX_CNT_STEPS_VALUE ctx) = satAdd 32 (s.get (SCH_CTX_CNT_STEPS_VALUE ctx)) 1
  event : eIrq st.entry = true → u.on SCH_EVT_COMMIT = true

theorem stepCounted_shows (s : State) (ctx : Nat) (st : Step) : StepCounted s ctx st (stepCounted s ctx st) := by
  have hne : SCH_CTX_SCONS ctx ≠ SCH_CTX_CNT_STEPS ctx ∧ SCH_CTX_SCONS ctx ≠ SCH_EVT ∧ SCH_CTX_SCONS ctx ≠ SCH_CTX_STAT ctx ∧
      SCH_CTX_CNT_STEPS ctx ≠ SCH_EVT ∧ SCH_CTX_CNT_STEPS ctx ≠ SCH_CTX_STAT ctx ∧ SCH_EVT ≠ SCH_CTX_STAT ctx := by
    unfold SCH_CTX_SCONS SCH_CTX_CNT_STEPS SCH_EVT SCH_CTX_STAT
    omega
  obtain ⟨hsteps, hevt, hstat, hcevt, hcstat, hestat⟩ := hne
  unfold stepCounted
  have hput : (s.put (SCH_CTX_SCONS_INDEX ctx) (s.get (SCH_CTX_SCONS_INDEX ctx) + 1)).get (SCH_CTX_SCONS_INDEX ctx) =
      (s.get (SCH_CTX_SCONS_INDEX ctx) + 1) % 65536 := State.get_put_self (show 0 ≤ 15 ∧ 15 < 64 by decide) _
  have hcnt : (s.put (SCH_CTX_SCONS_INDEX ctx) (s.get (SCH_CTX_SCONS_INDEX ctx) + 1)).get (SCH_CTX_CNT_STEPS_VALUE ctx) =
      s.get (SCH_CTX_CNT_STEPS_VALUE ctx) := State.get_put_apart (f := SCH_CTX_SCONS_INDEX ctx) (g := SCH_CTX_CNT_STEPS_VALUE ctx) (.inl hsteps.symm) _
  generalize hw : s.put (SCH_CTX_SCONS_INDEX ctx) (s.get (SCH_CTX_SCONS_INDEX ctx) + 1) = w at hput hcnt
  obtain ⟨hwcores, hwtags⟩ : w.cores = s.cores ∧ w.tags = s.tags := by
    subst hw
    exact ⟨rfl, rfl⟩
  have hone : (w.count (SCH_CTX_CNT_STEPS_VALUE ctx) 1).get (SCH_CTX_CNT_STEPS_VALUE ctx) = satAdd 32 (w.get (SCH_CTX_CNT_STEPS_VALUE ctx)) 1 :=
    State.get_count_self (show 0 ≤ 31 ∧ 31 < 64 by decide) _
  have hkeep : (w.count (SCH_CTX_CNT_STEPS_VALUE ctx) 1).get (SCH_CTX_SCONS_INDEX ctx) = w.get (SCH_CTX_SCONS_INDEX ctx) :=
    State.get_count_apart (f := SCH_CTX_CNT_STEPS_VALUE ctx) (g := SCH_CTX_SCONS_INDEX ctx) (.inl hsteps) _
  obtain ⟨hccores, hctags⟩ : (w.count (SCH_CTX_CNT_STEPS_VALUE ctx) 1).cores = w.cores ∧
    (w.count (SCH_CTX_CNT_STEPS_VALUE ctx) 1).tags = w.tags := ⟨rfl, rfl⟩
  generalize w.count (SCH_CTX_CNT_STEPS_VALUE ctx) 1 = x at hone hkeep hccores hctags
  have hirq : Effect [SCH_EVT] [] x (onIf (eIrq st.entry) (fun s => s.setOn SCH_EVT_COMMIT) x) :=
    (Effect.refl x).onIf fun _ => (Effect.refl x).setOn (by decide)
  have hevent : eIrq st.entry = true → (onIf (eIrq st.entry) (fun s => s.setOn SCH_EVT_COMMIT) x).on SCH_EVT_COMMIT = true := by
    intro h
    rw [onIf, if_pos h]
    exact State.on_setOn _ _ rfl (by decide)
  generalize onIf (eIrq st.entry) (fun s => s.setOn SCH_EVT_COMMIT) x = y at hirq hevent
  have hdrop := effect_dropStep (s := y) ctx
  refine ⟨?_, ?_, tget_tdel_same .., ?_, ?_, fun h => ?_⟩
  · rw [(hdrop.keeps .cores (by decide)).1, (hirq.keeps .cores (by decide)).1, hccores, hwcores]
  · rw [(hdrop.keeps .place (by decide)).2.2.1, (hirq.keeps .place (by decide)).2.2.1, hctags, hwtags]
  · rw [hdrop.get (List.mem_singleton.not.mpr hstat), hirq.get (List.mem_singleton.not.mpr hevt), hkeep, hput]
  · rw [hdrop.get (List.mem_singleton.not.mpr hcstat), hirq.get (List.mem_singleton.not.mpr hcevt), hone, hcnt]
  · rw [hdrop.on (List.mem_singleton.not.mpr hestat), hevent h]

/-- The step with a logical core that has finished. -/
def reported (st : Step) (k : Nat) : Step := st.withLcore k { st.lcore k with st := 6 }

theorem lcore_reported_same (st : Step) (k : Nat) : ((reported st k).lcore k).st = 6 := by
  rw [Step.lcore, reported, Step.withLcore, tgetD_tset_same]

theorem lcore_reported_ne {j : Nat} (h : j ≠ k) : (reported st k).lcore j = st.lcore j := tgetD_tset_ne _ _ _ _ _ h

theorem commitReport_last {s : State} {n ctx k : Nat} {st : Step} (hcore : lcoreOn s n [1] = some (ctx, k, st))
    (hdone : (coreOf s n).commitDone = true) (hall : ∀ j ∈ eLcores st.entry, j ≠ k → (st.lcore j).st = 6) :
    exec (.commitReport n) s = finish s (schDecide (readyStep (stepCounted (writeEntry (tagCommitted (s.leaveCore n) st) ctx (reported st k) 1)
      ctx st) ctx)) := by
  have hevery : ((eLcores st.entry).all fun j => decide (((reported st k).lcore j).st = 6)) = true := by
    refine List.all_eq_true.mpr fun j hj => decide_eq_true ?_
    by_cases hjk : j = k
    · rw [hjk, lcore_reported_same]
    · rw [lcore_reported_ne hjk, hall j hj hjk]
  show execCommitReport n s = _
  unfold execCommitReport
  rw [hcore, hdone]
  refine congrArg (finish s) ((if_pos hevery).trans ?_)
  unfold stepCounted tagCommitted
  cases htag : st.tag <;> simp only [reported, Step.withLcore, htag]

theorem completes_commit_last {s : State} {n ctx k : Nat} {st : Step} (hon : s.powered) (hn : n < 8) (hctx : ctx < 64)
    (hcore : lcoreOn s n [1] = some (ctx, k, st)) (hdone : (coreOf s n).commitDone = true)
    (hall : ∀ j ∈ eLcores st.entry, j ≠ k → (st.lcore j).st = 6) :
    Completes (.commitReport n) s fun t => ∃ u, EndsAs s (schDecide (readyStep u ctx)) t ∧
      (coreOf u n).job = none ∧ stepOf u ctx = none ∧
      u.get (SCH_CTX_SCONS_INDEX ctx) = (s.get (SCH_CTX_SCONS_INDEX ctx) + 1) % 65536 ∧
      u.get (SCH_CTX_CNT_STEPS_VALUE ctx) = satAdd 32 (s.get (SCH_CTX_CNT_STEPS_VALUE ctx)) 1 ∧
      (∀ g, st.tag = some g → ∃ ts, tget u.tags g = some ts ∧ ts.committed = true) ∧
      (eIrq st.entry = true → u.on SCH_EVT_COMMIT = true) := by
  refine completes_of_endsAs (commitReport_last hcore hdone hall) hon fun t ht => ⟨_, ht, ?_⟩
  obtain ⟨hcores, htags, hgone, hscons, hsteps, hevent⟩ :=
    stepCounted_shows (writeEntry (tagCommitted (s.leaveCore n) st) ctx (reported st k) 1) ctx st
  have hleft := effect_leaveCore (s := s) n
  have hfree := job_leaveCore s n
  have htagged := effect_tagCommitted (s := s.leaveCore n) st
  have htag {g : Nat} (h : st.tag = some g) := tags_tagCommitted (s := s.leaveCore n) h
  have hwrote : Effect accessRegs engineParts (tagCommitted (s.leaveCore n) st) (writeEntry (tagCommitted (s.leaveCore n) st) ctx (reported st k) 1) :=
    effect_quietWrite ..
  have hkept : (writeEntry (tagCommitted (s.leaveCore n) st) ctx (reported st k) 1).tags = (tagCommitted (s.leaveCore n) st).tags := tags_quietWrite ..
  have hbefore {f : Fld} (hf : 0x100003100000 ≤ f.addr ∧ f.addr < 0x100003110000) :
      (writeEntry (tagCommitted (s.leaveCore n) st) ctx (reported st k) 1).get f = s.get f := by
    rw [hwrote.get (ctx_not_mem_accessRegs hf), htagged.get (List.not_mem_nil), hleft.get]
    simp only [List.mem_cons, List.not_mem_nil, or_false, TC_STAT, TC_CTX, TC_CNT_CYC]
    rintro (h | h | h) <;> omega
  have hrange : (0x100003100000 ≤ SCH_CTX_SCONS ctx ∧ SCH_CTX_SCONS ctx < 0x100003110000) ∧
      0x100003100000 ≤ SCH_CTX_CNT_STEPS ctx ∧ SCH_CTX_CNT_STEPS ctx < 0x100003110000 := by
    unfold SCH_CTX_SCONS SCH_CTX_CNT_STEPS
    omega
  refine ⟨?_, hgone, ?_, ?_, fun g hg => ?_, hevent⟩
  · rw [coreOf_of_cores (hcores.trans ((hwrote.keeps .cores (by decide)).1.trans (htagged.keeps .cores (by decide)).1))]
    exact hfree
  · rw [hscons, hbefore hrange.1]
  · rw [hsteps, hbefore hrange.2]
  · rw [htags, hkept]
    exact htag hg

theorem commitReport_early {s : State} {n ctx k : Nat} {st : Step} (hcore : lcoreOn s n [1] = some (ctx, k, st))
    (hdone : (coreOf s n).commitDone = true) (hnot : ¬ ((eLcores st.entry).all fun j => decide (((reported st k).lcore j).st = 6)) = true) :
    exec (.commitReport n) s = finish s (schDecide (settleStep ((s.leaveCore n).setStep ctx (reported st k)) ctx)) := by
  show execCommitReport n s = _
  unfold execCommitReport
  rw [hcore, hdone]
  exact congrArg (finish s) (if_neg hnot)

theorem effect_setStep (ctx : Nat) (st : Step) : Effect [SCH_CTX_STAT ctx] [.sched] s (s.setStep ctx st) :=
  (Effect.refl s).setStep st (List.mem_singleton.mpr rfl) (List.mem_singleton.mpr rfl)

theorem completes_commit_early {s : State} {n ctx k j : Nat} {st : Step} (hon : s.powered) (hcore : lcoreOn s n [1] = some (ctx, k, st))
    (hdone : (coreOf s n).commitDone = true) (hj : j ∈ eLcores st.entry) (hjk : j ≠ k) (hst : (st.lcore j).st ≠ 6) :
    Completes (.commitReport n) s fun t => ∃ u, EndsAs s (schDecide (settleStep u ctx)) t ∧
      (coreOf u n).job = none ∧ stepOf u ctx = some (st.withLcore k { st.lcore k with st := 6 }) := by
  have hnot : ¬ ((eLcores st.entry).all fun j => decide (((reported st k).lcore j).st = 6)) = true := fun h => hst (by
    rw [← lcore_reported_ne (st := st) hjk]
    exact of_decide_eq_true (List.all_eq_true.mp h j hj))
  refine completes_of_endsAs (commitReport_early hcore hdone hnot) hon fun t ht => ⟨_, ht, ?_, stepOf_setStep_same ..⟩
  rw [coreOf_of_cores ((effect_setStep ctx (reported st k)).keeps .cores (by decide)).1]
  exact job_leaveCore s n

/-! ### Spill (R239, R244) -/

/-- A spill tile written to its object and counted. -/
def spilled (s : State) (addr : Nat) (e : PltEntry) (bs : List Byte) : State :=
  (((s.lookup addr).store (objPlace e (addr - e.base * 65536)) bs).unpoison (objPlace e (addr - e.base * 65536)) bs.length).count
    SCH_CNT_SPILLT_VALUE 1

theorem spilled_keeps (addr : Nat) (e : PltEntry) (bs : List Byte) :
    (spilled s addr e bs).cores = s.cores ∧ (spilled s addr e bs).mem = memWrite s.mem (objPlace e (addr - e.base * 65536)) bs ∧
    (spilled s addr e bs).get SCH_CNT_SPILLT_VALUE = satAdd 32 (s.get SCH_CNT_SPILLT_VALUE) 1 ∧
    Effect [SCH_CNT_SPILLT, MEM_PLT_CNT_LKMISS] [.mem, .poison, .free, .place] s (spilled s addr e bs) := by
  have hlook := effect_lookup_miss (s := s) addr
  unfold spilled
  rw [← mem_lookup s addr, ← hlook.get (f := SCH_CNT_SPILLT_VALUE) (by decide), ← (hlook.keeps .cores (by decide)).1]
  generalize s.lookup addr = u at hlook ⊢
  generalize objPlace e (addr - e.base * 65536) = a
  refine ⟨rfl, rfl, ?_, ((((hlook.mono (by decide) (by decide)).store _ _ (by decide)).unpoison _ _ (by decide)).count _ (by decide))⟩
  exact State.get_count_self (by decide) _

theorem tileWrite_eq {addr i : Nat} {e : PltEntry} (hres : resolve s false ctx addr 65536 true = .ok (i, e))
    (htier : e.tier = 4 → hostUp s = true) (h2 : e.st ≠ 2) (h3 : e.st ≠ 3) (bs : List Byte) : tileWrite s ctx addr bs =
      .ok (((s.lookup addr).store (objPlace e (addr - e.base * 65536)) bs).unpoison (objPlace e (addr - e.base * 65536)) bs.length) := by
  have hhost : ¬ (e.tier = 4 ∧ (!hostUp (s.lookup addr)) = true) := by
    rw [hostUp_lookup]
    exact fun ⟨h4, hdown⟩ => by simp [htier h4] at hdown
  unfold tileWrite
  rw [hres]
  simp only [if_neg hhost, objWrite_resting h2 h3]

section

variable {addr place i : Nat} {rest : List (Nat × Nat)} {e : PltEntry} (hcore : lcoreOn s n [3] = some (ctx, k, st))
  (hxfer : (coreOf s n).xfer = (addr, place) :: rest) (hmaint : (coreOf s n).maint = false)
  (hres : resolve s false ctx addr 65536 true = .ok (i, e)) (htier : e.tier = 4 → hostUp s = true) (h2 : e.st ≠ 2) (h3 : e.st ≠ 3)

include hcore hxfer hmaint hres htier h2 h3

theorem exec_spillTileAck : exec (.spillTileAck n) s = finish s (if rest.isEmpty then
    freeCore ((spilled s addr e (s.load place 65536)).setStep ctx (st.withLcore k { st.lcore k with st := 4 })) n ctx
    else (spilled s addr e (s.load place 65536)).setCore n { coreOf (spilled s addr e (s.load place 65536)) n with xfer := rest }) := by
  show execSpillTileAck n s = _
  unfold execSpillTileAck
  simp only [hxfer, hcore, hmaint, Bool.false_eq_true, if_false, tileWrite_eq hres htier h2 h3]
  rfl

theorem completes_spill_more (hon : s.powered) (hn : n < 8) (hrest : rest ≠ []) : Completes (.spillTileAck n) s fun t =>
      (coreOf t n).xfer = rest ∧ t.get SCH_CNT_SPILLT_VALUE = satAdd 32 (s.get SCH_CNT_SPILLT_VALUE) 1 ∧
      (∀ a, memGet t.mem a = memGet (s.store (objPlace e (addr - e.base * 65536)) (s.load place 65536)).mem a) ∧
      ChangesOnly [TC_STAT n, TC_CTX n, SCH_CNT_SPILLT, MEM_PLT_CNT_LKMISS] [.cores, .mem, .poison, .free, .place] s t := by
  have hexec := exec_spillTileAck hcore hxfer hmaint hres htier h2 h3
  rw [if_neg (by simpa using hrest)] at hexec
  obtain ⟨-, hmem, hcount, heff⟩ := spilled_keeps (s := s) addr e (s.load place 65536)
  generalize spilled s addr e (s.load place 65536) = u at hexec hmem hcount heff
  have hset := effect_setCore (s := u) (n := n) { coreOf u n with xfer := rest }
  have hne : SCH_CNT_SPILLT ∉ [TC_STAT n, TC_CTX n] := by
    simp only [List.mem_cons, List.not_mem_nil, or_false, TC_STAT, TC_CTX, SCH_CNT_SPILLT]
    omega
  refine completes_of_settled hexec hon fun t hs => ⟨?_, ?_, fun a => ?_, ?_⟩
  · rw [coreOf_of_cores hs.cores, coreOf_setCore_same]
  · rw [hs.get _ (by decide) (by decide), hset.get hne, hcount]
  · rw [hs.mem, setCore_keeps.2.2.1, hmem, State.store]
  · exact hs.changesOnly ((heff.mono (by simp) (by decide)).trans (hset.mono (by simp) (by decide)))

theorem completes_spill_last (hon : s.powered) (hrest : rest = []) : Completes (.spillTileAck n) s fun t =>
      ∃ u, EndsAs s (schDecide (settleStep u ctx)) t ∧
      (coreOf u n).job = none ∧ stepOf u ctx = some (st.withLcore k { st.lcore k with st := 4 }) ∧
      ∀ a, memGet u.mem a = memGet (s.store (objPlace e (addr - e.base * 65536)) (s.load place 65536)).mem a := by
  have hexec := exec_spillTileAck hcore hxfer hmaint hres htier h2 h3
  rw [if_pos (by simp [hrest])] at hexec
  obtain ⟨-, hmem, -, -⟩ := spilled_keeps (s := s) addr e (s.load place 65536)
  generalize spilled s addr e (s.load place 65536) = u at hexec hmem
  have hstep : stepOf (u.setStep ctx (st.withLcore k { st.lcore k with st := 4 })) ctx = some (st.withLcore k { st.lcore k with st := 4 }) :=
    stepOf_setStep_same ..
  have hkeep : (u.setStep ctx (st.withLcore k { st.lcore k with st := 4 })).mem = u.mem := rfl
  generalize u.setStep ctx (st.withLcore k { st.lcore k with st := 4 }) = v at hexec hstep hkeep
  obtain ⟨hleftmem, -, hsched⟩ := leaveCore_keeps v n
  refine completes_of_endsAs hexec hon fun t ht => ⟨_, ht, job_leaveCore v n, ?_, fun a => ?_⟩
  · rw [stepOf, hsched]
    exact hstep
  · rw [hleftmem, hkeep, hmem, State.store]

end

/-! ### Restore (R241, R244) -/

/-- A restore tile read from its object and written to the scratchpad. -/
def restored (s : State) (addr place : Nat) (e : PltEntry) : State :=
  (s.lookup addr).store place (objRead (s.lookup addr) e (addr - e.base * 65536) 65536)

theorem restored_keeps (addr place : Nat) (e : PltEntry) : (restored s addr place e).cores = s.cores ∧
    (restored s addr place e).mem = memWrite s.mem place (objRead (s.lookup addr) e (addr - e.base * 65536) 65536) ∧
    Effect [MEM_PLT_CNT_LKMISS] [.mem, .free, .place] s (restored s addr place e) := by
  have hlook := effect_lookup_miss (s := s) addr
  have hmem := mem_lookup s addr
  unfold restored
  generalize objRead (s.lookup addr) e (addr - e.base * 65536) 65536 = bs
  generalize s.lookup addr = u at hlook hmem ⊢
  exact ⟨(hlook.keeps .cores (by decide)).1, congrArg (memWrite · place bs) hmem, (hlook.mono (List.Subset.refl _) (by decide)).store _ _ (by decide)⟩

/-- A core that runs again. -/
def resumedCore (c : Core) (r : Option Resume) : Core :=
  match r with
  | some r => ({ c with xfer := [], restoring := false } : Core).resumeFrom r
  | none => { c with xfer := [], restoring := false }

theorem resumedCore_keeps (c : Core) (r : Option Resume) : (resumedCore c r).xfer = [] ∧ (resumedCore c r).restoring = false := by
  cases r <;> exact ⟨rfl, rfl⟩

/-- The step whose logical core runs again. -/
def runningStep (st : Step) (k : Nat) : Step :=
  { st.withLcore k { st.lcore k with st := 1 } with st := if st.st = 8 then 3 else st.st }

section

variable {addr place i : Nat} {rest : List (Nat × Nat)} {e : PltEntry} (hcore : lcoreOn s n [5] = some (ctx, k, st))
  (hxfer : (coreOf s n).xfer = (addr, place) :: rest) (hmaint : (coreOf s n).maint = false)
  (hres : resolve s false ctx addr 65536 false = .ok (i, e)) (htier : e.tier = 4 → hostUp s = true) (hpub : unpublished s ctx e = false)
  (hpoison : poisonedIn s (objPlace e (addr - e.base * 65536)) 65536 = [])

include hcore hxfer hmaint hres htier hpub hpoison

theorem exec_restoreTileLanded : exec (.restoreTileLanded n []) s = finish s (if rest.isEmpty then
    ((restored s addr place e).setCore n (resumedCore (coreOf (restored s addr place e) n) (st.lcore k).resume)).setStep ctx (runningStep st k)
    else (restored s addr place e).setCore n { coreOf (restored s addr place e) n with xfer := rest }) := by
  have hhost : ¬ (e.tier = 4 ∧ (!hostUp (s.lookup addr)) = true) := by
    rw [hostUp_lookup]
    exact fun ⟨h4, hdown⟩ => by simp [htier h4] at hdown
  have herrs : (s.lookup addr).tileErrors e.tier (objPlace e (addr - e.base * 65536)) [] = (s.lookup addr, []) :=
    tileErrors_nil (by rw [poisonedIn_lookup, hpoison]) _
  have hpub' : unpublished (s.lookup addr) ctx e = false := by rw [unpublished_lookup, hpub]
  show execRestoreTileLanded n [] s = _
  unfold execRestoreTileLanded
  cases hresume : (st.lcore k).resume <;>
    simp only [hxfer, hcore, hmaint, Bool.false_eq_true, if_false, hres, herrs, hpub', onIf, if_neg hhost, List.isEmpty_nil, Bool.not_true,
      restored, resumedCore, runningStep, hresume]

theorem completes_restore (hon : s.powered) : Completes (.restoreTileLanded n []) s fun t =>
      (coreOf t n).xfer = rest ∧
      (∀ a, memGet t.mem a = memGet (s.store place (objRead (s.lookup addr) e (addr - e.base * 65536) 65536)).mem a) ∧
      (rest = [] → (coreOf t n).restoring = false ∧
        ∃ st', stepOf t ctx = some st' ∧ (st'.lcore k).st = 1 ∧ (st.st = 8 → st'.st = 3)) ∧
      ChangesOnly [TC_STAT n, TC_CTX n, SCH_CTX_STAT ctx, MEM_PLT_CNT_LKMISS] [.cores, .sched, .mem, .free, .place] s t := by
  have hexec := exec_restoreTileLanded hcore hxfer hmaint hres htier hpub hpoison
  obtain ⟨-, hmem, heff⟩ := restored_keeps (s := s) addr place e
  generalize restored s addr place e = u at hexec hmem heff
  have hrun : ((runningStep st k).lcore k).st = 1 ∧ (st.st = 8 → (runningStep st k).st = 3) := by
    refine ⟨?_, fun h => if_pos h⟩
    show (tgetD (tset st.lcores k _) k _).st = 1
    rw [tgetD_tset_same]
  cases rest with
  | nil =>
    rw [if_pos (show ([] : List (Nat × Nat)).isEmpty = true from rfl)] at hexec
    obtain ⟨hx, hr⟩ := resumedCore_keeps (coreOf u n) (st.lcore k).resume
    generalize resumedCore (coreOf u n) (st.lcore k).resume = c at hexec hx hr
    have hset := effect_setCore (s := u) (n := n) c
    have hcoreset : coreOf (u.setCore n c) n = c := coreOf_setCore_same ..
    have hmemset : (u.setCore n c).mem = u.mem := setCore_keeps.2.2.1
    generalize u.setCore n c = v at hexec hset hcoreset hmemset
    have hstep := effect_setStep (s := v) ctx (runningStep st k)
    have hfound : stepOf (v.setStep ctx (runningStep st k)) ctx = some (runningStep st k) := stepOf_setStep_same ..
    have hmemstep : (v.setStep ctx (runningStep st k)).mem = v.mem := rfl
    generalize v.setStep ctx (runningStep st k) = w at hexec hstep hfound hmemstep
    refine completes_of_settled hexec hon fun t hs => ?_
    have hc : coreOf t n = c := by rw [coreOf_of_cores hs.cores, coreOf_of_cores (hstep.keeps .cores (by decide)).1, hcoreset]
    refine ⟨by rw [hc, hx], fun a => ?_, fun _ => ⟨by rw [hc, hr], _, ?_, hrun⟩, ?_⟩
    · rw [hs.mem, hmemstep, hmemset, hmem, State.store]
    · rw [stepOf, hs.sched]
      exact hfound
    · exact hs.changesOnly ((heff.mono (by simp) (by decide)).trans ((hset.mono (by simp) (by decide)).trans (hstep.mono (by simp) (by decide))))
  | cons x xs =>
    rw [if_neg (by simp)] at hexec
    have hset := effect_setCore (s := u) (n := n) { coreOf u n with xfer := x :: xs }
    refine completes_of_settled hexec hon fun t hs => ⟨?_, fun a => ?_, fun h => (nomatch h), ?_⟩
    · rw [coreOf_of_cores hs.cores, coreOf_setCore_same]
    · rw [hs.mem, setCore_keeps.2.2.1, hmem, State.store]
    · exact hs.changesOnly ((heff.mono (by simp) (by decide)).trans (hset.mono (by simp) (by decide)))

end

end

/-- Settles O15: the last report of a step commits it and an earlier one frees its core; a spill tile is written, a restore tile read, and
the last of each frees the core or lets it run; a tile of another module lands unless its core was killed or is held. -/
theorem stepsCommitSpillResumeAndRemoteData : Obligations.StepsCommitSpillResumeAndRemoteData := by
  unfold Obligations.StepsCommitSpillResumeAndRemoteData
  exact ⟨fun s n ctx k st hon hn hctx =>
    ⟨fun hcore hdone hall => completes_commit_last hon hn hctx hcore hdone hall,
      fun j hcore hdone hj hjk hst => completes_commit_early hon hcore hdone hj hjk hst,
      fun addr place rest i e hcore hxfer hmaint hres htier h2 h3 =>
        ⟨fun hrest => completes_spill_more hcore hxfer hmaint hres htier h2 h3 hon hn hrest,
          fun hrest => completes_spill_last hcore hxfer hmaint hres htier h2 h3 hon hrest⟩,
      fun addr place rest i e hcore hxfer hmaint hres htier hpub hpoison =>
        completes_restore hcore hxfer hmaint hres htier hpub hpoison hon⟩,
    fun s slot data r hon hslot => ⟨fun hepoch hmaint => completes_remote_stale hon hslot hepoch hmaint,
      fun hmaint => completes_remote_held hon hslot hmaint,
      fun c hepoch hmaint _ hqueue hno hopc => completes_remote_lands hon hslot hepoch hmaint hqueue hno hopc⟩⟩

end Sys2Proof.Machine
end
section
/-! The engine paths write their last unit (R71, R73, R82, R99, R135, R140, R156). -/

namespace Sys2Proof.Machine

open Sys2Proof Sys2Proof.Machine.Reg

section

variable {s t : State} {n p : Nat} {c : Cmd} {w : Work} {due : Nat}

/-! ### One unit written, and nothing after it -/

/-- The tails that a unit lets pass. -/
def tailsPassed (s : State) (n : Nat) (as : List (Nat × Nat × Nat)) (at_ : Nat) : State :=
  as.foldl (fun s a => advanceTail s n a.1 a.2.1 a.2.2 at_) s

theorem tailsPassed_keeps (s : State) (n : Nat) (as : List (Nat × Nat × Nat)) (at_ : Nat) :
    (∀ p, (coreOf (tailsPassed s n as at_) n).queue p = (coreOf s n).queue p) ∧
    (coreOf (tailsPassed s n as at_) n).shadow = (coreOf s n).shadow ∧ (tailsPassed s n as at_).mem = s.mem := by
  unfold tailsPassed
  induction as generalizing s with
  | nil => exact ⟨fun _ => rfl, rfl, rfl⟩
  | cons a as ih =>
    obtain ⟨hqueue, hshadow, hmem⟩ := ih (advanceTail s n a.1 a.2.1 a.2.2 at_)
    refine ⟨fun p => (hqueue p).trans (queue_advanceTail ..), hshadow.trans ?_, hmem.trans ?_⟩
    · unfold advanceTail
      simp only
      split
      · rw [State.logMove, coreOf, tgetD_tset_same]
        rfl
      · rfl
    · unfold advanceTail
      simp only
      split <;> rfl

theorem effect_tailsPassed (as : List (Nat × Nat × Nat)) (at_ : Nat) :
    Effect (as.map fun a => rgnPtr n (refStore a.1) (refRgn a.1)) [.cores] s (tailsPassed s n as at_) :=
  (Effect.refl s).foldl fun _ a ha => (effect_advanceTail ..).mono
    (fun _ hx => List.mem_map.mpr ⟨a, ha, (List.mem_singleton.mp hx).symm⟩) (List.Subset.refl _)

/-- The command with its last unit written. -/
def writtenCmd (c : Cmd) (flags due : Nat) : Cmd := { c with pipe := [], flags := c.flags ||| flags, doneAt := some due }

/-- The state with the last unit of a command written. -/
def lastWritten (s : State) (n p : Nat) (c : Cmd) (w : Work) (due : Nat) : State :=
  setCmd ((tailsPassed (w.effect (c.unit - 1) s).1 n (w.tails (c.unit - 1)) due).countWrap (TC_CNT_HEAD_VALUE n) 0) n p
    (writtenCmd c (w.effect (c.unit - 1) s).2 due)

theorem writeUnit_last {opc : Nat} (h : LastUnit s n p opc c w due) :
    writeUnit w n p c.no (nowOf s n) s = lastWritten s n p c w due := by
  obtain ⟨_, halone, -, -, hissued, -, hpipe, hdue, hwait, -, -, hroom⟩ := h
  obtain ⟨f, hf, hlt⟩ : ∃ f, allFrom (writeFrom s n) (w.writes (c.unit - 1)) = some f ∧ f < due := by
    rw [hissued]
    cases hall : allFrom (writeFrom s n) (w.writes (w.total - 1)) with
    | none => simp [hall] at hroom
    | some f => exact ⟨f, rfl, by simpa [hall] using hroom⟩
  have hlast : c.unit ≥ w.total ∧ True := ⟨hissued.ge, trivial⟩
  have hzero : f + 1 - due = 0 := Nat.sub_eq_zero_of_le hlt
  unfold writeUnit lastWritten writtenCmd tailsPassed
  simp only [getCmd_alone halone, hpipe, List.length_cons, List.length_nil, Nat.zero_add, hf, hzero, Nat.add_zero,
    if_neg (Nat.not_lt.mpr hdue), List.map_nil, if_pos hlast, hwait]

theorem stepUnit_written (h : (coreOf t n).queue p = [c]) (hpipe : c.pipe = []) (hall : w.total ≤ c.unit) (now : Nat) :
    stepUnit w n p c.no now t = t := by
  unfold stepUnit
  simp only [getCmd_alone h, hpipe]
  unfold issueUnit
  simp only [getCmd_alone h]
  exact if_pos (.inl hall)

/-- A command's work leaves the commands of its path. -/
def KeepsQueue (s : State) (n p : Nat) (u : State) : Prop := (coreOf u n).queue p = (coreOf s n).queue p

theorem keepsQueue_of_effect {regs : List Nat} {parts : List Part} {u : State} (h : Effect regs parts s u) (hp : Part.cores ∉ parts) :
    KeepsQueue s n p u := congrArg (fun k : Core => k.queue p) (coreOf_of_cores (h.keeps .cores hp).1 n)

theorem queue_lastWritten (halone : (coreOf s n).queue p = [c]) (hkeep : KeepsQueue s n p (w.effect (c.unit - 1) s).1) :
    (coreOf (lastWritten s n p c w due) n).queue p = [writtenCmd c (w.effect (c.unit - 1) s).2 due] := by
  unfold lastWritten
  refine queue_setCmd_alone (q := c) ?_ rfl
  exact ((tailsPassed_keeps ..).1 p).trans (hkeep.trans halone)

theorem getCmd_lastWritten (halone : (coreOf s n).queue p = [c]) (hkeep : KeepsQueue s n p (w.effect (c.unit - 1) s).1) :
    getCmd (lastWritten s n p c w due) n p c.no = some (writtenCmd c (w.effect (c.unit - 1) s).2 due) :=
  getCmd_alone (queue_lastWritten halone hkeep)

theorem mem_lastWritten : (lastWritten s n p c w due).mem = (w.effect (c.unit - 1) s).1.mem :=
  setCore_keeps.2.2.1.trans (tailsPassed_keeps ..).2.2

theorem effect_lastWritten {regs : List Nat} {parts : List Part} (h : Effect regs parts s (w.effect (c.unit - 1) s).1) (hs : TC_STAT n ∈ regs)
    (hx : TC_CTX n ∈ regs) (hp : Part.cores ∈ parts)
    (ht : ∀ a ∈ w.tails (c.unit - 1), rgnPtr n (refStore a.1) (refRgn a.1) ∈ regs) : Effect regs parts s (lastWritten s n p c w due) := by
  have htails := effect_tailsPassed (s := (w.effect (c.unit - 1) s).1) (n := n) (w.tails (c.unit - 1)) due
  refine Effect.setCmd (((h.trans (htails.mono ?_ (by simpa using hp))).trans (effect_countWrap_zero _ (show 0 ≤ 64 by decide)))) hs hx hp _
  intro x hx
  obtain ⟨a, ha, rfl⟩ := List.mem_map.mp hx
  exact ht a ha

/-- An engine advances a command whose last unit is due by writing that unit. -/
theorem advance_last {opc : Nat} (h : LastUnit s n p opc c w due) (hkeep : KeepsQueue s n p (w.effect (c.unit - 1) s).1) :
    advance w n p c.no s = lastWritten s n p c w due := by
  have hfirst : stepUnit w n p c.no (nowOf s n) s = lastWritten s n p c w due := by
    rw [← writeUnit_last h]
    unfold stepUnit
    simp only [getCmd_alone h.alone, h.pipe]
    exact if_pos ⟨h.dueNow, .inl h.issued.ge⟩
  have hdone := queue_lastWritten (due := due) h.alone hkeep
  have hrest := stepUnit_written (w := w) hdone rfl h.issued.ge (nowOf s n)
  have hall (k : Nat) : forUpTo (k + 1) (fun _ s' => stepUnit w n p c.no (nowOf s n) s') s = lastWritten s n p c w due := by
    induction k with
    | zero => exact hfirst
    | succ k ih =>
      rw [forUpTo_succ, ih]
      exact hrest
  exact hall _

/-- A path with that command alone makes that progress. -/
theorem runPath_last {opc : Nat} (h : LastUnit s n p opc c (workOf s n c) due) (hp : p ≠ 3)
    (hkeep : KeepsQueue s n p ((workOf s n c).effect (c.unit - 1) s).1) :
    runPath opc p n s = lastWritten s n p c (workOf s n c) due := by
  have hsome := h.some
  have hunit : c.unit ≠ 0 := by
    rw [h.issued]
    omega
  have hbegin : beginCmd s n p c = s := if_pos (.inl hunit)
  have hbefore : attnBefore s n c = false := by rw [attnBefore, h.noAttn hp, List.any_nil]
  have htile : (p ≠ 0 && p ≠ 1 || c.tile.isSome) = true := by
    by_cases hle : p ≤ 1
    · simp [h.tile hle]
    · simp only [Bool.or_eq_true, Bool.and_eq_true, decide_eq_true_eq]
      exact .inl (by omega)
  have hbegun : begun s n p c = true := by
    unfold begun
    rw [htile, h.started, hbefore]
    simp
  have hgo : ¬ ((opc ≠ 0 ∧ dOpc c.desc ≠ opc) ∨
      (!(([c] : List Cmd).take 0).all fun q => decide (unitsOf q ≤ q.unit)) = true) := by simp [h.opcode]
  unfold runPath
  rw [if_neg (by simp [h.live]), h.alone]
  simp only [List.length_cons, List.length_nil, Nat.zero_add, List.range_one, List.foldl_cons, List.foldl_nil, h.alone, List.getElem?_cons_zero,
    if_neg hgo, hbegin, getCmd_alone h.alone, hbegun, if_true]
  exact advance_last h hkeep

/-! ### What the units of each path write -/

theorem effect_gridUnit (j : Nat) : Effect [] [.mem] t ((gridWork s n c).effect j t).1 := by
  unfold gridWork
  extract_lets
  split
  extract_lets
  split
  · exact effect_writeLines ..
  · exact effect_writeLines ..

theorem tails_gridUnit (j : Nat) : (gridWork s n c).tails j = [(dw c.desc 2 31 0, 4 * j, 4)] := by
  unfold gridWork
  extract_lets
  split
  extract_lets
  split <;> rfl

theorem effect_writeRow (dst dscl : Nat) (packed : Pack) (fmt nr e i : Nat) (row : Nat → List Nat × List Nat × Nat) :
    Effect [] [.mem] s (writeRow n dst dscl packed fmt nr e i row s).1 := by
  have hlines {u : State} (ref ofs : Nat) (bs : List Byte) (h : Effect [] [.mem] s u) : Effect [] [.mem] s (writeLines u n ref ofs bs) :=
    h.trans (effect_writeLines ref ofs bs)
  have hrefl := Effect.refl (regs := []) (parts := [.mem]) s
  unfold writeRow
  extract_lets r u v w
  have hv : Effect [] [.mem] s v :=
    Effect.ite (fun _ => Effect.ite (fun _ => hlines _ _ _ (hlines _ _ _ hrefl)) fun _ => hlines _ _ _ hrefl) fun _ => hlines _ _ _ hrefl
  exact Effect.ite (fun _ => hv) fun _ => Effect.ite (fun _ => hlines _ _ _ hv) fun _ => Effect.ite (fun _ => hlines _ _ _ hv) fun _ => hv

theorem effect_poolUnit (x d j : Nat) : Effect [] [.mem] t ((poolWork s n x d).effect j t).1 := effect_writeRow ..

theorem effect_roiaUnit (x d j : Nat) : Effect [] [.mem] t ((roiaWork s n x d).effect j t).1 := effect_writeLines ..

theorem effect_vecUnit (x d j : Nat) : Effect [] [.mem] t ((vecWork s n x d).effect j t).1 := by
  unfold vecWork
  simp only
  split
  · split
    · exact effect_writeRow ..
    · exact Effect.refl t
  · exact effect_writeRow ..

theorem effect_vectorUnit (hopc : dOpc c.desc = 4 ∨ dOpc c.desc = 5 ∨ dOpc c.desc = 7) (j : Nat) :
    Effect [] [.mem] t ((workOf s n c).effect j t).1 := by
  unfold workOf
  rcases hopc with h | h | h <;> rw [h]
  · exact effect_poolUnit ..
  · exact effect_roiaUnit ..
  · exact effect_vecUnit ..

theorem Effect.foldl_fst {α β : Type} {regs : List Nat} {parts : List Part} {f : State × β → α → State × β}
    (h : ∀ acc x, Effect regs parts acc.1 (f acc x).1) (xs : List α) (acc : State × β) : Effect regs parts acc.1 (xs.foldl f acc).1 := by
  induction xs generalizing acc with
  | nil => exact Effect.refl _
  | cons x xs ih => exact (h acc x).trans (ih _)

theorem effect_atAppendOne (pool ctx ptab h d head : Nat) (val : Bool) (p : Nat) (bs : List Byte) :
    Effect accessRegs engineParts s (atAppendOne s pool ctx ptab h d head val p bs) := by
  unfold atAppendOne
  split
  · exact Effect.refl s
  · simp only
    exact Effect.ite (fun _ => (effect_engineWrite ..).trans (effect_engineWrite ..)) fun _ => effect_engineWrite ..

theorem effect_atReads (pool ctx ptab h d pages : Nat) : Effect accessRegs engineParts s (atReads s pool ctx ptab h d pages) := by
  unfold atReads
  refine (Effect.refl s).forUpTo fun u i _ => ?_
  simp only
  have hread : Effect accessRegs engineParts u (kvRead u ctx (kvEntry ptab (hdMaxpg h) (atLayer d) i) 8).1 := effect_engineRead ..
  split
  · exact hread
  · exact hread.forUpTo fun v j _ => effect_engineRead ..

/-- An ATTN's block leaves the cores: it appends to the pages and reads them, counts those it misses and writes its rows. -/
theorem effect_atBlockEffect (d b : Nat) : ∃ pool, Effect (accessRegs ++ [SCH_KVP_CNT_HOLE pool, SCH_KVP_EVT pool]) engineParts t
    (atBlockEffect n d b t).1 := by
  unfold atBlockEffect
  extract_lets ctx ptab h pool rq heads hd conv nch pages ro
  refine ⟨pool, ?_⟩
  split
  next n0 q _ =>
  extract_lets toks
  split
  next u f0 happended =>
  have hu : Effect (accessRegs ++ [SCH_KVP_CNT_HOLE pool, SCH_KVP_EVT pool]) engineParts t u := by
    have happ : Effect accessRegs engineParts t (u, f0).1 := by
      rw [← happended]
      split
      · exact Effect.foldl_fst (fun acc x => Effect.foldl_fst (fun acc y => (effect_atAppendOne ..).trans (effect_atAppendOne ..)) _ acc) _ (t, 0)
      · exact Effect.refl t
    exact happ.mono (List.subset_append_left _ _) (List.Subset.refl _)
  extract_lets holes v outs w x
  have hv : Effect (accessRegs ++ [SCH_KVP_CNT_HOLE pool, SCH_KVP_EVT pool]) engineParts t v :=
    Effect.ite (fun _ => hu) fun _ => (hu.count _ (by simp [SCH_KVP_CNT_HOLE_VALUE])).setOn (by simp [SCH_KVP_EVT_HOLE])
  have hw : Effect (accessRegs ++ [SCH_KVP_CNT_HOLE pool, SCH_KVP_EVT pool]) engineParts t w :=
    hv.forUpTo fun _ _ _ => (effect_writeLines ..).mono (List.nil_subset _) (by decide)
  exact (hw.trans ((effect_atReads ..).mono (List.subset_append_left _ _) (List.Subset.refl _))).free _ (by decide)

theorem effect_attnUnit (j : Nat) : ∃ pool, Effect (accessRegs ++ [SCH_KVP_CNT_HOLE pool, SCH_KVP_EVT pool]) engineParts t
    ((attnWork c n).effect j t).1 := by
  unfold attnWork
  simp only
  split
  · exact ⟨0, (effect_writeLines ..).mono (List.nil_subset _) (by decide)⟩
  · exact effect_atBlockEffect ..

/-! ### What the commands complete with -/

theorem workOf_load (h : dOpc c.desc = 1) : workOf s n c = loadWork n c := by simp only [workOf, h]

theorem workOf_grid (h : dOpc c.desc = 2 ∨ dOpc c.desc = 3) : workOf s n c = gridWork s n c := by
  rcases h with h | h <;> simp only [workOf, h]

/-- A vector command's last unit (R99, R135, R140). -/
theorem completes_vectorUnit {com : Instr} {opc : Nat} (hon : s.powered) (hexec : exec com s = finish s (runPath opc 2 n s))
    (hopc : opc = 4 ∨ opc = 5 ∨ opc = 7) (h : LastUnit s n 2 opc c (workOf s n c) due) : Completes com s fun t =>
      getCmd t n 2 c.no = some { c with
        pipe := [], flags := c.flags ||| ((workOf s n c).effect (c.unit - 1) s).2, doneAt := some due } ∧
      (∀ a, memGet t.mem a = memGet ((workOf s n c).effect (c.unit - 1) s).1.mem a) ∧
      ∀ p, p ≠ .cores → p ≠ .mem → Keeps s t p := by
  have hunit := effect_vectorUnit (s := s) (t := s) (n := n) (c := c) (by rwa [h.opcode]) (c.unit - 1)
  have hkeep := keepsQueue_of_effect (n := n) (p := 2) hunit (by decide)
  rw [runPath_last h (by decide) hkeep] at hexec
  have hall : Effect (TC_STAT n :: TC_CTX n :: ((workOf s n c).tails (c.unit - 1)).map fun a => rgnPtr n (refStore a.1) (refRgn a.1)) [.cores, .mem]
      s (lastWritten s n 2 c (workOf s n c) due) :=
    effect_lastWritten (hunit.mono (List.nil_subset _) (by decide)) (by simp) (by simp) (by decide) fun a ha =>
      List.mem_cons_of_mem _ (List.mem_cons_of_mem _ (List.mem_map.mpr ⟨a, ha, rfl⟩))
  refine completes_of_settled hexec hon fun t hs => ⟨?_, fun a => ?_, fun p hc hm => ?_⟩
  · exact (getCmd_congr (congrArg (fun k : Core => k.queue 2) (coreOf_of_cores hs.cores n)) c.no).trans (getCmd_lastWritten h.alone hkeep)
  · rw [hs.mem, mem_lastWritten]
  · exact (hs.changesOnly hall).keeps p (by simp [hc, hm])

/-- A compute command's last unit (R73, R122). -/
theorem completes_gridUnit {com : Instr} {opc : Nat} (hon : s.powered) (hexec : exec com s = finish s (runPath opc 0 n s))
    (hwork : workOf s n c = gridWork s n c) (h : LastUnit s n 0 opc c (gridWork s n c) due) : Completes com s fun t =>
      getCmd t n 0 c.no = some { c with
        pipe := [], flags := c.flags ||| ((gridWork s n c).effect (c.unit - 1) s).2, doneAt := some due } ∧
      (∀ a, memGet t.mem a = memGet ((gridWork s n c).effect (c.unit - 1) s).1.mem a) ∧
      (∀ a, a ≠ DGN_CNT_MERGE → a ≠ DGN_EVT → t.rd a = (lastWritten s n 0 c (gridWork s n c) due).rd a) ∧
      ChangesOnly [TC_STAT n, TC_CTX n, rgnPtr n (refStore (dw c.desc 2 31 0)) (refRgn (dw c.desc 2 31 0))] [.cores, .mem] s t := by
  have hunit := effect_gridUnit (s := s) (t := s) (n := n) (c := c) (c.unit - 1)
  have hkeep := keepsQueue_of_effect (n := n) (p := 0) hunit (by decide)
  rw [runPath_last (hwork.symm ▸ h) (by decide) (hwork.symm ▸ hkeep), hwork] at hexec
  refine completes_of_settled hexec hon fun t hs => ⟨?_, fun a => ?_, hs.rd, hs.changesOnly ?_⟩
  · exact (getCmd_congr (congrArg (fun k : Core => k.queue 0) (coreOf_of_cores hs.cores n)) c.no).trans (getCmd_lastWritten h.alone hkeep)
  · rw [hs.mem, mem_lastWritten]
  · refine effect_lastWritten (hunit.mono (List.nil_subset _) (by decide)) (by simp) (by simp) (by decide) fun a ha => ?_
    rw [tails_gridUnit, List.mem_singleton] at ha
    subst ha
    simp

theorem rd_advanceTail {u : State} (h : ∀ a, u.rd a = s.rd a) (ref ofs k at_ a : Nat) :
    (advanceTail u n ref ofs k at_).rd a = (advanceTail s n ref ofs k at_).rd a := by
  have hget (f : Fld) : u.get f = s.get f := by rw [State.get, State.get, h]
  have hput (f : Fld) (v : Nat) : (u.put f v).rd a = (s.put f v).rd a := by
    rw [State.put, State.put, h]
    by_cases ha : a = f.addr
    · rw [ha, State.rd_wr_same, State.rd_wr_same]
    · rw [State.rd_wr_ne _ _ _ _ ha, State.rd_wr_ne _ _ _ _ ha, h]
  have hlines (x r : Nat) : rgnLines u n x r = rgnLines s n x r := by rw [rgnLines, rgnLines, rgnSize, rgnSize, hget]
  have htail (x r : Nat) : rgnTail u n x r = rgnTail s n x r := hget _
  have hdist (x r p : Nat) : posDist u n x r p = posDist s n x r p := by rw [posDist, posDist, hlines, rgnHead, rgnHead, hget]
  unfold advanceTail
  simp only [hlines, htail, hdist]
  generalize posDist s n _ _ _ - posDist s n _ _ _ = d
  by_cases hd : 0 < d
  · rw [if_pos hd, if_pos hd]
    exact hput ..
  · rw [if_neg hd, if_neg hd]
    exact h a

/-- The tail of a MATMUL's region as its last result vector lets it pass. -/
theorem rd_lastWritten_grid (x : Nat) (hx : x ∉ [TC_STAT n, TC_CTX n]) : (lastWritten s n 0 c (gridWork s n c) due).rd x =
    (advanceTail s n (dw c.desc 2 31 0) (4 * (c.unit - 1)) 4 due).rd x := by
  have hunit := effect_gridUnit (s := s) (t := s) (n := n) (c := c) (c.unit - 1)
  unfold lastWritten
  rw [((Effect.refl _).setCmd (regs := [TC_STAT n, TC_CTX n]) (parts := [.cores]) (by simp) (by simp) (by simp) _).rd x hx,
    (effect_countWrap_zero (regs := []) (parts := []) _ (show 0 ≤ 64 by decide)).rd x List.not_mem_nil, tails_gridUnit]
  exact rd_advanceTail (fun a => hunit.rd a List.not_mem_nil) ..

theorem rgnPtr_bounds (n ref : Nat) : TC_CTRL n + 0x1000 ≤ rgnPtr n (refStore ref) (refRgn ref) ∧
    rgnPtr n (refStore ref) (refRgn ref) < TC_CTRL n + 0x2000 := by
  have hx : refStore ref < 4 := bitsOf_lt ..
  have hr : refRgn ref < 16 := bitsOf_lt ..
  unfold rgnPtr TC_WRGN_PTR TC_CTRL
  omega

theorem completes_matmulUnit (hon : s.powered) (hn : n < 8) {tile : Plane} (htile : c.tile = some tile)
    (h : LastUnit s n 0 2 c (gridWork s n c) due) : Completes (.matmul n) s fun t =>
      let d := c.desc
      let kext := ldKext tile.desc
      let v := rowLines kext (cpFmt d)
      let j := c.unit - 1
      let x := gridVector tile.desc tile.bytes (cpFmt d) (codesOf (cpFmt d) kext (readLines s n (dw d 1 31 0) (j * v) v))
        (if cpFmt d = 4 then sclRow s n (dw d 1 63 32) j kext else [])
        (if dAcc d then some (codes32 (readLines s n (dw d 2 63 32) (4 * j) 4)) else none)
      getCmd t n 0 c.no = some { c with pipe := [], flags := c.flags ||| x.2, doneAt := some due } ∧
      (∀ a, memGet t.mem a = memGet (writeLines s n (dw d 2 31 0) (4 * j) x.1).mem a) ∧
      t.rd (rgnPtr n (refStore (dw d 2 31 0)) (refRgn (dw d 2 31 0))) =
        (advanceTail s n (dw d 2 31 0) (4 * j) 4 due).rd (rgnPtr n (refStore (dw d 2 31 0)) (refRgn (dw d 2 31 0))) ∧
      ChangesOnly [TC_STAT n, TC_CTX n, rgnPtr n (refStore (dw d 2 31 0)) (refRgn (dw d 2 31 0))] [.cores, .mem] s t := by
  have hwork : workOf s n c = gridWork s n c := workOf_grid (.inl h.opcode)
  have heffect : (gridWork s n c).effect (c.unit - 1) s =
      let d := c.desc
      let kext := ldKext tile.desc
      let v := rowLines kext (cpFmt d)
      let x := gridVector tile.desc tile.bytes (cpFmt d) (codesOf (cpFmt d) kext (readLines s n (dw d 1 31 0) ((c.unit - 1) * v) v))
        (if cpFmt d = 4 then sclRow s n (dw d 1 63 32) (c.unit - 1) kext else [])
        (if dAcc d then some (codes32 (readLines s n (dw d 2 63 32) (4 * (c.unit - 1)) 4)) else none)
      (writeLines s n (dw d 2 31 0) (4 * (c.unit - 1)) x.1, x.2) := by
    unfold gridWork
    simp only [htile, h.opcode, if_true]
  obtain ⟨t, hnext, hget, hmem, hrd, hframe⟩ := completes_gridUnit (com := .matmul n) hon rfl hwork h
  rw [heffect] at hget
  simp only [heffect] at hmem
  obtain ⟨hlow, hhigh⟩ := rgnPtr_bounds n (dw c.desc 2 31 0)
  obtain ⟨hmerge, hevt⟩ := core_settles hn (a := rgnPtr n (refStore (dw c.desc 2 31 0)) (refRgn (dw c.desc 2 31 0))) (by
    unfold TC_CTRL at hhigh ⊢
    omega)
  refine ⟨t, hnext, hget, hmem, ?_, hframe⟩
  rw [hrd _ hmerge hevt, rd_lastWritten_grid]
  simp only [List.mem_cons, List.not_mem_nil, or_false, TC_STAT, TC_CTX]
  unfold TC_CTRL at hlow
  omega

/-- A core whose shadow plane has one more line of its LOAD. -/
def filledCore (s : State) (n : Nat) (c : Cmd) : Core :=
  { coreOf s n with shadow := (coreOf s n).shadow.map fun p => { p with bytes := p.bytes ++
    (if c.unit - 1 < ldElemLines c.desc then readLines s n (dw c.desc 1 31 0) (c.unit - 1) 1
     else readLines s n (dw c.desc 1 63 32) (c.unit - 1 - ldElemLines c.desc) 1) } }

theorem effect_loadUnit (s : State) (n : Nat) (c : Cmd) : (loadWork n c).effect (c.unit - 1) s = (s.setCore n (filledCore s n c), 0) := by
  unfold loadWork filledCore
  by_cases hj : c.unit - 1 < ldElemLines c.desc <;> simp only [hj, if_true, if_false]

/-- The state with a LOAD's last line in the shadow plane. -/
def loadWritten (s : State) (n : Nat) (c : Cmd) (due : Nat) : State :=
  setCmd ((s.setCore n (filledCore s n c)).countWrap (TC_CNT_HEAD_VALUE n) 0) n 1 (writtenCmd c 0 due)

theorem exec_loadUnit (h : LastUnit s n 1 1 c (loadWork n c) due) : exec (.load n) s = finish s (loadWritten s n c due) := by
  have hwork : workOf s n c = loadWork n c := workOf_load h.opcode
  have hkeep : KeepsQueue s n 1 ((loadWork n c).effect (c.unit - 1) s).1 := by
    rw [effect_loadUnit, KeepsQueue, coreOf_setCore_same]
    rfl
  have hwritten : lastWritten s n 1 c (loadWork n c) due = loadWritten s n c due := by
    rw [lastWritten, effect_loadUnit]
    rfl
  rw [← hwritten]
  exact congrArg (finish s) (by rw [runPath_last (hwork.symm ▸ h) (by decide) (hwork.symm ▸ hkeep), hwork])

theorem loadWritten_shows (halone : (coreOf s n).queue 1 = [c]) : (coreOf (loadWritten s n c due) n).queue 1 = [writtenCmd c 0 due] ∧
    (coreOf (loadWritten s n c due) n).shadow = (filledCore s n c).shadow ∧
    Effect [TC_STAT n, TC_CTX n] [.cores] s (loadWritten s n c due) := by
  have hset := effect_setCore (s := s) (n := n) (filledCore s n c)
  have hcore : coreOf (s.setCore n (filledCore s n c)) n = filledCore s n c := coreOf_setCore_same ..
  have hqueue : (filledCore s n c).queue 1 = [c] := halone
  unfold loadWritten
  generalize s.setCore n (filledCore s n c) = u at hset hcore ⊢
  have hzero : Effect [TC_STAT n, TC_CTX n] [.cores] u (u.countWrap (TC_CNT_HEAD_VALUE n) 0) := effect_countWrap_zero _ (show 0 ≤ 64 by decide)
  have hzcore : coreOf (u.countWrap (TC_CNT_HEAD_VALUE n) 0) n = filledCore s n c := hcore
  generalize u.countWrap (TC_CNT_HEAD_VALUE n) 0 = v at hzero hzcore ⊢
  refine ⟨queue_setCmd_alone (q := c) (by rw [hzcore, hqueue]) rfl, ?_, (hset.trans hzero).setCmd (by simp) (by simp) (by decide) _⟩
  rw [setCmd, coreOf_setCore_same, hzcore]
  rfl

/-- A LOAD's last unit (R71). -/
theorem completes_loadUnit (hon : s.powered) (h : LastUnit s n 1 1 c (loadWork n c) due) : Completes (.load n) s fun t =>
      getCmd t n 1 c.no = some { c with pipe := [], doneAt := some due } ∧
      (coreOf t n).shadow = (coreOf s n).shadow.map (fun p => { p with bytes := p.bytes ++
        (if c.unit - 1 < ldElemLines c.desc then readLines s n (dw c.desc 1 31 0) (c.unit - 1) 1
         else readLines s n (dw c.desc 1 63 32) (c.unit - 1 - ldElemLines c.desc) 1) }) ∧
      ChangesOnly [TC_STAT n, TC_CTX n] [.cores] s t := by
  obtain ⟨hqueue, hshadow, heff⟩ := loadWritten_shows (due := due) h.alone
  refine completes_of_settled (exec_loadUnit h) hon fun t hs => ?_
  have hnone : writtenCmd c 0 due = { c with pipe := [], doneAt := some due } := by rw [writtenCmd, Nat.or_zero]
  have hcore := coreOf_of_cores hs.cores n
  refine ⟨?_, ?_, hs.changesOnly heff⟩
  · rw [← hnone]
    exact getCmd_alone (c := writtenCmd c 0 due) (by rw [hcore, hqueue])
  · rw [hcore, hshadow]
    rfl

/-- An ATTN's last unit (R156). -/
theorem completes_attnUnit (hon : s.powered) (hlanded : c.landed ≠ []) (h : LastUnit s n 3 6 c (attnWork c n) due) :
    Completes (.attn n) s fun t =>
      getCmd t n 3 c.no = some { c with pipe := [], flags := c.flags ||| ((attnWork c n).effect (c.unit - 1) s).2
                                        doneAt := some due } ∧
      ∀ a, memGet t.mem a = memGet ((attnWork c n).effect (c.unit - 1) s).1.mem a := by
  obtain ⟨pool, hunit⟩ := effect_attnUnit (t := s) (n := n) (c := c) (c.unit - 1)
  have hkeep := keepsQueue_of_effect (n := n) (p := 3) hunit (by decide)
  obtain ⟨st, hst⟩ := Option.isSome_iff_exists.mp h.started
  have hrun : runAttn n s = lastWritten s n 3 c (attnWork c n) due := by
    unfold runAttn
    rw [if_neg (by simp [h.live]), h.alone]
    exact (if_neg hlanded).trans (advance_last h hkeep)
  have hexec : exec (.attn n) s = finish s (lastWritten s n 3 c (attnWork c n) due) := by
    show execAttn n s = _
    unfold execAttn
    simp only [h.live, h.alone, Bool.not_true, Bool.false_eq_true, if_false, startCmd_started hst, if_neg hlanded, hrun]
  refine completes_of_settled hexec hon fun t hs => ⟨?_, fun a => ?_⟩
  · exact (getCmd_congr (congrArg (fun k : Core => k.queue 3) (coreOf_of_cores hs.cores n)) c.no).trans (getCmd_lastWritten h.alone hkeep)
  · rw [hs.mem, mem_lastWritten]

end

/-- Settles O10: the last unit of each command is written as its work says, and its completion cycle is the one it was due in. -/
theorem enginePathsWriteLastUnit : Obligations.EnginePathsWriteLastUnit := by
  unfold Obligations.EnginePathsWriteLastUnit
  refine ⟨fun s n due c hon hn => ⟨completes_loadUnit hon, fun tile htile h => completes_matmulUnit hon hn htile h, fun h => ?_⟩,
    fun s n due c hon _ => ⟨completes_vectorUnit hon rfl (.inl rfl), completes_vectorUnit hon rfl (.inr (.inl rfl)),
      completes_vectorUnit hon rfl (.inr (.inr rfl)), completes_attnUnit hon⟩⟩
  obtain ⟨t, hnext, hget, hmem, -, hframe⟩ :=
    completes_gridUnit (com := .conv n) hon rfl (workOf_grid (.inr h.opcode)) h
  exact ⟨t, hnext, hget, hmem, hframe⟩

end Sys2Proof.Machine
end
section
/-! Slot boundaries, relock, the timetable's COMMIT and the scheduler's enable (R18, R22, R35, R37, R205, R219–R224, R255). -/

namespace Sys2Proof.Machine

open Sys2Proof Sys2Proof.Machine.Reg

/-! ### A slot is entered (R219, R224) -/

section

variable {s t : State}

/-- What entering a slot shows. -/
structure SlotEntered (s : State) (i e : Nat) (u : State) : Prop where
  sched : u.sched = { s.sched with slot := i, slotEnd := e }
  slot : u.get SCH_NOW_SLOT = i % 64
  kind : u.get SCH_NOW_KIND = (curSlot u).kind % 4
  frame : u.get SCH_NOW_FRAME = s.get SCH_NOW_FRAME
  rd : ∀ a, a ≠ SCH_NOW → u.rd a = s.rd a
  cores : u.cores = s.cores
  fuses : u.fuses = s.fuses

theorem SlotEntered.on {u : State} {i e : Nat} (h : SlotEntered s i e u) {f : Fld} (hf : f.addr ≠ SCH_NOW) : u.on f = s.on f :=
  State.on_congr (by rw [State.get, State.get, h.rd _ hf])

theorem slotEntered (s : State) (i e : Nat) : SlotEntered s i e (enterSlot s i e) := by
  unfold enterSlot
  simp only
  generalize hu : ({ s with sched := { s.sched with slot := i, slotEnd := e } } : State) = u
  have husched : u.sched = { s.sched with slot := i, slotEnd := e } := hu ▸ rfl
  have hurd (a : Nat) : u.rd a = s.rd a := hu ▸ rfl
  have hucores : u.cores = s.cores := hu ▸ rfl
  have hufuses : u.fuses = s.fuses := hu ▸ rfl
  have hget (f : Fld) : u.get f = s.get f := by rw [State.get, State.get, hurd]
  clear hu
  refine ⟨husched, ?_, State.get_put_self (by decide) _, ?_, fun a ha => ?_, hucores, hufuses⟩
  · rw [State.get_put_apart (.inr (by decide))]
    exact State.get_put_self (by decide) _
  · rw [State.get_put_apart (.inr (by decide)), State.get_put_apart (.inr (by decide)), hget]
  · rw [State.rd_put_ne _ _ _ _ ha, State.rd_put_ne _ _ _ _ ha, hurd]

theorem exec_slotBoundary_next (hready : s.on SCH_CTRL_READY = true) (hend : s.sched.slotEnd ≤ s.accNs)
    (hmore : s.sched.slot + 1 < s.sched.slots.length) : exec .slotBoundary s = finish s (boundaryActions
      (enterSlot s (s.sched.slot + 1) (s.sched.slotEnd + (s.sched.slots.getD (s.sched.slot + 1) (curSlot s)).len))) := by
  show execSlotBoundary s = _
  unfold execSlotBoundary
  exact congrArg (finish s) ((if_pos ⟨hready, hend⟩).trans (if_pos hmore))

theorem completes_slotBoundary_next (hon : s.powered) (hready : s.on SCH_CTRL_READY = true) (hend : s.sched.slotEnd ≤ s.accNs)
    (hmore : s.sched.slot + 1 < s.sched.slots.length) : Completes .slotBoundary s fun t => ∃ u, EndsAs s (boundaryActions u) t ∧
      u.sched = { s.sched with
        slot := s.sched.slot + 1
        slotEnd := s.sched.slotEnd + (s.sched.slots.getD (s.sched.slot + 1) (curSlot s)).len } ∧
      u.get SCH_NOW_SLOT = (s.sched.slot + 1) % 64 ∧ u.get SCH_NOW_KIND = (curSlot u).kind % 4 ∧
      u.get SCH_NOW_FRAME = s.get SCH_NOW_FRAME ∧ ∀ a, a ≠ SCH_NOW → u.rd a = s.rd a := by
  refine completes_of_endsAs (exec_slotBoundary_next hready hend hmore) hon fun t ht => ⟨_, ht, ?_⟩
  obtain ⟨hsched, hslot, hkind, hframe, hrd, -, -⟩ :=
    slotEntered s (s.sched.slot + 1) (s.sched.slotEnd + (s.sched.slots.getD (s.sched.slot + 1) (curSlot s)).len)
  exact ⟨hsched, hslot, hkind, hframe, hrd⟩

theorem ttLatch_idle (h : s.isPending 0 = false) : ttLatch s = s := by
  rw [ttLatch, h]
  rfl

theorem telemetry_off (hen : s.on DGN_TEL_CTL_ENABLE = false) (hwait : s.telWaiting = false) : telemetry s = s := by
  unfold telemetry
  simp only [hwait, Bool.false_eq_true, if_false, hen, Bool.false_and]

/-- A frame counted. -/
def frameCounted (s : State) : State := s.countWrap SCH_NOW_FRAME 1

theorem frameBoundary_first (hen : s.on DGN_TEL_CTL_ENABLE = false) (hwait : s.telWaiting = false) (hpend : s.isPending 0 = false)
    (hsingle : cwyFormed s = false) (b : Nat) : frameBoundary s b 0 true =
      boundaryActions (enterSlot (frameCounted s) (slotAt s.sched.slots 0).1 (b + (slotAt s.sched.slots 0).2)) := by
  have hframe : ttBoundary (telemetry s) b = s := by
    rw [telemetry_off hen hwait, ttBoundary, hsingle, if_neg Bool.false_ne_true, ttLatch_idle hpend]
  unfold frameBoundary
  simp only [if_true, hframe]
  rw [if_neg fun h => h.2 rfl]
  rfl

theorem completes_slotBoundary_frame (hon : s.powered) (hready : s.on SCH_CTRL_READY = true) (hend : s.sched.slotEnd ≤ s.accNs)
    (hlast : s.sched.slots.length ≤ s.sched.slot + 1) (hen : s.on DGN_TEL_CTL_ENABLE = false) (hwait : s.telWaiting = false)
    (hpend : s.isPending 0 = false) (hsingle : cwyFormed s = false) :
    Completes .slotBoundary s fun t => ∃ u, EndsAs s (boundaryActions u) t ∧
      u.sched = { s.sched with
        slot := (slotAt s.sched.slots 0).1, slotEnd := s.sched.slotEnd + (slotAt s.sched.slots 0).2 } ∧
      u.get SCH_NOW_FRAME = (s.get SCH_NOW_FRAME + 1) % 2 ^ 56 ∧ u.get SCH_NOW_SLOT = (slotAt s.sched.slots 0).1 % 64 ∧
      ∀ a, a ≠ SCH_NOW → u.rd a = s.rd a := by
  have hexec : exec .slotBoundary s = finish s (boundaryActions (enterSlot (frameCounted s) (slotAt s.sched.slots 0).1
      (s.sched.slotEnd + (slotAt s.sched.slots 0).2))) := by
    rw [← frameBoundary_first hen hwait hpend hsingle]
    show execSlotBoundary s = _
    unfold execSlotBoundary
    exact congrArg (finish s) ((if_pos ⟨hready, hend⟩).trans (if_neg (Nat.not_lt.mpr hlast)))
  refine completes_of_endsAs hexec hon fun t ht => ⟨_, ht, ?_⟩
  obtain ⟨hsched, hslot, -, hframe, hrd, -, -⟩ :=
    slotEntered (frameCounted s) (slotAt s.sched.slots 0).1 (s.sched.slotEnd + (slotAt s.sched.slots 0).2)
  refine ⟨hsched, hframe.trans (State.get_countWrap (by decide) _), hslot, fun a ha => (hrd a ha).trans (State.rd_put_ne _ _ _ _ ha)⟩

/-! ### A MAINT slot holds the cores (R205, R223) -/

/-- A state whose timetable position and snapshots are those of another. -/
structure SamePosition (s t : State) : Prop where
  slots : t.sched.slots = s.sched.slots
  slot : t.sched.slot = s.sched.slot
  snaps : t.sched.snaps = s.sched.snaps
  fuses : t.fuses = s.fuses

theorem SamePosition.refl (s : State) : SamePosition s s := ⟨rfl, rfl, rfl, rfl⟩

theorem SamePosition.trans {u : State} (h : SamePosition s t) (k : SamePosition t u) : SamePosition s u :=
  ⟨k.slots.trans h.slots, k.slot.trans h.slot, k.snaps.trans h.snaps, k.fuses.trans h.fuses⟩

theorem SamePosition.curSlot (h : SamePosition s t) : curSlot t = curSlot s := by rw [Machine.curSlot, Machine.curSlot, h.slots, h.slot]

theorem samePosition_readyStep (n : Nat) : SamePosition s (readyStep s n) := by
  unfold readyStep
  split <;> exact ⟨rfl, rfl, rfl, rfl⟩

/-- Every context with an entry becomes READY. -/
def stepsReady (s : State) : State := forUpTo 64 (fun n s => readyStep s n) s

theorem samePosition_stepsReady : SamePosition s (stepsReady s) := by
  unfold stepsReady
  generalize 64 = k
  induction k with
  | zero => exact SamePosition.refl s
  | succ k ih =>
    rw [forUpTo_succ]
    exact ih.trans (samePosition_readyStep k)

theorem effect_stepsReady : Effect ((List.range 64).map SCH_CTX_STAT) [.sched] s (stepsReady s) :=
  (Effect.refl s).forUpTo fun u n hn => Effect.readyStep (Effect.refl u) (List.mem_map.mpr ⟨n, List.mem_range.mpr hn, rfl⟩) (by decide)

/-- The core that takes the slot's performance level. -/
def leveled (s : State) (n lv : Nat) : State :=
  if (coreOf s n).plevel ≠ lv then
    (s.setCore n { (coreOf s n).rebase s with plevel := lv, relockEnd := some (s.cyc + 2000) }).put SYS_ISLAND_STAT_CORE
      (withBits (s.get SYS_ISLAND_STAT_CORE) n n 0)
  else s

/-- The core that a MAINT slot holds or lets go. -/
def heldCore (s : State) (n : Nat) (maint : Bool) : State :=
  if (coreOf s n).maint ≠ maint then s.setCore n { (coreOf s n).rebase s with maint := maint } else s

/-- The clock of one core at a boundary. -/
def coreClock (lv : Nat) (maint : Bool) (n : Nat) (s : State) : State :=
  if !s.fuses.phys.testBit n then s else heldCore (leveled s n lv) n maint

theorem coreClocks_eq : coreClocks s = forUpTo 8 (coreClock (slotLevel s) ((curSlot s).kind == 1)) s := rfl

theorem fuses_coreClock (lv : Nat) (maint : Bool) (n : Nat) : (coreClock lv maint n s).fuses = s.fuses := by
  have hleveled : (leveled s n lv).fuses = s.fuses := by
    unfold leveled
    split
    · exact setCore_keeps.2.2.2.2.2
    · rfl
  unfold coreClock heldCore
  split
  · rfl
  · split
    · exact setCore_keeps.2.2.2.2.2.trans hleveled
    · exact hleveled

theorem maint_heldCore (n : Nat) (maint : Bool) : (coreOf (heldCore s n maint) n).maint = maint := by
  unfold heldCore
  split
  · rw [coreOf_setCore_same]
  · next h => exact not_not.mp h

theorem coreOf_coreClock_ne {j n : Nat} (h : j ≠ n) (lv : Nat) (maint : Bool) : coreOf (coreClock lv maint n s) j = coreOf s j := by
  have hleveled : coreOf (leveled s n lv) j = coreOf s j := by
    unfold leveled
    split
    · exact coreOf_setCore_ne h
    · rfl
  unfold coreClock heldCore
  split
  · rfl
  · split
    · exact (coreOf_setCore_ne h).trans hleveled
    · exact hleveled

/-- The registers that a boundary's clocks may change. -/
def clockRegs : List Nat := SYS_ISLAND_STAT :: (List.range 8).flatMap fun n => [TC_STAT n, TC_CTX n]

theorem effect_coreClocks : Effect clockRegs [.cores] s (coreClocks s) := by
  rw [coreClocks_eq]
  refine (Effect.refl s).forUpTo fun u n hn => ?_
  have hstat : TC_STAT n ∈ clockRegs := List.mem_cons_of_mem _ (List.mem_flatMap.mpr ⟨n, List.mem_range.mpr hn, by simp⟩)
  have hctx : TC_CTX n ∈ clockRegs := List.mem_cons_of_mem _ (List.mem_flatMap.mpr ⟨n, List.mem_range.mpr hn, by simp⟩)
  have hleveled : Effect clockRegs [.cores] u (leveled u n (slotLevel s)) :=
    Effect.ite (fun _ => ((Effect.refl u).setCore hstat hctx (by decide) _).put (f := SYS_ISLAND_STAT_CORE) _ (by decide)) fun _ => Effect.refl u
  exact Effect.ite (fun _ => Effect.refl u) fun _ => Effect.ite (fun _ => hleveled.setCore hstat hctx (by decide) _) fun _ => hleveled

/-- Every powered core is held, or let go. -/
theorem maint_coreClocks {n : Nat} (hn : n < 8) (hphys : s.fuses.phys.testBit n = true) :
    (coreOf (coreClocks s) n).maint = ((curSlot s).kind == 1) := by
  have hall : (coreClocks s).fuses.phys.testBit n = true → (coreOf (coreClocks s) n).maint = ((curSlot s).kind == 1) := by
    rw [coreClocks_eq]
    refine forUpTo_each (P := fun n u => u.fuses.phys.testBit n = true → (coreOf u n).maint = ((curSlot s).kind == 1)) (fun k u h => ?_)
      (fun j k u hjk hj h => ?_) hn s
    · rw [fuses_coreClock] at h
      rw [coreClock, if_neg (by simp [h])]
      exact maint_heldCore ..
    · rw [fuses_coreClock] at h
      rw [coreOf_coreClock_ne hjk]
      exact hj h
  refine hall ?_
  have hfuses : (coreClocks s).fuses = s.fuses := by
    rw [coreClocks_eq]
    generalize 8 = m
    induction m with
    | zero => rfl
    | succ m ih => rw [forUpTo_succ, fuses_coreClock, ih]
  rw [hfuses, hphys]

/-- The snapshots of a boundary. -/
def snapped (s : State) : State :=
  { s with sched := { s.sched with
    snaps := (List.range 64).map fun n => (n, s.get (SCH_CTX_SPROD_INDEX n)), boundary := s.sched.boundary + 1 } }

theorem tget_map_pairs {α : Type} (f : Nat → α) {n : Nat} {xs : List Nat} (h : n ∈ xs) : tget (xs.map fun n => (n, f n)) n = some (f n) := by
  induction xs with
  | nil => exact nomatch h
  | cons x xs ih =>
    rw [List.map_cons, tget]
    split
    next hx => exact congrArg (fun n => some (f n)) hx.symm
    next hx => exact ih ((List.mem_cons.mp h).resolve_left fun e => hx e)

/-- A boundary into a MAINT slot. -/
theorem boundaryActions_maint (hkind : (curSlot s).kind = 1) (hready : s.on MEM_DDR_STAT_READY = true) :
    boundaryActions s = coreClocks ((stepsReady (snapped s)).setOn MEM_DDR_STAT_RETRAIN) := by
  have hslot : curSlot (stepsReady (snapped s)) = curSlot s := samePosition_stepsReady.curSlot
  have hstill : (stepsReady (snapped s)).on MEM_DDR_STAT_READY = true := by
    rw [effect_stepsReady.on (by decide)]
    exact hready
  show coreClocks (if (curSlot (stepsReady (snapped s))).kind = 1 then
    onIf ((stepsReady (snapped s)).on MEM_DDR_STAT_READY) (fun s => s.setOn MEM_DDR_STAT_RETRAIN) (stepsReady (snapped s)) else _) = _
  rw [if_pos (by rw [hslot, hkind]), onIf, if_pos hstill]

theorem completes_slotBoundary_maint (hon : s.powered) (hready : s.on SCH_CTRL_READY = true) (hend : s.sched.slotEnd ≤ s.accNs)
    (hmore : s.sched.slot + 1 < s.sched.slots.length) (hkind : (s.sched.slots.getD (s.sched.slot + 1) (curSlot s)).kind = 1)
    (hddr : s.on MEM_DDR_STAT_READY = true) : Completes .slotBoundary s fun t =>
      t.on MEM_DDR_STAT_RETRAIN = true ∧ (∀ n < 8, s.fuses.phys.testBit n = true → (coreOf t n).maint = true) ∧
      ∀ n < 64, tgetD t.sched.snaps n 0 = s.get (SCH_CTX_SPROD_INDEX n) := by
  have hexec := exec_slotBoundary_next hready hend hmore
  obtain ⟨hsched, -, -, -, hrd, hcores, hfuses⟩ :=
    slotEntered s (s.sched.slot + 1) (s.sched.slotEnd + (s.sched.slots.getD (s.sched.slot + 1) (curSlot s)).len)
  generalize enterSlot s (s.sched.slot + 1) (s.sched.slotEnd + (s.sched.slots.getD (s.sched.slot + 1) (curSlot s)).len) = u
    at hexec hsched hrd hcores hfuses
  have hcur : (curSlot u).kind = 1 := by
    rw [← hkind, curSlot, hsched]
    simp only [List.getD_eq_getElem?_getD, List.getElem?_eq_getElem hmore, Option.getD_some]
  have hready' : u.on MEM_DDR_STAT_READY = true := by
    rw [← hddr]
    exact State.on_congr (by rw [State.get, State.get, hrd _ (by decide)])
  rw [boundaryActions_maint hcur hready'] at hexec
  have hsnaps : (snapped u).sched.snaps = (List.range 64).map fun n => (n, u.get (SCH_CTX_SPROD_INDEX n)) := rfl
  have hslot : curSlot (snapped u) = curSlot u := rfl
  have hfuse : (snapped u).fuses = u.fuses := rfl
  generalize snapped u = v at hexec hsnaps hslot hfuse
  have hsteps := samePosition_stepsReady (s := v)
  generalize stepsReady v = x at hexec hsteps
  have hpos : SamePosition v (x.setOn MEM_DDR_STAT_RETRAIN) := hsteps.trans ⟨rfl, rfl, rfl, rfl⟩
  have hset : (x.setOn MEM_DDR_STAT_RETRAIN).on MEM_DDR_STAT_RETRAIN = true := State.on_setOn _ _ rfl (by decide)
  generalize x.setOn MEM_DDR_STAT_RETRAIN = w at hexec hpos hset
  have hclocks := effect_coreClocks (s := w)
  refine completes_of_settled hexec hon fun t hs => ⟨?_, fun n hn hphys => ?_, fun n hn => ?_⟩
  · rw [hs.on _ (by decide) (by decide), hclocks.on (by decide), hset]
  · rw [coreOf_of_cores hs.cores, maint_coreClocks hn (by rw [hpos.fuses, hfuse, hfuses, hphys]), hpos.curSlot, hslot, hcur]
    rfl
  · rw [hs.sched, hclocks.keeps .sched (by decide), hpos.snaps, hsnaps, tgetD, tget_map_pairs _ (List.mem_range.mpr hn), Option.getD_some,
      State.get, State.get, hrd]
    unfold SCH_CTX_SPROD_INDEX SCH_CTX_SPROD SCH_NOW
    dsimp only
    omega

/-! ### Relock (R35, R37) -/

theorem testBit_zero_ofBool (b : Bool) : (ofBool b).testBit 0 = b := by cases b <;> rfl

theorem completes_coreRelockEnd (hon : s.powered) {n e : Nat} (hn : n < 8) (hrelock : (coreOf s n).relockEnd = some e)
    (hedge : (e + 9) / 10 * 10 ≤ s.cyc) : Completes (.coreRelockEnd n) s fun t =>
      coreOf t n = { coreOf s n with
        clkAcc := (coreOf s n).clkAcc / 10 * 10, clkAt := (e + 9) / 10 * 10, relockEnd := none } ∧
      (t.get SYS_ISLAND_STAT_CORE).testBit n = (s.get SYS_CORE_MAP_POWERED).testBit n ∧
      ChangesOnly [TC_STAT n, TC_CTX n, SYS_ISLAND_STAT] [.cores] s t := by
  have htenths : (coreOf s n).tenths s = (coreOf s n).clkAcc := if_pos (by rw [hrelock]; simp)
  have hexec : exec (.coreRelockEnd n) s = finish s ((s.setCore n { coreOf s n with
      clkAcc := (coreOf s n).clkAcc / 10 * 10, clkAt := (e + 9) / 10 * 10, relockEnd := none }).put SYS_ISLAND_STAT_CORE
      (withBits (s.get SYS_ISLAND_STAT_CORE) n n (ofBool ((s.get SYS_CORE_MAP_POWERED).testBit n)))) := by
    show execCoreRelockEnd n s = _
    unfold execCoreRelockEnd
    simp only [hrelock, htenths]
    exact congrArg (finish s) (if_pos hedge)
  have hset := effect_setCore (s := s) (n := n) { coreOf s n with
    clkAcc := (coreOf s n).clkAcc / 10 * 10, clkAt := (e + 9) / 10 * 10, relockEnd := none }
  refine completes_of_settled hexec hon fun t hs => ⟨?_, ?_, hs.changesOnly
    ((hset.mono (by simp) (by decide)).put _ (by simp [SYS_ISLAND_STAT_CORE]))⟩
  · rw [coreOf_of_cores hs.cores]
    exact coreOf_setCore_same ..
  · rw [hs.get _ (by decide) (by decide), State.get_put_self (by decide), Nat.testBit_mod_two_pow, testBit_withBits _ _ _ _ _ (by omega),
      if_pos ⟨Nat.le_refl _, Nat.le_refl _⟩, Nat.sub_self, decide_eq_true (show n < SYS_ISLAND_STAT_CORE.hi + 1 - SYS_ISLAND_STAT_CORE.lo from hn), Bool.true_and,
      testBit_zero_ofBool]

/-! ### The timetable's COMMIT (R18, R22, R221) -/

section

variable (w : Word64)

theorem get_wr_ttCommit (f : Fld) (h : f.addr ≠ SCH_TT_COMMIT) : (s.wr SCH_TT_COMMIT w).get f = s.get f := State.get_wr_ne h w

theorem tierLoad_wr_ttCommit (a n : Nat) : tierLoad (s.wr SCH_TT_COMMIT w) a n = tierLoad s a n := by
  have hcount : pltCount (s.wr SCH_TT_COMMIT w) = pltCount s := by rw [pltCount, pltCount, get_wr_ttCommit _ _ (by decide)]
  have hmeets : meetsEngine (s.wr SCH_TT_COMMIT w) a n = meetsEngine s a n := by
    unfold meetsEngine
    rw [hcount, get_wr_ttCommit _ _ (by decide), get_wr_ttCommit _ _ (by decide)]
    rfl
  have hbyte (pa : Nat) : engineByte (s.wr SCH_TT_COMMIT w) pa = engineByte s pa := by
    unfold engineByte
    rw [hcount, get_wr_ttCommit _ _ (by decide), get_wr_ttCommit _ _ (by decide)]
    rfl
  unfold tierLoad
  rw [hmeets]
  simp only [hbyte]
  rfl

theorem pendGet_wr_ttCommit (f : Fld) (h : f.addr ≠ SCH_TT_COMMIT) : (s.wr SCH_TT_COMMIT w).pendGet 0 f = s.pendGet 0 f := by
  rw [State.pendGet, State.pendGet, State.pendRd, State.pendRd, State.rd_wr_ne _ _ _ _ h]
  rfl

theorem ttPending_wr_ttCommit : ttPending (s.wr SCH_TT_COMMIT w) = ttPending s := by
  have hobj (u : Nat) : objectAt (s.wr SCH_TT_COMMIT w) u = objectAt s u := by
    rw [objectAt, objectAt, State.on_congr (get_wr_ttCommit w MEM_PLT_CTRL_READY (by decide))]
    rfl
  have hhost : hostUp (s.wr SCH_TT_COMMIT w) = hostUp s := State.on_congr (get_wr_ttCommit w FLD_PCI_STAT_BME (by decide))
  have harray : ttArray (s.wr SCH_TT_COMMIT w) = ttArray s := by
    unfold ttArray
    simp only [pendGet_wr_ttCommit w SCH_TT_BASE_ADDR (by decide), pendGet_wr_ttCommit w SCH_TT_FRAME_NSLOT (by decide), hobj, hhost,
      tierLoad_wr_ttCommit]
    rfl
  unfold ttPending
  rw [harray, pendGet_wr_ttCommit w SCH_TT_FRAME_US (by decide), pendGet_wr_ttCommit w SCH_TT_FRAME_NSLOT (by decide),
    pendGet_wr_ttCommit w SCH_TT_PHASE_NS (by decide)]

end

theorem effect_ttRead : Effect accessRegs engineParts s (ttRead s) := by
  unfold ttRead
  extract_lets addr u
  have hu : Effect accessRegs engineParts s u := effect_lookup _
  split
  · exact hu
  · simp only
    split
    · exact (((hu.count 1 (by decide)).setOn (by decide)).trans (effect_logUe ..)).free _ (by decide)
    · split
      · exact hu
      · exact (hu.trans (effect_logUe ..)).free _ (by decide)

def ttCommitRow : RegDesc := ⟨"SCH_TT_COMMIT", 0x100003000018, [], 32, 0x0, [⟨0, 0, .live⟩], none, none⟩

theorem regAt_ttCommit : regAt SCH_TT_COMMIT = some (ttCommitRow, [], false) := by decide

theorem plainRow_ttCommit : PlainRow SCH_TT_COMMIT ttCommitRow := by decide

def schCtrlRow : RegDesc := ⟨"SCH_CTRL", 0x100003000000, [], 32, 0x8, [⟨3, 3, .ro⟩, ⟨2, 2, .ro⟩, ⟨1, 1, .ro⟩, ⟨0, 0, .live⟩], none, none⟩

theorem regAt_schCtrl : regAt SCH_CTRL = some (schCtrlRow, [], false) := by decide

theorem plainRow_schCtrl : PlainRow SCH_CTRL schCtrlRow := by decide

end

section

variable {s : State} {who : Initiator} {v : Word64}

/-- The write of COMMIT stored. -/
def ttCommitStored (s : State) (v : Nat) : State :=
  s.wr SCH_TT_COMMIT (BitVec.ofNat 64 (mergeBits (rwMask ttCommitRow) (s.rd SCH_TT_COMMIT).toNat v))

theorem writeReg_ttCommit (ok : WriteOk s who SCH_TT_COMMIT (v.toNat ||| 1)) :
    writeReg s who SCH_TT_COMMIT (v.toNat ||| 1) = ttCommitWritten (ttCommitStored s (v.toNat ||| 1)) := by
  refine (writeReg_plain ok regAt_ttCommit plainRow_ttCommit).trans ?_
  show onIf ((v.toNat ||| 1).testBit 0) ttCommitWritten _ = _
  rw [Nat.testBit_or, show Nat.testBit 1 0 = true from rfl, Bool.or_true]
  rfl

theorem effect_ttCommitStored (v : Nat) : Effect [SCH_TT_COMMIT] [] s (ttCommitStored s v) := (Effect.refl s).wr _ List.mem_cons_self

theorem heldRd_ttCommitStored (a v : Nat) : (ttCommitStored s v).heldRd a = s.heldRd a := rfl

theorem cwyMaster_of_single (h : cwyFormed s = false) : cwyMaster s = false := by
  rw [cwyMaster, ← cwyFormed, h, Bool.false_and]

theorem completes_ttCommit_on (hon : s.powered) (ok : WriteOk s who SCH_TT_COMMIT (v.toNat ||| 1)) (hsingle : cwyFormed s = false)
    (hen : s.on SCH_CTRL_ENABLE = true) : Completes (.ttCommit who v) s fun t =>
      t.isPending 0 = true ∧ (∀ r ∈ keyRegs 0, t.pendRd 0 r.1 = s.heldRd r.1) ∧
      ChangesOnly [SCH_TT_COMMIT] [.held] s t := by
  have hwrite := writeReg_ttCommit ok
  have heff := effect_ttCommitStored (s := s) (v.toNat ||| 1)
  have hheld (a : Nat) := heldRd_ttCommitStored (s := s) a (v.toNat ||| 1)
  generalize ttCommitStored s (v.toNat ||| 1) = u at hwrite heff hheld
  have hstill : (u.snapshot 0).on SCH_CTRL_ENABLE = true := (heff.on (f := SCH_CTRL_ENABLE) (by decide)).trans hen
  have halone : cwyFormed (u.snapshot 0) = false := by
    rw [← hsingle, cwyFormed, cwyFormed]
    exact congrArg (· == 3) (heff.get (f := CWY_STAT_STATE) (by decide))
  rw [ttCommitWritten, cwyMaster_of_single halone, hstill] at hwrite
  refine completes_of_settled (congrArg (finish s) hwrite) hon fun t hs => ⟨?_, fun r hr => ?_, hs.changesOnly
    ((heff.mono (List.Subset.refl _) (List.nil_subset _)).snapshot _ List.mem_cons_self)⟩
  · rw [hs.isPending]
    exact State.isPending_snapshot
  · rw [State.pendRd_of_snapshot hr hs.pendSets, hheld _]

theorem completes_ttCommit_off (hon : s.powered) (ok : WriteOk s who SCH_TT_COMMIT (v.toNat ||| 1)) (hsingle : cwyFormed s = false)
    (hen : s.on SCH_CTRL_ENABLE = false) (hbad : ttPending (s.snapshot 0) = none) : Completes (.ttCommit who v) s fun t =>
      t.isPending 0 = false ∧ t.on SCH_CTRL_TTERR = true ∧ t.on SCH_EVT_TTERR = true ∧
      t.get SCH_CNT_TTERR_VALUE = satAdd 32 (s.get SCH_CNT_TTERR_VALUE) 1 ∧
      ChangesOnly ([SCH_TT_COMMIT, SCH_CTRL, SCH_EVT, SCH_CNT_TTERR] ++ engineRegs) (.held :: engineParts) s t := by
  have hwrite := writeReg_ttCommit ok
  have heff := effect_ttCommitStored (s := s) (v.toNat ||| 1)
  have hrefused : ttPending ((ttCommitStored s (v.toNat ||| 1)).snapshot 0) = none :=
    (ttPending_wr_ttCommit (s := s.snapshot 0) _).trans hbad
  generalize ttCommitStored s (v.toNat ||| 1) = u at hwrite heff hrefused
  have hstill : (u.snapshot 0).on SCH_CTRL_ENABLE = false := (heff.on (f := SCH_CTRL_ENABLE) (by decide)).trans hen
  have halone : cwyFormed (u.snapshot 0) = false := by
    rw [← hsingle, cwyFormed, cwyFormed]
    exact congrArg (· == 3) (heff.get (f := CWY_STAT_STATE) (by decide))
  have hlatch : ttLatch (u.snapshot 0) = ttRefuse (ttRead (u.snapshot 0)) := by
    unfold ttLatch
    rw [State.isPending_snapshot, hrefused]
    rfl
  rw [ttCommitWritten] at hwrite
  simp only [cwyMaster_of_single halone, hstill, halone, Bool.false_and, Bool.or_self, Bool.false_eq_true, if_false, hlatch] at hwrite
  have hsnap : Effect [SCH_TT_COMMIT] [.held] s (u.snapshot 0) :=
    (heff.mono (List.Subset.refl _) (List.nil_subset _)).snapshot _ List.mem_cons_self
  have hread : Effect ([SCH_TT_COMMIT] ++ accessRegs) (.held :: engineParts) s (ttRead (u.snapshot 0)) :=
    (hsnap.mono (by simp) (by simp)).trans (effect_ttRead.mono (by simp) (by simp))
  generalize ttRead (u.snapshot 0) = x at hwrite hread
  have hdrop : Effect ([SCH_TT_COMMIT] ++ accessRegs) (.held :: engineParts) s (x.dropPending 0) := hread.pendSets _ (by decide)
  have hgone : (x.dropPending 0).isPending 0 = false := congrArg Option.isSome (tget_tdel_same _ 0)
  rw [ttRefuse] at hwrite
  generalize x.dropPending 0 = y at hwrite hdrop hgone
  refine completes_of_settled (congrArg (finish s) hwrite) hon fun t hs => ⟨?_, ?_, ?_, ?_, ?_⟩
  · rw [hs.isPending]
    exact hgone
  · rw [hs.on _ (by decide) (by decide), State.on_congr (State.get_count_apart (.inl (by decide)) 1),
      State.on_congr (State.get_setOn_apart (.inl (by decide)))]
    exact State.on_setOn _ _ rfl (by decide)
  · rw [hs.on _ (by decide) (by decide), State.on_congr (State.get_count_apart (.inl (by decide)) 1)]
    exact State.on_setOn _ _ rfl (by decide)
  · rw [hs.get _ (by decide) (by decide), State.get_count_self (by decide), State.get_setOn_apart (.inl (by decide)),
      State.get_setOn_apart (.inl (by decide)), hdrop.get (by decide)]
    rfl
  · exact hs.changesOnly_accessed (((((hdrop.mono (by simp) (by simp)).setOn (by simp [SCH_CTRL_TTERR])).setOn
      (by simp [SCH_EVT_TTERR])).count 1 (by simp [SCH_CNT_TTERR_VALUE]))) (List.subset_append_right _ _)
      (by simp)

/-! ### The scheduler's enable (R219, R255) -/

/-- The write of SCH_CTRL stored. -/
def schCtrlStored (s : State) (v : Nat) : State :=
  s.wr SCH_CTRL (BitVec.ofNat 64 (mergeBits (rwMask schCtrlRow) (s.rd SCH_CTRL).toNat v))

theorem writeReg_schCtrl (ok : WriteOk s who SCH_CTRL v.toNat) : writeReg s who SCH_CTRL v.toNat =
    schEnableWritten ((s.rd SCH_CTRL).toNat % 2) (v.toNat % 2) (schCtrlStored s v.toNat) :=
  writeReg_plain ok regAt_schCtrl plainRow_schCtrl

theorem effect_schCtrlStored (v : Nat) : Effect [SCH_CTRL] [] s (schCtrlStored s v) := (Effect.refl s).wr _ List.mem_cons_self

theorem ready_schCtrlStored {v : Nat} (hv : v < 2 ^ 64) : (schCtrlStored s v).on SCH_CTRL_READY = s.on SCH_CTRL_READY :=
  State.on_congr (State.get_wr_merge_out (f := SCH_CTRL_READY) (by decide) (by decide) hv (by decide))

/-- The scheduler starts a frame count. -/
def schStarted (s : State) : State := ((s.put SCH_CTRL_ENABLE 1).setOn SCH_CTRL_READY).put SCH_NOW_FRAME 0

theorem effect_schStarted : Effect [SCH_CTRL, SCH_NOW] [] s (schStarted s) :=
  (((Effect.refl s).put (f := SCH_CTRL_ENABLE) 1 (by decide)).setOn (f := SCH_CTRL_READY) (by decide)).put _ (by decide)

theorem completes_schedulerEnable_on (hon : s.powered) (ok : WriteOk s who SCH_CTRL v.toNat) (hoff : s.on SCH_CTRL_ENABLE = false)
    (hidle : s.on SCH_CTRL_READY = false) (hv : v.toNat % 2 = 1) (hwrap : s.epochMode = false) :
    Completes (.schedulerEnable who v) s fun t => ∃ u, EndsAs s (boundaryActions u) t ∧
      u.on SCH_CTRL_ENABLE = true ∧ u.on SCH_CTRL_READY = true ∧ u.get SCH_NOW_FRAME = 0 ∧
      u.sched = { s.sched with slot := (slotAt s.sched.slots 0).1, slotEnd := s.accNs + (slotAt s.sched.slots 0).2 } ∧
      ∀ a, a ≠ SCH_CTRL → a ≠ SCH_NOW → u.rd a = s.rd a := by
  have heff := effect_schCtrlStored (s := s) v.toNat
  have hready := (ready_schCtrlStored (s := s) v.isLt).trans hidle
  have hsched : (schCtrlStored s v.toNat).sched = s.sched := rfl
  have hacc : (schCtrlStored s v.toNat).accNs = s.accNs := rfl
  have hmode : (schCtrlStored s v.toNat).epochMode = false := (heff.on (f := TIM_CTRL_MODE) (by decide)).trans hwrap
  have hwrite := writeReg_schCtrl ok
  rw [show (s.rd SCH_CTRL).toNat % 2 = 0 from State.mod_two_of_off (f := SCH_CTRL_ENABLE) rfl rfl hoff, hv] at hwrite
  generalize schCtrlStored s v.toNat = w at heff hready hsched hacc hmode hwrite
  have hput : (w.put SCH_CTRL_ENABLE 1).on SCH_CTRL_READY = false :=
    (State.on_congr (State.get_put_apart (.inr (by decide)) 1)).trans hready
  have hstarted : schEnableWritten 0 1 w =
      boundaryActions (enterSlot (schStarted w) (slotAt s.sched.slots 0).1 (s.accNs + (slotAt s.sched.slots 0).2)) := by
    have hstill : (schStarted w).epochMode = false := by
      rw [← hmode]
      exact effect_schStarted.on (f := TIM_CTRL_MODE) (by decide)
    unfold schEnableWritten
    simp only [hput, Bool.false_eq_true, and_false, if_false, true_and, if_true]
    rw [← schStarted, hstill, if_neg Bool.false_ne_true]
    show boundaryActions (enterSlot _ (slotAt w.sched.slots 0).1 (w.accNs + (slotAt w.sched.slots 0).2)) = _
    rw [hsched, hacc]
  rw [hstarted] at hwrite
  have hentered := slotEntered (schStarted w) (slotAt s.sched.slots 0).1 (s.accNs + (slotAt s.sched.slots 0).2)
  refine completes_of_endsAs (congrArg (finish s) hwrite) hon fun t ht => ⟨_, ht, ?_, ?_, ?_, ?_, fun a ha ha' => ?_⟩
  · rw [hentered.on (by decide), schStarted,
      State.on_congr (State.get_put_apart (.inl (by decide)) 0), State.on_congr (State.get_setOn_apart (.inr (by decide))), State.on,
      State.get_put_self (by decide)]
    rfl
  · rw [hentered.on (by decide), schStarted,
      State.on_congr (State.get_put_apart (.inl (by decide)) 0)]
    exact State.on_setOn _ _ rfl (by decide)
  · rw [hentered.frame, schStarted, State.get_put_self (by decide), Nat.zero_mod]
  · rw [hentered.sched, effect_schStarted.keeps .sched (by decide), hsched]
  · rw [hentered.rd a ha', effect_schStarted.rd a (by simp [ha, ha']), heff.rd a (by simpa using ha)]

theorem completes_schedulerEnable_off (hon : s.powered) (ok : WriteOk s who SCH_CTRL v.toNat) (hen : s.on SCH_CTRL_ENABLE = true)
    (hv : v.toNat % 2 = 0) (hmaint : inMaint s = false) : Completes (.schedulerEnable who v) s fun t => ∃ u : State,
      EndsAs s (ttLatch ((u.sched.steps.foldl (fun s p => preempt s p.1) u).setOff SCH_CTRL_READY)) t ∧
      u.on SCH_CTRL_ENABLE = false ∧ u.sched = s.sched ∧ ∀ a, a ≠ SCH_CTRL → u.rd a = s.rd a := by
  have heff := (effect_schCtrlStored (s := s) v.toNat).put (f := SCH_CTRL_ENABLE) 0 (by decide)
  have hready : ((schCtrlStored s v.toNat).put SCH_CTRL_ENABLE 0).on SCH_CTRL_READY = s.on SCH_CTRL_READY :=
    (State.on_congr (State.get_put_apart (.inr (by decide)) 0)).trans (ready_schCtrlStored v.isLt)
  have hsched : ((schCtrlStored s v.toNat).put SCH_CTRL_ENABLE 0).sched = s.sched := rfl
  have hput : ((schCtrlStored s v.toNat).put SCH_CTRL_ENABLE 0).on SCH_CTRL_ENABLE = false := by
    rw [State.on, State.get_put_self (by decide)]
    rfl
  have hwrite := writeReg_schCtrl ok
  rw [show (s.rd SCH_CTRL).toNat % 2 = 1 from State.mod_two_of_on (f := SCH_CTRL_ENABLE) rfl rfl hen, hv, schEnableWritten] at hwrite
  simp only at hwrite
  generalize (schCtrlStored s v.toNat).put SCH_CTRL_ENABLE 0 = u at heff hready hsched hput hwrite
  have hstill : inMaint u = false := by rw [← hmaint, inMaint, inMaint, hready, curSlot, curSlot, hsched]
  simp only [one_ne_zero, false_and, if_false, and_self, if_true, hstill, Bool.false_eq_true] at hwrite
  exact completes_of_endsAs (congrArg (finish s) hwrite) hon fun t ht => ⟨u, ht, hput, hsched, fun a ha => heff.rd a (by simpa using ha)⟩

end

/-- Settles O14: the boundary's slot, the relock, the timetable's COMMIT and the enable, each by the state it leaves. -/
theorem slotBoundaryRelockAndTimetable : Obligations.SlotBoundaryRelockAndTimetable := by
  unfold Obligations.SlotBoundaryRelockAndTimetable
  refine ⟨fun s hon hready hend => ⟨?_, ?_, ?_⟩, fun s hon => ⟨?_, fun who v ok hsingle => ⟨?_, ?_⟩, fun who v ok => ⟨?_, ?_⟩⟩⟩
  · exact completes_slotBoundary_next hon hready hend
  · exact completes_slotBoundary_frame hon hready hend
  · exact completes_slotBoundary_maint hon hready hend
  · exact fun n e hn => completes_coreRelockEnd hon hn
  · exact completes_ttCommit_on hon ok hsingle
  · exact completes_ttCommit_off hon ok hsingle
  · exact completes_schedulerEnable_on hon ok
  · exact completes_schedulerEnable_off hon ok

end Sys2Proof.Machine
end
section
/-! The page pool controller leaves the cores and their registers (R164–R166, R174). -/

namespace Sys2Proof.Machine

open Sys2Proof Sys2Proof.Machine.Reg

/-- From `s` to `t` neither a core nor a register below those of the memory and the scheduler changes. -/
structure LeavesCores (s t : State) : Prop where
  cores : t.cores = s.cores
  rd : ∀ a, a < 0x100002000000 → t.rd a = s.rd a

namespace LeavesCores

variable {s t u : State} {regs : List Nat} {parts : List Part}

theorem refl (s : State) : LeavesCores s s := ⟨rfl, fun _ _ => rfl⟩

theorem trans (h : LeavesCores s t) (k : LeavesCores t u) : LeavesCores s u :=
  ⟨k.cores.trans h.cores, fun a ha => (k.rd a ha).trans (h.rd a ha)⟩

theorem of_effect (h : Effect regs parts s t) (hp : Part.cores ∉ parts) (hr : ∀ a ∈ regs, 0x100002000000 ≤ a) : LeavesCores s t :=
  ⟨(h.keeps .cores hp).1, fun a ha => h.rd a fun hm => absurd (hr a hm) (Nat.not_le.mpr ha)⟩

theorem put (h : LeavesCores s t) {f : Fld} (v : Nat) (hf : 0x100002000000 ≤ f.addr) : LeavesCores s (t.put f v) :=
  h.trans (of_effect ((Effect.refl t).put v List.mem_cons_self) (parts := []) List.not_mem_nil fun _ ha => List.mem_singleton.mp ha ▸ hf)

theorem setOn (h : LeavesCores s t) {f : Fld} (hf : 0x100002000000 ≤ f.addr) : LeavesCores s (t.setOn f) :=
  h.trans (of_effect ((Effect.refl t).setOn List.mem_cons_self) (parts := []) List.not_mem_nil fun _ ha => List.mem_singleton.mp ha ▸ hf)

theorem foldl {α : Type} {f : State → α → State} (hf : ∀ u x, LeavesCores u (f u x)) (xs : List α) (s : State) :
    LeavesCores s (xs.foldl f s) := by
  induction xs generalizing s with
  | nil => exact refl s
  | cons x xs ih => exact (hf s x).trans (ih _)

theorem forUpTo {f : Nat → State → State} (hf : ∀ k u, LeavesCores u (f k u)) (n : Nat) (s : State) : LeavesCores s (forUpTo n f s) := by
  induction n with
  | zero => exact refl s
  | succ n ih =>
    rw [forUpTo_succ]
    exact ih.trans (hf n _)

end LeavesCores

section

variable {s t : State} {n : Nat}

theorem accessRegs_high : ∀ a ∈ accessRegs, 0x100002000000 ≤ a := by decide

theorem leavesCores_of_access {s t : State} (h : Effect accessRegs engineParts s t) : LeavesCores s t :=
  .of_effect h (by decide) accessRegs_high

theorem leavesCores_kvRead (ctx a k : Nat) : LeavesCores s (kvRead s ctx a k).1 := leavesCores_of_access (effect_engineRead ..)

theorem leavesCores_kvWrite (ctx a k v : Nat) : LeavesCores s (kvWrite s ctx a k v) := leavesCores_of_access (effect_engineWrite ..)

theorem leavesCores_setPool (n : Nat) (p : Pool) : LeavesCores s (s.setPool n p) :=
  ((⟨rfl, fun _ _ => rfl⟩ : LeavesCores s { s with pools := tset s.pools n p }).put _ (by simp [SCH_KVP_FREE_COUNT, SCH_KVP_FREE]; omega)).put _
    (by simp [SCH_KVP_LIVE_VALUE, SCH_KVP_LIVE]; omega)

theorem LeavesCores.ite {c : Prop} [Decidable c] {u : State} (h : LeavesCores s t) (k : LeavesCores s u) :
    LeavesCores s (if c then t else u) := by
  split
  · exact h
  · exact k

theorem leavesCores_freeSequence (ptab h : Nat) : LeavesCores s (freeSequence s n ptab h) :=
  .foldl (fun u c => by
    simp only
    have hset (p : Pool) : LeavesCores u ((kvRead u (poolOwner s n) (kvEntry ptab (hdMaxpg h) c.1 c.2) 8).1.setPool n p) :=
      (leavesCores_kvRead ..).trans (leavesCores_setPool n p)
    exact .ite (hset _) ((hset _).trans (leavesCores_kvWrite ..))) _ s

theorem leavesCores_retireNow (ptab : Nat) : LeavesCores s (retireNow s n ptab) :=
  (((leavesCores_kvRead ..).trans (leavesCores_freeSequence ..)).trans (leavesCores_kvWrite ..)).trans (leavesCores_setPool ..)

theorem leavesCores_disablePool : LeavesCores s (disablePool s n) :=
  (((LeavesCores.refl s).put (f := SCH_KVP_CTL_ENABLE n) 0 (by simp [SCH_KVP_CTL_ENABLE, SCH_KVP_CTL]; omega)).put
    (f := SCH_KVP_CTL_READY n) 0 (by simp [SCH_KVP_CTL_READY, SCH_KVP_CTL]; omega)).trans (leavesCores_setPool ..)

theorem leavesCores_afterUnpin : LeavesCores s (afterUnpin s n) := by
  have hretired (xs : List Nat) : LeavesCores s (xs.foldl (fun s t => retireNow s n t) s) := .foldl (fun _ _ => leavesCores_retireNow _) xs s
  exact .ite ((hretired _).trans leavesCores_disablePool) (hretired _)

theorem leavesCores_kvpRefuse : LeavesCores s (kvpRefuse s n) :=
  ((LeavesCores.refl s).put (f := SCH_KVP_CNT_BADREQ_VALUE n) _ (by simp [SCH_KVP_CNT_BADREQ_VALUE, SCH_KVP_CNT_BADREQ]; omega)).setOn
    (f := SCH_KVP_EVT_BADREQ n) (by simp [SCH_KVP_EVT_BADREQ, SCH_KVP_EVT]; omega)

theorem leavesCores_kvpAdmit (ptab : Nat) : LeavesCores s (kvpAdmit n ptab s) := by
  have hread : LeavesCores s (kvHeader s (poolOwner s n) ptab).1 := leavesCores_kvRead ..
  unfold kvpAdmit
  simp only
  exact .ite leavesCores_kvpRefuse (.ite (hread.trans leavesCores_kvpRefuse) ((((hread.trans (leavesCores_kvWrite ..)).trans
    (leavesCores_kvWrite ..)).put (f := SCH_KVP_NEXTADM_VALUE n) _ (by simp [SCH_KVP_NEXTADM_VALUE, SCH_KVP_NEXTADM]; omega)).trans
    (leavesCores_setPool ..)))

theorem leavesCores_kvpRetire (ptab : Nat) : LeavesCores s (kvpRetire n ptab s) := by
  have hread : LeavesCores s (kvHeader s (poolOwner s n) ptab).1 := leavesCores_kvRead ..
  unfold kvpRetire
  simp only
  exact .ite (hread.trans leavesCores_kvpRefuse) (.ite (.ite hread (hread.trans (leavesCores_setPool ..))) (hread.trans (leavesCores_retireNow _)))

theorem leavesCores_kvpDrain (k : Nat) : LeavesCores s (kvpDrain k s) := by
  induction k generalizing s with
  | zero => exact .refl s
  | succ k ih =>
    unfold kvpDrain
    cases kvpNext s [] s.kvpQueue with
    | none => exact .refl s
    | some x =>
      have hqueue : LeavesCores s { s with kvpQueue := x.2 } := ⟨rfl, fun _ _ => rfl⟩
      exact (hqueue.trans (.ite (leavesCores_kvpAdmit _) (leavesCores_kvpRetire _))).trans ih

theorem leavesCores_dropRequests (core : Nat) : LeavesCores s (dropRequests s core) := by
  have hcounted (xs : List PageReq) : LeavesCores s (xs.foldl (fun t q => t.countWrap (SCH_KVP_CNT_WAIT_VALUE q.pool) (kvpWaited s q)) s) :=
    .foldl (fun u q => (LeavesCores.refl u).put _ (by simp [SCH_KVP_CNT_WAIT_VALUE, SCH_KVP_CNT_WAIT]; omega)) xs s
  exact (hcounted _).trans ⟨rfl, fun _ _ => rfl⟩

/-- The pins of a core's ATTN go, and the requests that waited for them are carried out. -/
theorem leavesCores_releasePins (core : Nat) : LeavesCores s (releasePins s core) := by
  unfold releasePins
  exact ((leavesCores_dropRequests core).trans (.forUpTo (fun k u => .ite ((leavesCores_setPool ..).trans leavesCores_afterUnpin)
    (.refl u)) 8 _)).trans (leavesCores_kvpDrain _)

end

end Sys2Proof.Machine
end
section
/-! A core's fault stands while engines make progress, complete their commands and abandon them (R101, R109). -/

namespace Sys2Proof.Machine

open Sys2Proof Sys2Proof.Machine.Reg

/-- From `s` to `t` the fault recorded for core `n`, its count and its event stand. -/
structure KeepsFault (n : Nat) (s t : State) : Prop where
  fault : t.rd (TC_FAULT n) = s.rd (TC_FAULT n)
  count : t.rd (TC_CNT_FAULT n) = s.rd (TC_CNT_FAULT n)
  event : s.on (TC_EVT_FAULT n) = true → t.on (TC_EVT_FAULT n) = true

/-- A register that shows nothing of the faults of core `n`. -/
abbrev ShowsNoFault (n a : Nat) : Prop := a ≠ TC_FAULT n ∧ a ≠ TC_CNT_FAULT n ∧ a ≠ TC_EVT n

namespace KeepsFault

variable {n : Nat} {s t u : State} {regs : List Nat} {parts : List Part}

theorem refl (s : State) : KeepsFault n s s := ⟨rfl, rfl, id⟩

theorem trans (h : KeepsFault n s t) (k : KeepsFault n t u) : KeepsFault n s u :=
  ⟨k.fault.trans h.fault, k.count.trans h.count, fun hon => k.event (h.event hon)⟩

theorem of_rd (h : ∀ a, a = TC_FAULT n ∨ a = TC_CNT_FAULT n ∨ a = TC_EVT n → t.rd a = s.rd a) : KeepsFault n s t :=
  ⟨h _ (.inl rfl), h _ (.inr (.inl rfl)), fun hon => by
    rw [← hon]
    exact State.on_congr (by rw [State.get, State.get, h (TC_EVT_FAULT n).addr (.inr (.inr rfl))])⟩

theorem of_effect (h : Effect regs parts s t) (hr : ∀ a ∈ regs, ShowsNoFault n a) : KeepsFault n s t :=
  of_rd fun a ha => h.rd a fun hm => by
    obtain ⟨h1, h2, h3⟩ := hr a hm
    rcases ha with rfl | rfl | rfl
    · exact h1 rfl
    · exact h2 rfl
    · exact h3 rfl

theorem of_leavesCores (hn : n < 8) (h : LeavesCores s t) : KeepsFault n s t :=
  of_rd fun a ha => h.rd a (by
    unfold TC_FAULT TC_CNT_FAULT TC_EVT at ha
    omega)

theorem ite {c : Prop} [Decidable c] (h : KeepsFault n s t) (k : KeepsFault n s u) : KeepsFault n s (if c then t else u) := by
  split
  · exact h
  · exact k

theorem onIf {c : Bool} {f : State → State} (h : KeepsFault n s t) (k : KeepsFault n t (f t)) : KeepsFault n s (onIf c f t) :=
  .ite (h.trans k) h

theorem foldl {α : Type} {f : State → α → State} (hf : ∀ u x, KeepsFault n u (f u x)) (xs : List α) (s : State) :
    KeepsFault n s (xs.foldl f s) := by
  induction xs generalizing s with
  | nil => exact refl s
  | cons x xs ih => exact (hf s x).trans (ih _)

theorem forUpTo {f : Nat → State → State} (hf : ∀ k u, KeepsFault n u (f k u)) (m : Nat) (s : State) : KeepsFault n s (forUpTo m f s) := by
  induction m with
  | zero => exact refl s
  | succ m ih =>
    rw [forUpTo_succ]
    exact ih.trans (hf m _)

/-- A field of another register is written. -/
theorem put {f : Fld} (hf : ShowsNoFault n f.addr) (v : Nat) : KeepsFault n s (s.put f v) :=
  of_effect ((Effect.refl s).put v List.mem_cons_self) (parts := []) fun _ ha => List.mem_singleton.mp ha ▸ hf

theorem setOn {f : Fld} (hf : ShowsNoFault n f.addr) : KeepsFault n s (s.setOn f) :=
  of_effect ((Effect.refl s).setOn List.mem_cons_self) (parts := []) fun _ ha => List.mem_singleton.mp ha ▸ hf

/-- Another bit of some core's event register is set. -/
theorem setEvent {m i : Nat} (hi : i < 2) : KeepsFault n s (s.setOn ⟨TC_EVT m, i, i⟩) := by
  have hoffs : TC_FAULT n ≠ TC_EVT m ∧ TC_CNT_FAULT n ≠ TC_EVT m := by
    unfold TC_FAULT TC_CNT_FAULT TC_EVT
    omega
  refine ⟨State.rd_setOn_ne hoffs.1, State.rd_setOn_ne hoffs.2, fun hon => ?_⟩
  rw [← hon]
  exact State.on_congr (State.get_setOn_apart (f := ⟨TC_EVT m, i, i⟩) (g := TC_EVT_FAULT n)
    (.inr (show i ≤ i ∧ i < 64 ∧ (2 < i ∨ i < 2) by omega)))

end KeepsFault

section

variable {n m : Nat} {s t : State}

/-- A register of some core at an offset of none of these three. -/
theorem showsNoFault_offset {a o : Nat} (ha : a = TC_CTRL m + o) (ho : o < 0x100000 ∧ o ≠ 0x20 ∧ o ≠ 0x28 ∧ o ≠ 0x58) : ShowsNoFault n a := by
  unfold TC_CTRL at ha
  unfold ShowsNoFault TC_FAULT TC_CNT_FAULT TC_EVT
  omega

theorem showsNoFault_rgnPtr (ref : Nat) : ShowsNoFault n (rgnPtr m (refStore ref) (refRgn ref)) := by
  obtain ⟨hlow, hhigh⟩ := rgnPtr_bounds m ref
  exact showsNoFault_offset (m := m) (o := rgnPtr m (refStore ref) (refRgn ref) - TC_CTRL m) (by omega) (by omega)

theorem showsNoFault_high (hn : n < 8) {a : Nat} (h : 0x100002000000 ≤ a) : ShowsNoFault n a := by
  unfold ShowsNoFault TC_FAULT TC_CNT_FAULT TC_EVT
  omega

theorem keepsFault_setCore (c : Core) : KeepsFault n s (s.setCore m c) :=
  .of_effect (effect_setCore c) fun a ha => by
    rcases List.mem_cons.mp ha with rfl | ha
    · exact showsNoFault_offset (m := m) (o := 8) (by unfold TC_STAT TC_CTRL; omega) (by omega)
    · rw [List.mem_singleton.mp ha]
      exact showsNoFault_offset (m := m) (o := 16) (by unfold TC_CTX TC_CTRL; omega) (by omega)

theorem keepsFault_setCmd (p : Nat) (c : Cmd) : KeepsFault n s (setCmd s m p c) := keepsFault_setCore _

theorem keepsFault_logMove (key at_ d : Nat) : KeepsFault n s (s.logMove m key at_ d) := .of_rd fun _ _ => rfl

theorem keepsFault_releaseSpan (ref span at_ : Nat) : KeepsFault n s (releaseSpan s m ref span at_) :=
  .ite ((KeepsFault.put (f := ⟨rgnPtr m (refStore ref) (refRgn ref), 16, 0⟩) (showsNoFault_rgnPtr ref) _).trans (keepsFault_logMove ..)) (.refl s)

theorem keepsFault_releaseOperands (d kext bit at_ : Nat) : KeepsFault n s (releaseOperands s m d kext bit at_) :=
  .foldl (fun u _ => .ite (keepsFault_releaseSpan ..) (.refl u)) _ s

theorem keepsFault_dropPlane (p : Option Plane) (at_ : Nat) : KeepsFault n s (dropPlane s m p at_) := by
  cases p with
  | none => exact .refl s
  | some t => exact .ite (keepsFault_releaseOperands ..) (.refl s)

theorem keepsFault_swapPlanes (at_ : Nat) : KeepsFault n s (swapPlanes s m at_) := (keepsFault_dropPlane ..).trans (keepsFault_setCore _)

theorem keepsFault_tailsPassed (as : List (Nat × Nat × Nat)) (at_ : Nat) : KeepsFault n s (tailsPassed s m as at_) :=
  .of_effect (effect_tailsPassed as at_) fun a ha => by
    obtain ⟨x, -, rfl⟩ := List.mem_map.mp ha
    exact showsNoFault_rgnPtr x.1

/-! ### The units of a command -/

/-- A command's work leaves the faults of core `n`. -/
structure WorkKeepsFault (n : Nat) (w : Work) : Prop where
  issue : ∀ j at_ u, KeepsFault n u (w.issue j at_ u)
  effect : ∀ j u, KeepsFault n u (w.effect j u).1

/-- The counter of a core's stalls. -/
theorem keepsFault_stall {o : Nat} {f : Fld} (hf : f.addr = TC_CTRL m + o) (ho : o = 0x38 ∨ o = 0x40 ∨ o = 0x48) (d : Nat) :
    KeepsFault n s (s.countWrap f d) := .put (showsNoFault_offset hf (by omega)) _

theorem keepsFault_writeUnit {w : Work} (hw : WorkKeepsFault n w) (p no now : Nat) : KeepsFault n s (writeUnit w m p no now s) := by
  unfold writeUnit
  split
  · exact .refl s
  · split
    · exact .refl s
    · extract_lets j
      split
      · exact keepsFault_setCmd ..
      · simp only
        refine .ite (keepsFault_setCmd ..) ?_
        exact (((hw.effect _ s).trans (keepsFault_tailsPassed ..)).trans (keepsFault_stall (m := m) (o := 0x40)
          (f := TC_CNT_HEAD_VALUE m) (by unfold TC_CNT_HEAD_VALUE TC_CNT_HEAD TC_CTRL; dsimp only; omega) (by simp) _)).trans (keepsFault_setCmd ..)

theorem keepsFault_issueUnit {w : Work} (hw : WorkKeepsFault n w) (p no now : Nat) : KeepsFault n s (issueUnit w m p no now s) := by
  unfold issueUnit
  split
  · exact .refl s
  · refine .ite (.refl s) ?_
    split
    · exact keepsFault_setCmd ..
    · simp only
      refine .ite (keepsFault_setCmd ..) ?_
      have hissued (j at_ d : Nat) : KeepsFault n s ((w.issue j at_ s).countWrap (TC_CNT_TAIL_VALUE m) d) :=
        (hw.issue j at_ s).trans (keepsFault_stall (m := m) (o := 0x38) (by unfold TC_CNT_TAIL_VALUE TC_CNT_TAIL TC_CTRL; dsimp only; omega) (by simp) _)
      split
      · exact hissued ..
      · exact .ite (((hissued ..).trans (keepsFault_setCmd ..)).trans (keepsFault_setCore _)) ((hissued ..).trans (keepsFault_setCmd ..))

theorem keepsFault_stepUnit {w : Work} (hw : WorkKeepsFault n w) (p no now : Nat) : KeepsFault n s (stepUnit w m p no now s) := by
  unfold stepUnit
  split
  · exact .refl s
  · split
    · exact .ite (keepsFault_writeUnit hw ..) (keepsFault_issueUnit hw ..)
    · exact keepsFault_issueUnit hw ..

theorem keepsFault_advance {w : Work} (hw : WorkKeepsFault n w) (p no : Nat) : KeepsFault n s (advance w m p no s) :=
  .forUpTo (fun _ _ => keepsFault_stepUnit hw ..) _ s

/-! ### The work of each command -/

theorem keepsFault_written {parts : List Part} (h : Effect [] parts s t) : KeepsFault n s t := .of_effect h fun _ ha => nomatch ha

/-- A compute command's first vector, with SWAP = 1, exchanges the planes. -/
def gridIssue (n : Nat) (c : Cmd) (j at_ : Nat) (s : State) : State :=
  if j = 0 ∧ cpSwap c.desc ∧ !c.swapped then
    (match getCmd s n 0 c.no with
      | some q => setCmd (swapPlanes s n at_) n 0 { q with swapped := true }
      | none => s)
  else s

theorem issue_gridWork (c : Cmd) (j at_ : Nat) (u : State) : (gridWork s m c).issue j at_ u = gridIssue m c j at_ u := by
  unfold gridWork
  extract_lets
  split
  extract_lets
  split <;> rfl

theorem workKeepsFault_grid (c : Cmd) : WorkKeepsFault n (gridWork s m c) := by
  refine ⟨fun j at_ u => ?_, fun j u => keepsFault_written (effect_gridUnit j)⟩
  rw [issue_gridWork, gridIssue]
  refine .ite ?_ (.refl u)
  split
  · exact (keepsFault_swapPlanes ..).trans (keepsFault_setCmd ..)
  · exact .refl u

theorem workKeepsFault_load (c : Cmd) : WorkKeepsFault n (loadWork m c) := ⟨fun _ _ u => .refl u, fun _ _ => keepsFault_setCore _⟩

theorem workKeepsFault_attn (hn : n < 8) (c : Cmd) : WorkKeepsFault n (attnWork c m) := by
  refine ⟨fun j at_ u => ?_, fun j u => ?_⟩
  · unfold attnWork
    simp only
    split <;> exact .refl u
  · obtain ⟨pool, h⟩ := effect_attnUnit (t := u) (n := m) (c := c) j
    refine .of_effect h fun a ha => showsNoFault_high hn ?_
    rcases List.mem_append.mp ha with ha | ha
    · exact accessRegs_high a ha
    · simp only [List.mem_cons, List.not_mem_nil, or_false, SCH_KVP_CNT_HOLE, SCH_KVP_EVT] at ha
      omega

theorem workKeepsFault_workOf (hn : n < 8) (c : Cmd) : WorkKeepsFault n (workOf s m c) := by
  unfold workOf
  simp only
  split
  · exact workKeepsFault_load c
  · exact workKeepsFault_grid c
  · exact workKeepsFault_grid c
  · exact ⟨fun _ _ u => .refl u, fun j u => keepsFault_written (effect_poolUnit ..)⟩
  · exact ⟨fun _ _ u => .refl u, fun j u => keepsFault_written (effect_roiaUnit ..)⟩
  · exact workKeepsFault_attn hn c
  · exact ⟨fun _ _ u => .refl u, fun j u => keepsFault_written (effect_vecUnit ..)⟩

/-! ### The paths -/

theorem keepsFault_beginCmd (p : Nat) (c : Cmd) : KeepsFault n s (beginCmd s m p c) := by
  have hstart (x : Cmd) : KeepsFault n s (startCmd s m p x).1 := by
    unfold startCmd
    split
    · exact .refl s
    · exact keepsFault_setCmd ..
  unfold beginCmd
  simp only
  refine .ite (.refl s) (.ite (hstart c) (.ite (.ite ((hstart c).trans (keepsFault_setCmd ..))
    (((hstart c).trans (keepsFault_setCore _)).trans (keepsFault_setCmd ..))) (.ite (.ite (.ite ((hstart c).trans (keepsFault_setCmd ..)) ?_)
    ((hstart c).trans (keepsFault_setCmd ..))) ((hstart c).trans (keepsFault_setCmd ..)))))
  exact ((hstart c).trans (keepsFault_stall (m := m) (o := 0x48) (by unfold TC_CNT_SHADOW_VALUE TC_CNT_SHADOW TC_CTRL; dsimp only; omega)
    (by simp) _)).trans (keepsFault_setCmd ..)

theorem keepsFault_runPath (hn : n < 8) (opc p : Nat) : KeepsFault n s (runPath opc p m s) :=
  .ite (.refl s) (.foldl (fun u i => by
    simp only
    split
    · exact .refl u
    · refine .ite (.refl u) ?_
      split
      · exact .ite ((keepsFault_beginCmd ..).trans (keepsFault_advance (workKeepsFault_workOf hn _) ..)) (keepsFault_beginCmd ..)
      · exact keepsFault_beginCmd ..) _ s)

theorem keepsFault_runAttn (hn : n < 8) : KeepsFault n s (runAttn m s) := by
  unfold runAttn
  refine .ite (.refl s) ?_
  split
  · exact .ite (.refl s) (keepsFault_advance (workKeepsFault_attn hn _) ..)
  · exact .refl s

theorem keepsFault_runAll (hn : n < 8) : KeepsFault n s (runAll m s) :=
  (((keepsFault_runPath hn 0 1).trans (keepsFault_runPath hn 0 0)).trans (keepsFault_runPath hn 0 2)).trans (keepsFault_runAttn hn)

/-! ### Completion -/

theorem keepsFault_statusRecord (hn : n < 8) (ctx : Nat) (rec : List Byte) : KeepsFault n s (statusRecord s ctx rec) :=
  .of_effect (effect_statusRecord ctx rec) fun a ha => showsNoFault_high hn (by
    rcases List.mem_append.mp ha with ha | ha
    · simp only [List.mem_cons, List.not_mem_nil, or_false, SCH_CTX_CNT_LOST, SCH_CTX_RPROD, SCH_EVT] at ha
      omega
    · exact accessRegs_high a ha)

theorem keepsFault_budgetRaised : KeepsFault n s (budgetRaised s m) :=
  (KeepsFault.put (f := TC_CNT_BUDGET_VALUE m) (showsNoFault_offset (m := m) (o := 0x50)
    (by unfold TC_CNT_BUDGET_VALUE TC_CNT_BUDGET TC_CTRL; dsimp only; omega) (by omega)) _).trans (.setEvent (by decide))

theorem keepsFault_completeStatus (hn : n < 8) (c : Cmd) (cycle : Nat) : KeepsFault n s (completeStatus s m c cycle) := by
  unfold completeStatus
  extract_lets ran u c' v w
  have hv : KeepsFault n s v := (KeepsFault.onIf (.refl s) keepsFault_budgetRaised).trans (.put (f := TC_SEQ_DONE m) (showsNoFault_offset (m := m) (o := 0x18)
    (by unfold TC_SEQ_DONE TC_SEQ TC_CTRL; dsimp only; omega) (by omega)) _)
  have hw : KeepsFault n s w := by
    show KeepsFault n s (match jobOf v m with | some (ctx, _) => _ | none => _)
    split
    · exact .ite (hv.trans (keepsFault_statusRecord hn ..)) hv
    · exact hv
  exact .ite (hw.trans (.setEvent (by decide))) hw

theorem keepsFault_loadDone (c : Cmd) (cycle : Nat) : KeepsFault n s (loadDone s m c cycle) :=
  .ite ((keepsFault_setCore _).trans (keepsFault_swapPlanes _)) (keepsFault_setCore _)

theorem keepsFault_undefineWork : KeepsFault n s (undefineWork s m) := .of_rd fun _ _ => rfl

theorem keepsFault_attnDone (hn : n < 8) (cycle : Nat) : KeepsFault n s (attnDone s m cycle) := by
  have hpins : KeepsFault n s (undefineWork (releasePins s m) m) := (KeepsFault.of_leavesCores hn (leavesCores_releasePins m)).trans keepsFault_undefineWork
  unfold attnDone
  simp only
  split <;> exact hpins.trans (keepsFault_setCore _)

/-- A command has left its path. -/
def unqueued (s : State) (n path : Nat) (c : Cmd) (cycle : Nat) : State :=
  s.setCore n (((coreOf s n).withQueue path (((coreOf s n).queue path).filter fun q => q.no != c.no)).setMark (doneKey + path) cycle)

/-- The spans that a command releases are released. -/
def spansReleased (s : State) (n : Nat) (c : Cmd) (cycle : Nat) : State :=
  let kext := match c.tile with | some t => ldKext t.desc | none => 0
  onIf (dRel1 c.desc) (fun s => releaseOperands s n c.desc kext 2 cycle) (onIf (dRel0 c.desc) (fun s => releaseOperands s n c.desc kext 1 cycle) s)

/-- What a command's path does at its completion. -/
def pathDone (s : State) (n path : Nat) (c : Cmd) (cycle : Nat) : State :=
  if path = 1 then loadDone s n c cycle
  else if path = 3 then attnDone (spansReleased s n c cycle) n cycle
  else spansReleased s n c cycle

theorem completeCmd_eq (s : State) (n path : Nat) (c : Cmd) (cycle : Nat) : completeCmd s n path c cycle =
    if c.silent then pathDone (unqueued s n path c cycle) n path c cycle
    else completeStatus (pathDone (unqueued s n path c cycle) n path c cycle) n c cycle := rfl

theorem keepsFault_spansReleased (c : Cmd) (cycle : Nat) : KeepsFault n s (spansReleased s m c cycle) := by
  unfold spansReleased
  extract_lets kext
  exact .onIf (.onIf (.refl s) (keepsFault_releaseOperands ..)) (keepsFault_releaseOperands ..)

theorem keepsFault_pathDone (hn : n < 8) (path : Nat) (c : Cmd) (cycle : Nat) : KeepsFault n s (pathDone s m path c cycle) :=
  .ite (keepsFault_loadDone ..) (.ite ((keepsFault_spansReleased ..).trans (keepsFault_attnDone hn _)) (keepsFault_spansReleased ..))

theorem keepsFault_completeCmd (hn : n < 8) (path : Nat) (c : Cmd) (cycle : Nat) : KeepsFault n s (completeCmd s m path c cycle) := by
  have hdone : KeepsFault n s (pathDone (unqueued s m path c cycle) m path c cycle) := (keepsFault_setCore _).trans (keepsFault_pathDone hn ..)
  rw [completeCmd_eq]
  exact .ite hdone (hdone.trans (keepsFault_completeStatus hn ..))

theorem keepsFault_completeHold (hn : n < 8) (q : Cmd) (cycle : Nat) : KeepsFault n s (completeHold s m q cycle) :=
  (keepsFault_setCore _).trans (keepsFault_completeStatus hn ..)

/-- What follows once every path is at the present cycle: the first command that is done, or the FENCE or COMMIT, completes. -/
def caughtUp (k : Nat) (s : State) (n : Nat) : State :=
  match firstDone s n with
  | some (p, c, t) => catchUp k (completeCmd s n p c t) n
  | none =>
    match holdDone s n with
    | some (q, t) => if t ≤ nowOf s n then completeHold s n q t else s
    | none => s

theorem catchUp_zero (s : State) (n : Nat) : catchUp 0 s n = s := by with_unfolding_all rfl

theorem catchUp_succ (k : Nat) (s : State) (n : Nat) : catchUp (k + 1) s n = caughtUp k (runAll n s) n := by with_unfolding_all rfl

theorem keepsFault_caughtUp (hn : n < 8) {k : Nat} (ih : ∀ u : State, KeepsFault n u (catchUp k u m)) : KeepsFault n s (caughtUp k s m) := by
  unfold caughtUp
  split
  · exact (keepsFault_completeCmd hn ..).trans (ih _)
  · split
    · exact .ite (keepsFault_completeHold hn ..) (.refl s)
    · exact .refl s

theorem keepsFault_catchUp (hn : n < 8) (k : Nat) (s : State) : KeepsFault n s (catchUp k s m) := by
  induction k generalizing s with
  | zero =>
    rw [catchUp_zero]
    exact .refl s
  | succ k ih =>
    rw [catchUp_succ]
    exact (keepsFault_runAll hn).trans (keepsFault_caughtUp hn ih)

/-! ### The kill order -/

theorem keepsFault_countStalls (hn : n < 8) : KeepsFault n s (countStalls s m) := by
  have hcount {o : Nat} {f : Fld} (hf : f.addr = TC_CTRL m + o) (ho : o = 0x38 ∨ o = 0x40 ∨ o = 0x48) (u : State) (d : Nat) :
      KeepsFault n u (u.countWrap f d) := keepsFault_stall hf ho d
  refine ((KeepsFault.put (f := MEM_TMV_CNT_WAITCOPY_VALUE) (showsNoFault_high hn (by decide)) _).trans
    (hcount (o := 0x38) (f := TC_CNT_TAIL_VALUE m) ?_ (by simp) _ _)).trans ((hcount (o := 0x40) (f := TC_CNT_HEAD_VALUE m) ?_ (by simp) _ _).trans
    (hcount (o := 0x48) (f := TC_CNT_SHADOW_VALUE m) ?_ (by simp) _ _))
  · unfold TC_CNT_TAIL_VALUE TC_CNT_TAIL TC_CTRL; dsimp only; omega
  · unfold TC_CNT_HEAD_VALUE TC_CNT_HEAD TC_CTRL; dsimp only; omega
  · unfold TC_CNT_SHADOW_VALUE TC_CNT_SHADOW TC_CTRL; dsimp only; omega

theorem keepsFault_killCore (hn : n < 8) : KeepsFault n s (killCore s m) := by
  have hdate : KeepsFault n s (upToDate s m) := .ite (keepsFault_catchUp hn 32 s) (.refl s)
  have hwork : KeepsFault n s (onIf (((coreOf (upToDate s m) m).queue 3).any fun q => q.start.isSome) (fun s => undefineWork s m) (upToDate s m)) :=
    .onIf hdate keepsFault_undefineWork
  have hcounted := hwork.trans (keepsFault_countStalls (m := m) hn)
  exact .ite hdate (.ite hcounted (hcounted.trans (keepsFault_setCore _)))

end

end Sys2Proof.Machine
end
section
/-! Budgets, kills and the enable of a core (R106, R107, R109, R113, R224, R238). -/

namespace Sys2Proof.Machine

open Sys2Proof Sys2Proof.Machine.Reg

section

variable {s t : State} {n p : Nat} {c : Cmd}

/-! ### A budget is raised (R106) -/

theorem budgeted_alone (hp : p < 5) {st : Nat} (halone : (coreOf s n).queue p = [c]) (hsilent : c.silent = false) (hstart : c.start = some st) :
    budgeted s n p = [c] := by
  unfold budgeted
  rw [if_neg (by omega), halone]
  simp [hsilent, hstart]

theorem completes_budgetRaise (hon : s.powered) (hn : n < 8) (hp : p < 5) {st : Nat} (hlive : coreLive s n = true) (hdate : upToDate s n = s)
    (halone : (coreOf s n).queue p = [c]) (hsilent : c.silent = false) (hstart : c.start = some st) (hraised : c.raised = false)
    (hlate : st + dBudget c.desc < nowOf s n) (hdone : c.doneAt = none) : Completes (.budgetRaise n p) s fun t =>
      (coreOf t n).queue p = [{ c with raised := true }] ∧ t.on (TC_EVT_BUDGET n) = true ∧
      t.get (TC_CNT_BUDGET_VALUE n) = satAdd 32 (s.get (TC_CNT_BUDGET_VALUE n)) 1 ∧
      ChangesOnly [TC_STAT n, TC_CTX n, TC_CNT_BUDGET n, TC_EVT n] [.cores] s t := by
  have hover : overdue s n p 1 0 true = some c := by
    unfold overdue
    rw [budgeted_alone hp halone hsilent hstart, List.find?_cons_of_pos]
    simp [hstart, hraised, hlate, notDoneBy, hdone]
  have hexec : exec (.budgetRaise n p) s = finish s (budgetRaised (setCmd s n p { c with raised := true }) n) := by
    show execBudgetRaise n p s = _
    unfold execBudgetRaise
    simp only [hdate, hlive, hover, Bool.not_true, Bool.false_eq_true, if_false]
    rw [if_neg (by omega)]
  have hqueue : (coreOf (setCmd s n p { c with raised := true }) n).queue p = [{ c with raised := true }] := queue_setCmd_alone halone rfl
  have hset : Effect [TC_STAT n, TC_CTX n, TC_CNT_BUDGET n, TC_EVT n] [.cores] s (setCmd s n p { c with raised := true }) :=
    (Effect.refl s).setCmd (by simp) (by simp) (by decide) _
  have hcount : (setCmd s n p { c with raised := true }).get (TC_CNT_BUDGET_VALUE n) = s.get (TC_CNT_BUDGET_VALUE n) := by
    refine ((Effect.refl s).setCmd (regs := [TC_STAT n, TC_CTX n]) (parts := [.cores]) (by simp) (by simp) (by decide) _).get ?_
    simp only [List.mem_cons, List.not_mem_nil, or_false, TC_STAT, TC_CTX, TC_CNT_BUDGET_VALUE, TC_CNT_BUDGET]
    omega
  have hbudget := core_settles hn (a := TC_CNT_BUDGET n) (by unfold TC_CNT_BUDGET TC_CTRL; omega)
  have hevt := (seq_settles hn).2
  have hne : TC_CNT_BUDGET n ≠ TC_EVT n := by unfold TC_CNT_BUDGET TC_EVT; omega
  generalize setCmd s n p { c with raised := true } = u at hexec hqueue hset hcount
  refine completes_of_settled hexec hon fun t hs => ⟨?_, ?_, ?_, hs.changesOnly
    ((hset.count 1 (by simp [TC_CNT_BUDGET_VALUE])).setOn (by simp [TC_EVT_BUDGET]))⟩
  · rw [coreOf_of_cores hs.cores]
    exact hqueue
  · rw [hs.on _ hevt.1 hevt.2]
    exact State.on_setOn _ _ rfl (show 1 < 64 by decide)
  · rw [hs.get _ hbudget.1 hbudget.2]
    show ((u.count (TC_CNT_BUDGET_VALUE n) 1).setOn (TC_EVT_BUDGET n)).get (TC_CNT_BUDGET_VALUE n) = _
    rw [State.get_setOn_apart (.inl hne), State.get_count_self (show 0 ≤ 31 ∧ 31 < 64 by decide), hcount]
    rfl

/-! ### A command past 16 times its BUDGET faults (R107) -/

theorem keepsFault_leaveCore {m : Nat} : KeepsFault n s (s.leaveCore m) :=
  .of_effect (effect_leaveCore m) fun a ha => by
    have hofs : ∃ o, a = TC_CTRL m + o ∧ (o = 8 ∨ o = 16 ∨ o = 0x30) := by
      simp only [List.mem_cons, List.not_mem_nil, or_false] at ha
      rcases ha with rfl | rfl | rfl
      · exact ⟨8, by unfold TC_STAT TC_CTRL; omega, .inl rfl⟩
      · exact ⟨16, by unfold TC_CTX TC_CTRL; omega, .inr (.inl rfl)⟩
      · exact ⟨0x30, by unfold TC_CNT_CYC TC_CTRL; omega, .inr (.inr rfl)⟩
    obtain ⟨o, ha, ho⟩ := hofs
    exact showsNoFault_offset ha (by omega)

/-- The registers of a context and of the scheduler lie above those of the cores. -/
theorem keepsFault_high (hn : n < 8) {regs : List Nat} {parts : List Part} (h : Effect regs parts s t) (hr : ∀ a ∈ regs, 0x100002000000 ≤ a) :
    KeepsFault n s t := .of_effect h fun a ha => showsNoFault_high hn (hr a ha)

theorem keepsFault_teardown (hn : n < 8) (ctx cause seq code lcore : Nat) : KeepsFault n s (teardown s ctx cause seq code lcore) := by
  unfold teardown
  split
  · exact .refl s
  · next st _ =>
    extract_lets u v w x y z f
    have hu : KeepsFault n s u := .foldl (fun r p => by
      simp only
      split
      · exact (keepsFault_killCore hn).trans (.of_leavesCores hn (leavesCores_releasePins _))
      · exact keepsFault_leaveCore
      · exact keepsFault_leaveCore
      · exact .refl r) _ s
    have hw : KeepsFault n s w := by
      refine hu.trans ((KeepsFault.of_rd fun _ _ => rfl : KeepsFault n u v).trans ?_)
      show KeepsFault n v (match st.tag with | some g => v.abortTag g | none => v)
      split
      · exact .of_rd fun _ _ => rfl
      · exact .refl v
    have hx : KeepsFault n s x := hw.trans (keepsFault_high hn (effect_quietWrite ..) accessRegs_high)
    have hz : KeepsFault n s z := (hx.trans (.put (f := SCH_CTX_SCONS_INDEX ctx) (showsNoFault_high hn (by
        unfold SCH_CTX_SCONS_INDEX SCH_CTX_SCONS; dsimp only; omega)) _)).trans
      (.setOn (f := SCH_CTX_CTL_FAULTED ctx) (showsNoFault_high hn (by unfold SCH_CTX_CTL_FAULTED SCH_CTX_CTL; dsimp only; omega)))
    have hf : Effect [SCH_CTX_FAULT ctx, SCH_CNT_TEARDOWN, SCH_EVT, SCH_CTX_STAT ctx] [.sched] z
        (((f.count SCH_CNT_TEARDOWN_VALUE 1).setOn SCH_EVT_TEARDOWN).dropStep ctx) :=
      ((((Effect.refl z).wr _ (by simp)).count (f := SCH_CNT_TEARDOWN_VALUE) 1 (by simp [SCH_CNT_TEARDOWN_VALUE])).setOn
        (f := SCH_EVT_TEARDOWN) (by simp [SCH_EVT_TEARDOWN])).trans ((effect_dropStep ctx).mono (by simp) (by simp))
    refine hz.trans (keepsFault_high hn hf fun a ha => ?_)
    simp only [List.mem_cons, List.not_mem_nil, or_false, SCH_CTX_FAULT, SCH_CNT_TEARDOWN, SCH_EVT, SCH_CTX_STAT] at ha
    omega

/-- The word of TCn_FAULT. -/
def faultWord (ctx d code : Nat) : Nat := ctx * 2 ^ 32 + dSeq d * 65536 + dOpc d * 256 + code

/-- A fault recorded, shown and counted. -/
def faultShown (s : State) (n ctx d code : Nat) : State :=
  ((s.wr (TC_FAULT n) (BitVec.ofNat 64 (faultWord ctx d code))).setOn (TC_EVT_FAULT n)).count (TC_CNT_FAULT_VALUE n) 1

theorem commandFault_eq {ctx k : Nat} (hjob : jobOf s n = some (ctx, k)) (c : Cmd) (code cycle : Nat) : commandFault s n c code cycle =
    teardown (statusRecord (faultShown s n ctx c.desc code) ctx (recordOf c code cycle)) ctx 1 (dSeq c.desc) code k := by
  unfold commandFault
  rw [hjob]
  rfl

/-- What a recorded fault shows. -/
theorem faultShown_shows {ctx d code : Nat} (hctx : ctx < 64) (hcode : code < 256) :
    (faultShown s n ctx d code).get (TC_FAULT_CODE n) = code ∧ (faultShown s n ctx d code).get (TC_FAULT_OPC n) = dOpc d ∧
    (faultShown s n ctx d code).get (TC_FAULT_SEQ n) = dSeq d ∧ (faultShown s n ctx d code).get (TC_FAULT_CTX n) = ctx ∧
    (faultShown s n ctx d code).on (TC_EVT_FAULT n) = true ∧
    (faultShown s n ctx d code).get (TC_CNT_FAULT_VALUE n) = satAdd 32 (s.get (TC_CNT_FAULT_VALUE n)) 1 := by
  have hseq := dSeq_lt d
  have hopc : dOpc d < 2 ^ 8 := bitsOf_lt ..
  have hne : TC_FAULT n ≠ TC_CNT_FAULT n ∧ TC_FAULT n ≠ TC_EVT n ∧ TC_EVT n ≠ TC_CNT_FAULT n := by
    unfold TC_FAULT TC_CNT_FAULT TC_EVT
    omega
  obtain ⟨h1, h2, h3⟩ := hne
  have hword : ((faultShown s n ctx d code).rd (TC_FAULT n)).toNat = faultWord ctx d code := by
    rw [faultShown, State.rd_count_ne h1, State.rd_setOn_ne h2, State.rd_wr_same, State.toNat_ofNat_rd]
    unfold faultWord
    omega
  have hget (hi lo : Nat) : (faultShown s n ctx d code).get ⟨TC_FAULT n, hi, lo⟩ = bitsOf (faultWord ctx d code) hi lo := by
    rw [State.get, hword]
  refine ⟨(hget 7 0).trans ?_, (hget 15 8).trans ?_, (hget 31 16).trans ?_, (hget 37 32).trans ?_, ?_, ?_⟩
  · unfold bitsOf faultWord
    omega
  · unfold bitsOf faultWord
    omega
  · unfold bitsOf faultWord
    omega
  · unfold bitsOf faultWord
    omega
  · rw [faultShown, State.on_congr (State.get_count_apart (f := TC_CNT_FAULT_VALUE n) (g := TC_EVT_FAULT n) (.inl h3) 1)]
    exact State.on_setOn _ _ rfl (show 2 < 64 by decide)
  · rw [faultShown, State.get_count_self (show 0 ≤ 31 ∧ 31 < 64 by decide),
      State.get_setOn_apart (f := TC_EVT_FAULT n) (g := TC_CNT_FAULT_VALUE n) (.inl h3.symm), State.get_wr_ne (g := TC_CNT_FAULT_VALUE n) h1.symm]
    rfl

theorem completes_budgetKill (hon : s.powered) (hn : n < 8) (hp : p < 5) {st ctx k : Nat} (hlive : coreLive s n = true) (hdate : upToDate s n = s)
    (halone : (coreOf s n).queue p = [c]) (hsilent : c.silent = false) (hstart : c.start = some st) (hjob : jobOf s n = some (ctx, k))
    (hctx : ctx < 64) (hlate : st + 16 * dBudget c.desc < nowOf s n) (hdone : c.doneAt = none) : Completes (.budgetKill n p) s fun t =>
      t.get (TC_FAULT_CODE n) = 9 ∧ t.get (TC_FAULT_OPC n) = dOpc c.desc ∧ t.get (TC_FAULT_SEQ n) = dSeq c.desc ∧
      t.get (TC_FAULT_CTX n) = ctx ∧ t.on (TC_EVT_FAULT n) = true ∧
      t.get (TC_CNT_FAULT_VALUE n) = satAdd 32 (s.get (TC_CNT_FAULT_VALUE n)) 1 := by
  have hover : ∃ at_, overrun s n p = some ({ c with stalls := c.stalls + stallNow s n p c }, at_) := by
    have hfound : overdue s n p 16 1 false = some c := by
      unfold overdue
      rw [budgeted_alone hp halone hsilent hstart, List.find?_cons_of_pos]
      simp [hstart, hlate, notDoneBy, hdone]
    exact ⟨_, by rw [overrun, hfound]; rfl⟩
  obtain ⟨at_, hover⟩ := hover
  have hexec : exec (.budgetKill n p) s = finish s (commandFault s n { c with stalls := c.stalls + stallNow s n p c } 9 at_) := by
    show execBudgetKill n p s = _
    unfold execBudgetKill
    simp only [hdate, hlive, hover, Bool.not_true, Bool.false_eq_true, if_false]
  rw [commandFault_eq hjob] at hexec
  obtain ⟨hcode, hopc, hseq, hown, hevent, hcount⟩ := faultShown_shows (s := s) (n := n) (d := c.desc) hctx (show 9 < 256 by decide)
  have hkeep : KeepsFault n (faultShown s n ctx c.desc 9) _ := (keepsFault_statusRecord hn ctx
    (recordOf { c with stalls := c.stalls + stallNow s n p c } 9 at_)).trans (keepsFault_teardown hn ctx 1 (dSeq c.desc) 9 k)
  generalize faultShown s n ctx c.desc 9 = u at *
  obtain ⟨f1, f2⟩ := core_settles hn (a := TC_FAULT n) (by unfold TC_FAULT TC_CTRL; omega)
  obtain ⟨g1, g2⟩ := core_settles hn (a := TC_CNT_FAULT n) (by unfold TC_CNT_FAULT TC_CTRL; omega)
  have hevt := (seq_settles hn).2
  refine completes_of_settled hexec hon fun t hs => ?_
  have hfault (hi lo : Nat) : t.get ⟨TC_FAULT n, hi, lo⟩ = u.get ⟨TC_FAULT n, hi, lo⟩ := by
    rw [hs.get _ f1 f2, State.get, State.get, hkeep.fault]
  refine ⟨(hfault 7 0).trans hcode, (hfault 15 8).trans hopc, (hfault 31 16).trans hseq, (hfault 37 32).trans hown, ?_, ?_⟩
  · rw [hs.on _ hevt.1 hevt.2]
    exact hkeep.event hevent
  · rw [← hcount, hs.get _ g1 g2, State.get, State.get]
    exact congrArg (fun w : Word64 => bitsOf w.toNat 31 0) hkeep.count

/-! ### A kill completes (R109) -/

/-- A kill counted. -/
def killCounted (s : State) (n : Nat) : State := (s.count (TC_CNT_KILL_VALUE n) 1).setOn (TC_EVT_KILL n)

theorem completes_killComplete (hon : s.powered) (hkilling : (coreOf s n).killing = true) (hmaint : (coreOf s n).maint = false)
    (hnone : lcoreOn s n [2] = none) : Completes (.killComplete n) s fun t => ∃ u, EndsAs s (schDecide u) t ∧
      (coreOf u n).job = none ∧ (coreOf u n).killing = false ∧ u.on (TC_EVT_KILL n) = true ∧
      u.get (TC_CNT_KILL_VALUE n) = satAdd 32 (s.get (TC_CNT_KILL_VALUE n)) 1 ∧ (∀ m, m ≠ n → coreOf u m = coreOf s m) := by
  have hexec : exec (.killComplete n) s = finish s (schDecide ((killCounted s n).leaveCore n)) := by
    have hstill : lcoreOn (killCounted s n) n [2] = none := hnone
    show execKillComplete n s = _
    unfold execKillComplete
    rw [killCounted] at hstill
    simp only [hkilling, hmaint, hstill, Bool.not_true, Bool.or_self, Bool.false_eq_true, if_false]
    rfl
  have heff := effect_leaveCore (s := killCounted s n) n
  have hne : TC_CNT_KILL n ≠ TC_EVT n ∧ TC_CNT_KILL n ∉ [TC_STAT n, TC_CTX n, TC_CNT_CYC n] ∧ TC_EVT n ∉ [TC_STAT n, TC_CTX n, TC_CNT_CYC n] := by
    simp only [List.mem_cons, List.not_mem_nil, or_false, TC_STAT, TC_CTX, TC_CNT_KILL, TC_EVT, TC_CNT_CYC]
    omega
  obtain ⟨hevt, hkill, hevent⟩ := hne
  refine completes_of_endsAs hexec hon fun t ht => ⟨_, ht, job_leaveCore .., killing_leaveCore .., ?_, ?_, fun m hm => coreOf_leaveCore_ne hm⟩
  · rw [heff.on hevent]
    exact State.on_setOn _ _ rfl (show 3 < 64 by decide)
  · rw [heff.get hkill, killCounted, State.get_setOn_apart (.inl hevt), State.get_count_self (show 0 ≤ 31 ∧ 31 < 64 by decide)]
    rfl

/-! ### The enable of a core (R113, R224, R238) -/

section

variable {who : Initiator} {v : Word64}

def tcCtrlRow : RegDesc := ⟨"TC_CTRL", 0x100001000000, [(8, 0x100000)], 32, 0x0, [⟨0, 0, .live⟩], none, none⟩

theorem regAt_tcCtrl : ∀ n, n < 8 → regAt (TC_CTRL n) = some (tcCtrlRow, [n], false) := by decide

theorem plainRow_tcCtrl : ∀ n, n < 8 → PlainRow (TC_CTRL n) tcCtrlRow := by decide

/-- The write of TCn_CTRL stored. -/
def tcCtrlStored (s : State) (n v : Nat) : State :=
  s.wr (TC_CTRL n) (BitVec.ofNat 64 (mergeBits (rwMask tcCtrlRow) (s.rd (TC_CTRL n)).toNat v))

theorem writeReg_tcCtrl (hn : n < 8) (ok : WriteOk s who (TC_CTRL n) v.toNat) : writeReg s who (TC_CTRL n) v.toNat =
    tcEnableWritten n ((s.rd (TC_CTRL n)).toNat % 2) (v.toNat % 2) (tcCtrlStored s n v.toNat) :=
  writeReg_plain ok (regAt_tcCtrl n hn) (plainRow_tcCtrl n hn)

/-- The enable as a write leaves it. -/
def tcEnabled (s : State) (n v : Nat) : State := (tcCtrlStored s n v).put (TC_CTRL_ENABLE n) (v % 2)

theorem effect_tcEnabled (n v : Nat) : Effect [TC_CTRL n] [] s (tcEnabled s n v) :=
  ((Effect.refl s).wr _ List.mem_cons_self).put _ List.mem_cons_self

theorem on_tcEnabled (n v : Nat) : (tcEnabled s n v).on (TC_CTRL_ENABLE n) = decide (v % 2 = 1) := by
  have hlt : v % 2 < 2 := Nat.mod_lt _ (by decide)
  rw [tcEnabled, State.on, State.get_put_of_lt (show 0 ≤ 0 ∧ 0 < 64 by decide) hlt]
  rfl

theorem completes_tcEnable (hon : s.powered) (hn : n < 8) (hwrite : writeReg s who (TC_CTRL n) v.toNat = tcEnabled s n v.toNat) :
    Completes (.tcEnableWrite who n v) s fun t =>
      t.on (TC_CTRL_ENABLE n) = decide (v.toNat % 2 = 1) ∧ ChangesOnly [TC_CTRL n] [] s t := by
  obtain ⟨h1, h2⟩ := core_settles hn (a := TC_CTRL n) (by unfold TC_CTRL; omega)
  refine completes_of_settled (congrArg (finish s) hwrite) hon fun t hs => ⟨?_, hs.changesOnly (effect_tcEnabled ..)⟩
  rw [hs.on _ h1 h2, on_tcEnabled]

theorem completes_tcEnable_on (hon : s.powered) (hn : n < 8) (ok : WriteOk s who (TC_CTRL n) v.toNat) (hv : v.toNat % 2 = 1) :
    Completes (.tcEnableWrite who n v) s fun t => t.on (TC_CTRL_ENABLE n) = true ∧ ChangesOnly [TC_CTRL n] [] s t := by
  obtain ⟨t, hnext, hen, hframe⟩ := completes_tcEnable hon hn (who := who) (v := v) (by
    rw [writeReg_tcCtrl hn ok, tcEnableWritten]
    exact if_neg (by simp [hv]))
  exact ⟨t, hnext, by rw [hen, hv]; rfl, hframe⟩

theorem inMaint_tcEnabled (hn : n < 8) (v : Nat) : inMaint (tcEnabled s n v) = inMaint s := by
  have hne : SCH_CTRL ≠ TC_CTRL n := by
    unfold SCH_CTRL TC_CTRL
    omega
  rw [inMaint, inMaint, (effect_tcEnabled n v).on (f := SCH_CTRL_READY) (by simpa using (show SCH_CTRL_READY.addr ≠ TC_CTRL n from hne))]
  rfl

theorem completes_tcEnable_maint (hon : s.powered) (hn : n < 8) (ok : WriteOk s who (TC_CTRL n) v.toNat) (hv : v.toNat % 2 = 0)
    (hmaint : inMaint s = true) :
    Completes (.tcEnableWrite who n v) s fun t => t.on (TC_CTRL_ENABLE n) = false ∧ ChangesOnly [TC_CTRL n] [] s t := by
  obtain ⟨t, hnext, hen, hframe⟩ := completes_tcEnable hon hn (who := who) (v := v) (by
    have hstill := (inMaint_tcEnabled (s := s) hn v.toNat).trans hmaint
    rw [writeReg_tcCtrl hn ok, tcEnableWritten]
    show (if _ then (match lcoreOn (tcEnabled s n v.toNat) n [1, 5] with
      | some (ctx, _, _) => if inMaint (tcEnabled s n v.toNat) then tcEnabled s n v.toNat else preempt (tcEnabled s n v.toNat) ctx
      | none => tcEnabled s n v.toNat) else tcEnabled s n v.toNat) = _
    rw [hstill]
    split
    · split <;> rfl
    · rfl)
  exact ⟨t, hnext, by rw [hen, hv]; rfl, hframe⟩

theorem completes_tcEnable_off (hon : s.powered) (hn : n < 8) (ok : WriteOk s who (TC_CTRL n) v.toNat) (hv : v.toNat % 2 = 0)
    (hen : s.on (TC_CTRL_ENABLE n) = true) (hmaint : inMaint s = false) {ctx k : Nat} {st : Step} (hcore : lcoreOn s n [1, 5] = some (ctx, k, st)) :
    Completes (.tcEnableWrite who n v) s fun t => ∃ u, EndsAs s (preempt u ctx) t ∧
      u.on (TC_CTRL_ENABLE n) = false ∧ ∀ a, a ≠ TC_CTRL n → u.rd a = s.rd a := by
  have hold : (s.rd (TC_CTRL n)).toNat % 2 = 1 := State.mod_two_of_on (f := TC_CTRL_ENABLE n) rfl rfl hen
  have hwrite : writeReg s who (TC_CTRL n) v.toNat = preempt (tcEnabled s n v.toNat) ctx := by
    have hstill := (inMaint_tcEnabled (s := s) hn v.toNat).trans hmaint
    have hcore' : lcoreOn (tcEnabled s n v.toNat) n [1, 5] = some (ctx, k, st) := hcore
    rw [tcEnabled] at hstill hcore'
    rw [writeReg_tcCtrl hn ok, tcEnableWritten]
    simp only [hold, hcore', hstill, Bool.false_eq_true, if_false]
    rw [if_pos ⟨trivial, hv⟩]
    rfl
  refine completes_of_endsAs (congrArg (finish s) hwrite) hon fun t ht => ⟨_, ht, ?_, fun a ha => (effect_tcEnabled ..).rd a (by simpa using ha)⟩
  rw [on_tcEnabled, hv]
  rfl

end

end

/-- Settles O13: a late command raises BUDGET or faults, where the fault shown outlives the teardown; a kill that completes is counted and
frees the core; the enable is stored, and 0 pre-empts outside a MAINT slot. -/
theorem budgetsKillsAndCoreEnable : Obligations.BudgetsKillsAndCoreEnable := by
  unfold Obligations.BudgetsKillsAndCoreEnable
  intro s n p c hon hn hp
  refine ⟨?_, ?_, ?_, ?_, ?_, ?_⟩
  · exact fun st => completes_budgetRaise hon hn hp
  · exact fun st ctx k => completes_budgetKill hon hn hp
  · exact completes_killComplete hon
  · exact fun who v => completes_tcEnable_on hon hn
  · exact fun who v ctx k st ok hv hen hmaint hcore => completes_tcEnable_off hon hn ok hv hen hmaint hcore
  · exact fun who v => completes_tcEnable_maint hon hn

end Sys2Proof.Machine
end
section
/-! Attention requests, completions and resumed stalls (R70, R80–R85, R101, R142, R167, R170). -/

namespace Sys2Proof.Machine

open Sys2Proof Sys2Proof.Machine.Reg

section

variable {s t u : State} {n p : Nat} {c : Cmd}

/-! ### Spans released -/

/-- The region pointers of a core. -/
def pointerRegs (n : Nat) : List Nat := (List.range 4).flatMap fun x => (List.range 16).map fun r => rgnPtr n x r

theorem rgnPtr_mem (n ref : Nat) : rgnPtr n (refStore ref) (refRgn ref) ∈ pointerRegs n :=
  List.mem_flatMap.mpr ⟨refStore ref, List.mem_range.mpr (bitsOf_lt ..), List.mem_map.mpr ⟨refRgn ref, List.mem_range.mpr (bitsOf_lt ..), rfl⟩⟩

/-- From `s` to `t` only region pointers of core `n` and the log of their moves change. -/
structure MovesOnly (n : Nat) (s t : State) : Prop where
  moves : ∃ m, coreOf t n = { coreOf s n with moves := m }
  others : ∀ m, m ≠ n → coreOf t m = coreOf s m
  keeps : ∀ p, p ≠ .cores → Keeps s t p
  acks : t.acks = s.acks
  rd : ∀ a, a ∉ pointerRegs n → t.rd a = s.rd a

theorem MovesOnly.effect (h : MovesOnly n s t) : Effect (pointerRegs n) [.cores] s t := ⟨h.rd, fun p hp => h.keeps p (by simpa using hp)⟩

theorem MovesOnly.refl (n : Nat) (s : State) : MovesOnly n s s := ⟨⟨_, rfl⟩, fun _ _ => rfl, fun p _ => Keeps.refl s p, rfl, fun _ _ => rfl⟩

theorem MovesOnly.trans (h : MovesOnly n s t) (k : MovesOnly n t u) : MovesOnly n s u := by
  obtain ⟨m, hm⟩ := h.moves
  obtain ⟨m', hm'⟩ := k.moves
  exact ⟨⟨m', by rw [hm', hm]⟩, fun m ne => (k.others m ne).trans (h.others m ne), fun p hp => (h.keeps p hp).trans (k.keeps p hp), k.acks.trans h.acks,
    fun a ha => (k.rd a ha).trans (h.rd a ha)⟩

theorem MovesOnly.foldl {α : Type} {f : State → α → State} (hf : ∀ u x, MovesOnly n u (f u x)) (xs : List α) (s : State) :
    MovesOnly n s (xs.foldl f s) := by
  induction xs generalizing s with
  | nil => exact .refl n s
  | cons x xs ih => exact (hf s x).trans (ih _)

theorem movesOnly_logMove (key at_ d : Nat) : MovesOnly n s (s.logMove n key at_ d) :=
  ⟨⟨tset (coreOf s n).moves key ((at_, d) :: tgetD (coreOf s n).moves key []), by rw [State.logMove, coreOf, tgetD_tset_same]⟩,
    fun _ hm => tgetD_tset_ne _ _ _ _ _ hm,
    fun q hq => ((Effect.refl (regs := []) (parts := [.cores]) s).logMove List.mem_cons_self ..).keeps q (by simpa using hq), rfl, fun _ _ => rfl⟩

theorem movesOnly_put {f : Fld} (hf : f.addr ∈ pointerRegs n) (v : Nat) : MovesOnly n s (s.put f v) :=
  ⟨⟨(coreOf s n).moves, rfl⟩, fun _ _ => rfl,
    fun q _ => ((Effect.refl (regs := [f.addr]) (parts := []) s).put v List.mem_cons_self).keeps q List.not_mem_nil, rfl,
    fun _ ha => State.rd_put_ne _ _ _ _ fun he => ha (he ▸ hf)⟩

theorem movesOnly_releaseSpan (ref span at_ : Nat) : MovesOnly n s (releaseSpan s n ref span at_) := by
  unfold releaseSpan
  extract_lets x r p d
  split
  · exact (movesOnly_put (f := ⟨rgnPtr n x r, 16, 0⟩) (rgnPtr_mem n ref) p).trans (movesOnly_logMove ..)
  · exact .refl n s

theorem movesOnly_releaseOperands (d kext bit at_ : Nat) : MovesOnly n s (releaseOperands s n d kext bit at_) :=
  .foldl (fun u _ => by
    split
    · exact movesOnly_releaseSpan ..
    · exact .refl n u) _ s

theorem movesOnly_dropPlane (x : Option Plane) (at_ : Nat) : MovesOnly n s (dropPlane s n x at_) := by
  unfold dropPlane
  split
  · split
    · exact movesOnly_releaseOperands ..
    · exact .refl n s
  · exact .refl n s

theorem rd_put_congr (h : ∀ a, t.rd a = s.rd a) (f : Fld) (v a : Nat) : (t.put f v).rd a = (s.put f v).rd a := by
  rw [State.put, State.put, h]
  by_cases ha : a = f.addr
  · rw [ha, State.rd_wr_same, State.rd_wr_same]
  · rw [State.rd_wr_ne _ _ _ _ ha, State.rd_wr_ne _ _ _ _ ha, h]

/-- The registers after a release do not depend on its cycle. -/
theorem rd_releaseSpan (h : ∀ a, t.rd a = s.rd a) (ref span x y a : Nat) : (releaseSpan t n ref span x).rd a = (releaseSpan s n ref span y).rd a := by
  have hget (f : Fld) : t.get f = s.get f := by rw [State.get, State.get, h]
  have hlines (x r : Nat) : rgnLines t n x r = rgnLines s n x r := by rw [rgnLines, rgnLines, rgnSize, rgnSize, hget]
  have hdist (x r p : Nat) : posDist t n x r p = posDist s n x r p := by rw [posDist, posDist, hlines, rgnHead, rgnHead, hget]
  unfold releaseSpan
  simp only [hlines, hdist]
  generalize posDist s n _ _ _ = d
  by_cases hd : d ≤ rgnLines s n (refStore ref) (refRgn ref)
  · rw [if_pos hd, if_pos hd]
    exact rd_put_congr h ..
  · rw [if_neg hd, if_neg hd]
    exact h a

theorem rd_foldl_congr {α : Type} {f g : State → α → State}
    (hfg : ∀ u v o, (∀ a, u.rd a = v.rd a) → ∀ a, (f u o).rd a = (g v o).rd a) (os : List α) {u v : State} (h : ∀ a, u.rd a = v.rd a) (a : Nat) :
    (os.foldl f u).rd a = (os.foldl g v).rd a := by
  induction os generalizing u v with
  | nil => exact h a
  | cons o os ih => exact ih (hfg u v o h)

theorem rd_dropPlane (pl : Option Plane) (x y a : Nat) : (dropPlane s n pl x).rd a = (dropPlane s n pl y).rd a := by
  unfold dropPlane
  split
  · split
    · refine rd_foldl_congr (fun u v o h b => ?_) _ (fun _ => rfl) a
      split
      · exact rd_releaseSpan h ..
      · exact h b
    · rfl
  · rfl

/-! ### An ATTN takes the planes and sends its request (R70, R142, R167) -/

/-- The LOAD that an ATTN displaces. -/
def displacedLoad (k : Core) : Option (Nat × Bool) :=
  match k.shadow with
  | some x => some (x.desc, x.rel)
  | none => k.reload

/-- A core whose planes an ATTN has taken. -/
def planesTaken (k : Core) : Core := { k with active := none, shadow := none, shadowSt := 0, reload := displacedLoad k }

/-- The request of an ATTN. -/
def attnRequest (s : State) (n : Nat) (c : Cmd) (ctx lc pool : Nat) : PageReq :=
  { kind := 0, core := n, pool := pool, ptab := atPtab c.desc, at_ := s.cyc, tie := lc * 64 + ctx, waits := false }

/-- The cycle in which the paths that an ATTN excludes have come to rest. -/
def planesFree (s : State) (n : Nat) (c : Cmd) : Nat :=
  [0, 1, 2].foldl (fun t p => max t ((coreOf s n).mark (doneKey + p))) (c.start.getD 0)

/-- The planes are taken. -/
def attnBegun (s : State) (n : Nat) (c : Cmd) : State :=
  let v := dropPlane s n (coreOf s n).active (planesFree s n c)
  v.setCore n (planesTaken (coreOf v n))

/-- The request is sent, and the ATTN waits for its answer. -/
def attnSent (s : State) (n : Nat) (c : Cmd) (ctx lc : Nat) : State :=
  let h := kvHeader s ctx (atPtab c.desc)
  setCmd (h.1.kvpPut (attnRequest h.1 n c ctx lc (hdPool h.2 % 8))) n 3 { c with wait := 5 }

theorem exec_attn_start {rest : List Cmd} (hlive : coreLive s n = true) (hqueue : (coreOf s n).queue 3 = c :: rest)
    (hstart : c.start.isSome = true) (hlanded : c.landed = []) (hwait : c.wait ≠ 5)
    (hbefore : ∀ p < 3, ∀ q ∈ (coreOf s n).queue p, c.no ≤ q.no) :
    ∃ ctx lc, exec (.attn n) s = finish s (attnSent (attnBegun s n c) n c ctx lc) := by
  obtain ⟨st, hst⟩ := Option.isSome_iff_exists.mp hstart
  have hgo : ¬ (c.wait = 5 ∨ ([0, 1, 2].any fun p => ((coreOf s n).queue p).any fun q => decide (q.no < c.no)) = true) := by
    rintro (h | h)
    · exact hwait h
    · obtain ⟨p, hp, hany⟩ := List.any_eq_true.mp h
      obtain ⟨q, hq, hlt⟩ := List.any_eq_true.mp hany
      have hle := hbefore p (by fin_cases hp <;> decide) q hq
      have hlt' := of_decide_eq_true hlt
      omega
  refine ⟨((coreOf (dropPlane s n (coreOf s n).active (planesFree s n c)) n).job.getD (0, 0)).1,
    ((coreOf (dropPlane s n (coreOf s n).active (planesFree s n c)) n).job.getD (0, 0)).2, ?_⟩
  show execAttn n s = _
  unfold execAttn
  simp only [hlive, hqueue, Bool.not_true, Bool.false_eq_true, if_false, startCmd_started hst]
  rw [if_pos hlanded, if_neg hgo]
  rfl

/-- What the planes' release and the exchange show. -/
theorem attnBegun_shows (s : State) (n : Nat) (c : Cmd) : (∃ m, coreOf (attnBegun s n c) n = planesTaken { coreOf s n with moves := m }) ∧
    (∀ a, a ∉ [TC_STAT n, TC_CTX n] → (attnBegun s n c).rd a = (dropPlane s n (coreOf s n).active 0).rd a) ∧
    Effect ([TC_STAT n, TC_CTX n] ++ pointerRegs n) [.cores] s (attnBegun s n c) := by
  have hmoves := movesOnly_dropPlane (s := s) (n := n) (coreOf s n).active (planesFree s n c)
  have hrd (a : Nat) := rd_dropPlane (s := s) (n := n) (coreOf s n).active (planesFree s n c) 0 a
  unfold attnBegun
  simp only
  generalize dropPlane s n (coreOf s n).active (planesFree s n c) = v at hmoves hrd ⊢
  obtain ⟨m, hm⟩ := hmoves.moves
  have hset := effect_setCore (s := v) (n := n) (planesTaken (coreOf v n))
  refine ⟨⟨m, by rw [coreOf_setCore_same, hm]⟩, fun a ha => (hset.rd a ha).trans (hrd a),
    (hmoves.effect.mono (List.subset_append_right _ _) (List.Subset.refl _)).trans (hset.mono (List.subset_append_left _ _) (List.Subset.refl _))⟩

theorem map_setCmd {rest : List Cmd} (hrest : ∀ q ∈ rest, q.no ≠ c.no) {x : Cmd} (hx : x.no = c.no) :
    ((c :: rest).map fun q => if q.no = x.no then x else q) = x :: rest := by
  rw [List.map_cons, if_pos hx.symm]
  refine congrArg (x :: ·) ?_
  conv_rhs => rw [← List.map_id rest]
  exact List.map_congr_left fun q hq => if_neg (hx ▸ hrest q hq)

/-- What a request sent shows. -/
theorem attnSent_shows {rest : List Cmd} (hqueue : (coreOf s n).queue 3 = c :: rest) (hrest : ∀ q ∈ rest, q.no ≠ c.no) (ctx lc : Nat) :
    (∃ r, (attnSent s n c ctx lc).kvpQueue = (s.kvpPut r).kvpQueue ∧ r.kind = 0 ∧ r.core = n ∧ r.ptab = atPtab c.desc ∧ r.at_ = s.cyc) ∧
    coreOf (attnSent s n c ctx lc) n = (coreOf s n).withQueue 3 ({ c with wait := 5 } :: rest) ∧ (attnSent s n c ctx lc).pools = s.pools ∧
    Effect ([TC_STAT n, TC_CTX n] ++ accessRegs) (.cores :: .pools :: engineParts) s (attnSent s n c ctx lc) := by
  have hread : Effect accessRegs engineParts s (kvHeader s ctx (atPtab c.desc)).1 := effect_engineRead ..
  unfold attnSent
  simp only
  generalize kvHeader s ctx (atPtab c.desc) = h at hread ⊢
  obtain ⟨u, h⟩ := h
  simp only at hread ⊢
  have hpools := hread.keeps .pools (by decide)
  have hcyc := (hread.keeps .time (by decide)).1
  have hcore := coreOf_of_cores (hread.keeps .cores (by decide)).1 n
  have hput : Effect ([TC_STAT n, TC_CTX n] ++ accessRegs) (.cores :: .pools :: engineParts) s
      (u.kvpPut (attnRequest u n c ctx lc (hdPool h % 8))) :=
    (hread.mono (List.subset_append_right _ _) (by simp)).components rfl fun p hp => by
      cases p
      case pools => exact absurd (by simp) hp
      all_goals simp [Keeps, State.kvpPut]
  have hsent := (effect_setCore (s := u.kvpPut (attnRequest u n c ctx lc (hdPool h % 8))) (n := n)
    ((coreOf u n).withQueue 3 (((coreOf u n).queue 3).map fun q => if q.no = c.no then { c with wait := 5 } else q))).keeps .pools (by decide)
  refine ⟨⟨attnRequest u n c ctx lc (hdPool h % 8), hsent.2.trans ?_, rfl, rfl, rfl, hcyc⟩, ?_, hsent.1.trans hpools.1,
    hput.setCmd (by simp) (by simp) (by simp) _⟩
  · rw [State.kvpPut, State.kvpPut, hpools.2]
  · rw [setCmd, coreOf_setCore_same]
    show (coreOf u n).withQueue 3 (((coreOf u n).queue 3).map fun q => if q.no = c.no then { c with wait := 5 } else q) = _
    rw [hcore, hqueue, map_setCmd hrest (x := { c with wait := 5 }) rfl]

theorem completes_attn_start (hon : s.powered) {rest : List Cmd} (hlive : coreLive s n = true) (hqueue : (coreOf s n).queue 3 = c :: rest)
    (hstart : c.start.isSome = true) (hlanded : c.landed = []) (hwait : c.wait ≠ 5)
    (hbefore : ∀ p < 3, ∀ q ∈ (coreOf s n).queue p, c.no ≤ q.no) (hrest : ∀ q ∈ rest, q.no ≠ c.no) : Completes (.attn n) s fun t =>
      (∃ r, t.kvpQueue = (s.kvpPut r).kvpQueue ∧ r.kind = 0 ∧ r.core = n ∧ r.ptab = atPtab c.desc ∧ r.at_ = s.cyc) ∧
      (coreOf t n).queue 3 = { c with wait := 5 } :: rest ∧
      (coreOf t n).active = none ∧ (coreOf t n).shadow = none ∧ (coreOf t n).shadowSt = 0 ∧ t.pools = s.pools ∧
      (coreOf t n).reload = displacedLoad (coreOf s n) ∧
      (∀ a, a ∉ [TC_STAT n, TC_CTX n, DGN_CNT_MERGE, DGN_EVT] → a ∉ engineRegs →
        t.rd a = (dropPlane s n (coreOf s n).active 0).rd a) ∧
      ∀ p, p ∉ .cores :: .pools :: engineParts → Keeps s t p := by
  obtain ⟨ctx, lc, hexec⟩ := exec_attn_start hlive hqueue hstart hlanded hwait hbefore
  obtain ⟨⟨m, hm⟩, hrd, hbegun⟩ := attnBegun_shows s n c
  generalize attnBegun s n c = u at hexec hm hrd hbegun
  have hcyc := (hbegun.keeps .time (by decide)).1
  have hpools := hbegun.keeps .pools (by decide)
  obtain ⟨⟨r, hput, hkind, hown, hptab, hat⟩, hcore, hpool, heff⟩ :=
    attnSent_shows (s := u) (n := n) (c := c) (rest := rest) (by rw [hm]; exact hqueue) hrest ctx lc
  generalize attnSent u n c ctx lc = v at hexec hput hcore hpool heff
  refine completes_of_settled hexec hon fun t hs => ?_
  have hc : coreOf t n = (planesTaken { coreOf s n with moves := m }).withQueue 3 ({ c with wait := 5 } :: rest) := by
    rw [coreOf_of_cores hs.cores, hcore, hm]
  refine ⟨⟨r, ?_, hkind, hown, hptab, hat.trans hcyc⟩, ?_, ?_, ?_, ?_, ?_, ?_, fun a ha he => ?_, fun p hp => ?_⟩
  · rw [hs.kvpQueue, hput, State.kvpPut, State.kvpPut, hpools.2]
  · rw [hc]
    exact Core.queue_withQueue ..
  · rw [hc]
    rfl
  · rw [hc]
    rfl
  · rw [hc]
    rfl
  · rw [hs.pools, hpool, hpools.1]
  · rw [hc]
    rfl
  · simp only [List.mem_cons, List.not_mem_nil, or_false, not_or] at ha
    obtain ⟨hstat, hctx, hmerge, hevt⟩ := ha
    rw [hs.rd a hmerge hevt, heff.rd a (by simp [accessRegs, hstat, hctx, hmerge, hevt, he]), hrd a (by simp [hstat, hctx])]
  · have hall : Effect ([TC_STAT n, TC_CTX n] ++ pointerRegs n ++ accessRegs) (.cores :: .pools :: engineParts) s v :=
      (hbegun.mono (List.subset_append_left _ _) (by simp)).trans (heff.mono (fun a ha => (List.mem_append.mp ha).elim
        (fun h => List.mem_append_left _ (List.mem_append_left _ h)) (List.mem_append_right _)) (List.Subset.refl _))
    exact (hs.changesOnly hall).keeps p hp

/-- An ATTN whose pages were refused writes zeros (R170). -/
theorem completes_attn_skipped (hon : s.powered) {due : Nat} (h : LastUnit s n 3 6 c (attnWork c n) due) (hskip : c.landed.contains 2 = true) :
    Completes (.attn n) s fun t => ∀ a, memGet t.mem a = memGet (writeLines s n (dw c.desc 1 63 32) 0
      (List.replicate (atNQ c.desc * rowLines (atOElems c.desc) (atQFmt c.desc) * 512) 0#8)).mem a := by
  have hlanded : c.landed ≠ [] := fun he => by simp [he] at hskip
  have hzeros (j : Nat) : ((attnWork c n).effect j s).1 = writeLines s n (dw c.desc 1 63 32) 0
      (List.replicate (atNQ c.desc * rowLines (atOElems c.desc) (atQFmt c.desc) * 512) 0#8) := by
    unfold attnWork
    simp only
    rw [if_pos (show atSkipped c = true from hskip)]
  obtain ⟨t, hnext, -, hmem⟩ := completes_attnUnit hon hlanded h
  exact ⟨t, hnext, fun a => by rw [hmem a, hzeros]⟩

/-! ### A command of a path completes (R83, R101) -/

theorem movesOnly_spansReleased (cycle : Nat) : MovesOnly n s (spansReleased s n c cycle) := by
  have hreleased (b : Bool) (kext bit : Nat) (u : State) : MovesOnly n u (onIf b (fun s => releaseOperands s n c.desc kext bit cycle) u) := by
    unfold onIf
    split
    · exact movesOnly_releaseOperands ..
    · exact .refl n u
  exact (hreleased ..).trans (hreleased ..)

theorem cores_undefineWork (s : State) (n : Nat) : (undefineWork s n).cores = s.cores := rfl

/-- The end of an ATTN that displaced no LOAD leaves the commands. -/
theorem queue_attnDone (hreload : (coreOf s n).reload = none) (cycle r : Nat) : (coreOf (attnDone s n cycle) n).queue r = (coreOf s n).queue r := by
  have hcores : coreOf (undefineWork (releasePins s n) n) n = coreOf s n := 
    coreOf_of_cores ((cores_undefineWork ..).trans (leavesCores_releasePins (s := s) n).cores) n
  unfold attnDone
  simp only [hcores, show ((coreOf s n).setMark attnKey cycle).reload = none from hreload]
  rw [coreOf_setCore_same]
  rfl

theorem queue_pathDone (hsilent : c.silent = false) (hreload : p = 3 → (coreOf s n).reload = none) (cycle r : Nat) :
    (coreOf (pathDone s n p c cycle) n).queue r = (coreOf s n).queue r := by
  obtain ⟨m, hm⟩ := (movesOnly_spansReleased (s := s) (n := n) (c := c) cycle).moves
  have hqueue : (coreOf (spansReleased s n c cycle) n).queue r = (coreOf s n).queue r := by
    rw [hm]
    rfl
  unfold pathDone
  split
  · rw [loadDone, if_neg (by simp [hsilent]), coreOf_setCore_same]
    rfl
  · split
    · next h3 => rw [queue_attnDone (by rw [hm]; exact hreload h3), hqueue]
    · exact hqueue

theorem shadowSt_pathDone (hsilent : c.silent = false) (cycle : Nat) : (coreOf (pathDone s n 1 c cycle) n).shadowSt = 2 := by
  rw [pathDone, if_pos rfl, loadDone, if_neg (by simp [hsilent]), coreOf_setCore_same]
  rfl

theorem completes_command (hon : s.powered) (hn : n < 8) {due : Nat} (hlive : coreLive s n = true) (halone : (coreOf s n).queue p = [c])
    (hdone : c.doneAt = some due) (hdue : due ≤ nowOf s n) (hsilent : c.silent = false) (hreload : p = 3 → (coreOf s n).reload = none) :
    Completes (.commandComplete n p) s fun t =>
      (coreOf t n).queue p = [] ∧ t.get (TC_SEQ_DONE n) = dSeq c.desc ∧ (p = 1 → (coreOf t n).shadowSt = 2) ∧
      (dIrq c.desc = true → t.on (TC_EVT_DONE n) = true) := by
  have hexec : exec (.commandComplete n p) s = finish s (completeStatus (pathDone (unqueued s n p c due) n p c due) n c due) := by
    show execCommandComplete n p s = _
    unfold execCommandComplete
    simp only [hlive, halone, Bool.not_true, Bool.false_eq_true, if_false]
    rw [List.find?_cons_of_pos (by simp [hdone, hdue])]
    simp only [hdone, Option.getD_some, completeCmd_eq, hsilent, Bool.false_eq_true, if_false]
  have hgone : (coreOf (unqueued s n p c due) n).queue p = [] := by
    rw [unqueued, coreOf_setCore_same, queue_setMark, Core.queue_withQueue, halone]
    simp
  have hkept : (coreOf (unqueued s n p c due) n).reload = (coreOf s n).reload := by
    rw [unqueued, coreOf_setCore_same]
    rfl
  generalize unqueued s n p c due = u at hexec hgone hkept
  have hqueue := (queue_pathDone (c := c) hsilent (fun h3 => hkept.trans (hreload h3)) due p).trans hgone
  have hready : p = 1 → (coreOf (pathDone u n p c due) n).shadowSt = 2 := fun h1 => by
    rw [h1]
    exact shadowSt_pathDone hsilent due
  generalize pathDone u n p c due = v at hexec hqueue hready
  have hshown := completionShown (s := v) hn c due
  generalize completeStatus v n c due = w at hexec hshown
  obtain ⟨hsettle, hevt⟩ := seq_settles hn
  refine completes_of_settled hexec hon fun t hs => ?_
  have hcore : coreOf t n = coreOf v n := coreOf_of_cores (hs.cores.trans hshown.cores) n
  refine ⟨by rw [hcore, hqueue], ?_, fun h1 => by rw [hcore, hready h1], fun hirq => ?_⟩
  · rw [hs.get _ hsettle.1 hsettle.2, hshown.seq]
  · rw [hs.on _ hevt.1 hevt.2, hshown.done hirq]

/-! ### A stalled read issues (R80) -/

/-- Issuing a unit changes the planes only where a compute command has its swap still to make. -/
theorem issue_workOf (hswap : dOpc c.desc = 2 ∨ dOpc c.desc = 3 → 0 < c.unit ∨ cpSwap c.desc = false ∨ c.swapped = true) (at_ : Nat) (u : State) :
    (workOf s n c).issue c.unit at_ u = u := by
  have hgrid (h : dOpc c.desc = 2 ∨ dOpc c.desc = 3) : (gridWork s n c).issue c.unit at_ u = u := by
    rw [issue_gridWork, gridIssue]
    refine if_neg fun ⟨hzero, hon, hnot⟩ => ?_
    rcases hswap h with h | h | h
    · omega
    · exact Bool.false_ne_true (h.symm.trans hon)
    · simp [h] at hnot
  unfold workOf
  simp only
  split
  · rfl
  · next h => exact hgrid (.inl h)
  · next h => exact hgrid (.inr h)
  · rfl
  · rfl
  · unfold attnWork
    simp only
    split <;> rfl
  · rfl

/-- A command that has issued its next unit in a cycle. -/
def issuedCmd (c : Cmd) (w : Work) (at_ : Nat) : Cmd :=
  { c with
    wait := 0, unit := c.unit + 1, next := at_ + w.cost c.unit
    pipe := c.pipe ++ [w.due c.unit at_ (at_ + w.cost c.unit)]
    stalls := c.stalls + (at_ - c.next) }

/-- The path of a command whose last unit has issued is free. -/
def pathFreed (s : State) (n p total : Nat) (c : Cmd) : State :=
  if c.unit ≥ total then s.setCore n ((coreOf s n).setMark p c.next) else s

theorem pathFreed_shows (total : Nat) : (coreOf (pathFreed s n p total c) n).queue p = (coreOf s n).queue p ∧
    Effect [TC_STAT n, TC_CTX n] [.cores] s (pathFreed s n p total c) := by
  unfold pathFreed
  split
  · exact ⟨by rw [coreOf_setCore_same, queue_setMark], effect_setCore _⟩
  · exact ⟨rfl, Effect.refl s⟩

theorem issueUnit_alone {w : Work} {f : Nat} (halone : (coreOf s n).queue p = [c]) (hmore : c.unit < w.total)
    (hfrom : allFrom (readFrom s n) (w.reads c.unit) = some f) (hnow : max f c.next ≤ nowOf s n) (hissue : ∀ at_ u, w.issue c.unit at_ u = u) :
    issueUnit w n p c.no (nowOf s n) s = pathFreed (setCmd (s.countWrap (TC_CNT_TAIL_VALUE n) (max f c.next - c.next)) n p
      (issuedCmd c w (max f c.next))) n p w.total (issuedCmd c w (max f c.next)) := by
  have hstall : f - c.next = max f c.next - c.next := by omega
  have hat : c.next + (max f c.next - c.next) = max f c.next := by omega
  have hgo : ¬ (w.total ≤ c.unit ∨ nowOf s n < c.next) := by omega
  have hstill : getCmd (s.countWrap (TC_CNT_TAIL_VALUE n) (max f c.next - c.next)) n p c.no = some c := getCmd_alone halone
  unfold issueUnit
  simp only [getCmd_alone halone, hfrom, hstall, hat, hissue, hstill]
  rw [if_neg hgo, if_neg (Nat.not_lt.mpr hnow)]
  rfl

theorem completes_readStall (hon : s.powered) (hn : n < 8) {f : Nat} (hlive : coreLive s n = true) (halone : (coreOf s n).queue p = [c])
    (hp : p < 4) (hwait : c.wait = 1) (hmore : c.unit < (workOf s n c).total)
    (hfrom : allFrom (readFrom s n) ((workOf s n c).reads c.unit) = some f) (hnow : max f c.next ≤ nowOf s n)
    (hswap : dOpc c.desc = 2 ∨ dOpc c.desc = 3 → 0 < c.unit ∨ cpSwap c.desc = false ∨ c.swapped = true) :
    Completes (.readStallResume n p) s fun t =>
      (coreOf t n).queue p = [issuedCmd c (workOf s n c) (max f c.next)] ∧
      t.get (TC_CNT_TAIL_VALUE n) = (s.get (TC_CNT_TAIL_VALUE n) + (max f c.next - c.next)) % 2 ^ 64 ∧
      ChangesOnly [TC_STAT n, TC_CTX n, TC_CNT_TAIL n] [.cores] s t := by
  have hstalled : stalled s n p 1 = some c := by
    rw [stalled, halone, List.find?_cons_of_pos (by simp [hwait])]
  have hexec : exec (.readStallResume n p) s = finish s (issueUnit (workOf s n c) n p c.no (nowOf s n) s) := by
    show execReadStallResume n p s = _
    unfold execReadStallResume
    simp only [hlive, hstalled, Bool.not_true, Bool.false_eq_true, if_false]
    rw [if_neg (by omega)]
  rw [issueUnit_alone halone hmore hfrom hnow fun at_ u => issue_workOf hswap at_ u] at hexec
  generalize workOf s n c = w at hexec ⊢
  generalize max f c.next = at_ at hexec ⊢
  have hcount : Effect [TC_STAT n, TC_CTX n, TC_CNT_TAIL n] [.cores] s (s.countWrap (TC_CNT_TAIL_VALUE n) (at_ - c.next)) :=
    (Effect.refl s).countWrap _ (by simp [TC_CNT_TAIL_VALUE])
  have htail : (s.countWrap (TC_CNT_TAIL_VALUE n) (at_ - c.next)).get (TC_CNT_TAIL_VALUE n) = (s.get (TC_CNT_TAIL_VALUE n) + (at_ - c.next)) % 2 ^ 64 :=
    State.get_countWrap (show 0 ≤ 63 ∧ 63 < 64 by decide) _
  have hqueue : (coreOf (s.countWrap (TC_CNT_TAIL_VALUE n) (at_ - c.next)) n).queue p = [c] := halone
  generalize s.countWrap (TC_CNT_TAIL_VALUE n) (at_ - c.next) = u at hexec hcount htail hqueue
  have hset : Effect [TC_STAT n, TC_CTX n] [.cores] u (setCmd u n p (issuedCmd c w at_)) := effect_setCore _
  have hissued : (coreOf (setCmd u n p (issuedCmd c w at_)) n).queue p = [issuedCmd c w at_] := queue_setCmd_alone hqueue rfl
  generalize setCmd u n p (issuedCmd c w at_) = v at hexec hset hissued
  obtain ⟨hfreed, hfree⟩ := pathFreed_shows (s := v) (n := n) (p := p) (c := issuedCmd c w at_) w.total
  generalize pathFreed v n p w.total (issuedCmd c w at_) = x at hexec hfreed hfree
  have hall := hset.trans hfree
  have hne : TC_CNT_TAIL n ∉ [TC_STAT n, TC_CTX n] := by
    simp only [List.mem_cons, List.not_mem_nil, or_false, TC_STAT, TC_CTX, TC_CNT_TAIL]
    omega
  obtain ⟨h1, h2⟩ := core_settles hn (a := TC_CNT_TAIL n) (by unfold TC_CNT_TAIL TC_CTRL; omega)
  refine completes_of_settled hexec hon fun t hs => ⟨?_, ?_, hs.changesOnly (hcount.trans (hall.mono (by simp) (List.Subset.refl _)))⟩
  · rw [coreOf_of_cores hs.cores, hfreed, hissued]
  · rw [hs.get _ h1 h2, hall.get hne, htail]

/-! ### A stalled write is written (R81) -/

/-- The unit of a command of the weight, compute and vector paths changes memory or the shadow plane. -/
theorem effect_pathUnit (hp : p < 3) (hpath : opcPath (dOpc c.desc) = p) (j : Nat) :
    Effect [TC_STAT n, TC_CTX n] [.cores, .mem] t ((workOf s n c).effect j t).1 ∧ KeepsQueue t n p ((workOf s n c).effect j t).1 := by
  have hof {v : State} (h : Effect [] [.mem] t v) : Effect [TC_STAT n, TC_CTX n] [.cores, .mem] t v ∧ KeepsQueue t n p v :=
    ⟨h.mono (List.nil_subset _) (by decide), keepsQueue_of_effect h (by decide)⟩
  have hopc : dOpc c.desc = 1 ∨ (dOpc c.desc = 2 ∨ dOpc c.desc = 3) ∨ dOpc c.desc = 4 ∨ dOpc c.desc = 5 ∨ dOpc c.desc = 7 := by
    unfold opcPath at hpath
    split at hpath <;> omega
  rcases hopc with h | h | h
  · rw [workOf_load h]
    refine ⟨(effect_setCore _).mono (List.Subset.refl _) (by decide), ?_⟩
    rw [KeepsQueue, loadWork]
    simp only
    rw [coreOf_setCore_same]
    rfl
  · rw [workOf_grid h]
    exact hof (effect_gridUnit j)
  · exact hof (effect_vectorUnit h j)

/-- A command whose oldest unit has been written `d` cycles late. -/
def lateCmd (c : Cmd) (w : Work) (rest : List Nat) (u d flags : Nat) : Cmd :=
  { c with
    wait := 0, next := c.next + d, pipe := rest.map (· + d), stalls := c.stalls + d, flags := c.flags ||| flags
    doneAt := if c.unit ≥ w.total ∧ rest.map (· + d) = [] then some (u + d) else none }

theorem writeUnit_alone {w : Work} {f x j : Nat} {rest : List Nat} (halone : (coreOf s n).queue p = [c]) (hpipe : c.pipe = x :: rest)
    (hj : j = c.unit - c.pipe.length) (hfrom : allFrom (writeFrom s n) (w.writes j) = some f) (hnow : max x (f + 1) ≤ nowOf s n) :
    writeUnit w n p c.no (nowOf s n) s = setCmd ((tailsPassed (w.effect j s).1 n (w.tails j) (max x (f + 1))).countWrap (TC_CNT_HEAD_VALUE n)
      (max x (f + 1) - x)) n p (lateCmd c w rest x (max x (f + 1) - x) (w.effect j s).2) := by
  have hlate : f + 1 - x = max x (f + 1) - x := by omega
  have hat : x + (max x (f + 1) - x) = max x (f + 1) := by omega
  have hj' : c.unit - (x :: rest).length = j := by rw [hj, hpipe]
  unfold writeUnit
  simp only [getCmd_alone halone, hpipe, hj', hfrom, hlate, hat]
  rw [if_neg (Nat.not_lt.mpr hnow), lateCmd, hat]
  rfl

theorem completes_writeStall (hon : s.powered) (hn : n < 8) {x f j : Nat} {rest : List Nat} (hlive : coreLive s n = true)
    (halone : (coreOf s n).queue p = [c]) (hp : p < 3) (hpath : opcPath (dOpc c.desc) = p) (hwait : c.wait = 2) (hpipe : c.pipe = x :: rest)
    (hj : j = c.unit - c.pipe.length) (hfrom : allFrom (writeFrom s n) ((workOf s n c).writes j) = some f)
    (hnow : max x (f + 1) ≤ nowOf s n) : Completes (.writeStallResume n p) s fun t =>
      (∃ q, getCmd t n p c.no = some q ∧ q.wait = 0 ∧ q.pipe = rest.map (· + (max x (f + 1) - x)) ∧ q.next = c.next + (max x (f + 1) - x) ∧
        q.stalls = c.stalls + (max x (f + 1) - x) ∧ q.flags = c.flags ||| ((workOf s n c).effect j s).2) ∧
      (∀ a, memGet t.mem a = memGet ((workOf s n c).effect j s).1.mem a) ∧
      t.get (TC_CNT_HEAD_VALUE n) = (s.get (TC_CNT_HEAD_VALUE n) + (max x (f + 1) - x)) % 2 ^ 64 ∧
      ∀ y, y ∉ [Part.cores, .mem] → Keeps s t y := by
  have hstalled : stalled s n p 2 = some c := by
    rw [stalled, halone, List.find?_cons_of_pos (by simp [hwait])]
  have hexec : exec (.writeStallResume n p) s = finish s (writeUnit (workOf s n c) n p c.no (nowOf s n) s) := by
    show execWriteStallResume n p s = _
    unfold execWriteStallResume
    simp only [hlive, hstalled, Bool.not_true, Bool.false_eq_true, if_false]
    rw [if_neg (by omega)]
  rw [writeUnit_alone halone hpipe hj hfrom hnow] at hexec
  obtain ⟨hunit, hkeep⟩ := effect_pathUnit (s := s) (t := s) (n := n) hp hpath j
  generalize workOf s n c = w at hexec hunit hkeep ⊢
  generalize max x (f + 1) = at_ at hexec ⊢
  generalize (w.effect j s).2 = flags at hexec ⊢
  generalize (w.effect j s).1 = u at hexec hunit hkeep ⊢
  obtain ⟨htails, -, hmem⟩ := tailsPassed_keeps u n (w.tails j) at_
  have hmoved := effect_tailsPassed (s := u) (n := n) (w.tails j) at_
  have hhead : ∀ a ∈ w.tails j, TC_CNT_HEAD n ≠ rgnPtr n (refStore a.1) (refRgn a.1) := fun a _ he => by
    have hlow := (rgnPtr_bounds n a.1).1
    unfold TC_CNT_HEAD at he
    unfold TC_CTRL at hlow
    omega
  have hnot : TC_CNT_HEAD n ∉ (w.tails j).map fun a => rgnPtr n (refStore a.1) (refRgn a.1) := fun hm => by
    obtain ⟨a, ha, he⟩ := List.mem_map.mp hm
    exact hhead a ha he.symm
  have hne : TC_CNT_HEAD n ∉ [TC_STAT n, TC_CTX n] := by
    simp only [List.mem_cons, List.not_mem_nil, or_false, TC_STAT, TC_CTX, TC_CNT_HEAD]
    omega
  have hbefore : (tailsPassed u n (w.tails j) at_).get (TC_CNT_HEAD_VALUE n) = s.get (TC_CNT_HEAD_VALUE n) :=
    (hmoved.get hnot).trans (hunit.get hne)
  have hqueue : (coreOf (tailsPassed u n (w.tails j) at_) n).queue p = [c] := (htails p).trans (hkeep.trans halone)
  have heff : Effect (TC_CNT_HEAD n :: [TC_STAT n, TC_CTX n] ++ (w.tails j).map fun a => rgnPtr n (refStore a.1) (refRgn a.1)) [.cores, .mem] s
      (tailsPassed u n (w.tails j) at_) := (hunit.mono (by simp) (List.Subset.refl _)).trans (hmoved.mono (List.subset_append_right _ _) (by decide))
  generalize tailsPassed u n (w.tails j) at_ = v at hexec hmem hbefore hqueue heff
  have hcount := heff.countWrap (f := TC_CNT_HEAD_VALUE n) (at_ - x) (by simp [TC_CNT_HEAD_VALUE])
  have hcounted : (v.countWrap (TC_CNT_HEAD_VALUE n) (at_ - x)).get (TC_CNT_HEAD_VALUE n) = (s.get (TC_CNT_HEAD_VALUE n) + (at_ - x)) % 2 ^ 64 := by
    rw [State.get_countWrap (show 0 ≤ 63 ∧ 63 < 64 by decide), hbefore]
    rfl
  have hstill : (coreOf (v.countWrap (TC_CNT_HEAD_VALUE n) (at_ - x)) n).queue p = [c] := hqueue
  have hsame : (v.countWrap (TC_CNT_HEAD_VALUE n) (at_ - x)).mem = v.mem := rfl
  generalize v.countWrap (TC_CNT_HEAD_VALUE n) (at_ - x) = y at hexec hcount hcounted hstill hsame
  have hset : Effect [TC_STAT n, TC_CTX n] [.cores] y (setCmd y n p (lateCmd c w rest x (at_ - x) flags)) := effect_setCore _
  have hfound := queue_setCmd_alone hstill (c := lateCmd c w rest x (at_ - x) flags) rfl
  have hmemset : (setCmd y n p (lateCmd c w rest x (at_ - x) flags)).mem = y.mem := setCore_keeps.2.2.1
  obtain ⟨h1, h2⟩ := core_settles hn (a := TC_CNT_HEAD n) (by unfold TC_CNT_HEAD TC_CTRL; omega)
  refine completes_of_settled hexec hon fun t hs => ⟨⟨lateCmd c w rest x (at_ - x) flags, ?_, rfl, rfl, rfl, rfl, rfl⟩, fun a => ?_, ?_, fun z hz =>
    (hs.changesOnly (hcount.trans (hset.mono (by simp) (by decide)))).keeps z hz⟩
  · exact getCmd_alone (c := lateCmd c w rest x (at_ - x) flags) (by rw [coreOf_of_cores hs.cores, hfound])
  · rw [hs.mem, hmemset, hsame, hmem]
  · rw [hs.get _ h1 h2, hset.get hne, hcounted]

/-! ### The tile mover's stalls -/

theorem exec_readStall_tile (hlive : coreLive s n = true) (halone : (coreOf s n).queue 4 = [c]) (hwait : c.wait = 1) :
    exec (.readStallResume n 4) s = exec (.store n) s := by
  have hstalled : stalled s n 4 1 = some c := by
    rw [stalled, halone, List.find?_cons_of_pos (by simp [hwait])]
  show execReadStallResume n 4 s = execStore n s
  unfold execReadStallResume execStore
  simp only [hlive, hstalled, Bool.not_true, Bool.false_eq_true, if_false, if_true]

theorem exec_writeStall_tile (hlive : coreLive s n = true) (halone : (coreOf s n).queue 4 = [c]) (hwait : c.wait = 2) :
    exec (.writeStallResume n 4) s = exec (.pull n) s := by
  have hstalled : stalled s n 4 2 = some c := by
    rw [stalled, halone, List.find?_cons_of_pos (by simp [hwait])]
  show execWriteStallResume n 4 s = execPull n s
  unfold execWriteStallResume execPull
  simp only [hlive, hstalled, Bool.not_true, Bool.false_eq_true, if_false, if_true]

end

/-- Settles O11: an ATTN takes the planes and sends its request, a refused one writes zeros; a command completes; a stalled read issues and a
stalled write is written in the first cycle that lets it, and the tile mover's go on as a STORE or PULL. -/
theorem attentionRequestsAndCommandsComplete : Obligations.AttentionRequestsAndCommandsComplete := by
  unfold Obligations.AttentionRequestsAndCommandsComplete
  refine ⟨fun s n c hon hn hlive => ⟨fun rest hqueue hstart hlanded hwait hbefore hrest => ?_,
    fun due h hskip => completes_attn_skipped hon h hskip⟩, fun s n p c hon hn hp hlive halone => ⟨?_, ?_, ?_, ?_, ?_⟩⟩
  · obtain ⟨t, hnext, hput, hqueue', hactive, hshadow, hst, hpools, hreload, hrest'⟩ :=
      completes_attn_start hon hlive hqueue hstart hlanded hwait hbefore hrest
    exact ⟨t, hnext, hput, hqueue', hactive, hshadow, hst, hpools, hreload, hrest'⟩
  · exact fun due hdone hdue => completes_command hon hn hlive halone hdone hdue
  · rintro f at_ h4 hwait hmore hfrom rfl hnow hswap
    exact completes_readStall hon hn hlive halone h4 hwait hmore hfrom hnow hswap
  · rintro x rest f at_ j h3 hpath hwait hpipe hj hfrom rfl hnow
    exact completes_writeStall hon hn hlive halone h3 hpath hwait hpipe hj hfrom hnow
  · rintro rfl hwait
    exact exec_readStall_tile hlive halone hwait
  · rintro rfl hwait
    exact exec_writeStall_tile hlive halone hwait

end Sys2Proof.Machine
end
